-- ==== Sys2Proof/Word.lean ====
section
/-! DEFINITION. The word types of the machine: 64-bit registers and bytes (spec/00_scope.md R3). -/

namespace Sys2Proof

/-- A 64-bit register. -/
abbrev Word := BitVec 64

/-- The unit of every memory. -/
abbrev Byte := BitVec 8

end Sys2Proof
end

