-- ==== Sys2Proof/Syntax.lean ====
section
/-! DEFINITION. The instruction set: one constructor for each row of the opcode table (spec/02_encoding.md R36 to R53 for
the words; spec/95_what_each_step_holds.md for the steps without bits). Fields carry the bits of the word; nothing is decoded twice. -/

namespace Sys2Proof

/-- The guard of a vector word (R43): with `e` clear the word is unguarded; with `e` set lanes act where predicate `p` equals NOT `inv`. -/
structure Guard where
  e : Bool
  inv : Bool
  p : BitVec 4
deriving DecidableEq, Repr

/-- The transfer unit that an event concerns: L or W (R12). -/
inductive Unit2 where
  | L
  | W
deriving DecidableEq, Repr

/-- The latent-fault tests of R466, one constructor for each row of its table (and each unit a row names). -/
inductive SelfTest where
  | lbistBay | lbistTruss | lbistJointer | mbistBank | mbistAcc | mbistSlice | mbistLineBuffer | columnScan
  | comparator | eccSram | eccDram | paritySweep | monitorClock | monitorVoltage | loopAphy | loopEther | loopPcie | crossCheck
deriving DecidableEq, Repr

/-- The units that the Foreman may bring a spare in for (R373). -/
inductive SpareUnit where
  | bay | bank | column | planeRow | slice | jointer | lath | dramRow
deriving DecidableEq, Repr

/-- One constructor for each row of spec/opcode_table.json. -/
inductive Instr where
  /-- ADD (R109). -/
  | add (d : BitVec 5) (a : BitVec 5) (b : BitVec 5)
  /-- SUB (R109). -/
  | sub (d : BitVec 5) (a : BitVec 5) (b : BitVec 5)
  /-- MUL (R109). -/
  | mul (d : BitVec 5) (a : BitVec 5) (b : BitVec 5)
  /-- MULH (R109). -/
  | mulh (d : BitVec 5) (a : BitVec 5) (b : BitVec 5)
  /-- MULHW (R109). -/
  | mulhw (d : BitVec 5) (a : BitVec 5) (b : BitVec 5)
  /-- DIV (R110). -/
  | div (d : BitVec 5) (a : BitVec 5) (b : BitVec 5)
  /-- DIVW (R110). -/
  | divw (d : BitVec 5) (a : BitVec 5) (b : BitVec 5)
  /-- REM (R110). -/
  | rem (d : BitVec 5) (a : BitVec 5) (b : BitVec 5)
  /-- REMW (R110). -/
  | remw (d : BitVec 5) (a : BitVec 5) (b : BitVec 5)
  /-- AND (R109). -/
  | and (d : BitVec 5) (a : BitVec 5) (b : BitVec 5)
  /-- OR (R109). -/
  | or (d : BitVec 5) (a : BitVec 5) (b : BitVec 5)
  /-- XOR (R109). -/
  | xor (d : BitVec 5) (a : BitVec 5) (b : BitVec 5)
  /-- ANDN (R109). -/
  | andn (d : BitVec 5) (a : BitVec 5) (b : BitVec 5)
  /-- SHL (R109). -/
  | shl (d : BitVec 5) (a : BitVec 5) (b : BitVec 5)
  /-- SHR (R109). -/
  | shr (d : BitVec 5) (a : BitVec 5) (b : BitVec 5)
  /-- SAR (R109). -/
  | sar (d : BitVec 5) (a : BitVec 5) (b : BitVec 5)
  /-- ROL (R109). -/
  | rol (d : BitVec 5) (a : BitVec 5) (b : BitVec 5)
  /-- MIN (R109). -/
  | min (d : BitVec 5) (a : BitVec 5) (b : BitVec 5)
  /-- MAX (R109). -/
  | max (d : BitVec 5) (a : BitVec 5) (b : BitVec 5)
  /-- MINW (R109). -/
  | minw (d : BitVec 5) (a : BitVec 5) (b : BitVec 5)
  /-- MAXW (R109). -/
  | maxw (d : BitVec 5) (a : BitVec 5) (b : BitVec 5)
  /-- SLT (R109). -/
  | slt (d : BitVec 5) (a : BitVec 5) (b : BitVec 5)
  /-- SLTW (R109). -/
  | sltw (d : BitVec 5) (a : BitVec 5) (b : BitVec 5)
  /-- CLZ (R109). -/
  | clz (d : BitVec 5) (a : BitVec 5)
  /-- CTZ (R109). -/
  | ctz (d : BitVec 5) (a : BitVec 5)
  /-- POPC (R109). -/
  | popc (d : BitVec 5) (a : BitVec 5)
  /-- ADDI (R111). -/
  | addi (d : BitVec 5) (a : BitVec 5) (im : BitVec 15)
  /-- ANDI (R111). -/
  | andi (d : BitVec 5) (a : BitVec 5) (im : BitVec 15)
  /-- ORI (R111). -/
  | ori (d : BitVec 5) (a : BitVec 5) (im : BitVec 15)
  /-- XORI (R111). -/
  | xori (d : BitVec 5) (a : BitVec 5) (im : BitVec 15)
  /-- SHLI (R111). -/
  | shli (d : BitVec 5) (a : BitVec 5) (im : BitVec 6)
  /-- SHRI (R111). -/
  | shri (d : BitVec 5) (a : BitVec 5) (im : BitVec 6)
  /-- SARI (R111). -/
  | sari (d : BitVec 5) (a : BitVec 5) (im : BitVec 6)
  /-- SLTI (R111). -/
  | slti (d : BitVec 5) (a : BitVec 5) (im : BitVec 15)
  /-- LUI (R112). -/
  | lui (d : BitVec 5) (im : BitVec 20)
  /-- BFX (R114). -/
  | bfx (d : BitVec 5) (a : BitVec 5) (o : BitVec 6) (w : BitVec 7)
  /-- BFX_REG (R114). -/
  | bfxReg (d : BitVec 5) (a : BitVec 5) (x : BitVec 5)
  /-- BFXS (R114). -/
  | bfxs (d : BitVec 5) (a : BitVec 5) (o : BitVec 6) (w : BitVec 7)
  /-- BFXS_REG (R114). -/
  | bfxsReg (d : BitVec 5) (a : BitVec 5) (x : BitVec 5)
  /-- BFI (R114). -/
  | bfi (d : BitVec 5) (a : BitVec 5) (o : BitVec 6) (w : BitVec 7)
  /-- BFI_REG (R114). -/
  | bfiReg (d : BitVec 5) (a : BitVec 5) (x : BitVec 5)
  /-- BEQ (R115). -/
  | beq (a : BitVec 5) (b : BitVec 5) (o : BitVec 15)
  /-- BNE (R115). -/
  | bne (a : BitVec 5) (b : BitVec 5) (o : BitVec 15)
  /-- BLT (R115). -/
  | blt (a : BitVec 5) (b : BitVec 5) (o : BitVec 15)
  /-- BGE (R115). -/
  | bge (a : BitVec 5) (b : BitVec 5) (o : BitVec 15)
  /-- BLTW (R115). -/
  | bltw (a : BitVec 5) (b : BitVec 5) (o : BitVec 15)
  /-- BGEW (R115). -/
  | bgew (a : BitVec 5) (b : BitVec 5) (o : BitVec 15)
  /-- JAL (R116). -/
  | jal (d : BitVec 5) (o : BitVec 20)
  /-- JALR (R117). -/
  | jalr (d : BitVec 5) (a : BitVec 5) (im : BitVec 15)
  /-- LOOP (R406). -/
  | loop (c : BitVec 2) (a : BitVec 5) (len : BitVec 8)
  /-- LOOP_STRIDED (R406). -/
  | loopStrided (c : BitVec 2) (a : BitVec 5) (b : BitVec 5) (len : BitVec 8)
  /-- LOOPI (R406). -/
  | loopi (c : BitVec 2) (n : BitVec 15) (len : BitVec 8)
  /-- LOOPR (R406). -/
  | loopr (c : BitVec 2) (a : BitVec 5) (h : BitVec 4) (len : BitVec 8)
  /-- LOOP_BODY_END (R407). -/
  | loopBodyEnd
  /-- LD (R229). -/
  | ld (d : BitVec 5) (a : BitVec 5) (h : BitVec 4) (sz : BitVec 2) (im : BitVec 9)
  /-- LDS (R229). -/
  | lds (d : BitVec 5) (a : BitVec 5) (h : BitVec 4) (sz : BitVec 2) (im : BitVec 9)
  /-- ST (R229). -/
  | st (d : BitVec 5) (a : BitVec 5) (h : BitVec 4) (sz : BitVec 2) (im : BitVec 9)
  /-- AMO_ADD (R230). -/
  | amoAdd (d : BitVec 5) (a : BitVec 5) (h : BitVec 4) (b : BitVec 5) (w : BitVec 1)
  /-- AMO_MIN (R230). -/
  | amoMin (d : BitVec 5) (a : BitVec 5) (h : BitVec 4) (b : BitVec 5) (w : BitVec 1)
  /-- AMO_MAX (R230). -/
  | amoMax (d : BitVec 5) (a : BitVec 5) (h : BitVec 4) (b : BitVec 5) (w : BitVec 1)
  /-- AMO_SWAP (R230). -/
  | amoSwap (d : BitVec 5) (a : BitVec 5) (h : BitVec 4) (b : BitVec 5) (w : BitVec 1)
  /-- AMO_CAS (R230). -/
  | amoCas (d : BitVec 5) (a : BitVec 5) (h : BitVec 4) (b : BitVec 5) (w : BitVec 1)
  /-- AMO_OR (R230). -/
  | amoOr (d : BitVec 5) (a : BitVec 5) (h : BitVec 4) (b : BitVec 5) (w : BitVec 1)
  /-- PHASE (R232). -/
  | phase
  /-- PHASE_COMPLETION (R232). -/
  | phaseCompletion (slot : Nat)
  /-- COMMIT_SWEEP (R225). -/
  | commitSweep (slot : Nat) (granule : Nat)
  /-- FENCE (R231). -/
  | fence (m : BitVec 7)
  /-- BARINIT (R409). -/
  | barinit (a : BitVec 5) (h : BitVec 4) (e : BitVec 7)
  /-- BARARR (R409). -/
  | bararr (a : BitVec 5) (h : BitVec 4) (n : BitVec 4)
  /-- BARWAIT (R409). -/
  | barwait (d : BitVec 5) (a : BitVec 5) (h : BitVec 4) (p : BitVec 4) (b : BitVec 5)
  /-- SPAWN (R298). -/
  | spawn (m : BitVec 4)
  /-- JOIN (R299). -/
  | join
  /-- HALT (R300). -/
  | halt
  /-- HSET (R188). -/
  | hset (h : BitVec 4) (a : BitVec 5) (b : BitVec 5)
  /-- SETPAR (R188). -/
  | setpar (a : BitVec 5) (p : BitVec 12)
  /-- GETPAR (R188). -/
  | getpar (d : BitVec 5) (p : BitVec 12)
  /-- CHPUSH (R302). -/
  | chpush (a : BitVec 5) (c : BitVec 6)
  /-- CHPOP (R303). -/
  | chpop (d : BitVec 5) (c : BitVec 6)
  /-- TKWAIT (R292). -/
  | tkwait (m : BitVec 3)
  /-- TKSIG (R293). -/
  | tksig (m : BitVec 4)
  /-- ROWWAIT (R394). -/
  | rowwait (d : BitVec 5) (a : BitVec 5) (b : BitVec 5) (t : BitVec 5)
  /-- ROWPUB (R392). -/
  | rowpub (a : BitVec 5) (b : BitVec 5)
  /-- FRMWAIT (R394). -/
  | frmwait (d : BitVec 5) (a : BitVec 5) (t : BitVec 5)
  /-- WAIT_BOUND_EXPIRY (R393). -/
  | waitBoundExpiry (bay : Nat)
  /-- SQARM (R397). -/
  | sqarm (a : BitVec 5) (g : BitVec 6)
  /-- SQWAIT (R400). -/
  | sqwait (d : BitVec 5) (b : BitVec 5) (g : BitVec 6)
  /-- SQREL (R401). -/
  | sqrel (g : BitVec 6)
  /-- SQUARE_DEADLINE (R397). -/
  | squareDeadline (grp : Nat)
  /-- SQUARE_COMPLETION (R398). -/
  | squareCompletion (grp : Nat)
  /-- TSREAD (R390). -/
  | tsread (d : BitVec 5)
  /-- CTRR (R410). -/
  | ctrr (d : BitVec 5) (n : BitVec 12)
  /-- JWAIT (R358). -/
  | jwait (d : BitVec 5)
  /-- JLINE (R358). -/
  | jline (v : BitVec 4) (a : BitVec 5) (im : BitVec 15)
  /-- JEMIT (R358). -/
  | jemit (v : BitVec 4) (a : BitVec 5) (im : BitVec 15)
  /-- JROW (R358). -/
  | jrow
  /-- JSUB (R358). -/
  | jsub (r : BitVec 2)
  /-- JSTAT (R358). -/
  | jstat (d : BitVec 5) (n : BitVec 4)
  /-- JTILE (R358). -/
  | jtile (a : BitVec 5)
  /-- CSRR (R179). -/
  | csrr (d : BitVec 5) (n : BitVec 12)
  /-- CSRW (R179). -/
  | csrw (d : BitVec 5) (a : BitVec 5) (n : BitVec 12)
  /-- CSRS (R179). -/
  | csrs (d : BitVec 5) (a : BitVec 5) (n : BitVec 12)
  /-- CSRC (R179). -/
  | csrc (d : BitVec 5) (a : BitVec 5) (n : BitVec 12)
  /-- TRAP (R201). -/
  | trap (n : BitVec 4)
  /-- TRET (R200). -/
  | tret
  /-- WAITEV (R203). -/
  | waitev (d : BitVec 5) (m : BitVec 8)
  /-- TRAP_ENTRY (R198). -/
  | trapEntry (bay : Nat)
  /-- VADD (R139). -/
  | vadd (g : Guard) (d : BitVec 6) (a : BitVec 6) (b : BitVec 6)
  /-- VADD_K (R139). -/
  | vaddK (g : Guard) (d : BitVec 6) (a : BitVec 6) (k : BitVec 3)
  /-- VADD_I (R139). -/
  | vaddI (g : Guard) (d : BitVec 6) (a : BitVec 6) (im : BitVec 6)
  /-- VSUB (R139). -/
  | vsub (g : Guard) (d : BitVec 6) (a : BitVec 6) (b : BitVec 6)
  /-- VSUB_K (R139). -/
  | vsubK (g : Guard) (d : BitVec 6) (a : BitVec 6) (k : BitVec 3)
  /-- VSUB_I (R139). -/
  | vsubI (g : Guard) (d : BitVec 6) (a : BitVec 6) (im : BitVec 6)
  /-- VMUL (R139). -/
  | vmul (g : Guard) (d : BitVec 6) (a : BitVec 6) (b : BitVec 6)
  /-- VMUL_K (R139). -/
  | vmulK (g : Guard) (d : BitVec 6) (a : BitVec 6) (k : BitVec 3)
  /-- VMUL_I (R139). -/
  | vmulI (g : Guard) (d : BitVec 6) (a : BitVec 6) (im : BitVec 6)
  /-- VMADD (R139). -/
  | vmadd (g : Guard) (d : BitVec 6) (a : BitVec 6) (b : BitVec 6)
  /-- VMADD_K (R139). -/
  | vmaddK (g : Guard) (d : BitVec 6) (a : BitVec 6) (k : BitVec 3)
  /-- VMADD_I (R139). -/
  | vmaddI (g : Guard) (d : BitVec 6) (a : BitVec 6) (im : BitVec 6)
  /-- VMSUB (R139). -/
  | vmsub (g : Guard) (d : BitVec 6) (a : BitVec 6) (b : BitVec 6)
  /-- VMSUB_K (R139). -/
  | vmsubK (g : Guard) (d : BitVec 6) (a : BitVec 6) (k : BitVec 3)
  /-- VMSUB_I (R139). -/
  | vmsubI (g : Guard) (d : BitVec 6) (a : BitVec 6) (im : BitVec 6)
  /-- VMIN (R140). -/
  | vmin (g : Guard) (d : BitVec 6) (a : BitVec 6) (b : BitVec 6)
  /-- VMIN_K (R140). -/
  | vminK (g : Guard) (d : BitVec 6) (a : BitVec 6) (k : BitVec 3)
  /-- VMIN_I (R140). -/
  | vminI (g : Guard) (d : BitVec 6) (a : BitVec 6) (im : BitVec 6)
  /-- VMAX (R140). -/
  | vmax (g : Guard) (d : BitVec 6) (a : BitVec 6) (b : BitVec 6)
  /-- VMAX_K (R140). -/
  | vmaxK (g : Guard) (d : BitVec 6) (a : BitVec 6) (k : BitVec 3)
  /-- VMAX_I (R140). -/
  | vmaxI (g : Guard) (d : BitVec 6) (a : BitVec 6) (im : BitVec 6)
  /-- VABS (R141). -/
  | vabs (g : Guard) (d : BitVec 6) (a : BitVec 6)
  /-- VNEG (R141). -/
  | vneg (g : Guard) (d : BitVec 6) (a : BitVec 6)
  /-- VAND (R142). -/
  | vand (g : Guard) (d : BitVec 6) (a : BitVec 6) (b : BitVec 6)
  /-- VAND_K (R142). -/
  | vandK (g : Guard) (d : BitVec 6) (a : BitVec 6) (k : BitVec 3)
  /-- VAND_I (R142). -/
  | vandI (g : Guard) (d : BitVec 6) (a : BitVec 6) (im : BitVec 6)
  /-- VOR (R142). -/
  | vor (g : Guard) (d : BitVec 6) (a : BitVec 6) (b : BitVec 6)
  /-- VOR_K (R142). -/
  | vorK (g : Guard) (d : BitVec 6) (a : BitVec 6) (k : BitVec 3)
  /-- VOR_I (R142). -/
  | vorI (g : Guard) (d : BitVec 6) (a : BitVec 6) (im : BitVec 6)
  /-- VXOR (R142). -/
  | vxor (g : Guard) (d : BitVec 6) (a : BitVec 6) (b : BitVec 6)
  /-- VXOR_K (R142). -/
  | vxorK (g : Guard) (d : BitVec 6) (a : BitVec 6) (k : BitVec 3)
  /-- VXOR_I (R142). -/
  | vxorI (g : Guard) (d : BitVec 6) (a : BitVec 6) (im : BitVec 6)
  /-- VSHL (R142). -/
  | vshl (g : Guard) (d : BitVec 6) (a : BitVec 6) (b : BitVec 6)
  /-- VSHL_K (R142). -/
  | vshlK (g : Guard) (d : BitVec 6) (a : BitVec 6) (k : BitVec 3)
  /-- VSHL_I (R142). -/
  | vshlI (g : Guard) (d : BitVec 6) (a : BitVec 6) (im : BitVec 6)
  /-- VSHR (R142). -/
  | vshr (g : Guard) (d : BitVec 6) (a : BitVec 6) (b : BitVec 6)
  /-- VSHR_K (R142). -/
  | vshrK (g : Guard) (d : BitVec 6) (a : BitVec 6) (k : BitVec 3)
  /-- VSHR_I (R142). -/
  | vshrI (g : Guard) (d : BitVec 6) (a : BitVec 6) (im : BitVec 6)
  /-- VSAR (R142). -/
  | vsar (g : Guard) (d : BitVec 6) (a : BitVec 6) (b : BitVec 6)
  /-- VSAR_K (R142). -/
  | vsarK (g : Guard) (d : BitVec 6) (a : BitVec 6) (k : BitVec 3)
  /-- VSAR_I (R142). -/
  | vsarI (g : Guard) (d : BitVec 6) (a : BitVec 6) (im : BitVec 6)
  /-- VSEL (R143). -/
  | vsel (neg : BitVec 1) (g : BitVec 4) (d : BitVec 6) (a : BitVec 6) (b : BitVec 6)
  /-- VSEL_K (R143). -/
  | vselK (neg : BitVec 1) (g : BitVec 4) (d : BitVec 6) (a : BitVec 6) (k : BitVec 3)
  /-- VSEL_I (R143). -/
  | vselI (neg : BitVec 1) (g : BitVec 4) (d : BitVec 6) (a : BitVec 6) (im : BitVec 6)
  /-- VCMPEQ (R144). -/
  | vcmpeq (g : Guard) (p : BitVec 4) (a : BitVec 6) (b : BitVec 6)
  /-- VCMPEQ_K (R144). -/
  | vcmpeqK (g : Guard) (p : BitVec 4) (a : BitVec 6) (k : BitVec 3)
  /-- VCMPEQ_I (R144). -/
  | vcmpeqI (g : Guard) (p : BitVec 4) (a : BitVec 6) (im : BitVec 6)
  /-- VCMPNE (R144). -/
  | vcmpne (g : Guard) (p : BitVec 4) (a : BitVec 6) (b : BitVec 6)
  /-- VCMPNE_K (R144). -/
  | vcmpneK (g : Guard) (p : BitVec 4) (a : BitVec 6) (k : BitVec 3)
  /-- VCMPNE_I (R144). -/
  | vcmpneI (g : Guard) (p : BitVec 4) (a : BitVec 6) (im : BitVec 6)
  /-- VCMPLT (R144). -/
  | vcmplt (g : Guard) (p : BitVec 4) (a : BitVec 6) (b : BitVec 6)
  /-- VCMPLT_K (R144). -/
  | vcmpltK (g : Guard) (p : BitVec 4) (a : BitVec 6) (k : BitVec 3)
  /-- VCMPLT_I (R144). -/
  | vcmpltI (g : Guard) (p : BitVec 4) (a : BitVec 6) (im : BitVec 6)
  /-- VCMPLE (R144). -/
  | vcmple (g : Guard) (p : BitVec 4) (a : BitVec 6) (b : BitVec 6)
  /-- VCMPLE_K (R144). -/
  | vcmpleK (g : Guard) (p : BitVec 4) (a : BitVec 6) (k : BitVec 3)
  /-- VCMPLE_I (R144). -/
  | vcmpleI (g : Guard) (p : BitVec 4) (a : BitVec 6) (im : BitVec 6)
  /-- VWADD (R145). -/
  | vwadd (g : Guard) (d : BitVec 6) (a : BitVec 6) (b : BitVec 6)
  /-- VWADD_K (R145). -/
  | vwaddK (g : Guard) (d : BitVec 6) (a : BitVec 6) (k : BitVec 3)
  /-- VWADD_I (R145). -/
  | vwaddI (g : Guard) (d : BitVec 6) (a : BitVec 6) (im : BitVec 6)
  /-- VWMUL (R145). -/
  | vwmul (g : Guard) (d : BitVec 6) (a : BitVec 6) (b : BitVec 6)
  /-- VWMUL_K (R145). -/
  | vwmulK (g : Guard) (d : BitVec 6) (a : BitVec 6) (k : BitVec 3)
  /-- VWMUL_I (R145). -/
  | vwmulI (g : Guard) (d : BitVec 6) (a : BitVec 6) (im : BitVec 6)
  /-- VWMADD (R145). -/
  | vwmadd (g : Guard) (d : BitVec 6) (a : BitVec 6) (b : BitVec 6)
  /-- VWMADD_K (R145). -/
  | vwmaddK (g : Guard) (d : BitVec 6) (a : BitVec 6) (k : BitVec 3)
  /-- VWMADD_I (R145). -/
  | vwmaddI (g : Guard) (d : BitVec 6) (a : BitVec 6) (im : BitVec 6)
  /-- VDOT4 (R146). -/
  | vdot4 (g : Guard) (d : BitVec 6) (a : BitVec 6) (b : BitVec 6)
  /-- VDOT4_K (R146). -/
  | vdot4K (g : Guard) (d : BitVec 6) (a : BitVec 6) (k : BitVec 3)
  /-- VCVT (R152). -/
  | vcvt (g : Guard) (d : BitVec 6) (a : BitVec 6) (f : BitVec 6)
  /-- VNARROW (R153). -/
  | vnarrow (g : Guard) (d : BitVec 6) (a : BitVec 6) (f : BitVec 6)
  /-- VQUANT (R154). -/
  | vquant (d : BitVec 6) (a : BitVec 6) (f : BitVec 6)
  /-- VDEQ (R155). -/
  | vdeq (g : Guard) (d : BitVec 6) (a : BitVec 6) (f : BitVec 6)
  /-- VLGMUL (R156). -/
  | vlgmul (g : Guard) (d : BitVec 6) (a : BitVec 6) (b : BitVec 6)
  /-- VLGADD (R157). -/
  | vlgadd (g : Guard) (d : BitVec 6) (a : BitVec 6) (b : BitVec 6)
  /-- VLGCVT (R158). -/
  | vlgcvt (g : Guard) (d : BitVec 6) (a : BitVec 6) (f : BitVec 6)
  /-- VDIV (R159). -/
  | vdiv (g : Guard) (d : BitVec 6) (a : BitVec 6) (b : BitVec 6)
  /-- VDIV_K (R159). -/
  | vdivK (g : Guard) (d : BitVec 6) (a : BitVec 6) (k : BitVec 3)
  /-- VEXP2 (R160). -/
  | vexp2 (g : Guard) (d : BitVec 6) (a : BitVec 6)
  /-- VLOG2 (R160). -/
  | vlog2 (g : Guard) (d : BitVec 6) (a : BitVec 6)
  /-- VRCP (R160). -/
  | vrcp (g : Guard) (d : BitVec 6) (a : BitVec 6)
  /-- VRSQRT (R160). -/
  | vrsqrt (g : Guard) (d : BitVec 6) (a : BitVec 6)
  /-- VTANH (R160). -/
  | vtanh (g : Guard) (d : BitVec 6) (a : BitVec 6)
  /-- VSIGM (R160). -/
  | vsigm (g : Guard) (d : BitVec 6) (a : BitVec 6)
  /-- VSQRT (R160). -/
  | vsqrt (g : Guard) (d : BitVec 6) (a : BitVec 6)
  /-- VRSUM (R161). -/
  | vrsum (g : Guard) (d : BitVec 6) (a : BitVec 6)
  /-- VRMAX (R161). -/
  | vrmax (g : Guard) (d : BitVec 6) (a : BitVec 6)
  /-- VRMIN (R161). -/
  | vrmin (g : Guard) (d : BitVec 6) (a : BitVec 6)
  /-- VSCAN (R162). -/
  | vscan (g : Guard) (d : BitVec 6) (a : BitVec 6)
  /-- VSCAN_EXCL (R162). -/
  | vscanExcl (g : Guard) (d : BitVec 6) (a : BitVec 6)
  /-- VPERM (R163). -/
  | vperm (g : Guard) (d : BitVec 6) (a : BitVec 6) (b : BitVec 6)
  /-- VSLIDE_K (R163). -/
  | vslideK (g : Guard) (d : BitVec 6) (a : BitVec 6) (k : BitVec 3)
  /-- VSLIDE_I (R163). -/
  | vslideI (g : Guard) (d : BitVec 6) (a : BitVec 6) (im : BitVec 6)
  /-- VBCAST_K (R163). -/
  | vbcastK (g : Guard) (d : BitVec 6) (a : BitVec 6) (k : BitVec 3)
  /-- VBCAST_I (R163). -/
  | vbcastI (g : Guard) (d : BitVec 6) (a : BitVec 6) (im : BitVec 6)
  /-- VZIP (R164). -/
  | vzip (g : Guard) (d : BitVec 6) (a : BitVec 6) (b : BitVec 6)
  /-- VUNZIP (R164). -/
  | vunzip (g : Guard) (d : BitVec 6) (a : BitVec 6)
  /-- PAND (R147). -/
  | pand (g : Guard) (d : BitVec 4) (a : BitVec 4) (b : BitVec 4)
  /-- POR (R147). -/
  | por (g : Guard) (d : BitVec 4) (a : BitVec 4) (b : BitVec 4)
  /-- PXOR (R147). -/
  | pxor (g : Guard) (d : BitVec 4) (a : BitVec 4) (b : BitVec 4)
  /-- PNOT (R147). -/
  | pnot (g : Guard) (d : BitVec 4) (a : BitVec 4)
  /-- PCNT (R148). -/
  | pcnt (g : Guard) (k : BitVec 3) (p : BitVec 4)
  /-- PFIRST (R148). -/
  | pfirst (g : Guard) (k : BitVec 3) (p : BitVec 4)
  /-- PLEN_K (R149). -/
  | plenK (g : Guard) (p : BitVec 4) (k : BitVec 3)
  /-- PLEN_I (R149). -/
  | plenI (g : Guard) (p : BitVec 4) (im : BitVec 6)
  /-- VLD (R168). -/
  | vld (g : Guard) (d : BitVec 6) (h : BitVec 4) (n : BitVec 3) (k : BitVec 3)
  /-- VST (R168). -/
  | vst (g : Guard) (d : BitVec 6) (h : BitVec 4) (n : BitVec 3) (k : BitVec 3)
  /-- VLDX (R169). -/
  | vldx (g : Guard) (d : BitVec 6) (h : BitVec 4) (b : BitVec 6)
  /-- VSTX (R169). -/
  | vstx (g : Guard) (d : BitVec 6) (h : BitVec 4) (b : BitVec 6)
  /-- VRAND (R166). -/
  | vrand (g : Guard) (d : BitVec 6)
  /-- VSHAPE (R129). -/
  | vshape (k : BitVec 3)
  /-- VMOV (R150). -/
  | vmov (g : Guard) (d : BitVec 6) (a : BitVec 6)
  /-- VMOV_K (R150). -/
  | vmovK (g : Guard) (d : BitVec 6) (k : BitVec 3)
  /-- VMOV_I (R150). -/
  | vmovI (g : Guard) (d : BitVec 6) (im : BitVec 6)
  /-- VROT (R133). -/
  | vrot
  /-- VLOOP (R172). -/
  | vloop (c : BitVec 2) (len : BitVec 6) (k : BitVec 3)
  /-- VLOOPI (R172). -/
  | vloopi (c : BitVec 2) (len : BitVec 6) (n : BitVec 6)
  /-- VLOOPR (R172). -/
  | vloopr (x : BitVec 3) (c : BitVec 2) (len : BitVec 6) (h : BitVec 4)
  /-- VPEGW (R173). -/
  | vpegw (m : BitVec 3)
  /-- VPEGS (R174). -/
  | vpegs (m : BitVec 3)
  /-- VEND (R175). -/
  | vend
  /-- VKSET (R176). -/
  | vkset (k : BitVec 3) (im : BitVec 6)
  /-- TLEASE (R270). -/
  | tlease (w : BitVec 3) (p : BitVec 3) (t : BitVec 12)
  /-- TFREE (R270). -/
  | tfree (w : BitVec 3) (p : BitVec 3) (t : BitVec 12)
  /-- TLOADB (R261). -/
  | tloadb (w : BitVec 3) (p : BitVec 3) (m : BitVec 4) (t : BitVec 12)
  /-- TMMA (R262). -/
  | tmma (w : BitVec 3) (p : BitVec 3) (m : BitVec 4) (f : BitVec 5) (t : BitVec 12)
  /-- TMMAS (R262). -/
  | tmmas (w : BitVec 3) (p : BitVec 3) (m : BitVec 4) (f : BitVec 5) (t : BitVec 12)
  /-- TPROMO (R269). -/
  | tpromo (w : BitVec 3) (p : BitVec 3) (m : BitVec 4) (f : BitVec 1) (t : BitVec 12)
  /-- TDRAIN (R269). -/
  | tdrain (w : BitVec 3) (p : BitVec 3) (m : BitVec 4) (f : BitVec 1) (t : BitVec 12)
  /-- TZERO (R269). -/
  | tzero (w : BitVec 3) (p : BitVec 3) (m : BitVec 4) (f : BitVec 1) (t : BitVec 12)
  /-- TCOMMIT (R268). -/
  | tcommit (w : BitVec 3) (p : BitVec 3) (m : BitVec 4) (t : BitVec 12)
  /-- TDISCARD (R268). -/
  | tdiscard (w : BitVec 3) (p : BitVec 3) (m : BitVec 4) (t : BitVec 12)
  /-- TSIGN (R279). -/
  | tsign (w : BitVec 3) (p : BitVec 3) (m : BitVec 4) (t : BitVec 12)
  /-- TBUCKET (R281). -/
  | tbucket (w : BitVec 3) (p : BitVec 3) (m : BitVec 4) (t : BitVec 12)
  /-- TREPS_FIRST (R282). -/
  | trepsFirst (w : BitVec 3) (p : BitVec 3) (m : BitVec 4) (t : BitVec 12)
  /-- TREPS_MEAN (R282). -/
  | trepsMean (w : BitVec 3) (p : BitVec 3) (m : BitVec 4) (t : BitVec 12)
  /-- TREPS_NORMMAX (R282). -/
  | trepsNormmax (w : BitVec 3) (p : BitVec 3) (m : BitVec 4) (t : BitVec 12)
  /-- TSCAT (R284). -/
  | tscat (w : BitVec 3) (p : BitVec 3) (m : BitVec 4) (f : BitVec 1) (t : BitVec 12)
  /-- TMGRAD (R285). -/
  | tmgrad (w : BitVec 3) (p : BitVec 3) (m : BitVec 4) (t : BitVec 12)
  /-- TNOP (R270). -/
  | tnop (w : BitVec 3) (p : BitVec 3) (t : BitVec 12)
  /-- SLOOP (R51). -/
  | sloop (k : BitVec 3) (len : BitVec 5)
  /-- LEASE_GRANT (R255). -/
  | leaseGrant (bent : Nat)
  /-- LEASE_WINDOW_END (R256). -/
  | leaseWindowEnd (bay : Nat)
  /-- TRUSS_COMMAND_START (R271). -/
  | trussCommandStart (bent : Nat)
  /-- TRUSS_ROW_WRITE (R265). -/
  | trussRowWrite (bent : Nat)
  /-- TRUSS_COMMAND_COMPLETION (R271). -/
  | trussCommandCompletion (bay : Nat)
  /-- XCOPY (R237). -/
  | xcopy (w : BitVec 3) (p : BitVec 3) (c : BitVec 4) (t : BitVec 12)
  /-- XCAST (R239). -/
  | xcast (w : BitVec 3) (p : BitVec 2) (c : BitVec 4) (t : BitVec 12)
  /-- XADDW (R240). -/
  | xaddw (w : BitVec 3) (p : BitVec 3) (c : BitVec 4) (t : BitVec 12)
  /-- XRED_ADDF32 (R242). -/
  | xredAddf32 (w : BitVec 3) (p : BitVec 2) (c : BitVec 4) (t : BitVec 12)
  /-- XRED_ADDI32 (R242). -/
  | xredAddi32 (w : BitVec 3) (p : BitVec 2) (c : BitVec 4) (t : BitVec 12)
  /-- XRED_MAXF32 (R242). -/
  | xredMaxf32 (w : BitVec 3) (p : BitVec 2) (c : BitVec 4) (t : BitVec 12)
  /-- XRED_MINF32 (R242). -/
  | xredMinf32 (w : BitVec 3) (p : BitVec 2) (c : BitVec 4) (t : BitVec 12)
  /-- XRED_MAXI32 (R242). -/
  | xredMaxi32 (w : BitVec 3) (p : BitVec 2) (c : BitVec 4) (t : BitVec 12)
  /-- XRED_MINI32 (R242). -/
  | xredMini32 (w : BitVec 3) (p : BitVec 2) (c : BitVec 4) (t : BitVec 12)
  /-- XGATH (R243). -/
  | xgath (w : BitVec 3) (p : BitVec 3) (c : BitVec 4) (t : BitVec 12)
  /-- XSCAT (R243). -/
  | xscat (w : BitVec 3) (p : BitVec 3) (c : BitVec 4) (t : BitVec 12)
  /-- XCONV (R246). -/
  | xconv (w : BitVec 3) (p : BitVec 3) (c : BitVec 4) (t : BitVec 12)
  /-- XFILL (R247). -/
  | xfill (w : BitVec 3) (p : BitVec 3) (c : BitVec 4) (t : BitVec 12)
  /-- XORD (R248). -/
  | xord (w : BitVec 3) (p : BitVec 3) (t : BitVec 12)
  /-- XNOP (R248). -/
  | xnop (w : BitVec 3) (p : BitVec 3) (t : BitVec 12)
  /-- COPY_SECTOR_MOVE (R236). -/
  | copySectorMove (bay : Nat) (unit : Unit2) (n : Nat)
  /-- COPY_COMPLETION (R241). -/
  | copyCompletion (bay : Nat) (unit : Unit2) (n : Nat)
  /-- XADDW_LINE_WRITE (R240). -/
  | xaddwLineWrite (bay : Nat) (n : Nat)
  /-- XRED_REQUEST_APPLY (R244). -/
  | xredRequestApply (bay : Nat) (n : Nat)
  /-- XRED_ACK (R244). -/
  | xredAck (bay : Nat) (n : Nat)
  /-- XRED_RESEND (R244). -/
  | xredResend (bay : Nat) (n : Nat)
  /-- STORE_COMPLETION (R229). -/
  | storeCompletion (bay : Nat) (n : Nat)
  /-- DEFERRED_PEG_PUSH (R290). -/
  | deferredPegPush (bay : Nat) (unit : Unit2)
  /-- STREAM_END (R296). -/
  | streamEnd (bay : Nat) (eng : Nat)
  /-- CODE_FETCH (R295). -/
  | codeFetch (bay : Nat)
  /-- IDLE (R336). -/
  | idle (n : BitVec 28)
  /-- LSWAP (R346). -/
  | lswap
  /-- LCKPT (R345). -/
  | lckpt (n : BitVec 8)
  /-- LGATH (R339). -/
  | lgath (sz : BitVec 4) (im : BitVec 2) (o : BitVec 2)
  /-- LSORT (R340). -/
  | lsort (sz : BitVec 4) (im : BitVec 2) (o : BitVec 2)
  /-- LMERGE (R340). -/
  | lmerge (sz : BitVec 4) (im : BitVec 2) (o : BitVec 2) (j : BitVec 2)
  /-- LROUTE (R341). -/
  | lroute (sz : BitVec 4) (im : BitVec 2) (m : BitVec 4)
  /-- LTOPK (R341). -/
  | ltopk (sz : BitVec 4) (im : BitVec 2) (o : BitVec 2)
  /-- HPROBE (R381). -/
  | hprobe (im : BitVec 2) (o : BitVec 2) (f : BitVec 6)
  /-- HINS (R382). -/
  | hins (im : BitVec 2) (f : BitVec 6)
  /-- HDEL (R383). -/
  | hdel (im : BitVec 2) (f : BitVec 6)
  /-- HREHASH_BEGIN (R384). -/
  | hrehashBegin (t : BitVec 8)
  /-- HREHASH (R384). -/
  | hrehash (t : BitVec 8) (n : BitVec 12)
  /-- HFENCE (R386). -/
  | hfence (im : BitVec 2) (o : BitVec 2)
  /-- LDEDUP (R342). -/
  | ldedup (sz : BitVec 4) (im : BitVec 2) (o : BitVec 2)
  /-- LCOMPACT (R342). -/
  | lcompact (sz : BitVec 4) (im : BitVec 2) (o : BitVec 2)
  /-- LSCAN (R343). -/
  | lscan (sz : BitVec 4) (im : BitVec 2) (o : BitVec 2) (x : BitVec 1)
  /-- LHIST (R343). -/
  | lhist (sz : BitVec 4) (im : BitVec 2) (o : BitVec 2)
  /-- HASH_UPDATE_COMPLETION (R377). -/
  | hashUpdateCompletion (lath : Nat) (n : Nat)
  /-- LATH_TOKEN_ARRIVAL (R330). -/
  | lathTokenArrival (lath : Nat) (port : Nat) (src : Nat)
  /-- BATCH_STORE_MOVE (R331). -/
  | batchStoreMove (lath : Nat) (port : Nat) (src : Nat)
  /-- TOKEN_EMISSION (R331). -/
  | tokenEmission (lath : Nat) (port : Nat)
  /-- LOADER_COMPLETION (R346). -/
  | loaderCompletion (lath : Nat)
  /-- PARITY_ERROR (R347). -/
  | parityError (lath : Nat)
  /-- RELOAD_COMPLETION (R347). -/
  | reloadCompletion (lath : Nat) (masterBad : Bool)
  /-- CHANNEL_ELEMENT_ARRIVAL (R304). -/
  | channelElementArrival (bay : Nat) (ch : Nat)
  /-- CREDIT_RETURN (R301). -/
  | creditReturn (bay : Nat) (ch : Nat)
  /-- CHANNEL_AUDIT (R305). -/
  | channelAudit (bay : Nat) (ch : Nat)
  /-- AUDIT_CHECK (R305). -/
  | auditCheck (bay : Nat) (ch : Nat)
  /-- RESYNC_RETURN (R305). -/
  | resyncReturn (bay : Nat) (ch : Nat)
  /-- RESYNC_APPLY (R305). -/
  | resyncApply (bay : Nat) (ch : Nat)
  /-- CSI2_FRAME_START (R355). -/
  | csi2FrameStart (port : Nat) (vc : Nat)
  /-- CSI2_FRAME_END (R355). -/
  | csi2FrameEnd (port : Nat) (vc : Nat)
  /-- CSI2_LINE_START (R355). -/
  | csi2LineStart (port : Nat) (vc : Nat) (num : Nat)
  /-- CSI2_LONG_PACKET (R356). -/
  | csi2LongPacket (port : Nat) (vc : Nat) (dt : Nat) (bytes : List (BitVec 8)) (crcOk : Bool) (hdrOk : Bool)
  /-- CSI2_LINE_END (R349). -/
  | csi2LineEnd (port : Nat) (vc : Nat)
  /-- CSI2_UNSUPPORTED_PACKET (R349). -/
  | csi2UnsupportedPacket (port : Nat) (vc : Nat)
  /-- LINE_TIMEOUT (R355). -/
  | lineTimeout (chain : Nat)
  /-- LIDAR_FRAME (R350). -/
  | lidarFrame (port : Nat) (frame : List (BitVec 8)) (fcsOk : Bool)
  /-- LIDAR_FRAME_PERIOD (R355). -/
  | lidarFramePeriod (chain : Nat)
  /-- GPTP_ANNOUNCE (R351). -/
  | gptpAnnounce (port : Nat) (gm : Nat)
  /-- GPTP_SYNC (R389). -/
  | gptpSync (port : Nat) (twoStep : Bool) (stamp : Int)
  /-- GPTP_FOLLOW_UP (R389). -/
  | gptpFollowUp (port : Nat) (stamp : Int)
  /-- PDELAY_REQUEST (R351). -/
  | pdelayRequest (port : Nat) (req : Nat)
  /-- PDELAY_ORIGINATE (R351). -/
  | pdelayOriginate (port : Nat)
  /-- PDELAY_RESPONSE (R351). -/
  | pdelayResponse (port : Nat) (delay : Nat)
  /-- SYNC_LOSS (R389). -/
  | syncLoss
  /-- SCHEDULE_FRAME_ORIGIN (R402). -/
  | scheduleFrameOrigin (part : Nat)
  /-- ADMISSION (R314). -/
  | admission (part : Nat)
  /-- DEPENDENCE_MET (R311). -/
  | dependenceMet (slot : Nat)
  /-- SELECTION (R315). -/
  | selection (part : Nat)
  /-- PLANE_FLIP (R14). -/
  | planeFlip (bay : Nat)
  /-- AGING (R316). -/
  | aging (slot : Nat)
  /-- JOB_COMPLETION (R325). -/
  | jobCompletion (slot : Nat)
  /-- JOB_TIME (R321). -/
  | jobTime (slot : Nat)
  /-- JOB_KILL (R321). -/
  | jobKill (slot : Nat)
  /-- PREEMPTION (R322). -/
  | preemption (slot : Nat)
  /-- SAVE_COMPLETE (R205). -/
  | saveComplete (slot : Nat)
  /-- PAGE_FAULT_SERVICE (R324). -/
  | pageFaultService (part : Nat) (n : Nat)
  /-- FAULT_TIMEOUT (R324). -/
  | faultTimeout (part : Nat) (n : Nat)
  /-- PAGE_EVICTION (R366). -/
  | pageEviction (part : Nat) (tid : Nat) (tile : Nat) (back : Nat)
  /-- PAGE_MIGRATION (R370). -/
  | pageMigration (part : Nat) (tid : Nat) (tile : Nat) (frame : Nat)
  /-- MIGRATION_RECHECK (R368). -/
  | migrationRecheck (part : Nat) (n : Nat)
  /-- MIGRATION_TIMEOUT (R368). -/
  | migrationTimeout (part : Nat) (n : Nat)
  /-- INVALIDATION_COMPLETE (R370). -/
  | invalidationComplete (part : Nat)
  /-- PAIR_MERGE (R455). -/
  | pairMerge (slot : Nat)
  /-- PAIR_TWIN_TIMEOUT (R456). -/
  | pairTwinTimeout (slot : Nat)
  /-- REPLAY_TIMEOUT (R463). -/
  | replayTimeout (part : Nat)
  /-- BOOT (R445). -/
  | boot (ok : Bool)
  /-- LINK_FATAL (R442). -/
  | linkFatal (peer : Option Nat)
  /-- FLR (R449). -/
  | flr (part : Nat)
  /-- PARTITION_SETUP (R447). -/
  | partitionSetup (part : Nat)
  /-- PARTITION_TEARDOWN (R447). -/
  | partitionTeardown (part : Nat)
  /-- QUEUE_REGISTRATION (R308). -/
  | queueRegistration (part : Nat) (q : Nat) (lo : BitVec 64) (hi : BitVec 64)
  /-- DOORBELL (R449). -/
  | doorbell (part : Nat) (q : Nat) (v : BitVec 64)
  /-- CHAIN_ENABLE (R352). -/
  | chainEnable (part : Nat) (chain : Nat)
  /-- CHAIN_DISABLE (R353). -/
  | chainDisable (part : Nat) (chain : Nat)
  /-- HOST_REGISTER_WRITE (R443). -/
  | hostRegisterWrite (fn : Nat) (off : Nat) (v : BitVec 64)
  /-- PREEMPT (R450). -/
  | preempt (part : Nat)
  /-- KILL (R450). -/
  | kill (part : Nat)
  /-- PAGE_RESP (R450). -/
  | pageResp (part : Nat)
  /-- INVAL (R450). -/
  | inval (part : Nat)
  /-- SENSOR (R450). -/
  | sensor (part : Nat)
  /-- CHAINCODE (R450). -/
  | chaincode (part : Nat)
  /-- STAGE (R470). -/
  | stage
  /-- ACTIVATE (R469). -/
  | activate
  /-- ACTIVATE_LIVE (R471). -/
  | activateLive
  /-- LOGDESC (R461). -/
  | logdesc
  /-- LOGREL (R463). -/
  | logrel
  /-- TESTINT (R467). -/
  | testint
  /-- EVRING (R475). -/
  | evring
  /-- FRAMER_HEARTBEAT (R472). -/
  | framerHeartbeat
  /-- UPDATE_ROLLBACK (R472). -/
  | updateRollback
  /-- FRAMER_SILENT (R472). -/
  | framerSilent
  /-- SENSOR_SAMPLE (R474). -/
  | sensorSample
  /-- THERMAL_TRIP (R474). -/
  | thermalTrip (sensor : Nat)
  /-- VOLTAGE_MONITOR (R474). -/
  | voltageMonitor (sensor : Nat)
  /-- CLOCK_MONITOR (R474). -/
  | clockMonitor (sensor : Nat)
  /-- CONDITION_CLEARED (R465). -/
  | conditionCleared (part : Nat)
  /-- SELF_TEST (R467). -/
  | selfTest (test : SelfTest) (unit : Nat) (pass : Bool)
  /-- SPARE_INSERTION (R373). -/
  | spareInsertion (unit : SpareUnit) (owner : Nat) (n : Nat)
  /-- SLICE_COPY_COMPLETE (R373). -/
  | sliceCopyComplete (slice : Nat)
  /-- DOE_DISCOVERY (R442). -/
  | doeDiscovery
  /-- GET_VERSION (R476). -/
  | getVersion
  /-- GET_CAPABILITIES (R476). -/
  | getCapabilities
  /-- NEGOTIATE_ALGORITHMS (R476). -/
  | negotiateAlgorithms
  /-- GET_DIGESTS (R476). -/
  | getDigests
  /-- GET_CERTIFICATE (R476). -/
  | getCertificate (off : Nat) (len : Nat)
  /-- CHALLENGE (R476). -/
  | challenge (nonce : Nat)
  /-- GET_MEASUREMENTS (R476). -/
  | getMeasurements (index : Nat) (nonce : Nat)
  /-- ENCODING_FAULT (R56). -/
  | encodingFault (cause : BitVec 8)
  /-- UNIT_NOT_TESTED (R467). -/
  | unitNotTested (test : SelfTest) (unit : Nat)
  /-- UPLINK_REPLY (R450). -/
  | uplinkReply (port : Nat) (reply : List (BitVec 8))
deriving DecidableEq, Repr

end Sys2Proof
end

