-- ==== Sys2Proof/Config.lean ====
section
/-! DEFINITION. What the spec leaves open. Each constant is opaque: no statement can rest on its value. -/

namespace Sys2Proof

/-- The engines of a bay (spec/01_machine.md R12). -/
inductive Eng where
  | S | V | M | L | W
deriving DecidableEq, Repr, Inhabited

/-- SRAM that no program addresses, by the unit that holds it (R206): a bay's code planes, a jointer's line buffer and code, a lath's batch
stores and receive buffers, the state of a fusion group, and the Framer's and the Foreman's own memory. -/
inductive SramUnit where
  | code (bay : Nat)
  | jointer (chain pos : Nat)
  | lathStore (n : Nat)
  | group (g : Nat)
  | control
deriving DecidableEq, Repr, Inhabited

/-- Which agent moves next, and what the outside does to the machine. The spec orders agents only by pegs, locks, barriers, phases
and its other synchronising points (R218 to R228), so the order of their steps is an input. DESIGN CHOICE (log 1). -/
inductive Choice where
  /-- the main clock advances by one (R402). -/
  | tick
  /-- device time advances by `ns` nanoseconds (R388). -/
  | time (ns : Nat)
  /-- a stream of a bay takes its next step. -/
  | stream (bay : Nat) (e : Eng)
  /-- a jointer takes its next step. -/
  | jointer (chain pos : Nat)
  /-- a lath takes its next step. -/
  | lath (n : Nat)
  /-- a step of the machine that no word encodes. -/
  | event (i : Instr)
  /-- an owner outside the device writes memory that it can reach: the host or a peer (R477). -/
  | hostWrite (addr : Nat) (bytes : List (BitVec 8))
  /-- the host reads the register at offset `off` of a function's BAR (R443). -/
  | hostRead (fn off : Nat)
  /-- a translation cache takes in the entry that an access to offset `off` of tensor `tid` reads at `depth` (R369); `who` is a bay, or 64 plus
  a lath. -/
  | cacheFill (who tid off depth : Nat)
  /-- an error in the memory at `addr` that its code cannot correct (R213). -/
  | memError (addr : Nat)
  /-- an error in the memory at `addr` that its code corrects (R213). -/
  | memCorrected (addr : Nat)
  /-- such an error, uncorrectable or corrected, in SRAM that has no address (R206, R213). -/
  | sramError (u : SramUnit)
  | sramCorrected (u : SramUnit)
deriving DecidableEq, Repr, Inhabited

namespace Config

/-- The step taken when the agenda is empty. DESIGN CHOICE (log 1). -/
opaque freeChoice : Nat → Choice

/-- Where a round-robin arbiter starts under a SEED that is not 0, by the arbiter's number: R458 gives no function of the SEED (log 108). -/
opaque seedStart : BitVec 32 → Nat → Nat

/-- The `n`-th value that the spec leaves open (for example, the readings of a sensor). -/
opaque freeValue : Nat → BitVec 64

/-- A value that the spec leaves open and a program can see, by the log entry that names it and what it may depend on: a function of those alone,
so that no order of the agents changes it (R29). -/
opaque openValue : Nat → List Nat → BitVec 64

/-- The lane of an immediate under a type for which R134 gives none, by type and immediate (log 12). -/
opaque freeImm : Nat → Nat → BitVec 64

/-- The ECDSA P-384 check of a firmware image's signature against the vendor key in ROM, which the spec does not give (R470). -/
opaque signatureGood : List (BitVec 8) → Bool

/-- The image slots of the serial flash as delivered, by target × 2 + slot, and the fuse minimum of SVN by target (R470). -/
opaque flash : Nat → List (BitVec 8)
opaque svnFuse : Nat → Nat

/-- The defect fuses and the Foreman's wear record (R445, R372): retired bay of a bent, banks of a bay, columns and plane-rows of a bent, the
physical slice of a logical one, the physical jointer of a logical one, and the retired laths. -/
opaque fuseBay : Nat → BitVec 4
opaque fuseBanks : Nat → Nat → BitVec 11
opaque fuseColumns : Nat → Nat → BitVec 11
opaque fuseRows : Nat → Nat → BitVec 11
opaque fuseSlice : Nat → BitVec 6
opaque fuseJointer : Nat → BitVec 7
opaque fuseLaths : BitVec 104

/-- The unicast MAC address of an Ethernet port (R350). -/
opaque portMac : Nat → BitVec 48

/-- The Sync interval of the grandmaster, in nanoseconds (R389). -/
opaque syncInterval : BitVec 48

/-- What precedes and follows the stated contents of a DOE or SPDM response, which the spec leaves to those standards: the request's number and
its operands. A CHALLENGE's signature is in it. -/
opaque spdmHead : Nat → List Nat → List (BitVec 8)
opaque spdmTail : Nat → List Nat → List (BitVec 8)

/-- The device certificate chain of slot 0, and the Foreman's ROM. -/
opaque certChain : List (BitVec 8)
opaque rom : List (BitVec 8)

end Config

end Sys2Proof
end

