-- ==== Sys2Proof/Machine/State.lean ====
section
/-! DEFINITION. Everything the spec gives the machine to hold, as plain data (INVENTORY.md lists every item with its rule). -/

namespace Sys2Proof.Machine

/-- A sparse table: keys strictly rising; a key that is not listed holds a default that its reader names. -/
abbrev Tab (α : Type) := List (Nat × α)

/-- Who acts in `exec` (MODEL, log 3). -/
inductive Actor where
  | none
  | stream (bay : Nat) (e : Eng)
  | jointer (chain pos : Nat)
  | lath (n : Nat)
deriving DecidableEq, Repr

/-- A loop counter (R171, R249, R405); `idx` is word 1 of the sequencer's and jointers' counters. `step` is the amount by which `idx`
advances, which R407 fixes at the loop's entry and which has no field in R405 (MODEL, log 5). -/
structure Loop where
  rem : BitVec 32 := 0
  len : BitVec 8 := 0
  start : BitVec 16 := 0
  active : Bool := false
  idx : Word := 0
  step : Word := 0
deriving DecidableEq, Repr

/-- A fault record (R197). `eng` is 0 S, 1 V, 2 M, 3 L, 4 W, 5 lath. -/
structure FaultRec where
  cause : BitVec 8 := 0
  eng : BitVec 3 := 0
  rst : Bool := false
  pc : BitVec 16 := 0
  tid : BitVec 16 := 0xFFFF
  unit : BitVec 8 := 0xFF
  wher : Word := 0
  aux : Word := 0
deriving DecidableEq, Repr

/-- A fault that waits for delivery, in the order of R198: `rank` 1 V, 2 M, 3 L, 4 W, 5 lath, 6 endpoint, 7 a cause that no stream of
the bay raised (JOB_TIME, R321; REPLAY_MISMATCH, R463). -/
structure PendFault where
  clock : Nat
  rank : Nat
  rc : FaultRec
deriving DecidableEq, Repr

/-- The condition a bounded wait watches (R393), with the operands it read at its start. -/
inductive WaitKind where
  | row (stream frame rows : Nat)
  | frm (stream frame : Nat)
  | sq (group : Nat)
  | bar (tid addr : Nat) (phase : BitVec 4)
deriving DecidableEq, Repr

/-- A bounded wait under way: `t0` is the main clock at its start (R393). -/
structure WaitRec where
  t0 : Nat
  bound : Word
  sd : BitVec 5
  kind : WaitKind
deriving DecidableEq, Repr

/-- The places data stands: R207's spaces, with a z region's store for ACC. -/
inductive Space where
  | bank | acc | shared | sill | dram | host | peer
deriving DecidableEq, Repr

/-- One byte range of a store, in device-wide addresses, with what R453 records of it. -/
structure Piece where
  addr : Nat
  bytes : List Byte
deriving DecidableEq, Repr

/-- A store of the sequencer in its write queue (R229). -/
structure StoreRec where
  space : Space
  tid : Nat
  off : Nat
  pieces : List Piece
deriving DecidableEq, Repr

/-- The element operations of a copy (R237). -/
inductive CopyOp where
  | copy | cast | addw | red (op : BitVec 3) | gath | scat | conv | fill
deriving DecidableEq, Repr

/-- One XRED request without its acknowledgement (R244): `home` names the slice or the DRAM controller; `applied` and `acked` say how
far it has come. -/
structure RedReq where
  seq : BitVec 23
  op : BitVec 3
  addr : Nat
  tid : Nat
  off : Nat
  space : Space
  /-- each element: its layout offset, the addresses of its bytes, and the source value. -/
  vals : List (Nat × List Nat × BitVec 32)
  sent : Nat
  applied : Bool
  flags : BitVec 8
  /-- the copy that sent it, by its ordinal. -/
  copy : Nat
deriving DecidableEq, Repr

/-- What stands in a transfer unit after issue, in issue order: a copy's progress record (R236), or the deferred push of an XNOP (R290). -/
structure CopyRec where
  op : CopyOp
  xnop : Bool := false
  /-- the parameter set as read at issue (R189), 21 words. -/
  ps : List Word := []
  /-- the issuing bay's handles as read at issue, two words each: SH, DH, IXH, BARH. -/
  hs : List Word := []
  /-- word 0 of the source and of the destination z region, as read at issue. -/
  zs : List Word := []
  /-- the queues to push at completion (R241). -/
  push : List Nat
  pc : BitVec 16
  ordinal : Nat
  /-- remaining destinations: [own bay], or the bays of an XCAST's mask (R239). -/
  dests : List Nat := []
  /-- XCAST: the handle of the destination that has begun. -/
  dh : Option (Word × Word) := none
  sector : Nat := 0
  /-- XADDW: the checks of the sector have passed, its source values in order, and how many of them have been added (R240). -/
  opened : Bool := false
  vals : List (BitVec 32) := []
  line : Nat := 0
  /-- the clock of the last line written. -/
  lineAt : Option Nat := none
  /-- XRED: the requests of the sector have been sent. -/
  sentAll : Bool := false
  /-- every byte has been written, since this device time (R241). -/
  moved : Bool := false
  movedAt : Word := 0
  done : Bool := false
  /-- a fault of kind 0 or 3, or an MIG wait, is outstanding at `sector` (R251). -/
  halted : Bool := false
  /-- what is outstanding is an MIG wait, which delays the copy and no later word (R250). -/
  mig : Bool := false
  /-- the copy has faulted and left the unit; it keeps its place in the order of pushes until the word issues again (R290; log 94). -/
  fallen : Bool := false
  /-- a fault that waits until its stream's present one is no longer outstanding (R198; log 94). -/
  late : Option FaultRec := none
  /-- banks of the bay that the sector under way locks (R220). -/
  locks : List Nat := []
  /-- trailer work (R246): largest magnitude as f32 bits, and the saturation count, so far. -/
  tmax : BitVec 32 := 0
  tsat : Nat := 0
  /-- the digest of the copy's own writes, in a paired job (R455). -/
  dlo : Word := 0
  dhi : Word := 0
deriving DecidableEq, Repr

/-- An engine stream of a bay: V, M, L or W (R104, R297, R403). -/
structure Stream where
  k : Tab Word := []
  pc : BitVec 16 := 0
  run : Bool := false
  spwn : Bool := false
  flags : BitVec 8 := 0
  lc : Tab Loop := []
  /-- the last word retired without transferring control, so a body end may follow (MODEL, log 4). -/
  adv : Bool := false
  /-- the program counter came to the plane's end by skipping a body, so that no body ends there (MODEL, log 90). -/
  skip : Bool := false
  sf : BitVec 48 := 0
  ls : BitVec 12 := 0
  /-- V: the ordinal of R139; L and W: the copy ordinal of R246. -/
  ordinal : Nat := 0
  /-- the record of the fault that halted the stream (R200 reads its RST and PC). -/
  rc : Option FaultRec := none
  /-- the word at `pc` has issued and waits to retire: a TLEASE for its grant, a TNOP for its release; the queues that it pushes. -/
  issued : Option (List Nat) := none
  /-- the reservations that a word keeps whose fault halted the stream after its issue (R290). -/
  kept : List Nat := []
  /-- L and W: what is in flight, oldest first. -/
  inflight : List CopyRec := []
  /-- bytes of the section fetched beyond `pc` (R295). -/
  fetched : Nat := 0
  /-- the main clock of the stream's SPAWN (R295: the first word issues 8 clk later). -/
  spawned : Nat := 0
deriving DecidableEq, Repr

/-- One slab buffer (R261): `cols` holds the values bval of each loaded column, position by position. -/
structure Slab where
  fmt : BitVec 6 := 0
  prec : BitVec 3 := 0
  korg : Nat := 0
  kext : Nat := 0
  n : Nat := 0
  cols : List (List Int) := []
  scales : List (List (BitVec 8)) := []
  bitmap : Bool := false
deriving DecidableEq, Repr

/-- How a row write changes the entries of its row (R265). -/
inductive RowOp where
  /-- promotion of inner values (R99); `first` entries read as zero; `lg` for lg6 values with 8 fractional bits. -/
  | promote (vals : List Int) (lg first : Bool)
  /-- one pass of a block format: the tree's result for each column, added in f32 (R100). -/
  | addF32 (vals : List (BitVec 32)) (first : Bool)
  /-- the entries take these bits. -/
  | bits (vals : List (BitVec 32))
  /-- the entries take the bits of other entries of the same store as they stand when the row is written. -/
  | copy (from_ : Nat)
deriving DecidableEq, Repr

/-- A row write that waits for its clock (R265). -/
structure RowWrite where
  /-- the bay whose command it is, and the bay of the store (R266). -/
  owner : Nat
  bay : Nat
  /-- the command that caused it, by its number in the owner's truss queue. -/
  id : Nat
  base : Nat
  n : Nat
  i32 : Bool
  wmask : BitVec 4
  op : RowOp
deriving DecidableEq, Repr

/-- The truss commands (R253). -/
inductive TrussOp where
  | loadb | mma (neg : Bool) | promo | drain | zero | commit | discard | free
  | sign | bucket | reps (rule : Nat) | scat | mgrad
deriving DecidableEq, Repr

/-- A command in a bay's truss queue, with all it read at issue (R257, R258). -/
structure TrussCmd where
  op : TrussOp
  f : BitVec 5
  ps : List Word
  hs : List Word
  zs : List Word
  hf : List Word
  push : List Nat
  pc : BitVec 16
  /-- rows of the product: M, or NB of the map (R283). -/
  rows : Nat
  /-- TLOADB: the slab it loads has a bitmap. -/
  bm : Bool := false
  /-- its number, once the truss has taken it. -/
  id : Nat := 0
  /-- OPEN bits that it has changed, which GETPAR shows from its completion on (R189). -/
  sets : List (Nat × Bool) := []
deriving DecidableEq, Repr

/-- A bay's truss state (R254) and its part of the truss. -/
structure TrussBay where
  held : Bool := false
  cnt : Nat := 0
  req : Bool := false
  front : Bool := false
  valid0 : Bool := false
  valid1 : Bool := false
  pend : Bool := false
  bz : BitVec 4 := 0
  bshd : Bool := false
  bsplit : Bool := false
  brows : Nat := 0
  passes : BitVec 4 := 0
  slab0 : Slab := {}
  slab1 : Slab := {}
  /-- inner values of the binding's rows (R253), and the rows whose next promotion reads the entry as +0 (R262). -/
  inner : Tab (List Int) := []
  firsts : List Nat := []
  /-- the binding's first entry, columns and FMT, and the partner's first entry and columns, as the command that bound them read them; the
  value kind (lg6), and the WMASK of the latest command with a set. -/
  bbase : Nat := 0
  bcols : Nat := 0
  bi32 : Bool := false
  bpbase : Nat := 0
  bpcols : Nat := 0
  blg : Bool := false
  bwmask : BitVec 4 := 0
  /-- z regions whose prediction is open (R267); word 1 of a region shows OPEN as of the last completed command (R189). -/
  opens : List Nat := []
  queue : List TrussCmd := []
  /-- commands that the truss has started and whose writes have not all landed, oldest first. -/
  running : List TrussCmd := []
  /-- commands that the truss has taken. -/
  taken : Nat := 0
  /-- clock of the request, for the first grant. -/
  reqAt : Nat := 0
  /-- the frame and the number of the last lease window that was granted (R256). -/
  window : Option (Nat × Nat) := none
deriving DecidableEq, Repr

/-- What the bays of a bent share: the truss's waiting row writes and the last holder of the lease (R255, R265). -/
structure Bent where
  /-- the first 16 stand in the write queue; the truss, which stalls while that is full, has still to produce the others (R265). -/
  writes : List RowWrite := []
  last : Option Nat := none
  /-- the last row write: its clock, the bay of the store, and the bank groups (R240, R265). -/
  lastRow : Option (Nat × Nat × List Nat) := none
deriving DecidableEq, Repr

/-- A channel endpoint of a bay (R301), with what R302 to R305 keep beside it. -/
structure Endpoint where
  bnd : Bool := false
  dir : Bool := false
  peer : BitVec 7 := 0
  thread : BitVec 10 := 0
  ctx : BitVec 6 := 0
  cap : BitVec 7 := 0
  free : BitVec 7 := 0
  fpar : Bool := false
  seq : BitVec 16 := 0
  /-- in: the receive buffer, oldest first. -/
  buf : List (Word × BitVec 32) := []
  /-- out: replay copies, oldest first, and elements on their way to the peer. -/
  replay : List (Word × BitVec 32) := []
  wire : List (Word × BitVec 32) := []
  /-- credits on their way back to the sender: those ahead of an audit under way, and those behind it. -/
  credits : Nat := 0
  behind : Nat := 0
  sent : BitVec 16 := 0
  consumed : BitVec 16 := 0
  resync : Bool := false
  /-- an audit on its way: the consumed count it carries. -/
  audit : Option (BitVec 16) := none
  auditAt : Nat := 0
  /-- a resync's answer on its way: the receiver's FREE and SEQ, and its consumed count as they were sent. -/
  answer : Option (BitVec 7 × BitVec 16 × BitVec 16) := none
deriving DecidableEq, Repr

/-- One code plane: the bytes of its five sections and where they stand (R68), in the order S, V, M, L, W. -/
structure Plane where
  bytes : List Byte := []
  sections : List (Nat × Nat) := []
deriving DecidableEq, Repr

/-- A bay (chapters 4 to 12). -/
structure Bay where
  plane : Plane := {}
  shadow : Plane := {}
  /-- the code of the next job stands in the shadow plane (R318). -/
  shadowFor : Option Nat := none
  -- the sequencer
  s : Tab Word := []
  pc : BitVec 16 := 0
  adv : Bool := false
  /-- the program counter came to the plane's end by skipping a body, so that no body ends there (MODEL, log 90). -/
  skip : Bool := false
  lc : Tab Loop := []
  flags : BitVec 8 := 0
  cause : BitVec 8 := 0
  epc : BitVec 16 := 0
  tvecEn : Bool := false
  tvecOff : BitVec 14 := 0
  tscratch : Word := 0
  tIn : Bool := false
  tEng : BitVec 3 := 0
  tHalt : BitVec 4 := 0
  tResume : BitVec 4 := 0
  frec0 : Word := 0
  frec1 : Word := 0
  frec2 : Word := 0
  pend : List PendFault := []
  evpend : BitVec 6 := 0
  jobkey : Word := 0
  jobinfo : Word := 0
  plumbseed : Word := 0
  bankfmt : Tab (BitVec 9) := []
  par : Tab Word := []
  waiting : Option WaitRec := none
  stores : List StoreRec := []
  /-- a fault of kind 0 or 3, or an MIG wait, of the sequencer's or the V stream's word is outstanding (R195). -/
  seqHalted : Bool := false
  vecHalted : Bool := false
  -- the engine streams
  v : Stream := {}
  m : Stream := {}
  l : Stream := {}
  w : Stream := {}
  vreg : Tab (BitVec 4096) := []
  preg : Tab (BitVec 1024) := []
  /-- VSHAPE (R128). -/
  vshape : BitVec 27 := 0x13
  -- queues and memories' bookkeeping
  cnt : Tab (BitVec 4) := []
  rsv : Tab (BitVec 4) := []
  chan : Tab Endpoint := []
  xseq : BitVec 23 := 0
  /-- accumulator lines that XADDW has written: the clock and the bank group of each of the latest clock (R240). -/
  lines : List (Nat × Nat) := []
  reds : List RedReq := []
  truss : TrussBay := {}
  dirty : BitVec 239 := BitVec.allOnes 239
  /-- dirty lines of the banks and of the accumulator store; all of them, since the clear at job start (R217). -/
  dirtyLines : List Nat := []
  allLines : Bool := false
  /-- the bay has arrived at PHASE (R199, R232); after the completion its PHASE word may retire. -/
  arrived : Bool := false
  phased : Bool := false
  /-- the sequencer's word is in a wait that a fault does not abandon (R199). -/
  hold : Bool := false
  /-- whose turn the code plane's port is (0 S, 1 V, 2 M, 3 L, 4 W), and the bytes fetched beyond the sequencer's pc (R295). -/
  fetchNext : Nat := 0
  fetched : Nat := 0
  /-- deterministic: no word of the sequencer issues before this clock (R319). -/
  startAt : Nat := 0
  -- the job
  /-- the scoreboard slot of the job that owns the bay, the bay's logical index in it, and whether it still runs here. -/
  slot : Option Nat := none
  index : Nat := 0
  live : Bool := false
  /-- write digests of paired and plumb jobs (R453, R455, R459). -/
  dlo : Word := 0
  dhi : Word := 0
  /-- a merged operation that waits for its twin (R455): its operands, and once performed its result; its clock, or that of the bay's halt. -/
  merge : Option (List Word) := none
  mergedAt : Nat := 0
  merged : Option Word := none
  mergeDone : Bool := false
deriving DecidableEq, Repr

/-- A token: payload and tag (R329). -/
abbrev Token := Word × BitVec 32

/-- One stored batch store entry of an input port: the source it came from, its place in the order of arrival, and the token. -/
structure Stored where
  src : Nat
  order : Nat
  tok : Token
  /-- consumed since the last checkpoint, and so still held (R345). -/
  used : Bool
deriving DecidableEq, Repr

/-- A source's receive buffer at an input port (R331). -/
structure Source where
  src : Nat
  expect : Tab (BitVec 16) := []
  buf : List Token := []
  /-- link: what an endpoint keeps for a channel (R301, R305), kept at the receiver: credits on their way back, ahead of an audit and behind
  it, tokens consumed, a resync, an audit and its time, and a resync's answer. -/
  credits : Nat := 0
  behind : Nat := 0
  consumed : BitVec 16 := 0
  resync : Bool := false
  audit : Option (BitVec 16) := none
  auditAt : Nat := 0
  answer : Option (Nat × List (Nat × BitVec 16) × BitVec 16) := none
deriving DecidableEq, Repr

structure InPort where
  sources : List Source := []
  store : List Stored := []
  nextOrder : Nat := 0
  last : Option Nat := none
deriving DecidableEq, Repr

structure OutPort where
  emit : List Token := []
  seqs : Tab (BitVec 16) := []
  credits : Nat := 64
  sent : BitVec 16 := 0
  /-- replay copies for a resync, and tokens on their way, oldest first. -/
  replay : List Token := []
  wire : List Token := []
deriving DecidableEq, Repr

/-- What a checkpoint records (R345). -/
structure Checkpoint where
  seqs : List (Tab (BitVec 16))
  lasts : List (Option Nat)
deriving DecidableEq, Repr

/-- A generation of a hash table: bucket bits, policy, bucket tensor and overflow tensor (R374, R384). -/
structure Gen where
  bb : Nat
  pol : Nat
  btid : Nat
  otid : Nat
  new : Bool
deriving DecidableEq, Repr

/-- An operation under way that takes more than one step (R339, R381 to R384): the source and the thread of its batch, the next token, and what
it has found so far: the payloads of LGATH, or for HPROBE the rows and whether the result was cut; for HREHASH the bucket that is held and its
entries that have still to move. -/
structure HashOp where
  src : Nat
  thread : Nat
  next : Nat := 0
  out : List Nat := []
  cut : Bool := false
  /-- HPROBE: the generations that the token has still to read, once it has begun, and what it reads next of the first: 0 the bucket, 1 the
  chain's head, 2 + i node i. -/
  gens : Option (List Gen) := none
  place : Nat := 0
  bucket : Option Nat := none
  left : List (Nat × Nat) := []
deriving DecidableEq, Repr

/-- A hash update posted to its home and not completed (R377, R386). -/
structure HashUpdate where
  /-- the bytes written: layout offset, address and contents of each piece of the granule. -/
  parts : List (Nat × Nat × List Byte)
  tid : Nat
  space : Nat
  /-- retired before the last bay of the job arrived at PHASE (R386). -/
  old : Bool := false
  /-- earlier updates of the lath that must complete first: a node before the word that links it (R377), a migration's writes before the
  old bucket is cleared (R386). -/
  after : List Nat := []
deriving DecidableEq, Repr

/-- A lath (R334 and beside). -/
structure Lath where
  plane0 : List (BitVec 32) := []
  plane1 : List (BitVec 32) := []
  master0 : List (BitVec 32) := []
  master1 : List (BitVec 32) := []
  act : Bool := false
  shv : Bool := false
  pc : BitVec 12 := 0
  ckn : BitVec 8 := 0
  ckpc : BitVec 12 := 0
  ctx : BitVec 6 := 0
  hlt : Bool := false
  rcv : Bool := false
  slot : Option Nat := none
  threads : List Nat := []
  inp : List InPort := [{}, {}, {}, {}]
  outp : List OutPort := [{}, {}, {}, {}]
  ck : Option Checkpoint := none
  parity : Bool := false
  updates : List HashUpdate := []
  waiting : Bool := false
  /-- the loader is writing the shadow plane (R346), and the job that starts from that plane, where it is a next job's. -/
  loading : Bool := false
  shadowFor : Option Nat := none
  hop : Option HashOp := none
  /-- buckets that an HREHASH has claimed and not migrated: table, next bucket, end (R384, R385). -/
  rehash : Option (Nat × Nat × Nat) := none
deriving DecidableEq, Repr

/-- A line in a jointer's line buffer (R354). -/
structure Line where
  num : Nat := 0
  frame : BitVec 32 := 0
  sof : Bool := false
  eof : Bool := false
  bad : Bool := false
  drop : Bool := false
  lenBad : Bool := false
  time : Word := 0
  fmt : BitVec 6 := 0
  recv : Nat := 0
  /-- the contents, as lane bits. -/
  elems : List Nat := []
deriving DecidableEq, Repr

/-- A jointer (R59, R357, R358). -/
structure Jointer where
  code : List (BitVec 32) := []
  fam : List Bool := []
  s : Tab Word := []
  vreg : Tab (BitVec 4096) := []
  preg : Tab (BitVec 1024) := []
  lc : Tab Loop := []
  pc : BitVec 16 := 0
  adv : Bool := false
  /-- the program counter came to the plane's end by skipping a body, so that no body ends there (MODEL, log 90). -/
  skip : Bool := false
  flags : BitVec 8 := 0
  vshape : BitVec 27 := 0x13
  ordinal : Nat := 0
  run : Bool := false
  cur : BitVec 16 := 0
  inf : Bool := false
  eofs : Bool := false
  inv : Bool := false
  sub : BitVec 2 := 0
  outn : BitVec 16 := 0
  tslot : BitVec 3 := 0
  topen : Bool := false
  void : Bool := false
  trows : BitVec 12 := 0
  refrow : Option Nat := none
  tgiven : Word := 0
  /-- FRAME when the open tile was opened. -/
  tframe : BitVec 32 := 0
  opened : Bool := false
  subst : Nat := 0
  ring : List Line := []
  kept : List Line := []
  out : List Nat := []
  prev : Option (List Nat) := none
  /-- position 0: line times of lines received or declared, by frame × 65536 + line (R358, R360). -/
  times : Tab Word := []
  t0 : Word := 0
  frame : BitVec 32 := 0
  sentSof : Bool := false
  badcnt : BitVec 32 := 0
  dropcnt : BitVec 32 := 0
  latecnt : BitVec 32 := 0
  ovrcnt : BitVec 32 := 0
  voidcnt : BitVec 32 := 0
  /-- the main clock of the last JWAIT return, until the next JWAIT issues; and whether LINE_BUDGET was reported in this frame (R358). -/
  spentFrom : Option Nat := none
  budgetTold : Bool := false
  page : Bool := false
  /-- the previous delivered line of the frame at position 0 (R356), as delivered. -/
  lastElems : Option (List Nat) := none
deriving DecidableEq, Repr

/-- A chain and the state of the port's side of it (R352 to R355). -/
structure Chain where
  w : List Word := [0, 0, 0, 0, 0, 0, 0, 0, 0, 0]
  code : List (Nat × List (BitVec 32) × List Bool) := []
  codePart : Option Nat := none
  inFrame : Bool := false
  next : Nat := 0
  lineStart : Option (Nat × Word) := none
  frames : BitVec 32 := 0
  /-- the partition whose host has set EN while the Framer hands over: the check waits for the end of the window (R352, R473). -/
  wanted : Option Nat := none
  lastEnd : Word := 0
  /-- lidar: the number of the frame period, counted from device time 0, whose frame is open (R355). -/
  period : Nat := 0
deriving DecidableEq, Repr

/-- A sensor port's counters (R349, R350, R410). -/
structure Port where
  discard : BitVec 32 := 0
  crc : BitVec 32 := 0
  uplink : List Byte := []
  uplinkBusy : Option (Nat × Nat) := none
  /-- the reply has been written while the Framer hands over; the command ends after the window (R473). -/
  answered : Bool := false
deriving DecidableEq, Repr

/-- A fusion group (R395 to R399). -/
structure Group where
  w : List Word := [0, 0, 0, 0]
  armed : Bool := false
  ready : Bool := false
  abay : BitVec 6 := 0
  slot : BitVec 8 := 0
  tgt : Word := 0
  /-- the descriptor's copy made at SQARM, and where each byte of the record goes. -/
  copy : List Word := []
  recAt : List Nat := []
  /-- the record of a completion whose bytes wait for the sill (R373, R398). -/
  due : List Byte := []
  part : BitVec 3 := 0
  subst : BitVec 16 := 0
  missing : BitVec 16 := 0
  held : List (Nat × Nat) := []
  nsub : BitVec 32 := 0
  nrec : BitVec 32 := 0
  /-- the scoreboard key of the copy of a job that armed the group (R454). -/
  armer : Nat := 0
deriving DecidableEq, Repr

/-- A launch queue (R308, R315). -/
structure LQueue where
  base : Word := 0
  logn : Nat := 0
  level : Nat := 0
  en : Bool := false
  quant : Nat := 0
  head : Nat := 0
  tail : Nat := 0
  def_ : Nat := 0
  visited : Bool := false
  /-- a registration that takes effect when the queue holds no admitted job (R308). -/
  next : Option (Word × Word) := none
deriving DecidableEq, Repr

/-- An access that the Framer services or that waits for a migration (R324, R368). `who` is the agent. -/
structure PageFault where
  who : Actor
  cause : BitVec 8
  tid : Nat
  tile : Nat
  /-- where the failing entry of the table stands. -/
  entry : Nat
  since : Nat
  mig : Bool
  slot : Option Nat
  /-- a lath's access: the tag of the token (R338). -/
  aux : Word
  /-- the copy of a transfer unit (issue ordinal) that halted. -/
  copy : Option Nat
  /-- the host has been asked (R324), or it has answered. -/
  asked : Bool
  served : Bool
  /-- its place in the order of arrival at the Framer (R324). -/
  order : Nat := 0
  /-- it was outstanding at a save, so that after the restore the job's copies go on only once it has been serviced (R252). -/
  kept : Bool := false
deriving DecidableEq, Repr

/-- An entry of a tile table, or a ROOT, whose MIG the Framer has set (R370): where it stands (0 among the job's own entries), the job and the TID
of its tensor, and the main clock since when. -/
structure Move where
  entry : Nat
  slot : Nat
  tid : Nat
  since : Nat
deriving DecidableEq, Repr

/-- A partition (chapters 13, 18, 24, 25). -/
structure Part where
  up : Bool := false
  desc : List Word := [0, 0, 0, 0, 0, 0, 0, 0, 0, 0, 0, 0, 0, 0, 0, 0]
  queues : Tab LQueue := []
  pointer : Nat := 0
  history : List (Word × Bool) := []
  sfcClk : BitVec 16 := 0
  fnum : BitVec 48 := 0
  framelen : BitVec 16 := 16384
  framePend : Option (BitVec 16) := none
  faults : List PageFault := []
  evhead : BitVec 32 := 0
  evtail : BitVec 32 := 0
  evdrop : BitVec 32 := 0
  cmd : BitVec 8 := 0
  args : List Word := [0, 0, 0]
  /-- the operands of the running command, as they stood at its CMD write. -/
  ops : List Word := []
  busy : Bool := false
  res : BitVec 8 := 0
  logw0 : Word := 0
  logw1 : Word := 0
  testint : Nat := 60
  blocked : Bool := false
  inval : List (Nat × Nat × Nat) := []
  invalMail : Bool := false
  moves : List Move := []
  /-- an FLR of the VF that waits for the end of a handover window (R449, R473; log 109). -/
  flrAsked : Bool := false
  msix : Nat := 0
  /-- deterministic: the schedule slots of the frame that has begun have still to be taken (R319; MODEL, log 4). -/
  due : Bool := false
  /-- replay (R463): the entries consumed, the decisions that wait for their logged choice (kind, unit, slot, since), and the slot of the
  entry at which the partition is frozen. -/
  replayed : List Nat := []
  stuck : List (Nat × Nat × Nat × Word) := []
  frozen : Option Nat := none
deriving DecidableEq, Repr

/-- The state of a scoreboard entry (R313). -/
inductive JobState where
  | free | wait | ready | load | run | saved
deriving DecidableEq, Repr

/-- A dependence slot of a launch record (R311). -/
structure Dep where
  kind : Nat
  a : Nat
  b : Nat
  c : Word
  isMet : Bool
deriving DecidableEq, Repr

/-- An image of a save (R204, R216, R217): the bays in the order of their logical numbers, their lines, the metadata of SHARED granules in
those lines, and the job's laths. -/
structure SaveArea where
  bays : List Bay := []
  mem : List Host.Cell := []
  metas : Tab (BitVec 12) := []
  /-- the job's laths: planes, token queues and control state (R216, R348). -/
  laths : Tab Lath := []
deriving DecidableEq, Repr

/-- A scoreboard entry and its job (R313). -/
structure Job where
  state : JobState := .free
  part : Nat := 0
  queue : Nat := 0
  order : Nat := 0
  jobid : Word := 0
  shape : Nat := 0
  prio : Nat := 0
  plumb : Bool := false
  paired : Bool := false
  /-- the other copy of a paired job (R454), and whether this is the primary. -/
  twin : Option Nat := none
  primary : Bool := true
  image : List Byte := []
  key : Word := 0
  pbtid : BitVec 16 := 0
  tlim : Nat := 0
  crec : Word := 0
  start : Nat := 0
  deps : List Dep := []
  group : Nat := 0
  bays : List Nat := []
  laths : List Nat := []
  /-- the defect-map signature under which the job was placed (R30). -/
  sig : Nat := 0
  entries : List (List Word) := []
  tableArea : Nat := 0
  tableLen : Nat := 0
  elev : Nat := 0
  readyAt : Nat := 0
  ran : Nat := 0
  ranFrom : Nat := 0
  placedTime : Word := 0
  placed : Bool := false
  placedOrder : Nat := 0
  /-- SHARED phase counter (R223) and the bays that have arrived at PHASE (R232). -/
  q : Nat := 0
  status : BitVec 8 := 0
  cause : BitVec 8 := 0
  fbay : BitVec 8 := 0xFF
  frec : BitVec 32 := 0
  ended : Bool := false
  timeUp : Option Nat := none
  stopping : Bool := false
  /-- the two image areas of the job's bents, and whether the second holds the latest image (R205, R216). -/
  area0 : Option SaveArea := none
  area1 : Option SaveArea := none
  latest : Bool := false
  run1 : Bool := false
  d0lo : Word := 0
  d0hi : Word := 0
  dlo : Word := 0
  dhi : Word := 0
  stamps : List Byte := []
  framelen : Nat := 0
  /-- the granules of SHARED tensors in the sill that run 0 of a plumb job has written, each with its contents at step 4 of R15 (R459). -/
  shared0 : List (Nat × List Byte) := []
deriving DecidableEq, Repr

/-- gPTP (R351, R388, R389). -/
structure Clock where
  time : Word := 0
  lock : Bool := false
  hold : Bool := false
  first : Bool := false
  offs : BitVec 32 := 0
  gm : Option Nat := none
  /-- a two-step Sync that waits for its Follow_Up: the device time of its arrival. -/
  sync : Option Word := none
  lastSync : Word := 0
  /-- a Sync has been accepted since boot. -/
  synced : Bool := false
  /-- nanoseconds by which slewing still has to move TIME, and the trim of the rate in parts per million (log 96). -/
  slew : Int := 0
  rate : Int := 0
  pdelay : Nat := 0
  /-- a Pdelay request of the device's own is without its response. -/
  pdelayReq : Bool := false
  oscillator : Nat := 0
deriving DecidableEq, Repr

/-- The Foreman (chapter 26) and the PF's mailbox. -/
structure Foreman where
  cmd : BitVec 8 := 0
  args : List Word := [0, 0, 0, 0]
  /-- the operands of the running command, as they stood at its FCMD write. -/
  ops : List Word := []
  busy : Bool := false
  res : BitVec 8 := 0
  fma : Bool := false
  fra : Bool := false
  stg : Bool := false
  hov : Bool := false
  frver : BitVec 32 := 0
  hbcnt : Word := 0
  evhead : BitVec 32 := 0
  evtail : BitVec 32 := 0
  evdrop : BitVec 32 := 0
  evbase : Word := 0
  evlog : Nat := 0
  sens : Tab (BitVec 18) := []
  /-- image slots (R470), by target × 2 + slot: contents that this device has written; an unlisted slot holds what the flash was delivered
  with, and an empty one nothing. -/
  slots : Tab (List Byte) := []
  /-- the boot slot of each target. -/
  fmNext : Bool := false
  frNext : Bool := false
  /-- fuse minima of SVN, by target, where this device has raised them. -/
  svn : Tab Nat := []
  lastBeat : Word := 0
  handover : Option Nat := none
  /-- the staged image has been started: step 3 of R471 is done. Before it the window is open while the Framer finishes its flips. -/
  started : Bool := false
  step3At : Word := 0
  /-- the gap after the latest heartbeat has been logged (R472). -/
  quietTold : Bool := false
  lastSample : Word := 0
  /-- sensors whose trip condition stands (R474). -/
  tripped : List Nat := []
deriving DecidableEq, Repr

/-- The remap tables (R372). -/
structure Remap where
  bayskip : Tab (BitVec 4) := []
  bankskip : Tab (Vector (BitVec 11) 8) := []
  colskip : Tab (Vector (BitVec 11) 16) := []
  rowskip : Tab (Vector (BitVec 11) 32) := []
  slicemap : Tab (BitVec 6) := []
  jointmap : Tab (BitVec 7) := []
  lathdef : BitVec 104 := 0
  defsig : BitVec 32 := 0
  /-- slice copies under way: the logical slice, and the physical slice it goes to (R373). -/
  copying : List (Nat × Nat) := []
  /-- physical slices (kind 0) and jointers (kind 1) that a spare has replaced, and bents with a worn unit that no spare can replace (R373). -/
  retired : List (Nat × Nat) := []
  lost : List Nat := []
  /-- a bent unit, a slice or a jointer has worn out without a spare: the next boot stops at its step 4 (R445). -/
  spent : Bool := false
  /-- laths that have failed their parity sweep while a job held them (R373, R467). -/
  failing : List Nat := []
  /-- the device time at which a unit was last seen idle, by kind and unit (R467). -/
  idleAt : Tab Word := []
  /-- tests passed, or reported as not run, since boot: the test, the unit and the device time (R467). -/
  tested : List (Nat × Nat × Word) := []
deriving DecidableEq, Repr

/-- BOOTSTAT (R444). -/
structure BootStat where
  stage : BitVec 4 := 0
  err : BitVec 8 := 0
  rdy : Bool := false
deriving DecidableEq, Repr

/-- Why the machine stops without an effect. -/
inductive Fault where
  /-- raised by a meaning whose word or step runs on an agent that has no such word (for example a scalar word while no agent acts):
  no decoder gives it there, so no run of the machine reaches it. Safe. -/
  | wrongPlace
deriving DecidableEq, Repr

/-- Why an instruction has no meaning. -/
inductive Refusal where
  /-- raised by an arm of `exec` whose instruction has no meaning yet. Safe: nothing is claimed of it. -/
  | notModelled (mnemonic : String)
deriving DecidableEq, Repr

/-- The machine. -/
structure State where
  /-- the choices still to be made, first first (MODEL, log 1). -/
  agenda : List Choice := []
  /-- the agent that acts now (MODEL, log 3). -/
  cur : Actor := .none
  /-- counts free values and free choices (MODEL, log 1). -/
  tick : Nat := 0
  /-- main clocks since boot (MODEL, log 4). -/
  clock : Nat := 0
  bays : Tab Bay := []
  bents : Tab Bent := []
  /-- every byte of every memory, by device-wide address (log 2). -/
  mem : List Host.Cell := []
  /-- DRAM granule tags (R215), by granule number. -/
  tags : Tab (BitVec 4) := []
  /-- SHARED granule metadata (R222): CV, PND, WPH, WBAY, by the address of the granule's version 0. -/
  meta_ : Tab (BitVec 12) := []
  /-- the scoreboard slot of the job whose write is pending in a granule, since each job has a phase counter of its own (R223). -/
  metaJob : Tab Nat := []
  /-- translation caches (R369): what each holds for a range of memory. -/
  caches : Tab (List (Nat × List Byte)) := []
  jointers : Tab Jointer := []
  chains : Tab Chain := []
  /-- camera ports 0 to 23, lidar ports 24 to 31. -/
  ports : Tab Port := []
  /-- stream counters (R391): ROWS 16, DONE, FRAME 32. -/
  rowcnt : Tab Word := []
  /-- tile hold counts (R396), by stream × 8 + slot. -/
  holds : Tab Nat := []
  groups : Tab Group := []
  laths : Tab Lath := []
  tables : Tab (List Word) := []
  families : Tab (List Word) := []
  /-- buckets held by a migration: (table, bucket, lath) (R386). -/
  heldBuckets : List (Nat × Nat × Nat) := []
  parts : Tab Part := []
  jobs : Tab Job := []
  /-- counts admissions and placements. -/
  jobClock : Nat := 0
  /-- counts page faults as they reach the Framer (R324). -/
  faultClock : Nat := 0
  clk : Clock := {}
  remap : Remap := {}
  boot : BootStat := {}
  foreman : Foreman := {}
  /-- the filter state of the XRED homes (R244): by partition and logical bay of the sender and by home (log 97), the last sequence applied. -/
  homes : Tab (BitVec 23) := []
  /-- messages sent to the outside: MSI-X vectors of the PF, and answers on links. -/
  pfmsix : List Nat := []
  outbox : List (Nat × List Byte) := []
deriving DecidableEq, Repr

/-- The machine after reset: every field at the value INVENTORY.md gives it. -/
def State.reset : State := {}

end Sys2Proof.Machine
end

