-- ==== Sys2Proof/Machine/Ops.lean ====
section
/-! DEFINITION. The named operations over tables, memory and registers, the retirement of a word, and taking a fault and returning
from one (spec/07_control.md R195 to R200). -/

namespace Sys2Proof

/-- Position of an engine in the order V, M, L, W of RUN, HALT and PEND. -/
def Eng.idx : Eng → Nat
  | .V => 0
  | .M => 1
  | .L => 2
  | .W => 3
  | .S => 4

def engOf : Nat → Eng
  | 0 => .V
  | 1 => .M
  | 2 => .L
  | 3 => .W
  | _ => .S

/-- The code of TSTAT.ENG (R196). -/
def Eng.code : Eng → Nat
  | .S => 0
  | .V => 1
  | .M => 2
  | .L => 3
  | .W => 4

/-- Position of an engine's section in the code plane (R68). -/
def Eng.section (e : Eng) : Nat := e.code

end Sys2Proof

namespace Sys2Proof.Machine

/-! ### Sparse tables -/

def Tab.get {α : Type} (d : α) : Tab α → Nat → α
  | [], _ => d
  | (k', v) :: t, k => if k = k' then v else Tab.get d t k

def Tab.has {α : Type} : Tab α → Nat → Bool
  | [], _ => false
  | (k', _) :: t, k => k == k' || Tab.has t k

def Tab.erase {α : Type} (k : Nat) : Tab α → Tab α
  | [] => []
  | (k', v) :: t => if k = k' then Tab.erase k t else (k', v) :: Tab.erase k t

/-- Insert before the first greater key. -/
def Tab.insert {α : Type} (k : Nat) (v : α) : Tab α → Tab α
  | [] => [(k, v)]
  | (k', v') :: t => if k < k' then (k, v) :: (k', v') :: t else (k', v') :: Tab.insert k v t

def Tab.put {α : Type} (l : Tab α) (k : Nat) (v : α) : Tab α := Tab.insert k v (Tab.erase k l)

/-- Write one key; the default is not listed, so equal contents are equal lists. -/
def Tab.set {α : Type} [DecidableEq α] (d : α) (l : Tab α) (k : Nat) (v : α) : Tab α :=
  if v = d then Tab.erase k l else Tab.put l k v

/-! ### Bits and bytes -/

/-- Bits `hi` to `lo` of a register, as a number. -/
def bits (w : Word) (hi lo : Nat) : Nat := w.toNat / 2 ^ lo % 2 ^ (hi - lo + 1)

def bit (w : Word) (i : Nat) : Bool := w.toNat / 2 ^ i % 2 == 1

/-- A value in bits from `lo`, for building a register. -/
def at_ (v lo : Nat) : Nat := v * 2 ^ lo

def b2n (b : Bool) : Nat := if b then 1 else 0

def word (n : Nat) : Word := BitVec.ofNat 64 n

/-- The signed reading of the low `w` bits of `n`. -/
def sgn (w n : Nat) : Int := if n % 2 ^ w < 2 ^ (w - 1) then (n % 2 ^ w : Nat) else (n % 2 ^ w : Nat) - (2 ^ w : Nat)

/-- `x` modulo 2^w. -/
def wrap (w : Nat) (x : Int) : Nat := (x % (2 ^ w : Nat)).toNat

/-- A number as `n` bytes, little-endian (R3). -/
def natBytes : Nat → Nat → List Byte
  | 0, _ => []
  | n + 1, v => BitVec.ofNat 8 v :: natBytes n (v / 256)

/-- Bytes as a number, little-endian (R3). -/
def bytesNat : List Byte → Nat
  | [] => 0
  | b :: t => b.toNat + 256 * bytesNat t

/-- Bytes cut into 64-bit words. -/
def bytesWords : Nat → List Byte → List Word
  | 0, _ => []
  | n + 1, l => word (bytesNat (l.take 8)) :: bytesWords n (l.drop 8)

/-- Insert before the first element of a greater key. -/
def insertBy {α : Type} (f : α → Nat) (x : α) : List α → List α
  | [] => [x]
  | y :: t => if f x < f y then x :: y :: t else y :: insertBy f x t

/-- A stable sort by rising key. -/
def sortBy {α : Type} (f : α → Nat) (l : List α) : List α := l.foldl (fun acc x => insertBy f x acc) []

def nth {α : Type} (d : α) (l : List α) (i : Nat) : α := l.getD i d

/-- Replace one element of a list. -/
def setNth {α : Type} (l : List α) (i : Nat) (v : α) : List α := l.set i v

/-! ### Memory: one store of bytes, addressed device-wide (log 2) -/

def bankBytes : Nat := 16384
def bankCount : Nat := 96
def accEntries : Nat := 262144
def sliceBytes : Nat := 8388608

def bankAddr (bay bank off : Nat) : Nat := bay * 1572864 + bank * 16384 + off
def accAddr (bay entry : Nat) : Nat := 134217728 + bay * 1048576 + entry * 4
def sillAddr (slice off : Nat) : Nat := 268435456 + slice * 8388608 + off
/-- DRAM holds a byte at every offset that a FRAME, a NODE or DBASE can name, beyond 256 GiB or the memory fitted too (R1, R206; log 105). -/
def dramAddr (a : Nat) : Nat := 73786976294838206464 + a
def hostAddr (a : Nat) : Nat := 147573952589676412928 + a
def peerAddr (a : Nat) : Nat := 295147905179352825856 + a

/-- What a byte reads as that nothing has written (R477; log 2). -/
def unlisted : Byte := 0

abbrev Memory := List Host.Cell

/-- The canonical form: addresses strictly rising, and no entry equal to what an unlisted address reads as. -/
def Memory.wf : Memory → Bool
  | [] => true
  | [(_, v)] => v != unlisted
  | (a, v) :: (b, u) :: t => decide (a < b) && v != unlisted && Memory.wf ((b, u) :: t)

def Memory.read (m : Memory) (a : Nat) : Byte := Tab.get unlisted m a

def Memory.write (m : Memory) (a : Nat) (b : Byte) : Memory := Tab.set unlisted m a b

def Memory.readBytes (m : Memory) (a : Nat) : Nat → List Byte
  | 0 => []
  | n + 1 => m.read a :: Memory.readBytes m (a + 1) n

def Memory.writeBytes (m : Memory) (a : Nat) : List Byte → Memory
  | [] => m
  | b :: t => Memory.writeBytes (m.write a b) (a + 1) t

def State.rd (s : State) (a n : Nat) : Nat := bytesNat (Memory.readBytes s.mem a n)

def State.readBytes (s : State) (a n : Nat) : List Byte := Memory.readBytes s.mem a n

/-- Bytes 512-byte lines of the own banks and accumulator store: line number within a bay (R217), banks first. -/
def lineOf (a : Nat) : Option (Nat × Nat) :=
  if a < 134217728 then some (a / 1572864, a % 1572864 / 512)
  else if a < 268435456 then some ((a - 134217728) / 1048576, 3072 + (a - 134217728) % 1048576 / 512)
  else none

def addLine (l : List Nat) (n : Nat) : List Nat := if l.contains n then l else n :: l

/-- Mark the lines of a write of `n` bytes at `a` dirty (R217). -/
def State.dirtyLine (s : State) (a : Nat) : State :=
  match lineOf a with
  | some (b, n) =>
    let y := Tab.get {} s.bays b
    { s with bays := Tab.put s.bays b { y with dirtyLines := addLine y.dirtyLines n } }
  | none => s

/-- Store bytes, which are one piece: they lie in one unit and cross no 512-byte line but at most one (a granule or less). -/
def State.write (s : State) (a : Nat) (l : List Byte) : State :=
  let s' := if l.isEmpty then s else (s.dirtyLine a).dirtyLine (a + l.length - 1)
  { s' with mem := Memory.writeBytes s'.mem a l }

def State.writePieces (s : State) : List Piece → State
  | [] => s
  | p :: t => State.writePieces (s.write p.addr p.bytes) t

/-! ### Agents and their state -/

def State.bay (s : State) (b : Nat) : Bay := Tab.get {} s.bays b

def State.setBay (s : State) (b : Nat) (y : Bay) : State := { s with bays := Tab.put s.bays b y }

def State.modBay (s : State) (b : Nat) (f : Bay → Bay) : State := s.setBay b (f (s.bay b))

def State.bent (s : State) (n : Nat) : Bent := Tab.get {} s.bents n

def State.setBent (s : State) (n : Nat) (x : Bent) : State := { s with bents := Tab.put s.bents n x }

def State.part (s : State) (p : Nat) : Part := Tab.get {} s.parts p

def State.setPart (s : State) (p : Nat) (x : Part) : State := { s with parts := Tab.put s.parts p x }
def State.modPart (s : State) (p : Nat) (f : Part → Part) : State := s.setPart p (f (s.part p))

/-- A partition whose replay has mismatched stands still (R463). -/
def State.isFrozen (s : State) (p : Nat) : Bool := (s.part p).frozen.isSome

def State.job (s : State) (n : Nat) : Job := Tab.get {} s.jobs n

def State.setJob (s : State) (n : Nat) (x : Job) : State := { s with jobs := Tab.put s.jobs n x }

def State.lathAt (s : State) (n : Nat) : Lath := Tab.get {} s.laths n

def State.setLath (s : State) (n : Nat) (x : Lath) : State := { s with laths := Tab.put s.laths n x }

def State.chain (s : State) (n : Nat) : Chain := Tab.get {} s.chains n

def State.setChain (s : State) (n : Nat) (x : Chain) : State := { s with chains := Tab.put s.chains n x }

def jkey (c p : Nat) : Nat := c * 8 + p

def State.jtr (s : State) (c p : Nat) : Jointer := Tab.get {} s.jointers (jkey c p)

def State.setJtr (s : State) (c p : Nat) (x : Jointer) : State := { s with jointers := Tab.put s.jointers (jkey c p) x }

def State.group (s : State) (g : Nat) : Group := Tab.get {} s.groups g

def State.setGroup (s : State) (g : Nat) (x : Group) : State := { s with groups := Tab.put s.groups g x }

def State.port (s : State) (p : Nat) : Port := Tab.get {} s.ports p

def State.setPort (s : State) (p : Nat) (x : Port) : State := { s with ports := Tab.put s.ports p x }

/-- A free value of the spec, a fresh one at each use (log 1). -/
def State.fresh (s : State) : BitVec 64 × State := (Config.freeValue s.tick, { s with tick := s.tick + 1 })

def Bay.stream (y : Bay) : Eng → Stream
  | .V => y.v
  | .M => y.m
  | .L => y.l
  | .W => y.w
  | .S => {}

def Bay.setStream (y : Bay) (e : Eng) (x : Stream) : Bay :=
  match e with
  | .V => { y with v := x }
  | .M => { y with m := x }
  | .L => { y with l := x }
  | .W => { y with w := x }
  | .S => y

/-- Offset and length of a section of the active plane. -/
def Bay.sect (y : Bay) (e : Eng) : Nat × Nat := y.plane.sections.getD e.section (0, 0)

def State.modStream (s : State) (b : Nat) (e : Eng) (f : Stream → Stream) : State :=
  s.modBay b fun y => y.setStream e (f (y.stream e))

/-- The bay of the acting stream. -/
def State.bayNo (s : State) : Nat :=
  match s.cur with
  | .stream b _ => b
  | _ => 0

def State.curBay (s : State) : Bay := s.bay s.bayNo

/-- Partition, slot and mode bits of a bay's job (R182). -/
def Bay.partNo (y : Bay) : Nat := bits y.jobinfo 2 0
def Bay.det (y : Bay) : Bool := bit y.jobinfo 5
def Bay.plumb (y : Bay) : Bool := bit y.jobinfo 6
def Bay.paired (y : Bay) : Bool := bit y.jobinfo 7
/-- The scoreboard slot of the bay's job; the twin of a paired job in slot n stands at n + 1024 (R454). -/
def Bay.slotNo (y : Bay) : Nat := y.slot.getD (bits y.jobinfo 15 8)

def State.jobOf (s : State) (b : Nat) : Job := s.job (s.bay b).slotNo

/-- The job is not running in its bays: it is loaded or restored, saved, or it has ended (R313). -/
def Job.away (j : Job) : Bool := j.state == .load || j.state == .saved || j.ended

/-- The streams of the job issue no word: it is away, or its bays stop for a save (R35). -/
def Job.idle (j : Job) : Bool := j.stopping || j.away

/-- The device bay of logical bay `i` of the job that owns bay `b`. -/
def State.peerBay (s : State) (b i : Nat) : Nat := (s.jobOf b).bays.getD i b

/-- Bays of the job that owns bay `b`. -/
def State.bayCount (s : State) (b : Nat) : Nat := (s.jobOf b).bays.length

/-! ### Dirty bits of the pre-emption image (R204) -/

def Bay.mark (y : Bay) (i : Nat) : Bay := { y with dirty := y.dirty ||| BitVec.ofNat 239 (2 ^ i) }

def markFlags : Nat := 233
def markTrap : Nat := 234
def markEv : Nat := 235
def markFmt : Nat := 236
def markLen : Nat := 237
def markPc : Nat := 238

/-! ### Scalar and stream registers -/

/-- s(r) of the acting stream; s0 reads as zero (R102). -/
def State.readS (s : State) (r : BitVec 5) : Word :=
  if r = 0 then 0
  else match s.cur with
    | .stream b .S => Tab.get 0 (s.bay b).s r.toNat
    | .jointer c p => Tab.get 0 (s.jtr c p).s r.toNat
    | _ => 0

/-- sd := v; a write to s0 is discarded (R41). -/
def State.writeS (s : State) (r : BitVec 5) (v : Word) : State :=
  if r = 0 then s
  else match s.cur with
    | .stream b .S => s.modBay b fun y => { y with s := Tab.set 0 y.s r.toNat v }.mark r.toNat
    | .jointer c p => s.setJtr c p { s.jtr c p with s := Tab.set 0 (s.jtr c p).s r.toNat v }
    | _ => s

/-- k(j) of the acting stream; the sequencer's and a jointer's are s8 to s15 (R59, R105). -/
def State.readK (s : State) (j : BitVec 3) : Word :=
  match s.cur with
  | .stream b .S => Tab.get 0 (s.bay b).s (8 + j.toNat)
  | .stream b e => Tab.get 0 ((s.bay b).stream e).k j.toNat
  | .jointer c p => Tab.get 0 (s.jtr c p).s (8 + j.toNat)
  | _ => 0

def State.writeK (s : State) (j : BitVec 3) (v : Word) : State :=
  match s.cur with
  | .stream b .S => s.modBay b fun y => { y with s := Tab.set 0 y.s (8 + j.toNat) v }.mark (8 + j.toNat)
  | .stream b e => s.modBay b fun y =>
      (y.setStream e { y.stream e with k := Tab.set 0 (y.stream e).k j.toNat v }).mark (112 + e.idx * 8 + j.toNat)
  | .jointer c p => s.setJtr c p { s.jtr c p with s := Tab.set 0 (s.jtr c p).s (8 + j.toNat) v }
  | _ => s

/-! ### Program counters and retirement -/

def State.pc (s : State) : BitVec 16 :=
  match s.cur with
  | .stream b .S => (s.bay b).pc
  | .stream b e => ((s.bay b).stream e).pc
  | .jointer c p => (s.jtr c p).pc
  | _ => 0

/-- Move the acting stream's program counter; `adv` says that the word retired without transferring control (R407), and `q` gives the bytes
that the instruction queue then holds beyond the new pc (R295). -/
def State.movePc (s : State) (v : BitVec 16) (adv : Bool) (q : Nat → Nat) : State :=
  match s.cur with
  | .stream b .S => s.modBay b fun y => { y with pc := v, adv := adv, skip := false, waiting := none, hold := false, fetched := q y.fetched }.mark markPc
  | .stream b e => s.modBay b fun y =>
      let x := y.stream e
      (y.setStream e { x with pc := v, adv := adv, skip := false, issued := none, fetched := q x.fetched }).mark markPc
  | .jointer c p => s.setJtr c p { s.jtr c p with pc := v, adv := adv, skip := false }
  | _ => s

/-- Move the program counter past a retired word, which leaves the queue, or to the target of a transfer, which empties it. -/
def State.setPc (s : State) (v : BitVec 16) (adv : Bool) : State := s.movePc v adv fun n => if adv then n - 4 else 0

/-- The program counter has come to the plane's end without the retirement of a body's last word: no body ends there (R407; log 90). -/
def State.bodySkipped (s : State) : State :=
  match s.cur with
  | .stream b .S => s.modBay b fun y => { y with skip := true }
  | .stream b e => s.modStream b e fun x => { x with skip := true }
  | .jointer c p => s.setJtr c p { s.jtr c p with skip := true }
  | _ => s

/-- A word retires: the program counter moves to the next word (R106). -/
def State.retire (s : State) : State := s.setPc (s.pc + 4) true

/-- A word transfers control (R407). -/
def State.jump (s : State) (t : BitVec 16) : State := s.setPc t false

/-- The ordinal counts a vector word of the acting stream (R139). -/
def State.countV (s : State) : State :=
  match s.cur with
  | .stream b .V => s.modStream b .V fun x => { x with ordinal := x.ordinal + 1 }
  | .jointer c p => s.setJtr c p { s.jtr c p with ordinal := (s.jtr c p).ordinal + 1 }
  | _ => s

/-- A vector word retires. -/
def State.retireV (s : State) : State := s.retire.countV

/-- The byte offset at which a word that has just retired ends: a pc of 0 stands for the plane's end (R68, R119; log 90). -/
def endPc (pc : BitVec 16) : Nat := if pc = 0 then 65536 else pc.toNat

/-- The dirty bit of a loop counter (R204). -/
def lcMark : Eng → Nat → Nat
  | .S, j => 216 + j
  | .V, j => 220 + j
  | .M, j => 224 + j
  | .L, j => 228 + j
  | .W, j => 228 + j

/-- Set the dirty bits of the loop counters whose ACTIVE has changed: at a branch that leaves the loop, at SPAWN and at VEND (log 110). -/
def Bay.markLoops (y : Bay) (e : Eng) (old new : Tab Loop) : Bay :=
  (List.range 4).foldl (fun y j => if (Tab.get {} old j).active == (Tab.get {} new j).active then y else y.mark (lcMark e j)) y

/-- An active loop's body ends at the end of the word that has just retired, where the program counter stands (R172, R249, R407). -/
def endsAt (lc : Tab Loop) (pc : BitVec 16) : Bool :=
  lc.any fun (_, l) => l.active && l.start.toNat + 4 * l.len.toNat == endPc pc

/-- A program counter outside a section of `l` bytes at `o`: before it, or at or beyond its end, to which the plane's end counts (R119, R296). -/
def outside (o l : Nat) (adv : Bool) (pc : BitVec 16) : Bool :=
  decide (pc.toNat ≥ o + l) || decide (pc.toNat < o) || (adv && pc == 0)

/-! ### Numeric flags (R91) -/

def State.flags (s : State) : BitVec 8 :=
  match s.cur with
  | .stream b .S => (s.bay b).flags
  | .stream b e => ((s.bay b).stream e).flags
  | .jointer c p => (s.jtr c p).flags
  | _ => 0

/-- Flags are sticky: setting a bit never clears another. -/
def State.orFlags (s : State) (f : BitVec 8) : State :=
  match s.cur with
  | .stream b .S => s.modBay b fun y => { y with flags := y.flags ||| f }.mark markFlags
  | .stream b e => s.modBay b fun y => (y.setStream e { y.stream e with flags := (y.stream e).flags ||| f }).mark markFlags
  | .jointer c p => s.setJtr c p { s.jtr c p with flags := (s.jtr c p).flags ||| f }
  | _ => s

/-- Flags of another stream of the bay, for units that finish later. -/
def State.orStreamFlags (s : State) (b : Nat) (e : Eng) (f : BitVec 8) : State :=
  s.modBay b fun y => (y.setStream e { y.stream e with flags := (y.stream e).flags ||| f }).mark markFlags

/-! ### Why a word does not retire -/

/-- How a meaning ends when the word does not retire. -/
inductive Stop where
  /-- the word raises this fault; who raises it and where is filled in by `State.stopped`. -/
  | trap (rc : FaultRec)
  /-- the word waits and is found not begun. -/
  | wait
  /-- the word waits, and a fault of an engine does not abandon the wait (R199). -/
  | hold
  /-- a fault of kind 0 or 3 goes to the Framer (R195), or the access waits for a migration (R368). -/
  | page (cause : BitVec 8) (tid tile entry : Nat) (mig : Bool) (aux : Word)
  /-- the word runs on no such agent. -/
  | place
deriving DecidableEq, Repr

/-- A fault that carries only its cause. -/
def trapC (c : Nat) : Stop := .trap { cause := BitVec.ofNat 8 c }

/-- A fault about a tensor (R197). -/
def trapT (c tid : Nat) (wher : Nat) (rst : Bool) : Stop :=
  .trap { cause := BitVec.ofNat 8 c, tid := BitVec.ofNat 16 tid, wher := word wher, rst := rst }

def guardE (b : Bool) (e : Stop) : Except Stop Unit := if b then .ok () else .error e

/-! ### Events, pegs, messages -/

def Bay.event (y : Bay) (i : Nat) : Bay := { y with evpend := y.evpend ||| BitVec.ofNat 6 (2 ^ i) }.mark markEv

def evEnd : Nat := 0
def evPeg : Nat := 1
def evChan : Nat := 2
def evSqr : Nat := 3
def evFrame : Nat := 4
def evPhase : Nat := 5

/-- One peg into queue `q`; a push into ls, ms or ws sets EVPEND.PEG (R202, R288). -/
def Bay.push (y : Bay) (q : Nat) : Bay :=
  let y' := { y with cnt := Tab.set 0 y.cnt q (Tab.get 0 y.cnt q + 1) }
  if q = 2 || q = 5 || q = 10 then y'.event evPeg else y'

def Bay.pop (y : Bay) (q : Nat) : Bay := { y with cnt := Tab.set 0 y.cnt q (Tab.get 0 y.cnt q - 1) }

def Bay.reserve (y : Bay) (q : Nat) : Bay := { y with rsv := Tab.set 0 y.rsv q (Tab.get 0 y.rsv q + 1) }

def Bay.unreserve (y : Bay) (q : Nat) : Bay := { y with rsv := Tab.set 0 y.rsv q (Tab.get 0 y.rsv q - 1) }

/-- Room for one more peg: CNT + RSV below the depth of 15 (R290). -/
def Bay.room (y : Bay) (q : Nat) : Bool := decide ((Tab.get 0 y.cnt q).toNat + (Tab.get 0 y.rsv q).toNat < 15)

/-- A deferred push takes place: the reservations turn into pegs (R290). -/
def Bay.pushDeferred (y : Bay) (qs : List Nat) : Bay := qs.foldl (fun y q => (y.unreserve q).push q) y

def Bay.returnDeferred (y : Bay) (qs : List Nat) : Bay := qs.foldl (fun y q => y.unreserve q) y

/-- A message to the outside (MODEL: what the device sends is kept, newest first). -/
def State.tell (s : State) (kind : Nat) (l : List Byte) : State := { s with outbox := (kind, l) :: s.outbox }

/-- The words of a lath's active plane (R335). -/
def Lath.plane (x : Lath) : List (BitVec 32) := if x.act then x.plane1 else x.plane0

/-- Program words follow the 8 port words and the 16 slots of two words (R335). -/
def planeHead : Nat := 40

/-! ### Event rings (R326, R475) -/

/-- Write an entry of the Foreman's ring and send MSI-X vector 2, or count it as dropped when the ring is full (or not placed yet). The spec
gives no value of the severity and the detail of a kind: they are left free (log 18). -/
def State.fmEvent (s : State) (kind unit : Nat) : State :=
  let f := s.foreman
  if f.evlog = 0 || (f.evtail - f.evhead).toNat = 2 ^ f.evlog then { s with foreman := { f with evdrop := f.evdrop + 1 } }
  else
    let (d, s) := s.fresh
    let (v, s) := s.fresh
    let l := natBytes 4 (kind + at_ (v.toNat % 3) 8) ++ natBytes 4 f.evdrop.toNat ++ natBytes 8 unit ++ natBytes 8 s.clk.time.toNat ++ natBytes 8 d.toNat
    { s.write (hostAddr (f.evbase.toNat + 32 * (f.evtail.toNat % 2 ^ f.evlog))) l with
      foreman := { f with evtail := f.evtail + 1, evdrop := 0 }, pfmsix := 2 :: s.pfmsix }

/-- An event that the Foreman logs and R475 gives no kind: its kind is left free (log 18). -/
def State.fmOther (s : State) (unit : Nat) : State := s.fresh.2.fmEvent (s.fresh.1.toNat % 256) unit

/-- Write an entry of a partition's ring (R326). Bits [63:32] of its detail count the events dropped since the entry before; below them the
detail of a kind that states none is left free, and the whole of it where none was dropped (log 18). -/
def State.frEvent (s : State) (p kind data : Nat) (jobid : Word) (detail : Option Nat) : State :=
  let x := s.part p
  let n := 2 ^ bits (nth 0 x.desc 8) 15 0
  if (x.evtail - x.evhead).toNat = n then s.setPart p { x with evdrop := x.evdrop + 1 }
  else
    let (d, s) := match detail with
      | some k => (k, s)
      | none => (s.fresh.1.toNat, s.fresh.2)
    let d := if x.evdrop = 0 then d else d % 2 ^ 32 + at_ x.evdrop.toNat 32
    let l := natBytes 4 kind ++ natBytes 4 data ++ natBytes 8 jobid.toNat ++ natBytes 8 s.clk.time.toNat ++ natBytes 8 d
    let s := s.write (hostAddr ((nth 0 x.desc 7).toNat + 32 * (x.evtail.toNat % n))) l
    s.setPart p { x with evtail := x.evtail + 1, evdrop := 0 }

/-! ### Releasing what a bay holds -/

/-- A channel endpoint is unbound and its buffers are discarded; elements on their way to the lath still arrive (R300). -/
def Endpoint.unbind (e : Endpoint) : Endpoint :=
  { e with bnd := false, buf := [], replay := [], resync := false, audit := none, answer := none }

/-! ### Taking a fault (R195 to R199) -/

/-- FREC0 (R197). -/
def FaultRec.w0 (r : FaultRec) : Word :=
  word (r.cause.toNat + at_ r.eng.toNat 8 + at_ (b2n r.rst) 11 + at_ r.pc.toNat 12 + at_ r.tid.toNat 32 + at_ r.unit.toNat 48)

/-- check_target (R118) in the sequencer's section. -/
def Bay.targetOk (y : Bay) (t : Nat) : Bool :=
  let (o, l) := y.sect .S
  t % 4 == 0 && decide (o ≤ t) && decide (t < o + l)

/-- A bay stops for its job: pegs, channels and streams are discarded, and the bay counts as arrived at PHASE (R300). -/
def Bay.stop (y : Bay) : Bay :=
  { y with
    live := false, waiting := none, hold := false, merge := none, mergeDone := false, merged := none, arrived := true, cnt := [], rsv := [], chan := y.chan.map fun (k, e) => (k, e.unbind),
    stores := [], reds := [],
    v := { y.v with run := false, spwn := false }, m := { y.m with run := false, spwn := false, issued := none, kept := [] },
    l := { y.l with run := false, spwn := false, inflight := [], issued := none, kept := [] }
    w := { y.w with run := false, spwn := false, inflight := [], issued := none, kept := [] },
    truss := { y.truss with queue := [], running := [], req := false, held := false } }

/-- The bay halts at a clock, from which its twin's halt is awaited (R455, R456). -/
def Bay.stopAt (y : Bay) (clock : Nat) : Bay := { y.stop with mergedAt := clock }

/-- Every bay of the job has arrived at PHASE: the job runs, and each bay is the job's (R232, R313). -/
def State.allArrived (s : State) (slot : Nat) : Bool :=
  (s.job slot).state == .run && (s.job slot).bays.all fun b => (s.bay b).slot == some slot && (s.bay b).arrived

/-- When the last bay of a job arrives at PHASE, the updates that its laths have retired are marked: PHASE waits for them (R386). -/
def State.noteArrival (s : State) (slot : Nat) : State :=
  if s.allArrived slot then
    { s with laths := s.laths.map fun (n, x) =>
        (n, if x.slot = some slot then { x with updates := x.updates.map fun u => { u with old := true } } else x) }
  else s

/-- The job ends in this bay on a fault that no handler takes; the completion record will carry the first one's cause and record
(R198, R325). The other bays run on (log 7). -/
def State.endJob (s : State) (b : Nat) (rc : FaultRec) : State :=
  let y := s.bay b
  let n := y.slotNo
  let j := s.job n
  let s := (s.setBay b (y.stopAt s.clock)).noteArrival n
  if j.status = 0 then
    s.setJob n { j with status := 2, cause := rc.cause, fbay := BitVec.ofNat 8 y.index, frec := BitVec.ofNat 32 rc.w0.toNat }
  else s

/-- The registers a trap entry writes (R198), the program counter apart. -/
def Bay.record (y : Bay) (rc : FaultRec) (epc : BitVec 16) : Bay :=
  { y with cause := rc.cause, frec0 := rc.w0, frec1 := rc.wher, frec2 := rc.aux, tEng := rc.eng, tIn := true, epc := epc,
           waiting := none, hold := false }.mark markTrap

/-- Trap entry in bay `b` (R198). -/
def State.trapEntry (s : State) (b : Nat) (rc : FaultRec) (epc : BitVec 16) : State :=
  let y := s.bay b
  if y.tIn || !y.tvecEn then s.endJob b rc
  else
    let t := y.tvecOff.toNat * 4
    let y' := y.record rc epc
    if y.targetOk t then s.setBay b ({ y' with pc := BitVec.ofNat 16 t, adv := false, fetched := 0 }.mark markPc)
    else (s.setBay b y').endJob b rc

/-- Add a fault to those that wait for delivery, in the order of R198. -/
def insertPend (p : PendFault) : List PendFault → List PendFault
  | [] => [p]
  | q :: t =>
    if p.clock < q.clock || (p.clock = q.clock && (p.rank < q.rank || (p.rank = q.rank && p.rank = 6 && p.rc.unit < q.rc.unit)))
    then p :: q :: t else q :: insertPend p t

def Bay.addPend (y : Bay) (p : PendFault) : Bay := { y with pend := insertPend p y.pend }.mark markTrap

/-- TSTAT.PEND (R196): the streams and units with an undelivered fault. -/
def Bay.tPend (y : Bay) : BitVec 6 := y.pend.foldl (fun a p => a ||| BitVec.ofNat 6 (2 ^ (p.rank - 1))) 0

/-- A fault of an engine stream halts that stream and waits for the bay's sequencer (R16, R195). -/
def State.haltStream (s : State) (b : Nat) (e : Eng) (rc : FaultRec) : State :=
  s.modBay b fun y =>
    let x := y.stream e
    (({ (y.setStream e { x with run := false, rc := some rc }) with tHalt := y.tHalt ||| BitVec.ofNat 4 (2 ^ e.idx) }.addPend
      ⟨s.clock, e.code, rc⟩).event evEnd)

/-- The sequencer of logical bay 0 of a job receives a lath's fault (R57, R330). Once that bay has halted no sequencer can receive it, and the
Foreman logs it (log 91). -/
def State.lathPend (s : State) (slot : Nat) (rc : FaultRec) : State :=
  match (s.job slot).bays with
  | b :: _ => if (s.bay b).live && (s.bay b).slot == some slot then s.modBay b fun y => y.addPend ⟨s.clock, 5, rc⟩ else s.fmOther rc.unit.toNat
  | [] => s.fmOther rc.unit.toNat

/-- A lath halts on a fault (R338). -/
def State.haltLath (s : State) (n : Nat) (rc : FaultRec) : State :=
  let x := s.lathAt n
  let s := s.setLath n { x with hlt := true }
  match x.slot with
  | some j => s.lathPend j { rc with eng := 5, pc := BitVec.ofNat 16 x.pc.toNat, unit := BitVec.ofNat 8 n }
  | none => s

def chainEn (c : Chain) : Bool := bit (nth 0 c.w 0) 0
def chainPart (c : Chain) : Nat := bits (nth 0 c.w 0) 25 23

/-- A chain stops at once and EN is cleared; an open tile stays as it stands (R353). -/
def State.stopChain (s : State) (c : Nat) : State :=
  let x := s.chain c
  let s := s.setChain c { x with w := x.w.set 0 (nth 0 x.w 0 &&& 0xFFFFFFFFFFFFFFFE), inFrame := false }
  { s with jointers := s.jointers.map fun (k, j) => (k, if k / 8 = c then { j with run := false } else j) }

/-- A jointer's fault stops the chain and is reported to the host with the cause, the chain, the position and the program counter (R353). -/
def State.jointerFault (s : State) (c p : Nat) (rc : FaultRec) : State :=
  let pc := (s.jtr c p).pc
  (s.stopChain c).tell 3 [rc.cause, BitVec.ofNat 8 c, BitVec.ofNat 8 p, BitVec.ofNat 8 pc.toNat, BitVec.ofNat 8 (pc.toNat / 256)]

/-- An endpoint fault: one undelivered at most for an endpoint (R304). -/
def State.endpointFault (s : State) (b ch cause : Nat) (aux : Word) : State :=
  let y := s.bay b
  if y.pend.any fun p => p.rank = 6 && p.rc.unit = BitVec.ofNat 8 ch then s.fmOther ch
  else s.setBay b (y.addPend ⟨s.clock, 6, { cause := BitVec.ofNat 8 cause, unit := BitVec.ofNat 8 ch, aux := aux }⟩)

/-- The acting agent raises a fault (R195). -/
def State.raise (s : State) (rc : FaultRec) : Host.Outcome State Fault Refusal :=
  match s.cur with
  | .stream b .S =>
    let rc := { rc with pc := s.pc }
    .next (s.trapEntry b rc s.pc)
  | .stream b e => .next (s.haltStream b e { rc with eng := BitVec.ofNat 3 e.code, pc := s.pc })
  | .jointer c p => .next (s.jointerFault c p rc)
  | .lath n => .next (s.haltLath n rc)
  | .none => .fault .wrongPlace

/-- The acting agent halts at an access that the Framer services, or that waits for a migration (R195, R251, R368). -/
def State.pageFault (s : State) (cause : BitVec 8) (tid tile entry : Nat) (mig : Bool) (aux : Word) (copy : Option Nat) : State :=
  let f (slot : Option Nat) : PageFault :=
    { who := s.cur, cause := cause, tid := tid, tile := tile, entry := entry, since := s.clock, mig := mig, slot := slot, aux := aux,
      copy := copy, asked := false, served := false, order := s.faultClock }
  let add (s : State) (p : Nat) (x : PageFault) : State :=
    { s.setPart p { s.part p with faults := (s.part p).faults ++ [x] } with faultClock := s.faultClock + 1 }
  match s.cur with
  | .stream b .S => add (s.modBay b fun y => { y with seqHalted := true, hold := true }) (s.bay b).partNo (f (some (s.bay b).slotNo))
  | .stream b .V => add (s.modBay b fun y => { y with vecHalted := true }) (s.bay b).partNo (f (some (s.bay b).slotNo))
  | .stream b _ => add s (s.bay b).partNo (f (some (s.bay b).slotNo))
  | .lath n =>
    let x := s.lathAt n
    match x.slot with
    | some j => add (s.setLath n { x with waiting := true }) (s.job j).part (f (some j))
    | none => s
  | .jointer c p => add (s.setJtr c p { s.jtr c p with page := true }) (bits (nth 0 (s.chain c).w 0) 25 23) (f none)
  | _ => s

/-- Note whether the sequencer's wait is one that a fault does not abandon (R199). -/
def State.setHold (s : State) (v : Bool) : State :=
  match s.cur with
  | .stream b .S => if (s.bay b).hold = v then s else s.modBay b fun y => { y with hold := v }
  | _ => s

/-- How a meaning's result becomes a step: a word that does not retire leaves the state before it, with its fault taken. -/
def State.finish (s : State) : Except Stop State → Host.Outcome State Fault Refusal
  | .ok s' => .next s'
  | .error (.trap rc) => s.raise rc
  | .error .wait => .next (s.setHold false)
  | .error .hold => .next (s.setHold true)
  | .error (.page c tid tile entry mig aux) => .next (s.pageFault c tid tile entry mig aux none)
  | .error .place => .fault .wrongPlace

/-- A scalar word, on the sequencer or on a jointer. -/
def State.scalar (s : State) (f : Except Stop State) : Host.Outcome State Fault Refusal :=
  match s.cur with
  | .stream _ .S => s.finish f
  | .jointer _ _ => s.finish f
  | _ => .fault .wrongPlace

/-- A scalar word of the sequencer alone (R60). -/
def State.onSeq (s : State) (f : Nat → Except Stop State) : Host.Outcome State Fault Refusal :=
  match s.cur with
  | .stream b .S => s.finish (f b)
  | _ => .fault .wrongPlace

/-- A vector word, on the V stream or on a jointer. -/
def State.vector (s : State) (f : Except Stop State) : Host.Outcome State Fault Refusal :=
  match s.cur with
  | .stream _ .V => s.finish f
  | .jointer _ _ => s.finish f
  | _ => .fault .wrongPlace

/-- A vector word of the V stream alone (R59). -/
def State.onVec (s : State) (f : Nat → Except Stop State) : Host.Outcome State Fault Refusal :=
  match s.cur with
  | .stream b .V => s.finish (f b)
  | _ => .fault .wrongPlace

/-- A jointer's word (R60). -/
def State.onJointer (s : State) (f : Nat → Nat → Except Stop State) : Host.Outcome State Fault Refusal :=
  match s.cur with
  | .jointer c p => s.finish (f c p)
  | _ => .fault .wrongPlace

/-- A word of the matrix stream. -/
def State.onMtx (s : State) (f : Nat → Except Stop State) : Host.Outcome State Fault Refusal :=
  match s.cur with
  | .stream b .M => s.finish (f b)
  | _ => .fault .wrongPlace

/-- A word of a transfer unit. -/
def State.onUnit (s : State) (f : Nat → Eng → Except Stop State) : Host.Outcome State Fault Refusal :=
  match s.cur with
  | .stream b .L => s.finish (f b .L)
  | .stream b .W => s.finish (f b .W)
  | _ => .fault .wrongPlace

/-- A lath's word. -/
def State.onLath (s : State) (f : Nat → Except Stop State) : Host.Outcome State Fault Refusal :=
  match s.cur with
  | .lath n => s.finish (f n)
  | _ => .fault .wrongPlace

/-! ### Returning from a trap (R200) -/

/-- The streams that RESUME names may restart: each stands in HALT and its record allows it. -/
def Bay.resumeOk (y : Bay) : Bool :=
  [Eng.V, .M, .L, .W].all fun e =>
    !y.tResume.toNat.testBit e.idx ||
      (y.tHalt.toNat.testBit e.idx && (match (y.stream e).rc with | some r => r.rst | none => false))

/-- Restart one stream at its faulting word. -/
def Bay.restart (y : Bay) (e : Eng) : Bay :=
  if y.tResume.toNat.testBit e.idx then
    let x := y.stream e
    let pc := match x.rc with | some r => r.pc | none => x.pc
    y.setStream e { x with run := true, rc := none, pc := pc, adv := false, fetched := 0 }
  else y

/-- The effect of TRET once its checks have passed. -/
def State.trapReturn (s : State) (b : Nat) : State :=
  let y := s.bay b
  let y' := (((y.restart .V).restart .M).restart .L).restart .W
  s.setBay b (({ y' with
    tHalt := y.tHalt &&& ~~~ y.tResume, tResume := 0, tIn := false, pc := y.epc, adv := false, waiting := none, fetched := 0 }.mark
      markTrap).mark markPc)

/-! ### Hardware and safety faults (R464, R465) -/

/-- What the copies of jobs in the scoreboard slots `gone` have in flight is discarded: their bays stop, with their stores, copies, truss commands and
row writes, and so do posted hash updates, armed groups and waiting accesses. -/
def State.dropWork (s : State) (gone : List Nat) : State :=
  let lost (x : Option Nat) : Bool := x.toList.any gone.contains
  { s with
    bays := s.bays.map fun (b, y) => (b, if lost y.slot then y.stop else y)
    laths := s.laths.map fun (l, x) => (l, if lost x.slot then { x with updates := [], hop := none, waiting := false } else x)
    bents := s.bents.map fun (k, t) => (k, { t with writes := t.writes.filter fun w => !lost (s.bay w.owner).slot })
    groups := s.groups.map fun (g, x) => (g, if gone.contains x.slot.toNat && !x.ready then { x with armed := false, due := [] } else x)
    heldBuckets := s.heldBuckets.filter fun (_, _, l) => !lost (s.lathAt l).slot
    parts := s.parts.map fun (q, x) => (q, { x with faults := x.faults.filter fun f => !lost f.slot }) }

/-- The jobs of a partition that are in LOAD, RUN or SAVED end with STATUS 4, what they have in flight is discarded, and the Foreman logs the
fault; its chains stop, so that they publish no tile that they have begun (log 75). The causes that name a condition block the partition until it
has cleared. -/
def State.discard (s : State) (p cause : Nat) : State :=
  let s := s.fmEvent 10 p
  let ends (j : Job) : Bool := j.part = p && (j.state = .load || j.state = .run || j.state = .saved)
  let gone : List Nat := s.jobs.filterMap fun (n, j) => if ends j then some n else none
  let s := { s with
    jobs := s.jobs.map fun (n, j) => (n, if ends j then { j with status := 4, cause := BitVec.ofNat 8 cause, fbay := 0xFF, frec := 0, ended := true, stopping := false } else j) }
  let s := s.dropWork gone
  let s := (s.chains.filter fun (_, x) => chainEn x && chainPart x == p).foldl (fun s (c, _) => s.stopChain c) s
  { s with parts := s.parts.map fun (q, x) => (q, if q = p then { x with blocked := x.blocked || cause = 0xC6 || cause = 0xC7 || cause = 0xC8 } else x) }

def State.discardAll (s : State) (cause : Nat) : State := (List.range 8).foldl (fun s p => s.discard p cause) s

end Sys2Proof.Machine
end

