-- ==== Sys2Proof/Machine/Scalar.lean ====
section
/-! DEFINITION. The scalar words of the sequencer and of a jointer: arithmetic, immediates, bit fields, branches and jumps
(spec/04_scalar.md R109 to R120). -/

namespace Sys2Proof.Machine

/-! ### What the words compute -/

/-- Bits 127 to 64 of a product. -/
def mulHigh (x y : Int) : Word := BitVec.ofInt 64 (x * y / 2 ^ 64)

/-- R110: truncated towards zero; division by 0 gives all ones; −2^63 / −1 wraps. -/
def divS (x y : Word) : Word := if y = 0 then -1 else BitVec.ofInt 64 (x.toInt.tdiv y.toInt)
def remS (x y : Word) : Word := if y = 0 then x else BitVec.ofInt 64 (x.toInt.tmod y.toInt)
def divU (x y : Word) : Word := if y = 0 then -1 else word (x.toNat / y.toNat)
def remU (x y : Word) : Word := if y = 0 then x else word (x.toNat % y.toNat)

/-- The shift amount b[5:0]. -/
def amount (y : Word) : Nat := y.toNat % 64

def clz (x : Word) : Word := if x = 0 then 64 else word (63 - Nat.log2 x.toNat)

def ctzGo : Nat → Nat → Nat
  | 0, _ => 0
  | n + 1, x => if x % 2 = 1 then 0 else ctzGo n (x / 2) + 1

def ctz (x : Word) : Word := word (ctzGo 64 x.toNat)

def popGo : Nat → Nat → Nat
  | 0, _ => 0
  | n + 1, x => x % 2 + popGo n (x / 2)

def popc (x : Word) : Word := word (popGo 64 x.toNat)

def sext15 (im : BitVec 15) : Word := im.signExtend 64

/-! ### Register to register (R109) -/

/-- sd := f(sa, sb), and the word retires. -/
def aluR (d a b : BitVec 5) (f : Word → Word → Word) (s : State) : Except Stop State :=
  .ok (s.writeS d (f (s.readS a) (s.readS b))).retire

def aluU (d a : BitVec 5) (f : Word → Word) (s : State) : Except Stop State := .ok (s.writeS d (f (s.readS a))).retire

/-- ADD (R109). -/
def execAdd (d a b : BitVec 5) (s : State) : Host.Outcome State Fault Refusal := s.scalar (aluR d a b (fun x y => x + y) s)

/-- SUB (R109). -/
def execSub (d a b : BitVec 5) (s : State) : Host.Outcome State Fault Refusal := s.scalar (aluR d a b (fun x y => x - y) s)

/-- MUL (R109). -/
def execMul (d a b : BitVec 5) (s : State) : Host.Outcome State Fault Refusal := s.scalar (aluR d a b (fun x y => x * y) s)

/-- MULH (R109). -/
def execMulh (d a b : BitVec 5) (s : State) : Host.Outcome State Fault Refusal := s.scalar (aluR d a b (fun x y => mulHigh x.toInt y.toInt) s)

/-- MULHW (R109). -/
def execMulhw (d a b : BitVec 5) (s : State) : Host.Outcome State Fault Refusal := s.scalar (aluR d a b (fun x y => mulHigh x.toNat y.toNat) s)

/-- DIV (R109). -/
def execDiv (d a b : BitVec 5) (s : State) : Host.Outcome State Fault Refusal := s.scalar (aluR d a b (fun x y => divS x y) s)

/-- DIVW (R109). -/
def execDivw (d a b : BitVec 5) (s : State) : Host.Outcome State Fault Refusal := s.scalar (aluR d a b (fun x y => divU x y) s)

/-- REM (R109). -/
def execRem (d a b : BitVec 5) (s : State) : Host.Outcome State Fault Refusal := s.scalar (aluR d a b (fun x y => remS x y) s)

/-- REMW (R109). -/
def execRemw (d a b : BitVec 5) (s : State) : Host.Outcome State Fault Refusal := s.scalar (aluR d a b (fun x y => remU x y) s)

/-- AND (R109). -/
def execAnd (d a b : BitVec 5) (s : State) : Host.Outcome State Fault Refusal := s.scalar (aluR d a b (fun x y => x &&& y) s)

/-- OR (R109). -/
def execOr (d a b : BitVec 5) (s : State) : Host.Outcome State Fault Refusal := s.scalar (aluR d a b (fun x y => x ||| y) s)

/-- XOR (R109). -/
def execXor (d a b : BitVec 5) (s : State) : Host.Outcome State Fault Refusal := s.scalar (aluR d a b (fun x y => x ^^^ y) s)

/-- ANDN (R109). -/
def execAndn (d a b : BitVec 5) (s : State) : Host.Outcome State Fault Refusal := s.scalar (aluR d a b (fun x y => x &&& ~~~ y) s)

/-- SHL (R109). -/
def execShl (d a b : BitVec 5) (s : State) : Host.Outcome State Fault Refusal := s.scalar (aluR d a b (fun x y => x <<< amount y) s)

/-- SHR (R109). -/
def execShr (d a b : BitVec 5) (s : State) : Host.Outcome State Fault Refusal := s.scalar (aluR d a b (fun x y => x >>> amount y) s)

/-- SAR (R109). -/
def execSar (d a b : BitVec 5) (s : State) : Host.Outcome State Fault Refusal := s.scalar (aluR d a b (fun x y => x.sshiftRight (amount y)) s)

/-- ROL (R109). -/
def execRol (d a b : BitVec 5) (s : State) : Host.Outcome State Fault Refusal := s.scalar (aluR d a b (fun x y => x.rotateLeft (amount y)) s)

/-- MIN (R109). -/
def execMin (d a b : BitVec 5) (s : State) : Host.Outcome State Fault Refusal := s.scalar (aluR d a b (fun x y => if y.slt x then y else x) s)

/-- MAX (R109). -/
def execMax (d a b : BitVec 5) (s : State) : Host.Outcome State Fault Refusal := s.scalar (aluR d a b (fun x y => if x.slt y then y else x) s)

/-- MINW (R109). -/
def execMinw (d a b : BitVec 5) (s : State) : Host.Outcome State Fault Refusal := s.scalar (aluR d a b (fun x y => if y < x then y else x) s)

/-- MAXW (R109). -/
def execMaxw (d a b : BitVec 5) (s : State) : Host.Outcome State Fault Refusal := s.scalar (aluR d a b (fun x y => if x < y then y else x) s)

/-- SLT (R109). -/
def execSlt (d a b : BitVec 5) (s : State) : Host.Outcome State Fault Refusal := s.scalar (aluR d a b (fun x y => if x.slt y then 1 else 0) s)

/-- SLTW (R109). -/
def execSltw (d a b : BitVec 5) (s : State) : Host.Outcome State Fault Refusal := s.scalar (aluR d a b (fun x y => if x < y then 1 else 0) s)

/-- CLZ (R109). -/
def execClz (d a : BitVec 5) (s : State) : Host.Outcome State Fault Refusal := s.scalar (aluU d a (fun x => clz x) s)

/-- CTZ (R109). -/
def execCtz (d a : BitVec 5) (s : State) : Host.Outcome State Fault Refusal := s.scalar (aluU d a (fun x => ctz x) s)

/-- POPC (R109). -/
def execPopc (d a : BitVec 5) (s : State) : Host.Outcome State Fault Refusal := s.scalar (aluU d a (fun x => popc x) s)

/-! ### Immediates (R111, R112) -/

def aluI (d a : BitVec 5) (y : Word) (f : Word → Word → Word) (s : State) : Except Stop State :=
  .ok (s.writeS d (f (s.readS a) y)).retire

/-- ADDI (R111). -/
def execAddi (d a : BitVec 5) (im : BitVec 15) (s : State) : Host.Outcome State Fault Refusal :=
  s.scalar (aluI d a (sext15 im) (fun x y => x + y) s)

/-- ANDI (R111). -/
def execAndi (d a : BitVec 5) (im : BitVec 15) (s : State) : Host.Outcome State Fault Refusal :=
  s.scalar (aluI d a (sext15 im) (fun x y => x &&& y) s)

/-- ORI (R111). -/
def execOri (d a : BitVec 5) (im : BitVec 15) (s : State) : Host.Outcome State Fault Refusal :=
  s.scalar (aluI d a (sext15 im) (fun x y => x ||| y) s)

/-- XORI (R111). -/
def execXori (d a : BitVec 5) (im : BitVec 15) (s : State) : Host.Outcome State Fault Refusal :=
  s.scalar (aluI d a (sext15 im) (fun x y => x ^^^ y) s)

/-- SLTI (R111). -/
def execSlti (d a : BitVec 5) (im : BitVec 15) (s : State) : Host.Outcome State Fault Refusal :=
  s.scalar (aluI d a (sext15 im) (fun x y => if x.slt y then 1 else 0) s)

/-- SHLI (R111). -/
def execShli (d a : BitVec 5) (im : BitVec 6) (s : State) : Host.Outcome State Fault Refusal :=
  s.scalar (aluU d a (fun x => x <<< im.toNat) s)

/-- SHRI (R111). -/
def execShri (d a : BitVec 5) (im : BitVec 6) (s : State) : Host.Outcome State Fault Refusal :=
  s.scalar (aluU d a (fun x => x >>> im.toNat) s)

/-- SARI (R111). -/
def execSari (d a : BitVec 5) (im : BitVec 6) (s : State) : Host.Outcome State Fault Refusal :=
  s.scalar (aluU d a (fun x => x.sshiftRight im.toNat) s)

/-- LUI (R112). -/
def execLui (d : BitVec 5) (im : BitVec 20) (s : State) : Host.Outcome State Fault Refusal :=
  s.scalar (.ok (s.writeS d (im.signExtend 64 <<< 15)).retire)

/-! ### Bit fields (R113, R114) -/

/-- The bits of a field that exist. -/
def fieldLen (o n : Nat) : Nat := if o < 64 then min n (64 - o) else 0

def bfxOf (x : Word) (o n : Nat) : Word := word (x.toNat / 2 ^ o % 2 ^ fieldLen o n)

def bfxsOf (x : Word) (o n : Nat) : Word :=
  if fieldLen o n = 0 then 0 else BitVec.ofInt 64 (sgn (fieldLen o n) (x.toNat / 2 ^ o))

/-- `x`'s low bits placed into `d` at `o`. -/
def bfiOf (d x : Word) (o n : Nat) : Word :=
  let mask : Word := word ((2 ^ fieldLen o n - 1) * 2 ^ o)
  (d &&& ~~~ mask) ||| (word (x.toNat * 2 ^ o) &&& mask)

/-- Offset and width from a register (R113, mode 0b01). -/
def regField (s : State) (x : BitVec 5) : Nat × Nat := (bits (s.readS x) 7 0, bits (s.readS x) 15 8)

/-- BFX (R114). -/
def execBfx (d a : BitVec 5) (o : BitVec 6) (w : BitVec 7) (s : State) : Host.Outcome State Fault Refusal :=
  s.scalar (aluU d a (fun x => bfxOf x o.toNat w.toNat) s)

/-- BFX, offset and width from a register (R113, R114). -/
def execBfxReg (d a x : BitVec 5) (s : State) : Host.Outcome State Fault Refusal :=
  s.scalar (aluU d a (fun v => bfxOf v (regField s x).1 (regField s x).2) s)

/-- BFXS (R114). -/
def execBfxs (d a : BitVec 5) (o : BitVec 6) (w : BitVec 7) (s : State) : Host.Outcome State Fault Refusal :=
  s.scalar (aluU d a (fun x => bfxsOf x o.toNat w.toNat) s)

/-- BFXS, offset and width from a register (R113, R114). -/
def execBfxsReg (d a x : BitVec 5) (s : State) : Host.Outcome State Fault Refusal :=
  s.scalar (aluU d a (fun v => bfxsOf v (regField s x).1 (regField s x).2) s)

/-- BFI (R114). -/
def execBfi (d a : BitVec 5) (o : BitVec 6) (w : BitVec 7) (s : State) : Host.Outcome State Fault Refusal :=
  s.scalar (aluU d a (fun x => bfiOf (s.readS d) x o.toNat w.toNat) s)

/-- BFI, offset and width from a register (R113, R114). -/
def execBfiReg (d a x : BitVec 5) (s : State) : Host.Outcome State Fault Refusal :=
  s.scalar (aluU d a (fun v => bfiOf (s.readS d) v (regField s x).1 (regField s x).2) s)

/-! ### Branches and jumps (R115 to R120) -/

/-- Start and length of the acting stream's code (R118). -/
def State.codeRange (s : State) : Nat × Nat :=
  match s.cur with
  | .stream b e => (s.bay b).sect e
  | .jointer c p => (0, 4 * (s.jtr c p).code.length)
  | _ => (0, 0)

/-- check_target (R118). -/
def State.targetGood (s : State) (t : Int) : Bool :=
  t % 4 == 0 && decide ((s.codeRange.1 : Int) ≤ t) && decide (t < s.codeRange.1 + s.codeRange.2)

/-- A loop whose body holds `pc` and not `t`. -/
def Loop.left (l : Loop) (pc t : Nat) : Bool :=
  l.active && decide (l.start.toNat ≤ pc) && decide (pc < l.start.toNat + 4 * l.len.toNat) &&
    !(decide (l.start.toNat ≤ t) && decide (t < l.start.toNat + 4 * l.len.toNat))

/-- A taken branch ends the loops that it leaves (R120, R407). -/
def leaveLoops (lc : Tab Loop) (pc t : Nat) : Tab Loop :=
  lc.map fun (k, l) => (k, if l.left pc t then { l with active := false } else l)

/-- The loops that a taken branch leaves end, and their LC dirty bits are set (R204; log 110). -/
def State.leave (s : State) (t : Nat) : State :=
  match s.cur with
  | .stream b .S => s.modBay b fun y =>
    let l := leaveLoops y.lc s.pc.toNat t
    ({ y with lc := l } : Bay).markLoops .S y.lc l
  | .jointer c p => s.setJtr c p { s.jtr c p with lc := leaveLoops (s.jtr c p).lc s.pc.toNat t }
  | _ => s

/-- A branch on the comparison `f` (R115). The pc keeps the low 16 bits of a jointer's target (log 90). -/
def branch (a b : BitVec 5) (o : BitVec 15) (f : Word → Word → Bool) (s : State) : Except Stop State :=
  if f (s.readS a) (s.readS b) then
    let t : Int := s.pc.toNat + 4 * o.toInt
    if s.targetGood t then .ok ((s.leave t.toNat).jump (BitVec.ofInt 16 t)) else .error (trapC 0x02)
  else .ok s.retire

/-- BEQ (R115). -/
def execBeq (a b : BitVec 5) (o : BitVec 15) (s : State) : Host.Outcome State Fault Refusal := s.scalar (branch a b o (fun x y => x == y) s)

/-- BNE (R115). -/
def execBne (a b : BitVec 5) (o : BitVec 15) (s : State) : Host.Outcome State Fault Refusal := s.scalar (branch a b o (fun x y => x != y) s)

/-- BLT (R115). -/
def execBlt (a b : BitVec 5) (o : BitVec 15) (s : State) : Host.Outcome State Fault Refusal := s.scalar (branch a b o (fun x y => x.slt y) s)

/-- BGE (R115). -/
def execBge (a b : BitVec 5) (o : BitVec 15) (s : State) : Host.Outcome State Fault Refusal := s.scalar (branch a b o (fun x y => !x.slt y) s)

/-- BLTW (R115). -/
def execBltw (a b : BitVec 5) (o : BitVec 15) (s : State) : Host.Outcome State Fault Refusal := s.scalar (branch a b o (fun x y => decide (x < y)) s)

/-- BGEW (R115). -/
def execBgew (a b : BitVec 5) (o : BitVec 15) (s : State) : Host.Outcome State Fault Refusal := s.scalar (branch a b o (fun x y => !decide (x < y)) s)

/-- A jump with link (R116, R117). -/
def jumpLink (d : BitVec 5) (t : Int) (s : State) : Except Stop State :=
  if s.targetGood t then .ok ((s.writeS d (word (s.pc.toNat + 4))).jump (BitVec.ofInt 16 t)) else .error (trapC 0x02)

/-- JAL (R116). -/
def execJal (d : BitVec 5) (o : BitVec 20) (s : State) : Host.Outcome State Fault Refusal := s.scalar (jumpLink d (s.pc.toNat + 4 * o.toInt) s)

/-- JALR (R117); the target is a 64-bit sum. -/
def execJalr (d a : BitVec 5) (im : BitVec 15) (s : State) : Host.Outcome State Fault Refusal :=
  s.scalar (jumpLink d (s.readS a + sext15 im).toNat s)

end Sys2Proof.Machine
end

