-- ==== Sys2Proof/Machine/Flags.lean ====
section
/-! DEFINITION. The numeric flags (spec/03_numbers.md R91): one bit each, sticky; what sets them is computed beside each value, in
Numbers.lean, and merged here. -/

namespace Sys2Proof.Machine

/-! ### Flags (R91) -/

def fIV : BitVec 8 := 1
def fDZ : BitVec 8 := 2
def fOF : BitVec 8 := 4
def fUF : BitVec 8 := 8
def fNX : BitVec 8 := 16
def fSAT : BitVec 8 := 32
def fOVP : BitVec 8 := 64
def fSCL : BitVec 8 := 128

def flagIf (b : Bool) (f : BitVec 8) : BitVec 8 := if b then f else 0

/-- The union of the flags of several lanes. -/
def orAll : List (BitVec 8) → BitVec 8
  | [] => 0
  | f :: t => f ||| orAll t

end Sys2Proof.Machine
end

