-- ==== Sys2Proof/Machine/Numbers.lean ====
section
/-! DEFINITION. Number formats, rounding and conversion (spec/03_numbers.md R75 to R91). A real value is held exactly, or as an
interval too narrow to matter to any rounding. -/

namespace Sys2Proof.Machine

/-! ### Formats (R75) -/

def isI (f : Nat) : Bool := decide (1 ≤ f) && decide (f ≤ 5)
def isW (f : Nat) : Bool := decide (9 ≤ f) && decide (f ≤ 13)
def isInt (f : Nat) : Bool := isI f || isW f
/-- f16, bf16 and f32, which the vector arithmetic accepts (R137). -/
def isFlt (f : Nat) : Bool := decide (0x13 ≤ f) && decide (f ≤ 0x15)
def isFloat (f : Nat) : Bool := isFlt f || f == 0x10 || f == 0x11
def isLg (f : Nat) : Bool := f == 0x12
def isBlock (f : Nat) : Bool := decide (0x18 ≤ f) && decide (f ≤ 0x1B)
def isCode (f : Nat) : Bool := isInt f || isFloat f || isLg f || isBlock f

/-- Bits [7:6] of an lg6 element are written as zero (R76). -/
def lgMask (f x : Nat) : Nat := if isLg f || f == 0x1B then x % 64 else x

/-- Storage width of an element, in bits. -/
def fmtWidth (f : Nat) : Nat :=
  match f with
  | 0x01 | 0x09 | 0x18 => 4
  | 0x02 | 0x0A | 0x10 | 0x11 | 0x12 | 0x19 | 0x1B => 8
  | 0x03 | 0x0B | 0x13 | 0x14 | 0x1A => 16
  | 0x04 | 0x0C | 0x15 => 32
  | _ => 64

/-- Number of width steps from 4 bits, for the pair and quad rule (R46, R75). -/
def fmtStep (f : Nat) : Nat := Nat.log2 (fmtWidth f)

/-- Precision, bias, and the largest finite magnitude's encoding of a floating format (R78). -/
def fprec (f : Nat) : Nat := match f with | 0x10 => 4 | 0x11 => 3 | 0x13 => 11 | 0x14 => 8 | _ => 24
def fbias (f : Nat) : Int := match f with | 0x10 => 7 | 0x11 => 15 | 0x13 => 15 | _ => 127
def fmax (f : Nat) : Nat := match f with | 0x10 => 0x7E | 0x11 => 0x7B | 0x13 => 0x7BFF | 0x14 => 0x7F7F | _ => 0x7F7FFFFF
def fnan (f : Nat) : Nat := match f with | 0x10 => 0x7F | 0x11 => 0x7E | 0x13 => 0x7E00 | 0x14 => 0x7FC0 | _ => 0x7FC00000
/-- Exponent of the least subnormal. -/
def fqmin (f : Nat) : Int := 2 - fbias f - fprec f

/-! ### Values -/

/-- A value: `fin neg m e st` is (−1)^neg × m × 2^e, or with `st` a real strictly between that and (−1)^neg × (m + 1) × 2^e. -/
inductive Num where
  | nan (signalling : Bool)
  | inf (neg : Bool)
  | fin (neg : Bool) (m : Nat) (e : Int) (st : Bool)
deriving DecidableEq, Repr

def Num.ofInt (x : Int) : Num := .fin (decide (x < 0)) x.natAbs 0 false

def Num.isNan : Num → Bool
  | .nan _ => true
  | _ => false

def Num.isSig : Num → Bool
  | .nan b => b
  | _ => false

def Num.isZero : Num → Bool
  | .fin _ 0 _ false => true
  | _ => false

def Num.neg : Num → Bool
  | .nan _ => false
  | .inf n => n
  | .fin n _ _ _ => n

def Num.negate : Num → Num
  | .nan b => .nan b
  | .inf n => .inf (!n)
  | .fin n m e st => .fin (!n) m e st

def Num.isInf : Num → Bool
  | .inf _ => true
  | _ => false

/-- m × 2^e as an integer over a common exponent `b ≤ e`. -/
def shiftTo (m : Nat) (e b : Int) : Nat := m * 2 ^ (e - b).toNat

/-- Signed comparison of two finite exact values: the sign of x − y. -/
def cmpFin (n1 : Bool) (m1 : Nat) (e1 : Int) (n2 : Bool) (m2 : Nat) (e2 : Int) : Int :=
  let b := min e1 e2
  let x : Int := shiftTo m1 e1 b
  let y : Int := shiftTo m2 e2 b
  (if n1 then -x else x) - (if n2 then -y else y)

/-! ### Reading an element -/

/-- An lg6 element's fraction table and value (R82). -/
def lgT (f : Nat) : Nat := match f with | 0 => 256 | 1 => 304 | 2 => 362 | _ => 431

/-- Value of code `c` ≥ 1 as m × 2^e. -/
def lgVal (c : Nat) : Nat × Int := (lgT (c % 4), ((c / 4 : Nat) : Int) - 4 - 8)

def decodeLg (x : Nat) : Num :=
  let c := x % 32
  if c = 0 then .fin false 0 0 false else .fin (x / 32 % 2 == 1) (lgVal c).1 (lgVal c).2 false

def decodeFloat (f x : Nat) : Num :=
  let w := fmtWidth f
  let p := fprec f
  let s := x / 2 ^ (w - 1) % 2 == 1
  let mag := x % 2 ^ (w - 1)
  let frac := mag % 2 ^ (p - 1)
  let ex := mag / 2 ^ (p - 1)
  if f = 0x10 then
    if mag = 0x7F then .nan false
    else if ex = 0 then .fin s frac (fqmin f) false else .fin s (frac + 2 ^ (p - 1)) (fqmin f + ex - 1) false
  else if mag > fmax f then
    if frac = 0 then .inf s else .nan (f != 0x11 && frac / 2 ^ (p - 2) % 2 == 0)
  else if ex = 0 then .fin s frac (fqmin f) false
  else .fin s (frac + 2 ^ (p - 1)) (fqmin f + ex - 1) false

/-- An element's bits as a value (R76 to R84). -/
def decodeNum (f x : Nat) : Num :=
  if isI f then Num.ofInt (sgn (fmtWidth f) x)
  else if isW f then Num.ofInt (x % 2 ^ fmtWidth f : Nat)
  else if isLg f then decodeLg x
  else decodeFloat f x

/-! ### Rounding (R90) -/

/-- Modes: 0 RNE, 1 RTZ, 2 RUP, 3 RDN, 4 SR. -/
abbrev Mode := Nat

/-- Whether the magnitude n + frac/2^d (frac < 2^d, a little more with `st`) goes up to n + 1; `r` is the 16-bit random value of SR,
which counts from the lower of the two neighbours as signed numbers. -/
def goesUp (mode : Mode) (r : Nat) (neg odd : Bool) (frac d : Nat) (st : Bool) : Bool :=
  if frac = 0 && !st then false
  else match mode with
    | 0 => decide (2 * frac > 2 ^ d) || (2 * frac == 2 ^ d && (st || odd))
    | 1 => false
    | 2 => !neg
    | 3 => neg
    | _ =>
      if neg then
        let a := (2 ^ d - frac) * 65536
        let t := if st && a % 2 ^ d == 0 then a / 2 ^ d - 1 else a / 2 ^ d
        !decide (r < t)
      else decide (r < frac * 65536 / 2 ^ d)

/-- Round a magnitude to a multiple of 2^q: the multiple, and whether it is inexact. -/
def quantum (mode : Mode) (r : Nat) (neg : Bool) (m : Nat) (e : Int) (st : Bool) (q : Int) : Nat × Bool :=
  if e ≥ q then (m * 2 ^ (e - q).toNat, st)
  else
    let d := (q - e).toNat
    let n := m / 2 ^ d
    let f := m % 2 ^ d
    (if goesUp mode r neg (n % 2 == 1) f d st then n + 1 else n, f != 0 || st)

/-- Quantum of a magnitude in a precision, with no least exponent. -/
def qOf (p m : Nat) (e : Int) : Int := e + (Nat.log2 m + 1 : Nat) - p

/-- Round into a floating format: encoding without sign, and flags (R89). -/
def roundFloat (f : Nat) (mode : Mode) (r : Nat) (neg : Bool) (m : Nat) (e : Int) (st : Bool) : Nat × BitVec 8 :=
  if m = 0 && !st then (0, 0)
  else
    let p := fprec f
    let qm := fqmin f
    let q := max (qOf p m e) qm
    let enc (x : Nat × Bool) : Nat := (q - qm).toNat * 2 ^ (p - 1) + x.1
    let x0 := quantum mode r neg m e st q
    -- where the upper neighbour lies beyond the format, SR rounds as RNE does
    let x := if mode ≥ 4 && decide ((q - qm).toNat * 2 ^ (p - 1) + (quantum 1 0 neg m e st q).1 + 1 > fmax f)
             then quantum 0 0 neg m e st q else x0
    if enc x > fmax f then
      if f = 0x10 || f = 0x11 then (fmax f, fSAT ||| fNX)
      else
        let toMax := mode == 1 || (mode == 3 && !neg) || (mode == 2 && neg)
        (if toMax then fmax f else fmax f + 1, fOF ||| fNX)
    else
      let u := quantum mode r neg m e st (qOf p m e)
      -- tininess is judged after rounding with an unbounded exponent
      let tiny := decide (qOf p m e < qm) && decide (shiftTo u.1 (qOf p m e) (min (qOf p m e) qm) < shiftTo (2 ^ (p - 1)) qm (min (qOf p m e) qm))
      (enc x, flagIf x.2 fNX ||| flagIf (x.2 && tiny) fUF)

/-- The code ≤ 32 whose value is the largest not above the magnitude; 0 below the least. -/
def lgFloor (m : Nat) (e : Int) : Nat :=
  (List.range 32).foldl (fun best i =>
    let c := i + 1
    let v := lgVal c
    let b := min e v.2
    if shiftTo v.1 v.2 b ≤ shiftTo m e b then c else best) 0

/-- Round into lg6 (R82, R89, R90). Beyond code 31 the range is judged against a next value of 16, the value that code 32 would have
(log 84). -/
def roundLg (mode : Mode) (r : Nat) (neg : Bool) (m : Nat) (e : Int) (st : Bool) : Nat × BitVec 8 :=
  if m = 0 && !st then (0, 0)
  else
    let c := lgFloor m e
    let lo : Nat × Int := if c = 0 then (0, 0) else lgVal c
    let hi := lgVal (c + 1)
    let b := min e (-20)
    let x := shiftTo m e b
    let l := shiftTo lo.1 lo.2 b
    let h := shiftTo hi.1 hi.2 b
    let exact := x = l && !st
    let sr := mode ≥ 4 && c < 31
    let up :=
      if c ≥ 32 || exact then false
      else if sr then
        if neg then
          let a := (h - x) * 65536
          let t := if st && a % (h - l) == 0 then a / (h - l) - 1 else a / (h - l)
          !decide (r < t)
        else decide (r < (x - l) * 65536 / (h - l))
      else match mode with
        | 1 => false
        | 2 => !neg
        | 3 => neg
        | _ => decide (2 * (x - l) > h - l) || (2 * (x - l) == h - l && (st || c % 2 == 1))
    let k := if up then c + 1 else c
    if k > 31 then (31, fSAT)
    else (k, flagIf (!exact) fNX ||| flagIf (k = 0) fUF)

/-- Limits of an integer format. -/
def intMin (f : Nat) : Int := if isI f then -(2 ^ (fmtWidth f - 1) : Nat) else 0
def intMax (f : Nat) : Int := if isI f then (2 ^ (fmtWidth f - 1) : Nat) - 1 else (2 ^ fmtWidth f : Nat) - 1

/-- Round into an integer format: the bits and flags (R77, R89). Where the neighbour away from zero lies beyond the format's limit, SR rounds
as RNE does (R90; log 83). -/
def roundInt (f : Nat) (mode : Mode) (r : Nat) (neg : Bool) (m : Nat) (e : Int) (st : Bool) : Nat × BitVec 8 :=
  let away := (quantum 1 0 neg m e st 0).1 + 1
  let beyond := if neg then decide (-(away : Int) < intMin f) else decide ((away : Int) > intMax f)
  let x := if mode ≥ 4 && beyond then quantum 0 0 neg m e st 0 else quantum mode r neg m e st 0
  let v : Int := if neg then -(x.1 : Int) else x.1
  if v < intMin f then (wrap (fmtWidth f) (intMin f), fSAT)
  else if v > intMax f then (wrap (fmtWidth f) (intMax f), fSAT)
  else (wrap (fmtWidth f) v, flagIf x.2 fNX)

def signBit (f : Nat) (neg : Bool) : Nat := if neg then 2 ^ (fmtWidth f - 1) else 0

/-- Conversion of a value into a format that is not a block format (R88, R89): bits and flags. -/
def convertNum (f : Nat) (mode : Mode) (r : Nat) (x : Num) : Nat × BitVec 8 :=
  match x with
  | .nan sig =>
    if isFloat f then (fnan f, flagIf sig fIV) else (0, fIV)
  | .inf n =>
    if isInt f then (wrap (fmtWidth f) (if n then intMin f else intMax f), fSAT)
    else if isLg f then ((if n then 32 else 0) + 31, fSAT)
    else if f = 0x10 || f = 0x11 then (signBit f n + (if f = 0x10 then fmax f else fmax f + 1), if f = 0x10 then fSAT else 0)
    else (signBit f n + fmax f + 1, 0)
  | .fin n m e st =>
    if isInt f then roundInt f mode r n m e st
    else if isLg f then
      let y := roundLg mode r n m e st
      (if y.1 = 0 then 0 else (if n then 32 else 0) + y.1, y.2)
    else
      let y := roundFloat f mode r n m e st
      (signBit f n + y.1, y.2)

/-! ### Exact arithmetic (R80, R139) -/

/-- Sum of two values and whether the operation is invalid. -/
def addNum (mode : Mode) (x y : Num) : Num × BitVec 8 :=
  let sig := flagIf (x.isSig || y.isSig) fIV
  match x, y with
  | .nan _, _ => (.nan false, sig)
  | _, .nan _ => (.nan false, sig)
  | .inf a, .inf b => if a = b then (.inf a, 0) else (.nan false, fIV)
  | .inf a, _ => (.inf a, 0)
  | _, .inf b => (.inf b, 0)
  | .fin n1 m1 e1 s1, .fin n2 m2 e2 s2 =>
    let b := min e1 e2
    let s := cmpFin n1 m1 e1 (!n2) m2 e2
    if s = 0 && !s1 && !s2 then
      -- an exact zero: two zeros of one sign keep it, otherwise +0, and −0 under RDN (R80)
      (.fin (if m1 = 0 && m2 = 0 && n1 = n2 then n1 else mode == 3) 0 0 false, 0)
    else (.fin (decide (s < 0)) s.natAbs b (s1 || s2), 0)

def mulNum (x y : Num) : Num × BitVec 8 :=
  let sig := flagIf (x.isSig || y.isSig) fIV
  let n := x.neg != y.neg
  match x, y with
  | .nan _, _ => (.nan false, sig)
  | _, .nan _ => (.nan false, sig)
  | .inf _, z => if z.isZero then (.nan false, fIV) else (.inf n, 0)
  | z, .inf _ => if z.isZero then (.nan false, fIV) else (.inf n, 0)
  | .fin _ m1 e1 _, .fin _ m2 e2 _ => (.fin n (m1 * m2) (e1 + e2) false, 0)

/-- d + a × b, fused: the product is not rounded. 0 × ∞ is invalid even where d is a quiet NaN (R139). -/
def fmaNum (mode : Mode) (d a b : Num) : Num × BitVec 8 :=
  let p := mulNum a b
  let z := addNum mode d p.1
  (z.1, z.2 ||| p.2 ||| flagIf d.isSig fIV)

/-- a / b (R159), to `k` bits beyond the longest mantissa. -/
def divNum (x y : Num) : Num × BitVec 8 :=
  let sig := flagIf (x.isSig || y.isSig) fIV
  let n := x.neg != y.neg
  match x, y with
  | .nan _, _ => (.nan false, sig)
  | _, .nan _ => (.nan false, sig)
  | .inf _, .inf _ => (.nan false, fIV)
  | .inf _, _ => (.inf n, 0)
  | _, .inf _ => (.fin n 0 0 false, 0)
  | .fin _ m1 e1 _, .fin _ m2 e2 _ =>
    if m2 = 0 then
      if m1 = 0 then (.nan false, fIV) else (.inf n, fDZ)
    else
      let k := 96 + Nat.log2 m2
      let q := m1 * 2 ^ k / m2
      (.fin n q (e1 - e2 - k) (m1 * 2 ^ k % m2 != 0), 0)

/-- Integer square root, by Newton's descent from above. -/
def isqrtGo : Nat → Nat → Nat → Nat
  | 0, _, x => x
  | fuel + 1, n, x =>
    let y := (x + n / x) / 2
    if y < x then isqrtGo fuel n y else x

def isqrt (n : Nat) : Nat := if n = 0 then 0 else isqrtGo (Nat.log2 n + 2) n (2 ^ (Nat.log2 n / 2 + 1))

/-- √x for x ≥ 0 finite. -/
def sqrtFin (m : Nat) (e : Int) : Num :=
  let k : Nat := 200 + (if e % 2 = 0 then 0 else 1)
  let n := m * 2 ^ k
  let r := isqrt n
  .fin false r ((e - (k : Int)) / 2) (r * r != n)

/-- Numeric order of two values, with −0 below +0 where `zeros`; false where either is NaN (R140, R144). -/
def ltNum (zeros : Bool) (x y : Num) : Bool :=
  match x, y with
  | .nan _, _ => false
  | _, .nan _ => false
  | .inf a, .inf b => a && !b
  | .inf a, _ => a
  | _, .inf b => !b
  | .fin n1 m1 e1 _, .fin n2 m2 e2 _ =>
    let c := cmpFin n1 m1 e1 n2 m2 e2
    if c = 0 then zeros && m1 == 0 && n1 && !n2 else decide (c < 0)

def eqNum (x y : Num) : Bool := !x.isNan && !y.isNan && !ltNum false x y && !ltNum false y x

/-- A value times a power of two. -/
def scaleNum (x : Num) (k : Int) : Num :=
  match x with
  | .fin n m e st => .fin n m (e + k) st
  | z => z

/-! ### f32 shorthands for units that always round to nearest (R90, R99, R100) -/

def addF32 (a b : Nat) : Nat × BitVec 8 :=
  let z := addNum 0 (decodeNum 0x15 a) (decodeNum 0x15 b)
  let y := convertNum 0x15 0 0 z.1
  (y.1, y.2 ||| z.2)

/-- VMIN and VMAX of two values as encodings of format f (R140). -/
def minmaxF (f : Nat) (mx : Bool) (a b : Nat) : Nat × BitVec 8 :=
  let x := decodeNum f a
  let y := decodeNum f b
  if x.isNan || y.isNan then (fnan f, flagIf (x.isSig || y.isSig) fIV)
  else ((if mx then (if ltNum true x y then b else a) else (if ltNum true y x then b else a)), 0)

/-! ### lg6 products and terms (R83, R84) -/

def lgMul (a b : Nat) : Nat × BitVec 8 :=
  let ca := a % 32
  let cb := b % 32
  if ca = 0 || cb = 0 then (0, 0)
  else
    let c : Int := ca + cb - 16
    let s := (a / 32 % 2 + b / 32 % 2) % 2 * 32
    if c > 31 then (s + 31, fSAT)
    else if c < 1 then (0, fUF)
    else (s + c.toNat, 0)

def lgTerm (p : Nat) : Int :=
  let c := p % 32
  if c = 0 then 0
  else
    let m := if c ≥ 16 then lgT (c % 4) * 2 ^ (c / 4 - 4) else lgT (c % 4) / 2 ^ (4 - c / 4)
    if p / 32 % 2 = 1 then -(m : Int) else m

/-! ### Block quantisation (R87) -/

/-- Element width that quant_block scales to (R87), and the element type of a block format (R75). -/
def blockW (f : Nat) : Nat := match f with | 0x19 => 8 | 0x1A => 16 | _ => 4
def blockElem (f : Nat) : Nat := match f with | 0x18 => 0x01 | 0x19 => 0x02 | 0x1A => 0x03 | _ => 0x12

/-- floor(log2) of a non-zero magnitude. -/
def floorLog (m : Nat) (e : Int) : Int := e + (Nat.log2 m : Nat)

/-- Largest magnitude of some values. -/
def maxMag (l : List Num) : Nat × Int :=
  l.foldl (fun b x => match x with
    | .fin _ m e _ => if cmpFin false m e false b.1 b.2 > 0 then (m, e) else b
    | _ => b) (0, 0)

/-- Scale, elements, flags and the number of elements clamped; `rs` are the lanes' random values. -/
def quantBlock (f : Nat) (mode : Mode) (x : List Num) (rs : List Nat) : Nat × List Nat × BitVec 8 × Nat :=
  if x.any fun v => v.isNan || v.isInf then
    (0xFF, x.map fun _ => 0,
      fSCL ||| flagIf (x.any fun v => v.isSig) fIV ||| flagIf ((x.any Num.isInf) && !(x.any Num.isNan)) fIV, 0)
  else
    let m := maxMag x
    if m.1 = 0 then (0, x.map fun _ => 0, 0, 0)
    else
      let e0 := floorLog m.1 m.2 - ((blockW f : Nat) - 2)
      let e := if e0 + 127 < 0 then -127 else if e0 + 127 > 254 then 127 else e0
      let scl := flagIf (decide (e0 + 127 < 0) || decide (e0 + 127 > 254)) fSCL
      let ys := (x.zip (rs ++ x.map fun _ => 0)).map fun v => convertNum (blockElem f) mode v.2 (scaleNum v.1 (-e))
      -- an element that is not zero and rounds to zero sets UF
      let uf := (x.zip ys).any fun v => !v.1.isZero && v.2.1 = 0 && v.2.2 &&& fNX ≠ 0
      ((e + 127).toNat, ys.map (·.1), (ys.foldl (fun a y => a ||| y.2) scl) ||| flagIf uf fUF,
        (ys.filter fun y => y.2 &&& fSAT ≠ 0).length)

/-- A block element's value with its scale applied (R85); scale 0xFF is NaN. -/
def blockNum (f scale x : Nat) : Num :=
  if scale = 0xFF then .nan false else scaleNum (decodeNum (blockElem f) x) ((scale : Int) - 127)

/-! ### Checksums (R95, R96) -/

def crc32cBit : Nat → Nat → Nat
  | 0, c => c
  | n + 1, c => crc32cBit n (if c % 2 = 1 then Nat.xor (c / 2) 0x82F63B78 else c / 2)

def crc32cGo (c : Nat) : List Byte → Nat
  | [] => c
  | b :: t => crc32cGo (crc32cBit 8 (Nat.xor c b.toNat)) t

/-- CRC-32C of R96. -/
def crc32c (l : List Byte) : Nat := Nat.xor (crc32cGo 0xFFFFFFFF l) 0xFFFFFFFF

def crc8Bit : Nat → Nat → Nat
  | 0, c => c
  | n + 1, c => crc8Bit n (if c ≥ 128 then Nat.xor (c * 2 % 256) 0x07 else c * 2)

/-- CRC-8 of R94. -/
def crc8 (l : List Byte) : Nat := l.foldl (fun c b => crc8Bit 8 (Nat.xor c b.toNat)) 0

/-! ### The counter-based generator (R165) -/

def mix64 (x : Word) : Word :=
  let x := (x ^^^ (x >>> 30)) * 0xBF58476D1CE4E5B9
  let x := (x ^^^ (x >>> 27)) * 0x94D049BB133111EB
  x ^^^ (x >>> 31)

def crng (key c0 c1 : Word) : Word := mix64 (mix64 (key ^^^ c0) ^^^ c1 ^^^ 0x9E3779B97F4A7C15)

end Sys2Proof.Machine
end

