-- ==== Sys2Proof/Machine/Access.lean ====
section
/-! DEFINITION. From handles and coordinates to bytes: tensor entries, layout, walks, the order of checks, SHARED versions and write
digests (spec/08_memories.md R206 to R228, spec/16_translation.md R361 to R372, spec/25_safety.md R453). -/

namespace Sys2Proof.Machine

/-- Who accesses memory: the translation cache it uses (R369; a bay, or 64 plus a lath), its partition and job, and the device bay
whose banks BANK tensors lie in. -/
structure Ctx where
  who : Nat
  part : Nat
  slot : Nat
  bay : Nat
deriving DecidableEq, Repr

def State.bayCtx (s : State) (b : Nat) : Ctx := ⟨b, (s.bay b).partNo, (s.bay b).slotNo, b⟩

/-- The owner of a lath's accesses (R328). -/
def State.lathCtx (s : State) (n : Nat) : Ctx :=
  let j := (s.lathAt n).slot.getD 0
  ⟨64 + n, (s.job j).part, j, 0⟩

/-- The owner of a chain's accesses: the chain's partition, and no job or bay. -/
def State.chainCtx (s : State) (c : Nat) : Ctx := ⟨200 + c, bits (nth 0 (s.chain c).w 0) 25 23, 256, 512⟩

/-! ### The partition's descriptor, as far as accesses read it (R446) -/

def Part.w (x : Part) (i : Nat) : Word := nth 0 x.desc i
def Part.bents (x : Part) : List Nat := (List.range 8).filter fun b => bit (x.w 0) b
def Part.det (x : Part) : Bool := bit (x.w 0) 8
def Part.pre (x : Part) : Bool := bit (x.w 0) 9
def Part.ctx (x : Part) : Nat := bits (x.w 0) 15 10
def Part.hasSlice (x : Part) (i : Nat) : Bool := bit (x.w 1) i
def Part.ttab (x : Part) : Nat := (x.w 2).toNat
def Part.dbase (x : Part) : Nat := (x.w 3).toNat
def Part.dsize (x : Part) : Nat := (x.w 4).toNat

/-! ### Translation caches (R369) -/

/-- The entry of `n` bytes at `a`: from the agent's cache when it holds it, else from memory. -/
def State.cached (s : State) (who a n : Nat) : List Byte :=
  match (Tab.get [] s.caches who).find? fun (x, l) => x == a && l.length == n with
  | some (_, l) => l
  | none => s.readBytes a n

/-- What a cached entry is: 0 a tensor entry, 1 a pointer, 2 a leaf (R362, R366, R367). -/
def entryKind (l : List Byte) : Nat := if l.length = 256 then 0 else if (bytesNat l).testBit 6 then 2 else 1

/-- Entries of a kind that an agent's cache holds: a bay's, and a gather lath's; no other agent has one (R369). -/
def cacheRoom (who kind : Nat) : Nat :=
  if who < 64 then nth 0 [64, 128, 512] kind else if who < 81 then nth 0 [8, 16, 64] kind else 0

/-- A P = 1 and MIG = 0 entry of a table (R369). -/
def cacheable (l : List Byte) : Bool := let w := bytesNat l; w.testBit 0 && !w.testBit 4

/-- The tensor entry's ROOT, where the tensor is paged, may be cached (R362, R369). -/
def tensorCacheable (l : List Byte) : Bool :=
  let w := bytesWords 32 l
  !(decide (4 ≤ bits (nth 0 w 8) 2 0) && decide (bits (nth 0 w 8) 2 0 ≤ 6)) || cacheable ((l.drop 8).take 8)

/-- Take an entry in; when the entries of its kind are full, the one that has been held longest leaves (R369; log 93). -/
def cacheIn (who a : Nat) (l : List Byte) (c : List (Nat × List Byte)) : List (Nat × List Byte) :=
  let kind := entryKind l
  let room := cacheRoom who kind
  let c := c.filter fun x => !(x.1 == a && x.2.length == l.length)
  if room = 0 then c
  else (a, l) :: (c.filter fun x => entryKind x.2 == kind).take (room - 1) ++ c.filter fun x => entryKind x.2 != kind

/-- The cache of an agent empties when the agent changes its job. -/
def State.dropCache (s : State) (who : Nat) : State := { s with caches := Tab.erase who s.caches }

/-! ### Tensor entries (R361, R362) -/

/-- The 32 words of an entry; none where the TID is beyond the job's record. -/
def State.entryWords (s : State) (c : Ctx) (tid : Nat) : List Word :=
  if tid < 32768 then bytesWords 32 (s.cached c.who (dramAddr ((s.part c.part).ttab + tid * 256)) 256)
  else nth [] (s.job c.slot).entries (tid - 32768)

def eW (w : List Word) (i : Nat) : Word := nth 0 w i
def eRank (w : List Word) : Nat := bits (eW w 0) 4 1
def eFmt (w : List Word) : Nat := bits (eW w 0) 10 5
def eTrl (w : List Word) : Bool := bit (eW w 0) 11
def eTag (w : List Word) : Nat := bits (eW w 0) 15 12
def eSctid (w : List Word) : Nat := bits (eW w 0) 31 16
def eRo (w : List Word) : Bool := bit (eW w 0) 32
def eLevels (w : List Word) : Nat := bits (eW w 0) 34 33
def eExt (w : List Word) (d : Nat) : Nat := if d % 2 = 0 then bits (eW w (2 + d / 2)) 31 0 else bits (eW w (2 + d / 2)) 63 32
def eSpace (w : List Word) : Nat := bits (eW w 8) 2 0
def eXsw (w : List Word) : Bool := bit (eW w 8) 3
def eIlv (w : List Word) : Nat := bits (eW w 8) 7 4
def eFirst (w : List Word) : Nat := bits (eW w 8) 14 8
def eNb (w : List Word) : Nat := bits (eW w 8) 21 15
def eHome (w : List Word) : Bool := bit (eW w 8) 22
def eOwner (w : List Word) : Nat := bits (eW w 8) 28 23
def eBase (w : List Word) : Nat := bits (eW w 9) 39 0
def eVoff (w : List Word) : Nat := bits (eW w 9) 63 40
def eStride (w : List Word) (d : Nat) : Nat := bits (eW w (10 + d)) 47 0
def eExts (w : List Word) : List Nat := (List.range (eRank w)).map (eExt w)
def ePaged (w : List Word) : Bool := decide (4 ≤ eSpace w) && decide (eSpace w ≤ 6)
/-- The tensor lies in banks: BANK, or SHARED with its home in banks. -/
def eBanks (w : List Word) : Bool := eSpace w == 0 || (eSpace w == 2 && !eHome w)

def anyNz (w : List Word) (lo n : Nat) : Bool := (List.range n).any fun i => eW w (lo + i) != 0

/-- R361: why the entry raises TENSOR_TABLE. A reserved bit that is set counts too (R6; log 13). -/
def entryBad (w : List Word) : Bool :=
  w.isEmpty || !bit (eW w 0) 0 || eRank w == 0 || decide (eRank w > 8) || !isCode (eFmt w) ||
  (ePaged w && eLevels w == 0) ||
  (List.range 8).any (fun d => decide (d < eRank w) != (eExt w d != 0)) ||
  bits (eW w 0) 63 35 != 0 || anyNz w 6 2 || anyNz w 24 8

/-- Bytes of one unit: a bank or a slice. -/
def unitBytes (w : List Word) : Nat := if eBanks w then bankBytes else sliceBytes

/-- The greatest offset within a unit, for a tensor whose last byte lies at layout offset `o` (R364). -/
def lastWithin (w : List Word) (o : Nat) : Nat :=
  let g := 2 ^ (eIlv w + 5)
  eBase w + o / g / eNb w * g + (if o / g % eNb w = 0 then o % g else g - 1) + (if eSpace w = 2 then eVoff w else 0)

/-- Plane count of a format (R92). -/
def planeCount (f : Nat) : Nat :=
  match f with
  | 0x01 | 0x09 | 0x18 => 4
  | 0x02 | 0x0A | 0x19 => 8
  | 0x03 | 0x0B | 0x1A => 16
  | _ => 6

/-- K and N of a tensor seen as a matrix (R92), and the bytes of its planes. A rank other than 2 is read as its last two dimensions,
the others placed by their strides (log 14). -/
def planeDims (l : List Nat) : Nat × Nat :=
  match l.reverse with
  | n :: k :: _ => (k, n)
  | [n] => (1, n)
  | [] => (1, 1)

def planeBytes (w : List Word) : Nat :=
  let (k, n) := planeDims (eExts w)
  (k + 15) / 16 * ((n + 7) / 8) * planeCount (eFmt w) * 16

/-- The layout offset of the last byte of the tensor. -/
def lastOff (w : List Word) (plane : Bool) : Nat :=
  let r := eRank w
  let keep := if plane then r - 2 else r - 1
  let outer := ((List.range keep).map fun d => (eExt w d - 1) * eStride w d).sum
  if plane then outer + planeBytes w - 1 else outer + (eExt w (r - 1) * fmtWidth (eFmt w) + 7) / 8 - 1

/-- R363, R364: why the layout entry raises LAYOUT_ENTRY. A reserved bit that is set counts too (R6; log 13). Of a compressed
bank the first line is checked: where its lines end is known only from their contents, so that a later offset beyond its unit is found where it is
placed (log 92). -/
def layoutBad (w : List Word) (bays : Nat) (plane cmp : Bool) : Bool :=
  let units := if eBanks w then 96 else 32
  eSpace w == 1 || eSpace w == 7 || bits (eW w 8) 63 29 != 0 || anyNz w 17 7 ||
  (List.range 7).any (fun d => bits (eW w (10 + d)) 63 48 != 0) ||
  eBase w % 32 != 0 ||
  (List.range (eRank w - 1)).any (fun d => decide ((eExt w d - 1) * eStride w d ≥ 2 ^ 48)) ||
  (!ePaged w &&
    (eNb w == 0 || decide (eFirst w + eNb w > units) || (eBanks w && decide (eIlv w > 9)) ||
     (eSpace w == 2 && eVoff w % 32 != 0) || (eBanks w && decide (eOwner w ≥ bays)) ||
     decide (lastWithin w (if cmp then 127 else lastOff w plane) ≥ unitBytes w)))

/-! ### Views: a tensor seen through a handle (R184, R208) -/

structure View where
  tid : Nat
  w : List Word
  tag : Nat
  ro : Bool
  org : Nat
  /-- extents, the outermost replaced by L. -/
  ext : List Nat
  /-- BANKFMT of the tensor's banks: FMT, PLANE, CMP, TRL (R209). -/
  bf : BitVec 9
deriving DecidableEq, Repr

def View.fmt (v : View) : Nat := eFmt v.w
def View.width (v : View) : Nat := fmtWidth (eFmt v.w)
def View.plane (v : View) : Bool := v.bf.toNat.testBit 6
def View.cmp (v : View) : Bool := v.bf.toNat.testBit 7
/-- A trailer is marked by the layout or by the banks (R97). -/
def View.trl (v : View) : Bool := eTrl v.w || (eBanks v.w && v.bf.toNat.testBit 8)
def View.count (v : View) : Nat := v.ext.foldl (· * ·) 1
def View.rank (v : View) : Nat := v.ext.length

def bankFmtOf (y : Bay) (i : Nat) : BitVec 9 := Tab.get 0x0A y.bankfmt i

def planeFmts : List Nat := [0x01, 0x02, 0x03, 0x09, 0x0A, 0x0B, 0x12, 0x18, 0x19, 0x1A, 0x1B]

/-- R210: a BANKFMT value that the command which decodes the bank refuses. -/
def bankFmtBad (f : BitVec 9) : Bool :=
  let n := f.toNat
  !isCode (n % 64) || (n.testBit 6 && !planeFmts.contains (n % 64)) || (n.testBit 7 && !n.testBit 6)

/-- The device bay whose banks hold a bank tensor. -/
def State.bankHome (s : State) (c : Ctx) (w : List Word) : Nat :=
  if eSpace w = 0 then c.bay else (s.job c.slot).bays.getD (eOwner w) c.bay

/-- Check an entry and its banks, and form the view (R361, R364, R210). The check that R364 makes at the first use is made at each use
(log 92). -/
def State.viewOf (s : State) (c : Ctx) (tid : Nat) (tag : Nat) (ro : Bool) (org lim : Nat) : Except Stop View :=
  let w := s.entryWords c tid
  if entryBad w then .error (trapT 0x85 tid 0 false)
  else
    let y := s.bay (s.bankHome c w)
    let f0 := bankFmtOf y (eFirst w)
    let fs := if eBanks w then (List.range (eNb w)).map fun i => bankFmtOf y (eFirst w + i) else []
    let bf := if eBanks w then f0 else 0
    if layoutBad w (s.job c.slot).bays.length (bf.toNat.testBit 6) (bf.toNat.testBit 7) then .error (trapT 0x83 tid 0 false)
    else if fs.any bankFmtBad then .error (trapT 0x20 tid 0 false)
    else if fs.any (· != f0) then .error (trapT 0x28 tid 0 false)
    else if eBanks w && f0.toNat % 64 != eFmt w then .error (trapT 0x26 tid 0 false)
    else
      let e0 := eExt w 0
      let l := if lim ≠ 0 then lim else e0 - org
      .ok ⟨tid, w, tag, ro, org, l :: (eExts w).drop 1, bf⟩

/-- A handle's two words (R184). -/
def State.handleWords (s : State) (b h : Nat) : Word × Word :=
  (Tab.get 0 (s.bay b).par (h * 32), Tab.get 0 (s.bay b).par (h * 32 + 1))

/-- The view through a handle; a reserved bit raises PARAM_WORD (R188). -/
def State.viewH (s : State) (c : Ctx) (h : Word × Word) : Except Stop View :=
  if bits h.1 63 21 ≠ 0 then .error (trapC 0x3F)
  else s.viewOf c (bits h.1 15 0) (bits h.1 19 16) (bit h.1 20) (bits h.2 31 0) (bits h.2 63 32)

/-! ### Coordinates (R208) -/

/-- Row-major index of coordinates in a shape. -/
def rowIndex : List Nat → List Int → Int
  | _ :: ns, x :: xs => x * (ns.foldl (· * ·) 1 : Nat) + rowIndex ns xs
  | _, _ => 0

/-- Coordinates of a row-major index, by the extents after the first. -/
def coordsGo : List Nat → Nat → List Nat
  | [], i => [i]
  | n :: ns, i =>
    let r := ns.foldl (· * ·) n
    i / r :: coordsGo ns (i % r)

def View.coordsOf (v : View) (i : Nat) : List Nat := coordsGo (v.ext.drop 1) i

/-- Every coordinate lies in the shape, and ORG + x0 below EXT(0). -/
def View.inside (v : View) (x : List Int) : Bool :=
  x.length == v.ext.length && (x.zip v.ext).all (fun (c, n) => decide (0 ≤ c) && decide (c < n)) &&
  decide ((v.org : Int) + x.headD 0 < eExt v.w 0)

/-- An access out of tensor bounds, kind 5 (R192, R197). -/
def View.outside (v : View) (slot : Nat) (index : Int) : Stop :=
  .trap { cause := BitVec.ofNat 8 (0x54 + slot), tid := BitVec.ofNat 16 v.tid, wher := BitVec.ofInt 64 index }

/-- The layout's byte offset of an element inside the bounds, and its bit within that byte (R76, R364). -/
def View.offset (v : View) (x : List Nat) : Nat × Nat :=
  let r := v.rank
  let x0 := x.headD 0 + v.org
  let xs := x0 :: x.drop 1
  let outer := ((List.range (r - 1)).map fun d => xs.getD d 0 * eStride v.w d).sum
  let bitsIn := xs.getD (r - 1) 0 * v.width
  (outer + bitsIn / 8 + (if ePaged v.w then eBase v.w else 0), bitsIn % 8)

/-- The offset of the first granule of an element's sub-block, and the element's bit in each granule (R92). -/
def View.planeOffset (v : View) (x : List Nat) : Nat × Nat :=
  let r := v.rank
  let xs := (x.headD 0 + v.org) :: x.drop 1
  let (_, n) := planeDims (eExts v.w)
  let k := if r < 2 then 0 else xs.getD (r - 2) 0
  let c := xs.getD (r - 1) 0
  let outer := ((List.range (r - 2)).map fun d => xs.getD d 0 * eStride v.w d).sum
  (outer + (k / 16 * ((n + 7) / 8) + c / 8) * planeCount v.fmt * 16, k % 16 * 8 + c % 8)

/-! ### Where a byte stands -/

/-- The place of a run of bytes: `code` is the space of R207; for SHARED, `alt` is the address of version 1. -/
structure Loc where
  code : Nat
  addr : Nat
  alt : Nat
deriving DecidableEq, Repr

/-- Spaces that an instruction reaches, by bits of their codes. -/
abbrev Spaces := Nat

def spAny : Spaces := 0x7D
def spBay : Spaces := 0x05
def spBank : Spaces := 0x01
def spMem : Spaces := 0x18
/-- Every space outside the bays. -/
def spFar : Spaces := 0x78

def spaceBase (code a : Nat) : Nat :=
  match code with
  | 4 => dramAddr a
  | 5 => hostAddr a
  | _ => peerAddr a

/-- The index bits of an offset at a level (R365). -/
def levelIndex (lvl o : Nat) : Nat :=
  match lvl with
  | 1 => o / 2 ^ 30 % 1024
  | 2 => o / 2 ^ 21 % 512
  | _ => o / 2 ^ 16 % 32

def nodeBytes (lvl : Nat) : Nat := match lvl with | 1 => 16384 | 2 => 8192 | _ => 512
def pageBits (sz : Nat) : Nat := match sz with | 0 => 16 | 1 => 21 | 2 => 30 | _ => 35
def sizeLevel (sz : Nat) : Nat := match sz with | 0 => 3 | 1 => 2 | _ => 1
/-- Bits of offset that a table of LEVELS levels spans. -/
def spanBits (levels : Nat) : Nat := match levels with | 1 => 21 | 2 => 30 | _ => 40

/-- A pointer entry that breaks R366 or R367; `lvl` is the level of the node it stands in. -/
def pointerBad (w0 w1 : Word) (lvl : Nat) : Bool :=
  bits w0 3 1 != 0 || bits w0 8 7 != 0 || bits w1 63 3 != 0 || decide (lvl ≥ 3) ||
  decide (bits w1 2 0 < 4) || bits w1 2 0 == 7 || bit w0 5 != (bits w1 2 0 != 4) ||
  (w0.toNat / 512 * 512) % nodeBytes (lvl + 1) != 0

def leafBad (w0 w1 : Word) (lvl : Nat) : Bool :=
  let sp := bits w0 11 9
  let sz := bits w0 8 7
  bits w0 15 12 != 0 || bits w1 15 3 != 0 || sizeLevel sz != lvl || decide (sp < 4) || sp == 7 ||
  bits w0 63 16 % 2 ^ (pageBits sz - 16) != 0 || bit w0 5 != (sp != 4) || (bit w0 3 && sp != 4) ||
  !(bits w1 2 0 == 0 || bits w1 2 0 == 4 || bits w1 2 0 == 5)

/-- What a walk finds: a leaf, or the reason it has none. -/
inductive Walk where
  | leaf (w0 w1 : Word) (entry : Nat)
  | bad
  /-- P = 0 in a pointer (kind 3) or a leaf (kind 0), or MIG set; `entry` is where the entry stands. -/
  | absent (kind : Nat) (mig : Bool) (entry : Nat)
deriving DecidableEq, Repr

/-- The 32 entries that a 32 GiB page covers are equal (R365). -/
def State.bigRun (s : State) (who node i : Nat) : Bool :=
  let g := i / 32 * 32
  let e (j : Nat) := bytesNat (s.cached who (node + 16 * j) 16)
  (List.range 32).all fun j => e (g + j) == e i

/-- The walk of R368 from the entry `w0`, `w1`, which stands at `entry` in a node of level `lvl`. -/
def State.walkGo (s : State) (who o : Nat) : Nat → Word → Word → Nat → Nat → Walk
  | 0, _, _, _, _ => .bad
  | fuel + 1, w0, w1, lvl, entry =>
    if bit w0 6 then
      if leafBad w0 w1 lvl || (bits w0 8 7 == 3 && !s.bigRun who (entry - 16 * levelIndex lvl o) (levelIndex lvl o)) then .bad
      else if !bit w0 0 then .absent 0 false entry
      else if bit w0 4 then .absent 4 true entry
      else .leaf w0 w1 entry
    else if pointerBad w0 w1 lvl then .bad
    else if bit w0 4 then .absent 4 true entry
    else if !bit w0 0 then .absent 3 false entry
    else
      let a := spaceBase (bits w1 2 0) (w0.toNat / 512 * 512 + 16 * levelIndex (lvl + 1) o)
      let l := s.cached who a 16
      s.walkGo who o fuel (word (bytesNat (l.take 8))) (word (bytesNat (l.drop 8))) (lvl + 1) a

/-- A walk for offset `o` of the tensor. The root's entry stands in the tensor table, or in the job's own entries (address 0). -/
def State.walk (s : State) (c : Ctx) (v : View) (o : Nat) : Walk :=
  let at0 := if v.tid < 32768 then dramAddr ((s.part c.part).ttab + v.tid * 256 + 8) else 0
  if o / 2 ^ spanBits (eLevels v.w) ≠ 0 || bit (eW v.w 1) 6 then .bad
  else s.walkGo c.who o 4 (eW v.w 1) 4 (3 - eLevels v.w) at0

/-- The address of the entry that a walk for offset `o` reads `d + 1` entries after the one with the words `w0` and `w1`, as far as it comes. -/
def State.walkReads (s : State) (who o : Nat) : Nat → Word → Word → Nat → Option Nat
  | d, w0, w1, lvl =>
    if bit w0 6 || pointerBad w0 w1 lvl || bit w0 4 || !bit w0 0 then none
    else
      let a := spaceBase (bits w1 2 0) (w0.toNat / 512 * 512 + 16 * levelIndex (lvl + 1) o)
      match d with
      | 0 => some a
      | d + 1 =>
        let l := s.cached who a 16
        s.walkReads who o d (word (bytesNat (l.take 8))) (word (bytesNat (l.drop 8))) (lvl + 1)

/-- The entry that an access to offset `o` of a tensor reads: the tensor entry itself at depth 0, and then those of its walk. -/
def State.entryRead (s : State) (c : Ctx) (tid o depth : Nat) : Option Nat :=
  let w := s.entryWords c tid
  match depth with
  | 0 => if tid < 32768 then some (dramAddr ((s.part c.part).ttab + tid * 256)) else none
  | d + 1 => if !ePaged w || o / 2 ^ spanBits (eLevels w) ≠ 0 then none else s.walkReads c.who o d (eW w 1) 4 (3 - eLevels w)

/-- A translation cache that misses takes in the entry that the access reads, where it is one that may be cached (R369). -/
def State.fillCache (s : State) (c : Ctx) (tid o depth : Nat) : State :=
  let n := if depth = 0 then 256 else 16
  match s.entryRead c tid o depth with
  | none => s
  | some a =>
    let l := s.readBytes a n
    let held := Tab.get [] s.caches c.who
    if cacheRoom c.who 0 = 0 || held.any (fun (x, l) => x == a && l.length == n) || !(if depth = 0 then tensorCacheable l else cacheable l) then s
    else { s with caches := Tab.put s.caches c.who (cacheIn c.who a l held) }

/-! ### Entries of tile tables (R365 to R367, R370) -/

/-- The two words of the entry at `e`; 0 names the ROOT of tensor `tid` among the entries of the job in `slot`, whose node space is DRAM. -/
def State.entryAt (s : State) (slot tid e : Nat) : Nat × Nat :=
  if e = 0 then ((nth 0 (nth [] (s.job slot).entries (tid - 32768)) 1).toNat, 4) else (s.rd e 8, s.rd (e + 8) 8)

/-- Write a leaf; a 32 GiB page stands in the 32 consecutive entries that it covers (R365). -/
def State.setLeaf (s : State) (e w0 w1 : Nat) : State :=
  let l := natBytes 8 w0 ++ natBytes 8 w1
  if w0 / 128 % 4 = 3 then (List.range 32).foldl (fun s i => s.write (e / 512 * 512 + 16 * i) l) s else s.write e l

/-- Write w0 of a pointer, or a ROOT; the ROOT of a job's own tensor stands in each copy of the job. -/
def State.setPointer (s : State) (slot tid e w0 : Nat) : State :=
  let put (j : Job) : Job := { j with entries := setNth j.entries (tid - 32768) (setNth (nth [] j.entries (tid - 32768)) 1 (word w0)) }
  if e = 0 then (slot :: (s.job slot).twin.toList).foldl (fun s k => s.setJob k (put (s.job k))) s else s.write e (natBytes 8 w0)

/-- Write an entry. -/
def State.setEntry (s : State) (slot tid e w0 w1 : Nat) : State := if w0.testBit 6 then s.setLeaf e w0 w1 else s.setPointer slot tid e w0

/-- Clear MIG of an entry. -/
def State.clearMig (s : State) (slot tid e : Nat) : State :=
  let (w0, w1) := s.entryAt slot tid e
  if w0.testBit 4 then s.setEntry slot tid e (w0 - 16) w1 else s

/-- Banks of bay `b` that a sector of unit `e` under way locks (R220). -/
def Bay.locksOf (y : Bay) (e : Eng) : List Nat := (y.stream e).inflight.flatMap fun r => r.locks

/-- Another engine of bay `b` than `e` holds the bank locked (R220). A command of the truss reads its operands, and any other word or sector
moves, in the step in which it starts, so only a sector that goes on over several steps holds a lock between steps (R240, R242, R271). -/
def State.lockedFor (s : State) (b bank : Nat) (e : Eng) : Bool :=
  (e != .L && ((s.bay b).locksOf .L).contains bank) || (e != .W && ((s.bay b).locksOf .W).contains bank)

/-- The acting engine waits for a bank of its own bay (R220). -/
def State.bankWaits (s : State) (home bank : Nat) : Bool :=
  match s.cur with
  | .stream b e => b == home && s.lockedFor b bank e
  | _ => false

/-- An update of a hash table to the granule at `a` is posted and has not completed: no other write falls between its read and its write, and
waits (R377). -/
def State.updateAt (s : State) (a : Nat) : Bool :=
  s.laths.any fun (_, x) => x.updates.any fun u => u.parts.any fun (_, b, l) =>
    decide (b < a / 32 * 32 + 32) && decide (a / 32 * 32 < b + l.length)

/-- The byte at `a` lies in a sill slice that is being copied to its spare: writers wait (R373). -/
def State.sliceWaits (s : State) (a : Nat) : Bool :=
  decide (sillAddr 0 0 ≤ a) && decide (a < sillAddr 32 0) && s.remap.copying.any fun (n, _) => n == (a - sillAddr 0 0) / sliceBytes

/-- A write at `a` waits. -/
def State.writeWaits (s : State) (a : Nat) : Bool := s.updateAt a || s.sliceWaits a

/-- Place the bytes at layout offset `o`, which lie in one 32-byte granule, after every check of R208 but the bounds and SHARED
conflicts. -/
def State.place (s : State) (c : Ctx) (v : View) (slot : Nat) (write : Bool) (spaces : Spaces) (o : Nat) : Except Stop Loc :=
  let deny := write && (v.ro || eRo v.w)
  if ePaged v.w then
    let t := o / 65536
    match s.walk c v o with
    | .bad => .error (trapT 0x84 v.tid t false)
    | .absent k m e => .error (.page (BitVec.ofNat 8 (0x40 + 4 * k + slot)) v.tid t e m 0)
    | .leaf w0 _ _ =>
      let sp := bits w0 11 9
      if deny || !(if write then bit w0 2 else bit w0 1) || !spaces.testBit sp then .error (trapT (0x44 + slot) v.tid t false)
      else
        let a := spaceBase sp (bits w0 63 16 * 65536 + o % 2 ^ pageBits (bits w0 8 7))
        if bit w0 3 && (Tab.get 0 s.tags (a / 32)).toNat != v.tag then .error (trapT (0x48 + slot) v.tid t false)
        else if write && s.writeWaits a then .error .hold
        else .ok ⟨sp, a, 0⟩
  else
    let g := 2 ^ (eIlv v.w + 5)
    let row := o / g / eNb v.w
    let b := o / g % eNb v.w
    let unit := eFirst v.w + (if eXsw v.w then (b + row) % eNb v.w else b)
    let within := eBase v.w + row * g + o % g
    if within + (if eSpace v.w = 2 then eVoff v.w else 0) ≥ unitBytes v.w then .error (trapT 0x83 v.tid 0 false)
    else if deny || !spaces.testBit (eSpace v.w) || (!eBanks v.w && !(s.part c.part).hasSlice unit) then
      .error (trapT (0x44 + slot) v.tid 0 false)
    else if eBanks v.w && s.bankWaits (s.bankHome c v.w) unit then .error .hold
    else
      let a (x : Nat) := if eBanks v.w then bankAddr (s.bankHome c v.w) unit x else sillAddr unit x
      if write && s.writeWaits (a within) then .error .hold else
      .ok ⟨eSpace v.w, a within, a (within + eVoff v.w)⟩

/-- Cut a run of bytes at the 32-byte granules of its offset. -/
def spans : Nat → Nat → Nat → List (Nat × Nat)
  | 0, _, _ => []
  | fuel + 1, o, n =>
    if n = 0 then []
    else
      let k := min n (32 - o % 32)
      (o, k) :: spans fuel (o + k) (n - k)

def runSpans (o n : Nat) : List (Nat × Nat) := spans (n / 32 + 2) o n

/-- One placed piece of an access. -/
structure Span where
  o : Nat
  n : Nat
  loc : Loc
deriving DecidableEq, Repr

def State.placeAll (s : State) (c : Ctx) (v : View) (slot : Nat) (write : Bool) (spaces : Spaces) :
    List (Nat × Nat) → Except Stop (List Span)
  | [] => .ok []
  | (o, n) :: t =>
    match s.place c v slot write spaces o with
    | .error e => .error e
    | .ok l =>
      match s.placeAll c v slot write spaces t with
      | .error e => .error e
      | .ok r => .ok (⟨o, n, l⟩ :: r)

/-! ### SHARED granules (R222 to R224) -/

def gCv (m : BitVec 12) : Bool := m.toNat.testBit 0
def gPnd (m : BitVec 12) : Bool := m.toNat.testBit 1
def gWph (m : BitVec 12) : Nat := m.toNat / 4 % 16
def gWbay (m : BitVec 12) : Nat := m.toNat / 64 % 64

def granuleKey (a : Nat) : Nat := a / 32

/-- The commit of a pending write of a completed phase. -/
def commitMeta (q : Nat) (m : BitVec 12) : BitVec 12 :=
  if gPnd m && gWph m != q % 16 then BitVec.ofNat 12 (m.toNat / 4 * 4 + (if gCv m then 0 else 1)) else m

def State.meta1 (s : State) (a : Nat) : BitVec 12 := Tab.get 0 s.meta_ (granuleKey a)

def State.commitAt (s : State) (q a : Nat) : State :=
  { s with meta_ := Tab.set 0 s.meta_ (granuleKey a) (commitMeta q (s.meta1 a)) }

/-- Phase counter and writer of an access. -/
def State.phaseOf (s : State) (c : Ctx) : Nat × Nat := ((s.job c.slot).q, (s.bay c.bay).index)

/-- Another bay's write of this phase is pending. -/
def State.conflicts (s : State) (c : Ctx) (l : Loc) : Bool :=
  let m := commitMeta (s.phaseOf c).1 (s.meta1 l.addr)
  l.code == 2 && gPnd m && gWbay m != (s.phaseOf c).2

/-! ### Reading and writing placed bytes -/

/-- Overlay a queued store's bytes (R229: a LD sees the queued ST). -/
def overlay (a : Nat) (l : List Byte) (p : Piece) : List Byte :=
  (List.range l.length).map fun i => if p.addr ≤ a + i ∧ a + i < p.addr + p.bytes.length then nth 0 p.bytes (a + i - p.addr) else nth 0 l i

/-- Bytes of one span as the accessing agent sees them. The spans of one access are read in one step (R227; log 107). -/
def State.readSpan (s : State) (c : Ctx) (x : Span) : List Byte × State :=
  if x.loc.code = 2 then
    let (q, me) := s.phaseOf c
    let s := s.commitAt q x.loc.addr
    let m := s.meta1 x.loc.addr
    let other := (gPnd m && gWbay m == me) != gCv m
    (s.readBytes (if other then x.loc.alt else x.loc.addr) x.n, s)
  else (s.readBytes x.loc.addr x.n, s)

def State.readSpans (s : State) (c : Ctx) : List Span → List Byte × State
  | [] => ([], s)
  | x :: t =>
    let (l, s) := s.readSpan c x
    let (r, s) := s.readSpans c t
    (l ++ r, s)

/-- Place `l` into 32 bytes at `k`, for the digest's words. -/
def granuleBytes (k : Nat) (l : List Byte) : List Byte := List.replicate k 0 ++ l ++ List.replicate (32 - k - l.length) 0

/-- The record of one granule's write (R453): the amounts added to lo and hi. -/
def digestRecord (space tid g mask : Nat) (l : List Byte) : Word × Word :=
  let c0 := word (at_ 6 60 + at_ space 56 + at_ tid 40 + g % 2 ^ 40)
  let h := (bytesWords 4 l).foldl (fun h w => crng h c0 w) (crng 0 c0 (word mask))
  (h, crng h c0 1)

/-- Add one granule's write of a bay to its digest, where its job has one (R455, R459): the bytes that `mask` names. -/
def State.digestGranule (s : State) (b space tid g mask : Nat) (l : List Byte) : State :=
  let y := s.bay b
  if (y.plumb && decide (space ≥ 2)) || (y.paired && decide (space ≥ 3)) then
    let (lo, hi) := digestRecord space tid g mask l
    s.setBay b { y with dlo := y.dlo + lo, dhi := y.dhi + hi }
  else s

/-- Add a write within one granule, at byte offset `o` of its tensor. -/
def State.digest (s : State) (b space tid o : Nat) (l : List Byte) : State :=
  s.digestGranule b space tid (o / 32) ((2 ^ l.length - 1) * 2 ^ (o % 32)) (granuleBytes (o % 32) l)

/-- Add a write of many bytes (space, offset, byte): one record for each granule that it touches (R453). -/
def State.digestBytes (s : State) (b tid : Nat) (l : List (Nat × Nat × Byte)) : State :=
  ((l.map fun (k, o, _) => (k, o / 32)).eraseDups).foldl (fun s (k, g) =>
    let at_ (i : Nat) : Option Byte := (l.find? fun (k', o, _) => k' = k && o = 32 * g + i).map fun x => x.2.2
    let mask := ((List.range 32).filter fun i => (at_ i).isSome).foldl (fun m i => m + 2 ^ i) 0
    s.digestGranule b k tid g mask ((List.range 32).map fun i => (at_ i).getD 0)) s

/-- The twin of a merged operation performed once adds the same record to its digest (R455). -/
def State.shareDigest (s before : State) (b t : Nat) : State :=
  let d := (s.bay b).dlo - (before.bay b).dlo
  let h := (s.bay b).dhi - (before.bay b).dhi
  s.modBay t fun z => { z with dlo := z.dlo + d, dhi := z.dhi + h }

/-- Run 0 of a plumb job writes a granule of a SHARED tensor in the sill for the first time: its contents at step 4 of R15 are kept for run 1,
which begins with them (R459). -/
def State.keepShared (s : State) (n a : Nat) (l : List Byte) : State :=
  let j := s.job n
  if j.plumb && !j.run1 && decide (sillAddr 0 0 ≤ a) && !(j.shared0.any fun e => e.1 == a) then
    s.setJob n { j with shared0 := j.shared0 ++ [(a, l)] }
  else s

/-- Write one span, which has passed its checks. -/
def State.writeSpan (s : State) (c : Ctx) (tid : Nat) (x : Span) (l : List Byte) : State :=
  let s := if x.loc.code = 2 then
      let (q, me) := s.phaseOf c
      let s := s.commitAt q x.loc.addr
      let m := s.meta1 x.loc.addr
      let g0 := x.loc.addr / 32 * 32
      let g1 := x.loc.alt / 32 * 32
      let cur := if gCv m then g1 else g0
      let new := if gCv m then g0 else g1
      let s := if gPnd m then s else
        { (s.keepShared c.slot g0 (s.readBytes g0 32)).write new (s.readBytes cur 32) with
          meta_ := Tab.set 0 s.meta_ (granuleKey x.loc.addr) (BitVec.ofNat 12 (b2n (gCv m) + 2 + at_ (q % 16) 2 + at_ (me % 64) 6)),
                                     metaJob := Tab.put s.metaJob (granuleKey x.loc.addr) c.slot }
      s.write (new + x.loc.addr % 32) l
    else s.write x.loc.addr l
  if c.who < 64 then s.digest c.who x.loc.code tid x.o l else s

def State.writeSpans (s : State) (c : Ctx) (tid : Nat) : List Span → List Byte → State
  | [], _ => s
  | x :: t, l => State.writeSpans (s.writeSpan c tid x (l.take x.n)) c tid t (l.drop x.n)

/-- The write of many spans that has just been made counts in the writer's digest as one write of each granule (R453), not of each span. -/
def State.oneWrite (s before : State) (c : Ctx) (tid : Nat) (l : List Span) : State :=
  let y := before.bay c.who
  if c.who < 64 ∧ (y.plumb || y.paired) = true then
    (s.modBay c.who fun z => { z with dlo := y.dlo, dhi := y.dhi }).digestBytes c.who tid
      (l.flatMap fun x => ((s.readSpan c x).1.zip (List.range x.n)).map fun (v, i) => (x.loc.code, x.o + i, v))
  else s

/-- No span conflicts with another bay's pending write, kind 6 (R208, R224). -/
def State.checkConflicts (s : State) (c : Ctx) (v : View) (slot : Nat) (l : List Span) : Except Stop Unit :=
  guardE (!l.any fun x => s.conflicts c x.loc) (trapT (0x58 + slot) v.tid 0 false)

/-! ### Elements -/

/-- Bytes an element occupies. -/
def elemBytes (width : Nat) : Nat := (width + 7) / 8

/-- Only the truss reads plane and compressed banks (R210). -/
def View.plainE (v : View) : Except Stop Unit := guardE (!(v.plane || v.cmp)) (trapT 0x26 v.tid 0 false)

/-- Rows of an element's sub-block that lie beyond the tensor's extent, for an element of its last row (R92). -/
def View.padRows (v : View) (x : List Nat) : Nat :=
  let (k, _) := planeDims (eExts v.w)
  let i := if v.rank < 2 then 0 else ((x.headD 0 + v.org) :: x.drop 1).getD (v.rank - 2) 0
  if i + 1 = k then 15 - i % 16 else 0

/-- Columns of an element's sub-block that lie in the tensor's extent (R92). -/
def View.subCols (v : View) (x : List Nat) : Nat :=
  let (_, n) := planeDims (eExts v.w)
  min 8 (n - ((x.headD 0 + v.org) :: x.drop 1).getD (v.rank - 1) 0 / 8 * 8)

/-- Layout offsets of the bytes that hold an element: in a plane bank, one byte of each plane's granule, and for a write of the last row the
bytes of the rows beyond the extent, which hold zeros (R92). -/
def View.elemRuns (v : View) (write : Bool) (x : List Nat) : List (Nat × Nat) :=
  if v.plane then
    let (o, k) := v.planeOffset x
    (List.range (planeCount v.fmt)).map fun j => (o + 16 * j + k / 8, 1 + (if write then v.padRows x else 0))
  else runSpans (v.offset x).1 (elemBytes v.width)

/-- Place an element for reading or writing; its bounds are checked already. -/
def State.placeElem (s : State) (c : Ctx) (v : View) (slot : Nat) (write : Bool) (spaces : Spaces) (x : List Nat) :
    Except Stop (List Span) :=
  s.placeAll c v slot write spaces (v.elemRuns write x)

/-- An element's bits from its bytes. -/
def elemOf (width sub : Nat) (l : List Byte) : Nat := bytesNat l / 2 ^ sub % 2 ^ width

/-- The bytes of an element once it holds `x`: a 4-bit element keeps its neighbour. -/
def elemInto (width sub x : Nat) (old : List Byte) : List Byte :=
  if width < 8 then
    let o := bytesNat old
    natBytes 1 (o - o / 2 ^ sub % 2 ^ width * 2 ^ sub + x % 2 ^ width * 2 ^ sub)
  else natBytes (width / 8) x

/-- Read one element at coordinates that are in bounds. -/
def State.readElem (s : State) (c : Ctx) (v : View) (slot : Nat) (spaces : Spaces) (x : List Nat) : Except Stop (Nat × State) :=
  match s.placeElem c v slot false spaces x with
  | .error e => .error e
  | .ok l =>
    let (b, s) := s.readSpans c l
    .ok (elemOf v.width (v.offset x).2 b, s)

/-- Read an element by its row-major index (R208). -/
def State.readIndex (s : State) (c : Ctx) (v : View) (slot : Nat) (spaces : Spaces) (i : Int) : Except Stop (Nat × State) :=
  let x := v.coordsOf i.toNat
  if i < 0 || i ≥ v.count || !v.inside (x.map Int.ofNat) then .error (v.outside slot i)
  else s.readElem c v slot spaces x

/-! ### Trailers (R96, R97) -/

/-- Read a run of bytes at a layout offset. -/
def State.readRun (s : State) (c : Ctx) (v : View) (slot : Nat) (spaces : Spaces) (o n : Nat) : Except Stop (List Byte × State) :=
  match s.placeAll c v slot false spaces (runSpans o n) with
  | .error e => .error e
  | .ok l => .ok (s.readSpans c l)

/-- K of a block tensor, along which its scales run, the scales of the rest of its shape, and how many K positions lie in one row of the
scale tensor: in a plane bank K is the last but one dimension, and elsewhere the last (R85, R92). -/
def View.scaleShape (v : View) : List Nat :=
  let e := eExts v.w
  if v.plane then
    let (k, n) := planeDims e
    e.take (e.length - 2) ++ [(k + 31) / 32, n]
  else e.dropLast ++ [(e.getLastD 1 + 31) / 32]

/-- The scale tensor of a block tensor: w8, exactly ceil(K/32) scales for each row (R85, R86, R362). -/
def State.scaleView (s : State) (c : Ctx) (v : View) : Except Stop View := do
  let q ← s.viewOf c (eSctid v.w) v.tag v.ro 0 0
  guardE (q.fmt == 0x0A) (trapT 0x26 q.tid 0 false)
  q.plainE
  let sh := v.scaleShape
  let rows := (sh.dropLast).foldl (· * ·) 1
  guardE (q.ext.getLastD 0 == sh.getLastD 1 && q.count == rows * sh.getLastD 1) (trapT 0x21 q.tid 0 false)
  return q

/-- The scale of the element at coordinates `x` of a block tensor, by its row-major index (R85). -/
def View.scaleIndex (v : View) (x : List Nat) : Nat :=
  let y := (x.headD 0 + v.org) :: x.drop 1
  let r := y.length
  let z := if v.plane then (if r < 2 then 0 :: y else y.take (r - 2) ++ [y.getD (r - 2) 0 / 32, y.getD (r - 1) 0])
    else y.dropLast ++ [y.getLastD 0 / 32]
  (rowIndex v.scaleShape (z.map Int.ofNat)).toNat

/-- Read the scales of a scale tensor at row-major indices. -/
def readScales (c : Ctx) (q : View) (slot : Nat) (spaces : Spaces) : List Nat → State → Except Stop (List Byte × State)
  | [], s => .ok ([], s)
  | i :: t, s => do
    let (x, s) ← s.readIndex c q slot spaces i
    let (l, s) ← readScales c q slot spaces t s
    return (BitVec.ofNat 8 x :: l, s)

/-- Scale bytes of a block tensor. -/
def View.scaleCount (v : View) : Nat := if isBlock v.fmt then (v.scaleShape).foldl (· * ·) 1 else 0

/-- Layout offset and length of a marked tensor's elements, those of its plane format also where the tensor is compressed (log 16). -/
def View.payload (v : View) : Nat × Nat := (if ePaged v.w then eBase v.w else 0, lastOff v.w v.plane + 1)

/-- The trailer stands at the next 32-byte boundary after the payload, which for a block format counts the scale bytes (R96). -/
def View.trailerAt (v : View) : Nat := v.payload.1 + (v.payload.2 + v.scaleCount + 31) / 32 * 32

/-- The payload of a marked tensor: the element bytes, and for a block format the scale bytes, which are those of its scale tensor, or of the
bytes that follow the elements where SCTID names none (R96, R362; log 16). -/
def State.payloadOf (s : State) (c : Ctx) (v : View) (slot : Nat) (spaces : Spaces) : Except Stop (List Byte × State) := do
  let (o, n) := v.payload
  let (l, s) ← s.readRun c v slot spaces o n
  if !isBlock v.fmt then return (l, s)
  else if eSctid v.w = 0xFFFF then
    let (r, s) ← s.readRun c v slot spaces (o + n) v.scaleCount
    return (l ++ r, s)
  else
    let q ← s.scaleView c v
    let (r, s) ← readScales c q slot spaces (List.range q.count) s
    return (l ++ r, s)

/-- The checks of R97 on a payload and its trailer: the cause, where one fails. -/
def trailerCause (v : View) (payload t : List Byte) : Option Nat :=
  let n (i k : Nat) := bytesNat ((t.drop i).take k)
  if n 16 4 ≠ crc32c payload then some 0x22
  else if n 12 1 ≠ v.fmt ∨ n 8 4 ≠ (eExts v.w).foldl (· * ·) 1 ∨ n 13 3 ≠ 0 ∨ n 20 12 ≠ 0 then some 0x23
  else none

/-- Check the trailer of a tensor that is marked to have one. -/
def State.checkTrailer (s : State) (c : Ctx) (v : View) (slot : Nat) (spaces : Spaces) : Except Stop State :=
  if !v.trl then .ok s
  else match s.payloadOf c v slot spaces with
    | .error e => .error e
    | .ok (l, s) =>
      match s.readRun c v slot spaces v.trailerAt 32 with
      | .error e => .error e
      | .ok (t, s) =>
        match trailerCause v l t with
        | some k => .error (trapT k v.tid 0 false)
        | none => .ok s

/-! ### Several elements at once -/

/-- Place elements for one access: bounds, then every tile in turn (R208). -/
def State.placeElems (s : State) (c : Ctx) (v : View) (slot : Nat) (write : Bool) (spaces : Spaces) :
    List (List Nat) → Except Stop (List (List Span))
  | [] => .ok []
  | x :: t =>
    match s.placeElem c v slot write spaces x with
    | .error e => .error e
    | .ok l =>
      match s.placeElems c v slot write spaces t with
      | .error e => .error e
      | .ok r => .ok (l :: r)

/-- Read placed elements, in order. -/
def State.readElems (s : State) (c : Ctx) (v : View) : List (List Nat × List Span) → List Nat × State
  | [] => ([], s)
  | (x, l) :: t =>
    let (b, s) := s.readSpans c l
    let (r, s) := s.readElems c v t
    (elemOf v.width (v.offset x).2 b :: r, s)

/-- The plane bytes of an element once it holds `val`, from those that stood there: its bit in each plane, and zeros beyond the extent, in the
row's columns from `cols` on and in the `pad` rows after it (R92). -/
def planeInto (k val cols pad : Nat) (old : List Byte) : List Byte :=
  (List.range (old.length / (pad + 1))).flatMap fun j =>
    let m : Byte := BitVec.ofNat 8 (2 ^ (k % 8))
    let b := nth 0 old (j * (pad + 1))
    ((if val.testBit j then b ||| m else b &&& ~~~ m) &&& BitVec.ofNat 8 (2 ^ cols - 1)) :: List.replicate pad 0

/-- Write one placed element. -/
def State.writeElem (s : State) (c : Ctx) (v : View) (x : List Nat) (l : List Span) (val : Nat) : State :=
  if v.plane then
    let (b, s) := s.readSpans c l
    s.writeSpans c v.tid l (planeInto (v.planeOffset x).2 val (v.subCols x) (v.padRows x) b)
  else if v.width < 8 then
    let (b, s) := s.readSpans c l
    s.writeSpans c v.tid l (elemInto v.width (v.offset x).2 val b)
  else s.writeSpans c v.tid l (natBytes (v.width / 8) (lgMask v.fmt val))

/-- Write elements one after another. -/
def State.putElems (s : State) (c : Ctx) (v : View) : List (List Nat × List Span × Nat) → State
  | [] => s
  | (x, l, val) :: t => (s.writeElem c v x l val).putElems c v t

/-- Write elements after every check has passed: a write digest sees one write of each granule (R453). -/
def State.writeElems (s : State) (c : Ctx) (v : View) (l : List (List Nat × List Span × Nat)) : State :=
  (s.putElems c v l).oneWrite s c v.tid (l.flatMap fun e => e.2.1)

/-- An element's bits from the bytes of its placed spans. -/
def View.elemBits (v : View) (x : List Nat) (b : List Byte) : Nat :=
  if v.plane then
    let k := (v.planeOffset x).2
    ((List.range b.length).map fun j => if (nth 0 b j).toNat.testBit (k % 8) then 2 ^ j else 0).sum
  else elemOf v.width (v.offset x).2 b

end Sys2Proof.Machine
end

