-- ==== Sys2Proof/Machine/ScalarMem.lean ====
section
/-! DEFINITION. Scalar memory words and their order: LD, LDS, ST, AMO, FENCE, PHASE, the commit sweep, and the merged operations of
paired jobs (spec/08_memories.md R222 to R232, spec/25_safety.md R455). -/

namespace Sys2Proof.Machine

/-! ### Merged operations of a paired job (R455) -/

/-- The bay of the twin copy (R454). -/
def State.twinBay (s : State) (b : Nat) : Option Nat :=
  match (s.jobOf b).twin with
  | some t => (s.job t).bays[(s.bay b).index]?
  | none => none

def Bay.unmerge (y : Bay) : Bay := { y with merge := none, mergeDone := false, merged := none }

/-- A merged operation of the sequencer. In a paired job it is posted with its operands and the digest of the bay's completed writes, and
waits until PAIR_MERGE has compared both copies. The primary performs it, and its result goes to both. An operation on a bank is
performed by each copy on its own bank (log 17). -/
def State.mergedOp (s : State) (b : Nat) (own : Bool) (ops : List Word) (perform : State → Except Stop (Word × State))
    (finish : Word → State → State) : Except Stop State :=
  let y := s.bay b
  if !y.paired then
    match perform s with
    | .error e => .error e
    | .ok (r, s) => .ok (finish r s)
  else if y.merge.isNone then
    .ok (s.setBay b { y with merge := some (ops ++ [y.dlo, y.dhi]), mergedAt := s.clock, mergeDone := false, merged := none })
  else if !y.mergeDone then .error .hold
  else if (s.jobOf b).primary then
    match perform s with
    | .error e => .error e
    | .ok (r, s') =>
      let s' := match s.twinBay b with
        | some t => (if own then s' else s'.shareDigest s b t).modBay t fun z => { z with merged := some r }
        | none => s'
      .ok (finish r (s'.modBay b Bay.unmerge))
  else match y.merged with
    | none => .error .hold
    | some r =>
      match (if own then perform s else .ok (r, s)) with
      | .error e => .error e
      | .ok (_, s) => .ok (finish r (s.modBay b Bay.unmerge))

/-- A fault of a sequencer word that follows an effect of the word. -/
def State.trapNow (s : State) (b : Nat) (rc : FaultRec) : State := s.trapEntry b { rc with pc := s.pc } s.pc

/-! ### Elements of the sequencer's accesses (R229) -/

/-- The tensor of a scalar access: its storage width must be `w`, and its banks plain. -/
def seqView (b : Nat) (h : BitVec 4) (w : Nat) (s : State) : Except Stop View := do
  let v ← s.viewH (s.bayCtx b) (s.handleWords b h.toNat)
  guardE (v.width == w) (trapT 0x26 v.tid 0 false)
  v.plainE
  return v

/-- Check and place an element by its index. A fault that the Framer cannot service is one that a restart may follow (R229). -/
def seqPlace (b : Nat) (v : View) (slot : Nat) (write : Bool) (spaces : Spaces) (i : Int) (s : State) :
    Except Stop (List Nat × List Span) :=
  let x := v.coordsOf i.toNat
  if i < 0 || i ≥ v.count || !v.inside (x.map Int.ofNat) then .error (v.outside slot i)
  else match s.placeElem (s.bayCtx b) v slot write spaces x with
    | .error e => .error e
    | .ok l => .ok (x, l)

/-- Lay the queued stores over bytes read at `a`: the latest one shows (R229). -/
def overlayAll (a : Nat) (l : List Byte) (q : List StoreRec) : List Byte :=
  q.foldl (fun l r => r.pieces.foldl (overlay a) l) l

/-- Bytes of placed spans as the sequencer sees them. -/
def State.seqSpans (s : State) (b : Nat) : List Span → List Byte × State
  | [] => ([], s)
  | x :: t =>
    let (l, s) := s.readSpan (s.bayCtx b) x
    let l := if x.loc.code = 2 then l else overlayAll x.loc.addr l (s.bay b).stores
    let (r, s) := State.seqSpans s b t
    (l ++ r, s)

def widthOf (sz : BitVec 2) : Nat := 8 * 2 ^ sz.toNat

def elemIndex (a : BitVec 5) (im : BitVec 9) (s : State) : Int := (s.readS a + im.signExtend 64).toInt

/-- LD and LDS: sd := the element, extended by `f`. -/
def ldCore (b : Nat) (d a : BitVec 5) (h : BitVec 4) (sz : BitVec 2) (im : BitVec 9) (f : Nat → Word) (s : State) : Except Stop State := do
  let v ← seqView b h (widthOf sz) s
  let (_, l) ← seqPlace b v 0 false spAny (elemIndex a im s) s
  let (bs, s) := s.seqSpans b l
  return (s.writeS d (f (bytesNat bs))).retire

/-- Pieces of a placed store. -/
def storePieces : List Span → List Byte → List Piece
  | [], _ => []
  | x :: t, l => ⟨x.loc.addr, l.take x.n⟩ :: storePieces t (l.drop x.n)

def storeDepth : Nat := 8

/-- ST: a store into SHARED reaches its granule at once, any other enters the write queue. -/
def stCore (b : Nat) (d a : BitVec 5) (h : BitVec 4) (sz : BitVec 2) (im : BitVec 9) (s : State) : Except Stop State := do
  let w := widthOf sz
  let v ← seqView b h w s
  let (_, l) ← seqPlace b v 2 true spAny (elemIndex a im s) s
  s.checkConflicts (s.bayCtx b) v 2 l
  let bytes := natBytes (w / 8) (lgMask v.fmt (s.readS d).toNat)
  if l.any fun x => x.loc.code = 2 then return (s.writeSpans (s.bayCtx b) v.tid l bytes).retire
  else
    guardE (decide ((s.bay b).stores.length < storeDepth)) .wait
    let x := l.headD ⟨0, 0, ⟨0, 0, 0⟩⟩
    let space : Space := match x.loc.code with | 0 => .bank | 3 => .sill | 4 => .dram | 5 => .host | _ => .peer
    let r : StoreRec := ⟨space, v.tid, x.o, storePieces l bytes⟩
    return (s.modBay b fun y => { y with stores := y.stores ++ [r] }).retire

/-! ### Completion of queued stores -/

def Space.code : Space → Nat
  | .bank => 0
  | .acc => 1
  | .shared => 2
  | .sill => 3
  | .dram => 4
  | .host => 5
  | .peer => 6

def Space.posted : Space → Bool
  | .host => true
  | .peer => true
  | _ => false

def Piece.meets (p q : Piece) : Bool := decide (p.addr < q.addr + q.bytes.length) && decide (q.addr < p.addr + p.bytes.length)

/-- An earlier store must land first: it touches the same bytes (R218), or both are posted writes (R214). -/
def StoreRec.before (p q : StoreRec) : Bool :=
  (p.space.posted && q.space.posted) || p.pieces.any fun x => q.pieces.any fun y => x.meets y

/-- Write a queued store's pieces, with the digest's record of each. -/
def State.land (s : State) (b : Nat) (space tid : Nat) : Nat → List Piece → State
  | _, [] => s
  | o, p :: t => State.land ((s.write p.addr p.bytes).digest b space tid o p.bytes) b space tid (o + p.bytes.length) t

/-- A queued store of bay `b` touches a bank that a unit of the bay locks (R220), or bytes that writes wait for (R373, R377). -/
def State.storeLocked (s : State) (b : Nat) (r : StoreRec) : Bool :=
  r.pieces.any fun p => s.writeWaits p.addr || (decide (p.addr / 1572864 = b) && s.lockedFor b (p.addr % 1572864 / 16384) .S)

/-- Entry `n` of a bay's write queue lands, if no earlier entry has to land before it, and its bytes take a write now. -/
def storeCompletion (b n : Nat) (s : State) : State :=
  let q := (s.bay b).stores
  match q[n]? with
  | none => s
  | some r =>
    if s.storeLocked b r || (q.take n).any fun p => p.before r then s
    else (s.modBay b fun y => { y with stores := y.stores.eraseIdx n }).land b r.space.code r.tid r.off r.pieces

/-! ### AMO (R230) -/

/-- The new element of an AMO; none leaves it unwritten. -/
def amoNew (op w old a e : Nat) : Option Nat :=
  match op with
  | 0 => some ((old + a) % 2 ^ w)
  | 1 => some (if sgn w a < sgn w old then a else old)
  | 2 => some (if sgn w old < sgn w a then a else old)
  | 3 => some a
  | 4 => if old = e then some a else none
  | _ => some (old ||| a)

/-- Spaces of AMO and of barrier objects: BANK, SILL and DRAM; BANK and SILL. -/
def spAmo : Spaces := 0x19
def spBar : Spaces := 0x09

/-- The space rule that comes before the access's own checks. -/
def earlySpace (v : View) (spaces : Spaces) : Except Stop Unit :=
  guardE (ePaged v.w || spaces.testBit (eSpace v.w)) (trapT 0x46 v.tid 0 false)

/-- The read-modify-write at the element's home. -/
def amoPerform (b : Nat) (v : View) (op w a e : Nat) (x : List Nat) (l : List Span) (s : State) : Except Stop (Word × State) :=
  let c := s.bayCtx b
  let (bs, s) := s.readSpans c l
  let old := elemOf v.width (v.offset x).2 bs
  let s := match amoNew op w old a e with
    | some z => s.writeElem c v x l z
    | none => s
  .ok (word old, s)

def amoCore (b op : Nat) (d a : BitVec 5) (h : BitVec 4) (r : BitVec 5) (wd : BitVec 1) (s : State) : Except Stop State := do
  let w := if wd = 1 then 64 else 32
  let va := (s.readS r).toNat % 2 ^ w
  let ve := (s.readS d).toNat % 2 ^ w
  let i := (s.readS a).toInt
  let v ← seqView b h w s
  earlySpace v spAmo
  let (x, l) ← seqPlace b v 2 true spAmo i s
  guardE (s.bay b).stores.isEmpty .hold
  s.mergedOp b (eSpace v.w == 0) [4, word op, word v.tid, BitVec.ofInt 64 i, word va, if op = 4 then word ve else 0]
    (amoPerform b v op w va ve x l)
    (fun old s => (s.writeS d (BitVec.ofInt 64 (sgn w old.toNat))).retire)

/-! ### FENCE and PHASE (R231, R232) -/

/-- FENCE: the stores to the named spaces have landed. A jointer's row writes have landed when JROW retires. -/
def fenceCore (m : BitVec 7) (s : State) : Except Stop State :=
  let m : BitVec 7 := if m = 0 then 0x7F else m
  match s.cur with
  | .stream b .S =>
    if (s.bay b).stores.any fun r => m.toNat.testBit r.space.code then .error .hold else .ok s.retire
  | _ => .ok s.retire

/-- PHASE: release, arrive, and retire once the phase has completed. -/
def phaseCore (b : Nat) (s : State) : Except Stop State :=
  let y := s.bay b
  if y.phased then .ok (s.setBay b { y with phased := false }).retire
  else if y.arrived then .error .wait
  else if !y.stores.isEmpty then .error .hold
  else .ok ((s.setBay b { y with arrived := true, hold := false }).noteArrival y.slotNo)

/-- Phases since a pending write, counted back from the current phase `q` (R225). -/
def pendingAge (q : Nat) (m : BitVec 12) : Nat := (q + 16 - gWph m) % 16

/-- The sweep condition of R225. -/
def State.swept (s : State) (slot : Nat) : Bool :=
  let q := (s.job slot).q % 16
  s.meta_.all fun (g, m) => !(gPnd m && Tab.get 256 s.metaJob g = slot) || decide (pendingAge q m < 7)

/-- The job's phase advances in every bay at once (R232). -/
def phaseCompletion (slot : Nat) (s : State) : State :=
  let j := s.job slot
  let laths := s.laths.any fun (_, x) => x.slot = some slot && x.updates.any fun u => u.old
  if j.bays.isEmpty || !s.allArrived slot || !(j.bays.any fun b => (s.bay b).live) || !s.swept slot || laths then s
  else
    j.bays.foldl (fun s b => s.modBay b fun y => if y.live then { y with arrived := false, phased := true }.event evPhase else y)
      (s.setJob slot { j with q := j.q + 1 })

/-- The sweep commits one granule that is pending from a completed phase (R225). -/
def commitSweep (slot g : Nat) (s : State) : State :=
  if Tab.get 256 s.metaJob g = slot then
    { s with meta_ := Tab.set 0 s.meta_ g (commitMeta (s.job slot).q (Tab.get 0 s.meta_ g)) }
  else s

/-! ### Meanings -/

/-- LD (R229). -/
def execLd (d a : BitVec 5) (h : BitVec 4) (sz : BitVec 2) (im : BitVec 9) (s : State) : Host.Outcome State Fault Refusal :=
  s.onSeq fun n => ldCore n d a h sz im word s

/-- LDS (R229). -/
def execLds (d a : BitVec 5) (h : BitVec 4) (sz : BitVec 2) (im : BitVec 9) (s : State) : Host.Outcome State Fault Refusal :=
  s.onSeq fun n => ldCore n d a h sz im (fun x => BitVec.ofInt 64 (sgn (widthOf sz) x)) s

/-- ST (R229). -/
def execSt (d a : BitVec 5) (h : BitVec 4) (sz : BitVec 2) (im : BitVec 9) (s : State) : Host.Outcome State Fault Refusal :=
  s.onSeq fun n => stCore n d a h sz im s

/-- STORE_COMPLETION (R229, R218). -/
def execStoreCompletion (bay n : Nat) (s : State) : Host.Outcome State Fault Refusal := .next (storeCompletion bay n s)

/-- AMO_ADD (R230). -/
def execAmoAdd (d a : BitVec 5) (h : BitVec 4) (b : BitVec 5) (w : BitVec 1) (s : State) : Host.Outcome State Fault Refusal :=
  s.onSeq fun n => amoCore n 0 d a h b w s

/-- AMO_MIN (R230). -/
def execAmoMin (d a : BitVec 5) (h : BitVec 4) (b : BitVec 5) (w : BitVec 1) (s : State) : Host.Outcome State Fault Refusal :=
  s.onSeq fun n => amoCore n 1 d a h b w s

/-- AMO_MAX (R230). -/
def execAmoMax (d a : BitVec 5) (h : BitVec 4) (b : BitVec 5) (w : BitVec 1) (s : State) : Host.Outcome State Fault Refusal :=
  s.onSeq fun n => amoCore n 2 d a h b w s

/-- AMO_SWAP (R230). -/
def execAmoSwap (d a : BitVec 5) (h : BitVec 4) (b : BitVec 5) (w : BitVec 1) (s : State) : Host.Outcome State Fault Refusal :=
  s.onSeq fun n => amoCore n 3 d a h b w s

/-- AMO_CAS (R230). -/
def execAmoCas (d a : BitVec 5) (h : BitVec 4) (b : BitVec 5) (w : BitVec 1) (s : State) : Host.Outcome State Fault Refusal :=
  s.onSeq fun n => amoCore n 4 d a h b w s

/-- AMO_OR (R230). -/
def execAmoOr (d a : BitVec 5) (h : BitVec 4) (b : BitVec 5) (w : BitVec 1) (s : State) : Host.Outcome State Fault Refusal :=
  s.onSeq fun n => amoCore n 5 d a h b w s

/-- FENCE (R231). -/
def execFence (m : BitVec 7) (s : State) : Host.Outcome State Fault Refusal := s.scalar (fenceCore m s)

/-- PHASE (R232). -/
def execPhase (s : State) : Host.Outcome State Fault Refusal := s.onSeq fun n => phaseCore n s

/-- PHASE_COMPLETION (R232). -/
def execPhaseCompletion (slot : Nat) (s : State) : Host.Outcome State Fault Refusal := .next (phaseCompletion slot s)

/-- COMMIT_SWEEP (R225). -/
def execCommitSweep (slot granule : Nat) (s : State) : Host.Outcome State Fault Refusal := .next (commitSweep slot granule s)

end Sys2Proof.Machine
end

