-- ==== Sys2Proof/Machine/Control.lean ====
section
/-! DEFINITION. Loops of the sequencer and of jointers, body ends of every stream, control registers, traps and events
(spec/07_control.md R178 to R203, spec/18_counters.md R405 to R407). -/

namespace Sys2Proof.Machine

/-! ### Loop counters (R405) -/

def State.lcs (s : State) : Tab Loop :=
  match s.cur with
  | .stream b .S => (s.bay b).lc
  | .stream b e => ((s.bay b).stream e).lc
  | .jointer c p => (s.jtr c p).lc
  | _ => []

def State.setLc (s : State) (j : Nat) (l : Loop) : State :=
  match s.cur with
  | .stream b .S => s.modBay b fun y => { y with lc := Tab.set {} y.lc j l }.mark (lcMark .S j)
  | .stream b e => s.modBay b fun y =>
      (y.setStream e { y.stream e with lc := Tab.set {} (y.stream e).lc j l }).mark (lcMark e j)
  | .jointer c p => s.setJtr c p { s.jtr c p with lc := Tab.set {} (s.jtr c p).lc j l }
  | _ => s

/-- The byte offset after a loop's body. -/
def Loop.stop (l : Loop) : Nat := l.start.toNat + 4 * l.len.toNat

/-- The checks at a loop's entry (R406, R172): the counter is free, the body ends inside the section, and bodies nest. With `every` an
enclosing loop need not contain the word. -/
def loopCheck (cause : Nat) (every : Bool) (j len : Nat) (s : State) : Except Stop Unit :=
  let a := s.pc.toNat
  let lc := s.lcs
  guardE (!(Tab.get {} lc j).active && decide (a + 4 + 4 * len ≤ s.codeRange.1 + s.codeRange.2) &&
    !(lc.any fun (_, l) => l.active && (every || (decide (l.start.toNat ≤ a) && decide (a < l.stop))) && decide (l.stop < a + 4 + 4 * len)))
    (trapC cause)

/-- Entry into a loop whose checks have passed; a trip count of 0 skips the body, and where the body ends with the plane the program counter
then stands at the plane's end (log 90). -/
def loopEnter (j n len : Nat) (idx step : Word) (s : State) : State :=
  let t := s.pc.toNat + 4 + 4 * len
  if n = 0 then (if t = 65536 then (s.setPc 0 true).bodySkipped else s.setPc (BitVec.ofNat 16 t) false)
  else
    (s.setLc j { rem := BitVec.ofNat 32 (n - 1), len := BitVec.ofNat 8 len, start := s.pc + 4, active := true, idx := idx, step := step }).retire

/-- The trip count of a strided LOOP: ceil(|d| / |c|) when d and c have one sign (R406). -/
def strideCount (a b c : Int) : Nat :=
  let d := b - a
  if (d > 0 ∧ c > 0) ∨ (d < 0 ∧ c < 0) then (d.natAbs + c.natAbs - 1) / c.natAbs else 0

/-- LOOP (R406). -/
def execLoop (c : BitVec 2) (a : BitVec 5) (len : BitVec 8) (s : State) : Host.Outcome State Fault Refusal :=
  s.scalar do
    loopCheck 0x02 false c.toNat len.toNat s
    return loopEnter c.toNat ((s.readS a).toNat % 2 ^ 32) len.toNat 0 1 s

def loopStrided (c : BitVec 2) (a b : BitVec 5) (len : BitVec 8) (s : State) : Except Stop State := do
  let st := s.readS (b + 1)
  guardE (st != 0) (trapC 0xA2)
  let n := strideCount (s.readS a).toInt (s.readS b).toInt st.toInt
  guardE (decide (n < 2 ^ 32)) (trapC 0x02)
  loopCheck 0x02 false c.toNat len.toNat s
  return loopEnter c.toNat n len.toNat (s.readS a) st s

/-- LOOP with a stride (R406). -/
def execLoopStrided (c : BitVec 2) (a b : BitVec 5) (len : BitVec 8) (s : State) : Host.Outcome State Fault Refusal :=
  s.scalar (loopStrided c a b len s)

/-- LOOPI (R406). -/
def execLoopi (c : BitVec 2) (n : BitVec 15) (len : BitVec 8) (s : State) : Host.Outcome State Fault Refusal :=
  s.scalar do
    loopCheck 0x02 false c.toNat len.toNat s
    return loopEnter c.toNat n.toNat len.toNat 0 1 s

/-- The row-pointer tensor of LOOPR and VLOOPR, which must be w32 (R172, R406). -/
def rowPtrView (b : Nat) (h : BitVec 4) (s : State) : Except Stop View := do
  let v ← s.viewH (s.bayCtx b) (s.handleWords b h.toNat)
  guardE (v.fmt == 0x0C) (trapT 0x26 v.tid 0 false)
  v.plainE
  return v

/-- rp[x + 1] − rp[x], or 0. -/
def rowCount (x y : Nat) : Nat := if y ≤ x then 0 else y - x

def loopr (b : Nat) (c : BitVec 2) (a : BitVec 5) (h : BitVec 4) (len : BitVec 8) (s : State) : Except Stop State := do
  loopCheck 0x02 false c.toNat len.toNat s
  let v ← rowPtrView b h s
  let x := (s.readS a).toInt
  let (_, l0) ← seqPlace b v 0 false spAny x s
  let (_, l1) ← seqPlace b v 0 false spAny (x + 1) s
  let (r0, s) := s.seqSpans b l0
  let (r1, s) := s.seqSpans b l1
  return loopEnter c.toNat (rowCount (bytesNat r0) (bytesNat r1)) len.toNat 0 1 s

/-- LOOPR on a jointer, which holds no handle: the handle's words are free values, and the tensor is one of the chain's partition outside
the bays (log 19). -/
def jointerLoopr (ch : Nat) (c : BitVec 2) (a : BitVec 5) (len : BitVec 8) (s : State) : Except Stop State := do
  loopCheck 0x02 false c.toNat len.toNat s
  let v ← s.viewH (s.chainCtx ch) (Config.openValue 19 [0], Config.openValue 19 [1])
  guardE (v.fmt == 0x0C) (trapT 0x26 v.tid 0 false)
  v.plainE
  let x := (s.readS a).toInt
  let (r0, s) ← s.readIndex (s.chainCtx ch) v 0 spFar x
  let (r1, s) ← s.readIndex (s.chainCtx ch) v 0 spFar (x + 1)
  return loopEnter c.toNat (rowCount r0 r1) len.toNat 0 1 s

/-- LOOPR (R406). -/
def execLoopr (c : BitVec 2) (a : BitVec 5) (h : BitVec 4) (len : BitVec 8) (s : State) : Host.Outcome State Fault Refusal :=
  match s.cur with
  | .jointer ch _ => s.finish (jointerLoopr ch c a len s)
  | _ => s.onSeq fun n => loopr n c a h len s

/-! ### Body ends (R172, R249, R407) -/

/-- The active loop that ends at `pc` and starts last. -/
def innermost (pc : Nat) : Tab Loop → Option (Nat × Loop)
  | [] => none
  | (j, l) :: t =>
    if l.active && l.stop == pc then
      match innermost pc t with
      | some (i, m) => if l.start.toNat < m.start.toNat then some (i, m) else some (j, l)
      | none => some (j, l)
    else innermost pc t

/-- Take the loops that end here, innermost first, until one starts its next iteration. A body of at most 32 words is replayed from the
instruction queue (R295). -/
def bodyEnd : Nat → State → State
  | 0, s => s.movePc s.pc true id
  | fuel + 1, s =>
    match innermost (endPc s.pc) s.lcs with
    | none => s.movePc s.pc true id
    | some (j, l) =>
      if l.rem = 0 then bodyEnd fuel (s.setLc j { l with active := false })
      else (s.setLc j { l with rem := l.rem - 1, idx := l.idx + l.step }).movePc l.start false fun n => if l.len.toNat ≤ 32 then n + 4 * l.len.toNat else 0

/-- LOOP_BODY_END (R172, R249, R407). -/
def execLoopBodyEnd (s : State) : Host.Outcome State Fault Refusal :=
  match s.cur with
  | .stream _ _ => .next (bodyEnd 4 s)
  | .jointer _ _ => .next (bodyEnd 4 s)
  | _ => .fault .wrongPlace

/-! ### Control registers (R178 to R182) -/

/-- TSTAT (R196). -/
def Bay.tstat (y : Bay) : Word :=
  word (b2n y.tIn + at_ y.tEng.toNat 1 + at_ y.tPend.toNat 8 + at_ y.tHalt.toNat 16 + at_ y.tResume.toNat 24)

/-- TVEC (R196). -/
def Bay.tvec (y : Bay) : Word := word (b2n y.tvecEn + at_ y.tvecOff.toNat 2)

/-- A control register of a bay's sequencer; none for a number that R178 does not list. -/
def State.csr (s : State) (b n : Nat) : Option Word :=
  let y := s.bay b
  match n with
  | 0x000 => some (y.flags.zeroExtend 64)
  | 0x001 => some (y.v.flags.zeroExtend 64)
  | 0x002 => some (y.m.flags.zeroExtend 64)
  | 0x003 => some (y.l.flags.zeroExtend 64)
  | 0x004 => some (y.w.flags.zeroExtend 64)
  | 0x008 => some (y.vshape.zeroExtend 64)
  | 0x010 => some (y.cause.zeroExtend 64)
  | 0x011 => some (y.epc.zeroExtend 64)
  | 0x012 => some y.tvec
  | 0x013 => some y.tstat
  | 0x014 => some y.tscratch
  | 0x018 => some y.frec0
  | 0x019 => some y.frec1
  | 0x01A => some y.frec2
  | 0x020 => some (y.evpend.zeroExtend 64)
  | 0x030 => some y.jobkey
  | 0x031 => some y.jobinfo
  | 0x032 => some y.plumbseed
  | 0x040 => some ((s.part y.partNo).framelen.zeroExtend 64)
  | n => if 0x100 ≤ n ∧ n < 0x160 then some ((bankFmtOf y (n - 0x100)).zeroExtend 64) else none

/-- Registers that CSRW, CSRS and CSRC write. -/
def csrWritable (det : Bool) (n : Nat) : Bool :=
  decide (n ≤ 4) || (decide (0x010 ≤ n) && decide (n ≤ 0x014)) || (n == 0x040 && !det) || (decide (0x100 ≤ n) && decide (n < 0x160))

/-- A valid FRAMELEN (R402). -/
def frameLenGood (v : Nat) : Bool := decide (4096 ≤ v) && decide (v ≤ 32768) && v % 8 == 0

/-- FRAMELEN is the partition's: an accepted write waits for the next frame origin, and any other leaves LEN (R402). -/
def State.writeFrameLen (s : State) (b : Nat) (v : Word) : State :=
  let s := s.modBay b fun y => y.mark markLen
  let p := (s.bay b).partNo
  let x := s.part p
  if frameLenGood (bits v 15 0) then s.setPart p { x with framePend := some (BitVec.ofNat 16 (bits v 15 0)) } else s

def State.setFlagsOf (s : State) (b : Nat) (e : Eng) (v : Word) : State :=
  s.modBay b fun y => (y.setStream e { y.stream e with flags := BitVec.ofNat 8 (bits v 7 0) }).mark markFlags

/-- Write a control register; reserved bits are ignored (R179). -/
def State.setCsr (s : State) (b n : Nat) (v : Word) : State :=
  match n with
  | 0x000 => s.modBay b fun y => { y with flags := BitVec.ofNat 8 (bits v 7 0) }.mark markFlags
  | 0x001 => s.setFlagsOf b .V v
  | 0x002 => s.setFlagsOf b .M v
  | 0x003 => s.setFlagsOf b .L v
  | 0x004 => s.setFlagsOf b .W v
  | 0x010 => s.modBay b fun y => { y with cause := BitVec.ofNat 8 (bits v 7 0) }.mark markTrap
  | 0x011 => s.modBay b fun y => { y with epc := BitVec.ofNat 16 (bits v 15 0) }.mark markTrap
  | 0x012 => s.modBay b fun y => { y with tvecEn := bit v 0, tvecOff := BitVec.ofNat 14 (bits v 15 2) }.mark markTrap
  | 0x013 => s.modBay b fun y => { y with tResume := BitVec.ofNat 4 (bits v 27 24) }.mark markTrap
  | 0x014 => s.modBay b fun y => { y with tscratch := v }.mark markTrap
  | 0x040 => s.writeFrameLen b v
  | n => s.modBay b fun y => { y with bankfmt := Tab.set 0x0A y.bankfmt (n - 0x100) (BitVec.ofNat 9 (bits v 8 0)) }.mark markFmt

/-- CSRW, CSRS and CSRC: the new value is `f` of the old value and s(sa); sd receives the old value. A write of BANKFMTi waits while a sector
locks bank i (R210). -/
def csrUpdate (b : Nat) (d a : BitVec 5) (n : BitVec 12) (f : Word → Word → Word) (s : State) : Except Stop State :=
  match s.csr b n.toNat with
  | none => .error (trapC 0x02)
  | some old =>
    if !csrWritable (s.bay b).det n.toNat then .error (trapC 0x02)
    else if decide (n.toNat ≥ 0x100) && s.lockedFor b (n.toNat - 0x100) .S then .error .hold
    else .ok ((s.setCsr b n.toNat (f old (s.readS a))).writeS d old).retire

/-- CSRR; a jointer reads its own FLAGS and VSHAPE only (R179). -/
def csrRead (d : BitVec 5) (n : BitVec 12) (s : State) : Except Stop State :=
  let v := match s.cur with
    | .stream b .S => s.csr b n.toNat
    | .jointer c p =>
      let j := s.jtr c p
      if n = 0x000 then some (j.flags.zeroExtend 64) else if n = 0x008 then some (j.vshape.zeroExtend 64) else none
    | _ => none
  match v with
  | some v => .ok (s.writeS d v).retire
  | none => .error (trapC 0x02)

/-- CSRR (R179). -/
def execCsrr (d : BitVec 5) (n : BitVec 12) (s : State) : Host.Outcome State Fault Refusal := s.scalar (csrRead d n s)

/-- CSRW (R179). -/
def execCsrw (d a : BitVec 5) (n : BitVec 12) (s : State) : Host.Outcome State Fault Refusal :=
  s.onSeq fun b => csrUpdate b d a n (fun _ x => x) s

/-- CSRS (R179). -/
def execCsrs (d a : BitVec 5) (n : BitVec 12) (s : State) : Host.Outcome State Fault Refusal :=
  s.onSeq fun b => csrUpdate b d a n (fun old x => old ||| x) s

/-- CSRC (R179). -/
def execCsrc (d a : BitVec 5) (n : BitVec 12) (s : State) : Host.Outcome State Fault Refusal :=
  s.onSeq fun b => csrUpdate b d a n (fun old x => old &&& ~~~ x) s

/-! ### Traps and events (R198 to R203) -/

/-- TRAP: the handler returns to the word after it (R198, R201). -/
def trapCore (b : Nat) (n : BitVec 4) (s : State) : State :=
  s.trapEntry b { cause := BitVec.ofNat 8 (0xE0 + n.toNat), pc := s.pc } (s.pc + 4)

/-- TRAP (R201). -/
def execTrap (n : BitVec 4) (s : State) : Host.Outcome State Fault Refusal :=
  match s.cur with
  | .stream b .S => .next (trapCore b n s)
  | .jointer c p => .next (s.jointerFault c p { cause := BitVec.ofNat 8 (0xE0 + n.toNat) })
  | _ => .fault .wrongPlace

def tretCore (b : Nat) (s : State) : Except Stop State := do
  let y := s.bay b
  guardE y.tIn (trapC 0x02)
  guardE (y.targetOk y.epc.toNat) (trapC 0x02)
  guardE y.resumeOk (trapC 0x02)
  return s.trapReturn b

/-- TRET (R200). -/
def execTret (s : State) : Host.Outcome State Fault Refusal := s.onSeq fun b => tretCore b s

def waitevCore (b : Nat) (d : BitVec 5) (m : BitVec 8) (s : State) : Except Stop State := do
  guardE (m != 0 && decide (m.toNat < 64)) (trapC 0x02)
  let y := s.bay b
  let k : BitVec 6 := BitVec.ofNat 6 m.toNat
  guardE (y.evpend &&& k != 0) .wait
  let s := s.modBay b fun y => { y with evpend := y.evpend &&& ~~~ k }.mark markEv
  return (s.writeS d ((y.evpend &&& k).zeroExtend 64)).retire

/-- WAITEV (R203). -/
def execWaitev (d : BitVec 5) (m : BitVec 8) (s : State) : Host.Outcome State Fault Refusal := s.onSeq fun b => waitevCore b d m s

/-- The sequencer stands at a boundary where a waiting fault is delivered (R198, R199). -/
def Bay.boundary (y : Bay) : Bool :=
  y.live && !y.seqHalted && !y.tIn && !y.hold && y.merge.isNone && !(y.adv && !y.skip && endsAt y.lc y.pc)

/-- A waiting fault of an engine, a lath or an endpoint is delivered (R198, R199). -/
def trapDeliver (b : Nat) (s : State) : State :=
  let y := s.bay b
  match y.pend with
  | [] => s
  | p :: t => if y.boundary then (s.setBay b ({ y with pend := t }.mark markTrap)).trapEntry b p.rc y.pc else s

/-- TRAP_ENTRY (R198). -/
def execTrapEntry (bay : Nat) (s : State) : Host.Outcome State Fault Refusal := .next (trapDeliver bay s)

/-- ENCODING_FAULT: the word that the stream reached is none of its words, or it reached the end of its section (R54, R55, R119). -/
def execEncodingFault (cause : BitVec 8) (s : State) : Host.Outcome State Fault Refusal := s.raise { cause := cause }

end Sys2Proof.Machine
end

