-- ==== Sys2Proof/Machine/Operands.lean ====
section
/-! DEFINITION. Vector state as a word sees it: VSHAPE, the rotating window, lanes, groups, guards, the b operand and the random bits
of a lane (spec/05_vector_regs.md R125 to R135, R139; spec/06_vector_ops.md R165). -/

namespace Sys2Proof.Machine

/-! ### VSHAPE (R128) -/

def State.vshape (s : State) : BitVec 27 :=
  match s.cur with
  | .stream b .V => (s.bay b).vshape
  | .jointer c p => (s.jtr c p).vshape
  | _ => 0

def State.setVshape (s : State) (x : BitVec 27) : State :=
  match s.cur with
  | .stream b .V => s.modBay b fun y => { y with vshape := x }.mark 232
  | .jointer c p => s.setJtr c p { s.jtr c p with vshape := x }
  | _ => s

def vf (x : BitVec 27) (hi lo : Nat) : Nat := x.toNat / 2 ^ lo % 2 ^ (hi - lo + 1)

def vsType (x : BitVec 27) : Nat := vf x 5 0
def vsRm (x : BitVec 27) : Nat := vf x 8 6
def vsIsat (x : BitVec 27) : Bool := x.toNat.testBit 9
def vsStg (x : BitVec 27) : Nat := vf x 14 12
def vsWbase (x : BitVec 27) : Nat := vf x 20 16
def vsFill (x : BitVec 27) : Nat := vf x 26 24

def mkVshape (ty rm : Nat) (isat : Bool) (stg wbase fill : Nat) : BitVec 27 :=
  BitVec.ofNat 27 (ty % 64 + at_ (rm % 8) 6 + at_ (b2n isat) 9 + at_ (stg % 8) 12 + at_ (wbase % 32) 16 + at_ (fill % 8) 24)

def State.vty (s : State) : Nat := vsType s.vshape
def State.vrm (s : State) : Mode := vsRm s.vshape
def State.visat (s : State) : Bool := vsIsat s.vshape

/-- Lanes of a register under a type of width `w` (R126). -/
def lanesOf (w : Nat) : Nat := 4096 / w

/-! ### Registers -/

/-- The physical register of a name (R132). -/
def physReg (wbase r : Nat) : Nat := if r < 32 then r else 32 + (r - 32 + wbase) % 32

def State.readV (s : State) (r : Nat) : Nat :=
  match s.cur with
  | .stream b .V => (Tab.get 0 (s.bay b).vreg (physReg (vsWbase s.vshape) r)).toNat
  | .jointer c p => (Tab.get 0 (s.jtr c p).vreg r).toNat
  | _ => 0

def State.writeV (s : State) (r : Nat) (x : Nat) : State :=
  match s.cur with
  | .stream b .V =>
    let n := physReg (vsWbase s.vshape) r
    s.modBay b fun y => { y with vreg := Tab.set 0 y.vreg n (BitVec.ofNat 4096 x) }.mark (32 + n)
  | .jointer c p => s.setJtr c p { s.jtr c p with vreg := Tab.set 0 (s.jtr c p).vreg r (BitVec.ofNat 4096 x) }
  | _ => s

def State.readP (s : State) (r : Nat) : Nat :=
  match s.cur with
  | .stream b .V => (Tab.get 0 (s.bay b).preg r).toNat
  | .jointer c p => (Tab.get 0 (s.jtr c p).preg r).toNat
  | _ => 0

def State.writeP (s : State) (r : Nat) (x : Nat) : State :=
  match s.cur with
  | .stream b .V => s.modBay b fun y => { y with preg := Tab.set 0 y.preg r (BitVec.ofNat 1024 x) }.mark (96 + r)
  | .jointer c p => s.setJtr c p { s.jtr c p with preg := Tab.set 0 (s.jtr c p).preg r (BitVec.ofNat 1024 x) }
  | _ => s

/-! ### Lanes -/

/-- The first `n` lanes of width `w`. -/
def unpack (w : Nat) : Nat → Nat → List Nat
  | 0, _ => []
  | n + 1, x => x % 2 ^ w :: unpack w n (x / 2 ^ w)

def pack (w : Nat) : List Nat → Nat
  | [] => 0
  | x :: t => x % 2 ^ w + 2 ^ w * pack w t

def State.lanes (s : State) (r w : Nat) : List Nat := unpack w (lanesOf w) (s.readV r)

def State.writeLanes (s : State) (r w : Nat) (l : List Nat) : State := s.writeV r (pack w l)

/-- One element of each member, in turn (R131). -/
def interleave : Nat → List (List Nat) → List Nat
  | 0, _ => []
  | n + 1, ls => ls.filterMap List.head? ++ interleave n (ls.map List.tail)

/-- Elements of a group of `g` registers at `r`: element i in register r + (i mod g), lane floor(i / g) (R131). -/
def State.readGroup (s : State) (r g w : Nat) : List Nat :=
  interleave (lanesOf w) ((List.range g).map fun j => s.lanes (r + j) w)

/-- Every g-th element from `j`. -/
def every (g : Nat) : Nat → List Nat → List Nat
  | _, [] => []
  | 0, x :: t => x :: every g (g - 1) t
  | j + 1, _ :: t => every g j t

def State.writeGroup (s : State) (r g w : Nat) (l : List Nat) : State :=
  (List.range g).foldl (fun s j => s.writeLanes (r + j) w (every g j l)) s

/-! ### Guards (R43, R127) -/

/-- The bits of the lanes that a guard leaves active. -/
def State.active (s : State) (g : Guard) : Nat :=
  if !g.e then 2 ^ 1024 - 1
  else if g.inv then 2 ^ 1024 - 1 - s.readP g.p.toNat
  else s.readP g.p.toNat

/-- Map the lanes: `f` receives the lane number and the lane of each operand; an inactive lane keeps its destination and sets no flag. -/
def mapLanes (f : Nat → Nat → Nat → Nat → Nat × BitVec 8) : Nat → Nat → List Nat → List Nat → List Nat → List Nat × BitVec 8
  | i, m, d :: ds, a :: as, b :: bs =>
    let r := if m % 2 = 1 then f i d a b else (d, 0)
    let t := mapLanes f (i + 1) (m / 2) ds as bs
    (r.1 :: t.1, r.2 ||| t.2)
  | _, _, _, _, _ => ([], 0)

/-- Map predicate bits likewise; a bit of an inactive lane keeps its place. -/
def mapBits (f : Nat → Nat → Nat → Bool × BitVec 8) : Nat → Nat → Nat → List Nat → List Nat → Nat × BitVec 8
  | i, m, d, a :: as, b :: bs =>
    let r := if m % 2 = 1 then f i a b else (d % 2 == 1, 0)
    let t := mapBits f (i + 1) (m / 2) (d / 2) as bs
    (b2n r.1 + 2 * t.1, r.2 ||| t.2)
  | _, _, _, _, _ => (0, 0)

/-! ### The b operand (R134) -/

inductive Form where
  | reg (r : BitVec 6)
  | k (j : BitVec 3)
  | imm (x : BitVec 6)
deriving DecidableEq, Repr

/-- An immediate as a lane of type `f`; a 4-bit lane takes its low four bits. For lg6, e4m3 and e5m2 the spec gives no value: it is left
free, one value for each type and immediate (log 12). -/
def immLane (f : Nat) (x : BitVec 6) : Nat :=
  if isInt f then wrap (fmtWidth f) x.toInt
  else if isFlt f then (convertNum f 0 0 (Num.ofInt x.toInt)).1
  else lgMask f ((Config.freeImm f x.toNat).toNat % 2 ^ fmtWidth f)

/-- The lanes of b under type `f`. -/
def State.operandB (s : State) (f : Nat) (b : Form) : List Nat :=
  let w := fmtWidth f
  match b with
  | .reg r => s.lanes r.toNat w
  | .k j => List.replicate (lanesOf w) ((s.readK j).toNat % 2 ^ w)
  | .imm x => List.replicate (lanesOf w) (immLane f x)

/-- A count operand: a k register, or the immediate read unsigned (R134). -/
def State.countB (s : State) (b : Form) : Nat :=
  match b with
  | .reg _ => 0
  | .k j => (s.readK j).toNat
  | .imm x => x.toNat

/-! ### Random bits of a lane (R139, R165) -/

def State.laneSeed (s : State) (domain : Nat) (lane : Nat) : Word :=
  match s.cur with
  | .stream b .V =>
    let y := s.bay b
    crng y.jobkey (word (at_ domain 60 + at_ y.index 40 + lane)) (word y.v.ordinal)
  | .jointer c p => crng 0 (word (at_ 3 60 + at_ (c * 8 + p) 40 + lane)) (word (s.jtr c p).ordinal)
  | _ => 0

def State.laneRandom (s : State) (lane : Nat) : Nat := (s.laneSeed 1 lane).toNat % 65536

/-! ### The shape of a vector word -/

/-- The type must be one that the word accepts (R44). -/
def State.typeE (s : State) (ok : Nat → Bool) : Except Stop Unit := guardE (ok s.vty) (trapC 0x0C)

/-- Types of R137. -/
def tInt (f : Nat) : Bool := isInt f && decide (fmtWidth f ≥ 8)
def tIntFlt (f : Nat) : Bool := tInt f || isFlt f
def tAny (f : Nat) : Bool := isCode f && !isBlock f
def tSigned (f : Nat) : Bool := isI f && decide (fmtWidth f ≥ 8)

/-- A lane word: vd := f(d, a, b) in each active lane (R135). -/
def laneWord (g : Guard) (d a : BitVec 6) (b : Form) (ok : Nat → Bool) (f : State → Nat → Nat → Nat → Nat → Nat × BitVec 8) (s : State) :
    Except Stop State :=
  match s.typeE ok with
  | .error e => .error e
  | .ok _ =>
    let w := fmtWidth s.vty
    let lb := s.operandB s.vty b
    let r := mapLanes (f s) 0 (s.active g) (s.lanes d.toNat w) (s.lanes a.toNat w) lb
    .ok ((s.writeLanes d.toNat w r.1).orFlags r.2).retireV

/-- Group size of `n` width steps. -/
def groupOf (n : Nat) : Nat := 2 ^ n

/-- Members of a group are named from a multiple of its size (R46). -/
def alignE (r : BitVec 6) (g : Nat) : Except Stop Unit := guardE (r.toNat % g == 0) (trapC 0x0B)

end Sys2Proof.Machine
end

