-- ==== Sys2Proof/Machine/VecCtl.lean ====
section
/-! DEFINITION. Control words of the V stream: loops, pegs, the end of the stream and VKSET (spec/06_vector_ops.md R171 to R176). -/

namespace Sys2Proof.Machine

/-! ### Pegs (R287 to R290) -/

/-- The queues that a mask names, first queue first. -/
def maskQueues : Nat → List Nat → List Nat
  | _, [] => []
  | m, q :: t => if m % 2 = 1 then q :: maskQueues (m / 2) t else maskQueues (m / 2) t

/-- Every queue holds a peg (R289). -/
def Bay.hasPegs (y : Bay) (qs : List Nat) : Bool := qs.all fun q => Tab.get 0 y.cnt q != 0

def Bay.popAll (y : Bay) (qs : List Nat) : Bay := qs.foldl Bay.pop y

/-- Every queue has room (R290). -/
def Bay.roomAll (y : Bay) (qs : List Nat) : Bool := qs.all y.room

def Bay.pushAll (y : Bay) (qs : List Nat) : Bay := qs.foldl Bay.push y

/-- Queues of V, S and the step streams, in the mask orders of R47, R173, R174, R292 and R293. -/
def queuesIn : Eng → List Nat
  | .V => [1, 3, 13]
  | .S => [2, 5, 10]
  | .M => [0, 6, 12]
  | .L => [9, 11, 8]
  | .W => [4, 7, 14]

def queuesOut : Eng → List Nat
  | .V => [6, 7, 8]
  | .S => [11, 12, 13, 14]
  | .M => [3, 4, 5]
  | .L => [0, 1, 2]
  | .W => [9, 10]

/-! ### Loops (R172) -/

/-- Entry of a vector loop: FILL is cleared, also when the body is skipped. -/
def vloopEnter (j n len : Nat) (s : State) : State :=
  let x := s.vshape
  (loopEnter j n len 0 1 (s.setVshape (x &&& 0x0FFFFFF))).countV

/-- VLOOP (R172). -/
def execVloop (c : BitVec 2) (len : BitVec 6) (k : BitVec 3) (s : State) : Host.Outcome State Fault Refusal :=
  s.onVec fun _ => do
    loopCheck 0x0A true c.toNat len.toNat s
    return vloopEnter c.toNat ((s.readK k).toNat % 2 ^ 32) len.toNat s

/-- VLOOPI (R172). -/
def execVloopi (c : BitVec 2) (len n : BitVec 6) (s : State) : Host.Outcome State Fault Refusal :=
  s.onVec fun _ => do
    loopCheck 0x0A true c.toNat len.toNat s
    return vloopEnter c.toNat n.toNat len.toNat s

/-- The checks of the loop's entry come before the reads of the row pointers, which the tensor's row-major index finds whatever its rank
(log 85). -/
def vloopr (b : Nat) (x : BitVec 3) (c : BitVec 2) (len : BitVec 6) (h : BitVec 4) (s : State) : Except Stop State := do
  loopCheck 0x0A true c.toNat len.toNat s
  let v ← rowPtrView b h s
  let i := (s.readK x).toInt
  let (r0, s) ← s.readIndex (s.bayCtx b) v 0 spBay i
  let (r1, s) ← s.readIndex (s.bayCtx b) v 0 spBay (i + 1)
  return vloopEnter c.toNat (rowCount r0 r1) len.toNat s

/-- VLOOPR (R172). -/
def execVloopr (x : BitVec 3) (c : BitVec 2) (len : BitVec 6) (h : BitVec 4) (s : State) : Host.Outcome State Fault Refusal :=
  s.onVec fun b => vloopr b x c len h s

/-! ### Pegs, VEND and VKSET (R173 to R176) -/

def vpegwCore (b : Nat) (m : BitVec 3) (s : State) : Except Stop State := do
  guardE (m != 0) (trapC 0x0A)
  let qs := maskQueues m.toNat (queuesIn .V)
  guardE ((s.bay b).hasPegs qs) .wait
  return (s.modBay b fun y => y.popAll qs).retireV

/-- VPEGW (R173). -/
def execVpegw (m : BitVec 3) (s : State) : Host.Outcome State Fault Refusal := s.onVec fun b => vpegwCore b m s

/-- VPEGS: a VST has landed when it retires (R170). -/
def vpegsCore (b : Nat) (m : BitVec 3) (s : State) : Except Stop State := do
  guardE (m != 0) (trapC 0x0A)
  let qs := maskQueues m.toNat (queuesOut .V)
  guardE ((s.bay b).roomAll qs) .wait
  return (s.modBay b fun y => y.pushAll qs).retireV

/-- VPEGS (R174). -/
def execVpegs (m : BitVec 3) (s : State) : Host.Outcome State Fault Refusal := s.onVec fun b => vpegsCore b m s

def endLoops (lc : Tab Loop) : Tab Loop := lc.map fun (j, l) => (j, { l with active := false })

def vendCore (b : Nat) (s : State) : State :=
  s.retireV.modBay b fun y =>
    (({ y with v := { y.v with run := false, lc := endLoops y.v.lc } } : Bay).markLoops .V y.v.lc (endLoops y.v.lc)).event evEnd

/-- VEND (R175); the loops that it ends set their LC dirty bits (log 110). -/
def execVend (s : State) : Host.Outcome State Fault Refusal := s.onVec fun b => .ok (vendCore b s)

/-- VKSET (R176). -/
def execVkset (k : BitVec 3) (im : BitVec 6) (s : State) : Host.Outcome State Fault Refusal :=
  s.onVec fun _ => .ok (s.writeK k (im.signExtend 64)).retireV

end Sys2Proof.Machine
end

