-- ==== Sys2Proof/Machine/Queues.lean ====
section
/-! DEFINITION. Parameters, streams, pegs of the sequencer, instruction fetch, and channels (spec/07_control.md R188, spec/12_queues.md
R287 to R307). -/

namespace Sys2Proof.Machine

/-! ### Parameters (R183, R188) -/

/-- The dirty bit of a parameter number (R204). -/
def parMark (n : Nat) : Nat :=
  let i := n / 32 % 16
  match n / 512 with
  | 0 => 144 + i
  | 1 => 160 + i
  | 2 => 176 + i
  | 3 => 192 + i
  | _ => 200 + i

def Bay.setPar (y : Bay) (n : Nat) (v : Word) : Bay := { y with par := Tab.set 0 y.par n v }.mark (parMark n)

/-- HSET (R188). -/
def execHset (h : BitVec 4) (a b : BitVec 5) (s : State) : Host.Outcome State Fault Refusal :=
  s.onSeq fun n =>
    .ok (s.modBay n fun y => (y.setPar (h.toNat * 32) (s.readS a)).setPar (h.toNat * 32 + 1) (s.readS b)).retire

/-- SETPAR (R188). -/
def execSetpar (a : BitVec 5) (p : BitVec 12) (s : State) : Host.Outcome State Fault Refusal :=
  s.onSeq fun n => .ok (s.modBay n fun y => y.setPar p.toNat (s.readS a)).retire

/-- GETPAR (R188). -/
def execGetpar (d : BitVec 5) (p : BitVec 12) (s : State) : Host.Outcome State Fault Refusal :=
  s.onSeq fun n => .ok (s.writeS d (Tab.get 0 (s.bay n).par p.toNat)).retire

/-! ### SPAWN, JOIN, HALT (R296 to R300) -/

/-- The engines that a mask names, V first. -/
def maskEngines (m : BitVec 4) : List Eng := [Eng.V, .M, .L, .W].filter fun e => m.toNat.testBit e.idx

/-- k0 to k7 of a started stream: s8 to s15 (R108). -/
def copyRegs (r : Tab Word) : Nat → Tab Word → Tab Word
  | 0, k => k
  | n + 1, k => copyRegs r n (Tab.set 0 k n (Tab.get 0 r (8 + n)))

/-- A stream as SPAWN starts it; the loop counters that this clears set their LC dirty bits (R204; log 110). -/
def Stream.start (x : Stream) (regs : Tab Word) (o fnum clock : Nat) : Stream :=
  { x with
    k := copyRegs regs 8 [], pc := BitVec.ofNat 16 o, run := true, spwn := true, flags := 0, lc := endLoops x.lc, adv := false,
    sf := BitVec.ofNat 48 fnum, ls := 0, ordinal := 0, rc := none, issued := none, kept := [], fetched := 0, spawned := clock }

/-- Dirty bits that SPAWN sets: the stream's k registers, its FLAGS, the trap registers, its pc, and VSHAPE for V. -/
def Bay.spawnMarks (y : Bay) (e : Eng) : Bay :=
  let y := (List.range 8).foldl (fun y j => y.mark (112 + e.idx * 8 + j)) y
  let y := ((y.mark markFlags).mark markTrap).mark markPc
  if e = .V then y.mark 232 else y

/-- A faulted word that no restart will issue again gives its reservations and its place in the order of pushes back (R290; log 94). -/
def Bay.dropKept (y : Bay) (e : Eng) : Bay :=
  let y := y.returnDeferred (y.stream e).kept
  y.setStream e { y.stream e with kept := [], inflight := (y.stream e).inflight.filter fun r => !r.fallen }

def Bay.spawn (y : Bay) (fnum clock : Nat) (e : Eng) : Bay :=
  let y := y.dropKept e
  let old := (y.stream e).lc
  let x := (y.stream e).start y.s (y.sect e).1 fnum clock
  let y := { (y.setStream e x) with tHalt := y.tHalt &&& ~~~ BitVec.ofNat 4 (2 ^ e.idx) }
  ((if e = .V then { y with vshape := 0x13 } else y).spawnMarks e).markLoops e old x.lc

def spawnCore (b : Nat) (m : BitVec 4) (s : State) : Except Stop State := do
  let y := s.bay b
  let es := maskEngines m
  guardE (m != 0 && es.all fun e => (y.sect e).2 != 0) (trapC 0x02)
  guardE (!(es.any fun e => (y.stream e).run || y.tPend.toNat.testBit e.idx)) (trapC 0x64)
  let fnum := (s.part y.partNo).fnum.toNat
  return (s.setBay b (es.foldl (fun y e => y.spawn fnum s.clock e) y)).retire

/-- SPAWN (R298). -/
def execSpawn (m : BitVec 4) (s : State) : Host.Outcome State Fault Refusal := s.onSeq fun b => spawnCore b m s

def Bay.running (y : Bay) : Bool := y.v.run || y.m.run || y.l.run || y.w.run
def Bay.spawned (y : Bay) : Bool := y.v.spwn || y.m.spwn || y.l.spwn || y.w.spwn

def Bay.unspawn (y : Bay) : Bay :=
  let y := (((y.dropKept .V).dropKept .M).dropKept .L).dropKept .W
  let clear (x : Stream) : Stream := { x with spwn := false, rc := none }
  { y with v := clear y.v, m := clear y.m, l := clear y.l, w := clear y.w, tHalt := 0 }.mark markTrap

/-- A transfer unit's entry makes no further write: it has completed, it is an XNOP, or it has faulted. -/
def CopyRec.settled (r : CopyRec) : Bool := r.done || r.xnop || r.fallen || r.late.isSome

/-- Every write of an engine stream has completed: JOIN acquires those of the streams in SPWN (R219, R299). -/
def State.landed (s : State) (b : Nat) (e : Eng) : Bool :=
  let y := s.bay b
  ((y.stream e).inflight.all CopyRec.settled) && (e != .W || y.reds.isEmpty) &&
    (e != .M || (y.truss.queue.isEmpty && y.truss.running.isEmpty && !((s.bent (b / 8)).writes.any fun w => w.owner = b)))

def joinCore (b : Nat) (s : State) : Except Stop State := do
  let y := s.bay b
  guardE (!y.spawned || !y.running) .wait
  guardE ([Eng.V, .M, .L, .W].all fun e => !(y.stream e).spwn || s.landed b e) .wait
  return (s.setBay b y.unspawn).retire

/-- JOIN (R299). -/
def execJoin (s : State) : Host.Outcome State Fault Refusal := s.onSeq fun b => joinCore b s

/-- Every write of the bay has completed (R300). -/
def State.quiet (s : State) (b : Nat) : Bool :=
  let y := s.bay b
  y.stores.isEmpty && y.reds.isEmpty && y.l.inflight.all CopyRec.settled && y.w.inflight.all CopyRec.settled && y.truss.queue.isEmpty && y.truss.running.isEmpty &&
    !((s.bent (b / 8)).writes.any fun w => w.owner = b)

def haltCore (b : Nat) (s : State) : Except Stop State := do
  guardE (!(s.bay b).running) .wait
  guardE (s.quiet b) .hold
  return (s.modBay b fun y => y.stopAt s.clock).noteArrival (s.bay b).slotNo

/-- HALT (R300); the program counter stays at the word (R119). -/
def execHalt (s : State) : Host.Outcome State Fault Refusal := s.onSeq fun b => haltCore b s

/-! ### Pegs of the sequencer (R292, R293) -/

def tkwaitCore (b : Nat) (m : BitVec 3) (s : State) : Except Stop State := do
  guardE (m != 0) (trapC 0x02)
  let qs := maskQueues m.toNat (queuesIn .S)
  guardE ((s.bay b).hasPegs qs) .wait
  return (s.modBay b fun y => y.popAll qs).retire

/-- TKWAIT (R292). -/
def execTkwait (m : BitVec 3) (s : State) : Host.Outcome State Fault Refusal := s.onSeq fun b => tkwaitCore b m s

def tksigCore (b : Nat) (m : BitVec 4) (s : State) : Except Stop State := do
  guardE (m != 0) (trapC 0x02)
  let qs := maskQueues m.toNat (queuesOut .S)
  guardE ((s.bay b).roomAll qs) .wait
  guardE (s.bay b).stores.isEmpty .hold
  return (s.modBay b fun y => y.pushAll qs).retire

/-- TKSIG (R293). -/
def execTksig (m : BitVec 4) (s : State) : Host.Outcome State Fault Refusal := s.onSeq fun b => tksigCore b m s

/-! ### Instruction fetch (R295) -/

/-- Streams in the order of the code plane's port. -/
def portOrder : List Eng := [.S, .V, .M, .L, .W]

def Bay.fetchPc (y : Bay) (e : Eng) : Nat := if e = .S then y.pc.toNat + y.fetched else (y.stream e).pc.toNat + (y.stream e).fetched
def Bay.fetchedOf (y : Bay) (e : Eng) : Nat := if e = .S then y.fetched else (y.stream e).fetched

/-- A stream that runs, has more words, and has room for 16 words in its queue of 24 or 32. -/
def Bay.wantsLine (y : Bay) (e : Eng) : Bool :=
  let (o, l) := y.sect e
  (if e = .S then y.live else (y.stream e).run) && decide (y.fetchPc e < o + l) &&
    decide (y.fetchedOf e ≤ (if e = .S then 32 else 64))

/-- One 64-byte line for the next stream with room; only the rest of the line and of the section enters the queue. -/
def codeFetch (b : Nat) (s : State) : State :=
  let y := s.bay b
  let order := portOrder.drop y.fetchNext ++ portOrder.take y.fetchNext
  match order.find? y.wantsLine with
  | none => s
  | some e =>
    let (o, l) := y.sect e
    let a := y.fetchPc e
    let n := y.fetchedOf e + (min ((a / 64 + 1) * 64) (o + l) - a)
    let y := { y with fetchNext := (e.code + 1) % 5 }
    s.setBay b (if e = .S then { y with fetched := n } else y.setStream e { y.stream e with fetched := n })

/-- CODE_FETCH (R295). -/
def execCodeFetch (bay : Nat) (s : State) : Host.Outcome State Fault Refusal := .next (codeFetch bay s)

/-! ### Ports of a lath (R331) -/

def Lath.portWord (x : Lath) (i : Nat) : Nat := (nth 0 x.plane i).toNat
def pwKind (w : Nat) : Nat := w % 4
def pwChan (w : Nat) : Nat := w / 4 % 64
def pwBay (w : Nat) : Nat := w / 256 % 64
def pwThread (w : Nat) : Nat := w / 16384 % 1024
def pwPeer (w : Nat) : Nat := w / 4 % 128
def pwPort (w : Nat) : Nat := w / 512 % 4
def pwOrd (w : Nat) : Bool := w.testBit 24

/-- The port of a lath that is bound to channel `ch` of logical bay `i`: input ports are 0 to 3, output ports 4 to 7. -/
def Lath.channelPort (x : Lath) (out : Bool) (i ch : Nat) : Option Nat :=
  (List.range 4).find? fun j =>
    let w := x.portWord (if out then 4 + j else j)
    pwKind w == 1 && pwChan w == ch && pwBay w == i

def Lath.outPort (x : Lath) (j : Nat) : OutPort := nth {} x.outp j
def Lath.inPort (x : Lath) (j : Nat) : InPort := nth {} x.inp j
def Lath.setOut (x : Lath) (j : Nat) (p : OutPort) : Lath := { x with outp := setNth x.outp j p }
def Lath.setIn (x : Lath) (j : Nat) (p : InPort) : Lath := { x with inp := setNth x.inp j p }

/-! ### Tags (R329) -/

def mkTag (ctx thread seq : Nat) : BitVec 32 := BitVec.ofNat 32 (at_ ctx 26 + at_ (thread % 1024) 16 + seq % 65536)
def tagCtx (t : BitVec 32) : Nat := t.toNat / 2 ^ 26
def tagThread (t : BitVec 32) : Nat := t.toNat / 65536 % 1024
def tagSeq (t : BitVec 32) : Nat := t.toNat % 65536

/-- How a sequence number stands to the expected one (R304, R330). -/
inductive SeqOrder where
  | below | equal | above
deriving DecidableEq, Repr

def seqOrder (expected got : Nat) : SeqOrder :=
  let d := (expected + 65536 - got) % 65536
  if d = 0 then .equal else if d ≤ 32768 then .below else .above

/-! ### Endpoints (R301 to R305) -/

def Bay.ep (y : Bay) (ch : Nat) : Endpoint := Tab.get {} y.chan ch

def State.modEp (s : State) (b ch : Nat) (f : Endpoint → Endpoint) : State :=
  s.modBay b fun y => { y with chan := Tab.put y.chan ch (f (y.ep ch)) }

/-- Even parity of FREE. -/
def parity7 (x : BitVec 7) : Bool := ((List.range 7).filter fun i => x.toNat.testBit i).length % 2 == 1

def Endpoint.setFree (e : Endpoint) (x : BitVec 7) : Endpoint := { e with free := x, fpar := parity7 x }

/-- A credit sets out for the sender: behind an audit that is under way (R305). -/
def Endpoint.giveCredit (e : Endpoint) : Endpoint :=
  if e.audit.isSome || e.answer.isSome then { e with behind := e.behind + 1 } else { e with credits := e.credits + 1 }

/-- The endpoint word that CTRR reads (R301, R410). -/
def Endpoint.word (e : Endpoint) : Word :=
  Sys2Proof.Machine.word (b2n e.bnd + at_ (b2n e.dir) 1 + at_ e.peer.toNat 2 + at_ e.thread.toNat 9 + at_ e.ctx.toNat 19 + at_ e.cap.toNat 25 +
    at_ e.free.toNat 32 + at_ (b2n e.fpar) 39 + at_ e.seq.toNat 40)

/-- Send one element on an out endpoint. -/
def Endpoint.send (e : Endpoint) (wire : Bool) (v : Word) : Endpoint :=
  let t := mkTag e.ctx.toNat e.thread.toNat e.seq.toNat
  { (e.setFree (e.free - 1)) with
    seq := e.seq + 1, sent := e.sent + 1, replay := (e.replay ++ [(v, t)]).drop (e.replay.length + 1 - 64)
    wire := if wire then e.wire ++ [(v, t)] else e.wire }

/-- CHPUSH: in a paired job one element goes to the lath, from the primary (R455). -/
def chpushCore (b : Nat) (a : BitVec 5) (c : BitVec 6) (s : State) : Except Stop State := do
  let e := (s.bay b).ep c.toNat
  let v := s.readS a
  guardE (e.bnd && !e.dir) (trapC 0x65)
  guardE ((s.bay b).merge.isSome || (e.free != 0 && !e.resync)) .wait
  guardE (s.bay b).stores.isEmpty .hold
  let wire := !(s.bay b).paired || (s.jobOf b).primary
  s.mergedOp b false [1, word c.toNat, v] (fun s => .ok (0, s)) fun _ s => (s.modEp b c.toNat fun e => e.send wire v).retire

/-- CHPUSH (R302). -/
def execChpush (a : BitVec 5) (c : BitVec 6) (s : State) : Host.Outcome State Fault Refusal := s.onSeq fun b => chpushCore b a c s

def chpopCore (b : Nat) (d : BitVec 5) (c : BitVec 6) (s : State) : Except Stop State := do
  let e := (s.bay b).ep c.toNat
  guardE (e.bnd && e.dir) (trapC 0x65)
  match e.buf with
  | [] => .error .wait
  | (v, _) :: t =>
    let s := s.modEp b c.toNat fun e => { (e.setFree (e.free + 1)).giveCredit with buf := t, consumed := e.consumed + 1 }
    return (s.writeS d v).retire

/-- CHPOP (R303). -/
def execChpop (d : BitVec 5) (c : BitVec 6) (s : State) : Host.Outcome State Fault Refusal := s.onSeq fun b => chpopCore b d c s

/-- A credit returns at once for an element that takes no slot. -/
def dropElement (b ch : Nat) (s : State) : State := s.modEp b ch fun e => { e.giveCredit with consumed := e.consumed + 1 }

/-- The element enters the receive buffer. -/
def acceptElement (b ch : Nat) (tok : Token) (s : State) : State :=
  (s.modEp b ch fun e => { (e.setFree (e.free - 1)) with seq := e.seq + 1, buf := e.buf ++ [tok] }).modBay b fun y => y.event evChan

/-- A resync starts at a channel: the sender stops sending (R305). -/
def startResync (b ch : Nat) (s : State) : State := s.modEp b ch fun e => { e with resync := true }

/-- The sender's SEQ of a channel. -/
def senderSeq (b ch : Nat) (s : State) : Word :=
  let e := (s.bay b).ep ch
  if e.dir then
    match (s.lathAt e.peer.toNat).channelPort true (s.bay b).index ch with
    | some j => word (Tab.get 0 ((s.lathAt e.peer.toNat).outPort j).seqs e.thread.toNat).toNat
    | none => 0
  else word e.seq.toNat

/-- An element that reaches an endpoint is checked (R304). -/
def checkElement (b ch : Nat) (tok : Token) (s : State) : State :=
  let e := (s.bay b).ep ch
  let aux := word tok.2.toNat
  if !e.bnd || !e.dir then dropElement b ch s
  else if tagCtx tok.2 ≠ e.ctx.toNat then dropElement b ch (s.endpointFault b ch 0x60 aux)
  else if tagThread tok.2 ≠ e.thread.toNat then dropElement b ch (s.endpointFault b ch 0x66 aux)
  else match seqOrder e.seq.toNat (tagSeq tok.2) with
    | .below => dropElement b ch s
    | .above => startResync b ch (dropElement b ch (s.endpointFault b ch 0x61 (senderSeq b ch s)))
    | .equal => acceptElement b ch tok s

/-- The bay's job, or its primary copy, holds lath `n` (R301, R328). -/
def State.ownsLath (s : State) (b n : Nat) : Bool :=
  (s.bay b).slot.isSome && (s.lathAt n).slot == (s.bay b).slot.map (· % 1024)

/-- The oldest element on its way from the lath to channel `ch` of bay `b` arrives. In a paired job it arrives at both copies (R455). -/
def elementArrival (b ch : Nat) (s : State) : State :=
  let y := s.bay b
  let n := (y.ep ch).peer.toNat
  let x := s.lathAt n
  if !s.ownsLath b n then s
  else match x.channelPort true y.index ch with
  | none => s
  | some j =>
    let p := x.outPort j
    match p.wire with
    | [] => s
    | tok :: t =>
      let s := checkElement b ch tok (s.setLath n (x.setOut j { p with wire := t }))
      if y.paired then match s.twinBay b with
        | some b' => checkElement b' ch tok s
        | none => s
      else s

/-- CHANNEL_ELEMENT_ARRIVAL (R304). -/
def execChannelElementArrival (bay ch : Nat) (s : State) : Host.Outcome State Fault Refusal := .next (elementArrival bay ch s)

/-! ### Links between laths (R331): the credits, audits and resyncs of channels. A link is named by its output port; where an event names
a bay of 64 or more, it names the link from output port `ch` of lath `bay - 64` -/

/-- The input port that an output port of a lath feeds. -/
def State.linkDest (s : State) (n o : Nat) : Option (Nat × Nat) :=
  let w := (s.lathAt n).portWord (4 + o)
  if pwKind w == 2 then some (pwPeer w, pwPort w) else none

def linkKey (n o : Nat) : Nat := n * 4 + o

def InPort.source (p : InPort) (k : Nat) : Source := (p.sources.find? fun x => x.src = k).getD { src := k }

/-- Change what an input port holds of a source. -/
def InPort.modSource (p : InPort) (k : Nat) (f : Source → Source) : InPort :=
  if p.sources.any fun x => x.src = k then { p with sources := p.sources.map fun x => if x.src = k then f x else x }
  else { p with sources := p.sources ++ [f { src := k }] }

def State.modSource (s : State) (n i k : Nat) (f : Source → Source) : State :=
  let x := s.lathAt n
  s.setLath n (x.setIn i ((x.inPort i).modSource k f))

def Source.giveCredit (x : Source) : Source :=
  if x.audit.isSome || x.answer.isSome then { x with behind := x.behind + 1 } else { x with credits := x.credits + 1 }

/-- The cause of a lath's token or link, in the sequencer of logical bay 0 of the job that holds the lath (R330). -/
def State.lathCause (s : State) (n cause : Nat) (aux : Word) : State :=
  match (s.lathAt n).slot with
  | some j => s.lathPend j { cause := BitVec.ofNat 8 cause, eng := 5, unit := BitVec.ofNat 8 n, aux := aux }
  | none => s.fmOther n

def linkCredit (n o : Nat) (s : State) : State :=
  match s.linkDest n o with
  | none => s
  | some (m, i) =>
    let x := ((s.lathAt m).inPort i).source (linkKey n o)
    if x.credits = 0 || x.answer.isSome then s
    else
      let s := s.modSource m i x.src fun x => { x with credits := x.credits - 1 }
      let y := s.lathAt n
      s.setLath n (y.setOut o { y.outPort o with credits := (y.outPort o).credits + 1 })

def linkAudit (n o : Nat) (s : State) : State :=
  match s.linkDest n o with
  | none => s
  | some (m, i) =>
    let x := ((s.lathAt m).inPort i).source (linkKey n o)
    if x.audit.isSome || x.resync || decide (s.clock < x.auditAt + 4096) then s
    else s.modSource m i x.src fun x => { x with audit := some x.consumed, auditAt := s.clock }

/-- A failed check of a link raises CHANNEL_SLOT for the receiving lath; no token is concerned, so FREC2 takes the sender's count of tokens
sent (log 26). -/
def linkCheck (n o : Nat) (s : State) : State :=
  match s.linkDest n o with
  | none => s
  | some (m, i) =>
    let x := ((s.lathAt m).inPort i).source (linkKey n o)
    match x.audit with
    | none => s
    | some k =>
      if x.credits ≠ 0 || x.resync then s
      else
        let p := (s.lathAt n).outPort o
        let good := (p.credits + (p.sent.toNat + 65536 - k.toNat) % 65536) % 65536 == 64
        let s := s.modSource m i x.src fun x => { x with audit := none, credits := x.behind, behind := 0 }
        if good then s
        else (s.modSource m i x.src fun x => { x with resync := true }).lathCause m 0x61 (word p.sent.toNat)

def linkReturn (n o : Nat) (s : State) : State :=
  match s.linkDest n o with
  | none => s
  | some (m, i) =>
    let x := ((s.lathAt m).inPort i).source (linkKey n o)
    if !x.resync || x.answer.isSome || !((s.lathAt n).outPort o).wire.isEmpty then s
    else s.modSource m i x.src fun x => { x with answer := some (64 - x.buf.length, x.expect, x.consumed), credits := 0, behind := 0, audit := none }

/-- Replay copies of every thread from the receiver's expected sequence onward. -/
def resendAll (expect : List (Nat × BitVec 16)) (l : List Token) : List Token :=
  l.filter fun t => seqOrder (Tab.get 0 expect (tagThread t.2)).toNat (tagSeq t.2) ≠ .below

def linkApply (n o : Nat) (s : State) : State :=
  match s.linkDest n o with
  | none => s
  | some (m, i) =>
    let x := ((s.lathAt m).inPort i).source (linkKey n o)
    match x.answer with
    | none => s
    | some (free, expect, taken) =>
      let y := s.lathAt n
      let p := y.outPort o
      let l := resendAll expect p.replay
      let p := { p with
        credits := free - l.length, wire := l
        sent := taken + BitVec.ofNat 16 (64 - free) + BitVec.ofNat 16 l.length }
      (s.setLath n (y.setOut o p)).modSource m i x.src fun x => { x with resync := false, answer := none, credits := x.behind, behind := 0 }

/-- One credit reaches the sender: the bay for an out channel, the lath for an in channel, to which the two copies of a paired job return one
credit together (R455). -/
def creditReturn (b ch : Nat) (s : State) : State :=
  let e := (s.bay b).ep ch
  let mate : Option Nat := if e.dir && (s.bay b).paired then s.twinBay b else none
  if e.credits = 0 || e.answer.isSome || !s.ownsLath b e.peer.toNat || mate.any (fun t => ((s.bay t).ep ch).credits == 0) then s
  else
    let spend (s : State) (b : Nat) : State := s.modEp b ch fun e => { e with credits := e.credits - 1 }
    let s := (mate.toList).foldl spend (spend s b)
    if e.dir then
      let x := s.lathAt e.peer.toNat
      match x.channelPort true (s.bay b).index ch with
      | some j => s.setLath e.peer.toNat (x.setOut j { x.outPort j with credits := (x.outPort j).credits + 1 })
      | none => s
    else
      let add (e : Endpoint) : Endpoint := e.setFree (e.free + 1)
      let s := s.modEp b ch add
      if (s.bay b).paired then match s.twinBay b with
        | some b' => s.modEp b' ch add
        | none => s
      else s

/-- CREDIT_RETURN (R301). -/
def execCreditReturn (bay ch : Nat) (s : State) : Host.Outcome State Fault Refusal :=
  .next (if bay < 64 then creditReturn bay ch s else linkCredit (bay - 64) ch s)

/-- Every 4,096 clk the receiver sends its consumed count, behind every credit returned before it. -/
def channelAudit (b ch : Nat) (s : State) : State :=
  let e := (s.bay b).ep ch
  if !e.bnd || e.audit.isSome || e.resync || decide (s.clock < e.auditAt + 4096) then s
  else s.modEp b ch fun e => { e with audit := some e.consumed, auditAt := s.clock }

/-- CHANNEL_AUDIT (R305). -/
def execChannelAudit (bay ch : Nat) (s : State) : Host.Outcome State Fault Refusal :=
  .next (if bay < 64 then channelAudit bay ch s else linkAudit (bay - 64) ch s)

/-- FREE and the sent count as the sender holds them, and whether the parity of FREE is right. -/
def senderState (b ch : Nat) (s : State) : Nat × Nat × Bool :=
  let e := (s.bay b).ep ch
  if e.dir then
    match (s.lathAt e.peer.toNat).channelPort true (s.bay b).index ch with
    | some j => let p := (s.lathAt e.peer.toNat).outPort j; (p.credits, p.sent.toNat, true)
    | none => (e.cap.toNat, e.consumed.toNat, true)
  else (e.free.toNat, e.sent.toNat, e.fpar == parity7 e.free)

/-- The sender checks an audit once the credits ahead of it have arrived. -/
def auditCheck (b ch : Nat) (s : State) : State :=
  let e := (s.bay b).ep ch
  match e.audit with
  | none => s
  | some n =>
    if e.credits ≠ 0 || e.resync then s
    else
      let (free, sent, par) := senderState b ch s
      let good := par && (free + (sent + 65536 - n.toNat) % 65536) % 65536 == e.cap.toNat
      let s := s.modEp b ch fun e => { e with audit := none, credits := e.behind, behind := 0 }
      if good then s else startResync b ch (s.endpointFault b ch 0x61 (senderSeq b ch s))

/-- AUDIT_CHECK (R305). -/
def execAuditCheck (bay ch : Nat) (s : State) : Host.Outcome State Fault Refusal :=
  .next (if bay < 64 then auditCheck bay ch s else linkCheck (bay - 64) ch s)

/-- The input port that takes an out channel's elements, and its source (R331). -/
def channelSource (b ch : Nat) (s : State) : Option (Nat × Nat × Source) :=
  let y := s.bay b
  let n := (y.ep ch).peer.toNat
  match (s.lathAt n).channelPort false y.index ch with
  | some i => some (n, i, (((s.lathAt n).inPort i).sources.find? fun x => x.src = ch).getD { src := ch })
  | none => none

/-- Elements of a channel that have not landed yet. -/
def channelWire (b ch : Nat) (s : State) : List Token :=
  let y := s.bay b
  let e := y.ep ch
  if e.dir then
    match (s.lathAt e.peer.toNat).channelPort true y.index ch with
    | some j => ((s.lathAt e.peer.toNat).outPort j).wire
    | none => []
  else e.wire

/-- The receiver's FREE and SEQ are sent back once every element has landed; they subsume the credits that are on their way. -/
def resyncReturn (b ch : Nat) (s : State) : State :=
  let e := (s.bay b).ep ch
  if !e.resync || e.answer.isSome || !(channelWire b ch s).isEmpty then s
  else
    let a : BitVec 7 × BitVec 16 × BitVec 16 :=
      if e.dir then (e.free, e.seq, e.consumed)
      else match channelSource b ch s with
        | some (_, _, x) => (BitVec.ofNat 7 (64 - x.buf.length), Tab.get 0 x.expect e.thread.toNat, e.consumed)
        | none => (e.cap, e.seq, e.consumed)
    s.modEp b ch fun e => { e with answer := some a, credits := 0, behind := 0, audit := none }

/-- RESYNC_RETURN (R305). -/
def execResyncReturn (bay ch : Nat) (s : State) : Host.Outcome State Fault Refusal :=
  .next (if bay < 64 then resyncReturn bay ch s else linkReturn (bay - 64) ch s)

/-- Replay copies from a sequence number onward. -/
def resend (seq : Nat) (l : List Token) : List Token := l.filter fun t => seqOrder seq (tagSeq t.2) ≠ .below

/-- The sender takes over the receiver's FREE and sends its replay copies again from SEQ; each of them takes up one of those slots, so that
FREE = CAP - (sent - consumed) holds again, which the next audit checks (R305; log 95). -/
def resyncApply (b ch : Nat) (s : State) : State :=
  let e := (s.bay b).ep ch
  match e.answer with
  | none => s
  | some (free, seq, taken) =>
    let done (e : Endpoint) : Endpoint := { e with resync := false, answer := none, credits := e.behind, behind := 0 }
    if e.dir then
      let x := s.lathAt e.peer.toNat
      match x.channelPort true (s.bay b).index ch with
      | none => s.modEp b ch done
      | some j =>
        let p := x.outPort j
        let l := resend seq.toNat p.replay
        let p := { p with
          credits := free.toNat - l.length, wire := l
          sent := taken + (e.cap.zeroExtend 16 - free.zeroExtend 16) + BitVec.ofNat 16 l.length }
        (s.setLath e.peer.toNat (x.setOut j p)).modEp b ch done
    else
      let l := resend seq.toNat e.replay
      s.modEp b ch fun e => { ((done e).setFree (free - BitVec.ofNat 7 l.length)) with
        wire := l, sent := taken + (e.cap.zeroExtend 16 - free.zeroExtend 16) + BitVec.ofNat 16 l.length }

/-- RESYNC_APPLY (R305). -/
def execResyncApply (bay ch : Nat) (s : State) : Host.Outcome State Fault Refusal :=
  .next (if bay < 64 then resyncApply bay ch s else linkApply (bay - 64) ch s)

end Sys2Proof.Machine
end

