-- ==== Sys2Proof/Machine/Record.lean ====
section
/-! DEFINITION. Record and replay at the decision points (spec/25_safety.md R461 to R463). -/

namespace Sys2Proof.Machine

/-! ### The log descriptor (R461) -/

def Part.logMode (x : Part) : Nat := bits x.logw0 1 0
def Part.logOvr (x : Part) : Bool := bit x.logw0 2
def Part.logSize (x : Part) : Nat := 2 ^ (bits x.logw0 7 4 + 8)
def Part.logBase (x : Part) : Nat := dramAddr (bits x.logw0 63 16 * 4096)
def Part.wptr (x : Part) : Nat := bits x.logw1 31 0
def Part.rptr (x : Part) : Nat := bits x.logw1 63 32

/-- Entries of the ring that no recorded entry holds: those that a replay has consumed are free again (log 56). -/
def Part.logFree (x : Part) : Nat := x.logSize - (x.wptr - x.rptr)

/-- Where entry `i` stands: the ring holds 2^(LOGN + 8) entries. -/
def Part.logAt (x : Part) (i : Nat) : Nat := x.logBase + 16 * (i % x.logSize)

/-- One entry (R462). -/
structure LogEntry where
  kind : Nat
  unit : Nat
  slot : Nat
  choice : Nat
deriving DecidableEq, Repr

def State.logEntry (s : State) (x : Part) (i : Nat) : LogEntry :=
  let a := s.rd (x.logAt i) 8
  ⟨a % 256, a / 2 ^ 16 % 65536, a / 2 ^ 32 % 256, s.rd (x.logAt i + 8) 8⟩

def logOverrun : Nat := 0xFF

/-- The entries that no replay has consumed. -/
def State.logLeft (s : State) (x : Part) : List (Nat × LogEntry) :=
  ((List.range x.wptr).filter fun i => !x.replayed.contains i).map fun i => (i, s.logEntry x i)

/-- Of these the valid ones: those before the marker LOG_OVERRUN (R462). -/
def State.logList (s : State) (x : Part) : List (Nat × LogEntry) := (s.logLeft x).takeWhile fun e => e.2.kind ≠ logOverrun

/-! ### What a decision point has to do -/

inductive Says where
  /-- no replay: the unit decides freely. -/
  | free
  /-- replay: this is the logged choice, and the entry's index. -/
  | must (choice index : Nat)
  /-- replay: the log holds no entry for the unit. -/
  | mismatch
deriving DecidableEq, Repr

/-- The next entry of a unit that is not consumed. Each kind has units of its own, so a unit's entries all have its kind. -/
def State.logSays (s : State) (p kind unit : Nat) : Says :=
  let x := s.part p
  if x.logMode ≠ 2 then .free
  else match (s.logList x).find? fun (_, e) => e.kind = kind && e.unit = unit with
    | some (i, e) => .must e.choice i
    | none => .mismatch

/-- Record one entry; the last free entry takes LOG_OVERRUN, and 0x62 is logged (R462). With no entry free nothing is written. -/
def State.logWrite (s : State) (p kind unit slot choice : Nat) : State :=
  let x := s.part p
  let full := decide (x.logFree ≤ 1)
  let k := if full then logOverrun else kind
  let c := if full then s.clk.time.toNat else choice
  let l := natBytes 8 (k + at_ (if full then 0 else unit % 65536) 16 + at_ (if full then 0 else slot % 256) 32) ++ natBytes 8 c
  let s := if x.logFree = 0 then s else (s.write (x.logAt x.wptr) l).modPart p fun x => { x with logw1 := x.logw1 + 1 }
  let s := s.modPart p fun x => { x with logw0 := if full then x.logw0 ||| 4 else x.logw0 }
  if full then s.fmOther 0x62 else s

/-- Entry `i` is consumed. -/
def Part.logDone (x : Part) (i : Nat) : Part := { x with replayed := i :: x.replayed, logw1 := x.logw1 + 0x100000000 }

/-- The replay reaches LOG_OVERRUN once every entry before it is consumed: the marker is consumed too, and MODE becomes 0. -/
def State.logEnd (s : State) (p : Nat) : State :=
  match s.logLeft (s.part p) with
  | (i, e) :: _ => if e.kind = logOverrun then s.modPart p fun x => { x.logDone i with stuck := [], logw0 := x.logw0 &&& ~~~ (3 : Word) } else s
  | [] => s

/-- A unit takes its entry `i`: it waits no longer. -/
def State.logTake (s : State) (p i : Nat) : State :=
  let e := s.logEntry (s.part p) i
  (s.modPart p fun x => { x.logDone i with stuck := x.stuck.filter fun (k, u, _) => k != e.kind || u != e.unit }).logEnd p

/-- A decision has been made: record it, or consume the entry that it follows. -/
def State.decided (s : State) (p kind unit slot choice : Nat) : State :=
  match s.logSays p kind unit with
  | .free => if (s.part p).logMode = 1 && !(s.part p).logOvr then s.logWrite p kind unit slot choice else s
  | .must _ i => s.logTake p i
  | .mismatch => s

/-- The replay mismatches: every stream, lath and jointer of the partition stops at its next boundary (R463). -/
def State.freeze (s : State) (p slot : Nat) : State :=
  let x := s.part p
  s.setPart p { x with frozen := some slot, logw0 := x.logw0 ||| 8 }

/-- The logged choice is not possible yet: note since when the unit has waited. -/
def State.logStuck (s : State) (p kind unit slot : Nat) : State :=
  let x := s.part p
  if x.stuck.any fun (k, u, _) => k = kind && u = unit then s
  else s.setPart p { x with stuck := (kind, unit, slot, s.clk.time) :: x.stuck }

/-- A unit that leaves with its job no longer waits for its choice. -/
def Part.unstick (x : Part) (n : Nat) : Part := { x with stuck := x.stuck.filter fun (k, _, slot, _) => (k != 1 && k != 3) || slot != n }

/-- A logged choice has been impossible for 1 ms. -/
def replayTimeout (p : Nat) (s : State) : State :=
  match (s.part p).stuck.find? fun (_, _, _, t) => decide (s.clk.time.toNat ≥ t.toNat + 1000000) with
  | some (k, u, slot, _) =>
    if (s.part p).logMode = 2 then
      match s.logSays p k u with
      | .must _ i => s.freeze p (s.logEntry (s.part p) i).slot
      | _ => s.freeze p slot
    else s
  | none => s

/-- REPLAY_TIMEOUT (R463). -/
def execReplayTimeout (part : Nat) (s : State) : Host.Outcome State Fault Refusal := .next (replayTimeout part s)

end Sys2Proof.Machine
end

