-- ==== Sys2Proof/Machine/Time.lean ====
section
/-! DEFINITION. The two clocks: the main clock with the schedule-frame counters (spec/18_counters.md R402), and device time (R388,
R389). They advance by choices of the agenda (log 4). -/

namespace Sys2Proof.Machine

/-- One main clock in a partition: CLK counts up, and at the frame origin it is 0, FNUM counts, and a new FRAMELEN takes effect (R402). -/
def Part.tick (x : Part) : Part :=
  if !x.up then x
  else if x.sfcClk.toNat + 1 < x.framelen.toNat then { x with sfcClk := x.sfcClk + 1 }
  else { x with sfcClk := 0, fnum := x.fnum + 1, framelen := x.framePend.getD x.framelen, framePend := none, due := x.det }

/-- A frame origin passes at this clock. -/
def Part.wraps (x : Part) : Bool := x.up && decide (x.framelen.toNat ≤ x.sfcClk.toNat + 1)

/-- The 12 µs of a move have run out, while a job of the partition runs (R370). -/
def State.overdue (s : State) (p : Nat) (m : Move) : Bool :=
  decide (s.clock ≥ m.since + 38400) && s.jobs.any fun (_, j) => j.part == p && j.state == .run

/-- The Framer keeps MIG set for no longer than that: a move that has not ended by then is given up (R370). An updated Framer changes nothing before
its first heartbeat (R472). -/
def State.endMoves (s : State) : State :=
  let late := s.parts.flatMap fun (p, x) => (x.moves.filter (s.overdue p))
  if late.isEmpty || s.foreman.started then s
  else
    let s := { s with parts := s.parts.map fun (p, x) => (p, { x with moves := x.moves.filter fun m => !late.contains m }) }
    late.foldl (fun s m => s.clearMig m.slot m.tid m.entry) s

/-- One main clock. The frame origin sets EVPEND.FRAME in the partition's bays (R202, R402). No clock passes before the schedule slots of a
deterministic partition's frame origin have been taken, which is the step SCHEDULE_FRAME_ORIGIN (log 4). -/
def State.tickClock (s : State) : State :=
  if s.parts.any fun (_, x) => x.up && x.due then s
  else State.endMoves { s with
    clock := s.clock + 1, parts := s.parts.map fun (p, x) => (p, x.tick)
    bays := s.bays.map fun (b, y) => (b, if y.live && (s.part y.partNo).wraps then y.event evFrame else y) }

/-- Nanoseconds that a rate of `ppm` parts per million adds while the oscillator passes from `n` to `m` nanoseconds. -/
def ratePart (ppm : Int) (n m : Nat) : Int := ppm * m / 1000000 - ppm * n / 1000000

/-- `ns` nanoseconds of the local oscillator. The trim of the rate and slewing together move TIME by at most 200 parts per million, so the
count never decreases (R389). -/
def Clock.pass (c : Clock) (ns : Nat) : Clock :=
  let n := c.oscillator
  let k := ratePart 200 n (n + ns)
  let trim := ratePart c.rate n (n + ns)
  let move := max (-k) (min k (trim + c.slew))
  { c with
    oscillator := (n + ns) % 1000000, slew := c.slew - (move - trim)
    time := c.time + BitVec.ofInt 64 (max 0 ((ns : Int) + move)) }

def State.passTime (s : State) (ns : Nat) : State := { s with clk := s.clk.pass ns }

/-- SFC of a partition as CTRR reads it (R402, R410). -/
def Part.sfc (x : Part) : Word := word (x.sfcClk.toNat + at_ x.fnum.toNat 16)

/-- The absolute clock of the partition's current frame origin. -/
def State.origin (s : State) (p : Nat) : Nat := s.clock - (s.part p).sfcClk.toNat

end Sys2Proof.Machine
end

