-- ==== Sys2Proof/Machine/Counters.lean ====
section
/-! DEFINITION. Stream counters, bounded waits, the square, barrier objects and counter reads (spec/18_counters.md R388 to R410). -/

namespace Sys2Proof.Machine

/-! ### Stream counters (R391) -/

def State.rowWord (s : State) (n : Nat) : Word := Tab.get 0 s.rowcnt n
def rwRows (c : Word) : Nat := bits c 15 0
def rwDone (c : Word) : Bool := bit c 16
def rwFrame (c : Word) : Nat := bits c 63 32
def mkRow (frame rows : Nat) (done : Bool) : Word := word (rows % 65536 + at_ (b2n done) 16 + at_ (frame % 2 ^ 32) 32)

def State.setRow (s : State) (n : Nat) (v : Word) : State := { s with rowcnt := Tab.set 0 s.rowcnt n v }

/-- Frame `x` has passed frame `f`, modulo 2^32. -/
def passedFrame (x f : Nat) : Bool :=
  let d := (x + 2 ^ 32 - f % 2 ^ 32) % 2 ^ 32
  decide (1 ≤ d) && decide (d < 2 ^ 31)

def rowpubCore (b : Nat) (a r : BitVec 5) (s : State) : Except Stop State := do
  let y := s.bay b
  let n := bits (s.readS a) 5 0
  let f := bits (s.readS a) 63 32
  let v := s.readS r
  let rows := bits v 15 0
  let done := bit v 16
  let c := s.chain n
  guardE (!chainEn c && chainPart c == y.partNo) (trapC 0x86)
  let old := s.rowWord n
  let back := passedFrame (rwFrame old) f || (f == rwFrame old && (decide (rows < rwRows old) || (rwDone old && !done)))
  guardE (!back) (trapC 0x02)
  guardE y.stores.isEmpty .hold
  let new := mkRow f rows done
  s.mergedOp b false [2, word n, new] (fun s => .ok (0, s.setRow n new)) fun _ s => s.retire

/-- ROWPUB (R392). -/
def execRowpub (a b : BitVec 5) (s : State) : Host.Outcome State Fault Refusal := s.onSeq fun n => rowpubCore n a b s

/-! ### Barrier objects (R408, R409) -/

/-- Elements that hold 16 bytes. -/
def objElems (w : Nat) : Nat := 128 / w

/-- Place object `i` for an update or for a read: its 16 bytes lie together and 16-byte aligned at their home. -/
def barPlace (c : Ctx) (v : View) (write : Bool) (i : Int) (s : State) : Except Stop Span :=
  let n := objElems v.width
  let e0 : Int := i * n
  match earlySpace v spBar with
  | .error e => .error e
  | .ok _ =>
    if i < 0 ∨ (e0 + n) > v.count then .error (v.outside 2 e0)
    else
      let es := (List.range n).map fun k => v.coordsOf (e0.toNat + k)
      if es.any fun x => !v.inside (x.map Int.ofNat) then .error (v.outside 2 e0)
      else match s.placeElems c v 2 write spBar es with
        | .error e => .error e
        | .ok l =>
          let ss := l.flatMap id
          let a := (ss.headD ⟨0, 0, ⟨0, 0, 0⟩⟩)
          let run := (List.range n).all fun k => ((nth a ss (k * ss.length / n)).loc.addr) == a.loc.addr + k * v.width / 8
          if a.loc.addr % 16 == 0 && run then .ok { a with n := 16 }
          else .error (trapT 0xA3 v.tid 0 false)

def barView (b : Nat) (h : BitVec 4) (s : State) : Except Stop View := do
  let v ← s.viewH (s.bayCtx b) (s.handleWords b h.toNat)
  v.plainE
  return v

/-- A barrier object's two words. -/
def oExp (o : Nat) : Nat := o % 128
def oArr (o : Nat) : Nat := o / 2 ^ 7 % 128
def oPh (o : Nat) : Nat := o / 2 ^ 14 % 16
def oOvr (o : Nat) : Bool := o.testBit 18
def oFl (o : Nat) : Nat := o / 2 ^ 20 % 256
def oBay (o : Nat) : Nat := o / 2 ^ 32 % 128
def oOph (o : Nat) : Nat := o / 2 ^ 39 % 16

/-- A malformed object (R408). -/
def barBad (o : Nat) : Bool :=
  oExp o == 0 || decide (oArr o ≥ oExp o) || o.testBit 19 || o / 2 ^ 28 % 16 != 0 || o / 2 ^ 43 % 2 ^ 21 != 0

def mkBar (exp arr ph : Nat) (ovr : Bool) (fl bay oph sfcl : Nat) : Nat :=
  exp + at_ arr 7 + at_ ph 14 + at_ (b2n ovr) 18 + at_ fl 20 + at_ bay 32 + at_ oph 39 + at_ sfcl 64

/-- An arrival of `n` at an object that is not malformed: the object after it, and the excess. -/
def barArrive (o n flags bay sfc : Nat) : Nat × Nat :=
  let fl := oFl o ||| flags
  let rem := oExp o - oArr o
  if n < rem then (mkBar (oExp o) (oArr o + n) (oPh o) (oOvr o) fl (oBay o) (oOph o) (o / 2 ^ 64), 0)
  else
    let spill := decide (n > rem)
    (mkBar (oExp o) 0 ((oPh o + 1) % 16) (oOvr o || spill) fl (if spill then bay else oBay o) (if spill then oPh o else oOph o) sfc, n - rem)

def State.readBar (s : State) (x : Span) : Nat := s.rd x.loc.addr 16

def State.writeBar (s : State) (c : Ctx) (tid : Nat) (x : Span) (o : Nat) : State := s.writeSpan c tid x (natBytes 16 o)

/-- One atomic arrival; 2^63 answers that the object is malformed, any other number is the excess. -/
def barPerform (c : Ctx) (tid : Nat) (x : Span) (n flags bay sfc : Nat) (s : State) : Word × State :=
  let o := s.readBar x
  if barBad o then (0x8000000000000000, s)
  else
    let (o', k) := barArrive o n flags bay sfc
    (word k, s.writeBar c tid x o')

def barinitCore (b : Nat) (a : BitVec 5) (h : BitVec 4) (e : BitVec 7) (s : State) : Except Stop State := do
  guardE (e != 0) (trapC 0x02)
  let v ← barView b h s
  let x ← barPlace (s.bayCtx b) v true (s.readS a).toInt s
  guardE (s.bay b).stores.isEmpty .hold
  return (s.writeBar (s.bayCtx b) v.tid x e.toNat).retire

/-- BARINIT (R409). -/
def execBarinit (a : BitVec 5) (h : BitVec 4) (e : BitVec 7) (s : State) : Host.Outcome State Fault Refusal :=
  s.onSeq fun b => barinitCore b a h e s

/-- What BARARR does with the answer of its arrival: retire, or take BARRIER_ALIGN or BARRIER_OVERRUN. -/
def bararrFinish (b tid : Nat) (i : Word) (r : Word) (s : State) : State :=
  if r = 0 then s.retire
  else if bit r 63 then s.trapNow b { cause := 0xA3, tid := BitVec.ofNat 16 tid }
  else s.trapNow b { cause := 0xA1, tid := BitVec.ofNat 16 tid, wher := i, aux := r }

def bararrCore (b : Nat) (a : BitVec 5) (h : BitVec 4) (n : BitVec 4) (s : State) : Except Stop State := do
  guardE (n != 0) (trapC 0x02)
  let v ← barView b h s
  let i := s.readS a
  let x ← barPlace (s.bayCtx b) v true i.toInt s
  let y := s.bay b
  guardE y.stores.isEmpty .hold
  s.mergedOp b (eSpace v.w == 0) [3, i, word n.toNat, y.flags.zeroExtend 64]
    (fun s => .ok (barPerform (s.bayCtx b) v.tid x n.toNat y.flags.toNat y.index (s.part y.partNo).sfc.toNat s))
    (bararrFinish b v.tid i)

/-- BARARR (R409). -/
def execBararr (a : BitVec 5) (h : BitVec 4) (n : BitVec 4) (s : State) : Host.Outcome State Fault Refusal :=
  s.onSeq fun b => bararrCore b a h n s

/-! ### The square: descriptors and tiles (R395 to R399, R359) -/

/-- Members of a descriptor. -/
def sqMembers (w : List Word) : List Nat :=
  (List.range (bits (nth 0 w 0) 7 4 + 1)).map fun m => bits (nth 0 w (2 + m / 8)) (8 * (m % 8) + 5) (8 * (m % 8))

/-- Where the bytes of an element range of a tensor stand, one address each; none where it cannot be placed. -/
def State.byteAddrs (s : State) (c : Ctx) (v : View) (es : List (List Nat)) : Option (List Nat) :=
  match s.placeElems c v 2 false 0x08 es with
  | .ok l => some (l.map fun x => (x.headD ⟨0, 0, ⟨0, 0, 0⟩⟩).loc.addr)
  | .error _ => none

/-- Addresses of the 288 bytes of a group's record: a SILL tensor of w8 (R395, R397). -/
def sqRecord (b : Nat) (rtid : Nat) (s : State) : Option (List Nat) :=
  match s.viewOf (s.bayCtx b) rtid 0 false 0 0 with
  | .ok v =>
    if v.fmt = 0x0A && eSpace v.w = 3 && decide (v.count ≥ 288) then s.byteAddrs (s.bayCtx b) v ((List.range 288).map v.coordsOf)
    else none
  | .error _ => none

/-- The descriptor fails R395. -/
def sqBad (s : State) (part : Nat) (w : List Word) : Bool :=
  let ms := sqMembers w
  let w0 := nth 0 w 0
  let w1 := nth 0 w 1
  !bit w0 0 || bits w0 3 1 != part || bits w0 63 24 != 0 || decide (bits w1 63 32 < bits w1 31 0) ||
  (List.range 16).any (fun m => bits (nth 0 w (2 + m / 8)) (8 * (m % 8) + 7) (8 * (m % 8) + 6) != 0) ||
  !ms.Nodup || ms.any fun m => !chainEn (s.chain m) || chainPart (s.chain m) != part

/-- The header tensor of a chain: SILL, w8 [RING, 512] (R352, R359). -/
def State.headerView (s : State) (c : Nat) : Option View :=
  match s.viewOf (s.chainCtx c) (bits (nth 0 (s.chain c).w 1) 63 48) 0 false 0 0 with
  | .ok v => some v
  | .error _ => none

/-- Address of a header byte. -/
def State.headerAt (s : State) (c slot i : Nat) : Option Nat :=
  match s.headerView c with
  | none => none
  | some v => match s.byteAddrs (s.chainCtx c) v [[slot, i]] with
    | some (a :: _) => some a
    | _ => none

def State.headerByte (s : State) (c slot i : Nat) : Nat :=
  match s.headerAt c slot i with
  | some a => (Memory.read s.mem a).toNat
  | none => 0

/-- `n` header bytes as a number. -/
def State.headerNum (s : State) (c slot i : Nat) : Nat → Nat
  | 0 => 0
  | n + 1 => s.headerByte c slot i + 256 * s.headerNum c slot (i + 1) n

/-- A closed tile of a stream. -/
structure Tile where
  slot : Nat
  time : Nat
  frame : Nat
deriving DecidableEq, Repr

def chainRing (c : Chain) : Nat := bits (nth 0 c.w 0) 29 26

def State.closedTiles (s : State) (c : Nat) : List Tile :=
  (List.range (chainRing (s.chain c))).filterMap fun k =>
    if s.headerByte c k 20 % 2 = 1 then some ⟨k, s.headerNum c k 0 8, s.headerNum c k 12 4⟩ else none

/-- R397: the tile qualifies. -/
def Tile.fits (t : Tile) (tgt win : Nat) : Bool := decide (tgt ≤ t.time + win) && decide (t.time ≤ tgt + win)

def Tile.away (t : Tile) (tgt : Nat) : Nat := if t.time ≤ tgt then tgt - t.time else t.time - tgt

/-- The better of two qualifying tiles: the nearer, and of two as near the earlier. -/
def Tile.nearer (tgt : Nat) (a b : Tile) : Tile :=
  if b.away tgt < a.away tgt || (b.away tgt = a.away tgt && b.time < a.time) then b else a

def bestOf (f : Tile → Tile → Tile) : List Tile → Option Tile
  | [] => none
  | t :: l => some (l.foldl f t)

/-- A member's entry: its tile, SUBST and MISSING (R398). -/
def sqChoose (s : State) (c tgt win : Nat) : Option Tile × Bool × Bool :=
  let l := s.closedTiles c
  match bestOf (Tile.nearer tgt) (l.filter fun t => t.fits tgt win) with
  | some t => (some t, false, false)
  | none =>
    match bestOf (fun a b => if passedFrame b.frame a.frame then b else a) (l.filter fun t => decide (t.time ≤ tgt + win)) with
    | some t => (some t, true, false)
    | none => (none, true, true)

/-- The entry that replay gives: a slot, or MISSING (R462). A slot that holds a qualifying tile is no substitution. -/
def sqForced (s : State) (c tgt win nib : Nat) : Option (Option Tile × Bool × Bool) :=
  if nib = 15 then some (none, true, true)
  else match (s.closedTiles c).find? fun t => t.slot = nib with
    | some t => some (some t, !t.fits tgt win, false)
    | none => none

/-- One member's 16 bytes of the record (R399). -/
def memberBytes (c : Nat) (e : Option Tile × Bool × Bool) : List Byte :=
  let flags := natBytes 1 (b2n e.2.1 + 2 * b2n e.2.2) ++ natBytes 1 0
  match e.1 with
  | some t => natBytes 8 t.time ++ natBytes 4 t.frame ++ natBytes 1 c ++ natBytes 1 t.slot ++ flags
  | none => natBytes 12 0 ++ natBytes 1 c ++ natBytes 1 0xFF ++ flags

/-- Bit m is set where `f` holds of member m. -/
def maskOf {α : Type} (f : α → Bool) : List α → Nat
  | [] => 0
  | x :: t => b2n (f x) + 2 * maskOf f t

def nibbles : List (Option Tile × Bool × Bool) → Nat
  | [] => 0
  | e :: t => (match e.1 with | some x => x.slot | none => 15) + 16 * nibbles t

def State.addHold (s : State) (c slot : Nat) : State :=
  { s with holds := Tab.set 0 s.holds (c * 8 + slot) (Tab.get 0 s.holds (c * 8 + slot) + 1) }

def State.dropHold (s : State) (c slot : Nat) : State :=
  { s with holds := Tab.set 0 s.holds (c * 8 + slot) (Tab.get 0 s.holds (c * 8 + slot) - 1) }

/-- Write bytes to listed addresses. -/
def State.writeAt (s : State) : List Nat → List Byte → State
  | a :: as, b :: bs => State.writeAt (s.write a [b]) as bs
  | _, _ => s

/-- EVPEND.SQR is set in bay ABAY of the arming job: in the device bay where it runs, or in its latest image while it is saved (R202, R398). -/
def State.squareEvent (s : State) (n i : Nat) : State :=
  let j := s.job n
  let b := nth 512 j.bays i
  if (s.bay b).slot = some n then (if (s.bay b).live then s.modBay b fun y => y.event evSqr else s)
  else
    let mark (a : SaveArea) : SaveArea := { a with bays := setNth a.bays i ((nth {} a.bays i).event evSqr) }
    s.setJob n (if j.latest then { j with area1 := j.area1.map mark } else { j with area0 := j.area0.map mark })

/-- The record of a completion is written, where the sill takes a write now; then READY is set (R398). -/
def sqWrite (g : Nat) (s : State) : State :=
  let x := s.group g
  if x.recAt.any s.writeWaits then s
  else ((s.writeAt x.recAt x.due).setGroup g { x with armed := false, ready := true, nrec := x.nrec + 1, due := [] }).squareEvent x.armer x.abay.toNat

/-- Complete a group with the chosen entries (R398, R399): the choice is logged and holds its tiles at once. -/
def sqFinish (g : Nat) (x : Group) (es : List (Option Tile × Bool × Bool)) (s : State) : State :=
  let ms := sqMembers x.copy
  let held := (ms.zip es).filterMap fun (c, e) => e.1.map fun t => (c, t.slot)
  let sub := maskOf (fun e => e.2.1) es
  let missing := maskOf (fun e => e.2.2) es
  let bytes := natBytes 8 x.tgt.toNat ++ natBytes 8 s.clk.time.toNat ++ natBytes 2 sub ++ natBytes 2 missing ++ natBytes 1 ms.length ++
    natBytes 11 0 ++ (ms.zip es).flatMap fun (c, e) => memberBytes c e
  let bytes := bytes ++ List.replicate (288 - bytes.length) 0
  let s := held.foldl (fun s (c, k) => s.addHold c k) s
  let s := s.setGroup g { x with
    held := held, subst := BitVec.ofNat 16 sub, missing := BitVec.ofNat 16 missing, due := bytes
    nsub := x.nsub + BitVec.ofNat 32 ((es.filter fun e => e.2.1).length) }
  sqWrite g (s.decided x.part.toNat 1 g x.slot.toNat (nibbles es))

/-- Complete a group by the square's own rule, or by the log's entry in a replay. -/
def sqComplete (g : Nat) (s : State) : State :=
  let x := s.group g
  let ms := sqMembers x.copy
  let win := bits (nth 0 x.copy 1) 31 0
  let tgt := x.tgt.toNat
  match s.logSays x.part.toNat 1 g with
  | .free => sqFinish g x (ms.map fun c => sqChoose s c tgt win) s
  | .mismatch => s.freeze x.part.toNat x.slot.toNat
  | .must k _ =>
    let es := (List.range ms.length).map fun m => sqForced s (nth 0 ms m) tgt win (k / 16 ^ m % 16)
    if es.all Option.isSome then sqFinish g x (es.filterMap id) s else s.logStuck x.part.toNat 1 g x.slot.toNat

/-- Every member has a qualifying tile. -/
def sqReady (g : Nat) (s : State) : Bool :=
  let x := s.group g
  (sqMembers x.copy).all fun c => (s.closedTiles c).any fun t => t.fits x.tgt.toNat (bits (nth 0 x.copy 1) 31 0)

/-- Device time has reached T + DL. -/
def sqDue (g : Nat) (s : State) : Bool := decide (s.clk.time.toNat ≥ (s.group g).tgt.toNat + bits (nth 0 (s.group g).copy 1) 63 32)

/-- An armed group whose condition holds completes, and one that has completed writes its record; a partition whose replay has mismatched stands
still (R463). -/
def sqSettle (g : Nat) (cond : State → Bool) (s : State) : State :=
  if (s.group g).armed && !(s.group g).due.isEmpty then sqWrite g s
  else if (s.group g).armed && cond s && (s.part (s.group g).part.toNat).frozen.isNone then sqComplete g s else s

/-- A close of a tile of stream `c` makes every member of an armed group have a qualifying tile (R397). -/
def squaresClosed (c : Nat) (s : State) : State :=
  (List.range 64).foldl (fun s g => if (sqMembers (s.group g).copy).contains c then sqSettle g (sqReady g) s else s) s

/-- Device time has reached the deadline of armed groups (R397). -/
def squaresDue (s : State) : State := (List.range 64).foldl (fun s g => sqSettle g (sqDue g) s) s

/-- SQUARE_COMPLETION (R398): an armed group whose members all have a qualifying tile. A close and SQARM complete the group at once; here it
completes where a replay has held it back, and its record is written where a copy of its slice has delayed that. -/
def execSquareCompletion (grp : Nat) (s : State) : Host.Outcome State Fault Refusal := .next (sqSettle grp (sqReady grp) s)

/-- SQUARE_DEADLINE (R397): device time has reached T + DL. -/
def execSquareDeadline (grp : Nat) (s : State) : Host.Outcome State Fault Refusal := .next (sqSettle grp (sqDue grp) s)

def sqarmCore (b : Nat) (a : BitVec 5) (g : BitVec 6) (s : State) : Except Stop State := do
  let y := s.bay b
  let x := s.group g.toNat
  guardE (!sqBad s y.partNo x.w && !x.armed && !x.ready) (trapC 0x3C)
  match sqRecord b (bits (nth 0 x.w 0) 23 8) s with
  | none => .error (trapC 0x3C)
  | some l =>
    let s := (s.setGroup g.toNat { x with
      armed := true, abay := BitVec.ofNat 6 y.index, slot := BitVec.ofNat 8 y.slotNo, tgt := s.readS a, copy := x.w, recAt := l
      part := BitVec.ofNat 3 y.partNo, armer := y.slotNo, held := [], due := [] }).retire
    return sqSettle g.toNat (fun s => sqReady g.toNat s || sqDue g.toNat s) s

/-- SQARM (R397): the group completes at once where its condition holds already. -/
def execSqarm (a : BitVec 5) (g : BitVec 6) (s : State) : Host.Outcome State Fault Refusal := s.onSeq fun b => sqarmCore b a g s

/-- The condition of a dependence on rows or on a square (R311). -/
def Dep.counts (s : State) (d : Dep) : Bool :=
  match d.kind with
  | 1 => let c := s.rowWord (d.a % 64)
         decide (d.a < 64) && (passedFrame (rwFrame c) d.b || (rwFrame c == d.b && decide (rwRows c ≥ bits d.c 15 0)))
  | 2 => let g := s.group d.a
         decide (d.a < 64) && g.ready && g.tgt == d.c
  | _ => false

/-- Dependences of waiting jobs whose condition holds by `f` are met, and stay so (R311; log 39). -/
def State.latchDeps (s : State) (f : Nat → Job → Dep → Bool) : State :=
  { s with jobs := s.jobs.map fun (n, j) =>
      (n, if j.state == .wait then { j with deps := j.deps.map fun d => { d with isMet := d.isMet || f n j d } } else j) }

/-- Before a counter or a group goes back, the dependences that it meets are noted. -/
def State.latchCounts (s : State) : State := s.latchDeps fun _ _ d => d.counts s

/-- A job's hold on a group ends: its holds are dropped, and READY is cleared (R401). -/
def State.releaseGroup (s : State) (g : Nat) : State :=
  let s := s.latchCounts
  let x := s.group g
  (x.held.foldl (fun s (c, k) => s.dropHold c k) s).setGroup g { x with ready := false, held := [] }

def sqrelCore (b : Nat) (g : BitVec 6) (s : State) : Except Stop State := do
  let y := s.bay b
  let x := s.group g.toNat
  guardE (x.ready && x.slot.toNat == y.slotNo % 256 && x.part.toNat == y.partNo) (trapC 0x3C)
  return (s.releaseGroup g.toNat).retire

/-- SQREL (R401). -/
def execSqrel (g : BitVec 6) (s : State) : Host.Outcome State Fault Refusal := s.onSeq fun b => sqrelCore b g s

/-! ### Bounded waits (R393, R394, R400, R409) -/

/-- What a wait finds: whether its condition holds, and the status it would write, given TIMEOUT. -/
structure Look where
  met : Bool
  status : Bool → Word

/-- ROWWAIT and FRMWAIT. -/
def lookRow (n f : Nat) (cond : Word → Bool) (s : State) : Look :=
  let c := s.rowWord n
  let p := passedFrame (rwFrame c) f
  { met := p || (rwFrame c == f && cond c)
    status := fun t => word (rwRows c + at_ (b2n (rwDone c)) 16 + at_ (b2n t) 17 + at_ (b2n p) 18 + at_ (rwFrame c) 32) }

/-- SQWAIT. Without a record the masks have no stated value: they are left free (log 20). -/
def lookSq (g : Nat) (s : State) : Look :=
  let x := s.group g
  { met := x.ready
    status := fun t => word ((if x.ready then x.subst.toNat + at_ x.missing.toNat 16 else (Config.openValue 20 [g, x.tgt.toNat]).toNat % 2 ^ 32) +
      at_ (b2n t) 32) }

/-- SQWAIT's check of its operands. -/
def checkSq (b g : Nat) (s : State) : Except Stop WaitKind :=
  let y := s.bay b
  let x := s.group g
  if (x.armed || x.ready) && x.part.toNat == y.partNo && x.slot.toNat == y.slotNo % 256 then .ok (.sq g) else .error (trapC 0x3C)

/-- BARWAIT's check of its operands, which places the object for its reads. -/
def checkBar (b : Nat) (h : BitVec 4) (i : Word) (p : BitVec 4) (s : State) : Except Stop WaitKind := do
  let v ← barView b h s
  let x ← barPlace (s.bayCtx b) v false i.toInt s
  return .bar v.tid x.loc.addr p

/-- BARWAIT: each read checks the object. -/
def lookBar (b tid a : Nat) (p : BitVec 4) (s : State) : Except Stop Look := do
  let o := bytesNat (overlayAll a (s.readBytes a 16) (s.bay b).stores)
  guardE (!barBad o) (trapT 0xA3 tid 0 false)
  return { met := oPh o != p.toNat
           status := fun t => word (oPh o + at_ (b2n t) 4 + at_ (b2n (oOvr o)) 5 + at_ (oFl o) 6 + at_ (oArr o) 14) }

def WaitKind.look (b : Nat) (s : State) : WaitKind → Except Stop Look
  | .row n f rows => .ok (lookRow n f (fun c => decide (rwRows c ≥ rows)) s)
  | .frm n f => .ok (lookRow n f rwDone s)
  | .sq g => .ok (lookSq g s)
  | .bar tid a p => lookBar b tid a p s

/-- One pass of the wait procedure. The bound 0xFFFFFFFFFFFFFFFF waits without limit. -/
def waitPass (b : Nat) (r : WaitRec) (s : State) : Except Stop State :=
  match r.kind.look b s with
  | .error e => .error e
  | .ok l =>
    if l.met then .ok (s.writeS r.sd (l.status false)).retire
    else if r.bound ≠ 0xFFFFFFFFFFFFFFFF && decide (s.clock - r.t0 ≥ r.bound.toNat) then .ok (s.writeS r.sd (l.status true)).retire
    else .ok ((s.setHold false).modBay b fun y => { y with waiting := some r })

/-- A wait word: its first issue checks its operands and takes the time and the bound, and the wait then goes on with them. -/
def boundedWait (b : Nat) (sd t : BitVec 5) (k : Except Stop WaitKind) (s : State) : Except Stop State :=
  match (s.bay b).waiting with
  | some r => waitPass b r s
  | none => match k with
    | .ok k => waitPass b ⟨s.clock, s.readS t, sd, k⟩ s
    | .error e => .error e

/-- ROWWAIT (R394). -/
def execRowwait (d a b t : BitVec 5) (s : State) : Host.Outcome State Fault Refusal :=
  s.onSeq fun n => boundedWait n d t (.ok (.row (bits (s.readS a) 5 0) (bits (s.readS a) 63 32) (bits (s.readS b) 15 0))) s

/-- FRMWAIT (R394). -/
def execFrmwait (d a t : BitVec 5) (s : State) : Host.Outcome State Fault Refusal :=
  s.onSeq fun n => boundedWait n d t (.ok (.frm (bits (s.readS a) 5 0) (bits (s.readS a) 63 32))) s

/-- SQWAIT (R400). -/
def execSqwait (d b : BitVec 5) (g : BitVec 6) (s : State) : Host.Outcome State Fault Refusal :=
  s.onSeq fun n => boundedWait n d b (checkSq n g.toNat s) s

/-- BARWAIT (R409). -/
def execBarwait (d a : BitVec 5) (h p : BitVec 4) (b : BitVec 5) (s : State) : Host.Outcome State Fault Refusal :=
  s.onSeq fun n => boundedWait n d b (checkBar n h (s.readS a) p s) s

/-- WAIT_BOUND_EXPIRY (R393): a wait under way whose bound has elapsed. -/
def execWaitBoundExpiry (bay : Nat) (s : State) : Host.Outcome State Fault Refusal :=
  let y := s.bay bay
  match y.waiting with
  | some r =>
    if y.live && !y.seqHalted && !(s.jobOf bay).idle && (s.part y.partNo).frozen.isNone && r.bound ≠ 0xFFFFFFFFFFFFFFFF && decide (s.clock - r.t0 ≥ r.bound.toNat) then
      let s := { s with cur := .stream bay .S }
      s.finish (waitPass bay r s)
    else .next s
  | none => .next s

/-! ### Reading time and counters (R390, R410) -/

/-- TSREAD (R390). -/
def execTsread (d : BitVec 5) (s : State) : Host.Outcome State Fault Refusal := s.scalar (.ok (s.writeS d s.clk.time).retire)

/-- TSYNC (R388); OFFS reads 0 while device time has never been locked (R389). -/
def Clock.tsync (c : Clock) : Word :=
  word (b2n c.lock + at_ (b2n c.hold) 1 + at_ (b2n c.first) 2 + at_ (if c.first then c.offs.toNat else 0) 32)

/-- The partition of the acting stream. -/
def State.curPart (s : State) : Nat :=
  match s.cur with
  | .stream b _ => (s.bay b).partNo
  | .jointer c _ => chainPart (s.chain c)
  | _ => 0

/-- A counter by its number; none for a number that R410 does not give to the reader. -/
def State.counter (s : State) (n : Nat) : Option Word :=
  if n = 0x000 then some s.clk.time
  else if n = 0x001 then some s.clk.tsync
  else if n = 0x002 then some (s.part s.curPart).sfc
  else if 0x008 ≤ n ∧ n < 0x00C then some (Tab.get {} s.lcs (n - 0x008)).idx
  else if n = 0x010 then match s.cur with
    | .jointer c _ => some (s.rowWord c)
    | _ => none
  else if 0x100 ≤ n ∧ n < 0x140 then some (s.rowWord (n - 0x100))
  else if 0x140 ≤ n ∧ n < 0x180 then match s.cur with
    | .stream b _ => some ((s.bay b).ep (n - 0x140)).word
    | _ => none
  else if 0x180 ≤ n ∧ n < 0x1A0 then
    let p := s.port (n - 0x180)
    some (word (p.discard.toNat + at_ p.crc.toNat 32))
  else if 0x1C0 ≤ n ∧ n < 0x200 then
    let g := s.group (n - 0x1C0)
    some (word (g.nsub.toNat + at_ g.nrec.toNat 32))
  else none

/-- CTRR (R410). -/
def execCtrr (d : BitVec 5) (n : BitVec 12) (s : State) : Host.Outcome State Fault Refusal :=
  s.scalar (match s.counter n.toNat with
    | some v => .ok (s.writeS d v).retire
    | none => .error (trapC 0x02))

end Sys2Proof.Machine
end

