-- ==== Sys2Proof/Machine/Steps.lean ====
section
/-! DEFINITION. Step words of the M, L and W streams: issue, stamps, pegs, SLOOP, TNOP, XORD, XNOP, deferred pushes and the end of a
stream (spec/02_encoding.md R47 to R51, spec/09_transfer.md R238, R248 to R250, spec/12_queues.md R289 to R296, spec/18_counters.md
R403). -/

namespace Sys2Proof.Machine

/-! ### Stamps (R48, R403) -/

/-- A stamped word's frame and its issue clock; none for an unstamped word. -/
def stampOf (b : Nat) (e : Eng) (t : Nat) (s : State) : Except Stop (Option (Nat × Int)) :=
  let y := s.bay b
  let x := s.part y.partNo
  let st := y.stream e
  if t = 0 then .ok none
  else if !y.det then .error (trapC 0x16)
  else if 8 * t ≥ x.framelen.toNat then .error (trapC 0x12)
  else
    let f := if t ≤ st.ls.toNat then st.sf.toNat + 1 else st.sf.toNat
    .ok (some (f, (s.origin y.partNo : Int) + ((f : Int) - x.fnum.toNat) * x.framelen.toNat + 8 * t))

/-- A unit that the Framer's service of a page fault halts (R251). A walk that waits for a move of its page delays its copy's completion, and
no later word's issue (R250). -/
def Stream.isHalted (x : Stream) : Bool := x.inflight.any fun r => r.halted && !r.mig

/-- A fault of the stream is outstanding: it is on record, or the copy that raised it has not issued again. A further fault waits (R198, R290;
log 94). -/
def Stream.faulting (x : Stream) : Bool := x.rc.isSome || x.inflight.any fun r => r.fallen

/-- R403's update of SF and LS. -/
def State.setStamp (s : State) (b : Nat) (e : Eng) (f t : Nat) : State :=
  s.modStream b e fun x => { x with sf := BitVec.ofNat 48 f, ls := BitVec.ofNat 12 t }

def overrunRec (e : Eng) (pc : BitVec 16) : FaultRec := { cause := 0xA0, eng := BitVec.ofNat 3 e.code, pc := pc }

/-- The pegs of a word: what it pops, and what it pushes. -/
def popsOf (e : Eng) (w : BitVec 3) : List Nat := maskQueues w.toNat (queuesIn e)
def pushesOf (e : Eng) (p : Nat) : List Nat := maskQueues p (queuesOut e)

/-- Queues of P in which the word does not hold a reservation yet (R290). -/
def Stream.toReserve (x : Stream) (ps : List Nat) : List Nat := ps.filter fun q => !x.kept.contains q

/-- Pop W's pegs, and for a deferred word reserve P's places. -/
def State.takePegs (s : State) (b : Nat) (e : Eng) (ws ps : List Nat) (deferred : Bool) : State :=
  s.modBay b fun y =>
    let y := y.popAll ws
    if deferred then
      let left := (y.stream e).kept.filter fun q => !ps.contains q
      let y := (((y.stream e).toReserve ps).foldl Bay.reserve y).returnDeferred left
      y.setStream e { y.stream e with kept := [] }
    else y

/-- Issue of a step word (R238, R250, R273, R289, R290, R403): it waits until every condition holds, and a stamped word issues at its
stamp's clock or halts the stream with STAMP_OVERRUN. A deferred word waits for room in P, and so does a stamped one (R291); a direct word
without a stamp waits for it when it retires. `body` makes the word's checks and takes its effect, after the pegs; a fault of it leaves the
pegs as they were. -/
def issue (b : Nat) (e : Eng) (w : BitVec 3) (p : Nat) (t : BitVec 12) (deferred ready : Bool) (body : List Nat → State → Except Stop State)
    (s : State) : Except Stop State := do
  let st ← stampOf b e t.toNat s
  let y := s.bay b
  let x := y.stream e
  guardE (!x.isHalted) .wait
  let ws := popsOf e w
  let ps := pushesOf e p
  let ok := ready && y.hasPegs ws && ((!deferred && st.isNone) || y.roomAll (x.toReserve ps))
  match st with
  | none =>
    guardE ok .wait
    body ps (s.takePegs b e ws ps deferred)
  | some (f, c) =>
    guardE (decide (c ≤ s.clock)) .wait
    let s := s.setStamp b e f t.toNat
    if c = s.clock ∧ x.spawned + 8 ≤ s.clock ∧ ok = true then body ps (s.takePegs b e ws ps deferred)
    else return s.haltStream b e (overrunRec e x.pc)

/-! ### Deferred pushes in issue order (R219, R290) -/

/-- Push the pegs of completed copies from the head on; an XNOP at the head waits for its own event, and so does a copy whose fault has still
to be recorded. -/
def flushDone (b : Nat) (e : Eng) : Nat → State → State
  | 0, s => s
  | fuel + 1, s =>
    match ((s.bay b).stream e).inflight with
    | r :: t =>
      if r.done && r.late.isNone then
        flushDone b e fuel ((s.modBay b fun y => y.pushDeferred r.push).modStream b e fun x => { x with inflight := t })
      else s
    | [] => s

/-- A unit that is halted on a page fault pushes no further peg (R294). -/
def State.flush (s : State) (b : Nat) (e : Eng) : State :=
  let x := (s.bay b).stream e
  if x.isHalted then s else flushDone b e x.inflight.length s

def unitEng : Unit2 → Eng
  | .L => .L
  | .W => .W

/-- The release of an XNOP at the head has completed: every earlier copy of the unit has. -/
def deferredPush (b : Nat) (e : Eng) (s : State) : State :=
  match ((s.bay b).stream e).inflight with
  | r :: t =>
    if (r.xnop || r.done) && r.late.isNone && !((s.bay b).stream e).isHalted then
      ((s.modBay b fun y => y.pushDeferred r.push).modStream b e fun x => { x with inflight := t }).flush b e
    else s
  | [] => s

/-- DEFERRED_PEG_PUSH (R290). -/
def execDeferredPegPush (bay : Nat) (unit : Unit2) (s : State) : Host.Outcome State Fault Refusal := .next (deferredPush bay (unitEng unit) s)

/-! ### XNOP, XORD and TNOP (R248, R270) -/

/-- XNOP leaves at issue; its push waits in issue order behind the earlier copies. -/
def xnopBody (b : Nat) (e : Eng) (ps : List Nat) (s : State) : State :=
  let pc := s.pc
  let r : CopyRec := { op := .copy, xnop := true, push := ps, pc := pc, ordinal := 0 }
  (if ps.isEmpty then s else s.modStream b e fun x => { x with inflight := x.inflight ++ [r] }).retire

/-- XNOP (R248). -/
def execXnop (w p : BitVec 3) (t : BitVec 12) (s : State) : Host.Outcome State Fault Refusal :=
  s.onUnit fun b e => issue b e w p.toNat t true true (fun ps s => .ok (xnopBody b e ps s)) s

/-- Every earlier copy of the unit has completed (R238). -/
def Stream.copiesDone (x : Stream) : Bool := x.inflight.all fun r => r.xnop || r.done

/-- An XORD that has issued: its direct push waits for the earlier pushes of the unit, which its copies' writes have released, and for room. -/
def xordFinish (b : Nat) (e : Eng) (ps : List Nat) (s : State) : Except Stop State :=
  if ps.isEmpty || (((s.bay b).stream e).inflight.isEmpty && (s.bay b).roomAll ps) then .ok (s.modBay b fun y => y.pushAll ps).retire
  else .ok (s.modStream b e fun x => { x with issued := some ps })

/-- XORD (R248). -/
def execXord (w p : BitVec 3) (t : BitVec 12) (s : State) : Host.Outcome State Fault Refusal :=
  s.onUnit fun b e => match ((s.bay b).stream e).issued with
    | some ps => xordFinish b e ps s
    | none => issue b e w p.toNat t false ((s.bay b).stream e).copiesDone (xordFinish b e) s

/-- The bay's truss commands have completed, and their row writes have landed. -/
def State.trussQuiet (s : State) (b : Nat) : Bool :=
  let y := s.bay b
  y.truss.queue.isEmpty && y.truss.running.isEmpty && !((s.bent (b / 8)).writes.any fun w => w.owner = b)

/-- A TNOP that has issued: a direct push waits for its release and for room. -/
def tnopFinish (b : Nat) (ps : List Nat) (s : State) : Except Stop State :=
  if ps.isEmpty || (s.trussQuiet b && (s.bay b).roomAll ps) then .ok (s.modBay b fun y => y.pushAll ps).retire
  else .ok (s.modStream b .M fun x => { x with issued := some ps })

/-- TNOP (R270). -/
def execTnop (w p : BitVec 3) (t : BitVec 12) (s : State) : Host.Outcome State Fault Refusal :=
  s.onMtx fun b => match (s.bay b).m.issued with
    | some ps => tnopFinish b ps s
    | none => issue b .M w p.toNat t false true (tnopFinish b) s

/-! ### SLOOP (R51, R249) -/

/-- A unit that is halted on a page fault issues no SLOOP either (R251). -/
def sloopCore (b : Nat) (e : Eng) (k : BitVec 3) (len : BitVec 5) (s : State) : Except Stop State :=
  if ((s.bay b).stream e).isHalted then .error .wait else
  let pc := s.pc.toNat
  let n := len.toNat
  let (o, l) := (s.bay b).sect e
  let outer := s.lcs.filter fun (_, c) => c.active && decide (c.start.toNat ≤ pc) && decide (pc < c.stop)
  if n = 0 ∨ pc + 4 + 4 * n > o + l ∨ outer.any fun (_, c) => decide (c.stop < pc + 4 + 4 * n) then .error (trapC 0x12)
  else if outer.length ≥ 4 then .error (trapC 0x14)
  else .ok (loopEnter outer.length ((s.readK k).toNat % 2 ^ 32) n 0 1 s)

/-- SLOOP (R51). -/
def execSloop (k : BitVec 3) (len : BitVec 5) (s : State) : Host.Outcome State Fault Refusal :=
  match s.cur with
  | .stream b .M => s.finish (sloopCore b .M k len s)
  | _ => s.onUnit fun b e => sloopCore b e k len s

/-! ### The end of a stream (R296) -/

/-- The stream's program counter has passed its section, and no body ends there. -/
def Bay.atEnd (y : Bay) (e : Eng) : Bool :=
  let x := y.stream e
  let (o, l) := y.sect e
  y.live && x.run && !(x.adv && !x.skip && endsAt x.lc x.pc) && outside o l x.adv x.pc

def State.endStream (s : State) (b : Nat) (e : Eng) : State :=
  s.modBay b fun y => (y.setStream e { y.stream e with run := false }).event evEnd

/-- The implicit TFREE of an M stream that ends while it holds the lease. -/
def freeCmd (pc : BitVec 16) : TrussCmd := { op := .free, f := 0, ps := [], hs := [], zs := [], hf := [], push := [], pc := pc, rows := 0 }

def streamEnd (b : Nat) (e : Eng) (s : State) : State :=
  let y := s.bay b
  if !y.atEnd e || (s.part y.partNo).frozen.isSome then s
  else match e with
    | .M =>
      if !s.trussQuiet b then s
      else if y.truss.held then s.setBay b { y with truss := { y.truss with queue := [freeCmd y.m.pc] } }
      else s.endStream b .M
    | .L => if y.l.inflight.isEmpty then s.endStream b .L else s
    | .W => if y.w.inflight.isEmpty then s.endStream b .W else s
    | _ => s

/-- STREAM_END (R296). -/
def execStreamEnd (bay : Nat) (eng : Nat) (s : State) : Host.Outcome State Fault Refusal := .next (streamEnd bay (engOf eng) s)

end Sys2Proof.Machine
end

