-- ==== Sys2Proof/Machine/Special.lean ====
section
/-! DEFINITION. The special functions, correctly rounded (spec/06_vector_ops.md R160). A value that is not a dyadic number is bracketed
in fixed point; the bracket narrows until both its ends round alike (log 8). -/

namespace Sys2Proof.Machine

/-! Fixed point: an integer A at precision w stands for A × 2^−w. Every function below drops less than one unit for each of its terms,
and there are fewer than 2^30 terms, so an answer is within 2^−(w − 32). -/

/-- Σ of x^k / k! with x < 2^w: at most `n` terms. -/
def expGo (w x : Nat) : Nat → Nat → Nat → Nat → Nat
  | 0, _, _, acc => acc
  | n + 1, k, t, acc =>
    let t' := t * x / 2 ^ w / k
    if t' = 0 then acc else expGo w x n (k + 1) t' (acc + t')

/-- e^x for 0 ≤ x < 1. -/
def fexp (w x : Nat) : Nat := expGo w x w 1 (2 ^ w) (2 ^ w)

/-- Σ of z^(2k+1) / (2k+1). -/
def atanhGo (w z2 : Nat) : Nat → Nat → Nat → Nat → Nat
  | 0, _, _, acc => acc
  | n + 1, k, t, acc => if t = 0 then acc else atanhGo w z2 n (k + 2) (t * z2 / 2 ^ w) (acc + t / k)

def fatanh (w z : Nat) : Nat := atanhGo w (z * z / 2 ^ w) w 1 z 0

/-- ln 2 = 2 atanh(1/3). -/
def fln2 (w : Nat) : Nat := 2 * fatanh w (2 ^ w / 3)

/-- A magnitude in fixed point. -/
def toFix (w m : Nat) (e : Int) : Nat :=
  let s := e + w
  if s ≥ 0 then m * 2 ^ s.toNat else m / 2 ^ (-s).toNat

/-- A bracketed value: between (a − u) × 2^(k − w) and (a + u) × 2^(k − w), with u = 2^(w/2). -/
structure Bracket where
  neg : Bool
  a : Nat
  w : Nat
  k : Int

/-- Round both ends of a bracket; `none` where they differ. -/
def Bracket.round (f : Nat) (mode : Mode) (r : Nat) (b : Bracket) : Option (Nat × BitVec 8) :=
  let u := 2 ^ (b.w / 2)
  let lo := convertNum f mode r (.fin b.neg (b.a - u) (b.k - b.w) true)
  let hi := convertNum f mode r (.fin b.neg (b.a + u) (b.k - b.w) true)
  if lo = hi ∧ b.a > u then some lo else none

/-- Try growing precisions; the last bracket's lower end stands if none decides (log 8). -/
def decide_ (f : Nat) (mode : Mode) (r : Nat) (g : Nat → Bracket) : List Nat → Nat × BitVec 8
  | [] =>
    let b := g 4096
    convertNum f mode r (.fin b.neg b.a (b.k - b.w) true)
  | w :: t =>
    match (g w).round f mode r with
    | some x => x
    | none => decide_ f mode r g t

def precisions : List Nat := [192, 512, 1200, 2400]

/-- e^x for any real x of magnitude below 2^12, as fraction × 2^k with 1 ≤ fraction < 2. -/
def expAt (w : Nat) (neg : Bool) (m : Nat) (e : Int) : Nat × Int :=
  let l := fln2 (w + 16)
  let x := toFix (w + 16) m e
  let k := if neg then (x + l - 1) / l else x / l
  let r := if neg then k * l - x else x - k * l
  (fexp (w + 16) r / 2 ^ 16, if neg then -(k : Int) else k)

/-- 2^x, x not an integer. -/
def exp2B (neg : Bool) (m : Nat) (e : Int) (w : Nat) : Bracket :=
  let x := toFix (w + 16) m e
  let one := 2 ^ (w + 16)
  let n := if neg then x / one + 1 else x / one
  let r := if neg then n * one - x else x - n * one
  let y := fexp (w + 16) (r * fln2 (w + 16) / one)
  ⟨false, y / 2 ^ 16, w, if neg then -(n : Int) else n⟩

/-- log2 of m × 2^e, m not a power of two. -/
def log2B (m : Nat) (e : Int) (w : Nat) : Bracket :=
  let n := Nat.log2 m
  let one := 2 ^ (w + 16)
  let x := toFix (w + 16) m (-(n : Int))
  let z := (x - one) * one / (x + one)
  let y := 2 * fatanh (w + 16) z * one / fln2 (w + 16)
  let v : Int := (e + n) * one + y
  ⟨decide (v < 0), v.natAbs / 2 ^ 16, w, 0⟩

/-- tanh of a magnitude below 2^7: 1 − 2 / (e^(2x) + 1). -/
def tanhB (neg : Bool) (m : Nat) (e : Int) (w : Nat) : Bracket :=
  let v := w + 400
  let y := expAt v false m (e + 1)
  let big := y.1 * 2 ^ y.2.toNat
  let one := 2 ^ v
  ⟨neg, (one - 2 * one * one / (big + one)) / 2 ^ 400, w, 0⟩

/-- 1 / (1 + e^(−x)) of a magnitude below 2^8. -/
def sigmB (neg : Bool) (m : Nat) (e : Int) (w : Nat) : Bracket :=
  let v := w + 800
  let y := expAt v false m e
  let big := y.1 * 2 ^ y.2.toNat
  let one := 2 ^ v
  if neg then ⟨false, one * one * 2 ^ w / (big + one) / 2 ^ v, w, 0⟩
  else ⟨false, (one - one * one / (big + one)) / 2 ^ 800, w, 0⟩

inductive SpecFn where
  | exp2 | log2 | rcp | rsqrt | tanh | sigm | sqrt
deriving DecidableEq, Repr

/-- 2^−n-sized room below one: the value lies strictly between it and the next. -/
def justBelow (neg : Bool) : Num := .fin neg (2 ^ 300 - 1) (-300) true

def isInteger (m : Nat) (e : Int) : Bool := e ≥ 0 || m % 2 ^ (-e).toNat == 0

def isPow2 (m : Nat) : Bool := m == 2 ^ Nat.log2 m

/-- A finite, non-zero operand. -/
def specFin (fn : SpecFn) (f : Nat) (mode : Mode) (r : Nat) (neg : Bool) (m : Nat) (e : Int) : Nat × BitVec 8 :=
  let top := floorLog m e
  match fn with
  | .exp2 =>
    if top ≥ 11 then convertNum f mode r (.fin false 1 (if neg then -3000 else 3000) (neg || !isInteger m e))
    else if isInteger m e then
      let n := toFix 0 m e
      convertNum f mode r (.fin false 1 (if neg then -(n : Int) else n) false)
    else decide_ f mode r (exp2B neg m e) precisions
  | .log2 =>
    if neg then (fnan f, fIV)
    else if isPow2 m then convertNum f mode r (Num.ofInt top)
    else decide_ f mode r (log2B m e) precisions
  | .rcp =>
    let z := divNum (.fin false 1 0 false) (.fin neg m e false)
    convertNum f mode r z.1
  | .rsqrt =>
    if neg then (fnan f, fIV)
    else
      -- 1 / √x = √(1/x), with 1/x to 700 bits; exact only for even powers of two
      if isPow2 m && top % 2 = 0 then convertNum f mode r (.fin false 1 (-(top / 2)) false)
      else
        let k := 700 + Nat.log2 m
        let odd := (e + k) % 2
        let q := 2 ^ (k + (if odd = 0 then 0 else 1)) / m
        let x := isqrt q
        convertNum f mode r (.fin false x ((-e - k - (if odd = 0 then 0 else 1)) / 2) true)
  | .tanh =>
    if top ≥ 7 then convertNum f mode r (justBelow neg)
    else decide_ f mode r (tanhB neg m e) precisions
  | .sigm =>
    if top ≥ 8 then
      if neg then convertNum f mode r (.fin false 1 (-600) true) else convertNum f mode r (justBelow false)
    else decide_ f mode r (sigmB neg m e) precisions
  | .sqrt =>
    if neg then (fnan f, fIV) else convertNum f mode r (sqrtFin m e)

/-- A special function of one element, with the special inputs of R160. -/
def special (fn : SpecFn) (f : Nat) (mode : Mode) (r : Nat) (x : Nat) : Nat × BitVec 8 :=
  let one := (convertNum f 0 0 (Num.ofInt 1)).1
  let half := (convertNum f 0 0 (.fin false 1 (-1) false)).1
  let inf (n : Bool) : Nat := signBit f n + fmax f + 1
  match decodeNum f x with
  | .nan sig => (fnan f, flagIf sig fIV)
  | .inf n =>
    match fn with
    | .exp2 => (if n then 0 else inf false, 0)
    | .log2 | .sqrt => if n then (fnan f, fIV) else (inf false, 0)
    | .rcp => (signBit f n, 0)
    | .rsqrt => if n then (fnan f, fIV) else (0, 0)
    | .tanh => (signBit f n + one, 0)
    | .sigm => (if n then 0 else one, 0)
  | .fin n m e _ =>
    if m = 0 then
      match fn with
      | .exp2 => (one, 0)
      | .log2 => (inf true, fDZ)
      | .rcp | .rsqrt => (inf n, fDZ)
      | .tanh | .sqrt => (signBit f n, 0)
      | .sigm => (half, 0)
    else specFin fn f mode r n m e

end Sys2Proof.Machine
end

