-- ==== Sys2Proof/Machine/VecArith.lean ====
section
/-! DEFINITION. Vector and predicate words: elementwise arithmetic, compares, widening, dot products, predicates, VSHAPE, VMOV and
VROT (spec/05_vector_regs.md R129, R133, R137 to R150). -/

namespace Sys2Proof.Machine

/-! ### Lane arithmetic -/

/-- An integer lane's value (R77). -/
def intVal (f x : Nat) : Int := if isI f then sgn (fmtWidth f) x else (x % 2 ^ fmtWidth f : Nat)

/-- An exact integer result into a lane: wrapped, or clamped with SAT (R138). -/
def fitInt (f : Nat) (isat : Bool) (x : Int) : Nat × BitVec 8 :=
  if isat then
    if x < intMin f then (wrap (fmtWidth f) (intMin f), fSAT)
    else if x > intMax f then (wrap (fmtWidth f) (intMax f), fSAT)
    else (wrap (fmtWidth f) x, 0)
  else (wrap (fmtWidth f) x, 0)

/-- An exact result into a floating lane, rounded once (R139). -/
def fitFlt (f : Nat) (mode : Mode) (r : Nat) (x : Num × BitVec 8) : Nat × BitVec 8 :=
  let y := convertNum f mode r x.1
  (y.1, y.2 ||| x.2)

/-- The lane's random value, needed by SR alone. -/
def State.srOf (s : State) (i : Nat) : Nat := if s.vrm ≥ 4 then s.laneRandom i else 0

/-- A lane operation given by its integer and its floating form, with result type `t`. -/
def State.arith (s : State) (t : Nat) (fi : Int → Int → Int → Int) (ff : Mode → Num → Num → Num → Num × BitVec 8)
    (i d a b : Nat) : Nat × BitVec 8 :=
  let f := s.vty
  if isInt f then fitInt t s.visat (fi (intVal t d) (intVal f a) (intVal f b))
  else fitFlt t s.vrm (s.srOf i) (ff s.vrm (decodeNum t d) (decodeNum f a) (decodeNum f b))

def arithWord (fi : Int → Int → Int → Int) (ff : Mode → Num → Num → Num → Num × BitVec 8) (g : Guard) (d a : BitVec 6) (b : Form)
    (s : State) : Except Stop State :=
  laneWord g d a b tIntFlt (fun s i x y z => s.arith s.vty fi ff i x y z) s

def minmaxLane (mx : Bool) (f a b : Nat) : Nat × BitVec 8 :=
  if isInt f then ((if decide (intVal f a < intVal f b) == mx then b else a), 0) else minmaxF f mx a b

def minmaxWord (mx : Bool) (g : Guard) (d a : BitVec 6) (b : Form) (s : State) : Except Stop State :=
  laneWord g d a b tIntFlt (fun s _ _ y z => minmaxLane mx s.vty y z) s

/-- VABS and VNEG of a floating lane: a bit operation, but for NaN (R79, R141). -/
def signFlt (f : Nat) (neg : Bool) (x : Nat) : Nat × BitVec 8 :=
  let n := decodeNum f x
  let top := 2 ^ (fmtWidth f - 1)
  if n.isNan then (fnan f, flagIf n.isSig fIV)
  else if neg then ((x + top) % (2 * top), 0) else (x % top, 0)

def signWord (neg : Bool) (g : Guard) (d a : BitVec 6) (s : State) : Except Stop State :=
  laneWord g d a (.reg a) (fun f => tSigned f || isFlt f)
    (fun s _ _ y _ =>
      if isInt s.vty then fitInt s.vty s.visat (if neg then -(intVal s.vty y) else (intVal s.vty y).natAbs)
      else signFlt s.vty neg y) s

def bitWord (op : Nat → Nat → Nat) (g : Guard) (d a : BitVec 6) (b : Form) (s : State) : Except Stop State :=
  laneWord g d a b tAny (fun s _ _ y z => (lgMask s.vty (op y z), 0)) s

inductive Shift where
  | left | right | arith
deriving DecidableEq, Repr

/-- R142: an amount of the width or more shifts everything out. -/
def shiftLane (k : Shift) (w a c : Nat) : Nat :=
  match k with
  | .left => if c < w then a * 2 ^ c % 2 ^ w else 0
  | .right => if c < w then a / 2 ^ c else 0
  | .arith => wrap w (sgn w a / 2 ^ (if c < w then c else w))

/-- The immediate amount is read unsigned (R134). -/
def shiftWord (k : Shift) (g : Guard) (d a : BitVec 6) (b : Form) (s : State) : Except Stop State :=
  laneWord g d a (match b with | .imm _ => .reg a | x => x) tInt
    (fun s _ _ y z => (shiftLane k (fmtWidth s.vty) y (match b with | .imm x => x.toNat | _ => z), 0)) s

/-- VSEL: the guard's bits choose (R143). -/
def selWord (neg : BitVec 1) (p : BitVec 4) (d a : BitVec 6) (b : Form) (s : State) : Except Stop State :=
  let m := s.readP p.toNat
  laneWord ⟨false, false, 0⟩ d a b tAny (fun s i _ y z => (lgMask s.vty (if m.testBit i == (neg == 0) then y else z), 0)) s

/-! ### Compares (R144) -/

inductive Cmp where
  | eq | ne | lt | le
deriving DecidableEq, Repr

def cmpLane (k : Cmp) (f a b : Nat) : Bool × BitVec 8 :=
  if isInt f then
    let x := intVal f a
    let y := intVal f b
    (match k with | .eq => x == y | .ne => x != y | .lt => decide (x < y) | .le => decide (x ≤ y), 0)
  else
    let x := decodeNum f a
    let y := decodeNum f b
    let nan := x.isNan || y.isNan
    let sig := x.isSig || y.isSig
    match k with
    | .eq => (eqNum x y, flagIf sig fIV)
    | .ne => (!eqNum x y, flagIf sig fIV)
    | .lt => (ltNum false x y, flagIf nan fIV)
    | .le => (ltNum false x y || eqNum x y, flagIf nan fIV)

def cmpWord (k : Cmp) (g : Guard) (p : BitVec 4) (a : BitVec 6) (b : Form) (s : State) : Except Stop State :=
  match s.typeE tIntFlt with
  | .error e => .error e
  | .ok _ =>
    let f := s.vty
    let lb := s.operandB f b
    let r := mapBits (fun _ x y => cmpLane k f x y) 0 (s.active g) (s.readP p.toNat) (s.lanes a.toNat (fmtWidth f)) lb
    .ok ((s.writeP p.toNat r.1).orFlags r.2).retireV

/-! ### Widening and dot products (R145, R146) -/

def tWiden (f : Nat) : Bool := [0x02, 0x03, 0x04, 0x0A, 0x0B, 0x0C, 0x13, 0x14].contains f

def widerType (f : Nat) : Nat := if isInt f then f + 1 else 0x15

/-- A result beyond f32's range, which a bf16 product may have, is rounded to f32 with the flags of R89 (log 87). -/
def widenWord (fi : Int → Int → Int → Int) (ff : Mode → Num → Num → Num → Num × BitVec 8) (g : Guard) (d a : BitVec 6) (b : Form)
    (s : State) : Except Stop State :=
  match s.typeE tWiden, alignE d 2 with
  | _, .error e => .error e
  | .error e, _ => .error e
  | .ok _, .ok _ =>
    let f := s.vty
    let t := widerType f
    let lb := s.operandB f b
    let r := mapLanes (fun i x y z => s.arith t fi ff i x y z) 0 (s.active g) (s.readGroup d.toNat 2 (fmtWidth t))
      (s.lanes a.toNat (fmtWidth f)) lb
    .ok ((s.writeGroup d.toNat 2 (fmtWidth t) r.1).orFlags r.2).retireV

def tDot (f : Nat) : Bool := f == 0x04 || f == 0x05 || f == 0x0C || f == 0x0D

/-- Σ of the products of four packed elements. -/
def dot4 (f a b : Nat) : Int :=
  let w := fmtWidth f / 4
  let e (x q : Nat) : Int := let v := x / 2 ^ (q * w) % 2 ^ w; if isI f then sgn w v else v
  e a 0 * e b 0 + e a 1 * e b 1 + e a 2 * e b 2 + e a 3 * e b 3

def dotWord (g : Guard) (d a : BitVec 6) (b : Form) (s : State) : Except Stop State :=
  laneWord g d a b tDot (fun s _ x y z => fitInt s.vty s.visat (intVal s.vty x + dot4 s.vty y z)) s

/-! ### Predicates (R147 to R149) -/

/-- Whole registers, every type: the guard governs all 1024 bits. -/
def predWord (op : Nat → Nat → Nat) (g : Guard) (d a b : BitVec 4) (s : State) : Except Stop State :=
  let m := s.active g
  let old := s.readP d.toNat
  let new := op (s.readP a.toNat) (s.readP b.toNat)
  .ok (s.writeP d.toNat (Nat.lor (Nat.land new m) (old - Nat.land old m))).retireV

/-- The bits below n of p whose lane is active. -/
def State.counted (s : State) (g : Guard) (p : BitVec 4) : Nat :=
  Nat.land (Nat.land (s.readP p.toNat) (s.active g)) (2 ^ lanesOf (fmtWidth s.vty) - 1)

def countBits : Nat → Nat → Nat
  | 0, _ => 0
  | n + 1, x => x % 2 + countBits n (x / 2)

/-- The lowest set bit among the first n, or n. -/
def firstBit : Nat → Nat → Nat
  | 0, _ => 0
  | n + 1, x => if x % 2 = 1 then 0 else firstBit n (x / 2) + 1

def kWord (k : BitVec 3) (f : State → Nat) (s : State) : Except Stop State :=
  match s.typeE tAny with
  | .error e => .error e
  | .ok _ => .ok (s.writeK k (word (f s))).retireV

def plenWord (g : Guard) (p : BitVec 4) (b : Form) (s : State) : Except Stop State :=
  match s.typeE tAny with
  | .error e => .error e
  | .ok _ =>
    let n := lanesOf (fmtWidth s.vty)
    let m := Nat.land (s.active g) (2 ^ n - 1)
    let new := 2 ^ min (s.countB b) n - 1
    let old := Nat.land (s.readP p.toNat) (2 ^ n - 1)
    .ok (s.writeP p.toNat (Nat.lor (Nat.land new m) (old - Nat.land old m))).retireV

/-! ### VSHAPE, VMOV, VROT (R129, R133, R150) -/

/-- Under a block-format TYPE the word raises 0x0C before it reads its register, as every word of its chapter does (R129; log 86). -/
def shapeWord (k : BitVec 3) (s : State) : Except Stop State :=
  let x := s.readK k
  if !tAny s.vty then .error (trapC 0x0C)
  else if !isCode (bits x 5 0) || bits x 8 6 > 4 then .error (trapC 0x0A)
  else
    let v := s.vshape
    .ok (s.setVshape (mkVshape (bits x 5 0) (bits x 8 6) (bit x 9) (bits x 14 12) (vsWbase v) (vsFill v))).retireV

def movWord (g : Guard) (d : BitVec 6) (b : Form) (s : State) : Except Stop State :=
  laneWord g d d b tAny (fun s _ _ _ z => (match b with | .reg _ => z | _ => lgMask s.vty z, 0)) s

/-- Iterations of the innermost loop around `pc` that are still to start (R133). -/
def remAround (lc : Tab Loop) (pc : Nat) : Nat :=
  (lc.foldl (fun (best : Nat × Nat) (kl : Nat × Loop) =>
    let l := kl.2
    if l.active && decide (l.start.toNat ≤ pc) && decide (pc < l.start.toNat + 4 * l.len.toNat) && decide (best.1 ≤ l.start.toNat)
    then (l.start.toNat, l.rem.toNat) else best) (0, 0)).2

def rotWord (b : Nat) (s : State) : Except Stop State :=
  if !tAny s.vty then .error (trapC 0x0C) else
  let v := s.vshape
  let rem := remAround (s.bay b).v.lc s.pc.toNat
  let fill := min (vsFill v + 1) 7
  let stg := vsStg v
  let n := lanesOf (fmtWidth (vsType v))
  let s := s.setVshape (mkVshape (vsType v) (vsRm v) (vsIsat v) stg (vsWbase v + 1) fill)
  .ok ((List.range 8).foldl (fun s i =>
    let on := decide (i ≤ stg) && decide (i ≤ fill) && decide (rem ≥ stg - i + 1)
    s.writeP (8 + i) (if on then 2 ^ n - 1 else 0)) s).retireV

/-! ### The words -/

/-- VADD (R138, R139). -/
def execVadd (g : Guard) (d : BitVec 6) (a : BitVec 6) (b : BitVec 6) (s : State) : Host.Outcome State Fault Refusal :=
  s.vector (arithWord (fun _ x y => x + y) (fun m _ x y => addNum m x y) g d a (.reg b) s)

/-- VADD (R138, R139). -/
def execVaddK (g : Guard) (d : BitVec 6) (a : BitVec 6) (k : BitVec 3) (s : State) : Host.Outcome State Fault Refusal :=
  s.vector (arithWord (fun _ x y => x + y) (fun m _ x y => addNum m x y) g d a (.k k) s)

/-- VADD (R138, R139). -/
def execVaddI (g : Guard) (d : BitVec 6) (a : BitVec 6) (im : BitVec 6) (s : State) : Host.Outcome State Fault Refusal :=
  s.vector (arithWord (fun _ x y => x + y) (fun m _ x y => addNum m x y) g d a (.imm im) s)

/-- VSUB (R138, R139). -/
def execVsub (g : Guard) (d : BitVec 6) (a : BitVec 6) (b : BitVec 6) (s : State) : Host.Outcome State Fault Refusal :=
  s.vector (arithWord (fun _ x y => x - y) (fun m _ x y => addNum m x y.negate) g d a (.reg b) s)

/-- VSUB (R138, R139). -/
def execVsubK (g : Guard) (d : BitVec 6) (a : BitVec 6) (k : BitVec 3) (s : State) : Host.Outcome State Fault Refusal :=
  s.vector (arithWord (fun _ x y => x - y) (fun m _ x y => addNum m x y.negate) g d a (.k k) s)

/-- VSUB (R138, R139). -/
def execVsubI (g : Guard) (d : BitVec 6) (a : BitVec 6) (im : BitVec 6) (s : State) : Host.Outcome State Fault Refusal :=
  s.vector (arithWord (fun _ x y => x - y) (fun m _ x y => addNum m x y.negate) g d a (.imm im) s)

/-- VMUL (R138, R139). -/
def execVmul (g : Guard) (d : BitVec 6) (a : BitVec 6) (b : BitVec 6) (s : State) : Host.Outcome State Fault Refusal :=
  s.vector (arithWord (fun _ x y => x * y) (fun _ _ x y => mulNum x y) g d a (.reg b) s)

/-- VMUL (R138, R139). -/
def execVmulK (g : Guard) (d : BitVec 6) (a : BitVec 6) (k : BitVec 3) (s : State) : Host.Outcome State Fault Refusal :=
  s.vector (arithWord (fun _ x y => x * y) (fun _ _ x y => mulNum x y) g d a (.k k) s)

/-- VMUL (R138, R139). -/
def execVmulI (g : Guard) (d : BitVec 6) (a : BitVec 6) (im : BitVec 6) (s : State) : Host.Outcome State Fault Refusal :=
  s.vector (arithWord (fun _ x y => x * y) (fun _ _ x y => mulNum x y) g d a (.imm im) s)

/-- VMADD (R138, R139). -/
def execVmadd (g : Guard) (d : BitVec 6) (a : BitVec 6) (b : BitVec 6) (s : State) : Host.Outcome State Fault Refusal :=
  s.vector (arithWord (fun d x y => d + x * y) (fun m d x y => fmaNum m d x y) g d a (.reg b) s)

/-- VMADD (R138, R139). -/
def execVmaddK (g : Guard) (d : BitVec 6) (a : BitVec 6) (k : BitVec 3) (s : State) : Host.Outcome State Fault Refusal :=
  s.vector (arithWord (fun d x y => d + x * y) (fun m d x y => fmaNum m d x y) g d a (.k k) s)

/-- VMADD (R138, R139). -/
def execVmaddI (g : Guard) (d : BitVec 6) (a : BitVec 6) (im : BitVec 6) (s : State) : Host.Outcome State Fault Refusal :=
  s.vector (arithWord (fun d x y => d + x * y) (fun m d x y => fmaNum m d x y) g d a (.imm im) s)

/-- VMSUB (R138, R139). -/
def execVmsub (g : Guard) (d : BitVec 6) (a : BitVec 6) (b : BitVec 6) (s : State) : Host.Outcome State Fault Refusal :=
  s.vector (arithWord (fun d x y => d - x * y) (fun m d x y => fmaNum m d x.negate y) g d a (.reg b) s)

/-- VMSUB (R138, R139). -/
def execVmsubK (g : Guard) (d : BitVec 6) (a : BitVec 6) (k : BitVec 3) (s : State) : Host.Outcome State Fault Refusal :=
  s.vector (arithWord (fun d x y => d - x * y) (fun m d x y => fmaNum m d x.negate y) g d a (.k k) s)

/-- VMSUB (R138, R139). -/
def execVmsubI (g : Guard) (d : BitVec 6) (a : BitVec 6) (im : BitVec 6) (s : State) : Host.Outcome State Fault Refusal :=
  s.vector (arithWord (fun d x y => d - x * y) (fun m d x y => fmaNum m d x.negate y) g d a (.imm im) s)

/-- VMIN (R138, R140). -/
def execVmin (g : Guard) (d : BitVec 6) (a : BitVec 6) (b : BitVec 6) (s : State) : Host.Outcome State Fault Refusal :=
  s.vector (minmaxWord false g d a (.reg b) s)

/-- VMIN (R138, R140). -/
def execVminK (g : Guard) (d : BitVec 6) (a : BitVec 6) (k : BitVec 3) (s : State) : Host.Outcome State Fault Refusal :=
  s.vector (minmaxWord false g d a (.k k) s)

/-- VMIN (R138, R140). -/
def execVminI (g : Guard) (d : BitVec 6) (a : BitVec 6) (im : BitVec 6) (s : State) : Host.Outcome State Fault Refusal :=
  s.vector (minmaxWord false g d a (.imm im) s)

/-- VMAX (R138, R140). -/
def execVmax (g : Guard) (d : BitVec 6) (a : BitVec 6) (b : BitVec 6) (s : State) : Host.Outcome State Fault Refusal :=
  s.vector (minmaxWord true g d a (.reg b) s)

/-- VMAX (R138, R140). -/
def execVmaxK (g : Guard) (d : BitVec 6) (a : BitVec 6) (k : BitVec 3) (s : State) : Host.Outcome State Fault Refusal :=
  s.vector (minmaxWord true g d a (.k k) s)

/-- VMAX (R138, R140). -/
def execVmaxI (g : Guard) (d : BitVec 6) (a : BitVec 6) (im : BitVec 6) (s : State) : Host.Outcome State Fault Refusal :=
  s.vector (minmaxWord true g d a (.imm im) s)

/-- VABS (R141). -/
def execVabs (g : Guard) (d a : BitVec 6) (s : State) : Host.Outcome State Fault Refusal := s.vector (signWord false g d a s)

/-- VNEG (R141). -/
def execVneg (g : Guard) (d a : BitVec 6) (s : State) : Host.Outcome State Fault Refusal := s.vector (signWord true g d a s)

/-- VAND (R142). -/
def execVand (g : Guard) (d : BitVec 6) (a : BitVec 6) (b : BitVec 6) (s : State) : Host.Outcome State Fault Refusal :=
  s.vector (bitWord Nat.land g d a (.reg b) s)

/-- VAND (R142). -/
def execVandK (g : Guard) (d : BitVec 6) (a : BitVec 6) (k : BitVec 3) (s : State) : Host.Outcome State Fault Refusal :=
  s.vector (bitWord Nat.land g d a (.k k) s)

/-- VAND (R142). -/
def execVandI (g : Guard) (d : BitVec 6) (a : BitVec 6) (im : BitVec 6) (s : State) : Host.Outcome State Fault Refusal :=
  s.vector (bitWord Nat.land g d a (.imm im) s)

/-- VOR (R142). -/
def execVor (g : Guard) (d : BitVec 6) (a : BitVec 6) (b : BitVec 6) (s : State) : Host.Outcome State Fault Refusal :=
  s.vector (bitWord Nat.lor g d a (.reg b) s)

/-- VOR (R142). -/
def execVorK (g : Guard) (d : BitVec 6) (a : BitVec 6) (k : BitVec 3) (s : State) : Host.Outcome State Fault Refusal :=
  s.vector (bitWord Nat.lor g d a (.k k) s)

/-- VOR (R142). -/
def execVorI (g : Guard) (d : BitVec 6) (a : BitVec 6) (im : BitVec 6) (s : State) : Host.Outcome State Fault Refusal :=
  s.vector (bitWord Nat.lor g d a (.imm im) s)

/-- VXOR (R142). -/
def execVxor (g : Guard) (d : BitVec 6) (a : BitVec 6) (b : BitVec 6) (s : State) : Host.Outcome State Fault Refusal :=
  s.vector (bitWord Nat.xor g d a (.reg b) s)

/-- VXOR (R142). -/
def execVxorK (g : Guard) (d : BitVec 6) (a : BitVec 6) (k : BitVec 3) (s : State) : Host.Outcome State Fault Refusal :=
  s.vector (bitWord Nat.xor g d a (.k k) s)

/-- VXOR (R142). -/
def execVxorI (g : Guard) (d : BitVec 6) (a : BitVec 6) (im : BitVec 6) (s : State) : Host.Outcome State Fault Refusal :=
  s.vector (bitWord Nat.xor g d a (.imm im) s)

/-- VSHL (R142). -/
def execVshl (g : Guard) (d : BitVec 6) (a : BitVec 6) (b : BitVec 6) (s : State) : Host.Outcome State Fault Refusal :=
  s.vector (shiftWord .left g d a (.reg b) s)

/-- VSHL (R142). -/
def execVshlK (g : Guard) (d : BitVec 6) (a : BitVec 6) (k : BitVec 3) (s : State) : Host.Outcome State Fault Refusal :=
  s.vector (shiftWord .left g d a (.k k) s)

/-- VSHL (R142). -/
def execVshlI (g : Guard) (d : BitVec 6) (a : BitVec 6) (im : BitVec 6) (s : State) : Host.Outcome State Fault Refusal :=
  s.vector (shiftWord .left g d a (.imm im) s)

/-- VSHR (R142). -/
def execVshr (g : Guard) (d : BitVec 6) (a : BitVec 6) (b : BitVec 6) (s : State) : Host.Outcome State Fault Refusal :=
  s.vector (shiftWord .right g d a (.reg b) s)

/-- VSHR (R142). -/
def execVshrK (g : Guard) (d : BitVec 6) (a : BitVec 6) (k : BitVec 3) (s : State) : Host.Outcome State Fault Refusal :=
  s.vector (shiftWord .right g d a (.k k) s)

/-- VSHR (R142). -/
def execVshrI (g : Guard) (d : BitVec 6) (a : BitVec 6) (im : BitVec 6) (s : State) : Host.Outcome State Fault Refusal :=
  s.vector (shiftWord .right g d a (.imm im) s)

/-- VSAR (R142). -/
def execVsar (g : Guard) (d : BitVec 6) (a : BitVec 6) (b : BitVec 6) (s : State) : Host.Outcome State Fault Refusal :=
  s.vector (shiftWord .arith g d a (.reg b) s)

/-- VSAR (R142). -/
def execVsarK (g : Guard) (d : BitVec 6) (a : BitVec 6) (k : BitVec 3) (s : State) : Host.Outcome State Fault Refusal :=
  s.vector (shiftWord .arith g d a (.k k) s)

/-- VSAR (R142). -/
def execVsarI (g : Guard) (d : BitVec 6) (a : BitVec 6) (im : BitVec 6) (s : State) : Host.Outcome State Fault Refusal :=
  s.vector (shiftWord .arith g d a (.imm im) s)

/-- VSEL (R143). -/
def execVsel (neg : BitVec 1) (g : BitVec 4) (d a : BitVec 6) (b : BitVec 6) (s : State) : Host.Outcome State Fault Refusal :=
  s.vector (selWord neg g d a (.reg b) s)

/-- VSEL (R143). -/
def execVselK (neg : BitVec 1) (g : BitVec 4) (d a : BitVec 6) (k : BitVec 3) (s : State) : Host.Outcome State Fault Refusal :=
  s.vector (selWord neg g d a (.k k) s)

/-- VSEL (R143). -/
def execVselI (neg : BitVec 1) (g : BitVec 4) (d a : BitVec 6) (im : BitVec 6) (s : State) : Host.Outcome State Fault Refusal :=
  s.vector (selWord neg g d a (.imm im) s)

/-- VCMPEQ (R144). -/
def execVcmpeq (g : Guard) (p : BitVec 4) (a : BitVec 6) (b : BitVec 6) (s : State) : Host.Outcome State Fault Refusal :=
  s.vector (cmpWord .eq g p a (.reg b) s)

/-- VCMPEQ (R144). -/
def execVcmpeqK (g : Guard) (p : BitVec 4) (a : BitVec 6) (k : BitVec 3) (s : State) : Host.Outcome State Fault Refusal :=
  s.vector (cmpWord .eq g p a (.k k) s)

/-- VCMPEQ (R144). -/
def execVcmpeqI (g : Guard) (p : BitVec 4) (a : BitVec 6) (im : BitVec 6) (s : State) : Host.Outcome State Fault Refusal :=
  s.vector (cmpWord .eq g p a (.imm im) s)

/-- VCMPNE (R144). -/
def execVcmpne (g : Guard) (p : BitVec 4) (a : BitVec 6) (b : BitVec 6) (s : State) : Host.Outcome State Fault Refusal :=
  s.vector (cmpWord .ne g p a (.reg b) s)

/-- VCMPNE (R144). -/
def execVcmpneK (g : Guard) (p : BitVec 4) (a : BitVec 6) (k : BitVec 3) (s : State) : Host.Outcome State Fault Refusal :=
  s.vector (cmpWord .ne g p a (.k k) s)

/-- VCMPNE (R144). -/
def execVcmpneI (g : Guard) (p : BitVec 4) (a : BitVec 6) (im : BitVec 6) (s : State) : Host.Outcome State Fault Refusal :=
  s.vector (cmpWord .ne g p a (.imm im) s)

/-- VCMPLT (R144). -/
def execVcmplt (g : Guard) (p : BitVec 4) (a : BitVec 6) (b : BitVec 6) (s : State) : Host.Outcome State Fault Refusal :=
  s.vector (cmpWord .lt g p a (.reg b) s)

/-- VCMPLT (R144). -/
def execVcmpltK (g : Guard) (p : BitVec 4) (a : BitVec 6) (k : BitVec 3) (s : State) : Host.Outcome State Fault Refusal :=
  s.vector (cmpWord .lt g p a (.k k) s)

/-- VCMPLT (R144). -/
def execVcmpltI (g : Guard) (p : BitVec 4) (a : BitVec 6) (im : BitVec 6) (s : State) : Host.Outcome State Fault Refusal :=
  s.vector (cmpWord .lt g p a (.imm im) s)

/-- VCMPLE (R144). -/
def execVcmple (g : Guard) (p : BitVec 4) (a : BitVec 6) (b : BitVec 6) (s : State) : Host.Outcome State Fault Refusal :=
  s.vector (cmpWord .le g p a (.reg b) s)

/-- VCMPLE (R144). -/
def execVcmpleK (g : Guard) (p : BitVec 4) (a : BitVec 6) (k : BitVec 3) (s : State) : Host.Outcome State Fault Refusal :=
  s.vector (cmpWord .le g p a (.k k) s)

/-- VCMPLE (R144). -/
def execVcmpleI (g : Guard) (p : BitVec 4) (a : BitVec 6) (im : BitVec 6) (s : State) : Host.Outcome State Fault Refusal :=
  s.vector (cmpWord .le g p a (.imm im) s)

/-- VWADD (R145). -/
def execVwadd (g : Guard) (d : BitVec 6) (a : BitVec 6) (b : BitVec 6) (s : State) : Host.Outcome State Fault Refusal :=
  s.vector (widenWord (fun _ x y => x + y) (fun m _ x y => addNum m x y) g d a (.reg b) s)

/-- VWADD (R145). -/
def execVwaddK (g : Guard) (d : BitVec 6) (a : BitVec 6) (k : BitVec 3) (s : State) : Host.Outcome State Fault Refusal :=
  s.vector (widenWord (fun _ x y => x + y) (fun m _ x y => addNum m x y) g d a (.k k) s)

/-- VWADD (R145). -/
def execVwaddI (g : Guard) (d : BitVec 6) (a : BitVec 6) (im : BitVec 6) (s : State) : Host.Outcome State Fault Refusal :=
  s.vector (widenWord (fun _ x y => x + y) (fun m _ x y => addNum m x y) g d a (.imm im) s)

/-- VWMUL (R145). -/
def execVwmul (g : Guard) (d : BitVec 6) (a : BitVec 6) (b : BitVec 6) (s : State) : Host.Outcome State Fault Refusal :=
  s.vector (widenWord (fun _ x y => x * y) (fun _ _ x y => mulNum x y) g d a (.reg b) s)

/-- VWMUL (R145). -/
def execVwmulK (g : Guard) (d : BitVec 6) (a : BitVec 6) (k : BitVec 3) (s : State) : Host.Outcome State Fault Refusal :=
  s.vector (widenWord (fun _ x y => x * y) (fun _ _ x y => mulNum x y) g d a (.k k) s)

/-- VWMUL (R145). -/
def execVwmulI (g : Guard) (d : BitVec 6) (a : BitVec 6) (im : BitVec 6) (s : State) : Host.Outcome State Fault Refusal :=
  s.vector (widenWord (fun _ x y => x * y) (fun _ _ x y => mulNum x y) g d a (.imm im) s)

/-- VWMADD (R145). -/
def execVwmadd (g : Guard) (d : BitVec 6) (a : BitVec 6) (b : BitVec 6) (s : State) : Host.Outcome State Fault Refusal :=
  s.vector (widenWord (fun d x y => d + x * y) (fun m d x y => fmaNum m d x y) g d a (.reg b) s)

/-- VWMADD (R145). -/
def execVwmaddK (g : Guard) (d : BitVec 6) (a : BitVec 6) (k : BitVec 3) (s : State) : Host.Outcome State Fault Refusal :=
  s.vector (widenWord (fun d x y => d + x * y) (fun m d x y => fmaNum m d x y) g d a (.k k) s)

/-- VWMADD (R145). -/
def execVwmaddI (g : Guard) (d : BitVec 6) (a : BitVec 6) (im : BitVec 6) (s : State) : Host.Outcome State Fault Refusal :=
  s.vector (widenWord (fun d x y => d + x * y) (fun m d x y => fmaNum m d x y) g d a (.imm im) s)

/-- VDOT4 (R146). -/
def execVdot4 (g : Guard) (d : BitVec 6) (a : BitVec 6) (b : BitVec 6) (s : State) : Host.Outcome State Fault Refusal :=
  s.vector (dotWord g d a (.reg b) s)

/-- VDOT4 (R146). -/
def execVdot4K (g : Guard) (d : BitVec 6) (a : BitVec 6) (k : BitVec 3) (s : State) : Host.Outcome State Fault Refusal :=
  s.vector (dotWord g d a (.k k) s)

/-- PAND (R147). -/
def execPand (g : Guard) (d a b : BitVec 4) (s : State) : Host.Outcome State Fault Refusal := s.vector (predWord Nat.land g d a b s)

/-- POR (R147). -/
def execPor (g : Guard) (d a b : BitVec 4) (s : State) : Host.Outcome State Fault Refusal := s.vector (predWord Nat.lor g d a b s)

/-- PXOR (R147). -/
def execPxor (g : Guard) (d a b : BitVec 4) (s : State) : Host.Outcome State Fault Refusal := s.vector (predWord Nat.xor g d a b s)

/-- PNOT (R147). -/
def execPnot (g : Guard) (d a : BitVec 4) (s : State) : Host.Outcome State Fault Refusal := s.vector (predWord (fun x _ => 2 ^ 1024 - 1 - x) g d a a s)

/-- PCNT (R148). -/
def execPcnt (g : Guard) (k : BitVec 3) (p : BitVec 4) (s : State) : Host.Outcome State Fault Refusal :=
  s.vector (kWord k (fun s => countBits (lanesOf (fmtWidth s.vty)) (s.counted g p)) s)

/-- PFIRST (R148). -/
def execPfirst (g : Guard) (k : BitVec 3) (p : BitVec 4) (s : State) : Host.Outcome State Fault Refusal :=
  s.vector (kWord k (fun s => firstBit (lanesOf (fmtWidth s.vty)) (s.counted g p)) s)

/-- PLEN (R149). -/
def execPlenK (g : Guard) (p : BitVec 4) (k : BitVec 3) (s : State) : Host.Outcome State Fault Refusal := s.vector (plenWord g p (.k k) s)

/-- PLEN with an immediate count (R149). -/
def execPlenI (g : Guard) (p : BitVec 4) (im : BitVec 6) (s : State) : Host.Outcome State Fault Refusal := s.vector (plenWord g p (.imm im) s)

/-- VSHAPE (R129). -/
def execVshape (k : BitVec 3) (s : State) : Host.Outcome State Fault Refusal := s.vector (shapeWord k s)

/-- VMOV (R150). -/
def execVmov (g : Guard) (d a : BitVec 6) (s : State) : Host.Outcome State Fault Refusal := s.vector (movWord g d (.reg a) s)

/-- VMOV of a register (R150). -/
def execVmovK (g : Guard) (d : BitVec 6) (k : BitVec 3) (s : State) : Host.Outcome State Fault Refusal := s.vector (movWord g d (.k k) s)

/-- VMOV of an immediate (R150). -/
def execVmovI (g : Guard) (d : BitVec 6) (im : BitVec 6) (s : State) : Host.Outcome State Fault Refusal := s.vector (movWord g d (.imm im) s)

/-- VROT (R133). -/
def execVrot (s : State) : Host.Outcome State Fault Refusal := s.onVec fun b => rotWord b s

end Sys2Proof.Machine
end

