-- ==== Sys2Proof/Machine/VecConv.lean ====
section
/-! DEFINITION. Vector words that convert, quantise, divide, reduce and permute, and VRAND (spec/06_vector_ops.md R152 to R166). -/

namespace Sys2Proof.Machine

/-! ### Conversions between widths (R152, R153, R158) -/

/-- Width steps from type `t` to format `f` (R75). -/
def stepsTo (t f : Nat) : Int := (fmtStep f : Int) - fmtStep t

/-- A word that converts each element from type `t` to format `f` by `conv`, after the checks of its formats and registers (R152). `t` is
TYPE, or the one type that the word accepts. -/
def cvtWord (t : Nat) (g : Guard) (d a : BitVec 6) (f : Nat) (fmtOk : Nat → Bool) (typeOk : Nat → Bool)
    (conv : State → Nat → Nat → Nat × BitVec 8) (s : State) : Except Stop State :=
  let k := stepsTo t f
  let m := groupOf k.natAbs
  if !fmtOk f || k.natAbs ≥ 3 then .error (trapC 0x0A)
  else match alignE (if k > 0 then d else a) m with
    | .error e => .error e
    | .ok _ =>
      match s.typeE typeOk with
      | .error e => .error e
      | .ok _ =>
        let src := if k < 0 then s.readGroup a.toNat m (fmtWidth t) else s.lanes a.toNat (fmtWidth t)
        let old := if k > 0 then s.readGroup d.toNat m (fmtWidth f) else s.lanes d.toNat (fmtWidth f)
        let r := mapLanes (fun i _ x _ => conv s i x) 0 (s.active g) old src src
        let s := if k > 0 then s.writeGroup d.toNat m (fmtWidth f) r.1 else s.writeLanes d.toNat (fmtWidth f) r.1
        .ok (s.orFlags r.2).retireV

def cvtLane (f : Nat) (s : State) (i x : Nat) : Nat × BitVec 8 := convertNum f s.vrm (s.srOf i) (decodeNum s.vty x)

def narrowLane (f : Nat) (s : State) (_ x : Nat) : Nat × BitVec 8 := fitInt f s.visat (intVal s.vty x)

/-- A sum of lg6 terms carries 8 fractional bits. -/
def lgcvtLane (f : Nat) (s : State) (i x : Nat) : Nat × BitVec 8 :=
  convertNum f s.vrm (s.srOf i) (scaleNum (Num.ofInt (intVal 0x04 x)) (-8))

/-! ### Quantised images (R96, R154, R155) -/

/-- The 32-byte trailer of a payload. -/
def trailer (largest sat count f : Nat) (payload : List Byte) : List Byte :=
  natBytes 4 largest ++ natBytes 4 sat ++ natBytes 4 count ++ [BitVec.ofNat 8 f, 0, 0, 0] ++ natBytes 4 (crc32c payload) ++
    List.replicate 12 0

/-- The next 32-byte boundary. -/
def next32 (n : Nat) : Nat := (n + 31) / 32 * 32

/-- Largest magnitude as f32, rounded to nearest; NaN if any value is NaN (R96). -/
def largestF32 (l : List Num) : Nat :=
  if l.any Num.isNan then 0x7FC00000
  else if l.any Num.isInf then 0x7F800000
  else (convertNum 0x15 0 0 (.fin false (maxMag l).1 (maxMag l).2 false)).1

/-- Cut a list into pieces of `k`. -/
def pieces {α : Type} (k : Nat) : Nat → List α → List (List α)
  | 0, _ => []
  | n + 1, l => if l.isEmpty then [] else l.take k :: pieces k n (l.drop k)

/-- Quantise whole blocks of 32: elements, scales, flags, and how many elements were clamped (R87). -/
def quantAll (f : Nat) (mode : Mode) : List (List Num) → List (List Nat) → List Nat × List Nat × BitVec 8 × Nat
  | x :: xs, r :: rs =>
    let q := quantBlock f mode x r
    let t := quantAll f mode xs rs
    (q.2.1 ++ t.1, q.1 :: t.2.1, q.2.2.1 ||| t.2.2.1, q.2.2.2 + t.2.2.2)
  | _, _ => ([], [], 0, 0)

/-- Elements packed as R76 sets out. -/
def packBytes (w : Nat) (l : List Nat) : List Byte := natBytes ((l.length * w + 7) / 8) (pack w l)

/-- A block format that does not raise 0x0A under TYPE `t`: bx16 does under f16 and bf16 (R154). -/
def imageFmt (t f : Nat) : Bool := isBlock f && !(f == 0x1A && (t == 0x13 || t == 0x14))

def quantWord (d a : BitVec 6) (f : Nat) (s : State) : Except Stop State :=
  let t := s.vty
  if !imageFmt t f then .error (trapC 0x0A)
  else match s.typeE isFlt with
    | .error e => .error e
    | .ok _ =>
      let n := lanesOf (fmtWidth t)
      let x := (s.lanes a.toNat (fmtWidth t)).map (decodeNum t)
      let rs := (List.range n).map s.srOf
      let q := quantAll f s.vrm (pieces 32 n x) (pieces 32 n rs)
      let payload := packBytes (fmtWidth f) q.1 ++ q.2.1.map (BitVec.ofNat 8)
      let image := payload ++ List.replicate (next32 payload.length - payload.length) 0 ++
        trailer (largestF32 x) q.2.2.2 n f payload
      .ok ((s.writeV d.toNat (bytesNat image)).orFlags q.2.2.1).retireV

def deqWord (g : Guard) (d a : BitVec 6) (f : Nat) (s : State) : Except Stop State :=
  let t := s.vty
  if !imageFmt t f then .error (trapC 0x0A)
  else match s.typeE isFlt with
    | .error e => .error e
    | .ok _ =>
      let n := lanesOf (fmtWidth t)
      let w := fmtWidth f
      let v := s.readV a.toNat
      let scale (i : Nat) := v / 2 ^ (n * w + 8 * (i / 32)) % 256
      let r := mapLanes (fun i _ x _ =>
          if scale i = 0xFF then (fnan t, fIV) else convertNum t s.vrm (s.srOf i) (blockNum f (scale i) x))
        0 (s.active g) (s.lanes d.toNat (fmtWidth t)) (unpack w n v) (unpack w n v)
      .ok ((s.writeLanes d.toNat (fmtWidth t) r.1).orFlags r.2).retireV

/-! ### lg6 (R156, R157) -/

def lgmulWord (g : Guard) (d a b : BitVec 6) (s : State) : Except Stop State :=
  laneWord g d a (.reg b) isLg (fun _ _ _ y z => lgMul y z) s

/-- The terms of four products, and their flags. -/
def lgSum4 : Nat → List Nat → List Nat → Int × BitVec 8
  | n + 1, a :: as, b :: bs =>
    let p := lgMul a b
    let t := lgSum4 n as bs
    (lgTerm p.1 + t.1, p.2 ||| t.2)
  | _, _, _ => (0, 0)

def lgaddWord (g : Guard) (d a b : BitVec 6) (s : State) : Except Stop State :=
  match s.typeE isLg with
  | .error e => .error e
  | .ok _ =>
    let r := mapLanes (fun _ x y z =>
        let t := lgSum4 4 (unpack 8 4 y) (unpack 8 4 z)
        let q := fitInt 0x04 s.visat (intVal 0x04 x + t.1)
        (q.1, q.2 ||| t.2)) 0 (s.active g) (s.lanes d.toNat 32) (s.lanes a.toNat 32) (s.lanes b.toNat 32)
    .ok ((s.writeLanes d.toNat 32 r.1).orFlags r.2).retireV

/-! ### Division and special functions (R159, R160) -/

def divWord (g : Guard) (d a : BitVec 6) (b : Form) (s : State) : Except Stop State :=
  laneWord g d a b isFlt
    (fun s i _ y z => fitFlt s.vty s.vrm (s.srOf i) (divNum (decodeNum s.vty y) (decodeNum s.vty z))) s

def specWord (fn : SpecFn) (g : Guard) (d a : BitVec 6) (s : State) : Except Stop State :=
  laneWord g d a (.reg a) isFlt (fun s i _ y _ => special fn s.vty s.vrm (s.srOf i) y) s

/-! ### Reductions and scans (R101, R161, R162) -/

inductive Red where
  | sum | max | min
deriving DecidableEq, Repr

/-- One node of the tree; the lower lane is the left operand, and the random bits are those of the result's lane (log 15). -/
def redOp (s : State) (k : Red) (i a b : Nat) : Nat × BitVec 8 :=
  match k with
  | .sum => s.arith s.vty (fun _ x y => x + y) (fun m _ x y => addNum m x y) i a a b
  | .max => minmaxLane true s.vty a b
  | .min => minmaxLane false s.vty a b

/-- The value with which an inactive lane enters (R101). -/
def redIdentity (f : Nat) (k : Red) : Nat :=
  match k with
  | .sum => if isInt f then 0 else 2 ^ (fmtWidth f - 1)
  | .max => if isInt f then wrap (fmtWidth f) (intMin f) else 2 ^ (fmtWidth f - 1) + fmax f + 1
  | .min => if isInt f then wrap (fmtWidth f) (intMax f) else fmax f + 1

/-- Combine two lists lane by lane. -/
def zipOp (op : Nat → Nat → Nat → Nat × BitVec 8) : Nat → List Nat → List Nat → List Nat × BitVec 8
  | i, a :: as, b :: bs =>
    let r := op i a b
    let t := zipOp op (i + 1) as bs
    (r.1 :: t.1, r.2 ||| t.2)
  | _, _, _ => ([], 0)

/-- The tree of R101: each level pairs lane i with lane i + n/2. -/
def tree (op : Nat → Nat → Nat → Nat × BitVec 8) : Nat → List Nat → Nat × BitVec 8
  | 0, l => (l.headD 0, 0)
  | fuel + 1, l =>
    if l.length ≤ 1 then (l.headD 0, 0)
    else
      let r := zipOp op 0 (l.take (l.length / 2)) (l.drop (l.length / 2))
      let t := tree op fuel r.1
      (t.1, r.2 ||| t.2)

/-- The lanes of a, with the identity where the guard excludes one. -/
def withIdentity (z : Nat) : Nat → List Nat → List Nat
  | m, x :: t => (if m % 2 = 1 then x else z) :: withIdentity z (m / 2) t
  | _, [] => []

def reduceWord (k : Red) (g : Guard) (d a : BitVec 6) (s : State) : Except Stop State :=
  match s.typeE tIntFlt with
  | .error e => .error e
  | .ok _ =>
    let w := fmtWidth s.vty
    let l := withIdentity (redIdentity s.vty k) (s.active g) (s.lanes a.toNat w)
    let r := tree (redOp s k) 12 l
    let old := s.readV d.toNat
    .ok ((s.writeV d.toNat (old - old % 2 ^ w + r.1 % 2 ^ w)).orFlags r.2).retireV

/-- One level of a scan at distance `n` (R162). -/
def scanLevel (op : Nat → Nat → Nat → Nat × BitVec 8) (n : Nat) (l : List Nat) : List Nat × BitVec 8 :=
  let r := zipOp op n l (l.drop n)
  (l.take n ++ r.1, r.2)

def scanGo (op : Nat → Nat → Nat → Nat × BitVec 8) : Nat → Nat → List Nat → List Nat × BitVec 8
  | 0, _, l => (l, 0)
  | fuel + 1, n, l =>
    if n ≥ l.length then (l, 0)
    else
      let r := scanLevel op n l
      let t := scanGo op fuel (2 * n) r.1
      (t.1, r.2 ||| t.2)

/-- A scan (R162). The nodes of inactive lanes set their flags too (log 114). -/
def scanWord (excl : Bool) (g : Guard) (d a : BitVec 6) (s : State) : Except Stop State :=
  match s.typeE tIntFlt with
  | .error e => .error e
  | .ok _ =>
    let w := fmtWidth s.vty
    let l := withIdentity (redIdentity s.vty .sum) (s.active g) (s.lanes a.toNat w)
    let r := scanGo (redOp s .sum) 12 1 l
    let out := if excl then 0 :: r.1 else r.1
    let m := mapLanes (fun _ _ x _ => (x, 0)) 0 (s.active g) (s.lanes d.toNat w) out out
    .ok ((s.writeLanes d.toNat w m.1).orFlags r.2).retireV

/-! ### Permutes (R163, R164) -/

/-- A permute: lane i of vd is found from the whole register a and lane i of b. -/
def permWord (g : Guard) (d a : BitVec 6) (b : Form) (f : State → Nat → Nat → Nat → Nat → Nat) (s : State) : Except Stop State :=
  let v := s.readV a.toNat
  laneWord g d a (match b with | .reg r => .reg r | _ => .reg a) tAny
    (fun s i _ _ z => (lgMask s.vty (f s v (fmtWidth s.vty) i z), 0)) s

def laneAt (v w i : Nat) : Nat := if i < lanesOf w then v / 2 ^ (i * w) % 2 ^ w else 0

def zipWord (g : Guard) (d a b : BitVec 6) (s : State) : Except Stop State :=
  match alignE d 2, s.typeE tAny with
  | .error e, _ => .error e
  | _, .error e => .error e
  | .ok _, .ok _ =>
    let w := fmtWidth s.vty
    let n := lanesOf w
    let x := (interleave n [s.lanes a.toNat w, s.lanes b.toNat w]).map (lgMask s.vty)
    let put (r : Nat) (l : List Nat) (t : State) : State :=
      t.writeLanes r w (mapLanes (fun _ _ x _ => (x, 0)) 0 (s.active g) (s.lanes r w) l l).1
    .ok (put (d.toNat + 1) (x.drop n) (put d.toNat (x.take n) s)).retireV

def unzipWord (g : Guard) (d a : BitVec 6) (s : State) : Except Stop State :=
  match alignE d 2, alignE a 2, s.typeE tAny with
  | .error e, _, _ => .error e
  | _, .error e, _ => .error e
  | _, _, .error e => .error e
  | .ok _, .ok _, .ok _ =>
    let w := fmtWidth s.vty
    let x := (s.lanes a.toNat w ++ s.lanes (a.toNat + 1) w).map (lgMask s.vty)
    let put (r : Nat) (l : List Nat) (t : State) : State :=
      t.writeLanes r w (mapLanes (fun _ _ x _ => (x, 0)) 0 (s.active g) (s.lanes r w) l l).1
    .ok (put (d.toNat + 1) (every 2 1 x) (put d.toNat (every 2 0 x) s)).retireV

/-! ### VRAND (R166) -/

def tRand (f : Nat) : Bool := isInt f || isFlt f

/-- A lane's value from the generator's output. -/
def randLane (f : Nat) (g : Word) : Nat :=
  let frac (n : Nat) : Nat := (convertNum f 1 0 (.fin false (g.toNat % 2 ^ n) (-(n : Int)) false)).1
  match f with
  | 0x15 => frac 24
  | 0x13 => frac 11
  | 0x14 => frac 8
  | _ => g.toNat % 2 ^ fmtWidth f

def randWord (g : Guard) (d : BitVec 6) (s : State) : Except Stop State :=
  laneWord g d d (.reg d) tRand (fun s i _ _ _ => (randLane s.vty (s.laneSeed 2 i), 0)) s

/-! ### The words -/

/-- VCVT (R152). -/
def execVcvt (g : Guard) (d a : BitVec 6) (f : BitVec 6) (s : State) : Host.Outcome State Fault Refusal :=
  s.vector (cvtWord s.vty g d a f.toNat tAny tAny (cvtLane f.toNat) s)

/-- VNARROW (R153). -/
def execVnarrow (g : Guard) (d a : BitVec 6) (f : BitVec 6) (s : State) : Host.Outcome State Fault Refusal :=
  s.vector (cvtWord s.vty g d a f.toNat (fun c => isInt c && decide (stepsTo s.vty c < 0)) isInt (narrowLane f.toNat) s)

/-- VQUANT (R154). -/
def execVquant (d a : BitVec 6) (f : BitVec 6) (s : State) : Host.Outcome State Fault Refusal :=
  s.vector (quantWord d a f.toNat s)

/-- VDEQ (R155). -/
def execVdeq (g : Guard) (d a : BitVec 6) (f : BitVec 6) (s : State) : Host.Outcome State Fault Refusal :=
  s.vector (deqWord g d a f.toNat s)

/-- VLGMUL (R156). -/
def execVlgmul (g : Guard) (d a : BitVec 6) (b : BitVec 6) (s : State) : Host.Outcome State Fault Refusal :=
  s.vector (lgmulWord g d a b s)

/-- VLGADD (R157). -/
def execVlgadd (g : Guard) (d a : BitVec 6) (b : BitVec 6) (s : State) : Host.Outcome State Fault Refusal :=
  s.vector (lgaddWord g d a b s)

/-- VLGCVT (R158). -/
def execVlgcvt (g : Guard) (d a : BitVec 6) (f : BitVec 6) (s : State) : Host.Outcome State Fault Refusal :=
  s.vector (cvtWord 0x04 g d a f.toNat (fun c => isFlt c || isLg c) (fun t => t == 0x04) (lgcvtLane f.toNat) s)

/-- VDIV (R159). -/
def execVdiv (g : Guard) (d a : BitVec 6) (b : BitVec 6) (s : State) : Host.Outcome State Fault Refusal :=
  s.vector (divWord g d a (.reg b) s)

/-- VDIV by a k register (R159). -/
def execVdivK (g : Guard) (d a : BitVec 6) (k : BitVec 3) (s : State) : Host.Outcome State Fault Refusal :=
  s.vector (divWord g d a (.k k) s)

/-- VEXP2 (R160). -/
def execVexp2 (g : Guard) (d a : BitVec 6) (s : State) : Host.Outcome State Fault Refusal :=
  s.vector (specWord .exp2 g d a s)

/-- VLOG2 (R160). -/
def execVlog2 (g : Guard) (d a : BitVec 6) (s : State) : Host.Outcome State Fault Refusal :=
  s.vector (specWord .log2 g d a s)

/-- VRCP (R160). -/
def execVrcp (g : Guard) (d a : BitVec 6) (s : State) : Host.Outcome State Fault Refusal :=
  s.vector (specWord .rcp g d a s)

/-- VRSQRT (R160). -/
def execVrsqrt (g : Guard) (d a : BitVec 6) (s : State) : Host.Outcome State Fault Refusal :=
  s.vector (specWord .rsqrt g d a s)

/-- VTANH (R160). -/
def execVtanh (g : Guard) (d a : BitVec 6) (s : State) : Host.Outcome State Fault Refusal :=
  s.vector (specWord .tanh g d a s)

/-- VSIGM (R160). -/
def execVsigm (g : Guard) (d a : BitVec 6) (s : State) : Host.Outcome State Fault Refusal :=
  s.vector (specWord .sigm g d a s)

/-- VSQRT (R160). -/
def execVsqrt (g : Guard) (d a : BitVec 6) (s : State) : Host.Outcome State Fault Refusal :=
  s.vector (specWord .sqrt g d a s)

/-- VRSUM (R161). -/
def execVrsum (g : Guard) (d a : BitVec 6) (s : State) : Host.Outcome State Fault Refusal :=
  s.vector (reduceWord .sum g d a s)

/-- VRMAX (R161). -/
def execVrmax (g : Guard) (d a : BitVec 6) (s : State) : Host.Outcome State Fault Refusal :=
  s.vector (reduceWord .max g d a s)

/-- VRMIN (R161). -/
def execVrmin (g : Guard) (d a : BitVec 6) (s : State) : Host.Outcome State Fault Refusal :=
  s.vector (reduceWord .min g d a s)

/-- VSCAN (R162). -/
def execVscan (g : Guard) (d a : BitVec 6) (s : State) : Host.Outcome State Fault Refusal :=
  s.vector (scanWord false g d a s)

/-- VSCAN.EXCL (R162). -/
def execVscanExcl (g : Guard) (d a : BitVec 6) (s : State) : Host.Outcome State Fault Refusal :=
  s.vector (scanWord true g d a s)

/-- VPERM (R163). -/
def execVperm (g : Guard) (d a : BitVec 6) (b : BitVec 6) (s : State) : Host.Outcome State Fault Refusal :=
  s.vector (permWord g d a (.reg b) (fun _ v w _ z => laneAt v w (z % lanesOf w)) s)

/-- VSLIDE by a k register (R163). -/
def execVslideK (g : Guard) (d a : BitVec 6) (k : BitVec 3) (s : State) : Host.Outcome State Fault Refusal :=
  s.vector (permWord g d a (.k k) (fun s v w i _ => if (i : Int) + (s.readK k).toInt < 0 then 0 else laneAt v w ((i : Int) + (s.readK k).toInt).toNat) s)

/-- VSLIDE by an immediate (R163). -/
def execVslideI (g : Guard) (d a : BitVec 6) (im : BitVec 6) (s : State) : Host.Outcome State Fault Refusal :=
  s.vector (permWord g d a (.imm im) (fun _ v w i _ => laneAt v w (i + im.toNat)) s)

/-- VBCAST by a k register (R163). -/
def execVbcastK (g : Guard) (d a : BitVec 6) (k : BitVec 3) (s : State) : Host.Outcome State Fault Refusal :=
  s.vector (permWord g d a (.k k) (fun s v w _ _ => laneAt v w (s.readK k).toNat) s)

/-- VBCAST by an immediate (R163). -/
def execVbcastI (g : Guard) (d a : BitVec 6) (im : BitVec 6) (s : State) : Host.Outcome State Fault Refusal :=
  s.vector (permWord g d a (.imm im) (fun _ v w _ _ => laneAt v w im.toNat) s)

/-- VZIP (R164). -/
def execVzip (g : Guard) (d a : BitVec 6) (b : BitVec 6) (s : State) : Host.Outcome State Fault Refusal :=
  s.vector (zipWord g d a b s)

/-- VUNZIP (R164). -/
def execVunzip (g : Guard) (d a : BitVec 6) (s : State) : Host.Outcome State Fault Refusal :=
  s.vector (unzipWord g d a s)

/-- VRAND (R166). -/
def execVrand (g : Guard) (d : BitVec 6) (s : State) : Host.Outcome State Fault Refusal :=
  s.vector (randWord g d s)

end Sys2Proof.Machine
end

