-- ==== Sys2Proof/Machine/Copy.lean ====
section
/-! DEFINITION. The copy words and what their units do after issue (spec/09_transfer.md R234 to R252). -/

namespace Sys2Proof.Machine

/-! ### The two sides of a copy -/

/-- A tensor seen through a handle, or a z region (R234). -/
inductive Side where
  | mem (v : View)
  | acc (bay base rows cols : Nat) (i32 : Bool)
deriving DecidableEq, Repr

def Side.fmt : Side → Nat
  | .mem v => v.fmt
  | .acc _ _ _ _ i => if i then 0x04 else 0x15

def Side.width (x : Side) : Nat := fmtWidth x.fmt

/-- The shape as R208 bounds it: L of the handle, and the rest of the tensor from ORG. -/
def Side.lims : Side → List Nat
  | .mem v => min (v.ext.headD 0) (eExt v.w 0 - v.org) :: v.ext.drop 1
  | .acc _ _ r c _ => [r, c]

def Side.shape : Side → List Nat
  | .mem v => v.ext
  | .acc _ _ r c _ => [r, c]

def Side.rank (x : Side) : Nat := x.shape.length

def Side.tid : Side → Nat
  | .mem v => v.tid
  | .acc .. => 0xFFFF

def Side.isPlane : Side → Bool
  | .mem v => v.plane
  | .acc .. => false

def Side.isCmp : Side → Bool
  | .mem v => v.cmp
  | .acc .. => false

def Side.trl : Side → Bool
  | .mem v => v.trl
  | .acc .. => false

/-- Region z (R187); a use of a region that is not well-formed raises PARAM_WORD or TILE_SHAPE. -/
def zSide (b : Nat) (w : Word) : Except Stop Side :=
  let base := bits w 17 0
  let rows := bits w 27 18
  let cols := bits w 36 28
  if bits w 63 57 ≠ 0 then .error (trapC 0x3F)
  else if rows = 0 ∨ rows > 512 ∨ cols = 0 ∨ cols > 256 ∨ base + rows * cols > accEntries then .error (trapC 0x2A)
  else .ok (.acc b base rows cols (bit w 37))

/-- Spaces with ACC among them. -/
def spBayAcc : Spaces := 0x07
def spAll : Spaces := 0x7F
def spBankAcc : Spaces := 0x03

/-- The space of an operand that needs no walk is checked at issue (R237). -/
def Side.early (x : Side) (slot : Nat) (spaces : Spaces) : Except Stop Unit :=
  match x with
  | .mem v => guardE (ePaged v.w || spaces.testBit (eSpace v.w)) (trapT (0x44 + slot) v.tid 0 false)
  | .acc .. => guardE (spaces.testBit 1) (trapC (0x44 + slot))

/-- Place an element that is in bounds. -/
def Side.place (x : Side) (c : Ctx) (slot : Nat) (write : Bool) (spaces : Spaces) (k : List Nat) (s : State) : Except Stop (List Span) :=
  match x with
  | .mem v => s.placeElem c v slot write spaces k
  | .acc b base _ cols _ =>
    let e := base + k.headD 0 * cols + (k.drop 1).headD 0
    .ok [⟨e * 4, 4, ⟨1, accAddr b e, 0⟩⟩]

def Side.value (x : Side) (k : List Nat) (l : List Byte) : Nat :=
  match x with
  | .mem v => v.elemBits k l
  | .acc .. => bytesNat l

def Side.store (x : Side) (c : Ctx) (k : List Nat) (l : List Span) (val : Nat) (s : State) : State :=
  match x with
  | .mem v => s.writeElem c v k l val
  | .acc .. => s.writeSpans c 0xFFFF l (natBytes 4 val)

/-! ### The parameter set (R234) -/

def CopyRec.w (r : CopyRec) (i : Nat) : Word := nth 0 r.ps i
def CopyRec.h (r : CopyRec) (i : Nat) : Word × Word := (nth 0 r.hs (2 * i), nth 0 r.hs (2 * i + 1))
def CopyRec.rank (r : CopyRec) : Nat := bits (r.w 3) 3 0
def CopyRec.baren (r : CopyRec) : Bool := bit (r.w 3) 4
def CopyRec.slot (r : CopyRec) : Nat := bits (r.w 3) 10 9
def CopyRec.bari (r : CopyRec) : Nat := bits (r.w 3) 47 16
def CopyRec.rm (r : CopyRec) : Nat := bits (r.w 2) 2 0
def CopyRec.fillv (r : CopyRec) : Nat := bits (r.w 2) 63 32
def CopyRec.ext (r : CopyRec) (d : Nat) : Nat := bits (r.w (4 + d)) 31 0
def CopyRec.sorg (r : CopyRec) (d : Nat) : Nat := bits (r.w (4 + d)) 63 32
def CopyRec.dorg (r : CopyRec) (d : Nat) : Nat := bits (r.w (12 + d)) 31 0
def CopyRec.exts (r : CopyRec) : List Nat := (List.range r.rank).map r.ext
def CopyRec.total (r : CopyRec) : Nat := r.exts.foldl (· * ·) 1
def CopyRec.sacc (r : CopyRec) : Bool := bit (r.w 0) 4
def CopyRec.dacc (r : CopyRec) : Bool := bit (r.w 1) 4

/-- A reserved bit that is set; word 0 of an XFILL is ignored. -/
def CopyRec.reservedBad (r : CopyRec) : Bool :=
  (r.op != .fill && bits (r.w 0) 63 9 != 0) || bits (r.w 1) 63 9 != 0 || bits (r.w 2) 31 3 != 0 || decide (r.rm > 4) ||
  bit (r.w 3) 15 || bits (r.w 3) 63 48 != 0 || (List.range 8).any fun d => bits (r.w (12 + d)) 63 32 != 0

/-- FREC0.RST of a fault (R237). -/
def CopyRec.rst (r : CopyRec) : Bool :=
  let same := r.op != .fill && !r.sacc && !r.dacc && bits (r.h 0).1 15 0 == bits (r.h 1).1 15 0
  !same && match r.op with
    | .addw => false
    | .red _ => false
    | _ => true

def CopyRec.srcSpaces (r : CopyRec) (e : Eng) : Spaces :=
  match r.op with
  | .red _ => spBankAcc
  | _ => if e = .L then spAll else spBayAcc

def CopyRec.dstSpaces (r : CopyRec) (e : Eng) : Spaces :=
  match r.op with
  | .red _ => spMem
  | .cast => spAmo
  | .addw => 0x02
  | _ => if e = .L then spBayAcc else spAll

def CopyRec.srcSide (r : CopyRec) (b : Nat) (s : State) : Except Stop Side :=
  if r.sacc then zSide b (nth 0 r.zs 0)
  else match s.viewH (s.bayCtx b) (r.h 0) with
    | .ok v => .ok (.mem v)
    | .error e => .error e

/-- The context of the destination: for an XCAST the banks are the target bay's. -/
def CopyRec.dstCtx (r : CopyRec) (b : Nat) (s : State) : Ctx :=
  if r.op = .cast then { s.bayCtx b with bay := s.peerBay b (r.dests.headD 0) } else s.bayCtx b

def CopyRec.dstSide (r : CopyRec) (b : Nat) (s : State) : Except Stop Side :=
  if r.dacc then zSide b (nth 0 r.zs 1)
  else match s.viewH (r.dstCtx b s) (if r.op = .cast then r.dh.getD (0, 0) else r.h 1) with
    | .ok v => .ok (.mem v)
    | .error e => .error e

/-! ### Formats and shapes (R237, R240, R242, R246, R247) -/

/-- A floating tensor placed into a plane bank of a block format is quantised (R93; log 21). -/
def placesFloat (src dst : Side) : Bool := isFloat src.fmt && dst.isPlane && (dst.fmt == 0x19 || dst.fmt == 0x1A)

/-- The copy dimension along which the blocks of a quantised destination lie: K, which is the last tensor dimension, or in a plane bank the last
but one (R85, R92, R237; log 21). -/
def Side.blockDim (x : Side) : Nat := if x.isPlane then 1 else 0

def CopyRec.extAt (r : CopyRec) (d : Nat) : Nat := if d < r.rank then r.ext d else 1
def CopyRec.dorgAt (r : CopyRec) (d : Nat) : Nat := if d < r.rank then r.dorg d else 0

/-- The destination's elements are quantised by blocks (R87). -/
def CopyRec.quantises (r : CopyRec) (src dst : Side) : Bool :=
  isBlock dst.fmt && (r.op == .conv || (r.op != .fill && src.fmt != dst.fmt))

def addwFmt (dst src : Nat) : Bool :=
  if dst = 0x15 then src == 0x15 || src == 0x13 || src == 0x14 else src == 0x04 || src == 0x03 || src == 0x02

def redIsFloat (op : BitVec 3) : Bool := op == 0 || op == 2 || op == 3

/-- R247: why a fill value is refused. -/
def fillBad (dst : Side) (v : Nat) : Bool :=
  let f := dst.fmt
  let w := fmtWidth f
  (decide (w < 32) && decide (v / 2 ^ w ≠ 0)) || isBlock f || dst.isPlane || dst.isCmp || (isLg f && decide (v / 64 % 4 ≠ 0)) ||
  (isFloat f && (decodeNum f (v % 2 ^ w)).isNan && decide (v % 2 ^ w ≠ fnan f))

/-- The formats of the two sides. -/
def CopyRec.fmtCheck (r : CopyRec) (src dst : Side) : Except Stop Unit :=
  let mixed := isBlock src.fmt || isBlock dst.fmt
  match r.op with
  | .fill => guardE (!fillBad dst r.fillv) (trapC 0x37)
  | .addw => guardE (addwFmt dst.fmt src.fmt) (trapC 0x29)
  | .red op =>
    let f := if redIsFloat op then 0x15 else 0x04
    guardE (src.fmt == f && dst.fmt == f) (trapC 0x35)
  | .conv => .ok ()
  | _ => guardE (src.fmt == dst.fmt || !mixed || placesFloat src dst) (trapT 0x26 dst.tid 0 false)

/-- The copy's dimensions cover the whole tensor, from its first element on. -/
def CopyRec.covers (r : CopyRec) (org : Nat → Nat) : Side → Bool
  | .acc .. => false
  | .mem v =>
    let n := eRank v.w
    v.org == 0 && (List.range n).all fun t =>
      let d := n - 1 - t
      if d < r.rank then org d == 0 && r.ext d == eExt v.w t else eExt v.w t == 1

/-- The copy covers dimension `d` of its destination from the first element to the last. -/
def CopyRec.whole (r : CopyRec) (dst : Side) (d : Nat) : Bool := r.dorgAt d == 0 && r.extAt d == nth 1 dst.shape.reverse d

/-- Shapes of block conversions and of marked destinations (R246): whole rows of copy dimension 0, and in a plane bank, whose blocks lie along
dimension 1 (R85, R92), whole columns of that dimension too. -/
def CopyRec.shapeCheck (r : CopyRec) (src dst : Side) : Except Stop Unit := do
  guardE (!r.quantises src dst || (r.whole dst 0 && r.whole dst dst.blockDim)) (trapC 0x33)
  if dst.trl then
    match r.op with
    | .copy => guardE (src.trl && src.fmt == dst.fmt && r.covers r.sorg src && r.covers r.dorg dst) (trapT 0x23 dst.tid 0 false)
    | .conv => guardE (r.covers r.dorg dst) (trapC 0x33)
    | _ => .ok ()
  else .ok ()

/-- The scale tensor that a block tensor names holds ceil(K/32) scales for each row (R86); XCONV needs one (R85). -/
def CopyRec.scaleCheck (r : CopyRec) (c : Ctx) (needed : Bool) (x : Side) (s : State) : Except Stop Unit :=
  match x with
  | .mem v =>
    if r.op != .fill && isBlock v.fmt && (needed || eSctid v.w != 0xFFFF) then
      match s.scaleView c v with
      | .ok _ => .ok ()
      | .error e => .error e
    else .ok ()
  | .acc .. => .ok ()

/-- Formats, banks and scales of the two sides (R86, R97, R210, R237). -/
def CopyRec.sidesCheck (r : CopyRec) (b : Nat) (src dst : Side) (s : State) : Except Stop Unit := do
  guardE (r.op == .fill || !(src.isPlane || src.isCmp)) (trapT 0x26 src.tid 0 false)
  guardE (r.op == .fill || !dst.isCmp) (trapT 0x26 dst.tid 0 false)
  r.fmtCheck src dst
  r.shapeCheck src dst
  r.scaleCheck (s.bayCtx b) (r.op == .conv) src s
  r.scaleCheck (r.dstCtx b s) (r.quantises src dst) dst s

/-! ### Elements in visiting order (R235) -/

/-- Copy coordinates of visiting position `p`, dimension 0 first. -/
def posCoords : List Nat → Nat → List Nat
  | [], _ => []
  | n :: t, p => p % n :: posCoords t (p / n)

/-- Tensor coordinates, outermost first, of the copy's coordinates `c`. -/
def tensorCoords (rank n : Nat) (c : Nat → Int) : List Int :=
  (List.range rank).map fun t => if rank - 1 - t < n then c (rank - 1 - t) else 0

/-- Where the outermost coordinate comes from the index vector (R243). -/
def CopyRec.indexed (r : CopyRec) : Bool := r.op == .gath || r.op == .scat

def CopyRec.srcCoords (r : CopyRec) (src : Side) (i : List Nat) (ix : Nat) : List Int :=
  tensorCoords src.rank r.rank fun d => if r.op = .gath ∧ d = r.rank - 1 then ix else (r.sorg d + nth 0 i d : Nat)

def CopyRec.dstCoords (r : CopyRec) (dst : Side) (i : List Nat) (ix : Nat) : List Int :=
  tensorCoords dst.rank r.rank fun d => if r.op = .scat ∧ d = r.rank - 1 then ix else (r.dorg d + nth 0 i d : Nat)

def inLims (lims : List Nat) (x : List Int) : Bool := (x.zip lims).all fun (c, n) => decide (0 ≤ c) && decide (c < n)

/-- Position of the first element in visiting order that leaves the limits, if any (R236). -/
def CopyRec.firstOut (r : CopyRec) (lims : List Nat) (org : Nat → Nat) (skip : Bool) : Option Nat :=
  let n := lims.length
  let cand := (List.range r.rank).filterMap fun d =>
    let lim := nth 0 lims (n - 1 - d)
    if (skip && d == r.rank - 1) || decide (org d + r.ext d ≤ lim) then none
    else some ((lim - org d) * ((r.exts.take d).foldl (· * ·) 1))
  cand.foldl (fun a p => match a with | some q => some (min p q) | none => some p) none

def outOf (slot tid : Nat) (shape : List Nat) (x : List Int) : Stop :=
  .trap { cause := BitVec.ofNat 8 (0x54 + slot), tid := BitVec.ofNat 16 tid, wher := BitVec.ofInt 64 (rowIndex shape x) }

/-- The whole index space lies within a side's bounds. -/
def CopyRec.boundsCheck (r : CopyRec) (x : Side) (src : Bool) : Except Stop Unit :=
  match r.firstOut x.lims (if src then r.sorg else r.dorg) (r.op == (if src then .gath else .scat)) with
  | none => .ok ()
  | some p =>
    let i := posCoords r.exts p
    .error (outOf (if src then 0 else 2) x.tid x.shape (if src then r.srcCoords x i 0 else r.dstCoords x i 0))

/-- The index tensor: w32, and every index that the copy reads lies inside it (R243). -/
def CopyRec.indexView (r : CopyRec) (b : Nat) (s : State) : Except Stop View := do
  let v ← s.viewH (s.bayCtx b) (r.h 2)
  guardE (v.fmt == 0x0C) (trapT 0x26 v.tid 0 false)
  v.plainE
  let d := r.rank - 1
  guardE (decide (r.sorg d + r.ext d ≤ v.count)) (v.outside 1 (max (r.sorg d) v.count : Nat))
  return v

/-! ### Issue (R234 to R239, R243, R246, R247) -/

/-- The checks of a copy word at issue, in order: fields, operands, formats, and the bounds of the whole index space. -/
def CopyRec.issueChecks (r : CopyRec) (b : Nat) (e : Eng) (s : State) : Except Stop Unit := do
  guardE (!r.reservedBad) (trapC 0x3F)
  guardE (r.rank != 0 && decide (r.rank ≤ 8) && r.exts.all (· != 0)) (trapC 0x34)
  if r.op = .addw ∧ !r.dacc then .error (trapC 0x46) else .ok ()
  if r.op = .cast then
    guardE (r.w 20 != 0 && decide ((r.w 20).toNat < 2 ^ s.bayCount b)) (trapC 0x36)
    guardE (!r.dacc) (trapC 0x46)
    let src ← r.srcSide b s
    src.early 0 (r.srcSpaces e)
    guardE (decide (r.rank ≤ src.rank)) (trapC 0x34)
    guardE (!(src.isPlane || src.isCmp)) (trapT 0x26 src.tid 0 false)
    r.scaleCheck (s.bayCtx b) false src s
    r.boundsCheck src true
  else
    let dst ← r.dstSide b s
    let src ← if r.op = .fill then .ok dst else r.srcSide b s
    if r.op = .fill then .ok () else src.early 0 (r.srcSpaces e)
    dst.early 2 (r.dstSpaces e)
    guardE (decide (r.rank ≤ src.rank) && decide (r.rank ≤ dst.rank)) (trapC 0x34)
    r.sidesCheck b src dst s
    if r.op = .fill then .ok () else r.boundsCheck src true
    r.boundsCheck dst false
    if r.indexed then (do let _ ← r.indexView b s) else .ok ()

def parC (y : Bay) (c i : Nat) : Word := Tab.get 0 y.par (1024 + c * 32 + i)
def parZ (y : Bay) (z : Nat) : Word := Tab.get 0 y.par (2048 + z * 32)

/-- Set bits of a bay mask, in increasing order. -/
def maskBays (m : Word) : List Nat := (List.range 64).filter fun i => bit m i

/-- The progress record of a copy, with all that it reads at issue (R189). -/
def copyRec (b : Nat) (e : Eng) (op : CopyOp) (c : Nat) (ps : List Nat) (s : State) : CopyRec :=
  let y := s.bay b
  let w (i : Nat) : Word := parC y c i
  let h (n : Nat) : List Word := [(s.handleWords b n).1, (s.handleWords b n).2]
  { op := op, ps := (List.range 21).map w
    hs := h (bits (w 0) 3 0) ++ h (bits (w 1) 3 0) ++ h (bits (w 3) 14 11) ++ h (bits (w 3) 8 5)
    zs := [parZ y (bits (w 0) 8 5), parZ y (bits (w 1) 8 5)], push := ps, pc := s.pc, ordinal := (y.stream e).ordinal
    dests := if op = .cast then maskBays (w 20) else [y.index] }

def withRst {α : Type} (rst : Bool) : Except Stop α → Except Stop α
  | .error (.trap rc) => .error (.trap { rc with rst := rst })
  | x => x

/-- A copy enters its unit. A copy that issues again after its fault takes the place that it kept (R290; log 94). -/
def enterUnit (r : CopyRec) : List CopyRec → List CopyRec
  | [] => [r]
  | q :: t => if q.fallen && q.pc == r.pc then r :: t else q :: enterUnit r t

def copyBody (b : Nat) (e : Eng) (op : CopyOp) (c : Nat) (ps : List Nat) (s : State) : Except Stop State := do
  let r := copyRec b e op c ps s
  withRst r.rst (r.issueChecks b e s)
  return (s.modStream b e fun x => { x with inflight := enterUnit r x.inflight, ordinal := x.ordinal + 1 }).retire

/-- A free in-flight slot (R238). -/
def Stream.hasSlot (x : Stream) : Bool := decide ((x.inflight.filter fun r => !r.xnop && !r.done && !r.fallen).length < 8)

/-- A copy word on a unit that has it. -/
def copyWord (units : List Eng) (op : CopyOp) (w : BitVec 3) (p : Nat) (c : BitVec 4) (t : BitVec 12) (s : State) :
    Host.Outcome State Fault Refusal :=
  s.onUnit fun b e =>
    if units.contains e then issue b e w p t true ((s.bay b).stream e).hasSlot (copyBody b e op c.toNat) s
    else .error (trapC 0x15)

/-- XCOPY (R237). -/
def execXcopy (w p : BitVec 3) (c : BitVec 4) (t : BitVec 12) (s : State) : Host.Outcome State Fault Refusal :=
  copyWord [.L, .W] .copy w p.toNat c t s

/-- XCAST (R239). -/
def execXcast (w : BitVec 3) (p : BitVec 2) (c : BitVec 4) (t : BitVec 12) (s : State) : Host.Outcome State Fault Refusal :=
  copyWord [.W] .cast w p.toNat c t s

/-- XADDW (R240). -/
def execXaddw (w p : BitVec 3) (c : BitVec 4) (t : BitVec 12) (s : State) : Host.Outcome State Fault Refusal :=
  copyWord [.L] .addw w p.toNat c t s

/-- XRED, add f32 (R242). -/
def execXredAddf32 (w : BitVec 3) (p : BitVec 2) (c : BitVec 4) (t : BitVec 12) (s : State) : Host.Outcome State Fault Refusal :=
  copyWord [.W] (.red 0) w p.toNat c t s

/-- XRED, add i32 (R242). -/
def execXredAddi32 (w : BitVec 3) (p : BitVec 2) (c : BitVec 4) (t : BitVec 12) (s : State) : Host.Outcome State Fault Refusal :=
  copyWord [.W] (.red 1) w p.toNat c t s

/-- XRED, max f32 (R242). -/
def execXredMaxf32 (w : BitVec 3) (p : BitVec 2) (c : BitVec 4) (t : BitVec 12) (s : State) : Host.Outcome State Fault Refusal :=
  copyWord [.W] (.red 2) w p.toNat c t s

/-- XRED, min f32 (R242). -/
def execXredMinf32 (w : BitVec 3) (p : BitVec 2) (c : BitVec 4) (t : BitVec 12) (s : State) : Host.Outcome State Fault Refusal :=
  copyWord [.W] (.red 3) w p.toNat c t s

/-- XRED, max i32 (R242). -/
def execXredMaxi32 (w : BitVec 3) (p : BitVec 2) (c : BitVec 4) (t : BitVec 12) (s : State) : Host.Outcome State Fault Refusal :=
  copyWord [.W] (.red 4) w p.toNat c t s

/-- XRED, min i32 (R242). -/
def execXredMini32 (w : BitVec 3) (p : BitVec 2) (c : BitVec 4) (t : BitVec 12) (s : State) : Host.Outcome State Fault Refusal :=
  copyWord [.W] (.red 5) w p.toNat c t s

/-- XGATH (R243). -/
def execXgath (w p : BitVec 3) (c : BitVec 4) (t : BitVec 12) (s : State) : Host.Outcome State Fault Refusal :=
  copyWord [.L, .W] .gath w p.toNat c t s

/-- XSCAT (R243). -/
def execXscat (w p : BitVec 3) (c : BitVec 4) (t : BitVec 12) (s : State) : Host.Outcome State Fault Refusal :=
  copyWord [.L, .W] .scat w p.toNat c t s

/-- XCONV (R237, R246). -/
def execXconv (w p : BitVec 3) (c : BitVec 4) (t : BitVec 12) (s : State) : Host.Outcome State Fault Refusal :=
  copyWord [.L, .W] .conv w p.toNat c t s

/-- XFILL (R237, R247). -/
def execXfill (w p : BitVec 3) (c : BitVec 4) (t : BitVec 12) (s : State) : Host.Outcome State Fault Refusal :=
  copyWord [.L, .W] .fill w p.toNat c t s

/-! ### Faults after issue (R239, R251) -/

/-- Replace the record at `n` of a unit. -/
def State.setRec (s : State) (b : Nat) (e : Eng) (n : Nat) (r : CopyRec) : State :=
  s.modStream b e fun x => { x with inflight := x.inflight.set n r }

/-- The record of a copy's fault. -/
def CopyRec.faultRec (r : CopyRec) (e : Eng) (rc : FaultRec) : FaultRec :=
  let rc := { rc with rst := r.rst, eng := BitVec.ofNat 3 e.code, pc := r.pc, aux := word r.sector }
  if r.op = .cast then
    { rc with cause := 0x5E, wher := word (rc.cause.toNat + at_ (r.dests.headD 0) 8), aux := word ((r.dests.map fun i => 2 ^ i).sum) }
  else rc

/-- A copy's fault halts its stream, and the copy leaves the unit: it moves nothing more, its reservations are kept for a restart, and it keeps
its place among the pushes (R290). A stream records one fault at a time (R198), so while one is outstanding the next waits: each copy keeps its
own reservations. -/
def State.copyFault (s : State) (b : Nat) (e : Eng) (n : Nat) (r : CopyRec) (rc : FaultRec) : State :=
  let x := (s.bay b).stream e
  let r := { r with halted := false, mig := false }
  if x.faulting then s.setRec b e n { r with late := some rc }
  else
    let s := s.modStream b e fun x => { x with
      inflight := x.inflight.set n { r with late := none, fallen := true, opened := false, sentAll := false, push := [], locks := [] }
      kept := r.push }
    s.haltStream b e (r.faultRec e rc)

/-- A fault that has waited for its stream is recorded: a copy that had completed keeps its completion. -/
def State.copyLate (s : State) (b : Nat) (e : Eng) (n : Nat) (r : CopyRec) (rc : FaultRec) : State :=
  if ((s.bay b).stream e).faulting then s
  else if r.done then ((s.setRec b e n { r with late := none }).flush b e).haltStream b e rc
  else s.copyFault b e n { r with late := none } rc

/-- A copy stops at its sector: the Framer services the page or node, or the stream traps. -/
def State.copyStop (s : State) (b : Nat) (e : Eng) (n : Nat) (r : CopyRec) : Stop → State
  | .page cause tid tile entry mig _ =>
    ({ s with cur := .stream b e }.setRec b e n { r with halted := true, mig := mig }).pageFault cause tid tile entry mig 0 (some r.ordinal)
  | .trap rc => s.copyFault b e n r rc
  | _ => s

/-! ### One element's move -/

/-- An element on one side: its coordinates and where it stands. -/
structure Spot where
  x : List Nat
  l : List Span
deriving DecidableEq, Repr

/-- The index of the step that holds a position; 0 for a word without an index vector. -/
def CopyRec.indexOf (r : CopyRec) (b : Nat) (i : List Nat) (s : State) : Except Stop (Nat × State) :=
  if r.indexed then
    match r.indexView b s with
    | .error e => .error e
    | .ok v => s.readIndex (s.bayCtx b) v 1 spAny (r.sorg (r.rank - 1) + nth 0 i (r.rank - 1) : Nat)
  else .ok (0, s)

/-- Bounds and place of one element of a side. -/
def Side.spot (v : Side) (c : Ctx) (slot : Nat) (write : Bool) (spaces : Spaces) (x : List Int) (s : State) : Except Stop Spot :=
  if !inLims v.lims x then .error (outOf slot v.tid v.shape x)
  else match v.place c slot write spaces (x.map Int.toNat) s with
    | .ok l => .ok ⟨x.map Int.toNat, l⟩
    | .error e => .error e

def CopyRec.srcSpot (r : CopyRec) (b : Nat) (e : Eng) (src : Side) (p : Nat) (s : State) : Except Stop (Spot × State) := do
  let i := posCoords r.exts p
  let (ix, s) ← if r.op = .gath then r.indexOf b i s else .ok (0, s)
  let a ← src.spot (s.bayCtx b) 0 false (r.srcSpaces e) (r.srcCoords src i ix) s
  return (a, s)

def CopyRec.dstSpot (r : CopyRec) (b : Nat) (e : Eng) (dst : Side) (p : Nat) (s : State) : Except Stop (Spot × State) := do
  let i := posCoords r.exts p
  let (ix, s) ← if r.op = .scat then r.indexOf b i s else .ok (0, s)
  let a ← dst.spot (r.dstCtx b s) 2 true (r.dstSpaces e) (r.dstCoords dst i ix) s
  match dst with
  | .mem v => s.checkConflicts (r.dstCtx b s) v 2 a.l
  | .acc .. => .ok ()
  return (a, s)

/-- Place the elements of some positions, in order. -/
def spotsOf (f : Nat → State → Except Stop (Spot × State)) : List Nat → State → Except Stop (List Spot × State)
  | [], s => .ok ([], s)
  | p :: t, s =>
    match f p s with
    | .error e => .error e
    | .ok (a, s) =>
      match spotsOf f t s with
      | .error e => .error e
      | .ok (l, s) => .ok (a :: l, s)

/-- Read placed elements. -/
def Side.readAll (v : Side) (c : Ctx) : List Spot → State → List Nat × State
  | [], s => ([], s)
  | a :: t, s =>
    let (b, s) := s.readSpans c a.l
    let (l, s) := v.readAll c t s
    (v.value a.x b :: l, s)

/-- Write values to placed elements, one after another. -/
def Side.putAll (v : Side) (c : Ctx) : List Spot → List Nat → State → State
  | a :: t, x :: xs, s => v.putAll c t xs (v.store c a.x a.l x s)
  | _, _, s => s

/-- Write values to placed elements: a write digest sees one write of each granule (R453). -/
def Side.storeAll (v : Side) (c : Ctx) (l : List Spot) (xs : List Nat) (s : State) : State :=
  (v.putAll c l xs s).oneWrite s c v.tid (l.flatMap fun a => a.l)

/-! ### A sector (R236) -/

def CopyRec.perSector (dst : Side) : Nat := 32768 / dst.width

/-- Positions `lo` and `hi` of a sector. -/
def CopyRec.range (r : CopyRec) (dst : Side) (n : Nat) : Nat × Nat :=
  let k := CopyRec.perSector dst
  (min r.total (n * k), min r.total ((n + 1) * k))

def CopyRec.sectors (r : CopyRec) (dst : Side) : Nat := (r.total + CopyRec.perSector dst - 1) / CopyRec.perSector dst

def upTo (lo hi : Nat) : List Nat := (List.range (hi - lo)).map (lo + ·)

/-- The random bits of XCONV's element at position `i` (R246). -/
def CopyRec.random (r : CopyRec) (b : Nat) (e : Eng) (i : Nat) (s : State) : Nat :=
  let y := s.bay b
  if r.op = .conv ∧ r.rm = 4 then
    (crng y.jobkey (word (at_ 4 60 + at_ y.index 40 + at_ (if e = .W then 1 else 0) 39 + i % 2 ^ 39)) (word r.ordinal)).toNat % 65536
  else 0

def CopyRec.mode (r : CopyRec) : Mode := if r.op = .conv then r.rm else 0

/-- Scales of some elements of a block source; for another source, zeros. -/
def CopyRec.scalesOf (r : CopyRec) (b : Nat) (e : Eng) (src : Side) : List Spot → State → Except Stop (List Nat × State)
  | [], s => .ok ([], s)
  | a :: t, s => do
    let (k, s) ← match src with
      | .mem v =>
        if r.op = .conv ∧ isBlock v.fmt then
          (do
            let q ← s.scaleView (s.bayCtx b) v
            s.readIndex (s.bayCtx b) q 0 (r.srcSpaces e) (v.scaleIndex a.x))
        else .ok (0, s)
      | _ => .ok (0, s)
    let (l, s) ← r.scalesOf b e src t s
    return (k :: l, s)

/-- An element's value. -/
def sideNum (src : Side) (scale x : Nat) : Num := if isBlock src.fmt then blockNum src.fmt scale x else decodeNum src.fmt x

/-- Convert the elements of positions `ps` one by one: bits, flags, and how many were clamped. -/
def CopyRec.convertAll (r : CopyRec) (b : Nat) (e : Eng) (src dst : Side) (s : State) : List Nat → List Nat → List Nat → List Nat × BitVec 8 × Nat
  | p :: ps, x :: xs, k :: ks =>
    let y := if src.fmt = dst.fmt ∧ r.op ≠ .conv then (x, 0) else convertNum dst.fmt r.mode (r.random b e p s) (sideNum src k x)
    let t := r.convertAll b e src dst s ps xs ks
    (y.1 :: t.1, y.2 ||| t.2.1, (if y.2 &&& fSAT ≠ 0 then 1 else 0) + t.2.2)
  | _, _, _ => ([], 0, 0)

/-- Visiting positions one step apart along copy dimension `d`. -/
def CopyRec.stride (r : CopyRec) (d : Nat) : Nat := (r.exts.take d).foldl (· * ·) 1

/-- The first position of the block of 32 along dimension `d` that holds position `p` (R87). -/
def CopyRec.blockStart (r : CopyRec) (d p : Nat) : Nat := p - nth 0 (posCoords r.exts p) d % 32 * r.stride d

/-- The positions of the block that begins at `p`. -/
def CopyRec.blockFrom (r : CopyRec) (d p : Nat) : List Nat :=
  (List.range (min 32 (r.extAt d - nth 0 (posCoords r.exts p) d))).map fun i => p + i * r.stride d

/-- What a sector's move has found out: the state, the flags, and the trailer's largest magnitude and clamped count. -/
structure Moved where
  s : State
  flags : BitVec 8
  big : Nat
  sat : Nat

/-- A sector whose destination is not quantised: place and read the sources, place the destinations, convert, write. An XCAST reads its source
for each destination (log 106). -/
def CopyRec.plainSector (r : CopyRec) (b : Nat) (e : Eng) (src dst : Side) (s : State) : Except Stop Moved := do
  let (lo, hi) := r.range dst r.sector
  let ps := upTo lo hi
  let (a, s) ← spotsOf (r.srcSpot b e src) ps s
  let (ks, s) ← r.scalesOf b e src a s
  let (d, s) ← spotsOf (r.dstSpot b e dst) ps s
  let (xs, s) := src.readAll (s.bayCtx b) a s
  let (ys, f, n) := r.convertAll b e src dst s ps xs ks
  return ⟨dst.storeAll (r.dstCtx b s) d ys s, f, largestF32 ((xs.zip ks).map fun (x, k) => sideNum src k x), n⟩

/-- A quantised block: where it begins, its scale, its elements with their positions, the flags, and how many elements were clamped. -/
structure Quantised where
  at0 : Nat
  scale : Nat
  elems : List (Nat × Nat)
  flags : BitVec 8
  sat : Nat

/-- Quantise blocks, given by their positions (R87). -/
def CopyRec.quantBlocks (r : CopyRec) (b : Nat) (e : Eng) (src dst : Side) (s : State) : List (List Nat) → List Nat → List Nat → List Quantised
  | ps :: t, xs, ks =>
    let n := ps.length
    let q := quantBlock dst.fmt r.mode (((xs.take n).zip (ks.take n)).map fun (x, k) => sideNum src k x) (ps.map fun i => r.random b e i s)
    ⟨ps.headD 0, q.1, ps.zip q.2.1, q.2.2.1, q.2.2.2⟩ :: r.quantBlocks b e src dst s t (xs.drop n) (ks.drop n)
  | [], _, _ => []

/-- Place the scale of the block that begins at position `p`. -/
def CopyRec.scaleSpot (r : CopyRec) (b : Nat) (e : Eng) (v : View) (p : Nat) (s : State) : Except Stop (Spot × State) := do
  let q ← s.scaleView (r.dstCtx b s) v
  let x := (r.dstCoords (.mem v) (posCoords r.exts p) 0).map Int.toNat
  let a ← (Side.mem q).spot (r.dstCtx b s) 2 true (r.dstSpaces e) ((q.coordsOf (v.scaleIndex x)).map Int.ofNat) s
  s.checkConflicts (r.dstCtx b s) q 2 a.l
  return (a, s)

/-- A sector of a block destination: its blocks are quantised whole, each element is written in its own sector, and a scale in the sector
of its block's first element (R87, R246). -/
def CopyRec.quantSector (r : CopyRec) (b : Nat) (e : Eng) (src : Side) (v : View) (s : State) : Except Stop Moved := do
  let dst := Side.mem v
  let d := dst.blockDim
  let (lo, hi) := r.range dst r.sector
  let own := upTo lo hi
  let bl := ((own.map (r.blockStart d)).eraseDups).map (r.blockFrom d)
  let (a, s) ← spotsOf (r.srcSpot b e src) bl.flatten s
  let (ks, s) ← r.scalesOf b e src a s
  let (ds, s) ← spotsOf (r.dstSpot b e dst) own s
  let q ← s.scaleView (r.dstCtx b s) v
  let (sp, s) ← spotsOf (r.scaleSpot b e v) ((bl.map fun ps => ps.headD 0).filter fun p => decide (lo ≤ p)) s
  let (xs, s) := src.readAll (s.bayCtx b) a s
  let qs := r.quantBlocks b e src dst s bl xs ks
  let elems := qs.flatMap fun q => q.elems
  let first := qs.filter fun q => decide (lo ≤ q.at0)
  let s := dst.storeAll (r.dstCtx b s) ds (own.map fun p => ((elems.find? fun x => x.1 = p).map Prod.snd).getD 0) s
  let s := (Side.mem q).storeAll (r.dstCtx b s) sp (first.map fun q => q.scale) s
  return ⟨s, qs.foldl (fun f q => f ||| q.flags) 0, largestF32 ((xs.zip ks).map fun (x, k) => sideNum src k x), (first.map fun q => q.sat).sum⟩

/-- The fill bits of an element (R237). -/
def fillBits (w v : Nat) : Nat := if w ≤ 32 then v % 2 ^ w else wrap 64 (sgn 32 v)

def CopyRec.fillSector (r : CopyRec) (b : Nat) (e : Eng) (dst : Side) (s : State) : Except Stop Moved := do
  let (lo, hi) := r.range dst r.sector
  let (d, s) ← spotsOf (r.dstSpot b e dst) (upTo lo hi) s
  return ⟨dst.storeAll (r.dstCtx b s) d (d.map fun _ => fillBits dst.width r.fillv) s, 0, 0, 0⟩

/-! ### Program order within a unit (R218) -/

/-- The runs of bytes of some positions; a place that cannot be found now has none. -/
def runsOf (f : Nat → State → Except Stop (Spot × State)) (ps : List Nat) (s : State) : List (Nat × Nat) :=
  ps.flatMap fun p => match f p s with
    | .ok (a, _) => a.l.map fun x => (x.loc.addr, x.n)
    | .error _ => []

def meets (a b : List (Nat × Nat)) : Bool := a.any fun (x, n) => b.any fun (y, m) => decide (x < y + m) && decide (y < x + n)

/-- Where the index of position `p`'s step stands (R243). -/
def CopyRec.indexSpot (r : CopyRec) (b p : Nat) (s : State) : Except Stop (Spot × State) := do
  let v ← r.indexView b s
  let i := r.sorg (r.rank - 1) + nth 0 (posCoords r.exts p) (r.rank - 1)
  let a ← (Side.mem v).spot (s.bayCtx b) 1 false spAny ((v.coordsOf i).map Int.ofNat) s
  return (a, s)

/-- Where the scale of position `p`'s element of a block source stands. -/
def CopyRec.srcScaleSpot (r : CopyRec) (b : Nat) (e : Eng) (src : Side) (p : Nat) (s : State) : Except Stop (Spot × State) :=
  match src with
  | .mem v => do
    let q ← s.scaleView (s.bayCtx b) v
    let x := (r.srcCoords src (posCoords r.exts p) 0).map Int.toNat
    let a ← (Side.mem q).spot (s.bayCtx b) 0 false (r.srcSpaces e) ((q.coordsOf (v.scaleIndex x)).map Int.ofNat) s
    return (a, s)
  | .acc .. => .error .wait

/-- The bytes of a run of layout offsets; a place that cannot be found now has none. -/
def State.runBytes (s : State) (c : Ctx) (v : View) (write : Bool) (spaces : Spaces) (o n : Nat) : List (Nat × Nat) :=
  match s.placeAll c v (if write then 2 else 0) write spaces (runSpans o n) with
  | .ok l => l.map fun x => (x.loc.addr, x.n)
  | .error _ => []

/-- The bytes of a marked tensor's payload (R96). -/
def State.payloadBytes (s : State) (c : Ctx) (v : View) (spaces : Spaces) : List (Nat × Nat) :=
  s.runBytes c v false spaces v.payload.1 (v.payload.2 + v.scaleCount) ++
    (match s.scaleView c v with
     | .ok q => if isBlock v.fmt then s.runBytes c q false spaces q.payload.1 q.payload.2 else []
     | .error _ => [])

/-- What the trailer work of a copy reads and writes (R246). -/
def CopyRec.tail (r : CopyRec) (b : Nat) (e : Eng) (s : State) : List (Nat × Nat) × List (Nat × Nat) :=
  let c := s.bayCtx b
  let wr := match r.dstSide b s with
    | .ok (.mem d) => if d.trl && (r.op == .copy || r.op == .conv) then s.runBytes c d true (r.dstSpaces e) d.trailerAt 32 else []
    | _ => []
  let rd := match r.op with
    | .copy => (match r.srcSide b s with
      | .ok (.mem v) => if v.trl then s.payloadBytes c v (r.srcSpaces e) ++ s.runBytes c v false (r.srcSpaces e) v.trailerAt 32 else []
      | _ => [])
    | .conv => (match r.dstSide b s with
      | .ok (.mem d) => if d.trl then s.payloadBytes c d (r.dstSpaces e) else []
      | _ => [])
    | _ => []
  (rd, wr)

/-- The copy with its current destination's handle: an XCAST reads that of the target bay when the destination begins (R239). -/
def CopyRec.aimed (r : CopyRec) (b : Nat) (s : State) : CopyRec :=
  if r.op = .cast ∧ r.dh.isNone then { r with dh := some (s.handleWords (s.peerBay b (r.dests.headD 0)) (bits (r.w 1) 3 0)) } else r

/-- What a copy still reads and writes at its current destination, from its pending sector on (or in that sector alone): elements, indices and
scales, and after the last sector its trailers. -/
def CopyRec.footprintAt (r : CopyRec) (b : Nat) (e : Eng) (one : Bool) (s : State) : List (Nat × Nat) × List (Nat × Nat) :=
  let t := if one then ([], []) else r.tail b e s
  if r.moved then t
  else match r.dstSide b s with
  | .error _ => t
  | .ok dst =>
    let (lo, hi) := r.range dst r.sector
    let ps := upTo lo (if one then hi else r.total)
    let w := runsOf (r.dstSpot b e dst) ps s ++ t.2
    let ix := if r.indexed then runsOf (r.indexSpot b) ps s else []
    match (if r.op = .fill then .error .wait else r.srcSide b s : Except Stop Side) with
    | .error _ => (ix ++ t.1, w)
    | .ok src =>
      let sc := if r.op = .conv ∧ isBlock src.fmt then runsOf (r.srcScaleSpot b e src) ps s else []
      let sw := match dst with
        | .mem v => if r.quantises src dst then runsOf (r.scaleSpot b e v) (ps.map (r.blockStart dst.blockDim)) s else []
        | .acc .. => []
      (runsOf (r.srcSpot b e src) ps s ++ ix ++ sc ++ t.1, w ++ sw)

/-- What a copy still reads and writes at all its destinations; or in its pending sector alone. -/
def CopyRec.footprint (r : CopyRec) (b : Nat) (e : Eng) (one : Bool) (s : State) : List (Nat × Nat) × List (Nat × Nat) :=
  let here := (r.aimed b s).footprintAt b e one s
  if one || r.op != .cast then here
  else
    let later := (upTo 1 r.dests.length).map fun i =>
      (({ r with dests := r.dests.drop i, dh := none, sector := 0, moved := false } : CopyRec).aimed b s).footprintAt b e false s
    (here.1 ++ later.flatMap Prod.fst, here.2 ++ later.flatMap Prod.snd)

/-- Requests of earlier copies that have not been applied. -/
def redRuns (b ordinal : Nat) (s : State) : List (Nat × Nat) :=
  (s.bay b).reds.flatMap fun q => if q.copy < ordinal && !q.applied then [(q.addr, 32)] else []

/-- An earlier copy of the unit still has to read or write what copy `n` is about to read (`rd`) or write (`wr`) (R218). -/
def clashesWith (b : Nat) (e : Eng) (n : Nat) (r : CopyRec) (rd wr : List (Nat × Nat)) (s : State) : Bool :=
  let early := (((s.bay b).stream e).inflight.take n).filter fun q => !q.settled
  let q := if e = .W then redRuns b r.ordinal s else []
  meets q rd || meets q wr || early.any fun x =>
    let (rd', wr') := x.footprint b e false s
    meets wr' wr || meets wr' rd || meets rd' wr

/-- The next sector of copy `n` has to wait for an earlier copy. -/
def clashes (b : Nat) (e : Eng) (n : Nat) (r : CopyRec) (s : State) : Bool :=
  let (rd, wr) := r.footprint b e true s
  clashesWith b e n r rd wr s

/-- The trailer work of copy `n` has to wait for an earlier copy. -/
def tailClashes (b : Nat) (e : Eng) (n : Nat) (r : CopyRec) (s : State) : Bool :=
  let (rd, wr) := r.tail b e s
  clashesWith b e n r rd wr s

/-! ### COPY_SECTOR_MOVE -/

/-- A bay whose streams may go on: its job runs, is not being saved, and its partition is not frozen; after a restore the faults that were
outstanding have been serviced (R252). -/
def State.goes (s : State) (b : Nat) : Bool :=
  let y := s.bay b
  let x := s.part y.partNo
  y.live && x.frozen.isNone && !(s.jobOf b).idle && !x.faults.any fun f => f.kept && !f.mig && !f.served && f.slot == some y.slotNo

/-- The record after its pending sector has been written: the next sector, the next destination, or every byte. -/
def CopyRec.advance (r : CopyRec) (dst : Side) (now : Word) : CopyRec :=
  let r := { r with opened := false, vals := [], line := 0, sentAll := false, locks := [] }
  if r.sector + 1 < r.sectors dst then { r with sector := r.sector + 1 }
  else if r.dests.length > 1 then { r with sector := 0, dests := r.dests.drop 1, dh := none }
  else { r with moved := true, movedAt := now }

/-- Banks of bay `b` in which placed elements stand. -/
def ownBanks (b : Nat) (l : List Spot) : List Nat :=
  ((l.flatMap fun a => a.l).filterMap fun x =>
    if x.loc.addr < 134217728 ∧ x.loc.addr / 1572864 = b then some (x.loc.addr % 1572864 / 16384) else none).eraseDups

/-- An XADDW source value in the entries' format; a signalling NaN stays one for the addition, which sets IV (R81, R240). -/
def widenAddw (dst src x : Nat) : BitVec 32 :=
  let v := decodeNum src x
  if v.isSig then 0x7F800001 else BitVec.ofNat 32 (convertNum dst 0 0 v).1

/-- XADDW reads the values of its sector; the entries are written line by line (R240), and the banks of its source stay locked until the last
line has been written (R220). -/
def CopyRec.openAddw (r : CopyRec) (b : Nat) (e : Eng) (src dst : Side) (s : State) : Except Stop (State × CopyRec) := do
  let (lo, hi) := r.range dst r.sector
  let (a, s) ← spotsOf (r.srcSpot b e src) (upTo lo hi) s
  let (_, s) ← spotsOf (r.dstSpot b e dst) (upTo lo hi) s
  let (xs, s) := src.readAll (s.bayCtx b) a s
  return (s, { r with opened := true, line := 0, vals := xs.map (widenAddw dst.fmt src.fmt), locks := ownBanks b a })

/-- The address of each byte of a placed element. -/
def Spot.addrs (a : Spot) : List Nat := a.l.flatMap fun x => (List.range x.n).map (x.loc.addr + ·)

def Spot.off (a : Spot) : Nat := (a.l.headD ⟨0, 0, ⟨0, 0, 0⟩⟩).o
def Spot.at0 (a : Spot) : Nat := (a.l.headD ⟨0, 0, ⟨0, 0, 0⟩⟩).loc.addr

/-- Gather elements into requests of one granule each, in the order of their first elements. -/
def intoGranules (l : List (Spot × Nat)) : List (Nat × List (Nat × List Nat × BitVec 32)) :=
  l.foldl (fun q (a, v) =>
    let g := a.off / 32
    let x := (a.off, a.addrs, BitVec.ofNat 32 v)
    if q.any fun y => y.1 = g then q.map fun y => if y.1 = g then (g, y.2 ++ [x]) else y else q ++ [(g, [x])]) []

/-- XRED sends the requests of its sector (R244). -/
def CopyRec.sendRed (r : CopyRec) (op : BitVec 3) (b : Nat) (e : Eng) (src dst : Side) (s : State) : Except Stop (State × CopyRec) := do
  let (lo, hi) := r.range dst r.sector
  let (a, s) ← spotsOf (r.srcSpot b e src) (upTo lo hi) s
  let (d, s) ← spotsOf (r.dstSpot b e dst) (upTo lo hi) s
  let (xs, s) := src.readAll (s.bayCtx b) a s
  let gs := intoGranules (d.zip xs)
  let y := s.bay b
  guardE (decide (y.reds.length + gs.length ≤ 4096)) .wait
  let first (g : Nat) : Spot := ((d.find? fun x => x.off / 32 = g).getD ⟨[], []⟩)
  let mk (k : Nat) (g : Nat × List (Nat × List Nat × BitVec 32)) : RedReq :=
    let x := (first g.1)
    let c := (x.l.headD ⟨0, 0, ⟨0, 0, 0⟩⟩).loc.code
    { seq := y.xseq + BitVec.ofNat 23 k, op := op, addr := x.at0 / 32 * 32, tid := dst.tid, off := g.1 * 32
      space := if c = 3 then .sill else .dram, vals := g.2, sent := s.clock, applied := false, flags := 0, copy := r.ordinal }
  let reqs := (gs.zip (List.range gs.length)).map fun (g, k) => mk k g
  return (s.setBay b { y with reds := y.reds ++ reqs, xseq := y.xseq + BitVec.ofNat 23 gs.length }, { r with sentAll := true, locks := ownBanks b a })

/-- An XCAST's next destination begins: the target bay's handle is read and checked (R239). -/
def CopyRec.begin_ (r : CopyRec) (b : Nat) (e : Eng) (s : State) : Except Stop CopyRec :=
  if r.op ≠ .cast ∨ r.dh.isSome then .ok r
  else do
    let r := r.aimed b s
    let src ← r.srcSide b s
    let dst ← r.dstSide b s
    dst.early 2 (r.dstSpaces e)
    guardE (decide (r.rank ≤ dst.rank)) (trapC 0x34)
    r.sidesCheck b src dst s
    r.boundsCheck dst false
    return r

/-- Add a sector's writes to the copy's own digest (R455). -/
def CopyRec.addDigest (r : CopyRec) (before after : Bay) : CopyRec :=
  { r with dlo := r.dlo + (after.dlo - before.dlo), dhi := r.dhi + (after.dhi - before.dhi) }

/-- Check the pending sector and move it. -/
def CopyRec.step (r : CopyRec) (b : Nat) (e : Eng) (s : State) : Except Stop (State × CopyRec) := do
  let r ← r.begin_ b e s
  let dst ← r.dstSide b s
  let src ← if r.op = .fill then .ok dst else r.srcSide b s
  match r.op with
  | .addw => r.openAddw b e src dst s
  | .red op => r.sendRed op b e src dst s
  | _ =>
    let m ← if r.op = .fill then r.fillSector b e dst s
      else match dst with
        | .mem v => if r.quantises src dst then r.quantSector b e src v s else r.plainSector b e src dst s
        | .acc .. => r.plainSector b e src dst s
    let r := (r.advance dst s.clk.time).addDigest (s.bay b) (m.s.bay b)
    return (m.s.orStreamFlags b e m.flags, { r with tmax := BitVec.ofNat 32 (max r.tmax.toNat m.big), tsat := r.tsat + m.sat })

/-- COPY_SECTOR_MOVE: copy `n` of the unit moves its pending sector. -/
def sectorMove (b : Nat) (e : Eng) (n : Nat) (s : State) : State :=
  match ((s.bay b).stream e).inflight[n]? with
  | none => s
  | some r =>
    match r.late with
    | some rc => if s.goes b then s.copyLate b e n r rc else s
    | none =>
      let s := { s with cur := .stream b e }
      if !s.goes b || r.xnop || r.moved || r.halted || r.opened || r.sentAll || r.fallen || clashes b e n r s then s
      else match r.step b e s with
        | .ok (s, r) => s.setRec b e n r
        | .error x => s.copyStop b e n r x

/-- COPY_SECTOR_MOVE (R236). -/
def execCopySectorMove (bay : Nat) (unit : Unit2) (n : Nat) (s : State) : Host.Outcome State Fault Refusal :=
  .next (sectorMove bay (unitEng unit) n s)

/-! ### XADDW_LINE_WRITE (R240) -/

/-- CLK of a partition modulo 4, in which an XADDW slot lies. -/
def Part.clkSlot (x : Part) : Nat := x.sfcClk.toNat % 4

/-- Entry + x, with the flags of the addition. -/
def addEntry (i32 : Bool) (old x : Nat) : Nat × BitVec 8 :=
  if i32 then convertNum 0x04 0 0 (Num.ofInt (sgn 32 old + sgn 32 x)) else addF32 old x

/-- Add values to entries, one after another. -/
def addEntries (b : Nat) (i32 : Bool) : List (Nat × Nat) → State → State × BitVec 8
  | [], s => (s, 0)
  | (e, x) :: t, s =>
    let r := addEntry i32 (s.rd (accAddr b e) 4) x
    let u := addEntries b i32 t (s.write (accAddr b e) (natBytes 4 r.1))
    (u.1, r.2 ||| u.2)

/-- The entries of a sector's elements, in visiting order. -/
def CopyRec.entries (r : CopyRec) (dst : Side) : List Nat :=
  match dst with
  | .acc _ base _ cols _ =>
    let (lo, hi) := r.range dst r.sector
    (upTo lo hi).map fun p =>
      let x := r.dstCoords dst (posCoords r.exts p) 0
      base + (x.headD 0).toNat * cols + ((x.drop 1).headD 0).toNat
  | .mem _ => []

/-- One line of an XADDW's run (R240, R242). The collision's FREC1 is the first entry that the run would have written in the line (log 116). -/
def addwLine (b n : Nat) (s : State) : State :=
  let y := s.bay b
  match y.l.inflight[n]? with
  | none => s
  | some r =>
    if !y.live || !r.opened || r.halted || r.late.isSome || (s.part y.partNo).clkSlot != r.slot || r.lineAt = some s.clock then s
    else match r.dstSide b s with
      | .error _ => s
      | .ok dst =>
        let es := (r.entries dst).zip r.vals
        let rest := es.drop r.line
        let e0 := (rest.headD (0, 0)).1
        let run := rest.takeWhile fun x => x.1 / 64 = e0 / 64
        let g := e0 / 64 % 16
        let hit := match (s.bent (b / 8)).lastRow with
          | some (c, k, gs) => c = s.clock && k = b && gs.contains g
          | none => false
        if hit then s.copyFault b .L n r { cause := 0xA4, wher := word e0 }
        else
          let (s, f) := addEntries b (dst.fmt = 0x04) (run.map fun x => (x.1, x.2.toNat)) s
          let s := s.orStreamFlags b .L f
          let s := s.modBay b fun y => { y with lines := (s.clock, g) :: y.lines.filter fun x => x.1 = s.clock }
          let r := { r with line := r.line + run.length, lineAt := some s.clock }
          s.setRec b .L n (if r.line ≥ es.length then r.advance dst s.clk.time else r)

/-- XADDW_LINE_WRITE (R240). -/
def execXaddwLineWrite (bay n : Nat) (s : State) : Host.Outcome State Fault Refusal := .next (addwLine bay n s)

/-! ### XRED at the home (R242, R244, R245, R455) -/

/-- The new element of a reduction, and its flags. -/
def redNew (op : BitVec 3) (old x : Nat) : Nat × BitVec 8 :=
  match op.toNat with
  | 0 => addF32 old x
  | 1 => ((old + x) % 2 ^ 32, 0)
  | 2 => minmaxF 0x15 true old x
  | 3 => minmaxF 0x15 false old x
  | 4 => (if sgn 32 old < sgn 32 x then x else old, 0)
  | _ => (if sgn 32 x < sgn 32 old then x else old, 0)

def byteAt (s : State) (as : List Nat) : Nat := bytesNat (as.map fun a => Memory.read s.mem a)

/-- The read-modify-write of each element of a request. -/
def redElems (op : BitVec 3) : List (Nat × List Nat × BitVec 32) → State → State × BitVec 8
  | [], s => (s, 0)
  | (_, as, x) :: t, s =>
    let r := redNew op (byteAt s as) x.toNat
    let u := redElems op t (s.writeAt as (natBytes 4 r.1))
    (u.1, r.2 ||| u.2)

/-- The bytes of a request's elements as they stand: space, offset and byte. -/
def RedReq.written (q : RedReq) (s : State) : List (Nat × Nat × Byte) :=
  q.vals.flatMap fun (o, as, _) => (as.zip (List.range as.length)).map fun (a, i) => (q.space.code, o + i, (Memory.read s.mem a))

/-- The reduction of a request, with its record in the digests of the bays that share it: the granule as written at the home (R453, R455). -/
def redPerform (bs : List Nat) (q : RedReq) (s : State) : State × BitVec 8 :=
  let (s, f) := redElems q.op q.vals s
  (bs.foldl (fun s b => s.digestBytes b q.tid (q.written s)) s, f)

/-- The home of a request: a slice, or the DRAM controllers. -/
def RedReq.home (q : RedReq) : Nat := if q.space = .sill then (q.addr - sillAddr 0 0) / sliceBytes else 64

/-- Homes keep their filter state for each partition and logical bay (R244; log 97): both copies of a paired job share it. -/
def homeKey (part index home : Nat) : Nat := (part * 64 + index) * 128 + home

/-- Newer than the last applied sequence, within a window of 2^22. -/
def newer (last seq : BitVec 23) : Bool :=
  let d := (seq - last).toNat
  decide (1 ≤ d) && decide (d < 2 ^ 22)

def RedReq.sameAs (a b : RedReq) : Bool := a.op == b.op && a.tid == b.tid && a.vals == b.vals

/-- Mark the request with sequence `seq` of bay `b` as applied. -/
def State.redApplied (s : State) (b : Nat) (seq : BitVec 23) (f : BitVec 8) : State :=
  s.modBay b fun y => { y with reds := y.reds.map fun q => if q.seq = seq then { q with applied := true, flags := q.flags ||| f } else q }

/-- A request reaches its home; earlier requests of the bay to that home have arrived before it. A sequence that is not newer, and a request that
has been applied, are only acknowledged again. -/
def redApply (b n : Nat) (s : State) : State :=
  let y := s.bay b
  match y.reds[n]? with
  | none => s
  | some q =>
    if q.applied || ((y.reds.take n).any fun x => x.home = q.home && !x.applied) || q.vals.any fun e => e.2.1.any s.writeWaits then s
    else
      let k := homeKey y.partNo y.index q.home
      let fresh := match (s.homes.find? fun x => x.1 = k) with
        | some (_, last) => newer last q.seq
        | none => true
      if !fresh then s.redApplied b q.seq 0
      else
        let twin := if y.paired then s.twinBay b else none
        let other := twin.map fun t => (t, (s.bay t).reds.find? fun x => x.seq = q.seq)
        match other with
        | some (_, none) => s
        | some (t, some q') =>
          if q.sameAs q' then
            let (s, f) := redPerform [b, t] q s
            let s := { s with homes := Tab.put s.homes k q.seq }
            (s.redApplied b q.seq f).redApplied t q.seq f
          else s.discard y.partNo 0xC4
        | none =>
          let (s, f) := redPerform [b] q s
          { s with homes := Tab.put s.homes k q.seq }.redApplied b q.seq f

/-- XRED_REQUEST_APPLY (R244). -/
def execXredRequestApply (bay n : Nat) (s : State) : Host.Outcome State Fault Refusal := .next (redApply bay n s)

/-- The acknowledgement of an applied request returns with its flags; with the last of a sector's requests the sector is written. -/
def redAck (b n : Nat) (s : State) : State :=
  let y := s.bay b
  match y.reds[n]? with
  | none => s
  | some q =>
    if !q.applied then s
    else
      let s := (s.modBay b fun y => { y with reds := y.reds.eraseIdx n }).orStreamFlags b .W q.flags
      match (y.w.inflight.zip (List.range y.w.inflight.length)).find? fun (r, _) => !r.xnop && r.ordinal = q.copy && r.sentAll with
      | none => s
      | some (r, i) =>
        if (s.bay b).reds.any fun x => x.copy = q.copy then s
        else match r.dstSide b s with
          | .ok dst => s.setRec b .W i (r.advance dst s.clk.time)
          | .error _ => s.setRec b .W i { r with sentAll := false, moved := true, movedAt := s.clk.time, locks := [] }

/-- XRED_ACK (R242, R244). -/
def execXredAck (bay n : Nat) (s : State) : Host.Outcome State Fault Refusal := .next (redAck bay n s)

/-- XRED_RESEND (R244): after 4,096 clk without an acknowledgement, or after a link error, which may come at any time. The home's filter
applies the request once, however often it is sent. -/
def execXredResend (bay n : Nat) (s : State) : Host.Outcome State Fault Refusal :=
  .next (s.modBay bay fun y => match y.reds[n]? with
    | some q => { y with reds := y.reds.set n { q with sent := s.clock } }
    | none => y)

/-! ### COPY_COMPLETION (R241, R246, R455) -/

/-- Trailer work of XCOPY: check the source's, and copy it to a marked destination. -/
def CopyRec.copyTrailer (r : CopyRec) (b : Nat) (e : Eng) (src dst : Side) (s : State) : Except Stop State :=
  match src with
  | .acc .. => .ok s
  | .mem v => do
    let s ← s.checkTrailer (s.bayCtx b) v 0 (r.srcSpaces e)
    match dst with
    | .acc .. => .ok s
    | .mem d =>
      if d.trl then
        let (t, s) ← s.readRun (s.bayCtx b) v 0 (r.srcSpaces e) v.trailerAt 32
        let l ← s.placeAll (s.bayCtx b) d 2 true (r.dstSpaces e) (runSpans d.trailerAt 32)
        s.checkConflicts (s.bayCtx b) d 2 l
        return s.writeSpans (s.bayCtx b) d.tid l t
      else .ok s

/-- XCONV writes the trailer of R96 into a marked destination. -/
def CopyRec.convTrailer (r : CopyRec) (b : Nat) (e : Eng) (d : View) (s : State) : Except Stop State := do
  let c := s.bayCtx b
  let (pay, s) ← s.payloadOf c d 2 (r.dstSpaces e)
  let tr := trailer r.tmax.toNat r.tsat ((eExts d.w).foldl (· * ·) 1) d.fmt pay
  let l ← s.placeAll c d 2 true (r.dstSpaces e) (runSpans d.trailerAt 32)
  s.checkConflicts c d 2 l
  return s.writeSpans c d.tid l tr

def CopyRec.trailerWork (r : CopyRec) (b : Nat) (e : Eng) (s : State) : Except Stop State := do
  if r.op = .copy then
    let src ← r.srcSide b s
    let dst ← r.dstSide b s
    r.copyTrailer b e src dst s
  else if r.op = .conv then
    match r.dstSide b s with
    | .ok (.mem d) => if d.trl then r.convTrailer b e d s else .ok s
    | _ => .ok s
  else .ok s

/-- The barrier object of a copy: its context's place. -/
def CopyRec.barSpan (r : CopyRec) (b : Nat) (s : State) : Except Stop (View × Span) := do
  let v ← s.viewH (s.bayCtx b) (r.h 3)
  v.plainE
  let x ← barPlace (s.bayCtx b) v true r.bari s
  return (v, x)

/-- The copy has completed: its pegs are pushed in order, and an arrival that overran traps, where its stream has another fault on record as
soon as that is no longer outstanding (R198). -/
def State.copyDone (s : State) (b : Nat) (e : Eng) (n : Nat) (r : CopyRec) (tid : Nat) (k : Word) : State :=
  let rc : FaultRec := { cause := 0xA1, eng := BitVec.ofNat 3 e.code, pc := r.pc, tid := BitVec.ofNat 16 tid, wher := word r.bari, aux := k }
  if k ≠ 0 ∧ ((s.bay b).stream e).faulting then s.setRec b e n { r with done := true, late := some rc }
  else
    let s := (s.setRec b e n { r with done := true }).flush b e
    if k = 0 then s else s.haltStream b e rc

/-- The twin's copy with the same ordinal, where it has moved all its bytes too. -/
def twinCopy (b : Nat) (e : Eng) (r : CopyRec) (s : State) : Option (Nat × Nat × CopyRec) :=
  match s.twinBay b with
  | none => none
  | some t =>
    let l := ((s.bay t).stream e).inflight
    ((l.zip (List.range l.length)).find? fun (q, _) => !q.xnop && q.moved && !q.done && q.ordinal = r.ordinal).map fun (q, i) => (t, i, q)

/-- Both copies of a paired job present the same arrival (R455). -/
def sameArrival (r q : CopyRec) (f g : BitVec 8) : Bool := r.bari == q.bari && f == g && r.dlo == q.dlo && r.dhi == q.dhi

/-- The arrival itself: the copy's object, whether it stands in a bank, and the count that the object answers. -/
def CopyRec.arrive (r : CopyRec) (b : Nat) (e : Eng) (s : State) : Except Stop (View × Word × State) := do
  let (v, x) ← r.barSpan b s
  let y := s.bay b
  let (k, s) := barPerform (s.bayCtx b) v.tid x 1 (y.stream e).flags.toNat y.index (s.part y.partNo).sfc.toNat s
  return (v, k, s)

/-- A trap of an arrival that stands for several copies stops each of them (R455). -/
def State.stopAll (s : State) (e : Eng) (x : Stop) (l : List (Nat × Nat × CopyRec)) : State :=
  l.foldl (fun s (b, n, r) => s.copyStop b e n r x) s

/-- The arrival of one copy, or of both copies of a paired job: it is made once, with its result to each (R455), but at an object in a bank each
copy makes it at its own (log 17). -/
def arriveFor (e : Eng) (first : Nat × Nat × CopyRec) (rest : List (Nat × Nat × CopyRec)) (s : State) : State :=
  let (b, n, r) := first
  let all := first :: rest
  match r.arrive b e s with
  | .error (.trap rc) => s.stopAll e (.trap rc) all
  | .error x => s.copyStop b e n r x
  | .ok (v, k, s') =>
    let s' := rest.foldl (fun u (t, _, q) =>
      if eSpace v.w = 0 then (match q.arrive t e u with | .ok (_, _, u) => u | .error _ => u)
      else u.shareDigest s b t) s'
    if bit k 63 then s'.stopAll e (trapT 0xA3 v.tid 0 false) all
    else all.foldl (fun s (b, n, r) => s.copyDone b e n r v.tid k) s'

/-- The arrival at the barrier object, which in a paired job is made once for both copies. -/
def copyArrive (b : Nat) (e : Eng) (n : Nat) (r : CopyRec) (s : State) : State :=
  let y := s.bay b
  if !y.paired then arriveFor e (b, n, r) [] s
  else match twinCopy b e r s with
    | none => s
    | some (t, i, q) =>
      if sameArrival r q (y.stream e).flags ((s.bay t).stream e).flags then
        if (s.jobOf b).primary then arriveFor e (b, n, r) [(t, i, q)] s else arriveFor e (t, i, q) [(b, n, r)] s
      else s.discard y.partNo 0xC4

def copyCompletion (b : Nat) (e : Eng) (n : Nat) (s : State) : State :=
  match ((s.bay b).stream e).inflight[n]? with
  | none => s
  | some r =>
    match r.late with
    | some rc => if (s.bay b).live then s.copyLate b e n r rc else s
    | none =>
    let s := { s with cur := .stream b e }
    if !(s.bay b).live || r.xnop || !r.moved || r.done || r.halted || r.fallen || tailClashes b e n r s then s
    else match r.trailerWork b e s with
      | .error x => s.copyStop b e n r x
      | .ok s => if r.baren then copyArrive b e n r s else s.copyDone b e n r 0 0

/-- COPY_COMPLETION (R241). -/
def execCopyCompletion (bay : Nat) (unit : Unit2) (n : Nat) (s : State) : Host.Outcome State Fault Refusal :=
  .next (copyCompletion bay (unitEng unit) n s)

end Sys2Proof.Machine
end

