-- ==== Sys2Proof/Machine/Image.lean ====
section
/-! DEFINITION. The Cardal image and its checks (spec/02_encoding.md R66 to R74, spec/14_lathwork.md R331, R335). -/

namespace Sys2Proof.Machine

/-! ### Header and directory (R66, R67) -/

/-- `n` bytes at offset `o`, little-endian. -/
def leAt (l : List Byte) (o n : Nat) : Nat := bytesNat ((l.drop o).take n)

/-- Every byte of a range is zero. -/
def zeroAt (l : List Byte) (o n : Nat) : Bool := ((l.drop o).take n).all fun b => b == 0

def imgShape (l : List Byte) : Nat := leAt l 6 1
def imgCount (l : List Byte) : Nat := leAt l 8 4
/-- The image carries a stamp table. -/
def imgDet (l : List Byte) : Bool := (leAt l 7 1).testBit 0

/-- A directory entry. -/
structure ImgRec where
  ty : Nat
  inst : Nat
  off : Nat
  len : Nat
  crc : Nat
deriving DecidableEq, Repr

def imgRecs (l : List Byte) : List ImgRec :=
  (List.range (min (imgCount l) 256)).map fun i =>
    let o := 64 + 16 * i
    ⟨leAt l o 2, leAt l (o + 2) 2, leAt l (o + 4) 4, leAt l (o + 8) 4, leAt l (o + 12) 4⟩

def recBytes (l : List Byte) (r : ImgRec) : List Byte := (l.drop r.off).take r.len

def recsOf (l : List Byte) (ty : Nat) : List ImgRec := (imgRecs l).filter fun r => r.ty = ty

/-- The first record of a type; none carries no bytes. -/
def recOf (l : List Byte) (ty : Nat) : List Byte :=
  match recsOf l ty with
  | r :: _ => recBytes l r
  | [] => []

/-- Code 1: the image has no header that can be read, or another length (log 40). -/
def imgUnread (l : List Byte) : Bool :=
  decide (l.length < 64) || leAt l 0 4 != 0x4C445243 || leAt l 4 2 != 1 || leAt l 12 4 != l.length

/-- Code 2: the CRC of the image, formed with its own field as zero, or of a record. -/
def imgCrcBad (l : List Byte) : Bool :=
  crc32c (l.take 16 ++ [0, 0, 0, 0] ++ l.drop 20) != leAt l 16 4 || (imgRecs l).any fun r => crc32c (recBytes l r) != r.crc

def countOf (l : List Byte) (ty : Nat) : Nat := (recsOf l ty).length

/-- The number of records, or a record that does not lie within the image, so that its CRC cannot be checked. -/
def imgDirBad (l : List Byte) : Bool :=
  imgCount l == 0 || decide (imgCount l > 256) || (imgRecs l).any fun r => decide (r.off + r.len > l.length)

/-- Types and counts of the directory, and records that lie 64-byte aligned within the image. -/
def imgRecsBad (l : List Byte) : Bool :=
  imgDirBad l || (imgRecs l).any (fun r => (r.ty == 0 || (decide (r.ty > 7) && decide (r.ty < 0x8000))) || r.off % 64 != 0) ||
  countOf l 1 != 1 || decide (countOf l 2 > 1) || decide (countOf l 4 > 1) || countOf l 6 != b2n (imgDet l)

/-- Code 4: reserved bytes of the header. -/
def imgReserved (l : List Byte) : Bool := !zeroAt l 20 44 || decide (leAt l 7 1 > 1)

/-! ### Code plane (R68) -/

def sections (rec : List Byte) : List (Nat × Nat) := (List.range 5).map fun i => (leAt rec (8 * i) 4, leAt rec (8 * i + 4) 4)

def planeOf (rec : List Byte) : Plane := ⟨rec.drop 64, sections rec⟩

/-- Code 5. A section lies within the plane's bytes. -/
def sectionsBad (rec : List Byte) : Bool :=
  let ss := sections rec
  let n := rec.length - 64
  decide (rec.length < 64) || decide (n > 65536) || !zeroAt rec 40 24 || (nth (0, 0) ss 0).2 == 0 ||
  ss.any (fun (o, k) => o % 64 != 0 || k % 4 != 0 || decide (o + k > n)) ||
  (List.range 5).any fun i => (List.range i).any fun j =>
    let (a, k) := nth (0, 0) ss i
    let (b, m) := nth (0, 0) ss j
    k != 0 && m != 0 && decide (a < b + m) && decide (b < a + k)

/-! ### Parameter sets (R69) -/

/-- Words of one set of each kind, and how many sets: h, m, c, hf, z. -/
def setShape : List (Nat × Nat) := [(2, 16), (8, 16), (21, 16), (3, 8), (2, 16)]

/-- Where word `w` of set `i` of kind `k` stands in a record, and its key among a bay's parameters. -/
def setWords : List (Nat × Nat) :=
  let go := setShape.foldl (fun (acc : Nat × Nat × List (Nat × Nat)) (x : Nat × Nat) =>
    let (k, at0, l) := acc
    (k + 1, at0 + x.1 * x.2, l ++ ((List.range x.2).flatMap fun i => (List.range x.1).map fun w => (at0 + i * x.1 + w, k * 512 + i * 32 + w)))) (0, 0, [])
  go.2.2

def paramsBad (rec : List Byte) : Bool :=
  rec.length != 4416 || (List.range 16).any fun i => leAt rec (8 * (520 + 2 * i + 1)) 8 != 0

/-- The parameter state that an image gives a bay. -/
def paramTab (rec : List Byte) : Tab Word :=
  setWords.foldl (fun t (o, k) => Tab.set 0 t k (word (leAt rec (8 * o) 8))) []

/-! ### Job tensors and tile-table templates (R70, R71) -/

/-- The entries of a type-2 record, 32 words each. -/
def jobEntries (rec : List Byte) : List (List Word) :=
  (List.range (rec.length / 256)).map fun i => bytesWords 32 (rec.drop (256 * i))

/-- An entry fails as it would at its first use, at the layout unit or, beyond the span of its levels, at the walker (R70, R365). Banks then have their formats of job start (log 41). -/
def jobEntryBad (bays : Nat) (w : List Word) : Bool :=
  entryBad w || eW w 1 != 0 || layoutBad w bays false false || (ePaged w && (eBase w + lastOff w false) / 2 ^ spanBits (eLevels w) != 0)

/-- A node of a template: its record offset and its level. -/
structure TplNode where
  off : Nat
  lvl : Nat
deriving DecidableEq, Repr

/-- A pointer entry of a template; an entry of zeros names nothing (log 42). -/
def tplPointer (w0 w1 : Nat) : Bool := !w0.testBit 6 && (w0 != 0 || w1 != 0)

def tplChild (w0 : Nat) : Nat := w0 / 512 * 512

/-- Offsets of the entries of a node. -/
def nodeEntries (n : TplNode) : List Nat := (List.range (nodeBytes n.lvl / 16)).map fun i => n.off + 16 * i

/-- The nodes that a node reaches. -/
def tplNodes (t : List Byte) : Nat → TplNode → List TplNode
  | 0, n => [n]
  | fuel + 1, n =>
    n :: if n.lvl ≥ 3 then []
         else ((nodeEntries n).filter fun o => tplPointer (leAt t o 8) (leAt t (o + 8) 8)).flatMap fun o =>
           tplNodes t fuel ⟨tplChild (leAt t o 8), n.lvl + 1⟩

/-- All nodes of a template whose root stands at level 4 − LEVELS. -/
def allNodes (t : List Byte) (levels : Nat) : List TplNode := (tplNodes t 3 ⟨0, 4 - levels⟩).eraseDups

/-- An entry as placement rewrites it: `base` is where the record's copy stands in DRAM. -/
def rewriteEntry (dbase base w0 w1 : Nat) : Nat × Nat :=
  if w0.testBit 6 then
    (w0 + (if w0 / 512 % 8 = 4 then dbase * 65536 else 0), w1 + (if w1 % 8 = 4 then dbase * 65536 else 0))
  else if w0 = 0 ∧ w1 = 0 then (0, 0)
  else (tplChild w0 + base + (w0 % 512 / 2 * 2 + 1), w1)

/-- The bytes of a node's copy. -/
def rewriteNode (t : List Byte) (dbase base : Nat) (n : TplNode) : List Byte :=
  (nodeEntries n).flatMap fun o =>
    let (a, b) := rewriteEntry dbase base (leAt t o 8) (leAt t (o + 8) 8)
    natBytes 8 a ++ natBytes 8 b

/-- The frames of 64 KiB that a leaf names from DBASE: FRAME in DRAM and BACK in DRAM. -/
def leafFrames (w0 w1 : Nat) : List (Nat × Nat) :=
  let n := 2 ^ (pageBits (w0 / 128 % 4) - 16)
  (if w0 / 512 % 8 = 4 then [(w0 / 65536, n)] else []) ++ (if w1 % 8 = 4 then [(w1 / 65536, n)] else [])

def tplFrames (t : List Byte) (levels : Nat) : List (Nat × Nat) :=
  (allNodes t levels).flatMap fun n => (nodeEntries n).flatMap fun o =>
    if (leAt t o 8).testBit 6 then leafFrames (leAt t o 8) (leAt t (o + 8) 8) else []

/-- An entry that breaks R365 to R367 once it is rewritten. -/
def tplEntryBad (t : List Byte) (dbase base : Nat) (n : TplNode) (o : Nat) : Bool :=
  let w0 := leAt t o 8
  let w1 := leAt t (o + 8) 8
  let (a, b) := rewriteEntry dbase base w0 w1
  if w0.testBit 6 then
    let i := (o - n.off) / 16
    leafBad (word a) (word b) n.lvl ||
      (w0 / 128 % 4 == 3 && (List.range 32).any fun k => (t.drop (n.off + 16 * (i / 32 * 32 + k))).take 16 != (t.drop o).take 16)
  else if w0 = 0 ∧ w1 = 0 then false
  else decide (n.lvl ≥ 3) || w1 != 4 || pointerBad (word a) (word b) n.lvl

/-- Two nodes share bytes. -/
def nodesMeet (a b : TplNode) : Bool := decide (a.off < b.off + nodeBytes b.lvl) && decide (b.off < a.off + nodeBytes a.lvl)

/-- Code 3 for a template of an entry of LEVELS levels: every node lies within the record at a multiple of its size, the nodes fill the
record end to end, every entry is good, and every frame lies below DSIZE. -/
def tplBad (t : List Byte) (levels dbase dsize : Nat) : Bool :=
  let ns := allNodes t levels
  ns.any (fun n => n.off % nodeBytes n.lvl != 0 || decide (n.off + nodeBytes n.lvl > t.length)) ||
  (ns.map fun n => nodeBytes n.lvl).sum != t.length ||
  ns.any (fun a => ns.any fun b => a != b && nodesMeet a b) ||
  ns.any (fun n => (nodeEntries n).any (tplEntryBad t dbase 0 n)) ||
  (tplFrames t levels).any fun (f, n) => decide (f + n > dsize)

/-- Templates with the index of their job entry, which the directory instance is (R71; log 112). -/
def templates (l : List Byte) : List (Nat × List Byte) := (recsOf l 3).map fun r => (r.inst, recBytes l r)

/-- Code 3 of the job tensors: each paged entry has one template, and each template a paged entry. -/
def tensorsBad (l : List Byte) (bays dbase dsize : Nat) : Bool :=
  let rec2 := recOf l 2
  let es := jobEntries rec2
  let ts := templates l
  rec2.length % 256 != 0 || decide (rec2.length > 8388608) || es.any (jobEntryBad bays) ||
  (List.range es.length).any (fun i => ePaged (nth [] es i) && ((ts.filter fun t => t.1 = i).length != 1)) ||
  ts.any fun (i, t) => decide (i ≥ es.length) || !ePaged (nth [] es i) || tplBad t (eLevels (nth [] es i)) dbase dsize

/-- Bytes of DRAM that the copies of the templates take, each kept 16 KiB aligned (R71). -/
def roundUp (n k : Nat) : Nat := (n + k - 1) / k * k

def areaBytes (l : List Byte) : Nat := ((templates l).map fun (_, t) => roundUp t.length 16384).sum

/-- The frames that an image's leaves name, from DBASE. -/
def imageFrames (l : List Byte) : List (Nat × Nat) :=
  let es := jobEntries (recOf l 2)
  (templates l).flatMap fun (i, t) => tplFrames t (eLevels (nth [] es i))

/-! ### Lathwork variants (R72, R331, R335) -/

structure LathEntry where
  lath : Nat
  cls : Nat
  zero : Nat
  words : List (BitVec 32)
deriving DecidableEq, Repr

/-- `n` lath entries, and whether they fill the record exactly. -/
def lathEntries : Nat → List Byte → List LathEntry × Bool
  | 0, l => ([], l.isEmpty)
  | n + 1, l =>
    let k := leAt l 4 4
    if l.length < 8 + 4 * k then ([], false)
    else
      let ws := (List.range k).map fun i => BitVec.ofNat 32 (leAt l (8 + 4 * i) 4)
      let (t, ok) := lathEntries n (l.drop (8 + 4 * k))
      (⟨leAt l 0 2, leAt l 2 1, leAt l 3 1, ws⟩ :: t, ok)

def varSig (rec : List Byte) : Nat := leAt rec 0 4
def varEntries (rec : List Byte) : List LathEntry := (lathEntries (min (leAt rec 4 2) 208) (rec.drop 8)).1

/-- Class code of a physical lath (R327). -/
def lathCode (n : Nat) : Nat := if n ≤ 16 then 0 else if n ≤ 33 then 1 else if n ≤ 50 then 2 else if n ≤ 76 then 3 else if n ≤ 89 then 4 else 5

/-- A port word that breaks R331; `out` is an output port. -/
def portBad (out : Bool) (bays w : Nat) : Bool :=
  match w % 4 with
  | 0 => false
  | 1 => w / 2 ^ 24 != 0 || decide (pwBay w ≥ bays)
  | 2 => w / 2 ^ 11 % 2 ^ 13 != 0 || w / 2 ^ 25 != 0 || (out && w.testBit 24) || decide (pwPeer w ≥ 104)
  | _ => true

def LathEntry.port (e : LathEntry) (i : Nat) : Nat := (nth 0 e.words i).toNat

/-- The first entry of each lath; the later ones. -/
def firstEntries : List Nat → List LathEntry → List LathEntry
  | _, [] => []
  | seen, e :: t => if seen.contains e.lath then firstEntries seen t else e :: firstEntries (e.lath :: seen) t

def laterEntries : List Nat → List LathEntry → List LathEntry
  | _, [] => []
  | seen, e :: t => if seen.contains e.lath then e :: laterEntries seen t else laterEntries (e.lath :: seen) t

/-- Both ends of each link name each other; several output ports may name one input port. -/
def linksBad (es : List LathEntry) : Bool :=
  es.any fun e => (List.range 4).any fun i =>
    let out := e.port (4 + i)
    let inp := e.port i
    (pwKind out == 2 && !es.any fun f => f.lath == pwPeer out && pwKind (f.port (pwPort out)) == 2) ||
    (pwKind inp == 2 && !es.any fun f =>
      let w := f.port (4 + pwPort inp)
      f.lath == pwPeer inp && pwKind w == 2 && pwPeer w == e.lath && pwPort w == i)

/-- The channels that an entry names: logical bay and channel. -/
def LathEntry.channels (e : LathEntry) : List (Nat × Nat) :=
  ((List.range 8).filter fun i => pwKind (e.port i) == 1).map fun i => (pwBay (e.port i), pwChan (e.port i))

def hasRepeat {α : Type} [BEq α] : List α → Bool
  | [] => false
  | x :: t => t.contains x || hasRepeat t

/-- Code 11. -/
def variantBad (rec : List Byte) (bays : Nat) : Bool :=
  let (es, whole) := lathEntries (min (leAt rec 4 2) 208) (rec.drop 8)
  let fs := firstEntries [] es
  let ls := laterEntries [] es
  decide (leAt rec 4 2 > 208) || !zeroAt rec 6 2 || !whole ||
  es.any (fun e => decide (e.lath ≥ 104) || e.zero != 0 || e.cls != lathCode e.lath || decide (e.words.length < 41) || decide (e.words.length > 4096) ||
    (List.range 8).any fun i => portBad (decide (i ≥ 4)) bays (e.port i)) ||
  linksBad es || hasRepeat (fs.flatMap fun e => e.channels) || hasRepeat (ls.map fun e => e.lath) ||
  ls.any fun e => hasRepeat e.channels || (List.range 8).any fun i =>
    pwKind (e.port i) == 1 && !fs.any fun f => f.lath == e.lath && (List.range 8).any fun k => f.port k == e.port i

/-- The variant that a job runs under a defect-map signature (R30). -/
def variantFor (l : List Byte) (sig : Nat) : Option (List Byte) := ((recsOf l 5).map (recBytes l)).find? fun r => varSig r = sig

def variantEntries (l : List Byte) (sig : Nat) : List LathEntry :=
  match variantFor l sig with
  | some r => varEntries r
  | none => []

/-- The laths of a variant. -/
def variantLaths (l : List Byte) (sig : Nat) : List Nat := ((firstEntries [] (variantEntries l sig)).map fun e => e.lath)

/-! ### Stamp table (R73) -/

structure StampWindow where
  first : Nat
  last : Nat
  bay : Nat
  bent : Nat
  zero : Nat
deriving DecidableEq, Repr

def stampWindows (rec : List Byte) : List StampWindow :=
  (List.range ((rec.length - 8) / 8)).map fun i =>
    let x := leAt rec (8 + 8 * i) 8
    ⟨x % 4096, x / 2 ^ 12 % 4096, x / 2 ^ 24 % 8, x / 2 ^ 27 % 8, x / 2 ^ 30⟩

/-- Code 3: a table of another length than its count says, a reserved bit, or windows of one bent that overlap (log 40). -/
def stampsBad (rec : List Byte) : Bool :=
  let ws := stampWindows rec
  decide (rec.length < 8) || rec.length != 8 + 8 * leAt rec 4 4 || ws.any (fun w => w.zero != 0) ||
  (List.range ws.length).any fun i => (List.range i).any fun k =>
    let a := nth ⟨0, 0, 0, 0, 0⟩ ws i
    let b := nth ⟨0, 0, 0, 0, 0⟩ ws k
    a.bent == b.bent && decide (a.first ≤ b.last) && decide (b.first ≤ a.last)

/-- Code 12: FRAMELEN unlike the partition's. -/
def stampLen (rec : List Byte) : Nat := leAt rec 0 4

/-! ### Jointer chain code (R74) -/

/-- Position, words and family bits of a chain record; none where its length is another. -/
def chainRecord (rec : List Byte) : Option (Nat × List (BitVec 32) × List Bool) :=
  let n := leAt rec 4 4
  if rec.length < 8 ∨ rec.length ≠ 8 + 4 * n + 4 * ((n + 31) / 32) ∨ leAt rec 2 1 > 5 ∨ leAt rec 3 1 ≠ 0 then none
  else some (leAt rec 2 1, (List.range n).map (fun i => BitVec.ofNat 32 (leAt rec (8 + 4 * i) 4)),
    (List.range n).map fun i => (leAt rec (8 + 4 * n + 4 * (i / 32)) 4).testBit (i % 32))

/-- The records of a chain, in the image's order. -/
def chainRecords (l : List Byte) (c : Nat) : List (List Byte) := ((recsOf l 7).map (recBytes l)).filter fun r => leAt r 0 2 = c

end Sys2Proof.Machine
end

