-- ==== Sys2Proof/Machine/Firmware.lean ====
section
/-! DEFINITION. Firmware images and their slots (spec/26_foreman.md R470). -/

namespace Sys2Proof.Machine

/-! ### The header -/

def fwTarget (l : List Byte) : Nat := leAt l 4 1
def fwVersion (l : List Byte) : Nat := leAt l 8 4
def fwSvn (l : List Byte) : Nat := leAt l 12 2
def fwHvMin (l : List Byte) : Nat := leAt l 14 2
def fwHvMax (l : List Byte) : Nat := leAt l 16 2
def fwHver (l : List Byte) : Nat := leAt l 18 2

/-- The checks of R470, in its order; the header's length is that of the image with its header (log 50). -/
def fwGood (target svn : Nat) (l : List Byte) : Bool :=
  decide (l.length ≥ 256) && leAt l 0 4 == 0x4E4D524A && fwTarget l == target && leAt l 20 4 == l.length &&
  sha384 (l.drop 256) == (l.drop 24).take 48 && Config.signatureGood (l.take 168) && decide (fwSvn l ≥ svn)

/-! ### Slots and fuses -/

/-- Key of a slot: target 0 Foreman, 1 Framer; slot false A, true B. -/
def slotKey (target : Nat) (slot : Bool) : Nat := target * 2 + b2n slot

def Foreman.slot (f : Foreman) (target : Nat) (slot : Bool) : List Byte :=
  Tab.get (Config.flash (slotKey target slot)) f.slots (slotKey target slot)

def Foreman.setSlot (f : Foreman) (target : Nat) (slot : Bool) (l : List Byte) : Foreman :=
  { f with slots := Tab.put f.slots (slotKey target slot) l }

/-- The fuse minimum of SVN. -/
def Foreman.svnMin (f : Foreman) (target : Nat) : Nat := Tab.get (Config.svnFuse target) f.svn target

/-- Raise the fuse minimum to that of a committed image. -/
def Foreman.raiseSvn (f : Foreman) (target : Nat) (l : List Byte) : Foreman :=
  { f with svn := Tab.put f.svn target (max (f.svnMin target) (fwSvn l)) }

/-- The slot of a target that runs. -/
def Foreman.runs (f : Foreman) (target : Nat) : Bool := if target = 0 then f.fma else f.fra

/-- The slot holds an image that passes every check. -/
def Foreman.good (f : Foreman) (target : Nat) (slot : Bool) : Bool := fwGood target (f.svnMin target) (f.slot target slot)

end Sys2Proof.Machine
end

