-- ==== Sys2Proof/Machine/Lath.lean ====
section
/-! DEFINITION. The lathwork: tokens and their checks, batches, programs, the class operations of gather, sort, route, dedupe and scan
laths, checkpoints, swaps and recovery (spec/14_lathwork.md R327 to R348). Costs are not modelled (log 27). -/

namespace Sys2Proof.Machine

def State.modLath (s : State) (n : Nat) (f : Lath → Lath) : State := s.setLath n (f (s.lathAt n))

/-! ### Programs and checkpoints (R335, R345) -/

def Lath.progLen (x : Lath) : Nat := x.plane.length - planeHead

/-- The queue position after this word; the program wraps. -/
def Lath.nextPc (x : Lath) : BitVec 12 := if x.pc.toNat + 1 < x.progLen then x.pc + 1 else 0

/-- The program has an LCKPT. -/
def Lath.hasCkpt (x : Lath) : Bool := (x.plane.drop planeHead).any fun w => w.toNat / 2 ^ 28 == 2

/-- A checkpoint frees the tokens consumed before it; replay restarts at `pc`. -/
def Lath.checkpoint (x : Lath) (pc : BitVec 12) : Lath :=
  { x with
    ckpc := pc, ck := some ⟨x.outp.map fun p => p.seqs, x.inp.map fun p => p.last⟩, parity := false
    inp := x.inp.map fun p => { p with store := p.store.filter fun t => !t.used } }

def Lath.retire (x : Lath) : Lath := { x with pc := x.nextPc, hop := none }

/-- A class operation retires: a program with no LCKPT takes an implicit checkpoint. -/
def Lath.retireClass (x : Lath) : Lath := if x.hasCkpt then x.retire else x.retire.checkpoint x.retire.pc

/-- IDLE (R336). -/
def execIdle (n : BitVec 28) (s : State) : Host.Outcome State Fault Refusal :=
  s.onLath fun k => do
    guardE (n != 0) (trapC 0x1F)
    return s.modLath k Lath.retire

/-- LCKPT (R345). -/
def execLckpt (n : BitVec 8) (s : State) : Host.Outcome State Fault Refusal :=
  s.onLath fun k => .ok (s.modLath k fun x => { x.retire.checkpoint x.nextPc with ckn := n })

/-- Every earlier emission has completed and the shadow plane is loaded (R346). -/
def Lath.drained (x : Lath) : Bool := x.shv && x.outp.all fun p => p.emit.isEmpty

/-- Flip to the loaded plane; queues, sequence counters and the thread table are kept. -/
def Lath.flip (x : Lath) : Lath := { x with act := !x.act, shv := false, pc := 0, ckn := 0 }

/-- LSWAP (R346). -/
def execLswap (s : State) : Host.Outcome State Fault Refusal :=
  s.onLath fun k => do
    guardE (s.lathAt k).drained .wait
    return s.modLath k fun x => x.flip.checkpoint 0

/-! ### Batches (R332, R333) -/

/-- A complete batch in the store of an input port: the source, the thread, the header, the data tokens, the places of its first and last
token in the order of arrival, and whether the header is malformed. -/
structure Batch where
  src : Nat
  thread : Nat
  header : Token
  data : List Token
  first : Nat
  last : Nat
  bad : Bool
deriving DecidableEq, Repr

def headerBad (v : Word) : Bool := decide (v.toNat > 192)

/-- The batch that the oldest tokens of one (source, thread) form, where it is complete; a malformed header is taken as it stands. -/
def batchOf (src thread : Nat) : List Stored → Option Batch
  | [] => none
  | h :: t =>
    if headerBad h.tok.1 then some ⟨src, thread, h.tok, [], h.order, h.order, true⟩
    else
      let n := h.tok.1.toNat
      let d := t.take n
      if d.length < n then none
      else some ⟨src, thread, h.tok, d.map fun x => x.tok, h.order, (d.getLast?.getD h).order, false⟩

/-- Unconsumed tokens of a source and thread. -/
def InPort.tokens (p : InPort) (src thread : Nat) : List Stored :=
  p.store.filter fun x => !x.used && x.src == src && tagThread x.tok.2 == thread

/-- The (source, thread) pairs that have tokens. -/
def InPort.lines (p : InPort) : List (Nat × Nat) :=
  ((p.store.filter fun x => !x.used).map fun x => (x.src, tagThread x.tok.2)).eraseDups

def InPort.batches (p : InPort) : List Batch := p.lines.filterMap fun (a, b) => batchOf a b (p.tokens a b)

def bestBatch (f : Batch → Nat) : List Batch → Option Batch
  | [] => none
  | b :: t => some (t.foldl (fun a c => if f c < f a then c else a) b)

/-- Of each source, the batch whose header was stored first. -/
def sourceBest (l : List Batch) : List Batch :=
  ((l.map fun b => b.src).eraseDups).filterMap fun k => bestBatch (fun b => b.first) (l.filter fun b => b.src == k)

/-- ORD = 1: round-robin in increasing source, after the source last served; a source with no complete batch is skipped. -/
def roundRobin (last : Option Nat) (l : List Batch) : Option Batch :=
  let after := match last with
    | some k => l.filter fun b => decide (b.src > k)
    | none => l
  match bestBatch (fun b => b.src) after with
  | some b => some b
  | none => bestBatch (fun b => b.src) l

/-- Output ports of the job's laths that feed input port `i` of lath `n`. -/
def State.feeders (s : State) (n i : Nat) : List Nat :=
  s.laths.flatMap fun (m, x) =>
    if x.slot.isSome && x.slot == (s.lathAt n).slot then
      (List.range 4).filterMap fun o => if s.linkDest m o == some (n, i) then some (linkKey m o) else none
    else []

/-- What a log entry names of a merge (R462): port, source lath or channel, and whether it is a channel. -/
def mergeChoice (x : Lath) (i : Nat) (b : Batch) : Nat :=
  let chan := pwKind (x.portWord i) == 1
  i + at_ (if chan then b.src else b.src / 4) 2 + at_ (b2n chan) 10

/-- The choice at port `i` is a decision point: an unordered merge of several sources. -/
def State.mergePoint (s : State) (n i : Nat) : Bool :=
  !pwOrd ((s.lathAt n).portWord i) && decide ((s.feeders n i).length > 1)

inductive Next where
  | none
  | some (b : Batch)
  /-- replay: the logged choice is not possible, or there is none; what this does to the state. -/
  | other (f : State → State)

def Next.of : Option Batch → Next
  | Option.some b => .some b
  | Option.none => .none

/-- The batch that an operation takes next at input port `i` (R333): round-robin with ORD = 1; of several sources with ORD = 0 the one that was
complete first; and of one source, the one whose header was stored first. -/
def State.nextBatch (s : State) (n i : Nat) : Next :=
  let x := s.lathAt n
  let p := x.inPort i
  let l := p.batches
  if pwOrd (x.portWord i) then Next.of (roundRobin p.last (sourceBest l))
  else if !s.mergePoint n i then Next.of (bestBatch (fun b => b.first) l)
  else
    let free := Next.of (bestBatch (fun b => b.last) l)
    if !l.isEmpty then
      let part := (s.lathCtx n).part
      match s.logSays part 3 n with
      | .free => free
      | .mismatch => .other fun s => s.freeze part (s.lathCtx n).slot
      | .must k _ =>
        match bestBatch (fun b => b.last) (l.filter fun b => mergeChoice x i b == k % 2048) with
        | some b => .some b
        | Option.none => .other fun s => s.logStuck part 3 n (s.lathCtx n).slot
    else free

/-- Mark the oldest `k` unconsumed tokens of a source and thread as consumed; they stay held until the next checkpoint. -/
def markUsed (src thread : Nat) : Nat → List Stored → List Stored
  | _, [] => []
  | k, t :: l =>
    if k ≠ 0 && !t.used && t.src == src && tagThread t.tok.2 == thread then { t with used := true } :: markUsed src thread (k - 1) l
    else t :: markUsed src thread k l

/-- A batch of input port `i` is chosen: where that is a decision point, it is recorded, or its entry is consumed (R462). -/
def State.chosen (s : State) (n i : Nat) (b : Batch) : State :=
  if s.mergePoint n i then s.decided (s.lathCtx n).part 3 n (s.lathCtx n).slot (mergeChoice (s.lathAt n) i b) else s

/-- Consume a batch at input port `i`. -/
def State.consume (s : State) (n i : Nat) (b : Batch) : State :=
  let x := s.lathAt n
  let p := x.inPort i
  s.setLath n (x.setIn i { p with store := markUsed b.src b.thread (b.data.length + 1) p.store, last := some b.src })

/-! ### Emission (R329, R331) -/

/-- Room for 193 tokens; a port of KIND 0 always has room. -/
def Lath.roomAt (x : Lath) (o : Nat) : Bool :=
  pwKind (x.portWord (4 + o)) == 0 || decide ((x.outPort o).emit.length + 193 ≤ 256)

/-- One token into the emission buffer, with the next sequence number of the port and thread. -/
def Lath.emitToken (x : Lath) (o thread : Nat) (v : Word) : Lath :=
  let p := x.outPort o
  let k := Tab.get 0 p.seqs thread
  x.setOut o { p with emit := p.emit ++ [(v, mkTag x.ctx.toNat thread k.toNat)], seqs := Tab.put p.seqs thread (k + 1) }

/-- A batch with its header. -/
def Lath.emitBatch (x : Lath) (o thread : Nat) (l : List Word) : Lath :=
  if pwKind (x.portWord (4 + o)) == 0 then x
  else (word l.length :: l).foldl (fun x v => x.emitToken o thread v) x

/-- The lath's job is loaded or saved, or it has ended: the lath moves nothing (R313, R348, R465). -/
def State.lathAway (s : State) (n : Nat) : Bool :=
  match (s.lathAt n).slot with
  | some j => (s.job j).away
  | none => false

/-- An output port sends the next token as its credits allow; during a resync it does not. -/
def tokenEmission (n o : Nat) (s : State) : State :=
  if s.lathAway n then s else
  let x := s.lathAt n
  let p := x.outPort o
  let w := x.portWord (4 + o)
  let resync := match pwKind w with
    | 1 => match x.slot with
      | some j => ((s.bay (nth 0 (s.job j).bays (pwBay w))).ep (pwChan w)).resync
      | none => false
    | 2 => match s.linkDest n o with
      | some (m, i) => (((s.lathAt m).inPort i).source (linkKey n o)).resync
      | none => false
    | _ => true
  match p.emit with
  | [] => s
  | t :: l =>
    if p.credits = 0 || resync || x.rcv then s
    else s.setLath n (x.setOut o { p with
      emit := l, credits := p.credits - 1, sent := p.sent + 1, wire := p.wire ++ [t], replay := (p.replay ++ [t]).drop (p.replay.length + 1 - 64) })

/-- TOKEN_EMISSION (R331). -/
def execTokenEmission (lath port : Nat) (s : State) : Host.Outcome State Fault Refusal := .next (tokenEmission lath port s)

/-! ### Arrival (R330, R331) -/

/-- What the checks of R330 decide. -/
inductive TokenCase where
  | drop (cause : Option Nat)
  | gap
  | store
deriving DecidableEq, Repr

def Lath.tokenCase (x : Lath) (i k : Nat) (t : Token) : TokenCase :=
  let w := x.portWord i
  let th := tagThread t.2
  if tagCtx t.2 ≠ x.ctx.toNat || x.ctx = 0 then .drop (some 0x60)
  else if (pwKind w == 1 && th != pwThread w) || (!x.threads.contains th && decide (x.threads.length ≥ 64)) then .drop (some 0x66)
  else match seqOrder (Tab.get 0 ((x.inPort i).source k).expect th).toNat (tagSeq t.2) with
    | .below => .drop none
    | .above => .gap
    | .equal => .store

/-- The token enters its source's receive buffer. -/
def Lath.storeToken (x : Lath) (i k : Nat) (t : Token) : Lath :=
  let th := tagThread t.2
  let x := if x.threads.contains th then x else { x with threads := x.threads ++ [th] }
  x.setIn i ((x.inPort i).modSource k fun y => { y with expect := Tab.put y.expect th (BitVec.ofNat 16 (tagSeq t.2 + 1)), buf := y.buf ++ [t] })

/-- A token from source `k` is checked at input port `i`; `drop` returns its credit, `sync` starts a resync. -/
def lathToken (n i k : Nat) (t : Token) (drop sync : State → State) (s : State) : State :=
  match (s.lathAt n).tokenCase i k t with
  | .drop none => drop s
  | .drop (some c) => drop (s.lathCause n c (word t.2.toNat))
  | .gap => sync (drop (s.lathCause n 0x61 (word t.2.toNat)))
  | .store => s.modLath n fun x => x.storeToken i k t

/-- The oldest token on its way from `src` reaches input port `i`: from channel `src % 64` of device bay `src / 64`, or, from 4096 on, over
the link of output port `(src - 4096) % 4` of lath `(src - 4096) / 4`. -/
def lathArrival (n i src : Nat) (s : State) : State :=
  if s.lathAway n then s
  else if src < 4096 then
    let b := src / 64
    let ch := src % 64
    let e := (s.bay b).ep ch
    let port := ((s.lathAt n).channelPort false (s.bay b).index ch).getD 0
    match e.wire with
    | [] => s
    | t :: l =>
      if e.dir || e.peer.toNat ≠ n || port ≠ i then s
      else lathToken n i ch t (dropElement b ch) (startResync b ch) (s.modEp b ch fun e => { e with wire := l })
  else
    let m := (src - 4096) / 4
    let o := (src - 4096) % 4
    let p := (s.lathAt m).outPort o
    match p.wire with
    | [] => s
    | t :: l =>
      if s.linkDest m o ≠ some (n, i) then s
      else
        let k := linkKey m o
        lathToken n i k t (fun s => s.modSource n i k fun x => { x.giveCredit with consumed := x.consumed + 1 })
          (fun s => s.modSource n i k fun x => { x with resync := true })
          (s.modLath m fun x => x.setOut o { p with wire := l })

/-- LATH_TOKEN_ARRIVAL (R330). -/
def execLathTokenArrival (lath port src : Nat) (s : State) : Host.Outcome State Fault Refusal := .next (lathArrival lath port src s)

/-- A token moves from its source's receive buffer into the batch store, which holds 256 tokens, and its credit returns. -/
def batchMove (n i k : Nat) (s : State) : State :=
  let x := s.lathAt n
  let p := x.inPort i
  match (p.source k).buf with
  | [] => s
  | t :: l =>
    if s.lathAway n || decide (p.store.length ≥ 256) then s
    else
      let p := { p.modSource k (fun y => { y with buf := l }) with
        store := p.store ++ [⟨k, p.nextOrder, t, false⟩], nextOrder := p.nextOrder + 1 }
      let s := s.setLath n (x.setIn i p)
      let w := x.portWord i
      if pwKind w == 1 then
        match x.slot with
        | some j => dropElement (nth 0 (s.job j).bays (pwBay w)) k s
        | none => s
      else s.modSource n i k fun y => { y.giveCredit with consumed := y.consumed + 1 }

/-- BATCH_STORE_MOVE (R331). -/
def execBatchStoreMove (lath port src : Nat) (s : State) : Host.Outcome State Fault Refusal := .next (batchMove lath port src s)

/-! ### Parameter slots (R337) -/

/-- The 64 bits of a slot. -/
def Lath.slotWord (x : Lath) (i : Nat) : Nat := (nth 0 x.plane (8 + 2 * i)).toNat + (nth 0 x.plane (9 + 2 * i)).toNat * 2 ^ 32

def sKfmt (w : Nat) : Nat := w % 4
def sKw (w : Nat) : Nat := w / 4 % 128
def sDesc (w : Nat) : Bool := w.testBit 9
def sTopk (w : Nat) : Nat := w / 2 ^ 10 % 256
def sBins (w : Nat) : Nat := w / 2 ^ 18 % 256
def sTid (w : Nat) : Nat := w / 2 ^ 32 % 65536
def sTag (w : Nat) : Nat := w / 2 ^ 48 % 16
def sEw (w : Nat) : Nat := 8 * 2 ^ (w / 2 ^ 52 % 4)
def sReserved (w : Nat) : Bool := w / 2 ^ 26 % 64 != 0 || w / 2 ^ 54 % 1024 != 0

/-- The compare width fits the key format. -/
def sKwOk (w : Nat) : Bool :=
  match sKfmt w with
  | 0 => decide (1 ≤ sKw w) && decide (sKw w ≤ 32)
  | 3 => decide (1 ≤ sKw w) && decide (sKw w ≤ 64)
  | _ => sKw w == 32

/-- The key field (R337). -/
def keyField (w : Nat) (v : Word) : Nat := if sKfmt w = 3 then v.toNat else v.toNat % 2 ^ 32

/-- The compare key as a number that stands in its order (R338): F32 in totalOrder. -/
def compareKey (w : Nat) (v : Word) : Int :=
  let k := keyField w v
  match sKfmt w with
  | 1 => sgn 32 k
  | 2 => if k < 2 ^ 31 then k else -(k - 2 ^ 31 : Int) - 1
  | _ => (k % 2 ^ sKw w : Nat)

/-- A payload with a new key field. -/
def withKey (w : Nat) (v : Word) (k : Nat) : Word :=
  if sKfmt w = 3 then word k else word (v.toNat / 2 ^ 32 * 2 ^ 32 + k % 2 ^ 32)

/-- `x` goes strictly before `y` in the slot's order. -/
def keyBefore (w : Nat) (x y : Word) : Bool :=
  if sDesc w then decide (compareKey w y < compareKey w x) else decide (compareKey w x < compareKey w y)

/-- What an operation checks of its slot. -/
structure SlotUse where
  compare : Bool := false
  topk : Bool := false
  bins : Bool := false
  /-- the key formats that it accepts. -/
  formats : List Nat := [0, 1, 2, 3]

def slotCheck (u : SlotUse) (w : Nat) : Except Stop Unit := do
  guardE (!sReserved w && u.formats.contains (sKfmt w)) (trapC 0x38)
  guardE (!u.compare || sKwOk w) (trapC 0x39)
  guardE (!u.topk || (decide (1 ≤ sTopk w) && decide (sTopk w ≤ 192))) (trapC 0x3A)
  guardE (!u.bins || (decide (1 ≤ sBins w) && decide (sBins w ≤ 192))) (trapC 0x3B)

/-! ### A class operation (R338) -/

/-- A lath's fault carries the tag of a token in FREC2 (R330, R338). -/
def withTag (t : BitVec 32) : Except Stop α → Except Stop α
  | .error (.trap rc) => .error (.trap { rc with aux := word t.toNat })
  | .error (.page c tid tile entry mig _) => .error (.page c tid tile entry mig (word t.toNat))
  | r => r

/-- The batches of the input ports that an operation reads, each chosen after those before it; in a replay, what the operation does where it
still waits. -/
def takeAll (n : Nat) (s : State) : List Nat → Except (State → State) (Option (List Batch))
  | [] => .ok (some [])
  | i :: t =>
    match s.nextBatch n i with
    | .none => .ok none
    | .other f => .error f
    | .some b =>
      match takeAll n (s.chosen n i b) t with
      | .ok (some l) => .ok (some (b :: l))
      | r => r

/-- A class operation waits at an input port whose store is full, or whose next batch would not fit in it beside the tokens held for the last
checkpoint: an implicit checkpoint frees them. -/
def InPort.crowded (p : InPort) : Bool :=
  let held := (p.store.filter fun t => t.used).length
  let need := match (p.store.filter fun t => !t.used) with
    | h :: _ => if headerBad h.tok.1 then 1 else h.tok.1.toNat + 1
    | [] => 0
  held != 0 && (decide (p.store.length ≥ 256) || decide (held + need > 256))

def lathWaits (n : Nat) (ins : List Nat) (s : State) : Except Stop State :=
  let x := s.lathAt n
  if ins.any fun i => (x.inPort i).crowded then .ok (s.setLath n (x.checkpoint x.pc)) else .error .wait

def consumeAll (n : Nat) : List Nat → List Batch → State → State
  | i :: is, b :: bs, s => consumeAll n is bs ((s.chosen n i b).consume n i b)
  | _, _, s => s

/-- What an operation emits: for each output port, the thread and the payloads. -/
abbrev Emission := List (Nat × Nat × List Word)

def emitAll (x : Lath) (l : Emission) : Lath := l.foldl (fun x (o, t, d) => x.emitBatch o t d) x

/-- The steps of R338: wait, check, consume, compute and emit. -/
def classOp (n : Nat) (ins outs : List Nat) (check : Except Stop Unit) (f : List Batch → State → Except Stop (Emission × State)) (s : State) :
    Except Stop State :=
  match takeAll n s ins with
  | .error f => .ok (f s)
  | .ok none => lathWaits n ins s
  | .ok (some bs) =>
    let tag := match bs with | b :: _ => b.header.2 | [] => 0
    if !outs.all (s.lathAt n).roomAt then .error .wait
    else withTag tag check >>= fun _ =>
      if bs.any fun b => b.bad then withTag tag (.error (trapC 0x38))
      else f bs s >>= fun (e, s) =>
        let s := consumeAll n ins bs s
        .ok (s.modLath n fun x => (emitAll x e).retireClass)

/-- An operation with one input and one output port, whose output depends on the payloads alone. -/
def mapOp (n : Nat) (sz : BitVec 4) (i o : BitVec 2) (u : SlotUse) (f : Nat → List Word → List Word) (s : State) : Except Stop State :=
  let w := (s.lathAt n).slotWord sz.toNat
  classOp n [i.toNat] [o.toNat] (slotCheck u w)
    (fun bs s => .ok (bs.map fun b => (o.toNat, b.thread, f w (b.data.map fun t => t.1)), s)) s

/-! ### Sort and route (R340, R341) -/

/-- Stable insertion: `x` goes before the first element that is not before it. -/
def insertKey (before : Word → Word → Bool) (x : Word) : List Word → List Word
  | [] => [x]
  | y :: t => if before y x then y :: insertKey before x t else x :: y :: t

/-- A stable sort. -/
def sortKeys (before : Word → Word → Bool) : List Word → List Word
  | [] => []
  | x :: t => insertKey before x (sortKeys before t)

/-- LSORT (R340). -/
def execLsort (sz : BitVec 4) (im o : BitVec 2) (s : State) : Host.Outcome State Fault Refusal :=
  s.onLath fun n => mapOp n sz im o { compare := true } (fun w l => sortKeys (keyBefore w) l) s

/-- The merge of R340, of as many tokens as the number says; on ties the first list goes first. -/
def mergeKeys (before : Word → Word → Bool) : Nat → List Word → List Word → List Word
  | 0, _, _ => []
  | _ + 1, [], b => b
  | _ + 1, a, [] => a
  | n + 1, x :: a, y :: b => if before y x then y :: mergeKeys before n (x :: a) b else x :: mergeKeys before n a (y :: b)

/-- LMERGE (R340). -/
def execLmerge (sz : BitVec 4) (im o j : BitVec 2) (s : State) : Host.Outcome State Fault Refusal :=
  s.onLath fun n => do
    guardE (im != j) (trapC 0x1A)
    let w := (s.lathAt n).slotWord sz.toNat
    classOp n [im.toNat, j.toNat] [o.toNat] (slotCheck { compare := true } w)
      (fun bs s => match bs with
        | [a, b] =>
          if a.data.length + b.data.length > 192 then withTag a.header.2 (.error (trapC 0x38))
          else .ok ([(o.toNat, a.thread, mergeKeys (keyBefore w) (a.data.length + b.data.length) (a.data.map fun t => t.1) (b.data.map fun t => t.1))], s)
        | _ => .error .place) s

/-- Ports of OMASK, counting from out0. -/
def maskPorts (m : BitVec 4) : List Nat := (List.range 4).filter fun o => m.toNat.testBit o

/-- The tokens of each port of the mask, in batch order. -/
def routeTo (w : Nat) (ports : List Nat) (thread : Nat) (l : List Word) : Emission :=
  (List.range ports.length).map fun d => (nth 0 ports d, thread, l.filter fun v => keyField w v % ports.length == d)

/-- LROUTE (R341). -/
def execLroute (sz : BitVec 4) (im : BitVec 2) (m : BitVec 4) (s : State) : Host.Outcome State Fault Refusal :=
  s.onLath fun n => do
    guardE (m != 0) (trapC 0x1A)
    let w := (s.lathAt n).slotWord sz.toNat
    classOp n [im.toNat] (maskPorts m) (slotCheck { formats := [0, 3] } w)
      (fun bs s => .ok (bs.flatMap fun b => routeTo w (maskPorts m) b.thread (b.data.map fun t => t.1), s)) s

/-- The largest compare keys first, or the smallest with DESC; ties go to the earlier token. -/
def topBefore (w : Nat) (x y : Word) : Bool :=
  if sDesc w then decide (compareKey w x < compareKey w y) else decide (compareKey w y < compareKey w x)

/-- LTOPK (R341). -/
def execLtopk (sz : BitVec 4) (im o : BitVec 2) (s : State) : Host.Outcome State Fault Refusal :=
  s.onLath fun n => mapOp n sz im o { compare := true, topk := true } (fun w l => (sortKeys (topBefore w) l).take (sTopk w)) s

/-! ### Dedupe and scan (R342, R343) -/

/-- Tokens whose compare key no earlier token of the batch has. -/
def dedupKeys (w : Nat) : List Int → List Word → List Word
  | _, [] => []
  | seen, x :: t => if seen.contains (compareKey w x) then dedupKeys w seen t else x :: dedupKeys w (compareKey w x :: seen) t

/-- LDEDUP (R342). -/
def execLdedup (sz : BitVec 4) (im o : BitVec 2) (s : State) : Host.Outcome State Fault Refusal :=
  s.onLath fun n => mapOp n sz im o { compare := true } (fun w l => dedupKeys w [] l) s

/-- The key field counts as zero: under F32, both zeros. -/
def keyIsZero (w : Nat) (v : Word) : Bool := if sKfmt w = 2 then keyField w v % 2 ^ 31 == 0 else keyField w v == 0

/-- LCOMPACT (R342). -/
def execLcompact (sz : BitVec 4) (im o : BitVec 2) (s : State) : Host.Outcome State Fault Refusal :=
  s.onLath fun n => mapOp n sz im o {} (fun w l => l.filter fun v => !keyIsZero w v) s

/-- A NaN is written canonical. -/
def canonF32 (k : Nat) : Nat := if (decodeNum 0x15 k).isNan then 0x7FC00000 else k

def scanAdd (w a k : Nat) : Nat :=
  match sKfmt w with
  | 2 => (addF32 a k).1
  | 3 => (a + k) % 2 ^ 64
  | _ => (a + k) % 2 ^ 32

/-- Prefix sums from left to right; the first sum is the first key itself, and the empty exclusive sum is 0. -/
def scanKeys (w : Nat) (excl : Bool) : Option Nat → List Word → List Word
  | _, [] => []
  | acc, v :: t =>
    let k := keyField w v
    let sum := match acc with
      | none => if sKfmt w = 2 then canonF32 k else k
      | some a => scanAdd w a k
    withKey w v (if excl then acc.getD 0 else sum) :: scanKeys w excl (some sum) t

/-- LSCAN (R343). -/
def execLscan (sz : BitVec 4) (im o : BitVec 2) (x : BitVec 1) (s : State) : Host.Outcome State Fault Refusal :=
  s.onLath fun n => mapOp n sz im o {} (fun w l => scanKeys w (x == 1) none l) s

/-- One token for each bin: its number, and how many keys fall into it. -/
def histKeys (w : Nat) (l : List Word) : List Word :=
  (List.range (sBins w)).map fun b => word (at_ b 32 + (l.filter fun v => keyField w v % sBins w == b).length)

/-- LHIST (R343). -/
def execLhist (sz : BitVec 4) (im o : BitVec 2) (s : State) : Host.Outcome State Fault Refusal :=
  s.onLath fun n => mapOp n sz im o { bins := true, formats := [0, 3] } histKeys s

/-! ### Gather (R339) -/

/-- The tensor of LGATH: in SILL or DRAM space. -/
def gathView (n w : Nat) (s : State) : Except Stop View :=
  let c := s.lathCtx n
  let e := s.entryWords c (sTid w)
  if entryBad e then .error (trapT 0x85 (sTid w) 0 false)
  else if eSpace e == 0 || eSpace e == 2 then .error (trapT 0x44 (sTid w) 0 false)
  else s.viewOf c (sTid w) (sTag w) true 0 0

/-- Note how far an operation has come. -/
def setHop (n : Nat) (h : HashOp) (s : State) : State := s.modLath n fun x => { x with hop := some h }

/-- Each token's element, in batch order, onto the payloads of the tokens before it. Where the tensor's elements are not EW bits wide, the spec
states no value, and the value read is left free (log 28). At a fault of kind 0 or 3 the lath waits at the token, with the earlier ones done. -/
def gathTokens (n w : Nat) (v : View) : List Token → HashOp → State → Except Stop (Option (List Word) × State)
  | [], h, s => .ok (some (h.out.map word), s)
  | t :: l, h, s =>
    match withTag t.2 (s.readIndex (s.lathCtx n) v 0 spMem (keyField w t.1)) with
    | .error (.page c tid tile entry mig aux) => .ok (none, (setHop n h s).pageFault c tid tile entry mig aux none)
    | .error e => .error e
    | .ok (x, s) =>
      let x := if v.width = sEw w then x else (Config.openValue 28 [v.width, sEw w, x]).toNat % 2 ^ sEw w
      gathTokens n w v l { h with next := h.next + 1, out := h.out ++ [(withKey w t.1 x).toNat] } s

/-- The batch of an operation under way (R339, R378). -/
def hopBatch (n i : Nat) (h : HashOp) (s : State) : Option Batch :=
  batchOf h.src h.thread (((s.lathAt n).inPort i).tokens h.src h.thread)

/-- Read the tokens from the one at which the operation stands, then consume the batch and emit. -/
def gathFrom (n w i o : Nat) (b : Batch) (h : HashOp) (s : State) : Except Stop State := do
  let v ← withTag b.header.2 (gathView n w s)
  match ← gathTokens n w v (b.data.drop h.next) h s with
  | (none, s) => return s
  | (some l, s) => return (s.consume n i b).modLath n fun x => (x.emitBatch o b.thread l).retireClass

/-- LGATH (R339). -/
def execLgath (sz : BitVec 4) (im o : BitVec 2) (s : State) : Host.Outcome State Fault Refusal :=
  s.onLath fun n =>
    let w := (s.lathAt n).slotWord sz.toNat
    let i := im.toNat
    match (s.lathAt n).hop with
    | some h => match hopBatch n i h s with
      | some b => gathFrom n w i o.toNat b h s
      | none => .error .wait
    | none => match s.nextBatch n i with
      | .other f => .ok (f s)
      | .none => lathWaits n [i] s
      | .some b =>
        if !(s.lathAt n).roomAt o.toNat then .error .wait
        else do
          withTag b.header.2 (slotCheck { formats := [0, 3] } w)
          withTag b.header.2 (guardE (!(sKfmt w == 0 && sEw w == 64) && !b.bad) (trapC 0x38))
          gathFrom n w i o.toNat b { src := b.src, thread := b.thread } (s.chosen n i b)

/-! ### The loader and parity recovery (R346, R347) -/

/-- The shadow plane takes over its master copy. -/
def Lath.loaded (x : Lath) : Lath :=
  if x.act then { x with plane0 := x.master0, loading := false, shv := true } else { x with plane1 := x.master1, loading := false, shv := true }

/-- LOADER_COMPLETION (R346). -/
def execLoaderCompletion (lath : Nat) (s : State) : Host.Outcome State Fault Refusal :=
  .next (if (s.lathAt lath).loading then s.modLath lath Lath.loaded else s)

/-- LATH_RELOAD_FAILED discards the owner's partition (R464); without an owner the Foreman logs it. -/
def reloadFailed (n : Nat) (s : State) : State :=
  match (s.lathAt n).slot with
  | some j => s.discard (s.job j).part 0xC3
  | none => s.fmOther n

/-- A parity error in the active plane, at a fetch of a word or at a read of a port word or slot, so while the lath runs a program. -/
def parityError (n : Nat) (s : State) : State :=
  let x := s.lathAt n
  if x.slot.isNone || x.hlt || x.rcv then s
  else if x.parity then reloadFailed n s
  else s.setLath n { x with rcv := true }

/-- PARITY_ERROR (R347). -/
def execParityError (lath : Nat) (s : State) : Host.Outcome State Fault Refusal := .next (parityError lath s)

/-- The reloaded lath restores its last checkpoint; before any, the state at job start. -/
def Lath.recover (x : Lath) : Lath :=
  let k := x.ck.getD ⟨[[], [], [], []], [none, none, none, none]⟩
  { x with
    plane0 := if x.act then x.plane0 else x.master0, plane1 := if x.act then x.master1 else x.plane1
    rcv := false, parity := true, pc := x.ckpc, hop := none, waiting := false
    inp := (x.inp.zip k.lasts).map fun (p, l) => { p with last := l, store := p.store.map fun t => { t with used := false } }
    outp := (x.outp.zip k.seqs).map fun (p, q) => { p with seqs := q } }

def reloadCompletion (n : Nat) (masterBad : Bool) (s : State) : State :=
  let x := s.lathAt n
  if !x.rcv then s
  else if masterBad then reloadFailed n (s.setLath n { x with rcv := false })
  else (s.setLath n x.recover).fmEvent 2 n

/-- RELOAD_COMPLETION (R347). -/
def execReloadCompletion (lath : Nat) (masterBad : Bool) (s : State) : Host.Outcome State Fault Refusal :=
  .next (reloadCompletion lath masterBad s)

end Sys2Proof.Machine
end

