-- ==== Sys2Proof/Machine/Framer.lean ====
section
/-! DEFINITION. Launch queues and the Framer: admission, dependences, selection, placement, start, completion, time limits and
pre-emption (spec/13_framer.md R308 to R326, spec/01_machine.md R14, R15, R27, spec/07_control.md R204, R205). -/

namespace Sys2Proof.Machine

/-! ### Clocks and the Framer's state -/

/-- Main clocks in a microsecond (R1: 3.2 GHz). -/
def clkUs : Nat := 3200

/-- The Framer is running: the device has booted, and no update window is open (R445, R473). -/
def State.framerUp (s : State) : Bool := s.boot.rdy && !s.foreman.hov

/-- The Framer flips bays: it also finishes the flips under way while it quiesces for an update (R471). -/
def State.framerFlips (s : State) : Bool := s.boot.rdy && !s.foreman.started

def State.modJob (s : State) (n : Nat) (f : Job → Job) : State := s.setJob n (f (s.job n))

/-- The copies of a job: its entry, and its twin's where it is paired (R454). -/
def State.copies (s : State) (n : Nat) : List Nat := n :: (s.job n).twin.toList

/-- The key of a twin beside the scoreboard. -/
def twinSlot (n : Nat) : Nat := n + 1024

/-- Every bay of the job, its twin's included. -/
def State.allBays (s : State) (n : Nat) : List Nat := (s.copies n).flatMap fun k => (s.job k).bays

/-- Scoreboard entries of a partition's jobs, in order of admission. -/
def State.board (s : State) (p : Nat) : List (Nat × Job) :=
  sortBy (fun e => e.2.order) (s.jobs.filter fun (n, j) => decide (n < 256) && j.state != .free && j.part == p)

def shapeBents (shape : Nat) : Nat := 2 ^ shape
def Job.cost (j : Job) : Nat := shapeBents j.shape

/-! ### Groups (R27, R317) -/

/-- Physical bents of group `g` of `k` partition bents; none where the partition has no such group. -/
def Part.groupBents (x : Part) (k g : Nat) : Option (List Nat) :=
  if (g + 1) * k ≤ x.bents.length then some ((x.bents.drop (g * k)).take k) else none

def bentBays (bs : List Nat) : List Nat := bs.flatMap fun b => (List.range 8).map fun i => b * 8 + i

def Part.groups (x : Part) (k : Nat) : List Nat := List.range (x.bents.length / k)

/-- The mirror of a group: the group whose physical bents are 4 higher or lower. -/
def Part.mirror (x : Part) (k g : Nat) : Option Nat :=
  match x.groupBents k g with
  | none => none
  | some bs => (x.groups k).find? fun h => h != g && x.groupBents k h == some (bs.map fun b => b ^^^ 4)

/-- The image of a job's latest save (R205, R216). -/
def Job.latestArea (j : Job) : Option SaveArea := if j.latest then j.area1 else j.area0

/-- A new image goes into the area that does not hold the latest one, and becomes the latest (R205, R216). -/
def Job.storeArea (j : Job) (a : SaveArea) : Job :=
  if j.latestArea.isSome && !j.latest then { j with area1 := some a, latest := true } else { j with area0 := some a, latest := false }

/-- Bents that a job in LOAD or RUN holds. -/
def State.busyBents (s : State) : List Nat :=
  s.jobs.flatMap fun (_, j) => if j.state == .load || j.state == .run then j.bays.map fun b => b / 8 else []

/-- No job holds the bents, and each can offer a Nosin shape (R373). -/
def State.bentsFree (s : State) (bs : List Nat) : Bool := !bs.any fun b => s.busyBents.contains b || s.remap.lost.contains b

def State.groupFree (s : State) (p k g : Nat) : Bool :=
  match (s.part p).groupBents k g with
  | some bs => s.bentsFree bs
  | none => false

/-- The free aligned group of lowest number that fits, with its mirror for a paired job. -/
def State.fit (s : State) (p : Nat) (j : Job) : Option (Nat × Option Nat) :=
  let x := s.part p
  let k := j.cost
  ((x.groups k).filterMap fun g =>
    if !s.groupFree p k g then none
    else if !j.paired then some (g, none)
    else match x.mirror k g with
      | some h => if s.groupFree p k h then some (g, some h) else none
      | none => none).head?

/-! ### Leaving the scoreboard (R325) -/

/-- The completion record and the partition's MSI-X message. A job that was never placed has no time of placement: that field is left free
(log 44). -/
def completionRecord (p : Nat) (crec jobid : Word) (status cause code fbay frec : Nat) (placed : Option Word) (s : State) : State :=
  let (t, s) := match placed with
    | some t => (t, s)
    | none => s.fresh
  let l := natBytes 8 jobid.toNat ++ natBytes 1 status ++ natBytes 1 cause ++ natBytes 1 code ++ natBytes 1 fbay ++ natBytes 4 frec ++
    natBytes 8 t.toNat ++ natBytes 8 s.clk.time.toNat
  (s.write (hostAddr crec.toNat) l).modPart p fun x => { x with msix := x.msix + 1 }

/-- A JOBID enters the history of the last 1,024, and the dependences that name it are settled (R311). -/
def settle (p : Nat) (jobid : Word) (ok : Bool) (s : State) : State :=
  let s := s.modPart p fun x => { x with history := ((jobid, ok) :: x.history).take 1024 }
  { s with jobs := s.jobs.map fun (n, j) =>
      (n, if j.part = p && j.state == .wait && j.deps.any fun d => d.kind = 3 && !d.isMet && d.c = jobid then
            if ok then { j with deps := j.deps.map fun d => if d.kind = 3 && d.c = jobid then { d with isMet := true } else d }
            else { j with status := 5 }
          else j) }

/-- BASE, LOGN, LEVEL, EN and QUANT of a registration. -/
def LQueue.register (lo hi : Word) : LQueue :=
  { base := lo, logn := bits hi 3 0, level := bits hi 6 4, en := bit hi 7, quant := bits hi 15 8 }

def State.queue (s : State) (p q : Nat) : LQueue := Tab.get {} (s.part p).queues q

def State.setQueue (s : State) (p q : Nat) (x : LQueue) : State := s.modPart p fun y => { y with queues := Tab.put y.queues q x }

/-- The queue holds an admitted job. -/
def State.queueHolds (s : State) (p q : Nat) : Bool := (s.board p).any fun (_, j) => j.queue = q

/-- While a queue holds no admitted job its DEF and visited bit are clear, and a registration that waited takes effect (R308, R315). -/
def queueIdle (p q : Nat) (s : State) : State :=
  if s.queueHolds p q then s
  else
    let x := s.queue p q
    s.setQueue p q (match x.next with
      | some (lo, hi) => LQueue.register lo hi
      | none => { x with def_ := 0, visited := false })

/-- The release of a lath (R328): its queues, thread table and sequence counters are cleared, and CTX and HLT; the rest of its control state stays
as it is (R334). -/
def Lath.release (x : Lath) : Lath :=
  { plane0 := x.plane0, plane1 := x.plane1, master0 := x.master0, master1 := x.master1, act := x.act, shv := x.shv, pc := x.pc, ckn := x.ckn
    ckpc := x.ckpc, rcv := x.rcv }

/-- DEFSIG of a LATHDEF (R372). -/
def signatureOf (lathdef : BitVec 104) : BitVec 32 := BitVec.ofNat 32 (crc32c (natBytes 13 lathdef.toNat))

/-- A lath is retired: LATHDEF and DEFSIG change, and the Foreman logs both (R373, R475). -/
def State.retireLath (s : State) (n : Nat) : State :=
  let d := s.remap.lathdef ||| BitVec.ofNat 104 (2 ^ n)
  ({ s with remap := { s.remap with lathdef := d, defsig := signatureOf d, failing := s.remap.failing.filter fun k => k != n } }.fmEvent 3 n).fmEvent 4 n

/-- A unit is idle now (R466, R467): kind 0 bents, 1 jointers, 2 camera ports, 3 lidar ports, 4 slices. -/
def State.seenIdle (s : State) (kind n : Nat) : State :=
  { s with remap := { s.remap with idleAt := Tab.put s.remap.idleAt (kind * 256 + n) s.clk.time } }

/-- Release the laths, groups, faults, SHARED metadata and bays of one copy of a job. -/
def releaseCopy (n : Nat) (s : State) : State :=
  let gone := (s.groups.filter fun (_, g) => g.slot.toNat = n % 1024 && g.part.toNat = (s.job n).part).map fun (g, _) => g
  let s := gone.foldl (fun s g =>
    let s := s.releaseGroup g
    s.setGroup g { s.group g with armed := false, due := [] }) s
  let mine (b : Nat) : Bool := (s.bay b).slot == some n
  { s with
    laths := s.laths.map fun (k, x) => (k, if x.slot = some n then x.release else { x with shadowFor := if x.shadowFor = some n then none else x.shadowFor })
    meta_ := s.meta_.filter fun (g, _) => Tab.get 256 s.metaJob g != n
    metaJob := s.metaJob.filter fun (_, k) => k != n
    bents := s.bents.map fun (k, t) => (k, { t with writes := t.writes.filter fun w => !mine w.owner })
    parts := s.parts.map fun (p, x) => (p, { x.unstick n with
      faults := x.faults.filter fun f => f.slot != some n, moves := x.moves.filter fun m => m.slot != n || decide (m.tid < 32768) })
    bays := s.bays.map fun (b, y) =>
      (b, { (if y.slot = some n then { y.stop with slot := none } else y) with shadowFor := if y.shadowFor = some n then none else y.shadowFor }) }

/-- The mailbox command that waits for a job ends with a result (R450). -/
def endCommand (p res : Nat) (s : State) : State :=
  s.modPart p fun x => { x with busy := false, res := BitVec.ofNat 8 res, msix := x.msix + 1 }

/-- A PREEMPT that waits for a job which leaves is refused. -/
def endPreempt (p : Nat) (jobid : Word) (res : Nat) (s : State) : State :=
  let x := s.part p
  if x.busy && x.cmd = 1 && nth 0 x.ops 0 = jobid then endCommand p res s else s

/-- A job leaves the scoreboard: the record, the MSI-X message, the history and the dependents, the release of what it held. -/
def leave (n status cause code : Nat) (s : State) : State :=
  let j := s.job n
  let s := completionRecord j.part j.crec j.jobid status cause code j.fbay.toNat j.frec.toNat (if j.placed then some j.placedTime else none) s
  let s := (s.copies n).foldl (fun s k => releaseCopy k s) s
  let s := { s with jobs := Tab.erase (twinSlot n) (Tab.erase n s.jobs) }
  endPreempt j.part j.jobid 2 (queueIdle j.part j.queue (settle j.part j.jobid (status = 0) s))

/-! ### Admission (R309 to R314) -/

/-- The record at HEAD. -/
def launchRecord (x : LQueue) (s : State) : List Byte := s.readBytes (hostAddr (x.base.toNat + 128 * x.head)) 128

/-- The image of a record, read once. -/
def launchImage (r : List Byte) (s : State) : List Byte :=
  let a := leAt r 0 8
  s.readBytes (if a.testBit 63 then dramAddr (a % 2 ^ 63) else hostAddr a) (leAt r 8 4)

/-- The four dependence slots: kind, the zero byte, A, B, C. -/
def launchDeps (r : List Byte) : List Dep :=
  (List.range 4).map fun i =>
    let o := 64 + 16 * i
    ⟨leAt r o 1, leAt r (o + 2) 2, leAt r (o + 4) 4, word (leAt r (o + 8) 8), leAt r o 1 = 0⟩

/-- Code 4: reserved bytes of the record. -/
def launchReserved (r : List Byte) : Bool :=
  decide (leAt r 15 1 > 7) || !zeroAt r 34 2 || !zeroAt r 56 8 || (List.range 4).any fun i =>
    leAt r (65 + 16 * i) 1 != 0 || (leAt r (64 + 16 * i) 1 == 0 && !zeroAt r (64 + 16 * i) 16)

/-- Code 7: a field unlike its image, queue or partition; PLUMB with PAIRED, or PLUMB in a deterministic partition (R310, R459). -/
def launchFields (p : Nat) (x : LQueue) (r img : List Byte) (s : State) : Bool :=
  let det := (s.part p).det
  let f := leAt r 15 1
  leAt r 12 1 != imgShape img || leAt r 13 1 != x.level || leAt r 14 1 != p || f.testBit 0 != det ||
  (f.testBit 1 && (f.testBit 2 || det)) || (!det && leAt r 48 8 != 0)

def State.knows (s : State) (p : Nat) (jobid : Word) : Bool :=
  (s.board p).any (fun (_, j) => j.jobid = jobid) || (s.part p).history.any fun h => h.1 = jobid

/-- Code 8: a duplicate JOBID, or a predecessor that is neither admitted nor in the history. -/
def launchNames (p : Nat) (r : List Byte) (s : State) : Bool :=
  s.knows p (word (leAt r 16 8)) || (launchDeps r).any fun d => d.kind = 3 && !s.knows p d.c

/-- Table areas of the partition's admitted jobs: start and length in DRAM. -/
def State.areas (s : State) (p : Nat) : List (Nat × Nat) := (s.board p).map fun (_, j) => (j.tableArea, j.tableLen)

/-- Byte ranges of DRAM that images of admitted jobs name. -/
def State.namedFrames (s : State) (p : Nat) (img : List Byte) : List (Nat × Nat) :=
  let d := (s.part p).dbase
  (imageFrames img ++ (s.board p).flatMap fun (_, j) => imageFrames j.image).map fun (f, n) => ((d + f) * 65536, n * 65536)

/-- Two ranges, each a start and a length, have something in common; an empty range has nothing. -/
def rangesMeet (a b : Nat × Nat) : Bool := decide (max a.1 b.1 < min (a.1 + a.2) (b.1 + b.2))

/-- The highest area of `n` bytes in the partition's DRAM range that no other area and no named frame meets (R71). -/
def State.tableRoom (s : State) (p n : Nat) (img : List Byte) : Option Nat :=
  let x := s.part p
  let taken := s.areas p ++ s.namedFrames p img
  let tops := (sortBy id ((x.dbase + x.dsize) * 65536 :: taken.map fun r => r.1)).reverse
  (tops.filterMap fun t =>
    let a := (t - n) / 16384 * 16384
    if t < n ∨ a < x.dbase * 65536 ∨ t > (x.dbase + x.dsize) * 65536 ∨ taken.any (rangesMeet (a, n)) then none else some a).head?

/-- Code 13: some aligned group of the job's size has no mirror (R317). -/
def noMirror (x : Part) (k : Nat) : Bool := (x.groups k).any fun g => (x.mirror k g).isNone

def firstCode : List (Nat × Bool) → Nat
  | [] => 0
  | (c, true) :: _ => c
  | (_, false) :: t => firstCode t

/-- The check of the variant for the signature in force: code 10 or 11, or 0 (R451). -/
def variantCode (img : List Byte) (sig : Nat) : Nat :=
  match variantFor img sig with
  | some w => if variantBad w (8 * shapeBents (imgShape img)) then 11 else 0
  | none => if (recsOf img 5).isEmpty then 0 else 10

/-- The refusal code of a record; 0 admits it. Of several that apply, the lowest is given (R451; log 40). -/
def launchCode (p : Nat) (x : LQueue) (r img : List Byte) (s : State) : Nat :=
  let y := s.part p
  let bays := 8 * shapeBents (imgShape img)
  let v := variantCode img s.remap.defsig.toNat
  let large (k : Nat) : Bool := decide (k ≥ 4) || decide (shapeBents k > y.bents.length)
  let st := recOf img 6
  firstCode [
    (1, imgUnread img),
    (2, imgCrcBad img),
    (3, imgRecsBad img || (!(recsOf img 4).isEmpty && paramsBad (recOf img 4)) || tensorsBad img bays y.dbase y.dsize || (imgDet img && stampsBad st) ||
        (s.tableRoom p (areaBytes img) img).isNone),
    (4, launchReserved r || imgReserved img),
    (5, sectionsBad (recOf img 1)),
    (6, large (imgShape img) || large (leAt r 12 1)),
    (7, launchFields p x r img s),
    (8, launchNames p r s),
    (9, (launchDeps r).any fun d => decide (d.kind > 4)),
    (10, v == 10),
    (11, v == 11),
    (12, imgDet img != y.det || (y.det && stampLen st != y.framelen.toNat)),
    (13, (leAt r 15 1).testBit 2 && noMirror y (shapeBents (imgShape img)))]

/-- TLIM of a record in µs: 0 takes the partition's default, and there 0 takes 100,000 (R310, R446). -/
def launchTlim (x : Part) (r : List Byte) : Nat :=
  let t := leAt r 36 4
  if t ≠ 0 then t else if bits (x.w 9) 31 0 ≠ 0 then bits (x.w 9) 31 0 else 100000

def launchJob (p q : Nat) (r img : List Byte) (s : State) : Job :=
  { state := .wait, part := p, queue := q, order := s.jobClock, jobid := word (leAt r 16 8), shape := imgShape img, prio := leAt r 13 1
    plumb := (leAt r 15 1).testBit 1, paired := (leAt r 15 1).testBit 2, image := img, key := word (leAt r 24 8)
    pbtid := BitVec.ofNat 16 (leAt r 32 2), tlim := launchTlim (s.part p) r, crec := word (leAt r 40 8), start := leAt r 48 8
    deps := (launchDeps r).map fun d => if d.kind = 3 && (s.part p).history.any (fun h => h.1 = d.c && h.2) then { d with isMet := true } else d
    status := if (launchDeps r).any fun d => d.kind = 3 && (s.part p).history.any (fun h => h.1 = d.c && !h.2) then 5 else 0
    tableArea := (s.tableRoom p (areaBytes img) img).getD 0, tableLen := areaBytes img
    elev := leAt r 13 1, stamps := recOf img 6, framelen := stampLen (recOf img 6) }

/-- Copy the templates into the table area and build the job's entries (R70, R71). -/
def buildTables (n : Nat) (s : State) : State :=
  let j := s.job n
  let d := (s.part j.part).dbase
  let es := jobEntries (recOf j.image 2)
  let go := (templates j.image).foldl (fun (acc : State × List (List Word) × Nat) (t : Nat × List Byte) =>
    let (s, es, a) := acc
    let w := nth [] es t.1
    let s := (allNodes t.2 (eLevels w)).foldl (fun s nd => s.write (dramAddr (a + nd.off)) (rewriteNode t.2 d a nd)) s
    (s, setNth es t.1 (setNth w 1 (word (a + 1))), a + roundUp t.2.length 16384)) (s, es, j.tableArea)
  go.1.modJob n fun j => { j with entries := go.2.1 }

/-! ### Dependences (R311) -/

/-- The Framer's own view of memory: no cache, and no bay. -/
def framerCtx (p n : Nat) : Ctx := ⟨1000, p, n, 0⟩

/-- What the Framer finds at a tile of a paged tensor. -/
def tileWalk (p n tid t : Nat) (s : State) : Walk :=
  match s.viewOf (framerCtx p n) tid 0 false 0 0 with
  | .ok v => if ePaged v.w then s.walk (framerCtx p n) v (t * 65536) else .bad
  | .error _ => .bad

def resident : Walk → Bool
  | .leaf .. => true
  | _ => false

/-- The condition of a dependence. -/
def depHolds (p n : Nat) (d : Dep) (s : State) : Bool :=
  match d.kind with
  | 4 => (List.range (bits d.c 15 0)).all fun i => resident (tileWalk p n d.a (d.b + i) s)
  | _ => d.isMet || d.counts s

/-- Dependences on tiles that hold now are met (R311). -/
def State.latchTiles (s : State) (p : Nat) : State :=
  s.latchDeps fun n j d => j.part == p && d.kind == 4 && depHolds p n d s

/-- The Framer starts to make a tile resident: it services the first entry on the way to it that is not present. -/
def wantTile (p n tid tile : Nat) (s : State) : State :=
  match tileWalk p n tid tile s with
  | .absent k m e =>
    let f : PageFault := {
      who := .none, cause := BitVec.ofNat 8 (0x40 + 4 * k), tid := tid, tile := tile, entry := e, since := s.clock, mig := m, slot := some n
      aux := 0, copy := none, asked := false, served := false, order := s.faultClock }
    { s.modPart p fun x => { x with faults := x.faults ++ [f] } with faultClock := s.faultClock + 1 }
  | _ => s

/-- The Framer starts to make the tiles of kind 4 resident. -/
def wantTiles (p n : Nat) (s : State) : State :=
  let ds := (s.job n).deps.filter fun d => d.kind = 4
  let s := if ds.any fun d => decide (d.a ≥ 32768) then buildTables n s else s
  ds.foldl (fun s d => (List.range (bits d.c 15 0)).foldl (fun s i => wantTile p n d.a (d.b + i) s) s) s

/-- Of the enabled queues with records, the one of the highest LEVEL, and of the lowest number within it (R314). -/
def nextQueue (x : Part) : Option Nat :=
  let q := fun k => Tab.get {} x.queues k
  ((List.range 64).filter fun k => (q k).en && (q k).head != (q k).tail).foldl (fun best k =>
    match best with
    | some b => if (q b).level < (q k).level then some k else best
    | none => some k) none

/-- Free entries that the partition's share leaves it. -/
def State.freeSlots (s : State) (p : Nat) : List Nat :=
  if (s.board p).length < bits ((s.part p).w 0) 24 16 then (List.range 256).filter fun n => (s.job n).state == .free else []

def admission (p : Nat) (s : State) : State :=
  let x := s.part p
  match s.freeSlots p, nextQueue x with
  | f0 :: fs, some q =>
    if !s.framerUp || !x.up || x.blocked || s.isFrozen p then s
    else
      let y := s.queue p q
      let r := launchRecord y s
      let img := launchImage r s
      let code := launchCode p y r img s
      let s := s.setQueue p q { y with head := (y.head + 1) % 2 ^ y.logn }
      let jobid := word (leAt r 16 8)
      if code ≠ 0 then
        let dup := s.knows p jobid
        let s := completionRecord p (word (leAt r 40 8)) jobid 1 0 code 0xFF 0 none s
        if dup then s else queueIdle p q (settle p jobid false s)
      else
        -- which free entry a job takes is not stated: a free choice (log 45)
        let (v, s) := s.fresh
        let n := nth f0 (f0 :: fs) (v.toNat % (fs.length + 1))
        let s := { s.setJob n (launchJob p q r img s) with jobClock := s.jobClock + 1 }
        ((wantTiles p n (s.frEvent p 1 n jobid none)).latchCounts).latchTiles p
  | _, _ => s

/-- ADMISSION (R314). -/
def execAdmission (part : Nat) (s : State) : Host.Outcome State Fault Refusal := .next (admission part s)

def dependenceMet (n : Nat) (s : State) : State :=
  let j := s.job n
  if j.state != .wait || !s.framerUp then s
  else if j.status = 5 then leave n 5 0 0 s
  else
    let ds := j.deps.map fun d => if d.isMet then d else { d with isMet := depHolds j.part n d s }
    let s := s.setJob n { j with deps := ds }
    if ds.all fun d => d.isMet then s.setJob n { j with deps := ds, state := .ready, readyAt := s.clock, elev := j.prio } else s

/-- DEPENDENCE_MET (R311): dependences that hold now stay met; when all are, the job is READY. A job whose predecessor failed completes
with STATUS 5. -/
def execDependenceMet (slot : Nat) (s : State) : Host.Outcome State Fault Refusal := .next (dependenceMet slot s)

def aging (n : Nat) (s : State) : State :=
  let j := s.job n
  if !s.framerUp || (s.part j.part).det || !(j.state == .ready || j.state == .saved) then s
  else s.setJob n { j with elev := min 7 (j.prio + (s.clock - j.readyAt) / (4096 * clkUs)) }

/-- AGING (R316). -/
def execAging (slot : Nat) (s : State) : Host.Outcome State Fault Refusal := .next (aging slot s)

/-! ### Selection (R315) -/

/-- The laths that a job of the image needs, under the signature in force. -/
def State.jobLaths (s : State) (j : Job) : List Nat := variantLaths j.image s.remap.defsig.toNat

/-- No job holds the laths; one whose parity sweep has failed is retired before a job takes it again (R373, R467). -/
def State.lathsFree (s : State) (j : Job) : Bool := (s.jobLaths j).all fun k => (s.lathAt k).slot.isNone && !s.remap.failing.contains k

/-- The jobs that selection considers. -/
def State.eligible (s : State) (p : Nat) : List (Nat × Job) :=
  (s.board p).filter fun (_, j) => !j.ended && (j.state == .saved || (j.state == .ready && s.lathsFree j))

/-- What selection comes to: the queues' new deficits and pointer, and the job at which it stops. -/
inductive Select where
  | idle
  | blocked (n : Nat) (qs : Tab LQueue) (ptr : Nat)
  | place (n : Nat) (g : Nat) (h : Option Nat) (qs : Tab LQueue) (ptr : Nat)

/-- Where a job can go now. -/
def State.placeFor (s : State) (p n : Nat) (j : Job) : Option (Nat × Option Nat) :=
  if j.state == .saved then
    if s.bentsFree ((s.allBays n).map fun b => b / 8) then some (j.group, none) else none
  else s.fit p j

/-- The first queue of a list at or after the pointer, wrapping. -/
def fromPointer (ptr : Nat) (qs : List Nat) : Option Nat :=
  match qs.filter fun q => decide (q ≥ ptr) with
  | q :: _ => some q
  | [] => qs.head?

def selectGo (s : State) (p : Nat) (es : List (Nat × Job)) (qnums : List Nat) : Nat → Tab LQueue → Nat → Select
  | 0, _, _ => .idle
  | fuel + 1, qs, ptr =>
    match fromPointer ptr qnums with
    | none => .idle
    | some q =>
      let x := Tab.get {} qs q
      let x := if x.visited then x else { x with def_ := x.def_ + x.quant, visited := true }
      match es.find? fun e => e.2.queue = q with
      | none => .idle
      | some (n, j) =>
        if j.cost > x.def_ then selectGo s p es qnums fuel (Tab.put qs q { x with visited := false }) (q + 1)
        else match s.placeFor p n j with
          | none => .blocked n (Tab.put qs q x) ptr
          | some (g, h) => .place n g h (Tab.put qs q { x with def_ := x.def_ - j.cost }) ptr

/-- The selection of R315: the highest ELEV of the considered jobs, then deficit round robin among its queues. The loop ends within
eight passes over at most 64 queues. -/
def select (p : Nat) (s : State) : Select :=
  let es := s.eligible p
  let top := es.foldl (fun m e => max m e.2.elev) 0
  let es := es.filter fun e => e.2.elev = top
  let qnums := (List.range 64).filter fun q => es.any fun e => e.2.queue = q
  selectGo s p es qnums 600 (s.part p).queues (s.part p).pointer

/-- A choice as a log entry names it (R462). -/
def placeChoice (q g : Nat) (jobid : Word) : Nat := q % 64 + at_ (g % 8) 6 + at_ (jobid.toNat % 2 ^ 48) 16

/-! ### Placement and start (R15, R318, R328) -/

/-- The Framer has the loader write a configuration into the shadow plane, for job `n` where it is a next job's (R346). -/
def Lath.load (x : Lath) (n : Option Nat) (words : List (BitVec 32)) : Lath :=
  { (if x.act then { x with master0 := words } else { x with master1 := words }) with loading := true, shadowFor := n }

/-- The loaded plane of a job's first entry becomes the active one, and the second entry goes to the shadow plane (R335, R346). -/
def Lath.start (x : Lath) (second : Option (List (BitVec 32))) : Lath :=
  let x := { x.flip.checkpoint 0 with shadowFor := none }
  match second with
  | some w => x.load none w
  | none => x

/-- The first entries of a job's variant, each with its lath's second entry. -/
def State.jobConfigs (s : State) (n : Nat) : List (LathEntry × Option (List (BitVec 32))) :=
  let es := variantEntries (s.job n).image (s.job n).sig
  let ls := laterEntries [] es
  (firstEntries [] es).map fun e => (e, (ls.find? fun f => f.lath = e.lath).map fun f => f.words)

/-- Load the first entry of a job's variant into a lath, unless that is under way or done. -/
def loadLath (n : Nat) (e : LathEntry) (s : State) : State :=
  let x := s.lathAt e.lath
  if x.shadowFor == some n then s else s.setLath e.lath (x.load (some n) e.words)

/-- Assign every lath of the job's variant to its context, and load its plane (R328, R346). Tokens of an earlier job on their way to a lath have
reached it before that. -/
def assignLaths (n : Nat) (s : State) : State :=
  let j := s.job n
  let es := (s.jobConfigs n).map fun e => e.1
  let ks := es.map fun e => e.lath
  let s := { s with bays := s.bays.map fun (b, y) =>
    (b, { y with chan := y.chan.map fun (c, e) => (c, if !e.bnd && ks.contains e.peer.toNat then { e with wire := [] } else e) }) }
  let s := es.foldl (fun s e =>
    (loadLath n e (s.dropCache (64 + e.lath))).modLath e.lath fun x => { x with ctx := BitVec.ofNat 6 (s.part j.part).ctx, slot := some n }) s
  s.modJob n fun j => { j with laths := ks }

/-- The planes of a job's laths are loaded, so that its bays may flip; a saved job keeps its laths as they are (R15, R346, R348). -/
def State.lathsLoaded (s : State) (n : Nat) : Bool :=
  (s.job n).latestArea.isSome || (s.jobConfigs n).all fun (e, _) =>
    let x := s.lathAt e.lath
    x.shadowFor == some n && x.shv && !x.loading

/-- The laths of a job start with its bays. -/
def startLaths (n : Nat) (s : State) : State :=
  (s.jobConfigs n).foldl (fun s (e, second) => s.modLath e.lath fun x => x.start second) s

/-- The channel endpoints that the variant gives logical bay `i` (R301, R331). -/
def bayEndpoints (img : List Byte) (sig ctx i : Nat) : Tab Endpoint :=
  (firstEntries [] (variantEntries img sig)).foldl (fun t e => (List.range 8).foldl (fun t k =>
    let w := e.port k
    if pwKind w = 1 ∧ pwBay w = i then
      Tab.put t (pwChan w) (({ bnd := true, dir := decide (k ≥ 4), peer := BitVec.ofNat 7 e.lath, thread := BitVec.ofNat 10 (pwThread w), ctx := BitVec.ofNat 6 ctx, cap := 64 } : Endpoint).setFree 64)
    else t) t) []

/-- PLUMBSEED of a run (R458). -/
def plumbSeed (key : Word) (run1 : Bool) : Word :=
  let c := word (at_ 7 60)
  let s0 := bits (crng key c 0) 31 0
  let s1 := bits (crng key c 1) 31 0
  if run1 then word ((if s1 = s0 then s1 ^^^ 1 else s1) + at_ 1 32) else word s0

/-- The SEED of a job's present run (R458). -/
def Job.seed (j : Job) : Word := if j.plumb then plumbSeed j.key j.run1 else 0

/-- The starting point among `n` places of round-robin arbiter `k` under a SEED: the first, or where the SEED is not 0 an open one (R458; log 108). -/
def seedStart (seed : Word) (k n : Nat) : Nat := if bits seed 31 0 = 0 then 0 else Config.seedStart (BitVec.ofNat 32 (bits seed 31 0)) k % n

/-- JOBINFO of a job (R182). -/
def jobInfo (n : Nat) (j : Job) (det : Bool) : Word :=
  word (j.part + at_ j.shape 3 + at_ (b2n det) 5 + at_ (b2n j.plumb) 6 + at_ (b2n j.paired) 7 + at_ (n % 256) 8)

/-- A bay at step 4 of R15, with the plane that now is active; in a deterministic partition its first word issues 64 clk after the frame origin, at
which it starts (R319). -/
def startBay (n i : Nat) (j : Job) (det : Bool) (ctx clock : Nat) (active other : Plane) : Bay :=
  let par := match recsOf j.image 4 with
    | [] => []
    | _ => paramTab (recOf j.image 4)
  let seed := j.seed
  { plane := active, shadow := other, fetchNext := seedStart seed 0 5
    s := Tab.set 0 (Tab.set 0 [] 1 (word i)) 2 (word j.bays.length), pc := BitVec.ofNat 16 (nth (0, 0) active.sections 0).1
    jobkey := j.key, jobinfo := jobInfo n j det, plumbseed := seed
    par := Tab.set 0 (Tab.set 0 par 0 (word j.pbtid.toNat)) 1 0
    chan := bayEndpoints j.image j.sig ctx i, slot := some n, index := i, live := true, allLines := true, startAt := if det then clock + 64 else 0 }

/-- The byte lies in a bank or in the accumulator store of bay `b`. -/
def inBay (b a : Nat) : Bool :=
  (decide (bankAddr b 0 0 ≤ a) && decide (a < bankAddr (b + 1) 0 0) && decide (a < accAddr 0 0)) ||
  (decide (accAddr b 0 ≤ a) && decide (a < accAddr (b + 1) 0) && decide (a < sillAddr 0 0))

/-- The banks and the accumulator store of a bay read zero (R477). -/
def State.clearBay (s : State) (b : Nat) : State := { s with mem := s.mem.filter fun c => !inBay b c.1 }

/-- At a job's placement the trusses of its bents have no previous holder (R255); under a SEED that is not 0 their round robin starts after the bay
that the SEED sets (R458). -/
def State.freshTrusses (s : State) (bays : List Nat) (seed : Word) : State :=
  (bays.map fun b => b / 8).eraseDups.foldl (fun s t =>
    s.setBent t { s.bent t with last := if bits seed 31 0 = 0 then none else some (t * 8 + seedStart seed 1 8) }) s

/-- Start a bay of a job from its plane: step 4 of R15. -/
def State.startOn (s : State) (b n i : Nat) (active other : Plane) : State :=
  let j := s.job n
  let x := s.part j.part
  let y := startBay n i j x.det x.ctx s.clock active other
  ((s.clearBay b).dropCache b).setBay b y

/-- A bay as a restore brings it back: dirty bits clear, an abandoned bounded wait, a truss lease asked for again, and audit timers
restarted (R204, R274, R306, R393). -/
def Bay.restored (y : Bay) (clock : Nat) (other : Plane) : Bay :=
  { y with
    shadow := other, shadowFor := none, dirty := 0, dirtyLines := [], allLines := false, waiting := none, chan := y.chan.map fun (k, e) => (k, { e with auditAt := clock })
    truss := if y.truss.held then { y.truss with held := false, req := true, reqAt := clock } else y.truss }

/-- Restore bay `b`, logical bay `i` of a saved job. -/
def State.restoreOn (s : State) (b n i : Nat) : State :=
  let a := (s.job n).latestArea.getD {}
  let y := (nth {} a.bays i).restored s.clock (s.bay b).plane
  let s := (s.clearBay b).dropCache b
  let cells := a.mem.filter fun c => inBay b c.1
  let s := { s with mem := cells.foldl (fun (m : Memory) (c : Host.Cell) => Memory.write m c.1 c.2) s.mem }
  let metas := a.metas.filter fun m => inBay b (m.1 * 32)
  let s := { s with
    meta_ := metas.foldl (fun t m => Tab.set 0 t (Prod.fst m) (Prod.snd m)) s.meta_
    metaJob := metas.foldl (fun t (m : Nat × BitVec 12) => Tab.put t m.1 n) s.metaJob }
  s.setBay b y

/-- Every engine of the bay is idle and every queue empty (R14). -/
def State.drained (s : State) (b : Nat) : Bool := !(s.bay b).live && !(s.bay b).running && s.quiet b

/-- The laths of a restored job run again with their audit timers restarted (R306, R348). -/
def Lath.restored (x : Lath) (clock : Nat) : Lath :=
  { x with inp := x.inp.map fun p => { p with sources := p.sources.map fun q => { q with auditAt := clock } } }

/-- Clear the mark of a halt at an access that the Framer has serviced (R251). -/
def resumeAgent (f : PageFault) (s : State) : State :=
  match f.who with
  | .stream b .S => s.modBay b fun y => { y with seqHalted := false }
  | .stream b .V => s.modBay b fun y => { y with vecHalted := false }
  | .stream b e => s.modStream b e fun x => { x with inflight := x.inflight.map fun r => if f.copy = some r.ordinal && !r.xnop then { r with halted := false, mig := false } else r }
  | .lath n => s.modLath n fun x => { x with waiting := false }
  | .jointer c p => s.setJtr c p { s.jtr c p with page := false }
  | .none => match f.slot with
    | some n => if (s.job n).state == .wait then wantTile (s.job n).part n f.tid f.tile s else s
    | none => s

/-- The state of the access's job lets it resume: once its bays stop for a save, it waits for the restore (R35, R322, R324). -/
def State.canResume (s : State) (f : PageFault) : Bool :=
  match f.slot with
  | some n => ((s.job n).state == .run && !(s.job n).stopping) || f.who == .none
  | none => true

/-- Resume the accesses of a partition whose faults have been serviced. -/
def resumeServed (p : Nat) (s : State) : State :=
  let go (f : PageFault) : Bool := f.served && s.canResume f
  let l := (s.part p).faults
  (l.filter go).foldl (fun s f => resumeAgent f s) (s.modPart p fun x => { x with faults := l.filter fun f => !go f })

/-- All bays of a job in LOAD have flipped: it runs. The time that it spent out of RUN does not count for its faults (R324). -/
def enterRun (n : Nat) (s : State) : State :=
  let j := s.job n
  if j.state == .load && !j.ended && s.lathsLoaded n && (s.copies n).all fun k => (s.job k).bays.all fun b => (s.bay b).slot == some k then
    let away := if j.latestArea.isNone then 0 else s.clock - j.readyAt
    let s := (s.copies n).foldl (fun s k => s.modJob k fun j => { j with state := .run, ranFrom := s.clock, stopping := false }) s
    let s := s.modPart j.part fun x => { x with faults := x.faults.map fun f => if f.slot = some n || f.slot = some (twinSlot n) then { f with since := f.since + away } else f }
    let s := if j.latestArea.isNone then startLaths n s
      else
        let saved := (j.latestArea.getD {}).laths
        { s with laths := s.laths.map fun (k, x) => (k, if x.slot = some n then (Tab.get x saved k).restored s.clock else x) }
    resumeServed j.part s
  else s

/-- Flip one bay of copy `n` of a job: it starts, or it is restored from the latest image. -/
def flipBay (b n : Nat) (s : State) : State :=
  let y := s.bay b
  let j := s.job n
  match (j.bays.zip (List.range j.bays.length)).find? fun (c, _) => c = b with
  | none => s
  | some (_, i) => if j.latestArea.isNone then s.startOn b n i y.shadow y.plane else s.restoreOn b n i

def planeFlip (b : Nat) (s : State) : State :=
  match (s.bay b).shadowFor with
  | none => s
  | some n =>
    if s.framerFlips && (s.job n).state == .load && !(s.job n).ended && s.drained b && s.lathsLoaded (n % 1024) then enterRun (n % 1024) (flipBay b n s) else s

/-- PLANE_FLIP (R14, R15, R318). -/
def execPlaneFlip (bay : Nat) (s : State) : Host.Outcome State Fault Refusal := .next (planeFlip bay s)

/-- Write the code of copy `n` into the shadow planes of its bays. -/
def preload (n : Nat) (bays : List Nat) (s : State) : State :=
  let rec1 := recOf (s.job n).image 1
  bays.foldl (fun s b => s.modBay b fun y => { y with shadow := planeOf rec1, shadowFor := some n }) s

/-- The homes clear their filter state for the partition of a job that starts (R244). -/
def clearHomes (p : Nat) (s : State) : State := { s with homes := s.homes.filter fun x => x.1 / 8192 != p }

/-- The bents of a job that is placed were idle until now, and their trusses have no previous holder. -/
def State.takeBents (s : State) (bays : List Nat) (seed : Word) : State :=
  (bays.map fun b => b / 8).eraseDups.foldl (fun s t => s.seenIdle 0 t) (s.freshTrusses bays seed)

/-- Place a READY job on its group, and its twin on the mirror: step 1 and step 2 of R15. -/
def placeReady (n g : Nat) (h : Option Nat) (s : State) : State :=
  let j := s.job n
  let x := s.part j.part
  let k := j.cost
  let baysOf (g : Nat) : List Nat := bentBays ((x.groupBents k g).getD [])
  -- the copy on the lower-numbered bents is the primary (R454)
  let first := h.all fun h => decide ((baysOf g).headD 0 ≤ (baysOf h).headD 0)
  let s := s.setJob n { j with
    state := .load, group := g, bays := baysOf g, sig := s.remap.defsig.toNat, placed := true, placedTime := if j.placed then j.placedTime else s.clk.time, placedOrder := s.jobClock
    twin := h.map fun _ => twinSlot n, primary := first }
  let s := { s with jobClock := s.jobClock + 1 }
  let s := if (s.job n).entries.isEmpty then buildTables n s else s
  let s := match h with
    | some h => s.setJob (twinSlot n) { s.job n with bays := baysOf h, twin := some n, primary := !first, group := h }
    | none => s
  let s := (clearHomes j.part (assignLaths n s)).takeBents (s.allBays n) j.seed
  let s := (s.copies n).foldl (fun s c => preload c (s.job c).bays s) s
  s.frEvent j.part 2 g j.jobid none

/-- Bring a SAVED job back to its own group. -/
def placeSaved (n : Nat) (s : State) : State :=
  let j := s.job n
  let s := (s.copies n).foldl (fun s c => s.modJob c fun j => { j with state := .load, placedOrder := s.jobClock }) s
  let s := { s with jobClock := s.jobClock + 1 }.takeBents (s.allBays n) j.seed
  let s := (s.copies n).foldl (fun s c => preload c (s.job c).bays s) s
  s.frEvent j.part 4 j.group j.jobid none

/-- The check of a job's variant at its placement: code 10 or 11, or 0 (R451). -/
def State.variantCode (s : State) (j : Job) : Nat := Machine.variantCode j.image s.remap.defsig.toNat

/-- Follow a selection. -/
def followSelect (p n g : Nat) (h : Option Nat) (qs : Tab LQueue) (ptr : Nat) (s : State) : State :=
  let j := s.job n
  let s := s.modPart p fun x => { x with queues := qs, pointer := ptr }
  if j.state == .saved then placeSaved n s
  else if s.variantCode j ≠ 0 then leave n 1 0 (s.variantCode j) s
  else placeReady n g h s

/-- The job and the group that a log entry's choice names (R462), where the job can be placed there. -/
def loggedPlace (p c : Nat) (s : State) : Option (Nat × Nat × Option Nat) :=
  match (s.eligible p).find? fun (_, j) => j.queue % 64 = c % 64 && j.jobid.toNat % 2 ^ 48 = c / 2 ^ 16 with
  | none => none
  | some (n, j) =>
    let g := c / 64 % 8
    if j.state == .saved then (if j.group = g && (s.placeFor p n j).isSome then some (n, j.group, none) else none)
    else if !s.groupFree p j.cost g then none
    else if !j.paired then some (n, g, none)
    else match (s.part p).mirror j.cost g with
      | some h => if s.groupFree p j.cost h then some (n, g, some h) else none
      | none => none

/-! ### Completion (R325, R455, R459) -/

/-- The digest of a copy's bays and of its laths' updates. -/
def State.jobDigest (s : State) (n : Nat) : Word × Word :=
  let j := s.job n
  j.bays.foldl (fun (d : Word × Word) b => (d.1 + (s.bay b).dlo, d.2 + (s.bay b).dhi)) (j.dlo, j.dhi)

/-- Every bay of a job has flipped and halted, and the updates of its laths have completed. -/
def State.allHalted (s : State) (n : Nat) : Bool :=
  let j := s.job n
  (j.state == .run || j.state == .load) && (s.copies n).all (fun k => (s.job k).bays.all fun b => (s.bay b).slot == some k && !(s.bay b).live) &&
  s.laths.all fun (_, x) => x.slot != some n || x.updates.isEmpty

/-- The twin bays' digests agree. -/
def State.pairAgrees (s : State) (n : Nat) : Bool :=
  match (s.job n).twin with
  | some t => ((s.job n).bays.zip (s.job t).bays).all fun (a, b) => (s.bay a).dlo == (s.bay b).dlo && (s.bay a).dhi == (s.bay b).dhi
  | none => true

/-- The laths of a plumb job hold its entries again, as at its start. -/
def configLaths (n : Nat) (s : State) : State :=
  (s.jobConfigs n).foldl (fun s (e, second) => s.modLath e.lath fun x =>
    let y := ({ x.load none e.words with slot := some n, ctx := BitVec.ofNat 6 (s.part (s.job n).part).ctx } : Lath)
    y.loaded.start second) (s.modJob n fun j => { j with laths := (s.jobConfigs n).map fun e => e.1.lath })

/-- Run 1 of a plumb job starts at step 4 of R15: registers, banks and accumulator stores cleared, SHARED tensors and laths as at the start;
other memory keeps what run 0 left (R459). -/
def plumbRestart (n : Nat) (s : State) : State :=
  let j := s.job n
  let (lo, hi) := s.jobDigest n
  let planes := j.bays.map fun b => ((s.bay b).plane, (s.bay b).shadow, (s.bay b).shadowFor)
  let s := releaseCopy n s
  let s := s.setJob n { j with run1 := true, shared0 := [], d0lo := lo, d0hi := hi, dlo := 0, dhi := 0, q := 0 }
  let s := j.shared0.foldl (fun s (a, l) => s.write a l) s
  let s := (clearHomes j.part (configLaths n s)).freshTrusses j.bays (s.job n).seed
  ((j.bays.zip planes).zip (List.range j.bays.length)).foldl (fun s ((b, a, o, f), i) => (s.startOn b n i a o).modBay b fun y => { y with shadowFor := f }) s

/-- A job whose bays have all halted ends (R325, R455, R459). A plumb job whose first run ends with a STATUS other than 0 posts its completion
without a second run (log 111). -/
def jobCompletion (n : Nat) (s : State) : State :=
  let j := s.job n
  if !s.framerUp || n ≥ 256 || j.state == .free then s
  else if j.ended && !j.stopping then leave n j.status.toNat j.cause.toNat 0 s
  else if !s.allHalted n then s
  else if j.paired && !s.pairAgrees n then s.discard j.part 0xC4
  else if j.plumb && j.status = 0 then
    if !j.run1 then plumbRestart n s
    else if s.jobDigest n = (j.d0lo, j.d0hi) then leave n 0 0 0 s
    else s.discard j.part 0xC5
  else leave n j.status.toNat j.cause.toNat 0 s

/-- JOB_COMPLETION (R325). -/
def execJobCompletion (slot : Nat) (s : State) : Host.Outcome State Fault Refusal := .next (jobCompletion slot s)

/-! ### Deterministic partitions (R319, R320) -/

/-- The schedule table: frame offset, queue and group of each entry. -/
structure SchedEntry where
  off : Nat
  queue : Nat
  group : Nat
  zero : Nat
deriving DecidableEq, Repr

def schedule (x : Part) (s : State) : List SchedEntry :=
  (List.range (bits (x.w 5) 36 28)).map fun i =>
    let v := s.rd (dramAddr ((x.w 6).toNat + 8 * i)) 8
    ⟨v % 4096, v / 2 ^ 12 % 64, v / 2 ^ 18 % 8, v / 2 ^ 21⟩

def Part.period (x : Part) : Nat := bits (x.w 5) 27 16

/-- The queue's earliest admitted job whose dependences are met and whose START is no later than the frame. -/
def State.slotJob (s : State) (p q frame : Nat) (but : List Nat) : Option (Nat × Job) :=
  (s.board p).find? fun (n, j) => j.queue = q && j.state == .ready && decide (j.start ≤ frame) && !but.contains n

/-- The bays of an entry's group for a job's shape. -/
def slotBays (x : Part) (j : Job) (g : Nat) : Option (List Nat) := (x.groupBents j.cost g).map bentBays

/-- The bays of the mirror of an entry's group, for a paired job (R317). -/
def mirrorBays (x : Part) (j : Job) (g : Nat) : List Nat :=
  match (if j.paired then x.mirror j.cost g else none) with
  | some h => bentBays ((x.groupBents j.cost h).getD [])
  | none => []

/-- The keys of a job's copies for its own bays and for those of the mirror. -/
def preloadAt (n : Nat) (bs mb : List Nat) (s : State) : State :=
  let rec1 := recOf (s.job n).image 1
  let put (k : Nat) (s : State) (b : Nat) : State := s.modBay b fun y => { y with shadow := planeOf rec1, shadowFor := some k }
  mb.foldl (put (twinSlot n)) (bs.foldl (put n) s)

/-- The laths of a job that no job holds take its first entries into their shadow planes (R346). -/
def preloadLaths (n : Nat) (s : State) : State :=
  let es := firstEntries [] (variantEntries (s.job n).image s.remap.defsig.toNat)
  es.foldl (fun s e => if (s.lathAt e.lath).slot.isNone then loadLath n e s else s) s

/-- Preload for the next frame's entries, an entry at a time; only one job is loaded into a bay's shadow plane (R318). -/
def preloadNext (p : Nat) (s : State) : State :=
  let x := s.part p
  let f := x.fnum.toNat + 1
  let es := (schedule x s).filter fun e => x.period != 0 && f % x.period == e.off
  (es.foldl (fun (acc : State × List Nat × List Nat) e =>
    let (s, jobs, used) := acc
    match s.slotJob p e.queue f jobs with
    | none => (s, jobs, used)
    | some (n, j) =>
      match slotBays x j e.group with
      | none => (s, jobs, used)
      | some bs =>
        let mb := mirrorBays x j e.group
        if (bs ++ mb).any fun b => used.contains b then (s, n :: jobs, used)
        else (preloadLaths n (preloadAt n bs mb s), n :: jobs, used ++ bs ++ mb)) (s, [], [])).1

def selection (p : Nat) (s : State) : State :=
  let x := s.part p
  if !s.framerUp || !x.up || s.isFrozen p then s
  else if x.det then preloadNext p s
  else match s.logSays p 4 0 with
    | .free =>
      match select p s with
      | .idle => s
      | .blocked _ qs ptr => s.modPart p fun x => { x with queues := qs, pointer := ptr }
      | .place n g h qs ptr =>
        let j := s.job n
        followSelect p n g h qs ptr (s.decided p 4 0 n (placeChoice j.queue g j.jobid))
    | .must c _ =>
      match loggedPlace p c s with
      | some (n, g, h) =>
        let j := s.job n
        let q := s.queue p j.queue
        followSelect p n g h (Tab.put x.queues j.queue { q with def_ := q.def_ - j.cost }) x.pointer (s.decided p 4 0 n c)
      | none => if (s.eligible p).isEmpty then s else s.logStuck p 4 0 0
    | .mismatch =>
      match select p s with
      | .place n _ _ _ _ => s.freeze p n
      | _ => s

/-- SELECTION (R315, R318). -/
def execSelection (part : Nat) (s : State) : Host.Outcome State Fault Refusal := .next (selection part s)

/-- A missed slot (R320). The event's JOBID is that of the job that was eligible; with none it is left free (log 44). -/
def slotMissed (p i : Nat) (j : Option Job) (s : State) : State :=
  match j with
  | some j => s.frEvent p 6 i j.jobid none
  | none => s.fresh.2.frEvent p 6 i s.fresh.1 none

/-- One entry at its frame origin: the eligible job is flipped onto the group, or the slot is missed. -/
def runSlot (p i : Nat) (e : SchedEntry) (s : State) : State :=
  let x := s.part p
  match s.slotJob p e.queue x.fnum.toNat [] with
  | none => slotMissed p i none s
  | some (n, j) =>
    match slotBays x j e.group with
    | none => slotMissed p i (some j) s
    | some bs =>
      let choice := placeChoice e.queue e.group j.jobid
      let h := if j.paired then x.mirror j.cost e.group else none
      let mb := mirrorBays x j e.group
      let ready := s.bentsFree ((bs ++ mb).map fun b => b / 8) && s.lathsFree j && bs.all (fun b => (s.bay b).shadowFor == some n && s.drained b) &&
        mb.all (fun b => (s.bay b).shadowFor == some (twinSlot n) && s.drained b) &&
        (s.jobLaths j).all fun k => (s.lathAt k).shadowFor == some n && (s.lathAt k).shv && !(s.lathAt k).loading
      if !ready || !s.framerUp then slotMissed p i (some j) s
      else if s.variantCode j ≠ 0 then leave n 1 0 (s.variantCode j) s
      else match s.logSays p 4 0 with
        | .mismatch => s.freeze p n
        | .must c _ =>
          if c ≠ choice then s.logStuck p 4 0 n
          else
            let s := placeReady n e.group h (s.decided p 4 0 n choice)
            enterRun n ((s.copies n).foldl (fun s k => (s.job k).bays.foldl (fun s b => flipBay b k s) s) s)
        | .free =>
          let s := placeReady n e.group h (s.decided p 4 0 n choice)
          enterRun n ((s.copies n).foldl (fun s k => (s.job k).bays.foldl (fun s b => flipBay b k s) s) s)

/-- Jobs that have halted in every bay leave their bents (R320, R325). -/
def State.completeHalted (s : State) (p : Nat) : State :=
  (s.board p).foldl (fun s (n, _) => if s.allHalted n then jobCompletion n s else s) s

/-- The schedule slots of the frame that has begun are taken, in the order of the table. -/
def frameOriginStep (p : Nat) (s : State) : State :=
  let x := s.part p
  if !x.up || !x.due then s
  else
    let s := (s.modPart p fun x => { x with due := false }).completeHalted p
    let es := schedule x s
    (es.zip (List.range es.length)).foldl (fun s (e, i) => if x.period ≠ 0 ∧ x.fnum.toNat % x.period = e.off then runSlot p i e s else s) s

/-- SCHEDULE_FRAME_ORIGIN (R319, R320, R402). -/
def execScheduleFrameOrigin (part : Nat) (s : State) : Host.Outcome State Fault Refusal := .next (frameOriginStep part s)

/-! ### Time limits and kills (R321, R450) -/

/-- Main clocks that a job has run. -/
def Job.runTime (j : Job) (clock : Nat) : Nat := j.ran + (if j.state == .run then clock - j.ranFrom else 0)

def jobTimeFault (clock : Nat) : PendFault := ⟨clock, 7, { cause := 0xA6 }⟩

def jobTime (n : Nat) (s : State) : State :=
  let j := s.job n
  if !s.framerUp || n ≥ 256 || j.state != .run || j.timeUp.isSome || j.ended || j.runTime s.clock < j.tlim * clkUs then s
  else
    let s := s.setJob n { j with timeUp := some s.clock }
    (s.allBays n).foldl (fun s b => if (s.bay b).live then s.modBay b fun y => y.addPend (jobTimeFault s.clock) else s) s

/-- JOB_TIME (R321). -/
def execJobTime (slot : Nat) (s : State) : Host.Outcome State Fault Refusal := .next (jobTime slot s)

/-- Stop every bay and lath of a job and discard its context. -/
def stopJob (n : Nat) (s : State) : State := s.dropWork (s.copies n)

/-- The job ends with JOB_KILL, unless it has ended. A save under way completes first; a job that holds no bent leaves at once (R450). -/
def killJob (n : Nat) (s : State) : State :=
  let j := s.job n
  if j.state == .wait || j.state == .ready then leave n 3 0xF1 0 s
  else if j.ended then s
  else
    let s := s.setJob n { j with status := 3, cause := 0xF1, fbay := 0xFF, frec := 0, ended := true }
    if j.stopping && j.state == .run then s else (stopJob n s).modJob n fun j => { j with stopping := false }

def jobKill (n : Nat) (s : State) : State :=
  let j := s.job n
  match j.timeUp with
  | none => s
  | some t =>
    if !s.framerUp || n ≥ 256 || j.ended || s.clock < t + 100 * clkUs || s.allHalted n then s else killJob n s

/-- JOB_KILL (R321). -/
def execJobKill (slot : Nat) (s : State) : Host.Outcome State Fault Refusal := .next (jobKill slot s)

/-! ### Pre-emption (R322, R323, R205, R216) -/

/-- Every bay of the job is asked to stop at its boundaries, and the PREEMPT event is written. -/
def preemptJob (n : Nat) (s : State) : State :=
  let j := s.job n
  let s := (s.copies n).foldl (fun s k => s.modJob k fun j => { j with stopping := true }) s
  s.frEvent j.part 3 0xF0 j.jobid none

/-- The job may be pre-empted at all: RUN, in a partition that is not deterministic and has shadow storage. -/
def State.preemptible (s : State) (n : Nat) : Bool :=
  let j := s.job n
  let x := s.part j.part
  decide (n < 256) && j.state == .run && !j.stopping && !j.ended && x.pre && !x.det

/-- Without job `v`, the stopped job `n` could be placed. -/
def State.wouldFree (s : State) (p n v : Nat) : Bool :=
  let s' := (s.copies v).foldl (fun s k => s.modJob k fun j => { j with state := .saved }) s
  (s'.placeFor p n (s.job n)).isSome

/-- The running job that R322 pre-empts for a job stopped for lack of bents; none while a job stops already whose save will free the group. -/
def victim (p : Nat) (s : State) : Option Nat :=
  match select p s with
  | .blocked n _ _ =>
    if (s.board p).any fun (v, j) => j.state == .run && j.stopping && s.wouldFree p n v then none else
    let l := (s.board p).filter fun (v, j) => s.preemptible v && decide (j.elev < (s.job n).elev) && s.wouldFree p n v
    (l.foldl (fun (best : Option (Nat × Job)) v =>
      match best with
      | none => some v
      | some b => if v.2.elev < b.2.elev || (v.2.elev = b.2.elev && decide (v.2.placedOrder > b.2.placedOrder)) then some v else best) none).map fun v => v.1
  | _ => none

def preemption (n : Nat) (s : State) : State :=
  if s.framerUp && s.preemptible n && victim (s.job n).part s = some n then preemptJob n s else s

/-- PREEMPTION (R322). -/
def execPreemption (slot : Nat) (s : State) : Host.Outcome State Fault Refusal := .next (preemption slot s)

/-- A bay's units have drained: the queued truss commands have run and their rows landed, moving sectors have finished, XRED requests are
acknowledged, stores have landed, and no resync runs (R252, R274, R306). A copy halted on a fault stays where it is. -/
def State.bayStopped (s : State) (b : Nat) : Bool :=
  let y := s.bay b
  let unit (x : Stream) : Bool := x.inflight.all fun r => r.halted || r.xnop || r.fallen || (!r.opened && !r.sentAll)
  !y.live || (y.truss.queue.isEmpty && y.truss.running.isEmpty && !((s.bent (b / 8)).writes.any fun w => w.owner = b) && y.reds.isEmpty &&
    y.stores.isEmpty && unit y.l && unit y.w && y.chan.all fun (_, e) => !e.resync)

/-- A lath has finished its word, its recovery, its posted updates and its emissions, as far as the receivers have room for them (R348; log
100). -/
def Lath.stopped (x : Lath) : Bool :=
  (x.hop.isNone || x.waiting || x.hlt) && !x.rcv && x.updates.isEmpty && x.outp.all (fun p => p.emit.isEmpty || p.credits == 0) &&
  x.inp.all fun p => p.sources.all fun q => !q.resync

def State.jobStopped (s : State) (n : Nat) : Bool :=
  (s.allBays n).all s.bayStopped && s.laths.all fun (_, x) => x.slot != some n || x.stopped

/-- A line of a bay's banks or accumulator store is dirty (R217). -/
def Bay.lineDirty (y : Bay) (n : Nat) : Bool := y.allLines || y.dirtyLines.contains n

/-- The entries of a table that a save takes from the bay, and the others from the latest image. -/
def pickTab {α : Type} (f : Nat → Bool) (old new : Tab α) : Tab α :=
  (new.filter fun e => f e.1).foldl (fun t e => Tab.put t e.1 e.2) (old.filter fun e => !f e.1)

def Stream.saveOver (e : Eng) (d : Nat → Bool) (old new : Stream) : Stream :=
  { new with
    k := pickTab (fun j => d (112 + e.idx * 8 + j)) old.k new.k, lc := pickTab (fun j => d (lcMark e j)) old.lc new.lc
    flags := if d markFlags then new.flags else old.flags, pc := if d markPc then new.pc else old.pc }

/-- The registers of a save (R204, R205): the items whose dirty bits are set, and the rest of the latest image. What R204 does not list is saved
whole. The saved bay's dirty bits are clear. -/
def Bay.saveOver (old new : Bay) : Bay :=
  let d (i : Nat) : Bool := new.dirty.toNat.testBit i
  let t := if d markTrap then new else old
  { new with
    s := pickTab d old.s new.s, vreg := pickTab (fun i => d (32 + i)) old.vreg new.vreg, preg := pickTab (fun i => d (96 + i)) old.preg new.preg
    par := pickTab (fun i => d (parMark i)) old.par new.par, lc := pickTab (fun j => d (lcMark .S j)) old.lc new.lc
    vshape := if d 232 then new.vshape else old.vshape, flags := if d markFlags then new.flags else old.flags
    cause := t.cause, epc := t.epc, tvecEn := t.tvecEn, tvecOff := t.tvecOff, tscratch := t.tscratch, tIn := t.tIn, tEng := t.tEng
    tHalt := t.tHalt, tResume := t.tResume, frec0 := t.frec0, frec1 := t.frec1, frec2 := t.frec2, pend := t.pend
    evpend := if d markEv then new.evpend else old.evpend, bankfmt := if d markFmt then new.bankfmt else old.bankfmt
    pc := if d markPc then new.pc else old.pc
    v := Stream.saveOver .V d old.v new.v, m := Stream.saveOver .M d old.m new.m, l := Stream.saveOver .L d old.l new.l
    w := Stream.saveOver .W d old.w new.w, dirty := 0, dirtyLines := [], allLines := false }

/-- Save one copy (R205, R216, R217, R348): the new image goes into the area that does not hold the latest one, with the dirty items and lines from the
bays, the clean ones from the latest image, and the metadata of SHARED granules in its banks. The bays are free afterwards, and hold nothing of
the job's channels (R306). -/
def saveCopy (n : Nat) (s : State) : State :=
  let j := s.job n
  let old := j.latestArea.getD {}
  let mine (a : Nat) : Bool := j.bays.any fun b => inBay b a
  let dirty (a : Nat) : Bool := match lineOf a with
    | some (b, k) => (s.bay b).lineDirty k
    | none => false
  let area : SaveArea := {
    bays := (j.bays.zip (List.range j.bays.length)).map fun (b, i) => Bay.saveOver (nth {} old.bays i) (s.bay b)
    mem := (s.mem.filter fun c => mine c.1 && dirty c.1) ++ old.mem.filter fun c => !dirty c.1
    metas := s.meta_.filter fun (g, _) => Tab.get 256 s.metaJob g == n && mine (g * 32)
    laths := s.laths.filter fun (_, x) => x.slot == some n }
  let s := s.setJob n { j.storeArea area with state := .saved, ran := j.ran + (s.clock - j.ranFrom), readyAt := s.clock, elev := j.prio }
  let s := { s with
    meta_ := s.meta_.filter fun (g, _) => !(Tab.get 256 s.metaJob g == n && mine (g * 32))
    metaJob := s.metaJob.filter fun (g, k) => !(k == n && mine (g * 32))
    parts := s.parts.map fun (p, x) => (p, { x.unstick n with
      faults := x.faults.map fun f => if f.slot = some n then { f with kept := true } else f }) }
  j.bays.foldl (fun s b => s.modBay b fun y => { y.stop with slot := none, chan := [] }) s

def saveComplete (n : Nat) (s : State) : State :=
  let j := s.job n
  if !s.framerUp || n ≥ 256 || j.state != .run || !j.stopping || !s.jobStopped n || s.allHalted n then s
  else if j.ended then (stopJob n s).modJob n fun j => { j with stopping := false }
  else
    let s := (s.copies n).foldl (fun s k => saveCopy k s) s
    endPreempt j.part j.jobid 0 s

/-- SAVE_COMPLETE (R205, R216, R323). -/
def execSaveComplete (slot : Nat) (s : State) : Host.Outcome State Fault Refusal := .next (saveComplete slot s)

end Sys2Proof.Machine
end

