-- ==== Sys2Proof/Machine/Hash.lean ====
section
/-! DEFINITION. Retrieval hash tables: descriptors, buckets and chains, the hash operations and the updates they post
(spec/17_hash_tables.md R374 to R387). -/

namespace Sys2Proof.Machine

/-! ### Descriptors (R374) -/

/-- A table descriptor and a family descriptor at reset. -/
def tableReset : List Word := [0, 0xFFFF0000FFFF0000, 0, 0, 0, 0, 0, 0]
def familyReset : List Word := [0, 0, 0, 0]

def State.table (s : State) (t : Nat) : List Word := Tab.get tableReset s.tables t
def State.family (s : State) (f : Nat) : List Word := Tab.get familyReset s.families f
def State.setTable (s : State) (t : Nat) (w : List Word) : State := { s with tables := Tab.put s.tables t w }

def hValid (w : List Word) : Bool := bit (nth 0 w 0) 0
def hCtx (w : List Word) : Nat := bits (nth 0 w 0) 6 1
def hK (w : List Word) : Nat := bits (nth 0 w 0) 11 7
def hState (w : List Word) : Bool := bit (nth 0 w 0) 19
def fL (w : List Word) : Nat := bits (nth 0 w 0) 16 12
def fTbl (w : List Word) (t : Nat) : Nat := bits (nth 0 w (1 + t / 8)) (8 * (t % 8) + 7) (8 * (t % 8))

def genOf (w : List Word) (new : Bool) : Gen :=
  let w0 := nth 0 w 0
  let w1 := nth 0 w 1
  if new then ⟨bits w0 24 20, bits w0 26 25, bits w1 47 32, bits w1 63 48, true⟩
  else ⟨bits w0 16 12, bits w0 18 17, bits w1 15 0, bits w1 31 16, false⟩

/-- The generations in use, the current one first. -/
def gensOf (w : List Word) : List Gen := genOf w false :: (if hState w then [genOf w true] else [])

/-- One half of a descriptor word. -/
def half (w : List Word) (i : Nat) (hi : Bool) : Nat := if hi then bits (nth 0 w i) 63 32 else bits (nth 0 w i) 31 0

def setHalf (w : List Word) (i : Nat) (hi : Bool) (v : Nat) : List Word :=
  let x := nth 0 w i
  w.set i (if hi then word (bits x 31 0 + at_ (v % 2 ^ 32) 32) else word (at_ (bits x 63 32) 32 + v % 2 ^ 32))

/-- Counters wrap modulo 2^32. -/
def State.countTable (s : State) (t i : Nat) (hi : Bool) : State :=
  let w := s.table t
  s.setTable t (setHalf w i hi (half w i hi + 1))

/-! ### Tensors (R375, R376) -/

/-- The tensors that hold a generation. -/
structure GenView where
  g : Gen
  bv : View
  ov : Option View

/-- The entry of a w32 tensor, in one of the spaces of the mask (R375, R376, R378). -/
def hashEntry (spaces : Spaces) (w : List Word) : Bool := !entryBad w && eFmt w == 0x0C && spaces.testBit (eSpace w)

def entryCount (w : List Word) : Nat := (eExts w).foldl (· * ·) 1

/-- Node capacity of an overflow tensor of `k` elements (R376). -/
def capacity (g : Gen) (k : Nat) : Nat := (k - 2 ^ g.bb) / 8

def overflowGood (g : Gen) (w : List Word) : Bool :=
  hashEntry 0x10 w && decide (entryCount w ≥ 2 ^ g.bb + 8) && (entryCount w - 2 ^ g.bb) % 8 == 0

/-- The tensors of a generation are as R375 and R376 have them. -/
def genGood (n : Nat) (s : State) (g : Gen) : Bool :=
  let w := s.entryWords (s.lathCtx n) g.btid
  hashEntry spMem w && eRank w == 1 && entryCount w == 8 * 2 ^ g.bb &&
  (g.pol != 2 || (g.otid != 0xFFFF && overflowGood g (s.entryWords (s.lathCtx n) g.otid)))

/-- The view of a tensor; it is accessed with the tag that the Framer writes into its granules (log 29). -/
def hashTensor (n tid : Nat) (s : State) : Except Stop View :=
  s.viewOf (s.lathCtx n) tid (eTag (s.entryWords (s.lathCtx n) tid)) false 0 0

/-! ### Checks (R378) -/

def hashDesc : Stop := trapC 0x81

def genView (n : Nat) (g : Gen) (s : State) : Except Stop GenView := do
  guardE (genGood n s g) hashDesc
  let v ← hashTensor n g.btid s
  if g.pol ≠ 2 then return ⟨g, v, none⟩
  else do
    let o ← hashTensor n g.otid s
    return ⟨g, v, some o⟩

/-- NOVFREE counts nodes of the new overflow tensor: none when a rehash begins, and at most as many as it has (R378, R384; log 101). -/
def newFree (n : Nat) (w : List Word) (begin_ : Bool) (s : State) : Bool :=
  let g := genOf w true
  if begin_ then half w 2 true == 0
  else g.pol != 2 || decide (half w 2 true ≤ capacity g (entryCount (s.entryWords (s.lathCtx n) g.otid)))

/-- The fields of a table: K, BB, the reserved bits, and the tensors of each generation that is checked. -/
def tableFields (n : Nat) (w : List Word) (begin_ : Bool) (s : State) : Bool :=
  let k := hK w
  let two := hState w || begin_
  let gs := genOf w false :: (if two then [genOf w true] else [])
  bits (nth 0 w 0) 63 27 == 0 && bits (nth 0 w 6) 63 32 == 0 && nth 0 w 7 == 0 && k != 0 && decide (k ≤ 20) &&
  gs.all (fun g => g.bb != 0 && decide (k ≤ g.bb + 8) && decide (g.bb ≤ k) && genGood n s g) &&
  (!two || newFree n w (begin_ && !hState w) s)

def ctxE (n : Nat) (ws : List (List Word)) (s : State) : Except Stop Unit :=
  guardE (ws.all fun w => hCtx w == (s.lathAt n).ctx.toNat) (trapC 0x60)

/-- A table that HREHASH names. -/
def tableCheck (n t : Nat) (begin_ : Bool) (s : State) : Except Stop Unit := do
  let w := s.table t
  guardE (hValid w) hashDesc
  ctxE n [w] s
  guardE (tableFields n w begin_ s) hashDesc

/-- The member tables of a family. -/
def members (w : List Word) : List Nat := (List.range (min (fL w) 16)).map (fTbl w)

def familyCheck (n f : Nat) (s : State) : Except Stop Unit := do
  let w := s.family f
  let ts := (members w).map s.table
  guardE ((w :: ts).all hValid) hashDesc
  ctxE n (w :: ts) s
  guardE (bits (nth 0 w 0) 63 17 == 0 && bits (nth 0 w 3) 63 32 == 0 && decide (1 ≤ hK w) && decide (hK w ≤ 20) && decide (1 ≤ fL w) &&
    decide (fL w ≤ 16)) hashDesc
  guardE (ts.all fun x => tableFields n x false s && hK x == hK w) hashDesc

/-- A token's payload (R379): key, member and row. -/
def pKey (v : Word) : Nat := bits v 19 0
def pT (v : Word) : Nat := bits v 23 20
def pRow (v : Word) : Nat := bits v 47 24

def queryBad (w : List Word) (v : Word) : Bool := bits v 63 24 != 0 || decide (pKey v ≥ 2 ^ hK w) || decide (pT v ≥ fL w)
def updateBad (w : List Word) (v : Word) : Bool :=
  bits v 63 48 != 0 || decide (pKey v ≥ 2 ^ hK w) || decide (pT v ≥ fL w) || pRow v == 0xFFFFFF

/-! ### Granules (R377) -/

/-- A granule as it was read: where it stands and its eight 32-bit elements. -/
structure Granule where
  spans : List Span
  vals : List Nat
deriving DecidableEq, Repr

def quads : Nat → List Byte → List Nat
  | 0, _ => []
  | k + 1, l => bytesNat (l.take 4) :: quads k (l.drop 4)

/-- Read the eight elements from element `i` on, in row-major order, with slot 3; they are one granule of a tensor of rank 1. -/
def readGranule (n : Nat) (v : View) (i : Nat) (write : Bool) (s : State) : Except Stop Granule :=
  let c := s.lathCtx n
  let runs := if v.rank = 1 then runSpans (v.offset [i]).1 32
    else (List.range 8).flatMap fun k => runSpans (v.offset (v.coordsOf (i + k))).1 4
  if i + 8 > v.count then .error (v.outside 3 i)
  else match (s.placeAll c v 3 false spMem runs).bind fun l => if write then s.placeAll c v 3 true spMem runs else .ok l with
    | .error e => .error e
    | .ok l => .ok ⟨l, quads 8 (s.readSpans c l).1⟩

def slotRow (x : Nat) : Nat := x % 2 ^ 24
def slotChk (x : Nat) : Nat := x / 2 ^ 24
def slotOf (row c : Nat) : Nat := c % 256 * 2 ^ 24 + row
def slotFree (x : Nat) : Bool := slotRow x == 0xFFFFFF
def emptySlot : Nat := 0xFFFFFFFF

/-- A node of a chain: its index, its granule, its seven slots and the next index. -/
structure Node where
  idx : Nat
  gr : Granule
  slots : List Nat
  next : Nat
deriving DecidableEq, Repr

def readChain (n bb : Nat) (v : View) (write : Bool) (s : State) : Nat → Nat → Except Stop (List Node)
  | 0, _ => .ok []
  | fuel + 1, i =>
    if i = 0xFFFFFFFF then .ok []
    else match readGranule n v (2 ^ bb + 8 * i) write s with
      | .error e => .error e
      | .ok g =>
        match readChain n bb v write s fuel (nth 0 g.vals 7) with
        | .error e => .error e
        | .ok l => .ok (⟨i, g, g.vals.take 7, nth 0 g.vals 7⟩ :: l)

/-- Bucket `b` of a generation with its chain: the granule of the head, which holds element `b` at place `b % 8`. -/
structure Found where
  bucket : Granule
  head : Option Granule
  chain : List Node
deriving DecidableEq, Repr

def readBucket (n : Nat) (gv : GenView) (b : Nat) (write : Bool) (s : State) : Except Stop Found :=
  match readGranule n gv.bv (8 * b) write s with
  | .error e => .error e
  | .ok g =>
    match gv.ov with
    | none => .ok ⟨g, none, []⟩
    | some o =>
      match readGranule n o (b / 8 * 8) write s with
      | .error e => .error e
      | .ok h =>
        match readChain n gv.g.bb o write s (capacity gv.g o.count) (nth 0 h.vals (b % 8)) with
        | .error e => .error e
        | .ok l => .ok ⟨g, some h, l⟩

def Found.granules (x : Found) : List Granule := x.bucket :: (x.head.toList ++ x.chain.map fun c => c.gr)

/-- Every slot, in slot order and link order. -/
def Found.slots (x : Found) : List Nat := x.bucket.vals ++ x.chain.flatMap fun c => c.slots

def overlaps (a n b m : Nat) : Bool := decide (a < b + m) && decide (b < a + n)

/-- An update to a granule is posted and has not completed. -/
def HashUpdate.touches (u : HashUpdate) (g : Granule) : Bool :=
  u.parts.any fun (_, a, l) => g.spans.any fun x => overlaps a l.length x.loc.addr x.n

/-- A read waits for the lath's own earlier updates of the granule (R386); an update, which reads and writes at the home with no other
access between, also for those of other laths (R377). -/
def ownBusy (n : Nat) (l : List Granule) (s : State) : Bool := (s.lathAt n).updates.any fun u => l.any u.touches
def anyBusy (l : List Granule) (s : State) : Bool := s.laths.any fun (_, x) => x.updates.any fun u => l.any u.touches

/-! ### Posted updates (R377, R380) -/

def cut : List Span → List Byte → List (Nat × Nat × List Byte)
  | [], _ => []
  | x :: t, l => (x.o, x.loc.addr, l.take x.n) :: cut t (l.drop x.n)

/-- Post new contents of a granule; the updates at `after` complete first. -/
def post (n : Nat) (v : View) (g : Granule) (vals : List Nat) (after : List Nat) (s : State) : State :=
  let u : HashUpdate := { parts := cut g.spans (vals.flatMap (natBytes 4)), tid := v.tid, space := eSpace v.w, after := after }
  s.modLath n fun x => { x with updates := x.updates ++ [u] }

/-- Post one element of a granule, the chain's head of a bucket, whose granule may hold slots of a node beside it (R376). -/
def postHead (n : Nat) (v : View) (g : Granule) (k x : Nat) (after : List Nat) (s : State) : State :=
  let u : HashUpdate := {
    parts := ((cut g.spans (List.replicate 32 0)).foldl (fun (acc : Nat × List (Nat × Nat × List Byte)) p =>
      let m := p.2.2.length
      (acc.1 + m, if acc.1 ≤ 4 * k && decide (4 * k < acc.1 + m) then acc.2 ++ [(p.1 + (4 * k - acc.1), p.2.1 + (4 * k - acc.1), natBytes 4 x)]
        else acc.2)) (0, [])).2
    tid := v.tid, space := eSpace v.w, after := after }
  s.modLath n fun x => { x with updates := x.updates ++ [u] }

def HashUpdate.at (u : HashUpdate) : Nat := match u.parts with | (_, a, _) :: _ => a | [] => 0

/-- Add an update to the digest of a plumb job (R453, R459). -/
def State.digestJob (s : State) (slot space tid o : Nat) (l : List Byte) : State :=
  let j := s.job slot
  if !j.plumb then s
  else
    let (lo, hi) := digestRecord space tid (o / 32) ((2 ^ l.length - 1) * 2 ^ (o % 32)) (granuleBytes (o % 32) l)
    s.setJob slot { j with dlo := j.dlo + lo, dhi := j.dhi + hi }

/-- The update is written at its home, whole. -/
def landUpdate (slot : Option Nat) (u : HashUpdate) (s : State) : State :=
  u.parts.foldl (fun s (o, a, l) =>
    let s := s.write a l
    match slot with | some j => s.digestJob j u.space u.tid o l | none => s) s

/-- The `k`-th posted update of a lath completes. -/
def updateCompletion (n k : Nat) (s : State) : State :=
  let x := s.lathAt n
  match x.updates[k]? with
  | none => s
  | some u =>
    if ((x.updates.take k).any fun e => u.after.contains e.at) || u.parts.any fun (_, a, _) => s.sliceWaits a then s
    else landUpdate x.slot u (s.setLath n { x with updates := x.updates.eraseIdx k })

/-- Every posted update of a lath completes, in order. -/
def landAll (n : Nat) (s : State) : State :=
  let x := s.lathAt n
  x.updates.foldl (fun s u => landUpdate x.slot u s) (s.setLath n { x with updates := [] })

/-- HASH_UPDATE_COMPLETION (R377). -/
def execHashUpdateCompletion (lath n : Nat) (s : State) : Host.Outcome State Fault Refusal := .next (updateCompletion lath n s)

/-! ### Inserting and deleting (R382, R383) -/

/-- The bucket number and CHK of a key (R375). -/
def bucketOf (bb x : Nat) : Nat := x % 2 ^ bb
def chkOf (bb x : Nat) : Nat := x / 2 ^ bb

def replaceFirst (f : Nat → Bool) (v : Nat) : List Nat → List Nat
  | [] => []
  | x :: t => if f x then v :: t else x :: replaceFirst f v t

/-- The first chain node with a slot that `f` accepts, and its eight elements with that slot replaced by `v`. -/
def chainReplace (f : Nat → Bool) (v : Nat) : List Node → Option (Node × List Nat)
  | [] => none
  | c :: t => if c.slots.any f then some (c, replaceFirst f v c.slots ++ [c.next]) else chainReplace f v t

/-- Allocate a node, write it, then link it at the end of the chain. -/
def allocNode (n t : Nat) (gv : GenView) (o : View) (fd : Found) (b v : Nat) (s : State) : Except Stop State :=
  let w := s.table t
  let i := half w 2 gv.g.new
  if i ≥ capacity gv.g o.count then .error (trapC 0x80)
  else match readGranule n o (2 ^ gv.g.bb + 8 * i) true s with
    | .error e => .error e
    | .ok g =>
      let s := s.setTable t (setHalf w 2 gv.g.new (i + 1))
      let s := post n o g ([v] ++ List.replicate 6 emptySlot ++ [0xFFFFFFFF]) [] s
      let at_ := match g.spans with | x :: _ => [x.loc.addr] | [] => []
      match fd.chain.getLast?, fd.head with
      | some c, _ => .ok (post n o c.gr (c.slots ++ [i]) at_ s)
      | none, some h => .ok (postHead n o h (b % 8) i at_ s)
      | none, none => .ok s

/-- Insert (row, c) into bucket `b` of a generation; none where a posted update makes it wait. -/
def insertEntry (n t : Nat) (gv : GenView) (b row c : Nat) (s : State) : Except Stop (Option State) :=
  match readBucket n gv b true s with
  | .error e => .error e
  | .ok fd =>
    let v := slotOf row c
    if anyBusy fd.granules s then .ok none
    else if fd.slots.any fun x => x == v then .ok (some (s.countTable t 5 true))
    else if fd.bucket.vals.any slotFree then .ok (some (post n gv.bv fd.bucket (replaceFirst slotFree v fd.bucket.vals) [] s))
    else match gv.g.pol with
      | 0 => .ok (some (s.countTable t 4 false))
      | 1 => .ok (some ((post n gv.bv fd.bucket (fd.bucket.vals.drop 1 ++ [v]) [] s).countTable t 4 true))
      | 2 =>
        match gv.ov with
        | none => .error hashDesc
        | some o =>
          match chainReplace slotFree v fd.chain with
          | some (c, l) => .ok (some ((post n o c.gr l [] s).countTable t 5 false))
          | none =>
            match allocNode n t gv o fd b v s with
            | .error e => .error e
            | .ok s => .ok (some (s.countTable t 5 false))
      | _ => .error (trapC 0x80)

/-- Remove (row, c) from bucket `b` of a generation: whether it was there, or none where a posted update makes it wait. -/
def deleteEntry (n : Nat) (gv : GenView) (b row c : Nat) (s : State) : Except Stop (Option (Bool × State)) :=
  match readBucket n gv b true s with
  | .error e => .error e
  | .ok fd =>
    let v := slotOf row c
    if anyBusy fd.granules s then .ok none
    else if fd.bucket.vals.any fun x => x == v then
      let l := (fd.bucket.vals.takeWhile fun x => x != v) ++ ((fd.bucket.vals.dropWhile fun x => x != v).drop 1) ++ [emptySlot]
      .ok (some (true, post n gv.bv fd.bucket l [] s))
    else match gv.ov, chainReplace (fun x => x == v) emptySlot fd.chain with
      | some o, some (c, l) => .ok (some (true, post n o c.gr l [] s))
      | _, _ => .ok (some (false, s))

/-- Another lath's migration holds the old bucket of key `x` (R386). -/
def keyHeld (n t : Nat) (w : List Word) (x : Nat) (s : State) : Bool :=
  hState w && s.heldBuckets.any fun (a, b, m) => a == t && b == bucketOf (genOf w false).bb x && m != n

/-! ### An operation that reads a batch (R338, R378) -/

/-- Begin: wait for a batch and for room, make every check, and note the batch; `body` then runs once for each step. -/
def hashOp (n i : Nat) (outs : List Nat) (check : Batch → Except Stop Unit) (body : HashOp → Batch → Except Stop State) (s : State) :
    Except Stop State :=
  match (s.lathAt n).hop with
  | some h =>
    match hopBatch n i h s with
    | some b => body h b
    | none => .error .wait
  | none =>
    match s.nextBatch n i with
    | .other f => .ok (f s)
    | .none => lathWaits n [i] s
    | .some b =>
      if !outs.all (s.lathAt n).roomAt then .error .wait
      else withTag b.header.2 (check b) >>= fun _ => .ok (setHop n { src := b.src, thread := b.thread } (s.chosen n i b))

/-- The operation has handled every token: it consumes its batch, emits, and retires. -/
def hashFinish (n i : Nat) (b : Batch) (e : Emission) (s : State) : State :=
  (s.consume n i b).modLath n fun x => (emitAll x e).retireClass

def payloadCheck (b : Batch) (bad : Word → Bool) (limit : Nat) : Except Stop Unit :=
  guardE (!b.bad && decide (b.data.length ≤ limit) && !b.data.any fun t => bad t.1) (trapC 0x38)

/-! ### HPROBE (R381) -/

/-- Rows of the slots that match and are not in `out` yet; at most 192. -/
def collect (c : Nat) : List Nat → List Nat → Bool → List Nat × Bool
  | [], out, k => (out, k)
  | x :: t, out, k =>
    if slotFree x || slotChk x ≠ c || out.contains (slotRow x) then collect c t out k
    else if out.length < 192 then collect c t (out ++ [slotRow x]) k else collect c t out true

/-- The token's next granule of a generation, the bucket, then the chain's head, then its nodes in link order; none where it waits for an
update of the lath's own. The operation reads granule by granule, and other laths' updates may fall between (R377, R386; log 102). -/
def probeRead (n x : Nat) (gv : GenView) (h : HashOp) (s : State) : Except Stop (Option HashOp) :=
  let b := bucketOf gv.g.bb x
  let found (g : Granule) (slots : List Nat) (place : Nat) : Option HashOp :=
    if ownBusy n [g] s then none
    else
      let r := collect (chkOf gv.g.bb x) slots h.out h.cut
      some { h with out := r.1, cut := r.2, place := place }
  let after (i : Nat) : Nat := if i = 0xFFFFFFFF then 0 else 2 + i
  match h.place, gv.ov with
  | 0, o => do
    let g ← readGranule n gv.bv (8 * b) false s
    return found g g.vals (if o.isSome then 1 else 0)
  | _, none => .ok (some { h with place := 0 })
  | 1, some o => do
    let g ← readGranule n o (b / 8 * 8) false s
    return found g [] (after (nth 0 g.vals (b % 8)))
  | k + 2, some o => do
    let g ← readGranule n o (2 ^ gv.g.bb + 8 * k) false s
    return found g (g.vals.take 7) (after (nth 0 g.vals 7))

/-- A read of the token: once the generation's last granule has been read, the next generation follows, and after the last the next token. -/
def probeStep (n i o f : Nat) (s : State) (h : HashOp) (b : Batch) : Except Stop State :=
  let w := s.family f
  match b.data[h.next]? with
  | some t =>
    let tw := s.table (fTbl w (pT t.1))
    match h.gens.getD (gensOf tw) with
    | [] => .ok (setHop n { h with next := h.next + 1, gens := none, place := 0 } s)
    | g :: gs => withTag t.2 do
      let gv ← genView n g s
      match ← probeRead n (pKey t.1) gv h s with
      | none => .error .wait
      | some h => return setHop n { h with gens := some (if h.place = 0 then gs else g :: gs) } s
  | none =>
    let s := hashFinish n i b [(o, b.thread, h.out.map word)] s
    .ok (if h.cut then { s with families := Tab.put s.families f (setHalf w 3 false (half w 3 false + 1)) } else s)

/-- HPROBE (R381): a step for each granule read, one at the end of each token, and one that emits. -/
def execHprobe (im o : BitVec 2) (f : BitVec 6) (s : State) : Host.Outcome State Fault Refusal :=
  s.onLath fun n =>
    hashOp n im.toNat [o.toNat]
      (fun b => familyCheck n f.toNat s >>= fun _ => payloadCheck b (queryBad (s.family f.toNat)) 16)
      (probeStep n im.toNat o.toNat f.toNat s) s

/-! ### HINS and HDEL (R382, R383) -/

/-- The generation that an insert goes to. -/
def insertGen (w : List Word) : Gen := genOf w (hState w)

def insStep (n i f : Nat) (s : State) (h : HashOp) (b : Batch) : Except Stop State :=
  match b.data[h.next]? with
  | some t =>
    let tb := fTbl (s.family f) (pT t.1)
    let w := s.table tb
    let x := pKey t.1
    if keyHeld n tb w x s then .error .wait
    else match withTag t.2 (genView n (insertGen w) s) with
      | .error e => .error e
      | .ok gv =>
        match withTag t.2 (insertEntry n tb gv (bucketOf gv.g.bb x) (pRow t.1) (chkOf gv.g.bb x) s) with
        | .error e => .error e
        | .ok none => .error .wait
        | .ok (some s) => .ok (setHop n { h with next := h.next + 1 } s)
  | none => .ok (hashFinish n i b [] s)

/-- HINS (R382): one step for each token. -/
def execHins (im : BitVec 2) (f : BitVec 6) (s : State) : Host.Outcome State Fault Refusal :=
  s.onLath fun n =>
    hashOp n im.toNat []
      (fun b => familyCheck n f.toNat s >>= fun _ => payloadCheck b (updateBad (s.family f.toNat)) 192)
      (insStep n im.toNat f.toNat s) s

/-- Remove from each generation in turn. -/
def deleteGens (n x row : Nat) : List GenView → Bool → State → Except Stop (Option (Bool × State))
  | [], found, s => .ok (some (found, s))
  | gv :: t, found, s =>
    match deleteEntry n gv (bucketOf gv.g.bb x) row (chkOf gv.g.bb x) s with
    | .error e => .error e
    | .ok none => .ok none
    | .ok (some (k, s)) => deleteGens n x row t (found || k) s

def delStep (n i f : Nat) (s : State) (h : HashOp) (b : Batch) : Except Stop State :=
  match b.data[h.next]? with
  | some t =>
    let tb := fTbl (s.family f) (pT t.1)
    let w := s.table tb
    let x := pKey t.1
    if keyHeld n tb w x s then .error .wait
    else match withTag t.2 ((gensOf w).mapM (fun g => genView n g s) >>= fun l => deleteGens n x (pRow t.1) l false s) with
      | .error e => .error e
      | .ok none => .error .wait
      | .ok (some (found, s)) =>
        .ok (setHop n { h with next := h.next + 1 } (if found then s else s.countTable tb 6 false))
  | none => .ok (hashFinish n i b [] s)

/-- HDEL (R383): one step for each token. -/
def execHdel (im : BitVec 2) (f : BitVec 6) (s : State) : Host.Outcome State Fault Refusal :=
  s.onLath fun n =>
    hashOp n im.toNat []
      (fun b => familyCheck n f.toNat s >>= fun _ => payloadCheck b (updateBad (s.family f.toNat)) 192)
      (delStep n im.toNat f.toNat s) s

/-- HFENCE: every update that the lath has posted completes before the batch is emitted again (R386). -/
def fenceStep (n i o : Nat) (s : State) (b : Batch) : Except Stop State :=
  if !(s.lathAt n).updates.isEmpty then .error .wait
  else .ok (hashFinish n i b [(o, b.thread, b.data.map fun t => t.1)] s)

/-- HFENCE (R379, R386). -/
def execHfence (im o : BitVec 2) (s : State) : Host.Outcome State Fault Refusal :=
  s.onLath fun n =>
    hashOp n im.toNat [o.toNat] (fun b => guardE (!b.bad) (trapC 0x38)) (fun _ b => fenceStep n im.toNat o.toNat s b) s

/-! ### Incremental rehash (R384, R385) -/

/-- HREHASH retires, with an implicit checkpoint. -/
def rehashRetire (n : Nat) (s : State) : State :=
  s.modLath n fun x => { x.retire.checkpoint x.retire.pc with rehash := none }

/-- Write a range of bits of a descriptor word. -/
def setField (w : Word) (hi lo v : Nat) : Word := word (w.toNat - at_ (bits w hi lo) lo + at_ (v % 2 ^ (hi - lo + 1)) lo)

/-- STATE := 1; MP := 0; CLAIM := 0. -/
def rehashBegin (w : List Word) : List Word := (w.set 0 (setField (nth 0 w 0) 19 19 1)).set 3 0

/-- HREHASH begin (R384). -/
def execHrehashBegin (t : BitVec 8) (s : State) : Host.Outcome State Fault Refusal :=
  s.onLath fun n => do
    tableCheck n t.toNat true s
    guardE (!hState (s.table t.toNat)) (trapC 0x82)
    return rehashRetire n (s.setTable t.toNat (rehashBegin (s.table t.toNat)))

/-- The new generation becomes the current one. -/
def rehashFinish (w : List Word) : List Word :=
  let w0 := nth 0 w 0
  let w1 := nth 0 w 1
  let w2 := nth 0 w 2
  let w0 := setField (setField (setField w0 16 12 (bits w0 24 20)) 18 17 (bits w0 26 25)) 19 19 0
  ((w.set 0 w0).set 1 (word (at_ (bits w1 63 32) 32 + bits w1 63 32))).set 2 (word (at_ (bits w2 63 32) 32 + bits w2 63 32))

/-- Claim the next buckets. -/
def rehashClaim (n t k : Nat) (s : State) : State :=
  let w := s.table t
  let first := half w 3 true
  let last := max first (min (first + k) (2 ^ (genOf w false).bb))
  (s.setTable t (setHalf w 3 true last)).modLath n fun x => { x with rehash := some (t, first, last), hop := some { src := 0, thread := 0 } }

/-- Entries of a bucket and its chain, in order. -/
def Found.entries (x : Found) : List (Nat × Nat) := (x.slots.filter fun v => !slotFree v).map fun v => (slotRow v, slotChk v)

/-- Take the next bucket: hold it and read its entries. -/
def rehashTake (n t b : Nat) (h : HashOp) (s : State) : Except Stop State :=
  if s.heldBuckets.any fun (a, c, m) => a == t && c == b && m != n then .error .wait
  else match genView n (genOf (s.table t) false) s with
    | .error e => .error e
    | .ok gv =>
      match readBucket n gv b true s with
      | .error e => .error e
      | .ok fd =>
        if anyBusy fd.granules s then .error .wait
        else
          let s := if s.heldBuckets.contains (t, b, n) then s else { s with heldBuckets := s.heldBuckets ++ [(t, b, n)] }
          .ok (setHop n { h with bucket := some b, left := fd.entries } s)

/-- Clear the migrated bucket once its entries have been written at their homes, end the hold and count it; the last bucket finishes the
rehash (R384, R386). -/
def rehashClear (n t b last : Nat) (h : HashOp) (s : State) : Except Stop State :=
  match genView n (genOf (s.table t) false) s with
  | .error e => .error e
  | .ok gv =>
    if !(s.lathAt n).updates.isEmpty then .error .wait
    else match readBucket n gv b true s with
    | .error e => .error e
    | .ok fd =>
      if anyBusy fd.granules s then .error .wait
      else
      let s := post n gv.bv fd.bucket (List.replicate 8 emptySlot) [] s
      let s := match gv.ov, fd.head with
        | some o, some hd => postHead n o hd (b % 8) 0xFFFFFFFF [] s
        | _, _ => s
      let s := landAll n s
      let w := s.table t
      let mp := half w 3 false + 1
      let w := setHalf w 3 false mp
      let w := if mp = 2 ^ gv.g.bb then rehashFinish w else w
      let s := { s with heldBuckets := s.heldBuckets.filter fun e => e != (t, b, n) }
      .ok (setHop n { h with bucket := none } ((s.setTable t w).modLath n fun x => { x with rehash := some (t, b + 1, last) }))

/-- One step of a migration. -/
def rehashStep (n t next last : Nat) (h : HashOp) (s : State) : Except Stop State :=
  match h.bucket, h.left with
  | none, _ => if next < last then rehashTake n t next h s else .ok (rehashRetire n s)
  | some b, [] => rehashClear n t b last h s
  | some b, (row, c) :: rest =>
    let w := s.table t
    match genView n (genOf w true) s with
    | .error e => .error e
    | .ok gv =>
      let x := c * 2 ^ (genOf w false).bb + b
      match insertEntry n t gv (bucketOf gv.g.bb x) row (chkOf gv.g.bb x) s with
      | .error e => .error e
      | .ok none => .error .wait
      | .ok (some s) => .ok (setHop n { h with left := rest } s)

def rehash (n t k : Nat) (s : State) : Except Stop State :=
  let x := s.lathAt n
  match x.rehash, x.hop with
  | some (t', next, last), some h => rehashStep n t' next last h s
  | some (_, _, _), none => .ok (setHop n { src := 0, thread := 0 } s)
  | none, _ => do
    tableCheck n t false s
    guardE (hState (s.table t)) (trapC 0x82)
    return rehashClaim n t k s

/-- HREHASH migrate (R384): one step claims the buckets, and one step each takes a bucket, moves an entry, and clears a bucket. -/
def execHrehash (t : BitVec 8) (n : BitVec 12) (s : State) : Host.Outcome State Fault Refusal :=
  s.onLath fun k => do
    guardE (n != 0) .place
    rehash k t.toNat n.toNat s

end Sys2Proof.Machine
end

