-- ==== Sys2Proof/Machine/HostRead.lean ====
section
/-! DEFINITION. What the host reads through the BARs (spec/24_host_boot.md R443, R444, R446, R450, spec/26_foreman.md R468). -/

namespace Sys2Proof.Machine

/-- BOOTSTAT (R444). -/
def State.bootstat (s : State) : Word :=
  word (s.boot.stage.toNat + at_ s.boot.err.toNat 4 + at_ (b2n s.boot.rdy) 12 + at_ s.remap.defsig.toNat 32)

/-- A launch queue's descriptor: both words (R308). -/
def LQueue.words (x : LQueue) : Word × Word :=
  (x.base, word (x.logn % 16 + at_ (x.level % 8) 4 + at_ (b2n x.en) 7 + at_ (x.quant % 256) 8 + at_ (x.head % 65536) 16 + at_ (x.tail % 65536) 32))

/-- BUSY and RES of a mailbox (R450, R468). -/
def mailStatus (busy : Bool) (res : BitVec 8) : Word := word (b2n busy + at_ res.toNat 1)

/-- The Foreman's mailbox at an offset from 0x10000; every other offset reads as zero (R468). -/
def Foreman.reg (f : Foreman) (off : Nat) : Word :=
  if off = 0 then word f.cmd.toNat
  else if 8 ≤ off ∧ off ≤ 0x20 then nth 0 f.args (off / 8 - 1)
  else if off = 0x28 then mailStatus f.busy f.res
  else if off = 0x30 then word (b2n f.fma + at_ (b2n f.fra) 1 + at_ (b2n f.stg) 2 + at_ (b2n f.hov) 3 + at_ f.frver.toNat 32)
  else if off = 0x38 then f.hbcnt
  else if off = 0x40 then word f.evhead.toNat
  else if off = 0x48 then word f.evtail.toNat
  else if 0x100 ≤ off ∧ off < 0x210 then word (Tab.get 0 f.sens ((off - 0x100) / 8)).toNat
  else 0

/-! Reserved fields read as zero (R6): the bits that each word of an entry shows. -/

def allBits : Nat := 2 ^ 64 - 1

/-- A partition descriptor (R446). -/
def descShows : List Nat :=
  [2 ^ 25 - 1, 2 ^ 32 - 1, allBits, allBits, allBits, 2 ^ 37 - 1, allBits, allBits, 2 ^ 16 - 1, allBits, 2 ^ 4 - 1, 0, 0, 0, 0, 2 ^ 8 - 1]

/-- A chain entry (R352). -/
def chainShows : List Nat := [2 ^ 30 - 1, allBits, 2 ^ 48 - 1, 2 ^ 32 - 1] ++ List.replicate 6 (2 ^ 52 - 1)

/-- A fusion group (R395). -/
def groupShows : List Nat := [2 ^ 24 - 1, allBits, 0x3F3F3F3F3F3F3F3F, 0x3F3F3F3F3F3F3F3F]

/-- A hash family and a hash table (R374). -/
def familyShows : List Nat := [2 ^ 17 - 1, allBits, allBits, 2 ^ 32 - 1]
def tableShows : List Nat := [2 ^ 27 - 1, allBits, allBits, allBits, allBits, allBits, 2 ^ 32 - 1, 0]

/-- Word `i` of an entry as a read shows it. -/
def shown (mask : List Nat) (w : List Word) (i : Nat) : Word := nth 0 w i &&& BitVec.ofNat 64 (nth 0 mask i)

/-- A register of the PF; none where the spec gives the offset no contents to read. -/
def State.pfReg (s : State) (off : Nat) : Option Word :=
  if off = 0 then some s.bootstat
  else if 0x100 ≤ off ∧ off < 0x500 then some (shown descShows (s.part ((off - 0x100) / 128)).desc (off % 128 / 8))
  else if 0x10000 ≤ off then some (s.foreman.reg (off - 0x10000))
  else none

/-- A word of an entry that its owner alone sees. -/
def owned (mine : Bool) (mask : List Nat) (w : List Word) (i : Nat) : Option Word := some (if mine then shown mask w i else 0)

/-- A register of VF `p`. -/
def State.vfReg (s : State) (p off : Nat) : Option Word :=
  let x := s.part p
  if !x.up then some 0
  else if off < 0x400 then let d := (Tab.get {} x.queues (off / 16)).words; some (if off % 16 = 0 then d.1 else d.2)
  else if off = 0x2000 then some (word x.cmd.toNat)
  else if 0x2008 ≤ off ∧ off ≤ 0x2018 then some (nth 0 x.args ((off - 0x2008) / 8))
  else if off = 0x2020 then some (mailStatus x.busy x.res)
  else if off = 0x3000 then some (word x.evhead.toNat)
  else if off = 0x3008 then some (word x.evtail.toNat)
  else if 0x4000 ≤ off ∧ off < 0x5400 then let c := s.chain ((off - 0x4000) / 80); owned (chainPart c == p) chainShows c.w ((off - 0x4000) % 80 / 8)
  else if 0x6000 ≤ off ∧ off < 0x6800 then let g := s.group ((off - 0x6000) / 32); owned (bits (nth 0 g.w 0) 3 1 == p) groupShows g.w (off % 32 / 8)
  else if 0x7000 ≤ off ∧ off < 0x7800 then let w := s.family ((off - 0x7000) / 32); owned (hCtx w == x.ctx) familyShows w (off % 32 / 8)
  else if 0x8000 ≤ off ∧ off < 0xC000 then let w := s.table ((off - 0x8000) / 64); owned (hCtx w == x.ctx) tableShows w (off % 64 / 8)
  else none

/-- A register as the host reads it: VF `fn` below 8, the PF at 8, and the stream counters at 16 (log 52). What the spec gives no contents is left
free. -/
def State.hostReg (s : State) (fn off : Nat) : Option Word :=
  if off % 8 ≠ 0 then none
  else if fn < 8 then s.vfReg fn off
  else if fn = 8 then s.pfReg off
  else if 16 ≤ fn ∧ fn < 24 ∧ off < 512 then owned (chainPart (s.chain (off / 8)) == fn - 16) [allBits] [s.rowWord (off / 8)] 0
  else none

/-- The host reads a register: the answer goes out on the link. Until the boot has ended, only the PF answers (R445). -/
def State.hostRead (s : State) (fn off : Nat) : State :=
  if !s.boot.rdy && fn ≠ 8 then s
  else match s.hostReg fn off with
  | some v => s.tell 6 (natBytes 8 v.toNat)
  | none => s.fresh.2.tell 6 (natBytes 8 s.fresh.1.toNat)

end Sys2Proof.Machine
end

