-- ==== Sys2Proof/Machine/Jointer.lean ====
section
/-! DEFINITION. Jointers: lines, the output line, tiles and the jointer words (spec/15_jointers.md R352 to R360). -/

namespace Sys2Proof.Machine

/-! ### The chain entry (R352) -/

def Chain.f (x : Chain) (i hi lo : Nat) : Nat := bits (nth 0 x.w i) hi lo
def Chain.src (x : Chain) : Nat := x.f 0 1 1
def Chain.port (x : Chain) : Nat := x.f 0 6 2
def Chain.vc (x : Chain) : Nat := x.f 0 10 7
def Chain.dt (x : Chain) : Nat := x.f 0 16 11
def Chain.rule (x : Chain) : Nat := x.f 0 18 17
def Chain.lnum (x : Chain) : Bool := bit (nth 0 x.w 0) 19
def Chain.width (x : Chain) : Nat := x.f 1 15 0
def Chain.height (x : Chain) : Nat := x.f 1 31 16
def Chain.otid (x : Chain) : Nat := x.f 1 47 32
def Chain.htid (x : Chain) : Nat := x.f 1 63 48
def Chain.lto (x : Chain) : Nat := x.f 2 31 0
def Chain.udpPort (x : Chain) : Nat := x.f 2 47 32
def Chain.fper (x : Chain) : Nat := x.f 3 31 0
def Chain.win (x : Chain) (p : Nat) : Nat := x.f (4 + p) 6 3
def Chain.ofmt (x : Chain) (p : Nat) : Nat := x.f (4 + p) 12 7
def Chain.owidth (x : Chain) (p : Nat) : Nat := x.f (4 + p) 28 13
def Chain.budget (x : Chain) (p : Nat) : Nat := x.f (4 + p) 44 29
def Chain.jnum (x : Chain) (p : Nat) : Nat := x.f (4 + p) 51 45
/-- Number of jointers, d. -/
def Chain.d (x : Chain) : Nat := x.f 0 22 20

/-- Format and width of the lines that reach position `p`: RAW types are w16, YUV422 8-bit and lidar payloads w8 (R349, R350). -/
def Chain.inFmt (x : Chain) (p : Nat) : Nat :=
  if p = 0 then (if x.src = 0 && x.dt ≠ 0x1E then 0x0B else 0x0A) else x.ofmt (p - 1)
def Chain.inWidth (x : Chain) (p : Nat) : Nat := if p = 0 then x.width else x.owidth (p - 1)

def State.modJtr (s : State) (c p : Nat) (f : Jointer → Jointer) : State := s.setJtr c p (f (s.jtr c p))

/-! ### The line buffer (R354) -/

/-- Slots in use: untaken lines that are not dropped, and returned lines inside the read window. -/
def Jointer.used (j : Jointer) : Nat := (j.ring.filter fun l => !l.drop && !l.eof).length + j.kept.length

/-- An element list of exactly `n` elements, padded with zeros or cut. -/
def fit (n : Nat) (l : List Nat) : List Nat := l.take n ++ List.replicate (n - l.length) 0

/-- The rule by which position 0 substitutes a line: 0 stands for REPEAT_PREV. -/
def ruleOf (r : Nat) : Nat := if r = 0 then 1 else r

/-- Contents of a line that position 0 delivers (R356). -/
def substitute (rule width : Nat) (prev : Option (List Nat)) (l : Line) : List Nat :=
  if l.bad || l.drop then
    match rule with
    | 1 => prev.getD (List.replicate width 0)
    | 2 => List.replicate width 0
    | _ => fit width (if l.drop then [] else l.elems)
  else fit width l.elems

/-! ### Line substitution as a decision point (R462, R463) -/

def lineChoice (l : Line) : Nat := l.frame.toNat + at_ l.num 32 + at_ (b2n l.bad) 48 + at_ (b2n l.drop) 49 + at_ (b2n l.lenBad) 50

def Line.odd (l : Line) : Bool := l.bad || l.drop || l.lenBad

/-- The job slot of an entry for line substitution: a stream belongs to no job, and the spec names none (log 44). -/
def lineSlot (c : Nat) : Nat := (Config.openValue 44 [c]).toNat % 256

/-- A line's place in its stream: the frame, then the line. -/
def linePlace (k : Nat) : Nat := k % 2 ^ 32 * 65536 + k / 2 ^ 32 % 65536

/-- The line as it is to be delivered, and the state after the decision: in a replay its status is that of the log, whatever its own, and a line
that the log does not name is clean. Where a line past the logged one comes the choice cannot be made, and where the log has no entry left the
replay mismatches: the line stays, in the state given (R463). -/
def State.lineStatus (s : State) (c : Nat) (l : Line) : Except State (Line × State) :=
  let p := chainPart (s.chain c)
  match s.logSays p 2 c with
  | .free => .ok (l, if l.odd then s.decided p 2 c (lineSlot c) (lineChoice l) else s)
  | .must k i =>
    if linePlace k = linePlace (lineChoice l) then
      .ok ({ l with bad := k.testBit 48, drop := k.testBit 49, lenBad := k.testBit 50 }, s.logTake p i)
    else if linePlace k < linePlace (lineChoice l) then .error (s.logStuck p 2 c (lineSlot c))
    else .ok ({ l with bad := false, drop := false, lenBad := false }, s)
  | .mismatch => if l.odd then .error (s.freeze p (lineSlot c)) else .ok (l, s)

/-! ### Tiles (R359, R360) -/

/-- Write bytes of a slot's header. -/
def putHeader (c slot i : Nat) (l : List Byte) (s : State) : Except Stop State := do
  let x := s.chainCtx c
  let v ← s.viewOf x (s.chain c).htid 0 false 0 0
  let es := (List.range l.length).map fun k => [slot, i + k]
  guardE (es.all fun e => v.inside (e.map Int.ofNat)) (v.outside 2 (slot * 512 + i))
  let ps ← s.placeElems x v 2 true 0x08 es
  return s.writeElems x v ((es.zip (ps.zip l)).map fun (e, p, b) => (e, p, b.toNat))

/-- A header byte as it stands. -/
def getHeader (c slot i : Nat) (s : State) : Except Stop Nat := do
  let x := s.chainCtx c
  let v ← s.viewOf x (s.chain c).htid 0 false 0 0
  let r ← s.readElem x v 2 0x08 [slot, i]
  return r.1

def State.tileView (s : State) (c : Nat) : Except Stop View := s.viewOf (s.chainCtx c) (s.chain c).otid 0 false 0 0

/-- Height and width of a tile. -/
def tileShape (v : View) : Nat × Nat := (nth 0 v.ext 1, nth 0 v.ext 2)

/-- Write a row of a tile. -/
def putRow (c slot r : Nat) (out : List Nat) (s : State) : Except Stop State := do
  let x := s.chainCtx c
  let v ← s.tileView c
  let es := (List.range (tileShape v).2).map fun k => [slot, r, k]
  guardE (es.all fun e => v.inside (e.map Int.ofNat)) (v.outside 2 ((slot * (tileShape v).1 + r) * (tileShape v).2))
  let ps ← s.placeElems x v 2 true 0x08 es
  return s.writeElems x v ((es.zip (ps.zip (fit es.length out))).map fun (e, p, b) => (e, p, b))

/-- The layout's bytes of a slot's payload: where it starts and how many. -/
def slotPayload (v : View) (slot : Nat) : Nat × Nat :=
  let (h, w) := tileShape v
  (slot * eStride v.w 0, (h - 1) * eStride v.w 1 + (w * v.width + 7) / 8)

/-- The values of the rows written. -/
def tileNums (c slot rows : Nat) (v : View) (s : State) : Except Stop (List Num) :=
  ((List.range rows).flatMap fun r => (List.range (tileShape v).2).map fun k => [slot, r, k]).mapM fun e =>
    (s.readElem (s.chainCtx c) v 2 0x08 e).map fun x => decodeNum v.fmt x.1

/-- The trailer of a closed tile, in its header and after its payload. -/
def tileTrailer (c slot rows : Nat) (s : State) : Except Stop State := do
  let v ← s.tileView c
  if !eTrl v.w then return s
  else
    let x := s.chainCtx c
    let nums ← tileNums c slot rows v s
    let (o, n) := slotPayload v slot
    let (pay, s) ← s.readRun x v 2 0x08 o n
    let t := trailer (largestF32 nums) 0 ((tileShape v).1 * (tileShape v).2) v.fmt pay
    let s ← putHeader c slot 288 t s
    let l ← s.placeAll x v 2 true 0x08 (runSpans (o + next32 n) 32)
    return s.writeSpans x v.tid l t

/-- A reference row's line time in the tile's frame, where it has one yet. -/
def refTime (c row : Nat) (frame : BitVec 32) (s : State) : Option Word :=
  ((s.jtr c 0).times.find? fun e => e.1 = frame.toNat * 65536 + row).map fun e => e.2

/-- Close the open tile of the last position, which completes the groups that it was the last to satisfy (R397); a void tile writes nothing. -/
def closeTile (c p : Nat) (s : State) : Except Stop State := do
  let j := s.jtr c p
  let s := s.modJtr c p fun j => { j with topen := false }
  if j.void then return s
  else
    let slot := j.tslot.toNat
    let (time, late) : Word × Bool := match j.refrow with
      | none => (j.tgiven, false)
      | some r => match refTime c r j.tframe s with
        | some t => (t, false)
        | none => (s.clk.time, true)
    let s ← putHeader c slot 0 (natBytes 8 time.toNat) s
    let s ← putHeader c slot 16 (natBytes 2 j.trows.toNat) s
    let s ← putHeader c slot 24 (natBytes 2 j.subst) s
    let s ← tileTrailer c slot (min j.trows.toNat 2048) s
    let s ← putHeader c slot 20 (natBytes 1 (1 + 2 * b2n j.refrow.isNone + 4 * b2n late)) s
    return squaresClosed c s

/-! ### JWAIT (R358) -/

def Chain.isLast (x : Chain) (p : Nat) : Bool := p + 1 == x.d

/-- The end of this position's output frame: it reaches the next position, or closes the tile and completes the frame's counters (R391). -/
def endOfFrame (c p : Nat) (s : State) : Except Stop State := do
  let j := s.jtr c p
  let s ← if !(s.chain c).isLast p then
      .ok (s.modJtr c (p + 1) fun k => { k with ring := k.ring ++ [{ num := j.outn.toNat, frame := j.frame, eof := true }] })
    else do
      let s ← if j.topen then closeTile c p s else .ok s
      .ok (s.setRow c (s.rowWord c ||| 0x10000))
  return s.modJtr c p fun j => { j with outn := 0, eofs := false, prev := none, sentSof := false }

/-- Line budget: clocks of the 1.6 GHz clock outside JWAIT's wait since the last return. -/
def lineBudget (c p : Nat) (s : State) : State :=
  let j := s.jtr c p
  match j.spentFrom with
  | none => s
  | some t =>
    let s := s.setJtr c p { j with spentFrom := none }
    if (s.clock - t) / 2 ≤ (s.chain c).budget p then s
    else
      let s := if j.budgetTold then s else s.fmEvent 8 c
      s.modJtr c p fun j => { j with ovrcnt := j.ovrcnt + 1, budgetTold := true }

def lineStatusWord (l : Line) : Word :=
  word (l.num % 65536 + at_ (b2n l.sof) 16 + at_ (b2n l.bad) 18 + at_ (b2n l.drop) 19 + at_ (b2n l.lenBad) 20 + at_ l.frame.toNat 32)

/-- Take a line: at position 0 its contents are made now. -/
def takeLine (c p : Nat) (d : BitVec 5) (l : Line) (s : State) : State :=
  let x := s.chain c
  let j := s.jtr c p
  let j := { j with ring := j.ring.drop 1 }
  let j := if l.sof then { j with kept := [], inf := false, lastElems := none, t0 := l.time, budgetTold := false } else j
  let elems := if p = 0 then substitute (ruleOf x.rule) x.width j.lastElems l else l.elems
  let l := { l with elems := elems }
  let j := { j with
    cur := BitVec.ofNat 16 l.num, inf := true, frame := l.frame, lastElems := some elems
    kept := (j.kept ++ [l]).filter fun k => decide (k.num + x.win p > l.num)
    badcnt := j.badcnt + BitVec.ofNat 32 (b2n l.bad), dropcnt := j.dropcnt + BitVec.ofNat 32 (b2n l.drop), spentFrom := some s.clock }
  ((s.setJtr c p j).writeS d (lineStatusWord l)).retire

def takeEnd (c p : Nat) (d : BitVec 5) (l : Line) (s : State) : State :=
  let s := s.modJtr c p fun j => { j with ring := j.ring.drop 1, eofs := true, frame := l.frame, spentFrom := some s.clock }
  (s.writeS d (word (l.num % 65536 + at_ 1 17 + at_ l.frame.toNat 32))).retire

/-- The host has cleared EN: the jointer stops here, and the last position first closes its tile (R353). -/
def stopJointer (c p : Nat) (s : State) : Except Stop State := do
  let s ← if (s.jtr c p).topen then closeTile c p s else .ok s
  return s.modJtr c p fun j => { j with run := false }

def jwaitCore (c p : Nat) (d : BitVec 5) (s : State) : Except Stop State :=
  if !chainEn (s.chain c) then stopJointer c p s
  else do
    let s ← if (s.jtr c p).eofs then endOfFrame c p s else .ok s
    let s := lineBudget c p s
    match (s.jtr c p).ring with
    | [] => return s
    | l :: _ =>
      if l.eof then return takeEnd c p d l s
      else if p ≠ 0 then return takeLine c p d l s
      else match s.lineStatus c l with
        | .ok (l, s) => return takeLine c p d l s
        | .error s => return s

/-- JWAIT (R358). -/
def execJwait (d : BitVec 5) (s : State) : Host.Outcome State Fault Refusal := s.onJointer fun c p => jwaitCore c p d s

/-! ### JLINE, JEMIT, JROW, JSUB -/

/-- The first column of the lanes. -/
def lineBase (a : BitVec 5) (im : BitVec 15) (s : State) : Nat := bits (s.readS a) 31 0 + im.toNat

def jlineCore (c p : Nat) (v : BitVec 4) (a : BitVec 5) (im : BitVec 15) (s : State) : Except Stop State := do
  let x := s.chain c
  let j := s.jtr c p
  guardE (s.vty == x.inFmt p) (trapC 0x3D)
  let n := bits (s.readS a) 47 32
  guardE (j.inf && decide (j.cur.toNat + 1 ≤ n + x.win p) && decide (n ≤ j.cur.toNat)) (trapC 0x54)
  match j.kept.find? fun l => l.num = n with
  | none => .error (trapC 0x54)
  | some l =>
    let w := fmtWidth s.vty
    let base := lineBase a im s
    let lanes := (List.range (lanesOf w)).map fun i => if base + i < x.inWidth p then lgMask s.vty (nth 0 l.elems (base + i)) else 0
    let s := if l.bad || l.drop then s.setJtr c p { j with inv := true } else s
    return (s.writeLanes v.toNat w lanes).retire

/-- JLINE (R358). -/
def execJline (v : BitVec 4) (a : BitVec 5) (im : BitVec 15) (s : State) : Host.Outcome State Fault Refusal :=
  s.onJointer fun c p => jlineCore c p v a im s

def jemitCore (c p : Nat) (v : BitVec 4) (a : BitVec 5) (im : BitVec 15) (s : State) : Except Stop State := do
  let x := s.chain c
  guardE (s.vty == x.ofmt p) (trapC 0x3D)
  let w := fmtWidth s.vty
  let base := lineBase a im s
  let l := s.lanes v.toNat w
  let out := fit (x.owidth p) (s.jtr c p).out
  let out := (List.range (x.owidth p)).map fun k => if base ≤ k ∧ k < base + lanesOf w then nth 0 l (k - base) else nth 0 out k
  return (s.modJtr c p fun j => { j with out := out }).retire

/-- JEMIT (R358). -/
def execJemit (v : BitVec 4) (a : BitVec 5) (im : BitVec 15) (s : State) : Host.Outcome State Fault Refusal :=
  s.onJointer fun c p => jemitCore c p v a im s

/-- The output line as JROW delivers it. -/
def rowOut (width : Nat) (j : Jointer) : List Nat :=
  match j.sub.toNat with
  | 1 => j.prev.getD (List.replicate width 0)
  | 2 => List.replicate width 0
  | _ => fit width j.out

/-- Line time of line CUR. -/
def Jointer.curLine (j : Jointer) : Line := (j.kept.getLast?).getD {}

/-- The row reaches the next position. -/
def rowDown (c p : Nat) (out : List Nat) (s : State) : Except Stop State := do
  let x := s.chain c
  let j := s.jtr c p
  guardE (decide ((s.jtr c (p + 1)).used < x.win (p + 1) + 2)) .wait
  let l : Line := { num := j.outn.toNat, frame := j.frame, sof := !j.sentSof, bad := j.inv, time := j.curLine.time, fmt := x.ofmt p
                    recv := out.length, elems := out }
  return (s.modJtr c (p + 1) fun k => { k with ring := k.ring ++ [l] }).modJtr c p fun j => { j with sentSof := true }

/-- The last position: the row and its validity, the close of a full tile, then the counters. -/
def rowTile (c p : Nat) (out : List Nat) (s : State) : Except Stop State := do
  let j := s.jtr c p
  guardE (j.outn != 65535) (trapC 0x56)
  guardE j.topen (trapC 0x3E)
  if j.void then return s.modJtr c p fun j => { j with trows := j.trows + 1 }
  else
    let slot := j.tslot.toNat
    let r := j.trows.toNat
    let s ← putRow c slot r out s
    let old ← getHeader c slot (32 + r / 8) s
    let s ← putHeader c slot (32 + r / 8) [BitVec.ofNat 8 (old - b2n (old.testBit (r % 8)) * 2 ^ (r % 8) + b2n (!j.inv) * 2 ^ (r % 8))] s
    let s := s.modJtr c p fun j => { j with trows := j.trows + 1, subst := j.subst + b2n j.inv }
    let v ← s.tileView c
    let s ← if r + 1 = (tileShape v).1 then closeTile c p s else .ok s
    return s.setRow c (mkRow j.frame.toNat (j.outn.toNat + 1) false)

def jrowCore (c p : Nat) (s : State) : Except Stop State := do
  let x := s.chain c
  let out := rowOut (x.owidth p) (s.jtr c p)
  let s ← if x.isLast p then rowTile c p out s else rowDown c p out s
  return (s.modJtr c p fun j => { j with outn := j.outn + 1, inv := false, sub := 0, prev := some out, out := [] }).retire

/-- JROW (R358). -/
def execJrow (s : State) : Host.Outcome State Fault Refusal := s.onJointer fun c p => jrowCore c p s

def jsubCore (c p : Nat) (r : BitVec 2) (s : State) : State :=
  let rule := if r = 0 then ruleOf (s.chain c).rule else r.toNat
  (s.modJtr c p fun j => { j with inv := true, sub := BitVec.ofNat 2 rule }).retire

/-- JSUB (R358). -/
def execJsub (r : BitVec 2) (s : State) : Host.Outcome State Fault Refusal := s.onJointer fun c p => .ok (jsubCore c p r s)

/-! ### JSTAT and JTILE -/

/-- A selector's value. Before a line has been returned, selectors 0, 1, 2 and 7 have no stated value: it is left free (log 30). -/
def jstatValue (c p n : Nat) (s : State) : Word :=
  let j := s.jtr c p
  let line (v : Word) : Word := if j.inf then v else Config.openValue 30 [n]
  match n with
  | 0 => line j.curLine.time
  | 1 => line j.t0
  | 2 => line (word j.frame.toNat)
  | 3 => word j.badcnt.toNat
  | 4 => word j.dropcnt.toNat
  | 5 => word (s.jtr c 0).latecnt.toNat
  | 6 => word j.ovrcnt.toNat
  | 7 => line (word j.curLine.recv)
  | _ => word j.voidcnt.toNat

def jstatCore (c p : Nat) (d : BitVec 5) (n : BitVec 4) (s : State) : Except Stop State := do
  guardE (decide (n.toNat ≤ 8)) (trapC 0x02)
  return (s.writeS d (jstatValue c p n.toNat s)).retire

/-- JSTAT (R358). -/
def execJstat (d : BitVec 5) (n : BitVec 4) (s : State) : Host.Outcome State Fault Refusal := s.onJointer fun c p => jstatCore c p d n s

/-- The first slot, in ring order from `f`, that nothing holds (R396). -/
def freeSlot (c ring f : Nat) (s : State) : Option Nat :=
  ((List.range ring).map fun k => (f + k) % ring).find? fun k => Tab.get 0 s.holds (c * 8 + k) == 0

/-- SENSOR of the header (R359). -/
def Chain.sensor (x : Chain) : Nat := x.port + at_ x.src 5 + at_ x.vc 6

/-- Open a tile. FRAME before the first line has no stated value (log 30). -/
def openTile (c p : Nat) (ref : Option Nat) (given : Word) (s : State) : Except Stop State := do
  let x := s.chain c
  let j := s.jtr c p
  let f := if j.opened then (j.tslot.toNat + 1) % chainRing x else 0
  let s := s.setJtr c p { j with topen := true, trows := 0, subst := 0, opened := true, refrow := ref, tgiven := given, tframe := j.frame }
  match freeSlot c (chainRing x) f s with
  | none => return s.modJtr c p fun j => { j with void := true, voidcnt := j.voidcnt + 1 }
  | some k =>
    let s := s.modJtr c p fun j => { j with tslot := BitVec.ofNat 3 k, void := false }
    let s ← putHeader c k 0 (List.replicate 512 0) s
    let fr := if j.inf then j.frame.toNat else (Config.openValue 30 [2]).toNat
    let s ← putHeader c k 8 (natBytes 2 x.sensor ++ natBytes 2 c ++ natBytes 4 fr) s
    putHeader c k 18 (natBytes 2 (ref.getD 0xFFFF)) s

def jtileCore (c p : Nat) (a : BitVec 5) (s : State) : Except Stop State := do
  let x := s.chain c
  let v := s.readS a
  guardE (x.isLast p) (trapC 0x05)
  let given := bit v 63
  guardE (given || (bits v 62 16 == 0 && decide (bits v 15 0 < x.height))) (trapC 0x3E)
  let s ← if (s.jtr c p).topen then closeTile c p s else .ok s
  let s ← if given then openTile c p none (word (bits v 62 0)) s else openTile c p (some (bits v 15 0)) 0 s
  return s.retire

/-- JTILE (R358). -/
def execJtile (a : BitVec 5) (s : State) : Host.Outcome State Fault Refusal := s.onJointer fun c p => jtileCore c p a s

end Sys2Proof.Machine
end

