-- ==== Sys2Proof/Machine/Sensor.lean ====
section
/-! DEFINITION. Sensor links: camera packets, lidar frames, the lines and frames they make, and the discipline of device time
(spec/15_jointers.md R349 to R356, spec/18_counters.md R388, R389). -/

namespace Sys2Proof.Machine

def State.modChain (s : State) (c : Nat) (f : Chain → Chain) : State := s.setChain c (f (s.chain c))

/-! ### Lines and frames of position 0 (R354 to R356) -/

/-- The frame that is open: frame starts count from 0 at enable. -/
def Chain.frame (x : Chain) : BitVec 32 := x.frames - 1

/-- A line, which ended at device time `ended`, enters position 0: one line may wait in the port, and another one that finds no free slot is dropped. -/
def pushLine (c : Nat) (l : Line) (ended : Word) (s : State) : State :=
  let j := s.jtr c 0
  let l := if !l.drop && decide (j.used ≥ (s.chain c).win 0 + 3) then { l with drop := true, bad := false, lenBad := false, recv := 0, elems := [] } else l
  let s := s.setJtr c 0 { j with ring := j.ring ++ [l], times := Tab.put j.times (l.frame.toNat * 65536 + l.num) l.time }
  s.modChain c fun x => { x with next := l.num + 1, lastEnd := ended }

def State.newLine (s : State) (c : Nat) : Line :=
  let x := s.chain c
  { num := x.next, frame := x.frame, sof := x.next == 0, time := s.clk.time, fmt := x.inFmt 0 }

/-- The next line is declared dropped at device time `t`. -/
def dropAt (c : Nat) (t : Word) (s : State) : State := pushLine c { s.newLine c with drop := true, time := t } t s

/-- No long packet has begun within LTO of the end of the line before, or of the frame start (R355). -/
def Chain.timedOut (x : Chain) (now : Word) : Bool :=
  chainEn x && x.src == 0 && !x.lnum && x.lto != 0 && x.inFrame && decide (x.next < x.height) && decide (now.toNat ≥ x.lastEnd.toNat + x.lto)

/-- Every line whose LTO has passed is declared dropped, at the moment at which it passed. -/
def lineTimeouts (c : Nat) : Nat → State → State
  | 0, s => s
  | k + 1, s =>
    let x := s.chain c
    if x.timedOut s.clk.time then lineTimeouts c k (dropAt c (x.lastEnd + word x.lto) s) else s

/-- At most the lines of the frame. -/
def settleLines (c : Nat) (s : State) : State := lineTimeouts c ((s.chain c).height - (s.chain c).next) s

/-- Declare lines dropped at device time `t` until line `n` is the next. -/
def dropUntil (c n : Nat) (t : Word) : Nat → State → State
  | 0, s => s
  | k + 1, s => if (s.chain c).next < n then dropUntil c n t k (dropAt c t s) else s

def dropTo (c n : Nat) (t : Word) (s : State) : State := dropUntil c n t (n - (s.chain c).next) s

/-- The frame ends at device time `t`: the lines that have not come are dropped. -/
def frameEnd (c : Nat) (t : Word) (s : State) : State :=
  if !(s.chain c).inFrame then s
  else
    let s := settleLines c s
    let s := dropTo c (s.chain c).height t s
    let x := s.chain c
    let s := s.modJtr c 0 fun j => { j with ring := j.ring ++ [{ num := x.next, frame := x.frame, eof := true }] }
    s.modChain c fun x => { x with inFrame := false, lineStart := none }

/-- Line times are kept for the frames that a tile may still be open in. -/
def keepTimes (last frame : BitVec 32) (l : Tab Word) : Tab Word :=
  l.filter fun e => decide ((frame - BitVec.ofNat 32 (e.1 / 65536)).toNat ≤ (frame - last).toNat)

/-- The last position's current frame. -/
def State.tileFrame (s : State) (c : Nat) : BitVec 32 := (s.jtr c ((s.chain c).d - 1)).frame

/-- A frame starts at device time `t`, and one that is open ends. -/
def frameStart (c : Nat) (t : Word) (s : State) : State :=
  let s := frameEnd c t s
  let last := s.tileFrame c
  let s := s.modChain c fun x => { x with inFrame := true, next := 0, lineStart := none, frames := x.frames + 1, lastEnd := t }
  s.modJtr c 0 fun j => { j with times := keepTimes last (s.chain c).frame j.times }

def lateLine (c : Nat) (s : State) : State := s.modJtr c 0 fun j => { j with latecnt := j.latecnt + 1 }

/-- A payload makes a line: it is the line that the last line-start packet numbers, with LNUM, and the next one otherwise. How long its
packet lasts, to the last byte of its footer, is left free (log 103). -/
def takePayload (c : Nat) (elems : List Nat) (bad lost : Bool) (s : State) : State :=
  let s := settleLines c s
  let (v, s) := s.fresh
  let x := s.chain c
  let ended := s.clk.time + word (v.toNat % 2 ^ 32)
  let n := if x.lnum && x.src == 0 then match x.lineStart with | some (n, _) => n | none => x.next else x.next
  if !x.inFrame || decide (x.next ≥ x.height) then lateLine c s
  else if n < x.next || n ≥ x.height then lateLine c (dropTo c (min n x.height) s.clk.time s)
  else
    let time := match x.lineStart with | some (_, t) => t | none => s.clk.time
    let s := dropTo c n s.clk.time s
    let l := s.newLine c
    if lost then pushLine c { l with drop := true, time := time } ended s
    else pushLine c { l with bad := bad, lenBad := elems.length != x.width, time := time, recv := elems.length, elems := elems } ended s

/-- A payload reaches the stream, and its line-start packet has been used. -/
def payload (c : Nat) (elems : List Nat) (bad lost : Bool) (s : State) : State :=
  (takePayload c elems bad lost s).modChain c fun x => { x with lineStart := none }

/-! ### Camera packets (R349) -/

/-- Enabled camera chains of a port and virtual channel. -/
def State.cameras (s : State) (port vc : Nat) : List Nat :=
  (s.chains.filter fun (_, x) => chainEn x && x.src == 0 && x.port == port && x.vc == vc).map fun e => e.1

def forChains (l : List Nat) (f : Nat → State → State) (s : State) : State := l.foldl (fun s c => f c s) s

def State.countDiscard (s : State) (p : Nat) : State := s.setPort p { s.port p with discard := (s.port p).discard + 1 }
def State.countCrc (s : State) (p : Nat) : State := s.setPort p { s.port p with crc := (s.port p).crc + 1 }

/-- CSI2_FRAME_START (R355). -/
def execCsi2FrameStart (port vc : Nat) (s : State) : Host.Outcome State Fault Refusal := .next (forChains (s.cameras port vc) (fun c => frameStart c s.clk.time) s)

/-- CSI2_FRAME_END (R355). -/
def execCsi2FrameEnd (port vc : Nat) (s : State) : Host.Outcome State Fault Refusal := .next (forChains (s.cameras port vc) (fun c => frameEnd c s.clk.time) s)

/-- A line-start packet: with LNUM its number skips the lines before it. -/
def lineStart (num c : Nat) (s : State) : State :=
  let x := s.chain c
  if !x.inFrame then s
  else
    let s := if x.lnum then dropTo c (min num x.height) s.clk.time s else s
    s.modChain c fun x => { x with lineStart := some (num, s.clk.time) }

/-- CSI2_LINE_START (R355). -/
def execCsi2LineStart (port vc num : Nat) (s : State) : Host.Outcome State Fault Refusal :=
  .next (forChains (s.cameras port vc) (lineStart num) s)

/-- CSI2_LINE_END (R349): checked and otherwise ignored. -/
def execCsi2LineEnd (_port _vc : Nat) (s : State) : Host.Outcome State Fault Refusal := .next s

/-- CSI2_UNSUPPORTED_PACKET (R349): discarded and counted. -/
def execCsi2UnsupportedPacket (port _vc : Nat) (s : State) : Host.Outcome State Fault Refusal := .next (s.countDiscard port)

/-- Pixels of the CSI-2 packings: RAW10, RAW12 and RAW14 carry the high bits of a group's pixels first, then the low bits; RAW16 carries the
high byte first. PRESUMED from MIPI CSI-2 (log 31). -/
def unpackRaw (dt : Nat) : Nat → List Nat → List Nat
  | 0, _ => []
  | k + 1, l =>
    match dt, l with
    | 0x2B, a :: b :: c :: d :: e :: t =>
      [a * 4 + e % 4, b * 4 + e / 4 % 4, c * 4 + e / 16 % 4, d * 4 + e / 64] ++ unpackRaw dt k t
    | 0x2C, a :: b :: c :: t => [a * 16 + c % 16, b * 16 + c / 16] ++ unpackRaw dt k t
    | 0x2D, a :: b :: c :: d :: x :: y :: z :: t =>
      [a * 64 + x % 64, b * 64 + (x / 64 + y % 16 * 4), c * 64 + (y / 16 + z % 4 * 16), d * 64 + z / 4] ++ unpackRaw dt k t
    | 0x2E, a :: b :: t => (a * 256 + b) :: unpackRaw dt k t
    | _, _ => []

/-- Elements of a long packet: w16 for the RAW types, and the bytes as received for YUV422 8-bit. -/
def unpackPacket (dt : Nat) (l : List Byte) : List Nat :=
  let n := l.map fun b => b.toNat
  if dt = 0x1E then n else unpackRaw dt l.length n

def cameraTypes : List Nat := [0x2B, 0x2C, 0x2D, 0x2E, 0x1E]

/-- A long packet, with the virtual channel and data type with which it was sent. One with an uncorrectable header is discarded, and its line
counts as dropped (R356). -/
def longPacket (port vc dt : Nat) (bytes : List Byte) (crcOk hdrOk : Bool) (s : State) : State :=
  let ks := (s.cameras port vc).filter fun c => (s.chain c).dt == dt
  if !hdrOk then forChains ks (fun c => payload c [] false true) (s.countDiscard port)
  else if !cameraTypes.contains dt then s.countDiscard port
  else
    let s := if crcOk then s else s.countCrc port
    forChains ks (fun c => payload c (unpackPacket dt bytes) (!crcOk) false) s

/-- CSI2_LONG_PACKET (R356). -/
def execCsi2LongPacket (port vc dt : Nat) (bytes : List (BitVec 8)) (crcOk hdrOk : Bool) (s : State) : Host.Outcome State Fault Refusal :=
  .next (longPacket port vc dt bytes crcOk hdrOk s)

def lineTimeout (c : Nat) (s : State) : State := lineTimeouts c 1 s

/-- LINE_TIMEOUT (R355). -/
def execLineTimeout (chain : Nat) (s : State) : Host.Outcome State Fault Refusal := .next (lineTimeout chain s)

/-! ### Lidar frames (R350, R355) -/

/-- A number from bytes in network order. -/
def netNat (l : List Byte) : Nat := l.foldl (fun a b => a * 256 + b.toNat) 0

def net (l : List Byte) (i n : Nat) : Nat := netNat ((l.drop i).take n)

/-- One's complement sum of 16-bit words. -/
def netSum : Nat → List Byte → Nat
  | 0, _ => 0
  | _, [] => 0
  | _, [a] => a.toNat * 256
  | k + 1, a :: b :: t => a.toNat * 256 + b.toNat + netSum k t

def foldSum (n : Nat) : Nat :=
  let a := n % 65536 + n / 65536
  a % 65536 + a / 65536

/-- A checksum over bytes that include it is right. -/
def sumOk (l : List Byte) : Bool := foldSum (foldSum (netSum l.length l)) == 0xFFFF

/-- A UDP datagram: port, payload and whether its checksum is good. -/
structure Udp where
  port : Nat
  data : List Byte
  good : Bool
deriving DecidableEq, Repr

def parseUdp (pseudo : List Byte) (l : List Byte) : Option Udp :=
  let n := net l 4 2
  if l.length < 8 || n < 8 || n > l.length then none
  else some ⟨net l 2 2, (l.drop 8).take (n - 8), net l 6 2 == 0 || sumOk (pseudo ++ natBytes 1 (n / 256) ++ natBytes 1 n ++ l.take n)⟩

/-- An IPv4 datagram with a correct header checksum, or an IPv6 datagram without extension headers, unfragmented, carrying UDP. -/
def parseIp (ty : Nat) (l : List Byte) : Option Udp :=
  if ty = 0x0800 then
    let h := net l 0 1 % 16 * 4
    let n := net l 2 2
    if net l 0 1 / 16 ≠ 4 || h < 20 || n < h || n > l.length || !sumOk (l.take h) || net l 6 2 % 0x4000 ≠ 0 || net l 9 1 ≠ 17 then none
    else parseUdp ((l.drop 12).take 8 ++ [0, 17]) ((l.take n).drop h)
  else if ty = 0x86DD then
    let n := net l 4 2
    if net l 0 1 / 16 ≠ 6 || net l 6 1 ≠ 17 || n + 40 > l.length then none
    else parseUdp ((l.drop 8).take 32 ++ [0, 17]) ((l.drop 40).take n)
  else none

/-- EtherType and contents of a frame, past one 802.1Q tag at most. -/
def parseEther (l : List Byte) : Nat × List Byte :=
  if net l 12 2 = 0x8100 then (net l 16 2, l.drop 18) else (net l 12 2, l.drop 14)

/-- Enabled lidar chains of a port and UDP port. -/
def State.lidars (s : State) (port udp : Nat) : List Nat :=
  (s.chains.filter fun (_, x) => chainEn x && x.src == 1 && x.port == port && x.udpPort == udp).map fun e => e.1

/-- The frame period that device time stands in. -/
def periodOf (x : Chain) (s : State) : Nat := if x.fper = 0 then 0 else s.clk.time.toNat / (x.fper * 1000)

/-- The partition that names the time port, and that port (R351, R446). -/
def State.timePort (s : State) : Option Nat :=
  (s.parts.find? fun (_, x) => x.up && bit (x.w 10) 3).map fun (_, x) => bits (x.w 10) 2 0

/-- The bytes of a port's MAC address, in the order of the wire. -/
def macBytes (port : Nat) : List Byte := (natBytes 6 (Config.portMac port).toNat).reverse

/-- An Ethernet frame, without its frame check sequence of four bytes. -/
def lidarFrame (port : Nat) (l : List Byte) (fcsOk : Bool) (s : State) : State :=
  let no := s.countDiscard (24 + port)
  let (ty, ip) := parseEther l
  if !fcsOk then no.countCrc (24 + port)
  else if ty = 0x88F7 && s.timePort = some port then s
  else if l.length + 4 > 1522 || l.take 6 ≠ macBytes port then no
  else match parseIp ty ip with
    | none => no
    | some u =>
      match s.lidars port u.port with
      | [] => no
      | cs =>
        -- a frame that begins at this time starts first
        if cs.any fun c => (s.chain c).period < periodOf (s.chain c) s then s
        else forChains cs (fun c => payload c (u.data.map fun b => b.toNat) (!u.good) false) s

/-- LIDAR_FRAME (R350). -/
def execLidarFrame (port : Nat) (frame : List (BitVec 8)) (fcsOk : Bool) (s : State) : Host.Outcome State Fault Refusal :=
  .next (lidarFrame port frame fcsOk s)

/-- Device time has reached the next multiple of FPER: at that time one frame ends and the next starts. -/
def lidarPeriod (c : Nat) (s : State) : State :=
  let x := s.chain c
  if chainEn x && x.src == 1 && decide (x.period < periodOf x s) then
    (frameStart c (word ((x.period + 1) * (x.fper * 1000))) s).modChain c fun x => { x with period := x.period + 1 }
  else s

/-- LIDAR_FRAME_PERIOD (R355). -/
def execLidarFramePeriod (chain : Nat) (s : State) : Host.Outcome State Fault Refusal := .next (lidarPeriod chain s)

/-! ### Device time (R351, R389) -/

/-- GPTP_ANNOUNCE (R351): the grandmaster of the time port. -/
def execGptpAnnounce (port gm : Nat) (s : State) : Host.Outcome State Fault Refusal :=
  .next (if s.timePort = some port then { s with clk := { s.clk with gm := some gm } } else s)

def saturate32 (x : Int) : BitVec 32 :=
  BitVec.ofInt 32 (if x > 2147483647 then 2147483647 else if x < -2147483648 then -2147483648 else x)

/-- The trim of the rate that the device takes at a Sync, in parts per million: which one the spec does not say (log 96). -/
def trimOf (v : Word) : Int := (v.toNat % 401 : Nat) - 200

/-- An accepted Sync measures the offset, device minus grandmaster. The first one steps a time that is behind; every other correction is
slewed. LOCK stands while the offset is within 1 µs. From the first lock on the rate is trimmed. -/
def Clock.discipline (c : Clock) (offset : Int) (v : Word) : Clock :=
  let step := !c.synced && !c.first && decide (offset < 0)
  let c := { c with offs := saturate32 offset, hold := false, synced := true, sync := none }
  let c := if step then { c with time := c.time + BitVec.ofInt 64 (-offset), slew := 0 } else { c with slew := -offset }
  let lock := step || (decide (offset ≤ 1000) && decide (-1000 ≤ offset))
  { c with lock := lock, first := c.first || lock, lastSync := c.time, rate := if c.first || lock then trimOf v else 0 }

/-- The offset of a Sync that arrived at device time `t` and carries the grandmaster's time `stamp` of its departure. -/
def syncOffset (c : Clock) (t : Word) (stamp : Int) : Int := (t.toNat : Int) - (stamp + c.pdelay)

/-- A Sync that arrived at device time `t` is accepted. -/
def State.acceptSync (s : State) (t : Word) (stamp : Int) : State :=
  let (v, s) := s.fresh
  { s with clk := s.clk.discipline (syncOffset s.clk t stamp) v }

def gptpSync (port : Nat) (twoStep : Bool) (stamp : Int) (s : State) : State :=
  if s.timePort ≠ some port then s
  else if twoStep then { s with clk := { s.clk with sync := some s.clk.time } }
  else s.acceptSync s.clk.time stamp

/-- GPTP_SYNC (R389): a one-step Sync, or the arrival of a two-step Sync. -/
def execGptpSync (port : Nat) (twoStep : Bool) (stamp : Int) (s : State) : Host.Outcome State Fault Refusal :=
  .next (gptpSync port twoStep stamp s)

def gptpFollowUp (port : Nat) (stamp : Int) (s : State) : State :=
  if s.timePort ≠ some port then s
  else match s.clk.sync with
    | some t => s.acceptSync t stamp
    | none => s

/-- GPTP_FOLLOW_UP (R389). -/
def execGptpFollowUp (port : Nat) (stamp : Int) (s : State) : Host.Outcome State Fault Refusal := .next (gptpFollowUp port stamp s)

/-- PDELAY_REQUEST (R351): the device answers with the time of arrival. -/
def execPdelayRequest (port req : Nat) (s : State) : Host.Outcome State Fault Refusal :=
  .next (if s.timePort = some port then s.tell 1 (natBytes 8 req ++ natBytes 8 s.clk.time.toNat) else s)

/-- PDELAY_ORIGINATE (R351). -/
def execPdelayOriginate (port : Nat) (s : State) : Host.Outcome State Fault Refusal :=
  .next (if s.timePort = some port then { s.tell 2 (natBytes 8 s.clk.time.toNat) with clk := { s.clk with pdelayReq := true } } else s)

/-- PDELAY_RESPONSE (R351): the measured delay of the link. -/
def execPdelayResponse (port delay : Nat) (s : State) : Host.Outcome State Fault Refusal :=
  .next (if s.timePort = some port && s.clk.pdelayReq then { s with clk := { s.clk with pdelay := delay, pdelayReq := false } } else s)

/-- Holdover, after FIRST alone: the last trimmed rate is kept. -/
def Clock.holdover (c : Clock) : Clock := if c.first then { c with lock := false, hold := true, slew := 0 } else c

/-- SYNC_LOSS (R389): three Sync intervals have passed without an accepted Sync. -/
def execSyncLoss (s : State) : Host.Outcome State Fault Refusal :=
  .next (if decide (s.clk.time.toNat ≥ s.clk.lastSync.toNat + 3 * Config.syncInterval.toNat) then { s with clk := s.clk.holdover } else s)

end Sys2Proof.Machine
end

