-- ==== Sys2Proof/Machine/Host.lean ====
section
/-! DEFINITION. The host port: bring-up, partition set-up, register writes, doorbells and the partition mailbox (spec/24_host_boot.md R442 to
R450, spec/15_jointers.md R352, R353, spec/17_hash_tables.md R374). -/

namespace Sys2Proof.Machine

/-! ### Boot (R445, R372) -/

/-- The fuses' list of a unit. -/
def fuseList (k : Nat) (f : Nat → Nat → BitVec 11) (u : Nat) : Vector (BitVec 11) k := Vector.ofFn fun i => f u i

def fused {α : Type} (n : Nat) (f : Nat → α) : Tab α := (List.range n).map fun i => (i, f i)

/-- The remap tables as the defect fuses give them. A physical jointer below 96 that no logical one names is retired (log 53). -/
def fuseTables : Remap :=
  let used := (List.range 96).map fun i => (Config.fuseJointer i).toNat
  { retired := ((List.range 96).filter fun k => !used.contains k).map fun k => (1, k)
    bayskip := fused 8 Config.fuseBay, bankskip := fused 64 (fuseList 8 Config.fuseBanks), colskip := fused 8 (fuseList 16 Config.fuseColumns)
    rowskip := fused 8 (fuseList 32 Config.fuseRows), slicemap := fused 32 Config.fuseSlice, jointmap := fused 96 Config.fuseJointer, lathdef := Config.fuseLaths }

/-- What outlasts a reset: the flash, the fuses, the wear record, and memory outside the device. -/
def powerOn (s : State) : State :=
  let f := s.foreman
  { State.reset with
    agenda := s.agenda, tick := s.tick, mem := s.mem.filter fun c => decide (c.1 ≥ hostAddr 0)
    remap := { s.remap with copying := [], tested := [], failing := [], idleAt := [], defsig := 0 }
    foreman := { slots := f.slots, svn := f.svn, fmNext := f.fmNext, frNext := f.frNext } }

/-- The boot stops: the step last completed, and ERR. -/
def bootFails (stage err : Nat) (s : State) : State := { s with boot := { stage := BitVec.ofNat 4 stage, err := BitVec.ofNat 8 err } }

/-- The remap tables and the signature load: from the fuses at the first boot, and from the wear record later. -/
def loadRemap (s : State) : State :=
  let r := if s.remap.slicemap.isEmpty then fuseTables else s.remap
  { s with remap := { r with defsig := signatureOf r.lathdef } }

/-- Steps 4 to 6: a unit that has no spare stops the boot at step 4, and a Framer image that fails a check, or `err`, at step 5. -/
def bootOn (err : Option Nat) (s : State) : State :=
  if s.remap.spent then bootFails 3 0x04 s
  else
    let s := loadRemap s
    let f := s.foreman
    let img := f.slot 1 f.frNext
    if !f.good 1 f.frNext then bootFails 4 0x05 s
    else match err with
      | some e => bootFails 4 e s
      | none =>
        { s with
          boot := { stage := 6, rdy := true }
          foreman := { (f.raiseSvn 0 (f.slot 0 f.fma)).raiseSvn 1 img with fra := f.frNext, frver := BitVec.ofNat 32 (fwVersion img) } }

/-- Boot after PERST# is released. `ok` says that no step fails for a cause outside this model: training at step 3, and at step 5 the start of the
firmware or a self-test; where one does, which one is left free (log 51). -/
def boot (ok : Bool) (s : State) : State :=
  let s := powerOn s
  let f := s.foreman
  let a := f.good 0 f.fmNext
  if !a && !f.good 0 (!f.fmNext) then bootFails 0 0x01 s
  else
    let s := { s with foreman := { f with fma := if a then f.fmNext else !f.fmNext } }
    if ok then bootOn none s
    else
      let (v, s) := s.fresh
      match v.toNat % 3 with
      | 0 => bootFails 2 0x03 s
      | 1 => bootOn (some 0x05) s
      | _ => bootOn (some 0x06) s

/-- BOOT (R445). -/
def execBoot (ok : Bool) (s : State) : Host.Outcome State Fault Refusal := .next (boot ok s)

/-! ### Link faults and function reset (R442, R449, R452) -/

/-- LINK_FATAL (R442): of the host link or a scarf link, or of a partition's request to a peer. -/
def execLinkFatal (peer : Option Nat) (s : State) : Host.Outcome State Fault Refusal :=
  .next (match peer with
    | some p => s.discard p 0xC2
    | none => s.discardAll 0xC2)

/-- The queue is disabled, and so is a registration that waits for it to empty. -/
def LQueue.disable (y : LQueue) : LQueue := { y with en := false, next := y.next.map fun (lo, hi) => (lo, hi &&& ~~~ (0x80 : Word)) }

/-- The Framer kills the partition's jobs and disables its queues. -/
def flrDone (p : Nat) (s : State) : State :=
  let s := (s.board p).foldl (fun s e => killJob e.1 s) s
  s.modPart p fun x => { x with flrAsked := false, queues := x.queues.map fun (q, y) => (q, y.disable) }

/-- During a handover the FLR waits for the end of the window, as the mailbox's KILL does (R473; log 109). -/
def flr (p : Nat) (s : State) : State :=
  if !(s.part p).up then s else if s.framerUp then flrDone p s else s.modPart p fun x => { x with flrAsked := true }

/-- FLR (R449). -/
def execFlr (part : Nat) (s : State) : Host.Outcome State Fault Refusal := .next (flr part s)

/-! ### Partition set-up and teardown (R446, R447) -/

def Part.share (x : Part) : Nat := bits (x.w 0) 24 16
def Part.slices (x : Part) : List Nat := (List.range 32).filter x.hasSlice
def Part.tpen (x : Part) : Bool := bit (x.w 10) 3
def Part.flen (x : Part) : Nat := bits (x.w 5) 15 0
def Part.sent (x : Part) : Nat := bits (x.w 5) 36 28

/-- The other partitions that are set up. -/
def State.others (s : State) (p : Nat) : List Part := (s.parts.filter fun (q, x) => q != p && x.up).map fun e => e.2

/-- A reserved bit of R446 is set; bits that no row of R446 names are not checked (log 109). -/
def setupReserved (x : Part) : Bool := bits (x.w 0) 63 25 != 0 || bits (x.w 10) 63 4 != 0 || [11, 12, 13, 14].any fun i => x.w i != 0

def setupBents (x : Part) (os : List Part) : Bool := !(([1, 2, 4, 8] : List Nat)).contains x.bents.length || os.any fun o => o.bents.any x.bents.contains

/-- MiB of the two image areas of a bent (R216). -/
def shadowMiB : Nat := 42

def setupSlices (x : Part) (os : List Part) : Bool :=
  os.any (fun o => o.slices.any x.hasSlice) || x.bents.any (fun b => (List.range 4).any fun i => !x.hasSlice (4 * b + i)) ||
  (x.pre && decide (8 * x.slices.length < shadowMiB * x.bents.length))

def setupFrames (x : Part) (os : List Part) : Bool := os.any fun o => rangesMeet (x.dbase, x.dsize) (o.dbase, o.dsize)

def setupDet (x : Part) (s : State) : Bool :=
  x.det && (x.pre || decide (x.flen < 4096) || decide (x.flen > 32768) || x.flen % 8 != 0 || x.period == 0 || x.sent == 0 || decide (x.sent > 256) ||
    (schedule x s).any fun e => decide (e.group ≥ x.bents.length))

/-- The refusal code of a set-up; 0 accepts it. Of several that apply, the lowest is given (log 40). -/
def setupCode (p : Nat) (s : State) : Nat :=
  let x := s.part p
  let os := s.others p
  firstCode [
    (1, setupReserved x),
    (2, setupBents x os),
    (3, x.ctx == 0 || os.any fun o => o.ctx == x.ctx),
    (4, decide (x.share < 8) || decide (x.share > 256) || decide (x.share + (os.map Part.share).sum > 256)),
    (5, setupSlices x os),
    (6, setupFrames x os),
    (7, setupDet x s),
    (8, !s.boot.rdy),
    (10, x.tpen && os.any Part.tpen),
    (11, x.up)]

def Part.refuse (x : Part) (c : Nat) : Part := { x with desc := x.desc.set 15 (word c) }

/-- A partition as an accepted set-up leaves it. The log descriptor, the test interval and a condition that the Foreman has not cleared
outlast it. -/
def Part.fresh (x : Part) : Part :=
  { up := true, desc := x.desc.set 15 0, framelen := BitVec.ofNat 16 (if x.det then x.flen else 16384), testint := x.testint, blocked := x.blocked
    logw0 := x.logw0, logw1 := x.logw1, replayed := x.replayed, stuck := x.stuck, frozen := x.frozen, msix := x.msix }

/-- The byte lies in a slice of the partition. -/
def Part.inSill (x : Part) (a : Nat) : Bool :=
  decide (sillAddr 0 0 ≤ a) && decide (a < sillAddr 32 0) && x.hasSlice ((a - sillAddr 0 0) / sliceBytes)

def partitionSetup (p : Nat) (s : State) : State :=
  let x := s.part p
  let c := setupCode p s
  if p ≥ 8 then s
  else if c ≠ 0 then s.setPart p (x.refuse c)
  else
    let s := s.setPart p x.fresh
    { s with
      remap := { s.remap with idleAt := x.slices.foldl (fun t i => Tab.put t (1024 + i) s.clk.time) s.remap.idleAt }
      mem := s.mem.filter fun c => !x.inSill c.1
      groups := s.groups.map fun (k, g) => (k, if g.part.toNat = p then { g with armed := false, due := [] } else g)
      clk := if x.tpen then { s.clk with gm := none, sync := none, pdelayReq := false } else s.clk }

/-- PARTITION_SETUP (R447, R477). -/
def execPartitionSetup (part : Nat) (s : State) : Host.Outcome State Fault Refusal := .next (partitionSetup part s)

def State.chainOn (s : State) (p : Nat) : Bool := s.chains.any fun (_, c) => chainEn c && chainPart c == p

def partitionTeardown (p : Nat) (s : State) : State :=
  let x := s.part p
  if p ≥ 8 then s
  else if !x.up then s.setPart p (x.refuse 0)
  else if !(s.board p).isEmpty || s.chainOn p then s.setPart p (x.refuse 9)
  else
    let s := s.setPart p { x.refuse 0 with up := false, cmd := 0, busy := false, res := 0, queues := [], faults := [], inval := [], invalMail := false, moves := [], flrAsked := false }
    { s with
      chains := s.chains.map fun (k, c) =>
        let c := if c.codePart = some p then { c with code := [], codePart := none } else c
        (k, { c with wanted := if c.wanted = some p then none else c.wanted })
      ports := s.ports.map fun (k, x) =>
        (k, if x.answered && (x.uplinkBusy.any fun u => u.1 = p) then { x with uplinkBusy := none, answered := false } else x)
      caches := s.caches.filter fun (w, _) => w < 200 || chainPart (s.chain (w - 200)) != p
      clk := if x.tpen then { s.clk.holdover with gm := none, sync := none } else s.clk }

/-- PARTITION_TEARDOWN (R447). -/
def execPartitionTeardown (part : Nat) (s : State) : Host.Outcome State Fault Refusal := .next (partitionTeardown part s)

/-! ### Launch queues (R308, R449) -/

/-- A registration, disabled where the Framer refuses it. -/
def LQueue.accepted (lo hi : Word) : Word :=
  let x := LQueue.register lo hi
  if x.en && (decide (x.logn < 4) || decide (x.logn > 12) || x.quant == 0 || bits lo 6 0 != 0) then word (bits hi 6 0 + at_ (bits hi 15 8) 8) else hi

/-- A registration waits while the queue holds admitted jobs, and while the Framer hands over (R308, R471). -/
def queueRegistration (p q : Nat) (lo hi : Word) (s : State) : State :=
  if !(s.part p).up || q ≥ 64 then s
  else
    let s := s.setQueue p q { s.queue p q with next := some (lo, LQueue.accepted lo hi) }
    if s.framerUp then queueIdle p q s else s

/-- QUEUE_REGISTRATION (R308). -/
def execQueueRegistration (part q : Nat) (lo hi : BitVec 64) (s : State) : Host.Outcome State Fault Refusal :=
  .next (queueRegistration part q lo hi s)

def doorbell (p q : Nat) (v : Word) (s : State) : State :=
  let y := s.queue p q
  if !(s.part p).up || q ≥ 64 || v.toNat ≥ 2 ^ y.logn then s else s.setQueue p q { y with tail := v.toNat }

/-- DOORBELL (R449). -/
def execDoorbell (part q : Nat) (v : BitVec 64) (s : State) : Host.Outcome State Fault Refusal := .next (doorbell part q v s)

/-! ### Chains (R352, R353) -/

/-- Bytes of a line, rounded up to 64. -/
def lineBytes (n fmt : Nat) : Nat := roundUp ((n * fmtWidth fmt + 7) / 8) 64

/-- Position `p`'s lines fit its line buffer. -/
def Chain.fits (x : Chain) (p : Nat) : Bool :=
  decide ((x.win p + 2) * lineBytes (x.inWidth p) (x.inFmt p) + 2 * lineBytes (x.owidth p) (x.ofmt p) ≤ 393216)

/-- A reserved field is set, or a field lies outside its range. -/
def Chain.fieldsBad (x : Chain) : Bool :=
  x.f 0 63 30 != 0 || x.f 2 63 48 != 0 || x.f 3 63 32 != 0 || x.d == 0 || decide (x.d > 6) || chainRing x == 0 || decide (chainRing x > 8) ||
  x.width == 0 || x.height == 0 || !cameraTypes.contains x.dt || (if x.src = 0 then decide (x.port > 23) else decide (x.port > 7) || decide (x.fper < 1000)) ||
  (List.range 6).any fun p =>
    if p < x.d then x.f (4 + p) 63 52 != 0 || x.win p == 0 || !isCode (x.ofmt p) || decide (x.jnum p > 95) else nth 0 x.w (4 + p) != 0

/-- A tensor of the wrong space or shape, or one unlike the last position's output. -/
def chainTensors (c : Nat) (s : State) : Bool :=
  let x := s.chain c
  let ok (tid : Nat) (f : View → Bool) : Bool :=
    match s.viewOf (s.chainCtx c) tid 0 false 0 0 with
    | .ok v => eSpace v.w == 3 && f v
    | .error _ => false
  let last := x.d - 1
  ok x.otid (fun v => v.rank == 3 && nth 0 v.ext 0 == chainRing x && decide (nth 0 v.ext 1 ≤ 2048) && nth 0 v.ext 2 == x.owidth last && v.fmt == x.ofmt last) &&
  ok x.htid fun v => v.fmt == 0x0A && v.ext == [chainRing x, 512]

/-- A logical jointer that another enabled chain uses. -/
def State.jointerTaken (s : State) (c n : Nat) : Bool :=
  s.chains.any fun (k, x) => k != c && chainEn x && (List.range x.d).any fun p => x.jnum p == n

/-- The code of a position, as the partition's last CHAINCODE kept it. -/
def Chain.codeAt (x : Chain) (p : Nat) : Option (Nat × List (BitVec 32) × List Bool) := x.code.find? fun e => e.1 = p

/-- The checks of R352. -/
def chainGood (p c : Nat) (s : State) : Bool :=
  let x := s.chain c
  !x.fieldsBad && chainPart x == p && x.codePart == some p && (List.range x.d).all (fun k => (x.codeAt k).isSome && !s.jointerTaken c (x.jnum k) && x.fits k) &&
  chainTensors c s

/-- A jointer as the enable starts it (R353). -/
def startJointer (c d p : Nat) (e : Nat × List (BitVec 32) × List Bool) : Jointer :=
  { code := e.2.1, fam := e.2.2, run := true, s := Tab.set 0 (Tab.set 0 (Tab.set 0 [] 1 (word c)) 2 (word p)) 3 (word d) }

/-- The jointers and the port of a chain were idle until its enable. -/
def Chain.idleUnits (x : Chain) (s : State) : State :=
  (List.range x.d).foldl (fun s p => s.seenIdle 1 (x.jnum p)) (s.seenIdle (if x.src = 0 then 2 else 3) x.port)

def State.startChain (s : State) (c : Nat) : State :=
  let s := s.latchCounts
  let x := s.chain c
  let s := x.idleUnits s
  let s := (List.range x.d).foldl (fun s p =>
    match x.codeAt p with
    | some e => s.setJtr c p (startJointer c x.d p e)
    | none => s) s
  let s := s.setChain c { x with
    w := x.w.set 0 (nth 0 x.w 0 ||| 1), inFrame := false, next := 0, lineStart := none, frames := 0, wanted := none, lastEnd := s.clk.time, period := periodOf x s }
  s.setRow c 0

/-- CHAIN_TABLE goes to the host (R352). -/
def chainRefused (c : Nat) (s : State) : State := (s.setChain c { s.chain c with wanted := none }).tell 3 [0x86, BitVec.ofNat 8 c]

/-- EN is set: the Framer checks the entry, once it does not hand over (R352, R473). -/
def chainEnable (p c : Nat) (s : State) : State :=
  if !(s.part p).up || c ≥ 64 || chainEn (s.chain c) then s
  else if !s.framerUp then s.setChain c { s.chain c with wanted := some p }
  else if chainGood p c s then s.startChain c else chainRefused c s

/-- CHAIN_ENABLE (R352). -/
def execChainEnable (part chain : Nat) (s : State) : Host.Outcome State Fault Refusal := .next (chainEnable part chain s)

def chainDisable (p c : Nat) (s : State) : State :=
  let x := s.chain c
  if !(s.part p).up || !chainEn x || chainPart x != p then s
  else s.setChain c { x with w := x.w.set 0 (nth 0 x.w 0 &&& 0xFFFFFFFFFFFFFFFE) }

/-- CHAIN_DISABLE (R353): each jointer stops at its next JWAIT. -/
def execChainDisable (part chain : Nat) (s : State) : Host.Outcome State Fault Refusal := .next (chainDisable part chain s)

/-! ### Register writes (R443, R374, R446) -/

/-- A partition descriptor's word, while the partition is torn down; word 15 keeps RCODE. -/
def writeDescriptor (p i : Nat) (v : Word) (s : State) : State :=
  if (s.part p).up || i = 15 then s else s.modPart p fun x => { x with desc := x.desc.set i v }

/-- Run a Foreman command, or refuse it (R468). -/
def writeFcmd (v : Word) (s : State) : State :=
  let f := s.foreman
  if f.busy then { s with foreman := { f with res := 3 } }
  else if 1 ≤ bits v 7 0 ∧ bits v 7 0 ≤ 6 then { s with foreman := { f with cmd := BitVec.ofNat 8 (bits v 7 0), ops := f.args, busy := true } }
  else { s with foreman := { f with cmd := BitVec.ofNat 8 (bits v 7 0), res := 1 }, pfmsix := 1 :: s.pfmsix }

/-- A register of the PF. -/
def writePf (off : Nat) (v : Word) (s : State) : State :=
  if 0x100 ≤ off ∧ off < 0x500 then writeDescriptor ((off - 0x100) / 128) (off % 128 / 8) v s
  else if 0x1000 ≤ off ∧ off < 0x1040 then
    (if v = 1 then partitionSetup ((off - 0x1000) / 8) s else if v = 2 then partitionTeardown ((off - 0x1000) / 8) s else s)
  else if off = 0x10000 then writeFcmd v s
  else if 0x10008 ≤ off ∧ off ≤ 0x10020 then { s with foreman := { s.foreman with args := s.foreman.args.set ((off - 0x10008) / 8) v } }
  else if off = 0x10040 then { s with foreman := { s.foreman with evhead := BitVec.ofNat 32 (bits v 31 0) } }
  else s

/-- Run a mailbox command, or refuse it (R450). -/
def writeCmd (p : Nat) (v : Word) (s : State) : State :=
  let x := s.part p
  let c := bits v 7 0
  if x.busy then s.setPart p { x with res := 3 }
  else if 1 ≤ c ∧ c ≤ 6 then s.setPart p { x with cmd := BitVec.ofNat 8 c, ops := x.args, busy := true }
  else s.setPart p { x with cmd := BitVec.ofNat 8 c, res := 1, msix := x.msix + 1 }

/-- A word of a chain entry: only while EN is 0, but for a write that clears EN (R352). A write that sets EN enables the chain. -/
def writeChain (p c i : Nat) (v : Word) (s : State) : State :=
  let x := s.chain c
  let own := if i = 0 then bits v 25 23 == p else chainPart x == p
  if chainEn x then
    if i = 0 ∧ bit v 0 = false ∧ chainPart x = p then s.setChain c { x with w := x.w.set 0 v } else s
  else if !own then s
  else
    let s := s.setChain c { x with w := x.w.set i (if i = 0 then v &&& 0xFFFFFFFFFFFFFFFE else v), wanted := if i = 0 then none else x.wanted }
    if i = 0 ∧ bit v 0 = true then chainEnable p c s else s

/-- A word of a descriptor with VALID and an owner in word 0: only while VALID is 0, but for a write that clears it. -/
def validWrite (owner : Word → Nat) (me : Nat) (w : List Word) (i : Nat) (v : Word) : Bool :=
  let w0 := nth 0 w 0
  if bit w0 0 then i == 0 && !bit v 0 && owner w0 == me else if i = 0 then owner v == me else owner w0 == me

def ctxOf (w : Word) : Nat := bits w 6 1

def writeGroup (p g i : Nat) (v : Word) (s : State) : State :=
  let x := s.group g
  if validWrite (fun w => bits w 3 1) p x.w i v then s.setGroup g { x with w := x.w.set i v } else s

def writeFamily (p f i : Nat) (v : Word) (s : State) : State :=
  let w := s.family f
  if validWrite ctxOf (s.part p).ctx w i v then { s with families := Tab.put s.families f (w.set i v) } else s

/-- Bits of a table's word that the device alone writes: STATE, MP and CLAIM. -/
def tableKeeps (i : Nat) : Word := if i = 0 then 0x80000 else if i = 3 then 0xFFFFFFFFFFFFFFFF else 0

/-- Bits that the host may write while STATE is 0: NBB, NPOL, NBTID, NOTID, NOVFREE. -/
def tableNext (i : Nat) : Word := if i = 0 then 0x7F00000 else if i = 1 then 0xFFFFFFFF00000000 else if i = 2 then 0xFFFFFFFF00000000 else 0

/-- The bits of `v` under a mask, and those of `w` elsewhere. -/
def masked (m v w : Word) : Word := (v &&& m) ||| (w &&& ~~~ m)

/-- A word of a table descriptor (R374). Clearing VALID ends the claims of a migration on the table's buckets. -/
def writeTable (p t i : Nat) (v : Word) (s : State) : State :=
  let w := s.table t
  let me := (s.part p).ctx
  if validWrite ctxOf me w i v then
    let s := s.setTable t (w.set i (masked (~~~ tableKeeps i) v (nth 0 w i)))
    if i = 0 ∧ bit v 0 = false then { s with heldBuckets := s.heldBuckets.filter fun h => h.1 != t } else s
  else if hValid w && !hState w && hCtx w == me && (i != 0 || bit v 0) then s.setTable t (w.set i (masked (tableNext i) v (nth 0 w i)))
  else s

/-- A word of a launch-queue descriptor: the queue is registered with it and with the other word as it stands (log 52). -/
def writeQueue (p q i : Nat) (v : Word) (s : State) : State :=
  let d := (s.queue p q).next.getD (s.queue p q).words
  if i = 0 then queueRegistration p q v d.2 s else queueRegistration p q d.1 v s

/-- A register of a VF. -/
def writeVf (p off : Nat) (v : Word) (s : State) : State :=
  if !(s.part p).up then s
  else if off < 0x400 then writeQueue p (off / 16) (off % 16 / 8) v s
  else if 0x1000 ≤ off ∧ off < 0x1200 then doorbell p ((off - 0x1000) / 8) v s
  else if off = 0x2000 then writeCmd p v s
  else if 0x2008 ≤ off ∧ off ≤ 0x2018 then s.modPart p fun x => { x with args := x.args.set ((off - 0x2008) / 8) v }
  else if off = 0x3000 then s.modPart p fun x => { x with evhead := BitVec.ofNat 32 (bits v 31 0) }
  else if 0x4000 ≤ off ∧ off < 0x5400 then writeChain p ((off - 0x4000) / 80) ((off - 0x4000) % 80 / 8) v s
  else if 0x6000 ≤ off ∧ off < 0x6800 then writeGroup p ((off - 0x6000) / 32) (off % 32 / 8) v s
  else if 0x7000 ≤ off ∧ off < 0x7800 then writeFamily p ((off - 0x7000) / 32) (off % 32 / 8) v s
  else if 0x8000 ≤ off ∧ off < 0xC000 then writeTable p ((off - 0x8000) / 64) (off % 64 / 8) v s
  else s

/-- The host's write of a stream counter while the chain's EN is 0 (R391): the spec gives it no offset, so the model numbers its windows
16 + p, with the counter of stream n at 8n (log 52). -/
def writeCounter (p n : Nat) (v : Word) (s : State) : State :=
  let x := s.chain n
  if n ≥ 64 || !(s.part p).up || chainEn x || chainPart x != p then s else s.latchCounts.setRow n (masked 0xFFFFFFFF0001FFFF v 0)

/-- Function `fn`: VF p for p below 8, the PF at 8. -/
def hostWrite (fn off : Nat) (v : Word) (s : State) : State :=
  if off % 8 ≠ 0 then s
  else if fn < 8 then writeVf fn off v s
  else if fn = 8 then writePf off v s
  else if 16 ≤ fn ∧ fn < 24 then writeCounter (fn - 16) (off / 8) v s
  else s

/-- HOST_REGISTER_WRITE (R443). -/
def execHostRegisterWrite (fn off : Nat) (v : BitVec 64) (s : State) : Host.Outcome State Fault Refusal := .next (hostWrite fn off v s)

/-! ### The partition mailbox (R450) -/

/-- The command runs: it was written, and the Framer is not handing over (R473). -/
def State.runsCmd (s : State) (p c : Nat) : Bool :=
  let x := s.part p
  x.up && x.busy && x.cmd.toNat == c && s.framerUp

def State.op (s : State) (p i : Nat) : Word := nth 0 (s.part p).ops i

def State.jobNamed (s : State) (p : Nat) (jobid : Word) : Option Nat := ((s.board p).find? fun (_, j) => j.jobid = jobid).map fun e => e.1

/-- The command ends when the job has been saved, or has left. -/
def preemptCmd (p : Nat) (s : State) : State :=
  if !s.runsCmd p 1 then s
  else match s.jobNamed p (s.op p 0) with
    | none => endCommand p 2 s
    | some n => if (s.job n).stopping then s else if s.preemptible n then preemptJob n s else endCommand p 2 s

/-- PREEMPT (R450, R322). -/
def execPreempt (part : Nat) (s : State) : Host.Outcome State Fault Refusal := .next (preemptCmd part s)

def killCmd (p : Nat) (s : State) : State :=
  if !s.runsCmd p 2 then s
  else match s.jobNamed p (s.op p 0) with
    | none => endCommand p 2 s
    | some n => endCommand p 0 (killJob n s)

/-- KILL (R450). -/
def execKill (part : Nat) (s : State) : Host.Outcome State Fault Refusal := .next (killCmd part s)

def pageResp (p : Nat) (s : State) : State :=
  if !s.runsCmd p 3 then s
  else
    let hit (f : PageFault) : Bool := !f.mig && f.asked && f.tid == (s.op p 0).toNat && f.tile == (s.op p 1).toNat
    let s' := s.modPart p fun x => { x with faults := x.faults.map fun f => if hit f then { f with served := true } else f }
    endCommand p 0 (resumeServed p (s'.latchTiles p))

/-- PAGE_RESP (R450, R324). -/
def execPageResp (part : Nat) (s : State) : Host.Outcome State Fault Refusal := .next (pageResp part s)

def invalCmd (p : Nat) (s : State) : State :=
  if !s.runsCmd p 4 || (s.part p).invalMail then s
  else s.modPart p fun x => { x with inval := x.inval ++ [((s.op p 0).toNat, (s.op p 1).toNat, (s.op p 2).toNat)], invalMail := true }

/-- INVAL (R450): BUSY clears when the invalidation completes. -/
def execInval (part : Nat) (s : State) : Host.Outcome State Fault Refusal := .next (invalCmd part s)

/-- A chain of the partition names the camera port. -/
def State.usesPort (s : State) (p port : Nat) : Bool :=
  s.chains.any fun (_, x) => x.w.any (fun v => v != 0) && chainPart x == p && x.src == 0 && x.port == port

def sensorCmd (p : Nat) (s : State) : State :=
  let port := (s.op p 0).toNat
  let a := (s.op p 1).toNat
  if !s.runsCmd p 5 then s
  else if port > 23 || !s.usesPort p port then endCommand p 2 s
  else if (s.port port).answered && ((s.port port).uplinkBusy.any fun u => u.1 = p) then
    endCommand p 0 (s.setPort port { s.port port with uplinkBusy := none, answered := false })
  else if (s.port port).uplinkBusy.isSome then s
  else
    let l := s.readBytes (hostAddr a) 64
    let n := min (nth 0 l 0).toNat 62
    s.setPort port { s.port port with uplink := (l.drop 1).take n, uplinkBusy := some (p, a) }

/-- SENSOR (R450): the bytes go up the port's uplink. -/
def execSensor (part : Nat) (s : State) : Host.Outcome State Fault Refusal := .next (sensorCmd part s)

def uplinkReply (port : Nat) (reply : List Byte) (s : State) : State :=
  let x := s.port port
  match x.uplinkBusy with
  | none => s
  | some (p, a) =>
    if x.answered then s
    else
      let y := s.part p
      let later := y.up && y.busy && y.cmd == 5 && !s.framerUp
      let s := (s.setPort port { x with uplink := [], uplinkBusy := if later then x.uplinkBusy else none, answered := later }).write (hostAddr a) (reply.take 64)
      if s.runsCmd p 5 then endCommand p 0 s else s

/-- UPLINK_REPLY (R450): the reply is written back over the buffer; in a handover window the command ends after it (R473). -/
def execUplinkReply (port : Nat) (reply : List (BitVec 8)) (s : State) : Host.Outcome State Fault Refusal := .next (uplinkReply port reply s)

def chainCode (p : Nat) (s : State) : State :=
  let c := (s.op p 0).toNat
  let len := (s.op p 2).toNat
  if !s.runsCmd p 6 then s
  else if c ≥ 64 || len ≥ 2 ^ 32 || chainEn (s.chain c) then endCommand p 2 s
  else
    let l := s.readBytes (hostAddr (s.op p 1).toNat) len
    let rs := (chainRecords l c).map chainRecord
    let es := rs.filterMap id
    if imgUnread l || imgCrcBad l || imgDirBad l || rs.isEmpty || rs.any (fun r => r.isNone) || hasRepeat (es.map fun e => e.1) then endCommand p 2 s
    else endCommand p 0 (s.setChain c { s.chain c with code := es, codePart := some p })

/-- CHAINCODE (R450). -/
def execChaincode (part : Nat) (s : State) : Host.Outcome State Fault Refusal := .next (chainCode part s)

end Sys2Proof.Machine
end

