-- ==== Sys2Proof/Machine/Paging.lean ====
section
/-! DEFINITION. Page faults, eviction, migration and invalidation (spec/13_framer.md R324, spec/16_translation.md R366 to R370,
spec/08_memories.md R215). -/

namespace Sys2Proof.Machine

/-! ### Pages -/

/-- Copy `n` bytes. -/
def State.copyRange (s : State) (src dst n : Nat) : State :=
  let moved := s.mem.filter fun c => decide (src ≤ c.1) && decide (c.1 < src + n)
  let rest := s.mem.filter fun c => !(decide (dst ≤ c.1) && decide (c.1 < dst + n))
  { s with mem := moved.foldl (fun (m : Memory) (c : Host.Cell) => Memory.write m (c.1 - src + dst) c.2) rest }

/-- The Framer writes the tag of every granule of a page (R215). -/
def State.tagPage (s : State) (a n tag : Nat) : State :=
  { s with tags := (List.range (n / 32)).foldl (fun t i => Tab.set 0 t (a / 32 + i) (BitVec.ofNat 4 tag)) s.tags }

def pageSize (w0 : Nat) : Nat := 2 ^ pageBits (w0 / 128 % 4)

/-- Where a leaf's frame and its backing copy stand. -/
def frameOf (w0 : Nat) : Nat := spaceBase (w0 / 512 % 8) (w0 / 65536 * 65536)
def backOf (w1 : Nat) : Nat := spaceBase (w1 % 8) (w1 / 65536 * 65536)

/-- The tag of a tensor's granules, as its entry gives it. -/
def State.tensorTag (s : State) (p n tid : Nat) : Nat := eTag (s.entryWords (framerCtx p n) tid)

/-- The page's granules take the tensor's tag where the leaf has tagging enabled. -/
def State.retag (s : State) (p n tid w0 : Nat) : State :=
  if w0.testBit 3 then s.tagPage (frameOf w0) (pageSize w0) (s.tensorTag p n tid) else s

/-! ### Service (R324, R366) -/

/-- Two accesses wait for one entry: those of a job's own ROOT stand at 0, and their job and tensor tell them apart. -/
def PageFault.same (f g : PageFault) : Bool := f.entry == g.entry && (f.entry != 0 || (f.slot == g.slot && f.tid == g.tid))

/-- The accesses that wait for the entry of `f` are served. -/
def markServed (p : Nat) (f : PageFault) (s : State) : State :=
  s.modPart p fun x => { x with faults := x.faults.map fun g => if f.same g && !g.mig then { g with served := true } else g }

/-- Ask the host for the page: a PAGE_REQUEST event. A chain's access has no JOBID: that field is left free (log 44). -/
def askHost (p n : Nat) (f : PageFault) (s : State) : State :=
  let s := s.modPart p fun x => { x with faults := x.faults.set n { f with asked := true } }
  match f.slot with
  | some k => s.frEvent p 5 f.tid (s.job k).jobid (some f.tile)
  | none => s.fresh.2.frEvent p 5 f.tid s.fresh.1 (some f.tile)

/-- The Framer services the access now: its job is in RUN, or in LOAD for its restore, or it has none or the Framer wants the page itself (R252,
R324). -/
def State.canService (s : State) (f : PageFault) : Bool := s.canResume f || f.slot.any fun n => (s.job n).state == .load

/-- The accesses that wait for their service, in every partition. -/
def State.waiting (s : State) : List PageFault := s.parts.flatMap fun (_, x) => x.faults.filter fun f => !f.mig && !f.served && s.canService f

/-- The accesses in service: those that the host has been asked for, a saved job's among them. -/
def State.inService (s : State) : List PageFault := s.parts.flatMap fun (_, x) => x.faults.filter fun f => !f.mig && !f.served && f.asked

/-- The access is in service, or it is the next to arrive and fewer than 16 are in service (R324). -/
def State.inTurn (s : State) (f : PageFault) : Bool :=
  f.asked || ((s.waiting.all fun g => g.asked || decide (g.order ≥ f.order)) && decide (s.inService.length < 16))

def pageFaultService (p n : Nat) (s : State) : State :=
  match (s.part p).faults[n]? with
  | none => s
  | some f =>
    if !s.framerUp || f.mig || f.served || !s.canService f || !s.inTurn f then s
    else
      let k := f.slot.getD 512
      let (w0, w1) := s.entryAt k f.tid f.entry
      if w0.testBit 0 then resumeServed p ((markServed p f s).latchTiles p)
      else if w0.testBit 6 && (w1 % 8 = 4 || w1 % 8 = 5) then
        let s := (s.copyRange (backOf w1) (frameOf w0) (pageSize w0)).retag p k f.tid w0
        resumeServed p ((markServed p f (s.setLeaf f.entry (w0 + 1) w1)).latchTiles p)
      else if f.asked then s
      else askHost p n f s

/-- PAGE_FAULT_SERVICE (R324). -/
def execPageFaultService (part n : Nat) (s : State) : Host.Outcome State Fault Refusal := .next (pageFaultService part n s)

/-! ### Faults that the Framer cannot service (R195, R229, R251, R368) -/

/-- RST of the sequencer's word at `pc`: LD, LDS and ST may be restarted (R229). -/
def Bay.seqRst (y : Bay) : Bool :=
  let op := bytesNat ((y.plane.bytes.drop y.pc.toNat).take 4) / 2 ^ 25
  op == 0x20 || op == 0x21 || op == 0x22

/-- The access's cause is delivered as a trap to its agent. -/
def failAccess (f : PageFault) (s : State) : State :=
  let rc : FaultRec := { cause := f.cause, tid := BitVec.ofNat 16 f.tid, wher := word f.tile, aux := f.aux }
  match f.who with
  | .stream b .S =>
    let y := s.bay b
    (s.setBay b { y with seqHalted := false }).trapEntry b { rc with rst := y.seqRst, pc := y.pc } y.pc
  | .stream b .V => (s.modBay b fun y => { y with vecHalted := false }).haltStream b .V { rc with eng := 1, pc := (s.bay b).v.pc }
  | .stream b e =>
    let l := ((s.bay b).stream e).inflight
    match (l.zip (List.range l.length)).find? fun (r, _) => r.halted && f.copy = some r.ordinal with
    | some (r, i) => s.copyFault b e i r rc
    | none => s
  | .lath n => (s.modLath n fun x => { x with waiting := false }).haltLath n rc
  | .jointer c p => (s.setJtr c p { s.jtr c p with page := false }).jointerFault c p rc
  | .none => s

def dropFault (p n : Nat) (s : State) : State := s.modPart p fun x => { x with faults := x.faults.eraseIdx n }

/-- The partition's fault timeout in main clocks (R446). -/
def Part.fto (x : Part) : Nat := (if bits (x.w 9) 63 32 = 0 then 10000 else bits (x.w 9) 63 32) * clkUs

/-- The fault timeout has passed. A copy's fault waits while its stream has another fault on record (R198). -/
def faultTimeout (p n : Nat) (s : State) : State :=
  match (s.part p).faults[n]? with
  | none => s
  | some f =>
    let held := match f.who with
      | .stream b e => e != .S && ((s.bay b).stream e).faulting
      | _ => false
    if !s.framerUp || f.mig || f.served || held || f.who == .none || !s.canResume f || s.clock < f.since + (s.part p).fto then s
    else failAccess f (dropFault p n s)

/-- FAULT_TIMEOUT (R324). -/
def execFaultTimeout (part n : Nat) (s : State) : Host.Outcome State Fault Refusal := .next (faultTimeout part n s)

/-! ### Waits for a migration (R368) -/

/-- The translation context of the agent whose access waits. -/
def State.agentCtx (s : State) (p : Nat) (f : PageFault) : Ctx :=
  match f.who with
  | .stream b _ => s.bayCtx b
  | .lath n => s.lathCtx n
  | .jointer c _ => s.chainCtx c
  | .none => framerCtx p (f.slot.getD 512)

/-- What the walk of a waiting access finds now. -/
def State.walkAgain (s : State) (p : Nat) (f : PageFault) : Walk :=
  let c := s.agentCtx p f
  match s.viewOf c f.tid 0 false 0 0 with
  | .ok v => if ePaged v.w then s.walk c v (f.tile * 65536) else .bad
  | .error _ => .bad

/-- MIG of the entry that the access waits for. -/
def State.stillMoves (s : State) (f : PageFault) : Bool := (s.entryAt (f.slot.getD 512) f.tid f.entry).1.testBit 4

/-- The walk goes on once the entry's MIG is 0; where it meets MIG in a later entry, it waits there, from its first meeting. -/
def migrationRecheck (p n : Nat) (s : State) : State :=
  match (s.part p).faults[n]? with
  | none => s
  | some f =>
    if !f.mig || !s.canResume f || s.clock < f.since + 256 || s.stillMoves f then s
    else match s.walkAgain p f with
      | .absent _ true e => s.modPart p fun x => { x with faults := x.faults.set n { f with entry := e } }
      | _ => resumeAgent f (dropFault p n s)

/-- MIGRATION_RECHECK (R368). -/
def execMigrationRecheck (part n : Nat) (s : State) : Host.Outcome State Fault Refusal := .next (migrationRecheck part n s)

def migrationTimeout (p n : Nat) (s : State) : State :=
  match (s.part p).faults[n]? with
  | none => s
  | some f =>
    let held := match f.who with
      | .stream b e => e != .S && ((s.bay b).stream e).faulting
      | _ => false
    if !f.mig || held || !s.canResume f || s.clock < f.since + 16 * clkUs || !s.stillMoves f then s
    else failAccess f (dropFault p n s)

/-- MIGRATION_TIMEOUT (R368). -/
def execMigrationTimeout (part n : Nat) (s : State) : Host.Outcome State Fault Refusal := .next (migrationTimeout part n s)

/-! ### Eviction, migration and invalidation (R366, R370) -/

/-- The scoreboard slot whose entries an operand TID + 65,536 × slot names; a partition's own tensor is no job's. -/
def State.tidSlot (s : State) (p tid : Nat) : Nat :=
  let n := tid / 65536
  if tid % 65536 ≥ 32768 ∧ n < 256 ∧ (s.job n).state ≠ .free ∧ (s.job n).part = p then n else 512

/-- The pointer, or the ROOT, that names the node of level `target` on the way to offset `o`: its words and where it stands. The walk starts at the
entry `w0`, `w1`, which stands at `e` in a node of level `lvl`. -/
def State.pointerTo (s : State) (o target : Nat) : Nat → Word → Word → Nat → Nat → Option (Nat × Nat × Nat)
  | 0, _, _, _, _ => none
  | fuel + 1, w0, w1, lvl, e =>
    if bit w0 6 || pointerBad w0 w1 lvl then none
    else if lvl + 1 = target then some (w0.toNat, w1.toNat, e)
    else if !bit w0 0 || bit w0 4 then none
    else
      let a := spaceBase (bits w1 2 0) (w0.toNat / 512 * 512 + 16 * levelIndex (lvl + 1) o)
      s.pointerTo o target fuel (word (s.rd a 8)) (word (s.rd (a + 8) 8)) (lvl + 1) a

/-- The entry that an operand tile + 2^24 × level names: the leaf of the tile with level 0, and else the pointer to the node of that level. A leaf
counts once it is resident, or its MIG is set. -/
def State.moveEntry (s : State) (p k tid tile : Nat) : Option (Nat × Nat × Nat) :=
  let t := tile % 2 ^ 24
  if tile < 2 ^ 24 then
    match tileWalk p k tid t s with
    | .leaf w0 w1 e => some (w0.toNat, w1.toNat, e)
    | .absent 4 true e => if (s.entryAt k tid e).1.testBit 6 then some ((s.entryAt k tid e).1, (s.entryAt k tid e).2, e) else none
    | _ => none
  else
    match s.viewOf (framerCtx p k) tid 0 false 0 0 with
    | .ok v =>
      let e0 := if tid < 32768 then dramAddr ((s.part p).ttab + tid * 256 + 8) else 0
      if !ePaged v.w || t * 65536 / 2 ^ spanBits (eLevels v.w) ≠ 0 then none
      else (s.pointerTo (t * 65536) (tile / 2 ^ 24) 4 (eW v.w 1) 4 (3 - eLevels v.w) e0).filter fun (w0, _, _) => w0.testBit 0
    | .error _ => none

/-- Set MIG on a resident entry and issue an invalidation. The dependences that the page met are met (R311). -/
def beginMove (p k tid tile w0 w1 e : Nat) (s : State) : State :=
  ((s.latchTiles p).setEntry k tid e (w0 + 16) w1).modPart p fun x =>
    { x with inval := x.inval ++ [(tid, tile % 2 ^ 24, 1)], moves := x.moves ++ [⟨e, k, tid, s.clock⟩] }

/-- The move of an entry ends: the entry takes its new words. -/
def endMove (p k tid e w0 w1 : Nat) (s : State) : State :=
  (s.setEntry k tid e w0 w1).modPart p fun x => { x with moves := x.moves.filter fun m => !(m.entry == e && m.slot == k && m.tid == tid) }

/-- No invalidation of the partition is under way. -/
def State.settled (s : State) (p : Nat) : Bool := (s.part p).inval.isEmpty

/-- The Framer itself moves the entry, and its invalidation has completed. -/
def State.canMove (s : State) (p k tid e : Nat) : Bool :=
  s.settled p && (s.part p).moves.any fun m => m.entry == e && m.slot == k && m.tid == tid

/-- A page leaves its frame: while MIG keeps accesses away and no cache holds the entry, its contents go to the backing copy, and P and MIG
are cleared (log 46). `back` gives a backing copy that the leaf does not name yet: 2 × its frame, and 1 more for host memory. -/
def pageEviction (p tid tile back : Nat) (s : State) : State :=
  let k := s.tidSlot p tid
  let t := tid % 65536
  if !s.framerUp || !(s.part p).up || tile ≥ 2 ^ 24 then s
  else match s.moveEntry p k t tile with
    | none => s
    | some (w0, w1, e) =>
      if !w0.testBit 4 then beginMove p k t tile w0 w1 e s
      else if !s.canMove p k t e then s
      else
        let w1 := if w1 % 8 = 0 then 4 + back % 2 + back / 2 * 65536 else w1
        endMove p k t e (w0 - 17) w1 (s.copyRange (frameOf w0) (backOf w1) (pageSize w0))

/-- PAGE_EVICTION (R366): its first step sets MIG, its second moves the page. -/
def execPageEviction (part tid tile back : Nat) (s : State) : Host.Outcome State Fault Refusal := .next (pageEviction part tid tile back s)

/-- w0 of a leaf with a new FRAME, and of a pointer with a new NODE, aligned as R365 and R366 require; MIG is clear. -/
def movedLeaf (w0 frame : Nat) : Nat := w0 % 65536 - 16 + frame * 65536 / pageSize w0 * pageSize w0
def movedNode (w0 lvl node : Nat) : Nat := w0 % 512 - 16 + node * 512 / nodeBytes lvl * nodeBytes lvl

/-- A page or a node moves. One of 1 GiB or more never does while a job of the partition is in LOAD or RUN: a move under way is then given up.
`frame` is the new FRAME, or the new NODE. -/
def pageMigration (p tid tile frame : Nat) (s : State) : State :=
  let k := s.tidSlot p tid
  let t := tid % 65536
  let busy := (s.board p).any fun (_, j) => j.state == .run || j.state == .load
  if !s.framerUp || !(s.part p).up then s
  else match s.moveEntry p k t tile with
    | none => s
    | some (w0, w1, e) =>
      let held := w0.testBit 6 && decide (w0 / 128 % 4 ≥ 2) && busy
      if !w0.testBit 4 then (if held then s else beginMove p k t tile w0 w1 e s)
      else if !s.canMove p k t e then s
      else if held then endMove p k t e (w0 - 16) w1 s
      else if w0.testBit 6 then
        let new := movedLeaf w0 frame
        endMove p k t e new w1 ((s.copyRange (frameOf w0) (frameOf new) (pageSize w0)).retag p k t new)
      else
        let lvl := tile / 2 ^ 24
        let new := movedNode w0 lvl frame
        endMove p k t e new w1 (s.copyRange (spaceBase (w1 % 8) (w0 / 512 * 512)) (spaceBase (w1 % 8) (new / 512 * 512)) (nodeBytes lvl))

/-- PAGE_MIGRATION (R370): its first step sets MIG, its second copies the page or the node, writes the new FRAME or NODE and clears MIG. -/
def execPageMigration (part tid tile frame : Nat) (s : State) : Host.Outcome State Fault Refusal := .next (pageMigration part tid tile frame s)

/-- The partition whose accesses a translation cache serves. -/
def State.cachePart (s : State) (who : Nat) : Nat :=
  if who < 64 then (s.bay who).partNo else if who < 200 then (s.lathCtx (who - 64)).part else chainPart (s.chain (who - 200))

/-- A posted write of the partition has not landed yet. It may have translated through an old entry, whichever tensor it names. -/
def State.writesOpen (s : State) (p : Nat) : Bool :=
  s.bays.any (fun (_, y) => y.live && y.partNo == p && (!y.stores.isEmpty || !y.reds.isEmpty)) ||
  s.laths.any fun (n, x) => (s.lathCtx n).part == p && x.slot.isSome && !x.updates.isEmpty

def invalidationComplete (p : Nat) (s : State) : State :=
  let x := s.part p
  if !s.framerUp || x.inval.isEmpty || s.writesOpen p then s
  else
    let unowned (w : Nat) : Bool := decide (64 ≤ w) && decide (w < 200) && (s.lathAt (w - 64)).slot.isNone
    let s := { s with caches := s.caches.filter fun (w, _) => s.cachePart w != p && !unowned w }
    let s := s.setPart p { x with inval := [], invalMail := false }
    if x.invalMail then endCommand p 0 s else s

/-- INVALIDATION_COMPLETE (R370): no cache holds an old entry, and every access through one has completed. -/
def execInvalidationComplete (part : Nat) (s : State) : Host.Outcome State Fault Refusal := .next (invalidationComplete part s)

end Sys2Proof.Machine
end

