-- ==== Sys2Proof/Machine/Integrity.lean ====
section
/-! DEFINITION. Safety: paired comparison, spares and self-tests (spec/25_safety.md R455, R456, R464 to R467, spec/16_translation.md R372,
R373). -/

namespace Sys2Proof.Machine

/-! ### Paired execution (R455, R456) -/

/-- Bays of a paired job with their twins. -/
def State.pairs (s : State) (n : Nat) : List (Nat × Nat) :=
  match (s.job n).twin with
  | some t => (s.job n).bays.zip (s.job t).bays
  | none => []

/-- A bay has issued a merged operation that has not been compared. -/
def Bay.posted (y : Bay) : Bool := y.live && y.merge.isSome && !y.mergeDone

def mergePair (n : Nat) (x : Nat × Nat) (s : State) : State :=
  let y := s.bay x.1
  let z := s.bay x.2
  if !y.posted || !z.posted then s
  else if y.merge = z.merge then (s.setBay x.1 { y with mergeDone := true }).modBay x.2 fun z => { z with mergeDone := true }
  else s.discard (s.job n).part 0xC4

/-- Compare the merged operations that both twins have issued; one is performed as its word's next step. -/
def pairMerge (n : Nat) (s : State) : State :=
  let j := s.job n
  if n ≥ 256 || j.state != .run || !j.paired then s else (s.pairs n).foldl (fun s x => mergePair n x s) s

/-- PAIR_MERGE (R455). -/
def execPairMerge (slot : Nat) (s : State) : Host.Outcome State Fault Refusal := .next (pairMerge slot s)

def twinBound : Nat := 100 * clkUs

/-- A merged operation of `y` has stood for 100 µs without its counterpart in `z`. -/
def Bay.waitsTwin (y z : Bay) (clock now : Nat) : Bool :=
  let copies (e : Eng) : Bool := (y.stream e).inflight.any fun r =>
    !r.xnop && r.moved && !r.done && r.baren && decide (now ≥ r.movedAt.toNat + 100000) &&
      !(z.stream e).inflight.any fun q => !q.xnop && q.moved && q.ordinal == r.ordinal
  (y.posted && !z.posted && decide (clock ≥ y.mergedAt + twinBound)) ||
  y.reds.any (fun q => !q.applied && decide (clock ≥ q.sent + twinBound) && !z.reds.any fun x => x.seq == q.seq) ||
  copies .L || copies .W

/-- Every bay of the first copy has stood halted for 100 µs while the second has not halted in every bay: the HALT of the last bay is a merged
operation too (R455, R456). -/
def State.haltWaits (s : State) (a b : Nat) : Bool :=
  let gone (k c : Nat) : Bool := (s.bay c).slot == some k && !(s.bay c).live
  ((s.job a).bays.all fun c => gone a c && decide (s.clock ≥ (s.bay c).mergedAt + twinBound)) && !(s.job b).bays.all (gone b)

def pairTimeout (n : Nat) (s : State) : State :=
  let j := s.job n
  let late := (s.pairs n).any fun (a, b) =>
    (s.bay a).waitsTwin (s.bay b) s.clock s.clk.time.toNat || (s.bay b).waitsTwin (s.bay a) s.clock s.clk.time.toNat
  let late := late || (j.twin.isSome && (s.haltWaits n (twinSlot n) || s.haltWaits (twinSlot n) n))
  if n ≥ 256 || j.state != .run || j.ended || !late then s else s.discard j.part 0xC4

/-- PAIR_TWIN_TIMEOUT (R456). -/
def execPairTwinTimeout (slot : Nat) (s : State) : Host.Outcome State Fault Refusal := .next (pairTimeout slot s)

/-! ### Idle points (R466) -/

/-- No job in LOAD or RUN stands on the bent. -/
def State.bentIdle (s : State) (b : Nat) : Bool := !s.busyBents.contains b

def State.jointerIdle (s : State) (n : Nat) : Bool := !s.jointerTaken 64 n

def State.partsWith (s : State) (f : Part → Bool) : List Nat := (s.parts.filter fun (_, x) => x.up && f x).map fun e => e.1

/-- Partitions with a chain that names the jointer. -/
def State.jointerParts (s : State) (n : Nat) : List Nat :=
  ((s.chains.filter fun (_, x) => (List.range x.d).any fun p => x.jnum p == n).map fun (_, x) => chainPart x).eraseDups

def State.discardEach (s : State) (ps : List Nat) (cause : Nat) : State := ps.foldl (fun s p => s.discard p cause) s

/-! ### Spares (R372, R373) -/

/-- The `i`-th physical unit that a skip list does not name. -/
def physical (skip : List Nat) (i : Nat) : Nat := (sortBy id skip).foldl (fun p k => if k ≤ p then p + 1 else p) i

def State.spareDone (s : State) (n : Nat) : State := s.fmEvent 3 n

/-- No spare is left: SPARE_EXHAUSTED in each partition that uses the unit, and the unit's bent offers no shape from now on. -/
def State.exhausted (s : State) (ps : List Nat) (bent : Option Nat) : State :=
  let s := { s with remap := { s.remap with lost := s.remap.lost ++ bent.toList, spent := s.remap.spent || bent.isSome } }
  s.discardEach ps 0xC9

def State.bentParts (s : State) (b : Nat) : List Nat := s.partsWith fun x => x.bents.contains b

/-- The units that a skip list names: 0x7FF stands for none (R372). -/
def skipped {k : Nat} (l : Vector (BitVec 11) k) : List Nat := (l.toList.filter fun v => v != 0x7FF).map BitVec.toNat

/-- A skip list takes one more unit, in its first free place. -/
def skipPut : List (BitVec 11) → Nat → List (BitVec 11)
  | [], _ => []
  | v :: t, n => if v = 0x7FF then BitVec.ofNat 11 n :: t else v :: skipPut t n

/-- A unit of a bent is retired, at an idle point of the bent, or no place is left for it; `l` holds the places of its skip list. -/
def State.skipUnit (s : State) (bent n : Nat) (l : List (BitVec 11)) (put : List (BitVec 11) → Remap → Remap) : State :=
  if l.contains (BitVec.ofNat 11 n) then s
  else if !l.contains 0x7FF then s.exhausted (s.bentParts bent) (some bent)
  else if !s.bentIdle bent then s
  else { s with remap := put (skipPut l n) s.remap }.spareDone n

/-- A skip list of `k` places, as it stands; a unit without an entry skips nothing. -/
def skipList {k : Nat} (t : Tab (Vector (BitVec 11) k)) (u : Nat) : Vector (BitVec 11) k := Tab.get (Vector.replicate k 0x7FF) t u

/-- A skip list as a vector again. -/
def skipVec (k : Nat) (l : List (BitVec 11)) : Vector (BitVec 11) k := Vector.ofFn fun i => nth 0x7FF l i

/-- BAYSKIP as a skip list of one place. -/
def bayPlaces (v : BitVec 4) : List (BitVec 11) := [if v = 0xF then 0x7FF else BitVec.ofNat 11 v.toNat]

def bayList (v : BitVec 4) : List Nat := if v = 0xF then [] else [v.toNat]

/-- Physical number of a wing's spare slice: the highest-numbered (log 53). -/
def spareSlice (logical : Nat) : Nat := if logical < 16 then 32 else 33

def State.sliceOf (s : State) (n : Nat) : Nat := (Tab.get (BitVec.ofNat 6 n) s.remap.slicemap n).toNat

/-- A slice is copied to the spare of its wing at once. -/
def State.spareForSlice (s : State) (n : Nat) : State :=
  let p := spareSlice n
  let used := (List.range 32).any (fun i => s.sliceOf i == p) || s.remap.retired.contains (0, p) || s.remap.copying.any fun e => e.2 == p
  if s.remap.copying.any fun e => e.1 == n then s
  else if used then s.exhausted (s.partsWith fun x => x.hasSlice n) (some (n / 4))
  else { s with remap := { s.remap with copying := (n, p) :: s.remap.copying } }

def State.jointerOf (s : State) (n : Nat) : Nat := (Tab.get (BitVec.ofNat 7 n) s.remap.jointmap n).toNat

/-- A logical jointer moves to a spare, the lowest physical one that is neither in use nor retired (log 53), while its chain's EN is 0. -/
def State.spareForJointer (s : State) (n : Nat) : State :=
  let used := (List.range 96).map s.jointerOf ++ (s.remap.retired.filter fun e => e.1 = 1).map fun e => e.2
  match (List.range 104).find? fun k => !used.contains k with
  | none => { s with remap := { s.remap with spent := true } }.exhausted (s.jointerParts n) none
  | some next =>
    if !s.jointerIdle n then s
    else
    let r := s.remap
    { s with remap := { r with jointmap := Tab.put r.jointmap n (BitVec.ofNat 7 next), retired := (1, s.jointerOf n) :: r.retired } }.spareDone n

/-- Physical laths of each class beyond the logical ones (R327). -/
def lathSpares (code : Nat) : Nat := if code = 3 ∨ code = 5 then 2 else 1

/-- A lath is retired while no job holds it: LATHDEF and DEFSIG change. -/
def State.spareForLath (s : State) (n : Nat) : State :=
  let r := s.remap
  let gone := (List.range 104).filter fun i => r.lathdef.toNat.testBit i && lathCode i == lathCode n
  if r.lathdef.toNat.testBit n then s
  else if gone.length ≥ lathSpares (lathCode n) then
    s.exhausted ((s.lathAt n).slot.toList.map fun k => (s.job k).part) none
  else if (s.lathAt n).slot.isSome then s
  else s.retireLath n

/-- A row of DRAM is repaired at an idle point of every partition granted its frame; no table changes. -/
def State.spareForRow (s : State) (frame : Nat) : State :=
  let ps := s.partsWith fun x => decide (x.dbase ≤ frame) && decide (frame < x.dbase + x.dsize)
  if ps.any fun p => (s.part p).bents.any fun b => !s.bentIdle b then s else s.spareDone frame

def spareInsertion (u : SpareUnit) (owner n : Nat) (s : State) : State :=
  let r := s.remap
  if !s.boot.rdy then s
  else match u with
    | .bay => if owner ≥ 8 || n ≥ 9 then s else
        s.skipUnit owner n (bayPlaces (Tab.get 0xF r.bayskip owner)) fun l r => { r with bayskip := Tab.put r.bayskip owner (BitVec.ofNat 4 (l.headD 15).toNat) }
    | .bank => if owner ≥ 64 || n ≥ 104 then s else
        s.skipUnit (owner / 8) n (skipList r.bankskip owner).toList fun l r => { r with bankskip := Tab.put r.bankskip owner (skipVec 8 l) }
    | .column => if owner ≥ 8 || n ≥ 272 then s else
        s.skipUnit owner n (skipList r.colskip owner).toList fun l r => { r with colskip := Tab.put r.colskip owner (skipVec 16 l) }
    | .planeRow => if owner ≥ 8 || n ≥ 1056 then s else
        s.skipUnit owner n (skipList r.rowskip owner).toList fun l r => { r with rowskip := Tab.put r.rowskip owner (skipVec 32 l) }
    | .slice => if n ≥ 32 then s else s.spareForSlice n
    | .jointer => if n ≥ 96 then s else s.spareForJointer n
    | .lath => if n ≥ 104 then s else s.spareForLath n
    | .dramRow => s.spareForRow n

/-- SPARE_INSERTION (R373): `owner` is the bent, or the logical bay of a bank; `n` is the physical bay, bank, column, plane-row or lath, the
logical slice or jointer, or the DRAM frame of a row. -/
def execSpareInsertion (unit : SpareUnit) (owner n : Nat) (s : State) : Host.Outcome State Fault Refusal := .next (spareInsertion unit owner n s)

def sliceCopyComplete (n : Nat) (s : State) : State :=
  match s.remap.copying.find? fun e => e.1 = n with
  | some (_, p) =>
    let r := s.remap
    { s with remap := { r with
        copying := r.copying.filter fun e => e.1 != n, slicemap := Tab.put r.slicemap n (BitVec.ofNat 6 p), retired := (0, s.sliceOf n) :: r.retired } }.spareDone n
  | none => s

/-- SLICE_COPY_COMPLETE (R373). -/
def execSliceCopyComplete (slice : Nat) (s : State) : Host.Outcome State Fault Refusal := .next (sliceCopyComplete slice s)

/-! ### Latent-fault self-tests (R466, R467) -/

def testCode : SelfTest → Nat
  | .lbistBay => 0
  | .lbistTruss => 1
  | .lbistJointer => 2
  | .mbistBank => 3
  | .mbistAcc => 4
  | .mbistSlice => 5
  | .mbistLineBuffer => 6
  | .columnScan => 7
  | .comparator => 8
  | .eccSram => 9
  | .eccDram => 10
  | .paritySweep => 11
  | .monitorClock => 12
  | .monitorVoltage => 13
  | .loopAphy => 14
  | .loopEther => 15
  | .loopPcie => 16
  | .crossCheck => 17

/-- Partitions that the unit of a test serves. A bay is named 0 to 63, a bank by bay × 96 + bank; a camera port 0 to 23, a lidar port 0 to 7. -/
def State.testParts (s : State) (t : SelfTest) (u : Nat) : List Nat :=
  let portParts (src : Nat) : List Nat := ((s.chains.filter fun (_, x) => x.src == src && x.port == u && x.d != 0).map fun (_, x) => chainPart x).eraseDups
  match t with
  | .lbistBay | .mbistAcc => s.bentParts (u / 8)
  | .mbistBank => s.bentParts (u / 96 / 8)
  | .lbistTruss | .columnScan => s.bentParts u
  | .mbistSlice => s.partsWith fun x => x.hasSlice u
  | .lbistJointer | .mbistLineBuffer => s.jointerParts u
  | .paritySweep => (s.lathAt u).slot.toList.map fun k => (s.job k).part
  | .loopAphy => portParts 0
  | .loopEther => portParts 1
  | _ => s.partsWith fun _ => true

/-- Step 5 of the boot: the boot-time tests are the SELF_TEST steps that run before the clocks do (log 55). -/
def State.atBoot (s : State) : Bool := s.clock == 0 && s.clk.time == 0

/-- The test may run now: at an idle point of its unit, or beside jobs for a live test. The test of the PCI Express link runs at boot alone, and the
cross-check of the time base only live. -/
def State.testable (s : State) (t : SelfTest) (u : Nat) : Bool :=
  let noChain (src : Nat) : Bool := !s.chains.any fun (_, x) => chainEn x && x.src == src && x.port == u
  match t with
  | .lbistBay | .mbistAcc => s.bentIdle (u / 8)
  | .mbistBank => s.bentIdle (u / 96 / 8)
  | .lbistTruss | .columnScan => s.bentIdle u
  | .mbistSlice => (s.partsWith fun x => x.hasSlice u).isEmpty
  | .lbistJointer | .mbistLineBuffer => s.jointerIdle u
  | .loopAphy => noChain 0
  | .loopEther => noChain 1
  | .loopPcie => s.atBoot
  | .crossCheck => !s.atBoot
  | _ => true

def State.noteTest (s : State) (t : SelfTest) (u : Nat) : State :=
  { s with remap := { s.remap with tested := (testCode t, u, s.clk.time) :: s.remap.tested.filter fun e => !(e.1 == testCode t && e.2.1 == u) } }

/-- The partitions of the die that sensor `i` watches (R464, R474): VDDW serves the west wing and VDDE the east; the other rails and the clocks
serve the front die (log 54). -/
def State.dieParts (s : State) (i : Nat) : List Nat :=
  if i = 25 then s.partsWith fun x => x.bents.any fun b => decide (b < 4)
  else if i = 26 then s.partsWith fun x => x.bents.any fun b => decide (b ≥ 4)
  else List.range 8

/-- The test covers a unit that R373 names no spare for. -/
def spareless : SelfTest → Bool
  | .comparator | .eccSram | .eccDram | .monitorClock | .monitorVoltage | .loopAphy | .loopEther | .loopPcie | .crossCheck => true
  | _ => false

/-- A failed unit is retired and replaced; a failed live test of a checking path raises its class fault, and a port or time base that fails, which has no
spare, SPARE_EXHAUSTED. A truss that fails gives up a column or a plane-row, and which one is left free. At boot the failure of a unit without a spare
stops the boot (log 55). -/
def State.testFailed (s : State) (t : SelfTest) (u : Nat) : State :=
  let s := s.fmEvent 5 u
  let skips := bayList (Tab.get 0xF s.remap.bayskip (u / 8))
  if s.atBoot && spareless t then bootFails 4 0x06 s
  else match t with
  | .lbistBay | .mbistAcc => spareInsertion .bay (u / 8) (physical skips (u % 8)) s
  | .mbistBank => spareInsertion .bank (u / 96) (physical (skipped (skipList s.remap.bankskip (u / 96))) (u % 96)) s
  | .lbistTruss | .columnScan =>
    let (v, s) := s.fresh
    if v.toNat.testBit 0 then spareInsertion .planeRow u (physical (skipped (skipList s.remap.rowskip u)) (v.toNat / 2 % 1024)) s
    else spareInsertion .column u (physical (skipped (skipList s.remap.colskip u)) (v.toNat / 2 % 256)) s
  | .mbistSlice => s.spareForSlice u
  | .lbistJointer | .mbistLineBuffer => s.spareForJointer u
  | .paritySweep =>
    let s := s.spareForLath u
    if s.remap.lathdef.toNat.testBit u || u ≥ 104 then s else { s with remap := { s.remap with failing := u :: s.remap.failing.filter fun k => k != u } }
  | .comparator => s.discardAll 0xC4
  | .eccSram => s.discardAll 0xC0
  | .eccDram => s.discardAll 0xC1
  | .monitorClock => s.discardEach (s.dieParts u) 0xC6
  | .monitorVoltage => s.discardEach (s.dieParts u) 0xC7
  | .loopAphy | .loopEther | .loopPcie | .crossCheck => s.exhausted (s.testParts t u) none

def selfTest (t : SelfTest) (u : Nat) (pass : Bool) (s : State) : State :=
  if !s.boot.rdy || !s.testable t u then s else if pass then s.noteTest t u else (s.noteTest t u).testFailed t u

/-- SELF_TEST (R466, R467). -/
def execSelfTest (test : SelfTest) (unit : Nat) (pass : Bool) (s : State) : Host.Outcome State Fault Refusal := .next (selfTest test unit pass s)

/-- Device time of the latest test of a unit; none since boot counts from 0. -/
def State.lastTest (s : State) (t : SelfTest) (u : Nat) : Nat :=
  match s.remap.tested.find? fun e => e.1 == testCode t && e.2.1 == u with
  | some e => e.2.2.toNat
  | none => 0

/-- Where a unit's last idle moment stands: the kind and the number of what holds it. -/
def idleKey : SelfTest → Nat → Nat
  | .lbistBay, u | .mbistAcc, u => u / 8
  | .mbistBank, u => u / 96 / 8
  | .lbistJointer, u | .mbistLineBuffer, u => 256 + u
  | .loopAphy, u => 512 + u
  | .loopEther, u => 768 + u
  | .mbistSlice, u => 1024 + u
  | _, u => u

/-- The unit has not been tested, and it has not been idle, for the interval of a partition that uses it. -/
def unitNotTested (t : SelfTest) (u : Nat) (s : State) : State :=
  let since := max (s.lastTest t u) (Tab.get 0 s.remap.idleAt (idleKey t u)).toNat
  let late := (s.testParts t u).any fun p => decide (s.clk.time.toNat ≥ since + (s.part p).testint * 1000000000)
  if s.boot.rdy && late && !s.testable t u then (s.noteTest t u).fmEvent 6 u else s

/-- UNIT_NOT_TESTED (R467). -/
def execUnitNotTested (test : SelfTest) (unit : Nat) (s : State) : Host.Outcome State Fault Refusal := .next (unitNotTested test unit s)

/-- CONDITION_CLEARED (R465, R475). -/
def execConditionCleared (part : Nat) (s : State) : Host.Outcome State Fault Refusal :=
  .next (if (s.part part).blocked then (s.modPart part fun x => { x with blocked := false }).fmEvent 14 part else s)

end Sys2Proof.Machine
end

