-- ==== Sys2Proof/Machine/Foreman.lean ====
section
/-! DEFINITION. The Foreman: its commands, the live update of the Framer, sensors and trips, and SPDM (spec/26_foreman.md R468 to R476,
spec/25_safety.md R461, R463, R467). -/

namespace Sys2Proof.Machine

/-! ### Commands (R468, R469) -/

def State.modForeman (s : State) (f : Foreman → Foreman) : State := { s with foreman := f s.foreman }

/-- The command completes: RES, and MSI-X vector 1. -/
def endFcmd (res : Nat) (s : State) : State :=
  { s.modForeman fun f => { f with busy := false, res := BitVec.ofNat 8 res } with pfmsix := 1 :: s.pfmsix }

def State.fruns (s : State) (c : Nat) : Bool := s.foreman.busy && s.foreman.cmd.toNat == c
def State.fop (s : State) (i : Nat) : Nat := (nth 0 s.foreman.ops i).toNat

/-- STAGE writes the image into the target's inactive slot, empties it where a check fails, and keeps STG for the Framer's. -/
def stage (s : State) : State :=
  let t := s.fop 0
  let n := s.fop 2
  if !s.fruns 1 then s
  else if t > 1 || n > 2097152 then endFcmd 2 s
  else
    let l := s.readBytes (hostAddr (s.fop 1)) n
    let f := s.foreman
    let ok := fwGood t (f.svnMin t) l
    let f := f.setSlot t (!f.runs t) (if ok then l else [])
    endFcmd (if ok then 0 else 4) { s with foreman := if t = 1 then { f with stg := ok } else f }

/-- STAGE (R469, R470). -/
def execStage (s : State) : Host.Outcome State Fault Refusal := .next (stage s)

/-- ACTIVATE for the next boot: the boot slot is the one that does not run. STG, which is of the Framer's slot, keeps at the Foreman's (log 104). -/
def activate (s : State) : State :=
  let t := s.fop 0
  if !s.fruns 2 || s.fop 1 = 1 then s
  else if t > 1 || s.fop 1 > 1 then endFcmd 2 s
  else endFcmd 0 (s.modForeman fun f => if t = 0 then { f with fmNext := !f.fma } else { f with frNext := !f.fra, stg := false })

/-- ACTIVATE (R469). -/
def execActivate (s : State) : Host.Outcome State Fault Refusal := .next (activate s)

/-- No flip is under way: every job that has been placed runs, or has ended (R471). -/
def State.quiet_ (s : State) : Bool := !s.jobs.any fun (_, j) => j.state == .load && !j.ended

/-- Steps 2 and 3 of R471: the handover block stands, and the staged image is started. -/
def startStaged (s : State) : State :=
  { s with foreman := { s.foreman with started := true, step3At := s.clk.time, hbcnt := 0, quietTold := false } }

/-- A live update up to step 3 of R471: the window opens, the Framer finishes its flips and does nothing more, and the staged image is started; from
then on nothing changes until the commit or the roll-back. -/
def activateLive (s : State) : State :=
  let f := s.foreman
  let img := f.slot 1 (!f.fra)
  let h := fwHver (f.slot 1 f.fra)
  if !s.fruns 2 || s.fop 1 ≠ 1 || f.started then s
  else if f.hov then (if s.quiet_ then startStaged s else s)
  else if s.fop 0 ≠ 1 || !f.stg || !(s.partsWith Part.det).isEmpty then endFcmd 2 s
  else if h < fwHvMin img || h > fwHvMax img then endFcmd 4 s
  else
    let s := { s with foreman := { f with hov := true, handover := some s.clock } }
    if s.quiet_ then startStaged s else s

/-- ACTIVATE_LIVE (R471). -/
def execActivateLive (s : State) : Host.Outcome State Fault Refusal := .next (activateLive s)

/-! ### The handover window (R472, R473) -/

/-- A time that the Framer counts from, moved past the window that opened at `h`. -/
def pastWindow (h now t : Nat) : Nat := t + (now - max h t)

/-- The window ends: the time spent in it is not counted, and waiting function resets, registrations and chain checks take effect. -/
def endWindow (s : State) : State :=
  match s.foreman.handover with
  | none => s
  | some h =>
    let go := pastWindow h s.clock
    let job (e : Nat × Job) : Nat × Job :=
      (e.1, { e.2 with readyAt := go e.2.readyAt, ranFrom := go e.2.ranFrom, timeUp := e.2.timeUp.map go })
    let fault (f : PageFault) : PageFault := if f.mig then f else { f with since := go f.since }
    let part (e : Nat × Part) : Nat × Part := (e.1, { e.2 with faults := e.2.faults.map fault })
    let f := s.foreman
    let s := { s with foreman := { f with hov := false, stg := false, handover := none, started := false }, jobs := s.jobs.map job, parts := s.parts.map part }
    let s := (s.partsWith fun x => x.flrAsked).foldl (fun s p => flrDone p s) s
    let waits := s.parts.flatMap fun (p, x) => (x.queues.filter fun (_, q) => q.next.isSome).map fun (q, _) => (p, q)
    let s := waits.foldl (fun s w => queueIdle w.1 w.2 s) s
    s.chains.foldl (fun s (k, c) => match c.wanted with | some p => chainEnable p k s | none => s) s

/-- Roll-back: the running slot's image starts again. -/
def rollBack (s : State) : State :=
  endFcmd 5 ((endWindow { s with foreman := { s.foreman with hbcnt := 0, lastBeat := s.clk.time } }).fmEvent 12 0)

/-- More than 50 ms have passed since step 3. -/
def Foreman.beatLate (f : Foreman) (now : Word) : Bool := decide (now.toNat > f.step3At.toNat + 50000000)

/-- A heartbeat counts; the first one of a staged image commits the update, unless it comes too late. -/
def heartbeat (s : State) : State :=
  if !s.boot.rdy then s
  else
    let beat (s : State) : State := s.modForeman fun f => { f with hbcnt := f.hbcnt + 1, lastBeat := s.clk.time, quietTold := false }
    let f := s.foreman
    if !f.started then beat s
    else if f.beatLate s.clk.time then rollBack s
    else
      let img := f.slot 1 (!f.fra)
      let f := { f.raiseSvn 1 img with fra := !f.fra, frver := BitVec.ofNat 32 (fwVersion img) }
      endFcmd 0 ((endWindow (beat { s with foreman := f })).fmEvent 11 0)

/-- FRAMER_HEARTBEAT (R472). -/
def execFramerHeartbeat (s : State) : Host.Outcome State Fault Refusal := .next (heartbeat s)

/-- No heartbeat within 50 ms of step 3: the running slot's image starts again. -/
def updateRollback (s : State) : State := if s.foreman.started && s.foreman.beatLate s.clk.time then rollBack s else s

/-- UPDATE_ROLLBACK (R472). -/
def execUpdateRollback (s : State) : Host.Outcome State Fault Refusal := .next (updateRollback s)

def framerSilent (s : State) : State :=
  let f := s.foreman
  if !s.boot.rdy || f.hov || f.quietTold || f.hbcnt = 0 || s.clk.time.toNat ≤ f.lastBeat.toNat + 10000000 then s
  else { s with foreman := { f with quietTold := true } }.fmEvent 13 0

/-- FRAMER_SILENT (R472). -/
def execFramerSilent (s : State) : Host.Outcome State Fault Refusal := .next (framerSilent s)

/-! ### Log, test interval and event ring (R461, R463, R467, R475) -/

/-- MODE 3, a reserved bit, LOGN above 12, or a ring that does not lie within the partition's DRAM. -/
def logBad (x : Part) (v : Word) : Bool :=
  let n := bits v 7 4
  let first := bits v 63 16 * 4096
  bits v 1 0 == 3 || bits v 15 8 != 0 || decide (n > 12) ||
  decide (first < x.dbase * 65536) || decide (first + 16 * 2 ^ (n + 8) > (x.dbase + x.dsize) * 65536)

/-- A host write clears OVR and leaves FRZ; WPTR and RPTR keep (log 56). -/
def Part.setLog (x : Part) (v : Word) : Part := { x with logw0 := (v &&& ~~~ (0xC : Word)) ||| (x.logw0 &&& 8), stuck := [] }

def logdesc (s : State) : State :=
  let p := s.fop 0
  let v := nth 0 s.foreman.ops 1
  if !s.fruns 3 then s
  else if p > 7 || bit (s.part p).logw0 3 || logBad (s.part p) v then endFcmd 2 s
  else endFcmd 0 (s.modPart p fun x => x.setLog v)

/-- LOGDESC (R461, R469). -/
def execLogdesc (s : State) : Host.Outcome State Fault Refusal := .next (logdesc s)

/-- The freeze ends, and REPLAY_MISMATCH is raised in the sequencer of logical bay 0 of the entry's job. -/
def logrel (s : State) : State :=
  let p := s.fop 0
  if !s.fruns 4 then s
  else if p > 7 then endFcmd 2 s
  else match (s.part p).frozen with
    | none => endFcmd 0 s
    | some n =>
      let s := s.modPart p fun x => { x with frozen := none, stuck := [], logw0 := x.logw0 &&& ~~~ (8 : Word) }
      let s := match (s.job n).bays with
        | b :: _ => if (s.bay b).slot == some n && (s.bay b).live then s.modBay b fun y => y.addPend ⟨s.clock, 7, { cause := 0x63 }⟩ else s
        | [] => s
      endFcmd 0 s

/-- LOGREL (R463, R469). -/
def execLogrel (s : State) : Host.Outcome State Fault Refusal := .next (logrel s)

def testintCmd (s : State) : State :=
  let p := s.fop 0
  let n := s.fop 1
  if !s.fruns 5 then s
  else if p > 7 || n = 0 || n > 3600 then endFcmd 2 s
  else endFcmd 0 (s.modPart p fun x => { x with testint := n })

/-- TESTINT (R467, R469). -/
def execTestint (s : State) : Host.Outcome State Fault Refusal := .next (testintCmd s)

def evring (s : State) : State :=
  let a := s.fop 0
  let n := s.fop 1
  if !s.fruns 6 then s
  else if a % 4096 ≠ 0 || n < 4 || n > 12 then endFcmd 2 s
  else endFcmd 0 (s.modForeman fun f => { f with evbase := word a, evlog := n, evhead := 0, evtail := 0 })

/-- EVRING (R469, R475). -/
def execEvring (s : State) : Host.Outcome State Fault Refusal := .next (evring s)

/-! ### Sensors (R474) -/

/-- Nominal reading of a rail, in mV. -/
def railNominal (i : Nat) : Int := nth 0 [750, 700, 700, 800, 500, 900] (i - 24)

/-- The reading lies beyond a limit: the trip limit, or else the warning limit. -/
def sensorBeyond (i : Nat) (trip : Bool) (v : Int) : Bool :=
  if i < 24 then decide (v > if trip then 1024 else 920)
  else if i < 30 then
    let n := railNominal i
    decide ((v - n).natAbs * 100 > (if trip then 5 else 3) * n.natAbs)
  else if i < 33 then decide (v.natAbs > if trip then 100 else 50)
  else !trip && decide (v > 3000)

/-- SENS of a reading: 2 while a trip that has been raised still stands, 1 beyond a warning limit. -/
def sensorStatus (i : Nat) (tripped : Bool) (v : Int) : Nat := if tripped && sensorBeyond i true v then 2 else if sensorBeyond i false v then 1 else 0

/-- Sample one sensor: the reading is free. A warning is logged when it begins (log 57). -/
def sampleOne (i : Nat) (s : State) : State :=
  let (r, s) := s.fresh
  let v := sgn 16 r.toNat
  let f := s.foreman
  let k := sensorStatus i (f.tripped.contains i) v
  let was := (Tab.get 0 f.sens i).toNat / 65536
  let s := { s with foreman := { f with
    sens := Tab.set 0 f.sens i (BitVec.ofNat 18 (r.toNat % 65536 + k * 65536)), tripped := if k = 2 then f.tripped else f.tripped.filter fun j => j != i } }
  if k = 1 && was = 0 then s.fmEvent 9 i else s

def sensorSample (s : State) : State :=
  if s.boot.stage = 0 || s.clk.time.toNat < s.foreman.lastSample.toNat + 100000 then s
  else (List.range 34).foldl (fun s i => sampleOne i s) (s.modForeman fun f => { f with lastSample := s.clk.time })

/-- SENSOR_SAMPLE (R474). -/
def execSensorSample (s : State) : Host.Outcome State Fault Refusal := .next (sensorSample s)

/-- A trip, whose condition has held for its time: it is logged, and acts as R464 sets out. -/
def State.trip (s : State) (i cause : Nat) : State :=
  ((s.modForeman fun f => { f with tripped := i :: f.tripped.filter fun j => j != i }).fmEvent 9 i).discardEach (s.dieParts i) cause

/-- THERMAL_TRIP (R474, R464): every partition. -/
def execThermalTrip (sensor : Nat) (s : State) : Host.Outcome State Fault Refusal :=
  .next (if sensor < 24 then s.trip sensor 0xC8 else s)

/-- VOLTAGE_MONITOR (R474, R464). -/
def execVoltageMonitor (sensor : Nat) (s : State) : Host.Outcome State Fault Refusal :=
  .next (if 24 ≤ sensor ∧ sensor < 30 then s.trip sensor 0xC7 else s)

/-- CLOCK_MONITOR (R474, R464). -/
def execClockMonitor (sensor : Nat) (s : State) : Host.Outcome State Fault Refusal :=
  .next (if 30 ≤ sensor ∧ sensor < 33 then s.trip sensor 0xC6 else s)

/-! ### Data Object Exchange and SPDM (R442, R476) -/

/-- Answer a request, once the Foreman runs. -/
def State.answer (s : State) (n : Nat) (ops : List Nat) (body : List Byte) : State :=
  if s.boot.stage = 0 then s else s.tell 5 (Config.spdmHead n ops ++ body ++ Config.spdmTail n ops)

/-- DOE_DISCOVERY (R442). -/
def execDoeDiscovery (s : State) : Host.Outcome State Fault Refusal := .next (s.answer 0 [] [])

/-- GET_VERSION (R476): 1.2 and 1.3. -/
def execGetVersion (s : State) : Host.Outcome State Fault Refusal := .next (s.answer 1 [] [0x12, 0x13])

/-- GET_CAPABILITIES (R476). -/
def execGetCapabilities (s : State) : Host.Outcome State Fault Refusal := .next (s.answer 2 [] [])

/-- The algorithms that the responder selects: the bits of ECDSA P-384 and of SHA-384 in SPDM's fields (log 47). -/
def spdmAlgorithms : List Byte := natBytes 4 0x80 ++ natBytes 4 0x02

/-- NEGOTIATE_ALGORITHMS (R476). -/
def execNegotiateAlgorithms (s : State) : Host.Outcome State Fault Refusal := .next (s.answer 3 [] spdmAlgorithms)

/-- GET_DIGESTS (R476): the digest of slot 0's certificate chain. -/
def execGetDigests (s : State) : Host.Outcome State Fault Refusal := .next (s.answer 4 [] (sha384 Config.certChain))

/-- GET_CERTIFICATE (R476). -/
def execGetCertificate (off len : Nat) (s : State) : Host.Outcome State Fault Refusal :=
  .next (s.answer 5 [off, len] ((Config.certChain.drop off).take len))

/-- CHALLENGE (R476): the digest of slot 0's certificate chain, and the signature over the nonce. -/
def execChallenge (nonce : Nat) (s : State) : Host.Outcome State Fault Refusal := .next (s.answer 6 [nonce] (sha384 Config.certChain))

/-- The bytes of the remap tables and DEFSIG. -/
def Remap.image (r : Remap) : List Byte :=
  let list {k : Nat} (t : Tab (Vector (BitVec 11) k)) : List Byte := t.flatMap fun (u, l) => natBytes 2 u ++ l.toList.flatMap fun v => natBytes 2 v.toNat
  (r.bayskip.flatMap fun (k, v) => natBytes 2 k ++ natBytes 2 v.toNat) ++ list r.bankskip ++ list r.colskip ++ list r.rowskip ++
    (r.slicemap.flatMap fun (k, v) => natBytes 2 k ++ natBytes 2 v.toNat) ++ (r.jointmap.flatMap fun (k, v) => natBytes 2 k ++ natBytes 2 v.toNat) ++
    natBytes 13 r.lathdef.toNat ++ natBytes 4 r.defsig.toNat

/-- A measurement block: the SHA-384 digest of what it measures, or zeros. -/
def State.measure (s : State) (i : Nat) : List Byte :=
  let f := s.foreman
  match i with
  | 1 => sha384 Config.rom
  | 2 => sha384 (f.slot 0 f.fma)
  | 3 => sha384 (f.slot 1 f.fra)
  | 4 => if f.stg then sha384 (f.slot 1 (!f.fra)) else List.replicate 48 0
  | 5 => sha384 s.remap.image
  | _ => []

/-- GET_MEASUREMENTS (R476). -/
def execGetMeasurements (index nonce : Nat) (s : State) : Host.Outcome State Fault Refusal := .next (s.answer 7 [index, nonce] (s.measure index))

end Sys2Proof.Machine
end

