-- ==== Sys2Proof/Machine/TrussBase.lean ====
section
/-! DEFINITION. What the truss's commands share: parameter sets, regions, bank tensors, row writes, promotion and the state that a command
will find (spec/10_truss.md R253 to R270). -/

namespace Sys2Proof.Machine

/-! ### The matrix parameter set (R257, R275) -/

def TrussCmd.w (c : TrussCmd) (i : Nat) : Word := nth 0 c.ps i
def TrussCmd.h (c : TrussCmd) (i : Nat) : Word × Word := (nth 0 c.hs (2 * i), nth 0 c.hs (2 * i + 1))
def TrussCmd.afmt (c : TrussCmd) : Nat := bits (c.w 0) 9 4
def TrussCmd.bfmt (c : TrussCmd) : Nat := bits (c.w 1) 9 4
def TrussCmd.prec (c : TrussCmd) : Nat := bits (c.w 1) 12 10
def TrussCmd.m (c : TrussCmd) : Nat := bits (c.w 3) 9 0
def TrussCmd.n (c : TrussCmd) : Nat := bits (c.w 3) 18 10
def TrussCmd.k (c : TrussCmd) : Nat := bits (c.w 3) 50 19
def TrussCmd.ixben (c : TrussCmd) : Bool := bit (c.w 4) 8
def TrussCmd.bmen (c : TrussCmd) : Bool := bit (c.w 4) 13
def TrussCmd.bs (c : TrussCmd) : Nat := if bit (c.w 4) 14 then 32 else 16
def TrussCmd.z (c : TrussCmd) : Nat := bits (c.w 5) 3 0
def TrussCmd.intv (c : TrussCmd) : Nat := bits (c.w 5) 8 4
def TrussCmd.wmask (c : TrussCmd) : BitVec 4 := BitVec.ofNat 4 (bits (c.w 5) 12 9)
def TrussCmd.keep (c : TrussCmd) : Bool := bit (c.w 5) 13
def TrussCmd.tbl (c : TrussCmd) : Nat := bits (c.w 6) 6 3
def TrussCmd.dz (c : TrussCmd) : Nat := bits (c.w 6) 26 23
def TrussCmd.mapn (c : TrussCmd) : Bool := bit (c.w 6) 27
def TrussCmd.gdir (c : TrussCmd) : Bool := bit (c.w 6) 28
def TrussCmd.korg (c : TrussCmd) : Nat := bits (c.w 7) 31 0
def TrussCmd.norg (c : TrussCmd) : Nat := bits (c.w 7) 63 32
def TrussCmd.gather (c : TrussCmd) : Bool := c.f.toNat.testBit 0
def TrussCmd.split (c : TrussCmd) : Bool := c.f.toNat.testBit 1
def TrussCmd.shadow (c : TrussCmd) : Bool := c.f.toNat.testBit 2
def TrussCmd.sparse (c : TrussCmd) : Bool := c.f.toNat.testBit 3
def TrussCmd.accum (c : TrussCmd) : Bool := c.f.toNat.testBit 4

def TrussCmd.isMma (c : TrussCmd) : Bool :=
  match c.op with
  | .mma _ => true
  | _ => false

/-- Positions of the handles in `TrussCmd.hs`. -/
def hAH : Nat := 0
def hBH : Nat := 1
def hSAH : Nat := 2
def hSBH : Nat := 3
def hIXAH : Nat := 4
def hIXBH : Nat := 5
def hBMH : Nat := 6
def hSIGH : Nat := 7
def hMAPH : Nat := 8
def hIXOH : Nat := 9
def hREPH : Nat := 10
def hHPLANE : Nat := 11

def parM (y : Bay) (m i : Nat) : Word := Tab.get 0 y.par (512 + m * 32 + i)
def parHf (y : Bay) (n i : Nat) : Word := Tab.get 0 y.par (1536 + n * 32 + i)

/-- A command with everything that it reads at issue (R189, R257). -/
def trussCmd (b : Nat) (op : TrussOp) (m : Nat) (f : BitVec 5) (ps : List Nat) (s : State) : TrussCmd :=
  let y := s.bay b
  let w (i : Nat) : Word := parM y m i
  let h (n : Nat) : List Word := [(s.handleWords b n).1, (s.handleWords b n).2]
  let hf := bits (w 6) 2 0
  { op := op, f := f, ps := (List.range 8).map w
    hs := h (bits (w 0) 3 0) ++ h (bits (w 1) 3 0) ++ h (bits (w 2) 3 0) ++ h (bits (w 2) 7 4) ++ h (bits (w 4) 3 0) ++ h (bits (w 4) 7 4) ++
      h (bits (w 4) 12 9) ++ h (bits (w 6) 10 7) ++ h (bits (w 6) 14 11) ++ h (bits (w 6) 18 15) ++ h (bits (w 6) 22 19) ++
      h (bits (parHf y hf 2) 3 0)
    zs := [parZ y (bits (w 5) 3 0), parZ y (bits (w 6) 26 23)], hf := [parHf y hf 0, parHf y hf 1, parHf y hf 2]
    push := ps, pc := s.pc, rows := bits (w 3) 9 0 }

/-- Bits of a set's words that are reserved. -/
def reservedFrom : Nat → Nat
  | 0 => 10
  | 1 => 13
  | 2 => 8
  | 3 => 51
  | 4 => 15
  | 5 => 14
  | 6 => 29
  | _ => 64

/-- The words that a command uses (R257, R275). -/
def TrussCmd.uses (c : TrussCmd) : List Nat :=
  match c.op with
  | .loadb => [1, 2, 3, 4, 7]
  | .mma _ => [0, 1, 2, 3, 4, 5, 7] ++ (if c.gather then [6] else [])
  | .sign => [0, 3, 6]
  | .bucket => [3, 6]
  | .reps r => if r = 0 then [3, 6] else [0, 3, 6]
  | .scat => [3, 5, 6]
  | .mgrad => [3, 5, 6]
  | .free => []
  | _ => [5]

def TrussCmd.reservedBad (c : TrussCmd) : Bool := c.uses.any fun i => decide ((c.w i).toNat / 2 ^ reservedFrom i ≠ 0)

/-! ### Precision (R259) -/

def planesOf (prec : Nat) : Nat := nth 6 [1, 2, 4, 8, 16, 6] prec
def positionsOf (prec : Nat) : Nat := nth 256 [1024, 512, 256, 128, 64, 256] prec

/-- Integer formats that the truss takes: up to 16 bits. -/
def trussInt (f : Nat) : Bool := isInt f && decide (fmtWidth f ≤ 16)

def bFmtOk (prec f : Nat) : Bool :=
  match prec with
  | 5 => f == 0x12 || f == 0x1B
  | 2 => trussInt f || f == 0x18
  | 3 => (trussInt f && decide (fmtWidth f ≥ 8)) || f == 0x19
  | 4 => (trussInt f && decide (fmtWidth f ≥ 16)) || f == 0x1A
  | _ => decide (prec < 2) && trussInt f

def aFmtOk (prec bf af : Nat) : Bool :=
  if prec = 5 then (bf == 0x12 && af == 0x12) || (bf == 0x1B && af == 0x1B)
  else if isBlock bf then af == 0x18 || af == 0x19 || af == 0x1A else trussInt af

/-- K positions of a pass that lie below K. -/
def TrussCmd.kmax (c : TrussCmd) : Nat := min (positionsOf c.prec) (c.k - c.korg)

/-! ### Regions (R187) -/

structure Region where
  base : Nat
  rows : Nat
  cols : Nat
  i32 : Bool
  sbase : Nat
  shd : Bool
deriving DecidableEq, Repr

def regionOf (w : Word) : Except Stop Region :=
  let r : Region := ⟨bits w 17 0, bits w 27 18, bits w 36 28, bit w 37, bits w 55 38, bit w 56⟩
  if bits w 63 57 ≠ 0 then .error (trapC 0x3F)
  else if r.rows = 0 ∨ r.rows > 512 ∨ r.cols = 0 ∨ r.cols > 256 ∨ r.base + r.rows * r.cols > accEntries ∨
      (r.shd = true ∧ r.sbase + r.rows * r.cols > accEntries) then .error (trapC 0x2A)
  else .ok r

/-- Base of the main or of the shadow region. -/
def Region.at (r : Region) (shadow : Bool) : Nat := if shadow then r.sbase else r.base

/-- OPEN of a region, as the truss has it (R267). -/
def Bay.isOpen (y : Bay) (z : Nat) : Bool := y.truss.opens.contains z

def State.setOpen (s : State) (b z : Nat) (v : Bool) : State :=
  s.modBay b fun y => { y with truss := { y.truss with opens := if v then addLine y.truss.opens z else y.truss.opens.filter (· != z) } }

/-- The OPEN bits that differ between two states of the truss. -/
def openChanges (old new : List Nat) : List (Nat × Bool) :=
  (List.range 16).filterMap fun z => if old.contains z == new.contains z then none else some (z, new.contains z)

/-- GETPAR shows the OPEN bits that a completed command has changed (R187, R189). -/
def Bay.showOpen (y : Bay) (l : List (Nat × Bool)) : Bay := l.foldl (fun y (z, v) => y.setPar (2049 + z * 32) (word (b2n v))) y

/-- The partner bay (R19). -/
def State.partner (s : State) (b : Nat) : Nat := s.peerBay b (Nat.xor (s.bay b).index 1)

/-! ### Bank tensors (R258, R277) -/

/-- A tensor that a command reads or writes lies in BANK. -/
def bankView (b : Nat) (h : Word × Word) (slot : Nat) (s : State) : Except Stop View := do
  let v ← s.viewH (s.bayCtx b) h
  guardE (eSpace v.w == 0) (trapT (0x44 + slot) v.tid 0 false)
  return v

/-- A bank tensor whose banks are neither PLANE nor CMP. -/
def plainView (b : Nat) (h : Word × Word) (slot : Nat) (s : State) : Except Stop View := do
  let v ← bankView b h slot s
  v.plainE
  return v

/-- A tensor to write: the handle and the layout allow it. -/
def writeView (b : Nat) (h : Word × Word) (slot : Nat) (s : State) : Except Stop View := do
  let v ← plainView b h slot s
  guardE (!(v.ro || eRo v.w)) (trapT (0x44 + slot) v.tid 0 false)
  return v

/-- Extent of a view's outermost dimension, as R208 bounds it, and of the others. -/
def View.lim (v : View) (d : Nat) : Nat := if d = 0 then min (v.ext.headD 0) (eExt v.w 0 - v.org) else nth 0 v.ext d

/-- Bounds of R258: `n` leading rows of `k` columns lie inside a rank-2 tensor. -/
def View.holds2 (v : View) (slot n k : Nat) : Except Stop Unit :=
  if v.rank ≠ 2 then .error (v.outside slot 0)
  else if n > v.lim 0 then .error (v.outside slot (v.lim 0 * nth 0 v.ext 1 : Nat))
  else if k > v.lim 1 then .error (v.outside slot (v.lim 1 : Nat))
  else .ok ()

/-- `n` elements in row-major order. -/
def View.holds (v : View) (slot n : Nat) : Except Stop Unit :=
  let c := v.lim 0 * (v.ext.drop 1).foldl (· * ·) 1
  if n > c then .error (v.outside slot c) else .ok ()

/-- A bank element whose checks have passed. -/
def State.peek (s : State) (b : Nat) (v : View) (slot : Nat) (x : List Nat) : Nat :=
  match s.placeElem (s.bayCtx b) v slot false spBank x with
  | .ok l => v.elemBits x (s.readSpans (s.bayCtx b) l).1
  | .error _ => 0

def State.peekIndex (s : State) (b : Nat) (v : View) (slot i : Nat) : Nat := s.peek b v slot (v.coordsOf i)

/-- Write a bank element whose checks have passed. -/
def State.poke (s : State) (b : Nat) (v : View) (slot : Nat) (x : List Nat) (val : Nat) : State :=
  match s.placeElem (s.bayCtx b) v slot true spBank x with
  | .ok l => s.writeElem (s.bayCtx b) v x l val
  | .error _ => s

def State.pokeIndex (s : State) (b : Nat) (v : View) (slot i val : Nat) : State := s.poke b v slot (v.coordsOf i) val

/-- An index or bitmap tensor: its format, and at least `n` elements. -/
def vectorView (b : Nat) (h : Word × Word) (fmt n : Nat) (s : State) : Except Stop View := do
  let v ← bankView b h 1 s
  guardE (v.fmt == fmt && !(v.plane || v.cmp)) (trapT 0x26 v.tid 0 false)
  v.holds 1 n
  return v

def State.vector_ (s : State) (b : Nat) (v : View) (n : Nat) : List Nat := (List.range n).map fun i => s.peekIndex b v 1 i

/-! ### Row writes and promotion (R98, R99, R262, R265) -/

def State.modTruss (s : State) (b : Nat) (f : TrussBay → TrussBay) : State := s.modBay b fun y => { y with truss := f y.truss }

/-- A row write enters the bent's queue. -/
def State.rowWrite (s : State) (w : RowWrite) : State :=
  let x := s.bent (w.owner / 8)
  s.setBent (w.owner / 8) { x with writes := x.writes ++ [w] }

/-- Promote one row of the binding: its inner values go into the entries, and are cleared. -/
def promoteRow (b m : Nat) (s : State) : State :=
  let t := (s.bay b).truss
  match t.inner.find? fun x => x.1 = m with
  | none => s
  | some (_, vals) =>
    let far := t.bsplit && decide (m ≥ 256)
    let w : RowWrite :=
      { owner := b, bay := if far then s.partner b else b, id := t.taken
        base := if far then t.bpbase + (m - 256) * t.bpcols else t.bbase + m * t.bcols
        n := vals.length, i32 := t.bi32, wmask := t.bwmask, op := .promote vals t.blg (t.firsts.contains m) }
    (s.rowWrite w).modTruss b fun t => { t with inner := Tab.erase m t.inner, firsts := t.firsts.filter (· != m) }

/-- Promote every pending row, in order; with PEND = 0 nothing awaits promotion (R264, R269). -/
def promoteAll (b : Nat) (s : State) : State :=
  if !(s.bay b).truss.pend then s
  else
    let rows := (s.bay b).truss.inner.map fun x => x.1
    (rows.foldl (fun s m => promoteRow b m s) s).modTruss b fun t => { t with pend := false, passes := 0, firsts := [] }

/-- Drop pending inner values without promoting them. -/
def TrussBay.dropInner (t : TrussBay) : TrussBay := { t with inner := [], firsts := [], pend := false }

/-- The lease ends: pending values are promoted, and a bay with commands asks again (R255). -/
def leaseEnd (b : Nat) (s : State) : State :=
  (promoteAll b s).modTruss b fun t =>
    let again := !t.queue.isEmpty
    { t with held := false, cnt := 0, req := t.req || again, reqAt := if again then s.clock else t.reqAt }

/-! ### The state that a command will find when the truss starts it (R258; log 22) -/

structure Pred where
  pend : Bool
  bz : Nat
  bshd : Bool
  bsplit : Bool
  brows : Nat
  passes : Nat
  cnt : Nat
  /-- a deterministic partition, where windows end the lease and no count does (R256). -/
  det : Bool
  opens : List Nat
  /-- the slab in FRONT: whether it has a bitmap. -/
  bm : Option Bool
deriving DecidableEq, Repr

def TrussBay.frontSlab (t : TrussBay) : Option Slab :=
  if t.front then (if t.valid1 then some t.slab1 else none) else (if t.valid0 then some t.slab0 else none)

def Bay.pred0 (y : Bay) : Pred :=
  let t := y.truss
  { pend := t.pend, bz := t.bz.toNat, bshd := t.bshd, bsplit := t.bsplit, brows := t.brows, passes := t.passes.toNat, cnt := t.cnt, det := y.det,
    opens := t.opens, bm := t.frontSlab.map fun x => x.bitmap }

/-- A promotion of all rows, where something awaits it. -/
def Pred.clear (p : Pred) : Pred := if p.pend then { p with pend := false, passes := 0 } else p

def Pred.close (p : Pred) (z : Nat) : Pred := { p with opens := p.opens.filter (· != z) }

/-- What a command in the queue does to it. -/
def Pred.after (p : Pred) (c : TrussCmd) : Pred :=
  let shadowOfZ := p.pend && p.bz == c.z && p.bshd
  let p := match c.op with
    | .loadb => { p with bm := some c.bm }
    | .mma _ =>
      let same := p.bz == c.z && p.bshd == c.shadow && p.bsplit == c.split && p.brows == c.rows
      let p := if same then p else p.clear
      let p := if c.accum then p else { p with pend := false, passes := 0 }
      let p := { p with bz := c.z, bshd := c.shadow, bsplit := c.split, brows := c.rows, opens := if c.shadow then c.z :: p.opens else p.opens }
      if p.passes + 1 = c.intv then { p with pend := false, passes := 0 }
      else { p with passes := (p.passes + 1) % 16, pend := p.pend || !isBlock c.bfmt }
    | .promo => p.clear
    | .drain => { p.clear with bsplit := false }
    | .zero =>
      let p := if p.pend && p.bz == c.z && p.bshd == c.shadow then { p with pend := false } else p
      if c.shadow then { p with opens := c.z :: p.opens } else p
    | .commit => (if !shadowOfZ then p else if c.keep then p.clear else { p with pend := false }).close c.z
    | .discard => (if shadowOfZ then { p with pend := false } else p).close c.z
    | .free => { p.clear with cnt := 0 }
    | _ => p
  if c.op = .free then p
  else if p.cnt + 1 = 64 ∧ p.det = false then { p.clear with cnt := 0 } else { p with cnt := min 64 (p.cnt + 1) }

def Bay.pred (y : Bay) : Pred := y.truss.queue.foldl Pred.after y.pred0

end Sys2Proof.Machine
end

