-- ==== Sys2Proof/Machine/Signature.lean ====
section
/-! DEFINITION. The signature stage and membership maps: the checks and the effects of TSIGN, TBUCKET, TREPS, TSCAT and TMGRAD
(spec/11_signature.md R275 to R285). -/

namespace Sys2Proof.Machine

/-! ### Hash families (R186, R276) -/

def TrussCmd.hfw (c : TrussCmd) (i : Nat) : Word := nth 0 c.hf i
def TrussCmd.hfStored (c : TrussCmd) : Bool := !bit (c.hfw 0) 0
def TrussCmd.sigK (c : TrussCmd) : Nat := bits (c.hfw 0) 5 1
def TrussCmd.sigL (c : TrussCmd) : Nat := bits (c.hfw 0) 10 6
def TrussCmd.sigBw (c : TrussCmd) : Nat := bits (c.hfw 0) 15 11

/-- Widths of the family, and the reserved bits of the words that the command uses: only TSIGN under a STORED family uses the word that names
the hyperplanes (R186, R258, R278). TBL belongs to the five commands of the stage, and a product with MAPN has none (R283). -/
def TrussCmd.familyCheck (c : TrussCmd) : Except Stop Unit := do
  guardE (bits (c.hfw 0) 63 16 == 0 && (c.op != .sign || !c.hfStored || bits (c.hfw 2) 63 4 == 0)) (trapC 0x3F)
  let k := c.sigK
  guardE (k != 0 && decide (k ≤ 20) && c.sigL != 0 && decide (c.sigL ≤ 16) && c.sigBw != 0 && decide (c.sigBw ≤ k) &&
    (c.isMma || decide (c.tbl < c.sigL))) (trapC 0x2F)

/-- The sign of a hyperplane's position, for a generated family. -/
def generatedNeg (seed : Word) (d t j : Nat) : Bool := bit (crng seed (word (at_ 5 60 + at_ t 16 + j)) (word d)) 0

/-- The hyperplane tensor of a STORED family: signed, in a plane bank, D rows of L·k columns (R276, R278). -/
def planesView (b : Nat) (c : TrussCmd) (s : State) : Except Stop View := do
  let v ← bankView b (c.h hHPLANE) 1 s
  guardE (v.plane && !v.cmp && (v.fmt == 0x01 || v.fmt == 0x02 || v.fmt == 0x03)) (trapT 0x27 v.tid 0 false)
  v.holds2 1 c.k (c.sigL * c.sigK)
  return v

/-- The activation tensor of a signature command. -/
def actView (b : Nat) (c : TrussCmd) (s : State) : Except Stop View := do
  guardE (trussInt c.afmt || c.afmt == 0x12) (trapC 0x27)
  let v ← bankView b (c.h hAH) 0 s
  guardE (v.fmt == c.afmt && !(v.plane || v.cmp)) (trapT 0x26 v.tid 0 false)
  v.holds2 0 c.m c.k
  return v

/-- An activation element's value (R279). -/
def aval (f x : Nat) : Int := if f = 0x12 then lgTerm (x % 64) else intVal f x

/-! ### Membership maps (R280) -/

def mapView (b : Nat) (c : TrussCmd) (write : Bool) (s : State) : Except Stop View := do
  let v ← if write then writeView b (c.h hMAPH) 3 s else plainView b (c.h hMAPH) 3 s
  guardE (v.fmt == 0x0B) (trapT 0x26 v.tid 0 false)
  v.holds 3 (3 + 3 * c.m)
  return v

/-- A map as read: NB, the rule, and BKT, REP and CNT of the live part. -/
structure SigMap where
  nb : Nat
  rule : Nat
  bkt : List Nat
  rep : List Nat
  cnt : List Nat
deriving DecidableEq, Repr

def readMap (b : Nat) (c : TrussCmd) (v : View) (s : State) : SigMap :=
  let g (i : Nat) := s.peekIndex b v 3 i
  let nb := g 0
  let k := min nb c.m
  ⟨nb, g 2, (List.range c.m).map fun m => g (3 + m), (List.range k).map fun j => g (3 + c.m + j), (List.range k).map fun j => g (3 + 2 * c.m + j)⟩

/-- MAP_RANGE (R278). -/
def mapCheck (b : Nat) (c : TrussCmd) (v : View) (s : State) : Except Stop SigMap := do
  let x := readMap b c v s
  guardE (s.peekIndex b v 3 1 == c.m && x.nb != 0 && decide (x.nb ≤ min c.m (2 ^ c.sigBw)) && (x.bkt.all fun k => decide (k < x.nb)) &&
    (x.rep.all fun r => decide (r < c.m)) && (x.cnt.all (· != 0)) && x.cnt.sum == c.m) (trapT 0x30 v.tid 0 false)
  return x

def rowsOk (m : Nat) : Bool := m != 0 && decide (m ≤ 512)
def colsOk (n : Nat) : Bool := n != 0 && decide (n ≤ 256)

/-! ### The checks at issue (R278) -/

def signCheck (b : Nat) (c : TrussCmd) (s : State) : Except Stop Unit := do
  c.familyCheck
  guardE (rowsOk c.m && c.k != 0) (trapC 0x2A)
  let _ ← actView b c s
  if c.hfStored then (do let _ ← planesView b c s) else .ok ()
  let v ← writeView b (c.h hSIGH) 2 s
  guardE (v.fmt == 0x0C) (trapT 0x26 v.tid 0 false)
  v.holds2 2 c.m c.sigL

def bucketCheck (b : Nat) (c : TrussCmd) (s : State) : Except Stop Unit := do
  c.familyCheck
  guardE (rowsOk c.m) (trapC 0x2A)
  let v ← plainView b (c.h hSIGH) 1 s
  guardE (v.fmt == 0x0C) (trapT 0x26 v.tid 0 false)
  v.holds2 1 c.m (c.tbl + 1)
  let _ ← mapView b c true s

def repsCheck (rule b : Nat) (c : TrussCmd) (s : State) : Except Stop Unit := do
  c.familyCheck
  guardE (rowsOk c.m && (rule == 0 || c.k != 0)) (trapC 0x2A)
  guardE (!(rule == 1 && c.afmt == 0x12)) (trapC 0x31)
  if rule ≠ 0 then (do let _ ← actView b c s) else .ok ()
  let mv ← mapView b c true s
  let x ← mapCheck b c mv s
  let v ← writeView b (c.h hIXOH) 2 s
  guardE (v.fmt == 0x0C) (trapT 0x26 v.tid 0 false)
  v.holds 2 c.m
  if rule = 1 then
    let r ← writeView b (c.h hREPH) 2 s
    guardE (r.fmt == c.afmt) (trapT 0x26 r.tid 0 false)
    r.holds2 2 x.nb c.k
  else .ok ()

/-- Two runs of entries share one. -/
def overlap (a n b m : Nat) : Bool := decide (a < b + m) && decide (b < a + n)

/-- Regions Z and DZ of TSCAT and TMGRAD: `zr` rows are read and `dr` rows are written. -/
def regionsCheck (c : TrussCmd) (opens : List Nat) (zr dr : Nat) : Except Stop (Region × Region) := do
  let z ← regionOf (nth 0 c.zs 0)
  let d ← regionOf (nth 0 c.zs 1)
  guardE (colsOk c.n && decide (zr ≤ z.rows) && decide (dr ≤ d.rows) && decide (c.n ≤ z.cols) && decide (c.n ≤ d.cols) &&
    !overlap z.base (z.rows * z.cols) d.base (d.rows * d.cols)) (trapC 0x2A)
  guardE (z.i32 == d.i32) (trapC 0x29)
  guardE (!opens.contains c.dz) (trapC 0x2D)
  return (z, d)

def scatCheck (b : Nat) (c : TrussCmd) (s : State) : Except Stop Unit := do
  c.familyCheck
  guardE (rowsOk c.m) (trapC 0x2A)
  let v ← mapView b c false s
  let x ← mapCheck b c v s
  let _ ← regionsCheck c (s.bay b).pred.opens x.nb (if c.split then 256 else c.m)
  guardE (!c.split || decide (c.m > 256)) (trapC 0x2E)

def mgradCheck (b : Nat) (c : TrussCmd) (s : State) : Except Stop Unit := do
  c.familyCheck
  guardE (rowsOk c.m) (trapC 0x2A)
  let v ← mapView b c false s
  let x ← mapCheck b c v s
  let (z, _) ← regionsCheck c (s.bay b).pred.opens (if c.gdir then x.nb else c.m) (if c.gdir then c.m else x.nb)
  guardE (x.rule != 0xFFFF && !(c.gdir && x.rule == 1 && z.i32)) (trapC 0x32)

/-! ### TSIGN (R279) -/

/-- One signature: bit j is set where the exact sum is positive. -/
def signature (row : List Int) (neg : Nat → Nat → Bool) (k : Nat) : Nat :=
  ((List.range k).map fun j =>
    let x := ((row.zip (List.range row.length)).map fun (a, d) => if neg d j then -a else a).sum
    if x > 0 then 2 ^ j else 0).sum

def runSign (b : Nat) (c : TrussCmd) (s : State) : Except Stop State := do
  let a ← actView b c s
  let sv ← writeView b (c.h hSIGH) 2 s
  let hp ← if c.hfStored then planesView b c s else .ok a
  let neg (t d j : Nat) : Bool :=
    if c.hfStored then decide (intVal hp.fmt (s.peek b hp 1 [d, t * c.sigK + j]) < 0) else generatedNeg (c.hfw 1) d t j
  let rows := (List.range c.m).map fun m => (List.range c.k).map fun d => aval c.afmt (s.peek b a 0 [m, d])
  let out := (rows.zip (List.range c.m)).flatMap fun (r, m) =>
    (List.range c.sigL).map fun t => (m, t, signature r (neg t) c.sigK)
  return out.foldl (fun s (m, t, x) => s.poke b sv 2 [m, t] x) s

/-! ### TBUCKET (R281) -/

/-- Bucket of each row, in order of first appearance: the keys seen so far, and the buckets. -/
def buckets : List Nat → List Nat → List Nat → List Nat × List Nat
  | [], keys, out => (keys, out)
  | x :: t, keys, out =>
    if keys.contains x then buckets t keys (out ++ [keys.findIdx (· == x)]) else buckets t (keys ++ [x]) (out ++ [keys.length])

/-- Write the elements of a map from `i` on. -/
def pokeFrom (b : Nat) (v : View) (slot : Nat) : Nat → List Nat → State → State
  | _, [], s => s
  | i, x :: t, s => pokeFrom b v slot (i + 1) t (s.pokeIndex b v slot i x)

def padTo (n : Nat) (l : List Nat) : List Nat := l ++ List.replicate (n - l.length) 0

def runBucket (b : Nat) (c : TrussCmd) (s : State) : Except Stop State := do
  let sv ← plainView b (c.h hSIGH) 1 s
  let mv ← mapView b c true s
  let keys := (List.range c.m).map fun m => s.peek b sv 1 [m, c.tbl] % 2 ^ c.sigK / 2 ^ (c.sigK - c.sigBw)
  let (seen, bk) := buckets keys [] []
  let nb := seen.length
  let rep := (List.range nb).map fun j => bk.findIdx (· == j)
  let cnt := (List.range nb).map fun j => (bk.filter (· == j)).length
  return pokeFrom b mv 3 0 ([nb, c.m, 0xFFFF] ++ bk ++ padTo c.m rep ++ padTo c.m cnt) s

/-! ### TREPS (R282) -/

/-- Members of a bucket, in increasing order. -/
def bucketMembers (x : SigMap) (j : Nat) : List Nat := (List.range x.bkt.length).filter fun m => nth 0 x.bkt m = j

/-- The member with the largest norm; ties go to the lowest row. -/
def largestNorm (norm : Nat → Int) : List Nat → Nat
  | [] => 0
  | m :: t => t.foldl (fun a r => if norm r > norm a then r else a) m

/-- A mean in the activation format, and its flags. -/
def meanOf (f : Nat) (sum : Int) (n : Nat) : Nat × BitVec 8 :=
  let q := divNum (Num.ofInt sum) (Num.ofInt n)
  let a := convertNum 0x15 0 0 q.1
  let y := convertNum f 0 0 (decodeNum 0x15 a.1)
  (y.1, q.2 ||| a.2 ||| y.2)

def runReps (rule b : Nat) (c : TrussCmd) (s : State) : Except Stop State := do
  let mv ← mapView b c true s
  let x := readMap b c mv s
  let iv ← writeView b (c.h hIXOH) 2 s
  if rule = 0 then
    let s := pokeFrom b iv 2 0 x.rep s
    return s.pokeIndex b mv 3 2 0
  else
    let a ← actView b c s
    let row (m : Nat) : List Int := (List.range c.k).map fun d => aval c.afmt (s.peek b a 0 [m, d])
    if rule = 2 then
      let reps := (List.range x.nb).map fun j => largestNorm (fun m => ((row m).map fun v => v * v).sum) (bucketMembers x j)
      let s := pokeFrom b mv 3 (3 + c.m) reps (pokeFrom b iv 2 0 reps s)
      return s.pokeIndex b mv 3 2 2
    else
      let rv ← writeView b (c.h hREPH) 2 s
      let out := (List.range x.nb).flatMap fun j =>
        let rs := (bucketMembers x j).map row
        (List.range c.k).map fun d => (j, d, meanOf c.afmt (rs.map fun r => nth 0 r d).sum (nth 1 x.cnt j))
      let s := out.foldl (fun s (j, d, y) => s.poke b rv 2 [j, d] y.1) s
      let s := pokeFrom b iv 2 0 (List.range x.nb) s
      return (s.pokeIndex b mv 3 2 1).orStreamFlags b .M (orAll (out.map fun y => y.2.2.2))

/-! ### TSCAT and TMGRAD (R284, R285) -/

def entryAt (s : State) (b : Nat) (r : Region) (m n : Nat) : Nat := s.rd (accAddr b (r.base + m * r.cols + n)) 4

/-- The partner's region for the rows from 256 on, as it stands when the command starts (R266). -/
def partnerRegion (b z : Nat) (i32 : Bool) (rows cols : Nat) (s : State) : Except Stop Region :=
  let p := s.partner b
  match regionOf (parZ (s.bay p) z) with
  | .error _ => .error (trapC 0x2E)
  | .ok r => if rows ≤ r.rows ∧ cols ≤ r.cols ∧ r.i32 = i32 ∧ (s.bay p).isOpen z = false then .ok r else .error (trapC 0x2E)

def rowBits (b bay : Nat) (c : TrussCmd) (base : Nat) (i32 : Bool) (vals : List Nat) (s : State) : State :=
  s.rowWrite { owner := b, bay := bay, id := (s.bay b).truss.taken, base := base, n := vals.length, i32 := i32, wmask := c.wmask
               op := .bits (vals.map (BitVec.ofNat 32)) }

def runScat (b : Nat) (c : TrussCmd) (s : State) : Except Stop State := do
  let mv ← mapView b c false s
  let x := readMap b c mv s
  let z ← regionOf (nth 0 c.zs 0)
  let d ← regionOf (nth 0 c.zs 1)
  let p ← if c.split then partnerRegion b c.dz d.i32 (c.m - 256) c.n s else .ok d
  let rows := (List.range c.m).map fun m => (m, (List.range c.n).map fun n => entryAt s b z (nth 0 x.bkt m) n)
  let far := s.partner b
  return rows.foldl (fun s (m, vals) =>
    if c.split && decide (m ≥ 256) then rowBits b far c (p.base + (m - 256) * p.cols) d.i32 vals s
    else rowBits b b c (d.base + m * d.cols) d.i32 vals s) s

/-- Add entries one after another, from +0. -/
def sumEntries (i32 : Bool) (l : List Nat) : Nat × BitVec 8 :=
  l.foldl (fun a x => let r := addEntry i32 a.1 x; (r.1, a.2 ||| r.2)) (0, 0)

def runMgrad (b : Nat) (c : TrussCmd) (s : State) : Except Stop State := do
  let mv ← mapView b c false s
  let x := readMap b c mv s
  let z ← regionOf (nth 0 c.zs 0)
  let d ← regionOf (nth 0 c.zs 1)
  let rows : List (List (Nat × BitVec 8)) :=
    if c.gdir then
      (List.range c.m).map fun m =>
        let j := nth 0 x.bkt m
        (List.range c.n).map fun n =>
          let e := entryAt s b z j n
          if x.rule = 1 then
            let q := divNum (decodeNum 0x15 e) (Num.ofInt (nth 1 x.cnt j : Nat))
            let y := convertNum 0x15 0 0 q.1
            (y.1, q.2 ||| y.2)
          else (e, 0)
    else
      (List.range x.nb).map fun j =>
        let ms := bucketMembers x j
        (List.range c.n).map fun n => sumEntries d.i32 (ms.map fun m => entryAt s b z m n)
  let s := s.orStreamFlags b .M (orAll (rows.flatMap fun r => r.map fun y => y.2))
  return (rows.zip (List.range rows.length)).foldl (fun s (r, m) => rowBits b b c (d.base + m * d.cols) d.i32 (r.map fun y => y.1) s) s

end Sys2Proof.Machine
end

