-- ==== Sys2Proof/Machine/Truss.lean ====
section
/-! DEFINITION. The matrix words, and the truss: leases, slabs, passes, promotion, row writes and completions (spec/10_truss.md R253 to
R274). -/

namespace Sys2Proof.Machine

/-! ### Lease windows (R73, R256) -/

/-- A window of the stamp table. -/
structure Window where
  first : Nat
  last : Nat
  bay : Nat
deriving DecidableEq, Repr

def windowOf (l : List Byte) : Window :=
  let x := bytesNat l
  ⟨x % 4096, x / 2 ^ 12 % 4096, x / 2 ^ 27 % 8 * 8 + x / 2 ^ 24 % 8⟩

/-- The windows of a stamp-table record. -/
def windowsOf (l : List Byte) : List Window :=
  (List.range (bytesNat ((l.drop 4).take 4))).map fun i => windowOf ((l.drop (8 + 8 * i)).take 8)

/-- The windows of bay `b`, with their numbers. -/
def State.windows (s : State) (b : Nat) : List (Nat × Window) :=
  let ws := windowsOf (s.jobOf b).stamps
  (ws.zip (List.range ws.length)).filterMap fun (w, i) => if w.bay = (s.bay b).index then some (i, w) else none

/-- The frame and the clock within it (R402). -/
def Part.now (x : Part) : Nat × Nat := (x.fnum.toNat, x.sfcClk.toNat)

/-- The window of the bay that is open now: its frame and number. -/
def State.openWindow (s : State) (b : Nat) : Option (Nat × Nat) :=
  let (f, c) := (s.part (s.bay b).partNo).now
  ((s.windows b).find? fun (_, w) => decide (w.first * 8 ≤ c) && decide (c < (w.last + 1) * 8)).map fun (i, _) => (f, i)

/-- A stamp lies in some window of the bay. -/
def State.stampInWindow (s : State) (b t : Nat) : Bool := (s.windows b).any fun (_, w) => decide (w.first ≤ t) && decide (t ≤ w.last)

/-! ### Checks at issue (R258) -/

def tileCheck (c : TrussCmd) (r : Region) : Except Stop Unit :=
  guardE (rowsOk c.rows && colsOk c.n && c.k != 0 && c.intv != 0 && decide (c.intv ≤ 16) &&
    decide ((if c.split then min 256 c.rows else c.rows) ≤ r.rows) && decide (c.n ≤ r.cols)) (trapC 0x2A)

/-- A scale tensor of an operand: w8, in BANK (R85, R258). -/
def scalesView (b : Nat) (h : Word × Word) (s : State) : Except Stop View := do
  let v ← plainView b h 1 s
  guardE (v.fmt == 0x0A) (trapT 0x26 v.tid 0 false)
  return v

/-- The A tensor of a product and, for a block format, its scales: ceil(K/32) for each of its rows. -/
def aViews (b : Nat) (c : TrussCmd) (s : State) : Except Stop (View × View) := do
  let a ← bankView b (c.h hAH) 0 s
  guardE (a.fmt == c.afmt && !(a.plane || a.cmp)) (trapT 0x26 a.tid 0 false)
  if isBlock c.afmt then
    let q ← scalesView b (c.h hSAH) s
    guardE (q.rank == 2 && nth 0 q.ext 1 == (nth 0 a.ext 1 + 31) / 32 && decide (a.lim 0 ≤ q.lim 0)) (trapT 0x21 q.tid 0 false)
    return (a, q)
  else return (a, a)

/-- The B tensor of a slab and, for a block format, its scales: ceil(K/32) for each column (log 23). -/
def bViews (b : Nat) (c : TrussCmd) (s : State) : Except Stop (View × View) := do
  let v ← bankView b (c.h hBH) 1 s
  guardE (v.fmt == c.bfmt && (v.plane || v.cmp)) (trapT 0x26 v.tid 0 false)
  if isBlock c.bfmt then
    let q ← scalesView b (c.h hSBH) s
    guardE (q.rank == 2 && q.lim 0 == (v.lim 0 + 31) / 32 && decide (nth 0 v.ext 1 ≤ nth 0 q.ext 1)) (trapT 0x21 q.tid 0 false)
    return (v, q)
  else return (v, v)

/-- Rows of A that a product reads: index entries, or 0 to M − 1. -/
def aRows (b : Nat) (c : TrussCmd) (a : View) (s : State) : Except Stop (List Nat) :=
  if c.gather then do
    let v ← vectorView b (c.h hIXAH) 0x0C c.rows s
    let l := s.vector_ b v c.rows
    guardE (l.all fun r => decide (r < a.lim 0)) (trapT 0x2B a.tid 0 false)
    return l
  else do
    guardE (decide (c.rows ≤ a.lim 0)) (a.outside 0 (a.lim 0 * nth 0 a.ext 1 : Nat))
    return List.range c.rows

/-- Columns of B that a slab takes. -/
def bCols (b : Nat) (c : TrussCmd) (v : View) (s : State) : Except Stop (List Nat) :=
  if c.ixben then do
    let x ← vectorView b (c.h hIXBH) 0x0C c.n s
    let l := s.vector_ b x c.n
    guardE (l.all fun r => decide (r < v.lim 1)) (trapT 0x2B v.tid 0 false)
    return l
  else do
    guardE (decide (c.norg + c.n ≤ v.lim 1)) (v.outside 1 (v.lim 1 : Nat))
    return upTo c.norg (c.norg + c.n)

/-- The shape of a map's row count for a product with MAPN (R283). -/
def mapRows (b : Nat) (c : TrussCmd) (s : State) : Except Stop Nat :=
  if c.gather && c.mapn then do
    c.familyCheck
    let v ← mapView b c false s
    let x ← mapCheck b c v s
    return x.nb
  else return c.m

/-- The block bitmap of BMH is large enough for the B tensor as its handle shows it (R208, R261). -/
def bitmapCheck (b : Nat) (c : TrussCmd) (v : View) (s : State) : Except Stop Unit := do
  let x ← bankView b (c.h hBMH) 1 s
  guardE (x.fmt == 0x0A && !(x.plane || x.cmp)) (trapT 0x26 x.tid 0 false)
  let need := (v.lim 0 + c.bs - 1) / c.bs * ((v.lim 1 + c.bs - 1) / c.bs)
  guardE (decide (x.lim 0 * (x.ext.drop 1).foldl (· * ·) 1 * 8 ≥ need)) (trapT 0x2C x.tid 0 false)

def loadbCheck (b : Nat) (c : TrussCmd) (s : State) : Except Stop TrussCmd := do
  guardE (decide (c.prec < 6) && bFmtOk c.prec c.bfmt) (trapC 0x27)
  guardE (colsOk c.n && c.k != 0) (trapC 0x2A)
  let (v, _) ← bViews b c s
  guardE (v.rank == 2) (v.outside 1 0)
  let km := c.kmax
  guardE (km == 0 || decide (c.korg + km ≤ v.lim 0)) (v.outside 1 (v.lim 0 * nth 0 v.ext 1 : Nat))
  let _ ← bCols b c v s
  if c.bmen then bitmapCheck b c v s else .ok ()
  return { c with bm := c.bmen || v.cmp }

def mmaCheck (b : Nat) (c : TrussCmd) (s : State) : Except Stop TrussCmd := do
  let p := (s.bay b).pred
  guardE (decide (c.prec < 6) && bFmtOk c.prec c.bfmt && aFmtOk c.prec c.bfmt c.afmt) (trapC 0x27)
  let rows ← mapRows b c s
  let c := { c with rows := rows }
  let r ← regionOf (nth 0 c.zs 0)
  tileCheck c r
  guardE (!(isBlock c.bfmt && r.i32)) (trapC 0x29)
  let (a, _) ← aViews b c s
  guardE (a.rank == 2) (a.outside 0 0)
  let _ ← aRows b c a s
  let km := c.kmax
  guardE (km == 0 || decide (c.korg + km ≤ a.lim 1)) (a.outside 0 (a.lim 1 : Nat))
  guardE (!c.sparse || p.bm != some false) (trapC 0x2C)
  guardE (!(c.shadow && !r.shd) && !(!c.shadow && p.opens.contains c.z)) (trapC 0x2D)
  guardE (!c.split || (decide (c.rows > 256) && !c.shadow)) (trapC 0x2E)
  return c

/-- Every check of a command that does not concern the slab (R258, R278). -/
def trussChecks (b : Nat) (c : TrussCmd) (s : State) : Except Stop TrussCmd := do
  guardE (!c.reservedBad && !(c.gather && c.isMma && c.mapn && decide ((c.w 6).toNat / 2 ^ 29 ≠ 0))) (trapC 0x3F)
  let p := (s.bay b).pred
  match c.op with
  | .loadb => loadbCheck b c s
  | .mma _ => mmaCheck b c s
  | .promo =>
    -- it acts on the pending binding; only with SHADOW does it look at region Z (R267, R269)
    let noShadow := (if c.shadow then do let r ← regionOf (nth 0 c.zs 0); return !r.shd else return false : Except Stop Bool)
    let x ← noShadow
    guardE (!x && !(p.pend && c.shadow != p.bshd)) (trapC 0x2D)
    return c
  | .drain =>
    guardE (!(!c.split && p.bsplit) && !(c.split && !p.bsplit && p.pend)) (trapC 0x2E)
    return c
  | .zero =>
    let r ← regionOf (nth 0 c.zs 0)
    guardE (!(c.shadow && !r.shd) && !(!c.shadow && p.opens.contains c.z)) (trapC 0x2D)
    return c
  | .commit | .discard =>
    let _ ← regionOf (nth 0 c.zs 0)
    guardE (p.opens.contains c.z) (trapC 0x2D)
    return c
  | .sign => do signCheck b c s; return c
  | .bucket => do bucketCheck b c s; return c
  | .reps r => do repsCheck r b c s; return c
  | .scat => do scatCheck b c s; return c
  | .mgrad => do mgradCheck b c s; return c
  | .free => return c

/-! ### Issue of the matrix words (R255, R270, R277) -/

/-- Commands that wait for every earlier one of the bay (R277). -/
def waitsForAll (op : TrussOp) (f : BitVec 5) (mapn : Bool) : Bool :=
  match op with
  | .bucket | .reps _ | .scat | .mgrad => true
  | .mma _ => f.toNat.testBit 0 && mapn
  | _ => false

/-- The command enters the bay's truss queue, and asks for the lease if the bay neither holds nor wants it. -/
def enqueueCmd (b : Nat) (c : TrussCmd) (s : State) : State :=
  s.modTruss b fun t =>
    let ask := !t.held && !t.req && c.op != .free
    { t with queue := t.queue ++ [c], req := t.req || ask, reqAt := if ask then s.clock else t.reqAt }

def trussBody (b : Nat) (op : TrussOp) (m : Nat) (f : BitVec 5) (t : Nat) (ps : List Nat) (s : State) : Except Stop State := do
  guardE (t == 0 || s.stampInWindow b t) (trapC 0xA5)
  let c ← withRst true (trussChecks b (trussCmd b op m f ps s) s)
  return (enqueueCmd b c s).retire

/-- Banks in which the tensor of a handle lies. -/
def State.banksOf (s : State) (b : Nat) (h : Word × Word) : List Nat :=
  match s.viewH (s.bayCtx b) h with
  | .ok v => if eSpace v.w = 0 ∧ !ePaged v.w then (List.range (eNb v.w)).map (eFirst v.w + ·) else []
  | .error _ => []

/-- A sector of a transfer unit that goes on locks a bank of one of the tensors (R220). -/
def State.locksAny (s : State) (b : Nat) (hs : List (Word × Word)) : Bool := (hs.flatMap (s.banksOf b)).any fun k => s.lockedFor b k .M

/-- The handles of the tensors that a command's checks read at issue: its index vector, and the map (R258, R278, R283). -/
def TrussCmd.checked (c : TrussCmd) : List (Word × Word) :=
  (match c.op with
    | .loadb => if c.ixben then [hIXBH] else []
    | .mma _ => if c.gather then hIXAH :: (if c.mapn then [hMAPH] else []) else []
    | .reps _ | .scat | .mgrad => [hMAPH]
    | _ => []).map c.h

/-- A truss command. Its checks wait for a bank that they read (R220). -/
def trussWord (op : TrussOp) (w p : BitVec 3) (m : BitVec 4) (f : BitVec 5) (t : BitVec 12) (s : State) : Host.Outcome State Fault Refusal :=
  s.onMtx fun b =>
    let y := s.bay b
    let wait := waitsForAll op f (bit (parM y m.toNat 6) 27)
    let ready := decide (y.truss.queue.length < 4) && (!wait || s.trussQuiet b) && !s.locksAny b (trussCmd b op m.toNat f [] s).checked
    issue b .M w p.toNat t true ready (trussBody b op m.toNat f t.toNat) s

/-- TLOADB (R261). -/
def execTloadb (w p : BitVec 3) (m : BitVec 4) (t : BitVec 12) (s : State) : Host.Outcome State Fault Refusal := trussWord .loadb w p m 0 t s

/-- TMMA (R262). -/
def execTmma (w p : BitVec 3) (m : BitVec 4) (f : BitVec 5) (t : BitVec 12) (s : State) : Host.Outcome State Fault Refusal :=
  trussWord (.mma false) w p m f t s

/-- TMMAS (R262). -/
def execTmmas (w p : BitVec 3) (m : BitVec 4) (f : BitVec 5) (t : BitVec 12) (s : State) : Host.Outcome State Fault Refusal :=
  trussWord (.mma true) w p m f t s

/-- SHADOW is bit 2 of flags5, and SPLIT bit 1 (R49). -/
def shadowFlag (f : BitVec 1) : BitVec 5 := if f = 1 then 4 else 0
def splitFlag (f : BitVec 1) : BitVec 5 := if f = 1 then 2 else 0

/-- TPROMO (R269). -/
def execTpromo (w p : BitVec 3) (m : BitVec 4) (f : BitVec 1) (t : BitVec 12) (s : State) : Host.Outcome State Fault Refusal :=
  trussWord .promo w p m (shadowFlag f) t s

/-- TDRAIN (R269). -/
def execTdrain (w p : BitVec 3) (m : BitVec 4) (f : BitVec 1) (t : BitVec 12) (s : State) : Host.Outcome State Fault Refusal :=
  trussWord .drain w p m (splitFlag f) t s

/-- TZERO (R269). -/
def execTzero (w p : BitVec 3) (m : BitVec 4) (f : BitVec 1) (t : BitVec 12) (s : State) : Host.Outcome State Fault Refusal :=
  trussWord .zero w p m (shadowFlag f) t s

/-- TCOMMIT (R268). -/
def execTcommit (w p : BitVec 3) (m : BitVec 4) (t : BitVec 12) (s : State) : Host.Outcome State Fault Refusal := trussWord .commit w p m 0 t s

/-- TDISCARD (R268). -/
def execTdiscard (w p : BitVec 3) (m : BitVec 4) (t : BitVec 12) (s : State) : Host.Outcome State Fault Refusal := trussWord .discard w p m 0 t s

/-- TSIGN (R279). -/
def execTsign (w p : BitVec 3) (m : BitVec 4) (t : BitVec 12) (s : State) : Host.Outcome State Fault Refusal := trussWord .sign w p m 0 t s

/-- TBUCKET (R281). -/
def execTbucket (w p : BitVec 3) (m : BitVec 4) (t : BitVec 12) (s : State) : Host.Outcome State Fault Refusal := trussWord .bucket w p m 0 t s

/-- TREPS, rule FIRST (R282). -/
def execTrepsFirst (w p : BitVec 3) (m : BitVec 4) (t : BitVec 12) (s : State) : Host.Outcome State Fault Refusal :=
  trussWord (.reps 0) w p m 0 t s

/-- TREPS, rule MEAN (R282). -/
def execTrepsMean (w p : BitVec 3) (m : BitVec 4) (t : BitVec 12) (s : State) : Host.Outcome State Fault Refusal :=
  trussWord (.reps 1) w p m 0 t s

/-- TREPS, rule NORMMAX (R282). -/
def execTrepsNormmax (w p : BitVec 3) (m : BitVec 4) (t : BitVec 12) (s : State) : Host.Outcome State Fault Refusal :=
  trussWord (.reps 2) w p m 0 t s

/-- TSCAT (R284). -/
def execTscat (w p : BitVec 3) (m : BitVec 4) (f : BitVec 1) (t : BitVec 12) (s : State) : Host.Outcome State Fault Refusal :=
  trussWord .scat w p m (splitFlag f) t s

/-- TMGRAD (R285). -/
def execTmgrad (w p : BitVec 3) (m : BitVec 4) (t : BitVec 12) (s : State) : Host.Outcome State Fault Refusal := trussWord .mgrad w p m 0 t s

/-! ### TLEASE and TFREE (R270) -/

/-- A push of TLEASE or TFREE waits for the stream's earlier writes (R219): it follows those of the truss's last command that has not
completed. -/
def laterPush (b : Nat) (ps : List Nat) (s : State) : State :=
  if ps.isEmpty || s.trussQuiet b then s.modBay b fun y => y.pushDeferred ps
  else s.modTruss b fun t =>
    match t.queue.reverse with
    | c :: l => { t with queue := (({ c with push := c.push ++ ps } : TrussCmd) :: l).reverse }
    | [] => { t with running := t.running ++ [{ freeCmd 0 with push := ps, id := t.taken }] }

/-- With the lease held TLEASE has no effect; otherwise it asks, and retires at the grant. -/
def leaseBody (b : Nat) (ps : List Nat) (s : State) : State :=
  if (s.bay b).truss.held then (laterPush b ps s).retire
  else
    let s := s.modTruss b fun t => if t.req then t else { t with req := true, reqAt := s.clock }
    s.modStream b .M fun x => { x with issued := some ps }

/-- TLEASE (R270). -/
def execTlease (w p : BitVec 3) (t : BitVec 12) (s : State) : Host.Outcome State Fault Refusal :=
  s.onMtx fun b => match (s.bay b).m.issued with
    | some _ => .error .wait
    | none => issue b .M w p.toNat t true true (fun ps s => .ok (leaseBody b ps s)) s

/-- TFREE enters the queue; with no lease and an empty queue it has no effect. A stamp outside every window of the bay raises LEASE_WINDOW
(R273). -/
def freeBody (b : Nat) (t : Nat) (ps : List Nat) (s : State) : Except Stop State := do
  guardE (t == 0 || s.stampInWindow b t) (trapC 0xA5)
  let x := (s.bay b).truss
  if !x.held && x.queue.isEmpty then return (laterPush b ps s).retire
  else return (enqueueCmd b { freeCmd s.pc with push := ps } s).retire

/-- TFREE (R270). -/
def execTfree (w p : BitVec 3) (t : BitVec 12) (s : State) : Host.Outcome State Fault Refusal :=
  s.onMtx fun b => issue b .M w p.toNat t true (decide ((s.bay b).truss.queue.length < 4)) (freeBody b t.toNat) s

/-! ### Grants (R18, R255, R256) -/

def trussBays (bent : Nat) : List Nat := (List.range 8).map fun i => bent * 8 + i

def State.holder (s : State) (bent : Nat) : Option Nat := (trussBays bent).find? fun b => (s.bay b).truss.held

/-- The word at the M stream's program counter that has issued is a TLEASE, and no TNOP: op5 is 0x01 (R49). -/
def State.atLease (s : State) (b : Nat) : Bool :=
  let y := s.bay b
  (nth 0 y.plane.bytes (y.m.pc.toNat + 3)).toNat / 8 == 1

/-- The lease goes to bay `b`: a TLEASE that waits for it retires and pushes its pegs. -/
def grant (b : Nat) (s : State) : State :=
  let s := s.modTruss b fun t => { t with held := true, req := false }
  let s := s.setBent (b / 8) { s.bent (b / 8) with last := some b }
  match (s.bay b).m.issued with
  | some ps =>
    if s.atLease b then ({ laterPush b ps s with cur := .stream b .M }).retire else s
  | none => s

/-- Round robin in physical bay order after the last holder; the first grant goes to the earliest request. -/
def nextRequest (bent : Nat) (s : State) : Option Nat :=
  let ask := (trussBays bent).filter fun b => (s.bay b).live && (s.bay b).truss.req && !(s.bay b).det
  match (s.bent bent).last with
  | some l => match ask.find? fun b => decide (b > l) with
    | some b => some b
    | none => ask.head?
  | none => ask.foldl (fun a b => match a with
      | some x => if (s.bay b).truss.reqAt < (s.bay x).truss.reqAt then some b else some x
      | none => some b) none

/-- A bay of a deterministic partition whose window is open and has not been granted yet. -/
def nextWindow (bent : Nat) (s : State) : Option (Nat × (Nat × Nat)) :=
  (trussBays bent).findSome? fun b =>
    let y := s.bay b
    if y.live && y.det then match s.openWindow b with
      | some w => if y.truss.window = some w then none else some (b, w)
      | none => none
    else none

/-- LEASE_GRANT (R255, R256). -/
def execLeaseGrant (bent : Nat) (s : State) : Host.Outcome State Fault Refusal :=
  .next (match s.holder bent with
    | some _ => s
    | none => match nextWindow bent s with
      | some (b, w) => grant b (s.modTruss b fun t => { t with window := some w })
      | none => match nextRequest bent s with
        | some b => grant b s
        | none => s)

/-- LEASE_WINDOW_END (R256): the clock has left the window of the holder. -/
def execLeaseWindowEnd (bay : Nat) (s : State) : Host.Outcome State Fault Refusal :=
  let y := s.bay bay
  .next (if y.det && y.truss.held && decide (s.openWindow bay ≠ y.truss.window) then leaseEnd bay s else s)

/-! ### Compressed lines (R94, R95) -/

/-- A checked line of a compressed bank. -/
structure CmpLine where
  first : Nat
  mask : Nat
  big : Bool
  off : Nat
  gran : List (List Byte)
deriving DecidableEq, Repr

def popcount64 (m : Nat) : Nat := ((List.range 64).filter fun i => m.testBit i).length

/-- Granules of one present block. -/
def blockGranules (big : Bool) (planes : Nat) : Nat := planes * (if big then 8 else 2)

/-- Parse and check one line; the cause where it fails. A line whose granules begin among those of its mask and run past them fails too (log 98). -/
def cmpLine (planes : Nat) (l : List Byte) : Except Nat CmpLine :=
  let n (i k : Nat) := bytesNat ((l.drop i).take k)
  let c := n 12 1
  let count := c % 8
  let big := c.testBit 3
  let mask := n 0 8
  let off := n 13 2
  if crc8 (l.take 15 ++ l.drop 16) ≠ n 15 1 then .error 0x24
  else if count = 0 ∨ c / 16 ≠ 0 ∨ (l.drop (16 + 16 * count)).any (· != 0) ∨ off + count > popcount64 mask * blockGranules big planes then .error 0x25
  else .ok ⟨n 8 4, mask, big, off, (List.range count).map fun i => (l.drop (16 + 16 * i)).take 16⟩

/-- Read lines in order until the blocks up to `need`, in the line's own numbering, are covered; the lines end with their bank (log 24). -/
def cmpLines (b : Nat) (v : View) (need : Bool → Nat) (s : State) : Nat → Nat → Except Stop (List CmpLine)
  | 0, _ => .ok []
  | fuel + 1, i =>
    if lastWithin v.w (128 * i + 127) ≥ bankBytes then .ok []
    else match s.readRun (s.bayCtx b) v 1 spBank (128 * i) 128 with
      | .error e => .error e
      | .ok (l, _) =>
        match cmpLine (planeCount v.fmt) l with
        | .error k => .error (trapT k v.tid 0 false)
        | .ok x =>
          if x.first > need x.big ∨
              (x.off + x.gran.length ≥ popcount64 x.mask * blockGranules x.big (planeCount v.fmt) ∧ x.first + 64 > need x.big) then .ok [x]
          else match cmpLines b v need s fuel (i + 1) with
            | .error e => .error e
            | .ok t => .ok (x :: t)

/-- A granule of a group of lines. -/
def cmpGranule (ls : List CmpLine) (first g : Nat) : List Byte :=
  match ls.find? fun x => x.first = first && decide (x.off ≤ g) && decide (g < x.off + x.gran.length) with
  | some x => nth [] x.gran (g - x.off)
  | none => []

def cmpBlock (big : Bool) (nb k n : Nat) : Nat := let bs := if big then 32 else 16; k / bs * ((nb + bs - 1) / bs) + n / bs

/-- The line group that holds the block of an element, where the block is present. -/
def cmpFind (ls : List CmpLine) (nb k n : Nat) : Option (CmpLine × Nat) :=
  ls.findSome? fun x =>
    let i := cmpBlock x.big nb k n
    if x.first ≤ i ∧ i < x.first + 64 ∧ x.mask.testBit (i - x.first) then some (x, i - x.first) else none

/-- An element of a compressed tensor (R92, R94); a block that is not present is +0 throughout. -/
def cmpElem (ls : List CmpLine) (planes nb k n : Nat) : Nat :=
  match cmpFind ls nb k n with
  | none => 0
  | some (x, i) =>
    let bs := if x.big then 32 else 16
    let sub := k % bs / 16 * (bs / 8) + n % bs / 8
    let g := popcount64 (x.mask % 2 ^ i) * blockGranules x.big planes + sub * planes
    let bitNo := k % 16 * 8 + n % 8
    ((List.range planes).map fun j =>
      if (nth 0 (cmpGranule ls x.first (g + j)) (bitNo / 8)).toNat.testBit (bitNo % 8) then 2 ^ j else 0).sum

/-! ### TLOADB (R261) -/

/-- bval of an element (R259). -/
def bvalOf (f planes x : Nat) : Int :=
  if f = 0x12 ∨ f = 0x1B then (x % 64 : Nat)
  else if isI f || isBlock f then sgn planes x else (x % 2 ^ planes : Nat)

/-- The bit of BMH for an element's block. -/
def bitmapBit (b : Nat) (c : TrussCmd) (v x : View) (s : State) (k n : Nat) : Bool :=
  let i := k / c.bs * ((v.lim 1 + c.bs - 1) / c.bs) + n / c.bs
  (s.peekIndex b x 1 (i / 8)).testBit (i % 8)

/-- The block scales of a column, one for each K block that the slab's positions meet. -/
def kBlocks (korg km : Nat) : List Nat := if km = 0 then [] else upTo (korg / 32) ((korg + km - 1) / 32 + 1)

def loadSlab (b : Nat) (c : TrussCmd) (s : State) : Except Stop Slab := do
  let (v, q) ← bViews b c s
  let _ ← s.checkTrailer (s.bayCtx b) v 1 spBank
  let cols ← bCols b c v s
  let bm ← if c.bmen then bankView b (c.h hBMH) 1 s else .ok v
  let km := c.kmax
  let nb := nth 0 (eExts v.w) 1
  let ks := upTo c.korg (c.korg + km)
  let ls ← if v.cmp ∧ km ≠ 0 then
      cmpLines b v (fun big => cmpBlock big nb (v.org + c.korg + km - 1) (cols.foldl max 0)) s (bankBytes * bankCount / 128) 0
    else .ok []
  let elem (k n : Nat) : Nat :=
    if c.bmen && !bitmapBit b c v bm s k n then 0
    else if v.cmp then cmpElem ls (planeCount v.fmt) nb (v.org + k) n
    else s.peek b v 1 [k, n]
  return { fmt := BitVec.ofNat 6 c.bfmt, prec := BitVec.ofNat 3 c.prec, korg := c.korg, kext := c.k, n := c.n, bitmap := c.bm
           cols := cols.map fun n => ks.map fun k => bvalOf c.bfmt (planesOf c.prec) (elem k n)
           scales := if isBlock c.bfmt then cols.map fun n => (kBlocks c.korg km).map fun k => BitVec.ofNat 8 (s.peek b q 1 [k, n]) else [] }

/-- The buffer that is not FRONT takes the slab. -/
def TrussBay.setSlab (t : TrussBay) (x : Slab) : TrussBay :=
  if t.front then { t with slab0 := x, valid0 := true, front := false } else { t with slab1 := x, valid1 := true, front := true }

/-! ### Passes (R98, R100, R260, R262) -/

/-- The sum of one pass for a column, with the flags of lg_mul. -/
def passSum (lg : Bool) : List Nat → List Int → Nat → Int × BitVec 8
  | a :: as, x :: xs, f =>
    let t := passSum lg as xs f
    if lg then
      let p := lgMul a x.toNat
      (lgTerm p.1 + t.1, p.2 ||| t.2)
    else (intVal f a * x + t.1, t.2)
  | _, _, _ => (0, 0)

/-- One level of the tree of R100. -/
def addPairs : List Nat → List Nat × BitVec 8
  | x :: y :: t =>
    let r := addF32 x y
    let u := addPairs t
    (r.1 :: u.1, r.2 ||| u.2)
  | l => (l, 0)

def addTree : Nat → List Nat → Nat × BitVec 8
  | 0, l => (l.headD 0, 0)
  | fuel + 1, l =>
    if l.length ≤ 1 then (l.headD 0, 0)
    else
      let u := addPairs l
      let r := addTree fuel u.1
      (r.1, u.2 ||| r.2)

def pow2Above : Nat → Nat → Nat
  | 0, _ => 1
  | fuel + 1, n => if n ≤ 2 ^ fuel then pow2Above fuel n else 2 ^ (fuel + 1)

/-- A leaf of R100. -/
def leafOf (lg : Bool) (x : Int) (sa sb : Nat) : Nat × BitVec 8 :=
  if sa = 0xFF ∨ sb = 0xFF then (fnan 0x15, fIV)
  else convertNum 0x15 0 0 (.fin (decide (x < 0)) x.natAbs ((sa : Int) + sb - 254 - (if lg then 8 else 0)) false)

/-- A block format's pass for one column: the tree's result. `sa` and `sb` give the scales of each K block. -/
def passBlock (lg neg : Bool) (f korg : Nat) (a : List Nat) (col : List Int) (sa sb : List Nat) : Nat × BitVec 8 :=
  let kb := kBlocks korg a.length
  let leaves := (kb.zip (sa.zip sb)).map fun (k, x, y) =>
    let lo := k * 32 - korg
    let n := min a.length (k * 32 + 32 - korg) - lo
    let p := passSum lg ((a.drop lo).take n) ((col.drop lo).take n) f
    let l := leafOf lg (if neg then -p.1 else p.1) x y
    (l.1, l.2 ||| p.2)
  let r := addTree 8 (padTo (pow2Above 6 leaves.length) (leaves.map fun x => x.1))
  (r.1, r.2 ||| orAll (leaves.map fun x => x.2))

/-- The bound B of R98. -/
def passBound (c : TrussCmd) : Int :=
  let n := c.kmax
  if c.bfmt = 0x12 then (n * 3448 : Nat)
  else
    let maxA := if isI c.afmt then 2 ^ (fmtWidth c.afmt - 1) else 2 ^ fmtWidth c.afmt - 1
    let p := planesOf c.prec
    let maxB := if isI c.bfmt then 2 ^ (p - 1) else 2 ^ p - 1
    (n * maxA * maxB : Nat)

def tooClose (bound v : Int) : Bool := decide (v > 2 ^ 31 - 1 - bound) || decide (v < -(2 ^ 31) + bound)

/-- Add a pass to a row, element by element; a longer row keeps its further columns. -/
def addRows : List Int → List Int → List Int
  | x :: xs, y :: ys => (x + y) :: addRows xs ys
  | [], ys => ys
  | xs, [] => xs

/-- The pass of one row in integer or lg6: an early promotion where the bound asks for it, which holds for a row of cleared inner values too,
then the sums are added, then the interval's promotion (R98, R262). Sums and inner values are exact, beyond 32 bits too (log 113). -/
def passRow (b : Nat) (bound : Int) (last : Bool) (m : Nat) (sums : List Int) (s : State) : State :=
  let old := Tab.get [] (s.bay b).truss.inner m
  let cur := old ++ List.replicate (sums.length - old.length) 0
  let early := (cur.take sums.length).any (tooClose bound)
  let s := if early then
      (promoteRow b m (s.modTruss b fun t => { t with inner := Tab.put t.inner m cur })).orStreamFlags b .M fOVP
    else s
  let cur := if early then [] else cur
  let s := s.modTruss b fun t => { t with inner := Tab.put t.inner m (addRows cur sums), pend := true }
  if last then promoteRow b m s else s

def passRows (b : Nat) (bound : Int) (last : Bool) : Nat → List (List Int) → State → State
  | _, [], s => s
  | m, x :: t, s => passRows b bound last (m + 1) t (passRow b bound last m x s)

/-- A row write of a block format's pass. -/
def blockRow (b : Nat) (c : TrussCmd) (m : Nat) (vals : List Nat) (s : State) : State :=
  let t := (s.bay b).truss
  let far := c.split && decide (m ≥ 256)
  s.rowWrite
    { owner := b, bay := if far then s.partner b else b, id := t.taken
      base := if far then t.bpbase + (m - 256) * t.bpcols else t.bbase + m * t.bcols
      n := vals.length, i32 := t.bi32, wmask := t.bwmask, op := .addF32 (vals.map (BitVec.ofNat 32)) (!c.accum) }

def blockRows (b : Nat) (c : TrussCmd) : Nat → List (List Nat) → State → State
  | _, [], s => s
  | m, x :: t, s => blockRows b c (m + 1) t (blockRow b c m x s)

/-- Row writes of a whole region. -/
def regionRows (b : Nat) (c : TrussCmd) (r : Region) (base : Nat) (op : Nat → RowOp) (s : State) : State :=
  (List.range r.rows).foldl (fun s m => s.rowWrite
    { owner := b, bay := b, id := (s.bay b).truss.taken, base := base + m * r.cols, n := r.cols, i32 := r.i32, wmask := c.wmask, op := op m }) s

/-- The binding of the command (R254). -/
def TrussBay.bound (t : TrussBay) (c : TrussCmd) : Bool :=
  t.bz.toNat == c.z && t.bshd == c.shadow && t.bsplit == c.split && t.brows == c.rows

/-- The steps of a product before its first pass: a promotion of another binding, the opening of a prediction, and without ACCUM a fresh
start of every row (R262, R267). -/
def bindCmd (b : Nat) (c : TrussCmd) (r p : Region) (s : State) : State :=
  let t := (s.bay b).truss
  let s := if t.pend && !t.bound c then promoteAll b s else s
  let s := if c.shadow && !(s.bay b).isOpen c.z then
      regionRows b c r r.sbase (fun m => .copy (r.base + m * r.cols)) (s.setOpen b c.z true)
    else s
  let s := if c.accum then s else s.modTruss b fun t =>
    { t.dropInner with passes := 0, firsts := if isBlock c.bfmt then [] else List.range c.rows }
  s.modTruss b fun t =>
    { t with bz := BitVec.ofNat 4 c.z, bshd := c.shadow, bsplit := c.split, brows := c.rows, bbase := r.at c.shadow, bcols := r.cols
             bi32 := r.i32, bpbase := p.base, bpcols := p.cols, blg := c.bfmt == 0x12 }

/-- TMMA and TMMAS (R262). The entries that this command is the first to promote read as +0; promotions by later commands add to them
(log 99). PASSES counts modulo 16 (log 117). -/
def runMma (neg : Bool) (b : Nat) (c : TrussCmd) (s : State) : Except Stop State := do
  let r ← regionOf (nth 0 c.zs 0)
  let slab ← match (s.bay b).truss.frontSlab with
    | some x => if x.fmt.toNat = c.bfmt ∧ planesOf x.prec.toNat = planesOf c.prec ∧ x.n = c.n then .ok x else .error (trapC 0x27)
    | none => .error (trapC 0x27)
  let p ← if c.split then partnerRegion b c.z r.i32 (c.rows - 256) c.n s else .ok r
  let (a, q) ← aViews b c s
  let rows ← aRows b c a s
  let km := c.kmax
  let get (m : Nat) : List Nat := (List.range km).map fun i => s.peek b a 0 [m, c.korg + i]
  let lg := c.bfmt = 0x12 ∨ c.bfmt = 0x1B
  let s1 := bindCmd b c r p s
  let last := decide ((s1.bay b).truss.passes.toNat + 1 = c.intv)
  let s2 :=
    if isBlock c.bfmt then
      let sa (m : Nat) : List Nat := (kBlocks c.korg km).map fun k => s.peek b q 1 [m, k]
      let out := rows.map fun m => (List.range c.n).map fun n =>
        passBlock lg neg (blockElem c.afmt) c.korg (get m) (nth [] slab.cols n) (sa m) ((nth [] slab.scales n).map BitVec.toNat)
      (blockRows b c 0 (out.map fun x => x.map fun y => y.1) s1).orStreamFlags b .M (orAll (out.flatMap fun x => x.map fun y => y.2))
    else
      let out := rows.map fun m => (List.range c.n).map fun n => passSum lg (get m) (nth [] slab.cols n) c.afmt
      let sums := out.map fun x => x.map fun y => if neg then -y.1 else y.1
      (passRows b (passBound c) last 0 sums s1).orStreamFlags b .M (orAll (out.flatMap fun x => x.map fun y => y.2))
  return s2.modTruss b fun t => if last then { t with passes := 0, pend := false, firsts := [] } else { t with passes := t.passes + 1, firsts := [] }

/-! ### The other commands (R267 to R269) -/

def runZero (b : Nat) (c : TrussCmd) (s : State) : Except Stop State := do
  let r ← regionOf (nth 0 c.zs 0)
  let s := if c.shadow then s.setOpen b c.z true else s
  let s := s.modTruss b fun t => if t.pend && t.bz.toNat == c.z && t.bshd == c.shadow then t.dropInner else t
  return regionRows b c r (r.at c.shadow) (fun _ => .bits (List.replicate r.cols 0)) s

def TrussBay.shadowOf (t : TrussBay) (z : Nat) : Bool := t.pend && t.bz.toNat == z && t.bshd

def runDiscard (b : Nat) (c : TrussCmd) (s : State) : State :=
  (s.modTruss b fun t => if t.shadowOf c.z then t.dropInner else t).setOpen b c.z false

def runCommit (b : Nat) (c : TrussCmd) (s : State) : Except Stop State := do
  let r ← regionOf (nth 0 c.zs 0)
  if !c.keep then return runDiscard b c s
  else
    let s := if (s.bay b).truss.shadowOf c.z then promoteAll b s else s
    return (regionRows b c r r.base (fun m => .copy (r.sbase + m * r.cols)) s).setOpen b c.z false

/-- TDRAIN clears the binding after the promotion. -/
def runDrain (b : Nat) (s : State) : State :=
  (promoteAll b s).modTruss b fun t => { t with bz := 0, bshd := false, bsplit := false, brows := 0 }

/-- The effect of a command that the truss starts. -/
def runCmd (b : Nat) (c : TrussCmd) (s : State) : Except Stop State :=
  match c.op with
  | .loadb => do
    let x ← loadSlab b c s
    return s.modTruss b fun t => t.setSlab x
  | .mma neg => runMma neg b c s
  | .promo => .ok (promoteAll b s)
  | .drain => .ok (runDrain b s)
  | .zero => runZero b c s
  | .commit => runCommit b c s
  | .discard => .ok (runDiscard b c s)
  | .free => .ok s
  | .sign => runSign b c s
  | .bucket => runBucket b c s
  | .reps r => runReps r b c s
  | .scat => runScat b c s
  | .mgrad => runMgrad b c s

/-! ### TRUSS_COMMAND_START (R271) -/

/-- A command that faults after it has started: the commands behind it are discarded, and each returns its reservations. The
command changes no state: a failed load leaves its buffer as it was (R97, R258, R261). -/
def trussFault (b : Nat) (c : TrussCmd) (rc : FaultRec) (s : State) : State :=
  let qs := c.push ++ (s.bay b).truss.queue.flatMap fun x => x.push
  let s := (s.modBay b fun y => y.returnDeferred qs).modTruss b fun t => { t with queue := [] }
  if (s.bay b).m.rc.isSome then s else s.haltStream b .M { rc with rst := false, eng := 2, pc := c.pc }

/-- After a TFREE, or the command that brings CNT to 64 outside a deterministic partition, the lease ends (R255, R256). -/
def afterCmd (b : Nat) (c : TrussCmd) (s : State) : State :=
  let y := s.bay b
  if c.op = .free || (decide (y.truss.cnt ≥ 64) && !y.det) then leaseEnd b s else s

/-- The handles of a command's bank tensors. -/
def TrussCmd.operands (c : TrussCmd) : List (Word × Word) :=
  (match c.op with
    | .loadb => [hBH] ++ (if isBlock c.bfmt then [hSBH] else []) ++ (if c.ixben then [hIXBH] else []) ++ (if c.bmen then [hBMH] else [])
    | .mma _ => [hAH] ++ (if isBlock c.afmt then [hSAH] else []) ++ (if c.gather then [hIXAH] else [])
    | .sign | .bucket | .reps _ | .scat | .mgrad => [hAH, hSIGH, hMAPH, hIXOH, hREPH, hHPLANE]
    | _ => []).map c.h

/-- The truss may start a command: its row-write queue has room for the rows of earlier ones (R265), in a deterministic partition the
holder's window is open (R256), and no sector that goes on locks a bank of its operands (R220, R271). -/
def State.trussFree (s : State) (b : Nat) : Bool :=
  decide ((s.bent (b / 8)).writes.length < 16) && (!(s.bay b).det || s.openWindow b == (s.bay b).truss.window) &&
    !(s.bay b).truss.queue.head?.any fun c => s.locksAny b c.operands

def startCmd (b : Nat) (s : State) : State :=
  match (s.bay b).truss.queue with
  | [] => s
  | c :: q =>
    let opens := (s.bay b).truss.opens
    let c := { c with id := (s.bay b).truss.taken + 1 }
    let used := c.uses.contains 5
    let s := s.modTruss b fun t =>
      { t with queue := q, taken := t.taken + 1, cnt := if c.op = .free then t.cnt else min 64 (t.cnt + 1), bwmask := if used then c.wmask else t.bwmask }
    match runCmd b c s with
    | .ok s => afterCmd b c (s.modTruss b fun t => { t with running := t.running ++ [{ c with sets := openChanges opens t.opens }] })
    | .error (.trap rc) => afterCmd b c (trussFault b c rc s)
    | .error _ => afterCmd b c (trussFault b c {} s)

/-- TRUSS_COMMAND_START (R271): the holder's next command starts. -/
def execTrussCommandStart (bent : Nat) (s : State) : Host.Outcome State Fault Refusal :=
  .next (match s.holder bent with
    | some b => if (s.bay b).live && s.trussFree b then startCmd b s else s
    | none => s)

/-! ### TRUSS_ROW_WRITE (R99, R265) -/

/-- An entry after a promotion of `x` into it (R99). -/
def promoteEntry (i32 lg : Bool) (old : Nat) (x : Int) : Nat × BitVec 8 :=
  if i32 then convertNum 0x04 0 0 (Num.ofInt (sgn 32 old + (if lg then x / 256 else x)))
  else
    let z := addNum 0 (decodeNum 0x15 old) (.fin (decide (x < 0)) x.natAbs (if lg then -8 else 0) false)
    let y := convertNum 0x15 0 0 z.1
    (y.1, y.2 ||| z.2)

/-- The new entries of a row write, and its flags. -/
def RowWrite.entries (w : RowWrite) (s : State) : List Nat × BitVec 8 :=
  let old (i : Nat) : Nat := s.rd (accAddr w.bay (w.base + i)) 4
  match w.op with
  | .promote vals lg first =>
    let l := (vals.zip (List.range vals.length)).map fun (x, i) => promoteEntry w.i32 lg (if first then 0 else old i) x
    (l.map fun y => y.1, orAll (l.map fun y => y.2))
  | .addF32 vals first =>
    let l := (vals.zip (List.range vals.length)).map fun (x, i) => addF32 (if first then 0 else old i) x.toNat
    (l.map fun y => y.1, orAll (l.map fun y => y.2))
  | .bits vals => (vals.map BitVec.toNat, 0)
  | .copy f => ((List.range w.n).map fun i => s.rd (accAddr w.bay (f + i)) 4, 0)

/-- Write entries from `e` on. -/
def writeEntries (bay : Nat) : Nat → List Nat → State → State
  | _, [], s => s
  | e, x :: t, s => writeEntries bay (e + 1) t (s.write (accAddr bay e) (natBytes 4 x))

/-- Bank groups that a run of entries touches (R240). -/
def groupsOf (base n : Nat) : List Nat := ((List.range n).map fun i => (base + i) / 64 % 16).eraseDups

/-- The clock allows the write: WMASK, one row in a clock, and no accumulator line of the group in this clock. -/
def rowAllowed (x : Bent) (w : RowWrite) (s : State) : Bool :=
  let k := (s.part (s.bay w.owner).partNo).clkSlot
  (w.wmask == 0 || w.wmask.toNat.testBit k) &&
  (match x.lastRow with
    | some (c, _) => decide (c ≠ s.clock)
    | none => true) &&
  !((s.bay w.bay).lines.any fun (c, g) => c = s.clock && (groupsOf w.base w.n).contains g)

def rowWriteStep (bent : Nat) (s : State) : State :=
  let x := s.bent bent
  match x.writes with
  | [] => s
  | w :: t =>
    if !(s.bay w.owner).live then s.setBent bent { x with writes := t }
    else if !rowAllowed x w s then s
    else
      let (l, f) := w.entries s
      let s := (writeEntries w.bay w.base l s).orStreamFlags w.owner .M f
      s.setBent bent { x with writes := t, lastRow := some (s.clock, w.bay, groupsOf w.base w.n) }

/-- TRUSS_ROW_WRITE (R265). -/
def execTrussRowWrite (bent : Nat) (s : State) : Host.Outcome State Fault Refusal := .next (rowWriteStep bent s)

/-! ### TRUSS_COMMAND_COMPLETION (R271, R290) -/

/-- The oldest started command has had its writes landed: its pegs are pushed, and GETPAR shows what it has opened and closed. -/
def cmdCompletion (b : Nat) (s : State) : State :=
  match (s.bay b).truss.running with
  | [] => s
  | c :: t =>
    if (s.bent (b / 8)).writes.any fun w => w.owner = b && decide (w.id ≤ c.id) then s
    else (s.modBay b fun y => (y.showOpen c.sets).pushDeferred c.push).modTruss b fun x => { x with running := t }

/-- TRUSS_COMMAND_COMPLETION (R271). -/
def execTrussCommandCompletion (bay : Nat) (s : State) : Host.Outcome State Fault Refusal := .next (cmdCompletion bay s)

end Sys2Proof.Machine
end

