-- ==== Sys2Proof/Machine/VecMem.lean ====
section
/-! DEFINITION. Vector loads and stores (spec/06_vector_ops.md R167 to R170). -/

namespace Sys2Proof.Machine

/-- The tensor that a vector memory word names: its format must equal TYPE (R167). A block-format TYPE moves the elements' bits (log 115). -/
def vecView (b : Nat) (h : BitVec 4) (f : Nat) (s : State) : Except Stop View :=
  match s.viewH (s.bayCtx b) (s.handleWords b h.toNat) with
  | .error e => .error e
  | .ok v => if v.fmt ≠ f then .error (trapT 0x26 v.tid 0 false) else .ok v

/-- The first coordinates of a run, from consecutive k registers (R168). -/
def runCoords (s : State) (n k : BitVec 3) : List Int :=
  (List.range (n.toNat + 1)).map fun i => (s.readK (BitVec.ofNat 3 (k.toNat + i))).toInt

/-- The lanes of a run that lie in the innermost extent, with their coordinates. -/
def runElems (v : View) (x : List Nat) (n : Nat) : List (List Nat) :=
  let last := x.getLastD 0
  let room := v.ext.getLastD 0 - last
  (List.range (min n room)).map fun i => x.dropLast ++ [last + i]

/-- Check a run's bounds and place its elements (R168). The checks look at every lane of the run, the lanes that the guard excludes too
(log 88). -/
def placeRun (b : Nat) (v : View) (slot : Nat) (write : Bool) (x : List Int) (n : Nat) (s : State) :
    Except Stop (List (List Nat × List Span)) :=
  if !v.inside x then .error (v.outside slot (rowIndex v.ext x))
  else
    let es := runElems v (x.map Int.toNat) n
    match es.find? fun e => !v.inside (e.map Int.ofNat) with
    | some e => .error (v.outside slot (rowIndex v.ext (e.map Int.ofNat)))
    | none =>
      match s.placeElems (s.bayCtx b) v slot write spBay es with
      | .error e => .error e
      | .ok l => .ok (es.zip l)

/-- VLD: lanes beyond the extent read as zero bits. -/
def vldCore (b : Nat) (g : Guard) (d : BitVec 6) (h : BitVec 4) (n k : BitVec 3) (s : State) : Except Stop State := do
  let v ← vecView b h s.vty s
  v.plainE
  let w := fmtWidth s.vty
  let l ← placeRun b v 0 false (runCoords s n k) (lanesOf w) s
  let s ← s.checkTrailer (s.bayCtx b) v 0 spBay
  let (xs, s) := s.readElems (s.bayCtx b) v l
  let xs := xs.map (lgMask s.vty) ++ List.replicate (lanesOf w - xs.length) 0
  let r := mapLanes (fun _ _ x _ => (x, 0)) 0 (s.active g) (s.lanes d.toNat w) xs xs
  return (s.writeLanes d.toNat w r.1).retireV

/-- The elements whose lane is active, with the lane's value. -/
def activeElems : Nat → List (List Nat × List Span) → List Nat → List (List Nat × List Span × Nat)
  | m, e :: es, x :: xs => if m % 2 = 1 then (e.1, e.2, x) :: activeElems (m / 2) es xs else activeElems (m / 2) es xs
  | _, _, _ => []

/-- VST: every check precedes the first byte. -/
def vstCore (b : Nat) (g : Guard) (d : BitVec 6) (h : BitVec 4) (n k : BitVec 3) (s : State) : Except Stop State := do
  let v ← vecView b h s.vty s
  guardE (!v.cmp) (trapT 0x26 v.tid 0 false)
  let w := fmtWidth s.vty
  let c := s.bayCtx b
  let l ← placeRun b v 2 true (runCoords s n k) (lanesOf w) s
  let es := activeElems (s.active g) l (s.lanes d.toNat w)
  s.checkConflicts c v 2 (es.flatMap fun e => e.2.1)
  return (s.writeElems c v es).retireV

/-- Group of index registers for elements of width `w`: indices are 32 bits (R169). -/
def indexGroup (w : Nat) : Nat := if w = 8 then 4 else if w = 16 then 2 else 1

/-- The active lanes of a gather or scatter: lane and index. -/
def activeIndices : Nat → Nat → List Nat → List (Nat × Nat)
  | i, m, x :: t => if m % 2 = 1 then (i, x) :: activeIndices (i + 1) (m / 2) t else activeIndices (i + 1) (m / 2) t
  | _, _, [] => []

/-- The indices of a VLDX or VSTX, checked and placed. With no active lane there is nothing to place, and no permission fault (log 89). -/
def placeIndexed (b : Nat) (v : View) (slot : Nat) (write : Bool) (ix : List (Nat × Nat)) (s : State) :
    Except Stop (List (List Nat × List Span)) :=
  match ix.find? fun (_, i) => i ≥ v.count || !v.inside ((v.coordsOf i).map Int.ofNat) with
  | some (_, i) => .error (v.outside slot i)
  | none =>
    let es := ix.map fun (_, i) => v.coordsOf i
    match s.placeElems (s.bayCtx b) v slot write spBay es with
    | .error e => .error e
    | .ok l => .ok (es.zip l)

def indexList (g : Guard) (r : BitVec 6) (w : Nat) (s : State) : List (Nat × Nat) :=
  activeIndices 0 (s.active g) ((s.readGroup r.toNat (indexGroup w) 32).take (lanesOf w))

def indexChecks (r : BitVec 6) (s : State) : Except Stop Unit := do
  let w := fmtWidth s.vty
  alignE r (indexGroup w)
  guardE (w != 4) (trapC 0x0C)

/-- Put values into chosen lanes. -/
def putLanes (l : List Nat) : List ((Nat × Nat) × Nat) → List Nat
  | [] => l
  | ((i, _), x) :: t => putLanes (l.set i x) t

def vldxCore (b : Nat) (g : Guard) (d : BitVec 6) (h : BitVec 4) (r : BitVec 6) (s : State) : Except Stop State := do
  indexChecks r s
  let v ← vecView b h s.vty s
  v.plainE
  let w := fmtWidth s.vty
  let ix := indexList g r w s
  let l ← placeIndexed b v 0 false ix s
  let (xs, s) := s.readElems (s.bayCtx b) v l
  return (s.writeLanes d.toNat w (putLanes (s.lanes d.toNat w) (ix.zip (xs.map (lgMask s.vty))))).retireV

def vstxCore (b : Nat) (g : Guard) (d : BitVec 6) (h : BitVec 4) (r : BitVec 6) (s : State) : Except Stop State := do
  indexChecks r s
  let v ← vecView b h s.vty s
  guardE (!v.cmp) (trapT 0x26 v.tid 0 false)
  let w := fmtWidth s.vty
  let ix := indexList g r w s
  let l ← placeIndexed b v 2 true ix s
  let c := s.bayCtx b
  s.checkConflicts c v 2 (l.flatMap fun e => e.2)
  let vals := s.lanes d.toNat w
  return (s.writeElems c v ((l.zip ix).map fun (e, i) => (e.1, e.2, nth 0 vals i.1))).retireV

/-- VLD (R168). -/
def execVld (g : Guard) (d : BitVec 6) (h : BitVec 4) (n k : BitVec 3) (s : State) : Host.Outcome State Fault Refusal :=
  s.onVec fun b => vldCore b g d h n k s

/-- VST (R168). -/
def execVst (g : Guard) (d : BitVec 6) (h : BitVec 4) (n k : BitVec 3) (s : State) : Host.Outcome State Fault Refusal :=
  s.onVec fun b => vstCore b g d h n k s

/-- VLDX (R169). -/
def execVldx (g : Guard) (d : BitVec 6) (h : BitVec 4) (b : BitVec 6) (s : State) : Host.Outcome State Fault Refusal :=
  s.onVec fun n => vldxCore n g d h b s

/-- VSTX (R169). -/
def execVstx (g : Guard) (d : BitVec 6) (h : BitVec 4) (b : BitVec 6) (s : State) : Host.Outcome State Fault Refusal :=
  s.onVec fun n => vstxCore n g d h b s

end Sys2Proof.Machine
end

