-- ==== Sys2Proof/Machine/Dispatch.lean ====
section
/-! DEFINITION. One arm for each instruction, each a direct call of its meaning. -/

namespace Sys2Proof.Machine

def exec (i : Instr) (s : State) : Host.Outcome State Fault Refusal :=
  match i with
  | .add d a b => Sys2Proof.Machine.execAdd d a b s
  | .sub d a b => Sys2Proof.Machine.execSub d a b s
  | .mul d a b => Sys2Proof.Machine.execMul d a b s
  | .mulh d a b => Sys2Proof.Machine.execMulh d a b s
  | .mulhw d a b => Sys2Proof.Machine.execMulhw d a b s
  | .div d a b => Sys2Proof.Machine.execDiv d a b s
  | .divw d a b => Sys2Proof.Machine.execDivw d a b s
  | .rem d a b => Sys2Proof.Machine.execRem d a b s
  | .remw d a b => Sys2Proof.Machine.execRemw d a b s
  | .and d a b => Sys2Proof.Machine.execAnd d a b s
  | .or d a b => Sys2Proof.Machine.execOr d a b s
  | .xor d a b => Sys2Proof.Machine.execXor d a b s
  | .andn d a b => Sys2Proof.Machine.execAndn d a b s
  | .shl d a b => Sys2Proof.Machine.execShl d a b s
  | .shr d a b => Sys2Proof.Machine.execShr d a b s
  | .sar d a b => Sys2Proof.Machine.execSar d a b s
  | .rol d a b => Sys2Proof.Machine.execRol d a b s
  | .min d a b => Sys2Proof.Machine.execMin d a b s
  | .max d a b => Sys2Proof.Machine.execMax d a b s
  | .minw d a b => Sys2Proof.Machine.execMinw d a b s
  | .maxw d a b => Sys2Proof.Machine.execMaxw d a b s
  | .slt d a b => Sys2Proof.Machine.execSlt d a b s
  | .sltw d a b => Sys2Proof.Machine.execSltw d a b s
  | .clz d a => Sys2Proof.Machine.execClz d a s
  | .ctz d a => Sys2Proof.Machine.execCtz d a s
  | .popc d a => Sys2Proof.Machine.execPopc d a s
  | .addi d a im => Sys2Proof.Machine.execAddi d a im s
  | .andi d a im => Sys2Proof.Machine.execAndi d a im s
  | .ori d a im => Sys2Proof.Machine.execOri d a im s
  | .xori d a im => Sys2Proof.Machine.execXori d a im s
  | .shli d a im => Sys2Proof.Machine.execShli d a im s
  | .shri d a im => Sys2Proof.Machine.execShri d a im s
  | .sari d a im => Sys2Proof.Machine.execSari d a im s
  | .slti d a im => Sys2Proof.Machine.execSlti d a im s
  | .lui d im => Sys2Proof.Machine.execLui d im s
  | .bfx d a o w => Sys2Proof.Machine.execBfx d a o w s
  | .bfxReg d a x => Sys2Proof.Machine.execBfxReg d a x s
  | .bfxs d a o w => Sys2Proof.Machine.execBfxs d a o w s
  | .bfxsReg d a x => Sys2Proof.Machine.execBfxsReg d a x s
  | .bfi d a o w => Sys2Proof.Machine.execBfi d a o w s
  | .bfiReg d a x => Sys2Proof.Machine.execBfiReg d a x s
  | .beq a b o => Sys2Proof.Machine.execBeq a b o s
  | .bne a b o => Sys2Proof.Machine.execBne a b o s
  | .blt a b o => Sys2Proof.Machine.execBlt a b o s
  | .bge a b o => Sys2Proof.Machine.execBge a b o s
  | .bltw a b o => Sys2Proof.Machine.execBltw a b o s
  | .bgew a b o => Sys2Proof.Machine.execBgew a b o s
  | .jal d o => Sys2Proof.Machine.execJal d o s
  | .jalr d a im => Sys2Proof.Machine.execJalr d a im s
  | .loop c a len => Sys2Proof.Machine.execLoop c a len s
  | .loopStrided c a b len => Sys2Proof.Machine.execLoopStrided c a b len s
  | .loopi c n len => Sys2Proof.Machine.execLoopi c n len s
  | .loopr c a h len => Sys2Proof.Machine.execLoopr c a h len s
  | .loopBodyEnd => Sys2Proof.Machine.execLoopBodyEnd s
  | .ld d a h sz im => Sys2Proof.Machine.execLd d a h sz im s
  | .lds d a h sz im => Sys2Proof.Machine.execLds d a h sz im s
  | .st d a h sz im => Sys2Proof.Machine.execSt d a h sz im s
  | .amoAdd d a h b w => Sys2Proof.Machine.execAmoAdd d a h b w s
  | .amoMin d a h b w => Sys2Proof.Machine.execAmoMin d a h b w s
  | .amoMax d a h b w => Sys2Proof.Machine.execAmoMax d a h b w s
  | .amoSwap d a h b w => Sys2Proof.Machine.execAmoSwap d a h b w s
  | .amoCas d a h b w => Sys2Proof.Machine.execAmoCas d a h b w s
  | .amoOr d a h b w => Sys2Proof.Machine.execAmoOr d a h b w s
  | .phase => Sys2Proof.Machine.execPhase s
  | .phaseCompletion slot => Sys2Proof.Machine.execPhaseCompletion slot s
  | .commitSweep slot granule => Sys2Proof.Machine.execCommitSweep slot granule s
  | .fence m => Sys2Proof.Machine.execFence m s
  | .barinit a h e => Sys2Proof.Machine.execBarinit a h e s
  | .bararr a h n => Sys2Proof.Machine.execBararr a h n s
  | .barwait d a h p b => Sys2Proof.Machine.execBarwait d a h p b s
  | .spawn m => Sys2Proof.Machine.execSpawn m s
  | .join => Sys2Proof.Machine.execJoin s
  | .halt => Sys2Proof.Machine.execHalt s
  | .hset h a b => Sys2Proof.Machine.execHset h a b s
  | .setpar a p => Sys2Proof.Machine.execSetpar a p s
  | .getpar d p => Sys2Proof.Machine.execGetpar d p s
  | .chpush a c => Sys2Proof.Machine.execChpush a c s
  | .chpop d c => Sys2Proof.Machine.execChpop d c s
  | .tkwait m => Sys2Proof.Machine.execTkwait m s
  | .tksig m => Sys2Proof.Machine.execTksig m s
  | .rowwait d a b t => Sys2Proof.Machine.execRowwait d a b t s
  | .rowpub a b => Sys2Proof.Machine.execRowpub a b s
  | .frmwait d a t => Sys2Proof.Machine.execFrmwait d a t s
  | .waitBoundExpiry bay => Sys2Proof.Machine.execWaitBoundExpiry bay s
  | .sqarm a g => Sys2Proof.Machine.execSqarm a g s
  | .sqwait d b g => Sys2Proof.Machine.execSqwait d b g s
  | .sqrel g => Sys2Proof.Machine.execSqrel g s
  | .squareDeadline grp => Sys2Proof.Machine.execSquareDeadline grp s
  | .squareCompletion grp => Sys2Proof.Machine.execSquareCompletion grp s
  | .tsread d => Sys2Proof.Machine.execTsread d s
  | .ctrr d n => Sys2Proof.Machine.execCtrr d n s
  | .jwait d => Sys2Proof.Machine.execJwait d s
  | .jline v a im => Sys2Proof.Machine.execJline v a im s
  | .jemit v a im => Sys2Proof.Machine.execJemit v a im s
  | .jrow => Sys2Proof.Machine.execJrow s
  | .jsub r => Sys2Proof.Machine.execJsub r s
  | .jstat d n => Sys2Proof.Machine.execJstat d n s
  | .jtile a => Sys2Proof.Machine.execJtile a s
  | .csrr d n => Sys2Proof.Machine.execCsrr d n s
  | .csrw d a n => Sys2Proof.Machine.execCsrw d a n s
  | .csrs d a n => Sys2Proof.Machine.execCsrs d a n s
  | .csrc d a n => Sys2Proof.Machine.execCsrc d a n s
  | .trap n => Sys2Proof.Machine.execTrap n s
  | .tret => Sys2Proof.Machine.execTret s
  | .waitev d m => Sys2Proof.Machine.execWaitev d m s
  | .trapEntry bay => Sys2Proof.Machine.execTrapEntry bay s
  | .vadd g d a b => Sys2Proof.Machine.execVadd g d a b s
  | .vaddK g d a k => Sys2Proof.Machine.execVaddK g d a k s
  | .vaddI g d a im => Sys2Proof.Machine.execVaddI g d a im s
  | .vsub g d a b => Sys2Proof.Machine.execVsub g d a b s
  | .vsubK g d a k => Sys2Proof.Machine.execVsubK g d a k s
  | .vsubI g d a im => Sys2Proof.Machine.execVsubI g d a im s
  | .vmul g d a b => Sys2Proof.Machine.execVmul g d a b s
  | .vmulK g d a k => Sys2Proof.Machine.execVmulK g d a k s
  | .vmulI g d a im => Sys2Proof.Machine.execVmulI g d a im s
  | .vmadd g d a b => Sys2Proof.Machine.execVmadd g d a b s
  | .vmaddK g d a k => Sys2Proof.Machine.execVmaddK g d a k s
  | .vmaddI g d a im => Sys2Proof.Machine.execVmaddI g d a im s
  | .vmsub g d a b => Sys2Proof.Machine.execVmsub g d a b s
  | .vmsubK g d a k => Sys2Proof.Machine.execVmsubK g d a k s
  | .vmsubI g d a im => Sys2Proof.Machine.execVmsubI g d a im s
  | .vmin g d a b => Sys2Proof.Machine.execVmin g d a b s
  | .vminK g d a k => Sys2Proof.Machine.execVminK g d a k s
  | .vminI g d a im => Sys2Proof.Machine.execVminI g d a im s
  | .vmax g d a b => Sys2Proof.Machine.execVmax g d a b s
  | .vmaxK g d a k => Sys2Proof.Machine.execVmaxK g d a k s
  | .vmaxI g d a im => Sys2Proof.Machine.execVmaxI g d a im s
  | .vabs g d a => Sys2Proof.Machine.execVabs g d a s
  | .vneg g d a => Sys2Proof.Machine.execVneg g d a s
  | .vand g d a b => Sys2Proof.Machine.execVand g d a b s
  | .vandK g d a k => Sys2Proof.Machine.execVandK g d a k s
  | .vandI g d a im => Sys2Proof.Machine.execVandI g d a im s
  | .vor g d a b => Sys2Proof.Machine.execVor g d a b s
  | .vorK g d a k => Sys2Proof.Machine.execVorK g d a k s
  | .vorI g d a im => Sys2Proof.Machine.execVorI g d a im s
  | .vxor g d a b => Sys2Proof.Machine.execVxor g d a b s
  | .vxorK g d a k => Sys2Proof.Machine.execVxorK g d a k s
  | .vxorI g d a im => Sys2Proof.Machine.execVxorI g d a im s
  | .vshl g d a b => Sys2Proof.Machine.execVshl g d a b s
  | .vshlK g d a k => Sys2Proof.Machine.execVshlK g d a k s
  | .vshlI g d a im => Sys2Proof.Machine.execVshlI g d a im s
  | .vshr g d a b => Sys2Proof.Machine.execVshr g d a b s
  | .vshrK g d a k => Sys2Proof.Machine.execVshrK g d a k s
  | .vshrI g d a im => Sys2Proof.Machine.execVshrI g d a im s
  | .vsar g d a b => Sys2Proof.Machine.execVsar g d a b s
  | .vsarK g d a k => Sys2Proof.Machine.execVsarK g d a k s
  | .vsarI g d a im => Sys2Proof.Machine.execVsarI g d a im s
  | .vsel neg g d a b => Sys2Proof.Machine.execVsel neg g d a b s
  | .vselK neg g d a k => Sys2Proof.Machine.execVselK neg g d a k s
  | .vselI neg g d a im => Sys2Proof.Machine.execVselI neg g d a im s
  | .vcmpeq g p a b => Sys2Proof.Machine.execVcmpeq g p a b s
  | .vcmpeqK g p a k => Sys2Proof.Machine.execVcmpeqK g p a k s
  | .vcmpeqI g p a im => Sys2Proof.Machine.execVcmpeqI g p a im s
  | .vcmpne g p a b => Sys2Proof.Machine.execVcmpne g p a b s
  | .vcmpneK g p a k => Sys2Proof.Machine.execVcmpneK g p a k s
  | .vcmpneI g p a im => Sys2Proof.Machine.execVcmpneI g p a im s
  | .vcmplt g p a b => Sys2Proof.Machine.execVcmplt g p a b s
  | .vcmpltK g p a k => Sys2Proof.Machine.execVcmpltK g p a k s
  | .vcmpltI g p a im => Sys2Proof.Machine.execVcmpltI g p a im s
  | .vcmple g p a b => Sys2Proof.Machine.execVcmple g p a b s
  | .vcmpleK g p a k => Sys2Proof.Machine.execVcmpleK g p a k s
  | .vcmpleI g p a im => Sys2Proof.Machine.execVcmpleI g p a im s
  | .vwadd g d a b => Sys2Proof.Machine.execVwadd g d a b s
  | .vwaddK g d a k => Sys2Proof.Machine.execVwaddK g d a k s
  | .vwaddI g d a im => Sys2Proof.Machine.execVwaddI g d a im s
  | .vwmul g d a b => Sys2Proof.Machine.execVwmul g d a b s
  | .vwmulK g d a k => Sys2Proof.Machine.execVwmulK g d a k s
  | .vwmulI g d a im => Sys2Proof.Machine.execVwmulI g d a im s
  | .vwmadd g d a b => Sys2Proof.Machine.execVwmadd g d a b s
  | .vwmaddK g d a k => Sys2Proof.Machine.execVwmaddK g d a k s
  | .vwmaddI g d a im => Sys2Proof.Machine.execVwmaddI g d a im s
  | .vdot4 g d a b => Sys2Proof.Machine.execVdot4 g d a b s
  | .vdot4K g d a k => Sys2Proof.Machine.execVdot4K g d a k s
  | .vcvt g d a f => Sys2Proof.Machine.execVcvt g d a f s
  | .vnarrow g d a f => Sys2Proof.Machine.execVnarrow g d a f s
  | .vquant d a f => Sys2Proof.Machine.execVquant d a f s
  | .vdeq g d a f => Sys2Proof.Machine.execVdeq g d a f s
  | .vlgmul g d a b => Sys2Proof.Machine.execVlgmul g d a b s
  | .vlgadd g d a b => Sys2Proof.Machine.execVlgadd g d a b s
  | .vlgcvt g d a f => Sys2Proof.Machine.execVlgcvt g d a f s
  | .vdiv g d a b => Sys2Proof.Machine.execVdiv g d a b s
  | .vdivK g d a k => Sys2Proof.Machine.execVdivK g d a k s
  | .vexp2 g d a => Sys2Proof.Machine.execVexp2 g d a s
  | .vlog2 g d a => Sys2Proof.Machine.execVlog2 g d a s
  | .vrcp g d a => Sys2Proof.Machine.execVrcp g d a s
  | .vrsqrt g d a => Sys2Proof.Machine.execVrsqrt g d a s
  | .vtanh g d a => Sys2Proof.Machine.execVtanh g d a s
  | .vsigm g d a => Sys2Proof.Machine.execVsigm g d a s
  | .vsqrt g d a => Sys2Proof.Machine.execVsqrt g d a s
  | .vrsum g d a => Sys2Proof.Machine.execVrsum g d a s
  | .vrmax g d a => Sys2Proof.Machine.execVrmax g d a s
  | .vrmin g d a => Sys2Proof.Machine.execVrmin g d a s
  | .vscan g d a => Sys2Proof.Machine.execVscan g d a s
  | .vscanExcl g d a => Sys2Proof.Machine.execVscanExcl g d a s
  | .vperm g d a b => Sys2Proof.Machine.execVperm g d a b s
  | .vslideK g d a k => Sys2Proof.Machine.execVslideK g d a k s
  | .vslideI g d a im => Sys2Proof.Machine.execVslideI g d a im s
  | .vbcastK g d a k => Sys2Proof.Machine.execVbcastK g d a k s
  | .vbcastI g d a im => Sys2Proof.Machine.execVbcastI g d a im s
  | .vzip g d a b => Sys2Proof.Machine.execVzip g d a b s
  | .vunzip g d a => Sys2Proof.Machine.execVunzip g d a s
  | .pand g d a b => Sys2Proof.Machine.execPand g d a b s
  | .por g d a b => Sys2Proof.Machine.execPor g d a b s
  | .pxor g d a b => Sys2Proof.Machine.execPxor g d a b s
  | .pnot g d a => Sys2Proof.Machine.execPnot g d a s
  | .pcnt g k p => Sys2Proof.Machine.execPcnt g k p s
  | .pfirst g k p => Sys2Proof.Machine.execPfirst g k p s
  | .plenK g p k => Sys2Proof.Machine.execPlenK g p k s
  | .plenI g p im => Sys2Proof.Machine.execPlenI g p im s
  | .vld g d h n k => Sys2Proof.Machine.execVld g d h n k s
  | .vst g d h n k => Sys2Proof.Machine.execVst g d h n k s
  | .vldx g d h b => Sys2Proof.Machine.execVldx g d h b s
  | .vstx g d h b => Sys2Proof.Machine.execVstx g d h b s
  | .vrand g d => Sys2Proof.Machine.execVrand g d s
  | .vshape k => Sys2Proof.Machine.execVshape k s
  | .vmov g d a => Sys2Proof.Machine.execVmov g d a s
  | .vmovK g d k => Sys2Proof.Machine.execVmovK g d k s
  | .vmovI g d im => Sys2Proof.Machine.execVmovI g d im s
  | .vrot => Sys2Proof.Machine.execVrot s
  | .vloop c len k => Sys2Proof.Machine.execVloop c len k s
  | .vloopi c len n => Sys2Proof.Machine.execVloopi c len n s
  | .vloopr x c len h => Sys2Proof.Machine.execVloopr x c len h s
  | .vpegw m => Sys2Proof.Machine.execVpegw m s
  | .vpegs m => Sys2Proof.Machine.execVpegs m s
  | .vend => Sys2Proof.Machine.execVend s
  | .vkset k im => Sys2Proof.Machine.execVkset k im s
  | .tlease w p t => Sys2Proof.Machine.execTlease w p t s
  | .tfree w p t => Sys2Proof.Machine.execTfree w p t s
  | .tloadb w p m t => Sys2Proof.Machine.execTloadb w p m t s
  | .tmma w p m f t => Sys2Proof.Machine.execTmma w p m f t s
  | .tmmas w p m f t => Sys2Proof.Machine.execTmmas w p m f t s
  | .tpromo w p m f t => Sys2Proof.Machine.execTpromo w p m f t s
  | .tdrain w p m f t => Sys2Proof.Machine.execTdrain w p m f t s
  | .tzero w p m f t => Sys2Proof.Machine.execTzero w p m f t s
  | .tcommit w p m t => Sys2Proof.Machine.execTcommit w p m t s
  | .tdiscard w p m t => Sys2Proof.Machine.execTdiscard w p m t s
  | .tsign w p m t => Sys2Proof.Machine.execTsign w p m t s
  | .tbucket w p m t => Sys2Proof.Machine.execTbucket w p m t s
  | .trepsFirst w p m t => Sys2Proof.Machine.execTrepsFirst w p m t s
  | .trepsMean w p m t => Sys2Proof.Machine.execTrepsMean w p m t s
  | .trepsNormmax w p m t => Sys2Proof.Machine.execTrepsNormmax w p m t s
  | .tscat w p m f t => Sys2Proof.Machine.execTscat w p m f t s
  | .tmgrad w p m t => Sys2Proof.Machine.execTmgrad w p m t s
  | .tnop w p t => Sys2Proof.Machine.execTnop w p t s
  | .sloop k len => Sys2Proof.Machine.execSloop k len s
  | .leaseGrant bent => Sys2Proof.Machine.execLeaseGrant bent s
  | .leaseWindowEnd bay => Sys2Proof.Machine.execLeaseWindowEnd bay s
  | .trussCommandStart bent => Sys2Proof.Machine.execTrussCommandStart bent s
  | .trussRowWrite bent => Sys2Proof.Machine.execTrussRowWrite bent s
  | .trussCommandCompletion bay => Sys2Proof.Machine.execTrussCommandCompletion bay s
  | .xcopy w p c t => Sys2Proof.Machine.execXcopy w p c t s
  | .xcast w p c t => Sys2Proof.Machine.execXcast w p c t s
  | .xaddw w p c t => Sys2Proof.Machine.execXaddw w p c t s
  | .xredAddf32 w p c t => Sys2Proof.Machine.execXredAddf32 w p c t s
  | .xredAddi32 w p c t => Sys2Proof.Machine.execXredAddi32 w p c t s
  | .xredMaxf32 w p c t => Sys2Proof.Machine.execXredMaxf32 w p c t s
  | .xredMinf32 w p c t => Sys2Proof.Machine.execXredMinf32 w p c t s
  | .xredMaxi32 w p c t => Sys2Proof.Machine.execXredMaxi32 w p c t s
  | .xredMini32 w p c t => Sys2Proof.Machine.execXredMini32 w p c t s
  | .xgath w p c t => Sys2Proof.Machine.execXgath w p c t s
  | .xscat w p c t => Sys2Proof.Machine.execXscat w p c t s
  | .xconv w p c t => Sys2Proof.Machine.execXconv w p c t s
  | .xfill w p c t => Sys2Proof.Machine.execXfill w p c t s
  | .xord w p t => Sys2Proof.Machine.execXord w p t s
  | .xnop w p t => Sys2Proof.Machine.execXnop w p t s
  | .copySectorMove bay unit n => Sys2Proof.Machine.execCopySectorMove bay unit n s
  | .copyCompletion bay unit n => Sys2Proof.Machine.execCopyCompletion bay unit n s
  | .xaddwLineWrite bay n => Sys2Proof.Machine.execXaddwLineWrite bay n s
  | .xredRequestApply bay n => Sys2Proof.Machine.execXredRequestApply bay n s
  | .xredAck bay n => Sys2Proof.Machine.execXredAck bay n s
  | .xredResend bay n => Sys2Proof.Machine.execXredResend bay n s
  | .storeCompletion bay n => Sys2Proof.Machine.execStoreCompletion bay n s
  | .deferredPegPush bay unit => Sys2Proof.Machine.execDeferredPegPush bay unit s
  | .streamEnd bay eng => Sys2Proof.Machine.execStreamEnd bay eng s
  | .codeFetch bay => Sys2Proof.Machine.execCodeFetch bay s
  | .idle n => Sys2Proof.Machine.execIdle n s
  | .lswap => Sys2Proof.Machine.execLswap s
  | .lckpt n => Sys2Proof.Machine.execLckpt n s
  | .lgath sz im o => Sys2Proof.Machine.execLgath sz im o s
  | .lsort sz im o => Sys2Proof.Machine.execLsort sz im o s
  | .lmerge sz im o j => Sys2Proof.Machine.execLmerge sz im o j s
  | .lroute sz im m => Sys2Proof.Machine.execLroute sz im m s
  | .ltopk sz im o => Sys2Proof.Machine.execLtopk sz im o s
  | .hprobe im o f => Sys2Proof.Machine.execHprobe im o f s
  | .hins im f => Sys2Proof.Machine.execHins im f s
  | .hdel im f => Sys2Proof.Machine.execHdel im f s
  | .hrehashBegin t => Sys2Proof.Machine.execHrehashBegin t s
  | .hrehash t n => Sys2Proof.Machine.execHrehash t n s
  | .hfence im o => Sys2Proof.Machine.execHfence im o s
  | .ldedup sz im o => Sys2Proof.Machine.execLdedup sz im o s
  | .lcompact sz im o => Sys2Proof.Machine.execLcompact sz im o s
  | .lscan sz im o x => Sys2Proof.Machine.execLscan sz im o x s
  | .lhist sz im o => Sys2Proof.Machine.execLhist sz im o s
  | .hashUpdateCompletion lath n => Sys2Proof.Machine.execHashUpdateCompletion lath n s
  | .lathTokenArrival lath port src => Sys2Proof.Machine.execLathTokenArrival lath port src s
  | .batchStoreMove lath port src => Sys2Proof.Machine.execBatchStoreMove lath port src s
  | .tokenEmission lath port => Sys2Proof.Machine.execTokenEmission lath port s
  | .loaderCompletion lath => Sys2Proof.Machine.execLoaderCompletion lath s
  | .parityError lath => Sys2Proof.Machine.execParityError lath s
  | .reloadCompletion lath masterBad => Sys2Proof.Machine.execReloadCompletion lath masterBad s
  | .channelElementArrival bay ch => Sys2Proof.Machine.execChannelElementArrival bay ch s
  | .creditReturn bay ch => Sys2Proof.Machine.execCreditReturn bay ch s
  | .channelAudit bay ch => Sys2Proof.Machine.execChannelAudit bay ch s
  | .auditCheck bay ch => Sys2Proof.Machine.execAuditCheck bay ch s
  | .resyncReturn bay ch => Sys2Proof.Machine.execResyncReturn bay ch s
  | .resyncApply bay ch => Sys2Proof.Machine.execResyncApply bay ch s
  | .csi2FrameStart port vc => Sys2Proof.Machine.execCsi2FrameStart port vc s
  | .csi2FrameEnd port vc => Sys2Proof.Machine.execCsi2FrameEnd port vc s
  | .csi2LineStart port vc num => Sys2Proof.Machine.execCsi2LineStart port vc num s
  | .csi2LongPacket port vc dt bytes crcOk hdrOk => Sys2Proof.Machine.execCsi2LongPacket port vc dt bytes crcOk hdrOk s
  | .csi2LineEnd port vc => Sys2Proof.Machine.execCsi2LineEnd port vc s
  | .csi2UnsupportedPacket port vc => Sys2Proof.Machine.execCsi2UnsupportedPacket port vc s
  | .lineTimeout chain => Sys2Proof.Machine.execLineTimeout chain s
  | .lidarFrame port frame fcsOk => Sys2Proof.Machine.execLidarFrame port frame fcsOk s
  | .lidarFramePeriod chain => Sys2Proof.Machine.execLidarFramePeriod chain s
  | .gptpAnnounce port gm => Sys2Proof.Machine.execGptpAnnounce port gm s
  | .gptpSync port twoStep stamp => Sys2Proof.Machine.execGptpSync port twoStep stamp s
  | .gptpFollowUp port stamp => Sys2Proof.Machine.execGptpFollowUp port stamp s
  | .pdelayRequest port req => Sys2Proof.Machine.execPdelayRequest port req s
  | .pdelayOriginate port => Sys2Proof.Machine.execPdelayOriginate port s
  | .pdelayResponse port delay => Sys2Proof.Machine.execPdelayResponse port delay s
  | .syncLoss => Sys2Proof.Machine.execSyncLoss s
  | .scheduleFrameOrigin part => Sys2Proof.Machine.execScheduleFrameOrigin part s
  | .admission part => Sys2Proof.Machine.execAdmission part s
  | .dependenceMet slot => Sys2Proof.Machine.execDependenceMet slot s
  | .selection part => Sys2Proof.Machine.execSelection part s
  | .planeFlip bay => Sys2Proof.Machine.execPlaneFlip bay s
  | .aging slot => Sys2Proof.Machine.execAging slot s
  | .jobCompletion slot => Sys2Proof.Machine.execJobCompletion slot s
  | .jobTime slot => Sys2Proof.Machine.execJobTime slot s
  | .jobKill slot => Sys2Proof.Machine.execJobKill slot s
  | .preemption slot => Sys2Proof.Machine.execPreemption slot s
  | .saveComplete slot => Sys2Proof.Machine.execSaveComplete slot s
  | .pageFaultService part n => Sys2Proof.Machine.execPageFaultService part n s
  | .faultTimeout part n => Sys2Proof.Machine.execFaultTimeout part n s
  | .pageEviction part tid tile back => Sys2Proof.Machine.execPageEviction part tid tile back s
  | .pageMigration part tid tile frame => Sys2Proof.Machine.execPageMigration part tid tile frame s
  | .migrationRecheck part n => Sys2Proof.Machine.execMigrationRecheck part n s
  | .migrationTimeout part n => Sys2Proof.Machine.execMigrationTimeout part n s
  | .invalidationComplete part => Sys2Proof.Machine.execInvalidationComplete part s
  | .pairMerge slot => Sys2Proof.Machine.execPairMerge slot s
  | .pairTwinTimeout slot => Sys2Proof.Machine.execPairTwinTimeout slot s
  | .replayTimeout part => Sys2Proof.Machine.execReplayTimeout part s
  | .boot ok => Sys2Proof.Machine.execBoot ok s
  | .linkFatal peer => Sys2Proof.Machine.execLinkFatal peer s
  | .flr part => Sys2Proof.Machine.execFlr part s
  | .partitionSetup part => Sys2Proof.Machine.execPartitionSetup part s
  | .partitionTeardown part => Sys2Proof.Machine.execPartitionTeardown part s
  | .queueRegistration part q lo hi => Sys2Proof.Machine.execQueueRegistration part q lo hi s
  | .doorbell part q v => Sys2Proof.Machine.execDoorbell part q v s
  | .chainEnable part chain => Sys2Proof.Machine.execChainEnable part chain s
  | .chainDisable part chain => Sys2Proof.Machine.execChainDisable part chain s
  | .hostRegisterWrite fn off v => Sys2Proof.Machine.execHostRegisterWrite fn off v s
  | .preempt part => Sys2Proof.Machine.execPreempt part s
  | .kill part => Sys2Proof.Machine.execKill part s
  | .pageResp part => Sys2Proof.Machine.execPageResp part s
  | .inval part => Sys2Proof.Machine.execInval part s
  | .sensor part => Sys2Proof.Machine.execSensor part s
  | .chaincode part => Sys2Proof.Machine.execChaincode part s
  | .stage => Sys2Proof.Machine.execStage s
  | .activate => Sys2Proof.Machine.execActivate s
  | .activateLive => Sys2Proof.Machine.execActivateLive s
  | .logdesc => Sys2Proof.Machine.execLogdesc s
  | .logrel => Sys2Proof.Machine.execLogrel s
  | .testint => Sys2Proof.Machine.execTestint s
  | .evring => Sys2Proof.Machine.execEvring s
  | .framerHeartbeat => Sys2Proof.Machine.execFramerHeartbeat s
  | .updateRollback => Sys2Proof.Machine.execUpdateRollback s
  | .framerSilent => Sys2Proof.Machine.execFramerSilent s
  | .sensorSample => Sys2Proof.Machine.execSensorSample s
  | .thermalTrip sensor => Sys2Proof.Machine.execThermalTrip sensor s
  | .voltageMonitor sensor => Sys2Proof.Machine.execVoltageMonitor sensor s
  | .clockMonitor sensor => Sys2Proof.Machine.execClockMonitor sensor s
  | .conditionCleared part => Sys2Proof.Machine.execConditionCleared part s
  | .selfTest test unit pass => Sys2Proof.Machine.execSelfTest test unit pass s
  | .spareInsertion unit owner n => Sys2Proof.Machine.execSpareInsertion unit owner n s
  | .sliceCopyComplete slice => Sys2Proof.Machine.execSliceCopyComplete slice s
  | .doeDiscovery => Sys2Proof.Machine.execDoeDiscovery s
  | .getVersion => Sys2Proof.Machine.execGetVersion s
  | .getCapabilities => Sys2Proof.Machine.execGetCapabilities s
  | .negotiateAlgorithms => Sys2Proof.Machine.execNegotiateAlgorithms s
  | .getDigests => Sys2Proof.Machine.execGetDigests s
  | .getCertificate off len => Sys2Proof.Machine.execGetCertificate off len s
  | .challenge nonce => Sys2Proof.Machine.execChallenge nonce s
  | .getMeasurements index nonce => Sys2Proof.Machine.execGetMeasurements index nonce s
  | .encodingFault cause => Sys2Proof.Machine.execEncodingFault cause s
  | .unitNotTested test unit => Sys2Proof.Machine.execUnitNotTested test unit s
  | .uplinkReply port reply => Sys2Proof.Machine.execUplinkReply port reply s

end Sys2Proof.Machine
end

