-- ==== Sys2Proof/Decode.lean ====
section
/-! DEFINITION. From words to instructions and back (spec/02_encoding.md R36 to R60). A row of an opcode table says what its
word stands for and which of the encoding conditions of R54 hold of it; `checkRow` names the first that applies (R55). -/

namespace Sys2Proof

/-- The bits of `w` from `lo`, `len` of them. -/
def fld (w : BitVec 32) (lo len : Nat) : BitVec len := BitVec.ofNat len (w.toNat / 2 ^ lo)

/-- A field that is not zero. -/
def nz (w : BitVec 32) (lo len : Nat) : Bool := w.toNat / 2 ^ lo % 2 ^ len != 0

/-- The guard fields E, S and G (R43). -/
def guardOf (w : BitVec 32) : Guard := { e := nz w 31 1, inv := nz w 30 1, p := fld w 26 4 }

/-- With E = 0, S and G must be zero (R43). -/
def guardBad (w : BitVec 32) : Bool := !nz w 31 1 && nz w 26 5

/-- The format codes of R75. -/
def fmtKnown (f : BitVec 6) : Bool :=
  [0x01, 0x02, 0x03, 0x04, 0x05, 0x09, 0x0A, 0x0B, 0x0C, 0x0D, 0x10, 0x11, 0x12, 0x13, 0x14, 0x15, 0x18, 0x19, 0x1A, 0x1B].contains f.toNat

/-- The block formats, the integer formats, and the formats of VLGCVT (R152 to R154, R158). -/
def fmtBlock (f : BitVec 6) : Bool := [0x18, 0x19, 0x1A, 0x1B].contains f.toNat
def fmtInt (f : BitVec 6) : Bool := [0x01, 0x02, 0x03, 0x04, 0x05, 0x09, 0x0A, 0x0B, 0x0C, 0x0D].contains f.toNat
def fmtSum (f : BitVec 6) : Bool := [0x12, 0x13, 0x14, 0x15].contains f.toNat

/-- Kind, index and word of a parameter number (R42). -/
def parSplit (p : BitVec 12) : Nat × Nat × Nat := (p.toNat / 512, p.toNat / 32 % 16, p.toNat % 32)

/-- The parameter numbers that name a register (R42, R183). -/
def parKnown (p : BitVec 12) : Bool :=
  match parSplit p with
  | (0, _, w) => decide (w < 2)
  | (1, _, w) => decide (w < 8)
  | (2, _, w) => decide (w < 21)
  | (3, i, w) => decide (i < 8) && decide (w < 3)
  | (4, _, w) => decide (w < 2)
  | _ => false

/-- SETPAR does not reach word 1 of a z set (R187). -/
def parWritable (p : BitVec 12) : Bool := parKnown p && !((parSplit p).1 == 4 && (parSplit p).2.2 == 1)

/-- The six classes of laths (R327). -/
inductive LathClass where
  | gather | sort | route | hash | dedupe | scan
deriving DecidableEq, Repr

/-- Where a word is fetched from (R36). A jointer's family bit is part of the place; `last` says that the jointer is the last of its
chain, the only position that has JTILE (spec/15_jointers.md R359). -/
inductive Place where
  | seq
  | jointerScalar (last : Bool)
  | vec
  | jointerVector
  | mtx
  | ld
  | st
  | lath (cls : LathClass)
deriving DecidableEq, Repr

/-- The kinds of encoding fault (R54). -/
inductive EncKind where
  | reservedOpcode | reservedField | outOfRange | misaligned | formNotAllowed | notAvailable | stampUnstamped | allZero
deriving DecidableEq, Repr

/-- The kind's column in the table of R54. -/
def EncKind.code : EncKind → Nat
  | .reservedOpcode => 0
  | .reservedField => 1
  | .outOfRange => 2
  | .misaligned => 3
  | .formNotAllowed => 4
  | .notAvailable => 5
  | .stampUnstamped => 6
  | .allZero => 7

/-- The family's row in the table of R54. -/
def Place.family : Place → Nat
  | .seq | .jointerScalar _ => 0
  | .vec | .jointerVector => 1
  | .mtx | .ld | .st => 2
  | .lath _ => 3

/-- The encoding-class cause: family × 8 + kind (R54). -/
def encCause (p : Place) (k : EncKind) : BitVec 8 := BitVec.ofNat 8 (p.family * 8 + k.code)

/-- Where a row's instruction is available (R50, R53, R59, R60). -/
inductive Avail where
  | any | seq | jointer | lastJointer | vec | load | store
  | lath (c : LathClass)
deriving DecidableEq, Repr

def Avail.holds : Avail → Place → Bool
  | .any, _ => true
  | .seq, .seq => true
  | .jointer, .jointerScalar _ => true
  | .lastJointer, .jointerScalar l => l
  | .vec, .vec => true
  | .load, .ld => true
  | .store, .st => true
  | .lath c, .lath d => c == d
  | _, _ => false

/-- What an opcode table says of one word: the instruction (none where the operand form is not listed), and which conditions of R54
it meets. `vregs` are the vector registers it names, which a jointer has only up to v15 (R59). -/
structure Row where
  instr : Option Instr := none
  avail : Avail := .any
  unused : Bool := false
  range : Bool := false
  vregs : List (BitVec 6) := []
  misaligned : Bool := false
  form : Bool := false

/-- The first kind that applies, in the order of R55. -/
def checkRow (p : Place) (r : Row) : Except EncKind Instr :=
  if !r.avail.holds p then .error .notAvailable
  else if r.unused then .error .reservedField
  else if r.range || (p == .jointerVector && r.vregs.any fun v => decide (v.toNat > 15)) then .error .outOfRange
  else if r.misaligned then .error .misaligned
  else if r.form then .error .formNotAllowed
  else match r.instr with
    | some i => .ok i
    | none => .error .formNotAllowed

/-- The ALU-R group (R40, R109): fn10 0 to 25. -/
def aluRow (w : BitVec 32) : Option Row :=
  match (fld w 0 10).toNat with
  | 0 => some { instr := some (.add (fld w 20 5) (fld w 15 5) (fld w 10 5)) }
  | 1 => some { instr := some (.sub (fld w 20 5) (fld w 15 5) (fld w 10 5)) }
  | 2 => some { instr := some (.mul (fld w 20 5) (fld w 15 5) (fld w 10 5)) }
  | 3 => some { instr := some (.mulh (fld w 20 5) (fld w 15 5) (fld w 10 5)) }
  | 4 => some { instr := some (.mulhw (fld w 20 5) (fld w 15 5) (fld w 10 5)) }
  | 5 => some { instr := some (.div (fld w 20 5) (fld w 15 5) (fld w 10 5)) }
  | 6 => some { instr := some (.divw (fld w 20 5) (fld w 15 5) (fld w 10 5)) }
  | 7 => some { instr := some (.rem (fld w 20 5) (fld w 15 5) (fld w 10 5)) }
  | 8 => some { instr := some (.remw (fld w 20 5) (fld w 15 5) (fld w 10 5)) }
  | 9 => some { instr := some (.and (fld w 20 5) (fld w 15 5) (fld w 10 5)) }
  | 10 => some { instr := some (.or (fld w 20 5) (fld w 15 5) (fld w 10 5)) }
  | 11 => some { instr := some (.xor (fld w 20 5) (fld w 15 5) (fld w 10 5)) }
  | 12 => some { instr := some (.andn (fld w 20 5) (fld w 15 5) (fld w 10 5)) }
  | 13 => some { instr := some (.shl (fld w 20 5) (fld w 15 5) (fld w 10 5)) }
  | 14 => some { instr := some (.shr (fld w 20 5) (fld w 15 5) (fld w 10 5)) }
  | 15 => some { instr := some (.sar (fld w 20 5) (fld w 15 5) (fld w 10 5)) }
  | 16 => some { instr := some (.rol (fld w 20 5) (fld w 15 5) (fld w 10 5)) }
  | 17 => some { instr := some (.min (fld w 20 5) (fld w 15 5) (fld w 10 5)) }
  | 18 => some { instr := some (.max (fld w 20 5) (fld w 15 5) (fld w 10 5)) }
  | 19 => some { instr := some (.minw (fld w 20 5) (fld w 15 5) (fld w 10 5)) }
  | 20 => some { instr := some (.maxw (fld w 20 5) (fld w 15 5) (fld w 10 5)) }
  | 21 => some { instr := some (.slt (fld w 20 5) (fld w 15 5) (fld w 10 5)) }
  | 22 => some { instr := some (.sltw (fld w 20 5) (fld w 15 5) (fld w 10 5)) }
  | 23 => some { instr := some (.clz (fld w 20 5) (fld w 15 5)), unused := nz w 10 5 }
  | 24 => some { instr := some (.ctz (fld w 20 5) (fld w 15 5)), unused := nz w 10 5 }
  | 25 => some { instr := some (.popc (fld w 20 5) (fld w 15 5)), unused := nz w 10 5 }
  | _ => none

/-- The AMO operations (R40): 0 to 5. -/
def amoRow (w : BitVec 32) : Option Row :=
  match (fld w 0 3).toNat with
  | 0 => some { instr := some (.amoAdd (fld w 20 5) (fld w 15 5) (fld w 11 4) (fld w 6 5) (fld w 5 1)), unused := nz w 3 2, avail := .seq }
  | 1 => some { instr := some (.amoMin (fld w 20 5) (fld w 15 5) (fld w 11 4) (fld w 6 5) (fld w 5 1)), unused := nz w 3 2, avail := .seq }
  | 2 => some { instr := some (.amoMax (fld w 20 5) (fld w 15 5) (fld w 11 4) (fld w 6 5) (fld w 5 1)), unused := nz w 3 2, avail := .seq }
  | 3 => some { instr := some (.amoSwap (fld w 20 5) (fld w 15 5) (fld w 11 4) (fld w 6 5) (fld w 5 1)), unused := nz w 3 2, avail := .seq }
  | 4 => some { instr := some (.amoCas (fld w 20 5) (fld w 15 5) (fld w 11 4) (fld w 6 5) (fld w 5 1)), unused := nz w 3 2, avail := .seq }
  | 5 => some { instr := some (.amoOr (fld w 20 5) (fld w 15 5) (fld w 11 4) (fld w 6 5) (fld w 5 1)), unused := nz w 3 2, avail := .seq }
  | _ => none

/-- The scalar opcode table (R40), one arm an op7; `none` is a reserved opcode. -/
def scalarRow (w : BitVec 32) : Option Row :=
  match (fld w 25 7).toNat with
  | 1 => aluRow w
  | 2 => some { instr := some (.addi (fld w 20 5) (fld w 15 5) (fld w 0 15)) }
  | 3 => some { instr := some (.andi (fld w 20 5) (fld w 15 5) (fld w 0 15)) }
  | 4 => some { instr := some (.ori (fld w 20 5) (fld w 15 5) (fld w 0 15)) }
  | 5 => some { instr := some (.xori (fld w 20 5) (fld w 15 5) (fld w 0 15)) }
  | 6 => some { instr := some (.shli (fld w 20 5) (fld w 15 5) (fld w 0 6)), unused := nz w 6 9 }
  | 7 => some { instr := some (.shri (fld w 20 5) (fld w 15 5) (fld w 0 6)), unused := nz w 6 9 }
  | 8 => some { instr := some (.sari (fld w 20 5) (fld w 15 5) (fld w 0 6)), unused := nz w 6 9 }
  | 9 => some { instr := some (.slti (fld w 20 5) (fld w 15 5) (fld w 0 15)) }
  | 10 => some { instr := some (.lui (fld w 20 5) (fld w 0 20)) }
  | 11 => match (fld w 0 2).toNat with
    | 0 => some { instr := some (.bfx (fld w 20 5) (fld w 15 5) (fld w 9 6) (fld w 2 7)), range := decide ((fld w 2 7).toNat > 64) }
    | 1 => some { instr := some (.bfxReg (fld w 20 5) (fld w 15 5) (fld w 9 5)), unused := nz w 2 7 || nz w 14 1 }
    | _ => some { unused := true }
  | 12 => match (fld w 0 2).toNat with
    | 0 => some { instr := some (.bfxs (fld w 20 5) (fld w 15 5) (fld w 9 6) (fld w 2 7)), range := decide ((fld w 2 7).toNat > 64) }
    | 1 => some { instr := some (.bfxsReg (fld w 20 5) (fld w 15 5) (fld w 9 5)), unused := nz w 2 7 || nz w 14 1 }
    | _ => some { unused := true }
  | 13 => match (fld w 0 2).toNat with
    | 0 => some { instr := some (.bfi (fld w 20 5) (fld w 15 5) (fld w 9 6) (fld w 2 7)), range := decide ((fld w 2 7).toNat > 64) }
    | 1 => some { instr := some (.bfiReg (fld w 20 5) (fld w 15 5) (fld w 9 5)), unused := nz w 2 7 || nz w 14 1 }
    | _ => some { unused := true }
  | 16 => some { instr := some (.beq (fld w 20 5) (fld w 15 5) (fld w 0 15)) }
  | 17 => some { instr := some (.bne (fld w 20 5) (fld w 15 5) (fld w 0 15)) }
  | 18 => some { instr := some (.blt (fld w 20 5) (fld w 15 5) (fld w 0 15)) }
  | 19 => some { instr := some (.bge (fld w 20 5) (fld w 15 5) (fld w 0 15)) }
  | 20 => some { instr := some (.bltw (fld w 20 5) (fld w 15 5) (fld w 0 15)) }
  | 21 => some { instr := some (.bgew (fld w 20 5) (fld w 15 5) (fld w 0 15)) }
  | 22 => some { instr := some (.jal (fld w 20 5) (fld w 0 20)) }
  | 23 => some { instr := some (.jalr (fld w 20 5) (fld w 15 5) (fld w 0 15)) }
  | 24 => match (fld w 22 1).toNat with
    | 0 => some { instr := some (.loop (fld w 23 2) (fld w 15 5) (fld w 0 8)), unused := nz w 8 7 || nz w 20 2, range := !nz w 0 8 }
    | _ => some { instr := some (.loopStrided (fld w 23 2) (fld w 15 5) (fld w 10 5) (fld w 0 8)), unused := nz w 8 2 || nz w 20 2, range := !nz w 0 8, misaligned := nz w 10 1 }
  | 25 => some { instr := some (.loopi (fld w 23 2) (fld w 8 15) (fld w 0 8)), range := !nz w 0 8 }
  | 26 => some { instr := some (.loopr (fld w 23 2) (fld w 15 5) (fld w 11 4) (fld w 0 8)), unused := nz w 8 3 || nz w 20 3, range := !nz w 0 8 }
  | 32 => some { instr := some (.ld (fld w 20 5) (fld w 15 5) (fld w 11 4) (fld w 9 2) (fld w 0 9)), avail := .seq }
  | 33 => some { instr := some (.lds (fld w 20 5) (fld w 15 5) (fld w 11 4) (fld w 9 2) (fld w 0 9)), form := fld w 9 2 == 3#2, avail := .seq }
  | 34 => some { instr := some (.st (fld w 20 5) (fld w 15 5) (fld w 11 4) (fld w 9 2) (fld w 0 9)), avail := .seq }
  | 36 => amoRow w
  | 40 => some { instr := some (.phase), unused := nz w 0 25, avail := .seq }
  | 41 => some { instr := some (.fence (fld w 0 7)), unused := nz w 7 18 }
  | 44 => some { instr := some (.barinit (fld w 15 5) (fld w 11 4) (fld w 4 7)), unused := nz w 0 4 || nz w 20 5, range := !nz w 4 7, avail := .seq }
  | 45 => some { instr := some (.bararr (fld w 15 5) (fld w 11 4) (fld w 7 4)), unused := nz w 0 7 || nz w 20 5, range := !nz w 7 4, avail := .seq }
  | 46 => some { instr := some (.barwait (fld w 20 5) (fld w 15 5) (fld w 11 4) (fld w 7 4) (fld w 2 5)), unused := nz w 0 2, avail := .seq }
  | 48 => some { instr := some (.spawn (fld w 0 4)), unused := nz w 4 21, range := !nz w 0 4, avail := .seq }
  | 49 => some { instr := some (.join), unused := nz w 0 25, avail := .seq }
  | 50 => some { instr := some (.halt), unused := nz w 0 25, avail := .seq }
  | 52 => some { instr := some (.hset (fld w 20 4) (fld w 15 5) (fld w 10 5)), unused := nz w 0 10 || nz w 24 1, avail := .seq }
  | 53 => some { instr := some (.setpar (fld w 15 5) (fld w 3 12)), unused := nz w 0 3 || nz w 20 5, range := !parWritable (fld w 3 12), avail := .seq }
  | 54 => some { instr := some (.getpar (fld w 20 5) (fld w 3 12)), unused := nz w 0 3 || nz w 15 5, range := !parKnown (fld w 3 12), avail := .seq }
  | 56 => some { instr := some (.chpush (fld w 15 5) (fld w 0 6)), unused := nz w 6 9 || nz w 20 5, avail := .seq }
  | 57 => some { instr := some (.chpop (fld w 20 5) (fld w 0 6)), unused := nz w 6 14, avail := .seq }
  | 60 => some { instr := some (.tkwait (fld w 0 3)), unused := nz w 3 22, range := !nz w 0 3, avail := .seq }
  | 61 => some { instr := some (.tksig (fld w 0 4)), unused := nz w 4 21, range := !nz w 0 4, avail := .seq }
  | 64 => some { instr := some (.rowwait (fld w 20 5) (fld w 15 5) (fld w 10 5) (fld w 5 5)), unused := nz w 0 5, avail := .seq }
  | 65 => some { instr := some (.rowpub (fld w 15 5) (fld w 10 5)), unused := nz w 0 10 || nz w 20 5, avail := .seq }
  | 66 => some { instr := some (.frmwait (fld w 20 5) (fld w 15 5) (fld w 5 5)), unused := nz w 0 5 || nz w 10 5, avail := .seq }
  | 67 => some { instr := some (.sqarm (fld w 15 5) (fld w 0 6)), unused := nz w 6 9 || nz w 20 5, avail := .seq }
  | 68 => some { instr := some (.sqwait (fld w 20 5) (fld w 15 5) (fld w 0 6)), unused := nz w 6 9, avail := .seq }
  | 69 => some { instr := some (.sqrel (fld w 0 6)), unused := nz w 6 19, avail := .seq }
  | 70 => some { instr := some (.tsread (fld w 20 5)), unused := nz w 0 20 }
  | 71 => some { instr := some (.ctrr (fld w 20 5) (fld w 3 12)), unused := nz w 0 3 || nz w 15 5 }
  | 72 => some { instr := some (.jwait (fld w 20 5)), unused := nz w 0 20, avail := .jointer }
  | 73 => some { instr := some (.jline (fld w 20 4) (fld w 15 5) (fld w 0 15)), range := nz w 24 1, avail := .jointer }
  | 74 => some { instr := some (.jemit (fld w 20 4) (fld w 15 5) (fld w 0 15)), range := nz w 24 1, avail := .jointer }
  | 75 => some { instr := some (.jrow), unused := nz w 0 25, avail := .jointer }
  | 76 => some { instr := some (.jsub (fld w 0 2)), unused := nz w 2 23, avail := .jointer }
  | 77 => some { instr := some (.jstat (fld w 20 5) (fld w 0 4)), unused := nz w 4 16, range := decide ((fld w 0 4).toNat > 8), avail := .jointer }
  | 78 => some { instr := some (.jtile (fld w 15 5)), unused := nz w 0 15 || nz w 20 5, avail := .lastJointer }
  | 80 => some { instr := some (.csrr (fld w 20 5) (fld w 3 12)), unused := nz w 0 3 || nz w 15 5 }
  | 81 => some { instr := some (.csrw (fld w 20 5) (fld w 15 5) (fld w 3 12)), unused := nz w 0 3, avail := .seq }
  | 82 => some { instr := some (.csrs (fld w 20 5) (fld w 15 5) (fld w 3 12)), unused := nz w 0 3, avail := .seq }
  | 83 => some { instr := some (.csrc (fld w 20 5) (fld w 15 5) (fld w 3 12)), unused := nz w 0 3, avail := .seq }
  | 84 => some { instr := some (.trap (fld w 0 4)), unused := nz w 4 21 }
  | 85 => some { instr := some (.tret), unused := nz w 0 25, avail := .seq }
  | 86 => some { instr := some (.waitev (fld w 20 5) (fld w 0 8)), unused := nz w 8 12, range := !nz w 0 8 || nz w 6 2, avail := .seq }
  | _ => none

/-- The VCTL forms (R45, R172 to R176). -/
def vctlRow (w : BitVec 32) : Option Row :=
  match (fld w 0 2).toNat with
  | 0 => some { instr := some (.vloop (fld w 14 2) (fld w 8 6) (fld w 2 3)), unused := guardBad w || nz w 5 3 || nz w 16 4, range := !nz w 8 6, form := nz w 31 1, avail := .vec }
  | 1 => some { instr := some (.vloopi (fld w 14 2) (fld w 8 6) (fld w 2 6)), unused := guardBad w || nz w 16 4, range := !nz w 8 6, form := nz w 31 1, avail := .vec }
  | 2 => some { instr := some (.vloopr (fld w 16 3) (fld w 14 2) (fld w 8 6) (fld w 2 4)), unused := guardBad w || nz w 6 2 || nz w 19 1, range := !nz w 8 6, form := nz w 31 1, avail := .vec }
  | _ => match (fld w 2 6).toNat with
    | 0 => some { instr := some (.vpegw (fld w 8 3)), unused := guardBad w || nz w 11 9, range := !nz w 8 3, form := nz w 31 1, avail := .vec }
    | 1 => some { instr := some (.vpegs (fld w 8 3)), unused := guardBad w || nz w 11 9, range := !nz w 8 3, form := nz w 31 1, avail := .vec }
    | 2 => some { instr := some (.vend), unused := guardBad w || nz w 8 12, form := nz w 31 1, avail := .vec }
    | 3 => some { instr := some (.vkset (fld w 14 3) (fld w 8 6)), unused := guardBad w || nz w 17 3, form := nz w 31 1, avail := .vec }
    | _ => none

/-- The vector opcode table (R45), one arm an op6. The fields of a row are checked by what the row says of them; a form the
row does not list has no instruction. -/
def vectorRow (w : BitVec 32) : Option Row :=
  match (fld w 20 6).toNat with
  | 1 => match (fld w 0 2).toNat with
    | 0 => some { instr := some (.vadd (guardOf w) (fld w 14 6) (fld w 8 6) (fld w 2 6)), unused := guardBad w, vregs := [fld w 14 6, fld w 8 6, fld w 2 6] }
    | 1 => some { instr := some (.vaddK (guardOf w) (fld w 14 6) (fld w 8 6) (fld w 2 3)), unused := guardBad w || nz w 5 3, vregs := [fld w 14 6, fld w 8 6] }
    | 2 => some { instr := some (.vaddI (guardOf w) (fld w 14 6) (fld w 8 6) (fld w 2 6)), unused := guardBad w, vregs := [fld w 14 6, fld w 8 6] }
    | _ => some { unused := guardBad w, vregs := [fld w 14 6, fld w 8 6] }
  | 2 => match (fld w 0 2).toNat with
    | 0 => some { instr := some (.vsub (guardOf w) (fld w 14 6) (fld w 8 6) (fld w 2 6)), unused := guardBad w, vregs := [fld w 14 6, fld w 8 6, fld w 2 6] }
    | 1 => some { instr := some (.vsubK (guardOf w) (fld w 14 6) (fld w 8 6) (fld w 2 3)), unused := guardBad w || nz w 5 3, vregs := [fld w 14 6, fld w 8 6] }
    | 2 => some { instr := some (.vsubI (guardOf w) (fld w 14 6) (fld w 8 6) (fld w 2 6)), unused := guardBad w, vregs := [fld w 14 6, fld w 8 6] }
    | _ => some { unused := guardBad w, vregs := [fld w 14 6, fld w 8 6] }
  | 3 => match (fld w 0 2).toNat with
    | 0 => some { instr := some (.vmul (guardOf w) (fld w 14 6) (fld w 8 6) (fld w 2 6)), unused := guardBad w, vregs := [fld w 14 6, fld w 8 6, fld w 2 6] }
    | 1 => some { instr := some (.vmulK (guardOf w) (fld w 14 6) (fld w 8 6) (fld w 2 3)), unused := guardBad w || nz w 5 3, vregs := [fld w 14 6, fld w 8 6] }
    | 2 => some { instr := some (.vmulI (guardOf w) (fld w 14 6) (fld w 8 6) (fld w 2 6)), unused := guardBad w, vregs := [fld w 14 6, fld w 8 6] }
    | _ => some { unused := guardBad w, vregs := [fld w 14 6, fld w 8 6] }
  | 4 => match (fld w 0 2).toNat with
    | 0 => some { instr := some (.vmadd (guardOf w) (fld w 14 6) (fld w 8 6) (fld w 2 6)), unused := guardBad w, vregs := [fld w 14 6, fld w 8 6, fld w 2 6] }
    | 1 => some { instr := some (.vmaddK (guardOf w) (fld w 14 6) (fld w 8 6) (fld w 2 3)), unused := guardBad w || nz w 5 3, vregs := [fld w 14 6, fld w 8 6] }
    | 2 => some { instr := some (.vmaddI (guardOf w) (fld w 14 6) (fld w 8 6) (fld w 2 6)), unused := guardBad w, vregs := [fld w 14 6, fld w 8 6] }
    | _ => some { unused := guardBad w, vregs := [fld w 14 6, fld w 8 6] }
  | 5 => match (fld w 0 2).toNat with
    | 0 => some { instr := some (.vmsub (guardOf w) (fld w 14 6) (fld w 8 6) (fld w 2 6)), unused := guardBad w, vregs := [fld w 14 6, fld w 8 6, fld w 2 6] }
    | 1 => some { instr := some (.vmsubK (guardOf w) (fld w 14 6) (fld w 8 6) (fld w 2 3)), unused := guardBad w || nz w 5 3, vregs := [fld w 14 6, fld w 8 6] }
    | 2 => some { instr := some (.vmsubI (guardOf w) (fld w 14 6) (fld w 8 6) (fld w 2 6)), unused := guardBad w, vregs := [fld w 14 6, fld w 8 6] }
    | _ => some { unused := guardBad w, vregs := [fld w 14 6, fld w 8 6] }
  | 6 => match (fld w 0 2).toNat with
    | 0 => some { instr := some (.vmin (guardOf w) (fld w 14 6) (fld w 8 6) (fld w 2 6)), unused := guardBad w, vregs := [fld w 14 6, fld w 8 6, fld w 2 6] }
    | 1 => some { instr := some (.vminK (guardOf w) (fld w 14 6) (fld w 8 6) (fld w 2 3)), unused := guardBad w || nz w 5 3, vregs := [fld w 14 6, fld w 8 6] }
    | 2 => some { instr := some (.vminI (guardOf w) (fld w 14 6) (fld w 8 6) (fld w 2 6)), unused := guardBad w, vregs := [fld w 14 6, fld w 8 6] }
    | _ => some { unused := guardBad w, vregs := [fld w 14 6, fld w 8 6] }
  | 7 => match (fld w 0 2).toNat with
    | 0 => some { instr := some (.vmax (guardOf w) (fld w 14 6) (fld w 8 6) (fld w 2 6)), unused := guardBad w, vregs := [fld w 14 6, fld w 8 6, fld w 2 6] }
    | 1 => some { instr := some (.vmaxK (guardOf w) (fld w 14 6) (fld w 8 6) (fld w 2 3)), unused := guardBad w || nz w 5 3, vregs := [fld w 14 6, fld w 8 6] }
    | 2 => some { instr := some (.vmaxI (guardOf w) (fld w 14 6) (fld w 8 6) (fld w 2 6)), unused := guardBad w, vregs := [fld w 14 6, fld w 8 6] }
    | _ => some { unused := guardBad w, vregs := [fld w 14 6, fld w 8 6] }
  | 8 => match (fld w 0 2).toNat with
    | 0 => some { instr := some (.vabs (guardOf w) (fld w 14 6) (fld w 8 6)), unused := guardBad w || nz w 2 6, vregs := [fld w 14 6, fld w 8 6] }
    | 3 => some { instr := some (.vneg (guardOf w) (fld w 14 6) (fld w 8 6)), unused := guardBad w || nz w 2 6, vregs := [fld w 14 6, fld w 8 6] }
    | _ => some { unused := guardBad w || nz w 2 6, vregs := [fld w 14 6, fld w 8 6] }
  | 9 => match (fld w 0 2).toNat with
    | 0 => some { instr := some (.vand (guardOf w) (fld w 14 6) (fld w 8 6) (fld w 2 6)), unused := guardBad w, vregs := [fld w 14 6, fld w 8 6, fld w 2 6] }
    | 1 => some { instr := some (.vandK (guardOf w) (fld w 14 6) (fld w 8 6) (fld w 2 3)), unused := guardBad w || nz w 5 3, vregs := [fld w 14 6, fld w 8 6] }
    | 2 => some { instr := some (.vandI (guardOf w) (fld w 14 6) (fld w 8 6) (fld w 2 6)), unused := guardBad w, vregs := [fld w 14 6, fld w 8 6] }
    | _ => some { unused := guardBad w, vregs := [fld w 14 6, fld w 8 6] }
  | 10 => match (fld w 0 2).toNat with
    | 0 => some { instr := some (.vor (guardOf w) (fld w 14 6) (fld w 8 6) (fld w 2 6)), unused := guardBad w, vregs := [fld w 14 6, fld w 8 6, fld w 2 6] }
    | 1 => some { instr := some (.vorK (guardOf w) (fld w 14 6) (fld w 8 6) (fld w 2 3)), unused := guardBad w || nz w 5 3, vregs := [fld w 14 6, fld w 8 6] }
    | 2 => some { instr := some (.vorI (guardOf w) (fld w 14 6) (fld w 8 6) (fld w 2 6)), unused := guardBad w, vregs := [fld w 14 6, fld w 8 6] }
    | _ => some { unused := guardBad w, vregs := [fld w 14 6, fld w 8 6] }
  | 11 => match (fld w 0 2).toNat with
    | 0 => some { instr := some (.vxor (guardOf w) (fld w 14 6) (fld w 8 6) (fld w 2 6)), unused := guardBad w, vregs := [fld w 14 6, fld w 8 6, fld w 2 6] }
    | 1 => some { instr := some (.vxorK (guardOf w) (fld w 14 6) (fld w 8 6) (fld w 2 3)), unused := guardBad w || nz w 5 3, vregs := [fld w 14 6, fld w 8 6] }
    | 2 => some { instr := some (.vxorI (guardOf w) (fld w 14 6) (fld w 8 6) (fld w 2 6)), unused := guardBad w, vregs := [fld w 14 6, fld w 8 6] }
    | _ => some { unused := guardBad w, vregs := [fld w 14 6, fld w 8 6] }
  | 12 => match (fld w 0 2).toNat with
    | 0 => some { instr := some (.vshl (guardOf w) (fld w 14 6) (fld w 8 6) (fld w 2 6)), unused := guardBad w, vregs := [fld w 14 6, fld w 8 6, fld w 2 6] }
    | 1 => some { instr := some (.vshlK (guardOf w) (fld w 14 6) (fld w 8 6) (fld w 2 3)), unused := guardBad w || nz w 5 3, vregs := [fld w 14 6, fld w 8 6] }
    | 2 => some { instr := some (.vshlI (guardOf w) (fld w 14 6) (fld w 8 6) (fld w 2 6)), unused := guardBad w, vregs := [fld w 14 6, fld w 8 6] }
    | _ => some { unused := guardBad w, vregs := [fld w 14 6, fld w 8 6] }
  | 13 => match (fld w 0 2).toNat with
    | 0 => some { instr := some (.vshr (guardOf w) (fld w 14 6) (fld w 8 6) (fld w 2 6)), unused := guardBad w, vregs := [fld w 14 6, fld w 8 6, fld w 2 6] }
    | 1 => some { instr := some (.vshrK (guardOf w) (fld w 14 6) (fld w 8 6) (fld w 2 3)), unused := guardBad w || nz w 5 3, vregs := [fld w 14 6, fld w 8 6] }
    | 2 => some { instr := some (.vshrI (guardOf w) (fld w 14 6) (fld w 8 6) (fld w 2 6)), unused := guardBad w, vregs := [fld w 14 6, fld w 8 6] }
    | _ => some { unused := guardBad w, vregs := [fld w 14 6, fld w 8 6] }
  | 14 => match (fld w 0 2).toNat with
    | 0 => some { instr := some (.vsar (guardOf w) (fld w 14 6) (fld w 8 6) (fld w 2 6)), unused := guardBad w, vregs := [fld w 14 6, fld w 8 6, fld w 2 6] }
    | 1 => some { instr := some (.vsarK (guardOf w) (fld w 14 6) (fld w 8 6) (fld w 2 3)), unused := guardBad w || nz w 5 3, vregs := [fld w 14 6, fld w 8 6] }
    | 2 => some { instr := some (.vsarI (guardOf w) (fld w 14 6) (fld w 8 6) (fld w 2 6)), unused := guardBad w, vregs := [fld w 14 6, fld w 8 6] }
    | _ => some { unused := guardBad w, vregs := [fld w 14 6, fld w 8 6] }
  | 15 => match (fld w 0 2).toNat with
    | 0 => some { instr := some (.vsel (fld w 30 1) (fld w 26 4) (fld w 14 6) (fld w 8 6) (fld w 2 6)), unused := guardBad w, vregs := [fld w 14 6, fld w 8 6, fld w 2 6], form := !nz w 31 1 }
    | 1 => some { instr := some (.vselK (fld w 30 1) (fld w 26 4) (fld w 14 6) (fld w 8 6) (fld w 2 3)), unused := guardBad w || nz w 5 3, vregs := [fld w 14 6, fld w 8 6], form := !nz w 31 1 }
    | 2 => some { instr := some (.vselI (fld w 30 1) (fld w 26 4) (fld w 14 6) (fld w 8 6) (fld w 2 6)), unused := guardBad w, vregs := [fld w 14 6, fld w 8 6], form := !nz w 31 1 }
    | _ => some { unused := guardBad w, vregs := [fld w 14 6, fld w 8 6] }
  | 16 => match (fld w 0 2).toNat with
    | 0 => some { instr := some (.vcmpeq (guardOf w) (fld w 14 4) (fld w 8 6) (fld w 2 6)), unused := guardBad w, range := nz w 18 2, vregs := [fld w 8 6, fld w 2 6] }
    | 1 => some { instr := some (.vcmpeqK (guardOf w) (fld w 14 4) (fld w 8 6) (fld w 2 3)), unused := guardBad w || nz w 5 3, range := nz w 18 2, vregs := [fld w 8 6] }
    | 2 => some { instr := some (.vcmpeqI (guardOf w) (fld w 14 4) (fld w 8 6) (fld w 2 6)), unused := guardBad w, range := nz w 18 2, vregs := [fld w 8 6] }
    | _ => some { unused := guardBad w, range := nz w 18 2, vregs := [fld w 8 6] }
  | 17 => match (fld w 0 2).toNat with
    | 0 => some { instr := some (.vcmpne (guardOf w) (fld w 14 4) (fld w 8 6) (fld w 2 6)), unused := guardBad w, range := nz w 18 2, vregs := [fld w 8 6, fld w 2 6] }
    | 1 => some { instr := some (.vcmpneK (guardOf w) (fld w 14 4) (fld w 8 6) (fld w 2 3)), unused := guardBad w || nz w 5 3, range := nz w 18 2, vregs := [fld w 8 6] }
    | 2 => some { instr := some (.vcmpneI (guardOf w) (fld w 14 4) (fld w 8 6) (fld w 2 6)), unused := guardBad w, range := nz w 18 2, vregs := [fld w 8 6] }
    | _ => some { unused := guardBad w, range := nz w 18 2, vregs := [fld w 8 6] }
  | 18 => match (fld w 0 2).toNat with
    | 0 => some { instr := some (.vcmplt (guardOf w) (fld w 14 4) (fld w 8 6) (fld w 2 6)), unused := guardBad w, range := nz w 18 2, vregs := [fld w 8 6, fld w 2 6] }
    | 1 => some { instr := some (.vcmpltK (guardOf w) (fld w 14 4) (fld w 8 6) (fld w 2 3)), unused := guardBad w || nz w 5 3, range := nz w 18 2, vregs := [fld w 8 6] }
    | 2 => some { instr := some (.vcmpltI (guardOf w) (fld w 14 4) (fld w 8 6) (fld w 2 6)), unused := guardBad w, range := nz w 18 2, vregs := [fld w 8 6] }
    | _ => some { unused := guardBad w, range := nz w 18 2, vregs := [fld w 8 6] }
  | 19 => match (fld w 0 2).toNat with
    | 0 => some { instr := some (.vcmple (guardOf w) (fld w 14 4) (fld w 8 6) (fld w 2 6)), unused := guardBad w, range := nz w 18 2, vregs := [fld w 8 6, fld w 2 6] }
    | 1 => some { instr := some (.vcmpleK (guardOf w) (fld w 14 4) (fld w 8 6) (fld w 2 3)), unused := guardBad w || nz w 5 3, range := nz w 18 2, vregs := [fld w 8 6] }
    | 2 => some { instr := some (.vcmpleI (guardOf w) (fld w 14 4) (fld w 8 6) (fld w 2 6)), unused := guardBad w, range := nz w 18 2, vregs := [fld w 8 6] }
    | _ => some { unused := guardBad w, range := nz w 18 2, vregs := [fld w 8 6] }
  | 20 => match (fld w 0 2).toNat with
    | 0 => some { instr := some (.vwadd (guardOf w) (fld w 14 6) (fld w 8 6) (fld w 2 6)), unused := guardBad w, vregs := [fld w 14 6, fld w 8 6, fld w 2 6], misaligned := nz w 14 1 }
    | 1 => some { instr := some (.vwaddK (guardOf w) (fld w 14 6) (fld w 8 6) (fld w 2 3)), unused := guardBad w || nz w 5 3, vregs := [fld w 14 6, fld w 8 6], misaligned := nz w 14 1 }
    | 2 => some { instr := some (.vwaddI (guardOf w) (fld w 14 6) (fld w 8 6) (fld w 2 6)), unused := guardBad w, vregs := [fld w 14 6, fld w 8 6], misaligned := nz w 14 1 }
    | _ => some { unused := guardBad w, vregs := [fld w 14 6, fld w 8 6], misaligned := nz w 14 1 }
  | 21 => match (fld w 0 2).toNat with
    | 0 => some { instr := some (.vwmul (guardOf w) (fld w 14 6) (fld w 8 6) (fld w 2 6)), unused := guardBad w, vregs := [fld w 14 6, fld w 8 6, fld w 2 6], misaligned := nz w 14 1 }
    | 1 => some { instr := some (.vwmulK (guardOf w) (fld w 14 6) (fld w 8 6) (fld w 2 3)), unused := guardBad w || nz w 5 3, vregs := [fld w 14 6, fld w 8 6], misaligned := nz w 14 1 }
    | 2 => some { instr := some (.vwmulI (guardOf w) (fld w 14 6) (fld w 8 6) (fld w 2 6)), unused := guardBad w, vregs := [fld w 14 6, fld w 8 6], misaligned := nz w 14 1 }
    | _ => some { unused := guardBad w, vregs := [fld w 14 6, fld w 8 6], misaligned := nz w 14 1 }
  | 22 => match (fld w 0 2).toNat with
    | 0 => some { instr := some (.vwmadd (guardOf w) (fld w 14 6) (fld w 8 6) (fld w 2 6)), unused := guardBad w, vregs := [fld w 14 6, fld w 8 6, fld w 2 6], misaligned := nz w 14 1 }
    | 1 => some { instr := some (.vwmaddK (guardOf w) (fld w 14 6) (fld w 8 6) (fld w 2 3)), unused := guardBad w || nz w 5 3, vregs := [fld w 14 6, fld w 8 6], misaligned := nz w 14 1 }
    | 2 => some { instr := some (.vwmaddI (guardOf w) (fld w 14 6) (fld w 8 6) (fld w 2 6)), unused := guardBad w, vregs := [fld w 14 6, fld w 8 6], misaligned := nz w 14 1 }
    | _ => some { unused := guardBad w, vregs := [fld w 14 6, fld w 8 6], misaligned := nz w 14 1 }
  | 23 => match (fld w 0 2).toNat with
    | 0 => some { instr := some (.vdot4 (guardOf w) (fld w 14 6) (fld w 8 6) (fld w 2 6)), unused := guardBad w, vregs := [fld w 14 6, fld w 8 6, fld w 2 6] }
    | 1 => some { instr := some (.vdot4K (guardOf w) (fld w 14 6) (fld w 8 6) (fld w 2 3)), unused := guardBad w || nz w 5 3, vregs := [fld w 14 6, fld w 8 6] }
    | _ => some { unused := guardBad w, vregs := [fld w 14 6, fld w 8 6] }
  | 24 => match (fld w 0 2).toNat with
    | 0 => some { instr := some (.vcvt (guardOf w) (fld w 14 6) (fld w 8 6) (fld w 2 6)), unused := guardBad w, range := !fmtKnown (fld w 2 6), vregs := [fld w 14 6, fld w 8 6] }
    | _ => some { unused := guardBad w, range := !fmtKnown (fld w 2 6) || fmtBlock (fld w 2 6), vregs := [fld w 14 6, fld w 8 6] }
  | 25 => match (fld w 0 2).toNat with
    | 0 => some { instr := some (.vnarrow (guardOf w) (fld w 14 6) (fld w 8 6) (fld w 2 6)), unused := guardBad w, range := !fmtKnown (fld w 2 6), vregs := [fld w 14 6, fld w 8 6] }
    | _ => some { unused := guardBad w, range := !fmtKnown (fld w 2 6) || !fmtInt (fld w 2 6), vregs := [fld w 14 6, fld w 8 6] }
  | 26 => match (fld w 0 2).toNat with
    | 0 => some { instr := some (.vquant (fld w 14 6) (fld w 8 6) (fld w 2 6)), unused := guardBad w, range := !fmtKnown (fld w 2 6) || (nz w 31 1 && !fmtBlock (fld w 2 6)), vregs := [fld w 14 6, fld w 8 6], form := nz w 31 1 }
    | _ => some { unused := guardBad w, range := !fmtKnown (fld w 2 6) || !fmtBlock (fld w 2 6), vregs := [fld w 14 6, fld w 8 6] }
  | 27 => match (fld w 0 2).toNat with
    | 0 => some { instr := some (.vdeq (guardOf w) (fld w 14 6) (fld w 8 6) (fld w 2 6)), unused := guardBad w, range := !fmtKnown (fld w 2 6), vregs := [fld w 14 6, fld w 8 6] }
    | _ => some { unused := guardBad w, range := !fmtKnown (fld w 2 6) || !fmtBlock (fld w 2 6), vregs := [fld w 14 6, fld w 8 6] }
  | 28 => match (fld w 0 2).toNat with
    | 0 => some { instr := some (.vlgmul (guardOf w) (fld w 14 6) (fld w 8 6) (fld w 2 6)), unused := guardBad w, vregs := [fld w 14 6, fld w 8 6, fld w 2 6] }
    | _ => some { unused := guardBad w, vregs := [fld w 14 6, fld w 8 6] }
  | 29 => match (fld w 0 2).toNat with
    | 0 => some { instr := some (.vlgadd (guardOf w) (fld w 14 6) (fld w 8 6) (fld w 2 6)), unused := guardBad w, vregs := [fld w 14 6, fld w 8 6, fld w 2 6] }
    | _ => some { unused := guardBad w, vregs := [fld w 14 6, fld w 8 6] }
  | 30 => match (fld w 0 2).toNat with
    | 0 => some { instr := some (.vlgcvt (guardOf w) (fld w 14 6) (fld w 8 6) (fld w 2 6)), unused := guardBad w, range := !fmtKnown (fld w 2 6), vregs := [fld w 14 6, fld w 8 6] }
    | _ => some { unused := guardBad w, range := !fmtKnown (fld w 2 6) || !fmtSum (fld w 2 6), vregs := [fld w 14 6, fld w 8 6] }
  | 31 => match (fld w 0 2).toNat with
    | 0 => some { instr := some (.vdiv (guardOf w) (fld w 14 6) (fld w 8 6) (fld w 2 6)), unused := guardBad w, vregs := [fld w 14 6, fld w 8 6, fld w 2 6] }
    | 1 => some { instr := some (.vdivK (guardOf w) (fld w 14 6) (fld w 8 6) (fld w 2 3)), unused := guardBad w || nz w 5 3, vregs := [fld w 14 6, fld w 8 6] }
    | _ => some { unused := guardBad w, vregs := [fld w 14 6, fld w 8 6] }
  | 32 => match (fld w 0 2).toNat with
    | 0 => some { instr := some (.vexp2 (guardOf w) (fld w 14 6) (fld w 8 6)), unused := guardBad w || nz w 2 6, vregs := [fld w 14 6, fld w 8 6] }
    | _ => some { unused := guardBad w || nz w 2 6, vregs := [fld w 14 6, fld w 8 6] }
  | 33 => match (fld w 0 2).toNat with
    | 0 => some { instr := some (.vlog2 (guardOf w) (fld w 14 6) (fld w 8 6)), unused := guardBad w || nz w 2 6, vregs := [fld w 14 6, fld w 8 6] }
    | _ => some { unused := guardBad w || nz w 2 6, vregs := [fld w 14 6, fld w 8 6] }
  | 34 => match (fld w 0 2).toNat with
    | 0 => some { instr := some (.vrcp (guardOf w) (fld w 14 6) (fld w 8 6)), unused := guardBad w || nz w 2 6, vregs := [fld w 14 6, fld w 8 6] }
    | _ => some { unused := guardBad w || nz w 2 6, vregs := [fld w 14 6, fld w 8 6] }
  | 35 => match (fld w 0 2).toNat with
    | 0 => some { instr := some (.vrsqrt (guardOf w) (fld w 14 6) (fld w 8 6)), unused := guardBad w || nz w 2 6, vregs := [fld w 14 6, fld w 8 6] }
    | _ => some { unused := guardBad w || nz w 2 6, vregs := [fld w 14 6, fld w 8 6] }
  | 36 => match (fld w 0 2).toNat with
    | 0 => some { instr := some (.vtanh (guardOf w) (fld w 14 6) (fld w 8 6)), unused := guardBad w || nz w 2 6, vregs := [fld w 14 6, fld w 8 6] }
    | _ => some { unused := guardBad w || nz w 2 6, vregs := [fld w 14 6, fld w 8 6] }
  | 37 => match (fld w 0 2).toNat with
    | 0 => some { instr := some (.vsigm (guardOf w) (fld w 14 6) (fld w 8 6)), unused := guardBad w || nz w 2 6, vregs := [fld w 14 6, fld w 8 6] }
    | _ => some { unused := guardBad w || nz w 2 6, vregs := [fld w 14 6, fld w 8 6] }
  | 38 => match (fld w 0 2).toNat with
    | 0 => some { instr := some (.vsqrt (guardOf w) (fld w 14 6) (fld w 8 6)), unused := guardBad w || nz w 2 6, vregs := [fld w 14 6, fld w 8 6] }
    | _ => some { unused := guardBad w || nz w 2 6, vregs := [fld w 14 6, fld w 8 6] }
  | 40 => match (fld w 0 2).toNat with
    | 0 => some { instr := some (.vrsum (guardOf w) (fld w 14 6) (fld w 8 6)), unused := guardBad w || nz w 2 6, vregs := [fld w 14 6, fld w 8 6] }
    | _ => some { unused := guardBad w || nz w 2 6, vregs := [fld w 14 6, fld w 8 6] }
  | 41 => match (fld w 0 2).toNat with
    | 0 => some { instr := some (.vrmax (guardOf w) (fld w 14 6) (fld w 8 6)), unused := guardBad w || nz w 2 6, vregs := [fld w 14 6, fld w 8 6] }
    | _ => some { unused := guardBad w || nz w 2 6, vregs := [fld w 14 6, fld w 8 6] }
  | 42 => match (fld w 0 2).toNat with
    | 0 => some { instr := some (.vrmin (guardOf w) (fld w 14 6) (fld w 8 6)), unused := guardBad w || nz w 2 6, vregs := [fld w 14 6, fld w 8 6] }
    | _ => some { unused := guardBad w || nz w 2 6, vregs := [fld w 14 6, fld w 8 6] }
  | 43 => match (fld w 0 2).toNat with
    | 0 => some { instr := some (.vscan (guardOf w) (fld w 14 6) (fld w 8 6)), unused := guardBad w || nz w 2 6, vregs := [fld w 14 6, fld w 8 6] }
    | 3 => some { instr := some (.vscanExcl (guardOf w) (fld w 14 6) (fld w 8 6)), unused := guardBad w || nz w 2 6, vregs := [fld w 14 6, fld w 8 6] }
    | _ => some { unused := guardBad w || nz w 2 6, vregs := [fld w 14 6, fld w 8 6] }
  | 44 => match (fld w 0 2).toNat with
    | 0 => some { instr := some (.vperm (guardOf w) (fld w 14 6) (fld w 8 6) (fld w 2 6)), unused := guardBad w, vregs := [fld w 14 6, fld w 8 6, fld w 2 6] }
    | _ => some { unused := guardBad w, vregs := [fld w 14 6, fld w 8 6] }
  | 45 => match (fld w 0 2).toNat with
    | 1 => some { instr := some (.vslideK (guardOf w) (fld w 14 6) (fld w 8 6) (fld w 2 3)), unused := guardBad w || nz w 5 3, vregs := [fld w 14 6, fld w 8 6] }
    | 2 => some { instr := some (.vslideI (guardOf w) (fld w 14 6) (fld w 8 6) (fld w 2 6)), unused := guardBad w, vregs := [fld w 14 6, fld w 8 6] }
    | _ => some { unused := guardBad w, vregs := [fld w 14 6, fld w 8 6] }
  | 46 => match (fld w 0 2).toNat with
    | 1 => some { instr := some (.vbcastK (guardOf w) (fld w 14 6) (fld w 8 6) (fld w 2 3)), unused := guardBad w || nz w 5 3, vregs := [fld w 14 6, fld w 8 6] }
    | 2 => some { instr := some (.vbcastI (guardOf w) (fld w 14 6) (fld w 8 6) (fld w 2 6)), unused := guardBad w, vregs := [fld w 14 6, fld w 8 6] }
    | _ => some { unused := guardBad w, vregs := [fld w 14 6, fld w 8 6] }
  | 47 => match (fld w 0 2).toNat with
    | 0 => some { instr := some (.vzip (guardOf w) (fld w 14 6) (fld w 8 6) (fld w 2 6)), unused := guardBad w, vregs := [fld w 14 6, fld w 8 6, fld w 2 6], misaligned := nz w 14 1 }
    | _ => some { unused := guardBad w, vregs := [fld w 14 6, fld w 8 6], misaligned := nz w 14 1 }
  | 48 => match (fld w 0 2).toNat with
    | 0 => some { instr := some (.vunzip (guardOf w) (fld w 14 6) (fld w 8 6)), unused := guardBad w || nz w 2 6, vregs := [fld w 14 6, fld w 8 6], misaligned := nz w 14 1 || nz w 8 1 }
    | _ => some { unused := guardBad w || nz w 2 6, vregs := [fld w 14 6, fld w 8 6], misaligned := nz w 14 1 || nz w 8 1 }
  | 49 => match (fld w 0 2).toNat with
    | 0 => some { instr := some (.pand (guardOf w) (fld w 14 4) (fld w 8 4) (fld w 2 4)), unused := guardBad w, range := nz w 18 2 || nz w 12 2 || nz w 6 2 }
    | _ => some { unused := guardBad w, range := nz w 18 2 || nz w 12 2 || nz w 6 2 }
  | 50 => match (fld w 0 2).toNat with
    | 0 => some { instr := some (.por (guardOf w) (fld w 14 4) (fld w 8 4) (fld w 2 4)), unused := guardBad w, range := nz w 18 2 || nz w 12 2 || nz w 6 2 }
    | _ => some { unused := guardBad w, range := nz w 18 2 || nz w 12 2 || nz w 6 2 }
  | 51 => match (fld w 0 2).toNat with
    | 0 => some { instr := some (.pxor (guardOf w) (fld w 14 4) (fld w 8 4) (fld w 2 4)), unused := guardBad w, range := nz w 18 2 || nz w 12 2 || nz w 6 2 }
    | _ => some { unused := guardBad w, range := nz w 18 2 || nz w 12 2 || nz w 6 2 }
  | 52 => match (fld w 0 2).toNat with
    | 0 => some { instr := some (.pnot (guardOf w) (fld w 14 4) (fld w 8 4)), unused := guardBad w || nz w 2 6, range := nz w 18 2 || nz w 12 2 }
    | _ => some { unused := guardBad w || nz w 2 6, range := nz w 18 2 || nz w 12 2 }
  | 53 => match (fld w 0 2).toNat with
    | 0 => some { instr := some (.pcnt (guardOf w) (fld w 14 3) (fld w 8 4)), unused := guardBad w || nz w 2 6 || nz w 17 3, range := nz w 12 2 }
    | _ => some { unused := guardBad w || nz w 17 3 || nz w 2 6, range := nz w 12 2 }
  | 54 => match (fld w 0 2).toNat with
    | 0 => some { instr := some (.pfirst (guardOf w) (fld w 14 3) (fld w 8 4)), unused := guardBad w || nz w 2 6 || nz w 17 3, range := nz w 12 2 }
    | _ => some { unused := guardBad w || nz w 17 3 || nz w 2 6, range := nz w 12 2 }
  | 55 => match (fld w 0 2).toNat with
    | 1 => some { instr := some (.plenK (guardOf w) (fld w 14 4) (fld w 2 3)), unused := guardBad w || nz w 5 9, range := nz w 18 2 }
    | 2 => some { instr := some (.plenI (guardOf w) (fld w 14 4) (fld w 2 6)), unused := guardBad w || nz w 8 6, range := nz w 18 2 }
    | _ => some { unused := guardBad w || nz w 8 6, range := nz w 18 2 }
  | 56 => match (fld w 0 2).toNat with
    | 0 => some { instr := some (.vld (guardOf w) (fld w 14 6) (fld w 8 4) (fld w 5 3) (fld w 2 3)), unused := guardBad w || nz w 12 2, range := decide ((fld w 2 3).toNat + (fld w 5 3).toNat + 1 > 8), vregs := [fld w 14 6], avail := .vec }
    | _ => some { unused := guardBad w || nz w 12 2, range := decide ((fld w 2 3).toNat + (fld w 5 3).toNat + 1 > 8), vregs := [fld w 14 6], avail := .vec }
  | 57 => match (fld w 0 2).toNat with
    | 0 => some { instr := some (.vst (guardOf w) (fld w 14 6) (fld w 8 4) (fld w 5 3) (fld w 2 3)), unused := guardBad w || nz w 12 2, range := decide ((fld w 2 3).toNat + (fld w 5 3).toNat + 1 > 8), vregs := [fld w 14 6], avail := .vec }
    | _ => some { unused := guardBad w || nz w 12 2, range := decide ((fld w 2 3).toNat + (fld w 5 3).toNat + 1 > 8), vregs := [fld w 14 6], avail := .vec }
  | 58 => match (fld w 0 2).toNat with
    | 0 => some { instr := some (.vldx (guardOf w) (fld w 14 6) (fld w 8 4) (fld w 2 6)), unused := guardBad w || nz w 12 2, vregs := [fld w 14 6, fld w 2 6], avail := .vec }
    | _ => some { unused := guardBad w || nz w 12 2, vregs := [fld w 14 6], avail := .vec }
  | 59 => match (fld w 0 2).toNat with
    | 0 => some { instr := some (.vstx (guardOf w) (fld w 14 6) (fld w 8 4) (fld w 2 6)), unused := guardBad w || nz w 12 2, vregs := [fld w 14 6, fld w 2 6], avail := .vec }
    | _ => some { unused := guardBad w || nz w 12 2, vregs := [fld w 14 6], avail := .vec }
  | 60 => match (fld w 0 2).toNat with
    | 0 => some { instr := some (.vrand (guardOf w) (fld w 14 6)), unused := guardBad w || nz w 2 12, vregs := [fld w 14 6], avail := .vec }
    | _ => some { unused := guardBad w || nz w 2 12, vregs := [fld w 14 6], avail := .vec }
  | 61 => match (fld w 0 2).toNat with
    | 1 => some { instr := some (.vshape (fld w 2 3)), unused := guardBad w || nz w 5 15, form := nz w 31 1 }
    | _ => some { unused := guardBad w || nz w 8 12 }
  | 62 => match (fld w 0 2).toNat with
    | 0 => some { instr := some (.vmov (guardOf w) (fld w 14 6) (fld w 8 6)), unused := guardBad w || nz w 2 6, vregs := [fld w 14 6, fld w 8 6] }
    | 1 => some { instr := some (.vmovK (guardOf w) (fld w 14 6) (fld w 2 3)), unused := guardBad w || nz w 5 9, vregs := [fld w 14 6] }
    | 2 => some { instr := some (.vmovI (guardOf w) (fld w 14 6) (fld w 2 6)), unused := guardBad w || nz w 8 6, vregs := [fld w 14 6] }
    | _ => some { instr := some (.vrot), unused := guardBad w || nz w 2 18, form := nz w 31 1, avail := .vec }
  | 63 => vctlRow w
  | _ => none

/-! Lean's run time represents at most 245 constructors with fields, and the table has more rows: the definitions below are for
the kernel alone, and no code is made for them. -/

noncomputable section

/-- The op5 table of the matrix stream (R49, R51). -/
def matrixRow (w : BitVec 32) : Option Row :=
  match (fld w 27 5).toNat with
  | 1 => some { instr := some (.tlease (fld w 24 3) (fld w 21 3) (fld w 0 12)), unused := nz w 12 9 }
  | 2 => some { instr := some (.tfree (fld w 24 3) (fld w 21 3) (fld w 0 12)), unused := nz w 12 9 }
  | 3 => some { instr := some (.tloadb (fld w 24 3) (fld w 21 3) (fld w 17 4) (fld w 0 12)), unused := nz w 12 5 }
  | 4 => some { instr := some (.tmma (fld w 24 3) (fld w 21 3) (fld w 17 4) (fld w 12 5) (fld w 0 12)) }
  | 5 => some { instr := some (.tmmas (fld w 24 3) (fld w 21 3) (fld w 17 4) (fld w 12 5) (fld w 0 12)) }
  | 6 => some { instr := some (.tpromo (fld w 24 3) (fld w 21 3) (fld w 17 4) (fld w 14 1) (fld w 0 12)), unused := nz w 12 2 || nz w 15 2 }
  | 7 => some { instr := some (.tdrain (fld w 24 3) (fld w 21 3) (fld w 17 4) (fld w 13 1) (fld w 0 12)), unused := nz w 12 1 || nz w 14 3 }
  | 8 => some { instr := some (.tzero (fld w 24 3) (fld w 21 3) (fld w 17 4) (fld w 14 1) (fld w 0 12)), unused := nz w 12 2 || nz w 15 2 }
  | 9 => some { instr := some (.tcommit (fld w 24 3) (fld w 21 3) (fld w 17 4) (fld w 0 12)), unused := nz w 12 5 }
  | 10 => some { instr := some (.tdiscard (fld w 24 3) (fld w 21 3) (fld w 17 4) (fld w 0 12)), unused := nz w 12 5 }
  | 11 => some { instr := some (.tsign (fld w 24 3) (fld w 21 3) (fld w 17 4) (fld w 0 12)), unused := nz w 12 5 }
  | 12 => some { instr := some (.tbucket (fld w 24 3) (fld w 21 3) (fld w 17 4) (fld w 0 12)), unused := nz w 12 5 }
  | 13 => match (fld w 12 2).toNat with
    | 0 => some { instr := some (.trepsFirst (fld w 24 3) (fld w 21 3) (fld w 17 4) (fld w 0 12)), unused := nz w 14 3 }
    | 1 => some { instr := some (.trepsMean (fld w 24 3) (fld w 21 3) (fld w 17 4) (fld w 0 12)), unused := nz w 14 3 }
    | 2 => some { instr := some (.trepsNormmax (fld w 24 3) (fld w 21 3) (fld w 17 4) (fld w 0 12)), unused := nz w 14 3 }
    | _ => some { unused := nz w 14 3, range := true }
  | 14 => some { instr := some (.tscat (fld w 24 3) (fld w 21 3) (fld w 17 4) (fld w 13 1) (fld w 0 12)), unused := nz w 12 1 || nz w 14 3 }
  | 15 => some { instr := some (.tmgrad (fld w 24 3) (fld w 21 3) (fld w 17 4) (fld w 0 12)), unused := nz w 12 5 }
  | 16 => some { instr := some (.tnop (fld w 24 3) (fld w 21 3) (fld w 0 12)), unused := nz w 12 9 }
  | 31 => some { instr := some (.sloop (fld w 17 3) (fld w 12 5)), unused := nz w 0 12 || nz w 21 6, range := nz w 20 1 || !nz w 12 5 }
  | _ => none

/-- The op5 table of the transfer units (R50, R51); on W, P bit 2 is reserved (R47). -/
def transferRow (w : BitVec 32) : Option Row :=
  match (fld w 27 5).toNat with
  | 1 => some { instr := some (.xcopy (fld w 24 3) (fld w 21 3) (fld w 17 4) (fld w 0 12)), unused := nz w 12 5 }
  | 2 => some { instr := some (.xcast (fld w 24 3) (fld w 21 2) (fld w 17 4) (fld w 0 12)), unused := nz w 12 5 || nz w 23 1, avail := .store }
  | 3 => some { instr := some (.xaddw (fld w 24 3) (fld w 21 3) (fld w 17 4) (fld w 0 12)), unused := nz w 12 5, avail := .load }
  | 4 => match (fld w 12 3).toNat with
    | 0 => some { instr := some (.xredAddf32 (fld w 24 3) (fld w 21 2) (fld w 17 4) (fld w 0 12)), unused := nz w 15 2 || nz w 23 1, avail := .store }
    | 1 => some { instr := some (.xredAddi32 (fld w 24 3) (fld w 21 2) (fld w 17 4) (fld w 0 12)), unused := nz w 15 2 || nz w 23 1, avail := .store }
    | 2 => some { instr := some (.xredMaxf32 (fld w 24 3) (fld w 21 2) (fld w 17 4) (fld w 0 12)), unused := nz w 15 2 || nz w 23 1, avail := .store }
    | 3 => some { instr := some (.xredMinf32 (fld w 24 3) (fld w 21 2) (fld w 17 4) (fld w 0 12)), unused := nz w 15 2 || nz w 23 1, avail := .store }
    | 4 => some { instr := some (.xredMaxi32 (fld w 24 3) (fld w 21 2) (fld w 17 4) (fld w 0 12)), unused := nz w 15 2 || nz w 23 1, avail := .store }
    | 5 => some { instr := some (.xredMini32 (fld w 24 3) (fld w 21 2) (fld w 17 4) (fld w 0 12)), unused := nz w 15 2 || nz w 23 1, avail := .store }
    | _ => some { unused := nz w 15 2 || nz w 23 1, range := true, avail := .store }
  | 5 => some { instr := some (.xgath (fld w 24 3) (fld w 21 3) (fld w 17 4) (fld w 0 12)), unused := nz w 12 5 }
  | 6 => some { instr := some (.xscat (fld w 24 3) (fld w 21 3) (fld w 17 4) (fld w 0 12)), unused := nz w 12 5 }
  | 7 => some { instr := some (.xconv (fld w 24 3) (fld w 21 3) (fld w 17 4) (fld w 0 12)), unused := nz w 12 5 }
  | 8 => some { instr := some (.xfill (fld w 24 3) (fld w 21 3) (fld w 17 4) (fld w 0 12)), unused := nz w 12 5 }
  | 9 => some { instr := some (.xord (fld w 24 3) (fld w 21 3) (fld w 0 12)), unused := nz w 12 9 }
  | 10 => some { instr := some (.xnop (fld w 24 3) (fld w 21 3) (fld w 0 12)), unused := nz w 12 9 }
  | 31 => some { instr := some (.sloop (fld w 17 3) (fld w 12 5)), unused := nz w 0 12 || nz w 21 6, range := nz w 20 1 || !nz w 12 5 }
  | _ => none

/-- The lath words (R52, R53) with the operand fields of R336 to R346 and R379. -/
def lathRow (w : BitVec 32) : Option Row :=
  match (fld w 28 4).toNat with
  | 0 => some { instr := some (.idle (fld w 0 28)) }
  | 1 => some { instr := some (.lswap), unused := nz w 0 28 }
  | 2 => some { instr := some (.lckpt (fld w 0 8)), unused := nz w 8 20 }
  | 8 => match (fld w 24 4).toNat with
    | 0 => some { instr := some (.lgath (fld w 20 4) (fld w 18 2) (fld w 16 2)), unused := nz w 0 16, avail := .lath .gather }
    | _ => none
  | 9 => match (fld w 24 4).toNat with
    | 0 => some { instr := some (.lsort (fld w 20 4) (fld w 18 2) (fld w 16 2)), unused := nz w 0 16, avail := .lath .sort }
    | 1 => some { instr := some (.lmerge (fld w 20 4) (fld w 18 2) (fld w 16 2) (fld w 14 2)), unused := nz w 0 14, range := fld w 18 2 == fld w 14 2, avail := .lath .sort }
    | _ => none
  | 10 => match (fld w 24 4).toNat with
    | 0 => some { instr := some (.lroute (fld w 20 4) (fld w 18 2) (fld w 12 4)), unused := nz w 0 12 || nz w 16 2, range := !nz w 12 4, avail := .lath .route }
    | 1 => some { instr := some (.ltopk (fld w 20 4) (fld w 18 2) (fld w 16 2)), unused := nz w 0 16, avail := .lath .route }
    | _ => none
  | 11 => match (fld w 24 4).toNat with
    | 0 => some { instr := some (.hprobe (fld w 18 2) (fld w 16 2) (fld w 0 6)), unused := nz w 6 10 || nz w 20 4, avail := .lath .hash }
    | 1 => some { instr := some (.hins (fld w 18 2) (fld w 0 6)), unused := nz w 6 12 || nz w 20 4, avail := .lath .hash }
    | 2 => some { instr := some (.hdel (fld w 18 2) (fld w 0 6)), unused := nz w 6 12 || nz w 20 4, avail := .lath .hash }
    | 3 => some { instr := some (if nz w 0 12 then .hrehash (fld w 12 8) (fld w 0 12) else .hrehashBegin (fld w 12 8)), unused := nz w 20 4, avail := .lath .hash }
    | 4 => some { instr := some (.hfence (fld w 18 2) (fld w 16 2)), unused := nz w 0 16 || nz w 20 4, avail := .lath .hash }
    | _ => none
  | 12 => match (fld w 24 4).toNat with
    | 0 => some { instr := some (.ldedup (fld w 20 4) (fld w 18 2) (fld w 16 2)), unused := nz w 0 16, avail := .lath .dedupe }
    | 1 => some { instr := some (.lcompact (fld w 20 4) (fld w 18 2) (fld w 16 2)), unused := nz w 0 16, avail := .lath .dedupe }
    | _ => none
  | 13 => match (fld w 24 4).toNat with
    | 0 => some { instr := some (.lscan (fld w 20 4) (fld w 18 2) (fld w 16 2) (fld w 15 1)), unused := nz w 0 15, avail := .lath .scan }
    | 1 => some { instr := some (.lhist (fld w 20 4) (fld w 18 2) (fld w 16 2)), unused := nz w 0 16, avail := .lath .scan }
    | _ => none
  | _ => none

/-- The row of a word at a place; on W, P bit 2 is reserved (R47). -/
def rowAt (p : Place) (w : BitVec 32) : Option Row :=
  match p with
  | .seq | .jointerScalar _ => scalarRow w
  | .vec | .jointerVector => vectorRow w
  | .mtx => matrixRow w
  | .ld => transferRow w
  | .st => (transferRow w).map fun r => { r with unused := r.unused || nz w 23 1 }
  | .lath _ => lathRow w

/-- The instruction of a word at a place, or the kind of encoding fault it raises there (R37, R54, R55). -/
def decodeWord (p : Place) (w : BitVec 32) : Except EncKind Instr :=
  if w = 0 then .error .allZero
  else match rowAt p w with
    | none => .error .reservedOpcode
    | some r => checkRow p r

/-- Words are stored little-endian (R36). -/
def wordOfBytes (b0 b1 b2 b3 : BitVec 8) : BitVec 32 :=
  BitVec.ofNat 32 (b0.toNat + b1.toNat * 256 + b2.toNat * 65536 + b3.toNat * 16777216)

def bytesOfWord (w : BitVec 32) : List (BitVec 8) :=
  [BitVec.ofNat 8 w.toNat, BitVec.ofNat 8 (w.toNat / 256), BitVec.ofNat 8 (w.toNat / 65536), BitVec.ofNat 8 (w.toNat / 16777216)]

/-- Why bytes are no instruction. -/
inductive DecodeError where
  /-- fewer than four bytes are left. -/
  | truncated
  /-- the word raises an encoding fault (R54). -/
  | encoding (k : EncKind)
deriving DecidableEq, Repr

/-- Decode the instruction at the head of a list of bytes. -/
def decode (p : Place) : List (BitVec 8) → Except DecodeError (Instr × List (BitVec 8))
  | b0 :: b1 :: b2 :: b3 :: rest =>
    match decodeWord p (wordOfBytes b0 b1 b2 b3) with
    | .ok i => .ok (i, rest)
    | .error k => .error (.encoding k)
  | _ => .error .truncated

/-- The guard fields as bits 31 to 26. -/
def guardBits (g : Guard) : Nat :=
  (if g.e then 0x80000000 else 0) + (if g.inv then 0x40000000 else 0) + g.p.toNat * 0x4000000

/-- The word of an instruction, written from the same tables of the spec (R38 to R53); the steps of the machine have none. -/
def encode : Instr → Option (BitVec 32)
  | .add d a b => some (BitVec.ofNat 32 (0x2000000 + d.toNat * 1048576 + a.toNat * 32768 + b.toNat * 1024))
  | .sub d a b => some (BitVec.ofNat 32 (0x2000001 + d.toNat * 1048576 + a.toNat * 32768 + b.toNat * 1024))
  | .mul d a b => some (BitVec.ofNat 32 (0x2000002 + d.toNat * 1048576 + a.toNat * 32768 + b.toNat * 1024))
  | .mulh d a b => some (BitVec.ofNat 32 (0x2000003 + d.toNat * 1048576 + a.toNat * 32768 + b.toNat * 1024))
  | .mulhw d a b => some (BitVec.ofNat 32 (0x2000004 + d.toNat * 1048576 + a.toNat * 32768 + b.toNat * 1024))
  | .div d a b => some (BitVec.ofNat 32 (0x2000005 + d.toNat * 1048576 + a.toNat * 32768 + b.toNat * 1024))
  | .divw d a b => some (BitVec.ofNat 32 (0x2000006 + d.toNat * 1048576 + a.toNat * 32768 + b.toNat * 1024))
  | .rem d a b => some (BitVec.ofNat 32 (0x2000007 + d.toNat * 1048576 + a.toNat * 32768 + b.toNat * 1024))
  | .remw d a b => some (BitVec.ofNat 32 (0x2000008 + d.toNat * 1048576 + a.toNat * 32768 + b.toNat * 1024))
  | .and d a b => some (BitVec.ofNat 32 (0x2000009 + d.toNat * 1048576 + a.toNat * 32768 + b.toNat * 1024))
  | .or d a b => some (BitVec.ofNat 32 (0x200000a + d.toNat * 1048576 + a.toNat * 32768 + b.toNat * 1024))
  | .xor d a b => some (BitVec.ofNat 32 (0x200000b + d.toNat * 1048576 + a.toNat * 32768 + b.toNat * 1024))
  | .andn d a b => some (BitVec.ofNat 32 (0x200000c + d.toNat * 1048576 + a.toNat * 32768 + b.toNat * 1024))
  | .shl d a b => some (BitVec.ofNat 32 (0x200000d + d.toNat * 1048576 + a.toNat * 32768 + b.toNat * 1024))
  | .shr d a b => some (BitVec.ofNat 32 (0x200000e + d.toNat * 1048576 + a.toNat * 32768 + b.toNat * 1024))
  | .sar d a b => some (BitVec.ofNat 32 (0x200000f + d.toNat * 1048576 + a.toNat * 32768 + b.toNat * 1024))
  | .rol d a b => some (BitVec.ofNat 32 (0x2000010 + d.toNat * 1048576 + a.toNat * 32768 + b.toNat * 1024))
  | .min d a b => some (BitVec.ofNat 32 (0x2000011 + d.toNat * 1048576 + a.toNat * 32768 + b.toNat * 1024))
  | .max d a b => some (BitVec.ofNat 32 (0x2000012 + d.toNat * 1048576 + a.toNat * 32768 + b.toNat * 1024))
  | .minw d a b => some (BitVec.ofNat 32 (0x2000013 + d.toNat * 1048576 + a.toNat * 32768 + b.toNat * 1024))
  | .maxw d a b => some (BitVec.ofNat 32 (0x2000014 + d.toNat * 1048576 + a.toNat * 32768 + b.toNat * 1024))
  | .slt d a b => some (BitVec.ofNat 32 (0x2000015 + d.toNat * 1048576 + a.toNat * 32768 + b.toNat * 1024))
  | .sltw d a b => some (BitVec.ofNat 32 (0x2000016 + d.toNat * 1048576 + a.toNat * 32768 + b.toNat * 1024))
  | .clz d a => some (BitVec.ofNat 32 (0x2000017 + d.toNat * 1048576 + a.toNat * 32768))
  | .ctz d a => some (BitVec.ofNat 32 (0x2000018 + d.toNat * 1048576 + a.toNat * 32768))
  | .popc d a => some (BitVec.ofNat 32 (0x2000019 + d.toNat * 1048576 + a.toNat * 32768))
  | .addi d a im => some (BitVec.ofNat 32 (0x4000000 + d.toNat * 1048576 + a.toNat * 32768 + im.toNat))
  | .andi d a im => some (BitVec.ofNat 32 (0x6000000 + d.toNat * 1048576 + a.toNat * 32768 + im.toNat))
  | .ori d a im => some (BitVec.ofNat 32 (0x8000000 + d.toNat * 1048576 + a.toNat * 32768 + im.toNat))
  | .xori d a im => some (BitVec.ofNat 32 (0xa000000 + d.toNat * 1048576 + a.toNat * 32768 + im.toNat))
  | .shli d a im => some (BitVec.ofNat 32 (0xc000000 + d.toNat * 1048576 + a.toNat * 32768 + im.toNat))
  | .shri d a im => some (BitVec.ofNat 32 (0xe000000 + d.toNat * 1048576 + a.toNat * 32768 + im.toNat))
  | .sari d a im => some (BitVec.ofNat 32 (0x10000000 + d.toNat * 1048576 + a.toNat * 32768 + im.toNat))
  | .slti d a im => some (BitVec.ofNat 32 (0x12000000 + d.toNat * 1048576 + a.toNat * 32768 + im.toNat))
  | .lui d im => some (BitVec.ofNat 32 (0x14000000 + d.toNat * 1048576 + im.toNat))
  | .bfx d a o w => some (BitVec.ofNat 32 (0x16000000 + d.toNat * 1048576 + a.toNat * 32768 + o.toNat * 512 + w.toNat * 4))
  | .bfxReg d a x => some (BitVec.ofNat 32 (0x16000001 + d.toNat * 1048576 + a.toNat * 32768 + x.toNat * 512))
  | .bfxs d a o w => some (BitVec.ofNat 32 (0x18000000 + d.toNat * 1048576 + a.toNat * 32768 + o.toNat * 512 + w.toNat * 4))
  | .bfxsReg d a x => some (BitVec.ofNat 32 (0x18000001 + d.toNat * 1048576 + a.toNat * 32768 + x.toNat * 512))
  | .bfi d a o w => some (BitVec.ofNat 32 (0x1a000000 + d.toNat * 1048576 + a.toNat * 32768 + o.toNat * 512 + w.toNat * 4))
  | .bfiReg d a x => some (BitVec.ofNat 32 (0x1a000001 + d.toNat * 1048576 + a.toNat * 32768 + x.toNat * 512))
  | .beq a b o => some (BitVec.ofNat 32 (0x20000000 + a.toNat * 1048576 + b.toNat * 32768 + o.toNat))
  | .bne a b o => some (BitVec.ofNat 32 (0x22000000 + a.toNat * 1048576 + b.toNat * 32768 + o.toNat))
  | .blt a b o => some (BitVec.ofNat 32 (0x24000000 + a.toNat * 1048576 + b.toNat * 32768 + o.toNat))
  | .bge a b o => some (BitVec.ofNat 32 (0x26000000 + a.toNat * 1048576 + b.toNat * 32768 + o.toNat))
  | .bltw a b o => some (BitVec.ofNat 32 (0x28000000 + a.toNat * 1048576 + b.toNat * 32768 + o.toNat))
  | .bgew a b o => some (BitVec.ofNat 32 (0x2a000000 + a.toNat * 1048576 + b.toNat * 32768 + o.toNat))
  | .jal d o => some (BitVec.ofNat 32 (0x2c000000 + d.toNat * 1048576 + o.toNat))
  | .jalr d a im => some (BitVec.ofNat 32 (0x2e000000 + d.toNat * 1048576 + a.toNat * 32768 + im.toNat))
  | .loop c a len => some (BitVec.ofNat 32 (0x30000000 + c.toNat * 8388608 + a.toNat * 32768 + len.toNat))
  | .loopStrided c a b len => some (BitVec.ofNat 32 (0x30400000 + c.toNat * 8388608 + a.toNat * 32768 + b.toNat * 1024 + len.toNat))
  | .loopi c n len => some (BitVec.ofNat 32 (0x32000000 + c.toNat * 8388608 + n.toNat * 256 + len.toNat))
  | .loopr c a h len => some (BitVec.ofNat 32 (0x34000000 + c.toNat * 8388608 + a.toNat * 32768 + h.toNat * 2048 + len.toNat))
  | .ld d a h sz im => some (BitVec.ofNat 32 (0x40000000 + d.toNat * 1048576 + a.toNat * 32768 + h.toNat * 2048 + sz.toNat * 512 + im.toNat))
  | .lds d a h sz im => some (BitVec.ofNat 32 (0x42000000 + d.toNat * 1048576 + a.toNat * 32768 + h.toNat * 2048 + sz.toNat * 512 + im.toNat))
  | .st d a h sz im => some (BitVec.ofNat 32 (0x44000000 + d.toNat * 1048576 + a.toNat * 32768 + h.toNat * 2048 + sz.toNat * 512 + im.toNat))
  | .amoAdd d a h b w => some (BitVec.ofNat 32 (0x48000000 + d.toNat * 1048576 + a.toNat * 32768 + h.toNat * 2048 + b.toNat * 64 + w.toNat * 32))
  | .amoMin d a h b w => some (BitVec.ofNat 32 (0x48000001 + d.toNat * 1048576 + a.toNat * 32768 + h.toNat * 2048 + b.toNat * 64 + w.toNat * 32))
  | .amoMax d a h b w => some (BitVec.ofNat 32 (0x48000002 + d.toNat * 1048576 + a.toNat * 32768 + h.toNat * 2048 + b.toNat * 64 + w.toNat * 32))
  | .amoSwap d a h b w => some (BitVec.ofNat 32 (0x48000003 + d.toNat * 1048576 + a.toNat * 32768 + h.toNat * 2048 + b.toNat * 64 + w.toNat * 32))
  | .amoCas d a h b w => some (BitVec.ofNat 32 (0x48000004 + d.toNat * 1048576 + a.toNat * 32768 + h.toNat * 2048 + b.toNat * 64 + w.toNat * 32))
  | .amoOr d a h b w => some (BitVec.ofNat 32 (0x48000005 + d.toNat * 1048576 + a.toNat * 32768 + h.toNat * 2048 + b.toNat * 64 + w.toNat * 32))
  | .phase => some (BitVec.ofNat 32 (0x50000000))
  | .fence m => some (BitVec.ofNat 32 (0x52000000 + m.toNat))
  | .barinit a h e => some (BitVec.ofNat 32 (0x58000000 + a.toNat * 32768 + h.toNat * 2048 + e.toNat * 16))
  | .bararr a h n => some (BitVec.ofNat 32 (0x5a000000 + a.toNat * 32768 + h.toNat * 2048 + n.toNat * 128))
  | .barwait d a h p b => some (BitVec.ofNat 32 (0x5c000000 + d.toNat * 1048576 + a.toNat * 32768 + h.toNat * 2048 + p.toNat * 128 + b.toNat * 4))
  | .spawn m => some (BitVec.ofNat 32 (0x60000000 + m.toNat))
  | .join => some (BitVec.ofNat 32 (0x62000000))
  | .halt => some (BitVec.ofNat 32 (0x64000000))
  | .hset h a b => some (BitVec.ofNat 32 (0x68000000 + h.toNat * 1048576 + a.toNat * 32768 + b.toNat * 1024))
  | .setpar a p => some (BitVec.ofNat 32 (0x6a000000 + a.toNat * 32768 + p.toNat * 8))
  | .getpar d p => some (BitVec.ofNat 32 (0x6c000000 + d.toNat * 1048576 + p.toNat * 8))
  | .chpush a c => some (BitVec.ofNat 32 (0x70000000 + a.toNat * 32768 + c.toNat))
  | .chpop d c => some (BitVec.ofNat 32 (0x72000000 + d.toNat * 1048576 + c.toNat))
  | .tkwait m => some (BitVec.ofNat 32 (0x78000000 + m.toNat))
  | .tksig m => some (BitVec.ofNat 32 (0x7a000000 + m.toNat))
  | .rowwait d a b t => some (BitVec.ofNat 32 (0x80000000 + d.toNat * 1048576 + a.toNat * 32768 + b.toNat * 1024 + t.toNat * 32))
  | .rowpub a b => some (BitVec.ofNat 32 (0x82000000 + a.toNat * 32768 + b.toNat * 1024))
  | .frmwait d a t => some (BitVec.ofNat 32 (0x84000000 + d.toNat * 1048576 + a.toNat * 32768 + t.toNat * 32))
  | .sqarm a g => some (BitVec.ofNat 32 (0x86000000 + a.toNat * 32768 + g.toNat))
  | .sqwait d b g => some (BitVec.ofNat 32 (0x88000000 + d.toNat * 1048576 + b.toNat * 32768 + g.toNat))
  | .sqrel g => some (BitVec.ofNat 32 (0x8a000000 + g.toNat))
  | .tsread d => some (BitVec.ofNat 32 (0x8c000000 + d.toNat * 1048576))
  | .ctrr d n => some (BitVec.ofNat 32 (0x8e000000 + d.toNat * 1048576 + n.toNat * 8))
  | .jwait d => some (BitVec.ofNat 32 (0x90000000 + d.toNat * 1048576))
  | .jline v a im => some (BitVec.ofNat 32 (0x92000000 + v.toNat * 1048576 + a.toNat * 32768 + im.toNat))
  | .jemit v a im => some (BitVec.ofNat 32 (0x94000000 + v.toNat * 1048576 + a.toNat * 32768 + im.toNat))
  | .jrow => some (BitVec.ofNat 32 (0x96000000))
  | .jsub r => some (BitVec.ofNat 32 (0x98000000 + r.toNat))
  | .jstat d n => some (BitVec.ofNat 32 (0x9a000000 + d.toNat * 1048576 + n.toNat))
  | .jtile a => some (BitVec.ofNat 32 (0x9c000000 + a.toNat * 32768))
  | .csrr d n => some (BitVec.ofNat 32 (0xa0000000 + d.toNat * 1048576 + n.toNat * 8))
  | .csrw d a n => some (BitVec.ofNat 32 (0xa2000000 + d.toNat * 1048576 + a.toNat * 32768 + n.toNat * 8))
  | .csrs d a n => some (BitVec.ofNat 32 (0xa4000000 + d.toNat * 1048576 + a.toNat * 32768 + n.toNat * 8))
  | .csrc d a n => some (BitVec.ofNat 32 (0xa6000000 + d.toNat * 1048576 + a.toNat * 32768 + n.toNat * 8))
  | .trap n => some (BitVec.ofNat 32 (0xa8000000 + n.toNat))
  | .tret => some (BitVec.ofNat 32 (0xaa000000))
  | .waitev d m => some (BitVec.ofNat 32 (0xac000000 + d.toNat * 1048576 + m.toNat))
  | .vadd g d a b => some (BitVec.ofNat 32 (0x100000 + guardBits g + d.toNat * 16384 + a.toNat * 256 + b.toNat * 4))
  | .vaddK g d a k => some (BitVec.ofNat 32 (0x100001 + guardBits g + d.toNat * 16384 + a.toNat * 256 + k.toNat * 4))
  | .vaddI g d a im => some (BitVec.ofNat 32 (0x100002 + guardBits g + d.toNat * 16384 + a.toNat * 256 + im.toNat * 4))
  | .vsub g d a b => some (BitVec.ofNat 32 (0x200000 + guardBits g + d.toNat * 16384 + a.toNat * 256 + b.toNat * 4))
  | .vsubK g d a k => some (BitVec.ofNat 32 (0x200001 + guardBits g + d.toNat * 16384 + a.toNat * 256 + k.toNat * 4))
  | .vsubI g d a im => some (BitVec.ofNat 32 (0x200002 + guardBits g + d.toNat * 16384 + a.toNat * 256 + im.toNat * 4))
  | .vmul g d a b => some (BitVec.ofNat 32 (0x300000 + guardBits g + d.toNat * 16384 + a.toNat * 256 + b.toNat * 4))
  | .vmulK g d a k => some (BitVec.ofNat 32 (0x300001 + guardBits g + d.toNat * 16384 + a.toNat * 256 + k.toNat * 4))
  | .vmulI g d a im => some (BitVec.ofNat 32 (0x300002 + guardBits g + d.toNat * 16384 + a.toNat * 256 + im.toNat * 4))
  | .vmadd g d a b => some (BitVec.ofNat 32 (0x400000 + guardBits g + d.toNat * 16384 + a.toNat * 256 + b.toNat * 4))
  | .vmaddK g d a k => some (BitVec.ofNat 32 (0x400001 + guardBits g + d.toNat * 16384 + a.toNat * 256 + k.toNat * 4))
  | .vmaddI g d a im => some (BitVec.ofNat 32 (0x400002 + guardBits g + d.toNat * 16384 + a.toNat * 256 + im.toNat * 4))
  | .vmsub g d a b => some (BitVec.ofNat 32 (0x500000 + guardBits g + d.toNat * 16384 + a.toNat * 256 + b.toNat * 4))
  | .vmsubK g d a k => some (BitVec.ofNat 32 (0x500001 + guardBits g + d.toNat * 16384 + a.toNat * 256 + k.toNat * 4))
  | .vmsubI g d a im => some (BitVec.ofNat 32 (0x500002 + guardBits g + d.toNat * 16384 + a.toNat * 256 + im.toNat * 4))
  | .vmin g d a b => some (BitVec.ofNat 32 (0x600000 + guardBits g + d.toNat * 16384 + a.toNat * 256 + b.toNat * 4))
  | .vminK g d a k => some (BitVec.ofNat 32 (0x600001 + guardBits g + d.toNat * 16384 + a.toNat * 256 + k.toNat * 4))
  | .vminI g d a im => some (BitVec.ofNat 32 (0x600002 + guardBits g + d.toNat * 16384 + a.toNat * 256 + im.toNat * 4))
  | .vmax g d a b => some (BitVec.ofNat 32 (0x700000 + guardBits g + d.toNat * 16384 + a.toNat * 256 + b.toNat * 4))
  | .vmaxK g d a k => some (BitVec.ofNat 32 (0x700001 + guardBits g + d.toNat * 16384 + a.toNat * 256 + k.toNat * 4))
  | .vmaxI g d a im => some (BitVec.ofNat 32 (0x700002 + guardBits g + d.toNat * 16384 + a.toNat * 256 + im.toNat * 4))
  | .vabs g d a => some (BitVec.ofNat 32 (0x800000 + guardBits g + d.toNat * 16384 + a.toNat * 256))
  | .vneg g d a => some (BitVec.ofNat 32 (0x800003 + guardBits g + d.toNat * 16384 + a.toNat * 256))
  | .vand g d a b => some (BitVec.ofNat 32 (0x900000 + guardBits g + d.toNat * 16384 + a.toNat * 256 + b.toNat * 4))
  | .vandK g d a k => some (BitVec.ofNat 32 (0x900001 + guardBits g + d.toNat * 16384 + a.toNat * 256 + k.toNat * 4))
  | .vandI g d a im => some (BitVec.ofNat 32 (0x900002 + guardBits g + d.toNat * 16384 + a.toNat * 256 + im.toNat * 4))
  | .vor g d a b => some (BitVec.ofNat 32 (0xa00000 + guardBits g + d.toNat * 16384 + a.toNat * 256 + b.toNat * 4))
  | .vorK g d a k => some (BitVec.ofNat 32 (0xa00001 + guardBits g + d.toNat * 16384 + a.toNat * 256 + k.toNat * 4))
  | .vorI g d a im => some (BitVec.ofNat 32 (0xa00002 + guardBits g + d.toNat * 16384 + a.toNat * 256 + im.toNat * 4))
  | .vxor g d a b => some (BitVec.ofNat 32 (0xb00000 + guardBits g + d.toNat * 16384 + a.toNat * 256 + b.toNat * 4))
  | .vxorK g d a k => some (BitVec.ofNat 32 (0xb00001 + guardBits g + d.toNat * 16384 + a.toNat * 256 + k.toNat * 4))
  | .vxorI g d a im => some (BitVec.ofNat 32 (0xb00002 + guardBits g + d.toNat * 16384 + a.toNat * 256 + im.toNat * 4))
  | .vshl g d a b => some (BitVec.ofNat 32 (0xc00000 + guardBits g + d.toNat * 16384 + a.toNat * 256 + b.toNat * 4))
  | .vshlK g d a k => some (BitVec.ofNat 32 (0xc00001 + guardBits g + d.toNat * 16384 + a.toNat * 256 + k.toNat * 4))
  | .vshlI g d a im => some (BitVec.ofNat 32 (0xc00002 + guardBits g + d.toNat * 16384 + a.toNat * 256 + im.toNat * 4))
  | .vshr g d a b => some (BitVec.ofNat 32 (0xd00000 + guardBits g + d.toNat * 16384 + a.toNat * 256 + b.toNat * 4))
  | .vshrK g d a k => some (BitVec.ofNat 32 (0xd00001 + guardBits g + d.toNat * 16384 + a.toNat * 256 + k.toNat * 4))
  | .vshrI g d a im => some (BitVec.ofNat 32 (0xd00002 + guardBits g + d.toNat * 16384 + a.toNat * 256 + im.toNat * 4))
  | .vsar g d a b => some (BitVec.ofNat 32 (0xe00000 + guardBits g + d.toNat * 16384 + a.toNat * 256 + b.toNat * 4))
  | .vsarK g d a k => some (BitVec.ofNat 32 (0xe00001 + guardBits g + d.toNat * 16384 + a.toNat * 256 + k.toNat * 4))
  | .vsarI g d a im => some (BitVec.ofNat 32 (0xe00002 + guardBits g + d.toNat * 16384 + a.toNat * 256 + im.toNat * 4))
  | .vsel neg g d a b => some (BitVec.ofNat 32 (0x80f00000 + neg.toNat * 1073741824 + g.toNat * 67108864 + d.toNat * 16384 + a.toNat * 256 + b.toNat * 4))
  | .vselK neg g d a k => some (BitVec.ofNat 32 (0x80f00001 + neg.toNat * 1073741824 + g.toNat * 67108864 + d.toNat * 16384 + a.toNat * 256 + k.toNat * 4))
  | .vselI neg g d a im => some (BitVec.ofNat 32 (0x80f00002 + neg.toNat * 1073741824 + g.toNat * 67108864 + d.toNat * 16384 + a.toNat * 256 + im.toNat * 4))
  | .vcmpeq g p a b => some (BitVec.ofNat 32 (0x1000000 + guardBits g + p.toNat * 16384 + a.toNat * 256 + b.toNat * 4))
  | .vcmpeqK g p a k => some (BitVec.ofNat 32 (0x1000001 + guardBits g + p.toNat * 16384 + a.toNat * 256 + k.toNat * 4))
  | .vcmpeqI g p a im => some (BitVec.ofNat 32 (0x1000002 + guardBits g + p.toNat * 16384 + a.toNat * 256 + im.toNat * 4))
  | .vcmpne g p a b => some (BitVec.ofNat 32 (0x1100000 + guardBits g + p.toNat * 16384 + a.toNat * 256 + b.toNat * 4))
  | .vcmpneK g p a k => some (BitVec.ofNat 32 (0x1100001 + guardBits g + p.toNat * 16384 + a.toNat * 256 + k.toNat * 4))
  | .vcmpneI g p a im => some (BitVec.ofNat 32 (0x1100002 + guardBits g + p.toNat * 16384 + a.toNat * 256 + im.toNat * 4))
  | .vcmplt g p a b => some (BitVec.ofNat 32 (0x1200000 + guardBits g + p.toNat * 16384 + a.toNat * 256 + b.toNat * 4))
  | .vcmpltK g p a k => some (BitVec.ofNat 32 (0x1200001 + guardBits g + p.toNat * 16384 + a.toNat * 256 + k.toNat * 4))
  | .vcmpltI g p a im => some (BitVec.ofNat 32 (0x1200002 + guardBits g + p.toNat * 16384 + a.toNat * 256 + im.toNat * 4))
  | .vcmple g p a b => some (BitVec.ofNat 32 (0x1300000 + guardBits g + p.toNat * 16384 + a.toNat * 256 + b.toNat * 4))
  | .vcmpleK g p a k => some (BitVec.ofNat 32 (0x1300001 + guardBits g + p.toNat * 16384 + a.toNat * 256 + k.toNat * 4))
  | .vcmpleI g p a im => some (BitVec.ofNat 32 (0x1300002 + guardBits g + p.toNat * 16384 + a.toNat * 256 + im.toNat * 4))
  | .vwadd g d a b => some (BitVec.ofNat 32 (0x1400000 + guardBits g + d.toNat * 16384 + a.toNat * 256 + b.toNat * 4))
  | .vwaddK g d a k => some (BitVec.ofNat 32 (0x1400001 + guardBits g + d.toNat * 16384 + a.toNat * 256 + k.toNat * 4))
  | .vwaddI g d a im => some (BitVec.ofNat 32 (0x1400002 + guardBits g + d.toNat * 16384 + a.toNat * 256 + im.toNat * 4))
  | .vwmul g d a b => some (BitVec.ofNat 32 (0x1500000 + guardBits g + d.toNat * 16384 + a.toNat * 256 + b.toNat * 4))
  | .vwmulK g d a k => some (BitVec.ofNat 32 (0x1500001 + guardBits g + d.toNat * 16384 + a.toNat * 256 + k.toNat * 4))
  | .vwmulI g d a im => some (BitVec.ofNat 32 (0x1500002 + guardBits g + d.toNat * 16384 + a.toNat * 256 + im.toNat * 4))
  | .vwmadd g d a b => some (BitVec.ofNat 32 (0x1600000 + guardBits g + d.toNat * 16384 + a.toNat * 256 + b.toNat * 4))
  | .vwmaddK g d a k => some (BitVec.ofNat 32 (0x1600001 + guardBits g + d.toNat * 16384 + a.toNat * 256 + k.toNat * 4))
  | .vwmaddI g d a im => some (BitVec.ofNat 32 (0x1600002 + guardBits g + d.toNat * 16384 + a.toNat * 256 + im.toNat * 4))
  | .vdot4 g d a b => some (BitVec.ofNat 32 (0x1700000 + guardBits g + d.toNat * 16384 + a.toNat * 256 + b.toNat * 4))
  | .vdot4K g d a k => some (BitVec.ofNat 32 (0x1700001 + guardBits g + d.toNat * 16384 + a.toNat * 256 + k.toNat * 4))
  | .vcvt g d a f => some (BitVec.ofNat 32 (0x1800000 + guardBits g + d.toNat * 16384 + a.toNat * 256 + f.toNat * 4))
  | .vnarrow g d a f => some (BitVec.ofNat 32 (0x1900000 + guardBits g + d.toNat * 16384 + a.toNat * 256 + f.toNat * 4))
  | .vquant d a f => some (BitVec.ofNat 32 (0x1a00000 + d.toNat * 16384 + a.toNat * 256 + f.toNat * 4))
  | .vdeq g d a f => some (BitVec.ofNat 32 (0x1b00000 + guardBits g + d.toNat * 16384 + a.toNat * 256 + f.toNat * 4))
  | .vlgmul g d a b => some (BitVec.ofNat 32 (0x1c00000 + guardBits g + d.toNat * 16384 + a.toNat * 256 + b.toNat * 4))
  | .vlgadd g d a b => some (BitVec.ofNat 32 (0x1d00000 + guardBits g + d.toNat * 16384 + a.toNat * 256 + b.toNat * 4))
  | .vlgcvt g d a f => some (BitVec.ofNat 32 (0x1e00000 + guardBits g + d.toNat * 16384 + a.toNat * 256 + f.toNat * 4))
  | .vdiv g d a b => some (BitVec.ofNat 32 (0x1f00000 + guardBits g + d.toNat * 16384 + a.toNat * 256 + b.toNat * 4))
  | .vdivK g d a k => some (BitVec.ofNat 32 (0x1f00001 + guardBits g + d.toNat * 16384 + a.toNat * 256 + k.toNat * 4))
  | .vexp2 g d a => some (BitVec.ofNat 32 (0x2000000 + guardBits g + d.toNat * 16384 + a.toNat * 256))
  | .vlog2 g d a => some (BitVec.ofNat 32 (0x2100000 + guardBits g + d.toNat * 16384 + a.toNat * 256))
  | .vrcp g d a => some (BitVec.ofNat 32 (0x2200000 + guardBits g + d.toNat * 16384 + a.toNat * 256))
  | .vrsqrt g d a => some (BitVec.ofNat 32 (0x2300000 + guardBits g + d.toNat * 16384 + a.toNat * 256))
  | .vtanh g d a => some (BitVec.ofNat 32 (0x2400000 + guardBits g + d.toNat * 16384 + a.toNat * 256))
  | .vsigm g d a => some (BitVec.ofNat 32 (0x2500000 + guardBits g + d.toNat * 16384 + a.toNat * 256))
  | .vsqrt g d a => some (BitVec.ofNat 32 (0x2600000 + guardBits g + d.toNat * 16384 + a.toNat * 256))
  | .vrsum g d a => some (BitVec.ofNat 32 (0x2800000 + guardBits g + d.toNat * 16384 + a.toNat * 256))
  | .vrmax g d a => some (BitVec.ofNat 32 (0x2900000 + guardBits g + d.toNat * 16384 + a.toNat * 256))
  | .vrmin g d a => some (BitVec.ofNat 32 (0x2a00000 + guardBits g + d.toNat * 16384 + a.toNat * 256))
  | .vscan g d a => some (BitVec.ofNat 32 (0x2b00000 + guardBits g + d.toNat * 16384 + a.toNat * 256))
  | .vscanExcl g d a => some (BitVec.ofNat 32 (0x2b00003 + guardBits g + d.toNat * 16384 + a.toNat * 256))
  | .vperm g d a b => some (BitVec.ofNat 32 (0x2c00000 + guardBits g + d.toNat * 16384 + a.toNat * 256 + b.toNat * 4))
  | .vslideK g d a k => some (BitVec.ofNat 32 (0x2d00001 + guardBits g + d.toNat * 16384 + a.toNat * 256 + k.toNat * 4))
  | .vslideI g d a im => some (BitVec.ofNat 32 (0x2d00002 + guardBits g + d.toNat * 16384 + a.toNat * 256 + im.toNat * 4))
  | .vbcastK g d a k => some (BitVec.ofNat 32 (0x2e00001 + guardBits g + d.toNat * 16384 + a.toNat * 256 + k.toNat * 4))
  | .vbcastI g d a im => some (BitVec.ofNat 32 (0x2e00002 + guardBits g + d.toNat * 16384 + a.toNat * 256 + im.toNat * 4))
  | .vzip g d a b => some (BitVec.ofNat 32 (0x2f00000 + guardBits g + d.toNat * 16384 + a.toNat * 256 + b.toNat * 4))
  | .vunzip g d a => some (BitVec.ofNat 32 (0x3000000 + guardBits g + d.toNat * 16384 + a.toNat * 256))
  | .pand g d a b => some (BitVec.ofNat 32 (0x3100000 + guardBits g + d.toNat * 16384 + a.toNat * 256 + b.toNat * 4))
  | .por g d a b => some (BitVec.ofNat 32 (0x3200000 + guardBits g + d.toNat * 16384 + a.toNat * 256 + b.toNat * 4))
  | .pxor g d a b => some (BitVec.ofNat 32 (0x3300000 + guardBits g + d.toNat * 16384 + a.toNat * 256 + b.toNat * 4))
  | .pnot g d a => some (BitVec.ofNat 32 (0x3400000 + guardBits g + d.toNat * 16384 + a.toNat * 256))
  | .pcnt g k p => some (BitVec.ofNat 32 (0x3500000 + guardBits g + k.toNat * 16384 + p.toNat * 256))
  | .pfirst g k p => some (BitVec.ofNat 32 (0x3600000 + guardBits g + k.toNat * 16384 + p.toNat * 256))
  | .plenK g p k => some (BitVec.ofNat 32 (0x3700001 + guardBits g + p.toNat * 16384 + k.toNat * 4))
  | .plenI g p im => some (BitVec.ofNat 32 (0x3700002 + guardBits g + p.toNat * 16384 + im.toNat * 4))
  | .vld g d h n k => some (BitVec.ofNat 32 (0x3800000 + guardBits g + d.toNat * 16384 + h.toNat * 256 + n.toNat * 32 + k.toNat * 4))
  | .vst g d h n k => some (BitVec.ofNat 32 (0x3900000 + guardBits g + d.toNat * 16384 + h.toNat * 256 + n.toNat * 32 + k.toNat * 4))
  | .vldx g d h b => some (BitVec.ofNat 32 (0x3a00000 + guardBits g + d.toNat * 16384 + h.toNat * 256 + b.toNat * 4))
  | .vstx g d h b => some (BitVec.ofNat 32 (0x3b00000 + guardBits g + d.toNat * 16384 + h.toNat * 256 + b.toNat * 4))
  | .vrand g d => some (BitVec.ofNat 32 (0x3c00000 + guardBits g + d.toNat * 16384))
  | .vshape k => some (BitVec.ofNat 32 (0x3d00001 + k.toNat * 4))
  | .vmov g d a => some (BitVec.ofNat 32 (0x3e00000 + guardBits g + d.toNat * 16384 + a.toNat * 256))
  | .vmovK g d k => some (BitVec.ofNat 32 (0x3e00001 + guardBits g + d.toNat * 16384 + k.toNat * 4))
  | .vmovI g d im => some (BitVec.ofNat 32 (0x3e00002 + guardBits g + d.toNat * 16384 + im.toNat * 4))
  | .vrot => some (BitVec.ofNat 32 (0x3e00003))
  | .vloop c len k => some (BitVec.ofNat 32 (0x3f00000 + c.toNat * 16384 + len.toNat * 256 + k.toNat * 4))
  | .vloopi c len n => some (BitVec.ofNat 32 (0x3f00001 + c.toNat * 16384 + len.toNat * 256 + n.toNat * 4))
  | .vloopr x c len h => some (BitVec.ofNat 32 (0x3f00002 + x.toNat * 65536 + c.toNat * 16384 + len.toNat * 256 + h.toNat * 4))
  | .vpegw m => some (BitVec.ofNat 32 (0x3f00003 + m.toNat * 256))
  | .vpegs m => some (BitVec.ofNat 32 (0x3f00007 + m.toNat * 256))
  | .vend => some (BitVec.ofNat 32 (0x3f0000b))
  | .vkset k im => some (BitVec.ofNat 32 (0x3f0000f + k.toNat * 16384 + im.toNat * 256))
  | .tlease w p t => some (BitVec.ofNat 32 (0x8000000 + w.toNat * 16777216 + p.toNat * 2097152 + t.toNat))
  | .tfree w p t => some (BitVec.ofNat 32 (0x10000000 + w.toNat * 16777216 + p.toNat * 2097152 + t.toNat))
  | .tloadb w p m t => some (BitVec.ofNat 32 (0x18000000 + w.toNat * 16777216 + p.toNat * 2097152 + m.toNat * 131072 + t.toNat))
  | .tmma w p m f t => some (BitVec.ofNat 32 (0x20000000 + w.toNat * 16777216 + p.toNat * 2097152 + m.toNat * 131072 + f.toNat * 4096 + t.toNat))
  | .tmmas w p m f t => some (BitVec.ofNat 32 (0x28000000 + w.toNat * 16777216 + p.toNat * 2097152 + m.toNat * 131072 + f.toNat * 4096 + t.toNat))
  | .tpromo w p m f t => some (BitVec.ofNat 32 (0x30000000 + w.toNat * 16777216 + p.toNat * 2097152 + m.toNat * 131072 + f.toNat * 16384 + t.toNat))
  | .tdrain w p m f t => some (BitVec.ofNat 32 (0x38000000 + w.toNat * 16777216 + p.toNat * 2097152 + m.toNat * 131072 + f.toNat * 8192 + t.toNat))
  | .tzero w p m f t => some (BitVec.ofNat 32 (0x40000000 + w.toNat * 16777216 + p.toNat * 2097152 + m.toNat * 131072 + f.toNat * 16384 + t.toNat))
  | .tcommit w p m t => some (BitVec.ofNat 32 (0x48000000 + w.toNat * 16777216 + p.toNat * 2097152 + m.toNat * 131072 + t.toNat))
  | .tdiscard w p m t => some (BitVec.ofNat 32 (0x50000000 + w.toNat * 16777216 + p.toNat * 2097152 + m.toNat * 131072 + t.toNat))
  | .tsign w p m t => some (BitVec.ofNat 32 (0x58000000 + w.toNat * 16777216 + p.toNat * 2097152 + m.toNat * 131072 + t.toNat))
  | .tbucket w p m t => some (BitVec.ofNat 32 (0x60000000 + w.toNat * 16777216 + p.toNat * 2097152 + m.toNat * 131072 + t.toNat))
  | .trepsFirst w p m t => some (BitVec.ofNat 32 (0x68000000 + w.toNat * 16777216 + p.toNat * 2097152 + m.toNat * 131072 + t.toNat))
  | .trepsMean w p m t => some (BitVec.ofNat 32 (0x68001000 + w.toNat * 16777216 + p.toNat * 2097152 + m.toNat * 131072 + t.toNat))
  | .trepsNormmax w p m t => some (BitVec.ofNat 32 (0x68002000 + w.toNat * 16777216 + p.toNat * 2097152 + m.toNat * 131072 + t.toNat))
  | .tscat w p m f t => some (BitVec.ofNat 32 (0x70000000 + w.toNat * 16777216 + p.toNat * 2097152 + m.toNat * 131072 + f.toNat * 8192 + t.toNat))
  | .tmgrad w p m t => some (BitVec.ofNat 32 (0x78000000 + w.toNat * 16777216 + p.toNat * 2097152 + m.toNat * 131072 + t.toNat))
  | .tnop w p t => some (BitVec.ofNat 32 (0x80000000 + w.toNat * 16777216 + p.toNat * 2097152 + t.toNat))
  | .sloop k len => some (BitVec.ofNat 32 (0xf8000000 + k.toNat * 131072 + len.toNat * 4096))
  | .xcopy w p c t => some (BitVec.ofNat 32 (0x8000000 + w.toNat * 16777216 + p.toNat * 2097152 + c.toNat * 131072 + t.toNat))
  | .xcast w p c t => some (BitVec.ofNat 32 (0x10000000 + w.toNat * 16777216 + p.toNat * 2097152 + c.toNat * 131072 + t.toNat))
  | .xaddw w p c t => some (BitVec.ofNat 32 (0x18000000 + w.toNat * 16777216 + p.toNat * 2097152 + c.toNat * 131072 + t.toNat))
  | .xredAddf32 w p c t => some (BitVec.ofNat 32 (0x20000000 + w.toNat * 16777216 + p.toNat * 2097152 + c.toNat * 131072 + t.toNat))
  | .xredAddi32 w p c t => some (BitVec.ofNat 32 (0x20001000 + w.toNat * 16777216 + p.toNat * 2097152 + c.toNat * 131072 + t.toNat))
  | .xredMaxf32 w p c t => some (BitVec.ofNat 32 (0x20002000 + w.toNat * 16777216 + p.toNat * 2097152 + c.toNat * 131072 + t.toNat))
  | .xredMinf32 w p c t => some (BitVec.ofNat 32 (0x20003000 + w.toNat * 16777216 + p.toNat * 2097152 + c.toNat * 131072 + t.toNat))
  | .xredMaxi32 w p c t => some (BitVec.ofNat 32 (0x20004000 + w.toNat * 16777216 + p.toNat * 2097152 + c.toNat * 131072 + t.toNat))
  | .xredMini32 w p c t => some (BitVec.ofNat 32 (0x20005000 + w.toNat * 16777216 + p.toNat * 2097152 + c.toNat * 131072 + t.toNat))
  | .xgath w p c t => some (BitVec.ofNat 32 (0x28000000 + w.toNat * 16777216 + p.toNat * 2097152 + c.toNat * 131072 + t.toNat))
  | .xscat w p c t => some (BitVec.ofNat 32 (0x30000000 + w.toNat * 16777216 + p.toNat * 2097152 + c.toNat * 131072 + t.toNat))
  | .xconv w p c t => some (BitVec.ofNat 32 (0x38000000 + w.toNat * 16777216 + p.toNat * 2097152 + c.toNat * 131072 + t.toNat))
  | .xfill w p c t => some (BitVec.ofNat 32 (0x40000000 + w.toNat * 16777216 + p.toNat * 2097152 + c.toNat * 131072 + t.toNat))
  | .xord w p t => some (BitVec.ofNat 32 (0x48000000 + w.toNat * 16777216 + p.toNat * 2097152 + t.toNat))
  | .xnop w p t => some (BitVec.ofNat 32 (0x50000000 + w.toNat * 16777216 + p.toNat * 2097152 + t.toNat))
  | .idle n => some (BitVec.ofNat 32 (n.toNat))
  | .lswap => some (BitVec.ofNat 32 (0x10000000))
  | .lckpt n => some (BitVec.ofNat 32 (0x20000000 + n.toNat))
  | .lgath sz im o => some (BitVec.ofNat 32 (0x80000000 + sz.toNat * 1048576 + im.toNat * 262144 + o.toNat * 65536))
  | .lsort sz im o => some (BitVec.ofNat 32 (0x90000000 + sz.toNat * 1048576 + im.toNat * 262144 + o.toNat * 65536))
  | .lmerge sz im o j => some (BitVec.ofNat 32 (0x91000000 + sz.toNat * 1048576 + im.toNat * 262144 + o.toNat * 65536 + j.toNat * 16384))
  | .lroute sz im m => some (BitVec.ofNat 32 (0xa0000000 + sz.toNat * 1048576 + im.toNat * 262144 + m.toNat * 4096))
  | .ltopk sz im o => some (BitVec.ofNat 32 (0xa1000000 + sz.toNat * 1048576 + im.toNat * 262144 + o.toNat * 65536))
  | .hprobe im o f => some (BitVec.ofNat 32 (0xb0000000 + im.toNat * 262144 + o.toNat * 65536 + f.toNat))
  | .hins im f => some (BitVec.ofNat 32 (0xb1000000 + im.toNat * 262144 + f.toNat))
  | .hdel im f => some (BitVec.ofNat 32 (0xb2000000 + im.toNat * 262144 + f.toNat))
  | .hrehashBegin t => some (BitVec.ofNat 32 (0xb3000000 + t.toNat * 4096))
  | .hrehash t n => some (BitVec.ofNat 32 (0xb3000000 + t.toNat * 4096 + n.toNat))
  | .hfence im o => some (BitVec.ofNat 32 (0xb4000000 + im.toNat * 262144 + o.toNat * 65536))
  | .ldedup sz im o => some (BitVec.ofNat 32 (0xc0000000 + sz.toNat * 1048576 + im.toNat * 262144 + o.toNat * 65536))
  | .lcompact sz im o => some (BitVec.ofNat 32 (0xc1000000 + sz.toNat * 1048576 + im.toNat * 262144 + o.toNat * 65536))
  | .lscan sz im o x => some (BitVec.ofNat 32 (0xd0000000 + sz.toNat * 1048576 + im.toNat * 262144 + o.toNat * 65536 + x.toNat * 32768))
  | .lhist sz im o => some (BitVec.ofNat 32 (0xd1000000 + sz.toNat * 1048576 + im.toNat * 262144 + o.toNat * 65536))
  | .loopBodyEnd => none
  | .phaseCompletion _ => none
  | .commitSweep _ _ => none
  | .waitBoundExpiry _ => none
  | .squareDeadline _ => none
  | .squareCompletion _ => none
  | .trapEntry _ => none
  | .leaseGrant _ => none
  | .leaseWindowEnd _ => none
  | .trussCommandStart _ => none
  | .trussRowWrite _ => none
  | .trussCommandCompletion _ => none
  | .copySectorMove _ _ _ => none
  | .copyCompletion _ _ _ => none
  | .xaddwLineWrite _ _ => none
  | .xredRequestApply _ _ => none
  | .xredAck _ _ => none
  | .xredResend _ _ => none
  | .storeCompletion _ _ => none
  | .deferredPegPush _ _ => none
  | .streamEnd _ _ => none
  | .codeFetch _ => none
  | .hashUpdateCompletion _ _ => none
  | .lathTokenArrival _ _ _ => none
  | .batchStoreMove _ _ _ => none
  | .tokenEmission _ _ => none
  | .loaderCompletion _ => none
  | .parityError _ => none
  | .reloadCompletion _ _ => none
  | .channelElementArrival _ _ => none
  | .creditReturn _ _ => none
  | .channelAudit _ _ => none
  | .auditCheck _ _ => none
  | .resyncReturn _ _ => none
  | .resyncApply _ _ => none
  | .csi2FrameStart _ _ => none
  | .csi2FrameEnd _ _ => none
  | .csi2LineStart _ _ _ => none
  | .csi2LongPacket _ _ _ _ _ _ => none
  | .csi2LineEnd _ _ => none
  | .csi2UnsupportedPacket _ _ => none
  | .lineTimeout _ => none
  | .lidarFrame _ _ _ => none
  | .lidarFramePeriod _ => none
  | .gptpAnnounce _ _ => none
  | .gptpSync _ _ _ => none
  | .gptpFollowUp _ _ => none
  | .pdelayRequest _ _ => none
  | .pdelayOriginate _ => none
  | .pdelayResponse _ _ => none
  | .syncLoss => none
  | .scheduleFrameOrigin _ => none
  | .admission _ => none
  | .dependenceMet _ => none
  | .selection _ => none
  | .planeFlip _ => none
  | .aging _ => none
  | .jobCompletion _ => none
  | .jobTime _ => none
  | .jobKill _ => none
  | .preemption _ => none
  | .saveComplete _ => none
  | .pageFaultService _ _ => none
  | .faultTimeout _ _ => none
  | .pageEviction _ _ _ _ => none
  | .pageMigration _ _ _ _ => none
  | .migrationRecheck _ _ => none
  | .migrationTimeout _ _ => none
  | .invalidationComplete _ => none
  | .pairMerge _ => none
  | .pairTwinTimeout _ => none
  | .replayTimeout _ => none
  | .boot _ => none
  | .linkFatal _ => none
  | .flr _ => none
  | .partitionSetup _ => none
  | .partitionTeardown _ => none
  | .queueRegistration _ _ _ _ => none
  | .doorbell _ _ _ => none
  | .chainEnable _ _ => none
  | .chainDisable _ _ => none
  | .hostRegisterWrite _ _ _ => none
  | .preempt _ => none
  | .kill _ => none
  | .pageResp _ => none
  | .inval _ => none
  | .sensor _ => none
  | .chaincode _ => none
  | .stage => none
  | .activate => none
  | .activateLive => none
  | .logdesc => none
  | .logrel => none
  | .testint => none
  | .evring => none
  | .framerHeartbeat => none
  | .updateRollback => none
  | .framerSilent => none
  | .sensorSample => none
  | .thermalTrip _ => none
  | .voltageMonitor _ => none
  | .clockMonitor _ => none
  | .conditionCleared _ => none
  | .selfTest _ _ _ => none
  | .spareInsertion _ _ _ => none
  | .sliceCopyComplete _ => none
  | .doeDiscovery => none
  | .getVersion => none
  | .getCapabilities => none
  | .negotiateAlgorithms => none
  | .getDigests => none
  | .getCertificate _ _ => none
  | .challenge _ => none
  | .getMeasurements _ _ => none
  | .encodingFault _ => none
  | .unitNotTested _ _ => none
  | .uplinkReply _ _ => none

/-- The bits of an instruction's word that its operands fill. -/
def Instr.operandBits : Instr → Nat
  | .add _ _ _ => 0x01fffc00
  | .sub _ _ _ => 0x01fffc00
  | .mul _ _ _ => 0x01fffc00
  | .mulh _ _ _ => 0x01fffc00
  | .mulhw _ _ _ => 0x01fffc00
  | .div _ _ _ => 0x01fffc00
  | .divw _ _ _ => 0x01fffc00
  | .rem _ _ _ => 0x01fffc00
  | .remw _ _ _ => 0x01fffc00
  | .and _ _ _ => 0x01fffc00
  | .or _ _ _ => 0x01fffc00
  | .xor _ _ _ => 0x01fffc00
  | .andn _ _ _ => 0x01fffc00
  | .shl _ _ _ => 0x01fffc00
  | .shr _ _ _ => 0x01fffc00
  | .sar _ _ _ => 0x01fffc00
  | .rol _ _ _ => 0x01fffc00
  | .min _ _ _ => 0x01fffc00
  | .max _ _ _ => 0x01fffc00
  | .minw _ _ _ => 0x01fffc00
  | .maxw _ _ _ => 0x01fffc00
  | .slt _ _ _ => 0x01fffc00
  | .sltw _ _ _ => 0x01fffc00
  | .clz _ _ => 0x01ff8000
  | .ctz _ _ => 0x01ff8000
  | .popc _ _ => 0x01ff8000
  | .addi _ _ _ => 0x01ffffff
  | .andi _ _ _ => 0x01ffffff
  | .ori _ _ _ => 0x01ffffff
  | .xori _ _ _ => 0x01ffffff
  | .shli _ _ _ => 0x01ff803f
  | .shri _ _ _ => 0x01ff803f
  | .sari _ _ _ => 0x01ff803f
  | .slti _ _ _ => 0x01ffffff
  | .lui _ _ => 0x01ffffff
  | .bfx _ _ _ _ => 0x01fffffc
  | .bfxReg _ _ _ => 0x01ffbe00
  | .bfxs _ _ _ _ => 0x01fffffc
  | .bfxsReg _ _ _ => 0x01ffbe00
  | .bfi _ _ _ _ => 0x01fffffc
  | .bfiReg _ _ _ => 0x01ffbe00
  | .beq _ _ _ => 0x01ffffff
  | .bne _ _ _ => 0x01ffffff
  | .blt _ _ _ => 0x01ffffff
  | .bge _ _ _ => 0x01ffffff
  | .bltw _ _ _ => 0x01ffffff
  | .bgew _ _ _ => 0x01ffffff
  | .jal _ _ => 0x01ffffff
  | .jalr _ _ _ => 0x01ffffff
  | .loop _ _ _ => 0x018f80ff
  | .loopStrided _ _ _ _ => 0x018ffcff
  | .loopi _ _ _ => 0x01ffffff
  | .loopr _ _ _ _ => 0x018ff8ff
  | .ld _ _ _ _ _ => 0x01ffffff
  | .lds _ _ _ _ _ => 0x01ffffff
  | .st _ _ _ _ _ => 0x01ffffff
  | .amoAdd _ _ _ _ _ => 0x01ffffe0
  | .amoMin _ _ _ _ _ => 0x01ffffe0
  | .amoMax _ _ _ _ _ => 0x01ffffe0
  | .amoSwap _ _ _ _ _ => 0x01ffffe0
  | .amoCas _ _ _ _ _ => 0x01ffffe0
  | .amoOr _ _ _ _ _ => 0x01ffffe0
  | .phase => 0
  | .fence _ => 0x0000007f
  | .barinit _ _ _ => 0x000ffff0
  | .bararr _ _ _ => 0x000fff80
  | .barwait _ _ _ _ _ => 0x01fffffc
  | .spawn _ => 0x0000000f
  | .join => 0
  | .halt => 0
  | .hset _ _ _ => 0x00fffc00
  | .setpar _ _ => 0x000ffff8
  | .getpar _ _ => 0x01f07ff8
  | .chpush _ _ => 0x000f803f
  | .chpop _ _ => 0x01f0003f
  | .tkwait _ => 0x00000007
  | .tksig _ => 0x0000000f
  | .rowwait _ _ _ _ => 0x01ffffe0
  | .rowpub _ _ => 0x000ffc00
  | .frmwait _ _ _ => 0x01ff83e0
  | .sqarm _ _ => 0x000f803f
  | .sqwait _ _ _ => 0x01ff803f
  | .sqrel _ => 0x0000003f
  | .tsread _ => 0x01f00000
  | .ctrr _ _ => 0x01f07ff8
  | .jwait _ => 0x01f00000
  | .jline _ _ _ => 0x00ffffff
  | .jemit _ _ _ => 0x00ffffff
  | .jrow => 0
  | .jsub _ => 0x00000003
  | .jstat _ _ => 0x01f0000f
  | .jtile _ => 0x000f8000
  | .csrr _ _ => 0x01f07ff8
  | .csrw _ _ _ => 0x01fffff8
  | .csrs _ _ _ => 0x01fffff8
  | .csrc _ _ _ => 0x01fffff8
  | .trap _ => 0x0000000f
  | .tret => 0
  | .waitev _ _ => 0x01f000ff
  | .vadd _ _ _ _ => 0xfc0ffffc
  | .vaddK _ _ _ _ => 0xfc0fff1c
  | .vaddI _ _ _ _ => 0xfc0ffffc
  | .vsub _ _ _ _ => 0xfc0ffffc
  | .vsubK _ _ _ _ => 0xfc0fff1c
  | .vsubI _ _ _ _ => 0xfc0ffffc
  | .vmul _ _ _ _ => 0xfc0ffffc
  | .vmulK _ _ _ _ => 0xfc0fff1c
  | .vmulI _ _ _ _ => 0xfc0ffffc
  | .vmadd _ _ _ _ => 0xfc0ffffc
  | .vmaddK _ _ _ _ => 0xfc0fff1c
  | .vmaddI _ _ _ _ => 0xfc0ffffc
  | .vmsub _ _ _ _ => 0xfc0ffffc
  | .vmsubK _ _ _ _ => 0xfc0fff1c
  | .vmsubI _ _ _ _ => 0xfc0ffffc
  | .vmin _ _ _ _ => 0xfc0ffffc
  | .vminK _ _ _ _ => 0xfc0fff1c
  | .vminI _ _ _ _ => 0xfc0ffffc
  | .vmax _ _ _ _ => 0xfc0ffffc
  | .vmaxK _ _ _ _ => 0xfc0fff1c
  | .vmaxI _ _ _ _ => 0xfc0ffffc
  | .vabs _ _ _ => 0xfc0fff00
  | .vneg _ _ _ => 0xfc0fff00
  | .vand _ _ _ _ => 0xfc0ffffc
  | .vandK _ _ _ _ => 0xfc0fff1c
  | .vandI _ _ _ _ => 0xfc0ffffc
  | .vor _ _ _ _ => 0xfc0ffffc
  | .vorK _ _ _ _ => 0xfc0fff1c
  | .vorI _ _ _ _ => 0xfc0ffffc
  | .vxor _ _ _ _ => 0xfc0ffffc
  | .vxorK _ _ _ _ => 0xfc0fff1c
  | .vxorI _ _ _ _ => 0xfc0ffffc
  | .vshl _ _ _ _ => 0xfc0ffffc
  | .vshlK _ _ _ _ => 0xfc0fff1c
  | .vshlI _ _ _ _ => 0xfc0ffffc
  | .vshr _ _ _ _ => 0xfc0ffffc
  | .vshrK _ _ _ _ => 0xfc0fff1c
  | .vshrI _ _ _ _ => 0xfc0ffffc
  | .vsar _ _ _ _ => 0xfc0ffffc
  | .vsarK _ _ _ _ => 0xfc0fff1c
  | .vsarI _ _ _ _ => 0xfc0ffffc
  | .vsel _ _ _ _ _ => 0x7c0ffffc
  | .vselK _ _ _ _ _ => 0x7c0fff1c
  | .vselI _ _ _ _ _ => 0x7c0ffffc
  | .vcmpeq _ _ _ _ => 0xfc03fffc
  | .vcmpeqK _ _ _ _ => 0xfc03ff1c
  | .vcmpeqI _ _ _ _ => 0xfc03fffc
  | .vcmpne _ _ _ _ => 0xfc03fffc
  | .vcmpneK _ _ _ _ => 0xfc03ff1c
  | .vcmpneI _ _ _ _ => 0xfc03fffc
  | .vcmplt _ _ _ _ => 0xfc03fffc
  | .vcmpltK _ _ _ _ => 0xfc03ff1c
  | .vcmpltI _ _ _ _ => 0xfc03fffc
  | .vcmple _ _ _ _ => 0xfc03fffc
  | .vcmpleK _ _ _ _ => 0xfc03ff1c
  | .vcmpleI _ _ _ _ => 0xfc03fffc
  | .vwadd _ _ _ _ => 0xfc0ffffc
  | .vwaddK _ _ _ _ => 0xfc0fff1c
  | .vwaddI _ _ _ _ => 0xfc0ffffc
  | .vwmul _ _ _ _ => 0xfc0ffffc
  | .vwmulK _ _ _ _ => 0xfc0fff1c
  | .vwmulI _ _ _ _ => 0xfc0ffffc
  | .vwmadd _ _ _ _ => 0xfc0ffffc
  | .vwmaddK _ _ _ _ => 0xfc0fff1c
  | .vwmaddI _ _ _ _ => 0xfc0ffffc
  | .vdot4 _ _ _ _ => 0xfc0ffffc
  | .vdot4K _ _ _ _ => 0xfc0fff1c
  | .vcvt _ _ _ _ => 0xfc0ffffc
  | .vnarrow _ _ _ _ => 0xfc0ffffc
  | .vquant _ _ _ => 0x000ffffc
  | .vdeq _ _ _ _ => 0xfc0ffffc
  | .vlgmul _ _ _ _ => 0xfc0ffffc
  | .vlgadd _ _ _ _ => 0xfc0ffffc
  | .vlgcvt _ _ _ _ => 0xfc0ffffc
  | .vdiv _ _ _ _ => 0xfc0ffffc
  | .vdivK _ _ _ _ => 0xfc0fff1c
  | .vexp2 _ _ _ => 0xfc0fff00
  | .vlog2 _ _ _ => 0xfc0fff00
  | .vrcp _ _ _ => 0xfc0fff00
  | .vrsqrt _ _ _ => 0xfc0fff00
  | .vtanh _ _ _ => 0xfc0fff00
  | .vsigm _ _ _ => 0xfc0fff00
  | .vsqrt _ _ _ => 0xfc0fff00
  | .vrsum _ _ _ => 0xfc0fff00
  | .vrmax _ _ _ => 0xfc0fff00
  | .vrmin _ _ _ => 0xfc0fff00
  | .vscan _ _ _ => 0xfc0fff00
  | .vscanExcl _ _ _ => 0xfc0fff00
  | .vperm _ _ _ _ => 0xfc0ffffc
  | .vslideK _ _ _ _ => 0xfc0fff1c
  | .vslideI _ _ _ _ => 0xfc0ffffc
  | .vbcastK _ _ _ _ => 0xfc0fff1c
  | .vbcastI _ _ _ _ => 0xfc0ffffc
  | .vzip _ _ _ _ => 0xfc0ffffc
  | .vunzip _ _ _ => 0xfc0fff00
  | .pand _ _ _ _ => 0xfc03cf3c
  | .por _ _ _ _ => 0xfc03cf3c
  | .pxor _ _ _ _ => 0xfc03cf3c
  | .pnot _ _ _ => 0xfc03cf00
  | .pcnt _ _ _ => 0xfc01cf00
  | .pfirst _ _ _ => 0xfc01cf00
  | .plenK _ _ _ => 0xfc03c01c
  | .plenI _ _ _ => 0xfc03c0fc
  | .vld _ _ _ _ _ => 0xfc0fcffc
  | .vst _ _ _ _ _ => 0xfc0fcffc
  | .vldx _ _ _ _ => 0xfc0fcffc
  | .vstx _ _ _ _ => 0xfc0fcffc
  | .vrand _ _ => 0xfc0fc000
  | .vshape _ => 0x0000001c
  | .vmov _ _ _ => 0xfc0fff00
  | .vmovK _ _ _ => 0xfc0fc01c
  | .vmovI _ _ _ => 0xfc0fc0fc
  | .vrot => 0
  | .vloop _ _ _ => 0x0000ff1c
  | .vloopi _ _ _ => 0x0000fffc
  | .vloopr _ _ _ _ => 0x0007ff3c
  | .vpegw _ => 0x00000700
  | .vpegs _ => 0x00000700
  | .vend => 0
  | .vkset _ _ => 0x0001ff00
  | .tlease _ _ _ => 0x07e00fff
  | .tfree _ _ _ => 0x07e00fff
  | .tloadb _ _ _ _ => 0x07fe0fff
  | .tmma _ _ _ _ _ => 0x07ffffff
  | .tmmas _ _ _ _ _ => 0x07ffffff
  | .tpromo _ _ _ _ _ => 0x07fe4fff
  | .tdrain _ _ _ _ _ => 0x07fe2fff
  | .tzero _ _ _ _ _ => 0x07fe4fff
  | .tcommit _ _ _ _ => 0x07fe0fff
  | .tdiscard _ _ _ _ => 0x07fe0fff
  | .tsign _ _ _ _ => 0x07fe0fff
  | .tbucket _ _ _ _ => 0x07fe0fff
  | .trepsFirst _ _ _ _ => 0x07fe0fff
  | .trepsMean _ _ _ _ => 0x07fe0fff
  | .trepsNormmax _ _ _ _ => 0x07fe0fff
  | .tscat _ _ _ _ _ => 0x07fe2fff
  | .tmgrad _ _ _ _ => 0x07fe0fff
  | .tnop _ _ _ => 0x07e00fff
  | .sloop _ _ => 0x000ff000
  | .xcopy _ _ _ _ => 0x07fe0fff
  | .xcast _ _ _ _ => 0x077e0fff
  | .xaddw _ _ _ _ => 0x07fe0fff
  | .xredAddf32 _ _ _ _ => 0x077e0fff
  | .xredAddi32 _ _ _ _ => 0x077e0fff
  | .xredMaxf32 _ _ _ _ => 0x077e0fff
  | .xredMinf32 _ _ _ _ => 0x077e0fff
  | .xredMaxi32 _ _ _ _ => 0x077e0fff
  | .xredMini32 _ _ _ _ => 0x077e0fff
  | .xgath _ _ _ _ => 0x07fe0fff
  | .xscat _ _ _ _ => 0x07fe0fff
  | .xconv _ _ _ _ => 0x07fe0fff
  | .xfill _ _ _ _ => 0x07fe0fff
  | .xord _ _ _ => 0x07e00fff
  | .xnop _ _ _ => 0x07e00fff
  | .idle _ => 0x0fffffff
  | .lswap => 0
  | .lckpt _ => 0x000000ff
  | .lgath _ _ _ => 0x00ff0000
  | .lsort _ _ _ => 0x00ff0000
  | .lmerge _ _ _ _ => 0x00ffc000
  | .lroute _ _ _ => 0x00fcf000
  | .ltopk _ _ _ => 0x00ff0000
  | .hprobe _ _ _ => 0x000f003f
  | .hins _ _ => 0x000c003f
  | .hdel _ _ => 0x000c003f
  | .hrehashBegin _ => 0x000ff000
  | .hrehash _ _ => 0x000fffff
  | .hfence _ _ => 0x000f0000
  | .ldedup _ _ _ => 0x00ff0000
  | .lcompact _ _ _ => 0x00ff0000
  | .lscan _ _ _ _ => 0x00ff8000
  | .lhist _ _ _ => 0x00ff0000
  | .loopBodyEnd => 0
  | .phaseCompletion _ => 0
  | .commitSweep _ _ => 0
  | .waitBoundExpiry _ => 0
  | .squareDeadline _ => 0
  | .squareCompletion _ => 0
  | .trapEntry _ => 0
  | .leaseGrant _ => 0
  | .leaseWindowEnd _ => 0
  | .trussCommandStart _ => 0
  | .trussRowWrite _ => 0
  | .trussCommandCompletion _ => 0
  | .copySectorMove _ _ _ => 0
  | .copyCompletion _ _ _ => 0
  | .xaddwLineWrite _ _ => 0
  | .xredRequestApply _ _ => 0
  | .xredAck _ _ => 0
  | .xredResend _ _ => 0
  | .storeCompletion _ _ => 0
  | .deferredPegPush _ _ => 0
  | .streamEnd _ _ => 0
  | .codeFetch _ => 0
  | .hashUpdateCompletion _ _ => 0
  | .lathTokenArrival _ _ _ => 0
  | .batchStoreMove _ _ _ => 0
  | .tokenEmission _ _ => 0
  | .loaderCompletion _ => 0
  | .parityError _ => 0
  | .reloadCompletion _ _ => 0
  | .channelElementArrival _ _ => 0
  | .creditReturn _ _ => 0
  | .channelAudit _ _ => 0
  | .auditCheck _ _ => 0
  | .resyncReturn _ _ => 0
  | .resyncApply _ _ => 0
  | .csi2FrameStart _ _ => 0
  | .csi2FrameEnd _ _ => 0
  | .csi2LineStart _ _ _ => 0
  | .csi2LongPacket _ _ _ _ _ _ => 0
  | .csi2LineEnd _ _ => 0
  | .csi2UnsupportedPacket _ _ => 0
  | .lineTimeout _ => 0
  | .lidarFrame _ _ _ => 0
  | .lidarFramePeriod _ => 0
  | .gptpAnnounce _ _ => 0
  | .gptpSync _ _ _ => 0
  | .gptpFollowUp _ _ => 0
  | .pdelayRequest _ _ => 0
  | .pdelayOriginate _ => 0
  | .pdelayResponse _ _ => 0
  | .syncLoss => 0
  | .scheduleFrameOrigin _ => 0
  | .admission _ => 0
  | .dependenceMet _ => 0
  | .selection _ => 0
  | .planeFlip _ => 0
  | .aging _ => 0
  | .jobCompletion _ => 0
  | .jobTime _ => 0
  | .jobKill _ => 0
  | .preemption _ => 0
  | .saveComplete _ => 0
  | .pageFaultService _ _ => 0
  | .faultTimeout _ _ => 0
  | .pageEviction _ _ _ _ => 0
  | .pageMigration _ _ _ _ => 0
  | .migrationRecheck _ _ => 0
  | .migrationTimeout _ _ => 0
  | .invalidationComplete _ => 0
  | .pairMerge _ => 0
  | .pairTwinTimeout _ => 0
  | .replayTimeout _ => 0
  | .boot _ => 0
  | .linkFatal _ => 0
  | .flr _ => 0
  | .partitionSetup _ => 0
  | .partitionTeardown _ => 0
  | .queueRegistration _ _ _ _ => 0
  | .doorbell _ _ _ => 0
  | .chainEnable _ _ => 0
  | .chainDisable _ _ => 0
  | .hostRegisterWrite _ _ _ => 0
  | .preempt _ => 0
  | .kill _ => 0
  | .pageResp _ => 0
  | .inval _ => 0
  | .sensor _ => 0
  | .chaincode _ => 0
  | .stage => 0
  | .activate => 0
  | .activateLive => 0
  | .logdesc => 0
  | .logrel => 0
  | .testint => 0
  | .evring => 0
  | .framerHeartbeat => 0
  | .updateRollback => 0
  | .framerSilent => 0
  | .sensorSample => 0
  | .thermalTrip _ => 0
  | .voltageMonitor _ => 0
  | .clockMonitor _ => 0
  | .conditionCleared _ => 0
  | .selfTest _ _ _ => 0
  | .spareInsertion _ _ _ => 0
  | .sliceCopyComplete _ => 0
  | .doeDiscovery => 0
  | .getVersion => 0
  | .getCapabilities => 0
  | .negotiateAlgorithms => 0
  | .getDigests => 0
  | .getCertificate _ _ => 0
  | .challenge _ => 0
  | .getMeasurements _ _ => 0
  | .encodingFault _ => 0
  | .unitNotTested _ _ => 0
  | .uplinkReply _ _ => 0

def countBits : Nat → Nat → Nat
  | 0, _ => 0
  | n + 1, x => x % 2 + countBits n (x / 2)

/-- Words of different families share bit patterns, and no bit names the family (R36). When only the bits are given, the reading with the
fewest operand bits stands, and one whose operands are all zero before any other (log 11). -/
def Instr.rank (i : Instr) (w : BitVec 32) : Nat :=
  (if w.toNat &&& i.operandBits = 0 then 0 else 64) + countBits 32 i.operandBits

/-- The places a word is tried at when only its bits are given. -/
def tablePlaces : List Place :=
  [.seq, .jointerScalar true, .vec, .mtx, .ld, .st, .lath .gather, .lath .sort, .lath .route, .lath .hash, .lath .dedupe, .lath .scan]

/-- The reading of a word of least rank, and the first of equals. -/
def placeOf (w : BitVec 32) : List Place → Option (Place × Instr)
  | [] => none
  | p :: ps =>
    match decodeWord p w, placeOf w ps with
    | .ok i, some (q, j) => if j.rank w < i.rank w then some (q, j) else some (p, i)
    | .ok i, none => some (p, i)
    | .error _, r => r

/-- The instruction of `nbits` bits of the opcode table, laid out as bytes and decoded. -/
def decodeTableWord (_nbits w : Nat) : Option Instr :=
  match placeOf (BitVec.ofNat 32 w) tablePlaces with
  | none => none
  | some (p, _) =>
    match decode p (bytesOfWord (BitVec.ofNat 32 w)) with
    | .ok (i, _) => some i
    | .error _ => none

end

end Sys2Proof
end

