-- ==== Sys2Proof/Machine/Fetch.lean ====
section
/-! DEFINITION. Which step comes next: the choice at the head of the agenda, and for a stream the word that it fetches
(spec/01_machine.md R12, spec/02_encoding.md R36, R56, R68). -/

namespace Sys2Proof.Machine

/-- What the next step is. -/
inductive Pick where
  /-- this instruction, in this state. -/
  | run (i : Instr) (s : State)
  /-- no instruction: a clock, memory written from outside, or an agent that has nothing to do and stays as it is. -/
  | moved (s : State)

/-- The choice to follow, and the state without it (log 1). -/
def State.choose (s : State) : Choice × State :=
  match s.agenda with
  | c :: t => (c, { s with agenda := t })
  | [] => (Config.freeChoice s.tick, { s with tick := s.tick + 1 })

/-- The class of a physical lath (R327). -/
def lathClass (n : Nat) : LathClass :=
  if n ≤ 16 then .gather else if n ≤ 33 then .sort else if n ≤ 50 then .route
  else if n ≤ 76 then .hash else if n ≤ 89 then .dedupe else .scan

/-- Jointers in a chain (R352). -/
def Chain.depth (x : Chain) : Nat := bits (nth 0 x.w 0) 22 20

/-- The partition that owns the memory at a device-wide address, and the fault of an error there that its code cannot correct (R213). -/
def State.memOwner (s : State) (a : Nat) : Option (Nat × Nat) :=
  let owner (f : Part → Bool) : Option Nat := (s.parts.find? fun (_, x) => x.up && f x).map fun x => x.1
  if a ≥ hostAddr 0 then none
  else if a ≥ dramAddr 0 then
    (owner fun x => decide (x.dbase ≤ (a - dramAddr 0) / 65536) && decide ((a - dramAddr 0) / 65536 < x.dbase + x.dsize)).map fun p => (p, 0xC1)
  else if a ≥ sillAddr 0 0 then (owner fun x => x.hasSlice ((a - sillAddr 0 0) / sliceBytes)).map fun p => (p, 0xC0)
  else match lineOf a with
    | some (b, _) => (owner fun x => x.bents.contains (b / 8)).map fun p => (p, 0xC0)
    | none => none

/-- SRAM_UNCORRECTABLE or DRAM_UNCORRECTABLE discards the work of the owning partition; of memory that no partition owns, the Foreman
logs it (R213, R464). -/
def State.memError (s : State) (a : Nat) : State :=
  match s.memOwner a with
  | some (p, cause) => s.discard p cause
  | none => s.fmEvent 7 a

/-- The partition that owns a unit of SRAM without addresses, the number by which the Foreman logs it, and the unit's place among its kind
(R206, R464). -/
def State.sramOwner (s : State) : SramUnit → Option Nat
  | .code b => (s.parts.find? fun (_, x) => x.up && x.bents.contains (b / 8)).map fun x => x.1
  | .jointer c _ => if bit (nth 0 (s.chain c).w 0) 0 then some (bits (nth 0 (s.chain c).w 0) 25 23) else none
  | .lathStore n => (s.lathAt n).slot.map fun j => (s.job j).part
  | .group g =>
    let x := s.group g
    if x.armed || x.ready then some x.part.toNat else if bit (nth 0 x.w 0) 0 then some (bits (nth 0 x.w 0) 3 1) else none
  | .control => none

def sramNumber : SramUnit → Nat
  | .code b => b
  | .jointer c p => jkey c p
  | .lathStore n => n
  | .group g => g
  | .control => 0

/-- SRAM_UNCORRECTABLE in SRAM without addresses (R213, R464). -/
def State.sramError (s : State) (u : SramUnit) : State :=
  match s.sramOwner u with
  | some p => s.discard p 0xC0
  | none => s.fmEvent 7 (sramNumber u)

/-- The four bytes at a byte offset of the active plane; past its bytes there are zeros. -/
def Bay.codeAt (y : Bay) (pc : BitVec 16) : List Byte := (List.range 4).map fun i => nth 0 y.plane.bytes (pc.toNat + i)

/-- A trap of an encoding cause. -/
def raisesC (c : Nat) {α : Type} : Except Stop α → Bool
  | .error (.trap rc) => rc.cause == BitVec.ofNat 8 c
  | _ => false

/-- The checks of a conversion word against TYPE, as its meaning makes them; `op` is its op6 (R152 to R155, R158). -/
def State.convCheck (s : State) (op : Nat) (d a : BitVec 6) (f : Nat) : Except Stop Unit :=
  let g : Guard := ⟨false, false, 0⟩
  let drop (x : Except Stop State) : Except Stop Unit := match x with | .ok _ => .ok () | .error e => .error e
  match op with
  | 24 => drop (cvtWord s.vty g d a f tAny tAny (cvtLane f) s)
  | 25 => drop (cvtWord s.vty g d a f (fun c => isInt c && decide (stepsTo s.vty c < 0)) isInt (narrowLane f) s)
  | 26 => drop (quantWord d a f s)
  | 27 => drop (deqWord g d a f s)
  | 30 => drop (cvtWord 0x04 g d a f (fun c => isFlt c || isLg c) (fun t => t == 0x04) (lgcvtLane f) s)
  | _ => .ok ()

/-- Kinds 2 and 3 that the state decides: the checks of a word whose form is not allowed, or whose register group is misaligned, against TYPE
or the section, which the order of R55 puts first. -/
def State.earlier (s : State) (p : Place) (w : BitVec 32) (k : EncKind) : EncKind :=
  let op := (fld w 20 6).toNat
  let check : Except Stop Unit :=
    if p.family = 0 then loopCheck 0x02 false (fld w 23 2).toNat (fld w 0 8).toNat s
    else if op = 58 ∨ op = 59 then alignE (fld w 2 6) (indexGroup (fmtWidth s.vty))
    else if op = 63 then (if (fld w 0 2).toNat < 3 then loopCheck 0x0A true (fld w 14 2).toNat (fld w 8 6).toNat s else .ok ())
    else s.convCheck op (fld w 14 6) (fld w 8 6) (fld w 2 6).toNat
  if (p.family = 0 ∧ k = .misaligned) ∨ (p.family = 1 ∧ k = .formNotAllowed) then
    if raisesC (p.family * 8 + 2) check then .outOfRange else if raisesC (p.family * 8 + 3) check then .misaligned else k
  else k

noncomputable section

/-- Decode at a place; a word that is none raises its encoding fault (R54). A word is never cut short: it has four bytes. -/
def pickWord (p : Place) (code : List Byte) (s : State) : Pick :=
  match decode p code with
  | .ok (i, _) => .run i s
  | .error (.encoding k) => .run (.encodingFault (encCause p (s.earlier p (BitVec.ofNat 32 (bytesNat code)) k))) s
  | .error .truncated => .moved s

def enginePlace : Eng → Place
  | .S => .seq
  | .V => .vec
  | .M => .mtx
  | .L => .ld
  | .W => .st

/-- The sequencer, which stops at a word boundary when its job is pre-empted (R35): a body end, then a waiting fault (R198, R200), then a word; the end of `.seq` raises 0x02 (R119). -/
def pickSeq (b : Nat) (y : Bay) (s : State) : Pick :=
  let (o, l) := y.sect .S
  if !y.live || y.seqHalted || decide (s.clock < y.startAt) || (s.jobOf b).idle || s.isFrozen y.partNo then .moved s
  else if y.adv && !y.skip && endsAt y.lc y.pc then .run .loopBodyEnd s
  else if !y.pend.isEmpty && !y.tIn && !y.hold && y.merge.isNone then .run (.trapEntry b) s
  else if outside o l y.adv y.pc then .run (.encodingFault 0x02) s
  else if y.fetched < 4 then .run (.codeFetch b) s
  else pickWord .seq (y.codeAt y.pc) s

/-- An engine stream; V raises 0x0A at the end of `.vec`, and M, L and W end there (R296). -/
def pickStream (b : Nat) (e : Eng) (y : Bay) (s : State) : Pick :=
  let x := y.stream e
  let (o, l) := y.sect e
  if !y.live || !x.run || (e == .V && y.vecHalted) || x.isHalted || (s.jobOf b).idle || s.isFrozen y.partNo then .moved s
  else if x.adv && !x.skip && endsAt x.lc x.pc then .run .loopBodyEnd s
  else if outside o l x.adv x.pc then .run (if e == .V then .encodingFault 0x0A else .streamEnd b e.idx) s
  else if x.fetched < 4 then .run (.codeFetch b) s
  else pickWord (enginePlace e) (y.codeAt x.pc) s

/-- A jointer: its family bits say which words are vector words (R59, R74). -/
def pickJointer (c p : Nat) (s : State) : Pick :=
  let j := s.jtr c p
  let n := j.pc.toNat / 4
  if !j.run || j.page || s.isFrozen (bits (nth 0 (s.chain c).w 0) 25 23) then .moved s
  else if j.adv && !j.skip && endsAt j.lc j.pc then .run .loopBodyEnd s
  else if outside 0 (4 * j.code.length) j.adv j.pc then .run (.encodingFault 0x02) s
  else
    let place := if nth false j.fam n then Place.jointerVector else .jointerScalar (p + 1 == (s.chain c).depth)
    pickWord place (bytesOfWord (nth 0 j.code n)) s

/-- A lath: its program wraps (R335). At a pre-emption it finishes its word and stops (R348); while its job is loaded or saved, or once it has
ended, it runs no word (R313, R465). -/
def pickLath (n : Nat) (s : State) : Pick :=
  let x := s.lathAt n
  let j := s.job (s.lathCtx n).slot
  if x.slot.isNone || x.hlt || x.rcv || x.waiting || j.away || (j.stopping && x.hop.isNone) || s.isFrozen (s.lathCtx n).part then .moved s
  else pickWord (.lath (lathClass n)) (bytesOfWord (nth 0 x.plane (planeHead + x.pc.toNat))) s

def State.pick (s : State) : Pick :=
  let (c, s) := s.choose
  match c with
  | .tick => .moved s.tickClock
  | .time ns => .moved (squaresDue (s.passTime ns))
  | .stream b .S => pickSeq b (s.bay b) { s with cur := .stream b .S }
  | .stream b e => pickStream b e (s.bay b) { s with cur := .stream b e }
  | .jointer c p => pickJointer c p { s with cur := .jointer c p }
  | .lath n => pickLath n { s with cur := .lath n }
  | .event i => .run i { s with cur := .none }
  | .hostWrite a l =>
    -- the sill and DRAM, which the host fills, and memory outside the device; it reaches no bay, and waits while an update of a hash table to
    -- one of its granules or the copy of a slice is under way (R361, R375, R377, R429, R477; log 43)
    -- a leaf that the host makes resident so is seen at once (R311)
    .moved (if a ≥ sillAddr 0 0 && !(List.range (l.length / 32 + 2)).any (fun i => s.writeWaits (a + 32 * i)) then
        s.parts.foldl (fun s (p, _) => s.latchTiles p) (s.write a l) else s)
  | .hostRead fn off => .moved (s.hostRead fn off)
  | .memError a => .moved (s.memError a)
  | .memCorrected a => .moved (s.fmEvent 1 a)
  | .sramError u => .moved (s.sramError u)
  | .sramCorrected u => .moved (s.fmEvent 1 (sramNumber u))
  | .cacheFill w tid o d => .moved (s.fillCache (if w < 64 then s.bayCtx w else s.lathCtx (w - 64)) tid o d)

/-- The next step's instruction is the word `w`: it stands at the program counter of an agent whose family has it (log 11). -/
def State.placeWord (s : State) (w : BitVec 32) : State :=
  let p := match placeOf w tablePlaces with
    | some (p, _) => p
    | none => .seq
  let thaw (x : Nat × Part) : Nat × Part := (x.1, { x.2 with frozen := none })
  let go (j : Nat × Job) : Nat × Job := (j.1, { j.2 with stopping := false, ended := false, state := if j.2.away then .run else j.2.state })
  let s := { s with parts := s.parts.map thaw, jobs := s.jobs.map go }
  let y := s.bay 0
  let code (pc : BitVec 16) (k : Nat) : Plane :=
    ⟨List.replicate pc.toNat 0 ++ bytesOfWord w, (List.range 5).map fun i => if i = k then (pc.toNat, 4) else (0, 0)⟩
  let onStream (e : Eng) : State :=
    let x := y.stream e
    let y' := y.setStream e { x with run := true, adv := false, fetched := 4, inflight := x.inflight.map fun r => { r with halted := false } }
    { s.setBay 0 { y' with live := true, slot := some y.slotNo, vecHalted := false, plane := code x.pc e.section } with
      agenda := .stream 0 e :: s.agenda }
  let onJtr (v last : Bool) : State :=
    let j := s.jtr 0 0
    let c := s.chain 0
    let s := s.setJtr 0 0 { j with
      run := true, page := false, adv := false, code := List.replicate (j.pc.toNat / 4) 0 ++ [w], fam := List.replicate (j.pc.toNat / 4) false ++ [v] }
    let s := if last then s.setChain 0 { c with w := c.w.set 0 (word (at_ 1 20)) } else s
    { s with agenda := .jointer 0 0 :: s.agenda }
  let onLath (n : Nat) : State :=
    let x := s.lathAt n
    let l := List.replicate (planeHead + x.pc.toNat) 0 ++ [w]
    let x := { x with slot := some 0, hlt := false, rcv := false, waiting := false }
    { s.setLath n (if x.act then { x with plane1 := l } else { x with plane0 := l }) with agenda := .lath n :: s.agenda }
  match p with
  | .seq =>
    { s.setBay 0 { y with
        live := true, slot := some y.slotNo, adv := false, seqHalted := false, hold := false, merge := none, pend := [], fetched := 4, startAt := 0, plane := code y.pc 0 } with
      agenda := .stream 0 .S :: s.agenda }
  | .vec => onStream .V
  | .mtx => onStream .M
  | .ld => onStream .L
  | .st => onStream .W
  | .jointerScalar l => onJtr false l
  | .jointerVector => onJtr true false
  | .lath .gather => onLath 0
  | .lath .sort => onLath 17
  | .lath .route => onLath 34
  | .lath .hash => onLath 51
  | .lath .dedupe => onLath 77
  | .lath .scan => onLath 90

end

end Sys2Proof.Machine
end

