-- ==== Sys2Proof/Machine/Step.lean ====
section
/-! DEFINITION. One step of the machine. -/

namespace Sys2Proof.Machine

noncomputable section

/-- One step: the chosen agent's next instruction, or the passing of time. -/
def step (s : State) : Host.Outcome State Fault Refusal :=
  match s.pick with
  | .run i s' => exec i s'
  | .moved s' => .next s'

/-- The state with the instruction of `w` where the next step fetches it. Every row with bits is one word. -/
def State.withFetchWord (s : State) (_nbits w : Nat) : State := s.placeWord (BitVec.ofNat 32 w)

end

end Sys2Proof.Machine
end

