-- ==== Sys2Proof/WellFormed.lean ====
section
/-! DEFINITION. Well-formed instructions: the operand limits that the encoding tables state (spec/02_encoding.md R39 to R53). -/

namespace Sys2Proof

/-- An unguarded word has S and G zero (R43). -/
def Guard.wf (g : Guard) : Bool := g.e || (!g.inv && g.p == 0)

/-- The word families of R36, with SLOOP apart, since it is a word of every step stream (R51), and the steps without bits. -/
inductive Family where
  | scalar | vector | matrix | transfer | sloop | lath | event
deriving DecidableEq, Repr

def Instr.family : Instr → Family
  | .add _ _ _ => .scalar
  | .sub _ _ _ => .scalar
  | .mul _ _ _ => .scalar
  | .mulh _ _ _ => .scalar
  | .mulhw _ _ _ => .scalar
  | .div _ _ _ => .scalar
  | .divw _ _ _ => .scalar
  | .rem _ _ _ => .scalar
  | .remw _ _ _ => .scalar
  | .and _ _ _ => .scalar
  | .or _ _ _ => .scalar
  | .xor _ _ _ => .scalar
  | .andn _ _ _ => .scalar
  | .shl _ _ _ => .scalar
  | .shr _ _ _ => .scalar
  | .sar _ _ _ => .scalar
  | .rol _ _ _ => .scalar
  | .min _ _ _ => .scalar
  | .max _ _ _ => .scalar
  | .minw _ _ _ => .scalar
  | .maxw _ _ _ => .scalar
  | .slt _ _ _ => .scalar
  | .sltw _ _ _ => .scalar
  | .clz _ _ => .scalar
  | .ctz _ _ => .scalar
  | .popc _ _ => .scalar
  | .addi _ _ _ => .scalar
  | .andi _ _ _ => .scalar
  | .ori _ _ _ => .scalar
  | .xori _ _ _ => .scalar
  | .shli _ _ _ => .scalar
  | .shri _ _ _ => .scalar
  | .sari _ _ _ => .scalar
  | .slti _ _ _ => .scalar
  | .lui _ _ => .scalar
  | .bfx _ _ _ _ => .scalar
  | .bfxReg _ _ _ => .scalar
  | .bfxs _ _ _ _ => .scalar
  | .bfxsReg _ _ _ => .scalar
  | .bfi _ _ _ _ => .scalar
  | .bfiReg _ _ _ => .scalar
  | .beq _ _ _ => .scalar
  | .bne _ _ _ => .scalar
  | .blt _ _ _ => .scalar
  | .bge _ _ _ => .scalar
  | .bltw _ _ _ => .scalar
  | .bgew _ _ _ => .scalar
  | .jal _ _ => .scalar
  | .jalr _ _ _ => .scalar
  | .loop _ _ _ => .scalar
  | .loopStrided _ _ _ _ => .scalar
  | .loopi _ _ _ => .scalar
  | .loopr _ _ _ _ => .scalar
  | .ld _ _ _ _ _ => .scalar
  | .lds _ _ _ _ _ => .scalar
  | .st _ _ _ _ _ => .scalar
  | .amoAdd _ _ _ _ _ => .scalar
  | .amoMin _ _ _ _ _ => .scalar
  | .amoMax _ _ _ _ _ => .scalar
  | .amoSwap _ _ _ _ _ => .scalar
  | .amoCas _ _ _ _ _ => .scalar
  | .amoOr _ _ _ _ _ => .scalar
  | .phase => .scalar
  | .fence _ => .scalar
  | .barinit _ _ _ => .scalar
  | .bararr _ _ _ => .scalar
  | .barwait _ _ _ _ _ => .scalar
  | .spawn _ => .scalar
  | .join => .scalar
  | .halt => .scalar
  | .hset _ _ _ => .scalar
  | .setpar _ _ => .scalar
  | .getpar _ _ => .scalar
  | .chpush _ _ => .scalar
  | .chpop _ _ => .scalar
  | .tkwait _ => .scalar
  | .tksig _ => .scalar
  | .rowwait _ _ _ _ => .scalar
  | .rowpub _ _ => .scalar
  | .frmwait _ _ _ => .scalar
  | .sqarm _ _ => .scalar
  | .sqwait _ _ _ => .scalar
  | .sqrel _ => .scalar
  | .tsread _ => .scalar
  | .ctrr _ _ => .scalar
  | .jwait _ => .scalar
  | .jline _ _ _ => .scalar
  | .jemit _ _ _ => .scalar
  | .jrow => .scalar
  | .jsub _ => .scalar
  | .jstat _ _ => .scalar
  | .jtile _ => .scalar
  | .csrr _ _ => .scalar
  | .csrw _ _ _ => .scalar
  | .csrs _ _ _ => .scalar
  | .csrc _ _ _ => .scalar
  | .trap _ => .scalar
  | .tret => .scalar
  | .waitev _ _ => .scalar
  | .vadd _ _ _ _ => .vector
  | .vaddK _ _ _ _ => .vector
  | .vaddI _ _ _ _ => .vector
  | .vsub _ _ _ _ => .vector
  | .vsubK _ _ _ _ => .vector
  | .vsubI _ _ _ _ => .vector
  | .vmul _ _ _ _ => .vector
  | .vmulK _ _ _ _ => .vector
  | .vmulI _ _ _ _ => .vector
  | .vmadd _ _ _ _ => .vector
  | .vmaddK _ _ _ _ => .vector
  | .vmaddI _ _ _ _ => .vector
  | .vmsub _ _ _ _ => .vector
  | .vmsubK _ _ _ _ => .vector
  | .vmsubI _ _ _ _ => .vector
  | .vmin _ _ _ _ => .vector
  | .vminK _ _ _ _ => .vector
  | .vminI _ _ _ _ => .vector
  | .vmax _ _ _ _ => .vector
  | .vmaxK _ _ _ _ => .vector
  | .vmaxI _ _ _ _ => .vector
  | .vabs _ _ _ => .vector
  | .vneg _ _ _ => .vector
  | .vand _ _ _ _ => .vector
  | .vandK _ _ _ _ => .vector
  | .vandI _ _ _ _ => .vector
  | .vor _ _ _ _ => .vector
  | .vorK _ _ _ _ => .vector
  | .vorI _ _ _ _ => .vector
  | .vxor _ _ _ _ => .vector
  | .vxorK _ _ _ _ => .vector
  | .vxorI _ _ _ _ => .vector
  | .vshl _ _ _ _ => .vector
  | .vshlK _ _ _ _ => .vector
  | .vshlI _ _ _ _ => .vector
  | .vshr _ _ _ _ => .vector
  | .vshrK _ _ _ _ => .vector
  | .vshrI _ _ _ _ => .vector
  | .vsar _ _ _ _ => .vector
  | .vsarK _ _ _ _ => .vector
  | .vsarI _ _ _ _ => .vector
  | .vsel _ _ _ _ _ => .vector
  | .vselK _ _ _ _ _ => .vector
  | .vselI _ _ _ _ _ => .vector
  | .vcmpeq _ _ _ _ => .vector
  | .vcmpeqK _ _ _ _ => .vector
  | .vcmpeqI _ _ _ _ => .vector
  | .vcmpne _ _ _ _ => .vector
  | .vcmpneK _ _ _ _ => .vector
  | .vcmpneI _ _ _ _ => .vector
  | .vcmplt _ _ _ _ => .vector
  | .vcmpltK _ _ _ _ => .vector
  | .vcmpltI _ _ _ _ => .vector
  | .vcmple _ _ _ _ => .vector
  | .vcmpleK _ _ _ _ => .vector
  | .vcmpleI _ _ _ _ => .vector
  | .vwadd _ _ _ _ => .vector
  | .vwaddK _ _ _ _ => .vector
  | .vwaddI _ _ _ _ => .vector
  | .vwmul _ _ _ _ => .vector
  | .vwmulK _ _ _ _ => .vector
  | .vwmulI _ _ _ _ => .vector
  | .vwmadd _ _ _ _ => .vector
  | .vwmaddK _ _ _ _ => .vector
  | .vwmaddI _ _ _ _ => .vector
  | .vdot4 _ _ _ _ => .vector
  | .vdot4K _ _ _ _ => .vector
  | .vcvt _ _ _ _ => .vector
  | .vnarrow _ _ _ _ => .vector
  | .vquant _ _ _ => .vector
  | .vdeq _ _ _ _ => .vector
  | .vlgmul _ _ _ _ => .vector
  | .vlgadd _ _ _ _ => .vector
  | .vlgcvt _ _ _ _ => .vector
  | .vdiv _ _ _ _ => .vector
  | .vdivK _ _ _ _ => .vector
  | .vexp2 _ _ _ => .vector
  | .vlog2 _ _ _ => .vector
  | .vrcp _ _ _ => .vector
  | .vrsqrt _ _ _ => .vector
  | .vtanh _ _ _ => .vector
  | .vsigm _ _ _ => .vector
  | .vsqrt _ _ _ => .vector
  | .vrsum _ _ _ => .vector
  | .vrmax _ _ _ => .vector
  | .vrmin _ _ _ => .vector
  | .vscan _ _ _ => .vector
  | .vscanExcl _ _ _ => .vector
  | .vperm _ _ _ _ => .vector
  | .vslideK _ _ _ _ => .vector
  | .vslideI _ _ _ _ => .vector
  | .vbcastK _ _ _ _ => .vector
  | .vbcastI _ _ _ _ => .vector
  | .vzip _ _ _ _ => .vector
  | .vunzip _ _ _ => .vector
  | .pand _ _ _ _ => .vector
  | .por _ _ _ _ => .vector
  | .pxor _ _ _ _ => .vector
  | .pnot _ _ _ => .vector
  | .pcnt _ _ _ => .vector
  | .pfirst _ _ _ => .vector
  | .plenK _ _ _ => .vector
  | .plenI _ _ _ => .vector
  | .vld _ _ _ _ _ => .vector
  | .vst _ _ _ _ _ => .vector
  | .vldx _ _ _ _ => .vector
  | .vstx _ _ _ _ => .vector
  | .vrand _ _ => .vector
  | .vshape _ => .vector
  | .vmov _ _ _ => .vector
  | .vmovK _ _ _ => .vector
  | .vmovI _ _ _ => .vector
  | .vrot => .vector
  | .vloop _ _ _ => .vector
  | .vloopi _ _ _ => .vector
  | .vloopr _ _ _ _ => .vector
  | .vpegw _ => .vector
  | .vpegs _ => .vector
  | .vend => .vector
  | .vkset _ _ => .vector
  | .tlease _ _ _ => .matrix
  | .tfree _ _ _ => .matrix
  | .tloadb _ _ _ _ => .matrix
  | .tmma _ _ _ _ _ => .matrix
  | .tmmas _ _ _ _ _ => .matrix
  | .tpromo _ _ _ _ _ => .matrix
  | .tdrain _ _ _ _ _ => .matrix
  | .tzero _ _ _ _ _ => .matrix
  | .tcommit _ _ _ _ => .matrix
  | .tdiscard _ _ _ _ => .matrix
  | .tsign _ _ _ _ => .matrix
  | .tbucket _ _ _ _ => .matrix
  | .trepsFirst _ _ _ _ => .matrix
  | .trepsMean _ _ _ _ => .matrix
  | .trepsNormmax _ _ _ _ => .matrix
  | .tscat _ _ _ _ _ => .matrix
  | .tmgrad _ _ _ _ => .matrix
  | .tnop _ _ _ => .matrix
  | .sloop _ _ => .sloop
  | .xcopy _ _ _ _ => .transfer
  | .xcast _ _ _ _ => .transfer
  | .xaddw _ _ _ _ => .transfer
  | .xredAddf32 _ _ _ _ => .transfer
  | .xredAddi32 _ _ _ _ => .transfer
  | .xredMaxf32 _ _ _ _ => .transfer
  | .xredMinf32 _ _ _ _ => .transfer
  | .xredMaxi32 _ _ _ _ => .transfer
  | .xredMini32 _ _ _ _ => .transfer
  | .xgath _ _ _ _ => .transfer
  | .xscat _ _ _ _ => .transfer
  | .xconv _ _ _ _ => .transfer
  | .xfill _ _ _ _ => .transfer
  | .xord _ _ _ => .transfer
  | .xnop _ _ _ => .transfer
  | .idle _ => .lath
  | .lswap => .lath
  | .lckpt _ => .lath
  | .lgath _ _ _ => .lath
  | .lsort _ _ _ => .lath
  | .lmerge _ _ _ _ => .lath
  | .lroute _ _ _ => .lath
  | .ltopk _ _ _ => .lath
  | .hprobe _ _ _ => .lath
  | .hins _ _ => .lath
  | .hdel _ _ => .lath
  | .hrehashBegin _ => .lath
  | .hrehash _ _ => .lath
  | .hfence _ _ => .lath
  | .ldedup _ _ _ => .lath
  | .lcompact _ _ _ => .lath
  | .lscan _ _ _ _ => .lath
  | .lhist _ _ _ => .lath
  | .loopBodyEnd => .event
  | .phaseCompletion _ => .event
  | .commitSweep _ _ => .event
  | .waitBoundExpiry _ => .event
  | .squareDeadline _ => .event
  | .squareCompletion _ => .event
  | .trapEntry _ => .event
  | .leaseGrant _ => .event
  | .leaseWindowEnd _ => .event
  | .trussCommandStart _ => .event
  | .trussRowWrite _ => .event
  | .trussCommandCompletion _ => .event
  | .copySectorMove _ _ _ => .event
  | .copyCompletion _ _ _ => .event
  | .xaddwLineWrite _ _ => .event
  | .xredRequestApply _ _ => .event
  | .xredAck _ _ => .event
  | .xredResend _ _ => .event
  | .storeCompletion _ _ => .event
  | .deferredPegPush _ _ => .event
  | .streamEnd _ _ => .event
  | .codeFetch _ => .event
  | .hashUpdateCompletion _ _ => .event
  | .lathTokenArrival _ _ _ => .event
  | .batchStoreMove _ _ _ => .event
  | .tokenEmission _ _ => .event
  | .loaderCompletion _ => .event
  | .parityError _ => .event
  | .reloadCompletion _ _ => .event
  | .channelElementArrival _ _ => .event
  | .creditReturn _ _ => .event
  | .channelAudit _ _ => .event
  | .auditCheck _ _ => .event
  | .resyncReturn _ _ => .event
  | .resyncApply _ _ => .event
  | .csi2FrameStart _ _ => .event
  | .csi2FrameEnd _ _ => .event
  | .csi2LineStart _ _ _ => .event
  | .csi2LongPacket _ _ _ _ _ _ => .event
  | .csi2LineEnd _ _ => .event
  | .csi2UnsupportedPacket _ _ => .event
  | .lineTimeout _ => .event
  | .lidarFrame _ _ _ => .event
  | .lidarFramePeriod _ => .event
  | .gptpAnnounce _ _ => .event
  | .gptpSync _ _ _ => .event
  | .gptpFollowUp _ _ => .event
  | .pdelayRequest _ _ => .event
  | .pdelayOriginate _ => .event
  | .pdelayResponse _ _ => .event
  | .syncLoss => .event
  | .scheduleFrameOrigin _ => .event
  | .admission _ => .event
  | .dependenceMet _ => .event
  | .selection _ => .event
  | .planeFlip _ => .event
  | .aging _ => .event
  | .jobCompletion _ => .event
  | .jobTime _ => .event
  | .jobKill _ => .event
  | .preemption _ => .event
  | .saveComplete _ => .event
  | .pageFaultService _ _ => .event
  | .faultTimeout _ _ => .event
  | .pageEviction _ _ _ _ => .event
  | .pageMigration _ _ _ _ => .event
  | .migrationRecheck _ _ => .event
  | .migrationTimeout _ _ => .event
  | .invalidationComplete _ => .event
  | .pairMerge _ => .event
  | .pairTwinTimeout _ => .event
  | .replayTimeout _ => .event
  | .boot _ => .event
  | .linkFatal _ => .event
  | .flr _ => .event
  | .partitionSetup _ => .event
  | .partitionTeardown _ => .event
  | .queueRegistration _ _ _ _ => .event
  | .doorbell _ _ _ => .event
  | .chainEnable _ _ => .event
  | .chainDisable _ _ => .event
  | .hostRegisterWrite _ _ _ => .event
  | .preempt _ => .event
  | .kill _ => .event
  | .pageResp _ => .event
  | .inval _ => .event
  | .sensor _ => .event
  | .chaincode _ => .event
  | .stage => .event
  | .activate => .event
  | .activateLive => .event
  | .logdesc => .event
  | .logrel => .event
  | .testint => .event
  | .evring => .event
  | .framerHeartbeat => .event
  | .updateRollback => .event
  | .framerSilent => .event
  | .sensorSample => .event
  | .thermalTrip _ => .event
  | .voltageMonitor _ => .event
  | .clockMonitor _ => .event
  | .conditionCleared _ => .event
  | .selfTest _ _ _ => .event
  | .spareInsertion _ _ _ => .event
  | .sliceCopyComplete _ => .event
  | .doeDiscovery => .event
  | .getVersion => .event
  | .getCapabilities => .event
  | .negotiateAlgorithms => .event
  | .getDigests => .event
  | .getCertificate _ _ => .event
  | .challenge _ => .event
  | .getMeasurements _ _ => .event
  | .encodingFault _ => .event
  | .unitNotTested _ _ => .event
  | .uplinkReply _ _ => .event

/-- The operand limits of each row. -/
def Instr.wf : Instr → Bool
  | .add _ _ _ => true
  | .sub _ _ _ => true
  | .mul _ _ _ => true
  | .mulh _ _ _ => true
  | .mulhw _ _ _ => true
  | .div _ _ _ => true
  | .divw _ _ _ => true
  | .rem _ _ _ => true
  | .remw _ _ _ => true
  | .and _ _ _ => true
  | .or _ _ _ => true
  | .xor _ _ _ => true
  | .andn _ _ _ => true
  | .shl _ _ _ => true
  | .shr _ _ _ => true
  | .sar _ _ _ => true
  | .rol _ _ _ => true
  | .min _ _ _ => true
  | .max _ _ _ => true
  | .minw _ _ _ => true
  | .maxw _ _ _ => true
  | .slt _ _ _ => true
  | .sltw _ _ _ => true
  | .clz _ _ => true
  | .ctz _ _ => true
  | .popc _ _ => true
  | .addi _ _ _ => true
  | .andi _ _ _ => true
  | .ori _ _ _ => true
  | .xori _ _ _ => true
  | .shli _ _ _ => true
  | .shri _ _ _ => true
  | .sari _ _ _ => true
  | .slti _ _ _ => true
  | .lui _ _ => true
  | .bfx _ _ _ w => decide (w.toNat ≤ 64)
  | .bfxReg _ _ _ => true
  | .bfxs _ _ _ w => decide (w.toNat ≤ 64)
  | .bfxsReg _ _ _ => true
  | .bfi _ _ _ w => decide (w.toNat ≤ 64)
  | .bfiReg _ _ _ => true
  | .beq _ _ _ => true
  | .bne _ _ _ => true
  | .blt _ _ _ => true
  | .bge _ _ _ => true
  | .bltw _ _ _ => true
  | .bgew _ _ _ => true
  | .jal _ _ => true
  | .jalr _ _ _ => true
  | .loop _ _ len => len != 0
  | .loopStrided _ _ b len => len != 0 && b.toNat % 2 == 0
  | .loopi _ _ len => len != 0
  | .loopr _ _ _ len => len != 0
  | .ld _ _ _ _ _ => true
  | .lds _ _ _ sz _ => sz != 3
  | .st _ _ _ _ _ => true
  | .amoAdd _ _ _ _ _ => true
  | .amoMin _ _ _ _ _ => true
  | .amoMax _ _ _ _ _ => true
  | .amoSwap _ _ _ _ _ => true
  | .amoCas _ _ _ _ _ => true
  | .amoOr _ _ _ _ _ => true
  | .phase => true
  | .fence _ => true
  | .barinit _ _ e => e != 0
  | .bararr _ _ n => n != 0
  | .barwait _ _ _ _ _ => true
  | .spawn m => m != 0
  | .join => true
  | .halt => true
  | .hset _ _ _ => true
  | .setpar _ p => parWritable p
  | .getpar _ p => parKnown p
  | .chpush _ _ => true
  | .chpop _ _ => true
  | .tkwait m => m != 0
  | .tksig m => m != 0
  | .rowwait _ _ _ _ => true
  | .rowpub _ _ => true
  | .frmwait _ _ _ => true
  | .sqarm _ _ => true
  | .sqwait _ _ _ => true
  | .sqrel _ => true
  | .tsread _ => true
  | .ctrr _ _ => true
  | .jwait _ => true
  | .jline _ _ _ => true
  | .jemit _ _ _ => true
  | .jrow => true
  | .jsub _ => true
  | .jstat _ n => decide (n.toNat ≤ 8)
  | .jtile _ => true
  | .csrr _ _ => true
  | .csrw _ _ _ => true
  | .csrs _ _ _ => true
  | .csrc _ _ _ => true
  | .trap _ => true
  | .tret => true
  | .waitev _ m => m != 0 && decide (m.toNat < 64)
  | .vadd g _ _ _ => g.wf
  | .vaddK g _ _ _ => g.wf
  | .vaddI g _ _ _ => g.wf
  | .vsub g _ _ _ => g.wf
  | .vsubK g _ _ _ => g.wf
  | .vsubI g _ _ _ => g.wf
  | .vmul g _ _ _ => g.wf
  | .vmulK g _ _ _ => g.wf
  | .vmulI g _ _ _ => g.wf
  | .vmadd g _ _ _ => g.wf
  | .vmaddK g _ _ _ => g.wf
  | .vmaddI g _ _ _ => g.wf
  | .vmsub g _ _ _ => g.wf
  | .vmsubK g _ _ _ => g.wf
  | .vmsubI g _ _ _ => g.wf
  | .vmin g _ _ _ => g.wf
  | .vminK g _ _ _ => g.wf
  | .vminI g _ _ _ => g.wf
  | .vmax g _ _ _ => g.wf
  | .vmaxK g _ _ _ => g.wf
  | .vmaxI g _ _ _ => g.wf
  | .vabs g _ _ => g.wf
  | .vneg g _ _ => g.wf
  | .vand g _ _ _ => g.wf
  | .vandK g _ _ _ => g.wf
  | .vandI g _ _ _ => g.wf
  | .vor g _ _ _ => g.wf
  | .vorK g _ _ _ => g.wf
  | .vorI g _ _ _ => g.wf
  | .vxor g _ _ _ => g.wf
  | .vxorK g _ _ _ => g.wf
  | .vxorI g _ _ _ => g.wf
  | .vshl g _ _ _ => g.wf
  | .vshlK g _ _ _ => g.wf
  | .vshlI g _ _ _ => g.wf
  | .vshr g _ _ _ => g.wf
  | .vshrK g _ _ _ => g.wf
  | .vshrI g _ _ _ => g.wf
  | .vsar g _ _ _ => g.wf
  | .vsarK g _ _ _ => g.wf
  | .vsarI g _ _ _ => g.wf
  | .vsel _ _ _ _ _ => true
  | .vselK _ _ _ _ _ => true
  | .vselI _ _ _ _ _ => true
  | .vcmpeq g _ _ _ => g.wf
  | .vcmpeqK g _ _ _ => g.wf
  | .vcmpeqI g _ _ _ => g.wf
  | .vcmpne g _ _ _ => g.wf
  | .vcmpneK g _ _ _ => g.wf
  | .vcmpneI g _ _ _ => g.wf
  | .vcmplt g _ _ _ => g.wf
  | .vcmpltK g _ _ _ => g.wf
  | .vcmpltI g _ _ _ => g.wf
  | .vcmple g _ _ _ => g.wf
  | .vcmpleK g _ _ _ => g.wf
  | .vcmpleI g _ _ _ => g.wf
  | .vwadd g d _ _ => g.wf && d.toNat % 2 == 0
  | .vwaddK g d _ _ => g.wf && d.toNat % 2 == 0
  | .vwaddI g d _ _ => g.wf && d.toNat % 2 == 0
  | .vwmul g d _ _ => g.wf && d.toNat % 2 == 0
  | .vwmulK g d _ _ => g.wf && d.toNat % 2 == 0
  | .vwmulI g d _ _ => g.wf && d.toNat % 2 == 0
  | .vwmadd g d _ _ => g.wf && d.toNat % 2 == 0
  | .vwmaddK g d _ _ => g.wf && d.toNat % 2 == 0
  | .vwmaddI g d _ _ => g.wf && d.toNat % 2 == 0
  | .vdot4 g _ _ _ => g.wf
  | .vdot4K g _ _ _ => g.wf
  | .vcvt g _ _ f => g.wf && fmtKnown f
  | .vnarrow g _ _ f => g.wf && fmtKnown f
  | .vquant _ _ f => fmtKnown f
  | .vdeq g _ _ f => g.wf && fmtKnown f
  | .vlgmul g _ _ _ => g.wf
  | .vlgadd g _ _ _ => g.wf
  | .vlgcvt g _ _ f => g.wf && fmtKnown f
  | .vdiv g _ _ _ => g.wf
  | .vdivK g _ _ _ => g.wf
  | .vexp2 g _ _ => g.wf
  | .vlog2 g _ _ => g.wf
  | .vrcp g _ _ => g.wf
  | .vrsqrt g _ _ => g.wf
  | .vtanh g _ _ => g.wf
  | .vsigm g _ _ => g.wf
  | .vsqrt g _ _ => g.wf
  | .vrsum g _ _ => g.wf
  | .vrmax g _ _ => g.wf
  | .vrmin g _ _ => g.wf
  | .vscan g _ _ => g.wf
  | .vscanExcl g _ _ => g.wf
  | .vperm g _ _ _ => g.wf
  | .vslideK g _ _ _ => g.wf
  | .vslideI g _ _ _ => g.wf
  | .vbcastK g _ _ _ => g.wf
  | .vbcastI g _ _ _ => g.wf
  | .vzip g d _ _ => g.wf && d.toNat % 2 == 0
  | .vunzip g d a => g.wf && d.toNat % 2 == 0 && a.toNat % 2 == 0
  | .pand g _ _ _ => g.wf
  | .por g _ _ _ => g.wf
  | .pxor g _ _ _ => g.wf
  | .pnot g _ _ => g.wf
  | .pcnt g _ _ => g.wf
  | .pfirst g _ _ => g.wf
  | .plenK g _ _ => g.wf
  | .plenI g _ _ => g.wf
  | .vld g _ _ n k => g.wf && decide (k.toNat + n.toNat + 1 ≤ 8)
  | .vst g _ _ n k => g.wf && decide (k.toNat + n.toNat + 1 ≤ 8)
  | .vldx g _ _ _ => g.wf
  | .vstx g _ _ _ => g.wf
  | .vrand g _ => g.wf
  | .vshape _ => true
  | .vmov g _ _ => g.wf
  | .vmovK g _ _ => g.wf
  | .vmovI g _ _ => g.wf
  | .vrot => true
  | .vloop _ len _ => len != 0
  | .vloopi _ len _ => len != 0
  | .vloopr _ _ len _ => len != 0
  | .vpegw m => m != 0
  | .vpegs m => m != 0
  | .vend => true
  | .vkset _ _ => true
  | .tlease _ _ _ => true
  | .tfree _ _ _ => true
  | .tloadb _ _ _ _ => true
  | .tmma _ _ _ _ _ => true
  | .tmmas _ _ _ _ _ => true
  | .tpromo _ _ _ _ _ => true
  | .tdrain _ _ _ _ _ => true
  | .tzero _ _ _ _ _ => true
  | .tcommit _ _ _ _ => true
  | .tdiscard _ _ _ _ => true
  | .tsign _ _ _ _ => true
  | .tbucket _ _ _ _ => true
  | .trepsFirst _ _ _ _ => true
  | .trepsMean _ _ _ _ => true
  | .trepsNormmax _ _ _ _ => true
  | .tscat _ _ _ _ _ => true
  | .tmgrad _ _ _ _ => true
  | .tnop _ _ _ => true
  | .sloop _ len => len != 0
  | .xcopy _ _ _ _ => true
  | .xcast _ _ _ _ => true
  | .xaddw _ _ _ _ => true
  | .xredAddf32 _ _ _ _ => true
  | .xredAddi32 _ _ _ _ => true
  | .xredMaxf32 _ _ _ _ => true
  | .xredMinf32 _ _ _ _ => true
  | .xredMaxi32 _ _ _ _ => true
  | .xredMini32 _ _ _ _ => true
  | .xgath _ _ _ _ => true
  | .xscat _ _ _ _ => true
  | .xconv _ _ _ _ => true
  | .xfill _ _ _ _ => true
  | .xord _ _ _ => true
  | .xnop _ _ _ => true
  | .idle n => n != 0
  | .lswap => true
  | .lckpt _ => true
  | .lgath _ _ _ => true
  | .lsort _ _ _ => true
  | .lmerge _ im _ j => im != j
  | .lroute _ _ m => m != 0
  | .ltopk _ _ _ => true
  | .hprobe _ _ _ => true
  | .hins _ _ => true
  | .hdel _ _ => true
  | .hrehashBegin _ => true
  | .hrehash _ n => n != 0
  | .hfence _ _ => true
  | .ldedup _ _ _ => true
  | .lcompact _ _ _ => true
  | .lscan _ _ _ _ => true
  | .lhist _ _ _ => true
  | .loopBodyEnd => true
  | .phaseCompletion _ => true
  | .commitSweep _ _ => true
  | .waitBoundExpiry _ => true
  | .squareDeadline _ => true
  | .squareCompletion _ => true
  | .trapEntry _ => true
  | .leaseGrant _ => true
  | .leaseWindowEnd _ => true
  | .trussCommandStart _ => true
  | .trussRowWrite _ => true
  | .trussCommandCompletion _ => true
  | .copySectorMove _ _ _ => true
  | .copyCompletion _ _ _ => true
  | .xaddwLineWrite _ _ => true
  | .xredRequestApply _ _ => true
  | .xredAck _ _ => true
  | .xredResend _ _ => true
  | .storeCompletion _ _ => true
  | .deferredPegPush _ _ => true
  | .streamEnd _ _ => true
  | .codeFetch _ => true
  | .hashUpdateCompletion _ _ => true
  | .lathTokenArrival _ _ _ => true
  | .batchStoreMove _ _ _ => true
  | .tokenEmission _ _ => true
  | .loaderCompletion _ => true
  | .parityError _ => true
  | .reloadCompletion _ _ => true
  | .channelElementArrival _ _ => true
  | .creditReturn _ _ => true
  | .channelAudit _ _ => true
  | .auditCheck _ _ => true
  | .resyncReturn _ _ => true
  | .resyncApply _ _ => true
  | .csi2FrameStart _ _ => true
  | .csi2FrameEnd _ _ => true
  | .csi2LineStart _ _ _ => true
  | .csi2LongPacket _ _ _ _ _ _ => true
  | .csi2LineEnd _ _ => true
  | .csi2UnsupportedPacket _ _ => true
  | .lineTimeout _ => true
  | .lidarFrame _ _ _ => true
  | .lidarFramePeriod _ => true
  | .gptpAnnounce _ _ => true
  | .gptpSync _ _ _ => true
  | .gptpFollowUp _ _ => true
  | .pdelayRequest _ _ => true
  | .pdelayOriginate _ => true
  | .pdelayResponse _ _ => true
  | .syncLoss => true
  | .scheduleFrameOrigin _ => true
  | .admission _ => true
  | .dependenceMet _ => true
  | .selection _ => true
  | .planeFlip _ => true
  | .aging _ => true
  | .jobCompletion _ => true
  | .jobTime _ => true
  | .jobKill _ => true
  | .preemption _ => true
  | .saveComplete _ => true
  | .pageFaultService _ _ => true
  | .faultTimeout _ _ => true
  | .pageEviction _ _ _ _ => true
  | .pageMigration _ _ _ _ => true
  | .migrationRecheck _ _ => true
  | .migrationTimeout _ _ => true
  | .invalidationComplete _ => true
  | .pairMerge _ => true
  | .pairTwinTimeout _ => true
  | .replayTimeout _ => true
  | .boot _ => true
  | .linkFatal _ => true
  | .flr _ => true
  | .partitionSetup _ => true
  | .partitionTeardown _ => true
  | .queueRegistration _ _ _ _ => true
  | .doorbell _ _ _ => true
  | .chainEnable _ _ => true
  | .chainDisable _ _ => true
  | .hostRegisterWrite _ _ _ => true
  | .preempt _ => true
  | .kill _ => true
  | .pageResp _ => true
  | .inval _ => true
  | .sensor _ => true
  | .chaincode _ => true
  | .stage => true
  | .activate => true
  | .activateLive => true
  | .logdesc => true
  | .logrel => true
  | .testint => true
  | .evring => true
  | .framerHeartbeat => true
  | .updateRollback => true
  | .framerSilent => true
  | .sensorSample => true
  | .thermalTrip _ => true
  | .voltageMonitor _ => true
  | .clockMonitor _ => true
  | .conditionCleared _ => true
  | .selfTest _ _ _ => true
  | .spareInsertion _ _ _ => true
  | .sliceCopyComplete _ => true
  | .doeDiscovery => true
  | .getVersion => true
  | .getCapabilities => true
  | .negotiateAlgorithms => true
  | .getDigests => true
  | .getCertificate _ _ => true
  | .challenge _ => true
  | .getMeasurements _ _ => true
  | .encodingFault _ => true
  | .unitNotTested _ _ => true
  | .uplinkReply _ _ => true

/-- A place where an instruction's word is fetched (R36, R50, R53, R60); the steps without bits have none of their own. -/
def Instr.place (i : Instr) : Place :=
  match i with
  | .jwait _ | .jline .. | .jemit .. | .jrow | .jsub _ | .jstat .. | .jtile _ => .jointerScalar true
  | .xcast .. | .xredAddf32 .. | .xredAddi32 .. | .xredMaxf32 .. | .xredMinf32 .. | .xredMaxi32 .. | .xredMini32 .. => .st
  | .lsort .. | .lmerge .. => .lath .sort
  | .lroute .. | .ltopk .. => .lath .route
  | .hprobe .. | .hins .. | .hdel .. | .hrehashBegin _ | .hrehash .. | .hfence .. => .lath .hash
  | .ldedup .. | .lcompact .. => .lath .dedupe
  | .lscan .. | .lhist .. => .lath .scan
  | i =>
    match i.family with
    | .scalar | .event => .seq
    | .vector => .vec
    | .matrix | .sloop => .mtx
    | .transfer => .ld
    | .lath => .lath .gather

end Sys2Proof
end

