-- ==== Sys2Proof/Laws/PerInstr.lean ====
section
/-! SUPPORT. The family `Encoding`: for each instruction, its encoded word decodes to it at its place. -/

set_option linter.unusedSimpArgs false
set_option linter.unusedVariables false
set_option linter.unusedTactic false
set_option linter.unreachableTactic false

namespace Sys2Proof.Laws

/-- The value of an encoded word. -/
theorem word_of {n : Nat} {w : BitVec 32} (hw : some (BitVec.ofNat 32 n) = some w) (h : n < 2 ^ 32) : w.toNat = n := by
  obtain rfl := Option.some.inj hw
  simpa using h

/-- A field of a word is an operand. -/
theorem fld_eq {w : BitVec 32} {n lo len : Nat} (x : BitVec len) (h : w.toNat = n) (e : n / 2 ^ lo % 2 ^ len = x.toNat) : fld w lo len = x := by
  apply BitVec.eq_of_toNat_eq
  simpa [fld, h] using e

/-- A field of a word is a number. -/
theorem fld_num {w : BitVec 32} {n lo len : Nat} (k : Nat) (h : w.toNat = n) (e : n / 2 ^ lo % 2 ^ len = k) : (fld w lo len).toNat = k := by
  simpa [fld, h] using e

theorem nz_false {w : BitVec 32} {n lo len : Nat} (h : w.toNat = n) (e : n / 2 ^ lo % 2 ^ len = 0) : nz w lo len = false := by
  simp only [nz, h, e, bne_self_eq_false]

theorem nz_true {w : BitVec 32} {n lo len : Nat} (h : w.toNat = n) (e : n / 2 ^ lo % 2 ^ len ≠ 0) : nz w lo len = true := by
  simpa only [nz, h, bne_iff_ne] using e

/-- A word laid out from its low end: the width and the value of each field. -/
def packed : List (Nat × Nat) → Nat
  | [] => 0
  | (len, v) :: t => v + 2 ^ len * packed t

/-- Every value fits its field. -/
def Fits : List (Nat × Nat) → Prop
  | [] => True
  | (len, v) :: t => v < 2 ^ len ∧ Fits t

/-- Where field `k` begins. -/
def lowAt : List (Nat × Nat) → Nat → Nat
  | [], _ => 0
  | _ :: _, 0 => 0
  | (len, _) :: t, k + 1 => len + lowAt t k

theorem packed_at (l : List (Nat × Nat)) (h : Fits l) (k : Nat) :
    packed l / 2 ^ lowAt l k % 2 ^ (l.getD k (0, 0)).1 = (l.getD k (0, 0)).2 := by
  induction l generalizing k with
  | nil => simp [packed, lowAt]
  | cons x t ih =>
    obtain ⟨len, v⟩ := x
    cases k with
    | zero => simp [packed, lowAt, Nat.add_mul_mod_self_left, Nat.mod_eq_of_lt h.1]
    | succ k =>
      have := ih h.2 k
      simp only [packed, lowAt, List.getD_cons_succ, Nat.pow_add, ← Nat.div_div_eq_div_mul]
      rwa [Nat.add_mul_div_left _ _ (Nat.two_pow_pos len), Nat.div_eq_of_lt h.1, Nat.zero_add]

theorem packed_lt (l : List (Nat × Nat)) (h : Fits l) : packed l < 2 ^ (l.map (·.1)).sum := by
  induction l with
  | nil => simp [packed]
  | cons x t ih =>
    obtain ⟨len, v⟩ := x
    have h1 := ih h.2
    have h2 := h.1
    simp only [packed, List.map_cons, List.sum_cons, Nat.pow_add]
    calc v + 2 ^ len * packed t < 2 ^ len + 2 ^ len * packed t := by omega
      _ = 2 ^ len * (packed t + 1) := by rw [Nat.mul_add, Nat.mul_one, Nat.add_comm]
      _ ≤ 2 ^ len * 2 ^ (t.map (·.1)).sum := Nat.mul_le_mul_left _ h1

/-- The value of an encoded word, as its fields. -/
theorem packed_word {n : Nat} {w : BitVec 32} (l : List (Nat × Nat)) (hl : (l.map (·.1)).sum = 32) (h : Fits l) (e : n = packed l)
    (hw : some (BitVec.ofNat 32 n) = some w) : w.toNat = packed l := by
  have := packed_lt l h
  rw [hl] at this
  rw [← e] at this ⊢
  exact word_of hw this

/-- A word whose row passes its checks decodes to the row's instruction. -/
theorem decode_ok {p : Place} {w : BitVec 32} {n : Nat} {r : Row} {i : Instr} (h : w.toNat = n) (h0 : n ≠ 0) (hr : rowAt p w = some r)
    (hc : checkRow p r = .ok i) : decodeWord p w = .ok i := by
  have : w ≠ 0 := by
    rintro rfl
    exact h0 h.symm
  simp only [decodeWord, if_neg this, hr, hc]

/-- A row that meets no condition of R54 gives its instruction. -/
theorem check_ok {p : Place} {r : Row} {i : Instr} (hp : (p == .jointerVector) = false) (ha : r.avail.holds p = true) (hu : r.unused = false)
    (hr : r.range = false) (hm : r.misaligned = false) (hf : r.form = false) (hi : r.instr = some i) : checkRow p r = .ok i := by
  rw [checkRow, ha, hu, hr, hm, hf, hi, hp]
  rfl

/-- The guard fields stand above bit 25. -/
theorem guardBits_mul (g : Guard) : ∃ q, q < 64 ∧ guardBits g = 67108864 * q := by
  have := g.p.isLt
  refine ⟨(if g.e then 32 else 0) + (if g.inv then 16 else 0) + g.p.toNat, ?_, ?_⟩
  · split <;> split <;> omega
  · unfold guardBits
    split <;> split <;> omega

theorem guard_ok (g : Guard) (hg : g.wf = true) {w : BitVec 32} {n r : Nat} (h : w.toNat = n) (e : n = guardBits g + r) (hr : r < 67108864) :
    guardOf w = g ∧ guardBad w = false := by
  obtain ⟨ge, gi, gp⟩ := g
  have hp := gp.isLt
  have hz : ge = false → gi = false ∧ gp.toNat = 0 := by
    intro he
    simpa [Guard.wf, he, BitVec.toNat_eq] using hg
  have e1 : nz w 31 1 = ge := by
    cases ge
    · exact nz_false h (by simp [guardBits] at e; have := hz rfl; simp [this.1] at e; omega)
    · exact nz_true h (by cases gi <;> simp [guardBits] at e <;> omega)
  have e2 : nz w 30 1 = gi := by
    cases gi
    · exact nz_false h (by cases ge <;> simp [guardBits] at e <;> omega)
    · exact nz_true h (by cases ge <;> simp [guardBits] at e <;> omega)
  have e3 : fld w 26 4 = gp := fld_eq gp h (by cases ge <;> cases gi <;> simp [guardBits] at e <;> omega)
  refine ⟨by simp [guardOf, e1, e2, e3], ?_⟩
  cases hge : ge
  · have e4 := nz_false (lo := 26) (len := 5) h (by have := hz hge; simp [guardBits, hge, this.1] at e; omega)
    simp [guardBad, e4]
  · rw [hge] at e1
    simp [guardBad, e1]

/-- The guard of a word laid out below bit 26. -/
theorem guard_packed (g : Guard) (hg : g.wf = true) {q : Nat} (hq : q < 64) (eq : guardBits g = 67108864 * q) {w : BitVec 32}
    (l : List (Nat × Nat)) (hl : (l.map (·.1)).sum = 26) (hF : Fits (l ++ [(6, q)])) (h : w.toNat = packed (l ++ [(6, q)])) :
    guardOf w = g ∧ guardBad w = false := by
  have happ : ∀ l : List (Nat × Nat), packed (l ++ [(6, q)]) = packed l + 2 ^ (l.map (·.1)).sum * q := by
    intro l
    induction l with
    | nil => simp [packed]
    | cons x t ih =>
      obtain ⟨len, v⟩ := x
      simp only [List.cons_append, packed, ih, List.map_cons, List.sum_cons, Nat.pow_add, Nat.mul_add, Nat.mul_assoc, Nat.add_assoc]
  have hfit : ∀ l : List (Nat × Nat), Fits (l ++ [(6, q)]) → Fits l := by
    intro l
    induction l with
    | nil => intro; trivial
    | cons x t ih => intro h; exact ⟨h.1, ih h.2⟩
  have hlt := packed_lt l (hfit l hF)
  rw [happ, hl] at h
  rw [hl] at hlt
  exact guard_ok g hg h (r := packed l) (by omega) (by simpa using hlt)

theorem guardBad_e {w : BitVec 32} {n : Nat} (h : w.toNat = n) (e : 2 ^ 31 ≤ n) : guardBad w = false := by
  have := nz_true (lo := 31) (len := 1) h (by omega)
  simp [guardBad, this]

theorem guardBad_low {w : BitVec 32} {n : Nat} (h : w.toNat = n) (e : n < 67108864) : guardBad w = false := by
  have := nz_false (lo := 26) (len := 5) h (by omega)
  simp [guardBad, this]

/-- The encoded word of a well-formed instruction decodes to it. -/
def Encoding.Statement (i : Instr) : Prop := i.wf = true → ∀ w, encode i = some w → decodeWord i.place w = .ok i

namespace Encoding

theorem add (d : BitVec 5) (a : BitVec 5) (b : BitVec 5) : Statement (.add d a b) := by
  intro h w hw
  clear h
  have hF : Fits [(10, 0), (5, b.toNat), (5, a.toNat), (5, d.toNat), (7, 1)] := ⟨of_decide_eq_true rfl, b.isLt, a.isLt, d.isLt, of_decide_eq_true rfl, trivial⟩
  have hE : 0x2000000 + d.toNat * 1048576 + a.toNat * 32768 + b.toNat * 1024 = packed [(10, 0), (5, b.toNat), (5, a.toNat), (5, d.toNat), (7, 1)] := by
    simp only [packed]
    clear hF hw; omega
  have hW := packed_word _ rfl hF hE hw
  clear hw
  have e0 := fld_eq (lo := 20) d hW (packed_at _ hF 3)
  have e1 := fld_eq (lo := 15) a hW (packed_at _ hF 2)
  have e2 := fld_eq (lo := 10) b hW (packed_at _ hF 1)
  have hr : scalarRow w = some { instr := some (.add (fld w 20 5) (fld w 15 5) (fld w 10 5)) } := by
    unfold scalarRow
    rw [fld_num (lo := 25) (len := 7) 1 hW (packed_at _ hF 4)]
    show aluRow w = _
    unfold aluRow
    rw [fld_num (lo := 0) (len := 10) 0 hW (packed_at _ hF 0)]
    first | done | rfl
  change decodeWord .seq w = _
  refine decode_ok (p := .seq) (hW.trans hE.symm) (by omega) hr ?_
  refine check_ok rfl rfl rfl rfl rfl rfl ?_
  · simp only [e0, e1, e2]

theorem sub (d : BitVec 5) (a : BitVec 5) (b : BitVec 5) : Statement (.sub d a b) := by
  intro h w hw
  clear h
  have hF : Fits [(10, 1), (5, b.toNat), (5, a.toNat), (5, d.toNat), (7, 1)] := ⟨of_decide_eq_true rfl, b.isLt, a.isLt, d.isLt, of_decide_eq_true rfl, trivial⟩
  have hE : 0x2000001 + d.toNat * 1048576 + a.toNat * 32768 + b.toNat * 1024 = packed [(10, 1), (5, b.toNat), (5, a.toNat), (5, d.toNat), (7, 1)] := by
    simp only [packed]
    clear hF hw; omega
  have hW := packed_word _ rfl hF hE hw
  clear hw
  have e0 := fld_eq (lo := 20) d hW (packed_at _ hF 3)
  have e1 := fld_eq (lo := 15) a hW (packed_at _ hF 2)
  have e2 := fld_eq (lo := 10) b hW (packed_at _ hF 1)
  have hr : scalarRow w = some { instr := some (.sub (fld w 20 5) (fld w 15 5) (fld w 10 5)) } := by
    unfold scalarRow
    rw [fld_num (lo := 25) (len := 7) 1 hW (packed_at _ hF 4)]
    show aluRow w = _
    unfold aluRow
    rw [fld_num (lo := 0) (len := 10) 1 hW (packed_at _ hF 0)]
    first | done | rfl
  change decodeWord .seq w = _
  refine decode_ok (p := .seq) (hW.trans hE.symm) (by omega) hr ?_
  refine check_ok rfl rfl rfl rfl rfl rfl ?_
  · simp only [e0, e1, e2]

theorem mul (d : BitVec 5) (a : BitVec 5) (b : BitVec 5) : Statement (.mul d a b) := by
  intro h w hw
  clear h
  have hF : Fits [(10, 2), (5, b.toNat), (5, a.toNat), (5, d.toNat), (7, 1)] := ⟨of_decide_eq_true rfl, b.isLt, a.isLt, d.isLt, of_decide_eq_true rfl, trivial⟩
  have hE : 0x2000002 + d.toNat * 1048576 + a.toNat * 32768 + b.toNat * 1024 = packed [(10, 2), (5, b.toNat), (5, a.toNat), (5, d.toNat), (7, 1)] := by
    simp only [packed]
    clear hF hw; omega
  have hW := packed_word _ rfl hF hE hw
  clear hw
  have e0 := fld_eq (lo := 20) d hW (packed_at _ hF 3)
  have e1 := fld_eq (lo := 15) a hW (packed_at _ hF 2)
  have e2 := fld_eq (lo := 10) b hW (packed_at _ hF 1)
  have hr : scalarRow w = some { instr := some (.mul (fld w 20 5) (fld w 15 5) (fld w 10 5)) } := by
    unfold scalarRow
    rw [fld_num (lo := 25) (len := 7) 1 hW (packed_at _ hF 4)]
    show aluRow w = _
    unfold aluRow
    rw [fld_num (lo := 0) (len := 10) 2 hW (packed_at _ hF 0)]
    first | done | rfl
  change decodeWord .seq w = _
  refine decode_ok (p := .seq) (hW.trans hE.symm) (by omega) hr ?_
  refine check_ok rfl rfl rfl rfl rfl rfl ?_
  · simp only [e0, e1, e2]

theorem mulh (d : BitVec 5) (a : BitVec 5) (b : BitVec 5) : Statement (.mulh d a b) := by
  intro h w hw
  clear h
  have hF : Fits [(10, 3), (5, b.toNat), (5, a.toNat), (5, d.toNat), (7, 1)] := ⟨of_decide_eq_true rfl, b.isLt, a.isLt, d.isLt, of_decide_eq_true rfl, trivial⟩
  have hE : 0x2000003 + d.toNat * 1048576 + a.toNat * 32768 + b.toNat * 1024 = packed [(10, 3), (5, b.toNat), (5, a.toNat), (5, d.toNat), (7, 1)] := by
    simp only [packed]
    clear hF hw; omega
  have hW := packed_word _ rfl hF hE hw
  clear hw
  have e0 := fld_eq (lo := 20) d hW (packed_at _ hF 3)
  have e1 := fld_eq (lo := 15) a hW (packed_at _ hF 2)
  have e2 := fld_eq (lo := 10) b hW (packed_at _ hF 1)
  have hr : scalarRow w = some { instr := some (.mulh (fld w 20 5) (fld w 15 5) (fld w 10 5)) } := by
    unfold scalarRow
    rw [fld_num (lo := 25) (len := 7) 1 hW (packed_at _ hF 4)]
    show aluRow w = _
    unfold aluRow
    rw [fld_num (lo := 0) (len := 10) 3 hW (packed_at _ hF 0)]
    first | done | rfl
  change decodeWord .seq w = _
  refine decode_ok (p := .seq) (hW.trans hE.symm) (by omega) hr ?_
  refine check_ok rfl rfl rfl rfl rfl rfl ?_
  · simp only [e0, e1, e2]

theorem mulhw (d : BitVec 5) (a : BitVec 5) (b : BitVec 5) : Statement (.mulhw d a b) := by
  intro h w hw
  clear h
  have hF : Fits [(10, 4), (5, b.toNat), (5, a.toNat), (5, d.toNat), (7, 1)] := ⟨of_decide_eq_true rfl, b.isLt, a.isLt, d.isLt, of_decide_eq_true rfl, trivial⟩
  have hE : 0x2000004 + d.toNat * 1048576 + a.toNat * 32768 + b.toNat * 1024 = packed [(10, 4), (5, b.toNat), (5, a.toNat), (5, d.toNat), (7, 1)] := by
    simp only [packed]
    clear hF hw; omega
  have hW := packed_word _ rfl hF hE hw
  clear hw
  have e0 := fld_eq (lo := 20) d hW (packed_at _ hF 3)
  have e1 := fld_eq (lo := 15) a hW (packed_at _ hF 2)
  have e2 := fld_eq (lo := 10) b hW (packed_at _ hF 1)
  have hr : scalarRow w = some { instr := some (.mulhw (fld w 20 5) (fld w 15 5) (fld w 10 5)) } := by
    unfold scalarRow
    rw [fld_num (lo := 25) (len := 7) 1 hW (packed_at _ hF 4)]
    show aluRow w = _
    unfold aluRow
    rw [fld_num (lo := 0) (len := 10) 4 hW (packed_at _ hF 0)]
    first | done | rfl
  change decodeWord .seq w = _
  refine decode_ok (p := .seq) (hW.trans hE.symm) (by omega) hr ?_
  refine check_ok rfl rfl rfl rfl rfl rfl ?_
  · simp only [e0, e1, e2]

theorem div (d : BitVec 5) (a : BitVec 5) (b : BitVec 5) : Statement (.div d a b) := by
  intro h w hw
  clear h
  have hF : Fits [(10, 5), (5, b.toNat), (5, a.toNat), (5, d.toNat), (7, 1)] := ⟨of_decide_eq_true rfl, b.isLt, a.isLt, d.isLt, of_decide_eq_true rfl, trivial⟩
  have hE : 0x2000005 + d.toNat * 1048576 + a.toNat * 32768 + b.toNat * 1024 = packed [(10, 5), (5, b.toNat), (5, a.toNat), (5, d.toNat), (7, 1)] := by
    simp only [packed]
    clear hF hw; omega
  have hW := packed_word _ rfl hF hE hw
  clear hw
  have e0 := fld_eq (lo := 20) d hW (packed_at _ hF 3)
  have e1 := fld_eq (lo := 15) a hW (packed_at _ hF 2)
  have e2 := fld_eq (lo := 10) b hW (packed_at _ hF 1)
  have hr : scalarRow w = some { instr := some (.div (fld w 20 5) (fld w 15 5) (fld w 10 5)) } := by
    unfold scalarRow
    rw [fld_num (lo := 25) (len := 7) 1 hW (packed_at _ hF 4)]
    show aluRow w = _
    unfold aluRow
    rw [fld_num (lo := 0) (len := 10) 5 hW (packed_at _ hF 0)]
    first | done | rfl
  change decodeWord .seq w = _
  refine decode_ok (p := .seq) (hW.trans hE.symm) (by omega) hr ?_
  refine check_ok rfl rfl rfl rfl rfl rfl ?_
  · simp only [e0, e1, e2]

theorem divw (d : BitVec 5) (a : BitVec 5) (b : BitVec 5) : Statement (.divw d a b) := by
  intro h w hw
  clear h
  have hF : Fits [(10, 6), (5, b.toNat), (5, a.toNat), (5, d.toNat), (7, 1)] := ⟨of_decide_eq_true rfl, b.isLt, a.isLt, d.isLt, of_decide_eq_true rfl, trivial⟩
  have hE : 0x2000006 + d.toNat * 1048576 + a.toNat * 32768 + b.toNat * 1024 = packed [(10, 6), (5, b.toNat), (5, a.toNat), (5, d.toNat), (7, 1)] := by
    simp only [packed]
    clear hF hw; omega
  have hW := packed_word _ rfl hF hE hw
  clear hw
  have e0 := fld_eq (lo := 20) d hW (packed_at _ hF 3)
  have e1 := fld_eq (lo := 15) a hW (packed_at _ hF 2)
  have e2 := fld_eq (lo := 10) b hW (packed_at _ hF 1)
  have hr : scalarRow w = some { instr := some (.divw (fld w 20 5) (fld w 15 5) (fld w 10 5)) } := by
    unfold scalarRow
    rw [fld_num (lo := 25) (len := 7) 1 hW (packed_at _ hF 4)]
    show aluRow w = _
    unfold aluRow
    rw [fld_num (lo := 0) (len := 10) 6 hW (packed_at _ hF 0)]
    first | done | rfl
  change decodeWord .seq w = _
  refine decode_ok (p := .seq) (hW.trans hE.symm) (by omega) hr ?_
  refine check_ok rfl rfl rfl rfl rfl rfl ?_
  · simp only [e0, e1, e2]

theorem rem (d : BitVec 5) (a : BitVec 5) (b : BitVec 5) : Statement (.rem d a b) := by
  intro h w hw
  clear h
  have hF : Fits [(10, 7), (5, b.toNat), (5, a.toNat), (5, d.toNat), (7, 1)] := ⟨of_decide_eq_true rfl, b.isLt, a.isLt, d.isLt, of_decide_eq_true rfl, trivial⟩
  have hE : 0x2000007 + d.toNat * 1048576 + a.toNat * 32768 + b.toNat * 1024 = packed [(10, 7), (5, b.toNat), (5, a.toNat), (5, d.toNat), (7, 1)] := by
    simp only [packed]
    clear hF hw; omega
  have hW := packed_word _ rfl hF hE hw
  clear hw
  have e0 := fld_eq (lo := 20) d hW (packed_at _ hF 3)
  have e1 := fld_eq (lo := 15) a hW (packed_at _ hF 2)
  have e2 := fld_eq (lo := 10) b hW (packed_at _ hF 1)
  have hr : scalarRow w = some { instr := some (.rem (fld w 20 5) (fld w 15 5) (fld w 10 5)) } := by
    unfold scalarRow
    rw [fld_num (lo := 25) (len := 7) 1 hW (packed_at _ hF 4)]
    show aluRow w = _
    unfold aluRow
    rw [fld_num (lo := 0) (len := 10) 7 hW (packed_at _ hF 0)]
    first | done | rfl
  change decodeWord .seq w = _
  refine decode_ok (p := .seq) (hW.trans hE.symm) (by omega) hr ?_
  refine check_ok rfl rfl rfl rfl rfl rfl ?_
  · simp only [e0, e1, e2]

theorem remw (d : BitVec 5) (a : BitVec 5) (b : BitVec 5) : Statement (.remw d a b) := by
  intro h w hw
  clear h
  have hF : Fits [(10, 8), (5, b.toNat), (5, a.toNat), (5, d.toNat), (7, 1)] := ⟨of_decide_eq_true rfl, b.isLt, a.isLt, d.isLt, of_decide_eq_true rfl, trivial⟩
  have hE : 0x2000008 + d.toNat * 1048576 + a.toNat * 32768 + b.toNat * 1024 = packed [(10, 8), (5, b.toNat), (5, a.toNat), (5, d.toNat), (7, 1)] := by
    simp only [packed]
    clear hF hw; omega
  have hW := packed_word _ rfl hF hE hw
  clear hw
  have e0 := fld_eq (lo := 20) d hW (packed_at _ hF 3)
  have e1 := fld_eq (lo := 15) a hW (packed_at _ hF 2)
  have e2 := fld_eq (lo := 10) b hW (packed_at _ hF 1)
  have hr : scalarRow w = some { instr := some (.remw (fld w 20 5) (fld w 15 5) (fld w 10 5)) } := by
    unfold scalarRow
    rw [fld_num (lo := 25) (len := 7) 1 hW (packed_at _ hF 4)]
    show aluRow w = _
    unfold aluRow
    rw [fld_num (lo := 0) (len := 10) 8 hW (packed_at _ hF 0)]
    first | done | rfl
  change decodeWord .seq w = _
  refine decode_ok (p := .seq) (hW.trans hE.symm) (by omega) hr ?_
  refine check_ok rfl rfl rfl rfl rfl rfl ?_
  · simp only [e0, e1, e2]

theorem and (d : BitVec 5) (a : BitVec 5) (b : BitVec 5) : Statement (.and d a b) := by
  intro h w hw
  clear h
  have hF : Fits [(10, 9), (5, b.toNat), (5, a.toNat), (5, d.toNat), (7, 1)] := ⟨of_decide_eq_true rfl, b.isLt, a.isLt, d.isLt, of_decide_eq_true rfl, trivial⟩
  have hE : 0x2000009 + d.toNat * 1048576 + a.toNat * 32768 + b.toNat * 1024 = packed [(10, 9), (5, b.toNat), (5, a.toNat), (5, d.toNat), (7, 1)] := by
    simp only [packed]
    clear hF hw; omega
  have hW := packed_word _ rfl hF hE hw
  clear hw
  have e0 := fld_eq (lo := 20) d hW (packed_at _ hF 3)
  have e1 := fld_eq (lo := 15) a hW (packed_at _ hF 2)
  have e2 := fld_eq (lo := 10) b hW (packed_at _ hF 1)
  have hr : scalarRow w = some { instr := some (.and (fld w 20 5) (fld w 15 5) (fld w 10 5)) } := by
    unfold scalarRow
    rw [fld_num (lo := 25) (len := 7) 1 hW (packed_at _ hF 4)]
    show aluRow w = _
    unfold aluRow
    rw [fld_num (lo := 0) (len := 10) 9 hW (packed_at _ hF 0)]
    first | done | rfl
  change decodeWord .seq w = _
  refine decode_ok (p := .seq) (hW.trans hE.symm) (by omega) hr ?_
  refine check_ok rfl rfl rfl rfl rfl rfl ?_
  · simp only [e0, e1, e2]

theorem or (d : BitVec 5) (a : BitVec 5) (b : BitVec 5) : Statement (.or d a b) := by
  intro h w hw
  clear h
  have hF : Fits [(10, 10), (5, b.toNat), (5, a.toNat), (5, d.toNat), (7, 1)] := ⟨of_decide_eq_true rfl, b.isLt, a.isLt, d.isLt, of_decide_eq_true rfl, trivial⟩
  have hE : 0x200000a + d.toNat * 1048576 + a.toNat * 32768 + b.toNat * 1024 = packed [(10, 10), (5, b.toNat), (5, a.toNat), (5, d.toNat), (7, 1)] := by
    simp only [packed]
    clear hF hw; omega
  have hW := packed_word _ rfl hF hE hw
  clear hw
  have e0 := fld_eq (lo := 20) d hW (packed_at _ hF 3)
  have e1 := fld_eq (lo := 15) a hW (packed_at _ hF 2)
  have e2 := fld_eq (lo := 10) b hW (packed_at _ hF 1)
  have hr : scalarRow w = some { instr := some (.or (fld w 20 5) (fld w 15 5) (fld w 10 5)) } := by
    unfold scalarRow
    rw [fld_num (lo := 25) (len := 7) 1 hW (packed_at _ hF 4)]
    show aluRow w = _
    unfold aluRow
    rw [fld_num (lo := 0) (len := 10) 10 hW (packed_at _ hF 0)]
    first | done | rfl
  change decodeWord .seq w = _
  refine decode_ok (p := .seq) (hW.trans hE.symm) (by omega) hr ?_
  refine check_ok rfl rfl rfl rfl rfl rfl ?_
  · simp only [e0, e1, e2]

theorem xor (d : BitVec 5) (a : BitVec 5) (b : BitVec 5) : Statement (.xor d a b) := by
  intro h w hw
  clear h
  have hF : Fits [(10, 11), (5, b.toNat), (5, a.toNat), (5, d.toNat), (7, 1)] := ⟨of_decide_eq_true rfl, b.isLt, a.isLt, d.isLt, of_decide_eq_true rfl, trivial⟩
  have hE : 0x200000b + d.toNat * 1048576 + a.toNat * 32768 + b.toNat * 1024 = packed [(10, 11), (5, b.toNat), (5, a.toNat), (5, d.toNat), (7, 1)] := by
    simp only [packed]
    clear hF hw; omega
  have hW := packed_word _ rfl hF hE hw
  clear hw
  have e0 := fld_eq (lo := 20) d hW (packed_at _ hF 3)
  have e1 := fld_eq (lo := 15) a hW (packed_at _ hF 2)
  have e2 := fld_eq (lo := 10) b hW (packed_at _ hF 1)
  have hr : scalarRow w = some { instr := some (.xor (fld w 20 5) (fld w 15 5) (fld w 10 5)) } := by
    unfold scalarRow
    rw [fld_num (lo := 25) (len := 7) 1 hW (packed_at _ hF 4)]
    show aluRow w = _
    unfold aluRow
    rw [fld_num (lo := 0) (len := 10) 11 hW (packed_at _ hF 0)]
    first | done | rfl
  change decodeWord .seq w = _
  refine decode_ok (p := .seq) (hW.trans hE.symm) (by omega) hr ?_
  refine check_ok rfl rfl rfl rfl rfl rfl ?_
  · simp only [e0, e1, e2]

theorem andn (d : BitVec 5) (a : BitVec 5) (b : BitVec 5) : Statement (.andn d a b) := by
  intro h w hw
  clear h
  have hF : Fits [(10, 12), (5, b.toNat), (5, a.toNat), (5, d.toNat), (7, 1)] := ⟨of_decide_eq_true rfl, b.isLt, a.isLt, d.isLt, of_decide_eq_true rfl, trivial⟩
  have hE : 0x200000c + d.toNat * 1048576 + a.toNat * 32768 + b.toNat * 1024 = packed [(10, 12), (5, b.toNat), (5, a.toNat), (5, d.toNat), (7, 1)] := by
    simp only [packed]
    clear hF hw; omega
  have hW := packed_word _ rfl hF hE hw
  clear hw
  have e0 := fld_eq (lo := 20) d hW (packed_at _ hF 3)
  have e1 := fld_eq (lo := 15) a hW (packed_at _ hF 2)
  have e2 := fld_eq (lo := 10) b hW (packed_at _ hF 1)
  have hr : scalarRow w = some { instr := some (.andn (fld w 20 5) (fld w 15 5) (fld w 10 5)) } := by
    unfold scalarRow
    rw [fld_num (lo := 25) (len := 7) 1 hW (packed_at _ hF 4)]
    show aluRow w = _
    unfold aluRow
    rw [fld_num (lo := 0) (len := 10) 12 hW (packed_at _ hF 0)]
    first | done | rfl
  change decodeWord .seq w = _
  refine decode_ok (p := .seq) (hW.trans hE.symm) (by omega) hr ?_
  refine check_ok rfl rfl rfl rfl rfl rfl ?_
  · simp only [e0, e1, e2]

theorem shl (d : BitVec 5) (a : BitVec 5) (b : BitVec 5) : Statement (.shl d a b) := by
  intro h w hw
  clear h
  have hF : Fits [(10, 13), (5, b.toNat), (5, a.toNat), (5, d.toNat), (7, 1)] := ⟨of_decide_eq_true rfl, b.isLt, a.isLt, d.isLt, of_decide_eq_true rfl, trivial⟩
  have hE : 0x200000d + d.toNat * 1048576 + a.toNat * 32768 + b.toNat * 1024 = packed [(10, 13), (5, b.toNat), (5, a.toNat), (5, d.toNat), (7, 1)] := by
    simp only [packed]
    clear hF hw; omega
  have hW := packed_word _ rfl hF hE hw
  clear hw
  have e0 := fld_eq (lo := 20) d hW (packed_at _ hF 3)
  have e1 := fld_eq (lo := 15) a hW (packed_at _ hF 2)
  have e2 := fld_eq (lo := 10) b hW (packed_at _ hF 1)
  have hr : scalarRow w = some { instr := some (.shl (fld w 20 5) (fld w 15 5) (fld w 10 5)) } := by
    unfold scalarRow
    rw [fld_num (lo := 25) (len := 7) 1 hW (packed_at _ hF 4)]
    show aluRow w = _
    unfold aluRow
    rw [fld_num (lo := 0) (len := 10) 13 hW (packed_at _ hF 0)]
    first | done | rfl
  change decodeWord .seq w = _
  refine decode_ok (p := .seq) (hW.trans hE.symm) (by omega) hr ?_
  refine check_ok rfl rfl rfl rfl rfl rfl ?_
  · simp only [e0, e1, e2]

theorem shr (d : BitVec 5) (a : BitVec 5) (b : BitVec 5) : Statement (.shr d a b) := by
  intro h w hw
  clear h
  have hF : Fits [(10, 14), (5, b.toNat), (5, a.toNat), (5, d.toNat), (7, 1)] := ⟨of_decide_eq_true rfl, b.isLt, a.isLt, d.isLt, of_decide_eq_true rfl, trivial⟩
  have hE : 0x200000e + d.toNat * 1048576 + a.toNat * 32768 + b.toNat * 1024 = packed [(10, 14), (5, b.toNat), (5, a.toNat), (5, d.toNat), (7, 1)] := by
    simp only [packed]
    clear hF hw; omega
  have hW := packed_word _ rfl hF hE hw
  clear hw
  have e0 := fld_eq (lo := 20) d hW (packed_at _ hF 3)
  have e1 := fld_eq (lo := 15) a hW (packed_at _ hF 2)
  have e2 := fld_eq (lo := 10) b hW (packed_at _ hF 1)
  have hr : scalarRow w = some { instr := some (.shr (fld w 20 5) (fld w 15 5) (fld w 10 5)) } := by
    unfold scalarRow
    rw [fld_num (lo := 25) (len := 7) 1 hW (packed_at _ hF 4)]
    show aluRow w = _
    unfold aluRow
    rw [fld_num (lo := 0) (len := 10) 14 hW (packed_at _ hF 0)]
    first | done | rfl
  change decodeWord .seq w = _
  refine decode_ok (p := .seq) (hW.trans hE.symm) (by omega) hr ?_
  refine check_ok rfl rfl rfl rfl rfl rfl ?_
  · simp only [e0, e1, e2]

theorem sar (d : BitVec 5) (a : BitVec 5) (b : BitVec 5) : Statement (.sar d a b) := by
  intro h w hw
  clear h
  have hF : Fits [(10, 15), (5, b.toNat), (5, a.toNat), (5, d.toNat), (7, 1)] := ⟨of_decide_eq_true rfl, b.isLt, a.isLt, d.isLt, of_decide_eq_true rfl, trivial⟩
  have hE : 0x200000f + d.toNat * 1048576 + a.toNat * 32768 + b.toNat * 1024 = packed [(10, 15), (5, b.toNat), (5, a.toNat), (5, d.toNat), (7, 1)] := by
    simp only [packed]
    clear hF hw; omega
  have hW := packed_word _ rfl hF hE hw
  clear hw
  have e0 := fld_eq (lo := 20) d hW (packed_at _ hF 3)
  have e1 := fld_eq (lo := 15) a hW (packed_at _ hF 2)
  have e2 := fld_eq (lo := 10) b hW (packed_at _ hF 1)
  have hr : scalarRow w = some { instr := some (.sar (fld w 20 5) (fld w 15 5) (fld w 10 5)) } := by
    unfold scalarRow
    rw [fld_num (lo := 25) (len := 7) 1 hW (packed_at _ hF 4)]
    show aluRow w = _
    unfold aluRow
    rw [fld_num (lo := 0) (len := 10) 15 hW (packed_at _ hF 0)]
    first | done | rfl
  change decodeWord .seq w = _
  refine decode_ok (p := .seq) (hW.trans hE.symm) (by omega) hr ?_
  refine check_ok rfl rfl rfl rfl rfl rfl ?_
  · simp only [e0, e1, e2]

theorem rol (d : BitVec 5) (a : BitVec 5) (b : BitVec 5) : Statement (.rol d a b) := by
  intro h w hw
  clear h
  have hF : Fits [(10, 16), (5, b.toNat), (5, a.toNat), (5, d.toNat), (7, 1)] := ⟨of_decide_eq_true rfl, b.isLt, a.isLt, d.isLt, of_decide_eq_true rfl, trivial⟩
  have hE : 0x2000010 + d.toNat * 1048576 + a.toNat * 32768 + b.toNat * 1024 = packed [(10, 16), (5, b.toNat), (5, a.toNat), (5, d.toNat), (7, 1)] := by
    simp only [packed]
    clear hF hw; omega
  have hW := packed_word _ rfl hF hE hw
  clear hw
  have e0 := fld_eq (lo := 20) d hW (packed_at _ hF 3)
  have e1 := fld_eq (lo := 15) a hW (packed_at _ hF 2)
  have e2 := fld_eq (lo := 10) b hW (packed_at _ hF 1)
  have hr : scalarRow w = some { instr := some (.rol (fld w 20 5) (fld w 15 5) (fld w 10 5)) } := by
    unfold scalarRow
    rw [fld_num (lo := 25) (len := 7) 1 hW (packed_at _ hF 4)]
    show aluRow w = _
    unfold aluRow
    rw [fld_num (lo := 0) (len := 10) 16 hW (packed_at _ hF 0)]
    first | done | rfl
  change decodeWord .seq w = _
  refine decode_ok (p := .seq) (hW.trans hE.symm) (by omega) hr ?_
  refine check_ok rfl rfl rfl rfl rfl rfl ?_
  · simp only [e0, e1, e2]

theorem min (d : BitVec 5) (a : BitVec 5) (b : BitVec 5) : Statement (.min d a b) := by
  intro h w hw
  clear h
  have hF : Fits [(10, 17), (5, b.toNat), (5, a.toNat), (5, d.toNat), (7, 1)] := ⟨of_decide_eq_true rfl, b.isLt, a.isLt, d.isLt, of_decide_eq_true rfl, trivial⟩
  have hE : 0x2000011 + d.toNat * 1048576 + a.toNat * 32768 + b.toNat * 1024 = packed [(10, 17), (5, b.toNat), (5, a.toNat), (5, d.toNat), (7, 1)] := by
    simp only [packed]
    clear hF hw; omega
  have hW := packed_word _ rfl hF hE hw
  clear hw
  have e0 := fld_eq (lo := 20) d hW (packed_at _ hF 3)
  have e1 := fld_eq (lo := 15) a hW (packed_at _ hF 2)
  have e2 := fld_eq (lo := 10) b hW (packed_at _ hF 1)
  have hr : scalarRow w = some { instr := some (.min (fld w 20 5) (fld w 15 5) (fld w 10 5)) } := by
    unfold scalarRow
    rw [fld_num (lo := 25) (len := 7) 1 hW (packed_at _ hF 4)]
    show aluRow w = _
    unfold aluRow
    rw [fld_num (lo := 0) (len := 10) 17 hW (packed_at _ hF 0)]
    first | done | rfl
  change decodeWord .seq w = _
  refine decode_ok (p := .seq) (hW.trans hE.symm) (by omega) hr ?_
  refine check_ok rfl rfl rfl rfl rfl rfl ?_
  · simp only [e0, e1, e2]

theorem max (d : BitVec 5) (a : BitVec 5) (b : BitVec 5) : Statement (.max d a b) := by
  intro h w hw
  clear h
  have hF : Fits [(10, 18), (5, b.toNat), (5, a.toNat), (5, d.toNat), (7, 1)] := ⟨of_decide_eq_true rfl, b.isLt, a.isLt, d.isLt, of_decide_eq_true rfl, trivial⟩
  have hE : 0x2000012 + d.toNat * 1048576 + a.toNat * 32768 + b.toNat * 1024 = packed [(10, 18), (5, b.toNat), (5, a.toNat), (5, d.toNat), (7, 1)] := by
    simp only [packed]
    clear hF hw; omega
  have hW := packed_word _ rfl hF hE hw
  clear hw
  have e0 := fld_eq (lo := 20) d hW (packed_at _ hF 3)
  have e1 := fld_eq (lo := 15) a hW (packed_at _ hF 2)
  have e2 := fld_eq (lo := 10) b hW (packed_at _ hF 1)
  have hr : scalarRow w = some { instr := some (.max (fld w 20 5) (fld w 15 5) (fld w 10 5)) } := by
    unfold scalarRow
    rw [fld_num (lo := 25) (len := 7) 1 hW (packed_at _ hF 4)]
    show aluRow w = _
    unfold aluRow
    rw [fld_num (lo := 0) (len := 10) 18 hW (packed_at _ hF 0)]
    first | done | rfl
  change decodeWord .seq w = _
  refine decode_ok (p := .seq) (hW.trans hE.symm) (by omega) hr ?_
  refine check_ok rfl rfl rfl rfl rfl rfl ?_
  · simp only [e0, e1, e2]

theorem minw (d : BitVec 5) (a : BitVec 5) (b : BitVec 5) : Statement (.minw d a b) := by
  intro h w hw
  clear h
  have hF : Fits [(10, 19), (5, b.toNat), (5, a.toNat), (5, d.toNat), (7, 1)] := ⟨of_decide_eq_true rfl, b.isLt, a.isLt, d.isLt, of_decide_eq_true rfl, trivial⟩
  have hE : 0x2000013 + d.toNat * 1048576 + a.toNat * 32768 + b.toNat * 1024 = packed [(10, 19), (5, b.toNat), (5, a.toNat), (5, d.toNat), (7, 1)] := by
    simp only [packed]
    clear hF hw; omega
  have hW := packed_word _ rfl hF hE hw
  clear hw
  have e0 := fld_eq (lo := 20) d hW (packed_at _ hF 3)
  have e1 := fld_eq (lo := 15) a hW (packed_at _ hF 2)
  have e2 := fld_eq (lo := 10) b hW (packed_at _ hF 1)
  have hr : scalarRow w = some { instr := some (.minw (fld w 20 5) (fld w 15 5) (fld w 10 5)) } := by
    unfold scalarRow
    rw [fld_num (lo := 25) (len := 7) 1 hW (packed_at _ hF 4)]
    show aluRow w = _
    unfold aluRow
    rw [fld_num (lo := 0) (len := 10) 19 hW (packed_at _ hF 0)]
    first | done | rfl
  change decodeWord .seq w = _
  refine decode_ok (p := .seq) (hW.trans hE.symm) (by omega) hr ?_
  refine check_ok rfl rfl rfl rfl rfl rfl ?_
  · simp only [e0, e1, e2]

theorem maxw (d : BitVec 5) (a : BitVec 5) (b : BitVec 5) : Statement (.maxw d a b) := by
  intro h w hw
  clear h
  have hF : Fits [(10, 20), (5, b.toNat), (5, a.toNat), (5, d.toNat), (7, 1)] := ⟨of_decide_eq_true rfl, b.isLt, a.isLt, d.isLt, of_decide_eq_true rfl, trivial⟩
  have hE : 0x2000014 + d.toNat * 1048576 + a.toNat * 32768 + b.toNat * 1024 = packed [(10, 20), (5, b.toNat), (5, a.toNat), (5, d.toNat), (7, 1)] := by
    simp only [packed]
    clear hF hw; omega
  have hW := packed_word _ rfl hF hE hw
  clear hw
  have e0 := fld_eq (lo := 20) d hW (packed_at _ hF 3)
  have e1 := fld_eq (lo := 15) a hW (packed_at _ hF 2)
  have e2 := fld_eq (lo := 10) b hW (packed_at _ hF 1)
  have hr : scalarRow w = some { instr := some (.maxw (fld w 20 5) (fld w 15 5) (fld w 10 5)) } := by
    unfold scalarRow
    rw [fld_num (lo := 25) (len := 7) 1 hW (packed_at _ hF 4)]
    show aluRow w = _
    unfold aluRow
    rw [fld_num (lo := 0) (len := 10) 20 hW (packed_at _ hF 0)]
    first | done | rfl
  change decodeWord .seq w = _
  refine decode_ok (p := .seq) (hW.trans hE.symm) (by omega) hr ?_
  refine check_ok rfl rfl rfl rfl rfl rfl ?_
  · simp only [e0, e1, e2]

theorem slt (d : BitVec 5) (a : BitVec 5) (b : BitVec 5) : Statement (.slt d a b) := by
  intro h w hw
  clear h
  have hF : Fits [(10, 21), (5, b.toNat), (5, a.toNat), (5, d.toNat), (7, 1)] := ⟨of_decide_eq_true rfl, b.isLt, a.isLt, d.isLt, of_decide_eq_true rfl, trivial⟩
  have hE : 0x2000015 + d.toNat * 1048576 + a.toNat * 32768 + b.toNat * 1024 = packed [(10, 21), (5, b.toNat), (5, a.toNat), (5, d.toNat), (7, 1)] := by
    simp only [packed]
    clear hF hw; omega
  have hW := packed_word _ rfl hF hE hw
  clear hw
  have e0 := fld_eq (lo := 20) d hW (packed_at _ hF 3)
  have e1 := fld_eq (lo := 15) a hW (packed_at _ hF 2)
  have e2 := fld_eq (lo := 10) b hW (packed_at _ hF 1)
  have hr : scalarRow w = some { instr := some (.slt (fld w 20 5) (fld w 15 5) (fld w 10 5)) } := by
    unfold scalarRow
    rw [fld_num (lo := 25) (len := 7) 1 hW (packed_at _ hF 4)]
    show aluRow w = _
    unfold aluRow
    rw [fld_num (lo := 0) (len := 10) 21 hW (packed_at _ hF 0)]
    first | done | rfl
  change decodeWord .seq w = _
  refine decode_ok (p := .seq) (hW.trans hE.symm) (by omega) hr ?_
  refine check_ok rfl rfl rfl rfl rfl rfl ?_
  · simp only [e0, e1, e2]

theorem sltw (d : BitVec 5) (a : BitVec 5) (b : BitVec 5) : Statement (.sltw d a b) := by
  intro h w hw
  clear h
  have hF : Fits [(10, 22), (5, b.toNat), (5, a.toNat), (5, d.toNat), (7, 1)] := ⟨of_decide_eq_true rfl, b.isLt, a.isLt, d.isLt, of_decide_eq_true rfl, trivial⟩
  have hE : 0x2000016 + d.toNat * 1048576 + a.toNat * 32768 + b.toNat * 1024 = packed [(10, 22), (5, b.toNat), (5, a.toNat), (5, d.toNat), (7, 1)] := by
    simp only [packed]
    clear hF hw; omega
  have hW := packed_word _ rfl hF hE hw
  clear hw
  have e0 := fld_eq (lo := 20) d hW (packed_at _ hF 3)
  have e1 := fld_eq (lo := 15) a hW (packed_at _ hF 2)
  have e2 := fld_eq (lo := 10) b hW (packed_at _ hF 1)
  have hr : scalarRow w = some { instr := some (.sltw (fld w 20 5) (fld w 15 5) (fld w 10 5)) } := by
    unfold scalarRow
    rw [fld_num (lo := 25) (len := 7) 1 hW (packed_at _ hF 4)]
    show aluRow w = _
    unfold aluRow
    rw [fld_num (lo := 0) (len := 10) 22 hW (packed_at _ hF 0)]
    first | done | rfl
  change decodeWord .seq w = _
  refine decode_ok (p := .seq) (hW.trans hE.symm) (by omega) hr ?_
  refine check_ok rfl rfl rfl rfl rfl rfl ?_
  · simp only [e0, e1, e2]

theorem clz (d : BitVec 5) (a : BitVec 5) : Statement (.clz d a) := by
  intro h w hw
  clear h
  have hF : Fits [(10, 23), (5, 0), (5, a.toNat), (5, d.toNat), (7, 1)] := ⟨of_decide_eq_true rfl, of_decide_eq_true rfl, a.isLt, d.isLt, of_decide_eq_true rfl, trivial⟩
  have hE : 0x2000017 + d.toNat * 1048576 + a.toNat * 32768 = packed [(10, 23), (5, 0), (5, a.toNat), (5, d.toNat), (7, 1)] := by
    simp only [packed]
    clear hF hw; omega
  have hW := packed_word _ rfl hF hE hw
  clear hw
  have e0 := fld_eq (lo := 20) d hW (packed_at _ hF 3)
  have e1 := fld_eq (lo := 15) a hW (packed_at _ hF 2)
  have z2 := nz_false (lo := 10) (len := 5) hW (packed_at _ hF 1)
  have hr : scalarRow w = some { instr := some (.clz (fld w 20 5) (fld w 15 5)), unused := nz w 10 5 } := by
    unfold scalarRow
    rw [fld_num (lo := 25) (len := 7) 1 hW (packed_at _ hF 4)]
    show aluRow w = _
    unfold aluRow
    rw [fld_num (lo := 0) (len := 10) 23 hW (packed_at _ hF 0)]
    first | done | rfl
  change decodeWord .seq w = _
  refine decode_ok (p := .seq) (hW.trans hE.symm) (by omega) hr ?_
  refine check_ok rfl rfl ?_ rfl rfl rfl ?_
  · simp [e0, e1, z2]
  · simp only [e0, e1, z2]

theorem ctz (d : BitVec 5) (a : BitVec 5) : Statement (.ctz d a) := by
  intro h w hw
  clear h
  have hF : Fits [(10, 24), (5, 0), (5, a.toNat), (5, d.toNat), (7, 1)] := ⟨of_decide_eq_true rfl, of_decide_eq_true rfl, a.isLt, d.isLt, of_decide_eq_true rfl, trivial⟩
  have hE : 0x2000018 + d.toNat * 1048576 + a.toNat * 32768 = packed [(10, 24), (5, 0), (5, a.toNat), (5, d.toNat), (7, 1)] := by
    simp only [packed]
    clear hF hw; omega
  have hW := packed_word _ rfl hF hE hw
  clear hw
  have e0 := fld_eq (lo := 20) d hW (packed_at _ hF 3)
  have e1 := fld_eq (lo := 15) a hW (packed_at _ hF 2)
  have z2 := nz_false (lo := 10) (len := 5) hW (packed_at _ hF 1)
  have hr : scalarRow w = some { instr := some (.ctz (fld w 20 5) (fld w 15 5)), unused := nz w 10 5 } := by
    unfold scalarRow
    rw [fld_num (lo := 25) (len := 7) 1 hW (packed_at _ hF 4)]
    show aluRow w = _
    unfold aluRow
    rw [fld_num (lo := 0) (len := 10) 24 hW (packed_at _ hF 0)]
    first | done | rfl
  change decodeWord .seq w = _
  refine decode_ok (p := .seq) (hW.trans hE.symm) (by omega) hr ?_
  refine check_ok rfl rfl ?_ rfl rfl rfl ?_
  · simp [e0, e1, z2]
  · simp only [e0, e1, z2]

theorem popc (d : BitVec 5) (a : BitVec 5) : Statement (.popc d a) := by
  intro h w hw
  clear h
  have hF : Fits [(10, 25), (5, 0), (5, a.toNat), (5, d.toNat), (7, 1)] := ⟨of_decide_eq_true rfl, of_decide_eq_true rfl, a.isLt, d.isLt, of_decide_eq_true rfl, trivial⟩
  have hE : 0x2000019 + d.toNat * 1048576 + a.toNat * 32768 = packed [(10, 25), (5, 0), (5, a.toNat), (5, d.toNat), (7, 1)] := by
    simp only [packed]
    clear hF hw; omega
  have hW := packed_word _ rfl hF hE hw
  clear hw
  have e0 := fld_eq (lo := 20) d hW (packed_at _ hF 3)
  have e1 := fld_eq (lo := 15) a hW (packed_at _ hF 2)
  have z2 := nz_false (lo := 10) (len := 5) hW (packed_at _ hF 1)
  have hr : scalarRow w = some { instr := some (.popc (fld w 20 5) (fld w 15 5)), unused := nz w 10 5 } := by
    unfold scalarRow
    rw [fld_num (lo := 25) (len := 7) 1 hW (packed_at _ hF 4)]
    show aluRow w = _
    unfold aluRow
    rw [fld_num (lo := 0) (len := 10) 25 hW (packed_at _ hF 0)]
    first | done | rfl
  change decodeWord .seq w = _
  refine decode_ok (p := .seq) (hW.trans hE.symm) (by omega) hr ?_
  refine check_ok rfl rfl ?_ rfl rfl rfl ?_
  · simp [e0, e1, z2]
  · simp only [e0, e1, z2]

theorem addi (d : BitVec 5) (a : BitVec 5) (im : BitVec 15) : Statement (.addi d a im) := by
  intro h w hw
  clear h
  have hF : Fits [(15, im.toNat), (5, a.toNat), (5, d.toNat), (7, 2)] := ⟨im.isLt, a.isLt, d.isLt, of_decide_eq_true rfl, trivial⟩
  have hE : 0x4000000 + d.toNat * 1048576 + a.toNat * 32768 + im.toNat = packed [(15, im.toNat), (5, a.toNat), (5, d.toNat), (7, 2)] := by
    simp only [packed]
    clear hF hw; omega
  have hW := packed_word _ rfl hF hE hw
  clear hw
  have e0 := fld_eq (lo := 20) d hW (packed_at _ hF 2)
  have e1 := fld_eq (lo := 15) a hW (packed_at _ hF 1)
  have e2 := fld_eq (lo := 0) im hW (packed_at _ hF 0)
  have hr : scalarRow w = some { instr := some (.addi (fld w 20 5) (fld w 15 5) (fld w 0 15)) } := by
    unfold scalarRow
    rw [fld_num (lo := 25) (len := 7) 2 hW (packed_at _ hF 3)]
    first | done | rfl
  change decodeWord .seq w = _
  refine decode_ok (p := .seq) (hW.trans hE.symm) (by omega) hr ?_
  refine check_ok rfl rfl rfl rfl rfl rfl ?_
  · simp only [e0, e1, e2]

theorem andi (d : BitVec 5) (a : BitVec 5) (im : BitVec 15) : Statement (.andi d a im) := by
  intro h w hw
  clear h
  have hF : Fits [(15, im.toNat), (5, a.toNat), (5, d.toNat), (7, 3)] := ⟨im.isLt, a.isLt, d.isLt, of_decide_eq_true rfl, trivial⟩
  have hE : 0x6000000 + d.toNat * 1048576 + a.toNat * 32768 + im.toNat = packed [(15, im.toNat), (5, a.toNat), (5, d.toNat), (7, 3)] := by
    simp only [packed]
    clear hF hw; omega
  have hW := packed_word _ rfl hF hE hw
  clear hw
  have e0 := fld_eq (lo := 20) d hW (packed_at _ hF 2)
  have e1 := fld_eq (lo := 15) a hW (packed_at _ hF 1)
  have e2 := fld_eq (lo := 0) im hW (packed_at _ hF 0)
  have hr : scalarRow w = some { instr := some (.andi (fld w 20 5) (fld w 15 5) (fld w 0 15)) } := by
    unfold scalarRow
    rw [fld_num (lo := 25) (len := 7) 3 hW (packed_at _ hF 3)]
    first | done | rfl
  change decodeWord .seq w = _
  refine decode_ok (p := .seq) (hW.trans hE.symm) (by omega) hr ?_
  refine check_ok rfl rfl rfl rfl rfl rfl ?_
  · simp only [e0, e1, e2]

theorem ori (d : BitVec 5) (a : BitVec 5) (im : BitVec 15) : Statement (.ori d a im) := by
  intro h w hw
  clear h
  have hF : Fits [(15, im.toNat), (5, a.toNat), (5, d.toNat), (7, 4)] := ⟨im.isLt, a.isLt, d.isLt, of_decide_eq_true rfl, trivial⟩
  have hE : 0x8000000 + d.toNat * 1048576 + a.toNat * 32768 + im.toNat = packed [(15, im.toNat), (5, a.toNat), (5, d.toNat), (7, 4)] := by
    simp only [packed]
    clear hF hw; omega
  have hW := packed_word _ rfl hF hE hw
  clear hw
  have e0 := fld_eq (lo := 20) d hW (packed_at _ hF 2)
  have e1 := fld_eq (lo := 15) a hW (packed_at _ hF 1)
  have e2 := fld_eq (lo := 0) im hW (packed_at _ hF 0)
  have hr : scalarRow w = some { instr := some (.ori (fld w 20 5) (fld w 15 5) (fld w 0 15)) } := by
    unfold scalarRow
    rw [fld_num (lo := 25) (len := 7) 4 hW (packed_at _ hF 3)]
    first | done | rfl
  change decodeWord .seq w = _
  refine decode_ok (p := .seq) (hW.trans hE.symm) (by omega) hr ?_
  refine check_ok rfl rfl rfl rfl rfl rfl ?_
  · simp only [e0, e1, e2]

theorem xori (d : BitVec 5) (a : BitVec 5) (im : BitVec 15) : Statement (.xori d a im) := by
  intro h w hw
  clear h
  have hF : Fits [(15, im.toNat), (5, a.toNat), (5, d.toNat), (7, 5)] := ⟨im.isLt, a.isLt, d.isLt, of_decide_eq_true rfl, trivial⟩
  have hE : 0xa000000 + d.toNat * 1048576 + a.toNat * 32768 + im.toNat = packed [(15, im.toNat), (5, a.toNat), (5, d.toNat), (7, 5)] := by
    simp only [packed]
    clear hF hw; omega
  have hW := packed_word _ rfl hF hE hw
  clear hw
  have e0 := fld_eq (lo := 20) d hW (packed_at _ hF 2)
  have e1 := fld_eq (lo := 15) a hW (packed_at _ hF 1)
  have e2 := fld_eq (lo := 0) im hW (packed_at _ hF 0)
  have hr : scalarRow w = some { instr := some (.xori (fld w 20 5) (fld w 15 5) (fld w 0 15)) } := by
    unfold scalarRow
    rw [fld_num (lo := 25) (len := 7) 5 hW (packed_at _ hF 3)]
    first | done | rfl
  change decodeWord .seq w = _
  refine decode_ok (p := .seq) (hW.trans hE.symm) (by omega) hr ?_
  refine check_ok rfl rfl rfl rfl rfl rfl ?_
  · simp only [e0, e1, e2]

theorem shli (d : BitVec 5) (a : BitVec 5) (im : BitVec 6) : Statement (.shli d a im) := by
  intro h w hw
  clear h
  have hF : Fits [(6, im.toNat), (9, 0), (5, a.toNat), (5, d.toNat), (7, 6)] := ⟨im.isLt, of_decide_eq_true rfl, a.isLt, d.isLt, of_decide_eq_true rfl, trivial⟩
  have hE : 0xc000000 + d.toNat * 1048576 + a.toNat * 32768 + im.toNat = packed [(6, im.toNat), (9, 0), (5, a.toNat), (5, d.toNat), (7, 6)] := by
    simp only [packed]
    clear hF hw; omega
  have hW := packed_word _ rfl hF hE hw
  clear hw
  have e0 := fld_eq (lo := 20) d hW (packed_at _ hF 3)
  have e1 := fld_eq (lo := 15) a hW (packed_at _ hF 2)
  have e2 := fld_eq (lo := 0) im hW (packed_at _ hF 0)
  have z3 := nz_false (lo := 6) (len := 9) hW (packed_at _ hF 1)
  have hr : scalarRow w = some { instr := some (.shli (fld w 20 5) (fld w 15 5) (fld w 0 6)), unused := nz w 6 9 } := by
    unfold scalarRow
    rw [fld_num (lo := 25) (len := 7) 6 hW (packed_at _ hF 4)]
    first | done | rfl
  change decodeWord .seq w = _
  refine decode_ok (p := .seq) (hW.trans hE.symm) (by omega) hr ?_
  refine check_ok rfl rfl ?_ rfl rfl rfl ?_
  · simp [e0, e1, e2, z3]
  · simp only [e0, e1, e2, z3]

theorem shri (d : BitVec 5) (a : BitVec 5) (im : BitVec 6) : Statement (.shri d a im) := by
  intro h w hw
  clear h
  have hF : Fits [(6, im.toNat), (9, 0), (5, a.toNat), (5, d.toNat), (7, 7)] := ⟨im.isLt, of_decide_eq_true rfl, a.isLt, d.isLt, of_decide_eq_true rfl, trivial⟩
  have hE : 0xe000000 + d.toNat * 1048576 + a.toNat * 32768 + im.toNat = packed [(6, im.toNat), (9, 0), (5, a.toNat), (5, d.toNat), (7, 7)] := by
    simp only [packed]
    clear hF hw; omega
  have hW := packed_word _ rfl hF hE hw
  clear hw
  have e0 := fld_eq (lo := 20) d hW (packed_at _ hF 3)
  have e1 := fld_eq (lo := 15) a hW (packed_at _ hF 2)
  have e2 := fld_eq (lo := 0) im hW (packed_at _ hF 0)
  have z3 := nz_false (lo := 6) (len := 9) hW (packed_at _ hF 1)
  have hr : scalarRow w = some { instr := some (.shri (fld w 20 5) (fld w 15 5) (fld w 0 6)), unused := nz w 6 9 } := by
    unfold scalarRow
    rw [fld_num (lo := 25) (len := 7) 7 hW (packed_at _ hF 4)]
    first | done | rfl
  change decodeWord .seq w = _
  refine decode_ok (p := .seq) (hW.trans hE.symm) (by omega) hr ?_
  refine check_ok rfl rfl ?_ rfl rfl rfl ?_
  · simp [e0, e1, e2, z3]
  · simp only [e0, e1, e2, z3]

theorem sari (d : BitVec 5) (a : BitVec 5) (im : BitVec 6) : Statement (.sari d a im) := by
  intro h w hw
  clear h
  have hF : Fits [(6, im.toNat), (9, 0), (5, a.toNat), (5, d.toNat), (7, 8)] := ⟨im.isLt, of_decide_eq_true rfl, a.isLt, d.isLt, of_decide_eq_true rfl, trivial⟩
  have hE : 0x10000000 + d.toNat * 1048576 + a.toNat * 32768 + im.toNat = packed [(6, im.toNat), (9, 0), (5, a.toNat), (5, d.toNat), (7, 8)] := by
    simp only [packed]
    clear hF hw; omega
  have hW := packed_word _ rfl hF hE hw
  clear hw
  have e0 := fld_eq (lo := 20) d hW (packed_at _ hF 3)
  have e1 := fld_eq (lo := 15) a hW (packed_at _ hF 2)
  have e2 := fld_eq (lo := 0) im hW (packed_at _ hF 0)
  have z3 := nz_false (lo := 6) (len := 9) hW (packed_at _ hF 1)
  have hr : scalarRow w = some { instr := some (.sari (fld w 20 5) (fld w 15 5) (fld w 0 6)), unused := nz w 6 9 } := by
    unfold scalarRow
    rw [fld_num (lo := 25) (len := 7) 8 hW (packed_at _ hF 4)]
    first | done | rfl
  change decodeWord .seq w = _
  refine decode_ok (p := .seq) (hW.trans hE.symm) (by omega) hr ?_
  refine check_ok rfl rfl ?_ rfl rfl rfl ?_
  · simp [e0, e1, e2, z3]
  · simp only [e0, e1, e2, z3]

theorem slti (d : BitVec 5) (a : BitVec 5) (im : BitVec 15) : Statement (.slti d a im) := by
  intro h w hw
  clear h
  have hF : Fits [(15, im.toNat), (5, a.toNat), (5, d.toNat), (7, 9)] := ⟨im.isLt, a.isLt, d.isLt, of_decide_eq_true rfl, trivial⟩
  have hE : 0x12000000 + d.toNat * 1048576 + a.toNat * 32768 + im.toNat = packed [(15, im.toNat), (5, a.toNat), (5, d.toNat), (7, 9)] := by
    simp only [packed]
    clear hF hw; omega
  have hW := packed_word _ rfl hF hE hw
  clear hw
  have e0 := fld_eq (lo := 20) d hW (packed_at _ hF 2)
  have e1 := fld_eq (lo := 15) a hW (packed_at _ hF 1)
  have e2 := fld_eq (lo := 0) im hW (packed_at _ hF 0)
  have hr : scalarRow w = some { instr := some (.slti (fld w 20 5) (fld w 15 5) (fld w 0 15)) } := by
    unfold scalarRow
    rw [fld_num (lo := 25) (len := 7) 9 hW (packed_at _ hF 3)]
    first | done | rfl
  change decodeWord .seq w = _
  refine decode_ok (p := .seq) (hW.trans hE.symm) (by omega) hr ?_
  refine check_ok rfl rfl rfl rfl rfl rfl ?_
  · simp only [e0, e1, e2]

theorem lui (d : BitVec 5) (im : BitVec 20) : Statement (.lui d im) := by
  intro h w hw
  clear h
  have hF : Fits [(20, im.toNat), (5, d.toNat), (7, 10)] := ⟨im.isLt, d.isLt, of_decide_eq_true rfl, trivial⟩
  have hE : 0x14000000 + d.toNat * 1048576 + im.toNat = packed [(20, im.toNat), (5, d.toNat), (7, 10)] := by
    simp only [packed]
    clear hF hw; omega
  have hW := packed_word _ rfl hF hE hw
  clear hw
  have e0 := fld_eq (lo := 20) d hW (packed_at _ hF 1)
  have e1 := fld_eq (lo := 0) im hW (packed_at _ hF 0)
  have hr : scalarRow w = some { instr := some (.lui (fld w 20 5) (fld w 0 20)) } := by
    unfold scalarRow
    rw [fld_num (lo := 25) (len := 7) 10 hW (packed_at _ hF 2)]
    first | done | rfl
  change decodeWord .seq w = _
  refine decode_ok (p := .seq) (hW.trans hE.symm) (by omega) hr ?_
  refine check_ok rfl rfl rfl rfl rfl rfl ?_
  · simp only [e0, e1]

theorem bfx (d : BitVec 5) (a : BitVec 5) (o : BitVec 6) (wx : BitVec 7) : Statement (.bfx d a o wx) := by
  intro h w hw
  change (decide (wx.toNat ≤ 64)) = true at h
  try simp at h
  have hF : Fits [(2, 0), (7, wx.toNat), (6, o.toNat), (5, a.toNat), (5, d.toNat), (7, 11)] := ⟨of_decide_eq_true rfl, wx.isLt, o.isLt, a.isLt, d.isLt, of_decide_eq_true rfl, trivial⟩
  have hE : 0x16000000 + d.toNat * 1048576 + a.toNat * 32768 + o.toNat * 512 + wx.toNat * 4 = packed [(2, 0), (7, wx.toNat), (6, o.toNat), (5, a.toNat), (5, d.toNat), (7, 11)] := by
    simp only [packed]
    clear hF hw; omega
  have hW := packed_word _ rfl hF hE hw
  clear hw
  have e0 := fld_eq (lo := 20) d hW (packed_at _ hF 4)
  have e1 := fld_eq (lo := 15) a hW (packed_at _ hF 3)
  have e2 := fld_eq (lo := 9) o hW (packed_at _ hF 2)
  have e3 := fld_eq (lo := 2) wx hW (packed_at _ hF 1)
  have hr : scalarRow w = some { instr := some (.bfx (fld w 20 5) (fld w 15 5) (fld w 9 6) (fld w 2 7)), range := decide ((fld w 2 7).toNat > 64) } := by
    unfold scalarRow
    rw [fld_num (lo := 25) (len := 7) 11 hW (packed_at _ hF 5)]
    rw [fld_num (lo := 0) (len := 2) 0 hW (packed_at _ hF 0)]
    first | done | rfl
  change decodeWord .seq w = _
  refine decode_ok (p := .seq) (hW.trans hE.symm) (by omega) hr ?_
  refine check_ok rfl rfl rfl ?_ rfl rfl ?_
  · simp [e0, e1, e2, e3, h]
  · simp only [e0, e1, e2, e3]

theorem bfxReg (d : BitVec 5) (a : BitVec 5) (x : BitVec 5) : Statement (.bfxReg d a x) := by
  intro h w hw
  clear h
  have hF : Fits [(2, 1), (7, 0), (5, x.toNat), (1, 0), (5, a.toNat), (5, d.toNat), (7, 11)] := ⟨of_decide_eq_true rfl, of_decide_eq_true rfl, x.isLt, of_decide_eq_true rfl, a.isLt, d.isLt, of_decide_eq_true rfl, trivial⟩
  have hE : 0x16000001 + d.toNat * 1048576 + a.toNat * 32768 + x.toNat * 512 = packed [(2, 1), (7, 0), (5, x.toNat), (1, 0), (5, a.toNat), (5, d.toNat), (7, 11)] := by
    simp only [packed]
    clear hF hw; omega
  have hW := packed_word _ rfl hF hE hw
  clear hw
  have e0 := fld_eq (lo := 20) d hW (packed_at _ hF 5)
  have e1 := fld_eq (lo := 15) a hW (packed_at _ hF 4)
  have e2 := fld_eq (lo := 9) x hW (packed_at _ hF 2)
  have z3 := nz_false (lo := 14) (len := 1) hW (packed_at _ hF 3)
  have z4 := nz_false (lo := 2) (len := 7) hW (packed_at _ hF 1)
  have hr : scalarRow w = some { instr := some (.bfxReg (fld w 20 5) (fld w 15 5) (fld w 9 5)), unused := nz w 2 7 || nz w 14 1 } := by
    unfold scalarRow
    rw [fld_num (lo := 25) (len := 7) 11 hW (packed_at _ hF 6)]
    rw [fld_num (lo := 0) (len := 2) 1 hW (packed_at _ hF 0)]
    first | done | rfl
  change decodeWord .seq w = _
  refine decode_ok (p := .seq) (hW.trans hE.symm) (by omega) hr ?_
  refine check_ok rfl rfl ?_ rfl rfl rfl ?_
  · simp [e0, e1, e2, z3, z4]
  · simp only [e0, e1, e2, z3, z4]

theorem bfxs (d : BitVec 5) (a : BitVec 5) (o : BitVec 6) (wx : BitVec 7) : Statement (.bfxs d a o wx) := by
  intro h w hw
  change (decide (wx.toNat ≤ 64)) = true at h
  try simp at h
  have hF : Fits [(2, 0), (7, wx.toNat), (6, o.toNat), (5, a.toNat), (5, d.toNat), (7, 12)] := ⟨of_decide_eq_true rfl, wx.isLt, o.isLt, a.isLt, d.isLt, of_decide_eq_true rfl, trivial⟩
  have hE : 0x18000000 + d.toNat * 1048576 + a.toNat * 32768 + o.toNat * 512 + wx.toNat * 4 = packed [(2, 0), (7, wx.toNat), (6, o.toNat), (5, a.toNat), (5, d.toNat), (7, 12)] := by
    simp only [packed]
    clear hF hw; omega
  have hW := packed_word _ rfl hF hE hw
  clear hw
  have e0 := fld_eq (lo := 20) d hW (packed_at _ hF 4)
  have e1 := fld_eq (lo := 15) a hW (packed_at _ hF 3)
  have e2 := fld_eq (lo := 9) o hW (packed_at _ hF 2)
  have e3 := fld_eq (lo := 2) wx hW (packed_at _ hF 1)
  have hr : scalarRow w = some { instr := some (.bfxs (fld w 20 5) (fld w 15 5) (fld w 9 6) (fld w 2 7)), range := decide ((fld w 2 7).toNat > 64) } := by
    unfold scalarRow
    rw [fld_num (lo := 25) (len := 7) 12 hW (packed_at _ hF 5)]
    rw [fld_num (lo := 0) (len := 2) 0 hW (packed_at _ hF 0)]
    first | done | rfl
  change decodeWord .seq w = _
  refine decode_ok (p := .seq) (hW.trans hE.symm) (by omega) hr ?_
  refine check_ok rfl rfl rfl ?_ rfl rfl ?_
  · simp [e0, e1, e2, e3, h]
  · simp only [e0, e1, e2, e3]

theorem bfxsReg (d : BitVec 5) (a : BitVec 5) (x : BitVec 5) : Statement (.bfxsReg d a x) := by
  intro h w hw
  clear h
  have hF : Fits [(2, 1), (7, 0), (5, x.toNat), (1, 0), (5, a.toNat), (5, d.toNat), (7, 12)] := ⟨of_decide_eq_true rfl, of_decide_eq_true rfl, x.isLt, of_decide_eq_true rfl, a.isLt, d.isLt, of_decide_eq_true rfl, trivial⟩
  have hE : 0x18000001 + d.toNat * 1048576 + a.toNat * 32768 + x.toNat * 512 = packed [(2, 1), (7, 0), (5, x.toNat), (1, 0), (5, a.toNat), (5, d.toNat), (7, 12)] := by
    simp only [packed]
    clear hF hw; omega
  have hW := packed_word _ rfl hF hE hw
  clear hw
  have e0 := fld_eq (lo := 20) d hW (packed_at _ hF 5)
  have e1 := fld_eq (lo := 15) a hW (packed_at _ hF 4)
  have e2 := fld_eq (lo := 9) x hW (packed_at _ hF 2)
  have z3 := nz_false (lo := 14) (len := 1) hW (packed_at _ hF 3)
  have z4 := nz_false (lo := 2) (len := 7) hW (packed_at _ hF 1)
  have hr : scalarRow w = some { instr := some (.bfxsReg (fld w 20 5) (fld w 15 5) (fld w 9 5)), unused := nz w 2 7 || nz w 14 1 } := by
    unfold scalarRow
    rw [fld_num (lo := 25) (len := 7) 12 hW (packed_at _ hF 6)]
    rw [fld_num (lo := 0) (len := 2) 1 hW (packed_at _ hF 0)]
    first | done | rfl
  change decodeWord .seq w = _
  refine decode_ok (p := .seq) (hW.trans hE.symm) (by omega) hr ?_
  refine check_ok rfl rfl ?_ rfl rfl rfl ?_
  · simp [e0, e1, e2, z3, z4]
  · simp only [e0, e1, e2, z3, z4]

theorem bfi (d : BitVec 5) (a : BitVec 5) (o : BitVec 6) (wx : BitVec 7) : Statement (.bfi d a o wx) := by
  intro h w hw
  change (decide (wx.toNat ≤ 64)) = true at h
  try simp at h
  have hF : Fits [(2, 0), (7, wx.toNat), (6, o.toNat), (5, a.toNat), (5, d.toNat), (7, 13)] := ⟨of_decide_eq_true rfl, wx.isLt, o.isLt, a.isLt, d.isLt, of_decide_eq_true rfl, trivial⟩
  have hE : 0x1a000000 + d.toNat * 1048576 + a.toNat * 32768 + o.toNat * 512 + wx.toNat * 4 = packed [(2, 0), (7, wx.toNat), (6, o.toNat), (5, a.toNat), (5, d.toNat), (7, 13)] := by
    simp only [packed]
    clear hF hw; omega
  have hW := packed_word _ rfl hF hE hw
  clear hw
  have e0 := fld_eq (lo := 20) d hW (packed_at _ hF 4)
  have e1 := fld_eq (lo := 15) a hW (packed_at _ hF 3)
  have e2 := fld_eq (lo := 9) o hW (packed_at _ hF 2)
  have e3 := fld_eq (lo := 2) wx hW (packed_at _ hF 1)
  have hr : scalarRow w = some { instr := some (.bfi (fld w 20 5) (fld w 15 5) (fld w 9 6) (fld w 2 7)), range := decide ((fld w 2 7).toNat > 64) } := by
    unfold scalarRow
    rw [fld_num (lo := 25) (len := 7) 13 hW (packed_at _ hF 5)]
    rw [fld_num (lo := 0) (len := 2) 0 hW (packed_at _ hF 0)]
    first | done | rfl
  change decodeWord .seq w = _
  refine decode_ok (p := .seq) (hW.trans hE.symm) (by omega) hr ?_
  refine check_ok rfl rfl rfl ?_ rfl rfl ?_
  · simp [e0, e1, e2, e3, h]
  · simp only [e0, e1, e2, e3]

theorem bfiReg (d : BitVec 5) (a : BitVec 5) (x : BitVec 5) : Statement (.bfiReg d a x) := by
  intro h w hw
  clear h
  have hF : Fits [(2, 1), (7, 0), (5, x.toNat), (1, 0), (5, a.toNat), (5, d.toNat), (7, 13)] := ⟨of_decide_eq_true rfl, of_decide_eq_true rfl, x.isLt, of_decide_eq_true rfl, a.isLt, d.isLt, of_decide_eq_true rfl, trivial⟩
  have hE : 0x1a000001 + d.toNat * 1048576 + a.toNat * 32768 + x.toNat * 512 = packed [(2, 1), (7, 0), (5, x.toNat), (1, 0), (5, a.toNat), (5, d.toNat), (7, 13)] := by
    simp only [packed]
    clear hF hw; omega
  have hW := packed_word _ rfl hF hE hw
  clear hw
  have e0 := fld_eq (lo := 20) d hW (packed_at _ hF 5)
  have e1 := fld_eq (lo := 15) a hW (packed_at _ hF 4)
  have e2 := fld_eq (lo := 9) x hW (packed_at _ hF 2)
  have z3 := nz_false (lo := 14) (len := 1) hW (packed_at _ hF 3)
  have z4 := nz_false (lo := 2) (len := 7) hW (packed_at _ hF 1)
  have hr : scalarRow w = some { instr := some (.bfiReg (fld w 20 5) (fld w 15 5) (fld w 9 5)), unused := nz w 2 7 || nz w 14 1 } := by
    unfold scalarRow
    rw [fld_num (lo := 25) (len := 7) 13 hW (packed_at _ hF 6)]
    rw [fld_num (lo := 0) (len := 2) 1 hW (packed_at _ hF 0)]
    first | done | rfl
  change decodeWord .seq w = _
  refine decode_ok (p := .seq) (hW.trans hE.symm) (by omega) hr ?_
  refine check_ok rfl rfl ?_ rfl rfl rfl ?_
  · simp [e0, e1, e2, z3, z4]
  · simp only [e0, e1, e2, z3, z4]

theorem beq (a : BitVec 5) (b : BitVec 5) (o : BitVec 15) : Statement (.beq a b o) := by
  intro h w hw
  clear h
  have hF : Fits [(15, o.toNat), (5, b.toNat), (5, a.toNat), (7, 16)] := ⟨o.isLt, b.isLt, a.isLt, of_decide_eq_true rfl, trivial⟩
  have hE : 0x20000000 + a.toNat * 1048576 + b.toNat * 32768 + o.toNat = packed [(15, o.toNat), (5, b.toNat), (5, a.toNat), (7, 16)] := by
    simp only [packed]
    clear hF hw; omega
  have hW := packed_word _ rfl hF hE hw
  clear hw
  have e0 := fld_eq (lo := 20) a hW (packed_at _ hF 2)
  have e1 := fld_eq (lo := 15) b hW (packed_at _ hF 1)
  have e2 := fld_eq (lo := 0) o hW (packed_at _ hF 0)
  have hr : scalarRow w = some { instr := some (.beq (fld w 20 5) (fld w 15 5) (fld w 0 15)) } := by
    unfold scalarRow
    rw [fld_num (lo := 25) (len := 7) 16 hW (packed_at _ hF 3)]
    first | done | rfl
  change decodeWord .seq w = _
  refine decode_ok (p := .seq) (hW.trans hE.symm) (by omega) hr ?_
  refine check_ok rfl rfl rfl rfl rfl rfl ?_
  · simp only [e0, e1, e2]

theorem bne (a : BitVec 5) (b : BitVec 5) (o : BitVec 15) : Statement (.bne a b o) := by
  intro h w hw
  clear h
  have hF : Fits [(15, o.toNat), (5, b.toNat), (5, a.toNat), (7, 17)] := ⟨o.isLt, b.isLt, a.isLt, of_decide_eq_true rfl, trivial⟩
  have hE : 0x22000000 + a.toNat * 1048576 + b.toNat * 32768 + o.toNat = packed [(15, o.toNat), (5, b.toNat), (5, a.toNat), (7, 17)] := by
    simp only [packed]
    clear hF hw; omega
  have hW := packed_word _ rfl hF hE hw
  clear hw
  have e0 := fld_eq (lo := 20) a hW (packed_at _ hF 2)
  have e1 := fld_eq (lo := 15) b hW (packed_at _ hF 1)
  have e2 := fld_eq (lo := 0) o hW (packed_at _ hF 0)
  have hr : scalarRow w = some { instr := some (.bne (fld w 20 5) (fld w 15 5) (fld w 0 15)) } := by
    unfold scalarRow
    rw [fld_num (lo := 25) (len := 7) 17 hW (packed_at _ hF 3)]
    first | done | rfl
  change decodeWord .seq w = _
  refine decode_ok (p := .seq) (hW.trans hE.symm) (by omega) hr ?_
  refine check_ok rfl rfl rfl rfl rfl rfl ?_
  · simp only [e0, e1, e2]

theorem blt (a : BitVec 5) (b : BitVec 5) (o : BitVec 15) : Statement (.blt a b o) := by
  intro h w hw
  clear h
  have hF : Fits [(15, o.toNat), (5, b.toNat), (5, a.toNat), (7, 18)] := ⟨o.isLt, b.isLt, a.isLt, of_decide_eq_true rfl, trivial⟩
  have hE : 0x24000000 + a.toNat * 1048576 + b.toNat * 32768 + o.toNat = packed [(15, o.toNat), (5, b.toNat), (5, a.toNat), (7, 18)] := by
    simp only [packed]
    clear hF hw; omega
  have hW := packed_word _ rfl hF hE hw
  clear hw
  have e0 := fld_eq (lo := 20) a hW (packed_at _ hF 2)
  have e1 := fld_eq (lo := 15) b hW (packed_at _ hF 1)
  have e2 := fld_eq (lo := 0) o hW (packed_at _ hF 0)
  have hr : scalarRow w = some { instr := some (.blt (fld w 20 5) (fld w 15 5) (fld w 0 15)) } := by
    unfold scalarRow
    rw [fld_num (lo := 25) (len := 7) 18 hW (packed_at _ hF 3)]
    first | done | rfl
  change decodeWord .seq w = _
  refine decode_ok (p := .seq) (hW.trans hE.symm) (by omega) hr ?_
  refine check_ok rfl rfl rfl rfl rfl rfl ?_
  · simp only [e0, e1, e2]

theorem bge (a : BitVec 5) (b : BitVec 5) (o : BitVec 15) : Statement (.bge a b o) := by
  intro h w hw
  clear h
  have hF : Fits [(15, o.toNat), (5, b.toNat), (5, a.toNat), (7, 19)] := ⟨o.isLt, b.isLt, a.isLt, of_decide_eq_true rfl, trivial⟩
  have hE : 0x26000000 + a.toNat * 1048576 + b.toNat * 32768 + o.toNat = packed [(15, o.toNat), (5, b.toNat), (5, a.toNat), (7, 19)] := by
    simp only [packed]
    clear hF hw; omega
  have hW := packed_word _ rfl hF hE hw
  clear hw
  have e0 := fld_eq (lo := 20) a hW (packed_at _ hF 2)
  have e1 := fld_eq (lo := 15) b hW (packed_at _ hF 1)
  have e2 := fld_eq (lo := 0) o hW (packed_at _ hF 0)
  have hr : scalarRow w = some { instr := some (.bge (fld w 20 5) (fld w 15 5) (fld w 0 15)) } := by
    unfold scalarRow
    rw [fld_num (lo := 25) (len := 7) 19 hW (packed_at _ hF 3)]
    first | done | rfl
  change decodeWord .seq w = _
  refine decode_ok (p := .seq) (hW.trans hE.symm) (by omega) hr ?_
  refine check_ok rfl rfl rfl rfl rfl rfl ?_
  · simp only [e0, e1, e2]

theorem bltw (a : BitVec 5) (b : BitVec 5) (o : BitVec 15) : Statement (.bltw a b o) := by
  intro h w hw
  clear h
  have hF : Fits [(15, o.toNat), (5, b.toNat), (5, a.toNat), (7, 20)] := ⟨o.isLt, b.isLt, a.isLt, of_decide_eq_true rfl, trivial⟩
  have hE : 0x28000000 + a.toNat * 1048576 + b.toNat * 32768 + o.toNat = packed [(15, o.toNat), (5, b.toNat), (5, a.toNat), (7, 20)] := by
    simp only [packed]
    clear hF hw; omega
  have hW := packed_word _ rfl hF hE hw
  clear hw
  have e0 := fld_eq (lo := 20) a hW (packed_at _ hF 2)
  have e1 := fld_eq (lo := 15) b hW (packed_at _ hF 1)
  have e2 := fld_eq (lo := 0) o hW (packed_at _ hF 0)
  have hr : scalarRow w = some { instr := some (.bltw (fld w 20 5) (fld w 15 5) (fld w 0 15)) } := by
    unfold scalarRow
    rw [fld_num (lo := 25) (len := 7) 20 hW (packed_at _ hF 3)]
    first | done | rfl
  change decodeWord .seq w = _
  refine decode_ok (p := .seq) (hW.trans hE.symm) (by omega) hr ?_
  refine check_ok rfl rfl rfl rfl rfl rfl ?_
  · simp only [e0, e1, e2]

theorem bgew (a : BitVec 5) (b : BitVec 5) (o : BitVec 15) : Statement (.bgew a b o) := by
  intro h w hw
  clear h
  have hF : Fits [(15, o.toNat), (5, b.toNat), (5, a.toNat), (7, 21)] := ⟨o.isLt, b.isLt, a.isLt, of_decide_eq_true rfl, trivial⟩
  have hE : 0x2a000000 + a.toNat * 1048576 + b.toNat * 32768 + o.toNat = packed [(15, o.toNat), (5, b.toNat), (5, a.toNat), (7, 21)] := by
    simp only [packed]
    clear hF hw; omega
  have hW := packed_word _ rfl hF hE hw
  clear hw
  have e0 := fld_eq (lo := 20) a hW (packed_at _ hF 2)
  have e1 := fld_eq (lo := 15) b hW (packed_at _ hF 1)
  have e2 := fld_eq (lo := 0) o hW (packed_at _ hF 0)
  have hr : scalarRow w = some { instr := some (.bgew (fld w 20 5) (fld w 15 5) (fld w 0 15)) } := by
    unfold scalarRow
    rw [fld_num (lo := 25) (len := 7) 21 hW (packed_at _ hF 3)]
    first | done | rfl
  change decodeWord .seq w = _
  refine decode_ok (p := .seq) (hW.trans hE.symm) (by omega) hr ?_
  refine check_ok rfl rfl rfl rfl rfl rfl ?_
  · simp only [e0, e1, e2]

theorem jal (d : BitVec 5) (o : BitVec 20) : Statement (.jal d o) := by
  intro h w hw
  clear h
  have hF : Fits [(20, o.toNat), (5, d.toNat), (7, 22)] := ⟨o.isLt, d.isLt, of_decide_eq_true rfl, trivial⟩
  have hE : 0x2c000000 + d.toNat * 1048576 + o.toNat = packed [(20, o.toNat), (5, d.toNat), (7, 22)] := by
    simp only [packed]
    clear hF hw; omega
  have hW := packed_word _ rfl hF hE hw
  clear hw
  have e0 := fld_eq (lo := 20) d hW (packed_at _ hF 1)
  have e1 := fld_eq (lo := 0) o hW (packed_at _ hF 0)
  have hr : scalarRow w = some { instr := some (.jal (fld w 20 5) (fld w 0 20)) } := by
    unfold scalarRow
    rw [fld_num (lo := 25) (len := 7) 22 hW (packed_at _ hF 2)]
    first | done | rfl
  change decodeWord .seq w = _
  refine decode_ok (p := .seq) (hW.trans hE.symm) (by omega) hr ?_
  refine check_ok rfl rfl rfl rfl rfl rfl ?_
  · simp only [e0, e1]

theorem jalr (d : BitVec 5) (a : BitVec 5) (im : BitVec 15) : Statement (.jalr d a im) := by
  intro h w hw
  clear h
  have hF : Fits [(15, im.toNat), (5, a.toNat), (5, d.toNat), (7, 23)] := ⟨im.isLt, a.isLt, d.isLt, of_decide_eq_true rfl, trivial⟩
  have hE : 0x2e000000 + d.toNat * 1048576 + a.toNat * 32768 + im.toNat = packed [(15, im.toNat), (5, a.toNat), (5, d.toNat), (7, 23)] := by
    simp only [packed]
    clear hF hw; omega
  have hW := packed_word _ rfl hF hE hw
  clear hw
  have e0 := fld_eq (lo := 20) d hW (packed_at _ hF 2)
  have e1 := fld_eq (lo := 15) a hW (packed_at _ hF 1)
  have e2 := fld_eq (lo := 0) im hW (packed_at _ hF 0)
  have hr : scalarRow w = some { instr := some (.jalr (fld w 20 5) (fld w 15 5) (fld w 0 15)) } := by
    unfold scalarRow
    rw [fld_num (lo := 25) (len := 7) 23 hW (packed_at _ hF 3)]
    first | done | rfl
  change decodeWord .seq w = _
  refine decode_ok (p := .seq) (hW.trans hE.symm) (by omega) hr ?_
  refine check_ok rfl rfl rfl rfl rfl rfl ?_
  · simp only [e0, e1, e2]

theorem loop (c : BitVec 2) (a : BitVec 5) (len : BitVec 8) : Statement (.loop c a len) := by
  intro h w hw
  change (len != 0) = true at h
  try simp at h
  have hF : Fits [(8, len.toNat), (7, 0), (5, a.toNat), (2, 0), (1, 0), (2, c.toNat), (7, 24)] := ⟨len.isLt, of_decide_eq_true rfl, a.isLt, of_decide_eq_true rfl, of_decide_eq_true rfl, c.isLt, of_decide_eq_true rfl, trivial⟩
  have hE : 0x30000000 + c.toNat * 8388608 + a.toNat * 32768 + len.toNat = packed [(8, len.toNat), (7, 0), (5, a.toNat), (2, 0), (1, 0), (2, c.toNat), (7, 24)] := by
    simp only [packed]
    clear hF hw; omega
  have hW := packed_word _ rfl hF hE hw
  clear hw
  have e0 := fld_eq (lo := 23) c hW (packed_at _ hF 5)
  have e1 := fld_eq (lo := 15) a hW (packed_at _ hF 2)
  have e2 := fld_eq (lo := 0) len hW (packed_at _ hF 0)
  have z3 := nz_false (lo := 20) (len := 2) hW (packed_at _ hF 3)
  have z4 := nz_false (lo := 8) (len := 7) hW (packed_at _ hF 1)
  have hN := hW.trans hE.symm
  have hb0 := c.isLt
  have hb1 := a.isLt
  have hb2 := len.isLt
  have z5 := nz_true (lo := 0) (len := 8) hN (by first | omega | (simp only [BitVec.toNat_eq] at h; simp at h; omega))
  have hr : scalarRow w = some { instr := some (.loop (fld w 23 2) (fld w 15 5) (fld w 0 8)), unused := nz w 8 7 || nz w 20 2, range := !nz w 0 8 } := by
    unfold scalarRow
    rw [fld_num (lo := 25) (len := 7) 24 hW (packed_at _ hF 6)]
    rw [fld_num (lo := 22) (len := 1) 0 hW (packed_at _ hF 4)]
    first | done | rfl
  change decodeWord .seq w = _
  refine decode_ok (p := .seq) (hW.trans hE.symm) (by omega) hr ?_
  refine check_ok rfl rfl ?_ ?_ rfl rfl ?_
  · simp [e0, e1, e2, z3, z4, z5]
  · simp [e0, e1, e2, z3, z4, z5]
  · simp only [e0, e1, e2, z3, z4, z5]

theorem loopStrided (c : BitVec 2) (a : BitVec 5) (b : BitVec 5) (len : BitVec 8) : Statement (.loopStrided c a b len) := by
  intro h w hw
  change (len != 0 && b.toNat % 2 == 0) = true at h
  try simp at h
  have hF : Fits [(8, len.toNat), (2, 0), (5, b.toNat), (5, a.toNat), (2, 0), (1, 1), (2, c.toNat), (7, 24)] := ⟨len.isLt, of_decide_eq_true rfl, b.isLt, a.isLt, of_decide_eq_true rfl, of_decide_eq_true rfl, c.isLt, of_decide_eq_true rfl, trivial⟩
  have hE : 0x30400000 + c.toNat * 8388608 + a.toNat * 32768 + b.toNat * 1024 + len.toNat = packed [(8, len.toNat), (2, 0), (5, b.toNat), (5, a.toNat), (2, 0), (1, 1), (2, c.toNat), (7, 24)] := by
    simp only [packed]
    clear hF hw; omega
  have hW := packed_word _ rfl hF hE hw
  clear hw
  have e0 := fld_eq (lo := 23) c hW (packed_at _ hF 6)
  have e1 := fld_eq (lo := 15) a hW (packed_at _ hF 3)
  have e2 := fld_eq (lo := 10) b hW (packed_at _ hF 2)
  have e3 := fld_eq (lo := 0) len hW (packed_at _ hF 0)
  have hN := hW.trans hE.symm
  have hb0 := c.isLt
  have hb1 := a.isLt
  have hb2 := b.isLt
  have hb3 := len.isLt
  have z4 := nz_false (lo := 10) (len := 1) hN (by first | omega | (simp only [BitVec.toNat_eq] at h; simp at h; omega))
  have z5 := nz_false (lo := 20) (len := 2) hW (packed_at _ hF 4)
  have z6 := nz_false (lo := 8) (len := 2) hW (packed_at _ hF 1)
  have z7 := nz_true (lo := 0) (len := 8) hN (by first | omega | (simp only [BitVec.toNat_eq] at h; simp at h; omega))
  have hr : scalarRow w = some { instr := some (.loopStrided (fld w 23 2) (fld w 15 5) (fld w 10 5) (fld w 0 8)), unused := nz w 8 2 || nz w 20 2, range := !nz w 0 8, misaligned := nz w 10 1 } := by
    unfold scalarRow
    rw [fld_num (lo := 25) (len := 7) 24 hW (packed_at _ hF 7)]
    rw [fld_num (lo := 22) (len := 1) 1 hW (packed_at _ hF 5)]
    first | done | rfl
  change decodeWord .seq w = _
  refine decode_ok (p := .seq) (hW.trans hE.symm) (by omega) hr ?_
  refine check_ok rfl rfl ?_ ?_ ?_ rfl ?_
  · simp [e0, e1, e2, e3, z4, z5, z6, z7]
  · simp [e0, e1, e2, e3, z4, z5, z6, z7]
  · simp [e0, e1, e2, e3, z4, z5, z6, z7]
  · simp only [e0, e1, e2, e3, z4, z5, z6, z7]

theorem loopi (c : BitVec 2) (n : BitVec 15) (len : BitVec 8) : Statement (.loopi c n len) := by
  intro h w hw
  change (len != 0) = true at h
  try simp at h
  have hF : Fits [(8, len.toNat), (15, n.toNat), (2, c.toNat), (7, 25)] := ⟨len.isLt, n.isLt, c.isLt, of_decide_eq_true rfl, trivial⟩
  have hE : 0x32000000 + c.toNat * 8388608 + n.toNat * 256 + len.toNat = packed [(8, len.toNat), (15, n.toNat), (2, c.toNat), (7, 25)] := by
    simp only [packed]
    clear hF hw; omega
  have hW := packed_word _ rfl hF hE hw
  clear hw
  have e0 := fld_eq (lo := 23) c hW (packed_at _ hF 2)
  have e1 := fld_eq (lo := 8) n hW (packed_at _ hF 1)
  have e2 := fld_eq (lo := 0) len hW (packed_at _ hF 0)
  have hN := hW.trans hE.symm
  have hb0 := c.isLt
  have hb1 := n.isLt
  have hb2 := len.isLt
  have z3 := nz_true (lo := 0) (len := 8) hN (by first | omega | (simp only [BitVec.toNat_eq] at h; simp at h; omega))
  have hr : scalarRow w = some { instr := some (.loopi (fld w 23 2) (fld w 8 15) (fld w 0 8)), range := !nz w 0 8 } := by
    unfold scalarRow
    rw [fld_num (lo := 25) (len := 7) 25 hW (packed_at _ hF 3)]
    first | done | rfl
  change decodeWord .seq w = _
  refine decode_ok (p := .seq) (hW.trans hE.symm) (by omega) hr ?_
  refine check_ok rfl rfl rfl ?_ rfl rfl ?_
  · simp [e0, e1, e2, z3]
  · simp only [e0, e1, e2, z3]

theorem loopr (c : BitVec 2) (a : BitVec 5) (hx : BitVec 4) (len : BitVec 8) : Statement (.loopr c a hx len) := by
  intro h w hw
  change (len != 0) = true at h
  try simp at h
  have hF : Fits [(8, len.toNat), (3, 0), (4, hx.toNat), (5, a.toNat), (3, 0), (2, c.toNat), (7, 26)] := ⟨len.isLt, of_decide_eq_true rfl, hx.isLt, a.isLt, of_decide_eq_true rfl, c.isLt, of_decide_eq_true rfl, trivial⟩
  have hE : 0x34000000 + c.toNat * 8388608 + a.toNat * 32768 + hx.toNat * 2048 + len.toNat = packed [(8, len.toNat), (3, 0), (4, hx.toNat), (5, a.toNat), (3, 0), (2, c.toNat), (7, 26)] := by
    simp only [packed]
    clear hF hw; omega
  have hW := packed_word _ rfl hF hE hw
  clear hw
  have e0 := fld_eq (lo := 23) c hW (packed_at _ hF 5)
  have e1 := fld_eq (lo := 15) a hW (packed_at _ hF 3)
  have e2 := fld_eq (lo := 11) hx hW (packed_at _ hF 2)
  have e3 := fld_eq (lo := 0) len hW (packed_at _ hF 0)
  have z4 := nz_false (lo := 20) (len := 3) hW (packed_at _ hF 4)
  have z5 := nz_false (lo := 8) (len := 3) hW (packed_at _ hF 1)
  have hN := hW.trans hE.symm
  have hb0 := c.isLt
  have hb1 := a.isLt
  have hb2 := hx.isLt
  have hb3 := len.isLt
  have z6 := nz_true (lo := 0) (len := 8) hN (by first | omega | (simp only [BitVec.toNat_eq] at h; simp at h; omega))
  have hr : scalarRow w = some { instr := some (.loopr (fld w 23 2) (fld w 15 5) (fld w 11 4) (fld w 0 8)), unused := nz w 8 3 || nz w 20 3, range := !nz w 0 8 } := by
    unfold scalarRow
    rw [fld_num (lo := 25) (len := 7) 26 hW (packed_at _ hF 6)]
    first | done | rfl
  change decodeWord .seq w = _
  refine decode_ok (p := .seq) (hW.trans hE.symm) (by omega) hr ?_
  refine check_ok rfl rfl ?_ ?_ rfl rfl ?_
  · simp [e0, e1, e2, e3, z4, z5, z6]
  · simp [e0, e1, e2, e3, z4, z5, z6]
  · simp only [e0, e1, e2, e3, z4, z5, z6]

theorem ld (d : BitVec 5) (a : BitVec 5) (hx : BitVec 4) (sz : BitVec 2) (im : BitVec 9) : Statement (.ld d a hx sz im) := by
  intro h w hw
  clear h
  have hF : Fits [(9, im.toNat), (2, sz.toNat), (4, hx.toNat), (5, a.toNat), (5, d.toNat), (7, 32)] := ⟨im.isLt, sz.isLt, hx.isLt, a.isLt, d.isLt, of_decide_eq_true rfl, trivial⟩
  have hE : 0x40000000 + d.toNat * 1048576 + a.toNat * 32768 + hx.toNat * 2048 + sz.toNat * 512 + im.toNat = packed [(9, im.toNat), (2, sz.toNat), (4, hx.toNat), (5, a.toNat), (5, d.toNat), (7, 32)] := by
    simp only [packed]
    clear hF hw; omega
  have hW := packed_word _ rfl hF hE hw
  clear hw
  have e0 := fld_eq (lo := 20) d hW (packed_at _ hF 4)
  have e1 := fld_eq (lo := 15) a hW (packed_at _ hF 3)
  have e2 := fld_eq (lo := 11) hx hW (packed_at _ hF 2)
  have e3 := fld_eq (lo := 9) sz hW (packed_at _ hF 1)
  have e4 := fld_eq (lo := 0) im hW (packed_at _ hF 0)
  have hr : scalarRow w = some { instr := some (.ld (fld w 20 5) (fld w 15 5) (fld w 11 4) (fld w 9 2) (fld w 0 9)), avail := .seq } := by
    unfold scalarRow
    rw [fld_num (lo := 25) (len := 7) 32 hW (packed_at _ hF 5)]
    first | done | rfl
  change decodeWord .seq w = _
  refine decode_ok (p := .seq) (hW.trans hE.symm) (by omega) hr ?_
  refine check_ok rfl rfl rfl rfl rfl rfl ?_
  · simp only [e0, e1, e2, e3, e4]

theorem lds (d : BitVec 5) (a : BitVec 5) (hx : BitVec 4) (sz : BitVec 2) (im : BitVec 9) : Statement (.lds d a hx sz im) := by
  intro h w hw
  change (sz != 3) = true at h
  try simp at h
  have hF : Fits [(9, im.toNat), (2, sz.toNat), (4, hx.toNat), (5, a.toNat), (5, d.toNat), (7, 33)] := ⟨im.isLt, sz.isLt, hx.isLt, a.isLt, d.isLt, of_decide_eq_true rfl, trivial⟩
  have hE : 0x42000000 + d.toNat * 1048576 + a.toNat * 32768 + hx.toNat * 2048 + sz.toNat * 512 + im.toNat = packed [(9, im.toNat), (2, sz.toNat), (4, hx.toNat), (5, a.toNat), (5, d.toNat), (7, 33)] := by
    simp only [packed]
    clear hF hw; omega
  have hW := packed_word _ rfl hF hE hw
  clear hw
  have e0 := fld_eq (lo := 20) d hW (packed_at _ hF 4)
  have e1 := fld_eq (lo := 15) a hW (packed_at _ hF 3)
  have e2 := fld_eq (lo := 11) hx hW (packed_at _ hF 2)
  have e3 := fld_eq (lo := 9) sz hW (packed_at _ hF 1)
  have e4 := fld_eq (lo := 0) im hW (packed_at _ hF 0)
  have hr : scalarRow w = some { instr := some (.lds (fld w 20 5) (fld w 15 5) (fld w 11 4) (fld w 9 2) (fld w 0 9)), form := fld w 9 2 == 3#2, avail := .seq } := by
    unfold scalarRow
    rw [fld_num (lo := 25) (len := 7) 33 hW (packed_at _ hF 5)]
    first | done | rfl
  change decodeWord .seq w = _
  refine decode_ok (p := .seq) (hW.trans hE.symm) (by omega) hr ?_
  refine check_ok rfl rfl rfl rfl rfl ?_ ?_
  · simp [e0, e1, e2, e3, e4, h]
  · simp only [e0, e1, e2, e3, e4]

theorem st (d : BitVec 5) (a : BitVec 5) (hx : BitVec 4) (sz : BitVec 2) (im : BitVec 9) : Statement (.st d a hx sz im) := by
  intro h w hw
  clear h
  have hF : Fits [(9, im.toNat), (2, sz.toNat), (4, hx.toNat), (5, a.toNat), (5, d.toNat), (7, 34)] := ⟨im.isLt, sz.isLt, hx.isLt, a.isLt, d.isLt, of_decide_eq_true rfl, trivial⟩
  have hE : 0x44000000 + d.toNat * 1048576 + a.toNat * 32768 + hx.toNat * 2048 + sz.toNat * 512 + im.toNat = packed [(9, im.toNat), (2, sz.toNat), (4, hx.toNat), (5, a.toNat), (5, d.toNat), (7, 34)] := by
    simp only [packed]
    clear hF hw; omega
  have hW := packed_word _ rfl hF hE hw
  clear hw
  have e0 := fld_eq (lo := 20) d hW (packed_at _ hF 4)
  have e1 := fld_eq (lo := 15) a hW (packed_at _ hF 3)
  have e2 := fld_eq (lo := 11) hx hW (packed_at _ hF 2)
  have e3 := fld_eq (lo := 9) sz hW (packed_at _ hF 1)
  have e4 := fld_eq (lo := 0) im hW (packed_at _ hF 0)
  have hr : scalarRow w = some { instr := some (.st (fld w 20 5) (fld w 15 5) (fld w 11 4) (fld w 9 2) (fld w 0 9)), avail := .seq } := by
    unfold scalarRow
    rw [fld_num (lo := 25) (len := 7) 34 hW (packed_at _ hF 5)]
    first | done | rfl
  change decodeWord .seq w = _
  refine decode_ok (p := .seq) (hW.trans hE.symm) (by omega) hr ?_
  refine check_ok rfl rfl rfl rfl rfl rfl ?_
  · simp only [e0, e1, e2, e3, e4]

theorem amoAdd (d : BitVec 5) (a : BitVec 5) (hx : BitVec 4) (b : BitVec 5) (wx : BitVec 1) : Statement (.amoAdd d a hx b wx) := by
  intro h w hw
  clear h
  have hF : Fits [(3, 0), (2, 0), (1, wx.toNat), (5, b.toNat), (4, hx.toNat), (5, a.toNat), (5, d.toNat), (7, 36)] := ⟨of_decide_eq_true rfl, of_decide_eq_true rfl, wx.isLt, b.isLt, hx.isLt, a.isLt, d.isLt, of_decide_eq_true rfl, trivial⟩
  have hE : 0x48000000 + d.toNat * 1048576 + a.toNat * 32768 + hx.toNat * 2048 + b.toNat * 64 + wx.toNat * 32 = packed [(3, 0), (2, 0), (1, wx.toNat), (5, b.toNat), (4, hx.toNat), (5, a.toNat), (5, d.toNat), (7, 36)] := by
    simp only [packed]
    clear hF hw; omega
  have hW := packed_word _ rfl hF hE hw
  clear hw
  have e0 := fld_eq (lo := 20) d hW (packed_at _ hF 6)
  have e1 := fld_eq (lo := 15) a hW (packed_at _ hF 5)
  have e2 := fld_eq (lo := 11) hx hW (packed_at _ hF 4)
  have e3 := fld_eq (lo := 6) b hW (packed_at _ hF 3)
  have e4 := fld_eq (lo := 5) wx hW (packed_at _ hF 2)
  have z5 := nz_false (lo := 3) (len := 2) hW (packed_at _ hF 1)
  have hr : scalarRow w = some { instr := some (.amoAdd (fld w 20 5) (fld w 15 5) (fld w 11 4) (fld w 6 5) (fld w 5 1)), unused := nz w 3 2, avail := .seq } := by
    unfold scalarRow
    rw [fld_num (lo := 25) (len := 7) 36 hW (packed_at _ hF 7)]
    show amoRow w = _
    unfold amoRow
    rw [fld_num (lo := 0) (len := 3) 0 hW (packed_at _ hF 0)]
    first | done | rfl
  change decodeWord .seq w = _
  refine decode_ok (p := .seq) (hW.trans hE.symm) (by omega) hr ?_
  refine check_ok rfl rfl ?_ rfl rfl rfl ?_
  · simp [e0, e1, e2, e3, e4, z5]
  · simp only [e0, e1, e2, e3, e4, z5]

theorem amoMin (d : BitVec 5) (a : BitVec 5) (hx : BitVec 4) (b : BitVec 5) (wx : BitVec 1) : Statement (.amoMin d a hx b wx) := by
  intro h w hw
  clear h
  have hF : Fits [(3, 1), (2, 0), (1, wx.toNat), (5, b.toNat), (4, hx.toNat), (5, a.toNat), (5, d.toNat), (7, 36)] := ⟨of_decide_eq_true rfl, of_decide_eq_true rfl, wx.isLt, b.isLt, hx.isLt, a.isLt, d.isLt, of_decide_eq_true rfl, trivial⟩
  have hE : 0x48000001 + d.toNat * 1048576 + a.toNat * 32768 + hx.toNat * 2048 + b.toNat * 64 + wx.toNat * 32 = packed [(3, 1), (2, 0), (1, wx.toNat), (5, b.toNat), (4, hx.toNat), (5, a.toNat), (5, d.toNat), (7, 36)] := by
    simp only [packed]
    clear hF hw; omega
  have hW := packed_word _ rfl hF hE hw
  clear hw
  have e0 := fld_eq (lo := 20) d hW (packed_at _ hF 6)
  have e1 := fld_eq (lo := 15) a hW (packed_at _ hF 5)
  have e2 := fld_eq (lo := 11) hx hW (packed_at _ hF 4)
  have e3 := fld_eq (lo := 6) b hW (packed_at _ hF 3)
  have e4 := fld_eq (lo := 5) wx hW (packed_at _ hF 2)
  have z5 := nz_false (lo := 3) (len := 2) hW (packed_at _ hF 1)
  have hr : scalarRow w = some { instr := some (.amoMin (fld w 20 5) (fld w 15 5) (fld w 11 4) (fld w 6 5) (fld w 5 1)), unused := nz w 3 2, avail := .seq } := by
    unfold scalarRow
    rw [fld_num (lo := 25) (len := 7) 36 hW (packed_at _ hF 7)]
    show amoRow w = _
    unfold amoRow
    rw [fld_num (lo := 0) (len := 3) 1 hW (packed_at _ hF 0)]
    first | done | rfl
  change decodeWord .seq w = _
  refine decode_ok (p := .seq) (hW.trans hE.symm) (by omega) hr ?_
  refine check_ok rfl rfl ?_ rfl rfl rfl ?_
  · simp [e0, e1, e2, e3, e4, z5]
  · simp only [e0, e1, e2, e3, e4, z5]

theorem amoMax (d : BitVec 5) (a : BitVec 5) (hx : BitVec 4) (b : BitVec 5) (wx : BitVec 1) : Statement (.amoMax d a hx b wx) := by
  intro h w hw
  clear h
  have hF : Fits [(3, 2), (2, 0), (1, wx.toNat), (5, b.toNat), (4, hx.toNat), (5, a.toNat), (5, d.toNat), (7, 36)] := ⟨of_decide_eq_true rfl, of_decide_eq_true rfl, wx.isLt, b.isLt, hx.isLt, a.isLt, d.isLt, of_decide_eq_true rfl, trivial⟩
  have hE : 0x48000002 + d.toNat * 1048576 + a.toNat * 32768 + hx.toNat * 2048 + b.toNat * 64 + wx.toNat * 32 = packed [(3, 2), (2, 0), (1, wx.toNat), (5, b.toNat), (4, hx.toNat), (5, a.toNat), (5, d.toNat), (7, 36)] := by
    simp only [packed]
    clear hF hw; omega
  have hW := packed_word _ rfl hF hE hw
  clear hw
  have e0 := fld_eq (lo := 20) d hW (packed_at _ hF 6)
  have e1 := fld_eq (lo := 15) a hW (packed_at _ hF 5)
  have e2 := fld_eq (lo := 11) hx hW (packed_at _ hF 4)
  have e3 := fld_eq (lo := 6) b hW (packed_at _ hF 3)
  have e4 := fld_eq (lo := 5) wx hW (packed_at _ hF 2)
  have z5 := nz_false (lo := 3) (len := 2) hW (packed_at _ hF 1)
  have hr : scalarRow w = some { instr := some (.amoMax (fld w 20 5) (fld w 15 5) (fld w 11 4) (fld w 6 5) (fld w 5 1)), unused := nz w 3 2, avail := .seq } := by
    unfold scalarRow
    rw [fld_num (lo := 25) (len := 7) 36 hW (packed_at _ hF 7)]
    show amoRow w = _
    unfold amoRow
    rw [fld_num (lo := 0) (len := 3) 2 hW (packed_at _ hF 0)]
    first | done | rfl
  change decodeWord .seq w = _
  refine decode_ok (p := .seq) (hW.trans hE.symm) (by omega) hr ?_
  refine check_ok rfl rfl ?_ rfl rfl rfl ?_
  · simp [e0, e1, e2, e3, e4, z5]
  · simp only [e0, e1, e2, e3, e4, z5]

theorem amoSwap (d : BitVec 5) (a : BitVec 5) (hx : BitVec 4) (b : BitVec 5) (wx : BitVec 1) : Statement (.amoSwap d a hx b wx) := by
  intro h w hw
  clear h
  have hF : Fits [(3, 3), (2, 0), (1, wx.toNat), (5, b.toNat), (4, hx.toNat), (5, a.toNat), (5, d.toNat), (7, 36)] := ⟨of_decide_eq_true rfl, of_decide_eq_true rfl, wx.isLt, b.isLt, hx.isLt, a.isLt, d.isLt, of_decide_eq_true rfl, trivial⟩
  have hE : 0x48000003 + d.toNat * 1048576 + a.toNat * 32768 + hx.toNat * 2048 + b.toNat * 64 + wx.toNat * 32 = packed [(3, 3), (2, 0), (1, wx.toNat), (5, b.toNat), (4, hx.toNat), (5, a.toNat), (5, d.toNat), (7, 36)] := by
    simp only [packed]
    clear hF hw; omega
  have hW := packed_word _ rfl hF hE hw
  clear hw
  have e0 := fld_eq (lo := 20) d hW (packed_at _ hF 6)
  have e1 := fld_eq (lo := 15) a hW (packed_at _ hF 5)
  have e2 := fld_eq (lo := 11) hx hW (packed_at _ hF 4)
  have e3 := fld_eq (lo := 6) b hW (packed_at _ hF 3)
  have e4 := fld_eq (lo := 5) wx hW (packed_at _ hF 2)
  have z5 := nz_false (lo := 3) (len := 2) hW (packed_at _ hF 1)
  have hr : scalarRow w = some { instr := some (.amoSwap (fld w 20 5) (fld w 15 5) (fld w 11 4) (fld w 6 5) (fld w 5 1)), unused := nz w 3 2, avail := .seq } := by
    unfold scalarRow
    rw [fld_num (lo := 25) (len := 7) 36 hW (packed_at _ hF 7)]
    show amoRow w = _
    unfold amoRow
    rw [fld_num (lo := 0) (len := 3) 3 hW (packed_at _ hF 0)]
    first | done | rfl
  change decodeWord .seq w = _
  refine decode_ok (p := .seq) (hW.trans hE.symm) (by omega) hr ?_
  refine check_ok rfl rfl ?_ rfl rfl rfl ?_
  · simp [e0, e1, e2, e3, e4, z5]
  · simp only [e0, e1, e2, e3, e4, z5]

theorem amoCas (d : BitVec 5) (a : BitVec 5) (hx : BitVec 4) (b : BitVec 5) (wx : BitVec 1) : Statement (.amoCas d a hx b wx) := by
  intro h w hw
  clear h
  have hF : Fits [(3, 4), (2, 0), (1, wx.toNat), (5, b.toNat), (4, hx.toNat), (5, a.toNat), (5, d.toNat), (7, 36)] := ⟨of_decide_eq_true rfl, of_decide_eq_true rfl, wx.isLt, b.isLt, hx.isLt, a.isLt, d.isLt, of_decide_eq_true rfl, trivial⟩
  have hE : 0x48000004 + d.toNat * 1048576 + a.toNat * 32768 + hx.toNat * 2048 + b.toNat * 64 + wx.toNat * 32 = packed [(3, 4), (2, 0), (1, wx.toNat), (5, b.toNat), (4, hx.toNat), (5, a.toNat), (5, d.toNat), (7, 36)] := by
    simp only [packed]
    clear hF hw; omega
  have hW := packed_word _ rfl hF hE hw
  clear hw
  have e0 := fld_eq (lo := 20) d hW (packed_at _ hF 6)
  have e1 := fld_eq (lo := 15) a hW (packed_at _ hF 5)
  have e2 := fld_eq (lo := 11) hx hW (packed_at _ hF 4)
  have e3 := fld_eq (lo := 6) b hW (packed_at _ hF 3)
  have e4 := fld_eq (lo := 5) wx hW (packed_at _ hF 2)
  have z5 := nz_false (lo := 3) (len := 2) hW (packed_at _ hF 1)
  have hr : scalarRow w = some { instr := some (.amoCas (fld w 20 5) (fld w 15 5) (fld w 11 4) (fld w 6 5) (fld w 5 1)), unused := nz w 3 2, avail := .seq } := by
    unfold scalarRow
    rw [fld_num (lo := 25) (len := 7) 36 hW (packed_at _ hF 7)]
    show amoRow w = _
    unfold amoRow
    rw [fld_num (lo := 0) (len := 3) 4 hW (packed_at _ hF 0)]
    first | done | rfl
  change decodeWord .seq w = _
  refine decode_ok (p := .seq) (hW.trans hE.symm) (by omega) hr ?_
  refine check_ok rfl rfl ?_ rfl rfl rfl ?_
  · simp [e0, e1, e2, e3, e4, z5]
  · simp only [e0, e1, e2, e3, e4, z5]

theorem amoOr (d : BitVec 5) (a : BitVec 5) (hx : BitVec 4) (b : BitVec 5) (wx : BitVec 1) : Statement (.amoOr d a hx b wx) := by
  intro h w hw
  clear h
  have hF : Fits [(3, 5), (2, 0), (1, wx.toNat), (5, b.toNat), (4, hx.toNat), (5, a.toNat), (5, d.toNat), (7, 36)] := ⟨of_decide_eq_true rfl, of_decide_eq_true rfl, wx.isLt, b.isLt, hx.isLt, a.isLt, d.isLt, of_decide_eq_true rfl, trivial⟩
  have hE : 0x48000005 + d.toNat * 1048576 + a.toNat * 32768 + hx.toNat * 2048 + b.toNat * 64 + wx.toNat * 32 = packed [(3, 5), (2, 0), (1, wx.toNat), (5, b.toNat), (4, hx.toNat), (5, a.toNat), (5, d.toNat), (7, 36)] := by
    simp only [packed]
    clear hF hw; omega
  have hW := packed_word _ rfl hF hE hw
  clear hw
  have e0 := fld_eq (lo := 20) d hW (packed_at _ hF 6)
  have e1 := fld_eq (lo := 15) a hW (packed_at _ hF 5)
  have e2 := fld_eq (lo := 11) hx hW (packed_at _ hF 4)
  have e3 := fld_eq (lo := 6) b hW (packed_at _ hF 3)
  have e4 := fld_eq (lo := 5) wx hW (packed_at _ hF 2)
  have z5 := nz_false (lo := 3) (len := 2) hW (packed_at _ hF 1)
  have hr : scalarRow w = some { instr := some (.amoOr (fld w 20 5) (fld w 15 5) (fld w 11 4) (fld w 6 5) (fld w 5 1)), unused := nz w 3 2, avail := .seq } := by
    unfold scalarRow
    rw [fld_num (lo := 25) (len := 7) 36 hW (packed_at _ hF 7)]
    show amoRow w = _
    unfold amoRow
    rw [fld_num (lo := 0) (len := 3) 5 hW (packed_at _ hF 0)]
    first | done | rfl
  change decodeWord .seq w = _
  refine decode_ok (p := .seq) (hW.trans hE.symm) (by omega) hr ?_
  refine check_ok rfl rfl ?_ rfl rfl rfl ?_
  · simp [e0, e1, e2, e3, e4, z5]
  · simp only [e0, e1, e2, e3, e4, z5]

theorem phase  : Statement (.phase) := by
  intro h w hw
  clear h
  have hF : Fits [(25, 0), (7, 40)] := ⟨of_decide_eq_true rfl, of_decide_eq_true rfl, trivial⟩
  have hE : 0x50000000 = packed [(25, 0), (7, 40)] := by
    simp only [packed]
    clear hF hw; omega
  have hW := packed_word _ rfl hF hE hw
  clear hw
  have z0 := nz_false (lo := 0) (len := 25) hW (packed_at _ hF 0)
  have hr : scalarRow w = some { instr := some (.phase), unused := nz w 0 25, avail := .seq } := by
    unfold scalarRow
    rw [fld_num (lo := 25) (len := 7) 40 hW (packed_at _ hF 1)]
    first | done | rfl
  change decodeWord .seq w = _
  refine decode_ok (p := .seq) (hW.trans hE.symm) (by omega) hr ?_
  refine check_ok rfl rfl ?_ rfl rfl rfl ?_
  · simp [z0]
  · simp only [z0]

theorem fence (m : BitVec 7) : Statement (.fence m) := by
  intro h w hw
  clear h
  have hF : Fits [(7, m.toNat), (18, 0), (7, 41)] := ⟨m.isLt, of_decide_eq_true rfl, of_decide_eq_true rfl, trivial⟩
  have hE : 0x52000000 + m.toNat = packed [(7, m.toNat), (18, 0), (7, 41)] := by
    simp only [packed]
    clear hF hw; omega
  have hW := packed_word _ rfl hF hE hw
  clear hw
  have e0 := fld_eq (lo := 0) m hW (packed_at _ hF 0)
  have z1 := nz_false (lo := 7) (len := 18) hW (packed_at _ hF 1)
  have hr : scalarRow w = some { instr := some (.fence (fld w 0 7)), unused := nz w 7 18 } := by
    unfold scalarRow
    rw [fld_num (lo := 25) (len := 7) 41 hW (packed_at _ hF 2)]
    first | done | rfl
  change decodeWord .seq w = _
  refine decode_ok (p := .seq) (hW.trans hE.symm) (by omega) hr ?_
  refine check_ok rfl rfl ?_ rfl rfl rfl ?_
  · simp [e0, z1]
  · simp only [e0, z1]

theorem barinit (a : BitVec 5) (hx : BitVec 4) (e : BitVec 7) : Statement (.barinit a hx e) := by
  intro h w hw
  change (e != 0) = true at h
  try simp at h
  have hF : Fits [(4, 0), (7, e.toNat), (4, hx.toNat), (5, a.toNat), (5, 0), (7, 44)] := ⟨of_decide_eq_true rfl, e.isLt, hx.isLt, a.isLt, of_decide_eq_true rfl, of_decide_eq_true rfl, trivial⟩
  have hE : 0x58000000 + a.toNat * 32768 + hx.toNat * 2048 + e.toNat * 16 = packed [(4, 0), (7, e.toNat), (4, hx.toNat), (5, a.toNat), (5, 0), (7, 44)] := by
    simp only [packed]
    clear hF hw; omega
  have hW := packed_word _ rfl hF hE hw
  clear hw
  have e0 := fld_eq (lo := 15) a hW (packed_at _ hF 3)
  have e1 := fld_eq (lo := 11) hx hW (packed_at _ hF 2)
  have e2 := fld_eq (lo := 4) e hW (packed_at _ hF 1)
  have z3 := nz_false (lo := 0) (len := 4) hW (packed_at _ hF 0)
  have z4 := nz_false (lo := 20) (len := 5) hW (packed_at _ hF 4)
  have hN := hW.trans hE.symm
  have hb0 := a.isLt
  have hb1 := hx.isLt
  have hb2 := e.isLt
  have z5 := nz_true (lo := 4) (len := 7) hN (by first | omega | (simp only [BitVec.toNat_eq] at h; simp at h; omega))
  have hr : scalarRow w = some { instr := some (.barinit (fld w 15 5) (fld w 11 4) (fld w 4 7)), unused := nz w 0 4 || nz w 20 5, range := !nz w 4 7, avail := .seq } := by
    unfold scalarRow
    rw [fld_num (lo := 25) (len := 7) 44 hW (packed_at _ hF 5)]
    first | done | rfl
  change decodeWord .seq w = _
  refine decode_ok (p := .seq) (hW.trans hE.symm) (by omega) hr ?_
  refine check_ok rfl rfl ?_ ?_ rfl rfl ?_
  · simp [e0, e1, e2, z3, z4, z5]
  · simp [e0, e1, e2, z3, z4, z5]
  · simp only [e0, e1, e2, z3, z4, z5]

theorem bararr (a : BitVec 5) (hx : BitVec 4) (n : BitVec 4) : Statement (.bararr a hx n) := by
  intro h w hw
  change (n != 0) = true at h
  try simp at h
  have hF : Fits [(7, 0), (4, n.toNat), (4, hx.toNat), (5, a.toNat), (5, 0), (7, 45)] := ⟨of_decide_eq_true rfl, n.isLt, hx.isLt, a.isLt, of_decide_eq_true rfl, of_decide_eq_true rfl, trivial⟩
  have hE : 0x5a000000 + a.toNat * 32768 + hx.toNat * 2048 + n.toNat * 128 = packed [(7, 0), (4, n.toNat), (4, hx.toNat), (5, a.toNat), (5, 0), (7, 45)] := by
    simp only [packed]
    clear hF hw; omega
  have hW := packed_word _ rfl hF hE hw
  clear hw
  have e0 := fld_eq (lo := 15) a hW (packed_at _ hF 3)
  have e1 := fld_eq (lo := 11) hx hW (packed_at _ hF 2)
  have e2 := fld_eq (lo := 7) n hW (packed_at _ hF 1)
  have z3 := nz_false (lo := 0) (len := 7) hW (packed_at _ hF 0)
  have z4 := nz_false (lo := 20) (len := 5) hW (packed_at _ hF 4)
  have hN := hW.trans hE.symm
  have hb0 := a.isLt
  have hb1 := hx.isLt
  have hb2 := n.isLt
  have z5 := nz_true (lo := 7) (len := 4) hN (by first | omega | (simp only [BitVec.toNat_eq] at h; simp at h; omega))
  have hr : scalarRow w = some { instr := some (.bararr (fld w 15 5) (fld w 11 4) (fld w 7 4)), unused := nz w 0 7 || nz w 20 5, range := !nz w 7 4, avail := .seq } := by
    unfold scalarRow
    rw [fld_num (lo := 25) (len := 7) 45 hW (packed_at _ hF 5)]
    first | done | rfl
  change decodeWord .seq w = _
  refine decode_ok (p := .seq) (hW.trans hE.symm) (by omega) hr ?_
  refine check_ok rfl rfl ?_ ?_ rfl rfl ?_
  · simp [e0, e1, e2, z3, z4, z5]
  · simp [e0, e1, e2, z3, z4, z5]
  · simp only [e0, e1, e2, z3, z4, z5]

theorem barwait (d : BitVec 5) (a : BitVec 5) (hx : BitVec 4) (p : BitVec 4) (b : BitVec 5) : Statement (.barwait d a hx p b) := by
  intro h w hw
  clear h
  have hF : Fits [(2, 0), (5, b.toNat), (4, p.toNat), (4, hx.toNat), (5, a.toNat), (5, d.toNat), (7, 46)] := ⟨of_decide_eq_true rfl, b.isLt, p.isLt, hx.isLt, a.isLt, d.isLt, of_decide_eq_true rfl, trivial⟩
  have hE : 0x5c000000 + d.toNat * 1048576 + a.toNat * 32768 + hx.toNat * 2048 + p.toNat * 128 + b.toNat * 4 = packed [(2, 0), (5, b.toNat), (4, p.toNat), (4, hx.toNat), (5, a.toNat), (5, d.toNat), (7, 46)] := by
    simp only [packed]
    clear hF hw; omega
  have hW := packed_word _ rfl hF hE hw
  clear hw
  have e0 := fld_eq (lo := 20) d hW (packed_at _ hF 5)
  have e1 := fld_eq (lo := 15) a hW (packed_at _ hF 4)
  have e2 := fld_eq (lo := 11) hx hW (packed_at _ hF 3)
  have e3 := fld_eq (lo := 7) p hW (packed_at _ hF 2)
  have e4 := fld_eq (lo := 2) b hW (packed_at _ hF 1)
  have z5 := nz_false (lo := 0) (len := 2) hW (packed_at _ hF 0)
  have hr : scalarRow w = some { instr := some (.barwait (fld w 20 5) (fld w 15 5) (fld w 11 4) (fld w 7 4) (fld w 2 5)), unused := nz w 0 2, avail := .seq } := by
    unfold scalarRow
    rw [fld_num (lo := 25) (len := 7) 46 hW (packed_at _ hF 6)]
    first | done | rfl
  change decodeWord .seq w = _
  refine decode_ok (p := .seq) (hW.trans hE.symm) (by omega) hr ?_
  refine check_ok rfl rfl ?_ rfl rfl rfl ?_
  · simp [e0, e1, e2, e3, e4, z5]
  · simp only [e0, e1, e2, e3, e4, z5]

theorem spawn (m : BitVec 4) : Statement (.spawn m) := by
  intro h w hw
  change (m != 0) = true at h
  try simp at h
  have hF : Fits [(4, m.toNat), (21, 0), (7, 48)] := ⟨m.isLt, of_decide_eq_true rfl, of_decide_eq_true rfl, trivial⟩
  have hE : 0x60000000 + m.toNat = packed [(4, m.toNat), (21, 0), (7, 48)] := by
    simp only [packed]
    clear hF hw; omega
  have hW := packed_word _ rfl hF hE hw
  clear hw
  have e0 := fld_eq (lo := 0) m hW (packed_at _ hF 0)
  have z1 := nz_false (lo := 4) (len := 21) hW (packed_at _ hF 1)
  have hN := hW.trans hE.symm
  have hb0 := m.isLt
  have z2 := nz_true (lo := 0) (len := 4) hN (by first | omega | (simp only [BitVec.toNat_eq] at h; simp at h; omega))
  have hr : scalarRow w = some { instr := some (.spawn (fld w 0 4)), unused := nz w 4 21, range := !nz w 0 4, avail := .seq } := by
    unfold scalarRow
    rw [fld_num (lo := 25) (len := 7) 48 hW (packed_at _ hF 2)]
    first | done | rfl
  change decodeWord .seq w = _
  refine decode_ok (p := .seq) (hW.trans hE.symm) (by omega) hr ?_
  refine check_ok rfl rfl ?_ ?_ rfl rfl ?_
  · simp [e0, z1, z2]
  · simp [e0, z1, z2]
  · simp only [e0, z1, z2]

theorem join  : Statement (.join) := by
  intro h w hw
  clear h
  have hF : Fits [(25, 0), (7, 49)] := ⟨of_decide_eq_true rfl, of_decide_eq_true rfl, trivial⟩
  have hE : 0x62000000 = packed [(25, 0), (7, 49)] := by
    simp only [packed]
    clear hF hw; omega
  have hW := packed_word _ rfl hF hE hw
  clear hw
  have z0 := nz_false (lo := 0) (len := 25) hW (packed_at _ hF 0)
  have hr : scalarRow w = some { instr := some (.join), unused := nz w 0 25, avail := .seq } := by
    unfold scalarRow
    rw [fld_num (lo := 25) (len := 7) 49 hW (packed_at _ hF 1)]
    first | done | rfl
  change decodeWord .seq w = _
  refine decode_ok (p := .seq) (hW.trans hE.symm) (by omega) hr ?_
  refine check_ok rfl rfl ?_ rfl rfl rfl ?_
  · simp [z0]
  · simp only [z0]

theorem halt  : Statement (.halt) := by
  intro h w hw
  clear h
  have hF : Fits [(25, 0), (7, 50)] := ⟨of_decide_eq_true rfl, of_decide_eq_true rfl, trivial⟩
  have hE : 0x64000000 = packed [(25, 0), (7, 50)] := by
    simp only [packed]
    clear hF hw; omega
  have hW := packed_word _ rfl hF hE hw
  clear hw
  have z0 := nz_false (lo := 0) (len := 25) hW (packed_at _ hF 0)
  have hr : scalarRow w = some { instr := some (.halt), unused := nz w 0 25, avail := .seq } := by
    unfold scalarRow
    rw [fld_num (lo := 25) (len := 7) 50 hW (packed_at _ hF 1)]
    first | done | rfl
  change decodeWord .seq w = _
  refine decode_ok (p := .seq) (hW.trans hE.symm) (by omega) hr ?_
  refine check_ok rfl rfl ?_ rfl rfl rfl ?_
  · simp [z0]
  · simp only [z0]

theorem hset (hx : BitVec 4) (a : BitVec 5) (b : BitVec 5) : Statement (.hset hx a b) := by
  intro h w hw
  clear h
  have hF : Fits [(10, 0), (5, b.toNat), (5, a.toNat), (4, hx.toNat), (1, 0), (7, 52)] := ⟨of_decide_eq_true rfl, b.isLt, a.isLt, hx.isLt, of_decide_eq_true rfl, of_decide_eq_true rfl, trivial⟩
  have hE : 0x68000000 + hx.toNat * 1048576 + a.toNat * 32768 + b.toNat * 1024 = packed [(10, 0), (5, b.toNat), (5, a.toNat), (4, hx.toNat), (1, 0), (7, 52)] := by
    simp only [packed]
    clear hF hw; omega
  have hW := packed_word _ rfl hF hE hw
  clear hw
  have e0 := fld_eq (lo := 20) hx hW (packed_at _ hF 3)
  have e1 := fld_eq (lo := 15) a hW (packed_at _ hF 2)
  have e2 := fld_eq (lo := 10) b hW (packed_at _ hF 1)
  have z3 := nz_false (lo := 0) (len := 10) hW (packed_at _ hF 0)
  have z4 := nz_false (lo := 24) (len := 1) hW (packed_at _ hF 4)
  have hr : scalarRow w = some { instr := some (.hset (fld w 20 4) (fld w 15 5) (fld w 10 5)), unused := nz w 0 10 || nz w 24 1, avail := .seq } := by
    unfold scalarRow
    rw [fld_num (lo := 25) (len := 7) 52 hW (packed_at _ hF 5)]
    first | done | rfl
  change decodeWord .seq w = _
  refine decode_ok (p := .seq) (hW.trans hE.symm) (by omega) hr ?_
  refine check_ok rfl rfl ?_ rfl rfl rfl ?_
  · simp [e0, e1, e2, z3, z4]
  · simp only [e0, e1, e2, z3, z4]

theorem setpar (a : BitVec 5) (p : BitVec 12) : Statement (.setpar a p) := by
  intro h w hw
  change (parWritable p) = true at h
  try simp at h
  have hF : Fits [(3, 0), (12, p.toNat), (5, a.toNat), (5, 0), (7, 53)] := ⟨of_decide_eq_true rfl, p.isLt, a.isLt, of_decide_eq_true rfl, of_decide_eq_true rfl, trivial⟩
  have hE : 0x6a000000 + a.toNat * 32768 + p.toNat * 8 = packed [(3, 0), (12, p.toNat), (5, a.toNat), (5, 0), (7, 53)] := by
    simp only [packed]
    clear hF hw; omega
  have hW := packed_word _ rfl hF hE hw
  clear hw
  have e0 := fld_eq (lo := 15) a hW (packed_at _ hF 2)
  have e1 := fld_eq (lo := 3) p hW (packed_at _ hF 1)
  have z2 := nz_false (lo := 0) (len := 3) hW (packed_at _ hF 0)
  have z3 := nz_false (lo := 20) (len := 5) hW (packed_at _ hF 3)
  have hr : scalarRow w = some { instr := some (.setpar (fld w 15 5) (fld w 3 12)), unused := nz w 0 3 || nz w 20 5, range := !parWritable (fld w 3 12), avail := .seq } := by
    unfold scalarRow
    rw [fld_num (lo := 25) (len := 7) 53 hW (packed_at _ hF 4)]
    first | done | rfl
  change decodeWord .seq w = _
  refine decode_ok (p := .seq) (hW.trans hE.symm) (by omega) hr ?_
  refine check_ok rfl rfl ?_ ?_ rfl rfl ?_
  · simp [e0, e1, z2, z3, h]
  · simp [e0, e1, z2, z3, h]
  · simp only [e0, e1, z2, z3]

theorem getpar (d : BitVec 5) (p : BitVec 12) : Statement (.getpar d p) := by
  intro h w hw
  change (parKnown p) = true at h
  try simp at h
  have hF : Fits [(3, 0), (12, p.toNat), (5, 0), (5, d.toNat), (7, 54)] := ⟨of_decide_eq_true rfl, p.isLt, of_decide_eq_true rfl, d.isLt, of_decide_eq_true rfl, trivial⟩
  have hE : 0x6c000000 + d.toNat * 1048576 + p.toNat * 8 = packed [(3, 0), (12, p.toNat), (5, 0), (5, d.toNat), (7, 54)] := by
    simp only [packed]
    clear hF hw; omega
  have hW := packed_word _ rfl hF hE hw
  clear hw
  have e0 := fld_eq (lo := 20) d hW (packed_at _ hF 3)
  have e1 := fld_eq (lo := 3) p hW (packed_at _ hF 1)
  have z2 := nz_false (lo := 0) (len := 3) hW (packed_at _ hF 0)
  have z3 := nz_false (lo := 15) (len := 5) hW (packed_at _ hF 2)
  have hr : scalarRow w = some { instr := some (.getpar (fld w 20 5) (fld w 3 12)), unused := nz w 0 3 || nz w 15 5, range := !parKnown (fld w 3 12), avail := .seq } := by
    unfold scalarRow
    rw [fld_num (lo := 25) (len := 7) 54 hW (packed_at _ hF 4)]
    first | done | rfl
  change decodeWord .seq w = _
  refine decode_ok (p := .seq) (hW.trans hE.symm) (by omega) hr ?_
  refine check_ok rfl rfl ?_ ?_ rfl rfl ?_
  · simp [e0, e1, z2, z3, h]
  · simp [e0, e1, z2, z3, h]
  · simp only [e0, e1, z2, z3]

theorem chpush (a : BitVec 5) (c : BitVec 6) : Statement (.chpush a c) := by
  intro h w hw
  clear h
  have hF : Fits [(6, c.toNat), (9, 0), (5, a.toNat), (5, 0), (7, 56)] := ⟨c.isLt, of_decide_eq_true rfl, a.isLt, of_decide_eq_true rfl, of_decide_eq_true rfl, trivial⟩
  have hE : 0x70000000 + a.toNat * 32768 + c.toNat = packed [(6, c.toNat), (9, 0), (5, a.toNat), (5, 0), (7, 56)] := by
    simp only [packed]
    clear hF hw; omega
  have hW := packed_word _ rfl hF hE hw
  clear hw
  have e0 := fld_eq (lo := 15) a hW (packed_at _ hF 2)
  have e1 := fld_eq (lo := 0) c hW (packed_at _ hF 0)
  have z2 := nz_false (lo := 20) (len := 5) hW (packed_at _ hF 3)
  have z3 := nz_false (lo := 6) (len := 9) hW (packed_at _ hF 1)
  have hr : scalarRow w = some { instr := some (.chpush (fld w 15 5) (fld w 0 6)), unused := nz w 6 9 || nz w 20 5, avail := .seq } := by
    unfold scalarRow
    rw [fld_num (lo := 25) (len := 7) 56 hW (packed_at _ hF 4)]
    first | done | rfl
  change decodeWord .seq w = _
  refine decode_ok (p := .seq) (hW.trans hE.symm) (by omega) hr ?_
  refine check_ok rfl rfl ?_ rfl rfl rfl ?_
  · simp [e0, e1, z2, z3]
  · simp only [e0, e1, z2, z3]

theorem chpop (d : BitVec 5) (c : BitVec 6) : Statement (.chpop d c) := by
  intro h w hw
  clear h
  have hF : Fits [(6, c.toNat), (14, 0), (5, d.toNat), (7, 57)] := ⟨c.isLt, of_decide_eq_true rfl, d.isLt, of_decide_eq_true rfl, trivial⟩
  have hE : 0x72000000 + d.toNat * 1048576 + c.toNat = packed [(6, c.toNat), (14, 0), (5, d.toNat), (7, 57)] := by
    simp only [packed]
    clear hF hw; omega
  have hW := packed_word _ rfl hF hE hw
  clear hw
  have e0 := fld_eq (lo := 20) d hW (packed_at _ hF 2)
  have e1 := fld_eq (lo := 0) c hW (packed_at _ hF 0)
  have z2 := nz_false (lo := 6) (len := 14) hW (packed_at _ hF 1)
  have hr : scalarRow w = some { instr := some (.chpop (fld w 20 5) (fld w 0 6)), unused := nz w 6 14, avail := .seq } := by
    unfold scalarRow
    rw [fld_num (lo := 25) (len := 7) 57 hW (packed_at _ hF 3)]
    first | done | rfl
  change decodeWord .seq w = _
  refine decode_ok (p := .seq) (hW.trans hE.symm) (by omega) hr ?_
  refine check_ok rfl rfl ?_ rfl rfl rfl ?_
  · simp [e0, e1, z2]
  · simp only [e0, e1, z2]

theorem tkwait (m : BitVec 3) : Statement (.tkwait m) := by
  intro h w hw
  change (m != 0) = true at h
  try simp at h
  have hF : Fits [(3, m.toNat), (22, 0), (7, 60)] := ⟨m.isLt, of_decide_eq_true rfl, of_decide_eq_true rfl, trivial⟩
  have hE : 0x78000000 + m.toNat = packed [(3, m.toNat), (22, 0), (7, 60)] := by
    simp only [packed]
    clear hF hw; omega
  have hW := packed_word _ rfl hF hE hw
  clear hw
  have e0 := fld_eq (lo := 0) m hW (packed_at _ hF 0)
  have z1 := nz_false (lo := 3) (len := 22) hW (packed_at _ hF 1)
  have hN := hW.trans hE.symm
  have hb0 := m.isLt
  have z2 := nz_true (lo := 0) (len := 3) hN (by first | omega | (simp only [BitVec.toNat_eq] at h; simp at h; omega))
  have hr : scalarRow w = some { instr := some (.tkwait (fld w 0 3)), unused := nz w 3 22, range := !nz w 0 3, avail := .seq } := by
    unfold scalarRow
    rw [fld_num (lo := 25) (len := 7) 60 hW (packed_at _ hF 2)]
    first | done | rfl
  change decodeWord .seq w = _
  refine decode_ok (p := .seq) (hW.trans hE.symm) (by omega) hr ?_
  refine check_ok rfl rfl ?_ ?_ rfl rfl ?_
  · simp [e0, z1, z2]
  · simp [e0, z1, z2]
  · simp only [e0, z1, z2]

theorem tksig (m : BitVec 4) : Statement (.tksig m) := by
  intro h w hw
  change (m != 0) = true at h
  try simp at h
  have hF : Fits [(4, m.toNat), (21, 0), (7, 61)] := ⟨m.isLt, of_decide_eq_true rfl, of_decide_eq_true rfl, trivial⟩
  have hE : 0x7a000000 + m.toNat = packed [(4, m.toNat), (21, 0), (7, 61)] := by
    simp only [packed]
    clear hF hw; omega
  have hW := packed_word _ rfl hF hE hw
  clear hw
  have e0 := fld_eq (lo := 0) m hW (packed_at _ hF 0)
  have z1 := nz_false (lo := 4) (len := 21) hW (packed_at _ hF 1)
  have hN := hW.trans hE.symm
  have hb0 := m.isLt
  have z2 := nz_true (lo := 0) (len := 4) hN (by first | omega | (simp only [BitVec.toNat_eq] at h; simp at h; omega))
  have hr : scalarRow w = some { instr := some (.tksig (fld w 0 4)), unused := nz w 4 21, range := !nz w 0 4, avail := .seq } := by
    unfold scalarRow
    rw [fld_num (lo := 25) (len := 7) 61 hW (packed_at _ hF 2)]
    first | done | rfl
  change decodeWord .seq w = _
  refine decode_ok (p := .seq) (hW.trans hE.symm) (by omega) hr ?_
  refine check_ok rfl rfl ?_ ?_ rfl rfl ?_
  · simp [e0, z1, z2]
  · simp [e0, z1, z2]
  · simp only [e0, z1, z2]

theorem rowwait (d : BitVec 5) (a : BitVec 5) (b : BitVec 5) (t : BitVec 5) : Statement (.rowwait d a b t) := by
  intro h w hw
  clear h
  have hF : Fits [(5, 0), (5, t.toNat), (5, b.toNat), (5, a.toNat), (5, d.toNat), (7, 64)] := ⟨of_decide_eq_true rfl, t.isLt, b.isLt, a.isLt, d.isLt, of_decide_eq_true rfl, trivial⟩
  have hE : 0x80000000 + d.toNat * 1048576 + a.toNat * 32768 + b.toNat * 1024 + t.toNat * 32 = packed [(5, 0), (5, t.toNat), (5, b.toNat), (5, a.toNat), (5, d.toNat), (7, 64)] := by
    simp only [packed]
    clear hF hw; omega
  have hW := packed_word _ rfl hF hE hw
  clear hw
  have e0 := fld_eq (lo := 20) d hW (packed_at _ hF 4)
  have e1 := fld_eq (lo := 15) a hW (packed_at _ hF 3)
  have e2 := fld_eq (lo := 10) b hW (packed_at _ hF 2)
  have e3 := fld_eq (lo := 5) t hW (packed_at _ hF 1)
  have z4 := nz_false (lo := 0) (len := 5) hW (packed_at _ hF 0)
  have hr : scalarRow w = some { instr := some (.rowwait (fld w 20 5) (fld w 15 5) (fld w 10 5) (fld w 5 5)), unused := nz w 0 5, avail := .seq } := by
    unfold scalarRow
    rw [fld_num (lo := 25) (len := 7) 64 hW (packed_at _ hF 5)]
    first | done | rfl
  change decodeWord .seq w = _
  refine decode_ok (p := .seq) (hW.trans hE.symm) (by omega) hr ?_
  refine check_ok rfl rfl ?_ rfl rfl rfl ?_
  · simp [e0, e1, e2, e3, z4]
  · simp only [e0, e1, e2, e3, z4]

theorem rowpub (a : BitVec 5) (b : BitVec 5) : Statement (.rowpub a b) := by
  intro h w hw
  clear h
  have hF : Fits [(10, 0), (5, b.toNat), (5, a.toNat), (5, 0), (7, 65)] := ⟨of_decide_eq_true rfl, b.isLt, a.isLt, of_decide_eq_true rfl, of_decide_eq_true rfl, trivial⟩
  have hE : 0x82000000 + a.toNat * 32768 + b.toNat * 1024 = packed [(10, 0), (5, b.toNat), (5, a.toNat), (5, 0), (7, 65)] := by
    simp only [packed]
    clear hF hw; omega
  have hW := packed_word _ rfl hF hE hw
  clear hw
  have e0 := fld_eq (lo := 15) a hW (packed_at _ hF 2)
  have e1 := fld_eq (lo := 10) b hW (packed_at _ hF 1)
  have z2 := nz_false (lo := 0) (len := 10) hW (packed_at _ hF 0)
  have z3 := nz_false (lo := 20) (len := 5) hW (packed_at _ hF 3)
  have hr : scalarRow w = some { instr := some (.rowpub (fld w 15 5) (fld w 10 5)), unused := nz w 0 10 || nz w 20 5, avail := .seq } := by
    unfold scalarRow
    rw [fld_num (lo := 25) (len := 7) 65 hW (packed_at _ hF 4)]
    first | done | rfl
  change decodeWord .seq w = _
  refine decode_ok (p := .seq) (hW.trans hE.symm) (by omega) hr ?_
  refine check_ok rfl rfl ?_ rfl rfl rfl ?_
  · simp [e0, e1, z2, z3]
  · simp only [e0, e1, z2, z3]

theorem frmwait (d : BitVec 5) (a : BitVec 5) (t : BitVec 5) : Statement (.frmwait d a t) := by
  intro h w hw
  clear h
  have hF : Fits [(5, 0), (5, t.toNat), (5, 0), (5, a.toNat), (5, d.toNat), (7, 66)] := ⟨of_decide_eq_true rfl, t.isLt, of_decide_eq_true rfl, a.isLt, d.isLt, of_decide_eq_true rfl, trivial⟩
  have hE : 0x84000000 + d.toNat * 1048576 + a.toNat * 32768 + t.toNat * 32 = packed [(5, 0), (5, t.toNat), (5, 0), (5, a.toNat), (5, d.toNat), (7, 66)] := by
    simp only [packed]
    clear hF hw; omega
  have hW := packed_word _ rfl hF hE hw
  clear hw
  have e0 := fld_eq (lo := 20) d hW (packed_at _ hF 4)
  have e1 := fld_eq (lo := 15) a hW (packed_at _ hF 3)
  have e2 := fld_eq (lo := 5) t hW (packed_at _ hF 1)
  have z3 := nz_false (lo := 0) (len := 5) hW (packed_at _ hF 0)
  have z4 := nz_false (lo := 10) (len := 5) hW (packed_at _ hF 2)
  have hr : scalarRow w = some { instr := some (.frmwait (fld w 20 5) (fld w 15 5) (fld w 5 5)), unused := nz w 0 5 || nz w 10 5, avail := .seq } := by
    unfold scalarRow
    rw [fld_num (lo := 25) (len := 7) 66 hW (packed_at _ hF 5)]
    first | done | rfl
  change decodeWord .seq w = _
  refine decode_ok (p := .seq) (hW.trans hE.symm) (by omega) hr ?_
  refine check_ok rfl rfl ?_ rfl rfl rfl ?_
  · simp [e0, e1, e2, z3, z4]
  · simp only [e0, e1, e2, z3, z4]

theorem sqarm (a : BitVec 5) (g : BitVec 6) : Statement (.sqarm a g) := by
  intro h w hw
  clear h
  have hF : Fits [(6, g.toNat), (9, 0), (5, a.toNat), (5, 0), (7, 67)] := ⟨g.isLt, of_decide_eq_true rfl, a.isLt, of_decide_eq_true rfl, of_decide_eq_true rfl, trivial⟩
  have hE : 0x86000000 + a.toNat * 32768 + g.toNat = packed [(6, g.toNat), (9, 0), (5, a.toNat), (5, 0), (7, 67)] := by
    simp only [packed]
    clear hF hw; omega
  have hW := packed_word _ rfl hF hE hw
  clear hw
  have e0 := fld_eq (lo := 15) a hW (packed_at _ hF 2)
  have e1 := fld_eq (lo := 0) g hW (packed_at _ hF 0)
  have z2 := nz_false (lo := 20) (len := 5) hW (packed_at _ hF 3)
  have z3 := nz_false (lo := 6) (len := 9) hW (packed_at _ hF 1)
  have hr : scalarRow w = some { instr := some (.sqarm (fld w 15 5) (fld w 0 6)), unused := nz w 6 9 || nz w 20 5, avail := .seq } := by
    unfold scalarRow
    rw [fld_num (lo := 25) (len := 7) 67 hW (packed_at _ hF 4)]
    first | done | rfl
  change decodeWord .seq w = _
  refine decode_ok (p := .seq) (hW.trans hE.symm) (by omega) hr ?_
  refine check_ok rfl rfl ?_ rfl rfl rfl ?_
  · simp [e0, e1, z2, z3]
  · simp only [e0, e1, z2, z3]

theorem sqwait (d : BitVec 5) (b : BitVec 5) (g : BitVec 6) : Statement (.sqwait d b g) := by
  intro h w hw
  clear h
  have hF : Fits [(6, g.toNat), (9, 0), (5, b.toNat), (5, d.toNat), (7, 68)] := ⟨g.isLt, of_decide_eq_true rfl, b.isLt, d.isLt, of_decide_eq_true rfl, trivial⟩
  have hE : 0x88000000 + d.toNat * 1048576 + b.toNat * 32768 + g.toNat = packed [(6, g.toNat), (9, 0), (5, b.toNat), (5, d.toNat), (7, 68)] := by
    simp only [packed]
    clear hF hw; omega
  have hW := packed_word _ rfl hF hE hw
  clear hw
  have e0 := fld_eq (lo := 20) d hW (packed_at _ hF 3)
  have e1 := fld_eq (lo := 15) b hW (packed_at _ hF 2)
  have e2 := fld_eq (lo := 0) g hW (packed_at _ hF 0)
  have z3 := nz_false (lo := 6) (len := 9) hW (packed_at _ hF 1)
  have hr : scalarRow w = some { instr := some (.sqwait (fld w 20 5) (fld w 15 5) (fld w 0 6)), unused := nz w 6 9, avail := .seq } := by
    unfold scalarRow
    rw [fld_num (lo := 25) (len := 7) 68 hW (packed_at _ hF 4)]
    first | done | rfl
  change decodeWord .seq w = _
  refine decode_ok (p := .seq) (hW.trans hE.symm) (by omega) hr ?_
  refine check_ok rfl rfl ?_ rfl rfl rfl ?_
  · simp [e0, e1, e2, z3]
  · simp only [e0, e1, e2, z3]

theorem sqrel (g : BitVec 6) : Statement (.sqrel g) := by
  intro h w hw
  clear h
  have hF : Fits [(6, g.toNat), (19, 0), (7, 69)] := ⟨g.isLt, of_decide_eq_true rfl, of_decide_eq_true rfl, trivial⟩
  have hE : 0x8a000000 + g.toNat = packed [(6, g.toNat), (19, 0), (7, 69)] := by
    simp only [packed]
    clear hF hw; omega
  have hW := packed_word _ rfl hF hE hw
  clear hw
  have e0 := fld_eq (lo := 0) g hW (packed_at _ hF 0)
  have z1 := nz_false (lo := 6) (len := 19) hW (packed_at _ hF 1)
  have hr : scalarRow w = some { instr := some (.sqrel (fld w 0 6)), unused := nz w 6 19, avail := .seq } := by
    unfold scalarRow
    rw [fld_num (lo := 25) (len := 7) 69 hW (packed_at _ hF 2)]
    first | done | rfl
  change decodeWord .seq w = _
  refine decode_ok (p := .seq) (hW.trans hE.symm) (by omega) hr ?_
  refine check_ok rfl rfl ?_ rfl rfl rfl ?_
  · simp [e0, z1]
  · simp only [e0, z1]

theorem tsread (d : BitVec 5) : Statement (.tsread d) := by
  intro h w hw
  clear h
  have hF : Fits [(20, 0), (5, d.toNat), (7, 70)] := ⟨of_decide_eq_true rfl, d.isLt, of_decide_eq_true rfl, trivial⟩
  have hE : 0x8c000000 + d.toNat * 1048576 = packed [(20, 0), (5, d.toNat), (7, 70)] := by
    simp only [packed]
    clear hF hw; omega
  have hW := packed_word _ rfl hF hE hw
  clear hw
  have e0 := fld_eq (lo := 20) d hW (packed_at _ hF 1)
  have z1 := nz_false (lo := 0) (len := 20) hW (packed_at _ hF 0)
  have hr : scalarRow w = some { instr := some (.tsread (fld w 20 5)), unused := nz w 0 20 } := by
    unfold scalarRow
    rw [fld_num (lo := 25) (len := 7) 70 hW (packed_at _ hF 2)]
    first | done | rfl
  change decodeWord .seq w = _
  refine decode_ok (p := .seq) (hW.trans hE.symm) (by omega) hr ?_
  refine check_ok rfl rfl ?_ rfl rfl rfl ?_
  · simp [e0, z1]
  · simp only [e0, z1]

theorem ctrr (d : BitVec 5) (n : BitVec 12) : Statement (.ctrr d n) := by
  intro h w hw
  clear h
  have hF : Fits [(3, 0), (12, n.toNat), (5, 0), (5, d.toNat), (7, 71)] := ⟨of_decide_eq_true rfl, n.isLt, of_decide_eq_true rfl, d.isLt, of_decide_eq_true rfl, trivial⟩
  have hE : 0x8e000000 + d.toNat * 1048576 + n.toNat * 8 = packed [(3, 0), (12, n.toNat), (5, 0), (5, d.toNat), (7, 71)] := by
    simp only [packed]
    clear hF hw; omega
  have hW := packed_word _ rfl hF hE hw
  clear hw
  have e0 := fld_eq (lo := 20) d hW (packed_at _ hF 3)
  have e1 := fld_eq (lo := 3) n hW (packed_at _ hF 1)
  have z2 := nz_false (lo := 0) (len := 3) hW (packed_at _ hF 0)
  have z3 := nz_false (lo := 15) (len := 5) hW (packed_at _ hF 2)
  have hr : scalarRow w = some { instr := some (.ctrr (fld w 20 5) (fld w 3 12)), unused := nz w 0 3 || nz w 15 5 } := by
    unfold scalarRow
    rw [fld_num (lo := 25) (len := 7) 71 hW (packed_at _ hF 4)]
    first | done | rfl
  change decodeWord .seq w = _
  refine decode_ok (p := .seq) (hW.trans hE.symm) (by omega) hr ?_
  refine check_ok rfl rfl ?_ rfl rfl rfl ?_
  · simp [e0, e1, z2, z3]
  · simp only [e0, e1, z2, z3]

theorem jwait (d : BitVec 5) : Statement (.jwait d) := by
  intro h w hw
  clear h
  have hF : Fits [(20, 0), (5, d.toNat), (7, 72)] := ⟨of_decide_eq_true rfl, d.isLt, of_decide_eq_true rfl, trivial⟩
  have hE : 0x90000000 + d.toNat * 1048576 = packed [(20, 0), (5, d.toNat), (7, 72)] := by
    simp only [packed]
    clear hF hw; omega
  have hW := packed_word _ rfl hF hE hw
  clear hw
  have e0 := fld_eq (lo := 20) d hW (packed_at _ hF 1)
  have z1 := nz_false (lo := 0) (len := 20) hW (packed_at _ hF 0)
  have hr : scalarRow w = some { instr := some (.jwait (fld w 20 5)), unused := nz w 0 20, avail := .jointer } := by
    unfold scalarRow
    rw [fld_num (lo := 25) (len := 7) 72 hW (packed_at _ hF 2)]
    first | done | rfl
  change decodeWord (.jointerScalar true) w = _
  refine decode_ok (p := (.jointerScalar true)) (hW.trans hE.symm) (by omega) hr ?_
  refine check_ok rfl rfl ?_ rfl rfl rfl ?_
  · simp [e0, z1]
  · simp only [e0, z1]

theorem jline (v : BitVec 4) (a : BitVec 5) (im : BitVec 15) : Statement (.jline v a im) := by
  intro h w hw
  clear h
  have hF : Fits [(15, im.toNat), (5, a.toNat), (4, v.toNat), (1, 0), (7, 73)] := ⟨im.isLt, a.isLt, v.isLt, of_decide_eq_true rfl, of_decide_eq_true rfl, trivial⟩
  have hE : 0x92000000 + v.toNat * 1048576 + a.toNat * 32768 + im.toNat = packed [(15, im.toNat), (5, a.toNat), (4, v.toNat), (1, 0), (7, 73)] := by
    simp only [packed]
    clear hF hw; omega
  have hW := packed_word _ rfl hF hE hw
  clear hw
  have e0 := fld_eq (lo := 20) v hW (packed_at _ hF 2)
  have e1 := fld_eq (lo := 15) a hW (packed_at _ hF 1)
  have e2 := fld_eq (lo := 0) im hW (packed_at _ hF 0)
  have z3 := nz_false (lo := 24) (len := 1) hW (packed_at _ hF 3)
  have hr : scalarRow w = some { instr := some (.jline (fld w 20 4) (fld w 15 5) (fld w 0 15)), range := nz w 24 1, avail := .jointer } := by
    unfold scalarRow
    rw [fld_num (lo := 25) (len := 7) 73 hW (packed_at _ hF 4)]
    first | done | rfl
  change decodeWord (.jointerScalar true) w = _
  refine decode_ok (p := (.jointerScalar true)) (hW.trans hE.symm) (by omega) hr ?_
  refine check_ok rfl rfl rfl ?_ rfl rfl ?_
  · simp [e0, e1, e2, z3]
  · simp only [e0, e1, e2, z3]

theorem jemit (v : BitVec 4) (a : BitVec 5) (im : BitVec 15) : Statement (.jemit v a im) := by
  intro h w hw
  clear h
  have hF : Fits [(15, im.toNat), (5, a.toNat), (4, v.toNat), (1, 0), (7, 74)] := ⟨im.isLt, a.isLt, v.isLt, of_decide_eq_true rfl, of_decide_eq_true rfl, trivial⟩
  have hE : 0x94000000 + v.toNat * 1048576 + a.toNat * 32768 + im.toNat = packed [(15, im.toNat), (5, a.toNat), (4, v.toNat), (1, 0), (7, 74)] := by
    simp only [packed]
    clear hF hw; omega
  have hW := packed_word _ rfl hF hE hw
  clear hw
  have e0 := fld_eq (lo := 20) v hW (packed_at _ hF 2)
  have e1 := fld_eq (lo := 15) a hW (packed_at _ hF 1)
  have e2 := fld_eq (lo := 0) im hW (packed_at _ hF 0)
  have z3 := nz_false (lo := 24) (len := 1) hW (packed_at _ hF 3)
  have hr : scalarRow w = some { instr := some (.jemit (fld w 20 4) (fld w 15 5) (fld w 0 15)), range := nz w 24 1, avail := .jointer } := by
    unfold scalarRow
    rw [fld_num (lo := 25) (len := 7) 74 hW (packed_at _ hF 4)]
    first | done | rfl
  change decodeWord (.jointerScalar true) w = _
  refine decode_ok (p := (.jointerScalar true)) (hW.trans hE.symm) (by omega) hr ?_
  refine check_ok rfl rfl rfl ?_ rfl rfl ?_
  · simp [e0, e1, e2, z3]
  · simp only [e0, e1, e2, z3]

theorem jrow  : Statement (.jrow) := by
  intro h w hw
  clear h
  have hF : Fits [(25, 0), (7, 75)] := ⟨of_decide_eq_true rfl, of_decide_eq_true rfl, trivial⟩
  have hE : 0x96000000 = packed [(25, 0), (7, 75)] := by
    simp only [packed]
    clear hF hw; omega
  have hW := packed_word _ rfl hF hE hw
  clear hw
  have z0 := nz_false (lo := 0) (len := 25) hW (packed_at _ hF 0)
  have hr : scalarRow w = some { instr := some (.jrow), unused := nz w 0 25, avail := .jointer } := by
    unfold scalarRow
    rw [fld_num (lo := 25) (len := 7) 75 hW (packed_at _ hF 1)]
    first | done | rfl
  change decodeWord (.jointerScalar true) w = _
  refine decode_ok (p := (.jointerScalar true)) (hW.trans hE.symm) (by omega) hr ?_
  refine check_ok rfl rfl ?_ rfl rfl rfl ?_
  · simp [z0]
  · simp only [z0]

theorem jsub (r : BitVec 2) : Statement (.jsub r) := by
  intro h w hw
  clear h
  have hF : Fits [(2, r.toNat), (23, 0), (7, 76)] := ⟨r.isLt, of_decide_eq_true rfl, of_decide_eq_true rfl, trivial⟩
  have hE : 0x98000000 + r.toNat = packed [(2, r.toNat), (23, 0), (7, 76)] := by
    simp only [packed]
    clear hF hw; omega
  have hW := packed_word _ rfl hF hE hw
  clear hw
  have e0 := fld_eq (lo := 0) r hW (packed_at _ hF 0)
  have z1 := nz_false (lo := 2) (len := 23) hW (packed_at _ hF 1)
  have hr : scalarRow w = some { instr := some (.jsub (fld w 0 2)), unused := nz w 2 23, avail := .jointer } := by
    unfold scalarRow
    rw [fld_num (lo := 25) (len := 7) 76 hW (packed_at _ hF 2)]
    first | done | rfl
  change decodeWord (.jointerScalar true) w = _
  refine decode_ok (p := (.jointerScalar true)) (hW.trans hE.symm) (by omega) hr ?_
  refine check_ok rfl rfl ?_ rfl rfl rfl ?_
  · simp [e0, z1]
  · simp only [e0, z1]

theorem jstat (d : BitVec 5) (n : BitVec 4) : Statement (.jstat d n) := by
  intro h w hw
  change (decide (n.toNat ≤ 8)) = true at h
  try simp at h
  have hF : Fits [(4, n.toNat), (16, 0), (5, d.toNat), (7, 77)] := ⟨n.isLt, of_decide_eq_true rfl, d.isLt, of_decide_eq_true rfl, trivial⟩
  have hE : 0x9a000000 + d.toNat * 1048576 + n.toNat = packed [(4, n.toNat), (16, 0), (5, d.toNat), (7, 77)] := by
    simp only [packed]
    clear hF hw; omega
  have hW := packed_word _ rfl hF hE hw
  clear hw
  have e0 := fld_eq (lo := 20) d hW (packed_at _ hF 2)
  have e1 := fld_eq (lo := 0) n hW (packed_at _ hF 0)
  have z2 := nz_false (lo := 4) (len := 16) hW (packed_at _ hF 1)
  have hr : scalarRow w = some { instr := some (.jstat (fld w 20 5) (fld w 0 4)), unused := nz w 4 16, range := decide ((fld w 0 4).toNat > 8), avail := .jointer } := by
    unfold scalarRow
    rw [fld_num (lo := 25) (len := 7) 77 hW (packed_at _ hF 3)]
    first | done | rfl
  change decodeWord (.jointerScalar true) w = _
  refine decode_ok (p := (.jointerScalar true)) (hW.trans hE.symm) (by omega) hr ?_
  refine check_ok rfl rfl ?_ ?_ rfl rfl ?_
  · simp [e0, e1, z2, h]
  · simp [e0, e1, z2, h]
  · simp only [e0, e1, z2]

theorem jtile (a : BitVec 5) : Statement (.jtile a) := by
  intro h w hw
  clear h
  have hF : Fits [(15, 0), (5, a.toNat), (5, 0), (7, 78)] := ⟨of_decide_eq_true rfl, a.isLt, of_decide_eq_true rfl, of_decide_eq_true rfl, trivial⟩
  have hE : 0x9c000000 + a.toNat * 32768 = packed [(15, 0), (5, a.toNat), (5, 0), (7, 78)] := by
    simp only [packed]
    clear hF hw; omega
  have hW := packed_word _ rfl hF hE hw
  clear hw
  have e0 := fld_eq (lo := 15) a hW (packed_at _ hF 1)
  have z1 := nz_false (lo := 0) (len := 15) hW (packed_at _ hF 0)
  have z2 := nz_false (lo := 20) (len := 5) hW (packed_at _ hF 2)
  have hr : scalarRow w = some { instr := some (.jtile (fld w 15 5)), unused := nz w 0 15 || nz w 20 5, avail := .lastJointer } := by
    unfold scalarRow
    rw [fld_num (lo := 25) (len := 7) 78 hW (packed_at _ hF 3)]
    first | done | rfl
  change decodeWord (.jointerScalar true) w = _
  refine decode_ok (p := (.jointerScalar true)) (hW.trans hE.symm) (by omega) hr ?_
  refine check_ok rfl rfl ?_ rfl rfl rfl ?_
  · simp [e0, z1, z2]
  · simp only [e0, z1, z2]

theorem csrr (d : BitVec 5) (n : BitVec 12) : Statement (.csrr d n) := by
  intro h w hw
  clear h
  have hF : Fits [(3, 0), (12, n.toNat), (5, 0), (5, d.toNat), (7, 80)] := ⟨of_decide_eq_true rfl, n.isLt, of_decide_eq_true rfl, d.isLt, of_decide_eq_true rfl, trivial⟩
  have hE : 0xa0000000 + d.toNat * 1048576 + n.toNat * 8 = packed [(3, 0), (12, n.toNat), (5, 0), (5, d.toNat), (7, 80)] := by
    simp only [packed]
    clear hF hw; omega
  have hW := packed_word _ rfl hF hE hw
  clear hw
  have e0 := fld_eq (lo := 20) d hW (packed_at _ hF 3)
  have e1 := fld_eq (lo := 3) n hW (packed_at _ hF 1)
  have z2 := nz_false (lo := 0) (len := 3) hW (packed_at _ hF 0)
  have z3 := nz_false (lo := 15) (len := 5) hW (packed_at _ hF 2)
  have hr : scalarRow w = some { instr := some (.csrr (fld w 20 5) (fld w 3 12)), unused := nz w 0 3 || nz w 15 5 } := by
    unfold scalarRow
    rw [fld_num (lo := 25) (len := 7) 80 hW (packed_at _ hF 4)]
    first | done | rfl
  change decodeWord .seq w = _
  refine decode_ok (p := .seq) (hW.trans hE.symm) (by omega) hr ?_
  refine check_ok rfl rfl ?_ rfl rfl rfl ?_
  · simp [e0, e1, z2, z3]
  · simp only [e0, e1, z2, z3]

theorem csrw (d : BitVec 5) (a : BitVec 5) (n : BitVec 12) : Statement (.csrw d a n) := by
  intro h w hw
  clear h
  have hF : Fits [(3, 0), (12, n.toNat), (5, a.toNat), (5, d.toNat), (7, 81)] := ⟨of_decide_eq_true rfl, n.isLt, a.isLt, d.isLt, of_decide_eq_true rfl, trivial⟩
  have hE : 0xa2000000 + d.toNat * 1048576 + a.toNat * 32768 + n.toNat * 8 = packed [(3, 0), (12, n.toNat), (5, a.toNat), (5, d.toNat), (7, 81)] := by
    simp only [packed]
    clear hF hw; omega
  have hW := packed_word _ rfl hF hE hw
  clear hw
  have e0 := fld_eq (lo := 20) d hW (packed_at _ hF 3)
  have e1 := fld_eq (lo := 15) a hW (packed_at _ hF 2)
  have e2 := fld_eq (lo := 3) n hW (packed_at _ hF 1)
  have z3 := nz_false (lo := 0) (len := 3) hW (packed_at _ hF 0)
  have hr : scalarRow w = some { instr := some (.csrw (fld w 20 5) (fld w 15 5) (fld w 3 12)), unused := nz w 0 3, avail := .seq } := by
    unfold scalarRow
    rw [fld_num (lo := 25) (len := 7) 81 hW (packed_at _ hF 4)]
    first | done | rfl
  change decodeWord .seq w = _
  refine decode_ok (p := .seq) (hW.trans hE.symm) (by omega) hr ?_
  refine check_ok rfl rfl ?_ rfl rfl rfl ?_
  · simp [e0, e1, e2, z3]
  · simp only [e0, e1, e2, z3]

theorem csrs (d : BitVec 5) (a : BitVec 5) (n : BitVec 12) : Statement (.csrs d a n) := by
  intro h w hw
  clear h
  have hF : Fits [(3, 0), (12, n.toNat), (5, a.toNat), (5, d.toNat), (7, 82)] := ⟨of_decide_eq_true rfl, n.isLt, a.isLt, d.isLt, of_decide_eq_true rfl, trivial⟩
  have hE : 0xa4000000 + d.toNat * 1048576 + a.toNat * 32768 + n.toNat * 8 = packed [(3, 0), (12, n.toNat), (5, a.toNat), (5, d.toNat), (7, 82)] := by
    simp only [packed]
    clear hF hw; omega
  have hW := packed_word _ rfl hF hE hw
  clear hw
  have e0 := fld_eq (lo := 20) d hW (packed_at _ hF 3)
  have e1 := fld_eq (lo := 15) a hW (packed_at _ hF 2)
  have e2 := fld_eq (lo := 3) n hW (packed_at _ hF 1)
  have z3 := nz_false (lo := 0) (len := 3) hW (packed_at _ hF 0)
  have hr : scalarRow w = some { instr := some (.csrs (fld w 20 5) (fld w 15 5) (fld w 3 12)), unused := nz w 0 3, avail := .seq } := by
    unfold scalarRow
    rw [fld_num (lo := 25) (len := 7) 82 hW (packed_at _ hF 4)]
    first | done | rfl
  change decodeWord .seq w = _
  refine decode_ok (p := .seq) (hW.trans hE.symm) (by omega) hr ?_
  refine check_ok rfl rfl ?_ rfl rfl rfl ?_
  · simp [e0, e1, e2, z3]
  · simp only [e0, e1, e2, z3]

theorem csrc (d : BitVec 5) (a : BitVec 5) (n : BitVec 12) : Statement (.csrc d a n) := by
  intro h w hw
  clear h
  have hF : Fits [(3, 0), (12, n.toNat), (5, a.toNat), (5, d.toNat), (7, 83)] := ⟨of_decide_eq_true rfl, n.isLt, a.isLt, d.isLt, of_decide_eq_true rfl, trivial⟩
  have hE : 0xa6000000 + d.toNat * 1048576 + a.toNat * 32768 + n.toNat * 8 = packed [(3, 0), (12, n.toNat), (5, a.toNat), (5, d.toNat), (7, 83)] := by
    simp only [packed]
    clear hF hw; omega
  have hW := packed_word _ rfl hF hE hw
  clear hw
  have e0 := fld_eq (lo := 20) d hW (packed_at _ hF 3)
  have e1 := fld_eq (lo := 15) a hW (packed_at _ hF 2)
  have e2 := fld_eq (lo := 3) n hW (packed_at _ hF 1)
  have z3 := nz_false (lo := 0) (len := 3) hW (packed_at _ hF 0)
  have hr : scalarRow w = some { instr := some (.csrc (fld w 20 5) (fld w 15 5) (fld w 3 12)), unused := nz w 0 3, avail := .seq } := by
    unfold scalarRow
    rw [fld_num (lo := 25) (len := 7) 83 hW (packed_at _ hF 4)]
    first | done | rfl
  change decodeWord .seq w = _
  refine decode_ok (p := .seq) (hW.trans hE.symm) (by omega) hr ?_
  refine check_ok rfl rfl ?_ rfl rfl rfl ?_
  · simp [e0, e1, e2, z3]
  · simp only [e0, e1, e2, z3]

theorem trap (n : BitVec 4) : Statement (.trap n) := by
  intro h w hw
  clear h
  have hF : Fits [(4, n.toNat), (21, 0), (7, 84)] := ⟨n.isLt, of_decide_eq_true rfl, of_decide_eq_true rfl, trivial⟩
  have hE : 0xa8000000 + n.toNat = packed [(4, n.toNat), (21, 0), (7, 84)] := by
    simp only [packed]
    clear hF hw; omega
  have hW := packed_word _ rfl hF hE hw
  clear hw
  have e0 := fld_eq (lo := 0) n hW (packed_at _ hF 0)
  have z1 := nz_false (lo := 4) (len := 21) hW (packed_at _ hF 1)
  have hr : scalarRow w = some { instr := some (.trap (fld w 0 4)), unused := nz w 4 21 } := by
    unfold scalarRow
    rw [fld_num (lo := 25) (len := 7) 84 hW (packed_at _ hF 2)]
    first | done | rfl
  change decodeWord .seq w = _
  refine decode_ok (p := .seq) (hW.trans hE.symm) (by omega) hr ?_
  refine check_ok rfl rfl ?_ rfl rfl rfl ?_
  · simp [e0, z1]
  · simp only [e0, z1]

theorem tret  : Statement (.tret) := by
  intro h w hw
  clear h
  have hF : Fits [(25, 0), (7, 85)] := ⟨of_decide_eq_true rfl, of_decide_eq_true rfl, trivial⟩
  have hE : 0xaa000000 = packed [(25, 0), (7, 85)] := by
    simp only [packed]
    clear hF hw; omega
  have hW := packed_word _ rfl hF hE hw
  clear hw
  have z0 := nz_false (lo := 0) (len := 25) hW (packed_at _ hF 0)
  have hr : scalarRow w = some { instr := some (.tret), unused := nz w 0 25, avail := .seq } := by
    unfold scalarRow
    rw [fld_num (lo := 25) (len := 7) 85 hW (packed_at _ hF 1)]
    first | done | rfl
  change decodeWord .seq w = _
  refine decode_ok (p := .seq) (hW.trans hE.symm) (by omega) hr ?_
  refine check_ok rfl rfl ?_ rfl rfl rfl ?_
  · simp [z0]
  · simp only [z0]

theorem waitev (d : BitVec 5) (m : BitVec 8) : Statement (.waitev d m) := by
  intro h w hw
  change (m != 0 && decide (m.toNat < 64)) = true at h
  try simp at h
  have hF : Fits [(8, m.toNat), (12, 0), (5, d.toNat), (7, 86)] := ⟨m.isLt, of_decide_eq_true rfl, d.isLt, of_decide_eq_true rfl, trivial⟩
  have hE : 0xac000000 + d.toNat * 1048576 + m.toNat = packed [(8, m.toNat), (12, 0), (5, d.toNat), (7, 86)] := by
    simp only [packed]
    clear hF hw; omega
  have hW := packed_word _ rfl hF hE hw
  clear hw
  have e0 := fld_eq (lo := 20) d hW (packed_at _ hF 2)
  have e1 := fld_eq (lo := 0) m hW (packed_at _ hF 0)
  have hN := hW.trans hE.symm
  have hb0 := d.isLt
  have hb1 := m.isLt
  have z2 := nz_false (lo := 6) (len := 2) hN (by first | omega | (simp only [BitVec.toNat_eq] at h; simp at h; omega))
  have z3 := nz_false (lo := 8) (len := 12) hW (packed_at _ hF 1)
  have z4 := nz_true (lo := 0) (len := 8) hN (by first | omega | (simp only [BitVec.toNat_eq] at h; simp at h; omega))
  have hr : scalarRow w = some { instr := some (.waitev (fld w 20 5) (fld w 0 8)), unused := nz w 8 12, range := !nz w 0 8 || nz w 6 2, avail := .seq } := by
    unfold scalarRow
    rw [fld_num (lo := 25) (len := 7) 86 hW (packed_at _ hF 3)]
    first | done | rfl
  change decodeWord .seq w = _
  refine decode_ok (p := .seq) (hW.trans hE.symm) (by omega) hr ?_
  refine check_ok rfl rfl ?_ ?_ rfl rfl ?_
  · simp [e0, e1, z2, z3, z4]
  · simp [e0, e1, z2, z3, z4]
  · simp only [e0, e1, z2, z3, z4]

theorem vadd (g : Guard) (d : BitVec 6) (a : BitVec 6) (b : BitVec 6) : Statement (.vadd g d a b) := by
  intro h w hw
  change (g.wf) = true at h
  obtain ⟨q, hq, eq⟩ := guardBits_mul g
  have hF : Fits [(2, 0), (6, b.toNat), (6, a.toNat), (6, d.toNat), (6, 1), (6, q)] := ⟨of_decide_eq_true rfl, b.isLt, a.isLt, d.isLt, of_decide_eq_true rfl, hq, trivial⟩
  have hE : 0x100000 + guardBits g + d.toNat * 16384 + a.toNat * 256 + b.toNat * 4 = packed [(2, 0), (6, b.toNat), (6, a.toNat), (6, d.toNat), (6, 1), (6, q)] := by
    simp only [packed]
    clear hF hw; omega
  have hW := packed_word _ rfl hF hE hw
  clear hw
  have e0 := fld_eq (lo := 14) d hW (packed_at _ hF 3)
  have e1 := fld_eq (lo := 8) a hW (packed_at _ hF 2)
  have e2 := fld_eq (lo := 2) b hW (packed_at _ hF 1)
  obtain ⟨g0, g1⟩ := guard_packed g h hq eq [(2, 0), (6, b.toNat), (6, a.toNat), (6, d.toNat), (6, 1)] rfl ⟨of_decide_eq_true rfl, b.isLt, a.isLt, d.isLt, of_decide_eq_true rfl, hq, trivial⟩ hW
  have hr : vectorRow w = some { instr := some (.vadd (guardOf w) (fld w 14 6) (fld w 8 6) (fld w 2 6)), unused := guardBad w, vregs := [fld w 14 6, fld w 8 6, fld w 2 6] } := by
    unfold vectorRow
    rw [fld_num (lo := 20) (len := 6) 1 hW (packed_at _ hF 4)]
    rw [fld_num (lo := 0) (len := 2) 0 hW (packed_at _ hF 0)]
    first | done | rfl
  change decodeWord .vec w = _
  refine decode_ok (p := .vec) (hW.trans hE.symm) (by omega) hr ?_
  refine check_ok rfl rfl ?_ rfl rfl rfl ?_
  · simp [e0, e1, e2, g0, g1]
  · simp only [e0, e1, e2, g0, g1]

theorem vaddK (g : Guard) (d : BitVec 6) (a : BitVec 6) (k : BitVec 3) : Statement (.vaddK g d a k) := by
  intro h w hw
  change (g.wf) = true at h
  obtain ⟨q, hq, eq⟩ := guardBits_mul g
  have hF : Fits [(2, 1), (3, k.toNat), (3, 0), (6, a.toNat), (6, d.toNat), (6, 1), (6, q)] := ⟨of_decide_eq_true rfl, k.isLt, of_decide_eq_true rfl, a.isLt, d.isLt, of_decide_eq_true rfl, hq, trivial⟩
  have hE : 0x100001 + guardBits g + d.toNat * 16384 + a.toNat * 256 + k.toNat * 4 = packed [(2, 1), (3, k.toNat), (3, 0), (6, a.toNat), (6, d.toNat), (6, 1), (6, q)] := by
    simp only [packed]
    clear hF hw; omega
  have hW := packed_word _ rfl hF hE hw
  clear hw
  have e0 := fld_eq (lo := 14) d hW (packed_at _ hF 4)
  have e1 := fld_eq (lo := 8) a hW (packed_at _ hF 3)
  have e2 := fld_eq (lo := 2) k hW (packed_at _ hF 1)
  obtain ⟨g0, g1⟩ := guard_packed g h hq eq [(2, 1), (3, k.toNat), (3, 0), (6, a.toNat), (6, d.toNat), (6, 1)] rfl ⟨of_decide_eq_true rfl, k.isLt, of_decide_eq_true rfl, a.isLt, d.isLt, of_decide_eq_true rfl, hq, trivial⟩ hW
  have z5 := nz_false (lo := 5) (len := 3) hW (packed_at _ hF 2)
  have hr : vectorRow w = some { instr := some (.vaddK (guardOf w) (fld w 14 6) (fld w 8 6) (fld w 2 3)), unused := guardBad w || nz w 5 3, vregs := [fld w 14 6, fld w 8 6] } := by
    unfold vectorRow
    rw [fld_num (lo := 20) (len := 6) 1 hW (packed_at _ hF 5)]
    rw [fld_num (lo := 0) (len := 2) 1 hW (packed_at _ hF 0)]
    first | done | rfl
  change decodeWord .vec w = _
  refine decode_ok (p := .vec) (hW.trans hE.symm) (by omega) hr ?_
  refine check_ok rfl rfl ?_ rfl rfl rfl ?_
  · simp [e0, e1, e2, g0, g1, z5]
  · simp only [e0, e1, e2, g0, g1, z5]

theorem vaddI (g : Guard) (d : BitVec 6) (a : BitVec 6) (im : BitVec 6) : Statement (.vaddI g d a im) := by
  intro h w hw
  change (g.wf) = true at h
  obtain ⟨q, hq, eq⟩ := guardBits_mul g
  have hF : Fits [(2, 2), (6, im.toNat), (6, a.toNat), (6, d.toNat), (6, 1), (6, q)] := ⟨of_decide_eq_true rfl, im.isLt, a.isLt, d.isLt, of_decide_eq_true rfl, hq, trivial⟩
  have hE : 0x100002 + guardBits g + d.toNat * 16384 + a.toNat * 256 + im.toNat * 4 = packed [(2, 2), (6, im.toNat), (6, a.toNat), (6, d.toNat), (6, 1), (6, q)] := by
    simp only [packed]
    clear hF hw; omega
  have hW := packed_word _ rfl hF hE hw
  clear hw
  have e0 := fld_eq (lo := 14) d hW (packed_at _ hF 3)
  have e1 := fld_eq (lo := 8) a hW (packed_at _ hF 2)
  have e2 := fld_eq (lo := 2) im hW (packed_at _ hF 1)
  obtain ⟨g0, g1⟩ := guard_packed g h hq eq [(2, 2), (6, im.toNat), (6, a.toNat), (6, d.toNat), (6, 1)] rfl ⟨of_decide_eq_true rfl, im.isLt, a.isLt, d.isLt, of_decide_eq_true rfl, hq, trivial⟩ hW
  have hr : vectorRow w = some { instr := some (.vaddI (guardOf w) (fld w 14 6) (fld w 8 6) (fld w 2 6)), unused := guardBad w, vregs := [fld w 14 6, fld w 8 6] } := by
    unfold vectorRow
    rw [fld_num (lo := 20) (len := 6) 1 hW (packed_at _ hF 4)]
    rw [fld_num (lo := 0) (len := 2) 2 hW (packed_at _ hF 0)]
    first | done | rfl
  change decodeWord .vec w = _
  refine decode_ok (p := .vec) (hW.trans hE.symm) (by omega) hr ?_
  refine check_ok rfl rfl ?_ rfl rfl rfl ?_
  · simp [e0, e1, e2, g0, g1]
  · simp only [e0, e1, e2, g0, g1]

theorem vsub (g : Guard) (d : BitVec 6) (a : BitVec 6) (b : BitVec 6) : Statement (.vsub g d a b) := by
  intro h w hw
  change (g.wf) = true at h
  obtain ⟨q, hq, eq⟩ := guardBits_mul g
  have hF : Fits [(2, 0), (6, b.toNat), (6, a.toNat), (6, d.toNat), (6, 2), (6, q)] := ⟨of_decide_eq_true rfl, b.isLt, a.isLt, d.isLt, of_decide_eq_true rfl, hq, trivial⟩
  have hE : 0x200000 + guardBits g + d.toNat * 16384 + a.toNat * 256 + b.toNat * 4 = packed [(2, 0), (6, b.toNat), (6, a.toNat), (6, d.toNat), (6, 2), (6, q)] := by
    simp only [packed]
    clear hF hw; omega
  have hW := packed_word _ rfl hF hE hw
  clear hw
  have e0 := fld_eq (lo := 14) d hW (packed_at _ hF 3)
  have e1 := fld_eq (lo := 8) a hW (packed_at _ hF 2)
  have e2 := fld_eq (lo := 2) b hW (packed_at _ hF 1)
  obtain ⟨g0, g1⟩ := guard_packed g h hq eq [(2, 0), (6, b.toNat), (6, a.toNat), (6, d.toNat), (6, 2)] rfl ⟨of_decide_eq_true rfl, b.isLt, a.isLt, d.isLt, of_decide_eq_true rfl, hq, trivial⟩ hW
  have hr : vectorRow w = some { instr := some (.vsub (guardOf w) (fld w 14 6) (fld w 8 6) (fld w 2 6)), unused := guardBad w, vregs := [fld w 14 6, fld w 8 6, fld w 2 6] } := by
    unfold vectorRow
    rw [fld_num (lo := 20) (len := 6) 2 hW (packed_at _ hF 4)]
    rw [fld_num (lo := 0) (len := 2) 0 hW (packed_at _ hF 0)]
    first | done | rfl
  change decodeWord .vec w = _
  refine decode_ok (p := .vec) (hW.trans hE.symm) (by omega) hr ?_
  refine check_ok rfl rfl ?_ rfl rfl rfl ?_
  · simp [e0, e1, e2, g0, g1]
  · simp only [e0, e1, e2, g0, g1]

theorem vsubK (g : Guard) (d : BitVec 6) (a : BitVec 6) (k : BitVec 3) : Statement (.vsubK g d a k) := by
  intro h w hw
  change (g.wf) = true at h
  obtain ⟨q, hq, eq⟩ := guardBits_mul g
  have hF : Fits [(2, 1), (3, k.toNat), (3, 0), (6, a.toNat), (6, d.toNat), (6, 2), (6, q)] := ⟨of_decide_eq_true rfl, k.isLt, of_decide_eq_true rfl, a.isLt, d.isLt, of_decide_eq_true rfl, hq, trivial⟩
  have hE : 0x200001 + guardBits g + d.toNat * 16384 + a.toNat * 256 + k.toNat * 4 = packed [(2, 1), (3, k.toNat), (3, 0), (6, a.toNat), (6, d.toNat), (6, 2), (6, q)] := by
    simp only [packed]
    clear hF hw; omega
  have hW := packed_word _ rfl hF hE hw
  clear hw
  have e0 := fld_eq (lo := 14) d hW (packed_at _ hF 4)
  have e1 := fld_eq (lo := 8) a hW (packed_at _ hF 3)
  have e2 := fld_eq (lo := 2) k hW (packed_at _ hF 1)
  obtain ⟨g0, g1⟩ := guard_packed g h hq eq [(2, 1), (3, k.toNat), (3, 0), (6, a.toNat), (6, d.toNat), (6, 2)] rfl ⟨of_decide_eq_true rfl, k.isLt, of_decide_eq_true rfl, a.isLt, d.isLt, of_decide_eq_true rfl, hq, trivial⟩ hW
  have z5 := nz_false (lo := 5) (len := 3) hW (packed_at _ hF 2)
  have hr : vectorRow w = some { instr := some (.vsubK (guardOf w) (fld w 14 6) (fld w 8 6) (fld w 2 3)), unused := guardBad w || nz w 5 3, vregs := [fld w 14 6, fld w 8 6] } := by
    unfold vectorRow
    rw [fld_num (lo := 20) (len := 6) 2 hW (packed_at _ hF 5)]
    rw [fld_num (lo := 0) (len := 2) 1 hW (packed_at _ hF 0)]
    first | done | rfl
  change decodeWord .vec w = _
  refine decode_ok (p := .vec) (hW.trans hE.symm) (by omega) hr ?_
  refine check_ok rfl rfl ?_ rfl rfl rfl ?_
  · simp [e0, e1, e2, g0, g1, z5]
  · simp only [e0, e1, e2, g0, g1, z5]

theorem vsubI (g : Guard) (d : BitVec 6) (a : BitVec 6) (im : BitVec 6) : Statement (.vsubI g d a im) := by
  intro h w hw
  change (g.wf) = true at h
  obtain ⟨q, hq, eq⟩ := guardBits_mul g
  have hF : Fits [(2, 2), (6, im.toNat), (6, a.toNat), (6, d.toNat), (6, 2), (6, q)] := ⟨of_decide_eq_true rfl, im.isLt, a.isLt, d.isLt, of_decide_eq_true rfl, hq, trivial⟩
  have hE : 0x200002 + guardBits g + d.toNat * 16384 + a.toNat * 256 + im.toNat * 4 = packed [(2, 2), (6, im.toNat), (6, a.toNat), (6, d.toNat), (6, 2), (6, q)] := by
    simp only [packed]
    clear hF hw; omega
  have hW := packed_word _ rfl hF hE hw
  clear hw
  have e0 := fld_eq (lo := 14) d hW (packed_at _ hF 3)
  have e1 := fld_eq (lo := 8) a hW (packed_at _ hF 2)
  have e2 := fld_eq (lo := 2) im hW (packed_at _ hF 1)
  obtain ⟨g0, g1⟩ := guard_packed g h hq eq [(2, 2), (6, im.toNat), (6, a.toNat), (6, d.toNat), (6, 2)] rfl ⟨of_decide_eq_true rfl, im.isLt, a.isLt, d.isLt, of_decide_eq_true rfl, hq, trivial⟩ hW
  have hr : vectorRow w = some { instr := some (.vsubI (guardOf w) (fld w 14 6) (fld w 8 6) (fld w 2 6)), unused := guardBad w, vregs := [fld w 14 6, fld w 8 6] } := by
    unfold vectorRow
    rw [fld_num (lo := 20) (len := 6) 2 hW (packed_at _ hF 4)]
    rw [fld_num (lo := 0) (len := 2) 2 hW (packed_at _ hF 0)]
    first | done | rfl
  change decodeWord .vec w = _
  refine decode_ok (p := .vec) (hW.trans hE.symm) (by omega) hr ?_
  refine check_ok rfl rfl ?_ rfl rfl rfl ?_
  · simp [e0, e1, e2, g0, g1]
  · simp only [e0, e1, e2, g0, g1]

theorem vmul (g : Guard) (d : BitVec 6) (a : BitVec 6) (b : BitVec 6) : Statement (.vmul g d a b) := by
  intro h w hw
  change (g.wf) = true at h
  obtain ⟨q, hq, eq⟩ := guardBits_mul g
  have hF : Fits [(2, 0), (6, b.toNat), (6, a.toNat), (6, d.toNat), (6, 3), (6, q)] := ⟨of_decide_eq_true rfl, b.isLt, a.isLt, d.isLt, of_decide_eq_true rfl, hq, trivial⟩
  have hE : 0x300000 + guardBits g + d.toNat * 16384 + a.toNat * 256 + b.toNat * 4 = packed [(2, 0), (6, b.toNat), (6, a.toNat), (6, d.toNat), (6, 3), (6, q)] := by
    simp only [packed]
    clear hF hw; omega
  have hW := packed_word _ rfl hF hE hw
  clear hw
  have e0 := fld_eq (lo := 14) d hW (packed_at _ hF 3)
  have e1 := fld_eq (lo := 8) a hW (packed_at _ hF 2)
  have e2 := fld_eq (lo := 2) b hW (packed_at _ hF 1)
  obtain ⟨g0, g1⟩ := guard_packed g h hq eq [(2, 0), (6, b.toNat), (6, a.toNat), (6, d.toNat), (6, 3)] rfl ⟨of_decide_eq_true rfl, b.isLt, a.isLt, d.isLt, of_decide_eq_true rfl, hq, trivial⟩ hW
  have hr : vectorRow w = some { instr := some (.vmul (guardOf w) (fld w 14 6) (fld w 8 6) (fld w 2 6)), unused := guardBad w, vregs := [fld w 14 6, fld w 8 6, fld w 2 6] } := by
    unfold vectorRow
    rw [fld_num (lo := 20) (len := 6) 3 hW (packed_at _ hF 4)]
    rw [fld_num (lo := 0) (len := 2) 0 hW (packed_at _ hF 0)]
    first | done | rfl
  change decodeWord .vec w = _
  refine decode_ok (p := .vec) (hW.trans hE.symm) (by omega) hr ?_
  refine check_ok rfl rfl ?_ rfl rfl rfl ?_
  · simp [e0, e1, e2, g0, g1]
  · simp only [e0, e1, e2, g0, g1]

theorem vmulK (g : Guard) (d : BitVec 6) (a : BitVec 6) (k : BitVec 3) : Statement (.vmulK g d a k) := by
  intro h w hw
  change (g.wf) = true at h
  obtain ⟨q, hq, eq⟩ := guardBits_mul g
  have hF : Fits [(2, 1), (3, k.toNat), (3, 0), (6, a.toNat), (6, d.toNat), (6, 3), (6, q)] := ⟨of_decide_eq_true rfl, k.isLt, of_decide_eq_true rfl, a.isLt, d.isLt, of_decide_eq_true rfl, hq, trivial⟩
  have hE : 0x300001 + guardBits g + d.toNat * 16384 + a.toNat * 256 + k.toNat * 4 = packed [(2, 1), (3, k.toNat), (3, 0), (6, a.toNat), (6, d.toNat), (6, 3), (6, q)] := by
    simp only [packed]
    clear hF hw; omega
  have hW := packed_word _ rfl hF hE hw
  clear hw
  have e0 := fld_eq (lo := 14) d hW (packed_at _ hF 4)
  have e1 := fld_eq (lo := 8) a hW (packed_at _ hF 3)
  have e2 := fld_eq (lo := 2) k hW (packed_at _ hF 1)
  obtain ⟨g0, g1⟩ := guard_packed g h hq eq [(2, 1), (3, k.toNat), (3, 0), (6, a.toNat), (6, d.toNat), (6, 3)] rfl ⟨of_decide_eq_true rfl, k.isLt, of_decide_eq_true rfl, a.isLt, d.isLt, of_decide_eq_true rfl, hq, trivial⟩ hW
  have z5 := nz_false (lo := 5) (len := 3) hW (packed_at _ hF 2)
  have hr : vectorRow w = some { instr := some (.vmulK (guardOf w) (fld w 14 6) (fld w 8 6) (fld w 2 3)), unused := guardBad w || nz w 5 3, vregs := [fld w 14 6, fld w 8 6] } := by
    unfold vectorRow
    rw [fld_num (lo := 20) (len := 6) 3 hW (packed_at _ hF 5)]
    rw [fld_num (lo := 0) (len := 2) 1 hW (packed_at _ hF 0)]
    first | done | rfl
  change decodeWord .vec w = _
  refine decode_ok (p := .vec) (hW.trans hE.symm) (by omega) hr ?_
  refine check_ok rfl rfl ?_ rfl rfl rfl ?_
  · simp [e0, e1, e2, g0, g1, z5]
  · simp only [e0, e1, e2, g0, g1, z5]

theorem vmulI (g : Guard) (d : BitVec 6) (a : BitVec 6) (im : BitVec 6) : Statement (.vmulI g d a im) := by
  intro h w hw
  change (g.wf) = true at h
  obtain ⟨q, hq, eq⟩ := guardBits_mul g
  have hF : Fits [(2, 2), (6, im.toNat), (6, a.toNat), (6, d.toNat), (6, 3), (6, q)] := ⟨of_decide_eq_true rfl, im.isLt, a.isLt, d.isLt, of_decide_eq_true rfl, hq, trivial⟩
  have hE : 0x300002 + guardBits g + d.toNat * 16384 + a.toNat * 256 + im.toNat * 4 = packed [(2, 2), (6, im.toNat), (6, a.toNat), (6, d.toNat), (6, 3), (6, q)] := by
    simp only [packed]
    clear hF hw; omega
  have hW := packed_word _ rfl hF hE hw
  clear hw
  have e0 := fld_eq (lo := 14) d hW (packed_at _ hF 3)
  have e1 := fld_eq (lo := 8) a hW (packed_at _ hF 2)
  have e2 := fld_eq (lo := 2) im hW (packed_at _ hF 1)
  obtain ⟨g0, g1⟩ := guard_packed g h hq eq [(2, 2), (6, im.toNat), (6, a.toNat), (6, d.toNat), (6, 3)] rfl ⟨of_decide_eq_true rfl, im.isLt, a.isLt, d.isLt, of_decide_eq_true rfl, hq, trivial⟩ hW
  have hr : vectorRow w = some { instr := some (.vmulI (guardOf w) (fld w 14 6) (fld w 8 6) (fld w 2 6)), unused := guardBad w, vregs := [fld w 14 6, fld w 8 6] } := by
    unfold vectorRow
    rw [fld_num (lo := 20) (len := 6) 3 hW (packed_at _ hF 4)]
    rw [fld_num (lo := 0) (len := 2) 2 hW (packed_at _ hF 0)]
    first | done | rfl
  change decodeWord .vec w = _
  refine decode_ok (p := .vec) (hW.trans hE.symm) (by omega) hr ?_
  refine check_ok rfl rfl ?_ rfl rfl rfl ?_
  · simp [e0, e1, e2, g0, g1]
  · simp only [e0, e1, e2, g0, g1]

theorem vmadd (g : Guard) (d : BitVec 6) (a : BitVec 6) (b : BitVec 6) : Statement (.vmadd g d a b) := by
  intro h w hw
  change (g.wf) = true at h
  obtain ⟨q, hq, eq⟩ := guardBits_mul g
  have hF : Fits [(2, 0), (6, b.toNat), (6, a.toNat), (6, d.toNat), (6, 4), (6, q)] := ⟨of_decide_eq_true rfl, b.isLt, a.isLt, d.isLt, of_decide_eq_true rfl, hq, trivial⟩
  have hE : 0x400000 + guardBits g + d.toNat * 16384 + a.toNat * 256 + b.toNat * 4 = packed [(2, 0), (6, b.toNat), (6, a.toNat), (6, d.toNat), (6, 4), (6, q)] := by
    simp only [packed]
    clear hF hw; omega
  have hW := packed_word _ rfl hF hE hw
  clear hw
  have e0 := fld_eq (lo := 14) d hW (packed_at _ hF 3)
  have e1 := fld_eq (lo := 8) a hW (packed_at _ hF 2)
  have e2 := fld_eq (lo := 2) b hW (packed_at _ hF 1)
  obtain ⟨g0, g1⟩ := guard_packed g h hq eq [(2, 0), (6, b.toNat), (6, a.toNat), (6, d.toNat), (6, 4)] rfl ⟨of_decide_eq_true rfl, b.isLt, a.isLt, d.isLt, of_decide_eq_true rfl, hq, trivial⟩ hW
  have hr : vectorRow w = some { instr := some (.vmadd (guardOf w) (fld w 14 6) (fld w 8 6) (fld w 2 6)), unused := guardBad w, vregs := [fld w 14 6, fld w 8 6, fld w 2 6] } := by
    unfold vectorRow
    rw [fld_num (lo := 20) (len := 6) 4 hW (packed_at _ hF 4)]
    rw [fld_num (lo := 0) (len := 2) 0 hW (packed_at _ hF 0)]
    first | done | rfl
  change decodeWord .vec w = _
  refine decode_ok (p := .vec) (hW.trans hE.symm) (by omega) hr ?_
  refine check_ok rfl rfl ?_ rfl rfl rfl ?_
  · simp [e0, e1, e2, g0, g1]
  · simp only [e0, e1, e2, g0, g1]

theorem vmaddK (g : Guard) (d : BitVec 6) (a : BitVec 6) (k : BitVec 3) : Statement (.vmaddK g d a k) := by
  intro h w hw
  change (g.wf) = true at h
  obtain ⟨q, hq, eq⟩ := guardBits_mul g
  have hF : Fits [(2, 1), (3, k.toNat), (3, 0), (6, a.toNat), (6, d.toNat), (6, 4), (6, q)] := ⟨of_decide_eq_true rfl, k.isLt, of_decide_eq_true rfl, a.isLt, d.isLt, of_decide_eq_true rfl, hq, trivial⟩
  have hE : 0x400001 + guardBits g + d.toNat * 16384 + a.toNat * 256 + k.toNat * 4 = packed [(2, 1), (3, k.toNat), (3, 0), (6, a.toNat), (6, d.toNat), (6, 4), (6, q)] := by
    simp only [packed]
    clear hF hw; omega
  have hW := packed_word _ rfl hF hE hw
  clear hw
  have e0 := fld_eq (lo := 14) d hW (packed_at _ hF 4)
  have e1 := fld_eq (lo := 8) a hW (packed_at _ hF 3)
  have e2 := fld_eq (lo := 2) k hW (packed_at _ hF 1)
  obtain ⟨g0, g1⟩ := guard_packed g h hq eq [(2, 1), (3, k.toNat), (3, 0), (6, a.toNat), (6, d.toNat), (6, 4)] rfl ⟨of_decide_eq_true rfl, k.isLt, of_decide_eq_true rfl, a.isLt, d.isLt, of_decide_eq_true rfl, hq, trivial⟩ hW
  have z5 := nz_false (lo := 5) (len := 3) hW (packed_at _ hF 2)
  have hr : vectorRow w = some { instr := some (.vmaddK (guardOf w) (fld w 14 6) (fld w 8 6) (fld w 2 3)), unused := guardBad w || nz w 5 3, vregs := [fld w 14 6, fld w 8 6] } := by
    unfold vectorRow
    rw [fld_num (lo := 20) (len := 6) 4 hW (packed_at _ hF 5)]
    rw [fld_num (lo := 0) (len := 2) 1 hW (packed_at _ hF 0)]
    first | done | rfl
  change decodeWord .vec w = _
  refine decode_ok (p := .vec) (hW.trans hE.symm) (by omega) hr ?_
  refine check_ok rfl rfl ?_ rfl rfl rfl ?_
  · simp [e0, e1, e2, g0, g1, z5]
  · simp only [e0, e1, e2, g0, g1, z5]

theorem vmaddI (g : Guard) (d : BitVec 6) (a : BitVec 6) (im : BitVec 6) : Statement (.vmaddI g d a im) := by
  intro h w hw
  change (g.wf) = true at h
  obtain ⟨q, hq, eq⟩ := guardBits_mul g
  have hF : Fits [(2, 2), (6, im.toNat), (6, a.toNat), (6, d.toNat), (6, 4), (6, q)] := ⟨of_decide_eq_true rfl, im.isLt, a.isLt, d.isLt, of_decide_eq_true rfl, hq, trivial⟩
  have hE : 0x400002 + guardBits g + d.toNat * 16384 + a.toNat * 256 + im.toNat * 4 = packed [(2, 2), (6, im.toNat), (6, a.toNat), (6, d.toNat), (6, 4), (6, q)] := by
    simp only [packed]
    clear hF hw; omega
  have hW := packed_word _ rfl hF hE hw
  clear hw
  have e0 := fld_eq (lo := 14) d hW (packed_at _ hF 3)
  have e1 := fld_eq (lo := 8) a hW (packed_at _ hF 2)
  have e2 := fld_eq (lo := 2) im hW (packed_at _ hF 1)
  obtain ⟨g0, g1⟩ := guard_packed g h hq eq [(2, 2), (6, im.toNat), (6, a.toNat), (6, d.toNat), (6, 4)] rfl ⟨of_decide_eq_true rfl, im.isLt, a.isLt, d.isLt, of_decide_eq_true rfl, hq, trivial⟩ hW
  have hr : vectorRow w = some { instr := some (.vmaddI (guardOf w) (fld w 14 6) (fld w 8 6) (fld w 2 6)), unused := guardBad w, vregs := [fld w 14 6, fld w 8 6] } := by
    unfold vectorRow
    rw [fld_num (lo := 20) (len := 6) 4 hW (packed_at _ hF 4)]
    rw [fld_num (lo := 0) (len := 2) 2 hW (packed_at _ hF 0)]
    first | done | rfl
  change decodeWord .vec w = _
  refine decode_ok (p := .vec) (hW.trans hE.symm) (by omega) hr ?_
  refine check_ok rfl rfl ?_ rfl rfl rfl ?_
  · simp [e0, e1, e2, g0, g1]
  · simp only [e0, e1, e2, g0, g1]

theorem vmsub (g : Guard) (d : BitVec 6) (a : BitVec 6) (b : BitVec 6) : Statement (.vmsub g d a b) := by
  intro h w hw
  change (g.wf) = true at h
  obtain ⟨q, hq, eq⟩ := guardBits_mul g
  have hF : Fits [(2, 0), (6, b.toNat), (6, a.toNat), (6, d.toNat), (6, 5), (6, q)] := ⟨of_decide_eq_true rfl, b.isLt, a.isLt, d.isLt, of_decide_eq_true rfl, hq, trivial⟩
  have hE : 0x500000 + guardBits g + d.toNat * 16384 + a.toNat * 256 + b.toNat * 4 = packed [(2, 0), (6, b.toNat), (6, a.toNat), (6, d.toNat), (6, 5), (6, q)] := by
    simp only [packed]
    clear hF hw; omega
  have hW := packed_word _ rfl hF hE hw
  clear hw
  have e0 := fld_eq (lo := 14) d hW (packed_at _ hF 3)
  have e1 := fld_eq (lo := 8) a hW (packed_at _ hF 2)
  have e2 := fld_eq (lo := 2) b hW (packed_at _ hF 1)
  obtain ⟨g0, g1⟩ := guard_packed g h hq eq [(2, 0), (6, b.toNat), (6, a.toNat), (6, d.toNat), (6, 5)] rfl ⟨of_decide_eq_true rfl, b.isLt, a.isLt, d.isLt, of_decide_eq_true rfl, hq, trivial⟩ hW
  have hr : vectorRow w = some { instr := some (.vmsub (guardOf w) (fld w 14 6) (fld w 8 6) (fld w 2 6)), unused := guardBad w, vregs := [fld w 14 6, fld w 8 6, fld w 2 6] } := by
    unfold vectorRow
    rw [fld_num (lo := 20) (len := 6) 5 hW (packed_at _ hF 4)]
    rw [fld_num (lo := 0) (len := 2) 0 hW (packed_at _ hF 0)]
    first | done | rfl
  change decodeWord .vec w = _
  refine decode_ok (p := .vec) (hW.trans hE.symm) (by omega) hr ?_
  refine check_ok rfl rfl ?_ rfl rfl rfl ?_
  · simp [e0, e1, e2, g0, g1]
  · simp only [e0, e1, e2, g0, g1]

theorem vmsubK (g : Guard) (d : BitVec 6) (a : BitVec 6) (k : BitVec 3) : Statement (.vmsubK g d a k) := by
  intro h w hw
  change (g.wf) = true at h
  obtain ⟨q, hq, eq⟩ := guardBits_mul g
  have hF : Fits [(2, 1), (3, k.toNat), (3, 0), (6, a.toNat), (6, d.toNat), (6, 5), (6, q)] := ⟨of_decide_eq_true rfl, k.isLt, of_decide_eq_true rfl, a.isLt, d.isLt, of_decide_eq_true rfl, hq, trivial⟩
  have hE : 0x500001 + guardBits g + d.toNat * 16384 + a.toNat * 256 + k.toNat * 4 = packed [(2, 1), (3, k.toNat), (3, 0), (6, a.toNat), (6, d.toNat), (6, 5), (6, q)] := by
    simp only [packed]
    clear hF hw; omega
  have hW := packed_word _ rfl hF hE hw
  clear hw
  have e0 := fld_eq (lo := 14) d hW (packed_at _ hF 4)
  have e1 := fld_eq (lo := 8) a hW (packed_at _ hF 3)
  have e2 := fld_eq (lo := 2) k hW (packed_at _ hF 1)
  obtain ⟨g0, g1⟩ := guard_packed g h hq eq [(2, 1), (3, k.toNat), (3, 0), (6, a.toNat), (6, d.toNat), (6, 5)] rfl ⟨of_decide_eq_true rfl, k.isLt, of_decide_eq_true rfl, a.isLt, d.isLt, of_decide_eq_true rfl, hq, trivial⟩ hW
  have z5 := nz_false (lo := 5) (len := 3) hW (packed_at _ hF 2)
  have hr : vectorRow w = some { instr := some (.vmsubK (guardOf w) (fld w 14 6) (fld w 8 6) (fld w 2 3)), unused := guardBad w || nz w 5 3, vregs := [fld w 14 6, fld w 8 6] } := by
    unfold vectorRow
    rw [fld_num (lo := 20) (len := 6) 5 hW (packed_at _ hF 5)]
    rw [fld_num (lo := 0) (len := 2) 1 hW (packed_at _ hF 0)]
    first | done | rfl
  change decodeWord .vec w = _
  refine decode_ok (p := .vec) (hW.trans hE.symm) (by omega) hr ?_
  refine check_ok rfl rfl ?_ rfl rfl rfl ?_
  · simp [e0, e1, e2, g0, g1, z5]
  · simp only [e0, e1, e2, g0, g1, z5]

theorem vmsubI (g : Guard) (d : BitVec 6) (a : BitVec 6) (im : BitVec 6) : Statement (.vmsubI g d a im) := by
  intro h w hw
  change (g.wf) = true at h
  obtain ⟨q, hq, eq⟩ := guardBits_mul g
  have hF : Fits [(2, 2), (6, im.toNat), (6, a.toNat), (6, d.toNat), (6, 5), (6, q)] := ⟨of_decide_eq_true rfl, im.isLt, a.isLt, d.isLt, of_decide_eq_true rfl, hq, trivial⟩
  have hE : 0x500002 + guardBits g + d.toNat * 16384 + a.toNat * 256 + im.toNat * 4 = packed [(2, 2), (6, im.toNat), (6, a.toNat), (6, d.toNat), (6, 5), (6, q)] := by
    simp only [packed]
    clear hF hw; omega
  have hW := packed_word _ rfl hF hE hw
  clear hw
  have e0 := fld_eq (lo := 14) d hW (packed_at _ hF 3)
  have e1 := fld_eq (lo := 8) a hW (packed_at _ hF 2)
  have e2 := fld_eq (lo := 2) im hW (packed_at _ hF 1)
  obtain ⟨g0, g1⟩ := guard_packed g h hq eq [(2, 2), (6, im.toNat), (6, a.toNat), (6, d.toNat), (6, 5)] rfl ⟨of_decide_eq_true rfl, im.isLt, a.isLt, d.isLt, of_decide_eq_true rfl, hq, trivial⟩ hW
  have hr : vectorRow w = some { instr := some (.vmsubI (guardOf w) (fld w 14 6) (fld w 8 6) (fld w 2 6)), unused := guardBad w, vregs := [fld w 14 6, fld w 8 6] } := by
    unfold vectorRow
    rw [fld_num (lo := 20) (len := 6) 5 hW (packed_at _ hF 4)]
    rw [fld_num (lo := 0) (len := 2) 2 hW (packed_at _ hF 0)]
    first | done | rfl
  change decodeWord .vec w = _
  refine decode_ok (p := .vec) (hW.trans hE.symm) (by omega) hr ?_
  refine check_ok rfl rfl ?_ rfl rfl rfl ?_
  · simp [e0, e1, e2, g0, g1]
  · simp only [e0, e1, e2, g0, g1]

theorem vmin (g : Guard) (d : BitVec 6) (a : BitVec 6) (b : BitVec 6) : Statement (.vmin g d a b) := by
  intro h w hw
  change (g.wf) = true at h
  obtain ⟨q, hq, eq⟩ := guardBits_mul g
  have hF : Fits [(2, 0), (6, b.toNat), (6, a.toNat), (6, d.toNat), (6, 6), (6, q)] := ⟨of_decide_eq_true rfl, b.isLt, a.isLt, d.isLt, of_decide_eq_true rfl, hq, trivial⟩
  have hE : 0x600000 + guardBits g + d.toNat * 16384 + a.toNat * 256 + b.toNat * 4 = packed [(2, 0), (6, b.toNat), (6, a.toNat), (6, d.toNat), (6, 6), (6, q)] := by
    simp only [packed]
    clear hF hw; omega
  have hW := packed_word _ rfl hF hE hw
  clear hw
  have e0 := fld_eq (lo := 14) d hW (packed_at _ hF 3)
  have e1 := fld_eq (lo := 8) a hW (packed_at _ hF 2)
  have e2 := fld_eq (lo := 2) b hW (packed_at _ hF 1)
  obtain ⟨g0, g1⟩ := guard_packed g h hq eq [(2, 0), (6, b.toNat), (6, a.toNat), (6, d.toNat), (6, 6)] rfl ⟨of_decide_eq_true rfl, b.isLt, a.isLt, d.isLt, of_decide_eq_true rfl, hq, trivial⟩ hW
  have hr : vectorRow w = some { instr := some (.vmin (guardOf w) (fld w 14 6) (fld w 8 6) (fld w 2 6)), unused := guardBad w, vregs := [fld w 14 6, fld w 8 6, fld w 2 6] } := by
    unfold vectorRow
    rw [fld_num (lo := 20) (len := 6) 6 hW (packed_at _ hF 4)]
    rw [fld_num (lo := 0) (len := 2) 0 hW (packed_at _ hF 0)]
    first | done | rfl
  change decodeWord .vec w = _
  refine decode_ok (p := .vec) (hW.trans hE.symm) (by omega) hr ?_
  refine check_ok rfl rfl ?_ rfl rfl rfl ?_
  · simp [e0, e1, e2, g0, g1]
  · simp only [e0, e1, e2, g0, g1]

theorem vminK (g : Guard) (d : BitVec 6) (a : BitVec 6) (k : BitVec 3) : Statement (.vminK g d a k) := by
  intro h w hw
  change (g.wf) = true at h
  obtain ⟨q, hq, eq⟩ := guardBits_mul g
  have hF : Fits [(2, 1), (3, k.toNat), (3, 0), (6, a.toNat), (6, d.toNat), (6, 6), (6, q)] := ⟨of_decide_eq_true rfl, k.isLt, of_decide_eq_true rfl, a.isLt, d.isLt, of_decide_eq_true rfl, hq, trivial⟩
  have hE : 0x600001 + guardBits g + d.toNat * 16384 + a.toNat * 256 + k.toNat * 4 = packed [(2, 1), (3, k.toNat), (3, 0), (6, a.toNat), (6, d.toNat), (6, 6), (6, q)] := by
    simp only [packed]
    clear hF hw; omega
  have hW := packed_word _ rfl hF hE hw
  clear hw
  have e0 := fld_eq (lo := 14) d hW (packed_at _ hF 4)
  have e1 := fld_eq (lo := 8) a hW (packed_at _ hF 3)
  have e2 := fld_eq (lo := 2) k hW (packed_at _ hF 1)
  obtain ⟨g0, g1⟩ := guard_packed g h hq eq [(2, 1), (3, k.toNat), (3, 0), (6, a.toNat), (6, d.toNat), (6, 6)] rfl ⟨of_decide_eq_true rfl, k.isLt, of_decide_eq_true rfl, a.isLt, d.isLt, of_decide_eq_true rfl, hq, trivial⟩ hW
  have z5 := nz_false (lo := 5) (len := 3) hW (packed_at _ hF 2)
  have hr : vectorRow w = some { instr := some (.vminK (guardOf w) (fld w 14 6) (fld w 8 6) (fld w 2 3)), unused := guardBad w || nz w 5 3, vregs := [fld w 14 6, fld w 8 6] } := by
    unfold vectorRow
    rw [fld_num (lo := 20) (len := 6) 6 hW (packed_at _ hF 5)]
    rw [fld_num (lo := 0) (len := 2) 1 hW (packed_at _ hF 0)]
    first | done | rfl
  change decodeWord .vec w = _
  refine decode_ok (p := .vec) (hW.trans hE.symm) (by omega) hr ?_
  refine check_ok rfl rfl ?_ rfl rfl rfl ?_
  · simp [e0, e1, e2, g0, g1, z5]
  · simp only [e0, e1, e2, g0, g1, z5]

theorem vminI (g : Guard) (d : BitVec 6) (a : BitVec 6) (im : BitVec 6) : Statement (.vminI g d a im) := by
  intro h w hw
  change (g.wf) = true at h
  obtain ⟨q, hq, eq⟩ := guardBits_mul g
  have hF : Fits [(2, 2), (6, im.toNat), (6, a.toNat), (6, d.toNat), (6, 6), (6, q)] := ⟨of_decide_eq_true rfl, im.isLt, a.isLt, d.isLt, of_decide_eq_true rfl, hq, trivial⟩
  have hE : 0x600002 + guardBits g + d.toNat * 16384 + a.toNat * 256 + im.toNat * 4 = packed [(2, 2), (6, im.toNat), (6, a.toNat), (6, d.toNat), (6, 6), (6, q)] := by
    simp only [packed]
    clear hF hw; omega
  have hW := packed_word _ rfl hF hE hw
  clear hw
  have e0 := fld_eq (lo := 14) d hW (packed_at _ hF 3)
  have e1 := fld_eq (lo := 8) a hW (packed_at _ hF 2)
  have e2 := fld_eq (lo := 2) im hW (packed_at _ hF 1)
  obtain ⟨g0, g1⟩ := guard_packed g h hq eq [(2, 2), (6, im.toNat), (6, a.toNat), (6, d.toNat), (6, 6)] rfl ⟨of_decide_eq_true rfl, im.isLt, a.isLt, d.isLt, of_decide_eq_true rfl, hq, trivial⟩ hW
  have hr : vectorRow w = some { instr := some (.vminI (guardOf w) (fld w 14 6) (fld w 8 6) (fld w 2 6)), unused := guardBad w, vregs := [fld w 14 6, fld w 8 6] } := by
    unfold vectorRow
    rw [fld_num (lo := 20) (len := 6) 6 hW (packed_at _ hF 4)]
    rw [fld_num (lo := 0) (len := 2) 2 hW (packed_at _ hF 0)]
    first | done | rfl
  change decodeWord .vec w = _
  refine decode_ok (p := .vec) (hW.trans hE.symm) (by omega) hr ?_
  refine check_ok rfl rfl ?_ rfl rfl rfl ?_
  · simp [e0, e1, e2, g0, g1]
  · simp only [e0, e1, e2, g0, g1]

theorem vmax (g : Guard) (d : BitVec 6) (a : BitVec 6) (b : BitVec 6) : Statement (.vmax g d a b) := by
  intro h w hw
  change (g.wf) = true at h
  obtain ⟨q, hq, eq⟩ := guardBits_mul g
  have hF : Fits [(2, 0), (6, b.toNat), (6, a.toNat), (6, d.toNat), (6, 7), (6, q)] := ⟨of_decide_eq_true rfl, b.isLt, a.isLt, d.isLt, of_decide_eq_true rfl, hq, trivial⟩
  have hE : 0x700000 + guardBits g + d.toNat * 16384 + a.toNat * 256 + b.toNat * 4 = packed [(2, 0), (6, b.toNat), (6, a.toNat), (6, d.toNat), (6, 7), (6, q)] := by
    simp only [packed]
    clear hF hw; omega
  have hW := packed_word _ rfl hF hE hw
  clear hw
  have e0 := fld_eq (lo := 14) d hW (packed_at _ hF 3)
  have e1 := fld_eq (lo := 8) a hW (packed_at _ hF 2)
  have e2 := fld_eq (lo := 2) b hW (packed_at _ hF 1)
  obtain ⟨g0, g1⟩ := guard_packed g h hq eq [(2, 0), (6, b.toNat), (6, a.toNat), (6, d.toNat), (6, 7)] rfl ⟨of_decide_eq_true rfl, b.isLt, a.isLt, d.isLt, of_decide_eq_true rfl, hq, trivial⟩ hW
  have hr : vectorRow w = some { instr := some (.vmax (guardOf w) (fld w 14 6) (fld w 8 6) (fld w 2 6)), unused := guardBad w, vregs := [fld w 14 6, fld w 8 6, fld w 2 6] } := by
    unfold vectorRow
    rw [fld_num (lo := 20) (len := 6) 7 hW (packed_at _ hF 4)]
    rw [fld_num (lo := 0) (len := 2) 0 hW (packed_at _ hF 0)]
    first | done | rfl
  change decodeWord .vec w = _
  refine decode_ok (p := .vec) (hW.trans hE.symm) (by omega) hr ?_
  refine check_ok rfl rfl ?_ rfl rfl rfl ?_
  · simp [e0, e1, e2, g0, g1]
  · simp only [e0, e1, e2, g0, g1]

theorem vmaxK (g : Guard) (d : BitVec 6) (a : BitVec 6) (k : BitVec 3) : Statement (.vmaxK g d a k) := by
  intro h w hw
  change (g.wf) = true at h
  obtain ⟨q, hq, eq⟩ := guardBits_mul g
  have hF : Fits [(2, 1), (3, k.toNat), (3, 0), (6, a.toNat), (6, d.toNat), (6, 7), (6, q)] := ⟨of_decide_eq_true rfl, k.isLt, of_decide_eq_true rfl, a.isLt, d.isLt, of_decide_eq_true rfl, hq, trivial⟩
  have hE : 0x700001 + guardBits g + d.toNat * 16384 + a.toNat * 256 + k.toNat * 4 = packed [(2, 1), (3, k.toNat), (3, 0), (6, a.toNat), (6, d.toNat), (6, 7), (6, q)] := by
    simp only [packed]
    clear hF hw; omega
  have hW := packed_word _ rfl hF hE hw
  clear hw
  have e0 := fld_eq (lo := 14) d hW (packed_at _ hF 4)
  have e1 := fld_eq (lo := 8) a hW (packed_at _ hF 3)
  have e2 := fld_eq (lo := 2) k hW (packed_at _ hF 1)
  obtain ⟨g0, g1⟩ := guard_packed g h hq eq [(2, 1), (3, k.toNat), (3, 0), (6, a.toNat), (6, d.toNat), (6, 7)] rfl ⟨of_decide_eq_true rfl, k.isLt, of_decide_eq_true rfl, a.isLt, d.isLt, of_decide_eq_true rfl, hq, trivial⟩ hW
  have z5 := nz_false (lo := 5) (len := 3) hW (packed_at _ hF 2)
  have hr : vectorRow w = some { instr := some (.vmaxK (guardOf w) (fld w 14 6) (fld w 8 6) (fld w 2 3)), unused := guardBad w || nz w 5 3, vregs := [fld w 14 6, fld w 8 6] } := by
    unfold vectorRow
    rw [fld_num (lo := 20) (len := 6) 7 hW (packed_at _ hF 5)]
    rw [fld_num (lo := 0) (len := 2) 1 hW (packed_at _ hF 0)]
    first | done | rfl
  change decodeWord .vec w = _
  refine decode_ok (p := .vec) (hW.trans hE.symm) (by omega) hr ?_
  refine check_ok rfl rfl ?_ rfl rfl rfl ?_
  · simp [e0, e1, e2, g0, g1, z5]
  · simp only [e0, e1, e2, g0, g1, z5]

theorem vmaxI (g : Guard) (d : BitVec 6) (a : BitVec 6) (im : BitVec 6) : Statement (.vmaxI g d a im) := by
  intro h w hw
  change (g.wf) = true at h
  obtain ⟨q, hq, eq⟩ := guardBits_mul g
  have hF : Fits [(2, 2), (6, im.toNat), (6, a.toNat), (6, d.toNat), (6, 7), (6, q)] := ⟨of_decide_eq_true rfl, im.isLt, a.isLt, d.isLt, of_decide_eq_true rfl, hq, trivial⟩
  have hE : 0x700002 + guardBits g + d.toNat * 16384 + a.toNat * 256 + im.toNat * 4 = packed [(2, 2), (6, im.toNat), (6, a.toNat), (6, d.toNat), (6, 7), (6, q)] := by
    simp only [packed]
    clear hF hw; omega
  have hW := packed_word _ rfl hF hE hw
  clear hw
  have e0 := fld_eq (lo := 14) d hW (packed_at _ hF 3)
  have e1 := fld_eq (lo := 8) a hW (packed_at _ hF 2)
  have e2 := fld_eq (lo := 2) im hW (packed_at _ hF 1)
  obtain ⟨g0, g1⟩ := guard_packed g h hq eq [(2, 2), (6, im.toNat), (6, a.toNat), (6, d.toNat), (6, 7)] rfl ⟨of_decide_eq_true rfl, im.isLt, a.isLt, d.isLt, of_decide_eq_true rfl, hq, trivial⟩ hW
  have hr : vectorRow w = some { instr := some (.vmaxI (guardOf w) (fld w 14 6) (fld w 8 6) (fld w 2 6)), unused := guardBad w, vregs := [fld w 14 6, fld w 8 6] } := by
    unfold vectorRow
    rw [fld_num (lo := 20) (len := 6) 7 hW (packed_at _ hF 4)]
    rw [fld_num (lo := 0) (len := 2) 2 hW (packed_at _ hF 0)]
    first | done | rfl
  change decodeWord .vec w = _
  refine decode_ok (p := .vec) (hW.trans hE.symm) (by omega) hr ?_
  refine check_ok rfl rfl ?_ rfl rfl rfl ?_
  · simp [e0, e1, e2, g0, g1]
  · simp only [e0, e1, e2, g0, g1]

theorem vabs (g : Guard) (d : BitVec 6) (a : BitVec 6) : Statement (.vabs g d a) := by
  intro h w hw
  change (g.wf) = true at h
  obtain ⟨q, hq, eq⟩ := guardBits_mul g
  have hF : Fits [(2, 0), (6, 0), (6, a.toNat), (6, d.toNat), (6, 8), (6, q)] := ⟨of_decide_eq_true rfl, of_decide_eq_true rfl, a.isLt, d.isLt, of_decide_eq_true rfl, hq, trivial⟩
  have hE : 0x800000 + guardBits g + d.toNat * 16384 + a.toNat * 256 = packed [(2, 0), (6, 0), (6, a.toNat), (6, d.toNat), (6, 8), (6, q)] := by
    simp only [packed]
    clear hF hw; omega
  have hW := packed_word _ rfl hF hE hw
  clear hw
  have e0 := fld_eq (lo := 14) d hW (packed_at _ hF 3)
  have e1 := fld_eq (lo := 8) a hW (packed_at _ hF 2)
  obtain ⟨g0, g1⟩ := guard_packed g h hq eq [(2, 0), (6, 0), (6, a.toNat), (6, d.toNat), (6, 8)] rfl ⟨of_decide_eq_true rfl, of_decide_eq_true rfl, a.isLt, d.isLt, of_decide_eq_true rfl, hq, trivial⟩ hW
  have z4 := nz_false (lo := 2) (len := 6) hW (packed_at _ hF 1)
  have hr : vectorRow w = some { instr := some (.vabs (guardOf w) (fld w 14 6) (fld w 8 6)), unused := guardBad w || nz w 2 6, vregs := [fld w 14 6, fld w 8 6] } := by
    unfold vectorRow
    rw [fld_num (lo := 20) (len := 6) 8 hW (packed_at _ hF 4)]
    rw [fld_num (lo := 0) (len := 2) 0 hW (packed_at _ hF 0)]
    first | done | rfl
  change decodeWord .vec w = _
  refine decode_ok (p := .vec) (hW.trans hE.symm) (by omega) hr ?_
  refine check_ok rfl rfl ?_ rfl rfl rfl ?_
  · simp [e0, e1, g0, g1, z4]
  · simp only [e0, e1, g0, g1, z4]

theorem vneg (g : Guard) (d : BitVec 6) (a : BitVec 6) : Statement (.vneg g d a) := by
  intro h w hw
  change (g.wf) = true at h
  obtain ⟨q, hq, eq⟩ := guardBits_mul g
  have hF : Fits [(2, 3), (6, 0), (6, a.toNat), (6, d.toNat), (6, 8), (6, q)] := ⟨of_decide_eq_true rfl, of_decide_eq_true rfl, a.isLt, d.isLt, of_decide_eq_true rfl, hq, trivial⟩
  have hE : 0x800003 + guardBits g + d.toNat * 16384 + a.toNat * 256 = packed [(2, 3), (6, 0), (6, a.toNat), (6, d.toNat), (6, 8), (6, q)] := by
    simp only [packed]
    clear hF hw; omega
  have hW := packed_word _ rfl hF hE hw
  clear hw
  have e0 := fld_eq (lo := 14) d hW (packed_at _ hF 3)
  have e1 := fld_eq (lo := 8) a hW (packed_at _ hF 2)
  obtain ⟨g0, g1⟩ := guard_packed g h hq eq [(2, 3), (6, 0), (6, a.toNat), (6, d.toNat), (6, 8)] rfl ⟨of_decide_eq_true rfl, of_decide_eq_true rfl, a.isLt, d.isLt, of_decide_eq_true rfl, hq, trivial⟩ hW
  have z4 := nz_false (lo := 2) (len := 6) hW (packed_at _ hF 1)
  have hr : vectorRow w = some { instr := some (.vneg (guardOf w) (fld w 14 6) (fld w 8 6)), unused := guardBad w || nz w 2 6, vregs := [fld w 14 6, fld w 8 6] } := by
    unfold vectorRow
    rw [fld_num (lo := 20) (len := 6) 8 hW (packed_at _ hF 4)]
    rw [fld_num (lo := 0) (len := 2) 3 hW (packed_at _ hF 0)]
    first | done | rfl
  change decodeWord .vec w = _
  refine decode_ok (p := .vec) (hW.trans hE.symm) (by omega) hr ?_
  refine check_ok rfl rfl ?_ rfl rfl rfl ?_
  · simp [e0, e1, g0, g1, z4]
  · simp only [e0, e1, g0, g1, z4]

theorem vand (g : Guard) (d : BitVec 6) (a : BitVec 6) (b : BitVec 6) : Statement (.vand g d a b) := by
  intro h w hw
  change (g.wf) = true at h
  obtain ⟨q, hq, eq⟩ := guardBits_mul g
  have hF : Fits [(2, 0), (6, b.toNat), (6, a.toNat), (6, d.toNat), (6, 9), (6, q)] := ⟨of_decide_eq_true rfl, b.isLt, a.isLt, d.isLt, of_decide_eq_true rfl, hq, trivial⟩
  have hE : 0x900000 + guardBits g + d.toNat * 16384 + a.toNat * 256 + b.toNat * 4 = packed [(2, 0), (6, b.toNat), (6, a.toNat), (6, d.toNat), (6, 9), (6, q)] := by
    simp only [packed]
    clear hF hw; omega
  have hW := packed_word _ rfl hF hE hw
  clear hw
  have e0 := fld_eq (lo := 14) d hW (packed_at _ hF 3)
  have e1 := fld_eq (lo := 8) a hW (packed_at _ hF 2)
  have e2 := fld_eq (lo := 2) b hW (packed_at _ hF 1)
  obtain ⟨g0, g1⟩ := guard_packed g h hq eq [(2, 0), (6, b.toNat), (6, a.toNat), (6, d.toNat), (6, 9)] rfl ⟨of_decide_eq_true rfl, b.isLt, a.isLt, d.isLt, of_decide_eq_true rfl, hq, trivial⟩ hW
  have hr : vectorRow w = some { instr := some (.vand (guardOf w) (fld w 14 6) (fld w 8 6) (fld w 2 6)), unused := guardBad w, vregs := [fld w 14 6, fld w 8 6, fld w 2 6] } := by
    unfold vectorRow
    rw [fld_num (lo := 20) (len := 6) 9 hW (packed_at _ hF 4)]
    rw [fld_num (lo := 0) (len := 2) 0 hW (packed_at _ hF 0)]
    first | done | rfl
  change decodeWord .vec w = _
  refine decode_ok (p := .vec) (hW.trans hE.symm) (by omega) hr ?_
  refine check_ok rfl rfl ?_ rfl rfl rfl ?_
  · simp [e0, e1, e2, g0, g1]
  · simp only [e0, e1, e2, g0, g1]

theorem vandK (g : Guard) (d : BitVec 6) (a : BitVec 6) (k : BitVec 3) : Statement (.vandK g d a k) := by
  intro h w hw
  change (g.wf) = true at h
  obtain ⟨q, hq, eq⟩ := guardBits_mul g
  have hF : Fits [(2, 1), (3, k.toNat), (3, 0), (6, a.toNat), (6, d.toNat), (6, 9), (6, q)] := ⟨of_decide_eq_true rfl, k.isLt, of_decide_eq_true rfl, a.isLt, d.isLt, of_decide_eq_true rfl, hq, trivial⟩
  have hE : 0x900001 + guardBits g + d.toNat * 16384 + a.toNat * 256 + k.toNat * 4 = packed [(2, 1), (3, k.toNat), (3, 0), (6, a.toNat), (6, d.toNat), (6, 9), (6, q)] := by
    simp only [packed]
    clear hF hw; omega
  have hW := packed_word _ rfl hF hE hw
  clear hw
  have e0 := fld_eq (lo := 14) d hW (packed_at _ hF 4)
  have e1 := fld_eq (lo := 8) a hW (packed_at _ hF 3)
  have e2 := fld_eq (lo := 2) k hW (packed_at _ hF 1)
  obtain ⟨g0, g1⟩ := guard_packed g h hq eq [(2, 1), (3, k.toNat), (3, 0), (6, a.toNat), (6, d.toNat), (6, 9)] rfl ⟨of_decide_eq_true rfl, k.isLt, of_decide_eq_true rfl, a.isLt, d.isLt, of_decide_eq_true rfl, hq, trivial⟩ hW
  have z5 := nz_false (lo := 5) (len := 3) hW (packed_at _ hF 2)
  have hr : vectorRow w = some { instr := some (.vandK (guardOf w) (fld w 14 6) (fld w 8 6) (fld w 2 3)), unused := guardBad w || nz w 5 3, vregs := [fld w 14 6, fld w 8 6] } := by
    unfold vectorRow
    rw [fld_num (lo := 20) (len := 6) 9 hW (packed_at _ hF 5)]
    rw [fld_num (lo := 0) (len := 2) 1 hW (packed_at _ hF 0)]
    first | done | rfl
  change decodeWord .vec w = _
  refine decode_ok (p := .vec) (hW.trans hE.symm) (by omega) hr ?_
  refine check_ok rfl rfl ?_ rfl rfl rfl ?_
  · simp [e0, e1, e2, g0, g1, z5]
  · simp only [e0, e1, e2, g0, g1, z5]

theorem vandI (g : Guard) (d : BitVec 6) (a : BitVec 6) (im : BitVec 6) : Statement (.vandI g d a im) := by
  intro h w hw
  change (g.wf) = true at h
  obtain ⟨q, hq, eq⟩ := guardBits_mul g
  have hF : Fits [(2, 2), (6, im.toNat), (6, a.toNat), (6, d.toNat), (6, 9), (6, q)] := ⟨of_decide_eq_true rfl, im.isLt, a.isLt, d.isLt, of_decide_eq_true rfl, hq, trivial⟩
  have hE : 0x900002 + guardBits g + d.toNat * 16384 + a.toNat * 256 + im.toNat * 4 = packed [(2, 2), (6, im.toNat), (6, a.toNat), (6, d.toNat), (6, 9), (6, q)] := by
    simp only [packed]
    clear hF hw; omega
  have hW := packed_word _ rfl hF hE hw
  clear hw
  have e0 := fld_eq (lo := 14) d hW (packed_at _ hF 3)
  have e1 := fld_eq (lo := 8) a hW (packed_at _ hF 2)
  have e2 := fld_eq (lo := 2) im hW (packed_at _ hF 1)
  obtain ⟨g0, g1⟩ := guard_packed g h hq eq [(2, 2), (6, im.toNat), (6, a.toNat), (6, d.toNat), (6, 9)] rfl ⟨of_decide_eq_true rfl, im.isLt, a.isLt, d.isLt, of_decide_eq_true rfl, hq, trivial⟩ hW
  have hr : vectorRow w = some { instr := some (.vandI (guardOf w) (fld w 14 6) (fld w 8 6) (fld w 2 6)), unused := guardBad w, vregs := [fld w 14 6, fld w 8 6] } := by
    unfold vectorRow
    rw [fld_num (lo := 20) (len := 6) 9 hW (packed_at _ hF 4)]
    rw [fld_num (lo := 0) (len := 2) 2 hW (packed_at _ hF 0)]
    first | done | rfl
  change decodeWord .vec w = _
  refine decode_ok (p := .vec) (hW.trans hE.symm) (by omega) hr ?_
  refine check_ok rfl rfl ?_ rfl rfl rfl ?_
  · simp [e0, e1, e2, g0, g1]
  · simp only [e0, e1, e2, g0, g1]

theorem vor (g : Guard) (d : BitVec 6) (a : BitVec 6) (b : BitVec 6) : Statement (.vor g d a b) := by
  intro h w hw
  change (g.wf) = true at h
  obtain ⟨q, hq, eq⟩ := guardBits_mul g
  have hF : Fits [(2, 0), (6, b.toNat), (6, a.toNat), (6, d.toNat), (6, 10), (6, q)] := ⟨of_decide_eq_true rfl, b.isLt, a.isLt, d.isLt, of_decide_eq_true rfl, hq, trivial⟩
  have hE : 0xa00000 + guardBits g + d.toNat * 16384 + a.toNat * 256 + b.toNat * 4 = packed [(2, 0), (6, b.toNat), (6, a.toNat), (6, d.toNat), (6, 10), (6, q)] := by
    simp only [packed]
    clear hF hw; omega
  have hW := packed_word _ rfl hF hE hw
  clear hw
  have e0 := fld_eq (lo := 14) d hW (packed_at _ hF 3)
  have e1 := fld_eq (lo := 8) a hW (packed_at _ hF 2)
  have e2 := fld_eq (lo := 2) b hW (packed_at _ hF 1)
  obtain ⟨g0, g1⟩ := guard_packed g h hq eq [(2, 0), (6, b.toNat), (6, a.toNat), (6, d.toNat), (6, 10)] rfl ⟨of_decide_eq_true rfl, b.isLt, a.isLt, d.isLt, of_decide_eq_true rfl, hq, trivial⟩ hW
  have hr : vectorRow w = some { instr := some (.vor (guardOf w) (fld w 14 6) (fld w 8 6) (fld w 2 6)), unused := guardBad w, vregs := [fld w 14 6, fld w 8 6, fld w 2 6] } := by
    unfold vectorRow
    rw [fld_num (lo := 20) (len := 6) 10 hW (packed_at _ hF 4)]
    rw [fld_num (lo := 0) (len := 2) 0 hW (packed_at _ hF 0)]
    first | done | rfl
  change decodeWord .vec w = _
  refine decode_ok (p := .vec) (hW.trans hE.symm) (by omega) hr ?_
  refine check_ok rfl rfl ?_ rfl rfl rfl ?_
  · simp [e0, e1, e2, g0, g1]
  · simp only [e0, e1, e2, g0, g1]

theorem vorK (g : Guard) (d : BitVec 6) (a : BitVec 6) (k : BitVec 3) : Statement (.vorK g d a k) := by
  intro h w hw
  change (g.wf) = true at h
  obtain ⟨q, hq, eq⟩ := guardBits_mul g
  have hF : Fits [(2, 1), (3, k.toNat), (3, 0), (6, a.toNat), (6, d.toNat), (6, 10), (6, q)] := ⟨of_decide_eq_true rfl, k.isLt, of_decide_eq_true rfl, a.isLt, d.isLt, of_decide_eq_true rfl, hq, trivial⟩
  have hE : 0xa00001 + guardBits g + d.toNat * 16384 + a.toNat * 256 + k.toNat * 4 = packed [(2, 1), (3, k.toNat), (3, 0), (6, a.toNat), (6, d.toNat), (6, 10), (6, q)] := by
    simp only [packed]
    clear hF hw; omega
  have hW := packed_word _ rfl hF hE hw
  clear hw
  have e0 := fld_eq (lo := 14) d hW (packed_at _ hF 4)
  have e1 := fld_eq (lo := 8) a hW (packed_at _ hF 3)
  have e2 := fld_eq (lo := 2) k hW (packed_at _ hF 1)
  obtain ⟨g0, g1⟩ := guard_packed g h hq eq [(2, 1), (3, k.toNat), (3, 0), (6, a.toNat), (6, d.toNat), (6, 10)] rfl ⟨of_decide_eq_true rfl, k.isLt, of_decide_eq_true rfl, a.isLt, d.isLt, of_decide_eq_true rfl, hq, trivial⟩ hW
  have z5 := nz_false (lo := 5) (len := 3) hW (packed_at _ hF 2)
  have hr : vectorRow w = some { instr := some (.vorK (guardOf w) (fld w 14 6) (fld w 8 6) (fld w 2 3)), unused := guardBad w || nz w 5 3, vregs := [fld w 14 6, fld w 8 6] } := by
    unfold vectorRow
    rw [fld_num (lo := 20) (len := 6) 10 hW (packed_at _ hF 5)]
    rw [fld_num (lo := 0) (len := 2) 1 hW (packed_at _ hF 0)]
    first | done | rfl
  change decodeWord .vec w = _
  refine decode_ok (p := .vec) (hW.trans hE.symm) (by omega) hr ?_
  refine check_ok rfl rfl ?_ rfl rfl rfl ?_
  · simp [e0, e1, e2, g0, g1, z5]
  · simp only [e0, e1, e2, g0, g1, z5]

theorem vorI (g : Guard) (d : BitVec 6) (a : BitVec 6) (im : BitVec 6) : Statement (.vorI g d a im) := by
  intro h w hw
  change (g.wf) = true at h
  obtain ⟨q, hq, eq⟩ := guardBits_mul g
  have hF : Fits [(2, 2), (6, im.toNat), (6, a.toNat), (6, d.toNat), (6, 10), (6, q)] := ⟨of_decide_eq_true rfl, im.isLt, a.isLt, d.isLt, of_decide_eq_true rfl, hq, trivial⟩
  have hE : 0xa00002 + guardBits g + d.toNat * 16384 + a.toNat * 256 + im.toNat * 4 = packed [(2, 2), (6, im.toNat), (6, a.toNat), (6, d.toNat), (6, 10), (6, q)] := by
    simp only [packed]
    clear hF hw; omega
  have hW := packed_word _ rfl hF hE hw
  clear hw
  have e0 := fld_eq (lo := 14) d hW (packed_at _ hF 3)
  have e1 := fld_eq (lo := 8) a hW (packed_at _ hF 2)
  have e2 := fld_eq (lo := 2) im hW (packed_at _ hF 1)
  obtain ⟨g0, g1⟩ := guard_packed g h hq eq [(2, 2), (6, im.toNat), (6, a.toNat), (6, d.toNat), (6, 10)] rfl ⟨of_decide_eq_true rfl, im.isLt, a.isLt, d.isLt, of_decide_eq_true rfl, hq, trivial⟩ hW
  have hr : vectorRow w = some { instr := some (.vorI (guardOf w) (fld w 14 6) (fld w 8 6) (fld w 2 6)), unused := guardBad w, vregs := [fld w 14 6, fld w 8 6] } := by
    unfold vectorRow
    rw [fld_num (lo := 20) (len := 6) 10 hW (packed_at _ hF 4)]
    rw [fld_num (lo := 0) (len := 2) 2 hW (packed_at _ hF 0)]
    first | done | rfl
  change decodeWord .vec w = _
  refine decode_ok (p := .vec) (hW.trans hE.symm) (by omega) hr ?_
  refine check_ok rfl rfl ?_ rfl rfl rfl ?_
  · simp [e0, e1, e2, g0, g1]
  · simp only [e0, e1, e2, g0, g1]

theorem vxor (g : Guard) (d : BitVec 6) (a : BitVec 6) (b : BitVec 6) : Statement (.vxor g d a b) := by
  intro h w hw
  change (g.wf) = true at h
  obtain ⟨q, hq, eq⟩ := guardBits_mul g
  have hF : Fits [(2, 0), (6, b.toNat), (6, a.toNat), (6, d.toNat), (6, 11), (6, q)] := ⟨of_decide_eq_true rfl, b.isLt, a.isLt, d.isLt, of_decide_eq_true rfl, hq, trivial⟩
  have hE : 0xb00000 + guardBits g + d.toNat * 16384 + a.toNat * 256 + b.toNat * 4 = packed [(2, 0), (6, b.toNat), (6, a.toNat), (6, d.toNat), (6, 11), (6, q)] := by
    simp only [packed]
    clear hF hw; omega
  have hW := packed_word _ rfl hF hE hw
  clear hw
  have e0 := fld_eq (lo := 14) d hW (packed_at _ hF 3)
  have e1 := fld_eq (lo := 8) a hW (packed_at _ hF 2)
  have e2 := fld_eq (lo := 2) b hW (packed_at _ hF 1)
  obtain ⟨g0, g1⟩ := guard_packed g h hq eq [(2, 0), (6, b.toNat), (6, a.toNat), (6, d.toNat), (6, 11)] rfl ⟨of_decide_eq_true rfl, b.isLt, a.isLt, d.isLt, of_decide_eq_true rfl, hq, trivial⟩ hW
  have hr : vectorRow w = some { instr := some (.vxor (guardOf w) (fld w 14 6) (fld w 8 6) (fld w 2 6)), unused := guardBad w, vregs := [fld w 14 6, fld w 8 6, fld w 2 6] } := by
    unfold vectorRow
    rw [fld_num (lo := 20) (len := 6) 11 hW (packed_at _ hF 4)]
    rw [fld_num (lo := 0) (len := 2) 0 hW (packed_at _ hF 0)]
    first | done | rfl
  change decodeWord .vec w = _
  refine decode_ok (p := .vec) (hW.trans hE.symm) (by omega) hr ?_
  refine check_ok rfl rfl ?_ rfl rfl rfl ?_
  · simp [e0, e1, e2, g0, g1]
  · simp only [e0, e1, e2, g0, g1]

theorem vxorK (g : Guard) (d : BitVec 6) (a : BitVec 6) (k : BitVec 3) : Statement (.vxorK g d a k) := by
  intro h w hw
  change (g.wf) = true at h
  obtain ⟨q, hq, eq⟩ := guardBits_mul g
  have hF : Fits [(2, 1), (3, k.toNat), (3, 0), (6, a.toNat), (6, d.toNat), (6, 11), (6, q)] := ⟨of_decide_eq_true rfl, k.isLt, of_decide_eq_true rfl, a.isLt, d.isLt, of_decide_eq_true rfl, hq, trivial⟩
  have hE : 0xb00001 + guardBits g + d.toNat * 16384 + a.toNat * 256 + k.toNat * 4 = packed [(2, 1), (3, k.toNat), (3, 0), (6, a.toNat), (6, d.toNat), (6, 11), (6, q)] := by
    simp only [packed]
    clear hF hw; omega
  have hW := packed_word _ rfl hF hE hw
  clear hw
  have e0 := fld_eq (lo := 14) d hW (packed_at _ hF 4)
  have e1 := fld_eq (lo := 8) a hW (packed_at _ hF 3)
  have e2 := fld_eq (lo := 2) k hW (packed_at _ hF 1)
  obtain ⟨g0, g1⟩ := guard_packed g h hq eq [(2, 1), (3, k.toNat), (3, 0), (6, a.toNat), (6, d.toNat), (6, 11)] rfl ⟨of_decide_eq_true rfl, k.isLt, of_decide_eq_true rfl, a.isLt, d.isLt, of_decide_eq_true rfl, hq, trivial⟩ hW
  have z5 := nz_false (lo := 5) (len := 3) hW (packed_at _ hF 2)
  have hr : vectorRow w = some { instr := some (.vxorK (guardOf w) (fld w 14 6) (fld w 8 6) (fld w 2 3)), unused := guardBad w || nz w 5 3, vregs := [fld w 14 6, fld w 8 6] } := by
    unfold vectorRow
    rw [fld_num (lo := 20) (len := 6) 11 hW (packed_at _ hF 5)]
    rw [fld_num (lo := 0) (len := 2) 1 hW (packed_at _ hF 0)]
    first | done | rfl
  change decodeWord .vec w = _
  refine decode_ok (p := .vec) (hW.trans hE.symm) (by omega) hr ?_
  refine check_ok rfl rfl ?_ rfl rfl rfl ?_
  · simp [e0, e1, e2, g0, g1, z5]
  · simp only [e0, e1, e2, g0, g1, z5]

theorem vxorI (g : Guard) (d : BitVec 6) (a : BitVec 6) (im : BitVec 6) : Statement (.vxorI g d a im) := by
  intro h w hw
  change (g.wf) = true at h
  obtain ⟨q, hq, eq⟩ := guardBits_mul g
  have hF : Fits [(2, 2), (6, im.toNat), (6, a.toNat), (6, d.toNat), (6, 11), (6, q)] := ⟨of_decide_eq_true rfl, im.isLt, a.isLt, d.isLt, of_decide_eq_true rfl, hq, trivial⟩
  have hE : 0xb00002 + guardBits g + d.toNat * 16384 + a.toNat * 256 + im.toNat * 4 = packed [(2, 2), (6, im.toNat), (6, a.toNat), (6, d.toNat), (6, 11), (6, q)] := by
    simp only [packed]
    clear hF hw; omega
  have hW := packed_word _ rfl hF hE hw
  clear hw
  have e0 := fld_eq (lo := 14) d hW (packed_at _ hF 3)
  have e1 := fld_eq (lo := 8) a hW (packed_at _ hF 2)
  have e2 := fld_eq (lo := 2) im hW (packed_at _ hF 1)
  obtain ⟨g0, g1⟩ := guard_packed g h hq eq [(2, 2), (6, im.toNat), (6, a.toNat), (6, d.toNat), (6, 11)] rfl ⟨of_decide_eq_true rfl, im.isLt, a.isLt, d.isLt, of_decide_eq_true rfl, hq, trivial⟩ hW
  have hr : vectorRow w = some { instr := some (.vxorI (guardOf w) (fld w 14 6) (fld w 8 6) (fld w 2 6)), unused := guardBad w, vregs := [fld w 14 6, fld w 8 6] } := by
    unfold vectorRow
    rw [fld_num (lo := 20) (len := 6) 11 hW (packed_at _ hF 4)]
    rw [fld_num (lo := 0) (len := 2) 2 hW (packed_at _ hF 0)]
    first | done | rfl
  change decodeWord .vec w = _
  refine decode_ok (p := .vec) (hW.trans hE.symm) (by omega) hr ?_
  refine check_ok rfl rfl ?_ rfl rfl rfl ?_
  · simp [e0, e1, e2, g0, g1]
  · simp only [e0, e1, e2, g0, g1]

theorem vshl (g : Guard) (d : BitVec 6) (a : BitVec 6) (b : BitVec 6) : Statement (.vshl g d a b) := by
  intro h w hw
  change (g.wf) = true at h
  obtain ⟨q, hq, eq⟩ := guardBits_mul g
  have hF : Fits [(2, 0), (6, b.toNat), (6, a.toNat), (6, d.toNat), (6, 12), (6, q)] := ⟨of_decide_eq_true rfl, b.isLt, a.isLt, d.isLt, of_decide_eq_true rfl, hq, trivial⟩
  have hE : 0xc00000 + guardBits g + d.toNat * 16384 + a.toNat * 256 + b.toNat * 4 = packed [(2, 0), (6, b.toNat), (6, a.toNat), (6, d.toNat), (6, 12), (6, q)] := by
    simp only [packed]
    clear hF hw; omega
  have hW := packed_word _ rfl hF hE hw
  clear hw
  have e0 := fld_eq (lo := 14) d hW (packed_at _ hF 3)
  have e1 := fld_eq (lo := 8) a hW (packed_at _ hF 2)
  have e2 := fld_eq (lo := 2) b hW (packed_at _ hF 1)
  obtain ⟨g0, g1⟩ := guard_packed g h hq eq [(2, 0), (6, b.toNat), (6, a.toNat), (6, d.toNat), (6, 12)] rfl ⟨of_decide_eq_true rfl, b.isLt, a.isLt, d.isLt, of_decide_eq_true rfl, hq, trivial⟩ hW
  have hr : vectorRow w = some { instr := some (.vshl (guardOf w) (fld w 14 6) (fld w 8 6) (fld w 2 6)), unused := guardBad w, vregs := [fld w 14 6, fld w 8 6, fld w 2 6] } := by
    unfold vectorRow
    rw [fld_num (lo := 20) (len := 6) 12 hW (packed_at _ hF 4)]
    rw [fld_num (lo := 0) (len := 2) 0 hW (packed_at _ hF 0)]
    first | done | rfl
  change decodeWord .vec w = _
  refine decode_ok (p := .vec) (hW.trans hE.symm) (by omega) hr ?_
  refine check_ok rfl rfl ?_ rfl rfl rfl ?_
  · simp [e0, e1, e2, g0, g1]
  · simp only [e0, e1, e2, g0, g1]

theorem vshlK (g : Guard) (d : BitVec 6) (a : BitVec 6) (k : BitVec 3) : Statement (.vshlK g d a k) := by
  intro h w hw
  change (g.wf) = true at h
  obtain ⟨q, hq, eq⟩ := guardBits_mul g
  have hF : Fits [(2, 1), (3, k.toNat), (3, 0), (6, a.toNat), (6, d.toNat), (6, 12), (6, q)] := ⟨of_decide_eq_true rfl, k.isLt, of_decide_eq_true rfl, a.isLt, d.isLt, of_decide_eq_true rfl, hq, trivial⟩
  have hE : 0xc00001 + guardBits g + d.toNat * 16384 + a.toNat * 256 + k.toNat * 4 = packed [(2, 1), (3, k.toNat), (3, 0), (6, a.toNat), (6, d.toNat), (6, 12), (6, q)] := by
    simp only [packed]
    clear hF hw; omega
  have hW := packed_word _ rfl hF hE hw
  clear hw
  have e0 := fld_eq (lo := 14) d hW (packed_at _ hF 4)
  have e1 := fld_eq (lo := 8) a hW (packed_at _ hF 3)
  have e2 := fld_eq (lo := 2) k hW (packed_at _ hF 1)
  obtain ⟨g0, g1⟩ := guard_packed g h hq eq [(2, 1), (3, k.toNat), (3, 0), (6, a.toNat), (6, d.toNat), (6, 12)] rfl ⟨of_decide_eq_true rfl, k.isLt, of_decide_eq_true rfl, a.isLt, d.isLt, of_decide_eq_true rfl, hq, trivial⟩ hW
  have z5 := nz_false (lo := 5) (len := 3) hW (packed_at _ hF 2)
  have hr : vectorRow w = some { instr := some (.vshlK (guardOf w) (fld w 14 6) (fld w 8 6) (fld w 2 3)), unused := guardBad w || nz w 5 3, vregs := [fld w 14 6, fld w 8 6] } := by
    unfold vectorRow
    rw [fld_num (lo := 20) (len := 6) 12 hW (packed_at _ hF 5)]
    rw [fld_num (lo := 0) (len := 2) 1 hW (packed_at _ hF 0)]
    first | done | rfl
  change decodeWord .vec w = _
  refine decode_ok (p := .vec) (hW.trans hE.symm) (by omega) hr ?_
  refine check_ok rfl rfl ?_ rfl rfl rfl ?_
  · simp [e0, e1, e2, g0, g1, z5]
  · simp only [e0, e1, e2, g0, g1, z5]

theorem vshlI (g : Guard) (d : BitVec 6) (a : BitVec 6) (im : BitVec 6) : Statement (.vshlI g d a im) := by
  intro h w hw
  change (g.wf) = true at h
  obtain ⟨q, hq, eq⟩ := guardBits_mul g
  have hF : Fits [(2, 2), (6, im.toNat), (6, a.toNat), (6, d.toNat), (6, 12), (6, q)] := ⟨of_decide_eq_true rfl, im.isLt, a.isLt, d.isLt, of_decide_eq_true rfl, hq, trivial⟩
  have hE : 0xc00002 + guardBits g + d.toNat * 16384 + a.toNat * 256 + im.toNat * 4 = packed [(2, 2), (6, im.toNat), (6, a.toNat), (6, d.toNat), (6, 12), (6, q)] := by
    simp only [packed]
    clear hF hw; omega
  have hW := packed_word _ rfl hF hE hw
  clear hw
  have e0 := fld_eq (lo := 14) d hW (packed_at _ hF 3)
  have e1 := fld_eq (lo := 8) a hW (packed_at _ hF 2)
  have e2 := fld_eq (lo := 2) im hW (packed_at _ hF 1)
  obtain ⟨g0, g1⟩ := guard_packed g h hq eq [(2, 2), (6, im.toNat), (6, a.toNat), (6, d.toNat), (6, 12)] rfl ⟨of_decide_eq_true rfl, im.isLt, a.isLt, d.isLt, of_decide_eq_true rfl, hq, trivial⟩ hW
  have hr : vectorRow w = some { instr := some (.vshlI (guardOf w) (fld w 14 6) (fld w 8 6) (fld w 2 6)), unused := guardBad w, vregs := [fld w 14 6, fld w 8 6] } := by
    unfold vectorRow
    rw [fld_num (lo := 20) (len := 6) 12 hW (packed_at _ hF 4)]
    rw [fld_num (lo := 0) (len := 2) 2 hW (packed_at _ hF 0)]
    first | done | rfl
  change decodeWord .vec w = _
  refine decode_ok (p := .vec) (hW.trans hE.symm) (by omega) hr ?_
  refine check_ok rfl rfl ?_ rfl rfl rfl ?_
  · simp [e0, e1, e2, g0, g1]
  · simp only [e0, e1, e2, g0, g1]

theorem vshr (g : Guard) (d : BitVec 6) (a : BitVec 6) (b : BitVec 6) : Statement (.vshr g d a b) := by
  intro h w hw
  change (g.wf) = true at h
  obtain ⟨q, hq, eq⟩ := guardBits_mul g
  have hF : Fits [(2, 0), (6, b.toNat), (6, a.toNat), (6, d.toNat), (6, 13), (6, q)] := ⟨of_decide_eq_true rfl, b.isLt, a.isLt, d.isLt, of_decide_eq_true rfl, hq, trivial⟩
  have hE : 0xd00000 + guardBits g + d.toNat * 16384 + a.toNat * 256 + b.toNat * 4 = packed [(2, 0), (6, b.toNat), (6, a.toNat), (6, d.toNat), (6, 13), (6, q)] := by
    simp only [packed]
    clear hF hw; omega
  have hW := packed_word _ rfl hF hE hw
  clear hw
  have e0 := fld_eq (lo := 14) d hW (packed_at _ hF 3)
  have e1 := fld_eq (lo := 8) a hW (packed_at _ hF 2)
  have e2 := fld_eq (lo := 2) b hW (packed_at _ hF 1)
  obtain ⟨g0, g1⟩ := guard_packed g h hq eq [(2, 0), (6, b.toNat), (6, a.toNat), (6, d.toNat), (6, 13)] rfl ⟨of_decide_eq_true rfl, b.isLt, a.isLt, d.isLt, of_decide_eq_true rfl, hq, trivial⟩ hW
  have hr : vectorRow w = some { instr := some (.vshr (guardOf w) (fld w 14 6) (fld w 8 6) (fld w 2 6)), unused := guardBad w, vregs := [fld w 14 6, fld w 8 6, fld w 2 6] } := by
    unfold vectorRow
    rw [fld_num (lo := 20) (len := 6) 13 hW (packed_at _ hF 4)]
    rw [fld_num (lo := 0) (len := 2) 0 hW (packed_at _ hF 0)]
    first | done | rfl
  change decodeWord .vec w = _
  refine decode_ok (p := .vec) (hW.trans hE.symm) (by omega) hr ?_
  refine check_ok rfl rfl ?_ rfl rfl rfl ?_
  · simp [e0, e1, e2, g0, g1]
  · simp only [e0, e1, e2, g0, g1]

theorem vshrK (g : Guard) (d : BitVec 6) (a : BitVec 6) (k : BitVec 3) : Statement (.vshrK g d a k) := by
  intro h w hw
  change (g.wf) = true at h
  obtain ⟨q, hq, eq⟩ := guardBits_mul g
  have hF : Fits [(2, 1), (3, k.toNat), (3, 0), (6, a.toNat), (6, d.toNat), (6, 13), (6, q)] := ⟨of_decide_eq_true rfl, k.isLt, of_decide_eq_true rfl, a.isLt, d.isLt, of_decide_eq_true rfl, hq, trivial⟩
  have hE : 0xd00001 + guardBits g + d.toNat * 16384 + a.toNat * 256 + k.toNat * 4 = packed [(2, 1), (3, k.toNat), (3, 0), (6, a.toNat), (6, d.toNat), (6, 13), (6, q)] := by
    simp only [packed]
    clear hF hw; omega
  have hW := packed_word _ rfl hF hE hw
  clear hw
  have e0 := fld_eq (lo := 14) d hW (packed_at _ hF 4)
  have e1 := fld_eq (lo := 8) a hW (packed_at _ hF 3)
  have e2 := fld_eq (lo := 2) k hW (packed_at _ hF 1)
  obtain ⟨g0, g1⟩ := guard_packed g h hq eq [(2, 1), (3, k.toNat), (3, 0), (6, a.toNat), (6, d.toNat), (6, 13)] rfl ⟨of_decide_eq_true rfl, k.isLt, of_decide_eq_true rfl, a.isLt, d.isLt, of_decide_eq_true rfl, hq, trivial⟩ hW
  have z5 := nz_false (lo := 5) (len := 3) hW (packed_at _ hF 2)
  have hr : vectorRow w = some { instr := some (.vshrK (guardOf w) (fld w 14 6) (fld w 8 6) (fld w 2 3)), unused := guardBad w || nz w 5 3, vregs := [fld w 14 6, fld w 8 6] } := by
    unfold vectorRow
    rw [fld_num (lo := 20) (len := 6) 13 hW (packed_at _ hF 5)]
    rw [fld_num (lo := 0) (len := 2) 1 hW (packed_at _ hF 0)]
    first | done | rfl
  change decodeWord .vec w = _
  refine decode_ok (p := .vec) (hW.trans hE.symm) (by omega) hr ?_
  refine check_ok rfl rfl ?_ rfl rfl rfl ?_
  · simp [e0, e1, e2, g0, g1, z5]
  · simp only [e0, e1, e2, g0, g1, z5]

theorem vshrI (g : Guard) (d : BitVec 6) (a : BitVec 6) (im : BitVec 6) : Statement (.vshrI g d a im) := by
  intro h w hw
  change (g.wf) = true at h
  obtain ⟨q, hq, eq⟩ := guardBits_mul g
  have hF : Fits [(2, 2), (6, im.toNat), (6, a.toNat), (6, d.toNat), (6, 13), (6, q)] := ⟨of_decide_eq_true rfl, im.isLt, a.isLt, d.isLt, of_decide_eq_true rfl, hq, trivial⟩
  have hE : 0xd00002 + guardBits g + d.toNat * 16384 + a.toNat * 256 + im.toNat * 4 = packed [(2, 2), (6, im.toNat), (6, a.toNat), (6, d.toNat), (6, 13), (6, q)] := by
    simp only [packed]
    clear hF hw; omega
  have hW := packed_word _ rfl hF hE hw
  clear hw
  have e0 := fld_eq (lo := 14) d hW (packed_at _ hF 3)
  have e1 := fld_eq (lo := 8) a hW (packed_at _ hF 2)
  have e2 := fld_eq (lo := 2) im hW (packed_at _ hF 1)
  obtain ⟨g0, g1⟩ := guard_packed g h hq eq [(2, 2), (6, im.toNat), (6, a.toNat), (6, d.toNat), (6, 13)] rfl ⟨of_decide_eq_true rfl, im.isLt, a.isLt, d.isLt, of_decide_eq_true rfl, hq, trivial⟩ hW
  have hr : vectorRow w = some { instr := some (.vshrI (guardOf w) (fld w 14 6) (fld w 8 6) (fld w 2 6)), unused := guardBad w, vregs := [fld w 14 6, fld w 8 6] } := by
    unfold vectorRow
    rw [fld_num (lo := 20) (len := 6) 13 hW (packed_at _ hF 4)]
    rw [fld_num (lo := 0) (len := 2) 2 hW (packed_at _ hF 0)]
    first | done | rfl
  change decodeWord .vec w = _
  refine decode_ok (p := .vec) (hW.trans hE.symm) (by omega) hr ?_
  refine check_ok rfl rfl ?_ rfl rfl rfl ?_
  · simp [e0, e1, e2, g0, g1]
  · simp only [e0, e1, e2, g0, g1]

theorem vsar (g : Guard) (d : BitVec 6) (a : BitVec 6) (b : BitVec 6) : Statement (.vsar g d a b) := by
  intro h w hw
  change (g.wf) = true at h
  obtain ⟨q, hq, eq⟩ := guardBits_mul g
  have hF : Fits [(2, 0), (6, b.toNat), (6, a.toNat), (6, d.toNat), (6, 14), (6, q)] := ⟨of_decide_eq_true rfl, b.isLt, a.isLt, d.isLt, of_decide_eq_true rfl, hq, trivial⟩
  have hE : 0xe00000 + guardBits g + d.toNat * 16384 + a.toNat * 256 + b.toNat * 4 = packed [(2, 0), (6, b.toNat), (6, a.toNat), (6, d.toNat), (6, 14), (6, q)] := by
    simp only [packed]
    clear hF hw; omega
  have hW := packed_word _ rfl hF hE hw
  clear hw
  have e0 := fld_eq (lo := 14) d hW (packed_at _ hF 3)
  have e1 := fld_eq (lo := 8) a hW (packed_at _ hF 2)
  have e2 := fld_eq (lo := 2) b hW (packed_at _ hF 1)
  obtain ⟨g0, g1⟩ := guard_packed g h hq eq [(2, 0), (6, b.toNat), (6, a.toNat), (6, d.toNat), (6, 14)] rfl ⟨of_decide_eq_true rfl, b.isLt, a.isLt, d.isLt, of_decide_eq_true rfl, hq, trivial⟩ hW
  have hr : vectorRow w = some { instr := some (.vsar (guardOf w) (fld w 14 6) (fld w 8 6) (fld w 2 6)), unused := guardBad w, vregs := [fld w 14 6, fld w 8 6, fld w 2 6] } := by
    unfold vectorRow
    rw [fld_num (lo := 20) (len := 6) 14 hW (packed_at _ hF 4)]
    rw [fld_num (lo := 0) (len := 2) 0 hW (packed_at _ hF 0)]
    first | done | rfl
  change decodeWord .vec w = _
  refine decode_ok (p := .vec) (hW.trans hE.symm) (by omega) hr ?_
  refine check_ok rfl rfl ?_ rfl rfl rfl ?_
  · simp [e0, e1, e2, g0, g1]
  · simp only [e0, e1, e2, g0, g1]

theorem vsarK (g : Guard) (d : BitVec 6) (a : BitVec 6) (k : BitVec 3) : Statement (.vsarK g d a k) := by
  intro h w hw
  change (g.wf) = true at h
  obtain ⟨q, hq, eq⟩ := guardBits_mul g
  have hF : Fits [(2, 1), (3, k.toNat), (3, 0), (6, a.toNat), (6, d.toNat), (6, 14), (6, q)] := ⟨of_decide_eq_true rfl, k.isLt, of_decide_eq_true rfl, a.isLt, d.isLt, of_decide_eq_true rfl, hq, trivial⟩
  have hE : 0xe00001 + guardBits g + d.toNat * 16384 + a.toNat * 256 + k.toNat * 4 = packed [(2, 1), (3, k.toNat), (3, 0), (6, a.toNat), (6, d.toNat), (6, 14), (6, q)] := by
    simp only [packed]
    clear hF hw; omega
  have hW := packed_word _ rfl hF hE hw
  clear hw
  have e0 := fld_eq (lo := 14) d hW (packed_at _ hF 4)
  have e1 := fld_eq (lo := 8) a hW (packed_at _ hF 3)
  have e2 := fld_eq (lo := 2) k hW (packed_at _ hF 1)
  obtain ⟨g0, g1⟩ := guard_packed g h hq eq [(2, 1), (3, k.toNat), (3, 0), (6, a.toNat), (6, d.toNat), (6, 14)] rfl ⟨of_decide_eq_true rfl, k.isLt, of_decide_eq_true rfl, a.isLt, d.isLt, of_decide_eq_true rfl, hq, trivial⟩ hW
  have z5 := nz_false (lo := 5) (len := 3) hW (packed_at _ hF 2)
  have hr : vectorRow w = some { instr := some (.vsarK (guardOf w) (fld w 14 6) (fld w 8 6) (fld w 2 3)), unused := guardBad w || nz w 5 3, vregs := [fld w 14 6, fld w 8 6] } := by
    unfold vectorRow
    rw [fld_num (lo := 20) (len := 6) 14 hW (packed_at _ hF 5)]
    rw [fld_num (lo := 0) (len := 2) 1 hW (packed_at _ hF 0)]
    first | done | rfl
  change decodeWord .vec w = _
  refine decode_ok (p := .vec) (hW.trans hE.symm) (by omega) hr ?_
  refine check_ok rfl rfl ?_ rfl rfl rfl ?_
  · simp [e0, e1, e2, g0, g1, z5]
  · simp only [e0, e1, e2, g0, g1, z5]

theorem vsarI (g : Guard) (d : BitVec 6) (a : BitVec 6) (im : BitVec 6) : Statement (.vsarI g d a im) := by
  intro h w hw
  change (g.wf) = true at h
  obtain ⟨q, hq, eq⟩ := guardBits_mul g
  have hF : Fits [(2, 2), (6, im.toNat), (6, a.toNat), (6, d.toNat), (6, 14), (6, q)] := ⟨of_decide_eq_true rfl, im.isLt, a.isLt, d.isLt, of_decide_eq_true rfl, hq, trivial⟩
  have hE : 0xe00002 + guardBits g + d.toNat * 16384 + a.toNat * 256 + im.toNat * 4 = packed [(2, 2), (6, im.toNat), (6, a.toNat), (6, d.toNat), (6, 14), (6, q)] := by
    simp only [packed]
    clear hF hw; omega
  have hW := packed_word _ rfl hF hE hw
  clear hw
  have e0 := fld_eq (lo := 14) d hW (packed_at _ hF 3)
  have e1 := fld_eq (lo := 8) a hW (packed_at _ hF 2)
  have e2 := fld_eq (lo := 2) im hW (packed_at _ hF 1)
  obtain ⟨g0, g1⟩ := guard_packed g h hq eq [(2, 2), (6, im.toNat), (6, a.toNat), (6, d.toNat), (6, 14)] rfl ⟨of_decide_eq_true rfl, im.isLt, a.isLt, d.isLt, of_decide_eq_true rfl, hq, trivial⟩ hW
  have hr : vectorRow w = some { instr := some (.vsarI (guardOf w) (fld w 14 6) (fld w 8 6) (fld w 2 6)), unused := guardBad w, vregs := [fld w 14 6, fld w 8 6] } := by
    unfold vectorRow
    rw [fld_num (lo := 20) (len := 6) 14 hW (packed_at _ hF 4)]
    rw [fld_num (lo := 0) (len := 2) 2 hW (packed_at _ hF 0)]
    first | done | rfl
  change decodeWord .vec w = _
  refine decode_ok (p := .vec) (hW.trans hE.symm) (by omega) hr ?_
  refine check_ok rfl rfl ?_ rfl rfl rfl ?_
  · simp [e0, e1, e2, g0, g1]
  · simp only [e0, e1, e2, g0, g1]

theorem vsel (neg : BitVec 1) (g : BitVec 4) (d : BitVec 6) (a : BitVec 6) (b : BitVec 6) : Statement (.vsel neg g d a b) := by
  intro h w hw
  clear h
  have hF : Fits [(2, 0), (6, b.toNat), (6, a.toNat), (6, d.toNat), (6, 15), (4, g.toNat), (1, neg.toNat), (1, 1)] := ⟨of_decide_eq_true rfl, b.isLt, a.isLt, d.isLt, of_decide_eq_true rfl, g.isLt, neg.isLt, of_decide_eq_true rfl, trivial⟩
  have hE : 0x80f00000 + neg.toNat * 1073741824 + g.toNat * 67108864 + d.toNat * 16384 + a.toNat * 256 + b.toNat * 4 = packed [(2, 0), (6, b.toNat), (6, a.toNat), (6, d.toNat), (6, 15), (4, g.toNat), (1, neg.toNat), (1, 1)] := by
    simp only [packed]
    clear hF hw; omega
  have hW := packed_word _ rfl hF hE hw
  clear hw
  have e0 := fld_eq (lo := 30) neg hW (packed_at _ hF 6)
  have e1 := fld_eq (lo := 26) g hW (packed_at _ hF 5)
  have e2 := fld_eq (lo := 14) d hW (packed_at _ hF 3)
  have e3 := fld_eq (lo := 8) a hW (packed_at _ hF 2)
  have e4 := fld_eq (lo := 2) b hW (packed_at _ hF 1)
  have hN := hW.trans hE.symm
  have hb0 := neg.isLt
  have hb1 := g.isLt
  have hb2 := d.isLt
  have hb3 := a.isLt
  have hb4 := b.isLt
  have g1 := guardBad_e hN (by omega)
  have z6 := nz_true (lo := 31) (len := 1) hN (by first | omega | (simp only [BitVec.toNat_eq] at h; simp at h; omega))
  have hr : vectorRow w = some { instr := some (.vsel (fld w 30 1) (fld w 26 4) (fld w 14 6) (fld w 8 6) (fld w 2 6)), unused := guardBad w, vregs := [fld w 14 6, fld w 8 6, fld w 2 6], form := !nz w 31 1 } := by
    unfold vectorRow
    rw [fld_num (lo := 20) (len := 6) 15 hW (packed_at _ hF 4)]
    rw [fld_num (lo := 0) (len := 2) 0 hW (packed_at _ hF 0)]
    first | done | rfl
  change decodeWord .vec w = _
  refine decode_ok (p := .vec) (hW.trans hE.symm) (by omega) hr ?_
  refine check_ok rfl rfl ?_ rfl rfl ?_ ?_
  · simp [e0, e1, e2, e3, e4, g1, z6]
  · simp [e0, e1, e2, e3, e4, g1, z6]
  · simp only [e0, e1, e2, e3, e4, g1, z6]

theorem vselK (neg : BitVec 1) (g : BitVec 4) (d : BitVec 6) (a : BitVec 6) (k : BitVec 3) : Statement (.vselK neg g d a k) := by
  intro h w hw
  clear h
  have hF : Fits [(2, 1), (3, k.toNat), (3, 0), (6, a.toNat), (6, d.toNat), (6, 15), (4, g.toNat), (1, neg.toNat), (1, 1)] := ⟨of_decide_eq_true rfl, k.isLt, of_decide_eq_true rfl, a.isLt, d.isLt, of_decide_eq_true rfl, g.isLt, neg.isLt, of_decide_eq_true rfl, trivial⟩
  have hE : 0x80f00001 + neg.toNat * 1073741824 + g.toNat * 67108864 + d.toNat * 16384 + a.toNat * 256 + k.toNat * 4 = packed [(2, 1), (3, k.toNat), (3, 0), (6, a.toNat), (6, d.toNat), (6, 15), (4, g.toNat), (1, neg.toNat), (1, 1)] := by
    simp only [packed]
    clear hF hw; omega
  have hW := packed_word _ rfl hF hE hw
  clear hw
  have e0 := fld_eq (lo := 30) neg hW (packed_at _ hF 7)
  have e1 := fld_eq (lo := 26) g hW (packed_at _ hF 6)
  have e2 := fld_eq (lo := 14) d hW (packed_at _ hF 4)
  have e3 := fld_eq (lo := 8) a hW (packed_at _ hF 3)
  have e4 := fld_eq (lo := 2) k hW (packed_at _ hF 1)
  have hN := hW.trans hE.symm
  have hb0 := neg.isLt
  have hb1 := g.isLt
  have hb2 := d.isLt
  have hb3 := a.isLt
  have hb4 := k.isLt
  have g1 := guardBad_e hN (by omega)
  have z6 := nz_false (lo := 5) (len := 3) hW (packed_at _ hF 2)
  have z7 := nz_true (lo := 31) (len := 1) hN (by first | omega | (simp only [BitVec.toNat_eq] at h; simp at h; omega))
  have hr : vectorRow w = some { instr := some (.vselK (fld w 30 1) (fld w 26 4) (fld w 14 6) (fld w 8 6) (fld w 2 3)), unused := guardBad w || nz w 5 3, vregs := [fld w 14 6, fld w 8 6], form := !nz w 31 1 } := by
    unfold vectorRow
    rw [fld_num (lo := 20) (len := 6) 15 hW (packed_at _ hF 5)]
    rw [fld_num (lo := 0) (len := 2) 1 hW (packed_at _ hF 0)]
    first | done | rfl
  change decodeWord .vec w = _
  refine decode_ok (p := .vec) (hW.trans hE.symm) (by omega) hr ?_
  refine check_ok rfl rfl ?_ rfl rfl ?_ ?_
  · simp [e0, e1, e2, e3, e4, g1, z6, z7]
  · simp [e0, e1, e2, e3, e4, g1, z6, z7]
  · simp only [e0, e1, e2, e3, e4, g1, z6, z7]

theorem vselI (neg : BitVec 1) (g : BitVec 4) (d : BitVec 6) (a : BitVec 6) (im : BitVec 6) : Statement (.vselI neg g d a im) := by
  intro h w hw
  clear h
  have hF : Fits [(2, 2), (6, im.toNat), (6, a.toNat), (6, d.toNat), (6, 15), (4, g.toNat), (1, neg.toNat), (1, 1)] := ⟨of_decide_eq_true rfl, im.isLt, a.isLt, d.isLt, of_decide_eq_true rfl, g.isLt, neg.isLt, of_decide_eq_true rfl, trivial⟩
  have hE : 0x80f00002 + neg.toNat * 1073741824 + g.toNat * 67108864 + d.toNat * 16384 + a.toNat * 256 + im.toNat * 4 = packed [(2, 2), (6, im.toNat), (6, a.toNat), (6, d.toNat), (6, 15), (4, g.toNat), (1, neg.toNat), (1, 1)] := by
    simp only [packed]
    clear hF hw; omega
  have hW := packed_word _ rfl hF hE hw
  clear hw
  have e0 := fld_eq (lo := 30) neg hW (packed_at _ hF 6)
  have e1 := fld_eq (lo := 26) g hW (packed_at _ hF 5)
  have e2 := fld_eq (lo := 14) d hW (packed_at _ hF 3)
  have e3 := fld_eq (lo := 8) a hW (packed_at _ hF 2)
  have e4 := fld_eq (lo := 2) im hW (packed_at _ hF 1)
  have hN := hW.trans hE.symm
  have hb0 := neg.isLt
  have hb1 := g.isLt
  have hb2 := d.isLt
  have hb3 := a.isLt
  have hb4 := im.isLt
  have g1 := guardBad_e hN (by omega)
  have z6 := nz_true (lo := 31) (len := 1) hN (by first | omega | (simp only [BitVec.toNat_eq] at h; simp at h; omega))
  have hr : vectorRow w = some { instr := some (.vselI (fld w 30 1) (fld w 26 4) (fld w 14 6) (fld w 8 6) (fld w 2 6)), unused := guardBad w, vregs := [fld w 14 6, fld w 8 6], form := !nz w 31 1 } := by
    unfold vectorRow
    rw [fld_num (lo := 20) (len := 6) 15 hW (packed_at _ hF 4)]
    rw [fld_num (lo := 0) (len := 2) 2 hW (packed_at _ hF 0)]
    first | done | rfl
  change decodeWord .vec w = _
  refine decode_ok (p := .vec) (hW.trans hE.symm) (by omega) hr ?_
  refine check_ok rfl rfl ?_ rfl rfl ?_ ?_
  · simp [e0, e1, e2, e3, e4, g1, z6]
  · simp [e0, e1, e2, e3, e4, g1, z6]
  · simp only [e0, e1, e2, e3, e4, g1, z6]

theorem vcmpeq (g : Guard) (p : BitVec 4) (a : BitVec 6) (b : BitVec 6) : Statement (.vcmpeq g p a b) := by
  intro h w hw
  change (g.wf) = true at h
  obtain ⟨q, hq, eq⟩ := guardBits_mul g
  have hF : Fits [(2, 0), (6, b.toNat), (6, a.toNat), (4, p.toNat), (2, 0), (6, 16), (6, q)] := ⟨of_decide_eq_true rfl, b.isLt, a.isLt, p.isLt, of_decide_eq_true rfl, of_decide_eq_true rfl, hq, trivial⟩
  have hE : 0x1000000 + guardBits g + p.toNat * 16384 + a.toNat * 256 + b.toNat * 4 = packed [(2, 0), (6, b.toNat), (6, a.toNat), (4, p.toNat), (2, 0), (6, 16), (6, q)] := by
    simp only [packed]
    clear hF hw; omega
  have hW := packed_word _ rfl hF hE hw
  clear hw
  have e0 := fld_eq (lo := 14) p hW (packed_at _ hF 3)
  have e1 := fld_eq (lo := 8) a hW (packed_at _ hF 2)
  have e2 := fld_eq (lo := 2) b hW (packed_at _ hF 1)
  obtain ⟨g0, g1⟩ := guard_packed g h hq eq [(2, 0), (6, b.toNat), (6, a.toNat), (4, p.toNat), (2, 0), (6, 16)] rfl ⟨of_decide_eq_true rfl, b.isLt, a.isLt, p.isLt, of_decide_eq_true rfl, of_decide_eq_true rfl, hq, trivial⟩ hW
  have z5 := nz_false (lo := 18) (len := 2) hW (packed_at _ hF 4)
  have hr : vectorRow w = some { instr := some (.vcmpeq (guardOf w) (fld w 14 4) (fld w 8 6) (fld w 2 6)), unused := guardBad w, range := nz w 18 2, vregs := [fld w 8 6, fld w 2 6] } := by
    unfold vectorRow
    rw [fld_num (lo := 20) (len := 6) 16 hW (packed_at _ hF 5)]
    rw [fld_num (lo := 0) (len := 2) 0 hW (packed_at _ hF 0)]
    first | done | rfl
  change decodeWord .vec w = _
  refine decode_ok (p := .vec) (hW.trans hE.symm) (by omega) hr ?_
  refine check_ok rfl rfl ?_ ?_ rfl rfl ?_
  · simp [e0, e1, e2, g0, g1, z5]
  · simp [e0, e1, e2, g0, g1, z5]
  · simp only [e0, e1, e2, g0, g1, z5]

theorem vcmpeqK (g : Guard) (p : BitVec 4) (a : BitVec 6) (k : BitVec 3) : Statement (.vcmpeqK g p a k) := by
  intro h w hw
  change (g.wf) = true at h
  obtain ⟨q, hq, eq⟩ := guardBits_mul g
  have hF : Fits [(2, 1), (3, k.toNat), (3, 0), (6, a.toNat), (4, p.toNat), (2, 0), (6, 16), (6, q)] := ⟨of_decide_eq_true rfl, k.isLt, of_decide_eq_true rfl, a.isLt, p.isLt, of_decide_eq_true rfl, of_decide_eq_true rfl, hq, trivial⟩
  have hE : 0x1000001 + guardBits g + p.toNat * 16384 + a.toNat * 256 + k.toNat * 4 = packed [(2, 1), (3, k.toNat), (3, 0), (6, a.toNat), (4, p.toNat), (2, 0), (6, 16), (6, q)] := by
    simp only [packed]
    clear hF hw; omega
  have hW := packed_word _ rfl hF hE hw
  clear hw
  have e0 := fld_eq (lo := 14) p hW (packed_at _ hF 4)
  have e1 := fld_eq (lo := 8) a hW (packed_at _ hF 3)
  have e2 := fld_eq (lo := 2) k hW (packed_at _ hF 1)
  obtain ⟨g0, g1⟩ := guard_packed g h hq eq [(2, 1), (3, k.toNat), (3, 0), (6, a.toNat), (4, p.toNat), (2, 0), (6, 16)] rfl ⟨of_decide_eq_true rfl, k.isLt, of_decide_eq_true rfl, a.isLt, p.isLt, of_decide_eq_true rfl, of_decide_eq_true rfl, hq, trivial⟩ hW
  have z5 := nz_false (lo := 18) (len := 2) hW (packed_at _ hF 5)
  have z6 := nz_false (lo := 5) (len := 3) hW (packed_at _ hF 2)
  have hr : vectorRow w = some { instr := some (.vcmpeqK (guardOf w) (fld w 14 4) (fld w 8 6) (fld w 2 3)), unused := guardBad w || nz w 5 3, range := nz w 18 2, vregs := [fld w 8 6] } := by
    unfold vectorRow
    rw [fld_num (lo := 20) (len := 6) 16 hW (packed_at _ hF 6)]
    rw [fld_num (lo := 0) (len := 2) 1 hW (packed_at _ hF 0)]
    first | done | rfl
  change decodeWord .vec w = _
  refine decode_ok (p := .vec) (hW.trans hE.symm) (by omega) hr ?_
  refine check_ok rfl rfl ?_ ?_ rfl rfl ?_
  · simp [e0, e1, e2, g0, g1, z5, z6]
  · simp [e0, e1, e2, g0, g1, z5, z6]
  · simp only [e0, e1, e2, g0, g1, z5, z6]

theorem vcmpeqI (g : Guard) (p : BitVec 4) (a : BitVec 6) (im : BitVec 6) : Statement (.vcmpeqI g p a im) := by
  intro h w hw
  change (g.wf) = true at h
  obtain ⟨q, hq, eq⟩ := guardBits_mul g
  have hF : Fits [(2, 2), (6, im.toNat), (6, a.toNat), (4, p.toNat), (2, 0), (6, 16), (6, q)] := ⟨of_decide_eq_true rfl, im.isLt, a.isLt, p.isLt, of_decide_eq_true rfl, of_decide_eq_true rfl, hq, trivial⟩
  have hE : 0x1000002 + guardBits g + p.toNat * 16384 + a.toNat * 256 + im.toNat * 4 = packed [(2, 2), (6, im.toNat), (6, a.toNat), (4, p.toNat), (2, 0), (6, 16), (6, q)] := by
    simp only [packed]
    clear hF hw; omega
  have hW := packed_word _ rfl hF hE hw
  clear hw
  have e0 := fld_eq (lo := 14) p hW (packed_at _ hF 3)
  have e1 := fld_eq (lo := 8) a hW (packed_at _ hF 2)
  have e2 := fld_eq (lo := 2) im hW (packed_at _ hF 1)
  obtain ⟨g0, g1⟩ := guard_packed g h hq eq [(2, 2), (6, im.toNat), (6, a.toNat), (4, p.toNat), (2, 0), (6, 16)] rfl ⟨of_decide_eq_true rfl, im.isLt, a.isLt, p.isLt, of_decide_eq_true rfl, of_decide_eq_true rfl, hq, trivial⟩ hW
  have z5 := nz_false (lo := 18) (len := 2) hW (packed_at _ hF 4)
  have hr : vectorRow w = some { instr := some (.vcmpeqI (guardOf w) (fld w 14 4) (fld w 8 6) (fld w 2 6)), unused := guardBad w, range := nz w 18 2, vregs := [fld w 8 6] } := by
    unfold vectorRow
    rw [fld_num (lo := 20) (len := 6) 16 hW (packed_at _ hF 5)]
    rw [fld_num (lo := 0) (len := 2) 2 hW (packed_at _ hF 0)]
    first | done | rfl
  change decodeWord .vec w = _
  refine decode_ok (p := .vec) (hW.trans hE.symm) (by omega) hr ?_
  refine check_ok rfl rfl ?_ ?_ rfl rfl ?_
  · simp [e0, e1, e2, g0, g1, z5]
  · simp [e0, e1, e2, g0, g1, z5]
  · simp only [e0, e1, e2, g0, g1, z5]

theorem vcmpne (g : Guard) (p : BitVec 4) (a : BitVec 6) (b : BitVec 6) : Statement (.vcmpne g p a b) := by
  intro h w hw
  change (g.wf) = true at h
  obtain ⟨q, hq, eq⟩ := guardBits_mul g
  have hF : Fits [(2, 0), (6, b.toNat), (6, a.toNat), (4, p.toNat), (2, 0), (6, 17), (6, q)] := ⟨of_decide_eq_true rfl, b.isLt, a.isLt, p.isLt, of_decide_eq_true rfl, of_decide_eq_true rfl, hq, trivial⟩
  have hE : 0x1100000 + guardBits g + p.toNat * 16384 + a.toNat * 256 + b.toNat * 4 = packed [(2, 0), (6, b.toNat), (6, a.toNat), (4, p.toNat), (2, 0), (6, 17), (6, q)] := by
    simp only [packed]
    clear hF hw; omega
  have hW := packed_word _ rfl hF hE hw
  clear hw
  have e0 := fld_eq (lo := 14) p hW (packed_at _ hF 3)
  have e1 := fld_eq (lo := 8) a hW (packed_at _ hF 2)
  have e2 := fld_eq (lo := 2) b hW (packed_at _ hF 1)
  obtain ⟨g0, g1⟩ := guard_packed g h hq eq [(2, 0), (6, b.toNat), (6, a.toNat), (4, p.toNat), (2, 0), (6, 17)] rfl ⟨of_decide_eq_true rfl, b.isLt, a.isLt, p.isLt, of_decide_eq_true rfl, of_decide_eq_true rfl, hq, trivial⟩ hW
  have z5 := nz_false (lo := 18) (len := 2) hW (packed_at _ hF 4)
  have hr : vectorRow w = some { instr := some (.vcmpne (guardOf w) (fld w 14 4) (fld w 8 6) (fld w 2 6)), unused := guardBad w, range := nz w 18 2, vregs := [fld w 8 6, fld w 2 6] } := by
    unfold vectorRow
    rw [fld_num (lo := 20) (len := 6) 17 hW (packed_at _ hF 5)]
    rw [fld_num (lo := 0) (len := 2) 0 hW (packed_at _ hF 0)]
    first | done | rfl
  change decodeWord .vec w = _
  refine decode_ok (p := .vec) (hW.trans hE.symm) (by omega) hr ?_
  refine check_ok rfl rfl ?_ ?_ rfl rfl ?_
  · simp [e0, e1, e2, g0, g1, z5]
  · simp [e0, e1, e2, g0, g1, z5]
  · simp only [e0, e1, e2, g0, g1, z5]

theorem vcmpneK (g : Guard) (p : BitVec 4) (a : BitVec 6) (k : BitVec 3) : Statement (.vcmpneK g p a k) := by
  intro h w hw
  change (g.wf) = true at h
  obtain ⟨q, hq, eq⟩ := guardBits_mul g
  have hF : Fits [(2, 1), (3, k.toNat), (3, 0), (6, a.toNat), (4, p.toNat), (2, 0), (6, 17), (6, q)] := ⟨of_decide_eq_true rfl, k.isLt, of_decide_eq_true rfl, a.isLt, p.isLt, of_decide_eq_true rfl, of_decide_eq_true rfl, hq, trivial⟩
  have hE : 0x1100001 + guardBits g + p.toNat * 16384 + a.toNat * 256 + k.toNat * 4 = packed [(2, 1), (3, k.toNat), (3, 0), (6, a.toNat), (4, p.toNat), (2, 0), (6, 17), (6, q)] := by
    simp only [packed]
    clear hF hw; omega
  have hW := packed_word _ rfl hF hE hw
  clear hw
  have e0 := fld_eq (lo := 14) p hW (packed_at _ hF 4)
  have e1 := fld_eq (lo := 8) a hW (packed_at _ hF 3)
  have e2 := fld_eq (lo := 2) k hW (packed_at _ hF 1)
  obtain ⟨g0, g1⟩ := guard_packed g h hq eq [(2, 1), (3, k.toNat), (3, 0), (6, a.toNat), (4, p.toNat), (2, 0), (6, 17)] rfl ⟨of_decide_eq_true rfl, k.isLt, of_decide_eq_true rfl, a.isLt, p.isLt, of_decide_eq_true rfl, of_decide_eq_true rfl, hq, trivial⟩ hW
  have z5 := nz_false (lo := 18) (len := 2) hW (packed_at _ hF 5)
  have z6 := nz_false (lo := 5) (len := 3) hW (packed_at _ hF 2)
  have hr : vectorRow w = some { instr := some (.vcmpneK (guardOf w) (fld w 14 4) (fld w 8 6) (fld w 2 3)), unused := guardBad w || nz w 5 3, range := nz w 18 2, vregs := [fld w 8 6] } := by
    unfold vectorRow
    rw [fld_num (lo := 20) (len := 6) 17 hW (packed_at _ hF 6)]
    rw [fld_num (lo := 0) (len := 2) 1 hW (packed_at _ hF 0)]
    first | done | rfl
  change decodeWord .vec w = _
  refine decode_ok (p := .vec) (hW.trans hE.symm) (by omega) hr ?_
  refine check_ok rfl rfl ?_ ?_ rfl rfl ?_
  · simp [e0, e1, e2, g0, g1, z5, z6]
  · simp [e0, e1, e2, g0, g1, z5, z6]
  · simp only [e0, e1, e2, g0, g1, z5, z6]

theorem vcmpneI (g : Guard) (p : BitVec 4) (a : BitVec 6) (im : BitVec 6) : Statement (.vcmpneI g p a im) := by
  intro h w hw
  change (g.wf) = true at h
  obtain ⟨q, hq, eq⟩ := guardBits_mul g
  have hF : Fits [(2, 2), (6, im.toNat), (6, a.toNat), (4, p.toNat), (2, 0), (6, 17), (6, q)] := ⟨of_decide_eq_true rfl, im.isLt, a.isLt, p.isLt, of_decide_eq_true rfl, of_decide_eq_true rfl, hq, trivial⟩
  have hE : 0x1100002 + guardBits g + p.toNat * 16384 + a.toNat * 256 + im.toNat * 4 = packed [(2, 2), (6, im.toNat), (6, a.toNat), (4, p.toNat), (2, 0), (6, 17), (6, q)] := by
    simp only [packed]
    clear hF hw; omega
  have hW := packed_word _ rfl hF hE hw
  clear hw
  have e0 := fld_eq (lo := 14) p hW (packed_at _ hF 3)
  have e1 := fld_eq (lo := 8) a hW (packed_at _ hF 2)
  have e2 := fld_eq (lo := 2) im hW (packed_at _ hF 1)
  obtain ⟨g0, g1⟩ := guard_packed g h hq eq [(2, 2), (6, im.toNat), (6, a.toNat), (4, p.toNat), (2, 0), (6, 17)] rfl ⟨of_decide_eq_true rfl, im.isLt, a.isLt, p.isLt, of_decide_eq_true rfl, of_decide_eq_true rfl, hq, trivial⟩ hW
  have z5 := nz_false (lo := 18) (len := 2) hW (packed_at _ hF 4)
  have hr : vectorRow w = some { instr := some (.vcmpneI (guardOf w) (fld w 14 4) (fld w 8 6) (fld w 2 6)), unused := guardBad w, range := nz w 18 2, vregs := [fld w 8 6] } := by
    unfold vectorRow
    rw [fld_num (lo := 20) (len := 6) 17 hW (packed_at _ hF 5)]
    rw [fld_num (lo := 0) (len := 2) 2 hW (packed_at _ hF 0)]
    first | done | rfl
  change decodeWord .vec w = _
  refine decode_ok (p := .vec) (hW.trans hE.symm) (by omega) hr ?_
  refine check_ok rfl rfl ?_ ?_ rfl rfl ?_
  · simp [e0, e1, e2, g0, g1, z5]
  · simp [e0, e1, e2, g0, g1, z5]
  · simp only [e0, e1, e2, g0, g1, z5]

theorem vcmplt (g : Guard) (p : BitVec 4) (a : BitVec 6) (b : BitVec 6) : Statement (.vcmplt g p a b) := by
  intro h w hw
  change (g.wf) = true at h
  obtain ⟨q, hq, eq⟩ := guardBits_mul g
  have hF : Fits [(2, 0), (6, b.toNat), (6, a.toNat), (4, p.toNat), (2, 0), (6, 18), (6, q)] := ⟨of_decide_eq_true rfl, b.isLt, a.isLt, p.isLt, of_decide_eq_true rfl, of_decide_eq_true rfl, hq, trivial⟩
  have hE : 0x1200000 + guardBits g + p.toNat * 16384 + a.toNat * 256 + b.toNat * 4 = packed [(2, 0), (6, b.toNat), (6, a.toNat), (4, p.toNat), (2, 0), (6, 18), (6, q)] := by
    simp only [packed]
    clear hF hw; omega
  have hW := packed_word _ rfl hF hE hw
  clear hw
  have e0 := fld_eq (lo := 14) p hW (packed_at _ hF 3)
  have e1 := fld_eq (lo := 8) a hW (packed_at _ hF 2)
  have e2 := fld_eq (lo := 2) b hW (packed_at _ hF 1)
  obtain ⟨g0, g1⟩ := guard_packed g h hq eq [(2, 0), (6, b.toNat), (6, a.toNat), (4, p.toNat), (2, 0), (6, 18)] rfl ⟨of_decide_eq_true rfl, b.isLt, a.isLt, p.isLt, of_decide_eq_true rfl, of_decide_eq_true rfl, hq, trivial⟩ hW
  have z5 := nz_false (lo := 18) (len := 2) hW (packed_at _ hF 4)
  have hr : vectorRow w = some { instr := some (.vcmplt (guardOf w) (fld w 14 4) (fld w 8 6) (fld w 2 6)), unused := guardBad w, range := nz w 18 2, vregs := [fld w 8 6, fld w 2 6] } := by
    unfold vectorRow
    rw [fld_num (lo := 20) (len := 6) 18 hW (packed_at _ hF 5)]
    rw [fld_num (lo := 0) (len := 2) 0 hW (packed_at _ hF 0)]
    first | done | rfl
  change decodeWord .vec w = _
  refine decode_ok (p := .vec) (hW.trans hE.symm) (by omega) hr ?_
  refine check_ok rfl rfl ?_ ?_ rfl rfl ?_
  · simp [e0, e1, e2, g0, g1, z5]
  · simp [e0, e1, e2, g0, g1, z5]
  · simp only [e0, e1, e2, g0, g1, z5]

theorem vcmpltK (g : Guard) (p : BitVec 4) (a : BitVec 6) (k : BitVec 3) : Statement (.vcmpltK g p a k) := by
  intro h w hw
  change (g.wf) = true at h
  obtain ⟨q, hq, eq⟩ := guardBits_mul g
  have hF : Fits [(2, 1), (3, k.toNat), (3, 0), (6, a.toNat), (4, p.toNat), (2, 0), (6, 18), (6, q)] := ⟨of_decide_eq_true rfl, k.isLt, of_decide_eq_true rfl, a.isLt, p.isLt, of_decide_eq_true rfl, of_decide_eq_true rfl, hq, trivial⟩
  have hE : 0x1200001 + guardBits g + p.toNat * 16384 + a.toNat * 256 + k.toNat * 4 = packed [(2, 1), (3, k.toNat), (3, 0), (6, a.toNat), (4, p.toNat), (2, 0), (6, 18), (6, q)] := by
    simp only [packed]
    clear hF hw; omega
  have hW := packed_word _ rfl hF hE hw
  clear hw
  have e0 := fld_eq (lo := 14) p hW (packed_at _ hF 4)
  have e1 := fld_eq (lo := 8) a hW (packed_at _ hF 3)
  have e2 := fld_eq (lo := 2) k hW (packed_at _ hF 1)
  obtain ⟨g0, g1⟩ := guard_packed g h hq eq [(2, 1), (3, k.toNat), (3, 0), (6, a.toNat), (4, p.toNat), (2, 0), (6, 18)] rfl ⟨of_decide_eq_true rfl, k.isLt, of_decide_eq_true rfl, a.isLt, p.isLt, of_decide_eq_true rfl, of_decide_eq_true rfl, hq, trivial⟩ hW
  have z5 := nz_false (lo := 18) (len := 2) hW (packed_at _ hF 5)
  have z6 := nz_false (lo := 5) (len := 3) hW (packed_at _ hF 2)
  have hr : vectorRow w = some { instr := some (.vcmpltK (guardOf w) (fld w 14 4) (fld w 8 6) (fld w 2 3)), unused := guardBad w || nz w 5 3, range := nz w 18 2, vregs := [fld w 8 6] } := by
    unfold vectorRow
    rw [fld_num (lo := 20) (len := 6) 18 hW (packed_at _ hF 6)]
    rw [fld_num (lo := 0) (len := 2) 1 hW (packed_at _ hF 0)]
    first | done | rfl
  change decodeWord .vec w = _
  refine decode_ok (p := .vec) (hW.trans hE.symm) (by omega) hr ?_
  refine check_ok rfl rfl ?_ ?_ rfl rfl ?_
  · simp [e0, e1, e2, g0, g1, z5, z6]
  · simp [e0, e1, e2, g0, g1, z5, z6]
  · simp only [e0, e1, e2, g0, g1, z5, z6]

theorem vcmpltI (g : Guard) (p : BitVec 4) (a : BitVec 6) (im : BitVec 6) : Statement (.vcmpltI g p a im) := by
  intro h w hw
  change (g.wf) = true at h
  obtain ⟨q, hq, eq⟩ := guardBits_mul g
  have hF : Fits [(2, 2), (6, im.toNat), (6, a.toNat), (4, p.toNat), (2, 0), (6, 18), (6, q)] := ⟨of_decide_eq_true rfl, im.isLt, a.isLt, p.isLt, of_decide_eq_true rfl, of_decide_eq_true rfl, hq, trivial⟩
  have hE : 0x1200002 + guardBits g + p.toNat * 16384 + a.toNat * 256 + im.toNat * 4 = packed [(2, 2), (6, im.toNat), (6, a.toNat), (4, p.toNat), (2, 0), (6, 18), (6, q)] := by
    simp only [packed]
    clear hF hw; omega
  have hW := packed_word _ rfl hF hE hw
  clear hw
  have e0 := fld_eq (lo := 14) p hW (packed_at _ hF 3)
  have e1 := fld_eq (lo := 8) a hW (packed_at _ hF 2)
  have e2 := fld_eq (lo := 2) im hW (packed_at _ hF 1)
  obtain ⟨g0, g1⟩ := guard_packed g h hq eq [(2, 2), (6, im.toNat), (6, a.toNat), (4, p.toNat), (2, 0), (6, 18)] rfl ⟨of_decide_eq_true rfl, im.isLt, a.isLt, p.isLt, of_decide_eq_true rfl, of_decide_eq_true rfl, hq, trivial⟩ hW
  have z5 := nz_false (lo := 18) (len := 2) hW (packed_at _ hF 4)
  have hr : vectorRow w = some { instr := some (.vcmpltI (guardOf w) (fld w 14 4) (fld w 8 6) (fld w 2 6)), unused := guardBad w, range := nz w 18 2, vregs := [fld w 8 6] } := by
    unfold vectorRow
    rw [fld_num (lo := 20) (len := 6) 18 hW (packed_at _ hF 5)]
    rw [fld_num (lo := 0) (len := 2) 2 hW (packed_at _ hF 0)]
    first | done | rfl
  change decodeWord .vec w = _
  refine decode_ok (p := .vec) (hW.trans hE.symm) (by omega) hr ?_
  refine check_ok rfl rfl ?_ ?_ rfl rfl ?_
  · simp [e0, e1, e2, g0, g1, z5]
  · simp [e0, e1, e2, g0, g1, z5]
  · simp only [e0, e1, e2, g0, g1, z5]

theorem vcmple (g : Guard) (p : BitVec 4) (a : BitVec 6) (b : BitVec 6) : Statement (.vcmple g p a b) := by
  intro h w hw
  change (g.wf) = true at h
  obtain ⟨q, hq, eq⟩ := guardBits_mul g
  have hF : Fits [(2, 0), (6, b.toNat), (6, a.toNat), (4, p.toNat), (2, 0), (6, 19), (6, q)] := ⟨of_decide_eq_true rfl, b.isLt, a.isLt, p.isLt, of_decide_eq_true rfl, of_decide_eq_true rfl, hq, trivial⟩
  have hE : 0x1300000 + guardBits g + p.toNat * 16384 + a.toNat * 256 + b.toNat * 4 = packed [(2, 0), (6, b.toNat), (6, a.toNat), (4, p.toNat), (2, 0), (6, 19), (6, q)] := by
    simp only [packed]
    clear hF hw; omega
  have hW := packed_word _ rfl hF hE hw
  clear hw
  have e0 := fld_eq (lo := 14) p hW (packed_at _ hF 3)
  have e1 := fld_eq (lo := 8) a hW (packed_at _ hF 2)
  have e2 := fld_eq (lo := 2) b hW (packed_at _ hF 1)
  obtain ⟨g0, g1⟩ := guard_packed g h hq eq [(2, 0), (6, b.toNat), (6, a.toNat), (4, p.toNat), (2, 0), (6, 19)] rfl ⟨of_decide_eq_true rfl, b.isLt, a.isLt, p.isLt, of_decide_eq_true rfl, of_decide_eq_true rfl, hq, trivial⟩ hW
  have z5 := nz_false (lo := 18) (len := 2) hW (packed_at _ hF 4)
  have hr : vectorRow w = some { instr := some (.vcmple (guardOf w) (fld w 14 4) (fld w 8 6) (fld w 2 6)), unused := guardBad w, range := nz w 18 2, vregs := [fld w 8 6, fld w 2 6] } := by
    unfold vectorRow
    rw [fld_num (lo := 20) (len := 6) 19 hW (packed_at _ hF 5)]
    rw [fld_num (lo := 0) (len := 2) 0 hW (packed_at _ hF 0)]
    first | done | rfl
  change decodeWord .vec w = _
  refine decode_ok (p := .vec) (hW.trans hE.symm) (by omega) hr ?_
  refine check_ok rfl rfl ?_ ?_ rfl rfl ?_
  · simp [e0, e1, e2, g0, g1, z5]
  · simp [e0, e1, e2, g0, g1, z5]
  · simp only [e0, e1, e2, g0, g1, z5]

theorem vcmpleK (g : Guard) (p : BitVec 4) (a : BitVec 6) (k : BitVec 3) : Statement (.vcmpleK g p a k) := by
  intro h w hw
  change (g.wf) = true at h
  obtain ⟨q, hq, eq⟩ := guardBits_mul g
  have hF : Fits [(2, 1), (3, k.toNat), (3, 0), (6, a.toNat), (4, p.toNat), (2, 0), (6, 19), (6, q)] := ⟨of_decide_eq_true rfl, k.isLt, of_decide_eq_true rfl, a.isLt, p.isLt, of_decide_eq_true rfl, of_decide_eq_true rfl, hq, trivial⟩
  have hE : 0x1300001 + guardBits g + p.toNat * 16384 + a.toNat * 256 + k.toNat * 4 = packed [(2, 1), (3, k.toNat), (3, 0), (6, a.toNat), (4, p.toNat), (2, 0), (6, 19), (6, q)] := by
    simp only [packed]
    clear hF hw; omega
  have hW := packed_word _ rfl hF hE hw
  clear hw
  have e0 := fld_eq (lo := 14) p hW (packed_at _ hF 4)
  have e1 := fld_eq (lo := 8) a hW (packed_at _ hF 3)
  have e2 := fld_eq (lo := 2) k hW (packed_at _ hF 1)
  obtain ⟨g0, g1⟩ := guard_packed g h hq eq [(2, 1), (3, k.toNat), (3, 0), (6, a.toNat), (4, p.toNat), (2, 0), (6, 19)] rfl ⟨of_decide_eq_true rfl, k.isLt, of_decide_eq_true rfl, a.isLt, p.isLt, of_decide_eq_true rfl, of_decide_eq_true rfl, hq, trivial⟩ hW
  have z5 := nz_false (lo := 18) (len := 2) hW (packed_at _ hF 5)
  have z6 := nz_false (lo := 5) (len := 3) hW (packed_at _ hF 2)
  have hr : vectorRow w = some { instr := some (.vcmpleK (guardOf w) (fld w 14 4) (fld w 8 6) (fld w 2 3)), unused := guardBad w || nz w 5 3, range := nz w 18 2, vregs := [fld w 8 6] } := by
    unfold vectorRow
    rw [fld_num (lo := 20) (len := 6) 19 hW (packed_at _ hF 6)]
    rw [fld_num (lo := 0) (len := 2) 1 hW (packed_at _ hF 0)]
    first | done | rfl
  change decodeWord .vec w = _
  refine decode_ok (p := .vec) (hW.trans hE.symm) (by omega) hr ?_
  refine check_ok rfl rfl ?_ ?_ rfl rfl ?_
  · simp [e0, e1, e2, g0, g1, z5, z6]
  · simp [e0, e1, e2, g0, g1, z5, z6]
  · simp only [e0, e1, e2, g0, g1, z5, z6]

theorem vcmpleI (g : Guard) (p : BitVec 4) (a : BitVec 6) (im : BitVec 6) : Statement (.vcmpleI g p a im) := by
  intro h w hw
  change (g.wf) = true at h
  obtain ⟨q, hq, eq⟩ := guardBits_mul g
  have hF : Fits [(2, 2), (6, im.toNat), (6, a.toNat), (4, p.toNat), (2, 0), (6, 19), (6, q)] := ⟨of_decide_eq_true rfl, im.isLt, a.isLt, p.isLt, of_decide_eq_true rfl, of_decide_eq_true rfl, hq, trivial⟩
  have hE : 0x1300002 + guardBits g + p.toNat * 16384 + a.toNat * 256 + im.toNat * 4 = packed [(2, 2), (6, im.toNat), (6, a.toNat), (4, p.toNat), (2, 0), (6, 19), (6, q)] := by
    simp only [packed]
    clear hF hw; omega
  have hW := packed_word _ rfl hF hE hw
  clear hw
  have e0 := fld_eq (lo := 14) p hW (packed_at _ hF 3)
  have e1 := fld_eq (lo := 8) a hW (packed_at _ hF 2)
  have e2 := fld_eq (lo := 2) im hW (packed_at _ hF 1)
  obtain ⟨g0, g1⟩ := guard_packed g h hq eq [(2, 2), (6, im.toNat), (6, a.toNat), (4, p.toNat), (2, 0), (6, 19)] rfl ⟨of_decide_eq_true rfl, im.isLt, a.isLt, p.isLt, of_decide_eq_true rfl, of_decide_eq_true rfl, hq, trivial⟩ hW
  have z5 := nz_false (lo := 18) (len := 2) hW (packed_at _ hF 4)
  have hr : vectorRow w = some { instr := some (.vcmpleI (guardOf w) (fld w 14 4) (fld w 8 6) (fld w 2 6)), unused := guardBad w, range := nz w 18 2, vregs := [fld w 8 6] } := by
    unfold vectorRow
    rw [fld_num (lo := 20) (len := 6) 19 hW (packed_at _ hF 5)]
    rw [fld_num (lo := 0) (len := 2) 2 hW (packed_at _ hF 0)]
    first | done | rfl
  change decodeWord .vec w = _
  refine decode_ok (p := .vec) (hW.trans hE.symm) (by omega) hr ?_
  refine check_ok rfl rfl ?_ ?_ rfl rfl ?_
  · simp [e0, e1, e2, g0, g1, z5]
  · simp [e0, e1, e2, g0, g1, z5]
  · simp only [e0, e1, e2, g0, g1, z5]

theorem vwadd (g : Guard) (d : BitVec 6) (a : BitVec 6) (b : BitVec 6) : Statement (.vwadd g d a b) := by
  intro h w hw
  change (g.wf && d.toNat % 2 == 0) = true at h
  try simp at h
  obtain ⟨q, hq, eq⟩ := guardBits_mul g
  have hF : Fits [(2, 0), (6, b.toNat), (6, a.toNat), (6, d.toNat), (6, 20), (6, q)] := ⟨of_decide_eq_true rfl, b.isLt, a.isLt, d.isLt, of_decide_eq_true rfl, hq, trivial⟩
  have hE : 0x1400000 + guardBits g + d.toNat * 16384 + a.toNat * 256 + b.toNat * 4 = packed [(2, 0), (6, b.toNat), (6, a.toNat), (6, d.toNat), (6, 20), (6, q)] := by
    simp only [packed]
    clear hF hw; omega
  have hW := packed_word _ rfl hF hE hw
  clear hw
  have e0 := fld_eq (lo := 14) d hW (packed_at _ hF 3)
  have e1 := fld_eq (lo := 8) a hW (packed_at _ hF 2)
  have e2 := fld_eq (lo := 2) b hW (packed_at _ hF 1)
  obtain ⟨g0, g1⟩ := guard_packed g h.1 hq eq [(2, 0), (6, b.toNat), (6, a.toNat), (6, d.toNat), (6, 20)] rfl ⟨of_decide_eq_true rfl, b.isLt, a.isLt, d.isLt, of_decide_eq_true rfl, hq, trivial⟩ hW
  have hN := hW.trans hE.symm
  have hb0 := d.isLt
  have hb1 := a.isLt
  have hb2 := b.isLt
  have z5 := nz_false (lo := 14) (len := 1) hN (by first | omega | (simp only [BitVec.toNat_eq] at h; simp at h; omega))
  have hr : vectorRow w = some { instr := some (.vwadd (guardOf w) (fld w 14 6) (fld w 8 6) (fld w 2 6)), unused := guardBad w, vregs := [fld w 14 6, fld w 8 6, fld w 2 6], misaligned := nz w 14 1 } := by
    unfold vectorRow
    rw [fld_num (lo := 20) (len := 6) 20 hW (packed_at _ hF 4)]
    rw [fld_num (lo := 0) (len := 2) 0 hW (packed_at _ hF 0)]
    first | done | rfl
  change decodeWord .vec w = _
  refine decode_ok (p := .vec) (hW.trans hE.symm) (by omega) hr ?_
  refine check_ok rfl rfl ?_ rfl ?_ rfl ?_
  · simp [e0, e1, e2, g0, g1, z5]
  · simp [e0, e1, e2, g0, g1, z5]
  · simp only [e0, e1, e2, g0, g1, z5]

theorem vwaddK (g : Guard) (d : BitVec 6) (a : BitVec 6) (k : BitVec 3) : Statement (.vwaddK g d a k) := by
  intro h w hw
  change (g.wf && d.toNat % 2 == 0) = true at h
  try simp at h
  obtain ⟨q, hq, eq⟩ := guardBits_mul g
  have hF : Fits [(2, 1), (3, k.toNat), (3, 0), (6, a.toNat), (6, d.toNat), (6, 20), (6, q)] := ⟨of_decide_eq_true rfl, k.isLt, of_decide_eq_true rfl, a.isLt, d.isLt, of_decide_eq_true rfl, hq, trivial⟩
  have hE : 0x1400001 + guardBits g + d.toNat * 16384 + a.toNat * 256 + k.toNat * 4 = packed [(2, 1), (3, k.toNat), (3, 0), (6, a.toNat), (6, d.toNat), (6, 20), (6, q)] := by
    simp only [packed]
    clear hF hw; omega
  have hW := packed_word _ rfl hF hE hw
  clear hw
  have e0 := fld_eq (lo := 14) d hW (packed_at _ hF 4)
  have e1 := fld_eq (lo := 8) a hW (packed_at _ hF 3)
  have e2 := fld_eq (lo := 2) k hW (packed_at _ hF 1)
  obtain ⟨g0, g1⟩ := guard_packed g h.1 hq eq [(2, 1), (3, k.toNat), (3, 0), (6, a.toNat), (6, d.toNat), (6, 20)] rfl ⟨of_decide_eq_true rfl, k.isLt, of_decide_eq_true rfl, a.isLt, d.isLt, of_decide_eq_true rfl, hq, trivial⟩ hW
  have hN := hW.trans hE.symm
  have hb0 := d.isLt
  have hb1 := a.isLt
  have hb2 := k.isLt
  have z5 := nz_false (lo := 14) (len := 1) hN (by first | omega | (simp only [BitVec.toNat_eq] at h; simp at h; omega))
  have z6 := nz_false (lo := 5) (len := 3) hW (packed_at _ hF 2)
  have hr : vectorRow w = some { instr := some (.vwaddK (guardOf w) (fld w 14 6) (fld w 8 6) (fld w 2 3)), unused := guardBad w || nz w 5 3, vregs := [fld w 14 6, fld w 8 6], misaligned := nz w 14 1 } := by
    unfold vectorRow
    rw [fld_num (lo := 20) (len := 6) 20 hW (packed_at _ hF 5)]
    rw [fld_num (lo := 0) (len := 2) 1 hW (packed_at _ hF 0)]
    first | done | rfl
  change decodeWord .vec w = _
  refine decode_ok (p := .vec) (hW.trans hE.symm) (by omega) hr ?_
  refine check_ok rfl rfl ?_ rfl ?_ rfl ?_
  · simp [e0, e1, e2, g0, g1, z5, z6]
  · simp [e0, e1, e2, g0, g1, z5, z6]
  · simp only [e0, e1, e2, g0, g1, z5, z6]

theorem vwaddI (g : Guard) (d : BitVec 6) (a : BitVec 6) (im : BitVec 6) : Statement (.vwaddI g d a im) := by
  intro h w hw
  change (g.wf && d.toNat % 2 == 0) = true at h
  try simp at h
  obtain ⟨q, hq, eq⟩ := guardBits_mul g
  have hF : Fits [(2, 2), (6, im.toNat), (6, a.toNat), (6, d.toNat), (6, 20), (6, q)] := ⟨of_decide_eq_true rfl, im.isLt, a.isLt, d.isLt, of_decide_eq_true rfl, hq, trivial⟩
  have hE : 0x1400002 + guardBits g + d.toNat * 16384 + a.toNat * 256 + im.toNat * 4 = packed [(2, 2), (6, im.toNat), (6, a.toNat), (6, d.toNat), (6, 20), (6, q)] := by
    simp only [packed]
    clear hF hw; omega
  have hW := packed_word _ rfl hF hE hw
  clear hw
  have e0 := fld_eq (lo := 14) d hW (packed_at _ hF 3)
  have e1 := fld_eq (lo := 8) a hW (packed_at _ hF 2)
  have e2 := fld_eq (lo := 2) im hW (packed_at _ hF 1)
  obtain ⟨g0, g1⟩ := guard_packed g h.1 hq eq [(2, 2), (6, im.toNat), (6, a.toNat), (6, d.toNat), (6, 20)] rfl ⟨of_decide_eq_true rfl, im.isLt, a.isLt, d.isLt, of_decide_eq_true rfl, hq, trivial⟩ hW
  have hN := hW.trans hE.symm
  have hb0 := d.isLt
  have hb1 := a.isLt
  have hb2 := im.isLt
  have z5 := nz_false (lo := 14) (len := 1) hN (by first | omega | (simp only [BitVec.toNat_eq] at h; simp at h; omega))
  have hr : vectorRow w = some { instr := some (.vwaddI (guardOf w) (fld w 14 6) (fld w 8 6) (fld w 2 6)), unused := guardBad w, vregs := [fld w 14 6, fld w 8 6], misaligned := nz w 14 1 } := by
    unfold vectorRow
    rw [fld_num (lo := 20) (len := 6) 20 hW (packed_at _ hF 4)]
    rw [fld_num (lo := 0) (len := 2) 2 hW (packed_at _ hF 0)]
    first | done | rfl
  change decodeWord .vec w = _
  refine decode_ok (p := .vec) (hW.trans hE.symm) (by omega) hr ?_
  refine check_ok rfl rfl ?_ rfl ?_ rfl ?_
  · simp [e0, e1, e2, g0, g1, z5]
  · simp [e0, e1, e2, g0, g1, z5]
  · simp only [e0, e1, e2, g0, g1, z5]

theorem vwmul (g : Guard) (d : BitVec 6) (a : BitVec 6) (b : BitVec 6) : Statement (.vwmul g d a b) := by
  intro h w hw
  change (g.wf && d.toNat % 2 == 0) = true at h
  try simp at h
  obtain ⟨q, hq, eq⟩ := guardBits_mul g
  have hF : Fits [(2, 0), (6, b.toNat), (6, a.toNat), (6, d.toNat), (6, 21), (6, q)] := ⟨of_decide_eq_true rfl, b.isLt, a.isLt, d.isLt, of_decide_eq_true rfl, hq, trivial⟩
  have hE : 0x1500000 + guardBits g + d.toNat * 16384 + a.toNat * 256 + b.toNat * 4 = packed [(2, 0), (6, b.toNat), (6, a.toNat), (6, d.toNat), (6, 21), (6, q)] := by
    simp only [packed]
    clear hF hw; omega
  have hW := packed_word _ rfl hF hE hw
  clear hw
  have e0 := fld_eq (lo := 14) d hW (packed_at _ hF 3)
  have e1 := fld_eq (lo := 8) a hW (packed_at _ hF 2)
  have e2 := fld_eq (lo := 2) b hW (packed_at _ hF 1)
  obtain ⟨g0, g1⟩ := guard_packed g h.1 hq eq [(2, 0), (6, b.toNat), (6, a.toNat), (6, d.toNat), (6, 21)] rfl ⟨of_decide_eq_true rfl, b.isLt, a.isLt, d.isLt, of_decide_eq_true rfl, hq, trivial⟩ hW
  have hN := hW.trans hE.symm
  have hb0 := d.isLt
  have hb1 := a.isLt
  have hb2 := b.isLt
  have z5 := nz_false (lo := 14) (len := 1) hN (by first | omega | (simp only [BitVec.toNat_eq] at h; simp at h; omega))
  have hr : vectorRow w = some { instr := some (.vwmul (guardOf w) (fld w 14 6) (fld w 8 6) (fld w 2 6)), unused := guardBad w, vregs := [fld w 14 6, fld w 8 6, fld w 2 6], misaligned := nz w 14 1 } := by
    unfold vectorRow
    rw [fld_num (lo := 20) (len := 6) 21 hW (packed_at _ hF 4)]
    rw [fld_num (lo := 0) (len := 2) 0 hW (packed_at _ hF 0)]
    first | done | rfl
  change decodeWord .vec w = _
  refine decode_ok (p := .vec) (hW.trans hE.symm) (by omega) hr ?_
  refine check_ok rfl rfl ?_ rfl ?_ rfl ?_
  · simp [e0, e1, e2, g0, g1, z5]
  · simp [e0, e1, e2, g0, g1, z5]
  · simp only [e0, e1, e2, g0, g1, z5]

theorem vwmulK (g : Guard) (d : BitVec 6) (a : BitVec 6) (k : BitVec 3) : Statement (.vwmulK g d a k) := by
  intro h w hw
  change (g.wf && d.toNat % 2 == 0) = true at h
  try simp at h
  obtain ⟨q, hq, eq⟩ := guardBits_mul g
  have hF : Fits [(2, 1), (3, k.toNat), (3, 0), (6, a.toNat), (6, d.toNat), (6, 21), (6, q)] := ⟨of_decide_eq_true rfl, k.isLt, of_decide_eq_true rfl, a.isLt, d.isLt, of_decide_eq_true rfl, hq, trivial⟩
  have hE : 0x1500001 + guardBits g + d.toNat * 16384 + a.toNat * 256 + k.toNat * 4 = packed [(2, 1), (3, k.toNat), (3, 0), (6, a.toNat), (6, d.toNat), (6, 21), (6, q)] := by
    simp only [packed]
    clear hF hw; omega
  have hW := packed_word _ rfl hF hE hw
  clear hw
  have e0 := fld_eq (lo := 14) d hW (packed_at _ hF 4)
  have e1 := fld_eq (lo := 8) a hW (packed_at _ hF 3)
  have e2 := fld_eq (lo := 2) k hW (packed_at _ hF 1)
  obtain ⟨g0, g1⟩ := guard_packed g h.1 hq eq [(2, 1), (3, k.toNat), (3, 0), (6, a.toNat), (6, d.toNat), (6, 21)] rfl ⟨of_decide_eq_true rfl, k.isLt, of_decide_eq_true rfl, a.isLt, d.isLt, of_decide_eq_true rfl, hq, trivial⟩ hW
  have hN := hW.trans hE.symm
  have hb0 := d.isLt
  have hb1 := a.isLt
  have hb2 := k.isLt
  have z5 := nz_false (lo := 14) (len := 1) hN (by first | omega | (simp only [BitVec.toNat_eq] at h; simp at h; omega))
  have z6 := nz_false (lo := 5) (len := 3) hW (packed_at _ hF 2)
  have hr : vectorRow w = some { instr := some (.vwmulK (guardOf w) (fld w 14 6) (fld w 8 6) (fld w 2 3)), unused := guardBad w || nz w 5 3, vregs := [fld w 14 6, fld w 8 6], misaligned := nz w 14 1 } := by
    unfold vectorRow
    rw [fld_num (lo := 20) (len := 6) 21 hW (packed_at _ hF 5)]
    rw [fld_num (lo := 0) (len := 2) 1 hW (packed_at _ hF 0)]
    first | done | rfl
  change decodeWord .vec w = _
  refine decode_ok (p := .vec) (hW.trans hE.symm) (by omega) hr ?_
  refine check_ok rfl rfl ?_ rfl ?_ rfl ?_
  · simp [e0, e1, e2, g0, g1, z5, z6]
  · simp [e0, e1, e2, g0, g1, z5, z6]
  · simp only [e0, e1, e2, g0, g1, z5, z6]

theorem vwmulI (g : Guard) (d : BitVec 6) (a : BitVec 6) (im : BitVec 6) : Statement (.vwmulI g d a im) := by
  intro h w hw
  change (g.wf && d.toNat % 2 == 0) = true at h
  try simp at h
  obtain ⟨q, hq, eq⟩ := guardBits_mul g
  have hF : Fits [(2, 2), (6, im.toNat), (6, a.toNat), (6, d.toNat), (6, 21), (6, q)] := ⟨of_decide_eq_true rfl, im.isLt, a.isLt, d.isLt, of_decide_eq_true rfl, hq, trivial⟩
  have hE : 0x1500002 + guardBits g + d.toNat * 16384 + a.toNat * 256 + im.toNat * 4 = packed [(2, 2), (6, im.toNat), (6, a.toNat), (6, d.toNat), (6, 21), (6, q)] := by
    simp only [packed]
    clear hF hw; omega
  have hW := packed_word _ rfl hF hE hw
  clear hw
  have e0 := fld_eq (lo := 14) d hW (packed_at _ hF 3)
  have e1 := fld_eq (lo := 8) a hW (packed_at _ hF 2)
  have e2 := fld_eq (lo := 2) im hW (packed_at _ hF 1)
  obtain ⟨g0, g1⟩ := guard_packed g h.1 hq eq [(2, 2), (6, im.toNat), (6, a.toNat), (6, d.toNat), (6, 21)] rfl ⟨of_decide_eq_true rfl, im.isLt, a.isLt, d.isLt, of_decide_eq_true rfl, hq, trivial⟩ hW
  have hN := hW.trans hE.symm
  have hb0 := d.isLt
  have hb1 := a.isLt
  have hb2 := im.isLt
  have z5 := nz_false (lo := 14) (len := 1) hN (by first | omega | (simp only [BitVec.toNat_eq] at h; simp at h; omega))
  have hr : vectorRow w = some { instr := some (.vwmulI (guardOf w) (fld w 14 6) (fld w 8 6) (fld w 2 6)), unused := guardBad w, vregs := [fld w 14 6, fld w 8 6], misaligned := nz w 14 1 } := by
    unfold vectorRow
    rw [fld_num (lo := 20) (len := 6) 21 hW (packed_at _ hF 4)]
    rw [fld_num (lo := 0) (len := 2) 2 hW (packed_at _ hF 0)]
    first | done | rfl
  change decodeWord .vec w = _
  refine decode_ok (p := .vec) (hW.trans hE.symm) (by omega) hr ?_
  refine check_ok rfl rfl ?_ rfl ?_ rfl ?_
  · simp [e0, e1, e2, g0, g1, z5]
  · simp [e0, e1, e2, g0, g1, z5]
  · simp only [e0, e1, e2, g0, g1, z5]

theorem vwmadd (g : Guard) (d : BitVec 6) (a : BitVec 6) (b : BitVec 6) : Statement (.vwmadd g d a b) := by
  intro h w hw
  change (g.wf && d.toNat % 2 == 0) = true at h
  try simp at h
  obtain ⟨q, hq, eq⟩ := guardBits_mul g
  have hF : Fits [(2, 0), (6, b.toNat), (6, a.toNat), (6, d.toNat), (6, 22), (6, q)] := ⟨of_decide_eq_true rfl, b.isLt, a.isLt, d.isLt, of_decide_eq_true rfl, hq, trivial⟩
  have hE : 0x1600000 + guardBits g + d.toNat * 16384 + a.toNat * 256 + b.toNat * 4 = packed [(2, 0), (6, b.toNat), (6, a.toNat), (6, d.toNat), (6, 22), (6, q)] := by
    simp only [packed]
    clear hF hw; omega
  have hW := packed_word _ rfl hF hE hw
  clear hw
  have e0 := fld_eq (lo := 14) d hW (packed_at _ hF 3)
  have e1 := fld_eq (lo := 8) a hW (packed_at _ hF 2)
  have e2 := fld_eq (lo := 2) b hW (packed_at _ hF 1)
  obtain ⟨g0, g1⟩ := guard_packed g h.1 hq eq [(2, 0), (6, b.toNat), (6, a.toNat), (6, d.toNat), (6, 22)] rfl ⟨of_decide_eq_true rfl, b.isLt, a.isLt, d.isLt, of_decide_eq_true rfl, hq, trivial⟩ hW
  have hN := hW.trans hE.symm
  have hb0 := d.isLt
  have hb1 := a.isLt
  have hb2 := b.isLt
  have z5 := nz_false (lo := 14) (len := 1) hN (by first | omega | (simp only [BitVec.toNat_eq] at h; simp at h; omega))
  have hr : vectorRow w = some { instr := some (.vwmadd (guardOf w) (fld w 14 6) (fld w 8 6) (fld w 2 6)), unused := guardBad w, vregs := [fld w 14 6, fld w 8 6, fld w 2 6], misaligned := nz w 14 1 } := by
    unfold vectorRow
    rw [fld_num (lo := 20) (len := 6) 22 hW (packed_at _ hF 4)]
    rw [fld_num (lo := 0) (len := 2) 0 hW (packed_at _ hF 0)]
    first | done | rfl
  change decodeWord .vec w = _
  refine decode_ok (p := .vec) (hW.trans hE.symm) (by omega) hr ?_
  refine check_ok rfl rfl ?_ rfl ?_ rfl ?_
  · simp [e0, e1, e2, g0, g1, z5]
  · simp [e0, e1, e2, g0, g1, z5]
  · simp only [e0, e1, e2, g0, g1, z5]

theorem vwmaddK (g : Guard) (d : BitVec 6) (a : BitVec 6) (k : BitVec 3) : Statement (.vwmaddK g d a k) := by
  intro h w hw
  change (g.wf && d.toNat % 2 == 0) = true at h
  try simp at h
  obtain ⟨q, hq, eq⟩ := guardBits_mul g
  have hF : Fits [(2, 1), (3, k.toNat), (3, 0), (6, a.toNat), (6, d.toNat), (6, 22), (6, q)] := ⟨of_decide_eq_true rfl, k.isLt, of_decide_eq_true rfl, a.isLt, d.isLt, of_decide_eq_true rfl, hq, trivial⟩
  have hE : 0x1600001 + guardBits g + d.toNat * 16384 + a.toNat * 256 + k.toNat * 4 = packed [(2, 1), (3, k.toNat), (3, 0), (6, a.toNat), (6, d.toNat), (6, 22), (6, q)] := by
    simp only [packed]
    clear hF hw; omega
  have hW := packed_word _ rfl hF hE hw
  clear hw
  have e0 := fld_eq (lo := 14) d hW (packed_at _ hF 4)
  have e1 := fld_eq (lo := 8) a hW (packed_at _ hF 3)
  have e2 := fld_eq (lo := 2) k hW (packed_at _ hF 1)
  obtain ⟨g0, g1⟩ := guard_packed g h.1 hq eq [(2, 1), (3, k.toNat), (3, 0), (6, a.toNat), (6, d.toNat), (6, 22)] rfl ⟨of_decide_eq_true rfl, k.isLt, of_decide_eq_true rfl, a.isLt, d.isLt, of_decide_eq_true rfl, hq, trivial⟩ hW
  have hN := hW.trans hE.symm
  have hb0 := d.isLt
  have hb1 := a.isLt
  have hb2 := k.isLt
  have z5 := nz_false (lo := 14) (len := 1) hN (by first | omega | (simp only [BitVec.toNat_eq] at h; simp at h; omega))
  have z6 := nz_false (lo := 5) (len := 3) hW (packed_at _ hF 2)
  have hr : vectorRow w = some { instr := some (.vwmaddK (guardOf w) (fld w 14 6) (fld w 8 6) (fld w 2 3)), unused := guardBad w || nz w 5 3, vregs := [fld w 14 6, fld w 8 6], misaligned := nz w 14 1 } := by
    unfold vectorRow
    rw [fld_num (lo := 20) (len := 6) 22 hW (packed_at _ hF 5)]
    rw [fld_num (lo := 0) (len := 2) 1 hW (packed_at _ hF 0)]
    first | done | rfl
  change decodeWord .vec w = _
  refine decode_ok (p := .vec) (hW.trans hE.symm) (by omega) hr ?_
  refine check_ok rfl rfl ?_ rfl ?_ rfl ?_
  · simp [e0, e1, e2, g0, g1, z5, z6]
  · simp [e0, e1, e2, g0, g1, z5, z6]
  · simp only [e0, e1, e2, g0, g1, z5, z6]

theorem vwmaddI (g : Guard) (d : BitVec 6) (a : BitVec 6) (im : BitVec 6) : Statement (.vwmaddI g d a im) := by
  intro h w hw
  change (g.wf && d.toNat % 2 == 0) = true at h
  try simp at h
  obtain ⟨q, hq, eq⟩ := guardBits_mul g
  have hF : Fits [(2, 2), (6, im.toNat), (6, a.toNat), (6, d.toNat), (6, 22), (6, q)] := ⟨of_decide_eq_true rfl, im.isLt, a.isLt, d.isLt, of_decide_eq_true rfl, hq, trivial⟩
  have hE : 0x1600002 + guardBits g + d.toNat * 16384 + a.toNat * 256 + im.toNat * 4 = packed [(2, 2), (6, im.toNat), (6, a.toNat), (6, d.toNat), (6, 22), (6, q)] := by
    simp only [packed]
    clear hF hw; omega
  have hW := packed_word _ rfl hF hE hw
  clear hw
  have e0 := fld_eq (lo := 14) d hW (packed_at _ hF 3)
  have e1 := fld_eq (lo := 8) a hW (packed_at _ hF 2)
  have e2 := fld_eq (lo := 2) im hW (packed_at _ hF 1)
  obtain ⟨g0, g1⟩ := guard_packed g h.1 hq eq [(2, 2), (6, im.toNat), (6, a.toNat), (6, d.toNat), (6, 22)] rfl ⟨of_decide_eq_true rfl, im.isLt, a.isLt, d.isLt, of_decide_eq_true rfl, hq, trivial⟩ hW
  have hN := hW.trans hE.symm
  have hb0 := d.isLt
  have hb1 := a.isLt
  have hb2 := im.isLt
  have z5 := nz_false (lo := 14) (len := 1) hN (by first | omega | (simp only [BitVec.toNat_eq] at h; simp at h; omega))
  have hr : vectorRow w = some { instr := some (.vwmaddI (guardOf w) (fld w 14 6) (fld w 8 6) (fld w 2 6)), unused := guardBad w, vregs := [fld w 14 6, fld w 8 6], misaligned := nz w 14 1 } := by
    unfold vectorRow
    rw [fld_num (lo := 20) (len := 6) 22 hW (packed_at _ hF 4)]
    rw [fld_num (lo := 0) (len := 2) 2 hW (packed_at _ hF 0)]
    first | done | rfl
  change decodeWord .vec w = _
  refine decode_ok (p := .vec) (hW.trans hE.symm) (by omega) hr ?_
  refine check_ok rfl rfl ?_ rfl ?_ rfl ?_
  · simp [e0, e1, e2, g0, g1, z5]
  · simp [e0, e1, e2, g0, g1, z5]
  · simp only [e0, e1, e2, g0, g1, z5]

theorem vdot4 (g : Guard) (d : BitVec 6) (a : BitVec 6) (b : BitVec 6) : Statement (.vdot4 g d a b) := by
  intro h w hw
  change (g.wf) = true at h
  obtain ⟨q, hq, eq⟩ := guardBits_mul g
  have hF : Fits [(2, 0), (6, b.toNat), (6, a.toNat), (6, d.toNat), (6, 23), (6, q)] := ⟨of_decide_eq_true rfl, b.isLt, a.isLt, d.isLt, of_decide_eq_true rfl, hq, trivial⟩
  have hE : 0x1700000 + guardBits g + d.toNat * 16384 + a.toNat * 256 + b.toNat * 4 = packed [(2, 0), (6, b.toNat), (6, a.toNat), (6, d.toNat), (6, 23), (6, q)] := by
    simp only [packed]
    clear hF hw; omega
  have hW := packed_word _ rfl hF hE hw
  clear hw
  have e0 := fld_eq (lo := 14) d hW (packed_at _ hF 3)
  have e1 := fld_eq (lo := 8) a hW (packed_at _ hF 2)
  have e2 := fld_eq (lo := 2) b hW (packed_at _ hF 1)
  obtain ⟨g0, g1⟩ := guard_packed g h hq eq [(2, 0), (6, b.toNat), (6, a.toNat), (6, d.toNat), (6, 23)] rfl ⟨of_decide_eq_true rfl, b.isLt, a.isLt, d.isLt, of_decide_eq_true rfl, hq, trivial⟩ hW
  have hr : vectorRow w = some { instr := some (.vdot4 (guardOf w) (fld w 14 6) (fld w 8 6) (fld w 2 6)), unused := guardBad w, vregs := [fld w 14 6, fld w 8 6, fld w 2 6] } := by
    unfold vectorRow
    rw [fld_num (lo := 20) (len := 6) 23 hW (packed_at _ hF 4)]
    rw [fld_num (lo := 0) (len := 2) 0 hW (packed_at _ hF 0)]
    first | done | rfl
  change decodeWord .vec w = _
  refine decode_ok (p := .vec) (hW.trans hE.symm) (by omega) hr ?_
  refine check_ok rfl rfl ?_ rfl rfl rfl ?_
  · simp [e0, e1, e2, g0, g1]
  · simp only [e0, e1, e2, g0, g1]

theorem vdot4K (g : Guard) (d : BitVec 6) (a : BitVec 6) (k : BitVec 3) : Statement (.vdot4K g d a k) := by
  intro h w hw
  change (g.wf) = true at h
  obtain ⟨q, hq, eq⟩ := guardBits_mul g
  have hF : Fits [(2, 1), (3, k.toNat), (3, 0), (6, a.toNat), (6, d.toNat), (6, 23), (6, q)] := ⟨of_decide_eq_true rfl, k.isLt, of_decide_eq_true rfl, a.isLt, d.isLt, of_decide_eq_true rfl, hq, trivial⟩
  have hE : 0x1700001 + guardBits g + d.toNat * 16384 + a.toNat * 256 + k.toNat * 4 = packed [(2, 1), (3, k.toNat), (3, 0), (6, a.toNat), (6, d.toNat), (6, 23), (6, q)] := by
    simp only [packed]
    clear hF hw; omega
  have hW := packed_word _ rfl hF hE hw
  clear hw
  have e0 := fld_eq (lo := 14) d hW (packed_at _ hF 4)
  have e1 := fld_eq (lo := 8) a hW (packed_at _ hF 3)
  have e2 := fld_eq (lo := 2) k hW (packed_at _ hF 1)
  obtain ⟨g0, g1⟩ := guard_packed g h hq eq [(2, 1), (3, k.toNat), (3, 0), (6, a.toNat), (6, d.toNat), (6, 23)] rfl ⟨of_decide_eq_true rfl, k.isLt, of_decide_eq_true rfl, a.isLt, d.isLt, of_decide_eq_true rfl, hq, trivial⟩ hW
  have z5 := nz_false (lo := 5) (len := 3) hW (packed_at _ hF 2)
  have hr : vectorRow w = some { instr := some (.vdot4K (guardOf w) (fld w 14 6) (fld w 8 6) (fld w 2 3)), unused := guardBad w || nz w 5 3, vregs := [fld w 14 6, fld w 8 6] } := by
    unfold vectorRow
    rw [fld_num (lo := 20) (len := 6) 23 hW (packed_at _ hF 5)]
    rw [fld_num (lo := 0) (len := 2) 1 hW (packed_at _ hF 0)]
    first | done | rfl
  change decodeWord .vec w = _
  refine decode_ok (p := .vec) (hW.trans hE.symm) (by omega) hr ?_
  refine check_ok rfl rfl ?_ rfl rfl rfl ?_
  · simp [e0, e1, e2, g0, g1, z5]
  · simp only [e0, e1, e2, g0, g1, z5]

theorem vcvt (g : Guard) (d : BitVec 6) (a : BitVec 6) (f : BitVec 6) : Statement (.vcvt g d a f) := by
  intro h w hw
  change (g.wf && fmtKnown f) = true at h
  try simp at h
  obtain ⟨q, hq, eq⟩ := guardBits_mul g
  have hF : Fits [(2, 0), (6, f.toNat), (6, a.toNat), (6, d.toNat), (6, 24), (6, q)] := ⟨of_decide_eq_true rfl, f.isLt, a.isLt, d.isLt, of_decide_eq_true rfl, hq, trivial⟩
  have hE : 0x1800000 + guardBits g + d.toNat * 16384 + a.toNat * 256 + f.toNat * 4 = packed [(2, 0), (6, f.toNat), (6, a.toNat), (6, d.toNat), (6, 24), (6, q)] := by
    simp only [packed]
    clear hF hw; omega
  have hW := packed_word _ rfl hF hE hw
  clear hw
  have e0 := fld_eq (lo := 14) d hW (packed_at _ hF 3)
  have e1 := fld_eq (lo := 8) a hW (packed_at _ hF 2)
  have e2 := fld_eq (lo := 2) f hW (packed_at _ hF 1)
  obtain ⟨g0, g1⟩ := guard_packed g h.1 hq eq [(2, 0), (6, f.toNat), (6, a.toNat), (6, d.toNat), (6, 24)] rfl ⟨of_decide_eq_true rfl, f.isLt, a.isLt, d.isLt, of_decide_eq_true rfl, hq, trivial⟩ hW
  have hr : vectorRow w = some { instr := some (.vcvt (guardOf w) (fld w 14 6) (fld w 8 6) (fld w 2 6)), unused := guardBad w, range := !fmtKnown (fld w 2 6), vregs := [fld w 14 6, fld w 8 6] } := by
    unfold vectorRow
    rw [fld_num (lo := 20) (len := 6) 24 hW (packed_at _ hF 4)]
    rw [fld_num (lo := 0) (len := 2) 0 hW (packed_at _ hF 0)]
    first | done | rfl
  change decodeWord .vec w = _
  refine decode_ok (p := .vec) (hW.trans hE.symm) (by omega) hr ?_
  refine check_ok rfl rfl ?_ ?_ rfl rfl ?_
  · simp [e0, e1, e2, g0, g1, h]
  · simp [e0, e1, e2, g0, g1, h]
  · simp only [e0, e1, e2, g0, g1]

theorem vnarrow (g : Guard) (d : BitVec 6) (a : BitVec 6) (f : BitVec 6) : Statement (.vnarrow g d a f) := by
  intro h w hw
  change (g.wf && fmtKnown f) = true at h
  try simp at h
  obtain ⟨q, hq, eq⟩ := guardBits_mul g
  have hF : Fits [(2, 0), (6, f.toNat), (6, a.toNat), (6, d.toNat), (6, 25), (6, q)] := ⟨of_decide_eq_true rfl, f.isLt, a.isLt, d.isLt, of_decide_eq_true rfl, hq, trivial⟩
  have hE : 0x1900000 + guardBits g + d.toNat * 16384 + a.toNat * 256 + f.toNat * 4 = packed [(2, 0), (6, f.toNat), (6, a.toNat), (6, d.toNat), (6, 25), (6, q)] := by
    simp only [packed]
    clear hF hw; omega
  have hW := packed_word _ rfl hF hE hw
  clear hw
  have e0 := fld_eq (lo := 14) d hW (packed_at _ hF 3)
  have e1 := fld_eq (lo := 8) a hW (packed_at _ hF 2)
  have e2 := fld_eq (lo := 2) f hW (packed_at _ hF 1)
  obtain ⟨g0, g1⟩ := guard_packed g h.1 hq eq [(2, 0), (6, f.toNat), (6, a.toNat), (6, d.toNat), (6, 25)] rfl ⟨of_decide_eq_true rfl, f.isLt, a.isLt, d.isLt, of_decide_eq_true rfl, hq, trivial⟩ hW
  have hr : vectorRow w = some { instr := some (.vnarrow (guardOf w) (fld w 14 6) (fld w 8 6) (fld w 2 6)), unused := guardBad w, range := !fmtKnown (fld w 2 6), vregs := [fld w 14 6, fld w 8 6] } := by
    unfold vectorRow
    rw [fld_num (lo := 20) (len := 6) 25 hW (packed_at _ hF 4)]
    rw [fld_num (lo := 0) (len := 2) 0 hW (packed_at _ hF 0)]
    first | done | rfl
  change decodeWord .vec w = _
  refine decode_ok (p := .vec) (hW.trans hE.symm) (by omega) hr ?_
  refine check_ok rfl rfl ?_ ?_ rfl rfl ?_
  · simp [e0, e1, e2, g0, g1, h]
  · simp [e0, e1, e2, g0, g1, h]
  · simp only [e0, e1, e2, g0, g1]

theorem vquant (d : BitVec 6) (a : BitVec 6) (f : BitVec 6) : Statement (.vquant d a f) := by
  intro h w hw
  change (fmtKnown f) = true at h
  try simp at h
  have hF : Fits [(2, 0), (6, f.toNat), (6, a.toNat), (6, d.toNat), (6, 26), (5, 0), (1, 0)] := ⟨of_decide_eq_true rfl, f.isLt, a.isLt, d.isLt, of_decide_eq_true rfl, of_decide_eq_true rfl, of_decide_eq_true rfl, trivial⟩
  have hE : 0x1a00000 + d.toNat * 16384 + a.toNat * 256 + f.toNat * 4 = packed [(2, 0), (6, f.toNat), (6, a.toNat), (6, d.toNat), (6, 26), (5, 0), (1, 0)] := by
    simp only [packed]
    clear hF hw; omega
  have hW := packed_word _ rfl hF hE hw
  clear hw
  have e0 := fld_eq (lo := 14) d hW (packed_at _ hF 3)
  have e1 := fld_eq (lo := 8) a hW (packed_at _ hF 2)
  have e2 := fld_eq (lo := 2) f hW (packed_at _ hF 1)
  have hN := hW.trans hE.symm
  have hb0 := d.isLt
  have hb1 := a.isLt
  have hb2 := f.isLt
  have g1 := guardBad_low hN (by omega)
  have z4 := nz_false (lo := 31) (len := 1) hW (packed_at _ hF 6)
  have hr : vectorRow w = some { instr := some (.vquant (fld w 14 6) (fld w 8 6) (fld w 2 6)), unused := guardBad w, range := !fmtKnown (fld w 2 6) || (nz w 31 1 && !fmtBlock (fld w 2 6)), vregs := [fld w 14 6, fld w 8 6], form := nz w 31 1 } := by
    unfold vectorRow
    rw [fld_num (lo := 20) (len := 6) 26 hW (packed_at _ hF 4)]
    rw [fld_num (lo := 0) (len := 2) 0 hW (packed_at _ hF 0)]
    first | done | rfl
  change decodeWord .vec w = _
  refine decode_ok (p := .vec) (hW.trans hE.symm) (by omega) hr ?_
  refine check_ok rfl rfl ?_ ?_ rfl ?_ ?_
  · simp [e0, e1, e2, g1, z4, h]
  · simp [e0, e1, e2, g1, z4, h]
  · simp [e0, e1, e2, g1, z4, h]
  · simp only [e0, e1, e2, g1, z4]

theorem vdeq (g : Guard) (d : BitVec 6) (a : BitVec 6) (f : BitVec 6) : Statement (.vdeq g d a f) := by
  intro h w hw
  change (g.wf && fmtKnown f) = true at h
  try simp at h
  obtain ⟨q, hq, eq⟩ := guardBits_mul g
  have hF : Fits [(2, 0), (6, f.toNat), (6, a.toNat), (6, d.toNat), (6, 27), (6, q)] := ⟨of_decide_eq_true rfl, f.isLt, a.isLt, d.isLt, of_decide_eq_true rfl, hq, trivial⟩
  have hE : 0x1b00000 + guardBits g + d.toNat * 16384 + a.toNat * 256 + f.toNat * 4 = packed [(2, 0), (6, f.toNat), (6, a.toNat), (6, d.toNat), (6, 27), (6, q)] := by
    simp only [packed]
    clear hF hw; omega
  have hW := packed_word _ rfl hF hE hw
  clear hw
  have e0 := fld_eq (lo := 14) d hW (packed_at _ hF 3)
  have e1 := fld_eq (lo := 8) a hW (packed_at _ hF 2)
  have e2 := fld_eq (lo := 2) f hW (packed_at _ hF 1)
  obtain ⟨g0, g1⟩ := guard_packed g h.1 hq eq [(2, 0), (6, f.toNat), (6, a.toNat), (6, d.toNat), (6, 27)] rfl ⟨of_decide_eq_true rfl, f.isLt, a.isLt, d.isLt, of_decide_eq_true rfl, hq, trivial⟩ hW
  have hr : vectorRow w = some { instr := some (.vdeq (guardOf w) (fld w 14 6) (fld w 8 6) (fld w 2 6)), unused := guardBad w, range := !fmtKnown (fld w 2 6), vregs := [fld w 14 6, fld w 8 6] } := by
    unfold vectorRow
    rw [fld_num (lo := 20) (len := 6) 27 hW (packed_at _ hF 4)]
    rw [fld_num (lo := 0) (len := 2) 0 hW (packed_at _ hF 0)]
    first | done | rfl
  change decodeWord .vec w = _
  refine decode_ok (p := .vec) (hW.trans hE.symm) (by omega) hr ?_
  refine check_ok rfl rfl ?_ ?_ rfl rfl ?_
  · simp [e0, e1, e2, g0, g1, h]
  · simp [e0, e1, e2, g0, g1, h]
  · simp only [e0, e1, e2, g0, g1]

theorem vlgmul (g : Guard) (d : BitVec 6) (a : BitVec 6) (b : BitVec 6) : Statement (.vlgmul g d a b) := by
  intro h w hw
  change (g.wf) = true at h
  obtain ⟨q, hq, eq⟩ := guardBits_mul g
  have hF : Fits [(2, 0), (6, b.toNat), (6, a.toNat), (6, d.toNat), (6, 28), (6, q)] := ⟨of_decide_eq_true rfl, b.isLt, a.isLt, d.isLt, of_decide_eq_true rfl, hq, trivial⟩
  have hE : 0x1c00000 + guardBits g + d.toNat * 16384 + a.toNat * 256 + b.toNat * 4 = packed [(2, 0), (6, b.toNat), (6, a.toNat), (6, d.toNat), (6, 28), (6, q)] := by
    simp only [packed]
    clear hF hw; omega
  have hW := packed_word _ rfl hF hE hw
  clear hw
  have e0 := fld_eq (lo := 14) d hW (packed_at _ hF 3)
  have e1 := fld_eq (lo := 8) a hW (packed_at _ hF 2)
  have e2 := fld_eq (lo := 2) b hW (packed_at _ hF 1)
  obtain ⟨g0, g1⟩ := guard_packed g h hq eq [(2, 0), (6, b.toNat), (6, a.toNat), (6, d.toNat), (6, 28)] rfl ⟨of_decide_eq_true rfl, b.isLt, a.isLt, d.isLt, of_decide_eq_true rfl, hq, trivial⟩ hW
  have hr : vectorRow w = some { instr := some (.vlgmul (guardOf w) (fld w 14 6) (fld w 8 6) (fld w 2 6)), unused := guardBad w, vregs := [fld w 14 6, fld w 8 6, fld w 2 6] } := by
    unfold vectorRow
    rw [fld_num (lo := 20) (len := 6) 28 hW (packed_at _ hF 4)]
    rw [fld_num (lo := 0) (len := 2) 0 hW (packed_at _ hF 0)]
    first | done | rfl
  change decodeWord .vec w = _
  refine decode_ok (p := .vec) (hW.trans hE.symm) (by omega) hr ?_
  refine check_ok rfl rfl ?_ rfl rfl rfl ?_
  · simp [e0, e1, e2, g0, g1]
  · simp only [e0, e1, e2, g0, g1]

theorem vlgadd (g : Guard) (d : BitVec 6) (a : BitVec 6) (b : BitVec 6) : Statement (.vlgadd g d a b) := by
  intro h w hw
  change (g.wf) = true at h
  obtain ⟨q, hq, eq⟩ := guardBits_mul g
  have hF : Fits [(2, 0), (6, b.toNat), (6, a.toNat), (6, d.toNat), (6, 29), (6, q)] := ⟨of_decide_eq_true rfl, b.isLt, a.isLt, d.isLt, of_decide_eq_true rfl, hq, trivial⟩
  have hE : 0x1d00000 + guardBits g + d.toNat * 16384 + a.toNat * 256 + b.toNat * 4 = packed [(2, 0), (6, b.toNat), (6, a.toNat), (6, d.toNat), (6, 29), (6, q)] := by
    simp only [packed]
    clear hF hw; omega
  have hW := packed_word _ rfl hF hE hw
  clear hw
  have e0 := fld_eq (lo := 14) d hW (packed_at _ hF 3)
  have e1 := fld_eq (lo := 8) a hW (packed_at _ hF 2)
  have e2 := fld_eq (lo := 2) b hW (packed_at _ hF 1)
  obtain ⟨g0, g1⟩ := guard_packed g h hq eq [(2, 0), (6, b.toNat), (6, a.toNat), (6, d.toNat), (6, 29)] rfl ⟨of_decide_eq_true rfl, b.isLt, a.isLt, d.isLt, of_decide_eq_true rfl, hq, trivial⟩ hW
  have hr : vectorRow w = some { instr := some (.vlgadd (guardOf w) (fld w 14 6) (fld w 8 6) (fld w 2 6)), unused := guardBad w, vregs := [fld w 14 6, fld w 8 6, fld w 2 6] } := by
    unfold vectorRow
    rw [fld_num (lo := 20) (len := 6) 29 hW (packed_at _ hF 4)]
    rw [fld_num (lo := 0) (len := 2) 0 hW (packed_at _ hF 0)]
    first | done | rfl
  change decodeWord .vec w = _
  refine decode_ok (p := .vec) (hW.trans hE.symm) (by omega) hr ?_
  refine check_ok rfl rfl ?_ rfl rfl rfl ?_
  · simp [e0, e1, e2, g0, g1]
  · simp only [e0, e1, e2, g0, g1]

theorem vlgcvt (g : Guard) (d : BitVec 6) (a : BitVec 6) (f : BitVec 6) : Statement (.vlgcvt g d a f) := by
  intro h w hw
  change (g.wf && fmtKnown f) = true at h
  try simp at h
  obtain ⟨q, hq, eq⟩ := guardBits_mul g
  have hF : Fits [(2, 0), (6, f.toNat), (6, a.toNat), (6, d.toNat), (6, 30), (6, q)] := ⟨of_decide_eq_true rfl, f.isLt, a.isLt, d.isLt, of_decide_eq_true rfl, hq, trivial⟩
  have hE : 0x1e00000 + guardBits g + d.toNat * 16384 + a.toNat * 256 + f.toNat * 4 = packed [(2, 0), (6, f.toNat), (6, a.toNat), (6, d.toNat), (6, 30), (6, q)] := by
    simp only [packed]
    clear hF hw; omega
  have hW := packed_word _ rfl hF hE hw
  clear hw
  have e0 := fld_eq (lo := 14) d hW (packed_at _ hF 3)
  have e1 := fld_eq (lo := 8) a hW (packed_at _ hF 2)
  have e2 := fld_eq (lo := 2) f hW (packed_at _ hF 1)
  obtain ⟨g0, g1⟩ := guard_packed g h.1 hq eq [(2, 0), (6, f.toNat), (6, a.toNat), (6, d.toNat), (6, 30)] rfl ⟨of_decide_eq_true rfl, f.isLt, a.isLt, d.isLt, of_decide_eq_true rfl, hq, trivial⟩ hW
  have hr : vectorRow w = some { instr := some (.vlgcvt (guardOf w) (fld w 14 6) (fld w 8 6) (fld w 2 6)), unused := guardBad w, range := !fmtKnown (fld w 2 6), vregs := [fld w 14 6, fld w 8 6] } := by
    unfold vectorRow
    rw [fld_num (lo := 20) (len := 6) 30 hW (packed_at _ hF 4)]
    rw [fld_num (lo := 0) (len := 2) 0 hW (packed_at _ hF 0)]
    first | done | rfl
  change decodeWord .vec w = _
  refine decode_ok (p := .vec) (hW.trans hE.symm) (by omega) hr ?_
  refine check_ok rfl rfl ?_ ?_ rfl rfl ?_
  · simp [e0, e1, e2, g0, g1, h]
  · simp [e0, e1, e2, g0, g1, h]
  · simp only [e0, e1, e2, g0, g1]

theorem vdiv (g : Guard) (d : BitVec 6) (a : BitVec 6) (b : BitVec 6) : Statement (.vdiv g d a b) := by
  intro h w hw
  change (g.wf) = true at h
  obtain ⟨q, hq, eq⟩ := guardBits_mul g
  have hF : Fits [(2, 0), (6, b.toNat), (6, a.toNat), (6, d.toNat), (6, 31), (6, q)] := ⟨of_decide_eq_true rfl, b.isLt, a.isLt, d.isLt, of_decide_eq_true rfl, hq, trivial⟩
  have hE : 0x1f00000 + guardBits g + d.toNat * 16384 + a.toNat * 256 + b.toNat * 4 = packed [(2, 0), (6, b.toNat), (6, a.toNat), (6, d.toNat), (6, 31), (6, q)] := by
    simp only [packed]
    clear hF hw; omega
  have hW := packed_word _ rfl hF hE hw
  clear hw
  have e0 := fld_eq (lo := 14) d hW (packed_at _ hF 3)
  have e1 := fld_eq (lo := 8) a hW (packed_at _ hF 2)
  have e2 := fld_eq (lo := 2) b hW (packed_at _ hF 1)
  obtain ⟨g0, g1⟩ := guard_packed g h hq eq [(2, 0), (6, b.toNat), (6, a.toNat), (6, d.toNat), (6, 31)] rfl ⟨of_decide_eq_true rfl, b.isLt, a.isLt, d.isLt, of_decide_eq_true rfl, hq, trivial⟩ hW
  have hr : vectorRow w = some { instr := some (.vdiv (guardOf w) (fld w 14 6) (fld w 8 6) (fld w 2 6)), unused := guardBad w, vregs := [fld w 14 6, fld w 8 6, fld w 2 6] } := by
    unfold vectorRow
    rw [fld_num (lo := 20) (len := 6) 31 hW (packed_at _ hF 4)]
    rw [fld_num (lo := 0) (len := 2) 0 hW (packed_at _ hF 0)]
    first | done | rfl
  change decodeWord .vec w = _
  refine decode_ok (p := .vec) (hW.trans hE.symm) (by omega) hr ?_
  refine check_ok rfl rfl ?_ rfl rfl rfl ?_
  · simp [e0, e1, e2, g0, g1]
  · simp only [e0, e1, e2, g0, g1]

theorem vdivK (g : Guard) (d : BitVec 6) (a : BitVec 6) (k : BitVec 3) : Statement (.vdivK g d a k) := by
  intro h w hw
  change (g.wf) = true at h
  obtain ⟨q, hq, eq⟩ := guardBits_mul g
  have hF : Fits [(2, 1), (3, k.toNat), (3, 0), (6, a.toNat), (6, d.toNat), (6, 31), (6, q)] := ⟨of_decide_eq_true rfl, k.isLt, of_decide_eq_true rfl, a.isLt, d.isLt, of_decide_eq_true rfl, hq, trivial⟩
  have hE : 0x1f00001 + guardBits g + d.toNat * 16384 + a.toNat * 256 + k.toNat * 4 = packed [(2, 1), (3, k.toNat), (3, 0), (6, a.toNat), (6, d.toNat), (6, 31), (6, q)] := by
    simp only [packed]
    clear hF hw; omega
  have hW := packed_word _ rfl hF hE hw
  clear hw
  have e0 := fld_eq (lo := 14) d hW (packed_at _ hF 4)
  have e1 := fld_eq (lo := 8) a hW (packed_at _ hF 3)
  have e2 := fld_eq (lo := 2) k hW (packed_at _ hF 1)
  obtain ⟨g0, g1⟩ := guard_packed g h hq eq [(2, 1), (3, k.toNat), (3, 0), (6, a.toNat), (6, d.toNat), (6, 31)] rfl ⟨of_decide_eq_true rfl, k.isLt, of_decide_eq_true rfl, a.isLt, d.isLt, of_decide_eq_true rfl, hq, trivial⟩ hW
  have z5 := nz_false (lo := 5) (len := 3) hW (packed_at _ hF 2)
  have hr : vectorRow w = some { instr := some (.vdivK (guardOf w) (fld w 14 6) (fld w 8 6) (fld w 2 3)), unused := guardBad w || nz w 5 3, vregs := [fld w 14 6, fld w 8 6] } := by
    unfold vectorRow
    rw [fld_num (lo := 20) (len := 6) 31 hW (packed_at _ hF 5)]
    rw [fld_num (lo := 0) (len := 2) 1 hW (packed_at _ hF 0)]
    first | done | rfl
  change decodeWord .vec w = _
  refine decode_ok (p := .vec) (hW.trans hE.symm) (by omega) hr ?_
  refine check_ok rfl rfl ?_ rfl rfl rfl ?_
  · simp [e0, e1, e2, g0, g1, z5]
  · simp only [e0, e1, e2, g0, g1, z5]

theorem vexp2 (g : Guard) (d : BitVec 6) (a : BitVec 6) : Statement (.vexp2 g d a) := by
  intro h w hw
  change (g.wf) = true at h
  obtain ⟨q, hq, eq⟩ := guardBits_mul g
  have hF : Fits [(2, 0), (6, 0), (6, a.toNat), (6, d.toNat), (6, 32), (6, q)] := ⟨of_decide_eq_true rfl, of_decide_eq_true rfl, a.isLt, d.isLt, of_decide_eq_true rfl, hq, trivial⟩
  have hE : 0x2000000 + guardBits g + d.toNat * 16384 + a.toNat * 256 = packed [(2, 0), (6, 0), (6, a.toNat), (6, d.toNat), (6, 32), (6, q)] := by
    simp only [packed]
    clear hF hw; omega
  have hW := packed_word _ rfl hF hE hw
  clear hw
  have e0 := fld_eq (lo := 14) d hW (packed_at _ hF 3)
  have e1 := fld_eq (lo := 8) a hW (packed_at _ hF 2)
  obtain ⟨g0, g1⟩ := guard_packed g h hq eq [(2, 0), (6, 0), (6, a.toNat), (6, d.toNat), (6, 32)] rfl ⟨of_decide_eq_true rfl, of_decide_eq_true rfl, a.isLt, d.isLt, of_decide_eq_true rfl, hq, trivial⟩ hW
  have z4 := nz_false (lo := 2) (len := 6) hW (packed_at _ hF 1)
  have hr : vectorRow w = some { instr := some (.vexp2 (guardOf w) (fld w 14 6) (fld w 8 6)), unused := guardBad w || nz w 2 6, vregs := [fld w 14 6, fld w 8 6] } := by
    unfold vectorRow
    rw [fld_num (lo := 20) (len := 6) 32 hW (packed_at _ hF 4)]
    rw [fld_num (lo := 0) (len := 2) 0 hW (packed_at _ hF 0)]
    first | done | rfl
  change decodeWord .vec w = _
  refine decode_ok (p := .vec) (hW.trans hE.symm) (by omega) hr ?_
  refine check_ok rfl rfl ?_ rfl rfl rfl ?_
  · simp [e0, e1, g0, g1, z4]
  · simp only [e0, e1, g0, g1, z4]

theorem vlog2 (g : Guard) (d : BitVec 6) (a : BitVec 6) : Statement (.vlog2 g d a) := by
  intro h w hw
  change (g.wf) = true at h
  obtain ⟨q, hq, eq⟩ := guardBits_mul g
  have hF : Fits [(2, 0), (6, 0), (6, a.toNat), (6, d.toNat), (6, 33), (6, q)] := ⟨of_decide_eq_true rfl, of_decide_eq_true rfl, a.isLt, d.isLt, of_decide_eq_true rfl, hq, trivial⟩
  have hE : 0x2100000 + guardBits g + d.toNat * 16384 + a.toNat * 256 = packed [(2, 0), (6, 0), (6, a.toNat), (6, d.toNat), (6, 33), (6, q)] := by
    simp only [packed]
    clear hF hw; omega
  have hW := packed_word _ rfl hF hE hw
  clear hw
  have e0 := fld_eq (lo := 14) d hW (packed_at _ hF 3)
  have e1 := fld_eq (lo := 8) a hW (packed_at _ hF 2)
  obtain ⟨g0, g1⟩ := guard_packed g h hq eq [(2, 0), (6, 0), (6, a.toNat), (6, d.toNat), (6, 33)] rfl ⟨of_decide_eq_true rfl, of_decide_eq_true rfl, a.isLt, d.isLt, of_decide_eq_true rfl, hq, trivial⟩ hW
  have z4 := nz_false (lo := 2) (len := 6) hW (packed_at _ hF 1)
  have hr : vectorRow w = some { instr := some (.vlog2 (guardOf w) (fld w 14 6) (fld w 8 6)), unused := guardBad w || nz w 2 6, vregs := [fld w 14 6, fld w 8 6] } := by
    unfold vectorRow
    rw [fld_num (lo := 20) (len := 6) 33 hW (packed_at _ hF 4)]
    rw [fld_num (lo := 0) (len := 2) 0 hW (packed_at _ hF 0)]
    first | done | rfl
  change decodeWord .vec w = _
  refine decode_ok (p := .vec) (hW.trans hE.symm) (by omega) hr ?_
  refine check_ok rfl rfl ?_ rfl rfl rfl ?_
  · simp [e0, e1, g0, g1, z4]
  · simp only [e0, e1, g0, g1, z4]

theorem vrcp (g : Guard) (d : BitVec 6) (a : BitVec 6) : Statement (.vrcp g d a) := by
  intro h w hw
  change (g.wf) = true at h
  obtain ⟨q, hq, eq⟩ := guardBits_mul g
  have hF : Fits [(2, 0), (6, 0), (6, a.toNat), (6, d.toNat), (6, 34), (6, q)] := ⟨of_decide_eq_true rfl, of_decide_eq_true rfl, a.isLt, d.isLt, of_decide_eq_true rfl, hq, trivial⟩
  have hE : 0x2200000 + guardBits g + d.toNat * 16384 + a.toNat * 256 = packed [(2, 0), (6, 0), (6, a.toNat), (6, d.toNat), (6, 34), (6, q)] := by
    simp only [packed]
    clear hF hw; omega
  have hW := packed_word _ rfl hF hE hw
  clear hw
  have e0 := fld_eq (lo := 14) d hW (packed_at _ hF 3)
  have e1 := fld_eq (lo := 8) a hW (packed_at _ hF 2)
  obtain ⟨g0, g1⟩ := guard_packed g h hq eq [(2, 0), (6, 0), (6, a.toNat), (6, d.toNat), (6, 34)] rfl ⟨of_decide_eq_true rfl, of_decide_eq_true rfl, a.isLt, d.isLt, of_decide_eq_true rfl, hq, trivial⟩ hW
  have z4 := nz_false (lo := 2) (len := 6) hW (packed_at _ hF 1)
  have hr : vectorRow w = some { instr := some (.vrcp (guardOf w) (fld w 14 6) (fld w 8 6)), unused := guardBad w || nz w 2 6, vregs := [fld w 14 6, fld w 8 6] } := by
    unfold vectorRow
    rw [fld_num (lo := 20) (len := 6) 34 hW (packed_at _ hF 4)]
    rw [fld_num (lo := 0) (len := 2) 0 hW (packed_at _ hF 0)]
    first | done | rfl
  change decodeWord .vec w = _
  refine decode_ok (p := .vec) (hW.trans hE.symm) (by omega) hr ?_
  refine check_ok rfl rfl ?_ rfl rfl rfl ?_
  · simp [e0, e1, g0, g1, z4]
  · simp only [e0, e1, g0, g1, z4]

theorem vrsqrt (g : Guard) (d : BitVec 6) (a : BitVec 6) : Statement (.vrsqrt g d a) := by
  intro h w hw
  change (g.wf) = true at h
  obtain ⟨q, hq, eq⟩ := guardBits_mul g
  have hF : Fits [(2, 0), (6, 0), (6, a.toNat), (6, d.toNat), (6, 35), (6, q)] := ⟨of_decide_eq_true rfl, of_decide_eq_true rfl, a.isLt, d.isLt, of_decide_eq_true rfl, hq, trivial⟩
  have hE : 0x2300000 + guardBits g + d.toNat * 16384 + a.toNat * 256 = packed [(2, 0), (6, 0), (6, a.toNat), (6, d.toNat), (6, 35), (6, q)] := by
    simp only [packed]
    clear hF hw; omega
  have hW := packed_word _ rfl hF hE hw
  clear hw
  have e0 := fld_eq (lo := 14) d hW (packed_at _ hF 3)
  have e1 := fld_eq (lo := 8) a hW (packed_at _ hF 2)
  obtain ⟨g0, g1⟩ := guard_packed g h hq eq [(2, 0), (6, 0), (6, a.toNat), (6, d.toNat), (6, 35)] rfl ⟨of_decide_eq_true rfl, of_decide_eq_true rfl, a.isLt, d.isLt, of_decide_eq_true rfl, hq, trivial⟩ hW
  have z4 := nz_false (lo := 2) (len := 6) hW (packed_at _ hF 1)
  have hr : vectorRow w = some { instr := some (.vrsqrt (guardOf w) (fld w 14 6) (fld w 8 6)), unused := guardBad w || nz w 2 6, vregs := [fld w 14 6, fld w 8 6] } := by
    unfold vectorRow
    rw [fld_num (lo := 20) (len := 6) 35 hW (packed_at _ hF 4)]
    rw [fld_num (lo := 0) (len := 2) 0 hW (packed_at _ hF 0)]
    first | done | rfl
  change decodeWord .vec w = _
  refine decode_ok (p := .vec) (hW.trans hE.symm) (by omega) hr ?_
  refine check_ok rfl rfl ?_ rfl rfl rfl ?_
  · simp [e0, e1, g0, g1, z4]
  · simp only [e0, e1, g0, g1, z4]

theorem vtanh (g : Guard) (d : BitVec 6) (a : BitVec 6) : Statement (.vtanh g d a) := by
  intro h w hw
  change (g.wf) = true at h
  obtain ⟨q, hq, eq⟩ := guardBits_mul g
  have hF : Fits [(2, 0), (6, 0), (6, a.toNat), (6, d.toNat), (6, 36), (6, q)] := ⟨of_decide_eq_true rfl, of_decide_eq_true rfl, a.isLt, d.isLt, of_decide_eq_true rfl, hq, trivial⟩
  have hE : 0x2400000 + guardBits g + d.toNat * 16384 + a.toNat * 256 = packed [(2, 0), (6, 0), (6, a.toNat), (6, d.toNat), (6, 36), (6, q)] := by
    simp only [packed]
    clear hF hw; omega
  have hW := packed_word _ rfl hF hE hw
  clear hw
  have e0 := fld_eq (lo := 14) d hW (packed_at _ hF 3)
  have e1 := fld_eq (lo := 8) a hW (packed_at _ hF 2)
  obtain ⟨g0, g1⟩ := guard_packed g h hq eq [(2, 0), (6, 0), (6, a.toNat), (6, d.toNat), (6, 36)] rfl ⟨of_decide_eq_true rfl, of_decide_eq_true rfl, a.isLt, d.isLt, of_decide_eq_true rfl, hq, trivial⟩ hW
  have z4 := nz_false (lo := 2) (len := 6) hW (packed_at _ hF 1)
  have hr : vectorRow w = some { instr := some (.vtanh (guardOf w) (fld w 14 6) (fld w 8 6)), unused := guardBad w || nz w 2 6, vregs := [fld w 14 6, fld w 8 6] } := by
    unfold vectorRow
    rw [fld_num (lo := 20) (len := 6) 36 hW (packed_at _ hF 4)]
    rw [fld_num (lo := 0) (len := 2) 0 hW (packed_at _ hF 0)]
    first | done | rfl
  change decodeWord .vec w = _
  refine decode_ok (p := .vec) (hW.trans hE.symm) (by omega) hr ?_
  refine check_ok rfl rfl ?_ rfl rfl rfl ?_
  · simp [e0, e1, g0, g1, z4]
  · simp only [e0, e1, g0, g1, z4]

theorem vsigm (g : Guard) (d : BitVec 6) (a : BitVec 6) : Statement (.vsigm g d a) := by
  intro h w hw
  change (g.wf) = true at h
  obtain ⟨q, hq, eq⟩ := guardBits_mul g
  have hF : Fits [(2, 0), (6, 0), (6, a.toNat), (6, d.toNat), (6, 37), (6, q)] := ⟨of_decide_eq_true rfl, of_decide_eq_true rfl, a.isLt, d.isLt, of_decide_eq_true rfl, hq, trivial⟩
  have hE : 0x2500000 + guardBits g + d.toNat * 16384 + a.toNat * 256 = packed [(2, 0), (6, 0), (6, a.toNat), (6, d.toNat), (6, 37), (6, q)] := by
    simp only [packed]
    clear hF hw; omega
  have hW := packed_word _ rfl hF hE hw
  clear hw
  have e0 := fld_eq (lo := 14) d hW (packed_at _ hF 3)
  have e1 := fld_eq (lo := 8) a hW (packed_at _ hF 2)
  obtain ⟨g0, g1⟩ := guard_packed g h hq eq [(2, 0), (6, 0), (6, a.toNat), (6, d.toNat), (6, 37)] rfl ⟨of_decide_eq_true rfl, of_decide_eq_true rfl, a.isLt, d.isLt, of_decide_eq_true rfl, hq, trivial⟩ hW
  have z4 := nz_false (lo := 2) (len := 6) hW (packed_at _ hF 1)
  have hr : vectorRow w = some { instr := some (.vsigm (guardOf w) (fld w 14 6) (fld w 8 6)), unused := guardBad w || nz w 2 6, vregs := [fld w 14 6, fld w 8 6] } := by
    unfold vectorRow
    rw [fld_num (lo := 20) (len := 6) 37 hW (packed_at _ hF 4)]
    rw [fld_num (lo := 0) (len := 2) 0 hW (packed_at _ hF 0)]
    first | done | rfl
  change decodeWord .vec w = _
  refine decode_ok (p := .vec) (hW.trans hE.symm) (by omega) hr ?_
  refine check_ok rfl rfl ?_ rfl rfl rfl ?_
  · simp [e0, e1, g0, g1, z4]
  · simp only [e0, e1, g0, g1, z4]

theorem vsqrt (g : Guard) (d : BitVec 6) (a : BitVec 6) : Statement (.vsqrt g d a) := by
  intro h w hw
  change (g.wf) = true at h
  obtain ⟨q, hq, eq⟩ := guardBits_mul g
  have hF : Fits [(2, 0), (6, 0), (6, a.toNat), (6, d.toNat), (6, 38), (6, q)] := ⟨of_decide_eq_true rfl, of_decide_eq_true rfl, a.isLt, d.isLt, of_decide_eq_true rfl, hq, trivial⟩
  have hE : 0x2600000 + guardBits g + d.toNat * 16384 + a.toNat * 256 = packed [(2, 0), (6, 0), (6, a.toNat), (6, d.toNat), (6, 38), (6, q)] := by
    simp only [packed]
    clear hF hw; omega
  have hW := packed_word _ rfl hF hE hw
  clear hw
  have e0 := fld_eq (lo := 14) d hW (packed_at _ hF 3)
  have e1 := fld_eq (lo := 8) a hW (packed_at _ hF 2)
  obtain ⟨g0, g1⟩ := guard_packed g h hq eq [(2, 0), (6, 0), (6, a.toNat), (6, d.toNat), (6, 38)] rfl ⟨of_decide_eq_true rfl, of_decide_eq_true rfl, a.isLt, d.isLt, of_decide_eq_true rfl, hq, trivial⟩ hW
  have z4 := nz_false (lo := 2) (len := 6) hW (packed_at _ hF 1)
  have hr : vectorRow w = some { instr := some (.vsqrt (guardOf w) (fld w 14 6) (fld w 8 6)), unused := guardBad w || nz w 2 6, vregs := [fld w 14 6, fld w 8 6] } := by
    unfold vectorRow
    rw [fld_num (lo := 20) (len := 6) 38 hW (packed_at _ hF 4)]
    rw [fld_num (lo := 0) (len := 2) 0 hW (packed_at _ hF 0)]
    first | done | rfl
  change decodeWord .vec w = _
  refine decode_ok (p := .vec) (hW.trans hE.symm) (by omega) hr ?_
  refine check_ok rfl rfl ?_ rfl rfl rfl ?_
  · simp [e0, e1, g0, g1, z4]
  · simp only [e0, e1, g0, g1, z4]

theorem vrsum (g : Guard) (d : BitVec 6) (a : BitVec 6) : Statement (.vrsum g d a) := by
  intro h w hw
  change (g.wf) = true at h
  obtain ⟨q, hq, eq⟩ := guardBits_mul g
  have hF : Fits [(2, 0), (6, 0), (6, a.toNat), (6, d.toNat), (6, 40), (6, q)] := ⟨of_decide_eq_true rfl, of_decide_eq_true rfl, a.isLt, d.isLt, of_decide_eq_true rfl, hq, trivial⟩
  have hE : 0x2800000 + guardBits g + d.toNat * 16384 + a.toNat * 256 = packed [(2, 0), (6, 0), (6, a.toNat), (6, d.toNat), (6, 40), (6, q)] := by
    simp only [packed]
    clear hF hw; omega
  have hW := packed_word _ rfl hF hE hw
  clear hw
  have e0 := fld_eq (lo := 14) d hW (packed_at _ hF 3)
  have e1 := fld_eq (lo := 8) a hW (packed_at _ hF 2)
  obtain ⟨g0, g1⟩ := guard_packed g h hq eq [(2, 0), (6, 0), (6, a.toNat), (6, d.toNat), (6, 40)] rfl ⟨of_decide_eq_true rfl, of_decide_eq_true rfl, a.isLt, d.isLt, of_decide_eq_true rfl, hq, trivial⟩ hW
  have z4 := nz_false (lo := 2) (len := 6) hW (packed_at _ hF 1)
  have hr : vectorRow w = some { instr := some (.vrsum (guardOf w) (fld w 14 6) (fld w 8 6)), unused := guardBad w || nz w 2 6, vregs := [fld w 14 6, fld w 8 6] } := by
    unfold vectorRow
    rw [fld_num (lo := 20) (len := 6) 40 hW (packed_at _ hF 4)]
    rw [fld_num (lo := 0) (len := 2) 0 hW (packed_at _ hF 0)]
    first | done | rfl
  change decodeWord .vec w = _
  refine decode_ok (p := .vec) (hW.trans hE.symm) (by omega) hr ?_
  refine check_ok rfl rfl ?_ rfl rfl rfl ?_
  · simp [e0, e1, g0, g1, z4]
  · simp only [e0, e1, g0, g1, z4]

theorem vrmax (g : Guard) (d : BitVec 6) (a : BitVec 6) : Statement (.vrmax g d a) := by
  intro h w hw
  change (g.wf) = true at h
  obtain ⟨q, hq, eq⟩ := guardBits_mul g
  have hF : Fits [(2, 0), (6, 0), (6, a.toNat), (6, d.toNat), (6, 41), (6, q)] := ⟨of_decide_eq_true rfl, of_decide_eq_true rfl, a.isLt, d.isLt, of_decide_eq_true rfl, hq, trivial⟩
  have hE : 0x2900000 + guardBits g + d.toNat * 16384 + a.toNat * 256 = packed [(2, 0), (6, 0), (6, a.toNat), (6, d.toNat), (6, 41), (6, q)] := by
    simp only [packed]
    clear hF hw; omega
  have hW := packed_word _ rfl hF hE hw
  clear hw
  have e0 := fld_eq (lo := 14) d hW (packed_at _ hF 3)
  have e1 := fld_eq (lo := 8) a hW (packed_at _ hF 2)
  obtain ⟨g0, g1⟩ := guard_packed g h hq eq [(2, 0), (6, 0), (6, a.toNat), (6, d.toNat), (6, 41)] rfl ⟨of_decide_eq_true rfl, of_decide_eq_true rfl, a.isLt, d.isLt, of_decide_eq_true rfl, hq, trivial⟩ hW
  have z4 := nz_false (lo := 2) (len := 6) hW (packed_at _ hF 1)
  have hr : vectorRow w = some { instr := some (.vrmax (guardOf w) (fld w 14 6) (fld w 8 6)), unused := guardBad w || nz w 2 6, vregs := [fld w 14 6, fld w 8 6] } := by
    unfold vectorRow
    rw [fld_num (lo := 20) (len := 6) 41 hW (packed_at _ hF 4)]
    rw [fld_num (lo := 0) (len := 2) 0 hW (packed_at _ hF 0)]
    first | done | rfl
  change decodeWord .vec w = _
  refine decode_ok (p := .vec) (hW.trans hE.symm) (by omega) hr ?_
  refine check_ok rfl rfl ?_ rfl rfl rfl ?_
  · simp [e0, e1, g0, g1, z4]
  · simp only [e0, e1, g0, g1, z4]

theorem vrmin (g : Guard) (d : BitVec 6) (a : BitVec 6) : Statement (.vrmin g d a) := by
  intro h w hw
  change (g.wf) = true at h
  obtain ⟨q, hq, eq⟩ := guardBits_mul g
  have hF : Fits [(2, 0), (6, 0), (6, a.toNat), (6, d.toNat), (6, 42), (6, q)] := ⟨of_decide_eq_true rfl, of_decide_eq_true rfl, a.isLt, d.isLt, of_decide_eq_true rfl, hq, trivial⟩
  have hE : 0x2a00000 + guardBits g + d.toNat * 16384 + a.toNat * 256 = packed [(2, 0), (6, 0), (6, a.toNat), (6, d.toNat), (6, 42), (6, q)] := by
    simp only [packed]
    clear hF hw; omega
  have hW := packed_word _ rfl hF hE hw
  clear hw
  have e0 := fld_eq (lo := 14) d hW (packed_at _ hF 3)
  have e1 := fld_eq (lo := 8) a hW (packed_at _ hF 2)
  obtain ⟨g0, g1⟩ := guard_packed g h hq eq [(2, 0), (6, 0), (6, a.toNat), (6, d.toNat), (6, 42)] rfl ⟨of_decide_eq_true rfl, of_decide_eq_true rfl, a.isLt, d.isLt, of_decide_eq_true rfl, hq, trivial⟩ hW
  have z4 := nz_false (lo := 2) (len := 6) hW (packed_at _ hF 1)
  have hr : vectorRow w = some { instr := some (.vrmin (guardOf w) (fld w 14 6) (fld w 8 6)), unused := guardBad w || nz w 2 6, vregs := [fld w 14 6, fld w 8 6] } := by
    unfold vectorRow
    rw [fld_num (lo := 20) (len := 6) 42 hW (packed_at _ hF 4)]
    rw [fld_num (lo := 0) (len := 2) 0 hW (packed_at _ hF 0)]
    first | done | rfl
  change decodeWord .vec w = _
  refine decode_ok (p := .vec) (hW.trans hE.symm) (by omega) hr ?_
  refine check_ok rfl rfl ?_ rfl rfl rfl ?_
  · simp [e0, e1, g0, g1, z4]
  · simp only [e0, e1, g0, g1, z4]

theorem vscan (g : Guard) (d : BitVec 6) (a : BitVec 6) : Statement (.vscan g d a) := by
  intro h w hw
  change (g.wf) = true at h
  obtain ⟨q, hq, eq⟩ := guardBits_mul g
  have hF : Fits [(2, 0), (6, 0), (6, a.toNat), (6, d.toNat), (6, 43), (6, q)] := ⟨of_decide_eq_true rfl, of_decide_eq_true rfl, a.isLt, d.isLt, of_decide_eq_true rfl, hq, trivial⟩
  have hE : 0x2b00000 + guardBits g + d.toNat * 16384 + a.toNat * 256 = packed [(2, 0), (6, 0), (6, a.toNat), (6, d.toNat), (6, 43), (6, q)] := by
    simp only [packed]
    clear hF hw; omega
  have hW := packed_word _ rfl hF hE hw
  clear hw
  have e0 := fld_eq (lo := 14) d hW (packed_at _ hF 3)
  have e1 := fld_eq (lo := 8) a hW (packed_at _ hF 2)
  obtain ⟨g0, g1⟩ := guard_packed g h hq eq [(2, 0), (6, 0), (6, a.toNat), (6, d.toNat), (6, 43)] rfl ⟨of_decide_eq_true rfl, of_decide_eq_true rfl, a.isLt, d.isLt, of_decide_eq_true rfl, hq, trivial⟩ hW
  have z4 := nz_false (lo := 2) (len := 6) hW (packed_at _ hF 1)
  have hr : vectorRow w = some { instr := some (.vscan (guardOf w) (fld w 14 6) (fld w 8 6)), unused := guardBad w || nz w 2 6, vregs := [fld w 14 6, fld w 8 6] } := by
    unfold vectorRow
    rw [fld_num (lo := 20) (len := 6) 43 hW (packed_at _ hF 4)]
    rw [fld_num (lo := 0) (len := 2) 0 hW (packed_at _ hF 0)]
    first | done | rfl
  change decodeWord .vec w = _
  refine decode_ok (p := .vec) (hW.trans hE.symm) (by omega) hr ?_
  refine check_ok rfl rfl ?_ rfl rfl rfl ?_
  · simp [e0, e1, g0, g1, z4]
  · simp only [e0, e1, g0, g1, z4]

theorem vscanExcl (g : Guard) (d : BitVec 6) (a : BitVec 6) : Statement (.vscanExcl g d a) := by
  intro h w hw
  change (g.wf) = true at h
  obtain ⟨q, hq, eq⟩ := guardBits_mul g
  have hF : Fits [(2, 3), (6, 0), (6, a.toNat), (6, d.toNat), (6, 43), (6, q)] := ⟨of_decide_eq_true rfl, of_decide_eq_true rfl, a.isLt, d.isLt, of_decide_eq_true rfl, hq, trivial⟩
  have hE : 0x2b00003 + guardBits g + d.toNat * 16384 + a.toNat * 256 = packed [(2, 3), (6, 0), (6, a.toNat), (6, d.toNat), (6, 43), (6, q)] := by
    simp only [packed]
    clear hF hw; omega
  have hW := packed_word _ rfl hF hE hw
  clear hw
  have e0 := fld_eq (lo := 14) d hW (packed_at _ hF 3)
  have e1 := fld_eq (lo := 8) a hW (packed_at _ hF 2)
  obtain ⟨g0, g1⟩ := guard_packed g h hq eq [(2, 3), (6, 0), (6, a.toNat), (6, d.toNat), (6, 43)] rfl ⟨of_decide_eq_true rfl, of_decide_eq_true rfl, a.isLt, d.isLt, of_decide_eq_true rfl, hq, trivial⟩ hW
  have z4 := nz_false (lo := 2) (len := 6) hW (packed_at _ hF 1)
  have hr : vectorRow w = some { instr := some (.vscanExcl (guardOf w) (fld w 14 6) (fld w 8 6)), unused := guardBad w || nz w 2 6, vregs := [fld w 14 6, fld w 8 6] } := by
    unfold vectorRow
    rw [fld_num (lo := 20) (len := 6) 43 hW (packed_at _ hF 4)]
    rw [fld_num (lo := 0) (len := 2) 3 hW (packed_at _ hF 0)]
    first | done | rfl
  change decodeWord .vec w = _
  refine decode_ok (p := .vec) (hW.trans hE.symm) (by omega) hr ?_
  refine check_ok rfl rfl ?_ rfl rfl rfl ?_
  · simp [e0, e1, g0, g1, z4]
  · simp only [e0, e1, g0, g1, z4]

theorem vperm (g : Guard) (d : BitVec 6) (a : BitVec 6) (b : BitVec 6) : Statement (.vperm g d a b) := by
  intro h w hw
  change (g.wf) = true at h
  obtain ⟨q, hq, eq⟩ := guardBits_mul g
  have hF : Fits [(2, 0), (6, b.toNat), (6, a.toNat), (6, d.toNat), (6, 44), (6, q)] := ⟨of_decide_eq_true rfl, b.isLt, a.isLt, d.isLt, of_decide_eq_true rfl, hq, trivial⟩
  have hE : 0x2c00000 + guardBits g + d.toNat * 16384 + a.toNat * 256 + b.toNat * 4 = packed [(2, 0), (6, b.toNat), (6, a.toNat), (6, d.toNat), (6, 44), (6, q)] := by
    simp only [packed]
    clear hF hw; omega
  have hW := packed_word _ rfl hF hE hw
  clear hw
  have e0 := fld_eq (lo := 14) d hW (packed_at _ hF 3)
  have e1 := fld_eq (lo := 8) a hW (packed_at _ hF 2)
  have e2 := fld_eq (lo := 2) b hW (packed_at _ hF 1)
  obtain ⟨g0, g1⟩ := guard_packed g h hq eq [(2, 0), (6, b.toNat), (6, a.toNat), (6, d.toNat), (6, 44)] rfl ⟨of_decide_eq_true rfl, b.isLt, a.isLt, d.isLt, of_decide_eq_true rfl, hq, trivial⟩ hW
  have hr : vectorRow w = some { instr := some (.vperm (guardOf w) (fld w 14 6) (fld w 8 6) (fld w 2 6)), unused := guardBad w, vregs := [fld w 14 6, fld w 8 6, fld w 2 6] } := by
    unfold vectorRow
    rw [fld_num (lo := 20) (len := 6) 44 hW (packed_at _ hF 4)]
    rw [fld_num (lo := 0) (len := 2) 0 hW (packed_at _ hF 0)]
    first | done | rfl
  change decodeWord .vec w = _
  refine decode_ok (p := .vec) (hW.trans hE.symm) (by omega) hr ?_
  refine check_ok rfl rfl ?_ rfl rfl rfl ?_
  · simp [e0, e1, e2, g0, g1]
  · simp only [e0, e1, e2, g0, g1]

theorem vslideK (g : Guard) (d : BitVec 6) (a : BitVec 6) (k : BitVec 3) : Statement (.vslideK g d a k) := by
  intro h w hw
  change (g.wf) = true at h
  obtain ⟨q, hq, eq⟩ := guardBits_mul g
  have hF : Fits [(2, 1), (3, k.toNat), (3, 0), (6, a.toNat), (6, d.toNat), (6, 45), (6, q)] := ⟨of_decide_eq_true rfl, k.isLt, of_decide_eq_true rfl, a.isLt, d.isLt, of_decide_eq_true rfl, hq, trivial⟩
  have hE : 0x2d00001 + guardBits g + d.toNat * 16384 + a.toNat * 256 + k.toNat * 4 = packed [(2, 1), (3, k.toNat), (3, 0), (6, a.toNat), (6, d.toNat), (6, 45), (6, q)] := by
    simp only [packed]
    clear hF hw; omega
  have hW := packed_word _ rfl hF hE hw
  clear hw
  have e0 := fld_eq (lo := 14) d hW (packed_at _ hF 4)
  have e1 := fld_eq (lo := 8) a hW (packed_at _ hF 3)
  have e2 := fld_eq (lo := 2) k hW (packed_at _ hF 1)
  obtain ⟨g0, g1⟩ := guard_packed g h hq eq [(2, 1), (3, k.toNat), (3, 0), (6, a.toNat), (6, d.toNat), (6, 45)] rfl ⟨of_decide_eq_true rfl, k.isLt, of_decide_eq_true rfl, a.isLt, d.isLt, of_decide_eq_true rfl, hq, trivial⟩ hW
  have z5 := nz_false (lo := 5) (len := 3) hW (packed_at _ hF 2)
  have hr : vectorRow w = some { instr := some (.vslideK (guardOf w) (fld w 14 6) (fld w 8 6) (fld w 2 3)), unused := guardBad w || nz w 5 3, vregs := [fld w 14 6, fld w 8 6] } := by
    unfold vectorRow
    rw [fld_num (lo := 20) (len := 6) 45 hW (packed_at _ hF 5)]
    rw [fld_num (lo := 0) (len := 2) 1 hW (packed_at _ hF 0)]
    first | done | rfl
  change decodeWord .vec w = _
  refine decode_ok (p := .vec) (hW.trans hE.symm) (by omega) hr ?_
  refine check_ok rfl rfl ?_ rfl rfl rfl ?_
  · simp [e0, e1, e2, g0, g1, z5]
  · simp only [e0, e1, e2, g0, g1, z5]

theorem vslideI (g : Guard) (d : BitVec 6) (a : BitVec 6) (im : BitVec 6) : Statement (.vslideI g d a im) := by
  intro h w hw
  change (g.wf) = true at h
  obtain ⟨q, hq, eq⟩ := guardBits_mul g
  have hF : Fits [(2, 2), (6, im.toNat), (6, a.toNat), (6, d.toNat), (6, 45), (6, q)] := ⟨of_decide_eq_true rfl, im.isLt, a.isLt, d.isLt, of_decide_eq_true rfl, hq, trivial⟩
  have hE : 0x2d00002 + guardBits g + d.toNat * 16384 + a.toNat * 256 + im.toNat * 4 = packed [(2, 2), (6, im.toNat), (6, a.toNat), (6, d.toNat), (6, 45), (6, q)] := by
    simp only [packed]
    clear hF hw; omega
  have hW := packed_word _ rfl hF hE hw
  clear hw
  have e0 := fld_eq (lo := 14) d hW (packed_at _ hF 3)
  have e1 := fld_eq (lo := 8) a hW (packed_at _ hF 2)
  have e2 := fld_eq (lo := 2) im hW (packed_at _ hF 1)
  obtain ⟨g0, g1⟩ := guard_packed g h hq eq [(2, 2), (6, im.toNat), (6, a.toNat), (6, d.toNat), (6, 45)] rfl ⟨of_decide_eq_true rfl, im.isLt, a.isLt, d.isLt, of_decide_eq_true rfl, hq, trivial⟩ hW
  have hr : vectorRow w = some { instr := some (.vslideI (guardOf w) (fld w 14 6) (fld w 8 6) (fld w 2 6)), unused := guardBad w, vregs := [fld w 14 6, fld w 8 6] } := by
    unfold vectorRow
    rw [fld_num (lo := 20) (len := 6) 45 hW (packed_at _ hF 4)]
    rw [fld_num (lo := 0) (len := 2) 2 hW (packed_at _ hF 0)]
    first | done | rfl
  change decodeWord .vec w = _
  refine decode_ok (p := .vec) (hW.trans hE.symm) (by omega) hr ?_
  refine check_ok rfl rfl ?_ rfl rfl rfl ?_
  · simp [e0, e1, e2, g0, g1]
  · simp only [e0, e1, e2, g0, g1]

theorem vbcastK (g : Guard) (d : BitVec 6) (a : BitVec 6) (k : BitVec 3) : Statement (.vbcastK g d a k) := by
  intro h w hw
  change (g.wf) = true at h
  obtain ⟨q, hq, eq⟩ := guardBits_mul g
  have hF : Fits [(2, 1), (3, k.toNat), (3, 0), (6, a.toNat), (6, d.toNat), (6, 46), (6, q)] := ⟨of_decide_eq_true rfl, k.isLt, of_decide_eq_true rfl, a.isLt, d.isLt, of_decide_eq_true rfl, hq, trivial⟩
  have hE : 0x2e00001 + guardBits g + d.toNat * 16384 + a.toNat * 256 + k.toNat * 4 = packed [(2, 1), (3, k.toNat), (3, 0), (6, a.toNat), (6, d.toNat), (6, 46), (6, q)] := by
    simp only [packed]
    clear hF hw; omega
  have hW := packed_word _ rfl hF hE hw
  clear hw
  have e0 := fld_eq (lo := 14) d hW (packed_at _ hF 4)
  have e1 := fld_eq (lo := 8) a hW (packed_at _ hF 3)
  have e2 := fld_eq (lo := 2) k hW (packed_at _ hF 1)
  obtain ⟨g0, g1⟩ := guard_packed g h hq eq [(2, 1), (3, k.toNat), (3, 0), (6, a.toNat), (6, d.toNat), (6, 46)] rfl ⟨of_decide_eq_true rfl, k.isLt, of_decide_eq_true rfl, a.isLt, d.isLt, of_decide_eq_true rfl, hq, trivial⟩ hW
  have z5 := nz_false (lo := 5) (len := 3) hW (packed_at _ hF 2)
  have hr : vectorRow w = some { instr := some (.vbcastK (guardOf w) (fld w 14 6) (fld w 8 6) (fld w 2 3)), unused := guardBad w || nz w 5 3, vregs := [fld w 14 6, fld w 8 6] } := by
    unfold vectorRow
    rw [fld_num (lo := 20) (len := 6) 46 hW (packed_at _ hF 5)]
    rw [fld_num (lo := 0) (len := 2) 1 hW (packed_at _ hF 0)]
    first | done | rfl
  change decodeWord .vec w = _
  refine decode_ok (p := .vec) (hW.trans hE.symm) (by omega) hr ?_
  refine check_ok rfl rfl ?_ rfl rfl rfl ?_
  · simp [e0, e1, e2, g0, g1, z5]
  · simp only [e0, e1, e2, g0, g1, z5]

theorem vbcastI (g : Guard) (d : BitVec 6) (a : BitVec 6) (im : BitVec 6) : Statement (.vbcastI g d a im) := by
  intro h w hw
  change (g.wf) = true at h
  obtain ⟨q, hq, eq⟩ := guardBits_mul g
  have hF : Fits [(2, 2), (6, im.toNat), (6, a.toNat), (6, d.toNat), (6, 46), (6, q)] := ⟨of_decide_eq_true rfl, im.isLt, a.isLt, d.isLt, of_decide_eq_true rfl, hq, trivial⟩
  have hE : 0x2e00002 + guardBits g + d.toNat * 16384 + a.toNat * 256 + im.toNat * 4 = packed [(2, 2), (6, im.toNat), (6, a.toNat), (6, d.toNat), (6, 46), (6, q)] := by
    simp only [packed]
    clear hF hw; omega
  have hW := packed_word _ rfl hF hE hw
  clear hw
  have e0 := fld_eq (lo := 14) d hW (packed_at _ hF 3)
  have e1 := fld_eq (lo := 8) a hW (packed_at _ hF 2)
  have e2 := fld_eq (lo := 2) im hW (packed_at _ hF 1)
  obtain ⟨g0, g1⟩ := guard_packed g h hq eq [(2, 2), (6, im.toNat), (6, a.toNat), (6, d.toNat), (6, 46)] rfl ⟨of_decide_eq_true rfl, im.isLt, a.isLt, d.isLt, of_decide_eq_true rfl, hq, trivial⟩ hW
  have hr : vectorRow w = some { instr := some (.vbcastI (guardOf w) (fld w 14 6) (fld w 8 6) (fld w 2 6)), unused := guardBad w, vregs := [fld w 14 6, fld w 8 6] } := by
    unfold vectorRow
    rw [fld_num (lo := 20) (len := 6) 46 hW (packed_at _ hF 4)]
    rw [fld_num (lo := 0) (len := 2) 2 hW (packed_at _ hF 0)]
    first | done | rfl
  change decodeWord .vec w = _
  refine decode_ok (p := .vec) (hW.trans hE.symm) (by omega) hr ?_
  refine check_ok rfl rfl ?_ rfl rfl rfl ?_
  · simp [e0, e1, e2, g0, g1]
  · simp only [e0, e1, e2, g0, g1]

theorem vzip (g : Guard) (d : BitVec 6) (a : BitVec 6) (b : BitVec 6) : Statement (.vzip g d a b) := by
  intro h w hw
  change (g.wf && d.toNat % 2 == 0) = true at h
  try simp at h
  obtain ⟨q, hq, eq⟩ := guardBits_mul g
  have hF : Fits [(2, 0), (6, b.toNat), (6, a.toNat), (6, d.toNat), (6, 47), (6, q)] := ⟨of_decide_eq_true rfl, b.isLt, a.isLt, d.isLt, of_decide_eq_true rfl, hq, trivial⟩
  have hE : 0x2f00000 + guardBits g + d.toNat * 16384 + a.toNat * 256 + b.toNat * 4 = packed [(2, 0), (6, b.toNat), (6, a.toNat), (6, d.toNat), (6, 47), (6, q)] := by
    simp only [packed]
    clear hF hw; omega
  have hW := packed_word _ rfl hF hE hw
  clear hw
  have e0 := fld_eq (lo := 14) d hW (packed_at _ hF 3)
  have e1 := fld_eq (lo := 8) a hW (packed_at _ hF 2)
  have e2 := fld_eq (lo := 2) b hW (packed_at _ hF 1)
  obtain ⟨g0, g1⟩ := guard_packed g h.1 hq eq [(2, 0), (6, b.toNat), (6, a.toNat), (6, d.toNat), (6, 47)] rfl ⟨of_decide_eq_true rfl, b.isLt, a.isLt, d.isLt, of_decide_eq_true rfl, hq, trivial⟩ hW
  have hN := hW.trans hE.symm
  have hb0 := d.isLt
  have hb1 := a.isLt
  have hb2 := b.isLt
  have z5 := nz_false (lo := 14) (len := 1) hN (by first | omega | (simp only [BitVec.toNat_eq] at h; simp at h; omega))
  have hr : vectorRow w = some { instr := some (.vzip (guardOf w) (fld w 14 6) (fld w 8 6) (fld w 2 6)), unused := guardBad w, vregs := [fld w 14 6, fld w 8 6, fld w 2 6], misaligned := nz w 14 1 } := by
    unfold vectorRow
    rw [fld_num (lo := 20) (len := 6) 47 hW (packed_at _ hF 4)]
    rw [fld_num (lo := 0) (len := 2) 0 hW (packed_at _ hF 0)]
    first | done | rfl
  change decodeWord .vec w = _
  refine decode_ok (p := .vec) (hW.trans hE.symm) (by omega) hr ?_
  refine check_ok rfl rfl ?_ rfl ?_ rfl ?_
  · simp [e0, e1, e2, g0, g1, z5]
  · simp [e0, e1, e2, g0, g1, z5]
  · simp only [e0, e1, e2, g0, g1, z5]

theorem vunzip (g : Guard) (d : BitVec 6) (a : BitVec 6) : Statement (.vunzip g d a) := by
  intro h w hw
  change (g.wf && d.toNat % 2 == 0 && a.toNat % 2 == 0) = true at h
  try simp at h
  obtain ⟨q, hq, eq⟩ := guardBits_mul g
  have hF : Fits [(2, 0), (6, 0), (6, a.toNat), (6, d.toNat), (6, 48), (6, q)] := ⟨of_decide_eq_true rfl, of_decide_eq_true rfl, a.isLt, d.isLt, of_decide_eq_true rfl, hq, trivial⟩
  have hE : 0x3000000 + guardBits g + d.toNat * 16384 + a.toNat * 256 = packed [(2, 0), (6, 0), (6, a.toNat), (6, d.toNat), (6, 48), (6, q)] := by
    simp only [packed]
    clear hF hw; omega
  have hW := packed_word _ rfl hF hE hw
  clear hw
  have e0 := fld_eq (lo := 14) d hW (packed_at _ hF 3)
  have e1 := fld_eq (lo := 8) a hW (packed_at _ hF 2)
  obtain ⟨g0, g1⟩ := guard_packed g h.1.1 hq eq [(2, 0), (6, 0), (6, a.toNat), (6, d.toNat), (6, 48)] rfl ⟨of_decide_eq_true rfl, of_decide_eq_true rfl, a.isLt, d.isLt, of_decide_eq_true rfl, hq, trivial⟩ hW
  have hN := hW.trans hE.symm
  have hb0 := d.isLt
  have hb1 := a.isLt
  have z4 := nz_false (lo := 14) (len := 1) hN (by first | omega | (simp only [BitVec.toNat_eq] at h; simp at h; omega))
  have z5 := nz_false (lo := 2) (len := 6) hW (packed_at _ hF 1)
  have z6 := nz_false (lo := 8) (len := 1) hN (by first | omega | (simp only [BitVec.toNat_eq] at h; simp at h; omega))
  have hr : vectorRow w = some { instr := some (.vunzip (guardOf w) (fld w 14 6) (fld w 8 6)), unused := guardBad w || nz w 2 6, vregs := [fld w 14 6, fld w 8 6], misaligned := nz w 14 1 || nz w 8 1 } := by
    unfold vectorRow
    rw [fld_num (lo := 20) (len := 6) 48 hW (packed_at _ hF 4)]
    rw [fld_num (lo := 0) (len := 2) 0 hW (packed_at _ hF 0)]
    first | done | rfl
  change decodeWord .vec w = _
  refine decode_ok (p := .vec) (hW.trans hE.symm) (by omega) hr ?_
  refine check_ok rfl rfl ?_ rfl ?_ rfl ?_
  · simp [e0, e1, g0, g1, z4, z5, z6]
  · simp [e0, e1, g0, g1, z4, z5, z6]
  · simp only [e0, e1, g0, g1, z4, z5, z6]

theorem pand (g : Guard) (d : BitVec 4) (a : BitVec 4) (b : BitVec 4) : Statement (.pand g d a b) := by
  intro h w hw
  change (g.wf) = true at h
  obtain ⟨q, hq, eq⟩ := guardBits_mul g
  have hF : Fits [(2, 0), (4, b.toNat), (2, 0), (4, a.toNat), (2, 0), (4, d.toNat), (2, 0), (6, 49), (6, q)] := ⟨of_decide_eq_true rfl, b.isLt, of_decide_eq_true rfl, a.isLt, of_decide_eq_true rfl, d.isLt, of_decide_eq_true rfl, of_decide_eq_true rfl, hq, trivial⟩
  have hE : 0x3100000 + guardBits g + d.toNat * 16384 + a.toNat * 256 + b.toNat * 4 = packed [(2, 0), (4, b.toNat), (2, 0), (4, a.toNat), (2, 0), (4, d.toNat), (2, 0), (6, 49), (6, q)] := by
    simp only [packed]
    clear hF hw; omega
  have hW := packed_word _ rfl hF hE hw
  clear hw
  have e0 := fld_eq (lo := 14) d hW (packed_at _ hF 5)
  have e1 := fld_eq (lo := 8) a hW (packed_at _ hF 3)
  have e2 := fld_eq (lo := 2) b hW (packed_at _ hF 1)
  obtain ⟨g0, g1⟩ := guard_packed g h hq eq [(2, 0), (4, b.toNat), (2, 0), (4, a.toNat), (2, 0), (4, d.toNat), (2, 0), (6, 49)] rfl ⟨of_decide_eq_true rfl, b.isLt, of_decide_eq_true rfl, a.isLt, of_decide_eq_true rfl, d.isLt, of_decide_eq_true rfl, of_decide_eq_true rfl, hq, trivial⟩ hW
  have z5 := nz_false (lo := 12) (len := 2) hW (packed_at _ hF 4)
  have z6 := nz_false (lo := 18) (len := 2) hW (packed_at _ hF 6)
  have z7 := nz_false (lo := 6) (len := 2) hW (packed_at _ hF 2)
  have hr : vectorRow w = some { instr := some (.pand (guardOf w) (fld w 14 4) (fld w 8 4) (fld w 2 4)), unused := guardBad w, range := nz w 18 2 || nz w 12 2 || nz w 6 2 } := by
    unfold vectorRow
    rw [fld_num (lo := 20) (len := 6) 49 hW (packed_at _ hF 7)]
    rw [fld_num (lo := 0) (len := 2) 0 hW (packed_at _ hF 0)]
    first | done | rfl
  change decodeWord .vec w = _
  refine decode_ok (p := .vec) (hW.trans hE.symm) (by omega) hr ?_
  refine check_ok rfl rfl ?_ ?_ rfl rfl ?_
  · simp [e0, e1, e2, g0, g1, z5, z6, z7]
  · simp [e0, e1, e2, g0, g1, z5, z6, z7]
  · simp only [e0, e1, e2, g0, g1, z5, z6, z7]

theorem por (g : Guard) (d : BitVec 4) (a : BitVec 4) (b : BitVec 4) : Statement (.por g d a b) := by
  intro h w hw
  change (g.wf) = true at h
  obtain ⟨q, hq, eq⟩ := guardBits_mul g
  have hF : Fits [(2, 0), (4, b.toNat), (2, 0), (4, a.toNat), (2, 0), (4, d.toNat), (2, 0), (6, 50), (6, q)] := ⟨of_decide_eq_true rfl, b.isLt, of_decide_eq_true rfl, a.isLt, of_decide_eq_true rfl, d.isLt, of_decide_eq_true rfl, of_decide_eq_true rfl, hq, trivial⟩
  have hE : 0x3200000 + guardBits g + d.toNat * 16384 + a.toNat * 256 + b.toNat * 4 = packed [(2, 0), (4, b.toNat), (2, 0), (4, a.toNat), (2, 0), (4, d.toNat), (2, 0), (6, 50), (6, q)] := by
    simp only [packed]
    clear hF hw; omega
  have hW := packed_word _ rfl hF hE hw
  clear hw
  have e0 := fld_eq (lo := 14) d hW (packed_at _ hF 5)
  have e1 := fld_eq (lo := 8) a hW (packed_at _ hF 3)
  have e2 := fld_eq (lo := 2) b hW (packed_at _ hF 1)
  obtain ⟨g0, g1⟩ := guard_packed g h hq eq [(2, 0), (4, b.toNat), (2, 0), (4, a.toNat), (2, 0), (4, d.toNat), (2, 0), (6, 50)] rfl ⟨of_decide_eq_true rfl, b.isLt, of_decide_eq_true rfl, a.isLt, of_decide_eq_true rfl, d.isLt, of_decide_eq_true rfl, of_decide_eq_true rfl, hq, trivial⟩ hW
  have z5 := nz_false (lo := 12) (len := 2) hW (packed_at _ hF 4)
  have z6 := nz_false (lo := 18) (len := 2) hW (packed_at _ hF 6)
  have z7 := nz_false (lo := 6) (len := 2) hW (packed_at _ hF 2)
  have hr : vectorRow w = some { instr := some (.por (guardOf w) (fld w 14 4) (fld w 8 4) (fld w 2 4)), unused := guardBad w, range := nz w 18 2 || nz w 12 2 || nz w 6 2 } := by
    unfold vectorRow
    rw [fld_num (lo := 20) (len := 6) 50 hW (packed_at _ hF 7)]
    rw [fld_num (lo := 0) (len := 2) 0 hW (packed_at _ hF 0)]
    first | done | rfl
  change decodeWord .vec w = _
  refine decode_ok (p := .vec) (hW.trans hE.symm) (by omega) hr ?_
  refine check_ok rfl rfl ?_ ?_ rfl rfl ?_
  · simp [e0, e1, e2, g0, g1, z5, z6, z7]
  · simp [e0, e1, e2, g0, g1, z5, z6, z7]
  · simp only [e0, e1, e2, g0, g1, z5, z6, z7]

theorem pxor (g : Guard) (d : BitVec 4) (a : BitVec 4) (b : BitVec 4) : Statement (.pxor g d a b) := by
  intro h w hw
  change (g.wf) = true at h
  obtain ⟨q, hq, eq⟩ := guardBits_mul g
  have hF : Fits [(2, 0), (4, b.toNat), (2, 0), (4, a.toNat), (2, 0), (4, d.toNat), (2, 0), (6, 51), (6, q)] := ⟨of_decide_eq_true rfl, b.isLt, of_decide_eq_true rfl, a.isLt, of_decide_eq_true rfl, d.isLt, of_decide_eq_true rfl, of_decide_eq_true rfl, hq, trivial⟩
  have hE : 0x3300000 + guardBits g + d.toNat * 16384 + a.toNat * 256 + b.toNat * 4 = packed [(2, 0), (4, b.toNat), (2, 0), (4, a.toNat), (2, 0), (4, d.toNat), (2, 0), (6, 51), (6, q)] := by
    simp only [packed]
    clear hF hw; omega
  have hW := packed_word _ rfl hF hE hw
  clear hw
  have e0 := fld_eq (lo := 14) d hW (packed_at _ hF 5)
  have e1 := fld_eq (lo := 8) a hW (packed_at _ hF 3)
  have e2 := fld_eq (lo := 2) b hW (packed_at _ hF 1)
  obtain ⟨g0, g1⟩ := guard_packed g h hq eq [(2, 0), (4, b.toNat), (2, 0), (4, a.toNat), (2, 0), (4, d.toNat), (2, 0), (6, 51)] rfl ⟨of_decide_eq_true rfl, b.isLt, of_decide_eq_true rfl, a.isLt, of_decide_eq_true rfl, d.isLt, of_decide_eq_true rfl, of_decide_eq_true rfl, hq, trivial⟩ hW
  have z5 := nz_false (lo := 12) (len := 2) hW (packed_at _ hF 4)
  have z6 := nz_false (lo := 18) (len := 2) hW (packed_at _ hF 6)
  have z7 := nz_false (lo := 6) (len := 2) hW (packed_at _ hF 2)
  have hr : vectorRow w = some { instr := some (.pxor (guardOf w) (fld w 14 4) (fld w 8 4) (fld w 2 4)), unused := guardBad w, range := nz w 18 2 || nz w 12 2 || nz w 6 2 } := by
    unfold vectorRow
    rw [fld_num (lo := 20) (len := 6) 51 hW (packed_at _ hF 7)]
    rw [fld_num (lo := 0) (len := 2) 0 hW (packed_at _ hF 0)]
    first | done | rfl
  change decodeWord .vec w = _
  refine decode_ok (p := .vec) (hW.trans hE.symm) (by omega) hr ?_
  refine check_ok rfl rfl ?_ ?_ rfl rfl ?_
  · simp [e0, e1, e2, g0, g1, z5, z6, z7]
  · simp [e0, e1, e2, g0, g1, z5, z6, z7]
  · simp only [e0, e1, e2, g0, g1, z5, z6, z7]

theorem pnot (g : Guard) (d : BitVec 4) (a : BitVec 4) : Statement (.pnot g d a) := by
  intro h w hw
  change (g.wf) = true at h
  obtain ⟨q, hq, eq⟩ := guardBits_mul g
  have hF : Fits [(2, 0), (6, 0), (4, a.toNat), (2, 0), (4, d.toNat), (2, 0), (6, 52), (6, q)] := ⟨of_decide_eq_true rfl, of_decide_eq_true rfl, a.isLt, of_decide_eq_true rfl, d.isLt, of_decide_eq_true rfl, of_decide_eq_true rfl, hq, trivial⟩
  have hE : 0x3400000 + guardBits g + d.toNat * 16384 + a.toNat * 256 = packed [(2, 0), (6, 0), (4, a.toNat), (2, 0), (4, d.toNat), (2, 0), (6, 52), (6, q)] := by
    simp only [packed]
    clear hF hw; omega
  have hW := packed_word _ rfl hF hE hw
  clear hw
  have e0 := fld_eq (lo := 14) d hW (packed_at _ hF 4)
  have e1 := fld_eq (lo := 8) a hW (packed_at _ hF 2)
  obtain ⟨g0, g1⟩ := guard_packed g h hq eq [(2, 0), (6, 0), (4, a.toNat), (2, 0), (4, d.toNat), (2, 0), (6, 52)] rfl ⟨of_decide_eq_true rfl, of_decide_eq_true rfl, a.isLt, of_decide_eq_true rfl, d.isLt, of_decide_eq_true rfl, of_decide_eq_true rfl, hq, trivial⟩ hW
  have z4 := nz_false (lo := 12) (len := 2) hW (packed_at _ hF 3)
  have z5 := nz_false (lo := 18) (len := 2) hW (packed_at _ hF 5)
  have z6 := nz_false (lo := 2) (len := 6) hW (packed_at _ hF 1)
  have hr : vectorRow w = some { instr := some (.pnot (guardOf w) (fld w 14 4) (fld w 8 4)), unused := guardBad w || nz w 2 6, range := nz w 18 2 || nz w 12 2 } := by
    unfold vectorRow
    rw [fld_num (lo := 20) (len := 6) 52 hW (packed_at _ hF 6)]
    rw [fld_num (lo := 0) (len := 2) 0 hW (packed_at _ hF 0)]
    first | done | rfl
  change decodeWord .vec w = _
  refine decode_ok (p := .vec) (hW.trans hE.symm) (by omega) hr ?_
  refine check_ok rfl rfl ?_ ?_ rfl rfl ?_
  · simp [e0, e1, g0, g1, z4, z5, z6]
  · simp [e0, e1, g0, g1, z4, z5, z6]
  · simp only [e0, e1, g0, g1, z4, z5, z6]

theorem pcnt (g : Guard) (k : BitVec 3) (p : BitVec 4) : Statement (.pcnt g k p) := by
  intro h w hw
  change (g.wf) = true at h
  obtain ⟨q, hq, eq⟩ := guardBits_mul g
  have hF : Fits [(2, 0), (6, 0), (4, p.toNat), (2, 0), (3, k.toNat), (3, 0), (6, 53), (6, q)] := ⟨of_decide_eq_true rfl, of_decide_eq_true rfl, p.isLt, of_decide_eq_true rfl, k.isLt, of_decide_eq_true rfl, of_decide_eq_true rfl, hq, trivial⟩
  have hE : 0x3500000 + guardBits g + k.toNat * 16384 + p.toNat * 256 = packed [(2, 0), (6, 0), (4, p.toNat), (2, 0), (3, k.toNat), (3, 0), (6, 53), (6, q)] := by
    simp only [packed]
    clear hF hw; omega
  have hW := packed_word _ rfl hF hE hw
  clear hw
  have e0 := fld_eq (lo := 14) k hW (packed_at _ hF 4)
  have e1 := fld_eq (lo := 8) p hW (packed_at _ hF 2)
  obtain ⟨g0, g1⟩ := guard_packed g h hq eq [(2, 0), (6, 0), (4, p.toNat), (2, 0), (3, k.toNat), (3, 0), (6, 53)] rfl ⟨of_decide_eq_true rfl, of_decide_eq_true rfl, p.isLt, of_decide_eq_true rfl, k.isLt, of_decide_eq_true rfl, of_decide_eq_true rfl, hq, trivial⟩ hW
  have z4 := nz_false (lo := 12) (len := 2) hW (packed_at _ hF 3)
  have z5 := nz_false (lo := 17) (len := 3) hW (packed_at _ hF 5)
  have z6 := nz_false (lo := 2) (len := 6) hW (packed_at _ hF 1)
  have hr : vectorRow w = some { instr := some (.pcnt (guardOf w) (fld w 14 3) (fld w 8 4)), unused := guardBad w || nz w 2 6 || nz w 17 3, range := nz w 12 2 } := by
    unfold vectorRow
    rw [fld_num (lo := 20) (len := 6) 53 hW (packed_at _ hF 6)]
    rw [fld_num (lo := 0) (len := 2) 0 hW (packed_at _ hF 0)]
    first | done | rfl
  change decodeWord .vec w = _
  refine decode_ok (p := .vec) (hW.trans hE.symm) (by omega) hr ?_
  refine check_ok rfl rfl ?_ ?_ rfl rfl ?_
  · simp [e0, e1, g0, g1, z4, z5, z6]
  · simp [e0, e1, g0, g1, z4, z5, z6]
  · simp only [e0, e1, g0, g1, z4, z5, z6]

theorem pfirst (g : Guard) (k : BitVec 3) (p : BitVec 4) : Statement (.pfirst g k p) := by
  intro h w hw
  change (g.wf) = true at h
  obtain ⟨q, hq, eq⟩ := guardBits_mul g
  have hF : Fits [(2, 0), (6, 0), (4, p.toNat), (2, 0), (3, k.toNat), (3, 0), (6, 54), (6, q)] := ⟨of_decide_eq_true rfl, of_decide_eq_true rfl, p.isLt, of_decide_eq_true rfl, k.isLt, of_decide_eq_true rfl, of_decide_eq_true rfl, hq, trivial⟩
  have hE : 0x3600000 + guardBits g + k.toNat * 16384 + p.toNat * 256 = packed [(2, 0), (6, 0), (4, p.toNat), (2, 0), (3, k.toNat), (3, 0), (6, 54), (6, q)] := by
    simp only [packed]
    clear hF hw; omega
  have hW := packed_word _ rfl hF hE hw
  clear hw
  have e0 := fld_eq (lo := 14) k hW (packed_at _ hF 4)
  have e1 := fld_eq (lo := 8) p hW (packed_at _ hF 2)
  obtain ⟨g0, g1⟩ := guard_packed g h hq eq [(2, 0), (6, 0), (4, p.toNat), (2, 0), (3, k.toNat), (3, 0), (6, 54)] rfl ⟨of_decide_eq_true rfl, of_decide_eq_true rfl, p.isLt, of_decide_eq_true rfl, k.isLt, of_decide_eq_true rfl, of_decide_eq_true rfl, hq, trivial⟩ hW
  have z4 := nz_false (lo := 12) (len := 2) hW (packed_at _ hF 3)
  have z5 := nz_false (lo := 17) (len := 3) hW (packed_at _ hF 5)
  have z6 := nz_false (lo := 2) (len := 6) hW (packed_at _ hF 1)
  have hr : vectorRow w = some { instr := some (.pfirst (guardOf w) (fld w 14 3) (fld w 8 4)), unused := guardBad w || nz w 2 6 || nz w 17 3, range := nz w 12 2 } := by
    unfold vectorRow
    rw [fld_num (lo := 20) (len := 6) 54 hW (packed_at _ hF 6)]
    rw [fld_num (lo := 0) (len := 2) 0 hW (packed_at _ hF 0)]
    first | done | rfl
  change decodeWord .vec w = _
  refine decode_ok (p := .vec) (hW.trans hE.symm) (by omega) hr ?_
  refine check_ok rfl rfl ?_ ?_ rfl rfl ?_
  · simp [e0, e1, g0, g1, z4, z5, z6]
  · simp [e0, e1, g0, g1, z4, z5, z6]
  · simp only [e0, e1, g0, g1, z4, z5, z6]

theorem plenK (g : Guard) (p : BitVec 4) (k : BitVec 3) : Statement (.plenK g p k) := by
  intro h w hw
  change (g.wf) = true at h
  obtain ⟨q, hq, eq⟩ := guardBits_mul g
  have hF : Fits [(2, 1), (3, k.toNat), (9, 0), (4, p.toNat), (2, 0), (6, 55), (6, q)] := ⟨of_decide_eq_true rfl, k.isLt, of_decide_eq_true rfl, p.isLt, of_decide_eq_true rfl, of_decide_eq_true rfl, hq, trivial⟩
  have hE : 0x3700001 + guardBits g + p.toNat * 16384 + k.toNat * 4 = packed [(2, 1), (3, k.toNat), (9, 0), (4, p.toNat), (2, 0), (6, 55), (6, q)] := by
    simp only [packed]
    clear hF hw; omega
  have hW := packed_word _ rfl hF hE hw
  clear hw
  have e0 := fld_eq (lo := 14) p hW (packed_at _ hF 3)
  have e1 := fld_eq (lo := 2) k hW (packed_at _ hF 1)
  obtain ⟨g0, g1⟩ := guard_packed g h hq eq [(2, 1), (3, k.toNat), (9, 0), (4, p.toNat), (2, 0), (6, 55)] rfl ⟨of_decide_eq_true rfl, k.isLt, of_decide_eq_true rfl, p.isLt, of_decide_eq_true rfl, of_decide_eq_true rfl, hq, trivial⟩ hW
  have z4 := nz_false (lo := 18) (len := 2) hW (packed_at _ hF 4)
  have z5 := nz_false (lo := 5) (len := 9) hW (packed_at _ hF 2)
  have hr : vectorRow w = some { instr := some (.plenK (guardOf w) (fld w 14 4) (fld w 2 3)), unused := guardBad w || nz w 5 9, range := nz w 18 2 } := by
    unfold vectorRow
    rw [fld_num (lo := 20) (len := 6) 55 hW (packed_at _ hF 5)]
    rw [fld_num (lo := 0) (len := 2) 1 hW (packed_at _ hF 0)]
    first | done | rfl
  change decodeWord .vec w = _
  refine decode_ok (p := .vec) (hW.trans hE.symm) (by omega) hr ?_
  refine check_ok rfl rfl ?_ ?_ rfl rfl ?_
  · simp [e0, e1, g0, g1, z4, z5]
  · simp [e0, e1, g0, g1, z4, z5]
  · simp only [e0, e1, g0, g1, z4, z5]

theorem plenI (g : Guard) (p : BitVec 4) (im : BitVec 6) : Statement (.plenI g p im) := by
  intro h w hw
  change (g.wf) = true at h
  obtain ⟨q, hq, eq⟩ := guardBits_mul g
  have hF : Fits [(2, 2), (6, im.toNat), (6, 0), (4, p.toNat), (2, 0), (6, 55), (6, q)] := ⟨of_decide_eq_true rfl, im.isLt, of_decide_eq_true rfl, p.isLt, of_decide_eq_true rfl, of_decide_eq_true rfl, hq, trivial⟩
  have hE : 0x3700002 + guardBits g + p.toNat * 16384 + im.toNat * 4 = packed [(2, 2), (6, im.toNat), (6, 0), (4, p.toNat), (2, 0), (6, 55), (6, q)] := by
    simp only [packed]
    clear hF hw; omega
  have hW := packed_word _ rfl hF hE hw
  clear hw
  have e0 := fld_eq (lo := 14) p hW (packed_at _ hF 3)
  have e1 := fld_eq (lo := 2) im hW (packed_at _ hF 1)
  obtain ⟨g0, g1⟩ := guard_packed g h hq eq [(2, 2), (6, im.toNat), (6, 0), (4, p.toNat), (2, 0), (6, 55)] rfl ⟨of_decide_eq_true rfl, im.isLt, of_decide_eq_true rfl, p.isLt, of_decide_eq_true rfl, of_decide_eq_true rfl, hq, trivial⟩ hW
  have z4 := nz_false (lo := 18) (len := 2) hW (packed_at _ hF 4)
  have z5 := nz_false (lo := 8) (len := 6) hW (packed_at _ hF 2)
  have hr : vectorRow w = some { instr := some (.plenI (guardOf w) (fld w 14 4) (fld w 2 6)), unused := guardBad w || nz w 8 6, range := nz w 18 2 } := by
    unfold vectorRow
    rw [fld_num (lo := 20) (len := 6) 55 hW (packed_at _ hF 5)]
    rw [fld_num (lo := 0) (len := 2) 2 hW (packed_at _ hF 0)]
    first | done | rfl
  change decodeWord .vec w = _
  refine decode_ok (p := .vec) (hW.trans hE.symm) (by omega) hr ?_
  refine check_ok rfl rfl ?_ ?_ rfl rfl ?_
  · simp [e0, e1, g0, g1, z4, z5]
  · simp [e0, e1, g0, g1, z4, z5]
  · simp only [e0, e1, g0, g1, z4, z5]

theorem vld (g : Guard) (d : BitVec 6) (hx : BitVec 4) (n : BitVec 3) (k : BitVec 3) : Statement (.vld g d hx n k) := by
  intro h w hw
  change (g.wf && decide (k.toNat + n.toNat + 1 ≤ 8)) = true at h
  try simp at h
  obtain ⟨q, hq, eq⟩ := guardBits_mul g
  have hF : Fits [(2, 0), (3, k.toNat), (3, n.toNat), (4, hx.toNat), (2, 0), (6, d.toNat), (6, 56), (6, q)] := ⟨of_decide_eq_true rfl, k.isLt, n.isLt, hx.isLt, of_decide_eq_true rfl, d.isLt, of_decide_eq_true rfl, hq, trivial⟩
  have hE : 0x3800000 + guardBits g + d.toNat * 16384 + hx.toNat * 256 + n.toNat * 32 + k.toNat * 4 = packed [(2, 0), (3, k.toNat), (3, n.toNat), (4, hx.toNat), (2, 0), (6, d.toNat), (6, 56), (6, q)] := by
    simp only [packed]
    clear hF hw; omega
  have hW := packed_word _ rfl hF hE hw
  clear hw
  have e0 := fld_eq (lo := 14) d hW (packed_at _ hF 5)
  have e1 := fld_eq (lo := 8) hx hW (packed_at _ hF 3)
  have e2 := fld_eq (lo := 5) n hW (packed_at _ hF 2)
  have e3 := fld_eq (lo := 2) k hW (packed_at _ hF 1)
  obtain ⟨g0, g1⟩ := guard_packed g h.1 hq eq [(2, 0), (3, k.toNat), (3, n.toNat), (4, hx.toNat), (2, 0), (6, d.toNat), (6, 56)] rfl ⟨of_decide_eq_true rfl, k.isLt, n.isLt, hx.isLt, of_decide_eq_true rfl, d.isLt, of_decide_eq_true rfl, hq, trivial⟩ hW
  have z6 := nz_false (lo := 12) (len := 2) hW (packed_at _ hF 4)
  have hr : vectorRow w = some { instr := some (.vld (guardOf w) (fld w 14 6) (fld w 8 4) (fld w 5 3) (fld w 2 3)), unused := guardBad w || nz w 12 2, range := decide ((fld w 2 3).toNat + (fld w 5 3).toNat + 1 > 8), vregs := [fld w 14 6], avail := .vec } := by
    unfold vectorRow
    rw [fld_num (lo := 20) (len := 6) 56 hW (packed_at _ hF 6)]
    rw [fld_num (lo := 0) (len := 2) 0 hW (packed_at _ hF 0)]
    first | done | rfl
  change decodeWord .vec w = _
  refine decode_ok (p := .vec) (hW.trans hE.symm) (by omega) hr ?_
  refine check_ok rfl rfl ?_ ?_ rfl rfl ?_
  · simp [e0, e1, e2, e3, g0, g1, z6, h]
  · simp [e0, e1, e2, e3, g0, g1, z6, h]
  · simp only [e0, e1, e2, e3, g0, g1, z6]

theorem vst (g : Guard) (d : BitVec 6) (hx : BitVec 4) (n : BitVec 3) (k : BitVec 3) : Statement (.vst g d hx n k) := by
  intro h w hw
  change (g.wf && decide (k.toNat + n.toNat + 1 ≤ 8)) = true at h
  try simp at h
  obtain ⟨q, hq, eq⟩ := guardBits_mul g
  have hF : Fits [(2, 0), (3, k.toNat), (3, n.toNat), (4, hx.toNat), (2, 0), (6, d.toNat), (6, 57), (6, q)] := ⟨of_decide_eq_true rfl, k.isLt, n.isLt, hx.isLt, of_decide_eq_true rfl, d.isLt, of_decide_eq_true rfl, hq, trivial⟩
  have hE : 0x3900000 + guardBits g + d.toNat * 16384 + hx.toNat * 256 + n.toNat * 32 + k.toNat * 4 = packed [(2, 0), (3, k.toNat), (3, n.toNat), (4, hx.toNat), (2, 0), (6, d.toNat), (6, 57), (6, q)] := by
    simp only [packed]
    clear hF hw; omega
  have hW := packed_word _ rfl hF hE hw
  clear hw
  have e0 := fld_eq (lo := 14) d hW (packed_at _ hF 5)
  have e1 := fld_eq (lo := 8) hx hW (packed_at _ hF 3)
  have e2 := fld_eq (lo := 5) n hW (packed_at _ hF 2)
  have e3 := fld_eq (lo := 2) k hW (packed_at _ hF 1)
  obtain ⟨g0, g1⟩ := guard_packed g h.1 hq eq [(2, 0), (3, k.toNat), (3, n.toNat), (4, hx.toNat), (2, 0), (6, d.toNat), (6, 57)] rfl ⟨of_decide_eq_true rfl, k.isLt, n.isLt, hx.isLt, of_decide_eq_true rfl, d.isLt, of_decide_eq_true rfl, hq, trivial⟩ hW
  have z6 := nz_false (lo := 12) (len := 2) hW (packed_at _ hF 4)
  have hr : vectorRow w = some { instr := some (.vst (guardOf w) (fld w 14 6) (fld w 8 4) (fld w 5 3) (fld w 2 3)), unused := guardBad w || nz w 12 2, range := decide ((fld w 2 3).toNat + (fld w 5 3).toNat + 1 > 8), vregs := [fld w 14 6], avail := .vec } := by
    unfold vectorRow
    rw [fld_num (lo := 20) (len := 6) 57 hW (packed_at _ hF 6)]
    rw [fld_num (lo := 0) (len := 2) 0 hW (packed_at _ hF 0)]
    first | done | rfl
  change decodeWord .vec w = _
  refine decode_ok (p := .vec) (hW.trans hE.symm) (by omega) hr ?_
  refine check_ok rfl rfl ?_ ?_ rfl rfl ?_
  · simp [e0, e1, e2, e3, g0, g1, z6, h]
  · simp [e0, e1, e2, e3, g0, g1, z6, h]
  · simp only [e0, e1, e2, e3, g0, g1, z6]

theorem vldx (g : Guard) (d : BitVec 6) (hx : BitVec 4) (b : BitVec 6) : Statement (.vldx g d hx b) := by
  intro h w hw
  change (g.wf) = true at h
  obtain ⟨q, hq, eq⟩ := guardBits_mul g
  have hF : Fits [(2, 0), (6, b.toNat), (4, hx.toNat), (2, 0), (6, d.toNat), (6, 58), (6, q)] := ⟨of_decide_eq_true rfl, b.isLt, hx.isLt, of_decide_eq_true rfl, d.isLt, of_decide_eq_true rfl, hq, trivial⟩
  have hE : 0x3a00000 + guardBits g + d.toNat * 16384 + hx.toNat * 256 + b.toNat * 4 = packed [(2, 0), (6, b.toNat), (4, hx.toNat), (2, 0), (6, d.toNat), (6, 58), (6, q)] := by
    simp only [packed]
    clear hF hw; omega
  have hW := packed_word _ rfl hF hE hw
  clear hw
  have e0 := fld_eq (lo := 14) d hW (packed_at _ hF 4)
  have e1 := fld_eq (lo := 8) hx hW (packed_at _ hF 2)
  have e2 := fld_eq (lo := 2) b hW (packed_at _ hF 1)
  obtain ⟨g0, g1⟩ := guard_packed g h hq eq [(2, 0), (6, b.toNat), (4, hx.toNat), (2, 0), (6, d.toNat), (6, 58)] rfl ⟨of_decide_eq_true rfl, b.isLt, hx.isLt, of_decide_eq_true rfl, d.isLt, of_decide_eq_true rfl, hq, trivial⟩ hW
  have z5 := nz_false (lo := 12) (len := 2) hW (packed_at _ hF 3)
  have hr : vectorRow w = some { instr := some (.vldx (guardOf w) (fld w 14 6) (fld w 8 4) (fld w 2 6)), unused := guardBad w || nz w 12 2, vregs := [fld w 14 6, fld w 2 6], avail := .vec } := by
    unfold vectorRow
    rw [fld_num (lo := 20) (len := 6) 58 hW (packed_at _ hF 5)]
    rw [fld_num (lo := 0) (len := 2) 0 hW (packed_at _ hF 0)]
    first | done | rfl
  change decodeWord .vec w = _
  refine decode_ok (p := .vec) (hW.trans hE.symm) (by omega) hr ?_
  refine check_ok rfl rfl ?_ rfl rfl rfl ?_
  · simp [e0, e1, e2, g0, g1, z5]
  · simp only [e0, e1, e2, g0, g1, z5]

theorem vstx (g : Guard) (d : BitVec 6) (hx : BitVec 4) (b : BitVec 6) : Statement (.vstx g d hx b) := by
  intro h w hw
  change (g.wf) = true at h
  obtain ⟨q, hq, eq⟩ := guardBits_mul g
  have hF : Fits [(2, 0), (6, b.toNat), (4, hx.toNat), (2, 0), (6, d.toNat), (6, 59), (6, q)] := ⟨of_decide_eq_true rfl, b.isLt, hx.isLt, of_decide_eq_true rfl, d.isLt, of_decide_eq_true rfl, hq, trivial⟩
  have hE : 0x3b00000 + guardBits g + d.toNat * 16384 + hx.toNat * 256 + b.toNat * 4 = packed [(2, 0), (6, b.toNat), (4, hx.toNat), (2, 0), (6, d.toNat), (6, 59), (6, q)] := by
    simp only [packed]
    clear hF hw; omega
  have hW := packed_word _ rfl hF hE hw
  clear hw
  have e0 := fld_eq (lo := 14) d hW (packed_at _ hF 4)
  have e1 := fld_eq (lo := 8) hx hW (packed_at _ hF 2)
  have e2 := fld_eq (lo := 2) b hW (packed_at _ hF 1)
  obtain ⟨g0, g1⟩ := guard_packed g h hq eq [(2, 0), (6, b.toNat), (4, hx.toNat), (2, 0), (6, d.toNat), (6, 59)] rfl ⟨of_decide_eq_true rfl, b.isLt, hx.isLt, of_decide_eq_true rfl, d.isLt, of_decide_eq_true rfl, hq, trivial⟩ hW
  have z5 := nz_false (lo := 12) (len := 2) hW (packed_at _ hF 3)
  have hr : vectorRow w = some { instr := some (.vstx (guardOf w) (fld w 14 6) (fld w 8 4) (fld w 2 6)), unused := guardBad w || nz w 12 2, vregs := [fld w 14 6, fld w 2 6], avail := .vec } := by
    unfold vectorRow
    rw [fld_num (lo := 20) (len := 6) 59 hW (packed_at _ hF 5)]
    rw [fld_num (lo := 0) (len := 2) 0 hW (packed_at _ hF 0)]
    first | done | rfl
  change decodeWord .vec w = _
  refine decode_ok (p := .vec) (hW.trans hE.symm) (by omega) hr ?_
  refine check_ok rfl rfl ?_ rfl rfl rfl ?_
  · simp [e0, e1, e2, g0, g1, z5]
  · simp only [e0, e1, e2, g0, g1, z5]

theorem vrand (g : Guard) (d : BitVec 6) : Statement (.vrand g d) := by
  intro h w hw
  change (g.wf) = true at h
  obtain ⟨q, hq, eq⟩ := guardBits_mul g
  have hF : Fits [(2, 0), (12, 0), (6, d.toNat), (6, 60), (6, q)] := ⟨of_decide_eq_true rfl, of_decide_eq_true rfl, d.isLt, of_decide_eq_true rfl, hq, trivial⟩
  have hE : 0x3c00000 + guardBits g + d.toNat * 16384 = packed [(2, 0), (12, 0), (6, d.toNat), (6, 60), (6, q)] := by
    simp only [packed]
    clear hF hw; omega
  have hW := packed_word _ rfl hF hE hw
  clear hw
  have e0 := fld_eq (lo := 14) d hW (packed_at _ hF 2)
  obtain ⟨g0, g1⟩ := guard_packed g h hq eq [(2, 0), (12, 0), (6, d.toNat), (6, 60)] rfl ⟨of_decide_eq_true rfl, of_decide_eq_true rfl, d.isLt, of_decide_eq_true rfl, hq, trivial⟩ hW
  have z3 := nz_false (lo := 2) (len := 12) hW (packed_at _ hF 1)
  have hr : vectorRow w = some { instr := some (.vrand (guardOf w) (fld w 14 6)), unused := guardBad w || nz w 2 12, vregs := [fld w 14 6], avail := .vec } := by
    unfold vectorRow
    rw [fld_num (lo := 20) (len := 6) 60 hW (packed_at _ hF 3)]
    rw [fld_num (lo := 0) (len := 2) 0 hW (packed_at _ hF 0)]
    first | done | rfl
  change decodeWord .vec w = _
  refine decode_ok (p := .vec) (hW.trans hE.symm) (by omega) hr ?_
  refine check_ok rfl rfl ?_ rfl rfl rfl ?_
  · simp [e0, g0, g1, z3]
  · simp only [e0, g0, g1, z3]

theorem vshape (k : BitVec 3) : Statement (.vshape k) := by
  intro h w hw
  clear h
  have hF : Fits [(2, 1), (3, k.toNat), (15, 0), (6, 61), (5, 0), (1, 0)] := ⟨of_decide_eq_true rfl, k.isLt, of_decide_eq_true rfl, of_decide_eq_true rfl, of_decide_eq_true rfl, of_decide_eq_true rfl, trivial⟩
  have hE : 0x3d00001 + k.toNat * 4 = packed [(2, 1), (3, k.toNat), (15, 0), (6, 61), (5, 0), (1, 0)] := by
    simp only [packed]
    clear hF hw; omega
  have hW := packed_word _ rfl hF hE hw
  clear hw
  have e0 := fld_eq (lo := 2) k hW (packed_at _ hF 1)
  have hN := hW.trans hE.symm
  have hb0 := k.isLt
  have g1 := guardBad_low hN (by omega)
  have z2 := nz_false (lo := 31) (len := 1) hW (packed_at _ hF 5)
  have z3 := nz_false (lo := 5) (len := 15) hW (packed_at _ hF 2)
  have hr : vectorRow w = some { instr := some (.vshape (fld w 2 3)), unused := guardBad w || nz w 5 15, form := nz w 31 1 } := by
    unfold vectorRow
    rw [fld_num (lo := 20) (len := 6) 61 hW (packed_at _ hF 3)]
    rw [fld_num (lo := 0) (len := 2) 1 hW (packed_at _ hF 0)]
    first | done | rfl
  change decodeWord .vec w = _
  refine decode_ok (p := .vec) (hW.trans hE.symm) (by omega) hr ?_
  refine check_ok rfl rfl ?_ rfl rfl ?_ ?_
  · simp [e0, g1, z2, z3]
  · simp [e0, g1, z2, z3]
  · simp only [e0, g1, z2, z3]

theorem vmov (g : Guard) (d : BitVec 6) (a : BitVec 6) : Statement (.vmov g d a) := by
  intro h w hw
  change (g.wf) = true at h
  obtain ⟨q, hq, eq⟩ := guardBits_mul g
  have hF : Fits [(2, 0), (6, 0), (6, a.toNat), (6, d.toNat), (6, 62), (6, q)] := ⟨of_decide_eq_true rfl, of_decide_eq_true rfl, a.isLt, d.isLt, of_decide_eq_true rfl, hq, trivial⟩
  have hE : 0x3e00000 + guardBits g + d.toNat * 16384 + a.toNat * 256 = packed [(2, 0), (6, 0), (6, a.toNat), (6, d.toNat), (6, 62), (6, q)] := by
    simp only [packed]
    clear hF hw; omega
  have hW := packed_word _ rfl hF hE hw
  clear hw
  have e0 := fld_eq (lo := 14) d hW (packed_at _ hF 3)
  have e1 := fld_eq (lo := 8) a hW (packed_at _ hF 2)
  obtain ⟨g0, g1⟩ := guard_packed g h hq eq [(2, 0), (6, 0), (6, a.toNat), (6, d.toNat), (6, 62)] rfl ⟨of_decide_eq_true rfl, of_decide_eq_true rfl, a.isLt, d.isLt, of_decide_eq_true rfl, hq, trivial⟩ hW
  have z4 := nz_false (lo := 2) (len := 6) hW (packed_at _ hF 1)
  have hr : vectorRow w = some { instr := some (.vmov (guardOf w) (fld w 14 6) (fld w 8 6)), unused := guardBad w || nz w 2 6, vregs := [fld w 14 6, fld w 8 6] } := by
    unfold vectorRow
    rw [fld_num (lo := 20) (len := 6) 62 hW (packed_at _ hF 4)]
    rw [fld_num (lo := 0) (len := 2) 0 hW (packed_at _ hF 0)]
    first | done | rfl
  change decodeWord .vec w = _
  refine decode_ok (p := .vec) (hW.trans hE.symm) (by omega) hr ?_
  refine check_ok rfl rfl ?_ rfl rfl rfl ?_
  · simp [e0, e1, g0, g1, z4]
  · simp only [e0, e1, g0, g1, z4]

theorem vmovK (g : Guard) (d : BitVec 6) (k : BitVec 3) : Statement (.vmovK g d k) := by
  intro h w hw
  change (g.wf) = true at h
  obtain ⟨q, hq, eq⟩ := guardBits_mul g
  have hF : Fits [(2, 1), (3, k.toNat), (9, 0), (6, d.toNat), (6, 62), (6, q)] := ⟨of_decide_eq_true rfl, k.isLt, of_decide_eq_true rfl, d.isLt, of_decide_eq_true rfl, hq, trivial⟩
  have hE : 0x3e00001 + guardBits g + d.toNat * 16384 + k.toNat * 4 = packed [(2, 1), (3, k.toNat), (9, 0), (6, d.toNat), (6, 62), (6, q)] := by
    simp only [packed]
    clear hF hw; omega
  have hW := packed_word _ rfl hF hE hw
  clear hw
  have e0 := fld_eq (lo := 14) d hW (packed_at _ hF 3)
  have e1 := fld_eq (lo := 2) k hW (packed_at _ hF 1)
  obtain ⟨g0, g1⟩ := guard_packed g h hq eq [(2, 1), (3, k.toNat), (9, 0), (6, d.toNat), (6, 62)] rfl ⟨of_decide_eq_true rfl, k.isLt, of_decide_eq_true rfl, d.isLt, of_decide_eq_true rfl, hq, trivial⟩ hW
  have z4 := nz_false (lo := 5) (len := 9) hW (packed_at _ hF 2)
  have hr : vectorRow w = some { instr := some (.vmovK (guardOf w) (fld w 14 6) (fld w 2 3)), unused := guardBad w || nz w 5 9, vregs := [fld w 14 6] } := by
    unfold vectorRow
    rw [fld_num (lo := 20) (len := 6) 62 hW (packed_at _ hF 4)]
    rw [fld_num (lo := 0) (len := 2) 1 hW (packed_at _ hF 0)]
    first | done | rfl
  change decodeWord .vec w = _
  refine decode_ok (p := .vec) (hW.trans hE.symm) (by omega) hr ?_
  refine check_ok rfl rfl ?_ rfl rfl rfl ?_
  · simp [e0, e1, g0, g1, z4]
  · simp only [e0, e1, g0, g1, z4]

theorem vmovI (g : Guard) (d : BitVec 6) (im : BitVec 6) : Statement (.vmovI g d im) := by
  intro h w hw
  change (g.wf) = true at h
  obtain ⟨q, hq, eq⟩ := guardBits_mul g
  have hF : Fits [(2, 2), (6, im.toNat), (6, 0), (6, d.toNat), (6, 62), (6, q)] := ⟨of_decide_eq_true rfl, im.isLt, of_decide_eq_true rfl, d.isLt, of_decide_eq_true rfl, hq, trivial⟩
  have hE : 0x3e00002 + guardBits g + d.toNat * 16384 + im.toNat * 4 = packed [(2, 2), (6, im.toNat), (6, 0), (6, d.toNat), (6, 62), (6, q)] := by
    simp only [packed]
    clear hF hw; omega
  have hW := packed_word _ rfl hF hE hw
  clear hw
  have e0 := fld_eq (lo := 14) d hW (packed_at _ hF 3)
  have e1 := fld_eq (lo := 2) im hW (packed_at _ hF 1)
  obtain ⟨g0, g1⟩ := guard_packed g h hq eq [(2, 2), (6, im.toNat), (6, 0), (6, d.toNat), (6, 62)] rfl ⟨of_decide_eq_true rfl, im.isLt, of_decide_eq_true rfl, d.isLt, of_decide_eq_true rfl, hq, trivial⟩ hW
  have z4 := nz_false (lo := 8) (len := 6) hW (packed_at _ hF 2)
  have hr : vectorRow w = some { instr := some (.vmovI (guardOf w) (fld w 14 6) (fld w 2 6)), unused := guardBad w || nz w 8 6, vregs := [fld w 14 6] } := by
    unfold vectorRow
    rw [fld_num (lo := 20) (len := 6) 62 hW (packed_at _ hF 4)]
    rw [fld_num (lo := 0) (len := 2) 2 hW (packed_at _ hF 0)]
    first | done | rfl
  change decodeWord .vec w = _
  refine decode_ok (p := .vec) (hW.trans hE.symm) (by omega) hr ?_
  refine check_ok rfl rfl ?_ rfl rfl rfl ?_
  · simp [e0, e1, g0, g1, z4]
  · simp only [e0, e1, g0, g1, z4]

theorem vrot  : Statement (.vrot) := by
  intro h w hw
  clear h
  have hF : Fits [(2, 3), (18, 0), (6, 62), (5, 0), (1, 0)] := ⟨of_decide_eq_true rfl, of_decide_eq_true rfl, of_decide_eq_true rfl, of_decide_eq_true rfl, of_decide_eq_true rfl, trivial⟩
  have hE : 0x3e00003 = packed [(2, 3), (18, 0), (6, 62), (5, 0), (1, 0)] := by
    simp only [packed]
    clear hF hw; omega
  have hW := packed_word _ rfl hF hE hw
  clear hw
  have hN := hW.trans hE.symm
  have g1 := guardBad_low hN (by omega)
  have z1 := nz_false (lo := 2) (len := 18) hW (packed_at _ hF 1)
  have z2 := nz_false (lo := 31) (len := 1) hW (packed_at _ hF 4)
  have hr : vectorRow w = some { instr := some (.vrot), unused := guardBad w || nz w 2 18, form := nz w 31 1, avail := .vec } := by
    unfold vectorRow
    rw [fld_num (lo := 20) (len := 6) 62 hW (packed_at _ hF 2)]
    rw [fld_num (lo := 0) (len := 2) 3 hW (packed_at _ hF 0)]
    first | done | rfl
  change decodeWord .vec w = _
  refine decode_ok (p := .vec) (hW.trans hE.symm) (by omega) hr ?_
  refine check_ok rfl rfl ?_ rfl rfl ?_ ?_
  · simp [g1, z1, z2]
  · simp [g1, z1, z2]
  · simp only [g1, z1, z2]

theorem vloop (c : BitVec 2) (len : BitVec 6) (k : BitVec 3) : Statement (.vloop c len k) := by
  intro h w hw
  change (len != 0) = true at h
  try simp at h
  have hF : Fits [(2, 0), (3, k.toNat), (3, 0), (6, len.toNat), (2, c.toNat), (4, 0), (6, 63), (5, 0), (1, 0)] := ⟨of_decide_eq_true rfl, k.isLt, of_decide_eq_true rfl, len.isLt, c.isLt, of_decide_eq_true rfl, of_decide_eq_true rfl, of_decide_eq_true rfl, of_decide_eq_true rfl, trivial⟩
  have hE : 0x3f00000 + c.toNat * 16384 + len.toNat * 256 + k.toNat * 4 = packed [(2, 0), (3, k.toNat), (3, 0), (6, len.toNat), (2, c.toNat), (4, 0), (6, 63), (5, 0), (1, 0)] := by
    simp only [packed]
    clear hF hw; omega
  have hW := packed_word _ rfl hF hE hw
  clear hw
  have e0 := fld_eq (lo := 14) c hW (packed_at _ hF 4)
  have e1 := fld_eq (lo := 8) len hW (packed_at _ hF 3)
  have e2 := fld_eq (lo := 2) k hW (packed_at _ hF 1)
  have hN := hW.trans hE.symm
  have hb0 := c.isLt
  have hb1 := len.isLt
  have hb2 := k.isLt
  have g1 := guardBad_low hN (by omega)
  have z4 := nz_false (lo := 16) (len := 4) hW (packed_at _ hF 5)
  have z5 := nz_false (lo := 31) (len := 1) hW (packed_at _ hF 8)
  have z6 := nz_false (lo := 5) (len := 3) hW (packed_at _ hF 2)
  have z7 := nz_true (lo := 8) (len := 6) hN (by first | omega | (simp only [BitVec.toNat_eq] at h; simp at h; omega))
  have hr : vectorRow w = some { instr := some (.vloop (fld w 14 2) (fld w 8 6) (fld w 2 3)), unused := guardBad w || nz w 5 3 || nz w 16 4, range := !nz w 8 6, form := nz w 31 1, avail := .vec } := by
    unfold vectorRow
    rw [fld_num (lo := 20) (len := 6) 63 hW (packed_at _ hF 6)]
    show vctlRow w = _
    unfold vctlRow
    rw [fld_num (lo := 0) (len := 2) 0 hW (packed_at _ hF 0)]
    first | done | rfl
  change decodeWord .vec w = _
  refine decode_ok (p := .vec) (hW.trans hE.symm) (by omega) hr ?_
  refine check_ok rfl rfl ?_ ?_ rfl ?_ ?_
  · simp [e0, e1, e2, g1, z4, z5, z6, z7]
  · simp [e0, e1, e2, g1, z4, z5, z6, z7]
  · simp [e0, e1, e2, g1, z4, z5, z6, z7]
  · simp only [e0, e1, e2, g1, z4, z5, z6, z7]

theorem vloopi (c : BitVec 2) (len : BitVec 6) (n : BitVec 6) : Statement (.vloopi c len n) := by
  intro h w hw
  change (len != 0) = true at h
  try simp at h
  have hF : Fits [(2, 1), (6, n.toNat), (6, len.toNat), (2, c.toNat), (4, 0), (6, 63), (5, 0), (1, 0)] := ⟨of_decide_eq_true rfl, n.isLt, len.isLt, c.isLt, of_decide_eq_true rfl, of_decide_eq_true rfl, of_decide_eq_true rfl, of_decide_eq_true rfl, trivial⟩
  have hE : 0x3f00001 + c.toNat * 16384 + len.toNat * 256 + n.toNat * 4 = packed [(2, 1), (6, n.toNat), (6, len.toNat), (2, c.toNat), (4, 0), (6, 63), (5, 0), (1, 0)] := by
    simp only [packed]
    clear hF hw; omega
  have hW := packed_word _ rfl hF hE hw
  clear hw
  have e0 := fld_eq (lo := 14) c hW (packed_at _ hF 3)
  have e1 := fld_eq (lo := 8) len hW (packed_at _ hF 2)
  have e2 := fld_eq (lo := 2) n hW (packed_at _ hF 1)
  have hN := hW.trans hE.symm
  have hb0 := c.isLt
  have hb1 := len.isLt
  have hb2 := n.isLt
  have g1 := guardBad_low hN (by omega)
  have z4 := nz_false (lo := 16) (len := 4) hW (packed_at _ hF 4)
  have z5 := nz_false (lo := 31) (len := 1) hW (packed_at _ hF 7)
  have z6 := nz_true (lo := 8) (len := 6) hN (by first | omega | (simp only [BitVec.toNat_eq] at h; simp at h; omega))
  have hr : vectorRow w = some { instr := some (.vloopi (fld w 14 2) (fld w 8 6) (fld w 2 6)), unused := guardBad w || nz w 16 4, range := !nz w 8 6, form := nz w 31 1, avail := .vec } := by
    unfold vectorRow
    rw [fld_num (lo := 20) (len := 6) 63 hW (packed_at _ hF 5)]
    show vctlRow w = _
    unfold vctlRow
    rw [fld_num (lo := 0) (len := 2) 1 hW (packed_at _ hF 0)]
    first | done | rfl
  change decodeWord .vec w = _
  refine decode_ok (p := .vec) (hW.trans hE.symm) (by omega) hr ?_
  refine check_ok rfl rfl ?_ ?_ rfl ?_ ?_
  · simp [e0, e1, e2, g1, z4, z5, z6]
  · simp [e0, e1, e2, g1, z4, z5, z6]
  · simp [e0, e1, e2, g1, z4, z5, z6]
  · simp only [e0, e1, e2, g1, z4, z5, z6]

theorem vloopr (x : BitVec 3) (c : BitVec 2) (len : BitVec 6) (hx : BitVec 4) : Statement (.vloopr x c len hx) := by
  intro h w hw
  change (len != 0) = true at h
  try simp at h
  have hF : Fits [(2, 2), (4, hx.toNat), (2, 0), (6, len.toNat), (2, c.toNat), (3, x.toNat), (1, 0), (6, 63), (5, 0), (1, 0)] := ⟨of_decide_eq_true rfl, hx.isLt, of_decide_eq_true rfl, len.isLt, c.isLt, x.isLt, of_decide_eq_true rfl, of_decide_eq_true rfl, of_decide_eq_true rfl, of_decide_eq_true rfl, trivial⟩
  have hE : 0x3f00002 + x.toNat * 65536 + c.toNat * 16384 + len.toNat * 256 + hx.toNat * 4 = packed [(2, 2), (4, hx.toNat), (2, 0), (6, len.toNat), (2, c.toNat), (3, x.toNat), (1, 0), (6, 63), (5, 0), (1, 0)] := by
    simp only [packed]
    clear hF hw; omega
  have hW := packed_word _ rfl hF hE hw
  clear hw
  have e0 := fld_eq (lo := 16) x hW (packed_at _ hF 5)
  have e1 := fld_eq (lo := 14) c hW (packed_at _ hF 4)
  have e2 := fld_eq (lo := 8) len hW (packed_at _ hF 3)
  have e3 := fld_eq (lo := 2) hx hW (packed_at _ hF 1)
  have hN := hW.trans hE.symm
  have hb0 := x.isLt
  have hb1 := c.isLt
  have hb2 := len.isLt
  have hb3 := hx.isLt
  have g1 := guardBad_low hN (by omega)
  have z5 := nz_false (lo := 19) (len := 1) hW (packed_at _ hF 6)
  have z6 := nz_false (lo := 31) (len := 1) hW (packed_at _ hF 9)
  have z7 := nz_false (lo := 6) (len := 2) hW (packed_at _ hF 2)
  have z8 := nz_true (lo := 8) (len := 6) hN (by first | omega | (simp only [BitVec.toNat_eq] at h; simp at h; omega))
  have hr : vectorRow w = some { instr := some (.vloopr (fld w 16 3) (fld w 14 2) (fld w 8 6) (fld w 2 4)), unused := guardBad w || nz w 6 2 || nz w 19 1, range := !nz w 8 6, form := nz w 31 1, avail := .vec } := by
    unfold vectorRow
    rw [fld_num (lo := 20) (len := 6) 63 hW (packed_at _ hF 7)]
    show vctlRow w = _
    unfold vctlRow
    rw [fld_num (lo := 0) (len := 2) 2 hW (packed_at _ hF 0)]
    first | done | rfl
  change decodeWord .vec w = _
  refine decode_ok (p := .vec) (hW.trans hE.symm) (by omega) hr ?_
  refine check_ok rfl rfl ?_ ?_ rfl ?_ ?_
  · simp [e0, e1, e2, e3, g1, z5, z6, z7, z8]
  · simp [e0, e1, e2, e3, g1, z5, z6, z7, z8]
  · simp [e0, e1, e2, e3, g1, z5, z6, z7, z8]
  · simp only [e0, e1, e2, e3, g1, z5, z6, z7, z8]

theorem vpegw (m : BitVec 3) : Statement (.vpegw m) := by
  intro h w hw
  change (m != 0) = true at h
  try simp at h
  have hF : Fits [(2, 3), (6, 0), (3, m.toNat), (9, 0), (6, 63), (5, 0), (1, 0)] := ⟨of_decide_eq_true rfl, of_decide_eq_true rfl, m.isLt, of_decide_eq_true rfl, of_decide_eq_true rfl, of_decide_eq_true rfl, of_decide_eq_true rfl, trivial⟩
  have hE : 0x3f00003 + m.toNat * 256 = packed [(2, 3), (6, 0), (3, m.toNat), (9, 0), (6, 63), (5, 0), (1, 0)] := by
    simp only [packed]
    clear hF hw; omega
  have hW := packed_word _ rfl hF hE hw
  clear hw
  have e0 := fld_eq (lo := 8) m hW (packed_at _ hF 2)
  have hN := hW.trans hE.symm
  have hb0 := m.isLt
  have g1 := guardBad_low hN (by omega)
  have z2 := nz_false (lo := 11) (len := 9) hW (packed_at _ hF 3)
  have z3 := nz_false (lo := 31) (len := 1) hW (packed_at _ hF 6)
  have z4 := nz_true (lo := 8) (len := 3) hN (by first | omega | (simp only [BitVec.toNat_eq] at h; simp at h; omega))
  have hr : vectorRow w = some { instr := some (.vpegw (fld w 8 3)), unused := guardBad w || nz w 11 9, range := !nz w 8 3, form := nz w 31 1, avail := .vec } := by
    unfold vectorRow
    rw [fld_num (lo := 20) (len := 6) 63 hW (packed_at _ hF 4)]
    show vctlRow w = _
    unfold vctlRow
    rw [fld_num (lo := 0) (len := 2) 3 hW (packed_at _ hF 0)]
    rw [fld_num (lo := 2) (len := 6) 0 hW (packed_at _ hF 1)]
    first | done | rfl
  change decodeWord .vec w = _
  refine decode_ok (p := .vec) (hW.trans hE.symm) (by omega) hr ?_
  refine check_ok rfl rfl ?_ ?_ rfl ?_ ?_
  · simp [e0, g1, z2, z3, z4]
  · simp [e0, g1, z2, z3, z4]
  · simp [e0, g1, z2, z3, z4]
  · simp only [e0, g1, z2, z3, z4]

theorem vpegs (m : BitVec 3) : Statement (.vpegs m) := by
  intro h w hw
  change (m != 0) = true at h
  try simp at h
  have hF : Fits [(2, 3), (6, 1), (3, m.toNat), (9, 0), (6, 63), (5, 0), (1, 0)] := ⟨of_decide_eq_true rfl, of_decide_eq_true rfl, m.isLt, of_decide_eq_true rfl, of_decide_eq_true rfl, of_decide_eq_true rfl, of_decide_eq_true rfl, trivial⟩
  have hE : 0x3f00007 + m.toNat * 256 = packed [(2, 3), (6, 1), (3, m.toNat), (9, 0), (6, 63), (5, 0), (1, 0)] := by
    simp only [packed]
    clear hF hw; omega
  have hW := packed_word _ rfl hF hE hw
  clear hw
  have e0 := fld_eq (lo := 8) m hW (packed_at _ hF 2)
  have hN := hW.trans hE.symm
  have hb0 := m.isLt
  have g1 := guardBad_low hN (by omega)
  have z2 := nz_false (lo := 11) (len := 9) hW (packed_at _ hF 3)
  have z3 := nz_false (lo := 31) (len := 1) hW (packed_at _ hF 6)
  have z4 := nz_true (lo := 8) (len := 3) hN (by first | omega | (simp only [BitVec.toNat_eq] at h; simp at h; omega))
  have hr : vectorRow w = some { instr := some (.vpegs (fld w 8 3)), unused := guardBad w || nz w 11 9, range := !nz w 8 3, form := nz w 31 1, avail := .vec } := by
    unfold vectorRow
    rw [fld_num (lo := 20) (len := 6) 63 hW (packed_at _ hF 4)]
    show vctlRow w = _
    unfold vctlRow
    rw [fld_num (lo := 0) (len := 2) 3 hW (packed_at _ hF 0)]
    rw [fld_num (lo := 2) (len := 6) 1 hW (packed_at _ hF 1)]
    first | done | rfl
  change decodeWord .vec w = _
  refine decode_ok (p := .vec) (hW.trans hE.symm) (by omega) hr ?_
  refine check_ok rfl rfl ?_ ?_ rfl ?_ ?_
  · simp [e0, g1, z2, z3, z4]
  · simp [e0, g1, z2, z3, z4]
  · simp [e0, g1, z2, z3, z4]
  · simp only [e0, g1, z2, z3, z4]

theorem vend  : Statement (.vend) := by
  intro h w hw
  clear h
  have hF : Fits [(2, 3), (6, 2), (12, 0), (6, 63), (5, 0), (1, 0)] := ⟨of_decide_eq_true rfl, of_decide_eq_true rfl, of_decide_eq_true rfl, of_decide_eq_true rfl, of_decide_eq_true rfl, of_decide_eq_true rfl, trivial⟩
  have hE : 0x3f0000b = packed [(2, 3), (6, 2), (12, 0), (6, 63), (5, 0), (1, 0)] := by
    simp only [packed]
    clear hF hw; omega
  have hW := packed_word _ rfl hF hE hw
  clear hw
  have hN := hW.trans hE.symm
  have g1 := guardBad_low hN (by omega)
  have z1 := nz_false (lo := 31) (len := 1) hW (packed_at _ hF 5)
  have z2 := nz_false (lo := 8) (len := 12) hW (packed_at _ hF 2)
  have hr : vectorRow w = some { instr := some (.vend), unused := guardBad w || nz w 8 12, form := nz w 31 1, avail := .vec } := by
    unfold vectorRow
    rw [fld_num (lo := 20) (len := 6) 63 hW (packed_at _ hF 3)]
    show vctlRow w = _
    unfold vctlRow
    rw [fld_num (lo := 0) (len := 2) 3 hW (packed_at _ hF 0)]
    rw [fld_num (lo := 2) (len := 6) 2 hW (packed_at _ hF 1)]
    first | done | rfl
  change decodeWord .vec w = _
  refine decode_ok (p := .vec) (hW.trans hE.symm) (by omega) hr ?_
  refine check_ok rfl rfl ?_ rfl rfl ?_ ?_
  · simp [g1, z1, z2]
  · simp [g1, z1, z2]
  · simp only [g1, z1, z2]

theorem vkset (k : BitVec 3) (im : BitVec 6) : Statement (.vkset k im) := by
  intro h w hw
  clear h
  have hF : Fits [(2, 3), (6, 3), (6, im.toNat), (3, k.toNat), (3, 0), (6, 63), (5, 0), (1, 0)] := ⟨of_decide_eq_true rfl, of_decide_eq_true rfl, im.isLt, k.isLt, of_decide_eq_true rfl, of_decide_eq_true rfl, of_decide_eq_true rfl, of_decide_eq_true rfl, trivial⟩
  have hE : 0x3f0000f + k.toNat * 16384 + im.toNat * 256 = packed [(2, 3), (6, 3), (6, im.toNat), (3, k.toNat), (3, 0), (6, 63), (5, 0), (1, 0)] := by
    simp only [packed]
    clear hF hw; omega
  have hW := packed_word _ rfl hF hE hw
  clear hw
  have e0 := fld_eq (lo := 14) k hW (packed_at _ hF 3)
  have e1 := fld_eq (lo := 8) im hW (packed_at _ hF 2)
  have hN := hW.trans hE.symm
  have hb0 := k.isLt
  have hb1 := im.isLt
  have g1 := guardBad_low hN (by omega)
  have z3 := nz_false (lo := 17) (len := 3) hW (packed_at _ hF 4)
  have z4 := nz_false (lo := 31) (len := 1) hW (packed_at _ hF 7)
  have hr : vectorRow w = some { instr := some (.vkset (fld w 14 3) (fld w 8 6)), unused := guardBad w || nz w 17 3, form := nz w 31 1, avail := .vec } := by
    unfold vectorRow
    rw [fld_num (lo := 20) (len := 6) 63 hW (packed_at _ hF 5)]
    show vctlRow w = _
    unfold vctlRow
    rw [fld_num (lo := 0) (len := 2) 3 hW (packed_at _ hF 0)]
    rw [fld_num (lo := 2) (len := 6) 3 hW (packed_at _ hF 1)]
    first | done | rfl
  change decodeWord .vec w = _
  refine decode_ok (p := .vec) (hW.trans hE.symm) (by omega) hr ?_
  refine check_ok rfl rfl ?_ rfl rfl ?_ ?_
  · simp [e0, e1, g1, z3, z4]
  · simp [e0, e1, g1, z3, z4]
  · simp only [e0, e1, g1, z3, z4]

theorem tlease (wx : BitVec 3) (p : BitVec 3) (t : BitVec 12) : Statement (.tlease wx p t) := by
  intro h w hw
  clear h
  have hF : Fits [(12, t.toNat), (9, 0), (3, p.toNat), (3, wx.toNat), (5, 1)] := ⟨t.isLt, of_decide_eq_true rfl, p.isLt, wx.isLt, of_decide_eq_true rfl, trivial⟩
  have hE : 0x8000000 + wx.toNat * 16777216 + p.toNat * 2097152 + t.toNat = packed [(12, t.toNat), (9, 0), (3, p.toNat), (3, wx.toNat), (5, 1)] := by
    simp only [packed]
    clear hF hw; omega
  have hW := packed_word _ rfl hF hE hw
  clear hw
  have e0 := fld_eq (lo := 24) wx hW (packed_at _ hF 3)
  have e1 := fld_eq (lo := 21) p hW (packed_at _ hF 2)
  have e2 := fld_eq (lo := 0) t hW (packed_at _ hF 0)
  have z3 := nz_false (lo := 12) (len := 9) hW (packed_at _ hF 1)
  have hr : matrixRow w = some { instr := some (.tlease (fld w 24 3) (fld w 21 3) (fld w 0 12)), unused := nz w 12 9 } := by
    unfold matrixRow
    rw [fld_num (lo := 27) (len := 5) 1 hW (packed_at _ hF 4)]
    first | done | rfl
  change decodeWord .mtx w = _
  refine decode_ok (p := .mtx) (hW.trans hE.symm) (by omega) hr ?_
  refine check_ok rfl rfl ?_ rfl rfl rfl ?_
  · simp [e0, e1, e2, z3]
  · simp only [e0, e1, e2, z3]

theorem tfree (wx : BitVec 3) (p : BitVec 3) (t : BitVec 12) : Statement (.tfree wx p t) := by
  intro h w hw
  clear h
  have hF : Fits [(12, t.toNat), (9, 0), (3, p.toNat), (3, wx.toNat), (5, 2)] := ⟨t.isLt, of_decide_eq_true rfl, p.isLt, wx.isLt, of_decide_eq_true rfl, trivial⟩
  have hE : 0x10000000 + wx.toNat * 16777216 + p.toNat * 2097152 + t.toNat = packed [(12, t.toNat), (9, 0), (3, p.toNat), (3, wx.toNat), (5, 2)] := by
    simp only [packed]
    clear hF hw; omega
  have hW := packed_word _ rfl hF hE hw
  clear hw
  have e0 := fld_eq (lo := 24) wx hW (packed_at _ hF 3)
  have e1 := fld_eq (lo := 21) p hW (packed_at _ hF 2)
  have e2 := fld_eq (lo := 0) t hW (packed_at _ hF 0)
  have z3 := nz_false (lo := 12) (len := 9) hW (packed_at _ hF 1)
  have hr : matrixRow w = some { instr := some (.tfree (fld w 24 3) (fld w 21 3) (fld w 0 12)), unused := nz w 12 9 } := by
    unfold matrixRow
    rw [fld_num (lo := 27) (len := 5) 2 hW (packed_at _ hF 4)]
    first | done | rfl
  change decodeWord .mtx w = _
  refine decode_ok (p := .mtx) (hW.trans hE.symm) (by omega) hr ?_
  refine check_ok rfl rfl ?_ rfl rfl rfl ?_
  · simp [e0, e1, e2, z3]
  · simp only [e0, e1, e2, z3]

theorem tloadb (wx : BitVec 3) (p : BitVec 3) (m : BitVec 4) (t : BitVec 12) : Statement (.tloadb wx p m t) := by
  intro h w hw
  clear h
  have hF : Fits [(12, t.toNat), (5, 0), (4, m.toNat), (3, p.toNat), (3, wx.toNat), (5, 3)] := ⟨t.isLt, of_decide_eq_true rfl, m.isLt, p.isLt, wx.isLt, of_decide_eq_true rfl, trivial⟩
  have hE : 0x18000000 + wx.toNat * 16777216 + p.toNat * 2097152 + m.toNat * 131072 + t.toNat = packed [(12, t.toNat), (5, 0), (4, m.toNat), (3, p.toNat), (3, wx.toNat), (5, 3)] := by
    simp only [packed]
    clear hF hw; omega
  have hW := packed_word _ rfl hF hE hw
  clear hw
  have e0 := fld_eq (lo := 24) wx hW (packed_at _ hF 4)
  have e1 := fld_eq (lo := 21) p hW (packed_at _ hF 3)
  have e2 := fld_eq (lo := 17) m hW (packed_at _ hF 2)
  have e3 := fld_eq (lo := 0) t hW (packed_at _ hF 0)
  have z4 := nz_false (lo := 12) (len := 5) hW (packed_at _ hF 1)
  have hr : matrixRow w = some { instr := some (.tloadb (fld w 24 3) (fld w 21 3) (fld w 17 4) (fld w 0 12)), unused := nz w 12 5 } := by
    unfold matrixRow
    rw [fld_num (lo := 27) (len := 5) 3 hW (packed_at _ hF 5)]
    first | done | rfl
  change decodeWord .mtx w = _
  refine decode_ok (p := .mtx) (hW.trans hE.symm) (by omega) hr ?_
  refine check_ok rfl rfl ?_ rfl rfl rfl ?_
  · simp [e0, e1, e2, e3, z4]
  · simp only [e0, e1, e2, e3, z4]

theorem tmma (wx : BitVec 3) (p : BitVec 3) (m : BitVec 4) (f : BitVec 5) (t : BitVec 12) : Statement (.tmma wx p m f t) := by
  intro h w hw
  clear h
  have hF : Fits [(12, t.toNat), (5, f.toNat), (4, m.toNat), (3, p.toNat), (3, wx.toNat), (5, 4)] := ⟨t.isLt, f.isLt, m.isLt, p.isLt, wx.isLt, of_decide_eq_true rfl, trivial⟩
  have hE : 0x20000000 + wx.toNat * 16777216 + p.toNat * 2097152 + m.toNat * 131072 + f.toNat * 4096 + t.toNat = packed [(12, t.toNat), (5, f.toNat), (4, m.toNat), (3, p.toNat), (3, wx.toNat), (5, 4)] := by
    simp only [packed]
    clear hF hw; omega
  have hW := packed_word _ rfl hF hE hw
  clear hw
  have e0 := fld_eq (lo := 24) wx hW (packed_at _ hF 4)
  have e1 := fld_eq (lo := 21) p hW (packed_at _ hF 3)
  have e2 := fld_eq (lo := 17) m hW (packed_at _ hF 2)
  have e3 := fld_eq (lo := 12) f hW (packed_at _ hF 1)
  have e4 := fld_eq (lo := 0) t hW (packed_at _ hF 0)
  have hr : matrixRow w = some { instr := some (.tmma (fld w 24 3) (fld w 21 3) (fld w 17 4) (fld w 12 5) (fld w 0 12)) } := by
    unfold matrixRow
    rw [fld_num (lo := 27) (len := 5) 4 hW (packed_at _ hF 5)]
    first | done | rfl
  change decodeWord .mtx w = _
  refine decode_ok (p := .mtx) (hW.trans hE.symm) (by omega) hr ?_
  refine check_ok rfl rfl rfl rfl rfl rfl ?_
  · simp only [e0, e1, e2, e3, e4]

theorem tmmas (wx : BitVec 3) (p : BitVec 3) (m : BitVec 4) (f : BitVec 5) (t : BitVec 12) : Statement (.tmmas wx p m f t) := by
  intro h w hw
  clear h
  have hF : Fits [(12, t.toNat), (5, f.toNat), (4, m.toNat), (3, p.toNat), (3, wx.toNat), (5, 5)] := ⟨t.isLt, f.isLt, m.isLt, p.isLt, wx.isLt, of_decide_eq_true rfl, trivial⟩
  have hE : 0x28000000 + wx.toNat * 16777216 + p.toNat * 2097152 + m.toNat * 131072 + f.toNat * 4096 + t.toNat = packed [(12, t.toNat), (5, f.toNat), (4, m.toNat), (3, p.toNat), (3, wx.toNat), (5, 5)] := by
    simp only [packed]
    clear hF hw; omega
  have hW := packed_word _ rfl hF hE hw
  clear hw
  have e0 := fld_eq (lo := 24) wx hW (packed_at _ hF 4)
  have e1 := fld_eq (lo := 21) p hW (packed_at _ hF 3)
  have e2 := fld_eq (lo := 17) m hW (packed_at _ hF 2)
  have e3 := fld_eq (lo := 12) f hW (packed_at _ hF 1)
  have e4 := fld_eq (lo := 0) t hW (packed_at _ hF 0)
  have hr : matrixRow w = some { instr := some (.tmmas (fld w 24 3) (fld w 21 3) (fld w 17 4) (fld w 12 5) (fld w 0 12)) } := by
    unfold matrixRow
    rw [fld_num (lo := 27) (len := 5) 5 hW (packed_at _ hF 5)]
    first | done | rfl
  change decodeWord .mtx w = _
  refine decode_ok (p := .mtx) (hW.trans hE.symm) (by omega) hr ?_
  refine check_ok rfl rfl rfl rfl rfl rfl ?_
  · simp only [e0, e1, e2, e3, e4]

theorem tpromo (wx : BitVec 3) (p : BitVec 3) (m : BitVec 4) (f : BitVec 1) (t : BitVec 12) : Statement (.tpromo wx p m f t) := by
  intro h w hw
  clear h
  have hF : Fits [(12, t.toNat), (2, 0), (1, f.toNat), (2, 0), (4, m.toNat), (3, p.toNat), (3, wx.toNat), (5, 6)] := ⟨t.isLt, of_decide_eq_true rfl, f.isLt, of_decide_eq_true rfl, m.isLt, p.isLt, wx.isLt, of_decide_eq_true rfl, trivial⟩
  have hE : 0x30000000 + wx.toNat * 16777216 + p.toNat * 2097152 + m.toNat * 131072 + f.toNat * 16384 + t.toNat = packed [(12, t.toNat), (2, 0), (1, f.toNat), (2, 0), (4, m.toNat), (3, p.toNat), (3, wx.toNat), (5, 6)] := by
    simp only [packed]
    clear hF hw; omega
  have hW := packed_word _ rfl hF hE hw
  clear hw
  have e0 := fld_eq (lo := 24) wx hW (packed_at _ hF 6)
  have e1 := fld_eq (lo := 21) p hW (packed_at _ hF 5)
  have e2 := fld_eq (lo := 17) m hW (packed_at _ hF 4)
  have e3 := fld_eq (lo := 14) f hW (packed_at _ hF 2)
  have e4 := fld_eq (lo := 0) t hW (packed_at _ hF 0)
  have z5 := nz_false (lo := 12) (len := 2) hW (packed_at _ hF 1)
  have z6 := nz_false (lo := 15) (len := 2) hW (packed_at _ hF 3)
  have hr : matrixRow w = some { instr := some (.tpromo (fld w 24 3) (fld w 21 3) (fld w 17 4) (fld w 14 1) (fld w 0 12)), unused := nz w 12 2 || nz w 15 2 } := by
    unfold matrixRow
    rw [fld_num (lo := 27) (len := 5) 6 hW (packed_at _ hF 7)]
    first | done | rfl
  change decodeWord .mtx w = _
  refine decode_ok (p := .mtx) (hW.trans hE.symm) (by omega) hr ?_
  refine check_ok rfl rfl ?_ rfl rfl rfl ?_
  · simp [e0, e1, e2, e3, e4, z5, z6]
  · simp only [e0, e1, e2, e3, e4, z5, z6]

theorem tdrain (wx : BitVec 3) (p : BitVec 3) (m : BitVec 4) (f : BitVec 1) (t : BitVec 12) : Statement (.tdrain wx p m f t) := by
  intro h w hw
  clear h
  have hF : Fits [(12, t.toNat), (1, 0), (1, f.toNat), (3, 0), (4, m.toNat), (3, p.toNat), (3, wx.toNat), (5, 7)] := ⟨t.isLt, of_decide_eq_true rfl, f.isLt, of_decide_eq_true rfl, m.isLt, p.isLt, wx.isLt, of_decide_eq_true rfl, trivial⟩
  have hE : 0x38000000 + wx.toNat * 16777216 + p.toNat * 2097152 + m.toNat * 131072 + f.toNat * 8192 + t.toNat = packed [(12, t.toNat), (1, 0), (1, f.toNat), (3, 0), (4, m.toNat), (3, p.toNat), (3, wx.toNat), (5, 7)] := by
    simp only [packed]
    clear hF hw; omega
  have hW := packed_word _ rfl hF hE hw
  clear hw
  have e0 := fld_eq (lo := 24) wx hW (packed_at _ hF 6)
  have e1 := fld_eq (lo := 21) p hW (packed_at _ hF 5)
  have e2 := fld_eq (lo := 17) m hW (packed_at _ hF 4)
  have e3 := fld_eq (lo := 13) f hW (packed_at _ hF 2)
  have e4 := fld_eq (lo := 0) t hW (packed_at _ hF 0)
  have z5 := nz_false (lo := 12) (len := 1) hW (packed_at _ hF 1)
  have z6 := nz_false (lo := 14) (len := 3) hW (packed_at _ hF 3)
  have hr : matrixRow w = some { instr := some (.tdrain (fld w 24 3) (fld w 21 3) (fld w 17 4) (fld w 13 1) (fld w 0 12)), unused := nz w 12 1 || nz w 14 3 } := by
    unfold matrixRow
    rw [fld_num (lo := 27) (len := 5) 7 hW (packed_at _ hF 7)]
    first | done | rfl
  change decodeWord .mtx w = _
  refine decode_ok (p := .mtx) (hW.trans hE.symm) (by omega) hr ?_
  refine check_ok rfl rfl ?_ rfl rfl rfl ?_
  · simp [e0, e1, e2, e3, e4, z5, z6]
  · simp only [e0, e1, e2, e3, e4, z5, z6]

theorem tzero (wx : BitVec 3) (p : BitVec 3) (m : BitVec 4) (f : BitVec 1) (t : BitVec 12) : Statement (.tzero wx p m f t) := by
  intro h w hw
  clear h
  have hF : Fits [(12, t.toNat), (2, 0), (1, f.toNat), (2, 0), (4, m.toNat), (3, p.toNat), (3, wx.toNat), (5, 8)] := ⟨t.isLt, of_decide_eq_true rfl, f.isLt, of_decide_eq_true rfl, m.isLt, p.isLt, wx.isLt, of_decide_eq_true rfl, trivial⟩
  have hE : 0x40000000 + wx.toNat * 16777216 + p.toNat * 2097152 + m.toNat * 131072 + f.toNat * 16384 + t.toNat = packed [(12, t.toNat), (2, 0), (1, f.toNat), (2, 0), (4, m.toNat), (3, p.toNat), (3, wx.toNat), (5, 8)] := by
    simp only [packed]
    clear hF hw; omega
  have hW := packed_word _ rfl hF hE hw
  clear hw
  have e0 := fld_eq (lo := 24) wx hW (packed_at _ hF 6)
  have e1 := fld_eq (lo := 21) p hW (packed_at _ hF 5)
  have e2 := fld_eq (lo := 17) m hW (packed_at _ hF 4)
  have e3 := fld_eq (lo := 14) f hW (packed_at _ hF 2)
  have e4 := fld_eq (lo := 0) t hW (packed_at _ hF 0)
  have z5 := nz_false (lo := 12) (len := 2) hW (packed_at _ hF 1)
  have z6 := nz_false (lo := 15) (len := 2) hW (packed_at _ hF 3)
  have hr : matrixRow w = some { instr := some (.tzero (fld w 24 3) (fld w 21 3) (fld w 17 4) (fld w 14 1) (fld w 0 12)), unused := nz w 12 2 || nz w 15 2 } := by
    unfold matrixRow
    rw [fld_num (lo := 27) (len := 5) 8 hW (packed_at _ hF 7)]
    first | done | rfl
  change decodeWord .mtx w = _
  refine decode_ok (p := .mtx) (hW.trans hE.symm) (by omega) hr ?_
  refine check_ok rfl rfl ?_ rfl rfl rfl ?_
  · simp [e0, e1, e2, e3, e4, z5, z6]
  · simp only [e0, e1, e2, e3, e4, z5, z6]

theorem tcommit (wx : BitVec 3) (p : BitVec 3) (m : BitVec 4) (t : BitVec 12) : Statement (.tcommit wx p m t) := by
  intro h w hw
  clear h
  have hF : Fits [(12, t.toNat), (5, 0), (4, m.toNat), (3, p.toNat), (3, wx.toNat), (5, 9)] := ⟨t.isLt, of_decide_eq_true rfl, m.isLt, p.isLt, wx.isLt, of_decide_eq_true rfl, trivial⟩
  have hE : 0x48000000 + wx.toNat * 16777216 + p.toNat * 2097152 + m.toNat * 131072 + t.toNat = packed [(12, t.toNat), (5, 0), (4, m.toNat), (3, p.toNat), (3, wx.toNat), (5, 9)] := by
    simp only [packed]
    clear hF hw; omega
  have hW := packed_word _ rfl hF hE hw
  clear hw
  have e0 := fld_eq (lo := 24) wx hW (packed_at _ hF 4)
  have e1 := fld_eq (lo := 21) p hW (packed_at _ hF 3)
  have e2 := fld_eq (lo := 17) m hW (packed_at _ hF 2)
  have e3 := fld_eq (lo := 0) t hW (packed_at _ hF 0)
  have z4 := nz_false (lo := 12) (len := 5) hW (packed_at _ hF 1)
  have hr : matrixRow w = some { instr := some (.tcommit (fld w 24 3) (fld w 21 3) (fld w 17 4) (fld w 0 12)), unused := nz w 12 5 } := by
    unfold matrixRow
    rw [fld_num (lo := 27) (len := 5) 9 hW (packed_at _ hF 5)]
    first | done | rfl
  change decodeWord .mtx w = _
  refine decode_ok (p := .mtx) (hW.trans hE.symm) (by omega) hr ?_
  refine check_ok rfl rfl ?_ rfl rfl rfl ?_
  · simp [e0, e1, e2, e3, z4]
  · simp only [e0, e1, e2, e3, z4]

theorem tdiscard (wx : BitVec 3) (p : BitVec 3) (m : BitVec 4) (t : BitVec 12) : Statement (.tdiscard wx p m t) := by
  intro h w hw
  clear h
  have hF : Fits [(12, t.toNat), (5, 0), (4, m.toNat), (3, p.toNat), (3, wx.toNat), (5, 10)] := ⟨t.isLt, of_decide_eq_true rfl, m.isLt, p.isLt, wx.isLt, of_decide_eq_true rfl, trivial⟩
  have hE : 0x50000000 + wx.toNat * 16777216 + p.toNat * 2097152 + m.toNat * 131072 + t.toNat = packed [(12, t.toNat), (5, 0), (4, m.toNat), (3, p.toNat), (3, wx.toNat), (5, 10)] := by
    simp only [packed]
    clear hF hw; omega
  have hW := packed_word _ rfl hF hE hw
  clear hw
  have e0 := fld_eq (lo := 24) wx hW (packed_at _ hF 4)
  have e1 := fld_eq (lo := 21) p hW (packed_at _ hF 3)
  have e2 := fld_eq (lo := 17) m hW (packed_at _ hF 2)
  have e3 := fld_eq (lo := 0) t hW (packed_at _ hF 0)
  have z4 := nz_false (lo := 12) (len := 5) hW (packed_at _ hF 1)
  have hr : matrixRow w = some { instr := some (.tdiscard (fld w 24 3) (fld w 21 3) (fld w 17 4) (fld w 0 12)), unused := nz w 12 5 } := by
    unfold matrixRow
    rw [fld_num (lo := 27) (len := 5) 10 hW (packed_at _ hF 5)]
    first | done | rfl
  change decodeWord .mtx w = _
  refine decode_ok (p := .mtx) (hW.trans hE.symm) (by omega) hr ?_
  refine check_ok rfl rfl ?_ rfl rfl rfl ?_
  · simp [e0, e1, e2, e3, z4]
  · simp only [e0, e1, e2, e3, z4]

theorem tsign (wx : BitVec 3) (p : BitVec 3) (m : BitVec 4) (t : BitVec 12) : Statement (.tsign wx p m t) := by
  intro h w hw
  clear h
  have hF : Fits [(12, t.toNat), (5, 0), (4, m.toNat), (3, p.toNat), (3, wx.toNat), (5, 11)] := ⟨t.isLt, of_decide_eq_true rfl, m.isLt, p.isLt, wx.isLt, of_decide_eq_true rfl, trivial⟩
  have hE : 0x58000000 + wx.toNat * 16777216 + p.toNat * 2097152 + m.toNat * 131072 + t.toNat = packed [(12, t.toNat), (5, 0), (4, m.toNat), (3, p.toNat), (3, wx.toNat), (5, 11)] := by
    simp only [packed]
    clear hF hw; omega
  have hW := packed_word _ rfl hF hE hw
  clear hw
  have e0 := fld_eq (lo := 24) wx hW (packed_at _ hF 4)
  have e1 := fld_eq (lo := 21) p hW (packed_at _ hF 3)
  have e2 := fld_eq (lo := 17) m hW (packed_at _ hF 2)
  have e3 := fld_eq (lo := 0) t hW (packed_at _ hF 0)
  have z4 := nz_false (lo := 12) (len := 5) hW (packed_at _ hF 1)
  have hr : matrixRow w = some { instr := some (.tsign (fld w 24 3) (fld w 21 3) (fld w 17 4) (fld w 0 12)), unused := nz w 12 5 } := by
    unfold matrixRow
    rw [fld_num (lo := 27) (len := 5) 11 hW (packed_at _ hF 5)]
    first | done | rfl
  change decodeWord .mtx w = _
  refine decode_ok (p := .mtx) (hW.trans hE.symm) (by omega) hr ?_
  refine check_ok rfl rfl ?_ rfl rfl rfl ?_
  · simp [e0, e1, e2, e3, z4]
  · simp only [e0, e1, e2, e3, z4]

theorem tbucket (wx : BitVec 3) (p : BitVec 3) (m : BitVec 4) (t : BitVec 12) : Statement (.tbucket wx p m t) := by
  intro h w hw
  clear h
  have hF : Fits [(12, t.toNat), (5, 0), (4, m.toNat), (3, p.toNat), (3, wx.toNat), (5, 12)] := ⟨t.isLt, of_decide_eq_true rfl, m.isLt, p.isLt, wx.isLt, of_decide_eq_true rfl, trivial⟩
  have hE : 0x60000000 + wx.toNat * 16777216 + p.toNat * 2097152 + m.toNat * 131072 + t.toNat = packed [(12, t.toNat), (5, 0), (4, m.toNat), (3, p.toNat), (3, wx.toNat), (5, 12)] := by
    simp only [packed]
    clear hF hw; omega
  have hW := packed_word _ rfl hF hE hw
  clear hw
  have e0 := fld_eq (lo := 24) wx hW (packed_at _ hF 4)
  have e1 := fld_eq (lo := 21) p hW (packed_at _ hF 3)
  have e2 := fld_eq (lo := 17) m hW (packed_at _ hF 2)
  have e3 := fld_eq (lo := 0) t hW (packed_at _ hF 0)
  have z4 := nz_false (lo := 12) (len := 5) hW (packed_at _ hF 1)
  have hr : matrixRow w = some { instr := some (.tbucket (fld w 24 3) (fld w 21 3) (fld w 17 4) (fld w 0 12)), unused := nz w 12 5 } := by
    unfold matrixRow
    rw [fld_num (lo := 27) (len := 5) 12 hW (packed_at _ hF 5)]
    first | done | rfl
  change decodeWord .mtx w = _
  refine decode_ok (p := .mtx) (hW.trans hE.symm) (by omega) hr ?_
  refine check_ok rfl rfl ?_ rfl rfl rfl ?_
  · simp [e0, e1, e2, e3, z4]
  · simp only [e0, e1, e2, e3, z4]

theorem trepsFirst (wx : BitVec 3) (p : BitVec 3) (m : BitVec 4) (t : BitVec 12) : Statement (.trepsFirst wx p m t) := by
  intro h w hw
  clear h
  have hF : Fits [(12, t.toNat), (2, 0), (3, 0), (4, m.toNat), (3, p.toNat), (3, wx.toNat), (5, 13)] := ⟨t.isLt, of_decide_eq_true rfl, of_decide_eq_true rfl, m.isLt, p.isLt, wx.isLt, of_decide_eq_true rfl, trivial⟩
  have hE : 0x68000000 + wx.toNat * 16777216 + p.toNat * 2097152 + m.toNat * 131072 + t.toNat = packed [(12, t.toNat), (2, 0), (3, 0), (4, m.toNat), (3, p.toNat), (3, wx.toNat), (5, 13)] := by
    simp only [packed]
    clear hF hw; omega
  have hW := packed_word _ rfl hF hE hw
  clear hw
  have e0 := fld_eq (lo := 24) wx hW (packed_at _ hF 5)
  have e1 := fld_eq (lo := 21) p hW (packed_at _ hF 4)
  have e2 := fld_eq (lo := 17) m hW (packed_at _ hF 3)
  have e3 := fld_eq (lo := 0) t hW (packed_at _ hF 0)
  have z4 := nz_false (lo := 14) (len := 3) hW (packed_at _ hF 2)
  have hr : matrixRow w = some { instr := some (.trepsFirst (fld w 24 3) (fld w 21 3) (fld w 17 4) (fld w 0 12)), unused := nz w 14 3 } := by
    unfold matrixRow
    rw [fld_num (lo := 27) (len := 5) 13 hW (packed_at _ hF 6)]
    rw [fld_num (lo := 12) (len := 2) 0 hW (packed_at _ hF 1)]
    first | done | rfl
  change decodeWord .mtx w = _
  refine decode_ok (p := .mtx) (hW.trans hE.symm) (by omega) hr ?_
  refine check_ok rfl rfl ?_ rfl rfl rfl ?_
  · simp [e0, e1, e2, e3, z4]
  · simp only [e0, e1, e2, e3, z4]

theorem trepsMean (wx : BitVec 3) (p : BitVec 3) (m : BitVec 4) (t : BitVec 12) : Statement (.trepsMean wx p m t) := by
  intro h w hw
  clear h
  have hF : Fits [(12, t.toNat), (2, 1), (3, 0), (4, m.toNat), (3, p.toNat), (3, wx.toNat), (5, 13)] := ⟨t.isLt, of_decide_eq_true rfl, of_decide_eq_true rfl, m.isLt, p.isLt, wx.isLt, of_decide_eq_true rfl, trivial⟩
  have hE : 0x68001000 + wx.toNat * 16777216 + p.toNat * 2097152 + m.toNat * 131072 + t.toNat = packed [(12, t.toNat), (2, 1), (3, 0), (4, m.toNat), (3, p.toNat), (3, wx.toNat), (5, 13)] := by
    simp only [packed]
    clear hF hw; omega
  have hW := packed_word _ rfl hF hE hw
  clear hw
  have e0 := fld_eq (lo := 24) wx hW (packed_at _ hF 5)
  have e1 := fld_eq (lo := 21) p hW (packed_at _ hF 4)
  have e2 := fld_eq (lo := 17) m hW (packed_at _ hF 3)
  have e3 := fld_eq (lo := 0) t hW (packed_at _ hF 0)
  have z4 := nz_false (lo := 14) (len := 3) hW (packed_at _ hF 2)
  have hr : matrixRow w = some { instr := some (.trepsMean (fld w 24 3) (fld w 21 3) (fld w 17 4) (fld w 0 12)), unused := nz w 14 3 } := by
    unfold matrixRow
    rw [fld_num (lo := 27) (len := 5) 13 hW (packed_at _ hF 6)]
    rw [fld_num (lo := 12) (len := 2) 1 hW (packed_at _ hF 1)]
    first | done | rfl
  change decodeWord .mtx w = _
  refine decode_ok (p := .mtx) (hW.trans hE.symm) (by omega) hr ?_
  refine check_ok rfl rfl ?_ rfl rfl rfl ?_
  · simp [e0, e1, e2, e3, z4]
  · simp only [e0, e1, e2, e3, z4]

theorem trepsNormmax (wx : BitVec 3) (p : BitVec 3) (m : BitVec 4) (t : BitVec 12) : Statement (.trepsNormmax wx p m t) := by
  intro h w hw
  clear h
  have hF : Fits [(12, t.toNat), (2, 2), (3, 0), (4, m.toNat), (3, p.toNat), (3, wx.toNat), (5, 13)] := ⟨t.isLt, of_decide_eq_true rfl, of_decide_eq_true rfl, m.isLt, p.isLt, wx.isLt, of_decide_eq_true rfl, trivial⟩
  have hE : 0x68002000 + wx.toNat * 16777216 + p.toNat * 2097152 + m.toNat * 131072 + t.toNat = packed [(12, t.toNat), (2, 2), (3, 0), (4, m.toNat), (3, p.toNat), (3, wx.toNat), (5, 13)] := by
    simp only [packed]
    clear hF hw; omega
  have hW := packed_word _ rfl hF hE hw
  clear hw
  have e0 := fld_eq (lo := 24) wx hW (packed_at _ hF 5)
  have e1 := fld_eq (lo := 21) p hW (packed_at _ hF 4)
  have e2 := fld_eq (lo := 17) m hW (packed_at _ hF 3)
  have e3 := fld_eq (lo := 0) t hW (packed_at _ hF 0)
  have z4 := nz_false (lo := 14) (len := 3) hW (packed_at _ hF 2)
  have hr : matrixRow w = some { instr := some (.trepsNormmax (fld w 24 3) (fld w 21 3) (fld w 17 4) (fld w 0 12)), unused := nz w 14 3 } := by
    unfold matrixRow
    rw [fld_num (lo := 27) (len := 5) 13 hW (packed_at _ hF 6)]
    rw [fld_num (lo := 12) (len := 2) 2 hW (packed_at _ hF 1)]
    first | done | rfl
  change decodeWord .mtx w = _
  refine decode_ok (p := .mtx) (hW.trans hE.symm) (by omega) hr ?_
  refine check_ok rfl rfl ?_ rfl rfl rfl ?_
  · simp [e0, e1, e2, e3, z4]
  · simp only [e0, e1, e2, e3, z4]

theorem tscat (wx : BitVec 3) (p : BitVec 3) (m : BitVec 4) (f : BitVec 1) (t : BitVec 12) : Statement (.tscat wx p m f t) := by
  intro h w hw
  clear h
  have hF : Fits [(12, t.toNat), (1, 0), (1, f.toNat), (3, 0), (4, m.toNat), (3, p.toNat), (3, wx.toNat), (5, 14)] := ⟨t.isLt, of_decide_eq_true rfl, f.isLt, of_decide_eq_true rfl, m.isLt, p.isLt, wx.isLt, of_decide_eq_true rfl, trivial⟩
  have hE : 0x70000000 + wx.toNat * 16777216 + p.toNat * 2097152 + m.toNat * 131072 + f.toNat * 8192 + t.toNat = packed [(12, t.toNat), (1, 0), (1, f.toNat), (3, 0), (4, m.toNat), (3, p.toNat), (3, wx.toNat), (5, 14)] := by
    simp only [packed]
    clear hF hw; omega
  have hW := packed_word _ rfl hF hE hw
  clear hw
  have e0 := fld_eq (lo := 24) wx hW (packed_at _ hF 6)
  have e1 := fld_eq (lo := 21) p hW (packed_at _ hF 5)
  have e2 := fld_eq (lo := 17) m hW (packed_at _ hF 4)
  have e3 := fld_eq (lo := 13) f hW (packed_at _ hF 2)
  have e4 := fld_eq (lo := 0) t hW (packed_at _ hF 0)
  have z5 := nz_false (lo := 12) (len := 1) hW (packed_at _ hF 1)
  have z6 := nz_false (lo := 14) (len := 3) hW (packed_at _ hF 3)
  have hr : matrixRow w = some { instr := some (.tscat (fld w 24 3) (fld w 21 3) (fld w 17 4) (fld w 13 1) (fld w 0 12)), unused := nz w 12 1 || nz w 14 3 } := by
    unfold matrixRow
    rw [fld_num (lo := 27) (len := 5) 14 hW (packed_at _ hF 7)]
    first | done | rfl
  change decodeWord .mtx w = _
  refine decode_ok (p := .mtx) (hW.trans hE.symm) (by omega) hr ?_
  refine check_ok rfl rfl ?_ rfl rfl rfl ?_
  · simp [e0, e1, e2, e3, e4, z5, z6]
  · simp only [e0, e1, e2, e3, e4, z5, z6]

theorem tmgrad (wx : BitVec 3) (p : BitVec 3) (m : BitVec 4) (t : BitVec 12) : Statement (.tmgrad wx p m t) := by
  intro h w hw
  clear h
  have hF : Fits [(12, t.toNat), (5, 0), (4, m.toNat), (3, p.toNat), (3, wx.toNat), (5, 15)] := ⟨t.isLt, of_decide_eq_true rfl, m.isLt, p.isLt, wx.isLt, of_decide_eq_true rfl, trivial⟩
  have hE : 0x78000000 + wx.toNat * 16777216 + p.toNat * 2097152 + m.toNat * 131072 + t.toNat = packed [(12, t.toNat), (5, 0), (4, m.toNat), (3, p.toNat), (3, wx.toNat), (5, 15)] := by
    simp only [packed]
    clear hF hw; omega
  have hW := packed_word _ rfl hF hE hw
  clear hw
  have e0 := fld_eq (lo := 24) wx hW (packed_at _ hF 4)
  have e1 := fld_eq (lo := 21) p hW (packed_at _ hF 3)
  have e2 := fld_eq (lo := 17) m hW (packed_at _ hF 2)
  have e3 := fld_eq (lo := 0) t hW (packed_at _ hF 0)
  have z4 := nz_false (lo := 12) (len := 5) hW (packed_at _ hF 1)
  have hr : matrixRow w = some { instr := some (.tmgrad (fld w 24 3) (fld w 21 3) (fld w 17 4) (fld w 0 12)), unused := nz w 12 5 } := by
    unfold matrixRow
    rw [fld_num (lo := 27) (len := 5) 15 hW (packed_at _ hF 5)]
    first | done | rfl
  change decodeWord .mtx w = _
  refine decode_ok (p := .mtx) (hW.trans hE.symm) (by omega) hr ?_
  refine check_ok rfl rfl ?_ rfl rfl rfl ?_
  · simp [e0, e1, e2, e3, z4]
  · simp only [e0, e1, e2, e3, z4]

theorem tnop (wx : BitVec 3) (p : BitVec 3) (t : BitVec 12) : Statement (.tnop wx p t) := by
  intro h w hw
  clear h
  have hF : Fits [(12, t.toNat), (9, 0), (3, p.toNat), (3, wx.toNat), (5, 16)] := ⟨t.isLt, of_decide_eq_true rfl, p.isLt, wx.isLt, of_decide_eq_true rfl, trivial⟩
  have hE : 0x80000000 + wx.toNat * 16777216 + p.toNat * 2097152 + t.toNat = packed [(12, t.toNat), (9, 0), (3, p.toNat), (3, wx.toNat), (5, 16)] := by
    simp only [packed]
    clear hF hw; omega
  have hW := packed_word _ rfl hF hE hw
  clear hw
  have e0 := fld_eq (lo := 24) wx hW (packed_at _ hF 3)
  have e1 := fld_eq (lo := 21) p hW (packed_at _ hF 2)
  have e2 := fld_eq (lo := 0) t hW (packed_at _ hF 0)
  have z3 := nz_false (lo := 12) (len := 9) hW (packed_at _ hF 1)
  have hr : matrixRow w = some { instr := some (.tnop (fld w 24 3) (fld w 21 3) (fld w 0 12)), unused := nz w 12 9 } := by
    unfold matrixRow
    rw [fld_num (lo := 27) (len := 5) 16 hW (packed_at _ hF 4)]
    first | done | rfl
  change decodeWord .mtx w = _
  refine decode_ok (p := .mtx) (hW.trans hE.symm) (by omega) hr ?_
  refine check_ok rfl rfl ?_ rfl rfl rfl ?_
  · simp [e0, e1, e2, z3]
  · simp only [e0, e1, e2, z3]

theorem sloop (k : BitVec 3) (len : BitVec 5) : Statement (.sloop k len) := by
  intro h w hw
  change (len != 0) = true at h
  try simp at h
  have hF : Fits [(12, 0), (5, len.toNat), (3, k.toNat), (1, 0), (6, 0), (5, 31)] := ⟨of_decide_eq_true rfl, len.isLt, k.isLt, of_decide_eq_true rfl, of_decide_eq_true rfl, of_decide_eq_true rfl, trivial⟩
  have hE : 0xf8000000 + k.toNat * 131072 + len.toNat * 4096 = packed [(12, 0), (5, len.toNat), (3, k.toNat), (1, 0), (6, 0), (5, 31)] := by
    simp only [packed]
    clear hF hw; omega
  have hW := packed_word _ rfl hF hE hw
  clear hw
  have e0 := fld_eq (lo := 17) k hW (packed_at _ hF 2)
  have e1 := fld_eq (lo := 12) len hW (packed_at _ hF 1)
  have z2 := nz_false (lo := 0) (len := 12) hW (packed_at _ hF 0)
  have z3 := nz_false (lo := 20) (len := 1) hW (packed_at _ hF 3)
  have z4 := nz_false (lo := 21) (len := 6) hW (packed_at _ hF 4)
  have hN := hW.trans hE.symm
  have hb0 := k.isLt
  have hb1 := len.isLt
  have z5 := nz_true (lo := 12) (len := 5) hN (by first | omega | (simp only [BitVec.toNat_eq] at h; simp at h; omega))
  have hr : matrixRow w = some { instr := some (.sloop (fld w 17 3) (fld w 12 5)), unused := nz w 0 12 || nz w 21 6, range := nz w 20 1 || !nz w 12 5 } := by
    unfold matrixRow
    rw [fld_num (lo := 27) (len := 5) 31 hW (packed_at _ hF 5)]
    first | done | rfl
  change decodeWord .mtx w = _
  refine decode_ok (p := .mtx) (hW.trans hE.symm) (by omega) hr ?_
  refine check_ok rfl rfl ?_ ?_ rfl rfl ?_
  · simp [e0, e1, z2, z3, z4, z5, h]
  · simp [e0, e1, z2, z3, z4, z5, h]
  · simp only [e0, e1, z2, z3, z4, z5]

theorem xcopy (wx : BitVec 3) (p : BitVec 3) (c : BitVec 4) (t : BitVec 12) : Statement (.xcopy wx p c t) := by
  intro h w hw
  clear h
  have hF : Fits [(12, t.toNat), (5, 0), (4, c.toNat), (3, p.toNat), (3, wx.toNat), (5, 1)] := ⟨t.isLt, of_decide_eq_true rfl, c.isLt, p.isLt, wx.isLt, of_decide_eq_true rfl, trivial⟩
  have hE : 0x8000000 + wx.toNat * 16777216 + p.toNat * 2097152 + c.toNat * 131072 + t.toNat = packed [(12, t.toNat), (5, 0), (4, c.toNat), (3, p.toNat), (3, wx.toNat), (5, 1)] := by
    simp only [packed]
    clear hF hw; omega
  have hW := packed_word _ rfl hF hE hw
  clear hw
  have e0 := fld_eq (lo := 24) wx hW (packed_at _ hF 4)
  have e1 := fld_eq (lo := 21) p hW (packed_at _ hF 3)
  have e2 := fld_eq (lo := 17) c hW (packed_at _ hF 2)
  have e3 := fld_eq (lo := 0) t hW (packed_at _ hF 0)
  have z4 := nz_false (lo := 12) (len := 5) hW (packed_at _ hF 1)
  have hr : transferRow w = some { instr := some (.xcopy (fld w 24 3) (fld w 21 3) (fld w 17 4) (fld w 0 12)), unused := nz w 12 5 } := by
    unfold transferRow
    rw [fld_num (lo := 27) (len := 5) 1 hW (packed_at _ hF 5)]
    first | done | rfl
  change decodeWord .ld w = _
  refine decode_ok (p := .ld) (hW.trans hE.symm) (by omega) hr ?_
  refine check_ok rfl rfl ?_ rfl rfl rfl ?_
  · simp [e0, e1, e2, e3, z4]
  · simp only [e0, e1, e2, e3, z4]

theorem xcast (wx : BitVec 3) (p : BitVec 2) (c : BitVec 4) (t : BitVec 12) : Statement (.xcast wx p c t) := by
  intro h w hw
  clear h
  have hF : Fits [(12, t.toNat), (5, 0), (4, c.toNat), (2, p.toNat), (1, 0), (3, wx.toNat), (5, 2)] := ⟨t.isLt, of_decide_eq_true rfl, c.isLt, p.isLt, of_decide_eq_true rfl, wx.isLt, of_decide_eq_true rfl, trivial⟩
  have hE : 0x10000000 + wx.toNat * 16777216 + p.toNat * 2097152 + c.toNat * 131072 + t.toNat = packed [(12, t.toNat), (5, 0), (4, c.toNat), (2, p.toNat), (1, 0), (3, wx.toNat), (5, 2)] := by
    simp only [packed]
    clear hF hw; omega
  have hW := packed_word _ rfl hF hE hw
  clear hw
  have e0 := fld_eq (lo := 24) wx hW (packed_at _ hF 5)
  have e1 := fld_eq (lo := 21) p hW (packed_at _ hF 3)
  have e2 := fld_eq (lo := 17) c hW (packed_at _ hF 2)
  have e3 := fld_eq (lo := 0) t hW (packed_at _ hF 0)
  have z4 := nz_false (lo := 12) (len := 5) hW (packed_at _ hF 1)
  have z5 := nz_false (lo := 23) (len := 1) hW (packed_at _ hF 4)
  have hr : transferRow w = some { instr := some (.xcast (fld w 24 3) (fld w 21 2) (fld w 17 4) (fld w 0 12)), unused := nz w 12 5 || nz w 23 1, avail := .store } := by
    unfold transferRow
    rw [fld_num (lo := 27) (len := 5) 2 hW (packed_at _ hF 6)]
    first | done | rfl
  change decodeWord .st w = _
  refine decode_ok (p := .st) (hW.trans hE.symm) (by omega) (congrArg (Option.map _) hr) ?_
  refine check_ok rfl rfl ?_ rfl rfl rfl ?_
  · simp [e0, e1, e2, e3, z4, z5]
  · simp only [e0, e1, e2, e3, z4, z5]

theorem xaddw (wx : BitVec 3) (p : BitVec 3) (c : BitVec 4) (t : BitVec 12) : Statement (.xaddw wx p c t) := by
  intro h w hw
  clear h
  have hF : Fits [(12, t.toNat), (5, 0), (4, c.toNat), (3, p.toNat), (3, wx.toNat), (5, 3)] := ⟨t.isLt, of_decide_eq_true rfl, c.isLt, p.isLt, wx.isLt, of_decide_eq_true rfl, trivial⟩
  have hE : 0x18000000 + wx.toNat * 16777216 + p.toNat * 2097152 + c.toNat * 131072 + t.toNat = packed [(12, t.toNat), (5, 0), (4, c.toNat), (3, p.toNat), (3, wx.toNat), (5, 3)] := by
    simp only [packed]
    clear hF hw; omega
  have hW := packed_word _ rfl hF hE hw
  clear hw
  have e0 := fld_eq (lo := 24) wx hW (packed_at _ hF 4)
  have e1 := fld_eq (lo := 21) p hW (packed_at _ hF 3)
  have e2 := fld_eq (lo := 17) c hW (packed_at _ hF 2)
  have e3 := fld_eq (lo := 0) t hW (packed_at _ hF 0)
  have z4 := nz_false (lo := 12) (len := 5) hW (packed_at _ hF 1)
  have hr : transferRow w = some { instr := some (.xaddw (fld w 24 3) (fld w 21 3) (fld w 17 4) (fld w 0 12)), unused := nz w 12 5, avail := .load } := by
    unfold transferRow
    rw [fld_num (lo := 27) (len := 5) 3 hW (packed_at _ hF 5)]
    first | done | rfl
  change decodeWord .ld w = _
  refine decode_ok (p := .ld) (hW.trans hE.symm) (by omega) hr ?_
  refine check_ok rfl rfl ?_ rfl rfl rfl ?_
  · simp [e0, e1, e2, e3, z4]
  · simp only [e0, e1, e2, e3, z4]

theorem xredAddf32 (wx : BitVec 3) (p : BitVec 2) (c : BitVec 4) (t : BitVec 12) : Statement (.xredAddf32 wx p c t) := by
  intro h w hw
  clear h
  have hF : Fits [(12, t.toNat), (3, 0), (2, 0), (4, c.toNat), (2, p.toNat), (1, 0), (3, wx.toNat), (5, 4)] := ⟨t.isLt, of_decide_eq_true rfl, of_decide_eq_true rfl, c.isLt, p.isLt, of_decide_eq_true rfl, wx.isLt, of_decide_eq_true rfl, trivial⟩
  have hE : 0x20000000 + wx.toNat * 16777216 + p.toNat * 2097152 + c.toNat * 131072 + t.toNat = packed [(12, t.toNat), (3, 0), (2, 0), (4, c.toNat), (2, p.toNat), (1, 0), (3, wx.toNat), (5, 4)] := by
    simp only [packed]
    clear hF hw; omega
  have hW := packed_word _ rfl hF hE hw
  clear hw
  have e0 := fld_eq (lo := 24) wx hW (packed_at _ hF 6)
  have e1 := fld_eq (lo := 21) p hW (packed_at _ hF 4)
  have e2 := fld_eq (lo := 17) c hW (packed_at _ hF 3)
  have e3 := fld_eq (lo := 0) t hW (packed_at _ hF 0)
  have z4 := nz_false (lo := 15) (len := 2) hW (packed_at _ hF 2)
  have z5 := nz_false (lo := 23) (len := 1) hW (packed_at _ hF 5)
  have hr : transferRow w = some { instr := some (.xredAddf32 (fld w 24 3) (fld w 21 2) (fld w 17 4) (fld w 0 12)), unused := nz w 15 2 || nz w 23 1, avail := .store } := by
    unfold transferRow
    rw [fld_num (lo := 27) (len := 5) 4 hW (packed_at _ hF 7)]
    rw [fld_num (lo := 12) (len := 3) 0 hW (packed_at _ hF 1)]
    first | done | rfl
  change decodeWord .st w = _
  refine decode_ok (p := .st) (hW.trans hE.symm) (by omega) (congrArg (Option.map _) hr) ?_
  refine check_ok rfl rfl ?_ rfl rfl rfl ?_
  · simp [e0, e1, e2, e3, z4, z5]
  · simp only [e0, e1, e2, e3, z4, z5]

theorem xredAddi32 (wx : BitVec 3) (p : BitVec 2) (c : BitVec 4) (t : BitVec 12) : Statement (.xredAddi32 wx p c t) := by
  intro h w hw
  clear h
  have hF : Fits [(12, t.toNat), (3, 1), (2, 0), (4, c.toNat), (2, p.toNat), (1, 0), (3, wx.toNat), (5, 4)] := ⟨t.isLt, of_decide_eq_true rfl, of_decide_eq_true rfl, c.isLt, p.isLt, of_decide_eq_true rfl, wx.isLt, of_decide_eq_true rfl, trivial⟩
  have hE : 0x20001000 + wx.toNat * 16777216 + p.toNat * 2097152 + c.toNat * 131072 + t.toNat = packed [(12, t.toNat), (3, 1), (2, 0), (4, c.toNat), (2, p.toNat), (1, 0), (3, wx.toNat), (5, 4)] := by
    simp only [packed]
    clear hF hw; omega
  have hW := packed_word _ rfl hF hE hw
  clear hw
  have e0 := fld_eq (lo := 24) wx hW (packed_at _ hF 6)
  have e1 := fld_eq (lo := 21) p hW (packed_at _ hF 4)
  have e2 := fld_eq (lo := 17) c hW (packed_at _ hF 3)
  have e3 := fld_eq (lo := 0) t hW (packed_at _ hF 0)
  have z4 := nz_false (lo := 15) (len := 2) hW (packed_at _ hF 2)
  have z5 := nz_false (lo := 23) (len := 1) hW (packed_at _ hF 5)
  have hr : transferRow w = some { instr := some (.xredAddi32 (fld w 24 3) (fld w 21 2) (fld w 17 4) (fld w 0 12)), unused := nz w 15 2 || nz w 23 1, avail := .store } := by
    unfold transferRow
    rw [fld_num (lo := 27) (len := 5) 4 hW (packed_at _ hF 7)]
    rw [fld_num (lo := 12) (len := 3) 1 hW (packed_at _ hF 1)]
    first | done | rfl
  change decodeWord .st w = _
  refine decode_ok (p := .st) (hW.trans hE.symm) (by omega) (congrArg (Option.map _) hr) ?_
  refine check_ok rfl rfl ?_ rfl rfl rfl ?_
  · simp [e0, e1, e2, e3, z4, z5]
  · simp only [e0, e1, e2, e3, z4, z5]

theorem xredMaxf32 (wx : BitVec 3) (p : BitVec 2) (c : BitVec 4) (t : BitVec 12) : Statement (.xredMaxf32 wx p c t) := by
  intro h w hw
  clear h
  have hF : Fits [(12, t.toNat), (3, 2), (2, 0), (4, c.toNat), (2, p.toNat), (1, 0), (3, wx.toNat), (5, 4)] := ⟨t.isLt, of_decide_eq_true rfl, of_decide_eq_true rfl, c.isLt, p.isLt, of_decide_eq_true rfl, wx.isLt, of_decide_eq_true rfl, trivial⟩
  have hE : 0x20002000 + wx.toNat * 16777216 + p.toNat * 2097152 + c.toNat * 131072 + t.toNat = packed [(12, t.toNat), (3, 2), (2, 0), (4, c.toNat), (2, p.toNat), (1, 0), (3, wx.toNat), (5, 4)] := by
    simp only [packed]
    clear hF hw; omega
  have hW := packed_word _ rfl hF hE hw
  clear hw
  have e0 := fld_eq (lo := 24) wx hW (packed_at _ hF 6)
  have e1 := fld_eq (lo := 21) p hW (packed_at _ hF 4)
  have e2 := fld_eq (lo := 17) c hW (packed_at _ hF 3)
  have e3 := fld_eq (lo := 0) t hW (packed_at _ hF 0)
  have z4 := nz_false (lo := 15) (len := 2) hW (packed_at _ hF 2)
  have z5 := nz_false (lo := 23) (len := 1) hW (packed_at _ hF 5)
  have hr : transferRow w = some { instr := some (.xredMaxf32 (fld w 24 3) (fld w 21 2) (fld w 17 4) (fld w 0 12)), unused := nz w 15 2 || nz w 23 1, avail := .store } := by
    unfold transferRow
    rw [fld_num (lo := 27) (len := 5) 4 hW (packed_at _ hF 7)]
    rw [fld_num (lo := 12) (len := 3) 2 hW (packed_at _ hF 1)]
    first | done | rfl
  change decodeWord .st w = _
  refine decode_ok (p := .st) (hW.trans hE.symm) (by omega) (congrArg (Option.map _) hr) ?_
  refine check_ok rfl rfl ?_ rfl rfl rfl ?_
  · simp [e0, e1, e2, e3, z4, z5]
  · simp only [e0, e1, e2, e3, z4, z5]

theorem xredMinf32 (wx : BitVec 3) (p : BitVec 2) (c : BitVec 4) (t : BitVec 12) : Statement (.xredMinf32 wx p c t) := by
  intro h w hw
  clear h
  have hF : Fits [(12, t.toNat), (3, 3), (2, 0), (4, c.toNat), (2, p.toNat), (1, 0), (3, wx.toNat), (5, 4)] := ⟨t.isLt, of_decide_eq_true rfl, of_decide_eq_true rfl, c.isLt, p.isLt, of_decide_eq_true rfl, wx.isLt, of_decide_eq_true rfl, trivial⟩
  have hE : 0x20003000 + wx.toNat * 16777216 + p.toNat * 2097152 + c.toNat * 131072 + t.toNat = packed [(12, t.toNat), (3, 3), (2, 0), (4, c.toNat), (2, p.toNat), (1, 0), (3, wx.toNat), (5, 4)] := by
    simp only [packed]
    clear hF hw; omega
  have hW := packed_word _ rfl hF hE hw
  clear hw
  have e0 := fld_eq (lo := 24) wx hW (packed_at _ hF 6)
  have e1 := fld_eq (lo := 21) p hW (packed_at _ hF 4)
  have e2 := fld_eq (lo := 17) c hW (packed_at _ hF 3)
  have e3 := fld_eq (lo := 0) t hW (packed_at _ hF 0)
  have z4 := nz_false (lo := 15) (len := 2) hW (packed_at _ hF 2)
  have z5 := nz_false (lo := 23) (len := 1) hW (packed_at _ hF 5)
  have hr : transferRow w = some { instr := some (.xredMinf32 (fld w 24 3) (fld w 21 2) (fld w 17 4) (fld w 0 12)), unused := nz w 15 2 || nz w 23 1, avail := .store } := by
    unfold transferRow
    rw [fld_num (lo := 27) (len := 5) 4 hW (packed_at _ hF 7)]
    rw [fld_num (lo := 12) (len := 3) 3 hW (packed_at _ hF 1)]
    first | done | rfl
  change decodeWord .st w = _
  refine decode_ok (p := .st) (hW.trans hE.symm) (by omega) (congrArg (Option.map _) hr) ?_
  refine check_ok rfl rfl ?_ rfl rfl rfl ?_
  · simp [e0, e1, e2, e3, z4, z5]
  · simp only [e0, e1, e2, e3, z4, z5]

theorem xredMaxi32 (wx : BitVec 3) (p : BitVec 2) (c : BitVec 4) (t : BitVec 12) : Statement (.xredMaxi32 wx p c t) := by
  intro h w hw
  clear h
  have hF : Fits [(12, t.toNat), (3, 4), (2, 0), (4, c.toNat), (2, p.toNat), (1, 0), (3, wx.toNat), (5, 4)] := ⟨t.isLt, of_decide_eq_true rfl, of_decide_eq_true rfl, c.isLt, p.isLt, of_decide_eq_true rfl, wx.isLt, of_decide_eq_true rfl, trivial⟩
  have hE : 0x20004000 + wx.toNat * 16777216 + p.toNat * 2097152 + c.toNat * 131072 + t.toNat = packed [(12, t.toNat), (3, 4), (2, 0), (4, c.toNat), (2, p.toNat), (1, 0), (3, wx.toNat), (5, 4)] := by
    simp only [packed]
    clear hF hw; omega
  have hW := packed_word _ rfl hF hE hw
  clear hw
  have e0 := fld_eq (lo := 24) wx hW (packed_at _ hF 6)
  have e1 := fld_eq (lo := 21) p hW (packed_at _ hF 4)
  have e2 := fld_eq (lo := 17) c hW (packed_at _ hF 3)
  have e3 := fld_eq (lo := 0) t hW (packed_at _ hF 0)
  have z4 := nz_false (lo := 15) (len := 2) hW (packed_at _ hF 2)
  have z5 := nz_false (lo := 23) (len := 1) hW (packed_at _ hF 5)
  have hr : transferRow w = some { instr := some (.xredMaxi32 (fld w 24 3) (fld w 21 2) (fld w 17 4) (fld w 0 12)), unused := nz w 15 2 || nz w 23 1, avail := .store } := by
    unfold transferRow
    rw [fld_num (lo := 27) (len := 5) 4 hW (packed_at _ hF 7)]
    rw [fld_num (lo := 12) (len := 3) 4 hW (packed_at _ hF 1)]
    first | done | rfl
  change decodeWord .st w = _
  refine decode_ok (p := .st) (hW.trans hE.symm) (by omega) (congrArg (Option.map _) hr) ?_
  refine check_ok rfl rfl ?_ rfl rfl rfl ?_
  · simp [e0, e1, e2, e3, z4, z5]
  · simp only [e0, e1, e2, e3, z4, z5]

theorem xredMini32 (wx : BitVec 3) (p : BitVec 2) (c : BitVec 4) (t : BitVec 12) : Statement (.xredMini32 wx p c t) := by
  intro h w hw
  clear h
  have hF : Fits [(12, t.toNat), (3, 5), (2, 0), (4, c.toNat), (2, p.toNat), (1, 0), (3, wx.toNat), (5, 4)] := ⟨t.isLt, of_decide_eq_true rfl, of_decide_eq_true rfl, c.isLt, p.isLt, of_decide_eq_true rfl, wx.isLt, of_decide_eq_true rfl, trivial⟩
  have hE : 0x20005000 + wx.toNat * 16777216 + p.toNat * 2097152 + c.toNat * 131072 + t.toNat = packed [(12, t.toNat), (3, 5), (2, 0), (4, c.toNat), (2, p.toNat), (1, 0), (3, wx.toNat), (5, 4)] := by
    simp only [packed]
    clear hF hw; omega
  have hW := packed_word _ rfl hF hE hw
  clear hw
  have e0 := fld_eq (lo := 24) wx hW (packed_at _ hF 6)
  have e1 := fld_eq (lo := 21) p hW (packed_at _ hF 4)
  have e2 := fld_eq (lo := 17) c hW (packed_at _ hF 3)
  have e3 := fld_eq (lo := 0) t hW (packed_at _ hF 0)
  have z4 := nz_false (lo := 15) (len := 2) hW (packed_at _ hF 2)
  have z5 := nz_false (lo := 23) (len := 1) hW (packed_at _ hF 5)
  have hr : transferRow w = some { instr := some (.xredMini32 (fld w 24 3) (fld w 21 2) (fld w 17 4) (fld w 0 12)), unused := nz w 15 2 || nz w 23 1, avail := .store } := by
    unfold transferRow
    rw [fld_num (lo := 27) (len := 5) 4 hW (packed_at _ hF 7)]
    rw [fld_num (lo := 12) (len := 3) 5 hW (packed_at _ hF 1)]
    first | done | rfl
  change decodeWord .st w = _
  refine decode_ok (p := .st) (hW.trans hE.symm) (by omega) (congrArg (Option.map _) hr) ?_
  refine check_ok rfl rfl ?_ rfl rfl rfl ?_
  · simp [e0, e1, e2, e3, z4, z5]
  · simp only [e0, e1, e2, e3, z4, z5]

theorem xgath (wx : BitVec 3) (p : BitVec 3) (c : BitVec 4) (t : BitVec 12) : Statement (.xgath wx p c t) := by
  intro h w hw
  clear h
  have hF : Fits [(12, t.toNat), (5, 0), (4, c.toNat), (3, p.toNat), (3, wx.toNat), (5, 5)] := ⟨t.isLt, of_decide_eq_true rfl, c.isLt, p.isLt, wx.isLt, of_decide_eq_true rfl, trivial⟩
  have hE : 0x28000000 + wx.toNat * 16777216 + p.toNat * 2097152 + c.toNat * 131072 + t.toNat = packed [(12, t.toNat), (5, 0), (4, c.toNat), (3, p.toNat), (3, wx.toNat), (5, 5)] := by
    simp only [packed]
    clear hF hw; omega
  have hW := packed_word _ rfl hF hE hw
  clear hw
  have e0 := fld_eq (lo := 24) wx hW (packed_at _ hF 4)
  have e1 := fld_eq (lo := 21) p hW (packed_at _ hF 3)
  have e2 := fld_eq (lo := 17) c hW (packed_at _ hF 2)
  have e3 := fld_eq (lo := 0) t hW (packed_at _ hF 0)
  have z4 := nz_false (lo := 12) (len := 5) hW (packed_at _ hF 1)
  have hr : transferRow w = some { instr := some (.xgath (fld w 24 3) (fld w 21 3) (fld w 17 4) (fld w 0 12)), unused := nz w 12 5 } := by
    unfold transferRow
    rw [fld_num (lo := 27) (len := 5) 5 hW (packed_at _ hF 5)]
    first | done | rfl
  change decodeWord .ld w = _
  refine decode_ok (p := .ld) (hW.trans hE.symm) (by omega) hr ?_
  refine check_ok rfl rfl ?_ rfl rfl rfl ?_
  · simp [e0, e1, e2, e3, z4]
  · simp only [e0, e1, e2, e3, z4]

theorem xscat (wx : BitVec 3) (p : BitVec 3) (c : BitVec 4) (t : BitVec 12) : Statement (.xscat wx p c t) := by
  intro h w hw
  clear h
  have hF : Fits [(12, t.toNat), (5, 0), (4, c.toNat), (3, p.toNat), (3, wx.toNat), (5, 6)] := ⟨t.isLt, of_decide_eq_true rfl, c.isLt, p.isLt, wx.isLt, of_decide_eq_true rfl, trivial⟩
  have hE : 0x30000000 + wx.toNat * 16777216 + p.toNat * 2097152 + c.toNat * 131072 + t.toNat = packed [(12, t.toNat), (5, 0), (4, c.toNat), (3, p.toNat), (3, wx.toNat), (5, 6)] := by
    simp only [packed]
    clear hF hw; omega
  have hW := packed_word _ rfl hF hE hw
  clear hw
  have e0 := fld_eq (lo := 24) wx hW (packed_at _ hF 4)
  have e1 := fld_eq (lo := 21) p hW (packed_at _ hF 3)
  have e2 := fld_eq (lo := 17) c hW (packed_at _ hF 2)
  have e3 := fld_eq (lo := 0) t hW (packed_at _ hF 0)
  have z4 := nz_false (lo := 12) (len := 5) hW (packed_at _ hF 1)
  have hr : transferRow w = some { instr := some (.xscat (fld w 24 3) (fld w 21 3) (fld w 17 4) (fld w 0 12)), unused := nz w 12 5 } := by
    unfold transferRow
    rw [fld_num (lo := 27) (len := 5) 6 hW (packed_at _ hF 5)]
    first | done | rfl
  change decodeWord .ld w = _
  refine decode_ok (p := .ld) (hW.trans hE.symm) (by omega) hr ?_
  refine check_ok rfl rfl ?_ rfl rfl rfl ?_
  · simp [e0, e1, e2, e3, z4]
  · simp only [e0, e1, e2, e3, z4]

theorem xconv (wx : BitVec 3) (p : BitVec 3) (c : BitVec 4) (t : BitVec 12) : Statement (.xconv wx p c t) := by
  intro h w hw
  clear h
  have hF : Fits [(12, t.toNat), (5, 0), (4, c.toNat), (3, p.toNat), (3, wx.toNat), (5, 7)] := ⟨t.isLt, of_decide_eq_true rfl, c.isLt, p.isLt, wx.isLt, of_decide_eq_true rfl, trivial⟩
  have hE : 0x38000000 + wx.toNat * 16777216 + p.toNat * 2097152 + c.toNat * 131072 + t.toNat = packed [(12, t.toNat), (5, 0), (4, c.toNat), (3, p.toNat), (3, wx.toNat), (5, 7)] := by
    simp only [packed]
    clear hF hw; omega
  have hW := packed_word _ rfl hF hE hw
  clear hw
  have e0 := fld_eq (lo := 24) wx hW (packed_at _ hF 4)
  have e1 := fld_eq (lo := 21) p hW (packed_at _ hF 3)
  have e2 := fld_eq (lo := 17) c hW (packed_at _ hF 2)
  have e3 := fld_eq (lo := 0) t hW (packed_at _ hF 0)
  have z4 := nz_false (lo := 12) (len := 5) hW (packed_at _ hF 1)
  have hr : transferRow w = some { instr := some (.xconv (fld w 24 3) (fld w 21 3) (fld w 17 4) (fld w 0 12)), unused := nz w 12 5 } := by
    unfold transferRow
    rw [fld_num (lo := 27) (len := 5) 7 hW (packed_at _ hF 5)]
    first | done | rfl
  change decodeWord .ld w = _
  refine decode_ok (p := .ld) (hW.trans hE.symm) (by omega) hr ?_
  refine check_ok rfl rfl ?_ rfl rfl rfl ?_
  · simp [e0, e1, e2, e3, z4]
  · simp only [e0, e1, e2, e3, z4]

theorem xfill (wx : BitVec 3) (p : BitVec 3) (c : BitVec 4) (t : BitVec 12) : Statement (.xfill wx p c t) := by
  intro h w hw
  clear h
  have hF : Fits [(12, t.toNat), (5, 0), (4, c.toNat), (3, p.toNat), (3, wx.toNat), (5, 8)] := ⟨t.isLt, of_decide_eq_true rfl, c.isLt, p.isLt, wx.isLt, of_decide_eq_true rfl, trivial⟩
  have hE : 0x40000000 + wx.toNat * 16777216 + p.toNat * 2097152 + c.toNat * 131072 + t.toNat = packed [(12, t.toNat), (5, 0), (4, c.toNat), (3, p.toNat), (3, wx.toNat), (5, 8)] := by
    simp only [packed]
    clear hF hw; omega
  have hW := packed_word _ rfl hF hE hw
  clear hw
  have e0 := fld_eq (lo := 24) wx hW (packed_at _ hF 4)
  have e1 := fld_eq (lo := 21) p hW (packed_at _ hF 3)
  have e2 := fld_eq (lo := 17) c hW (packed_at _ hF 2)
  have e3 := fld_eq (lo := 0) t hW (packed_at _ hF 0)
  have z4 := nz_false (lo := 12) (len := 5) hW (packed_at _ hF 1)
  have hr : transferRow w = some { instr := some (.xfill (fld w 24 3) (fld w 21 3) (fld w 17 4) (fld w 0 12)), unused := nz w 12 5 } := by
    unfold transferRow
    rw [fld_num (lo := 27) (len := 5) 8 hW (packed_at _ hF 5)]
    first | done | rfl
  change decodeWord .ld w = _
  refine decode_ok (p := .ld) (hW.trans hE.symm) (by omega) hr ?_
  refine check_ok rfl rfl ?_ rfl rfl rfl ?_
  · simp [e0, e1, e2, e3, z4]
  · simp only [e0, e1, e2, e3, z4]

theorem xord (wx : BitVec 3) (p : BitVec 3) (t : BitVec 12) : Statement (.xord wx p t) := by
  intro h w hw
  clear h
  have hF : Fits [(12, t.toNat), (9, 0), (3, p.toNat), (3, wx.toNat), (5, 9)] := ⟨t.isLt, of_decide_eq_true rfl, p.isLt, wx.isLt, of_decide_eq_true rfl, trivial⟩
  have hE : 0x48000000 + wx.toNat * 16777216 + p.toNat * 2097152 + t.toNat = packed [(12, t.toNat), (9, 0), (3, p.toNat), (3, wx.toNat), (5, 9)] := by
    simp only [packed]
    clear hF hw; omega
  have hW := packed_word _ rfl hF hE hw
  clear hw
  have e0 := fld_eq (lo := 24) wx hW (packed_at _ hF 3)
  have e1 := fld_eq (lo := 21) p hW (packed_at _ hF 2)
  have e2 := fld_eq (lo := 0) t hW (packed_at _ hF 0)
  have z3 := nz_false (lo := 12) (len := 9) hW (packed_at _ hF 1)
  have hr : transferRow w = some { instr := some (.xord (fld w 24 3) (fld w 21 3) (fld w 0 12)), unused := nz w 12 9 } := by
    unfold transferRow
    rw [fld_num (lo := 27) (len := 5) 9 hW (packed_at _ hF 4)]
    first | done | rfl
  change decodeWord .ld w = _
  refine decode_ok (p := .ld) (hW.trans hE.symm) (by omega) hr ?_
  refine check_ok rfl rfl ?_ rfl rfl rfl ?_
  · simp [e0, e1, e2, z3]
  · simp only [e0, e1, e2, z3]

theorem xnop (wx : BitVec 3) (p : BitVec 3) (t : BitVec 12) : Statement (.xnop wx p t) := by
  intro h w hw
  clear h
  have hF : Fits [(12, t.toNat), (9, 0), (3, p.toNat), (3, wx.toNat), (5, 10)] := ⟨t.isLt, of_decide_eq_true rfl, p.isLt, wx.isLt, of_decide_eq_true rfl, trivial⟩
  have hE : 0x50000000 + wx.toNat * 16777216 + p.toNat * 2097152 + t.toNat = packed [(12, t.toNat), (9, 0), (3, p.toNat), (3, wx.toNat), (5, 10)] := by
    simp only [packed]
    clear hF hw; omega
  have hW := packed_word _ rfl hF hE hw
  clear hw
  have e0 := fld_eq (lo := 24) wx hW (packed_at _ hF 3)
  have e1 := fld_eq (lo := 21) p hW (packed_at _ hF 2)
  have e2 := fld_eq (lo := 0) t hW (packed_at _ hF 0)
  have z3 := nz_false (lo := 12) (len := 9) hW (packed_at _ hF 1)
  have hr : transferRow w = some { instr := some (.xnop (fld w 24 3) (fld w 21 3) (fld w 0 12)), unused := nz w 12 9 } := by
    unfold transferRow
    rw [fld_num (lo := 27) (len := 5) 10 hW (packed_at _ hF 4)]
    first | done | rfl
  change decodeWord .ld w = _
  refine decode_ok (p := .ld) (hW.trans hE.symm) (by omega) hr ?_
  refine check_ok rfl rfl ?_ rfl rfl rfl ?_
  · simp [e0, e1, e2, z3]
  · simp only [e0, e1, e2, z3]

theorem idle (n : BitVec 28) : Statement (.idle n) := by
  intro h w hw
  change (n != 0) = true at h
  try simp at h
  have hne : n.toNat ≠ 0 := fun e => h (BitVec.eq_of_toNat_eq e)
  have hF : Fits [(28, n.toNat), (4, 0)] := ⟨n.isLt, of_decide_eq_true rfl, trivial⟩
  have hE : n.toNat = packed [(28, n.toNat), (4, 0)] := by
    simp only [packed]
    clear hF hw; omega
  have hW := packed_word _ rfl hF hE hw
  clear hw
  have e0 := fld_eq (lo := 0) n hW (packed_at _ hF 0)
  have hr : lathRow w = some { instr := some (.idle (fld w 0 28)) } := by
    unfold lathRow
    rw [fld_num (lo := 28) (len := 4) 0 hW (packed_at _ hF 1)]
    first | done | rfl
  change decodeWord (.lath .gather) w = _
  refine decode_ok (p := (.lath .gather)) (hW.trans hE.symm) (by omega) hr ?_
  refine check_ok rfl rfl rfl rfl rfl rfl ?_
  · simp only [e0]

theorem lswap  : Statement (.lswap) := by
  intro h w hw
  clear h
  have hF : Fits [(28, 0), (4, 1)] := ⟨of_decide_eq_true rfl, of_decide_eq_true rfl, trivial⟩
  have hE : 0x10000000 = packed [(28, 0), (4, 1)] := by
    simp only [packed]
    clear hF hw; omega
  have hW := packed_word _ rfl hF hE hw
  clear hw
  have z0 := nz_false (lo := 0) (len := 28) hW (packed_at _ hF 0)
  have hr : lathRow w = some { instr := some (.lswap), unused := nz w 0 28 } := by
    unfold lathRow
    rw [fld_num (lo := 28) (len := 4) 1 hW (packed_at _ hF 1)]
    first | done | rfl
  change decodeWord (.lath .gather) w = _
  refine decode_ok (p := (.lath .gather)) (hW.trans hE.symm) (by omega) hr ?_
  refine check_ok rfl rfl ?_ rfl rfl rfl ?_
  · simp [z0]
  · simp only [z0]

theorem lckpt (n : BitVec 8) : Statement (.lckpt n) := by
  intro h w hw
  clear h
  have hF : Fits [(8, n.toNat), (20, 0), (4, 2)] := ⟨n.isLt, of_decide_eq_true rfl, of_decide_eq_true rfl, trivial⟩
  have hE : 0x20000000 + n.toNat = packed [(8, n.toNat), (20, 0), (4, 2)] := by
    simp only [packed]
    clear hF hw; omega
  have hW := packed_word _ rfl hF hE hw
  clear hw
  have e0 := fld_eq (lo := 0) n hW (packed_at _ hF 0)
  have z1 := nz_false (lo := 8) (len := 20) hW (packed_at _ hF 1)
  have hr : lathRow w = some { instr := some (.lckpt (fld w 0 8)), unused := nz w 8 20 } := by
    unfold lathRow
    rw [fld_num (lo := 28) (len := 4) 2 hW (packed_at _ hF 2)]
    first | done | rfl
  change decodeWord (.lath .gather) w = _
  refine decode_ok (p := (.lath .gather)) (hW.trans hE.symm) (by omega) hr ?_
  refine check_ok rfl rfl ?_ rfl rfl rfl ?_
  · simp [e0, z1]
  · simp only [e0, z1]

theorem lgath (sz : BitVec 4) (im : BitVec 2) (o : BitVec 2) : Statement (.lgath sz im o) := by
  intro h w hw
  clear h
  have hF : Fits [(16, 0), (2, o.toNat), (2, im.toNat), (4, sz.toNat), (4, 0), (4, 8)] := ⟨of_decide_eq_true rfl, o.isLt, im.isLt, sz.isLt, of_decide_eq_true rfl, of_decide_eq_true rfl, trivial⟩
  have hE : 0x80000000 + sz.toNat * 1048576 + im.toNat * 262144 + o.toNat * 65536 = packed [(16, 0), (2, o.toNat), (2, im.toNat), (4, sz.toNat), (4, 0), (4, 8)] := by
    simp only [packed]
    clear hF hw; omega
  have hW := packed_word _ rfl hF hE hw
  clear hw
  have e0 := fld_eq (lo := 20) sz hW (packed_at _ hF 3)
  have e1 := fld_eq (lo := 18) im hW (packed_at _ hF 2)
  have e2 := fld_eq (lo := 16) o hW (packed_at _ hF 1)
  have z3 := nz_false (lo := 0) (len := 16) hW (packed_at _ hF 0)
  have hr : lathRow w = some { instr := some (.lgath (fld w 20 4) (fld w 18 2) (fld w 16 2)), unused := nz w 0 16, avail := .lath .gather } := by
    unfold lathRow
    rw [fld_num (lo := 28) (len := 4) 8 hW (packed_at _ hF 5)]
    rw [fld_num (lo := 24) (len := 4) 0 hW (packed_at _ hF 4)]
    first | done | rfl
  change decodeWord (.lath .gather) w = _
  refine decode_ok (p := (.lath .gather)) (hW.trans hE.symm) (by omega) hr ?_
  refine check_ok rfl rfl ?_ rfl rfl rfl ?_
  · simp [e0, e1, e2, z3]
  · simp only [e0, e1, e2, z3]

theorem lsort (sz : BitVec 4) (im : BitVec 2) (o : BitVec 2) : Statement (.lsort sz im o) := by
  intro h w hw
  clear h
  have hF : Fits [(16, 0), (2, o.toNat), (2, im.toNat), (4, sz.toNat), (4, 0), (4, 9)] := ⟨of_decide_eq_true rfl, o.isLt, im.isLt, sz.isLt, of_decide_eq_true rfl, of_decide_eq_true rfl, trivial⟩
  have hE : 0x90000000 + sz.toNat * 1048576 + im.toNat * 262144 + o.toNat * 65536 = packed [(16, 0), (2, o.toNat), (2, im.toNat), (4, sz.toNat), (4, 0), (4, 9)] := by
    simp only [packed]
    clear hF hw; omega
  have hW := packed_word _ rfl hF hE hw
  clear hw
  have e0 := fld_eq (lo := 20) sz hW (packed_at _ hF 3)
  have e1 := fld_eq (lo := 18) im hW (packed_at _ hF 2)
  have e2 := fld_eq (lo := 16) o hW (packed_at _ hF 1)
  have z3 := nz_false (lo := 0) (len := 16) hW (packed_at _ hF 0)
  have hr : lathRow w = some { instr := some (.lsort (fld w 20 4) (fld w 18 2) (fld w 16 2)), unused := nz w 0 16, avail := .lath .sort } := by
    unfold lathRow
    rw [fld_num (lo := 28) (len := 4) 9 hW (packed_at _ hF 5)]
    rw [fld_num (lo := 24) (len := 4) 0 hW (packed_at _ hF 4)]
    first | done | rfl
  change decodeWord (.lath .sort) w = _
  refine decode_ok (p := (.lath .sort)) (hW.trans hE.symm) (by omega) hr ?_
  refine check_ok rfl rfl ?_ rfl rfl rfl ?_
  · simp [e0, e1, e2, z3]
  · simp only [e0, e1, e2, z3]

theorem lmerge (sz : BitVec 4) (im : BitVec 2) (o : BitVec 2) (j : BitVec 2) : Statement (.lmerge sz im o j) := by
  intro h w hw
  change (im != j) = true at h
  try simp at h
  have hF : Fits [(14, 0), (2, j.toNat), (2, o.toNat), (2, im.toNat), (4, sz.toNat), (4, 1), (4, 9)] := ⟨of_decide_eq_true rfl, j.isLt, o.isLt, im.isLt, sz.isLt, of_decide_eq_true rfl, of_decide_eq_true rfl, trivial⟩
  have hE : 0x91000000 + sz.toNat * 1048576 + im.toNat * 262144 + o.toNat * 65536 + j.toNat * 16384 = packed [(14, 0), (2, j.toNat), (2, o.toNat), (2, im.toNat), (4, sz.toNat), (4, 1), (4, 9)] := by
    simp only [packed]
    clear hF hw; omega
  have hW := packed_word _ rfl hF hE hw
  clear hw
  have e0 := fld_eq (lo := 20) sz hW (packed_at _ hF 4)
  have e1 := fld_eq (lo := 18) im hW (packed_at _ hF 3)
  have e2 := fld_eq (lo := 16) o hW (packed_at _ hF 2)
  have e3 := fld_eq (lo := 14) j hW (packed_at _ hF 1)
  have z4 := nz_false (lo := 0) (len := 14) hW (packed_at _ hF 0)
  have hr : lathRow w = some { instr := some (.lmerge (fld w 20 4) (fld w 18 2) (fld w 16 2) (fld w 14 2)), unused := nz w 0 14, range := fld w 18 2 == fld w 14 2, avail := .lath .sort } := by
    unfold lathRow
    rw [fld_num (lo := 28) (len := 4) 9 hW (packed_at _ hF 6)]
    rw [fld_num (lo := 24) (len := 4) 1 hW (packed_at _ hF 5)]
    first | done | rfl
  change decodeWord (.lath .sort) w = _
  refine decode_ok (p := (.lath .sort)) (hW.trans hE.symm) (by omega) hr ?_
  refine check_ok rfl rfl ?_ ?_ rfl rfl ?_
  · simp [e0, e1, e2, e3, z4, h]
  · simp [e0, e1, e2, e3, z4, h]
  · simp only [e0, e1, e2, e3, z4]

theorem lroute (sz : BitVec 4) (im : BitVec 2) (m : BitVec 4) : Statement (.lroute sz im m) := by
  intro h w hw
  change (m != 0) = true at h
  try simp at h
  have hF : Fits [(12, 0), (4, m.toNat), (2, 0), (2, im.toNat), (4, sz.toNat), (4, 0), (4, 10)] := ⟨of_decide_eq_true rfl, m.isLt, of_decide_eq_true rfl, im.isLt, sz.isLt, of_decide_eq_true rfl, of_decide_eq_true rfl, trivial⟩
  have hE : 0xa0000000 + sz.toNat * 1048576 + im.toNat * 262144 + m.toNat * 4096 = packed [(12, 0), (4, m.toNat), (2, 0), (2, im.toNat), (4, sz.toNat), (4, 0), (4, 10)] := by
    simp only [packed]
    clear hF hw; omega
  have hW := packed_word _ rfl hF hE hw
  clear hw
  have e0 := fld_eq (lo := 20) sz hW (packed_at _ hF 4)
  have e1 := fld_eq (lo := 18) im hW (packed_at _ hF 3)
  have e2 := fld_eq (lo := 12) m hW (packed_at _ hF 1)
  have z3 := nz_false (lo := 0) (len := 12) hW (packed_at _ hF 0)
  have z4 := nz_false (lo := 16) (len := 2) hW (packed_at _ hF 2)
  have hN := hW.trans hE.symm
  have hb0 := sz.isLt
  have hb1 := im.isLt
  have hb2 := m.isLt
  have z5 := nz_true (lo := 12) (len := 4) hN (by first | omega | (simp only [BitVec.toNat_eq] at h; simp at h; omega))
  have hr : lathRow w = some { instr := some (.lroute (fld w 20 4) (fld w 18 2) (fld w 12 4)), unused := nz w 0 12 || nz w 16 2, range := !nz w 12 4, avail := .lath .route } := by
    unfold lathRow
    rw [fld_num (lo := 28) (len := 4) 10 hW (packed_at _ hF 6)]
    rw [fld_num (lo := 24) (len := 4) 0 hW (packed_at _ hF 5)]
    first | done | rfl
  change decodeWord (.lath .route) w = _
  refine decode_ok (p := (.lath .route)) (hW.trans hE.symm) (by omega) hr ?_
  refine check_ok rfl rfl ?_ ?_ rfl rfl ?_
  · simp [e0, e1, e2, z3, z4, z5]
  · simp [e0, e1, e2, z3, z4, z5]
  · simp only [e0, e1, e2, z3, z4, z5]

theorem ltopk (sz : BitVec 4) (im : BitVec 2) (o : BitVec 2) : Statement (.ltopk sz im o) := by
  intro h w hw
  clear h
  have hF : Fits [(16, 0), (2, o.toNat), (2, im.toNat), (4, sz.toNat), (4, 1), (4, 10)] := ⟨of_decide_eq_true rfl, o.isLt, im.isLt, sz.isLt, of_decide_eq_true rfl, of_decide_eq_true rfl, trivial⟩
  have hE : 0xa1000000 + sz.toNat * 1048576 + im.toNat * 262144 + o.toNat * 65536 = packed [(16, 0), (2, o.toNat), (2, im.toNat), (4, sz.toNat), (4, 1), (4, 10)] := by
    simp only [packed]
    clear hF hw; omega
  have hW := packed_word _ rfl hF hE hw
  clear hw
  have e0 := fld_eq (lo := 20) sz hW (packed_at _ hF 3)
  have e1 := fld_eq (lo := 18) im hW (packed_at _ hF 2)
  have e2 := fld_eq (lo := 16) o hW (packed_at _ hF 1)
  have z3 := nz_false (lo := 0) (len := 16) hW (packed_at _ hF 0)
  have hr : lathRow w = some { instr := some (.ltopk (fld w 20 4) (fld w 18 2) (fld w 16 2)), unused := nz w 0 16, avail := .lath .route } := by
    unfold lathRow
    rw [fld_num (lo := 28) (len := 4) 10 hW (packed_at _ hF 5)]
    rw [fld_num (lo := 24) (len := 4) 1 hW (packed_at _ hF 4)]
    first | done | rfl
  change decodeWord (.lath .route) w = _
  refine decode_ok (p := (.lath .route)) (hW.trans hE.symm) (by omega) hr ?_
  refine check_ok rfl rfl ?_ rfl rfl rfl ?_
  · simp [e0, e1, e2, z3]
  · simp only [e0, e1, e2, z3]

theorem hprobe (im : BitVec 2) (o : BitVec 2) (f : BitVec 6) : Statement (.hprobe im o f) := by
  intro h w hw
  clear h
  have hF : Fits [(6, f.toNat), (10, 0), (2, o.toNat), (2, im.toNat), (4, 0), (4, 0), (4, 11)] := ⟨f.isLt, of_decide_eq_true rfl, o.isLt, im.isLt, of_decide_eq_true rfl, of_decide_eq_true rfl, of_decide_eq_true rfl, trivial⟩
  have hE : 0xb0000000 + im.toNat * 262144 + o.toNat * 65536 + f.toNat = packed [(6, f.toNat), (10, 0), (2, o.toNat), (2, im.toNat), (4, 0), (4, 0), (4, 11)] := by
    simp only [packed]
    clear hF hw; omega
  have hW := packed_word _ rfl hF hE hw
  clear hw
  have e0 := fld_eq (lo := 18) im hW (packed_at _ hF 3)
  have e1 := fld_eq (lo := 16) o hW (packed_at _ hF 2)
  have e2 := fld_eq (lo := 0) f hW (packed_at _ hF 0)
  have z3 := nz_false (lo := 20) (len := 4) hW (packed_at _ hF 4)
  have z4 := nz_false (lo := 6) (len := 10) hW (packed_at _ hF 1)
  have hr : lathRow w = some { instr := some (.hprobe (fld w 18 2) (fld w 16 2) (fld w 0 6)), unused := nz w 6 10 || nz w 20 4, avail := .lath .hash } := by
    unfold lathRow
    rw [fld_num (lo := 28) (len := 4) 11 hW (packed_at _ hF 6)]
    rw [fld_num (lo := 24) (len := 4) 0 hW (packed_at _ hF 5)]
    first | done | rfl
  change decodeWord (.lath .hash) w = _
  refine decode_ok (p := (.lath .hash)) (hW.trans hE.symm) (by omega) hr ?_
  refine check_ok rfl rfl ?_ rfl rfl rfl ?_
  · simp [e0, e1, e2, z3, z4]
  · simp only [e0, e1, e2, z3, z4]

theorem hins (im : BitVec 2) (f : BitVec 6) : Statement (.hins im f) := by
  intro h w hw
  clear h
  have hF : Fits [(6, f.toNat), (12, 0), (2, im.toNat), (4, 0), (4, 1), (4, 11)] := ⟨f.isLt, of_decide_eq_true rfl, im.isLt, of_decide_eq_true rfl, of_decide_eq_true rfl, of_decide_eq_true rfl, trivial⟩
  have hE : 0xb1000000 + im.toNat * 262144 + f.toNat = packed [(6, f.toNat), (12, 0), (2, im.toNat), (4, 0), (4, 1), (4, 11)] := by
    simp only [packed]
    clear hF hw; omega
  have hW := packed_word _ rfl hF hE hw
  clear hw
  have e0 := fld_eq (lo := 18) im hW (packed_at _ hF 2)
  have e1 := fld_eq (lo := 0) f hW (packed_at _ hF 0)
  have z2 := nz_false (lo := 20) (len := 4) hW (packed_at _ hF 3)
  have z3 := nz_false (lo := 6) (len := 12) hW (packed_at _ hF 1)
  have hr : lathRow w = some { instr := some (.hins (fld w 18 2) (fld w 0 6)), unused := nz w 6 12 || nz w 20 4, avail := .lath .hash } := by
    unfold lathRow
    rw [fld_num (lo := 28) (len := 4) 11 hW (packed_at _ hF 5)]
    rw [fld_num (lo := 24) (len := 4) 1 hW (packed_at _ hF 4)]
    first | done | rfl
  change decodeWord (.lath .hash) w = _
  refine decode_ok (p := (.lath .hash)) (hW.trans hE.symm) (by omega) hr ?_
  refine check_ok rfl rfl ?_ rfl rfl rfl ?_
  · simp [e0, e1, z2, z3]
  · simp only [e0, e1, z2, z3]

theorem hdel (im : BitVec 2) (f : BitVec 6) : Statement (.hdel im f) := by
  intro h w hw
  clear h
  have hF : Fits [(6, f.toNat), (12, 0), (2, im.toNat), (4, 0), (4, 2), (4, 11)] := ⟨f.isLt, of_decide_eq_true rfl, im.isLt, of_decide_eq_true rfl, of_decide_eq_true rfl, of_decide_eq_true rfl, trivial⟩
  have hE : 0xb2000000 + im.toNat * 262144 + f.toNat = packed [(6, f.toNat), (12, 0), (2, im.toNat), (4, 0), (4, 2), (4, 11)] := by
    simp only [packed]
    clear hF hw; omega
  have hW := packed_word _ rfl hF hE hw
  clear hw
  have e0 := fld_eq (lo := 18) im hW (packed_at _ hF 2)
  have e1 := fld_eq (lo := 0) f hW (packed_at _ hF 0)
  have z2 := nz_false (lo := 20) (len := 4) hW (packed_at _ hF 3)
  have z3 := nz_false (lo := 6) (len := 12) hW (packed_at _ hF 1)
  have hr : lathRow w = some { instr := some (.hdel (fld w 18 2) (fld w 0 6)), unused := nz w 6 12 || nz w 20 4, avail := .lath .hash } := by
    unfold lathRow
    rw [fld_num (lo := 28) (len := 4) 11 hW (packed_at _ hF 5)]
    rw [fld_num (lo := 24) (len := 4) 2 hW (packed_at _ hF 4)]
    first | done | rfl
  change decodeWord (.lath .hash) w = _
  refine decode_ok (p := (.lath .hash)) (hW.trans hE.symm) (by omega) hr ?_
  refine check_ok rfl rfl ?_ rfl rfl rfl ?_
  · simp [e0, e1, z2, z3]
  · simp only [e0, e1, z2, z3]

theorem hrehashBegin (t : BitVec 8) : Statement (.hrehashBegin t) := by
  intro h w hw
  clear h
  have hF : Fits [(12, 0), (8, t.toNat), (4, 0), (4, 3), (4, 11)] := ⟨of_decide_eq_true rfl, t.isLt, of_decide_eq_true rfl, of_decide_eq_true rfl, of_decide_eq_true rfl, trivial⟩
  have hE : 0xb3000000 + t.toNat * 4096 = packed [(12, 0), (8, t.toNat), (4, 0), (4, 3), (4, 11)] := by
    simp only [packed]
    clear hF hw; omega
  have hW := packed_word _ rfl hF hE hw
  clear hw
  have e0 := fld_eq (lo := 12) t hW (packed_at _ hF 1)
  have z1 := nz_false (lo := 0) (len := 12) hW (packed_at _ hF 0)
  have z2 := nz_false (lo := 20) (len := 4) hW (packed_at _ hF 2)
  have hr : lathRow w = some { instr := some (if nz w 0 12 then .hrehash (fld w 12 8) (fld w 0 12) else .hrehashBegin (fld w 12 8)), unused := nz w 20 4, avail := .lath .hash } := by
    unfold lathRow
    rw [fld_num (lo := 28) (len := 4) 11 hW (packed_at _ hF 4)]
    rw [fld_num (lo := 24) (len := 4) 3 hW (packed_at _ hF 3)]
    first | done | rfl
  change decodeWord (.lath .hash) w = _
  refine decode_ok (p := (.lath .hash)) (hW.trans hE.symm) (by omega) hr ?_
  refine check_ok rfl rfl ?_ rfl rfl rfl ?_
  · simp [e0, z1, z2]
  · simp [e0, z1, z2]

theorem hrehash (t : BitVec 8) (n : BitVec 12) : Statement (.hrehash t n) := by
  intro h w hw
  change (n != 0) = true at h
  try simp at h
  have hF : Fits [(12, n.toNat), (8, t.toNat), (4, 0), (4, 3), (4, 11)] := ⟨n.isLt, t.isLt, of_decide_eq_true rfl, of_decide_eq_true rfl, of_decide_eq_true rfl, trivial⟩
  have hE : 0xb3000000 + t.toNat * 4096 + n.toNat = packed [(12, n.toNat), (8, t.toNat), (4, 0), (4, 3), (4, 11)] := by
    simp only [packed]
    clear hF hw; omega
  have hW := packed_word _ rfl hF hE hw
  clear hw
  have e0 := fld_eq (lo := 12) t hW (packed_at _ hF 1)
  have e1 := fld_eq (lo := 0) n hW (packed_at _ hF 0)
  have z2 := nz_false (lo := 20) (len := 4) hW (packed_at _ hF 2)
  have hN := hW.trans hE.symm
  have hb0 := t.isLt
  have hb1 := n.isLt
  have z3 := nz_true (lo := 0) (len := 12) hN (by first | omega | (simp only [BitVec.toNat_eq] at h; simp at h; omega))
  have hr : lathRow w = some { instr := some (if nz w 0 12 then .hrehash (fld w 12 8) (fld w 0 12) else .hrehashBegin (fld w 12 8)), unused := nz w 20 4, avail := .lath .hash } := by
    unfold lathRow
    rw [fld_num (lo := 28) (len := 4) 11 hW (packed_at _ hF 4)]
    rw [fld_num (lo := 24) (len := 4) 3 hW (packed_at _ hF 3)]
    first | done | rfl
  change decodeWord (.lath .hash) w = _
  refine decode_ok (p := (.lath .hash)) (hW.trans hE.symm) (by omega) hr ?_
  refine check_ok rfl rfl ?_ rfl rfl rfl ?_
  · simp [e0, e1, z2, z3]
  · simp [e0, e1, z2, z3]

theorem hfence (im : BitVec 2) (o : BitVec 2) : Statement (.hfence im o) := by
  intro h w hw
  clear h
  have hF : Fits [(16, 0), (2, o.toNat), (2, im.toNat), (4, 0), (4, 4), (4, 11)] := ⟨of_decide_eq_true rfl, o.isLt, im.isLt, of_decide_eq_true rfl, of_decide_eq_true rfl, of_decide_eq_true rfl, trivial⟩
  have hE : 0xb4000000 + im.toNat * 262144 + o.toNat * 65536 = packed [(16, 0), (2, o.toNat), (2, im.toNat), (4, 0), (4, 4), (4, 11)] := by
    simp only [packed]
    clear hF hw; omega
  have hW := packed_word _ rfl hF hE hw
  clear hw
  have e0 := fld_eq (lo := 18) im hW (packed_at _ hF 2)
  have e1 := fld_eq (lo := 16) o hW (packed_at _ hF 1)
  have z2 := nz_false (lo := 0) (len := 16) hW (packed_at _ hF 0)
  have z3 := nz_false (lo := 20) (len := 4) hW (packed_at _ hF 3)
  have hr : lathRow w = some { instr := some (.hfence (fld w 18 2) (fld w 16 2)), unused := nz w 0 16 || nz w 20 4, avail := .lath .hash } := by
    unfold lathRow
    rw [fld_num (lo := 28) (len := 4) 11 hW (packed_at _ hF 5)]
    rw [fld_num (lo := 24) (len := 4) 4 hW (packed_at _ hF 4)]
    first | done | rfl
  change decodeWord (.lath .hash) w = _
  refine decode_ok (p := (.lath .hash)) (hW.trans hE.symm) (by omega) hr ?_
  refine check_ok rfl rfl ?_ rfl rfl rfl ?_
  · simp [e0, e1, z2, z3]
  · simp only [e0, e1, z2, z3]

theorem ldedup (sz : BitVec 4) (im : BitVec 2) (o : BitVec 2) : Statement (.ldedup sz im o) := by
  intro h w hw
  clear h
  have hF : Fits [(16, 0), (2, o.toNat), (2, im.toNat), (4, sz.toNat), (4, 0), (4, 12)] := ⟨of_decide_eq_true rfl, o.isLt, im.isLt, sz.isLt, of_decide_eq_true rfl, of_decide_eq_true rfl, trivial⟩
  have hE : 0xc0000000 + sz.toNat * 1048576 + im.toNat * 262144 + o.toNat * 65536 = packed [(16, 0), (2, o.toNat), (2, im.toNat), (4, sz.toNat), (4, 0), (4, 12)] := by
    simp only [packed]
    clear hF hw; omega
  have hW := packed_word _ rfl hF hE hw
  clear hw
  have e0 := fld_eq (lo := 20) sz hW (packed_at _ hF 3)
  have e1 := fld_eq (lo := 18) im hW (packed_at _ hF 2)
  have e2 := fld_eq (lo := 16) o hW (packed_at _ hF 1)
  have z3 := nz_false (lo := 0) (len := 16) hW (packed_at _ hF 0)
  have hr : lathRow w = some { instr := some (.ldedup (fld w 20 4) (fld w 18 2) (fld w 16 2)), unused := nz w 0 16, avail := .lath .dedupe } := by
    unfold lathRow
    rw [fld_num (lo := 28) (len := 4) 12 hW (packed_at _ hF 5)]
    rw [fld_num (lo := 24) (len := 4) 0 hW (packed_at _ hF 4)]
    first | done | rfl
  change decodeWord (.lath .dedupe) w = _
  refine decode_ok (p := (.lath .dedupe)) (hW.trans hE.symm) (by omega) hr ?_
  refine check_ok rfl rfl ?_ rfl rfl rfl ?_
  · simp [e0, e1, e2, z3]
  · simp only [e0, e1, e2, z3]

theorem lcompact (sz : BitVec 4) (im : BitVec 2) (o : BitVec 2) : Statement (.lcompact sz im o) := by
  intro h w hw
  clear h
  have hF : Fits [(16, 0), (2, o.toNat), (2, im.toNat), (4, sz.toNat), (4, 1), (4, 12)] := ⟨of_decide_eq_true rfl, o.isLt, im.isLt, sz.isLt, of_decide_eq_true rfl, of_decide_eq_true rfl, trivial⟩
  have hE : 0xc1000000 + sz.toNat * 1048576 + im.toNat * 262144 + o.toNat * 65536 = packed [(16, 0), (2, o.toNat), (2, im.toNat), (4, sz.toNat), (4, 1), (4, 12)] := by
    simp only [packed]
    clear hF hw; omega
  have hW := packed_word _ rfl hF hE hw
  clear hw
  have e0 := fld_eq (lo := 20) sz hW (packed_at _ hF 3)
  have e1 := fld_eq (lo := 18) im hW (packed_at _ hF 2)
  have e2 := fld_eq (lo := 16) o hW (packed_at _ hF 1)
  have z3 := nz_false (lo := 0) (len := 16) hW (packed_at _ hF 0)
  have hr : lathRow w = some { instr := some (.lcompact (fld w 20 4) (fld w 18 2) (fld w 16 2)), unused := nz w 0 16, avail := .lath .dedupe } := by
    unfold lathRow
    rw [fld_num (lo := 28) (len := 4) 12 hW (packed_at _ hF 5)]
    rw [fld_num (lo := 24) (len := 4) 1 hW (packed_at _ hF 4)]
    first | done | rfl
  change decodeWord (.lath .dedupe) w = _
  refine decode_ok (p := (.lath .dedupe)) (hW.trans hE.symm) (by omega) hr ?_
  refine check_ok rfl rfl ?_ rfl rfl rfl ?_
  · simp [e0, e1, e2, z3]
  · simp only [e0, e1, e2, z3]

theorem lscan (sz : BitVec 4) (im : BitVec 2) (o : BitVec 2) (x : BitVec 1) : Statement (.lscan sz im o x) := by
  intro h w hw
  clear h
  have hF : Fits [(15, 0), (1, x.toNat), (2, o.toNat), (2, im.toNat), (4, sz.toNat), (4, 0), (4, 13)] := ⟨of_decide_eq_true rfl, x.isLt, o.isLt, im.isLt, sz.isLt, of_decide_eq_true rfl, of_decide_eq_true rfl, trivial⟩
  have hE : 0xd0000000 + sz.toNat * 1048576 + im.toNat * 262144 + o.toNat * 65536 + x.toNat * 32768 = packed [(15, 0), (1, x.toNat), (2, o.toNat), (2, im.toNat), (4, sz.toNat), (4, 0), (4, 13)] := by
    simp only [packed]
    clear hF hw; omega
  have hW := packed_word _ rfl hF hE hw
  clear hw
  have e0 := fld_eq (lo := 20) sz hW (packed_at _ hF 4)
  have e1 := fld_eq (lo := 18) im hW (packed_at _ hF 3)
  have e2 := fld_eq (lo := 16) o hW (packed_at _ hF 2)
  have e3 := fld_eq (lo := 15) x hW (packed_at _ hF 1)
  have z4 := nz_false (lo := 0) (len := 15) hW (packed_at _ hF 0)
  have hr : lathRow w = some { instr := some (.lscan (fld w 20 4) (fld w 18 2) (fld w 16 2) (fld w 15 1)), unused := nz w 0 15, avail := .lath .scan } := by
    unfold lathRow
    rw [fld_num (lo := 28) (len := 4) 13 hW (packed_at _ hF 6)]
    rw [fld_num (lo := 24) (len := 4) 0 hW (packed_at _ hF 5)]
    first | done | rfl
  change decodeWord (.lath .scan) w = _
  refine decode_ok (p := (.lath .scan)) (hW.trans hE.symm) (by omega) hr ?_
  refine check_ok rfl rfl ?_ rfl rfl rfl ?_
  · simp [e0, e1, e2, e3, z4]
  · simp only [e0, e1, e2, e3, z4]

theorem lhist (sz : BitVec 4) (im : BitVec 2) (o : BitVec 2) : Statement (.lhist sz im o) := by
  intro h w hw
  clear h
  have hF : Fits [(16, 0), (2, o.toNat), (2, im.toNat), (4, sz.toNat), (4, 1), (4, 13)] := ⟨of_decide_eq_true rfl, o.isLt, im.isLt, sz.isLt, of_decide_eq_true rfl, of_decide_eq_true rfl, trivial⟩
  have hE : 0xd1000000 + sz.toNat * 1048576 + im.toNat * 262144 + o.toNat * 65536 = packed [(16, 0), (2, o.toNat), (2, im.toNat), (4, sz.toNat), (4, 1), (4, 13)] := by
    simp only [packed]
    clear hF hw; omega
  have hW := packed_word _ rfl hF hE hw
  clear hw
  have e0 := fld_eq (lo := 20) sz hW (packed_at _ hF 3)
  have e1 := fld_eq (lo := 18) im hW (packed_at _ hF 2)
  have e2 := fld_eq (lo := 16) o hW (packed_at _ hF 1)
  have z3 := nz_false (lo := 0) (len := 16) hW (packed_at _ hF 0)
  have hr : lathRow w = some { instr := some (.lhist (fld w 20 4) (fld w 18 2) (fld w 16 2)), unused := nz w 0 16, avail := .lath .scan } := by
    unfold lathRow
    rw [fld_num (lo := 28) (len := 4) 13 hW (packed_at _ hF 5)]
    rw [fld_num (lo := 24) (len := 4) 1 hW (packed_at _ hF 4)]
    first | done | rfl
  change decodeWord (.lath .scan) w = _
  refine decode_ok (p := (.lath .scan)) (hW.trans hE.symm) (by omega) hr ?_
  refine check_ok rfl rfl ?_ rfl rfl rfl ?_
  · simp [e0, e1, e2, z3]
  · simp only [e0, e1, e2, z3]

theorem loopBodyEnd  : Statement (.loopBodyEnd) := fun _ _ hw => nomatch hw

theorem phaseCompletion (slot : Nat) : Statement (.phaseCompletion slot) := fun _ _ hw => nomatch hw

theorem commitSweep (slot : Nat) (granule : Nat) : Statement (.commitSweep slot granule) := fun _ _ hw => nomatch hw

theorem waitBoundExpiry (bay : Nat) : Statement (.waitBoundExpiry bay) := fun _ _ hw => nomatch hw

theorem squareDeadline (grp : Nat) : Statement (.squareDeadline grp) := fun _ _ hw => nomatch hw

theorem squareCompletion (grp : Nat) : Statement (.squareCompletion grp) := fun _ _ hw => nomatch hw

theorem trapEntry (bay : Nat) : Statement (.trapEntry bay) := fun _ _ hw => nomatch hw

theorem leaseGrant (bent : Nat) : Statement (.leaseGrant bent) := fun _ _ hw => nomatch hw

theorem leaseWindowEnd (bay : Nat) : Statement (.leaseWindowEnd bay) := fun _ _ hw => nomatch hw

theorem trussCommandStart (bent : Nat) : Statement (.trussCommandStart bent) := fun _ _ hw => nomatch hw

theorem trussRowWrite (bent : Nat) : Statement (.trussRowWrite bent) := fun _ _ hw => nomatch hw

theorem trussCommandCompletion (bay : Nat) : Statement (.trussCommandCompletion bay) := fun _ _ hw => nomatch hw

theorem copySectorMove (bay : Nat) (unit : Unit2) (n : Nat) : Statement (.copySectorMove bay unit n) := fun _ _ hw => nomatch hw

theorem copyCompletion (bay : Nat) (unit : Unit2) (n : Nat) : Statement (.copyCompletion bay unit n) := fun _ _ hw => nomatch hw

theorem xaddwLineWrite (bay : Nat) (n : Nat) : Statement (.xaddwLineWrite bay n) := fun _ _ hw => nomatch hw

theorem xredRequestApply (bay : Nat) (n : Nat) : Statement (.xredRequestApply bay n) := fun _ _ hw => nomatch hw

theorem xredAck (bay : Nat) (n : Nat) : Statement (.xredAck bay n) := fun _ _ hw => nomatch hw

theorem xredResend (bay : Nat) (n : Nat) : Statement (.xredResend bay n) := fun _ _ hw => nomatch hw

theorem storeCompletion (bay : Nat) (n : Nat) : Statement (.storeCompletion bay n) := fun _ _ hw => nomatch hw

theorem deferredPegPush (bay : Nat) (unit : Unit2) : Statement (.deferredPegPush bay unit) := fun _ _ hw => nomatch hw

theorem streamEnd (bay : Nat) (eng : Nat) : Statement (.streamEnd bay eng) := fun _ _ hw => nomatch hw

theorem codeFetch (bay : Nat) : Statement (.codeFetch bay) := fun _ _ hw => nomatch hw

theorem hashUpdateCompletion (lath : Nat) (n : Nat) : Statement (.hashUpdateCompletion lath n) := fun _ _ hw => nomatch hw

theorem lathTokenArrival (lath : Nat) (port : Nat) (src : Nat) : Statement (.lathTokenArrival lath port src) := fun _ _ hw => nomatch hw

theorem batchStoreMove (lath : Nat) (port : Nat) (src : Nat) : Statement (.batchStoreMove lath port src) := fun _ _ hw => nomatch hw

theorem tokenEmission (lath : Nat) (port : Nat) : Statement (.tokenEmission lath port) := fun _ _ hw => nomatch hw

theorem loaderCompletion (lath : Nat) : Statement (.loaderCompletion lath) := fun _ _ hw => nomatch hw

theorem parityError (lath : Nat) : Statement (.parityError lath) := fun _ _ hw => nomatch hw

theorem reloadCompletion (lath : Nat) (masterBad : Bool) : Statement (.reloadCompletion lath masterBad) := fun _ _ hw => nomatch hw

theorem channelElementArrival (bay : Nat) (ch : Nat) : Statement (.channelElementArrival bay ch) := fun _ _ hw => nomatch hw

theorem creditReturn (bay : Nat) (ch : Nat) : Statement (.creditReturn bay ch) := fun _ _ hw => nomatch hw

theorem channelAudit (bay : Nat) (ch : Nat) : Statement (.channelAudit bay ch) := fun _ _ hw => nomatch hw

theorem auditCheck (bay : Nat) (ch : Nat) : Statement (.auditCheck bay ch) := fun _ _ hw => nomatch hw

theorem resyncReturn (bay : Nat) (ch : Nat) : Statement (.resyncReturn bay ch) := fun _ _ hw => nomatch hw

theorem resyncApply (bay : Nat) (ch : Nat) : Statement (.resyncApply bay ch) := fun _ _ hw => nomatch hw

theorem csi2FrameStart (port : Nat) (vc : Nat) : Statement (.csi2FrameStart port vc) := fun _ _ hw => nomatch hw

theorem csi2FrameEnd (port : Nat) (vc : Nat) : Statement (.csi2FrameEnd port vc) := fun _ _ hw => nomatch hw

theorem csi2LineStart (port : Nat) (vc : Nat) (num : Nat) : Statement (.csi2LineStart port vc num) := fun _ _ hw => nomatch hw

theorem csi2LongPacket (port : Nat) (vc : Nat) (dt : Nat) (bytes : List (BitVec 8)) (crcOk : Bool) (hdrOk : Bool) : Statement (.csi2LongPacket port vc dt bytes crcOk hdrOk) := fun _ _ hw => nomatch hw

theorem csi2LineEnd (port : Nat) (vc : Nat) : Statement (.csi2LineEnd port vc) := fun _ _ hw => nomatch hw

theorem csi2UnsupportedPacket (port : Nat) (vc : Nat) : Statement (.csi2UnsupportedPacket port vc) := fun _ _ hw => nomatch hw

theorem lineTimeout (chain : Nat) : Statement (.lineTimeout chain) := fun _ _ hw => nomatch hw

theorem lidarFrame (port : Nat) (frame : List (BitVec 8)) (fcsOk : Bool) : Statement (.lidarFrame port frame fcsOk) := fun _ _ hw => nomatch hw

theorem lidarFramePeriod (chain : Nat) : Statement (.lidarFramePeriod chain) := fun _ _ hw => nomatch hw

theorem gptpAnnounce (port : Nat) (gm : Nat) : Statement (.gptpAnnounce port gm) := fun _ _ hw => nomatch hw

theorem gptpSync (port : Nat) (twoStep : Bool) (stamp : Int) : Statement (.gptpSync port twoStep stamp) := fun _ _ hw => nomatch hw

theorem gptpFollowUp (port : Nat) (stamp : Int) : Statement (.gptpFollowUp port stamp) := fun _ _ hw => nomatch hw

theorem pdelayRequest (port : Nat) (req : Nat) : Statement (.pdelayRequest port req) := fun _ _ hw => nomatch hw

theorem pdelayOriginate (port : Nat) : Statement (.pdelayOriginate port) := fun _ _ hw => nomatch hw

theorem pdelayResponse (port : Nat) (delay : Nat) : Statement (.pdelayResponse port delay) := fun _ _ hw => nomatch hw

theorem syncLoss  : Statement (.syncLoss) := fun _ _ hw => nomatch hw

theorem scheduleFrameOrigin (part : Nat) : Statement (.scheduleFrameOrigin part) := fun _ _ hw => nomatch hw

theorem admission (part : Nat) : Statement (.admission part) := fun _ _ hw => nomatch hw

theorem dependenceMet (slot : Nat) : Statement (.dependenceMet slot) := fun _ _ hw => nomatch hw

theorem selection (part : Nat) : Statement (.selection part) := fun _ _ hw => nomatch hw

theorem planeFlip (bay : Nat) : Statement (.planeFlip bay) := fun _ _ hw => nomatch hw

theorem aging (slot : Nat) : Statement (.aging slot) := fun _ _ hw => nomatch hw

theorem jobCompletion (slot : Nat) : Statement (.jobCompletion slot) := fun _ _ hw => nomatch hw

theorem jobTime (slot : Nat) : Statement (.jobTime slot) := fun _ _ hw => nomatch hw

theorem jobKill (slot : Nat) : Statement (.jobKill slot) := fun _ _ hw => nomatch hw

theorem preemption (slot : Nat) : Statement (.preemption slot) := fun _ _ hw => nomatch hw

theorem saveComplete (slot : Nat) : Statement (.saveComplete slot) := fun _ _ hw => nomatch hw

theorem pageFaultService (part : Nat) (n : Nat) : Statement (.pageFaultService part n) := fun _ _ hw => nomatch hw

theorem faultTimeout (part : Nat) (n : Nat) : Statement (.faultTimeout part n) := fun _ _ hw => nomatch hw

theorem pageEviction (part : Nat) (tid : Nat) (tile : Nat) (back : Nat) : Statement (.pageEviction part tid tile back) := fun _ _ hw => nomatch hw

theorem pageMigration (part : Nat) (tid : Nat) (tile : Nat) (frame : Nat) : Statement (.pageMigration part tid tile frame) := fun _ _ hw => nomatch hw

theorem migrationRecheck (part : Nat) (n : Nat) : Statement (.migrationRecheck part n) := fun _ _ hw => nomatch hw

theorem migrationTimeout (part : Nat) (n : Nat) : Statement (.migrationTimeout part n) := fun _ _ hw => nomatch hw

theorem invalidationComplete (part : Nat) : Statement (.invalidationComplete part) := fun _ _ hw => nomatch hw

theorem pairMerge (slot : Nat) : Statement (.pairMerge slot) := fun _ _ hw => nomatch hw

theorem pairTwinTimeout (slot : Nat) : Statement (.pairTwinTimeout slot) := fun _ _ hw => nomatch hw

theorem replayTimeout (part : Nat) : Statement (.replayTimeout part) := fun _ _ hw => nomatch hw

theorem boot (ok : Bool) : Statement (.boot ok) := fun _ _ hw => nomatch hw

theorem linkFatal (peer : Option Nat) : Statement (.linkFatal peer) := fun _ _ hw => nomatch hw

theorem flr (part : Nat) : Statement (.flr part) := fun _ _ hw => nomatch hw

theorem partitionSetup (part : Nat) : Statement (.partitionSetup part) := fun _ _ hw => nomatch hw

theorem partitionTeardown (part : Nat) : Statement (.partitionTeardown part) := fun _ _ hw => nomatch hw

theorem queueRegistration (part : Nat) (q : Nat) (lo : BitVec 64) (hi : BitVec 64) : Statement (.queueRegistration part q lo hi) := fun _ _ hw => nomatch hw

theorem doorbell (part : Nat) (q : Nat) (v : BitVec 64) : Statement (.doorbell part q v) := fun _ _ hw => nomatch hw

theorem chainEnable (part : Nat) (chain : Nat) : Statement (.chainEnable part chain) := fun _ _ hw => nomatch hw

theorem chainDisable (part : Nat) (chain : Nat) : Statement (.chainDisable part chain) := fun _ _ hw => nomatch hw

theorem hostRegisterWrite (fn : Nat) (off : Nat) (v : BitVec 64) : Statement (.hostRegisterWrite fn off v) := fun _ _ hw => nomatch hw

theorem preempt (part : Nat) : Statement (.preempt part) := fun _ _ hw => nomatch hw

theorem kill (part : Nat) : Statement (.kill part) := fun _ _ hw => nomatch hw

theorem pageResp (part : Nat) : Statement (.pageResp part) := fun _ _ hw => nomatch hw

theorem inval (part : Nat) : Statement (.inval part) := fun _ _ hw => nomatch hw

theorem sensor (part : Nat) : Statement (.sensor part) := fun _ _ hw => nomatch hw

theorem chaincode (part : Nat) : Statement (.chaincode part) := fun _ _ hw => nomatch hw

theorem stage  : Statement (.stage) := fun _ _ hw => nomatch hw

theorem activate  : Statement (.activate) := fun _ _ hw => nomatch hw

theorem activateLive  : Statement (.activateLive) := fun _ _ hw => nomatch hw

theorem logdesc  : Statement (.logdesc) := fun _ _ hw => nomatch hw

theorem logrel  : Statement (.logrel) := fun _ _ hw => nomatch hw

theorem testint  : Statement (.testint) := fun _ _ hw => nomatch hw

theorem evring  : Statement (.evring) := fun _ _ hw => nomatch hw

theorem framerHeartbeat  : Statement (.framerHeartbeat) := fun _ _ hw => nomatch hw

theorem updateRollback  : Statement (.updateRollback) := fun _ _ hw => nomatch hw

theorem framerSilent  : Statement (.framerSilent) := fun _ _ hw => nomatch hw

theorem sensorSample  : Statement (.sensorSample) := fun _ _ hw => nomatch hw

theorem thermalTrip (sensor : Nat) : Statement (.thermalTrip sensor) := fun _ _ hw => nomatch hw

theorem voltageMonitor (sensor : Nat) : Statement (.voltageMonitor sensor) := fun _ _ hw => nomatch hw

theorem clockMonitor (sensor : Nat) : Statement (.clockMonitor sensor) := fun _ _ hw => nomatch hw

theorem conditionCleared (part : Nat) : Statement (.conditionCleared part) := fun _ _ hw => nomatch hw

theorem selfTest (test : SelfTest) (unit : Nat) (pass : Bool) : Statement (.selfTest test unit pass) := fun _ _ hw => nomatch hw

theorem spareInsertion (unit : SpareUnit) (owner : Nat) (n : Nat) : Statement (.spareInsertion unit owner n) := fun _ _ hw => nomatch hw

theorem sliceCopyComplete (slice : Nat) : Statement (.sliceCopyComplete slice) := fun _ _ hw => nomatch hw

theorem doeDiscovery  : Statement (.doeDiscovery) := fun _ _ hw => nomatch hw

theorem getVersion  : Statement (.getVersion) := fun _ _ hw => nomatch hw

theorem getCapabilities  : Statement (.getCapabilities) := fun _ _ hw => nomatch hw

theorem negotiateAlgorithms  : Statement (.negotiateAlgorithms) := fun _ _ hw => nomatch hw

theorem getDigests  : Statement (.getDigests) := fun _ _ hw => nomatch hw

theorem getCertificate (off : Nat) (len : Nat) : Statement (.getCertificate off len) := fun _ _ hw => nomatch hw

theorem challenge (nonce : Nat) : Statement (.challenge nonce) := fun _ _ hw => nomatch hw

theorem getMeasurements (index : Nat) (nonce : Nat) : Statement (.getMeasurements index nonce) := fun _ _ hw => nomatch hw

theorem encodingFault (cause : BitVec 8) : Statement (.encodingFault cause) := fun _ _ hw => nomatch hw

theorem unitNotTested (test : SelfTest) (unit : Nat) : Statement (.unitNotTested test unit) := fun _ _ hw => nomatch hw

theorem uplinkReply (port : Nat) (reply : List (BitVec 8)) : Statement (.uplinkReply port reply) := fun _ _ hw => nomatch hw

end Encoding

end Sys2Proof.Laws
end

