-- ==== Sys2Proof/Safety.lean ====
section
/-! DEFINITION. The terms in which the statements speak of the machine: who acts, what stays the same, what a word writes, and what a safe
run is. -/

namespace Sys2Proof.Machine

/-! ### Who acts -/

/-- The sequencer of a bay or a jointer acts (R36). -/
def State.onScalar (s : State) : Prop :=
  match s.cur with
  | .stream _ e => e = .S
  | .jointer _ _ => True
  | _ => False

/-- The V stream of a bay or a jointer acts (R36). -/
def State.onVector (s : State) : Prop :=
  match s.cur with
  | .stream _ e => e = .V
  | .jointer _ _ => True
  | _ => False

/-! ### What stays the same -/

/-- The memory keeps its canonical form (log 2). -/
def State.memOk (s : State) : Prop := Memory.wf s.mem = true

/-- Every byte of every memory reads the same in both states. -/
def SameMem (s t : State) : Prop := ∀ a, Memory.read t.mem a = Memory.read s.mem a

/-- Every byte outside the `n` bytes at `a` reads the same in both states. -/
def SameMemBut (s t : State) (a n : Nat) : Prop := ∀ x, x < a ∨ a + n ≤ x → Memory.read t.mem x = Memory.read s.mem x

/-- Nothing changes but the acting agent: of its bay what `fb` takes from the later one, and of a jointer what `fj` takes. The model's
count of free values may advance (log 1). -/
def OnlyActor (s t : State) (fb : Bay → Bay → Bay) (fj : Jointer → Jointer → Jointer) : Prop :=
  match s.cur with
  | .stream b _ => t = { s with bays := t.bays, tick := t.tick } ∧ (∀ c, c ≠ b → t.bay c = s.bay c) ∧ t.bay b = fb (s.bay b) (t.bay b)
  | .jointer c p => t = { s with jointers := t.jointers, tick := t.tick } ∧
      (∀ k, k ≠ jkey c p → Tab.get {} t.jointers k = Tab.get {} s.jointers k) ∧ t.jtr c p = fj (s.jtr c p) (t.jtr c p)
  | _ => t = s

/-- Nothing changes but bay `b`: of it, what `fb` takes from the later one. -/
def OnlyBay (s t : State) (b : Nat) (fb : Bay → Bay → Bay) : Prop :=
  t = { s with bays := t.bays } ∧ (∀ c, c ≠ b → t.bay c = s.bay c) ∧ t.bay b = fb (s.bay b) (t.bay b)

/-- What the retirement of a sequencer's word may change of a bay: the program counter, what the model keeps of the fetch and of an ended
wait, and the dirty bits of R204. -/
def seqMoves (y z : Bay) : Bay :=
  { y with pc := z.pc, adv := z.adv, skip := z.skip, waiting := none, hold := false, fetched := z.fetched, dirty := z.dirty }

/-- The same with the scalar registers. -/
def seqWrites (y z : Bay) : Bay := seqMoves { y with s := z.s } z

def jtrMoves (x z : Jointer) : Jointer := { x with pc := z.pc, adv := z.adv, skip := z.skip }

def jtrWrites (x z : Jointer) : Jointer := jtrMoves { x with s := z.s } z

/-- What the retirement of a vector word may change of a bay: the V stream's program counter, fetch, flags and ordinal (R139). -/
def vecMoves (y z : Bay) : Bay :=
  { y with v := { y.v with pc := z.v.pc, adv := z.v.adv, skip := z.v.skip, issued := none, fetched := z.v.fetched, flags := z.v.flags, ordinal := z.v.ordinal }
           dirty := z.dirty }

def jvecMoves (x z : Jointer) : Jointer := { x with pc := z.pc, adv := z.adv, skip := z.skip, flags := z.flags, ordinal := z.ordinal }

/-! ### What a word writes -/

/-- A scalar word wrote `v` to sd and retired. A write to s0 is discarded (R41). -/
structure Wrote (s t : State) (d : BitVec 5) (v : Word) : Prop where
  result : t.readS d = if d = 0 then 0 else v
  others : ∀ r, r ≠ d → t.readS r = s.readS r
  pc : t.pc = s.pc + 4
  mem : SameMem s t
  rest : OnlyActor s t seqWrites jtrWrites

/-- The instruction completes, writing `v` to sd. -/
def Writes (i : Instr) (s : State) (d : BitVec 5) (v : Word) : Prop := ∃ t, exec i s = .next t ∧ Wrote s t d v

/-- Lane `n` of register `r` under lanes of `w` bits (R126). -/
def State.lane (s : State) (r w n : Nat) : Nat := s.readV r / 2 ^ (n * w) % 2 ^ w

/-- The flags that the active ones of the first `n` lanes set. -/
def laneFlags (m : Nat) (f : Nat → BitVec 8) : Nat → BitVec 8
  | 0 => 0
  | n + 1 => laneFlags m f n ||| (if m.testBit n then f n else 0)

/-- A vector word retired, changing the vector registers that `out` does not hold, and adding `fl` to the flags. -/
structure RetiredV (s t : State) (out : Nat → Prop) (fl : BitVec 8) : Prop where
  flags : t.flags = s.flags ||| fl
  others : ∀ r, r < 64 → out r → t.readV r = s.readV r
  pc : t.pc = s.pc + 4
  mem : SameMem s t
  rest : OnlyActor s t (fun y z => vecMoves { y with vreg := z.vreg } z) (fun x z => jvecMoves { x with vreg := z.vreg } z)

/-- A lane word wrote `f n` to each active lane `n` of vd, and kept the others; the flags are those of the active lanes (R127, R135). -/
structure WroteLanes (s t : State) (g : Guard) (d w : Nat) (f : Nat → Nat × BitVec 8) : Prop where
  result : ∀ n, n < lanesOf w → t.lane d w n = if (s.active g).testBit n then (f n).1 % 2 ^ w else s.lane d w n
  rest : RetiredV s t (· ≠ d) (laneFlags (s.active g) (fun n => (f n).2) (lanesOf w))

/-- The instruction completes, writing the lanes of vd. -/
def WritesLanes (i : Instr) (s : State) (g : Guard) (d : BitVec 6) (f : Nat → Nat × BitVec 8) : Prop :=
  ∃ t, exec i s = .next t ∧ WroteLanes s t g d.toNat (fmtWidth s.vty) f

/-- Element `n` of a group of `m` registers at `r`: register r + (n mod m), lane floor(n / m) (R131). -/
def State.elem (s : State) (r m w n : Nat) : Nat := s.lane (r + n % m) w (n / m)

/-- The instruction completes, writing `f n` to each active element `n` below `count` of the group of `m` registers at vd (R131). -/
def WritesGroup (i : Instr) (s : State) (g : Guard) (d : BitVec 6) (m w count : Nat) (f : Nat → Nat × BitVec 8) : Prop :=
  ∃ t, exec i s = .next t ∧
    (∀ n, n < count → t.elem d.toNat m w n = if (s.active g).testBit n then (f n).1 % 2 ^ w else s.elem d.toNat m w n) ∧
    RetiredV s t (fun r => r < d.toNat ∨ d.toNat + m ≤ r) (laneFlags (s.active g) (fun n => (f n).2) count)

/-- The instruction completes, writing the whole of vd. -/
def WritesV (i : Instr) (s : State) (d : BitVec 6) (x : Nat) (fl : BitVec 8) : Prop :=
  ∃ t, exec i s = .next t ∧ t.readV d.toNat = x % 2 ^ 4096 ∧ RetiredV s t (· ≠ d.toNat) fl

/-- The instruction completes, writing the bits `f n` of a predicate register and adding `fl` to the flags. -/
def WritesP (i : Instr) (s : State) (p : BitVec 4) (f : Nat → Bool) (fl : BitVec 8) : Prop :=
  ∃ t, exec i s = .next t ∧ (∀ n, n < 1024 → (t.readP p.toNat).testBit n = f n) ∧ (∀ r, r < 16 → r ≠ p.toNat → t.readP r = s.readP r) ∧
    t.flags = s.flags ||| fl ∧ t.pc = s.pc + 4 ∧ SameMem s t ∧
    OnlyActor s t (fun y z => vecMoves { y with preg := z.preg } z) (fun x z => jvecMoves { x with preg := z.preg } z)

/-- The instruction completes, writing k register `k`, which on a jointer is s(8 + k) (R105). -/
def WritesK (i : Instr) (s : State) (k : BitVec 3) (v : Word) : Prop :=
  ∃ t, exec i s = .next t ∧ t.readK k = v ∧ (∀ j, j ≠ k → t.readK j = s.readK j) ∧ t.flags = s.flags ∧ t.pc = s.pc + 4 ∧ SameMem s t ∧
    OnlyActor s t (fun y z => vecMoves { y with v := { y.v with k := z.v.k } } z) (fun x z => jvecMoves { x with s := z.s } z)

/-- A word with three forms of operand b (R134). -/
def byForm (r : BitVec 6 → Instr) (k : BitVec 3 → Instr) (im : BitVec 6 → Instr) : Form → Instr
  | .reg x => r x
  | .k j => k j
  | .imm x => im x

/-- Lane `n` of operand b (R134). -/
def State.laneB (s : State) (b : Form) (n : Nat) : Nat :=
  match b with
  | .reg r => s.lane r.toNat (fmtWidth s.vty) n
  | .k j => (s.readK j).toNat % 2 ^ fmtWidth s.vty
  | .imm x => immLane s.vty x

/-- Lane `n` of register `r` as an integer of TYPE, and as a floating value. -/
def State.int (s : State) (r : BitVec 6) (n : Nat) : Int := intVal s.vty (s.lane r.toNat (fmtWidth s.vty) n)

def State.num (s : State) (r : BitVec 6) (n : Nat) : Num := decodeNum s.vty (s.lane r.toNat (fmtWidth s.vty) n)

/-- An exact integer result in a lane of type `f`: modulo 2^w, or clamped with SAT (R138). -/
def State.intResult (s : State) (f : Nat) (x : Int) : Nat × BitVec 8 := fitInt f s.visat x

/-- An exact floating result, rounded once to `f` under RM, with the flags of the operation (R139). -/
def State.roundTo (s : State) (f n : Nat) (x : Num × BitVec 8) : Nat × BitVec 8 := fitFlt f s.vrm (s.srOf n) x

/-- The three field words with offset `p` and width `q`: the field's bits extended with zeros, with its top bit, and placed into `old`
(R113, R114). Bits beyond bit 63 do not exist. -/
def FieldWords (bfx bfxs bfi : Instr) (s : State) (d : BitVec 5) (v old : Word) (p q : Nat) : Prop :=
  let e := if p < 64 then min q (64 - p) else 0
  Writes bfx s d (BitVec.ofNat 64 (v.toNat / 2 ^ p % 2 ^ e)) ∧
  Writes bfxs s d (BitVec.ofInt 64 (if e = 0 then 0 else sgn e (v.toNat / 2 ^ p))) ∧
  ∃ u : Word, Writes bfi s d u ∧ ∀ i, i < 64 → u.getLsbD i = if p ≤ i ∧ i < p + e then v.getLsbD (i - p) else old.getLsbD i

/-- A word retired and wrote no register. -/
structure Passed (s t : State) : Prop where
  pc : t.pc = s.pc + 4
  regs : ∀ r, t.readS r = s.readS r
  mem : SameMem s t
  rest : OnlyActor s t seqMoves jtrMoves

/-- A taken branch went to byte offset `x` and ended the loops that it left (R120). -/
structure Went (s t : State) (x : Int) : Prop where
  pc : t.pc = BitVec.ofInt 16 x
  loops : t.lcs = leaveLoops s.lcs s.pc.toNat x.toNat
  regs : ∀ r, t.readS r = s.readS r
  mem : SameMem s t
  rest : OnlyActor s t (fun y z => seqMoves { y with lc := z.lc } z) (fun x z => jtrMoves { x with lc := z.lc } z)

/-- A branch on the condition `c` (R115, R118): not taken, taken to a good target, and to a bad one, which raises 0x02. -/
def BranchesOn (i : Instr) (s : State) (o : BitVec 15) (c : Prop) : Prop :=
  let x : Int := s.pc.toNat + 4 * o.toInt
  (¬ c → ∃ t, exec i s = .next t ∧ Passed s t) ∧ (c → s.targetGood x = true → ∃ t, exec i s = .next t ∧ Went s t x) ∧
  (c → s.targetGood x = false → exec i s = s.raise { cause := 0x02 })

/-- The instruction enters a loop over counter `j` with trip count `n` and a body of `len` words (R172, R249, R406): with `n` 0 it skips the
body, else the counter runs and the body begins. `fb` and `fj` say what else of the agent changes. -/
def EntersLoop (i : Instr) (s : State) (j n len : Nat) (idx st : Word) (fb : Bay → Bay → Bay) (fj : Jointer → Jointer → Jointer) : Prop :=
  ∃ t, exec i s = .next t ∧ t.pc = (if n = 0 then BitVec.ofNat 16 (s.pc.toNat + 4 + 4 * len) else s.pc + 4) ∧
    Tab.get {} t.lcs j = (if n = 0 then Tab.get {} s.lcs j else { rem := BitVec.ofNat 32 (n - 1), len := BitVec.ofNat 8 len, start := s.pc + 4, active := true, idx := idx, step := st }) ∧
    (∀ k, k ≠ j → Tab.get {} t.lcs k = Tab.get {} s.lcs k) ∧ SameMem s t ∧ OnlyActor s t fb fj

/-- The bytes that a write of a placed span may touch: the span itself, and in SHARED the granule of either version (R222). -/
def Span.touches (x : Span) (a : Nat) : Prop :=
  if x.loc.code = 2 then
    ∃ g ∈ [x.loc.addr / 32 * 32, x.loc.alt / 32 * 32], g ≤ a ∧ a < g + max 32 (x.loc.addr % 32 + x.n)
  else x.loc.addr ≤ a ∧ a < x.loc.addr + x.n

/-- Every byte outside the placed spans reads the same in both states. -/
def SameMemOut (s t : State) (l : List Span) : Prop := ∀ a, (∀ x ∈ l, ¬ x.touches a) → Memory.read t.mem a = Memory.read s.mem a

/-- A read through the sequencer may commit pending writes of SHARED granules (R224), and nothing else but its own bay changes. -/
def OnlyReader (s t : State) (b : Nat) (fb : Bay → Bay → Bay) : Prop :=
  t = { s with bays := t.bays, meta_ := t.meta_ } ∧ (∀ c, c ≠ b → t.bay c = s.bay c) ∧ t.bay b = fb (s.bay b) (t.bay b)

/-! ### Control registers, faults and traps -/

/-- What a control register reads as after a write of `v` (R178, R179, R196, R402): bits that are reserved or read-only do not take it, and
FRAMELEN waits for the next frame origin. -/
def csrAfter (n : Nat) (old v : Word) : Word :=
  if n ≤ 0x004 ∨ n = 0x010 then v &&& 0xFF
  else if n = 0x011 then v &&& 0xFFFF
  else if n = 0x012 then v &&& 0xFFFD
  else if n = 0x013 then (old &&& ~~~ 0x0F000000) ||| (v &&& 0x0F000000)
  else if n = 0x014 then v
  else if n = 0x040 then old
  else v &&& 0x1FF

/-- What a write of a control register may change of a bay. -/
def csrWrites (y z : Bay) : Bay :=
  { seqWrites y z with
    flags := z.flags, v := { y.v with flags := z.v.flags }, m := { y.m with flags := z.m.flags }, l := { y.l with flags := z.l.flags },
    w := { y.w with flags := z.w.flags }, cause := z.cause, epc := z.epc, tvecEn := z.tvecEn, tvecOff := z.tvecOff, tResume := z.tResume,
    tscratch := z.tscratch, bankfmt := z.bankfmt }

/-- Bay `b` took the fault `rc`, returning to `epc` (R197, R198): these registers, and nothing else of the machine, and `pend` still waits. -/
def TookTrap (s t : State) (b : Nat) (rc : FaultRec) (epc : BitVec 16) (pend : List PendFault) : Prop :=
  let f := (t.bay b).frec0
  bits f 7 0 = rc.cause.toNat ∧ bits f 10 8 = rc.eng.toNat ∧ bit f 11 = rc.rst ∧ bits f 27 12 = rc.pc.toNat ∧ bits f 47 32 = rc.tid.toNat ∧
  bits f 55 48 = rc.unit.toNat ∧ SameMem s t ∧
  OnlyBay s t b (fun y z => { y with
    pc := BitVec.ofNat 16 (4 * y.tvecOff.toNat), adv := false, fetched := 0, cause := rc.cause, frec0 := z.frec0, frec1 := rc.wher, frec2 := rc.aux,
    tEng := rc.eng, tIn := true, epc := epc, waiting := none, hold := false, pend := pend, dirty := z.dirty })

/-- The four engine streams. -/
def engines : List Eng := [.V, .M, .L, .W]

/-- Bay `b` ends its job on the fault `rc` (R198, R300, R325): the bay stops and has arrived at PHASE, and the first such fault of the job
stands in its completion record. Memory and the other bays keep. -/
structure EndsJob (s t : State) (b : Nat) (rc : FaultRec) : Prop where
  stopped : (t.bay b).live = false ∧ (t.bay b).arrived = true ∧ ∀ e ∈ engines, ((t.bay b).stream e).run = false
  first : (s.jobOf b).status = 0 → (t.jobOf b).status = 2 ∧ (t.jobOf b).cause = rc.cause ∧ (t.jobOf b).fbay = BitVec.ofNat 8 (s.bay b).index ∧
    (t.jobOf b).frec = BitVec.ofNat 32 rc.w0.toNat
  later : (s.jobOf b).status ≠ 0 → t.jobOf b = s.jobOf b
  jobs : ∀ n, n ≠ (s.bay b).slotNo → t.job n = s.job n
  bays : ∀ c, c ≠ b → t.bay c = s.bay c
  mem : SameMem s t
  rest : t = { s with bays := t.bays, jobs := t.jobs, laths := t.laths }

/-! ### Pegs and streams -/

/-- Pegs of bay `b`: one leaves each queue of `pop`, one enters each queue of `push`, and a push into ls, ms or ws sets EVPEND.PEG (R202, R288). -/
def Pegged (s t : State) (b : Nat) (pop push : List Nat) : Prop :=
  (∀ q, Tab.get 0 (t.bay b).cnt q = Tab.get 0 (s.bay b).cnt q - (if q ∈ pop then 1 else 0) + (if q ∈ push then 1 else 0)) ∧
  (t.bay b).evpend = (s.bay b).evpend ||| (if 2 ∈ push ∨ 5 ∈ push ∨ 10 ∈ push then 2 else 0)

/-- The instruction waits: its word stands where it stood, and nothing but what the model keeps of the wait changes. -/
def Waits (i : Instr) (s : State) (b : Nat) : Prop :=
  ∃ t h, exec i s = .next t ∧ t.pc = s.pc ∧ OnlyBay s t b (fun y _ => { y with hold := h }) ∧ SameMem s t

/-! ### Step words -/

/-- The conditions under which an unstamped step word issues: no halted copy, a peg in each queue of W, and room in each of P (R238, R289, R290). -/
structure MayIssue (s : State) (b : Nat) (e : Eng) (w : BitVec 3) (p : Nat) : Prop where
  runs : ((s.bay b).stream e).isHalted = false
  fresh : ((s.bay b).stream e).kept = []
  pegs : (s.bay b).hasPegs (popsOf e w) = true
  room : (s.bay b).roomAll (pushesOf e p) = true

/-- Pegs leave the queues `pop`, and places are reserved in the queues `push` (R290). -/
def Reserved (s t : State) (b : Nat) (pop push : List Nat) : Prop :=
  (∀ q, Tab.get 0 (t.bay b).cnt q = Tab.get 0 (s.bay b).cnt q - (if q ∈ pop then 1 else 0)) ∧
  (∀ q, Tab.get 0 (t.bay b).rsv q = Tab.get 0 (s.bay b).rsv q + (if q ∈ push then 1 else 0)) ∧ (t.bay b).evpend = (s.bay b).evpend

/-- The reservations in the queues `qs` turn into pegs (R290). -/
def Pushed (s t : State) (b : Nat) (qs : List Nat) : Prop :=
  (∀ q, Tab.get 0 (t.bay b).cnt q = Tab.get 0 (s.bay b).cnt q + BitVec.ofNat 4 (qs.count q)) ∧
  (∀ q, Tab.get 0 (t.bay b).rsv q = Tab.get 0 (s.bay b).rsv q - BitVec.ofNat 4 (qs.count q)) ∧
  (t.bay b).evpend = (s.bay b).evpend ||| (if 2 ∈ qs ∨ 5 ∈ qs ∨ 10 ∈ qs then 2 else 0)

/-- What the issue of a step word may change of a stream, and of its bay. -/
def stepMoves (x z : Stream) : Stream := { x with pc := z.pc, adv := z.adv, skip := z.skip, issued := none, fetched := z.fetched, kept := [] }

def Bay.pegWrites (y z : Bay) : Bay := { y with cnt := z.cnt, rsv := z.rsv, evpend := z.evpend, dirty := z.dirty }

/-- A word of stream `e` issued and retired: of the streams, `e` becomes what `f` makes of it. -/
def Issued (s t : State) (b : Nat) (e : Eng) (f : Stream → Stream) : Prop :=
  t.pc = s.pc + 4 ∧ SameMem s t ∧ OnlyBay s t b (fun y z => (y.pegWrites z).setStream e (stepMoves (f (y.stream e)) (z.stream e)))

/-- A word entered what its engine keeps in flight: the pegs are taken and the places reserved, the stream moves on, and of the rest of the bay
`fb` says what changes. -/
def Entered (s t : State) (b : Nat) (e : Eng) (w : BitVec 3) (p : Nat) (fb : Bay → Bay → Bay) : Prop :=
  Reserved s t b (popsOf e w) (pushesOf e p) ∧ t.pc = s.pc + 4 ∧ SameMem s t ∧ OnlyBay s t b (fun y z => fb (y.pegWrites z) z)

/-! ### The truss -/

/-- Where row `m` of a binding stands (R262, R266): the bay, which is `far` for a row of the partner, and the row's first entry. -/
def TrussBay.rowAt (x : TrussBay) (b far m : Nat) : Nat × Nat :=
  if x.bsplit && decide (256 ≤ m) then (far, x.bpbase + (m - 256) * x.bpcols) else (b, x.bbase + m * x.bcols)

/-- Place and effect of the row writes that wait in a bent's queue, in order (R265). -/
def State.rowsOf (s : State) (bent : Nat) : List ((Nat × Nat) × RowOp) := (s.bent bent).writes.map fun w => ((w.bay, w.base), w.op)

/-- The promotions of a bay's pending rows, where PEND is 1 (R262, R264, R269). -/
def State.pending (s : State) (b : Nat) : List ((Nat × Nat) × RowOp) :=
  let x := (s.bay b).truss
  if x.pend then x.inner.map fun (m, v) => (x.rowAt b (s.partner b) m, .promote v x.blg (x.firsts.contains m)) else []

/-- The truss of `bent` can start the command `c` of bay `b`, before `q`, and the lease does not end with it (R255, R271). -/
def Starts (s : State) (bent b : Nat) (c : TrussCmd) (q : List TrussCmd) : Prop :=
  s.holder bent = some b ∧ (s.bay b).live = true ∧ s.trussFree b = true ∧ (s.bay b).truss.queue = c :: q ∧ (s.bay b).truss.cnt < 63 ∧ c.op ≠ .free

/-- The command has left the queue and is in flight; CNT has counted it. -/
def Taken (s t : State) (b : Nat) (c : TrussCmd) (q : List TrussCmd) : Prop :=
  let x := (s.bay b).truss
  let z := (t.bay b).truss
  z.queue = q ∧ z.taken = x.taken + 1 ∧ z.cnt = x.cnt + 1 ∧ z.running = x.running ++ [{ c with id := x.taken + 1, sets := openChanges x.opens z.opens }]

/-- The command faulted after its start: those behind it are gone, the slabs, the inner values and the row writes are as they were, and the M stream
has halted with the cause, unless a fault of its own stands (R258, R271). -/
def TrussFaulted (s t : State) (b : Nat) (cause : BitVec 8) : Prop :=
  let x := (s.bay b).truss
  let z := (t.bay b).truss
  z.queue = [] ∧ z.slab0 = x.slab0 ∧ z.slab1 = x.slab1 ∧ z.valid0 = x.valid0 ∧ z.valid1 = x.valid1 ∧ z.front = x.front ∧ z.inner = x.inner ∧
  z.pend = x.pend ∧ t.rowsOf (b / 8) = s.rowsOf (b / 8) ∧ SameMem s t ∧ ((s.bay b).m.rc = none → ∃ rc, (t.bay b).m.rc = some rc ∧ rc.cause = cause)

/-- The command changed nothing of the truss but what every start changes (R277). -/
def TrussQuiet (s t : State) (b : Nat) (c : TrussCmd) (q : List TrussCmd) : Prop :=
  Taken s t b c q ∧ (t.bay b).truss = { (s.bay b).truss with
    queue := q, taken := (t.bay b).truss.taken, cnt := (t.bay b).truss.cnt, running := (t.bay b).truss.running, bwmask := (t.bay b).truss.bwmask }

/-- The records of the copies of a unit, with its ordinal. -/
def unitWrites (e : Eng) (f : List CopyRec → List CopyRec) (y z : Bay) : Bay :=
  y.setStream e { stepMoves (y.stream e) (z.stream e) with inflight := f (y.stream e).inflight, ordinal := (y.stream e).ordinal + 1 }

/-! ### The Foreman's log -/

/-- Every byte outside the Foreman's event ring reads the same in both states. -/
def SameMemRing (s t : State) : Prop :=
  ∀ x, x < hostAddr s.foreman.evbase.toNat ∨ hostAddr s.foreman.evbase.toNat + 32 * 2 ^ s.foreman.evlog ≤ x → Memory.read t.mem x = Memory.read s.mem x

/-- The Foreman logged one event (R475): it counts, as written or as dropped. -/
def FmLogged (s t : State) : Prop :=
  SameMemRing s t ∧ (t.foreman.evtail = s.foreman.evtail + 1 ∧ t.foreman.evdrop = 0 ∨ t.foreman.evtail = s.foreman.evtail ∧ t.foreman.evdrop = s.foreman.evdrop + 1)

/-! ### The lathwork -/

/-- Nothing changes but lath `n`. -/
def OnlyLath (s t : State) (n : Nat) : Prop := t = { s with laths := t.laths } ∧ ∀ m, m ≠ n → t.lathAt m = s.lathAt m

/-- Payloads in the emission buffer of output port `o` of lath `n`. -/
def State.emits (s : State) (n o : Nat) : List Word := ((s.lathAt n).outPort o).emit.map fun t => t.1

/-- What a batch adds to an emission buffer: its header and its payloads, or nothing at a port of KIND 0 (R331). -/
def State.batchAt (s : State) (n o : Nat) (l : List Word) : List Word :=
  if pwKind ((s.lathAt n).portWord (4 + o)) = 0 then [] else word l.length :: l

/-- A lath's operation retired: it consumed a batch of input port `i`, and nothing but the lath changed (R338, R345). -/
structure LathRetired (s t : State) (n i : Nat) (b : Batch) : Prop where
  pc : (t.lathAt n).pc = (s.lathAt n).nextPc
  last : ((t.lathAt n).inPort i).last = some b.src
  used : (s.lathAt n).hasCkpt = true →
    ((t.lathAt n).inPort i).store = markUsed b.src b.thread (b.data.length + 1) ((s.lathAt n).inPort i).store
  freed : (s.lathAt n).hasCkpt = false → ∀ x ∈ ((t.lathAt n).inPort i).store, x.used = false
  mem : SameMem s t
  rest : OnlyLath s t n

/-- The instruction takes batch `b` of input port `i` and emits to output port `o` a batch whose payloads `P` describes. -/
def EmitsBatch (i : Instr) (s : State) (n im o : Nat) (b : Batch) (P : List Word → Prop) : Prop :=
  ∃ t l, exec i s = .next t ∧ P l ∧ t.emits n o = s.emits n o ++ s.batchAt n o l ∧ (∀ q, q ≠ o → t.emits n q = s.emits n q) ∧ LathRetired s t n im b

/-- The merge of R340, in the slot's order: the next token is the first of `b` where that goes strictly before the first of `a`, and the first of
`a` otherwise, so on ties too. -/
inductive Merges (w : Nat) : List Word → List Word → List Word → Prop where
  | done : Merges w [] [] []
  | first (x : Word) (a b l : List Word) : (∀ y, b.head? = some y → keyBefore w y x = false) → Merges w a b l → Merges w (x :: a) b (x :: l)
  | second (y : Word) (a b l : List Word) : (∀ x, a.head? = some x → keyBefore w y x = true) → Merges w a b l → Merges w a (y :: b) (y :: l)

/-- The next batch of input port `i` is complete and well-formed, its choice is no decision point, and there are an input port and output
ports `outs` with room. -/
def BatchReady (s : State) (n i : Nat) (outs : List Nat) (b : Batch) : Prop :=
  s.nextBatch n i = .some b ∧ b.bad = false ∧ s.mergePoint n i = false ∧ i < (s.lathAt n).inp.length ∧
  (∀ o ∈ outs, (s.lathAt n).roomAt o = true ∧ o < (s.lathAt n).outp.length)

/-- What a failed check of a token reports (R330): the cause, in the sequencer of logical bay 0 of the job that holds lath `n`, or in the Foreman's log
where no job does. -/
def TokenReported (s t : State) (n : Nat) (cause : Option Nat) (tok : Token) : Prop :=
  match cause with
  | none => t = { s with bays := t.bays, laths := t.laths }
  | some c =>
    (∀ j b r, (s.lathAt n).slot = some j → (s.job j).bays = b :: r → (s.bay b).live = true → (s.bay b).slot = some j →
      (∃ f ∈ (t.bay b).pend, f.rank = 5 ∧ f.rc = { cause := BitVec.ofNat 8 c, eng := 5, unit := BitVec.ofNat 8 n, aux := word tok.2.toNat }) ∧
      t = { s with bays := t.bays, laths := t.laths }) ∧
    ((s.lathAt n).slot = none → FmLogged s t)

/-- What the checks of R330 decide of a token that is not stored: its cause, and whether a resync starts. -/
def TokenCase.bad : TokenCase → Option (Option Nat × Bool)
  | .drop c => some (c, false)
  | .gap => some (some 0x61, true)
  | .store => none

/-! ### The Framer and the host -/

/-- Where the next event record of a partition goes (R326). -/
def Part.evAt (x : Part) : Nat := hostAddr ((nth 0 x.desc 7).toNat + 32 * (x.evtail.toNat % 2 ^ bits (nth 0 x.desc 8) 15 0))

/-- Every byte outside the 32-byte records at the addresses `l` reads the same in both states. -/
def SameMemRecs (s t : State) (l : List Nat) : Prop :=
  ∀ x, (∀ a ∈ l, x < a ∨ a + 32 ≤ x) → Memory.read t.mem x = Memory.read s.mem x

/-- The first 12 bytes of a completion record (R325). -/
def State.recorded (t : State) (crec jobid : Word) (status cause code fbay : Nat) : Prop :=
  t.readBytes (hostAddr crec.toNat) 12 = natBytes 8 jobid.toNat ++ [BitVec.ofNat 8 status, BitVec.ofNat 8 cause, BitVec.ofNat 8 code, BitVec.ofNat 8 fbay]

/-- The job in entry `n` has left the scoreboard (R311, R325, R328): its record stands at CREC, the partition has been told, the history names the
job first, its bays and laths are free and the laths empty, and other bays keep all but a shadow plane's mark. -/
structure Left (s t : State) (n status cause code : Nat) : Prop where
  entry : (t.job n).state = .free
  record : t.recorded (s.job n).crec (s.job n).jobid status cause code (s.job n).fbay.toNat
  told : (s.part (s.job n).part).msix < (t.part (s.job n).part).msix
  history : (t.part (s.job n).part).history.head? = some ((s.job n).jobid, decide (status = 0))
  bays : ∀ b, (s.bay b).slot = some n → (t.bay b).slot = none ∧ (t.bay b).live = false
  laths : ∀ k, (s.lathAt k).slot = some n → (t.lathAt k).slot = none ∧ (t.lathAt k).ctx = 0 ∧
    (∀ o, ((t.lathAt k).outPort o).emit = []) ∧ ∀ i, ((t.lathAt k).inPort i).store = [] ∧ ((t.lathAt k).inPort i).sources = []
  others : ∀ b, (∀ k ∈ s.copies n, (s.bay b).slot ≠ some k) → t.bay b = { s.bay b with shadowFor := (t.bay b).shadowFor }
  mem : SameMemRecs s t [hostAddr (s.job n).crec.toNat]

/-- The cause of an access that was not serviced has reached its agent (R195, R324): the sequencer has taken a trap, or the stream, the lath or the
chain has halted. -/
def Delivered (s t : State) (f : PageFault) : Prop :=
  (∀ b, f.who = .stream b .S → (s.bay b).tIn = false → (s.bay b).tvecEn = true → (s.bay b).targetOk ((s.bay b).tvecOff.toNat * 4) = true →
    (t.bay b).cause = f.cause ∧ (t.bay b).tIn = true ∧ (t.bay b).epc = (s.bay b).pc ∧ (t.bay b).pc = BitVec.ofNat 16 (4 * (s.bay b).tvecOff.toNat) ∧
    (t.bay b).seqHalted = false) ∧
  (∀ b, f.who = .stream b .V → (t.bay b).v.run = false ∧ (t.bay b).vecHalted = false ∧ ∃ x ∈ (t.bay b).pend, x.rc.cause = f.cause ∧ x.rank = 1) ∧
  (∀ n, f.who = .lath n → (t.lathAt n).hlt = true ∧ (t.lathAt n).waiting = false) ∧
  (∀ c p, f.who = .jointer c p → chainEn (t.chain c) = false)

/-- The `n` bytes at `dst` hold what the `n` bytes at `src` held. -/
def Copied (s t : State) (src dst n : Nat) : Prop := ∀ i, i < n → Memory.read t.mem (dst + i) = Memory.read s.mem (src + i)

/-- The 512 bytes around an entry of a translation table lie apart from a range. -/
def entryApart (e a n : Nat) : Prop := e % 16 = 0 ∧ (e / 512 * 512 + 512 ≤ a ∨ a + n ≤ e / 512 * 512)

/-- The job is one that a discard ends (R465). -/
def Job.holds (j : Job) : Prop := j.state = .load ∨ j.state = .run ∨ j.state = .saved

/-- The partitions that `ps` holds of were discarded (R464, R465): each of their jobs in LOAD, RUN or SAVED ends with STATUS 4 and the cause and stops
in its bays, the updates that its laths posted are gone, and their chains are stopped (log 75); every other job and bay keeps. -/
structure Discarded (s t : State) (ps : Nat → Prop) (cause : BitVec 8) : Prop where
  ends : ∀ n, ps (s.job n).part → (s.job n).holds → (t.job n).status = 4 ∧ (t.job n).cause = cause ∧ (t.job n).ended = true
  stops : ∀ b n, (s.bay b).slot = some n → ps (s.job n).part → (s.job n).holds → (t.bay b).live = false ∧ ∀ e ∈ engines, ((t.bay b).stream e).run = false
  work : ∀ k n, (s.lathAt k).slot = some n → ps (s.job n).part → (s.job n).holds → (t.lathAt k).updates = []
  chains : ∀ c, chainEn (s.chain c) = true → ps (chainPart (s.chain c)) → chainEn (t.chain c) = false
  jobs : ∀ n, ¬ ps (s.job n).part ∨ ¬ (s.job n).holds → t.job n = s.job n
  bays : ∀ b, (∀ e ∈ s.jobs, (s.bay b).slot = some e.1 → ¬ ps e.2.part ∨ ¬ e.2.holds) → t.bay b = s.bay b

/-- The mailbox command of partition `p` ended with `res` (R450). -/
def CmdEnds (s t : State) (p : Nat) (res : BitVec 8) : Prop :=
  (t.part p).busy = false ∧ (t.part p).res = res ∧ (s.part p).msix < (t.part p).msix

/-- The Foreman command ended with `res` (R468): RES, and MSI-X vector 1. -/
def FcmdEnds (t : State) (res : BitVec 8) : Prop := t.foreman.busy = false ∧ t.foreman.res = res ∧ 1 ∈ t.pfmsix

/-! ### Runs -/

/-- A state that some number of steps reaches. -/
inductive Reaches : State → State → Prop where
  | here (s : State) : Reaches s s
  | more {s t u : State} : Reaches s t → step t = .next u → Reaches s u

/-- A safe run: in every state that it reaches, the memory keeps its canonical form and the next step is not refused. -/
def Safe (s : State) : Prop := ∀ t, Reaches s t → t.memOk ∧ ∀ r, step t ≠ .refused r

end Sys2Proof.Machine
end

