-- ==== Sys2Proof/Certificates/Slice0/Obligations.lean ====
section
/-! DEFINITION. The statements for the provers. -/

open Sys2Proof Sys2Proof.Machine

/-! ### Encoding -/

/-- For every well-formed instruction, decoding its encoded word at its place gives it back: no bit of an encoding is dropped (R36 to R53). -/
def Obligations.DecodeEncode : Prop :=
  ∀ i : Instr, i.wf = true → ∀ w, encode i = some w → decodeWord i.place w = .ok i

/-- R36 to R53: words of each family, with the fields as the encoding tables place them, decode at their place; a word of zeros decodes nowhere (R54). -/
def Obligations.DecodeWords : Prop :=
  let at_ := fun (x k : Nat) => x * 2 ^ k
  let word := fun (l : List Nat) => BitVec.ofNat 32 l.sum
  decodeWord .seq (word [at_ 1 25, at_ 3 20, at_ 1 15, at_ 2 10]) = .ok (.add 3 1 2) ∧
  decodeWord .seq (word [at_ 0x20 25, at_ 7 20, at_ 8 15, at_ 9 11, at_ 3 9, 5]) = .ok (.ld 7 8 9 3 5) ∧
  decodeWord .seq (word [at_ 0x10 25, at_ 4 20, at_ 5 15, 0x7FFF]) = .ok (.beq 4 5 0x7FFF) ∧
  decodeWord (.jointerScalar false) (word [at_ 0x48 25, at_ 6 20]) = .ok (.jwait 6) ∧
  decodeWord .vec (word [at_ 1 20, at_ 9 14, at_ 10 8, at_ 11 2]) = .ok (.vadd { e := false, inv := false, p := 0 } 9 10 11) ∧
  decodeWord .vec (word [at_ 1 31, at_ 5 26, at_ 1 20, at_ 9 14, at_ 10 8, at_ 11 2]) = .ok (.vadd { e := true, inv := false, p := 5 } 9 10 11) ∧
  decodeWord .mtx (word [at_ 4 27, at_ 5 24, at_ 2 21, at_ 15 17, at_ 3 12, 0xFFF]) = .ok (.tmma 5 2 15 3 0xFFF) ∧
  decodeWord .ld (word [at_ 1 27, at_ 1 24, at_ 2 21, at_ 7 17, 0xFFF]) = .ok (.xcopy 1 2 7 0xFFF) ∧
  decodeWord (.lath .hash) (word [at_ 0xB 28, at_ 1 18, at_ 2 16, 33]) = .ok (.hprobe 1 2 33) ∧
  (∀ p, decodeWord p 0 = .error .allZero)

/-- The agent's next step runs the word at its program counter: where the agenda names it, it may move, its queue holds the word (R295), and the word's
bytes decode at its place to an instruction, the step is that instruction's `exec`; where they decode to none, it raises the encoding fault (R36, R54 to
R56, R68). A listed event is its `exec`. The model's choices: the order of the agents (log 1), and that the sequencer's word runs on while a fault waits
and a handler has already been entered (log 60). -/
def Obligations.StepRunsWord : Prop :=
  ∀ (s : State) (l : List Choice) (i : Instr) (k : EncKind),
    let as := fun (a : Actor) => { s with agenda := l, cur := a }
    let decoded := fun p code a => (decode p code = .ok (i, []) → step s = exec i (as a)) ∧
      (decode p code = .error (.encoding k) → step s = exec (.encodingFault (encCause p ((as a).earlier p (BitVec.ofNat 32 (bytesNat code)) k))) (as a))
    (∀ b, s.agenda = .stream b .S :: l → let y := s.bay b
      y.live = true → y.seqHalted = false → y.startAt ≤ s.clock → (s.jobOf b).idle = false → s.isFrozen y.partNo = false →
      (y.adv && endsAt y.lc y.pc) = false → (y.pend = [] ∨ y.tIn = true ∨ y.hold = true ∨ y.merge ≠ none) →
      outside (y.sect .S).1 (y.sect .S).2 y.adv y.pc = false → 4 ≤ y.fetched →
      decoded .seq (y.codeAt y.pc) (.stream b .S)) ∧
    (∀ b e p, (e, p) ∈ [(Eng.V, Place.vec), (.M, .mtx), (.L, .ld), (.W, .st)] → s.agenda = .stream b e :: l → let y := s.bay b
      let x := y.stream e
      y.live = true → x.run = true → (e = .V → y.vecHalted = false) → x.isHalted = false → (s.jobOf b).idle = false → s.isFrozen y.partNo = false →
      (x.adv && endsAt x.lc x.pc) = false → outside (y.sect e).1 (y.sect e).2 x.adv x.pc = false → 4 ≤ x.fetched →
      decoded p (y.codeAt x.pc) (.stream b e)) ∧
    (∀ c q, s.agenda = .jointer c q :: l → let j := s.jtr c q
      let n := j.pc.toNat / 4
      j.run = true → j.page = false → s.isFrozen (chainPart (s.chain c)) = false → (j.adv && endsAt j.lc j.pc) = false →
      outside 0 (4 * j.code.length) j.adv j.pc = false →
      decoded (if nth false j.fam n then .jointerVector else .jointerScalar (q + 1 == (s.chain c).depth)) (bytesOfWord (nth 0 j.code n)) (.jointer c q)) ∧
    (∀ n, s.agenda = .lath n :: l → let x := s.lathAt n
      let j := s.job (s.lathCtx n).slot
      x.slot ≠ none → x.hlt = false → x.rcv = false → x.waiting = false → j.away = false → j.stopping = false ∨ x.hop ≠ none →
      s.isFrozen (s.lathCtx n).part = false → decoded (.lath (lathClass n)) (bytesOfWord (nth 0 x.plane (planeHead + x.pc.toNat))) (.lath n)) ∧
    (s.agenda = .event i :: l → step s = exec i (as .none))

/-- R102, R125, R128, R196, R254, R308, R313, R334, R352, R372, R374, R388, R391, R395,
R444, R446, R477: what reset leaves. A memory that R477 leaves undefined reads zero by the model's choice (log 2), and is not named here. -/
def Obligations.ResetState : Prop :=
  let s := State.reset
  s.memOk ∧ s.boot = { stage := 0, err := 0, rdy := false } ∧ s.remap.defsig = 0 ∧ s.clk.time = 0 ∧ s.clk.lock = false ∧ s.clk.hold = false ∧
  s.clk.first = false ∧ s.clk.offs = 0 ∧
  (∀ b, let y := s.bay b
    (∀ r, Tab.get 0 y.s r = 0) ∧ y.flags = 0 ∧ y.cause = 0 ∧ y.epc = 0 ∧ y.tvecEn = false ∧ y.tvecOff = 0 ∧ y.tscratch = 0 ∧ y.tIn = false ∧ y.tEng = 0 ∧
    y.tHalt = 0 ∧ y.tResume = 0 ∧ y.pend = [] ∧ y.evpend = 0 ∧ (∀ j, Tab.get {} y.lc j = {}) ∧ (∀ q, Tab.get 0 y.cnt q = 0 ∧ Tab.get 0 y.rsv q = 0) ∧
    y.vshape = 0x13 ∧ (∀ r, Tab.get 0 y.vreg r = 0) ∧ (∀ r, Tab.get 0 y.preg r = 0) ∧ (∀ e ∈ engines, (y.stream e).run = false ∧ (y.stream e).flags = 0) ∧
    y.truss.held = false ∧ y.truss.valid0 = false ∧ y.truss.valid1 = false ∧ y.live = false) ∧
  (∀ p, let x := s.part p
    x.up = false ∧ (∀ i, nth 0 x.desc i = 0) ∧ x.cmd = 0 ∧ x.busy = false ∧ x.res = 0 ∧ (∀ q, Tab.get {} x.queues q = {}) ∧ x.evhead = 0 ∧ x.evtail = 0) ∧
  (∀ n, (s.job n).state = .free) ∧ (∀ n, (s.lathAt n).ctx = 0 ∧ (s.lathAt n).hlt = false ∧ (s.lathAt n).pc = 0) ∧
  (∀ c, chainEn (s.chain c) = false) ∧ (∀ g, bit (nth 0 (s.group g).w 0) 0 = false ∧ (s.group g).ready = false) ∧
  (∀ t, hValid (s.table t) = false) ∧ ∀ n, s.rowWord n = 0

/-- The memory keeps its canonical form (log 2) through every step, from every state that has it: no word, event or outside write leaves an address listed
twice, out of order, or listed with what an unlisted address reads as. -/
def Obligations.StepKeepsMemory : Prop := ∀ s t : State, s.memOk → step s = .next t → t.memOk

/-! ### The scalar registers -/

/-- R109: the two-operand words write sd, retire, and change nothing else. R111, R112: the immediate words; imm15 and imm20 are sign-extended. -/
def Obligations.ScalarArithmetic : Prop :=
  (∀ (s : State) (d a b : BitVec 5), s.onScalar →
    let x := s.readS a
    let y := s.readS b
    Writes (.add d a b) s d (x + y) ∧ Writes (.sub d a b) s d (x - y) ∧ Writes (.mul d a b) s d (x * y) ∧
    Writes (.mulh d a b) s d (BitVec.ofInt 64 (x.toInt * y.toInt / 2 ^ 64)) ∧
    Writes (.mulhw d a b) s d (BitVec.ofNat 64 (x.toNat * y.toNat / 2 ^ 64)) ∧
    Writes (.and d a b) s d (x &&& y) ∧ Writes (.or d a b) s d (x ||| y) ∧ Writes (.xor d a b) s d (x ^^^ y) ∧
    Writes (.andn d a b) s d (x &&& ~~~ y) ∧
    Writes (.shl d a b) s d (x <<< (y.toNat % 64)) ∧ Writes (.shr d a b) s d (x >>> (y.toNat % 64)) ∧
    Writes (.sar d a b) s d (x.sshiftRight (y.toNat % 64)) ∧
    Writes (.rol d a b) s d ((x <<< (y.toNat % 64)) ||| (x >>> (64 - y.toNat % 64))) ∧
    Writes (.min d a b) s d (if x.toInt ≤ y.toInt then x else y) ∧ Writes (.max d a b) s d (if x.toInt ≤ y.toInt then y else x) ∧
    Writes (.minw d a b) s d (if x.toNat ≤ y.toNat then x else y) ∧ Writes (.maxw d a b) s d (if x.toNat ≤ y.toNat then y else x) ∧
    Writes (.slt d a b) s d (if x.toInt < y.toInt then 1 else 0) ∧ Writes (.sltw d a b) s d (if x.toNat < y.toNat then 1 else 0)) ∧
  (∀ (s : State) (d a : BitVec 5) (im : BitVec 15) (sh : BitVec 6) (hi : BitVec 20), s.onScalar →
    let x := s.readS a
    let y : Word := BitVec.ofInt 64 im.toInt
    Writes (.addi d a im) s d (x + y) ∧ Writes (.andi d a im) s d (x &&& y) ∧ Writes (.ori d a im) s d (x ||| y) ∧
    Writes (.xori d a im) s d (x ^^^ y) ∧ Writes (.slti d a im) s d (if x.toInt < im.toInt then 1 else 0) ∧
    Writes (.shli d a sh) s d (x <<< sh.toNat) ∧ Writes (.shri d a sh) s d (x >>> sh.toNat) ∧
    Writes (.sari d a sh) s d (x.sshiftRight sh.toNat) ∧ Writes (.lui d hi) s d (BitVec.ofInt 64 (hi.toInt * 2 ^ 15)))

/-- R110: division and remainder, with their corners. R109: CLZ and CTZ count zeros from the top and from the bottom, POPC counts ones, and each of 0
is as the table says. R113, R114: the field words, with offset and width from the word (a width above 64 does not decode) or from a register. -/
def Obligations.ScalarBits : Prop :=
  (∀ (s : State) (d a b : BitVec 5), s.onScalar →
    let x := s.readS a
    let y := s.readS b
    (y = 0 → Writes (.div d a b) s d (BitVec.allOnes 64) ∧ Writes (.divw d a b) s d (BitVec.allOnes 64) ∧
      Writes (.rem d a b) s d x ∧ Writes (.remw d a b) s d x) ∧
    (y ≠ 0 → Writes (.div d a b) s d (BitVec.ofInt 64 (x.toInt.tdiv y.toInt)) ∧ Writes (.rem d a b) s d (BitVec.ofInt 64 (x.toInt.tmod y.toInt)) ∧
      Writes (.divw d a b) s d (BitVec.ofNat 64 (x.toNat / y.toNat)) ∧ Writes (.remw d a b) s d (BitVec.ofNat 64 (x.toNat % y.toNat))) ∧
    (x.toInt = -2 ^ 63 → y.toInt = -1 → Writes (.div d a b) s d x ∧ Writes (.rem d a b) s d 0)) ∧
  (∀ (s : State) (d a : BitVec 5), s.onScalar →
    let x := s.readS a
    (∃ n : Nat, n ≤ 64 ∧ Writes (.clz d a) s d (BitVec.ofNat 64 n) ∧ (∀ i, 64 - n ≤ i → x.getLsbD i = false) ∧ (n < 64 → x.getLsbD (63 - n) = true)) ∧
    (∃ n : Nat, n ≤ 64 ∧ Writes (.ctz d a) s d (BitVec.ofNat 64 n) ∧ (∀ i, i < n → x.getLsbD i = false) ∧ (n < 64 → x.getLsbD n = true)) ∧
    Writes (.popc d a) s d (BitVec.ofNat 64 ((List.range 64).countP fun i => x.getLsbD i))) ∧
  (∀ (s : State) (d a x : BitVec 5) (o : BitVec 6) (n : BitVec 7), s.onScalar →
    (n.toNat ≤ 64 → FieldWords (.bfx d a o n) (.bfxs d a o n) (.bfi d a o n) s d (s.readS a) (s.readS d) o.toNat n.toNat) ∧
    FieldWords (.bfxReg d a x) (.bfxsReg d a x) (.bfiReg d a x) s d (s.readS a) (s.readS d) ((s.readS x).toNat % 256)
      ((s.readS x).toNat / 256 % 256))

/-- R118: which targets are good. R115, R118, R120: the branches. R116 to R118: JAL and JALR write the address of the next word and go to a good target; a bad one raises 0x02 and
writes nothing. The target of JALR is read before sd is written. -/
def Obligations.BranchesAndJumps : Prop :=
  (∀ (s : State) (x : Int),
    (∀ b, s.cur = .stream b .S → let r := (s.bay b).sect .S
      (s.targetGood x = true ↔ x % 4 = 0 ∧ (r.1 : Int) ≤ x ∧ x < r.1 + r.2)) ∧
    (∀ c p, s.cur = .jointer c p → (s.targetGood x = true ↔ x % 4 = 0 ∧ 0 ≤ x ∧ x < 4 * (s.jtr c p).code.length))) ∧
  (∀ (s : State) (a b : BitVec 5) (o : BitVec 15), s.onScalar →
    let x := s.readS a
    let y := s.readS b
    BranchesOn (.beq a b o) s o (x = y) ∧ BranchesOn (.bne a b o) s o (x ≠ y) ∧ BranchesOn (.blt a b o) s o (x.toInt < y.toInt) ∧
    BranchesOn (.bge a b o) s o (y.toInt ≤ x.toInt) ∧ BranchesOn (.bltw a b o) s o (x.toNat < y.toNat) ∧ BranchesOn (.bgew a b o) s o (y.toNat ≤ x.toNat)) ∧
  (∀ (s : State) (d a : BitVec 5) (o : BitVec 20) (im : BitVec 15) (i : Instr) (x : Int), s.onScalar →
    (i = .jal d o ∧ x = s.pc.toNat + 4 * o.toInt ∨ i = .jalr d a im ∧ x = (s.readS a + BitVec.ofInt 64 im.toInt).toNat) →
    (s.targetGood x = true → ∃ t, exec i s = .next t ∧ t.pc = BitVec.ofInt 16 x ∧
      t.readS d = (if d = 0 then 0 else BitVec.ofNat 64 (s.pc.toNat + 4)) ∧ (∀ r, r ≠ d → t.readS r = s.readS r) ∧
      SameMem s t ∧ OnlyActor s t seqWrites jtrWrites) ∧
    (s.targetGood x = false → exec i s = s.raise { cause := 0x02 }))

/-! ### Vector words -/

/-- R138, R141, R134: the integer lanes of VADD to VMSUB, VMIN, VMAX, VABS and VNEG, for every form of operand b. `fit` is x modulo 2^w, or
x clamped with SAT. -/
def Obligations.VectorInteger : Prop :=
  ∀ (s : State) (g : Guard) (d a : BitVec 6) (b : Form), s.onVector → tInt s.vty = true →
    let z := fun n => intVal s.vty (s.laneB b n)
    let fit := s.intResult s.vty
    WritesLanes (byForm (.vadd g d a) (.vaddK g d a) (.vaddI g d a) b) s g d (fun n => fit (s.int a n + z n)) ∧
    WritesLanes (byForm (.vsub g d a) (.vsubK g d a) (.vsubI g d a) b) s g d (fun n => fit (s.int a n - z n)) ∧
    WritesLanes (byForm (.vmul g d a) (.vmulK g d a) (.vmulI g d a) b) s g d (fun n => fit (s.int a n * z n)) ∧
    WritesLanes (byForm (.vmadd g d a) (.vmaddK g d a) (.vmaddI g d a) b) s g d (fun n => fit (s.int d n + s.int a n * z n)) ∧
    WritesLanes (byForm (.vmsub g d a) (.vmsubK g d a) (.vmsubI g d a) b) s g d (fun n => fit (s.int d n - s.int a n * z n)) ∧
    WritesLanes (byForm (.vmin g d a) (.vminK g d a) (.vminI g d a) b) s g d
      (fun n => (if s.int a n < z n then s.lane a.toNat (fmtWidth s.vty) n else s.laneB b n, 0)) ∧
    WritesLanes (byForm (.vmax g d a) (.vmaxK g d a) (.vmaxI g d a) b) s g d
      (fun n => (if s.int a n < z n then s.laneB b n else s.lane a.toNat (fmtWidth s.vty) n, 0)) ∧
    (tSigned s.vty = true → WritesLanes (.vabs g d a) s g d (fun n => fit (s.int a n).natAbs) ∧ WritesLanes (.vneg g d a) s g d (fun n => fit (-s.int a n)))

/-- R139 to R141, R159: the floating lanes of the same words and of VDIV, each rounded once. -/
def Obligations.VectorFloat : Prop :=
  ∀ (s : State) (g : Guard) (d a : BitVec 6) (b : Form), s.onVector → isFlt s.vty = true →
    let m := s.vrm
    let z := fun n => decodeNum s.vty (s.laneB b n)
    let out := fun n x => s.roundTo s.vty n x
    WritesLanes (byForm (.vadd g d a) (.vaddK g d a) (.vaddI g d a) b) s g d (fun n => out n (addNum m (s.num a n) (z n))) ∧
    WritesLanes (byForm (.vsub g d a) (.vsubK g d a) (.vsubI g d a) b) s g d (fun n => out n (addNum m (s.num a n) (z n).negate)) ∧
    WritesLanes (byForm (.vmul g d a) (.vmulK g d a) (.vmulI g d a) b) s g d (fun n => out n (mulNum (s.num a n) (z n))) ∧
    WritesLanes (byForm (.vmadd g d a) (.vmaddK g d a) (.vmaddI g d a) b) s g d (fun n => out n (fmaNum m (s.num d n) (s.num a n) (z n))) ∧
    WritesLanes (byForm (.vmsub g d a) (.vmsubK g d a) (.vmsubI g d a) b) s g d (fun n => out n (fmaNum m (s.num d n) (s.num a n).negate (z n))) ∧
    WritesLanes (byForm (.vmin g d a) (.vminK g d a) (.vminI g d a) b) s g d
      (fun n => minmaxF s.vty false (s.lane a.toNat (fmtWidth s.vty) n) (s.laneB b n)) ∧
    WritesLanes (byForm (.vmax g d a) (.vmaxK g d a) (.vmaxI g d a) b) s g d
      (fun n => minmaxF s.vty true (s.lane a.toNat (fmtWidth s.vty) n) (s.laneB b n)) ∧
    WritesLanes (.vabs g d a) s g d (fun n => if (s.num a n).isNan then (fnan s.vty, if (s.num a n).isSig then fIV else 0)
      else (s.lane a.toNat (fmtWidth s.vty) n % 2 ^ (fmtWidth s.vty - 1), 0)) ∧
    WritesLanes (.vneg g d a) s g d (fun n => if (s.num a n).isNan then (fnan s.vty, if (s.num a n).isSig then fIV else 0)
      else ((s.lane a.toNat (fmtWidth s.vty) n + 2 ^ (fmtWidth s.vty - 1)) % 2 ^ fmtWidth s.vty, 0)) ∧
    (∀ r k, WritesLanes (.vdiv g d a r) s g d (fun n => out n (divNum (s.num a n) (s.num r n))) ∧
      WritesLanes (.vdivK g d a k) s g d (fun n => out n (divNum (s.num a n) (decodeNum s.vty (s.laneB (.k k) n)))))

/-- R142, R143, R150: the words that combine, shift, choose and copy bits. A shift by the width or more shifts everything out. Of an lg6 element that a
word computes bits [7:6] are written as zero (R76); VMOV of a register copies every bit. What an immediate is under a 4-bit TYPE, lg6 and the 8-bit
floats is the model's choice (log 12). -/
def Obligations.VectorBits : Prop :=
  ∀ (s : State) (g : Guard) (d a : BitVec 6) (b : Form), s.onVector → tAny s.vty = true →
    let w := fmtWidth s.vty
    let x := fun n => s.lane a.toNat w n
    let z := fun n => s.laneB b n
    let c := fun n => match b with | .imm i => i.toNat | _ => s.laneB b n
    let lg := fun y : Nat => if isLg s.vty then y % 64 else y
    WritesLanes (byForm (.vand g d a) (.vandK g d a) (.vandI g d a) b) s g d (fun n => (lg (x n &&& z n), 0)) ∧
    WritesLanes (byForm (.vor g d a) (.vorK g d a) (.vorI g d a) b) s g d (fun n => (lg (x n ||| z n), 0)) ∧
    WritesLanes (byForm (.vxor g d a) (.vxorK g d a) (.vxorI g d a) b) s g d (fun n => (lg (x n ^^^ z n), 0)) ∧
    (tInt s.vty = true →
      WritesLanes (byForm (.vshl g d a) (.vshlK g d a) (.vshlI g d a) b) s g d (fun n => (if c n < w then x n * 2 ^ c n else 0, 0)) ∧
      WritesLanes (byForm (.vshr g d a) (.vshrK g d a) (.vshrI g d a) b) s g d (fun n => (if c n < w then x n / 2 ^ c n else 0, 0)) ∧
      WritesLanes (byForm (.vsar g d a) (.vsarK g d a) (.vsarI g d a) b) s g d
        (fun n => (wrap w (if c n < w then sgn w (x n) / 2 ^ c n else if sgn w (x n) < 0 then -1 else 0), 0))) ∧
    (∀ (neg : BitVec 1) (p : BitVec 4),
      WritesLanes (byForm (.vsel neg p d a) (.vselK neg p d a) (.vselI neg p d a) b) s ⟨false, false, 0⟩ d
        (fun n => (lg (if (s.readP p.toNat).testBit n = (neg == 0) then x n else z n), 0))) ∧
    WritesLanes (byForm (.vmov g d) (.vmovK g d) (.vmovI g d) b) s g d (fun n => (match b with | .reg _ => z n | _ => lg (z n), 0))

/-- R146, R156, R160, R163, R166: dot products, lg6 products, special functions, permutes and random lanes. Of an lg6 element bits [7:6] are written
as zero (R76). -/
def Obligations.VectorLanes : Prop :=
  ∀ (s : State) (g : Guard) (d a r im : BitVec 6) (k : BitVec 3), s.onVector →
    let w := fmtWidth s.vty
    let x := fun n => s.lane a.toNat w n
    let lg := fun y : Nat => if isLg s.vty then y % 64 else y
    let at_ := fun n => lg (if n < lanesOf w then s.lane a.toNat w n else 0)
    let c := (s.readK k).toInt
    (tDot s.vty = true →
      WritesLanes (.vdot4 g d a r) s g d (fun n => s.intResult s.vty (s.int d n + dot4 s.vty (x n) (s.lane r.toNat w n))) ∧
      WritesLanes (.vdot4K g d a k) s g d (fun n => s.intResult s.vty (s.int d n + dot4 s.vty (x n) (s.laneB (.k k) n)))) ∧
    (isLg s.vty = true → WritesLanes (.vlgmul g d a r) s g d (fun n => lgMul (x n) (s.lane r.toNat w n))) ∧
    (isFlt s.vty = true → ∀ i fn, (i, fn) ∈ [(Instr.vexp2 g d a, SpecFn.exp2), (.vlog2 g d a, .log2), (.vrcp g d a, .rcp), (.vrsqrt g d a, .rsqrt),
        (.vtanh g d a, .tanh), (.vsigm g d a, .sigm), (.vsqrt g d a, .sqrt)] →
      WritesLanes i s g d (fun n => special fn s.vty s.vrm (s.srOf n) (x n))) ∧
    (tAny s.vty = true →
      WritesLanes (.vperm g d a r) s g d (fun n => (at_ (s.lane r.toNat w n % lanesOf w), 0)) ∧
      WritesLanes (.vslideK g d a k) s g d (fun n => (if (n : Int) + c < 0 then 0 else at_ ((n : Int) + c).toNat, 0)) ∧
      WritesLanes (.vslideI g d a im) s g d (fun n => (at_ (n + im.toNat), 0)) ∧
      WritesLanes (.vbcastK g d a k) s g d (fun _ => (at_ (s.readK k).toNat, 0)) ∧
      WritesLanes (.vbcastI g d a im) s g d (fun _ => (at_ im.toNat, 0))) ∧
    (tRand s.vty = true → ∀ bay, s.cur = .stream bay .V → WritesLanes (.vrand g d) s g d (fun n => (randLane s.vty (s.laneSeed 2 n), 0)))

/-- R144: a compare writes the bits below n, clears those above, and sets IV as its kind says. -/
def Obligations.VectorCompare : Prop :=
  ∀ (s : State) (g : Guard) (p : BitVec 4) (a : BitVec 6) (b : Form), s.onVector → tIntFlt s.vty = true →
    let w := fmtWidth s.vty
    let x := fun n => s.lane a.toNat w n
    let out := fun (f : Nat → Bool) n => decide (n < lanesOf w) && (if (s.active g).testBit n then f n else (s.readP p.toNat).testBit n)
    let int := isInt s.vty
    let u := fun n => intVal s.vty (x n)
    let v := fun n => intVal s.vty (s.laneB b n)
    let fu := fun n => decodeNum s.vty (x n)
    let fv := fun n => decodeNum s.vty (s.laneB b n)
    let nan := fun n => (fu n).isNan || (fv n).isNan
    let quiet : Nat → BitVec 8 := fun n => if !int && ((fu n).isSig || (fv n).isSig) then fIV else 0
    let loud : Nat → BitVec 8 := fun n => if !int && nan n then fIV else 0
    let flags := fun f => laneFlags (s.active g) f (lanesOf w)
    WritesP (byForm (.vcmpeq g p a) (.vcmpeqK g p a) (.vcmpeqI g p a) b) s p (out fun n => if int then u n == v n else eqNum (fu n) (fv n)) (flags quiet) ∧
    WritesP (byForm (.vcmpne g p a) (.vcmpneK g p a) (.vcmpneI g p a) b) s p (out fun n => if int then u n != v n else !eqNum (fu n) (fv n)) (flags quiet) ∧
    WritesP (byForm (.vcmplt g p a) (.vcmpltK g p a) (.vcmpltI g p a) b) s p
      (out fun n => if int then decide (u n < v n) else ltNum false (fu n) (fv n)) (flags loud) ∧
    WritesP (byForm (.vcmple g p a) (.vcmpleK g p a) (.vcmpleI g p a) b) s p
      (out fun n => if int then decide (u n ≤ v n) else ltNum false (fu n) (fv n) || eqNum (fu n) (fv n)) (flags loud)

/-- R145: the widening words write a pair of registers of the next width, and an odd vd raises 0x0B. R152, R153, R158: the conversions, from a
register or to one, or through a group of 2^k registers for k steps of width. -/
def Obligations.VectorWidths : Prop :=
  (∀ (s : State) (g : Guard) (d a : BitVec 6) (b : Form), s.onVector → tWiden s.vty = true →
    let f := s.vty
    let t := widerType f
    let out := fun (fi : Int → Int → Int → Int) (ff : Machine.Num → Machine.Num → Machine.Num → Machine.Num × BitVec 8) n =>
      let old := s.elem d.toNat 2 (fmtWidth t) n
      let x := s.lane a.toNat (fmtWidth f) n
      let z := s.laneB b n
      if isInt f then s.intResult t (fi (intVal t old) (intVal f x) (intVal f z))
      else s.roundTo t n (ff (decodeNum t old) (decodeNum f x) (decodeNum f z))
    let goes := fun i fi ff => WritesGroup i s g d 2 (fmtWidth t) (lanesOf (fmtWidth f)) (out fi ff)
    let add := byForm (.vwadd g d a) (.vwaddK g d a) (.vwaddI g d a) b
    let mul := byForm (.vwmul g d a) (.vwmulK g d a) (.vwmulI g d a) b
    let madd := byForm (.vwmadd g d a) (.vwmaddK g d a) (.vwmaddI g d a) b
    (d.toNat % 2 = 0 → goes add (fun _ x y => x + y) (fun _ x y => addNum s.vrm x y) ∧ goes mul (fun _ x y => x * y) (fun _ x y => mulNum x y) ∧
      goes madd (fun o x y => o + x * y) (fun o x y => fmaNum s.vrm o x y)) ∧
    (d.toNat % 2 = 1 → ∀ i ∈ [add, mul, madd], exec i s = s.raise { cause := 0x0B })) ∧
  (∀ (s : State) (g : Guard) (d a f : BitVec 6), s.onVector →
    let t := s.vty
    let u := f.toNat
    let k := stepsTo t u
    let m := 2 ^ k.natAbs
    let src := fun n => if k < 0 then s.elem a.toNat m (fmtWidth t) n else s.lane a.toNat (fmtWidth t) n
    let goes := fun i (out : Nat → Nat × BitVec 8) =>
      WritesGroup i s g d (if k > 0 then m else 1) (fmtWidth u) (if k > 0 then lanesOf (fmtWidth t) else lanesOf (fmtWidth u)) out
    k.natAbs < 3 → (if k > 0 then d else a).toNat % m = 0 →
    (tAny t = true → tAny u = true → goes (.vcvt g d a f) (fun n => convertNum u s.vrm (s.srOf n) (decodeNum t (src n)))) ∧
    (isInt t = true → isInt u = true → k < 0 → goes (.vnarrow g d a f) (fun n => s.intResult u (intVal t (src n)))) ∧
    (t = 0x04 → isFlt u = true ∨ isLg u = true →
      goes (.vlgcvt g d a f) (fun n => convertNum u s.vrm (s.srOf n) (scaleNum (Num.ofInt (intVal t (src n))) (-8)))))

/-- R154, R155, R157: VQUANT writes an image with its trailer and VDEQ reads one; VLGADD sums four lg6 products in each lane of 32 bits. -/
def Obligations.VectorBlock : Prop :=
  ∀ (s : State) (g : Guard) (d a b f : BitVec 6), s.onVector →
    let t := s.vty
    let n := lanesOf (fmtWidth t)
    let x := (List.range n).map (s.num a)
    let q := quantAll f.toNat s.vrm (pieces 32 n x) (pieces 32 n ((List.range n).map s.srOf))
    let payload := packBytes (fmtWidth f.toNat) q.1 ++ q.2.1.map (BitVec.ofNat 8)
    let scale := fun i => s.readV a.toNat / 2 ^ (n * fmtWidth f.toNat + 8 * (i / 32)) % 256
    (isFlt t = true → imageFmt t f.toNat = true →
      WritesV (.vquant d a f) s d
        (bytesNat (payload ++ List.replicate (next32 payload.length - payload.length) 0 ++ trailer (largestF32 x) q.2.2.2 n f.toNat payload)) q.2.2.1 ∧
      WritesLanes (.vdeq g d a f) s g d (fun i => if scale i = 0xFF then (fnan t, fIV)
        else convertNum t s.vrm (s.srOf i) (blockNum f.toNat (scale i) (s.lane a.toNat (fmtWidth f.toNat) i)))) ∧
    (isLg t = true → ∃ t, exec (.vlgadd g d a b) s = .next t ∧ WroteLanes s t g d.toNat 32 (fun j =>
      let p := fun i => lgMul (s.lane a.toNat 8 (4 * j + i)) (s.lane b.toNat 8 (4 * j + i))
      let r := s.intResult 0x04 (sgn 32 (s.lane d.toNat 32 j) + (lgTerm (p 0).1 + lgTerm (p 1).1 + lgTerm (p 2).1 + lgTerm (p 3).1))
      (r.1, r.2 ||| (p 0).2 ||| (p 1).2 ||| (p 2).2 ||| (p 3).2)))

/-- R161, R162: a reduction writes lane 0 of vd with the tree of the lanes of va, an inactive lane standing for the identity, and keeps the other
lanes; a scan writes the active lanes, the exclusive form one lane later. R164: VZIP and VUNZIP write the registers vd and vd + 1; an odd vd, or an
odd va of VUNZIP, raises 0x0B. -/
def Obligations.VectorAcross : Prop :=
  (∀ (s : State) (g : Guard) (d a : BitVec 6), s.onVector → tIntFlt s.vty = true →
    let w := fmtWidth s.vty
    let ins := fun k => (List.range (lanesOf w)).map fun n =>
      if (s.active g).testBit n then s.lane a.toNat w n else redIdentity s.vty k
    (∀ i k, (i, k) ∈ [(Instr.vrsum g d a, Red.sum), (.vrmax g d a, .max), (.vrmin g d a, .min)] →
      ∃ t, exec i s = .next t ∧ t.lane d.toNat w 0 = (tree (redOp s k) 12 (ins k)).1 % 2 ^ w ∧
        (∀ n, 0 < n → n < lanesOf w → t.lane d.toNat w n = s.lane d.toNat w n) ∧
        RetiredV s t (· ≠ d.toNat) (tree (redOp s k) 12 (ins k)).2) ∧
    (∀ i ex, (i, ex) ∈ [(Instr.vscan g d a, false), (.vscanExcl g d a, true)] →
      let r := scanGo (redOp s .sum) 12 1 (ins .sum)
      ∃ t, exec i s = .next t ∧
        (∀ n, n < lanesOf w → t.lane d.toNat w n = if (s.active g).testBit n
          then (if ex then (if n = 0 then 0 else r.1.getD (n - 1) 0) else r.1.getD n 0) % 2 ^ w else s.lane d.toNat w n) ∧
        RetiredV s t (· ≠ d.toNat) r.2)) ∧
  (∀ (s : State) (g : Guard) (d a b : BitVec 6), s.onVector → tAny s.vty = true →
    let w := fmtWidth s.vty
    let n := lanesOf w
    let lg := fun y : Nat => if isLg s.vty then y % 64 else y
    let z := fun i => lg (s.lane (if i % 2 = 0 then a.toNat else b.toNat) w (i / 2))
    let u := fun i => lg (if i < n then s.lane a.toNat w i else s.lane (a.toNat + 1) w (i - n))
    let puts := fun i (x y : Nat → Nat) => ∃ t, exec i s = .next t ∧ RetiredV s t (fun r => r ≠ d.toNat ∧ r ≠ d.toNat + 1) 0 ∧
      ∀ j, j < n → t.lane d.toNat w j = (if (s.active g).testBit j then x j else s.lane d.toNat w j) ∧
        t.lane (d.toNat + 1) w j = (if (s.active g).testBit j then y j else s.lane (d.toNat + 1) w j)
    (d.toNat % 2 = 0 → puts (.vzip g d a b) z (fun j => z (n + j))) ∧
    (d.toNat % 2 = 0 → a.toNat % 2 = 0 → puts (.vunzip g d a) (fun j => u (2 * j)) (fun j => u (2 * j + 1))) ∧
    (d.toNat % 2 = 1 → exec (.vzip g d a b) s = s.raise { cause := 0x0B } ∧ exec (.vunzip g d a) s = s.raise { cause := 0x0B }) ∧
    (a.toNat % 2 = 1 → exec (.vunzip g d a) s = s.raise { cause := 0x0B }))

/-- R147 to R149: the predicate words. The guard of PAND, POR, PXOR and PNOT governs all 1024 bits. R129, R133, R176: VSHAPE sets its fields and keeps
WBASE and FILL; VROT moves the window and writes the stage predicates; VKSET.
That 0x0C of a block-format TYPE comes before 0x0A of VSHAPE's operand is log 86. -/
def Obligations.PredicatesAndState : Prop :=
  (∀ (s : State) (g : Guard) (d a b : BitVec 4) (k : BitVec 3) (im : BitVec 6), s.onVector →
    let n := lanesOf (fmtWidth s.vty)
    let p := fun (r : BitVec 4) i => (s.readP r.toNat).testBit i
    let on := fun i => (s.active g).testBit i
    let whole := fun (f : Nat → Bool) i => if on i then f i else p d i
    let counted := (List.range n).filter fun i => on i && p a i
    let prefix_ := fun c i => decide (i < n) && (if on i then decide (i < min c n) else p d i)
    WritesP (.pand g d a b) s d (whole fun i => p a i && p b i) 0 ∧ WritesP (.por g d a b) s d (whole fun i => p a i || p b i) 0 ∧
    WritesP (.pxor g d a b) s d (whole fun i => p a i != p b i) 0 ∧ WritesP (.pnot g d a) s d (whole fun i => !p a i) 0 ∧
    (tAny s.vty = true → WritesK (.pcnt g k a) s k (BitVec.ofNat 64 counted.length) ∧
      WritesK (.pfirst g k a) s k (BitVec.ofNat 64 (counted.headD n)) ∧
      WritesP (.plenK g d k) s d (prefix_ (s.readK k).toNat) 0 ∧ WritesP (.plenI g d im) s d (prefix_ im.toNat) 0)) ∧
  (∀ (s : State) (k : BitVec 3) (im : BitVec 6), s.onVector →
    let x := (s.readK k).toNat
    let moves := fun t => t.flags = s.flags ∧ t.pc = s.pc + 4 ∧ SameMem s t
    (tAny s.vty = false → exec (.vshape k) s = s.raise { cause := 0x0C }) ∧
    (tAny s.vty = true → isCode (x % 64) = true → x / 64 % 8 ≤ 4 → ∃ t, exec (.vshape k) s = .next t ∧ moves t ∧
      vsType t.vshape = x % 64 ∧ vsRm t.vshape = x / 64 % 8 ∧ vsIsat t.vshape = x.testBit 9 ∧ vsStg t.vshape = x / 2 ^ 12 % 8 ∧
      vsWbase t.vshape = vsWbase s.vshape ∧ vsFill t.vshape = vsFill s.vshape ∧
      OnlyActor s t (fun y z => vecMoves { y with vshape := z.vshape } z) (fun x z => jvecMoves { x with vshape := z.vshape } z)) ∧
    (tAny s.vty = true → isCode (x % 64) = false ∨ x / 64 % 8 > 4 → exec (.vshape k) s = s.raise { cause := 0x0A }) ∧
    (∀ b, s.cur = .stream b .V → WritesK (.vkset k im) s k (BitVec.ofInt 64 im.toInt) ∧
      (tAny s.vty = true → ∃ t, exec .vrot s = .next t ∧ t.flags = s.flags ∧ t.pc = s.pc + 4 ∧ SameMem s t ∧
        vsWbase t.vshape = (vsWbase s.vshape + 1) % 32 ∧ vsFill t.vshape = min (vsFill s.vshape + 1) 7 ∧ vsType t.vshape = vsType s.vshape ∧
        vsRm t.vshape = vsRm s.vshape ∧ vsIsat t.vshape = vsIsat s.vshape ∧ vsStg t.vshape = vsStg s.vshape ∧
        (∀ j, j < 31 → t.readV (32 + j) = s.readV (33 + j)) ∧ t.readV 63 = s.readV 32 ∧ (∀ r, r < 32 → t.readV r = s.readV r) ∧
        (∀ r, r < 8 → t.readP r = s.readP r) ∧
        (∀ j i, j < 8 → (t.readP (8 + j)).testBit i = (decide (i < lanesOf (fmtWidth s.vty)) && decide (j ≤ vsStg s.vshape) &&
          decide (j ≤ vsFill t.vshape) && decide (remAround (s.bay b).v.lc s.pc.toNat ≥ vsStg s.vshape - j + 1))) ∧
        OnlyActor s t (fun y z => vecMoves { y with vshape := z.vshape, preg := z.preg } z) (fun x _ => x))))

/-! ### Loops -/

/-- R406, R172: LOOP, LOOPI, VLOOP and VLOOPI enter where the counter is free, the body ends inside the section, and no active loop around the word (for a
vector loop, no active loop) ends before the body does; otherwise they raise 0x02 or 0x0A. A strided LOOP of stride 0 raises 0xA2. R172, R249, R407: at
the end of a body the innermost loop that ends there starts its next iteration, or ends. R406, R172: LOOPR and VLOOPR take the trip count
rp[x + 1] − rp[x], or 0, from a w32 tensor; a jointer's handle is a free value (log 19). -/
def Obligations.LoopsEnterSkipAndEnd : Prop :=
  (∀ (s : State) (c : BitVec 2) (a b : BitVec 5) (n15 : BitVec 15) (len : BitVec 8) (k : BitVec 3) (vl vn : BitVec 6),
    let pc := s.pc.toNat
    let sound := fun (e : Nat) (inner : Loop → Prop) => (Tab.get {} s.lcs c.toNat).active = false ∧ e ≤ s.codeRange.1 + s.codeRange.2 ∧
      ∀ x ∈ s.lcs, x.2.active = true → inner x.2 → e ≤ x.2.stop
    let e := pc + 4 + 4 * len.toNat
    let ve := pc + 4 + 4 * vl.toNat
    let around := fun x : Loop => x.start.toNat ≤ pc ∧ pc < x.stop
    (s.onScalar →
      let st := s.readS (b + 1)
      let n := strideCount (s.readS a).toInt (s.readS b).toInt st.toInt
      let goes := fun i n idx st => EntersLoop i s c.toNat n len.toNat idx st (fun y z => seqMoves { y with lc := z.lc } z)
        (fun x z => jtrMoves { x with lc := z.lc } z)
      (sound e around → goes (.loop c a len) ((s.readS a).toNat % 2 ^ 32) 0 1 ∧ goes (.loopi c n15 len) n15.toNat 0 1 ∧
        (st ≠ 0 → n < 2 ^ 32 → goes (.loopStrided c a b len) n (s.readS a) st)) ∧
      (¬ sound e around → exec (.loop c a len) s = s.raise { cause := 0x02 } ∧ exec (.loopi c n15 len) s = s.raise { cause := 0x02 } ∧
        (st ≠ 0 → exec (.loopStrided c a b len) s = s.raise { cause := 0x02 })) ∧
      (st = 0 → exec (.loopStrided c a b len) s = s.raise { cause := 0xA2 })) ∧
    (∀ bay, s.cur = .stream bay .V →
      let goes := fun i n => EntersLoop i s c.toNat n vl.toNat 0 1
        (fun y z => vecMoves { y with vshape := y.vshape &&& 0x0FFFFFF, v := { y.v with lc := z.v.lc } } z) (fun x _ => x)
      (sound ve (fun _ => True) → goes (.vloop c vl k) ((s.readK k).toNat % 2 ^ 32) ∧ goes (.vloopi c vl vn) vn.toNat) ∧
      (¬ sound ve (fun _ => True) → exec (.vloop c vl k) s = s.raise { cause := 0x0A } ∧ exec (.vloopi c vl vn) s = s.raise { cause := 0x0A }))) ∧
  (∀ s : State, ((∃ b e, s.cur = .stream b e) ∨ ∃ c p, s.cur = .jointer c p) →
    let ends := fun j (l : Loop) => Tab.get {} s.lcs j = l ∧ l.active = true ∧ l.stop = endPc s.pc
    let keeps := fun (t : State) (out : Nat → Prop) => (∀ k, out k → Tab.get {} t.lcs k = Tab.get {} s.lcs k) ∧ SameMem s t ∧
      (∀ r, t.readS r = s.readS r) ∧ (∀ r, t.readK r = s.readK r) ∧ t.flags = s.flags ∧ t = { s with bays := t.bays, jointers := t.jointers }
    s.lcs.Pairwise (fun x y => x.1 ≠ y.1) →
    (∃ t, exec .loopBodyEnd s = .next t) ∧
    (∀ j l, ends j l → l.rem ≠ 0 → (∀ k m, ends k m → k ≠ j → m.start.toNat < l.start.toNat) →
      ∃ t, exec .loopBodyEnd s = .next t ∧ t.pc = l.start ∧ Tab.get {} t.lcs j = { l with rem := l.rem - 1, idx := l.idx + l.step } ∧ keeps t (· ≠ j)) ∧
    (∀ j l, ends j l → l.rem = 0 → (∀ k m, ends k m → k = j) →
      ∃ t, exec .loopBodyEnd s = .next t ∧ t.pc = s.pc ∧ Tab.get {} t.lcs j = { l with active := false } ∧ keeps t (· ≠ j)) ∧
    ((∀ j l, ¬ ends j l) → ∃ t, exec .loopBodyEnd s = .next t ∧ t.pc = s.pc ∧ keeps t (fun _ => True))) ∧
  (∀ (s s1 s2 : State) (b : Nat) (c : BitVec 2) (a : BitVec 5) (h : BitVec 4) (len : BitVec 8) (k : BitVec 3) (vl : BitVec 6) (v : View)
    (x0 x1 : List Nat) (l0 l1 : List Span) (r0 r1 : Nat),
    (s.cur = .stream b .S → loopCheck 0x02 false c.toNat len.toNat s = .ok () → rowPtrView b h s = .ok v →
      seqPlace b v 0 false spAny (s.readS a).toInt s = .ok (x0, l0) → seqPlace b v 0 false spAny ((s.readS a).toInt + 1) s = .ok (x1, l1) →
      r0 = bytesNat (s.seqSpans b l0).1 → s1 = (s.seqSpans b l0).2 → r1 = bytesNat (s1.seqSpans b l1).1 → s2 = (s1.seqSpans b l1).2 →
      ∃ t, exec (.loopr c a h len) s = .next t ∧ t = loopEnter c.toNat (r1 - r0) len.toNat 0 1 s2 ∧
        t.pc = (if r1 ≤ r0 then BitVec.ofNat 16 (s.pc.toNat + 4 + 4 * len.toNat) else s.pc + 4) ∧ (∀ r, t.readS r = s.readS r) ∧ SameMem s t) ∧
    (s.cur = .stream b .V → loopCheck 0x0A true c.toNat vl.toNat s = .ok () → rowPtrView b h s = .ok v →
      s.readIndex (s.bayCtx b) v 0 spBay (s.readK k).toInt = .ok (r0, s1) →
      s1.readIndex (s1.bayCtx b) v 0 spBay ((s.readK k).toInt + 1) = .ok (r1, s2) →
      ∃ t, exec (.vloopr k c vl h) s = .next t ∧ t = vloopEnter c.toNat (r1 - r0) vl.toNat s2 ∧
        t.pc = (if r1 ≤ r0 then BitVec.ofNat 16 (s.pc.toNat + 4 + 4 * vl.toNat) else s.pc + 4) ∧ (∀ r, t.readK r = s.readK r) ∧ SameMem s t)) ∧
  (∀ (s s1 s2 : State) (ch p : Nat) (c : BitVec 2) (a : BitVec 5) (h : BitVec 4) (len : BitVec 8) (hw : Word × Word) (v : View) (r0 r1 : Nat),
    s.cur = .jointer ch p → hw = (Config.openValue 19 [0], Config.openValue 19 [1]) →
    (loopCheck 0x02 false c.toNat len.toNat s = .ok () → s.viewH (s.chainCtx ch) hw = .ok v → v.fmt = 0x0C → v.plainE = .ok () →
      s.readIndex (s.chainCtx ch) v 0 spFar (s.readS a).toInt = .ok (r0, s1) →
      s1.readIndex (s1.chainCtx ch) v 0 spFar ((s.readS a).toInt + 1) = .ok (r1, s2) →
      ∃ t, exec (.loopr c a h len) s = .next t ∧ t = loopEnter c.toNat (r1 - r0) len.toNat 0 1 s2 ∧
        t.pc = (if r1 ≤ r0 then BitVec.ofNat 16 (s.pc.toNat + 4 + 4 * len.toNat) else s.pc + 4) ∧ (∀ r, t.readS r = s.readS r) ∧ SameMem s t) ∧
    (loopCheck 0x02 false c.toNat len.toNat s = .error (trapC 0x02) → exec (.loopr c a h len) s = s.raise { cause := 0x02 }))

/-! ### Memory words of the sequencer -/

/-- R229: LD and LDS write the element, extended, as the sequencer sees it: queued stores show. R229, R223: ST enters the write queue, when that has
room, and reaches a SHARED granule at once. Memory changes only there. R229, R218: a queued store before which no earlier one must land, and whose bytes
no unit locks (R220), writes its bytes and leaves the queue; no other byte changes. -/
def Obligations.ScalarMemory : Prop :=
  (∀ (s : State) (b : Nat) (d a : BitVec 5) (h : BitVec 4) (sz : BitVec 2) (im : BitVec 9) (v : View) (x : List Nat) (l : List Span),
    s.cur = .stream b .S → seqView b h (widthOf sz) s = .ok v → seqPlace b v 0 false spAny (elemIndex a im s) s = .ok (x, l) →
    let e := bytesNat (s.seqSpans b l).1
    let goes := fun i (u : Word) => ∃ t, exec i s = .next t ∧ t.readS d = (if d = 0 then 0 else u) ∧ (∀ r, r ≠ d → t.readS r = s.readS r) ∧
      t.pc = s.pc + 4 ∧ SameMem s t ∧ OnlyReader s t b seqWrites
    goes (.ld d a h sz im) (BitVec.ofNat 64 e) ∧ goes (.lds d a h sz im) (BitVec.ofInt 64 (sgn (widthOf sz) e))) ∧
  (∀ (s : State) (b : Nat) (d a : BitVec 5) (h : BitVec 4) (sz : BitVec 2) (im : BitVec 9) (v : View) (x : List Nat) (l : List Span),
    s.cur = .stream b .S → seqView b h (widthOf sz) s = .ok v → seqPlace b v 2 true spAny (elemIndex a im s) s = .ok (x, l) →
    s.checkConflicts (s.bayCtx b) v 2 l = .ok () →
    let bytes := natBytes (widthOf sz / 8) (lgMask v.fmt (s.readS d).toNat)
    ((∀ y ∈ l, y.loc.code ≠ 2) → (s.bay b).stores.length < 8 → ∃ t r, exec (.st d a h sz im) s = .next t ∧
      (t.bay b).stores = (s.bay b).stores ++ [r] ∧ r.pieces = storePieces l bytes ∧ r.tid = v.tid ∧ SameMem s t ∧ t.pc = s.pc + 4 ∧
      OnlyBay s t b (fun y z => seqMoves { y with stores := z.stores } z)) ∧
    ((∃ y ∈ l, y.loc.code = 2) → exec (.st d a h sz im) s = .next (s.writeSpans (s.bayCtx b) v.tid l bytes).retire ∧
      SameMemOut s (s.writeSpans (s.bayCtx b) v.tid l bytes).retire l)) ∧
  (∀ (s : State) (b n : Nat) (r : StoreRec), (s.bay b).stores[n]? = some r → s.storeLocked b r = false →
    (∀ p ∈ (s.bay b).stores.take n, p.before r = false) →
    ∃ t, exec (.storeCompletion b n) s = .next t ∧ (t.bay b).stores = (s.bay b).stores.eraseIdx n ∧
      (∀ a, (∀ p ∈ r.pieces, a < p.addr ∨ p.addr + p.bytes.length ≤ a) → Memory.read t.mem a = Memory.read s.mem a) ∧
      (∀ p, r.pieces = [p] → ∀ i, i < p.bytes.length → Memory.read t.mem (p.addr + i) = nth 0 p.bytes i) ∧
      t = { s with bays := t.bays, mem := t.mem } ∧ (∀ q, q ≠ b → (t.bay q).stores = (s.bay q).stores) ∧
      ∀ q, t.bay q = { s.bay q with
        stores := (t.bay q).stores, dirtyLines := (t.bay q).dirtyLines, dlo := (t.bay q).dlo, dhi := (t.bay q).dhi })

/-- R230: an AMO outside a paired job reads the element, writes the new one (CAS only where the old one equals s(sd)), and writes the old one,
sign-extended, to sd. R228: it waits for the queued stores. R455: in a paired job it posts its operands, and once both copies have been compared the
primary performs it and both take its result; on a bank each copy performs it (log 17). -/
def Obligations.AtomicsReadThenWrite : Prop :=
  (∀ (s : State) (b : Nat) (d a r : BitVec 5) (h : BitVec 4) (wd : BitVec 1) (v : View) (x : List Nat) (l : List Span),
    let w := if wd = 1 then 64 else 32
    s.cur = .stream b .S → (s.bay b).paired = false → (s.bay b).stores = [] → seqView b h w s = .ok v → earlySpace v spAmo = .ok () →
    seqPlace b v 2 true spAmo (s.readS a).toInt s = .ok (x, l) →
    let s1 := (s.readSpans (s.bayCtx b) l).2
    let old := elemOf v.width (v.offset x).2 (s.readSpans (s.bayCtx b) l).1
    let va := (s.readS r).toNat % 2 ^ w
    let goes := fun i (new : Option Nat) => ∃ t, exec i s = .next t ∧
      t = ((match new with | some z => s1.writeElem (s1.bayCtx b) v x l z | none => s1).writeS d (BitVec.ofInt 64 (sgn w old))).retire ∧
      t.readS d = (if d = 0 then 0 else BitVec.ofInt 64 (sgn w old)) ∧ (∀ r, r ≠ d → t.readS r = s.readS r) ∧ t.pc = s.pc + 4 ∧
      t.flags = s.flags ∧ SameMemOut s t l
    goes (.amoAdd d a h r wd) (some ((old + va) % 2 ^ w)) ∧ goes (.amoMin d a h r wd) (some (if sgn w va < sgn w old then va else old)) ∧
    goes (.amoMax d a h r wd) (some (if sgn w old < sgn w va then va else old)) ∧ goes (.amoSwap d a h r wd) (some va) ∧
    goes (.amoCas d a h r wd) (if old = (s.readS d).toNat % 2 ^ w then some va else none) ∧ goes (.amoOr d a h r wd) (some (old ||| va))) ∧
  (∀ (s : State) (b : Nat) (d a r : BitVec 5) (h : BitVec 4) (wd : BitVec 1) (v : View) (x : List Nat) (l : List Span) (op : Nat) (i : Instr),
    let w := if wd = 1 then 64 else 32
    let y := s.bay b
    (op, i) ∈ [(0, Instr.amoAdd d a h r wd), (1, .amoMin d a h r wd), (2, .amoMax d a h r wd), (3, .amoSwap d a h r wd), (4, .amoCas d a h r wd),
      (5, .amoOr d a h r wd)] →
    s.cur = .stream b .S → seqView b h w s = .ok v → earlySpace v spAmo = .ok () → seqPlace b v 2 true spAmo (s.readS a).toInt s = .ok (x, l) →
    let s1 := (s.readSpans (s.bayCtx b) l).2
    let old := elemOf v.width (v.offset x).2 (s.readSpans (s.bayCtx b) l).1
    let va := (s.readS r).toNat % 2 ^ w
    let ve := (s.readS d).toNat % 2 ^ w
    let done := match amoNew op w old va ve with | some z => s1.writeElem (s1.bayCtx b) v x l z | none => s1
    let gives := fun (t : State) (o : Nat) => t.readS d = (if d = 0 then 0 else BitVec.ofInt 64 (sgn w o)) ∧ (∀ r, r ≠ d → t.readS r = s.readS r) ∧
      t.pc = s.pc + 4 ∧ (t.bay b).merge = none
    (y.stores ≠ [] → Waits i s b) ∧
    (y.stores = [] → y.paired = true →
      (y.merge = none → ∃ t, exec i s = .next t ∧ t.pc = s.pc ∧ SameMem s t ∧ OnlyBay s t b (fun y _ => { y with
        merge := some [4, word op, word v.tid, s.readS a, word va, if op = 4 then word ve else 0, y.dlo, y.dhi], mergedAt := s.clock, mergeDone := false
        merged := none })) ∧
      (y.merge ≠ none → y.mergeDone = false → Waits i s b) ∧
      (y.merge ≠ none → y.mergeDone = true → (s.jobOf b).primary = true → ∀ u, s.twinBay b = some u → u ≠ b → ∃ t, exec i s = .next t ∧
        t.mem = done.mem ∧ gives t old ∧ (t.bay u).merged = some (word old) ∧ SameMemOut s t l) ∧
      (y.merge ≠ none → y.mergeDone = true → (s.jobOf b).primary = false →
        (y.merged = none → Waits i s b) ∧
        ∀ o, y.merged = some o → ∃ t, exec i s = .next t ∧ gives t o.toNat ∧ t.mem = (if eSpace v.w = 0 then done.mem else s.mem))))

/-- R231, R232, R225: FENCE passes when no queued store is to a named space; PHASE arrives, and passes once the phase has completed; the
completion and the commit of a granule. -/
def Obligations.PhaseCommitsAndAdvances : Prop :=
  ∀ (s : State) (b slot g : Nat) (m : BitVec 7),
    (s.cur = .stream b .S →
      ((∀ r ∈ (s.bay b).stores, ((if m = 0 then 0x7F else m).toNat).testBit r.space.code = false) →
        ∃ t, exec (.fence m) s = .next t ∧ Passed s t) ∧
      ((s.bay b).phased = true → ∃ t, exec .phase s = .next t ∧ t.pc = s.pc + 4 ∧ (t.bay b).phased = false ∧ SameMem s t ∧
        OnlyBay s t b (fun y z => seqMoves { y with phased := false } z)) ∧
      ((s.bay b).phased = false → (s.bay b).arrived = false → (s.bay b).stores = [] →
        ∃ t, exec .phase s = .next t ∧ (t.bay b).arrived = true ∧ t.pc = s.pc ∧ SameMem s t)) ∧
    ((s.job slot).bays ≠ [] → (s.job slot).state = .run → (∀ c ∈ (s.job slot).bays, (s.bay c).slot = some slot ∧ (s.bay c).arrived = true) → (∃ c ∈ (s.job slot).bays, (s.bay c).live = true) →
      s.swept slot = true → (∀ x ∈ s.laths, x.2.slot = some slot → ∀ u ∈ x.2.updates, u.old = false) →
      ∃ t, exec (.phaseCompletion slot) s = .next t ∧ (t.job slot).q = (s.job slot).q + 1 ∧ SameMem s t ∧
        (∀ c, c ∈ (s.job slot).bays → (s.bay c).live = true → (t.bay c).arrived = false ∧ (t.bay c).phased = true) ∧
        (∀ c, c ∉ (s.job slot).bays → t.bay c = s.bay c)) ∧
    (Tab.get 256 s.metaJob g = slot → ∃ t, exec (.commitSweep slot g) s = .next t ∧
      Tab.get 0 t.meta_ g = commitMeta (s.job slot).q (Tab.get 0 s.meta_ g) ∧ t = { s with meta_ := t.meta_ })

/-! ### Control registers, faults and traps -/

/-- R178, R179, R402: CSRR reads; CSRW, CSRS and CSRC write a register of the bay's sequencer and give the old value. Every other control
register keeps its value. R210: a write of BANKFMTi waits while a command holds bank i under the lock. On a jointer CSRR reads FLAGS and VSHAPE alone, and the other three are
not available there (R60). -/
def Obligations.ControlRegisters : Prop :=
  (∀ (s : State) (b : Nat) (d a : BitVec 5) (n : BitVec 12), s.cur = .stream b .S →
    let x := s.readS a
    let p := (s.bay b).partNo
    (∀ v, s.csr b n.toNat = some v → Writes (.csrr d n) s d v) ∧
    (s.csr b n.toNat = none → exec (.csrr d n) s = s.raise { cause := 0x02 }) ∧
    (256 ≤ n.toNat → s.csr b n.toNat ≠ none → s.lockedFor b (n.toNat - 256) .S = true → ∀ i ∈ [Instr.csrw d a n, .csrs d a n, .csrc d a n],
      Waits i s b) ∧
    (∀ old, s.csr b n.toNat = some old → csrWritable (s.bay b).det n.toNat = true → n.toNat < 256 ∨ s.lockedFor b (n.toNat - 256) .S = false →
      ∀ i v, (i, v) ∈ [(Instr.csrw d a n, x), (.csrs d a n, old ||| x), (.csrc d a n, old &&& ~~~ x)] →
      ∃ t, exec i s = .next t ∧ t.csr b n.toNat = some (csrAfter n.toNat old v) ∧ (∀ m, m ≠ n.toNat → t.csr b m = s.csr b m) ∧
        t.readS d = (if d = 0 then 0 else old) ∧ (∀ r, r ≠ d → t.readS r = s.readS r) ∧ t.pc = s.pc + 4 ∧ SameMem s t ∧
        t = { s with bays := t.bays, parts := t.parts } ∧ (∀ c, c ≠ b → t.bay c = s.bay c) ∧ t.bay b = csrWrites (s.bay b) (t.bay b) ∧
        (∀ q, q ≠ p → t.part q = s.part q) ∧ t.part p = { s.part p with
          framePend := if n = 0x040 ∧ frameLenGood (bits v 15 0) then some (BitVec.ofNat 16 (bits v 15 0)) else (s.part p).framePend }) ∧
    (csrWritable (s.bay b).det n.toNat = false ∨ s.csr b n.toNat = none → ∀ i ∈ [Instr.csrw d a n, .csrs d a n, .csrc d a n],
      exec i s = s.raise { cause := 0x02 })) ∧
  (∀ (s : State) (c p : Nat) (d : BitVec 5) (n : BitVec 12), s.cur = .jointer c p →
    (n = 0x000 → Writes (.csrr d n) s d ((s.jtr c p).flags.zeroExtend 64)) ∧ (n = 0x008 → Writes (.csrr d n) s d ((s.jtr c p).vshape.zeroExtend 64)) ∧
    (n ≠ 0x000 → n ≠ 0x008 → exec (.csrr d n) s = s.raise { cause := 0x02 })) ∧
  (∀ (last : Bool) (d a : BitVec 5) (n : BitVec 12), ∀ i ∈ [Instr.csrw d a n, .csrs d a n, .csrc d a n], ∀ w, encode i = some w →
    decodeWord (.jointerScalar last) w = .error .notAvailable ∧ encCause (.jointerScalar last) .notAvailable = 0x05)

/-- R195, R198, R201: a fault of the sequencer, TRAP, a word that does not decode, and a waiting fault enter the handler; the first three at the word,
TRAP at the word after it. R198, R325: a fault of the sequencer that no handler takes, or whose handler's address is no good target, ends the job in its bay; that the other bays
go on is the model's reading (log 7). R16, R195, R338, R353: a fault of an
engine stream halts it and waits for the sequencer; one of a lath halts the lath and waits for the sequencer of its job's bay 0; one of a jointer stops its
chain. -/
def Obligations.FaultsTaken : Prop :=
  (∀ (s : State) (b : Nat), (s.bay b).tIn = false → (s.bay b).tvecEn = true → (s.bay b).targetOk ((s.bay b).tvecOff.toNat * 4) = true →
    (s.cur = .stream b .S →
      (∀ rc, ∃ t, s.raise rc = .next t ∧ TookTrap s t b { rc with pc := s.pc } s.pc (s.bay b).pend) ∧
      (∀ n, ∃ t, exec (.trap n) s = .next t ∧
        TookTrap s t b { cause := BitVec.ofNat 8 (0xE0 + n.toNat), pc := s.pc } (s.pc + 4) (s.bay b).pend) ∧
      (∀ c, ∃ t, exec (.encodingFault c) s = .next t ∧ TookTrap s t b { cause := c, pc := s.pc } s.pc (s.bay b).pend)) ∧
    (∀ p l, (s.bay b).pend = p :: l → (s.bay b).boundary = true →
      ∃ t, exec (.trapEntry b) s = .next t ∧ TookTrap s t b p.rc (s.bay b).pc l)) ∧
  (∀ (s : State) (b : Nat) (rc : FaultRec), s.cur = .stream b .S →
    (s.bay b).tIn = true ∨ (s.bay b).tvecEn = false ∨ (s.bay b).targetOk ((s.bay b).tvecOff.toNat * 4) = false →
    ∃ t, s.raise rc = .next t ∧ EndsJob s t b { rc with pc := s.pc } ∧
      ((s.bay b).tIn = false → (s.bay b).tvecEn = true → (t.bay b).cause = rc.cause ∧ (t.bay b).epc = s.pc ∧ (t.bay b).tIn = true)) ∧
  (∀ (s : State) (rc : FaultRec),
    (∀ b e, e ∈ engines → s.cur = .stream b e → ∃ t, s.raise rc = .next t ∧
      ((t.bay b).stream e).run = false ∧ ((t.bay b).stream e).rc = some { rc with eng := BitVec.ofNat 3 e.code, pc := s.pc } ∧
      (t.bay b).tHalt.getLsbD e.idx = true ∧ (t.bay b).evpend.getLsbD evEnd = true ∧
      (∃ p ∈ (t.bay b).pend, p.rc = { rc with eng := BitVec.ofNat 3 e.code, pc := s.pc }) ∧
      (∀ f, f ≠ e → (t.bay b).stream f = (s.bay b).stream f) ∧ SameMem s t ∧
      OnlyBay s t b (fun y z => { y with
        v := z.v, m := z.m, l := z.l, w := z.w, tHalt := z.tHalt, pend := z.pend, evpend := z.evpend, dirty := z.dirty })) ∧
    (∀ n, s.cur = .lath n → ∃ t, s.raise rc = .next t ∧ (t.lathAt n).hlt = true ∧ (∀ m, m ≠ n → t.lathAt m = s.lathAt m) ∧ SameMemRing s t ∧
      ∀ j b l, (s.lathAt n).slot = some j → (s.job j).bays = b :: l → (s.bay b).live = true → (s.bay b).slot = some j →
        SameMem s t ∧ ∃ p ∈ (t.bay b).pend, p.rank = 5 ∧ p.rc.cause = rc.cause ∧ p.rc.unit = BitVec.ofNat 8 n) ∧
    (∀ c p, s.cur = .jointer c p → ∃ t, s.raise rc = .next t ∧ SameMem s t ∧ (t.chain c).inFrame = false ∧ chainEn (t.chain c) = false ∧
      (∀ q, q < 8 → (t.jtr c q).run = false) ∧ (∀ k, k ≠ c → t.chain k = s.chain k) ∧
      ∃ l, t.outbox = (3, rc.cause :: BitVec.ofNat 8 c :: BitVec.ofNat 8 p :: l) :: s.outbox))

/-- R200: TRET goes to EPC, leaves the handler, and restarts the streams that RESUME names at their faulting words. R203: WAITEV gives the named
events that are pending and clears them; without one it waits; a bad mask raises 0x02. -/
def Obligations.TrapsAndEvents : Prop :=
  (∀ (s : State) (b : Nat), s.cur = .stream b .S →
    let y := s.bay b
    ((y.tIn && y.targetOk y.epc.toNat && y.resumeOk) = true → ∃ t, exec .tret s = .next t ∧ t.pc = y.epc ∧ (t.bay b).tIn = false ∧
      (t.bay b).tHalt = y.tHalt &&& ~~~ y.tResume ∧ (t.bay b).tResume = 0 ∧
      (∀ e ∈ engines, y.tResume.getLsbD e.idx = false → (t.bay b).stream e = y.stream e) ∧
      (∀ e ∈ engines, y.tResume.getLsbD e.idx = true → ∃ rc, (y.stream e).rc = some rc ∧ rc.rst = true ∧
        (t.bay b).stream e = { y.stream e with run := true, rc := none, pc := rc.pc, adv := false, fetched := 0 }) ∧ SameMem s t ∧
      OnlyBay s t b (fun y z => { y with
        v := z.v, m := z.m, l := z.l, w := z.w, tHalt := z.tHalt, tResume := 0, tIn := false, pc := y.epc, adv := false, waiting := none,
        fetched := 0, dirty := z.dirty })) ∧
    ((y.tIn && y.targetOk y.epc.toNat && y.resumeOk) = false → exec .tret s = s.raise { cause := 0x02 })) ∧
  (∀ (s : State) (b : Nat) (d : BitVec 5) (m : BitVec 8), s.cur = .stream b .S →
    let ev := (s.bay b).evpend
    let k : BitVec 6 := BitVec.ofNat 6 m.toNat
    (m ≠ 0 → m.toNat < 64 → ev &&& k ≠ 0 → ∃ t, exec (.waitev d m) s = .next t ∧ t.readS d = (if d = 0 then 0 else (ev &&& k).zeroExtend 64) ∧
      (t.bay b).evpend = ev &&& ~~~ k ∧ (∀ r, r ≠ d → t.readS r = s.readS r) ∧ t.pc = s.pc + 4 ∧ SameMem s t ∧
      OnlyBay s t b (fun y z => seqWrites { y with evpend := z.evpend } z)) ∧
    (m ≠ 0 → m.toNat < 64 → ev &&& k = 0 → ∃ t, exec (.waitev d m) s = .next t ∧ t.pc = s.pc ∧ SameMem s t ∧
      OnlyBay s t b (fun y _ => { y with hold := false })) ∧
    (m = 0 ∨ 64 ≤ m.toNat → exec (.waitev d m) s = s.raise { cause := 0x02 }))

/-! ### Memory words of the V stream -/

/-- R167 to R169: the vector loads and stores whose checks pass. Lanes beyond the extent read as zeros; a store changes the bytes of its active
elements only. -/
def Obligations.VectorMemory : Prop :=
  ∀ (s s1 : State) (b : Nat) (g : Guard) (d r : BitVec 6) (h : BitVec 4) (n k : BitVec 3) (v : View) (l : List (List Nat × List Span)),
    s.cur = .stream b .V → vecView b h s.vty s = .ok v →
    let w := fmtWidth s.vty
    let c := s.bayCtx b
    let ix := indexList g r w s
    let loads := fun i (f : Nat → Nat) => ∃ t, exec i s = .next t ∧
      (∀ j, j < lanesOf w → t.lane d.toNat w j = if (s.active g).testBit j then f j % 2 ^ w else s.lane d.toNat w j) ∧
      (∀ q, q < 64 → q ≠ d.toNat → t.readV q = s.readV q) ∧ t.flags = s.flags ∧ t.pc = s.pc + 4 ∧ SameMem s t ∧
      OnlyReader s t b (fun y z => vecMoves { y with vreg := z.vreg } z)
    let stores := fun i (es : List (List Nat × List Span × Nat)) => ∃ t, exec i s = .next t ∧ t = (s.writeElems c v es).retireV ∧
      SameMemOut s t (es.flatMap fun e => e.2.1) ∧ (∀ q, t.readV q = s.readV q) ∧ (∀ q, t.readK q = s.readK q) ∧ t.flags = s.flags ∧ t.pc = s.pc + 4
    (v.plainE = .ok () → placeRun b v 0 false (runCoords s n k) (lanesOf w) s = .ok l → s.checkTrailer c v 0 spBay = .ok s1 →
      loads (.vld g d h n k) (fun j => lgMask s.vty (nth 0 (s1.readElems c v l).1 j))) ∧
    (v.cmp = false → placeRun b v 2 true (runCoords s n k) (lanesOf w) s = .ok l →
      let es := activeElems (s.active g) l (s.lanes d.toNat w)
      s.checkConflicts c v 2 (es.flatMap fun e => e.2.1) = .ok () → stores (.vst g d h n k) es) ∧
    (v.plainE = .ok () → indexChecks r s = .ok () → placeIndexed b v 0 false ix s = .ok l →
      loads (.vldx g d h r) (fun j => match (ix.zip (s.readElems c v l).1).find? fun e => e.1.1 == j with | some e => lgMask s.vty e.2 | none => 0)) ∧
    (v.cmp = false → indexChecks r s = .ok () → placeIndexed b v 2 true ix s = .ok l → s.checkConflicts c v 2 (l.flatMap fun e => e.2) = .ok () →
      stores (.vstx g d h r) ((l.zip ix).map fun e => (e.1.1, e.1.2, s.lane d.toNat w e.2.1)))

/-! ### Parameters, pegs and streams -/

/-- R188: HSET writes the two words of a handle, SETPAR one parameter, and GETPAR reads one. R390, R410: TSREAD reads the device time, and CTRR a
counter that the reader has; another number raises 0x02. -/
def Obligations.ParametersAndCounters : Prop :=
  (∀ (s : State) (b : Nat) (h : BitVec 4) (a c d : BitVec 5) (p : BitVec 12), s.cur = .stream b .S →
    let puts := fun i (f : Nat → Option Word) => ∃ t, exec i s = .next t ∧
      (∀ n, Tab.get 0 (t.bay b).par n = (f n).getD (Tab.get 0 (s.bay b).par n)) ∧ t.pc = s.pc + 4 ∧ (∀ r, t.readS r = s.readS r) ∧ SameMem s t ∧
      OnlyBay s t b (fun y z => seqMoves { y with par := z.par } z)
    puts (.hset h a c) (fun n => if n = h.toNat * 32 then some (s.readS a) else if n = h.toNat * 32 + 1 then some (s.readS c) else none) ∧
    puts (.setpar a p) (fun n => if n = p.toNat then some (s.readS a) else none) ∧
    Writes (.getpar d p) s d (Tab.get 0 (s.bay b).par p.toNat)) ∧
  (∀ (s : State) (d : BitVec 5) (n : BitVec 12), s.onScalar →
    Writes (.tsread d) s d s.clk.time ∧ (∀ v, s.counter n.toNat = some v → Writes (.ctrr d n) s d v) ∧
    (s.counter n.toNat = none → exec (.ctrr d n) s = s.raise { cause := 0x02 }))

/-- R173, R174, R292, R293: the peg words pop a peg from each named queue, or push one into each; they wait until every queue has a peg, or room, and
a push also for the queued stores. An empty mask raises a fault. R47, R248, R270, R290: the peg words of the step streams. XORD pushes at once when
every earlier copy is done; XORD and TNOP pop at issue, and without room wait with their push; XNOP reserves, and its pegs are pushed in issue order; TNOP pushes once the bay's truss commands have completed. R290: the
pegs of an XNOP, or of a copy that is done, at the head of a unit are pushed; behind it stands a copy that is not done. -/
def Obligations.PegWords : Prop :=
  (∀ (s : State) (b : Nat) (m : BitVec 3) (k : BitVec 4),
    let y := s.bay b
    let goes := fun i pop push fb => ∃ t, exec i s = .next t ∧ Pegged s t b pop push ∧ t.pc = s.pc + 4 ∧ SameMem s t ∧ OnlyBay s t b fb
    let seq := fun (y z : Bay) => seqMoves { y with cnt := z.cnt, evpend := z.evpend } z
    let vec := fun (y z : Bay) => vecMoves { y with cnt := z.cnt, evpend := z.evpend } z
    let sin := maskQueues m.toNat (queuesIn .S)
    let sout := maskQueues k.toNat (queuesOut .S)
    let vin := maskQueues m.toNat (queuesIn .V)
    let vout := maskQueues m.toNat (queuesOut .V)
    (s.cur = .stream b .S →
      (m ≠ 0 → y.hasPegs sin = true → goes (.tkwait m) sin [] seq) ∧ (m ≠ 0 → y.hasPegs sin = false → Waits (.tkwait m) s b) ∧
      (m = 0 → exec (.tkwait m) s = s.raise { cause := 0x02 }) ∧
      (k ≠ 0 → y.roomAll sout = true → y.stores = [] → goes (.tksig k) [] sout seq) ∧
      (k ≠ 0 → y.roomAll sout = false ∨ y.stores ≠ [] → Waits (.tksig k) s b) ∧ (k = 0 → exec (.tksig k) s = s.raise { cause := 0x02 })) ∧
    (s.cur = .stream b .V →
      (m ≠ 0 → y.hasPegs vin = true → goes (.vpegw m) vin [] vec) ∧ (m ≠ 0 → y.hasPegs vin = false → Waits (.vpegw m) s b) ∧
      (m = 0 → exec (.vpegw m) s = s.raise { cause := 0x0A } ∧ exec (.vpegs m) s = s.raise { cause := 0x0A }) ∧
      (m ≠ 0 → y.roomAll vout = true → goes (.vpegs m) [] vout vec) ∧ (m ≠ 0 → y.roomAll vout = false → Waits (.vpegs m) s b))) ∧
  (∀ (s : State) (b : Nat) (e : Eng) (w p : BitVec 3), e = .L ∨ e = .W → s.cur = .stream b e → MayIssue s b e w p.toNat →
    let ps := pushesOf e p.toNat
    let x := (s.bay b).stream e
    (x.inflight = [] → x.issued = none → ∃ t, exec (.xord w p 0) s = .next t ∧ Pegged s t b (popsOf e w) ps ∧ Issued s t b e id) ∧
    (∃ t, exec (.xnop w p 0) s = .next t ∧ Reserved s t b (popsOf e w) ps ∧ Issued s t b e fun x =>
      if ps.isEmpty then x else { x with inflight := x.inflight ++ [{ op := .copy, xnop := true, push := ps, pc := s.pc, ordinal := 0 }] })) ∧
  (∀ (s : State) (b : Nat) (e : Eng) (w p : BitVec 3), e ∈ [Eng.M, .L, .W] → s.cur = .stream b e →
    let x := (s.bay b).stream e
    let i := if e = .M then Instr.tnop w p 0 else .xord w p 0
    x.isHalted = false → x.copiesDone = true → x.issued = none → (s.bay b).hasPegs (popsOf e w) = true → (s.bay b).roomAll (pushesOf e p.toNat) = false →
    ∃ t, exec i s = .next t ∧ Pegged s t b (popsOf e w) [] ∧ ((t.bay b).stream e).issued = some (pushesOf e p.toNat) ∧ t.pc = s.pc ∧ SameMem s t ∧
      OnlyBay s t b (fun y z => (y.pegWrites z).setStream e { y.stream e with issued := (z.stream e).issued })) ∧
  (∀ (s : State) (b : Nat) (u : Unit2) (r : CopyRec) (l : List CopyRec), ((s.bay b).stream (unitEng u)).inflight = r :: l →
    (r.xnop || r.done) = true → r.late = none → ((s.bay b).stream (unitEng u)).isHalted = false → (∀ x ∈ l.head?, x.done = false) →
    ∃ t, exec (.deferredPegPush b u) s = .next t ∧ Pushed s t b r.push ∧ SameMem s t ∧ OnlyBay s t b (fun y z =>
      (y.pegWrites z).setStream (unitEng u) { y.stream (unitEng u) with inflight := l }))

/-- R296 to R300: SPAWN starts the named streams at the start of their sections with the sequencer's s8 to s15 in their k registers, and
ends their loops; JOIN waits for the streams and for every write of theirs, and frees them; HALT ends the bay's part of the job and discards its pegs; VEND
ends the V stream. R295, R296: a line fetch puts the rest of the 64-byte line,
within the section, behind what a stream has fetched; an idle unit at the end of its section stops, and raises END. -/
def Obligations.StreamWords : Prop :=
  (∀ (s : State) (b : Nat) (m : BitVec 4),
    let y := s.bay b
    let es := maskEngines m
    (s.cur = .stream b .S →
      (m ≠ 0 → (∀ e ∈ es, (y.sect e).2 ≠ 0 ∧ (y.stream e).run = false ∧ y.tPend.getLsbD e.idx = false) →
        ∃ t, exec (.spawn m) s = .next t ∧
          (∀ e ∈ es, ((t.bay b).stream e).run = true ∧ ((t.bay b).stream e).spwn = true ∧ ((t.bay b).stream e).flags = 0 ∧
            ((t.bay b).stream e).pc = BitVec.ofNat 16 (y.sect e).1 ∧ (∀ j, (Tab.get {} ((t.bay b).stream e).lc j).active = false) ∧
            ((t.bay b).stream e).ordinal = 0 ∧
            ∀ j, j < 8 → Tab.get 0 ((t.bay b).stream e).k j = Tab.get 0 y.s (8 + j)) ∧
          (∀ e ∈ engines, e ∉ es → (t.bay b).stream e = y.stream e) ∧ (t.bay b).vshape = (if Eng.V ∈ es then 0x13 else y.vshape) ∧
          t.pc = s.pc + 4 ∧ (∀ r, t.readS r = s.readS r) ∧ SameMem s t ∧
          OnlyBay s t b (fun y z => seqMoves { y with
            v := z.v, m := z.m, l := z.l, w := z.w, vshape := z.vshape, tHalt := z.tHalt, rsv := z.rsv } z)) ∧
      (m = 0 → exec (.spawn m) s = s.raise { cause := 0x02 }) ∧
      ((∃ e ∈ es, (y.stream e).run = true ∨ y.tPend.getLsbD e.idx = true) → (∀ e ∈ es, (y.sect e).2 ≠ 0) → exec (.spawn m) s = s.raise { cause := 0x64 }) ∧
      (y.running = false → (∀ e ∈ engines, (y.stream e).spwn = true → s.landed b e = true) → ∃ t, exec .join s = .next t ∧ (t.bay b).spawned = false ∧ (t.bay b).tHalt = 0 ∧ t.pc = s.pc + 4 ∧
        (∀ r, t.readS r = s.readS r) ∧ SameMem s t ∧
        OnlyBay s t b (fun y z => seqMoves { y with v := z.v, m := z.m, l := z.l, w := z.w, tHalt := z.tHalt, rsv := z.rsv } z)) ∧
      (y.running = true → y.spawned = true → Waits .join s b ∧ Waits .halt s b) ∧
      (y.running = false → (∃ e ∈ engines, (y.stream e).spwn = true ∧ s.landed b e = false) → Waits .join s b) ∧
      (y.running = false → s.quiet b = true → ∃ t, exec .halt s = .next t ∧ (t.bay b).live = false ∧ (t.bay b).arrived = true ∧
        (∀ q, Tab.get 0 (t.bay b).cnt q = 0 ∧ Tab.get 0 (t.bay b).rsv q = 0) ∧ (∀ e ∈ engines, ((t.bay b).stream e).spwn = false) ∧
        (∀ k e, (k, e) ∈ (t.bay b).chan → e.bnd = false) ∧ SameMem s t ∧
        (∀ c, c ≠ b → t.bay c = s.bay c) ∧ t = { s with bays := t.bays, laths := t.laths })) ∧
    (s.cur = .stream b .V → ∃ t, exec .vend s = .next t ∧ (t.bay b).v.run = false ∧ (t.bay b).evpend = y.evpend ||| 1 ∧
      (∀ j, (Tab.get {} (t.bay b).v.lc j).active = false) ∧ SameMem s t ∧
      OnlyBay s t b (fun y z => vecMoves { y with evpend := z.evpend, v := { y.v with run := false, lc := z.v.lc } } z))) ∧
  (∀ (s : State) (b : Nat) (e : Eng),
    let y := s.bay b
    ((portOrder.drop y.fetchNext ++ portOrder.take y.fetchNext).find? y.wantsLine = some e →
      ∃ t, exec (.codeFetch b) s = .next t ∧ (t.bay b).fetchNext = (e.code + 1) % 5 ∧
        (t.bay b).fetchPc e = min ((y.fetchPc e / 64 + 1) * 64) ((y.sect e).1 + (y.sect e).2) ∧ SameMem s t ∧
        (∀ f, f ≠ e → (t.bay b).fetchedOf f = y.fetchedOf f) ∧ t = { s with bays := t.bays } ∧ (∀ c, c ≠ b → t.bay c = s.bay c) ∧
        (t.bay b).pc = y.pc ∧ ∀ f, ((t.bay b).stream f).pc = (y.stream f).pc) ∧
    (e = .L ∨ e = .W → y.atEnd e = true → (s.part y.partNo).frozen = none → (y.stream e).inflight = [] →
      ∃ t, exec (.streamEnd b e.idx) s = .next t ∧ (t.bay b).evpend = y.evpend ||| 1 ∧ SameMem s t ∧
        OnlyBay s t b (fun y z => { y.setStream e { y.stream e with run := false } with evpend := z.evpend, dirty := z.dirty })) ∧
    (y.atEnd .M = true → (s.part y.partNo).frozen = none → s.trussQuiet b = true → y.truss.held = false →
      ∃ t, exec (.streamEnd b Eng.M.idx) s = .next t ∧ (t.bay b).evpend = y.evpend ||| 1 ∧ SameMem s t ∧
        OnlyBay s t b (fun y z => { y.setStream .M { y.m with run := false } with evpend := z.evpend, dirty := z.dirty })))

/-! ### Channels -/

/-- R301 to R304: CHPUSH sends an element and takes a credit, CHPOP takes the oldest element and gives a credit back, each on an endpoint bound for it, and
an arriving element that is the expected one enters the buffer. In a paired job CHPUSH posts its operands, and once both copies have been compared each
copy takes the credit, and the primary's element goes to the lath (R455). R301, R305, of a channel from a bay to a lath outside a paired job: a credit
returns; an audit sets out and is checked; after a resync the sender takes over the receiver's FREE and sends its copies again from SEQ, each of which takes
up a credit (log 95). A failed audit starts a resync and raises CHANNEL_SLOT. -/
def Obligations.ChannelWords : Prop :=
  (∀ (s : State) (b : Nat) (a d : BitVec 5) (c : BitVec 6),
    let y := s.bay b
    let e := y.ep c.toNat
    let tok := (s.readS a, mkTag e.ctx.toNat e.thread.toNat e.seq.toNat)
    let sent := { e with
      free := e.free - 1, fpar := parity7 (e.free - 1), seq := e.seq + 1, sent := e.sent + 1
      wire := if y.paired = false ∨ (s.jobOf b).primary = true then e.wire ++ [tok] else e.wire
      replay := (e.replay ++ [tok]).drop (e.replay.length + 1 - 64) }
    let only := fun (t : State) (x : Endpoint) fb => (t.bay b).ep c.toNat = x ∧ (∀ k, k ≠ c.toNat → (t.bay b).ep k = y.ep k) ∧ SameMem s t ∧
      OnlyBay s t b fb
    (s.cur = .stream b .S →
      (e.bnd = true → e.dir = false → y.stores = [] →
        (y.paired = false → e.free ≠ 0 → e.resync = false → ∃ t, exec (.chpush a c) s = .next t ∧ t.pc = s.pc + 4 ∧ (∀ r, t.readS r = s.readS r) ∧
          only t sent (fun y z => seqMoves { y with chan := z.chan } z)) ∧
        (y.paired = false → y.merge = none → e.free = 0 ∨ e.resync = true → Waits (.chpush a c) s b) ∧
        (y.paired = true → y.merge = none → e.free ≠ 0 → e.resync = false → ∃ t, exec (.chpush a c) s = .next t ∧ t.pc = s.pc ∧
          (t.bay b).merge = some [1, word c.toNat, s.readS a, y.dlo, y.dhi] ∧ SameMem s t ∧
          OnlyBay s t b (fun y z => { y with merge := z.merge, mergedAt := s.clock, mergeDone := false, merged := none })) ∧
        (y.paired = true → y.merge ≠ none → y.mergeDone = true → (s.jobOf b).primary = true ∨ y.merged ≠ none →
          ∃ t, exec (.chpush a c) s = .next t ∧ t.pc = s.pc + 4 ∧ (t.bay b).ep c.toNat = sent ∧ (t.bay b).merge = none ∧ SameMem s t ∧
            t = { s with bays := t.bays })) ∧
      (e.bnd = true → e.dir = true →
        (∀ v g l, e.buf = (v, g) :: l →
          ∃ t, exec (.chpop d c) s = .next t ∧ t.readS d = (if d = 0 then 0 else v) ∧ (∀ r, r ≠ d → t.readS r = s.readS r) ∧ t.pc = s.pc + 4 ∧
            only t { (e.setFree (e.free + 1)).giveCredit with buf := l, consumed := e.consumed + 1 } (fun y z => seqWrites { y with chan := z.chan } z)) ∧
        (e.buf = [] → Waits (.chpop d c) s b)) ∧
      (e.bnd = false ∨ e.dir = true → exec (.chpush a c) s = s.raise { cause := 0x65 }) ∧
      (e.bnd = false ∨ e.dir = false → exec (.chpop d c) s = s.raise { cause := 0x65 })) ∧
    (∀ n j tok l, y.paired = false → e.bnd = true → e.dir = true → e.peer = BitVec.ofNat 7 n → n < 128 → s.ownsLath b n = true →
      (s.lathAt n).channelPort true y.index c.toNat = some j → ((s.lathAt n).outPort j).wire = tok :: l → j < (s.lathAt n).outp.length →
      tagCtx tok.2 = e.ctx.toNat → tagThread tok.2 = e.thread.toNat → tagSeq tok.2 = e.seq.toNat →
      ∃ t, exec (.channelElementArrival b c.toNat) s = .next t ∧ ((t.lathAt n).outPort j).wire = l ∧ (t.bay b).evpend = y.evpend ||| 4 ∧
        (∀ k, k ≠ n → t.lathAt k = s.lathAt k) ∧ SameMem s t ∧ t = { s with bays := t.bays, laths := t.laths } ∧
        (t.bay b).ep c.toNat = { e with free := e.free - 1, fpar := parity7 (e.free - 1), seq := e.seq + 1, buf := e.buf ++ [tok] } ∧
        (∀ k, k ≠ b → t.bay k = s.bay k) ∧ t.bay b = { y with chan := (t.bay b).chan, evpend := (t.bay b).evpend, dirty := (t.bay b).dirty })) ∧
  (∀ (s : State) (b ch : Nat), b < 64 →
    let y := s.bay b
    let e := y.ep ch
    let goes := fun i (x : Endpoint) => ∃ t, exec i s = .next t ∧ (t.bay b).ep ch = x ∧ (∀ k, k ≠ ch → (t.bay b).ep k = y.ep k) ∧
      OnlyBay s t b (fun y z => { y with chan := z.chan }) ∧ SameMem s t
    let used := (e.free.toNat + (e.sent.toNat + 65536 - (e.audit.getD 0).toNat) % 65536) % 65536
    e.dir = false → y.paired = false →
      (e.credits ≠ 0 → e.answer = none → s.ownsLath b e.peer.toNat = true →
        goes (.creditReturn b ch) { e with credits := e.credits - 1, free := e.free + 1, fpar := parity7 (e.free + 1) }) ∧
      (e.bnd = true → e.audit = none → e.resync = false → e.auditAt + 4096 ≤ s.clock →
        goes (.channelAudit b ch) { e with audit := some e.consumed, auditAt := s.clock }) ∧
      (e.audit.isSome = true → e.credits = 0 → e.resync = false → e.fpar = parity7 e.free → used = e.cap.toNat →
        goes (.auditCheck b ch) { e with audit := none, credits := e.behind, behind := 0 }) ∧
      (e.audit.isSome = true → e.credits = 0 → e.resync = false → e.fpar ≠ parity7 e.free ∨ used ≠ e.cap.toNat →
        ∃ t, exec (.auditCheck b ch) s = .next t ∧ ((t.bay b).ep ch).resync = true ∧ ((t.bay b).ep ch).audit = none ∧
          ((∃ p ∈ (t.bay b).pend, p.rc.cause = 0x61 ∧ p.rc.unit = BitVec.ofNat 8 ch) ∨ ∃ p ∈ y.pend, p.rank = 6 ∧ p.rc.unit = BitVec.ofNat 8 ch)) ∧
      (e.resync = true → e.answer = none → e.wire = [] → ∀ m i x, channelSource b ch s = some (m, i, x) → goes (.resyncReturn b ch)
        { e with answer := some (BitVec.ofNat 7 (64 - x.buf.length), Tab.get 0 x.expect e.thread.toNat, e.consumed), credits := 0, behind := 0, audit := none }) ∧
      (∀ f q k, e.answer = some (f, q, k) → goes (.resyncApply b ch)
        (let l := resend q.toNat e.replay
         { e with resync := false, answer := none, credits := e.behind, behind := 0, free := f - BitVec.ofNat 7 l.length
                  fpar := parity7 (f - BitVec.ofNat 7 l.length), wire := l
                  sent := k + (e.cap.zeroExtend 16 - f.zeroExtend 16) + BitVec.ofNat 16 l.length })))

/-! ### Step words -/

/-- R48, R403: a stamped word outside a deterministic partition raises 0x16, one beyond the frame 0x12; it waits before its clock, issues at it, and
after it raises STAMP_OVERRUN. Stated of XORD, which shares the rule with every step word. R270, R51, R249: TNOP of the M stream, and SLOOP of every
step stream; at most four loops nest, and a unit that is halted on a page fault issues none (R251). -/
def Obligations.StepIssue : Prop :=
  (∀ (s : State) (b : Nat) (e : Eng) (w p : BitVec 3) (t : BitVec 12), e = .L ∨ e = .W → s.cur = .stream b e → t ≠ 0 →
    let x := (s.bay b).stream e
    let f := if t.toNat ≤ x.ls.toNat then x.sf.toNat + 1 else x.sf.toNat
    let p0 := s.part (s.bay b).partNo
    let at_ : Int := s.origin (s.bay b).partNo + ((f : Int) - p0.fnum.toNat) * p0.framelen.toNat + 8 * t.toNat
    x.issued = none →
    ((s.bay b).det = false → exec (.xord w p t) s = s.raise { cause := 0x16 }) ∧
    ((s.bay b).det = true → p0.framelen.toNat ≤ 8 * t.toNat → exec (.xord w p t) s = s.raise { cause := 0x12 }) ∧
    ((s.bay b).det = true → 8 * t.toNat < p0.framelen.toNat → x.isHalted = false →
      (s.clock < at_ → exec (.xord w p t) s = .next s) ∧
      (at_ < s.clock → ∃ u, exec (.xord w p t) s = .next u ∧ ((u.bay b).stream e).run = false ∧
        ((u.bay b).stream e).rc.map (fun r => r.cause) = some 0xA0 ∧ ((u.bay b).stream e).sf = BitVec.ofNat 48 f ∧ ((u.bay b).stream e).ls = t ∧
        SameMem s u) ∧
      (at_ = s.clock → x.spawned + 8 ≤ s.clock → x.inflight = [] → MayIssue s b e w p.toNat →
        ∃ u, exec (.xord w p t) s = .next u ∧ Pegged s u b (popsOf e w) (pushesOf e p.toNat) ∧
          Issued s u b e fun x => { x with sf := BitVec.ofNat 48 f, ls := t }))) ∧
  (∀ (s : State) (b : Nat) (e : Eng) (w p k : BitVec 3) (len : BitVec 5), e ∈ [Eng.M, .L, .W] → s.cur = .stream b e →
    let y := s.bay b
    let pc := s.pc.toNat
    let outer := s.lcs.filter fun x => x.2.active && decide (x.2.start.toNat ≤ pc) && decide (pc < x.2.stop)
    (e = .M → y.m.issued = none → MayIssue s b .M w p.toNat → p = 0 ∨ s.trussQuiet b = true →
      ∃ t, exec (.tnop w p 0) s = .next t ∧ Pegged s t b (popsOf .M w) (pushesOf .M p.toNat) ∧
        t.pc = s.pc + 4 ∧ SameMem s t ∧ OnlyBay s t b (fun y z => (y.pegWrites z).setStream .M { stepMoves y.m z.m with kept := y.m.kept })) ∧
    ((y.stream e).isHalted = true → exec (.sloop k len) s = .next s) ∧
    ((y.stream e).isHalted = false → len ≠ 0 → pc + 4 + 4 * len.toNat ≤ (y.sect e).1 + (y.sect e).2 → (∀ x ∈ outer, pc + 4 + 4 * len.toNat ≤ x.2.stop) → outer.length < 4 →
      EntersLoop (.sloop k len) s outer.length ((s.readK k).toNat % 2 ^ 32) len.toNat 0 1
        (fun y z => { y.setStream e { y.stream e with
          pc := (z.stream e).pc, adv := (z.stream e).adv, skip := (z.stream e).skip, issued := none, fetched := (z.stream e).fetched, lc := (z.stream e).lc } with dirty := z.dirty })
        (fun x _ => x)) ∧
    ((y.stream e).isHalted = false → len = 0 ∨ (y.sect e).1 + (y.sect e).2 < pc + 4 + 4 * len.toNat ∨ (∃ x ∈ outer, x.2.stop < pc + 4 + 4 * len.toNat) →
      exec (.sloop k len) s = s.raise { cause := 0x12 }) ∧
    ((y.stream e).isHalted = false → len ≠ 0 → pc + 4 + 4 * len.toNat ≤ (y.sect e).1 + (y.sect e).2 →
      (∀ x ∈ outer, pc + 4 + 4 * len.toNat ≤ x.2.stop) → 4 ≤ outer.length → exec (.sloop k len) s = s.raise { cause := 0x14 }))

/-! ### Copies -/

/-- R237 to R240, R242: a copy word whose issue checks pass enters its unit's in-flight list as a copy of its kind, last, or in the place that it kept
when it faulted (log 94); one of the unit's eight slots must be free. XCAST and the XRED words are of unit W, XADDW is of unit L: on the other unit they raise 0x15. -/
def Obligations.CopyIssue : Prop :=
  ∀ (s : State) (b : Nat) (e : Eng) (w p : BitVec 3) (p2 : BitVec 2) (c : BitVec 4), e = .L ∨ e = .W → s.cur = .stream b e →
    let both := [(Instr.xcopy w p c 0, CopyOp.copy, p.toNat), (.xgath w p c 0, .gath, p.toNat), (.xscat w p c 0, .scat, p.toNat),
      (.xconv w p c 0, .conv, p.toNat), (.xfill w p c 0, .fill, p.toNat)]
    let onL := [(Instr.xaddw w p c 0, CopyOp.addw, p.toNat)]
    let onW := [(Instr.xcast w p2 c 0, CopyOp.cast, p2.toNat), (.xredAddf32 w p2 c 0, .red 0, p2.toNat), (.xredAddi32 w p2 c 0, .red 1, p2.toNat),
      (.xredMaxf32 w p2 c 0, .red 2, p2.toNat), (.xredMinf32 w p2 c 0, .red 3, p2.toNat), (.xredMaxi32 w p2 c 0, .red 4, p2.toNat),
      (.xredMini32 w p2 c 0, .red 5, p2.toNat)]
    (∀ i op q, (i, op, q) ∈ both ++ (if e = .L then onL else onW) → MayIssue s b e w q → ((s.bay b).stream e).hasSlot = true →
      let s1 := s.takePegs b e (popsOf e w) (pushesOf e q) true
      let r := copyRec b e op c.toNat (pushesOf e q) s1
      r.issueChecks b e s1 = .ok () →
      ∃ t, exec i s = .next t ∧ Entered s t b e w q (unitWrites e (enterUnit r)) ∧ r.pc = s.pc ∧ r.push = pushesOf e q ∧
        ((∀ x ∈ ((s.bay b).stream e).inflight, x.fallen = false) → enterUnit r ((s.bay b).stream e).inflight = ((s.bay b).stream e).inflight ++ [r])) ∧
    (∀ i op q, (i, op, q) ∈ (if e = .L then onW else onL) → exec i s = s.raise { cause := 0x15 })

/-- R236, R237, R239, R243: a sector of a copy. The elements of the pending sector take XFILL's value, or those of the source: with equal formats
their bits, in XCONV and between differing formats each value converted under the copy's mode, with its flags; those of XGATH and XSCAT stand where the
index vector says, and an XCAST goes on to its next destination after the last sector. Into a block format the sector's blocks are quantised (R87; log
21 says along which dimension in a plane bank), and each scale is written with its block's first element. Memory changes nowhere else. R241: a copy at
the head of its unit that has written every byte, and has no trailer work and no barrier, completes: its pegs are pushed and it leaves the unit. -/
def Obligations.CopiesMove : Prop :=
  (∀ (s s1 s2 s3 : State) (b n : Nat) (u : Unit2) (r0 r : CopyRec) (src dst : Side) (a d : List Spot) (ks : List Nat),
    let e := unitEng u
    let ps := upTo (r.range dst r.sector).1 (r.range dst r.sector).2
    let s0 := { s with cur := Actor.stream b e }
    ((s.bay b).stream e).inflight[n]? = some r0 → s.goes b = true → r0.late = none →
    (r0.xnop || r0.moved || r0.halted || r0.opened || r0.sentAll || r0.fallen) = false → clashes b e n r0 s0 = false → r0.begin_ b e s0 = .ok r →
    r.dstSide b s0 = .ok dst →
    (r.op = .fill ∧ s2 = s0 ∨ r.op ∈ [CopyOp.copy, .cast, .gath, .scat, .conv] ∧ r.srcSide b s0 = .ok src ∧ r.quantises src dst = false ∧
      spotsOf (r.srcSpot b e src) ps s0 = .ok (a, s1) ∧ r.scalesOf b e src a s1 = .ok (ks, s2)) →
    spotsOf (r.dstSpot b e dst) ps s2 = .ok (d, s3) →
    let got := src.readAll (s3.bayCtx b) a s3
    let s4 := if r.op = .fill then s3 else got.2
    let news := if r.op = .fill then d.map fun _ => (fillBits dst.width r.fillv, 0) else (ps.zip (got.1.zip ks)).map fun x =>
      if src.fmt = dst.fmt ∧ r.op ≠ .conv then (x.2.1, 0) else convertNum dst.fmt r.mode (r.random b e x.1 s) (sideNum src x.2.2 x.2.1)
    ∃ t q, exec (.copySectorMove b u n) s = .next t ∧ t.mem = (dst.storeAll (r.dstCtx b s4) d (news.map Prod.fst) s4).mem ∧
      ((t.bay b).stream e).flags = news.foldr (fun x f => x.2 ||| f) ((s.bay b).stream e).flags ∧
      SameMemOut s t (d.flatMap fun x => x.l) ∧ ((t.bay b).stream e).inflight = ((s.bay b).stream e).inflight.set n q ∧
      (r.sector + 1 < r.sectors dst → q.sector = r.sector + 1 ∧ q.moved = r.moved) ∧
      (r.sectors dst ≤ r.sector + 1 → r.dests.length ≤ 1 → q.moved = true) ∧
      (r.sectors dst ≤ r.sector + 1 → 1 < r.dests.length → q.sector = 0 ∧ q.dests = r.dests.drop 1 ∧ q.dh = none ∧ q.moved = r.moved) ∧
      ∀ k, (t.bay k).pc = (s.bay k).pc ∧ (t.bay k).s = (s.bay k).s) ∧
  (∀ (s s1 s2 s3 s4 : State) (b n : Nat) (u : Unit2) (r0 r : CopyRec) (src : Side) (v scales : View) (a d sp : List Spot) (ks : List Nat),
    let e := unitEng u
    let dst := Side.mem v
    let lo := (r.range dst r.sector).1
    let own := upTo lo (r.range dst r.sector).2
    let blocks := ((own.map (r.blockStart dst.blockDim)).eraseDups).map (r.blockFrom dst.blockDim)
    let s0 := { s with cur := Actor.stream b e }
    ((s.bay b).stream e).inflight[n]? = some r0 → s.goes b = true → r0.late = none →
    (r0.xnop || r0.moved || r0.halted || r0.opened || r0.sentAll || r0.fallen) = false → clashes b e n r0 s0 = false → r0.begin_ b e s0 = .ok r →
    r.dstSide b s0 = .ok dst → r.op ∈ [CopyOp.copy, .cast, .gath, .scat, .conv] → r.srcSide b s0 = .ok src → r.quantises src dst = true →
    spotsOf (r.srcSpot b e src) blocks.flatten s0 = .ok (a, s1) → r.scalesOf b e src a s1 = .ok (ks, s2) →
    spotsOf (r.dstSpot b e dst) own s2 = .ok (d, s3) → s3.scaleView (r.dstCtx b s3) v = .ok scales →
    spotsOf (r.scaleSpot b e v) ((blocks.map fun l => l.headD 0).filter fun p => decide (lo ≤ p)) s3 = .ok (sp, s4) →
    let got := src.readAll (s4.bayCtx b) a s4
    let qs := r.quantBlocks b e src dst s blocks got.1 ks
    let elem := fun p => (((qs.flatMap fun q => q.elems).find? fun x => x.1 = p).map Prod.snd).getD 0
    let s5 := dst.storeAll (r.dstCtx b got.2) d (own.map elem) got.2
    ∃ t, exec (.copySectorMove b u n) s = .next t ∧
      t.mem = ((Side.mem scales).storeAll (r.dstCtx b s5) sp ((qs.filter fun q => decide (lo ≤ q.at0)).map fun q => q.scale) s5).mem ∧
      ((t.bay b).stream e).flags = qs.foldl (fun f q => f ||| q.flags) ((s.bay b).stream e).flags ∧
      SameMemOut s t ((d ++ sp).flatMap fun x => x.l)) ∧
  (∀ (s : State) (b : Nat) (u : Unit2) (r : CopyRec) (l : List CopyRec), ((s.bay b).stream (unitEng u)).inflight = r :: l →
    (s.bay b).live = true → r.op = .fill ∨ r.op = .gath ∨ r.op = .scat ∨ r.op = .cast → r.moved = true → (r.xnop || r.done || r.fallen) = false →
    r.late = none → r.baren = false → ((s.bay b).stream (unitEng u)).isHalted = false → (∀ x ∈ l.head?, x.done = false) →
    ∃ t, exec (.copyCompletion b u 0) s = .next t ∧ Pushed s t b r.push ∧ SameMem s t ∧ OnlyBay { s with cur := t.cur } t b (fun y z =>
      (y.pegWrites z).setStream (unitEng u) { y.stream (unitEng u) with inflight := l }))

/-- R240: XADDW adds the values of one accumulator line to its entries, in order, in the clock of its slot, when no row write holds the group. R242,
R244, R245, outside a paired job: a request is applied once, in the order of its home; a sequence that is not newer, by the home's filter for the
partition and logical bay (log 97) and a window of 2^22 (log 79), is only acknowledged; an acknowledgement removes it and adds its flags; a request may
be sent again. -/
def Obligations.AddsAndReductions : Prop :=
  (∀ (s : State) (b n : Nat) (r : CopyRec) (dst : Side), (s.bay b).live = true → (s.bay b).l.inflight[n]? = some r → r.opened = true →
    r.halted = false → r.late = none → (s.part (s.bay b).partNo).clkSlot = r.slot → r.lineAt ≠ some s.clock → r.dstSide b s = .ok dst →
    let rest := ((r.entries dst).zip r.vals).drop r.line
    let e0 := (rest.headD (0, 0)).1
    let run := rest.takeWhile fun x => x.1 / 64 = e0 / 64
    (∀ c k gs, (s.bent (b / 8)).lastRow = some (c, k, gs) → ¬ (c = s.clock ∧ k = b ∧ e0 / 64 % 16 ∈ gs)) →
    ∃ t, exec (.xaddwLineWrite b n) s = .next t ∧ ((run.map fun x => x.1).Nodup → ∀ x ∈ run,
        t.rd (accAddr b x.1) 4 = (addEntry (dst.fmt = 0x04) (s.rd (accAddr b x.1) 4) x.2.toNat).1 % 2 ^ 32) ∧
      (∀ x, (∀ q ∈ run, x < accAddr b q.1 ∨ accAddr b q.1 + 4 ≤ x) → Memory.read t.mem x = Memory.read s.mem x) ∧
      ∃ q, (t.bay b).l.inflight = (s.bay b).l.inflight.set n q ∧ (r.line + run.length < ((r.entries dst).zip r.vals).length → q.line = r.line + run.length)) ∧
  (∀ (s : State) (b n : Nat) (q : RedReq), (s.bay b).reds[n]? = some q →
    let k := homeKey (s.bay b).partNo (s.bay b).index q.home
    let seen := s.homes.find? fun x => x.1 = k
    ((s.bay b).paired = false → q.applied = false → (∀ x ∈ (s.bay b).reds.take n, x.home = q.home → x.applied = true) →
      (∀ e ∈ q.vals, ∀ a ∈ e.2.1, s.writeWaits a = false) →
      ((∀ x, seen = some x → newer x.2 q.seq = true) → ∃ t, exec (.xredRequestApply b n) s = .next t ∧
        t.mem = (redElems q.op q.vals s).1.mem ∧ (∀ a, (∀ x ∈ q.vals, a ∉ x.2.1) → Memory.read t.mem a = Memory.read s.mem a) ∧
        Tab.get 0 t.homes k = q.seq ∧ ∀ x ∈ (t.bay b).reds, x.seq = q.seq → x.applied = true) ∧
      (∀ x, seen = some x → newer x.2 q.seq = false → ∃ t, exec (.xredRequestApply b n) s = .next t ∧ SameMem s t ∧ t.homes = s.homes ∧
        ∀ x ∈ (t.bay b).reds, x.seq = q.seq → x.applied = true)) ∧
    (q.applied = true → exec (.xredRequestApply b n) s = .next s) ∧
    (q.applied = true → ∃ t, exec (.xredAck b n) s = .next t ∧ (t.bay b).reds = (s.bay b).reds.eraseIdx n ∧
      (t.bay b).w.flags = (s.bay b).w.flags ||| q.flags ∧ SameMem s t) ∧
    ∃ t, exec (.xredResend b n) s = .next t ∧ (t.bay b).reds = (s.bay b).reds.set n { q with sent := s.clock } ∧ SameMem s t ∧
      OnlyBay s t b (fun y z => { y with reds := z.reds }))

/-! ### The truss -/

/-- R253, R255, R258, R270, R277: a matrix word whose checks pass puts its command into the bay's truss queue, which must have room, and asks for the
lease if the bay neither holds nor wants it. The clustering commands, and a product that takes a map's row count, wait for all earlier ones; and a
word waits for a bank that its checks read and a transfer unit has locked (R220). -/
def Obligations.TrussIssue : Prop :=
  ∀ (s : State) (b : Nat) (w p : BitVec 3) (m : BitVec 4) (f : BitVec 5) (g : BitVec 1) (i : Instr) (op : TrussOp) (fl : BitVec 5),
    s.cur = .stream b .M → (i, op, fl) ∈ [(Instr.tloadb w p m 0, TrussOp.loadb, 0), (.tmma w p m f 0, .mma false, f), (.tmmas w p m f 0, .mma true, f),
      (.tpromo w p m g 0, .promo, shadowFlag g), (.tdrain w p m g 0, .drain, splitFlag g), (.tzero w p m g 0, .zero, shadowFlag g),
      (.tcommit w p m 0, .commit, 0), (.tdiscard w p m 0, .discard, 0), (.tsign w p m 0, .sign, 0), (.tbucket w p m 0, .bucket, 0),
      (.trepsFirst w p m 0, .reps 0, 0), (.trepsMean w p m 0, .reps 1, 0), (.trepsNormmax w p m 0, .reps 2, 0),
      (.tscat w p m g 0, .scat, splitFlag g), (.tmgrad w p m 0, .mgrad, 0)] →
    let y := s.bay b
    let s1 := s.takePegs b .M (popsOf .M w) (pushesOf .M p.toNat) true
    let cmd := trussCmd b op m.toNat fl (pushesOf .M p.toNat) s1
    let asks := !y.truss.held && !y.truss.req && op != .free
    MayIssue s b .M w p.toNat → y.truss.queue.length < 4 → s.locksAny b (trussCmd b op m.toNat fl [] s).checked = false → (waitsForAll op fl (bit (parM y m.toNat 6) 27) = true → s.trussQuiet b = true) →
    (∀ c, trussChecks b cmd s1 = .ok c → ∃ t, exec i s = .next t ∧ c.op = op ∧ c.push = pushesOf .M p.toNat ∧ c.ps = cmd.ps ∧
      Entered s t b .M w p.toNat (fun y z => { y with
        truss := { y.truss with queue := y.truss.queue ++ [c], req := y.truss.req || asks, reqAt := if asks then s.clock else y.truss.reqAt }
        m := stepMoves y.m z.m })) ∧
    (∀ rc, trussChecks b cmd s1 = .error (.trap rc) → exec i s = s.raise { rc with rst := true })

/-- R255, R256, R270: TLEASE with the lease held only pushes, and without it asks; TFREE enters the queue, and ends the lease when it starts; outside
deterministic partitions a free truss goes to the next request, in them to the bay whose window is open, and the lease of a window ends with the window.
R265 to R269, R271: a started command takes effect and stays in flight until its row writes have landed; a row write changes the entries of its row only,
in an allowed clock. TPROMO and TDRAIN promote the pending rows, and TDRAIN clears the binding; TZERO queues a write of every row; TCOMMIT with KEEP
promotes a pending shadow binding and queues a copy of every shadow row, and else it acts as TDISCARD, which drops that binding's inner values; both close
the prediction. A completed command's pegs are pushed, and GETPAR shows the OPEN bit that it has changed (R189).
R259, R261: TLOADB fills the buffer that is not FRONT with the elements of B at its positions and columns, and FRONT becomes that buffer; one that fails
leaves both. R98, R100, R262: a product promotes another pending binding, opens a prediction, and adds its sums to each row's inner values, which it
promotes before where they come too close to the bound, and after with the INTV-th pass; a block format queues each row's results.
R279 to R285: TSIGN writes the signs of the exact sums; TBUCKET numbers the keys in order of first appearance; TREPS names the first member, that of the
largest norm, or the mean; TSCAT and TMGRAD queue the rows that the map gives.
The model's choices: the order in which row writes land (log 70), which promotions read an entry as zero (log 99), sums beyond 32 bits (log 113), the modulus
of PASSES (log 117), and of compressed banks logs 24 and 98. -/
def Obligations.TrussLife : Prop :=
  (∀ (s : State) (b bent : Nat) (w : BitVec 3),
    let y := s.bay b
    let only := fun (t : State) (f : Bay → Bay → Bay) => SameMem s t ∧ OnlyBay s t b f
    (s.cur = .stream b .M → y.m.issued = none → MayIssue s b .M w 0 →
      (y.truss.held = true → ∃ t, exec (.tlease w 0 0) s = .next t ∧ Issued s t b .M id ∧ Pegged s t b (popsOf .M w) [] ∧ (t.bay b).truss = y.truss) ∧
      (y.truss.held = false → ∃ t, exec (.tlease w 0 0) s = .next t ∧ t.pc = s.pc ∧ (t.bay b).m.issued = some [] ∧ (t.bay b).truss.req = true ∧
        only t (fun y z => { y.pegWrites z with truss := { y.truss with req := true, reqAt := z.truss.reqAt }, m := z.m })) ∧
      (y.truss.held = true → y.truss.queue.length < 4 → ∃ t, exec (.tfree w 0 0) s = .next t ∧
        (t.bay b).truss = { y.truss with queue := y.truss.queue ++ [freeCmd s.pc] } ∧ t.pc = s.pc + 4 ∧ SameMem s t)) ∧
    (s.holder bent = none → nextWindow bent s = none → nextRequest bent s = some b → y.m.issued = none → b / 8 = bent →
      ∃ t, exec (.leaseGrant bent) s = .next t ∧ (t.bay b).truss = { y.truss with held := true, req := false } ∧ (t.bent bent).last = some b ∧
        SameMem s t ∧ (∀ c, c ≠ b → t.bay c = s.bay c) ∧ t = { s with bays := t.bays, bents := t.bents }) ∧
    (∀ x, s.holder bent = none → nextWindow bent s = some (b, x) → y.m.issued = none → b / 8 = bent →
      ∃ t, exec (.leaseGrant bent) s = .next t ∧ (t.bay b).truss = { y.truss with held := true, req := false, window := some x } ∧
        SameMem s t ∧ (∀ c, c ≠ b → t.bay c = s.bay c) ∧ t = { s with bays := t.bays, bents := t.bents }) ∧
    (y.det = true → y.truss.held = true → s.openWindow b ≠ y.truss.window → y.truss.inner = [] →
      ∃ t, exec (.leaseWindowEnd b) s = .next t ∧ (t.bay b).truss.held = false ∧ (t.bay b).truss.cnt = 0 ∧
        only t (fun y z => { y with truss := z.truss }))) ∧
  (∀ (s : State) (b bent : Nat) (c : TrussCmd) (q : List TrussCmd) (r : Region),
    let y := s.bay b
    let nodup := (y.truss.inner.map fun x => x.1).Nodup
    (s.holder bent = some b → y.live = true → s.trussFree b = true → y.truss.queue = c :: q → c.op = .free → nodup →
      ∃ t, exec (.trussCommandStart bent) s = .next t ∧ (t.bay b).truss.queue = q ∧ (t.bay b).truss.held = false ∧ (t.bay b).truss.cnt = 0 ∧
        (t.bay b).truss.pend = false ∧ (t.bay b).truss.req = (y.truss.req || !q.isEmpty) ∧ t.rowsOf (b / 8) = s.rowsOf (b / 8) ++ s.pending b ∧ SameMem s t) ∧
    (Starts s bent b c q →
      let took := fun (t : State) => Taken s t b c q ∧ SameMem s t
      let shadow := y.truss.shadowOf c.z
      (c.op = .promo ∨ c.op = .drain → nodup → ∃ t, exec (.trussCommandStart bent) s = .next t ∧ took t ∧
        t.rowsOf (b / 8) = s.rowsOf (b / 8) ++ s.pending b ∧ (y.truss.pend = true → (t.bay b).truss.inner = []) ∧
        (t.bay b).truss.pend = false ∧ (t.bay b).truss.passes = (if y.truss.pend then 0 else y.truss.passes) ∧ (c.op = .drain → (t.bay b).truss.bz = 0 ∧ (t.bay b).truss.brows = 0)) ∧
      (c.op = .commit → c.keep = true → regionOf (nth 0 c.zs 0) = .ok r → nodup → ∃ t, exec (.trussCommandStart bent) s = .next t ∧ took t ∧
        (t.bay b).isOpen c.z = false ∧ (shadow = true → (t.bay b).truss.inner = [] ∧ (t.bay b).truss.pend = false) ∧
        t.rowsOf (b / 8) = s.rowsOf (b / 8) ++ (if shadow then s.pending b else []) ++
          (List.range r.rows).map fun m => ((b, r.base + m * r.cols), RowOp.copy (r.sbase + m * r.cols))) ∧
      (c.op = .zero → regionOf (nth 0 c.zs 0) = .ok r → ∃ t, exec (.trussCommandStart bent) s = .next t ∧ took t ∧
        (t.bent (b / 8)).writes.map (fun x => (x.bay, x.base, x.n)) = (s.bent (b / 8)).writes.map (fun x => (x.bay, x.base, x.n)) ++
          (List.range r.rows).map fun m => (b, r.at c.shadow + m * r.cols, r.cols)) ∧
      (c.op = .discard ∨ c.op = .commit ∧ c.keep = false ∧ regionOf (nth 0 c.zs 0) = .ok r → ∃ t, exec (.trussCommandStart bent) s = .next t ∧ took t ∧
        (t.bay b).isOpen c.z = false ∧ t.rowsOf (b / 8) = s.rowsOf (b / 8) ∧ (t.bay b).truss.inner = (if shadow then [] else y.truss.inner) ∧
        (t.bay b).truss.pend = (y.truss.pend && !shadow))) ∧
    (∀ w l, (s.bent bent).writes = w :: l → (s.bay w.owner).live = true → rowAllowed (s.bent bent) w s = true →
      ∃ t, exec (.trussRowWrite bent) s = .next t ∧ (t.bent bent).writes = l ∧
        (∀ i, i < (w.entries s).1.length → t.rd (accAddr w.bay (w.base + i)) 4 = nth 0 (w.entries s).1 i % 2 ^ 32) ∧
        (∀ a, a < accAddr w.bay w.base ∨ accAddr w.bay (w.base + (w.entries s).1.length) ≤ a → Memory.read t.mem a = Memory.read s.mem a)) ∧
    (y.truss.running = c :: q → (∀ w ∈ (s.bent (b / 8)).writes, w.owner = b → c.id < w.id) →
      ∃ t, exec (.trussCommandCompletion b) s = .next t ∧ (t.bay b).truss.running = q ∧ Pushed s t b c.push ∧ SameMem s t ∧
        (c.sets = [] → (t.bay b).par = y.par) ∧ (∀ z v, c.sets = [(z, v)] → ∀ n, Tab.get 0 (t.bay b).par n = if n = 2049 + z * 32 then word (b2n v)
          else Tab.get 0 y.par n) ∧
        OnlyBay s t b (fun y z => { y.pegWrites z with par := z.par, truss := { y.truss with running := q } }))) ∧
  (∀ (s : State) (b bent : Nat) (c : TrussCmd) (q : List TrussCmd), Starts s bent b c q → c.op = .loadb →
    let y := (s.bay b).truss
    let need := fun (v : View) (cols : List Nat) (big : Bool) => cmpBlock big (nth 0 (eExts v.w) 1) (v.org + c.korg + c.kmax - 1) (cols.foldl max 0)
    (∀ rc, loadSlab b c s = .error (.trap rc) → ∃ t, exec (.trussCommandStart bent) s = .next t ∧ TrussFaulted s t b rc.cause) ∧
    ∀ (v w m : View) (u : State) (cols : List Nat) (ls : List CmpLine), bViews b c s = .ok (v, w) → s.checkTrailer (s.bayCtx b) v 1 spBank = .ok u →
      bCols b c v s = .ok cols → (c.bmen = true → bankView b (c.h hBMH) 1 s = .ok m) →
      (v.cmp = true → c.kmax ≠ 0 → cmpLines b v (need v cols) s (bankBytes * bankCount / 128) 0 = .ok ls) →
      let elem := fun k n => if c.bmen && !bitmapBit b c v m s k n then 0
        else if v.cmp then cmpElem ls (planeCount v.fmt) (nth 0 (eExts v.w) 1) (v.org + k) n else s.peek b v 1 [k, n]
      ∃ t x, exec (.trussCommandStart bent) s = .next t ∧ Taken s t b c q ∧ SameMem s t ∧ (t.bay b).truss.front = !y.front ∧
        (t.bay b).truss.frontSlab = some x ∧ (if y.front then (t.bay b).truss.slab1 = y.slab1 ∧ (t.bay b).truss.valid1 = y.valid1
          else (t.bay b).truss.slab0 = y.slab0 ∧ (t.bay b).truss.valid0 = y.valid0) ∧ (t.bay b).truss.inner = y.inner ∧
        x.fmt.toNat = c.bfmt ∧ x.prec.toNat = c.prec ∧ x.korg = c.korg ∧ x.kext = c.k ∧ x.n = c.n ∧
        ∀ i, i < cols.length → (∀ k, k < c.kmax → nth 0 (nth [] x.cols i) k = bvalOf c.bfmt (planesOf c.prec) (elem (c.korg + k) (nth 0 cols i))) ∧
          (isBlock c.bfmt = true → ∀ k, k < (kBlocks c.korg c.kmax).length →
            nth 0 (nth [] x.scales i) k = BitVec.ofNat 8 (s.peek b w 1 [nth 0 (kBlocks c.korg c.kmax) k, nth 0 cols i]))) ∧
  (∀ (s : State) (b bent : Nat) (c : TrussCmd) (q : List TrussCmd) (neg : Bool) (r : Region), Starts s bent b c q → c.op = .mma neg →
    regionOf (nth 0 c.zs 0) = .ok r →
    let y := (s.bay b).truss
    let fits := fun (x : Slab) => x.fmt.toNat = c.bfmt ∧ planesOf x.prec.toNat = planesOf c.prec ∧ x.n = c.n
    ((∀ x, y.frontSlab = some x → ¬ fits x) → ∃ t, exec (.trussCommandStart bent) s = .next t ∧ TrussFaulted s t b 0x27) ∧
    ∀ (p : Region) (a w : View) (rows : List Nat) (x : Slab), y.frontSlab = some x → fits x → (y.inner.map fun e => e.1).Nodup →
      (if c.split then partnerRegion b c.z r.i32 (c.rows - 256) c.n s = .ok p else p = r) → aViews b c s = .ok (a, w) → aRows b c a s = .ok rows → rows ≠ [] →
      let other := y.pend && !y.bound c
      let place := fun m => if c.split && decide (256 ≤ m) then (s.partner b, p.base + (m - 256) * p.cols) else (b, r.at c.shadow + m * r.cols)
      let before := s.rowsOf (b / 8) ++ (if other then s.pending b else []) ++ (if c.shadow && !(s.bay b).isOpen c.z then
        (List.range r.rows).map fun m => ((b, r.sbase + m * r.cols), RowOp.copy (r.base + m * r.cols)) else [])
      let cleared := !c.accum || other
      let passes := if cleared then 0 else y.passes.toNat
      let last := decide (passes + 1 = c.intv)
      let row := fun m => (List.range c.kmax).map fun i => s.peek b a 0 [nth 0 rows m, c.korg + i]
      let old : Nat → List Int := fun m => if cleared then [] else Tab.get [] y.inner m
      ∃ t, exec (.trussCommandStart bent) s = .next t ∧ Taken s t b c q ∧ SameMem s t ∧
        (t.bay b).truss.passes = (if last then 0 else BitVec.ofNat 4 (passes + 1)) ∧
        (isBlock c.bfmt = false →
          let lg := c.bfmt == 0x12
          let cur := fun (m : Nat) => old m ++ List.replicate (c.n - (old m).length) 0
          let early := fun (m : Nat) => ((cur m).take c.n).any fun v => tooClose (passBound c) v
          let sums := fun m => (List.range c.n).map fun n => (if neg then -1 else 1) * (passSum lg (row m) (nth [] x.cols n) c.afmt).1
          let new := fun (m : Nat) => addRows (if early m then [] else cur m) (sums m)
          let first : Nat → Bool := fun m => !c.accum || (!other && y.firsts.contains m)
          let moves : Nat → List ((Nat × Nat) × RowOp) := fun m => (if early m then [(place m, .promote (cur m) lg (first m))] else []) ++
            (if last then [(place m, .promote (new m) lg (first m && !early m))] else [])
          (t.bay b).truss.pend = !last ∧ (∀ m, m < rows.length → Tab.get [] (t.bay b).truss.inner m = if last then [] else new m) ∧
          t.rowsOf (b / 8) = before ++ (List.range rows.length).flatMap moves) ∧
        (isBlock c.bfmt = true → (t.bay b).truss.pend = (y.pend && !cleared && !last) ∧ (∀ m, Tab.get [] (t.bay b).truss.inner m = old m) ∧
          t.rowsOf (b / 8) = before ++ (List.range rows.length).map fun m => (place m, RowOp.addF32 ((List.range c.n).map fun n => BitVec.ofNat 32
            (passBlock (c.bfmt == 0x1B) neg (blockElem c.afmt) c.korg (row m) (nth [] x.cols n) ((kBlocks c.korg c.kmax).map fun k => s.peek b w 1 [nth 0 rows m, k])
              ((nth [] x.scales n).map BitVec.toNat)).1) (!c.accum)))) ∧
  (∀ (s : State) (b bent : Nat) (c : TrussCmd) (q : List TrussCmd) (a v mv iv : View) (z d p : Region), Starts s bent b c q →
    let runs := fun (g : State → Prop) => ∃ t, exec (.trussCommandStart bent) s = .next t ∧ TrussQuiet s t b c q ∧ g t
    let act := fun m d => aval c.afmt (s.peek b a 0 [m, d])
    let x := readMap b c mv s
    let entry := fun m n => entryAt s b z m n
    let total := fun (l : List Int) => l.sum
    (c.op = .sign → actView b c s = .ok a → writeView b (c.h hSIGH) 2 s = .ok v → (c.hfStored = true → planesView b c s = .ok mv) →
      let minus := fun d k j => if c.hfStored then decide (intVal mv.fmt (s.peek b mv 1 [d, k * c.sigK + j]) < 0)
        else bit (crng (c.hfw 1) (word (5 * 2 ^ 60 + k * 2 ^ 16 + j)) (word d)) 0
      ∃ sig : Nat → Nat → Nat, (∀ m k j, m < c.m → k < c.sigL → ((sig m k).testBit j = true ↔
          j < c.sigK ∧ 0 < total ((List.range c.k).map fun d => (if minus d k j then -1 else 1) * act m d))) ∧
        runs fun t => t.rowsOf (b / 8) = s.rowsOf (b / 8) ∧ t.mem = (((List.range c.m).flatMap fun m => (List.range c.sigL).map fun k => (m, k)).foldl
          (fun s e => s.poke b v 2 [e.1, e.2] (sig e.1 e.2)) s).mem) ∧
    (c.op = .bucket → plainView b (c.h hSIGH) 1 s = .ok v → mapView b c true s = .ok mv →
      let key := fun m => s.peek b v 1 [m, c.tbl] % 2 ^ c.sigK / 2 ^ (c.sigK - c.sigBw)
      ∃ bkt rep cnt : List Nat, bkt.length = c.m ∧ rep.length = cnt.length ∧
        (∀ m n, m < c.m → n < c.m → (nth 0 bkt m = nth 0 bkt n ↔ key m = key n)) ∧ (∀ k ∈ bkt, k < rep.length) ∧
        (∀ j, j < rep.length → nth 0 rep j < c.m ∧ nth 0 bkt (nth 0 rep j) = j ∧ (∀ m, m < nth 0 rep j → nth 0 bkt m < j) ∧ nth 0 cnt j = bkt.count j) ∧
        runs fun t => t.rowsOf (b / 8) = s.rowsOf (b / 8) ∧
          t.mem = (pokeFrom b mv 3 0 ([rep.length, c.m, 0xFFFF] ++ bkt ++ padTo c.m rep ++ padTo c.m cnt) s).mem) ∧
    (∀ rule, c.op = .reps rule → mapView b c true s = .ok mv → writeView b (c.h hIXOH) 2 s = .ok iv → (rule ≠ 0 → actView b c s = .ok a) →
      let norm := fun m => total ((List.range c.k).map fun d => act m d * act m d)
      (rule = 0 → runs fun t => t.mem = ((pokeFrom b iv 2 0 x.rep s).pokeIndex b mv 3 2 0).mem) ∧
      (rule = 2 → ∃ reps : List Nat, reps.length = x.nb ∧
        (∀ j, j < x.nb → bucketMembers x j ≠ [] → nth 0 reps j ∈ bucketMembers x j ∧
          ∀ m ∈ bucketMembers x j, norm m < norm (nth 0 reps j) ∨ norm m = norm (nth 0 reps j) ∧ nth 0 reps j ≤ m) ∧
        runs fun t => t.mem = ((pokeFrom b mv 3 (3 + c.m) reps (pokeFrom b iv 2 0 reps s)).pokeIndex b mv 3 2 2).mem) ∧
      (rule = 1 → writeView b (c.h hREPH) 2 s = .ok v → runs fun t =>
        t.mem = ((pokeFrom b iv 2 0 (List.range x.nb) (((List.range x.nb).flatMap fun j => (List.range c.k).map fun d => (j, d)).foldl
          (fun u e => u.poke b v 2 [e.1, e.2] (meanOf c.afmt (total ((bucketMembers x e.1).map fun m => act m e.2)) (nth 1 x.cnt e.1)).1) s)).pokeIndex b mv 3 2 1).mem)) ∧
    (mapView b c false s = .ok mv → regionOf (nth 0 c.zs 0) = .ok z → regionOf (nth 0 c.zs 1) = .ok d →
      let rows := fun (n : Nat) (place : Nat → Nat × Nat) (val : Nat → Nat → Nat) (t : State) => SameMem s t ∧ t.rowsOf (b / 8) = s.rowsOf (b / 8) ++
        (List.range n).map fun m => (place m, RowOp.bits ((List.range c.n).map fun i => BitVec.ofNat 32 (val m i)))
      let here := fun m => (b, d.base + m * d.cols)
      (c.op = .scat → (if c.split then partnerRegion b c.dz d.i32 (c.m - 256) c.n s = .ok p else p = d) →
        runs (rows c.m (fun m => if c.split && decide (256 ≤ m) then (s.partner b, p.base + (m - 256) * p.cols) else here m) fun m n => entry (nth 0 x.bkt m) n)) ∧
      (c.op = .mgrad → c.gdir = false → runs (rows x.nb here fun j n => (sumEntries d.i32 ((bucketMembers x j).map fun m => entry m n)).1)) ∧
      (c.op = .mgrad → c.gdir = true → x.rule ≠ 1 → runs (rows c.m here fun m n => entry (nth 0 x.bkt m) n)) ∧
      (c.op = .mgrad → c.gdir = true → x.rule = 1 → runs (rows c.m here fun m n =>
        (convertNum 0x15 0 0 (divNum (decodeNum 0x15 (entry (nth 0 x.bkt m) n)) (Num.ofInt (nth 1 x.cnt (nth 0 x.bkt m) : Nat))).1).1))))

/-! ### Time, counters and waits -/

/-- R391, R392, R402, outside a paired job: ROWPUB publishes a stream counter of the partition that no enabled chain writes; it never goes back. R408,
R409, outside a paired job: BARINIT writes an object that expects `e` arrivals; BARARR adds to the arrivals, and the last one starts the next phase and
keeps the frame counter; one that overruns does so too, marks the object and then traps; a malformed object traps. Only the 16 bytes of the object
change. -/
def Obligations.RowsAndBarriers : Prop :=
  (∀ (s : State) (b : Nat) (a r : BitVec 5), s.cur = .stream b .S → (s.bay b).paired = false →
    let n := bits (s.readS a) 5 0
    let f := bits (s.readS a) 63 32
    let rows := bits (s.readS r) 15 0
    let done := bit (s.readS r) 16
    let old := s.rowWord n
    let back := passedFrame (rwFrame old) f || (f == rwFrame old && (decide (rows < rwRows old) || (rwDone old && !done)))
    let mine := !chainEn (s.chain n) && chainPart (s.chain n) == (s.bay b).partNo
    (mine = true → back = false → (s.bay b).stores = [] → ∃ t, exec (.rowpub a r) s = .next t ∧ rwFrame (t.rowWord n) = f ∧
      rwRows (t.rowWord n) = rows ∧ rwDone (t.rowWord n) = done ∧ (∀ m, m ≠ n → t.rowWord m = s.rowWord m) ∧ t.pc = s.pc + 4 ∧
      (∀ q, t.readS q = s.readS q) ∧ SameMem s t ∧ t = { s with bays := t.bays, rowcnt := t.rowcnt } ∧ (∀ c, c ≠ b → t.bay c = s.bay c) ∧
      t.bay b = seqMoves (s.bay b) (t.bay b)) ∧
    (mine = true → back = true → exec (.rowpub a r) s = s.raise { cause := 0x02 }) ∧
    (mine = false → exec (.rowpub a r) s = s.raise { cause := 0x86 })) ∧
  (∀ (s : State) (b : Nat) (a : BitVec 5) (h n : BitVec 4) (e : BitVec 7) (v : View) (x : Span), s.cur = .stream b .S →
    (s.bay b).paired = false → (s.bay b).stores = [] → barView b h s = .ok v →
    barPlace (s.bayCtx b) v true (s.readS a).toInt s = .ok x →
    let o := s.readBar x
    let left := oExp o - oArr o
    (e ≠ 0 → ∃ t, exec (.barinit a h e) s = .next t ∧ t.readBar x = e.toNat ∧ t.pc = s.pc + 4 ∧ (∀ r, t.readS r = s.readS r) ∧
      SameMemBut s t x.loc.addr 16) ∧
    (n ≠ 0 → barBad o = false → n.toNat < left → ∃ t, exec (.bararr a h n) s = .next t ∧ oArr (t.readBar x) = oArr o + n.toNat ∧
      oPh (t.readBar x) = oPh o ∧ oExp (t.readBar x) = oExp o ∧ oFl (t.readBar x) = oFl o ||| (s.bay b).flags.toNat ∧ t.pc = s.pc + 4 ∧
      oOvr (t.readBar x) = oOvr o ∧ t.readBar x / 2 ^ 64 = o / 2 ^ 64 ∧ (∀ r, t.readS r = s.readS r) ∧
      SameMemBut s t x.loc.addr 16) ∧
    (n ≠ 0 → barBad o = false → n.toNat = left → ∃ t, exec (.bararr a h n) s = .next t ∧ oArr (t.readBar x) = 0 ∧
      oPh (t.readBar x) = (oPh o + 1) % 16 ∧ oExp (t.readBar x) = oExp o ∧ oOvr (t.readBar x) = oOvr o ∧
      oFl (t.readBar x) = oFl o ||| (s.bay b).flags.toNat ∧ t.readBar x / 2 ^ 64 = (s.part (s.bay b).partNo).sfc.toNat ∧ t.pc = s.pc + 4 ∧
      (∀ r, t.readS r = s.readS r) ∧ SameMemBut s t x.loc.addr 16) ∧
    (n ≠ 0 → barBad o = false → left < n.toNat →
      let s1 := s.writeBar (s.bayCtx b) v.tid x
        (mkBar (oExp o) 0 ((oPh o + 1) % 16) true (oFl o ||| (s.bay b).flags.toNat) (s.bay b).index (oPh o) (s.part (s.bay b).partNo).sfc.toNat)
      exec (.bararr a h n) s = s1.raise { cause := 0xA1, tid := BitVec.ofNat 16 v.tid, wher := s.readS a, aux := word (n.toNat - left) } ∧
        SameMemBut s s1 x.loc.addr 16 ∧ oArr (s1.readBar x) = 0 ∧ oPh (s1.readBar x) = (oPh o + 1) % 16 ∧ oOvr (s1.readBar x) = true ∧
        (∀ r, s1.readS r = s.readS r)) ∧
    (n ≠ 0 → barBad o = true → exec (.bararr a h n) s = s.raise { cause := 0xA3, tid := BitVec.ofNat 16 v.tid }) ∧
    (e = 0 → exec (.barinit a h e) s = s.raise { cause := 0x02 }) ∧ (n = 0 → exec (.bararr a h n) s = s.raise { cause := 0x02 }))

/-- R393, R394, R400, R409: a bounded wait checks its operands once, when it first issues, and takes its start and bound then. It writes its status when
its condition holds, or, with TIMEOUT set, when the bound has elapsed; before that its word stands, and keeps its start and bound. The bound of all ones is
no bound. -/
def Obligations.BoundedWaits : Prop :=
  ∀ (s : State) (b : Nat) (d a c x : BitVec 5) (g : BitVec 6) (h p : BitVec 4) (i : Instr) (k : Except Stop WaitKind), s.cur = .stream b .S →
    (i, k) ∈ [(Instr.rowwait d a c x, .ok (WaitKind.row (bits (s.readS a) 5 0) (bits (s.readS a) 63 32) (bits (s.readS c) 15 0))),
      (.frmwait d a x, .ok (.frm (bits (s.readS a) 5 0) (bits (s.readS a) 63 32))), (.sqwait d x g, checkSq b g.toNat s),
      (.barwait d a h p x, checkBar b h (s.readS a) p s)] →
    (∀ rc, (s.bay b).waiting = none → k = .error (.trap rc) → exec i s = s.raise rc) ∧
    (∀ (w : WaitRec) (lk : Look), (s.bay b).waiting = some w ∨ (s.bay b).waiting = none ∧ k = .ok w.kind ∧ w = ⟨s.clock, s.readS x, d, w.kind⟩ →
      w.kind.look b s = .ok lk →
      let ends := w.bound ≠ 0xFFFFFFFFFFFFFFFF ∧ w.bound.toNat ≤ s.clock - w.t0
      let gives := fun i s (v : Word) => ∃ t, exec i s = .next t ∧ t.readS w.sd = (if w.sd = 0 then 0 else v) ∧ (∀ r, r ≠ w.sd → t.readS r = s.readS r) ∧
        t.pc = s.pc + 4 ∧ (t.bay b).waiting = none ∧ SameMem s t ∧ OnlyActor s t seqWrites jtrWrites
      (lk.met = true → gives i s (lk.status false)) ∧ (lk.met = false → ends → gives i s (lk.status true)) ∧
      (lk.met = false → ¬ ends → ∃ t, exec i s = .next t ∧ (t.bay b).waiting = some w ∧ t.pc = s.pc ∧ SameMem s t ∧
        OnlyBay s t b (fun y _ => { y with waiting := some w, hold := false })) ∧
      (lk.met = false → ends → (s.bay b).waiting = some w → (s.bay b).live = true → (s.bay b).seqHalted = false → (s.jobOf b).idle = false →
        (s.part (s.bay b).partNo).frozen = none → gives (.waitBoundExpiry b) s (lk.status true)))

/-- R395, R397, R398, R401: SQARM arms a free group of the partition, and where its condition holds already the group completes at once: the completion
makes the record, holds the chosen tiles and sets READY; a deadline completes it with what there is; a bad descriptor or a group in use raises 0x3C. SQREL
drops the holds. That a record tensor which cannot be used raises 0x3C too is the model's reading (log 63), as is that a record waits for the copy of
its slice (R373; log 35). Stated for a partition whose log leaves the completion to the square's own rule (R462). -/
def Obligations.SquareFusesArmedGroups : Prop :=
  ∀ (s : State) (b : Nat) (a : BitVec 5) (g : BitVec 6),
    let x := s.group g.toNat
    let completed := fun (y : Group) (s t : State) =>
      let es := (sqMembers y.copy).map fun c => sqChoose s c y.tgt.toNat (bits (nth 0 y.copy 1) 31 0)
      (t.group g.toNat).armed = false ∧ (t.group g.toNat).ready = true ∧
        (t.group g.toNat).nrec = y.nrec + 1 ∧ (t.group g.toNat).held = ((sqMembers y.copy).zip es).filterMap (fun q => q.2.1.map fun y => (q.1, y.slot)) ∧
        (t.group g.toNat).missing = BitVec.ofNat 16 (maskOf (fun q => q.2.2) es) ∧ (t.group g.toNat).subst = BitVec.ofNat 16 (maskOf (fun q => q.2.1) es)
    let free := fun (s : State) (p : Nat) => (s.part p).frozen = none ∧ s.logSays p 1 g.toNat = .free
    (s.cur = .stream b .S →
      (sqBad s (s.bay b).partNo x.w = false → x.armed = false → x.ready = false → ∀ l, sqRecord b (bits (nth 0 x.w 0) 23 8) s = some l →
        let y : Group := { x with
          armed := true, abay := BitVec.ofNat 6 (s.bay b).index, slot := BitVec.ofNat 8 (s.bay b).slotNo, tgt := s.readS a, copy := x.w, recAt := l
          part := BitVec.ofNat 3 (s.bay b).partNo, armer := (s.bay b).slotNo, held := [], due := [] }
        let s1 := s.setGroup g.toNat y
        ((sqReady g.toNat s1 || sqDue g.toNat s1) = false → ∃ t, exec (.sqarm a g) s = .next t ∧ t.group g.toNat = y ∧
          (∀ k, k ≠ g.toNat → t.group k = s.group k) ∧ t.pc = s.pc + 4 ∧ SameMem s t ∧ t = { s with bays := t.bays, groups := t.groups }) ∧
        ((sqReady g.toNat s1 || sqDue g.toNat s1) = true → free s (s.bay b).partNo → (∀ x ∈ l, s.writeWaits x = false) →
          ∃ t, exec (.sqarm a g) s = .next t ∧ completed y s1 t ∧
          t.pc = s.pc + 4)) ∧
      (sqBad s (s.bay b).partNo x.w = true ∨ x.armed = true ∨ x.ready = true ∨ sqRecord b (bits (nth 0 x.w 0) 23 8) s = none →
        exec (.sqarm a g) s = s.raise { cause := 0x3C }) ∧
      (x.ready = true → x.slot.toNat = (s.bay b).slotNo % 256 → x.part.toNat = (s.bay b).partNo →
        ∃ t, exec (.sqrel g) s = .next t ∧ t.group g.toNat = { x with ready := false, held := [] } ∧ t.pc = s.pc + 4 ∧ SameMem s t ∧
          (∀ n, Tab.get 0 t.holds n = Tab.get 0 s.holds n - (x.held.filter fun q => q.1 * 8 + q.2 = n).length) ∧
          (∀ k, k ≠ g.toNat → t.group k = s.group k) ∧ t = { s with bays := t.bays, groups := t.groups, holds := t.holds, jobs := t.jobs }) ∧
      (x.ready = false → exec (.sqrel g) s = s.raise { cause := 0x3C })) ∧
    (x.armed = true → (∀ y ∈ x.recAt, s.writeWaits y = false) →
      (x.due = [] → free s x.part.toNat → sqReady g.toNat s = true → ∃ t, exec (.squareCompletion g.toNat) s = .next t ∧ completed x s t) ∧
      (x.due = [] → free s x.part.toNat → sqDue g.toNat s = true → ∃ t, exec (.squareDeadline g.toNat) s = .next t ∧ completed x s t) ∧
      (x.due ≠ [] → ∃ t, exec (.squareCompletion g.toNat) s = .next t ∧ t.mem = (s.writeAt x.recAt x.due).mem ∧
        t.group g.toNat = { x with armed := false, ready := true, nrec := x.nrec + 1, due := [] }))

/-! ### The lathwork -/

/-- R338 to R343: what the class operations emit for a batch of well-formed data. Sorted means stable, in the order of the slot; LTOPK takes the first
of the stable order of the largest; LDEDUP keeps exactly the tokens whose compare key no earlier token has; LSCAN writes the sums from left to right into
the key fields; LHIST counts keys by bin; LMERGE is the merge of R340, whose output is sorted where its inputs are. -/
def Obligations.LathOps : Prop :=
  ∀ (s : State) (n : Nat) (sz m : BitVec 4) (im o j : BitVec 2) (b c : Batch), s.cur = .lath n →
    let w := (s.lathAt n).slotWord sz.toNat
    let data := b.data.map fun t => t.1
    let gives := fun i P => EmitsBatch i s n im.toNat o.toNat b P
    (BatchReady s n im.toNat [o.toNat] b →
      (slotCheck { compare := true } w = .ok () →
        gives (.lsort sz im o) (fun l => l.Perm data ∧ l.Pairwise (fun x y => keyBefore w y x = false) ∧
          ∀ v, l.filter (fun y => compareKey w y = compareKey w v) = data.filter fun y => compareKey w y = compareKey w v) ∧
        gives (.ldedup sz im o) (fun l => l = (List.range data.length).filterMap fun k =>
          if (data.take k).any (fun v => compareKey w v == compareKey w (nth 0 data k)) then none else some (nth 0 data k))) ∧
      (slotCheck { compare := true, topk := true } w = .ok () → gives (.ltopk sz im o) (fun l => ∃ r : List Word, r.Perm data ∧
        r.Pairwise (fun x y => topBefore w y x = false) ∧
        (∀ v, r.filter (fun y => compareKey w y = compareKey w v) = data.filter fun y => compareKey w y = compareKey w v) ∧ l = r.take (sTopk w))) ∧
      (slotCheck {} w = .ok () → gives (.lcompact sz im o) (fun l => l = data.filter fun v => !keyIsZero w v) ∧
        ∃ sum : Nat → Nat,
          (sKfmt w ≠ 2 → ∀ k, sum k = ((data.take (k + 1)).map (keyField w)).sum % 2 ^ (if sKfmt w = 3 then 64 else 32)) ∧
          (sKfmt w = 2 → sum 0 = canonF32 (keyField w (nth 0 data 0)) ∧ ∀ k, sum (k + 1) = (addF32 (sum k) (keyField w (nth 0 data (k + 1)))).1) ∧
          gives (.lscan sz im o 0) (fun l => l = (List.range data.length).map fun k => withKey w (nth 0 data k) (sum k)) ∧
          gives (.lscan sz im o 1) (fun l => l = (List.range data.length).map fun k => withKey w (nth 0 data k) (if k = 0 then 0 else sum (k - 1)))) ∧
      (slotCheck { bins := true, formats := [0, 3] } w = .ok () → gives (.lhist sz im o) (fun l => l =
        (List.range (sBins w)).map fun k => word (k * 2 ^ 32 + data.countP fun v => keyField w v % sBins w == k))) ∧
      (slotCheck { formats := [0, 3] } w = .ok () → (sKfmt w == 0 && sEw w == 64) = false → (s.lathAt n).hop = none → ∀ v l, gathView n w s = .ok v →
        gathTokens n w v b.data { src := b.src, thread := b.thread } s = .ok (some l, s) → gives (.lgath sz im o) (· = l))) ∧
    (BatchReady s n im.toNat (maskPorts m) b → m ≠ 0 → slotCheck { formats := [0, 3] } w = .ok () →
      ∃ t, exec (.lroute sz im m) s = .next t ∧ LathRetired s t n im.toNat b ∧ ∀ d, d < (maskPorts m).length →
        t.emits n (nth 0 (maskPorts m) d) = s.emits n (nth 0 (maskPorts m) d) ++
          s.batchAt n (nth 0 (maskPorts m) d) (data.filter fun v => keyField w v % (maskPorts m).length == d)) ∧
    (BatchReady s n im.toNat [o.toNat] b → BatchReady s n j.toNat [o.toNat] c → im ≠ j → slotCheck { compare := true } w = .ok () →
      b.data.length + c.data.length ≤ 192 → ∃ t l, exec (.lmerge sz im o j) s = .next t ∧ Merges w data (c.data.map fun t => t.1) l ∧ l.Perm (data ++ c.data.map fun t => t.1) ∧
        (data.Pairwise (fun x y => keyBefore w y x = false) → (c.data.map fun t => t.1).Pairwise (fun x y => keyBefore w y x = false) →
          l.Pairwise fun x y => keyBefore w y x = false) ∧
        t.emits n o.toNat = s.emits n o.toNat ++ s.batchAt n o.toNat l ∧ (t.lathAt n).pc = (s.lathAt n).nextPc ∧ SameMem s t ∧ OnlyLath s t n)

/-- R336, R345, R346: IDLE passes, LCKPT takes a checkpoint, and LSWAP flips a drained lath to its loaded plane, or waits. R330, R331, R346, R347: a
token that passes the checks enters its source's buffer, over a channel or a lath link; one that fails a check gives its credit back at once and is
reported, and after a gap a resync starts; a token moves into the batch store, giving a credit back; an emission of a held lath takes a credit, while
no resync of its channel or link runs; the loader fills the shadow plane; a parity error stops the lath, and the reload restores its checkpoint. That
a job's end leaves its laths with nothing to emit stands in JobEnds. -/
def Obligations.LathState : Prop :=
  (∀ (s : State) (n : Nat) (k : BitVec 28) (c : BitVec 8), s.cur = .lath n →
    let x := s.lathAt n
    let only := fun t => SameMem s t ∧ OnlyLath s t n
    (k ≠ 0 → ∃ t, exec (.idle k) s = .next t ∧ t.lathAt n = { x with pc := x.nextPc, hop := none } ∧ only t) ∧
    (k = 0 → exec (.idle k) s = s.raise { cause := 0x1F }) ∧
    (∃ t, exec (.lckpt c) s = .next t ∧ (t.lathAt n).pc = x.nextPc ∧ (t.lathAt n).ckpc = x.nextPc ∧ (t.lathAt n).ckn = c ∧
      (t.lathAt n).parity = false ∧ (∀ p ∈ (t.lathAt n).inp, ∀ y ∈ p.store, y.used = false) ∧
      (t.lathAt n).ck = some ⟨x.outp.map fun p => p.seqs, x.inp.map fun p => p.last⟩ ∧ only t) ∧
    (x.shv = true → (∀ p ∈ x.outp, p.emit = []) → ∃ t, exec .lswap s = .next t ∧ (t.lathAt n).act = !x.act ∧ (t.lathAt n).shv = false ∧
      (t.lathAt n).pc = 0 ∧ (t.lathAt n).plane = (if x.act then x.plane0 else x.plane1) ∧ only t) ∧
    (x.shv = false ∨ (∃ p ∈ x.outp, p.emit ≠ []) → exec .lswap s = .next s)) ∧
  (∀ (s : State) (n i : Nat) (tok : Token) (l : List Token),
    let x := s.lathAt n
    (∀ b ch, s.lathAway n = false → b < 64 → ch < 64 → ((s.bay b).ep ch).wire = tok :: l → ((s.bay b).ep ch).dir = false → ((s.bay b).ep ch).peer.toNat = n →
      x.channelPort false (s.bay b).index ch = some i → x.tokenCase i ch tok = .store → i < x.inp.length →
      ∃ t, exec (.lathTokenArrival n i (b * 64 + ch)) s = .next t ∧ ((t.bay b).ep ch).wire = l ∧
        (((t.lathAt n).inPort i).source ch).buf = ((x.inPort i).source ch).buf ++ [tok] ∧
        Tab.get 0 (((t.lathAt n).inPort i).source ch).expect (tagThread tok.2) = BitVec.ofNat 16 (tagSeq tok.2 + 1) ∧ SameMem s t ∧
        t = { s with bays := t.bays, laths := t.laths }) ∧
    (∀ b ch cause sync, s.lathAway n = false → b < 64 → ch < 64 → ((s.bay b).ep ch).wire = tok :: l → ((s.bay b).ep ch).dir = false →
      ((s.bay b).ep ch).peer.toNat = n → x.channelPort false (s.bay b).index ch = some i → (x.tokenCase i ch tok).bad = some (cause, sync) →
      ∃ t, exec (.lathTokenArrival n i (b * 64 + ch)) s = .next t ∧ t.lathAt n = x ∧ TokenReported s t n cause tok ∧
        (let e := ((s.bay b).ep ch).giveCredit
         (t.bay b).ep ch = { e with wire := l, consumed := e.consumed + 1, resync := e.resync || sync })) ∧
    (∀ m o, s.lathAway n = false → o < 4 → ((s.lathAt m).outPort o).wire = tok :: l → s.linkDest m o = some (n, i) → i < x.inp.length →
      o < (s.lathAt m).outp.length →
      let k := linkKey m o
      let gone := fun (t : State) => ((t.lathAt m).outPort o).wire = l ∧ ∀ c, c ≠ n → c ≠ m → t.lathAt c = s.lathAt c
      (x.tokenCase i k tok = .store → ∃ t, exec (.lathTokenArrival n i (4096 + 4 * m + o)) s = .next t ∧ gone t ∧
        (((t.lathAt n).inPort i).source k).buf = ((x.inPort i).source k).buf ++ [tok] ∧
        Tab.get 0 (((t.lathAt n).inPort i).source k).expect (tagThread tok.2) = BitVec.ofNat 16 (tagSeq tok.2 + 1) ∧ t = { s with laths := t.laths }) ∧
      ∀ cause sync, (x.tokenCase i k tok).bad = some (cause, sync) → ∃ t, exec (.lathTokenArrival n i (4096 + 4 * m + o)) s = .next t ∧ gone t ∧
        TokenReported s t n cause tok ∧
        (let y := ((x.inPort i).source k).giveCredit
         ((t.lathAt n).inPort i).source k = { y with consumed := y.consumed + 1, resync := y.resync || sync })) ∧
    (∀ k, s.lathAway n = false → ((x.inPort i).source k).buf = tok :: l → (x.inPort i).store.length < 256 → i < x.inp.length →
      ∃ t, exec (.batchStoreMove n i k) s = .next t ∧ (((t.lathAt n).inPort i).source k).buf = l ∧
        ((t.lathAt n).inPort i).store = (x.inPort i).store ++ [⟨k, (x.inPort i).nextOrder, tok, false⟩] ∧ SameMem s t ∧
        t = { s with bays := t.bays, laths := t.laths }) ∧
    (∀ o p, x.outPort o = p → p.emit = tok :: l → p.credits ≠ 0 → o < x.outp.length → x.rcv = false → s.lathAway n = false →
      (let w := x.portWord (4 + o)
       pwKind w = 1 ∧ (∀ j, x.slot = some j → ((s.bay (nth 0 (s.job j).bays (pwBay w))).ep (pwChan w)).resync = false) ∨
       ∃ m q, s.linkDest n o = some (m, q) ∧ (((s.lathAt m).inPort q).source (linkKey n o)).resync = false) →
      ∃ t, exec (.tokenEmission n o) s = .next t ∧ (t.lathAt n).outPort o = { p with
          emit := l, credits := p.credits - 1, sent := p.sent + 1, wire := p.wire ++ [tok], replay := (p.replay ++ [tok]).drop (p.replay.length + 1 - 64) } ∧
        SameMem s t ∧ OnlyLath s t n) ∧
    (x.loading = true → ∃ t, exec (.loaderCompletion n) s = .next t ∧ (t.lathAt n).shv = true ∧ (t.lathAt n).plane = x.plane ∧ SameMem s t ∧
      OnlyLath s t n ∧ (if x.act then (t.lathAt n).plane0 = x.master0 else (t.lathAt n).plane1 = x.master1)) ∧
    (x.slot ≠ none → x.hlt = false → x.rcv = false → x.parity = false → ∃ t, exec (.parityError n) s = .next t ∧
      t.lathAt n = { x with rcv := true } ∧ SameMem s t ∧ OnlyLath s t n) ∧
    (x.rcv = true → ∃ t, exec (.reloadCompletion n false) s = .next t ∧ (t.lathAt n).rcv = false ∧ (t.lathAt n).parity = true ∧
      (t.lathAt n).pc = x.ckpc ∧ (t.lathAt n).plane = (if x.act then x.master1 else x.master0) ∧ (∀ m, m ≠ n → t.lathAt m = s.lathAt m)))

/-! ### Hash tables -/

/-- R338, R378 to R383, R386: a hash operation takes a batch whose checks pass, handles its tokens one by one, and retires: HPROBE collects matching
rows granule by granule and emits them, HINS fills the first free slot, HDEL closes the gap in the bucket, and HFENCE passes when the lath's updates
have completed.
R377, R384, R385: HREHASH starts a rehash and claims buckets, and retires when its buckets have been migrated; a posted update that none must precede
writes its bytes and no other. The model's readings: one token a step and a probe one granule (logs 73, 102), the tag of an access (log 29), and how
HREHASH claims buckets and counts the nodes (log 101). -/
def Obligations.HashTables : Prop :=
  (∀ (s : State) (n : Nat) (im o : BitVec 2) (f : BitVec 6) (h : HashOp) (b : Batch) (gv : GenView) (fd : Found) (gr : Granule), s.cur = .lath n →
    let x := s.lathAt n
    let w := s.family f.toNat
    let goes := fun i (h : HashOp) => ∃ t, exec i s = .next t ∧ (t.lathAt n).hop = some h ∧ (t.lathAt n).pc = x.pc ∧ SameMem s t
    let posts := fun i (h : HashOp) (vals : List Nat) => ∃ t u, exec i s = .next t ∧ (t.lathAt n).hop = some h ∧
      (t.lathAt n).updates = x.updates ++ [u] ∧ u.parts = cut fd.bucket.spans (vals.flatMap (natBytes 4)) ∧ SameMem s t
    (x.hop = none → s.nextBatch n im.toNat = .some b → x.roomAt o.toNat = true →
      (b.bad = false → goes (.hfence im o) { src := b.src, thread := b.thread }) ∧
      (familyCheck n f.toNat s = .ok () → payloadCheck b (queryBad w) 16 = .ok () → goes (.hprobe im o f) { src := b.src, thread := b.thread }) ∧
      (familyCheck n f.toNat s = .ok () → payloadCheck b (updateBad w) 192 = .ok () →
        goes (.hins im f) { src := b.src, thread := b.thread } ∧ goes (.hdel im f) { src := b.src, thread := b.thread })) ∧
    (x.hop = some h → hopBatch n im.toNat h s = some b →
      (∀ t, b.data[h.next]? = some t → let tb := s.table (fTbl w (pT t.1))
        let c := chkOf gv.g.bb (pKey t.1)
        let k := bucketOf gv.g.bb (pKey t.1)
        (∀ g gs, h.gens.getD (gensOf tb) = g :: gs → genView n g s = .ok gv →
          let reads := fun i slots place => ∀ v, (if h.place = 0 then some gv.bv else gv.ov) = some v → readGranule n v i false s = .ok gr →
            ownBusy n [gr] s = false → goes (.hprobe im o f) { h with
              out := (collect c slots h.out h.cut).1, cut := (collect c slots h.out h.cut).2, place := place
              gens := some (if place = 0 then gs else g :: gs) }
          let after := fun i => if i = 0xFFFFFFFF then 0 else 2 + i
          (h.place = 0 → reads (8 * k) gr.vals (if gv.ov = none then 0 else 1)) ∧
          (h.place = 1 → reads (k / 8 * 8) [] (after (nth 0 gr.vals (k % 8)))) ∧
          (∀ j, h.place = j + 2 → reads (2 ^ gv.g.bb + 8 * j) (gr.vals.take 7) (after (nth 0 gr.vals 7)))) ∧
        (h.gens = some [] → goes (.hprobe im o f) { h with next := h.next + 1, gens := none, place := 0 }) ∧
        (keyHeld n (fTbl w (pT t.1)) tb (pKey t.1) s = false → readBucket n gv k true s = .ok fd → anyBusy fd.granules s = false →
          (genView n (insertGen tb) s = .ok gv → (∀ v ∈ fd.slots, v ≠ slotOf (pRow t.1) c) → (∃ v ∈ fd.bucket.vals, slotFree v = true) →
            posts (.hins im f) { h with next := h.next + 1 } (replaceFirst slotFree (slotOf (pRow t.1) c) fd.bucket.vals)) ∧
          (hState tb = false → genView n (genOf tb false) s = .ok gv → slotOf (pRow t.1) c ∈ fd.bucket.vals → posts (.hdel im f) { h with next := h.next + 1 }
            (fd.bucket.vals.erase (slotOf (pRow t.1) c) ++ [emptySlot])))) ∧
      (b.data[h.next]? = none → s.mergePoint n im.toNat = false → im.toNat < x.inp.length → o.toNat < x.outp.length →
        (h.cut = false → EmitsBatch (.hprobe im o f) s n im.toNat o.toNat b (· = h.out.map word)) ∧
        (∃ t, exec (.hins im f) s = .next t ∧ LathRetired s t n im.toNat b) ∧ (∃ t, exec (.hdel im f) s = .next t ∧ LathRetired s t n im.toNat b)) ∧
      (x.updates = [] → s.mergePoint n im.toNat = false → im.toNat < x.inp.length → o.toNat < x.outp.length →
        EmitsBatch (.hfence im o) s n im.toNat o.toNat b (· = b.data.map fun t => t.1)))) ∧
  (∀ (s : State) (n : Nat) (t : BitVec 8) (k : BitVec 12),
    let x := s.lathAt n
    let w := s.table t.toNat
    (s.cur = .lath n →
      (tableCheck n t.toNat true s = .ok () → hState w = false → ∃ u, exec (.hrehashBegin t) s = .next u ∧ hState (u.table t.toNat) = true ∧
        half (u.table t.toNat) 3 false = 0 ∧ half (u.table t.toNat) 3 true = 0 ∧ (∀ j, j ≠ t.toNat → u.table j = s.table j) ∧
        (u.lathAt n).pc = x.nextPc ∧ SameMem s u) ∧
      (tableCheck n t.toNat false s = .ok () → hState w = true → k ≠ 0 → x.rehash = none → ∃ u a, exec (.hrehash t k) s = .next u ∧
        (u.lathAt n).rehash = some (t.toNat, half w 3 true, a) ∧ half w 3 true ≤ a ∧ a ≤ half w 3 true + k.toNat ∧ (u.lathAt n).pc = x.pc ∧ SameMem s u) ∧
      (∀ a e h, x.rehash = some (a, e, e) → x.hop = some h → h.bucket = none → k ≠ 0 → ∃ u, exec (.hrehash t k) s = .next u ∧
        (u.lathAt n).rehash = none ∧ (u.lathAt n).pc = x.nextPc ∧ SameMem s u ∧ OnlyLath s u n)) ∧
    (∀ j u, x.updates[j]? = some u → (∀ v ∈ x.updates.take j, v.at ∉ u.after) → (∀ p ∈ u.parts, s.sliceWaits p.2.1 = false) → ∃ t, exec (.hashUpdateCompletion n j) s = .next t ∧
      (t.lathAt n).updates = x.updates.eraseIdx j ∧
      (∀ a, (∀ p ∈ u.parts, a < p.2.1 ∨ p.2.1 + p.2.2.length ≤ a) → Memory.read t.mem a = Memory.read s.mem a) ∧
      (∀ p, u.parts = [p] → ∀ i, i < p.2.2.length → Memory.read t.mem (p.2.1 + i) = nth 0 p.2.2 i)))

/-! ### Jointers -/

/-- R356, R358: JWAIT takes the next line, or the end of the frame, and waits with nothing to take; JLINE reads lanes of a line inside the window;
JEMIT writes lanes of the output line; JSUB marks it; JSTAT reads. R356, R358 to R360: JROW hands the row to the next position, or writes it into the
open tile, and a void tile only counts it; JTILE opens a tile in the first free slot of the ring, or a void one. The model's readings: JSTAT 5 gives the
LATECNT of position 0 (log 75), and the first JTILE begins its search at slot 0 (log 74). -/
def Obligations.JointerWordsMakeTiles : Prop :=
  (∀ (s : State) (c p : Nat) (d a : BitVec 5) (v n : BitVec 4) (im : BitVec 15) (r : BitVec 2) (l : Line) (rest : List Line), s.cur = .jointer c p →
    let x := s.chain c
    let j := s.jtr c p
    let goes := fun i (fj : Jointer → Jointer → Jointer) => ∃ t, exec i s = .next t ∧ t.pc = s.pc + 4 ∧ SameMem s t ∧ OnlyActor s t (fun y _ => y) fj
    let base := lineBase a im s
    let w := fmtWidth s.vty
    (chainEn x = true → j.eofs = false → j.spentFrom = none → j.ring = l :: rest → l.eof = false → l.sof = false →
      (p ≠ 0 ∨ l.odd = false ∧ s.logSays (chainPart x) 2 c = .free) → ∃ t, exec (.jwait d) s = .next t ∧ t.pc = s.pc + 4 ∧
        t.readS d = (if d = 0 then 0 else lineStatusWord l) ∧ (∀ q, q ≠ d → t.readS q = s.readS q) ∧ (t.jtr c p).ring = rest ∧
        (t.jtr c p).cur = BitVec.ofNat 16 l.num ∧ (t.jtr c p).inf = true ∧ (t.jtr c p).frame = l.frame ∧
        (0 < x.win p → ((t.jtr c p).kept.getLast?).map (fun k => (k.num, k.elems)) =
          some (l.num, if p = 0 then fit x.width l.elems else l.elems)) ∧ SameMem s t) ∧
    (chainEn x = true → j.eofs = false → j.spentFrom = none → j.ring = l :: rest → l.eof = true → ∃ t, exec (.jwait d) s = .next t ∧
      t.readS d = (if d = 0 then 0 else word (l.num % 65536 + 2 ^ 17 + l.frame.toNat * 2 ^ 32)) ∧ (t.jtr c p).eofs = true ∧ (t.jtr c p).frame = l.frame ∧ (t.jtr c p).ring = rest ∧
      t.pc = s.pc + 4 ∧ SameMem s t) ∧
    (chainEn x = true → j.eofs = false → j.spentFrom = none → j.ring = [] → exec (.jwait d) s = .next s) ∧
    (s.vty = x.inFmt p → j.inf = true → bits (s.readS a) 47 32 ≤ j.cur.toNat → j.cur.toNat + 1 ≤ bits (s.readS a) 47 32 + x.win p →
      j.kept.find? (fun k => k.num = bits (s.readS a) 47 32) = some l → ∃ t, exec (.jline v a im) s = .next t ∧
        (∀ i, i < lanesOf w → t.lane v.toNat w i = (if base + i < x.inWidth p then lgMask s.vty (nth 0 l.elems (base + i)) else 0) % 2 ^ w) ∧
        (∀ q, q < 64 → q ≠ v.toNat → t.readV q = s.readV q) ∧ (t.jtr c p).inv = (j.inv || l.bad || l.drop) ∧ t.pc = s.pc + 4 ∧ SameMem s t) ∧
    (s.vty ≠ x.inFmt p → exec (.jline v a im) s = s.raise { cause := 0x3D }) ∧
    (let row := (List.range (x.owidth p)).map fun k => if base ≤ k ∧ k < base + lanesOf w then s.lane v.toNat w (k - base) else nth 0 j.out k
     s.vty = x.ofmt p → goes (.jemit v a im) (fun j z => jtrMoves { j with out := row } z)) ∧
    goes (.jsub r) (fun j z => jtrMoves { j with inv := true, sub := BitVec.ofNat 2 (if r = 0 then ruleOf x.rule else r.toNat) } z) ∧
    (j.inf = true → ∀ k v, (k, v) ∈ [(0, j.curLine.time), (1, j.t0), (2, word j.frame.toNat), (3, word j.badcnt.toNat), (4, word j.dropcnt.toNat),
      (5, word (s.jtr c 0).latecnt.toNat), (6, word j.ovrcnt.toNat), (7, word j.curLine.recv), (8, word j.voidcnt.toNat)] →
      n = BitVec.ofNat 4 k → Writes (.jstat d n) s d v) ∧
    (8 < n.toNat → exec (.jstat d n) s = s.raise { cause := 0x02 })) ∧
  (∀ (s u : State) (c p : Nat) (a : BitVec 5), s.cur = .jointer c p →
    let x := s.chain c
    let j := s.jtr c p
    let out := rowOut (x.owidth p) j
    let rowDone := fun (t : State) => (t.jtr c p).outn = j.outn + 1 ∧ (t.jtr c p).inv = false ∧ (t.jtr c p).sub = 0 ∧ (t.jtr c p).out = [] ∧
      (t.jtr c p).prev = some out ∧ t.pc = s.pc + 4
    (x.isLast p = false → p < 7 → (s.jtr c (p + 1)).used < x.win (p + 1) + 2 → ∃ t, exec .jrow s = .next t ∧ rowDone t ∧ SameMem s t ∧
      ∃ l, (t.jtr c (p + 1)).ring = (s.jtr c (p + 1)).ring ++ [l] ∧ l.elems = out ∧ l.bad = j.inv ∧ l.num = j.outn.toNat ∧ l.frame = j.frame) ∧
    (x.isLast p = false → ¬ (s.jtr c (p + 1)).used < x.win (p + 1) + 2 → exec .jrow s = .next s) ∧
    (x.isLast p = true → j.outn ≠ 65535 → j.topen = true → j.void = true → ∃ t, exec .jrow s = .next t ∧ rowDone t ∧
      (t.jtr c p).trows = j.trows + 1 ∧ SameMem s t) ∧
    (x.isLast p = true → j.topen = false → j.outn ≠ 65535 → exec .jrow s = s.raise { cause := 0x3E }) ∧
    (x.isLast p = true → j.topen = true → j.void = false → j.outn ≠ 65535 → rowTile c p out s = .ok u → (u.jtr c p).outn = j.outn → u.cur = s.cur → u.pc = s.pc →
      ∃ t, exec .jrow s = .next t ∧ rowDone t ∧ SameMem u t) ∧
    (x.isLast p = false → exec (.jtile a) s = s.raise { cause := 0x05 }) ∧
    (x.isLast p = true → j.topen = false → bit (s.readS a) 63 = true → chainRing x ≠ 0 →
      let f := if j.opened then (j.tslot.toNat + 1) % chainRing x else 0
      (freeSlot c (chainRing x) f s = none → ∃ t, exec (.jtile a) s = .next t ∧ (t.jtr c p).topen = true ∧ (t.jtr c p).void = true ∧
        (t.jtr c p).voidcnt = j.voidcnt + 1 ∧ (t.jtr c p).trows = 0 ∧ t.pc = s.pc + 4 ∧ SameMem s t) ∧
      (∀ k, freeSlot c (chainRing x) f s = some k → openTile c p none (word (bits (s.readS a) 62 0)) s = .ok u → u.cur = s.cur → u.pc = s.pc →
        ∃ t, exec (.jtile a) s = .next t ∧ SameMem u t ∧ t.pc = s.pc + 4)))

/-- R349, R350, R354 to R356: packets of a camera chain and frames of a lidar chain make lines of position 0. Stated where one enabled chain takes the
packet; a packet with a wrong header, type or check sequence is counted. The packings of pixels are presumed (log 31), and that a packet whose header
cannot be corrected drops the next line is the model's reading (log 75). R351, R389: device time is disciplined by the time port: an accepted Sync
measures the offset, and after the first lock never steps the time; the loss of three Syncs begins holdover. -/
def Obligations.LinesAndTime : Prop :=
  (∀ (s : State) (port vc dt num c : Nat) (bytes : List Byte) (ok : Bool),
    let x := s.chain c
    let j := s.jtr c 0
    let discards := fun i k => ∃ t, exec i s = .next t ∧ (t.port k).discard = (s.port k).discard + 1 ∧ SameMem s t
    let lines := fun i (l : List Line) => ∃ t, exec i s = .next t ∧ (t.jtr c 0).ring = j.ring ++ l ∧ SameMem s t ∧
      (∀ k, k ≠ c → t.chain k = s.chain k)
    let base : Line := { num := x.next, frame := x.frame, sof := x.next == 0, time := s.clk.time, fmt := x.inFmt 0 }
    let room := j.used < x.win 0 + 3
    (s.cameras port vc = [c] →
      (x.inFrame = false → ∃ t, exec (.csi2FrameStart port vc) s = .next t ∧ (t.chain c).inFrame = true ∧ (t.chain c).next = 0 ∧
        (t.chain c).frames = x.frames + 1 ∧ SameMem s t) ∧
      (x.inFrame = true → x.next = x.height → lines (.csi2FrameEnd port vc) [{ num := x.next, frame := x.frame, eof := true }]) ∧
      (x.inFrame = true → x.lnum = false → ∃ t, exec (.csi2LineStart port vc num) s = .next t ∧ (t.chain c).lineStart = some (num, s.clk.time) ∧
        (t.jtr c 0).ring = j.ring ∧ SameMem s t) ∧
      (x.inFrame = true → x.next < x.height → x.lnum = false → x.lineStart = none → x.src = 0 → x.dt = dt → x.timedOut s.clk.time = false → room →
        (dt ∈ cameraTypes → lines (.csi2LongPacket port vc dt bytes ok true) [{ base with
            bad := !ok, lenBad := (unpackPacket dt bytes).length != x.width, recv := (unpackPacket dt bytes).length, elems := unpackPacket dt bytes }]) ∧
        lines (.csi2LongPacket port vc dt bytes ok false) [{ base with drop := true }])) ∧
    exec (.csi2LineEnd port vc) s = .next s ∧ discards (.csi2UnsupportedPacket port vc) port ∧
    (dt ∉ cameraTypes → discards (.csi2LongPacket port vc dt bytes ok true) port) ∧
    ((chainEn x && x.src == 0 && !x.lnum && x.lto != 0 && x.inFrame && decide (x.next < x.height)) = true → room →
      x.lastEnd.toNat + x.lto ≤ s.clk.time.toNat → lines (.lineTimeout c) [{ base with drop := true, time := x.lastEnd + word x.lto }]) ∧
    discards (.lidarFrame port bytes false) (24 + port) ∧
    (∀ u, (parseEther bytes).1 ≠ 0x88F7 → bytes.length + 4 ≤ 1522 → bytes.take 6 = macBytes port →
      parseIp (parseEther bytes).1 (parseEther bytes).2 = some u → s.lidars port u.port = [c] → periodOf x s ≤ x.period → x.inFrame = true →
      x.next < x.height → x.src = 1 → x.lineStart = none → room → lines (.lidarFrame port bytes true)
        [{ base with bad := !u.good, lenBad := u.data.length != x.width, recv := u.data.length, elems := u.data.map fun b => b.toNat }]) ∧
    (chainEn x = true → x.src = 1 → x.period < periodOf x s → x.inFrame = false → ∃ t, exec (.lidarFramePeriod c) s = .next t ∧
      (t.chain c).inFrame = true ∧ (t.chain c).next = 0 ∧ (t.chain c).period = x.period + 1 ∧ SameMem s t)) ∧
  (∀ (s : State) (port gm req delay : Nat) (stamp : Int), s.timePort = some port →
    let c := s.clk
    let measured := fun i (t0 : Word) => c.first = true → ∃ t, exec i s = .next t ∧
      (let o : Int := t0.toNat - (stamp + c.pdelay)
       t.clk.offs = saturate32 o ∧ t.clk.slew = -o ∧ t.clk.time = c.time ∧ t.clk.lock = (decide (o ≤ 1000) && decide (-1000 ≤ o)) ∧
       t.clk.hold = false ∧ t.clk.lastSync = c.time) ∧ t = { s with clk := t.clk, tick := t.tick }
    exec (.gptpAnnounce port gm) s = .next { s with clk := { c with gm := some gm } } ∧
    measured (.gptpSync port false stamp) c.time ∧
    exec (.gptpSync port true stamp) s = .next { s with clk := { c with sync := some c.time } } ∧
    (∀ t0, c.sync = some t0 → measured (.gptpFollowUp port stamp) t0) ∧
    exec (.pdelayRequest port req) s = .next { s with outbox := (1, natBytes 8 req ++ natBytes 8 c.time.toNat) :: s.outbox } ∧
    (∃ t, exec (.pdelayOriginate port) s = .next t ∧ t.clk = { c with pdelayReq := true } ∧ t.outbox = (2, natBytes 8 c.time.toNat) :: s.outbox) ∧
    (c.pdelayReq = true → exec (.pdelayResponse port delay) s = .next { s with clk := { c with pdelay := delay, pdelayReq := false } }) ∧
    (c.lastSync.toNat + 3 * Config.syncInterval.toNat ≤ c.time.toNat → c.first = true →
      exec .syncLoss s = .next { s with clk := { c with lock := false, hold := true, slew := 0 } }))

/-! ### The Framer -/

/-- R310 to R314, R326: the Framer admits the HEAD record of the first queue in order of LEVEL, or refuses it with a completion record of STATUS 1
and the refusal code. Stated of admitted jobs that wait for no tiles.
Of several refusal codes the lowest is given (log 40). -/
def Obligations.JobAdmission : Prop :=
  ∀ (s : State) (p q : Nat),
    let x := s.part p
    let y := s.queue p q
    let r := launchRecord y s
    let img := launchImage r s
    let code := launchCode p y r img s
    let crec : Word := word (leAt r 40 8)
    let jobid : Word := word (leAt r 16 8)
    s.framerUp = true → x.up = true → x.blocked = false → s.isFrozen p = false → s.freeSlots p ≠ [] → nextQueue x = some q →
    (∀ k, k < 64 → (s.queue p k).en = true → (s.queue p k).head ≠ (s.queue p k).tail → (s.queue p k).level ≤ y.level ∧
      ((s.queue p k).level = y.level → q ≤ k)) ∧
    (code = 0 → (∀ d ∈ launchDeps r, d.kind ≠ 4) → ∃ t, ∃ n ∈ s.freeSlots p, exec (.admission p) s = .next t ∧
      (t.job n).state = .wait ∧ (t.job n).part = p ∧ (t.job n).queue = q ∧ (t.job n).jobid = jobid ∧ (t.job n).prio = leAt r 13 1 ∧
      (t.job n).image = img ∧ (t.job n).key = word (leAt r 24 8) ∧ (t.job n).crec = crec ∧ (t.job n).order = s.jobClock ∧ t.jobClock = s.jobClock + 1 ∧
      (∀ m, m ≠ n → t.job m = { s.job m with deps := (t.job m).deps }) ∧ (t.queue p q).head = (y.head + 1) % 2 ^ y.logn ∧
      (∀ k, k ≠ q → t.queue p k = s.queue p k) ∧ t.bays = s.bays ∧ t.laths = s.laths ∧ SameMemRecs s t [x.evAt]) ∧
    (code ≠ 0 → y.next = none → ∃ t, exec (.admission p) s = .next t ∧ t.recorded crec jobid 1 0 code 255 ∧
      (t.part p).msix = x.msix + 1 ∧ (t.queue p q).head = (y.head + 1) % 2 ^ y.logn ∧ (∀ n, (t.job n).state = (s.job n).state) ∧
      t.bays = s.bays ∧ t.laths = s.laths ∧ SameMemRecs s t [hostAddr crec.toNat] ∧
      (s.knows p jobid = false → (t.part p).history.head? = some (jobid, false) ∧ ∀ n, (s.job n).state = .wait → (s.job n).part = p →
        (∃ d ∈ (s.job n).deps, d.kind = 3 ∧ d.isMet = false ∧ d.c = jobid) → (t.job n).status = 5))

/-- R311, R316, R321, R322: a job whose dependences are met becomes READY at its PRIO, one whose predecessor failed completes with STATUS 5, and its level
rises by one each 4,096 µs; TLIM µs in RUN raise JOB_TIME in every bay, and 100 µs later the job ends with JOB_KILL; a pre-empted job stops. -/
def Obligations.JobClocks : Prop :=
  ∀ (s : State) (n : Nat), s.framerUp = true →
    let j := s.job n
    let x := s.part j.part
    let onlyJob := fun (t : State) (j' : Job) => t = { s with jobs := t.jobs } ∧ t.job n = j' ∧ ∀ m, m ≠ n → t.job m = s.job m
    let deps := j.deps.map fun d => if d.isMet then d else { d with isMet := depHolds j.part n d s }
    (j.state = .wait → j.status = 5 → ∃ t, exec (.dependenceMet n) s = .next t ∧ Left s t n 5 0 0) ∧
    (j.state = .wait → j.status ≠ 5 → ((∀ d ∈ deps, d.isMet = true) → ∃ t, exec (.dependenceMet n) s = .next t ∧
        onlyJob t { j with deps := deps, state := .ready, readyAt := s.clock, elev := j.prio }) ∧
      ((∃ d ∈ deps, d.isMet = false) → ∃ t, exec (.dependenceMet n) s = .next t ∧ onlyJob t { j with deps := deps })) ∧
    (x.det = false → j.state = .ready ∨ j.state = .saved → ∃ t, exec (.aging n) s = .next t ∧
      onlyJob t { j with elev := min 7 (j.prio + (s.clock - j.readyAt) / (4096 * 3200)) }) ∧
    (n < 256 → j.state = .run → j.timeUp = none → j.ended = false → j.tlim * 3200 ≤ j.runTime s.clock → ∃ t, exec (.jobTime n) s = .next t ∧
      t.job n = { j with timeUp := some s.clock } ∧ SameMem s t ∧
      (∀ b ∈ s.allBays n, (s.bay b).live = true → ∃ f ∈ (t.bay b).pend, f.rc.cause = 0xA6) ∧ (∀ b, b ∉ s.allBays n → t.bay b = s.bay b)) ∧
    (∀ c, n < 256 → j.state = .run ∨ j.state = .load ∨ j.state = .saved → j.timeUp = some c → j.ended = false → j.stopping = false →
      c + 100 * 3200 ≤ s.clock → s.allHalted n = false → ∃ t, exec (.jobKill n) s = .next t ∧
        (t.job n).status = 3 ∧ (t.job n).cause = 0xF1 ∧ (t.job n).ended = true ∧ SameMem s t ∧
        (∀ b, ∀ k ∈ s.copies n, (s.bay b).slot = some k → (t.bay b).live = false ∧ ∀ e ∈ engines, ((t.bay b).stream e).run = false) ∧
        (∀ b, (∀ k ∈ s.copies n, (s.bay b).slot ≠ some k) → t.bay b = s.bay b) ∧
        ∀ k, (s.lathAt k).slot = some n → (t.lathAt k).updates = [] ∧ (t.lathAt k).hlt = (s.lathAt k).hlt) ∧
    (∀ c, n < 256 → j.state = .run → j.timeUp = some c → j.ended = false → j.stopping = true → c + 100 * 3200 ≤ s.clock → s.allHalted n = false →
      ∃ t, exec (.jobKill n) s = .next t ∧ onlyJob t { j with status := 3, cause := 0xF1, fbay := 0xFF, frec := 0, ended := true }) ∧
    (s.preemptible n = true → victim j.part s = some n → j.twin = none → ∃ t, exec (.preemption n) s = .next t ∧
      t.job n = { j with stopping := true } ∧ (∀ m, m ≠ n → t.job m = s.job m) ∧ t.bays = s.bays ∧ t.laths = s.laths ∧ SameMemRecs s t [x.evAt])

/-- R255, R315, R317, R318, R323, R451: selection places a job of the highest ELEV, a READY one on the free group of lowest number, and its code goes to
the shadow planes of the group's bays, and of the mirror's for its twin; the trusses of its bents then have no previous holder. A job whose image has
no good variant for DEFSIG leaves with that check's code. Stated where no replay is under way. -/
def Obligations.JobPlacement : Prop :=
  ∀ (s : State) (p n g : Nat) (h : Option Nat) (qs : Tab LQueue) (ptr : Nat), select p s = .place n g h qs ptr →
    let j := s.job n
    let bays := fun g => bentBays (((s.part p).groupBents j.cost g).getD [])
    let bs := bays g
    let hs := (h.map bays).getD []
    let code := planeOf (recOf j.image 1)
    let goes := s.framerUp = true ∧ (s.part p).up = true ∧ s.isFrozen p = false ∧ (s.part p).det = false ∧ (s.part p).logMode = 0 ∧ j.part = p
    (∃ i, (n, i) ∈ s.eligible p ∧ (∀ e ∈ s.eligible p, e.2.elev ≤ i.elev) ∧ (i.state = .ready → s.groupFree p i.cost g = true ∧
      (i.paired = false → h = none ∧ ∀ f, f < g → s.groupFree p i.cost f = false) ∧ (i.paired = true → h = (s.part p).mirror i.cost g))) ∧
    (goes → j.state = .ready → s.variantCode j = 0 → ∃ t, exec (.selection p) s = .next t ∧
      (t.job n).state = .load ∧ (t.job n).group = g ∧ (t.job n).bays = bs ∧ (t.job n).placed = true ∧ (t.job n).sig = s.remap.defsig.toNat ∧
      (h ≠ none → (t.job n).twin = some (n + 1024) ∧ (t.job (n + 1024)).bays = hs ∧ (t.job (n + 1024)).twin = some n) ∧
      (∀ m, m ≠ n → (m ≠ n + 1024 ∨ h = none) → t.job m = s.job m) ∧
      (∀ b ∈ bs, b ∉ hs → (t.bay b).shadowFor = some n ∧ (t.bay b).shadow = code ∧ (t.bay b).slot = (s.bay b).slot) ∧
      (∀ b ∈ hs, (t.bay b).shadowFor = some (n + 1024) ∧ (t.bay b).shadow = code ∧ (t.bay b).slot = (s.bay b).slot) ∧
      (∀ b, b ∉ bs → b ∉ hs → t.bay b = { s.bay b with chan := (t.bay b).chan }) ∧
      (∀ l ∈ variantLaths j.image s.remap.defsig.toNat, (t.lathAt l).slot = some n ∧ (t.lathAt l).shadowFor = some n) ∧
      (j.plumb = false → ∀ b, b ∈ bs ∨ b ∈ hs → (t.bent (b / 8)).last = none) ∧ (t.part p).queues = qs ∧ (t.part p).pointer = ptr) ∧
    (goes → j.state = .ready → s.variantCode j ≠ 0 → ∃ t, exec (.selection p) s = .next t ∧
      Left s t n 1 0 (s.variantCode j)) ∧
    (goes → j.state = .saved → j.twin = none → ∃ t, exec (.selection p) s = .next t ∧ (t.job n).state = .load ∧ (t.job n).bays = j.bays ∧
      (∀ b ∈ j.bays, (t.bay b).shadowFor = some n ∧ (t.bay b).shadow = code) ∧ (∀ b, b ∉ j.bays → t.bay b = s.bay b) ∧
      (j.plumb = false → ∀ b ∈ j.bays, (t.bent (b / 8)).last = none) ∧
      (∀ m, m ≠ n → t.job m = s.job m) ∧ (t.part p).queues = qs ∧ (t.part p).pointer = ptr)

/-- R14, R15, R216, R255, R318, R323, R346, R477: at its drain point, once the laths of its job are loaded, a bay flips to the shadow plane: a new
job's bay starts at its section S with s1 and s2 set, its banks and accumulator store zero; a restored job's bay has the registers, the program
counter and the bytes of the latest image. The job runs once its last bay has flipped, a restored one with its laths as they were saved.
That the image stands in the structured areas area0 and area1 of the job is log 48. -/
def Obligations.PlaneFlip : Prop :=
  ∀ (s : State) (b n i : Nat), (s.bay b).shadowFor = some n → (s.job n).state = .load → (s.job n).ended = false → s.drained b = true →
    s.lathsLoaded (n % 1024) = true → s.framerFlips = true →
    let j := s.job n
    let y := s.bay b
    j.bays[i]? = some b → (∀ k, k < i → j.bays[k]? ≠ some b) → (∀ p, (s.part p).faults = []) →
    (j.latestArea = none → ∃ t, exec (.planeFlip b) s = .next t ∧
      (let z := t.bay b
       z.slot = some n ∧ z.index = i ∧ z.live = true ∧ z.plane = y.shadow ∧ z.shadow = y.plane ∧ z.pc = BitVec.ofNat 16 (nth (0, 0) y.shadow.sections 0).1 ∧
       (∀ r, Tab.get 0 z.s r = if r = 1 then word i else if r = 2 then word j.bays.length else 0) ∧ z.flags = 0 ∧ z.tvecEn = false ∧ z.pend = [] ∧
       z.jobkey = j.key ∧ z.plumbseed = (if j.plumb then plumbSeed j.key j.run1 else 0) ∧ (∀ e ∈ engines, (z.stream e).run = false) ∧ z.cnt = [] ∧ z.rsv = [] ∧ z.allLines = true) ∧
      (∀ a, Memory.read t.mem a = if inBay b a then unlisted else Memory.read s.mem a) ∧ (∀ c, c ≠ b → t.bay c = s.bay c) ∧
      t.bents = s.bents ∧
      (n < 1024 → (∀ c ∈ j.bays, c ≠ b → (s.bay c).slot = some n) → j.twin = none → (t.job n).state = .run ∧ (t.job n).ranFrom = s.clock)) ∧
    (∀ area z, j.latestArea = some area → area.bays[i]? = some z → (area.mem.map fun c => c.1).Nodup → ∃ t, exec (.planeFlip b) s = .next t ∧
      t.bay b = z.restored s.clock y.plane ∧ (∀ c, c ≠ b → t.bay c = s.bay c) ∧ t.bents = s.bents ∧
      (n < 1024 → (∀ c ∈ j.bays, c ≠ b → (s.bay c).slot = some n) → j.twin = none → (t.job n).state = .run ∧
        ∀ k, (s.lathAt k).slot = some n → t.lathAt k = (Tab.get (s.lathAt k) area.laths k).restored s.clock) ∧
      (∀ a, inBay b a = false → Memory.read t.mem a = Memory.read s.mem a) ∧
      ∀ a, inBay b a = true → (∀ v, (a, v) ∈ area.mem → Memory.read t.mem a = v) ∧ ((∀ v, (a, v) ∉ area.mem) → Memory.read t.mem a = unlisted))

/-- R319, R320, R402: each main clock counts CLK up, and at its frame origin a partition's CLK is 0, it takes the next frame number and FRAMELEN, and
EVPEND.FRAME is set in its bays; in a deterministic partition the entry of the frame starts its job, whose preload has finished, or its slot is
missed. Stated of partitions in which no move of a page is under way and, of the schedule, no job has halted in every bay. -/
def Obligations.FrameOrigin : Prop :=
  (∀ (s : State) (p : Nat), (s.part p).up = true → (∀ e ∈ s.parts, (e.2.up && e.2.due) = false ∧ e.2.moves = []) →
    let x := s.part p
    let t := s.tickClock
    t.clock = s.clock + 1 ∧ SameMem s t ∧
    (x.sfcClk.toNat + 1 < x.framelen.toNat → t.part p = { x with sfcClk := x.sfcClk + 1 }) ∧
    (x.framelen.toNat ≤ x.sfcClk.toNat + 1 → t.part p = { x with
      sfcClk := 0, fnum := x.fnum + 1, framelen := x.framePend.getD x.framelen, framePend := none, due := x.det }) ∧
    ∀ b, t.bay b = if (s.bay b).live && (s.part (s.bay b).partNo).up &&
      decide ((s.part (s.bay b).partNo).framelen.toNat ≤ (s.part (s.bay b).partNo).sfcClk.toNat + 1) then (s.bay b).event 4 else s.bay b) ∧
  (∀ (s : State) (p : Nat), (s.part p).up = true →
    let x := s.part p
    let u := s.modPart p fun x => { x with due := false }
    (x.due = false → exec (.scheduleFrameOrigin p) s = .next s) ∧
    (∀ e, x.due = true → (∀ e ∈ u.board p, u.allHalted e.1 = false) → schedule x u = [e] → x.period ≠ 0 →
      (x.fnum.toNat % x.period ≠ e.off → exec (.scheduleFrameOrigin p) s = .next u) ∧
      (x.fnum.toNat % x.period = e.off → u.slotJob p e.queue x.fnum.toNat [] = none → ∃ t, exec (.scheduleFrameOrigin p) s = .next t ∧
        SameMemRecs s t [x.evAt] ∧ t.jobs = s.jobs ∧ t.bays = s.bays) ∧
      (∀ n j bs, x.fnum.toNat % x.period = e.off → u.slotJob p e.queue x.fnum.toNat [] = some (n, j) →
        slotBays x j e.group = some bs → j.paired = false → j.latestArea = none → s.job n = j → j.part = p → x.logMode = 0 →
        s.variantCode j = 0 → s.framerUp = true →
        ((∃ b ∈ bs, (s.bay b).shadowFor ≠ some n) → ∃ t, exec (.scheduleFrameOrigin p) s = .next t ∧ SameMemRecs s t [x.evAt] ∧ t.jobs = s.jobs ∧
          t.bays = s.bays) ∧
        (u.bentsFree (bs.map fun b => b / 8) = true → u.lathsFree j = true → (∀ b ∈ bs, (s.bay b).shadowFor = some n ∧ u.drained b = true) → bs.Nodup →
          (∀ k ∈ s.jobLaths j, (s.lathAt k).shadowFor = some n ∧ (s.lathAt k).shv = true ∧ (s.lathAt k).loading = false) → n < 256 →
          ∃ t, exec (.scheduleFrameOrigin p) s = .next t ∧ (t.job n).state = .run ∧ (t.job n).bays = bs ∧
            ∀ b ∈ bs, (t.bay b).slot = some n ∧ (t.bay b).live = true))))

/-- R205, R216, R323, R325, R455, R459: a job whose bays have all halted leaves the scoreboard; a plumb job runs twice and its digests are compared; a
stopped job is saved, the dirty registers and lines from its bays and the rest from the latest image, which stays as it is, with its laths, and its bays
are free.
That an image stands in one of two structured areas of the job, area0 and area1, is log 48; that a plumb job whose run 0 ends with a STATUS other than 0
leaves at once is log 111. -/
def Obligations.JobEnds : Prop :=
  ∀ (s : State) (n : Nat), n < 256 →
    let j := s.job n
    (s.framerUp = true → j.state ≠ .free → j.stopping = false →
      (j.ended = true → ∃ t, exec (.jobCompletion n) s = .next t ∧ Left s t n j.status.toNat j.cause.toNat 0) ∧
      (j.ended = false → s.allHalted n = false → exec (.jobCompletion n) s = .next s) ∧
      (j.ended = false → s.allHalted n = true → j.paired = true → s.pairAgrees n = false → ∃ t, exec (.jobCompletion n) s = .next t ∧
        Discarded s t (· = j.part) 0xC4 ∧ SameMemRing s t) ∧
      (j.ended = false → s.allHalted n = true → (j.paired = false ∨ s.pairAgrees n = true) →
        (j.plumb = false ∨ j.status ≠ 0 → ∃ t, exec (.jobCompletion n) s = .next t ∧ Left s t n j.status.toNat j.cause.toNat 0) ∧
        (j.plumb = true → j.status = 0 → j.run1 = false → j.bays.Nodup → ∃ t, exec (.jobCompletion n) s = .next t ∧ (t.job n).run1 = true ∧
          ((t.job n).d0lo, (t.job n).d0hi) = s.jobDigest n ∧ (t.job n).state = j.state ∧
          ∀ i b, j.bays[i]? = some b → (t.bay b).live = true ∧ (t.bay b).slot = some n ∧ (t.bay b).index = i ∧ (t.bay b).plane = (s.bay b).plane ∧
            ∀ a, inBay b a = true → Memory.read t.mem a = unlisted) ∧
        (j.plumb = true → j.status = 0 → j.run1 = false → s.memOk → (j.shared0.map fun e => e.1).Nodup →
          (∀ e ∈ j.shared0, sillAddr 0 0 ≤ e.1 ∧ e.1 % 32 = 0 ∧ e.2.length = 32) → ∃ t, exec (.jobCompletion n) s = .next t ∧
            (∀ e ∈ j.shared0, t.readBytes e.1 32 = e.2) ∧ (∀ g, Tab.get 256 s.metaJob g = n → Tab.get 0 t.meta_ g = 0) ∧
            ∀ a, sillAddr 0 0 ≤ a → (∀ e ∈ j.shared0, a < e.1 ∨ e.1 + 32 ≤ a) → Memory.read t.mem a = Memory.read s.mem a) ∧
        (j.plumb = true → j.status = 0 → j.run1 = true →
          (s.jobDigest n = (j.d0lo, j.d0hi) → ∃ t, exec (.jobCompletion n) s = .next t ∧ Left s t n 0 0 0) ∧
          (s.jobDigest n ≠ (j.d0lo, j.d0hi) → ∃ t, exec (.jobCompletion n) s = .next t ∧ Discarded s t (· = j.part) 0xC5 ∧ SameMemRing s t)))) ∧
    (s.framerUp = true → j.state = .run → j.stopping = true → j.ended = false → s.jobStopped n = true → s.allHalted n = false → j.twin = none →
      ∃ t, exec (.saveComplete n) s = .next t ∧ (t.job n).state = .saved ∧ (t.job n).ran = j.ran + (s.clock - j.ranFrom) ∧
        (let old := j.latestArea.getD {}
         let dirty := fun a => ∃ b k, lineOf a = some (b, k) ∧ (s.bay b).lineDirty k = true
         (j.latestArea ≠ none → (t.job n).area0 = j.latestArea ∨ (t.job n).area1 = j.latestArea) ∧ ∃ new, (t.job n).latestArea = some new ∧
           new.laths = s.laths.filter (fun e => e.2.slot == some n) ∧
           (∀ i b, j.bays[i]? = some b → new.bays[i]? = some (Bay.saveOver (nth {} old.bays i) (s.bay b))) ∧
           ∀ a v, ((a, v) ∈ new.mem ↔ (dirty a ∧ (a, v) ∈ s.mem ∧ ∃ b ∈ j.bays, inBay b a = true) ∨ (¬ dirty a ∧ (a, v) ∈ old.mem))) ∧ SameMem s t ∧
        (∀ b ∈ j.bays, (t.bay b).slot = none ∧ (t.bay b).live = false) ∧ (∀ b, b ∉ j.bays → t.bay b = s.bay b) ∧
        ((s.part j.part).busy = true → (s.part j.part).cmd = 1 → nth 0 (s.part j.part).ops 0 = j.jobid →
          (t.part j.part).busy = false ∧ (t.part j.part).res = 0))

/-! ### Pages -/

/-- R195, R252, R324, R366, R368: the Framer services, in the order of arrival, a fault from the page's backing copy, or asks the host; a fault that
nothing services by the timeout is delivered; an access that met a migration looks again after 256 clk, goes on or waits at a later entry, and fails
after 16 µs. R366, R369, R370: an eviction or a migration sets MIG in the leaf or the pointer, and once the caches have let go of it moves the page to
its backing copy and clears P and MIG, or copies the page or the node to its new place and clears MIG; an invalidation completes when no posted write
of the partition is under way.
That an eviction or a migration takes two steps is log 46. -/
def Obligations.PagesFaultAndMove : Prop :=
  (∀ (s : State) (p n : Nat) (f : PageFault), (s.part p).faults[n]? = some f →
    let w := s.entryAt (f.slot.getD 512) f.tid f.entry
    let size := pageSize w.1
    let dropped := fun (t : State) => (t.part p).faults = (s.part p).faults.eraseIdx n
    let resumed := fun (t : State) => ∀ g ∈ (t.part p).faults, g.entry = f.entry → g.slot = f.slot → g.tid = f.tid →
      g.mig = true ∨ (s.canResume g = false ∧ g.served = true)
    let held := fun b e => f.who = .stream b e ∧ e ≠ .S ∧ ((s.bay b).stream e).faulting = true
    (s.framerUp = true → f.mig = false → f.served = false → s.canService f = true → s.inTurn f = true →
      (w.1.testBit 0 = true → ∃ t, exec (.pageFaultService p n) s = .next t ∧ resumed t ∧ SameMem s t) ∧
      (w.1.testBit 0 = false → w.1.testBit 6 = true → w.2 % 8 = 4 ∨ w.2 % 8 = 5 → f.entry ≠ 0 → entryApart f.entry (frameOf w.1) size → s.memOk →
        ∃ t, exec (.pageFaultService p n) s = .next t ∧ resumed t ∧ Copied s t (backOf w.2) (frameOf w.1) size ∧ t.rd f.entry 8 = w.1 + 1 ∧
          ∀ a, (a < frameOf w.1 ∨ frameOf w.1 + size ≤ a) → (a < f.entry / 512 * 512 ∨ f.entry / 512 * 512 + 512 ≤ a) →
            Memory.read t.mem a = Memory.read s.mem a) ∧
      (w.1.testBit 0 = false → w.1.testBit 6 = true → w.2 % 8 = 0 → f.asked = false → ∃ t, exec (.pageFaultService p n) s = .next t ∧
        (t.part p).faults = (s.part p).faults.set n { f with asked := true } ∧ t.bays = s.bays ∧ SameMemRecs s t [(s.part p).evAt])) ∧
    (s.inTurn f = false → exec (.pageFaultService p n) s = .next s) ∧
    (s.framerUp = true → f.mig = false → f.served = false → f.who ≠ .none → s.canResume f = true → (∀ b e, ¬ held b e) →
      (f.since + (s.part p).fto ≤ s.clock → ∃ t, exec (.faultTimeout p n) s = .next t ∧ dropped t ∧ Delivered s t f ∧ SameMemRing s t) ∧
      (s.clock < f.since + (s.part p).fto → exec (.faultTimeout p n) s = .next s)) ∧
    (f.mig = true → f.since + 256 ≤ s.clock → w.1.testBit 4 = false → s.canResume f = true → f.who ≠ .none →
      ((∀ k e, s.walkAgain p f ≠ .absent k true e) → ∃ t, exec (.migrationRecheck p n) s = .next t ∧ dropped t ∧ SameMem s t ∧
        (∀ b, f.who = .stream b .S → t.bay b = { s.bay b with seqHalted := false }) ∧ ∀ l, f.who = .lath l → (t.lathAt l).waiting = false) ∧
      (∀ k e, s.walkAgain p f = .absent k true e → ∃ t, exec (.migrationRecheck p n) s = .next t ∧
        (t.part p).faults = (s.part p).faults.set n { f with entry := e } ∧ t = { s with parts := t.parts })) ∧
    (f.mig = true → f.since + 16 * 3200 ≤ s.clock → w.1.testBit 4 = true → s.canResume f = true → f.who ≠ .none → (∀ b e, ¬ held b e) →
      ∃ t, exec (.migrationTimeout p n) s = .next t ∧ dropped t ∧ Delivered s t f ∧ SameMemRing s t)) ∧
  (∀ (s : State) (p tid tile x w0 w1 e : Nat), s.framerUp = true → (s.part p).up = true →
    let k := s.tidSlot p tid
    let tt := tid % 65536
    let leaf := w0.testBit 6
    let busy := ∃ j ∈ s.board p, j.2.state = .run ∨ j.2.state = .load
    let fixed := leaf = true ∧ 2 ≤ w0 / 128 % 4 ∧ busy
    let apart := fun dst n => e / 512 * 512 + 512 ≤ dst ∨ dst + n ≤ e / 512 * 512
    let begins := fun i => w0.testBit 4 = false → ∃ t, exec i s = .next t ∧ t.rd e 8 = w0 + 16 ∧
      (t.part p).inval = (s.part p).inval ++ [(tt, tile % 2 ^ 24, 1)] ∧ (t.part p).moves = (s.part p).moves ++ [⟨e, k, tt, s.clock⟩] ∧
      ∀ a, (a < e / 512 * 512 ∨ e / 512 * 512 + 512 ≤ a) → Memory.read t.mem a = Memory.read s.mem a
    let moves := fun i src dst n v0 v1 => ∃ t, exec i s = .next t ∧ Copied s t src dst n ∧ t.rd e 8 = v0 ∧ (leaf = true → t.rd (e + 8) 8 = v1) ∧
      (t.part p).moves = (s.part p).moves.filter (fun m => !(m.entry == e && m.slot == k && m.tid == tt))
    (s.moveEntry p k tt tile = some (w0, w1, e) → e ≠ 0 → e % 8 = 0 → (leaf = true → e % 16 = 0) →
      (tile < 2 ^ 24 → begins (.pageEviction p tid tile x)) ∧ (¬ fixed → begins (.pageMigration p tid tile x)) ∧
      (w0.testBit 4 = true → w0.testBit 0 = true → s.canMove p k tt e = true → s.memOk →
        let back := if w1 % 8 = 0 then 4 + x % 2 + x / 2 * 65536 else w1
        let size := pageSize w0
        (leaf = true → tile < 2 ^ 24 → apart (backOf back) size → back < 2 ^ 64 →
          moves (.pageEviction p tid tile x) (frameOf w0) (backOf back) size (w0 - 17) back) ∧
        (leaf = true → ¬ fixed → apart (frameOf (movedLeaf w0 x)) size → movedLeaf w0 x < 2 ^ 64 →
          moves (.pageMigration p tid tile x) (frameOf w0) (frameOf (movedLeaf w0 x)) size (movedLeaf w0 x) w1) ∧
        (leaf = false → let node := fun w => spaceBase (w1 % 8) (w / 512 * 512)
          let new := movedNode w0 (tile / 2 ^ 24) x
          apart (node new) (nodeBytes (tile / 2 ^ 24)) → new < 2 ^ 64 →
            moves (.pageMigration p tid tile x) (node w0) (node new) (nodeBytes (tile / 2 ^ 24)) new w1) ∧
        (fixed → ∃ t, exec (.pageMigration p tid tile x) s = .next t ∧ t.rd e 8 = w0 - 16))) ∧
    (s.writesOpen p = false → (s.part p).inval ≠ [] → ∃ t, exec (.invalidationComplete p) s = .next t ∧
      (t.part p).inval = [] ∧ (∀ c ∈ t.caches, c ∈ s.caches ∧ s.cachePart c.1 ≠ p) ∧ SameMem s t ∧
      ((s.part p).invalMail = true → (t.part p).busy = false ∧ (t.part p).res = 0 ∧ (t.part p).msix = (s.part p).msix + 1)))

/-! ### The host and the Foreman -/

/-- R442, R444, R445: a boot whose steps pass ends with RDY, every partition torn down, and nothing of the device's memories kept; one that fails
leaves RDY clear and an ERR, 0x04 where a needed unit has no spare left. A link fault discards the partitions that it serves.
That a boot may fail at a step of the outside's choosing, and what memory reads after it, is log 51. -/
def Obligations.BootRunsOrStops : Prop :=
  ∀ (s : State),
    let f := s.foreman
    let runs := if f.good 0 f.fmNext then f.fmNext else !f.fmNext
    let down := fun (t : State) => (∀ p, (t.part p).up = false) ∧ (∀ n, (t.job n).state = .free) ∧ (∀ c, chainEn (t.chain c) = false) ∧
      (∀ b, (t.bay b).live = false) ∧ t.foreman.slots = f.slots ∧
      ∀ a, Memory.read t.mem a = if hostAddr 0 ≤ a then Memory.read s.mem a else unlisted
    (f.good 0 f.fmNext = true ∨ f.good 0 (!f.fmNext) = true →
      (s.remap.spent = true → ∃ t, exec (.boot true) s = .next t ∧ down t ∧ t.boot = { stage := 3, err := 0x04, rdy := false } ∧ t.foreman.fma = runs) ∧
      (s.remap.spent = false → f.good 1 f.frNext = true → ∃ t, exec (.boot true) s = .next t ∧ down t ∧ t.boot = { stage := 6, err := 0, rdy := true } ∧
        t.foreman.fma = runs ∧ t.foreman.fra = f.frNext ∧ t.foreman.frver = BitVec.ofNat 32 (fwVersion (f.slot 1 f.frNext)) ∧
        f.svnMin 0 ≤ t.foreman.svnMin 0 ∧ fwSvn (f.slot 0 runs) ≤ t.foreman.svnMin 0 ∧
        t.remap.defsig = signatureOf t.remap.lathdef) ∧
      (s.remap.spent = false → f.good 1 f.frNext = false → ∃ t, exec (.boot true) s = .next t ∧ down t ∧
        t.boot = { stage := 4, err := 0x05, rdy := false } ∧ t.foreman.fma = runs) ∧
      ∃ t, exec (.boot false) s = .next t ∧ down t ∧ t.boot.rdy = false ∧ t.boot.err ∈ ([0x03, 0x04, 0x05, 0x06] : List (BitVec 8)) ∧ t.foreman.fma = runs) ∧
    (f.good 0 f.fmNext = false → f.good 0 (!f.fmNext) = false → ∀ ok, ∃ t, exec (.boot ok) s = .next t ∧ down t ∧
      t.boot = { stage := 0, err := 0x01, rdy := false } ∧ t.remap.defsig = 0) ∧
    (∀ p, ∃ t, exec (.linkFatal (some p)) s = .next t ∧ Discarded s t (· = p) 0xC2 ∧ SameMemRing s t) ∧
    (∃ t, exec (.linkFatal none) s = .next t ∧ Discarded s t (· < 8) 0xC2 ∧ SameMemRing s t)

/-- R446, R447, R449, R477: a set-up without a case of R447 brings the partition up with its slices zero, and any other is refused with the lowest code; a
teardown is refused with code 9 while a job or a chain is there, and of a torn-down partition it only sets RCODE; an FLR kills the partition's jobs and
disables its queues.
Of several refusal codes the lowest is given (log 40), and an FLR during an update window waits for its end (log 109). -/
def Obligations.PartitionsStartAndEnd : Prop :=
  ∀ (s : State) (p : Nat), p < 8 →
    let x := s.part p
    let refused := fun (t : State) (c : Word) => t = { s with parts := t.parts } ∧ t.part p = { x with desc := x.desc.set 15 c } ∧ ∀ q, q ≠ p → t.part q = s.part q
    (setupCode p s = 0 → ∃ t, exec (.partitionSetup p) s = .next t ∧ (t.part p).up = true ∧ (t.part p).desc = x.desc.set 15 0 ∧
      (t.part p).queues = [] ∧ (t.part p).history = [] ∧ (t.part p).fnum = 0 ∧ (t.part p).sfcClk = 0 ∧ (t.part p).busy = false ∧
      (t.part p).framelen = (if x.det then BitVec.ofNat 16 x.flen else 16384) ∧ (∀ q, q ≠ p → t.part q = s.part q) ∧
      (∀ a, Memory.read t.mem a = if x.inSill a then unlisted else Memory.read s.mem a) ∧ t.bays = s.bays ∧ t.jobs = s.jobs) ∧
    (∀ c, setupCode p s = c → c ≠ 0 → ∃ t, exec (.partitionSetup p) s = .next t ∧ refused t (word c)) ∧
    (x.up = true → setupCode p s ≠ 0) ∧
    (x.up = false → ∃ t, exec (.partitionTeardown p) s = .next t ∧ refused t 0) ∧
    (x.up = true → s.board p ≠ [] ∨ s.chainOn p = true → ∃ t, exec (.partitionTeardown p) s = .next t ∧ refused t 9) ∧
    (x.up = true → s.board p = [] → s.chainOn p = false → ∃ t, exec (.partitionTeardown p) s = .next t ∧ (t.part p).up = false ∧
      (t.part p).desc = x.desc.set 15 0 ∧ (t.part p).queues = [] ∧ (t.part p).busy = false ∧ (∀ q, q ≠ p → t.part q = s.part q) ∧
      (∀ c, (s.chain c).codePart = some p → (t.chain c).code = []) ∧ SameMem s t ∧ t.jobs = s.jobs ∧ t.bays = s.bays) ∧
    (s.framerUp = false → x.up = true → exec (.flr p) s = .next (s.setPart p { x with flrAsked := true })) ∧
    (s.framerUp = true → x.up = true → ∃ t, exec (.flr p) s = .next t ∧ (∀ q, (t.queue p q).en = false) ∧ (t.part p).up = true ∧
      ∀ n, n < 256 → (s.job n).part = p → ((s.job n).state = .wait ∨ (s.job n).state = .ready → (t.job n).state = .free) ∧
        ((s.job n).holds → (s.job n).ended = false → (t.job n).status = 3 ∧ (t.job n).cause = 0xF1 ∧ (t.job n).ended = true))

/-- R308, R309, R352, R353, R443, R444, R449, R450: the host's registers: a registration takes effect while the queue holds no admitted job; a doorbell
below 2^LOGN sets TAIL; a good chain entry starts its jointers, and a bad one is reported; a CMD write starts a command, and RES is 3 while one runs;
a read gives BOOTSTAT, BUSY and RES, EVTAIL, and of a chain entry its words, or zero to another partition; only the PF answers before RDY.
The model's choices: the write of one word of a queue's descriptor registers the queue (log 52); a CMD write takes its operands then (log 34); an enable
of a chain in an update window is noted with its partition, and its checks are made when the window ends (log 58). -/
def Obligations.HostRegisters : Prop :=
  ∀ (s : State) (p q c : Nat) (lo hi v : Word), (s.part p).up = true →
    let x := s.part p
    let k := s.chain c
    let only := fun (t : State) => t = { s with parts := t.parts } ∧ ∀ r, r ≠ p → t.part r = s.part r
    (q < 64 →
      (s.framerUp = true → s.queueHolds p q = false → ∃ t, exec (.queueRegistration p q lo hi) s = .next t ∧ only t ∧
        t.queue p q = LQueue.register lo (LQueue.accepted lo hi) ∧ ∀ r, r ≠ q → t.queue p r = s.queue p r) ∧
      (s.queueHolds p q = true ∨ s.framerUp = false → ∃ t, exec (.queueRegistration p q lo hi) s = .next t ∧ only t ∧
        t.queue p q = { s.queue p q with next := some (lo, LQueue.accepted lo hi) }) ∧
      (v.toNat < 2 ^ (s.queue p q).logn → ∃ t, exec (.doorbell p q v) s = .next t ∧ only t ∧ t.queue p q = { s.queue p q with tail := v.toNat } ∧
        ∀ r, r ≠ q → t.queue p r = s.queue p r) ∧
      (2 ^ (s.queue p q).logn ≤ v.toNat → exec (.doorbell p q v) s = .next s) ∧
      (p < 8 → exec (.hostRegisterWrite p (0x1000 + 8 * q) v) s = exec (.doorbell p q v) s ∧
        (let d := (s.queue p q).next.getD (s.queue p q).words
         exec (.hostRegisterWrite p (16 * q) lo) s = exec (.queueRegistration p q lo d.2) s ∧
         exec (.hostRegisterWrite p (16 * q + 8) hi) s = exec (.queueRegistration p q d.1 hi) s))) ∧
    (p < 8 → s.hostReg p 0x2020 = some (word ((if x.busy then 1 else 0) + 2 * x.res.toNat)) ∧ s.hostReg p 0x3008 = some (word x.evtail.toNat) ∧
      ∀ i, i < 10 → c < 64 → s.hostReg p (0x4000 + 80 * c + 8 * i) = some (if chainPart k = p then nth 0 k.w i &&& BitVec.ofNat 64 (nth 0 chainShows i) else 0)) ∧
    (∀ off, s.boot.rdy = false → p ≠ 8 → s.hostRead p off = s) ∧
    s.hostReg 8 0 = some (word (s.boot.stage.toNat + 16 * s.boot.err.toNat + (if s.boot.rdy then 4096 else 0) + s.remap.defsig.toNat * 2 ^ 32)) ∧
    (c < 64 → s.framerUp = true → chainEn k = false →
      (chainGood p c s = true → ∃ t, exec (.chainEnable p c) s = .next t ∧ (t.chain c).w = k.w.set 0 (nth 0 k.w 0 ||| 1) ∧
        (t.chain c).inFrame = false ∧ t.rowWord c = 0 ∧ (∀ r, r ≠ c → t.chain r = s.chain r) ∧ SameMem s t ∧
        ∀ i, i < k.d → ∃ e, k.codeAt i = some e ∧ (t.jtr c i).code = e.2.1 ∧ (t.jtr c i).run = true ∧ (t.jtr c i).pc = 0 ∧
          ∀ r, Tab.get 0 (t.jtr c i).s r = if r = 1 then word c else if r = 2 then word i else if r = 3 then word k.d else 0) ∧
      (chainGood p c s = false → ∃ t, exec (.chainEnable p c) s = .next t ∧ t.chain c = { k with wanted := none } ∧
        (∀ r, r ≠ c → t.chain r = s.chain r) ∧ t = { s with chains := t.chains, outbox := (3, [0x86, BitVec.ofNat 8 c]) :: s.outbox })) ∧
    (c < 64 → s.framerUp = false → chainEn k = false → ∃ t, exec (.chainEnable p c) s = .next t ∧ t.chain c = { k with wanted := some p } ∧
      (∀ r, r ≠ c → t.chain r = s.chain r) ∧ t = { s with chains := t.chains }) ∧
    (chainEn k = true → chainPart k = p → ∃ t, exec (.chainDisable p c) s = .next t ∧ chainEn (t.chain c) = false ∧ t = { s with chains := t.chains } ∧
      ∀ r, r ≠ c → t.chain r = s.chain r) ∧
    (p < 8 → let n := bits v 7 0
      (x.busy = true → ∃ t, exec (.hostRegisterWrite p 0x2000 v) s = .next t ∧ only t ∧ t.part p = { x with res := 3 }) ∧
      (x.busy = false → 1 ≤ n ∧ n ≤ 6 → ∃ t, exec (.hostRegisterWrite p 0x2000 v) s = .next t ∧ only t ∧
        t.part p = { x with cmd := BitVec.ofNat 8 n, ops := x.args, busy := true }) ∧
      (x.busy = false → n = 0 ∨ 6 < n → ∃ t, exec (.hostRegisterWrite p 0x2000 v) s = .next t ∧ only t ∧ (t.part p).res = 1 ∧ (t.part p).busy = false ∧
        (t.part p).msix = x.msix + 1) ∧
      (∀ i, i < 16 → exec (.hostRegisterWrite 8 (0x100 + 128 * p + 8 * i) v) s = .next s) ∧
      exec (.hostRegisterWrite 8 (0x1000 + 8 * p) 1) s = exec (.partitionSetup p) s ∧ exec (.hostRegisterWrite 8 (0x1000 + 8 * p) 2) s = exec (.partitionTeardown p) s)

/-- R322, R324, R370, R450: the mailbox commands.
The model's choices: a command's operands are those of its CMD write (log 34), and a partition uses a port that one of its chain entries names, enabled or
not (log 77). -/
def Obligations.MailboxRunsCommands : Prop :=
  ∀ (s : State) (p : Nat), (s.part p).up = true → (s.part p).busy = true → s.framerUp = true →
    let x := s.part p
    let cmd := x.cmd.toNat
    let op := s.op p
    let refused := fun i => ∃ t, exec i s = .next t ∧ CmdEnds s t p 2 ∧ t = { s with parts := t.parts }
    (cmd = 1 → (s.jobNamed p (op 0) = none → refused (.preempt p)) ∧
      ∀ n, s.jobNamed p (op 0) = some n → (s.job n).stopping = false → (s.job n).part = p → (s.job n).twin = none →
        (s.preemptible n = false → refused (.preempt p)) ∧
        (s.preemptible n = true → ∃ t, exec (.preempt p) s = .next t ∧ t.job n = { s.job n with stopping := true } ∧ (t.part p).busy = true ∧
          SameMemRecs s t [x.evAt] ∧ t.bays = s.bays ∧ ∀ m, m ≠ n → t.job m = s.job m)) ∧
    (cmd = 2 → (s.jobNamed p (op 0) = none → refused (.kill p)) ∧
      ∀ n, s.jobNamed p (op 0) = some n → (s.job n).part = p →
        ((s.job n).state = .wait ∨ (s.job n).state = .ready → ∃ t, exec (.kill p) s = .next t ∧ CmdEnds s t p 0 ∧ Left s t n 3 0xF1 0) ∧
        ((s.job n).holds → (s.job n).ended = false → ∃ t, exec (.kill p) s = .next t ∧ CmdEnds s t p 0 ∧ (t.job n).status = 3 ∧ (t.job n).cause = 0xF1 ∧ (t.job n).ended = true ∧
          SameMem s t)) ∧
    (cmd = 3 → ∃ t, exec (.pageResp p) s = .next t ∧ CmdEnds s t p 0 ∧ SameMem s t ∧
      ∀ f ∈ (t.part p).faults, f.asked = true → f.mig = false → f.tid = (op 0).toNat → f.tile = (op 1).toNat → f.served = true ∧ s.canResume f = false) ∧
    (cmd = 4 → x.invalMail = false → ∃ t, exec (.inval p) s = .next t ∧
      t.part p = { x with inval := x.inval ++ [((op 0).toNat, (op 1).toNat, (op 2).toNat)], invalMail := true } ∧ t = { s with parts := t.parts }) ∧
    (cmd = 5 → (23 < (op 0).toNat ∨ s.usesPort p (op 0).toNat = false → refused (.sensor p)) ∧
      ((op 0).toNat ≤ 23 → s.usesPort p (op 0).toNat = true → (s.port (op 0).toNat).uplinkBusy = none → ∃ t, exec (.sensor p) s = .next t ∧
        (t.port (op 0).toNat).uplink = s.readBytes (hostAddr (op 1).toNat + 1) (min (Memory.read s.mem (hostAddr (op 1).toNat)).toNat 62) ∧
        (t.port (op 0).toNat).uplinkBusy = some (p, (op 1).toNat) ∧ (t.part p).busy = true ∧ t = { s with ports := t.ports })) ∧
    (∀ port a reply, cmd = 5 → (s.port port).uplinkBusy = some (p, a) → (s.port port).answered = false → ∃ t, exec (.uplinkReply port reply) s = .next t ∧ CmdEnds s t p 0 ∧
      (∀ i, i < reply.length → i < 64 → Memory.read t.mem (hostAddr a + i) = nth 0 reply i) ∧ (t.port port).uplinkBusy = none ∧
      ∀ y, y < hostAddr a ∨ hostAddr a + 64 ≤ y → Memory.read t.mem y = Memory.read s.mem y) ∧
    (cmd = 6 → let l := s.readBytes (hostAddr (op 1).toNat) (op 2).toNat
      let rs := (chainRecords l (op 0).toNat).map chainRecord
      (63 < (op 0).toNat ∨ chainEn (s.chain (op 0).toNat) = true ∨ imgUnread l = true ∨ imgCrcBad l = true ∨ imgDirBad l = true ∨ rs = [] → refused (.chaincode p)) ∧
      (∀ e, (op 0).toNat ≤ 63 → (op 2).toNat < 2 ^ 32 → chainEn (s.chain (op 0).toNat) = false → imgUnread l = false → imgCrcBad l = false → imgDirBad l = false →
        rs = [some e] → ∃ t, exec (.chaincode p) s = .next t ∧ CmdEnds s t p 0 ∧ SameMem s t ∧
          t.chain (op 0).toNat = { s.chain (op 0).toNat with code := [e], codePart := some p } ∧ ∀ k, k ≠ (op 0).toNat → t.chain k = s.chain k))

/-- R468 to R470, R475: the Foreman's commands: STAGE fills the inactive slot or empties it, ACTIVATE names the boot slot, LOGDESC, LOGREL and TESTINT set a
partition's log, end its freeze and set its test interval, and EVRING places the event ring; operands out of range are refused.
That LOGDESC keeps WPTR and RPTR is log 56, and that STG keeps where STAGE's target is the Foreman's own firmware is log 104. -/
def Obligations.ForemanCommands : Prop :=
  ∀ (s : State), s.foreman.busy = true →
    let f := s.foreman
    let cmd := f.cmd.toNat
    let op := s.fop
    let ends := fun i res (g : Foreman → Foreman → Foreman) => ∃ t, exec i s = .next t ∧ FcmdEnds t res ∧
      t = { s with foreman := t.foreman, parts := t.parts, pfmsix := t.pfmsix } ∧ t.foreman = { g f t.foreman with busy := false, res := res }
    let refused := fun i => ∃ t, exec i s = .next t ∧ FcmdEnds t 2 ∧ t = { s with foreman := { f with busy := false, res := 2 }, pfmsix := 1 :: s.pfmsix }
    let img := s.readBytes (hostAddr (op 1)) (op 2)
    let v := nth 0 f.ops 1
    let part := fun i (x : Part) => ∃ t, exec i s = .next t ∧ FcmdEnds t 0 ∧ t.part (op 0) = x ∧ (∀ p, p ≠ op 0 → t.part p = s.part p) ∧
      t = { s with foreman := { f with busy := false, res := 0 }, parts := t.parts, pfmsix := t.pfmsix }
    (cmd = 1 → (1 < op 0 ∨ 2097152 < op 2 → refused .stage) ∧
      (op 0 ≤ 1 → op 2 ≤ 2097152 →
        (fwGood (op 0) (f.svnMin (op 0)) img = true → ends .stage 0 (fun f z => { f with slots := z.slots, stg := f.stg || op 0 == 1 }) ∧
          ∃ t, exec .stage s = .next t ∧ t.foreman.slot (op 0) (!f.runs (op 0)) = img ∧ t.foreman.slot (op 0) (f.runs (op 0)) = f.slot (op 0) (f.runs (op 0))) ∧
        (fwGood (op 0) (f.svnMin (op 0)) img = false → ends .stage 4 (fun f z => { f with slots := z.slots, stg := f.stg && op 0 == 0 }) ∧
          ∃ t, exec .stage s = .next t ∧ t.foreman.slot (op 0) (!f.runs (op 0)) = []))) ∧
    (cmd = 2 → op 1 ≠ 1 → (1 < op 0 ∨ 1 < op 1 → refused .activate) ∧ (op 0 ≤ 1 → op 1 = 0 →
      ends .activate 0 (fun f _ => if op 0 = 0 then { f with fmNext := !f.fma } else { f with frNext := !f.fra, stg := false }))) ∧
    (cmd = 3 → (7 < op 0 ∨ bit (s.part (op 0)).logw0 3 = true ∨ logBad (s.part (op 0)) v = true → refused .logdesc) ∧
      (op 0 ≤ 7 → bit (s.part (op 0)).logw0 3 = false → logBad (s.part (op 0)) v = false → part .logdesc ((s.part (op 0)).setLog v))) ∧
    (cmd = 4 → (7 < op 0 → refused .logrel) ∧ (op 0 ≤ 7 → ∀ n, (s.part (op 0)).frozen = some n → ∃ t, exec .logrel s = .next t ∧ FcmdEnds t 0 ∧
      (t.part (op 0)).frozen = none ∧ bit (t.part (op 0)).logw0 3 = false ∧ SameMem s t ∧
      ∀ b l, (s.job n).bays = b :: l → (s.bay b).slot = some n → (s.bay b).live = true → (∃ x ∈ (t.bay b).pend, x.rc.cause = 0x63) ∧
        ∀ c, c ≠ b → t.bay c = s.bay c)) ∧
    (cmd = 5 → (7 < op 0 ∨ op 1 = 0 ∨ 3600 < op 1 → refused .testint) ∧
      (op 0 ≤ 7 → op 1 ≠ 0 → op 1 ≤ 3600 → part .testint { s.part (op 0) with testint := op 1 })) ∧
    (cmd = 6 → (op 0 % 4096 ≠ 0 ∨ op 1 < 4 ∨ 12 < op 1 → refused .evring) ∧
      (op 0 % 4096 = 0 → 4 ≤ op 1 → op 1 ≤ 12 → ends .evring 0 (fun f _ => { f with evbase := word (op 0), evlog := op 1, evhead := 0, evtail := 0 })))

/-- R471 to R473: a live update opens a window, in which the Framer only finishes its flips, and starts the staged image once they are finished; that
image's first heartbeat commits the update, 50 ms without one roll it back, and 10 ms without a heartbeat outside a window are logged.
Which of the update's first three steps fall together is log 58, and that a function reset waits for the end of the window is log 109. -/
def Obligations.LiveUpdate : Prop :=
  ∀ (s : State),
    let f := s.foreman
    let now := s.clk.time
    let img := f.slot 1 (!f.fra)
    let opened := { f with hov := true, handover := some s.clock }
    let started := fun (f : Foreman) => { f with started := true, step3At := now, hbcnt := 0, quietTold := false }
    (f.busy = true → f.cmd = 2 → s.fop 1 = 1 → f.hov = true → f.started = false → exec .activateLive s =
      .next (if s.quiet_ then { s with foreman := started f } else s)) ∧
    (f.busy = true → f.cmd = 2 → s.fop 1 = 1 → f.hov = false → f.started = false →
      (s.fop 0 ≠ 1 ∨ f.stg = false ∨ s.partsWith Part.det ≠ [] → ∃ t, exec .activateLive s = .next t ∧ FcmdEnds t 2 ∧ t.foreman.hov = false) ∧
      (s.fop 0 = 1 → f.stg = true → s.partsWith Part.det = [] →
        ((fwHver (f.slot 1 f.fra) < fwHvMin img ∨ fwHvMax img < fwHver (f.slot 1 f.fra)) → ∃ t, exec .activateLive s = .next t ∧ FcmdEnds t 4 ∧
          t.foreman.hov = false) ∧
        (fwHvMin img ≤ fwHver (f.slot 1 f.fra) → fwHver (f.slot 1 f.fra) ≤ fwHvMax img → ∃ t, exec .activateLive s = .next t ∧
          t = { s with foreman := if s.quiet_ then started opened else opened } ∧ t.framerUp = false))) ∧
    (s.boot.rdy = true → f.started = false → exec .framerHeartbeat s =
      .next { s with foreman := { f with hbcnt := f.hbcnt + 1, lastBeat := now, quietTold := false } }) ∧
    (s.boot.rdy = true → f.started = true → f.handover ≠ none → now.toNat ≤ f.step3At.toNat + 50000000 → (∃ t, exec .framerHeartbeat s = .next t ∧ FcmdEnds t 0 ∧ t.framerUp = true ∧
      t.foreman.fra = !f.fra ∧ t.foreman.frver = BitVec.ofNat 32 (fwVersion img) ∧ fwSvn img ≤ t.foreman.svnMin 1 ∧ t.foreman.hbcnt = f.hbcnt + 1 ∧
      t.foreman.stg = false ∧ ((∀ e ∈ s.parts, e.2.flrAsked = false) → SameMemRing s t ∧ t.bays = s.bays)) ∧
      ∀ p, (s.part p).up = true → (s.part p).flrAsked = true → ∃ t, exec .framerHeartbeat s = .next t ∧ (∀ q, (t.queue p q).en = false) ∧
        (t.part p).flrAsked = false) ∧
    (∀ i, i = .updateRollback ∨ i = .framerHeartbeat ∧ s.boot.rdy = true → f.started = true → f.handover ≠ none →
      f.step3At.toNat + 50000000 < now.toNat → ∃ t, exec i s = .next t ∧ FcmdEnds t 5 ∧ t.foreman.hov = false ∧ t.foreman.started = false ∧ t.foreman.fra = f.fra ∧ t.foreman.frver = f.frver ∧
      ((∀ e ∈ s.parts, e.2.flrAsked = false) → SameMemRing s t ∧ t.bays = s.bays)) ∧
    (s.boot.rdy = true → f.hov = false → f.quietTold = false → f.hbcnt ≠ 0 → f.lastBeat.toNat + 10000000 < now.toNat →
      ∃ t, exec .framerSilent s = .next t ∧ t.foreman.quietTold = true ∧ FmLogged s t ∧ t.bays = s.bays ∧ t.jobs = s.jobs)

/-- R464, R465, R474: every 0.1 ms the Foreman samples its 34 sensors and gives each a status from its limits; a trip is logged and discards the partitions
that it serves, and those admit no job until the condition has cleared. The readings are free (log 57), and which partitions a rail or a clock serves is log 54. -/
def Obligations.SensorTripsDiscardWork : Prop :=
  ∀ (s : State) (i p : Nat),
    let trips := fun (j : Instr) (cause : BitVec 8) (ps : Nat → Prop) => ∃ t, exec j s = .next t ∧ Discarded s t ps cause ∧ SameMemRing s t ∧
      i ∈ t.foreman.tripped ∧ (∀ q ∈ s.parts, ps q.1 → (t.part q.1).blocked = true) ∧
      ∀ q, ¬ ps q → t.part q = { s.part q with faults := (t.part q).faults }
    (s.boot.stage ≠ 0 → s.foreman.lastSample.toNat + 100000 ≤ s.clk.time.toNat → ∃ t, exec .sensorSample s = .next t ∧
      t.foreman.lastSample = s.clk.time ∧ SameMemRing s t ∧ t.bays = s.bays ∧ t.parts = s.parts ∧
      ∀ k, k < 34 → ∃ v : Int, -32768 ≤ v ∧ v < 32768 ∧ (Tab.get 0 t.foreman.sens k).toNat = (BitVec.ofInt 16 v).toNat +
        65536 * sensorStatus k (s.foreman.tripped.contains k) v) ∧
    (i < 24 → trips (.thermalTrip i) 0xC8 (· < 8)) ∧
    (24 ≤ i → i < 30 → trips (.voltageMonitor i) 0xC7 (· ∈ s.dieParts i)) ∧
    (30 ≤ i → i < 33 → trips (.clockMonitor i) 0xC6 (· < 8)) ∧
    ((s.part p).blocked = true → ∃ t, exec (.conditionCleared p) s = .next t ∧ t.part p = { s.part p with blocked := false } ∧ FmLogged s t ∧
      t.jobs = s.jobs ∧ t.bays = s.bays)

/-- R327, R372, R373: a spare is brought in at an idle point of its unit and the remap tables name it; without one the partitions that use the unit are
discarded with SPARE_EXHAUSTED.
The model's choices: which spare slice and which spare jointer is taken (log 53); the slice map changes when the copy is complete (log 35); what the
operands of a spare insertion name (log 37). -/
def Obligations.SparesReplaceFailedUnits : Prop :=
  ∀ (s : State) (o n : Nat), s.boot.rdy = true →
    let r := s.remap
    let skips := fun u o bent (get : State → List (BitVec 11)) => BitVec.ofNat 11 n ∉ get s →
      (0x7FF ∉ get s → ∃ t, exec (.spareInsertion u o n) s = .next t ∧ bent ∈ t.remap.lost ∧ t.remap.spent = true ∧ Discarded s t (· ∈ s.bentParts bent) 0xC9) ∧
      (0x7FF ∈ get s → s.bentIdle bent = true → ∃ t, exec (.spareInsertion u o n) s = .next t ∧ get t = skipPut (get s) n ∧ FmLogged s t ∧
        t.bays = s.bays ∧ t.jobs = s.jobs ∧ t.parts = s.parts) ∧
      (0x7FF ∈ get s → s.bentIdle bent = false → exec (.spareInsertion u o n) s = .next s)
    (o < 8 → n < 9 → skips .bay o o fun t => bayPlaces (Tab.get 0xF t.remap.bayskip o)) ∧
    (o < 64 → n < 104 → skips .bank o (o / 8) fun t => (skipList t.remap.bankskip o).toList) ∧
    (o < 8 → n < 272 → skips .column o o fun t => (skipList t.remap.colskip o).toList) ∧
    (o < 8 → n < 1056 → skips .planeRow o o fun t => (skipList t.remap.rowskip o).toList) ∧
    (n < 104 → r.lathdef.getLsbD n = false → (s.lathAt n).slot = none →
      ((List.range 104).countP fun i => r.lathdef.getLsbD i && lathCode i == lathCode n) < lathSpares (lathCode n) →
      ∃ t, exec (.spareInsertion .lath o n) s = .next t ∧ t.remap.lathdef = r.lathdef ||| BitVec.ofNat 104 (2 ^ n) ∧
        t.remap.defsig = signatureOf t.remap.lathdef ∧ SameMemRing s t ∧ t.bays = s.bays ∧ t.jobs = s.jobs) ∧
    (n < 96 → s.jointerIdle n = true →
      let free := fun k => (∀ m, m < 96 → s.jointerOf m ≠ k) ∧ (1, k) ∉ r.retired
      (∃ k, k < 104 ∧ free k) → ∃ t, exec (.spareInsertion .jointer o n) s = .next t ∧ free (t.jointerOf n) ∧
        (∀ k, k < t.jointerOf n → ¬ free k) ∧ (∀ m, m ≠ n → t.jointerOf m = s.jointerOf m) ∧ FmLogged s t ∧ t.bays = s.bays) ∧
    (n < 32 → let p := spareSlice n
      (∀ m, m < 32 → s.sliceOf m ≠ p) → (0, p) ∉ r.retired → (∀ e ∈ r.copying, e.1 ≠ n ∧ e.2 ≠ p) →
        exec (.spareInsertion .slice o n) s = .next { s with remap := { r with copying := (n, p) :: r.copying } }) ∧
    (∀ p, p < 64 → r.copying.find? (fun e => e.1 = n) = some (n, p) → ∃ t, exec (.sliceCopyComplete n) s = .next t ∧ t.sliceOf n = p ∧
      t.remap.copying = r.copying.filter (fun e => e.1 != n) ∧ (∀ m, m ≠ n → t.sliceOf m = s.sliceOf m) ∧ FmLogged s t ∧ t.bays = s.bays)

/-- R455, R456, R463 to R467: twins that issue the same merged operation go on, and twins that differ, or where one waits 100 µs, discard their
partition; a replay that cannot follow its log for 1 ms freezes; a self-test is noted, and a failed test of a checking path raises its class fault, or
stops the boot; a unit that has been in use without a test for its interval is reported.
Which self-tests are boot-time tests is log 55. -/
def Obligations.ChecksDiscardFaultyWork : Prop :=
  ∀ (s : State) (n p u : Nat) (k : SelfTest),
    let j := s.job n
    let both := fun (x : Nat × Nat) => (s.bay x.1).posted = true ∧ (s.bay x.2).posted = true
    let lost := fun i (t : State) => exec i s = .next t ∧ Discarded s t (· = j.part) 0xC4 ∧ SameMemRing s t
    let late := fun (x : Nat × Nat) => (s.bay x.1).waitsTwin (s.bay x.2) s.clock s.clk.time.toNat = true ∨
      (s.bay x.2).waitsTwin (s.bay x.1) s.clock s.clk.time.toNat = true
    (n < 256 → j.state = .run → j.paired = true → ((s.pairs n).flatMap fun x => [x.1, x.2]).Nodup →
      ((∀ x ∈ s.pairs n, both x → (s.bay x.1).merge = (s.bay x.2).merge) → ∃ t, exec (.pairMerge n) s = .next t ∧ t = { s with bays := t.bays } ∧
        (∀ x ∈ s.pairs n, both x → t.bay x.1 = { s.bay x.1 with mergeDone := true } ∧ t.bay x.2 = { s.bay x.2 with mergeDone := true }) ∧
        ∀ x ∈ s.pairs n, ¬ both x → t.bay x.1 = s.bay x.1 ∧ t.bay x.2 = s.bay x.2) ∧
      ((∃ x ∈ s.pairs n, both x ∧ (s.bay x.1).merge ≠ (s.bay x.2).merge) → ∃ t, lost (.pairMerge n) t)) ∧
    (n < 256 → j.state = .run → j.ended = false →
      let halts := j.twin ≠ none ∧ (s.haltWaits n (n + 1024) = true ∨ s.haltWaits (n + 1024) n = true)
      ((∃ x ∈ s.pairs n, late x) ∨ halts → ∃ t, lost (.pairTwinTimeout n) t) ∧
      ((∀ x ∈ s.pairs n, ¬ late x) → ¬ halts → exec (.pairTwinTimeout n) s = .next s)) ∧
    ((s.part p).logMode = 2 → (∃ e ∈ (s.part p).stuck, e.2.2.2.toNat + 1000000 ≤ s.clk.time.toNat) → ∃ t, exec (.replayTimeout p) s = .next t ∧
      t.isFrozen p = true ∧ bit (t.part p).logw0 3 = true ∧ t = { s with parts := t.parts } ∧ ∀ q, q ≠ p → t.part q = s.part q) ∧
    (s.boot.rdy = true → s.testable k u = true →
      (∃ t, exec (.selfTest k u true) s = .next t ∧ t = { s with remap := t.remap } ∧ t.lastTest k u = s.clk.time.toNat) ∧
      (∀ c, s.atBoot = false → (k, c) ∈ ([(.comparator, 0xC4), (.eccSram, 0xC0), (.eccDram, 0xC1)] : List (SelfTest × BitVec 8)) → ∃ t, exec (.selfTest k u false) s = .next t ∧
        Discarded s t (· < 8) c ∧ SameMemRing s t) ∧
      (s.atBoot = true → spareless k = true → ∃ t, exec (.selfTest k u false) s = .next t ∧ t.boot = { stage := 4, err := 0x06, rdy := false })) ∧
    (s.testable k u = false → exec (.selfTest k u true) s = .next s) ∧
    (s.boot.rdy = true → s.testable k u = false → (∃ q ∈ s.testParts k u, max (s.lastTest k u) (Tab.get 0 s.remap.idleAt (idleKey k u)).toNat + (s.part q).testint * 1000000000 ≤ s.clk.time.toNat) →
      ∃ t, exec (.unitNotTested k u) s = .next t ∧ FmLogged s t ∧ t.lastTest k u = s.clk.time.toNat ∧ t.bays = s.bays ∧ t.jobs = s.jobs)

/-- R442, R476: once the Foreman runs, each request of the Data Object Exchange has one answer, which names what R476 measures or certifies. Its
fixed parts are those of the SPDM specification, which the spec does not give (log 47). -/
def Obligations.AttestationAnswersMeasure : Prop :=
  ∀ (s : State) (off len nonce : Nat), s.boot.stage ≠ 0 →
    let f := s.foreman
    let replies := fun i n ops body => exec i s = .next { s with outbox := (5, Config.spdmHead n ops ++ body ++ Config.spdmTail n ops) :: s.outbox }
    replies .doeDiscovery 0 [] [] ∧ replies .getVersion 1 [] [0x12, 0x13] ∧ replies .getCapabilities 2 [] [] ∧ replies .negotiateAlgorithms 3 [] spdmAlgorithms ∧
    replies .getDigests 4 [] (sha384 Config.certChain) ∧ replies (.getCertificate off len) 5 [off, len] ((Config.certChain.drop off).take len) ∧
    replies (.challenge nonce) 6 [nonce] (sha384 Config.certChain) ∧
    (∀ i m, (i, m) ∈ [(1, sha384 Config.rom), (2, sha384 (f.slot 0 f.fma)), (3, sha384 (f.slot 1 f.fra)),
      (4, if f.stg then sha384 (f.slot 1 (!f.fra)) else List.replicate 48 0), (5, sha384 s.remap.image)] →
      replies (.getMeasurements i nonce) 7 [i, nonce] m)
end

