-- ==== Sys2Proof/Laws/State.lean ====
section
/-! SUPPORT. Reading a table after a write, and each field of the state after each update. -/

namespace Sys2Proof.Machine

/-! ### Tables -/

theorem Tab.get_erase_same {α : Type} (d : α) (k : Nat) : ∀ l : Tab α, Tab.get d (Tab.erase k l) k = d
  | [] => rfl
  | (k', v) :: t => by
    by_cases h : k = k'
    · simpa [Tab.erase, h] using h ▸ Tab.get_erase_same d k t
    · simpa [Tab.erase, Tab.get, h] using Tab.get_erase_same d k t

theorem Tab.get_erase_ne {α : Type} (d : α) {k j : Nat} (h : j ≠ k) : ∀ l : Tab α, Tab.get d (Tab.erase k l) j = Tab.get d l j
  | [] => rfl
  | (k', v) :: t => by
    by_cases e : k = k'
    · subst e
      simpa [Tab.erase, Tab.get, h] using Tab.get_erase_ne d h t
    · by_cases f : j = k'
      · simp [Tab.erase, Tab.get, e, f]
      · simpa [Tab.erase, Tab.get, e, f] using Tab.get_erase_ne d h t

theorem Tab.get_insert_ne {α : Type} (d : α) {k j : Nat} (v : α) (h : j ≠ k) :
    ∀ l : Tab α, Tab.get d (Tab.insert k v l) j = Tab.get d l j
  | [] => by simp [Tab.insert, Tab.get, h]
  | (k', v') :: t => by
    by_cases e : k < k'
    · simp [Tab.insert, Tab.get, e, h]
    · by_cases f : j = k'
      · simp [Tab.insert, Tab.get, e, f]
      · simpa [Tab.insert, Tab.get, e, f] using Tab.get_insert_ne d v h t

theorem Tab.get_insert_erase {α : Type} (d : α) (k : Nat) (v : α) : ∀ l : Tab α, Tab.get d (Tab.insert k v (Tab.erase k l)) k = v
  | [] => by simp [Tab.erase, Tab.insert, Tab.get]
  | (k', v') :: t => by
    by_cases e : k = k'
    · simpa [Tab.erase, e] using e ▸ Tab.get_insert_erase d k v t
    · by_cases f : k < k'
      · simp [Tab.erase, Tab.insert, Tab.get, e, f]
      · simpa [Tab.erase, Tab.insert, Tab.get, e, f] using Tab.get_insert_erase d k v t

@[simp] theorem Tab.get_put_same {α : Type} (d : α) (l : Tab α) (k : Nat) (v : α) : Tab.get d (Tab.put l k v) k = v :=
  Tab.get_insert_erase d k v l

theorem Tab.get_put_ne {α : Type} (d : α) (l : Tab α) {k j : Nat} (v : α) (h : j ≠ k) : Tab.get d (Tab.put l k v) j = Tab.get d l j := by
  rw [Tab.put, Tab.get_insert_ne d v h, Tab.get_erase_ne d h]

theorem Tab.get_put {α : Type} (d : α) (l : Tab α) (k j : Nat) (v : α) : Tab.get d (Tab.put l k v) j = if j = k then v else Tab.get d l j := by
  by_cases h : j = k
  · simp [h]
  · simp [h, Tab.get_put_ne d l v h]

/-- Reading after a write to one key. -/
theorem Tab.get_set {α : Type} [DecidableEq α] (d : α) (l : Tab α) (k j : Nat) (v : α) :
    Tab.get d (Tab.set d l k v) j = if j = k then v else Tab.get d l j := by
  unfold Tab.set
  by_cases hv : v = d
  · by_cases h : j = k
    · simp [hv, h, Tab.get_erase_same]
    · simp [hv, h, Tab.get_erase_ne d h]
  · simp [hv, Tab.get_put]

@[simp] theorem Tab.get_set_same {α : Type} [DecidableEq α] (d : α) (l : Tab α) (k : Nat) (v : α) : Tab.get d (Tab.set d l k v) k = v := by
  simp [Tab.get_set]

theorem Tab.erase_not {α : Type} {k : Nat} : ∀ {l : Tab α}, (∀ x ∈ l, x.1 ≠ k) → Tab.erase k l = l
  | [], _ => rfl
  | (k', v) :: t, h => by
    have h1 : k ≠ k' := fun e => h (k', v) (List.mem_cons_self ..) e.symm
    simp only [Tab.erase, if_neg h1, Tab.erase_not fun x hx => h x (List.mem_cons_of_mem _ hx)]

theorem Tab.erase_keys {α : Type} {k : Nat} : ∀ {l : Tab α}, ∀ x ∈ Tab.erase k l, x.1 ≠ k
  | [], x, h => by simp [Tab.erase] at h
  | (k', v) :: t, x, h => by
    by_cases e : k = k'
    · exact Tab.erase_keys (l := t) x (by simpa [Tab.erase, e] using h)
    · simp only [Tab.erase, if_neg e, List.mem_cons] at h
      rcases h with rfl | h
      · exact fun q => e q.symm
      · exact Tab.erase_keys (l := t) x h

theorem Tab.erase_insert {α : Type} {k : Nat} (v : α) : ∀ {l : Tab α}, (∀ x ∈ l, x.1 ≠ k) → Tab.erase k (Tab.insert k v l) = l
  | [], _ => by simp [Tab.insert, Tab.erase]
  | (k', v') :: t, h => by
    have h1 : k ≠ k' := fun e => h (k', v') (List.mem_cons_self ..) e.symm
    have h2 : ∀ x ∈ t, x.1 ≠ k := fun x hx => h x (List.mem_cons_of_mem _ hx)
    by_cases e : k < k'
    · simp only [Tab.insert, if_pos e, Tab.erase, if_true, if_neg h1, Tab.erase_not h2]
    · simp only [Tab.insert, if_neg e, Tab.erase, if_neg h1, Tab.erase_insert v h2]

/-- The second of two writes to one key stands. -/
theorem Tab.put_put {α : Type} (l : Tab α) (k : Nat) (v u : α) : Tab.put (Tab.put l k v) k u = Tab.put l k u := by
  simp only [Tab.put, Tab.erase_insert v Tab.erase_keys]

/-! ### Updates of the state -/

@[simp] theorem State.setBay_agenda (s : State) (b : Nat) (x : Bay) : (s.setBay b x).agenda = s.agenda := rfl
@[simp] theorem State.setBay_cur (s : State) (b : Nat) (x : Bay) : (s.setBay b x).cur = s.cur := rfl
@[simp] theorem State.setBay_tick (s : State) (b : Nat) (x : Bay) : (s.setBay b x).tick = s.tick := rfl
@[simp] theorem State.setBay_clock (s : State) (b : Nat) (x : Bay) : (s.setBay b x).clock = s.clock := rfl
@[simp] theorem State.setBay_bents (s : State) (b : Nat) (x : Bay) : (s.setBay b x).bents = s.bents := rfl
@[simp] theorem State.setBay_mem (s : State) (b : Nat) (x : Bay) : (s.setBay b x).mem = s.mem := rfl
@[simp] theorem State.setBay_tags (s : State) (b : Nat) (x : Bay) : (s.setBay b x).tags = s.tags := rfl
@[simp] theorem State.setBay_meta (s : State) (b : Nat) (x : Bay) : (s.setBay b x).meta_ = s.meta_ := rfl
@[simp] theorem State.setBay_metaJob (s : State) (b : Nat) (x : Bay) : (s.setBay b x).metaJob = s.metaJob := rfl
@[simp] theorem State.setBay_caches (s : State) (b : Nat) (x : Bay) : (s.setBay b x).caches = s.caches := rfl
@[simp] theorem State.setBay_jointers (s : State) (b : Nat) (x : Bay) : (s.setBay b x).jointers = s.jointers := rfl
@[simp] theorem State.setBay_chains (s : State) (b : Nat) (x : Bay) : (s.setBay b x).chains = s.chains := rfl
@[simp] theorem State.setBay_ports (s : State) (b : Nat) (x : Bay) : (s.setBay b x).ports = s.ports := rfl
@[simp] theorem State.setBay_rowcnt (s : State) (b : Nat) (x : Bay) : (s.setBay b x).rowcnt = s.rowcnt := rfl
@[simp] theorem State.setBay_holds (s : State) (b : Nat) (x : Bay) : (s.setBay b x).holds = s.holds := rfl
@[simp] theorem State.setBay_groups (s : State) (b : Nat) (x : Bay) : (s.setBay b x).groups = s.groups := rfl
@[simp] theorem State.setBay_laths (s : State) (b : Nat) (x : Bay) : (s.setBay b x).laths = s.laths := rfl
@[simp] theorem State.setBay_tables (s : State) (b : Nat) (x : Bay) : (s.setBay b x).tables = s.tables := rfl
@[simp] theorem State.setBay_families (s : State) (b : Nat) (x : Bay) : (s.setBay b x).families = s.families := rfl
@[simp] theorem State.setBay_heldBuckets (s : State) (b : Nat) (x : Bay) : (s.setBay b x).heldBuckets = s.heldBuckets := rfl
@[simp] theorem State.setBay_parts (s : State) (b : Nat) (x : Bay) : (s.setBay b x).parts = s.parts := rfl
@[simp] theorem State.setBay_jobs (s : State) (b : Nat) (x : Bay) : (s.setBay b x).jobs = s.jobs := rfl
@[simp] theorem State.setBay_jobClock (s : State) (b : Nat) (x : Bay) : (s.setBay b x).jobClock = s.jobClock := rfl
@[simp] theorem State.setBay_faultClock (s : State) (b : Nat) (x : Bay) : (s.setBay b x).faultClock = s.faultClock := rfl
@[simp] theorem State.setBay_clk (s : State) (b : Nat) (x : Bay) : (s.setBay b x).clk = s.clk := rfl
@[simp] theorem State.setBay_remap (s : State) (b : Nat) (x : Bay) : (s.setBay b x).remap = s.remap := rfl
@[simp] theorem State.setBay_boot (s : State) (b : Nat) (x : Bay) : (s.setBay b x).boot = s.boot := rfl
@[simp] theorem State.setBay_foreman (s : State) (b : Nat) (x : Bay) : (s.setBay b x).foreman = s.foreman := rfl
@[simp] theorem State.setBay_homes (s : State) (b : Nat) (x : Bay) : (s.setBay b x).homes = s.homes := rfl
@[simp] theorem State.setBay_pfmsix (s : State) (b : Nat) (x : Bay) : (s.setBay b x).pfmsix = s.pfmsix := rfl
@[simp] theorem State.setBay_outbox (s : State) (b : Nat) (x : Bay) : (s.setBay b x).outbox = s.outbox := rfl
@[simp] theorem State.setBay_bay_same (s : State) (b : Nat) (x : Bay) : (s.setBay b x).bay b = x := Tab.get_put_same _ _ _ _
theorem State.setBay_bay (s : State) (b : Nat) (x : Bay) (c : Nat) : (s.setBay b x).bay c = if c = b then x else s.bay c := Tab.get_put _ _ _ _ _
@[simp] theorem State.setBay_bent (s : State) (b : Nat) (x : Bay) (c : Nat) : (s.setBay b x).bent c = s.bent c := rfl
@[simp] theorem State.setBay_part (s : State) (b : Nat) (x : Bay) (c : Nat) : (s.setBay b x).part c = s.part c := rfl
@[simp] theorem State.setBay_job (s : State) (b : Nat) (x : Bay) (c : Nat) : (s.setBay b x).job c = s.job c := rfl
@[simp] theorem State.setBay_lathAt (s : State) (b : Nat) (x : Bay) (c : Nat) : (s.setBay b x).lathAt c = s.lathAt c := rfl
@[simp] theorem State.setBay_chain (s : State) (b : Nat) (x : Bay) (c : Nat) : (s.setBay b x).chain c = s.chain c := rfl
@[simp] theorem State.setBay_group (s : State) (b : Nat) (x : Bay) (c : Nat) : (s.setBay b x).group c = s.group c := rfl
@[simp] theorem State.setBay_port (s : State) (b : Nat) (x : Bay) (c : Nat) : (s.setBay b x).port c = s.port c := rfl
@[simp] theorem State.setBay_jtr (s : State) (b : Nat) (x : Bay) (c p : Nat) : (s.setBay b x).jtr c p = s.jtr c p := rfl

@[simp] theorem State.setBent_agenda (s : State) (b : Nat) (x : Bent) : (s.setBent b x).agenda = s.agenda := rfl
@[simp] theorem State.setBent_cur (s : State) (b : Nat) (x : Bent) : (s.setBent b x).cur = s.cur := rfl
@[simp] theorem State.setBent_tick (s : State) (b : Nat) (x : Bent) : (s.setBent b x).tick = s.tick := rfl
@[simp] theorem State.setBent_clock (s : State) (b : Nat) (x : Bent) : (s.setBent b x).clock = s.clock := rfl
@[simp] theorem State.setBent_bays (s : State) (b : Nat) (x : Bent) : (s.setBent b x).bays = s.bays := rfl
@[simp] theorem State.setBent_mem (s : State) (b : Nat) (x : Bent) : (s.setBent b x).mem = s.mem := rfl
@[simp] theorem State.setBent_tags (s : State) (b : Nat) (x : Bent) : (s.setBent b x).tags = s.tags := rfl
@[simp] theorem State.setBent_meta (s : State) (b : Nat) (x : Bent) : (s.setBent b x).meta_ = s.meta_ := rfl
@[simp] theorem State.setBent_metaJob (s : State) (b : Nat) (x : Bent) : (s.setBent b x).metaJob = s.metaJob := rfl
@[simp] theorem State.setBent_caches (s : State) (b : Nat) (x : Bent) : (s.setBent b x).caches = s.caches := rfl
@[simp] theorem State.setBent_jointers (s : State) (b : Nat) (x : Bent) : (s.setBent b x).jointers = s.jointers := rfl
@[simp] theorem State.setBent_chains (s : State) (b : Nat) (x : Bent) : (s.setBent b x).chains = s.chains := rfl
@[simp] theorem State.setBent_ports (s : State) (b : Nat) (x : Bent) : (s.setBent b x).ports = s.ports := rfl
@[simp] theorem State.setBent_rowcnt (s : State) (b : Nat) (x : Bent) : (s.setBent b x).rowcnt = s.rowcnt := rfl
@[simp] theorem State.setBent_holds (s : State) (b : Nat) (x : Bent) : (s.setBent b x).holds = s.holds := rfl
@[simp] theorem State.setBent_groups (s : State) (b : Nat) (x : Bent) : (s.setBent b x).groups = s.groups := rfl
@[simp] theorem State.setBent_laths (s : State) (b : Nat) (x : Bent) : (s.setBent b x).laths = s.laths := rfl
@[simp] theorem State.setBent_tables (s : State) (b : Nat) (x : Bent) : (s.setBent b x).tables = s.tables := rfl
@[simp] theorem State.setBent_families (s : State) (b : Nat) (x : Bent) : (s.setBent b x).families = s.families := rfl
@[simp] theorem State.setBent_heldBuckets (s : State) (b : Nat) (x : Bent) : (s.setBent b x).heldBuckets = s.heldBuckets := rfl
@[simp] theorem State.setBent_parts (s : State) (b : Nat) (x : Bent) : (s.setBent b x).parts = s.parts := rfl
@[simp] theorem State.setBent_jobs (s : State) (b : Nat) (x : Bent) : (s.setBent b x).jobs = s.jobs := rfl
@[simp] theorem State.setBent_jobClock (s : State) (b : Nat) (x : Bent) : (s.setBent b x).jobClock = s.jobClock := rfl
@[simp] theorem State.setBent_faultClock (s : State) (b : Nat) (x : Bent) : (s.setBent b x).faultClock = s.faultClock := rfl
@[simp] theorem State.setBent_clk (s : State) (b : Nat) (x : Bent) : (s.setBent b x).clk = s.clk := rfl
@[simp] theorem State.setBent_remap (s : State) (b : Nat) (x : Bent) : (s.setBent b x).remap = s.remap := rfl
@[simp] theorem State.setBent_boot (s : State) (b : Nat) (x : Bent) : (s.setBent b x).boot = s.boot := rfl
@[simp] theorem State.setBent_foreman (s : State) (b : Nat) (x : Bent) : (s.setBent b x).foreman = s.foreman := rfl
@[simp] theorem State.setBent_homes (s : State) (b : Nat) (x : Bent) : (s.setBent b x).homes = s.homes := rfl
@[simp] theorem State.setBent_pfmsix (s : State) (b : Nat) (x : Bent) : (s.setBent b x).pfmsix = s.pfmsix := rfl
@[simp] theorem State.setBent_outbox (s : State) (b : Nat) (x : Bent) : (s.setBent b x).outbox = s.outbox := rfl
@[simp] theorem State.setBent_bent_same (s : State) (b : Nat) (x : Bent) : (s.setBent b x).bent b = x := Tab.get_put_same _ _ _ _
theorem State.setBent_bent (s : State) (b : Nat) (x : Bent) (c : Nat) : (s.setBent b x).bent c = if c = b then x else s.bent c := Tab.get_put _ _ _ _ _
@[simp] theorem State.setBent_bay (s : State) (b : Nat) (x : Bent) (c : Nat) : (s.setBent b x).bay c = s.bay c := rfl
@[simp] theorem State.setBent_part (s : State) (b : Nat) (x : Bent) (c : Nat) : (s.setBent b x).part c = s.part c := rfl
@[simp] theorem State.setBent_job (s : State) (b : Nat) (x : Bent) (c : Nat) : (s.setBent b x).job c = s.job c := rfl
@[simp] theorem State.setBent_lathAt (s : State) (b : Nat) (x : Bent) (c : Nat) : (s.setBent b x).lathAt c = s.lathAt c := rfl
@[simp] theorem State.setBent_chain (s : State) (b : Nat) (x : Bent) (c : Nat) : (s.setBent b x).chain c = s.chain c := rfl
@[simp] theorem State.setBent_group (s : State) (b : Nat) (x : Bent) (c : Nat) : (s.setBent b x).group c = s.group c := rfl
@[simp] theorem State.setBent_port (s : State) (b : Nat) (x : Bent) (c : Nat) : (s.setBent b x).port c = s.port c := rfl
@[simp] theorem State.setBent_jtr (s : State) (b : Nat) (x : Bent) (c p : Nat) : (s.setBent b x).jtr c p = s.jtr c p := rfl

@[simp] theorem State.setPart_agenda (s : State) (b : Nat) (x : Part) : (s.setPart b x).agenda = s.agenda := rfl
@[simp] theorem State.setPart_cur (s : State) (b : Nat) (x : Part) : (s.setPart b x).cur = s.cur := rfl
@[simp] theorem State.setPart_tick (s : State) (b : Nat) (x : Part) : (s.setPart b x).tick = s.tick := rfl
@[simp] theorem State.setPart_clock (s : State) (b : Nat) (x : Part) : (s.setPart b x).clock = s.clock := rfl
@[simp] theorem State.setPart_bays (s : State) (b : Nat) (x : Part) : (s.setPart b x).bays = s.bays := rfl
@[simp] theorem State.setPart_bents (s : State) (b : Nat) (x : Part) : (s.setPart b x).bents = s.bents := rfl
@[simp] theorem State.setPart_mem (s : State) (b : Nat) (x : Part) : (s.setPart b x).mem = s.mem := rfl
@[simp] theorem State.setPart_tags (s : State) (b : Nat) (x : Part) : (s.setPart b x).tags = s.tags := rfl
@[simp] theorem State.setPart_meta (s : State) (b : Nat) (x : Part) : (s.setPart b x).meta_ = s.meta_ := rfl
@[simp] theorem State.setPart_metaJob (s : State) (b : Nat) (x : Part) : (s.setPart b x).metaJob = s.metaJob := rfl
@[simp] theorem State.setPart_caches (s : State) (b : Nat) (x : Part) : (s.setPart b x).caches = s.caches := rfl
@[simp] theorem State.setPart_jointers (s : State) (b : Nat) (x : Part) : (s.setPart b x).jointers = s.jointers := rfl
@[simp] theorem State.setPart_chains (s : State) (b : Nat) (x : Part) : (s.setPart b x).chains = s.chains := rfl
@[simp] theorem State.setPart_ports (s : State) (b : Nat) (x : Part) : (s.setPart b x).ports = s.ports := rfl
@[simp] theorem State.setPart_rowcnt (s : State) (b : Nat) (x : Part) : (s.setPart b x).rowcnt = s.rowcnt := rfl
@[simp] theorem State.setPart_holds (s : State) (b : Nat) (x : Part) : (s.setPart b x).holds = s.holds := rfl
@[simp] theorem State.setPart_groups (s : State) (b : Nat) (x : Part) : (s.setPart b x).groups = s.groups := rfl
@[simp] theorem State.setPart_laths (s : State) (b : Nat) (x : Part) : (s.setPart b x).laths = s.laths := rfl
@[simp] theorem State.setPart_tables (s : State) (b : Nat) (x : Part) : (s.setPart b x).tables = s.tables := rfl
@[simp] theorem State.setPart_families (s : State) (b : Nat) (x : Part) : (s.setPart b x).families = s.families := rfl
@[simp] theorem State.setPart_heldBuckets (s : State) (b : Nat) (x : Part) : (s.setPart b x).heldBuckets = s.heldBuckets := rfl
@[simp] theorem State.setPart_jobs (s : State) (b : Nat) (x : Part) : (s.setPart b x).jobs = s.jobs := rfl
@[simp] theorem State.setPart_jobClock (s : State) (b : Nat) (x : Part) : (s.setPart b x).jobClock = s.jobClock := rfl
@[simp] theorem State.setPart_faultClock (s : State) (b : Nat) (x : Part) : (s.setPart b x).faultClock = s.faultClock := rfl
@[simp] theorem State.setPart_clk (s : State) (b : Nat) (x : Part) : (s.setPart b x).clk = s.clk := rfl
@[simp] theorem State.setPart_remap (s : State) (b : Nat) (x : Part) : (s.setPart b x).remap = s.remap := rfl
@[simp] theorem State.setPart_boot (s : State) (b : Nat) (x : Part) : (s.setPart b x).boot = s.boot := rfl
@[simp] theorem State.setPart_foreman (s : State) (b : Nat) (x : Part) : (s.setPart b x).foreman = s.foreman := rfl
@[simp] theorem State.setPart_homes (s : State) (b : Nat) (x : Part) : (s.setPart b x).homes = s.homes := rfl
@[simp] theorem State.setPart_pfmsix (s : State) (b : Nat) (x : Part) : (s.setPart b x).pfmsix = s.pfmsix := rfl
@[simp] theorem State.setPart_outbox (s : State) (b : Nat) (x : Part) : (s.setPart b x).outbox = s.outbox := rfl
@[simp] theorem State.setPart_part_same (s : State) (b : Nat) (x : Part) : (s.setPart b x).part b = x := Tab.get_put_same _ _ _ _
theorem State.setPart_part (s : State) (b : Nat) (x : Part) (c : Nat) : (s.setPart b x).part c = if c = b then x else s.part c := Tab.get_put _ _ _ _ _
@[simp] theorem State.setPart_bay (s : State) (b : Nat) (x : Part) (c : Nat) : (s.setPart b x).bay c = s.bay c := rfl
@[simp] theorem State.setPart_bent (s : State) (b : Nat) (x : Part) (c : Nat) : (s.setPart b x).bent c = s.bent c := rfl
@[simp] theorem State.setPart_job (s : State) (b : Nat) (x : Part) (c : Nat) : (s.setPart b x).job c = s.job c := rfl
@[simp] theorem State.setPart_lathAt (s : State) (b : Nat) (x : Part) (c : Nat) : (s.setPart b x).lathAt c = s.lathAt c := rfl
@[simp] theorem State.setPart_chain (s : State) (b : Nat) (x : Part) (c : Nat) : (s.setPart b x).chain c = s.chain c := rfl
@[simp] theorem State.setPart_group (s : State) (b : Nat) (x : Part) (c : Nat) : (s.setPart b x).group c = s.group c := rfl
@[simp] theorem State.setPart_port (s : State) (b : Nat) (x : Part) (c : Nat) : (s.setPart b x).port c = s.port c := rfl
@[simp] theorem State.setPart_jtr (s : State) (b : Nat) (x : Part) (c p : Nat) : (s.setPart b x).jtr c p = s.jtr c p := rfl

@[simp] theorem State.setJob_agenda (s : State) (b : Nat) (x : Job) : (s.setJob b x).agenda = s.agenda := rfl
@[simp] theorem State.setJob_cur (s : State) (b : Nat) (x : Job) : (s.setJob b x).cur = s.cur := rfl
@[simp] theorem State.setJob_tick (s : State) (b : Nat) (x : Job) : (s.setJob b x).tick = s.tick := rfl
@[simp] theorem State.setJob_clock (s : State) (b : Nat) (x : Job) : (s.setJob b x).clock = s.clock := rfl
@[simp] theorem State.setJob_bays (s : State) (b : Nat) (x : Job) : (s.setJob b x).bays = s.bays := rfl
@[simp] theorem State.setJob_bents (s : State) (b : Nat) (x : Job) : (s.setJob b x).bents = s.bents := rfl
@[simp] theorem State.setJob_mem (s : State) (b : Nat) (x : Job) : (s.setJob b x).mem = s.mem := rfl
@[simp] theorem State.setJob_tags (s : State) (b : Nat) (x : Job) : (s.setJob b x).tags = s.tags := rfl
@[simp] theorem State.setJob_meta (s : State) (b : Nat) (x : Job) : (s.setJob b x).meta_ = s.meta_ := rfl
@[simp] theorem State.setJob_metaJob (s : State) (b : Nat) (x : Job) : (s.setJob b x).metaJob = s.metaJob := rfl
@[simp] theorem State.setJob_caches (s : State) (b : Nat) (x : Job) : (s.setJob b x).caches = s.caches := rfl
@[simp] theorem State.setJob_jointers (s : State) (b : Nat) (x : Job) : (s.setJob b x).jointers = s.jointers := rfl
@[simp] theorem State.setJob_chains (s : State) (b : Nat) (x : Job) : (s.setJob b x).chains = s.chains := rfl
@[simp] theorem State.setJob_ports (s : State) (b : Nat) (x : Job) : (s.setJob b x).ports = s.ports := rfl
@[simp] theorem State.setJob_rowcnt (s : State) (b : Nat) (x : Job) : (s.setJob b x).rowcnt = s.rowcnt := rfl
@[simp] theorem State.setJob_holds (s : State) (b : Nat) (x : Job) : (s.setJob b x).holds = s.holds := rfl
@[simp] theorem State.setJob_groups (s : State) (b : Nat) (x : Job) : (s.setJob b x).groups = s.groups := rfl
@[simp] theorem State.setJob_laths (s : State) (b : Nat) (x : Job) : (s.setJob b x).laths = s.laths := rfl
@[simp] theorem State.setJob_tables (s : State) (b : Nat) (x : Job) : (s.setJob b x).tables = s.tables := rfl
@[simp] theorem State.setJob_families (s : State) (b : Nat) (x : Job) : (s.setJob b x).families = s.families := rfl
@[simp] theorem State.setJob_heldBuckets (s : State) (b : Nat) (x : Job) : (s.setJob b x).heldBuckets = s.heldBuckets := rfl
@[simp] theorem State.setJob_parts (s : State) (b : Nat) (x : Job) : (s.setJob b x).parts = s.parts := rfl
@[simp] theorem State.setJob_jobClock (s : State) (b : Nat) (x : Job) : (s.setJob b x).jobClock = s.jobClock := rfl
@[simp] theorem State.setJob_faultClock (s : State) (b : Nat) (x : Job) : (s.setJob b x).faultClock = s.faultClock := rfl
@[simp] theorem State.setJob_clk (s : State) (b : Nat) (x : Job) : (s.setJob b x).clk = s.clk := rfl
@[simp] theorem State.setJob_remap (s : State) (b : Nat) (x : Job) : (s.setJob b x).remap = s.remap := rfl
@[simp] theorem State.setJob_boot (s : State) (b : Nat) (x : Job) : (s.setJob b x).boot = s.boot := rfl
@[simp] theorem State.setJob_foreman (s : State) (b : Nat) (x : Job) : (s.setJob b x).foreman = s.foreman := rfl
@[simp] theorem State.setJob_homes (s : State) (b : Nat) (x : Job) : (s.setJob b x).homes = s.homes := rfl
@[simp] theorem State.setJob_pfmsix (s : State) (b : Nat) (x : Job) : (s.setJob b x).pfmsix = s.pfmsix := rfl
@[simp] theorem State.setJob_outbox (s : State) (b : Nat) (x : Job) : (s.setJob b x).outbox = s.outbox := rfl
@[simp] theorem State.setJob_job_same (s : State) (b : Nat) (x : Job) : (s.setJob b x).job b = x := Tab.get_put_same _ _ _ _
theorem State.setJob_job (s : State) (b : Nat) (x : Job) (c : Nat) : (s.setJob b x).job c = if c = b then x else s.job c := Tab.get_put _ _ _ _ _
@[simp] theorem State.setJob_bay (s : State) (b : Nat) (x : Job) (c : Nat) : (s.setJob b x).bay c = s.bay c := rfl
@[simp] theorem State.setJob_bent (s : State) (b : Nat) (x : Job) (c : Nat) : (s.setJob b x).bent c = s.bent c := rfl
@[simp] theorem State.setJob_part (s : State) (b : Nat) (x : Job) (c : Nat) : (s.setJob b x).part c = s.part c := rfl
@[simp] theorem State.setJob_lathAt (s : State) (b : Nat) (x : Job) (c : Nat) : (s.setJob b x).lathAt c = s.lathAt c := rfl
@[simp] theorem State.setJob_chain (s : State) (b : Nat) (x : Job) (c : Nat) : (s.setJob b x).chain c = s.chain c := rfl
@[simp] theorem State.setJob_group (s : State) (b : Nat) (x : Job) (c : Nat) : (s.setJob b x).group c = s.group c := rfl
@[simp] theorem State.setJob_port (s : State) (b : Nat) (x : Job) (c : Nat) : (s.setJob b x).port c = s.port c := rfl
@[simp] theorem State.setJob_jtr (s : State) (b : Nat) (x : Job) (c p : Nat) : (s.setJob b x).jtr c p = s.jtr c p := rfl

@[simp] theorem State.setLath_agenda (s : State) (b : Nat) (x : Lath) : (s.setLath b x).agenda = s.agenda := rfl
@[simp] theorem State.setLath_cur (s : State) (b : Nat) (x : Lath) : (s.setLath b x).cur = s.cur := rfl
@[simp] theorem State.setLath_tick (s : State) (b : Nat) (x : Lath) : (s.setLath b x).tick = s.tick := rfl
@[simp] theorem State.setLath_clock (s : State) (b : Nat) (x : Lath) : (s.setLath b x).clock = s.clock := rfl
@[simp] theorem State.setLath_bays (s : State) (b : Nat) (x : Lath) : (s.setLath b x).bays = s.bays := rfl
@[simp] theorem State.setLath_bents (s : State) (b : Nat) (x : Lath) : (s.setLath b x).bents = s.bents := rfl
@[simp] theorem State.setLath_mem (s : State) (b : Nat) (x : Lath) : (s.setLath b x).mem = s.mem := rfl
@[simp] theorem State.setLath_tags (s : State) (b : Nat) (x : Lath) : (s.setLath b x).tags = s.tags := rfl
@[simp] theorem State.setLath_meta (s : State) (b : Nat) (x : Lath) : (s.setLath b x).meta_ = s.meta_ := rfl
@[simp] theorem State.setLath_metaJob (s : State) (b : Nat) (x : Lath) : (s.setLath b x).metaJob = s.metaJob := rfl
@[simp] theorem State.setLath_caches (s : State) (b : Nat) (x : Lath) : (s.setLath b x).caches = s.caches := rfl
@[simp] theorem State.setLath_jointers (s : State) (b : Nat) (x : Lath) : (s.setLath b x).jointers = s.jointers := rfl
@[simp] theorem State.setLath_chains (s : State) (b : Nat) (x : Lath) : (s.setLath b x).chains = s.chains := rfl
@[simp] theorem State.setLath_ports (s : State) (b : Nat) (x : Lath) : (s.setLath b x).ports = s.ports := rfl
@[simp] theorem State.setLath_rowcnt (s : State) (b : Nat) (x : Lath) : (s.setLath b x).rowcnt = s.rowcnt := rfl
@[simp] theorem State.setLath_holds (s : State) (b : Nat) (x : Lath) : (s.setLath b x).holds = s.holds := rfl
@[simp] theorem State.setLath_groups (s : State) (b : Nat) (x : Lath) : (s.setLath b x).groups = s.groups := rfl
@[simp] theorem State.setLath_tables (s : State) (b : Nat) (x : Lath) : (s.setLath b x).tables = s.tables := rfl
@[simp] theorem State.setLath_families (s : State) (b : Nat) (x : Lath) : (s.setLath b x).families = s.families := rfl
@[simp] theorem State.setLath_heldBuckets (s : State) (b : Nat) (x : Lath) : (s.setLath b x).heldBuckets = s.heldBuckets := rfl
@[simp] theorem State.setLath_parts (s : State) (b : Nat) (x : Lath) : (s.setLath b x).parts = s.parts := rfl
@[simp] theorem State.setLath_jobs (s : State) (b : Nat) (x : Lath) : (s.setLath b x).jobs = s.jobs := rfl
@[simp] theorem State.setLath_jobClock (s : State) (b : Nat) (x : Lath) : (s.setLath b x).jobClock = s.jobClock := rfl
@[simp] theorem State.setLath_faultClock (s : State) (b : Nat) (x : Lath) : (s.setLath b x).faultClock = s.faultClock := rfl
@[simp] theorem State.setLath_clk (s : State) (b : Nat) (x : Lath) : (s.setLath b x).clk = s.clk := rfl
@[simp] theorem State.setLath_remap (s : State) (b : Nat) (x : Lath) : (s.setLath b x).remap = s.remap := rfl
@[simp] theorem State.setLath_boot (s : State) (b : Nat) (x : Lath) : (s.setLath b x).boot = s.boot := rfl
@[simp] theorem State.setLath_foreman (s : State) (b : Nat) (x : Lath) : (s.setLath b x).foreman = s.foreman := rfl
@[simp] theorem State.setLath_homes (s : State) (b : Nat) (x : Lath) : (s.setLath b x).homes = s.homes := rfl
@[simp] theorem State.setLath_pfmsix (s : State) (b : Nat) (x : Lath) : (s.setLath b x).pfmsix = s.pfmsix := rfl
@[simp] theorem State.setLath_outbox (s : State) (b : Nat) (x : Lath) : (s.setLath b x).outbox = s.outbox := rfl
@[simp] theorem State.setLath_lathAt_same (s : State) (b : Nat) (x : Lath) : (s.setLath b x).lathAt b = x := Tab.get_put_same _ _ _ _
theorem State.setLath_lathAt (s : State) (b : Nat) (x : Lath) (c : Nat) : (s.setLath b x).lathAt c = if c = b then x else s.lathAt c := Tab.get_put _ _ _ _ _
@[simp] theorem State.setLath_bay (s : State) (b : Nat) (x : Lath) (c : Nat) : (s.setLath b x).bay c = s.bay c := rfl
@[simp] theorem State.setLath_bent (s : State) (b : Nat) (x : Lath) (c : Nat) : (s.setLath b x).bent c = s.bent c := rfl
@[simp] theorem State.setLath_part (s : State) (b : Nat) (x : Lath) (c : Nat) : (s.setLath b x).part c = s.part c := rfl
@[simp] theorem State.setLath_job (s : State) (b : Nat) (x : Lath) (c : Nat) : (s.setLath b x).job c = s.job c := rfl
@[simp] theorem State.setLath_chain (s : State) (b : Nat) (x : Lath) (c : Nat) : (s.setLath b x).chain c = s.chain c := rfl
@[simp] theorem State.setLath_group (s : State) (b : Nat) (x : Lath) (c : Nat) : (s.setLath b x).group c = s.group c := rfl
@[simp] theorem State.setLath_port (s : State) (b : Nat) (x : Lath) (c : Nat) : (s.setLath b x).port c = s.port c := rfl
@[simp] theorem State.setLath_jtr (s : State) (b : Nat) (x : Lath) (c p : Nat) : (s.setLath b x).jtr c p = s.jtr c p := rfl

@[simp] theorem State.setChain_agenda (s : State) (b : Nat) (x : Chain) : (s.setChain b x).agenda = s.agenda := rfl
@[simp] theorem State.setChain_cur (s : State) (b : Nat) (x : Chain) : (s.setChain b x).cur = s.cur := rfl
@[simp] theorem State.setChain_tick (s : State) (b : Nat) (x : Chain) : (s.setChain b x).tick = s.tick := rfl
@[simp] theorem State.setChain_clock (s : State) (b : Nat) (x : Chain) : (s.setChain b x).clock = s.clock := rfl
@[simp] theorem State.setChain_bays (s : State) (b : Nat) (x : Chain) : (s.setChain b x).bays = s.bays := rfl
@[simp] theorem State.setChain_bents (s : State) (b : Nat) (x : Chain) : (s.setChain b x).bents = s.bents := rfl
@[simp] theorem State.setChain_mem (s : State) (b : Nat) (x : Chain) : (s.setChain b x).mem = s.mem := rfl
@[simp] theorem State.setChain_tags (s : State) (b : Nat) (x : Chain) : (s.setChain b x).tags = s.tags := rfl
@[simp] theorem State.setChain_meta (s : State) (b : Nat) (x : Chain) : (s.setChain b x).meta_ = s.meta_ := rfl
@[simp] theorem State.setChain_metaJob (s : State) (b : Nat) (x : Chain) : (s.setChain b x).metaJob = s.metaJob := rfl
@[simp] theorem State.setChain_caches (s : State) (b : Nat) (x : Chain) : (s.setChain b x).caches = s.caches := rfl
@[simp] theorem State.setChain_jointers (s : State) (b : Nat) (x : Chain) : (s.setChain b x).jointers = s.jointers := rfl
@[simp] theorem State.setChain_ports (s : State) (b : Nat) (x : Chain) : (s.setChain b x).ports = s.ports := rfl
@[simp] theorem State.setChain_rowcnt (s : State) (b : Nat) (x : Chain) : (s.setChain b x).rowcnt = s.rowcnt := rfl
@[simp] theorem State.setChain_holds (s : State) (b : Nat) (x : Chain) : (s.setChain b x).holds = s.holds := rfl
@[simp] theorem State.setChain_groups (s : State) (b : Nat) (x : Chain) : (s.setChain b x).groups = s.groups := rfl
@[simp] theorem State.setChain_laths (s : State) (b : Nat) (x : Chain) : (s.setChain b x).laths = s.laths := rfl
@[simp] theorem State.setChain_tables (s : State) (b : Nat) (x : Chain) : (s.setChain b x).tables = s.tables := rfl
@[simp] theorem State.setChain_families (s : State) (b : Nat) (x : Chain) : (s.setChain b x).families = s.families := rfl
@[simp] theorem State.setChain_heldBuckets (s : State) (b : Nat) (x : Chain) : (s.setChain b x).heldBuckets = s.heldBuckets := rfl
@[simp] theorem State.setChain_parts (s : State) (b : Nat) (x : Chain) : (s.setChain b x).parts = s.parts := rfl
@[simp] theorem State.setChain_jobs (s : State) (b : Nat) (x : Chain) : (s.setChain b x).jobs = s.jobs := rfl
@[simp] theorem State.setChain_jobClock (s : State) (b : Nat) (x : Chain) : (s.setChain b x).jobClock = s.jobClock := rfl
@[simp] theorem State.setChain_faultClock (s : State) (b : Nat) (x : Chain) : (s.setChain b x).faultClock = s.faultClock := rfl
@[simp] theorem State.setChain_clk (s : State) (b : Nat) (x : Chain) : (s.setChain b x).clk = s.clk := rfl
@[simp] theorem State.setChain_remap (s : State) (b : Nat) (x : Chain) : (s.setChain b x).remap = s.remap := rfl
@[simp] theorem State.setChain_boot (s : State) (b : Nat) (x : Chain) : (s.setChain b x).boot = s.boot := rfl
@[simp] theorem State.setChain_foreman (s : State) (b : Nat) (x : Chain) : (s.setChain b x).foreman = s.foreman := rfl
@[simp] theorem State.setChain_homes (s : State) (b : Nat) (x : Chain) : (s.setChain b x).homes = s.homes := rfl
@[simp] theorem State.setChain_pfmsix (s : State) (b : Nat) (x : Chain) : (s.setChain b x).pfmsix = s.pfmsix := rfl
@[simp] theorem State.setChain_outbox (s : State) (b : Nat) (x : Chain) : (s.setChain b x).outbox = s.outbox := rfl
@[simp] theorem State.setChain_chain_same (s : State) (b : Nat) (x : Chain) : (s.setChain b x).chain b = x := Tab.get_put_same _ _ _ _
theorem State.setChain_chain (s : State) (b : Nat) (x : Chain) (c : Nat) : (s.setChain b x).chain c = if c = b then x else s.chain c := Tab.get_put _ _ _ _ _
@[simp] theorem State.setChain_bay (s : State) (b : Nat) (x : Chain) (c : Nat) : (s.setChain b x).bay c = s.bay c := rfl
@[simp] theorem State.setChain_bent (s : State) (b : Nat) (x : Chain) (c : Nat) : (s.setChain b x).bent c = s.bent c := rfl
@[simp] theorem State.setChain_part (s : State) (b : Nat) (x : Chain) (c : Nat) : (s.setChain b x).part c = s.part c := rfl
@[simp] theorem State.setChain_job (s : State) (b : Nat) (x : Chain) (c : Nat) : (s.setChain b x).job c = s.job c := rfl
@[simp] theorem State.setChain_lathAt (s : State) (b : Nat) (x : Chain) (c : Nat) : (s.setChain b x).lathAt c = s.lathAt c := rfl
@[simp] theorem State.setChain_group (s : State) (b : Nat) (x : Chain) (c : Nat) : (s.setChain b x).group c = s.group c := rfl
@[simp] theorem State.setChain_port (s : State) (b : Nat) (x : Chain) (c : Nat) : (s.setChain b x).port c = s.port c := rfl
@[simp] theorem State.setChain_jtr (s : State) (b : Nat) (x : Chain) (c p : Nat) : (s.setChain b x).jtr c p = s.jtr c p := rfl

@[simp] theorem State.setGroup_agenda (s : State) (b : Nat) (x : Group) : (s.setGroup b x).agenda = s.agenda := rfl
@[simp] theorem State.setGroup_cur (s : State) (b : Nat) (x : Group) : (s.setGroup b x).cur = s.cur := rfl
@[simp] theorem State.setGroup_tick (s : State) (b : Nat) (x : Group) : (s.setGroup b x).tick = s.tick := rfl
@[simp] theorem State.setGroup_clock (s : State) (b : Nat) (x : Group) : (s.setGroup b x).clock = s.clock := rfl
@[simp] theorem State.setGroup_bays (s : State) (b : Nat) (x : Group) : (s.setGroup b x).bays = s.bays := rfl
@[simp] theorem State.setGroup_bents (s : State) (b : Nat) (x : Group) : (s.setGroup b x).bents = s.bents := rfl
@[simp] theorem State.setGroup_mem (s : State) (b : Nat) (x : Group) : (s.setGroup b x).mem = s.mem := rfl
@[simp] theorem State.setGroup_tags (s : State) (b : Nat) (x : Group) : (s.setGroup b x).tags = s.tags := rfl
@[simp] theorem State.setGroup_meta (s : State) (b : Nat) (x : Group) : (s.setGroup b x).meta_ = s.meta_ := rfl
@[simp] theorem State.setGroup_metaJob (s : State) (b : Nat) (x : Group) : (s.setGroup b x).metaJob = s.metaJob := rfl
@[simp] theorem State.setGroup_caches (s : State) (b : Nat) (x : Group) : (s.setGroup b x).caches = s.caches := rfl
@[simp] theorem State.setGroup_jointers (s : State) (b : Nat) (x : Group) : (s.setGroup b x).jointers = s.jointers := rfl
@[simp] theorem State.setGroup_chains (s : State) (b : Nat) (x : Group) : (s.setGroup b x).chains = s.chains := rfl
@[simp] theorem State.setGroup_ports (s : State) (b : Nat) (x : Group) : (s.setGroup b x).ports = s.ports := rfl
@[simp] theorem State.setGroup_rowcnt (s : State) (b : Nat) (x : Group) : (s.setGroup b x).rowcnt = s.rowcnt := rfl
@[simp] theorem State.setGroup_holds (s : State) (b : Nat) (x : Group) : (s.setGroup b x).holds = s.holds := rfl
@[simp] theorem State.setGroup_laths (s : State) (b : Nat) (x : Group) : (s.setGroup b x).laths = s.laths := rfl
@[simp] theorem State.setGroup_tables (s : State) (b : Nat) (x : Group) : (s.setGroup b x).tables = s.tables := rfl
@[simp] theorem State.setGroup_families (s : State) (b : Nat) (x : Group) : (s.setGroup b x).families = s.families := rfl
@[simp] theorem State.setGroup_heldBuckets (s : State) (b : Nat) (x : Group) : (s.setGroup b x).heldBuckets = s.heldBuckets := rfl
@[simp] theorem State.setGroup_parts (s : State) (b : Nat) (x : Group) : (s.setGroup b x).parts = s.parts := rfl
@[simp] theorem State.setGroup_jobs (s : State) (b : Nat) (x : Group) : (s.setGroup b x).jobs = s.jobs := rfl
@[simp] theorem State.setGroup_jobClock (s : State) (b : Nat) (x : Group) : (s.setGroup b x).jobClock = s.jobClock := rfl
@[simp] theorem State.setGroup_faultClock (s : State) (b : Nat) (x : Group) : (s.setGroup b x).faultClock = s.faultClock := rfl
@[simp] theorem State.setGroup_clk (s : State) (b : Nat) (x : Group) : (s.setGroup b x).clk = s.clk := rfl
@[simp] theorem State.setGroup_remap (s : State) (b : Nat) (x : Group) : (s.setGroup b x).remap = s.remap := rfl
@[simp] theorem State.setGroup_boot (s : State) (b : Nat) (x : Group) : (s.setGroup b x).boot = s.boot := rfl
@[simp] theorem State.setGroup_foreman (s : State) (b : Nat) (x : Group) : (s.setGroup b x).foreman = s.foreman := rfl
@[simp] theorem State.setGroup_homes (s : State) (b : Nat) (x : Group) : (s.setGroup b x).homes = s.homes := rfl
@[simp] theorem State.setGroup_pfmsix (s : State) (b : Nat) (x : Group) : (s.setGroup b x).pfmsix = s.pfmsix := rfl
@[simp] theorem State.setGroup_outbox (s : State) (b : Nat) (x : Group) : (s.setGroup b x).outbox = s.outbox := rfl
@[simp] theorem State.setGroup_group_same (s : State) (b : Nat) (x : Group) : (s.setGroup b x).group b = x := Tab.get_put_same _ _ _ _
theorem State.setGroup_group (s : State) (b : Nat) (x : Group) (c : Nat) : (s.setGroup b x).group c = if c = b then x else s.group c := Tab.get_put _ _ _ _ _
@[simp] theorem State.setGroup_bay (s : State) (b : Nat) (x : Group) (c : Nat) : (s.setGroup b x).bay c = s.bay c := rfl
@[simp] theorem State.setGroup_bent (s : State) (b : Nat) (x : Group) (c : Nat) : (s.setGroup b x).bent c = s.bent c := rfl
@[simp] theorem State.setGroup_part (s : State) (b : Nat) (x : Group) (c : Nat) : (s.setGroup b x).part c = s.part c := rfl
@[simp] theorem State.setGroup_job (s : State) (b : Nat) (x : Group) (c : Nat) : (s.setGroup b x).job c = s.job c := rfl
@[simp] theorem State.setGroup_lathAt (s : State) (b : Nat) (x : Group) (c : Nat) : (s.setGroup b x).lathAt c = s.lathAt c := rfl
@[simp] theorem State.setGroup_chain (s : State) (b : Nat) (x : Group) (c : Nat) : (s.setGroup b x).chain c = s.chain c := rfl
@[simp] theorem State.setGroup_port (s : State) (b : Nat) (x : Group) (c : Nat) : (s.setGroup b x).port c = s.port c := rfl
@[simp] theorem State.setGroup_jtr (s : State) (b : Nat) (x : Group) (c p : Nat) : (s.setGroup b x).jtr c p = s.jtr c p := rfl

@[simp] theorem State.setPort_agenda (s : State) (b : Nat) (x : Port) : (s.setPort b x).agenda = s.agenda := rfl
@[simp] theorem State.setPort_cur (s : State) (b : Nat) (x : Port) : (s.setPort b x).cur = s.cur := rfl
@[simp] theorem State.setPort_tick (s : State) (b : Nat) (x : Port) : (s.setPort b x).tick = s.tick := rfl
@[simp] theorem State.setPort_clock (s : State) (b : Nat) (x : Port) : (s.setPort b x).clock = s.clock := rfl
@[simp] theorem State.setPort_bays (s : State) (b : Nat) (x : Port) : (s.setPort b x).bays = s.bays := rfl
@[simp] theorem State.setPort_bents (s : State) (b : Nat) (x : Port) : (s.setPort b x).bents = s.bents := rfl
@[simp] theorem State.setPort_mem (s : State) (b : Nat) (x : Port) : (s.setPort b x).mem = s.mem := rfl
@[simp] theorem State.setPort_tags (s : State) (b : Nat) (x : Port) : (s.setPort b x).tags = s.tags := rfl
@[simp] theorem State.setPort_meta (s : State) (b : Nat) (x : Port) : (s.setPort b x).meta_ = s.meta_ := rfl
@[simp] theorem State.setPort_metaJob (s : State) (b : Nat) (x : Port) : (s.setPort b x).metaJob = s.metaJob := rfl
@[simp] theorem State.setPort_caches (s : State) (b : Nat) (x : Port) : (s.setPort b x).caches = s.caches := rfl
@[simp] theorem State.setPort_jointers (s : State) (b : Nat) (x : Port) : (s.setPort b x).jointers = s.jointers := rfl
@[simp] theorem State.setPort_chains (s : State) (b : Nat) (x : Port) : (s.setPort b x).chains = s.chains := rfl
@[simp] theorem State.setPort_rowcnt (s : State) (b : Nat) (x : Port) : (s.setPort b x).rowcnt = s.rowcnt := rfl
@[simp] theorem State.setPort_holds (s : State) (b : Nat) (x : Port) : (s.setPort b x).holds = s.holds := rfl
@[simp] theorem State.setPort_groups (s : State) (b : Nat) (x : Port) : (s.setPort b x).groups = s.groups := rfl
@[simp] theorem State.setPort_laths (s : State) (b : Nat) (x : Port) : (s.setPort b x).laths = s.laths := rfl
@[simp] theorem State.setPort_tables (s : State) (b : Nat) (x : Port) : (s.setPort b x).tables = s.tables := rfl
@[simp] theorem State.setPort_families (s : State) (b : Nat) (x : Port) : (s.setPort b x).families = s.families := rfl
@[simp] theorem State.setPort_heldBuckets (s : State) (b : Nat) (x : Port) : (s.setPort b x).heldBuckets = s.heldBuckets := rfl
@[simp] theorem State.setPort_parts (s : State) (b : Nat) (x : Port) : (s.setPort b x).parts = s.parts := rfl
@[simp] theorem State.setPort_jobs (s : State) (b : Nat) (x : Port) : (s.setPort b x).jobs = s.jobs := rfl
@[simp] theorem State.setPort_jobClock (s : State) (b : Nat) (x : Port) : (s.setPort b x).jobClock = s.jobClock := rfl
@[simp] theorem State.setPort_faultClock (s : State) (b : Nat) (x : Port) : (s.setPort b x).faultClock = s.faultClock := rfl
@[simp] theorem State.setPort_clk (s : State) (b : Nat) (x : Port) : (s.setPort b x).clk = s.clk := rfl
@[simp] theorem State.setPort_remap (s : State) (b : Nat) (x : Port) : (s.setPort b x).remap = s.remap := rfl
@[simp] theorem State.setPort_boot (s : State) (b : Nat) (x : Port) : (s.setPort b x).boot = s.boot := rfl
@[simp] theorem State.setPort_foreman (s : State) (b : Nat) (x : Port) : (s.setPort b x).foreman = s.foreman := rfl
@[simp] theorem State.setPort_homes (s : State) (b : Nat) (x : Port) : (s.setPort b x).homes = s.homes := rfl
@[simp] theorem State.setPort_pfmsix (s : State) (b : Nat) (x : Port) : (s.setPort b x).pfmsix = s.pfmsix := rfl
@[simp] theorem State.setPort_outbox (s : State) (b : Nat) (x : Port) : (s.setPort b x).outbox = s.outbox := rfl
@[simp] theorem State.setPort_port_same (s : State) (b : Nat) (x : Port) : (s.setPort b x).port b = x := Tab.get_put_same _ _ _ _
theorem State.setPort_port (s : State) (b : Nat) (x : Port) (c : Nat) : (s.setPort b x).port c = if c = b then x else s.port c := Tab.get_put _ _ _ _ _
@[simp] theorem State.setPort_bay (s : State) (b : Nat) (x : Port) (c : Nat) : (s.setPort b x).bay c = s.bay c := rfl
@[simp] theorem State.setPort_bent (s : State) (b : Nat) (x : Port) (c : Nat) : (s.setPort b x).bent c = s.bent c := rfl
@[simp] theorem State.setPort_part (s : State) (b : Nat) (x : Port) (c : Nat) : (s.setPort b x).part c = s.part c := rfl
@[simp] theorem State.setPort_job (s : State) (b : Nat) (x : Port) (c : Nat) : (s.setPort b x).job c = s.job c := rfl
@[simp] theorem State.setPort_lathAt (s : State) (b : Nat) (x : Port) (c : Nat) : (s.setPort b x).lathAt c = s.lathAt c := rfl
@[simp] theorem State.setPort_chain (s : State) (b : Nat) (x : Port) (c : Nat) : (s.setPort b x).chain c = s.chain c := rfl
@[simp] theorem State.setPort_group (s : State) (b : Nat) (x : Port) (c : Nat) : (s.setPort b x).group c = s.group c := rfl
@[simp] theorem State.setPort_jtr (s : State) (b : Nat) (x : Port) (c p : Nat) : (s.setPort b x).jtr c p = s.jtr c p := rfl

@[simp] theorem State.setJtr_agenda (s : State) (c p : Nat) (x : Jointer) : (s.setJtr c p x).agenda = s.agenda := rfl
@[simp] theorem State.setJtr_cur (s : State) (c p : Nat) (x : Jointer) : (s.setJtr c p x).cur = s.cur := rfl
@[simp] theorem State.setJtr_tick (s : State) (c p : Nat) (x : Jointer) : (s.setJtr c p x).tick = s.tick := rfl
@[simp] theorem State.setJtr_clock (s : State) (c p : Nat) (x : Jointer) : (s.setJtr c p x).clock = s.clock := rfl
@[simp] theorem State.setJtr_bays (s : State) (c p : Nat) (x : Jointer) : (s.setJtr c p x).bays = s.bays := rfl
@[simp] theorem State.setJtr_bents (s : State) (c p : Nat) (x : Jointer) : (s.setJtr c p x).bents = s.bents := rfl
@[simp] theorem State.setJtr_mem (s : State) (c p : Nat) (x : Jointer) : (s.setJtr c p x).mem = s.mem := rfl
@[simp] theorem State.setJtr_tags (s : State) (c p : Nat) (x : Jointer) : (s.setJtr c p x).tags = s.tags := rfl
@[simp] theorem State.setJtr_meta (s : State) (c p : Nat) (x : Jointer) : (s.setJtr c p x).meta_ = s.meta_ := rfl
@[simp] theorem State.setJtr_metaJob (s : State) (c p : Nat) (x : Jointer) : (s.setJtr c p x).metaJob = s.metaJob := rfl
@[simp] theorem State.setJtr_caches (s : State) (c p : Nat) (x : Jointer) : (s.setJtr c p x).caches = s.caches := rfl
@[simp] theorem State.setJtr_chains (s : State) (c p : Nat) (x : Jointer) : (s.setJtr c p x).chains = s.chains := rfl
@[simp] theorem State.setJtr_ports (s : State) (c p : Nat) (x : Jointer) : (s.setJtr c p x).ports = s.ports := rfl
@[simp] theorem State.setJtr_rowcnt (s : State) (c p : Nat) (x : Jointer) : (s.setJtr c p x).rowcnt = s.rowcnt := rfl
@[simp] theorem State.setJtr_holds (s : State) (c p : Nat) (x : Jointer) : (s.setJtr c p x).holds = s.holds := rfl
@[simp] theorem State.setJtr_groups (s : State) (c p : Nat) (x : Jointer) : (s.setJtr c p x).groups = s.groups := rfl
@[simp] theorem State.setJtr_laths (s : State) (c p : Nat) (x : Jointer) : (s.setJtr c p x).laths = s.laths := rfl
@[simp] theorem State.setJtr_tables (s : State) (c p : Nat) (x : Jointer) : (s.setJtr c p x).tables = s.tables := rfl
@[simp] theorem State.setJtr_families (s : State) (c p : Nat) (x : Jointer) : (s.setJtr c p x).families = s.families := rfl
@[simp] theorem State.setJtr_heldBuckets (s : State) (c p : Nat) (x : Jointer) : (s.setJtr c p x).heldBuckets = s.heldBuckets := rfl
@[simp] theorem State.setJtr_parts (s : State) (c p : Nat) (x : Jointer) : (s.setJtr c p x).parts = s.parts := rfl
@[simp] theorem State.setJtr_jobs (s : State) (c p : Nat) (x : Jointer) : (s.setJtr c p x).jobs = s.jobs := rfl
@[simp] theorem State.setJtr_jobClock (s : State) (c p : Nat) (x : Jointer) : (s.setJtr c p x).jobClock = s.jobClock := rfl
@[simp] theorem State.setJtr_faultClock (s : State) (c p : Nat) (x : Jointer) : (s.setJtr c p x).faultClock = s.faultClock := rfl
@[simp] theorem State.setJtr_clk (s : State) (c p : Nat) (x : Jointer) : (s.setJtr c p x).clk = s.clk := rfl
@[simp] theorem State.setJtr_remap (s : State) (c p : Nat) (x : Jointer) : (s.setJtr c p x).remap = s.remap := rfl
@[simp] theorem State.setJtr_boot (s : State) (c p : Nat) (x : Jointer) : (s.setJtr c p x).boot = s.boot := rfl
@[simp] theorem State.setJtr_foreman (s : State) (c p : Nat) (x : Jointer) : (s.setJtr c p x).foreman = s.foreman := rfl
@[simp] theorem State.setJtr_homes (s : State) (c p : Nat) (x : Jointer) : (s.setJtr c p x).homes = s.homes := rfl
@[simp] theorem State.setJtr_pfmsix (s : State) (c p : Nat) (x : Jointer) : (s.setJtr c p x).pfmsix = s.pfmsix := rfl
@[simp] theorem State.setJtr_outbox (s : State) (c p : Nat) (x : Jointer) : (s.setJtr c p x).outbox = s.outbox := rfl
@[simp] theorem State.setJtr_bay (s : State) (c p : Nat) (x : Jointer) (n : Nat) : (s.setJtr c p x).bay n = s.bay n := rfl
@[simp] theorem State.setJtr_bent (s : State) (c p : Nat) (x : Jointer) (n : Nat) : (s.setJtr c p x).bent n = s.bent n := rfl
@[simp] theorem State.setJtr_part (s : State) (c p : Nat) (x : Jointer) (n : Nat) : (s.setJtr c p x).part n = s.part n := rfl
@[simp] theorem State.setJtr_job (s : State) (c p : Nat) (x : Jointer) (n : Nat) : (s.setJtr c p x).job n = s.job n := rfl
@[simp] theorem State.setJtr_lathAt (s : State) (c p : Nat) (x : Jointer) (n : Nat) : (s.setJtr c p x).lathAt n = s.lathAt n := rfl
@[simp] theorem State.setJtr_chain (s : State) (c p : Nat) (x : Jointer) (n : Nat) : (s.setJtr c p x).chain n = s.chain n := rfl
@[simp] theorem State.setJtr_group (s : State) (c p : Nat) (x : Jointer) (n : Nat) : (s.setJtr c p x).group n = s.group n := rfl
@[simp] theorem State.setJtr_port (s : State) (c p : Nat) (x : Jointer) (n : Nat) : (s.setJtr c p x).port n = s.port n := rfl
@[simp] theorem State.setJtr_jtr_same (s : State) (c p : Nat) (x : Jointer) : (s.setJtr c p x).jtr c p = x := Tab.get_put_same _ _ _ _

@[simp] theorem State.modBay_agenda (s : State) (b : Nat) (f : Bay → Bay) : (s.modBay b f).agenda = s.agenda := rfl
@[simp] theorem State.modBay_cur (s : State) (b : Nat) (f : Bay → Bay) : (s.modBay b f).cur = s.cur := rfl
@[simp] theorem State.modBay_tick (s : State) (b : Nat) (f : Bay → Bay) : (s.modBay b f).tick = s.tick := rfl
@[simp] theorem State.modBay_clock (s : State) (b : Nat) (f : Bay → Bay) : (s.modBay b f).clock = s.clock := rfl
@[simp] theorem State.modBay_bents (s : State) (b : Nat) (f : Bay → Bay) : (s.modBay b f).bents = s.bents := rfl
@[simp] theorem State.modBay_mem (s : State) (b : Nat) (f : Bay → Bay) : (s.modBay b f).mem = s.mem := rfl
@[simp] theorem State.modBay_tags (s : State) (b : Nat) (f : Bay → Bay) : (s.modBay b f).tags = s.tags := rfl
@[simp] theorem State.modBay_meta (s : State) (b : Nat) (f : Bay → Bay) : (s.modBay b f).meta_ = s.meta_ := rfl
@[simp] theorem State.modBay_metaJob (s : State) (b : Nat) (f : Bay → Bay) : (s.modBay b f).metaJob = s.metaJob := rfl
@[simp] theorem State.modBay_caches (s : State) (b : Nat) (f : Bay → Bay) : (s.modBay b f).caches = s.caches := rfl
@[simp] theorem State.modBay_jointers (s : State) (b : Nat) (f : Bay → Bay) : (s.modBay b f).jointers = s.jointers := rfl
@[simp] theorem State.modBay_chains (s : State) (b : Nat) (f : Bay → Bay) : (s.modBay b f).chains = s.chains := rfl
@[simp] theorem State.modBay_ports (s : State) (b : Nat) (f : Bay → Bay) : (s.modBay b f).ports = s.ports := rfl
@[simp] theorem State.modBay_rowcnt (s : State) (b : Nat) (f : Bay → Bay) : (s.modBay b f).rowcnt = s.rowcnt := rfl
@[simp] theorem State.modBay_holds (s : State) (b : Nat) (f : Bay → Bay) : (s.modBay b f).holds = s.holds := rfl
@[simp] theorem State.modBay_groups (s : State) (b : Nat) (f : Bay → Bay) : (s.modBay b f).groups = s.groups := rfl
@[simp] theorem State.modBay_laths (s : State) (b : Nat) (f : Bay → Bay) : (s.modBay b f).laths = s.laths := rfl
@[simp] theorem State.modBay_tables (s : State) (b : Nat) (f : Bay → Bay) : (s.modBay b f).tables = s.tables := rfl
@[simp] theorem State.modBay_families (s : State) (b : Nat) (f : Bay → Bay) : (s.modBay b f).families = s.families := rfl
@[simp] theorem State.modBay_heldBuckets (s : State) (b : Nat) (f : Bay → Bay) : (s.modBay b f).heldBuckets = s.heldBuckets := rfl
@[simp] theorem State.modBay_parts (s : State) (b : Nat) (f : Bay → Bay) : (s.modBay b f).parts = s.parts := rfl
@[simp] theorem State.modBay_jobs (s : State) (b : Nat) (f : Bay → Bay) : (s.modBay b f).jobs = s.jobs := rfl
@[simp] theorem State.modBay_jobClock (s : State) (b : Nat) (f : Bay → Bay) : (s.modBay b f).jobClock = s.jobClock := rfl
@[simp] theorem State.modBay_faultClock (s : State) (b : Nat) (f : Bay → Bay) : (s.modBay b f).faultClock = s.faultClock := rfl
@[simp] theorem State.modBay_clk (s : State) (b : Nat) (f : Bay → Bay) : (s.modBay b f).clk = s.clk := rfl
@[simp] theorem State.modBay_remap (s : State) (b : Nat) (f : Bay → Bay) : (s.modBay b f).remap = s.remap := rfl
@[simp] theorem State.modBay_boot (s : State) (b : Nat) (f : Bay → Bay) : (s.modBay b f).boot = s.boot := rfl
@[simp] theorem State.modBay_foreman (s : State) (b : Nat) (f : Bay → Bay) : (s.modBay b f).foreman = s.foreman := rfl
@[simp] theorem State.modBay_homes (s : State) (b : Nat) (f : Bay → Bay) : (s.modBay b f).homes = s.homes := rfl
@[simp] theorem State.modBay_pfmsix (s : State) (b : Nat) (f : Bay → Bay) : (s.modBay b f).pfmsix = s.pfmsix := rfl
@[simp] theorem State.modBay_outbox (s : State) (b : Nat) (f : Bay → Bay) : (s.modBay b f).outbox = s.outbox := rfl
@[simp] theorem State.modBay_bent (s : State) (b : Nat) (f : Bay → Bay) (n : Nat) : (s.modBay b f).bent n = s.bent n := rfl
@[simp] theorem State.modBay_part (s : State) (b : Nat) (f : Bay → Bay) (n : Nat) : (s.modBay b f).part n = s.part n := rfl
@[simp] theorem State.modBay_job (s : State) (b : Nat) (f : Bay → Bay) (n : Nat) : (s.modBay b f).job n = s.job n := rfl
@[simp] theorem State.modBay_lathAt (s : State) (b : Nat) (f : Bay → Bay) (n : Nat) : (s.modBay b f).lathAt n = s.lathAt n := rfl
@[simp] theorem State.modBay_chain (s : State) (b : Nat) (f : Bay → Bay) (n : Nat) : (s.modBay b f).chain n = s.chain n := rfl
@[simp] theorem State.modBay_group (s : State) (b : Nat) (f : Bay → Bay) (n : Nat) : (s.modBay b f).group n = s.group n := rfl
@[simp] theorem State.modBay_port (s : State) (b : Nat) (f : Bay → Bay) (n : Nat) : (s.modBay b f).port n = s.port n := rfl
@[simp] theorem State.modBay_jtr (s : State) (b : Nat) (f : Bay → Bay) (c p : Nat) : (s.modBay b f).jtr c p = s.jtr c p := rfl
@[simp] theorem State.modBay_bay_same (s : State) (b : Nat) (f : Bay → Bay) : (s.modBay b f).bay b = f (s.bay b) := Tab.get_put_same _ _ _ _
theorem State.modBay_bay (s : State) (b : Nat) (f : Bay → Bay) (c : Nat) : (s.modBay b f).bay c = if c = b then f (s.bay b) else s.bay c := Tab.get_put _ _ _ _ _

@[simp] theorem State.fresh_agenda (s : State) : s.fresh.2.agenda = s.agenda := rfl
@[simp] theorem State.fresh_cur (s : State) : s.fresh.2.cur = s.cur := rfl
@[simp] theorem State.fresh_clock (s : State) : s.fresh.2.clock = s.clock := rfl
@[simp] theorem State.fresh_bays (s : State) : s.fresh.2.bays = s.bays := rfl
@[simp] theorem State.fresh_bents (s : State) : s.fresh.2.bents = s.bents := rfl
@[simp] theorem State.fresh_mem (s : State) : s.fresh.2.mem = s.mem := rfl
@[simp] theorem State.fresh_tags (s : State) : s.fresh.2.tags = s.tags := rfl
@[simp] theorem State.fresh_meta (s : State) : s.fresh.2.meta_ = s.meta_ := rfl
@[simp] theorem State.fresh_metaJob (s : State) : s.fresh.2.metaJob = s.metaJob := rfl
@[simp] theorem State.fresh_caches (s : State) : s.fresh.2.caches = s.caches := rfl
@[simp] theorem State.fresh_jointers (s : State) : s.fresh.2.jointers = s.jointers := rfl
@[simp] theorem State.fresh_chains (s : State) : s.fresh.2.chains = s.chains := rfl
@[simp] theorem State.fresh_ports (s : State) : s.fresh.2.ports = s.ports := rfl
@[simp] theorem State.fresh_rowcnt (s : State) : s.fresh.2.rowcnt = s.rowcnt := rfl
@[simp] theorem State.fresh_holds (s : State) : s.fresh.2.holds = s.holds := rfl
@[simp] theorem State.fresh_groups (s : State) : s.fresh.2.groups = s.groups := rfl
@[simp] theorem State.fresh_laths (s : State) : s.fresh.2.laths = s.laths := rfl
@[simp] theorem State.fresh_tables (s : State) : s.fresh.2.tables = s.tables := rfl
@[simp] theorem State.fresh_families (s : State) : s.fresh.2.families = s.families := rfl
@[simp] theorem State.fresh_heldBuckets (s : State) : s.fresh.2.heldBuckets = s.heldBuckets := rfl
@[simp] theorem State.fresh_parts (s : State) : s.fresh.2.parts = s.parts := rfl
@[simp] theorem State.fresh_jobs (s : State) : s.fresh.2.jobs = s.jobs := rfl
@[simp] theorem State.fresh_jobClock (s : State) : s.fresh.2.jobClock = s.jobClock := rfl
@[simp] theorem State.fresh_faultClock (s : State) : s.fresh.2.faultClock = s.faultClock := rfl
@[simp] theorem State.fresh_clk (s : State) : s.fresh.2.clk = s.clk := rfl
@[simp] theorem State.fresh_remap (s : State) : s.fresh.2.remap = s.remap := rfl
@[simp] theorem State.fresh_boot (s : State) : s.fresh.2.boot = s.boot := rfl
@[simp] theorem State.fresh_foreman (s : State) : s.fresh.2.foreman = s.foreman := rfl
@[simp] theorem State.fresh_homes (s : State) : s.fresh.2.homes = s.homes := rfl
@[simp] theorem State.fresh_pfmsix (s : State) : s.fresh.2.pfmsix = s.pfmsix := rfl
@[simp] theorem State.fresh_outbox (s : State) : s.fresh.2.outbox = s.outbox := rfl
@[simp] theorem Bay.mark_plane (y : Bay) (i : Nat) : (y.mark i).plane = y.plane := rfl
@[simp] theorem Bay.mark_shadow (y : Bay) (i : Nat) : (y.mark i).shadow = y.shadow := rfl
@[simp] theorem Bay.mark_shadowFor (y : Bay) (i : Nat) : (y.mark i).shadowFor = y.shadowFor := rfl
@[simp] theorem Bay.mark_s (y : Bay) (i : Nat) : (y.mark i).s = y.s := rfl
@[simp] theorem Bay.mark_pc (y : Bay) (i : Nat) : (y.mark i).pc = y.pc := rfl
@[simp] theorem Bay.mark_adv (y : Bay) (i : Nat) : (y.mark i).adv = y.adv := rfl
@[simp] theorem Bay.mark_skip (y : Bay) (i : Nat) : (y.mark i).skip = y.skip := rfl
@[simp] theorem Bay.mark_lc (y : Bay) (i : Nat) : (y.mark i).lc = y.lc := rfl
@[simp] theorem Bay.mark_flags (y : Bay) (i : Nat) : (y.mark i).flags = y.flags := rfl
@[simp] theorem Bay.mark_cause (y : Bay) (i : Nat) : (y.mark i).cause = y.cause := rfl
@[simp] theorem Bay.mark_epc (y : Bay) (i : Nat) : (y.mark i).epc = y.epc := rfl
@[simp] theorem Bay.mark_tvecEn (y : Bay) (i : Nat) : (y.mark i).tvecEn = y.tvecEn := rfl
@[simp] theorem Bay.mark_tvecOff (y : Bay) (i : Nat) : (y.mark i).tvecOff = y.tvecOff := rfl
@[simp] theorem Bay.mark_tscratch (y : Bay) (i : Nat) : (y.mark i).tscratch = y.tscratch := rfl
@[simp] theorem Bay.mark_tIn (y : Bay) (i : Nat) : (y.mark i).tIn = y.tIn := rfl
@[simp] theorem Bay.mark_tEng (y : Bay) (i : Nat) : (y.mark i).tEng = y.tEng := rfl
@[simp] theorem Bay.mark_tHalt (y : Bay) (i : Nat) : (y.mark i).tHalt = y.tHalt := rfl
@[simp] theorem Bay.mark_tResume (y : Bay) (i : Nat) : (y.mark i).tResume = y.tResume := rfl
@[simp] theorem Bay.mark_frec0 (y : Bay) (i : Nat) : (y.mark i).frec0 = y.frec0 := rfl
@[simp] theorem Bay.mark_frec1 (y : Bay) (i : Nat) : (y.mark i).frec1 = y.frec1 := rfl
@[simp] theorem Bay.mark_frec2 (y : Bay) (i : Nat) : (y.mark i).frec2 = y.frec2 := rfl
@[simp] theorem Bay.mark_pend (y : Bay) (i : Nat) : (y.mark i).pend = y.pend := rfl
@[simp] theorem Bay.mark_evpend (y : Bay) (i : Nat) : (y.mark i).evpend = y.evpend := rfl
@[simp] theorem Bay.mark_jobkey (y : Bay) (i : Nat) : (y.mark i).jobkey = y.jobkey := rfl
@[simp] theorem Bay.mark_jobinfo (y : Bay) (i : Nat) : (y.mark i).jobinfo = y.jobinfo := rfl
@[simp] theorem Bay.mark_plumbseed (y : Bay) (i : Nat) : (y.mark i).plumbseed = y.plumbseed := rfl
@[simp] theorem Bay.mark_bankfmt (y : Bay) (i : Nat) : (y.mark i).bankfmt = y.bankfmt := rfl
@[simp] theorem Bay.mark_par (y : Bay) (i : Nat) : (y.mark i).par = y.par := rfl
@[simp] theorem Bay.mark_waiting (y : Bay) (i : Nat) : (y.mark i).waiting = y.waiting := rfl
@[simp] theorem Bay.mark_stores (y : Bay) (i : Nat) : (y.mark i).stores = y.stores := rfl
@[simp] theorem Bay.mark_seqHalted (y : Bay) (i : Nat) : (y.mark i).seqHalted = y.seqHalted := rfl
@[simp] theorem Bay.mark_vecHalted (y : Bay) (i : Nat) : (y.mark i).vecHalted = y.vecHalted := rfl
@[simp] theorem Bay.mark_v (y : Bay) (i : Nat) : (y.mark i).v = y.v := rfl
@[simp] theorem Bay.mark_m (y : Bay) (i : Nat) : (y.mark i).m = y.m := rfl
@[simp] theorem Bay.mark_l (y : Bay) (i : Nat) : (y.mark i).l = y.l := rfl
@[simp] theorem Bay.mark_w (y : Bay) (i : Nat) : (y.mark i).w = y.w := rfl
@[simp] theorem Bay.mark_vreg (y : Bay) (i : Nat) : (y.mark i).vreg = y.vreg := rfl
@[simp] theorem Bay.mark_preg (y : Bay) (i : Nat) : (y.mark i).preg = y.preg := rfl
@[simp] theorem Bay.mark_vshape (y : Bay) (i : Nat) : (y.mark i).vshape = y.vshape := rfl
@[simp] theorem Bay.mark_cnt (y : Bay) (i : Nat) : (y.mark i).cnt = y.cnt := rfl
@[simp] theorem Bay.mark_rsv (y : Bay) (i : Nat) : (y.mark i).rsv = y.rsv := rfl
@[simp] theorem Bay.mark_chan (y : Bay) (i : Nat) : (y.mark i).chan = y.chan := rfl
@[simp] theorem Bay.mark_xseq (y : Bay) (i : Nat) : (y.mark i).xseq = y.xseq := rfl
@[simp] theorem Bay.mark_lines (y : Bay) (i : Nat) : (y.mark i).lines = y.lines := rfl
@[simp] theorem Bay.mark_reds (y : Bay) (i : Nat) : (y.mark i).reds = y.reds := rfl
@[simp] theorem Bay.mark_truss (y : Bay) (i : Nat) : (y.mark i).truss = y.truss := rfl
@[simp] theorem Bay.mark_dirtyLines (y : Bay) (i : Nat) : (y.mark i).dirtyLines = y.dirtyLines := rfl
@[simp] theorem Bay.mark_arrived (y : Bay) (i : Nat) : (y.mark i).arrived = y.arrived := rfl
@[simp] theorem Bay.mark_phased (y : Bay) (i : Nat) : (y.mark i).phased = y.phased := rfl
@[simp] theorem Bay.mark_hold (y : Bay) (i : Nat) : (y.mark i).hold = y.hold := rfl
@[simp] theorem Bay.mark_fetchNext (y : Bay) (i : Nat) : (y.mark i).fetchNext = y.fetchNext := rfl
@[simp] theorem Bay.mark_fetched (y : Bay) (i : Nat) : (y.mark i).fetched = y.fetched := rfl
@[simp] theorem Bay.mark_slot (y : Bay) (i : Nat) : (y.mark i).slot = y.slot := rfl
@[simp] theorem Bay.mark_index (y : Bay) (i : Nat) : (y.mark i).index = y.index := rfl
@[simp] theorem Bay.mark_live (y : Bay) (i : Nat) : (y.mark i).live = y.live := rfl
@[simp] theorem Bay.mark_dlo (y : Bay) (i : Nat) : (y.mark i).dlo = y.dlo := rfl
@[simp] theorem Bay.mark_dhi (y : Bay) (i : Nat) : (y.mark i).dhi = y.dhi := rfl
@[simp] theorem Bay.mark_merge (y : Bay) (i : Nat) : (y.mark i).merge = y.merge := rfl
@[simp] theorem Bay.mark_mergedAt (y : Bay) (i : Nat) : (y.mark i).mergedAt = y.mergedAt := rfl
@[simp] theorem Bay.mark_merged (y : Bay) (i : Nat) : (y.mark i).merged = y.merged := rfl
@[simp] theorem Bay.mark_mergeDone (y : Bay) (i : Nat) : (y.mark i).mergeDone = y.mergeDone := rfl

theorem State.modBay_eta (s : State) (b : Nat) (f : Bay → Bay) :
    s.modBay b f = { s with bays := (s.modBay b f).bays, tick := (s.modBay b f).tick } := rfl

theorem State.setJtr_eta (s : State) (c p : Nat) (x : Jointer) :
    s.setJtr c p x = { s with jointers := (s.setJtr c p x).jointers, tick := (s.setJtr c p x).tick } := rfl

/-- Two changes of one bay are one. -/
theorem State.modBay_modBay (s : State) (b : Nat) (f g : Bay → Bay) : (s.modBay b f).modBay b g = s.modBay b fun y => g (f y) := by
  simp only [State.modBay, State.setBay, State.bay, Tab.get_put_same, Tab.put_put]

theorem State.setBay_setBay (s : State) (b : Nat) (x y : Bay) : (s.setBay b x).setBay b y = s.setBay b y := by
  simp only [State.setBay, Tab.put_put]

theorem State.setJtr_setJtr (s : State) (c p : Nat) (x y : Jointer) : (s.setJtr c p x).setJtr c p y = s.setJtr c p y := by
  simp only [State.setJtr, Tab.put_put]


end Sys2Proof.Machine
end

