-- ==== Sys2Proof/Laws/Memory.lean ====
section
/-! SUPPORT. The memory: reading after writing, and the canonical form kept by every operation on it (log 2). -/

namespace Sys2Proof.Machine

/-! ### The canonical form -/

/-- The form in two parts: addresses strictly rising, and no entry equal to what an unlisted address reads as. -/
theorem Memory.wf_iff : ∀ m : Memory, Memory.wf m = true ↔ m.Pairwise (fun x y => x.1 < y.1) ∧ ∀ x ∈ m, x.2 ≠ unlisted
  | [] => by simp [Memory.wf]
  | [(a, v)] => by simp [Memory.wf]
  | (a, v) :: (b, u) :: t => by
    have ih := Memory.wf_iff ((b, u) :: t)
    simp only [Memory.wf, Bool.and_eq_true, decide_eq_true_eq, bne_iff_ne, ih, List.pairwise_cons, List.mem_cons, forall_eq_or_imp]
    constructor
    · rintro ⟨⟨h1, h2⟩, ⟨h3, h4⟩, h5, h6⟩
      exact ⟨⟨⟨h1, fun x hx => Nat.lt_trans h1 (h3 x hx)⟩, h3, h4⟩, h2, h5, h6⟩
    · rintro ⟨⟨⟨h1, _⟩, h3, h4⟩, h2, h5, h6⟩
      exact ⟨⟨h1, h2⟩, ⟨h3, h4⟩, h5, h6⟩

theorem Tab.mem_erase {α : Type} {k : Nat} {x : Nat × α} : ∀ {l : Tab α}, x ∈ Tab.erase k l → x ∈ l ∧ x.1 ≠ k
  | [], h => by simp [Tab.erase] at h
  | (k', v) :: t, h => by
    by_cases e : k = k'
    · have := Tab.mem_erase (l := t) (by simpa [Tab.erase, e] using h)
      exact ⟨List.mem_cons_of_mem _ this.1, e ▸ this.2⟩
    · simp only [Tab.erase, if_neg e, List.mem_cons] at h
      rcases h with rfl | h
      · exact ⟨List.mem_cons_self .., fun q => e q.symm⟩
      · have := Tab.mem_erase (l := t) h
        exact ⟨List.mem_cons_of_mem _ this.1, this.2⟩

theorem Tab.erase_sublist {α : Type} (k : Nat) : ∀ l : Tab α, (Tab.erase k l).Sublist l
  | [] => List.Sublist.refl _
  | (k', v) :: t => by
    by_cases e : k = k'
    · simpa [Tab.erase, e] using (e ▸ Tab.erase_sublist k t).cons (k', v)
    · simpa [Tab.erase, e] using (Tab.erase_sublist k t).cons_cons (k', v)

theorem Tab.mem_insert {α : Type} {k : Nat} {v : α} {x : Nat × α} : ∀ {l : Tab α}, x ∈ Tab.insert k v l → x = (k, v) ∨ x ∈ l
  | [], h => by simpa [Tab.insert] using h
  | (k', v') :: t, h => by
    by_cases e : k < k'
    · simpa [Tab.insert, e] using h
    · simp only [Tab.insert, if_neg e, List.mem_cons] at h
      rcases h with rfl | h
      · exact .inr (List.mem_cons_self ..)
      · rcases Tab.mem_insert h with r | r
        · exact .inl r
        · exact .inr (List.mem_cons_of_mem _ r)

theorem Tab.insert_sorted {α : Type} {k : Nat} {v : α} : ∀ {l : Tab α}, l.Pairwise (fun x y => x.1 < y.1) → (∀ x ∈ l, x.1 ≠ k) →
    (Tab.insert k v l).Pairwise (fun x y => x.1 < y.1)
  | [], _, _ => by simp [Tab.insert]
  | (k', v') :: t, h, hk => by
    rw [List.pairwise_cons] at h
    by_cases e : k < k'
    · simp only [Tab.insert, if_pos e, List.pairwise_cons, List.mem_cons]
      refine ⟨?_, h⟩
      rintro x (rfl | hx)
      · exact e
      · exact Nat.lt_trans e (h.1 x hx)
    · have hne := hk (k', v') (List.mem_cons_self ..)
      simp only [Tab.insert, if_neg e, List.pairwise_cons]
      refine ⟨fun x hx => ?_, Tab.insert_sorted h.2 fun x hx => hk x (List.mem_cons_of_mem _ hx)⟩
      rcases Tab.mem_insert hx with rfl | hx
      · simp only at hne ⊢
        omega
      · exact h.1 x hx

/-- A write of one byte keeps the form. -/
theorem Memory.wf_write {m : Memory} (h : Memory.wf m = true) (a : Nat) (b : Byte) : Memory.wf (Memory.write m a b) = true := by
  rw [Memory.wf_iff] at h ⊢
  have he := h.1.sublist (Tab.erase_sublist a m)
  unfold Memory.write Tab.set
  split
  · exact ⟨he, fun x hx => h.2 x (Tab.mem_erase hx).1⟩
  · refine ⟨Tab.insert_sorted he fun x hx => (Tab.mem_erase hx).2, fun x hx => ?_⟩
    rcases Tab.mem_insert hx with rfl | hx
    · assumption
    · exact h.2 x (Tab.mem_erase hx).1

/-- A write of bytes keeps the form. -/
theorem Memory.wf_writeBytes (l : List Byte) : ∀ {m : Memory}, Memory.wf m = true → ∀ a, Memory.wf (Memory.writeBytes m a l) = true := by
  induction l with
  | nil => exact fun h _ => h
  | cons b t ih => exact fun h a => ih (Memory.wf_write h a b) (a + 1)

/-- Dropping entries keeps the form. -/
theorem Memory.wf_filter {m : Memory} (h : Memory.wf m = true) (f : Host.Cell → Bool) : Memory.wf (List.filter f m) = true := by
  rw [Memory.wf_iff] at h ⊢
  exact ⟨h.1.sublist List.filter_sublist, fun x hx => h.2 x (List.mem_of_mem_filter hx)⟩

/-- Writing a list of cells keeps the form. -/
theorem Memory.wf_writeCells (f : Host.Cell → Nat) (l : List Host.Cell) :
    ∀ {m : Memory}, Memory.wf m = true → Memory.wf (l.foldl (fun (m : Memory) (c : Host.Cell) => Memory.write m (f c) c.2) m) = true := by
  induction l with
  | nil => exact fun h => h
  | cons c t ih => exact fun h => ih (Memory.wf_write h (f c) c.2)

/-! ### Reading after writing -/

theorem Memory.read_write (m : Memory) (a x : Nat) (b : Byte) : Memory.read (Memory.write m a b) x = if x = a then b else Memory.read m x :=
  Tab.get_set _ _ _ _ _

/-- A byte outside a write reads as before. -/
theorem Memory.read_writeBytes_outside (l : List Byte) : ∀ (m : Memory) (a x : Nat), x < a ∨ a + l.length ≤ x →
    Memory.read (Memory.writeBytes m a l) x = Memory.read m x := by
  induction l with
  | nil => intros; rfl
  | cons b t ih =>
    intro m a x h
    simp only [List.length_cons] at h
    rw [Memory.writeBytes, ih _ _ _ (by omega), Memory.read_write, if_neg (by omega)]

/-- A byte inside a write reads as written. -/
theorem Memory.read_writeBytes_inside (l : List Byte) : ∀ (m : Memory) (a i : Nat), i < l.length →
    Memory.read (Memory.writeBytes m a l) (a + i) = nth 0 l i := by
  induction l with
  | nil => intro m a i h; simp at h
  | cons b t ih =>
    intro m a i h
    cases i with
    | zero =>
      rw [Memory.writeBytes, Memory.read_writeBytes_outside t _ _ _ (by omega), Memory.read_write, if_pos (by omega)]
      rfl
    | succ i =>
      have := ih (m.write a b) (a + 1) i (by simpa using h)
      rw [Memory.writeBytes, show a + (i + 1) = a + 1 + i by omega, this]
      rfl

/-! ### The one operation that stores -/

@[simp] theorem State.dirtyLine_mem (s : State) (a : Nat) : (s.dirtyLine a).mem = s.mem := by
  unfold State.dirtyLine
  split <;> rfl

/-- What a store does to the memory. -/
@[simp] theorem State.write_mem (s : State) (a : Nat) (l : List Byte) : (s.write a l).mem = Memory.writeBytes s.mem a l := by
  unfold State.write
  split <;> simp

theorem State.write_wf {s : State} (h : Memory.wf s.mem = true) (a : Nat) (l : List Byte) : Memory.wf (s.write a l).mem = true := by
  rw [State.write_mem]
  exact Memory.wf_writeBytes l h a

theorem State.writePieces_wf : ∀ (l : List Piece) {s : State}, Memory.wf s.mem = true → Memory.wf (s.writePieces l).mem = true
  | [], _, h => h
  | p :: t, _, h => State.writePieces_wf t (State.write_wf h p.addr p.bytes)

end Sys2Proof.Machine
end

