-- ==== Sys2Proof/Laws/Scalar.lean ====
section
/-! SUPPORT. What a scalar word's retirement and its write to a scalar register do. -/

namespace Sys2Proof.Machine

theorem OnlyActor.sameMem {s t : State} {fb : Bay → Bay → Bay} {fj : Jointer → Jointer → Jointer} (h : OnlyActor s t fb fj) : SameMem s t := by
  unfold OnlyActor at h
  intro a
  split at h
  · rw [h.1]
  · rw [h.1]
  · rw [h]

theorem OnlyActor.stream {s t : State} {fb : Bay → Bay → Bay} {fj : Jointer → Jointer → Jointer} {b : Nat} {e : Eng} (hc : s.cur = .stream b e)
    (h1 : t = { s with bays := t.bays, tick := t.tick }) (h2 : ∀ c, c ≠ b → t.bay c = s.bay c) (h3 : t.bay b = fb (s.bay b) (t.bay b)) :
    OnlyActor s t fb fj := by
  unfold OnlyActor
  split <;> rename_i heq
  · rw [hc] at heq
    cases heq
    exact ⟨h1, h2, h3⟩
  · rw [hc] at heq
    cases heq
  · rename_i h
    exact (h _ _ hc).elim

theorem OnlyActor.jointer {s t : State} {fb : Bay → Bay → Bay} {fj : Jointer → Jointer → Jointer} {c p : Nat} (hc : s.cur = .jointer c p)
    (h1 : t = { s with jointers := t.jointers, tick := t.tick })
    (h2 : ∀ k, k ≠ jkey c p → Tab.get {} t.jointers k = Tab.get {} s.jointers k) (h3 : t.jtr c p = fj (s.jtr c p) (t.jtr c p)) :
    OnlyActor s t fb fj := by
  unfold OnlyActor
  split <;> rename_i heq
  · rw [hc] at heq
    cases heq
  · rw [hc] at heq
    cases heq
    exact ⟨h1, h2, h3⟩
  · exact (heq _ _ hc).elim

theorem State.setJtr_get_ne (s : State) (c p : Nat) (x : Jointer) {k : Nat} (h : k ≠ jkey c p) :
    Tab.get {} (s.setJtr c p x).jointers k = Tab.get {} s.jointers k := Tab.get_put_ne _ _ _ h

theorem State.modBay_bay_ne (s : State) (b : Nat) (f : Bay → Bay) {c : Nat} (h : c ≠ b) : (s.modBay b f).bay c = s.bay c := by
  rw [State.modBay_bay, if_neg h]

theorem State.setBay_bay_ne (s : State) (b : Nat) (x : Bay) {c : Nat} (h : c ≠ b) : (s.setBay b x).bay c = s.bay c := by
  rw [State.setBay_bay, if_neg h]

/-- The acting agent stays the same. -/
@[simp] theorem State.writeS_cur (s : State) (d : BitVec 5) (v : Word) : (s.writeS d v).cur = s.cur := by
  unfold State.writeS
  split
  · rfl
  · split <;> rfl

@[simp] theorem State.setPc_cur (s : State) (v : BitVec 16) (a : Bool) : (s.setPc v a).cur = s.cur := by
  unfold State.setPc State.movePc
  split <;> rfl

theorem State.onScalar_cases {s : State} (h : s.onScalar) : (∃ b, s.cur = .stream b .S) ∨ ∃ c p, s.cur = .jointer c p := by
  unfold State.onScalar at h
  split at h
  · subst h
    exact .inl ⟨_, by assumption⟩
  · exact .inr ⟨_, _, by assumption⟩
  · exact h.elim

/-- A scalar register after a write. -/
theorem State.readS_writeS {s : State} (h : s.onScalar) (d r : BitVec 5) (v : Word) :
    (s.writeS d v).readS r = if r = d then (if d = 0 then 0 else v) else s.readS r := by
  by_cases hd : d = 0
  · subst hd
    by_cases hr : r = 0
    · rw [if_pos hr, hr]
      rfl
    · rw [if_neg hr]
      rfl
  · by_cases hr : r = 0
    · rw [hr, if_neg (Ne.symm hd)]
      rfl
    · have e : r.toNat = d.toNat ↔ r = d := BitVec.toNat_inj
      obtain ⟨b, hc⟩ | ⟨c, p, hc⟩ := State.onScalar_cases h
      · have hw : (s.writeS d v).cur = .stream b .S := by rw [State.writeS_cur, hc]
        simp only [State.readS, if_neg hr, hw, hc]
        simp only [State.writeS, if_neg hd, hc, State.modBay_bay_same, Bay.mark_s, Tab.get_set, e]
      · have hw : (s.writeS d v).cur = .jointer c p := by rw [State.writeS_cur, hc]
        simp only [State.readS, if_neg hr, hw, hc]
        simp only [State.writeS, if_neg hd, hc, State.setJtr_jtr_same, Tab.get_set, e]

@[simp] theorem State.writeS_pc (s : State) (d : BitVec 5) (v : Word) : (s.writeS d v).pc = s.pc := by
  by_cases hd : d = 0
  · rw [State.writeS, if_pos hd]
  · cases hc : s.cur with
    | stream b e =>
      simp only [State.pc, State.writeS_cur, hc]
      cases e <;> simp only [State.writeS, if_neg hd, hc, State.modBay_bay_same, Bay.mark_pc]
    | jointer c p =>
      simp only [State.pc, State.writeS_cur, hc]
      simp only [State.writeS, if_neg hd, hc, State.setJtr_jtr_same]
    | lath n => simp only [State.pc, State.writeS_cur, hc]
    | none => simp only [State.pc, State.writeS_cur, hc]

theorem State.setPc_seq {s : State} {b : Nat} (hc : s.cur = .stream b .S) (v : BitVec 16) (a : Bool) :
    s.setPc v a = s.modBay b fun y =>
      { y with pc := v, adv := a, skip := false, waiting := none, hold := false, fetched := if a then y.fetched - 4 else 0 }.mark markPc := by
  rw [State.setPc, State.movePc, hc]

theorem State.setPc_jtr {s : State} {c p : Nat} (hc : s.cur = .jointer c p) (v : BitVec 16) (a : Bool) :
    s.setPc v a = s.setJtr c p { s.jtr c p with pc := v, adv := a, skip := false } := by
  rw [State.setPc, State.movePc, hc]

theorem State.setPc_readS {s : State} (h : s.onScalar) (v : BitVec 16) (a : Bool) (r : BitVec 5) : (s.setPc v a).readS r = s.readS r := by
  obtain ⟨b, hc⟩ | ⟨c, p, hc⟩ := State.onScalar_cases h
  · simp only [State.readS, State.setPc_cur, hc]
    rw [State.setPc_seq hc, State.modBay_bay_same]
    rfl
  · simp only [State.readS, State.setPc_cur, hc]
    rw [State.setPc_jtr hc, State.setJtr_jtr_same]

theorem State.setPc_pc {s : State} (h : s.onScalar) (v : BitVec 16) (a : Bool) : (s.setPc v a).pc = v := by
  obtain ⟨b, hc⟩ | ⟨c, p, hc⟩ := State.onScalar_cases h
  · simp only [State.pc, State.setPc_cur, hc]
    rw [State.setPc_seq hc, State.modBay_bay_same]
    rfl
  · simp only [State.pc, State.setPc_cur, hc]
    rw [State.setPc_jtr hc, State.setJtr_jtr_same]

/-- A word that retires or jumps moves the program counter and nothing else of the architecture. -/
theorem setPc_onlyActor {s : State} (h : s.onScalar) (v : BitVec 16) (a : Bool) : OnlyActor s (s.setPc v a) seqMoves jtrMoves := by
  obtain ⟨b, hc⟩ | ⟨c, p, hc⟩ := State.onScalar_cases h
  · rw [State.setPc_seq hc]
    refine OnlyActor.stream hc rfl (fun c hne => State.modBay_bay_ne _ _ _ hne) ?_
    rw [State.modBay_bay_same]
    rfl
  · rw [State.setPc_jtr hc]
    refine OnlyActor.jointer hc rfl (fun k hk => State.setJtr_get_ne _ _ _ _ hk) ?_
    rw [State.setJtr_jtr_same]
    rfl

theorem writeS_setPc_onlyActor {s : State} (h : s.onScalar) (d : BitVec 5) (w : Word) (v : BitVec 16) (a : Bool) :
    OnlyActor s ((s.writeS d w).setPc v a) seqWrites jtrWrites := by
  obtain ⟨b, hc⟩ | ⟨c, p, hc⟩ := State.onScalar_cases h
  · have hw : (s.writeS d w).cur = .stream b .S := by rw [State.writeS_cur, hc]
    rw [State.setPc_seq hw]
    by_cases hd : d = 0
    · simp only [State.writeS, if_pos hd]
      refine OnlyActor.stream hc rfl (fun c hne => State.modBay_bay_ne _ _ _ hne) ?_
      rw [State.modBay_bay_same]
      rfl
    · simp only [State.writeS, if_neg hd, hc]
      refine OnlyActor.stream hc rfl (fun c hne => by rw [State.modBay_bay_ne _ _ _ hne, State.modBay_bay_ne _ _ _ hne]) ?_
      rw [State.modBay_bay_same, State.modBay_bay_same]
      rfl
  · have hw : (s.writeS d w).cur = .jointer c p := by rw [State.writeS_cur, hc]
    rw [State.setPc_jtr hw]
    by_cases hd : d = 0
    · simp only [State.writeS, if_pos hd]
      refine OnlyActor.jointer hc rfl (fun k hk => State.setJtr_get_ne _ _ _ _ hk) ?_
      rw [State.setJtr_jtr_same]
      rfl
    · simp only [State.writeS, if_neg hd, hc]
      refine OnlyActor.jointer hc rfl (fun k hk => by rw [State.setJtr_get_ne _ _ _ _ hk, State.setJtr_get_ne _ _ _ _ hk]) ?_
      rw [State.setJtr_jtr_same, State.setJtr_jtr_same]
      rfl

/-- A scalar word writes sd and retires. -/
theorem wrote_retire {s : State} (h : s.onScalar) (d : BitVec 5) (v : Word) : Wrote s (s.writeS d v).retire d v := by
  have h' : (s.writeS d v).onScalar := by simpa [State.onScalar] using h
  have rest : OnlyActor s (s.writeS d v).retire seqWrites jtrWrites := writeS_setPc_onlyActor h d v _ true
  refine ⟨?_, fun r hr => ?_, ?_, rest.sameMem, rest⟩
  · rw [State.retire, State.setPc_readS h', State.readS_writeS h, if_pos rfl]
  · rw [State.retire, State.setPc_readS h', State.readS_writeS h, if_neg hr]
  · rw [State.retire, State.setPc_pc h', State.writeS_pc]

/-- A scalar word's meaning on an agent that has it. -/
theorem State.scalar_ok {s t : State} (h : s.onScalar) {f : Except Stop State} (hf : f = .ok t) : s.scalar f = .next t := by
  unfold State.onScalar at h
  subst hf
  unfold State.scalar
  cases hc : s.cur with
  | stream b e => rw [hc] at h; simp only at h; subst h; rfl
  | jointer c p => rfl
  | lath n => rw [hc] at h; exact h.elim
  | none => rw [hc] at h; exact h.elim

/-- A scalar word that writes one register. -/
theorem writes_of {s : State} (h : s.onScalar) {i : Instr} {d : BitVec 5} {v : Word} (hi : exec i s = s.scalar (.ok (s.writeS d v).retire)) :
    Writes i s d v := ⟨_, hi.trans (State.scalar_ok h rfl), wrote_retire h d v⟩

end Sys2Proof.Machine
end

