-- ==== Sys2Proof/Laws/Vector.lean ====
section
/-! SUPPORT. Lanes: packing and unpacking a register, mapping under a guard, and what a lane word does. -/

namespace Sys2Proof.Machine

/-! ### Packing -/

theorem unpack_length (w : Nat) : ∀ n x, (unpack w n x).length = n
  | 0, _ => rfl
  | n + 1, x => by simp [unpack, unpack_length w n]

/-- Lane `i` of an unpacked register. -/
theorem unpack_getD (w : Nat) : ∀ n x i, i < n → (unpack w n x).getD i 0 = x / 2 ^ (i * w) % 2 ^ w
  | n + 1, x, 0, _ => by simp [unpack]
  | n + 1, x, i + 1, h => by
    simp only [unpack, List.getD_cons_succ]
    rw [unpack_getD w n _ i (by omega), Nat.div_div_eq_div_mul, ← Nat.pow_add, Nat.add_mul, Nat.one_mul, Nat.add_comm w]

theorem pack_lt (w : Nat) : ∀ l : List Nat, pack w l < 2 ^ (l.length * w)
  | [] => by simp [pack]
  | x :: t => by
    have h1 := pack_lt w t
    have h2 := Nat.mod_lt x (Nat.two_pow_pos w)
    have h3 : 2 ^ w * (pack w t + 1) ≤ 2 ^ w * 2 ^ (t.length * w) := Nat.mul_le_mul_left _ h1
    simp only [pack, List.length_cons, Nat.add_mul, Nat.one_mul, Nat.pow_add]
    rw [Nat.mul_comm (2 ^ (t.length * w))]
    rw [Nat.mul_add] at h3
    omega

/-- Lane `i` of a packed register. -/
theorem pack_lane (w : Nat) : ∀ (l : List Nat) i, i < l.length → pack w l / 2 ^ (i * w) % 2 ^ w = l.getD i 0 % 2 ^ w
  | x :: t, 0, _ => by simp [pack, Nat.add_mul_mod_self_left]
  | x :: t, i + 1, h => by
    have hi : i < t.length := by simpa using h
    simp only [pack, List.getD_cons_succ, Nat.add_mul, Nat.one_mul]
    rw [← pack_lane w t i hi, Nat.add_comm (i * w) w, Nat.pow_add, ← Nat.div_div_eq_div_mul,
      Nat.add_mul_div_left _ _ (Nat.two_pow_pos w), Nat.div_eq_of_lt (Nat.mod_lt x (Nat.two_pow_pos w)), Nat.zero_add]

theorem lane_mod {x w n : Nat} (h : n < lanesOf w) : x % 2 ^ 4096 / 2 ^ (n * w) % 2 ^ w = x / 2 ^ (n * w) % 2 ^ w := by
  have h1 : (n + 1) * w ≤ 4096 := by
    have : (n + 1) * w ≤ 4096 / w * w := Nat.mul_le_mul_right w h
    exact Nat.le_trans this (Nat.div_mul_le_self 4096 w)
  obtain ⟨r, hr⟩ := Nat.exists_eq_add_of_le h1
  have h2 : 2 ^ 4096 = 2 ^ (n * w) * (2 ^ w * 2 ^ r) := by
    rw [← Nat.pow_add, ← Nat.pow_add]
    congr 1
    rw [hr, Nat.add_mul]
    omega
  rw [h2, Nat.mod_mul_right_div_self, Nat.mod_mul_right_mod]

/-! ### Mapping -/

theorem testBit_succ_div (m n : Nat) : (m / 2).testBit n = m.testBit (n + 1) := by rw [Nat.testBit_succ]

theorem laneFlags_front (m : Nat) (f : Nat → BitVec 8) :
    ∀ n, laneFlags m f (n + 1) = (if m.testBit 0 then f 0 else 0) ||| laneFlags (m / 2) (fun i => f (i + 1)) n
  | 0 => by simp [laneFlags]
  | n + 1 => by
    rw [laneFlags, laneFlags_front m f n, laneFlags, testBit_succ_div, BitVec.or_assoc]

theorem mapLanes_length (f : Nat → Nat → Nat → Nat → Nat × BitVec 8) :
    ∀ (ds as bs : List Nat) (i m : Nat), as.length = ds.length → bs.length = ds.length → (mapLanes f i m ds as bs).1.length = ds.length
  | [], _, _, _, _, _, _ => by simp [mapLanes]
  | d :: ds, [], _, _, _, h, _ => by simp at h
  | d :: ds, _ :: _, [], _, _, _, h => by simp at h
  | d :: ds, a :: as, b :: bs, i, m, h1, h2 => by
    simp only [mapLanes, List.length_cons]
    rw [mapLanes_length f ds as bs _ _ (by simpa using h1) (by simpa using h2)]

/-- A lane of the result: the operation's where the guard leaves it active, the old one elsewhere. -/
theorem mapLanes_getD (f : Nat → Nat → Nat → Nat → Nat × BitVec 8) :
    ∀ (ds as bs : List Nat) (i m n : Nat), as.length = ds.length → bs.length = ds.length → n < ds.length →
      (mapLanes f i m ds as bs).1.getD n 0 =
        if m.testBit n then (f (i + n) (ds.getD n 0) (as.getD n 0) (bs.getD n 0)).1 else ds.getD n 0
  | [], _, _, _, _, _, _, _, h => by simp at h
  | d :: ds, [], _, _, _, _, h, _, _ => by simp at h
  | d :: ds, _ :: _, [], _, _, _, _, h, _ => by simp at h
  | d :: ds, a :: as, b :: bs, i, m, 0, _, _, _ => by
    simp only [mapLanes, List.getD_cons_zero, Nat.add_zero, Nat.testBit_zero]
    by_cases h : m % 2 = 1 <;> simp [h]
  | d :: ds, a :: as, b :: bs, i, m, n + 1, h1, h2, h3 => by
    simp only [mapLanes, List.getD_cons_succ]
    rw [mapLanes_getD f ds as bs _ _ n (by simpa using h1) (by simpa using h2) (by simpa using h3), testBit_succ_div,
      Nat.add_assoc, Nat.add_comm 1 n]

theorem mapLanes_flags (f : Nat → Nat → Nat → Nat → Nat × BitVec 8) :
    ∀ (ds as bs : List Nat) (i m : Nat), as.length = ds.length → bs.length = ds.length →
      (mapLanes f i m ds as bs).2 = laneFlags m (fun n => (f (i + n) (ds.getD n 0) (as.getD n 0) (bs.getD n 0)).2) ds.length
  | [], _, _, _, _, _, _ => by simp [mapLanes, laneFlags]
  | d :: ds, [], _, _, _, h, _ => by simp at h
  | d :: ds, _ :: _, [], _, _, _, h => by simp at h
  | d :: ds, a :: as, b :: bs, i, m, h1, h2 => by
    rw [List.length_cons, laneFlags_front]
    simp only [mapLanes, List.getD_cons_zero, Nat.add_zero, Nat.testBit_zero, List.getD_cons_succ]
    rw [mapLanes_flags f ds as bs _ _ (by simpa using h1) (by simpa using h2)]
    simp only [Nat.add_assoc, Nat.add_comm 1]
    by_cases h : m % 2 = 1 <;> simp [h]

theorem laneFlags_congr {m n : Nat} {f f' : Nat → BitVec 8} (h : ∀ k, k < n → f k = f' k) : laneFlags m f n = laneFlags m f' n := by
  induction n with
  | zero => rfl
  | succ n ih => rw [laneFlags, laneFlags, ih fun k hk => h k (by omega), h n (by omega)]

/-! ### Registers -/

theorem State.onVector_cases {s : State} (h : s.onVector) : (∃ b, s.cur = .stream b .V) ∨ ∃ c p, s.cur = .jointer c p := by
  unfold State.onVector at h
  split at h
  · subst h
    exact .inl ⟨_, by assumption⟩
  · exact .inr ⟨_, _, by assumption⟩
  · exact h.elim

theorem physReg_inj {wb r q : Nat} (hr : r < 64) (hq : q < 64) (h : physReg wb r = physReg wb q) : r = q := by
  unfold physReg at h
  split at h <;> split at h <;> omega

theorem wroteV_stream {s : State} {b : Nat} (hc : s.cur = .stream b .V) (d x : Nat) (fl : BitVec 8) :
    ((s.writeV d x).orFlags fl).retireV = s.modBay b fun y =>
      let n := physReg (vsWbase y.vshape) d
      ((((({ y with vreg := Tab.set 0 y.vreg n (BitVec.ofNat 4096 x) }.mark (32 + n)).setStream .V
        { y.v with flags := y.v.flags ||| fl }).mark markFlags).setStream .V
        { y.v with flags := y.v.flags ||| fl, pc := (s.bay b).v.pc + 4, adv := true, skip := false, issued := none, fetched := y.v.fetched - 4 }).mark markPc).setStream .V
        { y.v with flags := y.v.flags ||| fl, pc := (s.bay b).v.pc + 4, adv := true, skip := false, issued := none, fetched := y.v.fetched - 4, ordinal := y.v.ordinal + 1 } := by
  simp only [State.retireV, State.retire, State.countV, State.setPc, State.movePc, State.orFlags, State.writeV, State.vshape, State.modStream, State.pc,
    State.modBay_cur, hc, State.modBay_modBay, State.modBay_bay_same]
  rfl

theorem wroteV_jtr {s : State} {c p : Nat} (hc : s.cur = .jointer c p) (d x : Nat) (fl : BitVec 8) :
    ((s.writeV d x).orFlags fl).retireV = s.setJtr c p { s.jtr c p with
      vreg := Tab.set 0 (s.jtr c p).vreg d (BitVec.ofNat 4096 x), flags := (s.jtr c p).flags ||| fl, pc := (s.jtr c p).pc + 4, adv := true, skip := false,
      ordinal := (s.jtr c p).ordinal + 1 } := by
  simp only [State.retireV, State.retire, State.countV, State.setPc, State.movePc, State.orFlags, State.writeV, State.pc, State.setJtr_cur, hc,
    State.setJtr_setJtr, State.setJtr_jtr_same]

/-- What a vector word's writes and its retirement do: one register, flags and the program counter. -/
theorem wroteV {s : State} (h : s.onVector) (d x : Nat) (fl : BitVec 8) (hd : d < 64) {t : State} (ht : t = ((s.writeV d x).orFlags fl).retireV) :
    t.readV d = x % 2 ^ 4096 ∧ (∀ r, r < 64 → r ≠ d → t.readV r = s.readV r) ∧ t.flags = s.flags ||| fl ∧ t.pc = s.pc + 4 ∧
      OnlyActor s t (fun y z => vecMoves { y with vreg := z.vreg } z) (fun x z => jvecMoves { x with vreg := z.vreg } z) := by
  obtain ⟨b, hc⟩ | ⟨c, p, hc⟩ := State.onVector_cases h
  · rw [wroteV_stream hc] at ht
    have hu : t.cur = .stream b .V := by rw [ht]; exact hc
    have hb := congrArg (State.bay · b) ht
    simp only [State.modBay_bay_same] at hb
    refine ⟨?_, fun r hr hne => ?_, ?_, ?_, OnlyActor.stream hc ?_ (fun c hne => ?_) ?_⟩
    · simp only [State.readV, State.vshape, hu, hb, Bay.setStream, Bay.mark, Tab.get_set_same, BitVec.toNat_ofNat]
    · have hp : ∀ wb, physReg wb r ≠ physReg wb d := fun wb e => hne (physReg_inj hr hd e)
      simp only [State.readV, State.vshape, hu, hc, hb, Bay.setStream, Bay.mark, Tab.get_set, if_neg (hp _)]
    · simp only [State.flags, hu, hc, hb, Bay.setStream, Bay.stream, Bay.mark]
    · simp only [State.pc, hu, hc, hb, Bay.setStream, Bay.stream, Bay.mark]
    · rw [ht]
      exact State.modBay_eta _ _ _
    · rw [ht, State.modBay_bay_ne _ _ _ hne]
    · simp only [hb, vecMoves, Bay.setStream, Bay.mark]
  · rw [wroteV_jtr hc] at ht
    have hu : t.cur = .jointer c p := by rw [ht]; exact hc
    have hb := congrArg (State.jtr · c p) ht
    simp only [State.setJtr_jtr_same] at hb
    refine ⟨?_, fun r hr hne => ?_, ?_, ?_, OnlyActor.jointer hc ?_ (fun k hk => ?_) ?_⟩
    · simp only [State.readV, hu, hb, Tab.get_set_same, BitVec.toNat_ofNat]
    · simp only [State.readV, hu, hc, hb, Tab.get_set, if_neg hne]
    · simp only [State.flags, hu, hc, hb]
    · simp only [State.pc, hu, hc, hb]
    · rw [ht]
      exact State.setJtr_eta _ _ _ _
    · rw [ht, State.setJtr_get_ne _ _ _ _ hk]
    · simp only [hb, jvecMoves]

/-- A vector word's meaning on an agent that has it. -/
theorem State.vector_ok {s t : State} (h : s.onVector) {f : Except Stop State} (hf : f = .ok t) : s.vector f = .next t := by
  subst hf
  obtain ⟨b, hc⟩ | ⟨c, p, hc⟩ := State.onVector_cases h
  · simp only [State.vector, hc]
    rfl
  · simp only [State.vector, hc]
    rfl

/-! ### Lane words -/

theorem lanes_length (s : State) (r w : Nat) : (s.lanes r w).length = lanesOf w := unpack_length w _ _

theorem lanes_getD (s : State) (r w : Nat) {n : Nat} (h : n < lanesOf w) : (s.lanes r w).getD n 0 = s.lane r w n := unpack_getD w _ _ n h

/-- The lanes of operand b. -/
theorem operandB_spec (s : State) (b : Form) : (s.operandB s.vty b).length = lanesOf (fmtWidth s.vty) ∧
    ∀ n, n < lanesOf (fmtWidth s.vty) → (s.operandB s.vty b).getD n 0 = s.laneB b n := by
  cases b with
  | reg r => exact ⟨lanes_length _ _ _, fun n hn => lanes_getD _ _ _ hn⟩
  | k j =>
    refine ⟨List.length_replicate, fun n hn => ?_⟩
    simp only [State.operandB, State.laneB, List.getD_eq_getElem?_getD, List.getElem?_replicate, if_pos hn, Option.getD_some]
  | imm x =>
    refine ⟨List.length_replicate, fun n hn => ?_⟩
    simp only [State.operandB, State.laneB, List.getD_eq_getElem?_getD, List.getElem?_replicate, if_pos hn, Option.getD_some]

/-- The lanes that a mapped write leaves. -/
theorem writeLanes_map {s : State} (h : s.onVector) (d m w : Nat) (hd : d < 64)
    (F : Nat → Nat → Nat → Nat → Nat × BitVec 8) (as bs : List Nat) (ha : as.length = lanesOf w) (hb : bs.length = lanesOf w) {t : State}
    (ht : t = ((s.writeLanes d w (mapLanes F 0 m (s.lanes d w) as bs).1).orFlags (mapLanes F 0 m (s.lanes d w) as bs).2).retireV) :
    (∀ n, n < lanesOf w → t.lane d w n =
      if m.testBit n then (F n (s.lane d w n) (as.getD n 0) (bs.getD n 0)).1 % 2 ^ w else s.lane d w n) ∧
    t.flags = s.flags ||| laneFlags m (fun n => (F n (s.lane d w n) (as.getD n 0) (bs.getD n 0)).2) (lanesOf w) ∧
    (∀ r, r < 64 → r ≠ d → t.readV r = s.readV r) ∧ t.pc = s.pc + 4 ∧
    OnlyActor s t (fun y z => vecMoves { y with vreg := z.vreg } z) (fun x z => jvecMoves { x with vreg := z.vreg } z) := by
  have hl := lanes_length s d w
  obtain ⟨h1, h2, h3, h4, h5⟩ := wroteV h d _ _ hd ht
  refine ⟨fun n hn => ?_, ?_, h2, h4, h5⟩
  · rw [State.lane, h1, lane_mod hn, pack_lane w _ n (by rw [mapLanes_length _ _ _ _ _ _ (ha.trans hl.symm) (hb.trans hl.symm), hl]; exact hn),
      mapLanes_getD _ _ _ _ _ _ _ (ha.trans hl.symm) (hb.trans hl.symm) (by rw [hl]; exact hn), Nat.zero_add, lanes_getD s d w hn]
    split
    · rfl
    · exact Nat.mod_eq_of_lt (Nat.mod_lt _ (Nat.two_pow_pos w))
  · rw [h3, mapLanes_flags _ _ _ _ _ _ (ha.trans hl.symm) (hb.trans hl.symm), hl]
    congr 1
    exact laneFlags_congr fun n hn => by rw [Nat.zero_add, lanes_getD s d w hn]

/-- What a lane word does. -/
theorem laneWord_writes {s : State} (h : s.onVector) (g : Guard) (d a : BitVec 6) (b : Form) {ok : Nat → Bool}
    {f : State → Nat → Nat → Nat → Nat → Nat × BitVec 8} (hok : ok s.vty = true) :
    ∃ t, laneWord g d a b ok f s = .ok t ∧ WroteLanes s t g d.toNat (fmtWidth s.vty)
      (fun n => f s n (s.lane d.toNat (fmtWidth s.vty) n) (s.lane a.toNat (fmtWidth s.vty) n) (s.laneB b n)) := by
  obtain ⟨hl, hb⟩ := operandB_spec s b
  have hd : d.toNat < 64 := d.isLt
  have hm : (laneWord g d a b ok f s) = .ok ((s.writeLanes d.toNat (fmtWidth s.vty)
      (mapLanes (f s) 0 (s.active g) (s.lanes d.toNat (fmtWidth s.vty)) (s.lanes a.toNat (fmtWidth s.vty)) (s.operandB s.vty b)).1).orFlags
      (mapLanes (f s) 0 (s.active g) (s.lanes d.toNat (fmtWidth s.vty)) (s.lanes a.toNat (fmtWidth s.vty)) (s.operandB s.vty b)).2).retireV := by
    simp only [laneWord, State.typeE, hok, guardE, if_true]
  refine ⟨_, hm, ?_⟩
  obtain ⟨h1, h2, h3, h4, h5⟩ := writeLanes_map h d.toNat (s.active g) _ hd (f s) (s.lanes a.toNat _) (s.operandB s.vty b)
    (lanes_length _ _ _) hl rfl
  refine ⟨fun n hn => ?_, ⟨?_, h3, h4, h5.sameMem, h5⟩⟩
  · rw [h1 n hn, lanes_getD s a.toNat _ hn, hb n hn]
  · rw [h2]
    congr 1
    exact laneFlags_congr fun n hn => by rw [lanes_getD s a.toNat _ hn, hb n hn]

/-- A lane word as an instruction. -/
theorem writesLanes_of {s : State} (h : s.onVector) {i : Instr} (g : Guard) (d a : BitVec 6) (b : Form) {ok : Nat → Bool}
    {f : State → Nat → Nat → Nat → Nat → Nat × BitVec 8} (hi : exec i s = s.vector (laneWord g d a b ok f s)) (hok : ok s.vty = true) :
    WritesLanes i s g d (fun n => f s n (s.lane d.toNat (fmtWidth s.vty) n) (s.lane a.toNat (fmtWidth s.vty) n) (s.laneB b n)) := by
  obtain ⟨t, ht, hw⟩ := laneWord_writes h g d a b hok
  exact ⟨t, hi.trans (State.vector_ok h ht), hw⟩

end Sys2Proof.Machine
end

