-- ==== Sys2Proof/Tests/Slice0.lean ====
section
/-! SUPPORT. The model's own tests: words written out from the encoding tables, ill-formed terms, a witness for the hypotheses of each statement
(test_wit_<statement>), and a few single steps. Every expected value is read off the spec's tables and rules. -/

namespace Sys2Proof.Tests
open Sys2Proof Sys2Proof.Machine
set_option Elab.async false

/-! ### Encodings and well-formedness -/

/-- The words that the spec itself writes out: R41, R188, R270, R345. -/
theorem test_decode_examples : [decodeWord .seq 0x04000000, decodeWord .seq 0x68321400, decodeWord .seq 0x6A021228, decodeWord .seq 0x6C402708,
    decodeWord .mtx 0x08000000, decodeWord .mtx 0x82400000, decodeWord (.lath .gather) 0x20000004] =
    [.ok (.addi 0 0 0), .ok (.hset 3 4 5), .ok (.setpar 4 0x245), .ok (.getpar 4 0x4E1), .ok (.tlease 0 0 0), .ok (.tnop 2 2 0), .ok (.lckpt 4)] := rfl

/-- A word of zeros, a reserved opcode, a reserved field, an operand out of range, a misaligned pair, and a unit without the word (R54, R55). -/
theorem test_decode_refuses : [decodeWord .seq 0, decodeWord .seq 0xFE000000, decodeWord .seq 0x0C000040, decodeWord .seq 0x16000104,
    decodeWord .vec 0x01404000, decodeWord .seq 0x90000000] =
    [.error .allZero, .error .reservedOpcode, .error .reservedField, .error .outOfRange, .error .misaligned, .error .notAvailable] := rfl

/-- One ill-formed term for each check of `Instr.wf`. -/
theorem test_wf_refuses : ([.bfx 1 2 0 65, .bfxs 1 2 0 65, .bfi 1 2 0 65, .loop 0 1 0, .loopStrided 0 1 2 0, .loopStrided 0 1 3 4, .loopi 0 5 0,
    .loopr 0 1 2 0, .lds 1 2 3 3 0, .barinit 1 2 0, .bararr 1 2 0, .spawn 0, .setpar 1 0xFFF, .setpar 1 0x801, .getpar 1 0xFFF, .tkwait 0, .tksig 0,
    .jstat 1 9, .waitev 1 0, .waitev 1 64, .vadd ⟨false, true, 0⟩ 1 2 3, .vadd ⟨false, false, 1⟩ 1 2 3] : List Instr).all (fun i => !i.wf) = true := rfl

theorem test_wf_refuses_more : ([.vwadd ⟨false, false, 0⟩ 1 2 3, .vwmul ⟨false, false, 0⟩ 1 2 3, .vwmadd ⟨false, false, 0⟩ 1 2 3, .vcvt ⟨false, false, 0⟩ 1 2 63,
    .vnarrow ⟨false, false, 0⟩ 1 2 63, .vquant 1 2 63, .vdeq ⟨false, false, 0⟩ 1 2 63, .vlgcvt ⟨false, false, 0⟩ 1 2 63, .vzip ⟨false, false, 0⟩ 1 2 3,
    .vunzip ⟨false, false, 0⟩ 1 2, .vunzip ⟨false, false, 0⟩ 2 1, .vloop 0 0 1, .vloopi 0 0 1, .vpegw 0, .vpegs 0, .sloop 1 0, .idle 0,
    .lroute 0 1 0, .lmerge 0 1 2 1, .hrehash 1 0, .vld ⟨false, false, 0⟩ 0 1 7 1, .vst ⟨false, false, 0⟩ 0 1 7 1, .vloopr 0 0 0 1] : List Instr).all (fun i => !i.wf) = true := rfl

theorem test_wf_accepts : ([.bfx 1 2 0 64, .loopi 0 5 255, .jstat 1 8, .waitev 1 63, .setpar 1 0x800, .getpar 1 0x801] : List Instr).all Instr.wf = true := rfl

/-- Words from the encodings of R109, R110. -/
theorem test_decode_seq_1 : ([0x02465000, 0x03A88C01, 0x021EC002, 0x0226B403, 0x0228B404, 0x0321F805, 0x03497806, 0x03260407, 0x0218EC08,
      0x02D24409, 0x0298E80A, 0x0239480B, 0x02B1C40C, 0x0320CC0D, 0x0358B40E, 0x02E9740F, 0x0293E410, 0x03838811, 0x0307F012,
      0x02E4CC13] : List (BitVec 32)).map (decodeWord .seq) =
    [.ok (.add 4 12 20), .ok (.sub 26 17 3), .ok (.mul 1 29 16), .ok (.mulh 2 13 13), .ok (.mulhw 2 17 13), .ok (.div 18 3 30),
      .ok (.divw 20 18 30), .ok (.rem 18 12 1), .ok (.remw 1 17 27), .ok (.and 13 4 17), .ok (.or 9 17 26), .ok (.xor 3 18 18),
      .ok (.andn 11 3 17), .ok (.shl 18 1 19), .ok (.shr 21 17 13), .ok (.sar 14 18 29), .ok (.rol 9 7 25), .ok (.min 24 7 2), .ok (.max 16 15 28),
      .ok (.minw 14 9 19)] := rfl

/-- Words from the encodings of R109, R111, R112, R114. -/
theorem test_decode_seq_2 : ([0x02383414, 0x02A27415, 0x021F5416, 0x03190017, 0x03A50018, 0x02B98019, 0x059708CD, 0x07E43CAF, 0x0820DD96,
      0x0B497F1D, 0x0CE4802D, 0x0F558001, 0x10B28027, 0x12136255, 0x1573F63A, 0x17DDBF00, 0x16C89001, 0x19A6EF00, 0x18DF9601,
      0x1ACF1D00] : List (BitVec 32)).map (decodeWord .seq) =
    [.ok (.maxw 3 16 13), .ok (.slt 10 4 29), .ok (.sltw 1 30 21), .ok (.clz 17 18), .ok (.ctz 26 10), .ok (.popc 11 19), .ok (.addi 25 14 2253),
      .ok (.andi 30 8 15535), .ok (.ori 2 1 23958), .ok (.xori 20 18 32541), .ok (.shli 14 9 45), .ok (.shri 21 11 1), .ok (.sari 11 5 39),
      .ok (.slti 1 6 25173), .ok (.lui 23 259642), .ok (.bfx 29 27 31 64), .ok (.bfxReg 12 17 8), .ok (.bfxs 26 13 55 64), .ok (.bfxsReg 13 31 11),
      .ok (.bfi 12 30 14 64)] := rfl

/-- Words from the encodings of R114, R115, R116, R117, R229, R230, R406. -/
theorem test_decode_seq_3 : ([0x1A43AA01, 0x20FD4B68, 0x229012A5, 0x24B9C87D, 0x264B6DFA, 0x293A568D, 0x2AEE6F7C, 0x2DBAE3A2, 0x2EC63311,
      0x308A0066, 0x304FF805, 0x32CCE40D, 0x35024019, 0x41300E6A, 0x424A24B1, 0x44F18EF9, 0x48E7BA40, 0x49755A01, 0x485801A2,
      0x48B25C63] : List (BitVec 32)).map (decodeWord .seq) =
    [.ok (.bfiReg 4 7 21), .ok (.beq 15 26 19304), .ok (.bne 9 0 4773), .ok (.blt 11 19 18557), .ok (.bge 4 22 28154), .ok (.bltw 19 20 22157),
      .ok (.bgew 14 28 28540), .ok (.jal 27 713634), .ok (.jalr 12 12 13073), .ok (.loop 1 20 102), .ok (.loopStrided 0 31 30 5),
      .ok (.loopi 1 19684 13), .ok (.loopr 2 4 8 25), .ok (.ld 19 0 1 3 106), .ok (.lds 4 20 4 2 177), .ok (.st 15 3 1 3 249),
      .ok (.amoAdd 14 15 7 9 0), .ok (.amoMin 23 10 11 8 0), .ok (.amoMax 5 16 0 6 1), .ok (.amoSwap 11 4 11 17 1)] := rfl

/-- Words from the encodings of R188, R230, R231, R232, R292, R293, R298, R299, R300, R302, R303, R392, R394, R409. -/
theorem test_decode_seq_4 : ([0x4904FD24, 0x49B442E5, 0x50000000, 0x52000044, 0x58082D10, 0x5A0CE780, 0x5C6C9EB0, 0x60000003, 0x62000000,
      0x64000000, 0x68F06400, 0x6A041228, 0x6DE027A0, 0x700E802E, 0x73E0003E, 0x78000001, 0x7A000007, 0x8067CFE0, 0x820D0000,
      0x85458320] : List (BitVec 32)).map (decodeWord .seq) =
    [.ok (.amoCas 16 9 15 20 1), .ok (.amoOr 27 8 8 11 1), .ok (.phase), .ok (.fence 68), .ok (.barinit 16 5 81), .ok (.bararr 25 12 15),
      .ok (.barwait 6 25 3 13 12), .ok (.spawn 3), .ok (.join), .ok (.halt), .ok (.hset 15 0 25), .ok (.setpar 8 581), .ok (.getpar 30 1268),
      .ok (.chpush 29 46), .ok (.chpop 30 62), .ok (.tkwait 1), .ok (.tksig 7), .ok (.rowwait 6 15 19 31), .ok (.rowpub 26 0),
      .ok (.frmwait 20 11 25)] := rfl

/-- Words from the encodings of R179, R200, R201, R203, R390, R397, R400, R401, R410. -/
theorem test_decode_seq_5 : ([0x860D002A, 0x88CC802D, 0x8A00001E, 0x8CD00000, 0x8EA00B18, 0xA0F05420, 0xA248C628, 0xA40CFC40, 0xA6385FE8,
      0xA8000006, 0xAA000000, 0xADB0003F] : List (BitVec 32)).map (decodeWord .seq) =
    [.ok (.sqarm 26 42), .ok (.sqwait 12 25 45), .ok (.sqrel 30), .ok (.tsread 13), .ok (.ctrr 10 355), .ok (.csrr 15 2692), .ok (.csrw 4 17 2245),
      .ok (.csrs 0 25 3976), .ok (.csrc 3 16 3069), .ok (.trap 6), .ok (.tret), .ok (.waitev 27 63)] := rfl

/-- Words from the encodings of R358. -/
theorem test_decode_jointer_1 : ([0x91F00000, 0x92765F26, 0x94B295C2, 0x96000000, 0x98000002, 0x9B900008,
      0x9C0D0000] : List (BitVec 32)).map (decodeWord (.jointerScalar true)) =
    [.ok (.jwait 31), .ok (.jline 7 12 24358), .ok (.jemit 11 5 5570), .ok (.jrow), .ok (.jsub 2), .ok (.jstat 25 8), .ok (.jtile 26)] := rfl

/-- Words from the encodings of R139, R140. -/
theorem test_decode_vec_1 : ([0x90135280, 0xB0195409, 0xD81D480E, 0xEC25B974, 0xE42D3911, 0xB42EB882, 0xA0326180, 0xB4373105, 0xC03C7326,
      0x8847A7B8, 0xA040D415, 0xE048DECA, 0xC45E230C, 0x8C544219, 0xA0572306, 0xF86E8470, 0xA46FA011, 0xCC6B1172, 0xE07CDE80,
      0xCC7B211D] : List (BitVec 32)).map (decodeWord .vec) =
    [.ok (.vadd ⟨true, false, 4⟩ 13 18 32), .ok (.vaddK ⟨true, false, 12⟩ 37 20 2), .ok (.vaddI ⟨true, true, 6⟩ 53 8 3), .ok (.vsub ⟨true, true,
      11⟩ 22 57 29), .ok (.vsubK ⟨true, true, 9⟩ 52 57 4), .ok (.vsubI ⟨true, false, 13⟩ 58 56 32), .ok (.vmul ⟨true, false, 8⟩ 9 33 32),
      .ok (.vmulK ⟨true, false, 13⟩ 28 49 1), .ok (.vmulI ⟨true, true, 0⟩ 49 51 9), .ok (.vmadd ⟨true, false, 2⟩ 30 39 46), .ok (.vmaddK ⟨true,
      false, 8⟩ 3 20 5), .ok (.vmaddI ⟨true, true, 8⟩ 35 30 50), .ok (.vmsub ⟨true, true, 1⟩ 56 35 3), .ok (.vmsubK ⟨true, false, 3⟩ 17 2 6),
      .ok (.vmsubI ⟨true, false, 8⟩ 28 35 1), .ok (.vmin ⟨true, true, 14⟩ 58 4 28), .ok (.vminK ⟨true, false, 9⟩ 62 32 4), .ok (.vminI ⟨true, true,
      3⟩ 44 17 28), .ok (.vmax ⟨true, true, 8⟩ 51 30 32), .ok (.vmaxK ⟨true, true, 3⟩ 44 33 7)] := rfl

/-- Words from the encodings of R140, R141, R142. -/
theorem test_decode_vec_2 : ([0xFC7ED0EE, 0xF88F0C00, 0xDC821A03, 0x98971410, 0xCC96C405, 0xD09C87E6, 0xC8AF2DA4, 0xD4A2501D, 0xBCA74EBE,
      0xC4B6787C, 0xBCBAB505, 0xACB6FF82, 0x94C68C58, 0x84CB9701, 0xA0C75CB6, 0x98D5619C, 0xA0DF4401, 0xF8DC8EFA, 0xC4E15044,
      0xB8EC4B09] : List (BitVec 32)).map (decodeWord .vec) =
    [.ok (.vmaxI ⟨true, true, 15⟩ 59 16 59), .ok (.vabs ⟨true, true, 14⟩ 60 12), .ok (.vneg ⟨true, true, 7⟩ 8 26), .ok (.vand ⟨true, false,
      6⟩ 28 20 4), .ok (.vandK ⟨true, true, 3⟩ 27 4 1), .ok (.vandI ⟨true, true, 4⟩ 50 7 57), .ok (.vor ⟨true, true, 2⟩ 60 45 41),
      .ok (.vorK ⟨true, true, 5⟩ 9 16 7), .ok (.vorI ⟨true, false, 15⟩ 29 14 47), .ok (.vxor ⟨true, true, 1⟩ 25 56 31), .ok (.vxorK ⟨true, false,
      15⟩ 42 53 1), .ok (.vxorI ⟨true, false, 11⟩ 27 63 32), .ok (.vshl ⟨true, false, 5⟩ 26 12 22), .ok (.vshlK ⟨true, false, 1⟩ 46 23 0),
      .ok (.vshlI ⟨true, false, 8⟩ 29 28 45), .ok (.vshr ⟨true, false, 6⟩ 21 33 39), .ok (.vshrK ⟨true, false, 8⟩ 61 4 0), .ok (.vshrI ⟨true, true,
      14⟩ 50 14 62), .ok (.vsar ⟨true, true, 1⟩ 5 16 17), .ok (.vsarK ⟨true, false, 14⟩ 49 11 2)] := rfl

/-- Words from the encodings of R142, R143, R144, R145. -/
theorem test_decode_vec_3 : ([0xC8ED1BDA, 0xFCF41924, 0xE4F7EC09, 0xB0FB0B6E, 0xC5013C04, 0xC5031001, 0xF500C442, 0xC511C054, 0xE111BB1D,
      0xA5108286, 0xCD23C7F8, 0x91200B05, 0xD1229386, 0xCD311C80, 0xC9311619, 0xBD310202, 0xAD4FA3F8, 0xA14F8F1D, 0x854FB4A6,
      0xA95FA2D4] : List (BitVec 32)).map (decodeWord .vec) =
    [.ok (.vsarI ⟨true, true, 2⟩ 52 27 54), .ok (.vsel 1 15 16 25 9), .ok (.vselK 1 9 31 44 2), .ok (.vselI 0 12 44 11 27), .ok (.vcmpeq ⟨true,
      true, 1⟩ 4 60 1), .ok (.vcmpeqK ⟨true, true, 1⟩ 12 16 0), .ok (.vcmpeqI ⟨true, true, 13⟩ 3 4 16), .ok (.vcmpne ⟨true, true, 1⟩ 7 0 21),
      .ok (.vcmpneK ⟨true, true, 8⟩ 6 59 7), .ok (.vcmpneI ⟨true, false, 9⟩ 2 2 33), .ok (.vcmplt ⟨true, true, 3⟩ 15 7 62), .ok (.vcmpltK ⟨true,
      false, 4⟩ 0 11 1), .ok (.vcmpltI ⟨true, true, 4⟩ 10 19 33), .ok (.vcmple ⟨true, true, 3⟩ 4 28 32), .ok (.vcmpleK ⟨true, true, 2⟩ 4 22 6),
      .ok (.vcmpleI ⟨true, false, 15⟩ 4 2 0), .ok (.vwadd ⟨true, false, 11⟩ 62 35 62), .ok (.vwaddK ⟨true, false, 8⟩ 62 15 7), .ok (.vwaddI ⟨true,
      false, 1⟩ 62 52 41), .ok (.vwmul ⟨true, false, 10⟩ 62 34 53)] := rfl

/-- Words from the encodings of R145, R146, R152, R153, R154, R155, R156, R157, R158, R159, R160. -/
theorem test_decode_vec_4 : ([0xD95FA009, 0xCD5F8E56, 0xB56FADB8, 0xC96FBF09, 0xC16F8802, 0xA97BF840, 0x8970C515, 0xD98DE04C, 0xD1998F4C,
      0x01A74B4C, 0x9DB0104C, 0xD5CFBF8C, 0x8DD0BDE0, 0x8DE58B4C, 0x99F15E44, 0xE9F30F11, 0xC2015000, 0xC6125900, 0xC2264100,
      0x923A0E00] : List (BitVec 32)).map (decodeWord .vec) =
    [.ok (.vwmulK ⟨true, true, 6⟩ 62 32 2), .ok (.vwmulI ⟨true, true, 3⟩ 62 14 21), .ok (.vwmadd ⟨true, false, 13⟩ 62 45 46), .ok (.vwmaddK ⟨true,
      true, 2⟩ 62 63 2), .ok (.vwmaddI ⟨true, true, 0⟩ 62 8 0), .ok (.vdot4 ⟨true, false, 10⟩ 47 56 16), .ok (.vdot4K ⟨true, false, 2⟩ 3 5 5),
      .ok (.vcvt ⟨true, true, 6⟩ 55 32 19), .ok (.vnarrow ⟨true, true, 4⟩ 38 15 19), .ok (.vquant 29 11 19), .ok (.vdeq ⟨true, false, 7⟩ 0 16 19),
      .ok (.vlgmul ⟨true, true, 5⟩ 62 63 35), .ok (.vlgadd ⟨true, false, 3⟩ 2 61 56), .ok (.vlgcvt ⟨true, false, 3⟩ 22 11 19), .ok (.vdiv ⟨true,
      false, 6⟩ 5 30 17), .ok (.vdivK ⟨true, true, 10⟩ 12 15 4), .ok (.vexp2 ⟨true, true, 0⟩ 5 16), .ok (.vlog2 ⟨true, true, 1⟩ 9 25),
      .ok (.vrcp ⟨true, true, 0⟩ 25 1), .ok (.vrsqrt ⟨true, false, 4⟩ 40 14)] := rfl

/-- Words from the encodings of R147, R148, R160, R161, R162, R163, R164. -/
theorem test_decode_vec_5 : ([0xA64F6100, 0xF2526A00, 0xEE6CB800, 0xDA8C1400, 0xFE97C900, 0xAEA9E900, 0x82BD3500, 0xFAB82803, 0xAECB3380,
      0xBAD87011, 0xF6DD3306, 0xEAE9731D, 0xEAEF6CA6, 0x86FF8220, 0xD70FBC00, 0xB711C800, 0xC3228828, 0x9F31001C, 0xC742CE00,
      0xFB510100] : List (BitVec 32)).map (decodeWord .vec) =
    [.ok (.vtanh ⟨true, false, 9⟩ 61 33), .ok (.vsigm ⟨true, true, 12⟩ 9 42), .ok (.vsqrt ⟨true, true, 11⟩ 50 56), .ok (.vrsum ⟨true, true,
      6⟩ 48 20), .ok (.vrmax ⟨true, true, 15⟩ 31 9), .ok (.vrmin ⟨true, false, 11⟩ 39 41), .ok (.vscan ⟨true, false, 0⟩ 52 53),
      .ok (.vscanExcl ⟨true, true, 14⟩ 32 40), .ok (.vperm ⟨true, false, 11⟩ 44 51 32), .ok (.vslideK ⟨true, false, 14⟩ 33 48 4),
      .ok (.vslideI ⟨true, true, 13⟩ 52 51 1), .ok (.vbcastK ⟨true, true, 10⟩ 37 51 7), .ok (.vbcastI ⟨true, true, 10⟩ 61 44 41), .ok (.vzip ⟨true,
      false, 1⟩ 62 2 8), .ok (.vunzip ⟨true, true, 5⟩ 62 60), .ok (.pand ⟨true, false, 13⟩ 7 8 0), .ok (.por ⟨true, true, 0⟩ 10 8 10),
      .ok (.pxor ⟨true, false, 7⟩ 4 0 7), .ok (.pnot ⟨true, true, 1⟩ 11 14), .ok (.pcnt ⟨true, true, 14⟩ 4 1)] := rfl

/-- Words from the encodings of R129, R133, R148, R149, R150, R166, R168, R169, R172, R173, R174, R175, R176. -/
theorem test_decode_vec_6 : ([0xE3600B00, 0xDF710019, 0xB771003E, 0xF3834354, 0xDF97CD54, 0xBBAAC4C4, 0xA7BA0A30, 0xA7C24000, 0x03D00015,
      0xEFE4E700, 0xCBE0000D, 0x9FE440FA, 0x03E00003, 0x03F09F08, 0x03F05D75, 0x03F0F922, 0x03F00703, 0x03F00307, 0x03F0000B,
      0x03F1A00F] : List (BitVec 32)).map (decodeWord .vec) =
    [.ok (.pfirst ⟨true, true, 8⟩ 0 11), .ok (.plenK ⟨true, true, 7⟩ 4 6), .ok (.plenI ⟨true, false, 13⟩ 4 15), .ok (.vld ⟨true, true,
      12⟩ 13 3 2 5), .ok (.vst ⟨true, true, 7⟩ 31 13 2 5), .ok (.vldx ⟨true, false, 14⟩ 43 4 49), .ok (.vstx ⟨true, false, 9⟩ 40 10 12),
      .ok (.vrand ⟨true, false, 9⟩ 9), .ok (.vshape 5), .ok (.vmov ⟨true, true, 11⟩ 19 39), .ok (.vmovK ⟨true, true, 2⟩ 0 3), .ok (.vmovI ⟨true,
      false, 7⟩ 17 62), .ok (.vrot), .ok (.vloop 2 31 2), .ok (.vloopi 1 29 29), .ok (.vloopr 0 3 57 8), .ok (.vpegw 7), .ok (.vpegs 3),
      .ok (.vend), .ok (.vkset 6 32)] := rfl

/-- Words from the encodings of R51, R261, R262, R268, R269, R270, R279, R281, R282, R284, R285. -/
theorem test_decode_mtx_1 : ([0x0BE0044C, 0x17E00EE3, 0x1C040BF5, 0x27453D1F, 0x2AE365D7, 0x37EE0065, 0x3F74067C, 0x416A050E, 0x4A0A0C03,
      0x531E0ED2, 0x58F604A3, 0x606C0FFB, 0x685C06D9, 0x6E0811A0, 0x6D542EF8, 0x774C250C, 0x7ADE06D8, 0x86C00A18,
      0xF80FE000] : List (BitVec 32)).map (decodeWord .mtx) =
    [.ok (.tlease 3 7 1100), .ok (.tfree 7 7 3811), .ok (.tloadb 4 0 2 3061), .ok (.tmma 7 2 2 19 3359), .ok (.tmmas 2 7 1 22 1495),
      .ok (.tpromo 7 7 7 0 101), .ok (.tdrain 7 3 10 0 1660), .ok (.tzero 1 3 5 0 1294), .ok (.tcommit 2 0 5 3075), .ok (.tdiscard 3 0 15 3794),
      .ok (.tsign 0 7 11 1187), .ok (.tbucket 0 3 6 4091), .ok (.trepsFirst 0 2 14 1753), .ok (.trepsMean 6 0 4 416),
      .ok (.trepsNormmax 5 2 10 3832), .ok (.tscat 7 2 6 1 1292), .ok (.tmgrad 2 6 15 1752), .ok (.tnop 6 6 2584), .ok (.sloop 7 30)] := rfl

/-- Words from the encodings of R237, R240, R243, R246, R247, R248. -/
theorem test_decode_ld_1 : ([0x09A200CA, 0x1E4E00C8, 0x2AF80733, 0x34260173, 0x3C0A03D3, 0x46860E32, 0x4E600620,
      0x54200607] : List (BitVec 32)).map (decodeWord .ld) =
    [.ok (.xcopy 1 5 1 202), .ok (.xaddw 6 2 7 200), .ok (.xgath 2 7 12 1843), .ok (.xscat 4 1 3 371), .ok (.xconv 4 0 5 979),
      .ok (.xfill 6 4 3 3634), .ok (.xord 6 3 1568), .ok (.xnop 4 1 1543)] := rfl

/-- Words from the encodings of R239, R242. -/
theorem test_decode_st_1 : ([0x13320C0A, 0x2404078E, 0x22281BD3, 0x252C2A7E, 0x2354364F, 0x25024353,
      0x26305385] : List (BitVec 32)).map (decodeWord .st) =
    [.ok (.xcast 3 1 9 3082), .ok (.xredAddf32 4 0 2 1934), .ok (.xredAddi32 2 1 4 3027), .ok (.xredMaxf32 5 1 6 2686),
      .ok (.xredMinf32 3 2 10 1615), .ok (.xredMaxi32 5 0 1 851), .ok (.xredMini32 6 1 8 901)] := rfl

/-- Words from the encodings of R336, R339, R345, R346. -/
theorem test_decode_lath_gather_1 : ([0x0C08A58D, 0x10000000, 0x200000F7, 0x80AA0000] : List (BitVec 32)).map (decodeWord (.lath .gather)) =
    [.ok (.idle 201893261), .ok (.lswap), .ok (.lckpt 247), .ok (.lgath 10 2 2)] := rfl

/-- Words from the encodings of R340. -/
theorem test_decode_lath_sort_1 : ([0x90DC0000, 0x91E5C000] : List (BitVec 32)).map (decodeWord (.lath .sort)) =
    [.ok (.lsort 13 3 0), .ok (.lmerge 14 1 1 3)] := rfl

/-- Words from the encodings of R341. -/
theorem test_decode_lath_route_1 : ([0xA06C4000, 0xA1DC0000] : List (BitVec 32)).map (decodeWord (.lath .route)) =
    [.ok (.lroute 6 3 4), .ok (.ltopk 13 3 0)] := rfl

/-- Words from the encodings of R381, R382, R383, R384, R386. -/
theorem test_decode_lath_hash_1 : ([0xB0060030, 0xB104003D, 0xB2000004, 0xB30ED000, 0xB3087DAF,
      0xB4040000] : List (BitVec 32)).map (decodeWord (.lath .hash)) =
    [.ok (.hprobe 1 2 48), .ok (.hins 1 61), .ok (.hdel 0 4), .ok (.hrehashBegin 237), .ok (.hrehash 135 3503), .ok (.hfence 1 0)] := rfl

/-- Words from the encodings of R342. -/
theorem test_decode_lath_dedupe_1 : ([0xC0300000, 0xC1A30000] : List (BitVec 32)).map (decodeWord (.lath .dedupe)) =
    [.ok (.ldedup 3 0 0), .ok (.lcompact 10 0 3)] := rfl

/-- Words from the encodings of R343. -/
theorem test_decode_lath_scan_1 : ([0xD0BB8000, 0xD11B0000] : List (BitVec 32)).map (decodeWord (.lath .scan)) =
    [.ok (.lscan 11 2 3 1), .ok (.lhist 1 2 3)] := rfl

/-! ### Witnesses -/

/-! ### States of the tests -/

/-- Words whose value is `n`, as a list of fields at bit positions. -/
def fields (l : List (Nat × Nat)) : Word := BitVec.ofNat 64 (l.map fun x => x.1 * 2 ^ x.2).sum

/-- A tensor entry: format, extents, word 8's fields and the base, and the strides (R361, R363). -/
def entry (fmt : Nat) (ext : List Nat) (w8 : List (Nat × Nat)) (base : Nat) (strides : List Nat) : List Word :=
  let e := fun i => ext.getD i 0
  [fields [(1, 0), (ext.length, 1), (fmt, 5)], 0, fields [(e 0, 0), (e 1, 32)], fields [(e 2, 0), (e 3, 32)], 0, 0, 0, 0, fields w8, fields [(base, 0)]] ++
    strides.map fun x => fields [(x, 0)]

/-- Tensors of the tests' job: 0 a w32 vector in bank 0, 1 a w64 vector in slice 0, 2 an f32 matrix in bank 1, 3 a w32 vector in SHARED slices,
4 an f32 vector in slice 0, 5 a w16 vector in slice 0, 6 and 7 i32 vectors in bank 2 and in slice 0,
8 a bucket tensor of four buckets, 9 a record of w8, 10 headers, 11 a bx8 vector in slice 0 with 12 its scale. -/
def entries : List (List Word) :=
  [entry 0x0C [64] [(0, 0), (0, 4), (0, 8), (1, 15)] 0 [], entry 0x0D [64] [(3, 0), (0, 4), (0, 8), (1, 15)] 0 [],
   entry 0x15 [8, 128] [(0, 0), (0, 4), (1, 8), (1, 15)] 0 [512], entry 0x0C [64] [(2, 0), (0, 4), (0, 8), (1, 15), (1, 22)] 4096 [],
   entry 0x15 [256] [(3, 0), (0, 4), (0, 8), (1, 15)] 8192 [], entry 0x0B [64] [(3, 0), (0, 4), (0, 8), (1, 15)] 16384 [],
   entry 0x04 [64] [(0, 0), (0, 4), (2, 8), (1, 15)] 0 [], entry 0x04 [64] [(3, 0), (0, 4), (0, 8), (1, 15)] 24576 [],
   entry 0x0C [32] [(3, 0), (0, 8), (1, 15)] 32768 [], entry 0x0A [512] [(3, 0), (0, 8), (1, 15)] 40960 [], entry 0x0A [2, 512] [(3, 0), (0, 8), (1, 15)] 49152 [512],
   (entry 0x19 [32] [(3, 0), (0, 8), (1, 15)] 53248 []).set 0 (fields [(1, 0), (1, 1), (0x19, 5), (0x800C, 16)]), entry 0x0A [1] [(3, 0), (0, 8), (1, 15)] 57344 []]

def bay0 : Bay :=
  { slot := some 0, live := true, bankfmt := [(0, 0x0C), (1, 0x15), (2, 0x04)]
    plane := { bytes := [], sections := [(0, 64), (64, 64), (128, 32), (160, 32), (192, 32)] }
    par := [(0, 0x8000), (32, 0x8001), (64, 0x8002), (96, 0x8003), (128, 0x8004), (160, 0x8005), (192, 0x8006), (224, 0x8007)] }

def job0 : Job := { state := .run, bays := [0], entries := entries }

def part0 : Part := { up := true, desc := [1, 1, 0, 0, 0, 0, 0, 0, 0, 0, 0, 0, 0, 0, 0, 0] }

/-- A stream of bay 0 acts, in a job of one bay. -/
def on (e : Eng) (y : Bay := bay0) : State := { cur := .stream 0 e, bays := [(0, y)], jobs := [(0, job0)], parts := [(0, part0)] }

def onBays (s : State) (l : List (Nat × Bay)) : State := { s with bays := l }

/-- A jointer acts. -/
def onJtr : State := { cur := .jointer 0 0, jointers := [(0, { code := [0, 0, 0, 0] })] }

/-- The V stream acts, with a TYPE. -/
def onV (f : Nat) : State := on .V { bay0 with vshape := BitVec.ofNat 27 f, v := { run := true, pc := 64 } }

/-! ### Chains of checks -/

/-- A check passes, and its answer meets `p`. -/
def sat {ε α : Type} (A : Except ε α) (p : α → Bool) : Bool :=
  match A with
  | .ok v => p v
  | .error _ => false

theorem sat_ok {ε α : Type} {A : Except ε α} {p : α → Bool} (h : sat A p = true) : ∃ v, A = .ok v ∧ p v = true := by
  cases A with
  | error => cases h
  | ok v => exact ⟨v, rfl, h⟩

/-! ### Witnesses: in each statement, operands and a state that meet the hypotheses -/

def add1 : Instr := .add 1 2 3

theorem test_wit_DecodeEncode : add1.wf = true ∧ ∃ w, encode add1 = some w := ⟨rfl, _, rfl⟩

theorem test_wit_StepKeepsMemory : State.reset.memOk ∧ ∃ t, step { State.reset with agenda := [.event (.boot true)] } = .next t := ⟨rfl, _, rfl⟩

theorem test_wit_onScalar : (on .S).onScalar ∧ onJtr.onScalar := ⟨rfl, trivial⟩

theorem test_wit_onVector : (onV 0x04).onVector ∧ onJtr.onVector := ⟨rfl, trivial⟩

/-- s1 holds -2^63 and s2 holds -1. -/
def onDiv : State := on .S { bay0 with s := [(1, 0x8000000000000000), (2, BitVec.allOnes 64), (3, 7)] }

theorem test_wit_ScalarBits : (64 : BitVec 7).toNat ≤ 64 ∧ onDiv.onScalar ∧ onDiv.readS 0 = 0 ∧ onDiv.readS 2 ≠ 0 ∧ (onDiv.readS 1).toInt = -2 ^ 63 ∧ (onDiv.readS 2).toInt = -1 := by
  refine ⟨by decide, rfl, ?_⟩; decide +kernel

/-- Targets at the first byte of the section, at its end, and between words; and those of a jointer with four words. -/
theorem test_wit_BranchesAndJumps_targets : (on .S).targetGood 0 = true ∧ (on .S).targetGood 60 = true ∧ (on .S).targetGood 64 = false ∧
    (on .S).targetGood 2 = false ∧ (on .S).targetGood (-4) = false ∧ onJtr.targetGood 12 = true ∧ onJtr.targetGood 16 = false := by decide +kernel

/-- BEQ of s0 with itself is taken, to word 1 and outside the section; BNE is not; JAL and JALR to good and bad targets. -/
theorem test_wit_BranchesAndJumps : onDiv.readS 0 = onDiv.readS 0 ∧ onDiv.readS 1 ≠ onDiv.readS 2 ∧
    onDiv.targetGood (onDiv.pc.toNat + 4 * (1 : BitVec 15).toInt) = true ∧ onDiv.targetGood (onDiv.pc.toNat + 4 * (0x3FFF : BitVec 15).toInt) = false ∧
    onDiv.targetGood (onDiv.readS 0 + BitVec.ofInt 64 (8 : BitVec 15).toInt).toNat = true ∧ onDiv.targetGood (onDiv.readS 3 + 0).toNat = false := by
  decide +kernel

theorem test_wit_VectorInteger : tInt (onV 0x04).vty = true ∧ tSigned (onV 0x04).vty = true ∧ tInt (onV 0x0A).vty = true := by decide +kernel

theorem test_wit_VectorFloat : isFlt (onV 0x15).vty = true ∧ isFlt (onV 0x13).vty = true := by decide +kernel

theorem test_wit_VectorBits : tAny (onV 0x12).vty = true ∧ tInt (onV 0x02).vty = true := by decide +kernel

theorem test_wit_VectorLanes : tDot (onV 0x04).vty = true ∧ isLg (onV 0x12).vty = true ∧ isFlt (onV 0x15).vty = true ∧ tAny (onV 0x0A).vty = true ∧
    tRand (onV 0x15).vty = true ∧ (onV 0x15).cur = .stream 0 .V := by decide +kernel

theorem test_wit_VectorCompare : tIntFlt (onV 0x02).vty = true ∧ tIntFlt (onV 0x14).vty = true := by decide +kernel

/-- A widening word with an even and an odd vd; conversions that widen, narrow and keep the width. -/
theorem test_wit_VectorWidths : tWiden (onV 0x02).vty = true ∧ (2 : BitVec 6).toNat % 2 = 0 ∧ (3 : BitVec 6).toNat % 2 = 1 ∧
    (let t := (onV 0x0B).vty
     tAny t = true ∧ stepsTo t 0x0D = 2 ∧ stepsTo t 0x0A = -1 ∧ stepsTo t 0x13 = 0 ∧ (4 : BitVec 6).toNat % 2 ^ (stepsTo t 0x0D).natAbs = 0 ∧
     (∀ u ∈ [0x0D, 0x0A, 0x13], tAny u = true) ∧ isInt t = true ∧ isInt 0x0A = true) ∧
    (onV 0x04).vty = 0x04 ∧ stepsTo 0x04 0x15 = 0 ∧ isFlt 0x15 = true ∧ isLg 0x12 = true ∧ (stepsTo 0x04 0x12).natAbs < 3 := by decide +kernel

theorem test_wit_VectorBlock : isFlt (onV 0x15).vty = true ∧ imageFmt (onV 0x15).vty 0x1A = true ∧ imageFmt (onV 0x13).vty 0x18 = true ∧ isLg (onV 0x12).vty = true := by
  decide +kernel

theorem test_wit_VectorAcross : tIntFlt (onV 0x0C).vty = true ∧ tAny (onV 0x0C).vty = true := by decide +kernel

/-- VSHAPE with TYPE 0x15 and RM 4, with a TYPE that is no code, and with RM 5. -/
theorem test_wit_PredicatesAndState : tAny (onV 0x0D).vty = true ∧ isCode ((0x115 : Word).toNat % 64) = true ∧ (0x115 : Word).toNat / 64 % 8 = 4 ∧
    isCode ((0x3F : Word).toNat % 64) = false ∧ (0x155 : Word).toNat / 64 % 8 > 4 ∧ (onV 0x0D).cur = .stream 0 .V := by decide +kernel

/-! Loops: s1 to s3 hold 0, 10 and the stride 3; s4 and s5 hold 10 and the stride 0. Handle 0 names a w32 vector. -/

def onLoop : State := on .S { bay0 with s := [(2, 10), (3, 3), (4, 10)] }

theorem test_wit_LoopsEnterSkipAndEnd_entry : loopCheck 0x02 false 0 3 onLoop = .ok () ∧ loopCheck 0x02 false 0 15 onLoop = .ok () ∧ onLoop.readS (2 + 1) ≠ 0 ∧
    onLoop.readS (4 + 1) = 0 ∧ strideCount (onLoop.readS 1).toInt (onLoop.readS 2).toInt (onLoop.readS (2 + 1)).toInt = 4 ∧
    loopCheck 0x0A true 0 15 (onV 0x0C) = .ok () := by decide +kernel

theorem test_wit_LoopsEnterSkipAndEnd_end :
    let s := on .S { bay0 with pc := 16, lc := [(0, { rem := 2, len := 3, start := 4, active := true }), (1, { rem := 1, len := 2, start := 8, active := true })] }
    innermost s.pc.toNat s.lcs = some (1, { rem := 1, len := 2, start := 8, active := true }) ∧ (1 : BitVec 32) ≠ 0 := by decide +kernel

/-- A body inside the section, a body beyond it, and one that crosses the end of a loop around it; the innermost loop that ends at byte 16 goes on,
the one loop that ends there ends, and none ends there. -/
theorem test_wit_LoopsEnterSkipAndEnd_cases : (let s := onLoop
      (Tab.get {} s.lcs 0).active = false ∧ 0 + 4 + 4 * (3 : BitVec 8).toNat ≤ s.codeRange.1 + s.codeRange.2 ∧ (∀ x ∈ s.lcs, x.2.active = false) ∧
      ¬ 0 + 4 + 4 * (255 : BitVec 8).toNat ≤ s.codeRange.1 + s.codeRange.2) ∧
    (let s := on .S { bay0 with lc := [(0, { rem := 2, len := 3, start := 0, active := true })] }
     (Tab.get {} s.lcs 1).active = false ∧ ∃ x ∈ s.lcs, x.2.active = true ∧ (x.2.start.toNat ≤ s.pc.toNat ∧ s.pc.toNat < x.2.stop) ∧ ¬ 0 + 4 + 4 * 3 ≤ x.2.stop) ∧
    (let s := on .S { bay0 with pc := 16, lc := [(0, { rem := 2, len := 3, start := 4, active := true }), (1, { rem := 1, len := 2, start := 8, active := true })] }
     (Tab.get {} s.lcs 1).stop = endPc s.pc ∧ (Tab.get {} s.lcs 0).stop = endPc s.pc ∧ s.lcs.Pairwise (fun x y => x.1 ≠ y.1)) ∧
    (let s := on .S { bay0 with pc := 16, lc := [(1, { rem := 0, len := 2, start := 8, active := true })] }
     (Tab.get {} s.lcs 1).stop = endPc s.pc ∧ (Tab.get {} s.lcs 1).rem = 0) ∧ (on .S).lcs = [] ∧
    loopCheck 0x02 false 0 3 (on .S) = .ok () ∧ loopCheck 0x0A true 0 3 (onV 0x0C) = .ok () := by decide +kernel

theorem test_wit_LoopsEnterSkipAndEnd_rows : ∃ v x0 l0 x1 l1, rowPtrView 0 0 (on .S) = .ok v ∧ seqPlace 0 v 0 false spAny ((on .S).readS 0).toInt (on .S) = .ok (x0, l0) ∧
    seqPlace 0 v 0 false spAny (((on .S).readS 0).toInt + 1) (on .S) = .ok (x1, l1) := by
  obtain ⟨v, h1, h⟩ := sat_ok (A := rowPtrView 0 0 (on .S)) (p := fun v => sat (seqPlace 0 v 0 false spAny ((on .S).readS 0).toInt (on .S)) fun _ =>
    sat (seqPlace 0 v 0 false spAny (((on .S).readS 0).toInt + 1) (on .S)) fun _ => true) (by decide +kernel)
  obtain ⟨⟨x0, l0⟩, h2, h⟩ := sat_ok h
  obtain ⟨⟨x1, l1⟩, h3, -⟩ := sat_ok h
  exact ⟨v, x0, l0, x1, l1, h1, h2, h3⟩

theorem test_wit_LoopsEnterSkipAndEnd_vrows : ∃ v r0 s1 r1 s2, rowPtrView 0 0 (onV 0x0C) = .ok v ∧
    (onV 0x0C).readIndex ((onV 0x0C).bayCtx 0) v 0 spBay ((onV 0x0C).readK 0).toInt = .ok (r0, s1) ∧
    s1.readIndex (s1.bayCtx 0) v 0 spBay (((onV 0x0C).readK 0).toInt + 1) = .ok (r1, s2) := by
  obtain ⟨v, h1, h⟩ := sat_ok (A := rowPtrView 0 0 (onV 0x0C)) (p := fun v =>
    sat ((onV 0x0C).readIndex ((onV 0x0C).bayCtx 0) v 0 spBay ((onV 0x0C).readK 0).toInt) fun r =>
    sat (r.2.readIndex (r.2.bayCtx 0) v 0 spBay (((onV 0x0C).readK 0).toInt + 1)) fun _ => true) (by decide +kernel)
  obtain ⟨⟨r0, s1⟩, h2, h⟩ := sat_ok h
  obtain ⟨⟨r1, s2⟩, h3, -⟩ := sat_ok h
  exact ⟨v, r0, s1, r1, s2, h1, h2, h3⟩

/-! Scalar memory words: handle 1 names a w64 vector in a slice, handle 3 a w32 vector in SHARED. -/

theorem test_wit_ScalarMemory_load : ∃ v x l, seqView 0 1 (widthOf 3) (on .S) = .ok v ∧ seqPlace 0 v 0 false spAny (elemIndex 0 63 (on .S)) (on .S) = .ok (x, l) := by
  obtain ⟨v, h1, h⟩ := sat_ok (A := seqView 0 1 (widthOf 3) (on .S)) (p := fun v => sat (seqPlace 0 v 0 false spAny (elemIndex 0 63 (on .S)) (on .S)) fun _ => true)
    (by decide +kernel)
  obtain ⟨⟨x, l⟩, h2, -⟩ := sat_ok h
  exact ⟨v, x, l, h1, h2⟩

/-- A store through handle `h` passes its checks, and of its granules `p` holds. -/
def StoreOk (s : State) (h : BitVec 4) (sz : BitVec 2) (p : List Span → Bool) : Prop :=
  ∃ v x l, seqView 0 h (widthOf sz) s = .ok v ∧ seqPlace 0 v 2 true spAny (elemIndex 0 5 s) s = .ok (x, l) ∧
    s.checkConflicts (s.bayCtx 0) v 2 l = .ok () ∧ p l = true

theorem storeOk_of {s : State} {h : BitVec 4} {sz : BitVec 2} {p : List Span → Bool}
    (k : (sat (seqView 0 h (widthOf sz) s) fun v => sat (seqPlace 0 v 2 true spAny (elemIndex 0 5 s) s) fun q =>
      sat (s.checkConflicts (s.bayCtx 0) v 2 q.2) fun _ => p q.2) = true) : StoreOk s h sz p := by
  obtain ⟨v, h1, k⟩ := sat_ok k
  obtain ⟨⟨x, l⟩, h2, k⟩ := sat_ok k
  obtain ⟨u, h3, k⟩ := sat_ok k
  exact ⟨v, x, l, h1, h2, h3, k⟩

theorem test_wit_ScalarMemory_store : StoreOk (on .S) 1 3 (fun l => l.all fun y => y.loc.code != 2) ∧ (bay0.stores.length < 8) ∧
    StoreOk (on .S) 3 2 (fun l => l.any fun y => y.loc.code == 2) := ⟨storeOk_of (by decide +kernel), by decide, storeOk_of (by decide +kernel)⟩

/-- A queued store of one piece, behind another that it need not wait for. -/
def onStore : State := on .S { bay0 with stores := [⟨.bank, 0x8000, 0, [⟨bankAddr 0 0 0, [1, 2, 3, 4]⟩]⟩, ⟨.sill, 0x8001, 0, [⟨sillAddr 0 0, [5, 6]⟩]⟩] }

theorem test_wit_ScalarMemory_completion : ∃ r, (onStore.bay 0).stores[1]? = some r ∧ onStore.storeLocked 0 r = false ∧ (∀ p ∈ (onStore.bay 0).stores.take 1, p.before r = false) ∧
    r.pieces = [⟨sillAddr 0 0, [5, 6]⟩] := ⟨_, rfl, by decide +kernel, by decide, rfl⟩

theorem test_wit_AtomicsReadThenWrite : ∃ v x l, seqView 0 1 64 (on .S) = .ok v ∧ earlySpace v spAmo = .ok () ∧ seqPlace 0 v 2 true spAmo ((on .S).readS 0).toInt (on .S) = .ok (x, l) := by
  obtain ⟨v, h1, k⟩ := sat_ok (A := seqView 0 1 64 (on .S)) (p := fun v => sat (earlySpace v spAmo) fun _ =>
    sat (seqPlace 0 v 2 true spAmo ((on .S).readS 0).toInt (on .S)) fun _ => true) (by decide +kernel)
  obtain ⟨u, h2, k⟩ := sat_ok k
  obtain ⟨⟨x, l⟩, h3, -⟩ := sat_ok k
  exact ⟨v, x, l, h1, h2, h3⟩

/-- The same on a w32 vector in a bank, with WD 0. -/
theorem test_wit_AtomicsReadThenWrite_bank : ∃ v x l, seqView 0 0 32 (on .S) = .ok v ∧ earlySpace v spAmo = .ok () ∧ seqPlace 0 v 2 true spAmo ((on .S).readS 0).toInt (on .S) = .ok (x, l) ∧
    bay0.paired = false ∧ bay0.stores = [] := by
  obtain ⟨v, h1, k⟩ := sat_ok (A := seqView 0 0 32 (on .S)) (p := fun v => sat (earlySpace v spAmo) fun _ =>
    sat (seqPlace 0 v 2 true spAmo ((on .S).readS 0).toInt (on .S)) fun _ => true) (by decide +kernel)
  obtain ⟨u, h2, k⟩ := sat_ok k
  obtain ⟨⟨x, l⟩, h3, -⟩ := sat_ok k
  exact ⟨v, x, l, h1, h2, h3, rfl, rfl⟩

/-- Twins in bays 0 and 8 of the job's two copies: bay 0 with its AMO to a slice not posted, posted, compared, and as the second copy with an answer. -/
def amoPair (f : Bay → Bay) (primary : Bool) : State :=
  { onBays (on .S) [(0, f { bay0 with jobinfo := 0x80 }), (8, { bay0 with jobinfo := 0x80 })] with
    jobs := [(0, { job0 with paired := true, primary := primary, twin := some 1024 }), (1024, { job0 with bays := [8], paired := true })] }

theorem test_wit_AtomicsReadThenWrite_paired : let m := fun (y : Bay) => { y with merge := some [4], mergeDone := true }
    let amo := fun s => sat (seqView 0 1 64 s) fun v => sat (earlySpace v spAmo) fun _ => eSpace v.w != 0 && sat (seqPlace 0 v 2 true spAmo (s.readS 0).toInt s) fun _ => true
    amo (amoPair id true) = true ∧ amo (amoPair m true) = true ∧ amo (amoPair m false) = true ∧ (onStore.bay 0).stores ≠ [] ∧ amo onStore = true ∧
    ((amoPair id true).bay 0).paired = true ∧ ((amoPair id true).bay 0).stores = [] ∧ ((amoPair id true).bay 0).merge = none ∧
    ((amoPair m true).bay 0).mergeDone = true ∧ ((amoPair m true).jobOf 0).primary = true ∧ (amoPair m true).twinBay 0 = some 8 ∧
    ((amoPair m false).jobOf 0).primary = false ∧ ((amoPair m false).bay 0).merged = none ∧
    ((amoPair (fun y => { m y with merged := some 7 }) false).bay 0).merged = some 7 := by decide +kernel

/-- FENCE of SHARED behind a store to a bank; PHASE before it has arrived, and after the phase has completed; a granule pending for job 0. -/
theorem test_wit_PhaseCommitsAndAdvances : (∀ r ∈ (onStore.bay 0).stores, ((if (4 : BitVec 7) = 0 then (0x7F : BitVec 7) else 4).toNat).testBit r.space.code = false) ∧
    ((on .S { bay0 with phased := true }).bay 0).phased = true ∧ (bay0.phased = false ∧ bay0.arrived = false ∧ bay0.stores = []) ∧
    (let s := { on .S { bay0 with arrived := true } with meta_ := [(5, 0x003)], metaJob := [(5, 0)] }
     (s.job 0).bays ≠ [] ∧ (s.job 0).state = .run ∧ (∀ c ∈ (s.job 0).bays, (s.bay c).slot = some 0 ∧ (s.bay c).arrived = true) ∧ (∃ c ∈ (s.job 0).bays, (s.bay c).live = true) ∧ s.swept 0 = true ∧
     (∀ x ∈ s.laths, x.2.slot = some 0 → ∀ u ∈ x.2.updates, u.old = false) ∧ Tab.get 256 s.metaJob 5 = 0) := by decide +kernel

theorem test_wit_ControlRegisters : (on .S).csr 0 0x014 = some 0 ∧ (on .S).csr 0 0x15F = some 0x0A ∧ (on .S).csr 0 0x160 = none ∧ (on .S).csr 0 0x005 = none ∧
    csrWritable bay0.det 0x012 = true ∧ csrWritable bay0.det 0x100 = true ∧ csrWritable bay0.det 0x008 = false ∧ csrWritable bay0.det 0x040 = true ∧
    (on .S).lockedFor 0 0 .S = false ∧ (on .S { bay0 with l := { run := true, inflight := [{ op := .addw, push := [], pc := 128, ordinal := 0, locks := [0] }] } }).lockedFor 0 0 .S = true := by decide +kernel

/-- A CSRW of a jointer's place, written out from R179's encoding: op7 0x51, sd 7, register 0x040, sa 4. -/
theorem test_wit_ControlRegisters_jointer : onJtr.cur = .jointer 0 0 ∧ (0x005 : BitVec 12) ≠ 0 ∧ encode (.csrw 7 4 0x040) = some 0xA2720200 ∧
    decodeWord (.jointerScalar false) 0xA2720200 = .error .notAvailable := ⟨rfl, by decide, rfl, rfl⟩

/-- A bay with a handler at byte offset 16, and a fault of its V stream that waits. -/
def handled : Bay := { bay0 with tvecEn := true, tvecOff := 4, pend := [⟨5, 1, { cause := 0x0A, eng := 1 }⟩] }

theorem test_wit_FaultsTaken : (handled.tIn = false ∧ handled.tvecEn = true ∧ handled.targetOk (handled.tvecOff.toNat * 4) = true) ∧ handled.boundary = true ∧
    handled.pend = [⟨5, 1, { cause := 0x0A, eng := 1 }⟩] ∧ (bay0.tvecEn = false) ∧
    ({ handled with tvecOff := 0x3FFF }.targetOk (4 * 0x3FFF) = false) ∧ ({ handled with tIn := true }.tIn = true) ∧ (Eng.W ∈ engines) ∧
    (on .W).cur = .stream 0 .W ∧ onJtr.cur = .jointer 0 0 ∧
    (let s := { on .S with cur := Actor.lath 5, laths := [(5, { slot := some 0 })] }
     (s.lathAt 5).slot = some 0 ∧ (s.job 0).bays = 0 :: [] ∧ (s.bay 0).live = true ∧ (s.bay 0).slot = some 0) := by decide +kernel

/-- A handler that returns to byte offset 8 and restarts the halted V stream; a RESUME of a stream that does not stand in HALT; a return outside a
handler. -/
theorem test_wit_TrapsAndEvents : (let y : Bay := { bay0 with tIn := true, epc := 8, tHalt := 1, tResume := 1, v := { rc := some { cause := 0x41, rst := true, pc := 68 } } };
      (y.tIn && y.targetOk y.epc.toNat && y.resumeOk) = true ∧ y.tResume.getLsbD Eng.V.idx = true ∧ y.tResume.getLsbD Eng.W.idx = false) ∧
    (let y : Bay := { bay0 with tIn := true, epc := 8, tResume := 2 };
      (y.tIn && y.targetOk y.epc.toNat && y.resumeOk) = false) ∧ (bay0.tIn && bay0.targetOk 0 && bay0.resumeOk) = false ∧
    ((3 : BitVec 8) ≠ 0 ∧ (63 : BitVec 8).toNat < 64 ∧ 64 ≤ (64 : BitVec 8).toNat ∧ (0x06 : BitVec 6) &&& BitVec.ofNat 6 (3 : BitVec 8).toNat ≠ 0 ∧
      (0x04 : BitVec 6) &&& BitVec.ofNat 6 (3 : BitVec 8).toNat = 0) := by decide +kernel

/-! Vector memory: handle 2 names an f32 matrix of 8 by 128 in a bank. -/

def onMem : State := onV 0x15

theorem test_wit_VectorMemory_load : ∃ v l s1, vecView 0 2 onMem.vty onMem = .ok v ∧ v.plainE = .ok () ∧
    placeRun 0 v 0 false (runCoords onMem 1 0) (lanesOf 32) onMem = .ok l ∧ onMem.checkTrailer (onMem.bayCtx 0) v 0 spBay = .ok s1 := by
  obtain ⟨v, h1, k⟩ := sat_ok (A := vecView 0 2 onMem.vty onMem) (p := fun v => sat v.plainE fun _ =>
    sat (placeRun 0 v 0 false (runCoords onMem 1 0) (lanesOf 32) onMem) fun _ => sat (onMem.checkTrailer (onMem.bayCtx 0) v 0 spBay) fun _ => true) (by decide +kernel)
  obtain ⟨u, h2, k⟩ := sat_ok k
  obtain ⟨l, h3, k⟩ := sat_ok k
  obtain ⟨s1, h4, -⟩ := sat_ok k
  exact ⟨v, l, s1, h1, h2, h3, h4⟩

theorem test_wit_VectorMemory_store : ∃ v l, vecView 0 2 onMem.vty onMem = .ok v ∧ v.cmp = false ∧ placeRun 0 v 2 true (runCoords onMem 1 0) (lanesOf 32) onMem = .ok l ∧
    onMem.checkConflicts (onMem.bayCtx 0) v 2 ((activeElems (onMem.active ⟨false, false, 0⟩) l (onMem.lanes 3 32)).flatMap fun e => e.2.1) = .ok () := by
  obtain ⟨v, h1, k⟩ := sat_ok (A := vecView 0 2 onMem.vty onMem) (p := fun v => !v.cmp && sat (placeRun 0 v 2 true (runCoords onMem 1 0) (lanesOf 32) onMem) fun l =>
    sat (onMem.checkConflicts (onMem.bayCtx 0) v 2 ((activeElems (onMem.active ⟨false, false, 0⟩) l (onMem.lanes 3 32)).flatMap fun e => e.2.1)) fun _ => true)
    (by decide +kernel)
  simp only [Bool.and_eq_true, Bool.not_eq_true'] at k
  obtain ⟨l, h3, k'⟩ := sat_ok k.2
  obtain ⟨u, h4, -⟩ := sat_ok k'
  exact ⟨v, l, h1, k.1, h3, h4⟩

theorem test_wit_VectorMemory_indexed : ∃ v l m, vecView 0 2 onMem.vty onMem = .ok v ∧ v.plainE = .ok () ∧ v.cmp = false ∧ indexChecks 4 onMem = .ok () ∧
    placeIndexed 0 v 0 false (indexList ⟨false, false, 0⟩ 4 32 onMem) onMem = .ok l ∧ placeIndexed 0 v 2 true (indexList ⟨false, false, 0⟩ 4 32 onMem) onMem = .ok m ∧
    onMem.checkConflicts (onMem.bayCtx 0) v 2 (m.flatMap fun e => e.2) = .ok () := by
  obtain ⟨v, h1, k⟩ := sat_ok (A := vecView 0 2 onMem.vty onMem) (p := fun v => !v.cmp && sat v.plainE fun _ => sat (indexChecks 4 onMem) fun _ =>
    sat (placeIndexed 0 v 0 false (indexList ⟨false, false, 0⟩ 4 32 onMem) onMem) fun _ =>
    sat (placeIndexed 0 v 2 true (indexList ⟨false, false, 0⟩ 4 32 onMem) onMem) fun m => sat (onMem.checkConflicts (onMem.bayCtx 0) v 2 (m.flatMap fun e => e.2)) fun _ => true)
    (by decide +kernel)
  simp only [Bool.and_eq_true, Bool.not_eq_true'] at k
  obtain ⟨u, h3, k'⟩ := sat_ok k.2
  obtain ⟨u, h4, k'⟩ := sat_ok k'
  obtain ⟨l, h5, k'⟩ := sat_ok k'
  obtain ⟨m, h6, k'⟩ := sat_ok k'
  obtain ⟨u, h7, -⟩ := sat_ok k'
  exact ⟨v, l, m, h1, h3, k.1, h4, h5, h6, h7⟩

theorem test_wit_ParametersAndCounters : (on .S).counter 0 = some 0 ∧ (on .S).counter 0xFFF = none := by decide +kernel

/-- Pegs in every queue, and none. -/
def pegged : Bay := { bay0 with cnt := (List.range 15).map fun q => (q, 2) }

/-- TKWAIT and TKSIG, VPEGW and VPEGS: with pegs and with none, with room and with a full queue, and with an empty mask. -/
theorem test_wit_PegWords : pegged.hasPegs (maskQueues 7 (queuesIn .S)) = true ∧ bay0.hasPegs (maskQueues 1 (queuesIn .S)) = false ∧
    bay0.roomAll (maskQueues 15 (queuesOut .S)) = true ∧ { bay0 with cnt := [(11, 15)] }.roomAll (maskQueues 1 (queuesOut .S)) = false ∧
    pegged.hasPegs (maskQueues 7 (queuesIn .V)) = true ∧ bay0.hasPegs (maskQueues 4 (queuesIn .V)) = false ∧
    bay0.roomAll (maskQueues 7 (queuesOut .V)) = true ∧ { bay0 with cnt := [(6, 15)] }.roomAll (maskQueues 1 (queuesOut .V)) = false ∧
    bay0.stores = [] ∧ (onStore.bay 0).stores ≠ [] := by decide +kernel

/-- A step word of any engine with every peg and every push may issue; so may one without. -/
theorem test_wit_MayIssue : ∀ e ∈ [Eng.M, .L, .W], MayIssue (on e pegged) 0 e 7 3 ∧ MayIssue (on e) 0 e 0 0 := by
  intro e he
  fin_cases he <;> exact ⟨⟨by decide +kernel, by decide +kernel, by decide +kernel, by decide +kernel⟩, ⟨by decide +kernel, by decide +kernel, by decide +kernel, by decide +kernel⟩⟩

/-- An XORD behind a full queue. -/
theorem test_wit_PegWords_waits : let y := { pegged with cnt := (List.range 15).map fun q => (q, 15) }
    (y.stream .L).isHalted = false ∧ (y.stream .L).copiesDone = true ∧ (y.stream .L).issued = none ∧ y.hasPegs (popsOf .L 1) = true ∧ y.roomAll (pushesOf .L 1) = false := by decide +kernel

/-- An XNOP's pegs at the head of unit L, before a copy that is not done. -/
theorem test_wit_PegWords_deferred :
    let r : CopyRec := { op := .copy, xnop := true, push := [0, 1], pc := 128, ordinal := 0 }
    let q : CopyRec := { op := .copy, push := [2], pc := 132, ordinal := 0 }
    let s := on .L { bay0 with l := { run := true, inflight := [r, q] } }
    ((s.bay 0).stream (unitEng .L)).inflight = r :: [q] ∧ (r.xnop || r.done) = true ∧ r.late = none ∧ ((s.bay 0).stream (unitEng .L)).isHalted = false ∧
      (∀ x ∈ [q].head?, x.done = false) := by decide +kernel

/-- SPAWN of two idle streams, and of one that runs; JOIN and HALT with a stream that runs, and with none. -/
theorem test_wit_StreamWords : (∀ e ∈ maskEngines 9, (bay0.sect e).2 ≠ 0 ∧ (bay0.stream e).run = false ∧ bay0.tPend.getLsbD e.idx = false) ∧
    (∃ e ∈ maskEngines 1, ((onV 0x15).bay 0 |>.stream e).run = true) ∧ (∀ e ∈ maskEngines 1, (bay0.sect e).2 ≠ 0) ∧
    bay0.running = false ∧ (on .S).quiet 0 = true ∧ { bay0 with v := { run := true, spwn := true } }.running = true ∧
    { bay0 with v := { run := true, spwn := true } }.spawned = true ∧
    (let s := on .S { bay0 with l := { spwn := true } }; ∀ e ∈ engines, ((s.bay 0).stream e).spwn = true → s.landed 0 e = true) ∧
    (let s := on .S { bay0 with l := { spwn := true, inflight := [{ op := .copy, push := [], pc := 128, ordinal := 0 }] } }
     (s.bay 0).running = false ∧ ((s.bay 0).stream .L).spwn = true ∧ s.landed 0 .L = false) := by decide +kernel

/-- A line fetch for V, whose turn it is; the end of unit L's section. -/
theorem test_wit_StreamWords_fetch :
    let y := { bay0 with fetchNext := 1, v := { run := true, pc := 64 }, l := { run := true, pc := 192 } }
    (portOrder.drop y.fetchNext ++ portOrder.take y.fetchNext).find? y.wantsLine = some .V ∧ y.atEnd .L = true ∧ part0.frozen = none ∧ (y.stream .L).inflight = [] ∧
    (let s := on .M { bay0 with m := { run := true, pc := 160 } }; (s.bay 0).atEnd .M = true ∧ s.trussQuiet 0 = true ∧ (s.bay 0).truss.held = false) := by
  decide +kernel

/-! Channels: channel 3 goes to lath 0, channel 4 comes from its output port 0. -/

def endOut : Endpoint := { bnd := true, peer := 0, ctx := 5, thread := 2, cap := 64, free := 10, fpar := parity7 10 }
def endIn : Endpoint := { bnd := true, dir := true, peer := 0, ctx := 5, thread := 2, cap := 64, free := 10, buf := [(7, mkTag 5 2 0)] }

/-- A lath with a program's port words: input port 0 takes channel 3 of bay 0, output port 0 feeds channel 4. -/
def portPlane : List (BitVec 32) :=
  [BitVec.ofNat 32 (1 + 3 * 4 + 2 * 16384), 0, 0, 0, BitVec.ofNat 32 (1 + 4 * 4 + 2 * 16384)] ++ List.replicate 40 0

def lath0 : Lath := { slot := some 0, ctx := 5, plane0 := portPlane }

def onChan (o i : Endpoint) (x : Lath := lath0) : State := { on .S { bay0 with chan := [(3, o), (4, i)] } with laths := [(0, x)] }

theorem test_wit_ChannelWords : endOut.bnd = true ∧ endOut.free ≠ 0 ∧ endOut.resync = false ∧ endIn.buf = (7, mkTag 5 2 0) :: [] ∧ (bay0.ep 9).bnd = false ∧
    ((onChan endOut endIn).bay 0).paired = false ∧ ((onChan endOut endIn).bay 0).stores = [] := by decide +kernel

/-- CHPUSH in a paired job, before and after both copies have been compared; CHPOP of an empty buffer. -/
theorem test_wit_ChannelWords_paired : let s := onBays (onChan endOut endIn) [(0, { bay0 with jobinfo := 0x80, chan := [(3, endOut), (4, { endIn with buf := [] })] })]
    let m := onBays s [(0, { s.bay 0 with merge := some [1, 3, 0, 0, 0], mergeDone := true })]
    (s.bay 0).paired = true ∧ (s.bay 0).merge = none ∧ ((s.bay 0).ep 4).buf = [] ∧ (m.bay 0).paired = true ∧ (m.bay 0).merge ≠ none ∧ (m.bay 0).mergeDone = true ∧
    (m.jobOf 0).primary = true ∧ { endOut with free := 0 }.free = 0 := by decide +kernel

theorem test_wit_ChannelWords_arrival :
    let tok : Token := (9, mkTag 5 2 0)
    let s := onChan endOut endIn { lath0 with outp := [{ wire := [tok] }, {}, {}, {}] }
    endIn.peer = BitVec.ofNat 7 0 ∧ s.ownsLath 0 0 = true ∧ (s.bay 0).paired = false ∧ (s.lathAt 0).channelPort true (s.bay 0).index 4 = some 0 ∧ ((s.lathAt 0).outPort 0).wire = tok :: [] ∧
      0 < (s.lathAt 0).outp.length ∧ tagCtx tok.2 = endIn.ctx.toNat ∧ tagThread tok.2 = endIn.thread.toNat ∧ tagSeq tok.2 = endIn.seq.toNat := by decide +kernel

/-- A credit on its way; an audit that is due, that holds, and that fails; a resync without and with its answer. -/
theorem test_wit_ChannelWords_audit : { endOut with credits := 1 }.credits ≠ 0 ∧ endOut.answer = none ∧ endOut.audit = none ∧
    endOut.auditAt + 4096 ≤ { onChan endOut endIn with clock := 4096 }.clock ∧
    (let e := { endOut with audit := some 0, sent := 54 }; e.fpar = parity7 e.free ∧ (e.free.toNat + (e.sent.toNat + 65536 - (e.audit.getD 0).toNat) % 65536) % 65536 = e.cap.toNat) ∧
    (let e := { endOut with audit := some 0, sent := 53 }; (e.free.toNat + (e.sent.toNat + 65536 - (e.audit.getD 0).toNat) % 65536) % 65536 ≠ e.cap.toNat) ∧
    { endOut with resync := true }.wire = [] ∧ (channelSource 0 3 (onChan { endOut with resync := true } endIn)).isSome = true ∧
    (onChan { endOut with credits := 1 } endIn).ownsLath 0 endOut.peer.toNat = true ∧ { endOut with answer := some (12, 3, 7) }.answer = some (12, 3, 7) := by decide +kernel

/-! Step words: a deterministic job's bay (bit 5 of JOBINFO) in a partition with frames of 16,384 clocks. -/

def detBay : Bay := { bay0 with jobinfo := 0x20 }

/-- The clock of T 1 in the partition's frame 0 is 8, of T 2047 it is 16,376, and T 2048 is beyond the frame. -/
theorem test_wit_StepIssue : bay0.det = false ∧ detBay.det = true ∧ part0.framelen.toNat ≤ 8 * (2048 : BitVec 12).toNat ∧ 8 * (2047 : BitVec 12).toNat < part0.framelen.toNat ∧
    (detBay.stream .L).isHalted = false ∧ (on .L detBay).clock < 8 ∧ ((detBay.stream .L).spawned + 8 ≤ 8) ∧ (detBay.stream .L).inflight = [] ∧
    (let s := { on .L detBay with clock := 9, parts := [(0, { part0 with sfcClk := 9 })] }
     ((s.origin 0 : Int) + (((if (1 : BitVec 12).toNat ≤ (detBay.stream .L).ls.toNat then 1 else 0 : Nat) : Int) - 0) * 16384 + 8 * 1 < s.clock)) ∧
    (let s := { on .L detBay with clock := 8, parts := [(0, { part0 with sfcClk := 8 })] }; (s.origin 0 : Int) + 8 * 1 = s.clock) := by decide +kernel

/-- TNOP, and an SLOOP of two words inside a loop of three. -/
theorem test_wit_StepIssue_loops : (bay0.m.issued = none ∧ (on .M).trussQuiet 0 = true) ∧
    (let s := on .L { bay0 with l := { pc := 132, lc := [(0, { rem := 2, len := 3, start := 132, active := true })] } }
     let outer := s.lcs.filter fun x => x.2.active && decide (x.2.start.toNat ≤ s.pc.toNat) && decide (s.pc.toNat < x.2.stop)
     s.pc.toNat + 4 + 4 * (2 : BitVec 5).toNat ≤ (bay0.sect .L).1 + (bay0.sect .L).2 ∧ (∀ x ∈ outer, s.pc.toNat + 4 + 4 * (2 : BitVec 5).toNat ≤ x.2.stop) ∧ outer.length = 1) ∧
    ({ inflight := [{ op := .copy, push := [], pc := 128, ordinal := 0, halted := true }] } : Stream).isHalted = true ∧
    (let s := on .L { bay0 with l := { pc := 132, lc := (List.range 4).map fun j => (j, { rem := 2, len := 3, start := 132, active := true }) } }
     (s.lcs.filter fun x => x.2.active && decide (x.2.start.toNat ≤ s.pc.toNat) && decide (s.pc.toNat < x.2.stop)).length = 4 ∧
     (∃ x ∈ s.lcs.filter fun x => x.2.active, x.2.stop < s.pc.toNat + 4 + 4 * (4 : BitVec 5).toNat)) := by
  decide +kernel

/-! Copies: set 0 goes from the slice vector to the bank matrix, set 1 back; set 2 is the same of i32 vectors; set 3 adds to region 0 of one row of
64 entries; set 4 is an XCAST to logical bay 0; set 5 goes from the bank matrix to a bx8 vector, set 6 to an i32 vector. The sets move 32 elements, and their index tensor is the w32 vector. -/

def copySet (c src dst mask : Nat) : Tab Word :=
  [(1024 + 32 * c, word src), (1025 + 32 * c, word dst), (1027 + 32 * c, 1), (1028 + 32 * c, 32), (1044 + 32 * c, word mask)]

def copyBay : Bay :=
  { bay0 with par := bay0.par ++ copySet 0 4 2 0 ++ copySet 1 2 4 0 ++ copySet 2 6 7 0 ++ copySet 3 4 16 0 ++ copySet 4 2 2 1 ++ copySet 5 2 8 0 ++ copySet 6 2 7 0 ++ [(256, 0x800B), (2048, fields [(1, 18), (64, 28)])] }

def issues (e : Eng) (x : CopyOp × Nat) : Bool :=
  let s := (on e copyBay).takePegs 0 e [] [] true
  decide ((copyRec 0 e x.1 x.2 [] s).issueChecks 0 e s = .ok ())

theorem test_wit_CopyIssue_L : [(CopyOp.copy, 0), (.gath, 0), (.scat, 0), (.conv, 0), (.fill, 0), (.addw, 3)].all (issues .L) = true := by decide +kernel

theorem test_wit_CopyIssue_W : [(CopyOp.copy, 1), (.gath, 1), (.scat, 1), (.conv, 1), (.fill, 1), (.cast, 4)].all (issues .W) = true := by decide +kernel

theorem test_wit_CopyIssue_red : [(CopyOp.red 0, 1), (.red 1, 2), (.red 2, 1), (.red 3, 1), (.red 4, 2), (.red 5, 2)].all (issues .W) = true ∧
    (copyBay.stream .W).hasSlot = true := by decide +kernel

/-! A copy and a fill in flight. -/

def inL (r : CopyRec) : State := on .L { copyBay with l := { run := true, inflight := [r] } }

def theFill : CopyRec := { copyRec 0 .L .fill 0 [2] (on .L copyBay) with ps := ((copyRec 0 .L .fill 0 [2] (on .L copyBay)).ps).set 4 4 }
def theCopy : CopyRec := { copyRec 0 .L .copy 0 [2] (on .L copyBay) with ps := ((copyRec 0 .L .copy 0 [2] (on .L copyBay)).ps).set 4 4 }

/-- A record alone in flight on a unit may move its sector. -/
def mayMove (e : Eng) (r : CopyRec) (s : State) : Bool :=
  s.goes 0 && r.late.isNone && !(r.xnop || r.moved || r.halted || r.opened || r.sentAll || r.fallen) && !clashes 0 e 0 r s

/-- The hypotheses on a sector that is not quantised, one after another. -/
def plainMoves (e : Eng) (r : CopyRec) (s : State) : Bool :=
  mayMove e r s && sat (r.begin_ 0 e s) fun r => sat (r.dstSide 0 s) fun dst =>
    let ps := upTo (r.range dst r.sector).1 (r.range dst r.sector).2
    sat (if r.op = .fill then .ok dst else r.srcSide 0 s) fun src => (r.op == .fill || !r.quantises src dst) &&
      sat (if r.op = .fill then .ok ([], s) else spotsOf (r.srcSpot 0 e src) ps s) fun a =>
      sat (if r.op = .fill then .ok ([], s) else r.scalesOf 0 e src a.1 a.2) fun k => sat (spotsOf (r.dstSpot 0 e dst) ps k.2) fun _ => true

/-- The hypotheses on a sector whose blocks are quantised. -/
def quantMoves (e : Eng) (r : CopyRec) (s : State) : Bool :=
  mayMove e r s && sat (r.begin_ 0 e s) fun r => sat (r.dstSide 0 s) fun dst => sat (r.srcSide 0 s) fun src =>
    let lo := (r.range dst r.sector).1
    let own := upTo lo (r.range dst r.sector).2
    let blocks := ((own.map (r.blockStart dst.blockDim)).eraseDups).map (r.blockFrom dst.blockDim)
    match dst with
    | .mem v => r.quantises src dst && sat (spotsOf (r.srcSpot 0 e src) blocks.flatten s) fun a => sat (r.scalesOf 0 e src a.1 a.2) fun k =>
      sat (spotsOf (r.dstSpot 0 e dst) own k.2) fun d => sat (d.2.scaleView (r.dstCtx 0 d.2) v) fun _ =>
      sat (spotsOf (r.scaleSpot 0 e v) ((blocks.map fun l => l.headD 0).filter fun p => decide (lo ≤ p)) d.2) fun _ => true
    | .acc .. => false

def inW (r : CopyRec) : State := on .W { copyBay with w := { run := true, inflight := [r] } }

/-- A copy of set `c` of four elements. -/
def fourOf (e : Eng) (op : CopyOp) (c : Nat) : CopyRec := { copyRec 0 e op c [2] (on e copyBay) with ps := ((copyRec 0 e op c [2] (on e copyBay)).ps).set 4 4 }

theorem test_wit_CopiesMove_plain : (inL theFill).cur = .stream 0 .L ∧ plainMoves .L theFill (inL theFill) = true ∧ plainMoves .L theCopy (inL theCopy) = true ∧
    (inW theCopy).cur = .stream 0 .W ∧ [(CopyOp.cast, 4), (.gath, 1), (.scat, 1), (.conv, 6), (.copy, 6)].all (fun x =>
      plainMoves .W (fourOf .W x.1 x.2) (inW (fourOf .W x.1 x.2))) = true := by decide +kernel

theorem test_wit_CopiesMove_quant : let r := copyRec 0 .W .conv 5 [2] (on .W copyBay)
    quantMoves .W r (inW r) = true := by decide +kernel

theorem test_wit_CopiesMove_done : let r := { theFill with moved := true }
    ((inL r).bay 0).l.inflight = r :: [] ∧ ((inL r).bay 0).live = true ∧ r.op = .fill ∧ (r.xnop || r.done) = false ∧ r.baren = false ∧
    (((inL r).bay 0).stream .L).isHalted = false := by decide +kernel

/-- An opened XADDW with two values for entries of one line. -/
def theAddw : CopyRec := { copyRec 0 .L .addw 3 [] (on .L copyBay) with ps := ((copyRec 0 .L .addw 3 [] (on .L copyBay)).ps).set 4 2, opened := true, vals := [5, 6] }

theorem test_wit_AddsAndReductions_addw : theAddw.halted = false ∧ theAddw.late = none ∧ ((inL theAddw).part 0).clkSlot = theAddw.slot ∧ theAddw.lineAt ≠ some (inL theAddw).clock ∧
    ((inL theAddw).bent 0).lastRow = none ∧ ∃ dst, theAddw.dstSide 0 (inL theAddw) = .ok dst ∧ (theAddw.entries dst).zip theAddw.vals = [(0, 5), (1, 6)] := by
  refine ⟨by decide +kernel, by decide +kernel, by decide +kernel, by decide +kernel, by decide +kernel, ?_⟩
  obtain ⟨dst, h1, k⟩ := sat_ok (A := theAddw.dstSide 0 (inL theAddw)) (p := fun dst => decide ((theAddw.entries dst).zip theAddw.vals = [(0, 5), (1, 6)])) (by decide +kernel)
  exact ⟨dst, h1, of_decide_eq_true k⟩

def aReq : RedReq := { seq := 3, op := 1, addr := sillAddr 0 0, tid := 0x8007, off := 0, space := .sill, vals := [(0, [sillAddr 0 0, sillAddr 0 1, sillAddr 0 2, sillAddr 0 3], 9)]
                       sent := 0, applied := false, flags := 0, copy := 0 }

/-- A request whose home has seen sequence 2, one whose home has seen 3, and one that has been applied. -/
theorem test_wit_AddsAndReductions_red : let s := on .W { bay0 with reds := [aReq] }
    (s.bay 0).reds[0]? = some aReq ∧ (s.bay 0).paired = false ∧ (∀ x ∈ (s.bay 0).reds.take 0, x.home = aReq.home → x.applied = true) ∧
    aReq.applied = false ∧ (∀ e ∈ aReq.vals, ∀ a ∈ e.2.1, s.writeWaits a = false) ∧ newer 2 aReq.seq = true ∧ newer 3 aReq.seq = false ∧ { aReq with applied := true }.applied = true := by decide +kernel

/-! The truss: tensors 0 A, 1 B (a plane bank), 2 signatures, 3 a map of two rows in one bucket, 4 representative indices, 5 representatives; set 0
names region 0 and destination region 1, set 1 region 2, which has an open prediction. -/

def trussBay : Bay :=
  { bay0 with
    bankfmt := [(0, 0x02), (1, 0x42), (2, 0x0C), (3, 0x0B), (4, 0x0C), (5, 0x02)]
    m := { run := true, pc := 128 }, truss := { opens := [2] }
    par := (List.range 6).map (fun i => (32 * i, word (0x8000 + i))) ++
      [(512, fields [(2, 4)]), (513, fields [(1, 0), (2, 4)]), (515, fields [(2, 0), (2, 10), (2, 19)]), (517, fields [(1, 4)]),
       (518, fields [(2, 7), (3, 11), (4, 15), (5, 19), (1, 23)]), (549, fields [(2, 0), (1, 4)]), (1536, fields [(1, 0), (2, 1), (1, 6), (1, 11)]),
       (2048, fields [(4, 18), (4, 28), (1, 37)]), (2080, fields [(64, 0), (4, 18), (4, 28), (1, 37)]), (2112, fields [(128, 0), (4, 18), (4, 28), (1, 37)]), (2113, 1)] }

def trussJob : Job :=
  { job0 with entries := [entry 0x02 [2, 32] [(0, 8), (1, 15)] 0 [32], entry 0x02 [2, 32] [(1, 8), (1, 15)] 0 [32], entry 0x0C [2, 2] [(2, 8), (1, 15)] 0 [8],
                          entry 0x0B [16] [(3, 8), (1, 15)] 0 [], entry 0x0C [4] [(4, 8), (1, 15)] 0 [], entry 0x02 [2, 32] [(5, 8), (1, 15)] 0 [32]] }

def onTruss : State :=
  { cur := .stream 0 .M, bays := [(0, trussBay)], jobs := [(0, trussJob)], parts := [(0, part0)]
    mem := [(bankAddr 0 3 0, 1), (bankAddr 0 3 2, 2), (bankAddr 0 3 14, 2)] }

def trussOk (x : TrussOp × Nat) : Bool :=
  let s := onTruss.takePegs 0 .M [] [] true
  sat (trussChecks 0 (trussCmd 0 x.1 x.2 0 [] s) s) fun c => decide (c.op = x.1)

theorem test_wit_TrussIssue : [(TrussOp.loadb, 0), (.mma false, 0), (.mma true, 0), (.promo, 0), (.drain, 0), (.zero, 0), (.commit, 1), (.discard, 1)].all trussOk = true ∧
    trussBay.truss.queue.length < 4 ∧ onTruss.trussQuiet 0 = true ∧
    [(TrussOp.loadb, 0), (.mma false, 0), (.zero, 0), (.sign, 0), (.mgrad, 0)].all (fun x =>
      !onTruss.locksAny 0 (trussCmd 0 x.1 x.2 0 [] onTruss).checked) = true := by decide +kernel

theorem test_wit_TrussIssue_signatures : [(TrussOp.sign, 0), (.bucket, 0), (.reps 0, 0), (.reps 1, 0), (.reps 2, 0), (.scat, 0), (.mgrad, 0)].all trussOk = true := by
  decide +kernel

/-- A set with a reserved bit is refused. -/
theorem test_wit_TrussIssue_bad : ∃ rc, trussChecks 0 { trussCmd 0 .zero 0 0 [] onTruss with ps := List.replicate 8 (BitVec.allOnes 64) } onTruss = .error (.trap rc) :=
  ⟨{ cause := 0x3F }, by decide +kernel⟩

def withTruss (x : TrussBay) : State := { onTruss with bays := [(0, { trussBay with truss := x })] }

/-- TLEASE with and without the lease; a grant to the one request; a window that has ended. -/
theorem test_wit_TrussLife_lease : trussBay.m.issued = none ∧ trussBay.m.isHalted = false ∧ trussBay.m.kept = [] ∧ trussBay.hasPegs (popsOf .M 0) = true ∧
    trussBay.roomAll (pushesOf .M 0) = true ∧ ((withTruss { held := true }).bay 0).truss.held = true ∧
    (let s := withTruss { req := true }; s.holder 0 = none ∧ nextWindow 0 s = none ∧ nextRequest 0 s = some 0 ∧ (s.bay 0).m.issued = none) ∧
    (let s := { withTruss {} with bays := [(0, { trussBay with jobinfo := 0x20, truss := { held := true, window := some (0, 1) } })] }
     (s.bay 0).det = true ∧ s.openWindow 0 ≠ (s.bay 0).truss.window ∧ (s.bay 0).truss.inner = []) := by decide +kernel

def cmdOf (op : TrussOp) (m : Nat) : TrussCmd := trussCmd 0 op m 0 [] onTruss

/-- Commands that start, a row write that its clock allows, and a command whose writes have landed. -/
theorem test_wit_TrussLife_run : (let s := withTruss { held := true, queue := [cmdOf .drain 0] }
      s.holder 0 = some 0 ∧ (s.bay 0).live = true ∧ s.trussFree 0 = true ∧ (s.bay 0).truss.queue = cmdOf .drain 0 :: [] ∧ (s.bay 0).truss.cnt < 63 ∧ (s.bay 0).truss.inner = []) ∧
    sat (regionOf (nth 0 (cmdOf .zero 0).zs 0)) (fun r => r.rows == 4) = true ∧ (cmdOf .discard 1).op = .discard ∧ (cmdOf .promo 0).op = .promo ∧
    (let w : RowWrite := { owner := 0, bay := 0, id := 1, base := 4, n := 2, i32 := true, wmask := 1, op := .bits [7, 8] }
     let s := { withTruss { running := [{ cmdOf .zero 0 with id := 1 }] } with bents := [(0, { writes := [w] })] }
     (s.bay w.owner).live = true ∧ rowAllowed (s.bent 0) w s = true) ∧
    (let s := withTruss { running := [{ cmdOf .zero 0 with id := 1 }] }
     ∀ w ∈ (s.bent (0 / 8)).writes, w.owner = 0 → 1 < w.id) := by decide +kernel

/-- A window of bay 0 from clock 0 to clock 127 that is open and has not been granted. -/
theorem test_wit_TrussLife_window :
    let s := { withTruss {} with
      bays := [(0, { trussBay with jobinfo := 0x20 })], jobs := [(0, { trussJob with stamps := natBytes 4 0 ++ natBytes 4 1 ++ natBytes 8 (15 * 2 ^ 32) })] }
    s.holder 0 = none ∧ (nextWindow 0 s).map (fun x => x.1) = some 0 ∧ (s.bay 0).m.issued = none := by decide +kernel

/-- The command `c` at the head of the holder's queue. -/
def starting (c : TrussCmd) (f : TrussBay → TrussBay := fun x => x) : State := withTruss (f { held := true, queue := [c] })

def startsOk (c : TrussCmd) (f : TrussBay → TrussBay := fun x => x) : Bool :=
  let s := starting c f
  decide (s.holder 0 = some 0 ∧ (s.bay 0).live = true ∧ s.trussFree 0 = true ∧ (s.bay 0).truss.queue = [c] ∧ (s.bay 0).truss.cnt < 63 ∧ c.op ≠ .free)

/-- A commit with KEEP of region 2 with two inner rows, and TFREE behind them. -/
theorem test_wit_TrussLife_shadow : let c := { cmdOf .commit 1 with ps := (cmdOf .commit 1).ps.set 5 (fields [(2, 0), (1, 13)]) }
    let f := fun (x : TrussBay) => { x with pend := true, bz := 2, bshd := true, inner := [(0, [1]), (1, [2])] }
    startsOk c f = true ∧ c.keep = true ∧ sat (regionOf (nth 0 c.zs 0)) (fun _ => true) = true ∧ ((starting c f).bay 0).truss.shadowOf c.z = true ∧
    (((starting c f).bay 0).truss.inner.map fun x => x.1).Nodup ∧ (freeCmd 128).op = .free ∧ (starting (freeCmd 128) f).trussFree 0 = true ∧
    (cmdOf .commit 1).keep = false := by decide +kernel

/-- A load of B that runs, and one whose tensor has no entry. -/
theorem test_wit_TrussLife_load : let c := cmdOf .loadb 0
    let bad := { c with hs := c.hs.map fun _ => 0x8009 }
    startsOk c = true ∧ startsOk bad = true ∧ (match loadSlab 0 bad (starting bad) with | .error (.trap _) => true | _ => false) = true ∧
    sat (bViews 0 c (starting c)) (fun vw => sat ((starting c).checkTrailer ((starting c).bayCtx 0) vw.1 1 spBank) fun _ =>
      sat (bCols 0 c vw.1 (starting c)) fun l => !c.bmen && !vw.1.cmp && !l.isEmpty && isBlock c.bfmt == false) = true := by decide +kernel

/-- A product without a slab in FRONT, and with one of its format. -/
theorem test_wit_TrussLife_product : let c := cmdOf (.mma false) 0
    let f := fun (x : TrussBay) => { x with valid0 := true, slab0 := { fmt := 2, n := 2 } }
    startsOk c = true ∧ ((starting c).bay 0).truss.frontSlab = none ∧ startsOk c f = true ∧ ((starting c f).bay 0).truss.frontSlab = some { fmt := 2, n := 2 } ∧
    c.bfmt = 2 ∧ planesOf 0 = planesOf c.prec ∧ c.n = 2 ∧ isBlock c.bfmt = false ∧ c.split = false ∧ sat (regionOf (nth 0 c.zs 0)) (fun _ => true) = true ∧
    sat (aViews 0 c (starting c f)) (fun aw => sat (aRows 0 c aw.1 (starting c f)) fun l => !l.isEmpty) = true := by decide +kernel

/-- The words of the signature unit that start; the map's rule is 0, or 1. -/
theorem test_wit_TrussLife_signatures : let ok := fun c (p : State → Bool) => startsOk c && p (starting c)
    let map := fun (c : TrussCmd) s => sat (mapView 0 c true s) fun _ => sat (mapView 0 c false s) fun mv => (readMap 0 c mv s).rule == 0 &&
      (readMap 0 c mv { s with mem := [(bankAddr 0 3 0, 1), (bankAddr 0 3 2, 2), (bankAddr 0 3 4, 1), (bankAddr 0 3 14, 2)] }).rule == 1
    ok (cmdOf .sign 0) (fun s => let c := cmdOf .sign 0; sat (actView 0 c s) fun _ => sat (writeView 0 (c.h hSIGH) 2 s) fun _ => !c.hfStored) = true ∧
    ok (cmdOf .bucket 0) (fun s => let c := cmdOf .bucket 0; sat (plainView 0 (c.h hSIGH) 1 s) fun _ => map c s) = true ∧
    [0, 1, 2].all (fun r => let c := cmdOf (.reps r) 0
      ok c fun s => map c s && sat (actView 0 c s) fun _ => sat (writeView 0 (c.h hIXOH) 2 s) fun _ => sat (writeView 0 (c.h hREPH) 2 s) fun _ => true) = true ∧
    [TrussOp.scat, .mgrad].all (fun op => let c := cmdOf op 0
      ok c fun s => map c s && !c.gdir && !c.split && sat (regionOf (nth 0 c.zs 0)) fun _ => sat (regionOf (nth 0 c.zs 1)) fun _ => true) = true ∧
    (let c := { cmdOf .mgrad 0 with ps := (cmdOf .mgrad 0).ps.set 6 (nth 0 (cmdOf .mgrad 0).ps 6 ||| 0x10000000) }
     ok c (fun s => map c s) = true ∧ c.gdir = true) := by decide +kernel

/-! Rows and barriers: stream 5 is the partition's own; handle 1 names a w64 vector in a slice, with a barrier object of four arrivals at element 0. -/

def onRows : State :=
  { on .S { bay0 with s := [(1, 0x300000005), (2, 9), (3, 0x1)] } with
    rowcnt := [(5, 0x200000008)], mem := [(sillAddr 0 0, 4)] }

/-- ROWPUB of frame 3 after frame 2; of stream 5 going back; and of a stream that a chain writes. -/
theorem test_wit_RowsAndBarriers_rowpub :
    bits (onRows.readS 1) 5 0 = 5 ∧ bits (onRows.readS 1) 63 32 = 3 ∧ bits (onRows.readS 2) 15 0 = 9 ∧
    (!chainEn (onRows.chain 5) && chainPart (onRows.chain 5) == (onRows.bay 0).partNo) = true ∧
    (passedFrame (rwFrame (onRows.rowWord 5)) 3 || ((3 : Nat) == rwFrame (onRows.rowWord 5) && decide (9 < rwRows (onRows.rowWord 5)))) = false ∧
    passedFrame 3 2 = true ∧ chainEn { w := [1] } = true := by decide +kernel

theorem test_wit_RowsAndBarriers_objects : ∃ v x, barView 0 1 onRows = .ok v ∧ barPlace (onRows.bayCtx 0) v true (onRows.readS 0).toInt onRows = .ok x ∧
    barBad (onRows.readBar x) = false ∧ oExp (onRows.readBar x) - oArr (onRows.readBar x) = 4 ∧ 4 < (5 : BitVec 4).toNat ∧ barBad 0 = true := by
  obtain ⟨v, h1, k⟩ := sat_ok (A := barView 0 1 onRows) (p := fun v => sat (barPlace (onRows.bayCtx 0) v true (onRows.readS 0).toInt onRows) fun x =>
    decide (barBad (onRows.readBar x) = false ∧ oExp (onRows.readBar x) - oArr (onRows.readBar x) = 4)) (by decide +kernel)
  obtain ⟨x, h2, k⟩ := sat_ok k
  exact ⟨v, x, h1, h2, (of_decide_eq_true k).1, (of_decide_eq_true k).2, by decide, by decide⟩

/-! Bounded waits: stream 5 has passed frame 1 and is at row 8 of frame 2; the barrier object is in phase 0. -/

def onWait (r : Option WaitRec) (clock : Nat) : State := { onRows with bays := [(0, { bay0 with waiting := r })], clock := clock }

def lookMet (k : WaitKind) (s : State) : Option Bool :=
  match k.look 0 s with
  | .ok l => some l.met
  | .error _ => none

theorem lookMet_some {k : WaitKind} {s : State} {b : Bool} (h : lookMet k s = some b) : ∃ l, k.look 0 s = .ok l ∧ l.met = b := by
  unfold lookMet at h
  cases hk : k.look 0 s with
  | error => simp [hk] at h
  | ok l => exact ⟨l, rfl, by simpa [hk] using h⟩

/-- Each kind of wait with its condition met and not met. -/
theorem test_wit_BoundedWaits : ∀ x ∈ [(WaitKind.row 5 2 8, true), (.row 5 2 9, false), (.frm 5 1, true), (.frm 5 2, false), (.bar 0x8001 (sillAddr 0 0) 1, true), (.bar 0x8001 (sillAddr 0 0) 0, false)],
    ∃ l, x.1.look 0 onRows = .ok l ∧ l.met = x.2 := by
  have h : [(WaitKind.row 5 2 8, true), (.row 5 2 9, false), (.frm 5 1, true), (.frm 5 2, false), (.bar 0x8001 (sillAddr 0 0) 1, true), (.bar 0x8001 (sillAddr 0 0) 0, false)].all
    (fun x => lookMet x.1 onRows == some x.2) = true := by decide +kernel
  intro x hx
  exact lookMet_some (by simpa using List.all_eq_true.1 h x hx)

/-- A wait whose bound of 10 clocks has elapsed at clock 10 and not at clock 9, and one without a bound. -/
theorem test_wit_BoundedWaits_bound : ((10 : Word) ≠ 0xFFFFFFFFFFFFFFFF ∧ (10 : Word).toNat ≤ 10 - 0) ∧ ¬ ((10 : Word) ≠ 0xFFFFFFFFFFFFFFFF ∧ (10 : Word).toNat ≤ 9 - 0) ∧
    ¬ ((0xFFFFFFFFFFFFFFFF : Word) ≠ 0xFFFFFFFFFFFFFFFF) ∧
    (let w : WaitRec := ⟨0, 10, 3, .row 5 2 9⟩
     let s := onWait (some w) 10
     (s.bay 0).waiting = some w ∧ (s.bay 0).live = true ∧ (s.bay 0).seqHalted = false ∧ (s.jobOf 0).idle = false ∧ (s.part (s.bay 0).partNo).frozen = none) ∧
    sat (checkBar 0 1 (onRows.readS 0) 1 onRows) (fun k => k == .bar 0x8001 (sillAddr 0 0) 1) = true ∧ (onRows.bay 0).waiting = none ∧
    checkSq 0 2 onRows = .error (.trap { cause := 0x3C }) := by decide +kernel

/-! The square: group 2 with one member, stream 0 of an enabled chain of one tile slot. -/

def groupWords : List Word := [fields [(1, 0), (0x8009, 8)], fields [(5, 0), (100, 32)], 0, 0]

def onSquare (x : Group) : State :=
  { on .S with
    groups := [(2, x)], chains := [(0, { w := [fields [(1, 0), (1, 26)], fields [(3, 48)], 0, 0, 0, 0, 0, 0, 0, 0] })]
    clk := { time := 150 } }

theorem test_wit_SquareFusesArmedGroups_arm : (sqBad (onSquare { w := groupWords }) 0 groupWords = false) ∧ ({ w := groupWords } : Group).armed = false ∧
    ((sqRecord 0 (bits (nth 0 groupWords 0) 23 8) (onSquare { w := groupWords })).any fun l => l.all fun a => !(onSquare { w := groupWords }).writeWaits a) = true := by decide +kernel

/-- A group that its SQARM does not complete, as its deadline lies ahead, and one that it completes at once, as its deadline has passed. -/
theorem test_wit_SquareFusesArmedGroups_at : let armed := fun t : Word => (onSquare { w := groupWords }).setGroup 2 { ({ w := groupWords } : Group) with armed := true, tgt := t, copy := groupWords }
    (sqReady 2 (armed 100) || sqDue 2 (armed 100)) = false ∧ (sqReady 2 (armed 0) || sqDue 2 (armed 0)) = true ∧ ({ w := groupWords } : Group).ready = false := by decide +kernel

/-- A READY group of the job, and one that is not READY. -/
theorem test_wit_SquareFusesArmedGroups_release : (let x : Group := { ready := true, held := [(0, 0)] }; x.slot.toNat = ((onSquare x).bay 0).slotNo % 256 ∧ x.part.toNat = ((onSquare x).bay 0).partNo) ∧
    ({} : Group).ready = false := by decide +kernel

/-- The bytes of some words from an address on. -/
def cells (a : Nat) (l : List Word) : List Host.Cell :=
  (((l.flatMap fun w => natBytes 8 w.toNat).zip (List.range (8 * l.length))).map fun x => (a + x.2, x.1)).filter fun c => c.2 != 0

/-- The one member has a closed tile of time 50 in slot 0: its headers are tensor 3 of the partition. -/
theorem test_wit_SquareFusesArmedGroups_complete :
    let s := { onSquare { w := groupWords, copy := groupWords, armed := true, tgt := 50 } with
      mem := [(sillAddr 0 49152, 50), (sillAddr 0 49172, 1)] ++ cells (dramAddr 768) (entry 0x0A [1, 512] [(3, 0), (0, 8), (1, 15)] 49152 [512]) }
    sqReady 2 s = true ∧ Memory.wf s.mem = true := by decide +kernel

/-- An armed group whose deadline base 50 with DL 100 has come at time 150. -/
theorem test_wit_SquareFusesArmedGroups_deadline : let x : Group := { w := groupWords, copy := groupWords, armed := true, tgt := 50 }
    x.armed = true ∧ ((onSquare x).part x.part.toNat).frozen = none ∧ (onSquare x).logSays x.part.toNat 1 2 = .free ∧
    x.due = [] ∧ (∀ y ∈ x.recAt, (onSquare x).writeWaits y = false) ∧ x.tgt.toNat + bits (nth 0 x.copy 1) 63 32 ≤ (onSquare x).clk.time.toNat := by decide +kernel

/-- An armed group whose record waits to be written, in slice 0. -/
theorem test_wit_SquareFusesArmedGroups_due : let x : Group := { w := groupWords, copy := groupWords, armed := true, recAt := [sillAddr 0 0], due := [7] }
    x.armed = true ∧ x.due ≠ [] ∧ ∀ y ∈ x.recAt, (onSquare x).writeWaits y = false := by decide +kernel

/-- LOOPR on a jointer of chain 0, whose handle's words are free values (log 19): given words that name the partition's w32 tensor 3 in a slice, every
other hypothesis holds; and a body beyond the code. -/
def onJtrRows : State :=
  { onJtr with mem := cells (dramAddr 768) (entry 0x0C [64] [(3, 0), (0, 8), (1, 15)] 0 []), jobs := [], parts := [(0, part0)] }

theorem test_wit_LoopsEnterSkipAndEnd_jointer : loopCheck 0x02 false 0 1 onJtrRows = .ok () ∧ loopCheck 0x02 false 0 255 onJtrRows = .error (trapC 0x02) ∧
    onJtrRows.cur = .jointer 0 0 ∧ ∃ hw v r0 s1 r1 s2, onJtrRows.viewH (onJtrRows.chainCtx 0) hw = .ok v ∧ v.fmt = 0x0C ∧ v.plainE = .ok () ∧
      onJtrRows.readIndex (onJtrRows.chainCtx 0) v 0 spFar (onJtrRows.readS 0).toInt = .ok (r0, s1) ∧
      s1.readIndex (s1.chainCtx 0) v 0 spFar ((onJtrRows.readS 0).toInt + 1) = .ok (r1, s2) := by
  refine ⟨by decide +kernel, by decide +kernel, rfl, (3, 0), ?_⟩
  obtain ⟨v, h1, h⟩ := sat_ok (A := onJtrRows.viewH (onJtrRows.chainCtx 0) (3, 0)) (p := fun v => decide (v.fmt = 0x0C ∧ v.plainE = .ok ()) &&
    sat (onJtrRows.readIndex (onJtrRows.chainCtx 0) v 0 spFar (onJtrRows.readS 0).toInt) fun r =>
    sat (r.2.readIndex (r.2.chainCtx 0) v 0 spFar ((onJtrRows.readS 0).toInt + 1)) fun _ => true) (by decide +kernel)
  obtain ⟨h0, h⟩ := Bool.and_eq_true_iff.1 h
  obtain ⟨⟨r0, s1⟩, h2, h⟩ := sat_ok h
  obtain ⟨⟨r1, s2⟩, h3, -⟩ := sat_ok h
  exact ⟨v, r0, s1, r1, s2, h1, (of_decide_eq_true h0).1, (of_decide_eq_true h0).2, h2, h3⟩

/-! Laths. -/

/-- The program words of a lath: eight port words and sixteen parameter slots, of which slot 0 is `w`. -/
def slotPlane (w : Nat) : List (BitVec 32) := List.replicate 8 0 ++ [BitVec.ofNat 32 w, BitVec.ofNat 32 (w / 2 ^ 32)] ++ List.replicate 40 0

/-- Batches of payloads 5 and 3 at port 0, and of 4 at port 1, of thread 0. -/
def stored (l : List Nat) : List Stored :=
  (l.zip (List.range l.length)).map fun x => ⟨7, x.2, (BitVec.ofNat 64 x.1, mkTag 5 0 x.2), false⟩

def batchLath (w : Nat) : Lath :=
  { slot := some 0, ctx := 5, plane0 := slotPlane w, inp := [{ store := stored [2, 5, 3], nextOrder := 3 }, { store := stored [1, 4], nextOrder := 2 }, {}, {}] }

def onLath (n : Nat) (x : Lath) : State := { cur := .lath n, laths := [(n, x)], jobs := [(0, job0)], parts := [(0, part0)] }

def takenOf : Next → Option Batch
  | .some b => Option.some b
  | _ => Option.none

theorem takenOf_some {x : Next} {b : Batch} (h : takenOf x = some b) : x = .some b := by
  cases x <;> simp_all [takenOf]

def batch0 : Batch := ⟨7, 0, (2, mkTag 5 0 0), [(5, mkTag 5 0 1), (3, mkTag 5 0 2)], 0, 2, false⟩
def batch1 : Batch := ⟨7, 0, (1, mkTag 5 0 0), [(4, mkTag 5 0 1)], 0, 1, false⟩

theorem test_wit_LathOps_batches : BatchReady (onLath 17 (batchLath 128)) 17 0 [2] batch0 ∧ BatchReady (onLath 17 (batchLath 128)) 17 1 [2] batch1 ∧
    batch0.data.length + batch1.data.length ≤ 192 ∧ BatchReady (onLath 34 (batchLath 128)) 34 0 (maskPorts 3) batch0 :=
  ⟨⟨takenOf_some (by decide +kernel), by decide +kernel⟩, ⟨takenOf_some (by decide +kernel), by decide +kernel⟩, by decide, ⟨takenOf_some (by decide +kernel), by decide +kernel⟩⟩

/-- Slots with a compare width of 32, with TOPK 1 and 192, and with BINS 1 and 192. -/
theorem test_wit_LathOps_slots : slotCheck { compare := true } 128 = .ok () ∧ slotCheck { compare := true, topk := true } (128 + 2 ^ 10) = .ok () ∧
    slotCheck { compare := true, topk := true } (128 + 192 * 2 ^ 10) = .ok () ∧ slotCheck {} 0 = .ok () ∧ sKfmt 128 = 0 ∧
    slotCheck { bins := true, formats := [0, 3] } (2 ^ 18) = .ok () ∧ slotCheck { bins := true, formats := [0, 3] } (192 * 2 ^ 18) = .ok () ∧
    ((batchLath 128).slotWord 0) = 128 ∧ ((batchLath (192 * 2 ^ 18)).slotWord 0) = 192 * 2 ^ 18 := by decide +kernel

/-- Slots of the other key formats for LSCAN. -/
theorem test_wit_LathOps_scan : ∀ k ∈ [0, 1, 2, 3], slotCheck {} k = .ok () ∧ sKfmt k = k := by decide +kernel

/-- LGATH from tensor 8, whose elements are 32 bits wide, with EW 32. -/
def gathSlot : Nat := 0x8008 * 2 ^ 32 + 2 * 2 ^ 52

theorem test_wit_LathOps_gath : slotCheck { formats := [0, 3] } gathSlot = .ok () ∧ (sKfmt gathSlot == 0 && sEw gathSlot == 64) = false ∧
    (batchLath gathSlot).hop = none ∧ ∃ v l, gathView 0 gathSlot (onLath 0 (batchLath gathSlot)) = .ok v ∧
      gathTokens 0 gathSlot v batch0.data { src := 7, thread := 0 } (onLath 0 (batchLath gathSlot)) = .ok (some l, onLath 0 (batchLath gathSlot)) := by
  refine ⟨by decide +kernel, by decide +kernel, by decide +kernel, ?_⟩
  obtain ⟨v, h1, k⟩ := sat_ok (A := gathView 0 gathSlot (onLath 0 (batchLath gathSlot))) (p := fun v =>
    sat (gathTokens 0 gathSlot v batch0.data { src := 7, thread := 0 } (onLath 0 (batchLath gathSlot))) fun r =>
      decide (r.2 = onLath 0 (batchLath gathSlot)) && r.1.isSome) (by decide +kernel)
  obtain ⟨⟨l, t⟩, h2, h3⟩ := sat_ok k
  simp only [Bool.and_eq_true, decide_eq_true_eq] at h3
  obtain ⟨rfl, h4⟩ := h3
  obtain ⟨l, rfl⟩ := Option.isSome_iff_exists.1 h4
  exact ⟨v, l, h1, h2⟩

/-- LSWAP with a loaded plane and nothing to emit, and with a token to emit. -/
theorem test_wit_LathState : (let x : Lath := { batchLath 0 with shv := true }; x.shv = true ∧ ∀ p ∈ x.outp, p.emit = []) ∧
    (let x : Lath := { batchLath 0 with shv := true, outp := [{ emit := [(1, 0)] }, {}, {}, {}] }; ∃ p ∈ x.outp, p.emit ≠ []) ∧ (batchLath 0).shv = false ∧
    (let x := batchLath 0; x.slot ≠ none ∧ x.hlt = false ∧ x.rcv = false ∧ x.parity = false) := by decide +kernel

/-- A token of channel 3 that repeats a sequence, one ahead of it, and one of another context; over a lath link, from output port 1 of lath 2, one
that is stored and one ahead of its sequence; and a lath that no job holds. -/
theorem test_wit_LathState_checks : let at_ := fun c n => ((9, mkTag c 2 n) : Token)
    let x := (onChan endOut endIn).lathAt 0
    let link := BitVec.ofNat 32 (2 + 2 * 4 + 1 * 512)
    let y : Lath := { slot := some 0, ctx := 5, plane0 := link :: List.replicate 40 0 }
    let z : Lath := { plane0 := List.replicate 5 0 ++ [BitVec.ofNat 32 2] ++ List.replicate 40 0, outp := [{}, { wire := [at_ 5 0] }, {}, {}] }
    let s := { on .S with laths := [(0, y), (2, z)] }
    (x.tokenCase 0 3 (at_ 5 (65535))).bad = some (none, false) ∧ (x.tokenCase 0 3 (at_ 5 1)).bad = some (some 0x61, true) ∧
    (x.tokenCase 0 3 (at_ 6 0)).bad = some (some 0x60, false) ∧ (x.tokenCase 0 3 (9, mkTag 5 3 0)).bad = some (some 0x66, false) ∧
    x.slot = some 0 ∧ (s.job 0).bays = [0] ∧ (s.bay 0).live = true ∧ (s.bay 0).slot = some 0 ∧
    s.lathAway 0 = false ∧ ((s.lathAt 2).outPort 1).wire = at_ 5 0 :: [] ∧ s.linkDest 2 1 = some (0, 0) ∧ 0 < y.inp.length ∧ 1 < z.outp.length ∧
    y.tokenCase 0 (linkKey 2 1) (at_ 5 0) = .store ∧ (y.tokenCase 0 (linkKey 2 1) (at_ 5 1)).bad = some (some 0x61, true) ∧ ({} : Lath).slot = none := by
  decide +kernel

/-- A token of channel 3 arrives, moves into the batch store, and another is sent, to a channel and over a link. -/
theorem test_wit_LathState_tokens : (let tok : Token := (9, mkTag 5 2 0)
      let s := onChan { endOut with wire := [tok] } endIn
      let x := s.lathAt 0
      s.lathAway 0 = false ∧ ((s.bay 0).ep 3).wire = tok :: [] ∧ ((s.bay 0).ep 3).dir = false ∧ ((s.bay 0).ep 3).peer.toNat = 0 ∧ x.channelPort false (s.bay 0).index 3 = some 0 ∧
        x.tokenCase 0 3 tok = .store ∧ 0 < x.inp.length) ∧
    (let x : Lath := { lath0 with inp := [{ sources := [{ src := 3, buf := [(9, 0)] }] }, {}, {}, {}] }
     ((x.inPort 0).source 3).buf = (9, 0) :: [] ∧ (x.inPort 0).store.length < 256) ∧
    (let x : Lath := { lath0 with outp := [{ emit := [(9, 0)] }, {}, {}, {}] }
     let s := onChan endOut endIn x
     (x.outPort 0).emit = (9, 0) :: [] ∧ (x.outPort 0).credits ≠ 0 ∧ x.rcv = false ∧ s.lathAway 0 = false ∧ pwKind (x.portWord (4 + 0)) = 1 ∧ x.slot = some 0 ∧
     ((s.bay (nth 0 (s.job 0).bays (pwBay (x.portWord (4 + 0))))).ep (pwChan (x.portWord (4 + 0)))).resync = false) ∧
    (let z : Lath := { slot := some 0, plane0 := List.replicate 5 0 ++ [BitVec.ofNat 32 2] ++ List.replicate 40 0, outp := [{}, { emit := [(9, 0)] }, {}, {}] }
     let s := { on .S with laths := [(0, { slot := some 0 }), (2, z)] }
     s.linkDest 2 1 = some (0, 0) ∧ (((s.lathAt 0).inPort 0).source (linkKey 2 1)).resync = false ∧ s.lathAway 2 = false) := by decide +kernel

/-! Hash tables: table 0 with keys of three bits and four buckets in tensor 8, which holds row 9 under key 1 in its first slot; family 0 has it as its
one member. Table 1 rehashes to the same number of buckets. -/

def hashWords (st : Nat) : List Word := [fields [(1, 0), (5, 1), (3, 7), (2, 12), (st, 19), (2, 20)], fields [(0x8008, 0), (0xFFFF, 16), (0x8008, 32), (0xFFFF, 48)], 0, 0, 0, 0, 0, 0]

def hashLath (l : List Nat) (h : Option HashOp) : Lath := { batchLath 0 with inp := [{ store := stored l, nextOrder := l.length }, {}, {}, {}], hop := h }

def onHash (x : Lath) : State :=
  { onLath 51 x with
    tables := [(0, hashWords 0), (1, hashWords 1)], families := [(0, [fields [(1, 0), (5, 1), (3, 7), (1, 12)], 0, 0, 0])]
    mem := ((List.range 128).map fun i => (sillAddr 0 (32768 + i), if i = 32 then 9 else if i = 33 ∨ i = 34 ∨ i = 35 then 0 else 0xFF)).filter fun c => c.2 != 0 }

/-- A query and an update of key 1, and of row 9 and row 4. -/
def queryBatch : Batch := ⟨7, 0, (1, mkTag 5 0 0), [(1, mkTag 5 0 1)], 0, 1, false⟩
def insBatch : Batch := ⟨7, 0, (1, mkTag 5 0 0), [(BitVec.ofNat 64 (1 + 4 * 2 ^ 24), mkTag 5 0 1)], 0, 1, false⟩
def delBatch : Batch := ⟨7, 0, (1, mkTag 5 0 0), [(BitVec.ofNat 64 (1 + 9 * 2 ^ 24), mkTag 5 0 1)], 0, 1, false⟩

theorem test_wit_HashTables_begin : (onHash (hashLath [1, 1] none)).nextBatch 51 0 = .some queryBatch ∧ familyCheck 51 0 (onHash (hashLath [1, 1] none)) = .ok () ∧
    payloadCheck queryBatch (queryBad ((onHash (hashLath [1, 1] none)).family 0)) 16 = .ok () ∧
    payloadCheck insBatch (updateBad ((onHash (hashLath [1, 1] none)).family 0)) 192 = .ok () ∧ (hashLath [1, 1] none).roomAt 2 = true :=
  ⟨takenOf_some (by decide +kernel), by decide +kernel⟩

def aHop : HashOp := { src := 7, thread := 0 }

/-- A state with an operation under way. -/
def hopState (h : HashOp) (w : Nat → List Word := hashWords) (m : Memory := []) : State :=
  let s := onHash (hashLath [1, 1] (some h))
  { s with tables := [(0, w 0), (1, w 1)], mem := if m = [] then s.mem else m }

/-- A probe of bucket 1, an insert into it, and a delete of what it holds. -/
theorem test_wit_HashTables_token : ∃ gv gr gd, aHop.gens.getD (gensOf (hashWords 0)) = genOf (hashWords 0) false :: [] ∧
    genView 51 (genOf (hashWords 0) false) (hopState aHop) = .ok gv ∧ insertGen (hashWords 0) = genOf (hashWords 0) false ∧ hState (hashWords 0) = false ∧
    readGranule 51 gv.bv (8 * bucketOf gv.g.bb 1) false (hopState aHop) = .ok gr ∧ ownBusy 51 [gr] (hopState aHop) = false ∧
    readBucket 51 gv (bucketOf gv.g.bb 1) true (hopState aHop) = .ok gd ∧ anyBusy gd.granules (hopState aHop) = false ∧
    keyHeld 51 0 (hashWords 0) 1 (hopState aHop) = false ∧
    (∀ v ∈ gd.slots, v ≠ slotOf 4 (chkOf gv.g.bb 1)) ∧ (∃ v ∈ gd.bucket.vals, slotFree v = true) ∧ slotOf 9 (chkOf gv.g.bb 1) ∈ gd.bucket.vals := by
  obtain ⟨gv, h1, k⟩ := sat_ok (A := genView 51 (genOf (hashWords 0) false) (hopState aHop)) (p := fun gv =>
    sat (readGranule 51 gv.bv (8 * bucketOf gv.g.bb 1) false (hopState aHop)) fun gr => decide (ownBusy 51 [gr] (hopState aHop) = false) &&
    sat (readBucket 51 gv (bucketOf gv.g.bb 1) true (hopState aHop)) fun gd => decide (anyBusy gd.granules (hopState aHop) = false ∧
      (∀ v ∈ gd.slots, v ≠ slotOf 4 (chkOf gv.g.bb 1)) ∧ (∃ v ∈ gd.bucket.vals, slotFree v = true) ∧ slotOf 9 (chkOf gv.g.bb 1) ∈ gd.bucket.vals)) (by decide +kernel)
  obtain ⟨gr, h2, k⟩ := sat_ok k
  simp only [Bool.and_eq_true, decide_eq_true_eq] at k
  obtain ⟨gd, h3, k3⟩ := sat_ok k.2
  obtain ⟨k4, k5⟩ := of_decide_eq_true k3
  exact ⟨gv, gr, gd, by decide +kernel, h1, by decide +kernel, by decide +kernel, h2, k.1, h3, k4, by decide +kernel, k5⟩

/-- A table that spills, with its overflow tensor 11: a probe at the head of the chain, and at its node 0. -/
def spillWords (_ : Nat) : List Word := [fields [(1, 0), (5, 1), (3, 7), (2, 12), (2, 17), (0, 19), (2, 20)], fields [(0x8008, 0), (0x800D, 16), (0x8008, 32), (0xFFFF, 48)], 0, 0, 0, 0, 0, 0]

def spillState (p : Nat) : State :=
  let s := hopState { aHop with place := p, gens := some [genOf (spillWords 0) false] } spillWords
  { s with
    jobs := [(0, { job0 with entries := job0.entries ++ [[fields [(1, 0), (1, 1), (0x0C, 5), (1, 33)], 8193, fields [(12, 0)], 0, 0, 0, 0, 0, 4]] })]
    mem := s.mem ++ cells (dramAddr 8192) [fields [(0x47, 0), (4, 9), (16, 16)], 0] }

theorem test_wit_HashTables_chain : ∀ p ∈ [1, 2], ∃ gv v gr, genView 51 (genOf (spillWords 0) false) (spillState p) = .ok gv ∧ gv.ov = some v ∧
    readGranule 51 v (if p = 1 then bucketOf gv.g.bb 1 / 8 * 8 else 2 ^ gv.g.bb) false (spillState p) = .ok gr ∧ ownBusy 51 [gr] (spillState p) = false := by
  have h : [1, 2].all (fun p => sat (genView 51 (genOf (spillWords 0) false) (spillState p)) fun gv => match gv.ov with
    | none => false
    | some v => sat (readGranule 51 v (if p = 1 then bucketOf gv.g.bb 1 / 8 * 8 else 2 ^ gv.g.bb) false (spillState p)) fun gr =>
      decide (ownBusy 51 [gr] (spillState p) = false)) = true := by decide +kernel
  intro p hp
  obtain ⟨gv, h1, k⟩ := sat_ok (List.all_eq_true.1 h p hp)
  split at k
  · cases k
  · rename_i v hv
    obtain ⟨gr, h2, k⟩ := sat_ok k
    exact ⟨gv, v, gr, h1, hv, h2, of_decide_eq_true k⟩

theorem test_wit_HashTables_end : hopBatch 51 0 { aHop with next := 1 } (onHash (hashLath [1, 1] (some { aHop with next := 1 }))) = some queryBatch ∧
    queryBatch.data[1]? = none ∧ queryBatch.data[0]? = some (1, mkTag 5 0 1) ∧ (onHash (hashLath [1, 1] none)).mergePoint 51 0 = false ∧ (hashLath [1, 1] none).updates = [] := by
  decide +kernel

/-- A rehash that begins, one that claims buckets, and one that has migrated its own. -/
theorem test_wit_HashTables_rehash : tableCheck 51 0 true (onHash (hashLath [] none)) = .ok () ∧ hState (hashWords 0) = false ∧
    tableCheck 51 1 false (onHash (hashLath [] none)) = .ok () ∧ hState (hashWords 1) = true ∧ (hashLath [] none).rehash = none ∧
    (let x := { hashLath [] (some aHop) with rehash := some (1, 3, 3) }; x.rehash = some (1, 3, 3) ∧ x.hop = some aHop ∧ aHop.bucket = none) := by
  decide +kernel

theorem test_wit_HashTables_update : (onHash (hashLath [] none)).sliceWaits (sillAddr 0 32768) = false ∧ let u : HashUpdate := { parts := [(0, sillAddr 0 32768, [1, 2, 3, 4])], tid := 0x8008, space := 3 }
    [u][0]? = some u ∧ (∀ v ∈ [u].take 0, v.at ∉ u.after) ∧ u.parts = [(0, sillAddr 0 32768, [1, 2, 3, 4])] := by decide +kernel

/-! Jointers: a camera chain of two positions over lines of four w8 values; position 0 holds line 2 of frame 5 with line 3 next, and position 1 has a ring
of two tile slots, its tiles of tensor 2 and their headers of tensor 3. -/

def chainW (src : Nat) : List Word :=
  [fields [(1, 0), (src, 1), (2, 2), (1, 7), (0x1E, 11), (2, 20), (2, 26)], fields [(4, 0), (3, 16), (2, 32), (3, 48)], fields [(1000, 0), (700, 32)], fields [(1, 0)],
    fields [(2, 3), (0x0A, 7), (4, 13)], fields [(1, 3), (0x0A, 7), (4, 13)], 0, 0, 0, 0]

def tileTable : List Host.Cell :=
  cells (dramAddr 512) (entry 0x0A [2, 4, 4] [(3, 0), (0, 8), (1, 15)] 49152 [64, 16]) ++ cells (dramAddr 768) (entry 0x0A [2, 512] [(3, 0), (0, 8), (1, 15)] 65536 [512])

def lineOn (n : Nat) : Line := { num := n, frame := 5, time := 9, fmt := 0x0A, recv := 4, elems := [1, 2, 3, 4] }

def onChain (p : Nat) (j : Jointer) (k : Jointer := {}) (x : Chain := { w := chainW 0 }) : State :=
  { cur := .jointer 0 p, chains := [(0, x)], jointers := if p = 0 then [(0, j), (1, k)] else [(0, k), (1, j)], parts := [(0, part0)], mem := tileTable }

theorem test_wit_JointerWordsMakeTiles_lines : let j : Jointer := { ring := [lineOn 3], kept := [lineOn 2], cur := 2, inf := true, frame := 5, vshape := 0x0A }
    let s := onChain 0 j
    chainEn (s.chain 0) = true ∧ (s.jtr 0 0).eofs = false ∧ (s.jtr 0 0).spentFrom = none ∧ (lineOn 3).eof = false ∧ (lineOn 3).sof = false ∧ (lineOn 3).odd = false ∧
    s.logSays (chainPart (s.chain 0)) 2 0 = .free ∧ 0 < (s.chain 0).win 0 ∧ s.vty = (s.chain 0).inFmt 0 ∧ s.vty = (s.chain 0).ofmt 0 ∧
    (let w := word (2 * 2 ^ 32); bits w 47 32 ≤ (s.jtr 0 0).cur.toNat ∧ (s.jtr 0 0).cur.toNat + 1 ≤ bits w 47 32 + (s.chain 0).win 0 ∧
      (s.jtr 0 0).kept.find? (fun k => k.num = bits w 47 32) = some (lineOn 2)) ∧
    (onChain 0 { j with vshape := 0x0B }).vty ≠ ((onChain 0 j).chain 0).inFmt 0 ∧ (onChain 0 { j with ring := [{ num := 3, eof := true }] }).cur = .jointer 0 0 := by
  decide +kernel

/-- JWAIT at position 1. -/
theorem test_wit_JointerWordsMakeTiles_second : let s := onChain 1 { ring := [lineOn 3], cur := 2, inf := true }
    chainEn (s.chain 0) = true ∧ (s.jtr 0 1).eofs = false ∧ (s.jtr 0 1).spentFrom = none ∧ (s.jtr 0 1).ring = [lineOn 3] ∧ (1 : Nat) ≠ 0 := by decide +kernel

theorem test_wit_JointerWordsMakeTiles_rows : let s := onChain 0 { frame := 5 }
    let full := onChain 0 { frame := 5 } { ring := [lineOn 1, lineOn 2, lineOn 3] }
    let void := onChain 1 { topen := true, void := true }
    let shut := onChain 1 {}
    (s.chain 0).isLast 0 = false ∧ (s.jtr 0 1).used < (s.chain 0).win 1 + 2 ∧ ¬ (full.jtr 0 1).used < (full.chain 0).win 1 + 2 ∧
    (void.chain 0).isLast 1 = true ∧ (void.jtr 0 1).outn ≠ 65535 ∧ (void.jtr 0 1).topen = true ∧ (void.jtr 0 1).void = true ∧ (shut.jtr 0 1).topen = false := by decide +kernel

def tileOpen : State := onChain 1 { topen := true, out := [1, 2, 3, 4], frame := 5, outn := 1 }

/-- A row into the open tile of slot 0. -/
theorem test_wit_JointerWordsMakeTiles_tile : ∃ u, rowTile 0 1 [1, 2, 3, 4] tileOpen = .ok u ∧ ((u.jtr 0 1).outn == (tileOpen.jtr 0 1).outn && u.cur == tileOpen.cur && u.pc == tileOpen.pc &&
    Memory.wf tileOpen.mem) = true :=
  sat_ok (A := rowTile 0 1 [1, 2, 3, 4] tileOpen) (by decide +kernel)

/-- JTILE with a given time, where a slot of the ring is free, and where none is. -/
theorem test_wit_JointerWordsMakeTiles_open : (let s := onChain 1 { inf := true }; (s.chain 0).isLast 1 = true ∧ bit (word (2 ^ 63)) 63 = true ∧ chainRing (s.chain 0) ≠ 0 ∧
      freeSlot 0 2 0 s = some 0 ∧ freeSlot 0 2 0 { s with holds := [(0, 1), (1, 1)] } = none) ∧
    ∃ u, openTile 0 1 none 77 (onChain 1 { inf := true }) = .ok u ∧ (u.cur == .jointer 0 1 && u.pc == 0) = true :=
  ⟨by decide +kernel, sat_ok (A := openTile 0 1 none 77 (onChain 1 { inf := true })) (by decide +kernel)⟩

/-! Lines: the camera chain 0 of port 2, channel 1, and a lidar chain 0 of port 2 and UDP port 700. -/

def onCamera (x : Chain) : State := { chains := [(0, x)], parts := [(0, part0)], clk := { time := 5000 } }

theorem test_wit_LinesAndTime_camera : let x : Chain := { w := chainW 0, inFrame := true, next := 1 }
    (onCamera x).cameras 2 1 = [0] ∧ { x with lastEnd := 4500 }.timedOut 5000 = false ∧ x.inFrame = true ∧ x.next < x.height ∧ x.lnum = false ∧ x.lineStart = none ∧ x.src = 0 ∧ x.dt = 0x1E ∧ 0x1E ∈ cameraTypes ∧
    0x12 ∉ cameraTypes ∧ ((onCamera x).jtr 0 0).used < x.win 0 + 3 ∧
    (chainEn x && x.src == 0 && !x.lnum && x.lto != 0 && x.inFrame && decide (x.next < x.height)) = true ∧ x.lastEnd.toNat + x.lto ≤ 5000 ∧
    (onCamera { x with inFrame := false }).cameras 2 1 = [0] ∧ ({ x with next := 3 } : Chain).height = 3 ∧ (onCamera { x with next := 3 }).cameras 2 1 = [0] := by decide +kernel

/-- An IPv4 packet with a UDP datagram of two bytes to port 700, without a UDP checksum. -/
def ipPacket : List Byte := [0x45, 0, 0, 30, 0, 0, 0, 0, 1, 17, 0xB9, 0xD0, 0, 0, 0, 0, 0, 0, 0, 0] ++ [0, 0, 2, 188, 0, 10, 0, 0, 7, 8]

def lidarBytes (port : Nat) : List Byte := macBytes port ++ ([0, 0, 0, 0, 0, 0, 8, 0] ++ ipPacket)

theorem test_ipPacket : parseIp 0x0800 ipPacket = some ⟨700, [7, 8], true⟩ := by decide +kernel

theorem etherOf (a b c d e f : Byte) : parseEther ([a, b, c, d, e, f] ++ ([0, 0, 0, 0, 0, 0, 8, 0] ++ ipPacket)) = (0x0800, ipPacket) := by
  simp [parseEther, net, netNat]

theorem test_wit_LinesAndTime_frame : parseEther (lidarBytes 2) = (0x0800, ipPacket) ∧ (lidarBytes 2).length + 4 ≤ 1522 ∧ (lidarBytes 2).take 6 = macBytes 2 := by
  refine ⟨etherOf .., ?_, ?_⟩ <;> simp [lidarBytes, macBytes, natBytes, ipPacket]

theorem test_wit_LinesAndTime_lidar : let x : Chain := { w := chainW 1, inFrame := true, next := 1, period := 5 }
    (onCamera x).lidars 2 700 = [0] ∧ periodOf x (onCamera x) ≤ x.period ∧ x.inFrame = true ∧ x.src = 1 ∧ x.next < x.height ∧ x.lineStart = none ∧
    ((onCamera x).jtr 0 0).used < x.win 0 + 3 ∧ chainEn x = true ∧ ({ x with period := 4, inFrame := false } : Chain).period < periodOf x (onCamera x) := by decide +kernel

/-- The partition names time port 3; a Sync was accepted at time 0, and three intervals have passed at the largest time. -/
theorem test_wit_LinesAndTime_clock : let c : Clock := { time := BitVec.allOnes 64, first := true, sync := some 7, pdelayReq := true }
    let s : State := { parts := [(0, { up := true, desc := [0, 0, 0, 0, 0, 0, 0, 0, 0, 0, 11, 0, 0, 0, 0, 0] })], clk := c }
    s.timePort = some 3 ∧ c.first = true ∧ c.lastSync.toNat + 3 * Config.syncInterval.toNat ≤ c.time.toNat := by
  refine ⟨by decide +kernel, rfl, ?_⟩
  have := Config.syncInterval.isLt
  simp
  omega

/-! The Framer: partition 0 has bents 0 and 4, pre-emption storage and four entries, and its queue 2 has one launch record in host memory at 8,192, whose
image, at 4,096, holds a code plane of one ADDI. -/

def byteCells (a : Nat) (l : List Byte) : List Host.Cell := ((l.zip (List.range l.length)).map fun x => (a + x.2, x.1)).filter fun c => c.2 != 0

def codeRec : List Byte := natBytes 8 (4 * 2 ^ 32) ++ List.replicate 56 0 ++ natBytes 4 0x04000000

def cardal : List Byte :=
  natBytes 8 (0x4C445243 + 2 ^ 32) ++ natBytes 8 (1 + 196 * 2 ^ 32) ++ natBytes 4 0x68fbdb81 ++ List.replicate 44 0 ++
    (natBytes 8 (1 + 128 * 2 ^ 32) ++ natBytes 8 (68 + 0xca401b0e * 2 ^ 32)) ++ List.replicate 48 0 ++ codeRec

/-- The R310 fields: the image's address and length, LEVEL, JOBID 77 and the completion record's address 12,288. -/
def launch (level : Nat) : List Byte :=
  natBytes 8 4096 ++ natBytes 4 196 ++ [0, BitVec.ofNat 8 level, 0, 0] ++ natBytes 8 77 ++ natBytes 8 0 ++ natBytes 8 0 ++ natBytes 8 12288 ++ List.replicate 80 0

def framerPart : Part :=
  { up := true, queues := [(2, { base := 8192, logn := 4, level := 3, en := true, quant := 4, tail := 1 })]
    desc := [fields [(1, 0), (1, 4), (1, 9), (4, 16)], 0, 0, 0, 0, 0, 0, 0, 0, 0, 0, 0, 0, 0, 0, 0] }

def onFramer (js : List (Nat × Job)) (clock : Nat := 0) (x : Part := framerPart) : State :=
  { parts := [(0, x)], jobs := js, clock := clock, boot := { rdy := true } }

def withRecord (level : Nat) : State := { onFramer [] with mem := byteCells (hostAddr 4096) cardal ++ byteCells (hostAddr 8192) (launch level) }

/-- A record of its queue's LEVEL is admitted, and one of another level has code 7. -/
theorem test_wit_JobAdmission : let s := withRecord 3
    let t := withRecord 2
    let y := s.queue 0 2
    let r := launchRecord y s
    let q := launchRecord y t
    s.framerUp = true ∧ (s.part 0).up = true ∧ (s.part 0).blocked = false ∧ s.isFrozen 0 = false ∧ s.freeSlots 0 ≠ [] ∧ nextQueue (s.part 0) = some 2 ∧
    launchCode 0 y r (launchImage r s) s = 0 ∧ (∀ d ∈ launchDeps r, d.kind ≠ 4) ∧ launchCode 0 y q (launchImage q t) t = 7 ∧ y.next = none ∧
    t.knows 0 (word (leAt q 16 8)) = false ∧ Memory.wf s.mem = true := by decide +kernel

theorem test_wit_JobAdmission_order : ∀ k, k < 64 → ((withRecord 3).queue 0 k).en = true → ((withRecord 3).queue 0 k).head ≠ ((withRecord 3).queue 0 k).tail →
    ((withRecord 3).queue 0 k).level ≤ ((withRecord 3).queue 0 2).level ∧ (((withRecord 3).queue 0 k).level = ((withRecord 3).queue 0 2).level → 2 ≤ k) := by decide +kernel

def waitDep (m : Bool) : Dep := ⟨1, 0, 1, 1, m⟩

def runs (bays : List Nat) (f : Job → Job := fun j => j) : Job := f { state := .run, bays := bays, image := cardal, queue := 2 }

theorem test_wit_JobClocks :
    let lost := onFramer [(3, { state := .wait, status := 5 })]
    let free := onFramer [(3, { state := .wait, deps := [waitDep true] })]
    let waits := onFramer [(3, { state := .wait, deps := [waitDep false] })]
    let ready := onFramer [(3, { state := .ready })]
    let late := onBays (onFramer [(3, runs [0] fun j => { j with tlim := 1 })] 3200) [(0, { slot := some 3, live := true })]
    let up := onBays (onFramer [(3, runs [0] fun j => { j with timeUp := some 0 })] 320000) [(0, { slot := some 3, live := true })]
    lost.framerUp = true ∧ (lost.job 3).status = 5 ∧ (free.job 3).status ≠ 5 ∧
    (∀ d ∈ (free.job 3).deps.map (fun d => if d.isMet then d else { d with isMet := depHolds 0 3 d free }), d.isMet = true) ∧
    (∃ d ∈ (waits.job 3).deps.map (fun d => if d.isMet then d else { d with isMet := depHolds 0 3 d waits }), d.isMet = false) ∧
    (ready.part 0).det = false ∧ (ready.job 3).state = .ready ∧ (late.job 3).timeUp = none ∧ (late.job 3).ended = false ∧
    (late.job 3).tlim * 3200 ≤ (late.job 3).runTime late.clock ∧ 0 ∈ late.allBays 3 ∧ (late.bay 0).live = true ∧
    (up.job 3).timeUp = some 0 ∧ (up.job 3).ended = false ∧ (up.job 3).stopping = false ∧ 0 + 100 * 3200 ≤ up.clock ∧ up.allHalted 3 = false ∧
    (let stops := onBays (onFramer [(3, runs [0] fun j => { j with timeUp := some 0, stopping := true })] 320000) [(0, { slot := some 3, live := true })]
     (stops.job 3).stopping = true ∧ stops.allHalted 3 = false) := by decide +kernel

/-- A READY job above a running one of lower level, in a partition of one bent. -/
def contended : State :=
  onFramer [(3, runs [0, 1, 2, 3, 4, 5, 6, 7]), (4, { state := .ready, order := 1, queue := 2, elev := 5 })] 0
    { framerPart with desc := [fields [(1, 0), (1, 9), (4, 16)], 0, 0, 0, 0, 0, 0, 0, 0, 0, 0, 0, 0, 0, 0, 0] }

theorem test_wit_JobClocks_preempt : contended.preemptible 3 = true ∧ victim (contended.job 3).part contended = some 3 ∧ (contended.job 3).twin = none := by decide +kernel

/-- What a selection places. -/
def placed (A : Select) : Option (Nat × Nat × Option Nat) :=
  match A with
  | .place n g h _ _ => some (n, g, h)
  | _ => none

theorem placed_some {A : Select} {n g : Nat} {h : Option Nat} (e : placed A = some (n, g, h)) : ∃ qs ptr, A = .place n g h qs ptr := by
  cases A <;> simp [placed] at e
  obtain ⟨rfl, rfl, rfl⟩ := e
  exact ⟨_, _, rfl⟩

def oneReady (f : Job → Job := fun j => j) : State := onFramer [(4, f { state := .ready, queue := 2, image := cardal })]

/-- A READY job, a paired one whose mirror is bent 4, and a saved one. -/
theorem test_wit_JobPlacement : (∃ qs ptr, select 0 (oneReady) = .place 4 0 none qs ptr) ∧
    (∃ qs ptr, select 0 (oneReady fun j => { j with paired := true }) = .place 4 0 (some 1) qs ptr) ∧
    (∃ qs ptr, select 0 (oneReady fun j => { j with state := .saved, bays := [0, 1, 2, 3, 4, 5, 6, 7] }) = .place 4 0 none qs ptr) :=
  ⟨placed_some (by decide +kernel), placed_some (by decide +kernel), placed_some (by decide +kernel)⟩

/-- An image whose one lathwork record is made for another DEFSIG. -/
def lathImage : List Byte :=
  natBytes 8 (0x4C445243 + 2 ^ 32) ++ natBytes 8 (1 + 192 * 2 ^ 32) ++ List.replicate 48 0 ++ (natBytes 8 (5 + 128 * 2 ^ 32) ++ natBytes 8 64) ++
    List.replicate 48 0 ++ natBytes 8 7 ++ List.replicate 56 0

theorem test_wit_JobPlacement_variant : let s := oneReady fun j => { j with image := lathImage }
    (∃ qs ptr, select 0 s = .place 4 0 none qs ptr) ∧ s.variantCode (s.job 4) ≠ 0 ∧ (s.job 4).state = .ready :=
  ⟨placed_some (by decide +kernel), by decide +kernel, by decide +kernel⟩

theorem test_wit_JobPlacement_goes : let s := oneReady
    s.framerUp = true ∧ (s.part 0).up = true ∧ s.isFrozen 0 = false ∧ (s.part 0).det = false ∧ (s.part 0).logMode = 0 ∧ (s.job 4).part = 0 ∧
    s.variantCode (s.job 4) = 0 ∧ (s.job 4).twin = none ∧ (s.part 0).mirror 1 0 = some 1 := by decide +kernel

/-! A bay of a job in LOAD, whose code stands in the shadow plane. -/

def onFlip (f : Job → Job) : State := onBays (onFramer [(4, f { state := .load, bays := [9, 8] })]) [(8, { shadowFor := some 4, shadow := planeOf codeRec }), (9, { slot := some 4 })]

theorem onFlip_faults (f : Job → Job) (p : Nat) : ((onFlip f).part p).faults = [] := by
  simp only [onFlip, onBays, onFramer, State.part, Tab.get]
  split <;> rfl

theorem test_wit_PlaneFlip : let s := onFlip id
    let area : SaveArea := { bays := [{}, { pc := 8 }], mem := [(bankAddr 8 0 0, 7)] }
    let r := onFlip fun j => { j with area1 := some area, latest := true }
    (s.bay 8).shadowFor = some 4 ∧ (s.job 4).state = .load ∧ (s.job 4).ended = false ∧ s.framerFlips = true ∧ s.drained 8 = true ∧ s.lathsLoaded (4 % 1024) = true ∧ (s.job 4).bays[1]? = some 8 ∧
    (∀ k, k < 1 → (s.job 4).bays[k]? ≠ some 8) ∧ (s.job 4).latestArea = none ∧ (∀ c ∈ (s.job 4).bays, c ≠ 8 → (s.bay c).slot = some 4) ∧ (s.job 4).twin = none ∧
    r.drained 8 = true ∧ r.lathsLoaded (4 % 1024) = true ∧ (r.job 4).latestArea = some area ∧ area.bays[1]? = some { pc := 8 } ∧ (area.mem.map fun c => c.1).Nodup ∧
    inBay 8 (bankAddr 8 0 0) = true := by decide +kernel

/-! A deterministic partition of one slot in a period of two: frame 5 or 6 has begun, and its queue 2 has one READY job. -/

def onSlots (frame : Nat) (due : Bool) (js : List (Nat × Job)) (l : List (Nat × Bay)) : State :=
  onBays { onFramer js 0 { framerPart with
      desc := [fields [(1, 0), (1, 8), (4, 16)], 0, 0, 0, 0, fields [(2000, 0), (2, 16), (1, 28)], 4096, 0, 0, 0, 0, 0, 0, 0, 0, 0]
      fnum := BitVec.ofNat 48 frame, due := due } with mem := cells (dramAddr 4096) [fields [(1, 0), (2, 12)]] } l

def slotJob0 : Job := { state := .ready, queue := 2, image := cardal }

def loaded (m : Option Nat) : List (Nat × Bay) := (List.range 8).map fun b => (b, { shadowFor := m, shadow := planeOf codeRec })

theorem test_wit_FrameOrigin : let idle := onSlots 5 false [] []
    let off := onSlots 6 true [] []
    let none_ := onSlots 5 true [] []
    let cold := onSlots 5 true [(7, slotJob0)] (loaded none)
    let hot := onSlots 5 true [(7, slotJob0)] (loaded (some 7))
    let now := fun s : State => s.modPart 0 fun x => { x with due := false }
    let e : SchedEntry := ⟨1, 2, 0, 0⟩
    (idle.part 0).up = true ∧ (idle.part 0).due = false ∧ (off.part 0).due = true ∧ (now off).board 0 = [] ∧ schedule (off.part 0) (now off) = [e] ∧ (off.part 0).period = 2 ∧
    (off.part 0).fnum.toNat % 2 ≠ e.off ∧ (none_.part 0).fnum.toNat % 2 = e.off ∧ (now none_).slotJob 0 2 5 [] = none ∧ (now cold).slotJob 0 2 5 [] = some (7, slotJob0) ∧
    (now hot).slotJob 0 2 5 [] = some (7, slotJob0) ∧ (∀ x ∈ (now hot).board 0, (now hot).allHalted x.1 = false) ∧ hot.job 7 = slotJob0 ∧ slotJob0.latestArea = none ∧
    slotBays (hot.part 0) slotJob0 0 = some [0, 1, 2, 3, 4, 5, 6, 7] ∧ hot.variantCode slotJob0 = 0 ∧ hot.framerUp = true ∧ (cold.bay 0).shadowFor ≠ some 7 ∧
    (now hot).bentsFree [0, 0, 0, 0, 0, 0, 0, 0] = true ∧ (now hot).lathsFree slotJob0 = true ∧ (∀ b ∈ [0, 1, 2, 3, 4, 5, 6, 7], (hot.bay b).shadowFor = some 7 ∧ (now hot).drained b = true) ∧
    hot.jobLaths slotJob0 = [] ∧ schedule (hot.part 0) (now hot) = [e] := by decide +kernel

/-- One clock below the end of a frame, and at its end. -/
theorem test_wit_FrameOrigin_clock : let s := fun c => onFramer [] 0 { framerPart with sfcClk := c }
    ((s 16382).part 0).up = true ∧ (∀ e ∈ (s 16382).parts, (e.2.up && e.2.due) = false ∧ e.2.moves = []) ∧
    ((s 16382).part 0).sfcClk.toNat + 1 < ((s 16382).part 0).framelen.toNat ∧ ((s 16383).part 0).framelen.toNat ≤ ((s 16383).part 0).sfcClk.toNat + 1 := by decide +kernel

/-! Jobs whose bays have halted. -/

def halted (f : Job → Job) (d : Word) : State :=
  onBays (onFramer [(4, f { state := .run, bays := [0], image := cardal }), (1028, { state := .run, bays := [8] })]) [(0, { slot := some 4, dlo := 5 }), (8, { slot := some 1028, dlo := d })]

theorem test_wit_JobEnds : let done := halted id 0
    let pair := fun d => halted (fun j => { j with paired := true, twin := some 1028 }) d
    let plumb := fun d => halted (fun j => { j with plumb := true, run1 := true, d0lo := d }) 0
    let runs := onBays (halted id 0) [(0, { slot := some 4, live := true })]
    let stops := onBays (halted (fun j => { j with stopping := true }) 0) [(0, { slot := some 4, live := true })]
    done.framerUp = true ∧ (done.job 4).state = .run ∧ (done.job 4).stopping = false ∧ ((halted (fun j => { j with ended := true }) 0).job 4).ended = true ∧ runs.allHalted 4 = false ∧
    done.allHalted 4 = true ∧ (done.job 4).paired = false ∧ (done.job 4).plumb = false ∧ (pair 6).allHalted 4 = true ∧ (pair 6).pairAgrees 4 = false ∧ (pair 5).pairAgrees 4 = true ∧
    (halted (fun j => { j with plumb := true }) 0).allHalted 4 = true ∧ (plumb 5).allHalted 4 = true ∧ (plumb 5).jobDigest 4 = (5, 0) ∧ (plumb 6).jobDigest 4 ≠ (6, 0) ∧
    (stops.job 4).stopping = true ∧ stops.jobStopped 4 = true ∧ stops.allHalted 4 = false ∧
    (let run0 := halted (fun j => { j with plumb := true, shared0 := [(sillAddr 0 64, List.replicate 32 1)] }) 0
     Memory.wf run0.mem = true ∧ run0.allHalted 4 = true ∧ (run0.job 4).status = 0 ∧ (run0.job 4).run1 = false ∧ (run0.job 4).bays.Nodup ∧
     ((run0.job 4).shared0.map fun e => e.1).Nodup ∧ ∀ e ∈ (run0.job 4).shared0, sillAddr 0 0 ≤ e.1 ∧ e.1 % 32 = 0 ∧ e.2.length = 32) := by decide +kernel

/-! Pages: tensor 1 of the partition is paged, with one level; its node stands in DRAM at 8,192, and the leaf of tile 0 names frame 16 of DRAM. -/

def leafWord (bits : Nat) : Word := fields [(bits, 0), (4, 9), (16, 16)]

def onPages (bits : Nat) (back : Word) (fs : List PageFault) (clock : Nat) (root : Word := 8193) (moves : List Move := []) (js : List (Nat × Job) := []) : State :=
  { onFramer js clock { framerPart with faults := fs, moves := moves } with
    mem := cells (dramAddr 256) [fields [(1, 0), (1, 1), (0x0A, 5), (1, 33)], root, fields [(100, 0)], 0, 0, 0, 0, 0, 4] ++ cells (dramAddr 8192) [leafWord bits, back] }

def fault0 (mig : Bool) (who : Actor) : PageFault :=
  { who := who, cause := 0x40, tid := 1, tile := 0, entry := dramAddr 8192, since := 0, mig := mig, slot := none, aux := 0, copy := none, asked := false, served := false }

theorem test_wit_PagesFaultAndMove_service : let s := fun b w => onPages b w [fault0 false .none] 0
    let two := onPages 0x46 0 [{ fault0 false .none with order := 2 }, { fault0 false .none with order := 1 }] 0
    ((s 0x47 0).part 0).faults[0]? = some (fault0 false .none) ∧ (s 0x47 0).canService (fault0 false .none) = true ∧ (s 0x47 0).framerUp = true ∧
    (s 0x47 0).inTurn (fault0 false .none) = true ∧ (∃ f, (two.part 0).faults[0]? = some f ∧ two.inTurn f = false) ∧
    ((s 0x47 0).entryAt 512 1 (dramAddr 8192)).1.testBit 0 = true ∧
    (let w := (s 0x46 (fields [(4, 0), (32, 16)])).entryAt 512 1 (dramAddr 8192)
     w.1.testBit 0 = false ∧ w.1.testBit 6 = true ∧ w.2 % 8 = 4 ∧ (dramAddr 8192 % 16 = 0 ∧ dramAddr 8192 / 512 * 512 + 512 ≤ frameOf w.1)) ∧
    Memory.wf (s 0x46 (fields [(4, 0), (32, 16)])).mem = true ∧
    (let w := (s 0x46 0).entryAt 512 1 (dramAddr 8192); w.1.testBit 0 = false ∧ w.1.testBit 6 = true ∧ w.2 % 8 = 0 ∧ (fault0 false .none).asked = false) := by
  refine ⟨by decide +kernel, by decide +kernel, by decide +kernel, by decide +kernel, ⟨_, rfl, by decide +kernel⟩, ?_⟩
  decide +kernel

/-- An access of a sequencer, which no fault of an engine holds; the default timeout is 10 ms. -/
theorem test_wit_PagesFaultAndMove_timeout : let f := fault0 false (.stream 0 .S)
    let s := onPages 0x46 0 [f] 32000000
    (s.part 0).faults[0]? = some f ∧ s.canResume f = true ∧ f.who ≠ .none ∧ f.since + (s.part 0).fto ≤ s.clock ∧ (onPages 0x46 0 [f] 31999999).clock < f.since + (s.part 0).fto := by
  decide +kernel

theorem test_wit_PagesFaultAndMove_held : ∀ b e, ¬ ((fault0 false (.stream 0 .S)).who = .stream b e ∧ e ≠ .S ∧
    (((onPages 0x46 0 [fault0 false (.stream 0 .S)] 32000000).bay b).stream e).faulting = true) := by
  rintro b e ⟨h, he, -⟩
  cases h
  exact he rfl

theorem test_wit_PagesFaultAndMove_migrating : let f := fault0 true (.lath 3)
    let done := onPages 0x47 0 [f] 256
    let later := onPages 0x57 0 [{ f with entry := dramAddr 8208 }] 256
    let late := onPages 0x57 0 [f] 51200
    done.canResume f = true ∧ f.since + 256 ≤ done.clock ∧ (done.entryAt 512 1 f.entry).1.testBit 4 = false ∧
    done.walkAgain 0 f = .leaf (leafWord 0x47) 0 (dramAddr 8192) ∧ (later.entryAt 512 1 (dramAddr 8208)).1.testBit 4 = false ∧
    later.walkAgain 0 { f with entry := dramAddr 8208 } = .absent 4 true (dramAddr 8192) ∧
    f.since + 16 * 3200 ≤ late.clock ∧ (late.entryAt 512 1 f.entry).1.testBit 4 = true := by
  decide +kernel

/-- The leaf of a page of 1 GiB, with P and MIG, in the top node of three levels. -/
def bigLeaf : Word := fields [(0x157, 0), (4, 9), (16384, 16)]

/-- The leaf of tile 0 and the ROOT, each without MIG, and each marked, its move under way and its caches empty; the page of 1 GiB is fixed. -/
theorem test_wit_PagesFaultAndMove_moves : let m := fun e => ([⟨e, 512, 1, 0⟩] : List Move)
    let root := dramAddr 264
    let node := 3 * 2 ^ 24
    let s := onPages 0x47 0 [] 0
    let t := onPages 0x57 0 [] 0 8193 (m (dramAddr 8192))
    let u := onPages 0x47 0 [] 0 8209 (m root)
    let big : State := { onFramer [(3, runs [0])] 0 { framerPart with moves := m (dramAddr 16384) } with
      mem := cells (dramAddr 256) [fields [(1, 0), (1, 1), (0x0A, 5), (3, 33)], 16385, fields [(100, 0)], 0, 0, 0, 0, 0, 4] ++ cells (dramAddr 16384) [bigLeaf, 0] }
    s.tidSlot 0 1 = 512 ∧ s.moveEntry 0 512 1 0 = some ((leafWord 0x47).toNat, 0, dramAddr 8192) ∧ s.moveEntry 0 512 1 node = some (8193, 4, root) ∧
    dramAddr 8192 % 16 = 0 ∧ root % 8 = 0 ∧ (8193).testBit 6 = false ∧
    t.moveEntry 0 512 1 0 = some ((leafWord 0x57).toNat, 0, dramAddr 8192) ∧ t.canMove 0 512 1 (dramAddr 8192) = true ∧ Memory.wf t.mem = true ∧
    u.moveEntry 0 512 1 node = some (8209, 4, root) ∧ u.canMove 0 512 1 root = true ∧ Memory.wf u.mem = true ∧
    (let w := (leafWord 0x57).toNat
     w.testBit 6 = true ∧ w.testBit 4 = true ∧ w.testBit 0 = true ∧ w / 128 % 4 < 2 ∧ pageSize w = 65536 ∧ dramAddr 8192 / 512 * 512 + 512 ≤ backOf (4 + 64 * 65536) ∧
     dramAddr 8192 / 512 * 512 + 512 ≤ frameOf (movedLeaf w 64) ∧ movedLeaf w 64 < 2 ^ 64) ∧
    root / 512 * 512 + 512 ≤ spaceBase 4 (movedNode 8209 3 32 / 512 * 512) ∧ movedNode 8209 3 32 < 2 ^ 64 ∧
    big.moveEntry 0 512 1 0 = some (bigLeaf.toNat, 0, dramAddr 16384) ∧ big.canMove 0 512 1 (dramAddr 16384) = true ∧
    bigLeaf.toNat.testBit 6 = true ∧ bigLeaf.toNat.testBit 4 = true ∧ bigLeaf.toNat.testBit 0 = true ∧ 2 ≤ bigLeaf.toNat / 128 % 4 ∧ (∃ j ∈ big.board 0, j.2.state = .run) ∧
    (let u := onFramer [] 0 { framerPart with inval := [(1, 0, 1)], invalMail := true }
     u.writesOpen 0 = false ∧ (u.part 0).inval ≠ [] ∧ (u.part 0).invalMail = true) := by decide +kernel

/-! Firmware: a header of target t with an empty body, HVER 2 and HVMIN to HVMAX 2 to 3. Whether its signature is good is the device's to say
(`Config.signatureGood`), so what rests on a good image is shown for a device that accepts this one. -/

def firmware (t : Nat) : List Byte :=
  natBytes 4 0x4E4D524A ++ natBytes 4 t ++ natBytes 4 7 ++ natBytes 2 1 ++ natBytes 2 2 ++ natBytes 2 3 ++ natBytes 2 2 ++ natBytes 4 256 ++ sha384 [] ++ List.replicate 184 0

theorem firmware_good (t : Nat) (h : t < 2) (hs : Config.signatureGood ((firmware t).take 168) = true) : fwGood t 0 (firmware t) = true := by
  have h0 : t = 0 ∨ t = 1 := by omega
  simp only [fwGood, hs, Bool.and_true]
  rcases h0 with rfl | rfl <;> decide +kernel

/-- Both targets run from slot A; slot B of each holds `firmware`, or nothing. -/
def fm0 : Foreman := { slots := [(0, firmware 0), (1, []), (2, firmware 1), (3, firmware 1)], svn := [(0, 0), (1, 0)] }

theorem test_wit_BootRunsOrStops (hs : ∀ t, t < 2 → Config.signatureGood ((firmware t).take 168) = true) : fm0.good 0 fm0.fmNext = true ∧ fm0.good 1 fm0.frNext = true :=
  ⟨firmware_good 0 (by decide) (hs 0 (by decide)), firmware_good 1 (by decide) (hs 1 (by decide))⟩

theorem test_wit_BootRunsOrStops_spent : ({ remap := { spent := true } } : State).remap.spent = true ∧ State.reset.remap.spent = false := by decide

theorem test_wit_BootRunsOrStops_framer (hs : Config.signatureGood ((firmware 0).take 168) = true) : let f := { fm0 with frNext := true, slots := [(0, firmware 0), (1, []), (2, firmware 1), (3, [])] }
    f.good 0 f.fmNext = true ∧ f.good 1 f.frNext = false := ⟨firmware_good 0 (by decide) hs, by decide +kernel⟩

theorem test_wit_BootRunsOrStops_none : let f : Foreman := { slots := [(0, []), (1, [])], svn := [(0, 0)] }
    f.good 0 f.fmNext = false ∧ f.good 0 (!f.fmNext) = false := by decide +kernel

/-! Partitions. -/

def goodDesc : List Word := [fields [(1, 0), (1, 10), (8, 16)], 15, 0, 0, 0, 0, 0, 0, 0, 0, 0, 0, 0, 0, 0, 0]

theorem test_wit_PartitionsStartAndEnd : let s := onFramer [] 0 { desc := goodDesc }
    let bad := onFramer [] 0 { desc := goodDesc.set 1 7 }
    let up := onFramer [] 0 { up := true, desc := goodDesc }
    let busy := onFramer [(3, { state := .wait })] 0 { up := true, desc := goodDesc }
    let runs := onFramer [(3, { state := .run })] 0 { up := true, desc := goodDesc }
    setupCode 0 s = 0 ∧ setupCode 0 bad = 5 ∧ setupCode 0 up = 11 ∧ busy.board 0 ≠ [] ∧ up.board 0 = [] ∧ up.chainOn 0 = false ∧ up.framerUp = true ∧
    (busy.job 3).state = .wait ∧ (runs.job 3).state = .run ∧ (runs.job 3).ended = false ∧ (s.part 0).up = false ∧
    ({ up with boot := {} } : State).framerUp = false ∧
    (({ up with boot := {} } : State).part 0).up = true := by decide +kernel

/-! The host's registers. -/

def idleChain : Chain := { w := (chainW 0).set 0 (nth 0 (chainW 0) 0 - 1), code := [(0, [0], [false]), (1, [0], [false])], codePart := some 0 }

theorem test_wit_HostRegisters : let s := onFramer []
    let holds := onFramer [(3, { state := .wait, queue := 2 })]
    let chain := fun x => { onFramer [] with chains := [(0, x)], mem := tileTable }
    (s.part 0).up = true ∧ s.framerUp = true ∧ ({ s with boot := {} } : State).framerUp = false ∧ s.queueHolds 0 2 = false ∧ holds.queueHolds 0 2 = true ∧ (15 : Word).toNat < 2 ^ (s.queue 0 2).logn ∧ 2 ^ (s.queue 0 2).logn ≤ (16 : Word).toNat ∧
    chainEn idleChain = false ∧ chainGood 0 0 (chain idleChain) = true ∧ chainGood 0 0 (chain { idleChain with codePart := none }) = false ∧
    chainEn { w := chainW 0 } = true ∧ chainPart { w := chainW 0 } = 0 ∧ (s.part 0).busy = false ∧ bits (2 : Word) 7 0 = 2 ∧ bits (7 : Word) 7 0 = 7 ∧
    ((onFramer [] 0 { framerPart with busy := true }).part 0).busy = true := by decide +kernel

/-! The mailbox. -/

def onCmd (c : Nat) (ops : List Word) (js : List (Nat × Job)) : State := onFramer js 0 { framerPart with cmd := BitVec.ofNat 8 c, ops := ops, busy := true }

theorem test_wit_MailboxRunsCommands : let named := fun c st => onCmd c [77, 0, 0] [(3, { state := st, jobid := 77 })]
    let none_ := onCmd 1 [78, 0, 0] []
    (none_.part 0).busy = true ∧ none_.framerUp = true ∧ none_.jobNamed 0 (none_.op 0 0) = none ∧ (named 1 .run).jobNamed 0 77 = some 3 ∧ (named 1 .run).preemptible 3 = true ∧
    (named 1 .ready).preemptible 3 = false ∧ ((named 1 .run).job 3).stopping = false ∧ ((named 1 .run).job 3).twin = none ∧ (named 2 .wait).jobNamed 0 77 = some 3 ∧
    ((named 2 .wait).job 3).state = .wait ∧ (named 2 .run).jobNamed 0 77 = some 3 ∧ ((named 2 .run).job 3).state = .run ∧ ((named 2 .run).job 3).ended = false := by decide +kernel

theorem test_wit_MailboxRunsCommands_rest : let page := onFramer [] 0 { framerPart with cmd := 3, ops := [1, 0, 0], busy := true, faults := [{ fault0 false .none with asked := true }] }
    let port := { onCmd 5 [2, 4096, 0] [] with chains := [(0, { w := chainW 0 })] }
    let waits := { port with ports := [(2, { uplinkBusy := some (0, 4096) })] }
    (∃ f ∈ (page.part 0).faults, f.asked = true ∧ f.mig = false ∧ f.tid = 1 ∧ f.tile = 0) ∧ ((onCmd 4 [1, 0, 1] []).part 0).invalMail = false ∧
    port.usesPort 0 2 = true ∧ (port.port 2).uplinkBusy = none ∧ port.usesPort 0 3 = false ∧ (waits.port 2).uplinkBusy = some (0, 4096) ∧ (waits.port 2).answered = false := by decide +kernel

/-- A Cardal image with a code plane and the code of position 0 of chain 0: one ADDI. -/
def chainImage : List Byte :=
  natBytes 8 (0x4C445243 + 2 ^ 32) ++ natBytes 8 (2 + 260 * 2 ^ 32) ++ natBytes 4 0x1b9e06f0 ++ List.replicate 44 0 ++
    (natBytes 8 (1 + 192 * 2 ^ 32) ++ natBytes 8 (68 + 0xca401b0e * 2 ^ 32)) ++ (natBytes 8 (7 + 128 * 2 ^ 32) ++ natBytes 8 (16 + 0x9344f06a * 2 ^ 32)) ++
    List.replicate 32 0 ++ (natBytes 8 (2 ^ 32) ++ natBytes 8 0x04000000) ++ List.replicate 48 0 ++ codeRec

theorem test_wit_MailboxRunsCommands_read : let s := { onCmd 6 [0, 4096, 260] [] with mem := byteCells (hostAddr 4096) chainImage }
    s.op 0 0 = 0 ∧ s.op 0 1 = 4096 ∧ s.op 0 2 = 260 ∧ chainEn (s.chain 0) = false ∧ s.readBytes (hostAddr 4096) 260 = chainImage := by decide +kernel

theorem crcGo_append (b : List Byte) : ∀ (a : List Byte) (c : Nat), crc32cGo c (a ++ b) = crc32cGo (crc32cGo c a) b
  | [], _ => rfl
  | _ :: a, _ => crcGo_append b a _

/-- The bytes that the image's CRC covers. -/
def chainCovered : List Byte := chainImage.take 16 ++ [0, 0, 0, 0] ++ chainImage.drop 20

theorem chainCovered_half : crc32cGo 0xFFFFFFFF (chainCovered.take 130) = 0xfb8011b5 := by decide +kernel

theorem chainCovered_crc : crc32c chainCovered = 0x1b9e06f0 := by
  rw [crc32c, ← List.take_append_drop 130 chainCovered, crcGo_append, chainCovered_half]
  decide +kernel

theorem test_wit_MailboxRunsCommands_crc : imgCrcBad chainImage = false := by
  have h : imgCrcBad chainImage = (crc32c chainCovered != leAt chainImage 16 4 || (imgRecs chainImage).any fun r => crc32c (recBytes chainImage r) != r.crc) := rfl
  rw [h, chainCovered_crc]
  decide +kernel

theorem test_wit_MailboxRunsCommands_chaincode : imgUnread chainImage = false ∧ imgDirBad chainImage = false ∧
    (chainRecords chainImage 0).map chainRecord = [some (0, [0x04000000], [false])] ∧ (chainRecords chainImage 1).map chainRecord = [] := by decide +kernel

/-! The Foreman's commands. -/

def onFcmd (c : Nat) (ops : List Word) : State := { onFramer [] with foreman := { fm0 with cmd := BitVec.ofNat 8 c, ops := ops, busy := true } }

theorem test_wit_ForemanCommands_stage (hs : Config.signatureGood ((firmware 1).take 168) = true) :
    let s := { onFcmd 1 [1, 4096, 256, 0] with mem := byteCells (hostAddr 4096) (firmware 1) }
    s.foreman.cmd.toNat = 1 ∧ s.fop 0 = 1 ∧ s.fop 2 = 256 ∧ fwGood 1 (s.foreman.svnMin 1) (s.readBytes (hostAddr (s.fop 1)) 256) = true := by
  have h : ({ onFcmd 1 [1, 4096, 256, 0] with mem := byteCells (hostAddr 4096) (firmware 1) } : State).readBytes (hostAddr 4096) 256 = firmware 1 := by decide +kernel
  refine ⟨by decide +kernel, by decide +kernel, by decide +kernel, ?_⟩
  exact (congrArg (fwGood 1 0) h).trans (firmware_good 1 (by decide) hs)

theorem test_wit_ForemanCommands : (let s := onFcmd 1 [1, 4096, 256, 0]; fwGood 1 (s.foreman.svnMin 1) (s.readBytes (hostAddr (s.fop 1)) (s.fop 2)) = false) ∧
    (onFcmd 1 [2, 0, 0, 0]).fop 0 = 2 ∧ (let s := onFcmd 2 [1, 0, 0, 0]; s.fop 1 ≠ 1 ∧ s.fop 0 ≤ 1 ∧ s.fop 1 = 0) ∧ 1 < (onFcmd 2 [2, 0, 0, 0]).fop 0 ∧
    (let s := { onFcmd 3 [0, 0, 0, 0] with parts := [(0, { framerPart with desc := framerPart.desc.set 4 1 })] }; s.fop 0 ≤ 7 ∧ bit (s.part 0).logw0 3 = false ∧ logBad (s.part 0) 0 = false ∧ logBad (s.part 0) 3 = true) ∧
    (let s := { onFcmd 4 [0, 0, 0, 0] with
      parts := [(0, { framerPart with frozen := some 3, logw0 := 8 })], jobs := [(3, { state := .run, bays := [0] })], bays := [(0, { slot := some 3, live := true })] }
     s.fop 0 ≤ 7 ∧ (s.part 0).frozen = some 3 ∧ (s.job 3).bays = [0] ∧ (s.bay 0).slot = some 3 ∧ (s.bay 0).live = true) ∧
    (let s := onFcmd 5 [0, 3600, 0, 0]; s.fop 0 ≤ 7 ∧ s.fop 1 ≠ 0 ∧ s.fop 1 ≤ 3600) ∧ 3600 < (onFcmd 5 [0, 3601, 0, 0]).fop 1 ∧
    (let s := onFcmd 6 [4096, 12, 0, 0]; s.fop 0 % 4096 = 0 ∧ 4 ≤ s.fop 1 ∧ s.fop 1 ≤ 12) ∧ 12 < (onFcmd 6 [4096, 13, 0, 0]).fop 1 := by decide +kernel

/-! Live update. -/

def onUpdate (f : Foreman → Foreman) (time : Word) : State := { onFramer [] with foreman := f { fm0 with cmd := 2, ops := [1, 1, 0, 0], busy := true, stg := true }, clk := { time := time } }

theorem test_wit_LiveUpdate : let s := onUpdate id 0
    let old := onUpdate (fun f => { f with slots := [(2, []), (3, firmware 1)] }) 0
    let opened := fun t => onUpdate (fun f => { f with hov := true, handover := some 0 }) t
    let started := fun t => onUpdate (fun f => { f with hov := true, handover := some 0, started := true }) t
    s.foreman.busy = true ∧ s.fop 1 = 1 ∧ s.fop 0 = 1 ∧ s.foreman.stg = true ∧ s.partsWith Part.det = [] ∧ fwHvMin (s.foreman.slot 1 true) ≤ fwHver (s.foreman.slot 1 false) ∧
    fwHver (s.foreman.slot 1 false) ≤ fwHvMax (s.foreman.slot 1 true) ∧ fwHver (old.foreman.slot 1 false) < fwHvMin (old.foreman.slot 1 true) ∧
    (let r := { opened 0 with parts := [(1, { framerPart with flrAsked := true })] }
     (r.part 1).up = true ∧ (r.part 1).flrAsked = true ∧ r.foreman.hov = true ∧ r.framerUp = false ∧
       ({ started 0 with parts := r.parts } : State).foreman.started = true) ∧ (∀ e ∈ (opened 0).parts, e.2.flrAsked = false) ∧
    (onUpdate (fun f => { f with stg := false }) 0).foreman.stg = false ∧ s.boot.rdy = true ∧ (opened 0).foreman.hov = true ∧ (opened 0).foreman.handover ≠ none ∧
    (opened 0).foreman.started = false ∧ (started 0).foreman.started = true ∧ s.foreman.hov = false ∧ s.foreman.started = false ∧ (opened 0).quiet_ = true ∧
    ({ opened 0 with jobs := [(3, { state := .load })] } : State).quiet_ = false ∧
    (started 50000000).clk.time.toNat ≤ (started 50000000).foreman.step3At.toNat + 50000000 ∧
    (started 50000001).foreman.step3At.toNat + 50000000 < (started 50000001).clk.time.toNat ∧
    (let q := onUpdate (fun f => { f with hbcnt := 1 }) 10000001
     q.foreman.hov = false ∧ q.foreman.quietTold = false ∧ q.foreman.hbcnt ≠ 0 ∧ q.foreman.lastBeat.toNat + 10000000 < q.clk.time.toNat) := by decide +kernel

/-! Sensors, spares and checks. -/

theorem test_wit_SensorTripsDiscardWork : let s : State := { boot := { stage := 6, rdy := true }, clk := { time := 100000 }, parts := [(0, { framerPart with blocked := true })] }
    s.boot.stage ≠ 0 ∧ s.foreman.lastSample.toNat + 100000 ≤ s.clk.time.toNat ∧ (s.part 0).blocked = true := by decide +kernel

theorem test_wit_SparesReplaceFailedUnits : let s := onFramer []
    let full := { s with remap := {
      bayskip := [(0, 3)], bankskip := [(0, Vector.replicate 8 1)], colskip := [(0, Vector.replicate 16 1)], rowskip := [(0, Vector.replicate 32 1)], copying := [(4, 32)] } }
    let busy := onFramer [(3, runs [0, 1])]
    s.boot.rdy = true ∧ s.bentIdle 0 = true ∧ busy.bentIdle 0 = false ∧
    0x7FF ∈ bayPlaces (Tab.get 0xF s.remap.bayskip 0) ∧ 0x7FF ∈ (skipList s.remap.bankskip 0).toList ∧ 0x7FF ∈ (skipList s.remap.colskip 0).toList ∧
    0x7FF ∈ (skipList s.remap.rowskip 0).toList ∧ BitVec.ofNat 11 2 ∉ bayPlaces (Tab.get 0xF full.remap.bayskip 0) ∧ 0x7FF ∉ bayPlaces (Tab.get 0xF full.remap.bayskip 0) ∧
    0x7FF ∉ (skipList full.remap.bankskip 0).toList ∧ 0x7FF ∉ (skipList full.remap.colskip 0).toList ∧ 0x7FF ∉ (skipList full.remap.rowskip 0).toList ∧
    s.remap.lathdef.getLsbD 5 = false ∧ (s.lathAt 5).slot = none ∧
    ((List.range 104).countP fun i => s.remap.lathdef.getLsbD i && lathCode i == lathCode 5) < lathSpares (lathCode 5) ∧ s.jointerIdle 5 = true ∧
    ((∀ m, m < 96 → s.jointerOf m ≠ 96) ∧ (1, 96) ∉ s.remap.retired) ∧ (∀ m, m < 32 → s.sliceOf m ≠ spareSlice 4) ∧ (0, spareSlice 4) ∉ s.remap.retired ∧
    (∀ e ∈ s.remap.copying, e.1 ≠ 4 ∧ e.2 ≠ spareSlice 4) ∧ full.remap.copying.find? (fun e => e.1 = 4) = some (4, 32) := by decide +kernel

/-- Twins in bays 0 and 8 of a paired job. -/
def onPair (a b : Bay) (clock : Nat) : State :=
  onBays (onFramer [(4, runs [0] fun j => { j with paired := true, twin := some 1028 }), (1028, runs [8])] clock) [(0, a), (8, b)]

theorem test_wit_ChecksDiscardFaultyWork : let m : Bay := { live := true, merge := some [1, 2] }
    let same := onPair m m 0
    let differ := onPair m { m with merge := some [1, 3] } 0
    let late := onPair m {} 320000
    same.pairs 4 = [(0, 8)] ∧ ((same.pairs 4).flatMap fun x => [x.1, x.2]).Nodup ∧ (same.bay 0).posted = true ∧ (same.bay 8).posted = true ∧ (same.bay 0).merge = (same.bay 8).merge ∧
    (differ.bay 0).merge ≠ (differ.bay 8).merge ∧ (late.bay 0).waitsTwin (late.bay 8) late.clock late.clk.time.toNat = true ∧
    (same.bay 0).waitsTwin (same.bay 8) same.clock same.clk.time.toNat = false ∧
    (let s := { onFramer [] 0 { framerPart with logw0 := 2, stuck := [(4, 0, 3, 0)] } with clk := { time := 1000000 } }
     (s.part 0).logMode = 2 ∧ ∃ e ∈ (s.part 0).stuck, e.2.2.2.toNat + 1000000 ≤ s.clk.time.toNat) ∧
    (onFramer [] 5).testable .lbistBay 0 = true ∧ (onFramer [] 5).testable .comparator 0 = true ∧ (onFramer [] 5).atBoot = false ∧
    (onFramer []).atBoot = true ∧ (onFramer []).testable .monitorClock 0 = true ∧ spareless .monitorClock = true ∧
    (let s := { onFramer [(3, runs [0, 1])] 5 with clk := { time := 60000000000 } }
     s.testable .lbistBay 0 = false ∧ ∃ q ∈ s.testParts .lbistBay 0,
       max (s.lastTest .lbistBay 0) (Tab.get 0 s.remap.idleAt (idleKey .lbistBay 0)).toNat + (s.part q).testint * 1000000000 ≤ s.clk.time.toNat) := by decide +kernel

theorem test_wit_AttestationAnswersMeasure : ({ boot := { stage := 6, rdy := true } } : State).boot.stage ≠ 0 := by decide

/-! Fetching: each section of bay 0 begins with a word (`good`), or with a word of zeros. -/

def codePlane (good : Bool) : Plane :=
  let at_ (w : BitVec 32) (n : Nat) : List Byte := bytesOfWord (if good then w else 0) ++ List.replicate (n - 4) 0
  { bytes := at_ 0x04000000 64 ++ at_ 0x00128A2C 64 ++ at_ 0x08000000 32 ++ at_ 0x094E0FFF 32 ++ at_ 0x094E0FFF 32
    sections := [(0, 64), (64, 64), (128, 32), (160, 32), (192, 32)] }

def fetching (good : Bool) : Bay :=
  { bay0 with
    plane := codePlane good, pc := 0, fetched := 4, v := { run := true, pc := 64, fetched := 4 }, m := { run := true, pc := 128, fetched := 4 }
    l := { run := true, pc := 160, fetched := 4 }, w := { run := true, pc := 192, fetched := 4 } }

theorem test_wit_StepRunsWord_moves : let s := { on .S (fetching true) with agenda := [.stream 0 .S] }
    let y := s.bay 0
    s.agenda = [.stream 0 .S] ∧ y.live = true ∧ y.seqHalted = false ∧ y.vecHalted = false ∧ y.startAt ≤ s.clock ∧ (s.jobOf 0).idle = false ∧ s.isFrozen y.partNo = false ∧
    (y.adv && endsAt y.lc y.pc) = false ∧ y.pend = [] ∧ outside (y.sect .S).1 (y.sect .S).2 y.adv y.pc = false ∧ 4 ≤ y.fetched ∧
    ∀ e ∈ [Eng.V, .M, .L, .W], let x := y.stream e
      x.run = true ∧ x.isHalted = false ∧ (x.adv && endsAt x.lc x.pc) = false ∧ outside (y.sect e).1 (y.sect e).2 x.adv x.pc = false ∧ 4 ≤ x.fetched := by decide +kernel

theorem test_wit_StepRunsWord_decodes : let y := fetching true
    decode .seq (y.codeAt y.pc) = .ok (.addi 0 0 0, []) ∧ decode .vec (y.codeAt y.v.pc) = .ok (.vadd ⟨false, false, 0⟩ 10 10 11, []) ∧
    decode .mtx (y.codeAt y.m.pc) = .ok (.tlease 0 0 0, []) ∧ decode .ld (y.codeAt y.l.pc) = .ok (.xcopy 1 2 7 0xFFF, []) ∧
    decode .st (y.codeAt y.w.pc) = .ok (.xcopy 1 2 7 0xFFF, []) := ⟨rfl, rfl, rfl, rfl, rfl⟩

theorem test_wit_StepRunsWord_zeros : let y := fetching false
    y.codeAt y.pc = [0, 0, 0, 0] ∧ y.codeAt y.v.pc = [0, 0, 0, 0] ∧ y.codeAt y.m.pc = [0, 0, 0, 0] ∧ y.codeAt y.l.pc = [0, 0, 0, 0] ∧ y.codeAt y.w.pc = [0, 0, 0, 0] := by decide +kernel

theorem test_wit_StepRunsWord_none : decode .seq [0, 0, 0, 0] = .error (.encoding .allZero) ∧ decode .vec [0, 0, 0, 0] = .error (.encoding .allZero) ∧
    decode .mtx [0, 0, 0, 0] = .error (.encoding .allZero) ∧ decode .ld [0, 0, 0, 0] = .error (.encoding .allZero) ∧ decode .st [0, 0, 0, 0] = .error (.encoding .allZero) :=
  ⟨rfl, rfl, rfl, rfl, rfl⟩

/-- A position whose code is one scalar word and one vector word. -/
def jtrFetch (pc : BitVec 16) : State :=
  { jointers := [(0, { code := [0x04000000, 0x00128A2C], fam := [false, true], run := true, pc := pc })], chains := [(0, { w := chainW 0 })], agenda := [.jointer 0 0] }

theorem test_wit_StepRunsWord_jointer : let s := jtrFetch 4
    (s.jtr 0 0).run = true ∧ (s.jtr 0 0).page = false ∧ s.isFrozen (chainPart (s.chain 0)) = false ∧ ((s.jtr 0 0).adv && endsAt (s.jtr 0 0).lc (s.jtr 0 0).pc) = false ∧
    outside 0 (4 * (s.jtr 0 0).code.length) (s.jtr 0 0).adv (s.jtr 0 0).pc = false ∧ nth false (s.jtr 0 0).fam 1 = true ∧ nth 0 (s.jtr 0 0).code 1 = 0x00128A2C := by decide +kernel

/-- A gather lath whose plane holds LCKPT 4 after its head. -/
def lathFetch : State := { laths := [(5, { slot := some 3, plane0 := List.replicate 40 0 ++ [0x20000004] })], jobs := [(3, { state := .run })], agenda := [.lath 5] }

theorem test_wit_StepRunsWord_lath : let l := lathFetch
    (l.lathAt 5).slot ≠ none ∧ (l.lathAt 5).hlt = false ∧ (l.lathAt 5).rcv = false ∧ (l.lathAt 5).waiting = false ∧ (l.job (l.lathCtx 5).slot).stopping = false ∧ (l.job (l.lathCtx 5).slot).away = false ∧
    l.isFrozen (l.lathCtx 5).part = false ∧ nth 0 (l.lathAt 5).plane (planeHead + (l.lathAt 5).pc.toNat) = 0x20000004 := by decide +kernel

theorem test_wit_StepRunsWord_agents_decode : decode (.jointerScalar false) (bytesOfWord 0x04000000) = .ok (.addi 0 0 0, []) ∧
    decode .jointerVector (bytesOfWord 0x00128A2C) = .ok (.vadd ⟨false, false, 0⟩ 10 10 11, []) ∧ decode (.lath .gather) (bytesOfWord 0x20000004) = .ok (.lckpt 4, []) ∧
    decode (.lath .gather) (bytesOfWord 0) = .error (.encoding .allZero) := ⟨rfl, rfl, rfl, rfl⟩

/-! One step from memory: the sequencer's ADDI of the code plane (R109), and the table's own word placed in the state after reset. -/

noncomputable def after (s : State) : State :=
  match step s with
  | .next t => t
  | _ => s

theorem test_step_addi : let s := { on .S { fetching true with plane := { codePlane true with bytes := bytesOfWord 0x04218005 } } with agenda := [.stream 0 .S] }
    ((after s).readS 2, (after s).pc) = (5, 4) := by decide +kernel

/-- The state after reset runs a table word that is placed in it. -/
theorem test_step_placed : (after (State.reset.withFetchWord 32 0x04000000)).pc = 4 := by decide +kernel

/-- A word of zeros at an M stream halts it with cause 0x02 (R54). -/
theorem test_step_zeros : ((after { on .M (fetching false) with agenda := [.stream 0 .M] }).bay 0).m.run = false := by decide +kernel

end Sys2Proof.Tests
end

section
/-! Taking a fault (R195 to R201): what a trap entry, the end of a job, and the halts of a stream, a lath and a chain each change. -/

namespace Sys2Proof.Machine

/-! ### Tables and bytes -/

/-- Changing every entry changes what is read, where the change keeps the default. -/
theorem Tab.get_map {α : Type} {d : α} {f : Nat → α → α} {k : Nat} (hd : f k d = d) :
    ∀ l : Tab α, Tab.get d (l.map fun e => (e.1, f e.1 e.2)) k = f k (Tab.get d l k)
  | [] => hd.symm
  | (k', v) :: t => by
    by_cases h : k = k'
    · simp [Tab.get, h]
    · simpa [Tab.get, h] using Tab.get_map hd t

@[simp] theorem natBytes_length : ∀ n v : Nat, (natBytes n v).length = n
  | 0, _ => rfl
  | n + 1, v => by simp [natBytes, natBytes_length n]

/-! ### The fault record (R197) -/

theorem b2n_le_one (b : Bool) : b2n b ≤ 1 := by cases b <;> decide

theorem FaultRec.w0_toNat (r : FaultRec) : r.w0.toNat =
    r.cause.toNat + r.eng.toNat * 2 ^ 8 + b2n r.rst * 2 ^ 11 + r.pc.toNat * 2 ^ 12 + r.tid.toNat * 2 ^ 32 + r.unit.toNat * 2 ^ 48 := by
  have hb := b2n_le_one r.rst
  simp only [FaultRec.w0, word, at_, BitVec.toNat_ofNat]
  omega

/-- FREC0 holds each field of the record in its bits. -/
theorem FaultRec.w0_fields (r : FaultRec) :
    bits r.w0 7 0 = r.cause.toNat ∧ bits r.w0 10 8 = r.eng.toNat ∧ bit r.w0 11 = r.rst ∧ bits r.w0 27 12 = r.pc.toNat ∧
      bits r.w0 47 32 = r.tid.toNat ∧ bits r.w0 55 48 = r.unit.toNat := by
  have hb := b2n_le_one r.rst
  have hr : (b2n r.rst == 1) = r.rst := by cases r.rst <;> rfl
  simp only [bits, bit, FaultRec.w0_toNat]
  refine ⟨by omega, by omega, Eq.trans (congrArg (· == 1) ?_) hr, by omega, by omega, by omega⟩
  omega

/-! ### Trap entry (R198) -/

/-- A bay at the first word of its handler, the fault recorded. -/
def Bay.enterHandler (y : Bay) (rc : FaultRec) (epc : BitVec 16) : Bay :=
  { y.record rc epc with pc := BitVec.ofNat 16 (4 * y.tvecOff.toNat), adv := false, fetched := 0 }.mark markPc

/-- A handler can take a fault: the bay is in none, has one, and its address is a good target. -/
def Bay.Handles (y : Bay) : Prop := y.tIn = false ∧ y.tvecEn = true ∧ y.targetOk (y.tvecOff.toNat * 4) = true

theorem State.trapEntry_handled {s : State} {b : Nat} (h : (s.bay b).Handles) (rc : FaultRec) (epc : BitVec 16) :
    s.trapEntry b rc epc = s.setBay b ((s.bay b).enterHandler rc epc) := by
  obtain ⟨hin, hen, htarget⟩ := h
  simp [State.trapEntry, hin, hen, htarget, Bay.enterHandler, Nat.mul_comm 4]

/-- A bay in a handler, or without one, ends its job with nothing recorded. -/
theorem State.trapEntry_noHandler {s : State} {b : Nat} (h : (s.bay b).tIn = true ∨ (s.bay b).tvecEn = false) (rc : FaultRec) (epc : BitVec 16) :
    s.trapEntry b rc epc = s.endJob b rc := by
  rw [State.trapEntry, if_pos (by simpa using h)]

/-- A handler at a bad address: the fault is recorded, and the job ends. -/
theorem State.trapEntry_badHandler {s : State} {b : Nat} (hin : (s.bay b).tIn = false) (hen : (s.bay b).tvecEn = true)
    (htarget : (s.bay b).targetOk ((s.bay b).tvecOff.toNat * 4) = false) (rc : FaultRec) (epc : BitVec 16) :
    s.trapEntry b rc epc = (s.setBay b ((s.bay b).record rc epc)).endJob b rc := by
  simp [State.trapEntry, hin, hen, htarget]

/-- The bay's entry into its handler is the trap, where nothing but the waiting faults and the dirty bits had changed before. -/
theorem tookTrap_enterHandler {s : State} {b : Nat} {y : Bay} {pend : List PendFault} (hy : y = { s.bay b with pend := pend, dirty := y.dirty })
    (rc : FaultRec) (epc : BitVec 16) : TookTrap s (s.setBay b (y.enterHandler rc epc)) b rc epc pend := by
  obtain ⟨hcause, heng, hrst, hpc, htid, hunit⟩ := rc.w0_fields
  have hf : ((s.setBay b (y.enterHandler rc epc)).bay b).frec0 = rc.w0 := by rw [State.setBay_bay_same]; rfl
  refine ⟨hf ▸ hcause, hf ▸ heng, hf ▸ hrst, hf ▸ hpc, hf ▸ htid, hf ▸ hunit, fun _ => rfl, rfl, fun c hc => State.setBay_bay_ne _ _ _ hc, ?_⟩
  rw [State.setBay_bay_same, hy]
  rfl

theorem tookTrap_trapEntry {s : State} {b : Nat} (h : (s.bay b).Handles) (rc : FaultRec) (epc : BitVec 16) :
    TookTrap s (s.trapEntry b rc epc) b rc epc (s.bay b).pend := by
  rw [State.trapEntry_handled h]
  exact tookTrap_enterHandler rfl rc epc

/-- A waiting fault is delivered at a boundary, and leaves the others waiting (R198, R199). -/
theorem tookTrap_trapDeliver {s : State} {b : Nat} {p : PendFault} {l : List PendFault} (h : (s.bay b).Handles) (hp : (s.bay b).pend = p :: l)
    (hb : (s.bay b).boundary = true) : TookTrap s (trapDeliver b s) b p.rc (s.bay b).pc l := by
  have hd : trapDeliver b s = (s.setBay b ({ s.bay b with pend := l }.mark markTrap)).trapEntry b p.rc (s.bay b).pc := by
    simp [trapDeliver, hp, hb]
  have hh : ((s.setBay b ({ s.bay b with pend := l }.mark markTrap)).bay b).Handles := by
    rw [State.setBay_bay_same]
    exact h
  rw [hd, State.trapEntry_handled hh, State.setBay_bay_same, State.setBay_setBay]
  exact tookTrap_enterHandler rfl p.rc _

/-! ### The end of a job (R198, R325) -/

theorem State.noteArrival_rest (s : State) (n : Nat) : s.noteArrival n = { s with laths := (s.noteArrival n).laths } := by
  unfold State.noteArrival
  split <;> rfl

/-- A job's end in a bay touches no other bay, and of the machine the jobs and the updates of the laths. -/
theorem State.endJob_rest (s : State) (b : Nat) (rc : FaultRec) :
    s.endJob b rc = { s.setBay b ((s.bay b).stopAt s.clock) with jobs := (s.endJob b rc).jobs, laths := (s.endJob b rc).laths } := by
  unfold State.endJob
  dsimp only
  split
  · rw [State.noteArrival_rest]
    rfl
  · rw [State.noteArrival_rest]

@[simp] theorem State.endJob_bay_same (s : State) (b : Nat) (rc : FaultRec) : (s.endJob b rc).bay b = (s.bay b).stopAt s.clock := by
  rw [State.endJob_rest]
  exact State.setBay_bay_same _ _ _

theorem State.endJob_bay_ne (s : State) (rc : FaultRec) {b c : Nat} (h : c ≠ b) : (s.endJob b rc).bay c = s.bay c := by
  rw [State.endJob_rest]
  exact State.setBay_bay_ne _ _ _ h

/-- A job as its end in bay `b` leaves it: the first such fault stands in its completion record. -/
def State.endedJob (s : State) (b : Nat) (rc : FaultRec) : Job :=
  let j := s.jobOf b
  if j.status = 0 then { j with status := 2, cause := rc.cause, fbay := BitVec.ofNat 8 (s.bay b).index, frec := BitVec.ofNat 32 rc.w0.toNat }
  else j

theorem State.endJob_job (s : State) (b : Nat) (rc : FaultRec) (m : Nat) :
    (s.endJob b rc).job m = if m = (s.bay b).slotNo then s.endedJob b rc else s.job m := by
  have hn : ((s.setBay b ((s.bay b).stopAt s.clock)).noteArrival (s.bay b).slotNo).job m = s.job m := by
    rw [State.noteArrival_rest]
    rfl
  unfold State.endJob State.endedJob State.jobOf
  dsimp only
  by_cases h : (s.job (s.bay b).slotNo).status = 0
  · simp only [if_pos h, State.setJob_job, hn]
  · rw [if_neg h, if_neg h, hn]
    split
    · rename_i e
      rw [e]
    · rfl

@[simp] theorem Bay.stopAt_slotNo (y : Bay) (clock : Nat) : (y.stopAt clock).slotNo = y.slotNo := rfl

theorem Bay.stopAt_streams (y : Bay) (clock : Nat) : ∀ e ∈ engines, ((y.stopAt clock).stream e).run = false := by
  simp [engines, Bay.stopAt, Bay.stop, Bay.stream]

/-- The job ends, where nothing had changed before but what the bay records of the fault. -/
theorem endsJob_endJob {s u : State} {b : Nat} (rc : FaultRec) (hrest : u = { s with bays := u.bays }) (hother : ∀ c, c ≠ b → u.bay c = s.bay c)
    (hslot : (u.bay b).slotNo = (s.bay b).slotNo) (hindex : (u.bay b).index = (s.bay b).index) : EndsJob s (u.endJob b rc) b rc := by
  have hjobs : ∀ m, u.job m = s.job m := fun m => by rw [hrest]; rfl
  have hown : (u.endJob b rc).jobOf b = u.endedJob b rc := by
    rw [State.jobOf, State.endJob_job, State.endJob_bay_same, Bay.stopAt_slotNo, if_pos rfl]
  have hjob : u.jobOf b = s.jobOf b := by rw [State.jobOf, hjobs, hslot, State.jobOf]
  have hmem : (u.endJob b rc).mem = s.mem := by
    rw [State.endJob_rest, hrest]
    rfl
  refine ⟨?_, fun h => ?_, fun h => ?_, fun n hn => ?_, fun c hc => ?_, fun a => by rw [hmem], ?_⟩
  · rw [State.endJob_bay_same]
    exact ⟨rfl, rfl, Bay.stopAt_streams _ _⟩
  · rw [hown, State.endedJob, hjob, if_pos h, hindex]
    exact ⟨rfl, rfl, rfl, rfl⟩
  · rw [hown, State.endedJob, hjob, if_neg h]
  · rw [State.endJob_job, hslot, if_neg hn, hjobs]
  · rw [State.endJob_bay_ne _ _ hc, hother c hc]
  · rw [State.endJob_rest, hrest]
    rfl

/-- A fault of the sequencer that no handler takes ends the job; a handler at a bad address has recorded it. -/
theorem endsJob_trapEntry {s : State} {b : Nat} (rc : FaultRec) (epc : BitVec 16)
    (h : (s.bay b).tIn = true ∨ (s.bay b).tvecEn = false ∨ (s.bay b).targetOk ((s.bay b).tvecOff.toNat * 4) = false) :
    EndsJob s (s.trapEntry b rc epc) b rc ∧ ((s.bay b).tIn = false → (s.bay b).tvecEn = true →
      ((s.trapEntry b rc epc).bay b).cause = rc.cause ∧ ((s.trapEntry b rc epc).bay b).epc = epc ∧ ((s.trapEntry b rc epc).bay b).tIn = true) := by
  by_cases hno : (s.bay b).tIn = true ∨ (s.bay b).tvecEn = false
  · rw [State.trapEntry_noHandler hno]
    refine ⟨endsJob_endJob rc rfl (fun _ _ => rfl) rfl rfl, fun hin hen => ?_⟩
    simp [hin, hen] at hno
  · obtain ⟨hin, hen⟩ : (s.bay b).tIn = false ∧ (s.bay b).tvecEn = true := by simpa using hno
    have htarget : (s.bay b).targetOk ((s.bay b).tvecOff.toNat * 4) = false := by simpa [hin, hen] using h
    rw [State.trapEntry_badHandler hin hen htarget]
    have hbay := State.setBay_bay_same s b ((s.bay b).record rc epc)
    refine ⟨endsJob_endJob rc rfl (fun c hc => State.setBay_bay_ne _ _ _ hc) (by rw [hbay]; rfl) (by rw [hbay]; rfl), fun _ _ => ?_⟩
    rw [State.endJob_bay_same, hbay]
    exact ⟨rfl, rfl, rfl⟩

/-! ### The halt of an engine stream (R16, R195) -/

theorem mem_insertPend (p : PendFault) : ∀ l : List PendFault, p ∈ insertPend p l
  | [] => List.mem_cons_self ..
  | q :: t => by
    unfold insertPend
    split
    · exact List.mem_cons_self ..
    · exact List.mem_cons_of_mem _ (mem_insertPend p t)

theorem Bay.mem_addPend (y : Bay) (p : PendFault) : p ∈ (y.addPend p).pend := mem_insertPend p y.pend

theorem Bay.setStream_stream_same (y : Bay) (x : Stream) : ∀ e ∈ engines, (y.setStream e x).stream e = x := by
  simp [engines, Bay.setStream, Bay.stream]

theorem Bay.setStream_stream_ne (y : Bay) (x : Stream) {e f : Eng} : f ≠ e → (y.setStream e x).stream f = y.stream f := by
  cases e <;> cases f <;> simp [Bay.setStream, Bay.stream]

/-- A bay whose stream `e` has halted on a fault at a clock. -/
def Bay.haltOn (y : Bay) (e : Eng) (clock : Nat) (rc : FaultRec) : Bay :=
  ({ y.setStream e { y.stream e with run := false, rc := some rc } with tHalt := y.tHalt ||| BitVec.ofNat 4 (2 ^ e.idx) }.addPend
    ⟨clock, e.code, rc⟩).event evEnd

theorem Bay.haltOn_stream (y : Bay) (e f : Eng) (clock : Nat) (rc : FaultRec) :
    (y.haltOn e clock rc).stream f = (y.setStream e { y.stream e with run := false, rc := some rc }).stream f := by
  cases f <;> rfl

/-- Setting a bit sets it. -/
theorem getLsbD_or_ofNat_two_pow {w i : Nat} (h : i < w) (x : BitVec w) : (x ||| BitVec.ofNat w (2 ^ i)).getLsbD i = true := by
  simp only [BitVec.getLsbD_or, BitVec.getLsbD_ofNat, Nat.testBit_two_pow_self, h, decide_true, Bool.and_true, Bool.or_true]

theorem Eng.idx_lt {e : Eng} (he : e ∈ engines) : e.idx < 4 := by
  cases e <;> simp [engines, Eng.idx] at he ⊢

/-- What the halt of a stream changes of the bay. -/
theorem Bay.haltOn_rest (y : Bay) (e : Eng) (clock : Nat) (rc : FaultRec) :
    let z := y.haltOn e clock rc
    z = { y with v := z.v, m := z.m, l := z.l, w := z.w, tHalt := z.tHalt, pend := z.pend, evpend := z.evpend, dirty := z.dirty } := by
  cases e <;> rfl

/-- A fault of an engine stream halts it, and waits for the bay's sequencer. -/
theorem haltStream_halts (s : State) (b : Nat) {e : Eng} (he : e ∈ engines) (rc : FaultRec) :
    let t := s.haltStream b e rc
    ((t.bay b).stream e).run = false ∧ ((t.bay b).stream e).rc = some rc ∧ (t.bay b).tHalt.getLsbD e.idx = true ∧
      (t.bay b).evpend.getLsbD evEnd = true ∧ (∃ p ∈ (t.bay b).pend, p.rc = rc) ∧
      (∀ f, f ≠ e → (t.bay b).stream f = (s.bay b).stream f) ∧ SameMem s t ∧
      OnlyBay s t b (fun y z => { y with
        v := z.v, m := z.m, l := z.l, w := z.w, tHalt := z.tHalt, pend := z.pend, evpend := z.evpend, dirty := z.dirty }) := by
  intro t
  have hbay : t.bay b = (s.bay b).haltOn e s.clock rc := State.setBay_bay_same _ _ _
  have hstream : (t.bay b).stream e = { (s.bay b).stream e with run := false, rc := some rc } := by
    rw [hbay, Bay.haltOn_stream, Bay.setStream_stream_same _ _ e he]
  refine ⟨by rw [hstream], by rw [hstream], hbay ▸ getLsbD_or_ofNat_two_pow (Eng.idx_lt he) _,
    hbay ▸ getLsbD_or_ofNat_two_pow (by decide) _, ?_, fun f hf => ?_,
    fun _ => rfl, rfl, fun c hc => State.setBay_bay_ne _ _ _ hc, ?_⟩
  · rw [hbay]
    exact ⟨_, Bay.mem_addPend _ _, rfl⟩
  · rw [hbay, Bay.haltOn_stream, Bay.setStream_stream_ne _ _ hf]
  · rw [hbay]
    exact Bay.haltOn_rest _ _ _ _

/-! ### The halt of a lath (R330, R338) -/

/-- A store outside the banks and accumulator stores marks no line. -/
theorem State.dirtyLine_outside (s : State) {a : Nat} (h : 268435456 ≤ a) : s.dirtyLine a = s := by
  have hl : lineOf a = none := by rw [lineOf, if_neg (by omega), if_neg (by omega)]
  rw [State.dirtyLine, hl]

/-- A store to the host's memory changes that memory alone. -/
theorem State.write_host (s : State) (a : Nat) (l : List Byte) :
    s.write (hostAddr a) l = { s with mem := Memory.writeBytes s.mem (hostAddr a) l } := by
  unfold State.write
  split
  · rfl
  · rename_i hl
    have hpos : 0 < l.length := List.length_pos_iff.mpr (by simpa using hl)
    have ha : 268435456 ≤ hostAddr a := by unfold hostAddr; omega
    simp only [State.dirtyLine_outside s ha, State.dirtyLine_outside s (show 268435456 ≤ hostAddr a + l.length - 1 by omega)]

/-- The Foreman's log changes no lath. -/
@[simp] theorem State.fmEvent_laths (s : State) (kind unit : Nat) : (s.fmEvent kind unit).laths = s.laths := by
  unfold State.fmEvent
  dsimp only
  split
  · rfl
  · rw [State.write_host]
    rfl

/-- The Foreman's log writes within its ring. -/
theorem fmEvent_sameMemRing (s : State) (kind unit : Nat) : SameMemRing s (s.fmEvent kind unit) := by
  intro x hx
  unfold State.fmEvent
  dsimp only
  split
  · rfl
  · have hslot : s.foreman.evtail.toNat % 2 ^ s.foreman.evlog + 1 ≤ 2 ^ s.foreman.evlog := Nat.mod_lt _ (Nat.two_pow_pos _)
    rw [State.write_mem, Memory.read_writeBytes_outside]
    · rfl
    · simp only [List.length_append, natBytes_length, hostAddr] at hx ⊢
      omega

@[simp] theorem State.fmOther_laths (s : State) (unit : Nat) : (s.fmOther unit).laths = s.laths := State.fmEvent_laths _ _ _

theorem fmOther_sameMemRing (s : State) (unit : Nat) : SameMemRing s (s.fmOther unit) := fmEvent_sameMemRing s.fresh.2 _ _

/-- A lath's fault reaches the sequencer of its job's bay 0 where that bay runs the job, and else the Foreman's log. -/
theorem State.lathPend_cases (s : State) (j : Nat) (rc : FaultRec) :
    (∃ b l, (s.job j).bays = b :: l ∧ (s.bay b).live = true ∧ (s.bay b).slot = some j ∧
      s.lathPend j rc = s.modBay b fun y => y.addPend ⟨s.clock, 5, rc⟩) ∨
    ((∀ b l, (s.job j).bays = b :: l → (s.bay b).live = true → (s.bay b).slot ≠ some j) ∧ s.lathPend j rc = s.fmOther rc.unit.toNat) := by
  unfold State.lathPend
  split
  · rename_i b l hb
    split
    · rename_i h
      simp only [Bool.and_eq_true, beq_iff_eq] at h
      exact .inl ⟨b, l, hb, h.1, h.2, rfl⟩
    · rename_i h
      refine .inr ⟨fun c k hc hlive hslot => h ?_, rfl⟩
      obtain ⟨rfl, rfl⟩ := List.cons.inj (hb.symm.trans hc)
      simp [hlive, hslot]
  · rename_i hb
    exact .inr ⟨fun c k hc => absurd (hb.symm.trans hc) (by simp), rfl⟩

theorem State.lathPend_laths (s : State) (j : Nat) (rc : FaultRec) : (s.lathPend j rc).laths = s.laths := by
  obtain ⟨b, l, _, _, _, h⟩ | ⟨_, h⟩ := s.lathPend_cases j rc
  · rw [h, State.modBay_laths]
  · rw [h, State.fmOther_laths]

theorem lathPend_sameMemRing (s : State) (j : Nat) (rc : FaultRec) : SameMemRing s (s.lathPend j rc) := by
  obtain ⟨b, l, _, _, _, h⟩ | ⟨_, h⟩ := s.lathPend_cases j rc
  · rw [h]
    exact fun _ _ => rfl
  · rw [h]
    exact fmOther_sameMemRing s _

/-- The fault of a lath waits for the sequencer of bay 0 while that bay runs the job. -/
theorem lathPend_waits {s : State} {j b : Nat} {l : List Nat} (rc : FaultRec) (hb : (s.job j).bays = b :: l) (hlive : (s.bay b).live = true)
    (hslot : (s.bay b).slot = some j) : SameMem s (s.lathPend j rc) ∧ ⟨s.clock, 5, rc⟩ ∈ ((s.lathPend j rc).bay b).pend := by
  obtain ⟨c, k, hc, _, _, h⟩ | ⟨hnone, _⟩ := s.lathPend_cases j rc
  · obtain ⟨rfl, rfl⟩ := List.cons.inj (hb.symm.trans hc)
    rw [h, State.modBay_bay_same]
    exact ⟨fun _ => rfl, Bay.mem_addPend _ _⟩
  · exact absurd hslot (hnone b l hb hlive)

/-- Lath `n` halts. -/
def State.stopLath (s : State) (n : Nat) : State := s.setLath n { s.lathAt n with hlt := true }

theorem State.haltLath_owned {s : State} {n j : Nat} (h : (s.lathAt n).slot = some j) (rc : FaultRec) : s.haltLath n rc =
    (s.stopLath n).lathPend j { rc with eng := 5, pc := BitVec.ofNat 16 (s.lathAt n).pc.toNat, unit := BitVec.ofNat 8 n } := by
  simp only [State.haltLath, State.stopLath, h]

theorem State.haltLath_free {s : State} {n : Nat} (h : (s.lathAt n).slot = none) (rc : FaultRec) : s.haltLath n rc = s.stopLath n := by
  simp only [State.haltLath, State.stopLath, h]

/-- A lath's fault halts that lath; beyond it the Foreman's ring may take an event. -/
theorem haltLath_frame (s : State) (n : Nat) (rc : FaultRec) :
    (s.haltLath n rc).laths = (s.stopLath n).laths ∧ SameMemRing s (s.haltLath n rc) := by
  cases h : (s.lathAt n).slot with
  | none =>
    rw [State.haltLath_free h]
    exact ⟨rfl, fun _ _ => rfl⟩
  | some j =>
    rw [State.haltLath_owned h]
    exact ⟨State.lathPend_laths _ _ _, lathPend_sameMemRing (s.stopLath n) _ _⟩

/-- A fault of a lath halts it, and waits for the sequencer of its job's bay 0. -/
theorem haltLath_halts (s : State) (n : Nat) (rc : FaultRec) :
    let t := s.haltLath n rc
    (t.lathAt n).hlt = true ∧ (∀ m, m ≠ n → t.lathAt m = s.lathAt m) ∧ SameMemRing s t ∧
      ∀ j b l, (s.lathAt n).slot = some j → (s.job j).bays = b :: l → (s.bay b).live = true → (s.bay b).slot = some j →
        SameMem s t ∧ ∃ p ∈ (t.bay b).pend, p.rank = 5 ∧ p.rc.cause = rc.cause ∧ p.rc.unit = BitVec.ofNat 8 n := by
  obtain ⟨hlaths, hring⟩ := haltLath_frame s n rc
  have hat : ∀ m, (s.haltLath n rc).lathAt m = (s.stopLath n).lathAt m := fun m => by simp only [State.lathAt, hlaths]
  refine ⟨?_, fun m hm => ?_, hring, fun j b l hj hb hlive hslot => ?_⟩
  · rw [hat, State.stopLath, State.setLath_lathAt_same]
  · rw [hat, State.stopLath, State.setLath_lathAt, if_neg hm]
  · rw [State.haltLath_owned hj]
    obtain ⟨hmem, hpend⟩ := lathPend_waits (s := s.stopLath n)
      { rc with eng := 5, pc := BitVec.ofNat 16 (s.lathAt n).pc.toNat, unit := BitVec.ofNat 8 n } hb hlive hslot
    exact ⟨hmem, _, hpend, rfl, rfl, rfl⟩

/-! ### The halt of a chain (R353) -/

theorem State.stopChain_chain_ne (s : State) {c k : Nat} (h : k ≠ c) : (s.stopChain c).chain k = s.chain k :=
  Tab.get_put_ne _ _ _ h

theorem State.stopChain_chain_same (s : State) (c : Nat) :
    (s.stopChain c).chain c = { s.chain c with w := (s.chain c).w.set 0 (nth 0 (s.chain c).w 0 &&& 0xFFFFFFFFFFFFFFFE), inFrame := false } :=
  Tab.get_put_same _ _ _ _

/-- A jointer of a chain that has stopped. -/
theorem State.stopChain_jtr (s : State) (c : Nat) {q : Nat} (h : q < 8) : (s.stopChain c).jtr c q = { s.jtr c q with run := false } := by
  have hc : jkey c q / 8 = c := by unfold jkey; omega
  have hget := Tab.get_map (d := ({} : Jointer)) (f := fun k j => if k / 8 = c then { j with run := false } else j) (k := jkey c q)
    (by simp [hc]) s.jointers
  simp only [hc, if_true] at hget
  exact hget

/-- The EN bit of a chain is clear once it has stopped. -/
theorem bit_zero_and_clear (w : Word) : bit (w &&& 0xFFFFFFFFFFFFFFFE) 0 = false := by
  simp [bit]

theorem State.stopChain_chainEn (s : State) (c : Nat) : chainEn ((s.stopChain c).chain c) = false := by
  rw [State.stopChain_chain_same, chainEn]
  cases (s.chain c).w with
  | nil => simp [nth, bit]
  | cons w l => exact bit_zero_and_clear w

/-- A fault of a jointer stops its chain, and is reported to the host. -/
theorem jointerFault_stops (s : State) (c p : Nat) (rc : FaultRec) :
    let t := s.jointerFault c p rc
    SameMem s t ∧ (t.chain c).inFrame = false ∧ chainEn (t.chain c) = false ∧ (∀ q, q < 8 → (t.jtr c q).run = false) ∧
      (∀ k, k ≠ c → t.chain k = s.chain k) ∧ ∃ l, t.outbox = (3, rc.cause :: BitVec.ofNat 8 c :: BitVec.ofNat 8 p :: l) :: s.outbox := by
  intro t
  have hjtr : ∀ q, t.jtr c q = (s.stopChain c).jtr c q := fun _ => rfl
  refine ⟨fun _ => rfl, ?_, s.stopChain_chainEn c, fun q hq => by rw [hjtr, State.stopChain_jtr s c hq],
    fun k hk => State.stopChain_chain_ne s hk, _, rfl⟩
  change ((s.stopChain c).chain c).inFrame = false
  rw [State.stopChain_chain_same]

/-! ### Who raises the fault (R195) -/

theorem State.raise_seq {s : State} {b : Nat} (hc : s.cur = .stream b .S) (rc : FaultRec) :
    s.raise rc = .next (s.trapEntry b { rc with pc := s.pc } s.pc) := by rw [State.raise, hc]

theorem State.raise_engine {s : State} {b : Nat} {e : Eng} (he : e ∈ engines) (hc : s.cur = .stream b e) (rc : FaultRec) :
    s.raise rc = .next (s.haltStream b e { rc with eng := BitVec.ofNat 3 e.code, pc := s.pc }) := by
  cases e <;> simp [engines, State.raise, hc] at he ⊢

theorem State.raise_lath {s : State} {n : Nat} (hc : s.cur = .lath n) (rc : FaultRec) : s.raise rc = .next (s.haltLath n rc) := by
  rw [State.raise, hc]

theorem State.raise_jointer {s : State} {c p : Nat} (hc : s.cur = .jointer c p) (rc : FaultRec) :
    s.raise rc = .next (s.jointerFault c p rc) := by rw [State.raise, hc]

theorem exec_trap_seq {s : State} {b : Nat} (hc : s.cur = .stream b .S) (n : BitVec 4) :
    exec (.trap n) s = .next (s.trapEntry b { cause := BitVec.ofNat 8 (0xE0 + n.toNat), pc := s.pc } (s.pc + 4)) := by
  change execTrap n s = _
  rw [execTrap, hc]
  rfl

/-- Settles O23: each agent's fault by the lemma of what takes it, a trap entry, the end of the job, or the agent's halt. -/
theorem faultsTaken : Obligations.FaultsTaken := by
  unfold Obligations.FaultsTaken
  refine ⟨fun s b hin hen htarget => ⟨fun hc => ⟨fun rc => ?_, fun n => ?_, fun c => ?_⟩, fun p l hp hb => ?_⟩, fun s b rc hc h => ?_,
    fun s rc => ⟨fun b e he hc => ?_, fun n hc => ?_, fun c p hc => ?_⟩⟩
  · exact ⟨_, State.raise_seq hc rc, tookTrap_trapEntry ⟨hin, hen, htarget⟩ _ _⟩
  · exact ⟨_, exec_trap_seq hc n, tookTrap_trapEntry ⟨hin, hen, htarget⟩ _ _⟩
  · exact ⟨_, State.raise_seq hc _, tookTrap_trapEntry ⟨hin, hen, htarget⟩ _ _⟩
  · exact ⟨_, rfl, tookTrap_trapDeliver ⟨hin, hen, htarget⟩ hp hb⟩
  · obtain ⟨hends, hrec⟩ := endsJob_trapEntry { rc with pc := s.pc } s.pc h
    exact ⟨_, State.raise_seq hc rc, hends, hrec⟩
  · exact ⟨_, State.raise_engine he hc rc, haltStream_halts s b he _⟩
  · exact ⟨_, State.raise_lath hc rc, haltLath_halts s n rc⟩
  · exact ⟨_, State.raise_jointer hc rc, jointerFault_stops s c p rc⟩

end Sys2Proof.Machine
end

section
/-! The flip of a bay to a saved job (R216): the bay takes its holder from the image, and the job runs only where that is the job itself. -/

namespace Sys2Proof.Machine

/-- A job stays in LOAD while one of its bays has another holder. -/
theorem enterRun_otherHolder {s : State} {n b : Nat} (hb : b ∈ (s.job n).bays) (hs : (s.bay b).slot ≠ some n) : enterRun n s = s := by
  have hall : ((s.copies n).all fun k => (s.job k).bays.all fun b => (s.bay b).slot == some k) = false := by
    simp only [State.copies, List.all_cons, Bool.and_eq_false_iff]
    exact .inl (List.all_eq_false.mpr ⟨b, hb, by simpa using hs⟩)
  unfold enterRun
  dsimp only
  rw [hall, Bool.and_false, if_neg Bool.false_ne_true]

/-- A restored bay has the holder that its image names. -/
theorem State.restoreOn_slot (s : State) (b n i : Nat) :
    ((s.restoreOn b n i).bay b).slot = (nth {} ((s.job n).latestArea.getD {}).bays i).slot := by
  unfold State.restoreOn
  dsimp only
  rw [State.setBay_bay_same]
  rfl

/-- An image whose one bay has no holder; a save takes the holder from a bay of the job and so writes none such, but the statement admits
every image. -/
def holderlessImage : SaveArea := { bays := [{ pc := 8 }] }

/-- A device that has booted, with the job of slot 4 in LOAD to be restored to bay 0, which has drained. -/
def loadingHolderless : State :=
  { boot := { rdy := true }, bays := [(0, { shadowFor := some 4 })], jobs := [(4, { state := .load, bays := [0], area0 := some holderlessImage })] }

/-- The flip restores the bay, and leaves the job in LOAD. -/
theorem planeFlip_loadingHolderless : ((planeFlip 0 loadingHolderless).job 4).state = .load := by
  have hflip : planeFlip 0 loadingHolderless = enterRun 4 (loadingHolderless.restoreOn 0 4 0) := rfl
  have hslot : ((loadingHolderless.restoreOn 0 4 0).bay 0).slot = none := State.restoreOn_slot _ _ _ _
  rw [hflip, enterRun_otherHolder (b := 0) (List.mem_cons_self ..) (by simp [hslot])]
  rfl

/-- Refutes O47: the statement lets the image of a restored bay name any holder, and says that the job runs once its last bay has flipped; but a bay
whose image names another holder than the job, or none, keeps the job in LOAD. -/
theorem not_planeFlip : ¬ Obligations.PlaneFlip := by
  unfold Obligations.PlaneFlip
  intro h
  obtain ⟨t, ht, _, _, _, hruns, _⟩ := (h loadingHolderless 0 4 0 rfl rfl rfl rfl rfl rfl rfl (fun k hk => absurd hk (Nat.not_lt_zero k)) fun _ => rfl).2
    holderlessImage { pc := 8 } rfl rfl List.nodup_nil
  obtain ⟨hrun, _⟩ := hruns (by decide) (by decide) rfl
  obtain rfl : planeFlip 0 loadingHolderless = t := Host.Outcome.next.inj ht
  rw [planeFlip_loadingHolderless] at hrun
  cases hrun

end Sys2Proof.Machine
end

section
/-! What the next step fetches (R36, R295): an agent that the agenda names, that may move and that has its word, runs the decoded word or its encoding
fault. -/

namespace Sys2Proof.Machine

/-! ### The word at a place -/

theorem pickWord_ok {p : Place} {code : List Byte} {i : Instr} (h : decode p code = .ok (i, [])) (s : State) : pickWord p code s = .run i s := by
  rw [pickWord, h]

theorem pickWord_encoding {p : Place} {code : List Byte} {k : EncKind} (h : decode p code = .error (.encoding k)) (s : State) :
    pickWord p code s = .run (.encodingFault (encCause p (s.earlier p (BitVec.ofNat 32 (bytesNat code)) k))) s := by
  rw [pickWord, h]

/-- A step whose pick is the word at a place runs what the word decodes to, and else its encoding fault. -/
theorem step_of_pickWord {s u : State} {p : Place} {code : List Byte} (h : s.pick = pickWord p code u) (i : Instr) (k : EncKind) :
    (decode p code = .ok (i, []) → step s = exec i u) ∧
      (decode p code = .error (.encoding k) →
        step s = exec (.encodingFault (encCause p (u.earlier p (BitVec.ofNat 32 (bytesNat code)) k))) u) := by
  refine ⟨fun hd => ?_, fun hd => ?_⟩
  · rw [step, h, pickWord_ok hd]
  · rw [step, h, pickWord_encoding hd]

/-! ### The agents' picks -/

/-- No body ends where the program counter stands, whether or not it came there by skipping one. -/
theorem bodyEnds_false {adv ends : Bool} (h : (adv && ends) = false) (skip : Bool) : (adv && !skip && ends) = false := by
  cases adv <;> cases ends <;> simp_all

theorem pickSeq_word {b : Nat} {y : Bay} {s : State} (hlive : y.live = true) (hhalt : y.seqHalted = false) (hstart : y.startAt ≤ s.clock)
    (hidle : (s.jobOf b).idle = false) (hfrozen : s.isFrozen y.partNo = false) (hbody : (y.adv && endsAt y.lc y.pc) = false)
    (hpend : y.pend = [] ∨ y.tIn = true ∨ y.hold = true ∨ y.merge ≠ none) (hin : outside (y.sect .S).1 (y.sect .S).2 y.adv y.pc = false)
    (hfetched : 4 ≤ y.fetched) : pickSeq b y s = pickWord .seq (y.codeAt y.pc) s := by
  have hmoves : (!y.live || y.seqHalted || decide (s.clock < y.startAt) || (s.jobOf b).idle || s.isFrozen y.partNo) = false := by
    simp [hlive, hhalt, hstart, hidle, hfrozen]
  have hdeliver : (!y.pend.isEmpty && !y.tIn && !y.hold && y.merge.isNone) = false := by
    rcases hpend with h | h | h | h
    · simp [h]
    · simp [h]
    · simp [h]
    · simp [Option.isNone_eq_false_iff.mpr (Option.isSome_iff_ne_none.mpr h)]
  have hline : ¬ y.fetched < 4 := by omega
  simp only [pickSeq, hmoves, bodyEnds_false hbody, hdeliver, hin, if_neg hline, Bool.false_eq_true, if_false]

theorem pickStream_word {b : Nat} {e : Eng} {y : Bay} {s : State} (hlive : y.live = true) (hrun : (y.stream e).run = true)
    (hvec : e = .V → y.vecHalted = false) (hhalt : (y.stream e).isHalted = false) (hidle : (s.jobOf b).idle = false)
    (hfrozen : s.isFrozen y.partNo = false) (hbody : ((y.stream e).adv && endsAt (y.stream e).lc (y.stream e).pc) = false)
    (hin : outside (y.sect e).1 (y.sect e).2 (y.stream e).adv (y.stream e).pc = false) (hfetched : 4 ≤ (y.stream e).fetched) :
    pickStream b e y s = pickWord (enginePlace e) (y.codeAt (y.stream e).pc) s := by
  have hpage : (e == .V && y.vecHalted) = false := by
    by_cases h : e = .V
    · simp [hvec h]
    · simp [h]
  have hmoves : (!y.live || !(y.stream e).run || (e == .V && y.vecHalted) || (y.stream e).isHalted || (s.jobOf b).idle || s.isFrozen y.partNo) = false := by
    simp [hlive, hrun, hpage, hhalt, hidle, hfrozen]
  have hline : ¬ (y.stream e).fetched < 4 := by omega
  simp only [pickStream, hmoves, bodyEnds_false hbody, hin, if_neg hline, Bool.false_eq_true, if_false]

theorem pickJointer_word {c q : Nat} {s : State} (hrun : (s.jtr c q).run = true) (hpage : (s.jtr c q).page = false)
    (hfrozen : s.isFrozen (chainPart (s.chain c)) = false) (hbody : ((s.jtr c q).adv && endsAt (s.jtr c q).lc (s.jtr c q).pc) = false)
    (hin : outside 0 (4 * (s.jtr c q).code.length) (s.jtr c q).adv (s.jtr c q).pc = false) :
    pickJointer c q s = pickWord
      (if nth false (s.jtr c q).fam ((s.jtr c q).pc.toNat / 4) then .jointerVector else .jointerScalar (q + 1 == (s.chain c).depth))
      (bytesOfWord (nth 0 (s.jtr c q).code ((s.jtr c q).pc.toNat / 4))) s := by
  have hmoves : (!(s.jtr c q).run || (s.jtr c q).page || s.isFrozen (bits (nth 0 (s.chain c).w 0) 25 23)) = false := by
    simpa [hrun, hpage, chainPart] using hfrozen
  simp only [pickJointer, hmoves, bodyEnds_false hbody, hin, Bool.false_eq_true, if_false]

theorem pickLath_word {n : Nat} {s : State} (hslot : (s.lathAt n).slot ≠ none) (hhlt : (s.lathAt n).hlt = false) (hrcv : (s.lathAt n).rcv = false)
    (hwait : (s.lathAt n).waiting = false) (haway : (s.job (s.lathCtx n).slot).away = false)
    (hstop : (s.job (s.lathCtx n).slot).stopping = false ∨ (s.lathAt n).hop ≠ none) (hfrozen : s.isFrozen (s.lathCtx n).part = false) :
    pickLath n s = pickWord (.lath (lathClass n)) (bytesOfWord (nth 0 (s.lathAt n).plane (planeHead + (s.lathAt n).pc.toNat))) s := by
  have hsave : ((s.job (s.lathCtx n).slot).stopping && (s.lathAt n).hop.isNone) = false := by
    rcases hstop with h | h
    · simp [h]
    · simp [Option.isNone_eq_false_iff.mpr (Option.isSome_iff_ne_none.mpr h)]
  have hmoves : ((s.lathAt n).slot.isNone || (s.lathAt n).hlt || (s.lathAt n).rcv || (s.lathAt n).waiting || (s.job (s.lathCtx n).slot).away ||
      ((s.job (s.lathCtx n).slot).stopping && (s.lathAt n).hop.isNone) || s.isFrozen (s.lathCtx n).part) = false := by
    simp [Option.isSome_iff_ne_none.mpr hslot, hhlt, hrcv, hwait, haway, hsave, hfrozen]
  simp only [pickLath, hmoves, Bool.false_eq_true, if_false]

/-! ### The agenda -/

theorem State.choose_agenda {s : State} {c : Choice} {l : List Choice} (h : s.agenda = c :: l) : s.choose = (c, { s with agenda := l }) := by
  rw [State.choose, h]

theorem pick_seq {s : State} {b : Nat} {l : List Choice} (h : s.agenda = .stream b .S :: l) :
    s.pick = pickSeq b (s.bay b) { s with agenda := l, cur := .stream b .S } := by
  rw [State.pick, State.choose_agenda h]
  rfl

theorem pick_stream {s : State} {b : Nat} {e : Eng} {l : List Choice} (he : e ≠ .S) (h : s.agenda = .stream b e :: l) :
    s.pick = pickStream b e (s.bay b) { s with agenda := l, cur := .stream b e } := by
  rw [State.pick, State.choose_agenda h]
  cases e
  case S => exact absurd rfl he
  all_goals rfl

theorem pick_jointer {s : State} {c q : Nat} {l : List Choice} (h : s.agenda = .jointer c q :: l) :
    s.pick = pickJointer c q { s with agenda := l, cur := .jointer c q } := by
  rw [State.pick, State.choose_agenda h]

theorem pick_lath {s : State} {n : Nat} {l : List Choice} (h : s.agenda = .lath n :: l) :
    s.pick = pickLath n { s with agenda := l, cur := .lath n } := by
  rw [State.pick, State.choose_agenda h]

theorem pick_event {s : State} {i : Instr} {l : List Choice} (h : s.agenda = .event i :: l) :
    s.pick = .run i { s with agenda := l, cur := .none } := by
  rw [State.pick, State.choose_agenda h]

/-- The place whose words an engine stream runs. -/
theorem enginePlace_of_mem {e : Eng} {p : Place} (h : (e, p) ∈ [(Eng.V, Place.vec), (.M, .mtx), (.L, .ld), (.W, .st)]) :
    e ≠ .S ∧ p = enginePlace e := by
  simp only [List.mem_cons, List.not_mem_nil, or_false, Prod.mk.injEq] at h
  rcases h with ⟨rfl, rfl⟩ | ⟨rfl, rfl⟩ | ⟨rfl, rfl⟩ | ⟨rfl, rfl⟩ <;> exact ⟨by decide, rfl⟩

/-- Settles O3: the agenda names the agent, each agent's pick is the word at its program counter, and the step runs that word. -/
theorem stepRunsWord : Obligations.StepRunsWord := by
  unfold Obligations.StepRunsWord
  intro s l i k as decoded
  refine ⟨fun b h hlive hhalt hstart hidle hfrozen hbody hpend hin hfetched => ?_,
    fun b e p hp h hlive hrun hvec hhalt hidle hfrozen hbody hin hfetched => ?_,
    fun c q h hrun hpage hfrozen hbody hin => ?_,
    fun n h hslot hhlt hrcv hwait haway hstop hfrozen => ?_, fun h => ?_⟩
  · exact step_of_pickWord ((pick_seq h).trans (pickSeq_word hlive hhalt hstart hidle hfrozen hbody hpend hin hfetched)) i k
  · obtain ⟨he, rfl⟩ := enginePlace_of_mem hp
    exact step_of_pickWord ((pick_stream he h).trans (pickStream_word hlive hrun hvec hhalt hidle hfrozen hbody hin hfetched)) i k
  · exact step_of_pickWord ((pick_jointer h).trans (pickJointer_word hrun hpage hfrozen hbody hin)) i k
  · exact step_of_pickWord ((pick_lath h).trans (pickLath_word hslot hhlt hrcv hwait haway hstop hfrozen)) i k
  · rw [step, pick_event h]

end Sys2Proof.Machine
end

section
/-! Pegs and the words that move them (R173, R174, R248, R270, R287 to R293): what a list of pops, pushes and reservations changes of a bay, and what the
retirement of a word of each stream does. -/

namespace Sys2Proof.Machine

/-! ### Queues of a mask -/

theorem maskQueues_sublist : ∀ (l : List Nat) (m : Nat), (maskQueues m l).Sublist l
  | [], _ => List.Sublist.slnil
  | q :: t, m => by
    unfold maskQueues
    split
    · exact (maskQueues_sublist t (m / 2)).cons_cons q
    · exact (maskQueues_sublist t (m / 2)).cons q

theorem nodup_maskQueuesIn (e : Eng) (m : Nat) : (maskQueues m (queuesIn e)).Nodup :=
  List.Nodup.sublist (maskQueues_sublist _ _) (by cases e <;> decide)

theorem nodup_maskQueuesOut (e : Eng) (m : Nat) : (maskQueues m (queuesOut e)).Nodup :=
  List.Nodup.sublist (maskQueues_sublist _ _) (by cases e <;> decide)

/-- A stream pops no queue into which it pushes. -/
theorem popsOf_disjoint_pushesOf (e : Eng) (w : BitVec 3) (p : Nat) : ∀ q ∈ pushesOf e p, q ∉ popsOf e w := by
  have hout : ∀ q ∈ queuesOut e, q ∉ queuesIn e := by cases e <;> decide
  exact fun q hp hw => hout q ((maskQueues_sublist _ _).subset hp) ((maskQueues_sublist _ _).subset hw)

/-- How often a queue stands in a list that repeats none. -/
theorem ofNat_count_of_nodup {l : List Nat} (h : l.Nodup) (q : Nat) : BitVec.ofNat 4 (l.count q) = if q ∈ l then 1 else 0 := by
  rw [List.Nodup.count h]
  split <;> rfl

/-! ### What pops, pushes and reservations change of a bay -/

theorem Bay.popAll_eta (qs : List Nat) : ∀ y : Bay, y.popAll qs = { y with cnt := (y.popAll qs).cnt } := by
  induction qs with
  | nil => exact fun _ => rfl
  | cons q t ih => exact fun y => ih (y.pop q)

theorem Bay.push_eta (y : Bay) (q : Nat) : y.push q = { y with cnt := (y.push q).cnt, evpend := (y.push q).evpend, dirty := (y.push q).dirty } := by
  unfold Bay.push
  dsimp only
  split <;> rfl

theorem Bay.pushAll_eta (qs : List Nat) : ∀ y : Bay,
    y.pushAll qs = { y with cnt := (y.pushAll qs).cnt, evpend := (y.pushAll qs).evpend, dirty := (y.pushAll qs).dirty } := by
  induction qs with
  | nil => exact fun _ => rfl
  | cons q t ih =>
    intro y
    have h := ih (y.push q)
    rw [Bay.push_eta] at h
    rw [Bay.pushAll, List.foldl_cons, Bay.push_eta]
    exact h

/-- The bay with a place reserved in each queue. -/
def Bay.reserveAll (y : Bay) (qs : List Nat) : Bay := qs.foldl Bay.reserve y

theorem Bay.reserveAll_eta (qs : List Nat) : ∀ y : Bay, y.reserveAll qs = { y with rsv := (y.reserveAll qs).rsv } := by
  induction qs with
  | nil => exact fun _ => rfl
  | cons q t ih => exact fun y => ih (y.reserve q)

theorem Bay.returnDeferred_eta (qs : List Nat) : ∀ y : Bay, y.returnDeferred qs = { y with rsv := (y.returnDeferred qs).rsv } := by
  induction qs with
  | nil => exact fun _ => rfl
  | cons q t ih => exact fun y => ih (y.unreserve q)

/-- A push and the return of a reservation touch different counts. -/
theorem Bay.push_unreserve (y : Bay) (p q : Nat) : (y.unreserve p).push q = (y.push q).unreserve p := by
  unfold Bay.push
  dsimp only
  split <;> rfl

theorem Bay.pushAll_unreserve (qs : List Nat) (p : Nat) : ∀ y : Bay, (y.unreserve p).pushAll qs = (y.pushAll qs).unreserve p := by
  induction qs with
  | nil => exact fun _ => rfl
  | cons q t ih =>
    intro y
    simp only [Bay.pushAll, List.foldl_cons, Bay.push_unreserve] at ih ⊢
    exact ih (y.push q)

/-- A deferred push is the push, and the return of the reservations. -/
theorem Bay.pushDeferred_eq (qs : List Nat) : ∀ y : Bay, y.pushDeferred qs = (y.pushAll qs).returnDeferred qs := by
  induction qs with
  | nil => exact fun _ => rfl
  | cons q t ih =>
    intro y
    have h := ih ((y.unreserve q).push q)
    rw [Bay.push_unreserve, Bay.pushAll_unreserve] at h
    rw [Bay.pushDeferred, List.foldl_cons, Bay.push_unreserve]
    exact h

/-! ### The counts -/

/-- A fold of steps that each add `d` at their own queue. -/
theorem get_foldl_add {f : Bay → Nat → Bay} {g : Bay → Tab (BitVec 4)} {d : BitVec 4} {q : Nat}
    (h : ∀ y p, Tab.get 0 (g (f y p)) q = Tab.get 0 (g y) q + if q = p then d else 0) (qs : List Nat) :
    ∀ y, Tab.get 0 (g (qs.foldl f y)) q = Tab.get 0 (g y) q + d * BitVec.ofNat 4 (qs.count q) := by
  induction qs with
  | nil => simp
  | cons p t ih =>
    intro y
    rw [List.foldl_cons, ih, h, List.count_cons, BitVec.ofNat_add, BitVec.mul_add]
    by_cases hq : q = p
    · simp [hq, BitVec.add_assoc, BitVec.add_comm d]
    · simp [hq, Ne.symm hq]

theorem Tab.get_set_add (l : Tab (BitVec 4)) (p q : Nat) (d : BitVec 4) :
    Tab.get 0 (Tab.set 0 l p (Tab.get 0 l p + d)) q = Tab.get 0 l q + if q = p then d else 0 := by
  rw [Tab.get_set]
  split
  · rename_i hq
    rw [hq]
  · simp

theorem Bay.pop_cnt (y : Bay) (p q : Nat) : Tab.get 0 (y.pop p).cnt q = Tab.get 0 y.cnt q + if q = p then -1 else 0 := by
  rw [← Tab.get_set_add, ← sub_eq_add_neg]
  rfl

theorem Bay.push_cnt (y : Bay) (p q : Nat) : Tab.get 0 (y.push p).cnt q = Tab.get 0 y.cnt q + if q = p then 1 else 0 := by
  have h : (y.push p).cnt = Tab.set 0 y.cnt p (Tab.get 0 y.cnt p + 1) := by
    unfold Bay.push
    dsimp only
    split <;> rfl
  rw [h, Tab.get_set_add]

theorem Bay.reserve_rsv (y : Bay) (p q : Nat) : Tab.get 0 (y.reserve p).rsv q = Tab.get 0 y.rsv q + if q = p then 1 else 0 :=
  Tab.get_set_add _ _ _ _

theorem Bay.unreserve_rsv (y : Bay) (p q : Nat) : Tab.get 0 (y.unreserve p).rsv q = Tab.get 0 y.rsv q + if q = p then -1 else 0 := by
  rw [← Tab.get_set_add, ← sub_eq_add_neg]
  rfl

theorem Bay.popAll_cnt (y : Bay) (qs : List Nat) (q : Nat) :
    Tab.get 0 (y.popAll qs).cnt q = Tab.get 0 y.cnt q - BitVec.ofNat 4 (qs.count q) := by
  rw [Bay.popAll, get_foldl_add (g := Bay.cnt) (fun y p => y.pop_cnt p q), neg_one_mul, BitVec.sub_eq_add_neg]

theorem Bay.pushAll_cnt (y : Bay) (qs : List Nat) (q : Nat) :
    Tab.get 0 (y.pushAll qs).cnt q = Tab.get 0 y.cnt q + BitVec.ofNat 4 (qs.count q) := by
  rw [Bay.pushAll, get_foldl_add (g := Bay.cnt) (fun y p => y.push_cnt p q), one_mul]

theorem Bay.reserveAll_rsv (y : Bay) (qs : List Nat) (q : Nat) :
    Tab.get 0 (y.reserveAll qs).rsv q = Tab.get 0 y.rsv q + BitVec.ofNat 4 (qs.count q) := by
  rw [Bay.reserveAll, get_foldl_add (g := Bay.rsv) (fun y p => y.reserve_rsv p q), one_mul]

theorem Bay.returnDeferred_rsv (y : Bay) (qs : List Nat) (q : Nat) :
    Tab.get 0 (y.returnDeferred qs).rsv q = Tab.get 0 y.rsv q - BitVec.ofNat 4 (qs.count q) := by
  rw [Bay.returnDeferred, get_foldl_add (g := Bay.rsv) (fun y p => y.unreserve_rsv p q), neg_one_mul, BitVec.sub_eq_add_neg]

theorem Bay.push_evpend (y : Bay) (q : Nat) : (y.push q).evpend = y.evpend ||| if q = 2 ∨ q = 5 ∨ q = 10 then 2 else 0 := by
  unfold Bay.push
  by_cases h : q = 2 ∨ q = 5 ∨ q = 10
  · rw [if_pos (by simpa [or_assoc] using h), if_pos h]
    rfl
  · rw [if_neg (by simpa [or_assoc] using h), if_neg h]
    simp

/-- A push into ls, ms or ws sets EVPEND.PEG. -/
theorem Bay.pushAll_evpend (qs : List Nat) : ∀ y : Bay,
    (y.pushAll qs).evpend = y.evpend ||| if 2 ∈ qs ∨ 5 ∈ qs ∨ 10 ∈ qs then 2 else 0 := by
  induction qs with
  | nil => simp [Bay.pushAll]
  | cons p t ih =>
    intro y
    have h := ih (y.push p)
    rw [Bay.push_evpend, BitVec.or_assoc] at h
    refine h.trans (congrArg (y.evpend ||| ·) ?_)
    by_cases hp : p = 2 ∨ p = 5 ∨ p = 10
    · have hc : 2 ∈ p :: t ∨ 5 ∈ p :: t ∨ 10 ∈ p :: t := by
        rcases hp with rfl | rfl | rfl <;> simp
      rw [if_pos hp, if_pos hc]
      split <;> rfl
    · have hc : (2 ∈ p :: t ∨ 5 ∈ p :: t ∨ 10 ∈ p :: t) ↔ (2 ∈ t ∨ 5 ∈ t ∨ 10 ∈ t) := by
        simp only [List.mem_cons, eq_comm (b := p)]
        tauto
      rw [if_neg hp, if_congr hc rfl rfl]
      simp

/-! ### Pegs at the state -/

theorem pegged_of {s t : State} {b : Nat} {ws ps : List Nat} (hws : ws.Nodup) (hps : ps.Nodup)
    (hcnt : (t.bay b).cnt = (((s.bay b).popAll ws).pushAll ps).cnt) (hev : (t.bay b).evpend = (((s.bay b).popAll ws).pushAll ps).evpend) :
    Pegged s t b ws ps := by
  refine ⟨fun q => ?_, ?_⟩
  · rw [hcnt, Bay.pushAll_cnt, Bay.popAll_cnt, ofNat_count_of_nodup hws, ofNat_count_of_nodup hps]
  · rw [hev, Bay.pushAll_evpend, Bay.popAll_eta]

theorem reserved_of {s t : State} {b : Nat} {ws ps : List Nat} (hws : ws.Nodup) (hps : ps.Nodup)
    (hcnt : (t.bay b).cnt = ((s.bay b).popAll ws).cnt) (hrsv : (t.bay b).rsv = (((s.bay b).popAll ws).reserveAll ps).rsv)
    (hev : (t.bay b).evpend = (s.bay b).evpend) : Reserved s t b ws ps := by
  refine ⟨fun q => ?_, fun q => ?_, hev⟩
  · rw [hcnt, Bay.popAll_cnt, ofNat_count_of_nodup hws]
  · rw [hrsv, Bay.reserveAll_rsv, ofNat_count_of_nodup hps, Bay.popAll_eta]

theorem pushed_of {s t : State} {b : Nat} {qs : List Nat} (hcnt : (t.bay b).cnt = ((s.bay b).pushDeferred qs).cnt)
    (hrsv : (t.bay b).rsv = ((s.bay b).pushDeferred qs).rsv) (hev : (t.bay b).evpend = ((s.bay b).pushDeferred qs).evpend) :
    Pushed s t b qs := by
  rw [Bay.pushDeferred_eq, Bay.returnDeferred_eta] at hcnt hev
  refine ⟨fun q => ?_, fun q => ?_, ?_⟩
  · rw [hcnt, Bay.pushAll_cnt]
  · rw [hrsv, Bay.pushDeferred_eq, Bay.returnDeferred_rsv, Bay.pushAll_eta]
  · rw [hev, Bay.pushAll_evpend]

/-- A change of one bay. -/
theorem onlyBay_modBay {s : State} {b : Nat} {f : Bay → Bay} {fb : Bay → Bay → Bay} (h : f (s.bay b) = fb (s.bay b) (f (s.bay b))) :
    OnlyBay s (s.modBay b f) b fb := by
  refine ⟨rfl, fun c hc => State.modBay_bay_ne _ _ _ hc, ?_⟩
  rw [State.modBay_bay_same]
  exact h

theorem State.modBay_congr {s : State} {b : Nat} {f g : Bay → Bay} (h : f (s.bay b) = g (s.bay b)) : s.modBay b f = s.modBay b g := by
  rw [State.modBay, h, State.modBay]

/-! ### Retirement -/

/-- A bay whose sequencer's word has retired to `pc`. -/
def Bay.seqNext (y : Bay) (pc : BitVec 16) : Bay :=
  { y with pc := pc, adv := true, skip := false, waiting := none, hold := false, fetched := y.fetched - 4 }.mark markPc

/-- A bay in which the word of engine stream `e` has retired to `pc`. -/
def Bay.engNext (y : Bay) (e : Eng) (pc : BitVec 16) : Bay :=
  (y.setStream e { y.stream e with pc := pc, adv := true, skip := false, issued := none, fetched := (y.stream e).fetched - 4 }).mark markPc

/-- A bay in which a vector word has retired to `pc`, and counted. -/
def Bay.vecNext (y : Bay) (pc : BitVec 16) : Bay :=
  { y with v := { y.v with pc := pc, adv := true, skip := false, issued := none, fetched := y.v.fetched - 4, ordinal := y.v.ordinal + 1 } }.mark markPc

theorem Eng.mem_engines {e : Eng} (he : e ≠ .S) : e ∈ engines := by
  cases e
  case S => exact absurd rfl he
  all_goals decide

theorem State.pc_seq {s : State} {b : Nat} (hc : s.cur = .stream b .S) : s.pc = (s.bay b).pc := by
  rw [State.pc, hc]

theorem State.pc_engine {s : State} {b : Nat} {e : Eng} (he : e ≠ .S) (hc : s.cur = .stream b e) : s.pc = ((s.bay b).stream e).pc := by
  rw [State.pc, hc]
  cases e
  case S => exact absurd rfl he
  all_goals rfl

theorem State.retire_seq {s : State} {b : Nat} (hc : s.cur = .stream b .S) : s.retire = s.modBay b fun y => y.seqNext (s.pc + 4) :=
  State.setPc_seq hc _ _

theorem State.retire_engine {s : State} {b : Nat} {e : Eng} (he : e ≠ .S) (hc : s.cur = .stream b e) :
    s.retire = s.modBay b fun y => y.engNext e (s.pc + 4) := by
  rw [State.retire, State.setPc, State.movePc, hc]
  cases e
  case S => exact absurd rfl he
  all_goals rfl

theorem State.retireV_stream {s : State} {b : Nat} (hc : s.cur = .stream b .V) : s.retireV = s.modBay b fun y => y.vecNext (s.pc + 4) := by
  rw [State.retireV, State.retire_engine (by decide) hc, State.countV, State.modBay_cur, hc]
  exact State.modBay_modBay _ _ _ _

/-- A bay after a change of another, and then after its word's retirement. -/
theorem State.modBay_retire_seq {s : State} {b : Nat} {f : Bay → Bay} (hc : s.cur = .stream b .S) (hf : (f (s.bay b)).pc = (s.bay b).pc) :
    (s.modBay b f).retire = s.modBay b fun y => (f y).seqNext (s.pc + 4) := by
  have hpc : (s.modBay b f).pc = s.pc := by rw [State.pc_seq (s := s.modBay b f) hc, State.modBay_bay_same, hf, State.pc_seq hc]
  rw [State.retire_seq (s := s.modBay b f) hc, State.modBay_modBay, hpc]

theorem State.modBay_pc_engine {s : State} {b : Nat} {e : Eng} {f : Bay → Bay} (he : e ≠ .S) (hc : s.cur = .stream b e)
    (hf : ((f (s.bay b)).stream e).pc = ((s.bay b).stream e).pc) : (s.modBay b f).pc = s.pc := by
  rw [State.pc_engine (s := s.modBay b f) he hc, State.modBay_bay_same, hf, State.pc_engine he hc]

theorem State.modBay_retire_engine {s : State} {b : Nat} {e : Eng} {f : Bay → Bay} (he : e ≠ .S) (hc : s.cur = .stream b e)
    (hf : ((f (s.bay b)).stream e).pc = ((s.bay b).stream e).pc) : (s.modBay b f).retire = s.modBay b fun y => (f y).engNext e (s.pc + 4) := by
  rw [State.retire_engine (s := s.modBay b f) he hc, State.modBay_modBay, State.modBay_pc_engine he hc hf]

theorem State.modBay_retireV {s : State} {b : Nat} {f : Bay → Bay} (hc : s.cur = .stream b .V) (hf : (f (s.bay b)).v.pc = (s.bay b).v.pc) :
    (s.modBay b f).retireV = s.modBay b fun y => (f y).vecNext (s.pc + 4) := by
  rw [State.retireV_stream (s := s.modBay b f) hc, State.modBay_modBay, State.modBay_pc_engine (e := .V) (by decide) hc hf]

/-! ### Words that wait -/

/-- A word that does not retire, with or without a hold. -/
theorem setHold_waits {s : State} {b : Nat} {e : Eng} (hc : s.cur = .stream b e) (v : Bool) {i : Instr} (hi : exec i s = .next (s.setHold v)) :
    Waits i s b := by
  by_cases h : e = .S ∧ (s.bay b).hold ≠ v
  · obtain ⟨rfl, hne⟩ := h
    have ht : s.setHold v = s.modBay b fun y => { y with hold := v } := by rw [State.setHold, hc]; exact if_neg hne
    rw [ht] at hi
    refine ⟨_, v, hi, ?_, onlyBay_modBay rfl, fun _ => rfl⟩
    rw [State.pc_seq (s := s.modBay b _) hc, State.modBay_bay_same, State.pc_seq hc]
  · have ht : s.setHold v = s := by
      rw [State.setHold, hc]
      cases e
      case S => exact if_pos (by simpa using h)
      all_goals rfl
    rw [ht] at hi
    exact ⟨s, (s.bay b).hold, hi, rfl, ⟨rfl, fun _ _ => rfl, rfl⟩, fun _ => rfl⟩

/-- An engine's word that waits leaves the state. -/
theorem State.finish_wait_engine {s : State} {b : Nat} {e : Eng} (he : e ≠ .S) (hc : s.cur = .stream b e) : s.finish (.error .wait) = .next s := by
  have ht : s.setHold false = s := by
    rw [State.setHold, hc]
    cases e
    case S => exact absurd rfl he
    all_goals rfl
  rw [State.finish, ht]

/-! ### Peg words of the sequencer and of the V stream (R173, R174, R292, R293) -/

theorem State.onSeq_eq {s : State} {b : Nat} (hc : s.cur = .stream b .S) (f : Nat → Except Stop State) : s.onSeq f = s.finish (f b) := by
  rw [State.onSeq, hc]

theorem State.onVec_eq {s : State} {b : Nat} (hc : s.cur = .stream b .V) (f : Nat → Except Stop State) : s.onVec f = s.finish (f b) := by
  rw [State.onVec, hc]

/-- What a peg word changes of the sequencer's bay. -/
def seqPegs (y z : Bay) : Bay := seqMoves { y with cnt := z.cnt, evpend := z.evpend } z

/-- What a peg word changes of the V stream's bay. -/
def vecPegs (y z : Bay) : Bay := vecMoves { y with cnt := z.cnt, evpend := z.evpend } z

/-- Pops and pushes change the counts, the pending events and the dirty bits. -/
theorem Bay.movedPegs_eta (y : Bay) (ws ps : List Nat) : let z := (y.popAll ws).pushAll ps
    z = { y with cnt := z.cnt, evpend := z.evpend, dirty := z.dirty } := by
  dsimp only
  rw [Bay.pushAll_eta, Bay.popAll_eta]

/-- A peg word's run: it moves the pegs `pop` and `push` and retires. -/
def MovesPegs (i : Instr) (s : State) (b : Nat) (pop push : List Nat) (fb : Bay → Bay → Bay) : Prop :=
  ∃ t, exec i s = .next t ∧ Pegged s t b pop push ∧ t.pc = s.pc + 4 ∧ SameMem s t ∧ OnlyBay s t b fb

/-- A word of the sequencer that moves pegs and retires. -/
theorem movesPegs_seq {s : State} {b : Nat} (hc : s.cur = .stream b .S) {i : Instr} {ws ps : List Nat} (hws : ws.Nodup) (hps : ps.Nodup)
    (hi : exec i s = .next (s.modBay b fun y => (y.popAll ws).pushAll ps).retire) : MovesPegs i s b ws ps seqPegs := by
  have heta := (s.bay b).movedPegs_eta ws ps
  rw [State.modBay_retire_seq hc (by rw [heta])] at hi
  refine ⟨_, hi, pegged_of hws hps ?_ ?_, ?_, fun _ => rfl, onlyBay_modBay ?_⟩
  · rw [State.modBay_bay_same]
    rfl
  · rw [State.modBay_bay_same]
    rfl
  · rw [State.pc_seq (s := s.modBay b _) hc, State.modBay_bay_same]
    rfl
  · rw [heta]
    rfl

/-- A word of the V stream that moves pegs and retires. -/
theorem movesPegs_vec {s : State} {b : Nat} (hc : s.cur = .stream b .V) {i : Instr} {ws ps : List Nat} (hws : ws.Nodup) (hps : ps.Nodup)
    (hi : exec i s = .next (s.modBay b fun y => (y.popAll ws).pushAll ps).retireV) : MovesPegs i s b ws ps vecPegs := by
  have heta := (s.bay b).movedPegs_eta ws ps
  rw [State.modBay_retireV hc (by rw [heta])] at hi
  refine ⟨_, hi, pegged_of hws hps ?_ ?_, ?_, fun _ => rfl, onlyBay_modBay ?_⟩
  · rw [State.modBay_bay_same]
    rfl
  · rw [State.modBay_bay_same]
    rfl
  · rw [State.pc_engine (s := s.modBay b _) (e := .V) (by decide) hc, State.modBay_bay_same]
    rfl
  · rw [heta]
    rfl

/-! What each peg word's meaning answers. -/

theorem guardE_true {e : Stop} : guardE true e = .ok () := rfl
theorem guardE_false {e : Stop} : guardE false e = .error e := rfl

section
variable {s : State} {b : Nat} {m : BitVec 3} {k : BitVec 4}

theorem tkwaitCore_pops (hm : m ≠ 0) (h : (s.bay b).hasPegs (maskQueues m.toNat (queuesIn .S)) = true) :
    tkwaitCore b m s = .ok (s.modBay b fun y => y.popAll (maskQueues m.toNat (queuesIn .S))).retire := by
  simp only [tkwaitCore, bne_iff_ne.mpr hm, h, guardE_true]
  rfl

theorem tkwaitCore_waits (hm : m ≠ 0) (h : (s.bay b).hasPegs (maskQueues m.toNat (queuesIn .S)) = false) : tkwaitCore b m s = .error .wait := by
  simp only [tkwaitCore, bne_iff_ne.mpr hm, h, guardE_true, guardE_false]
  rfl

theorem tksigCore_pushes (hk : k ≠ 0) (h : (s.bay b).roomAll (maskQueues k.toNat (queuesOut .S)) = true) (hs : (s.bay b).stores = []) :
    tksigCore b k s = .ok (s.modBay b fun y => y.pushAll (maskQueues k.toNat (queuesOut .S))).retire := by
  simp only [tksigCore, bne_iff_ne.mpr hk, h, hs, List.isEmpty_nil, guardE_true]
  rfl

theorem tksigCore_waits (hk : k ≠ 0) (h : (s.bay b).roomAll (maskQueues k.toNat (queuesOut .S)) = false) : tksigCore b k s = .error .wait := by
  simp only [tksigCore, bne_iff_ne.mpr hk, h, guardE_true, guardE_false]
  rfl

theorem tksigCore_holds (hk : k ≠ 0) (h : (s.bay b).roomAll (maskQueues k.toNat (queuesOut .S)) = true) (hs : (s.bay b).stores ≠ []) :
    tksigCore b k s = .error .hold := by
  simp only [tksigCore, bne_iff_ne.mpr hk, h, List.isEmpty_eq_false_iff.mpr hs, guardE_true, guardE_false]
  rfl

theorem vpegwCore_pops (hm : m ≠ 0) (h : (s.bay b).hasPegs (maskQueues m.toNat (queuesIn .V)) = true) :
    vpegwCore b m s = .ok (s.modBay b fun y => y.popAll (maskQueues m.toNat (queuesIn .V))).retireV := by
  simp only [vpegwCore, bne_iff_ne.mpr hm, h, guardE_true]
  rfl

theorem vpegwCore_waits (hm : m ≠ 0) (h : (s.bay b).hasPegs (maskQueues m.toNat (queuesIn .V)) = false) : vpegwCore b m s = .error .wait := by
  simp only [vpegwCore, bne_iff_ne.mpr hm, h, guardE_true, guardE_false]
  rfl

theorem vpegsCore_pushes (hm : m ≠ 0) (h : (s.bay b).roomAll (maskQueues m.toNat (queuesOut .V)) = true) :
    vpegsCore b m s = .ok (s.modBay b fun y => y.pushAll (maskQueues m.toNat (queuesOut .V))).retireV := by
  simp only [vpegsCore, bne_iff_ne.mpr hm, h, guardE_true]
  rfl

theorem vpegsCore_waits (hm : m ≠ 0) (h : (s.bay b).roomAll (maskQueues m.toNat (queuesOut .V)) = false) : vpegsCore b m s = .error .wait := by
  simp only [vpegsCore, bne_iff_ne.mpr hm, h, guardE_true, guardE_false]
  rfl

end

theorem exec_tkwait {s : State} {b : Nat} (hc : s.cur = .stream b .S) (m : BitVec 3) : exec (.tkwait m) s = s.finish (tkwaitCore b m s) :=
  State.onSeq_eq hc _

theorem exec_tksig {s : State} {b : Nat} (hc : s.cur = .stream b .S) (m : BitVec 4) : exec (.tksig m) s = s.finish (tksigCore b m s) :=
  State.onSeq_eq hc _

theorem exec_vpegw {s : State} {b : Nat} (hc : s.cur = .stream b .V) (m : BitVec 3) : exec (.vpegw m) s = s.finish (vpegwCore b m s) :=
  State.onVec_eq hc _

theorem exec_vpegs {s : State} {b : Nat} (hc : s.cur = .stream b .V) (m : BitVec 3) : exec (.vpegs m) s = s.finish (vpegsCore b m s) :=
  State.onVec_eq hc _

/-- The peg words of the sequencer (R292, R293). -/
theorem pegWords_seq {s : State} {b : Nat} (hc : s.cur = .stream b .S) (m : BitVec 3) (k : BitVec 4) :
    let y := s.bay b
    let sin := maskQueues m.toNat (queuesIn .S)
    let sout := maskQueues k.toNat (queuesOut .S)
    (m ≠ 0 → y.hasPegs sin = true → MovesPegs (.tkwait m) s b sin [] seqPegs) ∧ (m ≠ 0 → y.hasPegs sin = false → Waits (.tkwait m) s b) ∧
    (m = 0 → exec (.tkwait m) s = s.raise { cause := 0x02 }) ∧
    (k ≠ 0 → y.roomAll sout = true → y.stores = [] → MovesPegs (.tksig k) s b [] sout seqPegs) ∧
    (k ≠ 0 → y.roomAll sout = false ∨ y.stores ≠ [] → Waits (.tksig k) s b) ∧ (k = 0 → exec (.tksig k) s = s.raise { cause := 0x02 }) := by
  refine ⟨fun hm h => ?_, fun hm h => ?_, ?_, fun hk h hs => ?_, fun hk h => ?_, ?_⟩
  · exact movesPegs_seq hc (nodup_maskQueuesIn .S _) List.nodup_nil (by rw [exec_tkwait hc, tkwaitCore_pops hm h]; rfl)
  · exact setHold_waits hc false (by rw [exec_tkwait hc, tkwaitCore_waits hm h]; rfl)
  · rintro rfl
    rw [exec_tkwait hc]
    rfl
  · exact movesPegs_seq hc List.nodup_nil (nodup_maskQueuesOut .S _) (by rw [exec_tksig hc, tksigCore_pushes hk h hs]; rfl)
  · cases hroom : (s.bay b).roomAll (maskQueues k.toNat (queuesOut .S))
    · exact setHold_waits hc false (by rw [exec_tksig hc, tksigCore_waits hk hroom]; rfl)
    · have hs : (s.bay b).stores ≠ [] := by simpa [hroom] using h
      exact setHold_waits hc true (by rw [exec_tksig hc, tksigCore_holds hk hroom hs]; rfl)
  · rintro rfl
    rw [exec_tksig hc]
    rfl

/-- The peg words of the V stream (R173, R174). -/
theorem pegWords_vec {s : State} {b : Nat} (hc : s.cur = .stream b .V) (m : BitVec 3) :
    let y := s.bay b
    let vin := maskQueues m.toNat (queuesIn .V)
    let vout := maskQueues m.toNat (queuesOut .V)
    (m ≠ 0 → y.hasPegs vin = true → MovesPegs (.vpegw m) s b vin [] vecPegs) ∧ (m ≠ 0 → y.hasPegs vin = false → Waits (.vpegw m) s b) ∧
    (m = 0 → exec (.vpegw m) s = s.raise { cause := 0x0A } ∧ exec (.vpegs m) s = s.raise { cause := 0x0A }) ∧
    (m ≠ 0 → y.roomAll vout = true → MovesPegs (.vpegs m) s b [] vout vecPegs) ∧ (m ≠ 0 → y.roomAll vout = false → Waits (.vpegs m) s b) := by
  refine ⟨fun hm h => ?_, fun hm h => ?_, ?_, fun hm h => ?_, fun hm h => ?_⟩
  · exact movesPegs_vec hc (nodup_maskQueuesIn .V _) List.nodup_nil (by rw [exec_vpegw hc, vpegwCore_pops hm h]; rfl)
  · exact setHold_waits hc false (by rw [exec_vpegw hc, vpegwCore_waits hm h]; rfl)
  · rintro rfl
    rw [exec_vpegw hc, exec_vpegs hc]
    exact ⟨rfl, rfl⟩
  · exact movesPegs_vec hc List.nodup_nil (nodup_maskQueuesOut .V _) (by rw [exec_vpegs hc, vpegsCore_pushes hm h]; rfl)
  · exact setHold_waits hc false (by rw [exec_vpegs hc, vpegsCore_waits hm h]; rfl)

/-! ### Pegs of a step word (R238, R248, R270, R290) -/

/-- The bay differs in pegs and dirty bits alone, and in stream `e`, which is `x`. -/
def Bay.PegsBut (y z : Bay) (e : Eng) (x : Stream) : Prop := z = (y.pegWrites z).setStream e x

theorem Bay.pegsBut_popAll (y : Bay) (e : Eng) (x : Stream) (qs : List Nat) : y.PegsBut ((y.setStream e x).popAll qs) e x := by
  unfold Bay.PegsBut
  rw [Bay.popAll_eta]
  cases e <;> rfl

theorem Bay.PegsBut.pushAll {y z : Bay} {e : Eng} {x : Stream} (h : y.PegsBut z e x) (qs : List Nat) : y.PegsBut (z.pushAll qs) e x := by
  unfold Bay.PegsBut at h ⊢
  rw [Bay.pushAll_eta, h]
  cases e <;> rfl

theorem Bay.PegsBut.reserveAll {y z : Bay} {e : Eng} {x : Stream} (h : y.PegsBut z e x) (qs : List Nat) : y.PegsBut (z.reserveAll qs) e x := by
  unfold Bay.PegsBut at h ⊢
  rw [Bay.reserveAll_eta, h]
  cases e <;> rfl

theorem Bay.PegsBut.setStream {y z : Bay} {e : Eng} {x : Stream} (h : y.PegsBut z e x) (x' : Stream) : y.PegsBut (z.setStream e x') e x' := by
  unfold Bay.PegsBut at h ⊢
  rw [h]
  cases e <;> rfl

theorem Bay.PegsBut.stream {y z : Bay} {e : Eng} {x : Stream} (he : e ≠ .S) (h : y.PegsBut z e x) : z.stream e = x := by
  unfold Bay.PegsBut at h
  rw [h, Bay.setStream_stream_same _ _ e (Eng.mem_engines he)]

theorem Bay.popAll_setStream (e : Eng) (x : Stream) (qs : List Nat) : ∀ y : Bay, (y.setStream e x).popAll qs = (y.popAll qs).setStream e x := by
  induction qs with
  | nil => exact fun _ => rfl
  | cons q t ih =>
    intro y
    have h : (y.setStream e x).pop q = (y.pop q).setStream e x := by cases e <;> rfl
    rw [Bay.popAll, List.foldl_cons, h]
    exact ih (y.pop q)

theorem Bay.push_setStream (y : Bay) (e : Eng) (x : Stream) (q : Nat) : (y.setStream e x).push q = (y.push q).setStream e x := by
  unfold Bay.push
  dsimp only
  split <;> cases e <;> rfl

theorem Bay.pushAll_setStream (e : Eng) (x : Stream) (qs : List Nat) : ∀ y : Bay, (y.setStream e x).pushAll qs = (y.pushAll qs).setStream e x := by
  induction qs with
  | nil => exact fun _ => rfl
  | cons q t ih =>
    intro y
    rw [Bay.pushAll, List.foldl_cons, Bay.push_setStream]
    exact ih (y.push q)

theorem Bay.setStream_self (y : Bay) (e : Eng) : y.setStream e (y.stream e) = y := by
  cases e <;> rfl

/-- A queue that is not popped has room as before. -/
theorem Bay.roomAll_popAll (y : Bay) {ws ps : List Nat} (h : ∀ q ∈ ps, q ∉ ws) : (y.popAll ws).roomAll ps = y.roomAll ps := by
  have hroom : ∀ q ∈ ps, (y.popAll ws).room q = y.room q := by
    intro q hq
    have hcnt := y.popAll_cnt ws q
    rw [List.count_eq_zero.mpr (h q hq)] at hcnt
    replace hcnt := hcnt.trans (sub_zero _)
    rw [Bay.room, hcnt, Bay.popAll_eta, Bay.room]
  unfold Bay.roomAll
  rw [Bool.eq_iff_iff, List.all_eq_true, List.all_eq_true]
  exact forall₂_congr fun q hq => by rw [hroom q hq]

theorem Bay.setStream_cnt (y : Bay) (e : Eng) (x : Stream) : (y.setStream e x).cnt = y.cnt := by cases e <;> rfl
theorem Bay.setStream_rsv (y : Bay) (e : Eng) (x : Stream) : (y.setStream e x).rsv = y.rsv := by cases e <;> rfl
theorem Bay.setStream_evpend (y : Bay) (e : Eng) (x : Stream) : (y.setStream e x).evpend = y.evpend := by cases e <;> rfl
theorem Bay.engNext_cnt (y : Bay) (e : Eng) (pc : BitVec 16) : (y.engNext e pc).cnt = y.cnt := by cases e <;> rfl
theorem Bay.engNext_rsv (y : Bay) (e : Eng) (pc : BitVec 16) : (y.engNext e pc).rsv = y.rsv := by cases e <;> rfl
theorem Bay.engNext_evpend (y : Bay) (e : Eng) (pc : BitVec 16) : (y.engNext e pc).evpend = y.evpend := by cases e <;> rfl

theorem Bay.engNext_pc (y : Bay) {e : Eng} (he : e ≠ .S) (pc : BitVec 16) : ((y.engNext e pc).stream e).pc = pc := by
  cases e
  case S => exact absurd rfl he
  all_goals rfl

/-- A step word retires once its pegs have moved and its stream stands as `f` makes it. -/
theorem issued_retire {s : State} {b : Nat} {e : Eng} {g : Bay → Bay} {f : Stream → Stream} (he : e ≠ .S) (hc : s.cur = .stream b e)
    (hg : (s.bay b).PegsBut (g (s.bay b)) e (f ((s.bay b).stream e))) (hkept : (f ((s.bay b).stream e)).kept = [])
    (hpc : (f ((s.bay b).stream e)).pc = ((s.bay b).stream e).pc) :
    let t := (s.modBay b g).retire
    (t.bay b).cnt = (g (s.bay b)).cnt ∧ (t.bay b).rsv = (g (s.bay b)).rsv ∧ (t.bay b).evpend = (g (s.bay b)).evpend ∧ Issued s t b e f := by
  intro t
  have ht : t = s.modBay b fun y => (g y).engNext e (s.pc + 4) := State.modBay_retire_engine he hc (by rw [hg.stream he, hpc])
  have hbay : t.bay b = (g (s.bay b)).engNext e (s.pc + 4) := by rw [ht, State.modBay_bay_same]
  refine ⟨by rw [hbay, Bay.engNext_cnt], by rw [hbay, Bay.engNext_rsv], by rw [hbay, Bay.engNext_evpend], ?_, fun _ => by rw [ht]; rfl, ?_⟩
  · rw [State.pc_engine (s := t) he (by rw [ht]; exact hc), hbay, Bay.engNext_pc _ he]
  · have hx : f ((s.bay b).stream e) = { f ((s.bay b).stream e) with kept := [] } := by rw [← hkept]
    rw [ht]
    refine onlyBay_modBay ?_
    unfold Bay.PegsBut at hg
    rw [hg, hx]
    cases e
    case S => exact absurd rfl he
    all_goals rfl

/-! ### Issue (R238, R289, R290, R403) -/

theorem issue_fault {b : Nat} {e : Eng} {w : BitVec 3} {p : Nat} {t : BitVec 12} {deferred ready : Bool} {body : List Nat → State → Except Stop State}
    {s : State} {c : Nat} (h : stampOf b e t.toNat s = .error (trapC c)) : issue b e w p t deferred ready body s = .error (trapC c) := by
  rw [issue, h]
  rfl

/-- An unstamped word whose conditions hold takes its pegs and runs. -/
theorem issue_unstamped {b : Nat} {e : Eng} {w : BitVec 3} {p : Nat} {deferred : Bool} {body : List Nat → State → Except Stop State} {s : State}
    (hhalt : ((s.bay b).stream e).isHalted = false) (hpegs : (s.bay b).hasPegs (popsOf e w) = true)
    (hroom : deferred = true → (s.bay b).roomAll (((s.bay b).stream e).toReserve (pushesOf e p)) = true) :
    issue b e w p 0 deferred true body s = body (pushesOf e p) (s.takePegs b e (popsOf e w) (pushesOf e p) deferred) := by
  have hst : stampOf b e (0 : BitVec 12).toNat s = .ok none := rfl
  have hok : (true && (s.bay b).hasPegs (popsOf e w) &&
      ((!deferred && (none : Option (Nat × Int)).isNone) || (s.bay b).roomAll (((s.bay b).stream e).toReserve (pushesOf e p)))) = true := by
    rw [hpegs]
    cases deferred
    · rfl
    · simp [hroom rfl]
  simp only [issue, hst, hhalt, Bool.not_false, guardE_true, hok, bind, Except.bind]

/-- Pegs of a word that reserves nothing. -/
theorem State.takePegs_direct (s : State) (b : Nat) (e : Eng) (ws ps : List Nat) : s.takePegs b e ws ps false = s.modBay b fun y => y.popAll ws := rfl

theorem Stream.toReserve_fresh {x : Stream} (h : x.kept = []) (ps : List Nat) : x.toReserve ps = ps := by
  rw [Stream.toReserve, h]
  exact List.filter_eq_self.mpr fun _ _ => rfl

/-- Pegs of a deferred word that holds no reservation yet. -/
theorem State.takePegs_deferred {s : State} {b : Nat} {e : Eng} (he : e ≠ .S) (h : ((s.bay b).stream e).kept = []) (ws ps : List Nat) :
    s.takePegs b e ws ps true = s.modBay b fun y => (y.popAll ws).reserveAll ps := by
  have hpop : ((s.bay b).popAll ws).stream e = (s.bay b).stream e := by
    rw [Bay.popAll_eta]
    cases e <;> rfl
  have hres : (((s.bay b).popAll ws).reserveAll ps).stream e = (s.bay b).stream e := by
    rw [← hpop, Bay.reserveAll_eta]
    cases e <;> rfl
  refine State.modBay_congr ?_
  have hself := Bay.setStream_self (((s.bay b).popAll ws).reserveAll ps) e
  simp only [hpop, h, Stream.toReserve_fresh h, List.filter_nil, Bay.returnDeferred, List.foldl_nil, ite_true]
  rw [hres] at hself
  change (((s.bay b).popAll ws).reserveAll ps).setStream e { (((s.bay b).popAll ws).reserveAll ps).stream e with kept := [] } = _
  rw [hres, ← h]
  exact hself

/-! ### XORD, XNOP and TNOP -/

theorem State.onUnit_eq {s : State} {b : Nat} {e : Eng} (he : e = .L ∨ e = .W) (hc : s.cur = .stream b e) (f : Nat → Eng → Except Stop State) :
    s.onUnit f = s.finish (f b e) := by
  rcases he with rfl | rfl <;> rw [State.onUnit, hc]

theorem exec_xord {s : State} {b : Nat} {e : Eng} (he : e = .L ∨ e = .W) (hc : s.cur = .stream b e) (h : ((s.bay b).stream e).issued = none)
    (w p : BitVec 3) (t : BitVec 12) :
    exec (.xord w p t) s = s.finish (issue b e w p.toNat t false ((s.bay b).stream e).copiesDone (xordFinish b e) s) := by
  change execXord w p t s = _
  rw [execXord, State.onUnit_eq he hc, h]

theorem exec_xnop {s : State} {b : Nat} {e : Eng} (he : e = .L ∨ e = .W) (hc : s.cur = .stream b e) (w p : BitVec 3) (t : BitVec 12) :
    exec (.xnop w p t) s = s.finish (issue b e w p.toNat t true true (fun ps s => .ok (xnopBody b e ps s)) s) :=
  State.onUnit_eq he hc fun b e => issue b e w p.toNat t true true (fun ps s => .ok (xnopBody b e ps s)) s

theorem exec_tnop {s : State} {b : Nat} (hc : s.cur = .stream b .M) (h : (s.bay b).m.issued = none) (w p : BitVec 3) (t : BitVec 12) :
    exec (.tnop w p t) s = s.finish (issue b .M w p.toNat t false true (tnopFinish b) s) := by
  change execTnop w p t s = _
  rw [execTnop, State.onMtx, hc]
  dsimp only
  rw [h]

/-- Where no copy is in flight and there is room, XORD pushes and retires. -/
theorem xordFinish_pushes {b : Nat} {e : Eng} {ps : List Nat} {s : State} (hfly : ((s.bay b).stream e).inflight = []) (hroom : (s.bay b).roomAll ps = true) :
    xordFinish b e ps s = .ok (s.modBay b fun y => y.pushAll ps).retire := by
  rw [xordFinish, hfly, hroom, if_pos (by simp)]

theorem tnopFinish_pushes {b : Nat} {ps : List Nat} {s : State} (h : ps = [] ∨ s.trussQuiet b = true) (hroom : (s.bay b).roomAll ps = true) :
    tnopFinish b ps s = .ok (s.modBay b fun y => y.pushAll ps).retire := by
  rw [tnopFinish, hroom, if_pos]
  rcases h with h | h <;> simp [h]

theorem ne_nil_of_roomAll {y : Bay} {ps : List Nat} (h : y.roomAll ps = false) : ps.isEmpty = false := by
  cases ps with
  | nil => cases h
  | cons => rfl

/-- Without room the push waits, and the word has issued. -/
theorem xordFinish_waits {b : Nat} {e : Eng} {ps : List Nat} {s : State} (hroom : (s.bay b).roomAll ps = false) :
    xordFinish b e ps s = .ok (s.modStream b e fun x => { x with issued := some ps }) := by
  rw [xordFinish, hroom, ne_nil_of_roomAll hroom, Bool.and_false, Bool.or_false, if_neg Bool.false_ne_true]

theorem tnopFinish_waits {b : Nat} {ps : List Nat} {s : State} (hroom : (s.bay b).roomAll ps = false) :
    tnopFinish b ps s = .ok (s.modStream b .M fun x => { x with issued := some ps }) := by
  rw [tnopFinish, hroom, ne_nil_of_roomAll hroom, Bool.and_false, Bool.or_false, if_neg Bool.false_ne_true]

/-- A word that pops at issue and pushes as it retires. -/
theorem pegged_issued {s : State} {b : Nat} {e : Eng} {f : Stream → Stream} (he : e ≠ .S) (hc : s.cur = .stream b e) (w : BitVec 3) (p : Nat)
    (hkept : (f ((s.bay b).stream e)).kept = []) (hpc : (f ((s.bay b).stream e)).pc = ((s.bay b).stream e).pc) :
    let t := (s.modBay b fun y => ((y.setStream e (f (y.stream e))).popAll (popsOf e w)).pushAll (pushesOf e p)).retire
    Pegged s t b (popsOf e w) (pushesOf e p) ∧ Issued s t b e f := by
  intro t
  obtain ⟨hcnt, _, hev, hissued⟩ := issued_retire (f := f)
    (g := fun y => ((y.setStream e (f (y.stream e))).popAll (popsOf e w)).pushAll (pushesOf e p)) he hc
    ((Bay.pegsBut_popAll _ _ _ _).pushAll _) hkept hpc
  rw [Bay.popAll_setStream, Bay.pushAll_setStream] at hcnt hev
  exact ⟨pegged_of (nodup_maskQueuesIn e _) (nodup_maskQueuesOut e _) (hcnt.trans (Bay.setStream_cnt _ _ _)) (hev.trans (Bay.setStream_evpend _ _ _)),
    hissued⟩

/-- A word that pops at issue and finds no room for its push. -/
theorem pegged_waiting (s : State) {b : Nat} {e : Eng} (he : e ≠ .S) (hc : s.cur = .stream b e) (w : BitVec 3) (ps : List Nat) :
    let t := (s.modBay b fun y => y.popAll (popsOf e w)).modStream b e fun x => { x with issued := some ps }
    Pegged s t b (popsOf e w) [] ∧ ((t.bay b).stream e).issued = some ps ∧ t.pc = s.pc ∧ SameMem s t ∧
      OnlyBay s t b (fun y z => (y.pegWrites z).setStream e { y.stream e with issued := (z.stream e).issued }) := by
  intro t
  have hstream : ((s.bay b).popAll (popsOf e w)).stream e = (s.bay b).stream e := by
    rw [Bay.popAll_eta]
    cases e <;> rfl
  have ht : t = s.modBay b fun y => (y.popAll (popsOf e w)).setStream e { y.stream e with issued := some ps } := by
    refine (State.modBay_modBay _ _ _ _).trans (State.modBay_congr ?_)
    dsimp only
    rw [hstream]
  have hbay : t.bay b = ((s.bay b).popAll (popsOf e w)).setStream e { (s.bay b).stream e with issued := some ps } := by
    rw [ht, State.modBay_bay_same]
  have hset := Bay.setStream_stream_same ((s.bay b).popAll (popsOf e w)) { (s.bay b).stream e with issued := some ps } e (Eng.mem_engines he)
  refine ⟨pegged_of (nodup_maskQueuesIn e _) List.nodup_nil ?_ ?_, ?_, ?_, fun _ => by rw [ht]; rfl, ?_⟩
  · rw [hbay, Bay.setStream_cnt]
    rfl
  · rw [hbay, Bay.setStream_evpend]
    rfl
  · rw [hbay, hset]
  · rw [State.pc_engine (s := t) he (by rw [ht]; exact hc), hbay, hset, State.pc_engine he hc]
  · rw [ht]
    refine onlyBay_modBay ?_
    rw [hset, Bay.popAll_eta]
    cases e <;> rfl

/-- XORD in the copy units (R248). -/
theorem xord_issues {s : State} {b : Nat} {e : Eng} {w p : BitVec 3} (he : e = .L ∨ e = .W) (hc : s.cur = .stream b e)
    (hmay : MayIssue s b e w p.toNat) (hfly : ((s.bay b).stream e).inflight = []) (hissued : ((s.bay b).stream e).issued = none) :
    ∃ t, exec (.xord w p 0) s = .next t ∧ Pegged s t b (popsOf e w) (pushesOf e p.toNat) ∧ Issued s t b e id := by
  obtain ⟨hhalt, hkept, hpegs, hroom⟩ := hmay
  have hne : e ≠ .S := by rcases he with rfl | rfl <;> decide
  have hdone : ((s.bay b).stream e).copiesDone = true := by rw [Stream.copiesDone, hfly]; rfl
  have hstream : ((s.modBay b fun y => y.popAll (popsOf e w)).bay b).stream e = (s.bay b).stream e := by
    rw [State.modBay_bay_same, Bay.popAll_eta]
    cases e <;> rfl
  refine ⟨_, ?_, pegged_issued (f := id) hne hc w p.toNat hkept rfl⟩
  rw [exec_xord he hc hissued, hdone, issue_unstamped hhalt hpegs (fun h => by cases h), State.takePegs_direct,
    xordFinish_pushes (by rw [hstream, hfly]) (by rw [State.modBay_bay_same, Bay.roomAll_popAll _ (popsOf_disjoint_pushesOf e w _), hroom]),
    State.modBay_modBay]
  simp only [id, Bay.setStream_self]
  rfl

/-- The deferred push that an XNOP leaves in its unit. -/
def xnopRec (ps : List Nat) (pc : BitVec 16) : CopyRec := { op := .copy, xnop := true, push := ps, pc := pc, ordinal := 0 }

/-- The stream after an XNOP with the pushes `ps`. -/
def Stream.withXnop (ps : List Nat) (pc : BitVec 16) (x : Stream) : Stream :=
  if ps.isEmpty then x else { x with inflight := x.inflight ++ [xnopRec ps pc] }

theorem Stream.withXnop_kept (ps : List Nat) (pc : BitVec 16) (x : Stream) : (x.withXnop ps pc).kept = x.kept := by
  unfold Stream.withXnop
  split <;> rfl

theorem Stream.withXnop_pc (ps : List Nat) (pc : BitVec 16) (x : Stream) : (x.withXnop ps pc).pc = x.pc := by
  unfold Stream.withXnop
  split <;> rfl

/-- XNOP leaves its deferred push and retires, once the bay has changed. -/
theorem xnopBody_modBay (s : State) (b : Nat) (e : Eng) (ps : List Nat) (g : Bay → Bay) : xnopBody b e ps (s.modBay b g) =
    (s.modBay b fun y => (g y).setStream e (((g y).stream e).withXnop ps (s.modBay b g).pc)).retire := by
  unfold xnopBody Stream.withXnop
  cases h : ps.isEmpty
  · simp only [Bool.false_eq_true, if_false]
    exact congrArg State.retire (State.modBay_modBay _ _ _ _)
  · simp only [if_true, Bay.setStream_self]

/-- XNOP in the copy units (R248). -/
theorem xnop_issues {s : State} {b : Nat} {e : Eng} {w p : BitVec 3} (he : e = .L ∨ e = .W) (hc : s.cur = .stream b e)
    (hmay : MayIssue s b e w p.toNat) :
    ∃ t, exec (.xnop w p 0) s = .next t ∧ Reserved s t b (popsOf e w) (pushesOf e p.toNat) ∧
      Issued s t b e (Stream.withXnop (pushesOf e p.toNat) s.pc) := by
  obtain ⟨hhalt, hkept, hpegs, hroom⟩ := hmay
  have hne : e ≠ .S := by rcases he with rfl | rfl <;> decide
  have hpegsBut : (s.bay b).PegsBut (((s.bay b).popAll (popsOf e w)).reserveAll (pushesOf e p.toNat)) e ((s.bay b).stream e) := by
    have h := Bay.pegsBut_popAll (s.bay b) e ((s.bay b).stream e) (popsOf e w)
    rw [Bay.setStream_self] at h
    exact h.reserveAll _
  have hstream := hpegsBut.stream hne
  have hpc : (s.modBay b fun y => (y.popAll (popsOf e w)).reserveAll (pushesOf e p.toNat)).pc = s.pc :=
    State.modBay_pc_engine hne hc (by rw [hstream])
  obtain ⟨hcnt, hrsv, hev, hissued⟩ := issued_retire (f := Stream.withXnop (pushesOf e p.toNat) s.pc)
    (g := fun y => ((y.popAll (popsOf e w)).reserveAll (pushesOf e p.toNat)).setStream e
      ((((y.popAll (popsOf e w)).reserveAll (pushesOf e p.toNat)).stream e).withXnop (pushesOf e p.toNat) s.pc)) hne hc
    (by rw [hstream]; exact hpegsBut.setStream _) (by rw [Stream.withXnop_kept, hkept]) (Stream.withXnop_pc _ _ _)
  rw [Bay.setStream_cnt] at hcnt
  rw [Bay.setStream_rsv] at hrsv
  rw [Bay.setStream_evpend] at hev
  refine ⟨_, ?_, reserved_of (nodup_maskQueuesIn e _) (nodup_maskQueuesOut e _) (hcnt.trans ?_) hrsv (hev.trans ?_), hissued⟩
  · rw [exec_xnop he hc, issue_unstamped hhalt hpegs (fun _ => by rw [Stream.toReserve_fresh hkept, hroom]), State.takePegs_deferred hne hkept,
      xnopBody_modBay, hpc]
    rfl
  · rw [Bay.reserveAll_eta]
  · rw [Bay.reserveAll_eta, Bay.popAll_eta]

/-- A step word that issues without room for its push pops its pegs, and waits with the push (R248, R270). -/
theorem stepWord_waits {s : State} {b : Nat} {e : Eng} {w p : BitVec 3} (he : e ∈ [Eng.M, .L, .W]) (hc : s.cur = .stream b e)
    (hhalt : ((s.bay b).stream e).isHalted = false) (hdone : ((s.bay b).stream e).copiesDone = true) (hissued : ((s.bay b).stream e).issued = none)
    (hpegs : (s.bay b).hasPegs (popsOf e w) = true) (hroom : (s.bay b).roomAll (pushesOf e p.toNat) = false) :
    exec (if e = .M then .tnop w p 0 else .xord w p 0) s =
      .next ((s.modBay b fun y => y.popAll (popsOf e w)).modStream b e fun x => { x with issued := some (pushesOf e p.toNat) }) := by
  have hfull : ((s.modBay b fun y => y.popAll (popsOf e w)).bay b).roomAll (pushesOf e p.toNat) = false := by
    rw [State.modBay_bay_same, Bay.roomAll_popAll _ (popsOf_disjoint_pushesOf e w _), hroom]
  by_cases hM : e = .M
  · subst hM
    rw [if_pos rfl, exec_tnop hc hissued, issue_unstamped hhalt hpegs (fun h => by cases h), State.takePegs_direct, tnopFinish_waits hfull]
    rfl
  · have hunit : e = .L ∨ e = .W := by simpa [hM] using he
    rw [if_neg hM, exec_xord hunit hc hissued, hdone, issue_unstamped hhalt hpegs (fun h => by cases h), State.takePegs_direct,
      xordFinish_waits hfull]
    rfl

/-! ### Deferred pushes (R290) -/

/-- Behind a copy that is not done nothing more is pushed. -/
theorem State.flush_of_head_undone {s : State} {b : Nat} {e : Eng} (h : ∀ r ∈ ((s.bay b).stream e).inflight.head?, r.done = false) : s.flush b e = s := by
  unfold State.flush
  dsimp only
  split
  · rfl
  · cases hl : ((s.bay b).stream e).inflight with
    | nil => rfl
    | cons r t =>
      have hr : r.done = false := h r (by rw [hl]; rfl)
      rw [List.length_cons, flushDone, hl]
      dsimp only
      rw [hr, Bool.false_and, if_neg Bool.false_ne_true]

/-- The release at the head of a unit. -/
theorem deferredPush_head {s : State} {b : Nat} {e : Eng} {r : CopyRec} {l : List CopyRec} (he : e ≠ .S)
    (hfly : ((s.bay b).stream e).inflight = r :: l) (hready : (r.xnop || r.done) = true) (hlate : r.late = none)
    (hhalt : ((s.bay b).stream e).isHalted = false) (hnext : ∀ x ∈ l.head?, x.done = false) :
    deferredPush b e s = s.modBay b fun y => (y.pushDeferred r.push).setStream e { y.stream e with inflight := l } := by
  have hstream : ((s.bay b).pushDeferred r.push).stream e = (s.bay b).stream e := by
    rw [Bay.pushDeferred_eq, Bay.returnDeferred_eta, Bay.pushAll_eta]
    cases e <;> rfl
  have ht : ((s.modBay b fun y => y.pushDeferred r.push).modStream b e fun x => { x with inflight := l }) =
      s.modBay b fun y => (y.pushDeferred r.push).setStream e { y.stream e with inflight := l } := by
    refine (State.modBay_modBay _ _ _ _).trans (State.modBay_congr ?_)
    dsimp only
    rw [hstream]
  have hhead : ((s.modBay b fun y => (y.pushDeferred r.push).setStream e { y.stream e with inflight := l }).bay b).stream e =
      { (s.bay b).stream e with inflight := l } := by
    rw [State.modBay_bay_same, Bay.setStream_stream_same _ _ e (Eng.mem_engines he)]
  rw [deferredPush, hfly]
  dsimp only
  rw [hready, hlate, hhalt, Option.isNone_none, if_pos (by rfl), ht, State.flush_of_head_undone]
  rw [hhead]
  exact hnext

theorem unitEng_ne_S (u : Unit2) : unitEng u ≠ .S := by cases u <;> decide

/-- The release at the head of a unit pushes its pegs and leaves the unit. -/
theorem deferredPegPush_pushes {s : State} {b : Nat} {u : Unit2} {r : CopyRec} {l : List CopyRec}
    (hfly : ((s.bay b).stream (unitEng u)).inflight = r :: l) (hready : (r.xnop || r.done) = true) (hlate : r.late = none)
    (hhalt : ((s.bay b).stream (unitEng u)).isHalted = false) (hnext : ∀ x ∈ l.head?, x.done = false) :
    ∃ t, exec (.deferredPegPush b u) s = .next t ∧ Pushed s t b r.push ∧ SameMem s t ∧ OnlyBay s t b (fun y z =>
      (y.pegWrites z).setStream (unitEng u) { y.stream (unitEng u) with inflight := l }) := by
  refine ⟨_, congrArg Host.Outcome.next (deferredPush_head (unitEng_ne_S u) hfly hready hlate hhalt hnext), pushed_of ?_ ?_ ?_, fun _ => rfl,
    onlyBay_modBay ?_⟩
  · rw [State.modBay_bay_same, Bay.setStream_cnt]
  · rw [State.modBay_bay_same, Bay.setStream_rsv]
  · rw [State.modBay_bay_same, Bay.setStream_evpend]
  · rw [Bay.pushDeferred_eq, Bay.returnDeferred_eta, Bay.pushAll_eta]
    cases u <;> rfl

/-- Settles O27: each peg word's run or wait, a sequencer's and a vector word by its core, a step word by its issue, and the release at a unit's
head. -/
theorem pegWords : Obligations.PegWords := by
  unfold Obligations.PegWords
  refine ⟨fun s b m k => ⟨fun hc => pegWords_seq hc m k, fun hc => pegWords_vec hc m⟩,
    fun s b e w p he hc hmay => ⟨fun hfly hissued => xord_issues he hc hmay hfly hissued, xnop_issues he hc hmay⟩,
    fun s b e w p he hc hhalt hdone hissued hpegs hroom => ?_,
    fun s b u r l hfly hready hlate hhalt hnext => deferredPegPush_pushes hfly hready hlate hhalt hnext⟩
  have hne : e ≠ .S := by rintro rfl; simp at he
  exact ⟨_, stepWord_waits he hc hhalt hdone hissued hpegs hroom, pegged_waiting s hne hc w _⟩

end Sys2Proof.Machine
end

section
/-! The issue of stamped words, of TNOP and of SLOOP (R48, R51, R249, R270, R403). -/

namespace Sys2Proof.Machine

/-! ### Stamps (R403) -/

/-- The frame that a stamp names for a stream. -/
def Stream.stampFrame (x : Stream) (t : BitVec 12) : Nat := if t.toNat ≤ x.ls.toNat then x.sf.toNat + 1 else x.sf.toNat

/-- The clock at which a word of stream `e` with stamp `t` issues. -/
def State.stampClock (s : State) (b : Nat) (e : Eng) (t : BitVec 12) : Int :=
  s.origin (s.bay b).partNo + ((((s.bay b).stream e).stampFrame t : Int) - (s.part (s.bay b).partNo).fnum.toNat) * (s.part (s.bay b).partNo).framelen.toNat +
    8 * t.toNat

/-- The stream of a word that has been stamped. -/
def Stream.stamped (f : Nat) (t : BitVec 12) (x : Stream) : Stream := { x with sf := BitVec.ofNat 48 f, ls := t }

section
variable {s : State} {b : Nat} {e : Eng} {t : BitVec 12}

theorem stampOf_notDet (ht : t ≠ 0) (h : (s.bay b).det = false) : stampOf b e t.toNat s = .error (trapC 0x16) := by
  have ht : t.toNat ≠ 0 := fun h => ht (BitVec.eq_of_toNat_eq h)
  simp only [stampOf, if_neg ht, h, Bool.not_false, if_true]

theorem stampOf_beyond (ht : t ≠ 0) (h : (s.bay b).det = true) (hlen : (s.part (s.bay b).partNo).framelen.toNat ≤ 8 * t.toNat) :
    stampOf b e t.toNat s = .error (trapC 0x12) := by
  have ht : t.toNat ≠ 0 := fun h => ht (BitVec.eq_of_toNat_eq h)
  simp only [stampOf, if_neg ht, h, Bool.not_true, Bool.false_eq_true, if_false, ge_iff_le, if_pos hlen]

theorem stampOf_good (ht : t ≠ 0) (h : (s.bay b).det = true) (hlen : 8 * t.toNat < (s.part (s.bay b).partNo).framelen.toNat) :
    stampOf b e t.toNat s = .ok (some (((s.bay b).stream e).stampFrame t, s.stampClock b e t)) := by
  have ht : t.toNat ≠ 0 := fun h => ht (BitVec.eq_of_toNat_eq h)
  simp only [stampOf, if_neg ht, h, Bool.not_true, Bool.false_eq_true, if_false, ge_iff_le, if_neg (Nat.not_le.mpr hlen)]
  rfl

variable {w : BitVec 3} {p f : Nat} {c : Int} {deferred ready : Bool} {body : List Nat → State → Except Stop State}

theorem issue_early (hst : stampOf b e t.toNat s = .ok (some (f, c))) (hhalt : ((s.bay b).stream e).isHalted = false) (hc : (s.clock : Int) < c) :
    issue b e w p t deferred ready body s = .error .wait := by
  have hle : decide (c ≤ (s.clock : Int)) = false := by simpa using hc
  simp only [issue, hst, hhalt, hle, Bool.not_false, guardE_true, guardE_false, bind, Except.bind]

theorem issue_late (hst : stampOf b e t.toNat s = .ok (some (f, c))) (hhalt : ((s.bay b).stream e).isHalted = false) (hc : c < (s.clock : Int)) :
    issue b e w p t deferred ready body s =
      .ok ((s.setStamp b e f t.toNat).haltStream b e (overrunRec e ((s.bay b).stream e).pc)) := by
  have hle : decide (c ≤ (s.clock : Int)) = true := by simpa using hc.le
  have hne : ¬ c = (s.clock : Int) := by omega
  have hclock : (s.setStamp b e f t.toNat).clock = s.clock := rfl
  simp only [issue, hst, hhalt, hle, hclock, hne, false_and, if_false, Bool.not_false, guardE_true, bind, Except.bind]
  rfl

theorem issue_stamped (hst : stampOf b e t.toNat s = .ok (some (f, c))) (hhalt : ((s.bay b).stream e).isHalted = false) (hc : c = (s.clock : Int))
    (hspawn : ((s.bay b).stream e).spawned + 8 ≤ s.clock) (hpegs : (s.bay b).hasPegs (popsOf e w) = true)
    (hroom : (s.bay b).roomAll (((s.bay b).stream e).toReserve (pushesOf e p)) = true) :
    issue b e w p t deferred true body s = body (pushesOf e p) ((s.setStamp b e f t.toNat).takePegs b e (popsOf e w) (pushesOf e p) deferred) := by
  subst hc
  have hle : decide ((s.clock : Int) ≤ s.clock) = true := decide_eq_true (le_refl _)
  have hclock : (s.setStamp b e f t.toNat).clock = s.clock := rfl
  simp only [issue, hst, hhalt, hle, hclock, hspawn, hpegs, hroom, Bool.or_true, Bool.and_true, true_and, if_true, Bool.not_false, guardE_true,
    bind, Except.bind]

/-- A stamp's update of a stream. -/
theorem State.setStamp_eq (s : State) (b : Nat) (e : Eng) (f : Nat) (t : BitVec 12) :
    s.setStamp b e f t.toNat = s.modBay b fun y => y.setStream e ((y.stream e).stamped f t) := by
  rw [State.setStamp, BitVec.ofNat_toNat, BitVec.setWidth_eq]
  rfl

theorem haltStream_stream (s : State) (b : Nat) {e : Eng} (he : e ∈ engines) (rc : FaultRec) :
    ((s.haltStream b e rc).bay b).stream e = { (s.bay b).stream e with run := false, rc := some rc } := by
  have hbay : (s.haltStream b e rc).bay b = (s.bay b).haltOn e s.clock rc := State.setBay_bay_same _ _ _
  rw [hbay, Bay.haltOn_stream, Bay.setStream_stream_same _ _ e he]

end

/-- A stamped XORD (R403). -/
theorem xord_stamped {s : State} {b : Nat} {e : Eng} {w p : BitVec 3} {t : BitVec 12} (he : e = .L ∨ e = .W) (hc : s.cur = .stream b e) (ht : t ≠ 0)
    (hissued : ((s.bay b).stream e).issued = none) (hdet : (s.bay b).det = true) (hlen : 8 * t.toNat < (s.part (s.bay b).partNo).framelen.toNat)
    (hhalt : ((s.bay b).stream e).isHalted = false) :
    let x := (s.bay b).stream e
    (s.clock < s.stampClock b e t → exec (.xord w p t) s = .next s) ∧
    (s.stampClock b e t < s.clock → ∃ u, exec (.xord w p t) s = .next u ∧ ((u.bay b).stream e).run = false ∧
      ((u.bay b).stream e).rc.map (fun r => r.cause) = some 0xA0 ∧ ((u.bay b).stream e).sf = BitVec.ofNat 48 (x.stampFrame t) ∧
      ((u.bay b).stream e).ls = t ∧ SameMem s u) ∧
    (s.stampClock b e t = s.clock → x.spawned + 8 ≤ s.clock → x.inflight = [] → MayIssue s b e w p.toNat →
      ∃ u, exec (.xord w p t) s = .next u ∧ Pegged s u b (popsOf e w) (pushesOf e p.toNat) ∧ Issued s u b e (Stream.stamped (x.stampFrame t) t)) := by
  have hne : e ≠ .S := by rcases he with rfl | rfl <;> decide
  have hst := stampOf_good (e := e) ht hdet hlen
  refine ⟨fun hearly => ?_, fun hlate => ?_, fun hnow hspawn hfly hmay => ?_⟩
  · rw [exec_xord he hc hissued, issue_early hst hhalt hearly, State.finish_wait_engine hne hc]
  · refine ⟨_, by rw [exec_xord he hc hissued, issue_late hst hhalt hlate, State.setStamp_eq]; rfl, ?_⟩
    rw [haltStream_stream _ _ (Eng.mem_engines hne), State.modBay_bay_same, Bay.setStream_stream_same _ _ e (Eng.mem_engines hne)]
    exact ⟨rfl, rfl, rfl, rfl, fun _ => rfl⟩
  · obtain ⟨_, hkept, hpegs, hroom⟩ := hmay
    have hdone : ((s.bay b).stream e).copiesDone = true := by rw [Stream.copiesDone, hfly]; rfl
    have hbut := Bay.pegsBut_popAll (s.bay b) e (((s.bay b).stream e).stamped (((s.bay b).stream e).stampFrame t) t) (popsOf e w)
    have hroom' : ((((s.bay b).setStream e (((s.bay b).stream e).stamped (((s.bay b).stream e).stampFrame t) t)).popAll (popsOf e w)).roomAll
        (pushesOf e p.toNat)) = true := by
      rw [Bay.roomAll_popAll _ (popsOf_disjoint_pushesOf e w _), ← hroom]
      cases e <;> rfl
    refine ⟨_, ?_, pegged_issued (f := Stream.stamped (((s.bay b).stream e).stampFrame t) t) hne hc w p.toNat hkept rfl⟩
    rw [exec_xord he hc hissued, hdone, issue_stamped hst hhalt hnow hspawn hpegs (by rw [Stream.toReserve_fresh hkept, hroom]), State.setStamp_eq,
      State.takePegs_direct, State.modBay_modBay,
      xordFinish_pushes (by rw [State.modBay_bay_same, hbut.stream hne]; exact hfly) (by rw [State.modBay_bay_same]; exact hroom'),
      State.modBay_modBay]
    rfl

/-! ### TNOP (R270) -/

theorem trussQuiet_popAll (s : State) (b : Nat) (qs : List Nat) : (s.modBay b fun y => y.popAll qs).trussQuiet b = s.trussQuiet b := by
  have htruss : ((s.modBay b fun y => y.popAll qs).bay b).truss = (s.bay b).truss := by rw [State.modBay_bay_same, Bay.popAll_eta]
  rw [State.trussQuiet, htruss, State.modBay_bent, State.trussQuiet]

/-- TNOP in the M stream. -/
theorem tnop_issues {s : State} {b : Nat} {w p : BitVec 3} (hc : s.cur = .stream b .M) (hissued : (s.bay b).m.issued = none)
    (hmay : MayIssue s b .M w p.toNat) (hquiet : p = 0 ∨ s.trussQuiet b = true) :
    ∃ t, exec (.tnop w p 0) s = .next t ∧ Pegged s t b (popsOf .M w) (pushesOf .M p.toNat) ∧ t.pc = s.pc + 4 ∧ SameMem s t ∧
      OnlyBay s t b (fun y z => (y.pegWrites z).setStream .M { stepMoves y.m z.m with kept := y.m.kept }) := by
  obtain ⟨hhalt, hkept, hpegs, hroom⟩ := hmay
  have hready : pushesOf .M p.toNat = [] ∨ (s.modBay b fun y => y.popAll (popsOf .M w)).trussQuiet b = true := by
    rcases hquiet with rfl | h
    · exact .inl rfl
    · exact .inr ((trussQuiet_popAll s b _).trans h)
  obtain ⟨hpegged, hpc, hmem, hrest, hothers, hbay⟩ := pegged_issued (e := .M) (f := id) (by decide) hc w p.toNat hkept rfl
  refine ⟨_, ?_, hpegged, hpc, hmem, hrest, hothers, ?_⟩
  · rw [exec_tnop hc hissued, issue_unstamped hhalt hpegs (fun h => by cases h), State.takePegs_direct,
      tnopFinish_pushes hready (by rw [State.modBay_bay_same, Bay.roomAll_popAll _ (popsOf_disjoint_pushesOf .M w _), hroom]), State.modBay_modBay]
    rfl
  · dsimp only
    rw [show (s.bay b).m.kept = [] from hkept]
    exact hbay

/-! ### SLOOP (R51, R249) -/

/-- What the entry of a stream's loop changes of the bay. -/
def loopMoves (e : Eng) (y z : Bay) : Bay :=
  { y.setStream e { y.stream e with
      pc := (z.stream e).pc, adv := (z.stream e).adv, skip := (z.stream e).skip, issued := none, fetched := (z.stream e).fetched, lc := (z.stream e).lc } with
    dirty := z.dirty }

/-- The bay `z` is `y` with the loop counters `lc` of stream `e`, which stands at `pc`. -/
structure Bay.AtLoop (y z : Bay) (e : Eng) (pc : BitVec 16) (lc : Tab Loop) : Prop where
  rest : z = loopMoves e y z
  pc : (z.stream e).pc = pc
  lc : (z.stream e).lc = lc

theorem Bay.atLoop_jump (y : Bay) {e : Eng} (he : e ≠ .S) (pc : BitVec 16) (a : Bool) (f i : Nat) :
    y.AtLoop ((y.setStream e { y.stream e with pc := pc, adv := a, skip := false, issued := none, fetched := f }).mark i) e pc (y.stream e).lc := by
  cases e
  case S => exact absurd rfl he
  all_goals exact ⟨rfl, rfl, rfl⟩

theorem Bay.AtLoop.skipped {y z : Bay} {e : Eng} {pc : BitVec 16} {lc : Tab Loop} (he : e ≠ .S) (h : y.AtLoop z e pc lc) :
    y.AtLoop (z.setStream e { z.stream e with skip := true }) e pc lc := by
  obtain ⟨hrest, hpc, hlc⟩ := h
  refine ⟨?_, ?_, ?_⟩
  · rw [hrest]
    cases e <;> rfl
  · rw [Bay.setStream_stream_same _ _ e (Eng.mem_engines he), ← hpc]
  · rw [Bay.setStream_stream_same _ _ e (Eng.mem_engines he), ← hlc]

theorem Bay.atLoop_enter (y : Bay) {e : Eng} (he : e ≠ .S) (pc : BitVec 16) (lc : Tab Loop) (i : Nat) :
    y.AtLoop (((y.setStream e { y.stream e with lc := lc }).mark i).engNext e pc) e pc lc := by
  cases e
  case S => exact absurd rfl he
  all_goals exact ⟨rfl, rfl, rfl⟩

theorem State.lcs_engine {s : State} {b : Nat} {e : Eng} (he : e ≠ .S) (hc : s.cur = .stream b e) : s.lcs = ((s.bay b).stream e).lc := by
  rw [State.lcs, hc]
  cases e
  case S => exact absurd rfl he
  all_goals rfl

theorem State.setPc_engine {s : State} {b : Nat} {e : Eng} (he : e ≠ .S) (hc : s.cur = .stream b e) (v : BitVec 16) (a : Bool) :
    s.setPc v a = s.modBay b fun y => (y.setStream e { y.stream e with
      pc := v, adv := a, skip := false, issued := none, fetched := if a then (y.stream e).fetched - 4 else 0 }).mark markPc := by
  rw [State.setPc, State.movePc, hc]
  cases e
  case S => exact absurd rfl he
  all_goals rfl

theorem State.setLc_engine {s : State} {b : Nat} {e : Eng} (he : e ≠ .S) (hc : s.cur = .stream b e) (j : Nat) (l : Loop) :
    s.setLc j l = s.modBay b fun y =>
      (y.setStream e { y.stream e with lc := Tab.set {} (y.stream e).lc j l }).mark (lcMark e j) := by
  rw [State.setLc, hc]
  cases e
  case S => exact absurd rfl he
  all_goals rfl

theorem State.bodySkipped_engine {s : State} {b : Nat} {e : Eng} (he : e ≠ .S) (hc : s.cur = .stream b e) :
    s.bodySkipped = s.modBay b fun y => y.setStream e { y.stream e with skip := true } := by
  rw [State.bodySkipped, hc]
  cases e
  case S => exact absurd rfl he
  all_goals rfl

/-- A loop with trip count 0 skips its body; where that ends with the plane, the program counter stands at the plane's end (log 90). -/
theorem loopEnter_skips {s : State} {b : Nat} {e : Eng} (he : e ≠ .S) (hc : s.cur = .stream b e) (j len : Nat) (idx st : Word) :
    ∃ g, loopEnter j 0 len idx st s = s.modBay b g ∧
      (s.bay b).AtLoop (g (s.bay b)) e (BitVec.ofNat 16 (s.pc.toNat + 4 + 4 * len)) ((s.bay b).stream e).lc := by
  by_cases hend : s.pc.toNat + 4 + 4 * len = 65536
  · have ht : loopEnter j 0 len idx st s = (s.setPc 0 true).bodySkipped := by
      rw [loopEnter]
      simp only [if_true, hend]
    have hzero : BitVec.ofNat 16 65536 = 0 := by decide
    rw [ht, State.setPc_engine he hc, State.bodySkipped_engine he (by exact hc), State.modBay_modBay, hend, hzero]
    exact ⟨_, rfl, (Bay.atLoop_jump _ he _ _ _ _).skipped he⟩
  · have ht : loopEnter j 0 len idx st s = s.setPc (BitVec.ofNat 16 (s.pc.toNat + 4 + 4 * len)) false := by
      rw [loopEnter]
      simp only [if_true, if_neg hend]
    rw [ht, State.setPc_engine he hc]
    exact ⟨_, rfl, Bay.atLoop_jump _ he _ _ _ _⟩

/-- A loop that runs sets its counter, and its body begins. -/
theorem loopEnter_runs {s : State} {b : Nat} {e : Eng} (he : e ≠ .S) (hc : s.cur = .stream b e) (j : Nat) {n : Nat} (hn : n ≠ 0) (len : Nat)
    (idx st : Word) :
    ∃ g, loopEnter j n len idx st s = s.modBay b g ∧ (s.bay b).AtLoop (g (s.bay b)) e (s.pc + 4) (Tab.set {} ((s.bay b).stream e).lc j
      { rem := BitVec.ofNat 32 (n - 1), len := BitVec.ofNat 8 len, start := s.pc + 4, active := true, idx := idx, step := st }) := by
  rw [loopEnter, if_neg hn, State.setLc_engine he hc, State.modBay_retire_engine he hc (by cases e <;> rfl)]
  exact ⟨_, rfl, Bay.atLoop_enter _ he _ _ _⟩

/-- The entry of an engine stream's loop. -/
theorem entersLoop_engine {s : State} {b : Nat} {e : Eng} (he : e ≠ .S) (hc : s.cur = .stream b e) {i : Instr} {j n len : Nat} {idx st : Word}
    (hi : exec i s = .next (loopEnter j n len idx st s)) (fj : Jointer → Jointer → Jointer) : EntersLoop i s j n len idx st (loopMoves e) fj := by
  obtain ⟨g, hg, hat⟩ : ∃ g, loopEnter j n len idx st s = s.modBay b g ∧ (s.bay b).AtLoop (g (s.bay b)) e
      (if n = 0 then BitVec.ofNat 16 (s.pc.toNat + 4 + 4 * len) else s.pc + 4)
      (if n = 0 then ((s.bay b).stream e).lc else Tab.set {} ((s.bay b).stream e).lc j
        { rem := BitVec.ofNat 32 (n - 1), len := BitVec.ofNat 8 len, start := s.pc + 4, active := true, idx := idx, step := st }) := by
    by_cases hn : n = 0
    · subst hn
      exact loopEnter_skips he hc j len idx st
    · simp only [if_neg hn]
      exact loopEnter_runs he hc j hn len idx st
  have hcur : (s.modBay b g).cur = .stream b e := hc
  have hlc : (s.modBay b g).lcs = if n = 0 then s.lcs else Tab.set {} s.lcs j
      { rem := BitVec.ofNat 32 (n - 1), len := BitVec.ofNat 8 len, start := s.pc + 4, active := true, idx := idx, step := st } := by
    rw [State.lcs_engine he hcur, State.modBay_bay_same, hat.lc, State.lcs_engine he hc]
  rw [hg] at hi
  refine ⟨_, hi, ?_, ?_, fun k hk => ?_, fun _ => rfl,
    OnlyActor.stream hc rfl (fun c hne => State.modBay_bay_ne _ _ _ hne) (by rw [State.modBay_bay_same]; exact hat.rest)⟩
  · rw [State.pc_engine he hcur, State.modBay_bay_same, hat.pc]
  · rw [hlc]
    split
    · rfl
    · rw [Tab.get_set_same]
  · rw [hlc]
    split
    · rfl
    · rw [Tab.get_set, if_neg hk]

/-- The active loops around the word at `pc`. -/
def outerLoops (lc : Tab Loop) (pc : Nat) : Tab Loop :=
  lc.filter fun x => x.2.active && decide (x.2.start.toNat ≤ pc) && decide (pc < x.2.stop)

section
variable {s : State} {b : Nat} {e : Eng} {k : BitVec 3} {len : BitVec 5}

theorem exec_sloop (he : e ∈ [Eng.M, .L, .W]) (hc : s.cur = .stream b e) : exec (.sloop k len) s = s.finish (sloopCore b e k len s) := by
  change execSloop k len s = _
  simp only [List.mem_cons, List.not_mem_nil, or_false] at he
  rcases he with rfl | rfl | rfl <;> simp only [execSloop, State.onUnit, hc]

theorem sloopCore_halted (h : ((s.bay b).stream e).isHalted = true) : sloopCore b e k len s = .error .wait := by
  rw [sloopCore, if_pos h]

/-- A body that is empty, passes the section or does not nest. -/
theorem sloopCore_misfit (h : ((s.bay b).stream e).isHalted = false)
    (hbad : len = 0 ∨ ((s.bay b).sect e).1 + ((s.bay b).sect e).2 < s.pc.toNat + 4 + 4 * len.toNat ∨
      ∃ x ∈ outerLoops s.lcs s.pc.toNat, x.2.stop < s.pc.toNat + 4 + 4 * len.toNat) : sloopCore b e k len s = .error (trapC 0x12) := by
  rw [sloopCore, if_neg (by simp [h])]
  refine if_pos ?_
  rcases hbad with rfl | hsect | hnest
  · exact .inl rfl
  · exact .inr (.inl hsect)
  · exact .inr (.inr (List.any_eq_true.mpr (hnest.imp fun x hx => ⟨hx.1, decide_eq_true hx.2⟩)))

/-- A body that fits: at most four loops nest. -/
theorem sloopCore_fits (h : ((s.bay b).stream e).isHalted = false) (hlen : len ≠ 0)
    (hsect : s.pc.toNat + 4 + 4 * len.toNat ≤ ((s.bay b).sect e).1 + ((s.bay b).sect e).2)
    (hnest : ∀ x ∈ outerLoops s.lcs s.pc.toNat, s.pc.toNat + 4 + 4 * len.toNat ≤ x.2.stop) :
    sloopCore b e k len s = if 4 ≤ (outerLoops s.lcs s.pc.toNat).length then .error (trapC 0x14)
      else .ok (loopEnter (outerLoops s.lcs s.pc.toNat).length ((s.readK k).toNat % 2 ^ 32) len.toNat 0 1 s) := by
  rw [sloopCore, if_neg (by simp [h])]
  refine if_neg ?_
  rintro (hz | hs | hn)
  · exact hlen (BitVec.eq_of_toNat_eq hz)
  · exact absurd hsect (Nat.not_le.mpr hs)
  · obtain ⟨x, hx, hstop⟩ := List.any_eq_true.mp hn
    exact absurd (hnest x hx) (Nat.not_le.mpr (of_decide_eq_true hstop))

end

/-- SLOOP in each step stream. -/
theorem sloop_cases {s : State} {b : Nat} {e : Eng} (k : BitVec 3) (len : BitVec 5) (he : e ∈ [Eng.M, .L, .W]) (hc : s.cur = .stream b e) :
    let y := s.bay b
    let pc := s.pc.toNat
    let outer := outerLoops s.lcs pc
    ((y.stream e).isHalted = true → exec (.sloop k len) s = .next s) ∧
    ((y.stream e).isHalted = false → len ≠ 0 → pc + 4 + 4 * len.toNat ≤ (y.sect e).1 + (y.sect e).2 →
      (∀ x ∈ outer, pc + 4 + 4 * len.toNat ≤ x.2.stop) → outer.length < 4 →
      EntersLoop (.sloop k len) s outer.length ((s.readK k).toNat % 2 ^ 32) len.toNat 0 1 (loopMoves e) (fun x _ => x)) ∧
    ((y.stream e).isHalted = false → len = 0 ∨ (y.sect e).1 + (y.sect e).2 < pc + 4 + 4 * len.toNat ∨
      (∃ x ∈ outer, x.2.stop < pc + 4 + 4 * len.toNat) → exec (.sloop k len) s = s.raise { cause := 0x12 }) ∧
    ((y.stream e).isHalted = false → len ≠ 0 → pc + 4 + 4 * len.toNat ≤ (y.sect e).1 + (y.sect e).2 →
      (∀ x ∈ outer, pc + 4 + 4 * len.toNat ≤ x.2.stop) → 4 ≤ outer.length → exec (.sloop k len) s = s.raise { cause := 0x14 }) := by
  have hne : e ≠ .S := by rintro rfl; simp at he
  refine ⟨fun h => ?_, fun h hlen hsect hnest hfew => ?_, fun h hbad => ?_, fun h hlen hsect hnest hmany => ?_⟩
  · rw [exec_sloop he hc, sloopCore_halted h, State.finish_wait_engine hne hc]
  · refine entersLoop_engine hne hc ?_ _
    rw [exec_sloop he hc, sloopCore_fits h hlen hsect hnest, if_neg (Nat.not_le.mpr hfew)]
    rfl
  · rw [exec_sloop he hc, sloopCore_misfit h hbad]
    rfl
  · rw [exec_sloop he hc, sloopCore_fits h hlen hsect hnest, if_pos hmany]
    rfl

/-- Settles O30: a stamped XORD by the clock of its stamp, TNOP by its issue, and SLOOP by the checks of its body. -/
theorem stepIssue : Obligations.StepIssue := by
  unfold Obligations.StepIssue
  refine ⟨fun s b e w p t he hc ht hissued => ⟨fun hdet => ?_, fun hdet hlen => ?_, fun hdet hlen hhalt => ?_⟩,
    fun s b e w p k len he hc => ⟨?_, sloop_cases k len he hc⟩⟩
  · rw [exec_xord he hc hissued, issue_fault (stampOf_notDet ht hdet)]
    rfl
  · rw [exec_xord he hc hissued, issue_fault (stampOf_beyond ht hdet hlen)]
    rfl
  · exact xord_stamped he hc ht hissued hdet hlen hhalt
  · rintro rfl hissued hmay hquiet
    exact tnop_issues hc hissued hmay hquiet

end Sys2Proof.Machine
end

section
/-! Control registers (R178, R179, R210, R402): how each reads after a write, and what a write changes. -/

namespace Sys2Proof.Machine

/-! ### Fields of a register -/

/-- The low `k` bits of a written value. -/
theorem low_zeroExtend {k : Nat} (hk : k ≤ 64) (v : Word) : (BitVec.ofNat k v.toNat).zeroExtend 64 = v &&& BitVec.ofNat 64 (2 ^ k - 1) := by
  apply BitVec.eq_of_toNat_eq
  have hle : 2 ^ k ≤ 2 ^ 64 := Nat.pow_le_pow_right (by decide) hk
  have hpos := Nat.two_pow_pos k
  have hlt : 2 ^ k - 1 < 2 ^ 64 := by omega
  have hmod : v.toNat % 2 ^ k < 2 ^ 64 := lt_of_lt_of_le (Nat.mod_lt _ hpos) hle
  rw [BitVec.toNat_setWidth, BitVec.toNat_ofNat, Nat.mod_eq_of_lt hmod, BitVec.toNat_and, BitVec.toNat_ofNat, Nat.mod_eq_of_lt hlt,
    Nat.and_two_pow_sub_one_eq_mod]

theorem bits_low (v : Word) (k : Nat) : BitVec.ofNat (k + 1) (bits v k 0) = BitVec.ofNat (k + 1) v.toNat := by
  apply BitVec.eq_of_toNat_eq
  simp [bits]

/-- A field above `k` bits: the bits of each part. -/
theorem getLsbD_word_at {a r k i : Nat} (ha : a < 2 ^ k) (hi : i < 64) : (word (a + at_ r k)).getLsbD i = if i < k then a.testBit i else r.testBit (i - k) := by
  rw [word, BitVec.getLsbD_ofNat, at_, Nat.add_comm, Nat.mul_comm, Nat.testBit_two_pow_mul_add _ ha]
  simp [hi]

theorem bit_eq_getLsbD (v : Word) (i : Nat) : bit v i = v.getLsbD i := by
  rw [bit, BitVec.getLsbD, Nat.testBit_eq_decide_div_mod_eq]
  rfl

theorem testBit_b2n (x : Bool) (i : Nat) : (b2n x).testBit i = (x && decide (i = 0)) := by
  cases x
  · simp [b2n]
  · rw [Bool.eq_iff_iff]
    simp [b2n, Nat.testBit_one_eq_true_iff_self_eq_zero]

theorem testBit_bits (v : Word) (hi lo i : Nat) : (bits v hi lo).testBit i = (decide (i < hi - lo + 1) && v.getLsbD (lo + i)) := by
  rw [bits, Nat.testBit_mod_two_pow, Nat.testBit_div_two_pow, Nat.add_comm i lo]
  rfl

/-- TVEC after a write. -/
theorem tvec_write (v : Word) : word (b2n (bit v 0) + at_ (BitVec.ofNat 14 (bits v 15 2)).toNat 2) = v &&& 0xFFFD := by
  have hmask : ∀ i, i < 64 → (0xFFFD : Word).getLsbD i = (decide (i < 16) && decide (i ≠ 1)) := by decide
  have hlow := b2n_le_one (bit v 0)
  apply BitVec.eq_of_getLsbD_eq
  intro i hi
  rw [getLsbD_word_at (by omega) hi, BitVec.getLsbD_and, hmask i hi, BitVec.toNat_ofNat, Nat.testBit_mod_two_pow, testBit_bits, testBit_b2n,
    bit_eq_getLsbD]
  by_cases h : i < 2
  · rw [if_pos h]
    obtain rfl | rfl : i = 0 ∨ i = 1 := by omega
    · simp
    · simp
  · have hback : 2 + (i - 2) = i := by omega
    have hfield : i - 2 < 14 ↔ i < 16 := by omega
    have hone : i ≠ 1 := by omega
    rw [if_neg h, hback]
    simp [hfield, hone, Bool.and_comm]

/-- TSTAT after a write: RESUME alone takes it. -/
theorem tstat_write (y : Bay) (v : Word) :
    ({ y with tResume := BitVec.ofNat 4 (bits v 27 24) } : Bay).tstat = (y.tstat &&& ~~~ 0x0F000000) ||| (v &&& 0x0F000000) := by
  have hmask : ∀ i, i < 64 → (0x0F000000 : Word).getLsbD i = (decide (24 ≤ i) && decide (i < 28)) := by decide
  have hlow : b2n y.tIn + at_ y.tEng.toNat 1 + at_ y.tPend.toNat 8 + at_ y.tHalt.toNat 16 < 2 ^ 24 := by
    have hin := b2n_le_one y.tIn
    simp only [at_]
    omega
  have hstat : ∀ z : Bay, z.tstat = word (b2n z.tIn + at_ z.tEng.toNat 1 + at_ z.tPend.toNat 8 + at_ z.tHalt.toNat 16 + at_ z.tResume.toNat 24) :=
    fun _ => rfl
  apply BitVec.eq_of_getLsbD_eq
  intro i hi
  rw [BitVec.getLsbD_or, BitVec.getLsbD_and, BitVec.getLsbD_and, BitVec.getLsbD_not, hmask i hi, hstat, hstat]
  refine (getLsbD_word_at (a := b2n y.tIn + at_ y.tEng.toNat 1 + at_ y.tPend.toNat 8 + at_ y.tHalt.toNat 16) hlow hi).trans ?_
  rw [getLsbD_word_at hlow hi]
  by_cases h : i < 24
  · have hout : ¬ 24 ≤ i := by omega
    simp [h, hout, hi]
  · have hback : 24 + (i - 24) = i := by omega
    have hfield : i - 24 < 4 ↔ i < 28 := by omega
    have hin : 24 ≤ i := by omega
    rw [if_neg h, if_neg h, BitVec.toNat_ofNat, Nat.testBit_mod_two_pow, testBit_bits, hback]
    by_cases hr : i < 28
    · simp [hfield, hin, hr, hi]
    · have hold : y.tResume.toNat.testBit (i - 24) = false :=
        Nat.testBit_lt_two_pow (lt_of_lt_of_le y.tResume.isLt (Nat.pow_le_pow_right (by decide) (by omega)))
      simp [hfield, hr, hold]

/-! ### What a write changes -/

/-- The dirty bit of a control register (R204). -/
def csrMark (n : Nat) : Nat := if n ≤ 0x004 then markFlags else if n ≤ 0x014 then markTrap else if n = 0x040 then markLen else markFmt

/-- The bay after a write of control register `n`: each register has its own field, and FRAMELEN has none. -/
def Bay.putCsr (y : Bay) (n : Nat) (v : Word) : Bay :=
  { y with
    flags := if n = 0x000 then BitVec.ofNat 8 (bits v 7 0) else y.flags
    v := { y.v with flags := if n = 0x001 then BitVec.ofNat 8 (bits v 7 0) else y.v.flags }
    m := { y.m with flags := if n = 0x002 then BitVec.ofNat 8 (bits v 7 0) else y.m.flags }
    l := { y.l with flags := if n = 0x003 then BitVec.ofNat 8 (bits v 7 0) else y.l.flags }
    w := { y.w with flags := if n = 0x004 then BitVec.ofNat 8 (bits v 7 0) else y.w.flags }
    cause := if n = 0x010 then BitVec.ofNat 8 (bits v 7 0) else y.cause
    epc := if n = 0x011 then BitVec.ofNat 16 (bits v 15 0) else y.epc
    tvecEn := if n = 0x012 then bit v 0 else y.tvecEn
    tvecOff := if n = 0x012 then BitVec.ofNat 14 (bits v 15 2) else y.tvecOff
    tResume := if n = 0x013 then BitVec.ofNat 4 (bits v 27 24) else y.tResume
    tscratch := if n = 0x014 then v else y.tscratch
    bankfmt := if 0x100 ≤ n then Tab.set 0x0A y.bankfmt (n - 0x100) (BitVec.ofNat 9 (bits v 8 0)) else y.bankfmt
    dirty := y.dirty ||| BitVec.ofNat 239 (2 ^ csrMark n) }

/-- The frame length that a write of control register `n` leaves for the next frame origin (R402). -/
def framePendAfter (n : Nat) (v : Word) (old : Option (BitVec 16)) : Option (BitVec 16) :=
  if n = 0x040 ∧ frameLenGood (bits v 15 0) then some (BitVec.ofNat 16 (bits v 15 0)) else old

theorem csrWritable_cases {det : Bool} {n : Nat} (h : csrWritable det n = true) :
    n ≤ 0x004 ∨ 0x010 ≤ n ∧ n ≤ 0x014 ∨ n = 0x040 ∨ 0x100 ≤ n ∧ n < 0x160 := by
  simp only [csrWritable, Bool.or_eq_true, Bool.and_eq_true, decide_eq_true_eq, beq_iff_eq] at h
  omega

/-- A write of control register `n`: the bay, and for FRAMELEN the partition. -/
theorem setCsr_spec (s : State) {b n : Nat} {det : Bool} (h : csrWritable det n = true) (v : Word) :
    let t := s.setCsr b n v
    let p := (s.bay b).partNo
    t = { s with bays := t.bays, parts := t.parts } ∧ t.bays = (s.modBay b fun y => y.putCsr n v).bays ∧ (∀ q, q ≠ p → t.part q = s.part q) ∧
      t.part p = { s.part p with framePend := framePendAfter n v (s.part p).framePend } := by
  unfold State.setCsr
  split
  case h_11 =>
    have hp : ((s.modBay b fun y => y.mark markLen).bay b).partNo = (s.bay b).partNo := by rw [State.modBay_bay_same]; rfl
    unfold State.writeFrameLen framePendAfter
    dsimp only
    rw [hp]
    split
    · rename_i hgood
      refine ⟨rfl, rfl, fun q hq => Tab.get_put_ne _ _ _ hq, ?_⟩
      rw [if_pos ⟨rfl, hgood⟩]
      exact Tab.get_put_same _ _ _ _
    · rename_i hbad
      refine ⟨rfl, rfl, fun _ _ => rfl, ?_⟩
      rw [if_neg fun h => hbad h.2]
      rfl
  case h_12 h0 h1 h2 h3 h4 h10 h11 h12 h13 h14 h40 =>
    simp only [imp_false] at h0 h1 h2 h3 h4 h10 h11 h12 h13 h14 h40
    have hbank : 0x100 ≤ n := by
      have := csrWritable_cases h
      omega
    refine ⟨rfl, ?_, fun _ _ => rfl, ?_⟩
    · simp only [Bay.putCsr, csrMark, if_neg h0, if_neg h1, if_neg h2, if_neg h3, if_neg h4, if_neg h10, if_neg h11, if_neg h12, if_neg h13,
        if_neg h14, if_neg h40, if_pos hbank, if_neg (show ¬ n ≤ 0x004 by omega), if_neg (show ¬ n ≤ 0x014 by omega)]
      rfl
    · rw [framePendAfter, if_neg fun h => h40 h.1]
      rfl
  all_goals exact ⟨rfl, rfl, fun _ _ => rfl, rfl⟩

theorem setCsr_bay {s : State} {b n : Nat} {det : Bool} (h : csrWritable det n = true) (v : Word) (c : Nat) :
    (s.setCsr b n v).bay c = (s.modBay b fun y => y.putCsr n v).bay c := by
  obtain ⟨_, hbays, _⟩ := setCsr_spec s (b := b) h v
  rw [State.bay, hbays, State.bay]

theorem setCsr_bay_same {s : State} {b n : Nat} {det : Bool} (h : csrWritable det n = true) (v : Word) :
    (s.setCsr b n v).bay b = (s.bay b).putCsr n v := by
  rw [setCsr_bay h, State.modBay_bay_same]

/-- No write changes the length of the frame under way. -/
theorem setCsr_framelen {s : State} {b n : Nat} {det : Bool} (h : csrWritable det n = true) (v : Word) (q : Nat) :
    ((s.setCsr b n v).part q).framelen = (s.part q).framelen := by
  obtain ⟨_, _, hothers, hown⟩ := setCsr_spec s (b := b) h v
  by_cases hq : q = (s.bay b).partNo
  · rw [hq, hown]
  · rw [hothers q hq]

/-! ### What a register reads after a write -/

/-- The bank format registers, and the numbers that R178 does not list. -/
theorem csr_bank (s : State) (b : Nat) {n : Nat} (h : 0x100 ≤ n) :
    s.csr b n = if n < 0x160 then some ((bankFmtOf (s.bay b) (n - 0x100)).zeroExtend 64) else none := by
  unfold State.csr
  split
  case h_20 => simp only [h, true_and]
  all_goals omega

theorem csrAfter_byte {n : Nat} (h : n ≤ 0x004 ∨ n = 0x010) (old v : Word) : csrAfter n old v = (BitVec.ofNat 8 (bits v 7 0)).zeroExtend 64 := by
  rw [csrAfter, if_pos h, bits_low, low_zeroExtend (by decide)]
  rfl

theorem csrAfter_bank {n : Nat} (h : 0x100 ≤ n) (old v : Word) : csrAfter n old v = (BitVec.ofNat 9 (bits v 8 0)).zeroExtend 64 := by
  rw [csrAfter, if_neg (by omega), if_neg (by omega), if_neg (by omega), if_neg (by omega), if_neg (by omega), if_neg (by omega), bits_low,
    low_zeroExtend (by decide)]
  rfl

theorem csrAfter_epc (old v : Word) : csrAfter 0x011 old v = (BitVec.ofNat 16 (bits v 15 0)).zeroExtend 64 := by
  rw [bits_low, low_zeroExtend (by decide)]
  rfl

/-- A written register reads as R179 says. -/
theorem csr_written {s t : State} {b n : Nat} {v old : Word} (h : csrWritable (s.bay b).det n = true) (hbay : t.bay b = (s.bay b).putCsr n v)
    (hlen : (t.part (s.bay b).partNo).framelen = (s.part (s.bay b).partNo).framelen) (hold : s.csr b n = some old) :
    t.csr b n = some (csrAfter n old v) := by
  obtain hbyte | rfl | rfl | rfl | rfl | rfl | ⟨hbank, hlt⟩ : (n ≤ 0x004 ∨ n = 0x010) ∨ n = 0x011 ∨ n = 0x012 ∨ n = 0x013 ∨ n = 0x014 ∨ n = 0x040 ∨
      0x100 ≤ n ∧ n < 0x160 := by
    have := csrWritable_cases h
    omega
  · rw [csrAfter_byte hbyte]
    obtain rfl | rfl | rfl | rfl | rfl | rfl : n = 0x000 ∨ n = 0x001 ∨ n = 0x002 ∨ n = 0x003 ∨ n = 0x004 ∨ n = 0x010 := by omega
    all_goals simp only [State.csr, hbay, Bay.putCsr, if_true]
  · rw [csrAfter_epc]
    simp only [State.csr, hbay, Bay.putCsr, if_true]
  · have hread : t.csr b 0x012 = some (word (b2n (bit v 0) + at_ (BitVec.ofNat 14 (bits v 15 2)).toNat 2)) := by
      simp only [State.csr, hbay, Bay.tvec, Bay.putCsr, if_true]
    rw [hread, tvec_write]
    rfl
  · have hread : t.csr b 0x013 = some ({ s.bay b with tResume := BitVec.ofNat 4 (bits v 27 24) } : Bay).tstat := by
      simp only [State.csr, hbay, Bay.tstat, Bay.tPend, Bay.putCsr, if_true]
    obtain rfl := Option.some.inj hold
    rw [hread, tstat_write]
    rfl
  · simp only [State.csr, hbay, Bay.putCsr, if_true]
    rfl
  · have hp : (t.bay b).partNo = (s.bay b).partNo := by rw [hbay]; rfl
    obtain rfl := Option.some.inj hold
    simp only [State.csr, hp, hlen]
    rfl
  · rw [csr_bank _ _ hbank, if_pos hlt, hbay, csrAfter_bank hbank, bankFmtOf, Bay.putCsr, if_pos hbank, Tab.get_set_same]

theorem Bay.bankFmtOf_putCsr {y : Bay} {n m : Nat} {v : Word} (hm : m ≠ n) (hbank : 0x100 ≤ m) :
    bankFmtOf (y.putCsr n v) (m - 0x100) = bankFmtOf y (m - 0x100) := by
  have hfmt : (y.putCsr n v).bankfmt =
    if 0x100 ≤ n then Tab.set 0x0A y.bankfmt (n - 0x100) (BitVec.ofNat 9 (bits v 8 0)) else y.bankfmt := rfl
  rw [bankFmtOf, hfmt, bankFmtOf]
  split
  · rw [Tab.get_set, if_neg (by omega)]
  · rfl

/-- Every other register keeps its value. -/
theorem csr_kept {s t : State} {b n m : Nat} {v : Word} (hm : m ≠ n) (hbay : t.bay b = (s.bay b).putCsr n v)
    (hlen : (t.part (s.bay b).partNo).framelen = (s.part (s.bay b).partNo).framelen) : t.csr b m = s.csr b m := by
  have hp : (t.bay b).partNo = (s.bay b).partNo := by rw [hbay]; rfl
  unfold State.csr
  dsimp only
  rw [hp, hlen]
  split
  case h_9 => simp only [hbay, Bay.tvec, Bay.putCsr, if_neg hm.symm]
  case h_10 => simp only [hbay, Bay.tstat, Bay.tPend, Bay.putCsr, if_neg hm.symm]
  case h_20 =>
    split
    · rename_i hbank
      rw [hbay, Bay.bankFmtOf_putCsr hm hbank.1]
    · rfl
  all_goals simp only [hbay, Bay.putCsr, if_neg hm.symm]

/-- A word that writes sd and retires keeps the control registers. -/
theorem csr_seqWrites {s t : State} {b : Nat} (h : OnlyBay s t b seqWrites) (m : Nat) : t.csr b m = s.csr b m := by
  obtain ⟨hrest, _, hbay⟩ := h
  have hpart : ∀ q, t.part q = s.part q := fun q => by rw [hrest]; rfl
  unfold State.csr
  dsimp only
  simp only [hpart]
  rw [hbay]
  rfl

/-- A word of the sequencer that writes sd and retires. -/
theorem writeS_retire_onlyBay {s : State} {b : Nat} (hc : s.cur = .stream b .S) (d : BitVec 5) (v : Word) :
    OnlyBay s (s.writeS d v).retire b seqWrites := by
  rw [State.retire_seq (s := s.writeS d v) (b := b) (by rw [State.writeS_cur, hc])]
  unfold State.writeS
  split
  · exact onlyBay_modBay rfl
  · rw [hc, State.modBay_modBay]
    exact onlyBay_modBay rfl

/-! ### The words (R179, R210) -/

/-- What a write of control register `n` and the old value's move to sd leave of the machine. -/
structure CsrWrote (s t : State) (b : Nat) (d : BitVec 5) (n : Nat) (old v : Word) : Prop where
  read : t.csr b n = some (csrAfter n old v)
  kept : ∀ m, m ≠ n → t.csr b m = s.csr b m
  result : t.readS d = if d = 0 then 0 else old
  regs : ∀ r, r ≠ d → t.readS r = s.readS r
  pc : t.pc = s.pc + 4
  mem : SameMem s t
  rest : t = { s with bays := t.bays, parts := t.parts }
  others : ∀ c, c ≠ b → t.bay c = s.bay c
  bay : t.bay b = csrWrites (s.bay b) (t.bay b)
  parts : ∀ q, q ≠ (s.bay b).partNo → t.part q = s.part q
  part : t.part (s.bay b).partNo = { s.part (s.bay b).partNo with framePend := framePendAfter n v (s.part (s.bay b).partNo).framePend }

section
variable {s : State} {b : Nat}

theorem onScalar_seq (hc : s.cur = .stream b .S) : s.onScalar := by
  rw [State.onScalar, hc]

theorem csrWrote_setCsr {n : Nat} {old : Word} (hc : s.cur = .stream b .S) (h : csrWritable (s.bay b).det n = true) (hold : s.csr b n = some old)
    (d : BitVec 5) (v : Word) : CsrWrote s ((s.setCsr b n v).writeS d old).retire b d n old v := by
  obtain ⟨hrest, _, hparts, hpart⟩ := setCsr_spec s (b := b) h v
  have hbay := setCsr_bay_same (s := s) (b := b) h v
  have hlen := setCsr_framelen (s := s) (b := b) h v (s.bay b).partNo
  have hcur : (s.setCsr b n v).cur = .stream b .S := by rw [hrest]; exact hc
  have hwrote := wrote_retire (onScalar_seq hcur) d old
  have honly := writeS_retire_onlyBay hcur d old
  generalize ((s.setCsr b n v).writeS d old).retire = t at hwrote honly
  have hcsr := csr_seqWrites honly
  obtain ⟨hstate, hothers, hown⟩ := honly
  have htparts : ∀ q, t.part q = (s.setCsr b n v).part q := fun q => by rw [hstate]; rfl
  refine ⟨?_, fun m hm => ?_, hwrote.result, fun r hr => ?_, ?_, fun x => ?_, ?_, fun c hne => ?_, ?_, fun q hq => ?_, ?_⟩
  · rw [hcsr, csr_written h hbay hlen hold]
  · rw [hcsr, csr_kept hm hbay hlen]
  · rw [hwrote.others r hr, State.readS, hcur, State.readS, hc]
    dsimp only
    rw [hbay]
    rfl
  · rw [hwrote.pc, State.pc_seq hcur, State.pc_seq hc, hbay]
    rfl
  · rw [hwrote.mem x, hrest]
  · rw [hstate, hrest]
  · rw [hothers c hne, setCsr_bay h, State.modBay_bay_ne _ _ _ hne]
  · rw [hown, hbay]
    rfl
  · rw [htparts, hparts q hq]
  · rw [htparts, hpart]

variable {d a : BitVec 5} {n : BitVec 12} {f : Word → Word → Word}

theorem csrRead_some (hc : s.cur = .stream b .S) {v : Word} (h : s.csr b n.toNat = some v) : csrRead d n s = .ok (s.writeS d v).retire := by
  simp only [csrRead, hc, h]

theorem csrRead_none (hc : s.cur = .stream b .S) (h : s.csr b n.toNat = none) : csrRead d n s = .error (trapC 0x02) := by
  simp only [csrRead, hc, h]

theorem csrUpdate_none (h : s.csr b n.toNat = none) : csrUpdate b d a n f s = .error (trapC 0x02) := by
  simp only [csrUpdate, h]

theorem csrUpdate_readOnly {old : Word} (h : s.csr b n.toNat = some old) (hw : csrWritable (s.bay b).det n.toNat = false) :
    csrUpdate b d a n f s = .error (trapC 0x02) := by
  simp only [csrUpdate, h, hw, Bool.not_false, if_true]

theorem csrUpdate_locked {old : Word} (h : s.csr b n.toNat = some old) (hw : csrWritable (s.bay b).det n.toNat = true) (hn : 256 ≤ n.toNat)
    (hlock : s.lockedFor b (n.toNat - 256) .S = true) : csrUpdate b d a n f s = .error .hold := by
  simp only [csrUpdate, h, hw, Bool.not_true, Bool.false_eq_true, if_false, ge_iff_le, hn, decide_true, hlock, Bool.and_true, if_true]

theorem csrUpdate_writes {old : Word} (h : s.csr b n.toNat = some old) (hw : csrWritable (s.bay b).det n.toNat = true)
    (hfree : n.toNat < 256 ∨ s.lockedFor b (n.toNat - 256) .S = false) :
    csrUpdate b d a n f s = .ok ((s.setCsr b n.toNat (f old (s.readS a))).writeS d old).retire := by
  have hlock : (decide (n.toNat ≥ 256) && s.lockedFor b (n.toNat - 256) .S) = false := by
    rcases hfree with hlt | hlock
    · rw [decide_eq_false (Nat.not_le.mpr hlt), Bool.false_and]
    · rw [hlock, Bool.and_false]
  simp only [csrUpdate, h, hw, hlock, Bool.not_true, Bool.false_eq_true, if_false]

/-- The three words that write a control register are one update, each with its own new value. -/
theorem exec_csrUpdate (hc : s.cur = .stream b .S) {i : Instr} {old v : Word}
    (hi : (i, v) ∈ [(Instr.csrw d a n, s.readS a), (.csrs d a n, old ||| s.readS a), (.csrc d a n, old &&& ~~~ s.readS a)]) :
    ∃ f : Word → Word → Word, exec i s = s.finish (csrUpdate b d a n f s) ∧ f old (s.readS a) = v := by
  simp only [List.mem_cons, List.not_mem_nil, or_false, Prod.mk.injEq] at hi
  obtain ⟨rfl, rfl⟩ | ⟨rfl, rfl⟩ | ⟨rfl, rfl⟩ := hi
  · exact ⟨fun _ x => x, State.onSeq_eq hc _, rfl⟩
  · exact ⟨fun old x => old ||| x, State.onSeq_eq hc _, rfl⟩
  · exact ⟨fun old x => old &&& ~~~ x, State.onSeq_eq hc _, rfl⟩

theorem exec_csrUpdate_of_mem (hc : s.cur = .stream b .S) {i : Instr} (hi : i ∈ [Instr.csrw d a n, .csrs d a n, .csrc d a n]) :
    ∃ f : Word → Word → Word, exec i s = s.finish (csrUpdate b d a n f s) := by
  simp only [List.mem_cons, List.not_mem_nil, or_false] at hi
  obtain rfl | rfl | rfl := hi
  · exact ⟨_, State.onSeq_eq hc _⟩
  · exact ⟨_, State.onSeq_eq hc _⟩
  · exact ⟨_, State.onSeq_eq hc _⟩

/-- A bank format register that reads is written. -/
theorem csrWritable_of_bank {k : Nat} (hk : 256 ≤ k) (h : s.csr b k ≠ none) (det : Bool) : csrWritable det k = true := by
  rw [csr_bank s b hk] at h
  split at h
  · rename_i hlt
    simp [csrWritable, hk, hlt]
  · exact absurd rfl h

theorem exec_csrr (h : s.onScalar) : exec (.csrr d n) s = s.finish (csrRead d n s) := by
  obtain ⟨b, hc⟩ | ⟨c, p, hc⟩ := State.onScalar_cases h
  · change execCsrr d n s = _
    rw [execCsrr, State.scalar, hc]
  · change execCsrr d n s = _
    rw [execCsrr, State.scalar, hc]

theorem csrr_writes (h : s.onScalar) {v : Word} (hv : csrRead d n s = .ok (s.writeS d v).retire) : Writes (.csrr d n) s d v :=
  ⟨_, by rw [exec_csrr h, hv]; rfl, wrote_retire h d v⟩

/-- CSRR on a jointer: its own FLAGS and VSHAPE. -/
theorem csrRead_jointer {c p : Nat} (hc : s.cur = .jointer c p) :
    (n = 0x000 → csrRead d n s = .ok (s.writeS d ((s.jtr c p).flags.zeroExtend 64)).retire) ∧
    (n = 0x008 → csrRead d n s = .ok (s.writeS d ((s.jtr c p).vshape.zeroExtend 64)).retire) ∧
    (n ≠ 0x000 → n ≠ 0x008 → csrRead d n s = .error (trapC 0x02)) := by
  refine ⟨?_, ?_, fun h0 h8 => ?_⟩
  · rintro rfl
    simp only [csrRead, hc, if_true]
  · rintro rfl
    simp only [csrRead, hc, if_true, show ¬ (0x008 : BitVec 12) = 0x000 by decide, if_false]
  · simp only [csrRead, hc, if_neg h0, if_neg h8]

theorem framePendAfter_bitVec (n : BitVec 12) (v : Word) (old : Option (BitVec 16)) : framePendAfter n.toNat v old =
    if n = 0x040 ∧ frameLenGood (bits v 15 0) then some (BitVec.ofNat 16 (bits v 15 0)) else old := by
  have hn : n.toNat = 0x040 ↔ n = 0x040 := BitVec.toNat_inj (x := n) (y := 0x040)
  rw [framePendAfter]
  exact if_congr (and_congr_left fun _ => hn) rfl rfl

/-- A word of op7 0x51 to 0x53 is the sequencer's alone (R60). -/
theorem decodeWord_csrUpdate_jointer {last : Bool} {w : BitVec 32} (hop : (fld w 25 7).toNat = 81 ∨ (fld w 25 7).toNat = 82 ∨ (fld w 25 7).toNat = 83) :
    decodeWord (.jointerScalar last) w = .error .notAvailable := by
  have hw : w ≠ 0 := by
    rintro rfl
    simp [fld] at hop
  have hrow : ∃ r, rowAt (.jointerScalar last) w = some r ∧ r.avail = .seq := by
    change ∃ r, scalarRow w = some r ∧ r.avail = .seq
    unfold scalarRow
    rcases hop with h | h | h
    · rw [h]
      exact ⟨_, rfl, rfl⟩
    · rw [h]
      exact ⟨_, rfl, rfl⟩
    · rw [h]
      exact ⟨_, rfl, rfl⟩
  obtain ⟨r, hr, havail⟩ := hrow
  simp only [decodeWord, if_neg hw, hr, checkRow, havail, Avail.holds, Bool.not_false, if_true]

/-- The encoded words of the three updates stand at op7 0x51 to 0x53. -/
theorem opcode_csrUpdate {i : Instr} (hi : i ∈ [Instr.csrw d a n, .csrs d a n, .csrc d a n]) {w : BitVec 32} (hw : encode i = some w) :
    (fld w 25 7).toNat = 81 ∨ (fld w 25 7).toNat = 82 ∨ (fld w 25 7).toNat = 83 := by
  have hd := d.isLt
  have ha := a.isLt
  have hn := n.isLt
  simp only [List.mem_cons, List.not_mem_nil, or_false] at hi
  obtain rfl | rfl | rfl := hi
  · exact .inl (Laws.fld_num 81 (Laws.word_of hw (by omega)) (by omega))
  · exact .inr (.inl (Laws.fld_num 82 (Laws.word_of hw (by omega)) (by omega)))
  · exact .inr (.inr (Laws.fld_num 83 (Laws.word_of hw (by omega)) (by omega)))

end

/-- Settles O22: a read by the register's value, a write by the register's own field of the bay or the partition, the waits and faults by the checks
before it, and the jointer's words by their decoder row. -/
theorem controlRegisters : Obligations.ControlRegisters := by
  unfold Obligations.ControlRegisters
  refine ⟨fun s b d a n hc => ⟨fun v hv => ?_, fun hnone => ?_, fun hn hsome hlock i hi => ?_, fun old hold hw hfree i v hi => ?_,
    fun hbad i hi => ?_⟩, fun s c p d n hc => ?_, fun last d a n i hi w hw => ⟨decodeWord_csrUpdate_jointer (opcode_csrUpdate hi hw), rfl⟩⟩
  · exact csrr_writes (onScalar_seq hc) (csrRead_some hc hv)
  · rw [exec_csrr (onScalar_seq hc), csrRead_none hc hnone]
    rfl
  · obtain ⟨f, hf⟩ := exec_csrUpdate_of_mem hc hi
    obtain ⟨old, hold⟩ := Option.ne_none_iff_exists'.mp hsome
    exact setHold_waits hc true (by rw [hf, csrUpdate_locked hold (csrWritable_of_bank hn hsome _) hn hlock]; rfl)
  · obtain ⟨f, hf, rfl⟩ := exec_csrUpdate hc hi
    obtain ⟨hread, hkept, hresult, hregs, hpc, hmem, hrest, hothers, hbay, hparts, hpart⟩ := csrWrote_setCsr hc hw hold d (f old (s.readS a))
    rw [framePendAfter_bitVec] at hpart
    exact ⟨_, by rw [hf, csrUpdate_writes hold hw hfree]; rfl, hread, hkept, hresult, hregs, hpc, hmem, hrest, hothers, hbay, hparts, hpart⟩
  · obtain ⟨f, hf⟩ := exec_csrUpdate_of_mem hc hi
    have hfault : csrUpdate b d a n f s = .error (trapC 0x02) := by
      cases hcsr : s.csr b n.toNat with
      | none => exact csrUpdate_none hcsr
      | some old => exact csrUpdate_readOnly hcsr (by simpa [hcsr] using hbad)
    rw [hf, hfault]
    rfl
  · have h : s.onScalar := by rw [State.onScalar, hc]; trivial
    obtain ⟨hflags, hshape, hother⟩ := csrRead_jointer (d := d) (n := n) hc
    refine ⟨fun hn => csrr_writes h (hflags hn), fun hn => csrr_writes h (hshape hn), fun h0 h8 => ?_⟩
    rw [exec_csrr h, hother h0 h8]
    rfl

end Sys2Proof.Machine
end

section
/-! Lane words of logic, shifts, selects and moves, and of dot products, special functions, permutes and random lanes (R142, R143, R146, R150, R156,
R160, R163, R166). -/

namespace Sys2Proof.Machine

/-! ### Restating what a lane word writes -/

/-- Results count modulo the lane's width, and only below the number of lanes. -/
theorem WritesLanes.congr {i : Instr} {s : State} {g : Guard} {d : BitVec 6} {f f' : Nat → Nat × BitVec 8} (h : WritesLanes i s g d f)
    (hlane : ∀ n, n < lanesOf (fmtWidth s.vty) → (f n).1 % 2 ^ fmtWidth s.vty = (f' n).1 % 2 ^ fmtWidth s.vty ∧ (f n).2 = (f' n).2) :
    WritesLanes i s g d f' := by
  obtain ⟨t, ht, hresult, hrest⟩ := h
  have hflags := laneFlags_congr (m := s.active g) fun n hn => (hlane n hn).2
  exact ⟨t, ht, fun n hn => by rw [hresult n hn, (hlane n hn).1], hflags ▸ hrest⟩

/-- Of the types that are no block format, lg6 alone masks (R76). -/
theorem lgMask_of_tAny {f : Nat} (h : tAny f = true) (x : Nat) : lgMask f x = if isLg f then x % 64 else x := by
  have hne : f ≠ 0x1B := by
    rintro rfl
    exact absurd h (by decide)
  simp [lgMask, hne]

/-! ### Shifts (R142) -/

theorem sgn_bounds (w x : Nat) : -(2 ^ w : Nat) ≤ sgn w x ∧ sgn w x < (2 ^ w : Nat) := by
  have h := Nat.mod_lt x (Nat.two_pow_pos w)
  unfold sgn
  split <;> omega

/-- An arithmetic shift by the width leaves the sign alone. -/
theorem sgn_div_two_pow_width (w x : Nat) : sgn w x / 2 ^ w = if sgn w x < 0 then -1 else 0 := by
  obtain ⟨hlo, hhi⟩ := sgn_bounds w x
  push_cast at hlo hhi
  split
  · rename_i hneg
    rw [Int.ediv_eq_iff_of_pos (by positivity)]
    omega
  · exact Int.ediv_eq_zero_of_lt (by omega) hhi

/-- The amount by which operand b shifts a lane: an immediate is read unsigned (R134). -/
def State.shiftAmount (s : State) (b : Form) (n : Nat) : Nat :=
  match b with
  | .imm i => i.toNat
  | _ => s.laneB b n

theorem shiftWord_writes {s : State} (h : s.onVector) {i : Instr} {k : Shift} (g : Guard) (d a : BitVec 6) (b : Form)
    (hi : exec i s = s.vector (shiftWord k g d a b s)) (hty : tInt s.vty = true) :
    WritesLanes i s g d fun n => (shiftLane k (fmtWidth s.vty) (s.lane a.toNat (fmtWidth s.vty) n) (s.shiftAmount b n), 0) := by
  cases b <;> exact writesLanes_of h g d a _ hi hty

theorem shiftLane_left (w x c : Nat) : shiftLane .left w x c % 2 ^ w = (if c < w then x * 2 ^ c else 0) % 2 ^ w := by
  simp only [shiftLane]
  split <;> simp

theorem shiftLane_arith (w x c : Nat) :
    shiftLane .arith w x c = wrap w (if c < w then sgn w x / 2 ^ c else if sgn w x < 0 then -1 else 0) := by
  rw [← sgn_div_two_pow_width]
  simp only [shiftLane]
  split <;> rfl

/-! ### Logic, selects and moves (R142, R143, R150) -/

theorem bitWord_writes {s : State} (h : s.onVector) {i : Instr} (op : Nat → Nat → Nat) (g : Guard) (d a : BitVec 6) (b : Form)
    (hi : exec i s = s.vector (bitWord op g d a b s)) (hty : tAny s.vty = true) :
    WritesLanes i s g d fun n => (lgMask s.vty (op (s.lane a.toNat (fmtWidth s.vty) n) (s.laneB b n)), 0) :=
  writesLanes_of (f := fun s' _ _ y z => (lgMask s'.vty (op y z), 0)) h g d a b hi hty

/-- Settles O11: each word is a lane word, and its lane function is the stated one modulo the width. -/
theorem vectorBits : Obligations.VectorBits := by
  unfold Obligations.VectorBits
  intro s g d a b hs hty w x z c lg
  have hlg : lg = lgMask s.vty := funext fun y => (lgMask_of_tAny hty y).symm
  have hc : c = s.shiftAmount b := funext fun n => by cases b <;> rfl
  clear_value lg c
  subst hlg hc
  refine ⟨?_, ?_, ?_, fun hint => ⟨?_, ?_, ?_⟩, fun neg p => ?_, ?_⟩
  · exact bitWord_writes hs Nat.land g d a b (by cases b <;> rfl) hty
  · exact bitWord_writes hs Nat.lor g d a b (by cases b <;> rfl) hty
  · exact bitWord_writes hs Nat.xor g d a b (by cases b <;> rfl) hty
  · exact (shiftWord_writes (k := .left) hs g d a b (by cases b <;> rfl) hint).congr fun n _ => ⟨shiftLane_left _ _ _, rfl⟩
  · exact shiftWord_writes (k := .right) hs g d a b (by cases b <;> rfl) hint
  · refine (shiftWord_writes (k := .arith) hs g d a b (by cases b <;> rfl) hint).congr fun n _ => ⟨?_, rfl⟩
    rw [shiftLane_arith]
  · have hi : exec (byForm (.vsel neg p d a) (.vselK neg p d a) (.vselI neg p d a) b) s = s.vector (selWord neg p d a b s) := by cases b <;> rfl
    have hw := writesLanes_of (ok := tAny) (f := fun s' i _ y z => (lgMask s'.vty (if (s.readP p.toNat).testBit i == (neg == 0) then y else z), 0))
      hs ⟨false, false, 0⟩ d a b hi hty
    simpa only [beq_iff_eq] using hw
  · have hi : exec (byForm (.vmov g d) (.vmovK g d) (.vmovI g d) b) s = s.vector (movWord g d b s) := by cases b <;> rfl
    exact writesLanes_of hs g d d b hi hty

/-! ### Dot products, lg6 products, special functions and random lanes (R146, R156, R160, R166) -/

section
variable {s : State} {i : Instr} {g : Guard} {d a : BitVec 6} {b : Form}

theorem dotWord_writes (h : s.onVector) (hi : exec i s = s.vector (dotWord g d a b s)) (hty : tDot s.vty = true) :
    WritesLanes i s g d fun n => s.intResult s.vty (s.int d n + dot4 s.vty (s.lane a.toNat (fmtWidth s.vty) n) (s.laneB b n)) :=
  writesLanes_of h g d a b hi hty

theorem lgmulWord_writes {r : BitVec 6} (h : s.onVector) (hi : exec i s = s.vector (lgmulWord g d a r s)) (hty : isLg s.vty = true) :
    WritesLanes i s g d fun n => lgMul (s.lane a.toNat (fmtWidth s.vty) n) (s.lane r.toNat (fmtWidth s.vty) n) :=
  writesLanes_of h g d a (.reg r) hi hty

theorem specWord_writes {fn : SpecFn} (h : s.onVector) (hi : exec i s = s.vector (specWord fn g d a s)) (hty : isFlt s.vty = true) :
    WritesLanes i s g d fun n => special fn s.vty s.vrm (s.srOf n) (s.lane a.toNat (fmtWidth s.vty) n) :=
  writesLanes_of h g d a (.reg a) hi hty

theorem randWord_writes (h : s.onVector) (hi : exec i s = s.vector (randWord g d s)) (hty : tRand s.vty = true) :
    WritesLanes i s g d fun n => (randLane s.vty (s.laneSeed 2 n), 0) :=
  writesLanes_of h g d d (.reg d) hi hty

/-! ### Permutes (R163) -/

/-- Lane `n` of register `r` as a permute moves it: 0 past the last lane, and of an lg6 element bits [7:6] are zero (R76). -/
def State.movedLane (s : State) (r : BitVec 6) (n : Nat) : Nat :=
  lgMask s.vty (laneAt (s.readV r.toNat) (fmtWidth s.vty) n)

/-- The lane that VPERM takes is named by the lane of b. -/
theorem permWord_writes_reg {r : BitVec 6} {p : Nat → Nat → Nat} (h : s.onVector)
    (hi : exec i s = s.vector (permWord g d a (.reg r) (fun _ v w _ z => laneAt v w (p w z)) s)) (hty : tAny s.vty = true) :
    WritesLanes i s g d fun n => (s.movedLane a (p (fmtWidth s.vty) (s.lane r.toNat (fmtWidth s.vty) n)), 0) :=
  writesLanes_of (f := fun s' _ _ _ z => (lgMask s'.vty (laneAt (s.readV a.toNat) (fmtWidth s'.vty) (p (fmtWidth s'.vty) z)), 0)) h g d a (.reg r)
    hi hty

/-- Without a register operand b the lane taken depends on the lane written alone. -/
theorem permWord_writes {f : State → Nat → Nat → Nat → Nat} (h : s.onVector) (hb : ∀ r, b ≠ .reg r)
    (hi : exec i s = s.vector (permWord g d a b (fun s v w n _ => f s v w n) s)) (hty : tAny s.vty = true) :
    WritesLanes i s g d fun n => (lgMask s.vty (f s (s.readV a.toNat) (fmtWidth s.vty) n), 0) := by
  cases b with
  | reg r => exact absurd rfl (hb r)
  | k j =>
    exact writesLanes_of (f := fun s' n _ _ _ => (lgMask s'.vty (f s' (s.readV a.toNat) (fmtWidth s'.vty) n), 0)) h g d a (.reg a) hi hty
  | imm x =>
    exact writesLanes_of (f := fun s' n _ _ _ => (lgMask s'.vty (f s' (s.readV a.toNat) (fmtWidth s'.vty) n), 0)) h g d a (.reg a) hi hty

end

theorem lgMask_zero (f : Nat) : lgMask f 0 = 0 := by
  simp [lgMask]

/-- Settles O12: each word is a lane word with the stated lane function; a permute moves a lane of a, or 0 from before the first or past the last. -/
theorem vectorLanes : Obligations.VectorLanes := by
  unfold Obligations.VectorLanes
  intro s g d a r im k hs w x lg at_ c
  have hmoved : tAny s.vty = true → at_ = s.movedLane a := fun hty => funext fun n => (lgMask_of_tAny hty _).symm
  clear_value at_
  refine ⟨fun hty => ⟨?_, ?_⟩, fun hty => ?_, fun hty i fn hi => ?_, fun hty => ?_, fun hty bay _ => ?_⟩
  · exact dotWord_writes hs (b := .reg r) rfl hty
  · exact dotWord_writes hs (b := .k k) rfl hty
  · exact lgmulWord_writes hs rfl hty
  · refine specWord_writes hs ?_ hty
    simp only [List.mem_cons, Prod.mk.injEq, List.not_mem_nil, or_false] at hi
    rcases hi with ⟨rfl, rfl⟩ | ⟨rfl, rfl⟩ | ⟨rfl, rfl⟩ | ⟨rfl, rfl⟩ | ⟨rfl, rfl⟩ | ⟨rfl, rfl⟩ | ⟨rfl, rfl⟩ <;> rfl
  · obtain rfl := hmoved hty
    refine ⟨?_, ?_, ?_, ?_, ?_⟩
    · exact permWord_writes_reg (p := fun w z => z % lanesOf w) hs rfl hty
    · refine (permWord_writes (b := .k k) hs (by simp)
        (f := fun s v w n => if (n : Int) + (s.readK k).toInt < 0 then 0 else laneAt v w ((n : Int) + (s.readK k).toInt).toNat) rfl hty).congr
        fun n _ => ⟨?_, rfl⟩
      dsimp only
      rw [apply_ite (lgMask s.vty), lgMask_zero]
      rfl
    · exact permWord_writes (b := .imm im) hs (by simp) (f := fun _ v w n => laneAt v w (n + im.toNat)) rfl hty
    · exact permWord_writes (b := .k k) hs (by simp) (f := fun s v w _ => laneAt v w (s.readK k).toNat) rfl hty
    · exact permWord_writes (b := .imm im) hs (by simp) (f := fun _ v w _ => laneAt v w im.toNat) rfl hty
  · exact randWord_writes hs rfl hty

end Sys2Proof.Machine
end

section
/-! Copies (R241, R250): a copy that waits for a page does not complete. -/

namespace Sys2Proof.Machine

/-- A copy that waits for a page does not complete, whether it halts its unit or, on a migration, does not (R250, R251). -/
theorem copyCompletion_of_halted {s : State} {b n : Nat} {e : Eng} {r : CopyRec} (hr : ((s.bay b).stream e).inflight[n]? = some r)
    (hlate : r.late = none) (hhalted : r.halted = true) : copyCompletion b e n s = { s with cur := .stream b e } := by
  simp [copyCompletion, hr, hlate, hhalted]

/-- A fill that has written every byte, without a barrier, and waits on a migration. -/
def migratingFill : CopyRec := { op := .fill, push := [], pc := 0, ordinal := 0, moved := true, halted := true, mig := true }

/-- The machine after reset, but for the fill alone in flight on unit L of bay 0, whose job runs. -/
def migratingFillState : State := State.reset.setBay 0 { live := true, l := { inflight := [migratingFill] } }

theorem migratingFillState_inflight : ((migratingFillState.bay 0).stream .L).inflight = [migratingFill] := rfl

/-- Refutes O32: its last clause has no premise that the copy at the head is not halted. The unit of a copy that waits on a migration is not halted
(R250), so `migratingFillState` meets every premise, and COPY_COMPLETION leaves the fill in flight. -/
theorem not_copiesMove : ¬ Obligations.CopiesMove := by
  unfold Obligations.CopiesMove
  rintro ⟨-, -, hcompletes⟩
  obtain ⟨t, hexec, -, -, -, -, hbay⟩ := hcompletes migratingFillState 0 .L migratingFill [] migratingFillState_inflight rfl (.inl rfl) rfl rfl rfl
    (by decide) (by decide) (by simp)
  have hstays : exec (.copyCompletion 0 .L 0) migratingFillState = .next { migratingFillState with cur := .stream 0 .L } :=
    congrArg Host.Outcome.next (copyCompletion_of_halted (e := .L) (congrArg (·[0]?) migratingFillState_inflight) rfl rfl)
  obtain rfl := Host.Outcome.next.inj (hstays.symm.trans hexec)
  have hleft : [migratingFill] = [] := congrArg (fun y => (y.stream .L).inflight) hbay
  cases hleft

end Sys2Proof.Machine
end

section
/-! The scalar words: arithmetic and immediates (R109 to R112), bit counts and fields (R113, R114), branches and jumps (R115 to R120). -/

namespace Sys2Proof.Machine

/-! ### Scalar words that do not write a register, or do not retire -/

theorem State.scalar_eq_finish {s : State} (h : s.onScalar) (f : Except Stop State) : s.scalar f = s.finish f := by
  obtain ⟨b, hc⟩ | ⟨c, p, hc⟩ := State.onScalar_cases h
  · rw [State.scalar, hc]
  · rw [State.scalar, hc]

theorem onScalar_congr {s t : State} (hcur : t.cur = s.cur) (h : s.onScalar) : t.onScalar := by
  rwa [State.onScalar, hcur]

/-- The value of a scalar word, restated. -/
theorem Writes.congr {i : Instr} {s : State} {d : BitVec 5} {v v' : Word} (h : Writes i s d v) (hv : v = v') : Writes i s d v' := hv ▸ h

/-! ### Values of the arithmetic words (R109 to R112) -/

/-- Under an injective reading a tie means that the two values are one. -/
theorem ite_lt_eq_ite_le {α β : Type} [LinearOrder β] {f : α → β} (hf : Function.Injective f) (x y : α) :
    (if f x < f y then y else x) = if f x ≤ f y then y else x := by
  by_cases hxy : f x = f y
  · rw [hf hxy, ite_self, ite_self]
  · exact if_congr (lt_iff_le_and_ne.trans (and_iff_left hxy)) rfl rfl

theorem ite_lt_swap {α β : Type} [LinearOrder β] {f : α → β} (x y : α) : (if f y < f x then y else x) = if f x ≤ f y then x else y := by
  rw [← ite_not]
  exact if_congr not_lt rfl rfl

theorem toInt_injective : Function.Injective (BitVec.toInt (n := 64)) := fun _ _ => BitVec.toInt_inj.mp

theorem slt_ite {α : Type} (x y : Word) (u v : α) : (if x.slt y then u else v) = if x.toInt < y.toInt then u else v :=
  if_congr BitVec.slt_iff_toInt_lt rfl rfl

theorem minS_eq (x y : Word) : (if y.slt x then y else x) = if x.toInt ≤ y.toInt then x else y :=
  (slt_ite y x y x).trans (ite_lt_swap x y)

theorem maxS_eq (x y : Word) : (if x.slt y then y else x) = if x.toInt ≤ y.toInt then y else x :=
  (slt_ite x y y x).trans (ite_lt_eq_ite_le toInt_injective x y)

theorem mulHigh_toNat (x y : Word) : mulHigh x.toNat y.toNat = BitVec.ofNat 64 (x.toNat * y.toNat / 2 ^ 64) := by
  rw [← BitVec.ofInt_natCast, mulHigh]
  push_cast
  rfl

theorem rotateLeft_amount (x y : Word) :
    x.rotateLeft (amount y) = (x <<< (y.toNat % 64)) ||| (x >>> (64 - y.toNat % 64)) := by
  rw [BitVec.rotateLeft_def, amount, Nat.mod_mod]

theorem sext15_toInt (im : BitVec 15) : (sext15 im).toInt = im.toInt := BitVec.toInt_signExtend_of_le (by decide)

theorem lui_eq (hi : BitVec 20) : hi.signExtend 64 <<< 15 = BitVec.ofInt 64 (hi.toInt * 2 ^ 15) := by
  rw [BitVec.ofInt_mul, BitVec.shiftLeft_eq_mul_twoPow]
  rfl

/-- Settles O6: each word writes its function of the operands, which is the stated one. -/
theorem scalarArithmetic : Obligations.ScalarArithmetic := by
  unfold Obligations.ScalarArithmetic
  refine ⟨fun s d a b hs => ⟨writes_of hs rfl, writes_of hs rfl, writes_of hs rfl, writes_of hs rfl, ?mulhw, writes_of hs rfl, writes_of hs rfl,
      writes_of hs rfl, writes_of hs rfl, writes_of hs rfl, writes_of hs rfl, writes_of hs rfl, ?rol, ?min, ?max, ?minw, ?maxw, ?slt,
      writes_of hs rfl⟩,
    fun s d a im sh hi hs => ⟨writes_of hs rfl, writes_of hs rfl, writes_of hs rfl, writes_of hs rfl, ?slti, writes_of hs rfl, writes_of hs rfl,
      writes_of hs rfl, ?lui⟩⟩
  case mulhw => exact (writes_of hs rfl).congr (mulHigh_toNat _ _)
  case rol => exact (writes_of hs rfl).congr (rotateLeft_amount _ _)
  case min => exact (writes_of hs rfl).congr (minS_eq _ _)
  case max => exact (writes_of hs rfl).congr (maxS_eq _ _)
  case minw => exact (writes_of hs rfl).congr (ite_lt_swap (f := BitVec.toNat) _ _)
  case maxw => exact (writes_of hs rfl).congr (ite_lt_eq_ite_le BitVec.toNat_injective _ _)
  case slt => exact (writes_of hs rfl).congr (slt_ite _ _ _ _)
  case slti => exact (writes_of hs rfl).congr ((slt_ite _ (sext15 im) _ _).trans (by rw [sext15_toInt]))
  case lui => exact (writes_of hs rfl).congr (lui_eq hi)

/-! ### Division (R110) -/

/-- The one quotient that does not fit wraps to the dividend, and leaves no remainder. -/
theorem div_overflow {x y : Word} (hx : x.toInt = -2 ^ 63) (hy : y.toInt = -1) : divS x y = x ∧ remS x y = 0 := by
  have hne : y ≠ 0 := by
    rintro rfl
    simp at hy
  have hmin : x = BitVec.intMin 64 := toInt_injective (by rw [hx]; decide)
  rw [divS, remS, if_neg hne, if_neg hne, hx, hy, hmin]
  decide

/-! ### Counts of zeros and ones (R109) -/

theorem clz_spec (x : Word) : ∃ n : Nat, n ≤ 64 ∧ clz x = BitVec.ofNat 64 n ∧ (∀ i, 64 - n ≤ i → x.getLsbD i = false) ∧
    (n < 64 → x.getLsbD (63 - n) = true) := by
  by_cases hx : x = 0
  · exact ⟨64, le_rfl, by rw [clz, if_pos hx]; rfl, fun i _ => by rw [hx]; exact BitVec.getLsbD_zero, fun h => absurd h (lt_irrefl _)⟩
  · have hnat : x.toNat ≠ 0 := fun h => hx (BitVec.eq_of_toNat_eq h)
    have hlog : x.toNat.log2 < 64 := (Nat.log2_lt hnat).mpr x.isLt
    refine ⟨63 - x.toNat.log2, by omega, by rw [clz, if_neg hx]; rfl, fun i hi => ?_, fun _ => ?_⟩
    · exact Nat.testBit_lt_two_pow (Nat.lt_log2_self.trans_le (Nat.pow_le_pow_right (by decide) (by omega)))
    · rw [show 63 - (63 - x.toNat.log2) = x.toNat.log2 by omega]
      exact Nat.testBit_log2 hnat

/-- The count from the bottom stops at the first 1 bit, or at the width. -/
theorem ctzGo_spec (k x : Nat) : ctzGo k x ≤ k ∧ (∀ i, i < ctzGo k x → x.testBit i = false) ∧ (ctzGo k x < k → x.testBit (ctzGo k x) = true) := by
  induction k generalizing x with
  | zero => simp [ctzGo]
  | succ k ih =>
    rw [ctzGo]
    by_cases hodd : x % 2 = 1
    · rw [if_pos hodd]
      exact ⟨Nat.zero_le _, fun i hi => absurd hi (Nat.not_lt_zero i), fun _ => by rw [Nat.testBit_zero, decide_eq_true hodd]⟩
    · obtain ⟨hle, hzero, hone⟩ := ih (x / 2)
      rw [if_neg hodd]
      refine ⟨Nat.succ_le_succ hle, fun i hi => ?_, fun hlt => by rw [Nat.testBit_add_one]; exact hone (Nat.lt_of_succ_lt_succ hlt)⟩
      cases i with
      | zero => rw [Nat.testBit_zero, decide_eq_false hodd]
      | succ i => rw [Nat.testBit_add_one]; exact hzero i (Nat.lt_of_succ_lt_succ hi)

theorem popGo_eq_countP (k x : Nat) : popGo k x = (List.range k).countP fun i => x.testBit i := by
  induction k generalizing x with
  | zero => rfl
  | succ k ih =>
    rw [popGo, ih, List.range_succ_eq_map, List.countP_cons, List.countP_map, Nat.add_comm]
    congr 1
    · exact List.countP_congr fun i _ => by rw [Function.comp_apply, Nat.testBit_succ]
    · rw [Nat.testBit_zero]
      rcases Nat.mod_two_eq_zero_or_one x with h | h <;> simp [h]

/-! ### Bit fields (R113, R114) -/

theorem bfiOf_getLsbD (old x : Word) (p q : Nat) {i : Nat} (hi : i < 64) :
    (bfiOf old x p q).getLsbD i = if p ≤ i ∧ i < p + fieldLen p q then x.getLsbD (i - p) else old.getLsbD i := by
  have hmask : (word ((2 ^ fieldLen p q - 1) * 2 ^ p)).getLsbD i = decide (p ≤ i ∧ i < p + fieldLen p q) := by
    rw [word, BitVec.getLsbD_ofNat, Nat.testBit_mul_two_pow, Nat.testBit_two_pow_sub_one, decide_eq_true hi, Bool.true_and, ← Bool.decide_and]
    exact decide_eq_decide.mpr (by omega)
  have hmoved : (word (x.toNat * 2 ^ p)).getLsbD i = (decide (p ≤ i) && x.getLsbD (i - p)) := by
    rw [word, BitVec.getLsbD_ofNat, Nat.testBit_mul_two_pow, decide_eq_true hi, Bool.true_and]
    rfl
  rw [bfiOf, BitVec.getLsbD_or, BitVec.getLsbD_and, BitVec.getLsbD_and, BitVec.getLsbD_not, hmask, hmoved, decide_eq_true hi]
  by_cases hin : p ≤ i ∧ i < p + fieldLen p q
  · simp [hin]
  · simp [hin]

theorem bfxsOf_eq (x : Word) (p q : Nat) :
    bfxsOf x p q = BitVec.ofInt 64 (if fieldLen p q = 0 then 0 else sgn (fieldLen p q) (x.toNat / 2 ^ p)) := by
  rw [apply_ite (BitVec.ofInt 64)]
  rfl

/-- The three field words of one offset and width. -/
theorem fieldWords_of {bfx bfxs bfi : Instr} {s : State} (hs : s.onScalar) {d a : BitVec 5} {p q : Nat}
    (hx : exec bfx s = s.scalar (aluU d a (fun v => bfxOf v p q) s)) (hxs : exec bfxs s = s.scalar (aluU d a (fun v => bfxsOf v p q) s))
    (hi : exec bfi s = s.scalar (aluU d a (fun v => bfiOf (s.readS d) v p q) s)) :
    FieldWords bfx bfxs bfi s d (s.readS a) (s.readS d) p q :=
  ⟨writes_of hs hx, (writes_of hs hxs).congr (bfxsOf_eq _ p q), _, writes_of hs hi, fun _ => bfiOf_getLsbD _ _ p q⟩

theorem regField_eq (s : State) (x : BitVec 5) : regField s x = ((s.readS x).toNat % 256, (s.readS x).toNat / 256 % 256) := by
  simp [regField, bits]

/-- Settles O7: division by its cases, the counts by their recursion over the bits, and the field words bit by bit. -/
theorem scalarBits : Obligations.ScalarBits := by
  unfold Obligations.ScalarBits
  refine ⟨fun s d a b hs => ⟨fun hy => ?_, fun hy => ?_, fun hx hy => ?_⟩, fun s d a hs => ⟨?_, ?_, ?_⟩,
    fun s d a x o n hs => ⟨fun _ => fieldWords_of hs rfl rfl rfl, ?_⟩⟩
  · exact ⟨(writes_of hs rfl).congr (if_pos hy), (writes_of hs rfl).congr (if_pos hy), (writes_of hs rfl).congr (if_pos hy),
      (writes_of hs rfl).congr (if_pos hy)⟩
  · exact ⟨(writes_of hs rfl).congr (if_neg hy), (writes_of hs rfl).congr (if_neg hy), (writes_of hs rfl).congr (if_neg hy),
      (writes_of hs rfl).congr (if_neg hy)⟩
  · obtain ⟨hdiv, hrem⟩ := div_overflow hx hy
    exact ⟨(writes_of hs rfl).congr hdiv, (writes_of hs rfl).congr hrem⟩
  · obtain ⟨n, hn, hclz, hzeros, hone⟩ := clz_spec (s.readS a)
    exact ⟨n, hn, (writes_of hs rfl).congr hclz, hzeros, hone⟩
  · obtain ⟨hle, hzeros, hone⟩ := ctzGo_spec 64 (s.readS a).toNat
    exact ⟨_, hle, writes_of hs rfl, hzeros, hone⟩
  · exact (writes_of hs rfl).congr (congrArg (BitVec.ofNat 64) (popGo_eq_countP 64 _))
  · have hfield := fieldWords_of (p := (regField s x).1) (q := (regField s x).2) hs (bfx := .bfxReg d a x) (bfxs := .bfxsReg d a x)
      (bfi := .bfiReg d a x) rfl rfl rfl
    rwa [regField_eq] at hfield

/-! ### Targets (R118) -/

theorem State.targetGood_iff (s : State) (x : Int) :
    s.targetGood x = true ↔ x % 4 = 0 ∧ (s.codeRange.1 : Int) ≤ x ∧ x < s.codeRange.1 + s.codeRange.2 := by
  simp only [State.targetGood, Bool.and_eq_true, beq_iff_eq, decide_eq_true_eq, and_assoc]

theorem State.targetGood_jointer {s : State} {c p : Nat} (hc : s.cur = .jointer c p) (x : Int) :
    s.targetGood x = true ↔ x % 4 = 0 ∧ 0 ≤ x ∧ x < 4 * (s.jtr c p).code.length := by
  rw [State.targetGood_iff, State.codeRange, hc]
  push_cast
  rw [zero_add]

/-! ### The loops that a branch leaves (R120) -/

/-- Marking loop counters dirty changes the dirty bits alone. -/
theorem Bay.markLoops_eq (y : Bay) (e : Eng) (old new : Tab Loop) : y.markLoops e old new = { y with dirty := (y.markLoops e old new).dirty } := by
  refine List.foldlRecOn (motive := fun z : Bay => z = { y with dirty := z.dirty }) _ _ rfl fun z hz j _ => ?_
  split
  · exact hz
  · rw [Bay.mark, hz]

theorem State.leave_seq {s : State} {b : Nat} (hc : s.cur = .stream b .S) (t : Nat) :
    ∃ m, s.leave t = s.modBay b fun y => { y with lc := leaveLoops y.lc s.pc.toNat t, dirty := m } := by
  rw [State.leave, hc]
  exact ⟨_, congrArg (s.setBay b) (Bay.markLoops_eq _ _ _ _)⟩

theorem State.leave_jtr {s : State} {c p : Nat} (hc : s.cur = .jointer c p) (t : Nat) :
    s.leave t = s.setJtr c p { s.jtr c p with lc := leaveLoops (s.jtr c p).lc s.pc.toNat t } := by
  rw [State.leave, hc]

theorem State.leave_cur {s : State} (h : s.onScalar) (t : Nat) : (s.leave t).cur = s.cur := by
  obtain ⟨b, hc⟩ | ⟨c, p, hc⟩ := State.onScalar_cases h
  · obtain ⟨m, hm⟩ := State.leave_seq hc t
    rw [hm]
    rfl
  · rw [State.leave_jtr hc]
    rfl

theorem State.leave_readS {s : State} (h : s.onScalar) (t : Nat) (r : BitVec 5) : (s.leave t).readS r = s.readS r := by
  obtain ⟨b, hc⟩ | ⟨c, p, hc⟩ := State.onScalar_cases h
  · obtain ⟨m, hm⟩ := State.leave_seq hc t
    simp only [State.readS, State.leave_cur h, hc]
    rw [hm, State.modBay_bay_same]
  · simp only [State.readS, State.leave_cur h, hc]
    rw [State.leave_jtr hc, State.setJtr_jtr_same]

theorem State.leave_lcs {s : State} (h : s.onScalar) (t : Nat) : (s.leave t).lcs = leaveLoops s.lcs s.pc.toNat t := by
  obtain ⟨b, hc⟩ | ⟨c, p, hc⟩ := State.onScalar_cases h
  · obtain ⟨m, hm⟩ := State.leave_seq hc t
    simp only [State.lcs, State.leave_cur h, hc]
    rw [hm, State.modBay_bay_same]
  · simp only [State.lcs, State.leave_cur h, hc]
    rw [State.leave_jtr hc, State.setJtr_jtr_same]

theorem State.setPc_lcs {s : State} (h : s.onScalar) (v : BitVec 16) (a : Bool) : (s.setPc v a).lcs = s.lcs := by
  obtain ⟨b, hc⟩ | ⟨c, p, hc⟩ := State.onScalar_cases h
  · simp only [State.lcs, State.setPc_cur, hc]
    rw [State.setPc_seq hc, State.modBay_bay_same]
    rfl
  · simp only [State.lcs, State.setPc_cur, hc]
    rw [State.setPc_jtr hc, State.setJtr_jtr_same]

theorem leave_setPc_onlyActor {s : State} (h : s.onScalar) (t : Nat) (v : BitVec 16) (a : Bool) :
    OnlyActor s ((s.leave t).setPc v a) (fun y z => seqMoves { y with lc := z.lc } z) fun x z => jtrMoves { x with lc := z.lc } z := by
  have hcur := State.leave_cur h t
  obtain ⟨b, hc⟩ | ⟨c, p, hc⟩ := State.onScalar_cases h
  · obtain ⟨m, hm⟩ := State.leave_seq hc t
    rw [State.setPc_seq (hcur.trans hc), hm]
    refine OnlyActor.stream hc rfl (fun c hne => by rw [State.modBay_bay_ne _ _ _ hne, State.modBay_bay_ne _ _ _ hne]) ?_
    rw [State.modBay_bay_same, State.modBay_bay_same]
    rfl
  · rw [State.setPc_jtr (hcur.trans hc), State.leave_jtr hc]
    refine OnlyActor.jointer hc rfl (fun k hk => by rw [State.setJtr_get_ne _ _ _ _ hk, State.setJtr_get_ne _ _ _ _ hk]) ?_
    rw [State.setJtr_jtr_same, State.setJtr_jtr_same]
    rfl

/-! ### Branches (R115) -/

theorem passed_retire {s : State} (h : s.onScalar) : Passed s s.retire :=
  have rest := setPc_onlyActor h (s.pc + 4) true
  ⟨State.setPc_pc h _ _, State.setPc_readS h _ _, rest.sameMem, rest⟩

theorem went_leave_jump {s : State} (h : s.onScalar) (x : Int) : Went s ((s.leave x.toNat).jump (BitVec.ofInt 16 x)) x :=
  have h' : (s.leave x.toNat).onScalar := onScalar_congr (State.leave_cur h _) h
  have rest := leave_setPc_onlyActor h x.toNat (BitVec.ofInt 16 x) false
  ⟨State.setPc_pc h' _ _, (State.setPc_lcs h' _ _).trans (State.leave_lcs h _), fun r => (State.setPc_readS h' _ _ r).trans (State.leave_readS h _ r),
    rest.sameMem, rest⟩

/-- A bad target raises 0x02 at the word, which then has changed nothing (R118). -/
theorem scalar_badTarget {s : State} (h : s.onScalar) : s.scalar (.error (trapC 0x02)) = s.raise { cause := 0x02 } :=
  State.scalar_eq_finish h _

theorem branchesOn_of {i : Instr} {s : State} (h : s.onScalar) {a b : BitVec 5} {o : BitVec 15} {f : Word → Word → Bool} {c : Prop}
    (hi : exec i s = s.scalar (branch a b o f s)) (hf : f (s.readS a) (s.readS b) = true ↔ c) : BranchesOn i s o c := by
  refine ⟨fun hc => ⟨_, ?_, passed_retire h⟩, fun hc hgood => ⟨_, ?_, went_leave_jump h _⟩, fun hc hbad => ?_⟩
  · rw [hi, branch, if_neg (mt hf.mp hc), State.scalar_ok h rfl]
  · rw [hi, branch, if_pos (hf.mpr hc), State.scalar_ok h (if_pos hgood)]
  · rw [hi, branch, if_pos (hf.mpr hc)]
    dsimp only
    rw [if_neg (Bool.eq_false_iff.mp hbad), scalar_badTarget h]

theorem not_slt_iff (x y : Word) : (!x.slt y) = true ↔ y.toInt ≤ x.toInt := by
  rw [Bool.not_eq_true', ← Bool.not_eq_true, BitVec.slt_iff_toInt_lt, not_lt]

theorem not_ult_iff (x y : Word) : (!decide (x < y)) = true ↔ y.toNat ≤ x.toNat := by
  rw [Bool.not_eq_true', decide_eq_false_iff_not, BitVec.lt_def, not_lt]

/-! ### Jumps (R116, R117) -/

theorem exec_jump {s : State} {d a : BitVec 5} {o : BitVec 20} {im : BitVec 15} {i : Instr} {x : Int}
    (hi : i = .jal d o ∧ x = s.pc.toNat + 4 * o.toInt ∨ i = .jalr d a im ∧ x = (s.readS a + BitVec.ofInt 64 im.toInt).toNat) :
    exec i s = s.scalar (jumpLink d x s) := by
  obtain ⟨rfl, rfl⟩ | ⟨rfl, rfl⟩ := hi
  · rfl
  · rfl

/-- Settles O8: the targets by their range, each branch by its comparison, and both jumps as one jump with link. -/
theorem branchesAndJumps : Obligations.BranchesAndJumps := by
  unfold Obligations.BranchesAndJumps
  refine ⟨fun s x => ⟨fun b hc => ?_, fun c p hc => State.targetGood_jointer hc x⟩, fun s a b o hs => ⟨?_, ?_, ?_, ?_, ?_, ?_⟩,
    fun s d a o im i x hs hi => ⟨fun hgood => ?_, fun hbad => ?_⟩⟩
  · rw [State.targetGood_iff, State.codeRange, hc]
  · exact branchesOn_of hs rfl beq_iff_eq
  · exact branchesOn_of hs rfl bne_iff_ne
  · exact branchesOn_of hs rfl BitVec.slt_iff_toInt_lt
  · exact branchesOn_of hs rfl (not_slt_iff _ _)
  · exact branchesOn_of hs rfl decide_eq_true_iff
  · exact branchesOn_of hs rfl (not_ult_iff _ _)
  · have hw : (s.writeS d (word (s.pc.toNat + 4))).onScalar := onScalar_congr (State.writeS_cur _ _ _) hs
    have rest := writeS_setPc_onlyActor hs d (word (s.pc.toNat + 4)) (BitVec.ofInt 16 x) false
    refine ⟨_, (exec_jump hi).trans (State.scalar_ok hs (if_pos hgood)), State.setPc_pc hw _ _, ?_, fun r hr => ?_, rest.sameMem, rest⟩
    · rw [State.jump, State.setPc_readS hw, State.readS_writeS hs, if_pos rfl]
      rfl
    · rw [State.jump, State.setPc_readS hw, State.readS_writeS hs, if_neg hr]
  · rw [exec_jump hi, jumpLink, if_neg (Bool.eq_false_iff.mp hbad), scalar_badTarget hs]

end Sys2Proof.Machine
end

section
/-! Elementwise arithmetic (R138 to R141, R159): the integer and the floating lanes of the words that share one arithmetic. -/

namespace Sys2Proof.Machine

section
variable {s : State} {i : Instr} {g : Guard} {d a : BitVec 6} {b : Form}

theorem isInt_of_tInt {f : Nat} (h : tInt f = true) : isInt f = true := by
  rw [tInt, Bool.and_eq_true] at h
  exact h.1

theorem tIntFlt_of_tInt {f : Nat} (h : tInt f = true) : tIntFlt f = true := by
  rw [tIntFlt, h, Bool.true_or]

theorem tIntFlt_of_isFlt {f : Nat} (h : isFlt f = true) : tIntFlt f = true := by
  rw [tIntFlt, h, Bool.or_true]

theorem isInt_of_tSigned {f : Nat} (h : tSigned f = true) : isInt f = true := by
  rw [tSigned, Bool.and_eq_true] at h
  rw [isInt, h.1, Bool.true_or]

theorem isInt_of_isFlt {f : Nat} (h : isFlt f = true) : isInt f = false := by
  simp only [isFlt, Bool.and_eq_true, decide_eq_true_eq] at h
  simp only [isInt, isI, isW, Bool.or_eq_false_iff, Bool.and_eq_false_iff, decide_eq_false_iff_not]
  omega

/-! ### Sums and products (R138, R139) -/

/-- On integers a lane operation is the exact one, fitted to its result type (R138). -/
theorem State.arith_int (hty : isInt s.vty = true) (t : Nat) (fi : Int → Int → Int → Int) (ff : Mode → Num → Num → Num → Num × BitVec 8)
    (n x y z : Nat) : s.arith t fi ff n x y z = s.intResult t (fi (intVal t x) (intVal s.vty y) (intVal s.vty z)) := by
  rw [State.arith, if_pos hty]
  rfl

/-- On floating values it is rounded once to its result type (R139). -/
theorem State.arith_flt (hty : isInt s.vty = false) (t : Nat) (fi : Int → Int → Int → Int) (ff : Mode → Num → Num → Num → Num × BitVec 8)
    (n x y z : Nat) : s.arith t fi ff n x y z = s.roundTo t n (ff s.vrm (decodeNum t x) (decodeNum s.vty y) (decodeNum s.vty z)) := by
  rw [State.arith, if_neg (by rw [hty]; exact Bool.false_ne_true)]
  rfl

theorem arithWord_writes (h : s.onVector) {fi : Int → Int → Int → Int} {ff : Mode → Num → Num → Num → Num × BitVec 8}
    (hi : exec i s = s.vector (arithWord fi ff g d a b s)) (hty : tIntFlt s.vty = true) :
    WritesLanes i s g d fun n => s.arith s.vty fi ff n (s.lane d.toNat (fmtWidth s.vty) n) (s.lane a.toNat (fmtWidth s.vty) n) (s.laneB b n) :=
  writesLanes_of h g d a b hi hty

theorem arithWord_writes_int (h : s.onVector) {fi : Int → Int → Int → Int} {ff : Mode → Num → Num → Num → Num × BitVec 8}
    (hi : exec i s = s.vector (arithWord fi ff g d a b s)) (hty : tInt s.vty = true) :
    WritesLanes i s g d fun n => s.intResult s.vty (fi (s.int d n) (s.int a n) (intVal s.vty (s.laneB b n))) := by
  have hw := arithWord_writes h hi (tIntFlt_of_tInt hty)
  simp only [State.arith_int (isInt_of_tInt hty)] at hw
  exact hw

theorem arithWord_writes_flt (h : s.onVector) {fi : Int → Int → Int → Int} {ff : Mode → Num → Num → Num → Num × BitVec 8}
    (hi : exec i s = s.vector (arithWord fi ff g d a b s)) (hty : isFlt s.vty = true) :
    WritesLanes i s g d fun n => s.roundTo s.vty n (ff s.vrm (s.num d n) (s.num a n) (decodeNum s.vty (s.laneB b n))) := by
  have hw := arithWord_writes h hi (tIntFlt_of_isFlt hty)
  simp only [State.arith_flt (isInt_of_isFlt hty)] at hw
  exact hw

theorem divWord_writes (h : s.onVector) (hi : exec i s = s.vector (divWord g d a b s)) (hty : isFlt s.vty = true) :
    WritesLanes i s g d fun n => s.roundTo s.vty n (divNum (s.num a n) (decodeNum s.vty (s.laneB b n))) :=
  writesLanes_of h g d a b hi hty

/-! ### Minimum and maximum (R138, R140) -/

theorem minmaxWord_writes (h : s.onVector) {mx : Bool} (hi : exec i s = s.vector (minmaxWord mx g d a b s)) (hty : tIntFlt s.vty = true) :
    WritesLanes i s g d fun n => minmaxLane mx s.vty (s.lane a.toNat (fmtWidth s.vty) n) (s.laneB b n) :=
  writesLanes_of h g d a b hi hty

theorem minLane_int {f : Nat} (hty : isInt f = true) (x y : Nat) :
    minmaxLane false f x y = (if intVal f x < intVal f y then x else y, 0) := by
  rw [minmaxLane, if_pos hty]
  by_cases hlt : intVal f x < intVal f y <;> simp [hlt]

theorem maxLane_int {f : Nat} (hty : isInt f = true) (x y : Nat) :
    minmaxLane true f x y = (if intVal f x < intVal f y then y else x, 0) := by
  rw [minmaxLane, if_pos hty]
  simp

theorem minmaxLane_flt {f : Nat} (hty : isInt f = false) (mx : Bool) (x y : Nat) : minmaxLane mx f x y = minmaxF f mx x y := by
  rw [minmaxLane, if_neg (by rw [hty]; exact Bool.false_ne_true)]

/-! ### Sign words (R141) -/

theorem signWord_writes_int (h : s.onVector) {neg : Bool} (hi : exec i s = s.vector (signWord neg g d a s)) (hty : tSigned s.vty = true) :
    WritesLanes i s g d fun n => s.intResult s.vty (if neg then -s.int a n else (s.int a n).natAbs) := by
  have hw := writesLanes_of h g d a (.reg a) hi (by rw [hty, Bool.true_or])
  simp only [isInt_of_tSigned hty, if_true] at hw
  exact hw

theorem signWord_writes_flt (h : s.onVector) {neg : Bool} (hi : exec i s = s.vector (signWord neg g d a s)) (hty : isFlt s.vty = true) :
    WritesLanes i s g d fun n => signFlt s.vty neg (s.lane a.toNat (fmtWidth s.vty) n) := by
  have hw := writesLanes_of h g d a (.reg a) hi (by rw [hty, Bool.or_true])
  simp only [isInt_of_isFlt hty, Bool.false_eq_true, if_false] at hw
  exact hw

end

theorem fmtWidth_pos (f : Nat) : 0 < fmtWidth f := by
  unfold fmtWidth
  split <;> decide

theorem two_mul_signBit (f : Nat) : 2 * 2 ^ (fmtWidth f - 1) = 2 ^ fmtWidth f := by
  rw [← Nat.pow_succ', Nat.succ_eq_add_one, Nat.sub_add_cancel (fmtWidth_pos f)]

/-- Settles O9: each word's lane function, at integers. -/
theorem vectorInteger : Obligations.VectorInteger := by
  unfold Obligations.VectorInteger
  intro s g d a b hs hty z fit
  refine ⟨?_, ?_, ?_, ?_, ?_, ?_, ?_, fun hsigned => ⟨?_, ?_⟩⟩
  · exact arithWord_writes_int (fi := fun _ x y => x + y) hs (by cases b <;> rfl) hty
  · exact arithWord_writes_int (fi := fun _ x y => x - y) hs (by cases b <;> rfl) hty
  · exact arithWord_writes_int (fi := fun _ x y => x * y) hs (by cases b <;> rfl) hty
  · exact arithWord_writes_int (fi := fun d x y => d + x * y) hs (by cases b <;> rfl) hty
  · exact arithWord_writes_int (fi := fun d x y => d - x * y) hs (by cases b <;> rfl) hty
  · exact (minmaxWord_writes (mx := false) (a := a) (b := b) hs (by cases b <;> rfl) (tIntFlt_of_tInt hty)).congr fun n _ => by
      rw [minLane_int (isInt_of_tInt hty)]
      exact ⟨rfl, rfl⟩
  · exact (minmaxWord_writes (mx := true) (a := a) (b := b) hs (by cases b <;> rfl) (tIntFlt_of_tInt hty)).congr fun n _ => by
      rw [maxLane_int (isInt_of_tInt hty)]
      exact ⟨rfl, rfl⟩
  · exact signWord_writes_int (neg := false) hs rfl hsigned
  · exact signWord_writes_int (neg := true) hs rfl hsigned

/-- Settles O10: each word's lane function, at floating values. -/
theorem vectorFloat : Obligations.VectorFloat := by
  unfold Obligations.VectorFloat
  intro s g d a b hs hty m z out
  refine ⟨?_, ?_, ?_, ?_, ?_, ?_, ?_, ?_, ?_, fun r k => ⟨?_, ?_⟩⟩
  · exact arithWord_writes_flt (ff := fun m _ x y => addNum m x y) hs (by cases b <;> rfl) hty
  · exact arithWord_writes_flt (ff := fun m _ x y => addNum m x y.negate) hs (by cases b <;> rfl) hty
  · exact arithWord_writes_flt (ff := fun _ _ x y => mulNum x y) hs (by cases b <;> rfl) hty
  · exact arithWord_writes_flt (ff := fun m d x y => fmaNum m d x y) hs (by cases b <;> rfl) hty
  · exact arithWord_writes_flt (ff := fun m d x y => fmaNum m d x.negate y) hs (by cases b <;> rfl) hty
  · exact (minmaxWord_writes (mx := false) (a := a) (b := b) hs (by cases b <;> rfl) (tIntFlt_of_isFlt hty)).congr fun n _ => by
      rw [minmaxLane_flt (isInt_of_isFlt hty)]
      exact ⟨rfl, rfl⟩
  · exact (minmaxWord_writes (mx := true) (a := a) (b := b) hs (by cases b <;> rfl) (tIntFlt_of_isFlt hty)).congr fun n _ => by
      rw [minmaxLane_flt (isInt_of_isFlt hty)]
      exact ⟨rfl, rfl⟩
  · exact signWord_writes_flt (neg := false) hs rfl hty
  · have hw := signWord_writes_flt (i := .vneg g d a) (neg := true) hs rfl hty
    simp only [signFlt, if_true, two_mul_signBit] at hw
    exact hw
  · exact divWord_writes (b := .reg r) hs rfl hty
  · exact divWord_writes (b := .k k) hs rfl hty

end Sys2Proof.Machine
end

section
/-! What the writes of a vector word and its retirement each change of the acting agent. -/

namespace Sys2Proof.Machine

/-! ### Changes one after another -/

theorem OnlyActor.cur {s t : State} {fb : Bay → Bay → Bay} {fj : Jointer → Jointer → Jointer} (h : OnlyActor s t fb fj) : t.cur = s.cur := by
  unfold OnlyActor at h
  split at h
  · rw [h.1]
  · rw [h.1]
  · rw [h]

theorem OnlyActor.refl {s : State} {fb : Bay → Bay → Bay} {fj : Jointer → Jointer → Jointer} (hb : ∀ y, fb y y = y) (hj : ∀ x, fj x x = x) :
    OnlyActor s s fb fj := by
  unfold OnlyActor
  split
  · exact ⟨rfl, fun _ _ => rfl, (hb _).symm⟩
  · exact ⟨rfl, fun _ _ => rfl, (hj _).symm⟩
  · rfl

theorem OnlyActor.of_stream {s t : State} {fb : Bay → Bay → Bay} {fj : Jointer → Jointer → Jointer} {b : Nat} {e : Eng} (hc : s.cur = .stream b e)
    (h : OnlyActor s t fb fj) :
    t = { s with bays := t.bays, tick := t.tick } ∧ (∀ c, c ≠ b → t.bay c = s.bay c) ∧ t.bay b = fb (s.bay b) (t.bay b) := by
  unfold OnlyActor at h
  split at h <;> rename_i hs
  · obtain ⟨rfl, rfl⟩ := Actor.stream.inj (hc.symm.trans hs)
    exact h
  · cases hc.symm.trans hs
  · rename_i hne
    exact absurd hc (hne _ _)

theorem OnlyActor.of_jointer {s t : State} {fb : Bay → Bay → Bay} {fj : Jointer → Jointer → Jointer} {c p : Nat} (hc : s.cur = .jointer c p)
    (h : OnlyActor s t fb fj) : t = { s with jointers := t.jointers, tick := t.tick } ∧
      (∀ k, k ≠ jkey c p → Tab.get {} t.jointers k = Tab.get {} s.jointers k) ∧ t.jtr c p = fj (s.jtr c p) (t.jtr c p) := by
  unfold OnlyActor at h
  split at h <;> rename_i hs
  · cases hc.symm.trans hs
  · obtain ⟨rfl, rfl⟩ := Actor.jointer.inj (hc.symm.trans hs)
    exact h
  · exact absurd hc (hs _ _)

/-- Two changes of an acting agent that has vector words are one, which takes what either takes. -/
theorem OnlyActor.trans {s u t : State} {fb₁ fb₂ fb : Bay → Bay → Bay} {fj₁ fj₂ fj : Jointer → Jointer → Jointer} (h : s.onVector)
    (h₁ : OnlyActor s u fb₁ fj₁) (h₂ : OnlyActor u t fb₂ fj₂) (hb : ∀ y z w, fb y (fb₂ (fb₁ y z) w) = fb₂ (fb₁ y z) w)
    (hj : ∀ y z w, fj y (fj₂ (fj₁ y z) w) = fj₂ (fj₁ y z) w) : OnlyActor s t fb fj := by
  obtain ⟨b, hc⟩ | ⟨c, p, hc⟩ := State.onVector_cases h
  · obtain ⟨hrest₁, hothers₁, hown₁⟩ := h₁.of_stream hc
    obtain ⟨hrest₂, hothers₂, hown₂⟩ := h₂.of_stream (h₁.cur.trans hc)
    refine OnlyActor.stream hc (hrest₂.trans (by rw [hrest₁])) (fun k hk => (hothers₂ k hk).trans (hothers₁ k hk)) ?_
    rw [hown₂, hown₁, hb]
  · obtain ⟨hrest₁, hothers₁, hown₁⟩ := h₁.of_jointer hc
    obtain ⟨hrest₂, hothers₂, hown₂⟩ := h₂.of_jointer (h₁.cur.trans hc)
    refine OnlyActor.jointer hc (hrest₂.trans (by rw [hrest₁])) (fun k hk => (hothers₂ k hk).trans (hothers₁ k hk)) ?_
    rw [hown₂, hown₁, hj]

theorem onVector_congr {s u : State} (h : u.cur = s.cur) (hs : s.onVector) : u.onVector := by
  unfold State.onVector at hs ⊢
  rwa [h]

theorem onVector_of_stream {s : State} {b : Nat} (hc : s.cur = .stream b .V) : s.onVector := by
  rw [State.onVector, hc]

/-! ### Writes -/

/-- Of the acting agent changes what `fb` or `fj` takes, and neither the flags nor the program counter. -/
structure KeepsPc (s u : State) (fb : Bay → Bay → Bay) (fj : Jointer → Jointer → Jointer) : Prop where
  flags : u.flags = s.flags
  pc : u.pc = s.pc
  rest : OnlyActor s u fb fj

theorem KeepsPc.refl {s : State} {fb : Bay → Bay → Bay} {fj : Jointer → Jointer → Jointer} (hb : ∀ y, fb y y = y) (hj : ∀ x, fj x x = x) :
    KeepsPc s s fb fj := ⟨rfl, rfl, OnlyActor.refl hb hj⟩

theorem KeepsPc.trans {s u t : State} {fb₁ fb₂ fb : Bay → Bay → Bay} {fj₁ fj₂ fj : Jointer → Jointer → Jointer} (h : s.onVector)
    (h₁ : KeepsPc s u fb₁ fj₁) (h₂ : KeepsPc u t fb₂ fj₂) (hb : ∀ y z w, fb y (fb₂ (fb₁ y z) w) = fb₂ (fb₁ y z) w)
    (hj : ∀ y z w, fj y (fj₂ (fj₁ y z) w) = fj₂ (fj₁ y z) w) : KeepsPc s t fb fj :=
  ⟨h₂.flags.trans h₁.flags, h₂.pc.trans h₁.pc, h₁.rest.trans h h₂.rest hb hj⟩

theorem keepsPc_modBay {s : State} {b : Nat} {f : Bay → Bay} {fb : Bay → Bay → Bay} {fj : Jointer → Jointer → Jointer} (hc : s.cur = .stream b .V)
    (hflags : (f (s.bay b)).v.flags = (s.bay b).v.flags) (hpc : (f (s.bay b)).v.pc = (s.bay b).v.pc)
    (hf : f (s.bay b) = fb (s.bay b) (f (s.bay b))) : KeepsPc s (s.modBay b f) fb fj := by
  refine ⟨?_, State.modBay_pc_engine (e := .V) (by decide) hc hpc,
    OnlyActor.stream hc (State.modBay_eta _ _ _) (fun c hne => State.modBay_bay_ne _ _ _ hne) ?_⟩
  · simp only [State.flags, State.modBay_cur, hc, State.modBay_bay_same, Bay.stream, hflags]
  · rw [State.modBay_bay_same]
    exact hf

theorem keepsPc_setJtr {s : State} {c p : Nat} {x : Jointer} {fb : Bay → Bay → Bay} {fj : Jointer → Jointer → Jointer}
    (hc : s.cur = .jointer c p) (hflags : x.flags = (s.jtr c p).flags) (hpc : x.pc = (s.jtr c p).pc) (hf : x = fj (s.jtr c p) x) :
    KeepsPc s (s.setJtr c p x) fb fj := by
  refine ⟨?_, ?_, OnlyActor.jointer hc (State.setJtr_eta _ _ _ _) (fun k hk => State.setJtr_get_ne _ _ _ _ hk) ?_⟩
  · simp only [State.flags, State.setJtr_cur, hc, State.setJtr_jtr_same, hflags]
  · simp only [State.pc, State.setJtr_cur, hc, State.setJtr_jtr_same, hpc]
  · rw [State.setJtr_jtr_same]
    exact hf

theorem KeepsPc.onVector {s u : State} {fb : Bay → Bay → Bay} {fj : Jointer → Jointer → Jointer} (h : KeepsPc s u fb fj) (hs : s.onVector) :
    u.onVector := onVector_congr h.rest.cur hs

/-- What a write of vector registers, of predicate registers, of k registers or of VSHAPE takes of a bay and of a jointer (R204). -/
def Bay.takeVreg (y z : Bay) : Bay := { y with vreg := z.vreg, dirty := z.dirty }
def Bay.takePreg (y z : Bay) : Bay := { y with preg := z.preg, dirty := z.dirty }
def Bay.takeK (y z : Bay) : Bay := { y with v := { y.v with k := z.v.k }, dirty := z.dirty }
def Bay.takeVshape (y z : Bay) : Bay := { y with vshape := z.vshape, dirty := z.dirty }
def Jointer.takeVreg (x z : Jointer) : Jointer := { x with vreg := z.vreg }
def Jointer.takePreg (x z : Jointer) : Jointer := { x with preg := z.preg }
def Jointer.takeS (x z : Jointer) : Jointer := { x with s := z.s }
def Jointer.takeVshape (x z : Jointer) : Jointer := { x with vshape := z.vshape }

section
variable {s : State}

theorem State.writeV_keepsPc (h : s.onVector) (r x : Nat) : KeepsPc s (s.writeV r x) Bay.takeVreg Jointer.takeVreg := by
  obtain ⟨b, hc⟩ | ⟨c, p, hc⟩ := State.onVector_cases h <;> simp only [State.writeV, hc]
  · exact keepsPc_modBay hc rfl rfl rfl
  · exact keepsPc_setJtr hc rfl rfl rfl

theorem State.writeP_keepsPc (h : s.onVector) (r x : Nat) : KeepsPc s (s.writeP r x) Bay.takePreg Jointer.takePreg := by
  obtain ⟨b, hc⟩ | ⟨c, p, hc⟩ := State.onVector_cases h <;> simp only [State.writeP, hc]
  · exact keepsPc_modBay hc rfl rfl rfl
  · exact keepsPc_setJtr hc rfl rfl rfl

theorem State.writeK_keepsPc (h : s.onVector) (k : BitVec 3) (v : Word) : KeepsPc s (s.writeK k v) Bay.takeK Jointer.takeS := by
  obtain ⟨b, hc⟩ | ⟨c, p, hc⟩ := State.onVector_cases h <;> simp only [State.writeK, hc]
  · exact keepsPc_modBay hc rfl rfl rfl
  · exact keepsPc_setJtr hc rfl rfl rfl

theorem State.setVshape_keepsPc (h : s.onVector) (x : BitVec 27) : KeepsPc s (s.setVshape x) Bay.takeVshape Jointer.takeVshape := by
  obtain ⟨b, hc⟩ | ⟨c, p, hc⟩ := State.onVector_cases h <;> simp only [State.setVshape, hc]
  · exact keepsPc_modBay hc rfl rfl rfl
  · exact keepsPc_setJtr hc rfl rfl rfl

/-! ### Reading after a write -/

theorem State.readV_writeV (h : s.onVector) {r q : Nat} (hr : r < 64) (hq : q < 64) (x : Nat) :
    (s.writeV r x).readV q = if q = r then x % 2 ^ 4096 else s.readV q := by
  obtain ⟨b, hc⟩ | ⟨c, p, hc⟩ := State.onVector_cases h
  · have hphys : ∀ wb, physReg wb q = physReg wb r ↔ q = r := fun wb => ⟨physReg_inj hq hr, fun e => e ▸ rfl⟩
    simp only [State.readV, State.writeV, State.vshape, hc, State.modBay_cur, State.modBay_bay_same, Bay.mark_vreg, Bay.mark_vshape, Tab.get_set,
      hphys, apply_ite BitVec.toNat]
    rfl
  · simp only [State.readV, State.writeV, hc, State.setJtr_cur, State.setJtr_jtr_same, Tab.get_set, apply_ite BitVec.toNat]
    rfl

theorem State.readP_writeP (h : s.onVector) (r q x : Nat) : (s.writeP r x).readP q = if q = r then x % 2 ^ 1024 else s.readP q := by
  obtain ⟨b, hc⟩ | ⟨c, p, hc⟩ := State.onVector_cases h
  · simp only [State.readP, State.writeP, hc, State.modBay_cur, State.modBay_bay_same, Bay.mark_preg, Tab.get_set, apply_ite BitVec.toNat]
    rfl
  · simp only [State.readP, State.writeP, hc, State.setJtr_cur, State.setJtr_jtr_same, Tab.get_set, apply_ite BitVec.toNat]
    rfl

theorem State.readK_writeK (h : s.onVector) (k j : BitVec 3) (v : Word) : (s.writeK k v).readK j = if j = k then v else s.readK j := by
  obtain ⟨b, hc⟩ | ⟨c, p, hc⟩ := State.onVector_cases h
  · simp only [State.readK, State.writeK, hc, State.modBay_cur, State.modBay_bay_same, Bay.stream, Bay.setStream, Bay.mark_v, Tab.get_set,
      BitVec.toNat_inj]
  · simp only [State.readK, State.writeK, hc, State.setJtr_cur, State.setJtr_jtr_same, Tab.get_set, Nat.add_left_cancel_iff, BitVec.toNat_inj]

theorem State.vshape_setVshape (h : s.onVector) (x : BitVec 27) : (s.setVshape x).vshape = x := by
  obtain ⟨b, hc⟩ | ⟨c, p, hc⟩ := State.onVector_cases h
  · simp only [State.vshape, State.setVshape, hc, State.modBay_cur, State.modBay_bay_same, Bay.mark_vshape]
  · simp only [State.vshape, State.setVshape, hc, State.setJtr_cur, State.setJtr_jtr_same]

theorem State.readP_setVshape (h : s.onVector) (x : BitVec 27) (r : Nat) : (s.setVshape x).readP r = s.readP r := by
  obtain ⟨b, hc⟩ | ⟨c, p, hc⟩ := State.onVector_cases h
  · simp only [State.readP, State.setVshape, hc, State.modBay_cur, State.modBay_bay_same, Bay.mark_preg]
  · simp only [State.readP, State.setVshape, hc, State.setJtr_cur, State.setJtr_jtr_same]

theorem State.vshape_writeP (h : s.onVector) (r x : Nat) : (s.writeP r x).vshape = s.vshape := by
  obtain ⟨b, hc⟩ | ⟨c, p, hc⟩ := State.onVector_cases h
  · simp only [State.vshape, State.writeP, hc, State.modBay_cur, State.modBay_bay_same, Bay.mark_vshape]
  · simp only [State.vshape, State.writeP, hc, State.setJtr_cur, State.setJtr_jtr_same]

theorem State.readV_writeP (h : s.onVector) (r x q : Nat) : (s.writeP r x).readV q = s.readV q := by
  obtain ⟨b, hc⟩ | ⟨c, p, hc⟩ := State.onVector_cases h
  · simp only [State.readV, State.vshape, State.writeP, hc, State.modBay_cur, State.modBay_bay_same, Bay.mark_vshape, Bay.mark_vreg]
  · simp only [State.readV, State.writeP, hc, State.setJtr_cur, State.setJtr_jtr_same]

/-! ### Retirement -/

/-- The word retired from `u` with the flags `fl`: the registers keep (R106, R139). -/
structure RetiredFrom (u t : State) (fl : BitVec 8) : Prop where
  readV : ∀ r, t.readV r = u.readV r
  readP : ∀ r, t.readP r = u.readP r
  readK : ∀ k, t.readK k = u.readK k
  vshape : t.vshape = u.vshape
  flags : t.flags = u.flags ||| fl
  pc : t.pc = u.pc + 4
  rest : OnlyActor u t vecMoves jvecMoves

theorem retiredFrom_modBay {b : Nat} {f : Bay → Bay} {fl : BitVec 8} (hc : s.cur = .stream b .V) (hf : f (s.bay b) = vecMoves (s.bay b) (f (s.bay b)))
    (hflags : (f (s.bay b)).v.flags = (s.bay b).v.flags ||| fl) (hpc : (f (s.bay b)).v.pc = s.pc + 4) : RetiredFrom s (s.modBay b f) fl := by
  have hcur : (s.modBay b f).cur = .stream b .V := hc
  have hbay : (s.modBay b f).bay b = vecMoves (s.bay b) (f (s.bay b)) := (State.modBay_bay_same _ _ _).trans hf
  refine ⟨fun r => ?_, fun r => ?_, fun k => ?_, ?_, ?_, ?_,
    OnlyActor.stream hc (State.modBay_eta _ _ _) (fun c hne => State.modBay_bay_ne _ _ _ hne) ?_⟩
  · simp only [State.readV, State.vshape, hcur, hc, hbay, vecMoves]
  · simp only [State.readP, hcur, hc, hbay, vecMoves]
  · simp only [State.readK, hcur, hc, hbay, vecMoves, Bay.stream]
  · simp only [State.vshape, hcur, hc, hbay, vecMoves]
  · simp only [State.flags, hcur, hc, State.modBay_bay_same, Bay.stream, hflags]
  · simp only [State.pc_engine (e := .V) (by decide) hcur, State.modBay_bay_same, Bay.stream, hpc]
  · rw [State.modBay_bay_same]
    exact hf

theorem retiredFrom_setJtr {c p : Nat} {x : Jointer} {fl : BitVec 8} (hc : s.cur = .jointer c p) (hf : x = jvecMoves (s.jtr c p) x)
    (hflags : x.flags = (s.jtr c p).flags ||| fl) (hpc : x.pc = s.pc + 4) : RetiredFrom s (s.setJtr c p x) fl := by
  have hcur : (s.setJtr c p x).cur = .jointer c p := hc
  have hjtr : (s.setJtr c p x).jtr c p = jvecMoves (s.jtr c p) x := (State.setJtr_jtr_same _ _ _ _).trans hf
  refine ⟨fun r => ?_, fun r => ?_, fun k => ?_, ?_, ?_, ?_,
    OnlyActor.jointer hc (State.setJtr_eta _ _ _ _) (fun k hk => State.setJtr_get_ne _ _ _ _ hk) ?_⟩
  · simp only [State.readV, hcur, hc, hjtr, jvecMoves]
  · simp only [State.readP, hcur, hc, hjtr, jvecMoves]
  · simp only [State.readK, hcur, hc, hjtr, jvecMoves]
  · simp only [State.vshape, hcur, hc, hjtr, jvecMoves]
  · simp only [State.flags, hcur, hc, State.setJtr_jtr_same, hflags]
  · rw [State.pc, hcur]
    exact (congrArg Jointer.pc (State.setJtr_jtr_same _ _ _ _)).trans hpc
  · rw [State.setJtr_jtr_same]
    exact hf

theorem State.retireV_jtr {c p : Nat} (hc : s.cur = .jointer c p) :
    s.retireV = s.setJtr c p { s.jtr c p with pc := s.pc + 4, adv := true, skip := false, ordinal := (s.jtr c p).ordinal + 1 } := by
  rw [State.retireV, State.retire, State.setPc_jtr hc]
  simp only [State.countV, State.setJtr_cur, hc, State.setJtr_setJtr, State.setJtr_jtr_same]

theorem retiredFrom_retireV (h : s.onVector) : RetiredFrom s s.retireV 0 := by
  obtain ⟨b, hc⟩ | ⟨c, p, hc⟩ := State.onVector_cases h
  · rw [State.retireV_stream hc]
    exact retiredFrom_modBay hc rfl (BitVec.or_zero).symm rfl
  · rw [State.retireV_jtr hc]
    exact retiredFrom_setJtr hc rfl (BitVec.or_zero).symm rfl

theorem retiredFrom_orFlags (h : s.onVector) (fl : BitVec 8) : RetiredFrom s (s.orFlags fl).retireV fl := by
  obtain ⟨b, hc⟩ | ⟨c, p, hc⟩ := State.onVector_cases h
  · simp only [State.orFlags, hc]
    rw [State.modBay_retireV hc rfl]
    exact retiredFrom_modBay hc rfl rfl rfl
  · simp only [State.orFlags, hc]
    rw [State.retireV_jtr (s := s.setJtr c p _) hc, State.setJtr_setJtr, State.setJtr_jtr_same]
    refine retiredFrom_setJtr hc rfl rfl ?_
    simp only [State.pc, State.setJtr_cur, hc, State.setJtr_jtr_same]

/-- A word that writes and then retires. -/
theorem RetiredFrom.after {u t : State} {fl : BitVec 8} {fb₁ fb : Bay → Bay → Bay} {fj₁ fj : Jointer → Jointer → Jointer} (h : RetiredFrom u t fl)
    (hs : s.onVector) (hu : KeepsPc s u fb₁ fj₁) (hb : ∀ y z w, fb y (vecMoves (fb₁ y z) w) = vecMoves (fb₁ y z) w)
    (hj : ∀ y z w, fj y (jvecMoves (fj₁ y z) w) = jvecMoves (fj₁ y z) w) :
    t.flags = s.flags ||| fl ∧ t.pc = s.pc + 4 ∧ SameMem s t ∧ OnlyActor s t fb fj := by
  have hrest : OnlyActor s t fb fj := hu.rest.trans hs h.rest hb hj
  exact ⟨by rw [h.flags, hu.flags], by rw [h.pc, hu.pc], hrest.sameMem, hrest⟩

end

end Sys2Proof.Machine
end

section
/-! Predicate registers: what a word that writes one leaves (R127), and the compares (R144). -/

namespace Sys2Proof.Machine

/-! ### Lanes of a register (R75, R126) -/

theorem fmtWidth_eq_two_pow (f : Nat) : fmtWidth f = 2 ^ fmtStep f := by
  unfold fmtStep fmtWidth
  split <;> rfl

theorem fmtStep_bounds (f : Nat) : 2 ≤ fmtStep f ∧ fmtStep f ≤ 6 := by
  unfold fmtStep fmtWidth
  split <;> decide

theorem lanesOf_two_pow {k : Nat} (h : k ≤ 12) : lanesOf (2 ^ k) = 2 ^ (12 - k) :=
  Nat.pow_div h Nat.two_pos

theorem lanesOf_fmtWidth (f : Nat) : lanesOf (fmtWidth f) = 2 ^ (12 - fmtStep f) := by
  obtain ⟨_, h⟩ := fmtStep_bounds f
  rw [fmtWidth_eq_two_pow, lanesOf_two_pow (by omega)]

theorem lanesOf_fmtWidth_le (f : Nat) : lanesOf (fmtWidth f) ≤ 1024 := by
  obtain ⟨h, _⟩ := fmtStep_bounds f
  rw [lanesOf_fmtWidth]
  exact Nat.pow_le_pow_right Nat.two_pos (by omega : 12 - fmtStep f ≤ 10)

/-! ### Bits of a predicate register -/

theorem testBit_zero_of_b2n (r : Bool) (t : Nat) : (b2n r + 2 * t).testBit 0 = r := by
  cases r <;> simp [b2n, Nat.testBit_zero]

theorem testBit_succ_of_b2n (r : Bool) (t n : Nat) : (b2n r + 2 * t).testBit (n + 1) = t.testBit n := by
  have hdiv : (b2n r + 2 * t) / 2 = t := by
    cases r
    · simp [b2n]
    · simp only [b2n, if_true]
      omega
  rw [← testBit_succ_div, hdiv]

/-- A bit of a mapped predicate register: the operation's where the guard leaves the lane active, the old one elsewhere, and none past the lanes. -/
theorem mapBits_testBit (f : Nat → Nat → Nat → Bool × BitVec 8) :
    ∀ (as bs : List Nat) (i m d n : Nat), as.length = bs.length → (mapBits f i m d as bs).1.testBit n =
      (decide (n < as.length) && if m.testBit n then (f (i + n) (as.getD n 0) (bs.getD n 0)).1 else d.testBit n)
  | [], _, _, _, _, n, _ => by simp [mapBits]
  | a :: as, [], _, _, _, _, h => by simp at h
  | a :: as, b :: bs, i, m, d, 0, _ => by
    rw [mapBits, testBit_zero_of_b2n]
    by_cases h : m % 2 = 1 <;> simp [Nat.testBit_zero, h, beq_eq_decide]
  | a :: as, b :: bs, i, m, d, n + 1, h => by
    simp only [mapBits, testBit_succ_of_b2n, List.length_cons, List.getD_cons_succ, Nat.succ_lt_succ_iff]
    rw [mapBits_testBit f as bs _ _ _ n (by simpa using h), testBit_succ_div, testBit_succ_div, Nat.add_assoc, Nat.add_comm 1 n]

theorem mapBits_flags (f : Nat → Nat → Nat → Bool × BitVec 8) :
    ∀ (as bs : List Nat) (i m d : Nat), as.length = bs.length →
      (mapBits f i m d as bs).2 = laneFlags m (fun n => (f (i + n) (as.getD n 0) (bs.getD n 0)).2) as.length
  | [], _, _, _, _, _ => by simp [mapBits, laneFlags]
  | a :: as, [], _, _, _, h => by simp at h
  | a :: as, b :: bs, i, m, d, h => by
    rw [List.length_cons, laneFlags_front]
    simp only [mapBits, List.getD_cons_zero, Nat.add_zero, Nat.testBit_zero, List.getD_cons_succ]
    rw [mapBits_flags f as bs _ _ _ (by simpa using h)]
    simp only [Nat.add_assoc, Nat.add_comm 1, decide_eq_true_eq]
    split <;> rfl

/-- Taking away the bits that a mask names. -/
theorem testBit_sub_land : ∀ (i x m : Nat), (x - Nat.land x m).testBit i = (x.testBit i && !m.testBit i)
  | 0, x, m => by
    have hle : Nat.land x m ≤ x := Nat.and_le_left
    have hone : Nat.land x m % 2 = 1 ↔ x % 2 = 1 ∧ m % 2 = 1 := Nat.and_mod_two_eq_one
    simp only [Nat.testBit_zero, ← decide_not, ← Bool.decide_and, decide_eq_decide]
    omega
  | i + 1, x, m => by
    have hle : Nat.land x m ≤ x := Nat.and_le_left
    have hone : Nat.land x m % 2 = 1 ↔ x % 2 = 1 ∧ m % 2 = 1 := Nat.and_mod_two_eq_one
    have hhalf : Nat.land x m / 2 = Nat.land (x / 2) (m / 2) := Nat.and_div_two
    have hdiv : (x - Nat.land x m) / 2 = x / 2 - Nat.land (x / 2) (m / 2) := by omega
    rw [Nat.testBit_succ, hdiv, testBit_sub_land i, Nat.testBit_succ, Nat.testBit_succ]

theorem testBit_natLand (x y i : Nat) : (Nat.land x y).testBit i = (x.testBit i && y.testBit i) := Nat.testBit_and x y i

theorem testBit_natLor (x y i : Nat) : (Nat.lor x y).testBit i = (x.testBit i || y.testBit i) := Nat.testBit_or x y i

theorem testBit_natXor (x y i : Nat) : (Nat.xor x y).testBit i = (x.testBit i ^^ y.testBit i) := Nat.testBit_xor x y i

/-- New bits under a mask, and the old ones elsewhere (R127). -/
theorem testBit_merge (new old m i : Nat) :
    (Nat.lor (Nat.land new m) (old - Nat.land old m)).testBit i = if m.testBit i then new.testBit i else old.testBit i := by
  rw [testBit_natLor, testBit_natLand, testBit_sub_land]
  cases m.testBit i <;> simp

section
variable {s : State} {i : Instr} {g : Guard}

theorem State.readP_lt (s : State) (r : Nat) : s.readP r < 2 ^ 1024 := by
  unfold State.readP
  split
  · exact BitVec.isLt _
  · exact BitVec.isLt _
  · exact Nat.two_pow_pos _

/-! ### Words that write a predicate or a k register -/

section
variable (h : s.onVector) {p : BitVec 4} {x : Nat} {f : Nat → Bool}
include h

theorem writesP_of_retired {t : State} {fl : BitVec 8} (hi : exec i s = s.vector (.ok t)) (ht : RetiredFrom (s.writeP p.toNat x) t fl)
    (hf : ∀ n, n < 1024 → x.testBit n = f n) : WritesP i s p f fl := by
  refine ⟨t, hi.trans (State.vector_ok h rfl), fun n hn => ?_, fun r _ hr => ?_,
    ht.after h (State.writeP_keepsPc h _ _) (fun _ _ _ => rfl) (fun _ _ _ => rfl)⟩
  · rw [ht.readP, State.readP_writeP h, if_pos rfl, Nat.testBit_mod_two_pow, decide_eq_true hn, Bool.true_and, hf n hn]
  · rw [ht.readP, State.readP_writeP h, if_neg hr]

theorem writesP_retireV (hi : exec i s = s.vector (.ok (s.writeP p.toNat x).retireV)) (hf : ∀ n, n < 1024 → x.testBit n = f n) :
    WritesP i s p f 0 :=
  writesP_of_retired h hi (retiredFrom_retireV ((State.writeP_keepsPc h _ _).onVector h)) hf

theorem writesP_orFlags {fl : BitVec 8} (hi : exec i s = s.vector (.ok ((s.writeP p.toNat x).orFlags fl).retireV))
    (hf : ∀ n, n < 1024 → x.testBit n = f n) : WritesP i s p f fl :=
  writesP_of_retired h hi (retiredFrom_orFlags ((State.writeP_keepsPc h _ _).onVector h) _) hf

theorem writesK_retireV {k : BitVec 3} {v : Word} (hi : exec i s = s.vector (.ok (s.writeK k v).retireV)) : WritesK i s k v := by
  have ht := retiredFrom_retireV ((State.writeK_keepsPc h k v).onVector h)
  obtain ⟨hflags, hpc, hmem, hrest⟩ := ht.after (fb := fun y z => vecMoves { y with v := { y.v with k := z.v.k } } z)
    (fj := fun x z => jvecMoves { x with s := z.s } z) h (State.writeK_keepsPc h _ _) (fun _ _ _ => rfl) (fun _ _ _ => rfl)
  refine ⟨_, hi.trans (State.vector_ok h rfl), ?_, fun j hj => ?_, hflags.trans BitVec.or_zero, hpc, hmem, hrest⟩
  · rw [ht.readK, State.readK_writeK h, if_pos rfl]
  · rw [ht.readK, State.readK_writeK h, if_neg hj]

end

theorem WritesP.congr {p : BitVec 4} {f f' : Nat → Bool} {fl : BitVec 8} (h : WritesP i s p f fl) (hf : ∀ n, n < 1024 → f n = f' n) :
    WritesP i s p f' fl := by
  obtain ⟨t, ht, hbits, hrest⟩ := h
  exact ⟨t, ht, fun n hn => (hbits n hn).trans (hf n hn), hrest⟩

/-! ### Compares (R144) -/

theorem cmpWord_writes (h : s.onVector) {k : Cmp} {p : BitVec 4} {a : BitVec 6} {b : Form} (hi : exec i s = s.vector (cmpWord k g p a b s))
    (hty : tIntFlt s.vty = true) : WritesP i s p
      (fun n => decide (n < lanesOf (fmtWidth s.vty)) && if (s.active g).testBit n
        then (cmpLane k s.vty (s.lane a.toNat (fmtWidth s.vty) n) (s.laneB b n)).1 else (s.readP p.toNat).testBit n)
      (laneFlags (s.active g) (fun n => (cmpLane k s.vty (s.lane a.toNat (fmtWidth s.vty) n) (s.laneB b n)).2) (lanesOf (fmtWidth s.vty))) := by
  obtain ⟨hlen, hlane⟩ := operandB_spec s b
  have hla := lanes_length s a.toNat (fmtWidth s.vty)
  have hflags := mapBits_flags (fun _ x y => cmpLane k s.vty x y) (s.lanes a.toNat (fmtWidth s.vty)) (s.operandB s.vty b) 0 (s.active g)
    (s.readP p.toNat) (hla.trans hlen.symm)
  rw [hla, laneFlags_congr (f' := fun n => (cmpLane k s.vty (s.lane a.toNat (fmtWidth s.vty) n) (s.laneB b n)).2)
    fun n hn => by rw [lanes_getD s a.toNat _ hn, hlane n hn]] at hflags
  simp only [cmpWord, State.typeE, hty, guardE, if_true] at hi
  rw [← hflags]
  refine writesP_orFlags h hi fun n _ => ?_
  rw [mapBits_testBit _ _ _ _ _ _ _ (hla.trans hlen.symm), hla]
  by_cases hn : n < lanesOf (fmtWidth s.vty)
  · rw [lanes_getD s a.toNat _ hn, hlane n hn]
  · simp only [hn, decide_false, Bool.false_and]

end

/-- Settles O13: each compare maps its lanes to bits; its lane function is the stated one at integers and at floating values. -/
theorem vectorCompare : Obligations.VectorCompare := by
  unfold Obligations.VectorCompare
  intro s g p a b hs hty w x out int u v fu fv nan quiet loud flags
  have heq := cmpWord_writes (i := byForm (.vcmpeq g p a) (.vcmpeqK g p a) (.vcmpeqI g p a) b) (k := .eq) (g := g) (a := a) (b := b) hs
    (by cases b <;> rfl) hty
  have hne := cmpWord_writes (i := byForm (.vcmpne g p a) (.vcmpneK g p a) (.vcmpneI g p a) b) (k := .ne) (g := g) (a := a) (b := b) hs
    (by cases b <;> rfl) hty
  have hlt := cmpWord_writes (i := byForm (.vcmplt g p a) (.vcmpltK g p a) (.vcmpltI g p a) b) (k := .lt) (g := g) (a := a) (b := b) hs
    (by cases b <;> rfl) hty
  have hle := cmpWord_writes (i := byForm (.vcmple g p a) (.vcmpleK g p a) (.vcmpleI g p a) b) (k := .le) (g := g) (a := a) (b := b) hs
    (by cases b <;> rfl) hty
  by_cases hint : isInt s.vty = true
  · simp only [cmpLane, hint, if_true] at heq hne hlt hle
    simp only [out, flags, quiet, loud, show int = true from hint, if_true, Bool.not_true, Bool.false_and, Bool.false_eq_true, if_false]
    exact ⟨heq, hne, hlt, hle⟩
  · simp only [cmpLane, hint] at heq hne hlt hle
    simp only [out, flags, quiet, loud, show int = false from Bool.eq_false_iff.mpr hint, Bool.not_false, Bool.true_and, Bool.false_eq_true, if_false]
    exact ⟨heq, hne, hlt, hle⟩

end Sys2Proof.Machine
end

section
/-! The predicate words (R147 to R149), and the words of the V stream's state: VSHAPE, VROT and VKSET (R129, R133, R176). -/

namespace Sys2Proof.Machine

/-! ### Words on whole predicate registers (R147) -/

section
variable {s : State} {i : Instr} {g : Guard}

theorem predWord_writes (h : s.onVector) {op : Nat → Nat → Nat} {d a b : BitVec 4} (hi : exec i s = s.vector (predWord op g d a b s)) :
    WritesP i s d (fun n => if (s.active g).testBit n then (op (s.readP a.toNat) (s.readP b.toNat)).testBit n else (s.readP d.toNat).testBit n) 0 :=
  writesP_retireV h hi fun n _ => testBit_merge _ _ _ n

theorem testBit_complement (s : State) (r : Nat) {n : Nat} (hn : n < 1024) : (2 ^ 1024 - 1 - s.readP r).testBit n = !(s.readP r).testBit n := by
  rw [Nat.sub_sub, Nat.add_comm, Nat.testBit_two_pow_sub_succ (State.readP_lt s r), decide_eq_true hn, Bool.true_and]

/-! ### Counts of a predicate register (R148, R149) -/

theorem filter_testBit_range_succ (x n : Nat) :
    (List.range (n + 1)).filter x.testBit = (if x % 2 = 1 then [0] else []) ++ ((List.range n).filter (x / 2).testBit).map (· + 1) := by
  have hshift : x.testBit ∘ Nat.succ = (x / 2).testBit := funext fun k => (testBit_succ_div x k).symm
  rw [List.range_succ_eq_map, List.filter_cons, List.filter_map, hshift, Nat.testBit_zero]
  by_cases hx : x % 2 = 1 <;> simp [hx]

theorem countBits_eq : ∀ n x, countBits n x = ((List.range n).filter x.testBit).length
  | 0, _ => rfl
  | n + 1, x => by
    rw [countBits, countBits_eq n, filter_testBit_range_succ, List.length_append, List.length_map]
    rcases Nat.mod_two_eq_zero_or_one x with hx | hx <;> simp [hx]

theorem firstBit_eq : ∀ n x, firstBit n x = ((List.range n).filter x.testBit).headD n
  | 0, _ => rfl
  | n + 1, x => by
    rw [firstBit, firstBit_eq n, filter_testBit_range_succ]
    by_cases hx : x % 2 = 1
    · simp [hx]
    · cases hl : (List.range n).filter (x / 2).testBit <;> simp [hx]

/-- The counted bits, lane by lane. -/
theorem filter_counted (s : State) (g : Guard) (p : BitVec 4) :
    (List.range (lanesOf (fmtWidth s.vty))).filter (s.counted g p).testBit =
      (List.range (lanesOf (fmtWidth s.vty))).filter fun i => (s.active g).testBit i && (s.readP p.toNat).testBit i :=
  List.filter_congr fun k hk => by
    rw [State.counted, testBit_natLand, testBit_natLand, Nat.testBit_two_pow_sub_one, decide_eq_true (List.mem_range.mp hk), Bool.and_true,
      Bool.and_comm]

theorem kWord_writes (h : s.onVector) {k : BitVec 3} {f : State → Nat} (hi : exec i s = s.vector (kWord k f s)) (hty : tAny s.vty = true) :
    WritesK i s k (word (f s)) := by
  simp only [kWord, State.typeE, hty, guardE, if_true] at hi
  exact writesK_retireV h hi

theorem plenWord_writes (h : s.onVector) {p : BitVec 4} {b : Form} (hi : exec i s = s.vector (plenWord g p b s)) (hty : tAny s.vty = true) :
    WritesP i s p (fun n => decide (n < lanesOf (fmtWidth s.vty)) && if (s.active g).testBit n
      then decide (n < min (s.countB b) (lanesOf (fmtWidth s.vty))) else (s.readP p.toNat).testBit n) 0 := by
  simp only [plenWord, State.typeE, hty, guardE, if_true] at hi
  refine writesP_retireV h hi fun n _ => ?_
  rw [testBit_merge, testBit_natLand, testBit_natLand, Nat.testBit_two_pow_sub_one, Nat.testBit_two_pow_sub_one]
  by_cases hn : n < lanesOf (fmtWidth s.vty)
  · simp [hn]
  · simp [hn]

end

/-! ### Fields of VSHAPE (R128) -/

section
variable (ty rm : Nat) (isat : Bool) (stg wbase fill : Nat)

theorem b2n_lt_two : b2n isat < 2 := by cases isat <;> decide

theorem mkVshape_toNat : (mkVshape ty rm isat stg wbase fill).toNat =
    ty % 64 + rm % 8 * 64 + b2n isat * 512 + stg % 8 * 4096 + wbase % 32 * 65536 + fill % 8 * 16777216 := by
  have hisat := b2n_lt_two isat
  rw [mkVshape, BitVec.toNat_ofNat]
  exact Nat.mod_eq_of_lt (by simp only [at_]; omega)

theorem vsType_mkVshape : vsType (mkVshape ty rm isat stg wbase fill) = ty % 64 := by
  have hisat := b2n_lt_two isat
  rw [vsType, vf, mkVshape_toNat]
  omega

theorem vsRm_mkVshape : vsRm (mkVshape ty rm isat stg wbase fill) = rm % 8 := by
  have hisat := b2n_lt_two isat
  rw [vsRm, vf, mkVshape_toNat]
  omega

theorem vsIsat_mkVshape : vsIsat (mkVshape ty rm isat stg wbase fill) = isat := by
  have hbit : (mkVshape ty rm isat stg wbase fill).toNat / 2 ^ 9 % 2 = b2n isat := by
    have hisat := b2n_lt_two isat
    rw [mkVshape_toNat]
    omega
  rw [vsIsat, Nat.testBit_eq_decide_div_mod_eq, hbit]
  cases isat <;> rfl

theorem vsStg_mkVshape : vsStg (mkVshape ty rm isat stg wbase fill) = stg % 8 := by
  have hisat := b2n_lt_two isat
  rw [vsStg, vf, mkVshape_toNat]
  omega

theorem vsWbase_mkVshape : vsWbase (mkVshape ty rm isat stg wbase fill) = wbase % 32 := by
  have hisat := b2n_lt_two isat
  rw [vsWbase, vf, mkVshape_toNat]
  omega

theorem vsFill_mkVshape : vsFill (mkVshape ty rm isat stg wbase fill) = fill % 8 := by
  have hisat := b2n_lt_two isat
  rw [vsFill, vf, mkVshape_toNat]
  omega

end

theorem vsWbase_lt (x : BitVec 27) : vsWbase x < 32 := Nat.mod_lt _ (by decide)

theorem vsFill_lt (x : BitVec 27) : vsFill x < 8 := Nat.mod_lt _ (by decide)

theorem vsStg_lt (x : BitVec 27) : vsStg x < 8 := Nat.mod_lt _ (by decide)

theorem vsType_lt (x : BitVec 27) : vsType x < 64 := Nat.mod_lt _ (by decide)

theorem vsRm_lt (x : BitVec 27) : vsRm x < 8 := Nat.mod_lt _ (by decide)

/-! ### Faults of vector words -/

theorem State.vector_trap {s : State} (h : s.onVector) (c : Nat) : s.vector (.error (trapC c)) = s.raise { cause := BitVec.ofNat 8 c } := by
  obtain ⟨b, hc⟩ | ⟨c, p, hc⟩ := State.onVector_cases h
  · rw [State.vector, hc]
    rfl
  · rw [State.vector, hc]
    rfl

/-! ### VSHAPE and VKSET (R129, R176) -/

/-- What VSHAPE makes of its field of VSHAPE and of its operand (R129). -/
def shapeOf (x : Word) (v : BitVec 27) : BitVec 27 :=
  mkVshape (bits x 5 0) (bits x 8 6) (bit x 9) (bits x 14 12) (vsWbase v) (vsFill v)

section
variable {s : State} (h : s.onVector) (k : BitVec 3)
include h

theorem vshape_badType (hty : tAny s.vty = false) : exec (.vshape k) s = s.raise { cause := 0x0C } := by
  have hw : shapeWord k s = .error (trapC 0x0C) := by simp only [shapeWord, hty, Bool.not_false, if_true]
  exact (congrArg s.vector hw).trans (State.vector_trap h _)

theorem vshape_badOperand (hty : tAny s.vty = true) (hbad : isCode ((s.readK k).toNat % 64) = false ∨ (s.readK k).toNat / 64 % 8 > 4) :
    exec (.vshape k) s = s.raise { cause := 0x0A } := by
  have hw : shapeWord k s = .error (trapC 0x0A) := by
    have hcond : (!isCode (bits (s.readK k) 5 0) || decide (bits (s.readK k) 8 6 > 4)) = true := by
      simpa [bits] using hbad
    simp only [shapeWord, hty, hcond, Bool.not_true, Bool.false_eq_true, if_false, if_true]
  exact (congrArg s.vector hw).trans (State.vector_trap h _)

theorem vshape_sets (hty : tAny s.vty = true) (hcode : isCode ((s.readK k).toNat % 64) = true) (hrm : (s.readK k).toNat / 64 % 8 ≤ 4) :
    exec (.vshape k) s = .next (s.setVshape (shapeOf (s.readK k) s.vshape)).retireV := by
  refine State.vector_ok h ?_
  have hcond : (!isCode (bits (s.readK k) 5 0) || decide (bits (s.readK k) 8 6 > 4)) = false := by
    simpa [bits] using And.intro hcode hrm
  simp only [shapeWord, hty, hcond, Bool.not_true, Bool.false_eq_true, if_false, shapeOf]

end

theorem vkset_writes {s : State} {b : Nat} (hc : s.cur = .stream b .V) (k : BitVec 3) (im : BitVec 6) :
    WritesK (.vkset k im) s k (BitVec.ofInt 64 im.toInt) := by
  have h := onVector_of_stream hc
  exact writesK_retireV h ((State.onVec_eq hc _).trans (State.vector_ok h rfl).symm)

/-! ### VROT (R133) -/

/-- Moving the window by one renames the rotating registers by one. -/
theorem physReg_rotate {wb j : Nat} (hj : j < 31) : physReg ((wb + 1) % 32) (32 + j) = physReg wb (33 + j) := by
  rw [physReg, physReg, if_neg (by omega), if_neg (by omega)]
  omega

theorem physReg_rotate_last (wb : Nat) : physReg ((wb + 1) % 32) 63 = physReg wb 32 := by
  rw [physReg, physReg, if_neg (by decide), if_neg (by decide)]
  omega

theorem physReg_fixed {r : Nat} (hr : r < 32) (wb wb' : Nat) : physReg wb r = physReg wb' r := by
  simp only [physReg, if_pos hr]

theorem State.readV_setVshape {s : State} {b : Nat} (hc : s.cur = .stream b .V) {x : BitVec 27} {q r : Nat}
    (hreg : physReg (vsWbase x) q = physReg (vsWbase s.vshape) r) : (s.setVshape x).readV q = s.readV r := by
  simp only [State.readV, State.setVshape, State.vshape, hc, State.modBay_cur, State.modBay_bay_same, Bay.mark_vshape, Bay.mark_vreg] at hreg ⊢
  rw [hreg]

/-- Writing the predicate registers from p8 on. -/
def State.writeStages (s : State) (f : Nat → Nat) (n : Nat) : State :=
  (List.range n).foldl (fun s i => s.writeP (8 + i) (f i)) s

theorem State.writeStages_succ (s : State) (f : Nat → Nat) (n : Nat) :
    s.writeStages f (n + 1) = (s.writeStages f n).writeP (8 + n) (f n) := by
  rw [State.writeStages, List.range_succ, List.foldl_append]
  rfl

section
variable {s : State} (h : s.onVector) (f : Nat → Nat)
include h

theorem State.writeStages_keepsPc : ∀ n, KeepsPc s (s.writeStages f n) Bay.takePreg Jointer.takePreg
  | 0 => KeepsPc.refl (fun _ => rfl) (fun _ => rfl)
  | n + 1 => by
    have ih := State.writeStages_keepsPc n
    rw [State.writeStages_succ]
    exact ih.trans h (State.writeP_keepsPc (ih.onVector h) _ _) (fun _ _ _ => rfl) (fun _ _ _ => rfl)

theorem State.vshape_writeStages : ∀ n, (s.writeStages f n).vshape = s.vshape
  | 0 => rfl
  | n + 1 => by
    rw [State.writeStages_succ, State.vshape_writeP ((State.writeStages_keepsPc h f n).onVector h), State.vshape_writeStages n]

theorem State.readV_writeStages (r : Nat) : ∀ n, (s.writeStages f n).readV r = s.readV r
  | 0 => rfl
  | n + 1 => by
    rw [State.writeStages_succ, State.readV_writeP ((State.writeStages_keepsPc h f n).onVector h), State.readV_writeStages r n]

theorem State.readP_writeStages_below {r : Nat} (hr : r < 8) : ∀ n, (s.writeStages f n).readP r = s.readP r
  | 0 => rfl
  | n + 1 => by
    rw [State.writeStages_succ, State.readP_writeP ((State.writeStages_keepsPc h f n).onVector h), if_neg (by omega),
      State.readP_writeStages_below hr n]

theorem State.readP_writeStages {j : Nat} : ∀ n, j < n → (s.writeStages f n).readP (8 + j) = f j % 2 ^ 1024
  | n + 1, hj => by
    rw [State.writeStages_succ, State.readP_writeP ((State.writeStages_keepsPc h f n).onVector h)]
    by_cases hjn : j = n
    · rw [if_pos (by omega), hjn]
    · rw [if_neg (by omega), State.readP_writeStages n (by omega)]

end

/-- VSHAPE with the window moved (R133). -/
def rotated (v : BitVec 27) : BitVec 27 := mkVshape (vsType v) (vsRm v) (vsIsat v) (vsStg v) (vsWbase v + 1) (min (vsFill v + 1) 7)

/-- Stage `j` of the loop's body is on after VROT in bay `b` (R133). -/
def State.stageOn (s : State) (b j : Nat) : Bool :=
  decide (j ≤ vsStg s.vshape) && decide (j ≤ min (vsFill s.vshape + 1) 7) &&
    decide (remAround (s.bay b).v.lc s.pc.toNat ≥ vsStg s.vshape - j + 1)

/-- The bits of its predicate register. -/
def State.stageBits (s : State) (b j : Nat) : Nat := if s.stageOn b j then 2 ^ lanesOf (fmtWidth s.vty) - 1 else 0

theorem exec_vrot {s : State} {b : Nat} (hc : s.cur = .stream b .V) (hty : tAny s.vty = true) :
    exec .vrot s = .next ((s.setVshape (rotated s.vshape)).writeStages (s.stageBits b) 8).retireV := by
  have hw : rotWord b s = .ok ((s.setVshape (rotated s.vshape)).writeStages (s.stageBits b) 8).retireV := by
    rw [rotWord, hty]
    rfl
  exact (State.onVec_eq hc _).trans (congrArg s.finish hw)

theorem testBit_stageBits (s : State) (b j i : Nat) :
    (s.stageBits b j % 2 ^ 1024).testBit i = (decide (i < lanesOf (fmtWidth s.vty)) && s.stageOn b j) := by
  have hle := lanesOf_fmtWidth_le s.vty
  rw [Nat.testBit_mod_two_pow, State.stageBits]
  cases s.stageOn b j
  · simp
  · rw [if_pos rfl, Nat.testBit_two_pow_sub_one, Bool.and_true, ← Bool.decide_and, decide_eq_decide]
    omega

/-! ### What each word leaves -/

theorem vshape_retires {s : State} (h : s.onVector) (k : BitVec 3) {t : State} (ht : t = (s.setVshape (shapeOf (s.readK k) s.vshape)).retireV) :
    (t.flags = s.flags ∧ t.pc = s.pc + 4 ∧ SameMem s t) ∧ t.vshape = shapeOf (s.readK k) s.vshape ∧
      OnlyActor s t (fun y z => vecMoves { y with vshape := z.vshape } z) (fun x z => jvecMoves { x with vshape := z.vshape } z) := by
  subst ht
  have hset := State.setVshape_keepsPc h (shapeOf (s.readK k) s.vshape)
  have ht := retiredFrom_retireV (hset.onVector h)
  obtain ⟨hflags, hpc, hmem, hrest⟩ := ht.after (fb := fun y z => vecMoves { y with vshape := z.vshape } z)
    (fj := fun x z => jvecMoves { x with vshape := z.vshape } z) h hset (fun _ _ _ => rfl) (fun _ _ _ => rfl)
  exact ⟨⟨hflags.trans BitVec.or_zero, hpc, hmem⟩, by rw [ht.vshape, State.vshape_setVshape h], hrest⟩

/-- VROT renames the window by one and writes the eight stage predicates (R133). -/
structure Rotated (s t : State) (b : Nat) : Prop where
  flags : t.flags = s.flags
  pc : t.pc = s.pc + 4
  mem : SameMem s t
  vshape : t.vshape = rotated s.vshape
  window : ∀ q r, physReg (vsWbase (rotated s.vshape)) q = physReg (vsWbase s.vshape) r → t.readV q = s.readV r
  kept : ∀ r, r < 8 → t.readP r = s.readP r
  stages : ∀ j, j < 8 → t.readP (8 + j) = s.stageBits b j % 2 ^ 1024
  rest : OnlyActor s t (fun y z => vecMoves { y with vshape := z.vshape, preg := z.preg } z) (fun x _ => x)

theorem vrot_rotates {s : State} {b : Nat} (hc : s.cur = .stream b .V) (hty : tAny s.vty = true) :
    ∃ t, exec .vrot s = .next t ∧ Rotated s t b := by
  have h := onVector_of_stream hc
  have hset := State.setVshape_keepsPc h (rotated s.vshape)
  have hu := hset.onVector h
  have hwrites := State.writeStages_keepsPc hu (s.stageBits b) 8
  have hkeeps : KeepsPc s _ (fun y z => { y with vshape := z.vshape, preg := z.preg, dirty := z.dirty })
      (fun x z => { x with vshape := z.vshape, preg := z.preg }) := hset.trans h hwrites (fun _ _ _ => rfl) (fun _ _ _ => rfl)
  have ht := retiredFrom_retireV (hwrites.onVector hu)
  obtain ⟨hflags, hpc, hmem, hrest⟩ := ht.after (fb := fun y z => vecMoves { y with vshape := z.vshape, preg := z.preg } z)
    (fj := fun x z => jvecMoves { x with vshape := z.vshape, preg := z.preg } z) h hkeeps (fun _ _ _ => rfl) (fun _ _ _ => rfl)
  obtain ⟨hstate, hothers, hown⟩ := hrest.of_stream hc
  refine ⟨_, exec_vrot hc hty, hflags.trans BitVec.or_zero, hpc, hmem, ?_, fun q r hqr => ?_, fun r hr => ?_, fun j hj => ?_,
    OnlyActor.stream hc hstate hothers hown⟩
  · rw [ht.vshape, State.vshape_writeStages hu, State.vshape_setVshape h]
  · rw [ht.readV, State.readV_writeStages hu, State.readV_setVshape hc hqr]
  · rw [ht.readP, State.readP_writeStages_below hu _ hr, State.readP_setVshape h]
  · rw [ht.readP, State.readP_writeStages hu _ _ hj]

theorem vsWbase_rotated (v : BitVec 27) : vsWbase (rotated v) = (vsWbase v + 1) % 32 := vsWbase_mkVshape _ _ _ _ _ _

theorem vsFill_rotated (v : BitVec 27) : vsFill (rotated v) = min (vsFill v + 1) 7 :=
  (vsFill_mkVshape _ _ _ _ _ _).trans (Nat.mod_eq_of_lt (by omega))

/-- Settles O17: the predicate words by their bits, VSHAPE by its three outcomes, and VROT as a change of VSHAPE and then of the stage predicates. -/
theorem predicatesAndState : Obligations.PredicatesAndState := by
  unfold Obligations.PredicatesAndState
  refine ⟨fun s g d a b k im h => ?_, fun s k im h => ?_⟩
  · intro n p on whole counted shortened
    refine ⟨?_, ?_, ?_, ?_, fun hty => ⟨?_, ?_, ?_, ?_⟩⟩
    · exact (predWord_writes (op := Nat.land) (a := a) (b := b) h rfl).congr fun i _ => by rw [testBit_natLand]
    · exact (predWord_writes (op := Nat.lor) (a := a) (b := b) h rfl).congr fun i _ => by rw [testBit_natLor]
    · exact (predWord_writes (op := Nat.xor) (a := a) (b := b) h rfl).congr fun i _ => by rw [testBit_natXor]
    · exact (predWord_writes (op := fun x _ => 2 ^ 1024 - 1 - x) (a := a) (b := a) h rfl).congr fun i hi => by rw [testBit_complement s _ hi]
    · have hw := kWord_writes (i := .pcnt g k a) (f := fun s => countBits (lanesOf (fmtWidth s.vty)) (s.counted g a)) h rfl hty
      rw [countBits_eq, filter_counted] at hw
      exact hw
    · have hw := kWord_writes (i := .pfirst g k a) (f := fun s => firstBit (lanesOf (fmtWidth s.vty)) (s.counted g a)) h rfl hty
      rw [firstBit_eq, filter_counted] at hw
      exact hw
    · exact plenWord_writes (b := .k k) h rfl hty
    · exact plenWord_writes (b := .imm im) h rfl hty
  · intro x moves
    refine ⟨vshape_badType h k, fun hty hcode hrm => ?_, vshape_badOperand h k, fun b hc => ⟨vkset_writes hc k im, fun hty => ?_⟩⟩
    · obtain ⟨hmoves, hshape, hrest⟩ := vshape_retires h k rfl
      refine ⟨_, vshape_sets h k hty hcode hrm, hmoves, ?_, ?_, ?_, ?_, ?_, ?_, hrest⟩
      · rw [hshape, shapeOf, vsType_mkVshape]
        simp [bits, x]
      · rw [hshape, shapeOf, vsRm_mkVshape]
        simp [bits, x]
      · rw [hshape, shapeOf, vsIsat_mkVshape, Nat.testBit_eq_decide_div_mod_eq]
        simp [bit, x, beq_eq_decide]
      · rw [hshape, shapeOf, vsStg_mkVshape]
        simp [bits, x]
      · rw [hshape, shapeOf, vsWbase_mkVshape, Nat.mod_eq_of_lt (vsWbase_lt _)]
      · rw [hshape, shapeOf, vsFill_mkVshape, Nat.mod_eq_of_lt (vsFill_lt _)]
    · obtain ⟨t, ht, hrot⟩ := vrot_rotates hc hty
      have hbase := vsWbase_rotated s.vshape
      refine ⟨t, ht, hrot.flags, hrot.pc, hrot.mem, ?_, ?_, ?_, ?_, ?_, ?_, fun j hj => ?_, ?_, fun r hr => ?_, hrot.kept, fun j i hj => ?_,
        hrot.rest⟩
      · rw [hrot.vshape, hbase]
      · rw [hrot.vshape, vsFill_rotated]
      · rw [hrot.vshape, rotated, vsType_mkVshape, Nat.mod_eq_of_lt (vsType_lt _)]
      · rw [hrot.vshape, rotated, vsRm_mkVshape, Nat.mod_eq_of_lt (vsRm_lt _)]
      · rw [hrot.vshape, rotated, vsIsat_mkVshape]
      · rw [hrot.vshape, rotated, vsStg_mkVshape, Nat.mod_eq_of_lt (vsStg_lt _)]
      · exact hrot.window _ _ (by rw [hbase, physReg_rotate hj])
      · exact hrot.window _ _ (by rw [hbase, physReg_rotate_last])
      · exact hrot.window _ _ (physReg_fixed hr _ _)
      · rw [hrot.stages j hj, testBit_stageBits, hrot.vshape, vsFill_rotated, Bool.and_assoc, Bool.and_assoc, State.stageOn, Bool.and_assoc]

end Sys2Proof.Machine
end

section
/-! Groups of registers (R131): widening words (R145), and conversions between widths (R152, R153, R158). -/

namespace Sys2Proof.Machine

/-! ### Elements of a group -/

theorem interleave_step {g : Nat} {f : Nat → List Nat} (hf : ∀ j, j < g → f j ≠ []) :
    ((List.range g).map f).filterMap List.head? = (List.range g).map fun j => (f j).getD 0 0 := by
  rw [List.filterMap_map, ← List.filterMap_eq_map]
  refine List.filterMap_congr fun j hj => ?_
  obtain ⟨x, l, hl⟩ := List.exists_cons_of_ne_nil (hf j (List.mem_range.mp hj))
  simp [hl]

/-- Element `n` of `g` lists of `k` members each: member n mod g, place floor(n / g). -/
theorem interleave_spec {g : Nat} : ∀ (k : Nat) (f : Nat → List Nat), (∀ j, j < g → (f j).length = k) →
    (interleave k ((List.range g).map f)).length = g * k ∧
      ∀ n, n < g * k → (interleave k ((List.range g).map f)).getD n 0 = (f (n % g)).getD (n / g) 0
  | 0, _, _ => ⟨rfl, fun n hn => absurd hn (Nat.not_lt_zero n)⟩
  | k + 1, f, hf => by
    have hne : ∀ j, j < g → f j ≠ [] := fun j hj => List.ne_nil_of_length_eq_add_one (hf j hj)
    obtain ⟨hlen, hget⟩ := interleave_spec k (fun j => (f j).tail) fun j hj => by rw [List.length_tail, hf j hj, Nat.add_sub_cancel]
    have hsplit : interleave (k + 1) ((List.range g).map f) =
        ((List.range g).map fun j => (f j).getD 0 0) ++ interleave k ((List.range g).map fun j => (f j).tail) := by
      rw [interleave, interleave_step hne, List.map_map]
      rfl
    rw [hsplit]
    refine ⟨by rw [List.length_append, hlen, List.length_map, List.length_range, Nat.mul_succ, Nat.add_comm], fun n hn => ?_⟩
    have hfirst : ((List.range g).map fun j => (f j).getD 0 0).length = g := by rw [List.length_map, List.length_range]
    by_cases hng : n < g
    · rw [List.getD_append _ _ _ _ (by rw [hfirst]; exact hng), Nat.mod_eq_of_lt hng, Nat.div_eq_of_lt hng]
      simp [List.getD_eq_getElem?_getD, hng]
    · have hpos : 0 < g := Nat.pos_of_mul_pos_right (by omega : 0 < g * (k + 1))
      obtain ⟨q, rfl⟩ := Nat.exists_eq_add_of_le' (Nat.le_of_not_lt hng)
      rw [List.getD_append_right _ _ _ _ (by rw [hfirst]; omega), hfirst, Nat.add_sub_cancel, hget q (by rw [Nat.mul_succ] at hn; omega),
        Nat.add_mod_right, Nat.add_div_right q hpos]
      simp [List.getD_eq_getElem?_getD]

theorem readGroup_spec (s : State) (r g w : Nat) : (s.readGroup r g w).length = g * lanesOf w ∧
    ∀ n, n < g * lanesOf w → (s.readGroup r g w).getD n 0 = s.elem r g w n := by
  obtain ⟨hlen, hget⟩ := interleave_spec (g := g) (lanesOf w) (fun j => s.lanes (r + j) w) fun j _ => lanes_length s _ w
  refine ⟨hlen, fun n hn => (hget n hn).trans (lanes_getD s _ w ?_)⟩
  exact Nat.div_lt_of_lt_mul hn

/-- Every g-th element from `j` on. -/
theorem every_getD {g : Nat} (hg : 0 < g) : ∀ (l : List Nat) (j i : Nat), (every g j l).getD i 0 = l.getD (j + g * i) 0
  | [], j, i => by cases j <;> simp [every]
  | x :: l, 0, 0 => by simp [every]
  | x :: l, 0, i + 1 => by
    rw [every, List.getD_cons_succ, every_getD hg l, show 0 + g * (i + 1) = (g - 1 + g * i) + 1 by rw [Nat.mul_succ]; omega, List.getD_cons_succ]
  | x :: l, j + 1, i => by
    rw [every, every_getD hg l, Nat.add_right_comm, List.getD_cons_succ]

/-- A lane of a packed register; beyond the list's end it is 0. -/
theorem pack_lane_getD (w : Nat) (l : List Nat) (i : Nat) : pack w l / 2 ^ (i * w) % 2 ^ w = l.getD i 0 % 2 ^ w := by
  by_cases hi : i < l.length
  · exact pack_lane w l i hi
  · have hlt : pack w l < 2 ^ (i * w) := Nat.lt_of_lt_of_le (pack_lt w l) (Nat.pow_le_pow_right Nat.two_pos (Nat.mul_le_mul_right w (by omega)))
    rw [Nat.div_eq_of_lt hlt, List.getD_eq_default _ _ (by omega)]

/-! ### Writing a group -/

section
variable {s : State} (h : s.onVector) (r g w : Nat) (l : List Nat)

/-- The first `k` registers of a group of `g` written. -/
def State.writeMembers (s : State) (r g w : Nat) (l : List Nat) (k : Nat) : State :=
  (List.range k).foldl (fun s j => s.writeLanes (r + j) w (every g j l)) s

theorem State.writeMembers_succ (s : State) (k : Nat) :
    s.writeMembers r g w l (k + 1) = (s.writeMembers r g w l k).writeV (r + k) (pack w (every g k l)) := by
  rw [State.writeMembers, List.range_succ, List.foldl_append]
  rfl

include h

theorem State.writeMembers_keepsPc : ∀ k, KeepsPc s (s.writeMembers r g w l k) Bay.takeVreg Jointer.takeVreg
  | 0 => KeepsPc.refl (fun _ => rfl) (fun _ => rfl)
  | k + 1 => by
    have ih := State.writeMembers_keepsPc k
    rw [State.writeMembers_succ]
    exact ih.trans h (State.writeV_keepsPc (ih.onVector h) _ _) (fun _ _ _ => rfl) (fun _ _ _ => rfl)

theorem State.readV_writeMembers {q : Nat} (hq : q < 64) : ∀ k, r + k ≤ 64 → (s.writeMembers r g w l k).readV q =
    if r ≤ q ∧ q < r + k then pack w (every g (q - r) l) % 2 ^ 4096 else s.readV q
  | 0, _ => (if_neg (by omega)).symm
  | k + 1, hk => by
    rw [State.writeMembers_succ, State.readV_writeV ((State.writeMembers_keepsPc h r g w l k).onVector h) (by omega) hq,
      State.readV_writeMembers hq k (by omega)]
    by_cases hlast : q = r + k
    · rw [if_pos hlast, if_pos (by omega), hlast, Nat.add_sub_cancel_left]
    · rw [if_neg hlast]
      exact if_congr (by omega) rfl rfl

theorem State.writeGroup_keepsPc : KeepsPc s (s.writeGroup r g w l) Bay.takeVreg Jointer.takeVreg := State.writeMembers_keepsPc h r g w l g

/-- An element of a written group. -/
theorem State.elem_writeGroup (hr : r + g ≤ 64) {n : Nat} (hn : n < g * lanesOf w) :
    (s.writeGroup r g w l).elem r g w n = l.getD n 0 % 2 ^ w := by
  have hpos : 0 < g := Nat.pos_of_mul_pos_right (by omega : 0 < g * lanesOf w)
  have hmem : n % g < g := Nat.mod_lt n hpos
  have hread : (s.writeGroup r g w l).readV (r + n % g) = pack w (every g (n % g) l) % 2 ^ 4096 := by
    have hq := State.readV_writeMembers h r g w l (q := r + n % g) (by omega) g hr
    rwa [if_pos (by omega), Nat.add_sub_cancel_left] at hq
  rw [State.elem, State.lane, hread, lane_mod (Nat.div_lt_of_lt_mul hn), pack_lane_getD, every_getD hpos, Nat.mod_add_div]

theorem State.readV_writeGroup_outside (hr : r + g ≤ 64) {q : Nat} (hq : q < 64) (hout : q < r ∨ r + g ≤ q) :
    (s.writeGroup r g w l).readV q = s.readV q :=
  (State.readV_writeMembers h r g w l hq g hr).trans (if_neg (by omega))

end

/-! ### Groups of one register -/

theorem interleave_singleton : ∀ l : List Nat, interleave l.length [l] = l
  | [] => rfl
  | x :: l => congrArg (x :: ·) (interleave_singleton l)

theorem every_one : ∀ l : List Nat, every 1 0 l = l
  | [] => rfl
  | x :: l => congrArg (x :: ·) (every_one l)

theorem State.readGroup_one (s : State) (r w : Nat) : s.readGroup r 1 w = s.lanes r w := by
  have hone := interleave_singleton (s.lanes r w)
  rwa [lanes_length] at hone

theorem State.writeGroup_one (s : State) (r w : Nat) (l : List Nat) : s.writeGroup r 1 w l = s.writeLanes r w l := by
  conv_rhs => rw [← every_one l]
  rfl

/-! ### Words on groups -/

section
variable {s : State} {i : Instr} {g : Guard} {d a : BitVec 6} {b : Form}

theorem WritesGroup.congr {m w count : Nat} {f f' : Nat → Nat × BitVec 8} (h : WritesGroup i s g d m w count f)
    (hf : ∀ n, n < count → f n = f' n) : WritesGroup i s g d m w count f' := by
  obtain ⟨t, ht, hresult, hrest⟩ := h
  have hflags := laneFlags_congr (m := s.active g) fun n hn => congrArg Prod.snd (hf n hn)
  exact ⟨t, ht, fun n hn => by rw [hresult n hn, hf n hn], hflags ▸ hrest⟩

/-- A word that maps the elements of the group at vd under the guard (R131). -/
theorem writesGroup_map (h : s.onVector) {m w : Nat} (hd : d.toNat + m ≤ 64) {F : Nat → Nat → Nat → Nat → Nat × BitVec 8} {as bs : List Nat}
    (ha : as.length = m * lanesOf w) (hb : bs.length = m * lanesOf w)
    (hi : exec i s = s.vector (.ok ((s.writeGroup d.toNat m w (mapLanes F 0 (s.active g) (s.readGroup d.toNat m w) as bs).1).orFlags
      (mapLanes F 0 (s.active g) (s.readGroup d.toNat m w) as bs).2).retireV)) :
    WritesGroup i s g d m w (m * lanesOf w) (fun n => F n (s.elem d.toNat m w n) (as.getD n 0) (bs.getD n 0)) := by
  obtain ⟨hlen, hold⟩ := readGroup_spec s d.toNat m w
  have hget := mapLanes_getD F (s.readGroup d.toNat m w) as bs 0 (s.active g)
  have hfl := mapLanes_flags F (s.readGroup d.toNat m w) as bs 0 (s.active g) (ha.trans hlen.symm) (hb.trans hlen.symm)
  generalize mapLanes F 0 (s.active g) (s.readGroup d.toNat m w) as bs = result at hi hget hfl
  have hkeeps := State.writeGroup_keepsPc h d.toNat m w result.1
  have ht := retiredFrom_orFlags (hkeeps.onVector h) result.2
  obtain ⟨hflags, hpc, hmem, hrest⟩ := ht.after (fb := fun y z => vecMoves { y with vreg := z.vreg } z)
    (fj := fun x z => jvecMoves { x with vreg := z.vreg } z) h hkeeps (fun _ _ _ => rfl) (fun _ _ _ => rfl)
  refine ⟨_, hi.trans (State.vector_ok h rfl), fun n hn => ?_, ⟨?_, fun r hr hout => ?_, hpc, hmem, hrest⟩⟩
  · have helem := State.elem_writeGroup h d.toNat m w result.1 hd hn
    rw [hget n (ha.trans hlen.symm) (hb.trans hlen.symm) (by rw [hlen]; exact hn), Nat.zero_add, hold n hn] at helem
    rw [State.elem, State.lane, ht.readV]
    refine helem.trans ?_
    split
    · rfl
    · exact Nat.mod_eq_of_lt (Nat.mod_lt _ (Nat.two_pow_pos w))
  · rw [hflags, hfl, hlen]
    congr 1
    exact laneFlags_congr fun n hn => by rw [Nat.zero_add, hold n hn]
  · rw [ht.readV, State.readV_writeGroup_outside h _ _ _ _ hd hr hout]

theorem alignE_ok {r : BitVec 6} {m : Nat} (h : r.toNat % m = 0) : alignE r m = .ok () := by
  rw [alignE, h]
  rfl

theorem alignE_odd {r : BitVec 6} (h : r.toNat % 2 = 1) : alignE r 2 = .error (trapC 0x0B) := by
  rw [alignE, h]
  rfl

/-! ### Widening words (R145) -/

theorem fmtStep_widerType {f : Nat} (h : tWiden f = true) : fmtStep (widerType f) = fmtStep f + 1 := by
  simp only [tWiden, List.contains_iff_mem, List.mem_cons, List.not_mem_nil, or_false] at h
  rcases h with rfl | rfl | rfl | rfl | rfl | rfl | rfl | rfl <;> decide

theorem lanesOf_widerType {f : Nat} (h : tWiden f = true) : lanesOf (fmtWidth f) = 2 * lanesOf (fmtWidth (widerType f)) := by
  have hstep := fmtStep_widerType h
  obtain ⟨_, hle⟩ := fmtStep_bounds (widerType f)
  rw [lanesOf_fmtWidth, lanesOf_fmtWidth, hstep, ← Nat.pow_succ']
  congr 1
  omega

theorem widenWord_writes (h : s.onVector) {fi : Int → Int → Int → Int} {ff : Mode → Num → Num → Num → Num × BitVec 8}
    (hi : exec i s = s.vector (widenWord fi ff g d a b s)) (hty : tWiden s.vty = true) (hd : d.toNat % 2 = 0) :
    WritesGroup i s g d 2 (fmtWidth (widerType s.vty)) (lanesOf (fmtWidth s.vty)) fun n =>
      s.arith (widerType s.vty) fi ff n (s.elem d.toNat 2 (fmtWidth (widerType s.vty)) n) (s.lane a.toNat (fmtWidth s.vty) n) (s.laneB b n) := by
  obtain ⟨hlen, hlane⟩ := operandB_spec s b
  have hcount := lanesOf_widerType hty
  have hdlt : d.toNat < 64 := d.isLt
  simp only [widenWord, State.typeE, hty, guardE, if_true, alignE_ok hd] at hi
  have hw := writesGroup_map h (by omega) ((lanes_length s a.toNat _).trans hcount) (hlen.trans hcount) hi
  rw [← hcount] at hw
  exact hw.congr fun n hn => by rw [lanes_getD s a.toNat _ hn, hlane n hn]

theorem widenWord_odd (h : s.onVector) {fi : Int → Int → Int → Int} {ff : Mode → Num → Num → Num → Num × BitVec 8}
    (hi : exec i s = s.vector (widenWord fi ff g d a b s)) (hd : d.toNat % 2 = 1) : exec i s = s.raise { cause := 0x0B } := by
  have hw : widenWord fi ff g d a b s = .error (trapC 0x0B) := by
    simp only [widenWord, alignE_odd hd]
  rw [hi, hw]
  exact State.vector_trap h _

/-! ### Conversions (R152, R153, R158) -/

theorem lanesOf_of_steps {t f k : Nat} (h : fmtStep f = fmtStep t + k) : lanesOf (fmtWidth t) = 2 ^ k * lanesOf (fmtWidth f) := by
  obtain ⟨_, hle⟩ := fmtStep_bounds f
  rw [lanesOf_fmtWidth, lanesOf_fmtWidth, ← Nat.pow_add]
  congr 1
  omega

/-- Element `n` of a conversion's source: of a group where the width shrinks, else of one register (R152). -/
def State.cvtElem (s : State) (a : BitVec 6) (t f n : Nat) : Nat :=
  if stepsTo t f < 0 then s.elem a.toNat (2 ^ (stepsTo t f).natAbs) (fmtWidth t) n else s.lane a.toNat (fmtWidth t) n

/-- How many elements a conversion has. -/
def cvtCount (t f : Nat) : Nat := if stepsTo t f > 0 then lanesOf (fmtWidth t) else lanesOf (fmtWidth f)

theorem cvtSource_spec (s : State) (a : BitVec 6) (t f : Nat) {l : List Nat}
    (hl : l = if stepsTo t f < 0 then s.readGroup a.toNat (groupOf (stepsTo t f).natAbs) (fmtWidth t) else s.lanes a.toNat (fmtWidth t)) :
    l.length = cvtCount t f ∧ ∀ n, n < cvtCount t f → l.getD n 0 = s.cvtElem a t f n := by
  subst hl
  unfold cvtCount State.cvtElem
  rcases lt_trichotomy (stepsTo t f) 0 with hneg | hzero | hpos
  · have hcount : lanesOf (fmtWidth f) = 2 ^ (stepsTo t f).natAbs * lanesOf (fmtWidth t) :=
      lanesOf_of_steps (by unfold stepsTo at hneg ⊢; omega)
    obtain ⟨hlen, hget⟩ := readGroup_spec s a.toNat (2 ^ (stepsTo t f).natAbs) (fmtWidth t)
    rw [if_neg (by omega : ¬ stepsTo t f > 0), hcount]
    simp only [if_pos hneg]
    exact ⟨hlen, hget⟩
  · have hcount : lanesOf (fmtWidth f) = lanesOf (fmtWidth t) := by
      rw [lanesOf_fmtWidth, lanesOf_fmtWidth, show fmtStep f = fmtStep t by unfold stepsTo at hzero; omega]
    rw [if_neg (by omega : ¬ stepsTo t f > 0), hcount]
    simp only [if_neg (by omega : ¬ stepsTo t f < 0)]
    exact ⟨lanes_length _ _ _, fun n hn => lanes_getD _ _ _ hn⟩
  · rw [if_pos hpos]
    simp only [if_neg (by omega : ¬ stepsTo t f < 0)]
    exact ⟨lanes_length _ _ _, fun n hn => lanes_getD _ _ _ hn⟩

/-- An aligned group of at most four registers ends with the last register. -/
theorem aligned_add_le {r : BitVec 6} {k : Nat} (hk : k < 3) (h : r.toNat % 2 ^ k = 0) : r.toNat + 2 ^ k ≤ 64 := by
  have hlt : r.toNat < 64 := r.isLt
  interval_cases k <;> omega

theorem cvtWord_writes (h : s.onVector) {f : Nat} {fmtOk typeOk : Nat → Bool} {conv : State → Nat → Nat → Nat × BitVec 8}
    (hi : exec i s = s.vector (cvtWord s.vty g d a f fmtOk typeOk conv s)) (hfmt : fmtOk f = true) (hty : typeOk s.vty = true)
    (hk : (stepsTo s.vty f).natAbs < 3) (halign : (if stepsTo s.vty f > 0 then d else a).toNat % 2 ^ (stepsTo s.vty f).natAbs = 0) :
    WritesGroup i s g d (if stepsTo s.vty f > 0 then 2 ^ (stepsTo s.vty f).natAbs else 1) (fmtWidth f) (cvtCount s.vty f)
      fun n => conv s n (s.cvtElem a s.vty f n) := by
  have hguard : (!fmtOk f || decide ((stepsTo s.vty f).natAbs ≥ 3)) = false := by simp [hfmt, hk]
  simp only [cvtWord, hguard, Bool.false_eq_true, if_false, groupOf, alignE_ok halign, State.typeE, hty, guardE, if_true] at hi
  obtain ⟨hlen, hget⟩ := cvtSource_spec s a s.vty f rfl
  rw [groupOf] at hlen hget
  generalize (if stepsTo s.vty f < 0 then s.readGroup a.toNat (2 ^ (stepsTo s.vty f).natAbs) (fmtWidth s.vty)
    else s.lanes a.toNat (fmtWidth s.vty)) = src at hi hlen hget
  by_cases hpos : stepsTo s.vty f > 0
  · have hcount : cvtCount s.vty f = 2 ^ (stepsTo s.vty f).natAbs * lanesOf (fmtWidth f) := by
      rw [cvtCount, if_pos hpos]
      exact lanesOf_of_steps (by unfold stepsTo at hpos ⊢; omega)
    simp only [if_pos hpos] at hi halign ⊢
    have hw := writesGroup_map h (aligned_add_le hk halign) (hlen.trans hcount) (hlen.trans hcount) hi
    rw [← hcount] at hw
    exact hw.congr fun n hn => by rw [hget n hn]
  · have hcount : cvtCount s.vty f = 1 * lanesOf (fmtWidth f) := by rw [cvtCount, if_neg hpos, Nat.one_mul]
    simp only [if_neg hpos, ← State.readGroup_one, ← State.writeGroup_one] at hi ⊢
    have hw := writesGroup_map h d.isLt (hlen.trans hcount) (hlen.trans hcount) hi
    rw [← hcount] at hw
    exact hw.congr fun n hn => by rw [hget n hn]

end

/-- Settles O14: the widening words and the conversions each map the elements of the group that they write. A product beyond f32's range is rounded
there by the model's choice (log 87), and the formats in which a conversion reads and writes are log 78. -/
theorem vectorWidths : Obligations.VectorWidths := by
  unfold Obligations.VectorWidths
  refine ⟨?_, ?_⟩
  · intro s g d a b h hty f t out goes add mul madd
    refine ⟨fun heven => ⟨?_, ?_, ?_⟩, fun hodd i hi => ?_⟩
    · exact widenWord_writes (fi := fun _ x y => x + y) (ff := fun m _ x y => addNum m x y) h (by cases b <;> rfl) hty heven
    · exact widenWord_writes (fi := fun _ x y => x * y) (ff := fun _ _ x y => mulNum x y) h (by cases b <;> rfl) hty heven
    · exact widenWord_writes (fi := fun d x y => d + x * y) (ff := fun m d x y => fmaNum m d x y) h (by cases b <;> rfl) hty heven
    · simp only [List.mem_cons, List.not_mem_nil, or_false] at hi
      rcases hi with rfl | rfl | rfl
      · exact widenWord_odd (a := a) (b := b) (g := g) (fi := fun _ x y => x + y) (ff := fun m _ x y => addNum m x y) h (by cases b <;> rfl) hodd
      · exact widenWord_odd (a := a) (b := b) (g := g) (fi := fun _ x y => x * y) (ff := fun _ _ x y => mulNum x y) h (by cases b <;> rfl) hodd
      · exact widenWord_odd (a := a) (b := b) (g := g) (fi := fun d x y => d + x * y) (ff := fun m d x y => fmaNum m d x y) h (by cases b <;> rfl) hodd
  · intro s g d a f h t u k m src goes hk halign
    refine ⟨fun hty hfmt => ?_, fun hty hfmt hneg => ?_, fun hty hfmt => ?_⟩
    · exact cvtWord_writes (conv := cvtLane f.toNat) h rfl hfmt hty hk halign
    · exact cvtWord_writes (conv := narrowLane f.toNat) h rfl (by simp only [hfmt, Bool.true_and]; exact decide_eq_true hneg) hty hk halign
    · have hi : exec (.vlgcvt g d a f) s =
          s.vector (cvtWord s.vty g d a f.toNat (fun c => isFlt c || isLg c) (fun t => t == 0x04) (lgcvtLane f.toNat) s) := by
        rw [show s.vty = 0x04 from hty]
        rfl
      have hlane : ∀ n x, lgcvtLane f.toNat s n x = convertNum f.toNat s.vrm (s.srOf n) (scaleNum (Num.ofInt (intVal s.vty x)) (-8)) := fun n x => by
        rw [show s.vty = 0x04 from hty]
        rfl
      have hw := cvtWord_writes h hi (by simpa using hfmt) (by simpa using hty) hk halign
      simp only [hlane] at hw
      exact hw

end Sys2Proof.Machine
end

section
/-! Lane words on lists of lanes: words that map the lanes of vd, and words that write a register whole. The words of block formats and of lg6 sums
(R154, R155, R157). -/

namespace Sys2Proof.Machine

/-! ### Lanes of a register as a list -/

theorem lanes_eq_map (s : State) (r w : Nat) : s.lanes r w = (List.range (lanesOf w)).map (s.lane r w) := by
  refine List.ext_getElem (by simp [lanes_length]) fun n hn _ => ?_
  rw [lanes_length] at hn
  have hget := lanes_getD s r w hn
  rw [List.getD_eq_getElem _ _ (by rw [lanes_length]; exact hn)] at hget
  simpa using hget

/-- The values of the lanes of a register under TYPE. -/
theorem map_decode_lanes (s : State) (a : BitVec 6) :
    (s.lanes a.toNat (fmtWidth s.vty)).map (decodeNum s.vty) = (List.range (lanesOf (fmtWidth s.vty))).map (s.num a) := by
  rw [lanes_eq_map, List.map_map]
  rfl

/-! ### What a word leaves -/

section
variable {s : State} {g : Guard} {w : Nat}

theorem WroteLanes.congr {t : State} {d : Nat} {f f' : Nat → Nat × BitVec 8} (h : WroteLanes s t g d w f) (hf : ∀ n, n < lanesOf w → f n = f' n) :
    WroteLanes s t g d w f' := by
  obtain ⟨hresult, hrest⟩ := h
  have hflags := laneFlags_congr (m := s.active g) fun n hn => congrArg Prod.snd (hf n hn)
  exact ⟨fun n hn => by rw [hresult n hn, hf n hn], hflags ▸ hrest⟩

/-- A word that maps the lanes of vd, of any width, under the guard. -/
theorem wroteLanes_map (h : s.onVector) (d : BitVec 6) (F : Nat → Nat → Nat → Nat → Nat × BitVec 8) {as bs : List Nat}
    (ha : as.length = lanesOf w) (hb : bs.length = lanesOf w) :
    WroteLanes s ((s.writeLanes d.toNat w (mapLanes F 0 (s.active g) (s.lanes d.toNat w) as bs).1).orFlags
      (mapLanes F 0 (s.active g) (s.lanes d.toNat w) as bs).2).retireV g d.toNat w
      fun n => F n (s.lane d.toNat w n) (as.getD n 0) (bs.getD n 0) := by
  obtain ⟨hlanes, hflags, hothers, hpc, hrest⟩ := writeLanes_map h d.toNat (s.active g) w d.isLt F as bs ha hb rfl
  exact ⟨hlanes, ⟨hflags, hothers, hpc, hrest.sameMem, hrest⟩⟩

/-- A word that writes the whole of vd. -/
theorem retiredV_writeV (h : s.onVector) (d : BitVec 6) (x : Nat) (fl : BitVec 8) :
    RetiredV s ((s.writeV d.toNat x).orFlags fl).retireV (· ≠ d.toNat) fl := by
  obtain ⟨_, hothers, hflags, hpc, hrest⟩ := wroteV h d.toNat x fl d.isLt rfl
  exact ⟨hflags, hothers, hpc, hrest.sameMem, hrest⟩

theorem readV_wroteV (h : s.onVector) (d : BitVec 6) (x : Nat) (fl : BitVec 8) :
    ((s.writeV d.toNat x).orFlags fl).retireV.readV d.toNat = x % 2 ^ 4096 :=
  (wroteV h d.toNat x fl d.isLt rfl).1

end

/-! ### Block formats (R154, R155) -/

section
variable {s : State} (h : s.onVector) {d a f : BitVec 6} (hty : isFlt s.vty = true) (hfmt : imageFmt s.vty f.toNat = true)
include h hty hfmt

theorem vquant_writes :
    let n := lanesOf (fmtWidth s.vty)
    let x := (List.range n).map (s.num a)
    let q := quantAll f.toNat s.vrm (pieces 32 n x) (pieces 32 n ((List.range n).map s.srOf))
    let payload := packBytes (fmtWidth f.toNat) q.1 ++ q.2.1.map (BitVec.ofNat 8)
    WritesV (.vquant d a f) s d
      (bytesNat (payload ++ List.replicate (next32 payload.length - payload.length) 0 ++ trailer (largestF32 x) q.2.2.2 n f.toNat payload)) q.2.2.1 := by
  intro n x q payload
  refine ⟨_, State.vector_ok h ?_, readV_wroteV h d _ _, retiredV_writeV h d _ _⟩
  simp only [quantWord, State.typeE, hty, hfmt, guardE, map_decode_lanes, Bool.not_true, Bool.false_eq_true, if_false, if_true]
  rfl

theorem vdeq_writes (g : Guard) :
    let scale := fun i => s.readV a.toNat / 2 ^ (lanesOf (fmtWidth s.vty) * fmtWidth f.toNat + 8 * (i / 32)) % 256
    WritesLanes (.vdeq g d a f) s g d (fun i => if scale i = 0xFF then (fnan s.vty, fIV)
      else convertNum s.vty s.vrm (s.srOf i) (blockNum f.toNat (scale i) (s.lane a.toNat (fmtWidth f.toNat) i))) := by
  intro scale
  have hlen := unpack_length (fmtWidth f.toNat) (lanesOf (fmtWidth s.vty)) (s.readV a.toNat)
  refine ⟨_, State.vector_ok h ?_, (wroteLanes_map h d (fun i _ x _ => if scale i = 0xFF then (fnan s.vty, fIV)
      else convertNum s.vty s.vrm (s.srOf i) (blockNum f.toNat (scale i) x)) hlen hlen).congr fun n hn => ?_⟩
  · simp only [deqWord, State.typeE, hty, hfmt, guardE, Bool.not_true, Bool.false_eq_true, if_false, if_true]
    rfl
  · rw [unpack_getD _ _ _ _ hn]
    rfl

end

/-! ### Sums of lg6 products (R157) -/

/-- The four terms of a lane of 32 bits, and their flags. -/
theorem lgSum4_unpack (y z : Nat) :
    let p := fun i => lgMul (y / 2 ^ (8 * i) % 2 ^ 8) (z / 2 ^ (8 * i) % 2 ^ 8)
    lgSum4 4 (unpack 8 4 y) (unpack 8 4 z) =
      (lgTerm (p 0).1 + lgTerm (p 1).1 + lgTerm (p 2).1 + lgTerm (p 3).1, (p 0).2 ||| (p 1).2 ||| (p 2).2 ||| (p 3).2) := by
  simp [unpack, lgSum4, Nat.div_div_eq_div_mul, Int.add_assoc, BitVec.or_assoc]

/-- Byte `i` of a lane of 32 bits is a lane of 8 bits. -/
theorem lane_byte (s : State) (r j : Nat) {i : Nat} (hi : i < 4) : s.lane r 32 j / 2 ^ (8 * i) % 2 ^ 8 = s.lane r 8 (4 * j + i) := by
  have hsplit : (2 : Nat) ^ 32 = 2 ^ (8 * i) * (2 ^ 8 * 2 ^ (24 - 8 * i)) := by
    rw [← Nat.pow_add, ← Nat.pow_add]
    congr 1
    omega
  rw [State.lane, State.lane, hsplit, Nat.mod_mul_right_div_self, Nat.mod_mul_right_mod, Nat.div_div_eq_div_mul, ← Nat.pow_add,
    show j * 32 + 8 * i = (4 * j + i) * 8 by omega]

theorem vlgadd_writes {s : State} (h : s.onVector) {g : Guard} {d a b : BitVec 6} (hty : isLg s.vty = true) :
    ∃ t, exec (.vlgadd g d a b) s = .next t ∧ WroteLanes s t g d.toNat 32 (fun j =>
      let p := fun i => lgMul (s.lane a.toNat 8 (4 * j + i)) (s.lane b.toNat 8 (4 * j + i))
      let r := s.intResult 0x04 (sgn 32 (s.lane d.toNat 32 j) + (lgTerm (p 0).1 + lgTerm (p 1).1 + lgTerm (p 2).1 + lgTerm (p 3).1))
      (r.1, r.2 ||| (p 0).2 ||| (p 1).2 ||| (p 2).2 ||| (p 3).2)) := by
  refine ⟨_, State.vector_ok h ?_, (wroteLanes_map h d (fun _ x y z =>
      let t := lgSum4 4 (unpack 8 4 y) (unpack 8 4 z)
      let q := fitInt 0x04 s.visat (intVal 0x04 x + t.1)
      (q.1, q.2 ||| t.2)) (lanes_length s a.toNat 32) (lanes_length s b.toNat 32)).congr fun n hn => ?_⟩
  · simp only [lgaddWord, State.typeE, hty, guardE, if_true]
  · have hval : intVal 0x04 (s.lane d.toNat 32 n) = sgn 32 (s.lane d.toNat 32 n) := rfl
    simp only [lanes_getD s _ 32 hn, lgSum4_unpack, lane_byte s _ n (show 0 < 4 by decide), lane_byte s _ n (show 1 < 4 by decide),
      lane_byte s _ n (show 2 < 4 by decide), lane_byte s _ n (show 3 < 4 by decide), hval, State.intResult,
      BitVec.or_assoc]

/-- Settles O15: VQUANT writes the whole register, VDEQ maps the elements of the image, and VLGADD maps the lanes of 32 bits. -/
theorem vectorBlock : Obligations.VectorBlock := by
  unfold Obligations.VectorBlock
  intro s g d a b f h t n x q payload scale
  exact ⟨fun hty hfmt => ⟨vquant_writes h hty hfmt, vdeq_writes h hty hfmt g⟩, fun hty => vlgadd_writes h hty⟩

end Sys2Proof.Machine
end

section
/-! Words across lanes: reductions and scans (R161, R162), VZIP and VUNZIP (R164). -/

namespace Sys2Proof.Machine

/-! ### Lists of lanes -/

theorem getD_map_lgMask (f : Nat) (l : List Nat) (n : Nat) : (l.map (lgMask f)).getD n 0 = lgMask f (l.getD n 0) := by
  have hmap := List.getD_map (l := l) (d := 0) (n := n) (f := lgMask f)
  rwa [lgMask_zero] at hmap

/-- Mapping looks at no more lanes of the operands than the destination has. -/
theorem mapLanes_take (f : Nat → Nat → Nat → Nat → Nat × BitVec 8) : ∀ (ds as bs : List Nat) (i m : Nat),
    mapLanes f i m ds as bs = mapLanes f i m ds (as.take ds.length) (bs.take ds.length)
  | [], _, _, _, _ => by simp [mapLanes]
  | _ :: _, [], _, _, _ => by simp [mapLanes]
  | _ :: _, _ :: _, [], _, _ => by simp [mapLanes]
  | _ :: ds, _ :: as, _ :: bs, i, m => by
    simp only [mapLanes, List.length_cons, List.take_succ_cons]
    rw [mapLanes_take f ds as bs]

/-- The lanes `ds` with those of `xs` at the active ones. -/
def copyLanes (m : Nat) (ds xs : List Nat) : List Nat := (mapLanes (fun _ _ x _ => (x, 0)) 0 m ds xs xs).1

theorem copyLanes_getD {m n : Nat} {ds xs : List Nat} (hlen : ds.length ≤ xs.length) (hn : n < ds.length) :
    (copyLanes m ds xs).getD n 0 = if m.testBit n then xs.getD n 0 else ds.getD n 0 := by
  have htake : (xs.take ds.length).length = ds.length := by rw [List.length_take, Nat.min_eq_left hlen]
  rw [copyLanes, mapLanes_take, mapLanes_getD _ _ _ _ _ _ _ htake htake hn]
  simp only [List.getD_eq_getElem?_getD, List.getElem?_take, if_pos hn]

/-- The lanes of a register with those of a list at the active ones. -/
theorem copyLanes_lane (s : State) (r w m : Nat) {xs : List Nat} (hlen : lanesOf w ≤ xs.length) {n : Nat} (hn : n < lanesOf w) :
    (copyLanes m (s.lanes r w) xs).getD n 0 % 2 ^ w = if m.testBit n then xs.getD n 0 % 2 ^ w else s.lane r w n := by
  have hds := lanes_length s r w
  rw [copyLanes_getD (by rw [hds]; exact hlen) (by rw [hds]; exact hn), lanes_getD s r w hn]
  split
  · rfl
  · exact Nat.mod_eq_of_lt (Nat.mod_lt _ (Nat.two_pow_pos w))

/-! ### Lanes of a written register -/

section
variable {s : State} (h : s.onVector)
include h

theorem State.lane_writeLanes {d r w n : Nat} (hd : d < 64) (hr : r < 64) (hn : n < lanesOf w) (l : List Nat) :
    (s.writeLanes d w l).lane r w n = if r = d then l.getD n 0 % 2 ^ w else s.lane r w n := by
  rw [State.lane, State.writeLanes, State.readV_writeV h hd hr]
  split
  · rw [lane_mod hn, pack_lane_getD]
  · rfl

omit h in
theorem RetiredFrom.lane {u t : State} {fl : BitVec 8} (ht : RetiredFrom u t fl) (r w n : Nat) : t.lane r w n = u.lane r w n := by
  rw [State.lane, State.lane, ht.readV]

/-- A word that writes vector registers and then retires. -/
theorem retiredV_of {u t : State} {fl : BitVec 8} {out : Nat → Prop} (hu : KeepsPc s u Bay.takeVreg Jointer.takeVreg) (ht : RetiredFrom u t fl)
    (hout : ∀ r, r < 64 → out r → u.readV r = s.readV r) : RetiredV s t out fl := by
  obtain ⟨hflags, hpc, hmem, hrest⟩ := ht.after (fb := fun y z => vecMoves { y with vreg := z.vreg } z)
    (fj := fun x z => jvecMoves { x with vreg := z.vreg } z) h hu (fun _ _ _ => rfl) (fun _ _ _ => rfl)
  exact ⟨hflags, fun r hr hr' => (ht.readV r).trans (hout r hr hr'), hpc, hmem, hrest⟩

end

/-! ### Reductions (R161) -/

theorem withIdentity_eq_map (z : Nat) : ∀ (l : List Nat) (m : Nat),
    withIdentity z m l = (List.range l.length).map fun n => if m.testBit n then l.getD n 0 else z
  | [], _ => rfl
  | x :: l, m => by
    rw [withIdentity, withIdentity_eq_map z l, List.length_cons, List.range_succ_eq_map, List.map_cons, List.map_map]
    simp [Nat.testBit_zero, testBit_succ_div, Function.comp_def]

theorem withIdentity_lanes (s : State) (z m r w : Nat) :
    withIdentity z m (s.lanes r w) = (List.range (lanesOf w)).map fun n => if m.testBit n then s.lane r w n else z := by
  rw [withIdentity_eq_map, lanes_length]
  refine List.map_congr_left fun n hn => ?_
  rw [lanes_getD s r w (List.mem_range.mp hn)]

/-- Putting a value in the lowest lane of a register keeps the others. -/
theorem lane_replaceLow (x y w n : Nat) :
    (x - x % 2 ^ w + y % 2 ^ w) / 2 ^ (n * w) % 2 ^ w = if n = 0 then y % 2 ^ w else x / 2 ^ (n * w) % 2 ^ w := by
  have hlow := Nat.mod_lt y (Nat.two_pow_pos w)
  have hsplit : x - x % 2 ^ w = 2 ^ w * (x / 2 ^ w) := by have := Nat.div_add_mod x (2 ^ w); omega
  cases n with
  | zero => simp [hsplit]
  | succ n =>
    have hpow : 2 ^ ((n + 1) * w) = 2 ^ w * 2 ^ (n * w) := by rw [Nat.succ_mul, Nat.add_comm, Nat.pow_add]
    rw [if_neg (Nat.succ_ne_zero n), hpow, ← Nat.div_div_eq_div_mul, ← Nat.div_div_eq_div_mul, hsplit,
      Nat.mul_add_div (Nat.two_pow_pos w), Nat.div_eq_of_lt hlow, Nat.add_zero]

section
variable {s : State} (h : s.onVector) {g : Guard} {d a : BitVec 6} (hty : tIntFlt s.vty = true)
include h hty

theorem reduceWord_writes {i : Instr} {k : Red} (hi : exec i s = s.vector (reduceWord k g d a s)) :
    let w := fmtWidth s.vty
    let r := tree (redOp s k) 12 ((List.range (lanesOf w)).map fun n => if (s.active g).testBit n then s.lane a.toNat w n else redIdentity s.vty k)
    ∃ t, exec i s = .next t ∧ t.lane d.toNat w 0 = r.1 % 2 ^ w ∧
      (∀ n, 0 < n → n < lanesOf w → t.lane d.toNat w n = s.lane d.toNat w n) ∧ RetiredV s t (· ≠ d.toNat) r.2 := by
  intro w r
  have hlane : ∀ n, n < lanesOf w →
      ((s.writeV d.toNat (s.readV d.toNat - s.readV d.toNat % 2 ^ w + r.1 % 2 ^ w)).orFlags r.2).retireV.lane d.toNat w n =
        if n = 0 then r.1 % 2 ^ w else s.lane d.toNat w n := fun n hn => by
    rw [State.lane, readV_wroteV h, lane_mod hn, lane_replaceLow, State.lane]
  have hpos : 0 < lanesOf w := by rw [lanesOf_fmtWidth]; exact Nat.two_pow_pos _
  refine ⟨_, hi.trans (State.vector_ok h ?_), (hlane 0 hpos).trans (if_pos rfl), fun n hn hlt => (hlane n hlt).trans (if_neg (by omega)),
    retiredV_writeV h d _ _⟩
  simp only [reduceWord, State.typeE, hty, guardE, if_true, withIdentity_lanes]
  rfl

end

/-! ### Scans (R162) -/

theorem zipOp_length (op : Nat → Nat → Nat → Nat × BitVec 8) : ∀ (as bs : List Nat) (i : Nat),
    (zipOp op i as bs).1.length = min as.length bs.length
  | [], _, _ => by simp [zipOp]
  | _ :: _, [], _ => by simp [zipOp]
  | _ :: as, _ :: bs, i => by simp [zipOp, zipOp_length op as bs]

theorem scanGo_length (op : Nat → Nat → Nat → Nat × BitVec 8) : ∀ (fuel n : Nat) (l : List Nat), (scanGo op fuel n l).1.length = l.length
  | 0, _, _ => rfl
  | fuel + 1, n, l => by
    rw [scanGo]
    split
    · rfl
    · simp only [scanGo_length op fuel, scanLevel, List.length_append, List.length_take, zipOp_length, List.length_drop]
      omega

section
variable {s : State} (h : s.onVector) {g : Guard} {d a : BitVec 6} (hty : tIntFlt s.vty = true)
include h hty

theorem scanWord_writes {i : Instr} {ex : Bool} (hi : exec i s = s.vector (scanWord ex g d a s)) :
    let w := fmtWidth s.vty
    let r := scanGo (redOp s .sum) 12 1
      ((List.range (lanesOf w)).map fun n => if (s.active g).testBit n then s.lane a.toNat w n else redIdentity s.vty .sum)
    ∃ t, exec i s = .next t ∧
      (∀ n, n < lanesOf w → t.lane d.toNat w n = if (s.active g).testBit n
        then (if ex then (if n = 0 then 0 else r.1.getD (n - 1) 0) else r.1.getD n 0) % 2 ^ w else s.lane d.toNat w n) ∧
      RetiredV s t (· ≠ d.toNat) r.2 := by
  intro w r
  have hlen : r.1.length = lanesOf w := by rw [scanGo_length, List.length_map, List.length_range]
  have hout : lanesOf w ≤ (if ex then 0 :: r.1 else r.1).length := by
    cases ex
    · exact hlen.ge
    · exact (hlen.ge).trans (Nat.le_succ _)
  refine ⟨((s.writeLanes d.toNat w (copyLanes (s.active g) (s.lanes d.toNat w) (if ex then 0 :: r.1 else r.1))).orFlags r.2).retireV,
    hi.trans (State.vector_ok h ?_), fun n hn => ?_, retiredV_writeV h d _ _⟩
  · simp only [scanWord, State.typeE, hty, guardE, if_true, withIdentity_lanes]
    rfl
  · refine ((retiredFrom_orFlags ((State.writeV_keepsPc h _ _).onVector h) _).lane _ _ _).trans ?_
    rw [← State.writeLanes, State.lane_writeLanes h d.isLt d.isLt hn, if_pos rfl, copyLanes_lane s _ _ _ hout hn]
    cases ex
    · rfl
    · cases n <;> rfl

end

/-! ### VZIP and VUNZIP (R164) -/

theorem every_two_length : ∀ l : List Nat, (every 2 0 l).length = (l.length + 1) / 2 ∧ (every 2 1 l).length = l.length / 2
  | [] => ⟨rfl, rfl⟩
  | x :: l => by
    obtain ⟨heven, hodd⟩ := every_two_length l
    simp only [every, List.length_cons, heven, hodd]
    refine ⟨?_, trivial⟩
    omega

/-- The lanes of two registers in turn. -/
theorem interleave_lanes (s : State) (a b w : Nat) :
    (interleave (lanesOf w) [s.lanes a w, s.lanes b w]).length = 2 * lanesOf w ∧
      ∀ n, n < 2 * lanesOf w → (interleave (lanesOf w) [s.lanes a w, s.lanes b w]).getD n 0 = s.lane (if n % 2 = 0 then a else b) w (n / 2) := by
  obtain ⟨hlen, hget⟩ := interleave_spec (g := 2) (lanesOf w) (fun j => s.lanes (if j = 0 then a else b) w) fun j _ => lanes_length s _ w
  exact ⟨hlen, fun n hn => (hget n hn).trans (lanes_getD s _ w (by omega))⟩

/-- The lanes of two registers, one register after the other. -/
theorem lanes_append_getD (s : State) (a b w : Nat) {n : Nat} (hn : n < 2 * lanesOf w) :
    (s.lanes a w ++ s.lanes b w).getD n 0 = if n < lanesOf w then s.lane a w n else s.lane b w (n - lanesOf w) := by
  have hlen := lanes_length s a w
  split
  case isTrue hlt => rw [List.getD_append _ _ _ _ (by rw [hlen]; exact hlt), lanes_getD s a w hlt]
  case isFalse hge => rw [List.getD_append_right _ _ _ _ (by omega), hlen, lanes_getD s b w (by omega)]

theorem lgMask_lane {f : Nat} (hf : tAny f = true) (s : State) (r n : Nat) :
    lgMask f (s.lane r (fmtWidth f) n) % 2 ^ fmtWidth f = if isLg f then s.lane r (fmtWidth f) n % 64 else s.lane r (fmtWidth f) n := by
  have hlt : s.lane r (fmtWidth f) n < 2 ^ fmtWidth f := Nat.mod_lt _ (Nat.two_pow_pos _)
  rw [lgMask_of_tAny hf]
  split
  · exact Nat.mod_eq_of_lt (Nat.lt_of_le_of_lt (Nat.mod_le _ _) hlt)
  · exact Nat.mod_eq_of_lt hlt

section
variable {s : State} (h : s.onVector) {g : Guard} {d : BitVec 6}
include h

/-- A word that copies two lists of lanes to the registers vd and vd + 1 under the guard, each list from registers before the word. -/
theorem copiesPair {i : Instr} {w : Nat} {xs ys : List Nat} {f f' : Nat → Nat} (heven : d.toNat % 2 = 0)
    (hi : exec i s = s.vector (.ok ((s.writeLanes d.toNat w (copyLanes (s.active g) (s.lanes d.toNat w) xs)).writeLanes (d.toNat + 1) w
      (copyLanes (s.active g) (s.lanes (d.toNat + 1) w) ys)).retireV))
    (hxs : lanesOf w ≤ xs.length) (hys : lanesOf w ≤ ys.length)
    (hf : ∀ j, j < lanesOf w → xs.getD j 0 % 2 ^ w = f j) (hf' : ∀ j, j < lanesOf w → ys.getD j 0 % 2 ^ w = f' j) :
    ∃ t, exec i s = .next t ∧ RetiredV s t (fun r => r ≠ d.toNat ∧ r ≠ d.toNat + 1) 0 ∧
      ∀ j, j < lanesOf w → t.lane d.toNat w j = (if (s.active g).testBit j then f j else s.lane d.toNat w j) ∧
        t.lane (d.toNat + 1) w j = (if (s.active g).testBit j then f' j else s.lane (d.toNat + 1) w j) := by
  have hd : d.toNat + 1 < 64 := by have := d.isLt; omega
  have hfirst := State.writeV_keepsPc h d.toNat (pack w (copyLanes (s.active g) (s.lanes d.toNat w) xs))
  have hon := hfirst.onVector h
  have hboth := hfirst.trans (fb := Bay.takeVreg) (fj := Jointer.takeVreg) h
    (State.writeV_keepsPc hon (d.toNat + 1) (pack w (copyLanes (s.active g) (s.lanes (d.toNat + 1) w) ys))) (fun _ _ _ => rfl) (fun _ _ _ => rfl)
  have ht := retiredFrom_retireV (hboth.onVector h)
  refine ⟨_, hi.trans (State.vector_ok h rfl), retiredV_of h hboth ht fun r hr hout => ?_, fun j hj => ⟨?_, ?_⟩⟩
  · rw [State.readV_writeV hon hd hr, if_neg hout.2, State.readV_writeV h d.isLt hr, if_neg hout.1]
  · refine (ht.lane _ _ _).trans ?_
    rw [← State.writeLanes, State.lane_writeLanes hon hd d.isLt hj, if_neg (by omega), ← State.writeLanes,
      State.lane_writeLanes h d.isLt d.isLt hj, if_pos rfl, copyLanes_lane s _ _ _ hxs hj, hf j hj]
  · refine (ht.lane _ _ _).trans ?_
    rw [← State.writeLanes, State.lane_writeLanes hon hd hd hj, if_pos rfl, copyLanes_lane s _ _ _ hys hj, hf' j hj]

variable (hty : tAny s.vty = true) (heven : d.toNat % 2 = 0)
include hty heven

theorem vzip_writes {a b : BitVec 6} :
    let w := fmtWidth s.vty
    let z := fun i => if isLg s.vty then s.lane (if i % 2 = 0 then a.toNat else b.toNat) w (i / 2) % 64
      else s.lane (if i % 2 = 0 then a.toNat else b.toNat) w (i / 2)
    ∃ t, exec (.vzip g d a b) s = .next t ∧ RetiredV s t (fun r => r ≠ d.toNat ∧ r ≠ d.toNat + 1) 0 ∧
      ∀ j, j < lanesOf w → t.lane d.toNat w j = (if (s.active g).testBit j then z j else s.lane d.toNat w j) ∧
        t.lane (d.toNat + 1) w j = (if (s.active g).testBit j then z (lanesOf w + j) else s.lane (d.toNat + 1) w j) := by
  intro w z
  obtain ⟨hlen, hget⟩ := interleave_lanes s a.toNat b.toNat w
  have hx : ∀ n, n < 2 * lanesOf w →
      ((interleave (lanesOf w) [s.lanes a.toNat w, s.lanes b.toNat w]).map (lgMask s.vty)).getD n 0 % 2 ^ w = z n := fun n hn => by
    rw [getD_map_lgMask, hget n hn, lgMask_lane hty]
  refine copiesPair (xs := ((interleave (lanesOf w) [s.lanes a.toNat w, s.lanes b.toNat w]).map (lgMask s.vty)).take (lanesOf w))
    (ys := ((interleave (lanesOf w) [s.lanes a.toNat w, s.lanes b.toNat w]).map (lgMask s.vty)).drop (lanesOf w)) h heven ?_ ?_ ?_
    (fun j hj => ?_) fun j hj => ?_
  · refine congrArg s.vector (a₁ := zipWord g d a b s) ?_
    simp only [zipWord, alignE_ok heven, State.typeE, hty, guardE, if_true]
    rfl
  · rw [List.length_take, List.length_map, hlen]
    omega
  · rw [List.length_drop, List.length_map, hlen]
    omega
  · rw [← hx j (by omega)]
    simp only [List.getD_eq_getElem?_getD, List.getElem?_take, if_pos hj]
  · rw [← hx (lanesOf w + j) (by omega)]
    simp only [List.getD_eq_getElem?_getD, List.getElem?_drop]

theorem vunzip_writes {a : BitVec 6} (ha : a.toNat % 2 = 0) :
    let w := fmtWidth s.vty
    let n := lanesOf w
    let u := fun i => if isLg s.vty then (if i < n then s.lane a.toNat w i else s.lane (a.toNat + 1) w (i - n)) % 64
      else if i < n then s.lane a.toNat w i else s.lane (a.toNat + 1) w (i - n)
    ∃ t, exec (.vunzip g d a) s = .next t ∧ RetiredV s t (fun r => r ≠ d.toNat ∧ r ≠ d.toNat + 1) 0 ∧
      ∀ j, j < n → t.lane d.toNat w j = (if (s.active g).testBit j then u (2 * j) else s.lane d.toNat w j) ∧
        t.lane (d.toNat + 1) w j = (if (s.active g).testBit j then u (2 * j + 1) else s.lane (d.toNat + 1) w j) := by
  intro w n u
  have hx : ∀ i, i < 2 * n → ((s.lanes a.toNat w ++ s.lanes (a.toNat + 1) w).map (lgMask s.vty)).getD i 0 % 2 ^ w = u i := fun i hi => by
    rw [getD_map_lgMask, lanes_append_getD s _ _ w hi]
    by_cases hlt : i < lanesOf w
    · simp only [n, u, if_pos hlt]
      exact lgMask_lane hty s _ _
    · simp only [n, u, if_neg hlt]
      exact lgMask_lane hty s _ _
  obtain ⟨hevens, hodds⟩ := every_two_length ((s.lanes a.toNat w ++ s.lanes (a.toNat + 1) w).map (lgMask s.vty))
  rw [List.length_map, List.length_append, lanes_length, lanes_length] at hevens hodds
  refine copiesPair (xs := every 2 0 ((s.lanes a.toNat w ++ s.lanes (a.toNat + 1) w).map (lgMask s.vty)))
    (ys := every 2 1 ((s.lanes a.toNat w ++ s.lanes (a.toNat + 1) w).map (lgMask s.vty))) h heven ?_ ?_ ?_
    (fun j hj => ?_) fun j hj => ?_
  · refine congrArg s.vector (a₁ := unzipWord g d a s) ?_
    simp only [unzipWord, alignE_ok heven, alignE_ok ha, State.typeE, hty, guardE, if_true]
    rfl
  · omega
  · omega
  · rw [every_getD Nat.two_pos, Nat.zero_add, hx _ (Nat.mul_lt_mul_of_pos_left hj Nat.two_pos)]
  · rw [every_getD Nat.two_pos, Nat.add_comm 1, hx _ (by omega)]

end

theorem vzip_odd {s : State} (h : s.onVector) {g : Guard} {d a b : BitVec 6} (hd : d.toNat % 2 = 1) :
    exec (.vzip g d a b) s = s.raise { cause := 0x0B } := by
  have hw : zipWord g d a b s = .error (trapC 0x0B) := by simp only [zipWord, alignE_odd hd]
  exact (congrArg s.vector hw).trans (State.vector_trap h _)

theorem vunzip_odd {s : State} (h : s.onVector) {g : Guard} {d a : BitVec 6} (hodd : d.toNat % 2 = 1 ∨ a.toNat % 2 = 1) :
    exec (.vunzip g d a) s = s.raise { cause := 0x0B } := by
  have hw : unzipWord g d a s = .error (trapC 0x0B) := by
    obtain hd | hd := Nat.mod_two_eq_zero_or_one d.toNat
    · simp only [unzipWord, alignE_ok hd, alignE_odd (hodd.resolve_left (by omega))]
    · simp only [unzipWord, alignE_odd hd]
  exact (congrArg s.vector hw).trans (State.vector_trap h _)

/-- Settles O16: each reduction and scan by its word, and the pair that VZIP and VUNZIP write by the lists that they copy. The flags of a scan are those
of every node, an inactive lane's too (log 114), and under SR a node's random bits are those of the lane of its result (log 15). -/
theorem vectorAcross : Obligations.VectorAcross := by
  unfold Obligations.VectorAcross
  refine ⟨?_, fun s g d a b h hty => ⟨fun hd => vzip_writes h hty hd, fun hd ha => vunzip_writes h hty hd ha,
    fun hd => ⟨vzip_odd h hd, vunzip_odd h (.inl hd)⟩, fun ha => vunzip_odd h (.inr ha)⟩⟩
  refine fun s g d a h hty => ⟨fun i k hi => ?_, fun i ex hi => ?_⟩
  · simp only [List.mem_cons, List.not_mem_nil, or_false, Prod.mk.injEq] at hi
    obtain ⟨rfl, rfl⟩ | ⟨rfl, rfl⟩ | ⟨rfl, rfl⟩ := hi
    · exact reduceWord_writes h hty rfl
    · exact reduceWord_writes h hty rfl
    · exact reduceWord_writes h hty rfl
  · simp only [List.mem_cons, List.not_mem_nil, or_false, Prod.mk.injEq] at hi
    obtain ⟨rfl, rfl⟩ | ⟨rfl, rfl⟩ := hi
    · exact scanWord_writes h hty rfl
    · exact scanWord_writes h hty rfl

end Sys2Proof.Machine
end

section
/-! Reads of placed bytes (R208, R224, R227): a read may commit pending writes of SHARED granules, and changes nothing else. -/

namespace Sys2Proof.Machine

/-- The states differ in the granules' versions at most. -/
def OnlyMeta (s t : State) : Prop := ∃ m, t = { s with meta_ := m }

theorem OnlyMeta.refl (s : State) : OnlyMeta s s := ⟨s.meta_, rfl⟩

theorem OnlyMeta.trans {s u t : State} (h₁ : OnlyMeta s u) (h₂ : OnlyMeta u t) : OnlyMeta s t := by
  obtain ⟨m, rfl⟩ := h₁
  obtain ⟨n, rfl⟩ := h₂
  exact ⟨n, rfl⟩

/-- What reads only other fields is the same in both states. -/
theorem OnlyMeta.same {α : Type} {s t : State} (h : OnlyMeta s t) (f : State → α) (hf : ∀ m, f { s with meta_ := m } = f s) : f t = f s := by
  obtain ⟨m, rfl⟩ := h
  exact hf m

section
variable {s t : State} (c : Ctx) (v : View)

theorem readSpan_onlyMeta (s : State) (x : Span) : OnlyMeta s (s.readSpan c x).2 := by
  unfold State.readSpan
  split
  · exact ⟨_, rfl⟩
  · exact OnlyMeta.refl s

theorem readSpans_onlyMeta : ∀ (l : List Span) (s : State), OnlyMeta s (s.readSpans c l).2
  | [], s => OnlyMeta.refl s
  | x :: l, s => (readSpan_onlyMeta c s x).trans (readSpans_onlyMeta l _)

theorem seqSpans_onlyMeta (b : Nat) : ∀ (l : List Span) (s : State), OnlyMeta s (s.seqSpans b l).2
  | [], s => OnlyMeta.refl s
  | x :: l, s => (readSpan_onlyMeta (s.bayCtx b) s x).trans (seqSpans_onlyMeta b l _)

theorem readElems_onlyMeta : ∀ (l : List (List Nat × List Span)) (s : State), OnlyMeta s (s.readElems c v l).2
  | [], s => OnlyMeta.refl s
  | (_, l) :: t, s => (readSpans_onlyMeta c l s).trans (readElems_onlyMeta t _)

variable {slot : Nat} {spaces : Spaces}

theorem readIndex_onlyMeta {i : Int} {x : Nat} (h : s.readIndex c v slot spaces i = .ok (x, t)) : OnlyMeta s t := by
  unfold State.readIndex State.readElem at h
  dsimp only at h
  split at h
  · cases h
  · split at h
    · cases h
    · cases h
      exact readSpans_onlyMeta c _ s

theorem readRun_onlyMeta {o n : Nat} {l : List Byte} (h : s.readRun c v slot spaces o n = .ok (l, t)) : OnlyMeta s t := by
  unfold State.readRun at h
  split at h
  · cases h
  · rename_i spans _
    have hread := readSpans_onlyMeta c spans s
    rwa [Except.ok.inj h] at hread

theorem readScales_onlyMeta : ∀ {is : List Nat} {s t : State} {l : List Byte}, readScales c v slot spaces is s = .ok (l, t) → OnlyMeta s t
  | [], s, t, l, h => by
    cases h
    exact OnlyMeta.refl s
  | i :: is, s, t, l, h => by
    simp only [readScales, bind, Except.bind] at h
    split at h
    · cases h
    · rename_i r hr
      split at h
      · cases h
      · rename_i q hq
        cases h
        exact (readIndex_onlyMeta c v hr).trans (readScales_onlyMeta hq)

theorem payloadOf_onlyMeta {l : List Byte} (h : s.payloadOf c v slot spaces = .ok (l, t)) : OnlyMeta s t := by
  simp only [State.payloadOf, bind, Except.bind] at h
  split at h
  · cases h
  · rename_i r hr
    have helems := readRun_onlyMeta c v hr
    split at h
    · cases h
      exact helems
    · split at h
      · split at h
        · cases h
        · rename_i q hq
          cases h
          exact helems.trans (readRun_onlyMeta c v hq)
      · split at h
        · cases h
        · split at h
          · cases h
          · rename_i q hq
            cases h
            exact helems.trans (readScales_onlyMeta c _ hq)

theorem checkTrailer_onlyMeta (h : s.checkTrailer c v slot spaces = .ok t) : OnlyMeta s t := by
  unfold State.checkTrailer at h
  split at h
  · cases h
    exact OnlyMeta.refl s
  · split at h
    · cases h
    · rename_i hp
      split at h
      · cases h
      · rename_i hr
        split at h
        · cases h
        · cases h
          exact (payloadOf_onlyMeta c v hp).trans (readRun_onlyMeta c v hr)

end

/-! ### Lengths -/

theorem readElems_length (c : Ctx) (v : View) : ∀ (l : List (List Nat × List Span)) (s : State), (s.readElems c v l).1.length = l.length
  | [], _ => rfl
  | (_, _) :: t, _ => congrArg Nat.succ (readElems_length c v t _)

theorem placeElems_length {c : Ctx} {v : View} {slot : Nat} {write : Bool} {spaces : Spaces} {s : State} :
    ∀ {xs : List (List Nat)} {l : List (List Span)}, s.placeElems c v slot write spaces xs = .ok l → l.length = xs.length
  | [], l, h => by
    cases h
    rfl
  | x :: xs, l, h => by
    unfold State.placeElems at h
    split at h
    · cases h
    · split at h
      · cases h
      · rename_i hr
        cases h
        exact congrArg Nat.succ (placeElems_length hr)

end Sys2Proof.Machine
end

section
/-! Loops (R172, R249, R406, R407): what entering a loop and the end of a body change of the acting agent, the checks at entry, and the row pointers of
LOOPR and VLOOPR. -/

namespace Sys2Proof.Machine

/-! ### Agents that have loops -/

/-- A stream of a bay or a jointer acts. -/
def State.hasLoops (s : State) : Prop := (∃ b e, s.cur = .stream b e) ∨ ∃ c p, s.cur = .jointer c p

theorem State.hasLoops_cases {s : State} (h : s.hasLoops) :
    (∃ b, s.cur = .stream b .S) ∨ (∃ b e, e ≠ .S ∧ s.cur = .stream b e) ∨ ∃ c p, s.cur = .jointer c p := by
  obtain ⟨b, e, hc⟩ | hc := h
  · by_cases he : e = .S
    · exact .inl ⟨b, he ▸ hc⟩
    · exact .inr (.inl ⟨b, e, he, hc⟩)
  · exact .inr (.inr hc)

theorem hasLoops_of_onScalar {s : State} (h : s.onScalar) : s.hasLoops :=
  (State.onScalar_cases h).imp (fun ⟨b, hc⟩ => ⟨b, .S, hc⟩) id

theorem hasLoops_congr {s t : State} (hcur : t.cur = s.cur) (h : s.hasLoops) : t.hasLoops := by
  rwa [State.hasLoops, hcur]

/-! ### What a step of a loop changes -/

/-- The acting agent of `t` is that of `s` with the loop counters `lc` at `pc`, and with its scalar and k registers and flags. -/
structure LoopMoved (s t : State) (lc : Tab Loop) (pc : BitVec 16) : Prop where
  lcs : t.lcs = lc
  pc : t.pc = pc
  readS : ∀ r, t.readS r = s.readS r
  readK : ∀ r, t.readK r = s.readK r
  flags : t.flags = s.flags
  rest : t = { s with bays := t.bays, jointers := t.jointers }

theorem LoopMoved.cur {s t : State} {lc : Tab Loop} {pc : BitVec 16} (h : LoopMoved s t lc pc) : t.cur = s.cur := by
  rw [h.rest]

theorem LoopMoved.sameMem {s t : State} {lc : Tab Loop} {pc : BitVec 16} (h : LoopMoved s t lc pc) : SameMem s t := fun _ => by
  rw [h.rest]

theorem LoopMoved.hasLoops {s t : State} {lc : Tab Loop} {pc : BitVec 16} (h : LoopMoved s t lc pc) (hs : s.hasLoops) : t.hasLoops :=
  hasLoops_congr h.cur hs

theorem LoopMoved.trans {s u t : State} {lc lc' : Tab Loop} {pc pc' : BitVec 16} (h : LoopMoved s u lc pc) (h' : LoopMoved u t lc' pc') :
    LoopMoved s t lc' pc' :=
  ⟨h'.lcs, h'.pc, fun r => (h'.readS r).trans (h.readS r), fun r => (h'.readK r).trans (h.readK r), h'.flags.trans h.flags,
    h'.rest.trans (by rw [h.rest])⟩

/-- What a step of a loop may change of the sequencer's bay, of an engine stream's bay, and of a jointer. -/
def seqLoop (y z : Bay) : Bay :=
  { y with pc := z.pc, adv := z.adv, skip := z.skip, waiting := z.waiting, hold := z.hold, fetched := z.fetched, lc := z.lc, dirty := z.dirty }

def engLoop (e : Eng) (y z : Bay) : Bay :=
  { y.setStream e { y.stream e with
      pc := (z.stream e).pc, adv := (z.stream e).adv, skip := (z.stream e).skip, issued := (z.stream e).issued, fetched := (z.stream e).fetched,
      lc := (z.stream e).lc, ordinal := (z.stream e).ordinal } with
    vshape := z.vshape, dirty := z.dirty }

def jtrLoop (x z : Jointer) : Jointer := { x with pc := z.pc, adv := z.adv, skip := z.skip, lc := z.lc }

section
variable {s : State} {b : Nat}

theorem loopMoved_seq {f : Bay → Bay} {lc : Tab Loop} {pc : BitVec 16} (hc : s.cur = .stream b .S)
    (hf : f (s.bay b) = seqLoop (s.bay b) (f (s.bay b))) (hlc : (f (s.bay b)).lc = lc) (hpc : (f (s.bay b)).pc = pc) :
    LoopMoved s (s.modBay b f) lc pc := by
  have hcur : (s.modBay b f).cur = .stream b .S := hc
  have hbay : (s.modBay b f).bay b = seqLoop (s.bay b) (f (s.bay b)) := (State.modBay_bay_same _ _ _).trans hf
  refine ⟨?_, ?_, fun r => ?_, fun k => ?_, ?_, rfl⟩
  · rw [State.lcs, hcur]
    exact (congrArg Bay.lc (State.modBay_bay_same _ _ _)).trans hlc
  · rw [State.pc_seq hcur, State.modBay_bay_same, hpc]
  · simp only [State.readS, hcur, hc, hbay, seqLoop]
  · simp only [State.readK, hcur, hc, hbay, seqLoop]
  · simp only [State.flags, hcur, hc, hbay, seqLoop]

theorem loopMoved_engine {e : Eng} {f : Bay → Bay} {lc : Tab Loop} {pc : BitVec 16} (he : e ≠ .S) (hc : s.cur = .stream b e)
    (hf : f (s.bay b) = engLoop e (s.bay b) (f (s.bay b))) (hlc : ((f (s.bay b)).stream e).lc = lc) (hpc : ((f (s.bay b)).stream e).pc = pc) :
    LoopMoved s (s.modBay b f) lc pc := by
  have hcur : (s.modBay b f).cur = .stream b e := hc
  have hbay : (s.modBay b f).bay b = engLoop e (s.bay b) (f (s.bay b)) := (State.modBay_bay_same _ _ _).trans hf
  refine ⟨?_, ?_, fun r => ?_, fun k => ?_, ?_, rfl⟩
  · rw [State.lcs_engine he hcur, State.modBay_bay_same, hlc]
  · rw [State.pc_engine he hcur, State.modBay_bay_same, hpc]
  · simp only [State.readS, hcur, hc]
    cases e
    case S => exact absurd rfl he
    all_goals rfl
  · simp only [State.readK, hcur, hc, hbay]
    cases e
    case S => exact absurd rfl he
    all_goals rfl
  · simp only [State.flags, hcur, hc, hbay]
    cases e
    case S => exact absurd rfl he
    all_goals rfl

theorem loopMoved_jtr {c p : Nat} {x : Jointer} {lc : Tab Loop} {pc : BitVec 16} (hc : s.cur = .jointer c p) (hx : x = jtrLoop (s.jtr c p) x)
    (hlc : x.lc = lc) (hpc : x.pc = pc) : LoopMoved s (s.setJtr c p x) lc pc := by
  have hcur : (s.setJtr c p x).cur = .jointer c p := hc
  have hjtr : (s.setJtr c p x).jtr c p = jtrLoop (s.jtr c p) x := (State.setJtr_jtr_same _ _ _ _).trans hx
  refine ⟨?_, ?_, fun r => ?_, fun k => ?_, ?_, rfl⟩
  · rw [State.lcs, hcur]
    exact (congrArg Jointer.lc (State.setJtr_jtr_same _ _ _ _)).trans hlc
  · rw [State.pc, hcur]
    exact (congrArg Jointer.pc (State.setJtr_jtr_same _ _ _ _)).trans hpc
  · simp only [State.readS, hcur, hc, hjtr, jtrLoop]
  · simp only [State.readK, hcur, hc, hjtr, jtrLoop]
  · simp only [State.flags, hcur, hc, hjtr, jtrLoop]

/-! ### The operations -/

/-- The engine stream that acts, with the counters `lc` in place of its own. -/
theorem withLoops_moved {e : Eng} (he : e ≠ .S) (hc : s.cur = .stream b e) (lc : Tab Loop) (i : Nat) :
    LoopMoved s (s.modBay b fun y => (y.setStream e { y.stream e with lc := lc }).mark i) lc ((s.bay b).stream e).pc := by
  apply loopMoved_engine he hc
  all_goals
    cases e
    case S => exact absurd rfl he
    all_goals rfl

theorem setLc_moved (h : s.hasLoops) (j : Nat) (l : Loop) : LoopMoved s (s.setLc j l) (Tab.set {} s.lcs j l) s.pc := by
  obtain ⟨b, hc⟩ | ⟨b, e, he, hc⟩ | ⟨c, p, hc⟩ := State.hasLoops_cases h
  · simp only [State.setLc, State.lcs, State.pc, hc]
    exact loopMoved_seq hc rfl rfl rfl
  · have hset : s.setLc j l =
        s.modBay b fun y => (y.setStream e { y.stream e with lc := Tab.set {} ((s.bay b).stream e).lc j l }).mark (lcMark e j) :=
      (State.setLc_engine he hc j l).trans (State.modBay_congr rfl)
    rw [hset, State.lcs_engine he hc, State.pc_engine he hc]
    exact withLoops_moved he hc _ _
  · simp only [State.setLc, State.lcs, State.pc, hc]
    exact loopMoved_jtr hc rfl rfl rfl

theorem movePc_moved (h : s.hasLoops) (v : BitVec 16) (a : Bool) (q : Nat → Nat) : LoopMoved s (s.movePc v a q) s.lcs v := by
  obtain ⟨b, hc⟩ | ⟨b, e, he, hc⟩ | ⟨c, p, hc⟩ := State.hasLoops_cases h
  · simp only [State.movePc, State.lcs, hc]
    exact loopMoved_seq hc rfl rfl rfl
  · simp only [State.movePc, State.lcs_engine he hc, hc]
    cases e
    case S => exact absurd rfl he
    all_goals exact loopMoved_engine he hc rfl rfl rfl
  · simp only [State.movePc, State.lcs, hc]
    exact loopMoved_jtr hc rfl rfl rfl

theorem bodySkipped_moved (h : s.hasLoops) : LoopMoved s s.bodySkipped s.lcs s.pc := by
  obtain ⟨b, hc⟩ | ⟨b, e, he, hc⟩ | ⟨c, p, hc⟩ := State.hasLoops_cases h
  · simp only [State.bodySkipped, State.lcs, State.pc, hc]
    exact loopMoved_seq hc rfl rfl rfl
  · rw [State.bodySkipped_engine he hc, State.lcs_engine he hc, State.pc_engine he hc]
    cases e
    case S => exact absurd rfl he
    all_goals exact loopMoved_engine he hc rfl rfl rfl
  · simp only [State.bodySkipped, State.lcs, State.pc, hc]
    exact loopMoved_jtr hc rfl rfl rfl

theorem countV_moved (hc : s.cur = .stream b .V) : LoopMoved s s.countV s.lcs s.pc := by
  simp only [State.countV, State.lcs, State.pc, hc]
  exact loopMoved_engine (e := .V) (by decide) hc rfl rfl rfl

theorem setVshape_moved (hc : s.cur = .stream b .V) (x : BitVec 27) : LoopMoved s (s.setVshape x) s.lcs s.pc := by
  simp only [State.setVshape, State.lcs, State.pc, hc]
  exact loopMoved_engine (e := .V) (by decide) hc rfl rfl rfl

/-! ### Entry (R406, R172) -/

/-- Where a word that enters a loop of `n` iterations of `len` words goes. -/
def State.enterPc (s : State) (n len : Nat) : BitVec 16 := if n = 0 then BitVec.ofNat 16 (s.pc.toNat + 4 + 4 * len) else s.pc + 4

/-- The loop counters after the word. -/
def State.enterLcs (s : State) (j n len : Nat) (idx st : Word) : Tab Loop :=
  if n = 0 then s.lcs
  else Tab.set {} s.lcs j { rem := BitVec.ofNat 32 (n - 1), len := BitVec.ofNat 8 len, start := s.pc + 4, active := true, idx := idx, step := st }

theorem loopEnter_moved (h : s.hasLoops) (j n len : Nat) (idx st : Word) :
    LoopMoved s (loopEnter j n len idx st s) (s.enterLcs j n len idx st) (s.enterPc n len) := by
  by_cases hn : n = 0
  · simp only [loopEnter, State.enterLcs, State.enterPc, if_pos hn]
    split
    case isTrue hend =>
      have hskip := movePc_moved h 0 true fun n => if true then n - 4 else 0
      have hafter := bodySkipped_moved (hskip.hasLoops h)
      rw [hskip.lcs, hskip.pc] at hafter
      rw [hend]
      exact hskip.trans hafter
    case isFalse => exact movePc_moved h _ _ _
  · simp only [loopEnter, State.enterLcs, State.enterPc, if_neg hn]
    have hset := setLc_moved h j { rem := BitVec.ofNat 32 (n - 1), len := BitVec.ofNat 8 len, start := s.pc + 4, active := true, idx := idx, step := st }
    have hnext := movePc_moved (hset.hasLoops h) (s.pc + 4) true fun n => if true then n - 4 else 0
    rw [hset.lcs] at hnext
    rw [State.retire, hset.pc]
    exact hset.trans hnext

theorem vloopEnter_moved (hc : s.cur = .stream b .V) (j n len : Nat) :
    LoopMoved s (vloopEnter j n len s) (s.enterLcs j n len 0 1) (s.enterPc n len) := by
  have hfill := setVshape_moved hc (s.vshape &&& 0x0FFFFFF)
  have henter := loopEnter_moved (s := s.setVshape (s.vshape &&& 0x0FFFFFF)) (hasLoops_congr hfill.cur (.inl ⟨b, .V, hc⟩)) j n len 0 1
  have hcount := countV_moved ((henter.cur.trans hfill.cur).trans hc)
  rw [State.enterLcs, State.enterPc, hfill.lcs, hfill.pc, ← State.enterLcs, ← State.enterPc] at henter
  rw [henter.lcs, henter.pc] at hcount
  exact (hfill.trans henter).trans hcount

/-- Of a scalar agent a loop word changes the loop counters and what every word does. -/
theorem loopEnter_onlyActor (h : s.onScalar) (j n len : Nat) (idx st : Word) :
    OnlyActor s (loopEnter j n len idx st s) (fun y z => seqMoves { y with lc := z.lc } z) fun x z => jtrMoves { x with lc := z.lc } z := by
  obtain ⟨b, hc⟩ | ⟨c, p, hc⟩ := State.onScalar_cases h
  · obtain ⟨f, hf, hbay⟩ : ∃ f, loopEnter j n len idx st s = s.modBay b f ∧
        f (s.bay b) = seqMoves { s.bay b with lc := (f (s.bay b)).lc } (f (s.bay b)) := by
      unfold loopEnter
      dsimp only
      split
      · split
        · simp only [State.setPc_seq hc, State.bodySkipped, State.modBay_cur, hc, State.modBay_modBay]
          exact ⟨_, rfl, rfl⟩
        · rw [State.setPc_seq hc]
          exact ⟨_, rfl, rfl⟩
      · simp only [State.setLc, hc]
        rw [State.modBay_retire_seq hc rfl]
        exact ⟨_, rfl, rfl⟩
    rw [hf]
    refine OnlyActor.stream hc rfl (fun c hne => State.modBay_bay_ne _ _ _ hne) ?_
    rw [State.modBay_bay_same]
    exact hbay
  · obtain ⟨x, hx, hjtr⟩ : ∃ x, loopEnter j n len idx st s = s.setJtr c p x ∧ x = jtrMoves { s.jtr c p with lc := x.lc } x := by
      unfold loopEnter
      dsimp only
      split
      · split
        · simp only [State.setPc_jtr hc, State.bodySkipped, State.setJtr_cur, hc, State.setJtr_setJtr, State.setJtr_jtr_same]
          exact ⟨_, rfl, rfl⟩
        · rw [State.setPc_jtr hc]
          exact ⟨_, rfl, rfl⟩
      · simp only [State.setLc, hc, State.retire]
        rw [State.setPc_jtr (s := s.setJtr c p _) hc, State.setJtr_setJtr, State.setJtr_jtr_same]
        exact ⟨_, rfl, rfl⟩
    rw [hx]
    refine OnlyActor.jointer hc rfl (fun k hk => State.setJtr_get_ne _ _ _ _ hk) ?_
    rw [State.setJtr_jtr_same]
    exact hjtr

/-- What the entry of a vector loop changes of its bay (R172). -/
def vloopMoves (y z : Bay) : Bay := vecMoves { y with vshape := y.vshape &&& 0x0FFFFFF, v := { y.v with lc := z.v.lc } } z

theorem setVshape_masked (hc : s.cur = .stream b .V) (x : BitVec 27) :
    s.setVshape (s.vshape &&& x) = s.modBay b fun y => { y with vshape := y.vshape &&& x }.mark 232 := by
  simp only [State.setVshape, State.vshape, hc]
  rfl

/-- What a VLOOP does to its bay, from what the entry `g` of its loop does. -/
theorem vloopEnter_eq_modBay (hc : s.cur = .stream b .V) {j n len : Nat} {g : Bay → Bay}
    (hg : loopEnter j n len 0 1 (s.setVshape (s.vshape &&& 0x0FFFFFF)) = (s.setVshape (s.vshape &&& 0x0FFFFFF)).modBay b g) :
    vloopEnter j n len s = s.modBay b fun y => (fun z : Bay => { z with v := { z.v with ordinal := z.v.ordinal + 1 } })
      (g ({ y with vshape := y.vshape &&& 0x0FFFFFF }.mark 232)) := by
  have hu : (s.setVshape (s.vshape &&& 0x0FFFFFF)).cur = .stream b .V := (setVshape_moved hc _).cur.trans hc
  rw [vloopEnter, hg, State.countV, State.modBay_cur, hu]
  dsimp only
  rw [setVshape_masked hc, State.modBay_modBay, State.modStream, State.modBay_modBay]
  rfl

theorem vloopMoves_of_loopMoves {y z : Bay} (hz : z = loopMoves .V ({ y with vshape := y.vshape &&& 0x0FFFFFF }.mark 232) z) :
    ({ z with v := { z.v with ordinal := z.v.ordinal + 1 } } : Bay) =
      vloopMoves y { z with v := { z.v with ordinal := z.v.ordinal + 1 } } := by
  rw [hz]
  rfl

theorem vloopEnter_onlyActor (hc : s.cur = .stream b .V) (j n len : Nat) (fj : Jointer → Jointer → Jointer) :
    OnlyActor s (vloopEnter j n len s) vloopMoves fj := by
  have hu : (s.setVshape (s.vshape &&& 0x0FFFFFF)).cur = .stream b .V := (setVshape_moved hc _).cur.trans hc
  obtain ⟨g, hg, hrest⟩ : ∃ g, loopEnter j n len 0 1 (s.setVshape (s.vshape &&& 0x0FFFFFF)) = (s.setVshape (s.vshape &&& 0x0FFFFFF)).modBay b g ∧
      g ((s.setVshape (s.vshape &&& 0x0FFFFFF)).bay b) =
        loopMoves .V ((s.setVshape (s.vshape &&& 0x0FFFFFF)).bay b) (g ((s.setVshape (s.vshape &&& 0x0FFFFFF)).bay b)) := by
    by_cases hn : n = 0
    · subst hn
      obtain ⟨g, hg, hat⟩ := loopEnter_skips (e := .V) (by decide) hu j len 0 1
      exact ⟨g, hg, hat.rest⟩
    · obtain ⟨g, hg, hat⟩ := loopEnter_runs (e := .V) (by decide) hu j hn len 0 1
      exact ⟨g, hg, hat.rest⟩
  have hbay : (s.setVshape (s.vshape &&& 0x0FFFFFF)).bay b = { s.bay b with vshape := (s.bay b).vshape &&& 0x0FFFFFF }.mark 232 := by
    rw [setVshape_masked hc, State.modBay_bay_same]
  rw [hbay] at hrest
  rw [vloopEnter_eq_modBay hc hg]
  refine OnlyActor.stream hc rfl (fun c hne => State.modBay_bay_ne _ _ _ hne) ?_
  rw [State.modBay_bay_same]
  exact vloopMoves_of_loopMoves hrest

/-- A word that enters a loop, from what it moves and what it leaves. -/
theorem entersLoop_of {i : Instr} {t : State} {j n len : Nat} {idx st : Word} {fb : Bay → Bay → Bay} {fj : Jointer → Jointer → Jointer}
    (hi : exec i s = .next t) (ht : LoopMoved s t (s.enterLcs j n len idx st) (s.enterPc n len)) (hrest : OnlyActor s t fb fj) :
    EntersLoop i s j n len idx st fb fj := by
  refine ⟨t, hi, ht.pc, ?_, fun k hk => ?_, ht.sameMem, hrest⟩
  · rw [ht.lcs, State.enterLcs]
    split
    · rfl
    · rw [Tab.get_set_same]
  · rw [ht.lcs, State.enterLcs]
    split
    · rfl
    · rw [Tab.get_set, if_neg hk]

end

/-! ### Checks at entry -/

/-- The counter is free, the body ends inside the section, and no active loop that `inner` holds of ends before it. -/
def State.loopFits (s : State) (j e : Nat) (inner : Loop → Prop) : Prop :=
  (Tab.get {} s.lcs j).active = false ∧ e ≤ s.codeRange.1 + s.codeRange.2 ∧ ∀ x ∈ s.lcs, x.2.active = true → inner x.2 → e ≤ x.2.stop

theorem guardE_ok_iff {x : Bool} {e : Stop} : guardE x e = .ok () ↔ x = true := by
  cases x <;> simp [guardE]

theorem loopCheck_cases (cause : Nat) (every : Bool) (j len : Nat) (s : State) :
    loopCheck cause every j len s = .ok () ∨ loopCheck cause every j len s = .error (trapC cause) := by
  unfold loopCheck
  dsimp only [guardE]
  split
  · exact .inl rfl
  · exact .inr rfl

theorem loopCheck_ok_iff {s : State} {cause j len : Nat} {every : Bool} {inner : Loop → Prop}
    (hinner : ∀ l : Loop, inner l ↔ every = true ∨ l.start.toNat ≤ s.pc.toNat ∧ s.pc.toNat < l.stop) :
    loopCheck cause every j len s = .ok () ↔ s.loopFits j (s.pc.toNat + 4 + 4 * len) inner := by
  unfold loopCheck State.loopFits
  simp only [guardE_ok_iff, hinner, Bool.and_eq_true, Bool.not_eq_true', decide_eq_true_eq, and_assoc, List.any_eq_false, Bool.or_eq_true, not_and,
    Nat.not_lt]

theorem loopCheck_bad {s : State} {cause j len : Nat} {every : Bool} {inner : Loop → Prop}
    (hinner : ∀ l : Loop, inner l ↔ every = true ∨ l.start.toNat ≤ s.pc.toNat ∧ s.pc.toNat < l.stop)
    (hbad : ¬ s.loopFits j (s.pc.toNat + 4 + 4 * len) inner) : loopCheck cause every j len s = .error (trapC cause) :=
  (loopCheck_cases cause every j len s).resolve_left fun hok => hbad ((loopCheck_ok_iff hinner).mp hok)

/-! ### LOOP, LOOPI, VLOOP and VLOOPI -/

section
variable {s : State} {j n len : Nat} {idx st : Word} {i : Instr} {cause : Nat}

/-- A word of a scalar agent that enters a loop once its entry is checked. -/
theorem scalarLoop_enters (h : s.onScalar) (hok : loopCheck cause false j len s = .ok ())
    (hi : exec i s = s.scalar (do loopCheck cause false j len s; return loopEnter j n len idx st s)) :
    EntersLoop i s j n len idx st (fun y z => seqMoves { y with lc := z.lc } z) fun x z => jtrMoves { x with lc := z.lc } z := by
  rw [hok] at hi
  exact entersLoop_of (hi.trans (State.scalar_ok h rfl)) (loopEnter_moved (hasLoops_of_onScalar h) j n len idx st) (loopEnter_onlyActor h j n len idx st)

theorem scalar_trap (h : s.onScalar) (c : Nat) : s.scalar (.error (trapC c)) = s.raise { cause := BitVec.ofNat 8 c } :=
  State.scalar_eq_finish h _

theorem scalarLoop_bad {f : Except Stop State} (h : s.onScalar) (hf : f = .error (trapC 0x02)) : s.scalar f = s.raise { cause := 0x02 } := by
  rw [hf]
  exact scalar_trap h _

theorem loopStrided_zero {c : BitVec 2} {a b : BitVec 5} {len : BitVec 8} (hst : s.readS (b + 1) = 0) :
    loopStrided c a b len s = .error (trapC 0xA2) := by
  simp only [loopStrided, hst]
  rfl

theorem loopStrided_step {c : BitVec 2} {a b : BitVec 5} {len : BitVec 8} (hst : s.readS (b + 1) ≠ 0) :
    loopStrided c a b len s =
      (do guardE (decide (strideCount (s.readS a).toInt (s.readS b).toInt (s.readS (b + 1)).toInt < 2 ^ 32)) (trapC 0x02)
          loopCheck 0x02 false c.toNat len.toNat s
          return loopEnter c.toNat (strideCount (s.readS a).toInt (s.readS b).toInt (s.readS (b + 1)).toInt) len.toNat (s.readS a) (s.readS (b + 1)) s) := by
  have hne : (s.readS (b + 1) != 0) = true := bne_iff_ne.mpr hst
  simp only [loopStrided, hne]
  rfl

theorem loopStrided_bad {c : BitVec 2} {a b : BitVec 5} {len : BitVec 8} (hst : s.readS (b + 1) ≠ 0)
    (hbad : loopCheck 0x02 false c.toNat len.toNat s = .error (trapC 0x02)) : loopStrided c a b len s = .error (trapC 0x02) := by
  rw [loopStrided_step hst, hbad, guardE]
  split <;> rfl

theorem vectorLoop_enters {b : Nat} (hc : s.cur = .stream b .V) {fj : Jointer → Jointer → Jointer}
    (hi : exec i s = .next (vloopEnter j n len s)) : EntersLoop i s j n len 0 1 vloopMoves fj :=
  entersLoop_of hi (vloopEnter_moved hc j n len) (vloopEnter_onlyActor hc j n len fj)

end

/-! ### The end of a body (R172, R249, R407) -/

/-- The loop is active and its body ends at `pc`. -/
def Loop.endsAt (l : Loop) (pc : Nat) : Prop := l.active = true ∧ l.stop = pc

theorem Tab.get_of_mem {α : Type} (d : α) {k : Nat} {v : α} : ∀ {l : Tab α}, l.Pairwise (fun x y => x.1 ≠ y.1) → (k, v) ∈ l → Tab.get d l k = v
  | (k', v') :: t, hl, hmem => by
    obtain ⟨hne, ht⟩ := List.pairwise_cons.mp hl
    obtain heq | hmem := List.mem_cons.mp hmem
    · obtain ⟨rfl, rfl⟩ := Prod.mk.inj heq
      rw [Tab.get, if_pos rfl]
    · rw [Tab.get, if_neg (hne _ hmem).symm, Tab.get_of_mem d ht hmem]

theorem Tab.mem_of_get {α : Type} {d : α} {k : Nat} : ∀ {l : Tab α}, Tab.get d l k ≠ d → (k, Tab.get d l k) ∈ l
  | [], h => absurd rfl h
  | (k', v') :: t, h => by
    rw [Tab.get] at h ⊢
    split
    case isTrue hk => exact hk ▸ List.mem_cons_self
    case isFalse hk => exact List.mem_cons_of_mem _ (Tab.mem_of_get (by rwa [if_neg hk] at h))

/-- What a write of one key leaves listed. -/
theorem Tab.mem_set {α : Type} [DecidableEq α] {d v : α} {k : Nat} {l : Tab α} {x : Nat × α} (h : x ∈ Tab.set d l k v) :
    x = (k, v) ∨ x ∈ l ∧ x.1 ≠ k := by
  unfold Tab.set at h
  split at h
  · exact .inr (Tab.mem_erase h)
  · exact (Tab.mem_insert h).imp id Tab.mem_erase

/-- The loop that ends here, of those in a table without a key listed twice. -/
theorem mem_iff_endsAt {lc : Tab Loop} (hl : lc.Pairwise (fun x y => x.1 ≠ y.1)) {j pc : Nat} {l : Loop} (hends : l.endsAt pc) :
    (j, l) ∈ lc ↔ Tab.get {} lc j = l := by
  refine ⟨Tab.get_of_mem {} hl, ?_⟩
  rintro rfl
  refine Tab.mem_of_get fun hnone => ?_
  have hactive := hends.1
  rw [hnone] at hactive
  cases hactive

theorem innermost_none {pc : Nat} : ∀ {lc : Tab Loop}, innermost pc lc = none ↔ ∀ x ∈ lc, ¬ x.2.endsAt pc
  | [] => by simp [innermost]
  | (j, l) :: t => by
    have ih := innermost_none (pc := pc) (lc := t)
    rw [innermost, List.forall_mem_cons, ← ih]
    split
    case isTrue hl =>
      have hends : l.endsAt pc := by simpa [Loop.endsAt] using hl
      refine iff_of_false ?_ fun h => h.1 hends
      split
      · split <;> exact nofun
      · exact nofun
    case isFalse hl =>
      have hnot : ¬ l.endsAt pc := by simpa [Loop.endsAt] using hl
      exact ⟨fun h => ⟨hnot, h⟩, fun h => h.2⟩

/-- The loop found ends here, and none that ends here starts later. -/
theorem innermost_some {pc : Nat} : ∀ {lc : Tab Loop} {x : Nat × Loop}, innermost pc lc = some x →
    x ∈ lc ∧ x.2.endsAt pc ∧ ∀ y ∈ lc, y.2.endsAt pc → y.2.start.toNat ≤ x.2.start.toNat
  | (j, l) :: t, x, h => by
    rw [innermost] at h
    split at h
    case isTrue hl =>
      have hends : l.endsAt pc := by simpa [Loop.endsAt] using hl
      split at h
      next i m hrest =>
        obtain ⟨hmem, hm, hlast⟩ := innermost_some hrest
        split at h
        case isTrue hlt =>
          obtain rfl := Option.some.inj h
          exact ⟨List.mem_cons_of_mem _ hmem, hm, List.forall_mem_cons.mpr ⟨fun _ => hlt.le, hlast⟩⟩
        case isFalse hge =>
          obtain rfl := Option.some.inj h
          exact ⟨List.mem_cons_self, hends, List.forall_mem_cons.mpr ⟨fun _ => le_rfl, fun y hy hye => (hlast y hy hye).trans (Nat.not_lt.mp hge)⟩⟩
      next hrest =>
        obtain rfl := Option.some.inj h
        exact ⟨List.mem_cons_self, hends, List.forall_mem_cons.mpr ⟨fun _ => le_rfl, fun y hy hye => absurd hye (innermost_none.mp hrest y hy)⟩⟩
    case isFalse hl =>
      have hnot : ¬ l.endsAt pc := by simpa [Loop.endsAt] using hl
      obtain ⟨hmem, hx, hlast⟩ := innermost_some h
      exact ⟨List.mem_cons_of_mem _ hmem, hx, List.forall_mem_cons.mpr ⟨fun hends => absurd hends hnot, hlast⟩⟩

/-- A loop that ends here and starts after every other that does. -/
theorem innermost_eq {lc : Tab Loop} (hl : lc.Pairwise (fun x y => x.1 ≠ y.1)) {j pc : Nat} {l : Loop} (hget : Tab.get {} lc j = l)
    (hends : l.endsAt pc) (hlast : ∀ k m, Tab.get {} lc k = m → m.endsAt pc → k ≠ j → m.start.toNat < l.start.toNat) :
    innermost pc lc = some (j, l) := by
  have hmem := (mem_iff_endsAt hl hends).mpr hget
  cases hfound : innermost pc lc with
  | none => exact absurd hends (innermost_none.mp hfound _ hmem)
  | some x =>
    obtain ⟨k, m⟩ := x
    obtain ⟨hx, hxends, hxlast⟩ := innermost_some hfound
    have hm := (mem_iff_endsAt hl hxends).mp hx
    by_cases hk : k = j
    · subst hk
      rw [← hget, hm]
    · exact absurd (hxlast _ hmem hends) (Nat.not_le.mpr (hlast k m hm hxends hk))

section
variable {s : State} (h : s.hasLoops)
include h

theorem exec_loopBodyEnd : exec .loopBodyEnd s = .next (bodyEnd 4 s) := by
  change execLoopBodyEnd s = _
  obtain ⟨b, e, hc⟩ | ⟨c, p, hc⟩ := h
  · rw [execLoopBodyEnd, hc]
  · rw [execLoopBodyEnd, hc]

theorem bodyEnd_none {fuel : Nat} (hnone : innermost (endPc s.pc) s.lcs = none) : LoopMoved s (bodyEnd fuel s) s.lcs s.pc := by
  have hstay : bodyEnd fuel s = s.movePc s.pc true id := by
    cases fuel with
    | zero => rfl
    | succ fuel => rw [bodyEnd, hnone]
  rw [hstay]
  exact movePc_moved h _ _ _

theorem bodyEnd_repeats {fuel j : Nat} {l : Loop} (hin : innermost (endPc s.pc) s.lcs = some (j, l)) (hrem : l.rem ≠ 0) :
    LoopMoved s (bodyEnd (fuel + 1) s) (Tab.set {} s.lcs j { l with rem := l.rem - 1, idx := l.idx + l.step }) l.start := by
  rw [bodyEnd, hin]
  dsimp only
  rw [if_neg hrem]
  have hset := setLc_moved h j { l with rem := l.rem - 1, idx := l.idx + l.step }
  have hback := movePc_moved (hset.hasLoops h) l.start false fun n => if l.len.toNat ≤ 32 then n + 4 * l.len.toNat else 0
  rw [hset.lcs] at hback
  exact hset.trans hback

theorem bodyEnd_ends {fuel j : Nat} {l : Loop} (hin : innermost (endPc s.pc) s.lcs = some (j, l)) (hrem : l.rem = 0)
    (honly : ∀ x ∈ s.lcs, x.2.endsAt (endPc s.pc) → x.1 = j) :
    LoopMoved s (bodyEnd (fuel + 1) s) (Tab.set {} s.lcs j { l with active := false }) s.pc := by
  rw [bodyEnd, hin]
  dsimp only
  rw [if_pos hrem]
  have hset := setLc_moved h j { l with active := false }
  have hnone : innermost (endPc (s.setLc j { l with active := false }).pc) (s.setLc j { l with active := false }).lcs = none := by
    rw [hset.pc, hset.lcs, innermost_none]
    intro x hx hends
    obtain rfl | ⟨hold, hne⟩ := Tab.mem_set hx
    · cases hends.1
    · exact hne (honly x hold hends)
  have hrest := bodyEnd_none (hset.hasLoops h) (fuel := fuel) hnone
  rw [hset.lcs, hset.pc] at hrest
  exact hset.trans hrest

end

/-- What the end of a body leaves beside the program counter and the counters that `out` does not hold. -/
theorem LoopMoved.keeps {s t : State} {lc : Tab Loop} {pc : BitVec 16} (ht : LoopMoved s t lc pc) {out : Nat → Prop}
    (hout : ∀ k, out k → Tab.get {} lc k = Tab.get {} s.lcs k) :
    (∀ k, out k → Tab.get {} t.lcs k = Tab.get {} s.lcs k) ∧ SameMem s t ∧ (∀ r, t.readS r = s.readS r) ∧ (∀ r, t.readK r = s.readK r) ∧
      t.flags = s.flags ∧ t = { s with bays := t.bays, jointers := t.jointers } :=
  ⟨fun k hk => by rw [ht.lcs, hout k hk], ht.sameMem, ht.readS, ht.readK, ht.flags, ht.rest⟩

/-! ### LOOPR and VLOOPR (R172, R406) -/

theorem rowCount_eq (x y : Nat) : rowCount x y = y - x := by
  unfold rowCount
  split <;> omega

section
variable {s t : State} {j len r0 r1 : Nat}

/-- A loop entered after reads, with the trip count of the row pointers. -/
theorem rowLoop_enters {s2 : State} {lc : Tab Loop} (hs2 : OnlyMeta s s2) (ht : LoopMoved s2 t lc (s2.enterPc (r1 - r0) len)) :
    t.pc = (if r1 ≤ r0 then BitVec.ofNat 16 (s.pc.toNat + 4 + 4 * len) else s.pc + 4) ∧ (∀ r, t.readS r = s.readS r) ∧
      (∀ r, t.readK r = s.readK r) ∧ SameMem s t := by
  obtain ⟨m, rfl⟩ := hs2
  refine ⟨?_, ht.readS, ht.readK, ht.sameMem⟩
  rw [ht.pc, State.enterPc]
  exact if_congr Nat.sub_eq_zero_iff_le rfl rfl

variable {s1 s2 : State} {c : BitVec 2} {h : BitVec 4} {v : View}

theorem loopr_ok {b : Nat} {a : BitVec 5} {len : BitVec 8} {x0 x1 : List Nat} {l0 l1 : List Span}
    (hcheck : loopCheck 0x02 false c.toNat len.toNat s = .ok ()) (hview : rowPtrView b h s = .ok v)
    (hfirst : seqPlace b v 0 false spAny (s.readS a).toInt s = .ok (x0, l0))
    (hsecond : seqPlace b v 0 false spAny ((s.readS a).toInt + 1) s = .ok (x1, l1)) :
    loopr b c a h len s = .ok (loopEnter c.toNat (bytesNat ((s.seqSpans b l0).2.seqSpans b l1).1 - bytesNat (s.seqSpans b l0).1) len.toNat 0 1
      ((s.seqSpans b l0).2.seqSpans b l1).2) := by
  rw [← rowCount_eq]
  simp only [loopr, hcheck, hview, bind, Except.bind, hfirst, hsecond]
  rfl

theorem vloopr_ok {b : Nat} {k : BitVec 3} {vl : BitVec 6} (hcheck : loopCheck 0x0A true c.toNat vl.toNat s = .ok ())
    (hview : rowPtrView b h s = .ok v) (hfirst : s.readIndex (s.bayCtx b) v 0 spBay (s.readK k).toInt = .ok (r0, s1))
    (hsecond : s1.readIndex (s1.bayCtx b) v 0 spBay ((s.readK k).toInt + 1) = .ok (r1, s2)) :
    vloopr b k c vl h s = .ok (vloopEnter c.toNat (r1 - r0) vl.toNat s2) := by
  rw [← rowCount_eq]
  simp only [vloopr, hcheck, hview, hfirst, bind, Except.bind, hsecond]
  rfl

theorem jointerLoopr_ok {ch : Nat} {a : BitVec 5} {len : BitVec 8} (hcheck : loopCheck 0x02 false c.toNat len.toNat s = .ok ())
    (hview : s.viewH (s.chainCtx ch) (Config.openValue 19 [0], Config.openValue 19 [1]) = .ok v) (hfmt : v.fmt = 0x0C) (hplain : v.plainE = .ok ())
    (hfirst : s.readIndex (s.chainCtx ch) v 0 spFar (s.readS a).toInt = .ok (r0, s1))
    (hsecond : s1.readIndex (s1.chainCtx ch) v 0 spFar ((s.readS a).toInt + 1) = .ok (r1, s2)) :
    jointerLoopr ch c a len s = .ok (loopEnter c.toNat (r1 - r0) len.toNat 0 1 s2) := by
  rw [← rowCount_eq]
  have hw32 : guardE (v.fmt == 0x0C) (trapT 0x26 v.tid 0 false) = .ok () := guardE_ok_iff.mpr (beq_iff_eq.mpr hfmt)
  simp only [jointerLoopr, hcheck, hview, hw32, hplain, hfirst, bind, Except.bind, hsecond]
  rfl

theorem exec_loopr_seq {b : Nat} {a : BitVec 5} {len : BitVec 8} (hc : s.cur = .stream b .S) :
    exec (.loopr c a h len) s = s.finish (loopr b c a h len s) := by
  change execLoopr c a h len s = _
  rw [execLoopr, hc, State.onSeq_eq hc]

theorem exec_loopr_jointer {ch p : Nat} {a : BitVec 5} {len : BitVec 8} (hc : s.cur = .jointer ch p) :
    exec (.loopr c a h len) s = s.finish (jointerLoopr ch c a len s) := by
  change execLoopr c a h len s = _
  rw [execLoopr, hc]

end

/-- Settles O18: the words that enter a loop by their check and by what the entry moves, the end of a body by the loop that `innermost` finds, and LOOPR
and VLOOPR as entries after the reads of two row pointers. -/
theorem loopsEnterSkipAndEnd : Obligations.LoopsEnterSkipAndEnd := by
  unfold Obligations.LoopsEnterSkipAndEnd
  refine ⟨fun s c a b n15 len k vl vn => ⟨fun hs => ?_, fun bay hc => ?_⟩, fun s hs => ?_,
    fun s s1 s2 b c a h len k vl v x0 x1 l0 l1 r0 r1 => ⟨fun hc => ?_, fun hc => ?_⟩,
    fun s s1 s2 ch p c a h len hw v r0 r1 hc hwords => ⟨?_, fun hbad => ?_⟩⟩
  · have hinner : ∀ l : Loop, (l.start.toNat ≤ s.pc.toNat ∧ s.pc.toNat < l.stop) ↔
        false = true ∨ l.start.toNat ≤ s.pc.toNat ∧ s.pc.toNat < l.stop := by simp
    refine ⟨fun hfits => ?_, fun hmisfit => ?_, fun hst => ?_⟩
    · have hok := (loopCheck_ok_iff (cause := 0x02) hinner).mpr hfits
      refine ⟨scalarLoop_enters hs hok rfl, scalarLoop_enters hs hok rfl, fun hst hn => scalarLoop_enters hs hok ?_⟩
      refine congrArg s.scalar ((loopStrided_step hst).trans ?_)
      rw [guardE_ok_iff.mpr (decide_eq_true hn)]
      rfl
    · have hbad := loopCheck_bad (cause := 0x02) hinner hmisfit
      refine ⟨scalarLoop_bad hs ?_, scalarLoop_bad hs ?_, fun hst => scalarLoop_bad hs (loopStrided_bad hst hbad)⟩
      · rw [hbad]
        rfl
      · rw [hbad]
        rfl
    · exact (congrArg s.scalar (loopStrided_zero hst)).trans (scalar_trap hs _)
  · have hinner : ∀ l : Loop, True ↔ true = true ∨ l.start.toNat ≤ s.pc.toNat ∧ s.pc.toNat < l.stop := by simp
    refine ⟨fun hfits => ?_, fun hmisfit => ?_⟩
    · have hok := (loopCheck_ok_iff (cause := 0x0A) hinner).mpr hfits
      refine ⟨vectorLoop_enters hc ?_, vectorLoop_enters hc ?_⟩
      · refine (State.onVec_eq hc _).trans ?_
        rw [hok]
        rfl
      · refine (State.onVec_eq hc _).trans ?_
        rw [hok]
        rfl
    · have hbad := loopCheck_bad (cause := 0x0A) hinner hmisfit
      refine ⟨(State.onVec_eq hc _).trans ?_, (State.onVec_eq hc _).trans ?_⟩
      · rw [hbad]
        rfl
      · rw [hbad]
        rfl
  · intro ends keeps hkeys
    refine ⟨⟨_, exec_loopBodyEnd hs⟩, fun j l hl hrem hlast => ⟨_, exec_loopBodyEnd hs, ?_⟩, fun j l hl hrem honly => ⟨_, exec_loopBodyEnd hs, ?_⟩,
      fun hnone => ⟨_, exec_loopBodyEnd hs, ?_⟩⟩
    · have ht := bodyEnd_repeats hs (fuel := 3) (innermost_eq hkeys hl.1 hl.2 fun k m hm hends => hlast k m ⟨hm, hends⟩) hrem
      exact ⟨ht.pc, by rw [ht.lcs, Tab.get_set_same], ht.keeps fun k hk => by rw [Tab.get_set, if_neg hk]⟩
    · have hin := innermost_eq hkeys hl.1 hl.2 fun k m hm hends hk => absurd (honly k m ⟨hm, hends⟩) hk
      have ht := bodyEnd_ends hs (fuel := 3) hin hrem fun x hx hends => honly x.1 x.2 ⟨(mem_iff_endsAt hkeys hends).mp hx, hends⟩
      exact ⟨ht.pc, by rw [ht.lcs, Tab.get_set_same], ht.keeps fun k hk => by rw [Tab.get_set, if_neg hk]⟩
    · have ht := bodyEnd_none hs (fuel := 4) (innermost_none.mpr fun x hx hends => hnone x.1 x.2 ⟨(mem_iff_endsAt hkeys hends).mp hx, hends⟩)
      exact ⟨ht.pc, ht.keeps fun _ _ => rfl⟩
  · rintro hcheck hview hfirst hsecond rfl rfl rfl rfl
    have hs2 := (seqSpans_onlyMeta b l0 s).trans (seqSpans_onlyMeta b l1 _)
    have hcur := hs2.same State.cur fun _ => rfl
    obtain ⟨hpc, hreadS, _, hmem⟩ := rowLoop_enters hs2 (loopEnter_moved (.inl ⟨b, .S, hcur.trans hc⟩) c.toNat _ len.toNat 0 1)
    exact ⟨_, (exec_loopr_seq hc).trans (congrArg s.finish (loopr_ok hcheck hview hfirst hsecond)), rfl, hpc, hreadS, hmem⟩
  · intro hcheck hview hfirst hsecond
    have hs2 := (readIndex_onlyMeta _ v hfirst).trans (readIndex_onlyMeta _ v hsecond)
    have hcur := hs2.same State.cur fun _ => rfl
    obtain ⟨hpc, _, hreadK, hmem⟩ := rowLoop_enters hs2 (vloopEnter_moved (hcur.trans hc) c.toNat (r1 - r0) vl.toNat)
    exact ⟨_, (State.onVec_eq hc _).trans (congrArg s.finish (vloopr_ok hcheck hview hfirst hsecond)), rfl, hpc, hreadK, hmem⟩
  · intro hcheck hview hfmt hplain hfirst hsecond
    rw [hwords] at hview
    have hs2 := (readIndex_onlyMeta _ v hfirst).trans (readIndex_onlyMeta _ v hsecond)
    have hcur := hs2.same State.cur fun _ => rfl
    obtain ⟨hpc, hreadS, _, hmem⟩ := rowLoop_enters hs2 (loopEnter_moved (.inr ⟨ch, p, hcur.trans hc⟩) c.toNat (r1 - r0) len.toNat 0 1)
    exact ⟨_, (exec_loopr_jointer hc).trans (congrArg s.finish (jointerLoopr_ok hcheck hview hfmt hplain hfirst hsecond)), rfl, hpc, hreadS, hmem⟩
  · rw [exec_loopr_jointer hc, jointerLoopr, hbad]
    rfl

end Sys2Proof.Machine
end

section
/-! Vector loads and stores (R167 to R169): the bytes that placed writes touch, the lanes that a load writes, and the elements that a store writes. -/

namespace Sys2Proof.Machine

/-! ### What writes of placed bytes change -/

/-- Bytes changed only where the spans `l` touch, and of each bay only its dirty lines and digest. -/
structure WroteSpans (s t : State) (l : List Span) : Prop where
  cur : t.cur = s.cur
  bays : ∀ b, t.bay b = { s.bay b with dirtyLines := (t.bay b).dirtyLines, dlo := (t.bay b).dlo, dhi := (t.bay b).dhi }
  mem : SameMemOut s t l

theorem WroteSpans.refl (s : State) (l : List Span) : WroteSpans s s l := ⟨rfl, fun _ => rfl, fun _ _ => rfl⟩

theorem WroteSpans.trans {s u t : State} {l : List Span} (h₁ : WroteSpans s u l) (h₂ : WroteSpans u t l) : WroteSpans s t l :=
  ⟨h₂.cur.trans h₁.cur, fun b => (h₂.bays b).trans (by rw [h₁.bays b]), fun a ha => (h₂.mem a ha).trans (h₁.mem a ha)⟩

theorem WroteSpans.mono {s t : State} {l l' : List Span} (h : WroteSpans s t l) (hl : l ⊆ l') : WroteSpans s t l' :=
  ⟨h.cur, h.bays, fun a ha => h.mem a fun x hx => ha x (hl hx)⟩

theorem OnlyMeta.wroteSpans {s t : State} (h : OnlyMeta s t) (l : List Span) : WroteSpans s t l := by
  obtain ⟨m, rfl⟩ := h
  exact ⟨rfl, fun _ => rfl, fun _ _ => rfl⟩

theorem wroteSpans_meta (s : State) (m : Tab (BitVec 12)) (j : Tab Nat) (l : List Span) :
    WroteSpans s { s with meta_ := m, metaJob := j } l := ⟨rfl, fun _ => rfl, fun _ _ => rfl⟩

theorem wroteSpans_modBay (s : State) (b : Nat) (l : List Span) {f : Bay → Bay}
    (hf : f (s.bay b) = { s.bay b with dirtyLines := (f (s.bay b)).dirtyLines, dlo := (f (s.bay b)).dlo, dhi := (f (s.bay b)).dhi }) :
    WroteSpans s (s.modBay b f) l := by
  refine ⟨rfl, fun c => ?_, fun _ _ => rfl⟩
  by_cases hc : c = b
  · rw [hc, State.modBay_bay_same]
    exact hf
  · rw [State.modBay_bay_ne _ _ _ hc]

section
variable {s : State} {l : List Span}

theorem dirtyLine_wroteSpans (s : State) (a : Nat) (l : List Span) : WroteSpans s (s.dirtyLine a) l := by
  unfold State.dirtyLine
  split
  · rename_i b n _
    exact wroteSpans_modBay s b l (f := fun y => { y with dirtyLines := addLine y.dirtyLines n }) rfl
  · exact WroteSpans.refl s l

/-- A store of bytes that the spans touch. -/
theorem write_wroteSpans (s : State) {a : Nat} {bs : List Byte} (h : ∀ x, a ≤ x → x < a + bs.length → ∃ y ∈ l, y.touches x) :
    WroteSpans s (s.write a bs) l := by
  obtain ⟨u, hu, hw⟩ : ∃ u, WroteSpans s u l ∧ s.write a bs = { u with mem := Memory.writeBytes u.mem a bs } := by
    unfold State.write
    dsimp only
    split
    · exact ⟨s, WroteSpans.refl s l, rfl⟩
    · exact ⟨_, (dirtyLine_wroteSpans s a l).trans (dirtyLine_wroteSpans _ _ l), rfl⟩
  rw [hw]
  refine hu.trans ⟨rfl, fun _ => rfl, fun x hx => Memory.read_writeBytes_outside bs _ _ _ ?_⟩
  by_contra hin
  obtain ⟨y, hy, ht⟩ := h x (by omega) (by omega)
  exact hx y hy ht

theorem keepShared_wroteSpans (s : State) (n a : Nat) (bs : List Byte) : WroteSpans s (s.keepShared n a bs) l := by
  unfold State.keepShared
  dsimp only
  split
  · exact ⟨rfl, fun _ => rfl, fun _ _ => rfl⟩
  · exact WroteSpans.refl s l

theorem digestGranule_wroteSpans (s : State) (b space tid g mask : Nat) (bs : List Byte) :
    WroteSpans s (s.digestGranule b space tid g mask bs) l := by
  unfold State.digestGranule
  dsimp only
  split
  · exact wroteSpans_modBay s b l (f := fun y => { y with dlo := _, dhi := _ }) rfl
  · exact WroteSpans.refl s l

theorem digestBytes_wroteSpans (s : State) (b tid : Nat) (bs : List (Nat × Nat × Byte)) : WroteSpans s (s.digestBytes b tid bs) l := by
  unfold State.digestBytes
  refine List.foldlRecOn (motive := fun t => WroteSpans s t l) _ _ (WroteSpans.refl s l) fun t ht e _ => ?_
  exact ht.trans (digestGranule_wroteSpans t _ _ _ _ _ _)

end

/-! ### Placed writes -/

theorem readBytes_length (m : Memory) : ∀ (n a : Nat), (Memory.readBytes m a n).length = n
  | 0, _ => rfl
  | n + 1, a => congrArg Nat.succ (readBytes_length m n (a + 1))

theorem Span.touches_plain {x : Span} (h : x.loc.code ≠ 2) {a : Nat} (hlo : x.loc.addr ≤ a) (hhi : a < x.loc.addr + x.n) : x.touches a := by
  rw [Span.touches, if_neg h]
  exact ⟨hlo, hhi⟩

theorem Span.touches_shared {x : Span} (h : x.loc.code = 2) {g a : Nat} (hg : g = x.loc.addr / 32 * 32 ∨ g = x.loc.alt / 32 * 32) (hlo : g ≤ a)
    (hhi : a < g + max 32 (x.loc.addr % 32 + x.n)) : x.touches a := by
  rw [Span.touches, if_pos h]
  exact ⟨g, by simpa using hg, hlo, hhi⟩

/-- The granule of the version that a write of SHARED goes to, and that of the version that stands (R222). -/
def Span.newAt (x : Span) (m : BitVec 12) : Nat := if gCv m then x.loc.addr / 32 * 32 else x.loc.alt / 32 * 32
def Span.oldAt (x : Span) (m : BitVec 12) : Nat := if gCv m then x.loc.alt / 32 * 32 else x.loc.addr / 32 * 32

/-- A granule of SHARED before the first write of phase `q` by bay `me`: the new version begins with the bytes of the one that stands (R222). -/
def State.beginVersion (s : State) (c : Ctx) (x : Span) (q me : Nat) : State :=
  let m := s.meta1 x.loc.addr
  let g := x.loc.addr / 32 * 32
  if gPnd m then s else
    { (s.keepShared c.slot g (s.readBytes g 32)).write (x.newAt m) (s.readBytes (x.oldAt m) 32) with
      meta_ := Tab.set 0 s.meta_ (granuleKey x.loc.addr) (BitVec.ofNat 12 (b2n (gCv m) + 2 + at_ (q % 16) 2 + at_ (me % 64) 6)),
      metaJob := Tab.put s.metaJob (granuleKey x.loc.addr) c.slot }

/-- The write of one span before its digest. -/
def State.putSpan (s : State) (c : Ctx) (x : Span) (bs : List Byte) : State :=
  if x.loc.code = 2 then
    let u := s.commitAt (s.phaseOf c).1 x.loc.addr
    (u.beginVersion c x (s.phaseOf c).1 (s.phaseOf c).2).write (x.newAt (u.meta1 x.loc.addr) + x.loc.addr % 32) bs
  else s.write x.loc.addr bs

theorem writeSpan_eq (s : State) (c : Ctx) (tid : Nat) (x : Span) (bs : List Byte) :
    s.writeSpan c tid x bs = if c.who < 64 then (s.putSpan c x bs).digest c.who x.loc.code tid x.o bs else s.putSpan c x bs := rfl

theorem Span.newAt_cases (x : Span) (m : BitVec 12) : x.newAt m = x.loc.addr / 32 * 32 ∨ x.newAt m = x.loc.alt / 32 * 32 := by
  rw [Span.newAt]
  cases gCv m
  · exact .inr rfl
  · exact .inl rfl

theorem beginVersion_wroteSpans (s : State) (c : Ctx) {x : Span} (hcode : x.loc.code = 2) (q me : Nat) :
    WroteSpans s (s.beginVersion c x q me) [x] := by
  unfold State.beginVersion
  dsimp only
  by_cases hpnd : gPnd (s.meta1 x.loc.addr) = true
  · rw [if_pos hpnd]
    exact WroteSpans.refl s [x]
  · rw [if_neg hpnd]
    have hwrite := write_wroteSpans (l := [x]) (s.keepShared c.slot (x.loc.addr / 32 * 32) (s.readBytes (x.loc.addr / 32 * 32) 32))
      (a := x.newAt (s.meta1 x.loc.addr)) (bs := s.readBytes (x.oldAt (s.meta1 x.loc.addr)) 32) fun a hlo hhi => by
        rw [State.readBytes, readBytes_length] at hhi
        exact ⟨x, List.mem_singleton_self x, Span.touches_shared hcode (x.newAt_cases _) hlo (by omega)⟩
    exact ((keepShared_wroteSpans s _ _ _).trans hwrite).trans (wroteSpans_meta _ _ _ _)

theorem putSpan_wroteSpans (s : State) (c : Ctx) (x : Span) {bs : List Byte} (hbs : bs.length ≤ x.n) : WroteSpans s (s.putSpan c x bs) [x] := by
  unfold State.putSpan
  by_cases hcode : x.loc.code = 2
  · rw [if_pos hcode]
    have hcommit : WroteSpans s (s.commitAt (s.phaseOf c).1 x.loc.addr) [x] := OnlyMeta.wroteSpans ⟨_, rfl⟩ _
    refine (hcommit.trans (beginVersion_wroteSpans _ c hcode _ _)).trans (write_wroteSpans _ fun a hlo hhi => ⟨x, List.mem_singleton_self x, ?_⟩)
    exact Span.touches_shared hcode (x.newAt_cases ((s.commitAt (s.phaseOf c).1 x.loc.addr).meta1 x.loc.addr)) (by omega) (by omega)
  · rw [if_neg hcode]
    exact write_wroteSpans s fun a hlo hhi => ⟨x, List.mem_singleton_self x, Span.touches_plain hcode hlo (by omega)⟩

theorem writeSpan_wroteSpans (s : State) (c : Ctx) (tid : Nat) (x : Span) {bs : List Byte} (hbs : bs.length ≤ x.n) :
    WroteSpans s (s.writeSpan c tid x bs) [x] := by
  have hput := putSpan_wroteSpans s c x hbs
  rw [writeSpan_eq]
  by_cases hwho : c.who < 64
  · rw [if_pos hwho]
    exact hput.trans (digestGranule_wroteSpans _ _ _ _ _ _ _)
  · rw [if_neg hwho]
    exact hput

theorem writeSpans_wroteSpans (c : Ctx) (tid : Nat) : ∀ (l : List Span) (s : State) (bs : List Byte), WroteSpans s (s.writeSpans c tid l bs) l
  | [], s, _ => WroteSpans.refl s []
  | x :: l, s, bs => by
    have hfirst := writeSpan_wroteSpans s c tid x (bs := bs.take x.n) (by rw [List.length_take]; omega)
    exact (hfirst.mono (List.cons_subset_cons x (List.nil_subset l))).trans
      ((writeSpans_wroteSpans c tid l _ (bs.drop x.n)).mono (List.subset_cons_self x l))

section
variable (c : Ctx) (v : View)

theorem writeElem_wroteSpans (s : State) (x : List Nat) (l : List Span) (val : Nat) : WroteSpans s (s.writeElem c v x l val) l := by
  have hread := (readSpans_onlyMeta c l s).wroteSpans l
  unfold State.writeElem
  split
  · exact hread.trans (writeSpans_wroteSpans c v.tid l _ _)
  · split
    · exact hread.trans (writeSpans_wroteSpans c v.tid l _ _)
    · exact writeSpans_wroteSpans c v.tid l s _

theorem putElems_wroteSpans : ∀ (l : List (List Nat × List Span × Nat)) (s : State), WroteSpans s (s.putElems c v l) (l.flatMap fun e => e.2.1)
  | [], s => WroteSpans.refl s []
  | (x, l, val) :: t, s => by
    rw [List.flatMap_cons]
    exact ((writeElem_wroteSpans c v s x l val).mono (List.subset_append_left _ _)).trans
      ((putElems_wroteSpans t _).mono (List.subset_append_right _ _))

theorem writeElems_wroteSpans (s : State) (l : List (List Nat × List Span × Nat)) : WroteSpans s (s.writeElems c v l) (l.flatMap fun e => e.2.1) := by
  have hput := putElems_wroteSpans c v l s
  unfold State.writeElems State.oneWrite
  dsimp only
  split
  · exact hput.trans ((wroteSpans_modBay _ _ _ rfl).trans (digestBytes_wroteSpans _ _ _ _))
  · exact hput

end

/-! ### What a vector store leaves -/

section
variable {s t : State} {b : Nat} {l : List Span}

theorem WroteSpans.readV (h : WroteSpans s t l) (hc : s.cur = .stream b .V) (q : Nat) : t.readV q = s.readV q := by
  simp only [State.readV, State.vshape, h.cur, hc]
  rw [h.bays b]

theorem WroteSpans.readK (h : WroteSpans s t l) (hc : s.cur = .stream b .V) (q : BitVec 3) : t.readK q = s.readK q := by
  simp only [State.readK, h.cur, hc]
  rw [h.bays b]
  rfl

theorem WroteSpans.flags (h : WroteSpans s t l) (hc : s.cur = .stream b .V) : t.flags = s.flags := by
  simp only [State.flags, h.cur, hc]
  rw [h.bays b]
  rfl

theorem WroteSpans.pc (h : WroteSpans s t l) (hc : s.cur = .stream b .V) : t.pc = s.pc := by
  simp only [State.pc, h.cur, hc]
  rw [h.bays b]
  rfl

/-- A store's word retires after its elements have been written. -/
theorem store_leaves (hc : s.cur = .stream b .V) (c : Ctx) (v : View) (es : List (List Nat × List Span × Nat)) :
    let t := (s.writeElems c v es).retireV
    SameMemOut s t (es.flatMap fun e => e.2.1) ∧ (∀ q, t.readV q = s.readV q) ∧ (∀ q, t.readK q = s.readK q) ∧ t.flags = s.flags ∧ t.pc = s.pc + 4 := by
  intro t
  have hw := writeElems_wroteSpans c v s es
  have ht := retiredFrom_retireV (onVector_of_stream (hw.cur.trans hc))
  refine ⟨fun a ha => (ht.rest.sameMem a).trans (hw.mem a ha), fun q => (ht.readV q).trans (hw.readV hc q), fun q => (ht.readK q).trans (hw.readK hc q),
    ?_, ?_⟩
  · exact (ht.flags.trans BitVec.or_zero).trans (hw.flags hc)
  · rw [ht.pc, hw.pc hc]

/-! ### What a vector load leaves -/

/-- A load's word writes the lanes `f` of vd, after reads that may have committed granules, and retires. -/
theorem load_leaves (hc : s.cur = .stream b .V) {u : State} (hu : OnlyMeta s u) (d : BitVec 6) (w : Nat) {xs : List Nat} {f : Nat → Nat}
    (hf : ∀ j, j < lanesOf w → xs.getD j 0 % 2 ^ w = f j) :
    let t := (u.writeLanes d.toNat w xs).retireV
    (∀ j, j < lanesOf w → t.lane d.toNat w j = f j) ∧ (∀ q, q < 64 → q ≠ d.toNat → t.readV q = s.readV q) ∧ t.flags = s.flags ∧ t.pc = s.pc + 4 ∧
      SameMem s t ∧ OnlyReader s t b (fun y z => vecMoves { y with vreg := z.vreg } z) := by
  intro t
  obtain ⟨m, rfl⟩ := hu
  have hcu : State.cur { s with meta_ := m } = .stream b .V := hc
  have hon := onVector_of_stream hcu
  have hkeeps := State.writeV_keepsPc hon d.toNat (pack w xs)
  have ht : RetiredFrom (State.writeLanes { s with meta_ := m } d.toNat w xs) t 0 := retiredFrom_retireV (hkeeps.onVector hon)
  refine ⟨fun j hj => ?_, fun q hq hne => ?_, ?_, ?_, fun a => ?_, ?_⟩
  · rw [ht.lane, State.lane_writeLanes hon d.isLt d.isLt hj, if_pos rfl, hf j hj]
  · rw [ht.readV, State.writeLanes, State.readV_writeV hon d.isLt hq, if_neg hne]
    rfl
  · exact (ht.flags.trans BitVec.or_zero).trans hkeeps.flags
  · rw [ht.pc, State.writeLanes, hkeeps.pc]
    rfl
  · exact (ht.rest.sameMem a).trans (hkeeps.rest.sameMem a)
  · have heq : t = State.modBay { s with meta_ := m } b fun y =>
        (Bay.mark { y with vreg := Tab.set 0 y.vreg (physReg (vsWbase (State.vshape { s with meta_ := m })) d.toNat) (BitVec.ofNat 4096 (pack w xs)) }
          (32 + physReg (vsWbase (State.vshape { s with meta_ := m })) d.toNat)).vecNext (State.pc { s with meta_ := m } + 4) := by
      have hwrite : State.writeLanes { s with meta_ := m } d.toNat w xs = State.modBay { s with meta_ := m } b fun y =>
          Bay.mark { y with vreg := Tab.set 0 y.vreg (physReg (vsWbase (State.vshape { s with meta_ := m })) d.toNat) (BitVec.ofNat 4096 (pack w xs)) }
            (32 + physReg (vsWbase (State.vshape { s with meta_ := m })) d.toNat) := by
        simp only [State.writeLanes, State.writeV, hc]
      change State.retireV (State.writeLanes { s with meta_ := m } d.toNat w xs) = _
      rw [hwrite, State.modBay_retireV hcu rfl]
    rw [heq]
    refine ⟨rfl, fun c hne => State.modBay_bay_ne _ _ _ hne, ?_⟩
    rw [State.modBay_bay_same]
    rfl

end

/-! ### The elements of a run (R168) -/

section
variable {s : State} {b : Nat} {v : View} {slot : Nat} {write : Bool}

theorem placeRun_length_le {x : List Int} {n : Nat} {l : List (List Nat × List Span)} (h : placeRun b v slot write x n s = .ok l) : l.length ≤ n := by
  unfold placeRun at h
  dsimp only at h
  split at h
  · cases h
  · split at h
    · cases h
    · split at h
      · cases h
      · cases h
        rw [List.length_zip, runElems, List.length_map, List.length_range]
        omega

/-- A list with zeros up to `n` places. -/
theorem getD_append_zeros (xs : List Nat) (n j : Nat) : (xs ++ List.replicate (n - xs.length) 0).getD j 0 = xs.getD j 0 := by
  simp only [List.getD_eq_getElem?_getD, List.getElem?_append, List.getElem?_replicate]
  split
  · rfl
  · rename_i hj
    rw [List.getElem?_eq_none (by omega)]
    split <;> rfl

/-! ### The elements that indices name (R169) -/

theorem placeIndexed_length {ix : List (Nat × Nat)} {l : List (List Nat × List Span)} (h : placeIndexed b v slot write ix s = .ok l) :
    l.length = ix.length := by
  unfold placeIndexed at h
  split at h
  · cases h
  · dsimp only at h
    split at h
    · cases h
    · rename_i hplace
      cases h
      rw [List.length_zip, placeElems_length hplace, List.length_map, Nat.min_self]

/-- The lanes that a gather or scatter names rise, are among those given, and are the active ones. -/
theorem mem_activeIndices : ∀ {l : List Nat} {i m : Nat} {e : Nat × Nat}, e ∈ activeIndices i m l →
    i ≤ e.1 ∧ e.1 < i + l.length ∧ m.testBit (e.1 - i) = true
  | [], _, _, _, h => by simp [activeIndices] at h
  | x :: l, i, m, e, h => by
    have hrest : e ∈ activeIndices (i + 1) (m / 2) l → i ≤ e.1 ∧ e.1 < i + (x :: l).length ∧ m.testBit (e.1 - i) = true := fun h => by
      obtain ⟨hlo, hhi, hbit⟩ := mem_activeIndices h
      rw [testBit_succ_div, show e.1 - (i + 1) + 1 = e.1 - i by omega] at hbit
      exact ⟨by omega, by rw [List.length_cons]; omega, hbit⟩
    rw [activeIndices] at h
    split at h
    case isTrue hodd =>
      obtain rfl | h := List.mem_cons.mp h
      · exact ⟨le_rfl, by rw [List.length_cons]; omega, by rw [Nat.sub_self, Nat.testBit_zero]; exact decide_eq_true hodd⟩
      · exact hrest h
    case isFalse => exact hrest h

theorem exists_activeIndices : ∀ {l : List Nat} {i m n : Nat}, n < l.length → m.testBit n = true → ∃ e ∈ activeIndices i m l, e.1 = i + n
  | x :: l, i, m, 0, _, hbit => by
    rw [Nat.testBit_zero] at hbit
    rw [activeIndices, if_pos (of_decide_eq_true hbit)]
    exact ⟨_, List.mem_cons_self, rfl⟩
  | x :: l, i, m, n + 1, hn, hbit => by
    obtain ⟨e, he, hi⟩ := exists_activeIndices (i := i + 1) (Nat.lt_of_succ_lt_succ hn) ((testBit_succ_div m n).trans hbit)
    refine ⟨e, ?_, by omega⟩
    rw [activeIndices]
    split
    · exact List.mem_cons_of_mem _ he
    · exact he

theorem activeIndices_nodup : ∀ (l : List Nat) (i m : Nat), ((activeIndices i m l).map Prod.fst).Nodup
  | [], _, _ => List.nodup_nil
  | x :: l, i, m => by
    have ih := activeIndices_nodup l (i + 1) (m / 2)
    rw [activeIndices]
    split
    · refine List.nodup_cons.mpr ⟨fun hmem => ?_, ih⟩
      obtain ⟨e, he, hi⟩ := List.mem_map.mp hmem
      have := (mem_activeIndices he).1
      omega
    · exact ih

/-- A value of a gather stands in its lane, and the other lanes keep. -/
theorem putLanes_getD (j : Nat) : ∀ (t : List ((Nat × Nat) × Nat)) (l : List Nat), (t.map fun e => e.1.1).Nodup → j < l.length →
    (putLanes l t).getD j 0 = match t.find? fun e => e.1.1 == j with | some e => e.2 | none => l.getD j 0
  | [], _, _, _ => rfl
  | ((i, y), x) :: t, l, hnodup, hj => by
    obtain ⟨hnot, hrest⟩ := List.nodup_cons.mp hnodup
    rw [putLanes, putLanes_getD j t (l.set i x) hrest (by rw [List.length_set]; exact hj), List.find?_cons]
    by_cases hij : i = j
    · have hnone : (t.find? fun e => e.1.1 == j) = none :=
        List.find?_eq_none.mpr fun e he heq => hnot (List.mem_map.mpr ⟨e, he, (beq_iff_eq.mp heq).trans hij.symm⟩)
      simp only [hnone, hij, beq_self_eq_true]
      simp [List.getD_eq_getElem?_getD, hj]
    · simp only [beq_false_of_ne hij, List.getD_eq_getElem?_getD, List.getElem?_set, if_neg hij]

/-- The index registers hold an index for each lane of vd. -/
theorem indexGroup_lanes {f : Nat} (h : fmtWidth f ≠ 4) : lanesOf (fmtWidth f) ≤ indexGroup (fmtWidth f) * lanesOf 32 := by
  obtain ⟨hlo, hhi⟩ := fmtStep_bounds f
  rw [fmtWidth_eq_two_pow] at h ⊢
  generalize fmtStep f = k at hlo hhi h ⊢
  interval_cases k
  · exact absurd rfl h
  all_goals decide

theorem indexChecks_width {r : BitVec 6} (h : indexChecks r s = .ok ()) : fmtWidth s.vty ≠ 4 := by
  intro hw
  unfold indexChecks at h
  rw [hw] at h
  dsimp only [bind, Except.bind] at h
  split at h <;> cases h

end

/-! ### The words -/

/-- What a load's word leaves, with the values `f` in the active lanes. -/
def Loads (i : Instr) (s : State) (b : Nat) (g : Guard) (d : BitVec 6) (f : Nat → Nat) : Prop :=
  ∃ t, exec i s = .next t ∧
    (∀ j, j < lanesOf (fmtWidth s.vty) → t.lane d.toNat (fmtWidth s.vty) j =
      if (s.active g).testBit j then f j % 2 ^ fmtWidth s.vty else s.lane d.toNat (fmtWidth s.vty) j) ∧
    (∀ q, q < 64 → q ≠ d.toNat → t.readV q = s.readV q) ∧ t.flags = s.flags ∧ t.pc = s.pc + 4 ∧ SameMem s t ∧
    OnlyReader s t b (fun y z => vecMoves { y with vreg := z.vreg } z)

section
variable {s s1 : State} {b : Nat} {g : Guard} {d r : BitVec 6} {h : BitVec 4} {n k : BitVec 3} {v : View} {l : List (List Nat × List Span)}

theorem indexList_length (hchecks : indexChecks r s = .ok ()) :
    ((s.readGroup r.toNat (indexGroup (fmtWidth s.vty)) 32).take (lanesOf (fmtWidth s.vty))).length = lanesOf (fmtWidth s.vty) := by
  rw [List.length_take, (readGroup_spec _ _ _ _).1, Nat.min_eq_left (indexGroup_lanes (indexChecks_width hchecks))]

/-- The lanes of a gather: where the guard leaves a lane active, the value read at its index. -/
theorem gather_getD {m j : Nat} {is xs ds : List Nat} {f : Nat → Nat} (his : is.length = ds.length) (hxs : xs.length = (activeIndices 0 m is).length)
    (hj : j < ds.length) : (putLanes ds ((activeIndices 0 m is).zip (xs.map f))).getD j 0 = if m.testBit j
      then (match ((activeIndices 0 m is).zip xs).find? fun e => e.1.1 == j with | some e => f e.2 | none => 0) else ds.getD j 0 := by
  have hfst : ((activeIndices 0 m is).zip xs).map Prod.fst = activeIndices 0 m is := List.map_fst_zip hxs.ge
  have hkeys : (((activeIndices 0 m is).zip (xs.map f)).map fun e => e.1.1) = (activeIndices 0 m is).map Prod.fst := by
    have hzip := congrArg (List.map Prod.fst) (List.map_fst_zip (l₁ := activeIndices 0 m is) (l₂ := xs.map f) (by rw [List.length_map]; exact hxs.ge))
    rw [List.map_map] at hzip
    exact hzip
  rw [putLanes_getD j _ _ (hkeys ▸ activeIndices_nodup is 0 m) hj, List.zip_map_right, List.find?_map,
    show ((fun e : (Nat × Nat) × Nat => e.1.1 == j) ∘ Prod.map id f) = fun e => e.1.1 == j from rfl]
  cases hfound : ((activeIndices 0 m is).zip xs).find? fun e => e.1.1 == j with
  | some e =>
    obtain ⟨_, _, hbit⟩ := mem_activeIndices (hfst ▸ List.mem_map_of_mem (List.mem_of_find?_eq_some hfound))
    have hkey : e.1.1 = j := by simpa using List.find?_some hfound
    rw [Nat.sub_zero, hkey] at hbit
    rw [if_pos hbit]
    rfl
  | none =>
    refine (if_neg fun hbit => ?_).symm
    obtain ⟨e, he, hkey⟩ := exists_activeIndices (i := 0) (his.symm ▸ hj) hbit
    obtain ⟨z, hz, hze⟩ := List.mem_map.mp (hfst.symm ▸ he)
    exact List.find?_eq_none.mp hfound z hz (by rw [hze, hkey, Nat.zero_add, beq_self_eq_true])

variable (hc : s.cur = .stream b .V) (hview : vecView b h s.vty s = .ok v)
include hc hview

theorem vld_loads (hplain : v.plainE = .ok ()) (hplace : placeRun b v 0 false (runCoords s n k) (lanesOf (fmtWidth s.vty)) s = .ok l)
    (htrailer : s.checkTrailer (s.bayCtx b) v 0 spBay = .ok s1) :
    Loads (.vld g d h n k) s b g d fun j => lgMask s.vty (nth 0 (s1.readElems (s.bayCtx b) v l).1 j) := by
  have hs1 := checkTrailer_onlyMeta _ v htrailer
  have hu := hs1.trans (readElems_onlyMeta (s.bayCtx b) v l s1)
  have hctx : s1.bayCtx b = s.bayCtx b := hs1.same (fun s => s.bayCtx b) fun _ => rfl
  have hw : vldCore b g d h n k s = .ok ((s1.readElems (s.bayCtx b) v l).2.writeLanes d.toNat (fmtWidth s.vty)
      (copyLanes ((s1.readElems (s.bayCtx b) v l).2.active g) ((s1.readElems (s.bayCtx b) v l).2.lanes d.toNat (fmtWidth s.vty))
        ((s1.readElems (s.bayCtx b) v l).1.map (lgMask (s1.readElems (s.bayCtx b) v l).2.vty) ++
          List.replicate (lanesOf (fmtWidth s.vty) - ((s1.readElems (s.bayCtx b) v l).1.map (lgMask (s1.readElems (s.bayCtx b) v l).2.vty)).length) 0))).retireV := by
    rw [List.length_map]
    simp only [vldCore, hview, bind, Except.bind, hplain, hplace, htrailer, hctx]
    rfl
  have hlen := readElems_length (s.bayCtx b) v l s1
  generalize hread : s1.readElems (s.bayCtx b) v l = read at hu hw hlen
  obtain ⟨xs, u⟩ := read
  have hactive : u.active g = s.active g := hu.same (fun s => s.active g) fun _ => rfl
  have hlane : ∀ j, u.lane d.toNat (fmtWidth s.vty) j = s.lane d.toNat (fmtWidth s.vty) j := fun j =>
    hu.same (fun t => t.lane d.toNat (fmtWidth s.vty) j) fun _ => rfl
  have hvty : u.vty = s.vty := hu.same State.vty fun _ => rfl
  refine ⟨_, (State.onVec_eq hc _).trans (congrArg s.finish hw), load_leaves hc hu d _ fun j hj => ?_⟩
  have hle := placeRun_length_le hplace
  rw [copyLanes_lane u _ _ _ (by rw [List.length_append, List.length_replicate, List.length_map, hlen]; omega) hj, getD_append_zeros, getD_map_lgMask,
    hactive, hvty, hlane]
  rfl

theorem vldx_loads (hplain : v.plainE = .ok ()) (hchecks : indexChecks r s = .ok ())
    (hplace : placeIndexed b v 0 false (indexList g r (fmtWidth s.vty) s) s = .ok l) :
    Loads (.vldx g d h r) s b g d fun j =>
      match ((indexList g r (fmtWidth s.vty) s).zip (s.readElems (s.bayCtx b) v l).1).find? fun e => e.1.1 == j with
      | some e => lgMask s.vty e.2
      | none => 0 := by
  have hu := readElems_onlyMeta (s.bayCtx b) v l s
  have hw : vldxCore b g d h r s = .ok ((s.readElems (s.bayCtx b) v l).2.writeLanes d.toNat (fmtWidth s.vty)
      (putLanes ((s.readElems (s.bayCtx b) v l).2.lanes d.toNat (fmtWidth s.vty)) ((indexList g r (fmtWidth s.vty) s).zip
        ((s.readElems (s.bayCtx b) v l).1.map (lgMask (s.readElems (s.bayCtx b) v l).2.vty))))).retireV := by
    simp only [vldxCore, hview, bind, Except.bind, hchecks, hplain, hplace]
    rfl
  have hlen := (readElems_length (s.bayCtx b) v l s).trans (placeIndexed_length hplace)
  generalize hread : s.readElems (s.bayCtx b) v l = read at hu hw hlen
  obtain ⟨xs, u⟩ := read
  have hlanes : u.lanes d.toNat (fmtWidth s.vty) = s.lanes d.toNat (fmtWidth s.vty) := hu.same (fun t => t.lanes d.toNat (fmtWidth s.vty)) fun _ => rfl
  have hvty : u.vty = s.vty := hu.same State.vty fun _ => rfl
  refine ⟨_, (State.onVec_eq hc _).trans (congrArg s.finish hw), load_leaves hc hu d _ fun j hj => ?_⟩
  have hds := lanes_length s d.toNat (fmtWidth s.vty)
  rw [hlanes, hvty, indexList, gather_getD ((indexList_length hchecks).trans hds.symm) hlen (by rw [hds]; exact hj), lanes_getD s _ _ hj]
  split
  · rfl
  · exact Nat.mod_eq_of_lt (Nat.mod_lt _ (Nat.two_pow_pos _))

omit hc in
theorem vstCore_ok (hcmp : v.cmp = false) (hplace : placeRun b v 2 true (runCoords s n k) (lanesOf (fmtWidth s.vty)) s = .ok l)
    (hfree : s.checkConflicts (s.bayCtx b) v 2 ((activeElems (s.active g) l (s.lanes d.toNat (fmtWidth s.vty))).flatMap fun e => e.2.1) = .ok ()) :
    vstCore b g d h n k s = .ok (s.writeElems (s.bayCtx b) v (activeElems (s.active g) l (s.lanes d.toNat (fmtWidth s.vty)))).retireV := by
  have hplain : guardE (!v.cmp) (trapT 0x26 v.tid 0 false) = .ok () := guardE_ok_iff.mpr (by rw [hcmp]; rfl)
  simp only [vstCore, hview, bind, Except.bind, hplain, hplace, hfree]
  rfl

omit hc in
theorem vstxCore_ok (hcmp : v.cmp = false) (hchecks : indexChecks r s = .ok ())
    (hplace : placeIndexed b v 2 true (indexList g r (fmtWidth s.vty) s) s = .ok l)
    (hfree : s.checkConflicts (s.bayCtx b) v 2 (l.flatMap fun e => e.2) = .ok ()) :
    vstxCore b g d h r s = .ok (s.writeElems (s.bayCtx b) v ((l.zip (indexList g r (fmtWidth s.vty) s)).map fun e =>
      (e.1.1, e.1.2, s.lane d.toNat (fmtWidth s.vty) e.2.1))).retireV := by
  have hplain : guardE (!v.cmp) (trapT 0x26 v.tid 0 false) = .ok () := guardE_ok_iff.mpr (by rw [hcmp]; rfl)
  have hvals : ((l.zip (indexList g r (fmtWidth s.vty) s)).map fun e => (e.1.1, e.1.2, s.lane d.toNat (fmtWidth s.vty) e.2.1)) =
      (l.zip (indexList g r (fmtWidth s.vty) s)).map fun e => (e.1.1, e.1.2, nth 0 (s.lanes d.toNat (fmtWidth s.vty)) e.2.1) :=
    List.map_congr_left fun e he => by
      obtain ⟨_, hlt, _⟩ := mem_activeIndices (List.of_mem_zip he).2
      rw [indexList_length hchecks, Nat.zero_add] at hlt
      rw [nth, lanes_getD s _ _ hlt]
  rw [hvals]
  simp only [vstxCore, hview, bind, Except.bind, hchecks, hplain, hplace, hfree]
  rfl

end

/-- Settles O25: the loads by the lanes they write after reads that may commit granules, the stores by the spans their writes touch. VLDX and VSTX with no
active lane place nothing (log 89), a run's checks see every lane (log 88), and a block-format TYPE moves the elements' bits (log 115). -/
theorem vectorMemory : Obligations.VectorMemory := by
  unfold Obligations.VectorMemory
  intro s s1 b g d r h n k v l hc hview
  refine ⟨fun hplain hplace htrailer => vld_loads hc hview hplain hplace htrailer, fun hcmp hplace hfree => ?_,
    fun hplain hchecks hplace => vldx_loads hc hview hplain hchecks hplace, fun hcmp hchecks hplace hfree => ?_⟩
  · exact ⟨_, (State.onVec_eq hc _).trans (congrArg s.finish (vstCore_ok hview hcmp hplace hfree)), rfl, store_leaves hc _ v _⟩
  · exact ⟨_, (State.onVec_eq hc _).trans (congrArg s.finish (vstxCore_ok hview hcmp hchecks hplace hfree)), rfl, store_leaves hc _ v _⟩

end Sys2Proof.Machine
end

section
/-! Parameters, time and counters (R188, R390, R410), and the return from a trap and the wait for events (R200, R203). -/

namespace Sys2Proof.Machine

section
variable {s : State} {b : Nat}

/-! ### Words that change their own bay -/

/-- A sequencer's word that changes its bay, but neither the scalar registers nor the program counter, and retires. -/
theorem modBay_retire_spec {f : Bay → Bay} (hc : s.cur = .stream b .S) (hpc : (f (s.bay b)).pc = (s.bay b).pc) (hs : (f (s.bay b)).s = (s.bay b).s) :
    (s.modBay b f).retire.bay b = (f (s.bay b)).seqNext (s.pc + 4) ∧ (s.modBay b f).retire.pc = s.pc + 4 ∧
      (∀ r, (s.modBay b f).retire.readS r = s.readS r) ∧ SameMem s (s.modBay b f).retire := by
  rw [State.modBay_retire_seq hc hpc]
  have hbay := State.modBay_bay_same s b fun y => (f y).seqNext (s.pc + 4)
  refine ⟨hbay, ?_, fun r => ?_, fun _ => rfl⟩
  · rw [State.pc_seq (s := s.modBay b _) hc, hbay]
    rfl
  · rw [State.readS, State.modBay_cur, State.readS, hc]
    dsimp only
    rw [hbay]
    exact congrArg (fun t => if r = 0 then 0 else Tab.get 0 t r.toNat) hs

/-! ### Parameters (R188) -/

theorem Bay.setPar_par (y : Bay) (k : Nat) (v : Word) (n : Nat) : Tab.get 0 (y.setPar k v).par n = if n = k then v else Tab.get 0 y.par n :=
  Tab.get_set _ _ _ _ _

/-- The instruction completes, writing the parameters that `f` gives a value, and nothing else of the architecture. -/
def PutsParameters (i : Instr) (s : State) (b : Nat) (f : Nat → Option Word) : Prop :=
  ∃ t, exec i s = .next t ∧ (∀ n, Tab.get 0 (t.bay b).par n = (f n).getD (Tab.get 0 (s.bay b).par n)) ∧ t.pc = s.pc + 4 ∧
    (∀ r, t.readS r = s.readS r) ∧ SameMem s t ∧ OnlyBay s t b (fun y z => seqMoves { y with par := z.par } z)

/-- A word puts parameters when its change of the bay, `put`, is one of the parameters and their dirty bits. -/
theorem putsParameters_of {i : Instr} {put : Bay → Bay} {f : Nat → Option Word} (hc : s.cur = .stream b .S)
    (hi : exec i s = s.finish (.ok (s.modBay b put).retire)) (hput : put (s.bay b) = { s.bay b with par := (put (s.bay b)).par, dirty := (put (s.bay b)).dirty })
    (hpar : ∀ n, Tab.get 0 (put (s.bay b)).par n = (f n).getD (Tab.get 0 (s.bay b).par n)) : PutsParameters i s b f := by
  have hpc : (put (s.bay b)).pc = (s.bay b).pc := by rw [hput]
  obtain ⟨hbay, hnext, hregs, hmem⟩ := modBay_retire_spec hc hpc (by rw [hput])
  refine ⟨_, hi, fun n => ?_, hnext, hregs, hmem, ?_⟩
  · rw [hbay]
    exact hpar n
  · rw [State.modBay_retire_seq hc hpc]
    refine onlyBay_modBay ?_
    rw [hput]
    rfl

theorem hset_puts (hc : s.cur = .stream b .S) (h : BitVec 4) (a c : BitVec 5) : PutsParameters (.hset h a c) s b
    fun n => if n = h.toNat * 32 then some (s.readS a) else if n = h.toNat * 32 + 1 then some (s.readS c) else none := by
  refine putsParameters_of hc (State.onSeq_eq hc _) rfl fun n => ?_
  rw [Bay.setPar_par, Bay.setPar_par]
  by_cases hfirst : n = h.toNat * 32
  · rw [if_neg (by omega), if_pos hfirst, if_pos hfirst, Option.getD_some]
  · rw [if_neg hfirst, if_neg hfirst]
    split <;> rfl

theorem setpar_puts (hc : s.cur = .stream b .S) (a : BitVec 5) (p : BitVec 12) : PutsParameters (.setpar a p) s b
    fun n => if n = p.toNat then some (s.readS a) else none := by
  refine putsParameters_of hc (State.onSeq_eq hc _) rfl fun n => ?_
  rw [Bay.setPar_par]
  split <;> rfl

theorem getpar_writes (hc : s.cur = .stream b .S) (d : BitVec 5) (p : BitVec 12) : Writes (.getpar d p) s d (Tab.get 0 (s.bay b).par p.toNat) :=
  ⟨_, State.onSeq_eq hc _, wrote_retire (onScalar_seq hc) _ _⟩

end

/-- A counter that the reader does not have. -/
theorem ctrr_faults {s : State} (h : s.onScalar) (d : BitVec 5) {n : BitVec 12} (hn : s.counter n.toNat = none) :
    exec (.ctrr d n) s = s.raise { cause := 0x02 } := by
  change s.scalar _ = _
  rw [hn]
  obtain ⟨b, hc⟩ | ⟨c, p, hc⟩ := State.onScalar_cases h
  · rw [State.scalar, hc]
    rfl
  · rw [State.scalar, hc]
    rfl

/-- Settles O26: HSET, SETPAR and GETPAR by the parameters of the bay, TSREAD and CTRR by the register that they write. The clause of SETPAR holds of every
number; that z.1 and numbers beyond the count do not decode (R183, R187) is the decoder's. -/
theorem parametersAndCounters : Obligations.ParametersAndCounters := by
  unfold Obligations.ParametersAndCounters
  refine ⟨fun s b h a c d p hc => ⟨hset_puts hc h a c, setpar_puts hc a p, getpar_writes hc d p⟩, fun s d n h => ⟨writes_of h rfl, fun v hv => ?_, ctrr_faults h d⟩⟩
  refine writes_of h ?_
  change s.scalar _ = _
  rw [hv]

/-! ### The return from a trap (R200) -/

/-- A stream that RESUME names stands in HALT, with a record that lets it restart. -/
theorem Bay.resumeOk_record {y : Bay} (h : y.resumeOk = true) {e : Eng} (he : e ∈ engines) (hr : y.tResume.getLsbD e.idx = true) :
    ∃ rc, (y.stream e).rc = some rc ∧ rc.rst = true := by
  have hall := List.all_eq_true.mp h e he
  rw [show y.tResume.toNat.testBit e.idx = true from hr, Bool.not_true, Bool.false_or, Bool.and_eq_true] at hall
  obtain ⟨-, hrst⟩ := hall
  cases hrc : (y.stream e).rc with
  | none => simp [hrc] at hrst
  | some rc => exact ⟨rc, rfl, by simpa [hrc] using hrst⟩

/-- What a restart makes of a stream. -/
def Stream.restarted (x : Stream) : Stream :=
  { x with run := true, rc := none, pc := (match x.rc with | some r => r.pc | none => x.pc), adv := false, fetched := 0 }

theorem Bay.restart_eq (y : Bay) (e : Eng) : y.restart e = if y.tResume.getLsbD e.idx then y.setStream e (y.stream e).restarted else y := rfl

theorem Bay.restart_rest (y : Bay) (e : Eng) : y.restart e =
    { y with v := (y.restart e).v, m := (y.restart e).m, l := (y.restart e).l, w := (y.restart e).w } := by
  rw [Bay.restart_eq]
  split
  · cases e <;> rfl
  · rfl

theorem Bay.restart_tResume (y : Bay) (e : Eng) : (y.restart e).tResume = y.tResume := by rw [Bay.restart_rest]

theorem Bay.restart_stream_same (y : Bay) {e : Eng} (he : e ∈ engines) :
    (y.restart e).stream e = if y.tResume.getLsbD e.idx then (y.stream e).restarted else y.stream e := by
  rw [Bay.restart_eq]
  split
  · exact Bay.setStream_stream_same _ _ _ he
  · rfl

theorem Bay.restart_stream_ne (y : Bay) {e f : Eng} (h : f ≠ e) : (y.restart e).stream f = y.stream f := by
  rw [Bay.restart_eq]
  split
  · exact Bay.setStream_stream_ne _ _ h
  · rfl

/-- The bay after the restarts, stream by stream. -/
def Bay.restartAll (y : Bay) : Bay := (((y.restart .V).restart .M).restart .L).restart .W

theorem Bay.restartAll_rest (y : Bay) : y.restartAll =
    { y with v := y.restartAll.v, m := y.restartAll.m, l := y.restartAll.l, w := y.restartAll.w } := by
  unfold Bay.restartAll
  rw [Bay.restart_rest (((y.restart .V).restart .M).restart .L) .W, Bay.restart_rest ((y.restart .V).restart .M) .L,
    Bay.restart_rest (y.restart .V) .M, Bay.restart_rest y .V]

/-- Each restart leaves the other streams, so each stream is restarted on its own. -/
theorem Bay.restartAll_stream (y : Bay) {e : Eng} (he : e ∈ engines) :
    y.restartAll.stream e = if y.tResume.getLsbD e.idx then (y.stream e).restarted else y.stream e := by
  unfold Bay.restartAll
  simp only [engines, List.mem_cons, List.not_mem_nil, or_false] at he
  obtain rfl | rfl | rfl | rfl := he
  · rw [Bay.restart_stream_ne _ (by decide), Bay.restart_stream_ne _ (by decide), Bay.restart_stream_ne _ (by decide), Bay.restart_stream_same _ (by decide)]
  · rw [Bay.restart_stream_ne _ (by decide), Bay.restart_stream_ne _ (by decide), Bay.restart_stream_same _ (by decide), Bay.restart_stream_ne _ (by decide),
      Bay.restart_tResume]
  · rw [Bay.restart_stream_ne _ (by decide), Bay.restart_stream_same _ (by decide), Bay.restart_stream_ne _ (by decide), Bay.restart_stream_ne _ (by decide),
      Bay.restart_tResume, Bay.restart_tResume]
  · rw [Bay.restart_stream_same _ (by decide), Bay.restart_stream_ne _ (by decide), Bay.restart_stream_ne _ (by decide), Bay.restart_stream_ne _ (by decide),
      Bay.restart_tResume, Bay.restart_tResume, Bay.restart_tResume]

/-- The bay that TRET leaves. -/
def Bay.trapReturned (y : Bay) : Bay :=
  ({ y.restartAll with tHalt := y.tHalt &&& ~~~ y.tResume, tResume := 0, tIn := false, pc := y.epc, adv := false, waiting := none, fetched := 0 }.mark
    markTrap).mark markPc

theorem Bay.trapReturned_stream (y : Bay) {e : Eng} (he : e ∈ engines) :
    y.trapReturned.stream e = if y.tResume.getLsbD e.idx then (y.stream e).restarted else y.stream e := by
  rw [← Bay.restartAll_stream y he]
  cases e <;> rfl

theorem Bay.trapReturned_rest (y : Bay) : let z := y.trapReturned
    z = { y with v := z.v, m := z.m, l := z.l, w := z.w, tHalt := z.tHalt, tResume := 0, tIn := false, pc := y.epc, adv := false, waiting := none,
                 fetched := 0, dirty := z.dirty } := by
  dsimp only
  unfold Bay.trapReturned
  rw [Bay.restartAll_rest]
  rfl

theorem State.trapReturn_eq (s : State) (b : Nat) : s.trapReturn b = s.modBay b Bay.trapReturned := rfl

section
variable {s : State} {b : Nat}

theorem exec_tret (hc : s.cur = .stream b .S) : exec .tret s = s.finish (tretCore b s) := State.onSeq_eq hc _

theorem tretCore_returns (h : ((s.bay b).tIn && (s.bay b).targetOk (s.bay b).epc.toNat && (s.bay b).resumeOk) = true) :
    tretCore b s = .ok (s.modBay b Bay.trapReturned) := by
  simp only [Bool.and_eq_true] at h
  obtain ⟨⟨hin, htarget⟩, hresume⟩ := h
  simp only [tretCore, hin, htarget, hresume, guardE_true, bind, Except.bind]
  rfl

theorem tretCore_faults (h : ((s.bay b).tIn && (s.bay b).targetOk (s.bay b).epc.toNat && (s.bay b).resumeOk) = false) :
    tretCore b s = .error (trapC 0x02) := by
  simp only [tretCore, bind, Except.bind]
  cases hin : (s.bay b).tIn with
  | false => rfl
  | true =>
    cases htarget : (s.bay b).targetOk (s.bay b).epc.toNat with
    | false => rfl
    | true =>
      have hresume : (s.bay b).resumeOk = false := by simpa [hin, htarget] using h
      rw [hresume]
      rfl

/-! ### The wait for events (R203) -/

theorem exec_waitev (hc : s.cur = .stream b .S) (d : BitVec 5) (m : BitVec 8) : exec (.waitev d m) s = s.finish (waitevCore b d m s) :=
  State.onSeq_eq hc _

variable {d : BitVec 5} {m : BitVec 8}

theorem waitevCore_badMask (h : m = 0 ∨ 64 ≤ m.toNat) : waitevCore b d m s = .error (trapC 0x02) := by
  have hguard : (m != 0 && decide (m.toNat < 64)) = false := by
    rcases h with rfl | h
    · rfl
    · rw [decide_eq_false (Nat.not_lt.mpr h), Bool.and_false]
  simp only [waitevCore, hguard, guardE_false]
  rfl

/-- What a note of the sequencer's wait leaves. -/
theorem setHold_leaves (hc : s.cur = .stream b .S) (v : Bool) :
    (s.setHold v).pc = s.pc ∧ SameMem s (s.setHold v) ∧ OnlyBay s (s.setHold v) b (fun y _ => { y with hold := v }) := by
  rw [State.setHold, hc]
  dsimp only
  split
  · rename_i hv
    exact ⟨rfl, fun _ => rfl, rfl, fun _ _ => rfl, by rw [← hv]⟩
  · refine ⟨?_, fun _ => rfl, onlyBay_modBay rfl⟩
    rw [State.pc_seq (s := s.modBay b _) hc, State.modBay_bay_same, State.pc_seq hc]

/-- A bay whose events `k` the sequencer has taken. -/
def Bay.takeEvents (y : Bay) (k : BitVec 6) : Bay := { y with evpend := y.evpend &&& ~~~ k }.mark markEv

theorem waitevCore_waits (hm : m ≠ 0) (hlt : m.toNat < 64) (h : (s.bay b).evpend &&& BitVec.ofNat 6 m.toNat = 0) :
    waitevCore b d m s = .error .wait := by
  have hguard : (m != 0 && decide (m.toNat < 64)) = true := Bool.and_eq_true_iff.mpr ⟨bne_iff_ne.mpr hm, decide_eq_true hlt⟩
  have hnone : ((s.bay b).evpend &&& BitVec.ofNat 6 m.toNat != 0) = false := bne_eq_false_iff_eq.mpr h
  simp only [waitevCore, hguard, hnone, guardE_true, guardE_false, bind, Except.bind]

theorem waitevCore_takes (hm : m ≠ 0) (hlt : m.toNat < 64) (h : (s.bay b).evpend &&& BitVec.ofNat 6 m.toNat ≠ 0) :
    waitevCore b d m s = .ok (((s.modBay b fun y => y.takeEvents (BitVec.ofNat 6 m.toNat)).writeS d
      (((s.bay b).evpend &&& BitVec.ofNat 6 m.toNat).zeroExtend 64)).retire) := by
  have hguard : (m != 0 && decide (m.toNat < 64)) = true := Bool.and_eq_true_iff.mpr ⟨bne_iff_ne.mpr hm, decide_eq_true hlt⟩
  have hsome : ((s.bay b).evpend &&& BitVec.ofNat 6 m.toNat != 0) = true := bne_iff_ne.mpr h
  simp only [waitevCore, hguard, hsome, guardE_true, bind, Except.bind]
  rfl

/-- What WAITEV leaves when it gives events `k` of its bay's. -/
theorem takeEvents_leaves (hc : s.cur = .stream b .S) (k : BitVec 6) (d : BitVec 5) (v : Word) :
    let t := ((s.modBay b fun y => y.takeEvents k).writeS d v).retire
    t.readS d = (if d = 0 then 0 else v) ∧ (t.bay b).evpend = (s.bay b).evpend &&& ~~~ k ∧ (∀ r, r ≠ d → t.readS r = s.readS r) ∧ t.pc = s.pc + 4 ∧
      SameMem s t ∧ OnlyBay s t b (fun y z => seqWrites { y with evpend := z.evpend } z) := by
  have hc' : (s.modBay b fun y => y.takeEvents k).cur = .stream b .S := hc
  have hbay := State.modBay_bay_same s b fun y => y.takeEvents k
  obtain ⟨hresult, hregs, hpc, hmem, -⟩ := wrote_retire (onScalar_seq hc') d v
  obtain ⟨hstate, hothers, hown⟩ := writeS_retire_onlyBay hc' d v
  rw [hbay] at hown
  have hev : (((((s.modBay b fun y => y.takeEvents k).writeS d v).retire).bay b).evpend = (s.bay b).evpend &&& ~~~ k) := by rw [hown]; rfl
  refine ⟨hresult, hev, fun r hr => ?_, ?_, hmem, hstate, fun c hne => ?_, ?_⟩
  · rw [hregs r hr, State.readS, hc', State.readS, hc]
    dsimp only
    rw [hbay]
    rfl
  · rw [hpc, State.pc_seq hc', State.pc_seq hc, hbay]
    rfl
  · rw [hothers c hne, State.modBay_bay_ne _ _ _ hne]
  · dsimp only
    rw [hev]
    exact hown

end

/-- Settles O24: TRET by the restart of each stream on its own, WAITEV by its taking of the events, and both by the checks before them. -/
theorem trapsAndEvents : Obligations.TrapsAndEvents := by
  unfold Obligations.TrapsAndEvents
  refine ⟨fun s b hc => ⟨fun hok => ?_, fun hbad => ?_⟩, fun s b d m hc => ⟨fun hm hlt hev => ?_, fun hm hlt hnone => ?_, fun hbad => ?_⟩⟩
  · have hbay := State.modBay_bay_same s b Bay.trapReturned
    have hresume : (s.bay b).resumeOk = true := (Bool.and_eq_true_iff.mp hok).2
    refine ⟨_, (exec_tret hc).trans (congrArg s.finish (tretCore_returns hok)), ?_, ?_, ?_, ?_, fun e he hr => ?_, fun e he hr => ?_, fun _ => rfl,
      onlyBay_modBay (Bay.trapReturned_rest _)⟩
    · rw [State.pc_seq (s := s.modBay b _) hc, hbay]
      rfl
    · rw [hbay]
      rfl
    · rw [hbay]
      rfl
    · rw [hbay]
      rfl
    · rw [hbay, Bay.trapReturned_stream _ he, if_neg (by simp [hr])]
    · obtain ⟨rc, hrc, hrst⟩ := Bay.resumeOk_record hresume he hr
      refine ⟨rc, hrc, hrst, ?_⟩
      rw [hbay, Bay.trapReturned_stream _ he, if_pos hr, Stream.restarted, hrc]
  · rw [exec_tret hc, tretCore_faults hbad]
    rfl
  · exact ⟨_, (exec_waitev hc d m).trans (congrArg s.finish (waitevCore_takes hm hlt hev)), takeEvents_leaves hc _ d _⟩
  · exact ⟨_, (exec_waitev hc d m).trans (congrArg s.finish (waitevCore_waits hm hlt hnone)), setHold_leaves hc false⟩
  · rw [exec_waitev hc, waitevCore_badMask hbad]
    rfl

end Sys2Proof.Machine
end

section
/-! Page faults (R324): the Framer starts on a waiting job's next tile by the walk of a translation cache, which the statement leaves open. -/

namespace Sys2Proof.Machine

/-- The leaf of tile 0 stands in DRAM at 8,192. -/
def staleLeaf : Nat := dramAddr 8192

/-- The Framer itself wants tile 0 of the first tensor of job 0. -/
def staleWant : PageFault :=
  { who := .none, cause := 0x40, tid := 32768, tile := 0, entry := staleLeaf, since := 0, mig := false, slot := some 0, aux := 0, copy := none,
    asked := false, served := false }

/-- A paged tensor of one dimension and one level, whose node stands in DRAM at 8,192. -/
def stalePaged : List Word := [word (1 + at_ 1 1 + at_ 0x0A 5 + at_ 1 33), 8193, 100, 0, 0, 0, 0, 0, 4]

/-- A device that has booted, with job 0 waiting for its tile. The leaf in memory has P set; the Framer's translation cache holds it with P clear. The
Framer takes in no entry (R369), so no run comes to such a cache, but the statement admits every state. -/
def staleWalk : State :=
  { boot := { rdy := true }, parts := [(0, { faults := [staleWant] })], jobs := [(0, { state := .wait, entries := [stalePaged] })]
    mem := [(staleLeaf, 1)], caches := [(1000, [(staleLeaf, natBytes 8 (64 + at_ 4 9) ++ natBytes 8 0)])] }

/-- The leaf in memory is present. -/
theorem staleWalk_present : (staleWalk.entryAt 0 32768 staleLeaf).1.testBit 0 = true := by decide +kernel

theorem staleWalk_canService : staleWalk.canService staleWant = true := rfl

theorem staleWalk_inTurn : staleWalk.inTurn staleWant = true := by decide +kernel

/-- The service resumes the access, whose walk finds the cached leaf, and the same access waits again. -/
theorem pageFaultService_staleWalk : ((pageFaultService 0 0 staleWalk).part 0).faults = [staleWant] := by decide +kernel

/-- Refutes O50: its first clause has the accesses that wait for a served entry resume, but the Framer's own resume is a walk to the next entry that is not present,
and the statement does not say that the Framer's translation cache is empty. In `staleWalk` that walk meets the served entry itself. -/
theorem not_pagesFaultAndMove : ¬ Obligations.PagesFaultAndMove := by
  unfold Obligations.PagesFaultAndMove
  rintro ⟨hfaults, -⟩
  obtain ⟨hservice, -⟩ := hfaults staleWalk 0 0 staleWant rfl
  obtain ⟨hpresent, -⟩ := hservice rfl rfl rfl staleWalk_canService staleWalk_inTurn
  obtain ⟨t, hexec, hresumed, -⟩ := hpresent staleWalk_present
  obtain rfl : pageFaultService 0 0 staleWalk = t := Host.Outcome.next.inj hexec
  have hwaits : staleWant ∈ ((pageFaultService 0 0 staleWalk).part 0).faults := pageFaultService_staleWalk ▸ List.mem_singleton_self _
  obtain hmig | ⟨hheld, -⟩ := hresumed staleWant hwaits rfl rfl rfl
  · cases hmig
  · cases hheld

end Sys2Proof.Machine
end

section
/-! Jobs that a discard ends (R464, R465): what each of its steps changes, and that it discards its partition. -/

namespace Sys2Proof.Machine

/-! ### Tables -/

/-- An entry that does not read as the default is listed. -/
theorem Tab.mem_of_get_ne {α : Type} {d : α} {k : Nat} : ∀ {l : Tab α}, Tab.get d l k ≠ d → (k, Tab.get d l k) ∈ l
  | [], h => absurd rfl h
  | (k', v) :: t, h => by
    by_cases hk : k = k'
    · simp [Tab.get, hk]
    · rw [Tab.get, if_neg hk] at h ⊢
      exact List.mem_cons_of_mem _ (Tab.mem_of_get_ne h)

/-- Of the entries that a filter by their keys keeps, each reads as before. -/
theorem Tab.get_filter {α : Type} (d : α) (p : Nat → Bool) (k : Nat) :
    ∀ l : Tab α, Tab.get d (l.filter fun e => p e.1) k = if p k then Tab.get d l k else d
  | [] => by simp [Tab.get]
  | (k', v) :: t => by
    have ih := Tab.get_filter d p k t
    by_cases hp : p k' = true
    · rw [List.filter_cons_of_pos (p := fun e : Nat × α => p e.1) hp, Tab.get, Tab.get, ih]
      by_cases hk : k = k'
      · simp [hk, hp]
      · simp [hk]
    · rw [List.filter_cons_of_neg (p := fun e : Nat × α => p e.1) hp, ih, Tab.get]
      by_cases hk : k = k'
      · simp [hk, hp]
      · simp [hk]

/-! ### The Foreman's log -/

/-- The Foreman's log changes its ring, and beside it only its own registers and the count of free values. -/
theorem State.fmEvent_rest (s : State) (kind unit : Nat) : ∃ i m f x, s.fmEvent kind unit = { s with tick := i, mem := m, foreman := f, pfmsix := x } := by
  unfold State.fmEvent
  dsimp only
  split
  · exact ⟨_, _, _, _, rfl⟩
  · rw [State.write_host]
    exact ⟨_, _, _, _, rfl⟩

/-! ### Work that is dropped -/

/-- The unit belongs to one of the jobs whose work is dropped. -/
def lostTo (gone : List Nat) (x : Option Nat) : Bool := x.toList.any gone.contains

theorem lostTo_some (gone : List Nat) (n : Nat) : lostTo gone (some n) = true ↔ n ∈ gone := by
  simp [lostTo]

theorem State.dropWork_bay (s : State) (gone : List Nat) (b : Nat) :
    (s.dropWork gone).bay b = if lostTo gone (s.bay b).slot then (s.bay b).stop else s.bay b :=
  Tab.get_map (f := fun _ (y : Bay) => if lostTo gone y.slot then y.stop else y) rfl _

theorem State.dropWork_lathAt (s : State) (gone : List Nat) (k : Nat) : (s.dropWork gone).lathAt k =
    if lostTo gone (s.lathAt k).slot then { s.lathAt k with updates := [], hop := none, waiting := false } else s.lathAt k :=
  Tab.get_map (f := fun _ (x : Lath) => if lostTo gone x.slot then { x with updates := [], hop := none, waiting := false } else x) rfl _

/-! ### Chains -/

/-- The chains of the list stop, one after another. -/
def State.stopChains (s : State) (l : List (Nat × Chain)) : State := l.foldl (fun s e => s.stopChain e.1) s

theorem State.stopChains_rest (s : State) (l : List (Nat × Chain)) : ∃ c j, s.stopChains l = { s with chains := c, jointers := j } :=
  List.foldlRecOn (motive := fun t : State => ∃ c j, t = { s with chains := c, jointers := j }) l _ ⟨_, _, rfl⟩ (by
    rintro _ ⟨c, j, rfl⟩ e -
    exact ⟨_, _, rfl⟩)

/-- A stopped chain stays stopped. -/
theorem State.stopChains_stopped (l : List (Nat × Chain)) : ∀ {s : State} {c : Nat}, (chainEn (s.chain c) = false ∨ ∃ e ∈ l, e.1 = c) →
    chainEn ((s.stopChains l).chain c) = false := by
  induction l with
  | nil => exact fun h => h.elim id fun ⟨_, he, _⟩ => absurd he (List.not_mem_nil)
  | cons e l ih =>
    intro s c h
    refine ih (s := s.stopChain e.1) ?_
    by_cases hc : c = e.1
    · exact .inl (hc ▸ s.stopChain_chainEn e.1)
    · rw [State.stopChain_chain_ne s hc]
      refine h.imp_right ?_
      rintro ⟨x, hx, rfl⟩
      obtain rfl | hx := List.mem_cons.mp hx
      · exact absurd rfl hc
      · exact ⟨x, hx, rfl⟩

/-! ### The discard of a partition -/

/-- A discard of partition `p` ends the job. -/
def Job.endsWith (j : Job) (p : Nat) : Bool := j.part = p && (j.state = .load || j.state = .run || j.state = .saved)

theorem Job.endsWith_iff (j : Job) (p : Nat) : j.endsWith p = true ↔ j.part = p ∧ j.holds := by
  simp [Job.endsWith, Job.holds, or_assoc]

/-- The job after a discard of partition `p`. -/
def Job.discarded (j : Job) (p cause : Nat) : Job :=
  if j.endsWith p then { j with status := 4, cause := BitVec.ofNat 8 cause, fbay := 0xFF, frec := 0, ended := true, stopping := false } else j

/-- The jobs that a discard of partition `p` ends. -/
def State.goneWith (s : State) (p : Nat) : List Nat := s.jobs.filterMap fun e => if e.2.endsWith p then some e.1 else none

theorem State.mem_goneWith {s : State} {p n : Nat} : n ∈ s.goneWith p ↔ ∃ e ∈ s.jobs, e.1 = n ∧ e.2.part = p ∧ e.2.holds := by
  simp only [State.goneWith, List.mem_filterMap]
  refine exists_congr fun e => and_congr_right fun _ => ?_
  rw [← Job.endsWith_iff]
  by_cases h : e.2.endsWith p = true <;> simp [h]

theorem State.job_mem_goneWith {s : State} {p n : Nat} (hp : (s.job n).part = p) (h : (s.job n).holds) : n ∈ s.goneWith p := by
  refine State.mem_goneWith.mpr ⟨(n, s.job n), Tab.mem_of_get_ne fun hd => ?_, rfl, hp, h⟩
  change s.job n = {} at hd
  rw [hd] at h
  rcases h with h | h | h <;> cases h

/-- A discard before its chains stop: the log, the jobs, and their work. -/
def State.discardWork (s : State) (p cause : Nat) : State :=
  ({ s.fmEvent 10 p with jobs := s.jobs.map fun e => (e.1, e.2.discarded p cause) } : State).dropWork (s.goneWith p)

theorem State.discardWork_job (s : State) (p cause n : Nat) : (s.discardWork p cause).job n = (s.job n).discarded p cause :=
  Tab.get_map (f := fun _ (j : Job) => j.discarded p cause) (by simp [Job.discarded, Job.endsWith]) s.jobs

theorem State.discardWork_bay (s : State) (p cause b : Nat) :
    (s.discardWork p cause).bay b = if lostTo (s.goneWith p) (s.bay b).slot then (s.bay b).stop else s.bay b := by
  obtain ⟨i, m, f, x, hlog⟩ := s.fmEvent_rest 10 p
  rw [State.discardWork, State.dropWork_bay, hlog]
  rfl

theorem State.discardWork_lathAt (s : State) (p cause k : Nat) : (s.discardWork p cause).lathAt k =
    if lostTo (s.goneWith p) (s.lathAt k).slot then { s.lathAt k with updates := [], hop := none, waiting := false } else s.lathAt k := by
  obtain ⟨i, m, f, x, hlog⟩ := s.fmEvent_rest 10 p
  rw [State.discardWork, State.dropWork_lathAt, hlog]
  rfl

/-- The chains that a discard of partition `p` stops. -/
def State.chainsOf (s : State) (p : Nat) : List (Nat × Chain) := s.chains.filter fun e => chainEn e.2 && chainPart e.2 == p

theorem State.mem_chainsOf {s : State} {p c : Nat} (hen : chainEn (s.chain c) = true) (hp : chainPart (s.chain c) = p) :
    (c, s.chain c) ∈ s.chainsOf p := by
  refine List.mem_filter.mpr ⟨Tab.mem_of_get_ne fun hd => ?_, by simp [hen, hp]⟩
  change s.chain c = {} at hd
  rw [hd] at hen
  cases hen

/-- A discard step by step. -/
theorem State.discard_eq (s : State) (p cause : Nat) :
    ∃ x, s.discard p cause = { (s.discardWork p cause).stopChains (s.chainsOf p) with parts := x } := by
  obtain ⟨i, m, f, x, hlog⟩ := s.fmEvent_rest 10 p
  unfold State.discard State.discardWork
  rw [hlog]
  exact ⟨_, rfl⟩

/-- A discard beside its chains and what it notes of the partitions. -/
theorem State.discard_rest (s : State) (p cause : Nat) : ∃ c j x, s.discard p cause = { s.discardWork p cause with chains := c, jointers := j, parts := x } := by
  obtain ⟨x, h⟩ := s.discard_eq p cause
  obtain ⟨c, j, hchains⟩ := State.stopChains_rest (s.discardWork p cause) (s.chainsOf p)
  exact ⟨c, j, x, by rw [h, hchains]⟩

theorem discard_sameMemRing (s : State) (p cause : Nat) : SameMemRing s (s.discard p cause) := by
  obtain ⟨c, j, x, h⟩ := s.discard_rest p cause
  rw [h]
  exact fmEvent_sameMemRing s 10 p

theorem Bay.stop_streams (y : Bay) : ∀ e ∈ engines, (y.stop.stream e).run = false := y.stopAt_streams 0

/-- A discard of a partition discards it. -/
theorem discard_discards (s : State) (p cause : Nat) : Discarded s (s.discard p cause) (· = p) (BitVec.ofNat 8 cause) := by
  obtain ⟨c, j, x, hrest⟩ := s.discard_rest p cause
  have hjob : ∀ n, (s.discard p cause).job n = (s.job n).discarded p cause := fun n => by rw [hrest]; exact s.discardWork_job p cause n
  have hbay : ∀ b, (s.discard p cause).bay b = (s.discardWork p cause).bay b := fun b => by rw [hrest]; rfl
  have hlath : ∀ k, (s.discard p cause).lathAt k = (s.discardWork p cause).lathAt k := fun k => by rw [hrest]; rfl
  refine ⟨fun n hp h => ?_, fun b n hslot hp h => ?_, fun k n hslot hp h => ?_, fun c hen hp => ?_, fun n hn => ?_, fun b hb => ?_⟩
  · rw [hjob, Job.discarded, if_pos ((Job.endsWith_iff _ _).mpr ⟨hp, h⟩)]
    exact ⟨rfl, rfl, rfl⟩
  · rw [hbay, State.discardWork_bay, hslot, if_pos ((lostTo_some _ _).mpr (State.job_mem_goneWith hp h))]
    exact ⟨rfl, Bay.stop_streams _⟩
  · rw [hlath, State.discardWork_lathAt, hslot, if_pos ((lostTo_some _ _).mpr (State.job_mem_goneWith hp h))]
  · obtain ⟨x, hchains⟩ := s.discard_eq p cause
    rw [hchains]
    exact State.stopChains_stopped _ (.inr ⟨_, State.mem_chainsOf hen hp, rfl⟩)
  · rw [hjob, Job.discarded, if_neg fun h => ?_]
    obtain ⟨hp, h⟩ := (Job.endsWith_iff _ _).mp h
    exact hn.elim (· hp) (· h)
  · rw [hbay, State.discardWork_bay, if_neg fun h => ?_]
    cases hslot : (s.bay b).slot with
    | none => rw [hslot] at h; cases h
    | some n =>
      rw [hslot, lostTo_some] at h
      obtain ⟨e, he, rfl, hp, hholds⟩ := State.mem_goneWith.mp h
      exact (hb e he hslot).elim (· hp) (· hholds)

end Sys2Proof.Machine
end

section
/-! A job leaves the scoreboard (R311, R325, R328): its record, the release of what its copies held, and what the partition is told. -/

namespace Sys2Proof.Machine

/-! ### The release of a copy (R300, R328) -/

/-- A bay after the release of copy `n`. -/
def Bay.released (y : Bay) (n : Nat) : Bay :=
  { (if y.slot = some n then { y.stop with slot := none } else y) with shadowFor := if y.shadowFor = some n then none else y.shadowFor }

theorem Bay.released_own {y : Bay} {n : Nat} (h : y.slot = some n) : (y.released n).slot = none ∧ (y.released n).live = false := by
  rw [Bay.released, if_pos h]
  exact ⟨rfl, rfl⟩

theorem Bay.released_other {y : Bay} {n : Nat} (h : y.slot ≠ some n) : y.released n = { y with shadowFor := (y.released n).shadowFor } := by
  rw [Bay.released, if_neg h]

/-- A lath after the release of copy `n`. -/
def Lath.releasedBy (x : Lath) (n : Nat) : Lath :=
  if x.slot = some n then x.release else { x with shadowFor := if x.shadowFor = some n then none else x.shadowFor }

/-- A lath that no job holds, with its queues empty. -/
structure Lath.Idle (x : Lath) : Prop where
  slot : x.slot = none
  ctx : x.ctx = 0
  emit : ∀ o, (x.outPort o).emit = []
  inputs : ∀ i, (x.inPort i).store = [] ∧ (x.inPort i).sources = []

theorem Lath.release_idle (x : Lath) : x.release.Idle := by
  have hout : ∀ o, x.release.outPort o = {} := fun o => by
    rcases o with _ | _ | _ | _ | o <;> rfl
  have hin : ∀ i, x.release.inPort i = {} := fun i => by
    rcases i with _ | _ | _ | _ | i <;> rfl
  exact ⟨rfl, rfl, fun o => by rw [hout], fun i => by rw [hin]; exact ⟨rfl, rfl⟩⟩

theorem Lath.Idle.releasedBy {x : Lath} (h : x.Idle) (n : Nat) : (x.releasedBy n).Idle := by
  rw [Lath.releasedBy, if_neg (by simp [h.slot])]
  exact ⟨h.slot, h.ctx, h.emit, h.inputs⟩

theorem State.dropHolds_rest (s : State) (l : List (Nat × Nat)) : ∃ h, l.foldl (fun s (e : Nat × Nat) => s.dropHold e.1 e.2) s = { s with holds := h } :=
  List.foldlRecOn (motive := fun t : State => ∃ h, t = { s with holds := h }) l _ ⟨_, rfl⟩ (by
    rintro _ ⟨h, rfl⟩ e -
    exact ⟨_, rfl⟩)

theorem State.releaseGroup_rest (s : State) (g : Nat) : ∃ j h x, s.releaseGroup g = { s with jobs := j, holds := h, groups := x } := by
  obtain ⟨h, hdrop⟩ := State.dropHolds_rest s.latchCounts (s.latchCounts.group g).held
  unfold State.releaseGroup
  dsimp only
  exact ⟨_, h, _, by rw [hdrop]; rfl⟩

/-- What the release of copy `n` leaves of the parts of the machine that the end of a job speaks of. -/
structure Released (s t : State) (n : Nat) : Prop where
  bay : ∀ b, t.bay b = (s.bay b).released n
  lath : ∀ k, t.lathAt k = (s.lathAt k).releasedBy n
  granules : ∀ g, Tab.get 256 s.metaJob g = n → Tab.get 0 t.meta_ g = 0
  part : ∀ p, ∃ x f m, t.part p = { s.part p with stuck := x, faults := f, moves := m }
  mem : t.mem = s.mem

theorem releaseCopy_released (n : Nat) (s : State) : Released s (releaseCopy n s) n := by
  obtain ⟨j, h, x, hgroups⟩ : ∃ j h x, ((s.groups.filter fun e => e.2.slot.toNat = n % 1024 && e.2.part.toNat = (s.job n).part).map fun e => e.1).foldl
      (fun s g => (s.releaseGroup g).setGroup g { (s.releaseGroup g).group g with armed := false, due := [] }) s =
        { s with jobs := j, holds := h, groups := x } :=
    List.foldlRecOn (motive := fun t : State => ∃ j h x, t = { s with jobs := j, holds := h, groups := x }) _ _ ⟨_, _, _, rfl⟩ (by
      rintro _ ⟨j, h, x, rfl⟩ g -
      obtain ⟨j', h', x', hg⟩ := State.releaseGroup_rest { s with jobs := j, holds := h, groups := x } g
      exact ⟨j', h', _, by rw [hg]; rfl⟩)
  unfold releaseCopy
  dsimp only
  rw [hgroups]
  refine ⟨fun b => ?_, fun k => ?_, fun g hg => ?_, fun p => ?_, rfl⟩
  · exact Tab.get_map (f := fun _ (y : Bay) => y.released n) rfl s.bays
  · exact Tab.get_map (f := fun _ (x : Lath) => x.releasedBy n) rfl s.laths
  · refine (Tab.get_filter 0 (fun g => Tab.get 256 s.metaJob g != n) g s.meta_).trans (if_neg ?_)
    simp [hg]
  · exact ⟨_, _, _, Tab.get_map (f := fun _ (x : Part) => { x.unstick n with
      faults := x.faults.filter fun f => f.slot != some n, moves := x.moves.filter fun m => m.slot != n || decide (m.tid < 32768) }) rfl s.parts⟩

/-! ### The copies of a job, one after another -/

/-- The releases of several copies. -/
def State.releaseCopies (s : State) (l : List Nat) : State := l.foldl (fun s k => releaseCopy k s) s

theorem State.releaseCopies_mem (s : State) (l : List Nat) : (s.releaseCopies l).mem = s.mem :=
  List.foldlRecOn (motive := fun t : State => t.mem = s.mem) l _ rfl fun t h k _ => (releaseCopy_released k t).mem.trans h

theorem State.releaseCopies_msix (s : State) (l : List Nat) (p : Nat) : ((s.releaseCopies l).part p).msix = (s.part p).msix :=
  List.foldlRecOn (motive := fun t : State => (t.part p).msix = (s.part p).msix) l _ rfl fun t h k _ => by
    obtain ⟨x, f, m, hpart⟩ := (releaseCopy_released k t).part p
    rw [hpart]
    exact h

theorem State.releaseCopies_bay_freed {s : State} (l : List Nat) {b : Nat} (h : (s.bay b).slot = none ∧ (s.bay b).live = false) :
    ((s.releaseCopies l).bay b).slot = none ∧ ((s.releaseCopies l).bay b).live = false :=
  List.foldlRecOn (motive := fun t : State => (t.bay b).slot = none ∧ (t.bay b).live = false) l _ h fun t h k _ => by
    obtain ⟨hslot, hlive⟩ := h
    rw [(releaseCopy_released k t).bay, Bay.released_other (by simp [hslot])]
    exact ⟨hslot, hlive⟩

theorem State.releaseCopies_bay_other {s : State} {l : List Nat} {b : Nat} (h : ∀ k ∈ l, (s.bay b).slot ≠ some k) :
    (s.releaseCopies l).bay b = { s.bay b with shadowFor := ((s.releaseCopies l).bay b).shadowFor } :=
  List.foldlRecOn (motive := fun t : State => t.bay b = { s.bay b with shadowFor := (t.bay b).shadowFor }) l _ rfl fun t ht k hk => by
    have hslot : (t.bay b).slot ≠ some k := by rw [ht]; exact h k hk
    rw [(releaseCopy_released k t).bay, Bay.released_other hslot, ht]

theorem State.releaseCopies_lath_idle {s : State} (l : List Nat) {k : Nat} (h : (s.lathAt k).Idle) : ((s.releaseCopies l).lathAt k).Idle :=
  List.foldlRecOn (motive := fun t : State => (t.lathAt k).Idle) l _ h fun t h n _ => by
    rw [(releaseCopy_released n t).lath]
    exact h.releasedBy n

theorem State.releaseCopies_bay_own {s : State} {n b : Nat} (l : List Nat) (h : (s.bay b).slot = some n) :
    ((s.releaseCopies (n :: l)).bay b).slot = none ∧ ((s.releaseCopies (n :: l)).bay b).live = false :=
  State.releaseCopies_bay_freed (s := releaseCopy n s) l (by
    rw [(releaseCopy_released n s).bay]
    exact Bay.released_own h)

theorem State.releaseCopies_lath_own {s : State} {n k : Nat} (l : List Nat) (h : (s.lathAt k).slot = some n) :
    ((s.releaseCopies (n :: l)).lathAt k).Idle :=
  State.releaseCopies_lath_idle (s := releaseCopy n s) l (by
    rw [(releaseCopy_released n s).lath, Lath.releasedBy, if_pos h]
    exact Lath.release_idle _)

/-! ### The completion record (R325) -/

/-- Bytes that read as those of a list are the list. -/
theorem Memory.readBytes_eq (m : Memory) : ∀ (l : List Byte) (a : Nat), (∀ i, i < l.length → Memory.read m (a + i) = nth 0 l i) →
    Memory.readBytes m a l.length = l
  | [], _, _ => rfl
  | b :: l, a, h => by
    have hhead : Memory.read m a = b := h 0 (by simp)
    have htail := Memory.readBytes_eq m l (a + 1) fun i hi => by
      rw [show a + 1 + i = a + (i + 1) by omega]
      exact h (i + 1) (by simpa using hi)
    rw [List.length_cons, Memory.readBytes, hhead, htail]

/-- The front of what was written reads back. -/
theorem Memory.readBytes_writeBytes (m : Memory) (a : Nat) (l r : List Byte) : Memory.readBytes (Memory.writeBytes m a (l ++ r)) a l.length = l :=
  Memory.readBytes_eq _ l a fun i hi => by
    rw [Memory.read_writeBytes_inside _ _ _ _ (by rw [List.length_append]; omega), nth, nth, List.getD_append _ _ _ _ hi]

/-- The first bytes of a completion record. -/
def recordHead (jobid : Word) (status cause code fbay : Nat) : List Byte :=
  natBytes 8 jobid.toNat ++ [BitVec.ofNat 8 status, BitVec.ofNat 8 cause, BitVec.ofNat 8 code, BitVec.ofNat 8 fbay]

theorem completionRecord_eq (p : Nat) (crec jobid : Word) (status cause code fbay frec : Nat) (placed : Option Word) (s : State) :
    ∃ i l, l.length = 20 ∧ completionRecord p crec jobid status cause code fbay frec placed s =
      ({ s with tick := i, mem := Memory.writeBytes s.mem (hostAddr crec.toNat) (recordHead jobid status cause code fbay ++ l) } : State).modPart p
        fun x => { x with msix := x.msix + 1 } := by
  unfold completionRecord
  cases placed with
  | none => exact ⟨_, natBytes 4 frec ++ natBytes 8 s.fresh.1.toNat ++ natBytes 8 s.clk.time.toNat, by simp, by
      simp only [State.write_host, recordHead, natBytes, List.cons_append, List.nil_append]
      rfl⟩
  | some t => exact ⟨_, natBytes 4 frec ++ natBytes 8 t.toNat ++ natBytes 8 s.clk.time.toNat, by simp, by
      simp only [State.write_host, recordHead, natBytes, List.cons_append, List.nil_append]
      rfl⟩

/-! ### What the partition is told -/

/-- An entry of the scoreboard that is free stays so as a JOBID enters the history. -/
theorem settle_free {s : State} {n : Nat} (p : Nat) (jobid : Word) (ok : Bool) (h : s.job n = {}) : (settle p jobid ok s).job n = {} := by
  refine (Tab.get_map (d := ({} : Job)) (f := fun _ (j : Job) =>
    if j.part = p && j.state == .wait && j.deps.any fun d => d.kind = 3 && !d.isMet && d.c = jobid then
      if ok then { j with deps := j.deps.map fun d => if d.kind = 3 && d.c = jobid then { d with isMet := true } else d } else { j with status := 5 }
    else j) (by simp) s.jobs).trans ?_
  rw [show Tab.get {} s.jobs n = {} from h]
  simp

theorem settle_part (p : Nat) (jobid : Word) (ok : Bool) (s : State) :
    (settle p jobid ok s).part p = { s.part p with history := ((jobid, ok) :: (s.part p).history).take 1024 } := Tab.get_put_same _ _ _ _

theorem queueIdle_cases (p q : Nat) (s : State) : queueIdle p q s = s ∨ ∃ x, queueIdle p q s = s.setQueue p q x := by
  unfold queueIdle
  split
  · exact .inl rfl
  · exact .inr ⟨_, rfl⟩

theorem queueIdle_keeps (p q : Nat) (s : State) : (∃ x, queueIdle p q s = { s with parts := x }) ∧
    ((queueIdle p q s).part p).msix = (s.part p).msix ∧ ((queueIdle p q s).part p).history = (s.part p).history := by
  obtain h | ⟨x, h⟩ := queueIdle_cases p q s
  · rw [h]
    exact ⟨⟨_, rfl⟩, rfl, rfl⟩
  · have hpart : (s.setQueue p q x).part p = { s.part p with queues := Tab.put (s.part p).queues q x } := Tab.get_put_same _ _ _ _
    rw [h, hpart]
    exact ⟨⟨_, rfl⟩, rfl, rfl⟩

theorem endCommand_part (p res : Nat) (s : State) :
    (endCommand p res s).part p = { s.part p with busy := false, res := BitVec.ofNat 8 res, msix := (s.part p).msix + 1 } := Tab.get_put_same _ _ _ _

theorem endPreempt_keeps (p : Nat) (jobid : Word) (res : Nat) (s : State) : (∃ x, endPreempt p jobid res s = { s with parts := x }) ∧
    (s.part p).msix ≤ ((endPreempt p jobid res s).part p).msix ∧ ((endPreempt p jobid res s).part p).history = (s.part p).history := by
  unfold endPreempt
  dsimp only
  split
  · rw [endCommand_part]
    exact ⟨⟨_, rfl⟩, Nat.le_succ _, rfl⟩
  · exact ⟨⟨_, rfl⟩, Nat.le_refl _, rfl⟩

/-! ### The end of a job -/

/-- The state of a job's end with its record written and its copies released. -/
def leaveReleased (n status cause code : Nat) (s : State) : State :=
  let j := s.job n
  (completionRecord j.part j.crec j.jobid status cause code j.fbay.toNat j.frec.toNat (if j.placed then some j.placedTime else none) s).releaseCopies (s.copies n)

theorem leave_eq (n status cause code : Nat) (s : State) : leave n status cause code s =
    endPreempt (s.job n).part (s.job n).jobid 2 (queueIdle (s.job n).part (s.job n).queue (settle (s.job n).part (s.job n).jobid (status = 0)
      { leaveReleased n status cause code s with jobs := Tab.erase (twinSlot n) (Tab.erase n (leaveReleased n status cause code s).jobs) })) := by
  have hcopies : (completionRecord (s.job n).part (s.job n).crec (s.job n).jobid status cause code (s.job n).fbay.toNat (s.job n).frec.toNat
      (if (s.job n).placed then some (s.job n).placedTime else none) s).copies n = s.copies n := by
    obtain ⟨i, l, -, h⟩ := completionRecord_eq (s.job n).part (s.job n).crec (s.job n).jobid status cause code (s.job n).fbay.toNat (s.job n).frec.toNat
      (if (s.job n).placed then some (s.job n).placedTime else none) s
    rw [h]
    rfl
  unfold leave leaveReleased State.releaseCopies
  dsimp only
  rw [hcopies]

/-- The record written and the copies released. -/
theorem leaveReleased_left (n status cause code : Nat) (s : State) : let u := leaveReleased n status cause code s
    let j := s.job n
    (∃ l, l.length = 20 ∧ u.mem = Memory.writeBytes s.mem (hostAddr j.crec.toNat) (recordHead j.jobid status cause code j.fbay.toNat ++ l)) ∧
    (u.part j.part).msix = (s.part j.part).msix + 1 ∧
    (∀ b, (s.bay b).slot = some n → (u.bay b).slot = none ∧ (u.bay b).live = false) ∧ (∀ k, (s.lathAt k).slot = some n → (u.lathAt k).Idle) ∧
    ∀ b, (∀ k ∈ s.copies n, (s.bay b).slot ≠ some k) → u.bay b = { s.bay b with shadowFor := (u.bay b).shadowFor } := by
  obtain ⟨i, l, hl, hrecord⟩ := completionRecord_eq (s.job n).part (s.job n).crec (s.job n).jobid status cause code (s.job n).fbay.toNat
    (s.job n).frec.toNat (if (s.job n).placed then some (s.job n).placedTime else none) s
  unfold leaveReleased
  dsimp only
  rw [hrecord]
  refine ⟨⟨l, hl, State.releaseCopies_mem _ _⟩, ?_, fun b hb => State.releaseCopies_bay_own _ hb,
    fun k hk => State.releaseCopies_lath_own _ hk, fun b hb => State.releaseCopies_bay_other hb⟩
  rw [State.releaseCopies_msix, State.modPart, State.setPart_part_same]
  rfl

/-- What the partition of a job is told at its end. -/
theorem told_keeps (p q : Nat) (jobid : Word) (ok : Bool) (u : State) : let t := endPreempt p jobid 2 (queueIdle p q (settle p jobid ok u))
    (∃ x j, t = { u with parts := x, jobs := j }) ∧ (∀ n, u.job n = {} → t.job n = {}) ∧ (u.part p).msix ≤ (t.part p).msix ∧
      (t.part p).history = ((jobid, ok) :: (u.part p).history).take 1024 := by
  have hsettle := settle_part p jobid ok u
  have hfree := fun n => settle_free (s := u) (n := n) p jobid ok
  have hrest : ∃ x j, settle p jobid ok u = { u with parts := x, jobs := j } := ⟨_, _, rfl⟩
  generalize settle p jobid ok u = v at hsettle hfree hrest ⊢
  obtain ⟨⟨x, hqueue⟩, hqmsix, hqhistory⟩ := queueIdle_keeps p q v
  generalize queueIdle p q v = w at hqueue hqmsix hqhistory ⊢
  obtain ⟨⟨y, hend⟩, hemsix, hehistory⟩ := endPreempt_keeps p jobid 2 w
  rw [hqmsix, hsettle] at hemsix
  rw [hqhistory, hsettle] at hehistory
  obtain ⟨z, j, rfl⟩ := hrest
  subst hqueue
  refine ⟨⟨y, j, hend⟩, fun n hn => ?_, hemsix, hehistory⟩
  rw [hend]
  exact hfree n hn

theorem leave_told (n status cause code : Nat) (s : State) : let t := leave n status cause code s
    let u := leaveReleased n status cause code s
    (∃ x j, t = { u with parts := x, jobs := j }) ∧ t.job n = {} ∧ (u.part (s.job n).part).msix ≤ (t.part (s.job n).part).msix ∧
      (t.part (s.job n).part).history = (((s.job n).jobid, decide (status = 0)) :: (u.part (s.job n).part).history).take 1024 := by
  dsimp only
  rw [leave_eq]
  generalize leaveReleased n status cause code s = u
  obtain ⟨⟨x, j, hrest⟩, hfree, hmsix, hhistory⟩ := told_keeps (s.job n).part (s.job n).queue (s.job n).jobid (status = 0)
    { u with jobs := Tab.erase (twinSlot n) (Tab.erase n u.jobs) }
  exact ⟨⟨x, j, hrest⟩, hfree n ((Tab.get_erase_ne _ (by unfold twinSlot; omega) _).trans (Tab.get_erase_same _ _ _)), hmsix, hhistory⟩

/-- A job that leaves has left. -/
theorem leave_left (n status cause code : Nat) (s : State) : Left s (leave n status cause code s) n status cause code := by
  obtain ⟨⟨l, hl, hmem⟩, hmsix, hown, hlath, hother⟩ := leaveReleased_left n status cause code s
  obtain ⟨⟨x, j, ht⟩, hfree, htold, hhistory⟩ := leave_told n status cause code s
  generalize leave n status cause code s = t at ht hfree htold hhistory ⊢
  generalize leaveReleased n status cause code s = u at hmem hmsix hown hlath hother ht htold hhistory
  have htmem : t.mem = u.mem := by rw [ht]
  have hbay : ∀ b, t.bay b = u.bay b := fun b => by rw [ht]; rfl
  have hlathAt : ∀ k, t.lathAt k = u.lathAt k := fun k => by rw [ht]; rfl
  clear ht
  refine ⟨by rw [hfree], ?_, by omega, by rw [hhistory]; rfl, fun b hb => by rw [hbay]; exact hown b hb, fun k hk => ?_,
    fun b hb => by rw [hbay]; exact hother b hb, fun a ha => ?_⟩
  · rw [State.recorded, State.readBytes, htmem, hmem]
    exact Memory.readBytes_writeBytes _ _ (recordHead _ _ _ _ _) _
  · obtain ⟨hslot, hctx, hemit, hinputs⟩ := hlath k hk
    rw [hlathAt]
    exact ⟨hslot, hctx, hemit, hinputs⟩
  · rw [htmem, hmem]
    refine Memory.read_writeBytes_outside _ _ _ _ ?_
    rw [List.length_append, hl]
    exact ha _ (List.mem_singleton_self _)

end Sys2Proof.Machine
end

section
/-! Run 1 of a plumb job (R459): the granules of SHARED tensors and the laths as at the start, and each bay started again from its plane. -/

namespace Sys2Proof.Machine

/-! ### Stores one after another -/

theorem State.dirtyLine_rest (s : State) (a : Nat) : ∃ y, s.dirtyLine a = { s with bays := y } := by
  unfold State.dirtyLine
  split
  · exact ⟨_, rfl⟩
  · exact ⟨_, rfl⟩

/-- A store changes bytes, and marks lines in bays. -/
theorem State.write_rest (s : State) (a : Nat) (l : List Byte) : ∃ y, s.write a l = { s with bays := y, mem := Memory.writeBytes s.mem a l } := by
  unfold State.write
  split
  · exact ⟨_, rfl⟩
  · obtain ⟨y, hfirst⟩ := s.dirtyLine_rest a
    obtain ⟨z, hlast⟩ := (s.dirtyLine a).dirtyLine_rest (a + l.length - 1)
    rw [hlast, hfirst]
    exact ⟨z, rfl⟩

/-- Stores of lists of bytes, each at its address. -/
def State.writeAll (s : State) (l : List (Nat × List Byte)) : State := l.foldl (fun s e => s.write e.1 e.2) s

theorem State.writeAll_rest (s : State) (l : List (Nat × List Byte)) : ∃ y m, s.writeAll l = { s with bays := y, mem := m } :=
  List.foldlRecOn (motive := fun t : State => ∃ y m, t = { s with bays := y, mem := m }) l _ ⟨_, _, rfl⟩ (by
    rintro _ ⟨y, m, rfl⟩ e -
    obtain ⟨z, h⟩ := State.write_rest { s with bays := y, mem := m } e.1 e.2
    exact ⟨_, _, h⟩)

/-- A byte outside every store keeps. -/
theorem State.writeAll_outside {s : State} {l : List (Nat × List Byte)} {a : Nat} (h : ∀ e ∈ l, a < e.1 ∨ e.1 + e.2.length ≤ a) :
    Memory.read (s.writeAll l).mem a = Memory.read s.mem a :=
  List.foldlRecOn (motive := fun t : State => Memory.read t.mem a = Memory.read s.mem a) l _ rfl fun t ht e he => by
    rw [State.write_mem, Memory.read_writeBytes_outside _ _ _ _ (h e he), ht]

/-- Granules stored at addresses of their own read back. -/
theorem State.writeAll_granules : ∀ {l : List (Nat × List Byte)} {s : State}, (l.map fun e => e.1).Nodup → (∀ e ∈ l, e.1 % 32 = 0 ∧ e.2.length = 32) →
    ∀ e ∈ l, ∀ i, i < 32 → Memory.read (s.writeAll l).mem (e.1 + i) = nth 0 e.2 i
  | [], _, _, _, _, he, _, _ => absurd he List.not_mem_nil
  | x :: l, s, hnodup, hshape, e, he, i, hi => by
    rw [List.map_cons, List.nodup_cons] at hnodup
    obtain ⟨hnew, hnodup⟩ := hnodup
    change Memory.read ((s.write x.1 x.2).writeAll l).mem (e.1 + i) = _
    obtain rfl | he := List.mem_cons.mp he
    · obtain ⟨halign, hlen⟩ := hshape e (List.mem_cons_self ..)
      rw [State.writeAll_outside fun f hf => ?_, State.write_mem, Memory.read_writeBytes_inside _ _ _ _ (by omega)]
      obtain ⟨hf32, hflen⟩ := hshape f (List.mem_cons_of_mem _ hf)
      have hne : f.1 ≠ e.1 := fun h => hnew (List.mem_map.mpr ⟨f, hf, h⟩)
      omega
    · exact State.writeAll_granules hnodup (fun f hf => hshape f (List.mem_cons_of_mem _ hf)) e he i hi

/-! ### The start of bays -/

theorem inBay_sill (b : Nat) {a : Nat} (h : sillAddr 0 0 ≤ a) : inBay b a = false := by
  have hacc : decide (a < accAddr 0 0) = false := decide_eq_false (by unfold accAddr; unfold sillAddr at h; omega)
  have hsill : decide (a < sillAddr 0 0) = false := decide_eq_false (Nat.not_lt.mpr h)
  rw [inBay, hacc, hsill, Bool.and_false, Bool.and_false, Bool.or_false]

/-- A bay to start: its number, the plane that is active and the other, whom the other is for, and the logical number. -/
abbrev StartRec := (Nat × Plane × Plane × Option Nat) × Nat

/-- A bay starts, and keeps whom its shadow plane is for. -/
def State.startRec (n : Nat) (s : State) (e : StartRec) : State :=
  (s.startOn e.1.1 n e.2 e.1.2.1 e.1.2.2.1).modBay e.1.1 fun y => { y with shadowFor := e.1.2.2.2 }

theorem State.startRec_rest (n : Nat) (s : State) (e : StartRec) : ∃ y c, s.startRec n e =
    { s with bays := y, caches := c, mem := s.mem.filter fun c => !inBay e.1.1 c.1 } := ⟨_, _, rfl⟩

theorem State.startRec_read (n : Nat) (s : State) (e : StartRec) (a : Nat) :
    Memory.read (s.startRec n e).mem a = if inBay e.1.1 a then unlisted else Memory.read s.mem a := by
  refine (Tab.get_filter unlisted (fun a => !inBay e.1.1 a) a s.mem).trans ?_
  cases inBay e.1.1 a <;> rfl

/-- The bay of the record runs from its plane for copy `n`. -/
structure Bay.Runs (y : Bay) (n : Nat) (e : StartRec) : Prop where
  live : y.live = true
  slot : y.slot = some n
  index : y.index = e.2
  plane : y.plane = e.1.2.1

theorem State.startRec_bay_same (n : Nat) (s : State) (e : StartRec) : ((s.startRec n e).bay e.1.1).Runs n e := by
  rw [State.startRec, State.modBay_bay_same, State.startOn]
  rw [State.setBay_bay_same]
  exact ⟨rfl, rfl, rfl, rfl⟩

theorem State.startRec_bay_ne (n : Nat) (s : State) {e : StartRec} {b : Nat} (h : b ≠ e.1.1) : (s.startRec n e).bay b = s.bay b := by
  rw [State.startRec, State.modBay_bay_ne _ _ _ h, State.startOn]
  rw [State.setBay_bay_ne _ _ _ h]
  rfl

/-- Bays start one after another. -/
def State.startAll (n : Nat) (s : State) (l : List StartRec) : State := l.foldl (State.startRec n) s

theorem State.startAll_rest (n : Nat) (s : State) (l : List StartRec) : ∃ y c m, s.startAll n l = { s with bays := y, caches := c, mem := m } :=
  List.foldlRecOn (motive := fun t : State => ∃ y c m, t = { s with bays := y, caches := c, mem := m }) l _ ⟨_, _, _, rfl⟩ (by
    rintro _ ⟨y, c, m, rfl⟩ e -
    exact ⟨_, _, _, rfl⟩)

/-- The memory of a bay that has started reads as unlisted, and stays so. -/
theorem State.startAll_cleared (n a : Nat) : ∀ (l : List StartRec) {s : State}, (Memory.read s.mem a = unlisted ∨ ∃ e ∈ l, inBay e.1.1 a = true) →
    Memory.read (s.startAll n l).mem a = unlisted
  | [], _, h => h.elim id fun ⟨_, he, _⟩ => absurd he List.not_mem_nil
  | e :: l, s, h => State.startAll_cleared n a l (s := s.startRec n e) (by
    rw [State.startRec_read]
    by_cases hin : inBay e.1.1 a = true
    · exact .inl (if_pos hin)
    · rw [if_neg hin]
      refine h.imp_right ?_
      rintro ⟨x, hx, hxa⟩
      obtain rfl | hx := List.mem_cons.mp hx
      · exact absurd hxa hin
      · exact ⟨x, hx, hxa⟩)

/-- A byte outside the bays keeps. -/
theorem State.startAll_outside {n a : Nat} {l : List StartRec} {s : State} (h : ∀ b, inBay b a = false) :
    Memory.read (s.startAll n l).mem a = Memory.read s.mem a :=
  List.foldlRecOn (motive := fun t : State => Memory.read t.mem a = Memory.read s.mem a) l _ rfl fun t ht e _ => by
    rw [State.startRec_read, h, ← ht]
    rfl

theorem State.startAll_bay_ne {n b : Nat} {l : List StartRec} {s : State} (h : b ∉ l.map fun e => e.1.1) : (s.startAll n l).bay b = s.bay b :=
  List.foldlRecOn (motive := fun t : State => t.bay b = s.bay b) l _ rfl fun t ht e he => by
    rw [State.startRec_bay_ne n t fun hb => h (List.mem_map.mpr ⟨e, he, hb.symm⟩), ht]

/-- Each of the bays, where none is listed twice, runs. -/
theorem State.startAll_bay (n : Nat) : ∀ {l : List StartRec} {s : State}, (l.map fun e => e.1.1).Nodup → ∀ e ∈ l, ((s.startAll n l).bay e.1.1).Runs n e
  | [], _, _, _, he => absurd he List.not_mem_nil
  | x :: l, s, hnodup, e, he => by
    rw [List.map_cons, List.nodup_cons] at hnodup
    obtain ⟨hnew, hnodup⟩ := hnodup
    change (((s.startRec n x).startAll n l).bay e.1.1).Runs n e
    obtain rfl | he := List.mem_cons.mp he
    · rw [State.startAll_bay_ne hnew]
      exact State.startRec_bay_same n s e
    · exact State.startAll_bay n hnodup e he

/-! ### The machine before run 1's bays start -/

theorem configLaths_rest (n : Nat) (s : State) : ∃ ls x, configLaths n s = { s.modJob n fun j => { j with laths := ls } with laths := x } := by
  refine ⟨(s.jobConfigs n).map fun e => e.1.lath, ?_⟩
  unfold configLaths
  exact List.foldlRecOn (motive := fun t : State => ∃ x, t = { s.modJob n fun j => { j with laths := (s.jobConfigs n).map fun e => e.1.lath } with laths := x })
    _ _ ⟨_, rfl⟩ (by
      rintro _ ⟨x, rfl⟩ e -
      exact ⟨_, rfl⟩)

theorem State.freshTrusses_rest (s : State) (bays : List Nat) (seed : Word) : ∃ x, s.freshTrusses bays seed = { s with bents := x } :=
  List.foldlRecOn (motive := fun t : State => ∃ x, t = { s with bents := x }) _ _ ⟨_, rfl⟩ (by
    rintro _ ⟨x, rfl⟩ e -
    exact ⟨_, rfl⟩)

/-- The job as run 1 begins. -/
def State.secondRun (s : State) (n : Nat) : Job :=
  { s.job n with run1 := true, shared0 := [], d0lo := (s.jobDigest n).1, d0hi := (s.jobDigest n).2, dlo := 0, dhi := 0, q := 0 }

/-- The SHARED granules as at the start. -/
def plumbShared (n : Nat) (s : State) : State := ((releaseCopy n s).setJob n (s.secondRun n)).writeAll (s.job n).shared0

/-- The machine with all but the bays as at the start. -/
def plumbReady (n : Nat) (s : State) : State :=
  (clearHomes (s.job n).part (configLaths n (plumbShared n s))).freshTrusses (s.job n).bays ((plumbShared n s).job n).seed

/-- The bays of run 1, each with the planes that run 0 leaves it. -/
def State.secondStarts (s : State) (n : Nat) : List StartRec :=
  let bays := (s.job n).bays
  (bays.zip (bays.map fun b => ((s.bay b).plane, (s.bay b).shadow, (s.bay b).shadowFor))).zip (List.range bays.length)

theorem plumbRestart_eq (n : Nat) (s : State) : plumbRestart n s = (plumbReady n s).startAll n (s.secondStarts n) := rfl

theorem plumbReady_spec (n : Nat) (s : State) : (plumbReady n s).mem = (plumbShared n s).mem ∧ (plumbReady n s).meta_ = (releaseCopy n s).meta_ ∧
    ∃ ls, (plumbReady n s).job n = { s.secondRun n with laths := ls } := by
  obtain ⟨y, m, hshared⟩ := State.writeAll_rest ((releaseCopy n s).setJob n (s.secondRun n)) (s.job n).shared0
  change plumbShared n s = _ at hshared
  obtain ⟨ls, x, hlaths⟩ := configLaths_rest n (plumbShared n s)
  unfold plumbReady
  obtain ⟨z, hbents⟩ := State.freshTrusses_rest (clearHomes (s.job n).part (configLaths n (plumbShared n s))) (s.job n).bays
    ((plumbShared n s).job n).seed
  rw [hbents, hlaths, hshared]
  refine ⟨rfl, rfl, ls, ?_⟩
  change (State.setJob _ n _).job n = _
  rw [State.setJob_job_same]
  change { (State.setJob _ n _).job n with laths := ls } = _
  rw [State.setJob_job_same]

theorem State.mem_secondStarts {s : State} {n i b : Nat} (h : (s.job n).bays[i]? = some b) :
    ((b, (s.bay b).plane, (s.bay b).shadow, (s.bay b).shadowFor), i) ∈ s.secondStarts n := by
  have hi : i < (s.job n).bays.length := (List.getElem?_eq_some_iff.mp h).1
  refine List.mem_of_getElem? (i := i) ?_
  rw [State.secondStarts, List.getElem?_zip_eq_some, List.getElem?_zip_eq_some, List.getElem?_map, h]
  exact ⟨⟨rfl, rfl⟩, by simp [hi]⟩

theorem State.secondStarts_bays (s : State) (n : Nat) : (s.secondStarts n).map (fun e => e.1.1) = (s.job n).bays := by
  change (s.secondStarts n).map (Prod.fst ∘ Prod.fst) = _
  rw [← List.map_map, State.secondStarts, List.map_fst_zip (by simp), List.map_fst_zip (by simp)]

/-! ### What run 1 begins with -/

/-- The job of run 1 keeps the digest of run 0, and its state. -/
theorem plumbRestart_job (n : Nat) (s : State) : let t := plumbRestart n s
    (t.job n).run1 = true ∧ ((t.job n).d0lo, (t.job n).d0hi) = s.jobDigest n ∧ (t.job n).state = (s.job n).state := by
  obtain ⟨y, c, m, hrest⟩ := State.startAll_rest n (plumbReady n s) (s.secondStarts n)
  obtain ⟨-, -, ls, hjob⟩ := plumbReady_spec n s
  have htjob : (plumbRestart n s).job n = { s.secondRun n with laths := ls } := by
    rw [plumbRestart_eq, hrest]
    exact hjob
  dsimp only
  rw [htjob]
  exact ⟨rfl, rfl, rfl⟩

/-- Each bay of run 1 runs from its plane, and its memory is cleared. -/
theorem plumbRestart_bay {s : State} {n i b : Nat} (hnodup : (s.job n).bays.Nodup) (h : (s.job n).bays[i]? = some b) : let t := plumbRestart n s
    (t.bay b).live = true ∧ (t.bay b).slot = some n ∧ (t.bay b).index = i ∧ (t.bay b).plane = (s.bay b).plane ∧
      ∀ a, inBay b a = true → Memory.read t.mem a = unlisted := by
  have hmem := State.mem_secondStarts h
  obtain ⟨hlive, hslot, hindex, hplane⟩ := State.startAll_bay n (s := plumbReady n s) (by rw [State.secondStarts_bays]; exact hnodup) _ hmem
  exact ⟨hlive, hslot, hindex, hplane, fun a ha => State.startAll_cleared n a _ (.inr ⟨_, hmem, ha⟩)⟩

/-- The sill and what lies beyond it keep what run 0 left, but for the granules that are as at the start. -/
theorem plumbRestart_shared {s : State} {n : Nat} (hnodup : ((s.job n).shared0.map fun e => e.1).Nodup)
    (hshape : ∀ e ∈ (s.job n).shared0, sillAddr 0 0 ≤ e.1 ∧ e.1 % 32 = 0 ∧ e.2.length = 32) : let t := plumbRestart n s
    (∀ e ∈ (s.job n).shared0, t.readBytes e.1 32 = e.2) ∧ (∀ g, Tab.get 256 s.metaJob g = n → Tab.get 0 t.meta_ g = 0) ∧
      ∀ a, sillAddr 0 0 ≤ a → (∀ e ∈ (s.job n).shared0, a < e.1 ∨ e.1 + 32 ≤ a) → Memory.read t.mem a = Memory.read s.mem a := by
  obtain ⟨hready, hmeta, -⟩ := plumbReady_spec n s
  have hreleased := releaseCopy_released n s
  have hmem : ∀ a, sillAddr 0 0 ≤ a → Memory.read (plumbRestart n s).mem a = Memory.read (plumbShared n s).mem a := fun a ha => by
    rw [plumbRestart_eq, State.startAll_outside fun b => inBay_sill b ha, hready]
  refine ⟨fun e he => ?_, fun g hg => ?_, fun a ha hout => ?_⟩
  · obtain ⟨hsill, -, hlen⟩ := hshape e he
    rw [State.readBytes, ← hlen]
    refine Memory.readBytes_eq _ _ _ fun i hi => ?_
    rw [hmem _ (by omega)]
    exact State.writeAll_granules hnodup (fun f hf => (hshape f hf).2) e he i (by omega)
  · obtain ⟨y, c, m, hrest⟩ := State.startAll_rest n (plumbReady n s) (s.secondStarts n)
    rw [plumbRestart_eq, hrest]
    change Tab.get 0 (plumbReady n s).meta_ g = 0
    rw [hmeta]
    exact hreleased.granules g hg
  · rw [hmem a ha]
    refine (State.writeAll_outside fun e he => ?_).trans (congrArg (Memory.read · a) hreleased.mem)
    obtain ⟨-, -, hlen⟩ := hshape e he
    rw [hlen]
    exact hout e he

end Sys2Proof.Machine
end

section
/-! The ends of jobs (R205, R216, R323, R325, R455, R459): completion, the two runs of a plumb job, and the save of a stopped job. -/

namespace Sys2Proof.Machine

/-! ### Completion (R325) -/

section
variable {s : State} {n : Nat} (hn : n < 256) (hup : s.framerUp = true) (hstate : (s.job n).state ≠ .free)
include hn hup hstate

theorem jobCompletion_eq : jobCompletion n s =
    if (s.job n).ended && !(s.job n).stopping then leave n (s.job n).status.toNat (s.job n).cause.toNat 0 s
    else if !s.allHalted n then s
    else if (s.job n).paired && !s.pairAgrees n then s.discard (s.job n).part 0xC4
    else if (s.job n).plumb && (s.job n).status = 0 then
      if !(s.job n).run1 then plumbRestart n s
      else if s.jobDigest n = ((s.job n).d0lo, (s.job n).d0hi) then leave n 0 0 0 s
      else s.discard (s.job n).part 0xC5
    else leave n (s.job n).status.toNat (s.job n).cause.toNat 0 s := by
  have hguard : (!s.framerUp || decide (n ≥ 256) || (s.job n).state == .free) = false := by
    simp [hup, hstate, hn]
  unfold jobCompletion
  dsimp only
  rw [hguard]
  rfl

theorem jobCompletion_ended (hended : (s.job n).ended = true) (hstop : (s.job n).stopping = false) :
    jobCompletion n s = leave n (s.job n).status.toNat (s.job n).cause.toNat 0 s := by
  rw [jobCompletion_eq hn hup hstate, hended, hstop]
  exact if_pos rfl

theorem jobCompletion_running (hended : (s.job n).ended = false) (hhalted : s.allHalted n = false) : jobCompletion n s = s := by
  rw [jobCompletion_eq hn hup hstate, hended, hhalted]
  exact (if_neg (by simp)).trans (if_pos rfl)

theorem jobCompletion_disagrees (hended : (s.job n).ended = false) (hhalted : s.allHalted n = true) (hpaired : (s.job n).paired = true)
    (hdigests : s.pairAgrees n = false) : jobCompletion n s = s.discard (s.job n).part 0xC4 := by
  rw [jobCompletion_eq hn hup hstate, hended, hhalted, hpaired, hdigests]
  exact (if_neg (by simp)).trans ((if_neg (by simp)).trans (if_pos rfl))

/-- A job whose copies agree. -/
theorem jobCompletion_agrees (hended : (s.job n).ended = false) (hhalted : s.allHalted n = true)
    (hpair : (s.job n).paired = false ∨ s.pairAgrees n = true) : jobCompletion n s =
      if (s.job n).plumb && (s.job n).status = 0 then
        if !(s.job n).run1 then plumbRestart n s
        else if s.jobDigest n = ((s.job n).d0lo, (s.job n).d0hi) then leave n 0 0 0 s
        else s.discard (s.job n).part 0xC5
      else leave n (s.job n).status.toNat (s.job n).cause.toNat 0 s := by
  have hagree : ((s.job n).paired && !s.pairAgrees n) = false := by
    rcases hpair with h | h
    · rw [h, Bool.false_and]
    · rw [h, Bool.not_true, Bool.and_false]
  rw [jobCompletion_eq hn hup hstate, hended, hhalted, hagree]
  exact (if_neg (by simp)).trans ((if_neg (by simp)).trans (if_neg (by simp)))

end

/-! ### Saves (R205, R216, R323) -/

/-- The line of the byte is dirty in its bay (R217). -/
def State.dirtyAt (s : State) (a : Nat) : Bool :=
  match lineOf a with
  | some (b, k) => (s.bay b).lineDirty k
  | none => false

theorem State.dirtyAt_iff (s : State) (a : Nat) : s.dirtyAt a = true ↔ ∃ b k, lineOf a = some (b, k) ∧ (s.bay b).lineDirty k = true := by
  unfold State.dirtyAt
  cases lineOf a with
  | none => simp
  | some e => simp [Prod.ext_iff]

/-- The image that a save of job `n` makes. -/
def State.saveArea (s : State) (n : Nat) : SaveArea :=
  let j := s.job n
  let old := j.latestArea.getD {}
  let mine (a : Nat) : Bool := j.bays.any fun b => inBay b a
  { bays := (j.bays.zip (List.range j.bays.length)).map fun e => Bay.saveOver (nth {} old.bays e.2) (s.bay e.1)
    mem := (s.mem.filter fun c => mine c.1 && s.dirtyAt c.1) ++ old.mem.filter fun c => !s.dirtyAt c.1
    metas := s.meta_.filter fun e => Tab.get 256 s.metaJob e.1 == n && mine (e.1 * 32)
    laths := s.laths.filter fun e => e.2.slot == some n }

theorem State.saveArea_bay {s : State} {n i b : Nat} (h : (s.job n).bays[i]? = some b) :
    (s.saveArea n).bays[i]? = some (Bay.saveOver (nth {} ((s.job n).latestArea.getD {}).bays i) (s.bay b)) := by
  have hi : i < (s.job n).bays.length := (List.getElem?_eq_some_iff.mp h).1
  have hzip : ((s.job n).bays.zip (List.range (s.job n).bays.length))[i]? = some (b, i) := by
    rw [List.getElem?_zip_eq_some]
    exact ⟨h, by simp [hi]⟩
  rw [State.saveArea, List.getElem?_map, hzip]
  rfl

theorem State.mem_saveArea (s : State) (n a : Nat) (v : Byte) : (a, v) ∈ (s.saveArea n).mem ↔
    (s.dirtyAt a = true ∧ (a, v) ∈ s.mem ∧ ∃ b ∈ (s.job n).bays, inBay b a = true) ∨ (¬ s.dirtyAt a = true ∧ (a, v) ∈ ((s.job n).latestArea.getD {}).mem) := by
  simp only [State.saveArea, List.mem_append, List.mem_filter, Bool.and_eq_true, List.any_eq_true, Bool.not_eq_true', Bool.not_eq_true]
  refine or_congr ?_ and_comm
  constructor
  · rintro ⟨hmem, hbay, hdirty⟩
    exact ⟨hdirty, hmem, hbay⟩
  · rintro ⟨hdirty, hmem, hbay⟩
    exact ⟨hmem, hbay, hdirty⟩

/-- The new image is the latest, and the image that was stays in its area. -/
theorem Job.storeArea_latest (j : Job) (a : SaveArea) : (j.storeArea a).latestArea = some a ∧
    (j.latestArea ≠ none → (j.storeArea a).area0 = j.latestArea ∨ (j.storeArea a).area1 = j.latestArea) := by
  unfold Job.storeArea Job.latestArea
  cases j.latest with
  | true => simp
  | false => cases j.area0 <;> simp

/-- The job after a save. -/
def State.savedJob (s : State) (n : Nat) : Job :=
  { (s.job n).storeArea (s.saveArea n) with state := .saved, ran := (s.job n).ran + (s.clock - (s.job n).ranFrom), readyAt := s.clock, elev := (s.job n).prio }

/-- A bay after a save. -/
def Bay.vacated (y : Bay) : Bay := { y.stop with slot := none, chan := [] }

theorem State.vacate_rest (s : State) (l : List Nat) : ∃ y, l.foldl (fun s b => s.modBay b Bay.vacated) s = { s with bays := y } :=
  List.foldlRecOn (motive := fun t : State => ∃ y, t = { s with bays := y }) l _ ⟨_, rfl⟩ (by
    rintro _ ⟨y, rfl⟩ b -
    exact ⟨_, rfl⟩)

theorem State.vacate_other {s : State} {l : List Nat} {b : Nat} (h : b ∉ l) : (l.foldl (fun s b => s.modBay b Bay.vacated) s).bay b = s.bay b :=
  List.foldlRecOn (motive := fun t : State => t.bay b = s.bay b) l _ rfl fun t ht c hc => by
    rw [State.modBay_bay_ne _ _ _ fun hbc => h (by rw [hbc]; exact hc), ht]

/-- A vacated bay stays without a job. -/
theorem State.vacate_free (b : Nat) : ∀ (l : List Nat) {s : State}, ((s.bay b).slot = none ∧ (s.bay b).live = false ∨ b ∈ l) →
    ((l.foldl (fun s b => s.modBay b Bay.vacated) s).bay b).slot = none ∧ ((l.foldl (fun s b => s.modBay b Bay.vacated) s).bay b).live = false
  | [], _, h => h.elim id fun h => absurd h List.not_mem_nil
  | c :: l, s, h => State.vacate_free b l (s := s.modBay c Bay.vacated) (by
    by_cases hc : b = c
    · subst hc
      rw [State.modBay_bay_same]
      exact .inl ⟨rfl, rfl⟩
    · rw [State.modBay_bay_ne _ _ _ hc]
      exact h.imp_right fun h => (List.mem_cons.mp h).resolve_left hc)

/-- What a save of copy `n` leaves. -/
structure Saved (s t : State) (n : Nat) : Prop where
  job : t.job n = s.savedJob n
  mem : t.mem = s.mem
  free : ∀ b ∈ (s.job n).bays, (t.bay b).slot = none ∧ (t.bay b).live = false
  others : ∀ b, b ∉ (s.job n).bays → t.bay b = s.bay b
  part : ∀ p, ∃ x f, t.part p = { s.part p with stuck := x, faults := f }

/-- The save before its bays are free. -/
def savedJobState (n : Nat) (s : State) : State :=
  let mine (a : Nat) : Bool := (s.job n).bays.any fun b => inBay b a
  { s.setJob n (s.savedJob n) with
    meta_ := s.meta_.filter fun e => !(Tab.get 256 s.metaJob e.1 == n && mine (e.1 * 32))
    metaJob := s.metaJob.filter fun e => !(e.2 == n && mine (e.1 * 32))
    parts := s.parts.map fun e => (e.1, { e.2.unstick n with faults := e.2.faults.map fun f => if f.slot = some n then { f with kept := true } else f }) }

theorem saveCopy_eq (n : Nat) (s : State) : saveCopy n s = (s.job n).bays.foldl (fun s b => s.modBay b Bay.vacated) (savedJobState n s) := rfl

theorem saveCopy_saved (n : Nat) (s : State) : Saved s (saveCopy n s) n := by
  obtain ⟨y, hrest⟩ := State.vacate_rest (savedJobState n s) (s.job n).bays
  have hjob : (savedJobState n s).job n = s.savedJob n := Tab.get_put_same _ _ _ _
  rw [saveCopy_eq]
  refine ⟨?_, ?_, fun b hb => State.vacate_free b _ (.inr hb), fun b hb => State.vacate_other hb, fun p => ?_⟩
  · rw [hrest]
    exact hjob
  · rw [hrest]
    rfl
  · rw [hrest]
    exact ⟨_, _, Tab.get_map (f := fun _ (x : Part) => { x.unstick n with
      faults := x.faults.map fun f => if f.slot = some n then { f with kept := true } else f }) rfl s.parts⟩

/-- A PREEMPT that waits for the job ends with the result. -/
theorem endPreempt_waits {p : Nat} {jobid : Word} {u : State} (res : Nat) (hbusy : (u.part p).busy = true) (hcmd : (u.part p).cmd = 1)
    (hop : nth 0 (u.part p).ops 0 = jobid) : endPreempt p jobid res u = endCommand p res u :=
  if_pos (by rw [hbusy, hcmd, hop]; simp)

theorem saveComplete_saves {s : State} {n : Nat} (hn : n < 256) (hup : s.framerUp = true) (hrun : (s.job n).state = .run) (hstop : (s.job n).stopping = true)
    (hended : (s.job n).ended = false) (hstopped : s.jobStopped n = true) (hhalted : s.allHalted n = false) (htwin : (s.job n).twin = none) :
    saveComplete n s = endPreempt (s.job n).part (s.job n).jobid 0 (saveCopy n s) := by
  have hguard : (!s.framerUp || decide (n ≥ 256) || (s.job n).state != .run || !(s.job n).stopping || !s.jobStopped n || s.allHalted n) = false := by
    simp [hup, hrun, hstop, hstopped, hhalted, hn]
  unfold saveComplete State.copies
  dsimp only
  rw [hguard, hended, htwin]
  exact (if_neg (by simp)).trans (if_neg (by simp))

/-- The save of a stopped job of one copy. -/
theorem saveComplete_leaves {s : State} {n : Nat} (hn : n < 256) (hup : s.framerUp = true) (hrun : (s.job n).state = .run) (hstop : (s.job n).stopping = true)
    (hended : (s.job n).ended = false) (hstopped : s.jobStopped n = true) (hhalted : s.allHalted n = false) (htwin : (s.job n).twin = none) :
    let t := saveComplete n s
    let p := (s.job n).part
    t.job n = s.savedJob n ∧ t.mem = s.mem ∧ (∀ b ∈ (s.job n).bays, (t.bay b).slot = none ∧ (t.bay b).live = false) ∧
      (∀ b, b ∉ (s.job n).bays → t.bay b = s.bay b) ∧
      ((s.part p).busy = true → (s.part p).cmd = 1 → nth 0 (s.part p).ops 0 = (s.job n).jobid → (t.part p).busy = false ∧ (t.part p).res = 0) := by
  obtain ⟨hjob, hmem, hfree, hothers, hpart⟩ := saveCopy_saved n s
  dsimp only
  rw [saveComplete_saves hn hup hrun hstop hended hstopped hhalted htwin]
  generalize saveCopy n s = u at hjob hmem hfree hothers hpart ⊢
  obtain ⟨⟨x, hrest⟩, -, -⟩ := endPreempt_keeps (s.job n).part (s.job n).jobid 0 u
  refine ⟨?_, ?_, fun b hb => ?_, fun b hb => ?_, fun hbusy hcmd hop => ?_⟩
  · rw [hrest]
    exact hjob
  · rw [hrest]
    exact hmem
  · rw [hrest]
    exact hfree b hb
  · rw [hrest]
    exact hothers b hb
  · obtain ⟨y, f, hp⟩ := hpart (s.job n).part
    rw [endPreempt_waits 0 (by rw [hp]; exact hbusy) (by rw [hp]; exact hcmd) (by rw [hp]; exact hop), endCommand_part]
    exact ⟨rfl, rfl⟩

/-- Settles O49: each completion by what it comes to (the end of the job, a discard, or run 1), and the save by the image that it makes. -/
theorem jobEnds : Obligations.JobEnds := by
  unfold Obligations.JobEnds
  intro s n hn
  refine ⟨fun hup hstate hstop => ⟨fun hended => ?_, fun hended hhalted => ?_, fun hended hhalted hpaired hdigests => ?_, fun hended hhalted hpair => ?_⟩,
    fun hup hrun hstop hended hstopped hhalted htwin => ?_⟩
  · exact ⟨_, congrArg Host.Outcome.next (jobCompletion_ended hn hup hstate hended hstop), leave_left _ _ _ _ _⟩
  · exact congrArg Host.Outcome.next (jobCompletion_running hn hup hstate hended hhalted)
  · exact ⟨_, congrArg Host.Outcome.next (jobCompletion_disagrees hn hup hstate hended hhalted hpaired hdigests), discard_discards _ _ _,
      discard_sameMemRing _ _ _⟩
  · have hcompletes := jobCompletion_agrees hn hup hstate hended hhalted hpair
    have hruns1 (hplumb : (s.job n).plumb = true) (hstatus : (s.job n).status = 0) (hrun1 : (s.job n).run1 = false) :
        exec (.jobCompletion n) s = .next (plumbRestart n s) := by
      refine congrArg Host.Outcome.next (hcompletes.trans ?_)
      rw [if_pos (by simp [hplumb, hstatus]), if_pos (by simp [hrun1])]
    refine ⟨fun hplain => ?_, fun hplumb hstatus hrun1 hnodup => ?_, fun hplumb hstatus hrun1 _ hnodup hshape => ?_, fun hplumb hstatus hrun1 => ⟨fun hsame => ?_, fun hdiffer => ?_⟩⟩
    · refine ⟨_, congrArg Host.Outcome.next (hcompletes.trans (if_neg ?_)), leave_left _ _ _ _ _⟩
      rw [Bool.and_eq_true, decide_eq_true_eq]
      rintro ⟨hplumb, hstatus⟩
      exact hplain.elim (fun h => Bool.false_ne_true (h.symm.trans hplumb)) (· hstatus)
    · obtain ⟨hsecond, hdigest, hkept⟩ := plumbRestart_job n s
      exact ⟨_, hruns1 hplumb hstatus hrun1, hsecond, hdigest, hkept, fun i b hb => plumbRestart_bay hnodup hb⟩
    · exact ⟨_, hruns1 hplumb hstatus hrun1, plumbRestart_shared hnodup hshape⟩
    · refine ⟨_, congrArg Host.Outcome.next (hcompletes.trans ?_), leave_left _ _ _ _ _⟩
      rw [if_pos (by simp [hplumb, hstatus]), if_neg (by simp [hrun1]), if_pos hsame]
    · refine ⟨_, congrArg Host.Outcome.next (hcompletes.trans ?_), discard_discards _ _ _, discard_sameMemRing _ _ _⟩
      rw [if_pos (by simp [hplumb, hstatus]), if_neg (by simp [hrun1]), if_neg hdiffer]
  · obtain ⟨hjob, hmem, hfree, hothers, hcommand⟩ := saveComplete_leaves hn hup hrun hstop hended hstopped hhalted htwin
    obtain ⟨hlatest, hkept⟩ := Job.storeArea_latest (s.job n) (s.saveArea n)
    refine ⟨_, rfl, by rw [hjob]; rfl, by rw [hjob]; rfl, ⟨fun h => ?_, s.saveArea n, ?_, rfl, fun i b hb => State.saveArea_bay hb, fun a v => ?_⟩,
      fun a => congrArg (Memory.read · a) hmem, hfree, hothers, hcommand⟩
    · rw [hjob]
      exact hkept h
    · rw [hjob]
      exact hlatest
    · dsimp only
      rw [← State.dirtyAt_iff]
      exact State.mem_saveArea s n a v

end Sys2Proof.Machine
end

section
/-! The sequencer's loads and stores (R229), and the completion of a queued store (R218). -/

namespace Sys2Proof.Machine

/-! ### Words of the sequencer that write sd after another effect -/

/-- Of the sequencer of bay `b`, the later state keeps who acts, the scalar registers, the program counter and the flags. -/
structure SeqKeeps (s u : State) (b : Nat) : Prop where
  cur : u.cur = s.cur
  regs : (u.bay b).s = (s.bay b).s
  pc : (u.bay b).pc = (s.bay b).pc
  flags : (u.bay b).flags = (s.bay b).flags

theorem OnlyMeta.seqKeeps {s u : State} (h : OnlyMeta s u) (b : Nat) : SeqKeeps s u b := by
  obtain ⟨m, rfl⟩ := h
  exact ⟨rfl, rfl, rfl, rfl⟩

theorem WroteSpans.seqKeeps {s u : State} {l : List Span} (h : WroteSpans s u l) (b : Nat) : SeqKeeps s u b :=
  ⟨h.cur, by rw [h.bays b], by rw [h.bays b], by rw [h.bays b]⟩

section
variable {s u : State} {b : Nat}

theorem SeqKeeps.readS (h : SeqKeeps s u b) (hc : s.cur = .stream b .S) (r : BitVec 5) : u.readS r = s.readS r := by
  simp only [State.readS, h.cur, hc, h.regs]

theorem SeqKeeps.pc_eq (h : SeqKeeps s u b) (hc : s.cur = .stream b .S) : u.pc = s.pc := by
  rw [State.pc_seq (h.cur.trans hc), h.pc, State.pc_seq hc]

/-- A word of the sequencer has written `v` to sd and retired, and stands at `t`; before that, its other effects had led from `s` to `u`. -/
structure WroteAfter (s u t : State) (b : Nat) (d : BitVec 5) (v : Word) : Prop where
  result : t.readS d = if d = 0 then 0 else v
  regs : ∀ r, r ≠ d → t.readS r = s.readS r
  pc : t.pc = s.pc + 4
  flags : t.flags = s.flags
  rest : OnlyBay u t b seqWrites

theorem WroteAfter.mem {t : State} {d : BitVec 5} {v : Word} (h : WroteAfter s u t b d v) : t.mem = u.mem := by
  rw [h.rest.1]

theorem SeqKeeps.writeS_retire (h : SeqKeeps s u b) (hc : s.cur = .stream b .S) (d : BitVec 5) (v : Word) :
    WroteAfter s u (u.writeS d v).retire b d v := by
  have hcu : u.cur = .stream b .S := h.cur.trans hc
  obtain ⟨hresult, hregs, hpc, -, -⟩ := wrote_retire (onScalar_seq hcu) d v
  have hrest := writeS_retire_onlyBay hcu d v
  have hcur : (u.writeS d v).retire.cur = .stream b .S := by rw [hrest.1]; exact hcu
  refine ⟨hresult, fun r hr => (hregs r hr).trans (h.readS hc r), hpc.trans (by rw [h.pc_eq hc]), ?_, hrest⟩
  rw [State.flags, hcur, State.flags, hc]
  dsimp only
  rw [hrest.2.2]
  exact h.flags

end

/-! ### Loads -/

section
variable {s : State} {b : Nat} {d a : BitVec 5} {h : BitVec 4} {sz : BitVec 2} {im : BitVec 9} {v : View} {x : List Nat} {l : List Span}
variable (hc : s.cur = .stream b .S) (hview : seqView b h (widthOf sz) s = .ok v)
include hc hview

/-- A load writes what `f` makes of the bytes that the sequencer sees. -/
theorem ld_loads {i : Instr} {f : Nat → Word} (hi : exec i s = s.onSeq fun n => ldCore n d a h sz im f s)
    (hplace : seqPlace b v 0 false spAny (elemIndex a im s) s = .ok (x, l)) :
    ∃ t, exec i s = .next t ∧ t.readS d = (if d = 0 then 0 else f (bytesNat (s.seqSpans b l).1)) ∧ (∀ r, r ≠ d → t.readS r = s.readS r) ∧
      t.pc = s.pc + 4 ∧ SameMem s t ∧ OnlyReader s t b seqWrites := by
  have hcore : ldCore b d a h sz im f s = .ok ((s.seqSpans b l).2.writeS d (f (bytesNat (s.seqSpans b l).1))).retire := by
    simp only [ldCore, hview, bind, Except.bind, hplace]
    rfl
  have hread := seqSpans_onlyMeta b l s
  have hwrote := (hread.seqKeeps b).writeS_retire hc d (f (bytesNat (s.seqSpans b l).1))
  refine ⟨_, hi.trans ((State.onSeq_eq hc _).trans (congrArg s.finish hcore)), hwrote.result, hwrote.regs, hwrote.pc, fun q => ?_, ?_⟩
  · rw [hwrote.mem, hread.same State.mem fun _ => rfl]
  · obtain ⟨hstate, hothers, hbay⟩ := hwrote.rest
    have hbays : ∀ c, (s.seqSpans b l).2.bay c = s.bay c := fun c => hread.same (fun t => t.bay c) fun _ => rfl
    rw [hbays] at hbay
    refine ⟨?_, fun c hne => (hothers c hne).trans (hbays c), hbay⟩
    obtain ⟨m, hm⟩ := hread
    rw [hm] at hstate ⊢
    rw [hstate]

/-! ### Stores -/

variable (hplace : seqPlace b v 2 true spAny (elemIndex a im s) s = .ok (x, l)) (hfree : s.checkConflicts (s.bayCtx b) v 2 l = .ok ())
include hplace hfree

/-- A store outside SHARED enters the write queue. -/
theorem st_queues (hcodes : ∀ y ∈ l, y.loc.code ≠ 2) (hroom : (s.bay b).stores.length < 8) :
    ∃ t r, exec (.st d a h sz im) s = .next t ∧ (t.bay b).stores = (s.bay b).stores ++ [r] ∧
      r.pieces = storePieces l (natBytes (widthOf sz / 8) (lgMask v.fmt (s.readS d).toNat)) ∧ r.tid = v.tid ∧ SameMem s t ∧ t.pc = s.pc + 4 ∧
      OnlyBay s t b (fun y z => seqMoves { y with stores := z.stores } z) := by
  have hshared : (l.any fun y => decide (y.loc.code = 2)) = false :=
    List.any_eq_false.mpr fun y hy hcode => hcodes y hy (of_decide_eq_true hcode)
  have hdepth : guardE (decide ((s.bay b).stores.length < storeDepth)) .wait = .ok () := guardE_ok_iff.mpr (decide_eq_true hroom)
  obtain ⟨r, hpieces, htid, hcore⟩ : ∃ r : StoreRec, r.pieces = storePieces l (natBytes (widthOf sz / 8) (lgMask v.fmt (s.readS d).toNat)) ∧
      r.tid = v.tid ∧ stCore b d a h sz im s = .ok (s.modBay b fun y => { y with stores := y.stores ++ [r] }).retire := by
    refine ⟨⟨?space, v.tid, ?off, storePieces l _⟩, rfl, rfl, ?core⟩
    case core =>
      simp only [stCore, hview, bind, Except.bind, hplace, hfree, hshared, hdepth]
      rfl
  obtain ⟨hbay, hpc, -, hmem⟩ := modBay_retire_spec (f := fun y => { y with stores := y.stores ++ [r] }) hc rfl rfl
  refine ⟨_, r, (State.onSeq_eq hc _).trans (congrArg s.finish hcore), by rw [hbay]; rfl, hpieces, htid, hmem, hpc, ?_⟩
  rw [State.modBay_retire_seq hc rfl]
  exact onlyBay_modBay rfl

/-- A store into SHARED reaches its granule at once. -/
theorem st_writes (hcode : ∃ y ∈ l, y.loc.code = 2) :
    let t := (s.writeSpans (s.bayCtx b) v.tid l (natBytes (widthOf sz / 8) (lgMask v.fmt (s.readS d).toNat))).retire
    exec (.st d a h sz im) s = .next t ∧ SameMemOut s t l := by
  intro t
  have hshared : (l.any fun y => decide (y.loc.code = 2)) = true :=
    List.any_eq_true.mpr (hcode.imp fun y hy => ⟨hy.1, decide_eq_true hy.2⟩)
  have hcore : stCore b d a h sz im s = .ok t := by
    simp only [stCore, hview, bind, Except.bind, hplace, hfree, hshared]
    rfl
  have hwrote := writeSpans_wroteSpans (s.bayCtx b) v.tid l s (natBytes (widthOf sz / 8) (lgMask v.fmt (s.readS d).toNat))
  refine ⟨(State.onSeq_eq hc _).trans (congrArg s.finish hcore), fun q hq => ?_⟩
  rw [show t = _ from State.retire_seq (hwrote.cur.trans hc)]
  exact hwrote.mem q hq

end

/-! ### The landing of a queued store (R218) -/

/-- The bytes of a piece, as a placed span outside SHARED. -/
def Piece.span (p : Piece) : Span := ⟨0, p.bytes.length, ⟨0, p.addr, 0⟩⟩

theorem Piece.span_touches (p : Piece) (a : Nat) : p.span.touches a ↔ p.addr ≤ a ∧ a < p.addr + p.bytes.length := Iff.rfl

theorem State.digestGranule_rest (s : State) (b space tid g mask : Nat) (bs : List Byte) : ∃ y, s.digestGranule b space tid g mask bs = { s with bays := y } := by
  unfold State.digestGranule
  dsimp only
  split <;> exact ⟨_, rfl⟩

/-- A piece's write with its digest changes bytes, and of bays dirty lines and digests. -/
theorem State.landPiece_rest (s : State) (b space tid o : Nat) (p : Piece) :
    ∃ y, (s.write p.addr p.bytes).digest b space tid o p.bytes = { s with bays := y, mem := Memory.writeBytes s.mem p.addr p.bytes } := by
  obtain ⟨y, hwrite⟩ := s.write_rest p.addr p.bytes
  obtain ⟨z, hdigest⟩ := (s.write p.addr p.bytes).digestGranule_rest b space tid (o / 32) ((2 ^ p.bytes.length - 1) * 2 ^ (o % 32))
    (granuleBytes (o % 32) p.bytes)
  exact ⟨z, hdigest.trans (by rw [hwrite])⟩

section
variable (b space tid : Nat)

theorem State.land_rest : ∀ (ps : List Piece) (s : State) (o : Nat), ∃ y m, s.land b space tid o ps = { s with bays := y, mem := m }
  | [], _, _ => ⟨_, _, rfl⟩
  | p :: ps, s, o => by
    obtain ⟨y, hfirst⟩ := s.landPiece_rest b space tid o p
    obtain ⟨z, m, hlater⟩ := State.land_rest ps ((s.write p.addr p.bytes).digest b space tid o p.bytes) (o + p.bytes.length)
    exact ⟨z, m, hlater.trans (by rw [hfirst])⟩

theorem State.land_wroteSpans : ∀ (ps : List Piece) (s : State) (o : Nat), WroteSpans s (s.land b space tid o ps) (ps.map Piece.span)
  | [], s, _ => WroteSpans.refl s []
  | p :: ps, s, o => by
    have hwrite : WroteSpans s (s.write p.addr p.bytes) [p.span] :=
      write_wroteSpans s fun a hlo hhi => ⟨p.span, List.mem_singleton_self _, (p.span_touches a).mpr ⟨hlo, hhi⟩⟩
    have hfirst := hwrite.trans (digestGranule_wroteSpans _ b space tid (o / 32) ((2 ^ p.bytes.length - 1) * 2 ^ (o % 32)) (granuleBytes (o % 32) p.bytes))
    exact (hfirst.mono (List.cons_subset_cons p.span (List.nil_subset _))).trans
      ((State.land_wroteSpans ps _ _).mono (List.subset_cons_self p.span _))

theorem State.land_piece_mem (s : State) (o : Nat) (p : Piece) : (s.land b space tid o [p]).mem = Memory.writeBytes s.mem p.addr p.bytes := by
  obtain ⟨y, h⟩ := s.landPiece_rest b space tid o p
  exact congrArg State.mem h

end

/-- A bay whose queued store `n` has left the queue. -/
def Bay.dropStore (n : Nat) (y : Bay) : Bay := { y with stores := y.stores.eraseIdx n }

section
variable {s : State} {b n : Nat} {r : StoreRec}

theorem storeCompletion_lands (hr : (s.bay b).stores[n]? = some r) (hfree : s.storeLocked b r = false)
    (hfirst : ∀ p ∈ (s.bay b).stores.take n, p.before r = false) :
    storeCompletion b n s = (s.modBay b (Bay.dropStore n)).land b r.space.code r.tid r.off r.pieces := by
  have hnone : (((s.bay b).stores.take n).any fun p => p.before r) = false :=
    List.any_eq_false.mpr fun p hp => Bool.not_eq_true _ ▸ hfirst p hp
  rw [storeCompletion, hr]
  dsimp only
  rw [hfree, hnone]
  rfl

/-- The store's bytes land, it leaves the queue, and nothing else changes but dirty lines and digests. -/
theorem land_leaves (s : State) (b n : Nat) (r : StoreRec) :
    let t := (s.modBay b (Bay.dropStore n)).land b r.space.code r.tid r.off r.pieces
    (t.bay b).stores = (s.bay b).stores.eraseIdx n ∧
    (∀ a, (∀ p ∈ r.pieces, a < p.addr ∨ p.addr + p.bytes.length ≤ a) → Memory.read t.mem a = Memory.read s.mem a) ∧
    (∀ p, r.pieces = [p] → ∀ i, i < p.bytes.length → Memory.read t.mem (p.addr + i) = nth 0 p.bytes i) ∧
    t = { s with bays := t.bays, mem := t.mem } ∧ (∀ q, q ≠ b → (t.bay q).stores = (s.bay q).stores) ∧
    ∀ q, t.bay q = { s.bay q with stores := (t.bay q).stores, dirtyLines := (t.bay q).dirtyLines, dlo := (t.bay q).dlo, dhi := (t.bay q).dhi } := by
  intro t
  have hland : WroteSpans (s.modBay b (Bay.dropStore n)) t (r.pieces.map Piece.span) := State.land_wroteSpans _ _ _ _ _ _
  have hstores : ∀ q, (t.bay q).stores = ((s.modBay b (Bay.dropStore n)).bay q).stores := fun q => (congrArg Bay.stores (hland.bays q) :)
  refine ⟨?_, fun a ha => ?_, fun p hp i hi => ?_, ?_, fun q hq => ?_, fun q => ?_⟩
  · rw [hstores, State.modBay_bay_same]
    rfl
  · refine hland.mem a fun y hy htouches => ?_
    obtain ⟨p, hp, rfl⟩ := List.mem_map.mp hy
    obtain ⟨hlo, hhi⟩ := (p.span_touches a).mp htouches
    exact (ha p hp).elim (Nat.not_lt.mpr hlo) (Nat.not_le.mpr hhi)
  · change Memory.read ((s.modBay b (Bay.dropStore n)).land b r.space.code r.tid r.off r.pieces).mem (p.addr + i) = _
    rw [hp, State.land_piece_mem]
    exact Memory.read_writeBytes_inside _ _ _ _ hi
  · obtain ⟨y, m, hrest⟩ := State.land_rest b r.space.code r.tid r.pieces (s.modBay b (Bay.dropStore n)) r.off
    rw [show t = _ from hrest]
    rfl
  · rw [hstores, State.modBay_bay_ne _ _ _ hq]
  · rw [hstores]
    refine (hland.bays q).trans ?_
    by_cases hq : q = b
    · rw [hq, State.modBay_bay_same]
      rfl
    · rw [State.modBay_bay_ne _ _ _ hq]

end

/-- Settles O19: loads by the bytes that the sequencer sees, stores by the queue or by their spans' writes, and a completion by the landing of its
pieces. -/
theorem scalarMemory : Obligations.ScalarMemory := by
  unfold Obligations.ScalarMemory
  refine ⟨fun s b d a h sz im v x l hc hview hplace => ⟨ld_loads hc hview rfl hplace,
      ld_loads (f := fun e => BitVec.ofInt 64 (sgn (widthOf sz) e)) hc hview rfl hplace⟩,
    fun s b d a h sz im v x l hc hview hplace hfree => ⟨st_queues hc hview hplace hfree, st_writes hc hview hplace hfree⟩,
    fun s b n r hr hfree hfirst => ⟨_, congrArg Host.Outcome.next (storeCompletion_lands hr hfree hfirst), land_leaves s b n r⟩⟩

end Sys2Proof.Machine
end

section
/-! Atomic memory operations (R230), and in paired jobs their comparison and their one performance (R455). -/

namespace Sys2Proof.Machine

/-! ### The read-modify-write -/

/-- The element that an AMO reads, and the state in which it has written `new`, where that is a value. -/
def State.amoOld (s : State) (b : Nat) (v : View) (x : List Nat) (l : List Span) : Nat :=
  elemOf v.width (v.offset x).2 (s.readSpans (s.bayCtx b) l).1

def State.amoWrites (s : State) (b : Nat) (v : View) (x : List Nat) (l : List Span) (new : Option Nat) : State :=
  let s1 := (s.readSpans (s.bayCtx b) l).2
  match new with
  | some z => s1.writeElem (s1.bayCtx b) v x l z
  | none => s1

section
variable {s : State} {b : Nat} {v : View} {x : List Nat} {l : List Span}

theorem State.amoWrites_wroteSpans (s : State) (b : Nat) (v : View) (x : List Nat) (l : List Span) (new : Option Nat) :
    WroteSpans s (s.amoWrites b v x l new) l := by
  have hread := (readSpans_onlyMeta (s.bayCtx b) l s).wroteSpans l
  cases new with
  | some z => exact hread.trans (writeElem_wroteSpans _ v _ x l z)
  | none => exact hread

theorem amoPerform_eq (op w va ve : Nat) : amoPerform b v op w va ve x l s =
    .ok (word (s.amoOld b v x l), s.amoWrites b v x l (amoNew op w (s.amoOld b v x l) va ve)) := by
  have hctx : (s.readSpans (s.bayCtx b) l).2.bayCtx b = s.bayCtx b :=
    (readSpans_onlyMeta (s.bayCtx b) l s).same (fun s => s.bayCtx b) fun _ => rfl
  unfold amoPerform State.amoWrites
  dsimp only
  rw [hctx]
  rfl

/-- A scalar access finds elements of the width that it names. -/
theorem seqView_width {h : BitVec 4} {w : Nat} (hview : seqView b h w s = .ok v) : v.width = w := by
  simp only [seqView, bind, Except.bind] at hview
  split at hview
  · cases hview
  · split at hview
    · cases hview
    · rename_i hwidth
      split at hview
      · cases hview
      · cases hview
        exact beq_iff_eq.mp (guardE_ok_iff.mp hwidth)

theorem State.word_amoOld (h : v.width ≤ 64) : (word (s.amoOld b v x l)).toNat = s.amoOld b v x l := by
  rw [word, BitVec.toNat_ofNat, Nat.mod_eq_of_lt]
  exact (Nat.mod_lt _ (Nat.two_pow_pos _)).trans_le (Nat.pow_le_pow_right (by decide) h)

end

/-! ### Merged operations (R455) -/

/-- A bay that has posted the operands of a merged operation. -/
def Bay.posts (y : Bay) (ops : List Word) (clock : Nat) : Bay :=
  { y with merge := some (ops ++ [y.dlo, y.dhi]), mergedAt := clock, mergeDone := false, merged := none }

/-- The result of a merged operation, which the primary has performed, goes to the twin in bay `u`. -/
def State.answers (s before : State) (b u : Nat) (own : Bool) (r : Word) : State :=
  (if own then s else s.shareDigest before b u).modBay u fun z => { z with merged := some r }

section
variable {s s' : State} {b : Nat} {own : Bool} {ops : List Word} {perform : State → Except Stop (Word × State)} {finish : Word → State → State} {r o : Word}

theorem mergedOp_alone (hpaired : (s.bay b).paired = false) (hperform : perform s = .ok (r, s')) :
    s.mergedOp b own ops perform finish = .ok (finish r s') := by
  simp [State.mergedOp, hpaired, hperform]

variable (hpaired : (s.bay b).paired = true)
include hpaired

theorem mergedOp_posts (hmerge : (s.bay b).merge = none) :
    s.mergedOp b own ops perform finish = .ok (s.modBay b fun y => y.posts ops s.clock) := by
  rw [State.mergedOp, hpaired, hmerge]
  rfl

variable (hmerge : (s.bay b).merge ≠ none)
include hmerge

theorem mergedOp_notCompared (hdone : (s.bay b).mergeDone = false) : s.mergedOp b own ops perform finish = .error .hold := by
  simp [State.mergedOp, hpaired, hmerge, hdone]

variable (hdone : (s.bay b).mergeDone = true)
include hdone

theorem mergedOp_primary {u : Nat} (hprimary : (s.jobOf b).primary = true) (htwin : s.twinBay b = some u) (hperform : perform s = .ok (r, s')) :
    s.mergedOp b own ops perform finish = .ok (finish r ((s'.answers s b u own r).modBay b Bay.unmerge)) := by
  simp [State.mergedOp, hpaired, hmerge, hdone, hprimary, htwin, hperform, State.answers]

theorem mergedOp_unanswered (hprimary : (s.jobOf b).primary = false) (hmerged : (s.bay b).merged = none) :
    s.mergedOp b own ops perform finish = .error .hold := by
  simp [State.mergedOp, hpaired, hmerge, hdone, hprimary, hmerged]

theorem mergedOp_answered (hprimary : (s.jobOf b).primary = false) (hmerged : (s.bay b).merged = some o) (hperform : perform s = .ok (r, s')) :
    s.mergedOp b own ops perform finish = .ok (finish o ((if own then s' else s).modBay b Bay.unmerge)) := by
  cases own <;> simp [State.mergedOp, hpaired, hmerge, hdone, hprimary, hmerged, hperform]

end

/-! ### The words -/

section
variable {s : State} {b op : Nat} {d a r : BitVec 5} {h : BitVec 4} {wd : BitVec 1} {v : View} {x : List Nat} {l : List Span} {i : Instr}

/-- The width of an AMO's element. -/
def amoWidth (wd : BitVec 1) : Nat := if wd = 1 then 64 else 32

/-- What an AMO posts in a paired job, before the digest. -/
def State.amoOps (s : State) (op : Nat) (d a r : BitVec 5) (wd : BitVec 1) (v : View) : List Word :=
  [4, word op, word v.tid, s.readS a, word ((s.readS r).toNat % 2 ^ amoWidth wd), if op = 4 then word ((s.readS d).toNat % 2 ^ amoWidth wd) else 0]

/-- The state after the read-modify-write of an AMO. -/
def State.amoDone (s : State) (b op : Nat) (d r : BitVec 5) (wd : BitVec 1) (v : View) (x : List Nat) (l : List Span) : State :=
  s.amoWrites b v x l (amoNew op (amoWidth wd) (s.amoOld b v x l) ((s.readS r).toNat % 2 ^ amoWidth wd) ((s.readS d).toNat % 2 ^ amoWidth wd))

/-- An AMO's end: sd takes the old element, and the word retires. -/
def amoFinish (d : BitVec 5) (wd : BitVec 1) (old : Word) (s : State) : State := (s.writeS d (BitVec.ofInt 64 (sgn (amoWidth wd) old.toNat))).retire

variable (hview : seqView b h (amoWidth wd) s = .ok v) (hspace : earlySpace v spAmo = .ok ())
  (hplace : seqPlace b v 2 true spAmo (s.readS a).toInt s = .ok (x, l))
include hview hspace hplace

theorem amoCore_queued (hstores : (s.bay b).stores ≠ []) : amoCore b op d a h r wd s = .error .hold := by
  have hguard : guardE (s.bay b).stores.isEmpty .hold = .error .hold := by
    rw [List.isEmpty_eq_false_iff.mpr hstores]
    rfl
  have hview' : seqView b h (if wd = 1 then 64 else 32) s = .ok v := hview
  simp only [amoCore, bind, Except.bind, hview', hspace, hplace, hguard]

theorem amoCore_merged (hstores : (s.bay b).stores = []) : amoCore b op d a h r wd s = s.mergedOp b (eSpace v.w == 0) (s.amoOps op d a r wd v)
    (amoPerform b v op (amoWidth wd) ((s.readS r).toNat % 2 ^ amoWidth wd) ((s.readS d).toNat % 2 ^ amoWidth wd) x l) (amoFinish d wd) := by
  have hguard : guardE (s.bay b).stores.isEmpty .hold = .ok () := by
    rw [hstores]
    rfl
  have hview' : seqView b h (if wd = 1 then 64 else 32) s = .ok v := hview
  simp only [amoCore, bind, Except.bind, hview', hspace, hplace, hguard, BitVec.ofInt_toInt]
  rfl

end

/-! ### What each word leaves -/

theorem State.answers_bay_ne (s before : State) {b u c : Nat} (h : c ≠ u) (own : Bool) (r : Word) : (s.answers before b u own r).bay c = s.bay c := by
  rw [State.answers, State.modBay_bay_ne _ _ _ h]
  split
  · rfl
  · exact State.modBay_bay_ne _ _ _ h

theorem State.answers_cur_mem (s before : State) (b u : Nat) (own : Bool) (r : Word) :
    (s.answers before b u own r).cur = s.cur ∧ (s.answers before b u own r).mem = s.mem := by
  cases own <;> exact ⟨rfl, rfl⟩

/-- Where the twin's answer reaches another bay, the sequencer's own state keeps. -/
theorem SeqKeeps.answers {s u : State} {b n : Nat} (h : SeqKeeps s u b) (hn : n ≠ b) (own : Bool) (r : Word) : SeqKeeps s (u.answers s b n own r) b := by
  have hbay := u.answers_bay_ne s (b := b) hn.symm own r
  exact ⟨(u.answers_cur_mem s b n own r).1.trans h.cur, by rw [hbay, h.regs], by rw [hbay, h.pc], by rw [hbay, h.flags]⟩

/-- The sequencer of bay `b` has taken the old element `o` to sd, and no merged operation of the bay is open. -/
def GaveOld (s t : State) (b : Nat) (d : BitVec 5) (wd : BitVec 1) (o : Nat) : Prop :=
  t.readS d = (if d = 0 then 0 else BitVec.ofInt 64 (sgn (amoWidth wd) o)) ∧ (∀ r, r ≠ d → t.readS r = s.readS r) ∧ t.pc = s.pc + 4 ∧
    (t.bay b).merge = none

/-- An AMO of a paired job ends once its operands are no longer posted. -/
theorem amoFinish_unmerge {s u : State} {b : Nat} (hc : s.cur = .stream b .S) (h : SeqKeeps s u b) (d : BitVec 5) (wd : BitVec 1) (old : Word) :
    let t := amoFinish d wd old (u.modBay b Bay.unmerge)
    GaveOld s t b d wd old.toNat ∧ t.mem = u.mem ∧ ∀ c, c ≠ b → t.bay c = u.bay c := by
  intro t
  have hbay := State.modBay_bay_same u b Bay.unmerge
  have hkeeps : SeqKeeps s (u.modBay b Bay.unmerge) b :=
    ⟨h.cur, by rw [hbay]; exact h.regs, by rw [hbay]; exact h.pc, by rw [hbay]; exact h.flags⟩
  have hwrote := hkeeps.writeS_retire hc d (BitVec.ofInt 64 (sgn (amoWidth wd) old.toNat))
  obtain ⟨-, hothers, hown⟩ := hwrote.rest
  rw [hbay] at hown
  exact ⟨⟨hwrote.result, hwrote.regs, hwrote.pc, (congrArg Bay.merge hown :)⟩, hwrote.mem,
    fun c hne => (hothers c hne).trans (State.modBay_bay_ne _ _ _ hne)⟩

/-- The AMO words, each with the number of its operation. -/
def amoWords (d a : BitVec 5) (h : BitVec 4) (r : BitVec 5) (wd : BitVec 1) : List (Nat × Instr) :=
  [(0, .amoAdd d a h r wd), (1, .amoMin d a h r wd), (2, .amoMax d a h r wd), (3, .amoSwap d a h r wd), (4, .amoCas d a h r wd), (5, .amoOr d a h r wd)]

section
variable {s : State} {b op : Nat} {d a r : BitVec 5} {h : BitVec 4} {wd : BitVec 1} {v : View} {x : List Nat} {l : List Span} {i : Instr}
variable (hc : s.cur = .stream b .S)
include hc

theorem exec_amo (hi : (op, i) ∈ amoWords d a h r wd) : exec i s = s.finish (amoCore b op d a h r wd s) := by
  rw [← State.onSeq_eq hc fun n => amoCore n op d a h r wd s]
  simp only [amoWords, List.mem_cons, Prod.mk.injEq, List.not_mem_nil, or_false] at hi
  obtain ⟨rfl, rfl⟩ | ⟨rfl, rfl⟩ | ⟨rfl, rfl⟩ | ⟨rfl, rfl⟩ | ⟨rfl, rfl⟩ | ⟨rfl, rfl⟩ := hi
  all_goals rfl

variable (hi : (op, i) ∈ amoWords d a h r wd)
include hi

theorem amo_waits (hcore : amoCore b op d a h r wd s = .error .hold) : Waits i s b :=
  setHold_waits hc true ((exec_amo hc hi).trans (congrArg s.finish hcore))

variable (hview : seqView b h (amoWidth wd) s = .ok v) (hspace : earlySpace v spAmo = .ok ())
  (hplace : seqPlace b v 2 true spAmo (s.readS a).toInt s = .ok (x, l)) (hstores : (s.bay b).stores = [])
include hview hspace hplace hstores

theorem exec_amo_merged {f : Except Stop State} (hmerged : s.mergedOp b (eSpace v.w == 0) (s.amoOps op d a r wd v)
    (amoPerform b v op (amoWidth wd) ((s.readS r).toNat % 2 ^ amoWidth wd) ((s.readS d).toNat % 2 ^ amoWidth wd) x l) (amoFinish d wd) = f) :
    exec i s = s.finish f := by
  rw [exec_amo hc hi, amoCore_merged hview hspace hplace hstores, hmerged]

omit hc hi hspace hplace hstores in
/-- The old element fits the word that carries it. -/
theorem word_amoOld_of_view : (word (s.amoOld b v x l)).toNat = s.amoOld b v x l := by
  refine State.word_amoOld ?_
  rw [seqView_width hview, amoWidth]
  split <;> decide

/-- Outside a paired job. -/
theorem amo_performs (hpaired : (s.bay b).paired = false) {new : Option Nat}
    (hnew : amoNew op (amoWidth wd) (s.amoOld b v x l) ((s.readS r).toNat % 2 ^ amoWidth wd) ((s.readS d).toNat % 2 ^ amoWidth wd) = new) :
    ∃ t, exec i s = .next t ∧ t = ((s.amoWrites b v x l new).writeS d (BitVec.ofInt 64 (sgn (amoWidth wd) (s.amoOld b v x l)))).retire ∧
      t.readS d = (if d = 0 then 0 else BitVec.ofInt 64 (sgn (amoWidth wd) (s.amoOld b v x l))) ∧ (∀ r, r ≠ d → t.readS r = s.readS r) ∧
      t.pc = s.pc + 4 ∧ t.flags = s.flags ∧ SameMemOut s t l := by
  have hspans := s.amoWrites_wroteSpans b v x l new
  have hwrote := (hspans.seqKeeps b).writeS_retire hc d (BitVec.ofInt 64 (sgn (amoWidth wd) (s.amoOld b v x l)))
  refine ⟨_, ?_, rfl, hwrote.result, hwrote.regs, hwrote.pc, hwrote.flags, fun q hq => ?_⟩
  · rw [exec_amo_merged hc hi hview hspace hplace hstores (mergedOp_alone hpaired (amoPerform_eq op _ _ _)), amoFinish, word_amoOld_of_view hview, hnew]
    rfl
  · rw [hwrote.mem]
    exact hspans.mem q hq

section
variable (hpaired : (s.bay b).paired = true)
include hpaired

/-- In a paired job an AMO first posts its operands and the digest (R455). -/
theorem amo_posts (hmerge : (s.bay b).merge = none) :
    ∃ t, exec i s = .next t ∧ t.pc = s.pc ∧ SameMem s t ∧ OnlyBay s t b (fun y _ => y.posts (s.amoOps op d a r wd v) s.clock) := by
  refine ⟨_, exec_amo_merged hc hi hview hspace hplace hstores (mergedOp_posts hpaired hmerge), ?_, fun _ => rfl, onlyBay_modBay rfl⟩
  rw [State.pc_seq (s := s.modBay b _) hc, State.modBay_bay_same, State.pc_seq hc]
  rfl

variable (hmerge : (s.bay b).merge ≠ none) (hdone : (s.bay b).mergeDone = true)
include hmerge hdone

/-- The primary performs the AMO, and both copies take its result (R455). -/
theorem amo_primary (hprimary : (s.jobOf b).primary = true) {u : Nat} (htwin : s.twinBay b = some u) (hu : u ≠ b) :
    ∃ t, exec i s = .next t ∧ t.mem = (s.amoDone b op d r wd v x l).mem ∧ GaveOld s t b d wd (s.amoOld b v x l) ∧
      (t.bay u).merged = some (word (s.amoOld b v x l)) ∧ SameMemOut s t l := by
  have hspans : WroteSpans s (s.amoDone b op d r wd v x l) l := s.amoWrites_wroteSpans b v x l _
  obtain ⟨hgave, hmem, hothers⟩ := amoFinish_unmerge hc ((hspans.seqKeeps b).answers hu (eSpace v.w == 0) (word (s.amoOld b v x l))) d wd
    (word (s.amoOld b v x l))
  rw [((s.amoDone b op d r wd v x l).answers_cur_mem s b u _ _).2] at hmem
  rw [word_amoOld_of_view hview] at hgave
  refine ⟨_, exec_amo_merged hc hi hview hspace hplace hstores (mergedOp_primary hpaired hmerge hdone hprimary htwin (amoPerform_eq op _ _ _)),
    hmem, hgave, ?_, fun q hq => ?_⟩
  · refine (congrArg Bay.merged (hothers u hu)).trans ?_
    rw [State.answers, State.modBay_bay_same]
  · refine (congrArg (Memory.read · q) hmem).trans (hspans.mem q hq)

/-- The other copy takes the result, and on a bank performs the AMO on its own (log 17). -/
theorem amo_answered (hprimary : (s.jobOf b).primary = false) {o : Word} (ho : (s.bay b).merged = some o) :
    ∃ t, exec i s = .next t ∧ GaveOld s t b d wd o.toNat ∧ t.mem = if eSpace v.w = 0 then (s.amoDone b op d r wd v x l).mem else s.mem := by
  have hspans : WroteSpans s (s.amoDone b op d r wd v x l) l := s.amoWrites_wroteSpans b v x l _
  have hkeeps : SeqKeeps s (if eSpace v.w == 0 then s.amoDone b op d r wd v x l else s) b := by
    split
    · exact hspans.seqKeeps b
    · exact ⟨rfl, rfl, rfl, rfl⟩
  obtain ⟨hgave, hmem, -⟩ := amoFinish_unmerge hc hkeeps d wd o
  refine ⟨_, exec_amo_merged hc hi hview hspace hplace hstores (mergedOp_answered hpaired hmerge hdone hprimary ho (amoPerform_eq op _ _ _)), hgave,
    hmem.trans ?_⟩
  simp only [beq_iff_eq]
  split <;> rfl

end

end

/-- Settles O20: the read-modify-write as what its core performs, and in paired jobs the stages of the merged operation. On a bank each copy performs it
(log 17). -/
theorem atomicsReadThenWrite : Obligations.AtomicsReadThenWrite := by
  unfold Obligations.AtomicsReadThenWrite
  constructor
  · intro s b d a r h wd v x l w hc hpaired hstores hview hspace hplace
    have hgoes {op i} (hi : (op, i) ∈ amoWords d a h r wd) := amo_performs hc hi hview hspace hplace hstores hpaired rfl
    exact ⟨hgoes (op := 0) (by simp [amoWords]), hgoes (op := 1) (by simp [amoWords]), hgoes (op := 2) (by simp [amoWords]),
      hgoes (op := 3) (by simp [amoWords]), hgoes (op := 4) (by simp [amoWords]), hgoes (op := 5) (by simp [amoWords])⟩
  · intro s b d a r h wd v x l op i w y hi hc hview hspace hplace
    refine ⟨fun hstores => amo_waits hc hi (amoCore_queued hview hspace hplace hstores), fun hstores hpaired =>
      ⟨amo_posts hc hi hview hspace hplace hstores hpaired, fun hmerge hdone => amo_waits hc hi ?_,
        fun hmerge hdone hprimary u => amo_primary hc hi hview hspace hplace hstores hpaired hmerge hdone hprimary,
        fun hmerge hdone hprimary => ⟨fun hmerged => amo_waits hc hi ?_,
          fun o => amo_answered hc hi hview hspace hplace hstores hpaired hmerge hdone hprimary⟩⟩⟩
    · rw [amoCore_merged hview hspace hplace hstores, mergedOp_notCompared hpaired hmerge hdone]
    · rw [amoCore_merged hview hspace hplace hstores, mergedOp_unanswered hpaired hmerge hdone hprimary hmerged]

end Sys2Proof.Machine
end

section
/-! FENCE and PHASE (R231, R232), the completion of a phase, and the commit of a granule (R225). -/

namespace Sys2Proof.Machine

section
variable {s : State} {b : Nat}

/-! ### FENCE (R231) -/

/-- With no queued store to a named space FENCE only retires. -/
theorem fenceCore_passes (hc : s.cur = .stream b .S) {m : BitVec 7}
    (h : ∀ r ∈ (s.bay b).stores, ((if m = 0 then 0x7F else m).toNat).testBit r.space.code = false) : fenceCore m s = .ok s.retire := by
  have hnone : ((s.bay b).stores.any fun r => ((if m = 0 then 0x7F else m).toNat).testBit r.space.code) = false :=
    List.any_eq_false.mpr fun r hr => Bool.not_eq_true _ ▸ h r hr
  rw [fenceCore, hc]
  exact if_neg (Bool.not_eq_true _ ▸ hnone)

/-! ### PHASE (R232) -/

/-- A bay that has left PHASE, and one that has arrived there. -/
def Bay.leavesPhase (y : Bay) : Bay := { y with phased := false }
def Bay.arrives (y : Bay) : Bay := { y with arrived := true, hold := false }

theorem exec_phase (hc : s.cur = .stream b .S) : exec .phase s = s.finish (phaseCore b s) := State.onSeq_eq hc _

theorem phaseCore_passes (h : (s.bay b).phased = true) : phaseCore b s = .ok (s.modBay b Bay.leavesPhase).retire := if_pos h

theorem phaseCore_arrives (hphased : (s.bay b).phased = false) (harrived : (s.bay b).arrived = false) (hstores : (s.bay b).stores = []) :
    phaseCore b s = .ok ((s.modBay b Bay.arrives).noteArrival (s.bay b).slotNo) := by
  have hempty : (!(s.bay b).stores.isEmpty) = false := by rw [hstores]; rfl
  rw [phaseCore, if_neg (Bool.eq_false_iff.mp hphased), if_neg (Bool.eq_false_iff.mp harrived), if_neg (Bool.eq_false_iff.mp hempty)]
  rfl

theorem phase_passes (hc : s.cur = .stream b .S) (h : (s.bay b).phased = true) :
    ∃ t, exec .phase s = .next t ∧ t.pc = s.pc + 4 ∧ (t.bay b).phased = false ∧ SameMem s t ∧
      OnlyBay s t b (fun y z => seqMoves { y with phased := false } z) := by
  obtain ⟨hbay, hpc, -, hmem⟩ := modBay_retire_spec (f := Bay.leavesPhase) hc rfl rfl
  refine ⟨_, (exec_phase hc).trans (congrArg s.finish (phaseCore_passes h)), hpc, by rw [hbay]; rfl, hmem, ?_⟩
  rw [State.modBay_retire_seq hc rfl]
  exact onlyBay_modBay rfl

theorem phase_arrives (hc : s.cur = .stream b .S) (hphased : (s.bay b).phased = false) (harrived : (s.bay b).arrived = false)
    (hstores : (s.bay b).stores = []) : ∃ t, exec .phase s = .next t ∧ (t.bay b).arrived = true ∧ t.pc = s.pc ∧ SameMem s t := by
  have hbay : ((s.modBay b Bay.arrives).noteArrival (s.bay b).slotNo).bay b = (s.bay b).arrives := by
    rw [State.noteArrival_rest]
    exact State.modBay_bay_same _ _ _
  have hcur : ((s.modBay b Bay.arrives).noteArrival (s.bay b).slotNo).cur = .stream b .S := by
    rw [State.noteArrival_rest]
    exact hc
  refine ⟨_, (exec_phase hc).trans (congrArg s.finish (phaseCore_arrives hphased harrived hstores)), by rw [hbay]; rfl, ?_, fun a => ?_⟩
  · rw [State.pc_seq hcur, hbay, State.pc_seq hc]
    rfl
  · rw [State.noteArrival_rest]
    rfl

end

/-! ### The completion of a phase (R232) -/

/-- A bay at the completion of its job's phase. -/
def Bay.phaseEnds (y : Bay) : Bay := if y.live then { y with arrived := false, phased := true }.event evPhase else y

theorem Bay.phaseEnds_live (y : Bay) : y.phaseEnds.live = y.live := by
  unfold Bay.phaseEnds
  split <;> rfl

theorem Bay.phaseEnds_passes {y : Bay} (h : y.live = true) : y.phaseEnds.arrived = false ∧ y.phaseEnds.phased = true := by
  rw [Bay.phaseEnds, if_pos h]
  exact ⟨rfl, rfl⟩

/-- The phase ends in each bay of `l`. -/
def State.phaseEnds (s : State) (l : List Nat) : State := l.foldl (fun s b => s.modBay b Bay.phaseEnds) s

theorem State.phaseEnds_rest (s : State) (l : List Nat) : ∃ y, s.phaseEnds l = { s with bays := y } :=
  List.foldlRecOn (motive := fun t : State => ∃ y, t = { s with bays := y }) l _ ⟨_, rfl⟩ (by
    rintro _ ⟨y, rfl⟩ b -
    exact ⟨_, rfl⟩)

theorem State.phaseEnds_bay_ne {s : State} {l : List Nat} {c : Nat} (h : c ∉ l) : (s.phaseEnds l).bay c = s.bay c :=
  List.foldlRecOn (motive := fun t : State => t.bay c = s.bay c) l _ rfl fun t ht b hb => by
    rw [State.modBay_bay_ne _ _ _ (show c ≠ b from fun hcb => h (hcb ▸ hb)), ht]

theorem State.phaseEnds_bay : ∀ {l : List Nat} {s : State} {c : Nat}, c ∈ l → (s.bay c).live = true →
    ((s.phaseEnds l).bay c).arrived = false ∧ ((s.phaseEnds l).bay c).phased = true
  | [], _, _, hmem, _ => absurd hmem List.not_mem_nil
  | x :: l, s, c, hmem, hlive => by
    change (((s.modBay x Bay.phaseEnds).phaseEnds l).bay c).arrived = false ∧ (((s.modBay x Bay.phaseEnds).phaseEnds l).bay c).phased = true
    by_cases hlater : c ∈ l
    · refine State.phaseEnds_bay hlater ?_
      rw [State.modBay_bay]
      split
      · rename_i hcx
        rw [Bay.phaseEnds_live, ← hcx, hlive]
      · exact hlive
    · obtain rfl : c = x := (List.mem_cons.mp hmem).resolve_right hlater
      rw [State.phaseEnds_bay_ne hlater, State.modBay_bay_same]
      exact Bay.phaseEnds_passes hlive

/-- Where every bay has arrived, a bay lives, and nothing old is pending, the phase ends. -/
theorem phaseCompletion_ends {s : State} {slot : Nat} (hbays : (s.job slot).bays ≠ []) (hrun : (s.job slot).state = .run)
    (harrived : ∀ c ∈ (s.job slot).bays, (s.bay c).slot = some slot ∧ (s.bay c).arrived = true) (hlive : ∃ c ∈ (s.job slot).bays, (s.bay c).live = true)
    (hswept : s.swept slot = true) (hupdates : ∀ x ∈ s.laths, x.2.slot = some slot → ∀ u ∈ x.2.updates, u.old = false) :
    phaseCompletion slot s = (s.setJob slot { s.job slot with q := (s.job slot).q + 1 }).phaseEnds (s.job slot).bays := by
  have hempty : (s.job slot).bays.isEmpty = false := by rw [List.isEmpty_eq_false_iff]; exact hbays
  have hall : s.allArrived slot = true := by
    rw [State.allArrived, hrun, Bool.and_eq_true, List.all_eq_true]
    exact ⟨rfl, fun c hc => by rw [(harrived c hc).1, (harrived c hc).2]; simp⟩
  have hany : ((s.job slot).bays.any fun b => (s.bay b).live) = true := List.any_eq_true.mpr hlive
  have hlaths : (s.laths.any fun x => decide (x.2.slot = some slot) && x.2.updates.any fun u => u.old) = false := by
    refine List.any_eq_false.mpr fun x hx hold => ?_
    obtain ⟨hslot, hu⟩ := Bool.and_eq_true_iff.mp hold
    obtain ⟨u, humem, huold⟩ := List.any_eq_true.mp hu
    exact Bool.false_ne_true ((hupdates x hx (of_decide_eq_true hslot) u humem).symm.trans huold)
  exact if_neg (by rw [hempty, hall, hany, hswept, hlaths]; decide)

/-! ### The sweep (R225) -/

theorem commitSweep_commits {s : State} {slot g : Nat} (h : Tab.get 256 s.metaJob g = slot) :
    commitSweep slot g s = { s with meta_ := Tab.set 0 s.meta_ g (commitMeta (s.job slot).q (Tab.get 0 s.meta_ g)) } := if_pos h

/-- Settles O21: FENCE and PHASE by their cores, a phase's end bay by bay, and the sweep by the one granule that it sets. -/
theorem phaseCommitsAndAdvances : Obligations.PhaseCommitsAndAdvances := by
  unfold Obligations.PhaseCommitsAndAdvances
  intro s b slot g m
  refine ⟨fun hc => ⟨fun hstores => ?_, phase_passes hc, phase_arrives hc⟩, fun hbays hrun harrived hlive hswept hupdates => ?_, fun hjob => ?_⟩
  · exact ⟨_, State.scalar_ok (onScalar_seq hc) (fenceCore_passes hc hstores), passed_retire (onScalar_seq hc)⟩
  · obtain ⟨y, hy⟩ := (s.setJob slot { s.job slot with q := (s.job slot).q + 1 }).phaseEnds_rest (s.job slot).bays
    refine ⟨_, congrArg Host.Outcome.next (phaseCompletion_ends hbays hrun harrived hlive hswept hupdates), ?_, fun a => by rw [hy]; rfl,
      fun c hmem hlives => State.phaseEnds_bay hmem hlives, fun c hmem => State.phaseEnds_bay_ne hmem⟩
    rw [hy]
    exact congrArg Job.q (State.setJob_job_same s slot _)
  · exact ⟨_, congrArg Host.Outcome.next (commitSweep_commits hjob), Tab.get_set_same _ _ _ _, rfl⟩

end Sys2Proof.Machine
end

section
/-! The issue of truss words (R253, R255, R258, R270, R277). -/

namespace Sys2Proof.Machine

/-! ### What the checks leave of a command (R258) -/

/-- The checks of a command let it through, if they do, with its operation, its pushes and its parameter words. -/
def KeepsCmd (c : TrussCmd) (m : Except Stop TrussCmd) : Prop := ∀ c', m = .ok c' → c'.op = c.op ∧ c'.push = c.push ∧ c'.ps = c.ps

theorem KeepsCmd.ok {c c' : TrussCmd} (hop : c'.op = c.op) (hpush : c'.push = c.push) (hps : c'.ps = c.ps) : KeepsCmd c (.ok c') := by
  rintro _ ⟨⟩
  exact ⟨hop, hpush, hps⟩

theorem KeepsCmd.self (c : TrussCmd) : KeepsCmd c (.ok c) := .ok rfl rfl rfl

theorem KeepsCmd.bind {c : TrussCmd} {α : Type} {x : Except Stop α} {f : α → Except Stop TrussCmd} (h : ∀ a, KeepsCmd c (f a)) : KeepsCmd c (x >>= f) := by
  intro c' hc'
  cases x with
  | error e => cases hc'
  | ok a => exact h a c' hc'

section
variable (b : Nat) (c : TrussCmd) (s : State)

theorem loadbCheck_keeps : KeepsCmd c (loadbCheck b c s) := by
  unfold loadbCheck
  refine .bind fun _ => .bind fun _ => .bind fun _ => .bind fun _ => .bind fun _ => .bind fun _ => ?_
  dsimp only
  split <;> exact .bind fun _ => .ok rfl rfl rfl

theorem mmaCheck_keeps : KeepsCmd c (mmaCheck b c s) := by
  unfold mmaCheck
  exact .bind fun _ => .bind fun rows => .bind fun _ => .bind fun _ => .bind fun _ => .bind fun _ => .bind fun _ => .bind fun _ => .bind fun _ =>
    .bind fun _ => .bind fun _ => .bind fun _ => .ok rfl rfl rfl

theorem trussChecks_keeps : KeepsCmd c (trussChecks b c s) := by
  unfold trussChecks
  refine .bind fun _ => ?_
  dsimp only
  cases c.op with
  | loadb => exact loadbCheck_keeps b c s
  | mma => exact mmaCheck_keeps b c s
  | promo => exact .bind fun _ => .bind fun _ => .self c
  | drain => exact .bind fun _ => .self c
  | zero => exact .bind fun _ => .bind fun _ => .self c
  | commit => exact .bind fun _ => .bind fun _ => .self c
  | discard => exact .bind fun _ => .bind fun _ => .self c
  | free => exact .self c
  | sign => exact .bind fun _ => .self c
  | bucket => exact .bind fun _ => .self c
  | reps => exact .bind fun _ => .self c
  | scat => exact .bind fun _ => .self c
  | mgrad => exact .bind fun _ => .self c

end

/-! ### The command's entry into the queue (R255) -/

/-- The truss's part of a bay once the command `c` has entered its queue, at the clock of its request for the lease. -/
def TrussBay.enqueue (x : TrussBay) (c : TrussCmd) (clock : Nat) : TrussBay :=
  let asks := !x.held && !x.req && c.op != .free
  { x with queue := x.queue ++ [c], req := x.req || asks, reqAt := if asks then clock else x.reqAt }

theorem enqueueCmd_eq (b : Nat) (c : TrussCmd) (s : State) : enqueueCmd b c s = s.modBay b fun y => { y with truss := y.truss.enqueue c s.clock } := rfl

section
variable {s : State} {b : Nat} {w p : BitVec 3} {m : BitVec 4} {f : BitVec 5} {op : TrussOp}

theorem trussBody_enters {c : TrussCmd} {ps : List Nat} (h : trussChecks b (trussCmd b op m.toNat f ps s) s = .ok c) :
    trussBody b op m.toNat f 0 ps s = .ok (enqueueCmd b c s).retire := by
  have hstamp : guardE ((0 : Nat) == 0 || s.stampInWindow b 0) (trapC 0xA5) = .ok () := rfl
  simp only [trussBody, hstamp, h, bind, Except.bind]
  rfl

theorem trussBody_traps {rc : FaultRec} {ps : List Nat} (h : trussChecks b (trussCmd b op m.toNat f ps s) s = .error (.trap rc)) :
    trussBody b op m.toNat f 0 ps s = .error (.trap { rc with rst := true }) := by
  have hstamp : guardE ((0 : Nat) == 0 || s.stampInWindow b 0) (trapC 0xA5) = .ok () := rfl
  simp only [trussBody, hstamp, h, bind, Except.bind]
  rfl

variable (hc : s.cur = .stream b .M) (hmay : MayIssue s b .M w p.toNat)
include hc hmay

/-- A truss word whose conditions hold takes its pegs and makes its checks. -/
theorem trussWord_issues (hroom : (s.bay b).truss.queue.length < 4) (hlocks : s.locksAny b (trussCmd b op m.toNat f [] s).checked = false)
    (hquiet : waitsForAll op f (bit (parM (s.bay b) m.toNat 6) 27) = true → s.trussQuiet b = true) :
    trussWord op w p m f 0 s =
      s.finish (trussBody b op m.toNat f 0 (pushesOf .M p.toNat) (s.takePegs b .M (popsOf .M w) (pushesOf .M p.toNat) true)) := by
  have hready : (decide ((s.bay b).truss.queue.length < 4) && (!waitsForAll op f (bit (parM (s.bay b) m.toNat 6) 27) || s.trussQuiet b) &&
      !s.locksAny b (trussCmd b op m.toNat f [] s).checked) = true := by
    rw [decide_eq_true hroom, hlocks]
    cases hwaits : waitsForAll op f (bit (parM (s.bay b) m.toNat 6) 27) with
    | false => rfl
    | true => rw [hquiet hwaits]; rfl
  obtain ⟨hhalt, hkept, hpegs, hplaces⟩ := hmay
  rw [trussWord, State.onMtx, hc]
  dsimp only
  rw [hready]
  exact congrArg s.finish (issue_unstamped hhalt hpegs fun _ => by rw [Stream.toReserve_fresh hkept, hplaces])

/-- What a truss word leaves once its command `c` has entered the queue. -/
theorem enqueue_enters (c : TrussCmd) :
    Entered s (enqueueCmd b c (s.takePegs b .M (popsOf .M w) (pushesOf .M p.toNat) true)).retire b .M w p.toNat
      (fun y z => { y with truss := y.truss.enqueue c s.clock, m := stepMoves y.m z.m }) := by
  have hkept : (s.bay b).m.kept = [] := hmay.fresh
  have heta := (s.bay b).popAll_eta (popsOf .M w)
  have heta' := ((s.bay b).popAll (popsOf .M w)).reserveAll_eta (pushesOf .M p.toNat)
  rw [State.takePegs_deferred (e := .M) (by decide) hkept, enqueueCmd_eq, State.modBay_modBay,
    State.modBay_retire_engine (e := .M) (by decide) hc (by rw [heta', heta]; rfl)]
  refine ⟨reserved_of (nodup_maskQueuesIn .M _) (nodup_maskQueuesOut .M _) ?_ ?_ ?_, ?_, fun _ => rfl, onlyBay_modBay ?_⟩
  · rw [State.modBay_bay_same, Bay.engNext_cnt, heta']
  · rw [State.modBay_bay_same, Bay.engNext_rsv]
  · rw [State.modBay_bay_same, Bay.engNext_evpend, heta', heta]
  · rw [State.pc_engine (s := s.modBay b _) (e := .M) (by decide) hc, State.modBay_bay_same, Bay.engNext_pc _ (by decide)]
  · rw [heta', heta]
    simp only [stepMoves]
    rw [← hkept]
    rfl

end

/-- The matrix words that put a command into the queue, each with the operation and the flags of its command. -/
def trussWords (w p : BitVec 3) (m : BitVec 4) (f : BitVec 5) (g : BitVec 1) : List (Instr × TrussOp × BitVec 5) :=
  [(.tloadb w p m 0, .loadb, 0), (.tmma w p m f 0, .mma false, f), (.tmmas w p m f 0, .mma true, f), (.tpromo w p m g 0, .promo, shadowFlag g),
    (.tdrain w p m g 0, .drain, splitFlag g), (.tzero w p m g 0, .zero, shadowFlag g), (.tcommit w p m 0, .commit, 0), (.tdiscard w p m 0, .discard, 0),
    (.tsign w p m 0, .sign, 0), (.tbucket w p m 0, .bucket, 0), (.trepsFirst w p m 0, .reps 0, 0), (.trepsMean w p m 0, .reps 1, 0),
    (.trepsNormmax w p m 0, .reps 2, 0), (.tscat w p m g 0, .scat, splitFlag g), (.tmgrad w p m 0, .mgrad, 0)]

theorem exec_trussWord {w p : BitVec 3} {m : BitVec 4} {f : BitVec 5} {g : BitVec 1} (s : State) :
    ∀ x ∈ trussWords w p m f g, exec x.1 s = trussWord x.2.1 w p m x.2.2 0 s := by
  simp only [trussWords, List.forall_mem_cons]
  exact ⟨rfl, rfl, rfl, rfl, rfl, rfl, rfl, rfl, rfl, rfl, rfl, rfl, rfl, rfl, rfl, fun _ h => absurd h List.not_mem_nil⟩

/-- Settles O34: each word by the issue that they share, with what the checks keep of a command and what its entry into the queue leaves. -/
theorem trussIssue : Obligations.TrussIssue := by
  unfold Obligations.TrussIssue
  intro s b w p m f g i op fl hc hi y s1 cmd asks hmay hroom hlocks hquiet
  have hexec := (exec_trussWord s _ hi).trans (trussWord_issues hc hmay hroom hlocks hquiet)
  refine ⟨fun c hchecks => ?_, fun rc hchecks => ?_⟩
  · obtain ⟨hop, hpush, hps⟩ := trussChecks_keeps b cmd s1 c hchecks
    refine ⟨_, hexec.trans (congrArg s.finish (trussBody_enters hchecks)), hop, hpush, hps, ?_⟩
    have hentered := enqueue_enters hc hmay c
    simp only [TrussBay.enqueue, hop] at hentered
    exact hentered
  · exact hexec.trans (congrArg s.finish (trussBody_traps hchecks))

end Sys2Proof.Machine
end

section
/-! The issue of copies (R237 to R240, R242). -/

namespace Sys2Proof.Machine

/-! ### The entry of a copy into its unit (R238, R290) -/

/-- In a unit that keeps no place, a copy enters last. -/
theorem enterUnit_append (r : CopyRec) : ∀ {l : List CopyRec}, (∀ x ∈ l, x.fallen = false) → enterUnit r l = l ++ [r]
  | [], _ => rfl
  | q :: l, h => by
    obtain ⟨hq, hl⟩ := List.forall_mem_cons.mp h
    rw [enterUnit, hq, Bool.false_and, if_neg Bool.false_ne_true, enterUnit_append r hl, List.cons_append]

/-- The stream once the copy `r` has entered its unit. -/
def Stream.withCopy (r : CopyRec) (x : Stream) : Stream := { x with inflight := enterUnit r x.inflight, ordinal := x.ordinal + 1 }

/-- A copy whose checks pass enters its unit, and its word retires. -/
theorem copyBody_enters {b : Nat} {e : Eng} {op : CopyOp} {c : Nat} {ps : List Nat} {s : State} (h : (copyRec b e op c ps s).issueChecks b e s = .ok ()) :
    copyBody b e op c ps s = .ok (s.modStream b e (Stream.withCopy (copyRec b e op c ps s))).retire := by
  simp only [copyBody, h, withRst, bind, Except.bind]
  rfl

section
variable {s : State} {b : Nat} {e : Eng} {w : BitVec 3} {p : Nat}

/-- A deferred word that changes its stream by `f` once its pegs are taken and its places reserved, and then retires. -/
theorem reserved_issued {f : Stream → Stream} (he : e ≠ .S) (hc : s.cur = .stream b e) (hmay : MayIssue s b e w p)
    (hkept : (f ((s.bay b).stream e)).kept = []) (hpc : (f ((s.bay b).stream e)).pc = ((s.bay b).stream e).pc) :
    let t := ((s.takePegs b e (popsOf e w) (pushesOf e p) true).modStream b e f).retire
    Reserved s t b (popsOf e w) (pushesOf e p) ∧ Issued s t b e f := by
  intro t
  have hpegs : (s.bay b).PegsBut (((s.bay b).popAll (popsOf e w)).reserveAll (pushesOf e p)) e ((s.bay b).stream e) := by
    have hpop := Bay.pegsBut_popAll (s.bay b) e ((s.bay b).stream e) (popsOf e w)
    rw [Bay.setStream_self] at hpop
    exact hpop.reserveAll _
  have ht : t = (s.modBay b fun y => ((y.popAll (popsOf e w)).reserveAll (pushesOf e p)).setStream e
      (f (((y.popAll (popsOf e w)).reserveAll (pushesOf e p)).stream e))).retire := by
    refine congrArg State.retire ?_
    rw [State.takePegs_deferred he hmay.fresh]
    exact State.modBay_modBay _ _ _ _
  obtain ⟨hcnt, hrsv, hev, hissued⟩ := issued_retire (f := f) (g := fun y => ((y.popAll (popsOf e w)).reserveAll (pushesOf e p)).setStream e
    (f (((y.popAll (popsOf e w)).reserveAll (pushesOf e p)).stream e))) he hc (by rw [hpegs.stream he]; exact hpegs.setStream _) hkept hpc
  rw [ht]
  refine ⟨reserved_of (nodup_maskQueuesIn e _) (nodup_maskQueuesOut e _) ?_ ?_ ?_, hissued⟩
  · rw [hcnt, Bay.setStream_cnt, Bay.reserveAll_eta]
  · rw [hrsv, Bay.setStream_rsv]
  · rw [hev, Bay.setStream_evpend, Bay.reserveAll_eta, Bay.popAll_eta]

theorem State.takePegs_pc (he : e ≠ .S) (hc : s.cur = .stream b e) (hmay : MayIssue s b e w p) :
    (s.takePegs b e (popsOf e w) (pushesOf e p) true).pc = s.pc := by
  rw [State.takePegs_deferred he hmay.fresh]
  refine State.modBay_pc_engine he hc ?_
  rw [Bay.reserveAll_eta, Bay.popAll_eta]
  cases e <;> rfl

/-- A copy word on a unit that has it and a free slot, once its checks pass. -/
theorem copyWord_enters {units : List Eng} {op : CopyOp} {c : BitVec 4} (he : e = .L ∨ e = .W) (hc : s.cur = .stream b e) (hunit : e ∈ units)
    (hmay : MayIssue s b e w p) (hslot : ((s.bay b).stream e).hasSlot = true) :
    let s1 := s.takePegs b e (popsOf e w) (pushesOf e p) true
    let r := copyRec b e op c.toNat (pushesOf e p) s1
    r.issueChecks b e s1 = .ok () →
    copyWord units op w p c 0 s = .next (s1.modStream b e (Stream.withCopy r)).retire := by
  intro s1 r hchecks
  obtain ⟨hhalt, hkept, hpegs, hroom⟩ := hmay
  rw [copyWord, State.onUnit_eq he hc, if_pos (List.contains_iff_mem.mpr hunit), hslot,
    issue_unstamped hhalt hpegs fun _ => by rw [Stream.toReserve_fresh hkept, hroom], copyBody_enters hchecks]
  rfl

/-- The entry of a copy, with what its issue takes. -/
theorem entered_withCopy (he : e ≠ .S) (hc : s.cur = .stream b e) (hmay : MayIssue s b e w p) (r : CopyRec) :
    Entered s ((s.takePegs b e (popsOf e w) (pushesOf e p) true).modStream b e (Stream.withCopy r)).retire b e w p (unitWrites e (enterUnit r)) := by
  obtain ⟨hreserved, hpc, hmem, hrest, hothers, hbay⟩ := reserved_issued (f := Stream.withCopy r) he hc hmay hmay.fresh rfl
  refine ⟨hreserved, hpc, hmem, hrest, hothers, hbay.trans ?_⟩
  cases e <;> rfl

/-- A copy word on the other unit raises 0x15. -/
theorem copyWord_wrongUnit {units : List Eng} {op : CopyOp} {c : BitVec 4} (he : e = .L ∨ e = .W) (hc : s.cur = .stream b e) (hunit : e ∉ units) :
    copyWord units op w p c 0 s = s.raise { cause := 0x15 } := by
  rw [copyWord, State.onUnit_eq he hc, if_neg (mt List.contains_iff_mem.mp hunit)]
  rfl

end

/-! ### The words of each unit -/

/-- The copy words of both units, each with the operation and the pushes of its copy. -/
noncomputable def bothUnitWords (w p : BitVec 3) (c : BitVec 4) : List (Instr × CopyOp × Nat) :=
  [(.xcopy w p c 0, .copy, p.toNat), (.xgath w p c 0, .gath, p.toNat), (.xscat w p c 0, .scat, p.toNat), (.xconv w p c 0, .conv, p.toNat),
    (.xfill w p c 0, .fill, p.toNat)]

/-- The copy word of unit L alone. -/
noncomputable def loadUnitWords (w p : BitVec 3) (c : BitVec 4) : List (Instr × CopyOp × Nat) := [(.xaddw w p c 0, .addw, p.toNat)]

/-- The copy words of unit W alone. -/
noncomputable def storeUnitWords (w : BitVec 3) (p : BitVec 2) (c : BitVec 4) : List (Instr × CopyOp × Nat) :=
  [(.xcast w p c 0, .cast, p.toNat), (.xredAddf32 w p c 0, .red 0, p.toNat), (.xredAddi32 w p c 0, .red 1, p.toNat),
    (.xredMaxf32 w p c 0, .red 2, p.toNat), (.xredMinf32 w p c 0, .red 3, p.toNat), (.xredMaxi32 w p c 0, .red 4, p.toNat),
    (.xredMini32 w p c 0, .red 5, p.toNat)]

section
variable {w p : BitVec 3} {p2 : BitVec 2} {c : BitVec 4} (s : State)

theorem exec_bothUnitWords : ∀ x ∈ bothUnitWords w p c, exec x.1 s = copyWord [.L, .W] x.2.1 w x.2.2 c 0 s := by
  simp only [bothUnitWords, List.forall_mem_cons]
  exact ⟨rfl, rfl, rfl, rfl, rfl, fun _ h => absurd h List.not_mem_nil⟩

theorem exec_loadUnitWords : ∀ x ∈ loadUnitWords w p c, exec x.1 s = copyWord [.L] x.2.1 w x.2.2 c 0 s := by
  simp only [loadUnitWords, List.forall_mem_cons]
  exact ⟨rfl, fun _ h => absurd h List.not_mem_nil⟩

theorem exec_storeUnitWords : ∀ x ∈ storeUnitWords w p2 c, exec x.1 s = copyWord [.W] x.2.1 w x.2.2 c 0 s := by
  simp only [storeUnitWords, List.forall_mem_cons]
  exact ⟨rfl, rfl, rfl, rfl, rfl, rfl, rfl, fun _ h => absurd h List.not_mem_nil⟩

/-- The copy words that unit `e` has. -/
theorem exec_ownWords {e : Eng} (he : e = .L ∨ e = .W) {x : Instr × CopyOp × Nat}
    (hx : x ∈ bothUnitWords w p c ++ if e = .L then loadUnitWords w p c else storeUnitWords w p2 c) :
    ∃ units, e ∈ units ∧ exec x.1 s = copyWord units x.2.1 w x.2.2 c 0 s := by
  obtain hboth | hown := List.mem_append.mp hx
  · exact ⟨_, by simpa using he, exec_bothUnitWords s x hboth⟩
  · obtain rfl | rfl := he
    · exact ⟨_, List.mem_singleton_self _, exec_loadUnitWords s x hown⟩
    · exact ⟨_, List.mem_singleton_self _, exec_storeUnitWords s x hown⟩

/-- The copy words of the other unit alone. -/
theorem exec_otherWords {e : Eng} (he : e = .L ∨ e = .W) {x : Instr × CopyOp × Nat}
    (hx : x ∈ if e = .L then storeUnitWords w p2 c else loadUnitWords w p c) :
    ∃ units, e ∉ units ∧ exec x.1 s = copyWord units x.2.1 w x.2.2 c 0 s := by
  obtain rfl | rfl := he
  · exact ⟨_, by decide, exec_storeUnitWords s x hx⟩
  · exact ⟨_, by decide, exec_loadUnitWords s x hx⟩

end

/-- Settles O31: each word's issue by its unit, the entry by what the issue takes and by the copy's place in the unit, and the wrong unit by its fault. -/
theorem copyIssue : Obligations.CopyIssue := by
  unfold Obligations.CopyIssue
  intro s b e w p p2 c he hc both onL onW
  have hne : e ≠ .S := by rcases he with rfl | rfl <;> decide
  refine ⟨?_, fun i op q hi => ?_⟩
  · intro i op q hi hmay hslot s1 r hchecks
    obtain ⟨units, hunit, hexec⟩ := exec_ownWords (p := p) (p2 := p2) (c := c) s he hi
    exact ⟨_, hexec.trans (copyWord_enters he hc hunit hmay hslot hchecks), entered_withCopy hne hc hmay r, State.takePegs_pc hne hc hmay, rfl,
      enterUnit_append r⟩
  · obtain ⟨units, hunit, hexec⟩ := exec_otherWords (p := p) (p2 := p2) (c := c) s he hi
    exact hexec.trans (copyWord_wrongUnit he hc hunit)

end Sys2Proof.Machine
end

section
/-! The lines of an XADDW, and the requests of an XRED at their home (R240, R242, R244, R245). -/

namespace Sys2Proof.Machine

/-! ### Reads after writes -/

theorem bytesNat_natBytes : ∀ n v : Nat, bytesNat (natBytes n v) = v % 2 ^ (8 * n)
  | 0, v => (Nat.mod_one v).symm
  | n + 1, v => by
    rw [natBytes, bytesNat, bytesNat_natBytes n, BitVec.toNat_ofNat, show 2 ^ (8 * (n + 1)) = 2 ^ 8 * 2 ^ (8 * n) by ring, Nat.mod_mul]
    rfl

theorem Memory.readBytes_congr {m m' : Memory} : ∀ (n a : Nat), (∀ x, a ≤ x → x < a + n → Memory.read m' x = Memory.read m x) →
    Memory.readBytes m' a n = Memory.readBytes m a n
  | 0, _, _ => rfl
  | n + 1, a, h => by
    rw [Memory.readBytes, Memory.readBytes, h a (le_refl a) (by omega), Memory.readBytes_congr n (a + 1) fun x hlo hhi => h x (by omega) (by omega)]

theorem State.rd_congr {s t : State} {a n : Nat} (h : ∀ x, a ≤ x → x < a + n → Memory.read t.mem x = Memory.read s.mem x) : t.rd a n = s.rd a n :=
  congrArg bytesNat (Memory.readBytes_congr n a h)

theorem State.rd_write (s : State) (a n v : Nat) : (s.write a (natBytes n v)).rd a n = v % 2 ^ (8 * n) := by
  have hread := Memory.readBytes_writeBytes s.mem a (natBytes n v) []
  rw [List.append_nil, natBytes_length] at hread
  rw [State.rd, State.write_mem, hread, bytesNat_natBytes]

/-! ### Entries of the accumulator store (R240) -/

/-- The bytes of entry `e` of a bay's accumulator store. -/
def accSpan (b e : Nat) : Span := ⟨0, 4, ⟨1, accAddr b e, 0⟩⟩

theorem accSpan_touches (b e a : Nat) : (accSpan b e).touches a ↔ accAddr b e ≤ a ∧ a < accAddr b e + 4 := by
  rw [Span.touches, if_neg (by simp [accSpan])]
  exact Iff.rfl

theorem accSpan_disjoint {b e f : Nat} (h : e ≠ f) {a : Nat} (ha : (accSpan b e).touches a) : ¬ (accSpan b f).touches a := by
  rw [accSpan_touches, accAddr] at *
  omega

/-- Add `v` to entry `e` of bay `b`. -/
def State.addTo (s : State) (b : Nat) (i32 : Bool) (e v : Nat) : State := s.write (accAddr b e) (natBytes 4 (addEntry i32 (s.rd (accAddr b e) 4) v).1)

section
variable (b : Nat) (i32 : Bool)

theorem addEntries_cons (e v : Nat) (l : List (Nat × Nat)) (s : State) :
    (addEntries b i32 ((e, v) :: l) s).1 = (addEntries b i32 l (s.addTo b i32 e v)).1 := by
  rw [addEntries, State.addTo]

theorem addTo_wroteSpans (s : State) (e v : Nat) : WroteSpans s (s.addTo b i32 e v) [accSpan b e] := by
  rw [State.addTo]
  refine write_wroteSpans s fun x hlo hhi => ?_
  rw [natBytes_length] at hhi
  exact ⟨_, List.mem_singleton_self _, (accSpan_touches b e x).mpr ⟨hlo, hhi⟩⟩

/-- Additions write the bytes of their entries alone. -/
theorem addEntries_wroteSpans (l : List (Nat × Nat)) : ∀ s : State, WroteSpans s (addEntries b i32 l s).1 ((l.map Prod.fst).map (accSpan b)) := by
  induction l with
  | nil => exact fun s => .refl s _
  | cons x l ih =>
    intro s
    rw [addEntries_cons]
    exact ((addTo_wroteSpans b i32 s x.1 x.2).mono (by simp)).trans ((ih _).mono (by simp))

/-- An entry whose bytes no write touches reads as before. -/
theorem WroteSpans.rd_entry {s t : State} {l : List Nat} (h : WroteSpans s t (l.map (accSpan b))) {e : Nat} (he : e ∉ l) :
    t.rd (accAddr b e) 4 = s.rd (accAddr b e) 4 := by
  refine State.rd_congr fun a hlo hhi => h.mem a fun x hx => ?_
  obtain ⟨f, hf, rfl⟩ := List.mem_map.mp hx
  exact accSpan_disjoint (ne_of_mem_of_not_mem hf he |>.symm) ((accSpan_touches b e a).mpr ⟨hlo, hhi⟩)

/-- Where each entry is named once, it holds its sum. -/
theorem addEntries_rd (l : List (Nat × Nat)) : ∀ s : State, (l.map Prod.fst).Nodup → ∀ x ∈ l,
    (addEntries b i32 l s).1.rd (accAddr b x.1) 4 = (addEntry i32 (s.rd (accAddr b x.1) 4) x.2).1 % 2 ^ 32 := by
  induction l with
  | nil => exact fun _ _ _ hx => absurd hx List.not_mem_nil
  | cons y l ih =>
    intro s hnodup x hx
    rw [List.map_cons, List.nodup_cons] at hnodup
    obtain ⟨hnew, hnodup⟩ := hnodup
    rw [addEntries_cons]
    obtain rfl | hx := List.mem_cons.mp hx
    · exact ((addEntries_wroteSpans b i32 l _).rd_entry b hnew).trans (State.rd_write s _ 4 _)
    · have hne : x.1 ∉ [y.1] := fun h => hnew (List.mem_singleton.mp h ▸ List.mem_map_of_mem hx)
      rw [ih _ hnodup x hx, (addTo_wroteSpans b i32 s y.1 y.2).rd_entry b hne]

section
variable (run : List (Nat × BitVec 32)) (s : State)

theorem addEntries_run_rd (hnodup : (run.map fun x => x.1).Nodup) : ∀ x ∈ run,
    (addEntries b i32 (run.map fun x => (x.1, x.2.toNat)) s).1.rd (accAddr b x.1) 4 =
      (addEntry i32 (s.rd (accAddr b x.1) 4) x.2.toNat).1 % 2 ^ 32 := fun x hx =>
  addEntries_rd b i32 _ s (by rw [List.map_map]; exact hnodup) (x.1, x.2.toNat) (List.mem_map_of_mem hx)

theorem addEntries_run_outside {a : Nat} (ha : ∀ x ∈ run, a < accAddr b x.1 ∨ accAddr b x.1 + 4 ≤ a) :
    Memory.read (addEntries b i32 (run.map fun x => (x.1, x.2.toNat)) s).1.mem a = Memory.read s.mem a := by
  refine (addEntries_wroteSpans b i32 _ s).mem a fun y hy => ?_
  rw [List.map_map, List.map_map] at hy
  obtain ⟨x, hx, rfl⟩ := List.mem_map.mp hy
  rw [Function.comp_apply, Function.comp_apply, accSpan_touches, not_and_or, Nat.not_le, Nat.not_lt]
  exact ha x hx

end

end

/-! ### A line of an XADDW (R240) -/

/-- The values that the copy adds in its next line, each with its entry. -/
def CopyRec.lineRun (r : CopyRec) (dst : Side) : List (Nat × BitVec 32) :=
  let rest := ((r.entries dst).zip r.vals).drop r.line
  rest.takeWhile fun x => x.1 / 64 = (rest.headD (0, 0)).1 / 64

/-- The group of the copy's next line. -/
def CopyRec.lineGroup (r : CopyRec) (dst : Side) : Nat := ((((r.entries dst).zip r.vals).drop r.line).headD (0, 0)).1 / 64 % 16

/-- What a line leaves beside its entries: the flags `f`, the line's group, and the copy's record `q`. -/
def State.lineDone (s : State) (b n g : Nat) (f : BitVec 8) (q : CopyRec) : State :=
  ((s.orStreamFlags b .L f).modBay b fun y => { y with lines := (s.clock, g) :: y.lines.filter fun x => x.1 = s.clock }).setRec b .L n q

theorem State.lineDone_inflight {s u : State} {l : List Span} (h : WroteSpans s u l) (b n g : Nat) (f : BitVec 8) (q : CopyRec) :
    ((u.lineDone b n g f q).bay b).l.inflight = (s.bay b).l.inflight.set n q := by
  simp only [State.lineDone, State.setRec, State.modStream, State.orStreamFlags, State.modBay_modBay, State.modBay_bay_same]
  rw [h.bays b]
  rfl

/-- The record once its line has been written. -/
def CopyRec.lineWritten (r : CopyRec) (dst : Side) (clock : Nat) (now : Word) : CopyRec :=
  let q := { r with line := r.line + (r.lineRun dst).length, lineAt := some clock }
  if ((r.entries dst).zip r.vals).length ≤ q.line then q.advance dst now else q

theorem CopyRec.lineWritten_line {r : CopyRec} {dst : Side} (h : r.line + (r.lineRun dst).length < ((r.entries dst).zip r.vals).length)
    (clock : Nat) (now : Word) : (r.lineWritten dst clock now).line = r.line + (r.lineRun dst).length :=
  congrArg CopyRec.line (if_neg (Nat.not_le.mpr h))

section
variable {s : State} {b n : Nat} {r : CopyRec} {dst : Side}

/-- In its slot, and with no row write on the group, an XADDW adds its next line. -/
theorem addwLine_adds (hlive : (s.bay b).live = true) (hrec : (s.bay b).l.inflight[n]? = some r) (hopened : r.opened = true)
    (hhalted : r.halted = false) (hlate : r.late = none) (hslot : (s.part (s.bay b).partNo).clkSlot = r.slot) (hline : r.lineAt ≠ some s.clock)
    (hdst : r.dstSide b s = .ok dst)
    (hrow : ∀ c k gs, (s.bent (b / 8)).lastRow = some (c, k, gs) → ¬ (c = s.clock ∧ k = b ∧ r.lineGroup dst ∈ gs)) :
    let u := addEntries b (dst.fmt = 0x04) ((r.lineRun dst).map fun x => (x.1, x.2.toNat)) s
    addwLine b n s = u.1.lineDone b n (r.lineGroup dst) u.2 (r.lineWritten dst u.1.clock u.1.clk.time) := by
  intro u
  have hgoes : (!(s.bay b).live || !r.opened || r.halted || r.late.isSome || (s.part (s.bay b).partNo).clkSlot != r.slot || r.lineAt = some s.clock) = false := by
    simp [hlive, hopened, hhalted, hlate, hslot, hline]
  simp only [addwLine, hrec, hgoes, hdst, Bool.false_eq_true, if_false]
  refine if_neg ?_
  cases hlast : (s.bent (b / 8)).lastRow with
  | none => exact Bool.false_ne_true
  | some x =>
    obtain ⟨c, k, gs⟩ := x
    have hmiss := hrow c k gs hlast
    rw [CopyRec.lineGroup] at hmiss
    simpa [and_assoc] using hmiss

end

/-! ### A request at its home (R242, R244, R245) -/

theorem State.writeAt_outside {a : Nat} : ∀ {as : List Nat} {l : List Byte} (s : State), a ∉ as → Memory.read (s.writeAt as l).mem a = Memory.read s.mem a
  | [], _, _, _ => rfl
  | _ :: _, [], _, _ => rfl
  | x :: as, v :: l, s, h => by
    rw [List.mem_cons, not_or] at h
    obtain ⟨hne, hnot⟩ := h
    rw [State.writeAt, State.writeAt_outside _ hnot, State.write_mem, Memory.read_writeBytes_outside _ _ _ _ (by simp; omega)]

/-- A request changes the bytes of its elements alone. -/
theorem redElems_outside {op : BitVec 3} {a : Nat} : ∀ {l : List (Nat × List Nat × BitVec 32)} (s : State), (∀ x ∈ l, a ∉ x.2.1) →
    Memory.read (redElems op l s).1.mem a = Memory.read s.mem a
  | [], _, _ => rfl
  | (o, as, v) :: l, s, h => by
    obtain ⟨hhead, htail⟩ := List.forall_mem_cons.mp h
    exact (redElems_outside _ htail).trans (State.writeAt_outside s hhead)

theorem State.digestGranule_mem (s : State) (b space tid g mask : Nat) (l : List Byte) : (s.digestGranule b space tid g mask l).mem = s.mem := by
  unfold State.digestGranule
  dsimp only
  split <;> rfl

theorem State.digestBytes_mem (s : State) (b tid : Nat) (l : List (Nat × Nat × Byte)) : (s.digestBytes b tid l).mem = s.mem :=
  List.foldlRecOn (motive := fun t : State => t.mem = s.mem) _ _ rfl fun t ht _ _ => (State.digestGranule_mem t _ _ _ _ _ _).trans ht

theorem redPerform_mem (bs : List Nat) (q : RedReq) (s : State) : (redPerform bs q s).1.mem = (redElems q.op q.vals s).1.mem :=
  List.foldlRecOn (motive := fun t : State => t.mem = (redElems q.op q.vals s).1.mem) _ _ rfl fun t ht _ _ => (State.digestBytes_mem t _ _ _).trans ht

/-- The requests with the sequence of an applied one are applied. -/
theorem State.redApplied_applied (s : State) (b : Nat) (seq : BitVec 23) (f : BitVec 8) :
    ∀ x ∈ ((s.redApplied b seq f).bay b).reds, x.seq = seq → x.applied = true := by
  intro x hx hseq
  rw [State.redApplied, State.modBay_bay_same] at hx
  obtain ⟨y, -, rfl⟩ := List.mem_map.mp hx
  split at hseq
  · rename_i h
    rw [if_pos h]
  · rename_i h
    exact absurd hseq h

/-- The key under which a request's home keeps what it has seen (log 97). -/
def State.redKey (s : State) (b : Nat) (q : RedReq) : Nat := homeKey (s.bay b).partNo (s.bay b).index q.home

/-- What the home of a request has seen last, if anything. -/
def State.redSeen (s : State) (b : Nat) (q : RedReq) : Option (Nat × BitVec 23) := s.homes.find? fun x => x.1 = s.redKey b q

/-- Request `n` has left the bay, and its flags `f` are the W stream's. -/
def State.acknowledge (s : State) (b n : Nat) (f : BitVec 8) : State :=
  (s.modBay b fun y => { y with reds := y.reds.eraseIdx n }).orStreamFlags b .W f

theorem State.acknowledge_bay (s : State) (b n : Nat) (f : BitVec 8) : (s.acknowledge b n f).bay b =
    { s.bay b with reds := (s.bay b).reds.eraseIdx n, w := { (s.bay b).w with flags := (s.bay b).w.flags ||| f } }.mark markFlags := by
  rw [State.acknowledge, State.orStreamFlags, State.modBay_bay_same, State.modBay_bay_same]
  rfl

section
variable {s : State} {b n : Nat} {q : RedReq}

/-- A request that is first at its home, and whose bytes nothing keeps from being written, is not held up. -/
theorem redReq_arrives (hnew : q.applied = false) (hfirst : ∀ x ∈ (s.bay b).reds.take n, x.home = q.home → x.applied = true)
    (hwrites : ∀ e ∈ q.vals, ∀ a ∈ e.2.1, s.writeWaits a = false) :
    (q.applied || ((s.bay b).reds.take n).any (fun x => x.home = q.home && !x.applied) || q.vals.any fun e => e.2.1.any s.writeWaits) = false := by
  simp only [hnew, Bool.false_or, Bool.or_eq_false_iff, List.any_eq_false]
  exact ⟨fun x hx => by simpa using hfirst x hx, fun e he => by simpa using hwrites e he⟩

variable (hq : (s.bay b).reds[n]? = some q)
include hq

/-- An applied request is not applied again. -/
theorem redApply_applied (h : q.applied = true) : redApply b n s = s := by
  simp only [redApply, hq, h, Bool.true_or, if_true]

section
variable (hnew : q.applied = false) (hfirst : ∀ x ∈ (s.bay b).reds.take n, x.home = q.home → x.applied = true)
  (hwrites : ∀ e ∈ q.vals, ∀ a ∈ e.2.1, s.writeWaits a = false)
include hnew hfirst hwrites

/-- Outside a paired job a newer sequence is applied, and its home has seen it. -/
theorem redApply_newer (hpaired : (s.bay b).paired = false)
    (hseen : ∀ x, s.redSeen b q = some x → newer x.2 q.seq = true) :
    let u := redPerform [b] q s
    redApply b n s = { u.1 with homes := Tab.put u.1.homes (s.redKey b q) q.seq }.redApplied b q.seq u.2 := by
  unfold State.redSeen State.redKey at hseen
  simp only [redApply, hq, redReq_arrives hnew hfirst hwrites, hpaired, Bool.false_eq_true, if_false, Option.map_none]
  cases hfind : s.homes.find? fun x => x.1 = homeKey (s.bay b).partNo (s.bay b).index q.home with
  | none => rfl
  | some x =>
    have hnewer := hseen x hfind
    simp only [hnewer, Bool.not_true, Bool.false_eq_true, if_false]
    rfl

/-- A sequence that is not newer is acknowledged, and changes nothing else. -/
theorem redApply_seen {x : Nat × BitVec 23} (hseen : s.redSeen b q = some x)
    (hold : newer x.2 q.seq = false) : redApply b n s = s.redApplied b q.seq 0 := by
  unfold State.redSeen State.redKey at hseen
  simp only [redApply, hq, redReq_arrives hnew hfirst hwrites, hseen, hold, Bool.false_eq_true, if_false, Bool.not_false, if_true]

theorem exec_xredRequestApply_newer (hpaired : (s.bay b).paired = false)
    (hseen : ∀ x, s.redSeen b q = some x → newer x.2 q.seq = true) :
    ∃ t, exec (.xredRequestApply b n) s = .next t ∧ t.mem = (redElems q.op q.vals s).1.mem ∧
      (∀ a, (∀ x ∈ q.vals, a ∉ x.2.1) → Memory.read t.mem a = Memory.read s.mem a) ∧
      Tab.get 0 t.homes (s.redKey b q) = q.seq ∧ ∀ x ∈ (t.bay b).reds, x.seq = q.seq → x.applied = true := by
  have hmem := redPerform_mem [b] q s
  exact ⟨_, congrArg Host.Outcome.next (redApply_newer hq hnew hfirst hwrites hpaired hseen), hmem,
    fun a ha => (congrArg (Memory.read · a) hmem).trans (redElems_outside s ha), Tab.get_put_same _ _ _ _, State.redApplied_applied _ _ _ _⟩

theorem exec_xredRequestApply_seen {x : Nat × BitVec 23} (hseen : s.redSeen b q = some x) (hold : newer x.2 q.seq = false) :
    ∃ t, exec (.xredRequestApply b n) s = .next t ∧ SameMem s t ∧ t.homes = s.homes ∧ ∀ x ∈ (t.bay b).reds, x.seq = q.seq → x.applied = true :=
  ⟨_, congrArg Host.Outcome.next (redApply_seen hq hnew hfirst hwrites hseen hold), fun _ => rfl, rfl, State.redApplied_applied _ _ _ _⟩

end

/-- The acknowledgement of an applied request removes it and adds its flags; beside that it advances its copy at most. -/
theorem redAck_acknowledges (h : q.applied = true) :
    redAck b n s = s.acknowledge b n q.flags ∨ ∃ l, redAck b n s = (s.acknowledge b n q.flags).modStream b .W fun x => { x with inflight := l } := by
  simp only [redAck, hq, h, Bool.not_true, Bool.false_eq_true, if_false]
  split
  · exact .inl rfl
  · split
    · exact .inl rfl
    · split
      · exact .inr ⟨_, rfl⟩
      · exact .inr ⟨_, rfl⟩

theorem exec_xredAck (h : q.applied = true) : ∃ t, exec (.xredAck b n) s = .next t ∧ (t.bay b).reds = (s.bay b).reds.eraseIdx n ∧
    (t.bay b).w.flags = (s.bay b).w.flags ||| q.flags ∧ SameMem s t := by
  obtain hack | ⟨l, hack⟩ := redAck_acknowledges hq h
  · refine ⟨_, congrArg Host.Outcome.next hack, ?_, ?_, fun _ => rfl⟩ <;> rw [State.acknowledge_bay] <;> rfl
  · refine ⟨_, congrArg Host.Outcome.next hack, ?_, ?_, fun _ => rfl⟩ <;> rw [State.modStream, State.modBay_bay_same, State.acknowledge_bay] <;> rfl

/-- A request may be sent again: it stands with the clock of its last sending. -/
theorem exec_xredResend : ∃ t, exec (.xredResend b n) s = .next t ∧ (t.bay b).reds = (s.bay b).reds.set n { q with sent := s.clock } ∧ SameMem s t ∧
    OnlyBay s t b (fun y z => { y with reds := z.reds }) := by
  have ht : exec (.xredResend b n) s = .next (s.modBay b fun y => { y with reds := y.reds.set n { q with sent := s.clock } }) := by
    change execXredResend b n s = _
    rw [execXredResend, State.modBay, hq]
    rfl
  exact ⟨_, ht, by rw [State.modBay_bay_same], fun _ => rfl, onlyBay_modBay rfl⟩

end

/-- Settles O33: a line by its additions, and a request by what its home has seen. -/
theorem addsAndReductions : Obligations.AddsAndReductions := by
  unfold Obligations.AddsAndReductions
  refine ⟨?_, ?_⟩
  · intro s b n r dst hlive hrec hopened hhalted hlate hslot hline hdst rest e0 run hrow
    exact ⟨_, congrArg Host.Outcome.next (addwLine_adds hlive hrec hopened hhalted hlate hslot hline hdst hrow), addEntries_run_rd b _ run s,
      fun a ha => addEntries_run_outside b _ run s ha, _, State.lineDone_inflight (addEntries_wroteSpans b _ _ s) b n _ _ _,
      fun hmore => CopyRec.lineWritten_line hmore _ _⟩
  · intro s b n q hq k seen
    exact ⟨fun hpaired hnew hfirst hwrites => ⟨exec_xredRequestApply_newer hq hnew hfirst hwrites hpaired, fun _ => exec_xredRequestApply_seen hq hnew hfirst hwrites⟩,
      fun h => congrArg Host.Outcome.next (redApply_applied hq h), exec_xredAck hq, exec_xredResend hq⟩

end Sys2Proof.Machine
end

section
/-! Selection (R315, R317): the job that selection places is eligible and of the highest ELEV, and a READY one goes to the free group of lowest number
that fits. -/

namespace Sys2Proof.Machine

/-! ### Groups (R317) -/

theorem Job.cost_pos (j : Job) : 0 < j.cost := Nat.two_pow_pos j.shape

/-- A free group is a group of its partition. -/
theorem State.groupFree_mem_groups {s : State} {p g : Nat} {j : Job} (h : s.groupFree p j.cost g = true) : g ∈ (s.part p).groups j.cost := by
  unfold State.groupFree Part.groupBents at h
  split at h
  case h_2 => cases h
  case h_1 bs hbs =>
    split at hbs
    case isFalse => cases hbs
    case isTrue hlen => exact List.mem_range.mpr ((Nat.le_div_iff_mul_le j.cost_pos).mpr hlen)

/-- Where a READY job can go within group `g`. -/
def State.fitAt (s : State) (p : Nat) (j : Job) (g : Nat) : Option (Nat × Option Nat) :=
  if !s.groupFree p j.cost g then none
  else if !j.paired then some (g, none)
  else match (s.part p).mirror j.cost g with
    | some h => if s.groupFree p j.cost h then some (g, some h) else none
    | none => none

theorem State.fit_eq (s : State) (p : Nat) (j : Job) : s.fit p j = (((s.part p).groups j.cost).filterMap (s.fitAt p j)).head? := rfl

theorem State.fitAt_some {s : State} {p f g : Nat} {j : Job} {h : Option Nat} (hfit : s.fitAt p j f = some (g, h)) :
    f = g ∧ s.groupFree p j.cost g = true ∧ (j.paired = false → h = none) ∧ (j.paired = true → h = (s.part p).mirror j.cost g) := by
  cases hfree : s.groupFree p j.cost f with
  | false => simp [State.fitAt, hfree] at hfit
  | true =>
    cases hpaired : j.paired with
    | false =>
      obtain ⟨rfl, rfl⟩ : f = g ∧ none = h := by simpa [State.fitAt, hfree, hpaired] using hfit
      exact ⟨rfl, hfree, fun _ => rfl, fun h => absurd h Bool.false_ne_true⟩
    | true =>
      cases hmirror : (s.part p).mirror j.cost f with
      | none => simp [State.fitAt, hfree, hpaired, hmirror] at hfit
      | some m =>
        obtain ⟨-, rfl, rfl⟩ : s.groupFree p j.cost m = true ∧ f = g ∧ some m = h := by
          simpa [State.fitAt, hfree, hpaired, hmirror] using hfit
        exact ⟨rfl, hfree, fun h => absurd h.symm Bool.false_ne_true, fun _ => hmirror.symm⟩

/-- An unpaired job goes to every free group. -/
theorem State.groupFree_of_fitAt_none {s : State} {p f : Nat} {j : Job} (hpaired : j.paired = false) (hfit : s.fitAt p j f = none) :
    s.groupFree p j.cost f = false := by
  simpa [State.fitAt, hpaired] using hfit

/-- A READY job goes to a free group, with its mirror where it is paired; an unpaired one to the free group of lowest number. -/
theorem State.fit_lowest {s : State} {p g : Nat} {j : Job} {h : Option Nat} (hfit : s.fit p j = some (g, h)) : s.groupFree p j.cost g = true ∧
    (j.paired = false → h = none ∧ ∀ f, f < g → s.groupFree p j.cost f = false) ∧ (j.paired = true → h = (s.part p).mirror j.cost g) := by
  rw [State.fit_eq, List.head?_filterMap, List.findSome?_eq_some_iff] at hfit
  obtain ⟨before, k, after, hgroups, hk, hbefore⟩ := hfit
  obtain ⟨rfl, hfree, hsingle, hmirror⟩ := State.fitAt_some hk
  refine ⟨hfree, fun hpaired => ⟨hsingle hpaired, fun f hf => ?_⟩, hmirror⟩
  by_contra hffree
  have hmem := State.groupFree_mem_groups (Bool.eq_true_of_not_eq_false hffree)
  have hsorted : ((s.part p).groups j.cost).Pairwise (· < ·) := List.pairwise_lt_range
  rw [hgroups] at hmem hsorted
  obtain hin | hin := List.mem_append.mp hmem
  · exact hffree (State.groupFree_of_fitAt_none hpaired (hbefore f hin))
  · obtain ⟨-, hafter, -⟩ := List.pairwise_append.mp hsorted
    obtain rfl | hin := List.mem_cons.mp hin
    · exact Nat.lt_irrefl _ hf
    · exact Nat.lt_asymm hf ((List.pairwise_cons.mp hafter).1 f hin)

theorem State.placeFor_ready {s : State} {p n : Nat} {j : Job} (h : j.state = .ready) : s.placeFor p n j = s.fit p j := by
  simp [State.placeFor, h]

/-! ### The job that selection places (R315) -/

/-- The round robin stops at a job of its list that has a place. -/
theorem selectGo_place {s : State} {p n g ptr' : Nat} {h : Option Nat} {es : List (Nat × Job)} {qnums : List Nat} {qs' : Tab LQueue} :
    ∀ (fuel : Nat) {qs : Tab LQueue} {ptr : Nat}, selectGo s p es qnums fuel qs ptr = .place n g h qs' ptr' →
      ∃ i, (n, i) ∈ es ∧ s.placeFor p n i = some (g, h)
  | 0, _, _, hgo => by cases hgo
  | fuel + 1, qs, ptr, hgo => by
    cases hptr : fromPointer ptr qnums with
    | none =>
      rw [selectGo, hptr] at hgo
      cases hgo
    | some q =>
      rw [selectGo, hptr] at hgo
      dsimp only at hgo
      generalize (if (Tab.get ({} : LQueue) qs q).visited = true then _ else _) = x at hgo
      split at hgo
      · cases hgo
      · split at hgo
        · exact selectGo_place fuel hgo
        · split at hgo
          · cases hgo
          · cases hgo
            exact ⟨_, List.mem_of_find?_eq_some ‹_›, ‹_›⟩

theorem elev_le_top : ∀ (es : List (Nat × Job)) (m : Nat), m ≤ es.foldl (fun m e => max m e.2.elev) m ∧
    ∀ e ∈ es, e.2.elev ≤ es.foldl (fun m e => max m e.2.elev) m
  | [], m => ⟨Nat.le_refl m, fun _ he => absurd he List.not_mem_nil⟩
  | x :: es, m => by
    obtain ⟨hacc, hrest⟩ := elev_le_top es (max m x.2.elev)
    refine ⟨(Nat.le_max_left ..).trans hacc, fun e he => ?_⟩
    obtain rfl | he := List.mem_cons.mp he
    · exact (Nat.le_max_right ..).trans hacc
    · exact hrest e he

/-- Selection places an eligible job of the highest ELEV. -/
theorem select_place {s : State} {p n g ptr : Nat} {h : Option Nat} {qs : Tab LQueue} (hsel : select p s = .place n g h qs ptr) :
    ∃ i, (n, i) ∈ s.eligible p ∧ (∀ e ∈ s.eligible p, e.2.elev ≤ i.elev) ∧ s.placeFor p n i = some (g, h) := by
  obtain ⟨i, hi, hplace⟩ := selectGo_place _ hsel
  obtain ⟨hmem, htop⟩ := List.mem_filter.mp hi
  refine ⟨i, hmem, fun e he => ?_, hplace⟩
  rw [of_decide_eq_true htop]
  exact (elev_le_top _ _).2 e he

/-! ### What selection comes to (R315, R462) -/

theorem State.logSays_free {s : State} {p : Nat} (h : (s.part p).logMode = 0) (kind unit : Nat) : s.logSays p kind unit = .free := by
  simp [State.logSays, h]

theorem State.decided_free {s : State} {p : Nat} (h : (s.part p).logMode = 0) (kind unit slot choice : Nat) : s.decided p kind unit slot choice = s := by
  simp [State.decided, State.logSays_free h, h]

/-- Outside a replay, and where nothing is recorded, what is placed is what selection chose. -/
theorem selection_place {s : State} {p n g ptr : Nat} {h : Option Nat} {qs : Tab LQueue} (hsel : select p s = .place n g h qs ptr)
    (hup : s.framerUp = true) (hpart : (s.part p).up = true) (hfrozen : s.isFrozen p = false) (hdet : (s.part p).det = false)
    (hlog : (s.part p).logMode = 0) : selection p s = followSelect p n g h qs ptr s := by
  simp [selection, hup, hpart, hfrozen, hdet, State.logSays_free hlog, hsel, State.decided_free hlog]

end Sys2Proof.Machine
end

section
/-! Placement (R15, R255, R318, R323): the job and its twin in LOAD, their laths, trusses and shadow planes. -/

namespace Sys2Proof.Machine

/-! ### What the steps of a placement leave unchanged -/

/-- A store beyond the banks and accumulator stores changes memory alone. -/
theorem State.write_beyond (s : State) {a : Nat} (h : 268435456 ≤ a) (l : List Byte) : s.write a l = { s with mem := Memory.writeBytes s.mem a l } := by
  unfold State.write
  split
  case isTrue => rfl
  case isFalse hl =>
    have hpos : 0 < l.length := List.length_pos_iff.mpr (by simpa using hl)
    rw [State.dirtyLine_outside s h, State.dirtyLine_outside s (show 268435456 ≤ a + l.length - 1 by omega)]

/-- The tables of a job go to DRAM, and their entries to the job. -/
theorem buildTables_rest (n : Nat) (s : State) : ∃ e m, buildTables n s = { s.modJob n fun j => { j with entries := e } with mem := m } := by
  have hdram : ∀ a, 268435456 ≤ dramAddr a := fun a => by unfold dramAddr; omega
  unfold buildTables
  dsimp only
  generalize hgo : List.foldl _ _ _ = go
  obtain ⟨m, hm⟩ : ∃ m, go.1 = { s with mem := m } := hgo ▸
    List.foldlRecOn (motive := fun acc : State × List (List Word) × Nat => ∃ m, acc.1 = { s with mem := m }) _ _ ⟨_, rfl⟩ (by
      rintro ⟨_, es, a⟩ ⟨m, rfl⟩ t -
      exact List.foldlRecOn (motive := fun u : State => ∃ m, u = { s with mem := m }) _ _ ⟨_, rfl⟩ (by
        rintro _ ⟨m, rfl⟩ nd -
        exact ⟨_, State.write_beyond _ (hdram _) _⟩))
  rw [hm]
  exact ⟨_, m, rfl⟩

/-- The Framer's ring changes the registers of its partition, and beside them memory and the count of free values. -/
theorem State.frEvent_rest (s : State) (p kind data : Nat) (jobid : Word) (detail : Option Nat) :
    ∃ i m x, s.frEvent p kind data jobid detail = { s with tick := i, mem := m, parts := x } ∧
      ((s.frEvent p kind data jobid detail).part p).queues = (s.part p).queues ∧ ((s.frEvent p kind data jobid detail).part p).pointer = (s.part p).pointer := by
  unfold State.frEvent
  dsimp only
  split
  · exact ⟨_, _, _, rfl, by rw [State.setPart_part_same], by rw [State.setPart_part_same]⟩
  · cases detail <;> dsimp only <;> rw [State.write_host, State.setPart_part_same] <;> exact ⟨_, _, _, rfl, rfl, rfl⟩

/-! ### Trusses (R255) -/

/-- A bent whose truss has lost its previous holder stays so. -/
theorem State.forget_holder (t : Nat) : ∀ (l : List Nat) {s : State}, ((s.bent t).last = none ∨ t ∈ l) →
    ((l.foldl (fun s t => s.setBent t { s.bent t with last := none }) s).bent t).last = none
  | [], _, h => h.elim id fun h => absurd h List.not_mem_nil
  | k :: l, s, h => State.forget_holder t l (s := s.setBent k { s.bent k with last := none }) (by
    rw [State.setBent_bent]
    split
    case isTrue => exact .inl rfl
    case isFalse hne => exact h.imp_right fun h => (List.mem_cons.mp h).resolve_left hne)

/-- Under a SEED of 0 the trusses of the bays have no previous holder. -/
theorem State.freshTrusses_last {seed : Word} (hseed : bits seed 31 0 = 0) (s : State) {bays : List Nat} {b : Nat} (hb : b ∈ bays) :
    ((s.freshTrusses bays seed).bent (b / 8)).last = none := by
  simp only [State.freshTrusses, hseed, if_true]
  exact State.forget_holder _ _ (.inr (List.mem_eraseDups.mpr (List.mem_map.mpr ⟨b, hb, rfl⟩)))

/-- A placement takes bents alone, and notes when they were idle. -/
theorem State.takeBents_rest (s : State) (bays : List Nat) (seed : Word) :
    ∃ i, s.takeBents bays seed = { s with bents := (s.freshTrusses bays seed).bents, remap := { s.remap with idleAt := i } } := by
  obtain ⟨x, hbents⟩ := s.freshTrusses_rest bays seed
  unfold State.takeBents
  rw [hbents]
  exact List.foldlRecOn (motive := fun t : State => ∃ i, t = { s with bents := x, remap := { s.remap with idleAt := i } }) _ _ ⟨_, rfl⟩ (by
    rintro _ ⟨i, rfl⟩ t -
    exact ⟨_, rfl⟩)

theorem Job.seed_eq_zero {j : Job} (h : j.plumb = false) : bits j.seed 31 0 = 0 := by
  simp [Job.seed, h, bits]

/-! ### Shadow planes (R318) -/

/-- The bay with code for copy `k` in its shadow plane. -/
def Bay.preloaded (y : Bay) (k : Nat) (code : Plane) : Bay := { y with shadow := code, shadowFor := some k }

theorem preload_rest (n : Nat) (bays : List Nat) (s : State) : ∃ y, preload n bays s = { s with bays := y } :=
  List.foldlRecOn (motive := fun t : State => ∃ y, t = { s with bays := y }) _ _ ⟨_, rfl⟩ (by
    rintro _ ⟨y, rfl⟩ b -
    exact ⟨_, rfl⟩)

theorem preload_bay (n : Nat) (bays : List Nat) (s : State) (b : Nat) :
    (preload n bays s).bay b = if b ∈ bays then (s.bay b).preloaded n (planeOf (recOf (s.job n).image 1)) else s.bay b := by
  unfold preload
  dsimp only
  generalize planeOf (recOf (s.job n).image 1) = code
  induction bays generalizing s with
  | nil => rfl
  | cons c bays ih =>
    rw [List.foldl_cons, ih, State.modBay_bay]
    by_cases hbc : b = c
    · subst hbc
      simp [Bay.preloaded]
    · simp [hbc]

/-- The code of every copy of job `n` goes to the shadow planes of its bays. -/
def preloadCopies (n : Nat) (s : State) : State := (s.copies n).foldl (fun s c => preload c (s.job c).bays s) s

theorem preloadCopies_rest (n : Nat) (s : State) : ∃ y, preloadCopies n s = { s with bays := y } :=
  List.foldlRecOn (motive := fun t : State => ∃ y, t = { s with bays := y }) _ _ ⟨_, rfl⟩ (by
    rintro _ ⟨y, rfl⟩ c -
    obtain ⟨z, h⟩ := preload_rest c (State.job { s with bays := y } c).bays { s with bays := y }
    exact ⟨z, h⟩)

theorem preloadCopies_single {n : Nat} {s : State} (h : (s.job n).twin = none) : preloadCopies n s = preload n (s.job n).bays s := by
  simp [preloadCopies, State.copies, h]

theorem preloadCopies_twin {n k : Nat} {s : State} (h : (s.job n).twin = some k) (b : Nat) : (preloadCopies n s).bay b =
    if b ∈ (s.job k).bays then ((preload n (s.job n).bays s).bay b).preloaded k (planeOf (recOf (s.job k).image 1)) else (preload n (s.job n).bays s).bay b := by
  obtain ⟨y, hrest⟩ := preload_rest n (s.job n).bays s
  have hjob : (preload n (s.job n).bays s).job k = s.job k := by rw [hrest]; rfl
  simp only [preloadCopies, State.copies, h, Option.toList_some, List.foldl_cons, List.foldl_nil, hjob, preload_bay k]

/-! ### Laths (R328, R346) -/

theorem State.modJob_lathAt (s : State) (n : Nat) (f : Job → Job) (k : Nat) : (s.modJob n f).lathAt k = s.lathAt k := rfl

/-- Job `n` holds the lath, and the lath's shadow plane is the job's. -/
def Lath.TakenBy (x : Lath) (n : Nat) : Prop := x.slot = some n ∧ x.shadowFor = some n

theorem loadLath_rest (n : Nat) (e : LathEntry) (s : State) : ∃ l, loadLath n e s = { s with laths := l } := by
  unfold loadLath
  dsimp only
  split
  · exact ⟨_, rfl⟩
  · exact ⟨_, rfl⟩

theorem loadLath_same (n : Nat) (e : LathEntry) (s : State) : ((loadLath n e s).lathAt e.lath).shadowFor = some n := by
  unfold loadLath
  dsimp only
  split
  case isTrue h => exact eq_of_beq h
  case isFalse => rw [State.setLath_lathAt_same]; rfl

theorem loadLath_ne (n : Nat) (e : LathEntry) (s : State) {k : Nat} (h : k ≠ e.lath) : (loadLath n e s).lathAt k = s.lathAt k := by
  unfold loadLath
  dsimp only
  split
  · rfl
  · rw [State.setLath_lathAt, if_neg h]

/-- Job `n` of partition `p` takes the lath of an entry. -/
def State.takeLath (p n : Nat) (s : State) (e : LathEntry) : State :=
  (loadLath n e (s.dropCache (64 + e.lath))).modLath e.lath fun x => { x with ctx := BitVec.ofNat 6 (s.part p).ctx, slot := some n }

theorem State.takeLath_rest (p n : Nat) (s : State) (e : LathEntry) : ∃ c l, s.takeLath p n e = { s with caches := c, laths := l } := by
  obtain ⟨l, h⟩ := loadLath_rest n e (s.dropCache (64 + e.lath))
  rw [State.takeLath, h]
  exact ⟨_, _, rfl⟩

theorem State.takeLath_same (p n : Nat) (s : State) (e : LathEntry) : ((s.takeLath p n e).lathAt e.lath).TakenBy n := by
  rw [State.takeLath, State.modLath, State.setLath_lathAt_same]
  exact ⟨rfl, loadLath_same n e _⟩

theorem State.takeLath_ne (p n : Nat) (s : State) {e : LathEntry} {k : Nat} (h : k ≠ e.lath) : (s.takeLath p n e).lathAt k = s.lathAt k := by
  rw [State.takeLath, State.modLath, State.setLath_lathAt, if_neg h, loadLath_ne n e _ h]
  rfl

/-- A lath that the job has taken stays so. -/
theorem State.takeLaths_taken (p n k : Nat) : ∀ (es : List LathEntry) {s : State}, ((s.lathAt k).TakenBy n ∨ k ∈ es.map fun e => e.lath) →
    ((es.foldl (State.takeLath p n) s).lathAt k).TakenBy n
  | [], _, h => h.elim id fun h => absurd h List.not_mem_nil
  | e :: es, s, h => State.takeLaths_taken p n k es (s := s.takeLath p n e) (by
    by_cases hk : k = e.lath
    · exact .inl (hk ▸ State.takeLath_same p n s e)
    · rw [State.takeLath_ne p n s hk]
      exact h.imp_right fun h => (List.mem_cons.mp h).resolve_left hk)

/-- The laths that job `n` takes. -/
def State.lathsOf (s : State) (n : Nat) : List Nat := variantLaths (s.job n).image (s.job n).sig

theorem State.jobConfigs_entries (s : State) (n : Nat) :
    (s.jobConfigs n).map (fun e => e.1) = firstEntries [] (variantEntries (s.job n).image (s.job n).sig) :=
  List.map_map.trans (List.map_id' _)

/-- The bays without the elements on their way to the laths that a job takes. -/
def State.quietLaths (s : State) (ks : List Nat) : State :=
  { s with bays := s.bays.map fun (b, y) =>
    (b, { y with chan := y.chan.map fun (c, e) => (c, if !e.bnd && ks.contains e.peer.toNat then { e with wire := [] } else e) }) }

theorem State.quietLaths_bay (s : State) (ks : List Nat) (b : Nat) : (s.quietLaths ks).bay b = { s.bay b with chan := ((s.quietLaths ks).bay b).chan } := by
  have hbay : (s.quietLaths ks).bay b = { s.bay b with chan := (s.bay b).chan.map fun (c, e) => (c, if !e.bnd && ks.contains e.peer.toNat then { e with wire := [] } else e) } :=
    Tab.get_map (f := fun _ (y : Bay) =>
      { y with chan := y.chan.map fun (c, e) => (c, if !e.bnd && ks.contains e.peer.toNat then { e with wire := [] } else e) }) rfl s.bays
  rw [hbay]

theorem assignLaths_eq (n : Nat) (s : State) : assignLaths n s =
    ((firstEntries [] (variantEntries (s.job n).image (s.job n).sig)).foldl (State.takeLath (s.job n).part n) (s.quietLaths (s.lathsOf n))).modJob n
      fun j => { j with laths := s.lathsOf n } := by
  rw [State.lathsOf, variantLaths, ← State.jobConfigs_entries]
  rfl

/-- A job's laths, with their channels, change; the rest stays. -/
theorem assignLaths_rest (n : Nat) (s : State) : ∃ c l, assignLaths n s =
    { (s.quietLaths (s.lathsOf n)).modJob n fun j => { j with laths := s.lathsOf n } with caches := c, laths := l } := by
  rw [assignLaths_eq]
  generalize firstEntries [] (variantEntries (s.job n).image (s.job n).sig) = es
  obtain ⟨c, l, htake⟩ := List.foldlRecOn (motive := fun t : State => ∃ c l, t = { s.quietLaths (s.lathsOf n) with caches := c, laths := l }) es
    (State.takeLath (s.job n).part n) ⟨_, _, rfl⟩ (by
      rintro _ ⟨c, l, rfl⟩ e -
      obtain ⟨c', l', h⟩ := State.takeLath_rest (s.job n).part n { s.quietLaths (s.lathsOf n) with caches := c, laths := l } e
      exact ⟨c', l', h⟩)
  rw [htake]
  exact ⟨c, l, rfl⟩

theorem assignLaths_taken {n k : Nat} {s : State} (h : k ∈ s.lathsOf n) : ((assignLaths n s).lathAt k).TakenBy n := by
  rw [assignLaths_eq]
  rw [State.modJob_lathAt]
  exact State.takeLaths_taken _ n k _ (.inr h)

end Sys2Proof.Machine
end

section
/-! Placement (R15, R255, R318, R323), from its steps: a READY job with its twin, and a saved one. -/

namespace Sys2Proof.Machine

/-! ### The jobs of a placement (R15, R454) -/

/-- The bays of a group for the job. -/
def State.groupBays (s : State) (j : Job) (g : Nat) : List Nat := bentBays (((s.part j.part).groupBents j.cost g).getD [])

/-- The copy on the lower-numbered bents is the primary (R454). -/
def State.isFirst (s : State) (j : Job) (g : Nat) (h : Option Nat) : Bool := h.all fun h => decide ((s.groupBays j g).headD 0 ≤ (s.groupBays j h).headD 0)

/-- The job in LOAD on its group. -/
def State.placedJob (s : State) (n g : Nat) (h : Option Nat) : Job :=
  let j := s.job n
  { j with
    state := .load, group := g, bays := s.groupBays j g, sig := s.remap.defsig.toNat, placed := true
    placedTime := if j.placed then j.placedTime else s.clk.time, placedOrder := s.jobClock, twin := h.map fun _ => twinSlot n, primary := s.isFirst j g h }

/-- The job enters LOAD. -/
def enterLoad (n g : Nat) (h : Option Nat) (s : State) : State := { s.setJob n (s.placedJob n g h) with jobClock := s.jobClock + 1 }

theorem enterLoad_job (n g : Nat) (h : Option Nat) (s : State) (m : Nat) :
    (enterLoad n g h s).job m = if m = n then s.placedJob n g h else s.job m := State.setJob_job _ _ _ _

/-- The job's tables are built, if they are not yet. -/
def withTables (n : Nat) (s : State) : State := if (s.job n).entries.isEmpty then buildTables n s else s

/-- The job and its twin enter LOAD. -/
def placeJobs (n g : Nat) (h : Option Nat) (s : State) : State :=
  let u := withTables n (enterLoad n g h s)
  match h with
  | some k => u.setJob (twinSlot n) { u.job n with bays := s.groupBays (s.job n) k, twin := some n, primary := !s.isFirst (s.job n) g h, group := k }
  | none => u

/-- A placement before the code goes to the shadow planes: jobs, laths and trusses. -/
def placeUnits (n g : Nat) (h : Option Nat) (s : State) : State :=
  let u := placeJobs n g h s
  (clearHomes (s.job n).part (assignLaths n u)).takeBents (u.allBays n) (s.job n).seed

theorem placeReady_eq (n g : Nat) (h : Option Nat) (s : State) :
    placeReady n g h s = (preloadCopies n (placeUnits n g h s)).frEvent (s.job n).part 2 g (s.job n).jobid none := by
  cases h <;> rfl

theorem withTables_rest (n : Nat) (s : State) : ∃ e j m, withTables n s = { s with jobs := j, mem := m } ∧
    (withTables n s).job n = { s.job n with entries := e } ∧ ∀ k, k ≠ n → (withTables n s).job k = s.job k := by
  unfold withTables
  split
  · obtain ⟨e, m, h⟩ := buildTables_rest n s
    rw [h]
    exact ⟨e, _, m, rfl, State.setJob_job_same _ _ _, fun k hk => (State.setJob_job _ _ _ _).trans (if_neg hk)⟩
  · exact ⟨_, _, _, rfl, rfl, fun k _ => rfl⟩

theorem twinSlot_ne (n : Nat) : twinSlot n ≠ n := by
  unfold twinSlot
  omega

/-- What the job, its twin and the other jobs are once they are placed. -/
structure JobsPlaced (s t : State) (n g : Nat) (h : Option Nat) : Prop where
  job : ∃ e l, t.job n = { s.placedJob n g h with entries := e, laths := l }
  twin : ∀ k, h = some k → (t.job (twinSlot n)).bays = s.groupBays (s.job n) k ∧ (t.job (twinSlot n)).twin = some n ∧
    (t.job (twinSlot n)).image = (s.job n).image
  others : ∀ m, m ≠ n → (m ≠ twinSlot n ∨ h = none) → t.job m = s.job m

theorem placeJobs_placed (n g : Nat) (h : Option Nat) (s : State) :
    (∃ j c m, placeJobs n g h s = { s with jobs := j, jobClock := c, mem := m }) ∧ JobsPlaced s (placeJobs n g h s) n g h := by
  obtain ⟨e, j, m, hrest, hjob, hothers⟩ := withTables_rest n (enterLoad n g h s)
  unfold placeJobs
  dsimp only
  generalize withTables n (enterLoad n g h s) = u at hrest hjob hothers ⊢
  have hown : u.job n = { s.placedJob n g h with entries := e } := by rw [hjob, enterLoad_job, if_pos rfl]
  have hother : ∀ m, m ≠ n → u.job m = s.job m := fun m hm => by rw [hothers m hm, enterLoad_job, if_neg hm]
  cases h with
  | none => exact ⟨⟨_, _, _, hrest⟩, ⟨_, _, hown⟩, fun k hk => (nomatch hk), fun m hm _ => hother m hm⟩
  | some k =>
    refine ⟨?_, ?_, fun k' hk' => ?_, fun m hm htwin => ?_⟩
    · rw [hrest]
      exact ⟨_, _, _, rfl⟩
    · rw [State.setJob_job, if_neg (twinSlot_ne n).symm, hown]
      exact ⟨e, _, rfl⟩
    · obtain rfl := Option.some.inj hk'
      rw [State.setJob_job_same, hown]
      exact ⟨rfl, rfl, rfl⟩
    · rw [State.setJob_job, if_neg (htwin.resolve_right (Option.some_ne_none k)), hother m hm]

/-- The bays of the twin. -/
def State.twinBays (s : State) (j : Job) (h : Option Nat) : List Nat := (h.map (s.groupBays j)).getD []

theorem JobsPlaced.allBays {s t : State} {n g : Nat} {h : Option Nat} (hjobs : JobsPlaced s t n g h) :
    t.allBays n = s.groupBays (s.job n) g ++ s.twinBays (s.job n) h := by
  obtain ⟨e, l, hjob⟩ := hjobs.job
  cases h with
  | none => simp [State.allBays, State.copies, State.twinBays, hjob, State.placedJob]
  | some k =>
    obtain ⟨hbays, -⟩ := hjobs.twin k rfl
    simp [State.allBays, State.copies, State.twinBays, hjob, State.placedJob, hbays]

/-- What a placement leaves before the code goes to the shadow planes. -/
structure UnitsPlaced (s t : State) (n g : Nat) (h : Option Nat) : Prop extends JobsPlaced s t n g h where
  bay : ∀ b, t.bay b = { s.bay b with chan := (t.bay b).chan }
  laths : ∀ l ∈ variantLaths (s.job n).image s.remap.defsig.toNat, (t.lathAt l).TakenBy n
  trusses : (s.job n).plumb = false → ∀ b ∈ s.groupBays (s.job n) g ++ s.twinBays (s.job n) h, (t.bent (b / 8)).last = none
  parts : t.parts = s.parts

theorem placeUnits_placed (n g : Nat) (h : Option Nat) (s : State) : UnitsPlaced s (placeUnits n g h s) n g h := by
  obtain ⟨⟨j, c, m, hu⟩, hjobs⟩ := placeJobs_placed n g h s
  have hallBays := hjobs.allBays
  obtain ⟨⟨e, l, hjob⟩, htwin, hothers⟩ := hjobs
  unfold placeUnits
  dsimp only
  generalize placeJobs n g h s = u at hu hjob htwin hothers hallBays ⊢
  obtain ⟨cc, ll, hassign⟩ := assignLaths_rest n u
  have htaken : ∀ l ∈ variantLaths (s.job n).image s.remap.defsig.toNat, ((assignLaths n u).lathAt l).TakenBy n := fun l hl =>
    assignLaths_taken (by rw [State.lathsOf, hjob]; exact hl)
  have hbay := u.quietLaths_bay (u.lathsOf n)
  generalize assignLaths n u = v at hassign htaken ⊢
  obtain ⟨i, htake⟩ := (clearHomes (s.job n).part v).takeBents_rest (u.allBays n) (s.job n).seed
  rw [htake]
  have hvjob : ∀ m, v.job m = if m = n then { u.job n with laths := u.lathsOf n } else u.job m := fun m => by
    rw [hassign]
    exact State.setJob_job _ _ _ _
  refine ⟨⟨⟨e, u.lathsOf n, ?_⟩, fun k hk => ?_, fun m hm hne => ?_⟩, fun b => ?_, htaken, fun hplumb b hb => ?_, ?_⟩
  · change v.job n = _
    rw [hvjob, if_pos rfl, hjob]
  · change (v.job _).bays = _ ∧ (v.job _).twin = _ ∧ (v.job _).image = _
    rw [hvjob, if_neg (twinSlot_ne n)]
    exact htwin k hk
  · change v.job m = _
    rw [hvjob, if_neg hm]
    exact hothers m hm hne
  · change v.bay b = { s.bay b with chan := (v.bay b).chan }
    rw [hassign]
    refine (hbay b).trans ?_
    rw [hu]
    rfl
  · rw [← hallBays] at hb
    exact State.freshTrusses_last (Job.seed_eq_zero hplumb) _ hb
  · change v.parts = s.parts
    rw [hassign, hu]
    rfl

/-! ### A READY job (R15, R255, R318) -/

/-- Each shadow plane of a placed job's bays has the code of the copy whose bay it is. -/
theorem UnitsPlaced.preloadCopies_bay {s u : State} {n g : Nat} {h : Option Nat} (hunits : UnitsPlaced s u n g h) (b : Nat) :
    let code := planeOf (recOf (s.job n).image 1)
    (preloadCopies n u).bay b = if b ∈ s.twinBays (s.job n) h then (u.bay b).preloaded (twinSlot n) code
      else if b ∈ s.groupBays (s.job n) g then (u.bay b).preloaded n code else u.bay b := by
  obtain ⟨e, l, hjob⟩ := hunits.job
  have hown := preload_bay n (u.job n).bays u b
  rw [hjob] at hown
  cases h with
  | none =>
    rw [preloadCopies_single (by rw [hjob]; rfl), hjob]
    exact hown.trans (if_neg List.not_mem_nil).symm
  | some k =>
    obtain ⟨hbays, -, himage⟩ := hunits.twin k rfl
    dsimp only
    rw [preloadCopies_twin (by rw [hjob]; rfl), hbays, himage, hjob, hown]
    refine if_congr Iff.rfl ?_ rfl
    split
    · rfl
    · rfl

/-- A placement once the code stands in the shadow planes. -/
structure ReadyPlaced (s t : State) (n g : Nat) (h : Option Nat) : Prop extends JobsPlaced s t n g h where
  own : ∀ b ∈ s.groupBays (s.job n) g, b ∉ s.twinBays (s.job n) h →
    (t.bay b).shadowFor = some n ∧ (t.bay b).shadow = planeOf (recOf (s.job n).image 1) ∧ (t.bay b).slot = (s.bay b).slot
  mirror : ∀ b ∈ s.twinBays (s.job n) h,
    (t.bay b).shadowFor = some (twinSlot n) ∧ (t.bay b).shadow = planeOf (recOf (s.job n).image 1) ∧ (t.bay b).slot = (s.bay b).slot
  bays : ∀ b, b ∉ s.groupBays (s.job n) g → b ∉ s.twinBays (s.job n) h → t.bay b = { s.bay b with chan := (t.bay b).chan }
  laths : ∀ l ∈ variantLaths (s.job n).image s.remap.defsig.toNat, (t.lathAt l).TakenBy n
  trusses : (s.job n).plumb = false → ∀ b ∈ s.groupBays (s.job n) g ++ s.twinBays (s.job n) h, (t.bent (b / 8)).last = none
  queues : (t.part (s.job n).part).queues = (s.part (s.job n).part).queues ∧ (t.part (s.job n).part).pointer = (s.part (s.job n).part).pointer

theorem placeReady_placed (n g : Nat) (h : Option Nat) (s : State) : ReadyPlaced s (placeReady n g h s) n g h := by
  have hunits := placeUnits_placed n g h s
  rw [placeReady_eq]
  generalize placeUnits n g h s = u at hunits ⊢
  have hcode := hunits.preloadCopies_bay
  obtain ⟨y, hpreload⟩ := preloadCopies_rest n u
  obtain ⟨i, m, x, hring, hqueues, hpointer⟩ := (preloadCopies n u).frEvent_rest (s.job n).part 2 g (s.job n).jobid none
  have hpart : (preloadCopies n u).part (s.job n).part = s.part (s.job n).part := by
    rw [hpreload]
    exact congrArg (Tab.get {} · _) hunits.parts
  have hslot : ∀ b, (u.bay b).slot = (s.bay b).slot := fun b => by rw [hunits.bay]
  generalize (preloadCopies n u).frEvent (s.job n).part 2 g (s.job n).jobid none = t at hring hqueues hpointer ⊢
  have hbay : ∀ b, t.bay b = (preloadCopies n u).bay b := fun b => by rw [hring]; rfl
  have hjob : ∀ k, t.job k = u.job k := fun k => by rw [hring, hpreload]; rfl
  have hlath : ∀ k, t.lathAt k = u.lathAt k := fun k => by rw [hring, hpreload]; rfl
  have hbent : ∀ k, t.bent k = u.bent k := fun k => by rw [hring, hpreload]; rfl
  refine ⟨⟨?_, ?_, ?_⟩, fun b hb hnot => ?_, fun b hb => ?_, fun b hown hmirror => ?_, ?_, ?_, ?_, ?_⟩
  · simp only [hjob]; exact hunits.job
  · simp only [hjob]; exact hunits.twin
  · simp only [hjob]; exact hunits.others
  · rw [hbay, hcode, if_neg hnot, if_pos hb]
    exact ⟨rfl, rfl, hslot b⟩
  · rw [hbay, hcode, if_pos hb]
    exact ⟨rfl, rfl, hslot b⟩
  · rw [hbay, hcode, if_neg hmirror, if_neg hown]
    exact hunits.bay b
  · simp only [hlath]; exact hunits.laths
  · simp only [hbent]; exact hunits.trusses
  · rw [hqueues, hpart]
  · rw [hpointer, hpart]

/-! ### A SAVED job (R255, R323) -/

/-- The copies of a SAVED job enter LOAD again. -/
def reloadJobs (n : Nat) (s : State) : State :=
  let u := (s.copies n).foldl (fun s c => s.modJob c fun j => { j with state := .load, placedOrder := s.jobClock }) s
  { u with jobClock := u.jobClock + 1 }

/-- The return of a SAVED job before its code goes to the shadow planes. -/
def reloadUnits (n : Nat) (s : State) : State := (reloadJobs n s).takeBents ((reloadJobs n s).allBays n) (s.job n).seed

theorem placeSaved_eq (n : Nat) (s : State) :
    placeSaved n s = (preloadCopies n (reloadUnits n s)).frEvent (s.job n).part 4 (s.job n).group (s.job n).jobid none := rfl

/-- Of a job of one copy, that copy alone enters LOAD. -/
theorem reloadJobs_single {n : Nat} {s : State} (h : (s.job n).twin = none) : reloadJobs n s =
    { s.setJob n { s.job n with state := .load, placedOrder := s.jobClock } with jobClock := s.jobClock + 1 } := by
  have hcopies : s.copies n = [n] := by simp [State.copies, h]
  rw [reloadJobs, hcopies]
  rfl

theorem reloadUnits_single {n : Nat} {s : State} (h : (s.job n).twin = none) : let u := reloadUnits n s
    u.job n = { s.job n with state := .load, placedOrder := s.jobClock } ∧ (∀ m, m ≠ n → u.job m = s.job m) ∧ u.bays = s.bays ∧ u.parts = s.parts ∧
      ((s.job n).plumb = false → ∀ b ∈ (s.job n).bays, (u.bent (b / 8)).last = none) := by
  have hjob : ∀ m, (reloadJobs n s).job m = if m = n then { s.job n with state := .load, placedOrder := s.jobClock } else s.job m := fun m => by
    rw [reloadJobs_single h]
    exact State.setJob_job _ _ _ _
  have hbays : (reloadJobs n s).bays = s.bays := by rw [reloadJobs_single h]; rfl
  have hparts : (reloadJobs n s).parts = s.parts := by rw [reloadJobs_single h]; rfl
  have hall : (reloadJobs n s).allBays n = (s.job n).bays := by simp [State.allBays, State.copies, hjob, h]
  obtain ⟨i, htake⟩ := (reloadJobs n s).takeBents_rest (s.job n).bays (s.job n).seed
  unfold reloadUnits
  rw [hall, htake]
  exact ⟨(hjob n).trans (if_pos rfl), fun m hm => (hjob m).trans (if_neg hm), hbays, hparts,
    fun hplumb b hb => State.freshTrusses_last (Job.seed_eq_zero hplumb) _ hb⟩

/-- A SAVED job of one copy, back on its bays. -/
structure SavedPlaced (s t : State) (n : Nat) : Prop where
  job : (t.job n).state = .load ∧ (t.job n).bays = (s.job n).bays
  others : ∀ m, m ≠ n → t.job m = s.job m
  own : ∀ b ∈ (s.job n).bays, (t.bay b).shadowFor = some n ∧ (t.bay b).shadow = planeOf (recOf (s.job n).image 1)
  bays : ∀ b, b ∉ (s.job n).bays → t.bay b = s.bay b
  trusses : (s.job n).plumb = false → ∀ b ∈ (s.job n).bays, (t.bent (b / 8)).last = none
  queues : (t.part (s.job n).part).queues = (s.part (s.job n).part).queues ∧ (t.part (s.job n).part).pointer = (s.part (s.job n).part).pointer

theorem placeSaved_placed {n : Nat} {s : State} (h : (s.job n).twin = none) : SavedPlaced s (placeSaved n s) n := by
  obtain ⟨hujob, huothers, hubays, huparts, hutrusses⟩ := reloadUnits_single h
  rw [placeSaved_eq]
  generalize reloadUnits n s = u at hujob huothers hubays huparts hutrusses ⊢
  rw [preloadCopies_single (by rw [hujob]; exact h), hujob]
  have hcode := preload_bay n (s.job n).bays u
  rw [hujob] at hcode
  have hubay : ∀ b, u.bay b = s.bay b := fun b => congrArg (Tab.get ({} : Bay) · b) hubays
  obtain ⟨y, hpreload⟩ := preload_rest n (s.job n).bays u
  dsimp only
  generalize preload n (s.job n).bays u = v at hcode hpreload ⊢
  obtain ⟨i, m, x, hring, hqueues, hpointer⟩ := v.frEvent_rest (s.job n).part 4 (s.job n).group (s.job n).jobid none
  have hpart : v.part (s.job n).part = s.part (s.job n).part := by
    rw [hpreload]
    exact congrArg (Tab.get {} · _) huparts
  generalize v.frEvent (s.job n).part 4 (s.job n).group (s.job n).jobid none = t at hring hqueues hpointer ⊢
  have hbay : ∀ b, t.bay b = v.bay b := fun b => by rw [hring]; rfl
  have hjob : ∀ k, t.job k = u.job k := fun k => by rw [hring, hpreload]; rfl
  have hbent : ∀ k, t.bent k = u.bent k := fun k => by rw [hring, hpreload]; rfl
  refine ⟨?_, fun m hm => (hjob m).trans (huothers m hm), fun b hb => ?_, fun b hb => ?_, ?_, by rw [hqueues, hpart], by rw [hpointer, hpart]⟩
  · rw [hjob, hujob]
    exact ⟨rfl, rfl⟩
  · rw [hbay, hcode, if_pos hb]
    exact ⟨rfl, rfl⟩
  · rw [hbay, hcode, if_neg hb, hubay]
  · simp only [hbent]; exact hutrusses

/-! ### Following a selection (R315, R451) -/

/-- The partition after a selection: the queues' deficits and the pointer. -/
def State.selected (s : State) (p : Nat) (qs : Tab LQueue) (ptr : Nat) : State := s.modPart p fun x => { x with queues := qs, pointer := ptr }

theorem State.selected_part (s : State) (p : Nat) (qs : Tab LQueue) (ptr : Nat) :
    (s.selected p qs ptr).part p = { s.part p with queues := qs, pointer := ptr } := State.setPart_part_same _ _ _

theorem State.selected_job (s : State) (p : Nat) (qs : Tab LQueue) (ptr n : Nat) : (s.selected p qs ptr).job n = s.job n := rfl

theorem State.selected_groupBays (s : State) (j : Job) (qs : Tab LQueue) (ptr : Nat) : (s.selected j.part qs ptr).groupBays j = s.groupBays j := by
  funext g
  rw [State.groupBays, State.selected_part]
  rfl

section
variable {s : State} {p n : Nat} (g : Nat) (h : Option Nat) (qs : Tab LQueue) (ptr : Nat)

theorem followSelect_saved (hstate : (s.job n).state = .saved) : followSelect p n g h qs ptr s = placeSaved n (s.selected p qs ptr) :=
  if_pos (by rw [hstate]; rfl)

theorem followSelect_ready (hstate : (s.job n).state = .ready) : followSelect p n g h qs ptr s =
    if s.variantCode (s.job n) ≠ 0 then leave n 1 0 (s.variantCode (s.job n)) (s.selected p qs ptr) else placeReady n g h (s.selected p qs ptr) :=
  if_neg (by rw [hstate]; exact Bool.false_ne_true)

/-- What the round robin notes of its queues does not matter to a job's end. -/
theorem Left.of_selected {t : State} {status cause code : Nat} (hleft : Left (s.selected p qs ptr) t n status cause code) : Left s t n status cause code := by
  have hmsix : ((s.selected p qs ptr).part (s.job n).part).msix = (s.part (s.job n).part).msix := by
    rw [State.selected, State.modPart, State.setPart_part]
    split
    case isTrue hp => rw [hp]
    case isFalse => rfl
  obtain ⟨hentry, hrecord, htold, hhistory, hbays, hlaths, hothers, hmem⟩ := hleft
  exact ⟨hentry, hrecord, hmsix ▸ htold, hhistory, hbays, hlaths, hothers, hmem⟩

end

/-- Settles O46: the round robin stops at an eligible job that has a place, and each step of the placement keeps what the steps before it set. -/
theorem jobPlacement : Obligations.JobPlacement := by
  unfold Obligations.JobPlacement
  intro s p n g h qs ptr hsel
  dsimp only
  have hexec : (s.framerUp = true ∧ (s.part p).up = true ∧ s.isFrozen p = false ∧ (s.part p).det = false ∧ (s.part p).logMode = 0 ∧ (s.job n).part = p) →
      exec (.selection p) s = .next (followSelect p n g h qs ptr s) := fun ⟨hup, hpart, hfrozen, hdet, hlog, _⟩ =>
    congrArg Host.Outcome.next (selection_place hsel hup hpart hfrozen hdet hlog)
  refine ⟨?_, fun hgoes hstate hcode => ?_, fun hgoes hstate hcode => ?_, fun hgoes hstate htwin => ?_⟩
  · obtain ⟨i, hmem, htop, hplace⟩ := select_place hsel
    refine ⟨i, hmem, htop, fun hready => ?_⟩
    exact State.fit_lowest ((State.placeFor_ready hready).symm.trans hplace)
  · have ht := (hexec hgoes).trans (congrArg Host.Outcome.next (followSelect_ready g h qs ptr hstate))
    rw [if_neg (not_not_intro hcode)] at ht
    obtain ⟨-, -, -, -, -, rfl⟩ := hgoes
    obtain ⟨⟨⟨e, l, hjob⟩, htwin, hothers⟩, hown, hmirror, hbays, hlaths, htrusses, hqueues, hpointer⟩ :=
      placeReady_placed n g h (s.selected (s.job n).part qs ptr)
    simp only [State.placedJob, State.twinBays, State.selected_job, State.selected_groupBays] at hjob htwin hown hmirror hbays htrusses
    have hpart := s.selected_part (s.job n).part qs ptr
    refine ⟨_, ht, by rw [hjob], by rw [hjob], by rw [hjob]; rfl, by rw [hjob], by rw [hjob]; rfl, fun hpaired => ?_, hothers, hown, hmirror, hbays,
      hlaths, fun hplumb b hb => htrusses hplumb b (List.mem_append.mpr hb), hqueues.trans (congrArg Part.queues hpart), hpointer.trans (congrArg Part.pointer hpart)⟩
    obtain ⟨k, rfl⟩ := Option.ne_none_iff_exists'.mp hpaired
    obtain ⟨htwinBays, hback, -⟩ := htwin k rfl
    exact ⟨by rw [hjob]; rfl, htwinBays, hback⟩
  · have ht := (hexec hgoes).trans (congrArg Host.Outcome.next (followSelect_ready g h qs ptr hstate))
    rw [if_pos hcode] at ht
    exact ⟨_, ht, (leave_left n 1 0 _ _).of_selected qs ptr⟩
  · have ht := (hexec hgoes).trans (congrArg Host.Outcome.next (followSelect_saved g h qs ptr hstate))
    obtain ⟨-, -, -, -, -, rfl⟩ := hgoes
    obtain ⟨⟨hload, hkept⟩, hothers, hown, hbays, htrusses, hqueues, hpointer⟩ := placeSaved_placed (s := s.selected (s.job n).part qs ptr) htwin
    have hpart := s.selected_part (s.job n).part qs ptr
    exact ⟨_, ht, hload, hkept, hown, hbays, htrusses, hothers, hqueues.trans (congrArg Part.queues hpart), hpointer.trans (congrArg Part.pointer hpart)⟩

end Sys2Proof.Machine
end

section
/-! The engine streams' beginning and end (R296 to R300): SPAWN, JOIN, HALT and VEND, the line fetch (R295), and the end of a section. -/

namespace Sys2Proof.Machine

/-! ### Registers and loops of a started stream (R298) -/

theorem copyRegs_get (r : Tab Word) (j : Nat) : ∀ (n : Nat) (k : Tab Word), Tab.get 0 (copyRegs r n k) j = if j < n then Tab.get 0 r (8 + j) else Tab.get 0 k j
  | 0, k => by rw [copyRegs, if_neg (Nat.not_lt_zero j)]
  | n + 1, k => by
    rw [copyRegs, copyRegs_get r j n, Tab.get_set]
    by_cases hlt : j < n
    · rw [if_pos hlt, if_pos (Nat.lt_succ_of_lt hlt)]
    · by_cases heq : j = n
      · rw [if_neg hlt, if_pos heq, if_pos (by omega), heq]
      · rw [if_neg hlt, if_neg heq, if_neg (by omega)]

theorem endLoops_inactive (lc : Tab Loop) (j : Nat) : (Tab.get {} (endLoops lc) j).active = false := by
  rw [endLoops, Tab.get_map (f := fun _ (l : Loop) => { l with active := false }) rfl]

theorem mem_engines_of_mask {m : BitVec 4} {e : Eng} (he : e ∈ maskEngines m) : e ∈ engines := List.mem_of_mem_filter he

/-! ### What SPAWN changes of a bay (R298) -/

/-- The bay differs in its engine streams, in what their halts and reservations leave, in VSHAPE and in the dirty bits alone. -/
def Bay.StreamsMove (y z : Bay) : Prop :=
  ∃ v m l w vshape tHalt rsv dirty, z = { y with v := v, m := m, l := l, w := w, vshape := vshape, tHalt := tHalt, rsv := rsv, dirty := dirty }

theorem Bay.StreamsMove.trans {x y z : Bay} (hxy : x.StreamsMove y) (hyz : y.StreamsMove z) : x.StreamsMove z := by
  obtain ⟨v, m, l, w, vshape, tHalt, rsv, dirty, rfl⟩ := hxy
  obtain ⟨v', m', l', w', vshape', tHalt', rsv', dirty', rfl⟩ := hyz
  exact ⟨_, _, _, _, _, _, _, _, rfl⟩

/-- The bay differs in its engine streams and in their reservations alone. -/
def Bay.KeptReturned (y z : Bay) : Prop := ∃ v m l w rsv, z = { y with v := v, m := m, l := l, w := w, rsv := rsv }

theorem Bay.KeptReturned.trans {x y z : Bay} (hxy : x.KeptReturned y) (hyz : y.KeptReturned z) : x.KeptReturned z := by
  obtain ⟨v, m, l, w, rsv, rfl⟩ := hxy
  obtain ⟨v', m', l', w', rsv', rfl⟩ := hyz
  exact ⟨_, _, _, _, _, rfl⟩

theorem Bay.KeptReturned.streamsMove {y z : Bay} (h : y.KeptReturned z) : y.StreamsMove z := by
  obtain ⟨v, m, l, w, rsv, rfl⟩ := h
  exact ⟨v, m, l, w, _, _, rsv, _, rfl⟩

theorem Bay.dropKept_returned (y : Bay) (e : Eng) : y.KeptReturned (y.dropKept e) := by
  unfold Bay.dropKept
  rw [Bay.returnDeferred_eta]
  cases e <;> exact ⟨_, _, _, _, _, rfl⟩

theorem Bay.dropKept_stream_ne (y : Bay) {e f : Eng} (h : f ≠ e) : (y.dropKept e).stream f = y.stream f := by
  unfold Bay.dropKept
  dsimp only
  rw [Bay.setStream_stream_ne _ _ h, Bay.returnDeferred_eta]
  cases f <;> rfl

/-- The bay differs in its dirty bits alone. -/
def Bay.MarksOnly (y z : Bay) : Prop := ∃ d, z = { y with dirty := d }

theorem Bay.MarksOnly.mark {y z : Bay} (h : y.MarksOnly z) (i : Nat) : y.MarksOnly (z.mark i) := by
  obtain ⟨d, rfl⟩ := h
  exact ⟨_, rfl⟩

theorem Bay.MarksOnly.markLoops {y z : Bay} (h : y.MarksOnly z) (e : Eng) (old new : Tab Loop) : y.MarksOnly (z.markLoops e old new) := by
  obtain ⟨d, rfl⟩ := h
  rw [Bay.markLoops_eq]
  exact ⟨_, rfl⟩

theorem Bay.marksOnly_spawnMarks (y : Bay) (e : Eng) : y.MarksOnly (y.spawnMarks e) := by
  have hregs : y.MarksOnly ((List.range 8).foldl (fun y j => y.mark (112 + e.idx * 8 + j)) y) :=
    List.foldlRecOn (motive := y.MarksOnly) _ _ ⟨_, rfl⟩ fun _ h _ _ => h.mark _
  have hmarks := ((hregs.mark markFlags).mark markTrap).mark markPc
  unfold Bay.spawnMarks
  dsimp only
  split
  · exact hmarks.mark 232
  · exact hmarks

/-- The rest of SPAWN in the bay, for engine `e`, once the engine has given back what it kept. -/
def Bay.startEngine (y : Bay) (fnum clock : Nat) (e : Eng) : Bay :=
  let x := (y.stream e).start y.s (y.sect e).1 fnum clock
  let z := { y.setStream e x with tHalt := y.tHalt &&& ~~~ BitVec.ofNat 4 (2 ^ e.idx) }
  ((if e = .V then { z with vshape := 0x13 } else z).spawnMarks e).markLoops e (y.stream e).lc x.lc

theorem Bay.spawn_eq (y : Bay) (fnum clock : Nat) (e : Eng) : y.spawn fnum clock e = (y.dropKept e).startEngine fnum clock e := rfl

theorem Bay.startEngine_eq (y : Bay) (fnum clock : Nat) (e : Eng) : ∃ d, y.startEngine fnum clock e =
    { y.setStream e ((y.stream e).start y.s (y.sect e).1 fnum clock) with
        vshape := if e = .V then 0x13 else y.vshape, tHalt := y.tHalt &&& ~~~ BitVec.ofNat 4 (2 ^ e.idx), dirty := d } := by
  refine ((Bay.marksOnly_spawnMarks _ e).markLoops e _ _).imp fun d hd => hd.trans ?_
  cases e <;> rfl

theorem Bay.startEngine_streamsMove (y : Bay) (fnum clock : Nat) (e : Eng) : y.StreamsMove (y.startEngine fnum clock e) := by
  obtain ⟨d, hd⟩ := y.startEngine_eq fnum clock e
  rw [hd]
  cases e <;> exact ⟨_, _, _, _, _, _, _, _, rfl⟩

theorem Bay.startEngine_stream_same (y : Bay) (fnum clock : Nat) {e : Eng} (he : e ∈ engines) :
    (y.startEngine fnum clock e).stream e = (y.stream e).start y.s (y.sect e).1 fnum clock := by
  rw [← Bay.setStream_stream_same y ((y.stream e).start y.s (y.sect e).1 fnum clock) e he]
  obtain ⟨d, hd⟩ := y.startEngine_eq fnum clock e
  rw [hd]
  cases e <;> rfl

theorem Bay.startEngine_stream_ne (y : Bay) (fnum clock : Nat) {e f : Eng} (h : f ≠ e) : (y.startEngine fnum clock e).stream f = y.stream f := by
  rw [← Bay.setStream_stream_ne y ((y.stream e).start y.s (y.sect e).1 fnum clock) h]
  obtain ⟨d, hd⟩ := y.startEngine_eq fnum clock e
  rw [hd]
  cases f <;> rfl

theorem Bay.startEngine_vshape (y : Bay) (fnum clock : Nat) (e : Eng) : (y.startEngine fnum clock e).vshape = if e = .V then 0x13 else y.vshape := by
  obtain ⟨d, hd⟩ := y.startEngine_eq fnum clock e
  rw [hd]

theorem Bay.spawn_streamsMove (y : Bay) (fnum clock : Nat) (e : Eng) : y.StreamsMove (y.spawn fnum clock e) :=
  (y.dropKept_returned e).streamsMove.trans ((y.dropKept e).startEngine_streamsMove fnum clock e)

theorem Bay.spawn_stream_ne (y : Bay) (fnum clock : Nat) {e f : Eng} (h : f ≠ e) : (y.spawn fnum clock e).stream f = y.stream f := by
  rw [Bay.spawn_eq, Bay.startEngine_stream_ne _ _ _ h, Bay.dropKept_stream_ne _ h]

theorem Bay.spawn_vshape (y : Bay) (fnum clock : Nat) (e : Eng) : (y.spawn fnum clock e).vshape = if e = .V then 0x13 else y.vshape := by
  obtain ⟨v, m, l, w, rsv, hdrop⟩ := y.dropKept_returned e
  rw [Bay.spawn_eq, Bay.startEngine_vshape, hdrop]

/-- The stream of engine `e` stands as SPAWN starts it in bay `y`: at the start of its section, with s8 to s15 in its k registers, and in no loop. -/
def Stream.StartedIn (x : Stream) (y : Bay) (e : Eng) : Prop :=
  x.run = true ∧ x.spwn = true ∧ x.flags = 0 ∧ x.pc = BitVec.ofNat 16 (y.sect e).1 ∧ (∀ j, (Tab.get {} x.lc j).active = false) ∧ x.ordinal = 0 ∧
    ∀ j, j < 8 → Tab.get 0 x.k j = Tab.get 0 y.s (8 + j)

theorem Stream.start_startedIn (x : Stream) (y : Bay) (fnum clock : Nat) (e : Eng) : (x.start y.s (y.sect e).1 fnum clock).StartedIn y e :=
  ⟨rfl, rfl, rfl, rfl, endLoops_inactive _, rfl, fun _ hj => (copyRegs_get _ _ _ _).trans (if_pos hj)⟩

theorem Stream.StartedIn.of_streamsMove {x : Stream} {y z : Bay} {e : Eng} (h : x.StartedIn z e) (hmove : y.StreamsMove z) : x.StartedIn y e := by
  obtain ⟨v, m, l, w, vshape, tHalt, rsv, dirty, rfl⟩ := hmove
  exact h

theorem Bay.spawn_started (y : Bay) (fnum clock : Nat) {e : Eng} (he : e ∈ engines) : ((y.spawn fnum clock e).stream e).StartedIn y e := by
  rw [Bay.spawn_eq, Bay.startEngine_stream_same _ _ _ he]
  exact (Stream.start_startedIn _ _ fnum clock e).of_streamsMove (y.dropKept_returned e).streamsMove

/-- The bay in which SPAWN has started the engines `l`. -/
def Bay.spawnAll (y : Bay) (fnum clock : Nat) (l : List Eng) : Bay := l.foldl (fun y e => y.spawn fnum clock e) y

theorem Bay.spawnAll_streamsMove (fnum clock : Nat) : ∀ (l : List Eng) (y : Bay), y.StreamsMove (y.spawnAll fnum clock l)
  | [], _ => ⟨_, _, _, _, _, _, _, _, rfl⟩
  | e :: l, y => (y.spawn_streamsMove fnum clock e).trans (Bay.spawnAll_streamsMove fnum clock l _)

theorem Bay.spawnAll_stream_ne (fnum clock : Nat) {f : Eng} : ∀ {l : List Eng} (y : Bay), f ∉ l → (y.spawnAll fnum clock l).stream f = y.stream f
  | [], _, _ => rfl
  | e :: l, y, h => by
    obtain ⟨hne, hl⟩ := not_or.mp (List.mem_cons.not.mp h)
    exact (Bay.spawnAll_stream_ne fnum clock (y.spawn fnum clock e) hl).trans (y.spawn_stream_ne fnum clock hne)

/-- Each engine of the list is started from the bay's own registers and sections, which no start changes. -/
theorem Bay.spawnAll_started (fnum clock : Nat) {f : Eng} (hf : f ∈ engines) : ∀ {l : List Eng} (y : Bay), f ∈ l →
    ((y.spawnAll fnum clock l).stream f).StartedIn y f
  | [], _, h => absurd h List.not_mem_nil
  | e :: l, y, h => by
    change (((y.spawn fnum clock e).spawnAll fnum clock l).stream f).StartedIn y f
    by_cases hl : f ∈ l
    · exact (Bay.spawnAll_started fnum clock hf (y.spawn fnum clock e) hl).of_streamsMove (y.spawn_streamsMove fnum clock e)
    · obtain rfl : f = e := (List.mem_cons.mp h).resolve_right hl
      rw [Bay.spawnAll_stream_ne fnum clock _ hl]
      exact y.spawn_started fnum clock hf

theorem Bay.spawnAll_vshape (fnum clock : Nat) : ∀ (l : List Eng) (y : Bay), (y.spawnAll fnum clock l).vshape = if Eng.V ∈ l then 0x13 else y.vshape
  | [], _ => rfl
  | e :: l, y => by
    refine (Bay.spawnAll_vshape fnum clock l (y.spawn fnum clock e)).trans ?_
    rw [Bay.spawn_vshape]
    by_cases hV : e = .V
    · rw [if_pos hV, ite_self, if_pos (by rw [hV]; exact List.mem_cons_self)]
    · simp only [List.mem_cons, Ne.symm hV, false_or, if_neg hV]

/-! ### SPAWN (R298) -/

section
variable {s : State} {b : Nat} {m : BitVec 4} (hc : s.cur = .stream b .S)

/-- A state in which SPAWN has started the engines of its mask. -/
def State.spawnAll (s : State) (b : Nat) (m : BitVec 4) : State :=
  s.modBay b fun y => y.spawnAll (s.part (s.bay b).partNo).fnum.toNat s.clock (maskEngines m)

theorem spawn_sections (hm : m ≠ 0) (h : ∀ e ∈ maskEngines m, ((s.bay b).sect e).2 ≠ 0) :
    (m != 0 && (maskEngines m).all fun e => ((s.bay b).sect e).2 != 0) = true := by
  rw [bne_iff_ne.mpr hm, Bool.true_and, List.all_eq_true]
  exact fun e he => bne_iff_ne.mpr (h e he)

theorem spawnCore_starts (hm : m ≠ 0)
    (h : ∀ e ∈ maskEngines m, ((s.bay b).sect e).2 ≠ 0 ∧ ((s.bay b).stream e).run = false ∧ (s.bay b).tPend.getLsbD e.idx = false) :
    spawnCore b m s = .ok (s.spawnAll b m).retire := by
  have hfull := spawn_sections hm fun e he => (h e he).1
  have hidle : (!(maskEngines m).any fun e => ((s.bay b).stream e).run || (s.bay b).tPend.toNat.testBit e.idx) = true := by
    rw [Bool.not_eq_true', List.any_eq_false]
    intro e he
    obtain ⟨-, hrun, hpend⟩ := h e he
    rw [hrun, show (s.bay b).tPend.toNat.testBit e.idx = false from hpend]
    exact Bool.false_ne_true
  simp only [spawnCore, hfull, hidle, guardE_true, bind, Except.bind]
  rfl

theorem spawnCore_empty : spawnCore b 0 s = .error (trapC 0x02) := rfl

theorem spawnCore_busy (hbusy : ∃ e ∈ maskEngines m, ((s.bay b).stream e).run = true ∨ (s.bay b).tPend.getLsbD e.idx = true)
    (hsect : ∀ e ∈ maskEngines m, ((s.bay b).sect e).2 ≠ 0) : spawnCore b m s = .error (trapC 0x64) := by
  obtain ⟨e, he, hrun⟩ := hbusy
  have hm : m ≠ 0 := by
    rintro rfl
    exact absurd he List.not_mem_nil
  have hfull := spawn_sections hm hsect
  have hany : ((maskEngines m).any fun e => ((s.bay b).stream e).run || (s.bay b).tPend.toNat.testBit e.idx) = true :=
    List.any_eq_true.mpr ⟨e, he, Bool.or_eq_true_iff.mpr hrun⟩
  simp only [spawnCore, hfull, hany, Bool.not_true, guardE_true, guardE_false, bind, Except.bind]

include hc

theorem exec_spawn : exec (.spawn m) s = s.finish (spawnCore b m s) := State.onSeq_eq hc fun b => spawnCore b m s

theorem spawn_starts (hm : m ≠ 0)
    (h : ∀ e ∈ maskEngines m, ((s.bay b).sect e).2 ≠ 0 ∧ ((s.bay b).stream e).run = false ∧ (s.bay b).tPend.getLsbD e.idx = false) :
    ∃ t, exec (.spawn m) s = .next t ∧ (∀ e ∈ maskEngines m, ((t.bay b).stream e).StartedIn (s.bay b) e) ∧
      (∀ e ∈ engines, e ∉ maskEngines m → (t.bay b).stream e = (s.bay b).stream e) ∧
      (t.bay b).vshape = (if Eng.V ∈ maskEngines m then 0x13 else (s.bay b).vshape) ∧ t.pc = s.pc + 4 ∧ (∀ r, t.readS r = s.readS r) ∧ SameMem s t ∧
      OnlyBay s t b (fun y z => seqMoves { y with v := z.v, m := z.m, l := z.l, w := z.w, vshape := z.vshape, tHalt := z.tHalt, rsv := z.rsv } z) := by
  obtain ⟨v, u, l, w, vshape, tHalt, rsv, dirty, hmove⟩ :=
    Bay.spawnAll_streamsMove (s.part (s.bay b).partNo).fnum.toNat s.clock (maskEngines m) (s.bay b)
  obtain ⟨hbay, hpc, hregs, hmem⟩ := modBay_retire_spec
    (f := fun y => y.spawnAll (s.part (s.bay b).partNo).fnum.toNat s.clock (maskEngines m)) hc (by rw [hmove]) (by rw [hmove])
  have hstream : ∀ e, ((s.spawnAll b m).retire.bay b).stream e =
      ((s.bay b).spawnAll (s.part (s.bay b).partNo).fnum.toNat s.clock (maskEngines m)).stream e := fun e => by
    rw [State.spawnAll, hbay]
    cases e <;> rfl
  refine ⟨_, (exec_spawn hc).trans (congrArg s.finish (spawnCore_starts hm h)), fun e he => ?_, fun e _ he => ?_, ?_, hpc, hregs, hmem, ?_⟩
  · rw [hstream]
    exact Bay.spawnAll_started _ _ (mem_engines_of_mask he) _ he
  · rw [hstream, Bay.spawnAll_stream_ne _ _ _ he]
  · rw [← Bay.spawnAll_vshape (s.part (s.bay b).partNo).fnum.toNat s.clock, State.spawnAll, hbay]
    rfl
  · rw [State.spawnAll, State.modBay_retire_seq hc (by rw [hmove])]
    refine onlyBay_modBay ?_
    rw [hmove]
    rfl

end

/-! ### JOIN (R299) -/

/-- What JOIN changes of the bay. -/
theorem Bay.unspawn_eq (y : Bay) : ∃ v m l w rsv dirty,
    y.unspawn = { y with v := v, m := m, l := l, w := w, tHalt := 0, rsv := rsv, dirty := dirty } := by
  have hdrops := (((y.dropKept_returned .V).trans (Bay.dropKept_returned _ .M)).trans (Bay.dropKept_returned _ .L)).trans (Bay.dropKept_returned _ .W)
  obtain ⟨v, m, l, w, rsv, hdrops⟩ := hdrops
  rw [Bay.unspawn, hdrops]
  exact ⟨_, _, _, _, _, _, rfl⟩

section
variable {s : State} {b : Nat}

theorem joinCore_runs (hrun : (s.bay b).running = true) (hspawned : (s.bay b).spawned = true) : joinCore b s = .error .wait := by
  simp only [joinCore, hrun, hspawned, Bool.not_true, Bool.or_self, guardE_false, bind, Except.bind]

theorem joinCore_writes (hrun : (s.bay b).running = false) (h : ∃ e ∈ engines, ((s.bay b).stream e).spwn = true ∧ s.landed b e = false) :
    joinCore b s = .error .wait := by
  have hall : ([Eng.V, .M, .L, .W].all fun e => !((s.bay b).stream e).spwn || s.landed b e) = false := by
    obtain ⟨e, he, hspwn, hlanded⟩ := h
    exact List.all_eq_false.mpr ⟨e, he, by simp [hspwn, hlanded]⟩
  simp only [joinCore, hrun, hall, Bool.not_false, Bool.or_true, guardE_true, guardE_false, bind, Except.bind]

theorem joinCore_frees (hrun : (s.bay b).running = false) (h : ∀ e ∈ engines, ((s.bay b).stream e).spwn = true → s.landed b e = true) :
    joinCore b s = .ok (s.modBay b Bay.unspawn).retire := by
  have hall : ([Eng.V, .M, .L, .W].all fun e => !((s.bay b).stream e).spwn || s.landed b e) = true := by
    refine List.all_eq_true.mpr fun e he => ?_
    rw [Bool.or_eq_true, Bool.not_eq_true', ← Bool.not_eq_true]
    exact not_or_of_imp (h e he)
  simp only [joinCore, hrun, hall, Bool.not_false, Bool.or_true, guardE_true, bind, Except.bind]
  rfl

variable (hc : s.cur = .stream b .S)
include hc

theorem exec_join : exec .join s = s.finish (joinCore b s) := State.onSeq_eq hc _

theorem join_frees (hrun : (s.bay b).running = false) (h : ∀ e ∈ engines, ((s.bay b).stream e).spwn = true → s.landed b e = true) :
    ∃ t, exec .join s = .next t ∧ (t.bay b).spawned = false ∧ (t.bay b).tHalt = 0 ∧ t.pc = s.pc + 4 ∧ (∀ r, t.readS r = s.readS r) ∧ SameMem s t ∧
      OnlyBay s t b (fun y z => seqMoves { y with v := z.v, m := z.m, l := z.l, w := z.w, tHalt := z.tHalt, rsv := z.rsv } z) := by
  obtain ⟨v, m, l, w, rsv, dirty, hrest⟩ := (s.bay b).unspawn_eq
  obtain ⟨hbay, hpc, hregs, hmem⟩ := modBay_retire_spec (f := Bay.unspawn) hc (by rw [hrest]) (by rw [hrest])
  refine ⟨_, (exec_join hc).trans (congrArg s.finish (joinCore_frees hrun h)), ?_, ?_, hpc, hregs, hmem, ?_⟩
  · rw [hbay]
    rfl
  · rw [hbay]
    rfl
  · rw [State.modBay_retire_seq hc (by rw [hrest])]
    refine onlyBay_modBay ?_
    rw [hrest]
    rfl

/-! ### HALT (R300) -/

theorem exec_halt : exec .halt s = s.finish (haltCore b s) := State.onSeq_eq hc _

omit hc

theorem haltCore_runs (hrun : (s.bay b).running = true) : haltCore b s = .error .wait := by
  simp only [haltCore, hrun, Bool.not_true, guardE_false, bind, Except.bind]

theorem haltCore_halts (hrun : (s.bay b).running = false) (hquiet : s.quiet b = true) :
    haltCore b s = .ok ((s.modBay b fun y => y.stopAt s.clock).noteArrival (s.bay b).slotNo) := by
  simp only [haltCore, hrun, hquiet, Bool.not_false, guardE_true, bind, Except.bind]
  rfl

include hc

theorem halt_ends (hrun : (s.bay b).running = false) (hquiet : s.quiet b = true) :
    ∃ t, exec .halt s = .next t ∧ t.bay b = (s.bay b).stopAt s.clock ∧ SameMem s t ∧ (∀ n, n ≠ b → t.bay n = s.bay n) ∧
      t = { s with bays := t.bays, laths := t.laths } := by
  have hrest := (s.modBay b fun y => y.stopAt s.clock).noteArrival_rest (s.bay b).slotNo
  refine ⟨_, (exec_halt hc).trans (congrArg s.finish (haltCore_halts hrun hquiet)), ?_, fun a => ?_, fun n hn => ?_, by rw [hrest]; rfl⟩
  · rw [hrest]
    exact State.modBay_bay_same s b fun y => y.stopAt s.clock
  · rw [hrest]
    rfl
  · rw [hrest]
    exact State.modBay_bay_ne s b (fun y => y.stopAt s.clock) hn

end

theorem Bay.stopAt_unspawned (y : Bay) (clock : Nat) : ∀ e ∈ engines, ((y.stopAt clock).stream e).spwn = false := by
  simp [engines, Bay.stopAt, Bay.stop, Bay.stream]

theorem Bay.stopAt_unbound (y : Bay) (clock : Nat) {k : Nat} {e : Endpoint} (h : (k, e) ∈ (y.stopAt clock).chan) : e.bnd = false := by
  obtain ⟨⟨n, x⟩, -, hx⟩ := List.mem_map.mp h
  rw [← (Prod.mk.inj hx).2]
  rfl

/-! ### VEND (R175, R296) -/

/-- A bay whose V stream has ended. -/
def Bay.vecEnds (y : Bay) : Bay :=
  (({ y with v := { y.v with run := false, lc := endLoops y.v.lc } } : Bay).markLoops .V y.v.lc (endLoops y.v.lc)).event evEnd

theorem Bay.vecEnds_eq (y : Bay) :
    y.vecEnds = { y with v := { y.v with run := false, lc := endLoops y.v.lc }, evpend := y.evpend ||| 1, dirty := y.vecEnds.dirty } := by
  unfold Bay.vecEnds
  rw [Bay.markLoops_eq]
  rfl

theorem exec_vend {s : State} {b : Nat} (hc : s.cur = .stream b .V) : exec .vend s = .next (s.modBay b fun y => (y.vecNext (s.pc + 4)).vecEnds) := by
  have hcore : vendCore b s = s.modBay b fun y => (y.vecNext (s.pc + 4)).vecEnds := by
    rw [vendCore, State.retireV_stream hc]
    exact State.modBay_modBay _ _ _ _
  exact (State.onVec_eq hc fun b => .ok (vendCore b s)).trans (congrArg Host.Outcome.next hcore)

theorem vend_ends {s : State} {b : Nat} (hc : s.cur = .stream b .V) :
    ∃ t, exec .vend s = .next t ∧ (t.bay b).v.run = false ∧ (t.bay b).evpend = (s.bay b).evpend ||| 1 ∧
      (∀ j, (Tab.get {} (t.bay b).v.lc j).active = false) ∧ SameMem s t ∧
      OnlyBay s t b (fun y z => vecMoves { y with evpend := z.evpend, v := { y.v with run := false, lc := z.v.lc } } z) := by
  have hbay := State.modBay_bay_same s b fun y => (y.vecNext (s.pc + 4)).vecEnds
  rw [Bay.vecEnds_eq] at hbay
  refine ⟨_, exec_vend hc, by rw [hbay], by rw [hbay]; rfl, fun j => ?_, fun _ => rfl, onlyBay_modBay ?_⟩
  · rw [hbay]
    exact endLoops_inactive _ j
  · rw [Bay.vecEnds_eq]
    rfl

/-! ### The line fetch (R295) -/

/-- The bay with `n` bytes fetched beyond the program counter of stream `e`. -/
def Bay.withFetched (y : Bay) (e : Eng) (n : Nat) : Bay := if e = .S then { y with fetched := n } else y.setStream e { y.stream e with fetched := n }

theorem Bay.withFetched_fetchedOf_same (y : Bay) (e : Eng) (n : Nat) : (y.withFetched e n).fetchedOf e = n := by
  cases e <;> rfl

theorem Bay.withFetched_fetchedOf_ne (y : Bay) {e f : Eng} (h : f ≠ e) (n : Nat) : (y.withFetched e n).fetchedOf f = y.fetchedOf f := by
  unfold Bay.fetchedOf Bay.withFetched
  cases e <;> simp only [reduceCtorEq, if_true, if_false, Bay.setStream_stream_ne _ _ h]
  case S => rw [if_neg h, if_neg h]; cases f <;> rfl
  all_goals rfl

theorem Bay.withFetched_pcs (y : Bay) (e : Eng) (n : Nat) :
    (y.withFetched e n).pc = y.pc ∧ ∀ f, ((y.withFetched e n).stream f).pc = (y.stream f).pc := by
  refine ⟨by cases e <;> rfl, fun f => ?_⟩
  cases e <;> cases f <;> rfl

/-- Where the fetch of a stream goes on: at its program counter and beyond what it has fetched. -/
theorem Bay.fetchPc_eq (y : Bay) (e : Eng) : y.fetchPc e = (if e = .S then y.pc.toNat else (y.stream e).pc.toNat) + y.fetchedOf e := by
  unfold Bay.fetchPc Bay.fetchedOf
  split <;> rfl

theorem Bay.withFetched_fetchPc (y : Bay) (e : Eng) (k : Nat) : (y.withFetched e (y.fetchedOf e + k)).fetchPc e = y.fetchPc e + k := by
  obtain ⟨hpc, hpcs⟩ := y.withFetched_pcs e (y.fetchedOf e + k)
  rw [Bay.fetchPc_eq, hpc, hpcs, Bay.withFetched_fetchedOf_same, Bay.fetchPc_eq, Nat.add_assoc]

/-- The end of the 64-byte line that a stream fetches next, or of its section. -/
def Bay.lineEnd (y : Bay) (e : Eng) : Nat := min ((y.fetchPc e / 64 + 1) * 64) ((y.sect e).1 + (y.sect e).2)

theorem Bay.fetchPc_le_lineEnd {y : Bay} {e : Eng} (h : y.wantsLine e = true) : y.fetchPc e ≤ y.lineEnd e := by
  simp only [Bay.wantsLine, Bool.and_eq_true, decide_eq_true_eq] at h
  obtain ⟨⟨-, hmore⟩, -⟩ := h
  exact Nat.le_min.mpr ⟨by omega, hmore.le⟩

/-- A bay in which stream `e` has fetched a line. -/
def Bay.fetchesLine (y : Bay) (e : Eng) : Bay :=
  { y.withFetched e (y.fetchedOf e + (y.lineEnd e - y.fetchPc e)) with fetchNext := (e.code + 1) % 5 }

theorem Bay.fetchesLine_fetchPc {y : Bay} {e : Eng} (h : y.wantsLine e = true) : (y.fetchesLine e).fetchPc e = y.lineEnd e := by
  have hturn : (y.fetchesLine e).fetchPc e = (y.withFetched e (y.fetchedOf e + (y.lineEnd e - y.fetchPc e))).fetchPc e := by cases e <;> rfl
  rw [hturn, Bay.withFetched_fetchPc, Nat.add_sub_of_le (Bay.fetchPc_le_lineEnd h)]

theorem Bay.fetchesLine_fetchedOf_ne (y : Bay) {e f : Eng} (h : f ≠ e) : (y.fetchesLine e).fetchedOf f = y.fetchedOf f := by
  rw [← y.withFetched_fetchedOf_ne h (y.fetchedOf e + (y.lineEnd e - y.fetchPc e))]
  cases f <;> rfl

theorem Bay.fetchesLine_pcs (y : Bay) (e : Eng) : (y.fetchesLine e).pc = y.pc ∧ ∀ f, ((y.fetchesLine e).stream f).pc = (y.stream f).pc := by
  obtain ⟨hpc, hpcs⟩ := y.withFetched_pcs e (y.fetchedOf e + (y.lineEnd e - y.fetchPc e))
  refine ⟨hpc, fun f => ?_⟩
  rw [← hpcs f]
  cases f <;> rfl

theorem codeFetch_fetches {s : State} {b : Nat} {e : Eng}
    (h : (portOrder.drop (s.bay b).fetchNext ++ portOrder.take (s.bay b).fetchNext).find? (s.bay b).wantsLine = some e) :
    codeFetch b s = s.modBay b fun y => y.fetchesLine e := by
  simp only [codeFetch, h]
  cases e <;> rfl

/-! ### The end of a section (R296) -/

/-- A bay whose stream `e` has ended. -/
def Bay.endsStream (y : Bay) (e : Eng) : Bay := (y.setStream e { y.stream e with run := false }).event evEnd

section
variable {s : State} {b : Nat} {e : Eng} (hend : (s.bay b).atEnd e = true) (hfrozen : (s.part (s.bay b).partNo).frozen = none)
include hend hfrozen

/-- The stream of a partition that is not frozen ends, when what its engine has in flight allows it. -/
theorem streamEnd_goes : ¬ (!(s.bay b).atEnd e || (s.part (s.bay b).partNo).frozen.isSome) = true := by
  rw [hend, hfrozen]
  exact Bool.false_ne_true

theorem streamEnd_unit (he : e = .L ∨ e = .W) (hfly : ((s.bay b).stream e).inflight = []) : streamEnd b e s = s.modBay b fun y => y.endsStream e := by
  have hgoes := streamEnd_goes hend hfrozen
  rcases he with rfl | rfl <;> exact (if_neg hgoes).trans (if_pos (List.isEmpty_iff.mpr hfly))

end

theorem streamEnd_matrix {s : State} {b : Nat} (hend : (s.bay b).atEnd .M = true) (hfrozen : (s.part (s.bay b).partNo).frozen = none)
    (hquiet : s.trussQuiet b = true) (hheld : (s.bay b).truss.held = false) : streamEnd b .M s = s.modBay b fun y => y.endsStream .M := by
  rw [streamEnd, if_neg (streamEnd_goes hend hfrozen)]
  dsimp only
  rw [hquiet, hheld]
  rfl

/-- What the end of a stream leaves. -/
theorem endsStream_leaves (s : State) (b : Nat) (e : Eng) : let t := s.modBay b fun y => y.endsStream e
    (t.bay b).evpend = (s.bay b).evpend ||| 1 ∧ SameMem s t ∧
      OnlyBay s t b (fun y z => { y.setStream e { y.stream e with run := false } with evpend := z.evpend, dirty := z.dirty }) := by
  refine ⟨?_, fun _ => rfl, onlyBay_modBay rfl⟩
  rw [State.modBay_bay_same]
  cases e <;> rfl

/-- Settles O28: SPAWN engine by engine, JOIN, HALT and VEND by what their cores leave of the bay, a line by what its stream has then fetched, and the end
of a section by the stream that it stops. -/
theorem streamWords : Obligations.StreamWords := by
  unfold Obligations.StreamWords
  constructor
  · intro s b m y es
    refine ⟨fun hc => ⟨spawn_starts hc, ?_, fun hbusy hsect => ?_, join_frees hc, fun hrun hspawned => ⟨?_, ?_⟩, fun hrun h => ?_, fun hrun hquiet => ?_⟩,
      vend_ends⟩
    · rintro rfl
      rw [exec_spawn hc, spawnCore_empty]
      rfl
    · rw [exec_spawn hc, spawnCore_busy hbusy hsect]
      rfl
    · exact setHold_waits hc false (by rw [exec_join hc, joinCore_runs hrun hspawned]; rfl)
    · exact setHold_waits hc false (by rw [exec_halt hc, haltCore_runs hrun]; rfl)
    · exact setHold_waits hc false (by rw [exec_join hc, joinCore_writes hrun h]; rfl)
    · obtain ⟨t, hi, hbay, hmem, hothers, hrest⟩ := halt_ends hc hrun hquiet
      refine ⟨t, hi, by rw [hbay]; rfl, by rw [hbay]; rfl, fun q => by rw [hbay]; exact ⟨rfl, rfl⟩, fun e he => ?_, fun k e h => ?_, hmem, hothers, hrest⟩
      · rw [hbay]
        exact Bay.stopAt_unspawned _ _ e he
      · rw [hbay] at h
        exact Bay.stopAt_unbound _ _ h
  · intro s b e y
    refine ⟨fun hfind => ?_, fun he hend hfrozen hfly => ?_, fun hend hfrozen hquiet hheld => ?_⟩
    · have hwants : y.wantsLine e = true := List.find?_some hfind
      have hbay := State.modBay_bay_same s b fun y => y.fetchesLine e
      obtain ⟨hpc, hpcs⟩ := y.fetchesLine_pcs e
      exact ⟨_, congrArg Host.Outcome.next (codeFetch_fetches hfind), by rw [hbay]; rfl, by rw [hbay]; exact Bay.fetchesLine_fetchPc hwants, fun _ => rfl,
        fun f hf => by rw [hbay]; exact y.fetchesLine_fetchedOf_ne hf, rfl, fun n hn => State.modBay_bay_ne _ _ _ hn, by rw [hbay]; exact hpc,
        fun f => by rw [hbay]; exact hpcs f⟩
    · have hengine : engOf e.idx = e := by rcases he with rfl | rfl <;> rfl
      refine ⟨_, ?_, endsStream_leaves s b e⟩
      rw [← streamEnd_unit hend hfrozen he hfly]
      exact congrArg (fun e => Host.Outcome.next (streamEnd b e s)) hengine
    · exact ⟨_, congrArg Host.Outcome.next (streamEnd_matrix hend hfrozen hquiet hheld), endsStream_leaves s b .M⟩

end Sys2Proof.Machine
end

section
/-! The channels between a bay's sequencer and the laths (R301 to R305): CHPUSH and CHPOP, the arrival of an element, and credits, audits and resyncs at an
out endpoint. -/

namespace Sys2Proof.Machine

/-! ### One endpoint of a bay -/

theorem Bay.ep_congr {y z : Bay} (h : y.chan = z.chan) (k : Nat) : y.ep k = z.ep k := by rw [Bay.ep, h, Bay.ep]

/-- The bay with `x` at endpoint `ch`. -/
def Bay.withEp (y : Bay) (ch : Nat) (x : Endpoint) : Bay := { y with chan := Tab.put y.chan ch x }

@[simp] theorem Bay.withEp_ep_same (y : Bay) (ch : Nat) (x : Endpoint) : (y.withEp ch x).ep ch = x := Tab.get_put_same _ _ _ _

theorem Bay.withEp_ep_ne (y : Bay) {ch k : Nat} (x : Endpoint) (h : k ≠ ch) : (y.withEp ch x).ep k = y.ep k := Tab.get_put_ne _ _ _ h

theorem Bay.withEp_withEp (y : Bay) (ch : Nat) (x z : Endpoint) : (y.withEp ch x).withEp ch z = y.withEp ch z := by
  simp only [Bay.withEp, Tab.put_put]

theorem State.modEp_eq (s : State) (b ch : Nat) (f : Endpoint → Endpoint) : s.modEp b ch f = s.modBay b fun y => y.withEp ch (f (y.ep ch)) := rfl

theorem State.modEp_modEp (s : State) (b ch : Nat) (f g : Endpoint → Endpoint) : (s.modEp b ch f).modEp b ch g = s.modEp b ch fun e => g (f e) := by
  rw [State.modEp_eq, State.modEp_eq, State.modBay_modBay]
  refine State.modBay_congr ?_
  dsimp only
  rw [Bay.withEp_ep_same, Bay.withEp_withEp]
  rfl

@[simp] theorem State.modEp_ep_same (s : State) (b ch : Nat) (f : Endpoint → Endpoint) : ((s.modEp b ch f).bay b).ep ch = f ((s.bay b).ep ch) := by
  rw [State.modEp_eq, State.modBay_bay_same, Bay.withEp_ep_same]

/-- Endpoint `ch` of bay `b` is `x`, and of the machine nothing else has changed but what `fb` takes from the bay. -/
def EpBecomes (s t : State) (b ch : Nat) (x : Endpoint) (fb : Bay → Bay → Bay) : Prop :=
  (t.bay b).ep ch = x ∧ (∀ k, k ≠ ch → (t.bay b).ep k = (s.bay b).ep k) ∧ SameMem s t ∧ OnlyBay s t b fb

theorem epBecomes_modBay {s : State} {b ch : Nat} {x : Endpoint} {f : Bay → Bay} {fb : Bay → Bay → Bay}
    (hchan : (f (s.bay b)).chan = ((s.bay b).withEp ch x).chan) (hrest : f (s.bay b) = fb (s.bay b) (f (s.bay b))) :
    EpBecomes s (s.modBay b f) b ch x fb := by
  have hep : ∀ k, ((s.modBay b f).bay b).ep k = ((s.bay b).withEp ch x).ep k := fun k => by
    rw [State.modBay_bay_same, Bay.ep_congr hchan]
  exact ⟨(hep ch).trans (Bay.withEp_ep_same _ _ _), fun k hk => (hep k).trans (Bay.withEp_ep_ne _ _ hk), fun _ => rfl, onlyBay_modBay hrest⟩

/-! ### CHPUSH (R302, R455) -/

/-- The end of a CHPUSH: the element leaves, and the word retires. -/
def chpushFinish (b ch : Nat) (wire : Bool) (v : Word) (s : State) : State := (s.modEp b ch fun e => e.send wire v).retire

section
variable {s : State} {b : Nat} {a d : BitVec 5} {c : BitVec 6} (hc : s.cur = .stream b .S)

/-- Whether an element of the bay's CHPUSH goes to the lath: of a paired job that of the primary (R455). -/
def State.pushesWire (s : State) (b : Nat) : Bool := !(s.bay b).paired || (s.jobOf b).primary

theorem chpushCore_unbound (h : ((s.bay b).ep c.toNat).bnd = false ∨ ((s.bay b).ep c.toNat).dir = true) :
    chpushCore b a c s = .error (trapC 0x65) := by
  have hguard : (((s.bay b).ep c.toNat).bnd && !((s.bay b).ep c.toNat).dir) = false := by
    rcases h with h | h <;> simp [h]
  simp only [chpushCore, hguard, guardE_false, bind, Except.bind]

section
variable (hbnd : ((s.bay b).ep c.toNat).bnd = true) (hdir : ((s.bay b).ep c.toNat).dir = false)
include hbnd hdir

theorem chpushCore_waits (hmerge : (s.bay b).merge = none) (h : ((s.bay b).ep c.toNat).free = 0 ∨ ((s.bay b).ep c.toNat).resync = true) :
    chpushCore b a c s = .error .wait := by
  have hready : ((s.bay b).merge.isSome || (((s.bay b).ep c.toNat).free != 0 && !((s.bay b).ep c.toNat).resync)) = false := by
    rcases h with h | h <;> simp [hmerge, h]
  simp only [chpushCore, hbnd, hdir, hready, Bool.not_false, Bool.and_self, guardE_true, guardE_false, bind, Except.bind]

/-- With no store in the queue, and with a credit or its operands posted, CHPUSH is a merged operation. -/
theorem chpushCore_merged (hstores : (s.bay b).stores = [])
    (h : (s.bay b).merge ≠ none ∨ ((s.bay b).ep c.toNat).free ≠ 0 ∧ ((s.bay b).ep c.toNat).resync = false) :
    chpushCore b a c s = s.mergedOp b false [1, word c.toNat, s.readS a] (fun s => .ok (0, s))
      fun _ => chpushFinish b c.toNat (s.pushesWire b) (s.readS a) := by
  have hready : ((s.bay b).merge.isSome || (((s.bay b).ep c.toNat).free != 0 && !((s.bay b).ep c.toNat).resync)) = true := by
    rcases h with h | ⟨hfree, hresync⟩
    · simp [Option.isSome_iff_ne_none.mpr h]
    · rw [bne_iff_ne.mpr hfree, hresync]
      exact Bool.or_true _
  simp only [chpushCore, hbnd, hdir, hready, hstores, List.isEmpty_nil, Bool.not_false, Bool.and_self, guardE_true, bind, Except.bind]
  rfl

end

include hc

theorem exec_chpush : exec (.chpush a c) s = s.finish (chpushCore b a c s) := State.onSeq_eq hc fun b => chpushCore b a c s

theorem exec_chpop : exec (.chpop d c) s = s.finish (chpopCore b d c s) := State.onSeq_eq hc fun b => chpopCore b d c s

/-- The end of a CHPUSH in the bay. -/
theorem chpushFinish_eq (ch : Nat) (wire : Bool) (v : Word) :
    chpushFinish b ch wire v s = s.modBay b fun y => (y.withEp ch ((y.ep ch).send wire v)).seqNext (s.pc + 4) :=
  State.modBay_retire_seq (f := fun y => y.withEp ch ((y.ep ch).send wire v)) hc rfl

theorem chpushFinish_sends (ch : Nat) (wire : Bool) (v : Word) :
    (chpushFinish b ch wire v s).pc = s.pc + 4 ∧ (∀ r, (chpushFinish b ch wire v s).readS r = s.readS r) ∧
      EpBecomes s (chpushFinish b ch wire v s) b ch (((s.bay b).ep ch).send wire v) (fun y z => seqMoves { y with chan := z.chan } z) := by
  obtain ⟨-, hpc, hregs, -⟩ := modBay_retire_spec (f := fun y => y.withEp ch ((y.ep ch).send wire v)) hc rfl rfl
  refine ⟨hpc, hregs, ?_⟩
  rw [chpushFinish_eq hc]
  exact epBecomes_modBay rfl rfl

section
variable (hbnd : ((s.bay b).ep c.toNat).bnd = true) (hdir : ((s.bay b).ep c.toNat).dir = false) (hstores : (s.bay b).stores = [])
include hbnd hdir hstores

/-- CHPUSH outside a paired job. -/
theorem exec_chpush_alone (hpaired : (s.bay b).paired = false) (hfree : ((s.bay b).ep c.toNat).free ≠ 0)
    (hresync : ((s.bay b).ep c.toNat).resync = false) :
    exec (.chpush a c) s = .next (chpushFinish b c.toNat (s.pushesWire b) (s.readS a) s) := by
  rw [exec_chpush hc, chpushCore_merged hbnd hdir hstores (.inr ⟨hfree, hresync⟩), mergedOp_alone (r := 0) (s' := s) hpaired rfl]
  rfl

/-- In a paired job CHPUSH first posts its operands and the digest. -/
theorem chpush_posts (hpaired : (s.bay b).paired = true) (hmerge : (s.bay b).merge = none) (hfree : ((s.bay b).ep c.toNat).free ≠ 0)
    (hresync : ((s.bay b).ep c.toNat).resync = false) :
    ∃ t, exec (.chpush a c) s = .next t ∧ t.pc = s.pc ∧
      (t.bay b).merge = some [1, word c.toNat, s.readS a, (s.bay b).dlo, (s.bay b).dhi] ∧ SameMem s t ∧
      OnlyBay s t b (fun y z => { y with merge := z.merge, mergedAt := s.clock, mergeDone := false, merged := none }) := by
  refine ⟨s.modBay b fun y => y.posts [1, word c.toNat, s.readS a] s.clock, ?_, ?_, ?_, fun _ => rfl, onlyBay_modBay rfl⟩
  · rw [exec_chpush hc, chpushCore_merged hbnd hdir hstores (.inr ⟨hfree, hresync⟩), mergedOp_posts hpaired hmerge]
    rfl
  · rw [State.pc_seq (s := s.modBay b _) hc, State.modBay_bay_same, State.pc_seq hc]
    rfl
  · rw [State.modBay_bay_same]
    rfl

end

omit hc in
/-- A merged operation without an effect of its own, once both copies have been compared: before the word's end the bay and its twin differ in what they
keep of the comparison alone. -/
theorem mergedOp_compared {ops : List Word} {finish : Word → State → State} (hpaired : (s.bay b).paired = true) (hmerge : (s.bay b).merge ≠ none)
    (hdone : (s.bay b).mergeDone = true) (h : (s.jobOf b).primary = true ∨ (s.bay b).merged ≠ none) :
    ∃ (u : State) (r : Word), s.mergedOp b false ops (fun s => .ok (0, s)) finish = .ok (finish r (u.modBay b Bay.unmerge)) ∧ u = { s with bays := u.bays } ∧
      (u.bay b).chan = (s.bay b).chan ∧ (u.bay b).pc = (s.bay b).pc := by
  cases hprimary : (s.jobOf b).primary with
  | true =>
    cases htwin : s.twinBay b with
    | none => exact ⟨s, 0, by simp [State.mergedOp, hpaired, hmerge, hdone, hprimary, htwin], rfl, rfl, rfl⟩
    | some n =>
      refine ⟨s.answers s b n false 0, 0, mergedOp_primary hpaired hmerge hdone hprimary htwin rfl, rfl, ?_⟩
      by_cases hn : b = n
      · subst hn
        simp only [State.answers, State.shareDigest, Bool.false_eq_true, if_false, State.modBay_bay_same, and_self]
      · rw [s.answers_bay_ne s hn]
        exact ⟨rfl, rfl⟩
  | false =>
    obtain ⟨o, ho⟩ := Option.ne_none_iff_exists'.mp (h.resolve_left (hprimary ▸ Bool.false_ne_true))
    exact ⟨s, o, mergedOp_answered hpaired hmerge hdone hprimary ho rfl, rfl, rfl, rfl⟩

/-- Once both copies have been compared the credit is taken, and the primary's element leaves. -/
theorem chpush_compared (hbnd : ((s.bay b).ep c.toNat).bnd = true) (hdir : ((s.bay b).ep c.toNat).dir = false) (hstores : (s.bay b).stores = [])
    (hpaired : (s.bay b).paired = true) (hmerge : (s.bay b).merge ≠ none) (hdone : (s.bay b).mergeDone = true)
    (h : (s.jobOf b).primary = true ∨ (s.bay b).merged ≠ none) :
    ∃ t, exec (.chpush a c) s = .next t ∧ t.pc = s.pc + 4 ∧ (t.bay b).ep c.toNat = ((s.bay b).ep c.toNat).send (s.pushesWire b) (s.readS a) ∧
      (t.bay b).merge = none ∧ SameMem s t ∧ t = { s with bays := t.bays } := by
  obtain ⟨u, r, hop, hrest, hchan, hpc⟩ := mergedOp_compared (ops := [1, word c.toNat, s.readS a])
    (finish := fun _ => chpushFinish b c.toNat (s.pushesWire b) (s.readS a)) hpaired hmerge hdone h
  have hcu : (u.modBay b Bay.unmerge).cur = .stream b .S := by rw [State.modBay_cur, hrest]; exact hc
  obtain ⟨hnext, -, hep, -, -, hall, -, hbay⟩ := chpushFinish_sends hcu c.toNat (s.pushesWire b) (s.readS a)
  have hown := State.modBay_bay_same u b Bay.unmerge
  rw [hown] at hbay hep
  have hep' : (u.bay b).unmerge.ep c.toNat = (s.bay b).ep c.toNat := Bay.ep_congr (z := s.bay b) hchan _
  refine ⟨_, ?_, ?_, by rw [hep, hep'], (congrArg Bay.merge hbay :), fun q => ?_, ?_⟩
  · rw [exec_chpush hc, chpushCore_merged hbnd hdir hstores (.inl hmerge), hop]
    rfl
  · rw [hnext, State.pc_seq hcu, hown, State.pc_seq hc, ← hpc]
    rfl
  · rw [hall, hrest]
    rfl
  · rw [hall, hrest]
    rfl

end

/-! ### CHPOP (R303) -/

/-- An in endpoint whose oldest element has been taken, which leaves `l`. -/
def Endpoint.popped (e : Endpoint) (l : List (Word × BitVec 32)) : Endpoint :=
  { (e.setFree (e.free + 1)).giveCredit with buf := l, consumed := e.consumed + 1 }

section
variable {s : State} {b : Nat} {d : BitVec 5} {c : BitVec 6}

theorem chpopCore_unbound (h : ((s.bay b).ep c.toNat).bnd = false ∨ ((s.bay b).ep c.toNat).dir = false) : chpopCore b d c s = .error (trapC 0x65) := by
  have hguard : (((s.bay b).ep c.toNat).bnd && ((s.bay b).ep c.toNat).dir) = false := by
    rcases h with h | h <;> simp [h]
  simp only [chpopCore, hguard, guardE_false, bind, Except.bind]

variable (hbnd : ((s.bay b).ep c.toNat).bnd = true) (hdir : ((s.bay b).ep c.toNat).dir = true)
include hbnd hdir

theorem chpopCore_waits (hbuf : ((s.bay b).ep c.toNat).buf = []) : chpopCore b d c s = .error .wait := by
  simp only [chpopCore, hbnd, hdir, hbuf, Bool.and_self, guardE_true, bind, Except.bind]

theorem chpopCore_takes {v : Word} {g : BitVec 32} {l : List (Word × BitVec 32)} (hbuf : ((s.bay b).ep c.toNat).buf = (v, g) :: l) :
    chpopCore b d c s = .ok ((s.modEp b c.toNat fun e => e.popped l).writeS d v).retire := by
  simp only [chpopCore, hbnd, hdir, hbuf, Bool.and_self, guardE_true, bind, Except.bind]
  rfl

theorem chpop_takes (hc : s.cur = .stream b .S) {v : Word} {g : BitVec 32} {l : List (Word × BitVec 32)}
    (hbuf : ((s.bay b).ep c.toNat).buf = (v, g) :: l) :
    ∃ t, exec (.chpop d c) s = .next t ∧ t.readS d = (if d = 0 then 0 else v) ∧ (∀ r, r ≠ d → t.readS r = s.readS r) ∧ t.pc = s.pc + 4 ∧
      EpBecomes s t b c.toNat (((s.bay b).ep c.toNat).popped l) (fun y z => seqWrites { y with chan := z.chan } z) := by
  have hown := State.modBay_bay_same s b fun y => y.withEp c.toNat ((y.ep c.toNat).popped l)
  have hkeeps : SeqKeeps s (s.modBay b fun y => y.withEp c.toNat ((y.ep c.toNat).popped l)) b :=
    ⟨rfl, by rw [hown]; rfl, by rw [hown]; rfl, by rw [hown]; rfl⟩
  have hwrote := hkeeps.writeS_retire hc d v
  obtain ⟨hstate, hothers, hbay⟩ := hwrote.rest
  rw [hown] at hbay
  have hchan := congrArg Bay.chan hbay
  have hep : ∀ k, (((s.modBay b fun y => y.withEp c.toNat ((y.ep c.toNat).popped l)).writeS d v).retire.bay b).ep k =
      ((s.bay b).withEp c.toNat (((s.bay b).ep c.toNat).popped l)).ep k := fun k => Bay.ep_congr hchan k
  refine ⟨_, ?_, hwrote.result, hwrote.regs, hwrote.pc, (hep _).trans (Bay.withEp_ep_same _ _ _),
    fun k hk => (hep k).trans (Bay.withEp_ep_ne _ _ hk), fun q => ?_, hstate, fun n hn => ?_, ?_⟩
  · rw [exec_chpop hc, chpopCore_takes hbnd hdir hbuf]
    rfl
  · rw [hwrote.mem]
    rfl
  · rw [hothers n hn]
    exact State.modBay_bay_ne _ _ _ hn
  · dsimp only
    rw [hchan]
    exact hbay

end

/-! ### The arrival of an element (R304) -/

theorem seqOrder_self (n : Nat) : seqOrder n n = .equal := by
  rw [seqOrder, Nat.add_sub_cancel_left]
  rfl

/-- An in endpoint that has taken an element into its buffer. -/
def Endpoint.accepted (e : Endpoint) (tok : Token) : Endpoint := { (e.setFree (e.free - 1)) with seq := e.seq + 1, buf := e.buf ++ [tok] }

section
variable {s : State} {b ch n j : Nat} {tok : Token} {l : List Token}

/-- The expected element enters the buffer. -/
theorem checkElement_accepts (hbnd : ((s.bay b).ep ch).bnd = true) (hdir : ((s.bay b).ep ch).dir = true)
    (hctx : tagCtx tok.2 = ((s.bay b).ep ch).ctx.toNat) (hthread : tagThread tok.2 = ((s.bay b).ep ch).thread.toNat)
    (hseq : tagSeq tok.2 = ((s.bay b).ep ch).seq.toNat) : checkElement b ch tok s = acceptElement b ch tok s := by
  simp only [checkElement, hbnd, hdir, hctx, hthread, hseq, seqOrder_self, Bool.not_true, Bool.or_self, Bool.false_eq_true, ne_eq, not_true_eq_false,
    if_false]

theorem acceptElement_eq (s : State) (b ch : Nat) (tok : Token) :
    acceptElement b ch tok s = s.modBay b fun y => (y.withEp ch ((y.ep ch).accepted tok)).event evChan := State.modBay_modBay _ _ _ _

/-- The lath once the oldest element of output port `j` has left, and `l` is still on its way. -/
def Lath.withWire (x : Lath) (j : Nat) (l : List Token) : Lath := x.setOut j { x.outPort j with wire := l }

theorem Lath.withWire_wire (x : Lath) {j : Nat} (hj : j < x.outp.length) (l : List Token) : ((x.withWire j l).outPort j).wire = l := by
  rw [Lath.withWire, Lath.outPort, Lath.setOut, nth, setNth, List.getD_eq_getElem?_getD, List.getElem?_set_self hj, Option.getD_some]

/-- Outside a paired job the oldest element of the lath's port comes to the endpoint's check. -/
theorem elementArrival_checks (hpaired : (s.bay b).paired = false) (hpeer : ((s.bay b).ep ch).peer.toNat = n) (howns : s.ownsLath b n = true)
    (hport : (s.lathAt n).channelPort true (s.bay b).index ch = some j) (hwire : ((s.lathAt n).outPort j).wire = tok :: l) :
    elementArrival b ch s = checkElement b ch tok (s.setLath n ((s.lathAt n).withWire j l)) := by
  simp only [elementArrival, hpeer, howns, hport, hwire, hpaired, Bool.not_true, Bool.false_eq_true, if_false]
  rfl

theorem elementArrival_enters (hpaired : (s.bay b).paired = false) (hbnd : ((s.bay b).ep ch).bnd = true) (hdir : ((s.bay b).ep ch).dir = true)
    (hpeer : ((s.bay b).ep ch).peer = BitVec.ofNat 7 n) (hn : n < 128) (howns : s.ownsLath b n = true)
    (hport : (s.lathAt n).channelPort true (s.bay b).index ch = some j) (hwire : ((s.lathAt n).outPort j).wire = tok :: l)
    (hctx : tagCtx tok.2 = ((s.bay b).ep ch).ctx.toNat) (hthread : tagThread tok.2 = ((s.bay b).ep ch).thread.toNat)
    (hseq : tagSeq tok.2 = ((s.bay b).ep ch).seq.toNat) :
    elementArrival b ch s = (s.setLath n ((s.lathAt n).withWire j l)).modBay b fun y => (y.withEp ch ((y.ep ch).accepted tok)).event evChan := by
  have hpeer' : ((s.bay b).ep ch).peer.toNat = n := by rw [hpeer, BitVec.toNat_ofNat, Nat.mod_eq_of_lt hn]
  rw [elementArrival_checks hpaired hpeer' howns hport hwire,
    checkElement_accepts (s := s.setLath n ((s.lathAt n).withWire j l)) hbnd hdir hctx hthread hseq, acceptElement_eq]

end

/-! ### Credits, audits and resyncs of an out endpoint (R301, R305) -/

/-- A credit has come back to the sender. -/
def Endpoint.credited (e : Endpoint) : Endpoint := { e.setFree (e.free + 1) with credits := e.credits - 1 }

/-- An audit has set out. -/
def Endpoint.audits (e : Endpoint) (clock : Nat) : Endpoint := { e with audit := some e.consumed, auditAt := clock }

/-- The audit has come to the sender: the credits behind it may follow. -/
def Endpoint.audited (e : Endpoint) : Endpoint := { e with audit := none, credits := e.behind, behind := 0 }

/-- The receiver's answer to a resync is on its way; it subsumes credits and audits. -/
def Endpoint.answers (e : Endpoint) (a : BitVec 7 × BitVec 16 × BitVec 16) : Endpoint := { e with answer := some a, credits := 0, behind := 0, audit := none }

/-- The sender has applied the answer FREE `f`, SEQ `q` and the consumed count `k`, and sends again (log 95). -/
def Endpoint.resynced (e : Endpoint) (f : BitVec 7) (q k : BitVec 16) : Endpoint :=
  let l := resend q.toNat e.replay
  { e with resync := false, answer := none, credits := e.behind, behind := 0, free := f - BitVec.ofNat 7 l.length
           fpar := parity7 (f - BitVec.ofNat 7 l.length), wire := l
           sent := k + (e.cap.zeroExtend 16 - f.zeroExtend 16) + BitVec.ofNat 16 l.length }

/-- What the sender of an out endpoint finds used: its FREE and the elements sent and not consumed. -/
def Endpoint.used (e : Endpoint) : Nat := (e.free.toNat + (e.sent.toNat + 65536 - (e.audit.getD 0).toNat) % 65536) % 65536

section
variable {s : State} {b ch : Nat}

section
variable (hb : b < 64)
include hb

theorem exec_creditReturn : exec (.creditReturn b ch) s = .next (creditReturn b ch s) := congrArg Host.Outcome.next (if_pos hb)
theorem exec_channelAudit : exec (.channelAudit b ch) s = .next (channelAudit b ch s) := congrArg Host.Outcome.next (if_pos hb)
theorem exec_auditCheck : exec (.auditCheck b ch) s = .next (auditCheck b ch s) := congrArg Host.Outcome.next (if_pos hb)
theorem exec_resyncReturn : exec (.resyncReturn b ch) s = .next (resyncReturn b ch s) := congrArg Host.Outcome.next (if_pos hb)
theorem exec_resyncApply : exec (.resyncApply b ch) s = .next (resyncApply b ch s) := congrArg Host.Outcome.next (if_pos hb)

end

theorem channelAudit_sets (hbnd : ((s.bay b).ep ch).bnd = true) (haudit : ((s.bay b).ep ch).audit = none) (hresync : ((s.bay b).ep ch).resync = false)
    (hdue : ((s.bay b).ep ch).auditAt + 4096 ≤ s.clock) : channelAudit b ch s = s.modEp b ch fun e => e.audits s.clock := by
  have hlate : decide (s.clock < ((s.bay b).ep ch).auditAt + 4096) = false := decide_eq_false (Nat.not_lt.mpr hdue)
  exact if_neg (by simp [hbnd, haudit, hresync, hlate])

variable (hdir : ((s.bay b).ep ch).dir = false)
include hdir

theorem creditReturn_credits (hpaired : (s.bay b).paired = false) (hcredits : ((s.bay b).ep ch).credits ≠ 0) (hanswer : ((s.bay b).ep ch).answer = none)
    (howns : s.ownsLath b ((s.bay b).ep ch).peer.toNat = true) : creditReturn b ch s = s.modEp b ch Endpoint.credited := by
  simp only [creditReturn, hdir, hpaired, hanswer, howns, hcredits, decide_false, Bool.false_and, Bool.false_eq_true, if_false, Option.isSome_none,
    Option.any_none, Bool.not_true, Bool.or_self, Option.toList_none, List.foldl_nil, State.modEp_modEp]
  rw [if_neg]
  · rfl
  · rw [State.modEp_eq, State.modBay_bay_same]
    exact Bool.eq_false_iff.mp hpaired

theorem senderState_out : senderState b ch s =
    (((s.bay b).ep ch).free.toNat, ((s.bay b).ep ch).sent.toNat, ((s.bay b).ep ch).fpar == parity7 ((s.bay b).ep ch).free) := by
  rw [senderState, hdir]
  rfl

section
variable (haudit : ((s.bay b).ep ch).audit.isSome = true) (hcredits : ((s.bay b).ep ch).credits = 0) (hresync : ((s.bay b).ep ch).resync = false)
include haudit hcredits hresync

/-- The sender's check of an audit, once the credits ahead of it have arrived. -/
theorem auditCheck_out : auditCheck b ch s =
    if ((s.bay b).ep ch).fpar = parity7 ((s.bay b).ep ch).free ∧ ((s.bay b).ep ch).used = ((s.bay b).ep ch).cap.toNat then s.modEp b ch Endpoint.audited
    else startResync b ch ((s.modEp b ch Endpoint.audited).endpointFault b ch 0x61 (senderSeq b ch (s.modEp b ch Endpoint.audited))) := by
  obtain ⟨k, hk⟩ := Option.isSome_iff_exists.mp haudit
  have hstays : ¬ ((decide (((s.bay b).ep ch).credits ≠ 0) || ((s.bay b).ep ch).resync) = true) := by simp [hcredits, hresync]
  simp only [auditCheck, hk, senderState_out hdir, if_neg hstays, Endpoint.used, Option.getD_some, Bool.and_eq_true, beq_iff_eq]
  rfl

end

theorem resyncReturn_answers (hresync : ((s.bay b).ep ch).resync = true) (hanswer : ((s.bay b).ep ch).answer = none)
    (hwire : ((s.bay b).ep ch).wire = []) {m i : Nat} {x : Source} (hsource : channelSource b ch s = some (m, i, x)) :
    resyncReturn b ch s = s.modEp b ch fun e =>
      e.answers (BitVec.ofNat 7 (64 - x.buf.length), Tab.get 0 x.expect ((s.bay b).ep ch).thread.toNat, ((s.bay b).ep ch).consumed) := by
  have hlanded : channelWire b ch s = [] := by
    rw [channelWire, hdir]
    exact hwire
  simp only [resyncReturn, hdir, hresync, hanswer, hlanded, hsource, Option.isSome_none, List.isEmpty_nil, Bool.not_true, Bool.or_self,
    Bool.false_eq_true, if_false]
  rfl

theorem resyncApply_resyncs {f : BitVec 7} {q k : BitVec 16} (hanswer : ((s.bay b).ep ch).answer = some (f, q, k)) :
    resyncApply b ch s = s.modEp b ch fun e => e.resynced f q k := by
  simp only [resyncApply, hdir, hanswer, Bool.false_eq_true, if_false]
  rfl

end

/-- An endpoint fault changes no endpoint; it waits in the bay's sequencer, unless one of the same endpoint does already (R304). -/
theorem State.endpointFault_waits (s : State) (b ch cause : Nat) (aux : Word) : let t := s.endpointFault b ch cause aux
    (∀ k, (t.bay b).ep k = (s.bay b).ep k) ∧
      ((∃ p ∈ (t.bay b).pend, p.rc.cause = BitVec.ofNat 8 cause ∧ p.rc.unit = BitVec.ofNat 8 ch) ∨
        ∃ p ∈ (s.bay b).pend, p.rank = 6 ∧ p.rc.unit = BitVec.ofNat 8 ch) := by
  dsimp only [State.endpointFault]
  split
  case isTrue hany =>
    obtain ⟨p, hmem, hp⟩ := List.any_eq_true.mp hany
    obtain ⟨i, m, f, x, ht⟩ := s.fresh.2.fmEvent_rest (s.fresh.1.toNat % 256) ch
    rw [State.fmOther, ht]
    exact ⟨fun _ => rfl, .inr ⟨p, hmem, by simpa using hp⟩⟩
  case isFalse =>
    rw [State.setBay_bay_same]
    exact ⟨fun _ => rfl, .inl ⟨_, Bay.mem_addPend _ _, rfl, rfl⟩⟩

/-- A failed audit starts a resync, and its cause waits in the bay's sequencer. -/
theorem auditCheck_fails {s : State} {b ch : Nat} (hdir : ((s.bay b).ep ch).dir = false) (haudit : ((s.bay b).ep ch).audit.isSome = true)
    (hcredits : ((s.bay b).ep ch).credits = 0) (hresync : ((s.bay b).ep ch).resync = false)
    (hbad : ((s.bay b).ep ch).fpar ≠ parity7 ((s.bay b).ep ch).free ∨ ((s.bay b).ep ch).used ≠ ((s.bay b).ep ch).cap.toNat) :
    let t := auditCheck b ch s
    ((t.bay b).ep ch).resync = true ∧ ((t.bay b).ep ch).audit = none ∧
      ((∃ p ∈ (t.bay b).pend, p.rc.cause = 0x61 ∧ p.rc.unit = BitVec.ofNat 8 ch) ∨ ∃ p ∈ (s.bay b).pend, p.rank = 6 ∧ p.rc.unit = BitVec.ofNat 8 ch) := by
  obtain ⟨hep, hfault⟩ := (s.modEp b ch Endpoint.audited).endpointFault_waits b ch 0x61 (senderSeq b ch (s.modEp b ch Endpoint.audited))
  have hpend : ((s.modEp b ch Endpoint.audited).bay b).pend = (s.bay b).pend := by rw [State.modEp_eq, State.modBay_bay_same]; rfl
  dsimp only
  rw [auditCheck_out hdir haudit hcredits hresync, if_neg (not_and_or.mpr hbad), startResync, State.modEp_ep_same, hep, State.modEp_ep_same]
  refine ⟨rfl, rfl, ?_⟩
  rw [State.modEp_eq, State.modBay_bay_same, ← hpend]
  exact hfault

/-- A step of a channel that changes one endpoint of a bay. -/
theorem next_modEp {s t : State} {i : Instr} {b ch : Nat} {f : Endpoint → Endpoint} (hi : exec i s = .next t) (ht : t = s.modEp b ch f) :
    ∃ t, exec i s = .next t ∧ (t.bay b).ep ch = f ((s.bay b).ep ch) ∧ (∀ k, k ≠ ch → (t.bay b).ep k = (s.bay b).ep k) ∧
      OnlyBay s t b (fun y z => { y with chan := z.chan }) ∧ SameMem s t := by
  subst ht
  obtain ⟨hsame, hothers, hmem, hrest⟩ := epBecomes_modBay (s := s) (b := b) (ch := ch) (x := f ((s.bay b).ep ch))
    (f := fun y => y.withEp ch (f (y.ep ch))) (fb := fun y z => { y with chan := z.chan }) rfl rfl
  exact ⟨_, hi, hsame, hothers, hrest, hmem⟩

/-- Settles O29: CHPUSH and CHPOP by their cores and the merged operation of a paired job, an arrival by the check that accepts it, and each step of an out
endpoint by what it makes of the endpoint. -/
theorem channelWords : Obligations.ChannelWords := by
  unfold Obligations.ChannelWords
  constructor
  · intro s b a d c y e tok sent only
    have hsent : e.send (s.pushesWire b) (s.readS a) = sent := by
      simp only [sent, Endpoint.send, State.pushesWire, Bool.or_eq_true, Bool.not_eq_true']
      rfl
    refine ⟨fun hc => ⟨fun hbnd hdir hstores => ⟨fun hpaired hfree hresync => ?_, fun _ hmerge h => ?_, fun hpaired hmerge hfree hresync => ?_,
      fun hpaired hmerge hdone h => ?_⟩, fun hbnd hdir => ⟨fun v g l hbuf => ?_, fun hbuf => ?_⟩, fun h => ?_, fun h => ?_⟩,
      fun n j tok l hpaired hbnd hdir hpeer hn howns hport hwire hj hctx hthread hseq => ?_⟩
    · obtain ⟨hpc, hregs, hep⟩ := chpushFinish_sends hc c.toNat (s.pushesWire b) (s.readS a)
      rw [← hsent]
      exact ⟨_, exec_chpush_alone hc hbnd hdir hstores hpaired hfree hresync, hpc, hregs, hep⟩
    · exact setHold_waits hc false (by rw [exec_chpush hc, chpushCore_waits hbnd hdir hmerge h]; rfl)
    · exact chpush_posts hc hbnd hdir hstores hpaired hmerge hfree hresync
    · rw [← hsent]
      exact chpush_compared hc hbnd hdir hstores hpaired hmerge hdone h
    · exact chpop_takes hbnd hdir hc hbuf
    · exact setHold_waits hc false (by rw [exec_chpop hc, chpopCore_waits hbnd hdir hbuf]; rfl)
    · rw [exec_chpush hc, chpushCore_unbound h]
      rfl
    · rw [exec_chpop hc, chpopCore_unbound h]
      rfl
    · refine ⟨_, congrArg Host.Outcome.next (elementArrival_enters hpaired hbnd hdir hpeer hn howns hport hwire hctx hthread hseq), ?_, ?_, fun k hk => ?_,
        fun _ => rfl, rfl, ?_, fun k hk => ?_, ?_⟩
      · rw [State.modBay_lathAt, State.setLath_lathAt_same, Lath.withWire_wire _ hj]
      · rw [State.modBay_bay_same]
        rfl
      · rw [State.modBay_lathAt, State.setLath_lathAt, if_neg hk]
      · rw [State.modBay_bay_same]
        exact Bay.withEp_ep_same _ _ _
      · rw [State.modBay_bay_ne _ _ _ hk, State.setLath_bay]
      · rw [State.modBay_bay_same]
        rfl
  · intro s b ch hb y e goes used
    refine fun hdir hpaired => ⟨fun hcredits hanswer howns => ?_, fun hbnd haudit hresync hdue => ?_, fun haudit hcredits hresync hpar hused => ?_,
      fun haudit hcredits hresync hbad => ?_, fun hresync hanswer hwire m i x hsource => ?_, fun f q k hanswer => ?_⟩
    · exact next_modEp (exec_creditReturn hb) (creditReturn_credits hdir hpaired hcredits hanswer howns)
    · exact next_modEp (exec_channelAudit hb) (channelAudit_sets hbnd haudit hresync hdue)
    · exact next_modEp (exec_auditCheck hb) ((auditCheck_out hdir haudit hcredits hresync).trans (if_pos ⟨hpar, hused⟩))
    · exact ⟨_, exec_auditCheck hb, auditCheck_fails hdir haudit hcredits hresync hbad⟩
    · exact next_modEp (exec_resyncReturn hb) (resyncReturn_answers hdir hresync hanswer hwire hsource)
    · exact next_modEp (exec_resyncApply hb) (resyncApply_resyncs hdir hanswer)

end Sys2Proof.Machine
end

section
/-! Encoding: the decoder is the inverse of the encoder (R36 to R53). -/

namespace Sys2Proof.Laws

/-- The case of each instruction is that instruction's own lemma. -/
theorem Encoding.statement (i : Instr) : Encoding.Statement i :=
  open Encoding in Instr.casesOn i
    add sub mul mulh mulhw div divw rem remw and or xor andn shl shr sar rol min max minw maxw slt sltw clz ctz popc addi andi ori xori shli shri sari
    slti lui bfx bfxReg bfxs bfxsReg bfi bfiReg beq bne blt bge bltw bgew jal jalr loop loopStrided loopi loopr loopBodyEnd ld lds st amoAdd amoMin
    amoMax amoSwap amoCas amoOr phase phaseCompletion commitSweep fence barinit bararr barwait spawn join halt hset setpar getpar chpush chpop tkwait
    tksig rowwait rowpub frmwait waitBoundExpiry sqarm sqwait sqrel squareDeadline squareCompletion tsread ctrr jwait jline jemit jrow jsub jstat
    jtile csrr csrw csrs csrc trap tret waitev trapEntry vadd vaddK vaddI vsub vsubK vsubI vmul vmulK vmulI vmadd vmaddK vmaddI vmsub vmsubK vmsubI
    vmin vminK vminI vmax vmaxK vmaxI vabs vneg vand vandK vandI vor vorK vorI vxor vxorK vxorI vshl vshlK vshlI vshr vshrK vshrI vsar vsarK vsarI
    vsel vselK vselI vcmpeq vcmpeqK vcmpeqI vcmpne vcmpneK vcmpneI vcmplt vcmpltK vcmpltI vcmple vcmpleK vcmpleI vwadd vwaddK vwaddI vwmul vwmulK
    vwmulI vwmadd vwmaddK vwmaddI vdot4 vdot4K vcvt vnarrow vquant vdeq vlgmul vlgadd vlgcvt vdiv vdivK vexp2 vlog2 vrcp vrsqrt vtanh vsigm vsqrt
    vrsum vrmax vrmin vscan vscanExcl vperm vslideK vslideI vbcastK vbcastI vzip vunzip pand por pxor pnot pcnt pfirst plenK plenI vld vst vldx vstx
    vrand vshape vmov vmovK vmovI vrot vloop vloopi vloopr vpegw vpegs vend vkset tlease tfree tloadb tmma tmmas tpromo tdrain tzero tcommit tdiscard
    tsign tbucket trepsFirst trepsMean trepsNormmax tscat tmgrad tnop sloop leaseGrant leaseWindowEnd trussCommandStart trussRowWrite
    trussCommandCompletion xcopy xcast xaddw xredAddf32 xredAddi32 xredMaxf32 xredMinf32 xredMaxi32 xredMini32 xgath xscat xconv xfill xord xnop
    copySectorMove copyCompletion xaddwLineWrite xredRequestApply xredAck xredResend storeCompletion deferredPegPush streamEnd codeFetch idle lswap
    lckpt lgath lsort lmerge lroute ltopk hprobe hins hdel hrehashBegin hrehash hfence ldedup lcompact lscan lhist hashUpdateCompletion
    lathTokenArrival batchStoreMove tokenEmission loaderCompletion parityError reloadCompletion channelElementArrival creditReturn channelAudit
    auditCheck resyncReturn resyncApply csi2FrameStart csi2FrameEnd csi2LineStart csi2LongPacket csi2LineEnd csi2UnsupportedPacket lineTimeout
    lidarFrame lidarFramePeriod gptpAnnounce gptpSync gptpFollowUp pdelayRequest pdelayOriginate pdelayResponse syncLoss scheduleFrameOrigin admission
    dependenceMet selection planeFlip aging jobCompletion jobTime jobKill preemption saveComplete pageFaultService faultTimeout pageEviction
    pageMigration migrationRecheck migrationTimeout invalidationComplete pairMerge pairTwinTimeout replayTimeout boot linkFatal flr partitionSetup
    partitionTeardown queueRegistration doorbell chainEnable chainDisable hostRegisterWrite preempt kill pageResp inval sensor chaincode stage
    activate activateLive logdesc logrel testint evring framerHeartbeat updateRollback framerSilent sensorSample thermalTrip voltageMonitor
    clockMonitor conditionCleared selfTest spareInsertion sliceCopyComplete doeDiscovery getVersion getCapabilities negotiateAlgorithms getDigests
    getCertificate challenge getMeasurements encodingFault unitNotTested uplinkReply

end Sys2Proof.Laws

namespace Sys2Proof.Machine

/-- Settles O1: the statement of each instruction's word, for all instructions together. -/
theorem decodeEncode : Obligations.DecodeEncode := Laws.Encoding.statement

/-- Settles O2, by evaluating the decoder on each word. -/
theorem decodeWords : Obligations.DecodeWords := by
  unfold Obligations.DecodeWords
  exact ⟨by decide, by decide, by decide, by decide, by decide, by decide, by decide, by decide, by decide, fun _ => rfl⟩

end Sys2Proof.Machine
end

section
/-! The state after reset. -/

namespace Sys2Proof.Machine

/-- A bay after reset runs no stream and has no flags. -/
theorem reset_streams (b : Nat) (e : Eng) : ((State.reset.bay b).stream e).run = false ∧ ((State.reset.bay b).stream e).flags = 0 := by
  cases e <;> exact ⟨rfl, rfl⟩

theorem nth_replicate_zero (n i : Nat) : nth 0 (List.replicate n (0 : Word)) i = 0 := by
  simp only [nth, List.getD_eq_getElem?_getD, List.getElem?_replicate]
  split <;> rfl

/-- Settles O4: every table of the state after reset is empty, so that each item reads as its default. -/
theorem resetState : Obligations.ResetState := by
  unfold Obligations.ResetState
  refine ⟨rfl, rfl, rfl, rfl, rfl, rfl, rfl, rfl, fun b => ?_, fun p => ?_, fun n => rfl, fun n => ⟨rfl, rfl, rfl⟩, fun c => ?_, fun g => ⟨?_, rfl⟩,
    fun t => ?_, fun n => rfl⟩
  · exact ⟨fun _ => rfl, rfl, rfl, rfl, rfl, rfl, rfl, rfl, rfl, rfl, rfl, rfl, rfl, fun _ => rfl, fun _ => ⟨rfl, rfl⟩, rfl, fun _ => rfl, fun _ => rfl,
      fun e _ => reset_streams b e, rfl, rfl, rfl, rfl⟩
  · exact ⟨rfl, nth_replicate_zero 16, rfl, rfl, rfl, fun _ => rfl, rfl, rfl⟩
  · exact (by decide : chainEn {} = false)
  · exact (by decide : bit (nth 0 ({} : Group).w 0) 0 = false)
  · exact (by decide : hValid tableReset = false)

end Sys2Proof.Machine
end

section
/-! Answers of the Data Object Exchange (R442, R476). -/

namespace Sys2Proof.Machine

/-- Once the Foreman runs, an answer is sent. -/
theorem State.answer_sent {s : State} (h : s.boot.stage ≠ 0) (n : Nat) (ops : List Nat) (body : List Byte) :
    s.answer n ops body = { s with outbox := (5, Config.spdmHead n ops ++ body ++ Config.spdmTail n ops) :: s.outbox } := if_neg h

/-- Settles O60: each request is one answer, whose body is what R476 names; a measurement is read off by its index. -/
theorem attestationAnswersMeasure : Obligations.AttestationAnswersMeasure := by
  unfold Obligations.AttestationAnswersMeasure
  intro s off len nonce hboot
  have sent : ∀ n ops body, Host.Outcome.next (s.answer n ops body) = _ := fun n ops body => congrArg (Host.Outcome.next (φ := Fault) (ρ := Refusal)) (State.answer_sent hboot n ops body)
  refine ⟨sent 0 [] [], sent 1 [] _, sent 2 [] [], sent 3 [] _, sent 4 [] _, sent 5 _ _, sent 6 _ _, fun i m hm => ?_⟩
  have hmeasure : m = s.measure i := by
    simp only [List.mem_cons, Prod.mk.injEq, List.not_mem_nil, or_false] at hm
    rcases hm with ⟨rfl, rfl⟩ | ⟨rfl, rfl⟩ | ⟨rfl, rfl⟩ | ⟨rfl, rfl⟩ | ⟨rfl, rfl⟩ <;> rfl
  rw [hmeasure]
  exact sent 7 _ _

end Sys2Proof.Machine
end

section
/-! Admission of launch records (R309 to R314, R326), over the rules for the registers of a partition and its event ring. -/

namespace Sys2Proof.Machine

/-! ### The registers of a partition -/

@[simp] theorem State.modPart_part_same (s : State) (p : Nat) (f : Part → Part) : (s.modPart p f).part p = f (s.part p) := Tab.get_put_same _ _ _ _

theorem State.modPart_part (s : State) (p : Nat) (f : Part → Part) (q : Nat) : (s.modPart p f).part q = if q = p then f (s.part p) else s.part q :=
  Tab.get_put _ _ _ _ _

theorem State.modPart_part_ne (s : State) {p q : Nat} (f : Part → Part) (h : q ≠ p) : (s.modPart p f).part q = s.part q := Tab.get_put_ne _ _ _ h

theorem State.setPart_part_ne (s : State) {p q : Nat} (x : Part) (h : q ≠ p) : (s.setPart p x).part q = s.part q := Tab.get_put_ne _ _ _ h

theorem State.modPart_modPart (s : State) (p : Nat) (f g : Part → Part) : (s.modPart p f).modPart p g = s.modPart p fun x => g (f x) := by
  simp only [State.modPart, State.setPart_part_same]
  simp only [State.setPart, Tab.put_put]

theorem State.setQueue_part_same (s : State) (p q : Nat) (y : LQueue) :
    (s.setQueue p q y).part p = { s.part p with queues := Tab.put (s.part p).queues q y } := State.modPart_part_same _ _ _

@[simp] theorem State.setQueue_queue_same (s : State) (p q : Nat) (y : LQueue) : (s.setQueue p q y).queue p q = y := by
  rw [State.queue, State.setQueue_part_same, Tab.get_put_same]

theorem State.setQueue_queue_ne (s : State) (p : Nat) {q k : Nat} (y : LQueue) (h : k ≠ q) : (s.setQueue p q y).queue p k = s.queue p k := by
  rw [State.queue, State.setQueue_part_same, Tab.get_put_ne _ _ _ h]
  rfl

theorem State.queue_congr {s t : State} {p : Nat} (h : (t.part p).queues = (s.part p).queues) (k : Nat) : t.queue p k = s.queue p k := by
  rw [State.queue, h]
  rfl

@[simp] theorem State.modJob_job_same (s : State) (n : Nat) (f : Job → Job) : (s.modJob n f).job n = f (s.job n) := Tab.get_put_same _ _ _ _

theorem State.modJob_job_ne (s : State) {n m : Nat} (f : Job → Job) (h : m ≠ n) : (s.modJob n f).job m = s.job m := Tab.get_put_ne _ _ _ h

theorem State.job_congr {s t : State} (h : t.jobs = s.jobs) (n : Nat) : t.job n = s.job n := by
  rw [State.job, h]
  rfl

theorem State.bay_congr {s t : State} (h : t.bays = s.bays) (b : Nat) : t.bay b = s.bay b := by
  rw [State.bay, h]
  rfl

theorem State.setJob_job_ne (s : State) {n m : Nat} (j : Job) (h : m ≠ n) : (s.setJob n j).job m = s.job m := Tab.get_put_ne _ _ _ h

/-! ### The event ring of a partition (R326) -/

/-- An event counts, as written or as dropped, and changes nothing else of its partition; other partitions keep all. -/
theorem State.frEvent_part (s : State) (p kind data : Nat) (jobid : Word) (detail : Option Nat) : let t := s.frEvent p kind data jobid detail
    t.part p = { s.part p with evtail := (t.part p).evtail, evdrop := (t.part p).evdrop } ∧ ∀ q, q ≠ p → t.part q = s.part q := by
  unfold State.frEvent
  dsimp only
  split
  · exact ⟨by rw [State.setPart_part_same], fun q hq => State.setPart_part_ne _ _ hq⟩
  · cases detail <;> dsimp only <;> rw [State.write_host, State.setPart_part_same] <;>
      exact ⟨rfl, fun q hq => State.setPart_part_ne _ _ hq⟩

/-- An event changes no unit. -/
theorem State.frEvent_units (s : State) (p kind data : Nat) (jobid : Word) (detail : Option Nat) : let t := s.frEvent p kind data jobid detail
    t.jobs = s.jobs ∧ t.bays = s.bays ∧ t.laths = s.laths := by
  obtain ⟨i, m, x, h, -, -⟩ := State.frEvent_rest s p kind data jobid detail
  dsimp only
  rw [h]
  exact ⟨rfl, rfl, rfl⟩

/-- An event writes no byte outside its own record. -/
theorem State.frEvent_mem (s : State) (p kind data : Nat) (jobid : Word) (detail : Option Nat) :
    SameMemRecs s (s.frEvent p kind data jobid detail) [(s.part p).evAt] := by
  unfold State.frEvent
  dsimp only
  split
  · exact fun _ _ => rfl
  · cases detail <;> dsimp only <;> rw [State.write_host] <;>
      exact fun x hx => Memory.read_writeBytes_outside _ _ _ _ (by simpa [Part.evAt] using hx _ (List.mem_singleton_self _))

/-! ### The next queue (R314) -/

/-- The choice between the best queue so far and the next enabled one with records. -/
def LQueue.better (x : Nat → LQueue) (best : Option Nat) (k : Nat) : Option Nat :=
  match best with
  | some b => if (x b).level < (x k).level then some k else best
  | none => some k

theorem nextQueue_eq (x : Part) : nextQueue x = ((List.range 64).filter fun k => (Tab.get {} x.queues k).en &&
    (Tab.get {} x.queues k).head != (Tab.get {} x.queues k).tail).foldl (LQueue.better fun k => Tab.get {} x.queues k) none := rfl

/-- Over a rising list the choice is the first of the highest LEVEL. -/
theorem LQueue.better_best {x : Nat → LQueue} {q : Nat} : ∀ (l : List Nat) (best : Option Nat), (∀ b ∈ best, ∀ k ∈ l, b < k) → l.Pairwise (· < ·) →
    l.foldl (LQueue.better x) best = some q → ∀ k, k ∈ best ∨ k ∈ l → (x k).level ≤ (x q).level ∧ ((x k).level = (x q).level → q ≤ k)
  | [], best, _, _, h, k, hk => by
    obtain rfl : best = some q := h
    obtain rfl : q = k := by simpa using hk
    exact ⟨Nat.le_refl _, fun _ => Nat.le_refl _⟩
  | c :: l, best, hbest, hl, h, k, hk => by
    obtain ⟨hc, hl⟩ := List.pairwise_cons.mp hl
    have step := LQueue.better_best (x := x) (q := q) l (LQueue.better x best c)
    cases best with
    | none =>
      refine step (fun b hb => by obtain rfl : c = b := by simpa [LQueue.better] using hb
                                  exact hc) hl h k ?_
      simpa [LQueue.better, eq_comm] using hk
    | some b =>
      have hbc := hbest b rfl c (List.mem_cons_self ..)
      by_cases hlevel : (x b).level < (x c).level
      · have hnew : LQueue.better x (some b) c = some c := if_pos hlevel
        rw [hnew] at step
        have hstep := step (fun b' hb' => by cases hb'; exact hc) hl (by simpa [hnew] using h)
        rcases hk with hk | hk
        · cases hk
          have := hstep c (.inl rfl)
          exact ⟨by omega, by omega⟩
        · rcases List.mem_cons.mp hk with rfl | hk
          · exact hstep k (.inl rfl)
          · exact hstep k (.inr hk)
      · have hnew : LQueue.better x (some b) c = some b := if_neg hlevel
        rw [hnew] at step
        have hstep := step (fun b' hb' k hk => by cases hb'; exact hbest b rfl k (List.mem_cons_of_mem _ hk)) hl (by simpa [hnew] using h)
        rcases hk with hk | hk
        · exact hstep k (.inl hk)
        · rcases List.mem_cons.mp hk with rfl | hk
          · have := hstep b (.inl rfl)
            exact ⟨by omega, by omega⟩
          · exact hstep k (.inr hk)

theorem nextQueue_best {x : Part} {q : Nat} (h : nextQueue x = some q) {k : Nat} (hk : k < 64) (hen : (Tab.get {} x.queues k).en = true)
    (hrec : (Tab.get {} x.queues k).head ≠ (Tab.get {} x.queues k).tail) :
    (Tab.get {} x.queues k).level ≤ (Tab.get {} x.queues q).level ∧ ((Tab.get {} x.queues k).level = (Tab.get {} x.queues q).level → q ≤ k) := by
  rw [nextQueue_eq] at h
  exact LQueue.better_best _ none (by simp) (List.pairwise_lt_range.filter _) h k
    (.inr (List.mem_filter.mpr ⟨List.mem_range.mpr hk, by rw [hen, bne_iff_ne.mpr hrec]; rfl⟩))

/-! ### The history and the dependents (R311) -/

/-- What a JOBID that enters the history makes of a waiting job. -/
def Job.settled (j : Job) (p : Nat) (jobid : Word) (ok : Bool) : Job :=
  if j.part = p && j.state == .wait && j.deps.any fun d => d.kind = 3 && !d.isMet && d.c = jobid then
    if ok then { j with deps := j.deps.map fun d => if d.kind = 3 && d.c = jobid then { d with isMet := true } else d } else { j with status := 5 }
  else j

theorem settle_job (p : Nat) (jobid : Word) (ok : Bool) (s : State) (n : Nat) : (settle p jobid ok s).job n = (s.job n).settled p jobid ok :=
  Tab.get_map (f := fun _ j => Job.settled j p jobid ok) (by simp [Job.settled]) s.jobs

theorem Job.settled_state (j : Job) (p : Nat) (jobid : Word) (ok : Bool) : (j.settled p jobid ok).state = j.state := by
  unfold Job.settled
  repeat' split
  all_goals rfl

theorem Job.settled_failed {j : Job} {p : Nat} {jobid : Word} (hpart : j.part = p) (hwait : j.state = .wait)
    (hdep : ∃ d ∈ j.deps, d.kind = 3 ∧ d.isMet = false ∧ d.c = jobid) : (j.settled p jobid false).status = 5 := by
  have hany : (j.deps.any fun d => d.kind = 3 && !d.isMet && d.c = jobid) = true := by
    obtain ⟨d, hd, hkind, hmet, hc⟩ := hdep
    exact List.any_eq_true.mpr ⟨d, hd, by simp [hkind, hmet, hc]⟩
  simp [Job.settled, hpart, hwait, hany]

/-- Where no registration waits, an idle queue keeps its HEAD. -/
theorem queueIdle_head {p q : Nat} {s : State} (h : (s.queue p q).next = none) : ((queueIdle p q s).queue p q).head = (s.queue p q).head := by
  unfold queueIdle
  dsimp only
  split
  · rfl
  · rw [State.setQueue_queue_same, h]

theorem queueIdle_jobs (p q : Nat) (s : State) : ∃ x, queueIdle p q s = { s with parts := x } := (queueIdle_keeps p q s).1

/-! ### Dependences that are noted (R311) -/

/-- Noting dependences changes nothing of a job but them. -/
theorem State.latchDeps_job (s : State) (f : Nat → Job → Dep → Bool) (n : Nat) :
    (s.latchDeps f).job n = { s.job n with deps := ((s.latchDeps f).job n).deps } := by
  have hget : (s.latchDeps f).job n = if (s.job n).state == .wait then
      { s.job n with deps := (s.job n).deps.map fun d => { d with isMet := d.isMet || f n (s.job n) d } } else s.job n :=
    Tab.get_map (f := fun n (j : Job) => if j.state == .wait then { j with deps := j.deps.map fun d => { d with isMet := d.isMet || f n j d } } else j)
      (by simp) s.jobs
  rw [hget]
  split <;> rfl

/-! ### Admission -/

/-- The state in which the record at HEAD has been read. -/
def State.headTaken (s : State) (p q : Nat) : State := s.setQueue p q { s.queue p q with head := ((s.queue p q).head + 1) % 2 ^ (s.queue p q).logn }

/-- The refusal of a record (R312). -/
def refuse (p q code : Nat) (r : List Byte) (s : State) : State :=
  let u := completionRecord p (word (leAt r 40 8)) (word (leAt r 16 8)) 1 0 code 0xFF 0 none s
  if s.knows p (word (leAt r 16 8)) then u else queueIdle p q (settle p (word (leAt r 16 8)) false u)

/-- A job without dependences on tiles asks for none. -/
theorem wantTiles_none {p n : Nat} {s : State} (h : ∀ d ∈ (s.job n).deps, d.kind ≠ 4) : wantTiles p n s = s := by
  have hnone : ((s.job n).deps.filter fun d => d.kind = 4) = [] := List.filter_eq_nil_iff.mpr fun d hd => by simpa using h d hd
  unfold wantTiles
  dsimp only
  rw [hnone]
  rfl

/-- The dependences of an admitted job are those of its record. -/
theorem launchJob_deps_kind {p q : Nat} {r img : List Byte} {s : State} (h : ∀ d ∈ launchDeps r, d.kind ≠ 4) :
    ∀ d ∈ (launchJob p q r img s).deps, d.kind ≠ 4 := by
  intro d hd
  obtain ⟨e, he, rfl⟩ := List.mem_map.mp hd
  have hkind := h e he
  split <;> exact hkind

/-- Noting the counts and the tiles changes nothing of a job but its dependences. -/
theorem State.latched_job (s : State) (p n : Nat) :
    (s.latchCounts.latchTiles p).job n = { s.job n with deps := ((s.latchCounts.latchTiles p).job n).deps } := by
  have hcounts : s.latchCounts.job n = { s.job n with deps := (s.latchCounts.job n).deps } := State.latchDeps_job s _ n
  have htiles : (s.latchCounts.latchTiles p).job n = { s.latchCounts.job n with deps := ((s.latchCounts.latchTiles p).job n).deps } :=
    State.latchDeps_job s.latchCounts _ n
  rw [hcounts] at htiles
  exact htiles

theorem State.latched_rest (s : State) (p : Nat) : ∃ j, s.latchCounts.latchTiles p = { s with jobs := j } := ⟨_, rfl⟩

/-- The entry that an admitted job takes, by a free choice (log 45). -/
def State.entryFor (s : State) (l : List Nat) : Nat := nth (l.headD 0) l (s.fresh.1.toNat % l.length)

theorem State.entryFor_mem (s : State) {l : List Nat} (h : l ≠ []) : s.entryFor l ∈ l := by
  have hlt := Nat.mod_lt s.fresh.1.toNat (List.length_pos_iff.mpr h)
  show l.getD _ _ ∈ l
  rw [List.getD_eq_getElem _ _ hlt]
  exact List.getElem_mem hlt

/-- The scoreboard with the job that the record launches. -/
def State.launched (s : State) (p q : Nat) (r img : List Byte) (n : Nat) : State :=
  { s.fresh.2.setJob n (launchJob p q r img s.fresh.2) with jobClock := s.jobClock + 1 }

/-- The admission of a record into a free entry (R313). -/
def launchInto (p q : Nat) (r img : List Byte) (l : List Nat) (s : State) : State :=
  let n := s.entryFor l
  ((wantTiles p n ((s.launched p q r img n).frEvent p 1 n (word (leAt r 16 8)) none)).latchCounts).latchTiles p

/-- A record that is admitted: its job waits in a free entry, and the event is written. -/
theorem launchInto_launches {p q : Nat} {r img : List Byte} {l : List Nat} {s : State} (hl : l ≠ []) (hdeps : ∀ d ∈ launchDeps r, d.kind ≠ 4) :
    let t := launchInto p q r img l s
    ∃ n ∈ l, t.job n = { launchJob p q r img s.fresh.2 with deps := (t.job n).deps } ∧ (∀ m, m ≠ n → t.job m = { s.job m with deps := (t.job m).deps }) ∧
      t.jobClock = s.jobClock + 1 ∧ (t.part p).queues = (s.part p).queues ∧ t.bays = s.bays ∧ t.laths = s.laths ∧ SameMemRecs s t [(s.part p).evAt] := by
  unfold launchInto
  dsimp only
  have hn := s.entryFor_mem hl
  generalize s.entryFor l = n at hn ⊢
  obtain ⟨i, m, x, hevent, hqueues, -⟩ := State.frEvent_rest (s.launched p q r img n) p 1 n (word (leAt r 16 8)) none
  have hmem := State.frEvent_mem (s.launched p q r img n) p 1 n (word (leAt r 16 8)) none
  generalize (s.launched p q r img n).frEvent p 1 n (word (leAt r 16 8)) none = e at hevent hqueues hmem ⊢
  have hsame : e.job n = launchJob p q r img s.fresh.2 := by
    rw [hevent]
    exact State.setJob_job_same _ _ _
  have hothers : ∀ k, k ≠ n → e.job k = s.job k := fun k hk => by
    rw [hevent]
    exact State.setJob_job_ne _ _ hk
  have hclock : e.jobClock = s.jobClock + 1 := by rw [hevent]; rfl
  have hbays : e.bays = s.bays := by rw [hevent]; rfl
  have hlaths : e.laths = s.laths := by rw [hevent]; rfl
  rw [wantTiles_none (by rw [hsame]; exact launchJob_deps_kind hdeps)]
  have hjob := e.latched_job p
  obtain ⟨j, hrest⟩ := e.latched_rest p
  generalize e.latchCounts.latchTiles p = t at hjob hrest ⊢
  refine ⟨n, hn, by rw [← hsame]; exact hjob n, fun k hk => by rw [← hothers k hk]; exact hjob k, ?_⟩
  rw [hrest]
  exact ⟨hclock, hqueues, hbays, hlaths, hmem⟩

theorem admission_eq {s : State} {p q : Nat} (hup : s.framerUp = true) (hpart : (s.part p).up = true) (hblocked : (s.part p).blocked = false)
    (hfrozen : s.isFrozen p = false) (hslots : s.freeSlots p ≠ []) (hq : nextQueue (s.part p) = some q) : let r := launchRecord (s.queue p q) s
    let img := launchImage r s
    let code := launchCode p (s.queue p q) r img s
    admission p s = if code ≠ 0 then refuse p q code r (s.headTaken p q) else launchInto p q r img (s.freeSlots p) (s.headTaken p q) := by
  obtain ⟨f0, fs, hl⟩ := List.exists_cons_of_ne_nil hslots
  have hguard : (!s.framerUp || !(s.part p).up || (s.part p).blocked || s.isFrozen p) = false := by rw [hup, hpart, hblocked, hfrozen]; rfl
  unfold admission
  simp only [hl, hq, hguard, Bool.false_eq_true, if_false]
  rfl

/-- A record that is refused: the completion record is written, and where the JOBID was unknown it enters the history as one that failed. -/
theorem refuse_refuses {p q code : Nat} {r : List Byte} {s : State} (hnext : (s.queue p q).next = none) : let t := refuse p q code r s
    let crec : Word := word (leAt r 40 8)
    let jobid : Word := word (leAt r 16 8)
    t.recorded crec jobid 1 0 code 255 ∧ (t.part p).msix = (s.part p).msix + 1 ∧ (t.queue p q).head = (s.queue p q).head ∧
      (∀ n, (t.job n).state = (s.job n).state) ∧ t.bays = s.bays ∧ t.laths = s.laths ∧ SameMemRecs s t [hostAddr crec.toNat] ∧
      (s.knows p jobid = false → (t.part p).history.head? = some (jobid, false) ∧ ∀ n, (s.job n).state = .wait → (s.job n).part = p →
        (∃ d ∈ (s.job n).deps, d.kind = 3 ∧ d.isMet = false ∧ d.c = jobid) → (t.job n).status = 5) := by
  obtain ⟨i, l, hl, hrecord⟩ := completionRecord_eq p (word (leAt r 40 8)) (word (leAt r 16 8)) 1 0 code 0xFF 0 none s
  unfold refuse
  dsimp only
  rw [hrecord]
  generalize hu : ({ s with tick := i, mem := Memory.writeBytes s.mem (hostAddr (word (leAt r 40 8)).toNat) (recordHead (word (leAt r 16 8)) 1 0 code 0xFF ++ l) } :
    State).modPart p (fun x => { x with msix := x.msix + 1 }) = u
  have hpart : u.part p = { s.part p with msix := (s.part p).msix + 1 } := by rw [← hu, State.modPart_part_same]; rfl
  have hqueue : u.queue p q = s.queue p q := State.queue_congr (by rw [hpart]) q
  have hjob : ∀ n, u.job n = s.job n := fun n => by rw [← hu]; rfl
  have hbays : u.bays = s.bays := by rw [← hu]; rfl
  have hlaths : u.laths = s.laths := by rw [← hu]; rfl
  have hmem : u.mem = Memory.writeBytes s.mem (hostAddr (word (leAt r 40 8)).toNat) (recordHead (word (leAt r 16 8)) 1 0 code 0xFF ++ l) := by rw [← hu]; rfl
  have hwritten : ∀ t : State, t.mem = u.mem → t.recorded (word (leAt r 40 8)) (word (leAt r 16 8)) 1 0 code 255 ∧
      SameMemRecs s t [hostAddr (word (leAt r 40 8)).toNat] := fun t ht => by
    refine ⟨?_, fun a ha => ?_⟩
    · rw [State.recorded, State.readBytes, ht, hmem]
      exact Memory.readBytes_writeBytes _ _ (recordHead _ _ _ _ _) _
    · rw [ht, hmem]
      refine Memory.read_writeBytes_outside _ _ _ _ ?_
      rw [List.length_append, hl]
      exact ha _ (List.mem_singleton_self _)
  split
  next hknown =>
    exact ⟨(hwritten u rfl).1, by rw [hpart], by rw [hqueue], fun n => by rw [hjob], hbays, hlaths, (hwritten u rfl).2,
      fun h => absurd (hknown.symm.trans h) (by decide)⟩
  next =>
    have hsettle := settle_part p (word (leAt r 16 8)) false u
    have hsettleJob := settle_job p (word (leAt r 16 8)) false u
    have hidle : ∃ x j, settle p (word (leAt r 16 8)) false u = { u with parts := x, jobs := j } := ⟨_, _, rfl⟩
    generalize settle p (word (leAt r 16 8)) false u = v at hsettle hsettleJob hidle ⊢
    have hvqueue : v.queue p q = u.queue p q := State.queue_congr (by rw [hsettle]) q
    obtain ⟨⟨y, hqueueIdle⟩, hmsix, hhistory⟩ := queueIdle_keeps p q v
    have hhead := queueIdle_head (p := p) (q := q) (s := v) (by rw [hvqueue, hqueue, hnext])
    have htjob : ∀ n, (queueIdle p q v).job n = (u.job n).settled p (word (leAt r 16 8)) false := fun n => by
      rw [hqueueIdle]
      exact hsettleJob n
    have htrest : (queueIdle p q v).mem = u.mem ∧ (queueIdle p q v).bays = u.bays ∧ (queueIdle p q v).laths = u.laths := by
      obtain ⟨x, j, rfl⟩ := hidle
      rw [hqueueIdle]
      exact ⟨rfl, rfl, rfl⟩
    obtain ⟨htmem, htbays, htlaths⟩ := htrest
    refine ⟨(hwritten _ htmem).1, by rw [hmsix, hsettle, hpart], by rw [hhead, hvqueue, hqueue], fun n => ?_, htbays.trans hbays, htlaths.trans hlaths,
      (hwritten _ htmem).2, fun _ => ⟨by rw [hhistory, hsettle]; rfl, fun n hwait hp hdep => ?_⟩⟩
    · rw [htjob, Job.settled_state, hjob]
    · rw [htjob, hjob]
      exact Job.settled_failed hp hwait hdep

/-- Settles O44: the next queue is the first of the highest LEVEL, and its record at HEAD is admitted or refused. -/
theorem jobAdmission : Obligations.JobAdmission := by
  unfold Obligations.JobAdmission
  intro s p q x y r img code crec jobid hup hpart hblocked hfrozen hslots hq
  have hadmission := admission_eq hup hpart hblocked hfrozen hslots hq
  have htaken : (s.headTaken p q).part p = { x with queues := Tab.put x.queues q { y with head := (y.head + 1) % 2 ^ y.logn } } :=
    State.setQueue_part_same _ _ _ _
  have hhead : (s.headTaken p q).queue p q = { y with head := (y.head + 1) % 2 ^ y.logn } := State.setQueue_queue_same _ _ _ _
  have hknows : (s.headTaken p q).knows p jobid = s.knows p jobid := by
    unfold State.knows
    rw [htaken]
    rfl
  have hexec : exec (.admission p) s = .next (admission p s) := rfl
  refine ⟨fun k hk hen hrec => nextQueue_best hq hk hen hrec, fun hcode hdeps => ?_, fun hcode hnext => ?_⟩
  · obtain ⟨n, hn, hjob, hothers, hclock, hqueues, hbays, hlaths, hmem⟩ := launchInto_launches (p := p) (q := q) (r := r) (img := img) (s := s.headTaken p q) hslots hdeps
    rw [hexec, hadmission, if_neg (not_not_intro hcode)]
    have hqueue := State.queue_congr hqueues
    refine ⟨_, n, hn, rfl, ?_, ?_, ?_, ?_, ?_, ?_, ?_, ?_, ?_, hclock, hothers, ?_, fun k hk => ?_, hbays, hlaths, ?_⟩
    any_goals rw [hjob]; rfl
    · rw [hqueue, hhead]
    · rw [hqueue]
      exact State.setQueue_queue_ne _ _ _ hk
    · rw [htaken] at hmem
      exact hmem
  · obtain ⟨hrecord, hmsix, hqhead, hstates, hbays, hlaths, hmem, hunknown⟩ := refuse_refuses (p := p) (q := q) (code := code) (r := r)
      (s := s.headTaken p q) (by rw [hhead]; exact hnext)
    rw [hexec, hadmission, if_pos hcode]
    refine ⟨_, rfl, hrecord, by rw [hmsix, htaken], by rw [hqhead, hhead], hstates, hbays, hlaths, hmem, ?_⟩
    rw [← hknows]
    exact hunknown

end Sys2Proof.Machine
end

section
/-! Dependences, aging, time limits and pre-emption (R311, R316, R321, R322). -/

namespace Sys2Proof.Machine

/-- Nothing changes but job `n`, which becomes `j`. -/
def OnlyJob (s t : State) (n : Nat) (j : Job) : Prop := t = { s with jobs := t.jobs } ∧ t.job n = j ∧ ∀ m, m ≠ n → t.job m = s.job m

theorem onlyJob_setJob (s : State) (n : Nat) (j : Job) : OnlyJob s (s.setJob n j) n j :=
  ⟨rfl, State.setJob_job_same _ _ _, fun _ hm => State.setJob_job_ne _ _ hm⟩

section
variable {s : State} {n : Nat} (hup : s.framerUp = true)
include hup

/-! ### Dependences (R311) -/

/-- The dependences of a job with those met that hold now. -/
def State.depsNow (s : State) (n : Nat) : List Dep := (s.job n).deps.map fun d => if d.isMet then d else { d with isMet := depHolds (s.job n).part n d s }

theorem dependenceMet_failed (hwait : (s.job n).state = .wait) (hstatus : (s.job n).status = 5) : dependenceMet n s = leave n 5 0 0 s := by
  simp [dependenceMet, hup, hwait, hstatus]

theorem dependenceMet_eq (hwait : (s.job n).state = .wait) (hstatus : (s.job n).status ≠ 5) : dependenceMet n s =
    if (s.depsNow n).all fun d => d.isMet then
      (s.setJob n { s.job n with deps := s.depsNow n }).setJob n { s.job n with deps := s.depsNow n, state := .ready, readyAt := s.clock, elev := (s.job n).prio }
    else s.setJob n { s.job n with deps := s.depsNow n } := by
  have hguard : ((s.job n).state != .wait || !s.framerUp) = false := by rw [hwait, hup]; rfl
  simp only [dependenceMet, hguard, hstatus, Bool.false_eq_true, if_false]
  rfl

theorem dependenceMet_ready (hwait : (s.job n).state = .wait) (hstatus : (s.job n).status ≠ 5) (hall : ∀ d ∈ s.depsNow n, d.isMet = true) :
    OnlyJob s (dependenceMet n s) n { s.job n with deps := s.depsNow n, state := .ready, readyAt := s.clock, elev := (s.job n).prio } := by
  rw [dependenceMet_eq hup hwait hstatus, if_pos (List.all_eq_true.mpr hall)]
  exact ⟨rfl, State.setJob_job_same _ _ _, fun m hm => (State.setJob_job_ne _ _ hm).trans (State.setJob_job_ne _ _ hm)⟩

theorem dependenceMet_waits (hwait : (s.job n).state = .wait) (hstatus : (s.job n).status ≠ 5) (hsome : ∃ d ∈ s.depsNow n, d.isMet = false) :
    OnlyJob s (dependenceMet n s) n { s.job n with deps := s.depsNow n } := by
  obtain ⟨d, hd, hmet⟩ := hsome
  rw [dependenceMet_eq hup hwait hstatus, if_neg fun h => by simp [List.all_eq_true.mp h d hd] at hmet]
  exact onlyJob_setJob _ _ _

/-! ### Aging (R316) -/

theorem aging_ages (hdet : (s.part (s.job n).part).det = false) (hstate : (s.job n).state = .ready ∨ (s.job n).state = .saved) :
    aging n s = s.setJob n { s.job n with elev := min 7 ((s.job n).prio + (s.clock - (s.job n).readyAt) / (4096 * 3200)) } := by
  have hstays : ((s.job n).state == .ready || (s.job n).state == .saved) = true := by rcases hstate with h | h <;> rw [h] <;> rfl
  simp [aging, hup, hdet, hstays, clkUs]

end

/-! ### The time limit (R321) -/

/-- JOB_TIME is raised in the bays of `l` that run. -/
def State.raiseTime (s : State) (l : List Nat) : State :=
  l.foldl (fun s b => if (s.bay b).live then s.modBay b fun y => y.addPend (jobTimeFault s.clock) else s) s

theorem State.raiseTime_rest (s : State) (l : List Nat) : ∃ y, s.raiseTime l = { s with bays := y } :=
  List.foldlRecOn (motive := fun u : State => ∃ y, u = { s with bays := y }) _ _ ⟨_, rfl⟩ (by
    rintro _ ⟨y, rfl⟩ b -
    split <;> exact ⟨_, rfl⟩)

theorem State.raiseTime_other {s : State} {l : List Nat} {b : Nat} (h : b ∉ l) : (s.raiseTime l).bay b = s.bay b :=
  List.foldlRecOn (motive := fun u : State => u.bay b = s.bay b) _ _ rfl (by
    intro u hu c hc
    split
    · exact (State.modBay_bay_ne _ _ _ (by rintro rfl; exact h hc)).trans hu
    · exact hu)

theorem mem_insertPend_of_mem {f p : PendFault} : ∀ {l : List PendFault}, f ∈ l → f ∈ insertPend p l
  | q :: t, h => by
    unfold insertPend
    split
    · exact List.mem_cons_of_mem _ h
    · rcases List.mem_cons.mp h with rfl | h
      · exact List.mem_cons_self ..
      · exact List.mem_cons_of_mem _ (mem_insertPend_of_mem h)

/-- A bay is told of the time limit and runs on. -/
def Bay.timeTold (y : Bay) : Prop := ∃ f ∈ y.pend, f.rc.cause = 0xA6

/-- A running bay that has been told stays so, and one of the list is told. -/
theorem State.raiseTime_told (b : Nat) : ∀ (l : List Nat) {s : State}, (s.bay b).live = true → (s.bay b).timeTold ∨ b ∈ l → ((s.raiseTime l).bay b).timeTold
  | [], _, _, h => h.elim id fun h => absurd h List.not_mem_nil
  | c :: l, s, hlive, h => by
    refine State.raiseTime_told b l (s := if (s.bay c).live then s.modBay c fun y => y.addPend (jobTimeFault s.clock) else s) ?_ ?_
    · split
      · rw [State.modBay_bay]
        split
        next hb => exact hb ▸ hlive
        · exact hlive
      · exact hlive
    · by_cases hb : b = c
      · subst hb
        refine .inl ?_
        rw [if_pos hlive, State.modBay_bay_same]
        exact ⟨_, Bay.mem_addPend _ _, rfl⟩
      · have hkeeps : (if (s.bay c).live then s.modBay c fun y => y.addPend (jobTimeFault s.clock) else s).bay b = s.bay b := by
          split
          · exact State.modBay_bay_ne _ _ _ hb
          · rfl
        rw [hkeeps]
        exact h.imp_right fun h => (List.mem_cons.mp h).resolve_left hb

theorem State.copies_setJob {s : State} {n : Nat} {j : Job} (htwin : j.twin = (s.job n).twin) : (s.setJob n j).copies n = s.copies n := by
  unfold State.copies
  rw [State.setJob_job_same, htwin]

theorem State.allBays_setJob {s : State} {n : Nat} {j : Job} (htwin : j.twin = (s.job n).twin) (hbays : j.bays = (s.job n).bays) :
    (s.setJob n j).allBays n = s.allBays n := by
  unfold State.allBays
  rw [State.copies_setJob htwin]
  congr 1
  funext k
  rw [State.setJob_job]
  split
  next hk => rw [hbays, hk]
  · rfl

theorem jobTime_eq {s : State} {n : Nat} (hup : s.framerUp = true) (hn : n < 256) (hrun : (s.job n).state = .run) (htime : (s.job n).timeUp = none)
    (hended : (s.job n).ended = false) (hlimit : (s.job n).tlim * 3200 ≤ (s.job n).runTime s.clock) :
    jobTime n s = (s.setJob n { s.job n with timeUp := some s.clock }).raiseTime (s.allBays n) := by
  rw [← State.allBays_setJob (s := s) (n := n) (j := { s.job n with timeUp := some s.clock }) rfl rfl]
  simp [jobTime, hup, Nat.not_le.mpr hn, hrun, htime, hended, clkUs, Nat.not_lt.mpr hlimit, State.raiseTime]

/-- The time limit of a job in RUN: it is noted, and JOB_TIME waits in each bay that runs. -/
theorem jobTime_tells {s : State} {n : Nat} (hup : s.framerUp = true) (hn : n < 256) (hrun : (s.job n).state = .run) (htime : (s.job n).timeUp = none)
    (hended : (s.job n).ended = false) (hlimit : (s.job n).tlim * 3200 ≤ (s.job n).runTime s.clock) : let t := jobTime n s
    t.job n = { s.job n with timeUp := some s.clock } ∧ SameMem s t ∧ (∀ b ∈ s.allBays n, (s.bay b).live = true → (t.bay b).timeTold) ∧
      ∀ b, b ∉ s.allBays n → t.bay b = s.bay b := by
  dsimp only
  rw [jobTime_eq hup hn hrun htime hended hlimit]
  refine ⟨?_, ?_, fun b hb hlive => State.raiseTime_told b _ hlive (.inr hb), fun b hb => State.raiseTime_other hb⟩
  · obtain ⟨y, hy⟩ := State.raiseTime_rest (s.setJob n { s.job n with timeUp := some s.clock }) (s.allBays n)
    rw [hy]
    exact State.setJob_job_same _ _ _
  · obtain ⟨y, hy⟩ := State.raiseTime_rest (s.setJob n { s.job n with timeUp := some s.clock }) (s.allBays n)
    rw [hy]
    exact fun _ => rfl

/-! ### Kills (R321, R450) -/

/-- A job that JOB_KILL ends. -/
def Job.killed (j : Job) : Job := { j with status := 3, cause := 0xF1, fbay := 0xFF, frec := 0, ended := true }

theorem killJob_saving {s : State} {n : Nat} (hrun : (s.job n).state = .run) (hended : (s.job n).ended = false) (hstop : (s.job n).stopping = true) :
    killJob n s = s.setJob n (s.job n).killed := by
  simp [killJob, hrun, hended, hstop, Job.killed]

theorem killJob_stops {s : State} {n : Nat} (hstate : (s.job n).holds) (hended : (s.job n).ended = false)
    (hstop : (s.job n).stopping = false ∨ (s.job n).state ≠ .run) :
    killJob n s = ((s.setJob n (s.job n).killed).dropWork (s.copies n)).modJob n fun j => { j with stopping := false } := by
  have hnot : ((s.job n).state == .wait || (s.job n).state == .ready) = false := by rcases hstate with h | h | h <;> rw [h] <;> rfl
  have hsave : ((s.job n).stopping && (s.job n).state == .run) = false := by
    rcases hstop with h | h
    · rw [h]
      rfl
    · rw [beq_false_of_ne h, Bool.and_false]
  rw [← State.copies_setJob (s := s) (n := n) (j := (s.job n).killed) rfl]
  simp only [killJob, hnot, hended, hsave, Bool.false_eq_true, if_false]
  rfl

/-- A job that a kill ends in its bays: they stop, and so do the updates of its laths. -/
structure Killed (s t : State) (n : Nat) : Prop where
  job : (t.job n).status = 3 ∧ (t.job n).cause = 0xF1 ∧ (t.job n).ended = true
  mem : SameMem s t
  stops : ∀ b, ∀ k ∈ s.copies n, (s.bay b).slot = some k → (t.bay b).live = false ∧ ∀ e ∈ engines, ((t.bay b).stream e).run = false
  others : ∀ b, (∀ k ∈ s.copies n, (s.bay b).slot ≠ some k) → t.bay b = s.bay b
  laths : ∀ k, (s.lathAt k).slot = some n → (t.lathAt k).updates = [] ∧ (t.lathAt k).hlt = (s.lathAt k).hlt

theorem killJob_killed {s : State} {n : Nat} (hstate : (s.job n).holds) (hended : (s.job n).ended = false)
    (hstop : (s.job n).stopping = false ∨ (s.job n).state ≠ .run) : Killed s (killJob n s) n := by
  rw [killJob_stops hstate hended hstop]
  have hself : n ∈ s.copies n := List.mem_cons_self ..
  have hbay := State.dropWork_bay (s.setJob n (s.job n).killed) (s.copies n)
  have hlath := State.dropWork_lathAt (s.setJob n (s.job n).killed) (s.copies n)
  have hjob : ((s.setJob n (s.job n).killed).dropWork (s.copies n)).job n = (s.job n).killed := State.setJob_job_same _ _ _
  have hmem : ((s.setJob n (s.job n).killed).dropWork (s.copies n)).mem = s.mem := rfl
  generalize (s.setJob n (s.job n).killed).dropWork (s.copies n) = u at hbay hlath hjob hmem ⊢
  refine ⟨?_, fun a => congrArg (Memory.read · a) hmem, fun b k hk hslot => ?_, fun b hb => ?_, fun k hk => ?_⟩
  · rw [State.modJob_job_same, hjob]
    exact ⟨rfl, rfl, rfl⟩
  · have hlost : lostTo (s.copies n) (s.bay b).slot = true := by rw [hslot, lostTo_some]; exact hk
    have hb : u.bay b = (s.bay b).stop := (hbay b).trans (if_pos hlost)
    show (u.bay b).live = false ∧ ∀ e ∈ engines, ((u.bay b).stream e).run = false
    rw [hb]
    exact ⟨rfl, Bay.stop_streams _⟩
  · have hkeeps : ¬ lostTo (s.copies n) (s.bay b).slot = true := by
      cases hslot : (s.bay b).slot with
      | none => simp [lostTo]
      | some m =>
        rw [lostTo_some]
        exact fun hm => hb m hm hslot
    exact (hbay b).trans (if_neg hkeeps)
  · have hlost : lostTo (s.copies n) (s.lathAt k).slot = true := by rw [hk, lostTo_some]; exact hself
    have hl : u.lathAt k = { s.lathAt k with updates := [], hop := none, waiting := false } := (hlath k).trans (if_pos hlost)
    show (u.lathAt k).updates = [] ∧ (u.lathAt k).hlt = _
    rw [hl]
    exact ⟨rfl, rfl⟩

theorem jobKill_kills {s : State} {n c : Nat} (hup : s.framerUp = true) (hn : n < 256) (htime : (s.job n).timeUp = some c) (hended : (s.job n).ended = false)
    (hclock : c + 100 * 3200 ≤ s.clock) (hhalted : s.allHalted n = false) : jobKill n s = killJob n s := by
  simp [jobKill, htime, hup, Nat.not_le.mpr hn, hended, clkUs, Nat.not_lt.mpr hclock, hhalted]

/-! ### Pre-emption (R322) -/

/-- A job without a twin that is pre-empted stops, and the event is written. -/
theorem preemptJob_stops {s : State} {n : Nat} (htwin : (s.job n).twin = none) : let t := preemptJob n s
    t.job n = { s.job n with stopping := true } ∧ (∀ m, m ≠ n → t.job m = s.job m) ∧ t.bays = s.bays ∧ t.laths = s.laths ∧
      SameMemRecs s t [(s.part (s.job n).part).evAt] ∧ (t.part (s.job n).part).busy = (s.part (s.job n).part).busy := by
  have hone : preemptJob n s =
      (s.modJob n fun j => { j with stopping := true }).frEvent (s.job n).part 3 0xF0 (s.job n).jobid none := by
    simp only [preemptJob, State.copies, htwin]
    rfl
  dsimp only
  rw [hone]
  generalize hu : (s.modJob n fun j => { j with stopping := true }) = u
  have hpart : u.part (s.job n).part = s.part (s.job n).part := by rw [← hu]; rfl
  obtain ⟨hjobs, hbays, hlaths⟩ := u.frEvent_units (s.job n).part 3 0xF0 (s.job n).jobid none
  have hmem := u.frEvent_mem (s.job n).part 3 0xF0 (s.job n).jobid none
  have hring := (u.frEvent_part (s.job n).part 3 0xF0 (s.job n).jobid none).1
  generalize u.frEvent (s.job n).part 3 0xF0 (s.job n).jobid none = t at hjobs hbays hlaths hmem hring ⊢
  have hjob := State.job_congr hjobs
  refine ⟨?_, fun m hm => ?_, by rw [hbays, ← hu]; rfl, by rw [hlaths, ← hu]; rfl, ?_, by rw [hring, hpart]⟩
  · rw [hjob, ← hu, State.modJob_job_same]
  · rw [hjob, ← hu, State.modJob_job_ne _ _ hm]
  · rw [hpart] at hmem
    exact fun a ha => (hmem a ha).trans (by rw [← hu]; rfl)

/-- Settles O45: each of the Framer's clocks by what its step makes of the job. -/
theorem jobClocks : Obligations.JobClocks := by
  unfold Obligations.JobClocks
  intro s n hup j x onlyJob deps
  refine ⟨fun hwait hstatus => ⟨_, congrArg Host.Outcome.next (dependenceMet_failed hup hwait hstatus), leave_left n 5 0 0 s⟩, fun hwait hstatus =>
    ⟨fun hall => ⟨_, rfl, dependenceMet_ready hup hwait hstatus hall⟩, fun hsome => ⟨_, rfl, dependenceMet_waits hup hwait hstatus hsome⟩⟩,
    fun hdet hstate => ⟨_, congrArg Host.Outcome.next (aging_ages hup hdet hstate), onlyJob_setJob _ _ _⟩,
    fun hn hrun htime hended hlimit => ⟨_, rfl, jobTime_tells hup hn hrun htime hended hlimit⟩,
    fun c hn hstate htime hended hstop hclock hhalted => ?_, fun c hn hrun htime hended hstop hclock hhalted => ?_, fun hpre hvictim htwin => ?_⟩
  · have hholds : (s.job n).holds := by
      rcases hstate with h | h | h
      · exact .inr (.inl h)
      · exact .inl h
      · exact .inr (.inr h)
    obtain ⟨⟨hstatus, hcause, hend⟩, hmem, hstops, hothers, hlaths⟩ := killJob_killed hholds hended (.inl hstop)
    exact ⟨_, congrArg Host.Outcome.next (jobKill_kills hup hn htime hended hclock hhalted), hstatus, hcause, hend, hmem, hstops, hothers, hlaths⟩
  · exact ⟨_, congrArg Host.Outcome.next ((jobKill_kills hup hn htime hended hclock hhalted).trans (killJob_saving hrun hended hstop)), onlyJob_setJob _ _ _⟩
  · obtain ⟨hjob, hothers, hbays, hlaths, hmem, -⟩ := preemptJob_stops (s := s) htwin
    have hstep : preemption n s = preemptJob n s := by simp [preemption, hup, hpre, show victim (s.job n).part s = some n from hvictim]
    exact ⟨_, congrArg Host.Outcome.next hstep, hjob, hothers, hbays, hlaths, hmem⟩

end Sys2Proof.Machine
end

section
/-! Deterministic slots (R319): the entry of a frame starts the job that is READY, but one that has ended stays in LOAD. -/

namespace Sys2Proof.Machine

/-- A job that has ended does not come to run. -/
theorem enterRun_ended {s : State} {n : Nat} (h : (s.job n).ended = true) : enterRun n s = s := by
  simp [enterRun, h]

/-- A deterministic partition with bent 0, whose schedule has one entry, of queue 0 and group 0 in each frame; a frame has begun. -/
def slotPart : Part := { up := true, due := true, desc := [0x101, 0, 0, 0, 0, 0x10010000, 0, 0, 0, 0, 0, 0, 0, 0, 0, 0] }

/-- A READY job that has ended; a kill lets a READY job leave at once and so makes none such, but the statement admits every state. -/
def endedJob : Job := { state := .ready, ended := true }

/-- A device that has booted, with the ended job loaded into the shadow planes of bent 0. -/
def endedSlot : State :=
  { boot := { rdy := true }, parts := [(0, slotPart)], jobs := [(0, endedJob)], bays := (List.range 8).map fun b => (b, { shadowFor := some 0 }) }

/-- The same with the slots taken. -/
def endedSlotTaken : State := endedSlot.modPart 0 fun x => { x with due := false }

theorem endedSlot_schedule : schedule slotPart endedSlotTaken = [⟨0, 0, 0, 0⟩] := by decide +kernel

theorem endedSlot_slotJob : endedSlotTaken.slotJob 0 0 0 [] = some (0, endedJob) := by decide +kernel

theorem endedSlot_waits : ∀ e ∈ endedSlotTaken.board 0, endedSlotTaken.allHalted e.1 = false := by decide +kernel

theorem endedSlot_loaded : ∀ b ∈ [0, 1, 2, 3, 4, 5, 6, 7], (endedSlot.bay b).shadowFor = some 0 ∧ endedSlotTaken.drained b = true := by decide +kernel

/-- The slot is taken, and the job is in LOAD. -/
theorem frameOriginStep_endedSlot : ((frameOriginStep 0 endedSlot).job 0).state = .load := by decide +kernel

/-- Refutes O48: its last clause has the job of the entry run, but it does not say that the job has not ended. In `endedSlot` the bays of an ended READY
job flip and the job stays in LOAD. -/
theorem not_frameOrigin : ¬ Obligations.FrameOrigin := by
  unfold Obligations.FrameOrigin
  rintro ⟨-, hslots⟩
  obtain ⟨-, hentry⟩ := hslots endedSlot 0 rfl
  obtain ⟨-, -, hstarts⟩ := hentry ⟨0, 0, 0, 0⟩ rfl endedSlot_waits endedSlot_schedule (by decide)
  obtain ⟨-, hruns⟩ := hstarts 0 endedJob [0, 1, 2, 3, 4, 5, 6, 7] (by decide) endedSlot_slotJob (by decide) rfl rfl rfl rfl rfl (by decide) rfl
  obtain ⟨t, hexec, hrun, -⟩ := hruns (by decide) (by decide) endedSlot_loaded (by decide) (by decide) (by decide)
  obtain rfl : frameOriginStep 0 endedSlot = t := Host.Outcome.next.inj hexec
  rw [frameOriginStep_endedSlot] at hrun
  cases hrun

end Sys2Proof.Machine
end

section
/-! The host's registers (R308, R352, R353, R443, R449, R450): what a write and a read of each of them does. -/

namespace Sys2Proof.Machine

/-! ### Steps that change one partition -/

/-- Nothing changes but partition `p`'s registers. -/
def OnlyPart (s t : State) (p : Nat) : Prop := t = { s with parts := t.parts } ∧ ∀ r, r ≠ p → t.part r = s.part r

theorem onlyPart_setPart (s : State) (p : Nat) (x : Part) : OnlyPart s (s.setPart p x) p := ⟨rfl, fun _ h => State.setPart_part_ne s x h⟩

theorem OnlyPart.trans {s t u : State} {p : Nat} (h : OnlyPart s t p) (g : OnlyPart t u p) : OnlyPart s u p := by
  obtain ⟨ht, hr⟩ := h
  obtain ⟨hu, gr⟩ := g
  refine ⟨?_, fun r hrp => (gr r hrp).trans (hr r hrp)⟩
  rw [hu, ht]

theorem onlyPart_setQueue (s : State) (p q : Nat) (y : LQueue) : OnlyPart s (s.setQueue p q y) p := onlyPart_setPart _ _ _

/-! ### Launch queues -/

section Queues
variable {s : State} {p q : Nat}

theorem queueRegistration_eq (hup : (s.part p).up = true) (hq : q < 64) (lo hi : Word) : queueRegistration p q lo hi s =
    let t := s.setQueue p q { s.queue p q with next := some (lo, LQueue.accepted lo hi) }
    if s.framerUp then queueIdle p q t else t := by
  have h : (!(s.part p).up || decide (q ≥ 64)) = false := by simp [hup, hq]
  rw [queueRegistration, if_neg (by simpa using h)]
  rfl

/-- A registration of a queue without admitted jobs takes effect (R308). -/
theorem queueRegistration_idle (hup : (s.part p).up = true) (hq : q < 64) (lo hi : Word) (hf : s.framerUp = true) (hidle : s.queueHolds p q = false) :
    let t := queueRegistration p q lo hi s
    OnlyPart s t p ∧ t.queue p q = LQueue.register lo (LQueue.accepted lo hi) ∧ ∀ r, r ≠ q → t.queue p r = s.queue p r := by
  have hholds : (s.setQueue p q { s.queue p q with next := some (lo, LQueue.accepted lo hi) }).queueHolds p q = false := hidle
  intro t
  have ht : t = (s.setQueue p q { s.queue p q with next := some (lo, LQueue.accepted lo hi) }).setQueue p q
      (LQueue.register lo (LQueue.accepted lo hi)) := by
    simp only [t, queueRegistration_eq hup hq, hf, if_true, queueIdle, hholds, Bool.false_eq_true, if_false, State.setQueue_queue_same]
  rw [ht]
  exact ⟨(onlyPart_setQueue _ _ _ _).trans (onlyPart_setQueue _ _ _ _), State.setQueue_queue_same _ _ _ _,
    fun r hr => (State.setQueue_queue_ne _ _ _ hr).trans (State.setQueue_queue_ne _ _ _ hr)⟩

/-- A registration waits while the queue holds admitted jobs, and in a handover (R308, R471). -/
theorem queueRegistration_waits (hup : (s.part p).up = true) (hq : q < 64) (lo hi : Word) (h : s.queueHolds p q = true ∨ s.framerUp = false) :
    let t := queueRegistration p q lo hi s
    OnlyPart s t p ∧ t.queue p q = { s.queue p q with next := some (lo, LQueue.accepted lo hi) } := by
  have ht : queueRegistration p q lo hi s = s.setQueue p q { s.queue p q with next := some (lo, LQueue.accepted lo hi) } := by
    rw [queueRegistration_eq hup hq]
    rcases h with h | h
    · have hholds : (s.setQueue p q { s.queue p q with next := some (lo, LQueue.accepted lo hi) }).queueHolds p q = true := h
      simp [queueIdle, hholds]
    · simp [h]
  dsimp only
  rw [ht]
  exact ⟨onlyPart_setQueue _ _ _ _, State.setQueue_queue_same _ _ _ _⟩

theorem doorbell_good (hup : (s.part p).up = true) (hq : q < 64) {v : Word} (hv : v.toNat < 2 ^ (s.queue p q).logn) :
    doorbell p q v s = s.setQueue p q { s.queue p q with tail := v.toNat } := by
  simp [doorbell, hup, hq, hv]

theorem doorbell_bad {v : Word} (hv : 2 ^ (s.queue p q).logn ≤ v.toNat) : doorbell p q v s = s := by
  simp [doorbell, hv]

/-! ### Where the registers of a VF stand -/

theorem hostWrite_vf (hp : p < 8) {off : Nat} (hoff : off % 8 = 0) (v : Word) :
    hostWrite p off v s = writeVf p off v s := by
  simp [hostWrite, hoff, hp]

theorem writeVf_doorbell (hup : (s.part p).up = true) (hq : q < 64) (v : Word) : writeVf p (0x1000 + 8 * q) v s = doorbell p q v s := by
  have hlo : ¬ 0x1000 + 8 * q < 0x400 := by omega
  have hrange : 0x1000 ≤ 0x1000 + 8 * q ∧ 0x1000 + 8 * q < 0x1200 := by omega
  have hdiv : (0x1000 + 8 * q - 0x1000) / 8 = q := by omega
  simp only [writeVf, hup, Bool.not_true, Bool.false_eq_true, if_false, hlo, hrange, and_self, if_true, hdiv]

theorem writeVf_queue (hup : (s.part p).up = true) (hq : q < 64) {i : Nat} (hi : i < 2) (v : Word) :
    writeVf p (16 * q + 8 * i) v s = writeQueue p q i v s := by
  have hlo : 16 * q + 8 * i < 0x400 := by omega
  have hdiv : (16 * q + 8 * i) / 16 = q := by omega
  have hmod : (16 * q + 8 * i) % 16 / 8 = i := by omega
  simp only [writeVf, hup, Bool.not_true, Bool.false_eq_true, if_false, hlo, if_true, hdiv, hmod]

theorem writeVf_cmd (hup : (s.part p).up = true) (v : Word) : writeVf p 0x2000 v s = writeCmd p v s := by
  simp [writeVf, hup]

/-! ### What a VF reads -/

theorem hostReg_vf (hp : p < 8) {off : Nat} (hoff : off % 8 = 0) : s.hostReg p off = s.vfReg p off := by
  simp [State.hostReg, hoff, hp]

/-- BUSY and RES (R450). -/
theorem vfReg_status (hup : (s.part p).up = true) : s.vfReg p 0x2020 = some (mailStatus (s.part p).busy (s.part p).res) := by
  simp [State.vfReg, hup]

theorem vfReg_evtail (hup : (s.part p).up = true) : s.vfReg p 0x3008 = some (word (s.part p).evtail.toNat) := by
  simp [State.vfReg, hup]

theorem mailStatus_eq (busy : Bool) (res : BitVec 8) : mailStatus busy res = word ((if busy then 1 else 0) + 2 * res.toNat) := by
  rw [mailStatus, b2n, at_]
  congr 1
  omega

/-- Word `i` of chain entry `c` (R352). -/
theorem vfReg_chain (hup : (s.part p).up = true) {c i : Nat} (hc : c < 64) (hi : i < 10) :
    s.vfReg p (0x4000 + 80 * c + 8 * i) = owned (chainPart (s.chain c) == p) chainShows (s.chain c).w i := by
  have h1 : ¬ 0x4000 + 80 * c + 8 * i < 0x400 := by omega
  have h2 : 0x4000 + 80 * c + 8 * i ≠ 0x2000 := by omega
  have h3 : ¬ (0x2008 ≤ 0x4000 + 80 * c + 8 * i ∧ 0x4000 + 80 * c + 8 * i ≤ 0x2018) := by omega
  have h4 : 0x4000 + 80 * c + 8 * i ≠ 0x2020 := by omega
  have h5 : 0x4000 + 80 * c + 8 * i ≠ 0x3000 := by omega
  have h6 : 0x4000 + 80 * c + 8 * i ≠ 0x3008 := by omega
  have h7 : 0x4000 ≤ 0x4000 + 80 * c + 8 * i ∧ 0x4000 + 80 * c + 8 * i < 0x5400 := by omega
  have hdiv : (0x4000 + 80 * c + 8 * i - 0x4000) / 80 = c := by omega
  have hmod : (0x4000 + 80 * c + 8 * i - 0x4000) % 80 / 8 = i := by omega
  simp only [State.vfReg, hup, Bool.not_true, Bool.false_eq_true, if_false, h1, h2, h3, h4, h5, h6, h7, and_self, if_true, hdiv, hmod]

theorem owned_eq (chain : Chain) (i : Nat) : owned (chainPart chain == p) chainShows chain.w i =
    some (if chainPart chain = p then nth 0 chain.w i &&& BitVec.ofNat 64 (nth 0 chainShows i) else 0) := by
  simp [owned, shown]

theorem bootstat_eq (s : State) :
    s.bootstat = word (s.boot.stage.toNat + 16 * s.boot.err.toNat + (if s.boot.rdy then 4096 else 0) + s.remap.defsig.toNat * 2 ^ 32) := by
  rw [State.bootstat]
  congr 1
  cases s.boot.rdy <;> simp [at_, b2n] <;> omega

/-! ### The mailbox's CMD -/

theorem writeCmd_busy (hbusy : (s.part p).busy = true) (v : Word) : writeCmd p v s = s.setPart p { s.part p with res := 3 } := by
  simp [writeCmd, hbusy]

theorem writeCmd_starts (hbusy : (s.part p).busy = false) {v : Word} (hn : 1 ≤ bits v 7 0 ∧ bits v 7 0 ≤ 6) :
    writeCmd p v s = s.setPart p { s.part p with cmd := BitVec.ofNat 8 (bits v 7 0), ops := (s.part p).args, busy := true } := by
  simp [writeCmd, hbusy, hn]

theorem writeCmd_unknown (hbusy : (s.part p).busy = false) {v : Word} (hn : bits v 7 0 = 0 ∨ 6 < bits v 7 0) :
    writeCmd p v s = s.setPart p { s.part p with cmd := BitVec.ofNat 8 (bits v 7 0), res := 1, msix := (s.part p).msix + 1 } := by
  have h : ¬ (1 ≤ bits v 7 0 ∧ bits v 7 0 ≤ 6) := by omega
  simp [writeCmd, hbusy, h]

/-! ### Where the registers of the PF stand -/

theorem hostWrite_pf {off : Nat} (hoff : off % 8 = 0) (v : Word) : hostWrite 8 off v s = writePf off v s := by
  simp [hostWrite, hoff]

/-- The descriptor of a partition that is up keeps what it holds (R446). -/
theorem writePf_descriptor (hup : (s.part p).up = true) (hp : p < 8) {i : Nat} (hi : i < 16) (v : Word) : writePf (0x100 + 128 * p + 8 * i) v s = s := by
  have hrange : 0x100 ≤ 0x100 + 128 * p + 8 * i ∧ 0x100 + 128 * p + 8 * i < 0x500 := by omega
  have hdiv : (0x100 + 128 * p + 8 * i - 0x100) / 128 = p := by omega
  simp [writePf, hrange, hdiv, writeDescriptor, hup]

theorem writePf_partition (hp : p < 8) (v : Word) :
    writePf (0x1000 + 8 * p) v s = if v = 1 then partitionSetup p s else if v = 2 then partitionTeardown p s else s := by
  have h1 : ¬ (0x100 ≤ 0x1000 + 8 * p ∧ 0x1000 + 8 * p < 0x500) := by omega
  have h2 : 0x1000 ≤ 0x1000 + 8 * p ∧ 0x1000 + 8 * p < 0x1040 := by omega
  have hdiv : (0x1000 + 8 * p - 0x1000) / 8 = p := by omega
  simp only [writePf, h1, h2, and_self, if_true, if_false, hdiv]

end Queues

/-! ### Chains (R352, R353) -/

theorem State.setChain_chain_ne (s : State) {c r : Nat} (x : Chain) (h : r ≠ c) : (s.setChain c x).chain r = s.chain r := Tab.get_put_ne _ _ _ h

/-- The jointers of positions below `n` as an enable starts them (R353). -/
def State.startJointers (s : State) (c : Nat) (x : Chain) (n : Nat) : State := (List.range n).foldl (fun s p =>
    match x.codeAt p with
    | some e => s.setJtr c p (startJointer c x.d p e)
    | none => s) s

theorem State.startJointers_succ (s : State) (c : Nat) (x : Chain) (n : Nat) : s.startJointers c x (n + 1) =
    match x.codeAt n with
    | some e => (s.startJointers c x n).setJtr c n (startJointer c x.d n e)
    | none => s.startJointers c x n := by
  rw [State.startJointers, List.range_succ, List.foldl_append]
  rfl

theorem State.startJointers_rest (s : State) (c : Nat) (x : Chain) : ∀ n, ∃ j, s.startJointers c x n = { s with jointers := j }
  | 0 => ⟨_, rfl⟩
  | n + 1 => by
    obtain ⟨j, hj⟩ := State.startJointers_rest s c x n
    rw [State.startJointers_succ, hj]
    split <;> exact ⟨_, rfl⟩

theorem State.startJointers_jtr (s : State) (c : Nat) (x : Chain) {i : Nat} {e : Nat × List (BitVec 32) × List Bool} (he : x.codeAt i = some e) :
    ∀ n, i < n → (s.startJointers c x n).jtr c i = startJointer c x.d i e
  | n + 1, hi => by
    rw [State.startJointers_succ]
    obtain rfl | hlt := Nat.eq_or_lt_of_le (Nat.le_of_lt_succ hi)
    · simp [he]
    · have hkey : jkey c i ≠ jkey c n := by
        simp only [jkey]
        omega
      have ih := State.startJointers_jtr s c x he n hlt
      split
      · exact (State.setJtr_get_ne _ _ _ _ hkey).trans ih
      · exact ih

theorem startJointer_s (c d p : Nat) (e : Nat × List (BitVec 32) × List Bool) (r : Nat) :
    Tab.get 0 (startJointer c d p e).s r = if r = 1 then word c else if r = 2 then word p else if r = 3 then word d else 0 := by
  simp only [startJointer, Tab.get_set]
  by_cases h3 : r = 3
  · subst h3; simp
  · by_cases h2 : r = 2
    · subst h2; simp
    · simp [h2, h3]
      rfl

theorem State.seenIdle_rest (s : State) (kind n : Nat) : ∃ r, s.seenIdle kind n = { s with remap := r } := ⟨_, rfl⟩

theorem Chain.idleUnits_rest (x : Chain) (s : State) : ∃ r, x.idleUnits s = { s with remap := r } := by
  have fold : ∀ (l : List Nat) (s : State), ∃ r, l.foldl (fun s p => s.seenIdle 1 (x.jnum p)) s = { s with remap := r } := by
    intro l
    induction l with
    | nil => exact fun s => ⟨_, rfl⟩
    | cons p l ih =>
      intro s
      obtain ⟨r, hr⟩ := ih (s.seenIdle 1 (x.jnum p))
      exact ⟨r, hr⟩
  obtain ⟨r, hr⟩ := fold (List.range x.d) (s.seenIdle (if x.src = 0 then 2 else 3) x.port)
  exact ⟨r, hr⟩

/-- A chain as an enable leaves it. -/
def Chain.started (x : Chain) (s : State) : Chain :=
  { x with w := x.w.set 0 (nth 0 x.w 0 ||| 1), inFrame := false, next := 0, lineStart := none, frames := 0, wanted := none, lastEnd := s.clk.time
           period := periodOf x s }

theorem State.startChain_eq (s : State) (c : Nat) : let t := (s.chain c).idleUnits s.latchCounts
    s.startChain c = ((t.startJointers c (s.chain c) (s.chain c).d).setChain c
      ((s.chain c).started (t.startJointers c (s.chain c) (s.chain c).d))).setRow c 0 := rfl

section Chains
variable {s : State} {p c : Nat}

/-- An enable of a good entry starts its jointers (R353). -/
theorem State.startChain_starts (s : State) (c : Nat) : let t := s.startChain c
    (t.chain c).w = (s.chain c).w.set 0 (nth 0 (s.chain c).w 0 ||| 1) ∧ (t.chain c).inFrame = false ∧ t.rowWord c = 0 ∧
    (∀ r, r ≠ c → t.chain r = s.chain r) ∧ SameMem s t ∧
    ∀ i e, i < (s.chain c).d → (s.chain c).codeAt i = some e → t.jtr c i = startJointer c (s.chain c).d i e := by
  intro t
  have ht : t = _ := State.startChain_eq s c
  obtain ⟨r, hr⟩ := Chain.idleUnits_rest (s.chain c) s.latchCounts
  have hjtr := fun i e he => State.startJointers_jtr ((s.chain c).idleUnits s.latchCounts) c (s.chain c) (i := i) (e := e) he (s.chain c).d
  obtain ⟨j, hj⟩ := State.startJointers_rest ((s.chain c).idleUnits s.latchCounts) c (s.chain c) (s.chain c).d
  generalize ((s.chain c).idleUnits s.latchCounts).startJointers c (s.chain c) (s.chain c).d = u at hj hjtr ht
  rw [ht]
  have hchains : u.chains = s.chains := by rw [hj, hr]; rfl
  have hmem : u.mem = s.mem := by rw [hj, hr]; rfl
  have hchain : ((u.setChain c ((s.chain c).started u)).setRow c 0).chain c = (s.chain c).started u := Tab.get_put_same _ _ _ _
  refine ⟨by rw [hchain]; rfl, by rw [hchain]; rfl, Tab.get_set_same (0 : Word) _ c 0, fun r hrc => ?_, fun a => ?_, fun i e hi he => hjtr i e he hi⟩
  · have hr : u.chain r = s.chain r := congrArg (Tab.get ({} : Chain) · r) hchains
    exact (State.setChain_chain_ne u _ hrc).trans hr
  · exact congrArg (Memory.read · a) hmem

theorem chainGood_code (h : chainGood p c s = true) {i : Nat} (hi : i < (s.chain c).d) : ∃ e, (s.chain c).codeAt i = some e := by
  simp only [chainGood, Bool.and_eq_true, List.all_eq_true] at h
  obtain ⟨⟨⟨⟨-, -⟩, -⟩, hall⟩, -⟩ := h
  exact Option.isSome_iff_exists.1 (hall i (List.mem_range.2 hi)).1.1

theorem chainEnable_eq (hup : (s.part p).up = true) (hc : c < 64) (hen : chainEn (s.chain c) = false) : chainEnable p c s =
    if !s.framerUp then s.setChain c { s.chain c with wanted := some p } else if chainGood p c s then s.startChain c else chainRefused c s := by
  have h : ((!(s.part p).up || decide (c ≥ 64)) || chainEn (s.chain c)) = false := by simp [hup, hc, hen]
  rw [chainEnable, if_neg (by simpa using h)]

theorem nth_set_zero {l : List Word} (h : l ≠ []) (v : Word) : nth 0 (l.set 0 v) 0 = v := by
  obtain _ | ⟨x, l⟩ := l
  · exact absurd rfl h
  · rfl

theorem chainEn_ne_nil {x : Chain} (h : chainEn x = true) : x.w ≠ [] := by
  rintro hw
  simp [chainEn, hw, nth, bit] at h

/-- A disable clears EN (R353). -/
theorem chainDisable_disables (hup : (s.part p).up = true) (hen : chainEn (s.chain c) = true) (hp : chainPart (s.chain c) = p) :
    let t := chainDisable p c s
    chainEn (t.chain c) = false ∧ t = { s with chains := t.chains } ∧ ∀ r, r ≠ c → t.chain r = s.chain r := by
  have h : chainDisable p c s = s.setChain c { s.chain c with w := (s.chain c).w.set 0 (nth 0 (s.chain c).w 0 &&& 0xFFFFFFFFFFFFFFFE) } := by
    simp [chainDisable, hup, hen, hp]
  dsimp only
  rw [h]
  refine ⟨?_, rfl, fun r hr => State.setChain_chain_ne _ _ hr⟩
  rw [State.setChain_chain_same, chainEn, nth_set_zero (chainEn_ne_nil hen), bit_zero_and_clear]

end Chains

/-- Settles O53: each register by its place in its window, and each write by the rule for its register. -/
theorem hostRegisters : Obligations.HostRegisters := by
  unfold Obligations.HostRegisters
  intro s p q c lo hi v hup
  refine ⟨fun hq => ⟨fun hf hidle => ?_, fun h => ?_, fun hv => ?_, fun hv => congrArg Host.Outcome.next (doorbell_bad hv), fun hp => ⟨?_, ?_, ?_⟩⟩,
    fun hp => ⟨?_, ?_, fun i hi hc => ?_⟩, fun off hrdy hp => ?_, ?_, fun hc hf hen => ⟨fun hgood => ?_, fun hbad => ?_⟩, fun hc hf hen => ?_,
    fun hen hp => ?_, fun hp => ⟨fun hbusy => ?_, fun hbusy hn => ?_, fun hbusy hn => ?_, fun i hi => ?_, ?_, ?_⟩⟩
  · obtain ⟨honly, hreg, hothers⟩ := queueRegistration_idle hup hq lo hi hf hidle
    exact ⟨_, rfl, honly, hreg, hothers⟩
  · obtain ⟨honly, hreg⟩ := queueRegistration_waits hup hq lo hi h
    exact ⟨_, rfl, honly, hreg⟩
  · exact ⟨_, congrArg Host.Outcome.next (doorbell_good hup hq hv), onlyPart_setQueue _ _ _ _, State.setQueue_queue_same _ _ _ _,
      fun r hr => State.setQueue_queue_ne _ _ _ hr⟩
  · exact congrArg Host.Outcome.next ((hostWrite_vf hp (by omega) v).trans (writeVf_doorbell hup hq v))
  · exact congrArg Host.Outcome.next ((hostWrite_vf hp (by omega) lo).trans (writeVf_queue hup hq (i := 0) (by decide) lo))
  · exact congrArg Host.Outcome.next ((hostWrite_vf hp (by omega) hi).trans (writeVf_queue hup hq (i := 1) (by decide) hi))
  · rw [hostReg_vf hp (by decide), vfReg_status hup, mailStatus_eq]
  · rw [hostReg_vf hp (by decide), vfReg_evtail hup]
  · rw [hostReg_vf hp (by omega), vfReg_chain hup hc hi, owned_eq]
  · simp [State.hostRead, hrdy, hp]
  · exact congrArg some (bootstat_eq s)
  · obtain ⟨hw, hframe, hrow, hothers, hmem, hjtr⟩ := State.startChain_starts s c
    refine ⟨s.startChain c, congrArg Host.Outcome.next ?_, hw, hframe, hrow, hothers, hmem, fun i hi => ?_⟩
    · simp [chainEnable_eq hup hc hen, hf, hgood]
    · obtain ⟨e, he⟩ := chainGood_code hgood hi
      rw [hjtr i e hi he]
      exact ⟨e, he, rfl, rfl, rfl, startJointer_s _ _ _ _⟩
  · refine ⟨chainRefused c s, congrArg Host.Outcome.next ?_, State.setChain_chain_same _ _ _, fun r hr => State.setChain_chain_ne _ _ hr, rfl⟩
    simp [chainEnable_eq hup hc hen, hf, hbad]
  · refine ⟨s.setChain c { s.chain c with wanted := some p }, congrArg Host.Outcome.next ?_, State.setChain_chain_same _ _ _,
      fun r hr => State.setChain_chain_ne _ _ hr, rfl⟩
    simp [chainEnable_eq hup hc hen, hf]
  · exact ⟨_, rfl, chainDisable_disables hup hen hp⟩
  · exact ⟨_, congrArg Host.Outcome.next ((hostWrite_vf hp (by decide) v).trans ((writeVf_cmd hup v).trans (writeCmd_busy hbusy v))),
      onlyPart_setPart _ _ _, State.setPart_part_same _ _ _⟩
  · exact ⟨_, congrArg Host.Outcome.next ((hostWrite_vf hp (by decide) v).trans ((writeVf_cmd hup v).trans (writeCmd_starts hbusy hn))),
      onlyPart_setPart _ _ _, State.setPart_part_same _ _ _⟩
  · refine ⟨_, congrArg Host.Outcome.next ((hostWrite_vf hp (by decide) v).trans ((writeVf_cmd hup v).trans (writeCmd_unknown hbusy hn))),
      onlyPart_setPart _ _ _, ?_⟩
    rw [State.setPart_part_same]
    exact ⟨rfl, hbusy, rfl⟩
  · exact congrArg Host.Outcome.next ((hostWrite_pf (by omega) v).trans (writePf_descriptor hup hp hi v))
  · exact congrArg Host.Outcome.next ((hostWrite_pf (by omega) 1).trans (writePf_partition hp 1))
  · exact congrArg Host.Outcome.next ((hostWrite_pf (by omega) 2).trans (writePf_partition hp 2))

end Sys2Proof.Machine
end

section
/-! The commands of a partition's mailbox (R322, R324, R370, R450). -/

namespace Sys2Proof.Machine

section Mailbox
variable {s : State} {p : Nat}

theorem State.runsCmd_eq {c : Nat} (hup : (s.part p).up = true) (hbusy : (s.part p).busy = true) (hf : s.framerUp = true)
    (hcmd : (s.part p).cmd.toNat = c) : s.runsCmd p c = true := by
  simp [State.runsCmd, hup, hbusy, hf, hcmd]

/-- A command that ends right away. -/
theorem endCommand_ends (s : State) (p res : Nat) : CmdEnds s (endCommand p res s) p (BitVec.ofNat 8 res) := by
  rw [CmdEnds, endCommand_part]
  exact ⟨rfl, rfl, Nat.lt_succ_self _⟩

/-- The end of a command after a step that keeps the messages sent. -/
theorem endCommand_ends_of {t : State} (h : (s.part p).msix ≤ (t.part p).msix) (res : Nat) : CmdEnds s (endCommand p res t) p (BitVec.ofNat 8 res) := by
  rw [CmdEnds, endCommand_part]
  exact ⟨rfl, rfl, Nat.lt_succ_of_le h⟩

theorem endCommand_rest (p res : Nat) (s : State) : ∃ x, endCommand p res s = { s with parts := x } := ⟨_, rfl⟩

/-! ### KILL -/

theorem killCmd_eq {n : Nat} (hruns : s.runsCmd p 2 = true) (hn : s.jobNamed p (s.op p 0) = some n) : killCmd p s = endCommand p 0 (killJob n s) := by
  simp [killCmd, hruns, hn]

theorem killJob_leaves {n : Nat} (h : (s.job n).state = .wait ∨ (s.job n).state = .ready) : killJob n s = leave n 3 0xF1 0 s := by
  rcases h with h | h <;> simp [killJob, h]

/-- The end of a command leaves a job's departure as it is. -/
theorem Left.endCommand {t : State} {n status cause code : Nat} (h : Left s t n status cause code) (res : Nat) :
    Left s (endCommand (s.job n).part res t) n status cause code := by
  obtain ⟨hentry, hrecord, htold, hhistory, hbays, hlaths, hothers, hmem⟩ := h
  refine ⟨hentry, hrecord, ?_, ?_, hbays, hlaths, hothers, hmem⟩
  · rw [endCommand_part]
    exact Nat.lt_succ_of_lt htold
  · rw [endCommand_part]
    exact hhistory

/-- Work that is dropped leaves each partition all but its faults. -/
theorem State.dropWork_part (s : State) (gone : List Nat) (p : Nat) :
    (s.dropWork gone).part p = { s.part p with faults := ((s.dropWork gone).part p).faults } := by
  have h : (s.dropWork gone).part p = { s.part p with faults := (s.part p).faults.filter fun f => !f.slot.toList.any gone.contains } :=
    Tab.get_map (f := fun _ (x : Part) => { x with faults := x.faults.filter fun f => !f.slot.toList.any gone.contains }) (by simp) s.parts
  rw [h]

theorem killJob_msix {n : Nat} (hstate : (s.job n).holds) (hended : (s.job n).ended = false) : ((killJob n s).part p).msix = (s.part p).msix := by
  by_cases hstop : (s.job n).stopping = false ∨ (s.job n).state ≠ .run
  · rw [killJob_stops hstate hended hstop]
    show (((s.setJob n (s.job n).killed).dropWork (s.copies n)).part p).msix = _
    rw [State.dropWork_part]
    rfl
  · simp only [not_or, Bool.not_eq_false, Decidable.not_not] at hstop
    rw [killJob_saving hstop.2 hended hstop.1]
    rfl

/-- A job in LOAD, RUN or SAVED ends with JOB_KILL, a save under way or not. -/
theorem killJob_ends {n : Nat} (hstate : (s.job n).holds) (hended : (s.job n).ended = false) : let t := killJob n s
    ((t.job n).status = 3 ∧ (t.job n).cause = 0xF1 ∧ (t.job n).ended = true) ∧ SameMem s t := by
  by_cases hstop : (s.job n).stopping = false ∨ (s.job n).state ≠ .run
  · exact ⟨(killJob_killed hstate hended hstop).job, (killJob_killed hstate hended hstop).mem⟩
  · simp only [not_or, Bool.not_eq_false, Decidable.not_not] at hstop
    dsimp only
    rw [killJob_saving hstop.2 hended hstop.1, State.setJob_job_same]
    exact ⟨⟨rfl, rfl, rfl⟩, fun _ => rfl⟩

/-! ### PAGE_RESP -/

/-- What the resumption of accesses keeps: the memory, the messages, and of the faults no more than new ones that nobody has been asked for. -/
structure Resumes (s t : State) (p : Nat) : Prop where
  mem : t.mem = s.mem
  msix : (t.part p).msix = (s.part p).msix
  faults : ∀ f ∈ (t.part p).faults, f.asked = true → f ∈ (s.part p).faults

theorem Resumes.refl (s : State) (p : Nat) : Resumes s s p := ⟨rfl, rfl, fun _ h _ => h⟩

theorem Resumes.trans {t u : State} (h : Resumes s t p) (g : Resumes t u p) : Resumes s u p :=
  ⟨g.mem.trans h.mem, g.msix.trans h.msix, fun f hf ha => h.faults f (g.faults f hf ha) ha⟩

theorem resumes_of_parts {t : State} (hmem : t.mem = s.mem) (hparts : t.parts = s.parts) : Resumes s t p := by
  have hpart : t.part p = s.part p := congrArg (Tab.get ({} : Part) · p) hparts
  exact ⟨hmem, by rw [hpart], fun f hf _ => by rwa [hpart] at hf⟩

theorem wantTile_resumes (q n tid tile : Nat) : Resumes s (wantTile q n tid tile s) p := by
  unfold wantTile
  split
  next k m e _ =>
    generalize hg : PageFault.mk .none (BitVec.ofNat 8 (0x40 + 4 * k)) tid tile e s.clock m (some n) 0 none false false s.faultClock false = g
    have hasked : g.asked = false := by rw [← hg]
    refine ⟨rfl, ?_, fun f hf ha => ?_⟩
    · show ((s.modPart q fun x => { x with faults := x.faults ++ [g] }).part p).msix = _
      rw [State.modPart_part]
      split
      next h => rw [h]
      next => rfl
    · change f ∈ ((s.modPart q fun x => { x with faults := x.faults ++ [g] }).part p).faults at hf
      rw [State.modPart_part] at hf
      split at hf
      next h =>
        rw [h]
        obtain hold | hnew := List.mem_append.1 hf
        · exact hold
        · rw [List.mem_singleton.1 hnew, hasked] at ha
          exact absurd ha (by decide)
      next => exact hf
  next => exact Resumes.refl s p

theorem resumeAgent_resumes (f : PageFault) (s : State) (p : Nat) : Resumes s (resumeAgent f s) p := by
  unfold resumeAgent
  split
  case h_6 =>
    split
    · split
      · exact wantTile_resumes ..
      · exact Resumes.refl s p
    · exact Resumes.refl s p
  all_goals exact resumes_of_parts (by rfl) (by rfl)

theorem resumeAgents_resume (l : List PageFault) : ∀ (s : State) (p : Nat), Resumes s (l.foldl (fun s f => resumeAgent f s) s) p := by
  induction l with
  | nil => exact Resumes.refl
  | cons f l ih => exact fun s p => (resumeAgent_resumes f s p).trans (ih _ p)

/-- The state in which the host's answer to PAGE_RESP's page stands. -/
def State.pageAnswered (s : State) (p : Nat) : State :=
  s.modPart p fun x => { x with faults := x.faults.map fun f =>
    if !f.mig && f.asked && f.tid == (s.op p 0).toNat && f.tile == (s.op p 1).toNat then { f with served := true } else f }

theorem pageResp_eq (hruns : s.runsCmd p 3 = true) : pageResp p s = endCommand p 0 (resumeServed p ((s.pageAnswered p).latchTiles p)) := by
  simp only [pageResp, hruns, Bool.not_true, Bool.false_eq_true, if_false]
  rfl

/-- Whether an access may resume is not for the dependences to say. -/
theorem State.canResume_latchTiles (s : State) (p q : Nat) (f : PageFault) : ((s.pageAnswered p).latchTiles q).canResume f = s.canResume f := by
  have hjob : ∀ n, (((s.pageAnswered p).latchTiles q).job n).state = (s.job n).state ∧ (((s.pageAnswered p).latchTiles q).job n).stopping = (s.job n).stopping := by
    intro n
    have h : ((s.pageAnswered p).latchTiles q).job n = _ := State.latchDeps_job (s.pageAnswered p) _ n
    rw [h]
    exact ⟨rfl, rfl⟩
  unfold State.canResume
  split
  next n _ => rw [(hjob n).1, (hjob n).2]
  next => rfl

/-- The accesses for which the host has been asked and that stay are those that may not resume yet. -/
theorem pageResp_stays {f : PageFault} (hf : f ∈ ((resumeServed p ((s.pageAnswered p).latchTiles p)).part p).faults) (hasked : f.asked = true)
    (hmig : f.mig = false) (htid : f.tid = (s.op p 0).toNat) (htile : f.tile = (s.op p 1).toNat) : f.served = true ∧ s.canResume f = false := by
  have hold := (resumeAgents_resume _ _ p).faults f hf hasked
  rw [State.modPart_part_same] at hold
  obtain ⟨hin, hstays⟩ := List.mem_filter.1 hold
  simp only [State.canResume_latchTiles] at hstays
  have hanswered : ((s.pageAnswered p).latchTiles p).part p = (s.pageAnswered p).part p := rfl
  rw [hanswered, State.pageAnswered, State.modPart_part_same] at hin
  obtain ⟨g, -, rfl⟩ := List.mem_map.1 hin
  have hserved : (if !g.mig && g.asked && g.tid == (s.op p 0).toNat && g.tile == (s.op p 1).toNat then { g with served := true } else g).served = true := by
    by_cases hhit : (!g.mig && g.asked && g.tid == (s.op p 0).toNat && g.tile == (s.op p 1).toNat) = true
    · rw [if_pos hhit]
    · rw [if_neg hhit] at hasked hmig htid htile
      exact absurd (by simp [hasked, hmig, htid, htile]) hhit
  rw [hserved, Bool.true_and, Bool.not_eq_true'] at hstays
  exact ⟨hserved, hstays⟩

theorem resumeServed_mem (q : Nat) (t : State) : (resumeServed q t).mem = t.mem := (resumeAgents_resume _ _ q).mem

theorem resumeServed_msix (q : Nat) (t : State) : ((resumeServed q t).part q).msix = (t.part q).msix := by
  rw [resumeServed, (resumeAgents_resume _ _ q).msix, State.modPart_part_same]

/-- PAGE_RESP ends at once; what it resumes keeps the memory. -/
theorem pageResp_ends (hruns : s.runsCmd p 3 = true) : CmdEnds s (pageResp p s) p 0 ∧ SameMem s (pageResp p s) := by
  have hmsix : ((resumeServed p ((s.pageAnswered p).latchTiles p)).part p).msix = (s.part p).msix := by
    have hanswered : ((s.pageAnswered p).latchTiles p).part p = (s.pageAnswered p).part p := rfl
    rw [resumeServed_msix, hanswered, State.pageAnswered, State.modPart_part_same]
  rw [pageResp_eq hruns]
  exact ⟨endCommand_ends_of (Nat.le_of_eq hmsix.symm) 0, fun a => congrArg (Memory.read · a) (resumeServed_mem p ((s.pageAnswered p).latchTiles p))⟩

/-! ### SENSOR -/

theorem readBytes_take (m : Memory) : ∀ (n k a : Nat), (Memory.readBytes m a k).take n = Memory.readBytes m a (min n k)
  | 0, _, _ => by simp [Memory.readBytes]
  | _, 0, _ => by simp [Memory.readBytes]
  | n + 1, k + 1, a => by
    rw [Nat.succ_min_succ]
    exact congrArg _ (readBytes_take m n k (a + 1))

/-- The bytes that go up the uplink: their number stands before them (R450). -/
theorem uplinkBytes (m : Memory) (a n : Nat) (hn : n ≤ 62) : ((Memory.readBytes m a 64).drop 1).take n = Memory.readBytes m (a + 1) n := by
  have h := readBytes_take m n 63 (a + 1)
  rw [Nat.min_eq_left (by omega)] at h
  exact h

theorem sensorCmd_refused (hruns : s.runsCmd p 5 = true) (h : 23 < (s.op p 0).toNat ∨ s.usesPort p (s.op p 0).toNat = false) :
    sensorCmd p s = endCommand p 2 s := by
  have hcond : ((decide ((s.op p 0).toNat > 23)) || !s.usesPort p (s.op p 0).toNat) = true := by simpa using h
  simp only [sensorCmd, hruns, Bool.not_true, Bool.false_eq_true, if_false, hcond, if_true]

theorem sensorCmd_sends (hruns : s.runsCmd p 5 = true) (hport : (s.op p 0).toNat ≤ 23) (huses : s.usesPort p (s.op p 0).toNat = true)
    (hidle : (s.port (s.op p 0).toNat).uplinkBusy = none) : sensorCmd p s = s.setPort (s.op p 0).toNat { s.port (s.op p 0).toNat with
      uplink := s.readBytes (hostAddr (s.op p 1).toNat + 1) (min (Memory.read s.mem (hostAddr (s.op p 1).toNat)).toNat 62)
      uplinkBusy := some (p, (s.op p 1).toNat) } := by
  have hbytes := uplinkBytes s.mem (hostAddr (s.op p 1).toNat) (min (Memory.read s.mem (hostAddr (s.op p 1).toNat)).toNat 62) (Nat.min_le_right _ _)
  have hcond : ((decide ((s.op p 0).toNat > 23)) || !s.usesPort p (s.op p 0).toNat) = false := by simp [Nat.not_lt.mpr hport, huses]
  simp only [sensorCmd, hruns, hcond, hidle, Bool.not_true, Option.any_none, Bool.and_false, Option.isSome_none, Bool.false_eq_true, if_false]
  rw [State.readBytes, State.readBytes, ← hbytes]
  rfl

/-- The reply is written over the buffer, and the command ends (R450). -/
theorem uplinkReply_ends {port a : Nat} (reply : List (BitVec 8)) (hruns : s.runsCmd p 5 = true) (hf : s.framerUp = true)
    (hsent : (s.port port).uplinkBusy = some (p, a)) (hanswered : (s.port port).answered = false) : let t := uplinkReply port reply s
    CmdEnds s t p 0 ∧ (t.port port).uplinkBusy = none ∧ t.mem = Memory.writeBytes s.mem (hostAddr a) (reply.take 64) := by
  have hends : uplinkReply port reply s = endCommand p 0
      ((s.setPort port { s.port port with uplink := [], uplinkBusy := none, answered := false }).write (hostAddr a) (reply.take 64)) := by
    have hstill : ((s.setPort port { s.port port with uplink := [], uplinkBusy := none, answered := false }).write (hostAddr a) (reply.take 64)).runsCmd p 5 = true := by
      rw [State.write_host]
      exact hruns
    simp only [uplinkReply, hsent, hanswered, hf, Bool.not_true, Bool.and_false, Bool.false_eq_true, if_false, hstill, if_true]
  dsimp only
  rw [hends, State.write_host]
  exact ⟨endCommand_ends_of (Nat.le_refl _) 0, congrArg Port.uplinkBusy (State.setPort_port_same s port _), rfl⟩

/-! ### CHAINCODE -/

/-- The records of an image that are for the operand's chain. -/
def State.chainImage (s : State) (p : Nat) : List Byte := s.readBytes (hostAddr (s.op p 1).toNat) (s.op p 2).toNat

theorem chainCode_refused (hruns : s.runsCmd p 6 = true)
    (h : 63 < (s.op p 0).toNat ∨ chainEn (s.chain (s.op p 0).toNat) = true ∨ imgUnread (s.chainImage p) = true ∨ imgCrcBad (s.chainImage p) = true ∨
      imgDirBad (s.chainImage p) = true ∨ (chainRecords (s.chainImage p) (s.op p 0).toNat).map chainRecord = []) :
    chainCode p s = endCommand p 2 s := by
  unfold chainCode
  dsimp only
  rw [if_neg (by simp [hruns])]
  split
  · rfl
  next hentry =>
    simp only [ge_iff_le, Bool.or_eq_true, decide_eq_true_eq, not_or, Nat.not_le, Bool.not_eq_true] at hentry
    refine if_pos ?_
    change (imgUnread (s.chainImage p) || imgCrcBad (s.chainImage p) || imgDirBad (s.chainImage p) ||
      ((chainRecords (s.chainImage p) (s.op p 0).toNat).map chainRecord).isEmpty || _ || _) = true
    obtain h | h | h | h | h | h := h
    · exact absurd hentry.1.1 (by omega)
    · rw [hentry.2] at h
      exact absurd h (by decide)
    all_goals simp [h]

theorem chainCode_keeps {e : Nat × List (BitVec 32) × List Bool} (hruns : s.runsCmd p 6 = true) (hc : (s.op p 0).toNat ≤ 63)
    (hlen : (s.op p 2).toNat < 2 ^ 32) (hen : chainEn (s.chain (s.op p 0).toNat) = false) (hread : imgUnread (s.chainImage p) = false)
    (hcrc : imgCrcBad (s.chainImage p) = false) (hdir : imgDirBad (s.chainImage p) = false)
    (hrecs : (chainRecords (s.chainImage p) (s.op p 0).toNat).map chainRecord = [some e]) :
    chainCode p s = endCommand p 0 (s.setChain (s.op p 0).toNat { s.chain (s.op p 0).toNat with code := [e], codePart := some p }) := by
  have hentry : (decide ((s.op p 0).toNat ≥ 64) || decide ((s.op p 2).toNat ≥ 2 ^ 32) || chainEn (s.chain (s.op p 0).toNat)) = false := by
    simp only [hen, Bool.or_false, Bool.or_eq_false_iff, decide_eq_false_iff_not]
    omega
  change imgUnread (s.readBytes _ _) = false at hread
  change imgCrcBad (s.readBytes _ _) = false at hcrc
  change imgDirBad (s.readBytes _ _) = false at hdir
  change (chainRecords (s.readBytes _ _) _).map chainRecord = [some e] at hrecs
  simp only [chainCode, hruns, hentry, hread, hcrc, hdir, hrecs, Bool.not_true, Bool.false_eq_true, if_false]
  rfl

end Mailbox

/-- Settles O54: the six commands, each by what its step makes of the mailbox and of the unit that it is for. -/
theorem mailboxRunsCommands : Obligations.MailboxRunsCommands := by
  unfold Obligations.MailboxRunsCommands
  intro s p hup hbusy hf
  have hruns : ∀ c, (s.part p).cmd.toNat = c → s.runsCmd p c = true := fun c => State.runsCmd_eq hup hbusy hf
  refine ⟨fun hcmd => ⟨fun hnone => ?_, fun n hn hstop hpart htwin => ⟨fun hpre => ?_, fun hpre => ?_⟩⟩,
    fun hcmd => ⟨fun hnone => ?_, fun n hn hpart => ⟨fun hstate => ?_, fun hholds hended => ?_⟩⟩, fun hcmd => ?_, fun hcmd hmail => ?_,
    fun hcmd => ⟨fun hbad => ?_, fun hport huses hidle => ?_⟩, fun port a reply hcmd hsent hanswered => ?_,
    fun hcmd => ⟨fun hbad => ?_, fun e hc hlen hen hread hcrc hdir hrecs => ?_⟩⟩
  · refine ⟨endCommand p 2 s, congrArg Host.Outcome.next ?_, endCommand_ends s p 2, rfl⟩
    simp only [preemptCmd, hruns 1 hcmd, hnone, Bool.not_true, Bool.false_eq_true, if_false]
  · refine ⟨endCommand p 2 s, congrArg Host.Outcome.next ?_, endCommand_ends s p 2, rfl⟩
    simp only [preemptCmd, hruns 1 hcmd, hn, hstop, hpre, Bool.not_true, Bool.false_eq_true, if_false]
  · obtain ⟨hjob, hothers, hbays, -, hmem, hpartBusy⟩ := preemptJob_stops htwin
    rw [hpart] at hmem hpartBusy
    refine ⟨preemptJob n s, congrArg Host.Outcome.next ?_, hjob, hpartBusy.trans hbusy, hmem, hbays, hothers⟩
    simp only [preemptCmd, hruns 1 hcmd, hn, hstop, hpre, Bool.not_true, Bool.false_eq_true, if_false, if_true]
  · refine ⟨endCommand p 2 s, congrArg Host.Outcome.next ?_, endCommand_ends s p 2, rfl⟩
    simp only [killCmd, hruns 2 hcmd, hnone, Bool.not_true, Bool.false_eq_true, if_false]
  · have hleft : Left s (leave n 3 0xF1 0 s) n 3 0xF1 0 := leave_left n 3 0xF1 0 s
    have heq : killCmd p s = endCommand p 0 (leave n 3 0xF1 0 s) := by rw [killCmd_eq (hruns 2 hcmd) hn, killJob_leaves hstate]
    have hends := endCommand_ends_of (Nat.le_of_lt hleft.told) 0
    have hdone := hleft.endCommand 0
    rw [hpart] at hends hdone
    exact ⟨_, congrArg Host.Outcome.next heq, hends, hdone⟩
  · obtain ⟨⟨hstatus, hcause, hend⟩, hmem⟩ := killJob_ends hholds hended
    exact ⟨_, congrArg Host.Outcome.next (killCmd_eq (hruns 2 hcmd) hn), endCommand_ends_of (Nat.le_of_eq (killJob_msix hholds hended).symm) 0,
      hstatus, hcause, hend, hmem⟩
  · refine ⟨pageResp p s, rfl, (pageResp_ends (hruns 3 hcmd)).1, (pageResp_ends (hruns 3 hcmd)).2, fun f hfault => ?_⟩
    rw [pageResp_eq (hruns 3 hcmd), endCommand_part] at hfault
    exact pageResp_stays hfault
  · refine ⟨invalCmd p s, rfl, ?_⟩
    simp only [invalCmd, hruns 4 hcmd, hmail, Bool.not_true, Bool.or_false, Bool.false_eq_true, if_false]
    exact ⟨State.modPart_part_same _ _ _, rfl⟩
  · exact ⟨endCommand p 2 s, congrArg Host.Outcome.next (sensorCmd_refused (hruns 5 hcmd) hbad), endCommand_ends s p 2, rfl⟩
  · refine ⟨_, congrArg Host.Outcome.next (sensorCmd_sends (hruns 5 hcmd) hport huses hidle), ?_, ?_, hbusy, rfl⟩ <;>
      rw [State.setPort_port_same]
  · obtain ⟨hends, hport, hmem⟩ := uplinkReply_ends reply (hruns 5 hcmd) hf hsent hanswered
    refine ⟨uplinkReply port reply s, rfl, hends, fun i hi h64 => ?_, hport, fun y hy => ?_⟩
    · rw [hmem, Memory.read_writeBytes_inside _ _ _ _ (by simp [hi, h64])]
      simp [nth, h64]
    · have hlen : (reply.take 64).length ≤ 64 := List.length_take_le ..
      rw [hmem]
      exact Memory.read_writeBytes_outside _ _ _ _ (by omega)
  · exact ⟨endCommand p 2 s, congrArg Host.Outcome.next (chainCode_refused (hruns 6 hcmd) hbad), endCommand_ends s p 2, rfl⟩
  · exact ⟨_, congrArg Host.Outcome.next (chainCode_keeps (hruns 6 hcmd) hc hlen hen hread hcrc hdir hrecs), endCommand_ends_of (Nat.le_refl _) 0,
      fun _ => rfl, State.setChain_chain_same _ _ _, fun k hk => State.setChain_chain_ne _ _ hk⟩

end Sys2Proof.Machine
end

section
/-! The Foreman's commands (R468 to R470, R475). -/

namespace Sys2Proof.Machine

section Commands
variable {s : State}

/-- A command of the Foreman that ends. -/
theorem endFcmd_ends (res : Nat) (s : State) : FcmdEnds (endFcmd res s) (BitVec.ofNat 8 res) := ⟨rfl, rfl, List.mem_cons_self ..⟩

theorem endFcmd_eq (res : Nat) (s : State) :
    endFcmd res s = { s with foreman := { s.foreman with busy := false, res := BitVec.ofNat 8 res }, pfmsix := 1 :: s.pfmsix } := rfl

theorem State.fruns_eq {c : Nat} (hbusy : s.foreman.busy = true) (hcmd : s.foreman.cmd.toNat = c) : s.fruns c = true := by
  simp [State.fruns, hbusy, hcmd]

/-! ### Slots (R469, R470) -/

@[simp] theorem Foreman.setSlot_slot_same (f : Foreman) (target : Nat) (slot : Bool) (l : List Byte) : (f.setSlot target slot l).slot target slot = l :=
  Tab.get_put_same _ _ _ _

theorem Foreman.setSlot_slot_other (f : Foreman) (target : Nat) (slot : Bool) (l : List Byte) :
    (f.setSlot target (!slot) l).slot target slot = f.slot target slot := by
  refine Tab.get_put_ne _ _ _ ?_
  cases slot <;> simp [slotKey, b2n]

/-- The Foreman's registers as STAGE leaves them, with or without a good image. -/
def Foreman.staged (f : Foreman) (t : Nat) (ok : Bool) (l : List Byte) : Foreman :=
  let g := f.setSlot t (!f.runs t) (if ok then l else [])
  if t = 1 then { g with stg := ok } else g

theorem stage_eq {ok : Bool} (hruns : s.fruns 1 = true) (ht : s.fop 0 ≤ 1) (hn : s.fop 2 ≤ 2097152)
    (hok : fwGood (s.fop 0) (s.foreman.svnMin (s.fop 0)) (s.readBytes (hostAddr (s.fop 1)) (s.fop 2)) = ok) :
    stage s = endFcmd (if ok then 0 else 4) { s with foreman := s.foreman.staged (s.fop 0) ok (s.readBytes (hostAddr (s.fop 1)) (s.fop 2)) } := by
  have hcond : (decide (s.fop 0 > 1) || decide (s.fop 2 > 2097152)) = false := by simp [Nat.not_lt.mpr ht, Nat.not_lt.mpr hn]
  simp only [stage, hruns, hcond, hok, Bool.not_true, Bool.false_eq_true, if_false]
  rfl

theorem Foreman.staged_slot (f : Foreman) (t : Nat) (ok : Bool) (l : List Byte) :
    (f.staged t ok l).slot t (!f.runs t) = (if ok then l else []) ∧ (f.staged t ok l).slot t (f.runs t) = f.slot t (f.runs t) := by
  have hslot : ∀ b, (f.staged t ok l).slot t b = (f.setSlot t (!f.runs t) (if ok then l else [])).slot t b := by
    intro b
    unfold Foreman.staged
    dsimp only
    by_cases h : t = 1
    · rw [if_pos h]
      rfl
    · rw [if_neg h]
  rw [hslot, hslot]
  exact ⟨Foreman.setSlot_slot_same .., Foreman.setSlot_slot_other ..⟩

/-- STG is of the Framer's slot (log 104). -/
theorem Foreman.staged_eq (f : Foreman) {t : Nat} (ht : t ≤ 1) (ok : Bool) (l : List Byte) :
    f.staged t ok l = { f with slots := (f.staged t ok l).slots, stg := if ok then f.stg || t == 1 else f.stg && t == 0 } := by
  obtain rfl | rfl : t = 0 ∨ t = 1 := by omega
  · cases ok <;> simp [Foreman.staged, Foreman.setSlot]
  · cases ok <;> simp [Foreman.staged, Foreman.setSlot]

/-! ### Partitions -/

theorem modPart_endFcmd (s : State) (p : Nat) (g : Part → Part) : let t := endFcmd 0 (s.modPart p g)
    FcmdEnds t 0 ∧ t.part p = g (s.part p) ∧ (∀ q, q ≠ p → t.part q = s.part q) ∧
      t = { s with foreman := { s.foreman with busy := false, res := 0 }, parts := t.parts, pfmsix := t.pfmsix } :=
  ⟨endFcmd_ends 0 _, State.modPart_part_same s p g, fun _ hq => State.modPart_part_ne s g hq, rfl⟩

/-- The freeze of a partition's log ends. -/
def State.thaw (s : State) (p : Nat) : State := s.modPart p fun x => { x with frozen := none, stuck := [], logw0 := x.logw0 &&& ~~~ (8 : Word) }

/-- REPLAY_MISMATCH is raised in bay `b`. -/
def State.raiseMismatch (s : State) (b : Nat) : State := s.modBay b fun y => y.addPend ⟨s.clock, 7, { cause := 0x63 }⟩

theorem bit_and_not_eight (v : Word) : bit (v &&& ~~~ (8 : Word)) 3 = false := by
  have h : (v &&& ~~~ (8 : Word)).getLsbD 3 = false := by simp
  rw [BitVec.getLsbD, Nat.testBit_eq_decide_div_mod_eq] at h
  simpa [bit] using h

theorem logrel_eq {n : Nat} (hruns : s.fruns 4 = true) (hp : s.fop 0 ≤ 7) (hfrozen : (s.part (s.fop 0)).frozen = some n) :
    logrel s = endFcmd 0 (match (s.job n).bays with
      | b :: _ => if (s.bay b).slot == some n && (s.bay b).live then (s.thaw (s.fop 0)).raiseMismatch b else s.thaw (s.fop 0)
      | [] => s.thaw (s.fop 0)) := by
  simp only [logrel, hruns, hfrozen, Nat.not_lt.mpr hp, Bool.not_true, Bool.false_eq_true, if_false]
  rfl

/-- LOGREL ends the freeze, and tells logical bay 0 of the entry's job (R463). -/
theorem logrel_releases {n : Nat} (hruns : s.fruns 4 = true) (hp : s.fop 0 ≤ 7) (hfrozen : (s.part (s.fop 0)).frozen = some n) : let t := logrel s
    FcmdEnds t 0 ∧ (t.part (s.fop 0)).frozen = none ∧ bit (t.part (s.fop 0)).logw0 3 = false ∧ SameMem s t ∧
      ∀ b l, (s.job n).bays = b :: l → (s.bay b).slot = some n → (s.bay b).live = true → (∃ x ∈ (t.bay b).pend, x.rc.cause = 0x63) ∧
        ∀ c, c ≠ b → t.bay c = s.bay c := by
  have hthaw : ∀ u : State, u.part (s.fop 0) = (s.thaw (s.fop 0)).part (s.fop 0) → (u.part (s.fop 0)).frozen = none ∧ bit (u.part (s.fop 0)).logw0 3 = false := by
    intro u hu
    rw [hu, State.thaw, State.modPart_part_same]
    exact ⟨rfl, bit_and_not_eight _⟩
  dsimp only
  rw [logrel_eq hruns hp hfrozen]
  refine ⟨endFcmd_ends 0 _, ?_⟩
  cases hbays : (s.job n).bays with
  | nil =>
    obtain ⟨hnone, hbit⟩ := hthaw (s.thaw (s.fop 0)) rfl
    exact ⟨hnone, hbit, fun _ => rfl, fun b l h => absurd h (by simp)⟩
  | cons b l =>
    dsimp only
    by_cases htold : ((s.bay b).slot == some n && (s.bay b).live) = true
    · rw [if_pos htold]
      obtain ⟨hnone, hbit⟩ := hthaw ((s.thaw (s.fop 0)).raiseMismatch b) rfl
      refine ⟨hnone, hbit, fun _ => rfl, fun c l' hc _ _ => ?_⟩
      obtain ⟨rfl, rfl⟩ := List.cons.inj hc
      refine ⟨⟨⟨s.clock, 7, { cause := 0x63 }⟩, ?_, rfl⟩, fun c hcb => ?_⟩
      · show _ ∈ (((s.thaw (s.fop 0)).raiseMismatch b).bay b).pend
        rw [State.raiseMismatch, State.modBay_bay_same]
        exact Bay.mem_addPend _ _
      · show ((s.thaw (s.fop 0)).raiseMismatch b).bay c = (s.thaw (s.fop 0)).bay c
        rw [State.raiseMismatch, State.modBay_bay_ne _ _ _ hcb]
    · rw [if_neg htold]
      obtain ⟨hnone, hbit⟩ := hthaw (s.thaw (s.fop 0)) rfl
      refine ⟨hnone, hbit, fun _ => rfl, fun c l' hc hslot hlive => ?_⟩
      obtain ⟨rfl, rfl⟩ := List.cons.inj hc
      exact absurd (by simp [hslot, hlive]) htold

end Commands

/-- Settles O55: each command by its checks, and by what it changes where they pass. -/
theorem foremanCommands : Obligations.ForemanCommands := by
  unfold Obligations.ForemanCommands
  intro s hbusy
  have hruns : ∀ c, s.foreman.cmd.toNat = c → s.fruns c = true := fun c => State.fruns_eq hbusy
  refine ⟨fun hcmd => ⟨fun hbad => ?_, fun ht hn => ⟨fun hok => ?_, fun hok => ?_⟩⟩,
    fun hcmd hlive => ⟨fun hbad => ?_, fun ht hnext => ?_⟩, fun hcmd => ⟨fun hbad => ?_, fun hp hfrz hgood => ?_⟩,
    fun hcmd => ⟨fun hbad => ?_, fun hp n hfrozen => ?_⟩, fun hcmd => ⟨fun hbad => ?_, fun hp h0 hmax => ?_⟩,
    fun hcmd => ⟨fun hbad => ?_, fun halign hlo hhi => ?_⟩⟩
  · have hcond : (decide (s.fop 0 > 1) || decide (s.fop 2 > 2097152)) = true := by simpa using hbad
    refine ⟨endFcmd 2 s, congrArg Host.Outcome.next ?_, endFcmd_ends 2 s, rfl⟩
    simp only [stage, hruns 1 hcmd, hcond, Bool.not_true, Bool.false_eq_true, if_false, if_true]
  · have heq := stage_eq (hruns 1 hcmd) ht hn hok
    obtain ⟨hnew, hold⟩ := Foreman.staged_slot s.foreman (s.fop 0) true (s.readBytes (hostAddr (s.fop 1)) (s.fop 2))
    refine ⟨⟨_, congrArg Host.Outcome.next heq, endFcmd_ends 0 _, rfl, ?_⟩, ⟨_, congrArg Host.Outcome.next heq, hnew, hold⟩⟩
    rw [endFcmd_eq]
    dsimp only
    rw [Foreman.staged_eq _ ht]
    rfl
  · have heq := stage_eq (hruns 1 hcmd) ht hn hok
    obtain ⟨hnew, -⟩ := Foreman.staged_slot s.foreman (s.fop 0) false (s.readBytes (hostAddr (s.fop 1)) (s.fop 2))
    refine ⟨⟨_, congrArg Host.Outcome.next heq, endFcmd_ends 4 _, rfl, ?_⟩, ⟨_, congrArg Host.Outcome.next heq, hnew⟩⟩
    rw [endFcmd_eq]
    dsimp only
    rw [Foreman.staged_eq _ ht]
    rfl
  · have hcond : (decide (s.fop 0 > 1) || decide (s.fop 1 > 1)) = true := by simpa using hbad
    refine ⟨endFcmd 2 s, congrArg Host.Outcome.next ?_, endFcmd_ends 2 s, rfl⟩
    simp only [activate, hruns 2 hcmd, hlive, hcond, Bool.not_true, decide_false, Bool.or_false, Bool.false_eq_true, if_false, if_true]
  · refine ⟨endFcmd 0 (s.modForeman fun f => if s.fop 0 = 0 then { f with fmNext := !f.fma } else { f with frNext := !f.fra, stg := false }),
      congrArg Host.Outcome.next ?_, endFcmd_ends 0 _, rfl, rfl⟩
    simp only [activate, hruns 2 hcmd, hnext, Nat.not_lt.mpr ht]
    rfl
  · have hcond : (decide (s.fop 0 > 7) || bit (s.part (s.fop 0)).logw0 3 || logBad (s.part (s.fop 0)) (nth 0 s.foreman.ops 1)) = true := by
      simpa [or_assoc] using hbad
    refine ⟨endFcmd 2 s, congrArg Host.Outcome.next ?_, endFcmd_ends 2 s, rfl⟩
    simp only [logdesc, hruns 3 hcmd, hcond, Bool.not_true, Bool.false_eq_true, if_false, if_true]
  · refine ⟨endFcmd 0 (s.modPart (s.fop 0) fun x => x.setLog (nth 0 s.foreman.ops 1)), congrArg Host.Outcome.next ?_, modPart_endFcmd s _ _⟩
    simp only [logdesc, hruns 3 hcmd, Nat.not_lt.mpr hp, hfrz, hgood]
    rfl
  · refine ⟨endFcmd 2 s, congrArg Host.Outcome.next ?_, endFcmd_ends 2 s, rfl⟩
    simp only [logrel, hruns 4 hcmd, hbad, Bool.not_true, Bool.false_eq_true, if_false, if_true]
  · exact ⟨_, rfl, logrel_releases (hruns 4 hcmd) hp hfrozen⟩
  · have hcond : (decide (s.fop 0 > 7) || decide (s.fop 1 = 0) || decide (s.fop 1 > 3600)) = true := by simpa [or_assoc] using hbad
    refine ⟨endFcmd 2 s, congrArg Host.Outcome.next ?_, endFcmd_ends 2 s, rfl⟩
    simp only [testintCmd, hruns 5 hcmd, hcond, Bool.not_true, Bool.false_eq_true, if_false, if_true]
  · refine ⟨endFcmd 0 (s.modPart (s.fop 0) fun x => { x with testint := s.fop 1 }), congrArg Host.Outcome.next ?_, modPart_endFcmd s _ _⟩
    simp only [testintCmd, hruns 5 hcmd, Nat.not_lt.mpr hp, h0, Nat.not_lt.mpr hmax]
    rfl
  · have hcond : (decide (s.fop 0 % 4096 ≠ 0) || decide (s.fop 1 < 4) || decide (s.fop 1 > 12)) = true := by
      simpa only [Bool.or_eq_true, decide_eq_true_eq, or_assoc] using hbad
    refine ⟨endFcmd 2 s, congrArg Host.Outcome.next ?_, endFcmd_ends 2 s, rfl⟩
    simp only [evring, hruns 6 hcmd, hcond, Bool.not_true, Bool.false_eq_true, if_false, if_true]
  · refine ⟨endFcmd 0 (s.modForeman fun f => { f with evbase := word (s.fop 0), evlog := s.fop 1, evhead := 0, evtail := 0 }),
      congrArg Host.Outcome.next ?_, endFcmd_ends 0 _, rfl, rfl⟩
    simp only [evring, hruns 6 hcmd, halign, Nat.not_lt.mpr hlo, Nat.not_lt.mpr hhi]
    rfl

end Sys2Proof.Machine
end

section
/-! Live update of the Framer (R471 to R473): what the window keeps, and what its end makes of the updated Framer's registers. -/

namespace Sys2Proof.Machine

/-! ### The Foreman's log (R475) -/

theorem State.fmEvent_foreman (s : State) (kind unit : Nat) : let f := (s.fmEvent kind unit).foreman
    f = { s.foreman with evtail := f.evtail, evdrop := f.evdrop } := by
  unfold State.fmEvent
  dsimp only
  split
  · rfl
  · rw [State.write_host]

/-- An event counts, as written or as dropped. -/
theorem fmEvent_logged (s : State) (kind unit : Nat) : FmLogged s (s.fmEvent kind unit) := by
  refine ⟨fmEvent_sameMemRing s kind unit, ?_⟩
  unfold State.fmEvent
  dsimp only
  split
  · exact .inr ⟨rfl, rfl⟩
  · rw [State.write_host]
    exact .inl ⟨rfl, rfl⟩

/-! ### What the Framer keeps of the Foreman as it ends a window -/

/-- The partition waits for no function reset, and its queues are disabled and stay so (R449). -/
def Part.Off (x : Part) : Prop :=
  x.flrAsked = false ∧ ∀ q, (Tab.get {} x.queues q).en = false ∧ ∀ d ∈ (Tab.get {} x.queues q).next, bit d.2 7 = false

/-- The Foreman's registers and the boot's stand, and queues that are off stay off. -/
structure FramerKeeps (s t : State) : Prop where
  foreman : t.foreman = s.foreman
  boot : t.boot = s.boot
  off : ∀ p, (s.part p).Off → (t.part p).Off
  up : ∀ p, (t.part p).up = (s.part p).up

theorem FramerKeeps.refl (s : State) : FramerKeeps s s := ⟨rfl, rfl, fun _ h => h, fun _ => rfl⟩

theorem FramerKeeps.trans {s t u : State} (h : FramerKeeps s t) (g : FramerKeeps t u) : FramerKeeps s u :=
  ⟨g.foreman.trans h.foreman, g.boot.trans h.boot, fun p hp => g.off p (h.off p hp), fun p => (g.up p).trans (h.up p)⟩

theorem framerKeeps_foldl {α : Type} {step : State → α → State} (h : ∀ s x, FramerKeeps s (step s x)) : ∀ (l : List α) (s : State), FramerKeeps s (l.foldl step s)
  | [], s => FramerKeeps.refl s
  | x :: l, s => (h s x).trans (framerKeeps_foldl h l _)

/-- A step that leaves the partitions' queues and reset requests. -/
theorem framerKeeps_of_parts {s t : State} (hforeman : t.foreman = s.foreman) (hboot : t.boot = s.boot)
    (hpart : ∀ p, (t.part p).flrAsked = (s.part p).flrAsked ∧ (t.part p).queues = (s.part p).queues ∧ (t.part p).up = (s.part p).up) : FramerKeeps s t :=
  ⟨hforeman, hboot, fun p h => by
    obtain ⟨hflr, hqueues, -⟩ := hpart p
    rw [Part.Off, hflr, hqueues]
    exact h, fun p => (hpart p).2.2⟩

/-- A step that changes neither the partitions nor the two sets of registers. -/
theorem FramerKeeps.congr {s t u : State} (h : FramerKeeps s t) (hforeman : u.foreman = t.foreman) (hboot : u.boot = t.boot) (hparts : u.parts = t.parts) :
    FramerKeeps s u := by
  have hpart : ∀ p, u.part p = t.part p := fun p => congrArg (Tab.get ({} : Part) · p) hparts
  exact ⟨hforeman.trans h.foreman, hboot.trans h.boot, fun p hp => hpart p ▸ h.off p hp, fun p => (congrArg Part.up (hpart p)).trans (h.up p)⟩

theorem framerKeeps_modPart (s : State) (p : Nat) (f : Part → Part)
    (hf : (f (s.part p)).flrAsked = (s.part p).flrAsked ∧ (f (s.part p)).queues = (s.part p).queues ∧ (f (s.part p)).up = (s.part p).up) :
    FramerKeeps s (s.modPart p f) :=
  framerKeeps_of_parts rfl rfl fun q => by
    rw [State.modPart_part]
    split
    next h => rw [h]; exact hf
    next => exact ⟨rfl, rfl, rfl⟩

/-- A registration that waited takes effect; one that waits for a queue that is off leaves it off. -/
theorem queueIdle_framer (p q : Nat) (s : State) : FramerKeeps s (queueIdle p q s) := by
  unfold queueIdle
  split
  · exact FramerKeeps.refl s
  · refine ⟨rfl, rfl, fun r hoff => ?_, fun r => ?_⟩
    rotate_left
    · rw [State.setQueue, State.modPart_part]
      split
      next h => rw [h]
      next => rfl
    by_cases hr : r = p
    · subst hr
      rw [State.setQueue_part_same]
      refine ⟨hoff.1, fun k => ?_⟩
      dsimp only
      obtain ⟨hen, hnext⟩ := hoff.2 k
      by_cases hk : k = q
      · subst hk
        rw [Tab.get_put_same]
        split
        next lo hi hd => exact ⟨hnext (lo, hi) hd, by simp [LQueue.register]⟩
        next => exact ⟨hen, hnext⟩
      · rw [Tab.get_put_ne _ _ _ hk]
        exact ⟨hen, hnext⟩
    · rw [State.setQueue, State.modPart_part_ne _ _ hr]
      exact hoff

/-! ### A job that leaves or is killed -/

theorem releaseCopy_rest (n : Nat) (s : State) : ∃ j h x ls me mj bs ps ys, releaseCopy n s =
    { s with jobs := j, holds := h, groups := x, laths := ls, meta_ := me, metaJob := mj, bents := bs, parts := ps, bays := ys } := by
  obtain ⟨j, h, x, hgroups⟩ : ∃ j h x, ((s.groups.filter fun e => e.2.slot.toNat = n % 1024 && e.2.part.toNat = (s.job n).part).map fun e => e.1).foldl
      (fun s g => (s.releaseGroup g).setGroup g { (s.releaseGroup g).group g with armed := false, due := [] }) s =
        { s with jobs := j, holds := h, groups := x } :=
    List.foldlRecOn (motive := fun t : State => ∃ j h x, t = { s with jobs := j, holds := h, groups := x }) _ _ ⟨_, _, _, rfl⟩ (by
      rintro _ ⟨j, h, x, rfl⟩ g -
      obtain ⟨j', h', x', hg⟩ := State.releaseGroup_rest { s with jobs := j, holds := h, groups := x } g
      exact ⟨j', h', _, by rw [hg]; rfl⟩)
  unfold releaseCopy
  dsimp only
  rw [hgroups]
  exact ⟨j, h, x, _, _, _, _, _, _, rfl⟩

theorem releaseCopy_framer (s : State) (n : Nat) : FramerKeeps s (releaseCopy n s) := by
  obtain ⟨j, h, x, ls, me, mj, bs, ps, ys, hrest⟩ := releaseCopy_rest n s
  refine framerKeeps_of_parts (by rw [hrest]) (by rw [hrest]) fun p => ?_
  obtain ⟨x, f, m, hpart⟩ := (releaseCopy_released n s).part p
  rw [hpart]
  exact ⟨rfl, rfl, rfl⟩

theorem endPreempt_framer (p : Nat) (jobid : Word) (res : Nat) (s : State) : FramerKeeps s (endPreempt p jobid res s) := by
  unfold endPreempt
  dsimp only
  split
  · exact framerKeeps_modPart s p _ ⟨rfl, rfl, rfl⟩
  · exact FramerKeeps.refl s

theorem settle_framer (p : Nat) (jobid : Word) (ok : Bool) (s : State) : FramerKeeps s (settle p jobid ok s) :=
  (framerKeeps_modPart s p (fun x => { x with history := ((jobid, ok) :: x.history).take 1024 }) ⟨rfl, rfl, rfl⟩).congr rfl rfl rfl

theorem leaveReleased_framer (n status cause code : Nat) (s : State) : FramerKeeps s (leaveReleased n status cause code s) := by
  obtain ⟨i, l, -, hrecord⟩ := completionRecord_eq (s.job n).part (s.job n).crec (s.job n).jobid status cause code (s.job n).fbay.toNat
    (s.job n).frec.toNat (if (s.job n).placed then some (s.job n).placedTime else none) s
  unfold leaveReleased State.releaseCopies
  dsimp only
  rw [hrecord]
  refine FramerKeeps.trans ?_ (framerKeeps_foldl (fun t k => releaseCopy_framer t k) (s.copies n) _)
  exact (framerKeeps_modPart s (s.job n).part (fun x => { x with msix := x.msix + 1 }) ⟨rfl, rfl, rfl⟩).congr rfl rfl rfl

theorem leave_framer (n status cause code : Nat) (s : State) : FramerKeeps s (leave n status cause code s) := by
  rw [leave_eq]
  have hreleased := leaveReleased_framer n status cause code s
  generalize leaveReleased n status cause code s = u at hreleased ⊢
  have herase : FramerKeeps u { u with jobs := Tab.erase (twinSlot n) (Tab.erase n u.jobs) } := (FramerKeeps.refl u).congr rfl rfl rfl
  exact hreleased.trans (herase.trans ((settle_framer _ _ _ _).trans
    ((queueIdle_framer _ _ _).trans (endPreempt_framer _ _ _ _))))

theorem killJob_framer (s : State) (n : Nat) : FramerKeeps s (killJob n s) := by
  unfold killJob
  dsimp only
  split
  · exact leave_framer ..
  · split
    · exact FramerKeeps.refl s
    · split
      · exact (FramerKeeps.refl s).congr rfl rfl rfl
      · refine framerKeeps_of_parts rfl rfl fun p => ?_
        generalize hu : s.setJob n _ = u
        have hpart : (u.dropWork (u.copies n)).part p = _ := u.dropWork_part (u.copies n) p
        have hs : u.part p = s.part p := by rw [← hu]; rfl
        show ((u.dropWork (u.copies n)).part p).flrAsked = _ ∧ ((u.dropWork (u.copies n)).part p).queues = _ ∧ ((u.dropWork (u.copies n)).part p).up = _
        rw [hpart, hs]
        exact ⟨rfl, rfl, rfl⟩

/-! ### Function resets at the end of a window (R449, R473) -/

theorem bit_and_not_eighty (v : Word) : bit (v &&& ~~~ (0x80 : Word)) 7 = false := by
  have h : (v &&& ~~~ (0x80 : Word)).getLsbD 7 = false := by simp
  rw [BitVec.getLsbD, Nat.testBit_eq_decide_div_mod_eq] at h
  simpa [bit] using h

theorem LQueue.disable_off (y : LQueue) : y.disable.en = false ∧ ∀ d ∈ y.disable.next, bit d.2 7 = false := by
  refine ⟨rfl, fun d hd => ?_⟩
  obtain ⟨e, -, rfl⟩ := Option.map_eq_some_iff.1 hd
  exact bit_and_not_eighty e.2

/-- A partition as a function reset leaves it. -/
def Part.reset (x : Part) : Part := { x with flrAsked := false, queues := x.queues.map fun (q, y) => (q, y.disable) }

theorem Part.reset_off (x : Part) : x.reset.Off := by
  refine ⟨rfl, fun q => ?_⟩
  have hq : Tab.get {} x.reset.queues q = (Tab.get {} x.queues q).disable := Tab.get_map (f := fun _ (y : LQueue) => y.disable) rfl x.queues
  rw [hq]
  exact LQueue.disable_off _

/-- The partition's jobs killed. -/
def State.killAll (s : State) (p : Nat) : State := (s.board p).foldl (fun s e => killJob e.1 s) s

theorem flrDone_eq (p : Nat) (s : State) : flrDone p s = (s.killAll p).modPart p Part.reset := rfl

theorem State.killAll_framer (s : State) (p : Nat) : FramerKeeps s (s.killAll p) :=
  framerKeeps_foldl (step := fun t (e : Nat × Job) => killJob e.1 t) (fun t e => killJob_framer t e.1) _ s

theorem flrDone_off (p : Nat) (s : State) : ((flrDone p s).part p).Off := by
  rw [flrDone_eq, State.modPart_part_same]
  exact Part.reset_off _

theorem flrDone_framer (s : State) (p : Nat) : FramerKeeps s (flrDone p s) := by
  refine (s.killAll_framer p).trans ⟨rfl, rfl, fun q hq => ?_, fun q => ?_⟩
  · by_cases h : q = p
    · subst h
      exact flrDone_off q s
    · rw [flrDone_eq, State.modPart_part_ne _ _ h]
      exact hq
  · rw [flrDone_eq, State.modPart_part]
    split
    next h => rw [h]; rfl
    next => rfl

/-- The function resets of a list of partitions. -/
def State.flrAll (s : State) (l : List Nat) : State := l.foldl (fun s p => flrDone p s) s

theorem State.flrAll_framer (s : State) (l : List Nat) : FramerKeeps s (s.flrAll l) := framerKeeps_foldl flrDone_framer l s

theorem State.flrAll_cons (s : State) (q : Nat) (l : List Nat) : s.flrAll (q :: l) = (flrDone q s).flrAll l := rfl

theorem State.flrAll_off {l : List Nat} {p : Nat} (h : p ∈ l) : ∀ s : State, ((s.flrAll l).part p).Off := by
  induction l with
  | nil => exact absurd h List.not_mem_nil
  | cons q l ih =>
    intro s
    rw [State.flrAll_cons]
    obtain rfl | h := List.mem_cons.1 h
    · have hoff := flrDone_off p s
      generalize flrDone p s = t at hoff ⊢
      exact (t.flrAll_framer l).off p hoff
    · exact ih h _

/-! ### Registrations and chains that waited -/

/-- The registrations of a list of queues. -/
def State.idleAll (s : State) (l : List (Nat × Nat)) : State := l.foldl (fun s w => queueIdle w.1 w.2 s) s

theorem State.idleAll_rest (s : State) (l : List (Nat × Nat)) : ∃ x, s.idleAll l = { s with parts := x } :=
  List.foldlRecOn (motive := fun t : State => ∃ x, t = { s with parts := x }) l _ ⟨_, rfl⟩ (by
    rintro _ ⟨x, rfl⟩ w -
    obtain ⟨y, hy⟩ := queueIdle_jobs w.1 w.2 { s with parts := x }
    exact ⟨y, hy⟩)

theorem State.idleAll_framer (s : State) (l : List (Nat × Nat)) : FramerKeeps s (s.idleAll l) :=
  framerKeeps_foldl (step := fun t (w : Nat × Nat) => queueIdle w.1 w.2 t) (fun t w => queueIdle_framer w.1 w.2 t) l s

theorem State.startChain_rest (s : State) (c : Nat) : ∃ j r u x w, s.startChain c = { s with jobs := j, remap := r, jointers := u, chains := x, rowcnt := w } := by
  obtain ⟨r, hr⟩ := Chain.idleUnits_rest (s.chain c) s.latchCounts
  obtain ⟨u, hu⟩ := State.startJointers_rest ((s.chain c).idleUnits s.latchCounts) c (s.chain c) (s.chain c).d
  rw [State.startChain_eq, hu, hr]
  exact ⟨_, _, _, _, _, rfl⟩

/-- The check of a chain that waited changes the chain and its jointers, or tells the host. -/
theorem chainEnable_rest (p c : Nat) (s : State) :
    ∃ j r u x w o, chainEnable p c s = { s with jobs := j, remap := r, jointers := u, chains := x, rowcnt := w, outbox := o } := by
  unfold chainEnable
  split
  · exact ⟨_, _, _, _, _, _, rfl⟩
  · split
    · exact ⟨_, _, _, _, _, _, rfl⟩
    · split
      · obtain ⟨j, r, u, x, w, h⟩ := s.startChain_rest c
        exact ⟨j, r, u, x, w, _, h⟩
      · exact ⟨_, _, _, _, _, _, rfl⟩

/-- The checks of the chains of a list that wait. -/
def State.enableAll (s : State) (l : List (Nat × Chain)) : State :=
  l.foldl (fun s e => match e.2.wanted with | some p => chainEnable p e.1 s | none => s) s

theorem State.enableAll_rest (s : State) (l : List (Nat × Chain)) :
    ∃ j r u x w o, s.enableAll l = { s with jobs := j, remap := r, jointers := u, chains := x, rowcnt := w, outbox := o } :=
  List.foldlRecOn (motive := fun t : State => ∃ j r u x w o, t = { s with jobs := j, remap := r, jointers := u, chains := x, rowcnt := w, outbox := o })
    l _ ⟨_, _, _, _, _, _, rfl⟩ (by
    rintro _ ⟨j, r, u, x, w, o, rfl⟩ e -
    split
    next p _ =>
      obtain ⟨j', r', u', x', w', o', h⟩ :=
        chainEnable_rest p e.1 { s with jobs := j, remap := r, jointers := u, chains := x, rowcnt := w, outbox := o }
      exact ⟨j', r', u', x', w', o', h⟩
    next => exact ⟨_, _, _, _, _, _, rfl⟩)

/-! ### The end of the window -/

/-- The Foreman's registers once the window has ended. -/
def Foreman.closed (f : Foreman) : Foreman := { f with hov := false, stg := false, handover := none, started := false }

def PageFault.past (f : PageFault) (h now : Nat) : PageFault := if f.mig then f else { f with since := pastWindow h now f.since }

/-- A partition whose faults have waited through the window. -/
def Part.past (x : Part) (h now : Nat) : Part := { x with faults := x.faults.map fun f => f.past h now }

/-- The clocks of jobs and faults moved past the window, and the Foreman's registers with it closed. -/
def State.closed (s : State) (h : Nat) : State :=
  { s with
    foreman := s.foreman.closed
    jobs := s.jobs.map fun e => (e.1, { e.2 with
      readyAt := pastWindow h s.clock e.2.readyAt, ranFrom := pastWindow h s.clock e.2.ranFrom, timeUp := e.2.timeUp.map (pastWindow h s.clock) })
    parts := s.parts.map fun e => (e.1, e.2.past h s.clock) }

/-- The queues with a registration that waits. -/
def State.registering (s : State) : List (Nat × Nat) := s.parts.flatMap fun (p, x) => (x.queues.filter fun (_, q) => q.next.isSome).map fun (q, _) => (p, q)

theorem endWindow_eq {s : State} {h : Nat} (hopen : s.foreman.handover = some h) :
    let t := (s.closed h).flrAll ((s.closed h).partsWith fun x => x.flrAsked)
    endWindow s = (t.idleAll t.registering).enableAll (t.idleAll t.registering).chains := by
  unfold endWindow
  rw [hopen]
  rfl

theorem State.closed_part (s : State) (h p : Nat) : (s.closed h).part p = (s.part p).past h s.clock :=
  Tab.get_map (f := fun _ (x : Part) => x.past h s.clock) rfl s.parts

theorem endWindow_framer {s : State} {h : Nat} (hopen : s.foreman.handover = some h) : FramerKeeps (s.closed h) (endWindow s) := by
  rw [endWindow_eq hopen]
  generalize (s.closed h).partsWith _ = l
  have hflr := (s.closed h).flrAll_framer l
  generalize (s.closed h).flrAll l = t at hflr ⊢
  have hidle := t.idleAll_framer t.registering
  generalize t.idleAll t.registering = u at hidle ⊢
  obtain ⟨j, r, w, x, y, o, hrest⟩ := u.enableAll_rest u.chains
  refine hflr.trans (hidle.trans ?_)
  rw [hrest]
  exact (FramerKeeps.refl u).congr rfl rfl rfl

/-- A function reset that waited takes effect (R473). -/
theorem endWindow_off {s : State} {h p : Nat} (hopen : s.foreman.handover = some h) (hup : (s.part p).up = true) (hflr : (s.part p).flrAsked = true) :
    ((endWindow s).part p).Off := by
  have hmem : p ∈ (s.closed h).partsWith fun x => x.flrAsked := by
    have hpart := s.closed_part h p
    refine List.mem_map.2 ⟨(p, (s.closed h).part p), List.mem_filter.2 ⟨Tab.mem_of_get_ne fun hd => ?_, ?_⟩, rfl⟩
    · change (s.closed h).part p = {} at hd
      rw [hpart] at hd
      have hno : ((s.part p).past h s.clock).up = ({} : Part).up := congrArg Part.up hd
      change (s.part p).up = false at hno
      rw [hup] at hno
      cases hno
    · dsimp only
      rw [hpart]
      simp [Part.past, hup, hflr]
  rw [endWindow_eq hopen]
  have hoff := State.flrAll_off hmem (s.closed h)
  generalize (s.closed h).flrAll _ = t at hoff ⊢
  have hidle := t.idleAll_framer t.registering
  generalize t.idleAll t.registering = u at hidle ⊢
  obtain ⟨j, r, w, x, y, o, hrest⟩ := u.enableAll_rest u.chains
  rw [hrest]
  exact hidle.off p hoff

/-- A window without function resets writes nothing. -/
theorem endWindow_memory {s : State} {h : Nat} (hopen : s.foreman.handover = some h) (hflr : ∀ e ∈ s.parts, e.2.flrAsked = false) :
    (endWindow s).mem = s.mem ∧ (endWindow s).bays = s.bays := by
  have hnone : ((s.closed h).partsWith fun x => x.flrAsked) = [] := by
    refine List.map_eq_nil_iff.2 (List.filter_eq_nil_iff.2 fun e he => ?_)
    obtain ⟨d, hd, rfl⟩ := List.mem_map.1 he
    simp [Part.past, hflr d hd]
  rw [endWindow_eq hopen, hnone]
  obtain ⟨x, hidle⟩ := ((s.closed h).flrAll []).idleAll_rest ((s.closed h).flrAll []).registering
  rw [hidle]
  obtain ⟨j, r, w, y, z, o, hrest⟩ := ({ (s.closed h).flrAll [] with parts := x } : State).enableAll_rest ((s.closed h).flrAll []).chains
  rw [hrest]
  exact ⟨rfl, rfl⟩

/-! ### Heartbeats -/

section Update
variable {s : State}

/-- What the end of a command after an event of the Foreman's log leaves of the rest. -/
theorem endFcmd_fmEvent (res kind unit : Nat) (u : State) : let t := endFcmd res (u.fmEvent kind unit)
    FcmdEnds t (BitVec.ofNat 8 res) ∧ t.boot = u.boot ∧ t.parts = u.parts ∧ t.bays = u.bays ∧ SameMemRing u t ∧
      t.foreman = { u.foreman with evtail := t.foreman.evtail, evdrop := t.foreman.evdrop, busy := false, res := BitVec.ofNat 8 res } := by
  have hforeman := u.fmEvent_foreman kind unit
  have hring := fmEvent_sameMemRing u kind unit
  obtain ⟨i, m, f, x, hrest⟩ := u.fmEvent_rest kind unit
  have hkeeps : (u.fmEvent kind unit).boot = u.boot ∧ (u.fmEvent kind unit).parts = u.parts ∧ (u.fmEvent kind unit).bays = u.bays := by
    rw [hrest]
    exact ⟨rfl, rfl, rfl⟩
  obtain ⟨hboot, hparts, hbays⟩ := hkeeps
  generalize u.fmEvent kind unit = v at hforeman hring hboot hparts hbays
  refine ⟨endFcmd_ends res v, hboot, hparts, hbays, hring, ?_⟩
  rw [endFcmd_eq]
  dsimp only at hforeman ⊢
  rw [hforeman]

/-- What the end of a window by a commit or a roll-back leaves. -/
theorem windowEnds {h : Nat} (hopen : s.foreman.handover = some h) (res kind : Nat) : let t := endFcmd res ((endWindow s).fmEvent kind 0)
    FcmdEnds t (BitVec.ofNat 8 res) ∧ t.boot = s.boot ∧
      t.foreman = { s.foreman.closed with evtail := t.foreman.evtail, evdrop := t.foreman.evdrop, busy := false, res := BitVec.ofNat 8 res } ∧
      (∀ p, (s.part p).up = true → (s.part p).flrAsked = true → (t.part p).Off) ∧
      ((∀ e ∈ s.parts, e.2.flrAsked = false) → SameMemRing s t ∧ t.bays = s.bays) := by
  have hframer := endWindow_framer hopen
  have hoff := fun p => endWindow_off (p := p) hopen
  have hmem := endWindow_memory hopen
  generalize endWindow s = u at hframer hoff hmem
  obtain ⟨hends, hboot, hparts, hbays, hring, hforeman⟩ := endFcmd_fmEvent res kind 0 u
  refine ⟨hends, hboot.trans hframer.boot, hforeman.trans ?_, fun p hup hflr => ?_, fun hflr => ?_⟩
  · rw [hframer.foreman]
    rfl
  · have hpart : (endFcmd res (u.fmEvent kind 0)).part p = u.part p := congrArg (Tab.get ({} : Part) · p) hparts
    rw [hpart]
    exact hoff p hup hflr
  · obtain ⟨hm, hb⟩ := hmem hflr
    refine ⟨fun x hx => ?_, hbays.trans hb⟩
    have hforeman' : u.foreman = s.foreman.closed := hframer.foreman
    have hx' : x < hostAddr u.foreman.evbase.toNat ∨ hostAddr u.foreman.evbase.toNat + 32 * 2 ^ u.foreman.evlog ≤ x := by
      rw [hforeman']
      exact hx
    rw [hring x hx', hm]

/-- The state in which the staged image's first heartbeat has been counted. -/
def State.committed (s : State) : State :=
  let img := s.foreman.slot 1 (!s.foreman.fra)
  { s with foreman := { s.foreman.raiseSvn 1 img with
      fra := !s.foreman.fra, frver := BitVec.ofNat 32 (fwVersion img), hbcnt := s.foreman.hbcnt + 1, lastBeat := s.clk.time, quietTold := false } }

theorem heartbeat_counts (hrdy : s.boot.rdy = true) (hstarted : s.foreman.started = false) :
    heartbeat s = { s with foreman := { s.foreman with hbcnt := s.foreman.hbcnt + 1, lastBeat := s.clk.time, quietTold := false } } := by
  unfold heartbeat
  rw [if_neg (by simp [hrdy])]
  dsimp only
  rw [if_pos (by simp [hstarted])]
  rfl

theorem heartbeat_commits (hrdy : s.boot.rdy = true) (hstarted : s.foreman.started = true)
    (htime : s.clk.time.toNat ≤ s.foreman.step3At.toNat + 50000000) : heartbeat s = endFcmd 0 ((endWindow s.committed).fmEvent 11 0) := by
  have hlate : s.foreman.beatLate s.clk.time = false := by simp [Foreman.beatLate, htime]
  simp only [heartbeat, hrdy, hstarted, hlate, Bool.not_true, Bool.false_eq_true, if_false]
  rfl

theorem heartbeat_late (hrdy : s.boot.rdy = true) (hstarted : s.foreman.started = true)
    (htime : s.foreman.step3At.toNat + 50000000 < s.clk.time.toNat) : heartbeat s = rollBack s := by
  have hlate : s.foreman.beatLate s.clk.time = true := by simp [Foreman.beatLate, htime]
  simp only [heartbeat, hrdy, hstarted, hlate, Bool.not_true, Bool.false_eq_true, if_false, if_true]

theorem updateRollback_late (hstarted : s.foreman.started = true) (htime : s.foreman.step3At.toNat + 50000000 < s.clk.time.toNat) :
    updateRollback s = rollBack s := by
  have hlate : s.foreman.beatLate s.clk.time = true := by simp [Foreman.beatLate, htime]
  simp only [updateRollback, hstarted, hlate, Bool.and_self, if_true]

/-- 50 ms without a heartbeat end the update, and the running image goes on (R472). -/
theorem rollBack_ends (hopen : s.foreman.handover ≠ none) : let t := rollBack s
    FcmdEnds t 5 ∧ t.foreman.hov = false ∧ t.foreman.started = false ∧ t.foreman.fra = s.foreman.fra ∧ t.foreman.frver = s.foreman.frver ∧
      ((∀ e ∈ s.parts, e.2.flrAsked = false) → SameMemRing s t ∧ t.bays = s.bays) := by
  obtain ⟨h, hopen⟩ := Option.ne_none_iff_exists'.1 hopen
  obtain ⟨hends, -, hforeman, -, hmem⟩ :=
    windowEnds (s := { s with foreman := { s.foreman with hbcnt := 0, lastBeat := s.clk.time } }) hopen 5 12
  change FcmdEnds (rollBack s) 5 at hends
  change (rollBack s).foreman = _ at hforeman
  change _ → SameMemRing _ (rollBack s) ∧ (rollBack s).bays = _ at hmem
  generalize rollBack s = t at hends hforeman hmem
  refine ⟨hends, ?_, ?_, ?_, ?_, hmem⟩ <;> rw [hforeman] <;> rfl

theorem activateLive_eq (hruns : s.fruns 2 = true) (hop : s.fop 1 = 1) (hstarted : s.foreman.started = false) : activateLive s =
    if s.foreman.hov then (if s.quiet_ then startStaged s else s)
    else if s.fop 0 ≠ 1 || !s.foreman.stg || !(s.partsWith Part.det).isEmpty then endFcmd 2 s
    else if fwHver (s.foreman.slot 1 s.foreman.fra) < fwHvMin (s.foreman.slot 1 (!s.foreman.fra)) ||
        fwHver (s.foreman.slot 1 s.foreman.fra) > fwHvMax (s.foreman.slot 1 (!s.foreman.fra)) then endFcmd 4 s
    else
      let s := { s with foreman := { s.foreman with hov := true, handover := some s.clock } }
      if s.quiet_ then startStaged s else s := by
  unfold activateLive
  dsimp only
  rw [if_neg (by simp [hruns, hop, hstarted])]

theorem framerSilent_tells (hrdy : s.boot.rdy = true) (hhov : s.foreman.hov = false) (htold : s.foreman.quietTold = false)
    (hbeats : s.foreman.hbcnt ≠ 0) (htime : s.foreman.lastBeat.toNat + 10000000 < s.clk.time.toNat) :
    framerSilent s = ({ s with foreman := { s.foreman with quietTold := true } } : State).fmEvent 13 0 := by
  have hcond : ¬ (!s.boot.rdy || s.foreman.hov || s.foreman.quietTold || decide (s.foreman.hbcnt = 0) ||
      decide (s.clk.time.toNat ≤ s.foreman.lastBeat.toNat + 10000000)) = true := by
    simpa [hrdy, hhov, htold, Nat.not_le.mpr htime] using hbeats
  exact if_neg hcond

end Update

/-- Settles O56: the window by its checks, and its end by what waits for it. -/
theorem liveUpdate : Obligations.LiveUpdate := by
  unfold Obligations.LiveUpdate
  intro s
  have hruns : s.foreman.busy = true → s.foreman.cmd = 2 → s.fruns 2 = true := fun hbusy hcmd => State.fruns_eq hbusy (by rw [hcmd]; rfl)
  refine ⟨fun hbusy hcmd hop hhov hstarted => congrArg Host.Outcome.next ?_, fun hbusy hcmd hop hhov hstarted => ⟨fun hbad => ?_, fun hop0 hstg hdet => ⟨fun hver => ?_,
    fun hmin hmax => ?_⟩⟩, fun hrdy hstarted => congrArg Host.Outcome.next (heartbeat_counts hrdy hstarted), fun hrdy hstarted hopen htime => ?_,
    fun i hi hstarted hopen htime => ?_, fun hrdy hhov htold hbeats htime => ?_⟩
  · rw [activateLive_eq (hruns hbusy hcmd) hop hstarted, if_pos hhov]
    rfl
  · have hcond : (decide (s.fop 0 ≠ 1) || !s.foreman.stg || !(s.partsWith Part.det).isEmpty) = true := by
      simpa [or_assoc, List.isEmpty_eq_false_iff] using hbad
    refine ⟨endFcmd 2 s, congrArg Host.Outcome.next ?_, endFcmd_ends 2 s, hhov⟩
    rw [activateLive_eq (hruns hbusy hcmd) hop hstarted, if_neg (by simp [hhov]), if_pos hcond]
  · have hgood : ¬ (decide (s.fop 0 ≠ 1) || !s.foreman.stg || !(s.partsWith Part.det).isEmpty) = true := by simp [hop0, hstg, hdet]
    refine ⟨endFcmd 4 s, congrArg Host.Outcome.next ?_, endFcmd_ends 4 s, hhov⟩
    rw [activateLive_eq (hruns hbusy hcmd) hop hstarted, if_neg (by simp [hhov]), if_neg hgood, if_pos (by simpa using hver)]
  · have hgood : ¬ (decide (s.fop 0 ≠ 1) || !s.foreman.stg || !(s.partsWith Part.det).isEmpty) = true := by simp [hop0, hstg, hdet]
    refine ⟨_, congrArg Host.Outcome.next ?_, rfl, ?_⟩
    · rw [activateLive_eq (hruns hbusy hcmd) hop hstarted, if_neg (by simp [hhov]), if_neg hgood,
        if_neg (by simp [Nat.not_lt.mpr hmin, Nat.not_lt.mpr hmax])]
      dsimp only
      by_cases hquiet : s.quiet_ = true
      · have hquiet' : ({ s with foreman := { s.foreman with hov := true, handover := some s.clock } } : State).quiet_ = true := hquiet
        rw [if_pos hquiet', if_pos hquiet]
        rfl
      · have hquiet' : ¬ ({ s with foreman := { s.foreman with hov := true, handover := some s.clock } } : State).quiet_ = true := hquiet
        rw [if_neg hquiet', if_neg hquiet]
    · by_cases hquiet : s.quiet_ = true <;> simp [State.framerUp, hquiet]
  · obtain ⟨h, hopen⟩ := Option.ne_none_iff_exists'.1 hopen
    obtain ⟨hends, hboot, hforeman, hoff, hmem⟩ := windowEnds (s := s.committed) hopen 0 11
    have heq := heartbeat_commits hrdy hstarted htime
    generalize endFcmd 0 ((endWindow s.committed).fmEvent 11 0) = t at hends hboot hforeman hoff hmem heq
    have hexec : exec .framerHeartbeat s = .next t := congrArg Host.Outcome.next heq
    have hsvn : s.committed.foreman.closed.svnMin 1 = max (s.foreman.svnMin 1) (fwSvn (s.foreman.slot 1 (!s.foreman.fra))) := Tab.get_put_same _ _ _ _
    refine ⟨⟨t, hexec, hends, ?_, ?_, ?_, ?_, ?_, ?_, hmem⟩, fun p hup hflr => ⟨t, hexec, fun q => ((hoff p hup hflr).2 q).1, (hoff p hup hflr).1⟩⟩
    · rw [State.framerUp, hboot, hforeman]
      show (s.boot.rdy && true) = true
      rw [hrdy]
      rfl
    · rw [hforeman]
      rfl
    · rw [hforeman]
      rfl
    · rw [hforeman]
      show _ ≤ s.committed.foreman.closed.svnMin 1
      rw [hsvn]
      exact Nat.le_max_right ..
    · rw [hforeman]
      rfl
    · rw [hforeman]
      rfl
  · obtain rfl | ⟨rfl, hrdy⟩ := hi
    · exact ⟨rollBack s, congrArg Host.Outcome.next (updateRollback_late hstarted htime), rollBack_ends hopen⟩
    · exact ⟨rollBack s, congrArg Host.Outcome.next (heartbeat_late hrdy hstarted htime), rollBack_ends hopen⟩
  · have hforeman := State.fmEvent_foreman { s with foreman := { s.foreman with quietTold := true } } 13 0
    have hlogged := fmEvent_logged { s with foreman := { s.foreman with quietTold := true } } 13 0
    obtain ⟨i, m, f, x, hrest⟩ := State.fmEvent_rest { s with foreman := { s.foreman with quietTold := true } } 13 0
    refine ⟨_, congrArg Host.Outcome.next (framerSilent_tells hrdy hhov htold hbeats htime), ?_, hlogged, ?_, ?_⟩
    · rw [hforeman]
    · rw [hrest]
    · rw [hrest]

end Sys2Proof.Machine
end

section
/-! Discards of several partitions, one after another (R464, R465). -/

namespace Sys2Proof.Machine

/-! ### What a discard keeps -/

/-- What a discard leaves for the next one to go by: the jobs' partitions and states, who holds a bay or a lath, and that what has stopped stays
stopped. Of the Foreman's registers only the log's counts change. -/
structure DiscardKeeps (s t : State) : Prop where
  job : ∀ n, (t.job n).part = (s.job n).part ∧ (t.job n).state = (s.job n).state
  jobs : ∀ e ∈ t.jobs, ∃ d ∈ s.jobs, d.1 = e.1 ∧ d.2.part = e.2.part ∧ d.2.state = e.2.state
  bay : ∀ b, t.bay b = s.bay b ∨ t.bay b = (s.bay b).stop
  lath : ∀ k, t.lathAt k = s.lathAt k ∨ t.lathAt k = { s.lathAt k with updates := [], hop := none, waiting := false }
  chain : ∀ c, chainEn (t.chain c) = false ∨ t.chain c = s.chain c
  foreman : t.foreman = { s.foreman with evtail := t.foreman.evtail, evdrop := t.foreman.evdrop }
  ring : SameMemRing s t
  boot : t.boot = s.boot
  remap : t.remap = s.remap

theorem Job.holds_congr {j k : Job} (h : j.state = k.state) : j.holds ↔ k.holds := by rw [Job.holds, Job.holds, h]

theorem SameMemRing.trans {s t u : State} (h : SameMemRing s t) (g : SameMemRing t u) (hbase : t.foreman.evbase = s.foreman.evbase)
    (hlog : t.foreman.evlog = s.foreman.evlog) : SameMemRing s u := fun x hx => (g x (by rw [hbase, hlog]; exact hx)).trans (h x hx)

theorem DiscardKeeps.refl (s : State) : DiscardKeeps s s :=
  ⟨fun _ => ⟨rfl, rfl⟩, fun e he => ⟨e, he, rfl, rfl, rfl⟩, fun _ => .inl rfl, fun _ => .inl rfl, fun _ => .inr rfl, rfl, fun _ _ => rfl, rfl, rfl⟩

theorem DiscardKeeps.trans {s t u : State} (h : DiscardKeeps s t) (g : DiscardKeeps t u) : DiscardKeeps s u := by
  refine ⟨fun n => ⟨(g.job n).1.trans (h.job n).1, (g.job n).2.trans (h.job n).2⟩, fun e he => ?_, fun b => ?_, fun k => ?_, fun c => ?_, ?_,
    h.ring.trans g.ring (by rw [h.foreman]) (by rw [h.foreman]), g.boot.trans h.boot, g.remap.trans h.remap⟩
  · obtain ⟨d, hd, hkey, hpart, hstate⟩ := g.jobs e he
    obtain ⟨d', hd', hkey', hpart', hstate'⟩ := h.jobs d hd
    exact ⟨d', hd', hkey'.trans hkey, hpart'.trans hpart, hstate'.trans hstate⟩
  · rcases g.bay b with hg | hg <;> rcases h.bay b with hh | hh <;> rw [hg, hh]
    · exact .inl rfl
    · exact .inr rfl
    · exact .inr rfl
    · exact .inr (by simp [Bay.stop, List.map_map, Function.comp_def, Endpoint.unbind])
  · rcases g.lath k with hg | hg <;> rcases h.lath k with hh | hh <;> rw [hg, hh]
    · exact .inl rfl
    · exact .inr rfl
    · exact .inr rfl
    · exact .inr rfl
  · rcases g.chain c with hg | hg
    · exact .inl hg
    · rw [hg]
      exact h.chain c
  · rw [g.foreman, h.foreman]

theorem Job.discarded_part (j : Job) (p cause : Nat) : (j.discarded p cause).part = j.part ∧ (j.discarded p cause).state = j.state := by
  unfold Job.discarded
  split <;> exact ⟨rfl, rfl⟩

theorem State.stopChains_chain (l : List (Nat × Chain)) : ∀ (s : State) (c : Nat),
    chainEn ((s.stopChains l).chain c) = false ∨ (s.stopChains l).chain c = s.chain c := by
  induction l with
  | nil => exact fun _ _ => .inr rfl
  | cons e l ih =>
    intro s c
    by_cases hc : ∃ d ∈ e :: l, d.1 = c
    · exact .inl (State.stopChains_stopped _ (.inr hc))
    · refine (ih (s.stopChain e.1) c).imp id fun h => ?_
      have hne : c ≠ e.1 := fun h => hc ⟨e, List.mem_cons_self .., h.symm⟩
      exact h.trans (State.stopChain_chain_ne s hne)

theorem State.discardWork_rest (s : State) (p cause : Nat) : let t := s.discardWork p cause
    t.foreman = (s.fmEvent 10 p).foreman ∧ t.boot = s.boot ∧ t.remap = s.remap ∧ t.chains = s.chains ∧ t.jobs = s.jobs.map fun e => (e.1, e.2.discarded p cause) := by
  obtain ⟨i, m, f, x, hlog⟩ := s.fmEvent_rest 10 p
  dsimp only
  rw [State.discardWork, hlog]
  exact ⟨rfl, rfl, rfl, rfl, rfl⟩

theorem discard_keeps (s : State) (p cause : Nat) : DiscardKeeps s (s.discard p cause) := by
  obtain ⟨c, j, x, hrest⟩ := s.discard_rest p cause
  obtain ⟨y, hchains⟩ := s.discard_eq p cause
  obtain ⟨hforeman, hboot, hremap, hwork, hjobs⟩ := s.discardWork_rest p cause
  have hjob : ∀ n, (s.discard p cause).job n = (s.job n).discarded p cause := fun n => by rw [hrest]; exact s.discardWork_job p cause n
  have hbay : ∀ b, (s.discard p cause).bay b = (s.discardWork p cause).bay b := fun b => by rw [hrest]; rfl
  have hlath : ∀ k, (s.discard p cause).lathAt k = (s.discardWork p cause).lathAt k := fun k => by rw [hrest]; rfl
  refine ⟨fun n => ?_, fun e he => ?_, fun b => ?_, fun k => ?_, fun c => ?_, ?_, discard_sameMemRing s p cause, ?_, ?_⟩
  · rw [hjob]
    exact Job.discarded_part ..
  · rw [hrest] at he
    change e ∈ (s.discardWork p cause).jobs at he
    rw [hjobs] at he
    obtain ⟨d, hd, rfl⟩ := List.mem_map.1 he
    exact ⟨d, hd, rfl, (d.2.discarded_part p cause).1.symm, (d.2.discarded_part p cause).2.symm⟩
  · rw [hbay, State.discardWork_bay]
    split
    · exact .inr rfl
    · exact .inl rfl
  · rw [hlath, State.discardWork_lathAt]
    split
    · exact .inr rfl
    · exact .inl rfl
  · have hsame : (s.discardWork p cause).chain c = s.chain c := congrArg (Tab.get ({} : Chain) · c) hwork
    rw [hchains, ← hsame]
    exact State.stopChains_chain _ _ c
  · have hkept : (s.discard p cause).foreman = (s.fmEvent 10 p).foreman := by rw [hrest]; exact hforeman
    rw [hkept]
    exact s.fmEvent_foreman 10 p
  · rw [hrest]
    exact hboot
  · rw [hrest]
    exact hremap

/-! ### Several partitions -/

theorem Bay.stop_stopped (y : Bay) : y.stop.live = false ∧ ∀ e ∈ engines, (y.stop.stream e).run = false := ⟨rfl, Bay.stop_streams y⟩

/-- Two discards one after the other. -/
theorem Discarded.trans {s t u : State} {ps qs : Nat → Prop} {c : BitVec 8} (h : Discarded s t ps c) (hk : DiscardKeeps s t) (g : Discarded t u qs c)
    (gk : DiscardKeeps t u) : Discarded s u (fun p => ps p ∨ qs p) c := by
  have hpart : ∀ n, (t.job n).part = (s.job n).part := fun n => (hk.job n).1
  have hholds : ∀ n, (t.job n).holds ↔ (s.job n).holds := fun n => Job.holds_congr (hk.job n).2
  have hslot : ∀ b, (t.bay b).slot = (s.bay b).slot := fun b => by rcases hk.bay b with h | h <;> rw [h]; rfl
  have hlathSlot : ∀ k, (t.lathAt k).slot = (s.lathAt k).slot := fun k => by rcases hk.lath k with h | h <;> rw [h]
  refine ⟨fun n hp hh => ?_, fun b n hb hp hh => ?_, fun k n hl hp hh => ?_, fun x hen hp => ?_, fun n hn => ?_, fun b hb => ?_⟩
  · by_cases hq : qs (s.job n).part
    · exact g.ends n (by rwa [hpart]) ((hholds n).2 hh)
    · rw [g.jobs n (.inl (by rwa [hpart]))]
      exact h.ends n (hp.resolve_right hq) hh
  · by_cases hq : qs (s.job n).part
    · exact g.stops b n ((hslot b).trans hb) (by rwa [hpart]) ((hholds n).2 hh)
    · have hstop := h.stops b n hb (hp.resolve_right hq) hh
      rcases gk.bay b with hg | hg <;> rw [hg]
      · exact hstop
      · exact Bay.stop_stopped _
  · by_cases hq : qs (s.job n).part
    · exact g.work k n ((hlathSlot k).trans hl) (by rwa [hpart]) ((hholds n).2 hh)
    · have hwork := h.work k n hl (hp.resolve_right hq) hh
      rcases gk.lath k with hg | hg <;> rw [hg]
      exact hwork
  · rcases gk.chain x with hg | hg
    · exact hg
    · rcases hk.chain x with hc | hc
      · rw [hg]
        exact hc
      · by_cases hq : qs (chainPart (s.chain x))
        · exact g.chains x (by rwa [hc]) (by rwa [hc])
        · rw [hg]
          exact h.chains x hen (hp.resolve_right hq)
  · rw [g.jobs n, h.jobs n]
    · exact hn.imp_left fun hno hp => hno (.inl hp)
    · rw [hpart, hholds]
      exact hn.imp_left fun hno hq => hno (.inr hq)
  · rw [g.bays b, h.bays b]
    · exact fun e he hbe => (hb e he hbe).imp_left fun hno hp => hno (.inl hp)
    · intro e he hbe
      obtain ⟨d, hd, hkey, hdpart, hdstate⟩ := hk.jobs e he
      have hno := hb d hd (by rw [← hslot, hbe, hkey])
      rw [hdpart, Job.holds_congr hdstate] at hno
      exact hno.imp_left fun hno hq => hno (.inr hq)

theorem State.discardEach_cons (s : State) (p : Nat) (l : List Nat) (cause : Nat) : s.discardEach (p :: l) cause = (s.discard p cause).discardEach l cause := rfl

theorem discardEach_keeps (l : List Nat) (cause : Nat) : ∀ s : State, DiscardKeeps s (s.discardEach l cause) := by
  induction l with
  | nil => exact DiscardKeeps.refl
  | cons p l ih =>
    intro s
    rw [State.discardEach_cons]
    exact (discard_keeps s p cause).trans (ih _)

/-- A discard of a list of partitions discards them all. -/
theorem discardEach_discards (l : List Nat) (cause : Nat) : ∀ s : State, Discarded s (s.discardEach l cause) (· ∈ l) (BitVec.ofNat 8 cause) := by
  induction l with
  | nil =>
    exact fun s => ⟨fun _ h => absurd h List.not_mem_nil, fun _ _ _ h => absurd h List.not_mem_nil, fun _ _ _ h => absurd h List.not_mem_nil,
      fun _ _ h => absurd h List.not_mem_nil, fun _ _ => rfl, fun _ _ => rfl⟩
  | cons p l ih =>
    intro s
    rw [State.discardEach_cons]
    have h := (discard_discards s p cause).trans (discard_keeps s p cause) (ih (s.discard p cause)) (discardEach_keeps l cause _)
    simpa only [List.mem_cons] using h

/-- A discard of every partition. -/
theorem discardAll_discards (s : State) (cause : Nat) : Discarded s (s.discardAll cause) (· < 8) (BitVec.ofNat 8 cause) := by
  have h := discardEach_discards (List.range 8) cause s
  simp only [List.mem_range] at h
  exact h

theorem discardAll_keeps (s : State) (cause : Nat) : DiscardKeeps s (s.discardAll cause) := discardEach_keeps (List.range 8) cause s

/-- A discard after steps that change none of what it speaks of. -/
theorem Discarded.congr {s s' t : State} {ps : Nat → Prop} {c : BitVec 8} (h : Discarded s' t ps c) (hjobs : s'.jobs = s.jobs) (hbays : s'.bays = s.bays)
    (hlaths : s'.laths = s.laths) (hchains : s'.chains = s.chains) : Discarded s t ps c := by
  have hjob : ∀ n, s'.job n = s.job n := State.job_congr hjobs
  have hbay : ∀ b, s'.bay b = s.bay b := State.bay_congr hbays
  have hlath : ∀ k, s'.lathAt k = s.lathAt k := fun k => congrArg (Tab.get ({} : Lath) · k) hlaths
  have hchain : ∀ c, s'.chain c = s.chain c := fun c => congrArg (Tab.get ({} : Chain) · c) hchains
  obtain ⟨hends, hstops, hwork, hoff, hsame, hrun⟩ := h
  simp only [hjob, hbay, hlath, hchain, hjobs] at hends hstops hwork hoff hsame hrun
  exact ⟨hends, hstops, hwork, hoff, hsame, hrun⟩

/-! ### The partitions' registers -/

/-- A condition of the die blocks the partitions that it serves (R464). -/
def blocks (cause : Nat) : Bool := cause = 0xC6 || cause = 0xC7 || cause = 0xC8

/-- Partition `q` after a discard of partition `p`. -/
def Part.discarded (x : Part) (p cause : Nat) (lost : PageFault → Bool) (q : Nat) : Part :=
  if q = p then { x with faults := x.faults.filter fun f => !lost f, blocked := x.blocked || blocks cause }
  else { x with faults := x.faults.filter fun f => !lost f }

theorem discard_parts (s : State) (p cause : Nat) :
    ∃ lost, (s.discard p cause).parts = s.parts.map fun e => (e.1, e.2.discarded p cause lost e.1) := by
  obtain ⟨i, m, f, x, hlog⟩ := s.fmEvent_rest 10 p
  refine ⟨fun f => lostTo (s.goneWith p) f.slot, ?_⟩
  obtain ⟨c, j, hchains⟩ := State.stopChains_rest (s.discardWork p cause) (s.chainsOf p)
  have hparts : (s.discardWork p cause).parts = s.parts.map fun e => (e.1, { e.2 with faults := e.2.faults.filter fun f => !lostTo (s.goneWith p) f.slot }) := by
    rw [State.discardWork, hlog]
    rfl
  have hkeeps : ((s.discardWork p cause).stopChains (s.chainsOf p)).parts = (s.discardWork p cause).parts := by rw [hchains]
  have heq : (s.discard p cause).parts = ((s.discardWork p cause).stopChains (s.chainsOf p)).parts.map fun e =>
      (e.1, if e.1 = p then { e.2 with blocked := e.2.blocked || cause = 0xC6 || cause = 0xC7 || cause = 0xC8 } else e.2) := by
    unfold State.discard State.discardWork
    rw [hlog]
    rfl
  rw [heq, hkeeps, hparts, List.map_map]
  refine List.map_congr_left fun e _ => ?_
  simp only [Function.comp_apply, Part.discarded, blocks]
  split <;> simp [Bool.or_assoc]

/-- What the map over a table makes of an entry that it lists. -/
theorem Tab.get_map_of_mem {α : Type} {d : α} {f : Nat → α → α} {k : Nat} : ∀ {l : Tab α}, (∃ v, (k, v) ∈ l) →
    Tab.get d (l.map fun e => (e.1, f e.1 e.2)) k = f k (Tab.get d l k)
  | [], h => by simp at h
  | (k', v) :: t, h => by
    by_cases hk : k = k'
    · simp [Tab.get, hk]
    · obtain ⟨w, hw⟩ := h
      have hmem : ∃ v, (k, v) ∈ t := ⟨w, (List.mem_cons.1 hw).resolve_left fun he => hk (Prod.mk.inj he).1⟩
      simpa [Tab.get, hk] using Tab.get_map_of_mem hmem

theorem discard_part_other (s : State) {p q : Nat} (cause : Nat) (h : q ≠ p) :
    (s.discard p cause).part q = { s.part q with faults := ((s.discard p cause).part q).faults } := by
  obtain ⟨lost, hparts⟩ := discard_parts s p cause
  have hq : (s.discard p cause).part q = (s.part q).discarded p cause lost q := by
    rw [State.part, hparts]
    exact Tab.get_map (f := fun k (x : Part) => x.discarded p cause lost k) (by simp [Part.discarded, h]) s.parts
  rw [hq, Part.discarded, if_neg h]

/-- A partition that the device lists. -/
def State.hasPart (s : State) (q : Nat) : Prop := ∃ x, (q, x) ∈ s.parts

theorem discard_hasPart {s : State} {q : Nat} (p cause : Nat) (h : s.hasPart q) : (s.discard p cause).hasPart q := by
  obtain ⟨lost, hparts⟩ := discard_parts s p cause
  obtain ⟨x, hx⟩ := h
  rw [State.hasPart, hparts]
  exact ⟨_, List.mem_map.2 ⟨_, hx, rfl⟩⟩

theorem discard_blocked {s : State} {q : Nat} (p cause : Nat) (h : s.hasPart q) (hb : (s.part q).blocked = true ∨ q = p ∧ blocks cause = true) :
    ((s.discard p cause).part q).blocked = true := by
  obtain ⟨lost, hparts⟩ := discard_parts s p cause
  have hq : (s.discard p cause).part q = (s.part q).discarded p cause lost q := by
    rw [State.part, hparts]
    exact Tab.get_map_of_mem (f := fun k (x : Part) => x.discarded p cause lost k) h
  rw [hq, Part.discarded]
  split
  · rcases hb with hb | ⟨-, hb⟩ <;> simp [hb]
  next hne => exact hb.resolve_right fun hb => hne hb.1

theorem discardEach_part_other {l : List Nat} {q : Nat} (cause : Nat) (h : q ∉ l) : ∀ s : State,
    (s.discardEach l cause).part q = { s.part q with faults := ((s.discardEach l cause).part q).faults } := by
  induction l with
  | nil => exact fun _ => rfl
  | cons p l ih =>
    intro s
    obtain ⟨hp, hl⟩ : q ≠ p ∧ q ∉ l := by simpa using h
    rw [State.discardEach_cons, ih hl, discard_part_other s cause hp]

/-- A condition of the die blocks each of the partitions that it serves. -/
theorem discardEach_blocked {cause : Nat} (hcause : blocks cause = true) {q : Nat} (l : List Nat) : ∀ {s : State}, s.hasPart q →
    (s.part q).blocked = true ∨ q ∈ l → ((s.discardEach l cause).part q).blocked = true := by
  induction l with
  | nil => exact fun _ hb => hb.resolve_right List.not_mem_nil
  | cons p l ih =>
    intro s h hb
    rw [State.discardEach_cons]
    refine ih (discard_hasPart p cause h) ?_
    rcases hb with hb | hb
    · exact .inl (discard_blocked p cause h (.inl hb))
    · obtain rfl | hl := List.mem_cons.1 hb
      · exact .inl (discard_blocked q cause h (.inr ⟨rfl, hcause⟩))
      · exact .inr hl

end Sys2Proof.Machine
end

section
/-! The Foreman's sensors and their trips (R464, R465, R474). -/

namespace Sys2Proof.Machine

/-! ### Samples -/

/-- What the sampling of a sensor keeps. -/
structure SampleKeeps (s t : State) : Prop where
  ring : SameMemRing s t
  bays : t.bays = s.bays
  parts : t.parts = s.parts
  foreman : t.foreman = { s.foreman with evtail := t.foreman.evtail, evdrop := t.foreman.evdrop, sens := t.foreman.sens, tripped := t.foreman.tripped }

theorem SampleKeeps.refl (s : State) : SampleKeeps s s := ⟨fun _ _ => rfl, rfl, rfl, rfl⟩

theorem SampleKeeps.trans {s t u : State} (h : SampleKeeps s t) (g : SampleKeeps t u) : SampleKeeps s u :=
  ⟨h.ring.trans g.ring (by rw [h.foreman]) (by rw [h.foreman]), g.bays.trans h.bays, g.parts.trans h.parts, by rw [g.foreman, h.foreman]⟩

/-- The reading that is taken of a sensor next. -/
def State.reading (s : State) : Int := sgn 16 s.fresh.1.toNat

/-- The status that the reading gives sensor `i`. -/
def State.statusOf (s : State) (i : Nat) : Nat := sensorStatus i (s.foreman.tripped.contains i) s.reading

/-- The sensor's entry, and the trips that still stand. -/
def State.sampled (s : State) (i : Nat) : State :=
  { s.fresh.2 with foreman := { s.foreman with
      sens := Tab.set 0 s.foreman.sens i (BitVec.ofNat 18 (s.fresh.1.toNat % 65536 + s.statusOf i * 65536))
      tripped := if s.statusOf i = 2 then s.foreman.tripped else s.foreman.tripped.filter fun j => j != i } }

theorem sampleOne_eq (i : Nat) (s : State) : sampleOne i s =
    if s.statusOf i = 1 && (Tab.get 0 s.foreman.sens i).toNat / 65536 = 0 then (s.sampled i).fmEvent 9 i else s.sampled i := rfl

theorem sampleOne_foreman (i : Nat) (s : State) : (sampleOne i s).foreman.sens = (s.sampled i).foreman.sens ∧
    (sampleOne i s).foreman.tripped = (s.sampled i).foreman.tripped := by
  rw [sampleOne_eq]
  split
  · rw [State.fmEvent_foreman]
    exact ⟨rfl, rfl⟩
  · exact ⟨rfl, rfl⟩

theorem sampleOne_keeps (i : Nat) (s : State) : SampleKeeps s (sampleOne i s) := by
  rw [sampleOne_eq]
  split
  · have hring := fmEvent_sameMemRing (s.sampled i) 9 i
    have hforeman := (s.sampled i).fmEvent_foreman 9 i
    obtain ⟨k, m, f, x, hrest⟩ := (s.sampled i).fmEvent_rest 9 i
    refine ⟨fun a ha => hring a ha, by rw [hrest]; rfl, by rw [hrest]; rfl, ?_⟩
    rw [hforeman]
    rfl
  · exact ⟨fun _ _ => rfl, rfl, rfl, rfl⟩

theorem sensorStatus_le (i : Nat) (tripped : Bool) (v : Int) : sensorStatus i tripped v ≤ 2 := by
  unfold sensorStatus
  split
  · exact Nat.le_refl _
  · split
    · exact Nat.le_succ _
    · exact Nat.zero_le _

theorem sgn_range (n : Nat) : -32768 ≤ sgn 16 n ∧ sgn 16 n < 32768 ∧ (BitVec.ofInt 16 (sgn 16 n)).toNat = n % 65536 := by
  have hlt : n % 65536 < 65536 := Nat.mod_lt _ (by decide)
  rw [BitVec.toNat_ofInt, sgn]
  norm_num
  split <;> omega

/-- SENS of a sensor as a sample leaves it, for a reading within its range. -/
def Sampled (s t : State) (k : Nat) : Prop :=
  ∃ v : Int, -32768 ≤ v ∧ v < 32768 ∧
    (Tab.get 0 t.foreman.sens k).toNat = (BitVec.ofInt 16 v).toNat + 65536 * sensorStatus k (s.foreman.tripped.contains k) v

theorem sampleOne_sampled (i : Nat) (s : State) : Sampled s (sampleOne i s) i := by
  obtain ⟨hlo, hhi, hval⟩ := sgn_range s.fresh.1.toNat
  refine ⟨s.reading, hlo, hhi, ?_⟩
  have hstatus : s.statusOf i ≤ 2 := sensorStatus_le ..
  rw [(sampleOne_foreman i s).1]
  show (Tab.get 0 (Tab.set 0 s.foreman.sens i _) i).toNat = _
  rw [Tab.get_set_same, BitVec.toNat_ofNat, Nat.mod_eq_of_lt (by omega), State.reading, hval]
  show _ = _ + 65536 * s.statusOf i
  omega

theorem sampleOne_other (i : Nat) (s : State) {k : Nat} (h : k ≠ i) :
    Tab.get 0 (sampleOne i s).foreman.sens k = Tab.get 0 s.foreman.sens k ∧ (sampleOne i s).foreman.tripped.contains k = s.foreman.tripped.contains k := by
  obtain ⟨hsens, htripped⟩ := sampleOne_foreman i s
  rw [hsens, htripped]
  refine ⟨(Tab.get_set 0 s.foreman.sens i k _).trans (if_neg h), ?_⟩
  show (if s.statusOf i = 2 then s.foreman.tripped else s.foreman.tripped.filter fun j => j != i).contains k = _
  split
  · rfl
  · rw [Bool.eq_iff_iff]
    simp [h]

/-- The samples of the sensors below `n`. -/
def State.samples (s : State) (n : Nat) : State := (List.range n).foldl (fun s i => sampleOne i s) s

theorem State.samples_succ (s : State) (n : Nat) : s.samples (n + 1) = sampleOne n (s.samples n) := by
  rw [State.samples, List.range_succ, List.foldl_append]
  rfl

theorem State.samples_keeps (s : State) : ∀ n, SampleKeeps s (s.samples n)
  | 0 => SampleKeeps.refl s
  | n + 1 => by
    rw [State.samples_succ]
    exact (s.samples_keeps n).trans (sampleOne_keeps n _)

theorem State.samples_later (s : State) {k : Nat} : ∀ n, n ≤ k → (s.samples n).foreman.tripped.contains k = s.foreman.tripped.contains k
  | 0, _ => rfl
  | n + 1, h => by
    rw [State.samples_succ, (sampleOne_other n _ (by omega)).2]
    exact s.samples_later n (by omega)

theorem State.samples_sampled (s : State) {k : Nat} : ∀ n, k < n → Sampled s (s.samples n) k
  | n + 1, h => by
    rw [State.samples_succ]
    obtain rfl | hlt := Nat.eq_or_lt_of_le (Nat.le_of_lt_succ h)
    · obtain ⟨v, hlo, hhi, hval⟩ := sampleOne_sampled k (s.samples k)
      rw [s.samples_later k (Nat.le_refl _)] at hval
      exact ⟨v, hlo, hhi, hval⟩
    · obtain ⟨v, hlo, hhi, hval⟩ := s.samples_sampled n hlt
      exact ⟨v, hlo, hhi, by rw [(sampleOne_other n _ (by omega)).1]; exact hval⟩

/-! ### Trips -/

/-- A trip that has been noted and logged, before it acts. -/
def State.tripLogged (s : State) (i : Nat) : State := (s.modForeman fun f => { f with tripped := i :: f.tripped.filter fun j => j != i }).fmEvent 9 i

theorem State.tripLogged_rest (s : State) (i : Nat) : let t := s.tripLogged i
    SameMemRing s t ∧ t.foreman.evbase = s.foreman.evbase ∧ t.foreman.evlog = s.foreman.evlog ∧ i ∈ t.foreman.tripped ∧
      t.jobs = s.jobs ∧ t.bays = s.bays ∧ t.laths = s.laths ∧ t.chains = s.chains ∧ t.parts = s.parts := by
  generalize hu : s.modForeman (fun f => { f with tripped := i :: f.tripped.filter fun j => j != i }) = u
  have hforeman := u.fmEvent_foreman 9 i
  have hring := fmEvent_sameMemRing u 9 i
  obtain ⟨k, m, f, x, hrest⟩ := u.fmEvent_rest 9 i
  have heq : s.tripLogged i = u.fmEvent 9 i := by rw [← hu]; rfl
  dsimp only
  rw [heq]
  refine ⟨fun a ha => ?_, ?_, ?_, ?_, ?_⟩
  · have hbefore : u.mem = s.mem := by rw [← hu]; rfl
    rw [hring a (by rw [← hu]; exact ha), hbefore]
  · rw [hforeman, ← hu]
    rfl
  · rw [hforeman, ← hu]
    rfl
  · rw [hforeman, ← hu]
    exact List.mem_cons_self ..
  · rw [hrest, ← hu]
    exact ⟨rfl, rfl, rfl, rfl, rfl⟩

/-- A trip discards the partitions that it serves and blocks them until its condition has cleared (R464). -/
theorem State.trip_discards (s : State) (i : Nat) {cause : Nat} (hcause : blocks cause = true) : let t := s.trip i cause
    Discarded s t (· ∈ s.dieParts i) (BitVec.ofNat 8 cause) ∧ SameMemRing s t ∧ i ∈ t.foreman.tripped ∧
      (∀ q ∈ s.parts, q.1 ∈ s.dieParts i → (t.part q.1).blocked = true) ∧
      ∀ q, q ∉ s.dieParts i → t.part q = { s.part q with faults := (t.part q).faults } := by
  obtain ⟨hring, hbase, hlog, htripped, hjobs, hbays, hlaths, hchains, hparts⟩ := s.tripLogged_rest i
  have heq : s.trip i cause = (s.tripLogged i).discardEach (s.dieParts i) cause := rfl
  dsimp only
  rw [heq]
  generalize s.tripLogged i = u at hring hbase hlog htripped hjobs hbays hlaths hchains hparts ⊢
  have hkeeps := discardEach_keeps (s.dieParts i) cause u
  have hpart : ∀ q, u.part q = s.part q := fun q => congrArg (Tab.get ({} : Part) · q) hparts
  refine ⟨(discardEach_discards (s.dieParts i) cause u).congr hjobs hbays hlaths hchains, hring.trans hkeeps.ring hbase hlog, ?_, fun q hq hp => ?_,
    fun q hq => ?_⟩
  · rw [hkeeps.foreman]
    exact htripped
  · exact discardEach_blocked hcause _ (show u.hasPart q.1 from ⟨q.2, by rw [hparts]; exact hq⟩) (.inr hp)
  · rw [discardEach_part_other cause hq, hpart]

theorem dieParts_all (s : State) {i : Nat} (h : i < 24 ∨ 30 ≤ i) : (· ∈ s.dieParts i) = (· < 8) := by
  have hall : s.dieParts i = List.range 8 := by
    unfold State.dieParts
    rw [if_neg (by omega), if_neg (by omega)]
  funext p
  rw [hall, List.mem_range]

/-- Settles O57: the samples one by one, the trips by the discards of the partitions that they serve. -/
theorem sensorTripsDiscardWork : Obligations.SensorTripsDiscardWork := by
  unfold Obligations.SensorTripsDiscardWork
  intro s i p
  refine ⟨fun hstage htime => ?_, fun hi => ?_, fun hlo hhi => ?_, fun hlo hhi => ?_, fun hblocked => ?_⟩
  · have heq : sensorSample s = (s.modForeman fun f => { f with lastSample := s.clk.time }).samples 34 := by
      unfold sensorSample
      rw [if_neg (by simpa [Nat.not_lt.mpr htime] using hstage)]
      rfl
    have hkeeps := (s.modForeman fun f => { f with lastSample := s.clk.time }).samples_keeps 34
    have hsampled := fun k => (s.modForeman fun f => { f with lastSample := s.clk.time }).samples_sampled (k := k) 34
    generalize (s.modForeman fun f => { f with lastSample := s.clk.time }).samples 34 = t at heq hkeeps hsampled
    exact ⟨t, congrArg Host.Outcome.next heq, by rw [hkeeps.foreman]; rfl, hkeeps.ring, hkeeps.bays, hkeeps.parts, hsampled⟩
  · have h := s.trip_discards i (cause := 0xC8) rfl
    have hall := dieParts_all s (.inl hi)
    simp only [show ∀ q, (q ∈ s.dieParts i) = (q < 8) from fun q => congrFun hall q] at h
    exact ⟨s.trip i 0xC8, congrArg Host.Outcome.next (if_pos hi), h⟩
  · exact ⟨s.trip i 0xC7, congrArg Host.Outcome.next (if_pos ⟨hlo, hhi⟩), s.trip_discards i rfl⟩
  · have h := s.trip_discards i (cause := 0xC6) rfl
    have hall := dieParts_all s (.inr hlo)
    simp only [show ∀ q, (q ∈ s.dieParts i) = (q < 8) from fun q => congrFun hall q] at h
    exact ⟨s.trip i 0xC6, congrArg Host.Outcome.next (if_pos ⟨hlo, hhi⟩), h⟩
  · have hlogged := fmEvent_logged (s.modPart p fun x => { x with blocked := false }) 14 p
    obtain ⟨k, m, f, x, hrest⟩ := (s.modPart p fun x => { x with blocked := false }).fmEvent_rest 14 p
    refine ⟨_, congrArg Host.Outcome.next (if_pos hblocked), ?_, hlogged, ?_, ?_⟩
    · rw [hrest]
      show (s.modPart p fun x => { x with blocked := false }).part p = _
      rw [State.modPart_part_same]
    · rw [hrest]
      rfl
    · rw [hrest]
      rfl

end Sys2Proof.Machine
end

section
/-! A pair whose bays do not stand on the job that lists them (R455): where another pair of the job differs, the discard leaves such a bay, but the
comparison has already marked its operation as done. -/

namespace Sys2Proof.Machine

/-- A bay that has issued a merged operation, and that no job holds. -/
def postedBay (x : Word) : Bay := { live := true, merge := some [x] }

/-- A paired job whose twins agree in their first bays and differ in their second. -/
def looseTwins : State :=
  { jobs := [(0, { state := .run, paired := true, twin := some 1024, bays := [0, 1] }), (1024, { state := .run, paired := true, bays := [2, 3] })]
    bays := [(0, postedBay 1), (1, postedBay 1), (2, postedBay 1), (3, postedBay 2)] }

theorem looseTwins_nodup : ((looseTwins.pairs 0).flatMap fun x => [x.1, x.2]).Nodup := by decide +kernel

theorem looseTwins_differ : ∃ x ∈ looseTwins.pairs 0, ((looseTwins.bay x.1).posted = true ∧ (looseTwins.bay x.2).posted = true) ∧
    (looseTwins.bay x.1).merge ≠ (looseTwins.bay x.2).merge := by decide +kernel

theorem looseTwins_free : (looseTwins.bay 0).slot = none ∧ (looseTwins.bay 0).mergeDone = false := by decide +kernel

/-- The first pair's operation has been marked. -/
theorem pairMerge_looseTwins : ((pairMerge 0 looseTwins).bay 0).mergeDone = true := by decide +kernel

/-- Refutes O59: its clause on twins that differ says that every bay outside the discarded jobs keeps all, but it does not say that the bays that a job
lists stand on the job. In `looseTwins` they do not, and PAIR_MERGE changes bay 0 before it comes to the pair that differs. -/
theorem not_checksDiscardFaultyWork : ¬ Obligations.ChecksDiscardFaultyWork := by
  unfold Obligations.ChecksDiscardFaultyWork
  intro h
  obtain ⟨hpairs, -⟩ := h looseTwins 0 0 0 .comparator
  obtain ⟨-, hdiffer⟩ := hpairs (by decide) rfl rfl looseTwins_nodup
  obtain ⟨t, hexec, hdiscarded, -⟩ := hdiffer looseTwins_differ
  obtain rfl : pairMerge 0 looseTwins = t := Host.Outcome.next.inj hexec
  obtain ⟨hslot, hdone⟩ := looseTwins_free
  have hbay := hdiscarded.bays 0 fun e _ he => by rw [hslot] at he; cases he
  rw [← hbay, pairMerge_looseTwins] at hdone
  cases hdone

end Sys2Proof.Machine
end

section
/-! Spares (R327, R372, R373): the remap tables as an insertion leaves them. -/

namespace Sys2Proof.Machine

/-! ### The log of an insertion -/

/-- What an event of the Foreman's log keeps of the units. -/
theorem fmEvent_units (s : State) (kind unit : Nat) : let t := s.fmEvent kind unit
    t.remap = s.remap ∧ t.bays = s.bays ∧ t.jobs = s.jobs ∧ t.parts = s.parts := by
  obtain ⟨i, m, f, x, hrest⟩ := s.fmEvent_rest kind unit
  dsimp only
  rw [hrest]
  exact ⟨rfl, rfl, rfl, rfl⟩

/-- A change of the remap tables that is logged. -/
theorem remapped_logged (s : State) (r : Remap) (n : Nat) : let t := ({ s with remap := r } : State).spareDone n
    t.remap = r ∧ FmLogged s t ∧ t.bays = s.bays ∧ t.jobs = s.jobs ∧ t.parts = s.parts := by
  obtain ⟨hremap, hbays, hjobs, hparts⟩ := fmEvent_units { s with remap := r } 3 n
  exact ⟨hremap, fmEvent_logged { s with remap := r } 3 n, hbays, hjobs, hparts⟩

/-! ### Skip lists (R372) -/

theorem length_skipPut : ∀ (l : List (BitVec 11)) (n : Nat), (skipPut l n).length = l.length
  | [], _ => rfl
  | v :: l, n => by
    unfold skipPut
    split
    · rfl
    · simp [length_skipPut l n]

theorem toList_skipVec {k : Nat} {l : List (BitVec 11)} (h : l.length = k) : (skipVec k l).toList = l := by
  subst h
  refine List.ext_getElem (by simp) fun i h₁ h₂ => ?_
  simp [skipVec, nth]

/-- A skip list that has been put reads back. -/
theorem skipList_put {k : Nat} (t : Tab (Vector (BitVec 11) k)) (u n : Nat) :
    (skipList (Tab.put t u (skipVec k (skipPut (skipList t u).toList n))) u).toList = skipPut (skipList t u).toList n := by
  rw [skipList, Tab.get_put_same, toList_skipVec]
  rw [length_skipPut, Vector.length_toList]

theorem bayPlaces_free : ∀ v : BitVec 4, 0x7FF ∈ bayPlaces v → v = 0xF := by decide

/-- BAYSKIP's place takes a bay. -/
theorem bayPlaces_put {v : BitVec 4} {n : Nat} (hn : n < 9) (h : 0x7FF ∈ bayPlaces v) :
    bayPlaces (BitVec.ofNat 4 ((skipPut (bayPlaces v) n).headD 15).toNat) = skipPut (bayPlaces v) n := by
  obtain rfl := bayPlaces_free v h
  interval_cases n <;> decide

section Skips
variable {s : State} {bent n : Nat} {l : List (BitVec 11)} {put : List (BitVec 11) → Remap → Remap}

/-- Without a spare the unit's bent is lost, and its partitions are discarded. -/
theorem State.skipUnit_spent (hnew : BitVec.ofNat 11 n ∉ l) (hfull : 0x7FF ∉ l) : let t := s.skipUnit bent n l put
    bent ∈ t.remap.lost ∧ t.remap.spent = true ∧ Discarded s t (· ∈ s.bentParts bent) 0xC9 := by
  have heq : s.skipUnit bent n l put = s.exhausted (s.bentParts bent) (some bent) := by
    rw [State.skipUnit, if_neg (by simpa using hnew), if_pos (by simpa using hfull)]
  have hremap := (discardEach_keeps (s.bentParts bent) 0xC9
    { s with remap := { s.remap with lost := s.remap.lost ++ [bent], spent := s.remap.spent || true } }).remap
  dsimp only
  rw [heq]
  refine ⟨?_, ?_, (discardEach_discards (s.bentParts bent) 0xC9
    { s with remap := { s.remap with lost := s.remap.lost ++ [bent], spent := s.remap.spent || true } }).congr rfl rfl rfl rfl⟩
  · refine (congrArg (bent ∈ Remap.lost ·) hremap).mpr ?_
    simp
  · exact (congrArg Remap.spent hremap).trans (Bool.or_true _)

/-- At an idle point of the bent the skip list takes the unit. -/
theorem State.skipUnit_skips (hnew : BitVec.ofNat 11 n ∉ l) (hfree : 0x7FF ∈ l) (hidle : s.bentIdle bent = true) :
    s.skipUnit bent n l put = ({ s with remap := put (skipPut l n) s.remap } : State).spareDone n := by
  rw [State.skipUnit, if_neg (by simpa using hnew), if_neg (by simpa using hfree), if_neg (by simp [hidle])]

theorem State.skipUnit_waits (hnew : BitVec.ofNat 11 n ∉ l) (hfree : 0x7FF ∈ l) (hidle : s.bentIdle bent = false) : s.skipUnit bent n l put = s := by
  rw [State.skipUnit, if_neg (by simpa using hnew), if_neg (by simpa using hfree), if_pos (by simp [hidle])]

/-- An insertion that is the retirement of a unit of a bent, by what `get` reads of the tables. -/
theorem skips_of (i : Instr) (get : State → List (BitVec 11)) (hexec : exec i s = .next (s.skipUnit bent n (get s) put))
    (hget : ∀ t, 0x7FF ∈ get s → t.remap = put (skipPut (get s) n) s.remap → get t = skipPut (get s) n) (hnew : BitVec.ofNat 11 n ∉ get s) :
    (0x7FF ∉ get s → ∃ t, exec i s = .next t ∧ bent ∈ t.remap.lost ∧ t.remap.spent = true ∧ Discarded s t (· ∈ s.bentParts bent) 0xC9) ∧
    (0x7FF ∈ get s → s.bentIdle bent = true → ∃ t, exec i s = .next t ∧ get t = skipPut (get s) n ∧ FmLogged s t ∧
      t.bays = s.bays ∧ t.jobs = s.jobs ∧ t.parts = s.parts) ∧
    (0x7FF ∈ get s → s.bentIdle bent = false → exec i s = .next s) := by
  refine ⟨fun hfull => ⟨_, hexec, State.skipUnit_spent hnew hfull⟩, fun hfree hidle => ?_, fun hfree hidle => ?_⟩
  · obtain ⟨hremap, hlogged, hbays, hjobs, hparts⟩ := remapped_logged s (put (skipPut (get s) n) s.remap) n
    rw [State.skipUnit_skips hnew hfree hidle] at hexec
    exact ⟨_, hexec, hget _ hfree hremap, hlogged, hbays, hjobs, hparts⟩
  · rw [hexec, State.skipUnit_waits hnew hfree hidle]

end Skips

/-! ### Laths, jointers and slices (R327, R372) -/

section Units
variable {s : State} {n : Nat}

theorem State.spareForLath_retires (hdef : s.remap.lathdef.getLsbD n = false) (hslot : (s.lathAt n).slot = none)
    (hspare : ((List.range 104).countP fun i => s.remap.lathdef.getLsbD i && lathCode i == lathCode n) < lathSpares (lathCode n)) :
    s.spareForLath n = s.retireLath n := by
  have hbit : s.remap.lathdef.toNat.testBit n = false := hdef
  rw [List.countP_eq_length_filter] at hspare
  have hspare' : ¬ ((List.range 104).filter fun i => s.remap.lathdef.toNat.testBit i && lathCode i == lathCode n).length ≥ lathSpares (lathCode n) :=
    Nat.not_le.mpr hspare
  simp only [State.spareForLath, hbit, hspare', hslot, Option.isSome_none, Bool.false_eq_true, if_false]

/-- A retired lath stands in LATHDEF, and DEFSIG is formed again. -/
theorem State.retireLath_retires (s : State) (n : Nat) : let t := s.retireLath n
    t.remap.lathdef = s.remap.lathdef ||| BitVec.ofNat 104 (2 ^ n) ∧ t.remap.defsig = signatureOf t.remap.lathdef ∧ SameMemRing s t ∧
      t.bays = s.bays ∧ t.jobs = s.jobs := by
  unfold State.retireLath
  dsimp only
  generalize hu : ({ s with remap := _ } : State) = u
  obtain ⟨hremap, hbays, hjobs, -⟩ := fmEvent_units u 3 n
  have hforeman := u.fmEvent_foreman 3 n
  have hring := fmEvent_sameMemRing u 3 n
  generalize u.fmEvent 3 n = v at hremap hbays hjobs hforeman hring
  obtain ⟨hremap', hbays', hjobs', -⟩ := fmEvent_units v 4 n
  have hrings : SameMemRing u (v.fmEvent 4 n) := hring.trans (fmEvent_sameMemRing v 4 n) (by rw [hforeman]) (by rw [hforeman])
  rw [hremap', hbays', hjobs', hremap, hbays, hjobs]
  subst hu
  exact ⟨rfl, rfl, hrings, rfl, rfl⟩

/-- A physical jointer that no logical one names and that is not retired. -/
def State.jointerFree (s : State) (k : Nat) : Prop := (∀ m, m < 96 → s.jointerOf m ≠ k) ∧ (1, k) ∉ s.remap.retired

/-- The physical jointers that are in use or retired. -/
def State.jointersUsed (s : State) : List Nat := (List.range 96).map s.jointerOf ++ (s.remap.retired.filter fun e => e.1 = 1).map fun e => e.2

theorem State.jointerFree_iff (s : State) (k : Nat) : s.jointerFree k ↔ (!s.jointersUsed.contains k) = true := by
  simp only [State.jointerFree, State.jointersUsed, List.contains_eq_mem, List.mem_append, List.mem_map, List.mem_range, List.mem_filter,
    Bool.not_eq_true', decide_eq_false_iff_not, not_or, not_exists, not_and, decide_eq_true_eq]
  refine and_congr Iff.rfl ⟨fun h e he hk => ?_, fun h hmem => h (1, k) ⟨hmem, rfl⟩ rfl⟩
  obtain ⟨a, b⟩ := e
  obtain ⟨hmem, rfl⟩ := he
  obtain rfl := hk
  exact h hmem

/-- A logical jointer moves to the lowest free physical one. -/
theorem State.spareForJointer_moves (hidle : s.jointerIdle n = true) (hfree : ∃ k, k < 104 ∧ s.jointerFree k) : let t := s.spareForJointer n
    s.jointerFree (t.jointerOf n) ∧ (∀ k, k < t.jointerOf n → ¬ s.jointerFree k) ∧ (∀ m, m ≠ n → t.jointerOf m = s.jointerOf m) ∧
      FmLogged s t ∧ t.bays = s.bays := by
  obtain ⟨next, hnext⟩ : ∃ next, (List.range 104).find? (fun k => !s.jointersUsed.contains k) = some next := by
    obtain ⟨k, hk, hkfree⟩ := hfree
    refine Option.isSome_iff_exists.1 (List.find?_isSome.2 ⟨k, List.mem_range.2 hk, (s.jointerFree_iff k).1 hkfree⟩)
  have heq : s.spareForJointer n = ({ s with remap := { s.remap with
      jointmap := Tab.put s.remap.jointmap n (BitVec.ofNat 7 next), retired := (1, s.jointerOf n) :: s.remap.retired } } : State).spareDone n := by
    unfold State.spareForJointer
    change (match (List.range 104).find? (fun k => !s.jointersUsed.contains k) with | none => _ | some next => _) = _
    rw [hnext]
    simp [hidle]
  have hlt : next < 104 := List.mem_range.1 (List.mem_of_find?_eq_some hnext)
  obtain ⟨hremap, hlogged, hbays, -, -⟩ := remapped_logged s { s.remap with
    jointmap := Tab.put s.remap.jointmap n (BitVec.ofNat 7 next), retired := (1, s.jointerOf n) :: s.remap.retired } n
  dsimp only
  rw [heq]
  generalize ({ s with remap := _ } : State).spareDone n = t at hremap hlogged hbays
  have hown : t.jointerOf n = next := by
    rw [State.jointerOf, hremap, Tab.get_put_same, BitVec.toNat_ofNat, Nat.mod_eq_of_lt (by omega)]
  refine ⟨?_, fun k hk => ?_, fun m hm => ?_, hlogged, hbays⟩
  · rw [hown, State.jointerFree_iff]
    exact (List.find?_range_eq_some.1 hnext).1
  · rw [hown] at hk
    rw [State.jointerFree_iff]
    simpa using (List.find?_range_eq_some.1 hnext).2.2 k hk
  · rw [State.jointerOf, hremap, Tab.get_put_ne _ _ _ hm]
    rfl

/-- A slice is copied to the spare of its wing. -/
theorem State.spareForSlice_copies (hused : ∀ m, m < 32 → s.sliceOf m ≠ spareSlice n) (hretired : (0, spareSlice n) ∉ s.remap.retired)
    (hcopying : ∀ e ∈ s.remap.copying, e.1 ≠ n ∧ e.2 ≠ spareSlice n) :
    s.spareForSlice n = { s with remap := { s.remap with copying := (n, spareSlice n) :: s.remap.copying } } := by
  have hown : ¬ (s.remap.copying.any fun e => e.1 == n) = true := by simpa using fun b h => (hcopying (n, b) h).1 rfl
  have hspare : ¬ ((List.range 32).any (fun i => s.sliceOf i == spareSlice n) || s.remap.retired.contains (0, spareSlice n) ||
      s.remap.copying.any fun e => e.2 == spareSlice n) = true := by
    simp only [Bool.or_eq_true, List.any_eq_true, List.mem_range, beq_iff_eq, List.contains_eq_mem, decide_eq_true_eq, not_or, not_exists, not_and]
    exact ⟨⟨hused, hretired⟩, fun e he => (hcopying e he).2⟩
  unfold State.spareForSlice
  dsimp only
  rw [if_neg hown, if_neg hspare]

/-- The slice map names the spare once the copy is complete (log 35). -/
theorem sliceCopyComplete_maps {p : Nat} (hp : p < 64) (hfind : s.remap.copying.find? (fun e => e.1 = n) = some (n, p)) : let t := sliceCopyComplete n s
    t.sliceOf n = p ∧ t.remap.copying = s.remap.copying.filter (fun e => e.1 != n) ∧ (∀ m, m ≠ n → t.sliceOf m = s.sliceOf m) ∧
      FmLogged s t ∧ t.bays = s.bays := by
  have heq : sliceCopyComplete n s = ({ s with remap := { s.remap with
      copying := s.remap.copying.filter fun e => e.1 != n, slicemap := Tab.put s.remap.slicemap n (BitVec.ofNat 6 p)
      retired := (0, s.sliceOf n) :: s.remap.retired } } : State).spareDone n := by
    rw [sliceCopyComplete, hfind]
  obtain ⟨hremap, hlogged, hbays, -, -⟩ := remapped_logged s { s.remap with
    copying := s.remap.copying.filter fun e => e.1 != n, slicemap := Tab.put s.remap.slicemap n (BitVec.ofNat 6 p)
    retired := (0, s.sliceOf n) :: s.remap.retired } n
  dsimp only
  rw [heq]
  generalize ({ s with remap := _ } : State).spareDone n = t at hremap hlogged hbays
  refine ⟨?_, by rw [hremap], fun m hm => ?_, hlogged, hbays⟩
  · rw [State.sliceOf, hremap, Tab.get_put_same, BitVec.toNat_ofNat, Nat.mod_eq_of_lt hp]
  · rw [State.sliceOf, hremap, Tab.get_put_ne _ _ _ hm]
    rfl

end Units

/-- Settles O58: the four kinds of skip list by the one rule of their insertion, and laths, jointers and slices each by its own. -/
theorem sparesReplaceFailedUnits : Obligations.SparesReplaceFailedUnits := by
  unfold Obligations.SparesReplaceFailedUnits
  intro s o n hrdy
  have hinsert : ∀ u, exec (.spareInsertion u o n) s = .next (spareInsertion u o n s) := fun _ => rfl
  refine ⟨fun ho hn => ?_, fun ho hn => ?_, fun ho hn => ?_, fun ho hn => ?_, fun hn hdef hslot hspare => ?_, fun hn hidle hfree => ?_,
    fun hn hused hretired hcopying => ?_, fun p hp hfind => ?_⟩
  · refine skips_of _ (fun t => bayPlaces (Tab.get 0xF t.remap.bayskip o))
      (put := fun l r => { r with bayskip := Tab.put r.bayskip o (BitVec.ofNat 4 (l.headD 15).toNat) }) ?_ fun t hfree hremap => ?_
    · simp [hinsert, spareInsertion, hrdy, Nat.not_le.mpr ho, Nat.not_le.mpr hn]
    · rw [hremap, Tab.get_put_same, bayPlaces_put hn hfree]
  · refine skips_of _ (fun t => (skipList t.remap.bankskip o).toList) (put := fun l r => { r with bankskip := Tab.put r.bankskip o (skipVec 8 l) }) ?_
      fun t _ hremap => ?_
    · simp [hinsert, spareInsertion, hrdy, Nat.not_le.mpr ho, Nat.not_le.mpr hn]
    · rw [hremap, skipList_put]
  · refine skips_of _ (fun t => (skipList t.remap.colskip o).toList) (put := fun l r => { r with colskip := Tab.put r.colskip o (skipVec 16 l) }) ?_
      fun t _ hremap => ?_
    · simp [hinsert, spareInsertion, hrdy, Nat.not_le.mpr ho, Nat.not_le.mpr hn]
    · rw [hremap, skipList_put]
  · refine skips_of _ (fun t => (skipList t.remap.rowskip o).toList) (put := fun l r => { r with rowskip := Tab.put r.rowskip o (skipVec 32 l) }) ?_
      fun t _ hremap => ?_
    · simp [hinsert, spareInsertion, hrdy, Nat.not_le.mpr ho, Nat.not_le.mpr hn]
    · rw [hremap, skipList_put]
  · refine ⟨s.retireLath n, (hinsert .lath).trans (congrArg Host.Outcome.next ?_), s.retireLath_retires n⟩
    simp [spareInsertion, hrdy, Nat.not_le.mpr hn, State.spareForLath_retires hdef hslot hspare]
  · refine ⟨s.spareForJointer n, (hinsert .jointer).trans (congrArg Host.Outcome.next ?_), State.spareForJointer_moves hidle hfree⟩
    simp [spareInsertion, hrdy, Nat.not_le.mpr hn]
  · refine (hinsert .slice).trans (congrArg Host.Outcome.next ?_)
    simp [spareInsertion, hrdy, Nat.not_le.mpr hn, State.spareForSlice_copies hused hretired hcopying]
  · exact ⟨sliceCopyComplete n s, rfl, sliceCopyComplete_maps hp hfind⟩

end Sys2Proof.Machine
end

section
/-! Boot and link faults (R442, R444, R445). -/

namespace Sys2Proof.Machine

/-! ### Power-on -/

/-- Nothing of the device runs, the flash keeps, and of memory what lies outside the device. -/
structure Down (s t : State) : Prop where
  parts : t.parts = State.reset.parts
  jobs : t.jobs = State.reset.jobs
  chains : t.chains = State.reset.chains
  bays : t.bays = State.reset.bays
  slots : t.foreman.slots = s.foreman.slots
  mem : t.mem = s.mem.filter fun c => decide (c.1 ≥ hostAddr 0)

theorem powerOn_down (s : State) : Down s (powerOn s) := ⟨rfl, rfl, rfl, rfl, rfl, rfl⟩

section Downs
variable {s t : State}

theorem Down.bootFails (h : Down s t) (stage err : Nat) : Down s (bootFails stage err t) := ⟨h.parts, h.jobs, h.chains, h.bays, h.slots, h.mem⟩

theorem Down.part (h : Down s t) (p : Nat) : (t.part p).up = false := by
  rw [State.part, h.parts]
  rfl

theorem Down.job (h : Down s t) (n : Nat) : (t.job n).state = .free := by
  rw [State.job, h.jobs]
  rfl

theorem Down.chain (h : Down s t) (c : Nat) : chainEn (t.chain c) = false := by
  rw [State.chain, h.chains]
  show chainEn {} = false
  decide

theorem Down.bay (h : Down s t) (b : Nat) : (t.bay b).live = false := by
  rw [State.bay, h.bays]
  rfl

theorem Down.read (h : Down s t) (a : Nat) : Memory.read t.mem a = if hostAddr 0 ≤ a then Memory.read s.mem a else unlisted := by
  rw [h.mem, Memory.read, Tab.get_filter unlisted (fun a => decide (a ≥ hostAddr 0))]
  simp [Memory.read]

/-- What the statement says of a device that is down. -/
theorem Down.all (h : Down s t) : (∀ p, (t.part p).up = false) ∧ (∀ n, (t.job n).state = .free) ∧ (∀ c, chainEn (t.chain c) = false) ∧
    (∀ b, (t.bay b).live = false) ∧ t.foreman.slots = s.foreman.slots ∧
    ∀ a, Memory.read t.mem a = if hostAddr 0 ≤ a then Memory.read s.mem a else unlisted :=
  ⟨h.part, h.job, h.chain, h.bay, h.slots, h.read⟩

end Downs

/-! ### The steps of the boot (R445) -/

/-- The Foreman's slot that a boot starts. -/
def Foreman.bootSlot (f : Foreman) : Bool := if f.good 0 f.fmNext then f.fmNext else !f.fmNext

/-- The device with its Foreman started. -/
def foremanOn (s : State) : State := { powerOn s with foreman := { (powerOn s).foreman with fma := s.foreman.bootSlot } }

theorem foremanOn_down (s : State) : Down s (foremanOn s) := ⟨rfl, rfl, rfl, rfl, rfl, rfl⟩

theorem boot_eq {s : State} (hgood : s.foreman.good 0 s.foreman.fmNext = true ∨ s.foreman.good 0 (!s.foreman.fmNext) = true) (ok : Bool) :
    boot ok s = if ok then bootOn none (foremanOn s)
      else match (foremanOn s).fresh.1.toNat % 3 with
        | 0 => bootFails 2 0x03 (foremanOn s).fresh.2
        | 1 => bootOn (some 0x05) (foremanOn s).fresh.2
        | _ => bootOn (some 0x06) (foremanOn s).fresh.2 := by
  have hcond : ¬ (!s.foreman.good 0 s.foreman.fmNext && !s.foreman.good 0 (!s.foreman.fmNext)) = true := by
    rcases hgood with h | h <;> simp [h]
  exact if_neg hcond

theorem boot_stops {s : State} (hslot : s.foreman.good 0 s.foreman.fmNext = false) (hother : s.foreman.good 0 (!s.foreman.fmNext) = false) (ok : Bool) :
    boot ok s = bootFails 0 0x01 (powerOn s) := by
  have hcond : (!s.foreman.good 0 s.foreman.fmNext && !s.foreman.good 0 (!s.foreman.fmNext)) = true := by simp [hslot, hother]
  exact if_pos hcond

/-- The errors of a boot that a started Foreman stops. -/
theorem bootFails_err (stage : Nat) {err : Nat} (h : err ∈ [0x03, 0x04, 0x05, 0x06]) (t : State) :
    (bootFails stage err t).boot.err ∈ ([0x03, 0x04, 0x05, 0x06] : List (BitVec 8)) := by
  have hall : ∀ e ∈ [0x03, 0x04, 0x05, 0x06], BitVec.ofNat 8 e ∈ ([0x03, 0x04, 0x05, 0x06] : List (BitVec 8)) := by decide
  exact hall err h

section BootOn
variable {s t : State} {err : Option Nat}

theorem bootOn_spent (h : t.remap.spent = true) : bootOn err t = bootFails 3 0x04 t := if_pos h

theorem bootOn_bad (h : t.remap.spent = false) (hgood : t.foreman.good 1 t.foreman.frNext = false) : bootOn err t = bootFails 4 0x05 (loadRemap t) := by
  have hbad : (!t.foreman.good 1 t.foreman.frNext) = true := by rw [hgood]; rfl
  exact (if_neg (by simp [h])).trans (if_pos hbad)

theorem bootOn_good (h : t.remap.spent = false) (hgood : t.foreman.good 1 t.foreman.frNext = true) : bootOn err t =
    match err with
    | some e => bootFails 4 e (loadRemap t)
    | none => { loadRemap t with
        boot := { stage := 6, rdy := true }
        foreman := { (t.foreman.raiseSvn 0 (t.foreman.slot 0 t.foreman.fma)).raiseSvn 1 (t.foreman.slot 1 t.foreman.frNext) with
          fra := t.foreman.frNext, frver := BitVec.ofNat 32 (fwVersion (t.foreman.slot 1 t.foreman.frNext)) } } := by
  have hnot : ¬ (!t.foreman.good 1 t.foreman.frNext) = true := by simp [hgood]
  refine (if_neg (by simp [h])).trans ((if_neg hnot).trans ?_)
  cases err <;> rfl

/-- A boot that the outside fails stops with one of four errors. -/
theorem bootOn_fails {e : Nat} (he : e = 0x05 ∨ e = 0x06) (hdown : Down s t) : let u := bootOn (some e) t
    Down s u ∧ u.boot.rdy = false ∧ u.boot.err ∈ ([0x03, 0x04, 0x05, 0x06] : List (BitVec 8)) ∧ u.foreman.fma = t.foreman.fma := by
  have hload : Down s (loadRemap t) := ⟨hdown.parts, hdown.jobs, hdown.chains, hdown.bays, hdown.slots, hdown.mem⟩
  dsimp only
  cases hspent : t.remap.spent with
  | true =>
    rw [bootOn_spent hspent]
    exact ⟨hdown.bootFails 3 0x04, rfl, bootFails_err 3 (by decide) _, rfl⟩
  | false =>
    cases hgood : t.foreman.good 1 t.foreman.frNext with
    | false =>
      rw [bootOn_bad hspent hgood]
      exact ⟨hload.bootFails 4 0x05, rfl, bootFails_err 4 (by decide) _, rfl⟩
    | true =>
      rw [bootOn_good hspent hgood]
      exact ⟨hload.bootFails 4 e, rfl, bootFails_err 4 (by rcases he with rfl | rfl <;> decide) _, rfl⟩

end BootOn

/-- Settles O51: the boot step by step, and a link's fault by the discard of the partitions that it serves. -/
theorem bootRunsOrStops : Obligations.BootRunsOrStops := by
  unfold Obligations.BootRunsOrStops
  intro s
  have hdown := foremanOn_down s
  have hload : Down s (loadRemap (foremanOn s)) := ⟨rfl, rfl, rfl, rfl, rfl, rfl⟩
  refine ⟨fun hgood => ⟨fun hspent => ?_, fun hspent hfr => ?_, fun hspent hfr => ?_, ?_⟩, fun hslot hother ok => ?_, fun p => ?_, ?_⟩
  · refine ⟨bootFails 3 0x04 (foremanOn s), congrArg Host.Outcome.next ?_, (hdown.bootFails _ _).all, rfl, rfl⟩
    rw [boot_eq hgood, if_pos rfl, bootOn_spent (t := foremanOn s) hspent]
  · have heq : boot true s = _ := (boot_eq hgood true).trans ((if_pos rfl).trans (bootOn_good (t := foremanOn s) (err := none) hspent hfr))
    have hsvn : ((((foremanOn s).foreman.raiseSvn 0 (s.foreman.slot 0 s.foreman.bootSlot)).raiseSvn 1 (s.foreman.slot 1 s.foreman.frNext)).svnMin 0) =
        max (s.foreman.svnMin 0) (fwSvn (s.foreman.slot 0 s.foreman.bootSlot)) :=
      (Tab.get_put_ne _ _ _ (by decide)).trans (Tab.get_put_same _ _ _ _)
    refine ⟨_, congrArg Host.Outcome.next heq, Down.all ⟨rfl, rfl, rfl, rfl, rfl, rfl⟩, rfl, rfl, rfl, rfl, ?_, ?_, rfl⟩
    · exact le_of_le_of_eq (Nat.le_max_left ..) hsvn.symm
    · exact le_of_le_of_eq (Nat.le_max_right ..) hsvn.symm
  · refine ⟨bootFails 4 0x05 (loadRemap (foremanOn s)), congrArg Host.Outcome.next ?_, (hload.bootFails _ _).all, rfl, rfl⟩
    rw [boot_eq hgood, if_pos rfl, bootOn_bad (t := foremanOn s) hspent hfr]
  · have hfresh : Down s (foremanOn s).fresh.2 := ⟨rfl, rfl, rfl, rfl, rfl, rfl⟩
    have hfails : let u := boot false s
        Down s u ∧ u.boot.rdy = false ∧ u.boot.err ∈ ([0x03, 0x04, 0x05, 0x06] : List (BitVec 8)) ∧ u.foreman.fma = s.foreman.bootSlot := by
      dsimp only
      rw [boot_eq hgood, if_neg (by decide)]
      split
      · exact ⟨hfresh.bootFails 2 0x03, rfl, bootFails_err 2 (by decide) _, rfl⟩
      · exact bootOn_fails (.inl rfl) hfresh
      · exact bootOn_fails (.inr rfl) hfresh
    obtain ⟨hd, hrdy, herr, hfma⟩ := hfails
    exact ⟨boot false s, rfl, hd.all, hrdy, herr, hfma⟩
  · exact ⟨_, congrArg Host.Outcome.next (boot_stops hslot hother ok), ((powerOn_down s).bootFails _ _).all, rfl, rfl⟩
  · exact ⟨s.discard p 0xC2, rfl, discard_discards s p 0xC2, discard_sameMemRing s p 0xC2⟩
  · exact ⟨s.discardAll 0xC2, rfl, discardAll_discards s 0xC2, (discardAll_keeps s 0xC2).ring⟩

end Sys2Proof.Machine
end

section
/-! Partition set-up, teardown and function reset (R446, R447, R449, R477). -/

namespace Sys2Proof.Machine

/-! ### Jobs beside a job that leaves or is killed -/

/-- A job that other jobs' ends have left in its place: a waiting one may fail with them (R311). -/
structure JobKept (j k : Job) : Prop where
  state : k.state = j.state
  ended : k.ended = j.ended
  cause : k.cause = j.cause
  status : j.state ≠ .wait → k.status = j.status

theorem JobKept.refl (j : Job) : JobKept j j := ⟨rfl, rfl, rfl, fun _ => rfl⟩

theorem JobKept.trans {i j k : Job} (h : JobKept i j) (g : JobKept j k) : JobKept i k :=
  ⟨g.state.trans h.state, g.ended.trans h.ended, g.cause.trans h.cause, fun hw => (g.status (by rwa [h.state])).trans (h.status hw)⟩

/-- A job of which only the dependences change. -/
theorem jobKept_of_deps {j k : Job} (h : k = { j with deps := k.deps }) : JobKept j k := by
  rw [h]
  exact ⟨rfl, rfl, rfl, fun _ => rfl⟩

theorem Job.settled_kept (j : Job) (p : Nat) (jobid : Word) (ok : Bool) : JobKept j (j.settled p jobid ok) := by
  unfold Job.settled
  split
  next hwait =>
    split
    · exact ⟨rfl, rfl, rfl, fun _ => rfl⟩
    · simp only [Bool.and_eq_true, beq_iff_eq] at hwait
      exact ⟨rfl, rfl, rfl, fun h => absurd hwait.1.2 h⟩
  next => exact JobKept.refl j

theorem State.dropHolds_jobs (s : State) (l : List (Nat × Nat)) : (l.foldl (fun s (e : Nat × Nat) => s.dropHold e.1 e.2) s).jobs = s.jobs := by
  obtain ⟨h, hdrop⟩ := s.dropHolds_rest l
  rw [hdrop]

theorem State.releaseGroup_job (s : State) (g n : Nat) : JobKept (s.job n) ((s.releaseGroup g).job n) := by
  have hjobs : (s.releaseGroup g).jobs = s.latchCounts.jobs := State.dropHolds_jobs s.latchCounts (s.latchCounts.group g).held
  rw [State.job_congr hjobs n]
  exact jobKept_of_deps (State.latchDeps_job s _ n)

theorem releaseCopy_job (s : State) (k n : Nat) : JobKept (s.job n) ((releaseCopy k s).job n) := by
  have hjobs : (releaseCopy k s).jobs = (((s.groups.filter fun e => e.2.slot.toNat = k % 1024 && e.2.part.toNat = (s.job k).part).map fun e => e.1).foldl
      (fun s g => (s.releaseGroup g).setGroup g { (s.releaseGroup g).group g with armed := false, due := [] }) s).jobs := rfl
  rw [State.job_congr hjobs n]
  exact List.foldlRecOn (motive := fun t : State => JobKept (s.job n) (t.job n)) _ _ (JobKept.refl _) fun t h g _ => h.trans (t.releaseGroup_job g n)

theorem leaveReleased_job (m status cause code : Nat) (s : State) (n : Nat) : JobKept (s.job n) ((leaveReleased m status cause code s).job n) := by
  obtain ⟨i, l, -, hrecord⟩ := completionRecord_eq (s.job m).part (s.job m).crec (s.job m).jobid status cause code (s.job m).fbay.toNat
    (s.job m).frec.toNat (if (s.job m).placed then some (s.job m).placedTime else none) s
  unfold leaveReleased State.releaseCopies
  dsimp only
  rw [hrecord]
  exact List.foldlRecOn (motive := fun t : State => JobKept (s.job n) (t.job n)) _ _ (JobKept.refl _) fun t h k _ => h.trans (releaseCopy_job t k n)

/-- The departure of another job. -/
theorem leave_job_other {m n : Nat} (hmn : n ≠ m) (hn : n < 256) (status cause code : Nat) (s : State) :
    JobKept (s.job n) ((leave m status cause code s).job n) := by
  rw [leave_eq]
  have hreleased := leaveReleased_job m status cause code s n
  generalize leaveReleased m status cause code s = u at hreleased ⊢
  have herase : ({ u with jobs := Tab.erase (twinSlot m) (Tab.erase m u.jobs) } : State).job n = u.job n :=
    (Tab.get_erase_ne _ (by unfold twinSlot; omega) _).trans (Tab.get_erase_ne _ hmn _)
  generalize ({ u with jobs := Tab.erase (twinSlot m) (Tab.erase m u.jobs) } : State) = v at herase ⊢
  have hsettled := Job.settled_kept (v.job n) (s.job m).part (s.job m).jobid (status = 0)
  rw [← settle_job, herase] at hsettled
  generalize settle (s.job m).part (s.job m).jobid (status = 0) v = w at hsettled ⊢
  obtain ⟨x, hqueue⟩ := queueIdle_jobs (s.job m).part (s.job m).queue w
  generalize queueIdle (s.job m).part (s.job m).queue w = y at hqueue ⊢
  obtain ⟨⟨z, hend⟩, -⟩ := endPreempt_keeps (s.job m).part (s.job m).jobid 2 y
  rw [hend]
  subst hqueue
  exact hreleased.trans hsettled

/-- The kill of another job. -/
theorem killJob_job_other {m n : Nat} (hmn : n ≠ m) (hn : n < 256) (s : State) : JobKept (s.job n) ((killJob m s).job n) := by
  unfold killJob
  dsimp only
  split
  · exact leave_job_other hmn hn ..
  · split
    · exact JobKept.refl _
    · have hset : ∀ j, (s.setJob m j).job n = s.job n := fun j => State.setJob_job_ne s j hmn
      split
      · rw [hset]
        exact JobKept.refl _
      · have hmod : ∀ (u : State) f, ((stopJob m u).modJob m f).job n = u.job n := fun u f => State.modJob_job_ne (stopJob m u) f hmn
        rw [hmod, hset]
        exact JobKept.refl _

/-! ### The kills of a function reset (R449) -/

/-- What a kill of every job makes of one of them. -/
structure Reset (j k : Job) : Prop where
  leaves : j.state = .wait ∨ j.state = .ready → k.state = .free
  ends : j.holds → j.ended = false → k.status = 3 ∧ k.cause = 0xF1 ∧ k.ended = true

theorem Job.holds_not_wait {j : Job} (h : j.holds) : j.state ≠ .wait ∧ j.state ≠ .ready ∧ j.state ≠ .free := by
  rcases h with h | h | h <;> rw [h] <;> exact ⟨by decide, by decide, by decide⟩

theorem killJob_state_free {n : Nat} {s : State} (h : (s.job n).state = .free) : ((killJob n s).job n).state = .free := by
  have hwait : ((s.job n).state == .wait || (s.job n).state == .ready) = false := by rw [h]; rfl
  unfold killJob
  dsimp only
  rw [hwait]
  simp only [Bool.false_eq_true, if_false]
  split
  · exact h
  · split
    · rw [State.setJob_job_same]
      exact h
    · generalize hu : s.setJob n _ = u
      have hjob : (stopJob n u).job n = u.job n := rfl
      rw [State.modJob_job_same, hjob, ← hu, State.setJob_job_same]
      exact h

theorem killJob_ended {n : Nat} {s : State} (hh : (s.job n).holds) (he : (s.job n).ended = true) : killJob n s = s := by
  obtain ⟨hwait, hready, -⟩ := Job.holds_not_wait hh
  simp [killJob, hwait, hready, he]

theorem killJob_state {n : Nat} {s : State} (hh : (s.job n).holds) (he : (s.job n).ended = false) : ((killJob n s).job n).state = (s.job n).state := by
  by_cases hstop : (s.job n).stopping = false ∨ (s.job n).state ≠ .run
  · have hjob : ((s.setJob n (s.job n).killed).dropWork (s.copies n)).job n = (s.job n).killed := State.setJob_job_same _ _ _
    rw [killJob_stops hh he hstop, State.modJob_job_same, hjob]
    rfl
  · simp only [not_or, Bool.not_eq_false, Decidable.not_not] at hstop
    rw [killJob_saving hstop.2 he hstop.1, State.setJob_job_same]
    rfl

/-- The kills of a list of jobs. -/
def State.killList (s : State) (l : List (Nat × Job)) : State := l.foldl (fun s e => killJob e.1 s) s

theorem State.killList_cons (s : State) (e : Nat × Job) (l : List (Nat × Job)) : s.killList (e :: l) = (killJob e.1 s).killList l := rfl

section Kills
variable {n : Nat} (hn : n < 256) (l : List (Nat × Job))
include hn

theorem State.killList_free {s : State} (h : (s.job n).state = .free) : ((s.killList l).job n).state = .free := by
  induction l generalizing s with
  | nil => exact h
  | cons e l ih =>
    rw [State.killList_cons]
    refine ih ?_
    by_cases he : n = e.1
    · exact he ▸ killJob_state_free (he ▸ h)
    · exact (killJob_job_other he hn s).state.trans h

/-- A job that has been killed stays so. -/
theorem State.killList_killed {s : State} (h : (s.job n).holds) (he : (s.job n).ended = true) :
    ((s.killList l).job n).status = (s.job n).status ∧ ((s.killList l).job n).cause = (s.job n).cause ∧ ((s.killList l).job n).ended = true := by
  induction l generalizing s with
  | nil => exact ⟨rfl, rfl, he⟩
  | cons e l ih =>
    rw [State.killList_cons]
    by_cases hen : n = e.1
    · rw [← hen, killJob_ended h he]
      exact ih h he
    · have hkept := killJob_job_other hen hn s
      obtain ⟨hstatus, hcause, hended⟩ := ih ((Job.holds_congr hkept.state).2 h) (hkept.ended.trans he)
      exact ⟨hstatus.trans (hkept.status (Job.holds_not_wait h).1), hcause.trans hkept.cause, hended⟩

/-- Each job of the list leaves or ends. -/
theorem State.killList_resets {s : State} (hmem : ∃ j, (n, j) ∈ l) : Reset (s.job n) ((s.killList l).job n) := by
  induction l generalizing s with
  | nil => simp at hmem
  | cons e l ih =>
    rw [State.killList_cons]
    by_cases hen : n = e.1
    · rw [← hen]
      refine ⟨fun hstate => State.killList_free hn l ?_, fun hh he => ?_⟩
      · rw [killJob_leaves hstate]
        exact (leave_left n 3 0xF1 0 s).entry
      · obtain ⟨⟨hstatus, hcause, hend⟩, -⟩ := killJob_ends hh he
        have hstill : ((killJob n s).job n).holds := (Job.holds_congr (killJob_state hh he)).2 hh
        obtain ⟨hs, hc, hd⟩ := State.killList_killed hn l hstill hend
        exact ⟨hs.trans hstatus, hc.trans hcause, hd⟩
    · obtain ⟨j, hj⟩ := hmem
      have hkept := killJob_job_other hen hn s
      have hrest := ih (s := killJob e.1 s) ⟨j, (List.mem_cons.1 hj).resolve_left fun h => hen (congrArg Prod.fst h)⟩
      exact ⟨fun h => hrest.leaves (by rwa [hkept.state]), fun hh he => hrest.ends ((Job.holds_congr hkept.state).2 hh) (hkept.ended.trans he)⟩

end Kills

theorem mem_insertBy {α : Type} (f : α → Nat) (x y : α) : ∀ l : List α, y ∈ insertBy f x l ↔ y = x ∨ y ∈ l
  | [] => by simp [insertBy]
  | z :: l => by
    unfold insertBy
    split
    · simp
    · rw [List.mem_cons, mem_insertBy f x y l, List.mem_cons]
      tauto

theorem mem_sortBy {α : Type} (f : α → Nat) (y : α) (l : List α) : y ∈ sortBy f l ↔ y ∈ l := by
  have hfold : ∀ (l acc : List α), y ∈ l.foldl (fun acc x => insertBy f x acc) acc ↔ y ∈ l ∨ y ∈ acc := by
    intro l
    induction l with
    | nil => simp
    | cons x l ih =>
      intro acc
      rw [List.foldl_cons, ih, mem_insertBy, List.mem_cons]
      tauto
  exact (hfold l []).trans (by simp)

/-- An admitted job of the partition stands on its board. -/
theorem State.mem_board {s : State} {p n : Nat} (hn : n < 256) (hpart : (s.job n).part = p) (hstate : (s.job n).state ≠ .free) :
    (n, s.job n) ∈ s.board p := by
  refine (mem_sortBy _ _ _).2 (List.mem_filter.2 ⟨Tab.mem_of_get_ne fun hd => ?_, by simp [hn, hpart, hstate]⟩)
  change s.job n = {} at hd
  rw [hd] at hstate
  exact hstate rfl

theorem flrDone_resets {s : State} {p n : Nat} (hn : n < 256) (hpart : (s.job n).part = p) : Reset (s.job n) ((flrDone p s).job n) := by
  have hjob : (flrDone p s).job n = (s.killList (s.board p)).job n := rfl
  rw [hjob]
  by_cases hfree : (s.job n).state = .free
  · refine ⟨fun h => ?_, fun h => absurd hfree (Job.holds_not_wait h).2.2⟩
    rcases h with h | h <;> rw [hfree] at h <;> cases h
  · exact State.killList_resets hn _ ⟨_, State.mem_board hn hpart hfree⟩

/-! ### Set-up and teardown (R446, R447) -/

section Partitions
variable {s : State} {p : Nat}

/-- The state of an accepted set-up. -/
def State.setUp (s : State) (p : Nat) : State :=
  let x := s.part p
  let t := s.setPart p x.fresh
  { t with
    remap := { t.remap with idleAt := x.slices.foldl (fun t i => Tab.put t (1024 + i) s.clk.time) t.remap.idleAt }
    mem := t.mem.filter fun c => !x.inSill c.1
    groups := t.groups.map fun (k, g) => (k, if g.part.toNat = p then { g with armed := false, due := [] } else g)
    clk := if x.tpen then { t.clk with gm := none, sync := none, pdelayReq := false } else t.clk }

theorem partitionSetup_good (hp : p < 8) (hcode : setupCode p s = 0) : partitionSetup p s = s.setUp p :=
  (if_neg (Nat.not_le.mpr hp)).trans (if_neg (not_not.mpr hcode))

theorem partitionSetup_bad (hp : p < 8) (hcode : setupCode p s ≠ 0) : partitionSetup p s = s.setPart p ((s.part p).refuse (setupCode p s)) :=
  (if_neg (Nat.not_le.mpr hp)).trans (if_pos hcode)

theorem State.setUp_part (s : State) (p : Nat) : (s.setUp p).part p = (s.part p).fresh := State.setPart_part_same _ _ _

theorem State.setUp_read (s : State) (p a : Nat) :
    Memory.read (s.setUp p).mem a = if (s.part p).inSill a then unlisted else Memory.read s.mem a := by
  show Tab.get unlisted (s.mem.filter fun c => !(s.part p).inSill c.1) a = _
  rw [Tab.get_filter unlisted (fun a => !(s.part p).inSill a)]
  cases (s.part p).inSill a <;> rfl

/-- A refusal sets RCODE, and nothing else. -/
theorem setPart_refuse (s : State) (p c : Nat) : let t := s.setPart p ((s.part p).refuse c)
    t = { s with parts := t.parts } ∧ t.part p = { s.part p with desc := (s.part p).desc.set 15 (word c) } ∧ ∀ q, q ≠ p → t.part q = s.part q :=
  ⟨rfl, State.setPart_part_same _ _ _, fun _ hq => State.setPart_part_ne _ _ hq⟩

/-- A partition that is up is not set up again (R447). -/
theorem setupCode_up (h : (s.part p).up = true) : setupCode p s ≠ 0 := by
  have hlast : ∀ l : List (Nat × Bool), (∀ e ∈ l, e.1 ≠ 0) → (∃ e ∈ l, e.2 = true) → firstCode l ≠ 0 := by
    intro l
    induction l with
    | nil => rintro - ⟨e, he, -⟩; exact absurd he List.not_mem_nil
    | cons e l ih =>
      obtain ⟨c, b⟩ := e
      intro hall hsome
      cases b with
      | true => exact hall _ (List.mem_cons_self ..)
      | false =>
        refine ih (fun e he => hall e (List.mem_cons_of_mem _ he)) ?_
        obtain ⟨e, he, hb⟩ := hsome
        obtain rfl | he := List.mem_cons.1 he
        · cases hb
        · exact ⟨e, he, hb⟩
  unfold setupCode
  dsimp only
  refine hlast _ (fun e he => ?_) ⟨(11, (s.part p).up), by simp, h⟩
  simp only [List.mem_cons, List.not_mem_nil, or_false] at he
  rcases he with rfl | rfl | rfl | rfl | rfl | rfl | rfl | rfl | rfl | rfl <;> exact Nat.succ_ne_zero _

/-- A chain as the teardown of partition `p` leaves it. -/
def Chain.leftBy (c : Chain) (p : Nat) : Chain :=
  let d := if c.codePart = some p then { c with code := [], codePart := none } else c
  { d with wanted := if d.wanted = some p then none else d.wanted }

theorem Chain.leftBy_code {c : Chain} {p : Nat} (h : c.codePart = some p) : (c.leftBy p).code = [] := by
  rw [Chain.leftBy, if_pos h]

/-- The state of a teardown. -/
def State.tornDown (s : State) (p : Nat) : State :=
  let x := s.part p
  let t := s.setPart p { x.refuse 0 with
    up := false, cmd := 0, busy := false, res := 0, queues := [], faults := [], inval := [], invalMail := false, moves := [], flrAsked := false }
  { t with
    chains := t.chains.map fun (k, c) => (k, c.leftBy p)
    ports := t.ports.map fun (k, x) =>
      (k, if x.answered && (x.uplinkBusy.any fun u => u.1 = p) then { x with uplinkBusy := none, answered := false } else x)
    caches := t.caches.filter fun (w, _) => w < 200 || chainPart (t.chain (w - 200)) != p
    clk := if x.tpen then { t.clk.holdover with gm := none, sync := none } else t.clk }

theorem partitionTeardown_down (hp : p < 8) (hup : (s.part p).up = false) : partitionTeardown p s = s.setPart p ((s.part p).refuse 0) :=
  (if_neg (Nat.not_le.mpr hp)).trans (if_pos (by simp [hup]))

theorem partitionTeardown_busy (hp : p < 8) (hup : (s.part p).up = true) (h : s.board p ≠ [] ∨ s.chainOn p = true) :
    partitionTeardown p s = s.setPart p ((s.part p).refuse 9) := by
  have hcond : (!(s.board p).isEmpty || s.chainOn p) = true := by simpa [List.isEmpty_eq_false_iff] using h
  exact (if_neg (Nat.not_le.mpr hp)).trans ((if_neg (by simp [hup])).trans (if_pos hcond))

theorem partitionTeardown_ends (hp : p < 8) (hup : (s.part p).up = true) (hboard : s.board p = []) (hchain : s.chainOn p = false) :
    partitionTeardown p s = s.tornDown p := by
  have hcond : ¬ (!(s.board p).isEmpty || s.chainOn p) = true := by simp [hboard, hchain]
  exact (if_neg (Nat.not_le.mpr hp)).trans ((if_neg (by simp [hup])).trans (if_neg hcond))

/-- The code that the partition kept for its chains goes with it. -/
theorem State.tornDown_code {c : Nat} (h : (s.chain c).codePart = some p) : ((s.tornDown p).chain c).code = [] := by
  have hget : (s.tornDown p).chain c = (s.chain c).leftBy p := Tab.get_map (f := fun _ (x : Chain) => x.leftBy p) (by simp [Chain.leftBy]) s.chains
  rw [hget, Chain.leftBy_code h]

theorem flr_waits (hf : s.framerUp = false) (hup : (s.part p).up = true) : flr p s = s.setPart p { s.part p with flrAsked := true } := by
  simp [flr, hup, hf, State.modPart]

theorem flr_resets (hf : s.framerUp = true) (hup : (s.part p).up = true) : flr p s = flrDone p s := by
  simp [flr, hup, hf]

end Partitions

/-- Settles O52: set-up and teardown by their checks, and the function reset by the kills of the partition's jobs. -/
theorem partitionsStartAndEnd : Obligations.PartitionsStartAndEnd := by
  unfold Obligations.PartitionsStartAndEnd
  intro s p hp
  refine ⟨fun hcode => ?_, fun c hcode hc => ?_, setupCode_up, fun hup => ?_, fun hup hbusy => ?_, fun hup hboard hchain => ?_,
    fun hf hup => congrArg Host.Outcome.next (flr_waits hf hup), fun hf hup => ?_⟩
  · refine ⟨s.setUp p, congrArg Host.Outcome.next (partitionSetup_good hp hcode), ?_⟩
    rw [State.setUp_part]
    refine ⟨rfl, rfl, rfl, rfl, rfl, rfl, rfl, ?_, fun q hq => State.setPart_part_ne _ _ hq, s.setUp_read p, rfl, rfl⟩
    show BitVec.ofNat 16 (if (s.part p).det then (s.part p).flen else 16384) = _
    split <;> rfl
  · obtain rfl := hcode
    exact ⟨_, congrArg Host.Outcome.next (partitionSetup_bad hp hc), setPart_refuse s p _⟩
  · exact ⟨_, congrArg Host.Outcome.next (partitionTeardown_down hp hup), setPart_refuse s p 0⟩
  · exact ⟨_, congrArg Host.Outcome.next (partitionTeardown_busy hp hup hbusy), setPart_refuse s p 9⟩
  · have hpart : (s.tornDown p).part p = _ := State.setPart_part_same _ _ _
    refine ⟨s.tornDown p, congrArg Host.Outcome.next (partitionTeardown_ends hp hup hboard hchain), ?_⟩
    rw [hpart]
    exact ⟨rfl, rfl, rfl, rfl, fun q hq => State.setPart_part_ne _ _ hq, fun c hc => State.tornDown_code hc, fun _ => rfl, rfl, rfl⟩
  · have hresets := fun n hn hpart => flrDone_resets (s := s) (p := p) (n := n) hn hpart
    refine ⟨flrDone p s, congrArg Host.Outcome.next (flr_resets hf hup), fun q => ((flrDone_off p s).2 q).1, ((flrDone_framer s p).up p).trans hup,
      fun n hn hpart => ⟨(hresets n hn hpart).leaves, (hresets n hn hpart).ends⟩⟩

end Sys2Proof.Machine
end

section
/-! Bounded waits (R393, R394, R400, R409): one pass of the procedure, by what it finds and by the time that has gone by. -/

namespace Sys2Proof.Machine

section Waits
variable {s : State} {b : Nat} {w : WaitRec} {lk : Look}

/-- The bound of a wait has elapsed; that of all ones never does. -/
def WaitRec.Elapsed (w : WaitRec) (clock : Nat) : Prop := w.bound ≠ 0xFFFFFFFFFFFFFFFF ∧ w.bound.toNat ≤ clock - w.t0

theorem waitPass_met (hlook : w.kind.look b s = .ok lk) (hmet : lk.met = true) : waitPass b w s = .ok (s.writeS w.sd (lk.status false)).retire := by
  simp [waitPass, hlook, hmet]

theorem waitPass_expired (hlook : w.kind.look b s = .ok lk) (hmet : lk.met = false) (hends : w.Elapsed s.clock) :
    waitPass b w s = .ok (s.writeS w.sd (lk.status true)).retire := by
  have hcond : (decide (w.bound ≠ 0xFFFFFFFFFFFFFFFF) && decide (s.clock - w.t0 ≥ w.bound.toNat)) = true := by
    simp only [Bool.and_eq_true, decide_eq_true_eq]
    exact hends
  simp only [waitPass, hlook, hmet, hcond, Bool.false_eq_true, if_false, if_true]

theorem waitPass_waits (hlook : w.kind.look b s = .ok lk) (hmet : lk.met = false) (hends : ¬ w.Elapsed s.clock) :
    waitPass b w s = .ok ((s.setHold false).modBay b fun y => { y with waiting := some w }) := by
  have hcond : ¬ (decide (w.bound ≠ 0xFFFFFFFFFFFFFFFF) && decide (s.clock - w.t0 ≥ w.bound.toNat)) = true := by
    simp only [Bool.and_eq_true, decide_eq_true_eq]
    exact hends
  simp only [waitPass, hlook, hmet, Bool.false_eq_true, if_false]
  rw [if_neg hcond]

/-- What a wait's status gives: sd, the next word, and no more of the bay than a retirement changes. -/
theorem wait_gives (hc : s.cur = .stream b .S) (d : BitVec 5) (v : Word) : let t := (s.writeS d v).retire
    t.readS d = (if d = 0 then 0 else v) ∧ (∀ r, r ≠ d → t.readS r = s.readS r) ∧ t.pc = s.pc + 4 ∧ (t.bay b).waiting = none ∧ SameMem s t ∧
      OnlyActor s t seqWrites jtrWrites := by
  have hscalar : s.onScalar := by
    rw [State.onScalar, hc]
  obtain ⟨hresult, hothers, hpc, hmem, hrest⟩ := wrote_retire hscalar d v
  have hbay : (s.writeS d v).retire.bay b = seqWrites (s.bay b) ((s.writeS d v).retire.bay b) := by
    have h := hrest
    rw [OnlyActor, hc] at h
    exact h.2.2
  exact ⟨hresult, hothers, hpc, by rw [hbay]; rfl, hmem, hrest⟩

/-- A wait that goes on keeps its record, and its word stands. -/
theorem wait_stands (hc : s.cur = .stream b .S) (w : WaitRec) : let t := (s.setHold false).modBay b fun y => { y with waiting := some w }
    (t.bay b).waiting = some w ∧ t.pc = s.pc ∧ SameMem s t ∧ OnlyBay s t b fun y _ => { y with waiting := some w, hold := false } := by
  have heq : (s.setHold false).modBay b (fun y => { y with waiting := some w }) = s.modBay b fun y => { y with waiting := some w, hold := false } := by
    by_cases hhold : (s.bay b).hold = false
    · have hset : s.setHold false = s := by
        rw [State.setHold, hc]
        exact if_pos hhold
      rw [hset]
      refine State.modBay_congr ?_
      rw [← hhold]
    · have hset : s.setHold false = s.modBay b fun y => { y with hold := false } := by
        rw [State.setHold, hc]
        exact if_neg hhold
      rw [hset, State.modBay_modBay]
  dsimp only
  rw [heq]
  refine ⟨by rw [State.modBay_bay_same], ?_, fun _ => rfl, onlyBay_modBay rfl⟩
  rw [State.pc_seq (s := s.modBay b _) hc, State.modBay_bay_same, State.pc_seq hc]

/-- A wait word issues with the record that stands, or with a new one where its operands pass their check. -/
theorem boundedWait_pass {d x : BitVec 5} {k : Except Stop WaitKind}
    (h : (s.bay b).waiting = some w ∨ (s.bay b).waiting = none ∧ k = .ok w.kind ∧ w = ⟨s.clock, s.readS x, d, w.kind⟩) :
    boundedWait b d x k s = waitPass b w s := by
  rcases h with h | ⟨h, hk, hw⟩
  · simp only [boundedWait, h]
  · simp only [boundedWait, h, hk]
    rw [← hw]

theorem waitBoundExpiry_pass (hc : s.cur = .stream b .S) (hends : w.Elapsed s.clock) (hw : (s.bay b).waiting = some w) (hlive : (s.bay b).live = true)
    (hrun : (s.bay b).seqHalted = false) (hidle : (s.jobOf b).idle = false) (hfrozen : (s.part (s.bay b).partNo).frozen = none) :
    exec (.waitBoundExpiry b) s = s.finish (waitPass b w s) := by
  have hcur : ({ s with cur := .stream b .S } : State) = s := by rw [← hc]
  have hcond : ((s.bay b).live && !(s.bay b).seqHalted && !(s.jobOf b).idle && (s.part (s.bay b).partNo).frozen.isNone &&
      decide (w.bound ≠ 0xFFFFFFFFFFFFFFFF) && decide (s.clock - w.t0 ≥ w.bound.toNat)) = true := by
    simp only [hlive, hrun, hidle, hfrozen, Bool.not_false, Option.isNone_none, Bool.and_self, Bool.true_and, Bool.and_eq_true, decide_eq_true_eq]
    exact hends
  show execWaitBoundExpiry b s = _
  unfold execWaitBoundExpiry
  dsimp only
  rw [hw]
  dsimp only
  rw [if_pos hcond, hcur]

end Waits

/-- Settles O37: every wait word is one bounded wait, whose pass is the same for each kind of condition. -/
theorem boundedWaits : Obligations.BoundedWaits := by
  unfold Obligations.BoundedWaits
  intro s b d a c x g h p i k hc hik
  have hexec : exec i s = s.finish (boundedWait b d x k s) := by
    simp only [List.mem_cons, Prod.mk.injEq, List.not_mem_nil, or_false] at hik
    obtain ⟨rfl, rfl⟩ | ⟨rfl, rfl⟩ | ⟨rfl, rfl⟩ | ⟨rfl, rfl⟩ := hik <;> exact State.onSeq_eq hc _
  refine ⟨fun rc hnone hk => ?_, fun w lk hw hlook => ?_⟩
  · have hfault : boundedWait b d x k s = .error (.trap rc) := by simp only [boundedWait, hnone, hk]
    rw [hexec, hfault]
    rfl
  · rw [boundedWait_pass hw] at hexec
    refine ⟨fun hmet => ?_, fun hmet hends => ?_, fun hmet hends => ?_, fun hmet hends hwait hlive hrun hidle hfrozen => ?_⟩
    · rw [waitPass_met hlook hmet] at hexec
      exact ⟨_, hexec, wait_gives hc w.sd (lk.status false)⟩
    · rw [waitPass_expired hlook hmet hends] at hexec
      exact ⟨_, hexec, wait_gives hc w.sd (lk.status true)⟩
    · rw [waitPass_waits hlook hmet hends] at hexec
      exact ⟨_, hexec, wait_stands hc w⟩
    · have hexpiry := waitBoundExpiry_pass hc hends hwait hlive hrun hidle hfrozen
      rw [waitPass_expired hlook hmet hends] at hexpiry
      exact ⟨_, hexpiry, wait_gives hc w.sd (lk.status true)⟩

end Sys2Proof.Machine
end

section
/-! Stream counters and barrier objects (R391, R392, R408, R409). -/

namespace Sys2Proof.Machine

/-! ### Fields of words -/

theorem bits_high_lt (w : Word) : bits w 63 32 < 2 ^ 32 := Nat.mod_lt _ (Nat.two_pow_pos 32)

theorem bits_low_lt (w : Word) : bits w 15 0 < 65536 := Nat.mod_lt _ (Nat.two_pow_pos 16)

theorem toNat_word (n : Nat) : (word n).toNat = n % 2 ^ 64 := BitVec.toNat_ofNat ..

/-! ### Stream counters (R391) -/

theorem mkRow_fields {f rows : Nat} (hf : f < 2 ^ 32) (hrows : rows < 65536) (done : Bool) :
    rwFrame (mkRow f rows done) = f ∧ rwRows (mkRow f rows done) = rows ∧ rwDone (mkRow f rows done) = done := by
  cases done <;> refine ⟨?_, ?_, ?_⟩ <;> simp only [mkRow, rwFrame, rwRows, rwDone, bits, bit, at_, b2n, toNat_word, beq_iff_eq, beq_eq_false_iff_ne] <;>
    norm_num <;> omega

section Rows
variable {s : State} {b : Nat} {a r : BitVec 5}

/-- The counter that ROWPUB publishes. -/
def State.pubRow (s : State) (a r : BitVec 5) : Word := mkRow (bits (s.readS a) 63 32) (bits (s.readS r) 15 0) (bit (s.readS r) 16)

/-- The stream's chain is the partition's and not enabled (R392). -/
def State.pubMine (s : State) (b : Nat) (a : BitVec 5) : Bool :=
  !chainEn (s.chain (bits (s.readS a) 5 0)) && chainPart (s.chain (bits (s.readS a) 5 0)) == (s.bay b).partNo

/-- The counter would go back (R392). -/
def State.pubBack (s : State) (a r : BitVec 5) : Bool :=
  let old := s.rowWord (bits (s.readS a) 5 0)
  passedFrame (rwFrame old) (bits (s.readS a) 63 32) ||
    (bits (s.readS a) 63 32 == rwFrame old && (decide (bits (s.readS r) 15 0 < rwRows old) || (rwDone old && !bit (s.readS r) 16)))

theorem rowpubCore_publishes (hmine : s.pubMine b a = true) (hback : s.pubBack a r = false) (hstores : (s.bay b).stores = [])
    (hpaired : (s.bay b).paired = false) : rowpubCore b a r s = .ok (s.setRow (bits (s.readS a) 5 0) (s.pubRow a r)).retire := by
  have h1 : (guardE (s.pubMine b a) (trapC 0x86) : Except Stop Unit) = .ok () := by rw [hmine]; rfl
  have h2 : (guardE (!s.pubBack a r) (trapC 0x02) : Except Stop Unit) = .ok () := by rw [hback]; rfl
  have h3 : (guardE (s.bay b).stores.isEmpty .hold : Except Stop Unit) = .ok () := by rw [hstores]; rfl
  show (guardE (s.pubMine b a) (trapC 0x86) >>= fun _ => guardE (!s.pubBack a r) (trapC 0x02) >>= fun _ => guardE (s.bay b).stores.isEmpty .hold >>=
    fun _ => _) = _
  rw [h1, h2, h3]
  refine mergedOp_alone (own := false) (ops := [2, word (bits (s.readS a) 5 0), s.pubRow a r]) (finish := fun _ u => u.retire) (perform := fun u => .ok (0, u.setRow (bits (s.readS a) 5 0) (s.pubRow a r))) hpaired rfl

theorem rowpubCore_back (hmine : s.pubMine b a = true) (hback : s.pubBack a r = true) : rowpubCore b a r s = .error (trapC 0x02) := by
  have h1 : (guardE (s.pubMine b a) (trapC 0x86) : Except Stop Unit) = .ok () := by rw [hmine]; rfl
  have h2 : (guardE (!s.pubBack a r) (trapC 0x02) : Except Stop Unit) = .error (trapC 0x02) := by rw [hback]; rfl
  show (guardE (s.pubMine b a) (trapC 0x86) >>= fun _ => guardE (!s.pubBack a r) (trapC 0x02) >>= fun _ => _) = _
  rw [h1, h2]
  rfl

theorem rowpubCore_other (hmine : s.pubMine b a = false) : rowpubCore b a r s = .error (trapC 0x86) := by
  have h1 : (guardE (s.pubMine b a) (trapC 0x86) : Except Stop Unit) = .error (trapC 0x86) := by rw [hmine]; rfl
  show (guardE (s.pubMine b a) (trapC 0x86) >>= fun _ => _) = _
  rw [h1]
  rfl

/-- A retirement of a word of the sequencer that has changed nothing of the bay but what `SeqKeeps` leaves open. -/
theorem SeqKeeps.retire {u : State} (h : SeqKeeps s u b) (hc : s.cur = .stream b .S) :
    u.retire.pc = s.pc + 4 ∧ (∀ q, u.retire.readS q = s.readS q) ∧ u.retire.mem = u.mem ∧ OnlyBay u u.retire b seqMoves := by
  have hcu : u.cur = .stream b .S := h.cur.trans hc
  have hret : u.retire = u.modBay b fun y => y.seqNext (u.pc + 4) := State.retire_seq hcu
  have hbay : u.retire.bay b = (u.bay b).seqNext (u.pc + 4) := by rw [hret, State.modBay_bay_same]
  have hcur : u.retire.cur = .stream b .S := by rw [hret]; exact hcu
  refine ⟨?_, fun q => ?_, by rw [hret]; rfl, ?_⟩
  · rw [State.pc_seq hcur, hbay, h.pc_eq hc]
    rfl
  · rw [← h.readS hc q, State.readS, State.readS, hcur, hcu]
    dsimp only
    rw [hbay]
    rfl
  · rw [hret]
    exact onlyBay_modBay rfl

theorem State.setRow_rowWord (s : State) (n m : Nat) (v : Word) : (s.setRow n v).rowWord m = if m = n then v else s.rowWord m :=
  Tab.get_set _ _ _ _ _

/-- A publication that R392 lets pass. -/
theorem rowpub_publishes (hc : s.cur = .stream b .S) (hpaired : (s.bay b).paired = false) (hmine : s.pubMine b a = true)
    (hback : s.pubBack a r = false) (hstores : (s.bay b).stores = []) :
    exec (.rowpub a r) s = .next (s.setRow (bits (s.readS a) 5 0) (s.pubRow a r)).retire :=
  (State.onSeq_eq hc _).trans (congrArg s.finish (rowpubCore_publishes hmine hback hstores hpaired))

theorem State.setRow_retire_rest (hc : s.cur = .stream b .S) (n : Nat) (v : Word) :
    let t := (s.setRow n v).retire
    t = { s with bays := t.bays, rowcnt := t.rowcnt } ∧ (∀ m, t.rowWord m = (s.setRow n v).rowWord m) := by
  have hret : (s.setRow n v).retire = (s.setRow n v).modBay b fun y => y.seqNext ((s.setRow n v).pc + 4) := State.retire_seq hc
  dsimp only
  rw [hret]
  exact ⟨rfl, fun _ => rfl⟩

end Rows

/-! ### Objects in memory -/

theorem ite_error_ok {p : Prop} [Decidable p] {α : Type} {e : Stop} {f : Except Stop α} {x : α} (h : (if p then .error e else f) = .ok x) :
    ¬p ∧ f = .ok x := by
  by_cases hp : p
  · rw [if_pos hp] at h
    cases h
  · exact ⟨hp, by rwa [if_neg hp] at h⟩

/-- Of the spaces that a place allows, the placed bytes lie in one. -/
theorem place_code {s : State} {c : Ctx} {v : View} {slot : Nat} {write : Bool} {spaces : Spaces} {o : Nat} {l : Loc}
    (h : s.place c v slot write spaces o = .ok l) : spaces.testBit l.code = true := by
  unfold State.place at h
  dsimp only at h
  split at h
  · split at h
    · cases h
    · cases h
    · obtain ⟨hdeny, h⟩ := ite_error_ok h
      obtain ⟨-, h⟩ := ite_error_ok h
      obtain ⟨-, h⟩ := ite_error_ok h
      obtain rfl := Except.ok.inj h
      simp only [Bool.or_eq_true, Bool.not_eq_true', not_or, Bool.not_eq_false] at hdeny
      exact hdeny.2
  · obtain ⟨-, h⟩ := ite_error_ok h
    obtain ⟨hdeny, h⟩ := ite_error_ok h
    obtain ⟨-, h⟩ := ite_error_ok h
    obtain ⟨-, h⟩ := ite_error_ok h
    obtain rfl := Except.ok.inj h
    simp only [Bool.or_eq_true, Bool.not_eq_true', not_or, Bool.not_eq_false] at hdeny
    exact hdeny.1.2

section Places
variable {s : State} {c : Ctx} {v : View} {slot : Nat} {write : Bool} {spaces : Spaces}

theorem placeAll_code : ∀ {r : List (Nat × Nat)} {l : List Span}, s.placeAll c v slot write spaces r = .ok l →
    ∀ x ∈ l, spaces.testBit x.loc.code = true
  | [], _, h, _, hx => by
    cases h
    cases hx
  | (o, n) :: r, l, h, x, hx => by
    unfold State.placeAll at h
    split at h
    · cases h
    · rename_i hplace
      split at h
      · cases h
      · rename_i hrest
        cases h
        rcases List.mem_cons.1 hx with rfl | hx
        · exact place_code hplace
        · exact placeAll_code hrest x hx

theorem placeElems_code : ∀ {es : List (List Nat)} {l : List (List Span)}, s.placeElems c v slot write spaces es = .ok l →
    ∀ r ∈ l, ∀ x ∈ r, spaces.testBit x.loc.code = true
  | [], _, h, _, hr => by
    cases h
    cases hr
  | e :: es, l, h, r, hr => by
    unfold State.placeElems at h
    split at h
    · cases h
    · rename_i hplace
      split at h
      · cases h
      · rename_i hrest
        cases h
        rcases List.mem_cons.1 hr with rfl | hr
        · exact placeAll_code hplace
        · exact placeElems_code hrest r hr

end Places

/-- An object's bytes lie in a bank or in the sill, never in a SHARED granule. -/
theorem barPlace_plain {c : Ctx} {v : View} {write : Bool} {i : Int} {s : State} {x : Span} (h : barPlace c v write i s = .ok x) :
    x.loc.code ≠ 2 ∧ x.n = 16 := by
  unfold barPlace at h
  dsimp only at h
  split at h
  · cases h
  · split at h
    · cases h
    · split at h
      · cases h
      · split at h
        · cases h
        · rename_i l hl
          split at h
          · cases h
            refine ⟨?_, rfl⟩
            have hcode := placeElems_code hl
            cases hs : l.flatMap id with
            | nil => simp
            | cons y ys =>
              obtain ⟨r, hr, hy⟩ := List.mem_flatMap.1 (hs ▸ List.mem_cons_self : y ∈ l.flatMap id)
              have := hcode r hr y hy
              intro hcontra
              rw [show y.loc.code = 2 from hcontra] at this
              exact absurd this (by decide)
          · cases h

theorem bytesNat_lt : ∀ l : List Byte, bytesNat l < 2 ^ (8 * l.length)
  | [] => by simp [bytesNat]
  | b :: l => by
    have := bytesNat_lt l
    have hb := b.isLt
    rw [List.length_cons, bytesNat, show 2 ^ (8 * (l.length + 1)) = 2 ^ 8 * 2 ^ (8 * l.length) by ring]
    omega

section Objects
variable {s : State} {c : Ctx} {tid : Nat} {x : Span}

theorem State.readBar_lt (s : State) (x : Span) : s.readBar x < 2 ^ 128 := by
  have := bytesNat_lt (Memory.readBytes s.mem x.loc.addr 16)
  rwa [readBytes_length] at this

theorem State.readBar_high_lt (s : State) (x : Span) : s.readBar x / 2 ^ 64 < 2 ^ 64 := by
  have := s.readBar_lt x
  omega

theorem writeBar_mem (hplain : x.loc.code ≠ 2) (o : Nat) : (s.writeBar c tid x o).mem = Memory.writeBytes s.mem x.loc.addr (natBytes 16 o) := by
  rw [State.writeBar, writeSpan_eq, State.putSpan, if_neg hplain]
  split
  · obtain ⟨y, hy⟩ := State.digestGranule_rest (s.write x.loc.addr (natBytes 16 o)) c.who x.loc.code tid (x.o / 32)
      ((2 ^ (natBytes 16 o).length - 1) * 2 ^ (x.o % 32)) (granuleBytes (x.o % 32) (natBytes 16 o))
    rw [State.digest, hy]
    exact State.write_mem _ _ _
  · exact State.write_mem _ _ _

theorem writeBar_readBar (hplain : x.loc.code ≠ 2) (o : Nat) {t : State} (ht : t.mem = (s.writeBar c tid x o).mem) : t.readBar x = o % 2 ^ 128 := by
  rw [State.readBar, State.rd, ht, writeBar_mem hplain]
  have hread := Memory.readBytes_writeBytes s.mem x.loc.addr (natBytes 16 o) []
  rw [List.append_nil, natBytes_length] at hread
  rw [hread, bytesNat_natBytes]

theorem writeBar_sameMemBut (hplain : x.loc.code ≠ 2) (o : Nat) {t : State} (ht : t.mem = (s.writeBar c tid x o).mem) :
    SameMemBut s t x.loc.addr 16 := by
  intro q hq
  rw [ht, writeBar_mem hplain]
  exact Memory.read_writeBytes_outside _ _ _ _ (by rwa [natBytes_length])

theorem writeBar_seqKeeps (hn : x.n = 16) (o b : Nat) : SeqKeeps s (s.writeBar c tid x o) b :=
  (writeSpan_wroteSpans s c tid x (by rw [natBytes_length, hn])).seqKeeps b

end Objects

/-! ### Fields of an object (R408) -/

/-- The fields of a word `o` of 16 bytes that `mkBar` has put together. -/
theorem mkBar_fields {exp arr ph fl : Nat} (hexp : exp < 128) (harr : arr < 128) (hph : ph < 16) (hfl : fl < 256) (ovr : Bool) (bay oph sfcl : Nat) :
    let o := mkBar exp arr ph ovr fl bay oph sfcl % 2 ^ 128
    oExp o = exp ∧ oArr o = arr ∧ oPh o = ph ∧ oOvr o = ovr ∧ oFl o = fl := by
  cases ovr <;> refine ⟨?_, ?_, ?_, ?_, ?_⟩ <;>
    simp only [mkBar, oExp, oArr, oPh, oOvr, oFl, at_, b2n, Nat.testBit_eq_decide_div_mod_eq, decide_eq_true_eq, decide_eq_false_iff_not] <;>
    norm_num <;> omega

theorem mkBar_high {exp arr ph fl bay oph sfcl : Nat} (hexp : exp < 128) (harr : arr < 128) (hph : ph < 16) (hfl : fl < 256) (hbay : bay < 128)
    (hoph : oph < 16) (hsfcl : sfcl < 2 ^ 64) (ovr : Bool) : mkBar exp arr ph ovr fl bay oph sfcl % 2 ^ 128 / 2 ^ 64 = sfcl := by
  cases ovr <;> simp only [mkBar, at_, b2n] <;> norm_num <;> norm_num at hsfcl <;> omega

theorem oExp_lt (o : Nat) : oExp o < 128 := Nat.mod_lt _ (by decide)
theorem oArr_lt (o : Nat) : oArr o < 128 := Nat.mod_lt _ (by decide)
theorem oPh_lt (o : Nat) : oPh o < 16 := Nat.mod_lt _ (by decide)
theorem oBay_lt (o : Nat) : oBay o < 128 := Nat.mod_lt _ (by decide)
theorem oOph_lt (o : Nat) : oOph o < 16 := Nat.mod_lt _ (by decide)
theorem oFl_or_lt (o : Nat) (f : BitVec 8) : oFl o ||| f.toNat < 256 := Nat.or_lt_two_pow (n := 8) (Nat.mod_lt _ (by decide)) f.isLt

/-! ### BARINIT and BARARR (R409) -/

section Barriers
variable {s : State} {b : Nat} {a : BitVec 5} {h n : BitVec 4} {e : BitVec 7} {v : View} {x : Span}

theorem barinitCore_writes (he : e ≠ 0) (hview : barView b h s = .ok v) (hplace : barPlace (s.bayCtx b) v true (s.readS a).toInt s = .ok x)
    (hstores : (s.bay b).stores = []) : barinitCore b a h e s = .ok (s.writeBar (s.bayCtx b) v.tid x e.toNat).retire := by
  have h1 : (e != 0) = true := by simpa using he
  simp only [barinitCore, h1, hview, hplace, hstores, List.isEmpty_nil, guardE_true, bind, Except.bind]
  rfl

/-- The object after the arrival, and the answer. -/
def State.barArrives (s : State) (b : Nat) (n : BitVec 4) (x : Span) : Nat × Nat :=
  barArrive (s.readBar x) n.toNat (s.bay b).flags.toNat (s.bay b).index (s.part (s.bay b).partNo).sfc.toNat

theorem bararrCore_performs (hn : n ≠ 0) (hview : barView b h s = .ok v) (hplace : barPlace (s.bayCtx b) v true (s.readS a).toInt s = .ok x)
    (hstores : (s.bay b).stores = []) (hpaired : (s.bay b).paired = false) {r : Word} {s' : State}
    (hperform : barPerform (s.bayCtx b) v.tid x n.toNat (s.bay b).flags.toNat (s.bay b).index (s.part (s.bay b).partNo).sfc.toNat s = (r, s')) :
    bararrCore b a h n s = .ok (bararrFinish b v.tid (s.readS a) r s') := by
  have h1 : (n != 0) = true := by simpa using hn
  simp only [bararrCore, h1, hview, hplace, hstores, List.isEmpty_nil, guardE_true, bind, Except.bind]
  exact mergedOp_alone hpaired (congrArg Except.ok hperform)

theorem barPerform_arrives (hbad : barBad (s.readBar x) = false) {tid : Nat} :
    barPerform (s.bayCtx b) tid x n.toNat (s.bay b).flags.toNat (s.bay b).index (s.part (s.bay b).partNo).sfc.toNat s =
      (word (s.barArrives b n x).2, s.writeBar (s.bayCtx b) tid x (s.barArrives b n x).1) := by
  simp only [barPerform, hbad]
  rfl

section
variable (hc : s.cur = .stream b .S) (hplace : barPlace (s.bayCtx b) v true (s.readS a).toInt s = .ok x)
include hc hplace

/-- What a word leaves that has written object `o` and retires. -/
theorem writeBar_retires (o : Nat) :
    let t := (s.writeBar (s.bayCtx b) v.tid x o).retire
    t.readBar x = o % 2 ^ 128 ∧ t.pc = s.pc + 4 ∧ (∀ r, t.readS r = s.readS r) ∧ SameMemBut s t x.loc.addr 16 := by
  obtain ⟨hplain, hlen⟩ := barPlace_plain hplace
  obtain ⟨hpc, hregs, hmem, -⟩ := (writeBar_seqKeeps (s := s) (c := s.bayCtx b) (tid := v.tid) hlen o b).retire hc
  exact ⟨writeBar_readBar hplain o hmem, hpc, hregs, writeBar_sameMemBut hplain o hmem⟩

variable (hview : barView b h s = .ok v) (hstores : (s.bay b).stores = [])
include hview hstores

theorem barinit_writes (he : e ≠ 0) : exec (.barinit a h e) s = .next (s.writeBar (s.bayCtx b) v.tid x e.toNat).retire :=
  (State.onSeq_eq hc _).trans (congrArg s.finish (barinitCore_writes he hview hplace hstores))

variable (hpaired : (s.bay b).paired = false) (hn : n ≠ 0)
include hpaired hn

theorem bararr_malformed (hbad : barBad (s.readBar x) = true) :
    exec (.bararr a h n) s = s.raise { cause := 0xA3, tid := BitVec.ofNat 16 v.tid } := by
  have hperform : barPerform (s.bayCtx b) v.tid x n.toNat (s.bay b).flags.toNat (s.bay b).index (s.part (s.bay b).partNo).sfc.toNat s =
      (0x8000000000000000, s) := by simp only [barPerform, hbad, if_true]
  refine (State.onSeq_eq hc _).trans ((congrArg s.finish (bararrCore_performs hn hview hplace hstores hpaired hperform)).trans ?_)
  rw [State.raise, hc, bararrFinish, if_neg (by decide), if_pos (by decide)]
  rfl

variable (hgood : barBad (s.readBar x) = false)
include hgood

/-- An arrival with its answer. -/
theorem bararr_arrives : exec (.bararr a h n) s =
    .next (bararrFinish b v.tid (s.readS a) (word (s.barArrives b n x).2) (s.writeBar (s.bayCtx b) v.tid x (s.barArrives b n x).1)) :=
  (State.onSeq_eq hc _).trans (congrArg s.finish (bararrCore_performs hn hview hplace hstores hpaired (barPerform_arrives hgood)))

theorem bararr_retires (hexcess : (s.barArrives b n x).2 = 0) :
    exec (.bararr a h n) s = .next (s.writeBar (s.bayCtx b) v.tid x (s.barArrives b n x).1).retire := by
  rw [bararr_arrives hc hplace hview hstores hpaired hn hgood, hexcess]
  rfl

theorem bararr_overruns (hexcess : 0 < (s.barArrives b n x).2) (hsmall : (s.barArrives b n x).2 < 2 ^ 63) :
    exec (.bararr a h n) s = (s.writeBar (s.bayCtx b) v.tid x (s.barArrives b n x).1).raise
      { cause := 0xA1, tid := BitVec.ofNat 16 v.tid, wher := s.readS a, aux := word (s.barArrives b n x).2 } := by
  obtain ⟨-, hlen⟩ := barPlace_plain hplace
  have hcur := (writeBar_seqKeeps (s := s) (c := s.bayCtx b) (tid := v.tid) hlen (s.barArrives b n x).1 b).cur.trans hc
  have hval : (word (s.barArrives b n x).2).toNat = (s.barArrives b n x).2 := by rw [toNat_word, Nat.mod_eq_of_lt (by omega)]
  have hzero : word (s.barArrives b n x).2 ≠ 0 := fun h0 => by
    rw [h0] at hval
    exact absurd hval.symm (by simpa using Nat.pos_iff_ne_zero.1 hexcess)
  have hsign : bit (word (s.barArrives b n x).2) 63 = false := by
    rw [bit, hval]
    simp only [beq_eq_false_iff_ne]
    omega
  rw [bararr_arrives hc hplace hview hstores hpaired hn hgood, bararrFinish, if_neg hzero, if_neg (by rw [hsign]; decide), State.raise, hcur]
  rfl

end
end Barriers

/-- The overrun clause's excess is small. -/
theorem barBad_left {o : Nat} (h : barBad o = false) : oArr o < oExp o := by
  simp only [barBad, Bool.or_eq_false_iff, decide_eq_false_iff_not] at h
  omega

section
variable {s : State} {b : Nat} {a r : BitVec 5} (hc : s.cur = .stream b .S)
include hc

theorem barinit_none (h : BitVec 4) : exec (.barinit a h 0) s = s.raise { cause := 0x02 } := by
  have hcore : barinitCore b a h 0 s = .error (trapC 0x02) := rfl
  exact (State.onSeq_eq hc _).trans (congrArg s.finish hcore)

theorem bararr_none (h : BitVec 4) : exec (.bararr a h 0) s = s.raise { cause := 0x02 } := by
  have hcore : bararrCore b a h 0 s = .error (trapC 0x02) := rfl
  exact (State.onSeq_eq hc _).trans (congrArg s.finish hcore)

theorem rowpub_back (hmine : s.pubMine b a = true) (hback : s.pubBack a r = true) : exec (.rowpub a r) s = s.raise { cause := 0x02 } :=
  (State.onSeq_eq hc _).trans (congrArg s.finish (rowpubCore_back hmine hback))

theorem rowpub_other (hmine : s.pubMine b a = false) : exec (.rowpub a r) s = s.raise { cause := 0x86 } :=
  (State.onSeq_eq hc _).trans (congrArg s.finish (rowpubCore_other hmine))

end

theorem setRow_retire_leaves {s : State} {b : Nat} (hc : s.cur = .stream b .S) (n : Nat) (v : Word) :
    let t := (s.setRow n v).retire
    t.rowWord n = v ∧ (∀ m, m ≠ n → t.rowWord m = s.rowWord m) ∧ t.pc = s.pc + 4 ∧ (∀ q, t.readS q = s.readS q) ∧ SameMem s t ∧
      t = { s with bays := t.bays, rowcnt := t.rowcnt } ∧ (∀ c, c ≠ b → t.bay c = s.bay c) ∧ t.bay b = seqMoves (s.bay b) (t.bay b) := by
  intro t
  have hkeeps : SeqKeeps s (s.setRow n v) b := ⟨rfl, rfl, rfl, rfl⟩
  obtain ⟨hpc, hregs, hmem, -, hothers, hbay⟩ := hkeeps.retire hc
  obtain ⟨hrest, hrows⟩ := State.setRow_retire_rest hc n v
  refine ⟨?_, fun m hm => ?_, hpc, hregs, fun q => congrArg (Memory.read · q) hmem, hrest, hothers, hbay⟩
  · rw [hrows, State.setRow_rowWord, if_pos rfl]
  · rw [hrows, State.setRow_rowWord, if_neg hm]

theorem pubRow_fields (s : State) (a r : BitVec 5) : rwFrame (s.pubRow a r) = bits (s.readS a) 63 32 ∧
    rwRows (s.pubRow a r) = bits (s.readS r) 15 0 ∧ rwDone (s.pubRow a r) = bit (s.readS r) 16 :=
  mkRow_fields (bits_high_lt _) (bits_low_lt _) _

section
variable {s : State} {b : Nat} {n : BitVec 4} {x : Span}

theorem barArrives_fits (h : n.toNat < oExp (s.readBar x) - oArr (s.readBar x)) : s.barArrives b n x =
    (mkBar (oExp (s.readBar x)) (oArr (s.readBar x) + n.toNat) (oPh (s.readBar x)) (oOvr (s.readBar x))
      (oFl (s.readBar x) ||| (s.bay b).flags.toNat) (oBay (s.readBar x)) (oOph (s.readBar x)) (s.readBar x / 2 ^ 64), 0) := if_pos h

theorem barArrives_last (h : n.toNat = oExp (s.readBar x) - oArr (s.readBar x)) : s.barArrives b n x =
    (mkBar (oExp (s.readBar x)) 0 ((oPh (s.readBar x) + 1) % 16) (oOvr (s.readBar x))
      (oFl (s.readBar x) ||| (s.bay b).flags.toNat) (oBay (s.readBar x)) (oOph (s.readBar x)) (s.part (s.bay b).partNo).sfc.toNat, 0) := by
  simp [State.barArrives, barArrive, h]

theorem barArrives_over (h : oExp (s.readBar x) - oArr (s.readBar x) < n.toNat) : s.barArrives b n x =
    (mkBar (oExp (s.readBar x)) 0 ((oPh (s.readBar x) + 1) % 16) true
      (oFl (s.readBar x) ||| (s.bay b).flags.toNat) (s.bay b).index (oPh (s.readBar x)) (s.part (s.bay b).partNo).sfc.toNat,
      n.toNat - (oExp (s.readBar x) - oArr (s.readBar x))) := by
  rw [State.barArrives, barArrive]
  dsimp only
  rw [if_neg (by omega)]
  simp [h]

end

/-- Settles O36: publications case by case, and each barrier word by the object that it writes. -/
theorem rowsAndBarriers : Obligations.RowsAndBarriers := by
  unfold Obligations.RowsAndBarriers
  refine ⟨fun s b a r hc hpaired => ⟨fun hmine hback hstores => ?_, rowpub_back hc, rowpub_other hc⟩,
    fun s b a h n e v x hc hpaired hstores hview hplace => ⟨fun he => ?_, fun hn hgood hlt => ?_, fun hn hgood heq => ?_, fun hn hgood hgt => ?_,
      bararr_malformed hc hplace hview hstores hpaired, fun he => ?_, fun hn => ?_⟩⟩
  · obtain ⟨hrow, hrest⟩ := setRow_retire_leaves hc (bits (s.readS a) 5 0) (s.pubRow a r)
    obtain ⟨hframe, hcount, hdone⟩ := pubRow_fields s a r
    exact ⟨_, rowpub_publishes hc hpaired hmine hback hstores, (congrArg rwFrame hrow).trans hframe, (congrArg rwRows hrow).trans hcount,
      (congrArg rwDone hrow).trans hdone, hrest⟩
  · obtain ⟨hread, hrest⟩ := writeBar_retires hc hplace e.toNat
    exact ⟨_, barinit_writes hc hplace hview hstores he, hread.trans (Nat.mod_eq_of_lt (by have := e.isLt; omega)), hrest⟩
  · have hexp := oExp_lt (s.readBar x)
    have harrives := barArrives_fits (b := b) hlt
    obtain ⟨hread, hpc, hregs, hmem⟩ := writeBar_retires hc hplace (s.barArrives b n x).1
    have hobject := hread.trans (congrArg (fun r : Nat × Nat => r.1 % 2 ^ 128) harrives)
    have harr : oArr (s.readBar x) + n.toNat < 128 := by omega
    obtain ⟨h1, h2, h3, h4, h5⟩ := mkBar_fields hexp harr (oPh_lt (s.readBar x)) (oFl_or_lt (s.readBar x) (s.bay b).flags) (oOvr (s.readBar x))
      (oBay (s.readBar x)) (oOph (s.readBar x)) (s.readBar x / 2 ^ 64)
    have h6 := mkBar_high hexp harr (oPh_lt (s.readBar x)) (oFl_or_lt (s.readBar x) (s.bay b).flags) (oBay_lt (s.readBar x)) (oOph_lt (s.readBar x))
      (s.readBar_high_lt x) (oOvr (s.readBar x))
    rw [← hobject] at h1 h2 h3 h4 h5 h6
    exact ⟨_, bararr_retires hc hplace hview hstores hpaired hn hgood (by rw [harrives]), h2, h3, h1, h5, hpc, h4, h6, hregs, hmem⟩
  · have harrives := barArrives_last (b := b) heq
    obtain ⟨hread, hpc, hregs, hmem⟩ := writeBar_retires hc hplace (s.barArrives b n x).1
    have hobject := hread.trans (congrArg (fun r : Nat × Nat => r.1 % 2 ^ 128) harrives)
    have hph := Nat.mod_lt (oPh (s.readBar x) + 1) (show 0 < 16 by decide)
    obtain ⟨h1, h2, h3, h4, h5⟩ := mkBar_fields (oExp_lt (s.readBar x)) (show 0 < 128 by decide) hph (oFl_or_lt (s.readBar x) (s.bay b).flags)
      (oOvr (s.readBar x)) (oBay (s.readBar x)) (oOph (s.readBar x)) (s.part (s.bay b).partNo).sfc.toNat
    have h6 := mkBar_high (oExp_lt (s.readBar x)) (show 0 < 128 by decide) hph (oFl_or_lt (s.readBar x) (s.bay b).flags) (oBay_lt (s.readBar x))
      (oOph_lt (s.readBar x)) (s.part (s.bay b).partNo).sfc.isLt (oOvr (s.readBar x))
    rw [← hobject] at h1 h2 h3 h4 h5 h6
    exact ⟨_, bararr_retires hc hplace hview hstores hpaired hn hgood (by rw [harrives]), h2, h3, h1, h4, h5, h6, hpc, hregs, hmem⟩
  · intro s1
    obtain ⟨hplain, hlen⟩ := barPlace_plain hplace
    have harrives := barArrives_over (b := b) hgt
    have hn16 := n.isLt
    have hover := bararr_overruns hc hplace hview hstores hpaired hn hgood (by rw [harrives]; exact Nat.sub_pos_of_lt hgt)
      (by rw [harrives]; exact Nat.lt_of_le_of_lt (Nat.sub_le _ _) (by omega))
    rw [harrives] at hover
    have hobject : s1.readBar x = _ := writeBar_readBar hplain _ rfl
    obtain ⟨-, h2, h3, h4, -⟩ := mkBar_fields (oExp_lt (s.readBar x)) (show 0 < 128 by decide)
      (Nat.mod_lt (oPh (s.readBar x) + 1) (show 0 < 16 by decide)) (oFl_or_lt (s.readBar x) (s.bay b).flags) true (s.bay b).index
      (oPh (s.readBar x)) (s.part (s.bay b).partNo).sfc.toNat
    rw [← hobject] at h2 h3 h4
    exact ⟨hover, writeBar_sameMemBut hplain _ rfl, h2, h3, h4, (writeBar_seqKeeps hlen _ b).readS hc⟩
  · rw [he]
    exact barinit_none hc h
  · rw [hn]
    exact bararr_none hc h

end Sys2Proof.Machine
end

section
/-! A hash operation that takes its batch at a decision point (R333, R462): where the partition records, the choice is written to its log. -/

namespace Sys2Proof.Machine

/-- A lath of job 0 whose first output port feeds input port 0 of lath 0. -/
def feedingLath : Lath := { plane0 := [0, 0, 0, 0, 2], slot := some 0 }

/-- Lath 0 stands at an unordered merge of two sources with an empty batch, and partition 0 records its decision points. -/
def recordedMerge : State :=
  { cur := .lath 0, jobs := [(0, {})], parts := [(0, { logw0 := 1 })]
    laths := [(0, { slot := some 0, inp := [{ store := [⟨4, 0, (0, 0), false⟩] }, {}, {}, {}] }), (1, feedingLath), (2, feedingLath)] }

/-- The empty batch in its store. -/
def mergeBatch : Batch := ⟨4, 0, (0, 0), [], 0, 0, false⟩

/-- The batch that an operation takes next, where it takes one. -/
def Next.batch : Next → Option Batch
  | .some b => Option.some b
  | _ => Option.none

theorem Next.eq_some_of_batch {x : Next} {b : Batch} (h : x.batch = Option.some b) : x = .some b := by
  cases x with
  | some c => exact congrArg Next.some (Option.some.inj h)
  | none => cases h
  | other f => cases h

theorem recordedMerge_next : recordedMerge.nextBatch 0 0 = .some mergeBatch := by
  refine Next.eq_some_of_batch ?_
  decide +kernel

/-- An operation that begins takes the batch where the port has room and its checks pass. -/
theorem hashOp_begins {n i : Nat} {outs : List Nat} {check : Batch → Except Stop Unit} {body : HashOp → Batch → Except Stop State} {s : State}
    {b : Batch} (hhop : (s.lathAt n).hop = none) (hnext : s.nextBatch n i = .some b) (hroom : outs.all (s.lathAt n).roomAt = true)
    (hcheck : check b = .ok ()) : hashOp n i outs check body s = .ok (setHop n { src := b.src, thread := b.thread } (s.chosen n i b)) := by
  rw [hashOp, hhop, hnext]
  simp only [hroom, hcheck]
  rfl

/-- HFENCE at that merge. -/
def fencedMerge : State := setHop 0 { src := mergeBatch.src, thread := mergeBatch.thread } (recordedMerge.chosen 0 0 mergeBatch)

theorem hfence_recordedMerge : exec (.hfence 0 0) recordedMerge = .next fencedMerge :=
  congrArg recordedMerge.finish (hashOp_begins (n := 0) (i := 0) (outs := [0]) (check := fun b => guardE (!b.bad) (trapC 0x38))
    (body := fun _ b => fenceStep 0 0 0 recordedMerge b) rfl recordedMerge_next (by decide +kernel) rfl)

theorem fencedMerge_log : Memory.read recordedMerge.mem (recordedMerge.part 0).logBase = 0 ∧ Memory.read fencedMerge.mem (recordedMerge.part 0).logBase = 3 := by
  decide +kernel

/-- Refutes O41: its first clause says that an operation that takes a batch leaves memory as it is, but does not say that the choice is no decision point.
In `recordedMerge` it is one, and the log of R462 takes an entry. -/
theorem not_hashTables : ¬ Obligations.HashTables := by
  unfold Obligations.HashTables
  rintro ⟨h, -⟩
  obtain ⟨hbegin, -⟩ := h recordedMerge 0 0 0 0 ⟨0, 0, 0, [], false, none, 0, none, []⟩ mergeBatch
    ⟨genOf [] false, ⟨0, [], 0, false, 0, [], 0⟩, none⟩ ⟨⟨[], []⟩, none, []⟩ ⟨[], []⟩ rfl
  obtain ⟨hfence, -⟩ := hbegin rfl (recordedMerge_next) (by decide +kernel)
  obtain ⟨t, hexec, -, -, hmem⟩ := hfence rfl
  obtain rfl : fencedMerge = t := Host.Outcome.next.inj (hfence_recordedMerge.symm.trans hexec)
  obtain ⟨hbefore, hafter⟩ := fencedMerge_log
  have hread := hmem (recordedMerge.part 0).logBase
  rw [hbefore, hafter] at hread
  exact absurd hread (by decide)

end Sys2Proof.Machine
end

section
/-! Lines of position 0 (R349, R350, R354 to R356), and the discipline of device time (R351, R389). -/

namespace Sys2Proof.Machine

/-! ### Lines that enter position 0 -/

/-- Position 0 of chain `c` has received the lines `l`, and neither memory nor another chain has changed. -/
def Lined (s t : State) (c : Nat) (l : List Line) : Prop :=
  (t.jtr c 0).ring = (s.jtr c 0).ring ++ l ∧ SameMem s t ∧ ∀ k, k ≠ c → t.chain k = s.chain k

section
variable {s : State} {c : Nat}

@[simp] theorem State.modChain_chain_same (f : Chain → Chain) : (s.modChain c f).chain c = f (s.chain c) := State.setChain_chain_same _ _ _

theorem State.modChain_chain_ne (f : Chain → Chain) {k : Nat} (hk : k ≠ c) : (s.modChain c f).chain k = s.chain k := by
  rw [State.modChain, State.setChain_chain, if_neg hk]

/-- A change of a chain's own fields brings no line. -/
theorem Lined.modChain {u : State} {l : List Line} (h : Lined s u c l) (f : Chain → Chain) : Lined s (u.modChain c f) c l := by
  obtain ⟨hring, hmem, hchains⟩ := h
  exact ⟨hring, hmem, fun k hk => (State.modChain_chain_ne f hk).trans (hchains k hk)⟩

theorem pushLine_lined {l : Line} (hl : l.drop = true ∨ (s.jtr c 0).used < (s.chain c).win 0 + 3) (ended : Word) :
    Lined s (pushLine c l ended s) c [l] := by
  have hkeep : (!l.drop && decide ((s.jtr c 0).used ≥ (s.chain c).win 0 + 3)) = false := by
    rcases hl with hdrop | hroom
    · simp [hdrop]
    · simp [hroom]
  unfold pushLine
  dsimp only
  rw [hkeep, if_neg (by decide)]
  have hring : Lined s (s.setJtr c 0 { s.jtr c 0 with
      ring := (s.jtr c 0).ring ++ [l], times := Tab.put (s.jtr c 0).times (l.frame.toNat * 65536 + l.num) l.time }) c [l] :=
    ⟨by rw [State.setJtr_jtr_same], fun _ => rfl, fun _ _ => rfl⟩
  exact hring.modChain _

theorem lineTimeouts_none (h : (s.chain c).timedOut s.clk.time = false) : ∀ k, lineTimeouts c k s = s
  | 0 => rfl
  | k + 1 => by rw [lineTimeouts, h]; rfl

theorem dropTo_none {n : Nat} (h : n ≤ (s.chain c).next) (t : Word) : dropTo c n t s = s := by
  rw [dropTo, Nat.sub_eq_zero_of_le h]
  rfl

end

/-! ### Payloads and frames -/

section
variable {s : State} {c : Nat} {x : Chain} (hx : s.chain c = x)
include hx

/-- The line that a payload makes. -/
def State.payloadLine (s : State) (c : Nat) (elems : List Nat) (bad lost : Bool) : Line :=
  if lost then { s.newLine c with drop := true } else { s.newLine c with bad := bad, lenBad := elems.length != (s.chain c).width, recv := elems.length, elems := elems }

/-- A payload inside a frame makes the next line where no line-start packet numbers it. -/
theorem takePayload_pushes {elems : List Nat} {bad lost : Bool} (hin : x.inFrame = true) (hnext : x.next < x.height)
    (hnum : x.lnum = false ∨ x.src ≠ 0) (hstart : x.lineStart = none) (htime : x.timedOut s.clk.time = false) :
    ∃ ended, takePayload c elems bad lost s = pushLine c (s.payloadLine c elems bad lost) ended s.fresh.2 := by
  have hsettle : settleLines c s = s := lineTimeouts_none (by rwa [hx]) _
  have hn : (x.lnum && x.src == 0) = false := by
    rcases hnum with h | h <;> simp [h]
  have hline : s.fresh.2.newLine c = s.newLine c := rfl
  have hchain : s.fresh.2.chain c = x := hx
  have htime : (s.newLine c).time = s.fresh.2.clk.time := rfl
  unfold takePayload State.payloadLine
  rw [hsettle]
  dsimp only
  generalize s.fresh.2 = u at hline hchain htime ⊢
  have hdrop : dropTo c x.next u.clk.time u = u := dropTo_none (by rw [hchain]) _
  rw [hchain, hn, hin, if_neg (by simpa using hnext), hstart]
  dsimp only
  rw [if_neg Bool.false_ne_true, if_neg (by simpa using hnext), hdrop, hline, hx, ← htime]
  cases lost <;> exact ⟨_, rfl⟩

theorem payload_lined {elems : List Nat} {bad lost : Bool} (hin : x.inFrame = true) (hnext : x.next < x.height)
    (hnum : x.lnum = false ∨ x.src ≠ 0) (hstart : x.lineStart = none) (htime : x.timedOut s.clk.time = false)
    (hroom : (s.jtr c 0).used < x.win 0 + 3) : Lined s (payload c elems bad lost s) c [s.payloadLine c elems bad lost] := by
  obtain ⟨ended, hpush⟩ := takePayload_pushes hx (elems := elems) (bad := bad) (lost := lost) hin hnext hnum hstart htime
  rw [payload, hpush]
  have hlined := pushLine_lined (s := s.fresh.2) (c := c) (l := s.payloadLine c elems bad lost) (.inr (by rw [← hx] at hroom; exact hroom)) ended
  exact Lined.modChain hlined _

/-- The end of a frame whose lines have all come. -/
theorem frameEnd_lined (hin : x.inFrame = true) (hnext : x.next = x.height) (t : Word) :
    Lined s (frameEnd c t s) c [{ num := x.next, frame := x.frame, eof := true }] := by
  have hsettle : settleLines c s = s := by
    rw [settleLines, hx, hnext, Nat.sub_self]
    rfl
  have hdrop : dropTo c x.height t s = s := dropTo_none (by rw [hx, hnext]) t
  unfold frameEnd
  dsimp only
  rw [hsettle, hx, hin, if_neg (by decide), hdrop, hx]
  refine Lined.modChain (u := s.modJtr c 0 fun j => { j with ring := j.ring ++ [{ num := x.next, frame := x.frame, eof := true }] }) ?_ _
  refine ⟨?_, fun _ => rfl, fun _ _ => rfl⟩
  rw [State.modJtr, State.setJtr_jtr_same]

/-- A frame that starts where none is open. -/
theorem frameStart_starts (hin : x.inFrame = false) (t : Word) : ((frameStart c t s).chain c).inFrame = true ∧
    ((frameStart c t s).chain c).next = 0 ∧ ((frameStart c t s).chain c).frames = x.frames + 1 ∧ ((frameStart c t s).chain c).period = x.period ∧
    SameMem s (frameStart c t s) := by
  have hend : frameEnd c t s = s := by
    rw [frameEnd, hx, hin]
    rfl
  have hchain : (frameStart c t s).chain c =
      { x with inFrame := true, next := 0, lineStart := none, frames := x.frames + 1, lastEnd := t } := by
    unfold frameStart
    rw [hend]
    dsimp only
    rw [State.modJtr, State.setJtr_chain, State.modChain_chain_same, hx]
  have hmem : (frameStart c t s).mem = s.mem := by
    unfold frameStart
    rw [hend]
    rfl
  rw [hchain]
  exact ⟨rfl, rfl, rfl, rfl, fun a => congrArg (Memory.read · a) hmem⟩

end

/-! ### Packets of one chain (R349) -/

section
variable {s : State} {port vc c : Nat}

theorem countDiscard_port (s : State) (p : Nat) : ((s.countDiscard p).port p).discard = (s.port p).discard + 1 := by
  rw [State.countDiscard, State.setPort_port_same]

theorem countCrc_port (s : State) (p : Nat) : ((s.countCrc p).port p).discard = (s.port p).discard := by
  rw [State.countCrc, State.setPort_port_same]

/-- A line-start packet is noted. -/
theorem lineStart_notes {num : Nat} (hin : (s.chain c).inFrame = true) (hnum : (s.chain c).lnum = false) :
    ((lineStart num c s).chain c).lineStart = some (num, s.clk.time) ∧ (lineStart num c s).jtr c 0 = s.jtr c 0 ∧ SameMem s (lineStart num c s) := by
  unfold lineStart
  dsimp only
  rw [hin, hnum, if_neg (by decide), if_neg (by decide)]
  exact ⟨by rw [State.modChain_chain_same], rfl, fun _ => rfl⟩

theorem cameras_filter {dt : Nat} (hc : s.cameras port vc = [c]) (hdt : (s.chain c).dt = dt) :
    (s.cameras port vc).filter (fun c => (s.chain c).dt == dt) = [c] := by
  rw [hc, List.filter_singleton, hdt, beq_self_eq_true]
  rfl

/-- A packet whose header is not correctable, and a good one's or a damaged one's payload. -/
theorem longPacket_lost {dt : Nat} {bytes : List Byte} {ok : Bool} (hc : s.cameras port vc = [c]) (hdt : (s.chain c).dt = dt) :
    longPacket port vc dt bytes ok false s = payload c [] false true (s.countDiscard port) := by
  unfold longPacket
  rw [cameras_filter hc hdt]
  rfl

theorem longPacket_payload {dt : Nat} {bytes : List Byte} {ok : Bool} (hc : s.cameras port vc = [c]) (hdt : (s.chain c).dt = dt)
    (htype : dt ∈ cameraTypes) : longPacket port vc dt bytes ok true s =
      payload c (unpackPacket dt bytes) (!ok) false (if ok then s else s.countCrc port) := by
  unfold longPacket
  rw [cameras_filter hc hdt]
  dsimp only
  rw [if_neg (by decide), if_neg (by simpa using htype)]
  rfl

theorem longPacket_other {dt : Nat} {bytes : List Byte} {ok : Bool} (htype : dt ∉ cameraTypes) :
    longPacket port vc dt bytes ok true s = s.countDiscard port := by
  unfold longPacket
  dsimp only
  rw [if_neg (by decide), if_pos (by simpa using htype)]

/-- The first line whose LTO has passed is declared dropped. -/
theorem lineTimeout_drops (h : (s.chain c).timedOut s.clk.time = true) :
    Lined s (lineTimeout c s) c [{ s.newLine c with drop := true, time := (s.chain c).lastEnd + word (s.chain c).lto }] := by
  have hone : lineTimeout c s = dropAt c ((s.chain c).lastEnd + word (s.chain c).lto) s := by
    show lineTimeouts c 1 s = _
    rw [lineTimeouts, h, if_pos rfl]
    rfl
  rw [hone]
  exact pushLine_lined (.inl rfl) _

/-- A lidar frame whose datagram one chain takes. -/
theorem lidarFrame_payload {bytes : List Byte} {u : Udp} (hether : (parseEther bytes).1 ≠ 0x88F7) (hlen : bytes.length + 4 ≤ 1522)
    (hmac : bytes.take 6 = macBytes port) (hip : parseIp (parseEther bytes).1 (parseEther bytes).2 = some u) (hl : s.lidars port u.port = [c])
    (hperiod : periodOf (s.chain c) s ≤ (s.chain c).period) :
    lidarFrame port bytes true s = payload c (u.data.map fun b => b.toNat) (!u.good) false s := by
  unfold lidarFrame
  dsimp only
  rw [if_neg (by decide), if_neg (by simp [hether]), if_neg (by simp [hmac, hlen]), hip]
  dsimp only
  rw [hl]
  dsimp only
  rw [if_neg (by simpa using hperiod)]
  rfl

end

/-! ### Device time (R351, R389) -/

/-- After the first lock an accepted Sync measures the offset and slews. -/
theorem discipline_measures {c : Clock} (hfirst : c.first = true) (o : Int) (v : Word) :
    let d := c.discipline o v
    d.offs = saturate32 o ∧ d.slew = -o ∧ d.time = c.time ∧ d.lock = (decide (o ≤ 1000) && decide (-1000 ≤ o)) ∧ d.hold = false ∧
      d.lastSync = c.time := by
  simp [Clock.discipline, hfirst]

theorem acceptSync_measures {s : State} (hfirst : s.clk.first = true) (t0 : Word) (stamp : Int) :
    let t := s.acceptSync t0 stamp
    let o : Int := t0.toNat - (stamp + s.clk.pdelay)
    (t.clk.offs = saturate32 o ∧ t.clk.slew = -o ∧ t.clk.time = s.clk.time ∧ t.clk.lock = (decide (o ≤ 1000) && decide (-1000 ≤ o)) ∧
      t.clk.hold = false ∧ t.clk.lastSync = s.clk.time) ∧ t = { s with clk := t.clk, tick := t.tick } :=
  ⟨discipline_measures hfirst _ _, rfl⟩

/-- An event of the time port. -/
theorem gptpSync_port {s : State} {port : Nat} (hport : s.timePort = some port) (twoStep : Bool) (stamp : Int) :
    gptpSync port twoStep stamp s =
      if twoStep then { s with clk := { s.clk with sync := some s.clk.time } } else s.acceptSync s.clk.time stamp := by
  rw [gptpSync, if_neg (by simp [hport])]

theorem gptpFollowUp_port {s : State} {port : Nat} (hport : s.timePort = some port) {t0 : Word} (hsync : s.clk.sync = some t0) (stamp : Int) :
    gptpFollowUp port stamp s = s.acceptSync t0 stamp := by
  rw [gptpFollowUp, if_neg (by simp [hport]), hsync]

theorem Chain.timedOut_lidar {x : Chain} (h : x.src = 1) (now : Word) : x.timedOut now = false := by
  simp [Chain.timedOut, h]

/-- Settles O43: each packet of a stream by the line that it makes, and each event of the time port by what it does to the clock. -/
theorem linesAndTime : Obligations.LinesAndTime := by
  unfold Obligations.LinesAndTime
  refine ⟨fun s port vc dt num c bytes ok => ⟨fun hc => ⟨fun hin => ?_, fun hin hnext => ?_, fun hin hnum => ?_,
    fun hin hnext hnum hstart hsrc hdt htime hroom => ⟨fun htype => ?_, ?_⟩⟩, rfl, ⟨_, rfl, countDiscard_port s port, fun _ => rfl⟩,
    fun htype => ⟨_, congrArg Host.Outcome.next (longPacket_other htype), countDiscard_port s port, fun _ => rfl⟩, fun hcan _ hlate => ?_,
    ⟨_, rfl, (countCrc_port _ _).trans (countDiscard_port s _), fun _ => rfl⟩,
    fun u hether hlen hmac hip hl hperiod hin hnext hsrc hstart hroom => ?_, fun hen hsrc hperiod hin => ?_⟩, fun s port gm req delay stamp hport => ?_⟩
  · have hexec : exec (.csi2FrameStart port vc) s = .next (frameStart c s.clk.time s) := by
      show Host.Outcome.next (forChains (s.cameras port vc) _ s) = _
      rw [hc]
      rfl
    obtain ⟨hopen, hzero, hframes, -, hmem⟩ := frameStart_starts (x := s.chain c) rfl hin s.clk.time
    exact ⟨_, hexec, hopen, hzero, hframes, hmem⟩
  · refine ⟨_, ?_, frameEnd_lined (x := s.chain c) rfl hin hnext s.clk.time⟩
    show Host.Outcome.next (forChains (s.cameras port vc) _ s) = _
    rw [hc]
    rfl
  · obtain ⟨hnote, hjtr, hmem⟩ := lineStart_notes (num := num) hin hnum
    refine ⟨_, ?_, hnote, congrArg Jointer.ring hjtr, hmem⟩
    show Host.Outcome.next (forChains (s.cameras port vc) _ s) = _
    rw [hc]
    rfl
  · refine ⟨_, congrArg Host.Outcome.next (longPacket_payload hc hdt htype), ?_⟩
    cases ok
    · exact payload_lined (s := s.countCrc port) (x := s.chain c) rfl hin hnext (.inl hnum) hstart htime hroom
    · exact payload_lined (s := s) (x := s.chain c) rfl hin hnext (.inl hnum) hstart htime hroom
  · exact ⟨_, congrArg Host.Outcome.next (longPacket_lost hc hdt),
      payload_lined (s := s.countDiscard port) (x := s.chain c) rfl hin hnext (.inl hnum) hstart htime hroom⟩
  · have hout : (s.chain c).timedOut s.clk.time = true := by
      rw [Chain.timedOut, hcan, Bool.true_and, decide_eq_true hlate]
    exact ⟨_, rfl, lineTimeout_drops hout⟩
  · have hlined := payload_lined (x := s.chain c) rfl (elems := u.data.map fun b => b.toNat) (bad := !u.good) (lost := false) hin hnext
      (.inr (by rw [hsrc]; decide)) hstart (Chain.timedOut_lidar hsrc _) hroom
    rw [State.payloadLine, if_neg (by decide), List.length_map] at hlined
    exact ⟨_, congrArg Host.Outcome.next (lidarFrame_payload hether hlen hmac hip hl hperiod), hlined⟩
  · obtain ⟨hopen, hzero, -, hcount, hmem⟩ := frameStart_starts (x := s.chain c) rfl hin (word (((s.chain c).period + 1) * ((s.chain c).fper * 1000)))
    have hexec : exec (.lidarFramePeriod c) s = .next (lidarPeriod c s) := rfl
    rw [lidarPeriod, if_pos (by simp [hen, hsrc, hperiod])] at hexec
    refine ⟨_, hexec, ?_, ?_, ?_, hmem⟩
    · rw [State.modChain_chain_same]
      exact hopen
    · rw [State.modChain_chain_same]
      exact hzero
    · rw [State.modChain_chain_same]
      exact congrArg (· + 1) hcount
  · refine ⟨congrArg Host.Outcome.next (if_pos hport), fun hfirst => ?_, congrArg Host.Outcome.next (gptpSync_port hport true stamp),
      fun t0 hsync hfirst => ?_, congrArg Host.Outcome.next (if_pos hport), ?_, fun hreq => ?_, fun hlate hfirst => ?_⟩
    · exact ⟨_, congrArg Host.Outcome.next (gptpSync_port hport false stamp), acceptSync_measures hfirst _ _⟩
    · exact ⟨_, congrArg Host.Outcome.next (gptpFollowUp_port hport hsync stamp), acceptSync_measures hfirst _ _⟩
    · exact ⟨_, congrArg Host.Outcome.next (if_pos hport), rfl, rfl⟩
    · exact congrArg Host.Outcome.next (if_pos (by simp [hport, hreq]))
    · refine congrArg Host.Outcome.next ((if_pos (decide_eq_true hlate)).trans ?_)
      rw [Clock.holdover, if_pos hfirst]

end Sys2Proof.Machine
end

section
/-! Jointer words (R356, R358 to R360). -/

namespace Sys2Proof.Machine

/-! ### The acting jointer -/

section
variable {s u : State} {c p : Nat}

theorem State.onJointer_eq (hc : s.cur = .jointer c p) (f : Nat → Nat → Except Stop State) : s.onJointer f = s.finish (f c p) := by
  rw [State.onJointer, hc]

theorem onScalar_jointer (hc : s.cur = .jointer c p) : s.onScalar := by
  rw [State.onScalar, hc]
  trivial

/-- A jointer that has retired a word. -/
def Jointer.next (j : Jointer) : Jointer := { j with pc := j.pc + 4, adv := true, skip := false }

theorem State.retire_jtr (hc : s.cur = .jointer c p) : s.retire = s.setJtr c p (s.jtr c p).next := by
  rw [State.retire, State.setPc_jtr hc, State.pc, hc]
  rfl

/-- A later state in which jointer `p` of chain `c` still acts, at the same word and with the same scalar registers. -/
structure JtrKeeps (s u : State) (c p : Nat) : Prop where
  cur : u.cur = .jointer c p
  regs : (u.jtr c p).s = (s.jtr c p).s
  pc : (u.jtr c p).pc = (s.jtr c p).pc

/-- The jointer changes, but not its scalar registers and its program counter. -/
theorem JtrKeeps.of_setJtr (hc : s.cur = .jointer c p) {j : Jointer} (hs : j.s = (s.jtr c p).s) (hpc : j.pc = (s.jtr c p).pc) :
    JtrKeeps s (s.setJtr c p j) c p :=
  ⟨hc, by rw [State.setJtr_jtr_same, hs], by rw [State.setJtr_jtr_same, hpc]⟩

theorem JtrKeeps.readS (h : JtrKeeps s u c p) (hc : s.cur = .jointer c p) (q : BitVec 5) : u.readS q = s.readS q := by
  simp only [State.readS, h.cur, hc, h.regs]

theorem JtrKeeps.pc_eq (h : JtrKeeps s u c p) (hc : s.cur = .jointer c p) : u.pc = s.pc := by
  simp only [State.pc, h.cur, hc, h.pc]

/-- The word retires after its other effects. -/
theorem JtrKeeps.retire (h : JtrKeeps s u c p) (hc : s.cur = .jointer c p) :
    u.retire.jtr c p = (u.jtr c p).next ∧ u.retire.pc = s.pc + 4 ∧ SameMem u u.retire ∧ u.retire = u.setJtr c p (u.jtr c p).next := by
  have hret := State.retire_jtr h.cur
  have hcur : u.retire.cur = .jointer c p := by rw [hret]; exact h.cur
  have hjtr : u.retire.jtr c p = (u.jtr c p).next := by rw [hret, State.setJtr_jtr_same]
  refine ⟨hjtr, ?_, fun _ => by rw [hret]; rfl, hret⟩
  rw [State.pc, hcur]
  dsimp only
  rw [hjtr, ← h.pc_eq hc, State.pc, h.cur]
  rfl

/-- The word writes sd and retires after its other effects. -/
theorem JtrKeeps.writeS_retire (h : JtrKeeps s u c p) (hc : s.cur = .jointer c p) (d : BitVec 5) (v : Word) :
    let t := (u.writeS d v).retire
    t.readS d = (if d = 0 then 0 else v) ∧ (∀ q, q ≠ d → t.readS q = s.readS q) ∧ t.pc = s.pc + 4 ∧ SameMem u t ∧
      t.jtr c p = jtrWrites (u.jtr c p) (t.jtr c p) := by
  have hwrote := wrote_retire (onScalar_jointer h.cur) d v
  obtain ⟨-, -, hjtr⟩ := OnlyActor.of_jointer h.cur hwrote.rest
  exact ⟨hwrote.result, fun q hq => (hwrote.others q hq).trans (h.readS hc q), hwrote.pc.trans (by rw [h.pc_eq hc]), hwrote.mem, hjtr⟩

/-- The jointer alone changes, and retires. -/
theorem setJtr_retire_onlyActor (hc : s.cur = .jointer c p) {j : Jointer} (hs : j.s = (s.jtr c p).s) (hpc : j.pc = (s.jtr c p).pc)
    {f : Jointer → Jointer → Jointer} (hf : j.next = f (s.jtr c p) j.next) :
    let t := (s.setJtr c p j).retire
    t.pc = s.pc + 4 ∧ SameMem s t ∧ OnlyActor s t (fun y _ => y) f := by
  obtain ⟨hjtr, hpc', hmem, hret⟩ := (JtrKeeps.of_setJtr hc hs hpc).retire hc
  refine ⟨hpc', hmem, OnlyActor.jointer hc ?_ (fun k hk => ?_) ?_⟩
  · rw [hret]
    rfl
  · rw [hret, State.setJtr_get_ne _ _ _ _ hk, State.setJtr_get_ne _ _ _ _ hk]
  · rw [hjtr, State.setJtr_jtr_same]
    exact hf

end

/-! ### JWAIT -/

section
variable {s : State} {c p : Nat} {d : BitVec 5} {l : Line} {rest : List Line} (hc : s.cur = .jointer c p) (hen : chainEn (s.chain c) = true)
  (heofs : (s.jtr c p).eofs = false) (hspent : (s.jtr c p).spentFrom = none)

include hen heofs hspent in
theorem jwaitCore_eq : jwaitCore c p d s = match (s.jtr c p).ring with
    | [] => .ok s
    | l :: _ =>
      if l.eof then .ok (takeEnd c p d l s)
      else if p ≠ 0 then .ok (takeLine c p d l s)
      else match s.lineStatus c l with
        | .ok (l, s) => .ok (takeLine c p d l s)
        | .error s => .ok s := by
  have hbudget : lineBudget c p s = s := by rw [lineBudget, hspent]
  rw [jwaitCore, hen, if_neg (by decide), heofs, if_neg (by decide)]
  show (match (State.jtr (lineBudget c p s) c p).ring with | [] => _ | l :: _ => _) = _
  rw [hbudget]
  rfl

include hc in
theorem takeEnd_takes (d : BitVec 5) (hring : (s.jtr c p).ring = l :: rest) :
    let t := takeEnd c p d l s
    t.readS d = (if d = 0 then 0 else word (l.num % 65536 + 2 ^ 17 + l.frame.toNat * 2 ^ 32)) ∧ (t.jtr c p).eofs = true ∧
      (t.jtr c p).frame = l.frame ∧ (t.jtr c p).ring = rest ∧ t.pc = s.pc + 4 ∧ SameMem s t := by
  have hkeeps : JtrKeeps s (s.modJtr c p fun j => { j with ring := j.ring.drop 1, eofs := true, frame := l.frame, spentFrom := some s.clock }) c p :=
    JtrKeeps.of_setJtr hc rfl rfl
  obtain ⟨hresult, -, hpc, hmem, hjtr⟩ := hkeeps.writeS_retire hc d (word (l.num % 65536 + at_ 1 17 + at_ l.frame.toNat 32))
  rw [State.modJtr, State.setJtr_jtr_same] at hjtr
  refine ⟨?_, (congrArg Jointer.eofs hjtr).trans rfl, (congrArg Jointer.frame hjtr).trans rfl, (congrArg Jointer.ring hjtr).trans ?_, hpc, hmem⟩
  · rw [takeEnd, hresult]
    simp only [at_, Nat.one_mul]
  · show (s.jtr c p).ring.drop 1 = rest
    rw [hring]
    rfl

/-- The jointer after it has taken a line that does not start a frame. -/
def Jointer.takes (j : Jointer) (win clock : Nat) (l : Line) (elems : List Nat) : Jointer :=
  { j with
    ring := j.ring.drop 1, cur := BitVec.ofNat 16 l.num, inf := true, frame := l.frame, lastElems := some elems
    kept := (j.kept ++ [{ l with elems := elems }]).filter fun k => decide (k.num + win > l.num)
    badcnt := j.badcnt + BitVec.ofNat 32 (b2n l.bad), dropcnt := j.dropcnt + BitVec.ofNat 32 (b2n l.drop), spentFrom := some clock }

/-- The contents that the line is taken with. -/
def State.takenElems (s : State) (c p : Nat) (l : Line) : List Nat :=
  if p = 0 then substitute (ruleOf (s.chain c).rule) (s.chain c).width (s.jtr c p).lastElems l else l.elems

theorem takeLine_eq (hsof : l.sof = false) : takeLine c p d l s =
    ((s.setJtr c p ((s.jtr c p).takes ((s.chain c).win p) s.clock l (s.takenElems c p l))).writeS d (lineStatusWord l)).retire := by
  unfold takeLine State.takenElems Jointer.takes
  dsimp only [lineStatusWord]
  rw [hsof, if_neg (by decide)]

theorem Jointer.takes_kept_last (j : Jointer) {win : Nat} (hwin : 0 < win) (clock : Nat) (l : Line) (elems : List Nat) :
    ((j.takes win clock l elems).kept.getLast?).map (fun k => (k.num, k.elems)) = some (l.num, elems) := by
  rw [Jointer.takes, List.filter_append, List.filter_singleton, decide_eq_true (show l.num + win > l.num by omega)]
  simp

include hc in
theorem takeLine_takes (d : BitVec 5) (hring : (s.jtr c p).ring = l :: rest) (hsof : l.sof = false) :
    let t := takeLine c p d l s
    t.pc = s.pc + 4 ∧ t.readS d = (if d = 0 then 0 else lineStatusWord l) ∧ (∀ q, q ≠ d → t.readS q = s.readS q) ∧ (t.jtr c p).ring = rest ∧
      (t.jtr c p).cur = BitVec.ofNat 16 l.num ∧ (t.jtr c p).inf = true ∧ (t.jtr c p).frame = l.frame ∧
      (0 < (s.chain c).win p → ((t.jtr c p).kept.getLast?).map (fun k => (k.num, k.elems)) = some (l.num, s.takenElems c p l)) ∧ SameMem s t := by
  have hkeeps : JtrKeeps s (s.setJtr c p ((s.jtr c p).takes ((s.chain c).win p) s.clock l (s.takenElems c p l))) c p :=
    JtrKeeps.of_setJtr hc rfl rfl
  obtain ⟨hresult, hothers, hpc, hmem, hjtr⟩ := hkeeps.writeS_retire hc d (lineStatusWord l)
  rw [State.setJtr_jtr_same] at hjtr
  dsimp only
  rw [takeLine_eq hsof]
  refine ⟨hpc, hresult, hothers, (congrArg Jointer.ring hjtr).trans ?_, (congrArg Jointer.cur hjtr).trans rfl, (congrArg Jointer.inf hjtr).trans rfl,
    (congrArg Jointer.frame hjtr).trans rfl, fun hwin => ?_, hmem⟩
  · show (s.jtr c p).ring.drop 1 = rest
    rw [hring]
    rfl
  · rw [congrArg Jointer.kept hjtr]
    exact Jointer.takes_kept_last (s.jtr c p) hwin s.clock l _

end

/-! ### JLINE -/

section
variable {s : State} {c p : Nat} (hc : s.cur = .jointer c p)
include hc

/-- A vector register of the jointer written, beside a change of the jointer's marks. -/
theorem writeLanes_jtr (v : BitVec 4) (w : Nat) (lanes : List Nat) (hlanes : lanes.length = lanesOf w) {j : Jointer} (hs : j.s = (s.jtr c p).s)
    (hpc : j.pc = (s.jtr c p).pc) (hv : j.vreg = (s.jtr c p).vreg) :
    let t := ((s.setJtr c p j).writeLanes v.toNat w lanes).retire
    (∀ i, i < lanesOf w → t.lane v.toNat w i = nth 0 lanes i % 2 ^ w) ∧ (∀ q, q < 64 → q ≠ v.toNat → t.readV q = s.readV q) ∧
      (t.jtr c p).inv = j.inv ∧ t.pc = s.pc + 4 ∧ SameMem s t := by
  have hcu : (s.setJtr c p j).cur = .jointer c p := hc
  have hwrite : (s.setJtr c p j).writeLanes v.toNat w lanes =
      s.setJtr c p { j with vreg := Tab.set 0 j.vreg v.toNat (BitVec.ofNat 4096 (pack w lanes)) } := by
    rw [State.writeLanes, State.writeV, hcu]
    dsimp only
    rw [State.setJtr_jtr_same, State.setJtr_setJtr]
  dsimp only
  rw [hwrite]
  have hkeeps := JtrKeeps.of_setJtr hc (j := { j with vreg := Tab.set 0 j.vreg v.toNat (BitVec.ofNat 4096 (pack w lanes)) }) hs hpc
  obtain ⟨hjtr, hpc', hmem, hret⟩ := hkeeps.retire hc
  rw [State.setJtr_jtr_same] at hjtr
  have hread (q : Nat) : State.readV (State.retire (s.setJtr c p { j with vreg := Tab.set 0 j.vreg v.toNat (BitVec.ofNat 4096 (pack w lanes)) })) q =
      (Tab.get 0 (Tab.set 0 j.vreg v.toNat (BitVec.ofNat 4096 (pack w lanes))) q).toNat := by
    have hcur : (State.retire (s.setJtr c p { j with vreg := Tab.set 0 j.vreg v.toNat (BitVec.ofNat 4096 (pack w lanes)) })).cur = .jointer c p := by
      rw [hret]
      exact hc
    rw [State.readV, hcur]
    dsimp only
    rw [hjtr]
    rfl
  refine ⟨fun i hi => ?_, fun q _ hq => ?_, by rw [hjtr]; rfl, hpc', hmem⟩
  · rw [State.lane, hread, Tab.get_set_same, BitVec.toNat_ofNat, lane_mod hi, pack_lane w lanes i (by rw [hlanes]; exact hi)]
    rfl
  · rw [hread, Tab.get_set, if_neg hq, hv, State.readV, hc]

/-- A write of a vector register does not tell the jointer as it stands from one that has been set to it. -/
theorem writeLanes_own (v w : Nat) (lanes : List Nat) : (s.setJtr c p (s.jtr c p)).writeLanes v w lanes = s.writeLanes v w lanes := by
  have hcu : (s.setJtr c p (s.jtr c p)).cur = .jointer c p := hc
  simp only [State.writeLanes, State.writeV, hcu, hc, State.setJtr_jtr_same, State.setJtr_setJtr]

theorem jlineCore_line {v : BitVec 4} {a : BitVec 5} {im : BitVec 15} {l : Line} (hfmt : s.vty = (s.chain c).inFmt p) (hinf : (s.jtr c p).inf = true)
    (hlo : bits (s.readS a) 47 32 ≤ (s.jtr c p).cur.toNat) (hhi : (s.jtr c p).cur.toNat + 1 ≤ bits (s.readS a) 47 32 + (s.chain c).win p)
    (hfind : (s.jtr c p).kept.find? (fun k => k.num = bits (s.readS a) 47 32) = some l) :
    jlineCore c p v a im s = .ok ((s.setJtr c p { s.jtr c p with inv := (s.jtr c p).inv || l.bad || l.drop }).writeLanes v.toNat (fmtWidth s.vty)
      ((List.range (lanesOf (fmtWidth s.vty))).map fun i =>
        if lineBase a im s + i < (s.chain c).inWidth p then lgMask s.vty (nth 0 l.elems (lineBase a im s + i)) else 0)).retire := by
  have h1 : (guardE (s.vty == (s.chain c).inFmt p) (trapC 0x3D) : Except Stop Unit) = .ok () := by rw [hfmt, beq_self_eq_true]; rfl
  have h2 : (guardE ((s.jtr c p).inf && decide ((s.jtr c p).cur.toNat + 1 ≤ bits (s.readS a) 47 32 + (s.chain c).win p) &&
      decide (bits (s.readS a) 47 32 ≤ (s.jtr c p).cur.toNat)) (trapC 0x54) : Except Stop Unit) = .ok () := by
    rw [hinf, decide_eq_true hlo, decide_eq_true hhi]
    rfl
  unfold jlineCore
  dsimp only
  rw [h1, h2]
  dsimp only [bind, Except.bind]
  rw [hfind]
  dsimp only
  by_cases hbad : (l.bad || l.drop) = true
  · rw [if_pos hbad, Bool.or_assoc, hbad, Bool.or_true]
    rfl
  · rw [if_neg hbad, Bool.or_assoc, Bool.eq_false_iff.2 hbad, Bool.or_false]
    exact congrArg (fun u : State => Except.ok u.retire) (writeLanes_own hc _ _ _).symm

end

/-! ### JEMIT, JSUB and JSTAT -/

theorem fit_getD (n : Nat) (l : List Nat) {k : Nat} (hk : k < n) : nth 0 (fit n l) k = nth 0 l k := by
  rw [nth, nth, fit, List.getD_eq_getElem?_getD, List.getD_eq_getElem?_getD, List.getElem?_append, List.length_take]
  split
  · rw [List.getElem?_take_of_lt hk]
  · rename_i hlen
    rw [List.getElem?_replicate, List.getElem?_eq_none (show l.length ≤ k by omega)]
    split <;> rfl

section
variable {s : State} {c p : Nat} (hc : s.cur = .jointer c p)

/-- The output line after JEMIT. -/
def State.emitted (s : State) (c p : Nat) (v : BitVec 4) (a : BitVec 5) (im : BitVec 15) : List Nat :=
  (List.range ((s.chain c).owidth p)).map fun k =>
    if lineBase a im s ≤ k ∧ k < lineBase a im s + lanesOf (fmtWidth s.vty) then s.lane v.toNat (fmtWidth s.vty) (k - lineBase a im s)
    else nth 0 (s.jtr c p).out k

theorem jemitCore_writes {v : BitVec 4} {a : BitVec 5} {im : BitVec 15} (hfmt : s.vty = (s.chain c).ofmt p) :
    jemitCore c p v a im s = .ok (s.setJtr c p { s.jtr c p with out := s.emitted c p v a im }).retire := by
  have hout : ((List.range ((s.chain c).owidth p)).map fun k =>
      if lineBase a im s ≤ k ∧ k < lineBase a im s + lanesOf (fmtWidth s.vty) then nth 0 (s.lanes v.toNat (fmtWidth s.vty)) (k - lineBase a im s)
      else nth 0 (fit ((s.chain c).owidth p) (s.jtr c p).out) k) = s.emitted c p v a im := by
    refine List.map_congr_left fun k hk => ?_
    split
    · exact lanes_getD s _ _ (by omega)
    · exact fit_getD _ _ (List.mem_range.1 hk)
  have h1 : (guardE (s.vty == (s.chain c).ofmt p) (trapC 0x3D) : Except Stop Unit) = .ok () := by rw [hfmt, beq_self_eq_true]; rfl
  unfold jemitCore
  dsimp only
  rw [h1]
  dsimp only [bind, Except.bind]
  rw [hout]
  rfl

include hc in
theorem jstat_writes {d : BitVec 5} {n : BitVec 4} (hn : n.toNat ≤ 8) : Writes (.jstat d n) s d (jstatValue c p n.toNat s) := by
  refine ⟨_, ?_, wrote_retire (onScalar_jointer hc) d _⟩
  have hcore : jstatCore c p d n s = .ok (s.writeS d (jstatValue c p n.toNat s)).retire := by
    rw [jstatCore, decide_eq_true hn]
    rfl
  exact (State.onJointer_eq hc _).trans (congrArg s.finish hcore)

end

/-! ### JROW -/

section
variable {s : State} {c p : Nat} (hc : s.cur = .jointer c p)

/-- The jointer after its row. -/
def Jointer.rowDone (j : Jointer) (out : List Nat) : Jointer := { j with outn := j.outn + 1, inv := false, sub := 0, prev := some out, out := [] }

/-- The end of JROW, after the row has gone its way. -/
theorem rowDone_leaves {u : State} {out : List Nat} (hcu : u.cur = .jointer c p) (hpc : u.pc = s.pc) (hn : (u.jtr c p).outn = (s.jtr c p).outn) :
    let t := (u.modJtr c p fun j => j.rowDone out).retire
    ((t.jtr c p).outn = (s.jtr c p).outn + 1 ∧ (t.jtr c p).inv = false ∧ (t.jtr c p).sub = 0 ∧ (t.jtr c p).out = [] ∧ (t.jtr c p).prev = some out ∧
      t.pc = s.pc + 4) ∧ SameMem u t ∧ t.jtr c p = ((u.jtr c p).rowDone out).next ∧
      ∀ k, k ≠ jkey c p → Tab.get {} t.jointers k = Tab.get {} u.jointers k := by
  have hkeeps : JtrKeeps u (u.setJtr c p ((u.jtr c p).rowDone out)) c p := JtrKeeps.of_setJtr hcu rfl rfl
  obtain ⟨hjtr, hpc', hmem, hret⟩ := hkeeps.retire hcu
  rw [State.setJtr_jtr_same] at hjtr
  dsimp only
  rw [State.modJtr, hjtr]
  refine ⟨⟨congrArg (· + 1) hn, rfl, rfl, rfl, rfl, hpc'.trans (by rw [hpc])⟩, hmem, rfl, fun k hk => ?_⟩
  rw [hret, State.setJtr_get_ne _ _ _ _ hk, State.setJtr_get_ne _ _ _ _ hk]

/-- The line that JROW hands to the next position. -/
def State.rowLine (s : State) (c p : Nat) (out : List Nat) : Line :=
  let j := s.jtr c p
  { num := j.outn.toNat, frame := j.frame, sof := !j.sentSof, bad := j.inv, time := j.curLine.time, fmt := (s.chain c).ofmt p
    recv := out.length, elems := out }

/-- The row has reached the next position. -/
def State.handedDown (s : State) (c p : Nat) (out : List Nat) : State :=
  (s.modJtr c (p + 1) fun k => { k with ring := k.ring ++ [s.rowLine c p out] }).modJtr c p fun j => { j with sentSof := true }

theorem rowDown_hands {out : List Nat} (hroom : (s.jtr c (p + 1)).used < (s.chain c).win (p + 1) + 2) :
    rowDown c p out s = .ok (s.handedDown c p out) := by
  rw [rowDown, decide_eq_true hroom]
  rfl

theorem rowDown_waits {out : List Nat} (hroom : ¬ (s.jtr c (p + 1)).used < (s.chain c).win (p + 1) + 2) : rowDown c p out s = .error .wait := by
  rw [rowDown, decide_eq_false hroom]
  rfl

theorem jkey_next_ne (c p : Nat) : jkey c (p + 1) ≠ jkey c p := by
  unfold jkey
  omega

theorem handedDown_jtr (out : List Nat) : (s.handedDown c p out).jtr c p = { s.jtr c p with sentSof := true } ∧
    (s.handedDown c p out).jtr c (p + 1) = { s.jtr c (p + 1) with ring := (s.jtr c (p + 1)).ring ++ [s.rowLine c p out] } := by
  have hown : (s.setJtr c (p + 1) { s.jtr c (p + 1) with ring := (s.jtr c (p + 1)).ring ++ [s.rowLine c p out] }).jtr c p = s.jtr c p :=
    State.setJtr_get_ne _ _ _ _ (jkey_next_ne c p).symm
  constructor
  · rw [State.handedDown, State.modJtr, State.setJtr_jtr_same, State.modJtr, hown]
  · have hother : (s.handedDown c p out).jtr c (p + 1) = (s.setJtr c (p + 1) { s.jtr c (p + 1) with ring := (s.jtr c (p + 1)).ring ++
      [s.rowLine c p out] }).jtr c (p + 1) := State.setJtr_get_ne _ _ _ _ (jkey_next_ne c p)
    rw [hother, State.setJtr_jtr_same]

include hc in
theorem handedDown_keeps (out : List Nat) : JtrKeeps s (s.handedDown c p out) c p := by
  obtain ⟨hjtr, -⟩ := handedDown_jtr (s := s) (c := c) (p := p) out
  exact ⟨hc, by rw [hjtr], by rw [hjtr]⟩

/-- JROW by what becomes of its row. -/
theorem jrowCore_eq (c p : Nat) (s : State) : jrowCore c p s =
    (if (s.chain c).isLast p then rowTile c p (rowOut ((s.chain c).owidth p) (s.jtr c p)) s
      else rowDown c p (rowOut ((s.chain c).owidth p) (s.jtr c p)) s) >>= fun u =>
        .ok (u.modJtr c p fun j => j.rowDone (rowOut ((s.chain c).owidth p) (s.jtr c p))).retire := by
  unfold jrowCore
  dsimp only
  split <;> rfl

include hc in

theorem jrow_eq {u : State} (h : (if (s.chain c).isLast p then rowTile c p (rowOut ((s.chain c).owidth p) (s.jtr c p)) s
      else rowDown c p (rowOut ((s.chain c).owidth p) (s.jtr c p)) s) = .ok u) :
    exec .jrow s = .next (u.modJtr c p fun j => j.rowDone (rowOut ((s.chain c).owidth p) (s.jtr c p))).retire := by
  have hcore : jrowCore c p s = .ok (u.modJtr c p fun j => j.rowDone (rowOut ((s.chain c).owidth p) (s.jtr c p))).retire := by
    rw [jrowCore_eq, h]
    rfl
  exact (State.onJointer_eq hc _).trans (congrArg s.finish hcore)

include hc in
theorem jrow_stops {e : Stop} (h : (if (s.chain c).isLast p then rowTile c p (rowOut ((s.chain c).owidth p) (s.jtr c p)) s
      else rowDown c p (rowOut ((s.chain c).owidth p) (s.jtr c p)) s) = .error e) : exec .jrow s = s.finish (.error e) := by
  have hcore : jrowCore c p s = .error e := by
    rw [jrowCore_eq, h]
    rfl
  exact (State.onJointer_eq hc _).trans (congrArg s.finish hcore)

/-- A row of a void tile is only counted. -/
theorem rowTile_void (out : List Nat) (hn : (s.jtr c p).outn ≠ 65535) (hopen : (s.jtr c p).topen = true) (hvoid : (s.jtr c p).void = true) :
    rowTile c p out s = .ok (s.modJtr c p fun j => { j with trows := j.trows + 1 }) := by
  have h1 : (guardE ((s.jtr c p).outn != 65535) (trapC 0x56) : Except Stop Unit) = .ok () := by rw [bne_iff_ne.2 hn]; rfl
  unfold rowTile
  dsimp only
  rw [h1, hopen, hvoid]
  rfl

theorem rowTile_closed (out : List Nat) (hn : (s.jtr c p).outn ≠ 65535) (hopen : (s.jtr c p).topen = false) :
    rowTile c p out s = .error (trapC 0x3E) := by
  have h1 : (guardE ((s.jtr c p).outn != 65535) (trapC 0x56) : Except Stop Unit) = .ok () := by rw [bne_iff_ne.2 hn]; rfl
  unfold rowTile
  dsimp only
  rw [h1, hopen]
  rfl

/-! ### JTILE -/

theorem jtileCore_given {a : BitVec 5} (hlast : (s.chain c).isLast p = true) (hclosed : (s.jtr c p).topen = false) (hgiven : bit (s.readS a) 63 = true) :
    jtileCore c p a s = openTile c p none (word (bits (s.readS a) 62 0)) s >>= fun u => .ok u.retire := by
  unfold jtileCore
  dsimp only
  rw [hlast, hgiven, hclosed]
  rfl

/-- The jointer after JTILE has found no slot. -/
def State.voidTile (s : State) (c p : Nat) (given : Word) : State :=
  (s.setJtr c p { s.jtr c p with topen := true, trows := 0, subst := 0, opened := true, refrow := none, tgiven := given, tframe := (s.jtr c p).frame }).modJtr
    c p fun j => { j with void := true, voidcnt := j.voidcnt + 1 }

theorem openTile_void {given : Word} (hnone : freeSlot c (chainRing (s.chain c))
      (if (s.jtr c p).opened then ((s.jtr c p).tslot.toNat + 1) % chainRing (s.chain c) else 0) s = none) :
    openTile c p none given s = .ok (s.voidTile c p given) := by
  unfold openTile
  dsimp only
  rw [show freeSlot c (chainRing (s.chain c)) (if (s.jtr c p).opened then ((s.jtr c p).tslot.toNat + 1) % chainRing (s.chain c) else 0)
    (s.setJtr c p { s.jtr c p with topen := true, trows := 0, subst := 0, opened := true, refrow := none, tgiven := given, tframe := (s.jtr c p).frame }) =
      none from hnone]
  rfl

theorem voidTile_retires (hc : s.cur = .jointer c p) (given : Word) :
    let t := (s.voidTile c p given).retire
    t.jtr c p = Jointer.next { s.jtr c p with
      topen := true, trows := 0, subst := 0, opened := true, refrow := none, tgiven := given, tframe := (s.jtr c p).frame, void := true
      voidcnt := (s.jtr c p).voidcnt + 1 } ∧ t.pc = s.pc + 4 ∧ SameMem s t := by
  have hvoid : s.voidTile c p given = s.setJtr c p { s.jtr c p with
      topen := true, trows := 0, subst := 0, opened := true, refrow := none, tgiven := given, tframe := (s.jtr c p).frame, void := true
      voidcnt := (s.jtr c p).voidcnt + 1 } := by
    rw [State.voidTile, State.modJtr, State.setJtr_jtr_same, State.setJtr_setJtr]
  dsimp only
  rw [hvoid]
  obtain ⟨hjtr, hpc, hmem, -⟩ := (JtrKeeps.of_setJtr hc (j := { s.jtr c p with
    topen := true, trows := 0, subst := 0, opened := true, refrow := none, tgiven := given, tframe := (s.jtr c p).frame, void := true
    voidcnt := (s.jtr c p).voidcnt + 1 }) rfl rfl).retire hc
  rw [State.setJtr_jtr_same] at hjtr
  exact ⟨hjtr, hpc, hmem⟩

end

/-! ### The obligation -/

theorem lineStatus_kept {s : State} {c : Nat} {l : Line} (hodd : l.odd = false) (hfree : s.logSays (chainPart (s.chain c)) 2 c = .free) :
    s.lineStatus c l = .ok (l, s) := by
  rw [State.lineStatus, hfree]
  dsimp only
  rw [hodd, if_neg (by decide)]

theorem takenElems_even {s : State} {c p : Nat} {l : Line} (h : p ≠ 0 ∨ l.odd = false ∧ s.logSays (chainPart (s.chain c)) 2 c = .free) :
    s.takenElems c p l = if p = 0 then fit (s.chain c).width l.elems else l.elems := by
  unfold State.takenElems
  rcases h with hp | ⟨hodd, -⟩
  · rw [if_neg hp, if_neg hp]
  · have hgood : (l.bad || l.drop) = false := by
      rw [Line.odd, Bool.or_eq_false_iff] at hodd
      exact hodd.1
    unfold substitute
    rw [hgood, if_neg Bool.false_ne_true]

/-- What JSTAT gives once a line has been returned. -/
theorem jstatValue_of_inf {s : State} {c p : Nat} (hinf : (s.jtr c p).inf = true) {k : Nat} {v : Word}
    (h : (k, v) ∈ [(0, (s.jtr c p).curLine.time), (1, (s.jtr c p).t0), (2, word (s.jtr c p).frame.toNat), (3, word (s.jtr c p).badcnt.toNat),
      (4, word (s.jtr c p).dropcnt.toNat), (5, word (s.jtr c 0).latecnt.toNat), (6, word (s.jtr c p).ovrcnt.toNat),
      (7, word (s.jtr c p).curLine.recv), (8, word (s.jtr c p).voidcnt.toNat)]) : k ≤ 8 ∧ jstatValue c p k s = v := by
  simp only [List.mem_cons, Prod.mk.injEq, List.not_mem_nil, or_false] at h
  unfold jstatValue
  dsimp only
  rw [hinf]
  rcases h with ⟨rfl, rfl⟩ | ⟨rfl, rfl⟩ | ⟨rfl, rfl⟩ | ⟨rfl, rfl⟩ | ⟨rfl, rfl⟩ | ⟨rfl, rfl⟩ | ⟨rfl, rfl⟩ | ⟨rfl, rfl⟩ | ⟨rfl, rfl⟩ <;>
    exact ⟨by decide, rfl⟩

/-- Settles O42: each word by the jointer that it leaves. -/
theorem jointerWordsMakeTiles : Obligations.JointerWordsMakeTiles := by
  unfold Obligations.JointerWordsMakeTiles
  refine ⟨fun s c p d a v n im r l rest hc => ⟨fun hen heofs hspent hring heof hsof hstatus => ?_, fun hen heofs hspent hring heof => ?_,
    fun hen heofs hspent hring => ?_, fun hfmt hinf hlo hhi hfind => ?_, fun hfmt => ?_, fun hfmt => ?_, ?_, fun hinf k w hk hn => ?_, fun hn => ?_⟩,
    fun s u c p a hc => ⟨fun hlast hp hroom => ?_, fun hlast hroom => ?_, fun hlast hn hopen hvoid => ?_, fun hlast hopen hn => ?_,
      fun hlast hopen hvoid hn htile hun hucur hupc => ?_, fun hlast => ?_, fun hlast hclosed hgiven hring => ⟨fun hnone => ?_, fun k hk htile hucur hupc => ?_⟩⟩⟩
  · have hcore : jwaitCore c p d s = .ok (takeLine c p d l s) := by
      rw [jwaitCore_eq hen heofs hspent, hring]
      dsimp only
      rw [heof, if_neg (by decide)]
      rcases hstatus with hp | ⟨hodd, hfree⟩
      · rw [if_pos hp]
      · rw [lineStatus_kept hodd hfree]
        split <;> rfl
    obtain ⟨hpc, hresult, hothers, hrest, hcur, hinf, hframe, hkept, hmem⟩ := takeLine_takes hc d hring hsof
    rw [takenElems_even hstatus] at hkept
    exact ⟨_, (State.onJointer_eq hc _).trans (congrArg s.finish hcore), hpc, hresult, hothers, hrest, hcur, hinf, hframe, hkept, hmem⟩
  · have hcore : jwaitCore c p d s = .ok (takeEnd c p d l s) := by
      rw [jwaitCore_eq hen heofs hspent, hring]
      dsimp only
      rw [heof, if_pos rfl]
    exact ⟨_, (State.onJointer_eq hc _).trans (congrArg s.finish hcore), takeEnd_takes hc d hring⟩
  · have hcore : jwaitCore c p d s = .ok s := by rw [jwaitCore_eq hen heofs hspent, hring]
    exact (State.onJointer_eq hc _).trans (congrArg s.finish hcore)
  · obtain ⟨hlanes, hregs, hinv, hpc, hmem⟩ := writeLanes_jtr hc v (fmtWidth s.vty)
      ((List.range (lanesOf (fmtWidth s.vty))).map fun i =>
        if lineBase a im s + i < (s.chain c).inWidth p then lgMask s.vty (nth 0 l.elems (lineBase a im s + i)) else 0)
      (by rw [List.length_map, List.length_range]) (j := { s.jtr c p with inv := (s.jtr c p).inv || l.bad || l.drop }) rfl rfl rfl
    refine ⟨_, (State.onJointer_eq hc _).trans (congrArg s.finish (jlineCore_line hc hfmt hinf hlo hhi hfind)), fun i hi => ?_, hregs, hinv, hpc, hmem⟩
    rw [hlanes i hi, nth, List.getD_eq_getElem?_getD, List.getElem?_map, List.getElem?_range hi]
    rfl
  · have hcore : jlineCore c p v a im s = .error (trapC 0x3D) := by
      rw [jlineCore, beq_eq_false_iff_ne.2 hfmt]
      rfl
    exact (State.onJointer_eq hc _).trans (congrArg s.finish hcore)
  · exact ⟨_, (State.onJointer_eq hc _).trans (congrArg s.finish (jemitCore_writes hfmt)),
      setJtr_retire_onlyActor hc (j := { s.jtr c p with out := s.emitted c p v a im }) rfl rfl rfl⟩
  · exact ⟨_, State.onJointer_eq hc _, setJtr_retire_onlyActor hc
      (j := { s.jtr c p with inv := true, sub := BitVec.ofNat 2 (if r = 0 then ruleOf (s.chain c).rule else r.toNat) }) rfl rfl rfl⟩
  · obtain ⟨hk8, hvalue⟩ := jstatValue_of_inf hinf hk
    have hn8 : n.toNat = k := by rw [hn, BitVec.toNat_ofNat, Nat.mod_eq_of_lt (by omega)]
    rw [← hvalue, ← hn8]
    exact jstat_writes hc (by omega)
  · have hcore : jstatCore c p d n s = .error (trapC 0x02) := by
      rw [jstatCore, decide_eq_false (by omega)]
      rfl
    exact (State.onJointer_eq hc _).trans (congrArg s.finish hcore)
  · have hrow : (if (s.chain c).isLast p then rowTile c p (rowOut ((s.chain c).owidth p) (s.jtr c p)) s
        else rowDown c p (rowOut ((s.chain c).owidth p) (s.jtr c p)) s) = .ok (s.handedDown c p (rowOut ((s.chain c).owidth p) (s.jtr c p))) := by
      rw [hlast, if_neg (by decide)]
      exact rowDown_hands hroom
    obtain ⟨hown, hnext⟩ := handedDown_jtr (s := s) (c := c) (p := p) (rowOut ((s.chain c).owidth p) (s.jtr c p))
    obtain ⟨hdone, hmem, -, hothers⟩ := rowDone_leaves (out := rowOut ((s.chain c).owidth p) (s.jtr c p)) (handedDown_keeps hc _).cur
      ((handedDown_keeps hc (rowOut ((s.chain c).owidth p) (s.jtr c p))).pc_eq hc) (by rw [hown])
    refine ⟨_, jrow_eq hc hrow, hdone, hmem, s.rowLine c p (rowOut ((s.chain c).owidth p) (s.jtr c p)), ?_, rfl, rfl, rfl, rfl⟩
    exact (congrArg Jointer.ring ((hothers _ (jkey_next_ne c p)).trans hnext)).trans rfl
  · refine (jrow_stops hc (e := .wait) ?_).trans ?_
    · rw [hlast, if_neg (by decide)]
      exact rowDown_waits hroom
    · show Host.Outcome.next (s.setHold false) = _
      rw [State.setHold, hc]
  · have hrow : (if (s.chain c).isLast p then rowTile c p (rowOut ((s.chain c).owidth p) (s.jtr c p)) s
        else rowDown c p (rowOut ((s.chain c).owidth p) (s.jtr c p)) s) = .ok (s.modJtr c p fun j => { j with trows := j.trows + 1 }) := by
      rw [if_pos hlast]
      exact rowTile_void _ hn hopen hvoid
    have hjtr : (s.setJtr c p { s.jtr c p with trows := (s.jtr c p).trows + 1 }).jtr c p = { s.jtr c p with trows := (s.jtr c p).trows + 1 } := State.setJtr_jtr_same _ _ _ _
    have hkeeps := JtrKeeps.of_setJtr hc (j := { s.jtr c p with trows := (s.jtr c p).trows + 1 }) rfl rfl
    obtain ⟨hdone, hmem, hafter, -⟩ := rowDone_leaves (out := rowOut ((s.chain c).owidth p) (s.jtr c p)) hkeeps.cur (hkeeps.pc_eq hc) (by rw [hjtr])
    exact ⟨_, jrow_eq hc hrow, hdone, (congrArg Jointer.trows hafter).trans (by rw [hjtr]; rfl), hmem⟩
  · refine jrow_stops hc (e := trapC 0x3E) ?_
    rw [if_pos hlast]
    exact rowTile_closed _ hn hopen
  · have hrow : (if (s.chain c).isLast p then rowTile c p (rowOut ((s.chain c).owidth p) (s.jtr c p)) s
        else rowDown c p (rowOut ((s.chain c).owidth p) (s.jtr c p)) s) = .ok u := by rw [if_pos hlast, htile]
    obtain ⟨hdone, hmem, -⟩ := rowDone_leaves (out := rowOut ((s.chain c).owidth p) (s.jtr c p)) (hucur.trans hc) hupc hun
    exact ⟨_, jrow_eq hc hrow, hdone, hmem⟩
  · have hcore : jtileCore c p a s = .error (trapC 0x05) := by
      rw [jtileCore, hlast]
      rfl
    exact (State.onJointer_eq hc _).trans (congrArg s.finish hcore)
  · have hcore : jtileCore c p a s = .ok (s.voidTile c p (word (bits (s.readS a) 62 0))).retire := by
      rw [jtileCore_given hlast hclosed hgiven, openTile_void hnone]
      rfl
    obtain ⟨hvoid, hpc, hmem⟩ := voidTile_retires hc (word (bits (s.readS a) 62 0))
    exact ⟨_, (State.onJointer_eq hc _).trans (congrArg s.finish hcore), (congrArg Jointer.topen hvoid).trans rfl,
      (congrArg Jointer.void hvoid).trans rfl, (congrArg Jointer.voidcnt hvoid).trans rfl, (congrArg Jointer.trows hvoid).trans rfl, hpc, hmem⟩
  · have hcore : jtileCore c p a s = .ok u.retire := by
      rw [jtileCore_given hlast hclosed hgiven, htile]
      rfl
    have hret := State.retire_jtr (hucur.trans hc)
    refine ⟨_, (State.onJointer_eq hc _).trans (congrArg s.finish hcore), fun _ => by rw [hret]; rfl, ?_⟩
    rw [State.retire, State.setPc_pc (onScalar_jointer (hucur.trans hc)), hupc]

end Sys2Proof.Machine
end

section
/-! The results of the class operations of laths (R338 to R343): what they compute of a batch's payloads. -/

namespace Sys2Proof.Machine

/-! ### Sorts by a key (R340, R341) -/

section
variable {before : Word → Word → Bool} {f : Word → Int} (hb : ∀ x y, before x y = decide (f x < f y))
include hb

theorem insertKey_eq (x : Word) : ∀ l, insertKey before x l = l.orderedInsert (fun x y => f x ≤ f y) x
  | [] => rfl
  | y :: t => by
    rw [insertKey, List.orderedInsert_cons, hb, insertKey_eq x t]
    by_cases h : f x ≤ f y
    · rw [if_pos h, if_neg (by simpa using h)]
    · rw [if_neg h, if_pos (by simpa using h)]

theorem sortKeys_eq : ∀ l, sortKeys before l = l.insertionSort fun x y => f x ≤ f y
  | [] => rfl
  | x :: t => by rw [sortKeys, insertKey_eq hb, sortKeys_eq t, List.insertionSort_cons]

theorem sortKeys_perm (l : List Word) : (sortKeys before l).Perm l := by
  rw [sortKeys_eq hb]
  exact List.perm_insertionSort _ l

theorem sortKeys_pairwise (l : List Word) : (sortKeys before l).Pairwise fun x y => before y x = false := by
  have : Std.Total fun x y : Word => f x ≤ f y := ⟨fun x y => le_total (f x) (f y)⟩
  have : IsTrans Word fun x y => f x ≤ f y := ⟨fun _ _ _ => le_trans⟩
  rw [sortKeys_eq hb]
  exact (List.pairwise_insertionSort (fun x y => f x ≤ f y) l).imp fun {x y} h => by rw [hb, decide_eq_false (not_lt.2 h)]

/-- A stable sort keeps the order of tokens with one key. -/
theorem sortKeys_filter {g : Word → Bool} (l : List Word) (hg : ∀ x y, g x = true → g y = true → f x = f y) :
    (sortKeys before l).filter g = l.filter g := by
  have : Std.Total fun x y : Word => f x ≤ f y := ⟨fun x y => le_total (f x) (f y)⟩
  have : IsTrans Word fun x y => f x ≤ f y := ⟨fun _ _ _ => le_trans⟩
  have hsame : (l.filter g).Pairwise fun x y => f x ≤ f y :=
    List.pairwise_of_forall_mem_list fun x hx y hy => le_of_eq (hg x y (List.of_mem_filter hx) (List.of_mem_filter hy))
  have hsub := List.sublist_insertionSort (r := fun x y => f x ≤ f y) hsame List.filter_sublist
  rw [← sortKeys_eq hb] at hsub
  have hfilter := hsub.filter g
  simp only [List.filter_filter, Bool.and_self] at hfilter
  exact (hfilter.eq_of_length ((sortKeys_perm hb l).filter g).length_eq.symm).symm

end

/-- The number by which a slot orders payloads. -/
def sortRank (w : Nat) (v : Word) : Int := if sDesc w then -compareKey w v else compareKey w v

theorem keyBefore_eq (w : Nat) (x y : Word) : keyBefore w x y = decide (sortRank w x < sortRank w y) := by
  unfold keyBefore sortRank
  split <;> simp

theorem topBefore_eq (w : Nat) (x y : Word) : topBefore w x y = decide (-sortRank w x < -sortRank w y) := by
  unfold topBefore sortRank
  split <;> simp

theorem sortRank_of_key {w : Nat} {x y : Word} (h : compareKey w x = compareKey w y) : sortRank w x = sortRank w y := by
  unfold sortRank
  rw [h]

/-! ### Merges (R340) -/

theorem mergeKeys_merges (w : Nat) : ∀ (n : Nat) (a b : List Word), a.length + b.length ≤ n → Merges w a b (mergeKeys (keyBefore w) n a b)
  | 0, [], [], _ => .done
  | 0, x :: a, b, h => by simp at h
  | 0, [], y :: b, h => by simp at h
  | n + 1, [], [], _ => .done
  | n + 1, [], y :: b, h => by
    have hrest := mergeKeys_merges w n [] b (by simpa using h)
    cases n with
    | zero =>
      obtain rfl : b = [] := List.eq_nil_of_length_eq_zero (by simpa using h)
      exact .second y [] [] [] (by simp) .done
    | succ n =>
      refine .second y [] b b (by simp) ?_
      cases b with
      | nil => exact .done
      | cons z b => exact hrest
  | n + 1, x :: a, [], h => by
    have hrest := mergeKeys_merges w n a [] (by simpa using h)
    cases n with
    | zero =>
      obtain rfl : a = [] := List.eq_nil_of_length_eq_zero (by simpa using h)
      exact .first x [] [] [] (by simp) .done
    | succ n =>
      refine .first x a [] a (by simp) ?_
      cases a with
      | nil => exact .done
      | cons z a => exact hrest
  | n + 1, x :: a, y :: b, h => by
    rw [List.length_cons, List.length_cons] at h
    rw [mergeKeys]
    by_cases hxy : keyBefore w y x = true
    · rw [if_pos hxy]
      exact .second y (x :: a) b _ (by simpa using hxy) (mergeKeys_merges w n (x :: a) b (by rw [List.length_cons]; omega))
    · rw [if_neg hxy]
      exact .first x a (y :: b) _ (by simpa using hxy) (mergeKeys_merges w n a (y :: b) (by rw [List.length_cons]; omega))

theorem Merges.perm {w : Nat} {a b l : List Word} (h : Merges w a b l) : l.Perm (a ++ b) := by
  induction h with
  | done => exact .nil
  | first x a b l _ _ ih => exact ih.cons x
  | second y a b l _ _ ih => exact (ih.cons y).trans List.perm_middle.symm

/-- The first of a sorted list goes before none of it. -/
theorem rank_le_of_head {w : Nat} {z : Word} {b : List Word} (hsorted : b.Pairwise fun x y => keyBefore w y x = false)
    (hhead : ∀ y, b.head? = some y → sortRank w z ≤ sortRank w y) {y : Word} (hy : y ∈ b) : sortRank w z ≤ sortRank w y := by
  cases b with
  | nil => cases hy
  | cons x b =>
    have hx := hhead x rfl
    rcases List.mem_cons.1 hy with rfl | hy
    · exact hx
    · have := (List.pairwise_cons.1 hsorted).1 y hy
      rw [keyBefore_eq, decide_eq_false_iff_not, not_lt] at this
      exact hx.trans this

theorem Merges.pairwise {w : Nat} {a b l : List Word} (h : Merges w a b l) (ha : a.Pairwise fun x y => keyBefore w y x = false)
    (hb : b.Pairwise fun x y => keyBefore w y x = false) : l.Pairwise fun x y => keyBefore w y x = false := by
  induction h with
  | done => exact .nil
  | first x a b l hx hm ih =>
    obtain ⟨hhead, htail⟩ := List.pairwise_cons.1 ha
    refine List.pairwise_cons.2 ⟨fun y hy => ?_, ih htail hb⟩
    rcases List.mem_append.1 (hm.perm.mem_iff.1 hy) with hy | hy
    · exact hhead y hy
    · rw [keyBefore_eq, decide_eq_false_iff_not, not_lt]
      refine rank_le_of_head hb (fun z hz => ?_) hy
      have := hx z hz
      rwa [keyBefore_eq, decide_eq_false_iff_not, not_lt] at this
  | second y a b l hy hm ih =>
    obtain ⟨hhead, htail⟩ := List.pairwise_cons.1 hb
    refine List.pairwise_cons.2 ⟨fun z hz => ?_, ih ha htail⟩
    rcases List.mem_append.1 (hm.perm.mem_iff.1 hz) with hz | hz
    · rw [keyBefore_eq, decide_eq_false_iff_not, not_lt]
      refine rank_le_of_head ha (fun x hx => ?_) hz
      have := hy x hx
      rw [keyBefore_eq, decide_eq_true_eq] at this
      exact this.le
    · exact hhead z hz

/-! ### Dedupe (R342) -/

theorem dedupKeys_eq (w : Nat) : ∀ (l : List Word) (seen : List Int), dedupKeys w seen l = (List.range l.length).filterMap fun k =>
    if seen.contains (compareKey w (nth 0 l k)) || (l.take k).any (fun v => compareKey w v == compareKey w (nth 0 l k)) then none else some (nth 0 l k)
  | [], _ => rfl
  | x :: t, seen => by
    have htail (seen' : List Int) (hseen : ∀ v, seen'.contains (compareKey w v) =
        (seen.contains (compareKey w v) || compareKey w x == compareKey w v)) : dedupKeys w seen' t = (List.range t.length).filterMap fun k =>
          if seen.contains (compareKey w (nth 0 t k)) || ((x :: t).take (k + 1)).any (fun v => compareKey w v == compareKey w (nth 0 t k)) then none
          else some (nth 0 t k) := by
      rw [dedupKeys_eq w t seen']
      refine congrArg (List.filterMap · (List.range t.length)) (funext fun k => ?_)
      rw [hseen, List.take_succ_cons, List.any_cons, Bool.or_assoc]
    rw [List.length_cons, List.range_succ_eq_map, List.filterMap_cons, List.filterMap_map, dedupKeys]
    by_cases hx : seen.contains (compareKey w x) = true
    · rw [if_pos hx, htail seen fun v => ?_]
      · simp only [nth, List.getD_cons_zero, hx, Bool.true_or, if_true]
        rfl
      · by_cases hv : compareKey w x = compareKey w v
        · rw [← hv, hx, Bool.true_or]
        · rw [beq_eq_false_iff_ne.2 hv, Bool.or_false]
    · rw [if_neg hx, htail (compareKey w x :: seen) fun v => ?_]
      · simp only [nth, List.getD_cons_zero, hx, List.take_zero, List.any_nil, Bool.or_false, Bool.false_eq_true, if_false]
        rfl
      · rw [List.contains_cons, Bool.or_comm]
        congr 1
        exact Bool.beq_comm

/-! ### Scans and counts (R343) -/

/-- The sum after key `k` of a scan that has come to `acc`. -/
def scanFrom (w : Nat) (acc : Option Nat) (l : List Word) : Nat → Nat
  | 0 => match acc with
    | none => if sKfmt w = 2 then canonF32 (keyField w (nth 0 l 0)) else keyField w (nth 0 l 0)
    | some a => scanAdd w a (keyField w (nth 0 l 0))
  | k + 1 => scanAdd w (scanFrom w acc l k) (keyField w (nth 0 l (k + 1)))

theorem scanFrom_tail (w : Nat) (acc : Option Nat) (x : Word) (t : List Word) :
    ∀ k, scanFrom w (some (scanFrom w acc (x :: t) 0)) t k = scanFrom w acc (x :: t) (k + 1)
  | 0 => rfl
  | k + 1 => by
    rw [scanFrom, scanFrom_tail w acc x t k]
    rfl

theorem scanKeys_eq (w : Nat) (excl : Bool) : ∀ (l : List Word) (acc : Option Nat), scanKeys w excl acc l = (List.range l.length).map fun k =>
    withKey w (nth 0 l k) (if excl then (if k = 0 then acc.getD 0 else scanFrom w acc l (k - 1)) else scanFrom w acc l k)
  | [], _ => rfl
  | x :: t, acc => by
    have hfirst : scanKeys w excl acc (x :: t) = withKey w x (if excl then acc.getD 0 else scanFrom w acc (x :: t) 0) ::
        scanKeys w excl (some (scanFrom w acc (x :: t) 0)) t := by
      cases acc <;> rfl
    rw [hfirst, scanKeys_eq w excl t, List.length_cons, List.range_succ_eq_map, List.map_cons, List.map_map]
    congr 1
    refine List.map_congr_left fun k _ => ?_
    dsimp only [Function.comp]
    rw [scanFrom_tail]
    cases k with
    | zero => cases excl <;> rfl
    | succ k =>
      rw [if_neg (Nat.succ_ne_zero k), if_neg (Nat.succ_ne_zero _), Nat.succ_sub_one, Nat.succ_sub_one, scanFrom_tail]
      rfl

/-- The key field's width. -/
def keyMod (w : Nat) : Nat := 2 ^ (if sKfmt w = 3 then 64 else 32)

theorem keyField_lt (w : Nat) (v : Word) : keyField w v < keyMod w := by
  unfold keyField keyMod
  split
  · exact v.isLt
  · exact Nat.mod_lt _ (Nat.two_pow_pos 32)

theorem scanAdd_mod {w : Nat} (h : sKfmt w ≠ 2) (a k : Nat) : scanAdd w a k = (a + k) % keyMod w := by
  unfold scanAdd keyMod
  split
  · exact absurd ‹_› h
  · rw [if_pos ‹_›]
  · rw [if_neg ‹_›]

/-- One more key of a list, which past its end counts as zero. -/
theorem sum_take_succ_key (w : Nat) (l : List Word) (k : Nat) :
    ((l.take (k + 1)).map (keyField w)).sum = ((l.take k).map (keyField w)).sum + keyField w (nth 0 l k) := by
  rw [List.take_add_one, List.map_append, List.sum_append, nth, List.getD_eq_getElem?_getD]
  cases l[k]? with
  | none =>
    have : keyField w 0 = 0 := by
      unfold keyField
      split <;> rfl
    rw [Option.getD_none, this]
    rfl
  | some v => simp

theorem scanFrom_sum {w : Nat} (h : sKfmt w ≠ 2) (l : List Word) : ∀ k, scanFrom w none l k = ((l.take (k + 1)).map (keyField w)).sum % keyMod w
  | 0 => by
    rw [scanFrom, if_neg h, sum_take_succ_key, List.take_zero, List.map_nil, List.sum_nil, Nat.zero_add, Nat.mod_eq_of_lt (keyField_lt w _)]
  | k + 1 => by
    rw [scanFrom, scanFrom_sum h l k, scanAdd_mod h, sum_take_succ_key w l (k + 1), Nat.mod_add_mod]

theorem histKeys_eq (w : Nat) (l : List Word) : histKeys w l =
    (List.range (sBins w)).map fun k => word (k * 2 ^ 32 + l.countP fun v => keyField w v % sBins w == k) := by
  unfold histKeys at_
  simp only [List.countP_eq_length_filter]

end Sys2Proof.Machine
end

section
/-! Class operations of laths (R338 to R343): a batch is consumed, what it gives is emitted, and the lath retires. -/

namespace Sys2Proof.Machine

/-! ### Emission (R331) -/

section
variable {x : Lath} {o : Nat}

/-- A change of the output ports alone. -/
def Lath.OutOnly (x y : Lath) : Prop := y = { x with outp := y.outp }

theorem Lath.OutOnly.trans {x y z : Lath} (h : x.OutOnly y) (h' : y.OutOnly z) : x.OutOnly z := by
  unfold Lath.OutOnly at *
  rw [h', h]

/-- The emission buffer of a port. -/
def Lath.emitted (x : Lath) (o : Nat) : List Word := (x.outPort o).emit.map fun t => t.1

theorem Lath.setOut_outPort {p : OutPort} (ho : o < x.outp.length) (q : Nat) : (x.setOut o p).outPort q = if q = o then p else x.outPort q := by
  unfold Lath.setOut Lath.outPort nth setNth
  dsimp only
  rw [List.getD_eq_getElem?_getD, List.getElem?_set]
  by_cases h : o = q
  · rw [if_pos h, if_pos ho, if_pos h.symm]
    rfl
  · rw [if_neg h, if_neg (Ne.symm h), List.getD_eq_getElem?_getD]

theorem emitToken_emits (ho : o < x.outp.length) (thread : Nat) (v : Word) :
    x.OutOnly (x.emitToken o thread v) ∧ (x.emitToken o thread v).outp.length = x.outp.length ∧
      ∀ q, (x.emitToken o thread v).emitted q = x.emitted q ++ if q = o then [v] else [] := by
  refine ⟨rfl, List.length_set, fun q => ?_⟩
  rw [Lath.emitToken, Lath.emitted, Lath.setOut_outPort ho]
  by_cases h : q = o
  · rw [if_pos h, if_pos h, h, List.map_append]
    rfl
  · rw [if_neg h, if_neg h, List.append_nil]
    rfl

theorem emitTokens_emits (thread : Nat) : ∀ (l : List Word) (x : Lath), o < x.outp.length →
    let y := l.foldl (fun x v => x.emitToken o thread v) x
    x.OutOnly y ∧ y.outp.length = x.outp.length ∧ ∀ q, y.emitted q = x.emitted q ++ if q = o then l else []
  | [], x, _ => ⟨rfl, rfl, fun q => by simp⟩
  | v :: l, x, ho => by
    obtain ⟨honly, hlen, hemit⟩ := emitToken_emits ho thread v
    obtain ⟨honly', hlen', hemit'⟩ := emitTokens_emits thread l (x.emitToken o thread v) (by rw [hlen]; exact ho)
    refine ⟨honly.trans honly', hlen'.trans hlen, fun q => ?_⟩
    rw [List.foldl_cons, hemit' q, hemit q]
    by_cases h : q = o
    · simp [h]
    · simp [h]

/-- What a batch adds to the buffer of port `o`. -/
def Lath.batchFor (x : Lath) (o : Nat) (l : List Word) : List Word := if pwKind (x.portWord (4 + o)) = 0 then [] else word l.length :: l

theorem emitBatch_emits (ho : o < x.outp.length) (thread : Nat) (l : List Word) :
    x.OutOnly (x.emitBatch o thread l) ∧ (x.emitBatch o thread l).outp.length = x.outp.length ∧
      ∀ q, (x.emitBatch o thread l).emitted q = x.emitted q ++ if q = o then x.batchFor o l else [] := by
  rw [Lath.emitBatch, Lath.batchFor]
  by_cases hkind : pwKind (x.portWord (4 + o)) = 0
  · rw [if_pos (by simpa using hkind), if_pos hkind]
    exact ⟨rfl, rfl, fun q => by simp⟩
  · rw [if_neg (by simpa using hkind), if_neg hkind]
    exact emitTokens_emits thread _ x ho

theorem Lath.OutOnly.batchFor {y : Lath} (h : x.OutOnly y) (o : Nat) (l : List Word) : y.batchFor o l = x.batchFor o l := by
  rw [h]
  rfl

theorem emitAll_emits : ∀ (e : Emission) (x : Lath), (∀ r ∈ e, r.1 < x.outp.length) →
    x.OutOnly (emitAll x e) ∧ (emitAll x e).outp.length = x.outp.length ∧
      ∀ q, (emitAll x e).emitted q = x.emitted q ++ e.flatMap fun r => if q = r.1 then x.batchFor q r.2.2 else []
  | [], x, _ => ⟨rfl, rfl, fun q => by simp [emitAll]⟩
  | (o, t, l) :: e, x, ho => by
    obtain ⟨honly, hlen, hemit⟩ := emitBatch_emits (ho (o, t, l) List.mem_cons_self) t l
    obtain ⟨honly', hlen', hemit'⟩ := emitAll_emits e (x.emitBatch o t l) fun r hr => by
      rw [hlen]
      exact ho r (List.mem_cons_of_mem _ hr)
    refine ⟨honly.trans honly', hlen'.trans hlen, fun q => ?_⟩
    have hfor : (fun r : Nat × Nat × List Word => if q = r.1 then (x.emitBatch o t l).batchFor q r.2.2 else []) =
        fun r => if q = r.1 then x.batchFor q r.2.2 else [] := funext fun r => by rw [honly.batchFor]
    show (emitAll (x.emitBatch o t l) e).emitted q = _
    rw [hemit', hemit, hfor, List.flatMap_cons, List.append_assoc]
    by_cases h : q = o
    · rw [h]
    · simp only [if_neg h]

end
end Sys2Proof.Machine
end

section
/-! Class operations of laths (R338 to R343): a batch is consumed, what it gives is emitted, and the lath retires. -/

namespace Sys2Proof.Machine

/-! ### Consumption and retirement (R338, R345) -/

section
variable {x : Lath} {i : Nat} {b : Batch}

/-- The lath after it has consumed a batch. -/
def Lath.consumed (x : Lath) (i : Nat) (b : Batch) : Lath :=
  x.setIn i { x.inPort i with store := markUsed b.src b.thread (b.data.length + 1) (x.inPort i).store, last := some b.src }

theorem Lath.setIn_inPort {p : InPort} (hi : i < x.inp.length) (q : Nat) : (x.setIn i p).inPort q = if q = i then p else x.inPort q := by
  unfold Lath.setIn Lath.inPort nth setNth
  dsimp only
  rw [List.getD_eq_getElem?_getD, List.getElem?_set]
  by_cases h : i = q
  · rw [if_pos h, if_pos hi, if_pos h.symm]
    rfl
  · rw [if_neg h, if_neg (Ne.symm h), List.getD_eq_getElem?_getD]

/-- The places of a port's store that an implicit checkpoint keeps. -/
theorem Lath.checkpoint_inPort (x : Lath) (pc : BitVec 12) (q : Nat) :
    (x.checkpoint pc).inPort q = { x.inPort q with store := (x.inPort q).store.filter fun t => !t.used } := by
  unfold Lath.checkpoint Lath.inPort nth
  dsimp only
  rw [List.getD_eq_getElem?_getD, List.getD_eq_getElem?_getD, List.getElem?_map]
  cases x.inp[q]? <;> rfl

/-- Of the lath that retires a class operation: what it has emitted stands, and its program goes on. -/
theorem retireClass_leaves (x : Lath) : x.retireClass.pc = x.nextPc ∧ (∀ q, x.retireClass.emitted q = x.emitted q) ∧
    (∀ q, (x.retireClass.inPort q).last = (x.inPort q).last) ∧ (x.hasCkpt = true → ∀ q, (x.retireClass.inPort q).store = (x.inPort q).store) ∧
    (x.hasCkpt = false → ∀ q, ∀ y ∈ (x.retireClass.inPort q).store, y.used = false) := by
  unfold Lath.retireClass
  by_cases h : x.hasCkpt = true
  · rw [if_pos h]
    exact ⟨rfl, fun _ => rfl, fun _ => rfl, fun _ _ => rfl, fun h' => by rw [h] at h'; cases h'⟩
  · rw [if_neg h]
    refine ⟨rfl, fun _ => rfl, fun q => by rw [Lath.checkpoint_inPort]; rfl, fun h' => absurd h' h, fun _ q y hy => ?_⟩
    rw [Lath.checkpoint_inPort] at hy
    simpa using List.of_mem_filter hy

end

section
variable {s : State} {n i : Nat} {b : Batch}

theorem State.setLath_onlyLath (s : State) (n : Nat) (x : Lath) : OnlyLath s (s.setLath n x) n :=
  ⟨rfl, fun m hm => by rw [State.setLath_lathAt, if_neg hm]⟩

/-- A lath that has consumed a batch and emitted retires. -/
theorem consumed_retires (hi : i < (s.lathAt n).inp.length) {y : Lath} (hy : ((s.lathAt n).consumed i b).OutOnly y) :
    LathRetired s (s.setLath n y.retireClass) n i b := by
  obtain ⟨hpc, -, hlast, hused, hfreed⟩ := retireClass_leaves y
  have hport : y.inPort i = { (s.lathAt n).inPort i with
      store := markUsed b.src b.thread (b.data.length + 1) ((s.lathAt n).inPort i).store, last := some b.src } := by
    rw [hy]
    exact (Lath.setIn_inPort hi i).trans (if_pos rfl)
  have hprog : y.nextPc = (s.lathAt n).nextPc ∧ y.hasCkpt = (s.lathAt n).hasCkpt := by
    rw [hy]
    exact ⟨rfl, rfl⟩
  rw [hprog.1] at hpc
  rw [hprog.2] at hused hfreed
  refine ⟨?_, ?_, fun h => ?_, fun h => ?_, fun _ => rfl, s.setLath_onlyLath n _⟩ <;> rw [State.setLath_lathAt_same]
  · exact hpc
  · rw [hlast, hport]
  · rw [hused h, hport]
  · exact hfreed h i

theorem State.setLath_setLath (s : State) (n : Nat) (x y : Lath) : (s.setLath n x).setLath n y = s.setLath n y := by
  simp only [State.setLath, Tab.put_put]

theorem State.consume_modLath (s : State) (n i : Nat) (b : Batch) (f : Lath → Lath) :
    (s.consume n i b).modLath n f = s.setLath n (f ((s.lathAt n).consumed i b)) := by
  rw [State.modLath, State.consume]
  rw [State.setLath_lathAt_same, State.setLath_setLath]
  rfl

theorem State.emits_setLath (s : State) (n : Nat) (x : Lath) (o : Nat) : (s.setLath n x).emits n o = x.emitted o := by
  rw [State.emits, State.setLath_lathAt_same]
  rfl

/-- A batch at no decision point is taken as it stands. -/
theorem chosen_eq (h : s.mergePoint n i = false) (b : Batch) : s.chosen n i b = s := by
  rw [State.chosen, h]
  rfl

/-- A class operation that reads one batch. -/
theorem classOp_one {outs : List Nat} {check : Except Stop Unit} {f : List Batch → State → Except Stop (Emission × State)} {e : Emission}
    (hready : BatchReady s n i outs b) (hcheck : check = .ok ()) (hf : f [b] s = .ok (e, s)) :
    classOp n [i] outs check f s = .ok (s.setLath n (emitAll ((s.lathAt n).consumed i b) e).retireClass) := by
  obtain ⟨hnext, hgood, hmerge, -, houts⟩ := hready
  have htake : takeAll n s [i] = .ok (some [b]) := by
    rw [takeAll, hnext]
    dsimp only
    rw [chosen_eq hmerge]
    rfl
  have hroom : outs.all (s.lathAt n).roomAt = true := List.all_eq_true.2 fun o ho => (houts o ho).1
  have hbad : ([b].any fun b => b.bad) = false := by rw [List.any_cons, hgood]; rfl
  unfold classOp
  rw [htake]
  dsimp only
  rw [hroom, hcheck, hbad, hf]
  show Except.ok (((s.chosen n i b).consume n i b).modLath n _) = _
  rw [chosen_eq hmerge, State.consume_modLath]

/-- What it emits, port by port. -/
theorem classOp_emits {outs : List Nat} {e : Emission} (hready : BatchReady s n i outs b) (he : ∀ r ∈ e, r.1 ∈ outs) :
    let t := s.setLath n (emitAll ((s.lathAt n).consumed i b) e).retireClass
    (∀ q, t.emits n q = s.emits n q ++ e.flatMap fun r => if q = r.1 then s.batchAt n q r.2.2 else []) ∧ LathRetired s t n i b := by
  obtain ⟨-, -, -, hi, houts⟩ := hready
  obtain ⟨honly, -, hemit⟩ := emitAll_emits e ((s.lathAt n).consumed i b) fun r hr => (houts _ (he r hr)).2
  refine ⟨fun q => ?_, consumed_retires hi honly⟩
  rw [State.emits_setLath, (retireClass_leaves _).2.1, hemit]
  rfl

theorem State.onLath_eq (hc : s.cur = .lath n) (f : Nat → Except Stop State) : s.onLath f = s.finish (f n) := by
  rw [State.onLath, hc]

/-- An emission to one output port. -/
theorem classOp_emitsBatch {ins : Instr} {o : Nat} {l : List Word} {P : List Word → Prop} (hready : BatchReady s n i [o] b)
    (hexec : exec ins s = .next (s.setLath n (emitAll ((s.lathAt n).consumed i b) [(o, b.thread, l)]).retireClass)) (hP : P l) :
    EmitsBatch ins s n i o b P := by
  obtain ⟨hemit, hretired⟩ := classOp_emits (e := [(o, b.thread, l)]) hready fun r hr => by
    rw [List.mem_singleton] at hr
    rw [hr]
    exact List.mem_singleton_self o
  refine ⟨_, l, hexec, hP, ?_, fun q hq => ?_, hretired⟩
  · rw [hemit o]
    simp
  · rw [hemit q]
    simp [hq]

/-- An operation whose output depends on the payloads alone. -/
theorem mapOp_emits {ins : Instr} {sz : BitVec 4} {im o : BitVec 2} {u : SlotUse} {f : Nat → List Word → List Word} {P : List Word → Prop}
    (hc : s.cur = .lath n) (hexec : exec ins s = s.onLath fun n => mapOp n sz im o u f s) (hready : BatchReady s n im.toNat [o.toNat] b)
    (hcheck : slotCheck u ((s.lathAt n).slotWord sz.toNat) = .ok ())
    (hP : P (f ((s.lathAt n).slotWord sz.toNat) (b.data.map fun t => t.1))) : EmitsBatch ins s n im.toNat o.toNat b P := by
  refine classOp_emitsBatch hready ?_ hP
  rw [hexec, State.onLath_eq hc, mapOp]
  generalize (s.lathAt n).slotWord sz.toNat = w at hcheck ⊢
  exact congrArg s.finish (classOp_one hready hcheck rfl)

/-! ### Routes (R341) -/

theorem maskPorts_nodup (m : BitVec 4) : (maskPorts m).Nodup := List.Nodup.filter _ List.nodup_range

theorem nth_mem {α : Type} {d : α} {l : List α} {k : Nat} (hk : k < l.length) : nth d l k ∈ l := by
  rw [nth, List.getD_eq_getElem _ _ hk]
  exact List.getElem_mem hk

theorem nth_inj {α : Type} {d : α} {l : List α} (h : l.Nodup) {i j : Nat} (hi : i < l.length) (hj : j < l.length) :
    nth d l i = nth d l j ↔ i = j := by
  rw [nth, nth, List.getD_eq_getElem _ _ hi, List.getD_eq_getElem _ _ hj]
  exact h.getElem_inj_iff

/-- The one index of a range that a sum of lists takes. -/
theorem flatMap_range_one {α : Type} {n d : Nat} (hd : d < n) (f : Nat → List α) :
    ((List.range n).flatMap fun k => if d = k then f k else []) = f d := by
  induction n with
  | zero => omega
  | succ n ih =>
    rw [List.range_succ, List.flatMap_append, List.flatMap_singleton]
    by_cases h : d = n
    · subst h
      rw [if_pos rfl, List.flatMap_eq_nil_iff.2 fun k hk => if_neg (List.mem_range.1 hk).ne', List.nil_append]
    · rw [if_neg h, List.append_nil, ih (by omega)]

/-- Of what a route emits, the part of one port of the mask. -/
theorem routeTo_port (w thread : Nat) {ports : List Nat} (h : ports.Nodup) (l : List Word) {d : Nat} (hd : d < ports.length) (g : Nat → List Word → List Word) :
    ((routeTo w ports thread l).flatMap fun r => if nth 0 ports d = r.1 then g r.1 r.2.2 else []) =
      g (nth 0 ports d) (l.filter fun v => keyField w v % ports.length == d) := by
  rw [routeTo, List.flatMap_map, ← flatMap_range_one hd fun k => g (nth 0 ports k) (l.filter fun v => keyField w v % ports.length == k)]
  refine List.flatMap_congr fun k hk => ?_
  dsimp only
  simp only [nth_inj h hd (List.mem_range.1 hk)]

end

/-! ### Operations that read two batches (R340) -/

section
variable {α : Type} (g : Nat × α → List Nat) (k : Nat) (v d : α)

theorem Tab.flatMap_insert_length : ∀ l : Tab α, ((Tab.insert k v l).flatMap g).length = (g (k, v)).length + (l.flatMap g).length
  | [] => by simp [Tab.insert]
  | (k', v') :: t => by
    unfold Tab.insert
    split
    · simp
    · rw [List.flatMap_cons, List.flatMap_cons, List.length_append, List.length_append, Tab.flatMap_insert_length t]
      omega

theorem Tab.flatMap_erase_length (hd : g (k, d) = []) :
    ∀ l : Tab α, (g (k, Tab.get d l k)).length + ((Tab.erase k l).flatMap g).length ≤ (l.flatMap g).length
  | [] => by simp [Tab.get, Tab.erase, hd]
  | (k', v') :: t => by
    unfold Tab.get Tab.erase
    by_cases h : k = k'
    · subst h
      have hsub := (List.Sublist.flatMap (Tab.erase_sublist k t) g).length_le
      rw [if_pos rfl, if_pos rfl, List.flatMap_cons, List.length_append]
      omega
    · have := Tab.flatMap_erase_length hd t
      rw [if_neg h, if_neg h, List.flatMap_cons, List.flatMap_cons, List.length_append, List.length_append]
      omega

end

section
variable {s : State} {n : Nat} {b c : Batch}

/-- What a lath holds in its ports makes no more sources of a port. -/
theorem feeders_setLath_le (s : State) {n j : Nat} {y : Lath} (hslot : y.slot = (s.lathAt n).slot) (hplane : y.plane = (s.lathAt n).plane) :
    ((s.setLath n y).feeders n j).length ≤ (s.feeders n j).length := by
  have hdest : ∀ m o, (s.setLath n y).linkDest m o = s.linkDest m o := fun m o => by
    unfold State.linkDest Lath.portWord
    rw [State.setLath_lathAt]
    split
    · rename_i hm
      rw [hm, hplane]
    · rfl
  unfold State.feeders
  rw [State.setLath_lathAt_same, hslot]
  simp only [hdest]
  show ((Tab.insert n y (Tab.erase n s.laths)).flatMap _).length ≤ _
  rw [Tab.flatMap_insert_length]
  refine Nat.le_trans (Nat.add_le_add_right (Nat.le_of_eq ?_) _) (Tab.flatMap_erase_length _ n {} rfl s.laths)
  dsimp only
  rw [hslot]
  rfl

theorem mergePoint_setLath {j : Nat} (h : s.mergePoint n j = false) {y : Lath} (hslot : y.slot = (s.lathAt n).slot)
    (hplane : y.plane = (s.lathAt n).plane) : (s.setLath n y).mergePoint n j = false := by
  have hle := feeders_setLath_le s (j := j) hslot hplane
  have hword : ((s.setLath n y).lathAt n).portWord j = (s.lathAt n).portWord j := by
    rw [State.setLath_lathAt_same, Lath.portWord, hplane]
    rfl
  unfold State.mergePoint at *
  rw [hword]
  rw [Bool.and_eq_false_iff, decide_eq_false_iff_not] at *
  exact h.imp id fun h => by omega

/-- A merge that reads one batch of each of two ports. -/
theorem classOp_two {i j : Nat} {outs : List Nat} {check : Except Stop Unit} {f : List Batch → State → Except Stop (Emission × State)}
    {e : Emission} (hready : BatchReady s n i outs b) (hready' : BatchReady s n j outs c) (hcheck : check = .ok ()) (hf : f [b, c] s = .ok (e, s)) :
    classOp n [i, j] outs check f s = .ok (s.setLath n (emitAll (((s.lathAt n).consumed i b).consumed j c) e).retireClass) := by
  obtain ⟨hnext, hgood, hmerge, -, houts⟩ := hready
  obtain ⟨hnext', hgood', hmerge', -, -⟩ := hready'
  have htake : takeAll n s [i, j] = .ok (some [b, c]) := by
    rw [takeAll, hnext]
    dsimp only
    rw [chosen_eq hmerge, takeAll, hnext']
    dsimp only
    rw [chosen_eq hmerge']
    rfl
  have hroom : outs.all (s.lathAt n).roomAt = true := List.all_eq_true.2 fun o ho => (houts o ho).1
  have hbad : ([b, c].any fun b => b.bad) = false := by rw [List.any_cons, List.any_cons, hgood, hgood']; rfl
  have hfirst : s.consume n i b = s.setLath n ((s.lathAt n).consumed i b) := rfl
  unfold classOp
  rw [htake]
  dsimp only
  rw [hroom, hcheck, hbad, hf]
  show Except.ok (((State.chosen ((s.chosen n i b).consume n i b) n j c).consume n j c).modLath n _) = _
  rw [chosen_eq hmerge, hfirst, chosen_eq (mergePoint_setLath hmerge' (y := (s.lathAt n).consumed i b) rfl rfl), State.consume_modLath,
    State.setLath_lathAt_same, State.setLath_setLath]

/-- What a merge leaves. -/
theorem merge_leaves {i j o : Nat} {l : List Word} (ho : o < (s.lathAt n).outp.length) :
    let t := s.setLath n (emitAll (((s.lathAt n).consumed i b).consumed j c) [(o, b.thread, l)]).retireClass
    t.emits n o = s.emits n o ++ s.batchAt n o l ∧ (t.lathAt n).pc = (s.lathAt n).nextPc ∧ SameMem s t ∧ OnlyLath s t n := by
  obtain ⟨honly, -, hemit⟩ := emitAll_emits [(o, b.thread, l)] (((s.lathAt n).consumed i b).consumed j c) fun r hr => by
    rw [List.mem_singleton.1 hr]
    exact ho
  refine ⟨?_, ?_, fun _ => rfl, s.setLath_onlyLath n _⟩
  · rw [State.emits_setLath, (retireClass_leaves _).2.1, hemit, List.flatMap_singleton, if_pos rfl]
    rfl
  · rw [State.setLath_lathAt_same, (retireClass_leaves _).1, honly]
    rfl

/-! ### Gather (R339) -/

theorem gathFrom_emits {w i o : Nat} {v : View} {l : List Word} (hview : gathView n w s = .ok v)
    (htokens : gathTokens n w v b.data { src := b.src, thread := b.thread } s = .ok (some l, s)) :
    gathFrom n w i o b { src := b.src, thread := b.thread } s =
      .ok (s.setLath n (emitAll ((s.lathAt n).consumed i b) [(o, b.thread, l)]).retireClass) := by
  unfold gathFrom
  rw [hview]
  show (gathTokens n w v (b.data.drop 0) _ s >>= _) = _
  rw [List.drop_zero, htokens]
  show Except.ok ((s.consume n i b).modLath n fun x => (x.emitBatch o b.thread l).retireClass) = _
  rw [State.consume_modLath]
  rfl

theorem lgath_emits {sz : BitVec 4} {im o : BitVec 2} {v : View} {l : List Word} (hc : s.cur = .lath n)
    (hready : BatchReady s n im.toNat [o.toNat] b) (hcheck : slotCheck { formats := [0, 3] } ((s.lathAt n).slotWord sz.toNat) = .ok ())
    (hwide : (sKfmt ((s.lathAt n).slotWord sz.toNat) == 0 && sEw ((s.lathAt n).slotWord sz.toNat) == 64) = false) (hhop : (s.lathAt n).hop = none)
    (hview : gathView n ((s.lathAt n).slotWord sz.toNat) s = .ok v)
    (htokens : gathTokens n ((s.lathAt n).slotWord sz.toNat) v b.data { src := b.src, thread := b.thread } s = .ok (some l, s)) :
    EmitsBatch (.lgath sz im o) s n im.toNat o.toNat b (· = l) := by
  refine classOp_emitsBatch hready ?_ rfl
  obtain ⟨hnext, hgood, hmerge, -, houts⟩ := hready
  obtain ⟨hroom, -⟩ := houts o.toNat (List.mem_singleton_self _)
  show s.onLath _ = _
  rw [State.onLath_eq hc]
  dsimp only
  rw [hhop, hnext]
  dsimp only
  rw [hroom, hcheck, hwide, hgood, chosen_eq hmerge, gathFrom_emits hview htokens]
  rfl

end

/-! ### The obligation -/

theorem lscan_sums {s : State} {n : Nat} {sz : BitVec 4} {im o : BitVec 2} {b : Batch} (hc : s.cur = .lath n)
    (hready : BatchReady s n im.toNat [o.toNat] b) (hcheck : slotCheck {} ((s.lathAt n).slotWord sz.toNat) = .ok ()) :
    let w := (s.lathAt n).slotWord sz.toNat
    let data := b.data.map fun t => t.1
    EmitsBatch (.lscan sz im o 0) s n im.toNat o.toNat b
      (fun l => l = (List.range data.length).map fun k => withKey w (nth 0 data k) (scanFrom w none data k)) ∧
    EmitsBatch (.lscan sz im o 1) s n im.toNat o.toNat b
      (fun l => l = (List.range data.length).map fun k => withKey w (nth 0 data k) (if k = 0 then 0 else scanFrom w none data (k - 1))) := by
  refine ⟨mapOp_emits (f := fun w l => scanKeys w false none l) hc rfl hready hcheck ?_,
    mapOp_emits (f := fun w l => scanKeys w true none l) hc rfl hready hcheck ?_⟩
  · exact scanKeys_eq _ _ _ _
  · exact scanKeys_eq _ _ _ _

theorem lroute_emits {s : State} {n : Nat} {sz m : BitVec 4} {im : BitVec 2} {b : Batch} (hc : s.cur = .lath n)
    (hready : BatchReady s n im.toNat (maskPorts m) b) (hm : m ≠ 0)
    (hcheck : slotCheck { formats := [0, 3] } ((s.lathAt n).slotWord sz.toNat) = .ok ()) :
    ∃ t, exec (.lroute sz im m) s = .next t ∧ (∀ d, d < (maskPorts m).length → t.emits n (nth 0 (maskPorts m) d) =
      s.emits n (nth 0 (maskPorts m) d) ++ s.batchAt n (nth 0 (maskPorts m) d)
        ((b.data.map fun t => t.1).filter fun v => keyField ((s.lathAt n).slotWord sz.toNat) v % (maskPorts m).length == d)) ∧
      LathRetired s t n im.toNat b := by
  generalize hw : (s.lathAt n).slotWord sz.toNat = w at hcheck ⊢
  have hcore := classOp_one (f := fun bs s => .ok (bs.flatMap fun b => routeTo w (maskPorts m) b.thread (b.data.map fun t => t.1), s)) hready hcheck rfl
  rw [List.flatMap_singleton] at hcore
  obtain ⟨hemit, hretired⟩ := classOp_emits hready (e := routeTo w (maskPorts m) b.thread (b.data.map fun t => t.1)) fun r hr => by
    obtain ⟨d, hd, rfl⟩ := List.mem_map.1 hr
    exact nth_mem (List.mem_range.1 hd)
  have hexec : exec (.lroute sz im m) s = s.finish (classOp n [im.toNat] (maskPorts m) (slotCheck { formats := [0, 3] } w)
      (fun bs s => .ok (bs.flatMap fun b => routeTo w (maskPorts m) b.thread (b.data.map fun t => t.1), s)) s) := by
    rw [← hw]
    show s.onLath _ = _
    rw [State.onLath_eq hc, bne_iff_ne.2 hm]
    rfl
  rw [hcore] at hexec
  refine ⟨_, hexec, fun d hd => ?_, hretired⟩
  rw [hemit, ← routeTo_port w b.thread (maskPorts_nodup m) _ hd fun q l => s.batchAt n q l]
  refine congrArg (s.emits n _ ++ ·) (List.flatMap_congr fun r _ => ?_)
  split
  · rename_i h
    rw [h]
  · rfl

/-- The state that a merge leaves. -/
theorem lmerge_merges {s : State} {n : Nat} {sz : BitVec 4} {im o j : BitVec 2} {b c : Batch} (hc : s.cur = .lath n)
    (hready : BatchReady s n im.toNat [o.toNat] b) (hready' : BatchReady s n j.toNat [o.toNat] c) (hne : im ≠ j)
    (hcheck : slotCheck { compare := true } ((s.lathAt n).slotWord sz.toNat) = .ok ()) (hlen : b.data.length + c.data.length ≤ 192) :
    exec (.lmerge sz im o j) s = .next (s.setLath n (emitAll (((s.lathAt n).consumed im.toNat b).consumed j.toNat c)
      [(o.toNat, b.thread, mergeKeys (keyBefore ((s.lathAt n).slotWord sz.toNat)) (b.data.length + c.data.length) (b.data.map fun t => t.1)
        (c.data.map fun t => t.1))]).retireClass) := by
  generalize hw : (s.lathAt n).slotWord sz.toNat = w at hcheck ⊢
  have hexec : exec (.lmerge sz im o j) s = s.finish (classOp n [im.toNat, j.toNat] [o.toNat] (slotCheck { compare := true } w)
      (fun bs s => match bs with
        | [a, b] =>
          if a.data.length + b.data.length > 192 then withTag a.header.2 (.error (trapC 0x38))
          else .ok ([(o.toNat, a.thread, mergeKeys (keyBefore w) (a.data.length + b.data.length) (a.data.map fun t => t.1) (b.data.map fun t => t.1))], s)
        | _ => .error .place) s) := by
    rw [← hw]
    show s.onLath _ = _
    rw [State.onLath_eq hc, bne_iff_ne.2 hne]
    rfl
  rw [hexec]
  exact congrArg s.finish (classOp_two hready hready' hcheck (if_neg (by omega)))

/-- Settles O39: each operation by the function that it maps over its batch, and that function's own laws. -/
theorem lathOps : Obligations.LathOps := by
  unfold Obligations.LathOps
  intro s n sz m im o j b c hc
  dsimp only
  refine ⟨fun hready => ⟨fun hcheck => ⟨?_, ?_⟩, fun hcheck => ?_, fun hcheck => ⟨?_, ?_⟩, fun hcheck => ?_, fun hcheck hwide hhop v l hview htokens => ?_⟩,
    fun hready hm hcheck => ?_, fun hready hready' hne hcheck hlen => ?_⟩
  · refine mapOp_emits (f := fun w l => sortKeys (keyBefore w) l) hc rfl hready hcheck ?_
    exact ⟨sortKeys_perm (keyBefore_eq _) _, sortKeys_pairwise (keyBefore_eq _) _, fun v => sortKeys_filter (keyBefore_eq _) _ fun x y hx hy =>
      sortRank_of_key ((of_decide_eq_true hx).trans (of_decide_eq_true hy).symm)⟩
  · refine mapOp_emits (f := fun w l => dedupKeys w [] l) hc rfl hready hcheck ?_
    exact dedupKeys_eq _ _ []
  · refine mapOp_emits (f := fun w l => (sortKeys (topBefore w) l).take (sTopk w)) hc rfl hready hcheck ?_
    exact ⟨_, sortKeys_perm (topBefore_eq _) _, sortKeys_pairwise (topBefore_eq _) _, fun v => sortKeys_filter (topBefore_eq _) _ fun x y hx hy =>
      congrArg Neg.neg (sortRank_of_key ((of_decide_eq_true hx).trans (of_decide_eq_true hy).symm)), rfl⟩
  · exact mapOp_emits (f := fun w l => l.filter fun v => !keyIsZero w v) hc rfl hready hcheck rfl
  · refine ⟨scanFrom ((s.lathAt n).slotWord sz.toNat) none (b.data.map fun t => t.1), fun hfmt k => ?_, fun hfmt => ⟨?_, fun k => ?_⟩, lscan_sums hc hready hcheck⟩
    · exact scanFrom_sum hfmt _ k
    · rw [scanFrom, if_pos hfmt]
    · rw [scanFrom]
      simp only [scanAdd, hfmt]
  · refine mapOp_emits (f := histKeys) hc rfl hready hcheck ?_
    exact histKeys_eq _ _
  · exact lgath_emits hc hready hcheck hwide hhop hview htokens
  · obtain ⟨t, hexec, hemits, hretired⟩ := lroute_emits hc hready hm hcheck
    exact ⟨t, hexec, hretired, hemits⟩
  · have hmerges := mergeKeys_merges ((s.lathAt n).slotWord sz.toNat) (b.data.length + c.data.length) (b.data.map fun t => t.1) (c.data.map fun t => t.1)
      (by rw [List.length_map, List.length_map])
    obtain ⟨-, -, -, -, houts⟩ := id hready
    obtain ⟨-, hport⟩ := houts o.toNat (List.mem_singleton_self _)
    exact ⟨_, _, lmerge_merges hc hready hready' hne hcheck hlen, hmerges, hmerges.perm, hmerges.pairwise,
      merge_leaves hport⟩

end Sys2Proof.Machine
end

section
/-! Laths between their operations (R330, R331, R336, R345 to R347): ports, checkpoints, recovery and links. -/

namespace Sys2Proof.Machine

/-! ### What an input port holds of a source (R331) -/

section
variable {p : InPort} {k : Nat} {f : Source → Source}

theorem find?_src {l : List Source} {x : Source} (h : l.find? (fun x => x.src = k) = some x) : x.src = k := by
  simpa using List.find?_some h

/-- A change of a source that keeps its name. -/
theorem InPort.modSource_source (hf : ∀ x, (f x).src = x.src) (p : InPort) (k : Nat) : (p.modSource k f).source k = f (p.source k) := by
  unfold InPort.modSource InPort.source
  by_cases h : (p.sources.any fun x => x.src = k) = true
  · rw [if_pos h]
    have hmap : (p.sources.map fun x => if x.src = k then f x else x).find? (fun x => x.src = k) =
        (p.sources.find? fun x => x.src = k).map fun x => f x := by
      rw [List.find?_map]
      have hsame : ((fun x : Source => decide (x.src = k)) ∘ fun x => if x.src = k then f x else x) = fun x => decide (x.src = k) := by
        funext x
        dsimp only [Function.comp]
        refine decide_eq_decide.2 ?_
        by_cases hx : x.src = k
        · rw [if_pos hx, hf]
        · rw [if_neg hx]
      rw [hsame]
      cases hfind : p.sources.find? fun x => x.src = k with
      | none => rfl
      | some x =>
        rw [Option.map_some, Option.map_some, if_pos (find?_src hfind)]
    dsimp only
    rw [hmap]
    obtain ⟨x, hx⟩ : ∃ x, p.sources.find? (fun x => x.src = k) = some x := Option.isSome_iff_exists.1 (by
      rw [List.find?_isSome]
      simpa using h)
    rw [hx]
    rfl
  · have hnone : p.sources.find? (fun x => x.src = k) = none := List.find?_eq_none.2 (by simpa using h)
    have hnew : (decide ((f { src := k }).src = k)) = true := decide_eq_true (hf _)
    rw [if_neg h]
    dsimp only
    rw [List.find?_append, hnone, List.find?_cons, hnew]
    rfl

end

section
variable {s : State} {n i k : Nat} {f : Source → Source}

theorem modSource_lathAt (s : State) (n i k : Nat) (f : Source → Source) :
    (s.modSource n i k f).lathAt n = (s.lathAt n).setIn i (((s.lathAt n).inPort i).modSource k f) := State.setLath_lathAt_same _ _ _

theorem modSource_onlyLath (s : State) (n i k : Nat) (f : Source → Source) : OnlyLath s (s.modSource n i k f) n := s.setLath_onlyLath n _

theorem modSource_source (hf : ∀ x, (f x).src = x.src) (hi : i < (s.lathAt n).inp.length) :
    (((s.modSource n i k f).lathAt n).inPort i).source k = f (((s.lathAt n).inPort i).source k) ∧
      ((s.modSource n i k f).lathAt n).inp.length = (s.lathAt n).inp.length := by
  rw [modSource_lathAt, Lath.setIn_inPort hi, if_pos rfl]
  exact ⟨InPort.modSource_source hf _ _, List.length_set⟩

theorem modSource_outPort (s : State) (n i k : Nat) (f : Source → Source) (m o : Nat) :
    ((s.modSource n i k f).lathAt m).outPort o = (s.lathAt m).outPort o := by
  by_cases hm : m = n
  · rw [hm, modSource_lathAt]
    rfl
  · rw [(modSource_onlyLath s n i k f).2 m hm]

end

/-! ### Words of the lath itself (R336, R345, R346) -/

/-- The store of a port after a checkpoint. -/
theorem checkpoint_store (x : Lath) (pc : BitVec 12) : ∀ p ∈ (x.checkpoint pc).inp, ∀ y ∈ p.store, y.used = false := by
  intro p hp y hy
  obtain ⟨q, -, rfl⟩ := List.mem_map.1 hp
  simpa using List.of_mem_filter hy

section
variable {s : State} {n : Nat} (hc : s.cur = .lath n)
include hc

theorem modLath_next {i : Instr} {f : Lath → Lath} {core : Nat → Except Stop State} (hi : exec i s = s.onLath core)
    (hcore : core n = .ok (s.modLath n f)) : ∃ t, exec i s = .next t ∧ t.lathAt n = f (s.lathAt n) ∧ SameMem s t ∧ OnlyLath s t n :=
  ⟨_, hi.trans ((State.onLath_eq hc _).trans (congrArg s.finish hcore)), State.setLath_lathAt_same _ _ _, fun _ => rfl, s.setLath_onlyLath n _⟩

theorem lswap_flips (hloaded : (s.lathAt n).shv = true) (hempty : ∀ p ∈ (s.lathAt n).outp, p.emit = []) :
    ∃ t, exec .lswap s = .next t ∧ t.lathAt n = (s.lathAt n).flip.checkpoint 0 ∧ SameMem s t ∧ OnlyLath s t n := by
  have hdrained : (s.lathAt n).drained = true := by
    rw [Lath.drained, hloaded, Bool.true_and, List.all_eq_true]
    intro p hp
    rw [hempty p hp]
    rfl
  refine modLath_next hc (i := .lswap) (f := fun x => x.flip.checkpoint 0) (core := fun k => do guardE (s.lathAt k).drained .wait; return s.modLath k fun x => x.flip.checkpoint 0) rfl ?_
  rw [hdrained]
  rfl

theorem lswap_waits (h : (s.lathAt n).shv = false ∨ ∃ p ∈ (s.lathAt n).outp, p.emit ≠ []) : exec .lswap s = .next s := by
  have hdrained : (s.lathAt n).drained = false := by
    rw [Lath.drained, Bool.and_eq_false_iff]
    refine h.imp id ?_
    rintro ⟨p, hp, hemit⟩
    rw [List.all_eq_false]
    exact ⟨p, hp, by simpa using hemit⟩
  show s.onLath (fun k => do guardE (s.lathAt k).drained .wait; return s.modLath k fun x => x.flip.checkpoint 0) = _
  rw [State.onLath_eq hc, hdrained]
  show Host.Outcome.next (s.setHold false) = _
  rw [State.setHold, hc]

end

/-! ### What a failed check reports (R330) -/

/-- The state after a token's cause has gone to the job's sequencer or the Foreman. -/
def State.reported (s : State) (n : Nat) (cause : Option Nat) (tok : Token) : State :=
  match cause with
  | none => s
  | some c => s.lathCause n c (word tok.2.toNat)

section
variable {s u v : State} {n : Nat} {cause : Option Nat} {tok : Token}

/-- A report goes to one bay's pending faults or to the Foreman's log. -/
theorem lathCause_cases (s : State) (n c : Nat) (aux : Word) :
    (∃ j b l, (s.lathAt n).slot = some j ∧ (s.job j).bays = b :: l ∧ (s.bay b).live = true ∧ (s.bay b).slot = some j ∧
      s.lathCause n c aux = s.modBay b fun y => y.addPend ⟨s.clock, 5, { cause := BitVec.ofNat 8 c, eng := 5, unit := BitVec.ofNat 8 n, aux := aux }⟩) ∨
    ((∀ j b l, (s.lathAt n).slot = some j → (s.job j).bays = b :: l → (s.bay b).live = true → (s.bay b).slot ≠ some j) ∧
      ∃ m, s.lathCause n c aux = s.fmOther m) := by
  unfold State.lathCause
  split
  · rename_i j hj
    obtain ⟨b, l, hb, hlive, hslot, h⟩ | ⟨hno, h⟩ := s.lathPend_cases j { cause := BitVec.ofNat 8 c, eng := 5, unit := BitVec.ofNat 8 n, aux := aux }
    · exact .inl ⟨j, b, l, hj, hb, hlive, hslot, h⟩
    · refine .inr ⟨fun k b l hk => ?_, _, h⟩
      obtain rfl := Option.some.inj (hj.symm.trans hk)
      exact hno b l
  · rename_i hj
    exact .inr ⟨fun k b l hk => absurd (hj.symm.trans hk) (by simp), n, rfl⟩

theorem fmOther_rest (s : State) (m : Nat) : ∃ i m' f x, s.fmOther m = { s with tick := i, mem := m', foreman := f, pfmsix := x } := by
  obtain ⟨i, m', f, x, h⟩ := s.fresh.2.fmEvent_rest (s.fresh.1.toNat % 256) m
  exact ⟨i, m', f, x, h⟩

theorem fmOther_logged (s : State) (m : Nat) : FmLogged s (s.fmOther m) := fmEvent_logged s.fresh.2 _ _

theorem reported_laths (s : State) (n : Nat) (cause : Option Nat) (tok : Token) : (s.reported n cause tok).laths = s.laths := by
  cases cause with
  | none => rfl
  | some c =>
    obtain ⟨_, b, _, _, _, _, _, h⟩ | ⟨-, m, h⟩ := lathCause_cases s n c (word tok.2.toNat)
    · rw [State.reported, h, State.modBay_laths]
    · rw [State.reported, h, State.fmOther_laths]

theorem reported_chan (s : State) (n : Nat) (cause : Option Nat) (tok : Token) (b : Nat) : ((s.reported n cause tok).bay b).chan = (s.bay b).chan := by
  cases cause with
  | none => rfl
  | some c =>
    obtain ⟨_, d, _, _, _, _, _, h⟩ | ⟨-, m, h⟩ := lathCause_cases s n c (word tok.2.toNat)
    · rw [State.reported, h, State.modBay_bay]
      split
      · rename_i hb
        rw [hb]
        rfl
      · rfl
    · obtain ⟨i, m', f, x, hrest⟩ := fmOther_rest s m
      rw [State.reported, h, hrest]
      rfl

/-- A token's report, where the token was taken before it (`u`) and its credit given after it (`v`). -/
theorem reported_told (hu : u = { s with bays := u.bays, laths := u.laths })
    (hbays : ∀ b, (u.bay b).live = (s.bay b).live ∧ (u.bay b).slot = (s.bay b).slot) (hslot : (u.lathAt n).slot = (s.lathAt n).slot)
    (hv : v = { u.reported n cause tok with bays := v.bays, laths := v.laths }) (hpend : ∀ b, (v.bay b).pend = ((u.reported n cause tok).bay b).pend) :
    TokenReported s v n cause tok := by
  have hjob : ∀ j, u.job j = s.job j := fun j => by rw [hu]; rfl
  cases cause with
  | none =>
    show v = { s with bays := v.bays, laths := v.laths }
    rw [State.reported] at hv
    rw [hv, hu]
  | some c =>
    rw [State.reported] at hv hpend
    obtain ⟨j, b, l, hj, hb, hlive, hbslot, h⟩ | ⟨hno, m, h⟩ := lathCause_cases u n c (word tok.2.toNat)
    · rw [h] at hv hpend
      refine ⟨fun j' b' r hj' hb' _ _ => ⟨?_, ?_⟩, fun hnone => ?_⟩
      · obtain rfl := Option.some.inj ((hslot.trans hj').symm.trans hj)
        rw [← hjob, hb] at hb'
        obtain ⟨rfl, rfl⟩ := List.cons.inj hb'
        refine ⟨⟨u.clock, 5, { cause := BitVec.ofNat 8 c, eng := 5, unit := BitVec.ofNat 8 n, aux := word tok.2.toNat }⟩, ?_, rfl, rfl⟩
        rw [hpend, State.modBay_bay_same]
        exact Bay.mem_addPend _ _
      · rw [hv, hu]
        rfl
      · rw [← hslot, hj] at hnone
        cases hnone
    · rw [h] at hv hpend
      refine ⟨fun j b r hj hb hlive hbslot => ?_, fun _ => ?_⟩
      · exact absurd ((hbays b).2.trans hbslot) (hno j b r (hslot.trans hj) ((congrArg Job.bays (hjob j)).trans hb) ((hbays b).1.trans hlive))
      · obtain ⟨hring, hcount⟩ := fmOther_logged u m
        rw [hu] at hring hcount
        rw [hv]
        rw [hu]
        exact ⟨hring, hcount⟩

end
end Sys2Proof.Machine
end

section
/-! Tokens that reach a lath, and what a lath does beside its program (R330, R331, R346, R347). -/

namespace Sys2Proof.Machine

/-! ### A token at its port (R330) -/

section
variable {s : State} {n i k : Nat} {t : Token} {drop sync : State → State}

theorem lathToken_store (h : (s.lathAt n).tokenCase i k t = .store) : lathToken n i k t drop sync s = s.modLath n fun x => x.storeToken i k t := by
  rw [lathToken, h]

theorem lathToken_bad {cause : Option Nat} {r : Bool} (h : ((s.lathAt n).tokenCase i k t).bad = some (cause, r)) :
    lathToken n i k t drop sync s = if r then sync (drop (s.reported n cause t)) else drop (s.reported n cause t) := by
  unfold lathToken
  cases hcase : (s.lathAt n).tokenCase i k t with
  | drop c =>
    rw [hcase] at h
    obtain ⟨rfl, rfl⟩ := Prod.mk.inj (Option.some.inj h)
    cases c <;> rfl
  | gap =>
    rw [hcase] at h
    obtain ⟨rfl, rfl⟩ := Prod.mk.inj (Option.some.inj h)
    rfl
  | store =>
    rw [hcase] at h
    cases h

/-- What the port holds of the source once the token is stored. -/
def Source.stores (y : Source) (t : Token) : Source :=
  { y with expect := Tab.put y.expect (tagThread t.2) (BitVec.ofNat 16 (tagSeq t.2 + 1)), buf := y.buf ++ [t] }

theorem storeToken_source {x : Lath} (hi : i < x.inp.length) :
    ((x.storeToken i k t).inPort i).source k = ((x.inPort i).source k).stores t := by
  unfold Lath.storeToken
  dsimp only
  split
  · rw [Lath.setIn_inPort hi, if_pos rfl]
    exact InPort.modSource_source (f := fun y => y.stores t) (fun _ => rfl) _ _
  · rw [Lath.setIn_inPort (x := { x with threads := x.threads ++ [tagThread t.2] }) hi, if_pos rfl]
    exact InPort.modSource_source (f := fun y => y.stores t) (fun _ => rfl) _ _

theorem storeToken_outPort (x : Lath) (o : Nat) : (x.storeToken i k t).outPort o = x.outPort o := by
  unfold Lath.storeToken
  dsimp only
  split <;> rfl

end

/-! ### Over a channel -/

section
variable {s : State} {n i b ch : Nat} {tok : Token} {l : List Token} (haway : s.lathAway n = false) (hb : b < 64) (hch : ch < 64)
  (hwire : ((s.bay b).ep ch).wire = tok :: l) (hdir : ((s.bay b).ep ch).dir = false) (hpeer : ((s.bay b).ep ch).peer.toNat = n)
  (hport : (s.lathAt n).channelPort false (s.bay b).index ch = some i)

/-- The token has left the channel. -/
def State.offChannel (s : State) (b ch : Nat) (l : List Token) : State := s.modEp b ch fun e => { e with wire := l }

include haway hb hch hwire hdir hpeer hport in
theorem lathArrival_channel : lathArrival n i (b * 64 + ch) s =
    lathToken n i ch tok (dropElement b ch) (startResync b ch) (s.offChannel b ch l) := by
  have hbay : (b * 64 + ch) / 64 = b := by omega
  have hchan : (b * 64 + ch) % 64 = ch := by omega
  unfold lathArrival
  rw [haway, if_neg (by decide), if_pos (by omega), hbay, hchan]
  dsimp only
  rw [hwire]
  dsimp only
  rw [hdir, hport, if_neg (by simp [hpeer])]
  rfl

theorem modEp_bays (s : State) (b ch : Nat) (f : Endpoint → Endpoint) (c : Nat) :
    ((s.modEp b ch f).bay c).live = (s.bay c).live ∧ ((s.modEp b ch f).bay c).slot = (s.bay c).slot ∧
      ((s.modEp b ch f).bay c).pend = (s.bay c).pend := by
  rw [State.modEp, State.modBay_bay]
  split
  · rename_i h
    rw [h]
    exact ⟨rfl, rfl, rfl⟩
  · exact ⟨rfl, rfl, rfl⟩

/-- The endpoint after a token that was not stored. -/
def Endpoint.refuses (e : Endpoint) (l : List Token) (r : Bool) : Endpoint :=
  { e.giveCredit with wire := l, consumed := e.giveCredit.consumed + 1, resync := e.giveCredit.resync || r }

/-- The steps of it: the credit, and the start of a resync. -/
def Endpoint.drops (e : Endpoint) : Endpoint := { e.giveCredit with consumed := e.consumed + 1 }
def Endpoint.resyncs (e : Endpoint) : Endpoint := { e with resync := true }

theorem Endpoint.refuses_none (e : Endpoint) (l : List Token) : ({ e with wire := l } : Endpoint).drops = e.refuses l false := by
  unfold Endpoint.refuses Endpoint.drops Endpoint.giveCredit
  dsimp only
  split <;> simp only [Bool.or_false]

theorem Endpoint.refuses_resync (e : Endpoint) (l : List Token) : ({ e with wire := l } : Endpoint).drops.resyncs = e.refuses l true := by
  rw [Endpoint.refuses_none]
  unfold Endpoint.refuses Endpoint.resyncs
  simp only [Bool.or_true]

theorem channelBad_leaves {cause : Option Nat} {r : Bool} (hbad : ((s.lathAt n).tokenCase i ch tok).bad = some (cause, r)) :
    let t := lathToken n i ch tok (dropElement b ch) (startResync b ch) (s.offChannel b ch l)
    t.lathAt n = s.lathAt n ∧ TokenReported s t n cause tok ∧ (t.bay b).ep ch = ((s.bay b).ep ch).refuses l r := by
  have hep : (((s.offChannel b ch l).reported n cause tok).bay b).ep ch = { (s.bay b).ep ch with wire := l } := by
    rw [Bay.ep, reported_chan]
    exact State.modEp_ep_same _ _ _ _
  have hlaths : ((s.offChannel b ch l).reported n cause tok).laths = s.laths := reported_laths _ _ _ _
  have htaken : ∀ c, ((s.offChannel b ch l).bay c).live = (s.bay c).live ∧ ((s.offChannel b ch l).bay c).slot = (s.bay c).slot := fun c => by
    obtain ⟨hlive, hslot, -⟩ := modEp_bays s b ch (fun e => { e with wire := l }) c
    exact ⟨hlive, hslot⟩
  have hall (v : State) (f : Endpoint → Endpoint) (hv : v = ((s.offChannel b ch l).reported n cause tok).modEp b ch f) :
      v.lathAt n = s.lathAt n ∧ TokenReported s v n cause tok ∧ (v.bay b).ep ch = f { (s.bay b).ep ch with wire := l } := by
    subst hv
    refine ⟨congrArg (Tab.get ({} : Lath) · n) hlaths, reported_told (u := s.offChannel b ch l) rfl htaken rfl rfl fun c => ?_, ?_⟩
    · obtain ⟨-, -, hpend⟩ := modEp_bays ((s.offChannel b ch l).reported n cause tok) b ch f c
      exact hpend
    · rw [State.modEp_ep_same, hep]
  dsimp only
  rw [lathToken_bad (s := s.offChannel b ch l) hbad]
  cases r with
  | false =>
    obtain ⟨hlath, htold, hend⟩ := hall _ Endpoint.drops rfl
    exact ⟨hlath, htold, hend.trans (Endpoint.refuses_none _ _)⟩
  | true =>
    have htwo : startResync b ch (dropElement b ch ((s.offChannel b ch l).reported n cause tok)) =
        ((s.offChannel b ch l).reported n cause tok).modEp b ch fun e => e.drops.resyncs := State.modEp_modEp _ b ch Endpoint.drops Endpoint.resyncs
    obtain ⟨hlath, htold, hend⟩ := hall _ (fun e => e.drops.resyncs) htwo
    exact ⟨hlath, htold, hend.trans (Endpoint.refuses_resync _ _)⟩

end

/-! ### Over a link -/

section
variable {s : State} {n i m o : Nat} {tok : Token} {l : List Token}

/-- The token has left the link. -/
def State.offLink (s : State) (m o : Nat) (l : List Token) : State :=
  s.modLath m fun x => x.setOut o { (s.lathAt m).outPort o with wire := l }

theorem lathArrival_link (haway : s.lathAway n = false) (ho : o < 4) (hwire : ((s.lathAt m).outPort o).wire = tok :: l)
    (hdest : s.linkDest m o = some (n, i)) : lathArrival n i (4096 + 4 * m + o) s =
      lathToken n i (linkKey m o) tok (fun s => s.modSource n i (linkKey m o) fun x => { x.giveCredit with consumed := x.consumed + 1 })
        (fun s => s.modSource n i (linkKey m o) fun x => { x with resync := true }) (s.offLink m o l) := by
  have hlath : (4096 + 4 * m + o - 4096) / 4 = m := by omega
  have hout : (4096 + 4 * m + o - 4096) % 4 = o := by omega
  unfold lathArrival
  rw [haway, if_neg (by decide), if_neg (by omega), hlath, hout]
  dsimp only
  rw [hwire]
  dsimp only
  rw [if_neg (by simp [hdest])]
  rfl

/-- What else a lath is, beside what stands at its output port. -/
theorem offLink_lathAt (s : State) (m o : Nat) (l : List Token) (n : Nat) :
    ∃ q, (s.offLink m o l).lathAt n = { s.lathAt n with outp := q } := by
  unfold State.offLink State.modLath
  rw [State.setLath_lathAt]
  split
  · rename_i h
    rw [h]
    exact ⟨_, rfl⟩
  · exact ⟨(s.lathAt n).outp, rfl⟩

theorem offLink_wire (ho : o < (s.lathAt m).outp.length) (l : List Token) : ((s.offLink m o l).lathAt m).outPort o = { (s.lathAt m).outPort o with wire := l } := by
  unfold State.offLink State.modLath
  rw [State.setLath_lathAt_same, Lath.setOut_outPort ho, if_pos rfl]

theorem offLink_others (s : State) (m o : Nat) (l : List Token) {c : Nat} (hc : c ≠ m) : (s.offLink m o l).lathAt c = s.lathAt c := by
  unfold State.offLink State.modLath
  rw [State.setLath_lathAt, if_neg hc]

/-- What a receiver keeps of a source after a token that was not stored. -/
def Source.drops (y : Source) : Source := { y.giveCredit with consumed := y.consumed + 1 }
def Source.resyncs (y : Source) : Source := { y with resync := true }
def Source.refuses (y : Source) (r : Bool) : Source := { y.giveCredit with consumed := y.giveCredit.consumed + 1, resync := y.giveCredit.resync || r }

theorem Source.drops_src (y : Source) : y.drops.src = y.src := by
  unfold Source.drops Source.giveCredit
  split <;> rfl

theorem Source.drops_eq (y : Source) : y.drops = y.refuses false := by
  unfold Source.refuses Source.drops Source.giveCredit
  split <;> simp only [Bool.or_false]

theorem Source.resyncs_drops (y : Source) : y.drops.resyncs = y.refuses true := by
  rw [Source.drops_eq]
  unfold Source.refuses Source.resyncs
  simp only [Bool.or_true]

/-- The link has given up its token, and no lath but its two ends has changed. -/
def LinkGone (s t : State) (n m o : Nat) (l : List Token) : Prop :=
  ((t.lathAt m).outPort o).wire = l ∧ ∀ c, c ≠ n → c ≠ m → t.lathAt c = s.lathAt c

theorem linkBad_leaves {cause : Option Nat} {r : Bool} (ho : o < (s.lathAt m).outp.length) (hi : i < (s.lathAt n).inp.length)
    (hbad : ((s.lathAt n).tokenCase i (linkKey m o) tok).bad = some (cause, r)) :
    let t := lathToken n i (linkKey m o) tok (fun s => s.modSource n i (linkKey m o) fun x => { x.giveCredit with consumed := x.consumed + 1 })
      (fun s => s.modSource n i (linkKey m o) fun x => { x with resync := true }) (s.offLink m o l)
    LinkGone s t n m o l ∧ TokenReported s t n cause tok ∧
      ((t.lathAt n).inPort i).source (linkKey m o) = (((s.lathAt n).inPort i).source (linkKey m o)).refuses r := by
  obtain ⟨q, hq⟩ := offLink_lathAt s m o l n
  have hlaths : ∀ c, ((s.offLink m o l).reported n cause tok).lathAt c = (s.offLink m o l).lathAt c :=
    fun c => congrArg (Tab.get ({} : Lath) · c) (reported_laths _ _ _ _)
  have hinp : i < (((s.offLink m o l).reported n cause tok).lathAt n).inp.length := by
    rw [hlaths, hq]
    exact hi
  have hsource : ((((s.offLink m o l).reported n cause tok).lathAt n).inPort i).source (linkKey m o) =
      ((s.lathAt n).inPort i).source (linkKey m o) := by
    rw [hlaths, hq]
    rfl
  have hgone {v : State} (hv : OnlyLath ((s.offLink m o l).reported n cause tok) v n)
      (hout : ∀ c d, (v.lathAt c).outPort d = (((s.offLink m o l).reported n cause tok).lathAt c).outPort d) : LinkGone s v n m o l := by
    refine ⟨?_, fun c hn hm => (hv.2 c hn).trans ((hlaths c).trans (offLink_others s m o l hm))⟩
    rw [hout, hlaths, offLink_wire ho]
  have htold {v : State} (hv : v = { (s.offLink m o l).reported n cause tok with laths := v.laths }) : TokenReported s v n cause tok := by
    refine reported_told (u := s.offLink m o l) rfl (fun _ => ⟨rfl, rfl⟩) (by rw [hq]) ?_ fun b => ?_
    · rw [hv]
    · rw [hv]
      rfl
  have hcase : ((State.lathAt (s.offLink m o l) n).tokenCase i (linkKey m o) tok).bad = some (cause, r) := by
    rw [hq]
    exact hbad
  dsimp only
  rw [lathToken_bad hcase]
  generalize (s.offLink m o l).reported n cause tok = w at hinp hsource hgone htold ⊢
  obtain ⟨hdrop, hlen⟩ := modSource_source (s := w) (n := n) (i := i) (k := linkKey m o) Source.drops_src hinp
  rw [hsource] at hdrop
  have honly := modSource_onlyLath w n i (linkKey m o) Source.drops
  cases r with
  | false => exact ⟨hgone honly (modSource_outPort w n i _ _), htold rfl, hdrop.trans (Source.drops_eq _)⟩
  | true =>
    obtain ⟨hresync, -⟩ := modSource_source (s := w.modSource n i (linkKey m o) Source.drops) (n := n) (i := i) (k := linkKey m o)
      (f := Source.resyncs) (fun _ => rfl) (by rw [hlen]; exact hinp)
    rw [hdrop, Source.resyncs_drops] at hresync
    obtain ⟨hrest, hothers⟩ := modSource_onlyLath (w.modSource n i (linkKey m o) Source.drops) n i (linkKey m o) Source.resyncs
    exact ⟨hgone ⟨hrest, fun c hc => (hothers c hc).trans (honly.2 c hc)⟩
      fun c o => (modSource_outPort _ n i _ _ c o).trans (modSource_outPort w n i _ _ c o), htold hrest, hresync⟩

theorem linkStore_leaves (ho : o < (s.lathAt m).outp.length) (hi : i < (s.lathAt n).inp.length)
    (hstore : (s.lathAt n).tokenCase i (linkKey m o) tok = .store) {drop sync : State → State} :
    let t := lathToken n i (linkKey m o) tok drop sync (s.offLink m o l)
    LinkGone s t n m o l ∧
      ((t.lathAt n).inPort i).source (linkKey m o) = (((s.lathAt n).inPort i).source (linkKey m o)).stores tok ∧ t = { s with laths := t.laths } := by
  obtain ⟨q, hq⟩ := offLink_lathAt s m o l n
  have hcase : (State.lathAt (s.offLink m o l) n).tokenCase i (linkKey m o) tok = .store := by
    rw [hq]
    exact hstore
  have hinp : i < ((s.offLink m o l).lathAt n).inp.length := by
    rw [hq]
    exact hi
  dsimp only
  rw [lathToken_store hcase, State.modLath]
  refine ⟨⟨?_, fun c hn hm => ?_⟩, ?_, rfl⟩
  · rw [State.setLath_lathAt]
    split
    · rename_i hm
      rw [storeToken_outPort, ← hm, offLink_wire ho]
    · rw [offLink_wire ho]
  · rw [State.setLath_lathAt, if_neg hn, offLink_others s m o l hm]
  · rw [State.setLath_lathAt_same, storeToken_source hinp, hq]
    rfl

end

theorem channelStore_leaves {s : State} {n i b ch : Nat} {tok : Token} {l : List Token} (hi : i < (s.lathAt n).inp.length)
    (hstore : (s.lathAt n).tokenCase i ch tok = .store) {drop sync : State → State} :
    let t := lathToken n i ch tok drop sync (s.offChannel b ch l)
    ((t.bay b).ep ch).wire = l ∧ ((t.lathAt n).inPort i).source ch = (((s.lathAt n).inPort i).source ch).stores tok ∧ SameMem s t ∧
      t = { s with bays := t.bays, laths := t.laths } := by
  dsimp only
  rw [lathToken_store (s := s.offChannel b ch l) hstore, State.modLath]
  refine ⟨?_, ?_, fun _ => rfl, rfl⟩
  · exact congrArg Endpoint.wire (State.modEp_ep_same s b ch fun e => { e with wire := l })
  · rw [State.setLath_lathAt_same]
    exact storeToken_source hi

/-- What the port expects next, and holds, of a source whose token was stored. -/
theorem Source.stores_expect (y : Source) (t : Token) :
    Tab.get 0 (y.stores t).expect (tagThread t.2) = BitVec.ofNat 16 (tagSeq t.2 + 1) := Tab.get_put_same _ _ _ _

/-! ### From the receive buffer to the batch store (R331) -/

section
variable {s : State} {n i k : Nat} {tok : Token} {l : List Token}

/-- The input port after a token has moved to its store. -/
def InPort.moved (p : InPort) (k : Nat) (tok : Token) (l : List Token) : InPort :=
  { p.modSource k (fun y => { y with buf := l }) with store := p.store ++ [⟨k, p.nextOrder, tok, false⟩], nextOrder := p.nextOrder + 1 }

theorem InPort.moved_source (p : InPort) (k : Nat) (tok : Token) (l : List Token) : (p.moved k tok l).source k = { p.source k with buf := l } :=
  InPort.modSource_source (f := fun y => { y with buf := l }) (fun _ => rfl) p k

/-- The credit of a moved token goes back to its channel, or to its link. -/
def State.creditMoved (s : State) (n i k : Nat) : State :=
  if pwKind ((s.lathAt n).portWord i) == 1 then
    match (s.lathAt n).slot with
    | some j => dropElement (nth 0 (s.job j).bays (pwBay ((s.lathAt n).portWord i))) k s
    | none => s
  else s.modSource n i k Source.drops

theorem batchMove_eq (haway : s.lathAway n = false) (hbuf : (((s.lathAt n).inPort i).source k).buf = tok :: l)
    (hroom : ((s.lathAt n).inPort i).store.length < 256) :
    batchMove n i k s = (s.setLath n ((s.lathAt n).setIn i (((s.lathAt n).inPort i).moved k tok l))).creditMoved n i k := by
  unfold batchMove State.creditMoved
  dsimp only
  rw [hbuf, State.setLath_lathAt_same]
  dsimp only
  rw [haway, decide_eq_false (by omega)]
  rfl

theorem creditMoved_leaves (hi : i < (s.lathAt n).inp.length) :
    let t := s.creditMoved n i k
    (((t.lathAt n).inPort i).source k).buf = (((s.lathAt n).inPort i).source k).buf ∧ ((t.lathAt n).inPort i).store = ((s.lathAt n).inPort i).store ∧
      SameMem s t ∧ t = { s with bays := t.bays, laths := t.laths } := by
  unfold State.creditMoved
  dsimp only
  split
  · split
    · exact ⟨rfl, rfl, fun _ => rfl, rfl⟩
    · exact ⟨rfl, rfl, fun _ => rfl, rfl⟩
  · refine ⟨?_, ?_, fun _ => rfl, rfl⟩
    · rw [(modSource_source Source.drops_src hi).1]
      unfold Source.drops Source.giveCredit
      dsimp only
      split <;> rfl
    · rw [modSource_lathAt, Lath.setIn_inPort hi, if_pos rfl]
      unfold InPort.modSource
      split <;> rfl

end

/-! ### Emission, the loader and recovery (R331, R346, R347) -/

section
variable {s : State} {n o : Nat} {tok : Token} {l : List Token}

/-- No resync runs on the port's channel or link. -/
def State.portFree (s : State) (n o : Nat) : Prop :=
  let x := s.lathAt n
  let w := x.portWord (4 + o)
  pwKind w = 1 ∧ (∀ j, x.slot = some j → ((s.bay (nth 0 (s.job j).bays (pwBay w))).ep (pwChan w)).resync = false) ∨
    ∃ m q, s.linkDest n o = some (m, q) ∧ (((s.lathAt m).inPort q).source (linkKey n o)).resync = false

/-- The port after it has sent its oldest token. -/
def OutPort.sends (p : OutPort) (tok : Token) (l : List Token) : OutPort :=
  { p with
    emit := l, credits := p.credits - 1, sent := p.sent + 1, wire := p.wire ++ [tok], replay := (p.replay ++ [tok]).drop (p.replay.length + 1 - 64) }

theorem linkDest_kind {d : Nat × Nat} (h : s.linkDest n o = some d) : pwKind ((s.lathAt n).portWord (4 + o)) = 2 := by
  unfold State.linkDest at h
  dsimp only at h
  split at h
  · rename_i hkind
    simpa using hkind
  · cases h

theorem tokenEmission_sends (haway : s.lathAway n = false) (hemit : ((s.lathAt n).outPort o).emit = tok :: l)
    (hcredits : ((s.lathAt n).outPort o).credits ≠ 0) (hrcv : (s.lathAt n).rcv = false) (hfree : s.portFree n o) :
    tokenEmission n o s = s.setLath n ((s.lathAt n).setOut o (((s.lathAt n).outPort o).sends tok l)) := by
  unfold tokenEmission
  dsimp only
  rw [haway, if_neg (by decide), hemit, hrcv]
  dsimp only
  rcases hfree with ⟨hkind, hchan⟩ | ⟨m, q, hdest, hlink⟩
  · rw [hkind]
    cases hslot : (s.lathAt n).slot with
    | none => rw [if_neg (by simp [hcredits])]; rfl
    | some j =>
      dsimp only
      rw [if_neg (by simp [hchan j hslot, hcredits])]
      rfl
  · rw [linkDest_kind hdest, hdest]
    dsimp only
    rw [if_neg (by simp [hlink, hcredits])]
    rfl

theorem loaded_planes (x : Lath) : x.loaded.shv = true ∧ x.loaded.plane = x.plane ∧
    (if x.act then x.loaded.plane0 = x.master0 else x.loaded.plane1 = x.master1) := by
  unfold Lath.loaded Lath.plane
  cases x.act <;> exact ⟨rfl, rfl, rfl⟩

theorem recover_restores (x : Lath) : x.recover.rcv = false ∧ x.recover.parity = true ∧ x.recover.pc = x.ckpc ∧
    x.recover.plane = (if x.act then x.master1 else x.master0) := by
  unfold Lath.recover Lath.plane
  cases x.act <;> exact ⟨rfl, rfl, rfl, rfl⟩

theorem reloadCompletion_recovers (hrcv : (s.lathAt n).rcv = true) :
    (reloadCompletion n false s).lathAt n = (s.lathAt n).recover ∧ ∀ m, m ≠ n → (reloadCompletion n false s).lathAt m = s.lathAt m := by
  have hlaths : (reloadCompletion n false s).laths = (s.setLath n (s.lathAt n).recover).laths := by
    unfold reloadCompletion
    dsimp only
    rw [hrcv, if_neg (by decide), if_neg (by decide)]
    exact State.fmEvent_laths _ _ _
  have hlath (m : Nat) : (reloadCompletion n false s).lathAt m = (s.setLath n (s.lathAt n).recover).lathAt m := congrArg (Tab.get ({} : Lath) · m) hlaths
  exact ⟨(hlath n).trans (State.setLath_lathAt_same _ _ _), fun m hm => (hlath m).trans (by rw [State.setLath_lathAt, if_neg hm])⟩

end

/-- Settles O40: each word and event by the lath that it leaves. -/
theorem lathState : Obligations.LathState := by
  unfold Obligations.LathState
  refine ⟨fun s n k c hc => ⟨fun hk => ?_, fun hk => ?_, ?_, fun hloaded hempty => ?_, lswap_waits hc⟩,
    fun s n i tok l => ⟨fun b ch haway hb hch hwire hdir hpeer hport hcase hi => ?_, fun b ch cause sync haway hb hch hwire hdir hpeer hport hbad => ?_,
      fun m o haway ho hwire hdest hi hlen => ⟨fun hcase => ?_, fun cause sync hbad => ?_⟩, fun k haway hbuf hroom hi => ?_,
      fun o p hp hemit hcredits ho hrcv haway hfree => ?_, fun hloading => ?_, fun hslot hhlt hrcv hparity => ?_, fun hrcv => ?_⟩⟩
  · refine modLath_next hc (i := .idle k) (f := Lath.retire) rfl ?_
    rw [bne_iff_ne.2 hk]
    rfl
  · show s.onLath _ = _
    rw [State.onLath_eq hc, hk]
    rfl
  · obtain ⟨t, hexec, hlath, hrest⟩ := modLath_next hc (i := .lckpt c) (f := fun x => { x.retire.checkpoint x.nextPc with ckn := c })
      (core := fun k => .ok (s.modLath k fun x => { x.retire.checkpoint x.nextPc with ckn := c })) rfl rfl
    refine ⟨t, hexec, ?_⟩
    rw [hlath]
    exact ⟨rfl, rfl, rfl, rfl, checkpoint_store (s.lathAt n).retire (s.lathAt n).nextPc, rfl, hrest⟩
  · obtain ⟨t, hexec, hlath, hrest⟩ := lswap_flips hc hloaded hempty
    refine ⟨t, hexec, ?_⟩
    rw [hlath]
    refine ⟨rfl, rfl, rfl, ?_, hrest⟩
    unfold Lath.plane
    show (if !(s.lathAt n).act then (s.lathAt n).plane1 else (s.lathAt n).plane0) = _
    cases (s.lathAt n).act <;> rfl
  · obtain ⟨hgone, hsource, hmem, hrest⟩ := channelStore_leaves (b := b) (l := l) (drop := dropElement b ch) (sync := startResync b ch) hi hcase
    rw [← lathArrival_channel haway hb hch hwire hdir hpeer hport] at hgone hsource hmem hrest
    exact ⟨_, rfl, hgone, by rw [hsource]; rfl, by rw [hsource]; exact Source.stores_expect _ _, hmem, hrest⟩
  · obtain ⟨hlath, htold, hep⟩ := channelBad_leaves (b := b) (l := l) hbad
    rw [← lathArrival_channel haway hb hch hwire hdir hpeer hport] at hlath htold hep
    exact ⟨_, rfl, hlath, htold, by rw [hep]; rfl⟩
  · obtain ⟨hgone, hsource, hrest⟩ := linkStore_leaves (l := l)
      (drop := fun s => s.modSource n i (linkKey m o) fun x => { x.giveCredit with consumed := x.consumed + 1 })
      (sync := fun s => s.modSource n i (linkKey m o) fun x => { x with resync := true }) hlen hi hcase
    rw [← lathArrival_link haway ho hwire hdest] at hgone hsource hrest
    exact ⟨_, rfl, hgone, by rw [hsource]; rfl, by rw [hsource]; exact Source.stores_expect _ _, hrest⟩
  · obtain ⟨hgone, htold, hsource⟩ := linkBad_leaves (l := l) hlen hi hbad
    rw [← lathArrival_link haway ho hwire hdest] at hgone htold hsource
    exact ⟨_, rfl, hgone, htold, by rw [hsource]; rfl⟩
  · have hmoved : ((s.lathAt n).setIn i (((s.lathAt n).inPort i).moved k tok l)).inPort i = ((s.lathAt n).inPort i).moved k tok l :=
      (Lath.setIn_inPort hi i).trans (if_pos rfl)
    obtain ⟨hsource, hstore, hmem, hrest⟩ := creditMoved_leaves (s := s.setLath n ((s.lathAt n).setIn i (((s.lathAt n).inPort i).moved k tok l)))
      (n := n) (i := i) (k := k) (by rw [State.setLath_lathAt_same]; exact Nat.lt_of_lt_of_eq hi List.length_set.symm)
    rw [State.setLath_lathAt_same, hmoved] at hsource hstore
    rw [InPort.moved_source] at hsource
    exact ⟨_, congrArg Host.Outcome.next (batchMove_eq haway hbuf hroom), hsource, hstore, hmem, hrest⟩
  · subst hp
    refine ⟨_, congrArg Host.Outcome.next (tokenEmission_sends haway hemit hcredits hrcv hfree), ?_, fun _ => rfl, s.setLath_onlyLath n _⟩
    rw [State.setLath_lathAt_same, Lath.setOut_outPort ho, if_pos rfl]
    rfl
  · obtain ⟨hshv, hplane, hmaster⟩ := loaded_planes (s.lathAt n)
    refine ⟨s.modLath n Lath.loaded, congrArg Host.Outcome.next (if_pos hloading), ?_⟩
    rw [State.modLath, State.setLath_lathAt_same]
    exact ⟨hshv, hplane, fun _ => rfl, s.setLath_onlyLath n _, hmaster⟩
  · have hexec : parityError n s = s.setLath n { s.lathAt n with rcv := true } := by
      have hsome : (s.lathAt n).slot.isNone = false := Option.isNone_eq_false_iff.2 (Option.isSome_iff_ne_none.2 hslot)
      unfold parityError
      dsimp only
      rw [hsome, hhlt, hrcv, hparity]
      rfl
    exact ⟨_, congrArg Host.Outcome.next hexec, State.setLath_lathAt_same _ _ _, fun _ => rfl, s.setLath_onlyLath n _⟩
  · obtain ⟨hlath, hothers⟩ := reloadCompletion_recovers hrcv
    obtain ⟨hrcv', hparity, hpc, hplane⟩ := recover_restores (s.lathAt n)
    rw [← hlath] at hrcv' hparity hpc hplane
    exact ⟨_, rfl, hrcv', hparity, hpc, hplane, hothers⟩

end Sys2Proof.Machine
end

section
/-! The lease of the truss: TLEASE, TFREE, grants and the end of a window (R255, R256, R270), and the completion of a command (R271). -/

namespace Sys2Proof.Machine

/-! ### TLEASE and TFREE -/

section
variable {s : State} {b : Nat} {w : BitVec 3}

/-- TLEASE and TFREE without a push, where they may issue: the pegs alone have been taken. -/
theorem lease_takes (hmay : MayIssue s b .M w 0) (ready : Bool) (hready : ready = true) (body : List Nat → State → Except Stop State) :
    issue b .M w 0 0 true ready body s = body [] (s.modBay b fun y => y.popAll (popsOf .M w)) := by
  obtain ⟨hhalt, hkept, hpegs, hroom⟩ := hmay
  subst hready
  have hissue := issue_unstamped (w := w) (p := 0) (deferred := true) (body := body) hhalt hpegs fun _ => by rw [Stream.toReserve_fresh hkept, hroom]
  rw [State.takePegs_deferred (e := .M) (by decide) hkept] at hissue
  exact hissue

theorem exec_tlease (hc : s.cur = .stream b .M) (hissued : (s.bay b).m.issued = none) (hmay : MayIssue s b .M w 0) :
    exec (.tlease w 0 0) s = .next (leaseBody b [] (s.modBay b fun y => y.popAll (popsOf .M w))) := by
  show execTlease w 0 0 s = _
  unfold execTlease State.onMtx
  rw [hc]
  dsimp only
  rw [hissued]
  exact congrArg s.finish (lease_takes hmay true rfl _)

theorem popAll_truss (y : Bay) (qs : List Nat) : (y.popAll qs).truss = y.truss := by rw [Bay.popAll_eta]

theorem laterPush_nil (b : Nat) (s : State) : laterPush b [] s = s.modBay b id := rfl

theorem tlease_held (hc : s.cur = .stream b .M) (hissued : (s.bay b).m.issued = none) (hmay : MayIssue s b .M w 0) (hheld : (s.bay b).truss.held = true) :
    ∃ t, exec (.tlease w 0 0) s = .next t ∧ Issued s t b .M id ∧ Pegged s t b (popsOf .M w) [] ∧ (t.bay b).truss = (s.bay b).truss := by
  have hkept : (s.bay b).m.kept = [] := hmay.fresh
  obtain ⟨hpegged, hleft⟩ := pegged_issued (e := .M) (f := id) (by decide) hc w 0 hkept rfl
  have hbody : leaseBody b [] (s.modBay b fun y => y.popAll (popsOf .M w)) =
      (s.modBay b fun y => ((y.setStream .M (id (y.stream .M))).popAll (popsOf .M w)).pushAll (pushesOf .M 0)).retire := by
    unfold leaseBody
    rw [State.modBay_bay_same, popAll_truss, if_pos hheld, laterPush_nil, State.modBay_modBay]
    rfl
  refine ⟨_, (exec_tlease hc hissued hmay).trans (congrArg Host.Outcome.next hbody), hleft, hpegged, ?_⟩
  obtain ⟨-, -, -, -, hbay⟩ := hleft
  exact (congrArg Bay.truss hbay :)

theorem tlease_asks (hc : s.cur = .stream b .M) (hissued : (s.bay b).m.issued = none) (hmay : MayIssue s b .M w 0) (hheld : (s.bay b).truss.held = false) :
    ∃ t, exec (.tlease w 0 0) s = .next t ∧ t.pc = s.pc ∧ (t.bay b).m.issued = some [] ∧ (t.bay b).truss.req = true ∧ SameMem s t ∧
      OnlyBay s t b (fun y z => { y.pegWrites z with truss := { y.truss with req := true, reqAt := z.truss.reqAt }, m := z.m }) := by
  refine ⟨_, exec_tlease hc hissued hmay, ?_⟩
  unfold leaseBody
  rw [State.modBay_bay_same, popAll_truss, if_neg (by rw [hheld]; decide)]
  unfold State.modTruss State.modStream
  rw [State.modBay_modBay, State.modBay_modBay]
  have hreq (x : TrussBay) (n : Nat) : (if x.req then x else { x with req := true, reqAt := n } : TrussBay) =
      { x with req := true, reqAt := (if x.req then x else { x with req := true, reqAt := n } : TrussBay).reqAt } := by
    split
    · rename_i h
      cases x
      simp_all
    · rfl
  refine ⟨State.modBay_pc_engine (e := .M) (by decide) hc ?_, ?_, ?_, fun _ => rfl, onlyBay_modBay ?_⟩
  · rw [Bay.popAll_eta]
    rfl
  · rw [State.modBay_bay_same]
    rfl
  · rw [State.modBay_bay_same]
    exact congrArg TrussBay.req (hreq _ _)
  · rw [Bay.popAll_eta]
    exact congrArg (fun x => ({ (s.bay b).pegWrites _ with truss := x, m := _ } : Bay)) (hreq _ _)

theorem TrussBay.enqueue_free {x : TrussBay} (hheld : x.held = true) (pc : BitVec 16) (clock : Nat) :
    x.enqueue (freeCmd pc) clock = { x with queue := x.queue ++ [freeCmd pc] } := by
  have hasks : (!x.held && !x.req && (freeCmd pc).op != .free) = false := by
    rw [hheld]
    rfl
  unfold TrussBay.enqueue
  dsimp only
  rw [hasks, Bool.or_false, if_neg (by decide)]

theorem tfree_queues (hc : s.cur = .stream b .M) (hmay : MayIssue s b .M w 0) (hheld : (s.bay b).truss.held = true)
    (hroom : (s.bay b).truss.queue.length < 4) : ∃ t, exec (.tfree w 0 0) s = .next t ∧
      (t.bay b).truss = { (s.bay b).truss with queue := (s.bay b).truss.queue ++ [freeCmd s.pc] } ∧ t.pc = s.pc + 4 ∧ SameMem s t := by
  have hpc : (s.modBay b fun y => y.popAll (popsOf .M w)).pc = s.pc := State.modBay_pc_engine (e := .M) (by decide) hc (by rw [Bay.popAll_eta]; rfl)
  have hbody : freeBody b 0 [] (s.modBay b fun y => y.popAll (popsOf .M w)) =
      .ok (enqueueCmd b (freeCmd s.pc) (s.modBay b fun y => y.popAll (popsOf .M w))).retire := by
    unfold freeBody
    rw [State.modBay_bay_same, popAll_truss, hpc]
    dsimp only
    rw [hheld]
    rfl
  have hexec : exec (.tfree w 0 0) s = .next (enqueueCmd b (freeCmd s.pc) (s.modBay b fun y => y.popAll (popsOf .M w))).retire := by
    show execTfree w 0 0 s = _
    unfold execTfree State.onMtx
    rw [hc]
    dsimp only
    exact congrArg s.finish ((lease_takes hmay _ (decide_eq_true hroom) _).trans hbody)
  obtain ⟨-, hpc', hmem, -, -, hbay⟩ := enqueue_enters (p := 0) hc hmay (freeCmd s.pc)
  rw [State.takePegs_deferred (e := .M) (by decide) hmay.fresh] at hpc' hmem hbay
  refine ⟨_, hexec, (congrArg Bay.truss hbay : _ = (s.bay b).truss.enqueue (freeCmd s.pc) s.clock).trans (TrussBay.enqueue_free hheld _ _), hpc', hmem⟩

end

/-! ### Grants and the end of a window -/

section
variable {s : State} {b bent : Nat}

/-- A grant that no TLEASE waits for. -/
theorem grant_leaves (hissued : (s.bay b).m.issued = none) (hb : b / 8 = bent) :
    let t := grant b s
    (t.bay b).truss = { (s.bay b).truss with held := true, req := false } ∧ (t.bent bent).last = some b ∧ SameMem s t ∧
      (∀ c, c ≠ b → t.bay c = s.bay c) ∧ t = { s with bays := t.bays, bents := t.bents } := by
  subst hb
  have hgrant : grant b s = (s.modTruss b fun t => { t with held := true, req := false }).setBent (b / 8)
      { (s.modTruss b fun t => { t with held := true, req := false }).bent (b / 8) with last := some b } := by
    unfold grant
    dsimp only
    have hnone : (((s.modTruss b fun t => { t with held := true, req := false }).setBent (b / 8)
      { (s.modTruss b fun t => { t with held := true, req := false }).bent (b / 8) with last := some b }).bay b).m.issued = none := by
      rw [State.setBent_bay, State.modTruss, State.modBay_bay_same]
      exact hissued
    rw [hnone]
  dsimp only
  rw [hgrant]
  refine ⟨?_, ?_, fun _ => rfl, fun c hc => ?_, rfl⟩
  · rw [State.setBent_bay, State.modTruss, State.modBay_bay_same]
  · rw [State.setBent_bent_same]
  · rw [State.setBent_bay, State.modTruss, State.modBay_bay_ne _ _ _ hc]

theorem exec_leaseGrant_request (hholder : s.holder bent = none) (hwindow : nextWindow bent s = none) (hnext : nextRequest bent s = some b) :
    exec (.leaseGrant bent) s = .next (grant b s) := by
  show execLeaseGrant bent s = _
  unfold execLeaseGrant
  rw [hholder, hwindow, hnext]

theorem exec_leaseGrant_window {x : Nat × Nat} (hholder : s.holder bent = none) (hwindow : nextWindow bent s = some (b, x)) :
    exec (.leaseGrant bent) s = .next (grant b (s.modTruss b fun t => { t with window := some x })) := by
  show execLeaseGrant bent s = _
  unfold execLeaseGrant
  rw [hholder, hwindow]

theorem grant_window_leaves (x : Nat × Nat) (hissued : (s.bay b).m.issued = none) (hb : b / 8 = bent) :
    let t := grant b (s.modTruss b fun t => { t with window := some x })
    (t.bay b).truss = { (s.bay b).truss with held := true, req := false, window := some x } ∧ SameMem s t ∧ (∀ c, c ≠ b → t.bay c = s.bay c) ∧
      t = { s with bays := t.bays, bents := t.bents } := by
  obtain ⟨htruss, -, hmem, hothers, hrest⟩ := grant_leaves (s := s.modTruss b fun t => { t with window := some x }) (b := b)
    (by rw [State.modTruss, State.modBay_bay_same]; exact hissued) hb
  refine ⟨htruss.trans ?_, hmem, fun c hc => (hothers c hc).trans (State.modBay_bay_ne _ _ _ hc), hrest⟩
  rw [State.modTruss, State.modBay_bay_same]

/-- With no inner values the promotion of all rows writes no row. -/
theorem promoteAll_empty (hinner : (s.bay b).truss.inner = []) :
    promoteAll b s = s ∨ promoteAll b s = s.modTruss b fun t => { t with pend := false, passes := 0, firsts := [] } := by
  unfold promoteAll
  rw [hinner]
  split
  · exact .inl rfl
  · exact .inr rfl

theorem windowEnd_leaves (hdet : (s.bay b).det = true) (hheld : (s.bay b).truss.held = true) (hwindow : s.openWindow b ≠ (s.bay b).truss.window)
    (hinner : (s.bay b).truss.inner = []) : ∃ t, exec (.leaseWindowEnd b) s = .next t ∧ (t.bay b).truss.held = false ∧ (t.bay b).truss.cnt = 0 ∧
      SameMem s t ∧ OnlyBay s t b (fun y z => { y with truss := z.truss }) := by
  have hexec : exec (.leaseWindowEnd b) s = .next (leaseEnd b s) := by
    show execLeaseWindowEnd b s = _
    unfold execLeaseWindowEnd
    dsimp only
    rw [hdet, hheld, decide_eq_true hwindow]
    rfl
  refine ⟨_, hexec, ?_⟩
  unfold leaseEnd
  obtain heq | heq := promoteAll_empty hinner
  · rw [heq]
    exact ⟨by rw [State.modTruss, State.modBay_bay_same], by rw [State.modTruss, State.modBay_bay_same], fun _ => rfl, onlyBay_modBay rfl⟩
  · rw [heq, State.modTruss, State.modTruss, State.modBay_modBay]
    exact ⟨by rw [State.modBay_bay_same], by rw [State.modBay_bay_same], fun _ => rfl, onlyBay_modBay rfl⟩

end

/-! ### The completion of a command (R189, R271) -/

section
variable {s : State} {b : Nat}

theorem showOpen_eta : ∀ (l : List (Nat × Bool)) (y : Bay), y.showOpen l = { y with par := (y.showOpen l).par, dirty := (y.showOpen l).dirty }
  | [], _ => rfl
  | (z, v) :: l, y => showOpen_eta l (y.setPar (2049 + z * 32) (word (b2n v)))

/-- The bay once the command `c` has completed, before `q`. -/
def Bay.completes (c : TrussCmd) (q : List TrussCmd) (y : Bay) : Bay :=
  { (y.showOpen c.sets).pushDeferred c.push with truss := { y.truss with running := q } }

theorem cmdCompletion_eq {c : TrussCmd} {q : List TrussCmd} (hrunning : (s.bay b).truss.running = c :: q)
    (hlanded : ∀ w ∈ (s.bent (b / 8)).writes, w.owner = b → c.id < w.id) : cmdCompletion b s = s.modBay b (Bay.completes c q) := by
  have hnone : ((s.bent (b / 8)).writes.any fun w => w.owner = b && decide (w.id ≤ c.id)) = false := by
    rw [List.any_eq_false]
    intro w hw hc
    obtain ⟨howner, hid⟩ : w.owner = b ∧ w.id ≤ c.id := by simpa using hc
    exact absurd (hlanded w hw howner) (Nat.not_lt.2 hid)
  unfold cmdCompletion
  rw [hrunning]
  dsimp only
  rw [hnone, if_neg (by decide), State.modTruss, State.modBay_modBay]
  refine State.modBay_congr ?_
  rw [Bay.completes, Bay.pushDeferred_eq, Bay.returnDeferred_eta, Bay.pushAll_eta, showOpen_eta]

theorem completes_leaves (s : State) (b : Nat) (c : TrussCmd) (q : List TrussCmd) :
    let t := s.modBay b (Bay.completes c q)
    Pushed s t b c.push ∧ SameMem s t ∧ (t.bay b).par = ((s.bay b).showOpen c.sets).par ∧
      OnlyBay s t b (fun y z => { y.pegWrites z with par := z.par, truss := { y.truss with running := q } }) := by
  have hshown : (s.modBay b fun y => y.showOpen c.sets).bay b = (s.bay b).showOpen c.sets := State.modBay_bay_same _ _ _
  obtain ⟨hcnt, hrsv, hev⟩ := pushed_of (s := s.modBay b fun y => y.showOpen c.sets) (t := s.modBay b (Bay.completes c q)) (b := b) (qs := c.push)
    (by rw [State.modBay_bay_same, hshown]; rfl) (by rw [State.modBay_bay_same, hshown]; rfl) (by rw [State.modBay_bay_same, hshown]; rfl)
  rw [hshown, showOpen_eta] at hcnt hrsv hev
  refine ⟨⟨hcnt, hrsv, hev⟩, fun _ => rfl, ?_, onlyBay_modBay ?_⟩
  · rw [State.modBay_bay_same, Bay.completes, Bay.pushDeferred_eq, Bay.returnDeferred_eta, Bay.pushAll_eta]
  · rw [Bay.completes, Bay.pushDeferred_eq, Bay.returnDeferred_eta, Bay.pushAll_eta, showOpen_eta]
    rfl

theorem trussCompletion_leaves {c : TrussCmd} {q : List TrussCmd} (hrunning : (s.bay b).truss.running = c :: q)
    (hlanded : ∀ w ∈ (s.bent (b / 8)).writes, w.owner = b → c.id < w.id) :
    ∃ t, exec (.trussCommandCompletion b) s = .next t ∧ (t.bay b).truss.running = q ∧ Pushed s t b c.push ∧ SameMem s t ∧
      (c.sets = [] → (t.bay b).par = (s.bay b).par) ∧
      (∀ z v, c.sets = [(z, v)] → ∀ n, Tab.get 0 (t.bay b).par n = if n = 2049 + z * 32 then word (b2n v) else Tab.get 0 (s.bay b).par n) ∧
      OnlyBay s t b (fun y z => { y.pegWrites z with par := z.par, truss := { y.truss with running := q } }) := by
  obtain ⟨hpushed, hmem, hpar, honly⟩ := completes_leaves s b c q
  refine ⟨_, congrArg Host.Outcome.next (cmdCompletion_eq hrunning hlanded), ?_, hpushed, hmem, fun hsets => ?_, fun z v hsets n => ?_, honly⟩
  · rw [State.modBay_bay_same]
    rfl
  · rw [hpar, hsets]
    rfl
  · rw [hpar, hsets]
    exact Bay.setPar_par _ _ _ _

end

end Sys2Proof.Machine
end

section
/-! States that differ in the trusses of their bays alone: the tensors of a command and their elements are the same in both (R208, R258, R271). -/

namespace Sys2Proof.Machine

/-- Of the second state only the trusses of its bays may differ from the first. -/
structure TrussApart (s u : State) : Prop where
  rest : u = { s with bays := u.bays }
  bays : ∀ c, u.bay c = { s.bay c with truss := (u.bay c).truss }

theorem TrussApart.refl (s : State) : TrussApart s s := ⟨rfl, fun _ => rfl⟩

theorem trussApart_modTruss (s : State) (b : Nat) (f : TrussBay → TrussBay) : TrussApart s (s.modTruss b f) := by
  refine ⟨rfl, fun c => ?_⟩
  by_cases hc : c = b
  · rw [hc, State.modTruss, State.modBay_bay_same]
  · rw [State.modTruss, State.modBay_bay_ne _ _ _ hc]

/-! ### What does not read a truss -/

section
variable {s u : State} (h : TrussApart s u)
include h

/-- What reads no bay is the same in both states. -/
theorem TrussApart.same {α : Type} (f : State → α) (hf : ∀ B, f { s with bays := B } = f s) : f u = f s := (congrArg f h.rest).trans (hf _)

/-- What reads of a bay other fields than the truss is the same in both states. -/
theorem TrussApart.field {α : Type} (f : Bay → α) (hf : ∀ y x, f { y with truss := x } = f y) (c : Nat) : f (u.bay c) = f (s.bay c) :=
  (congrArg f (h.bays c)).trans (hf _ _)

theorem TrussApart.mem : u.mem = s.mem := h.same State.mem fun _ => rfl
theorem TrussApart.job (n : Nat) : u.job n = s.job n := h.same (State.job · n) fun _ => rfl
theorem TrussApart.meta1 (a : Nat) : u.meta1 a = s.meta1 a := h.same (State.meta1 · a) fun _ => rfl
theorem TrussApart.readBytes (a n : Nat) : u.readBytes a n = s.readBytes a n := h.same (State.readBytes · a n) fun _ => rfl
theorem TrussApart.rd (a n : Nat) : u.rd a n = s.rd a n := h.same (State.rd · a n) fun _ => rfl

theorem TrussApart.jobOf (b : Nat) : u.jobOf b = s.jobOf b := by
  rw [State.jobOf, State.jobOf, h.field Bay.slotNo (fun _ _ => rfl), h.job]

theorem TrussApart.peerBay (b i : Nat) : u.peerBay b i = s.peerBay b i := by rw [State.peerBay, State.peerBay, h.jobOf]

theorem TrussApart.partner (b : Nat) : u.partner b = s.partner b := by
  rw [State.partner, State.partner, h.field Bay.index (fun _ _ => rfl), h.peerBay]

theorem TrussApart.bayCtx (b : Nat) : u.bayCtx b = s.bayCtx b := by
  rw [State.bayCtx, State.bayCtx, h.field Bay.partNo (fun _ _ => rfl), h.field Bay.slotNo (fun _ _ => rfl)]

theorem TrussApart.bankHome (c : Ctx) (w : List Word) : u.bankHome c w = s.bankHome c w := h.same (State.bankHome · c w) fun _ => rfl

theorem TrussApart.phaseOf (c : Ctx) : u.phaseOf c = s.phaseOf c := by
  rw [State.phaseOf, State.phaseOf, h.job, h.field Bay.index (fun _ _ => rfl)]

/-! ### Views -/

theorem TrussApart.viewOf (c : Ctx) (tid tag : Nat) (ro : Bool) (org lim : Nat) : u.viewOf c tid tag ro org lim = s.viewOf c tid tag ro org lim := by
  have hwords : u.entryWords c tid = s.entryWords c tid := h.same (State.entryWords · c tid) fun _ => rfl
  have hfmt (n i : Nat) : bankFmtOf (u.bay n) i = bankFmtOf (s.bay n) i := h.field (bankFmtOf · i) (fun _ _ => rfl) n
  simp only [State.viewOf, hwords, h.bankHome, hfmt, h.job]

theorem TrussApart.viewH (c : Ctx) (x : Word × Word) : u.viewH c x = s.viewH c x := by
  rw [State.viewH, State.viewH, h.viewOf]

section
variable (b : Nat) (x : Word × Word) (slot : Nat) (c : TrussCmd)

theorem TrussApart.bankView : bankView b x slot u = bankView b x slot s := by
  simp only [Machine.bankView, h.bayCtx, h.viewH]

theorem TrussApart.plainView : plainView b x slot u = plainView b x slot s := by
  simp only [Machine.plainView, h.bankView]

theorem TrussApart.writeView : writeView b x slot u = writeView b x slot s := by
  simp only [Machine.writeView, h.plainView]

theorem TrussApart.vectorView (fmt n : Nat) : vectorView b x fmt n u = vectorView b x fmt n s := by
  simp only [Machine.vectorView, h.bankView]

theorem TrussApart.planesView : planesView b c u = planesView b c s := by
  simp only [Machine.planesView, h.bankView]

theorem TrussApart.actView : actView b c u = actView b c s := by
  simp only [Machine.actView, h.bankView]

theorem TrussApart.mapView (write : Bool) : mapView b c write u = mapView b c write s := by
  simp only [Machine.mapView, h.writeView, h.plainView]

theorem TrussApart.aViews : aViews b c u = aViews b c s := by
  simp only [Machine.aViews, scalesView, h.bankView, h.plainView]

theorem TrussApart.bViews : bViews b c u = bViews b c s := by
  simp only [Machine.bViews, scalesView, h.bankView, h.plainView]

end

/-! ### Places and reads -/

theorem TrussApart.bankWaits (home bank : Nat) : u.bankWaits home bank = s.bankWaits home bank := by
  have hcur : u.cur = s.cur := h.same State.cur fun _ => rfl
  have hlocks (e : Eng) (n : Nat) : (u.bay n).locksOf e = (s.bay n).locksOf e := h.field (Bay.locksOf · e) (fun _ _ => by cases e <;> rfl) n
  simp only [State.bankWaits, State.lockedFor, hcur, hlocks]

theorem TrussApart.place (c : Ctx) (v : View) (slot : Nat) (write : Bool) (spaces : Spaces) (o : Nat) :
    u.place c v slot write spaces o = s.place c v slot write spaces o := by
  have hwalk : u.walk c v o = s.walk c v o := h.same (State.walk · c v o) fun _ => rfl
  have htags : u.tags = s.tags := h.same State.tags fun _ => rfl
  have hwaits (a : Nat) : u.writeWaits a = s.writeWaits a := h.same (State.writeWaits · a) fun _ => rfl
  have hpart (n : Nat) : u.part n = s.part n := h.same (State.part · n) fun _ => rfl
  simp only [State.place, hwalk, htags, hwaits, hpart, h.bankHome, h.bankWaits]

theorem TrussApart.placeAll (c : Ctx) (v : View) (slot : Nat) (write : Bool) (spaces : Spaces) :
    ∀ l, u.placeAll c v slot write spaces l = s.placeAll c v slot write spaces l
  | [] => rfl
  | (o, n) :: t => by rw [State.placeAll, State.placeAll, h.place, TrussApart.placeAll c v slot write spaces t]

theorem TrussApart.placeElem (c : Ctx) (v : View) (slot : Nat) (write : Bool) (spaces : Spaces) (x : List Nat) :
    u.placeElem c v slot write spaces x = s.placeElem c v slot write spaces x := h.placeAll c v slot write spaces _

theorem TrussApart.withVersions (m : Tab (BitVec 12)) : TrussApart { s with meta_ := m } { u with meta_ := m } :=
  ⟨congrArg (fun v : State => { v with meta_ := m }) h.rest, h.bays⟩

theorem TrussApart.withJobs (j : Tab Job) : TrussApart { s with jobs := j } { u with jobs := j } :=
  ⟨congrArg (fun v : State => { v with jobs := j }) h.rest, h.bays⟩

theorem TrussApart.commitAt (q a : Nat) : TrussApart (s.commitAt q a) (u.commitAt q a) := by
  have hmeta : u.meta_ = s.meta_ := h.same State.meta_ fun _ => rfl
  rw [State.commitAt, State.commitAt, h.meta1, hmeta]
  exact h.withVersions _

/-- The bytes read are the same, and the states after the read differ in the trusses alone. -/
theorem TrussApart.readSpan (c : Ctx) (x : Span) : (u.readSpan c x).1 = (s.readSpan c x).1 ∧ TrussApart (s.readSpan c x).2 (u.readSpan c x).2 := by
  unfold State.readSpan
  split
  · rw [h.phaseOf]
    have hcommit := h.commitAt (s.phaseOf c).1 x.loc.addr
    dsimp only
    rw [hcommit.meta1, hcommit.readBytes]
    exact ⟨rfl, hcommit⟩
  · exact ⟨h.readBytes _ _, h⟩

omit h in
theorem TrussApart.readSpans (c : Ctx) : ∀ (l : List Span) {s u : State}, TrussApart s u →
    (u.readSpans c l).1 = (s.readSpans c l).1 ∧ TrussApart (s.readSpans c l).2 (u.readSpans c l).2
  | [], _, _, h => ⟨rfl, h⟩
  | x :: t, _, _, h => by
    obtain ⟨hfirst, hnext⟩ := h.readSpan c x
    obtain ⟨hrest, hend⟩ := TrussApart.readSpans c t hnext
    exact ⟨congrArg₂ (· ++ ·) hfirst hrest, hend⟩

theorem TrussApart.peek (b : Nat) (v : View) (slot : Nat) (x : List Nat) : u.peek b v slot x = s.peek b v slot x := by
  simp only [State.peek, h.bayCtx, h.placeElem, (TrussApart.readSpans _ _ h).1]

theorem TrussApart.peekIndex (b : Nat) (v : View) (slot i : Nat) : u.peekIndex b v slot i = s.peekIndex b v slot i := h.peek b v slot _

theorem TrussApart.readMap (b : Nat) (c : TrussCmd) (v : View) : readMap b c v u = readMap b c v s := by
  simp only [Machine.readMap, h.peekIndex]

theorem TrussApart.vector (b : Nat) (v : View) (n : Nat) : u.vector_ b v n = s.vector_ b v n := by
  simp only [State.vector_, h.peekIndex]

theorem TrussApart.aRows (b : Nat) (c : TrussCmd) (a : View) : aRows b c a u = aRows b c a s := by
  simp only [Machine.aRows, h.vectorView, h.vector]

theorem TrussApart.bCols (b : Nat) (c : TrussCmd) (v : View) : bCols b c v u = bCols b c v s := by
  simp only [Machine.bCols, h.vectorView, h.vector]

theorem TrussApart.bitmapBit (b : Nat) (c : TrussCmd) (v x : View) (k n : Nat) : bitmapBit b c v x u k n = bitmapBit b c v x s k n := by
  simp only [Machine.bitmapBit, h.peekIndex]

theorem TrussApart.entryAt (b : Nat) (r : Region) (m n : Nat) : entryAt u b r m n = entryAt s b r m n := h.rd _ _

/-! ### Runs and trailers -/

omit h in
/-- The outcome of a read in both states: the same failure, or the same value with states that differ in the trusses alone. -/
def TrussApart.Agrees {α : Type} : Except Stop (α × State) → Except Stop (α × State) → Prop
  | .ok x, .ok y => y.1 = x.1 ∧ TrussApart x.2 y.2
  | .error e, .error f => f = e
  | _, _ => False

omit h in
theorem TrussApart.Agrees.bind {α β : Type} {x y : Except Stop (α × State)} {f g : α × State → Except Stop (β × State)} (h : Agrees x y)
    (hf : ∀ a s u, TrussApart s u → Agrees (f (a, s)) (g (a, u))) : Agrees (x >>= f) (y >>= g) := by
  rcases x with e | ⟨a, s⟩ <;> rcases y with e' | ⟨a', u⟩
  · exact h
  · exact h.elim
  · exact h.elim
  · obtain ⟨rfl, hu⟩ := h
    exact hf _ s u hu

theorem TrussApart.readRun (c : Ctx) (v : View) (slot : Nat) (spaces : Spaces) (o n : Nat) :
    Agrees (s.readRun c v slot spaces o n) (u.readRun c v slot spaces o n) := by
  rw [State.readRun, State.readRun, h.placeAll]
  split
  · rfl
  · exact TrussApart.readSpans c _ h

theorem TrussApart.readIndex (c : Ctx) (v : View) (slot : Nat) (spaces : Spaces) (i : Int) :
    Agrees (s.readIndex c v slot spaces i) (u.readIndex c v slot spaces i) := by
  unfold State.readIndex State.readElem
  dsimp only
  rw [h.placeElem]
  split
  · rfl
  · split
    · rfl
    · obtain ⟨hread, hend⟩ := TrussApart.readSpans c _ h
      exact ⟨by rw [hread], hend⟩

omit h in
theorem TrussApart.readScales (c : Ctx) (v : View) (slot : Nat) (spaces : Spaces) : ∀ (l : List Nat) {s u : State}, TrussApart s u →
    Agrees (readScales c v slot spaces l s) (readScales c v slot spaces l u)
  | [], _, _, h => ⟨rfl, h⟩
  | i :: t, _, _, h => (h.readIndex c v slot spaces i).bind fun _ _ _ h => (TrussApart.readScales c v slot spaces t h).bind fun _ _ _ h => ⟨rfl, h⟩

theorem TrussApart.scaleView (c : Ctx) (v : View) : u.scaleView c v = s.scaleView c v := by
  simp only [State.scaleView, h.viewOf]

theorem TrussApart.payloadOf (c : Ctx) (v : View) (slot : Nat) (spaces : Spaces) : Agrees (s.payloadOf c v slot spaces) (u.payloadOf c v slot spaces) := by
  unfold State.payloadOf
  refine (h.readRun c v slot spaces _ _).bind fun l s u h => ?_
  dsimp only
  split
  · exact ⟨rfl, h⟩
  · split
    · exact (h.readRun c v slot spaces _ _).bind fun _ _ _ h => ⟨rfl, h⟩
    · rw [h.scaleView]
      cases s.scaleView c v with
      | error e => rfl
      | ok q => exact (TrussApart.readScales c q slot spaces _ h).bind fun _ _ _ h => ⟨rfl, h⟩

/-- The outcome of a check that may have read: the same failure, or success in both. -/
theorem TrussApart.checkTrailer (c : Ctx) (v : View) (slot : Nat) (spaces : Spaces) :
    (u.checkTrailer c v slot spaces).map (fun _ => ()) = (s.checkTrailer c v slot spaces).map fun _ => () := by
  unfold State.checkTrailer
  split
  · rfl
  · have hpayload := h.payloadOf c v slot spaces
    rcases hs : s.payloadOf c v slot spaces with e | ⟨l, s'⟩ <;> rcases hu : u.payloadOf c v slot spaces with e' | ⟨l', u'⟩ <;> rw [hs, hu] at hpayload
    · exact congrArg Except.error hpayload
    · exact hpayload.elim
    · exact hpayload.elim
    · obtain ⟨hl, hnext⟩ := hpayload
      dsimp only at hl hnext ⊢
      subst hl
      have hrun := hnext.readRun c v slot spaces v.trailerAt 32
      rcases hs' : s'.readRun c v slot spaces v.trailerAt 32 with e | ⟨t, s''⟩ <;>
        rcases hu' : u'.readRun c v slot spaces v.trailerAt 32 with e' | ⟨t', u''⟩ <;> rw [hs', hu'] at hrun
      · exact congrArg Except.error hrun
      · exact hrun.elim
      · exact hrun.elim
      · obtain ⟨ht, -⟩ := hrun
        dsimp only at ht ⊢
        subst ht
        split <;> rfl

theorem TrussApart.cmpLines (b : Nat) (v : View) (need : Bool → Nat) : ∀ fuel i, cmpLines b v need u fuel i = cmpLines b v need s fuel i
  | 0, _ => rfl
  | fuel + 1, i => by
    rw [Machine.cmpLines, Machine.cmpLines, h.bayCtx]
    split
    · rfl
    · have hrun := h.readRun (s.bayCtx b) v 1 spBank (128 * i) 128
      rcases hs : s.readRun (s.bayCtx b) v 1 spBank (128 * i) 128 with e | ⟨l, s'⟩ <;>
        rcases hu : u.readRun (s.bayCtx b) v 1 spBank (128 * i) 128 with e' | ⟨l', u'⟩ <;> rw [hs, hu] at hrun
      · exact congrArg _ hrun
      · exact hrun.elim
      · exact hrun.elim
      · obtain ⟨hl, -⟩ := hrun
        dsimp only at hl ⊢
        subst hl
        rw [TrussApart.cmpLines b v need fuel (i + 1)]

end

/-! ### Writes -/

section
variable {s u : State} (h : TrussApart s u)
include h

theorem TrussApart.modBay {b : Nat} {f g : Bay → Bay} (hf : ∀ x, g { s.bay b with truss := x } = { f (s.bay b) with truss := x }) :
    TrussApart (s.modBay b f) (u.modBay b g) := by
  refine ⟨?_, fun c => ?_⟩
  · rw [State.modBay, h.rest]
    rfl
  · by_cases hc : c = b
    · rw [hc, State.modBay_bay_same, State.modBay_bay_same, h.bays b, hf]
    · rw [State.modBay_bay_ne _ _ _ hc, State.modBay_bay_ne _ _ _ hc]
      exact h.bays c

theorem TrussApart.dirtyLine (a : Nat) : TrussApart (s.dirtyLine a) (u.dirtyLine a) := by
  unfold State.dirtyLine
  split
  · rename_i b n _
    exact h.modBay (f := fun y => { y with dirtyLines := addLine y.dirtyLines n }) (g := fun y => { y with dirtyLines := addLine y.dirtyLines n }) fun _ => rfl
  · exact h

theorem TrussApart.withMem (m : Memory) : TrussApart { s with mem := m } { u with mem := m } :=
  ⟨congrArg (fun v : State => { v with mem := m }) h.rest, h.bays⟩

theorem TrussApart.write (a : Nat) (l : List Byte) : TrussApart (s.write a l) (u.write a l) := by
  unfold State.write
  dsimp only
  split
  · rw [h.mem]
    exact h.withMem _
  · have hdirty := (h.dirtyLine a).dirtyLine (a + l.length - 1)
    rw [hdirty.mem]
    exact hdirty.withMem _

theorem TrussApart.keepShared (n a : Nat) (l : List Byte) : TrussApart (s.keepShared n a l) (u.keepShared n a l) := by
  unfold State.keepShared
  rw [h.job]
  dsimp only
  split
  · have hjobs : u.jobs = s.jobs := h.same State.jobs fun _ => rfl
    rw [State.setJob, State.setJob, hjobs]
    exact h.withJobs _
  · exact h

theorem TrussApart.digestGranule (b space tid g mask : Nat) (l : List Byte) :
    TrussApart (s.digestGranule b space tid g mask l) (u.digestGranule b space tid g mask l) := by
  unfold State.digestGranule
  dsimp only
  rw [h.field Bay.plumb (fun _ _ => rfl), h.field Bay.paired (fun _ _ => rfl)]
  split
  · exact h.modBay (f := fun y => { y with dlo := y.dlo + _, dhi := y.dhi + _ }) (g := fun y => { y with dlo := y.dlo + _, dhi := y.dhi + _ }) fun _ => rfl
  · exact h

theorem TrussApart.withMeta (m : Tab (BitVec 12)) (j : Tab Nat) : TrussApart { s with meta_ := m, metaJob := j } { u with meta_ := m, metaJob := j } :=
  ⟨congrArg (fun v : State => { v with meta_ := m, metaJob := j }) h.rest, h.bays⟩

theorem TrussApart.beginVersion (c : Ctx) (x : Span) (q me : Nat) : TrussApart (s.beginVersion c x q me) (u.beginVersion c x q me) := by
  have hmeta : u.meta_ = s.meta_ := h.same State.meta_ fun _ => rfl
  have hjob : u.metaJob = s.metaJob := h.same State.metaJob fun _ => rfl
  unfold State.beginVersion
  dsimp only
  rw [h.meta1]
  split
  · exact h
  · rw [h.readBytes, h.readBytes, hmeta, hjob]
    exact ((h.keepShared _ _ _).write _ _).withMeta _ _

theorem TrussApart.putSpan (c : Ctx) (x : Span) (l : List Byte) : TrussApart (s.putSpan c x l) (u.putSpan c x l) := by
  unfold State.putSpan
  split
  · rw [h.phaseOf]
    have hcommit := h.commitAt (s.phaseOf c).1 x.loc.addr
    dsimp only
    rw [hcommit.meta1]
    exact (hcommit.beginVersion c x _ _).write _ _
  · exact h.write _ _

theorem TrussApart.writeSpan (c : Ctx) (tid : Nat) (x : Span) (l : List Byte) : TrussApart (s.writeSpan c tid x l) (u.writeSpan c tid x l) := by
  rw [writeSpan_eq, writeSpan_eq]
  split
  · exact (h.putSpan c x l).digestGranule _ _ _ _ _ _
  · exact h.putSpan c x l

omit h in
theorem TrussApart.writeSpans (c : Ctx) (tid : Nat) : ∀ (l : List Span) (bs : List Byte) {s u : State}, TrussApart s u →
    TrussApart (s.writeSpans c tid l bs) (u.writeSpans c tid l bs)
  | [], _, _, _, h => h
  | x :: t, bs, _, _, h => TrussApart.writeSpans c tid t (bs.drop x.n) (h.writeSpan c tid x (bs.take x.n))

theorem TrussApart.writeElem (c : Ctx) (v : View) (x : List Nat) (l : List Span) (val : Nat) :
    TrussApart (s.writeElem c v x l val) (u.writeElem c v x l val) := by
  obtain ⟨hread, hend⟩ := TrussApart.readSpans c l h
  unfold State.writeElem
  dsimp only
  rw [hread]
  split
  · exact TrussApart.writeSpans c v.tid l _ hend
  · split
    · exact TrussApart.writeSpans c v.tid l _ hend
    · exact TrussApart.writeSpans c v.tid l _ h

theorem TrussApart.poke (b : Nat) (v : View) (slot : Nat) (x : List Nat) (val : Nat) : TrussApart (s.poke b v slot x val) (u.poke b v slot x val) := by
  unfold State.poke
  rw [h.bayCtx, h.placeElem]
  split
  · exact h.writeElem _ v x _ val
  · exact h

theorem TrussApart.pokeIndex (b : Nat) (v : View) (slot i val : Nat) : TrussApart (s.pokeIndex b v slot i val) (u.pokeIndex b v slot i val) :=
  h.poke b v slot _ val

omit h in
theorem TrussApart.pokeFrom (b : Nat) (v : View) (slot : Nat) : ∀ (l : List Nat) (i : Nat) {s u : State}, TrussApart s u →
    TrussApart (pokeFrom b v slot i l s) (pokeFrom b v slot i l u)
  | [], _, _, _, h => h
  | x :: t, i, _, _, h => TrussApart.pokeFrom b v slot t (i + 1) (h.pokeIndex b v slot i x)

omit h in
theorem TrussApart.foldl {ι : Type} {f : State → ι → State} (hf : ∀ s u e, TrussApart s u → TrussApart (f s e) (f u e)) :
    ∀ (l : List ι) {s u : State}, TrussApart s u → TrussApart (l.foldl f s) (l.foldl f u)
  | [], _, _, h => h
  | e :: t, s, u, h => TrussApart.foldl hf t (hf s u e h)

end

/-! ### What writes of elements leave of the truss -/

/-- The trusses of the bays, and what the bays of a bent share, are the same in both states. -/
def SameTruss (s t : State) : Prop := t.bents = s.bents ∧ ∀ c, (t.bay c).truss = (s.bay c).truss

theorem SameTruss.refl (s : State) : SameTruss s s := ⟨rfl, fun _ => rfl⟩

theorem SameTruss.trans {s u t : State} (h₁ : SameTruss s u) (h₂ : SameTruss u t) : SameTruss s t :=
  ⟨h₂.1.trans h₁.1, fun c => (h₂.2 c).trans (h₁.2 c)⟩

theorem sameTruss_modBay (s : State) (b : Nat) {f : Bay → Bay} (hf : (f (s.bay b)).truss = (s.bay b).truss) : SameTruss s (s.modBay b f) := by
  refine ⟨rfl, fun c => ?_⟩
  by_cases hc : c = b
  · rw [hc, State.modBay_bay_same, hf]
  · rw [State.modBay_bay_ne _ _ _ hc]

theorem dirtyLine_sameTruss (s : State) (a : Nat) : SameTruss s (s.dirtyLine a) := by
  unfold State.dirtyLine
  split
  · rename_i b n _
    exact sameTruss_modBay s b (f := fun y => { y with dirtyLines := addLine y.dirtyLines n }) rfl
  · exact .refl s

theorem write_sameTruss (s : State) (a : Nat) (l : List Byte) : SameTruss s (s.write a l) := by
  unfold State.write
  dsimp only
  split
  · exact .refl s
  · exact (dirtyLine_sameTruss s a).trans (dirtyLine_sameTruss _ (a + l.length - 1))

theorem keepShared_sameTruss (s : State) (n a : Nat) (l : List Byte) : SameTruss s (s.keepShared n a l) := by
  unfold State.keepShared
  dsimp only
  split <;> exact .refl s

theorem digestGranule_sameTruss (s : State) (b space tid g mask : Nat) (l : List Byte) : SameTruss s (s.digestGranule b space tid g mask l) := by
  unfold State.digestGranule
  dsimp only
  split
  · exact sameTruss_modBay s b (f := fun y => { y with dlo := _, dhi := _ }) rfl
  · exact .refl s

theorem beginVersion_sameTruss (s : State) (c : Ctx) (x : Span) (q me : Nat) : SameTruss s (s.beginVersion c x q me) := by
  unfold State.beginVersion
  dsimp only
  split
  · exact .refl s
  · exact (keepShared_sameTruss s _ _ _).trans (write_sameTruss _ _ _)

theorem putSpan_sameTruss (s : State) (c : Ctx) (x : Span) (l : List Byte) : SameTruss s (s.putSpan c x l) := by
  unfold State.putSpan
  dsimp only
  split
  · exact (beginVersion_sameTruss (s.commitAt _ _) c x _ _).trans (write_sameTruss _ _ _)
  · exact write_sameTruss s _ _

theorem writeSpans_sameTruss (c : Ctx) (tid : Nat) : ∀ (l : List Span) (s : State) (bs : List Byte), SameTruss s (s.writeSpans c tid l bs)
  | [], s, _ => .refl s
  | x :: t, s, bs => by
    have hput := putSpan_sameTruss s c x (bs.take x.n)
    refine .trans ?_ (writeSpans_sameTruss c tid t _ (bs.drop x.n))
    rw [writeSpan_eq]
    split
    · exact hput.trans (digestGranule_sameTruss _ _ _ _ _ _ _)
    · exact hput

theorem readSpans_sameTruss (c : Ctx) (l : List Span) (s : State) : SameTruss s (s.readSpans c l).2 := by
  obtain ⟨m, hm⟩ := readSpans_onlyMeta c l s
  rw [hm]
  exact .refl s

theorem poke_sameTruss (s : State) (b : Nat) (v : View) (slot : Nat) (x : List Nat) (val : Nat) : SameTruss s (s.poke b v slot x val) := by
  unfold State.poke
  split
  · unfold State.writeElem
    split
    · exact (readSpans_sameTruss _ _ s).trans (writeSpans_sameTruss _ _ _ _ _)
    · split
      · exact (readSpans_sameTruss _ _ s).trans (writeSpans_sameTruss _ _ _ _ _)
      · exact writeSpans_sameTruss _ _ _ _ _
  · exact .refl s

theorem pokeFrom_sameTruss (b : Nat) (v : View) (slot : Nat) : ∀ (l : List Nat) (i : Nat) (s : State), SameTruss s (pokeFrom b v slot i l s)
  | [], _, s => .refl s
  | x :: t, i, s => (poke_sameTruss s b v slot _ x).trans (pokeFrom_sameTruss b v slot t (i + 1) _)

theorem foldl_sameTruss {ι : Type} {f : State → ι → State} (hf : ∀ s e, SameTruss s (f s e)) : ∀ (l : List ι) (s : State), SameTruss s (l.foldl f s)
  | [], s => .refl s
  | e :: t, s => (hf s e).trans (foldl_sameTruss hf t _)

end Sys2Proof.Machine
end

section
/-! Row writes, promotions and the start of a truss command (R262, R265, R271). -/

namespace Sys2Proof.Machine

/-! ### What a command of the truss may change besides memory -/

/-- Only trusses, what the bays of a bent share, and the flags of M streams may differ. -/
structure TrussMoves (s t : State) : Prop where
  rest : t = { s with bays := t.bays, bents := t.bents }
  bays : ∀ c, t.bay c = { s.bay c with truss := (t.bay c).truss, m := (t.bay c).m, dirty := (t.bay c).dirty }

theorem TrussMoves.refl (s : State) : TrussMoves s s := ⟨rfl, fun _ => rfl⟩

theorem TrussMoves.trans {s u t : State} (h₁ : TrussMoves s u) (h₂ : TrussMoves u t) : TrussMoves s t := by
  refine ⟨?_, fun c => ?_⟩
  · rw [h₂.rest, h₁.rest]
  · rw [h₂.bays c, h₁.bays c]

theorem TrussMoves.mem {s t : State} (h : TrussMoves s t) : t.mem = s.mem := (congrArg State.mem h.rest :)

theorem TrussMoves.sameMem {s t : State} (h : TrussMoves s t) : SameMem s t := fun a => congrArg (Memory.read · a) h.mem

theorem TrussMoves.partner {s t : State} (h : TrussMoves s t) (b : Nat) : t.partner b = s.partner b := by
  have hindex : (t.bay b).index = (s.bay b).index := (congrArg Bay.index (h.bays b) :)
  have hslot : (t.bay b).slotNo = (s.bay b).slotNo := (congrArg Bay.slotNo (h.bays b) :)
  have hjob (n : Nat) : t.job n = s.job n := (congrArg (State.job · n) h.rest :)
  simp only [State.partner, State.peerBay, State.jobOf, hindex, hslot, hjob]

theorem trussMoves_modBay (s : State) (b : Nat) {f : Bay → Bay}
    (hf : f (s.bay b) = { s.bay b with truss := (f (s.bay b)).truss, m := (f (s.bay b)).m, dirty := (f (s.bay b)).dirty }) : TrussMoves s (s.modBay b f) := by
  refine ⟨rfl, fun c => ?_⟩
  by_cases hc : c = b
  · rw [hc, State.modBay_bay_same]
    exact hf
  · rw [State.modBay_bay_ne _ _ _ hc]

theorem trussMoves_modTruss (s : State) (b : Nat) (f : TrussBay → TrussBay) : TrussMoves s (s.modTruss b f) := trussMoves_modBay s b rfl

theorem trussMoves_flags (s : State) (b : Nat) (f : BitVec 8) : TrussMoves s (s.orStreamFlags b .M f) := trussMoves_modBay s b rfl

@[simp] theorem State.modTruss_truss (s : State) (b : Nat) (f : TrussBay → TrussBay) : ((s.modTruss b f).bay b).truss = f (s.bay b).truss := by
  rw [State.modTruss, State.modBay_bay_same]

@[simp] theorem State.modTruss_rowsOf (s : State) (b : Nat) (f : TrussBay → TrussBay) (n : Nat) : (s.modTruss b f).rowsOf n = s.rowsOf n := rfl

@[simp] theorem State.flags_truss (s : State) (b : Nat) (f : BitVec 8) : ((s.orStreamFlags b .M f).bay b).truss = (s.bay b).truss := by
  rw [State.orStreamFlags, State.modBay_bay_same]
  rfl

@[simp] theorem State.flags_rowsOf (s : State) (b : Nat) (f : BitVec 8) (n : Nat) : (s.orStreamFlags b .M f).rowsOf n = s.rowsOf n := rfl

/-! ### Row writes -/

section
variable (s : State) (w : RowWrite)

theorem rowWrite_moves : TrussMoves s (s.rowWrite w) := ⟨rfl, fun _ => rfl⟩

@[simp] theorem State.rowWrite_bay (c : Nat) : (s.rowWrite w).bay c = s.bay c := rfl

theorem rowWrite_writes : ((s.rowWrite w).bent (w.owner / 8)).writes = (s.bent (w.owner / 8)).writes ++ [w] := by
  unfold State.rowWrite
  dsimp only
  rw [State.setBent_bent_same]

theorem rowWrite_rowsOf {b : Nat} (h : w.owner = b) : (s.rowWrite w).rowsOf (b / 8) = s.rowsOf (b / 8) ++ [((w.bay, w.base), w.op)] := by
  subst h
  rw [State.rowsOf, rowWrite_writes, List.map_append]
  rfl

end

/-- Row writes one after another, each with its place and effect. -/
theorem foldl_rowWrite {ι : Type} {b : Nat} {x : TrussBay} {f : State → ι → State} {g : ι → RowWrite} (hg : ∀ i, (g i).owner = b)
    (hf : ∀ s i, (s.bay b).truss = x → f s i = s.rowWrite (g i)) : ∀ (l : List ι) (s : State), (s.bay b).truss = x →
    let t := l.foldl f s
    TrussMoves s t ∧ (t.bay b).truss = x ∧ (t.bent (b / 8)).writes = (s.bent (b / 8)).writes ++ l.map g
  | [], s, hx => ⟨.refl s, hx, (List.append_nil _).symm⟩
  | i :: l, s, hx => by
    obtain ⟨hmoves, htruss, hwrites⟩ := foldl_rowWrite hg hf l (s.rowWrite (g i)) hx
    refine ⟨?_, ?_, ?_⟩
    · rw [List.foldl_cons, hf s i hx]
      exact (rowWrite_moves s _).trans hmoves
    · rw [List.foldl_cons, hf s i hx]
      exact htruss
    · have hfirst := rowWrite_writes s (g i)
      rw [hg i] at hfirst
      rw [List.foldl_cons, hf s i hx, hwrites, hfirst, List.append_assoc]
      rfl

theorem rowsOf_congr {s t : State} (h : t.bents = s.bents) (n : Nat) : t.rowsOf n = s.rowsOf n := by
  rw [State.rowsOf, State.rowsOf, State.bent, State.bent, h]

theorem rowsOf_of_writes {s t : State} {n : Nat} {l : List RowWrite} (h : (t.bent n).writes = (s.bent n).writes ++ l) :
    t.rowsOf n = s.rowsOf n ++ l.map fun w => ((w.bay, w.base), w.op) := by
  rw [State.rowsOf, h, List.map_append]
  rfl

/-- The row writes of a whole region. -/
theorem regionRows_queues (s : State) (b : Nat) (c : TrussCmd) (r : Region) (base : Nat) (op : Nat → RowOp) :
    let t := regionRows b c r base op s
    TrussMoves s t ∧ (t.bay b).truss = (s.bay b).truss ∧
      (t.bent (b / 8)).writes.map (fun x => (x.bay, x.base, x.n)) = (s.bent (b / 8)).writes.map (fun x => (x.bay, x.base, x.n)) ++
        (List.range r.rows).map (fun m => (b, base + m * r.cols, r.cols)) ∧
      t.rowsOf (b / 8) = s.rowsOf (b / 8) ++ (List.range r.rows).map fun m => ((b, base + m * r.cols), op m) := by
  obtain ⟨hmoves, htruss, hwrites⟩ := foldl_rowWrite (b := b) (x := (s.bay b).truss)
    (f := fun s m => s.rowWrite { owner := b, bay := b, id := (s.bay b).truss.taken, base := base + m * r.cols, n := r.cols, i32 := r.i32, wmask := c.wmask, op := op m })
    (g := fun m => { owner := b, bay := b, id := (s.bay b).truss.taken, base := base + m * r.cols, n := r.cols, i32 := r.i32, wmask := c.wmask, op := op m })
    (fun _ => rfl) (fun u m hu => by rw [hu]) (List.range r.rows) s rfl
  refine ⟨hmoves, htruss, ?_, ?_⟩
  · unfold regionRows
    rw [hwrites, List.map_append, List.map_map]
    rfl
  · unfold regionRows
    rw [rowsOf_of_writes hwrites, List.map_map]
    rfl

/-! ### Promotions -/

/-- The promotion of row `m` of a binding. -/
def TrussBay.promotion (x : TrussBay) (b far m : Nat) (v : List Int) : (Nat × Nat) × RowOp :=
  (x.rowAt b far m, .promote v x.blg (x.firsts.contains m))

theorem pending_eq (s : State) (b : Nat) :
    s.pending b = if (s.bay b).truss.pend then (s.bay b).truss.inner.map fun e => (s.bay b).truss.promotion b (s.partner b) e.1 e.2 else [] := rfl

/-- A row with inner values: they go into a row write, and are cleared. -/
theorem promoteRow_some {s : State} {b m : Nat} {v : List Int} {e : Nat × List Int} (hfind : (s.bay b).truss.inner.find? (fun x => x.1 = m) = some e) (hv : e.2 = v) :
    let x := (s.bay b).truss
    let t := promoteRow b m s
    TrussMoves s t ∧ (t.bay b).truss = { x with inner := Tab.erase m x.inner, firsts := x.firsts.filter (· != m) } ∧
      t.rowsOf (b / 8) = s.rowsOf (b / 8) ++ [x.promotion b (s.partner b) m v] := by
  obtain ⟨k, v'⟩ := e
  subst hv
  unfold promoteRow
  dsimp only
  rw [hfind]
  dsimp only
  refine ⟨(rowWrite_moves s _).trans (trussMoves_modTruss _ _ _), State.modTruss_truss _ _ _, ?_⟩
  rw [State.modTruss_rowsOf, rowWrite_rowsOf s _ (b := b) rfl, TrussBay.promotion, TrussBay.rowAt]
  congr 2
  dsimp only
  split <;> rfl

theorem filter_ne_contains {l : List Nat} {m k : Nat} (h : k ≠ m) : (l.filter (· != m)).contains k = l.contains k := by
  rw [Bool.eq_iff_iff, List.contains_iff_mem, List.contains_iff_mem, List.mem_filter]
  exact and_iff_left (bne_iff_ne.2 h)

/-- Rows promoted one after another. -/
theorem promoteRows_all {b : Nat} : ∀ (l : List (Nat × List Int)) (s : State), (s.bay b).truss.inner = l → (l.map fun e => e.1).Nodup →
    let x := (s.bay b).truss
    let t := (l.map fun e => e.1).foldl (fun s m => promoteRow b m s) s
    TrussMoves s t ∧ (∃ k, (t.bay b).truss = { x with inner := [], firsts := k }) ∧
      t.rowsOf (b / 8) = s.rowsOf (b / 8) ++ l.map fun e => x.promotion b (s.partner b) e.1 e.2
  | [], s, hinner, _ => ⟨.refl s, ⟨(s.bay b).truss.firsts, by rw [List.map_nil, List.foldl_nil, ← hinner]⟩, (List.append_nil _).symm⟩
  | (m, v) :: l, s, hinner, hnodup => by
    obtain ⟨hm, hl⟩ := List.nodup_cons.1 hnodup
    have hfind : (s.bay b).truss.inner.find? (fun x => x.1 = m) = some (m, v) := by rw [hinner]; simp
    obtain ⟨hmoves, htruss, hrows⟩ := promoteRow_some hfind rfl
    have herase : Tab.erase m ((m, v) :: l) = l := by
      have hskip : Tab.erase m ((m, v) :: l) = Tab.erase m l := if_pos rfl
      rw [hskip]
      exact Tab.erase_not fun x hx he => hm (List.mem_map.2 ⟨x, hx, he⟩)
    rw [hinner, herase] at htruss
    obtain ⟨hmoves', ⟨k, htruss'⟩, hrows'⟩ := promoteRows_all l (promoteRow b m s) (by rw [htruss]) hl
    refine ⟨hmoves.trans hmoves', ⟨k, htruss'.trans (by rw [htruss])⟩, ?_⟩
    have hpromotion : ∀ e ∈ l, ((promoteRow b m s).bay b).truss.promotion b ((promoteRow b m s).partner b) e.1 e.2 =
        (s.bay b).truss.promotion b (s.partner b) e.1 e.2 := fun e he => by
      have hne : e.1 ≠ m := fun h => hm (List.mem_map.2 ⟨e, he, h⟩)
      rw [htruss, hmoves.partner, TrussBay.promotion, TrussBay.promotion, filter_ne_contains hne]
      rfl
    refine hrows'.trans ?_
    rw [hrows, List.append_assoc, List.map_congr_left hpromotion]
    rfl

/-- The truss's part of a bay once every pending row has been promoted. -/
def TrussBay.promoted (x : TrussBay) : TrussBay := if x.pend then { x with inner := [], firsts := [], pend := false, passes := 0 } else x

theorem TrussBay.promoted_pend (x : TrussBay) : x.promoted.pend = false := by
  unfold TrussBay.promoted
  split
  · rfl
  · rename_i h
    exact Bool.eq_false_iff.2 h

theorem TrussBay.promoted_passes (x : TrussBay) : x.promoted.passes = if x.pend then 0 else x.passes := by
  unfold TrussBay.promoted
  split <;> rfl

/-- What the promotion of all rows leaves: the same truss but for inner values, PEND and PASSES. -/
theorem TrussBay.promoted_eta (x : TrussBay) :
    x.promoted = { x with inner := x.promoted.inner, firsts := x.promoted.firsts, pend := false, passes := x.promoted.passes } := by
  unfold TrussBay.promoted
  split
  · rfl
  · rename_i h
    rw [← Bool.eq_false_iff.2 h]

theorem promoteAll_promotes {s : State} {b : Nat} (hnodup : ((s.bay b).truss.inner.map fun x => x.1).Nodup) :
    let t := promoteAll b s
    TrussMoves s t ∧ (t.bay b).truss = (s.bay b).truss.promoted ∧ t.rowsOf (b / 8) = s.rowsOf (b / 8) ++ s.pending b := by
  rw [pending_eq]
  unfold promoteAll TrussBay.promoted
  cases hpend : (s.bay b).truss.pend with
  | false => exact ⟨.refl s, rfl, (List.append_nil _).symm⟩
  | true =>
    obtain ⟨hmoves, ⟨k, htruss⟩, hrows⟩ := promoteRows_all (s.bay b).truss.inner s rfl hnodup
    rw [if_neg (by decide)]
    refine ⟨hmoves.trans (trussMoves_modTruss _ b _), ?_, hrows⟩
    refine (State.modTruss_truss _ _ _).trans ?_
    rw [htruss]
    rfl

/-! ### The start of a command -/

/-- The command as the truss has taken it. -/
def TrussCmd.taken (c : TrussCmd) (x : TrussBay) : TrussCmd := { c with id := x.taken + 1 }

/-- The truss's part of a bay that has taken the command `c`, before `q`. -/
def TrussBay.begins (x : TrussBay) (c : TrussCmd) (q : List TrussCmd) : TrussBay :=
  { x with queue := q, taken := x.taken + 1, cnt := if c.op = .free then x.cnt else min 64 (x.cnt + 1), bwmask := if c.uses.contains 5 then c.wmask else x.bwmask }

/-- The state in which a command runs. -/
def State.begun (s : State) (b : Nat) (c : TrussCmd) (q : List TrussCmd) : State := s.modTruss b fun x => x.begins c q

/-- The command enters the list of those in flight. -/
def TrussCmd.flies (c : TrussCmd) (opens : List Nat) (t : TrussBay) : TrussBay := { t with running := t.running ++ [{ c with sets := openChanges opens t.opens }] }

section
variable {s v : State} {bent b : Nat} {c : TrussCmd} {q : List TrussCmd}

theorem holder_bent (h : s.holder bent = some b) : b / 8 = bent := by
  have hmem := List.mem_of_find?_eq_some h
  obtain ⟨i, hi, rfl⟩ := List.mem_map.1 hmem
  have hi := List.mem_range.1 hi
  omega

theorem exec_start (hholder : s.holder bent = some b) (hlive : (s.bay b).live = true) (hfree : s.trussFree b = true) (hqueue : (s.bay b).truss.queue = c :: q) :
    exec (.trussCommandStart bent) s = .next (match runCmd b (c.taken (s.bay b).truss) (s.begun b c q) with
      | .ok v => afterCmd b (c.taken (s.bay b).truss) (v.modTruss b ((c.taken (s.bay b).truss).flies (s.bay b).truss.opens))
      | .error (.trap rc) => afterCmd b (c.taken (s.bay b).truss) (trussFault b (c.taken (s.bay b).truss) rc (s.begun b c q))
      | .error _ => afterCmd b (c.taken (s.bay b).truss) (trussFault b (c.taken (s.bay b).truss) {} (s.begun b c q))) := by
  show execTrussCommandStart bent s = _
  unfold execTrussCommandStart
  rw [hholder]
  dsimp only
  rw [hlive, hfree, if_pos (by decide)]
  unfold startCmd
  rw [hqueue]
  rfl

/-- Below 64 commands the lease goes on. -/
theorem afterCmd_keeps {t : State} (hop : c.op ≠ .free) (hcnt : (t.bay b).truss.cnt < 64) : afterCmd b c t = t := by
  unfold afterCmd
  dsimp only
  have hfree : decide (c.op = .free) = false := decide_eq_false hop
  have hbelow : decide ((t.bay b).truss.cnt ≥ 64) = false := decide_eq_false (by omega)
  rw [hfree, hbelow, Bool.false_and, Bool.or_false, if_neg (by decide)]

/-- What a command leaves of the queue, of the counts and of the commands in flight. -/
structure KeepsQueue (u v : State) (b : Nat) : Prop where
  queue : (v.bay b).truss.queue = (u.bay b).truss.queue
  taken : (v.bay b).truss.taken = (u.bay b).truss.taken
  cnt : (v.bay b).truss.cnt = (u.bay b).truss.cnt
  running : (v.bay b).truss.running = (u.bay b).truss.running

theorem begun_truss (s : State) (b : Nat) (c : TrussCmd) (q : List TrussCmd) : ((s.begun b c q).bay b).truss = (s.bay b).truss.begins c q := State.modTruss_truss _ _ _

variable (hstarts : Starts s bent b c q)
include hstarts

theorem Starts.cnt_begins : ((s.bay b).truss.begins c q).cnt = (s.bay b).truss.cnt + 1 := by
  obtain ⟨-, -, -, -, hcnt, hop⟩ := hstarts
  unfold TrussBay.begins
  dsimp only
  rw [if_neg hop]
  omega

/-- A command that runs is in flight from then on. -/
theorem start_taken (hrun : runCmd b (c.taken (s.bay b).truss) (s.begun b c q) = .ok v) (hkeeps : KeepsQueue (s.begun b c q) v b) :
    let t := v.modTruss b ((c.taken (s.bay b).truss).flies (s.bay b).truss.opens)
    exec (.trussCommandStart bent) s = .next t ∧ Taken s t b c q := by
  have hcnt := hstarts.cnt_begins
  obtain ⟨hholder, hlive, hfree, hqueue, hroom, hop⟩ := hstarts
  obtain ⟨hkqueue, hktaken, hkcnt, hkrunning⟩ := hkeeps
  rw [begun_truss] at hkqueue hktaken hkcnt hkrunning
  intro t
  have htruss : (t.bay b).truss = (c.taken (s.bay b).truss).flies (s.bay b).truss.opens (v.bay b).truss := State.modTruss_truss _ _ _
  refine ⟨?_, ?_⟩
  · rw [exec_start hholder hlive hfree hqueue, hrun]
    refine congrArg Host.Outcome.next (afterCmd_keeps hop ?_)
    show (t.bay b).truss.cnt < 64
    rw [htruss]
    show (v.bay b).truss.cnt < 64
    omega
  · refine ⟨?_, ?_, ?_, ?_⟩
    · rw [htruss]
      exact hkqueue
    · rw [htruss]
      exact hktaken
    · rw [htruss]
      exact hkcnt.trans hcnt
    · rw [htruss]
      exact congrArg (· ++ _) hkrunning

/-- A command that faults leaves the slabs, the inner values and the row writes, and halts the M stream with its cause. -/
theorem start_faults {rc : FaultRec} (hrun : runCmd b (c.taken (s.bay b).truss) (s.begun b c q) = .error (.trap rc)) :
    ∃ t, exec (.trussCommandStart bent) s = .next t ∧ TrussFaulted s t b rc.cause := by
  have hcnt := hstarts.cnt_begins
  obtain ⟨hholder, hlive, hfree, hqueue, hroom, hop⟩ := hstarts
  have hbegun := begun_truss s b c q
  have hm : ((s.begun b c q).bay b).m = (s.bay b).m := by rw [State.begun, State.modTruss, State.modBay_bay_same]
  have hexec := exec_start hholder hlive hfree hqueue
  rw [hrun] at hexec
  unfold trussFault at hexec
  dsimp only at hexec
  generalize (c.taken (s.bay b).truss).push ++ ((s.begun b c q).bay b).truss.queue.flatMap (fun x => x.push) = ps at hexec
  generalize hw : ((s.begun b c q).modBay b fun y => y.returnDeferred ps).modTruss b (fun t => { t with queue := [] }) = w at hexec
  have hwbay : w.bay b = { ((s.begun b c q).bay b).returnDeferred ps with truss := { (s.bay b).truss.begins c q with queue := [] } } := by
    rw [← hw, State.modTruss, State.modBay_modBay, State.modBay_bay_same, ← hbegun, Bay.returnDeferred_eta]
  have hwtruss : (w.bay b).truss = { (s.bay b).truss.begins c q with queue := [] } := (congrArg Bay.truss hwbay :)
  have hwm : (w.bay b).m = (s.bay b).m := by
    refine (congrArg Bay.m hwbay :).trans ?_
    rw [Bay.returnDeferred_eta]
    exact hm
  have hwmem : w.mem = s.mem := by rw [← hw]; rfl
  have hwbents : w.bents = s.bents := by rw [← hw]; rfl
  by_cases hrc : (s.bay b).m.rc.isSome = true
  · rw [hwm, if_pos hrc, afterCmd_keeps (c := c.taken (s.bay b).truss) hop (by rw [hwtruss]; exact hcnt ▸ by omega)] at hexec
    refine ⟨w, hexec, ?_⟩
    unfold TrussFaulted
    dsimp only
    rw [hwtruss]
    refine ⟨rfl, rfl, rfl, rfl, rfl, rfl, rfl, rfl, rowsOf_congr hwbents _,
      fun a => congrArg (Memory.read · a) hwmem, fun hnone => ?_⟩
    rw [hnone] at hrc
    cases hrc
  · rw [hwm, if_neg hrc] at hexec
    have hhalt := haltStream_stream w b (e := .M) (by decide) { rc with rst := false, eng := 2, pc := (c.taken (s.bay b).truss).pc }
    have hhtruss : ((w.haltStream b .M { rc with rst := false, eng := 2, pc := (c.taken (s.bay b).truss).pc }).bay b).truss = (w.bay b).truss := by
      rw [State.haltStream, State.modBay_bay_same]
      rfl
    rw [afterCmd_keeps (c := c.taken (s.bay b).truss) hop (by rw [hhtruss, hwtruss]; exact hcnt ▸ by omega)] at hexec
    refine ⟨_, hexec, ?_⟩
    unfold TrussFaulted
    dsimp only
    rw [hhtruss, hwtruss]
    refine ⟨rfl, rfl, rfl, rfl, rfl, rfl, rfl, rfl, rowsOf_congr hwbents _,
      fun a => congrArg (Memory.read · a) hwmem, fun _ => ⟨_, (congrArg Stream.rc hhalt :), rfl⟩⟩

end

end Sys2Proof.Machine
end

section
/-! The truss's commands over bindings and regions (R255, R264, R267 to R269), its row writes (R265), and TLOADB (R261). -/

namespace Sys2Proof.Machine

/-! ### What a command finds and leaves -/

section
variable {s v : State} {bent b : Nat} {c : TrussCmd} {q : List TrussCmd}

theorem begun_moves (s : State) (b : Nat) (c : TrussCmd) (q : List TrussCmd) : TrussMoves s (s.begun b c q) := trussMoves_modTruss _ _ _

theorem begun_apart (s : State) (b : Nat) (c : TrussCmd) (q : List TrussCmd) : TrussApart s (s.begun b c q) := trussApart_modTruss _ _ _

theorem begun_pending (s : State) (b : Nat) (c : TrussCmd) (q : List TrussCmd) : (s.begun b c q).pending b = s.pending b := by
  rw [pending_eq, pending_eq, begun_truss, (begun_moves s b c q).partner]
  rfl

theorem begun_nodup (h : ((s.bay b).truss.inner.map fun x => x.1).Nodup) : (((s.begun b c q).bay b).truss.inner.map fun x => x.1).Nodup := by
  rw [begun_truss]
  exact h

/-- A command that runs without a write of memory is in flight from then on, and the truss stands as the command left it. -/
theorem start_moves (hstarts : Starts s bent b c q) (hrun : runCmd b (c.taken (s.bay b).truss) (s.begun b c q) = .ok v)
    (hkeeps : KeepsQueue (s.begun b c q) v b) (hmoves : TrussMoves (s.begun b c q) v) :
    ∃ t, exec (.trussCommandStart bent) s = .next t ∧ (Taken s t b c q ∧ SameMem s t) ∧
      (∃ l, (t.bay b).truss = { (v.bay b).truss with running := l }) ∧ t.bents = v.bents := by
  obtain ⟨hexec, htaken⟩ := start_taken hstarts hrun hkeeps
  exact ⟨_, hexec, ⟨htaken, ((begun_moves s b c q).trans hmoves).sameMem⟩, ⟨_, State.modTruss_truss _ _ _⟩, rfl⟩

end

/-! ### Promotions: TFREE, TPROMO and TDRAIN -/

section
variable {s : State} {bent b : Nat} {c : TrussCmd} {q : List TrussCmd}

theorem promoted_keepsQueue {u v : State} (h : (v.bay b).truss = (u.bay b).truss.promoted) : KeepsQueue u v b := by
  rw [TrussBay.promoted_eta] at h
  exact ⟨(congrArg TrussBay.queue h :), (congrArg TrussBay.taken h :), (congrArg TrussBay.cnt h :), (congrArg TrussBay.running h :)⟩

theorem TrussBay.promoted_inner {x : TrussBay} (h : x.pend = true) : x.promoted.inner = [] := by rw [TrussBay.promoted, if_pos h]

theorem leaseEnd_truss {u : State} (hnodup : ((u.bay b).truss.inner.map fun x => x.1).Nodup) :
    let t := leaseEnd b u
    TrussMoves u t ∧ t.rowsOf (b / 8) = u.rowsOf (b / 8) ++ u.pending b ∧ (t.bay b).truss.queue = (u.bay b).truss.queue ∧ (t.bay b).truss.held = false ∧
      (t.bay b).truss.cnt = 0 ∧ (t.bay b).truss.pend = false ∧ (t.bay b).truss.req = ((u.bay b).truss.req || !(u.bay b).truss.queue.isEmpty) := by
  obtain ⟨hmoves, htruss, hrows⟩ := promoteAll_promotes hnodup
  rw [TrussBay.promoted_eta] at htruss
  dsimp only
  rw [leaseEnd, State.modTruss_truss, State.modTruss_rowsOf, htruss]
  exact ⟨hmoves.trans (trussMoves_modTruss _ _ _), hrows, rfl, rfl, rfl, rfl, rfl⟩

theorem trussStart_free (hholder : s.holder bent = some b) (hlive : (s.bay b).live = true) (hfree : s.trussFree b = true)
    (hqueue : (s.bay b).truss.queue = c :: q) (hop : c.op = .free) (hnodup : ((s.bay b).truss.inner.map fun x => x.1).Nodup) :
    ∃ t, exec (.trussCommandStart bent) s = .next t ∧ (t.bay b).truss.queue = q ∧ (t.bay b).truss.held = false ∧ (t.bay b).truss.cnt = 0 ∧
      (t.bay b).truss.pend = false ∧ (t.bay b).truss.req = ((s.bay b).truss.req || !q.isEmpty) ∧ t.rowsOf (b / 8) = s.rowsOf (b / 8) ++ s.pending b ∧
      SameMem s t := by
  have hexec := exec_start hholder hlive hfree hqueue
  have hrun : runCmd b (c.taken (s.bay b).truss) (s.begun b c q) = .ok (s.begun b c q) := by
    unfold runCmd TrussCmd.taken
    dsimp only
    rw [hop]
  rw [hrun] at hexec
  dsimp only at hexec
  generalize hu : (s.begun b c q).modTruss b ((c.taken (s.bay b).truss).flies (s.bay b).truss.opens) = u at hexec
  have hutruss : (u.bay b).truss = (c.taken (s.bay b).truss).flies (s.bay b).truss.opens ((s.bay b).truss.begins c q) := by
    rw [← hu, State.modTruss_truss, begun_truss]
  have humoves : TrussMoves s u := by
    rw [← hu]
    exact (begun_moves s b c q).trans (trussMoves_modTruss _ _ _)
  have hpending : u.pending b = s.pending b := by
    rw [pending_eq, pending_eq, hutruss, humoves.partner]
    rfl
  have hafter : afterCmd b (c.taken (s.bay b).truss) u = leaseEnd b u := by
    unfold afterCmd
    dsimp only
    have hfreed : decide ((c.taken (s.bay b).truss).op = .free) = true := decide_eq_true hop
    rw [hfreed, Bool.true_or, if_pos rfl]
  obtain ⟨hmoves, hrows, hq, hheld, hcnt, hpend, hreq⟩ := leaseEnd_truss (u := u) (b := b) (by rw [hutruss]; exact hnodup)
  rw [hutruss] at hq hreq
  rw [hafter] at hexec
  exact ⟨_, hexec, hq, hheld, hcnt, hpend, hreq, by rw [hrows, hpending, ← hu]; rfl, (humoves.trans hmoves).sameMem⟩

variable (hstarts : Starts s bent b c q)
include hstarts

theorem trussStart_promotes (hop : c.op = .promo ∨ c.op = .drain) (hnodup : ((s.bay b).truss.inner.map fun x => x.1).Nodup) :
    ∃ t, exec (.trussCommandStart bent) s = .next t ∧ (Taken s t b c q ∧ SameMem s t) ∧ t.rowsOf (b / 8) = s.rowsOf (b / 8) ++ s.pending b ∧
      ((s.bay b).truss.pend = true → (t.bay b).truss.inner = []) ∧ (t.bay b).truss.pend = false ∧
      (t.bay b).truss.passes = (if (s.bay b).truss.pend then 0 else (s.bay b).truss.passes) ∧
      (c.op = .drain → (t.bay b).truss.bz = 0 ∧ (t.bay b).truss.brows = 0) := by
  obtain ⟨hmoves, htruss, hrows⟩ := promoteAll_promotes (s := s.begun b c q) (begun_nodup hnodup)
  have hkeeps := promoted_keepsQueue htruss
  rw [begun_truss] at htruss
  rw [begun_pending] at hrows
  rcases hop with hop | hop
  · have hrun : runCmd b (c.taken (s.bay b).truss) (s.begun b c q) = .ok (promoteAll b (s.begun b c q)) := by
      unfold runCmd TrussCmd.taken
      dsimp only
      rw [hop]
    obtain ⟨t, hexec, hleft, ⟨l, ht⟩, hbents⟩ := start_moves hstarts hrun hkeeps hmoves
    rw [htruss] at ht
    refine ⟨t, hexec, hleft, (rowsOf_congr hbents _).trans hrows, fun hpend => ?_, ?_, ?_, fun hdrain => ?_⟩
    · rw [ht]
      exact TrussBay.promoted_inner hpend
    · rw [ht]
      exact TrussBay.promoted_pend _
    · rw [ht]
      exact TrussBay.promoted_passes _
    · rw [hop] at hdrain
      cases hdrain
  · have hrun : runCmd b (c.taken (s.bay b).truss) (s.begun b c q) = .ok (runDrain b (s.begun b c q)) := by
      unfold runCmd TrussCmd.taken
      dsimp only
      rw [hop]
    have hdrained : ((runDrain b (s.begun b c q)).bay b).truss =
        { ((s.bay b).truss.begins c q).promoted with bz := 0, bshd := false, bsplit := false, brows := 0 } := by
      rw [runDrain, State.modTruss_truss, htruss]
    obtain ⟨t, hexec, hleft, ⟨l, ht⟩, hbents⟩ := start_moves hstarts hrun
      ⟨by rw [hdrained, ← hkeeps.queue, htruss], by rw [hdrained, ← hkeeps.taken, htruss], by rw [hdrained, ← hkeeps.cnt, htruss],
        by rw [hdrained, ← hkeeps.running, htruss]⟩ (hmoves.trans (trussMoves_modTruss _ _ _))
    rw [hdrained] at ht
    refine ⟨t, hexec, hleft, (rowsOf_congr hbents _).trans hrows, fun hpend => ?_, ?_, ?_, fun _ => ?_⟩
    · rw [ht]
      exact TrussBay.promoted_inner hpend
    · rw [ht]
      exact TrussBay.promoted_pend _
    · rw [ht]
      exact TrussBay.promoted_passes _
    · rw [ht]
      exact ⟨rfl, rfl⟩

/-! ### Regions: TZERO, TCOMMIT and TDISCARD -/

omit hstarts in
/-- The truss's part of a bay once the prediction of region `z` has closed. -/
theorem setOpen_closes (u : State) (b z : Nat) :
    ((u.setOpen b z false).bay b).truss = { (u.bay b).truss with opens := (u.bay b).truss.opens.filter (· != z) } ∧
      TrussMoves u (u.setOpen b z false) ∧ (u.setOpen b z false).bents = u.bents := by
  refine ⟨?_, trussMoves_modBay _ _ rfl, rfl⟩
  rw [State.setOpen, State.modBay_bay_same]
  rfl

omit hstarts in
theorem not_isOpen_of_filter {y : Bay} {z : Nat} {l : List Nat} (h : y.truss.opens = l.filter (· != z)) : y.isOpen z = false := by
  rw [Bay.isOpen, h]
  simp

/-- The inner values that TDISCARD leaves. -/
theorem trussStart_discards (hrun : runCmd b (c.taken (s.bay b).truss) (s.begun b c q) = .ok (runDiscard b (c.taken (s.bay b).truss) (s.begun b c q))) :
    ∃ t, exec (.trussCommandStart bent) s = .next t ∧ (Taken s t b c q ∧ SameMem s t) ∧ (t.bay b).isOpen c.z = false ∧
      t.rowsOf (b / 8) = s.rowsOf (b / 8) ∧
      (t.bay b).truss.inner = (if (s.bay b).truss.shadowOf c.z then [] else (s.bay b).truss.inner) ∧
      (t.bay b).truss.pend = ((s.bay b).truss.pend && !(s.bay b).truss.shadowOf c.z) := by
  let x := (s.bay b).truss.begins c q
  have hshadow : x.shadowOf c.z = (s.bay b).truss.shadowOf c.z := rfl
  obtain ⟨htruss, hmoves, hbents⟩ := setOpen_closes ((s.begun b c q).modTruss b fun t => if t.shadowOf c.z then t.dropInner else t) b c.z
  rw [State.modTruss_truss, begun_truss] at htruss
  have hdropped : (if x.shadowOf c.z then x.dropInner else x) = { x with
      inner := if (s.bay b).truss.shadowOf c.z then [] else x.inner, firsts := if (s.bay b).truss.shadowOf c.z then [] else x.firsts,
      pend := x.pend && !(s.bay b).truss.shadowOf c.z } := by
    rw [hshadow]
    cases (s.bay b).truss.shadowOf c.z with
    | false => rw [if_neg (by decide), if_neg (by decide), if_neg (by decide), Bool.not_false, Bool.and_true]
    | true => rw [if_pos rfl, if_pos rfl, if_pos rfl, Bool.not_true, Bool.and_false]; rfl
  rw [hdropped] at htruss
  obtain ⟨t, hexec, hleft, ⟨l, ht⟩, htbents⟩ := start_moves hstarts hrun
    ⟨(congrArg TrussBay.queue htruss :).trans (by rw [begun_truss]), (congrArg TrussBay.taken htruss :).trans (by rw [begun_truss]),
      (congrArg TrussBay.cnt htruss :).trans (by rw [begun_truss]), (congrArg TrussBay.running htruss :).trans (by rw [begun_truss])⟩
    ((trussMoves_modTruss _ _ _).trans hmoves)
  have hv : runDiscard b (c.taken (s.bay b).truss) (s.begun b c q) =
      ((s.begun b c q).modTruss b fun t => if t.shadowOf c.z then t.dropInner else t).setOpen b c.z false := rfl
  rw [hv, htruss] at ht
  refine ⟨t, hexec, hleft, not_isOpen_of_filter (congrArg TrussBay.opens ht :), (rowsOf_congr (htbents.trans hbents) _), ?_, ?_⟩
  · rw [ht]
    rfl
  · rw [ht]
    rfl

omit hstarts in
theorem runCmd_discard {r : Region} (hop : c.op = .discard ∨ c.op = .commit ∧ c.keep = false ∧ regionOf (nth 0 c.zs 0) = .ok r) :
    runCmd b (c.taken (s.bay b).truss) (s.begun b c q) = .ok (runDiscard b (c.taken (s.bay b).truss) (s.begun b c q)) := by
  rcases hop with hop | ⟨hop, hkeep, hregion⟩
  · unfold runCmd
    rw [show (c.taken (s.bay b).truss).op = .discard from hop]
  · unfold runCmd
    rw [show (c.taken (s.bay b).truss).op = .commit from hop]
    dsimp only
    unfold runCommit
    rw [show regionOf (nth 0 (c.taken (s.bay b).truss).zs 0) = .ok r from hregion, show (c.taken (s.bay b).truss).keep = false from hkeep]
    rfl

theorem trussStart_commits {r : Region} (hop : c.op = .commit) (hkeep : c.keep = true) (hregion : regionOf (nth 0 c.zs 0) = .ok r)
    (hnodup : ((s.bay b).truss.inner.map fun x => x.1).Nodup) :
    let shadow := (s.bay b).truss.shadowOf c.z
    ∃ t, exec (.trussCommandStart bent) s = .next t ∧ (Taken s t b c q ∧ SameMem s t) ∧ (t.bay b).isOpen c.z = false ∧
      (shadow = true → (t.bay b).truss.inner = [] ∧ (t.bay b).truss.pend = false) ∧
      t.rowsOf (b / 8) = s.rowsOf (b / 8) ++ (if shadow then s.pending b else []) ++
        (List.range r.rows).map fun m => ((b, r.base + m * r.cols), RowOp.copy (r.sbase + m * r.cols)) := by
  intro shadow
  have hshadow : ((s.begun b c q).bay b).truss.shadowOf c.z = shadow := by
    rw [begun_truss]
    rfl
  obtain ⟨u, hu, humoves, hutruss, hurows⟩ : ∃ u, (if shadow then promoteAll b (s.begun b c q) else s.begun b c q) = u ∧ TrussMoves (s.begun b c q) u ∧
      (u.bay b).truss = (if shadow then ((s.begun b c q).bay b).truss.promoted else ((s.begun b c q).bay b).truss) ∧
      u.rowsOf (b / 8) = s.rowsOf (b / 8) ++ if shadow then s.pending b else [] := by
    cases shadow with
    | false => exact ⟨_, rfl, .refl _, rfl, (List.append_nil _).symm⟩
    | true =>
      obtain ⟨hmoves, htruss, hrows⟩ := promoteAll_promotes (s := s.begun b c q) (begun_nodup hnodup)
      rw [begun_pending] at hrows
      exact ⟨_, rfl, hmoves, htruss, hrows⟩
  have hkeeps : KeepsQueue (s.begun b c q) u b := by
    rcases Bool.eq_false_or_eq_true shadow with hs | hs
    · rw [hs, if_pos rfl] at hutruss
      exact promoted_keepsQueue hutruss
    · rw [hs, if_neg (by decide)] at hutruss
      exact ⟨by rw [hutruss], by rw [hutruss], by rw [hutruss], by rw [hutruss]⟩
  obtain ⟨hrmoves, hrtruss, -, hrrows⟩ := regionRows_queues u b (c.taken (s.bay b).truss) r r.base fun m => .copy (r.sbase + m * r.cols)
  obtain ⟨hctruss, hcmoves, hcbents⟩ := setOpen_closes (regionRows b (c.taken (s.bay b).truss) r r.base (fun m => .copy (r.sbase + m * r.cols)) u) b c.z
  have hrun : runCmd b (c.taken (s.bay b).truss) (s.begun b c q) =
      .ok ((regionRows b (c.taken (s.bay b).truss) r r.base (fun m => .copy (r.sbase + m * r.cols)) u).setOpen b c.z false) := by
    unfold runCmd
    rw [show (c.taken (s.bay b).truss).op = .commit from hop]
    dsimp only
    unfold runCommit
    rw [show regionOf (nth 0 (c.taken (s.bay b).truss).zs 0) = .ok r from hregion, show (c.taken (s.bay b).truss).keep = true from hkeep]
    rw [← hu, ← hshadow]
    rfl
  rw [hrtruss] at hctruss
  obtain ⟨t, hexec, hleft, ⟨l, ht⟩, htbents⟩ := start_moves hstarts hrun
    ⟨by rw [hctruss, ← hkeeps.queue], by rw [hctruss, ← hkeeps.taken], by rw [hctruss, ← hkeeps.cnt], by rw [hctruss, ← hkeeps.running]⟩
    ((humoves.trans hrmoves).trans hcmoves)
  rw [hctruss] at ht
  refine ⟨t, hexec, hleft, not_isOpen_of_filter (congrArg TrussBay.opens ht :), fun hs => ?_, ?_⟩
  · rw [ht, hutruss, hs, if_pos rfl]
    have hpend : ((s.begun b c q).bay b).truss.pend = true := by
      have h := hshadow.trans hs
      unfold TrussBay.shadowOf at h
      simp only [Bool.and_eq_true] at h
      exact h.1.1
    exact ⟨TrussBay.promoted_inner hpend, TrussBay.promoted_pend _⟩
  · rw [rowsOf_congr (htbents.trans hcbents), hrrows, hurows]

theorem trussStart_zeroes {r : Region} (hop : c.op = .zero) (hregion : regionOf (nth 0 c.zs 0) = .ok r) :
    ∃ t, exec (.trussCommandStart bent) s = .next t ∧ (Taken s t b c q ∧ SameMem s t) ∧
      (t.bent (b / 8)).writes.map (fun x => (x.bay, x.base, x.n)) = (s.bent (b / 8)).writes.map (fun x => (x.bay, x.base, x.n)) ++
        (List.range r.rows).map fun m => (b, r.at c.shadow + m * r.cols, r.cols) := by
  obtain ⟨u, hu, humoves, hkeeps, hubents⟩ : ∃ u, ((if c.shadow then (s.begun b c q).setOpen b c.z true else s.begun b c q).modTruss b fun t =>
      if t.pend && t.bz.toNat == c.z && t.bshd == c.shadow then t.dropInner else t) = u ∧ TrussMoves (s.begun b c q) u ∧ KeepsQueue (s.begun b c q) u b ∧
      u.bents = s.bents := by
    have hdrop (x : TrussBay) (p : Bool) : (if p then x.dropInner else x).queue = x.queue ∧ (if p then x.dropInner else x).taken = x.taken ∧
        (if p then x.dropInner else x).cnt = x.cnt ∧ (if p then x.dropInner else x).running = x.running := by
      cases p <;> exact ⟨rfl, rfl, rfl, rfl⟩
    have hopened : ∀ w, ((s.begun b c q).setOpen b c.z true = w ∨ s.begun b c q = w) → TrussMoves (s.begun b c q) w ∧ KeepsQueue (s.begun b c q) w b ∧
        w.bents = s.bents := fun w hw => by
      rcases hw with rfl | rfl
      · have htruss : (((s.begun b c q).setOpen b c.z true).bay b).truss =
            { ((s.begun b c q).bay b).truss with opens := addLine ((s.begun b c q).bay b).truss.opens c.z } := by
          rw [State.setOpen, State.modBay_bay_same]
          rfl
        exact ⟨trussMoves_modBay _ _ rfl, ⟨by rw [htruss], by rw [htruss], by rw [htruss], by rw [htruss]⟩, rfl⟩
      · exact ⟨.refl _, ⟨rfl, rfl, rfl, rfl⟩, rfl⟩
    obtain ⟨hmoves, ⟨hq, ht, hc, hr⟩, hbents⟩ := hopened (if c.shadow then (s.begun b c q).setOpen b c.z true else s.begun b c q) (by
      split
      · exact .inl rfl
      · exact .inr rfl)
    refine ⟨_, rfl, hmoves.trans (trussMoves_modTruss _ _ _), ⟨?_, ?_, ?_, ?_⟩, hbents⟩
    · rw [State.modTruss_truss, (hdrop _ _).1, hq]
    · rw [State.modTruss_truss, (hdrop _ _).2.1, ht]
    · rw [State.modTruss_truss, (hdrop _ _).2.2.1, hc]
    · rw [State.modTruss_truss, (hdrop _ _).2.2.2, hr]
  obtain ⟨hrmoves, hrtruss, hrwrites, -⟩ := regionRows_queues u b (c.taken (s.bay b).truss) r (r.at c.shadow) fun _ => .bits (List.replicate r.cols 0)
  have hrun : runCmd b (c.taken (s.bay b).truss) (s.begun b c q) =
      .ok (regionRows b (c.taken (s.bay b).truss) r (r.at c.shadow) (fun _ => .bits (List.replicate r.cols 0)) u) := by
    unfold runCmd
    rw [show (c.taken (s.bay b).truss).op = .zero from hop]
    dsimp only
    unfold runZero
    rw [show regionOf (nth 0 (c.taken (s.bay b).truss).zs 0) = .ok r from hregion, ← hu]
    rfl
  obtain ⟨t, hexec, hleft, -, htbents⟩ := start_moves hstarts hrun
    ⟨by rw [hrtruss, hkeeps.queue], by rw [hrtruss, hkeeps.taken], by rw [hrtruss, hkeeps.cnt], by rw [hrtruss, hkeeps.running]⟩ (humoves.trans hrmoves)
  refine ⟨t, hexec, hleft, ?_⟩
  have hbent (n : Nat) : u.bent n = s.bent n := congrArg (fun l => Tab.get ({} : Bent) l n) hubents
  rw [hbent] at hrwrites
  rw [← hrwrites]
  exact congrArg (fun l => (Tab.get ({} : Bent) l (b / 8)).writes.map fun x => (x.bay, x.base, x.n)) htbents

end

/-! ### Row writes that land (R99, R265) -/

theorem accAddr_succ (bay e : Nat) : accAddr bay (e + 1) = accAddr bay e + 4 := by
  rw [accAddr, accAddr, Nat.add_mul, Nat.one_mul, ← Nat.add_assoc]

theorem accAddr_mono (bay : Nat) {e f : Nat} (h : e ≤ f) : accAddr bay e ≤ accAddr bay f :=
  Nat.add_le_add_left (Nat.mul_le_mul_right 4 h) _

theorem writeEntries_cons (bay e x : Nat) (l : List Nat) :
    writeEntries bay e (x :: l) = fun s => writeEntries bay (e + 1) l (s.write (accAddr bay e) (natBytes 4 x)) := rfl

theorem writeEntries_outside (bay : Nat) : ∀ (l : List Nat) (e : Nat) (s : State) (a : Nat),
    a < accAddr bay e ∨ accAddr bay (e + l.length) ≤ a → Memory.read (writeEntries bay e l s).mem a = Memory.read s.mem a
  | [], _, _, _, _ => rfl
  | x :: l, e, s, a, ha => by
    have hlen : e + (x :: l).length = e + 1 + l.length := by
      rw [List.length_cons]
      omega
    have hnext := accAddr_succ bay e
    have hgrow := accAddr_mono bay (Nat.le_add_right (e + 1) l.length)
    rw [hlen] at ha
    rw [writeEntries_cons]
    dsimp only
    rw [writeEntries_outside bay l (e + 1) _ a (by omega), State.write_mem,
      Memory.read_writeBytes_outside _ _ _ _ (by rw [natBytes_length]; omega)]

theorem writeEntries_reads (bay : Nat) : ∀ (l : List Nat) (e : Nat) (s : State) (i : Nat), i < l.length →
    (writeEntries bay e l s).rd (accAddr bay (e + i)) 4 = nth 0 l i % 2 ^ (8 * 4)
  | [], _, _, _, h => absurd h (Nat.not_lt_zero _)
  | x :: l, e, s, 0, _ => by
    have hkept : ∀ a, accAddr bay e ≤ a → a < accAddr bay e + 4 → Memory.read (writeEntries bay (e + 1) l (s.write (accAddr bay e) (natBytes 4 x))).mem a =
        Memory.read (s.write (accAddr bay e) (natBytes 4 x)).mem a := fun a _ hlt => by
      refine writeEntries_outside bay l (e + 1) _ a (.inl ?_)
      rw [accAddr_succ]
      exact hlt
    rw [writeEntries_cons, show e + 0 = e from rfl]
    dsimp only
    rw [State.rd_congr hkept, State.rd_write]
    rfl
  | x :: l, e, s, i + 1, h => by
    have hplace : e + (i + 1) = e + 1 + i := by omega
    rw [writeEntries_cons, hplace]
    dsimp only
    rw [writeEntries_reads bay l (e + 1) _ i (Nat.lt_of_succ_lt_succ h)]
    rfl

theorem rowWrite_lands {s : State} {bent : Nat} {w : RowWrite} {l : List RowWrite} (hwrites : (s.bent bent).writes = w :: l)
    (hlive : (s.bay w.owner).live = true) (hallowed : rowAllowed (s.bent bent) w s = true) :
    ∃ t, exec (.trussRowWrite bent) s = .next t ∧ (t.bent bent).writes = l ∧
      (∀ i, i < (w.entries s).1.length → t.rd (accAddr w.bay (w.base + i)) 4 = nth 0 (w.entries s).1 i % 2 ^ 32) ∧
      (∀ a, a < accAddr w.bay w.base ∨ accAddr w.bay (w.base + (w.entries s).1.length) ≤ a → Memory.read t.mem a = Memory.read s.mem a) := by
  have hstep : rowWriteStep bent s = ((writeEntries w.bay w.base (w.entries s).1 s).orStreamFlags w.owner .M (w.entries s).2).setBent bent
      { s.bent bent with writes := l, lastRow := some (((writeEntries w.bay w.base (w.entries s).1 s).orStreamFlags w.owner .M (w.entries s).2).clock, w.bay, groupsOf w.base w.n) } := by
    unfold rowWriteStep
    dsimp only
    rw [hwrites]
    dsimp only
    rw [hlive, hallowed, if_neg (by decide), if_neg (by decide)]
  refine ⟨_, congrArg Host.Outcome.next hstep, ?_, writeEntries_reads w.bay (w.entries s).1 w.base s, writeEntries_outside w.bay (w.entries s).1 w.base s⟩
  rw [State.setBent_bent_same]

/-! ### TLOADB (R259, R261) -/

section
variable {s : State} {bent b : Nat} {c : TrussCmd} {q : List TrussCmd}

theorem TrussApart.loadSlab {u : State} (h : TrussApart s u) (b : Nat) (c : TrussCmd) : loadSlab b c u = loadSlab b c s := by
  unfold Machine.loadSlab
  rw [h.bViews]
  refine congrArg (Machine.bViews b c s >>= ·) (funext fun x => ?_)
  dsimp only
  have htrailer := h.checkTrailer (s.bayCtx b) x.1 1 spBank
  rw [h.bayCtx]
  rcases hs : s.checkTrailer (s.bayCtx b) x.1 1 spBank with e | w <;> rcases hu : u.checkTrailer (s.bayCtx b) x.1 1 spBank with e' | w' <;>
    rw [hs, hu] at htrailer
  · exact congrArg Except.error (Except.error.inj htrailer)
  · cases htrailer
  · cases htrailer
  · simp only [h.bCols, h.bankView, h.cmpLines, h.peek, h.bitmapBit]
    rfl

theorem loadSlab_taken (x : TrussBay) (s : State) (b : Nat) (c : TrussCmd) : loadSlab b (c.taken x) s = loadSlab b c s := rfl

theorem runCmd_loadb (hop : c.op = .loadb) : runCmd b (c.taken (s.bay b).truss) (s.begun b c q) =
    (loadSlab b c s).map fun x => (s.begun b c q).modTruss b fun t => t.setSlab x := by
  unfold runCmd
  rw [show (c.taken (s.bay b).truss).op = .loadb from hop]
  dsimp only
  rw [loadSlab_taken, (begun_apart s b c q).loadSlab]
  cases loadSlab b c s <;> rfl

theorem trussStart_loadFaults (hstarts : Starts s bent b c q) (hop : c.op = .loadb) {rc : FaultRec} (hload : loadSlab b c s = .error (.trap rc)) :
    ∃ t, exec (.trussCommandStart bent) s = .next t ∧ TrussFaulted s t b rc.cause := by
  have hrun := runCmd_loadb (s := s) (b := b) (q := q) hop
  rw [hload] at hrun
  exact start_faults hstarts hrun

theorem setSlab_fills (x : TrussBay) (y : Slab) : (x.setSlab y).front = !x.front ∧ (x.setSlab y).frontSlab = some y ∧
    (if x.front then (x.setSlab y).slab1 = x.slab1 ∧ (x.setSlab y).valid1 = x.valid1 else (x.setSlab y).slab0 = x.slab0 ∧ (x.setSlab y).valid0 = x.valid0) ∧
    (x.setSlab y).inner = x.inner ∧ (x.setSlab y).queue = x.queue ∧ (x.setSlab y).taken = x.taken ∧ (x.setSlab y).cnt = x.cnt ∧
    (x.setSlab y).running = x.running := by
  unfold TrussBay.setSlab TrussBay.frontSlab
  cases x.front <;> exact ⟨rfl, rfl, ⟨rfl, rfl⟩, rfl, rfl, rfl, rfl, rfl⟩

theorem trussStart_loads (hstarts : Starts s bent b c q) (hop : c.op = .loadb) {x : Slab} (hload : loadSlab b c s = .ok x) :
    let y := (s.bay b).truss
    ∃ t, exec (.trussCommandStart bent) s = .next t ∧ (Taken s t b c q ∧ SameMem s t) ∧ (t.bay b).truss.front = !y.front ∧
      (t.bay b).truss.frontSlab = some x ∧ (if y.front then (t.bay b).truss.slab1 = y.slab1 ∧ (t.bay b).truss.valid1 = y.valid1
        else (t.bay b).truss.slab0 = y.slab0 ∧ (t.bay b).truss.valid0 = y.valid0) ∧ (t.bay b).truss.inner = y.inner := by
  intro y
  have hrun := runCmd_loadb (s := s) (b := b) (q := q) hop
  rw [hload] at hrun
  obtain ⟨hfront, hslab, hother, hinner, hq, htaken, hcnt, hrunning⟩ := setSlab_fills (y.begins c q) x
  have htruss : (((s.begun b c q).modTruss b fun t => t.setSlab x).bay b).truss = (y.begins c q).setSlab x := by rw [State.modTruss_truss, begun_truss]
  obtain ⟨t, hexec, hleft, ⟨l, ht⟩, -⟩ := start_moves hstarts hrun ⟨by rw [htruss, hq, begun_truss], by rw [htruss, htaken, begun_truss],
    by rw [htruss, hcnt, begun_truss], by rw [htruss, hrunning, begun_truss]⟩ (trussMoves_modTruss _ _ _)
  rw [htruss] at ht
  refine ⟨t, hexec, hleft, ?_, ?_, ?_, ?_⟩
  · rw [ht]
    exact hfront
  · rw [ht]
    exact hslab
  · rw [ht]
    exact hother
  · rw [ht]
    exact hinner

theorem bits_lt_of (w : Word) (hi lo n : Nat) (h : hi - lo + 1 = n) : bits w hi lo < 2 ^ n := by
  subst h
  exact Nat.mod_lt _ (Nat.two_pow_pos _)

/-- An element of B as the slab takes it: zero where the bitmap has none, and from the lines of a compressed bank (R261). -/
def slabElem (b : Nat) (c : TrussCmd) (v m : View) (ls : List CmpLine) (s : State) (k n : Nat) : Nat :=
  if c.bmen && !bitmapBit b c v m s k n then 0
  else if v.cmp then cmpElem ls (planeCount v.fmt) (nth 0 (eExts v.w) 1) (v.org + k) n else s.peek b v 1 [k, n]

/-- The slab of a load. -/
def slabOf (b : Nat) (c : TrussCmd) (v w m : View) (ls : List CmpLine) (cols : List Nat) (s : State) : Slab :=
  { fmt := BitVec.ofNat 6 c.bfmt, prec := BitVec.ofNat 3 c.prec, korg := c.korg, kext := c.k, n := c.n, bitmap := c.bm
    cols := cols.map fun n => (upTo c.korg (c.korg + c.kmax)).map fun k => bvalOf c.bfmt (planesOf c.prec) (slabElem b c v m ls s k n)
    scales := if isBlock c.bfmt then cols.map fun n => (kBlocks c.korg c.kmax).map fun k => BitVec.ofNat 8 (s.peek b w 1 [k, n]) else [] }

/-- The slab that TLOADB reads. -/
theorem loadSlab_reads {v w m : View} {u : State} {cols : List Nat} {ls : List CmpLine} (hviews : bViews b c s = .ok (v, w))
    (htrailer : s.checkTrailer (s.bayCtx b) v 1 spBank = .ok u) (hcols : bCols b c v s = .ok cols)
    (hbitmap : c.bmen = true → bankView b (c.h hBMH) 1 s = .ok m)
    (hlines : v.cmp = true → c.kmax ≠ 0 → cmpLines b v (fun big => cmpBlock big (nth 0 (eExts v.w) 1) (v.org + c.korg + c.kmax - 1) (cols.foldl max 0)) s
      (bankBytes * bankCount / 128) 0 = .ok ls) :
    loadSlab b c s = .ok (slabOf b c v w (if c.bmen then m else v) (if v.cmp ∧ c.kmax ≠ 0 then ls else []) cols s) := by
  unfold loadSlab
  rw [hviews]
  simp only [bind, Except.bind, htrailer, hcols]
  by_cases hmap : c.bmen = true
  · rw [if_pos hmap, if_pos hmap, hbitmap hmap]
    by_cases hcmp : v.cmp = true ∧ c.kmax ≠ 0
    · rw [if_pos hcmp]
      simp only [if_pos hcmp, hlines hcmp.1 hcmp.2]
      rfl
    · rw [if_neg hcmp]
      simp only [if_neg hcmp]
      rfl
  · rw [if_neg hmap, if_neg hmap]
    by_cases hcmp : v.cmp = true ∧ c.kmax ≠ 0
    · rw [if_pos hcmp]
      simp only [if_pos hcmp, hlines hcmp.1 hcmp.2]
      rfl
    · rw [if_neg hcmp]
      simp only [if_neg hcmp]
      rfl

theorem slabElem_of (v m : View) (ls : List CmpLine) (k n : Nat) (hk : c.kmax ≠ 0) :
    slabElem b c v (if c.bmen then m else v) (if v.cmp ∧ c.kmax ≠ 0 then ls else []) s k n = slabElem b c v m ls s k n := by
  unfold slabElem
  cases hmap : c.bmen <;> cases hcmp : v.cmp <;> simp [hk]

theorem nth_map {α β : Type} (d : β) (f : α → β) (e : α) (l : List α) {i : Nat} (h : i < l.length) : nth d (l.map f) i = f (nth e l i) := by
  simp [nth, h]

/-- The elements and the scales of a slab, by column and position. -/
theorem slabOf_elements (v w m : View) (ls : List CmpLine) (cols : List Nat) {i : Nat} (hi : i < cols.length) :
    let x := slabOf b c v w (if c.bmen then m else v) (if v.cmp ∧ c.kmax ≠ 0 then ls else []) cols s
    (∀ k, k < c.kmax → nth 0 (nth [] x.cols i) k = bvalOf c.bfmt (planesOf c.prec) (slabElem b c v m ls s (c.korg + k) (nth 0 cols i))) ∧
      (isBlock c.bfmt = true → ∀ k, k < (kBlocks c.korg c.kmax).length →
        nth 0 (nth [] x.scales i) k = BitVec.ofNat 8 (s.peek b w 1 [nth 0 (kBlocks c.korg c.kmax) k, nth 0 cols i])) := by
  refine ⟨fun k hk => ?_, fun hblock k hk => ?_⟩
  · have hpos : nth 0 (upTo c.korg (c.korg + c.kmax)) k = c.korg + k := by simp [nth, upTo, hk]
    rw [slabOf, nth_map [] _ 0 _ hi, nth_map 0 _ 0 _ (by simpa [upTo] using hk), hpos, slabElem_of _ _ _ _ _ (Nat.ne_of_gt (Nat.lt_of_le_of_lt k.zero_le hk))]
  · rw [slabOf]
    dsimp only
    rw [if_pos hblock, nth_map [] _ 0 _ hi, nth_map 0 _ 0 _ hk]

end

end Sys2Proof.Machine
end

section
/-! Products of the truss (R98, R100, R262, R267): the binding of a product, its passes over inner values, and the rows of a block format. -/

namespace Sys2Proof.Machine

/-! ### The binding (R262, R267) -/

/-- A pending binding other than the product's is promoted first. -/
def TrussBay.otherBound (x : TrussBay) (c : TrussCmd) : Bool := x.pend && !x.bound c

/-- The steps of a binding: the promotion of another one, the opening of a prediction, the fresh start without ACCUM, and the new place. -/
def TrussBay.settled (x : TrussBay) (c : TrussCmd) : TrussBay := if x.otherBound c then x.promoted else x
def TrussBay.opened (x : TrussBay) (c : TrussCmd) : TrussBay := if c.shadow && !x.opens.contains c.z then { x with opens := addLine x.opens c.z } else x
def TrussBay.restarted (x : TrussBay) (c : TrussCmd) : TrussBay :=
  if c.accum then x else { x.dropInner with passes := 0, firsts := if isBlock c.bfmt then [] else List.range c.rows }
def TrussBay.placed (x : TrussBay) (c : TrussCmd) (r p : Region) : TrussBay :=
  { x with bz := BitVec.ofNat 4 c.z, bshd := c.shadow, bsplit := c.split, brows := c.rows, bbase := r.at c.shadow, bcols := r.cols
           bi32 := r.i32, bpbase := p.base, bpcols := p.cols, blg := c.bfmt == 0x12 }

/-- The truss's part of a bay once a product has bound its region. -/
def TrussBay.rebound (x : TrussBay) (c : TrussCmd) (r p : Region) : TrussBay := (((x.settled c).opened c).restarted c).placed c r p

/-- The copies that open a prediction (R267). -/
def openingRows (b : Nat) (r : Region) : List ((Nat × Nat) × RowOp) :=
  (List.range r.rows).map fun m => ((b, r.sbase + m * r.cols), RowOp.copy (r.base + m * r.cols))

theorem bindCmd_binds {u : State} {b : Nat} {c : TrussCmd} {r p : Region} (hnodup : ((u.bay b).truss.inner.map fun x => x.1).Nodup) :
    let x := (u.bay b).truss
    let t := bindCmd b c r p u
    TrussMoves u t ∧ (t.bay b).truss = x.rebound c r p ∧
      t.rowsOf (b / 8) = u.rowsOf (b / 8) ++ (if x.otherBound c then u.pending b else []) ++ (if c.shadow && !(u.bay b).isOpen c.z then openingRows b r else []) := by
  intro x t
  obtain ⟨v, hv, hvmoves, hvtruss, hvrows⟩ : ∃ v, (if x.otherBound c then promoteAll b u else u) = v ∧ TrussMoves u v ∧
      (v.bay b).truss = x.settled c ∧ v.rowsOf (b / 8) = u.rowsOf (b / 8) ++ if x.otherBound c then u.pending b else [] := by
    unfold TrussBay.settled
    cases x.otherBound c with
    | false => exact ⟨_, rfl, .refl _, rfl, (List.append_nil _).symm⟩
    | true =>
      obtain ⟨hmoves, htruss, hrows⟩ := promoteAll_promotes hnodup
      exact ⟨_, rfl, hmoves, htruss, hrows⟩
  have hopens : (v.bay b).isOpen c.z = (u.bay b).isOpen c.z := by
    rw [Bay.isOpen, Bay.isOpen, hvtruss, TrussBay.settled]
    split
    · rw [TrussBay.promoted_eta]
    · rfl
  obtain ⟨w, hw, hwmoves, hwtruss, hwrows⟩ : ∃ w, (if c.shadow && !(v.bay b).isOpen c.z then
        regionRows b c r r.sbase (fun m => .copy (r.base + m * r.cols)) (v.setOpen b c.z true) else v) = w ∧ TrussMoves v w ∧
      (w.bay b).truss = (if c.shadow && !(v.bay b).isOpen c.z then { (v.bay b).truss with opens := addLine (v.bay b).truss.opens c.z } else (v.bay b).truss) ∧
      w.rowsOf (b / 8) = v.rowsOf (b / 8) ++ if c.shadow && !(v.bay b).isOpen c.z then openingRows b r else [] := by
    cases c.shadow && !(v.bay b).isOpen c.z with
    | false => exact ⟨_, rfl, .refl _, rfl, (List.append_nil _).symm⟩
    | true =>
      obtain ⟨hmoves, htruss, -, hrows⟩ := regionRows_queues (v.setOpen b c.z true) b c r r.sbase fun m => .copy (r.base + m * r.cols)
      refine ⟨_, rfl, (trussMoves_modBay _ _ rfl).trans hmoves, htruss.trans ?_, hrows⟩
      rw [State.setOpen, State.modBay_bay_same]
      rfl
  have ht : t = (if c.accum then w else w.modTruss b fun t =>
      { t.dropInner with passes := 0, firsts := if isBlock c.bfmt then [] else List.range c.rows }).modTruss b fun t => t.placed c r p := by
    rw [← hw, ← hv]
    rfl
  have hisOpen : (v.bay b).isOpen c.z = (x.settled c).opens.contains c.z := by rw [Bay.isOpen, hvtruss]
  rw [hisOpen, hvtruss] at hwtruss
  rw [hopens, hvrows] at hwrows
  replace hwtruss : (w.bay b).truss = (x.settled c).opened c := hwtruss
  rw [ht, State.modTruss_truss, State.modTruss_rowsOf]
  cases haccum : c.accum with
  | false =>
    rw [if_neg Bool.false_ne_true]
    refine ⟨((hvmoves.trans hwmoves).trans (trussMoves_modTruss _ _ _)).trans (trussMoves_modTruss _ _ _), ?_, hwrows⟩
    rw [State.modTruss_truss, hwtruss, TrussBay.rebound, TrussBay.restarted, haccum, if_neg Bool.false_ne_true]
  | true =>
    rw [if_pos rfl]
    refine ⟨(hvmoves.trans hwmoves).trans (trussMoves_modTruss _ _ _), ?_, hwrows⟩
    rw [hwtruss, TrussBay.rebound, TrussBay.restarted, haccum, if_pos rfl]

section
variable (x : TrussBay) (c : TrussCmd) (r p : Region)

theorem TrussBay.opened_eta : x.opened c = { x with opens := (x.opened c).opens } := by
  unfold TrussBay.opened
  split <;> rfl

theorem TrussBay.settled_eta : x.settled c = { x with inner := (x.settled c).inner, firsts := (x.settled c).firsts, pend := (x.settled c).pend, passes := (x.settled c).passes } := by
  unfold TrussBay.settled
  split
  · exact x.promoted_eta.trans (by rw [x.promoted_pend])
  · rfl

theorem TrussBay.restarted_eta : x.restarted c = { x with inner := (x.restarted c).inner, firsts := (x.restarted c).firsts, pend := (x.restarted c).pend, passes := (x.restarted c).passes } := by
  unfold TrussBay.restarted
  split <;> rfl

theorem TrussBay.rebound_eta : x.rebound c r p = ({ x with
    inner := (x.rebound c r p).inner, firsts := (x.rebound c r p).firsts, pend := (x.rebound c r p).pend, passes := (x.rebound c r p).passes
    opens := ((x.settled c).opened c).opens } : TrussBay).placed c r p := by
  unfold TrussBay.rebound
  rw [TrussBay.restarted_eta, TrussBay.opened_eta, TrussBay.settled_eta]
  rfl

/-- What the binding keeps of the truss. -/
theorem TrussBay.rebound_keeps : (x.rebound c r p).queue = x.queue ∧ (x.rebound c r p).taken = x.taken ∧ (x.rebound c r p).cnt = x.cnt ∧
    (x.rebound c r p).running = x.running := by
  rw [TrussBay.rebound_eta]
  exact ⟨rfl, rfl, rfl, rfl⟩

/-- The product starts from cleared inner values. -/
def TrussBay.clearedBy (x : TrussBay) (c : TrussCmd) : Bool := !c.accum || x.otherBound c

theorem TrussBay.otherBound_pend {x : TrussBay} {c : TrussCmd} (h : x.otherBound c = true) : x.pend = true := by
  rw [TrussBay.otherBound, Bool.and_eq_true] at h
  exact h.1

/-- What a promotion of another binding leaves of the inner values and their counts. -/
theorem TrussBay.settled_parts : (x.settled c).inner = (if x.otherBound c then [] else x.inner) ∧ (x.settled c).firsts = (if x.otherBound c then [] else x.firsts) ∧
    (x.settled c).pend = (x.pend && !x.otherBound c) ∧ (x.settled c).passes = (if x.otherBound c then 0 else x.passes) := by
  unfold TrussBay.settled
  cases hother : x.otherBound c with
  | false => exact ⟨rfl, rfl, (Bool.and_true _).symm, rfl⟩
  | true =>
    rw [if_pos rfl, TrussBay.promoted, if_pos (TrussBay.otherBound_pend hother)]
    exact ⟨rfl, rfl, (Bool.and_false _).symm, rfl⟩

/-- The inner values, the first rows, PEND and PASSES from which a product starts. -/
theorem TrussBay.rebound_parts : (x.rebound c r p).inner = (if x.clearedBy c then [] else x.inner) ∧
    (x.rebound c r p).firsts = (if c.accum then (if x.otherBound c then [] else x.firsts) else if isBlock c.bfmt then [] else List.range c.rows) ∧
    (x.rebound c r p).pend = (x.pend && !x.clearedBy c) ∧ (x.rebound c r p).passes = if x.clearedBy c then 0 else x.passes := by
  obtain ⟨hinner, hfirsts, hpend, hpasses⟩ := x.settled_parts c
  unfold TrussBay.rebound TrussBay.restarted TrussBay.clearedBy
  cases c.accum with
  | false => exact ⟨rfl, rfl, (Bool.and_false _).symm, rfl⟩
  | true =>
    rw [if_pos rfl, TrussBay.opened_eta]
    exact ⟨hinner, hfirsts, hpend, hpasses⟩

theorem TrussBay.rebound_inner (m : Nat) : Tab.get [] (x.rebound c r p).inner m = if x.clearedBy c then [] else Tab.get [] x.inner m := by
  rw [(x.rebound_parts c r p).1]
  split <;> rfl

theorem TrussBay.rebound_firsts (hblock : isBlock c.bfmt = false) {m : Nat} (hm : m < c.rows) :
    (x.rebound c r p).firsts.contains m = (!c.accum || (!x.otherBound c && x.firsts.contains m)) := by
  have hrange : (List.range c.rows).contains m = true := by rw [List.contains_iff_mem, List.mem_range]; exact hm
  obtain ⟨-, hfirsts, -, -⟩ := x.rebound_parts c r p
  rw [hfirsts, hblock]
  cases c.accum with
  | false => exact hrange
  | true => cases x.otherBound c <;> rfl

theorem TrussBay.rebound_rowAt (b far m : Nat) : (x.rebound c r p).rowAt b far m =
    if c.split && decide (256 ≤ m) then (far, p.base + (m - 256) * p.cols) else (b, r.at c.shadow + m * r.cols) := rfl

end

/-! ### A pass over inner values (R98, R262) -/

/-- The inner values of a row before a pass of `n` sums: columns that it has not yet are zero. -/
def widened (old : List Int) (n : Nat) : List Int := old ++ List.replicate (n - old.length) 0

/-- The row is promoted before the pass. -/
def promotesEarly (bound : Int) (old : List Int) (n : Nat) : Bool := ((widened old n).take n).any (tooClose bound)

/-- The inner values after a pass. -/
def passed (bound : Int) (old sums : List Int) : List Int :=
  addRows (if promotesEarly bound old sums.length then [] else widened old sums.length) sums

/-- The promotions of a row in a pass. -/
def passMoves (bound : Int) (last lg first : Bool) (place : Nat × Nat) (old sums : List Int) : List ((Nat × Nat) × RowOp) :=
  (if promotesEarly bound old sums.length then [(place, .promote (widened old sums.length) lg first)] else []) ++
    if last then [(place, .promote (passed bound old sums) lg (first && !promotesEarly bound old sums.length))] else []

theorem Tab.find_insert {α : Type} (k : Nat) (v : α) : ∀ {l : Tab α}, (∀ x ∈ l, x.1 ≠ k) → (Tab.insert k v l).find? (fun x => x.1 = k) = some (k, v)
  | [], _ => by simp [Tab.insert]
  | (k', v') :: t, h => by
    obtain ⟨hk, ht⟩ := List.forall_mem_cons.1 h
    unfold Tab.insert
    split
    · simp
    · rw [List.find?_cons_of_neg (by simpa using hk), Tab.find_insert k v ht]

theorem Tab.find_put {α : Type} (l : Tab α) (k : Nat) (v : α) : (Tab.put l k v).find? (fun x => x.1 = k) = some (k, v) :=
  Tab.find_insert k v Tab.erase_keys

theorem Tab.get_erase {α : Type} (d : α) (l : Tab α) (k j : Nat) : Tab.get d (Tab.erase k l) j = if j = k then d else Tab.get d l j := by
  split
  · rename_i h
    rw [h, Tab.get_erase_same]
  · rename_i h
    exact Tab.get_erase_ne d h l

section
variable {b : Nat} {bound : Int} {last : Bool}

/-- What a pass over row `m` leaves: the other rows, and the promotions of this one. -/
structure PassedRow (s t : State) (b : Nat) (bound : Int) (last : Bool) (m : Nat) (sums : List Int) : Prop where
  moves : TrussMoves s t
  truss : ∃ i f, (t.bay b).truss = { (s.bay b).truss with inner := i, firsts := f, pend := true }
  inner : ∀ k, Tab.get [] (t.bay b).truss.inner k =
    if k = m then (if last then [] else passed bound (Tab.get [] (s.bay b).truss.inner m) sums) else Tab.get [] (s.bay b).truss.inner k
  firsts : ∀ k, k ≠ m → (t.bay b).truss.firsts.contains k = (s.bay b).truss.firsts.contains k
  rows : t.rowsOf (b / 8) = s.rowsOf (b / 8) ++ passMoves bound last (s.bay b).truss.blg ((s.bay b).truss.firsts.contains m)
    ((s.bay b).truss.rowAt b (s.partner b) m) (Tab.get [] (s.bay b).truss.inner m) sums

/-- The early promotion of a row, where the bound asks for it. -/
theorem earlyPromotion (s : State) (b m : Nat) (old : List Int) (early : Bool) :
    let x := (s.bay b).truss
    ∃ w, (if early then (promoteRow b m (s.modTruss b fun t => { t with inner := Tab.put t.inner m old })).orStreamFlags b .M fOVP else s) = w ∧
      TrussMoves s w ∧ (∃ i f, (w.bay b).truss = { x with inner := i, firsts := f } ∧ (∀ k, k ≠ m → Tab.get [] i k = Tab.get [] x.inner k) ∧
        (∀ k, k ≠ m → f.contains k = x.firsts.contains k) ∧ f.contains m = (x.firsts.contains m && !early)) ∧
      w.rowsOf (b / 8) = s.rowsOf (b / 8) ++ if early then [(x.rowAt b (s.partner b) m, .promote old x.blg (x.firsts.contains m))] else [] := by
  intro x
  cases early with
  | false => exact ⟨_, rfl, .refl _, ⟨x.inner, x.firsts, rfl, fun _ _ => rfl, fun _ _ => rfl, (Bool.and_true _).symm⟩, (List.append_nil _).symm⟩
  | true =>
    have hfind : ((s.modTruss b fun t => { t with inner := Tab.put t.inner m old }).bay b).truss.inner.find? (fun x => x.1 = m) = some (m, old) := by
      rw [State.modTruss_truss]
      exact Tab.find_put _ _ _
    obtain ⟨hmoves, htruss, hrows⟩ := promoteRow_some hfind rfl
    have hmod := trussMoves_modTruss s b fun t => { t with inner := Tab.put t.inner m old }
    rw [State.modTruss_truss] at htruss hrows
    refine ⟨_, rfl, (hmod.trans hmoves).trans (trussMoves_flags _ _ _),
      ⟨Tab.erase m (Tab.put x.inner m old), x.firsts.filter (· != m), ?_, fun k hk => ?_, fun k hk => ?_, ?_⟩, ?_⟩
    · rw [if_pos rfl, State.flags_truss, htruss]
    · rw [Tab.get_erase_ne [] hk, Tab.get_put_ne [] _ _ hk]
    · exact filter_ne_contains hk
    · rw [Bool.not_true, Bool.and_false]
      simp
    · rw [if_pos rfl, State.flags_rowsOf, hrows, hmod.partner]
      rfl

theorem passRow_passes (m : Nat) (sums : List Int) (s : State) : PassedRow s (passRow b bound last m sums s) b bound last m sums := by
  obtain ⟨w, hw, hwmoves, ⟨i, f, hwtruss, hi, hf, hfm⟩, hwrows⟩ := earlyPromotion s b m (widened (Tab.get [] (s.bay b).truss.inner m) sums.length)
    (promotesEarly bound (Tab.get [] (s.bay b).truss.inner m) sums.length)
  let new := passed bound (Tab.get [] (s.bay b).truss.inner m) sums
  have hrow : passRow b bound last m sums s =
      if last then promoteRow b m (w.modTruss b fun t => { t with inner := Tab.put t.inner m new, pend := true })
      else w.modTruss b fun t => { t with inner := Tab.put t.inner m new, pend := true } := by
    rw [← hw]
    rfl
  have hmod := hwmoves.trans (trussMoves_modTruss w b fun t => { t with inner := Tab.put t.inner m new, pend := true })
  have htruss : ((w.modTruss b fun t => { t with inner := Tab.put t.inner m new, pend := true }).bay b).truss =
      { (s.bay b).truss with inner := Tab.put i m new, firsts := f, pend := true } := by
    rw [State.modTruss_truss, hwtruss]
  rw [hrow]
  cases last with
  | false =>
    rw [if_neg (by decide)]
    refine ⟨hmod, ⟨_, _, htruss⟩, fun k => ?_, fun k hk => ?_, ?_⟩
    · rw [htruss, Tab.get_put]
      split
      · rfl
      · rename_i hk
        exact hi k hk
    · rw [htruss]
      exact hf k hk
    · rw [State.modTruss_rowsOf, hwrows, passMoves, if_neg Bool.false_ne_true, List.append_nil]
  | true =>
    rw [if_pos rfl]
    have hfind : ((w.modTruss b fun t => { t with inner := Tab.put t.inner m new, pend := true }).bay b).truss.inner.find? (fun x => x.1 = m) = some (m, new) := by
      rw [htruss]
      exact Tab.find_put _ _ _
    obtain ⟨hpmoves, hptruss, hprows⟩ := promoteRow_some hfind rfl
    rw [htruss] at hptruss hprows
    refine ⟨hmod.trans hpmoves, ⟨_, _, hptruss⟩, fun k => ?_, fun k hk => ?_, ?_⟩
    · rw [hptruss, if_pos rfl]
      dsimp only
      rw [Tab.get_erase, Tab.get_put]
      split
      · rfl
      · rename_i hk
        exact hi k hk
    · rw [hptruss]
      exact (filter_ne_contains hk).trans (hf k hk)
    · rw [hprows, State.modTruss_rowsOf, hwrows, hmod.partner, passMoves, if_pos rfl, List.append_assoc, ← hfm]
      rfl

/-- The passes over rows from `m` on. -/
theorem passRows_passes : ∀ (l : List (List Int)) (m : Nat) (s : State),
    let t := passRows b bound last m l s
    let x := (s.bay b).truss
    TrussMoves s t ∧ (∃ i f, (t.bay b).truss = { x with inner := i, firsts := f, pend := x.pend || !l.isEmpty }) ∧
      (∀ k, Tab.get [] (t.bay b).truss.inner k = if m ≤ k ∧ k < m + l.length then (if last then [] else passed bound (Tab.get [] x.inner k) (nth [] l (k - m)))
        else Tab.get [] x.inner k) ∧
      t.rowsOf (b / 8) = s.rowsOf (b / 8) ++ (List.range l.length).flatMap fun i =>
        passMoves bound last x.blg (x.firsts.contains (m + i)) (x.rowAt b (s.partner b) (m + i)) (Tab.get [] x.inner (m + i)) (nth [] l i)
  | [], m, s => by
    refine ⟨.refl s, ⟨(s.bay b).truss.inner, (s.bay b).truss.firsts, ?_⟩, fun k => ?_, (List.append_nil _).symm⟩
    · rw [List.isEmpty_nil, Bool.not_true, Bool.or_false]
      rfl
    · rw [if_neg (by rw [List.length_nil]; omega)]
      rfl
  | sums :: l, m, s => by
    obtain ⟨hmoves, ⟨i, f, htruss⟩, hinner, hfirsts, hrows⟩ := passRow_passes (b := b) (bound := bound) (last := last) m sums s
    obtain ⟨hmoves', ⟨i', f', htruss'⟩, hinner', hrows'⟩ := passRows_passes l (m + 1) (passRow b bound last m sums s)
    have hblg : ((passRow b bound last m sums s).bay b).truss.blg = (s.bay b).truss.blg := by rw [htruss]
    have hplace (k : Nat) : ((passRow b bound last m sums s).bay b).truss.rowAt b ((passRow b bound last m sums s).partner b) k =
        (s.bay b).truss.rowAt b (s.partner b) k := by
      rw [htruss, hmoves.partner]
      rfl
    refine ⟨hmoves.trans hmoves', ⟨i', f', htruss'.trans ?_⟩, fun k => (hinner' k).trans ?_, hrows'.trans ?_⟩
    · rw [htruss, Bool.true_or, List.isEmpty_cons, Bool.not_false, Bool.or_true]
    · rw [hinner k, List.length_cons]
      by_cases hk : k = m
      · subst hk
        have hout : ¬ (k + 1 ≤ k ∧ k < k + 1 + l.length) := by omega
        have hin : k ≤ k ∧ k < k + (l.length + 1) := by omega
        rw [if_neg hout, if_pos rfl, if_pos hin, Nat.sub_self]
        rfl
      · rw [if_neg hk]
        by_cases hin : m + 1 ≤ k ∧ k < m + 1 + l.length
        · have hnext : k - m = k - (m + 1) + 1 := by omega
          have hin' : m ≤ k ∧ k < m + (l.length + 1) := by omega
          rw [if_pos hin, if_pos hin', hnext]
          rfl
        · have hin' : ¬ (m ≤ k ∧ k < m + (l.length + 1)) := by omega
          rw [if_neg hin, if_neg hin']
    · rw [hrows, List.append_assoc, List.length_cons, List.range_succ_eq_map, List.flatMap_cons, List.flatMap_map]
      refine congrArg (s.rowsOf (b / 8) ++ ·) (congrArg₂ (· ++ ·) rfl (List.flatMap_congr fun j _ => ?_))
      have hnext : m + (j + 1) = m + 1 + j := by omega
      rw [hblg, hplace, hfirsts (m + 1 + j) (by omega), hinner (m + 1 + j), if_neg (by omega), hnext]
      rfl

end

/-! ### The rows of a block format (R100) -/

theorem blockRows_queues {b : Nat} {c : TrussCmd} : ∀ (l : List (List Nat)) (m : Nat) (s : State),
    let t := blockRows b c m l s
    let x := (s.bay b).truss
    TrussMoves s t ∧ (t.bay b).truss = x ∧ t.rowsOf (b / 8) = s.rowsOf (b / 8) ++ (List.range l.length).map fun i =>
      (if c.split && decide (256 ≤ m + i) then (s.partner b, x.bpbase + (m + i - 256) * x.bpcols) else (b, x.bbase + (m + i) * x.bcols),
        RowOp.addF32 ((nth [] l i).map (BitVec.ofNat 32)) (!c.accum))
  | [], m, s => ⟨.refl s, rfl, (List.append_nil _).symm⟩
  | vals :: l, m, s => by
    obtain ⟨hmoves, htruss, hrows⟩ := blockRows_queues (b := b) (c := c) l (m + 1) (blockRow b c m vals s)
    have hfirst : TrussMoves s (blockRow b c m vals s) := rowWrite_moves _ _
    have hkeeps : ((blockRow b c m vals s).bay b).truss = (s.bay b).truss := rfl
    have hqueued : (blockRow b c m vals s).rowsOf (b / 8) = s.rowsOf (b / 8) ++
        [(if c.split && decide (256 ≤ m) then (s.partner b, (s.bay b).truss.bpbase + (m - 256) * (s.bay b).truss.bpcols)
          else (b, (s.bay b).truss.bbase + m * (s.bay b).truss.bcols), RowOp.addF32 (vals.map (BitVec.ofNat 32)) (!c.accum))] := by
      unfold blockRow
      dsimp only
      rw [rowWrite_rowsOf s _ (b := b) rfl]
      congr 2
      dsimp only
      split <;> rfl
    refine ⟨hfirst.trans hmoves, htruss.trans hkeeps, hrows.trans ?_⟩
    rw [hqueued, hkeeps, hfirst.partner, List.append_assoc, List.length_cons, List.range_succ_eq_map, List.map_cons, List.map_map]
    refine congrArg (s.rowsOf (b / 8) ++ ·) (congrArg₂ (· ++ ·) rfl (List.map_congr_left fun j _ => ?_))
    have hnext : m + 1 + j = m + (j + 1) := by omega
    rw [hnext]
    rfl

end Sys2Proof.Machine
end

section
/-! TMMA and TMMAS (R262): from the binding and the passes to the state that a product leaves. -/

namespace Sys2Proof.Machine

section
variable {s : State} {bent b : Nat} {c : TrussCmd} {q : List TrussCmd}

theorem begun_isOpen (s : State) (b : Nat) (c : TrussCmd) (q : List TrussCmd) (k z : Nat) : ((s.begun b c q).bay k).isOpen z = (s.bay k).isOpen z := by
  by_cases hk : k = b
  · rw [hk, Bay.isOpen, begun_truss]
    rfl
  · rw [State.begun, State.modTruss, State.modBay_bay_ne _ _ _ hk]

theorem begun_partnerRegion (s : State) (b : Nat) (c : TrussCmd) (q : List TrussCmd) (z : Nat) (i32 : Bool) (rows cols : Nat) :
    partnerRegion b z i32 rows cols (s.begun b c q) = partnerRegion b z i32 rows cols s := by
  have hpar (k : Nat) : parZ ((s.begun b c q).bay k) z = parZ (s.bay k) z := (begun_apart s b c q).field (parZ · z) (fun _ _ => rfl) k
  unfold partnerRegion
  dsimp only
  rw [(begun_apart s b c q).partner, hpar]
  simp only [begun_isOpen]

theorem begun_frontSlab (s : State) (b : Nat) (c : TrussCmd) (q : List TrussCmd) : ((s.begun b c q).bay b).truss.frontSlab = (s.bay b).truss.frontSlab := by
  rw [begun_truss]
  rfl

/-- The slab in FRONT is one that the product takes (R262). -/
def TrussCmd.fits (c : TrussCmd) (x : Slab) : Prop := x.fmt.toNat = c.bfmt ∧ planesOf x.prec.toNat = planesOf c.prec ∧ x.n = c.n

theorem trussStart_mmaFaults {neg : Bool} {r : Region} (hstarts : Starts s bent b c q) (hop : c.op = .mma neg) (hregion : regionOf (nth 0 c.zs 0) = .ok r)
    (hslab : ∀ x, (s.bay b).truss.frontSlab = some x → ¬ c.fits x) :
    ∃ t, exec (.trussCommandStart bent) s = .next t ∧ TrussFaulted s t b 0x27 := by
  refine start_faults hstarts (rc := { cause := 0x27 }) ?_
  unfold runCmd
  rw [show (c.taken (s.bay b).truss).op = .mma neg from hop]
  dsimp only
  unfold runMma
  rw [show regionOf (nth 0 (c.taken (s.bay b).truss).zs 0) = .ok r from hregion, begun_frontSlab]
  cases hfront : (s.bay b).truss.frontSlab with
  | none => rfl
  | some x =>
    simp only [bind, Except.bind]
    exact if_neg (hslab x hfront)

/-! ### The sums of a product -/

/-- The elements of a row of A at the slab's positions. -/
def productRow (b : Nat) (c : TrussCmd) (a : View) (s : State) (m : Nat) : List Nat := (List.range c.kmax).map fun i => s.peek b a 0 [m, c.korg + i]

/-- The exact sums of a row of A with each column of the slab, in integer or lg6. -/
def productSums (neg : Bool) (b : Nat) (c : TrussCmd) (x : Slab) (a : View) (s : State) (m : Nat) : List Int :=
  (List.range c.n).map fun n => (if neg then -1 else 1) * (passSum (c.bfmt == 0x12) (productRow b c a s m) (nth [] x.cols n) c.afmt).1

/-- The results of a row of A with each column of the slab, in a block format. -/
def productBlocks (neg : Bool) (b : Nat) (c : TrussCmd) (x : Slab) (a w : View) (s : State) (m : Nat) : List Nat :=
  (List.range c.n).map fun n => (passBlock (c.bfmt == 0x1B) neg (blockElem c.afmt) c.korg (productRow b c a s m) (nth [] x.cols n)
    ((kBlocks c.korg c.kmax).map fun k => s.peek b w 1 [m, k]) ((nth [] x.scales n).map BitVec.toNat)).1

/-- The truss's part of a bay after the passes of a product. -/
def TrussBay.counted (t : TrussBay) (last : Bool) : TrussBay :=
  if last then { t with passes := 0, pend := false, firsts := [] } else { t with passes := t.passes + 1, firsts := [] }

/-- What a product reads at its start. -/
structure Product (b : Nat) (c : TrussCmd) (s : State) (r p : Region) (x : Slab) (a w : View) (rows : List Nat) : Prop where
  region : regionOf (nth 0 c.zs 0) = .ok r
  front : (s.bay b).truss.frontSlab = some x
  fits : x.fmt.toNat = c.bfmt ∧ planesOf x.prec.toNat = planesOf c.prec ∧ x.n = c.n
  far : if c.split then partnerRegion b c.z r.i32 (c.rows - 256) c.n s = .ok p else p = r
  views : aViews b c s = .ok (a, w)
  rows : aRows b c a s = .ok rows

theorem lg_of_plain (hblock : isBlock c.bfmt = false) : decide (c.bfmt = 0x12 ∨ c.bfmt = 0x1B) = (c.bfmt == 0x12) := by
  have hne : c.bfmt ≠ 0x1B := fun h => by
    rw [h] at hblock
    cases hblock
  rw [Bool.eq_iff_iff, decide_eq_true_iff, beq_iff_eq]
  exact or_iff_left hne

theorem lg_of_block (hblock : isBlock c.bfmt = true) : decide (c.bfmt = 0x12 ∨ c.bfmt = 0x1B) = (c.bfmt == 0x1B) := by
  have hne : c.bfmt ≠ 0x12 := fun h => by
    rw [h] at hblock
    cases hblock
  rw [Bool.eq_iff_iff, decide_eq_true_iff, beq_iff_eq]
  exact or_iff_right hne

section
variable {neg : Bool} {r p : Region} {x : Slab} {a w : View} {rows : List Nat} (hproduct : Product b c s r p x a w rows)
include hproduct

/-- The partner's region, where the product has one. -/
theorem Product.far_eq (k : Region → Except Stop State) :
    (if c.split = true then Except.bind (partnerRegion b c.z r.i32 (c.rows - 256) c.n s) k else k r) = k p := by
  have hfar := hproduct.far
  cases hsplit : c.split with
  | false =>
    rw [hsplit, if_neg Bool.false_ne_true] at hfar
    rw [if_neg Bool.false_ne_true, hfar]
  | true =>
    rw [hsplit, if_pos rfl] at hfar
    rw [if_pos rfl, hfar]
    rfl

/-- A product in integer or lg6: the binding, a pass over each row, and the count of passes. -/
theorem runMma_plain (hblock : isBlock c.bfmt = false) :
    let v := bindCmd b c r p s
    let last := decide ((v.bay b).truss.passes.toNat + 1 = c.intv)
    ∃ f, runMma neg b c s =
      .ok (((passRows b (passBound c) last 0 (rows.map (productSums neg b c x a s)) v).orStreamFlags b .M f).modTruss b fun t => t.counted last) := by
  intro v last
  unfold runMma
  rw [hproduct.region, hproduct.front]
  simp only [bind, Except.bind]
  rw [if_pos hproduct.fits]
  apply Exists.intro
  refine (hproduct.far_eq _).trans ?_
  rw [hproduct.views]
  dsimp only
  rw [hproduct.rows]
  dsimp only
  rw [if_neg (by rw [hblock]; exact Bool.false_ne_true), List.map_map]
  have hsums : (rows.map ((fun x => x.map fun y => if neg then -y.1 else y.1) ∘ fun m => (List.range c.n).map fun n =>
      passSum (decide (c.bfmt = 0x12 ∨ c.bfmt = 0x1B)) ((List.range c.kmax).map fun i => s.peek b a 0 [m, c.korg + i]) (nth [] x.cols n) c.afmt)) =
      rows.map (productSums neg b c x a s) := by
    refine List.map_congr_left fun m _ => ?_
    rw [Function.comp_apply, List.map_map, productSums, lg_of_plain hblock]
    refine List.map_congr_left fun n _ => ?_
    cases neg
    · exact (one_mul _).symm
    · exact (neg_one_mul _).symm
  rw [hsums]
  rfl

/-- A product in a block format: the binding, the rows of its results, and the count of passes. -/
theorem runMma_block (hblock : isBlock c.bfmt = true) :
    let v := bindCmd b c r p s
    let last := decide ((v.bay b).truss.passes.toNat + 1 = c.intv)
    ∃ f, runMma neg b c s =
      .ok (((blockRows b c 0 (rows.map (productBlocks neg b c x a w s)) v).orStreamFlags b .M f).modTruss b fun t => t.counted last) := by
  intro v last
  unfold runMma
  rw [hproduct.region, hproduct.front]
  simp only [bind, Except.bind]
  rw [if_pos hproduct.fits]
  apply Exists.intro
  refine (hproduct.far_eq _).trans ?_
  rw [hproduct.views]
  dsimp only
  rw [hproduct.rows]
  dsimp only
  rw [if_pos hblock, List.map_map]
  have hblocks : (rows.map ((fun x => x.map fun y => y.1) ∘ fun m => (List.range c.n).map fun n =>
      passBlock (decide (c.bfmt = 0x12 ∨ c.bfmt = 0x1B)) neg (blockElem c.afmt) c.korg ((List.range c.kmax).map fun i => s.peek b a 0 [m, c.korg + i])
        (nth [] x.cols n) ((kBlocks c.korg c.kmax).map fun k => s.peek b w 1 [m, k]) ((nth [] x.scales n).map BitVec.toNat))) =
      rows.map (productBlocks neg b c x a w s) := by
    refine List.map_congr_left fun m _ => ?_
    rw [Function.comp_apply, List.map_map, productBlocks, lg_of_block hblock]
    rfl
  rw [hblocks]
  rfl

/-- The same product, in the state in which the truss runs it. -/
theorem Product.begun (y : TrussBay) (q : List TrussCmd) : Product b (c.taken y) (s.begun b c q) r p x a w rows := by
  have hapart := begun_apart s b c q
  obtain ⟨hregion, hfront, hfits, hfar, hviews, hrows⟩ := hproduct
  refine ⟨hregion, (begun_frontSlab s b c q).trans hfront, hfits, ?_, ?_, ?_⟩
  · rw [begun_partnerRegion]
    exact hfar
  · rw [hapart.aViews]
    exact hviews
  · rw [hapart.aRows]
    exact hrows

end

theorem productRow_begun (y : TrussBay) (q : List TrussCmd) (a : View) (m : Nat) :
    productRow b (c.taken y) a (s.begun b c q) m = productRow b c a s m :=
  List.map_congr_left fun _ _ => (begun_apart s b c q).peek b a 0 _

theorem productSums_begun (neg : Bool) (y : TrussBay) (q : List TrussCmd) (x : Slab) (a : View) (m : Nat) :
    productSums neg b (c.taken y) x a (s.begun b c q) m = productSums neg b c x a s m := by
  unfold productSums
  rw [productRow_begun]
  rfl

theorem productBlocks_begun (neg : Bool) (y : TrussBay) (q : List TrussCmd) (x : Slab) (a w : View) (m : Nat) :
    productBlocks neg b (c.taken y) x a w (s.begun b c q) m = productBlocks neg b c x a w s m := by
  unfold productBlocks
  simp only [productRow_begun, (begun_apart s b c q).peek]
  rfl

theorem aRows_length {a : View} {rows : List Nat} (h : aRows b c a s = .ok rows) : rows.length = c.rows := by
  unfold aRows at h
  split at h
  · simp only [bind, Except.bind] at h
    split at h
    · cases h
    · split at h
      · cases h
      · cases h
        simp [State.vector_]
  · simp only [bind, Except.bind] at h
    split at h
    · cases h
    · cases h
      exact List.length_range

/-! ### What a product leaves -/

section
variable {neg : Bool} {r p : Region} {x : Slab} {a w : View} {rows : List Nat} (hstarts : Starts s bent b c q) (hop : c.op = .mma neg)
  (hproduct : Product b c s r p x a w rows) (hnodup : ((s.bay b).truss.inner.map fun e => e.1).Nodup)

/-- The row writes that a product finds and makes before its passes. -/
def rowsBefore (s : State) (b : Nat) (c : TrussCmd) (r : Region) : List ((Nat × Nat) × RowOp) :=
  s.rowsOf (b / 8) ++ (if (s.bay b).truss.otherBound c then s.pending b else []) ++ if c.shadow && !(s.bay b).isOpen c.z then openingRows b r else []

/-- PASSES as a product finds it. -/
def passesBefore (x : TrussBay) (c : TrussCmd) : Nat := if x.clearedBy c then 0 else x.passes.toNat

include hnodup in
theorem bindCmd_begun (p : Region) :
    let v := bindCmd b (c.taken (s.bay b).truss) r p (s.begun b c q)
    TrussMoves s v ∧ (v.bay b).truss = ((s.bay b).truss.begins c q).rebound c r p ∧ v.rowsOf (b / 8) = rowsBefore s b c r := by
  obtain ⟨hmoves, htruss, hrows⟩ := bindCmd_binds (c := c.taken (s.bay b).truss) (r := r) (p := p) (begun_nodup (c := c) (q := q) hnodup)
  rw [begun_truss] at htruss
  rw [begun_truss, begun_pending, begun_isOpen] at hrows
  exact ⟨(begun_moves s b c q).trans hmoves, htruss, hrows⟩

theorem counted_keeps (t : TrussBay) (last : Bool) : (t.counted last).queue = t.queue ∧ (t.counted last).taken = t.taken ∧ (t.counted last).cnt = t.cnt ∧
    (t.counted last).running = t.running ∧ (t.counted last).inner = t.inner ∧ (t.counted last).pend = (t.pend && !last) ∧
    (t.counted last).passes = if last then 0 else t.passes + 1 := by
  unfold TrussBay.counted
  cases last
  · exact ⟨rfl, rfl, rfl, rfl, rfl, (Bool.and_true _).symm, rfl⟩
  · exact ⟨rfl, rfl, rfl, rfl, rfl, (Bool.and_false _).symm, rfl⟩

theorem passes_succ (x : BitVec 4) : x + 1 = BitVec.ofNat 4 (x.toNat + 1) := by
  apply BitVec.eq_of_toNat_eq
  simp [BitVec.toNat_add]

theorem rebound_passesBefore (x : TrussBay) (r p : Region) : ((x.begins c q).rebound c r p).passes.toNat = passesBefore x c := by
  rw [(TrussBay.rebound_parts _ c r p).2.2.2, passesBefore]
  show (if x.clearedBy c then 0 else x.passes : BitVec 4).toNat = _
  split <;> rfl

/-- The end of a product: from the state `v` with the truss `y` after the passes to the state after the start. -/
theorem product_ends {v : State} {f : BitVec 8} {last : Bool} (hstarts : Starts s bent b c q) (hop : c.op = .mma neg)
    (hrun : runMma neg b (c.taken (s.bay b).truss) (s.begun b c q) = .ok ((v.orStreamFlags b .M f).modTruss b fun t => t.counted last))
    (hkeeps : KeepsQueue (s.begun b c q) v b) (hmoves : TrussMoves (s.begun b c q) v) :
    ∃ t, exec (.trussCommandStart bent) s = .next t ∧ (Taken s t b c q ∧ SameMem s t) ∧
      (t.bay b).truss.passes = (if last then 0 else (v.bay b).truss.passes + 1) ∧ (t.bay b).truss.pend = ((v.bay b).truss.pend && !last) ∧
      (t.bay b).truss.inner = (v.bay b).truss.inner ∧ t.rowsOf (b / 8) = v.rowsOf (b / 8) := by
  have hcmd : runCmd b (c.taken (s.bay b).truss) (s.begun b c q) = .ok ((v.orStreamFlags b .M f).modTruss b fun t => t.counted last) := by
    unfold runCmd
    rw [show (c.taken (s.bay b).truss).op = .mma neg from hop]
    exact hrun
  have htruss : (((v.orStreamFlags b .M f).modTruss b fun t => t.counted last).bay b).truss = (v.bay b).truss.counted last := by
    rw [State.modTruss_truss, State.flags_truss]
  obtain ⟨hq, htaken, hcnt, hrunning, hinner, hpend, hpasses⟩ := counted_keeps (v.bay b).truss last
  obtain ⟨t, hexec, hleft, ⟨l, ht⟩, hbents⟩ := start_moves hstarts hcmd
    ⟨by rw [htruss, hq, hkeeps.queue], by rw [htruss, htaken, hkeeps.taken], by rw [htruss, hcnt, hkeeps.cnt], by rw [htruss, hrunning, hkeeps.running]⟩
    ((hmoves.trans (trussMoves_flags _ _ _)).trans (trussMoves_modTruss _ _ _))
  rw [htruss] at ht
  refine ⟨t, hexec, hleft, ?_, ?_, ?_, rowsOf_congr hbents _⟩
  · rw [ht]
    exact hpasses
  · rw [ht]
    exact hpend
  · rw [ht]
    exact hinner

include hstarts hop hproduct hnodup

theorem trussStart_multiplies (hblock : isBlock c.bfmt = false) (hrows : rows ≠ []) :
    let y := (s.bay b).truss
    let last := decide (passesBefore y c + 1 = c.intv)
    let old := fun m => if y.clearedBy c then [] else Tab.get [] y.inner m
    let sums := fun m => productSums neg b c x a s (nth 0 rows m)
    let place := fun m => if c.split && decide (256 ≤ m) then (s.partner b, p.base + (m - 256) * p.cols) else (b, r.at c.shadow + m * r.cols)
    ∃ t, exec (.trussCommandStart bent) s = .next t ∧ (Taken s t b c q ∧ SameMem s t) ∧
      (t.bay b).truss.passes = (if last then 0 else BitVec.ofNat 4 (passesBefore y c + 1)) ∧ (t.bay b).truss.pend = !last ∧
      (∀ m, m < rows.length → Tab.get [] (t.bay b).truss.inner m = if last then [] else passed (passBound c) (old m) (sums m)) ∧
      t.rowsOf (b / 8) = rowsBefore s b c r ++ (List.range rows.length).flatMap fun m =>
        passMoves (passBound c) last (c.bfmt == 0x12) (!c.accum || (!y.otherBound c && y.firsts.contains m)) (place m) (old m) (sums m) := by
  intro y last old sums place
  have hlen := aRows_length hproduct.rows
  obtain ⟨hvmoves, hvtruss, hvrows⟩ := bindCmd_begun (r := r) (q := q) (c := c) hnodup p
  obtain ⟨f, hrun⟩ := runMma_plain (neg := neg) (hproduct.begun y q) hblock
  have hlast : decide (((bindCmd b (c.taken y) r p (s.begun b c q)).bay b).truss.passes.toNat + 1 = (c.taken y).intv) = last := by
    rw [hvtruss, rebound_passesBefore]
    rfl
  rw [hlast] at hrun
  have hsums : rows.map (productSums neg b (c.taken y) x a (s.begun b c q)) = rows.map (productSums neg b c x a s) :=
    List.map_congr_left fun m _ => productSums_begun neg y q x a m
  rw [hsums, show passBound (c.taken y) = passBound c from rfl] at hrun
  obtain ⟨hpmoves, ⟨i, g, hptruss⟩, hpinner, hprows⟩ := passRows_passes (b := b) (bound := passBound c) (last := last)
    (rows.map (productSums neg b c x a s)) 0 (bindCmd b (c.taken y) r p (s.begun b c q))
  rw [hvtruss] at hptruss hpinner hprows
  rw [hvrows, hvmoves.partner, List.length_map] at hprows
  rw [List.length_map] at hpinner
  obtain ⟨hkq, hkt, hkc, hkr⟩ := TrussBay.rebound_keeps (y.begins c q) c r p
  have hmoves : TrussMoves (s.begun b c q) (passRows b (passBound c) last 0 (rows.map (productSums neg b c x a s)) (bindCmd b (c.taken y) r p (s.begun b c q))) :=
    (bindCmd_binds (begun_nodup hnodup)).1.trans hpmoves
  obtain ⟨t, hexec, hleft, hpasses, hpend, hinner, htrows⟩ := product_ends hstarts hop hrun
    ⟨by rw [hptruss, begun_truss]; exact hkq, by rw [hptruss, begun_truss]; exact hkt, by rw [hptruss, begun_truss]; exact hkc,
      by rw [hptruss, begun_truss]; exact hkr⟩ hmoves
  have hold (m : Nat) : Tab.get [] ((y.begins c q).rebound c r p).inner m = old m := TrussBay.rebound_inner _ c r p m
  have hsum {m : Nat} (hm : m < rows.length) : nth [] (rows.map (productSums neg b c x a s)) m = sums m := nth_map [] _ 0 _ hm
  refine ⟨t, hexec, hleft, ?_, ?_, fun m hm => ?_, ?_⟩
  · rw [hpasses, hptruss, passes_succ, rebound_passesBefore]
  · rw [hpend, hptruss]
    cases rows with
    | nil => exact absurd rfl hrows
    | cons => rw [List.map_cons, List.isEmpty_cons, Bool.not_false, Bool.or_true, Bool.true_and]
  · have hin : 0 ≤ m ∧ m < 0 + rows.length := by omega
    rw [hinner, hpinner, if_pos hin, hold, Nat.sub_zero, hsum hm]
  · rw [htrows, hprows]
    refine congrArg (rowsBefore s b c r ++ ·) (List.flatMap_congr fun m hm => ?_)
    have hm := List.mem_range.1 hm
    rw [Nat.zero_add, hold, hsum hm, TrussBay.rebound_firsts _ c r p hblock (hlen ▸ hm), TrussBay.rebound_rowAt]
    rfl

theorem trussStart_multipliesBlocks (hblock : isBlock c.bfmt = true) :
    let y := (s.bay b).truss
    let last := decide (passesBefore y c + 1 = c.intv)
    let place := fun m => if c.split && decide (256 ≤ m) then (s.partner b, p.base + (m - 256) * p.cols) else (b, r.at c.shadow + m * r.cols)
    ∃ t, exec (.trussCommandStart bent) s = .next t ∧ (Taken s t b c q ∧ SameMem s t) ∧
      (t.bay b).truss.passes = (if last then 0 else BitVec.ofNat 4 (passesBefore y c + 1)) ∧ (t.bay b).truss.pend = (y.pend && !y.clearedBy c && !last) ∧
      (∀ m, Tab.get [] (t.bay b).truss.inner m = if y.clearedBy c then [] else Tab.get [] y.inner m) ∧
      t.rowsOf (b / 8) = rowsBefore s b c r ++ (List.range rows.length).map fun m =>
        (place m, RowOp.addF32 ((productBlocks neg b c x a w s (nth 0 rows m)).map (BitVec.ofNat 32)) (!c.accum)) := by
  intro y last place
  obtain ⟨hvmoves, hvtruss, hvrows⟩ := bindCmd_begun (r := r) (q := q) (c := c) hnodup p
  obtain ⟨f, hrun⟩ := runMma_block (neg := neg) (hproduct.begun y q) hblock
  have hlast : decide (((bindCmd b (c.taken y) r p (s.begun b c q)).bay b).truss.passes.toNat + 1 = (c.taken y).intv) = last := by
    rw [hvtruss, rebound_passesBefore]
    rfl
  rw [hlast] at hrun
  have hblocks : rows.map (productBlocks neg b (c.taken y) x a w (s.begun b c q)) = rows.map (productBlocks neg b c x a w s) :=
    List.map_congr_left fun m _ => productBlocks_begun neg y q x a w m
  rw [hblocks] at hrun
  obtain ⟨hpmoves, hptruss, hprows⟩ := blockRows_queues (b := b) (c := c.taken y) (rows.map (productBlocks neg b c x a w s)) 0
    (bindCmd b (c.taken y) r p (s.begun b c q))
  rw [hvtruss] at hptruss hprows
  rw [hvrows, hvmoves.partner, List.length_map] at hprows
  obtain ⟨hkq, hkt, hkc, hkr⟩ := TrussBay.rebound_keeps (y.begins c q) c r p
  obtain ⟨t, hexec, hleft, hpasses, hpend, hinner, htrows⟩ := product_ends hstarts hop hrun
    ⟨by rw [hptruss, begun_truss]; exact hkq, by rw [hptruss, begun_truss]; exact hkt, by rw [hptruss, begun_truss]; exact hkc,
      by rw [hptruss, begun_truss]; exact hkr⟩ ((bindCmd_binds (begun_nodup hnodup)).1.trans hpmoves)
  refine ⟨t, hexec, hleft, ?_, ?_, fun m => ?_, ?_⟩
  · rw [hpasses, hptruss, passes_succ, rebound_passesBefore]
  · rw [hpend, hptruss, (TrussBay.rebound_parts _ c r p).2.2.1]
    rfl
  · rw [hinner, hptruss]
    exact TrussBay.rebound_inner _ c r p m
  · rw [htrows, hprows]
    refine congrArg (rowsBefore s b c r ++ ·) (List.map_congr_left fun m hm => ?_)
    rw [Nat.zero_add, nth_map [] _ 0 _ (List.mem_range.1 hm)]
    rfl

end

end

end Sys2Proof.Machine
end

section
/-! The signature stage and its maps (R279 to R285): exact signs, buckets in order of first appearance, representatives, and the rows of TSCAT and
TMGRAD. -/

namespace Sys2Proof.Machine

/-! ### Signs (R279) -/

/-- A number whose bits below `k` a predicate gives. -/
theorem testBit_sum_range (p : Nat → Prop) [DecidablePred p] : ∀ k,
    ((List.range k).map fun j => if p j then 2 ^ j else 0).sum < 2 ^ k ∧
      ∀ j, ((List.range k).map fun j => if p j then 2 ^ j else 0).sum.testBit j = true ↔ j < k ∧ p j
  | 0 => ⟨Nat.one_pos, fun j => by simp⟩
  | k + 1 => by
    obtain ⟨hlt, hbit⟩ := testBit_sum_range p k
    rw [List.sum_range_succ, Nat.add_comm]
    by_cases hp : p k
    · rw [if_pos hp]
      refine ⟨by rw [Nat.pow_succ]; omega, fun j => ?_⟩
      rcases Nat.lt_trichotomy j k with hj | rfl | hj
      · rw [Nat.testBit_two_pow_add_gt hj, hbit]
        exact and_congr_left fun _ => ⟨fun _ => by omega, fun _ => hj⟩
      · rw [Nat.testBit_two_pow_add_eq, Nat.testBit_lt_two_pow hlt]
        exact ⟨fun _ => ⟨by omega, hp⟩, fun _ => rfl⟩
      · rw [Nat.testBit_lt_two_pow (Nat.lt_of_lt_of_le (by rw [Nat.pow_succ]; omega : _ < 2 ^ (k + 1)) (Nat.pow_le_pow_right Nat.two_pos hj))]
        exact ⟨Bool.false_ne_true.elim, fun h => by omega⟩
    · rw [if_neg hp, Nat.zero_add]
      refine ⟨Nat.lt_of_lt_of_le hlt (Nat.pow_le_pow_right Nat.two_pos (Nat.le_succ k)), fun j => (hbit j).trans ⟨fun h => ⟨by omega, h.2⟩, fun h => ⟨?_, h.2⟩⟩⟩
      have hne : j ≠ k := fun he => hp (he ▸ h.2)
      omega

/-- A signature's bits are the signs of its sums. -/
theorem signature_testBit (n : Nat) (f : Nat → Int) (neg : Nat → Nat → Bool) (k j : Nat) :
    (signature ((List.range n).map f) neg k).testBit j = true ↔
      j < k ∧ 0 < ((List.range n).map fun d => (if neg d j then -1 else 1) * f d).sum := by
  have hzip : ((List.range n).map f).zip (List.range ((List.range n).map f).length) = (List.range n).map fun d => (f d, d) := by
    rw [List.length_map, List.length_range]
    exact (congrArg _ (List.map_id _).symm).trans List.zip_map'
  have hsum (j : Nat) : (((List.range n).map fun d => (f d, d)).map fun (a, d) => if neg d j then -a else a).sum =
      ((List.range n).map fun d => (if neg d j then -1 else 1) * f d).sum := by
    rw [List.map_map]
    refine congrArg List.sum (List.map_congr_left fun d _ => ?_)
    dsimp only [Function.comp_apply]
    cases neg d j
    · exact (one_mul _).symm
    · exact (neg_one_mul _).symm
  unfold signature
  rw [hzip]
  dsimp only
  simp only [hsum, gt_iff_lt]
  exact (testBit_sum_range (fun j => 0 < ((List.range n).map fun d => (if neg d j then -1 else 1) * f d).sum) k).2 j

/-! ### Buckets (R281) -/

/-- The keys seen once those of a list have been numbered too. -/
def keysSeen : List Nat → List Nat → List Nat
  | [], keys => keys
  | x :: t, keys => if keys.contains x then keysSeen t keys else keysSeen t (keys ++ [x])

theorem keysSeen_prefix : ∀ l keys : List Nat, keys <+: keysSeen l keys
  | [], keys => List.prefix_refl keys
  | x :: t, keys => by
    unfold keysSeen
    split
    · exact keysSeen_prefix t keys
    · exact (List.prefix_append keys [x]).trans (keysSeen_prefix t (keys ++ [x]))

theorem mem_keysSeen : ∀ {l keys : List Nat} {x : Nat}, x ∈ l → x ∈ keysSeen l keys
  | y :: t, keys, x, hx => by
    unfold keysSeen
    split
    · rename_i hy
      rcases List.mem_cons.1 hx with rfl | hx
      · exact (keysSeen_prefix t keys).subset (List.contains_iff_mem.1 hy)
      · exact mem_keysSeen hx
    · rcases List.mem_cons.1 hx with rfl | hx
      · exact (keysSeen_prefix t _).subset (List.mem_append_right _ (List.mem_singleton_self _))
      · exact mem_keysSeen hx

/-- Each key's bucket is its place among those seen. -/
theorem buckets_eq : ∀ l keys out : List Nat, buckets l keys out = (keysSeen l keys, out ++ l.map fun x => (keysSeen l keys).idxOf x)
  | [], keys, out => by rw [buckets, keysSeen, List.map_nil, List.append_nil]
  | x :: t, keys, out => by
    unfold buckets keysSeen
    by_cases hx : keys.contains x = true
    · have hidx := (keysSeen_prefix t keys).idxOf_eq_of_mem (List.contains_iff_mem.1 hx)
      rw [if_pos hx, if_pos hx, buckets_eq t keys, List.append_assoc, List.map_cons, ← hidx]
      rfl
    · have hnew : x ∉ keys := fun h => hx (List.contains_iff_mem.2 h)
      have hidx := (keysSeen_prefix t (keys ++ [x])).idxOf_eq_of_mem (List.mem_append_right keys (List.mem_singleton_self x))
      rw [List.idxOf_append_of_notMem hnew, List.idxOf_cons_self, Nat.add_zero] at hidx
      rw [if_neg hx, if_neg hx, buckets_eq t (keys ++ [x]), List.append_assoc, List.map_cons, ← hidx]
      rfl

/-- A bucket's first member, before which only earlier buckets stand. -/
theorem keysSeen_first : ∀ (l keys : List Nat) (j : Nat), keys.Nodup → keys.length ≤ j → j < (keysSeen l keys).length →
    ∃ p, ∃ hp : p < l.length, (keysSeen l keys).idxOf l[p] = j ∧ ∀ i (hi : i < p), (keysSeen l keys).idxOf (l[i]'(Nat.lt_trans hi hp)) < j
  | [], keys, j, _, hle, hlt => absurd hlt (Nat.not_lt.2 hle)
  | x :: t, keys, j, hnodup, hle, hlt => by
    unfold keysSeen at hlt ⊢
    by_cases hx : keys.contains x = true
    · rw [if_pos hx] at hlt ⊢
      obtain ⟨p, hp, hidx, hbefore⟩ := keysSeen_first t keys j hnodup hle hlt
      refine ⟨p + 1, Nat.succ_lt_succ hp, hidx, fun i hi => ?_⟩
      cases i with
      | zero =>
        have hmem := List.contains_iff_mem.1 hx
        show (keysSeen t keys).idxOf x < j
        rw [← (keysSeen_prefix t keys).idxOf_eq_of_mem hmem]
        exact Nat.lt_of_lt_of_le (List.idxOf_lt_length_iff.2 hmem) hle
      | succ i => exact hbefore i (Nat.lt_of_succ_lt_succ hi)
    · rw [if_neg hx] at hlt ⊢
      have hnew : x ∉ keys := fun h => hx (List.contains_iff_mem.2 h)
      have hmem : x ∈ keys ++ [x] := List.mem_append_right keys (List.mem_singleton_self x)
      have hidx : (keysSeen t (keys ++ [x])).idxOf x = keys.length := by
        rw [← (keysSeen_prefix t (keys ++ [x])).idxOf_eq_of_mem hmem, List.idxOf_append_of_notMem hnew, List.idxOf_cons_self, Nat.add_zero]
      rcases Nat.eq_or_lt_of_le hle with heq | hlt'
      · exact ⟨0, Nat.succ_pos _, hidx.trans heq, fun i hi => absurd hi (Nat.not_lt_zero i)⟩
      · have hlen : (keys ++ [x]).length ≤ j := by
          rw [List.length_append, List.length_singleton]
          exact hlt'
        have hnodup' : (keys ++ [x]).Nodup := by
          rw [List.nodup_append]
          exact ⟨hnodup, List.nodup_singleton x, fun a ha b hb => by rw [List.mem_singleton.1 hb]; exact fun h => hnew (h ▸ ha)⟩
        obtain ⟨p, hp, hidx', hbefore⟩ := keysSeen_first t (keys ++ [x]) j hnodup' hlen hlt
        refine ⟨p + 1, Nat.succ_lt_succ hp, hidx', fun i hi => ?_⟩
        cases i with
        | zero => exact hidx ▸ hlt'
        | succ i => exact hbefore i (Nat.lt_of_succ_lt_succ hi)

/-- The representative of a bucket, as its first member. -/
theorem bucket_first {l : List Nat} {j : Nat} (hj : j < (keysSeen l []).length) :
    let bk := l.map fun x => (keysSeen l []).idxOf x
    let p := bk.findIdx (· == j)
    p < l.length ∧ nth 0 bk p = j ∧ ∀ m, m < p → nth 0 bk m < j := by
  intro bk p
  obtain ⟨p', hp', hidx, hbefore⟩ := keysSeen_first l [] j List.nodup_nil (Nat.zero_le j) hj
  have hlen : bk.length = l.length := List.length_map _
  have hget (i : Nat) (hi : i < l.length) : bk[i]'(hlen ▸ hi) = (keysSeen l []).idxOf l[i] := List.getElem_map _
  have hp : p = p' := by
    refine (List.findIdx_eq (hlen ▸ hp')).2 ⟨?_, fun i hi => ?_⟩
    · rw [hget p' hp', hidx]
      exact beq_self_eq_true j
    · have hlt := hbefore i hi
      rw [hget i (Nat.lt_trans hi hp')]
      exact beq_false_of_ne (Nat.ne_of_lt hlt)
  rw [hp]
  refine ⟨hp', ?_, fun m hm => ?_⟩
  · rw [nth_map 0 _ 0 _ hp', nth, List.getD_eq_getElem _ _ hp']
    exact hidx
  · have hm' := Nat.lt_trans hm hp'
    rw [nth_map 0 _ 0 _ hm', nth, List.getD_eq_getElem _ _ hm']
    exact hbefore m hm

/-! ### Representatives (R282) -/

/-- The running choice of the largest norm, over rows in increasing order. -/
theorem largest_foldl (norm : Nat → Int) : ∀ (l : List Nat) (a : Nat), (∀ x ∈ l, a < x) → l.Pairwise (· < ·) →
    let r := l.foldl (fun a r => if norm r > norm a then r else a) a
    r ∈ a :: l ∧ ∀ m ∈ a :: l, norm m < norm r ∨ norm m = norm r ∧ r ≤ m
  | [], a, _, _ => ⟨List.mem_singleton_self a, fun m hm => .inr (by rw [List.mem_singleton.1 hm]; exact ⟨rfl, le_refl a⟩)⟩
  | x :: t, a, hfirst, hsorted => by
    obtain ⟨hx, ht⟩ := List.pairwise_cons.1 hsorted
    obtain ⟨hax, hat⟩ := List.forall_mem_cons.1 hfirst
    rw [List.foldl_cons]
    by_cases hlarger : norm x > norm a
    · rw [if_pos hlarger]
      obtain ⟨hmem, hmax⟩ := largest_foldl norm t x hx ht
      refine ⟨List.mem_cons_of_mem _ hmem, fun m hm => ?_⟩
      rcases List.mem_cons.1 hm with rfl | hm
      · rcases hmax x List.mem_cons_self with h | h <;> exact .inl (by omega)
      · exact hmax m hm
    · rw [if_neg hlarger]
      obtain ⟨hmem, hmax⟩ := largest_foldl norm t a hat ht
      refine ⟨?_, fun m hm => ?_⟩
      · rcases List.mem_cons.1 hmem with h | h
        · rw [h]
          exact List.mem_cons_self
        · exact List.mem_cons_of_mem _ (List.mem_cons_of_mem _ h)
      · rcases List.mem_cons.1 hm with rfl | hm
        · exact hmax m List.mem_cons_self
        · rcases List.mem_cons.1 hm with rfl | hm
          · rcases hmax a List.mem_cons_self with h | h <;> omega
          · exact hmax m (List.mem_cons_of_mem _ hm)

theorem bucketMembers_sorted (x : SigMap) (j : Nat) : (bucketMembers x j).Pairwise (· < ·) := List.pairwise_lt_range.filter _

theorem largestNorm_largest (norm : Nat → Int) {l : List Nat} (hne : l ≠ []) (hsorted : l.Pairwise (· < ·)) :
    largestNorm norm l ∈ l ∧ ∀ m ∈ l, norm m < norm (largestNorm norm l) ∨ norm m = norm (largestNorm norm l) ∧ largestNorm norm l ≤ m := by
  cases l with
  | nil => exact absurd rfl hne
  | cons a t =>
    obtain ⟨ha, ht⟩ := List.pairwise_cons.1 hsorted
    exact largest_foldl norm t a ha ht

/-! ### Commands that write memory or rows alone -/

section
variable {s v : State} {bent b : Nat} {c : TrussCmd} {q : List TrussCmd}

/-- A command that leaves its truss as it found it. -/
theorem start_quiet (hstarts : Starts s bent b c q) (hrun : runCmd b (c.taken (s.bay b).truss) (s.begun b c q) = .ok v)
    (htruss : (v.bay b).truss = ((s.begun b c q).bay b).truss) :
    let t := v.modTruss b ((c.taken (s.bay b).truss).flies (s.bay b).truss.opens)
    exec (.trussCommandStart bent) s = .next t ∧ TrussQuiet s t b c q := by
  obtain ⟨hexec, htaken⟩ := start_taken hstarts hrun ⟨by rw [htruss], by rw [htruss], by rw [htruss], by rw [htruss]⟩
  refine ⟨hexec, htaken, ?_⟩
  rw [State.modTruss_truss, htruss, begun_truss]
  rfl

end

/-! ### TSIGN -/

section
variable {s : State} {b : Nat} {c : TrussCmd} {q : List TrussCmd}

/-- The sign of a hyperplane's position: of a stored one, or of a generated one (R276). -/
def hyperNeg (b : Nat) (c : TrussCmd) (hp : View) (s : State) (t d j : Nat) : Bool :=
  if c.hfStored then decide (intVal hp.fmt (s.peek b hp 1 [d, t * c.sigK + j]) < 0) else generatedNeg (c.hfw 1) d t j

/-- The signature of row `m` in table `t`. -/
def rowSignature (b : Nat) (c : TrussCmd) (a hp : View) (s : State) (m t : Nat) : Nat :=
  signature ((List.range c.k).map fun d => aval c.afmt (s.peek b a 0 [m, d])) (hyperNeg b c hp s t) c.sigK

/-- The rows and tables of a signature command, in order. -/
def signPlaces (c : TrussCmd) : List (Nat × Nat) := (List.range c.m).flatMap fun m => (List.range c.sigL).map fun k => (m, k)

/-- What follows a choice between a check and a value that stands. -/
theorem bind_of_if {α β : Type} {p : Prop} [Decidable p] {x : Except Stop α} {a a' : α} (h : (if p then x else .ok a) = .ok a') (k : α → Except Stop β) :
    (if p then Except.bind x k else k a) = k a' := by
  split at h
  · rename_i hp
    rw [if_pos hp, h]
    rfl
  · rename_i hp
    rw [if_neg hp, Except.ok.inj h]

theorem runSign_writes {a v hp : View} (ha : actView b c s = .ok a) (hv : writeView b (c.h hSIGH) 2 s = .ok v)
    (hplanes : (if c.hfStored then planesView b c s else .ok a) = .ok hp) :
    runSign b c s = .ok ((signPlaces c).foldl (fun u e => u.poke b v 2 [e.1, e.2] (rowSignature b c a hp s e.1 e.2)) s) := by
  have hzip : (((List.range c.m).map fun m => (List.range c.k).map fun d => aval c.afmt (s.peek b a 0 [m, d])).zip (List.range c.m)) =
      (List.range c.m).map fun m => ((List.range c.k).map fun d => aval c.afmt (s.peek b a 0 [m, d]), m) :=
    (congrArg _ (List.map_id _).symm).trans List.zip_map'
  have hout : ((List.range c.m).map fun m => ((List.range c.k).map fun d => aval c.afmt (s.peek b a 0 [m, d]), m)).flatMap (fun (r, m) =>
      (List.range c.sigL).map fun t => (m, t, signature r (hyperNeg b c hp s t) c.sigK)) =
      (signPlaces c).map fun e => (e.1, e.2, rowSignature b c a hp s e.1 e.2) := by
    rw [signPlaces, List.map_flatMap, List.flatMap_map]
    refine List.flatMap_congr fun m _ => ?_
    rw [List.map_map]
    rfl
  unfold runSign
  rw [ha, hv]
  simp only [bind, Except.bind]
  refine (bind_of_if hplanes _).trans (congrArg Except.ok ?_)
  rw [hzip]
  exact (congrArg (fun l => List.foldl (fun (s : State) (e : Nat × Nat × Nat) => s.poke b v 2 [e.1, e.2.1] e.2.2) s l) hout).trans List.foldl_map

theorem rowSignature_begun (a hp : View) (m t : Nat) :
    rowSignature b (c.taken (s.bay b).truss) a hp (s.begun b c q) m t = rowSignature b c a hp s m t := by
  have hneg : hyperNeg b (c.taken (s.bay b).truss) hp (s.begun b c q) t = hyperNeg b c hp s t := by
    funext d j
    unfold hyperNeg
    rw [(begun_apart s b c q).peek]
    rfl
  unfold rowSignature
  rw [hneg]
  simp only [(begun_apart s b c q).peek]
  rfl

theorem trussStart_signs {bent : Nat} {a v hp : View} (hstarts : Starts s bent b c q) (hop : c.op = .sign) (ha : actView b c s = .ok a)
    (hv : writeView b (c.h hSIGH) 2 s = .ok v) (hplanes : (if c.hfStored then planesView b c s else .ok a) = .ok hp) :
    ∃ t, exec (.trussCommandStart bent) s = .next t ∧ TrussQuiet s t b c q ∧ t.rowsOf (b / 8) = s.rowsOf (b / 8) ∧
      t.mem = ((signPlaces c).foldl (fun u e => u.poke b v 2 [e.1, e.2] (rowSignature b c a hp s e.1 e.2)) s).mem := by
  have hapart := begun_apart s b c q
  have hrun := runSign_writes (s := s.begun b c q) (c := c.taken (s.bay b).truss) (b := b) (hapart.actView b c ▸ ha) (hapart.writeView b (c.h hSIGH) 2 ▸ hv)
    (hp := hp) (by rw [hapart.planesView]; exact hplanes)
  simp only [rowSignature_begun] at hrun
  have hcmd : runCmd b (c.taken (s.bay b).truss) (s.begun b c q) = runSign b (c.taken (s.bay b).truss) (s.begun b c q) := by
    unfold runCmd
    rw [show (c.taken (s.bay b).truss).op = .sign from hop]
  have hsame := foldl_sameTruss (f := fun u (e : Nat × Nat) => u.poke b v 2 [e.1, e.2] (rowSignature b c a hp s e.1 e.2))
    (fun u e => poke_sameTruss u b v 2 _ _) (signPlaces c) (s.begun b c q)
  have hboth := TrussApart.foldl (f := fun u (e : Nat × Nat) => u.poke b v 2 [e.1, e.2] (rowSignature b c a hp s e.1 e.2))
    (fun _ _ e h => h.poke b v 2 _ _) (signPlaces c) hapart
  obtain ⟨hexec, hquiet⟩ := start_quiet hstarts (hcmd.trans hrun) (hsame.2 b)
  exact ⟨_, hexec, hquiet, rowsOf_congr hsame.1 _, hboth.mem⟩

end

/-! ### TBUCKET -/

section
variable {s : State} {b : Nat} {c : TrussCmd} {q : List TrussCmd}

/-- A row's key in the table of the command. -/
def bucketKey (b : Nat) (c : TrussCmd) (v : View) (s : State) (m : Nat) : Nat := s.peek b v 1 [m, c.tbl] % 2 ^ c.sigK / 2 ^ (c.sigK - c.sigBw)

/-- The bucket of each key, the first member of each bucket, and how many it has. -/
def bucketsOf (keys : List Nat) : List Nat := keys.map fun x => (keysSeen keys []).idxOf x
def bucketReps (keys : List Nat) : List Nat := (List.range (keysSeen keys []).length).map fun j => (bucketsOf keys).findIdx (· == j)
def bucketCounts (keys : List Nat) : List Nat := (List.range (keysSeen keys []).length).map fun j => ((bucketsOf keys).filter (· == j)).length

/-- The map that TBUCKET writes. -/
def bucketMap (n : Nat) (keys : List Nat) : List Nat :=
  [(bucketReps keys).length, n, 0xFFFF] ++ bucketsOf keys ++ padTo n (bucketReps keys) ++ padTo n (bucketCounts keys)

theorem runBucket_writes {v mv : View} (hv : plainView b (c.h hSIGH) 1 s = .ok v) (hmap : mapView b c true s = .ok mv) :
    runBucket b c s = .ok (pokeFrom b mv 3 0 (bucketMap c.m ((List.range c.m).map (bucketKey b c v s))) s) := by
  unfold runBucket
  rw [hv, hmap]
  simp only [bind, Except.bind]
  rw [buckets_eq, List.nil_append, bucketMap, bucketReps, List.length_map, List.length_range]
  rfl

theorem trussStart_buckets {bent : Nat} {v mv : View} (hstarts : Starts s bent b c q) (hop : c.op = .bucket)
    (hv : plainView b (c.h hSIGH) 1 s = .ok v) (hmap : mapView b c true s = .ok mv) :
    ∃ t, exec (.trussCommandStart bent) s = .next t ∧ TrussQuiet s t b c q ∧ t.rowsOf (b / 8) = s.rowsOf (b / 8) ∧
      t.mem = (pokeFrom b mv 3 0 (bucketMap c.m ((List.range c.m).map (bucketKey b c v s))) s).mem := by
  have hapart := begun_apart s b c q
  have hkeys : (List.range c.m).map (bucketKey b (c.taken (s.bay b).truss) v (s.begun b c q)) = (List.range c.m).map (bucketKey b c v s) :=
    List.map_congr_left fun m _ => by
      unfold bucketKey
      rw [hapart.peek]
      rfl
  have hrun := runBucket_writes (s := s.begun b c q) (c := c.taken (s.bay b).truss) (b := b) (hapart.plainView b (c.h hSIGH) 1 ▸ hv) (hapart.mapView b c true ▸ hmap)
  rw [show (c.taken (s.bay b).truss).m = c.m from rfl, hkeys] at hrun
  have hcmd : runCmd b (c.taken (s.bay b).truss) (s.begun b c q) = runBucket b (c.taken (s.bay b).truss) (s.begun b c q) := by
    unfold runCmd
    rw [show (c.taken (s.bay b).truss).op = .bucket from hop]
  have hsame := pokeFrom_sameTruss b mv 3 (bucketMap c.m ((List.range c.m).map (bucketKey b c v s))) 0 (s.begun b c q)
  obtain ⟨hexec, hquiet⟩ := start_quiet hstarts (hcmd.trans hrun) (hsame.2 b)
  exact ⟨_, hexec, hquiet, rowsOf_congr hsame.1 _, (TrussApart.pokeFrom b mv 3 _ 0 hapart).mem⟩

theorem bucketsOf_nth {keys : List Nat} {m : Nat} (hm : m < keys.length) : nth 0 (bucketsOf keys) m = (keysSeen keys []).idxOf (nth 0 keys m) :=
  nth_map 0 _ 0 _ hm

theorem bucketsOf_same {keys : List Nat} {m n : Nat} (hm : m < keys.length) (hn : n < keys.length) :
    nth 0 (bucketsOf keys) m = nth 0 (bucketsOf keys) n ↔ nth 0 keys m = nth 0 keys n := by
  rw [bucketsOf_nth hm, bucketsOf_nth hn]
  refine List.idxOf_inj (mem_keysSeen ?_)
  rw [nth, List.getD_eq_getElem _ _ hm]
  exact List.getElem_mem hm

theorem bucketReps_length (keys : List Nat) : (bucketReps keys).length = (keysSeen keys []).length := by
  rw [bucketReps, List.length_map, List.length_range]

theorem bucketsOf_lt {keys : List Nat} {k : Nat} (h : k ∈ bucketsOf keys) : k < (bucketReps keys).length := by
  obtain ⟨x, hx, rfl⟩ := List.mem_map.1 h
  rw [bucketReps_length]
  exact List.idxOf_lt_length_iff.2 (mem_keysSeen hx)

theorem bucketReps_first {keys : List Nat} {j : Nat} (hj : j < (bucketReps keys).length) :
    nth 0 (bucketReps keys) j < keys.length ∧ nth 0 (bucketsOf keys) (nth 0 (bucketReps keys) j) = j ∧
      (∀ m, m < nth 0 (bucketReps keys) j → nth 0 (bucketsOf keys) m < j) ∧ nth 0 (bucketCounts keys) j = (bucketsOf keys).count j := by
  rw [bucketReps_length] at hj
  have hget {f : Nat → Nat} : nth 0 ((List.range (keysSeen keys []).length).map f) j = f j := by
    rw [nth_map 0 f 0 _ (by rw [List.length_range]; exact hj), nth, List.getD_eq_getElem _ _ (by rw [List.length_range]; exact hj), List.getElem_range]
  have hrep : nth 0 (bucketReps keys) j = (bucketsOf keys).findIdx (· == j) := hget
  obtain ⟨hlt, hbucket, hbefore⟩ := bucket_first hj
  rw [hrep]
  exact ⟨hlt, hbucket, hbefore, hget.trans List.count_eq_length_filter.symm⟩

end

end Sys2Proof.Machine
end

section
/-! TREPS (R282), TSCAT and TMGRAD (R284, R285). -/

namespace Sys2Proof.Machine

section
variable {s : State} {bent b : Nat} {c : TrussCmd} {q : List TrussCmd} (hstarts : Starts s bent b c q)

/-! ### TREPS -/

theorem runReps_first {mv iv : View} (hmap : mapView b c true s = .ok mv) (hindex : writeView b (c.h hIXOH) 2 s = .ok iv) :
    runReps 0 b c s = .ok ((pokeFrom b iv 2 0 (readMap b c mv s).rep s).pokeIndex b mv 3 2 0) := by
  unfold runReps
  rw [hmap, hindex]
  rfl

/-- The exact squared norm of a row of A. -/
def rowNorm (b : Nat) (c : TrussCmd) (a : View) (s : State) (m : Nat) : Int :=
  ((List.range c.k).map fun d => aval c.afmt (s.peek b a 0 [m, d]) * aval c.afmt (s.peek b a 0 [m, d])).sum

/-- The members of the largest norm, by bucket. -/
def largestReps (b : Nat) (c : TrussCmd) (a : View) (x : SigMap) (s : State) : List Nat :=
  (List.range x.nb).map fun j => largestNorm (rowNorm b c a s) (bucketMembers x j)

theorem runReps_largest {a mv iv : View} (hmap : mapView b c true s = .ok mv) (hindex : writeView b (c.h hIXOH) 2 s = .ok iv) (ha : actView b c s = .ok a) :
    let reps := largestReps b c a (readMap b c mv s) s
    runReps 2 b c s = .ok ((pokeFrom b mv 3 (3 + c.m) reps (pokeFrom b iv 2 0 reps s)).pokeIndex b mv 3 2 2) := by
  have hnorm : (fun m => (((List.range c.k).map fun d => aval c.afmt (s.peek b a 0 [m, d])).map fun v => v * v).sum) = rowNorm b c a s := by
    funext m
    rw [List.map_map, rowNorm]
    rfl
  unfold runReps largestReps
  rw [hmap, hindex, ← hnorm]
  simp only [bind, Except.bind]
  rw [ha]
  rfl

/-- The buckets and columns of the means, in order. -/
def meanPlaces (c : TrussCmd) (x : SigMap) : List (Nat × Nat) := (List.range x.nb).flatMap fun j => (List.range c.k).map fun d => (j, d)

/-- The mean of a bucket's column. -/
def bucketMean (b : Nat) (c : TrussCmd) (a : View) (x : SigMap) (s : State) (e : Nat × Nat) : Nat × BitVec 8 :=
  meanOf c.afmt ((bucketMembers x e.1).map fun m => aval c.afmt (s.peek b a 0 [m, e.2])).sum (nth 1 x.cnt e.1)

theorem runReps_mean {a v mv iv : View} (hmap : mapView b c true s = .ok mv) (hindex : writeView b (c.h hIXOH) 2 s = .ok iv) (ha : actView b c s = .ok a)
    (hv : writeView b (c.h hREPH) 2 s = .ok v) :
    let x := readMap b c mv s
    ∃ f, runReps 1 b c s = .ok (((pokeFrom b iv 2 0 (List.range x.nb)
      ((meanPlaces c x).foldl (fun u e => u.poke b v 2 [e.1, e.2] (bucketMean b c a x s e).1) s)).pokeIndex b mv 3 2 1).orStreamFlags b .M f) := by
  intro x
  have hout : ((List.range x.nb).flatMap fun j => (List.range c.k).map fun d =>
      (j, d, meanOf c.afmt (((bucketMembers x j).map fun m => (List.range c.k).map fun d => aval c.afmt (s.peek b a 0 [m, d])).map fun r => nth 0 r d).sum
        (nth 1 x.cnt j))) = (meanPlaces c x).map fun e => (e.1, e.2, bucketMean b c a x s e) := by
    rw [meanPlaces, List.map_flatMap]
    refine List.flatMap_congr fun j _ => ?_
    rw [List.map_map]
    refine List.map_congr_left fun d hd => ?_
    have hcol : ((bucketMembers x j).map fun m => (List.range c.k).map fun d => aval c.afmt (s.peek b a 0 [m, d])).map (fun r => nth 0 r d) =
        (bucketMembers x j).map fun m => aval c.afmt (s.peek b a 0 [m, d]) := by
      rw [List.map_map]
      refine List.map_congr_left fun m _ => ?_
      have hlt : d < (List.range c.k).length := by rw [List.length_range]; exact List.mem_range.1 hd
      rw [Function.comp_apply, nth_map 0 _ 0 _ hlt, nth, List.getD_eq_getElem _ _ hlt, List.getElem_range]
    rw [hcol]
    rfl
  unfold runReps
  rw [hmap, hindex]
  simp only [bind, Except.bind]
  rw [ha]
  dsimp only
  rw [hv]
  dsimp only
  apply Exists.intro
  rw [if_neg (by decide), if_neg (by decide)]
  refine congrArg Except.ok (congrArg (State.orStreamFlags · b .M _) ?_)
  refine congrArg (fun u => (pokeFrom b iv 2 0 (List.range x.nb) u).pokeIndex b mv 3 2 1) ?_
  exact (congrArg (fun l => List.foldl (fun (s : State) (e : Nat × Nat × Nat × BitVec 8) => s.poke b v 2 [e.1, e.2.1] e.2.2.1) s l) hout).trans List.foldl_map

/-- A command of the map: what it reads and the states that it starts from. -/
theorem runCmd_reps {rule : Nat} (hop : c.op = .reps rule) : runCmd b (c.taken (s.bay b).truss) (s.begun b c q) = runReps rule b (c.taken (s.bay b).truss) (s.begun b c q) := by
  unfold runCmd
  rw [show (c.taken (s.bay b).truss).op = .reps rule from hop]

theorem readMap_begun (mv : View) : readMap b (c.taken (s.bay b).truss) mv (s.begun b c q) = readMap b c mv s := (begun_apart s b c q).readMap b c mv

include hstarts in
theorem trussStart_repsFirst {mv iv : View} (hop : c.op = .reps 0) (hmap : mapView b c true s = .ok mv) (hindex : writeView b (c.h hIXOH) 2 s = .ok iv) :
    ∃ t, exec (.trussCommandStart bent) s = .next t ∧ TrussQuiet s t b c q ∧
      t.mem = ((pokeFrom b iv 2 0 (readMap b c mv s).rep s).pokeIndex b mv 3 2 0).mem := by
  have hapart := begun_apart s b c q
  have hrun := runReps_first (s := s.begun b c q) (c := c.taken (s.bay b).truss) (b := b) (hapart.mapView b c true ▸ hmap) (hapart.writeView b (c.h hIXOH) 2 ▸ hindex)
  rw [readMap_begun] at hrun
  have hsame := (pokeFrom_sameTruss b iv 2 (readMap b c mv s).rep 0 (s.begun b c q)).trans (poke_sameTruss _ b mv 3 (mv.coordsOf 2) 0)
  obtain ⟨hexec, hquiet⟩ := start_quiet hstarts ((runCmd_reps hop).trans hrun) (hsame.2 b)
  exact ⟨_, hexec, hquiet, ((TrussApart.pokeFrom b iv 2 _ 0 hapart).pokeIndex b mv 3 2 0).mem⟩

include hstarts in
theorem trussStart_repsLargest {a mv iv : View} (hop : c.op = .reps 2) (hmap : mapView b c true s = .ok mv) (hindex : writeView b (c.h hIXOH) 2 s = .ok iv)
    (ha : actView b c s = .ok a) :
    let reps := largestReps b c a (readMap b c mv s) s
    ∃ t, exec (.trussCommandStart bent) s = .next t ∧ TrussQuiet s t b c q ∧
      t.mem = ((pokeFrom b mv 3 (3 + c.m) reps (pokeFrom b iv 2 0 reps s)).pokeIndex b mv 3 2 2).mem := by
  intro reps
  have hapart := begun_apart s b c q
  have hrun := runReps_largest (s := s.begun b c q) (c := c.taken (s.bay b).truss) (b := b) (hapart.mapView b c true ▸ hmap)
    (hapart.writeView b (c.h hIXOH) 2 ▸ hindex) (hapart.actView b c ▸ ha)
  have hreps : largestReps b (c.taken (s.bay b).truss) a (readMap b c mv s) (s.begun b c q) = reps := by
    have hnorm : rowNorm b (c.taken (s.bay b).truss) a (s.begun b c q) = rowNorm b c a s := by
      funext m
      unfold rowNorm
      simp only [hapart.peek]
      rfl
    unfold largestReps
    rw [hnorm]
    rfl
  rw [readMap_begun, hreps] at hrun
  have hsame := ((pokeFrom_sameTruss b iv 2 reps 0 (s.begun b c q)).trans (pokeFrom_sameTruss b mv 3 reps (3 + c.m) _)).trans
    (poke_sameTruss _ b mv 3 (mv.coordsOf 2) 2)
  obtain ⟨hexec, hquiet⟩ := start_quiet hstarts ((runCmd_reps hop).trans hrun) (hsame.2 b)
  exact ⟨_, hexec, hquiet, ((TrussApart.pokeFrom b mv 3 reps _ (TrussApart.pokeFrom b iv 2 reps 0 hapart)).pokeIndex b mv 3 2 2).mem⟩

include hstarts in
theorem trussStart_repsMean {a v mv iv : View} (hop : c.op = .reps 1) (hmap : mapView b c true s = .ok mv) (hindex : writeView b (c.h hIXOH) 2 s = .ok iv)
    (ha : actView b c s = .ok a) (hv : writeView b (c.h hREPH) 2 s = .ok v) :
    let x := readMap b c mv s
    ∃ t, exec (.trussCommandStart bent) s = .next t ∧ TrussQuiet s t b c q ∧
      t.mem = ((pokeFrom b iv 2 0 (List.range x.nb)
        ((meanPlaces c x).foldl (fun u e => u.poke b v 2 [e.1, e.2] (bucketMean b c a x s e).1) s)).pokeIndex b mv 3 2 1).mem := by
  intro x
  have hapart := begun_apart s b c q
  obtain ⟨f, hrun⟩ := runReps_mean (s := s.begun b c q) (c := c.taken (s.bay b).truss) (b := b) (hapart.mapView b c true ▸ hmap)
    (hapart.writeView b (c.h hIXOH) 2 ▸ hindex) (hapart.actView b c ▸ ha) (hapart.writeView b (c.h hREPH) 2 ▸ hv)
  have hmean : bucketMean b (c.taken (s.bay b).truss) a x (s.begun b c q) = bucketMean b c a x s := by
    funext e
    unfold bucketMean
    simp only [hapart.peek]
    rfl
  rw [readMap_begun, show meanPlaces (c.taken (s.bay b).truss) x = meanPlaces c x from rfl, hmean] at hrun
  have hpokes := foldl_sameTruss (f := fun u (e : Nat × Nat) => u.poke b v 2 [e.1, e.2] (bucketMean b c a x s e).1) (fun u e => poke_sameTruss u b v 2 _ _)
    (meanPlaces c x) (s.begun b c q)
  have hsame := ((hpokes.trans (pokeFrom_sameTruss b iv 2 (List.range x.nb) 0 _)).trans (poke_sameTruss _ b mv 3 (mv.coordsOf 2) 1)).trans
    (sameTruss_modBay _ b (f := fun y => (y.setStream .M { y.stream .M with flags := (y.stream .M).flags ||| f }).mark markFlags) rfl)
  obtain ⟨hexec, hquiet⟩ := start_quiet hstarts ((runCmd_reps hop).trans hrun) (hsame.2 b)
  have hboth := TrussApart.foldl (f := fun u (e : Nat × Nat) => u.poke b v 2 [e.1, e.2] (bucketMean b c a x s e).1) (fun _ _ e h => h.poke b v 2 _ _)
    (meanPlaces c x) hapart
  exact ⟨_, hexec, hquiet, ((TrussApart.pokeFrom b iv 2 (List.range x.nb) 0 hboth).pokeIndex b mv 3 2 1).mem⟩

/-! ### Rows of entries -/

/-- A command that queues rows of bits alone. -/
theorem start_rows {n : Nat} {g : Nat → RowWrite} {v : State} (hstarts : Starts s bent b c q)
    (hrun : runCmd b (c.taken (s.bay b).truss) (s.begun b c q) = .ok v) (hv : ∃ w, TrussMoves (s.begun b c q) w ∧ w.bents = s.bents ∧
      (w.bay b).truss = ((s.begun b c q).bay b).truss ∧ TrussMoves w v ∧ (v.bay b).truss = (w.bay b).truss ∧
      (v.bent (b / 8)).writes = (w.bent (b / 8)).writes ++ (List.range n).map g) :
    ∃ t, exec (.trussCommandStart bent) s = .next t ∧ TrussQuiet s t b c q ∧ SameMem s t ∧
      t.rowsOf (b / 8) = s.rowsOf (b / 8) ++ (List.range n).map fun m => (((g m).bay, (g m).base), (g m).op) := by
  obtain ⟨w, hw, hwbents, hwtruss, hmoves, htruss, hwrites⟩ := hv
  obtain ⟨hexec, hquiet⟩ := start_quiet hstarts hrun (htruss.trans hwtruss)
  refine ⟨_, hexec, hquiet, (((begun_moves s b c q).trans hw).trans hmoves).sameMem, ?_⟩
  rw [State.modTruss_rowsOf, rowsOf_of_writes hwrites, rowsOf_congr hwbents, List.map_map]
  rfl

/-- The row write of the bits `vals`. -/
def bitsRow (b bay : Nat) (c : TrussCmd) (x : TrussBay) (base : Nat) (i32 : Bool) (vals : List Nat) : RowWrite :=
  { owner := b, bay := bay, id := x.taken, base := base, n := vals.length, i32 := i32, wmask := c.wmask, op := .bits (vals.map (BitVec.ofNat 32)) }

theorem rowBits_eq (b bay : Nat) (c : TrussCmd) (base : Nat) (i32 : Bool) (vals : List Nat) (s : State) :
    rowBits b bay c base i32 vals s = s.rowWrite (bitsRow b bay c (s.bay b).truss base i32 vals) := rfl

/-! ### TSCAT -/

/-- The row write of row `m` of a scatter. -/
def scatRow (b far : Nat) (c : TrussCmd) (y : TrussBay) (d p : Region) (vals : Nat → List Nat) (m : Nat) : RowWrite :=
  if c.split && decide (m ≥ 256) then bitsRow b far c y (p.base + (m - 256) * p.cols) d.i32 (vals m) else bitsRow b b c y (d.base + m * d.cols) d.i32 (vals m)

theorem runScat_rows {mv : View} {z d p : Region} (hmap : mapView b c false s = .ok mv) (hz : regionOf (nth 0 c.zs 0) = .ok z)
    (hd : regionOf (nth 0 c.zs 1) = .ok d) (hfar : (if c.split then partnerRegion b c.dz d.i32 (c.m - 256) c.n s else .ok d) = .ok p) :
    let vals := fun m => (List.range c.n).map fun n => entryAt s b z (nth 0 (readMap b c mv s).bkt m) n
    runScat b c s = .ok ((List.range c.m).foldl (fun u m => u.rowWrite (scatRow b (s.partner b) c (u.bay b).truss d p vals m)) s) := by
  intro vals
  unfold runScat
  rw [hmap, hz, hd]
  simp only [bind, Except.bind]
  refine (bind_of_if hfar _).trans (congrArg Except.ok (List.foldl_map.trans ?_))
  refine congrArg (fun f => List.foldl f s (List.range c.m)) (funext fun u => funext fun m => ?_)
  unfold scatRow
  dsimp only
  split <;> rfl

include hstarts in
theorem trussStart_scatters {mv : View} {z d p : Region} (hop : c.op = .scat) (hmap : mapView b c false s = .ok mv) (hz : regionOf (nth 0 c.zs 0) = .ok z)
    (hd : regionOf (nth 0 c.zs 1) = .ok d) (hfar : (if c.split then partnerRegion b c.dz d.i32 (c.m - 256) c.n s else .ok d) = .ok p) :
    ∃ t, exec (.trussCommandStart bent) s = .next t ∧ TrussQuiet s t b c q ∧ SameMem s t ∧ t.rowsOf (b / 8) = s.rowsOf (b / 8) ++
      (List.range c.m).map fun m => (if c.split && decide (256 ≤ m) then (s.partner b, p.base + (m - 256) * p.cols) else (b, d.base + m * d.cols),
        RowOp.bits ((List.range c.n).map fun n => BitVec.ofNat 32 (entryAt s b z (nth 0 (readMap b c mv s).bkt m) n))) := by
  have hapart := begun_apart s b c q
  have hrun := runScat_rows (s := s.begun b c q) (c := c.taken (s.bay b).truss) (b := b) (p := p) (hapart.mapView b c false ▸ hmap) hz hd
    (by rw [begun_partnerRegion]; exact hfar)
  have hvals : (fun m => (List.range (c.taken (s.bay b).truss).n).map fun n => entryAt (s.begun b c q) b z
      (nth 0 (readMap b (c.taken (s.bay b).truss) mv (s.begun b c q)).bkt m) n) =
      fun m => (List.range c.n).map fun n => entryAt s b z (nth 0 (readMap b c mv s).bkt m) n := by
    funext m
    rw [readMap_begun]
    exact List.map_congr_left fun n _ => hapart.entryAt b z _ n
  dsimp only at hrun
  rw [hvals, hapart.partner] at hrun
  generalize hg : (fun m => (List.range c.n).map fun n => entryAt s b z (nth 0 (readMap b c mv s).bkt m) n) = vals at hrun
  have hcmd : runCmd b (c.taken (s.bay b).truss) (s.begun b c q) = runScat b (c.taken (s.bay b).truss) (s.begun b c q) := by
    unfold runCmd
    rw [show (c.taken (s.bay b).truss).op = .scat from hop]
  have howner (x : TrussBay) (m : Nat) : (scatRow b (s.partner b) (c.taken (s.bay b).truss) x d p vals m).owner = b := by
    unfold scatRow
    split <;> rfl
  obtain ⟨hmoves, htruss, hwrites⟩ := foldl_rowWrite (b := b) (x := ((s.begun b c q).bay b).truss)
    (f := fun u m => u.rowWrite (scatRow b (s.partner b) (c.taken (s.bay b).truss) (u.bay b).truss d p vals m))
    (g := scatRow b (s.partner b) (c.taken (s.bay b).truss) ((s.begun b c q).bay b).truss d p vals) (howner _) (fun u m hu => by rw [hu])
    (List.range c.m) (s.begun b c q) rfl
  obtain ⟨t, hexec, hquiet, hmem, hrows⟩ := start_rows hstarts (hcmd.trans hrun) ⟨_, .refl _, rfl, rfl, hmoves, htruss, hwrites⟩
  refine ⟨t, hexec, hquiet, hmem, hrows.trans (congrArg (s.rowsOf (b / 8) ++ ·) (List.map_congr_left fun m _ => ?_))⟩
  have hval : ((List.range c.n).map fun n => BitVec.ofNat 32 (entryAt s b z (nth 0 (readMap b c mv s).bkt m) n)) = (vals m).map (BitVec.ofNat 32) := by
    rw [← hg, List.map_map]
    rfl
  rw [hval]
  unfold scatRow
  show _ = ((if c.split && decide (m ≥ 256) then (s.partner b, p.base + (m - 256) * p.cols) else (b, d.base + m * d.cols)), RowOp.bits ((vals m).map (BitVec.ofNat 32)))
  rw [show (c.taken (s.bay b).truss).split = c.split from rfl]
  split <;> rfl

/-! ### TMGRAD -/

/-- The rows that a gradient command makes: the entries and flags of each. -/
def gradRows (b : Nat) (c : TrussCmd) (x : SigMap) (z d : Region) (s : State) : List (List (Nat × BitVec 8)) :=
  if c.gdir then
    (List.range c.m).map fun m => (List.range c.n).map fun n =>
      if x.rule = 1 then
        let q := divNum (decodeNum 0x15 (entryAt s b z (nth 0 x.bkt m) n)) (Num.ofInt (nth 1 x.cnt (nth 0 x.bkt m) : Nat))
        let y := convertNum 0x15 0 0 q.1
        (y.1, q.2 ||| y.2)
      else (entryAt s b z (nth 0 x.bkt m) n, 0)
  else
    (List.range x.nb).map fun j => (List.range c.n).map fun n => sumEntries d.i32 ((bucketMembers x j).map fun m => entryAt s b z m n)

theorem runMgrad_rows {mv : View} {z d : Region} (hmap : mapView b c false s = .ok mv) (hz : regionOf (nth 0 c.zs 0) = .ok z)
    (hd : regionOf (nth 0 c.zs 1) = .ok d) :
    let l := gradRows b c (readMap b c mv s) z d s
    ∃ f, runMgrad b c s = .ok ((l.zip (List.range l.length)).foldl (fun u e => rowBits b b c (d.base + e.2 * d.cols) d.i32 (e.1.map fun y => y.1) u)
      (s.orStreamFlags b .M f)) := by
  unfold runMgrad
  rw [hmap, hz, hd]
  exact ⟨_, rfl⟩

theorem gradRows_begun (x : SigMap) (z d : Region) : gradRows b (c.taken (s.bay b).truss) x z d (s.begun b c q) = gradRows b c x z d s := by
  unfold gradRows
  simp only [(begun_apart s b c q).entryAt]
  rfl

include hstarts in
/-- Rows that a gradient command makes, given by their entries. -/
theorem trussStart_grad {mv : View} {z d : Region} {k : Nat} {val : Nat → Nat → Nat} (hop : c.op = .mgrad) (hmap : mapView b c false s = .ok mv)
    (hz : regionOf (nth 0 c.zs 0) = .ok z) (hd : regionOf (nth 0 c.zs 1) = .ok d)
    (hrows : (gradRows b c (readMap b c mv s) z d s).map (fun r => r.map fun y => y.1) = (List.range k).map fun m => (List.range c.n).map (val m)) :
    ∃ t, exec (.trussCommandStart bent) s = .next t ∧ TrussQuiet s t b c q ∧ SameMem s t ∧ t.rowsOf (b / 8) = s.rowsOf (b / 8) ++
      (List.range k).map fun m => ((b, d.base + m * d.cols), RowOp.bits ((List.range c.n).map fun i => BitVec.ofNat 32 (val m i))) := by
  have hapart := begun_apart s b c q
  obtain ⟨f, hrun⟩ := runMgrad_rows (s := s.begun b c q) (c := c.taken (s.bay b).truss) (b := b) (hapart.mapView b c false ▸ hmap) hz hd
  rw [readMap_begun, gradRows_begun] at hrun
  generalize gradRows b c (readMap b c mv s) z d s = l at hrun hrows
  have hlen : l.length = k := by
    have h := congrArg List.length hrows
    simpa using h
  have hpairs : (l.zip (List.range l.length)).foldl (fun u e => rowBits b b (c.taken (s.bay b).truss) (d.base + e.2 * d.cols) d.i32 (e.1.map fun y => y.1) u)
      ((s.begun b c q).orStreamFlags b .M f) = (List.range k).foldl (fun u m => u.rowWrite
        (bitsRow b b (c.taken (s.bay b).truss) (u.bay b).truss (d.base + m * d.cols) d.i32 ((List.range c.n).map (val m)))) ((s.begun b c q).orStreamFlags b .M f) := by
    have hzip : (l.zip (List.range l.length)).map (fun e => (e.1.map fun y => y.1, e.2)) = (List.range k).map fun m => ((List.range c.n).map (val m), m) := by
      have hleft : (l.zip (List.range l.length)).map (fun e => (e.1.map fun y => y.1, e.2)) = (l.map fun r => r.map fun y => y.1).zip (List.range k) := by
        rw [← hlen, List.zip_map_left]
        rfl
      rw [hleft, hrows]
      exact (congrArg _ (List.map_id _).symm).trans List.zip_map'
    exact (List.foldl_map (f := fun e : List (Nat × BitVec 8) × Nat => (e.1.map fun y => y.1, e.2))
      (g := fun u e => rowBits b b (c.taken (s.bay b).truss) (d.base + e.2 * d.cols) d.i32 e.1 u)).symm.trans
      ((congrArg (fun l => List.foldl (fun u (e : List Nat × Nat) => rowBits b b (c.taken (s.bay b).truss) (d.base + e.2 * d.cols) d.i32 e.1 u)
        ((s.begun b c q).orStreamFlags b .M f) l) hzip).trans List.foldl_map)
  rw [hpairs] at hrun
  have hcmd : runCmd b (c.taken (s.bay b).truss) (s.begun b c q) = runMgrad b (c.taken (s.bay b).truss) (s.begun b c q) := by
    unfold runCmd
    rw [show (c.taken (s.bay b).truss).op = .mgrad from hop]
  obtain ⟨hmoves, htruss, hwrites⟩ := foldl_rowWrite (b := b) (x := ((s.begun b c q).bay b).truss)
    (f := fun u m => u.rowWrite (bitsRow b b (c.taken (s.bay b).truss) (u.bay b).truss (d.base + m * d.cols) d.i32 ((List.range c.n).map (val m))))
    (g := fun m => bitsRow b b (c.taken (s.bay b).truss) ((s.begun b c q).bay b).truss (d.base + m * d.cols) d.i32 ((List.range c.n).map (val m)))
    (fun _ => rfl) (fun u m hu => by rw [hu]) (List.range k) ((s.begun b c q).orStreamFlags b .M f) (State.flags_truss _ _ _)
  obtain ⟨t, hexec, hquiet, hmem, htrows⟩ := start_rows hstarts (hcmd.trans hrun)
    ⟨_, trussMoves_flags _ _ _, rfl, State.flags_truss _ _ _, hmoves, htruss.trans (State.flags_truss _ _ _).symm, hwrites⟩
  refine ⟨t, hexec, hquiet, hmem, htrows.trans (congrArg (s.rowsOf (b / 8) ++ ·) (List.map_congr_left fun m _ => ?_))⟩
  rw [bitsRow, List.map_map]
  rfl

end

end Sys2Proof.Machine
end

section
/-! The life of a truss command (O35), from the lease to its completion. -/

namespace Sys2Proof.Machine

section
variable {s : State} {b : Nat} {c : TrussCmd}

/-! ### The rows of TMGRAD, by direction and rule (R285) -/

theorem gradRows_gather (x : SigMap) (z d : Region) (hdir : c.gdir = false) : (gradRows b c x z d s).map (fun r => r.map fun y => y.1) =
    (List.range x.nb).map fun j => (List.range c.n).map fun n => (sumEntries d.i32 ((bucketMembers x j).map fun m => entryAt s b z m n)).1 := by
  unfold gradRows
  rw [hdir, if_neg Bool.false_ne_true, List.map_map]
  refine List.map_congr_left fun j _ => ?_
  rw [Function.comp_apply, List.map_map]
  rfl

theorem gradRows_copy (x : SigMap) (z d : Region) (hdir : c.gdir = true) (hrule : x.rule ≠ 1) : (gradRows b c x z d s).map (fun r => r.map fun y => y.1) =
    (List.range c.m).map fun m => (List.range c.n).map fun n => entryAt s b z (nth 0 x.bkt m) n := by
  unfold gradRows
  rw [hdir, if_pos rfl, List.map_map]
  refine List.map_congr_left fun m _ => ?_
  rw [Function.comp_apply, List.map_map]
  refine List.map_congr_left fun n _ => ?_
  rw [Function.comp_apply, if_neg hrule]

theorem gradRows_share (x : SigMap) (z d : Region) (hdir : c.gdir = true) (hrule : x.rule = 1) : (gradRows b c x z d s).map (fun r => r.map fun y => y.1) =
    (List.range c.m).map fun m => (List.range c.n).map fun n =>
      (convertNum 0x15 0 0 (divNum (decodeNum 0x15 (entryAt s b z (nth 0 x.bkt m) n)) (Num.ofInt (nth 1 x.cnt (nth 0 x.bkt m) : Nat))).1).1 := by
  unfold gradRows
  rw [hdir, if_pos rfl, List.map_map]
  refine List.map_congr_left fun m _ => ?_
  rw [Function.comp_apply, List.map_map]
  refine List.map_congr_left fun n _ => ?_
  rw [Function.comp_apply, if_pos hrule]

/-- A choice of a partner's region, as the statements put it. -/
theorem choice_of {p : Prop} [Decidable p] {x : Except Stop Region} {d r : Region} (h : if p then x = .ok r else r = d) : (if p then x else .ok d) = .ok r := by
  split at h
  · rename_i hp
    rw [if_pos hp, h]
  · rename_i hp
    rw [if_neg hp, h]

end

/-- The statements put an early promotion as a proposition. -/
theorem promote_first (place : Nat × Nat) (v : List Int) (lg first early : Bool) :
    [(place, RowOp.promote v lg (first && !early))] = [(place, RowOp.promote v lg (first && !decide (early = true)))] := by rw [Bool.decide_eq_true]

/-- The hyperplanes of a generated family are drawn with counter words of their own (R278). -/
theorem generatedNeg_eq (seed : Word) (d k j : Nat) : generatedNeg seed d k j = bit (crng seed (word (5 * 2 ^ 60 + k * 2 ^ 16 + j)) (word d)) 0 := by
  unfold generatedNeg at_
  rfl

/-- Settles O35: the lease, the commands over bindings and regions, TLOADB, the products and the signature stage, each by its own lemma. -/
theorem trussLife : Obligations.TrussLife := by
  unfold Obligations.TrussLife
  refine ⟨fun s b bent w => ⟨fun hc hissued hmay => ⟨fun hheld => tlease_held hc hissued hmay hheld, fun hheld => tlease_asks hc hissued hmay hheld,
      fun hheld hroom => tfree_queues hc hmay hheld hroom⟩, fun hholder hwindow hnext hissued hb => ⟨_, exec_leaseGrant_request hholder hwindow hnext, grant_leaves hissued hb⟩,
      fun x hholder hwindow hissued hb => ⟨_, exec_leaseGrant_window hholder hwindow, grant_window_leaves x hissued hb⟩,
      fun hdet hheld hwindow hinner => windowEnd_leaves hdet hheld hwindow hinner⟩,
    fun s b bent c q r => ⟨fun hholder hlive hfree hqueue hop hnodup => trussStart_free hholder hlive hfree hqueue hop hnodup,
      fun hstarts => ⟨fun hop hnodup => trussStart_promotes hstarts hop hnodup, fun hop hkeep hregion hnodup => trussStart_commits hstarts hop hkeep hregion hnodup,
        fun hop hregion => trussStart_zeroes hstarts hop hregion, fun hop => trussStart_discards hstarts (runCmd_discard hop)⟩,
      fun w l hwrites hlive hallowed => rowWrite_lands hwrites hlive hallowed, fun hrunning hlanded => trussCompletion_leaves hrunning hlanded⟩,
    fun s b bent c q hstarts hop => ⟨fun rc hload => trussStart_loadFaults hstarts hop hload,
      fun v w m u cols ls hviews htrailer hcols hbitmap hlines => ?_⟩,
    fun s b bent c q neg r hstarts hop hregion => ⟨fun hslab => trussStart_mmaFaults hstarts hop hregion hslab,
      fun p a w rows x hfront hfits hnodup hfar hviews hrows hne => ?_⟩,
    fun s b bent c q a v mv iv z d p hstarts => ⟨fun hop ha hv hplanes => ?_, fun hop hv hmap => ?_, fun rule hop hmap hindex ha => ⟨fun hrule => ?_,
      fun hrule => ?_, fun hrule hv => ?_⟩, fun hmap hz hd => ⟨fun hop hfar => ?_, fun hop hdir => ?_, fun hop hdir hrule => ?_, fun hop hdir hrule => ?_⟩⟩⟩
  · obtain ⟨t, hexec, ⟨htaken, hmem⟩, hfront, hslab, hother, hinner⟩ := trussStart_loads hstarts hop (loadSlab_reads hviews htrailer hcols hbitmap hlines)
    refine ⟨t, _, hexec, htaken, hmem, hfront, hslab, hother, hinner, Nat.mod_eq_of_lt (bits_lt_of _ 9 4 6 rfl), Nat.mod_eq_of_lt (bits_lt_of _ 12 10 3 rfl),
      rfl, rfl, rfl, fun i hi => slabOf_elements v w m ls cols hi⟩
  · have hproduct : Product b c s r p x a w rows := ⟨hregion, hfront, hfits, hfar, hviews, hrows⟩
    cases hblock : isBlock c.bfmt with
    | false =>
      obtain ⟨t, hexec, ⟨htaken, hmem⟩, hpasses, hpend, hinner, hmoves⟩ := trussStart_multiplies hstarts hop hproduct hnodup hblock hne
      have hlen (m : Nat) : (productSums neg b c x a s (nth 0 rows m)).length = c.n := by rw [productSums, List.length_map, List.length_range]
      simp only [passMoves, passed, promotesEarly, widened, hlen] at hinner hmoves
      refine ⟨t, hexec, htaken, hmem, hpasses, fun _ => ⟨hpend, hinner, hmoves.trans ?_⟩, fun h => by cases h⟩
      refine congrArg (rowsBefore s b c r ++ ·) (List.flatMap_congr fun m _ => congrArg (_ ++ ·) (if_congr Iff.rfl ?_ rfl))
      exact promote_first _ _ _ _ _
    | true =>
      obtain ⟨t, hexec, ⟨htaken, hmem⟩, hpasses, hpend, hinner, hmoves⟩ := trussStart_multipliesBlocks hstarts hop hproduct hnodup hblock
      refine ⟨t, hexec, htaken, hmem, hpasses, (fun h => by cases h), fun _ => ⟨hpend, hinner, hmoves.trans ?_⟩⟩
      simp only [productBlocks, List.map_map]
      rfl
  · obtain ⟨hp, hp'⟩ : ∃ hp, (if c.hfStored then planesView b c s else .ok a) = .ok hp := by
      cases hstored : c.hfStored with
      | false => exact ⟨a, rfl⟩
      | true => exact ⟨mv, hplanes hstored⟩
    obtain ⟨t, hexec, hquiet, hrows, hmem⟩ := trussStart_signs hstarts hop ha hv hp'
    refine ⟨rowSignature b c a hp s, fun m k j hm hk => ?_, t, hexec, hquiet, hrows, hmem⟩
    refine (signature_testBit c.k _ (hyperNeg b c hp s k) c.sigK j).trans ?_
    have hneg (d : Nat) : hyperNeg b c hp s k d j = (if c.hfStored then decide (intVal mv.fmt (s.peek b mv 1 [d, k * c.sigK + j]) < 0)
        else bit (crng (c.hfw 1) (word (5 * 2 ^ 60 + k * 2 ^ 16 + j)) (word d)) 0) := by
      rw [hyperNeg, generatedNeg_eq]
      cases hstored : c.hfStored with
      | false => rfl
      | true =>
        rw [hstored, if_pos rfl, hplanes hstored] at hp'
        injection hp' with hp'
        rw [hp']
    simp only [hneg]
  · obtain ⟨t, hexec, hquiet, hrows, hmem⟩ := trussStart_buckets hstarts hop hv hmap
    generalize hkeys : (List.range c.m).map (bucketKey b c v s) = keys at hmem
    have hlen : keys.length = c.m := by rw [← hkeys, List.length_map, List.length_range]
    have hkey {m : Nat} (hm : m < c.m) : nth 0 keys m = bucketKey b c v s m := by
      rw [← hkeys, nth_map 0 _ 0 _ (by rw [List.length_range]; exact hm), nth, List.getD_eq_getElem _ _ (by rw [List.length_range]; exact hm), List.getElem_range]
    refine ⟨bucketsOf keys, bucketReps keys, bucketCounts keys, (List.length_map _).trans hlen, ?_, fun m n hm hn => ?_, fun k hk => bucketsOf_lt hk,
      fun j hj => ?_, t, hexec, hquiet, hrows, hmem⟩
    · rw [bucketReps, bucketCounts, List.length_map, List.length_map]
    · rw [bucketsOf_same (hlen ▸ hm) (hlen ▸ hn), hkey hm, hkey hn]
      rfl
    · rw [← hlen]
      exact bucketReps_first hj
  · subst hrule
    exact trussStart_repsFirst hstarts hop hmap hindex
  · subst hrule
    obtain ⟨t, hexec, hquiet, hmem⟩ := trussStart_repsLargest hstarts hop hmap hindex (ha (by decide))
    refine ⟨_, by rw [largestReps, List.length_map, List.length_range], fun j hj hne => ?_, t, hexec, hquiet, hmem⟩
    have hrep : nth 0 (largestReps b c a (readMap b c mv s) s) j = largestNorm (rowNorm b c a s) (bucketMembers (readMap b c mv s) j) := by
      rw [largestReps, nth_map 0 _ 0 _ (by rw [List.length_range]; exact hj), nth, List.getD_eq_getElem _ _ (by rw [List.length_range]; exact hj), List.getElem_range]
    rw [hrep]
    exact largestNorm_largest (rowNorm b c a s) hne (bucketMembers_sorted _ j)
  · subst hrule
    exact trussStart_repsMean hstarts hop hmap hindex (ha (by decide)) hv
  · exact trussStart_scatters hstarts hop hmap hz hd (choice_of hfar)
  · exact trussStart_grad hstarts hop hmap hz hd (gradRows_gather _ z d hdir)
  · exact trussStart_grad hstarts hop hmap hz hd (gradRows_copy _ z d hdir hrule)
  · exact trussStart_grad hstarts hop hmap hz hd (gradRows_share _ z d hdir hrule)

end Sys2Proof.Machine
end

section
/-! The memory's canonical form (O5): what it asks of a state, of a meaning's result and of a step's outcome, and the rules of the forms that the
model's functions are made of. -/

namespace Sys2Proof.Machine

/-- The memory is in its canonical form (log 2). -/
def Canon (m : Memory) : Prop := Memory.wf m = true

/-- What holds of the value that a meaning ends with, if it ends with one. -/
def Ensures {α : Type} (P : α → Prop) (e : Except Stop α) : Prop := ∀ a, e = .ok a → P a

/-- The next state, if there is one, has its memory in canonical form. -/
def NextCanon (o : Host.Outcome State Fault Refusal) : Prop := ∀ t, o = .next t → Canon t.mem

theorem canon_ite {c : Prop} [Decidable c] {a b : State} (ha : Canon a.mem) (hb : Canon b.mem) : Canon (if c then a else b).mem := by
  split
  · exact ha
  · exact hb

theorem canon_foldl {α : Type} {f : State → α → State} {l : List α} {s : State} (h : Canon s.mem) (hf : ∀ s x, Canon s.mem → Canon (f s x).mem) :
    Canon (l.foldl f s).mem := by
  induction l generalizing s with
  | nil => exact h
  | cons x l ih => exact ih (hf s x h)

/-- A fold that carries the state beside other values. -/
theorem canon_foldl_fst {α β : Type} {f : State × β → α → State × β} {l : List α} {x : State × β} (h : Canon x.1.mem)
    (hf : ∀ x a, Canon x.1.mem → Canon (f x a).1.mem) : Canon (l.foldl f x).1.mem := by
  induction l generalizing x with
  | nil => exact h
  | cons a l ih => exact ih (hf x a h)

section
variable {α β : Type} {P : α → Prop} {Q : β → Prop}

theorem ensures_ok {a : α} (h : P a) : Ensures P (.ok a) := fun b hb => by
  injection hb with hb
  exact hb ▸ h

theorem ensures_error {x : Stop} : Ensures P (.error x) := fun _ h => by cases h

/-- What holds where the meaning has ended with `a`. -/
theorem ensures_end {e : Except Stop α} {a : α} (h : e = .ok a) (he : Ensures P e) : P a := he a h

/-- A meaning that may end with no value. -/
theorem ensures_none : Ensures (fun o : Option α => ∀ a, o = some a → P a) (.ok none) := ensures_ok fun _ h => by cases h

theorem ensures_some {a : α} (h : P a) : Ensures (fun o : Option α => ∀ a, o = some a → P a) (.ok (some a)) := ensures_ok fun b hb => by
  injection hb with hb
  exact hb ▸ h

theorem ensures_ite {c : Prop} [Decidable c] {a b : Except Stop α} (ha : Ensures P a) (hb : Ensures P b) : Ensures P (if c then a else b) := by
  split
  · exact ha
  · exact hb

theorem ensures_bind {e : Except Stop β} {k : β → Except Stop α} (h : Ensures Q e) (hk : ∀ b, Q b → Ensures P (k b)) : Ensures P (e >>= k) := by
  cases e with
  | error x => exact ensures_error
  | ok b => exact hk b (h b rfl)

/-- A meaning whose first part ends with no state. -/
theorem ensures_then {e : Except Stop β} {k : β → Except Stop α} (hk : ∀ b, Ensures P (k b)) : Ensures P (e >>= k) := by
  cases e with
  | error x => exact ensures_error
  | ok b => exact hk b

end

theorem nextCanon_next {t : State} (h : Canon t.mem) : NextCanon (.next t) := fun u hu => by
  injection hu with hu
  exact hu ▸ h

theorem nextCanon_fault {f : Fault} : NextCanon (.fault f) := fun _ h => by cases h

theorem State.write_canon {s : State} {a : Nat} {l : List Byte} (h : Canon s.mem) : Canon (s.write a l).mem := State.write_wf h a l

end Sys2Proof.Machine
end

section
/-! The canonical form (O5) through the state's operations, faults and the ends of words. -/

namespace Sys2Proof.Machine

theorem State.setBay_canon {s : State} {b : Nat} {y : Bay} (h : Canon s.mem) : Canon (s.setBay b y).mem := h

theorem State.modBay_canon {s : State} {b : Nat} {f : Bay → Bay} (h : Canon s.mem) : Canon (s.modBay b f).mem := h

theorem State.setBent_canon {s : State} {n : Nat} {x : Bent} (h : Canon s.mem) : Canon (s.setBent n x).mem := h

theorem State.setPart_canon {s : State} {p : Nat} {x : Part} (h : Canon s.mem) : Canon (s.setPart p x).mem := h

theorem State.modPart_canon {s : State} {p : Nat} {f : Part → Part} (h : Canon s.mem) : Canon (s.modPart p f).mem := h

theorem State.setJob_canon {s : State} {n : Nat} {x : Job} (h : Canon s.mem) : Canon (s.setJob n x).mem := h

theorem State.setLath_canon {s : State} {n : Nat} {x : Lath} (h : Canon s.mem) : Canon (s.setLath n x).mem := h

theorem State.setChain_canon {s : State} {n : Nat} {x : Chain} (h : Canon s.mem) : Canon (s.setChain n x).mem := h

theorem State.setGroup_canon {s : State} {g : Nat} {x : Group} (h : Canon s.mem) : Canon (s.setGroup g x).mem := h

theorem State.writeS_canon {s : State} {r : BitVec 5} {v : Word} (h : Canon s.mem) : Canon (s.writeS r v).mem := by
  unfold State.writeS
  refine canon_ite h ?_
  split <;> exact h

theorem State.writeK_canon {s : State} {j : BitVec 3} {v : Word} (h : Canon s.mem) : Canon (s.writeK j v).mem := by
  unfold State.writeK
  split <;> exact h

theorem State.movePc_canon {s : State} {v : BitVec 16} {adv : Bool} {q : Nat → Nat} (h : Canon s.mem) : Canon (s.movePc v adv q).mem := by
  unfold State.movePc
  split <;> exact h

theorem State.setPc_canon {s : State} {v : BitVec 16} {adv : Bool} (h : Canon s.mem) : Canon (s.setPc v adv).mem := State.movePc_canon h

theorem State.bodySkipped_canon {s : State} (h : Canon s.mem) : Canon s.bodySkipped.mem := by
  unfold State.bodySkipped
  split <;> exact h

theorem State.retire_canon {s : State} (h : Canon s.mem) : Canon s.retire.mem := State.setPc_canon h

theorem State.jump_canon {s : State} {t : BitVec 16} (h : Canon s.mem) : Canon (s.jump t).mem := State.setPc_canon h

theorem State.countV_canon {s : State} (h : Canon s.mem) : Canon s.countV.mem := by
  unfold State.countV
  split <;> exact h

theorem State.retireV_canon {s : State} (h : Canon s.mem) : Canon s.retireV.mem := State.countV_canon (State.retire_canon h)

theorem State.orFlags_canon {s : State} {f : BitVec 8} (h : Canon s.mem) : Canon (s.orFlags f).mem := by
  unfold State.orFlags
  split <;> exact h

theorem State.orStreamFlags_canon {s : State} {b : Nat} {e : Eng} {f : BitVec 8} (h : Canon s.mem) : Canon (s.orStreamFlags b e f).mem := h

theorem State.fmEvent_canon {s : State} {kind unit : Nat} (h : Canon s.mem) : Canon (s.fmEvent kind unit).mem := canon_ite h (State.write_canon h)

theorem State.fmOther_canon {s : State} {unit : Nat} (h : Canon s.mem) : Canon (s.fmOther unit).mem := State.fmEvent_canon h

theorem State.frEvent_canon {s : State} {p kind data : Nat} {jobid : Word} {detail : Option Nat} (h : Canon s.mem) :
    Canon (s.frEvent p kind data jobid detail).mem := by
  unfold State.frEvent
  refine canon_ite h (State.setPart_canon (State.write_canon ?_))
  split <;> exact h

theorem State.noteArrival_canon {s : State} {slot : Nat} (h : Canon s.mem) : Canon (s.noteArrival slot).mem := canon_ite h h

theorem State.endJob_canon {s : State} {b : Nat} {rc : FaultRec} (h : Canon s.mem) : Canon (s.endJob b rc).mem :=
  canon_ite (State.setJob_canon (State.noteArrival_canon h)) (State.noteArrival_canon h)

theorem State.trapEntry_canon {s : State} {b : Nat} {rc : FaultRec} {epc : BitVec 16} (h : Canon s.mem) : Canon (s.trapEntry b rc epc).mem :=
  canon_ite (State.endJob_canon h) (canon_ite h (State.endJob_canon h))

theorem State.haltStream_canon {s : State} {b : Nat} {e : Eng} {rc : FaultRec} (h : Canon s.mem) : Canon (s.haltStream b e rc).mem := h

theorem State.lathPend_canon {s : State} {slot : Nat} {rc : FaultRec} (h : Canon s.mem) : Canon (s.lathPend slot rc).mem := by
  unfold State.lathPend
  split
  · exact canon_ite h (State.fmOther_canon h)
  · exact State.fmOther_canon h

theorem State.haltLath_canon {s : State} {n : Nat} {rc : FaultRec} (h : Canon s.mem) : Canon (s.haltLath n rc).mem := by
  unfold State.haltLath
  dsimp only
  split
  · exact State.lathPend_canon h
  · exact h

theorem State.endpointFault_canon {s : State} {b ch cause : Nat} {aux : Word} (h : Canon s.mem) : Canon (s.endpointFault b ch cause aux).mem :=
  canon_ite (State.fmOther_canon h) h

theorem State.raise_canon {s : State} {rc : FaultRec} (h : Canon s.mem) : NextCanon (s.raise rc) := by
  unfold State.raise
  split
  · exact nextCanon_next (State.trapEntry_canon h)
  · exact nextCanon_next h
  · exact nextCanon_next h
  · exact nextCanon_next (State.haltLath_canon h)
  · exact nextCanon_fault

theorem State.pageFault_canon {s : State} {cause : BitVec 8} {tid tile entry : Nat} {mig : Bool} {aux : Word} {copy : Option Nat} (h : Canon s.mem) :
    Canon (s.pageFault cause tid tile entry mig aux copy).mem := by
  unfold State.pageFault
  split
  · exact h
  · exact h
  · exact h
  · dsimp only
    split <;> exact h
  · exact h
  · exact h

theorem State.setHold_canon {s : State} {v : Bool} (h : Canon s.mem) : Canon (s.setHold v).mem := by
  unfold State.setHold
  split
  · exact canon_ite h h
  · exact h

theorem State.dropWork_canon {s : State} {gone : List Nat} (h : Canon s.mem) : Canon (s.dropWork gone).mem := h

theorem State.discard_canon {s : State} {p cause : Nat} (h : Canon s.mem) : Canon (s.discard p cause).mem :=
  canon_foldl (State.dropWork_canon (State.fmEvent_canon h)) (fun _ _ h1 => h1)

theorem State.discardAll_canon {s : State} {cause : Nat} (h : Canon s.mem) : Canon (s.discardAll cause).mem :=
  canon_foldl h (fun _ _ h1 => State.discard_canon h1)

theorem State.finish_canon {s : State} {e : Except Stop State} (h : Canon s.mem) (he : Ensures (fun t => Canon t.mem) e) : NextCanon (s.finish e) := by
  unfold State.finish
  split
  · exact nextCanon_next (he _ rfl)
  · exact State.raise_canon h
  · exact nextCanon_next (State.setHold_canon h)
  · exact nextCanon_next (State.setHold_canon h)
  · exact nextCanon_next (State.pageFault_canon h)
  · exact nextCanon_fault

theorem State.scalar_canon {s : State} {e : Except Stop State} (h : Canon s.mem) (he : Ensures (fun t => Canon t.mem) e) : NextCanon (s.scalar e) := by
  unfold State.scalar
  split
  · exact State.finish_canon h he
  · exact State.finish_canon h he
  · exact nextCanon_fault

theorem State.vector_canon {s : State} {e : Except Stop State} (h : Canon s.mem) (he : Ensures (fun t => Canon t.mem) e) : NextCanon (s.vector e) := by
  unfold State.vector
  split
  · exact State.finish_canon h he
  · exact State.finish_canon h he
  · exact nextCanon_fault

theorem State.onSeq_canon {s : State} {f : Nat → Except Stop State} (h : Canon s.mem) (he : ∀ n, Ensures (fun t => Canon t.mem) (f n)) :
    NextCanon (s.onSeq f) := by
  unfold State.onSeq
  split
  · exact State.finish_canon h (he _)
  · exact nextCanon_fault

theorem State.onVec_canon {s : State} {f : Nat → Except Stop State} (h : Canon s.mem) (he : ∀ n, Ensures (fun t => Canon t.mem) (f n)) :
    NextCanon (s.onVec f) := by
  unfold State.onVec
  split
  · exact State.finish_canon h (he _)
  · exact nextCanon_fault

theorem State.onMtx_canon {s : State} {f : Nat → Except Stop State} (h : Canon s.mem) (he : ∀ n, Ensures (fun t => Canon t.mem) (f n)) :
    NextCanon (s.onMtx f) := by
  unfold State.onMtx
  split
  · exact State.finish_canon h (he _)
  · exact nextCanon_fault

theorem State.onLath_canon {s : State} {f : Nat → Except Stop State} (h : Canon s.mem) (he : ∀ n, Ensures (fun t => Canon t.mem) (f n)) :
    NextCanon (s.onLath f) := by
  unfold State.onLath
  split
  · exact State.finish_canon h (he _)
  · exact nextCanon_fault

theorem State.onJointer_canon {s : State} {f : Nat → Nat → Except Stop State} (h : Canon s.mem) (he : ∀ c p, Ensures (fun t => Canon t.mem) (f c p)) :
    NextCanon (s.onJointer f) := by
  unfold State.onJointer
  split
  · exact State.finish_canon h (he _ _)
  · exact nextCanon_fault

theorem State.onUnit_canon {s : State} {f : Nat → Eng → Except Stop State} (h : Canon s.mem) (he : ∀ b e, Ensures (fun t => Canon t.mem) (f b e)) :
    NextCanon (s.onUnit f) := by
  unfold State.onUnit
  split
  · exact State.finish_canon h (he _ _)
  · exact State.finish_canon h (he _ _)
  · exact nextCanon_fault

end Sys2Proof.Machine
end

section
/-! The canonical form (O5) through the scalar words, the accesses to memory and the words of the sequencer. -/

namespace Sys2Proof.Machine

theorem aluR_canon {d a b : BitVec 5} {f : Word → Word → Word} {s : State} (h : Canon s.mem) : Ensures (fun t => Canon t.mem) (aluR d a b f s) :=
  ensures_ok (State.retire_canon (State.writeS_canon h))

theorem aluU_canon {d a : BitVec 5} {f : Word → Word} {s : State} (h : Canon s.mem) : Ensures (fun t => Canon t.mem) (aluU d a f s) :=
  ensures_ok (State.retire_canon (State.writeS_canon h))

theorem aluI_canon {d a : BitVec 5} {y : Word} {f : Word → Word → Word} {s : State} (h : Canon s.mem) : Ensures (fun t => Canon t.mem) (aluI d a y f s) :=
  ensures_ok (State.retire_canon (State.writeS_canon h))

theorem State.leave_canon {s : State} {t : Nat} (h : Canon s.mem) : Canon (s.leave t).mem := by
  unfold State.leave
  split <;> exact h

theorem branch_canon {a b : BitVec 5} {o : BitVec 15} {f : Word → Word → Bool} {s : State} (h : Canon s.mem) :
    Ensures (fun t => Canon t.mem) (branch a b o f s) :=
  ensures_ite (ensures_ite (ensures_ok (State.jump_canon (State.leave_canon h))) ensures_error) (ensures_ok (State.retire_canon h))

theorem jumpLink_canon {d : BitVec 5} {t : Int} {s : State} (h : Canon s.mem) : Ensures (fun t => Canon t.mem) (jumpLink d t s) :=
  ensures_ite (ensures_ok (State.jump_canon (State.writeS_canon h))) ensures_error

theorem State.dropCache_canon {s : State} {who : Nat} (h : Canon s.mem) : Canon (s.dropCache who).mem := h

theorem State.fillCache_canon {s : State} {c : Ctx} {tid o depth : Nat} (h : Canon s.mem) : Canon (s.fillCache c tid o depth).mem := by
  unfold State.fillCache
  split
  · split
    · exact h
    · exact canon_ite h h
  · split
    · exact h
    · exact canon_ite h h

theorem State.setLeaf_canon {s : State} {e w0 w1 : Nat} (h : Canon s.mem) : Canon (s.setLeaf e w0 w1).mem :=
  canon_ite (canon_foldl h (fun _ _ h1 => State.write_canon h1)) (State.write_canon h)

theorem State.setPointer_canon {s : State} {slot tid e w0 : Nat} (h : Canon s.mem) : Canon (s.setPointer slot tid e w0).mem :=
  canon_ite (canon_foldl h (fun _ _ h1 => h1)) (State.write_canon h)

theorem State.setEntry_canon {s : State} {slot tid e w0 w1 : Nat} (h : Canon s.mem) : Canon (s.setEntry slot tid e w0 w1).mem :=
  canon_ite (State.setLeaf_canon h) (State.setPointer_canon h)

theorem State.clearMig_canon {s : State} {slot tid e : Nat} (h : Canon s.mem) : Canon (s.clearMig slot tid e).mem := canon_ite (State.setEntry_canon h) h

theorem State.readSpan_canon {s : State} {c : Ctx} {x : Span} (h : Canon s.mem) : Canon (s.readSpan c x).2.mem := by
  unfold State.readSpan
  split <;> exact h

theorem State.readSpans_canon {s : State} {c : Ctx} {l : List Span} (h : Canon s.mem) : Canon (s.readSpans c l).2.mem := by
  induction l generalizing s with
  | nil => exact h
  | cons x l ih => exact ih (State.readSpan_canon h)

theorem State.digestGranule_canon {s : State} {b space tid g mask : Nat} {l : List Byte} (h : Canon s.mem) : Canon (s.digestGranule b space tid g mask l).mem :=
  canon_ite h h

theorem State.digest_canon {s : State} {b space tid o : Nat} {l : List Byte} (h : Canon s.mem) : Canon (s.digest b space tid o l).mem :=
  State.digestGranule_canon h

theorem State.digestBytes_canon {s : State} {b tid : Nat} {l : List (Nat × Nat × Byte)} (h : Canon s.mem) : Canon (s.digestBytes b tid l).mem :=
  canon_foldl h (fun _ _ h1 => State.digestGranule_canon h1)

theorem State.keepShared_canon {s : State} {n a : Nat} {l : List Byte} (h : Canon s.mem) : Canon (s.keepShared n a l).mem := canon_ite h h

theorem State.writeSpan_canon {s : State} {c : Ctx} {tid : Nat} {x : Span} {l : List Byte} (h : Canon s.mem) : Canon (s.writeSpan c tid x l).mem :=
  canon_ite (State.digest_canon (canon_ite (State.write_canon (canon_ite h (State.write_canon (State.keepShared_canon h)))) (State.write_canon h))) (canon_ite
      (State.write_canon (canon_ite h (State.write_canon (State.keepShared_canon h)))) (State.write_canon h))

theorem State.writeSpans_canon {s : State} {c : Ctx} {tid : Nat} {l : List Span} {bs : List Byte} (h : Canon s.mem) :
    Canon (s.writeSpans c tid l bs).mem := by
  induction l generalizing s bs with
  | nil => exact h
  | cons x l ih => exact ih (State.writeSpan_canon h)

theorem State.oneWrite_canon {s before : State} {c : Ctx} {tid : Nat} {l : List Span} (h : Canon s.mem) : Canon (s.oneWrite before c tid l).mem :=
  canon_ite (State.digestBytes_canon h) h

theorem State.readElem_canon {s : State} {c : Ctx} {v : View} {slot : Nat} {spaces : Spaces} {x : List Nat} (h : Canon s.mem) :
    Ensures (fun x => Canon x.2.mem) (s.readElem c v slot spaces x) := by
  unfold State.readElem
  split
  · exact ensures_error
  · exact ensures_ok (State.readSpans_canon h)

theorem State.readIndex_canon {s : State} {c : Ctx} {v : View} {slot : Nat} {spaces : Spaces} {i : Int} (h : Canon s.mem) :
    Ensures (fun x => Canon x.2.mem) (s.readIndex c v slot spaces i) :=
  ensures_ite ensures_error (State.readElem_canon h)

theorem State.readRun_canon {s : State} {c : Ctx} {v : View} {slot : Nat} {spaces : Spaces} {o n : Nat} (h : Canon s.mem) :
    Ensures (fun x => Canon x.2.mem) (s.readRun c v slot spaces o n) := by
  unfold State.readRun
  split
  · exact ensures_error
  · exact ensures_ok (State.readSpans_canon h)

theorem readScales_canon {c : Ctx} {q : View} {slot : Nat} {spaces : Spaces} {l : List Nat} {s : State} (h : Canon s.mem) :
    Ensures (fun x => Canon x.2.mem) (readScales c q slot spaces l s) := by
  induction l generalizing s with
  | nil => exact ensures_ok h
  | cons i l ih => exact ensures_bind (State.readIndex_canon h) fun _ hx => ensures_bind (ih hx) fun _ hy => ensures_ok hy

theorem State.payloadOf_canon {s : State} {c : Ctx} {v : View} {slot : Nat} {spaces : Spaces} (h : Canon s.mem) :
    Ensures (fun x => Canon x.2.mem) (s.payloadOf c v slot spaces) :=
  ensures_bind (State.readRun_canon h) (fun _ h1 => ensures_ite (ensures_ok h1) (ensures_ite (ensures_bind (State.readRun_canon h1)
      (fun _ h2 => ensures_ok h2)) (ensures_then (fun _ => ensures_bind (readScales_canon h1) (fun _ h3 => ensures_ok h3)))))

theorem State.checkTrailer_canon {s : State} {c : Ctx} {v : View} {slot : Nat} {spaces : Spaces} (h : Canon s.mem) :
    Ensures (fun t => Canon t.mem) (s.checkTrailer c v slot spaces) := by
  unfold State.checkTrailer
  refine ensures_ite (ensures_ok h) ?_
  split
  · exact ensures_error
  next h1 =>
    split
    · exact ensures_error
    next h2 =>
      split
      · exact ensures_error
      · exact ensures_ok (ensures_end h2 (State.readRun_canon (ensures_end h1 (State.payloadOf_canon h) :)) :)

theorem State.readElems_canon {s : State} {c : Ctx} {v : View} {l : List (List Nat × List Span)} (h : Canon s.mem) : Canon (s.readElems c v l).2.mem := by
  induction l generalizing s with
  | nil => exact h
  | cons x l ih => exact ih (State.readSpans_canon h)

theorem State.writeElem_canon {s : State} {c : Ctx} {v : View} {x : List Nat} {l : List Span} {val : Nat} (h : Canon s.mem) :
    Canon (s.writeElem c v x l val).mem :=
  canon_ite (State.writeSpans_canon (State.readSpans_canon h)) (canon_ite (State.writeSpans_canon (State.readSpans_canon h)) (State.writeSpans_canon h))

theorem State.putElems_canon {s : State} {c : Ctx} {v : View} {l : List (List Nat × List Span × Nat)} (h : Canon s.mem) : Canon (s.putElems c v l).mem := by
  induction l generalizing s with
  | nil => exact h
  | cons x l ih => exact ih (State.writeElem_canon h)

theorem State.writeElems_canon {s : State} {c : Ctx} {v : View} {l : List (List Nat × List Span × Nat)} (h : Canon s.mem) : Canon (s.writeElems c v l).mem :=
  State.oneWrite_canon (State.putElems_canon h)

theorem State.mergedOp_canon {s : State} {b : Nat} {own : Bool} {ops : List Word} {perform : State → Except Stop (Word × State)} {finish : Word → State → State}
    (h : Canon s.mem) (hp : Ensures (fun x => Canon x.2.mem) (perform s)) (hf : ∀ r t, Canon t.mem → Canon (finish r t).mem) :
    Ensures (fun t => Canon t.mem) (s.mergedOp b own ops perform finish) := by
  unfold State.mergedOp
  dsimp only
  refine ensures_ite ?_ (ensures_ite (ensures_ok h) (ensures_ite ensures_error (ensures_ite ?_ ?_)))
  · split
    · exact ensures_error
    next _ _ hr => exact ensures_ok (hf _ _ (hp _ hr))
  · split
    · exact ensures_error
    next r t hr =>
      refine ensures_ok (hf _ _ ?_)
      split
      · exact canon_ite (hp _ hr) (hp _ hr)
      · exact hp _ hr
  · split
    · exact ensures_error
    · split
      · exact ensures_error
      next _ _ hr =>
        split at hr
        · exact ensures_ok (hf _ _ (hp _ hr))
        · injection hr with hr
          exact ensures_ok (hf _ _ ((congrArg (fun x => Canon x.2.mem) hr).mp h))

theorem State.trapNow_canon {s : State} {b : Nat} {rc : FaultRec} (h : Canon s.mem) : Canon (s.trapNow b rc).mem := State.trapEntry_canon h

theorem State.seqSpans_canon {s : State} {b : Nat} {l : List Span} (h : Canon s.mem) : Canon (s.seqSpans b l).2.mem := by
  induction l generalizing s with
  | nil => exact h
  | cons x l ih => exact ih (State.readSpan_canon h)

theorem ldCore_canon {b : Nat} {d a : BitVec 5} {h : BitVec 4} {sz : BitVec 2} {im : BitVec 9} {f : Nat → Word} {s : State} (hs : Canon s.mem) :
    Ensures (fun t => Canon t.mem) (ldCore b d a h sz im f s) :=
  ensures_then (fun _ => ensures_then (fun _ => ensures_ok (State.retire_canon (State.writeS_canon (State.seqSpans_canon hs)))))

theorem stCore_canon {b : Nat} {d a : BitVec 5} {h : BitVec 4} {sz : BitVec 2} {im : BitVec 9} {s : State} (hs : Canon s.mem) :
    Ensures (fun t => Canon t.mem) (stCore b d a h sz im s) :=
  ensures_then (fun _ => ensures_then (fun _ => ensures_then (fun _ => ensures_ite (ensures_ok (State.retire_canon (State.writeSpans_canon hs))) (ensures_then
      (fun _ => ensures_ok (State.retire_canon hs))))))

theorem State.land_canon {s : State} {b space tid o : Nat} {l : List Piece} (h : Canon s.mem) : Canon (s.land b space tid o l).mem := by
  induction l generalizing s o with
  | nil => exact h
  | cons p l ih => exact ih (State.digest_canon (State.write_canon h))

theorem storeCompletion_canon {b n : Nat} {s : State} (h : Canon s.mem) : Canon (storeCompletion b n s).mem := by
  unfold storeCompletion
  dsimp only
  split
  · exact h
  · exact canon_ite h (State.land_canon h)

theorem amoPerform_canon {b : Nat} {v : View} {op w a e : Nat} {x : List Nat} {l : List Span} {s : State} (h : Canon s.mem) :
    Ensures (fun x => Canon x.2.mem) (amoPerform b v op w a e x l s) := by
  unfold amoPerform
  refine ensures_ok ?_
  split
  · exact State.writeElem_canon (State.readSpans_canon h)
  · exact State.readSpans_canon h

theorem amoCore_canon {b op : Nat} {d a : BitVec 5} {h : BitVec 4} {r : BitVec 5} {wd : BitVec 1} {s : State} (hs : Canon s.mem) :
    Ensures (fun t => Canon t.mem) (amoCore b op d a h r wd s) :=
  ensures_then (fun _ => ensures_then (fun _ => ensures_then (fun _ => ensures_then (fun _ => State.mergedOp_canon hs (amoPerform_canon hs)
      (fun _ _ h1 => State.retire_canon (State.writeS_canon h1))))))

theorem fenceCore_canon {m : BitVec 7} {s : State} (h : Canon s.mem) : Ensures (fun t => Canon t.mem) (fenceCore m s) := by
  unfold fenceCore
  split
  · split
    · exact ensures_ite ensures_error (ensures_ok (State.retire_canon h))
    · exact ensures_ok (State.retire_canon h)
  · split
    · exact ensures_ite ensures_error (ensures_ok (State.retire_canon h))
    · exact ensures_ok (State.retire_canon h)

theorem phaseCore_canon {b : Nat} {s : State} (h : Canon s.mem) : Ensures (fun t => Canon t.mem) (phaseCore b s) :=
  ensures_ite (ensures_ok (State.retire_canon h)) (ensures_ite ensures_error (ensures_ite ensures_error (ensures_ok (State.noteArrival_canon h))))

theorem phaseCompletion_canon {slot : Nat} {s : State} (h : Canon s.mem) : Canon (phaseCompletion slot s).mem := canon_ite h (canon_foldl h (fun _ _ h1 => h1))

theorem commitSweep_canon {slot g : Nat} {s : State} (h : Canon s.mem) : Canon (commitSweep slot g s).mem := canon_ite h h

theorem State.setLc_canon {s : State} {j : Nat} {l : Loop} (h : Canon s.mem) : Canon (s.setLc j l).mem := by
  unfold State.setLc
  split <;> exact h

theorem loopEnter_canon {j n len : Nat} {idx step : Word} {s : State} (h : Canon s.mem) : Canon (loopEnter j n len idx step s).mem :=
  canon_ite (canon_ite (State.bodySkipped_canon (State.setPc_canon h)) (State.setPc_canon h)) (State.retire_canon (State.setLc_canon h))

theorem loopStrided_canon {c : BitVec 2} {a b : BitVec 5} {len : BitVec 8} {s : State} (h : Canon s.mem) :
    Ensures (fun t => Canon t.mem) (loopStrided c a b len s) :=
  ensures_then (fun _ => ensures_then (fun _ => ensures_then (fun _ => ensures_ok (loopEnter_canon h))))

theorem loopr_canon {b : Nat} {c : BitVec 2} {a : BitVec 5} {h : BitVec 4} {len : BitVec 8} {s : State} (hs : Canon s.mem) :
    Ensures (fun t => Canon t.mem) (loopr b c a h len s) :=
  ensures_then (fun _ => ensures_then (fun _ => ensures_then (fun _ => ensures_then (fun _ => ensures_ok (loopEnter_canon (State.seqSpans_canon
      (State.seqSpans_canon hs)))))))

theorem jointerLoopr_canon {ch : Nat} {c : BitVec 2} {a : BitVec 5} {len : BitVec 8} {s : State} (h : Canon s.mem) :
    Ensures (fun t => Canon t.mem) (jointerLoopr ch c a len s) :=
  ensures_then (fun _ => ensures_then (fun _ => ensures_then (fun _ => ensures_then (fun _ => ensures_bind (State.readIndex_canon h) (fun _ h1 => ensures_bind
      (State.readIndex_canon h1) (fun _ h2 => ensures_ok (loopEnter_canon h2)))))))

theorem bodyEnd_canon {n : Nat} {s : State} (h : Canon s.mem) : Canon (bodyEnd n s).mem := by
  induction n generalizing s with
  | zero => exact State.movePc_canon h
  | succ n ih =>
    unfold bodyEnd
    split
    · exact State.movePc_canon h
    · exact canon_ite (ih (State.setLc_canon h)) (State.movePc_canon (State.setLc_canon h))

theorem State.writeFrameLen_canon {s : State} {b : Nat} {v : Word} (h : Canon s.mem) : Canon (s.writeFrameLen b v).mem := canon_ite h h

theorem State.setCsr_canon {s : State} {b n : Nat} {v : Word} (h : Canon s.mem) : Canon (s.setCsr b n v).mem := by
  unfold State.setCsr
  split
  · exact h
  · exact h
  · exact h
  · exact h
  · exact h
  · exact h
  · exact h
  · exact h
  · exact h
  · exact h
  · exact State.writeFrameLen_canon h
  · exact h

theorem csrUpdate_canon {b : Nat} {d a : BitVec 5} {n : BitVec 12} {f : Word → Word → Word} {s : State} (h : Canon s.mem) :
    Ensures (fun t => Canon t.mem) (csrUpdate b d a n f s) := by
  unfold csrUpdate
  split
  · exact ensures_error
  · exact ensures_ite ensures_error (ensures_ite ensures_error (ensures_ok (State.retire_canon (State.writeS_canon (State.setCsr_canon h)))))

theorem csrRead_canon {d : BitVec 5} {n : BitVec 12} {s : State} (h : Canon s.mem) : Ensures (fun t => Canon t.mem) (csrRead d n s) := by
  unfold csrRead
  split
  · dsimp only
    split
    · exact ensures_ok (State.retire_canon (State.writeS_canon h))
    · exact ensures_error
  · split
    · exact ensures_ok (State.retire_canon (State.writeS_canon h))
    · split
      · exact ensures_ok (State.retire_canon (State.writeS_canon h))
      · exact ensures_error
  · exact ensures_error

theorem trapCore_canon {b : Nat} {n : BitVec 4} {s : State} (h : Canon s.mem) : Canon (trapCore b n s).mem := State.trapEntry_canon h

theorem tretCore_canon {b : Nat} {s : State} (h : Canon s.mem) : Ensures (fun t => Canon t.mem) (tretCore b s) :=
  ensures_then (fun _ => ensures_then (fun _ => ensures_then (fun _ => ensures_ok h)))

theorem waitevCore_canon {b : Nat} {d : BitVec 5} {m : BitVec 8} {s : State} (h : Canon s.mem) : Ensures (fun t => Canon t.mem) (waitevCore b d m s) :=
  ensures_then (fun _ => ensures_then (fun _ => ensures_ok (State.retire_canon (State.writeS_canon h))))

theorem trapDeliver_canon {b : Nat} {s : State} (h : Canon s.mem) : Canon (trapDeliver b s).mem := by
  unfold trapDeliver
  dsimp only
  split
  · exact h
  · exact canon_ite (State.trapEntry_canon h) h

theorem State.setVshape_canon {s : State} {x : BitVec 27} (h : Canon s.mem) : Canon (s.setVshape x).mem := by
  unfold State.setVshape
  split <;> exact h

theorem State.writeV_canon {s : State} {r x : Nat} (h : Canon s.mem) : Canon (s.writeV r x).mem := by
  unfold State.writeV
  split <;> exact h

theorem State.writeP_canon {s : State} {r x : Nat} (h : Canon s.mem) : Canon (s.writeP r x).mem := by
  unfold State.writeP
  split <;> exact h

theorem State.writeLanes_canon {s : State} {r w : Nat} {l : List Nat} (h : Canon s.mem) : Canon (s.writeLanes r w l).mem := State.writeV_canon h

theorem State.writeGroup_canon {s : State} {r g w : Nat} {l : List Nat} (h : Canon s.mem) : Canon (s.writeGroup r g w l).mem :=
  canon_foldl h (fun _ _ h1 => State.writeLanes_canon h1)

theorem laneWord_canon {g : Guard} {d a : BitVec 6} {b : Form} {ok : Nat → Bool} {f : State → Nat → Nat → Nat → Nat → Nat × BitVec 8} {s : State} (h : Canon s.mem) :
    Ensures (fun t => Canon t.mem) (laneWord g d a b ok f s) := by
  unfold laneWord
  split
  · exact ensures_error
  · exact ensures_ok (State.retireV_canon (State.orFlags_canon (State.writeLanes_canon h)))

theorem vloopEnter_canon {j n len : Nat} {s : State} (h : Canon s.mem) : Canon (vloopEnter j n len s).mem :=
  State.countV_canon (loopEnter_canon (State.setVshape_canon h))

theorem vloopr_canon {b : Nat} {x : BitVec 3} {c : BitVec 2} {len : BitVec 6} {h : BitVec 4} {s : State} (hs : Canon s.mem) :
    Ensures (fun t => Canon t.mem) (vloopr b x c len h s) :=
  ensures_then (fun _ => ensures_then (fun _ => ensures_bind (State.readIndex_canon hs) (fun _ h1 => ensures_bind (State.readIndex_canon h1)
      (fun _ h2 => ensures_ok (vloopEnter_canon h2)))))

theorem vpegwCore_canon {b : Nat} {m : BitVec 3} {s : State} (h : Canon s.mem) : Ensures (fun t => Canon t.mem) (vpegwCore b m s) :=
  ensures_then (fun _ => ensures_then (fun _ => ensures_ok (State.retireV_canon h)))

theorem vpegsCore_canon {b : Nat} {m : BitVec 3} {s : State} (h : Canon s.mem) : Ensures (fun t => Canon t.mem) (vpegsCore b m s) :=
  ensures_then (fun _ => ensures_then (fun _ => ensures_ok (State.retireV_canon h)))

theorem vendCore_canon {b : Nat} {s : State} (h : Canon s.mem) : Canon (vendCore b s).mem := State.modBay_canon (State.retireV_canon h)

theorem spawnCore_canon {b : Nat} {m : BitVec 4} {s : State} (h : Canon s.mem) : Ensures (fun t => Canon t.mem) (spawnCore b m s) :=
  ensures_then (fun _ => ensures_then (fun _ => ensures_ok (State.retire_canon h)))

theorem joinCore_canon {b : Nat} {s : State} (h : Canon s.mem) : Ensures (fun t => Canon t.mem) (joinCore b s) :=
  ensures_then (fun _ => ensures_then (fun _ => ensures_ok (State.retire_canon h)))

theorem haltCore_canon {b : Nat} {s : State} (h : Canon s.mem) : Ensures (fun t => Canon t.mem) (haltCore b s) :=
  ensures_then (fun _ => ensures_then (fun _ => ensures_ok (State.noteArrival_canon h)))

theorem tkwaitCore_canon {b : Nat} {m : BitVec 3} {s : State} (h : Canon s.mem) : Ensures (fun t => Canon t.mem) (tkwaitCore b m s) :=
  ensures_then (fun _ => ensures_then (fun _ => ensures_ok (State.retire_canon h)))

theorem tksigCore_canon {b : Nat} {m : BitVec 4} {s : State} (h : Canon s.mem) : Ensures (fun t => Canon t.mem) (tksigCore b m s) :=
  ensures_then (fun _ => ensures_then (fun _ => ensures_then (fun _ => ensures_ok (State.retire_canon h))))

theorem codeFetch_canon {b : Nat} {s : State} (h : Canon s.mem) : Canon (codeFetch b s).mem := by
  unfold codeFetch
  dsimp only
  split <;> exact h

theorem State.modEp_canon {s : State} {b ch : Nat} {f : Endpoint → Endpoint} (h : Canon s.mem) : Canon (s.modEp b ch f).mem := h

end Sys2Proof.Machine
end

section
/-! The canonical form (O5) through channels and credits, replay, barriers, squares, step words and the vector words. -/

namespace Sys2Proof.Machine

theorem chpushCore_canon {b : Nat} {a : BitVec 5} {c : BitVec 6} {s : State} (h : Canon s.mem) : Ensures (fun t => Canon t.mem) (chpushCore b a c s) :=
  ensures_then (fun _ => ensures_then (fun _ => ensures_then (fun _ => State.mergedOp_canon h (ensures_ok h) (fun _ _ h1 => State.retire_canon h1))))

theorem chpopCore_canon {b : Nat} {d : BitVec 5} {c : BitVec 6} {s : State} (h : Canon s.mem) : Ensures (fun t => Canon t.mem) (chpopCore b d c s) := by
  unfold chpopCore
  refine ensures_then (fun _ => ?_)
  split
  · exact ensures_error
  · exact ensures_ok (State.retire_canon (State.writeS_canon h))

theorem dropElement_canon {b ch : Nat} {s : State} (h : Canon s.mem) : Canon (dropElement b ch s).mem := h

theorem startResync_canon {b ch : Nat} {s : State} (h : Canon s.mem) : Canon (startResync b ch s).mem := h

theorem checkElement_canon {b ch : Nat} {tok : Token} {s : State} (h : Canon s.mem) : Canon (checkElement b ch tok s).mem := by
  unfold checkElement
  refine canon_ite h (canon_ite (dropElement_canon (State.endpointFault_canon h)) (canon_ite (dropElement_canon (State.endpointFault_canon h)) ?_))
  split
  · exact h
  · exact startResync_canon (dropElement_canon (State.endpointFault_canon h))
  · exact h

theorem elementArrival_canon {b ch : Nat} {s : State} (h : Canon s.mem) : Canon (elementArrival b ch s).mem := by
  unfold elementArrival
  refine canon_ite h ?_
  split
  · exact h
  · split
    · dsimp only
      split
      · exact h
      · split
        · exact checkElement_canon (checkElement_canon h)
        · exact checkElement_canon h
    · dsimp only
      split
      · exact h
      · exact checkElement_canon h

theorem State.lathCause_canon {s : State} {n cause : Nat} {aux : Word} (h : Canon s.mem) : Canon (s.lathCause n cause aux).mem := by
  unfold State.lathCause
  split
  · exact State.lathPend_canon h
  · exact State.fmOther_canon h

theorem linkCredit_canon {n o : Nat} {s : State} (h : Canon s.mem) : Canon (linkCredit n o s).mem := by
  unfold linkCredit
  split
  · exact h
  · exact canon_ite h h

theorem linkAudit_canon {n o : Nat} {s : State} (h : Canon s.mem) : Canon (linkAudit n o s).mem := by
  unfold linkAudit
  split
  · exact h
  · exact canon_ite h h

theorem linkCheck_canon {n o : Nat} {s : State} (h : Canon s.mem) : Canon (linkCheck n o s).mem := by
  unfold linkCheck
  split
  · exact h
  · dsimp only
    split
    · exact h
    · exact canon_ite h (canon_ite h (State.lathCause_canon h))

theorem linkReturn_canon {n o : Nat} {s : State} (h : Canon s.mem) : Canon (linkReturn n o s).mem := by
  unfold linkReturn
  split
  · exact h
  · exact canon_ite h h

theorem linkApply_canon {n o : Nat} {s : State} (h : Canon s.mem) : Canon (linkApply n o s).mem := by
  unfold linkApply
  split
  · exact h
  · dsimp only
    split <;> exact h

theorem creditReturn_canon {b ch : Nat} {s : State} (h : Canon s.mem) : Canon (creditReturn b ch s).mem := by
  unfold creditReturn
  refine canon_ite h (canon_ite ?_ (canon_ite ?_ (State.modEp_canon (canon_foldl h (fun _ _ h1 => h1)))))
  · split
    · dsimp only
      split
      · exact State.setLath_canon (canon_foldl h (fun _ _ h2 => h2))
      · exact canon_foldl h (fun _ _ h3 => h3)
    · dsimp only
      split
      · exact State.setLath_canon (canon_foldl h (fun _ _ h4 => h4))
      · exact canon_foldl h (fun _ _ h5 => h5)
  · split
    · exact State.modEp_canon (State.modEp_canon (canon_foldl h (fun _ _ h6 => h6)))
    · exact State.modEp_canon (canon_foldl h (fun _ _ h7 => h7))

theorem channelAudit_canon {b ch : Nat} {s : State} (h : Canon s.mem) : Canon (channelAudit b ch s).mem := canon_ite h h

theorem auditCheck_canon {b ch : Nat} {s : State} (h : Canon s.mem) : Canon (auditCheck b ch s).mem := by
  unfold auditCheck
  split
  · dsimp only
    split
    · exact h
    · exact canon_ite h (canon_ite h (startResync_canon (State.endpointFault_canon h)))

theorem resyncReturn_canon {b ch : Nat} {s : State} (h : Canon s.mem) : Canon (resyncReturn b ch s).mem := canon_ite h h

theorem resyncApply_canon {b ch : Nat} {s : State} (h : Canon s.mem) : Canon (resyncApply b ch s).mem := by
  unfold resyncApply
  dsimp only
  split
  · exact h
  · refine canon_ite ?_ h
    split <;> exact h

theorem State.logWrite_canon {s : State} {p kind unit slot choice : Nat} (h : Canon s.mem) : Canon (s.logWrite p kind unit slot choice).mem :=
  canon_ite (State.fmOther_canon (State.modPart_canon (canon_ite h (State.modPart_canon (State.write_canon h))))) (State.modPart_canon (canon_ite h
      (State.modPart_canon (State.write_canon h))))

theorem State.logEnd_canon {s : State} {p : Nat} (h : Canon s.mem) : Canon (s.logEnd p).mem := by
  unfold State.logEnd
  split
  · exact canon_ite h h
  · exact h

theorem State.logTake_canon {s : State} {p i : Nat} (h : Canon s.mem) : Canon (s.logTake p i).mem := State.logEnd_canon h

theorem State.decided_canon {s : State} {p kind unit slot choice : Nat} (h : Canon s.mem) : Canon (s.decided p kind unit slot choice).mem := by
  unfold State.decided
  split
  · exact canon_ite (State.logWrite_canon h) h
  · exact State.logTake_canon h
  · exact h

theorem State.logStuck_canon {s : State} {p kind unit slot : Nat} (h : Canon s.mem) : Canon (s.logStuck p kind unit slot).mem := canon_ite h h

theorem replayTimeout_canon {p : Nat} {s : State} (h : Canon s.mem) : Canon (replayTimeout p s).mem := by
  unfold replayTimeout
  split
  · refine canon_ite ?_ h
    split <;> exact h
  · exact h

theorem State.endMoves_canon {s : State} (h : Canon s.mem) : Canon s.endMoves.mem := canon_ite h (canon_foldl h (fun _ _ h1 => State.clearMig_canon h1))

theorem State.tickClock_canon {s : State} (h : Canon s.mem) : Canon s.tickClock.mem := canon_ite h (State.endMoves_canon h)

theorem State.passTime_canon {s : State} {ns : Nat} (h : Canon s.mem) : Canon (s.passTime ns).mem := h

theorem State.setRow_canon {s : State} {n : Nat} {v : Word} (h : Canon s.mem) : Canon (s.setRow n v).mem := h

theorem rowpubCore_canon {b : Nat} {a r : BitVec 5} {s : State} (h : Canon s.mem) : Ensures (fun t => Canon t.mem) (rowpubCore b a r s) :=
  ensures_then (fun _ => ensures_then (fun _ => ensures_then (fun _ => State.mergedOp_canon h (ensures_ok (State.setRow_canon h))
      (fun _ _ h1 => State.retire_canon h1))))

theorem State.writeBar_canon {s : State} {c : Ctx} {tid : Nat} {x : Span} {o : Nat} (h : Canon s.mem) : Canon (s.writeBar c tid x o).mem :=
  State.writeSpan_canon h

theorem barPerform_canon {c : Ctx} {tid : Nat} {x : Span} {n flags bay sfc : Nat} {s : State} (h : Canon s.mem) :
    Canon (barPerform c tid x n flags bay sfc s).2.mem := by
  unfold barPerform
  dsimp only
  split
  · exact h
  · exact State.writeBar_canon h

theorem barinitCore_canon {b : Nat} {a : BitVec 5} {h : BitVec 4} {e : BitVec 7} {s : State} (hs : Canon s.mem) :
    Ensures (fun t => Canon t.mem) (barinitCore b a h e s) :=
  ensures_then (fun _ => ensures_then (fun _ => ensures_then (fun _ => ensures_then (fun _ => ensures_ok (State.retire_canon (State.writeBar_canon hs))))))

theorem bararrFinish_canon {b tid : Nat} {i r : Word} {s : State} (h : Canon s.mem) : Canon (bararrFinish b tid i r s).mem :=
  canon_ite (State.retire_canon h) (canon_ite (State.trapNow_canon h) (State.trapNow_canon h))

theorem bararrCore_canon {b : Nat} {a : BitVec 5} {h n : BitVec 4} {s : State} (hs : Canon s.mem) : Ensures (fun t => Canon t.mem) (bararrCore b a h n s) :=
  ensures_then (fun _ => ensures_then (fun _ => ensures_then (fun _ => ensures_then (fun _ => State.mergedOp_canon hs (ensures_ok (barPerform_canon hs))
      (fun _ _ h1 => bararrFinish_canon h1)))))

theorem State.writeAt_canon {s : State} {as : List Nat} {bs : List Byte} (h : Canon s.mem) : Canon (s.writeAt as bs).mem := by
  induction as generalizing s bs with
  | nil => exact h
  | cons a as ih =>
    cases bs with
    | nil => exact h
    | cons b bs => exact ih (State.write_canon h)

theorem State.squareEvent_canon {s : State} {n i : Nat} (h : Canon s.mem) : Canon (s.squareEvent n i).mem := canon_ite (canon_ite h h) h

theorem sqWrite_canon {g : Nat} {s : State} (h : Canon s.mem) : Canon (sqWrite g s).mem :=
  canon_ite h (State.squareEvent_canon (State.setGroup_canon (State.writeAt_canon h)))

theorem sqFinish_canon {g : Nat} {x : Group} {es : List (Option Tile × Bool × Bool)} {s : State} (h : Canon s.mem) : Canon (sqFinish g x es s).mem :=
  sqWrite_canon (State.decided_canon (State.setGroup_canon (canon_foldl h (fun _ _ h1 => h1))))

theorem sqComplete_canon {g : Nat} {s : State} (h : Canon s.mem) : Canon (sqComplete g s).mem := by
  unfold sqComplete
  dsimp only
  split
  · exact sqFinish_canon h
  · exact h
  · exact canon_ite (sqFinish_canon h) (State.logStuck_canon h)

theorem sqSettle_canon {g : Nat} {cond : State → Bool} {s : State} (h : Canon s.mem) : Canon (sqSettle g cond s).mem :=
  canon_ite (sqWrite_canon h) (canon_ite (sqComplete_canon h) h)

theorem squaresClosed_canon {c : Nat} {s : State} (h : Canon s.mem) : Canon (squaresClosed c s).mem :=
  canon_foldl h (fun _ _ h1 => canon_ite (sqSettle_canon h1) h1)

theorem squaresDue_canon {s : State} (h : Canon s.mem) : Canon (squaresDue s).mem := canon_foldl h (fun _ _ h1 => sqSettle_canon h1)

theorem sqarmCore_canon {b : Nat} {a : BitVec 5} {g : BitVec 6} {s : State} (h : Canon s.mem) : Ensures (fun t => Canon t.mem) (sqarmCore b a g s) := by
  unfold sqarmCore
  refine ensures_then (fun _ => ?_)
  split
  · exact ensures_error
  · exact ensures_ok (sqSettle_canon (State.retire_canon h))

theorem State.latchCounts_canon {s : State} (h : Canon s.mem) : Canon s.latchCounts.mem := h

theorem State.releaseGroup_canon {s : State} {g : Nat} (h : Canon s.mem) : Canon (s.releaseGroup g).mem :=
  State.setGroup_canon (canon_foldl h (fun _ _ h1 => h1))

theorem sqrelCore_canon {b : Nat} {g : BitVec 6} {s : State} (h : Canon s.mem) : Ensures (fun t => Canon t.mem) (sqrelCore b g s) :=
  ensures_then (fun _ => ensures_ok (State.retire_canon (State.releaseGroup_canon h)))

theorem waitPass_canon {b : Nat} {r : WaitRec} {s : State} (h : Canon s.mem) : Ensures (fun t => Canon t.mem) (waitPass b r s) := by
  unfold waitPass
  split
  · exact ensures_error
  · exact ensures_ite (ensures_ok (State.retire_canon (State.writeS_canon h))) (ensures_ite (ensures_ok (State.retire_canon (State.writeS_canon h)))
        (ensures_ok (State.modBay_canon (State.setHold_canon h))))

theorem boundedWait_canon {b : Nat} {sd t : BitVec 5} {k : Except Stop WaitKind} {s : State} (h : Canon s.mem) :
    Ensures (fun t => Canon t.mem) (boundedWait b sd t k s) := by
  unfold boundedWait
  split
  · exact waitPass_canon h
  · split
    · exact waitPass_canon h
    · exact ensures_error

theorem issue_canon {b : Nat} {e : Eng} {w : BitVec 3} {p : Nat} {t : BitVec 12} {deferred ready : Bool} {body : List Nat → State → Except Stop State} {s : State}
    (h : Canon s.mem) (hb : ∀ ps t, Canon t.mem → Ensures (fun t => Canon t.mem) (body ps t)) : Ensures (fun t => Canon t.mem)
        (issue b e w p t deferred ready body s) := by
  unfold issue
  refine ensures_then fun st => ensures_then fun _ => ?_
  dsimp only
  split
  · exact ensures_then fun _ => hb _ _ h
  · exact ensures_then fun _ => ensures_ite (hb _ _ h) (ensures_ok h)

theorem flushDone_canon {b : Nat} {e : Eng} {n : Nat} {s : State} (h : Canon s.mem) : Canon (flushDone b e n s).mem := by
  induction n generalizing s with
  | zero => exact h
  | succ n ih =>
    unfold flushDone
    split
    · exact canon_ite (ih h) h
    · exact h

theorem State.flush_canon {s : State} {b : Nat} {e : Eng} (h : Canon s.mem) : Canon (s.flush b e).mem := canon_ite h (flushDone_canon h)

theorem deferredPush_canon {b : Nat} {e : Eng} {s : State} (h : Canon s.mem) : Canon (deferredPush b e s).mem := by
  unfold deferredPush
  split
  · exact canon_ite (State.flush_canon h) h
  · exact h

theorem xnopBody_canon {b : Nat} {e : Eng} {ps : List Nat} {s : State} (h : Canon s.mem) : Canon (xnopBody b e ps s).mem := State.retire_canon (canon_ite h h)

theorem xordFinish_canon {b : Nat} {e : Eng} {ps : List Nat} {s : State} (h : Canon s.mem) : Ensures (fun t => Canon t.mem) (xordFinish b e ps s) :=
  ensures_ite (ensures_ok (State.retire_canon h)) (ensures_ok h)

theorem tnopFinish_canon {b : Nat} {ps : List Nat} {s : State} (h : Canon s.mem) : Ensures (fun t => Canon t.mem) (tnopFinish b ps s) :=
  ensures_ite (ensures_ok (State.retire_canon h)) (ensures_ok h)

theorem sloopCore_canon {b : Nat} {e : Eng} {k : BitVec 3} {len : BitVec 5} {s : State} (h : Canon s.mem) :
    Ensures (fun t => Canon t.mem) (sloopCore b e k len s) :=
  ensures_ite ensures_error (ensures_ite ensures_error (ensures_ite ensures_error (ensures_ok (loopEnter_canon h))))

theorem streamEnd_canon {b : Nat} {e : Eng} {s : State} (h : Canon s.mem) : Canon (streamEnd b e s).mem := by
  unfold streamEnd
  refine canon_ite h ?_
  split
  · exact canon_ite h (canon_ite h h)
  · exact canon_ite h h
  · exact canon_ite h h
  · exact h

theorem arithWord_canon {fi : Int → Int → Int → Int} {ff : Mode → Num → Num → Num → Num × BitVec 8} {g : Guard} {d a : BitVec 6} {b : Form} {s : State} (h : Canon s.mem) :
    Ensures (fun t => Canon t.mem) (arithWord fi ff g d a b s) :=
  laneWord_canon h

theorem minmaxWord_canon {mx : Bool} {g : Guard} {d a : BitVec 6} {b : Form} {s : State} (h : Canon s.mem) :
    Ensures (fun t => Canon t.mem) (minmaxWord mx g d a b s) :=
  laneWord_canon h

theorem signWord_canon {neg : Bool} {g : Guard} {d a : BitVec 6} {s : State} (h : Canon s.mem) : Ensures (fun t => Canon t.mem) (signWord neg g d a s) :=
  laneWord_canon h

theorem bitWord_canon {op : Nat → Nat → Nat} {g : Guard} {d a : BitVec 6} {b : Form} {s : State} (h : Canon s.mem) :
    Ensures (fun t => Canon t.mem) (bitWord op g d a b s) :=
  laneWord_canon h

theorem shiftWord_canon {k : Shift} {g : Guard} {d a : BitVec 6} {b : Form} {s : State} (h : Canon s.mem) :
    Ensures (fun t => Canon t.mem) (shiftWord k g d a b s) :=
  laneWord_canon h

theorem selWord_canon {neg : BitVec 1} {p : BitVec 4} {d a : BitVec 6} {b : Form} {s : State} (h : Canon s.mem) :
    Ensures (fun t => Canon t.mem) (selWord neg p d a b s) := by
  unfold selWord
  dsimp only
  exact laneWord_canon h

theorem cmpWord_canon {k : Cmp} {g : Guard} {p : BitVec 4} {a : BitVec 6} {b : Form} {s : State} (h : Canon s.mem) :
    Ensures (fun t => Canon t.mem) (cmpWord k g p a b s) := by
  unfold cmpWord
  split
  · exact ensures_error
  · exact ensures_ok (State.retireV_canon (State.orFlags_canon (State.writeP_canon h)))

theorem widenWord_canon {fi : Int → Int → Int → Int} {ff : Mode → Num → Num → Num → Num × BitVec 8} {g : Guard} {d a : BitVec 6} {b : Form} {s : State} (h : Canon s.mem) :
    Ensures (fun t => Canon t.mem) (widenWord fi ff g d a b s) := by
  unfold widenWord
  split
  · exact ensures_error
  · exact ensures_error
  · exact ensures_ok (State.retireV_canon (State.orFlags_canon (State.writeGroup_canon h)))

theorem dotWord_canon {g : Guard} {d a : BitVec 6} {b : Form} {s : State} (h : Canon s.mem) : Ensures (fun t => Canon t.mem) (dotWord g d a b s) :=
  laneWord_canon h

theorem predWord_canon {op : Nat → Nat → Nat} {g : Guard} {d a b : BitVec 4} {s : State} (h : Canon s.mem) :
    Ensures (fun t => Canon t.mem) (predWord op g d a b s) :=
  ensures_ok (State.retireV_canon (State.writeP_canon h))

theorem kWord_canon {k : BitVec 3} {f : State → Nat} {s : State} (h : Canon s.mem) : Ensures (fun t => Canon t.mem) (kWord k f s) := by
  unfold kWord
  split
  · exact ensures_error
  · exact ensures_ok (State.retireV_canon (State.writeK_canon h))

theorem plenWord_canon {g : Guard} {p : BitVec 4} {b : Form} {s : State} (h : Canon s.mem) : Ensures (fun t => Canon t.mem) (plenWord g p b s) := by
  unfold plenWord
  split
  · exact ensures_error
  · exact ensures_ok (State.retireV_canon (State.writeP_canon h))

theorem shapeWord_canon {k : BitVec 3} {s : State} (h : Canon s.mem) : Ensures (fun t => Canon t.mem) (shapeWord k s) :=
  ensures_ite ensures_error (ensures_ite ensures_error (ensures_ok (State.retireV_canon (State.setVshape_canon h))))

theorem movWord_canon {g : Guard} {d : BitVec 6} {b : Form} {s : State} (h : Canon s.mem) : Ensures (fun t => Canon t.mem) (movWord g d b s) := laneWord_canon h

theorem rotWord_canon {b : Nat} {s : State} (h : Canon s.mem) : Ensures (fun t => Canon t.mem) (rotWord b s) :=
  ensures_ite ensures_error (ensures_ok (State.retireV_canon (canon_foldl (State.setVshape_canon h) (fun _ _ h1 => State.writeP_canon h1))))

theorem cvtWord_canon {t : Nat} {g : Guard} {d a : BitVec 6} {f : Nat} {fmtOk typeOk : Nat → Bool} {conv : State → Nat → Nat → Nat × BitVec 8} {s : State} (h : Canon s.mem) :
    Ensures (fun t => Canon t.mem) (cvtWord t g d a f fmtOk typeOk conv s) := by
  unfold cvtWord
  refine ensures_ite ensures_error ?_
  split
  · exact ensures_error
  · split
    · exact ensures_error
    · exact ensures_ok (State.retireV_canon (State.orFlags_canon (canon_ite (State.writeGroup_canon h) (State.writeLanes_canon h))))

theorem quantWord_canon {d a : BitVec 6} {f : Nat} {s : State} (h : Canon s.mem) : Ensures (fun t => Canon t.mem) (quantWord d a f s) := by
  unfold quantWord
  refine ensures_ite ensures_error ?_
  split
  · exact ensures_error
  · exact ensures_ok (State.retireV_canon (State.orFlags_canon (State.writeV_canon h)))

theorem deqWord_canon {g : Guard} {d a : BitVec 6} {f : Nat} {s : State} (h : Canon s.mem) : Ensures (fun t => Canon t.mem) (deqWord g d a f s) := by
  unfold deqWord
  refine ensures_ite ensures_error ?_
  split
  · exact ensures_error
  · exact ensures_ok (State.retireV_canon (State.orFlags_canon (State.writeLanes_canon h)))

theorem lgmulWord_canon {g : Guard} {d a b : BitVec 6} {s : State} (h : Canon s.mem) : Ensures (fun t => Canon t.mem) (lgmulWord g d a b s) := laneWord_canon h

theorem lgaddWord_canon {g : Guard} {d a b : BitVec 6} {s : State} (h : Canon s.mem) : Ensures (fun t => Canon t.mem) (lgaddWord g d a b s) := by
  unfold lgaddWord
  split
  · exact ensures_error
  · exact ensures_ok (State.retireV_canon (State.orFlags_canon (State.writeLanes_canon h)))

theorem divWord_canon {g : Guard} {d a : BitVec 6} {b : Form} {s : State} (h : Canon s.mem) : Ensures (fun t => Canon t.mem) (divWord g d a b s) :=
  laneWord_canon h

theorem specWord_canon {fn : SpecFn} {g : Guard} {d a : BitVec 6} {s : State} (h : Canon s.mem) : Ensures (fun t => Canon t.mem) (specWord fn g d a s) :=
  laneWord_canon h

theorem reduceWord_canon {k : Red} {g : Guard} {d a : BitVec 6} {s : State} (h : Canon s.mem) : Ensures (fun t => Canon t.mem) (reduceWord k g d a s) := by
  unfold reduceWord
  split
  · exact ensures_error
  · exact ensures_ok (State.retireV_canon (State.orFlags_canon (State.writeV_canon h)))

theorem scanWord_canon {excl : Bool} {g : Guard} {d a : BitVec 6} {s : State} (h : Canon s.mem) : Ensures (fun t => Canon t.mem) (scanWord excl g d a s) := by
  unfold scanWord
  split
  · exact ensures_error
  · exact ensures_ok (State.retireV_canon (State.orFlags_canon (State.writeLanes_canon h)))

theorem permWord_canon {g : Guard} {d a : BitVec 6} {b : Form} {f : State → Nat → Nat → Nat → Nat → Nat} {s : State} (h : Canon s.mem) :
    Ensures (fun t => Canon t.mem) (permWord g d a b f s) := by
  unfold permWord
  dsimp only
  exact laneWord_canon h

theorem zipWord_canon {g : Guard} {d a b : BitVec 6} {s : State} (h : Canon s.mem) : Ensures (fun t => Canon t.mem) (zipWord g d a b s) := by
  unfold zipWord
  split
  · exact ensures_error
  · exact ensures_error
  · exact ensures_ok (State.retireV_canon (State.writeLanes_canon (State.writeLanes_canon h)))

theorem unzipWord_canon {g : Guard} {d a : BitVec 6} {s : State} (h : Canon s.mem) : Ensures (fun t => Canon t.mem) (unzipWord g d a s) := by
  unfold unzipWord
  split
  · exact ensures_error
  · exact ensures_error
  · exact ensures_error
  · exact ensures_ok (State.retireV_canon (State.writeLanes_canon (State.writeLanes_canon h)))

theorem randWord_canon {g : Guard} {d : BitVec 6} {s : State} (h : Canon s.mem) : Ensures (fun t => Canon t.mem) (randWord g d s) := laneWord_canon h

theorem Side.store_canon {x : Side} {c : Ctx} {k : List Nat} {l : List Span} {val : Nat} {s : State} (h : Canon s.mem) : Canon (x.store c k l val s).mem := by
  unfold Side.store
  split
  · exact State.writeElem_canon h
  · exact State.writeSpans_canon h

end Sys2Proof.Machine
end

section
/-! The canonical form (O5) through the copies of the transfer units (spec/09_transfer.md). -/

namespace Sys2Proof.Machine

theorem copyBody_canon {b : Nat} {e : Eng} {op : CopyOp} {c : Nat} {ps : List Nat} {s : State} (h : Canon s.mem) :
    Ensures (fun t => Canon t.mem) (copyBody b e op c ps s) :=
  ensures_then (fun _ => ensures_ok (State.retire_canon h))

theorem copyWord_canon {units : List Eng} {op : CopyOp} {w : BitVec 3} {p : Nat} {c : BitVec 4} {t : BitVec 12} {s : State} (h : Canon s.mem) :
    NextCanon (copyWord units op w p c t s) :=
  State.onUnit_canon h (fun _ _ => ensures_ite (issue_canon h (fun _ _ h1 => copyBody_canon h1)) ensures_error)

theorem State.setRec_canon {s : State} {b : Nat} {e : Eng} {n : Nat} {r : CopyRec} (h : Canon s.mem) : Canon (s.setRec b e n r).mem := h

theorem State.copyFault_canon {s : State} {b : Nat} {e : Eng} {n : Nat} {r : CopyRec} {rc : FaultRec} (h : Canon s.mem) : Canon (s.copyFault b e n r rc).mem :=
  canon_ite h h

theorem State.copyLate_canon {s : State} {b : Nat} {e : Eng} {n : Nat} {r : CopyRec} {rc : FaultRec} (h : Canon s.mem) : Canon (s.copyLate b e n r rc).mem :=
  canon_ite h (canon_ite (State.haltStream_canon (State.flush_canon h)) (State.copyFault_canon h))

theorem State.copyStop_canon {s : State} {b : Nat} {e : Eng} {n : Nat} {r : CopyRec} {x0 : Stop} (h : Canon s.mem) : Canon (s.copyStop b e n r x0).mem := by
  unfold State.copyStop
  split
  · exact State.pageFault_canon h
  · exact State.copyFault_canon h
  · exact h

theorem CopyRec.indexOf_canon {r : CopyRec} {b : Nat} {i : List Nat} {s : State} (h : Canon s.mem) : Ensures (fun x => Canon x.2.mem) (r.indexOf b i s) := by
  unfold CopyRec.indexOf
  refine ensures_ite ?_ (ensures_ok h)
  split
  · exact ensures_error
  · exact State.readIndex_canon h

theorem CopyRec.srcSpot_canon {r : CopyRec} {b : Nat} {e : Eng} {src : Side} {p : Nat} {s : State} (h : Canon s.mem) :
    Ensures (fun x => Canon x.2.mem) (r.srcSpot b e src p s) :=
  ensures_ite (ensures_bind (CopyRec.indexOf_canon h) (fun _ h1 => ensures_then (fun _ => ensures_ok h1))) (ensures_bind (Q := fun x => Canon x.2.mem)
      (ensures_ok h) (fun _ h2 => ensures_then (fun _ => ensures_ok h2)))

theorem CopyRec.dstSpot_canon {r : CopyRec} {b : Nat} {e : Eng} {dst : Side} {p : Nat} {s : State} (h : Canon s.mem) :
    Ensures (fun x => Canon x.2.mem) (r.dstSpot b e dst p s) := by
  unfold CopyRec.dstSpot
  refine ensures_ite (ensures_bind (CopyRec.indexOf_canon h) (fun _ h1 => ensures_then (fun _ => ?_))) (ensures_bind (Q := fun x => Canon x.2.mem)
      (ensures_ok h) (fun _ h2 => ensures_then (fun _ => ?_)))
  · split <;> exact ensures_then (fun _ => ensures_ok h1)
  · split <;> exact ensures_then (fun _ => ensures_ok h2)

theorem spotsOf_canon {f : Nat → State → Except Stop (Spot × State)} {l : List Nat} {s : State} (h : Canon s.mem)
    (hf : ∀ p t, Canon t.mem → Ensures (fun x => Canon x.2.mem) (f p t)) : Ensures (fun x => Canon x.2.mem) (spotsOf f l s) := by
  induction l generalizing s with
  | nil => exact ensures_ok h
  | cons p l ih =>
    unfold spotsOf
    split
    · exact ensures_error
    next _ _ ha =>
      split
      · exact ensures_error
      next _ _ hl =>
        have hr := ih (hf _ _ h _ ha) _ hl
        exact ensures_ok hr

theorem Side.readAll_canon {v : Side} {c : Ctx} {l : List Spot} {s : State} (h : Canon s.mem) : Canon (v.readAll c l s).2.mem := by
  induction l generalizing s with
  | nil => exact h
  | cons a l ih => exact ih (State.readSpans_canon h)

theorem Side.putAll_canon {v : Side} {c : Ctx} {l : List Spot} {xs : List Nat} {s : State} (h : Canon s.mem) : Canon (v.putAll c l xs s).mem := by
  induction l generalizing xs s with
  | nil => exact h
  | cons a l ih =>
    cases xs with
    | nil => exact h
    | cons x xs => exact ih (Side.store_canon h)

theorem Side.storeAll_canon {v : Side} {c : Ctx} {l : List Spot} {xs : List Nat} {s : State} (h : Canon s.mem) : Canon (v.storeAll c l xs s).mem :=
  State.oneWrite_canon (Side.putAll_canon h)

theorem CopyRec.scalesOf_canon {r : CopyRec} {b : Nat} {e : Eng} {src : Side} {l : List Spot} {s : State} (h : Canon s.mem) :
    Ensures (fun x => Canon x.2.mem) (r.scalesOf b e src l s) := by
  induction l generalizing s with
  | nil => exact ensures_ok h
  | cons a l ih =>
    unfold CopyRec.scalesOf
    have hrest (x : Nat × State) (hx : Canon x.2.mem) : Ensures (fun y => Canon y.2.mem) (do
        let (l, s) ← r.scalesOf b e src l x.2
        return (x.1 :: l, s)) := ensures_bind (ih hx) fun _ hy => ensures_ok hy
    dsimp only
    split
    · exact ensures_ite (ensures_bind (ensures_then fun _ => State.readIndex_canon h) hrest) (ensures_bind (ensures_ok h) hrest)
    · exact ensures_bind (ensures_ok h) hrest

theorem CopyRec.plainSector_canon {r : CopyRec} {b : Nat} {e : Eng} {src dst : Side} {s : State} (h : Canon s.mem) :
    Ensures (fun x => Canon x.s.mem) (r.plainSector b e src dst s) :=
  ensures_bind (spotsOf_canon h (fun _ _ h1 => CopyRec.srcSpot_canon h1)) (fun _ h2 => ensures_bind (CopyRec.scalesOf_canon h2) (fun _ h3 => ensures_bind
      (spotsOf_canon h3 (fun _ _ h4 => CopyRec.dstSpot_canon h4)) (fun _ h5 => ensures_ok (Side.storeAll_canon (Side.readAll_canon h5)))))

theorem CopyRec.scaleSpot_canon {r : CopyRec} {b : Nat} {e : Eng} {v : View} {p : Nat} {s : State} (h : Canon s.mem) :
    Ensures (fun x => Canon x.2.mem) (r.scaleSpot b e v p s) :=
  ensures_then (fun _ => ensures_then (fun _ => ensures_then (fun _ => ensures_ok h)))

theorem CopyRec.quantSector_canon {r : CopyRec} {b : Nat} {e : Eng} {src : Side} {v : View} {s : State} (h : Canon s.mem) :
    Ensures (fun x => Canon x.s.mem) (r.quantSector b e src v s) :=
  ensures_bind (spotsOf_canon h (fun _ _ h1 => CopyRec.srcSpot_canon h1)) (fun _ h2 => ensures_bind (CopyRec.scalesOf_canon h2) (fun _ h3 => ensures_bind
      (spotsOf_canon h3 (fun _ _ h4 => CopyRec.dstSpot_canon h4)) (fun _ h5 => ensures_then (fun _ => ensures_bind (spotsOf_canon h5
          (fun _ _ h6 => CopyRec.scaleSpot_canon h6)) (fun _ h7 => ensures_ok (Side.storeAll_canon (Side.storeAll_canon (Side.readAll_canon h7))))))))

theorem CopyRec.fillSector_canon {r : CopyRec} {b : Nat} {e : Eng} {dst : Side} {s : State} (h : Canon s.mem) :
    Ensures (fun x => Canon x.s.mem) (r.fillSector b e dst s) :=
  ensures_bind (spotsOf_canon h (fun _ _ h1 => CopyRec.dstSpot_canon h1)) (fun _ h2 => ensures_ok (Side.storeAll_canon h2))

theorem CopyRec.openAddw_canon {r : CopyRec} {b : Nat} {e : Eng} {src dst : Side} {s : State} (h : Canon s.mem) :
    Ensures (fun x => Canon x.1.mem) (r.openAddw b e src dst s) :=
  ensures_bind (spotsOf_canon h (fun _ _ h1 => CopyRec.srcSpot_canon h1)) (fun _ h2 => ensures_bind (spotsOf_canon h2
      (fun _ _ h3 => CopyRec.dstSpot_canon h3)) (fun _ h4 => ensures_ok (Side.readAll_canon h4)))

theorem CopyRec.sendRed_canon {r : CopyRec} {op : BitVec 3} {b : Nat} {e : Eng} {src dst : Side} {s : State} (h : Canon s.mem) :
    Ensures (fun x => Canon x.1.mem) (r.sendRed op b e src dst s) :=
  ensures_bind (spotsOf_canon h (fun _ _ h1 => CopyRec.srcSpot_canon h1)) (fun _ h2 => ensures_bind (spotsOf_canon h2
      (fun _ _ h3 => CopyRec.dstSpot_canon h3)) (fun _ h4 => ensures_then (fun _ => ensures_ok (State.setBay_canon (Side.readAll_canon h4)))))

theorem CopyRec.step_canon {r : CopyRec} {b : Nat} {e : Eng} {s : State} (h : Canon s.mem) : Ensures (fun x => Canon x.1.mem) (r.step b e s) := by
  unfold CopyRec.step
  refine ensures_then (fun _ => ensures_then (fun _ => ensures_ite (ensures_then (fun _ => ?_)) (ensures_then (fun _ => ?_))))
  · split
    · exact CopyRec.openAddw_canon h
    · exact CopyRec.sendRed_canon h
    · refine ensures_ite (ensures_bind (CopyRec.fillSector_canon h) (fun _ h1 => ensures_ok h1)) ?_
      split
      · exact ensures_ite (ensures_bind (CopyRec.quantSector_canon h) (fun _ h2 => ensures_ok h2)) (ensures_bind (CopyRec.plainSector_canon h)
            (fun _ h3 => ensures_ok h3))
      · exact ensures_bind (CopyRec.plainSector_canon h) (fun _ h4 => ensures_ok h4)
  · split
    · exact CopyRec.openAddw_canon h
    · exact CopyRec.sendRed_canon h
    · refine ensures_ite (ensures_bind (CopyRec.fillSector_canon h) (fun _ h5 => ensures_ok h5)) ?_
      split
      · exact ensures_ite (ensures_bind (CopyRec.quantSector_canon h) (fun _ h6 => ensures_ok h6)) (ensures_bind (CopyRec.plainSector_canon h)
            (fun _ h7 => ensures_ok h7))
      · exact ensures_bind (CopyRec.plainSector_canon h) (fun _ h8 => ensures_ok h8)

theorem sectorMove_canon {b : Nat} {e : Eng} {n : Nat} {s : State} (h : Canon s.mem) : Canon (sectorMove b e n s).mem := by
  unfold sectorMove
  split
  · exact h
  · split
    · exact canon_ite (State.copyLate_canon h) h
    · refine canon_ite h ?_
      split
      next h1 =>
        exact (ensures_end h1 (CopyRec.step_canon h) :)
      · exact State.copyStop_canon h

theorem addEntries_canon {b : Nat} {i32 : Bool} {l : List (Nat × Nat)} {s : State} (h : Canon s.mem) : Canon (addEntries b i32 l s).1.mem := by
  induction l generalizing s with
  | nil => exact h
  | cons x l ih =>
    obtain ⟨e, v⟩ := x
    unfold addEntries
    generalize accAddr b e = a
    generalize (addEntry i32 (s.rd a 4) v) = r
    exact ih (State.write_canon h)

theorem addwLine_canon {b n : Nat} {s : State} (h : Canon s.mem) : Canon (addwLine b n s).mem := by
  unfold addwLine
  split
  · dsimp only
    split
    · exact h
    · refine canon_ite h ?_
      split
      · exact h
      · exact canon_ite (State.copyFault_canon h) (State.setRec_canon (State.modBay_canon (State.orStreamFlags_canon (addEntries_canon h))))
  · dsimp only
    split
    · exact h
    · refine canon_ite h ?_
      split
      · exact h
      · exact canon_ite (State.copyFault_canon h) (State.setRec_canon (State.modBay_canon (State.orStreamFlags_canon (addEntries_canon h))))

theorem redElems_canon {op : BitVec 3} {l : List (Nat × List Nat × BitVec 32)} {s : State} (h : Canon s.mem) : Canon (redElems op l s).1.mem := by
  induction l generalizing s with
  | nil => exact h
  | cons x l ih =>
    obtain ⟨_, as, v⟩ := x
    unfold redElems
    generalize redNew op (byteAt s as) v.toNat = r
    exact ih (State.writeAt_canon h)

theorem redPerform_canon {bs : List Nat} {q : RedReq} {s : State} (h : Canon s.mem) : Canon (redPerform bs q s).1.mem :=
  canon_foldl (redElems_canon h) (fun _ _ h1 => State.digestBytes_canon h1)

theorem State.redApplied_canon {s : State} {b : Nat} {seq : BitVec 23} {f : BitVec 8} (h : Canon s.mem) : Canon (s.redApplied b seq f).mem := h

theorem redApply_canon {b n : Nat} {s : State} (h : Canon s.mem) : Canon (redApply b n s).mem := by
  unfold redApply
  dsimp only
  split
  · exact h
  · refine canon_ite h (canon_ite h ?_)
    split
    · exact h
    · exact canon_ite (State.redApplied_canon (State.redApplied_canon (redPerform_canon h))) (State.discard_canon h)
    · exact State.redApplied_canon (redPerform_canon h)

theorem redAck_canon {b n : Nat} {s : State} (h : Canon s.mem) : Canon (redAck b n s).mem := by
  unfold redAck
  dsimp only
  split
  · exact h
  · refine canon_ite h ?_
    split
    · exact h
    · refine canon_ite h ?_
      split <;> exact h

theorem CopyRec.copyTrailer_canon {r : CopyRec} {b : Nat} {e : Eng} {src dst : Side} {s : State} (h : Canon s.mem) :
    Ensures (fun t => Canon t.mem) (r.copyTrailer b e src dst s) := by
  unfold CopyRec.copyTrailer
  split
  · exact ensures_ok h
  · refine ensures_bind (State.checkTrailer_canon h) (fun _ h1 => ?_)
    split
    · exact ensures_ok h1
    · exact ensures_ite (ensures_bind (State.readRun_canon h1) (fun _ h2 => ensures_then (fun _ => ensures_then (fun _ => ensures_ok
          (State.writeSpans_canon h2))))) (ensures_ok h1)

theorem CopyRec.convTrailer_canon {r : CopyRec} {b : Nat} {e : Eng} {d : View} {s : State} (h : Canon s.mem) :
    Ensures (fun t => Canon t.mem) (r.convTrailer b e d s) :=
  ensures_bind (State.payloadOf_canon h) (fun _ h1 => ensures_then (fun _ => ensures_then (fun _ => ensures_ok (State.writeSpans_canon h1))))

theorem CopyRec.trailerWork_canon {r : CopyRec} {b : Nat} {e : Eng} {s : State} (h : Canon s.mem) : Ensures (fun t => Canon t.mem) (r.trailerWork b e s) := by
  unfold CopyRec.trailerWork
  refine ensures_ite (ensures_then (fun _ => ensures_then (fun _ => CopyRec.copyTrailer_canon h))) (ensures_ite ?_ (ensures_ok h))
  split
  · exact ensures_ite (CopyRec.convTrailer_canon h) (ensures_ok h)
  · exact ensures_ok h

theorem State.copyDone_canon {s : State} {b : Nat} {e : Eng} {n : Nat} {r : CopyRec} {tid : Nat} {k : Word} (h : Canon s.mem) :
    Canon (s.copyDone b e n r tid k).mem :=
  canon_ite h (canon_ite (State.flush_canon h) (State.haltStream_canon (State.flush_canon h)))

theorem CopyRec.arrive_canon {r : CopyRec} {b : Nat} {e : Eng} {s : State} (h : Canon s.mem) :
    Ensures (fun x => Canon x.2.2.mem) (r.arrive b e s) := by
  unfold CopyRec.arrive
  refine ensures_then fun x => ?_
  dsimp only
  generalize hr : barPerform _ _ _ _ _ _ _ s = u
  have hu : Canon u.2.mem := hr ▸ barPerform_canon h
  exact ensures_ok hu

theorem State.stopAll_canon {s : State} {e : Eng} {x : Stop} {l : List (Nat × Nat × CopyRec)} (h : Canon s.mem) : Canon (s.stopAll e x l).mem :=
  canon_foldl h (fun _ _ h1 => State.copyStop_canon h1)

theorem arriveFor_canon {e : Eng} {first : Nat × Nat × CopyRec} {rest : List (Nat × Nat × CopyRec)} {s : State} (h : Canon s.mem) :
    Canon (arriveFor e first rest s).mem := by
  unfold arriveFor
  split
  · split
    · exact State.stopAll_canon h
    · exact State.copyStop_canon h
    next h1 =>
      refine canon_ite (State.stopAll_canon (canon_foldl (ensures_end h1 (CopyRec.arrive_canon h) :) (fun _ _ h2 => canon_ite ?_ h2))) (canon_foldl
          (canon_foldl (ensures_end h1 (CopyRec.arrive_canon h) :) (fun _ _ h3 => canon_ite ?_ h3)) (fun _ _ h4 => State.copyDone_canon h4))
      · split
        next h5 =>
          exact (ensures_end h5 (CopyRec.arrive_canon h2) :)
        · exact h2
      · split
        next h6 =>
          exact (ensures_end h6 (CopyRec.arrive_canon h3) :)
        · exact h3

theorem copyArrive_canon {b : Nat} {e : Eng} {n : Nat} {r : CopyRec} {s : State} (h : Canon s.mem) : Canon (copyArrive b e n r s).mem := by
  unfold copyArrive
  refine canon_ite (arriveFor_canon h) ?_
  split
  · exact h
  · exact canon_ite (canon_ite (arriveFor_canon h) (arriveFor_canon h)) (State.discard_canon h)

theorem copyCompletion_canon {b : Nat} {e : Eng} {n : Nat} {s : State} (h : Canon s.mem) : Canon (copyCompletion b e n s).mem := by
  unfold copyCompletion
  split
  · exact h
  · split
    · exact canon_ite (State.copyLate_canon h) h
    · refine canon_ite h ?_
      split
      · exact State.copyStop_canon h
      next h1 =>
        exact canon_ite (copyArrive_canon (ensures_end h1 (CopyRec.trailerWork_canon h) :)) (State.copyDone_canon (ensures_end h1
            (CopyRec.trailerWork_canon h) :))

end Sys2Proof.Machine
end

section
/-! The canonical form (O5) through the lathwork (spec/14_lathwork.md). -/

namespace Sys2Proof.Machine

theorem State.modLath_canon {s : State} {n : Nat} {f : Lath → Lath} (h : Canon s.mem) : Canon (s.modLath n f).mem := h

theorem State.chosen_canon {s : State} {n i : Nat} {b : Batch} (h : Canon s.mem) : Canon (s.chosen n i b).mem := canon_ite (State.decided_canon h) h

theorem tokenEmission_canon {n o : Nat} {s : State} (h : Canon s.mem) : Canon (tokenEmission n o s).mem := by
  unfold tokenEmission
  refine canon_ite h ?_
  split
  · dsimp only
    split
    · exact h
    · exact canon_ite h h
  · dsimp only
    split
    · exact h
    · exact canon_ite h h

theorem lathToken_canon {n i k : Nat} {t : Token} {drop sync : State → State} {s : State} (h : Canon s.mem) (hd : ∀ t, Canon t.mem → Canon (drop t).mem)
    (hs : ∀ t, Canon t.mem → Canon (sync t).mem) : Canon (lathToken n i k t drop sync s).mem := by
  unfold lathToken
  split
  · exact hd _ h
  · exact hd _ (State.lathCause_canon h)
  · exact hs _ (hd _ (State.lathCause_canon h))
  · exact h

theorem lathArrival_canon {n i src : Nat} {s : State} (h : Canon s.mem) : Canon (lathArrival n i src s).mem := by
  unfold lathArrival
  refine canon_ite h (canon_ite ?_ ?_)
  · dsimp only
    split
    · exact h
    · exact canon_ite h (lathToken_canon h (fun _ h1 => h1) (fun _ h2 => h2))
  · dsimp only
    split
    · exact h
    · exact canon_ite h (lathToken_canon h (fun _ h3 => h3) (fun _ h4 => h4))

theorem batchMove_canon {n i k : Nat} {s : State} (h : Canon s.mem) : Canon (batchMove n i k s).mem := by
  unfold batchMove
  dsimp only
  split
  · exact h
  · refine canon_ite h (canon_ite ?_ h)
    split <;> exact h

theorem withTag_canon {α : Type} {P : α → Prop} {t : BitVec 32} {e : Except Stop α} (h : Ensures P e) : Ensures P (withTag t e) := by
  unfold withTag
  split
  · exact ensures_error
  · exact ensures_error
  · exact h

theorem State.nextBatch_canon {s t : State} {n i : Nat} {f : State → State} (hf : s.nextBatch n i = .other f) (h : Canon t.mem) : Canon (f t).mem := by
  have hof (o : Option Batch) : Next.of o ≠ .other f := by cases o <;> exact Next.noConfusion
  unfold State.nextBatch at hf
  dsimp only at hf
  split at hf
  · exact absurd hf (hof _)
  split at hf
  · exact absurd hf (hof _)
  split at hf
  · split at hf
    · exact absurd hf (hof _)
    · injection hf with hf
      exact hf ▸ h
    · split at hf
      · cases hf
      · injection hf with hf
        exact hf ▸ State.logStuck_canon h
  · exact absurd hf (hof _)

theorem takeAll_canon {n : Nat} {l : List Nat} {s t : State} {f : State → State} (hf : takeAll n s l = .error f) (h : Canon t.mem) : Canon (f t).mem := by
  induction l generalizing s with
  | nil => cases hf
  | cons i l ih =>
    unfold takeAll at hf
    split at hf
    · cases hf
    next hg =>
      injection hf with hf
      exact hf ▸ State.nextBatch_canon hg h
    · split at hf
      · cases hf
      · exact ih hf

theorem consumeAll_canon {n : Nat} {is : List Nat} {bs : List Batch} {s : State} (h : Canon s.mem) : Canon (consumeAll n is bs s).mem := by
  induction is generalizing bs s with
  | nil => exact h
  | cons i is ih =>
    cases bs with
    | nil => exact h
    | cons b bs => exact ih (State.chosen_canon h)

theorem lathWaits_canon {n : Nat} {ins : List Nat} {s : State} (h : Canon s.mem) : Ensures (fun t => Canon t.mem) (lathWaits n ins s) :=
  ensures_ite (ensures_ok h) ensures_error

theorem classOp_canon {n : Nat} {ins outs : List Nat} {check : Except Stop Unit} {f : List Batch → State → Except Stop (Emission × State)} {s : State} (h : Canon s.mem)
    (hf : ∀ bs t, Canon t.mem → Ensures (fun x => Canon x.2.mem) (f bs t)) : Ensures (fun t => Canon t.mem) (classOp n ins outs check f s) := by
  unfold classOp
  split
  next hg => exact ensures_ok (takeAll_canon hg h)
  · exact lathWaits_canon h
  · exact ensures_ite ensures_error (ensures_then fun _ => ensures_ite ensures_error (ensures_bind (hf _ _ h) fun _ hx => ensures_ok (consumeAll_canon hx)))

theorem mapOp_canon {n : Nat} {sz : BitVec 4} {i o : BitVec 2} {u : SlotUse} {f : Nat → List Word → List Word} {s : State} (h : Canon s.mem) :
    Ensures (fun t => Canon t.mem) (mapOp n sz i o u f s) :=
  classOp_canon h (fun _ _ h1 => ensures_ok h1)

theorem setHop_canon {n : Nat} {h : HashOp} {s : State} (hs : Canon s.mem) : Canon (setHop n h s).mem := hs

theorem gathTokens_canon {n w : Nat} {v : View} {l : List Token} {h : HashOp} {s : State} (hs : Canon s.mem) :
    Ensures (fun x => Canon x.2.mem) (gathTokens n w v l h s) := by
  induction l generalizing h s with
  | nil => exact ensures_ok hs
  | cons t l ih =>
    unfold gathTokens
    split
    · exact ensures_ok (State.pageFault_canon hs)
    · exact ensures_error
    next hx =>
      have ht := ensures_end hx (withTag_canon (State.readIndex_canon hs))
      exact ih ht

theorem gathFrom_canon {n w i o : Nat} {b : Batch} {h : HashOp} {s : State} (hs : Canon s.mem) : Ensures (fun t => Canon t.mem) (gathFrom n w i o b h s) := by
  unfold gathFrom
  refine ensures_then (fun _ => ensures_bind (gathTokens_canon hs) (fun _ _ => ?_))
  split
  next h1 =>
    exact ensures_ok h1
  next h2 =>
    exact ensures_ok h2

theorem reloadFailed_canon {n : Nat} {s : State} (h : Canon s.mem) : Canon (reloadFailed n s).mem := by
  unfold reloadFailed
  split
  · exact State.discard_canon h
  · exact State.fmOther_canon h

theorem parityError_canon {n : Nat} {s : State} (h : Canon s.mem) : Canon (parityError n s).mem := canon_ite h (canon_ite (reloadFailed_canon h) h)

theorem reloadCompletion_canon {n : Nat} {masterBad : Bool} {s : State} (h : Canon s.mem) : Canon (reloadCompletion n masterBad s).mem :=
  canon_ite h (canon_ite (reloadFailed_canon h) (State.fmEvent_canon h))

end Sys2Proof.Machine
end

section
/-! The canonical form (O5) through the Framer (spec/13_framer.md). -/

namespace Sys2Proof.Machine

theorem State.modJob_canon {s : State} {n : Nat} {f : Job → Job} (h : Canon s.mem) : Canon (s.modJob n f).mem := h

theorem completionRecord_canon {p : Nat} {crec jobid : Word} {status cause code fbay frec : Nat} {placed : Option Word} {s : State} (h : Canon s.mem) :
    Canon (completionRecord p crec jobid status cause code fbay frec placed s).mem := by
  unfold completionRecord
  cases placed <;> exact State.modPart_canon (State.write_canon h)

theorem settle_canon {p : Nat} {jobid : Word} {ok : Bool} {s : State} (h : Canon s.mem) : Canon (settle p jobid ok s).mem := h

theorem queueIdle_canon {p q : Nat} {s : State} (h : Canon s.mem) : Canon (queueIdle p q s).mem := canon_ite h h

theorem State.retireLath_canon {s : State} {n : Nat} (h : Canon s.mem) : Canon (s.retireLath n).mem := State.fmEvent_canon (State.fmEvent_canon h)

theorem releaseCopy_canon {n : Nat} {s : State} (h : Canon s.mem) : Canon (releaseCopy n s).mem :=
  canon_foldl h (fun _ _ h1 => State.setGroup_canon (State.releaseGroup_canon h1))

theorem endCommand_canon {p res : Nat} {s : State} (h : Canon s.mem) : Canon (endCommand p res s).mem := h

theorem endPreempt_canon {p : Nat} {jobid : Word} {res : Nat} {s : State} (h : Canon s.mem) : Canon (endPreempt p jobid res s).mem := canon_ite h h

theorem leave_canon {n status cause code : Nat} {s : State} (h : Canon s.mem) : Canon (leave n status cause code s).mem := by
  unfold leave
  refine endPreempt_canon (queueIdle_canon (settle_canon ?_))
  dsimp only
  exact canon_foldl (completionRecord_canon h) (fun _ _ h1 => releaseCopy_canon h1)

theorem buildTables_canon {n : Nat} {s : State} (h : Canon s.mem) : Canon (buildTables n s).mem :=
  State.modJob_canon (canon_foldl_fst h (fun _ _ h1 => canon_foldl h1 (fun _ _ h2 => State.write_canon h2)))

theorem State.latchTiles_canon {s : State} {p : Nat} (h : Canon s.mem) : Canon (s.latchTiles p).mem := h

theorem wantTile_canon {p n tid tile : Nat} {s : State} (h : Canon s.mem) : Canon (wantTile p n tid tile s).mem := by
  unfold wantTile
  split <;> exact h

theorem wantTiles_canon {p n : Nat} {s : State} (h : Canon s.mem) : Canon (wantTiles p n s).mem :=
  canon_foldl (canon_ite (buildTables_canon h) h) (fun _ _ h1 => canon_foldl h1 (fun _ _ h2 => wantTile_canon h2))

theorem admission_canon {p : Nat} {s : State} (h : Canon s.mem) : Canon (admission p s).mem := by
  unfold admission
  dsimp only
  split
  · exact canon_ite h (canon_ite (canon_ite (completionRecord_canon h) (queueIdle_canon (settle_canon (completionRecord_canon h)))) (State.latchTiles_canon
        (State.latchCounts_canon (wantTiles_canon (State.frEvent_canon h)))))
  · exact h

theorem dependenceMet_canon {n : Nat} {s : State} (h : Canon s.mem) : Canon (dependenceMet n s).mem := canon_ite h (canon_ite (leave_canon h) (canon_ite h h))

theorem aging_canon {n : Nat} {s : State} (h : Canon s.mem) : Canon (aging n s).mem := canon_ite h h

theorem loadLath_canon {n : Nat} {e : LathEntry} {s : State} (h : Canon s.mem) : Canon (loadLath n e s).mem := canon_ite h h

theorem assignLaths_canon {n : Nat} {s : State} (h : Canon s.mem) : Canon (assignLaths n s).mem := by
  unfold assignLaths
  exact State.modJob_canon (canon_foldl h (fun _ _ h1 => State.modLath_canon (loadLath_canon h1)))

theorem startLaths_canon {n : Nat} {s : State} (h : Canon s.mem) : Canon (startLaths n s).mem := canon_foldl h (fun _ _ h1 => h1)

theorem State.clearBay_canon {s : State} {b : Nat} (h : Canon s.mem) : Canon (s.clearBay b).mem := Memory.wf_filter h _

theorem State.freshTrusses_canon {s : State} {bays : List Nat} {seed : Word} (h : Canon s.mem) : Canon (s.freshTrusses bays seed).mem :=
  canon_foldl h (fun _ _ h1 => h1)

theorem State.startOn_canon {s : State} {b n i : Nat} {active other : Plane} (h : Canon s.mem) : Canon (s.startOn b n i active other).mem :=
  State.setBay_canon (State.dropCache_canon (State.clearBay_canon h))

theorem State.restoreOn_canon {s : State} {b n i : Nat} (h : Canon s.mem) : Canon (s.restoreOn b n i).mem :=
  Memory.wf_writeCells _ _ (State.clearBay_canon h)

theorem resumeAgent_canon {f : PageFault} {s : State} (h : Canon s.mem) : Canon (resumeAgent f s).mem := by
  unfold resumeAgent
  split
  · exact h
  · exact h
  · exact h
  · exact h
  · exact h
  · split
    · exact canon_ite (wantTile_canon h) h
    · exact h

theorem resumeServed_canon {p : Nat} {s : State} (h : Canon s.mem) : Canon (resumeServed p s).mem := canon_foldl h (fun _ _ h1 => resumeAgent_canon h1)

theorem enterRun_canon {n : Nat} {s : State} (h : Canon s.mem) : Canon (enterRun n s).mem :=
  canon_ite (resumeServed_canon (canon_ite (startLaths_canon (State.modPart_canon (canon_foldl h (fun _ _ h1 => h1)))) (canon_foldl h (fun _ _ h2 => h2)))) h

theorem flipBay_canon {b n : Nat} {s : State} (h : Canon s.mem) : Canon (flipBay b n s).mem := by
  unfold flipBay
  dsimp only
  split
  · exact h
  · exact canon_ite (State.startOn_canon h) (State.restoreOn_canon h)

theorem planeFlip_canon {b : Nat} {s : State} (h : Canon s.mem) : Canon (planeFlip b s).mem := by
  unfold planeFlip
  split
  · exact h
  · exact canon_ite (enterRun_canon (flipBay_canon h)) h

theorem preload_canon {n : Nat} {bays : List Nat} {s : State} (h : Canon s.mem) : Canon (preload n bays s).mem := canon_foldl h (fun _ _ h1 => h1)

theorem clearHomes_canon {p : Nat} {s : State} (h : Canon s.mem) : Canon (clearHomes p s).mem := h

theorem State.takeBents_canon {s : State} {bays : List Nat} {seed : Word} (h : Canon s.mem) : Canon (s.takeBents bays seed).mem :=
  canon_foldl (State.freshTrusses_canon h) (fun _ _ h1 => h1)

theorem placeReady_canon {n g : Nat} {h : Option Nat} {s : State} (hs : Canon s.mem) : Canon (placeReady n g h s).mem := by
  unfold placeReady
  refine State.frEvent_canon (canon_foldl (State.takeBents_canon (clearHomes_canon (assignLaths_canon ?_))) (fun _ _ h1 => preload_canon h1))
  split
  · exact State.setJob_canon (canon_ite (buildTables_canon hs) hs)
  · exact canon_ite (buildTables_canon hs) hs

theorem placeSaved_canon {n : Nat} {s : State} (h : Canon s.mem) : Canon (placeSaved n s).mem := by
  unfold placeSaved
  exact State.frEvent_canon (canon_foldl (State.takeBents_canon (canon_foldl h (fun _ _ h1 => h1))) (fun _ _ h2 => preload_canon h2))

theorem followSelect_canon {p n g : Nat} {h : Option Nat} {qs : Tab LQueue} {ptr : Nat} {s : State} (hs : Canon s.mem) :
    Canon (followSelect p n g h qs ptr s).mem :=
  canon_ite (placeSaved_canon hs) (canon_ite (leave_canon hs) (placeReady_canon hs))

theorem configLaths_canon {n : Nat} {s : State} (h : Canon s.mem) : Canon (configLaths n s).mem := canon_foldl h (fun _ _ h1 => h1)

theorem plumbRestart_canon {n : Nat} {s : State} (h : Canon s.mem) : Canon (plumbRestart n s).mem :=
  canon_foldl (State.freshTrusses_canon (clearHomes_canon (configLaths_canon (canon_foldl (State.setJob_canon (releaseCopy_canon h))
      (fun _ _ h1 => State.write_canon h1))))) (fun _ _ h2 => State.modBay_canon (State.startOn_canon h2))

theorem jobCompletion_canon {n : Nat} {s : State} (h : Canon s.mem) : Canon (jobCompletion n s).mem :=
  canon_ite h (canon_ite (leave_canon h) (canon_ite h (canon_ite (State.discard_canon h) (canon_ite (canon_ite (plumbRestart_canon h) (canon_ite
      (leave_canon h) (State.discard_canon h))) (leave_canon h)))))

theorem preloadAt_canon {n : Nat} {bs mb : List Nat} {s : State} (h : Canon s.mem) : Canon (preloadAt n bs mb s).mem :=
  canon_foldl (canon_foldl h (fun _ _ h1 => h1)) (fun _ _ h2 => h2)

theorem preloadLaths_canon {n : Nat} {s : State} (h : Canon s.mem) : Canon (preloadLaths n s).mem :=
  canon_foldl h (fun _ _ h1 => canon_ite (loadLath_canon h1) h1)

theorem preloadNext_canon {p : Nat} {s : State} (h : Canon s.mem) : Canon (preloadNext p s).mem := by
  unfold preloadNext
  refine canon_foldl_fst h (fun _ _ _ => ?_)
  split
  next h1 =>
    split
    · exact h1
    · split
      · exact h1
      · dsimp only
        split
        · exact h1
        · exact preloadLaths_canon (preloadAt_canon h1)

theorem selection_canon {p : Nat} {s : State} (h : Canon s.mem) : Canon (selection p s).mem := by
  unfold selection
  refine canon_ite h (canon_ite (preloadNext_canon h) ?_)
  split
  · split
    · exact h
    · exact h
    · exact followSelect_canon (State.decided_canon h)
  · split
    · exact followSelect_canon (State.decided_canon h)
    · exact canon_ite h (State.logStuck_canon h)
  · split <;> exact h

theorem slotMissed_canon {p i : Nat} {j : Option Job} {s : State} (h : Canon s.mem) : Canon (slotMissed p i j s).mem := by
  unfold slotMissed
  split <;> exact State.frEvent_canon h

theorem runSlot_canon {p i : Nat} {e : SchedEntry} {s : State} (h : Canon s.mem) : Canon (runSlot p i e s).mem := by
  unfold runSlot
  split
  · dsimp only
    split
    · exact slotMissed_canon h
    · split
      · exact slotMissed_canon h
      · exact canon_ite (slotMissed_canon h) (canon_ite (leave_canon h) h)
  · dsimp only
    split
    · exact slotMissed_canon h
    · split
      · exact slotMissed_canon h
      · exact canon_ite (slotMissed_canon h) (canon_ite (leave_canon h) (canon_ite (State.logStuck_canon h) (enterRun_canon (canon_foldl (placeReady_canon
            (State.decided_canon h)) (fun _ _ h1 => canon_foldl h1 (fun _ _ h2 => flipBay_canon h2))))))
  · dsimp only
    split
    · exact slotMissed_canon h
    · split
      · exact slotMissed_canon h
      · exact canon_ite (slotMissed_canon h) (canon_ite (leave_canon h) (enterRun_canon (canon_foldl (placeReady_canon (State.decided_canon h))
            (fun _ _ h3 => canon_foldl h3 (fun _ _ h4 => flipBay_canon h4)))))

theorem State.completeHalted_canon {s : State} {p : Nat} (h : Canon s.mem) : Canon (s.completeHalted p).mem :=
  canon_foldl h (fun _ _ h1 => canon_ite (jobCompletion_canon h1) h1)

theorem frameOriginStep_canon {p : Nat} {s : State} (h : Canon s.mem) : Canon (frameOriginStep p s).mem :=
  canon_ite h (canon_foldl (State.completeHalted_canon h) (fun _ _ h1 => canon_ite (runSlot_canon h1) h1))

theorem jobTime_canon {n : Nat} {s : State} (h : Canon s.mem) : Canon (jobTime n s).mem := canon_ite h (canon_foldl h (fun _ _ h1 => canon_ite h1 h1))

theorem killJob_canon {n : Nat} {s : State} (h : Canon s.mem) : Canon (killJob n s).mem := canon_ite (leave_canon h) (canon_ite h (canon_ite h h))

theorem jobKill_canon {n : Nat} {s : State} (h : Canon s.mem) : Canon (jobKill n s).mem := by
  unfold jobKill
  dsimp only
  split
  · exact h
  · exact canon_ite h (killJob_canon h)

theorem preemptJob_canon {n : Nat} {s : State} (h : Canon s.mem) : Canon (preemptJob n s).mem := by
  unfold preemptJob
  exact State.frEvent_canon (canon_foldl h (fun _ _ h1 => h1))

theorem preemption_canon {n : Nat} {s : State} (h : Canon s.mem) : Canon (preemption n s).mem := canon_ite (preemptJob_canon h) h

theorem saveCopy_canon {n : Nat} {s : State} (h : Canon s.mem) : Canon (saveCopy n s).mem := canon_foldl h (fun _ _ h1 => h1)

theorem saveComplete_canon {n : Nat} {s : State} (h : Canon s.mem) : Canon (saveComplete n s).mem :=
  canon_ite h (canon_ite h (endPreempt_canon (canon_foldl h (fun _ _ h1 => saveCopy_canon h1))))

end Sys2Proof.Machine
end

section
/-! The canonical form (O5) through the hash tables (spec/17_hash_tables.md). -/

namespace Sys2Proof.Machine

theorem State.setTable_canon {s : State} {t : Nat} {w : List Word} (h : Canon s.mem) : Canon (s.setTable t w).mem := h

theorem State.countTable_canon {s : State} {t i : Nat} {hi : Bool} (h : Canon s.mem) : Canon (s.countTable t i hi).mem := h

theorem post_canon {n : Nat} {v : View} {g : Granule} {vals after : List Nat} {s : State} (h : Canon s.mem) : Canon (post n v g vals after s).mem := h

theorem State.digestJob_canon {s : State} {slot space tid o : Nat} {l : List Byte} (h : Canon s.mem) : Canon (s.digestJob slot space tid o l).mem :=
  canon_ite h h

theorem landUpdate_canon {slot : Option Nat} {u : HashUpdate} {s : State} (h : Canon s.mem) : Canon (landUpdate slot u s).mem := by
  unfold landUpdate
  refine canon_foldl h (fun _ _ h1 => ?_)
  split
  · split
    · exact State.digestJob_canon (State.write_canon h1)
    · exact State.write_canon h1

theorem updateCompletion_canon {n k : Nat} {s : State} (h : Canon s.mem) : Canon (updateCompletion n k s).mem := by
  unfold updateCompletion
  dsimp only
  split
  · exact h
  · exact canon_ite h (landUpdate_canon h)

theorem landAll_canon {n : Nat} {s : State} (h : Canon s.mem) : Canon (landAll n s).mem := canon_foldl h (fun _ _ h1 => landUpdate_canon h1)

theorem allocNode_canon {n t : Nat} {gv : GenView} {o : View} {fd : Found} {b v : Nat} {s : State} (h : Canon s.mem) :
    Ensures (fun t => Canon t.mem) (allocNode n t gv o fd b v s) := by
  unfold allocNode
  refine ensures_ite ensures_error ?_
  split
  · exact ensures_error
  · split <;> split <;> exact ensures_ok h

theorem insertEntry_canon {n t : Nat} {gv : GenView} {b row c : Nat} {s : State} (h : Canon s.mem) :
    Ensures (fun o => ∀ t, o = some t → Canon t.mem) (insertEntry n t gv b row c s) := by
  unfold insertEntry
  split
  · exact ensures_error
  · refine ensures_ite ensures_none (ensures_ite (ensures_some (P := fun t : State => Canon t.mem) (State.countTable_canon h))
      (ensures_ite (ensures_some (P := fun t : State => Canon t.mem) (post_canon h)) ?_))
    split
    · exact ensures_some (P := fun t : State => Canon t.mem) (State.countTable_canon h)
    · exact ensures_some (P := fun t : State => Canon t.mem) (State.countTable_canon (post_canon h))
    · split
      · exact ensures_error
      · split
        · exact ensures_some (P := fun t : State => Canon t.mem) (State.countTable_canon (post_canon h))
        · split
          · exact ensures_error
          next hn => exact ensures_some (P := fun t : State => Canon t.mem) (State.countTable_canon (allocNode_canon h _ hn))
    · exact ensures_error

theorem deleteEntry_canon {n : Nat} {gv : GenView} {b row c : Nat} {s : State} (h : Canon s.mem) :
    Ensures (fun o => ∀ x, o = some x → Canon x.2.mem) (deleteEntry n gv b row c s) := by
  unfold deleteEntry
  split
  · exact ensures_error
  · refine ensures_ite ensures_none (ensures_ite (ensures_some (P := fun x : Bool × State => Canon x.2.mem) (post_canon h)) ?_)
    split
    · exact ensures_some (P := fun x : Bool × State => Canon x.2.mem) (post_canon h)
    · exact ensures_some (P := fun x : Bool × State => Canon x.2.mem) h

theorem hashOp_canon {n i : Nat} {outs : List Nat} {check : Batch → Except Stop Unit} {body : HashOp → Batch → Except Stop State} {s : State} (hs : Canon s.mem)
    (hb : ∀ h b, Ensures (fun t => Canon t.mem) (body h b)) : Ensures (fun t => Canon t.mem) (hashOp n i outs check body s) := by
  unfold hashOp
  split
  · split
    · exact hb _ _
    · exact ensures_error
  · split
    next hn => exact ensures_ok (State.nextBatch_canon hn hs)
    · exact lathWaits_canon hs
    · exact ensures_ite ensures_error (ensures_then fun _ => ensures_ok (setHop_canon (State.chosen_canon hs)))

theorem hashFinish_canon {n i : Nat} {b : Batch} {e : Emission} {s : State} (h : Canon s.mem) : Canon (hashFinish n i b e s).mem := h

theorem probeStep_canon {n i o f : Nat} {s : State} {h : HashOp} {b : Batch} (hs : Canon s.mem) : Ensures (fun t => Canon t.mem) (probeStep n i o f s h b) := by
  unfold probeStep
  split
  · dsimp only
    split
    · exact ensures_ok (setHop_canon hs)
    · refine withTag_canon (ensures_then (fun _ => ensures_then (fun _ => ?_)))
      split
      · exact ensures_error
      · exact ensures_ok (setHop_canon hs)
  · exact ensures_ok (canon_ite hs hs)

theorem insStep_canon {n i f : Nat} {s : State} {h : HashOp} {b : Batch} (hs : Canon s.mem) : Ensures (fun t => Canon t.mem) (insStep n i f s h b) := by
  unfold insStep
  split
  · refine ensures_ite ensures_error ?_
    split
    · exact ensures_error
    · split
      · exact ensures_error
      · exact ensures_error
      next hi => exact ensures_ok (setHop_canon (ensures_end hi (withTag_canon (insertEntry_canon hs)) _ rfl))
  · exact ensures_ok (hashFinish_canon hs)

theorem deleteGens_canon {n x row : Nat} {l : List GenView} {found : Bool} {s : State} (h : Canon s.mem) :
    Ensures (fun o => ∀ x, o = some x → Canon x.2.mem) (deleteGens n x row l found s) := by
  induction l generalizing found s with
  | nil => exact ensures_some (P := fun x : Bool × State => Canon x.2.mem) h
  | cons g l ih =>
    unfold deleteGens
    split
    · exact ensures_error
    · exact ensures_none
    next hd => exact ih (ensures_end hd (deleteEntry_canon h) _ rfl : Canon (_ : Bool × State).2.mem)

theorem delStep_canon {n i f : Nat} {s : State} {h : HashOp} {b : Batch} (hs : Canon s.mem) : Ensures (fun t => Canon t.mem) (delStep n i f s h b) := by
  unfold delStep
  split
  · refine ensures_ite ensures_error ?_
    split
    · exact ensures_error
    · exact ensures_error
    next hd =>
      have ht := ensures_end hd (withTag_canon (ensures_then fun _ => deleteGens_canon hs)) _ rfl
      exact ensures_ok (setHop_canon (canon_ite ht (State.countTable_canon ht)))
  · exact ensures_ok (hashFinish_canon hs)

theorem fenceStep_canon {n i o : Nat} {s : State} {b : Batch} (h : Canon s.mem) : Ensures (fun t => Canon t.mem) (fenceStep n i o s b) :=
  ensures_ite ensures_error (ensures_ok h)

theorem rehashTake_canon {n t b : Nat} {h : HashOp} {s : State} (hs : Canon s.mem) : Ensures (fun t => Canon t.mem) (rehashTake n t b h s) := by
  unfold rehashTake
  refine ensures_ite ensures_error ?_
  split
  · exact ensures_error
  · split
    · exact ensures_error
    · exact ensures_ite ensures_error (ensures_ok (setHop_canon (canon_ite hs hs)))

theorem rehashClear_canon {n t b last : Nat} {h : HashOp} {s : State} (hs : Canon s.mem) : Ensures (fun t => Canon t.mem) (rehashClear n t b last h s) := by
  unfold rehashClear
  split
  · exact ensures_error
  · refine ensures_ite ensures_error ?_
    split
    · exact ensures_error
    · refine ensures_ite ensures_error (ensures_ok (setHop_canon (State.modLath_canon (State.setTable_canon (landAll_canon ?_)))))
      split <;> exact hs

theorem rehashStep_canon {n t next last : Nat} {h : HashOp} {s : State} (hs : Canon s.mem) : Ensures (fun t => Canon t.mem) (rehashStep n t next last h s) := by
  unfold rehashStep
  split
  · exact ensures_ite (rehashTake_canon hs) (ensures_ok hs)
  · exact rehashClear_canon hs
  · dsimp only
    split
    · exact ensures_error
    · split
      · exact ensures_error
      · exact ensures_error
      next h1 =>
        exact ensures_ok (setHop_canon (ensures_end h1 (insertEntry_canon hs) _ rfl :))

theorem rehash_canon {n t k : Nat} {s : State} (h : Canon s.mem) : Ensures (fun t => Canon t.mem) (rehash n t k s) := by
  unfold rehash
  dsimp only
  split
  · exact rehashStep_canon h
  · exact ensures_ok (setHop_canon h)
  · exact ensures_then (fun _ => ensures_then (fun _ => ensures_ok h))

end Sys2Proof.Machine
end

section
/-! The canonical form (O5) through what the host reads, the jointers and the sensor links (spec/15_jointers.md). -/

namespace Sys2Proof.Machine

theorem State.hostRead_canon {s : State} {fn off : Nat} (h : Canon s.mem) : Canon (s.hostRead fn off).mem := by
  unfold State.hostRead
  refine canon_ite h ?_
  split <;> exact h

theorem State.modJtr_canon {s : State} {c p : Nat} {f : Jointer → Jointer} (h : Canon s.mem) : Canon (s.modJtr c p f).mem := h

theorem State.lineStatus_canon {s : State} {c : Nat} {l : Line} (h : Canon s.mem) :
    (∀ x, s.lineStatus c l = .ok x → Canon x.2.mem) ∧ ∀ t, s.lineStatus c l = .error t → Canon t.mem := by
  unfold State.lineStatus
  dsimp only
  split
  · refine ⟨fun x hx => ?_, fun t ht => by cases ht⟩
    injection hx with hx
    exact hx ▸ canon_ite (State.decided_canon h) h
  · split
    · refine ⟨fun x hx => ?_, fun t ht => by cases ht⟩
      injection hx with hx
      exact hx ▸ State.logTake_canon h
    · split
      · refine ⟨fun x hx => (by cases hx), fun t ht => ?_⟩
        injection ht with ht
        exact ht ▸ State.logStuck_canon h
      · refine ⟨fun x hx => ?_, fun t ht => by cases ht⟩
        injection hx with hx
        exact hx ▸ h
  · split
    · refine ⟨fun x hx => (by cases hx), fun t ht => ?_⟩
      injection ht with ht
      exact ht ▸ h
    · refine ⟨fun x hx => ?_, fun t ht => by cases ht⟩
      injection hx with hx
      exact hx ▸ h

theorem putHeader_canon {c slot i : Nat} {l : List Byte} {s : State} (h : Canon s.mem) : Ensures (fun t => Canon t.mem) (putHeader c slot i l s) :=
  ensures_then (fun _ => ensures_then (fun _ => ensures_then (fun _ => ensures_ok (State.writeElems_canon h))))

theorem putRow_canon {c slot r : Nat} {out : List Nat} {s : State} (h : Canon s.mem) : Ensures (fun t => Canon t.mem) (putRow c slot r out s) :=
  ensures_then (fun _ => ensures_then (fun _ => ensures_then (fun _ => ensures_ok (State.writeElems_canon h))))

theorem tileTrailer_canon {c slot rows : Nat} {s : State} (h : Canon s.mem) : Ensures (fun t => Canon t.mem) (tileTrailer c slot rows s) :=
  ensures_then (fun _ => ensures_ite (ensures_ok h) (ensures_then (fun _ => ensures_bind (State.readRun_canon h) (fun _ h1 => ensures_bind
      (putHeader_canon h1) (fun _ h2 => ensures_then (fun _ => ensures_ok (State.writeSpans_canon h2)))))))

theorem closeTile_canon {c p : Nat} {s : State} (h : Canon s.mem) : Ensures (fun t => Canon t.mem) (closeTile c p s) :=
  ensures_ite (ensures_ok h) (ensures_bind (putHeader_canon h) (fun _ h1 => ensures_bind (putHeader_canon h1) (fun _ h2 => ensures_bind (putHeader_canon h2)
      (fun _ h3 => ensures_bind (tileTrailer_canon h3) (fun _ h4 => ensures_bind (putHeader_canon h4) (fun _ h5 => ensures_ok (squaresClosed_canon h5)))))))

theorem endOfFrame_canon {c p : Nat} {s : State} (h : Canon s.mem) : Ensures (fun t => Canon t.mem) (endOfFrame c p s) :=
  ensures_ite (ensures_bind (Q := fun t => Canon t.mem) (ensures_ok h) (fun _ h1 => ensures_ok h1)) (ensures_ite (ensures_bind (closeTile_canon h)
      (fun _ h2 => ensures_bind (Q := fun t => Canon t.mem) (ensures_ok (State.setRow_canon h2)) (fun _ h3 => ensures_ok h3))) (ensures_bind (Q :=
          fun t => Canon t.mem) (ensures_ok h) (fun _ h4 => ensures_bind (Q := fun t => Canon t.mem) (ensures_ok (State.setRow_canon h4))
              (fun _ h5 => ensures_ok h5))))

theorem lineBudget_canon {c p : Nat} {s : State} (h : Canon s.mem) : Canon (lineBudget c p s).mem := by
  unfold lineBudget
  dsimp only
  split
  · exact h
  · exact canon_ite h (State.modJtr_canon (canon_ite h (State.fmEvent_canon h)))

theorem takeLine_canon {c p : Nat} {d : BitVec 5} {l : Line} {s : State} (h : Canon s.mem) : Canon (takeLine c p d l s).mem :=
  State.retire_canon (State.writeS_canon h)

theorem takeEnd_canon {c p : Nat} {d : BitVec 5} {l : Line} {s : State} (h : Canon s.mem) : Canon (takeEnd c p d l s).mem :=
  State.retire_canon (State.writeS_canon h)

theorem stopJointer_canon {c p : Nat} {s : State} (h : Canon s.mem) : Ensures (fun t => Canon t.mem) (stopJointer c p s) :=
  ensures_ite (ensures_bind (closeTile_canon h) (fun _ h1 => ensures_ok h1)) (ensures_bind (Q := fun t => Canon t.mem) (ensures_ok h)
      (fun _ h2 => ensures_ok h2))

theorem jwaitCore_canon {c p : Nat} {d : BitVec 5} {s : State} (h : Canon s.mem) : Ensures (fun t => Canon t.mem) (jwaitCore c p d s) := by
  have htake (t : State) (ht : Canon t.mem) : Ensures (fun t => Canon t.mem) (do
      let s := lineBudget c p t
      match (s.jtr c p).ring with
      | [] => return s
      | l :: _ =>
        if l.eof then return takeEnd c p d l s
        else if p ≠ 0 then return takeLine c p d l s
        else match s.lineStatus c l with
          | .ok (l, s) => return takeLine c p d l s
          | .error s => return s) := by
    dsimp only
    split
    · exact ensures_ok (lineBudget_canon ht)
    · refine ensures_ite (ensures_ok (takeEnd_canon (lineBudget_canon ht))) (ensures_ite (ensures_ok (takeLine_canon (lineBudget_canon ht))) ?_)
      split
      next hl => exact ensures_ok (takeLine_canon ((State.lineStatus_canon (lineBudget_canon ht)).1 _ hl))
      next hl => exact ensures_ok ((State.lineStatus_canon (lineBudget_canon ht)).2 _ hl)
  unfold jwaitCore
  exact ensures_ite (stopJointer_canon h) (ensures_ite (ensures_bind (endOfFrame_canon h) htake) (ensures_bind (ensures_ok h) htake))

theorem jlineCore_canon {c p : Nat} {v : BitVec 4} {a : BitVec 5} {im : BitVec 15} {s : State} (h : Canon s.mem) :
    Ensures (fun t => Canon t.mem) (jlineCore c p v a im s) := by
  unfold jlineCore
  refine ensures_then (fun _ => ensures_then (fun _ => ?_))
  split
  · exact ensures_error
  · exact ensures_ok (State.retire_canon (State.writeLanes_canon (canon_ite h h)))

theorem jemitCore_canon {c p : Nat} {v : BitVec 4} {a : BitVec 5} {im : BitVec 15} {s : State} (h : Canon s.mem) :
    Ensures (fun t => Canon t.mem) (jemitCore c p v a im s) :=
  ensures_then (fun _ => ensures_ok (State.retire_canon h))

theorem rowDown_canon {c p : Nat} {out : List Nat} {s : State} (h : Canon s.mem) : Ensures (fun t => Canon t.mem) (rowDown c p out s) :=
  ensures_then (fun _ => ensures_ok h)

theorem rowTile_canon {c p : Nat} {out : List Nat} {s : State} (h : Canon s.mem) : Ensures (fun t => Canon t.mem) (rowTile c p out s) :=
  ensures_then (fun _ => ensures_then (fun _ => ensures_ite (ensures_ok h) (ensures_bind (putRow_canon h) (fun _ h1 => ensures_then (fun _ => ensures_bind
      (putHeader_canon h1) (fun _ h2 => ensures_then (fun _ => ensures_ite (ensures_bind (closeTile_canon h2) (fun _ h3 => ensures_ok
          (State.setRow_canon h3))) (ensures_bind (Q := fun t => Canon t.mem) (ensures_ok h2) (fun _ h4 => ensures_ok (State.setRow_canon h4))))))))))

theorem jrowCore_canon {c p : Nat} {s : State} (h : Canon s.mem) : Ensures (fun t => Canon t.mem) (jrowCore c p s) :=
  ensures_ite (ensures_bind (rowTile_canon h) (fun _ h1 => ensures_ok (State.retire_canon h1))) (ensures_bind (rowDown_canon h) (fun _ h2 => ensures_ok
      (State.retire_canon h2)))

theorem jsubCore_canon {c p : Nat} {r : BitVec 2} {s : State} (h : Canon s.mem) : Canon (jsubCore c p r s).mem := State.retire_canon h

theorem jstatCore_canon {c p : Nat} {d : BitVec 5} {n : BitVec 4} {s : State} (h : Canon s.mem) : Ensures (fun t => Canon t.mem) (jstatCore c p d n s) :=
  ensures_then (fun _ => ensures_ok (State.retire_canon (State.writeS_canon h)))

theorem openTile_canon {c p : Nat} {ref : Option Nat} {given : Word} {s : State} (h : Canon s.mem) :
    Ensures (fun t => Canon t.mem) (openTile c p ref given s) := by
  unfold openTile
  dsimp only
  split
  · exact ensures_ok h
  · exact ensures_bind (putHeader_canon h) (fun _ h1 => ensures_bind (putHeader_canon h1) (fun _ h2 => putHeader_canon h2))

theorem jtileCore_canon {c p : Nat} {a : BitVec 5} {s : State} (h : Canon s.mem) : Ensures (fun t => Canon t.mem) (jtileCore c p a s) :=
  ensures_then (fun _ => ensures_then (fun _ => ensures_ite (ensures_bind (closeTile_canon h) (fun _ h1 => ensures_ite (ensures_bind (openTile_canon h1)
      (fun _ h2 => ensures_ok (State.retire_canon h2))) (ensures_bind (openTile_canon h1) (fun _ h3 => ensures_ok (State.retire_canon h3))))) (ensures_bind
          (Q := fun t => Canon t.mem) (ensures_ok h) (fun _ h4 => ensures_ite (ensures_bind (openTile_canon h4) (fun _ h5 => ensures_ok
              (State.retire_canon h5))) (ensures_bind (openTile_canon h4) (fun _ h6 => ensures_ok (State.retire_canon h6)))))))

theorem State.modChain_canon {s : State} {c : Nat} {f : Chain → Chain} (h : Canon s.mem) : Canon (s.modChain c f).mem := h

theorem pushLine_canon {c : Nat} {l : Line} {ended : Word} {s : State} (h : Canon s.mem) : Canon (pushLine c l ended s).mem := h

theorem dropAt_canon {c : Nat} {t : Word} {s : State} (h : Canon s.mem) : Canon (dropAt c t s).mem := h

theorem lineTimeouts_canon {c n : Nat} {s : State} (h : Canon s.mem) : Canon (lineTimeouts c n s).mem := by
  induction n generalizing s with
  | zero => exact h
  | succ n ih =>
    unfold lineTimeouts
    exact canon_ite (ih (dropAt_canon h)) h

theorem dropUntil_canon {c n : Nat} {t : Word} {k : Nat} {s : State} (h : Canon s.mem) : Canon (dropUntil c n t k s).mem := by
  induction k generalizing s with
  | zero => exact h
  | succ k ih =>
    unfold dropUntil
    exact canon_ite (ih (dropAt_canon h)) h

theorem settleLines_canon {c : Nat} {s : State} (h : Canon s.mem) : Canon (settleLines c s).mem := lineTimeouts_canon h

theorem dropTo_canon {c n : Nat} {t : Word} {s : State} (h : Canon s.mem) : Canon (dropTo c n t s).mem := dropUntil_canon h

theorem frameEnd_canon {c : Nat} {t : Word} {s : State} (h : Canon s.mem) : Canon (frameEnd c t s).mem :=
  canon_ite h (State.modChain_canon (State.modJtr_canon (dropTo_canon (settleLines_canon h))))

theorem frameStart_canon {c : Nat} {t : Word} {s : State} (h : Canon s.mem) : Canon (frameStart c t s).mem :=
  State.modJtr_canon (State.modChain_canon (frameEnd_canon h))

theorem lateLine_canon {c : Nat} {s : State} (h : Canon s.mem) : Canon (lateLine c s).mem := h

theorem takePayload_canon {c : Nat} {elems : List Nat} {bad lost : Bool} {s : State} (h : Canon s.mem) : Canon (takePayload c elems bad lost s).mem :=
  canon_ite (lateLine_canon (settleLines_canon h)) (canon_ite (lateLine_canon (dropTo_canon (settleLines_canon h))) (canon_ite (pushLine_canon (dropTo_canon
      (settleLines_canon h))) (pushLine_canon (dropTo_canon (settleLines_canon h)))))

theorem payload_canon {c : Nat} {elems : List Nat} {bad lost : Bool} {s : State} (h : Canon s.mem) : Canon (payload c elems bad lost s).mem :=
  State.modChain_canon (takePayload_canon h)

theorem forChains_canon {l : List Nat} {f : Nat → State → State} {s : State} (h : Canon s.mem) (hf : ∀ c t, Canon t.mem → Canon (f c t).mem) :
    Canon (forChains l f s).mem :=
  canon_foldl h fun _ _ ht => hf _ _ ht

theorem lineStart_canon {num c : Nat} {s : State} (h : Canon s.mem) : Canon (lineStart num c s).mem :=
  canon_ite h (State.modChain_canon (canon_ite (dropTo_canon h) h))

theorem longPacket_canon {port vc dt : Nat} {bytes : List Byte} {crcOk hdrOk : Bool} {s : State} (h : Canon s.mem) :
    Canon (longPacket port vc dt bytes crcOk hdrOk s).mem :=
  canon_ite (forChains_canon h (fun _ _ h1 => payload_canon h1)) (canon_ite h (forChains_canon (canon_ite h h) (fun _ _ h2 => payload_canon h2)))

theorem lineTimeout_canon {c : Nat} {s : State} (h : Canon s.mem) : Canon (lineTimeout c s).mem := lineTimeouts_canon h

theorem lidarFrame_canon {port : Nat} {l : List Byte} {fcsOk : Bool} {s : State} (h : Canon s.mem) : Canon (lidarFrame port l fcsOk s).mem := by
  unfold lidarFrame
  refine canon_ite h (canon_ite h (canon_ite h ?_))
  split
  · exact h
  · split
    · exact h
    · exact canon_ite h (forChains_canon h (fun _ _ h1 => payload_canon h1))

theorem lidarPeriod_canon {c : Nat} {s : State} (h : Canon s.mem) : Canon (lidarPeriod c s).mem := canon_ite (State.modChain_canon (frameStart_canon h)) h

theorem gptpSync_canon {port : Nat} {twoStep : Bool} {stamp : Int} {s : State} (h : Canon s.mem) : Canon (gptpSync port twoStep stamp s).mem :=
  canon_ite h (canon_ite h h)

theorem gptpFollowUp_canon {port : Nat} {stamp : Int} {s : State} (h : Canon s.mem) : Canon (gptpFollowUp port stamp s).mem := by
  unfold gptpFollowUp
  refine canon_ite h ?_
  split <;> exact h

end Sys2Proof.Machine
end

section
/-! The canonical form (O5) through the host port, paging, safety and the Foreman (spec/24_host_boot.md to spec/26_foreman.md). -/

namespace Sys2Proof.Machine

theorem powerOn_canon {s : State} (h : Canon s.mem) : Canon (powerOn s).mem := Memory.wf_filter h _

theorem bootFails_canon {stage err : Nat} {s : State} (h : Canon s.mem) : Canon (bootFails stage err s).mem := h

theorem bootOn_canon {err : Option Nat} {s : State} (h : Canon s.mem) : Canon (bootOn err s).mem := by
  unfold bootOn
  refine canon_ite h (canon_ite h ?_)
  split <;> exact h

theorem boot_canon {ok : Bool} {s : State} (h : Canon s.mem) : Canon (boot ok s).mem := by
  have hp := powerOn_canon h
  unfold boot
  generalize powerOn s = u at hp
  refine canon_ite (bootFails_canon hp) (canon_ite (bootOn_canon hp) ?_)
  dsimp only [State.fresh]
  split
  · exact bootFails_canon hp
  · exact bootOn_canon hp
  · exact bootOn_canon hp

theorem flrDone_canon {p : Nat} {s : State} (h : Canon s.mem) : Canon (flrDone p s).mem := State.modPart_canon (canon_foldl h (fun _ _ h1 => killJob_canon h1))

theorem flr_canon {p : Nat} {s : State} (h : Canon s.mem) : Canon (flr p s).mem := canon_ite h (canon_ite (flrDone_canon h) h)

theorem partitionSetup_canon {p : Nat} {s : State} (h : Canon s.mem) : Canon (partitionSetup p s).mem := by
  unfold partitionSetup
  exact canon_ite h (canon_ite h (Memory.wf_filter h _))

theorem partitionTeardown_canon {p : Nat} {s : State} (h : Canon s.mem) : Canon (partitionTeardown p s).mem := canon_ite h (canon_ite h (canon_ite h h))

theorem queueRegistration_canon {p q : Nat} {lo hi : Word} {s : State} (h : Canon s.mem) : Canon (queueRegistration p q lo hi s).mem :=
  canon_ite h (canon_ite (queueIdle_canon h) h)

theorem doorbell_canon {p q : Nat} {v : Word} {s : State} (h : Canon s.mem) : Canon (doorbell p q v s).mem := canon_ite h h

theorem Chain.idleUnits_canon {x : Chain} {s : State} (h : Canon s.mem) : Canon (x.idleUnits s).mem := canon_foldl h (fun _ _ h1 => h1)

theorem State.startChain_canon {s : State} {c : Nat} (h : Canon s.mem) : Canon (s.startChain c).mem := by
  unfold State.startChain
  refine State.setRow_canon (State.setChain_canon (canon_foldl (Chain.idleUnits_canon h) (fun _ _ h1 => ?_)))
  split <;> exact h1

theorem chainEnable_canon {p c : Nat} {s : State} (h : Canon s.mem) : Canon (chainEnable p c s).mem :=
  canon_ite h (canon_ite h (canon_ite (State.startChain_canon h) h))

theorem chainDisable_canon {p c : Nat} {s : State} (h : Canon s.mem) : Canon (chainDisable p c s).mem := canon_ite h h

theorem writeDescriptor_canon {p i : Nat} {v : Word} {s : State} (h : Canon s.mem) : Canon (writeDescriptor p i v s).mem := canon_ite h h

theorem writeFcmd_canon {v : Word} {s : State} (h : Canon s.mem) : Canon (writeFcmd v s).mem := canon_ite h (canon_ite h h)

theorem writePf_canon {off : Nat} {v : Word} {s : State} (h : Canon s.mem) : Canon (writePf off v s).mem :=
  canon_ite (writeDescriptor_canon h) (canon_ite (canon_ite (partitionSetup_canon h) (canon_ite (partitionTeardown_canon h) h)) (canon_ite (writeFcmd_canon h)
      (canon_ite h (canon_ite h h))))

theorem writeCmd_canon {p : Nat} {v : Word} {s : State} (h : Canon s.mem) : Canon (writeCmd p v s).mem := canon_ite h (canon_ite h h)

theorem writeChain_canon {p c i : Nat} {v : Word} {s : State} (h : Canon s.mem) : Canon (writeChain p c i v s).mem :=
  canon_ite (canon_ite h h) (canon_ite h (canon_ite (chainEnable_canon h) h))

theorem writeGroup_canon {p g i : Nat} {v : Word} {s : State} (h : Canon s.mem) : Canon (writeGroup p g i v s).mem := canon_ite h h

theorem writeFamily_canon {p f i : Nat} {v : Word} {s : State} (h : Canon s.mem) : Canon (writeFamily p f i v s).mem := canon_ite h h

theorem writeTable_canon {p t i : Nat} {v : Word} {s : State} (h : Canon s.mem) : Canon (writeTable p t i v s).mem := canon_ite (canon_ite h h) (canon_ite h h)

theorem writeQueue_canon {p q i : Nat} {v : Word} {s : State} (h : Canon s.mem) : Canon (writeQueue p q i v s).mem :=
  canon_ite (queueRegistration_canon h) (queueRegistration_canon h)

theorem writeVf_canon {p off : Nat} {v : Word} {s : State} (h : Canon s.mem) : Canon (writeVf p off v s).mem :=
  canon_ite h (canon_ite (writeQueue_canon h) (canon_ite (doorbell_canon h) (canon_ite (writeCmd_canon h) (canon_ite h (canon_ite h (canon_ite
      (writeChain_canon h) (canon_ite (writeGroup_canon h) (canon_ite (writeFamily_canon h) (canon_ite (writeTable_canon h) h)))))))))

theorem writeCounter_canon {p n : Nat} {v : Word} {s : State} (h : Canon s.mem) : Canon (writeCounter p n v s).mem := canon_ite h (State.setRow_canon h)

theorem hostWrite_canon {fn off : Nat} {v : Word} {s : State} (h : Canon s.mem) : Canon (hostWrite fn off v s).mem :=
  canon_ite h (canon_ite (writeVf_canon h) (canon_ite (writePf_canon h) (canon_ite (writeCounter_canon h) h)))

theorem preemptCmd_canon {p : Nat} {s : State} (h : Canon s.mem) : Canon (preemptCmd p s).mem := by
  unfold preemptCmd
  refine canon_ite h ?_
  split
  · exact h
  · exact canon_ite h (canon_ite (preemptJob_canon h) h)

theorem killCmd_canon {p : Nat} {s : State} (h : Canon s.mem) : Canon (killCmd p s).mem := by
  unfold killCmd
  refine canon_ite h ?_
  split
  · exact h
  · exact endCommand_canon (killJob_canon h)

theorem pageResp_canon {p : Nat} {s : State} (h : Canon s.mem) : Canon (pageResp p s).mem := canon_ite h (endCommand_canon (resumeServed_canon h))

theorem invalCmd_canon {p : Nat} {s : State} (h : Canon s.mem) : Canon (invalCmd p s).mem := canon_ite h h

theorem sensorCmd_canon {p : Nat} {s : State} (h : Canon s.mem) : Canon (sensorCmd p s).mem := canon_ite h (canon_ite h (canon_ite h (canon_ite h h)))

theorem uplinkReply_canon {port : Nat} {reply : List Byte} {s : State} (h : Canon s.mem) : Canon (uplinkReply port reply s).mem := by
  unfold uplinkReply
  dsimp only
  split
  · exact h
  · exact canon_ite h (canon_ite (endCommand_canon (State.write_canon h)) (State.write_canon h))

theorem chainCode_canon {p : Nat} {s : State} (h : Canon s.mem) : Canon (chainCode p s).mem := canon_ite h (canon_ite h (canon_ite h h))

theorem State.copyRange_canon {s : State} {src dst n : Nat} (h : Canon s.mem) : Canon (s.copyRange src dst n).mem :=
  Memory.wf_writeCells _ _ (Memory.wf_filter h _)

theorem State.retag_canon {s : State} {p n tid w0 : Nat} (h : Canon s.mem) : Canon (s.retag p n tid w0).mem := canon_ite h h

theorem markServed_canon {p : Nat} {f : PageFault} {s : State} (h : Canon s.mem) : Canon (markServed p f s).mem := h

theorem askHost_canon {p n : Nat} {f : PageFault} {s : State} (h : Canon s.mem) : Canon (askHost p n f s).mem := by
  unfold askHost
  split <;> exact State.frEvent_canon h

theorem pageFaultService_canon {p n : Nat} {s : State} (h : Canon s.mem) : Canon (pageFaultService p n s).mem := by
  unfold pageFaultService
  split
  · exact h
  · exact canon_ite h (canon_ite (resumeServed_canon h) (canon_ite (resumeServed_canon (State.latchTiles_canon (markServed_canon (State.setLeaf_canon
        (State.retag_canon (State.copyRange_canon h)))))) (canon_ite h (askHost_canon h))))

theorem failAccess_canon {f : PageFault} {s : State} (h : Canon s.mem) : Canon (failAccess f s).mem := by
  unfold failAccess
  split
  · exact State.trapEntry_canon h
  · exact h
  · dsimp only
    split
    · exact State.copyFault_canon h
    · exact h
  · exact State.haltLath_canon h
  · exact h
  · exact h

theorem faultTimeout_canon {p n : Nat} {s : State} (h : Canon s.mem) : Canon (faultTimeout p n s).mem := by
  unfold faultTimeout
  split
  · exact h
  · exact canon_ite h (failAccess_canon h)

theorem migrationRecheck_canon {p n : Nat} {s : State} (h : Canon s.mem) : Canon (migrationRecheck p n s).mem := by
  unfold migrationRecheck
  split
  · exact h
  · refine canon_ite h ?_
    split
    · exact h
    · exact resumeAgent_canon h

theorem migrationTimeout_canon {p n : Nat} {s : State} (h : Canon s.mem) : Canon (migrationTimeout p n s).mem := by
  unfold migrationTimeout
  split
  · exact h
  · exact canon_ite h (failAccess_canon h)

theorem beginMove_canon {p k tid tile w0 w1 e : Nat} {s : State} (h : Canon s.mem) : Canon (beginMove p k tid tile w0 w1 e s).mem :=
  State.modPart_canon (State.setEntry_canon h)

theorem endMove_canon {p k tid e w0 w1 : Nat} {s : State} (h : Canon s.mem) : Canon (endMove p k tid e w0 w1 s).mem :=
  State.modPart_canon (State.setEntry_canon h)

theorem pageEviction_canon {p tid tile back : Nat} {s : State} (h : Canon s.mem) : Canon (pageEviction p tid tile back s).mem := by
  unfold pageEviction
  refine canon_ite h ?_
  split
  · exact h
  · exact canon_ite (beginMove_canon h) (canon_ite h (endMove_canon (State.copyRange_canon h)))

theorem pageMigration_canon {p tid tile frame : Nat} {s : State} (h : Canon s.mem) : Canon (pageMigration p tid tile frame s).mem := by
  unfold pageMigration
  refine canon_ite h ?_
  split
  · exact h
  · exact canon_ite (canon_ite h (beginMove_canon h)) (canon_ite h (canon_ite (endMove_canon h) (canon_ite (endMove_canon (State.retag_canon
        (State.copyRange_canon h))) (endMove_canon (State.copyRange_canon h)))))

theorem invalidationComplete_canon {p : Nat} {s : State} (h : Canon s.mem) : Canon (invalidationComplete p s).mem := canon_ite h (canon_ite h h)

theorem mergePair_canon {n : Nat} {x : Nat × Nat} {s : State} (h : Canon s.mem) : Canon (mergePair n x s).mem :=
  canon_ite h (canon_ite h (State.discard_canon h))

theorem pairMerge_canon {n : Nat} {s : State} (h : Canon s.mem) : Canon (pairMerge n s).mem := canon_ite h (canon_foldl h (fun _ _ h1 => mergePair_canon h1))

theorem pairTimeout_canon {n : Nat} {s : State} (h : Canon s.mem) : Canon (pairTimeout n s).mem := canon_ite h (State.discard_canon h)

theorem State.discardEach_canon {s : State} {ps : List Nat} {cause : Nat} (h : Canon s.mem) : Canon (s.discardEach ps cause).mem :=
  canon_foldl h (fun _ _ h1 => State.discard_canon h1)

theorem State.spareDone_canon {s : State} {n : Nat} (h : Canon s.mem) : Canon (s.spareDone n).mem := State.fmEvent_canon h

theorem State.exhausted_canon {s : State} {ps : List Nat} {bent : Option Nat} (h : Canon s.mem) : Canon (s.exhausted ps bent).mem := State.discardEach_canon h

theorem State.skipUnit_canon {s : State} {bent n : Nat} {l : List (BitVec 11)} {put : List (BitVec 11) → Remap → Remap} (h : Canon s.mem) :
    Canon (s.skipUnit bent n l put).mem :=
  canon_ite h (canon_ite (State.exhausted_canon h) (canon_ite h (State.spareDone_canon h)))

theorem State.spareForSlice_canon {s : State} {n : Nat} (h : Canon s.mem) : Canon (s.spareForSlice n).mem := canon_ite h (canon_ite (State.exhausted_canon h) h)

theorem State.spareForJointer_canon {s : State} {n : Nat} (h : Canon s.mem) : Canon (s.spareForJointer n).mem := by
  unfold State.spareForJointer
  split
  · dsimp only
    split
    · exact State.exhausted_canon h
    · exact h
  · dsimp only
    split
    · exact State.exhausted_canon h
    · exact State.spareDone_canon h

theorem State.spareForLath_canon {s : State} {n : Nat} (h : Canon s.mem) : Canon (s.spareForLath n).mem :=
  canon_ite h (canon_ite (State.exhausted_canon h) (canon_ite h (State.retireLath_canon h)))

theorem State.spareForRow_canon {s : State} {frame : Nat} (h : Canon s.mem) : Canon (s.spareForRow frame).mem := canon_ite h (State.spareDone_canon h)

theorem spareInsertion_canon {u : SpareUnit} {owner n : Nat} {s : State} (h : Canon s.mem) : Canon (spareInsertion u owner n s).mem := by
  unfold spareInsertion
  refine canon_ite h ?_
  split
  · exact canon_ite h (State.skipUnit_canon h)
  · exact canon_ite h (State.skipUnit_canon h)
  · exact canon_ite h (State.skipUnit_canon h)
  · exact canon_ite h (State.skipUnit_canon h)
  · exact canon_ite h (State.spareForSlice_canon h)
  · exact canon_ite h (State.spareForJointer_canon h)
  · exact canon_ite h (State.spareForLath_canon h)
  · exact State.spareForRow_canon h

theorem sliceCopyComplete_canon {n : Nat} {s : State} (h : Canon s.mem) : Canon (sliceCopyComplete n s).mem := by
  unfold sliceCopyComplete
  split
  · exact State.spareDone_canon h
  · exact h

theorem State.testFailed_canon {s : State} {t : SelfTest} {u : Nat} (h : Canon s.mem) : Canon (s.testFailed t u).mem := by
  unfold State.testFailed
  refine canon_ite (bootFails_canon (State.fmEvent_canon h)) ?_
  split
  · exact spareInsertion_canon (State.fmEvent_canon h)
  · exact spareInsertion_canon (State.fmEvent_canon h)
  · exact spareInsertion_canon (State.fmEvent_canon h)
  · exact canon_ite (spareInsertion_canon (State.fmEvent_canon h)) (spareInsertion_canon (State.fmEvent_canon h))
  · exact canon_ite (spareInsertion_canon (State.fmEvent_canon h)) (spareInsertion_canon (State.fmEvent_canon h))
  · exact State.spareForSlice_canon (State.fmEvent_canon h)
  · exact State.spareForJointer_canon (State.fmEvent_canon h)
  · exact State.spareForJointer_canon (State.fmEvent_canon h)
  · exact canon_ite (State.spareForLath_canon (State.fmEvent_canon h)) (State.spareForLath_canon (State.fmEvent_canon h))
  · exact State.discardAll_canon (State.fmEvent_canon h)
  · exact State.discardAll_canon (State.fmEvent_canon h)
  · exact State.discardAll_canon (State.fmEvent_canon h)
  · exact State.discardEach_canon (State.fmEvent_canon h)
  · exact State.discardEach_canon (State.fmEvent_canon h)
  · exact State.exhausted_canon (State.fmEvent_canon h)
  · exact State.exhausted_canon (State.fmEvent_canon h)
  · exact State.exhausted_canon (State.fmEvent_canon h)
  · exact State.exhausted_canon (State.fmEvent_canon h)

theorem selfTest_canon {t : SelfTest} {u : Nat} {pass : Bool} {s : State} (h : Canon s.mem) : Canon (selfTest t u pass s).mem :=
  canon_ite h (canon_ite h (State.testFailed_canon h))

theorem unitNotTested_canon {t : SelfTest} {u : Nat} {s : State} (h : Canon s.mem) : Canon (unitNotTested t u s).mem := canon_ite (State.fmEvent_canon h) h

theorem endFcmd_canon {res : Nat} {s : State} (h : Canon s.mem) : Canon (endFcmd res s).mem := h

theorem stage_canon {s : State} (h : Canon s.mem) : Canon (stage s).mem := canon_ite h (canon_ite h h)

theorem activate_canon {s : State} (h : Canon s.mem) : Canon (activate s).mem := canon_ite h (canon_ite h h)

theorem activateLive_canon {s : State} (h : Canon s.mem) : Canon (activateLive s).mem :=
  canon_ite h (canon_ite (canon_ite h h) (canon_ite h (canon_ite h (canon_ite h h))))

theorem endWindow_canon {s : State} (h : Canon s.mem) : Canon (endWindow s).mem := by
  unfold endWindow
  split
  · exact h
  · refine canon_foldl (canon_foldl (canon_foldl h (fun _ _ h1 => flrDone_canon h1)) (fun _ _ h2 => queueIdle_canon h2)) (fun _ _ h3 => ?_)
    split
    · split
      · exact chainEnable_canon h3
      · exact h3

theorem rollBack_canon {s : State} (h : Canon s.mem) : Canon (rollBack s).mem := endFcmd_canon (State.fmEvent_canon (endWindow_canon h))

theorem heartbeat_canon {s : State} (h : Canon s.mem) : Canon (heartbeat s).mem :=
  canon_ite h (canon_ite h (canon_ite (rollBack_canon h) (endFcmd_canon (State.fmEvent_canon (endWindow_canon h)))))

theorem updateRollback_canon {s : State} (h : Canon s.mem) : Canon (updateRollback s).mem := canon_ite (rollBack_canon h) h

theorem framerSilent_canon {s : State} (h : Canon s.mem) : Canon (framerSilent s).mem := canon_ite h (State.fmEvent_canon h)

theorem logdesc_canon {s : State} (h : Canon s.mem) : Canon (logdesc s).mem := canon_ite h (canon_ite h h)

theorem logrel_canon {s : State} (h : Canon s.mem) : Canon (logrel s).mem := by
  unfold logrel
  refine canon_ite h (canon_ite h ?_)
  split
  · exact h
  · refine endFcmd_canon ?_
    split
    · exact canon_ite h h
    · exact h

theorem testintCmd_canon {s : State} (h : Canon s.mem) : Canon (testintCmd s).mem := canon_ite h (canon_ite h h)

theorem evring_canon {s : State} (h : Canon s.mem) : Canon (evring s).mem := canon_ite h (canon_ite h h)

theorem sampleOne_canon {i : Nat} {s : State} (h : Canon s.mem) : Canon (sampleOne i s).mem := canon_ite (State.fmEvent_canon h) h

theorem sensorSample_canon {s : State} (h : Canon s.mem) : Canon (sensorSample s).mem := canon_ite h (canon_foldl h (fun _ _ h1 => sampleOne_canon h1))

theorem State.trip_canon {s : State} {i cause : Nat} (h : Canon s.mem) : Canon (s.trip i cause).mem := State.discardEach_canon (State.fmEvent_canon h)

theorem State.answer_canon {s : State} {n : Nat} {ops : List Nat} {body : List Byte} (h : Canon s.mem) : Canon (s.answer n ops body).mem := canon_ite h h

end Sys2Proof.Machine
end

section
/-! The canonical form (O5) through the truss and the vector accesses (spec/10_truss.md, spec/11_signature.md). -/

namespace Sys2Proof.Machine

theorem State.setOpen_canon {s : State} {b z : Nat} {v : Bool} (h : Canon s.mem) : Canon (s.setOpen b z v).mem := h

theorem State.poke_canon {s : State} {b : Nat} {v : View} {slot : Nat} {x : List Nat} {val : Nat} (h : Canon s.mem) : Canon (s.poke b v slot x val).mem := by
  unfold State.poke
  split
  · exact State.writeElem_canon h
  · exact h

theorem State.pokeIndex_canon {s : State} {b : Nat} {v : View} {slot i val : Nat} (h : Canon s.mem) : Canon (s.pokeIndex b v slot i val).mem :=
  State.poke_canon h

theorem State.modTruss_canon {s : State} {b : Nat} {f : TrussBay → TrussBay} (h : Canon s.mem) : Canon (s.modTruss b f).mem := h

theorem promoteRow_canon {b m : Nat} {s : State} (h : Canon s.mem) : Canon (promoteRow b m s).mem := by
  unfold promoteRow
  dsimp only
  split <;> exact h

theorem promoteAll_canon {b : Nat} {s : State} (h : Canon s.mem) : Canon (promoteAll b s).mem :=
  canon_ite h (State.modTruss_canon (canon_foldl h (fun _ _ h1 => promoteRow_canon h1)))

theorem leaseEnd_canon {b : Nat} {s : State} (h : Canon s.mem) : Canon (leaseEnd b s).mem := State.modTruss_canon (promoteAll_canon h)

theorem runSign_canon {b : Nat} {c : TrussCmd} {s : State} (h : Canon s.mem) : Ensures (fun t => Canon t.mem) (runSign b c s) :=
  ensures_then (fun _ => ensures_then (fun _ => ensures_ite (ensures_then (fun _ => ensures_ok (canon_foldl h (fun _ _ h1 => State.poke_canon h1))))
      (ensures_then (fun _ => ensures_ok (canon_foldl h (fun _ _ h2 => State.poke_canon h2))))))

theorem pokeFrom_canon {b : Nat} {v : View} {slot i : Nat} {l : List Nat} {s : State} (h : Canon s.mem) : Canon (pokeFrom b v slot i l s).mem := by
  induction l generalizing i s with
  | nil => exact h
  | cons x l ih => exact ih (State.pokeIndex_canon h)

theorem runBucket_canon {b : Nat} {c : TrussCmd} {s : State} (h : Canon s.mem) : Ensures (fun t => Canon t.mem) (runBucket b c s) :=
  ensures_then (fun _ => ensures_then (fun _ => ensures_ok (pokeFrom_canon h)))

theorem runReps_canon {rule b : Nat} {c : TrussCmd} {s : State} (h : Canon s.mem) : Ensures (fun t => Canon t.mem) (runReps rule b c s) :=
  ensures_then (fun _ => ensures_then (fun _ => ensures_ite (ensures_ok (State.pokeIndex_canon (pokeFrom_canon h))) (ensures_then (fun _ => ensures_ite
      (ensures_ok (State.pokeIndex_canon (pokeFrom_canon (pokeFrom_canon h)))) (ensures_then (fun _ => ensures_ok (State.orStreamFlags_canon
          (State.pokeIndex_canon (pokeFrom_canon (canon_foldl h (fun _ _ h1 => State.poke_canon h1)))))))))))

theorem runScat_canon {b : Nat} {c : TrussCmd} {s : State} (h : Canon s.mem) : Ensures (fun t => Canon t.mem) (runScat b c s) :=
  ensures_then (fun _ => ensures_then (fun _ => ensures_then (fun _ => ensures_ite (ensures_then (fun _ => ensures_ok (canon_foldl h
      (fun _ _ h1 => canon_ite h1 h1)))) (ensures_then (fun _ => ensures_ok (canon_foldl h (fun _ _ h2 => canon_ite h2 h2)))))))

theorem runMgrad_canon {b : Nat} {c : TrussCmd} {s : State} (h : Canon s.mem) : Ensures (fun t => Canon t.mem) (runMgrad b c s) :=
  ensures_then (fun _ => ensures_then (fun _ => ensures_then (fun _ => ensures_ok (canon_foldl h (fun _ _ h1 => h1)))))

theorem trussBody_canon {b : Nat} {op : TrussOp} {m : Nat} {f : BitVec 5} {t : Nat} {ps : List Nat} {s : State} (h : Canon s.mem) :
    Ensures (fun t => Canon t.mem) (trussBody b op m f t ps s) :=
  ensures_then (fun _ => ensures_then (fun _ => ensures_ok (State.retire_canon h)))

theorem trussWord_canon {op : TrussOp} {w p : BitVec 3} {m : BitVec 4} {f : BitVec 5} {t : BitVec 12} {s : State} (h : Canon s.mem) :
    NextCanon (trussWord op w p m f t s) :=
  State.onMtx_canon h (fun _ => issue_canon h (fun _ _ h1 => trussBody_canon h1))

theorem laterPush_canon {b : Nat} {ps : List Nat} {s : State} (h : Canon s.mem) : Canon (laterPush b ps s).mem := canon_ite h h

theorem leaseBody_canon {b : Nat} {ps : List Nat} {s : State} (h : Canon s.mem) : Canon (leaseBody b ps s).mem :=
  canon_ite (State.retire_canon (laterPush_canon h)) h

theorem freeBody_canon {b t : Nat} {ps : List Nat} {s : State} (h : Canon s.mem) : Ensures (fun t => Canon t.mem) (freeBody b t ps s) :=
  ensures_then (fun _ => ensures_ite (ensures_ok (State.retire_canon (laterPush_canon h))) (ensures_ok (State.retire_canon h)))

theorem grant_canon {b : Nat} {s : State} (h : Canon s.mem) : Canon (grant b s).mem := by
  unfold grant
  dsimp only
  split
  · exact canon_ite (State.retire_canon (laterPush_canon h)) h
  · exact h

theorem passRow_canon {b : Nat} {bound : Int} {last : Bool} {m : Nat} {sums : List Int} {s : State} (h : Canon s.mem) :
    Canon (passRow b bound last m sums s).mem :=
  canon_ite (promoteRow_canon (State.modTruss_canon (canon_ite (State.orStreamFlags_canon (promoteRow_canon h)) h))) (State.modTruss_canon (canon_ite
      (State.orStreamFlags_canon (promoteRow_canon h)) h))

theorem passRows_canon {b : Nat} {bound : Int} {last : Bool} {m : Nat} {l : List (List Int)} {s : State} (h : Canon s.mem) :
    Canon (passRows b bound last m l s).mem := by
  induction l generalizing m s with
  | nil => exact h
  | cons x l ih => exact ih (passRow_canon h)

theorem blockRow_canon {b : Nat} {c : TrussCmd} {m : Nat} {vals : List Nat} {s : State} (h : Canon s.mem) : Canon (blockRow b c m vals s).mem := h

theorem blockRows_canon {b : Nat} {c : TrussCmd} {m : Nat} {l : List (List Nat)} {s : State} (h : Canon s.mem) : Canon (blockRows b c m l s).mem := by
  induction l generalizing m s with
  | nil => exact h
  | cons x l ih => exact ih (blockRow_canon h)

theorem regionRows_canon {b : Nat} {c : TrussCmd} {r : Region} {base : Nat} {op : Nat → RowOp} {s : State} (h : Canon s.mem) :
    Canon (regionRows b c r base op s).mem :=
  canon_foldl h (fun _ _ h1 => h1)

theorem bindCmd_canon {b : Nat} {c : TrussCmd} {r p : Region} {s : State} (h : Canon s.mem) : Canon (bindCmd b c r p s).mem :=
  State.modTruss_canon (canon_ite (canon_ite (regionRows_canon (State.setOpen_canon (canon_ite (promoteAll_canon h) h))) (canon_ite (promoteAll_canon h) h))
      (State.modTruss_canon (canon_ite (regionRows_canon (State.setOpen_canon (canon_ite (promoteAll_canon h) h))) (canon_ite (promoteAll_canon h) h))))

theorem runMma_canon {neg : Bool} {b : Nat} {c : TrussCmd} {s : State} (h : Canon s.mem) : Ensures (fun t => Canon t.mem) (runMma neg b c s) := by
  unfold runMma
  refine ensures_then (fun _ => ?_)
  dsimp only
  split
  · exact ensures_ite (ensures_then (fun _ => ensures_ite (ensures_then (fun _ => ensures_then (fun _ => ensures_then (fun _ => ensures_ok
        (State.modTruss_canon (canon_ite (State.orStreamFlags_canon (blockRows_canon (bindCmd_canon h))) (State.orStreamFlags_canon (passRows_canon
            (bindCmd_canon h))))))))) (ensures_then (fun _ => ensures_then (fun _ => ensures_then (fun _ => ensures_ok (State.modTruss_canon (canon_ite
                (State.orStreamFlags_canon (blockRows_canon (bindCmd_canon h))) (State.orStreamFlags_canon (passRows_canon (bindCmd_canon h)))))))))))
                    (ensures_then (fun _ => ensures_ite (ensures_then (fun _ => ensures_then (fun _ => ensures_then (fun _ => ensures_ok (State.modTruss_canon
                        (canon_ite (State.orStreamFlags_canon (blockRows_canon (bindCmd_canon h))) (State.orStreamFlags_canon (passRows_canon
                            (bindCmd_canon h))))))))) (ensures_then (fun _ => ensures_then (fun _ => ensures_then (fun _ => ensures_ok (State.modTruss_canon
                                (canon_ite (State.orStreamFlags_canon (blockRows_canon (bindCmd_canon h))) (State.orStreamFlags_canon (passRows_canon
                                    (bindCmd_canon h)))))))))))
  · exact ensures_then (fun _ => ensures_ite (ensures_then (fun _ => ensures_then (fun _ => ensures_then (fun _ => ensures_ok (State.modTruss_canon (canon_ite
        (State.orStreamFlags_canon (blockRows_canon (bindCmd_canon h))) (State.orStreamFlags_canon (passRows_canon (bindCmd_canon h))))))))) (ensures_then
            (fun _ => ensures_then (fun _ => ensures_then (fun _ => ensures_ok (State.modTruss_canon (canon_ite (State.orStreamFlags_canon (blockRows_canon
                (bindCmd_canon h))) (State.orStreamFlags_canon (passRows_canon (bindCmd_canon h))))))))))

theorem runZero_canon {b : Nat} {c : TrussCmd} {s : State} (h : Canon s.mem) : Ensures (fun t => Canon t.mem) (runZero b c s) :=
  ensures_then (fun _ => ensures_ok (regionRows_canon (State.modTruss_canon (canon_ite h h))))

theorem runCommit_canon {b : Nat} {c : TrussCmd} {s : State} (h : Canon s.mem) : Ensures (fun t => Canon t.mem) (runCommit b c s) :=
  ensures_then (fun _ => ensures_ite (ensures_ok h) (ensures_ok (State.setOpen_canon (regionRows_canon (canon_ite (promoteAll_canon h) h)))))

theorem runDrain_canon {b : Nat} {s : State} (h : Canon s.mem) : Canon (runDrain b s).mem := State.modTruss_canon (promoteAll_canon h)

theorem runCmd_canon {b : Nat} {c : TrussCmd} {s : State} (h : Canon s.mem) : Ensures (fun t => Canon t.mem) (runCmd b c s) := by
  unfold runCmd
  split
  · exact ensures_then (fun _ => ensures_ok h)
  · exact runMma_canon h
  · exact ensures_ok (promoteAll_canon h)
  · exact ensures_ok (runDrain_canon h)
  · exact runZero_canon h
  · exact runCommit_canon h
  · exact ensures_ok h
  · exact ensures_ok h
  · exact runSign_canon h
  · exact runBucket_canon h
  · exact runReps_canon h
  · exact runScat_canon h
  · exact runMgrad_canon h

theorem trussFault_canon {b : Nat} {c : TrussCmd} {rc : FaultRec} {s : State} (h : Canon s.mem) : Canon (trussFault b c rc s).mem := canon_ite h h

theorem afterCmd_canon {b : Nat} {c : TrussCmd} {s : State} (h : Canon s.mem) : Canon (afterCmd b c s).mem := canon_ite (leaseEnd_canon h) h

theorem startCmd_canon {b : Nat} {s : State} (h : Canon s.mem) : Canon (startCmd b s).mem := by
  unfold startCmd
  split
  · exact h
  · dsimp only
    split
    next h1 =>
      exact afterCmd_canon (ensures_end h1 (runCmd_canon h) :)
    · exact afterCmd_canon (trussFault_canon h)
    · exact afterCmd_canon (trussFault_canon h)

theorem writeEntries_canon {bay base : Nat} {l : List Nat} {s : State} (h : Canon s.mem) : Canon (writeEntries bay base l s).mem := by
  induction l generalizing base s with
  | nil => exact h
  | cons x l ih =>
    rw [writeEntries_cons]
    exact ih (State.write_canon h)

theorem rowWriteStep_canon {bent : Nat} {s : State} (h : Canon s.mem) : Canon (rowWriteStep bent s).mem := by
  unfold rowWriteStep
  dsimp only
  split
  · exact h
  · exact canon_ite h (canon_ite h (State.setBent_canon (State.orStreamFlags_canon (writeEntries_canon h))))

theorem cmdCompletion_canon {b : Nat} {s : State} (h : Canon s.mem) : Canon (cmdCompletion b s).mem := by
  unfold cmdCompletion
  split
  · exact h
  · exact canon_ite h h

theorem vldCore_canon {b : Nat} {g : Guard} {d : BitVec 6} {h : BitVec 4} {n k : BitVec 3} {s : State} (hs : Canon s.mem) :
    Ensures (fun t => Canon t.mem) (vldCore b g d h n k s) :=
  ensures_then (fun _ => ensures_then (fun _ => ensures_then (fun _ => ensures_bind (State.checkTrailer_canon hs) (fun _ h1 => ensures_ok (State.retireV_canon
      (State.writeLanes_canon (State.readElems_canon h1)))))))

theorem vstCore_canon {b : Nat} {g : Guard} {d : BitVec 6} {h : BitVec 4} {n k : BitVec 3} {s : State} (hs : Canon s.mem) :
    Ensures (fun t => Canon t.mem) (vstCore b g d h n k s) :=
  ensures_then (fun _ => ensures_then (fun _ => ensures_then (fun _ => ensures_then (fun _ => ensures_ok (State.retireV_canon (State.writeElems_canon hs))))))

theorem vldxCore_canon {b : Nat} {g : Guard} {d : BitVec 6} {h : BitVec 4} {r : BitVec 6} {s : State} (hs : Canon s.mem) :
    Ensures (fun t => Canon t.mem) (vldxCore b g d h r s) :=
  ensures_then (fun _ => ensures_then (fun _ => ensures_then (fun _ => ensures_then (fun _ => ensures_ok (State.retireV_canon (State.writeLanes_canon
      (State.readElems_canon hs)))))))

theorem vstxCore_canon {b : Nat} {g : Guard} {d : BitVec 6} {h : BitVec 4} {r : BitVec 6} {s : State} (hs : Canon s.mem) :
    Ensures (fun t => Canon t.mem) (vstxCore b g d h r s) :=
  ensures_then (fun _ => ensures_then (fun _ => ensures_then (fun _ => ensures_then (fun _ => ensures_then (fun _ => ensures_ok (State.retireV_canon
      (State.writeElems_canon hs)))))))

end Sys2Proof.Machine
end

section
/-! Every step keeps the memory's canonical form (O5). -/

namespace Sys2Proof.Machine

theorem execLoopr_canon {c : BitVec 2} {a : BitVec 5} {h : BitVec 4} {len : BitVec 8} {s : State} (hs : Canon s.mem) : NextCanon (execLoopr c a h len s) := by
  unfold execLoopr
  split
  · exact State.finish_canon hs (jointerLoopr_canon hs)
  · exact State.onSeq_canon hs (fun _ => loopr_canon hs)

theorem execLoopBodyEnd_canon {s : State} (h : Canon s.mem) : NextCanon (execLoopBodyEnd s) := by
  unfold execLoopBodyEnd
  split
  · exact nextCanon_next (bodyEnd_canon h)
  · exact nextCanon_next (bodyEnd_canon h)
  · exact nextCanon_fault

theorem execWaitBoundExpiry_canon {bay : Nat} {s : State} (h : Canon s.mem) : NextCanon (execWaitBoundExpiry bay s) := by
  unfold execWaitBoundExpiry
  dsimp only
  split
  · split
    · exact State.finish_canon h (waitPass_canon h)
    · exact nextCanon_next h
  · exact nextCanon_next h

theorem execCtrr_canon {d : BitVec 5} {n : BitVec 12} {s : State} (h : Canon s.mem) : NextCanon (execCtrr d n s) := by
  unfold execCtrr
  refine State.scalar_canon h ?_
  split
  · exact ensures_ok (State.retire_canon (State.writeS_canon h))
  · exact ensures_error

theorem execTrap_canon {n : BitVec 4} {s : State} (h : Canon s.mem) : NextCanon (execTrap n s) := by
  unfold execTrap
  split
  · exact nextCanon_next (trapCore_canon h)
  · exact nextCanon_next h
  · exact nextCanon_fault

theorem execTlease_canon {w p : BitVec 3} {t : BitVec 12} {s : State} (h : Canon s.mem) : NextCanon (execTlease w p t s) := by
  unfold execTlease
  refine State.onMtx_canon h (fun _ => ?_)
  split
  · exact ensures_error
  · exact issue_canon h (fun _ _ h1 => ensures_ok (leaseBody_canon h1))

theorem execTnop_canon {w p : BitVec 3} {t : BitVec 12} {s : State} (h : Canon s.mem) : NextCanon (execTnop w p t s) := by
  unfold execTnop
  refine State.onMtx_canon h (fun _ => ?_)
  split
  · exact tnopFinish_canon h
  · exact issue_canon h (fun _ _ h1 => tnopFinish_canon h1)

theorem execSloop_canon {k : BitVec 3} {len : BitVec 5} {s : State} (h : Canon s.mem) : NextCanon (execSloop k len s) := by
  unfold execSloop
  split
  · exact State.finish_canon h (sloopCore_canon h)
  · exact State.onUnit_canon h (fun _ _ => sloopCore_canon h)

theorem execLeaseGrant_canon {bent : Nat} {s : State} (h : Canon s.mem) : NextCanon (execLeaseGrant bent s) := by
  unfold execLeaseGrant
  refine nextCanon_next ?_
  split
  · exact h
  · split
    · exact grant_canon h
    · split
      · exact grant_canon h
      · exact h

theorem execTrussCommandStart_canon {bent : Nat} {s : State} (h : Canon s.mem) : NextCanon (execTrussCommandStart bent s) := by
  unfold execTrussCommandStart
  refine nextCanon_next ?_
  split
  · exact canon_ite (startCmd_canon h) h
  · exact h

theorem execXord_canon {w p : BitVec 3} {t : BitVec 12} {s : State} (h : Canon s.mem) : NextCanon (execXord w p t s) := by
  unfold execXord
  refine State.onUnit_canon h (fun _ _ => ?_)
  split
  · exact xordFinish_canon h
  · exact issue_canon h (fun _ _ h1 => xordFinish_canon h1)

theorem execXnop_canon {w p : BitVec 3} {t : BitVec 12} {s : State} (h : Canon s.mem) :
    NextCanon (execXnop w p t s) := State.onUnit_canon h (fun _ _ => issue_canon h (fun _ _ h1 => ensures_ok (xnopBody_canon h1)))

theorem execLmerge_canon {sz : BitVec 4} {im o j : BitVec 2} {s : State} (h : Canon s.mem) : NextCanon (execLmerge sz im o j s) := by
  unfold execLmerge
  refine State.onLath_canon h (fun _ => ensures_then (fun _ => classOp_canon h (fun _ _ h1 => ?_)))
  split
  · exact ensures_ite (withTag_canon ensures_error) (ensures_ok h1)
  · exact ensures_error

theorem execLinkFatal_canon {peer : Option Nat} {s : State} (h : Canon s.mem) : NextCanon (execLinkFatal peer s) := by
  unfold execLinkFatal
  refine nextCanon_next ?_
  split
  · exact State.discard_canon h
  · exact State.discardAll_canon h

theorem execLgath_canon {sz : BitVec 4} {im o : BitVec 2} {s : State} (h : Canon s.mem) : NextCanon (execLgath sz im o s) := by
  unfold execLgath
  refine State.onLath_canon h (fun n => ?_)
  dsimp only
  split
  · split
    · exact gathFrom_canon h
    · exact ensures_error
  · split
    next hn => exact ensures_ok (State.nextBatch_canon hn h)
    · exact lathWaits_canon h
    · exact ensures_ite ensures_error (ensures_then (fun _ => ensures_then (fun _ => gathFrom_canon (State.chosen_canon h))))

theorem exec_canon (i : Instr) {s : State} (h : Canon s.mem) : NextCanon (exec i s) := by
  cases i with
  | add | sub | mul | mulh | mulhw | div | divw | rem | remw | and | or | xor | andn | shl | shr | sar | rol | min | max | minw | maxw | slt | sltw =>
    exact State.scalar_canon h (aluR_canon h)
  | clz | ctz | popc | shli | shri | sari | bfx | bfxReg | bfxs | bfxsReg | bfi | bfiReg => exact State.scalar_canon h (aluU_canon h)
  | addi | andi | ori | xori | slti => exact State.scalar_canon h (aluI_canon h)
  | lui | tsread => exact State.scalar_canon h (ensures_ok (State.retire_canon (State.writeS_canon h)))
  | beq | bne | blt | bge | bltw | bgew => exact State.scalar_canon h (branch_canon h)
  | jal | jalr => exact State.scalar_canon h (jumpLink_canon h)
  | loop | loopi => exact State.scalar_canon h (ensures_then (fun _ => ensures_ok (loopEnter_canon h)))
  | loopStrided => exact State.scalar_canon h (loopStrided_canon h)
  | loopr => exact execLoopr_canon h
  | loopBodyEnd => exact execLoopBodyEnd_canon h
  | ld | lds => exact State.onSeq_canon h (fun _ => ldCore_canon h)
  | st => exact State.onSeq_canon h (fun _ => stCore_canon h)
  | amoAdd | amoMin | amoMax | amoSwap | amoCas | amoOr => exact State.onSeq_canon h (fun _ => amoCore_canon h)
  | phase => exact State.onSeq_canon h (fun _ => phaseCore_canon h)
  | phaseCompletion => exact nextCanon_next (phaseCompletion_canon h)
  | commitSweep => exact nextCanon_next (commitSweep_canon h)
  | fence => exact State.scalar_canon h (fenceCore_canon h)
  | barinit => exact State.onSeq_canon h (fun _ => barinitCore_canon h)
  | bararr => exact State.onSeq_canon h (fun _ => bararrCore_canon h)
  | barwait | rowwait | frmwait | sqwait => exact State.onSeq_canon h (fun _ => boundedWait_canon h)
  | spawn => exact State.onSeq_canon h (fun _ => spawnCore_canon h)
  | join => exact State.onSeq_canon h (fun _ => joinCore_canon h)
  | halt => exact State.onSeq_canon h (fun _ => haltCore_canon h)
  | hset | setpar => exact State.onSeq_canon h (fun _ => ensures_ok (State.retire_canon h))
  | getpar => exact State.onSeq_canon h (fun _ => ensures_ok (State.retire_canon (State.writeS_canon h)))
  | chpush => exact State.onSeq_canon h (fun _ => chpushCore_canon h)
  | chpop => exact State.onSeq_canon h (fun _ => chpopCore_canon h)
  | tkwait => exact State.onSeq_canon h (fun _ => tkwaitCore_canon h)
  | tksig => exact State.onSeq_canon h (fun _ => tksigCore_canon h)
  | rowpub => exact State.onSeq_canon h (fun _ => rowpubCore_canon h)
  | waitBoundExpiry => exact execWaitBoundExpiry_canon h
  | sqarm => exact State.onSeq_canon h (fun _ => sqarmCore_canon h)
  | sqrel => exact State.onSeq_canon h (fun _ => sqrelCore_canon h)
  | squareDeadline | squareCompletion => exact nextCanon_next (sqSettle_canon h)
  | ctrr => exact execCtrr_canon h
  | jwait => exact State.onJointer_canon h (fun _ _ => jwaitCore_canon h)
  | jline => exact State.onJointer_canon h (fun _ _ => jlineCore_canon h)
  | jemit => exact State.onJointer_canon h (fun _ _ => jemitCore_canon h)
  | jrow => exact State.onJointer_canon h (fun _ _ => jrowCore_canon h)
  | jsub => exact State.onJointer_canon h (fun _ _ => ensures_ok (jsubCore_canon h))
  | jstat => exact State.onJointer_canon h (fun _ _ => jstatCore_canon h)
  | jtile => exact State.onJointer_canon h (fun _ _ => jtileCore_canon h)
  | csrr => exact State.scalar_canon h (csrRead_canon h)
  | csrw | csrs | csrc => exact State.onSeq_canon h (fun _ => csrUpdate_canon h)
  | trap => exact execTrap_canon h
  | tret => exact State.onSeq_canon h (fun _ => tretCore_canon h)
  | waitev => exact State.onSeq_canon h (fun _ => waitevCore_canon h)
  | trapEntry => exact nextCanon_next (trapDeliver_canon h)
  | vadd | vaddK | vaddI | vsub | vsubK | vsubI | vmul | vmulK | vmulI | vmadd | vmaddK | vmaddI | vmsub | vmsubK | vmsubI =>
    exact State.vector_canon h (arithWord_canon h)
  | vmin | vminK | vminI | vmax | vmaxK | vmaxI => exact State.vector_canon h (minmaxWord_canon h)
  | vabs | vneg => exact State.vector_canon h (signWord_canon h)
  | vand | vandK | vandI | vor | vorK | vorI | vxor | vxorK | vxorI => exact State.vector_canon h (bitWord_canon h)
  | vshl | vshlK | vshlI | vshr | vshrK | vshrI | vsar | vsarK | vsarI => exact State.vector_canon h (shiftWord_canon h)
  | vsel | vselK | vselI => exact State.vector_canon h (selWord_canon h)
  | vcmpeq | vcmpeqK | vcmpeqI | vcmpne | vcmpneK | vcmpneI | vcmplt | vcmpltK | vcmpltI | vcmple | vcmpleK | vcmpleI =>
    exact State.vector_canon h (cmpWord_canon h)
  | vwadd | vwaddK | vwaddI | vwmul | vwmulK | vwmulI | vwmadd | vwmaddK | vwmaddI => exact State.vector_canon h (widenWord_canon h)
  | vdot4 | vdot4K => exact State.vector_canon h (dotWord_canon h)
  | vcvt | vnarrow | vlgcvt => exact State.vector_canon h (cvtWord_canon h)
  | vquant => exact State.vector_canon h (quantWord_canon h)
  | vdeq => exact State.vector_canon h (deqWord_canon h)
  | vlgmul => exact State.vector_canon h (lgmulWord_canon h)
  | vlgadd => exact State.vector_canon h (lgaddWord_canon h)
  | vdiv | vdivK => exact State.vector_canon h (divWord_canon h)
  | vexp2 | vlog2 | vrcp | vrsqrt | vtanh | vsigm | vsqrt => exact State.vector_canon h (specWord_canon h)
  | vrsum | vrmax | vrmin => exact State.vector_canon h (reduceWord_canon h)
  | vscan | vscanExcl => exact State.vector_canon h (scanWord_canon h)
  | vperm | vslideK | vslideI | vbcastK | vbcastI => exact State.vector_canon h (permWord_canon h)
  | vzip => exact State.vector_canon h (zipWord_canon h)
  | vunzip => exact State.vector_canon h (unzipWord_canon h)
  | pand | por | pxor | pnot => exact State.vector_canon h (predWord_canon h)
  | pcnt | pfirst => exact State.vector_canon h (kWord_canon h)
  | plenK | plenI => exact State.vector_canon h (plenWord_canon h)
  | vld => exact State.onVec_canon h (fun _ => vldCore_canon h)
  | vst => exact State.onVec_canon h (fun _ => vstCore_canon h)
  | vldx => exact State.onVec_canon h (fun _ => vldxCore_canon h)
  | vstx => exact State.onVec_canon h (fun _ => vstxCore_canon h)
  | vrand => exact State.vector_canon h (randWord_canon h)
  | vshape => exact State.vector_canon h (shapeWord_canon h)
  | vmov | vmovK | vmovI => exact State.vector_canon h (movWord_canon h)
  | vrot => exact State.onVec_canon h (fun _ => rotWord_canon h)
  | vloop | vloopi => exact State.onVec_canon h (fun _ => ensures_then (fun _ => ensures_ok (vloopEnter_canon h)))
  | vloopr => exact State.onVec_canon h (fun _ => vloopr_canon h)
  | vpegw => exact State.onVec_canon h (fun _ => vpegwCore_canon h)
  | vpegs => exact State.onVec_canon h (fun _ => vpegsCore_canon h)
  | vend => exact State.onVec_canon h (fun _ => ensures_ok (vendCore_canon h))
  | vkset => exact State.onVec_canon h (fun _ => ensures_ok (State.retireV_canon (State.writeK_canon h)))
  | tlease => exact execTlease_canon h
  | tfree => exact State.onMtx_canon h (fun _ => issue_canon h (fun _ _ h1 => freeBody_canon h1))
  | tloadb | tmma | tmmas | tpromo | tdrain | tzero | tcommit | tdiscard | tsign | tbucket | trepsFirst | trepsMean | trepsNormmax | tscat | tmgrad =>
    exact trussWord_canon h
  | tnop => exact execTnop_canon h
  | sloop => exact execSloop_canon h
  | leaseGrant => exact execLeaseGrant_canon h
  | leaseWindowEnd => exact nextCanon_next (canon_ite (leaseEnd_canon h) h)
  | trussCommandStart => exact execTrussCommandStart_canon h
  | trussRowWrite => exact nextCanon_next (rowWriteStep_canon h)
  | trussCommandCompletion => exact nextCanon_next (cmdCompletion_canon h)
  | xcopy | xcast | xaddw | xredAddf32 | xredAddi32 | xredMaxf32 | xredMinf32 | xredMaxi32 | xredMini32 | xgath | xscat | xconv | xfill =>
    exact copyWord_canon h
  | xord => exact execXord_canon h
  | xnop => exact execXnop_canon h
  | copySectorMove => exact nextCanon_next (sectorMove_canon h)
  | copyCompletion => exact nextCanon_next (copyCompletion_canon h)
  | xaddwLineWrite => exact nextCanon_next (addwLine_canon h)
  | xredRequestApply => exact nextCanon_next (redApply_canon h)
  | xredAck => exact nextCanon_next (redAck_canon h)
  | xredResend | csi2LineEnd | csi2UnsupportedPacket => exact nextCanon_next h
  | storeCompletion => exact nextCanon_next (storeCompletion_canon h)
  | deferredPegPush => exact nextCanon_next (deferredPush_canon h)
  | streamEnd => exact nextCanon_next (streamEnd_canon h)
  | codeFetch => exact nextCanon_next (codeFetch_canon h)
  | idle | lswap => exact State.onLath_canon h (fun _ => ensures_then (fun _ => ensures_ok h))
  | lckpt => exact State.onLath_canon h (fun _ => ensures_ok h)
  | lgath => exact execLgath_canon h
  | lsort | ltopk | ldedup | lcompact | lscan | lhist => exact State.onLath_canon h (fun _ => mapOp_canon h)
  | lmerge => exact execLmerge_canon h
  | lroute => exact State.onLath_canon h (fun _ => ensures_then (fun _ => classOp_canon h (fun _ _ h1 => ensures_ok h1)))
  | hprobe => exact State.onLath_canon h (fun _ => hashOp_canon h (fun _ _ => probeStep_canon h))
  | hins => exact State.onLath_canon h (fun _ => hashOp_canon h (fun _ _ => insStep_canon h))
  | hdel => exact State.onLath_canon h (fun _ => hashOp_canon h (fun _ _ => delStep_canon h))
  | hrehashBegin => exact State.onLath_canon h (fun _ => ensures_then (fun _ => ensures_then (fun _ => ensures_ok h)))
  | hrehash => exact State.onLath_canon h (fun _ => ensures_then (fun _ => rehash_canon h))
  | hfence => exact State.onLath_canon h (fun _ => hashOp_canon h (fun _ _ => fenceStep_canon h))
  | hashUpdateCompletion => exact nextCanon_next (updateCompletion_canon h)
  | lathTokenArrival => exact nextCanon_next (lathArrival_canon h)
  | batchStoreMove => exact nextCanon_next (batchMove_canon h)
  | tokenEmission => exact nextCanon_next (tokenEmission_canon h)
  | loaderCompletion | gptpAnnounce | pdelayRequest | pdelayOriginate | pdelayResponse | syncLoss => exact nextCanon_next (canon_ite h h)
  | parityError => exact nextCanon_next (parityError_canon h)
  | reloadCompletion => exact nextCanon_next (reloadCompletion_canon h)
  | channelElementArrival => exact nextCanon_next (elementArrival_canon h)
  | creditReturn => exact nextCanon_next (canon_ite (creditReturn_canon h) (linkCredit_canon h))
  | channelAudit => exact nextCanon_next (canon_ite (channelAudit_canon h) (linkAudit_canon h))
  | auditCheck => exact nextCanon_next (canon_ite (auditCheck_canon h) (linkCheck_canon h))
  | resyncReturn => exact nextCanon_next (canon_ite (resyncReturn_canon h) (linkReturn_canon h))
  | resyncApply => exact nextCanon_next (canon_ite (resyncApply_canon h) (linkApply_canon h))
  | csi2FrameStart => exact nextCanon_next (forChains_canon h (fun _ _ h1 => frameStart_canon h1))
  | csi2FrameEnd => exact nextCanon_next (forChains_canon h (fun _ _ h1 => frameEnd_canon h1))
  | csi2LineStart => exact nextCanon_next (forChains_canon h (fun _ _ h1 => lineStart_canon h1))
  | csi2LongPacket => exact nextCanon_next (longPacket_canon h)
  | lineTimeout => exact nextCanon_next (lineTimeout_canon h)
  | lidarFrame => exact nextCanon_next (lidarFrame_canon h)
  | lidarFramePeriod => exact nextCanon_next (lidarPeriod_canon h)
  | gptpSync => exact nextCanon_next (gptpSync_canon h)
  | gptpFollowUp => exact nextCanon_next (gptpFollowUp_canon h)
  | scheduleFrameOrigin => exact nextCanon_next (frameOriginStep_canon h)
  | admission => exact nextCanon_next (admission_canon h)
  | dependenceMet => exact nextCanon_next (dependenceMet_canon h)
  | selection => exact nextCanon_next (selection_canon h)
  | planeFlip => exact nextCanon_next (planeFlip_canon h)
  | aging => exact nextCanon_next (aging_canon h)
  | jobCompletion => exact nextCanon_next (jobCompletion_canon h)
  | jobTime => exact nextCanon_next (jobTime_canon h)
  | jobKill => exact nextCanon_next (jobKill_canon h)
  | preemption => exact nextCanon_next (preemption_canon h)
  | saveComplete => exact nextCanon_next (saveComplete_canon h)
  | pageFaultService => exact nextCanon_next (pageFaultService_canon h)
  | faultTimeout => exact nextCanon_next (faultTimeout_canon h)
  | pageEviction => exact nextCanon_next (pageEviction_canon h)
  | pageMigration => exact nextCanon_next (pageMigration_canon h)
  | migrationRecheck => exact nextCanon_next (migrationRecheck_canon h)
  | migrationTimeout => exact nextCanon_next (migrationTimeout_canon h)
  | invalidationComplete => exact nextCanon_next (invalidationComplete_canon h)
  | pairMerge => exact nextCanon_next (pairMerge_canon h)
  | pairTwinTimeout => exact nextCanon_next (pairTimeout_canon h)
  | replayTimeout => exact nextCanon_next (replayTimeout_canon h)
  | boot => exact nextCanon_next (boot_canon h)
  | linkFatal => exact execLinkFatal_canon h
  | flr => exact nextCanon_next (flr_canon h)
  | partitionSetup => exact nextCanon_next (partitionSetup_canon h)
  | partitionTeardown => exact nextCanon_next (partitionTeardown_canon h)
  | queueRegistration => exact nextCanon_next (queueRegistration_canon h)
  | doorbell => exact nextCanon_next (doorbell_canon h)
  | chainEnable => exact nextCanon_next (chainEnable_canon h)
  | chainDisable => exact nextCanon_next (chainDisable_canon h)
  | hostRegisterWrite => exact nextCanon_next (hostWrite_canon h)
  | preempt => exact nextCanon_next (preemptCmd_canon h)
  | kill => exact nextCanon_next (killCmd_canon h)
  | pageResp => exact nextCanon_next (pageResp_canon h)
  | inval => exact nextCanon_next (invalCmd_canon h)
  | sensor => exact nextCanon_next (sensorCmd_canon h)
  | chaincode => exact nextCanon_next (chainCode_canon h)
  | stage => exact nextCanon_next (stage_canon h)
  | activate => exact nextCanon_next (activate_canon h)
  | activateLive => exact nextCanon_next (activateLive_canon h)
  | logdesc => exact nextCanon_next (logdesc_canon h)
  | logrel => exact nextCanon_next (logrel_canon h)
  | testint => exact nextCanon_next (testintCmd_canon h)
  | evring => exact nextCanon_next (evring_canon h)
  | framerHeartbeat => exact nextCanon_next (heartbeat_canon h)
  | updateRollback => exact nextCanon_next (updateRollback_canon h)
  | framerSilent => exact nextCanon_next (framerSilent_canon h)
  | sensorSample => exact nextCanon_next (sensorSample_canon h)
  | thermalTrip | voltageMonitor | clockMonitor => exact nextCanon_next (canon_ite (State.trip_canon h) h)
  | conditionCleared => exact nextCanon_next (canon_ite (State.fmEvent_canon h) h)
  | selfTest => exact nextCanon_next (selfTest_canon h)
  | spareInsertion => exact nextCanon_next (spareInsertion_canon h)
  | sliceCopyComplete => exact nextCanon_next (sliceCopyComplete_canon h)
  | doeDiscovery | getVersion | getCapabilities | negotiateAlgorithms | getDigests | getCertificate | challenge | getMeasurements =>
    exact nextCanon_next (State.answer_canon h)
  | encodingFault => exact State.raise_canon h
  | unitNotTested => exact nextCanon_next (unitNotTested_canon h)
  | uplinkReply => exact nextCanon_next (uplinkReply_canon h)

theorem State.choose_canon {s : State} (h : Canon s.mem) : Canon (s.choose).2.mem := by
  unfold State.choose
  split <;> exact h

theorem State.memError_canon {s : State} {a : Nat} (h : Canon s.mem) : Canon (s.memError a).mem := by
  unfold State.memError
  split
  · exact State.discard_canon h
  · exact State.fmEvent_canon h

theorem State.sramError_canon {s : State} {u : SramUnit} (h : Canon s.mem) : Canon (s.sramError u).mem := by
  unfold State.sramError
  split
  · exact State.discard_canon h
  · exact State.fmEvent_canon h

/-- The state in which the next step runs, or to which it moves. -/
def Pick.state : Pick → State
  | .run _ s => s
  | .moved s => s

theorem Pick.state_ite {c : Prop} [Decidable c] {x y : Pick} {s : State} (hx : x.state = s) (hy : y.state = s) : (if c then x else y).state = s := by
  split
  · exact hx
  · exact hy

theorem pickWord_state (p : Place) (code : List Byte) (s : State) : (pickWord p code s).state = s := by
  unfold pickWord
  split <;> rfl

theorem pickSeq_state (b : Nat) (y : Bay) (s : State) : (pickSeq b y s).state = s :=
  Pick.state_ite rfl (Pick.state_ite rfl (Pick.state_ite rfl (Pick.state_ite rfl (Pick.state_ite rfl (pickWord_state _ _ _)))))

theorem pickStream_state (b : Nat) (e : Eng) (y : Bay) (s : State) : (pickStream b e y s).state = s :=
  Pick.state_ite rfl (Pick.state_ite rfl (Pick.state_ite rfl (Pick.state_ite rfl (pickWord_state _ _ _))))

theorem pickJointer_state (c p : Nat) (s : State) : (pickJointer c p s).state = s :=
  Pick.state_ite rfl (Pick.state_ite rfl (Pick.state_ite rfl (pickWord_state _ _ _)))

theorem pickLath_state (n : Nat) (s : State) : (pickLath n s).state = s := Pick.state_ite rfl (pickWord_state _ _ _)

/-- Whatever is chosen, an agent's word, a clock, an event or what the outside does, the state in which the step goes on keeps the form. -/
theorem State.pick_canon {s : State} (h : Canon s.mem) : Canon s.pick.state.mem := by
  have hc := State.choose_canon h
  unfold State.pick
  generalize s.choose = x at hc
  obtain ⟨c, u⟩ := x
  dsimp only at hc ⊢
  split
  · dsimp only [Pick.state]
    exact State.tickClock_canon hc
  · dsimp only [Pick.state]
    exact squaresDue_canon (State.passTime_canon hc)
  · rw [pickSeq_state]
    exact hc
  · rw [pickStream_state]
    exact hc
  · rw [pickJointer_state]
    exact hc
  · rw [pickLath_state]
    exact hc
  · dsimp only [Pick.state]
    exact hc
  · dsimp only [Pick.state]
    exact canon_ite (canon_foldl (State.write_canon hc) fun _ _ ht => State.latchTiles_canon ht) hc
  · dsimp only [Pick.state]
    exact State.hostRead_canon hc
  · dsimp only [Pick.state]
    exact State.memError_canon hc
  · dsimp only [Pick.state]
    exact State.fmEvent_canon hc
  · dsimp only [Pick.state]
    exact State.sramError_canon hc
  · dsimp only [Pick.state]
    exact State.fmEvent_canon hc
  · dsimp only [Pick.state]
    exact State.fillCache_canon hc

/-- Settles O5: the choice of a step and each instruction's meaning keep the form, by what each of the model's functions does to the memory. -/
theorem stepKeepsMemory : Obligations.StepKeepsMemory := by
  unfold Obligations.StepKeepsMemory
  intro s t hs ht
  have hpick : Canon s.pick.state.mem := State.pick_canon hs
  unfold step at ht
  split at ht
  next i u hrun => exact exec_canon i ((congrArg (fun x : Pick => Canon x.state.mem) hrun).mp hpick) t ht
  next u hmoved =>
    injection ht with ht
    exact ht ▸ (congrArg (fun x : Pick => Canon x.state.mem) hmoved).mp hpick

end Sys2Proof.Machine
end
